-- ==== Sys2Proof/Word.lean ====
section
/-!
DEFINITION. The words of the block: 32-bit register words (02_control_access.md R62), bytes, and sparse tables.
-/
namespace Sys2Proof

/-- A register word (02 R62). -/
abbrev Word := BitVec 32

/-- A byte of a buffer or memory. -/
abbrev Byte := BitVec 8

/-- A sparse table: (key, value) pairs, keys strictly rising, no value equal to what an unlisted key holds. -/
abbrev Tbl (α : Type) := List (Nat × α)

end Sys2Proof
end

