-- ==== Sys2Proof/Types.lean ====
section
/-!
DEFINITION. The small fixed sets of names that commands and state share: requesters and block windows.
-/
namespace Sys2Proof.Machine

/-- The three requesters of 02_control_access.md R71. -/
inductive Requester where
  /-- BAR0, from PCIe. -/
  | bar0
  /-- the control complex, which serves OAP and the mailbox. -/
  | control
  /-- the debug port. -/
  | debug
deriving DecidableEq, Repr

/-- The block windows of 02_control_access.md R40, one name each (a gallery window carries its gallery's number). -/
inductive Blk where
  | ident | events | timeBase | clocks | power | security | pair
  | ingress | coarse | fine | detect | tuners | triggers | recorder | cross
  | gallery (g : Fin 8)
  | memory | streams | display | stimulus | admission
deriving DecidableEq, Repr

/-! ### Syllables of the Easel core, by format (13_easel_instruction_set.md, Formats): the fields below class and opcode -/

/-- Format M: load/store. -/
structure LsSyl where
  stop : Bool
  mode : BitVec 2
  qp : BitVec 3
  pn : BitVec 4
  data : BitVec 6
  imm : BitVec 9
deriving DecidableEq, Repr

/-- Format A: accumulating MAC; `z` is the field marked 0. -/
structure MacSyl where
  stop : Bool
  qp : BitVec 3
  qn : BitVec 1
  ad : BitVec 3
  z : BitVec 3
  da : BitVec 6
  db : BitVec 6
deriving DecidableEq, Repr

/-- Format X: accumulator transfer. -/
structure XferSyl where
  stop : Bool
  qp : BitVec 3
  qn : BitVec 1
  dd : BitVec 6
  as : BitVec 3
  n : BitVec 6
  z : BitVec 3
deriving DecidableEq, Repr

/-- Format R: ALU, register. -/
structure AluSyl where
  stop : Bool
  qp : BitVec 3
  qn : BitVec 1
  dd : BitVec 6
  da : BitVec 6
  db : BitVec 6
deriving DecidableEq, Repr

/-- Format I: ALU, immediate. -/
structure ImmSyl where
  stop : Bool
  qp : BitVec 3
  qn : BitVec 1
  dd : BitVec 6
  imm : BitVec 12
deriving DecidableEq, Repr

/-- Format K: ALU, wide immediate. -/
structure WideSyl where
  stop : Bool
  dd : BitVec 6
  imm : BitVec 16
deriving DecidableEq, Repr

/-- Format B: control; `f` are bits [23:0]. -/
structure CtlSyl where
  stop : Bool
  f : BitVec 24
deriving DecidableEq, Repr

/-- Format N: bench. -/
structure BenchSyl where
  stop : Bool
  pn : BitVec 4
  z : BitVec 18
deriving DecidableEq, Repr

/-- A controller below the root port as a disk command finds it (16_output_streams.md R510, R511): whether namespace 1 has a
4096-byte LBA without metadata, its capacity in bytes, a volatile write cache, and its LBA 0. -/
structure DriveFound where
  suits : Bool
  cap : Nat
  vwc : Bool
  block0 : List Byte
deriving DecidableEq, Repr

/-- What the drives give a disk command when it ends (16 R515, R516): the controllers, the extent table, the journal's blocks,
the bytes of OPEN extents from their bytes valid on, the bytes READ copies, and whether a transfer failed. -/
structure DiskFound where
  drives : List DriveFound
  table : List Byte
  journal : List (List Byte)
  scans : List (Nat × List Byte)
  data : List Byte
  error : Bool
deriving DecidableEq, Repr

/-- A stretch of a native lane's received symbols (04 R115, R116): their PAM4 levels, two bits each, the first symbol lowest. The
stretch begins with the 257-bit block that precedes the `blocks` blocks it is about; `odd`: that block's header is the second bit of
the first symbol. -/
structure Line where
  levels : Nat
  odd : Bool
  blocks : Nat
deriving DecidableEq, Repr

/-- A host-ring descriptor as host memory holds it (16 R506): buffer address, length, and the reserved word at offset 12. -/
structure HostDesc where
  addr : Nat
  len : Nat
  rsv : Nat
deriving DecidableEq, Repr

/-- A 32-byte word of a queued record whose read found it uncorrectable (16 R491): stream, sequence number, and the word's offset in
the record. -/
structure BadWord where
  stream : Nat
  seq : Nat
  at_ : Nat
deriving DecidableEq, Repr

end Sys2Proof.Machine
end

