-- ==== Sys2Proof/Syntax.lean ====
section
/-!
DEFINITION. The commands of the block: one constructor for each row of spec/opcode_table.json, in the table's order.
The table gives no bits; the operands are what the row's rules take from outside.
-/
namespace Sys2Proof

open Sys2Proof.Machine

/-- The commands (spec/opcode_table.json). -/
inductive Instr where
  /-- REGISTER_WRITE (R66): A write to a register field that has no row of its own takes effect, is ignored or is flagged according to its access code, bank view, freeze and lock. -/
  | registerWrite (r : Requester) (o : Nat) (v : Word)
  /-- RL_READ (R71): A read of an RL word returns the low half of a 64-bit value and latches the high half into the requester's read shadow of the block. -/
  | rlRead (r : Requester) (o : Nat)
  /-- BAD_ACCESS (R62): A narrow write, a misaligned access or an access outside every register is ignored as a write, returns 0 as a read, and raises BADACC and EV005. -/
  | badAccess (r : Requester) (write : Bool) (o bytes v : Nat)
  /-- BLK_LOCK_SET (R65): Writing 1 to BLK_LOCK.LOCK locks every RWL field of the block until power-on reset or RESET_N. -/
  | blkLockSet (b : Blk)
  /-- TV_COMPARE (R73): The three copies of a TV field are compared at a use or a CK_SLOW edge; a single disagreeing copy is rewritten, and no agreement stops the function that depends on the field. -/
  | tvCompare (o lo c0 c1 c2 : Nat)
  /-- TV_RESTORE_DONE (R73): The control complex restores all three copies of a TV field from its image, and the stopped function resumes. -/
  | tvRestoreDone (o : Nat)
  /-- EVENT_OCCURRENCE (R75): An event source raises an occurrence, which updates CNT, PEND, SAT and EVT_TAG and is delivered on its enabled routes. -/
  | eventOccurrence (n : Nat)
  /-- EVT_PEND_CLEAR (R77): A write of 1 to EVT_STAT.PEND clears PEND, CNT and SAT, and an occurrence in the same cycle counts as the first one after the clear. -/
  | evtPendClear (n : Nat) (again : Bool)
  /-- EVT_CFG_WRITE (R75): A write to EVT_CFG that sets EN from 0 to 1 while PEND is 1 delivers the event at once on the MSI-X, OAP and tile routes. -/
  | evtCfgWrite (n : Nat) (v : Word)
  /-- OAP_REQUEST (R55): A REQUEST datagram is authenticated and executed in order when its number is the expected one; a retransmission gets its cached response, and anything else is rejected. -/
  | oapRequest (addr port : Nat) (datagram : List Byte)
  /-- READ (R51): The OAP READ operation returns the value of one object, or of its live bank when LIVE is set on an rwd object. -/
  | objRead (live : Bool) (i j : Nat)
  /-- WRITE (R45): The OAP WRITE operation writes one object after checking its type, length, range and access right. -/
  | objWrite (mailbox auth : Bool) (i j ty : Nat) (data : List Byte)
  /-- READ_RANGE (R51): The OAP READ_RANGE operation returns the concatenated values of a run of subindices. -/
  | objReadRange (live : Bool) (i j last : Nat)
  /-- DESCRIBE (R51): The OAP DESCRIBE operation returns the type, right, flags, CSR offset, default, minimum and maximum of an object. -/
  | objDescribe (i j : Nat)
  /-- SUBSCRIBE (R51): The OAP SUBSCRIBE operation sets the event mask for which this session receives notifications. -/
  | objSubscribe (sid : Nat) (mask : List Byte)
  /-- OPEN (R57): An OPEN datagram opens a session, answered by OPEN_ACK with a session identifier and initial notification number, or is rejected when the table is full or authentication is required. -/
  | oapOpen (addr port : Nat) (datagram : List Byte)
  /-- CLOSE (R57): A CLOSE datagram closes its session and raises EV008. -/
  | oapClose (addr port : Nat) (datagram : List Byte)
  /-- SESSION_IDLE_TIMEOUT (R57): A session with no datagram from the host for longer than OAP_IDLE is closed. -/
  | sessionIdleTimeout (sid : Nat)
  /-- NOTIFY_SEND (R78): Within 1 ms of the first undelivered entry, the engine sends a NOTIFY datagram that gathers the session's pending event entries. -/
  | notifySend (sid : Nat)
  /-- NOTIFY_ACK (R59): A NOTIFY_ACK from the host acknowledges notifications and frees the notification window. -/
  | notifyAck (addr port : Nat) (datagram : List Byte)
  /-- NOTIFY_RESEND (R59): An unacknowledged NOTIFY is sent again every 200 ms, and after 10 sends the session is closed. -/
  | notifyResend (sid num : Nat)
  /-- NET_SETTINGS_APPLY (R47): A write to the network objects takes effect 100 ms after the response that carried it, and open sessions continue at the new address. -/
  | netSettingsApply (k : Nat)
  /-- STORE (R44): Writing the STORE key to 0x1010:01 stores the current values of all persistent objects. -/
  | persistStore (key : Word)
  /-- ERASE (R44): Writing the ERASE key to 0x1010:02 erases the stored persistent set, so the defaults apply from the next start. -/
  | persistErase (key : Word)
  /-- PERSIST_DONE (R44): A store or erase of the persistent set completes and raises EV013. -/
  | persistDone
  /-- MBX_CTRL_WRITE (R61): A write of MBX_CTRL.LEN starts execution of the mailbox request, or is ignored with OVR and EV011 while BUSY. -/
  | mbxCtrlWrite (v : Word)
  /-- MAILBOX_RESPONSE_DONE (R61): The mailbox request finishes executing; its response is written, BUSY clears, DONE is set and EV010 is raised. -/
  | mailboxResponseDone
  /-- PCIE_FLR (R640): A PCIe function-level reset, hot reset or link-down resets the mailbox, host rings, BAR0 shadows and BAR0 lock ownership. -/
  | pcieFlr
  /-- TB_SET_ARM (R87): A write to TB_SET_H or to object 0x1402:00 loads a 96-bit value and arms a set in the mode given by SETMODE. -/
  | tbSetArm (r : Requester) (whole : Bool) (value : Nat)
  /-- TB_CANCEL (R88): Writing 1 to TB_CTRL.CANCEL discards a pending set. -/
  | tbCancel
  /-- TB_SET_APPLY (R88): An armed set is applied at the next accepted PPS edge or reference edge, steps the tag, sets TQ.SET and raises EV028. -/
  | tbSetApply (edge : Nat)
  /-- ERA_INCREMENT (R80): The epoch seconds wrap to 0, the era increments in the same step and EV023 is raised. -/
  | eraIncrement
  /-- PPS_EDGE (R90): An edge at PPS_IN is stamped and accepted or rejected; an accepted edge updates the PPS error and the discipline loop. -/
  | ppsEdge (falling : Bool) (stamp raw : Nat)
  /-- PPS_MISS (R90): When no PPS edge is accepted by 1 s + TOL after the last one, a miss is counted and EV019 is raised. -/
  | ppsMiss
  /-- TB_ADJ_RATE_WRITE (R95): With DISC = SOFT, a write to TB_ADJ_RATE sets c at the next reference edge. -/
  | tbAdjRateWrite (v : Word)
  /-- SOFT_DISC_STALE (R95): With DISC = SOFT and no rate write for 2 s, TQ.HOLD is set, c is held and EV027 is raised. -/
  | softDiscStale
  /-- REF_GATE_END (R98): At the end of a measurement gate, the monitor judges the band of each reference and evaluates switch-over. -/
  | refGateEnd (count : Nat) (bypass : Int)
  /-- REF_LOST (R98): A reference with no edge for 3 nominal periods enters band LOST. -/
  | refLost (refB : Bool)
  /-- REF_SWITCHOVER (R100): The active reference changes to the other reference at its next edge, increments SWCNT and raises EV018. -/
  | refSwitchover
  /-- PTP_EVENT_RX (R106): A received PTP event message is timestamped and delivered to the host RX ring of its port. -/
  | ptpEventRx (port stamp : Nat) (frame : List Byte) (descs : List HostDesc)
  /-- PTP_TX_TIMESTAMP (R107): A transmitted PTP event message is timestamped into the port's FIFO, or its originTimestamp is written in one-step mode. -/
  | ptpTxTimestamp (port stamp : Nat) (frame : List Byte)
  /-- PTP_POP (R107): Writing 1 to PTP_TXST.POP removes the head entry of the transmit-tag FIFO. -/
  | ptpPop (port : Nat)
  /-- LANE_SIGNAL_DETECT (R138): Signal is detected on a lane, which enters ADAPT and applies its stored equalisation or runs a full adaptation. -/
  | laneSignalDetect (lane : Nat)
  /-- LOSS_OF_SIGNAL (R138): A lane loses signal, enters DOWN and fails its frame in flight with cause LOS. -/
  | lossOfSignal (lane : Nat)
  /-- ADAPTATION_DONE (R118): The lane's fast relock or full adaptation completes, and the lane enters HUNT. -/
  | adaptationDone (lane : Nat)
  /-- ADAPT_TIMEOUT (R118): A lane without block lock 200 µs after signal detection starts a full adaptation. -/
  | adaptTimeout (lane : Nat)
  /-- LMB_RX (R117): A lane marker block is received; the second LMB at the same alignment gives block lock and the lane enters UP. The
  block is the first of the stretch, and `pos` the place of its header bit in the lane's received bits. -/
  | lmbRx (lane : Nat) (line : Line) (pos : Nat)
  /-- BLOCK_LOCK_LOSS (R117): A lane loses block lock after 3 × 8192 blocks without a valid LMB or 16 corrupt control blocks within 8192. -/
  | blockLockLoss (lane : Nat)
  /-- FRAME_VERDICT (R123): The lane die judges a complete WSF frame against checks 1 to 6 and accepts it or discards it whole. The
  stretch holds the frame's blocks; `stamp` is the instant at which its first bit reached the stamping point, in units of 2⁻⁴⁸ s. -/
  | frameVerdict (lane : Nat) (line : Line) (stamp : Nat)
  /-- FRAME_LONG_CHECK (R123): The block after a frame is checked; a failure discards the following data blocks and sends the lane back to hunting. The stretch begins with that block. -/
  | frameLongCheck (lane : Nat) (line : Line)
  /-- GAP_INTERIM (R141): Every GAPINT milliseconds while a gap lasts, an INTERIM gap record with a lower bound on its length is written. -/
  | gapInterim (n : Nat)
  /-- RATEFAULT_CLEAR (R129): Writing 1 to ING_ISTAT.CAUSE bit 8 ends RATEFAULT for the input. -/
  | ratefaultClear (n : Nat)
  /-- JESD_LINK_LOCK (R133): A JESD204C lane gains or loses sync-header lock or the extended-multiblock pilot and changes state. -/
  | jesdLinkLock (lane : Nat) (locked : Bool)
  /-- JESD_MULTIBLOCK_RELEASE (R134): At its LEMC release point a multiblock of an input is released, or declared a gap with cause ALIGN or CRC. Its
  `words` are the converters' 16-bit words after the link's descrambler, `stamp` the instant at which its first bit reached the stamping point. -/
  | jesdMultiblockRelease (n k : Nat) (words : List Nat) (stamp : Nat) (aligned crcOk : Bool)
  /-- FAST_PATH_SAMPLE (R27): A decoded sample of a locked input enters the fast path before its frame's CRC verdict and feeds the sketch and level triggers. -/
  | fastPathSample (n counter : Nat) (i q : Int) (first : Bool)
  /-- SAMPLE_RELEASE (R137): Accepted samples and zero-valued gap indices are released on the main path in index order with validity bits. -/
  | sampleRelease (n : Nat)
  /-- INGRESS_SWAP (R136): At each affected lane's frame or multiblock boundary the lane map and ingress settings of the new bank become live. -/
  | ingressSwap (lane : Nat)
  /-- COARSE_SPECTRUM (R161): The front completes a coarse spectrum on the main output or the seam port, requantises it and delivers it to its consumers. -/
  | coarseSpectrum (n : Nat) (seam : Bool) (m : Nat)
  /-- SKETCH_SPECTRUM (R165): The front completes a sketch spectrum from the fast path and delivers its C16 and LP16 values. -/
  | sketchSpectrum (n m : Nat)
  /-- SKETCH_DEADLINE (R172): At T_pin of a sketch window's last index plus 2 µs, the window is formed with missing indices taken as zero. -/
  | sketchDeadline (n m : Nat)
  /-- CCH_SWAP (R174): An input's coarse grid swaps to the new bank at its swap index; when every input has swapped, BLK_GEN advances and EV243 is raised. -/
  | cchSwap (n port : Nat)
  /-- COARSE_VOID_DEADLINE (R196): A coarse spectrum not present by T_pin of its last index plus 2 µs is taken as void by the fine channeliser. -/
  | coarseVoidDeadline (n m : Nat)
  /-- FINE_SPECTRUM_DUE (R195): A fine spectrum becomes due when the last coarse spectrum of its span is present or void, and its transform starts. -/
  | fineSpectrumDue (n mf : Nat)
  /-- FINE_SPECTRUM (R187): The fine transform of a spectrum completes and its requantised fine bins are delivered to the detectors and triggers. -/
  | fineSpectrum (n mf k : Nat)
  /-- FCH_SWAP (R202): An input's fine grid swaps at its swap point; when every old-grid spectrum is produced, BLK_GEN advances and EV250 is raised. -/
  | fchSwap (n : Nat)
  /-- INTERVAL_DEADLINE (R218): At a view's closing deadline the interval under way closes, and indices not yet delivered are void. -/
  | intervalDeadline (v x : Nat)
  /-- DETECTOR_RECORD_CLOSE (R219): The record of a closed interval is formed, including change-only, map and SK-flag results, and enters its destination. -/
  | detectorRecordClose (v x : Nat)
  /-- SKETCH_RECORD_HOLD_END (R218): A sketch-plane record is released at T_pin of its last index plus 400 ns, after all frame-fault notices that concern it. -/
  | sketchRecordHoldEnd (v x : Nat)
  /-- DVW_CLR_HOLD (R214): Writing 1 to DVW_CLR.HOLD restarts the MAX or MIN hold from the next spectrum. -/
  | dvwClrHold (v : Nat)
  /-- DVW_CLR_PERSIST (R222): Writing 1 to DVW_CLR.PERSIST clears the view's persistence raster. -/
  | dvwClrPersist (v : Nat)
  /-- VIEW_SWAP (R227): A view swaps to the new bank at its interval boundary or, with CUT, at the commit instant; when all have swapped EV279 is raised. -/
  | viewSwap (v : Nat)
  /-- VIEW_DRAINED (R227): A disabled view finishes draining its store and enters OFF. -/
  | viewDrained (v : Nat)
  /-- VIEW_RATE_STEP (R229): A view adopts a new ladder step at the first interval boundary of the new length and raises EV280. -/
  | viewRateStep (v x e : Nat)
  /-- TUNER_OUTPUT (R255): A tuner chain delivers an output sample with its index, position and tag to its consumers. -/
  | tunerOutput (t : Nat)
  /-- TUNER_SWAP (R258): At the swap index a tuner takes its new NCO settings and starts a glaze or a new series as its change requires. -/
  | tunerSwap (t : Nat)
  /-- GLAZE_END (R260): A tuner's glaze completes its last cross-faded output, sets GLZEND and finishes the tuner's swap. -/
  | glazeEnd (t : Nat)
  /-- TUNER_DRAINED (R262): A disabled tuner's last output reaches its consumers; the tuner enters OFF and sets DRAINED. -/
  | tunerDrained (t : Nat)
  /-- TUNER_STEP_CHANGE (R253): A tuner's stream path changes its step stages or packet thinning at the first suitable output or packet after a ladder order. -/
  | tunerStepChange (t : Nat)
  /-- TRIGGER_PRODUCT (R275): A product reaches a trigger unit, is judged against its condition and gate, and updates its element's count. -/
  | triggerProduct (u x e : Nat)
  /-- TRIGGER_FIRE (R277): A trigger unit's decision cycle: it fires, takes a firing number and decision tag, and delivers its actions within 16 cycles. -/
  | triggerFire (u : Nat)
  /-- HOLDOFF_END (R278): A unit's hold-off ends when the time base reaches its decision tag plus HOFF, and the unit re-arms or disarms. -/
  | holdoffEnd (u : Nat)
  /-- TRG_ARM (R277): TRG_CMD with OP = ARM arms a unit or an arm group. -/
  | trgArm (unit : Nat) (group : Bool)
  /-- TRG_DISARM (R277): TRG_CMD with OP = DISARM disarms a unit or an arm group. -/
  | trgDisarm (unit : Nat) (group : Bool)
  /-- TRG_FORCE (R280): TRG_CMD with OP = FORCE fires a unit at once, or holds the force pending until its tag when FTAGEN names a future tag. -/
  | trgForce (unit : Nat) (ftagen : Bool)
  /-- FORCE_SCHEDULED (R280): A pending force fires in the first cycle whose time base is at or after its loaded tag. -/
  | forceScheduled (u : Nat)
  /-- TRIG_IN_EDGE (R272): A TRIG_IN edge that persists for MINW cycles is accepted as a PIN product; shorter pulses are counted as glitches. -/
  | trigInEdge (p : Nat) (level persists : Bool) (stamp : Nat)
  /-- SOFT_TRIGGER (R393): An Easel core write to TRIGW issues a SOFT product for a unit, with the loaded or the arrival tag. -/
  | softTrigger (t u : Nat) (loaded : Bool)
  /-- PAIR_GROUP_ARM (R282): A pair arm group is armed on both engines in the first cycle at or after the arm tag. -/
  | pairGroupArm (g : Nat)
  /-- TOUT_ALIGNED_EDGE (R285): An ALIGNED TRIG_OUT pulse begins at the condition tag plus TOUT_DLY. -/
  | toutAlignedEdge (p : Nat)
  /-- TOUT_PULSE_END (R285): A TRIG_OUT pulse ends PW × 5 ns after its start, and pending TOUT settings take hold of the pin. -/
  | toutPulseEnd (p : Nat)
  /-- TRIGGER_RECORD_RELEASE (R286): A LEVEL or SKETCH trigger record is released after T_pin of the completing product's last index plus 400 ns. -/
  | triggerRecordRelease (u : Nat)
  /-- TRIGGER_RECORD_DEQUEUE (R287): A queued trigger record leaves for a stream once that stream accepts it. -/
  | triggerRecordDequeue (st : Nat)
  /-- TRIGGER_UNIT_SWAP (R291): A trigger unit swaps to the new bank on its return to the disarmed state; when all units and pins have swapped BLK_GEN advances. -/
  | triggerUnitSwap (u : Nat)
  /-- CAP_REQUEST (R301): CAP_CMD with OP = REQUEST asks for a capture from a slot with the tag in CAP_TAG; the request is accepted or refused. -/
  | capRequest (slot : Nat)
  /-- CAPTURE_HELD (R305): A capture becomes HELD once the last index of every window is written; its HEADER is written and EV330 is raised. -/
  | captureHeld (num : Nat)
  /-- CAP_READ (R305): CAP_CMD with OP = READ starts read-out of a HELD capture. -/
  | capRead (num : Nat)
  /-- CAP_RELEASE (R305): CAP_CMD with OP = RELEASE frees a capture, or stops a FILLING or READING capture at once, and drops its pins. -/
  | capRelease (num : Nat)
  /-- CAPSTAT_DONE (R310): Capture statistics over every input's window are completed and CAPSTAT records are written, raising EV343. -/
  | capstatDone (num : Nat)
  /-- READOUT_END (R306): A capture's read-out finishes with its END record and EV331, and it is released when AUTOREL is set. -/
  | readoutEnd (num : Nat)
  /-- HBM_WRITER_START (R315): The HBM writer starts after a wake, reserves slots for the held watch samples and writes live samples after them. -/
  | hbmWriterStart
  /-- WATCH_DRAIN_DONE (R315): The last held watch page is drained into the HBM ring; the recorder enters RUN and raises EV335. -/
  | watchDrainDone
  /-- LADDER_EVALUATION (R319): Every PERIOD × 10 µs the ladder evaluates each stream's queue fill and raises, restores or keeps its step. -/
  | ladderEvaluation
  /-- RECORDER_SWAP (R322): The recorder takes its new bank, repartitioning the ring at the commit instant when its layout changes. -/
  | recorderSwap
  /-- SEAM_ABSENT_DEADLINE (R330): An input's seam-port spectrum not at the seam by its deadline is marked absent and raises EV354. -/
  | seamAbsentDeadline (n m : Nat)
  /-- SEAM_CELL_RELEASE (R330): Once every selected input's spectrum is present or absent, the seam releases its cells to the galleries' landing buffers. -/
  | seamCellRelease (m full : Nat)
  /-- SEAM_SKEW_CHECK (R331): Once in every 2^20 spectra the seam compares pin times across inputs and sets SKEW when they differ beyond TOL. -/
  | seamSkewCheck (m : Nat)
  /-- SUBINT_END (R339): At the end of a sub-integration the bench sums are added into the gallery SRAM accumulators. -/
  | subintEnd
  /-- XSP_INTERVAL_CLOSE (R347): A cross-spectral interval closes and its accumulators pass to their dump copies. -/
  | xspIntervalClose
  /-- DUMP_SLOT (R351): The collector starts a tile's dump slot and emits its records in the fixed order, followed by XSTAT after the last slot. -/
  | dumpSlot
  /-- BEAMVOLT_EMIT (R346): A beam tile emits a BEAMVOLT record for a group of VSPEC + 1 spectra of a bin. -/
  | beamvoltEmit (k m : Nat)
  /-- XSP_WDATA_WRITE (R343): A write of XSP_WDATA in the staged view stores a weight at XSP_WPTR and increments the pointer. -/
  | xspWdataWrite (v : Word)
  /-- XSP_SWAP (R359): The cross-spectral engine swaps its routing, plan and weights for the same spectrum in every gallery. -/
  | xspSwap
  /-- XSP_DUMP_DRAINED (R360): The old interval's dump finishes after a swap; BLK_GEN advances and EV358 is raised. -/
  | xspDumpDrained
  /-- LDB (R418): Loads a sign-extended byte into a D register. -/
  | ldb (t : Nat) (y : LsSyl)
  /-- LDBU (R418): Loads a zero-extended byte into a D register. -/
  | ldbu (t : Nat) (y : LsSyl)
  /-- LDH (R418): Loads a sign-extended halfword into a D register. -/
  | ldh (t : Nat) (y : LsSyl)
  /-- LDHU (R418): Loads a zero-extended halfword into a D register. -/
  | ldhu (t : Nat) (y : LsSyl)
  /-- LDW (R418): Loads a word into a D register. -/
  | ldw (t : Nat) (y : LsSyl)
  /-- LDD (R418): Loads 8 bytes into two D registers. -/
  | ldd (t : Nat) (y : LsSyl)
  /-- LDQ (R418): Loads 16 bytes into four D registers. -/
  | ldq (t : Nat) (y : LsSyl)
  /-- LEA (R418): Writes the address formed into a P register without a memory access. -/
  | lea (t : Nat) (y : LsSyl)
  /-- STB (R418): Stores a byte from a D register. -/
  | stb (t : Nat) (y : LsSyl)
  /-- STH (R418): Stores a halfword from a D register. -/
  | sth (t : Nat) (y : LsSyl)
  /-- STW (R418): Stores a word from a D register. -/
  | stw (t : Nat) (y : LsSyl)
  /-- STD (R418): Stores 8 bytes from two D registers. -/
  | std (t : Nat) (y : LsSyl)
  /-- STQ (R418): Stores 16 bytes from four D registers. -/
  | stq (t : Nat) (y : LsSyl)
  /-- STAC (R418): Stores an accumulator as C16 with a shift taken from an M register. -/
  | stac (t : Nat) (y : LsSyl)
  /-- LKACQ (R419): Acquires a hardware lock and returns the outcome code in a D register. -/
  | lkacq (t : Nat) (y : LsSyl)
  /-- LKREL (R419): Waits as FENCE does, releases a hardware lock and returns the outcome code. -/
  | lkrel (t : Nat) (y : LsSyl)
  /-- CMAC (R420): Adds the complex product of two C16 values to an accumulator, saturating. -/
  | cmac (t : Nat) (y : MacSyl)
  /-- CMACC (R420): Adds a C16 value times the conjugate of another to an accumulator, saturating. -/
  | cmacc (t : Nat) (y : MacSyl)
  /-- CMSB (R420): Subtracts the complex product of two C16 values from an accumulator, saturating. -/
  | cmsb (t : Nat) (y : MacSyl)
  /-- CMUL (R420): Sets an accumulator to the complex product of two C16 values. -/
  | cmul (t : Nat) (y : MacSyl)
  /-- CMULC (R420): Sets an accumulator to a C16 value times the conjugate of another. -/
  | cmulc (t : Nat) (y : MacSyl)
  /-- RMAC (R420): Adds a real product of two halfwords to the I component of an accumulator. -/
  | rmac (t : Nat) (y : MacSyl)
  /-- RMUL (R420): Sets an accumulator's I component to a real product and its Q component to 0. -/
  | rmul (t : Nat) (y : MacSyl)
  /-- ACLR (R420): Clears an accumulator. -/
  | aclr (t : Nat) (y : MacSyl)
  /-- AADD (R420): Adds one accumulator into another, per component and saturating. -/
  | aadd (t : Nat) (y : MacSyl)
  /-- AMOV (R420): Copies one accumulator into another. -/
  | amov (t : Nat) (y : MacSyl)
  /-- EXTC (R420): Extracts an accumulator as C16 into a D register with a shift, rounding and saturating. -/
  | extc (t : Nat) (y : XferSyl)
  /-- EXTI (R420): Extracts an accumulator's I component as I32 with a shift. -/
  | exti (t : Nat) (y : XferSyl)
  /-- EXTQ (R420): Extracts an accumulator's Q component as I32 with a shift. -/
  | extq (t : Nat) (y : XferSyl)
  /-- AGET (R420): Moves a selected part of an accumulator exactly into a D register. -/
  | aget (t : Nat) (y : XferSyl)
  /-- ASET (R420): Moves a D register exactly into a selected part of an accumulator. -/
  | aset (t : Nat) (y : XferSyl)
  /-- ADD (R421): Adds two D registers modulo 2^32. -/
  | add (t : Nat) (y : AluSyl)
  /-- SUB (R421): Subtracts two D registers modulo 2^32. -/
  | sub (t : Nat) (y : AluSyl)
  /-- ADDS (R421): Adds two D registers with saturation. -/
  | adds (t : Nat) (y : AluSyl)
  /-- SUBS (R421): Subtracts two D registers with saturation. -/
  | subs (t : Nat) (y : AluSyl)
  /-- AND (R421): Bitwise AND of two D registers. -/
  | and (t : Nat) (y : AluSyl)
  /-- OR (R421): Bitwise OR of two D registers. -/
  | or (t : Nat) (y : AluSyl)
  /-- XOR (R421): Bitwise exclusive OR of two D registers. -/
  | xor (t : Nat) (y : AluSyl)
  /-- ANDN (R421): Bitwise AND of one D register with the complement of another. -/
  | andn (t : Nat) (y : AluSyl)
  /-- SHL (R421): Shifts a D register left. -/
  | shl (t : Nat) (y : AluSyl)
  /-- SHR (R421): Shifts a D register right, logically. -/
  | shr (t : Nat) (y : AluSyl)
  /-- SAR (R421): Shifts a D register right, arithmetically. -/
  | sar (t : Nat) (y : AluSyl)
  /-- MIN (R421): Signed minimum of two D registers. -/
  | min (t : Nat) (y : AluSyl)
  /-- MAX (R421): Signed maximum of two D registers. -/
  | max (t : Nat) (y : AluSyl)
  /-- MINU (R421): Unsigned minimum of two D registers. -/
  | minu (t : Nat) (y : AluSyl)
  /-- MAXU (R421): Unsigned maximum of two D registers. -/
  | maxu (t : Nat) (y : AluSyl)
  /-- MOV (R421): Copies a D register. -/
  | mov (t : Nat) (y : AluSyl)
  /-- CADD (R421): Adds two C16 values per component with saturation. -/
  | cadd (t : Nat) (y : AluSyl)
  /-- CSUB (R421): Subtracts two C16 values per component with saturation. -/
  | csub (t : Nat) (y : AluSyl)
  /-- CCONJ (R421): Conjugates a C16 value with saturation. -/
  | cconj (t : Nat) (y : AluSyl)
  /-- CSWAP (R421): Exchanges the I and Q components of a C16 value. -/
  | cswap (t : Nat) (y : AluSyl)
  /-- CSHR (R421): Shifts both components of a C16 value right, arithmetically. -/
  | cshr (t : Nat) (y : AluSyl)
  /-- PACK (R421): Packs two halfwords into a C16 value. -/
  | pack (t : Nat) (y : AluSyl)
  /-- CMPEQ (R421): Sets a predicate when two D registers are equal. -/
  | cmpeq (t : Nat) (y : AluSyl)
  /-- CMPLT (R421): Sets a predicate on a signed less-than comparison. -/
  | cmplt (t : Nat) (y : AluSyl)
  /-- CMPLTU (R421): Sets a predicate on an unsigned less-than comparison. -/
  | cmpltu (t : Nat) (y : AluSyl)
  /-- CMPLE (R421): Sets a predicate on a signed less-or-equal comparison. -/
  | cmple (t : Nat) (y : AluSyl)
  /-- QAND (R421): ANDs two predicates. -/
  | qand (t : Nat) (y : AluSyl)
  /-- QOR (R421): ORs two predicates. -/
  | qor (t : Nat) (y : AluSyl)
  /-- QANDN (R421): ANDs a predicate with the complement of another. -/
  | qandn (t : Nat) (y : AluSyl)
  /-- MVTX (R422): Writes a D register into a register of the X space, with the side effects stated for PRG and SR. -/
  | mvtx (t : Nat) (y : AluSyl)
  /-- MVFX (R422): Reads a register of the X space into a D register. -/
  | mvfx (t : Nat) (y : AluSyl)
  /-- MVFM (R423): At level 1, reads a main-set register into a shadow D register. -/
  | mvfm (t : Nat) (y : AluSyl)
  /-- MVTM (R423): At level 1, writes a shadow D register into a main-set register. -/
  | mvtm (t : Nat) (y : AluSyl)
  /-- ADDI (R421): Adds a sign-extended immediate to a D register. -/
  | addi (t : Nat) (y : ImmSyl)
  /-- ANDI (R421): ANDs a D register with an immediate. -/
  | andi (t : Nat) (y : ImmSyl)
  /-- ORI (R421): ORs a D register with an immediate. -/
  | ori (t : Nat) (y : ImmSyl)
  /-- SHLI (R421): Shifts a D register left by an immediate. -/
  | shli (t : Nat) (y : ImmSyl)
  /-- SHRI (R421): Shifts a D register right logically by an immediate. -/
  | shri (t : Nat) (y : ImmSyl)
  /-- SARI (R421): Shifts a D register right arithmetically by an immediate. -/
  | sari (t : Nat) (y : ImmSyl)
  /-- MOVLO (R421): Sets a D register to a sign-extended 16-bit immediate. -/
  | movlo (t : Nat) (y : WideSyl)
  /-- MOVHI (R421): Sets the upper 16 bits of a D register. -/
  | movhi (t : Nat) (y : WideSyl)
  /-- NOP (R424): Does nothing. -/
  | nop (t : Nat) (y : CtlSyl)
  /-- BR (R424): Branches to a target when its predicate holds. -/
  | br (t : Nat) (y : CtlSyl)
  /-- CALL (R424): Saves the return address in P15 and branches when its predicate holds. -/
  | call (t : Nat) (y : CtlSyl)
  /-- RET (R424): Returns to the address in P15 when its predicate holds. -/
  | ret (t : Nat) (y : CtlSyl)
  /-- LOOP (R371): Starts a hardware loop whose count comes from a D register. -/
  | loop (t : Nat) (y : CtlSyl)
  /-- LOOPI (R371): Starts a hardware loop with an immediate count. -/
  | loopi (t : Nat) (y : CtlSyl)
  /-- LBRK (R424): Ends a loop level when its predicate holds. -/
  | lbrk (t : Nat) (y : CtlSyl)
  /-- RTI (R378): Returns from a handler to the main set at its frozen PC. -/
  | rti (t : Nat) (y : CtlSyl)
  /-- SWP (R398): A swap point: with an exchange armed at level 0, the core fences, swaps program banks and jumps to ENTRY. -/
  | swp (t : Nat) (y : CtlSyl)
  /-- FENCE (R367): Holds issue until every earlier store is visible and every earlier load has returned. -/
  | fence (t : Nat) (y : CtlSyl)
  /-- IDLE (R424): Holds issue until an enabled interrupt is pending. -/
  | idle (t : Nat) (y : CtlSyl)
  /-- BCLR (R426): Bench instruction that clears all 4096 bench accumulators. -/
  | bclr (t : Nat) (y : BenchSyl)
  /-- BMAC (R427): Bench instruction that accumulates a matrix product into bench accumulators, granule by granule. -/
  | bmac (t : Nat) (y : BenchSyl)
  /-- BOUT (R428): Bench instruction that writes bench accumulators to tile memory. -/
  | bout (t : Nat) (y : BenchSyl)
  /-- BMOV (R429): Bench instruction that copies a two-dimensional block with a shift and a change of format. -/
  | bmov (t : Nat) (y : BenchSyl)
  /-- BFFT (R430): Bench instruction that performs one radix-2 FFT pass on a batch of transforms. -/
  | bfft (t : Nat) (y : BenchSyl)
  /-- BENCH_GRANULE_END (R382): A granule of a long instruction ends; its results are written, and an accepted interrupt, HALT, forced exchange or reset takes effect there. -/
  | benchGranuleEnd (t : Nat)
  /-- INTERRUPT_ENTRY (R378): At a bundle boundary with an enabled pending interrupt, the core enters its handler on the shadow set. -/
  | interruptEntry (t : Nat)
  /-- TILE_TIMER_EXPIRY (R386): A tile timer expires in its mode and sets its TIP bit. -/
  | tileTimerExpiry (t k : Nat)
  /-- TILE_TIMER_WRITE (R386): A write to a timer's CFG, LOAD or LOADH restarts the timer under the values then held. -/
  | tileTimerWrite (t k w : Nat) (v : Word)
  /-- EDGE_DETECTOR_EDGE (R387): An edge detector sees a selected edge, counts it, captures its tag and sets its TIP bit. -/
  | edgeDetectorEdge (t j : Nat) (rising : Bool) (tag : Nat)
  /-- TUNER_RING_BLOCK (R390): A tuner ring block closes when full, at a break in the index or after 10 µs, and is written and published by WIDX. -/
  | tunerRingBlock (t k : Nat)
  /-- TILE_RING_RIDX_WRITE (R392): A write of a ring's RIDX takes effect only when it lies within the ring's fill. -/
  | tileRingRidxWrite (t k : Nat) (v : Word)
  /-- TILE_RUN (R394): TILE_CTRL.CMD = RUN sets a halted tile running, resuming a suspended long instruction. -/
  | tileRun (t : Nat)
  /-- TILE_HALT (R394): TILE_CTRL.CMD = HALT halts a running tile at the next bundle or granule boundary. -/
  | tileHalt (t : Nat)
  /-- TILE_RESET (R395): TILE_CTRL.CMD = RESET performs a core reset: registers return to reset values and held locks become ABANDONED. -/
  | tileReset (t : Nat)
  /-- TILE_CLOCK_GATE (R622): With TILEGATE set, a tile halted for 10 µs is clock-gated. -/
  | tileClockGate (t : Nat)
  /-- XCTL_ARM (R398): TILE_XCTL.OP = ARM arms an exchange to the staged program bank with an entry address. -/
  | xctlArm (t entry : Nat)
  /-- XCTL_FORCE (R399): TILE_XCTL.OP = FORCE exchanges at the next bundle or granule boundary, abandoning a suspended long instruction. -/
  | xctlForce (t : Nat)
  /-- XCTL_CANCEL (R399): TILE_XCTL.OP = CANCEL disarms an armed exchange. -/
  | xctlCancel (t : Nat)
  /-- EXCHANGE_TIMEOUT (R399): An exchange not reached within TMO µs of its arm sets XTMO and raises the tile's event, staying armed. -/
  | exchangeTimeout (t : Nat)
  /-- TILE_PDATA_WRITE (R397): A write of TILE_PDATA stores a syllable in the staged program bank, increments PPTR and clears SIGOK. -/
  | tilePdataWrite (t : Nat) (v : Word)
  /-- TILE_MDATA_ACCESS (R406): A read or write of TILE_MDATA accesses tile memory at WADDR and increments the address. -/
  | tileMdataAccess (r : Requester) (t : Nat) (write : Bool) (v : Word)
  /-- LOCK_ACQUIRE (R401): LOCK_CMD with OP = ACQUIRE acquires a hardware lock for a non-tile requester. -/
  | lockAcquire (r : Requester) (n : Nat)
  /-- LOCK_RELEASE (R401): LOCK_CMD with OP = RELEASE releases a lock held by the requester. -/
  | lockRelease (r : Requester) (n : Nat)
  /-- LOCK_BREAK (R401): LOCK_CMD with OP = BREAK, from BAR0 only, frees a lock in any state. -/
  | lockBreak (r : Requester) (n : Nat)
  /-- DMA_START (R441): DMA_CHCMD with OP = START starts a channel on the chain at DMA_CHHEAD. -/
  | dmaStart (g c : Nat)
  /-- DMA_DOORBELL (R441): DMA_CHCMD with OP = DOORBELL makes a waiting channel re-read its link word at once. -/
  | dmaDoorbell (g c : Nat)
  /-- DMA_STOP (R441): DMA_CHCMD with OP = STOP stops a channel after its current descriptor. -/
  | dmaStop (g c : Nat)
  /-- DMA_ABORT (R446): DMA_CHCMD with OP = ABORT stops the current descriptor at the next element boundary with status ABORTED. -/
  | dmaAbort (g c : Nat)
  /-- DMA_CLEAR (R441): DMA_CHCMD with OP = CLEAR returns a channel in ERROR to IDLE. -/
  | dmaClear (g c : Nat)
  /-- DESCRIPTOR_FETCH (R435): A channel fetches a descriptor and checks it before any element moves, entering ERROR on a failure. -/
  | descriptorFetch (g c : Nat)
  /-- DESCRIPTOR_COMPLETE (R449): A descriptor's transfer completes, its completion record is written and the chain is followed or the channel waits. -/
  | descriptorComplete (g c k : Nat)
  /-- END_MARK_POLL (R443): A waiting channel re-reads its tail's link word every POLL × 64 cycles and follows a new link. -/
  | endMarkPoll (g c : Nat)
  /-- DMA_CQ_RIDX_WRITE (R450): A write of a completion queue's RIDX frees space when within range, letting a waiting record be written. -/
  | dmaCqRidxWrite (g c : Nat) (v : Word)
  /-- DMA_GSDATA_ACCESS (R445): A read or write of DMA_GSDATA or DMA_GSDATA_H accesses gallery SRAM at WADDR and advances it. -/
  | dmaGsdataAccess (r : Requester) (g port : Nat) (write : Bool) (v : Word)
  /-- HBM_ACCESS (R464): A pseudo-channel controller serves a queued read or write, correcting or poisoning ECC words. -/
  | hbmAccess (write : Bool) (addr : Nat) (data : List Byte) (src badBytes : Nat)
  /-- ROW_IDLE_CLOSE (R463): A bank's open row is closed after IDLE cycles without access. -/
  | rowIdleClose (rank bank : Nat)
  /-- REFRESH_DUE (R466): A per-bank refresh falls due and is issued when the bank is free, or forced at 8 owed. -/
  | refreshDue (rank bank : Nat) (free : Bool)
  /-- SCRUB_PASS (R471): The scrubber reads every ECC word of active ranks once per SCRUB hours and retires a rank at CETHR. -/
  | scrubPass (rank corrected : Nat) (uncorrectable : List Nat)
  /-- MEM_RETIRE (R472): MEM_CMD with OP = RETIRE queues an ACTIVE rank for migration. -/
  | memRetire (rank : Nat)
  /-- MEM_RESTORE (R478): MEM_CMD with OP = RESTORE returns an OUT rank to SPARE. -/
  | memRestore (rank : Nat)
  /-- MIGRATION_START (R472): The next queued migration starts, moving a rank to MIGRATING-FROM and its target to MIGRATING-TO. -/
  | migrationStart
  /-- MIGRATION_GRAIN (R473): The copy of one grain is acknowledged, the watermark advances and, after the last grain, the rank goes OUT. -/
  | migrationGrain
  /-- FOLD (R477): With no spare left, a failing rank is folded into capacity given up by the recorder, or marked LOST. -/
  | fold
  /-- PC_POWER_DOWN (R479): A pseudo-channel idle for PDIDLE cycles, or SRIDLE µs, enters power-down or self-refresh. -/
  | pcPowerDown (pc : Nat) (selfRefresh : Bool)
  /-- RECORD_ENQUEUE (R488): A closed record enters its stream's queue and takes the next sequence number, or is discarded or made to wait. -/
  | recordEnqueue
  /-- PROTECTED_RECORD_ENTER (R489): A waiting protected record enters its queue once space appears. -/
  | protectedRecordEnter (st : Nat)
  /-- STREAM_DEAD_TIMEOUT (R490): A stream whose destination has taken nothing for DEAD × 10 ms, or whose gap hold is full, enters FAILED and empties its queue. -/
  | streamDeadTimeout (st : Nat)
  /-- STREAM_FAILED_EXIT (R490): A FAILED stream's destination takes data again, and the stream leaves FAILED with a LOSS record. -/
  | streamFailedExit (st : Nat)
  /-- DATAGRAM_SEND (R498): A port sends a UDP datagram of whole records when full or PACK µs after its first record, or a record fragment. -/
  | datagramSend (port : Nat) (due : List Nat) (bad : List BadWord)
  /-- ETH_FRAME_RX (R495): A frame received on a streaming port is kept as a PTP message, obeyed as PAUSE, or dropped. -/
  | ethFrameRx (port stamp : Nat) (frame : List Byte) (descs : List HostDesc)
  /-- PORT_LINK_CHANGE (R521): A streaming port's link comes up or goes down and raises EV483. -/
  | portLinkChange (port : Nat) (up : Bool)
  /-- VRT_DATA_PACKET (R501): A VITA 49.2 data packet of tuner outputs closes and is sent with its trailer. -/
  | vrtDataPacket (t : Nat) (timeout : Bool)
  /-- VRT_CONTEXT_PACKET (R503): A VITA 49.2 context packet is sent at a series start, on a change or every CTXINT × 10 ms. -/
  | vrtContextPacket (t : Nat)
  /-- HRG_TAIL_WRITE (R506): A write of HRG_TAIL posts host descriptors when within range. -/
  | hrgTailWrite (r v : Nat)
  /-- HOST_BUFFER_WRITEBACK (R507): A host ring buffer is written back when full or FLUSH µs after its first byte. -/
  | hostBufferWriteback (r : Nat) (desc : HostDesc) (picks : List Nat) (bad : List BadWord)
  /-- HOST_RING_INTERRUPT (R507): A host ring sends its MSI-X vector after MODCNT write-backs or MODUS µs after an unsignalled write-back. -/
  | hostRingInterrupt (r : Nat)
  /-- TX_FRAME_SEND (R508): A frame posted on a TX ring leaves its port and its descriptor is written back. -/
  | txFrameSend (r : Nat) (desc : HostDesc) (stamp : Nat) (frame : List Byte)
  /-- ATTACH (R515): DSK_CMD with OP = ATTACH reads superblocks, table and journal, scans open extents and makes the disk set READY. -/
  | diskAttach
  /-- FORMAT (R516): DSK_CMD with OP = FORMAT writes new superblocks, a free table and a zeroed journal. -/
  | diskFormat
  /-- DETACH (R516): DSK_CMD with OP = DETACH seals open extents, writes the journal, flushes and detaches the set. -/
  | diskDetach
  /-- KEEP (R516): DSK_CMD with OP = KEEP makes an extent KEPT. -/
  | diskKeep
  /-- FREE (R516): DSK_CMD with OP = FREE makes an extent FREE. -/
  | diskFree
  /-- DISK_READ (R516): DSK_CMD with OP = READ copies bytes of an extent or the table to host memory. -/
  | diskRead
  /-- DISK_COMMAND_DONE (R516): A disk command completes, writes CMDST and raises EV487. -/
  | diskCommandDone (found : DiskFound)
  /-- DISK_DATA_WRITE (R514): A disk stream issues a write when SU bytes are staged or DFLUSH µs after the first unwritten byte. -/
  | diskDataWrite (st : Nat) (due : Bool) (bad : List BadWord)
  /-- DISK_WRITE_COMPLETE (R514): An NVMe write completes, advancing what can become durable. -/
  | diskWriteComplete (id : Nat)
  /-- DISK_CHECKPOINT (R514): Every CKPT ms each advanced open extent gains a CKPT journal entry. -/
  | diskCheckpoint
  /-- JOURNAL_WRITE (R513): A journal block is written when full or at a checkpoint; once durable, table updates follow. -/
  | journalWrite
  /-- DISK_DRIVE_FAIL (R517): A drive I/O error or a 1 s timeout fails the drive and the set. -/
  | diskDriveFail (d : Nat)
  /-- STREAM_SWAP (R519): A stream or host ring swaps at its next record or descriptor boundary; when all have, EV490 is raised. -/
  | streamSwap (e : Nat) (ring : Bool)
  /-- STREAM_DRAINED (R519): A disabled stream's queue empties and the stream enters OFF. -/
  | streamDrained (st : Nat)
  /-- DISPLAY_PROMOTION (R530): At an output's promotion point ready rasters, overlay flips, glyphs and bank swaps take effect. -/
  | displayPromotion (o b : Nat)
  /-- OVERLAY_FETCH (R528): An overlay line is fetched from HBM at the later of its lead line and the promotion point. -/
  | overlayFetch (o y : Nat) (late : Option Nat)
  /-- DSP_FLIP_WRITE (R527): A write of DSP_FLIP.SEL selects the overlay buffer from the next promotion point. -/
  | dspFlipWrite (o sel : Nat)
  /-- HPD_PLUG (R534): HPD high for 2 ms starts link training when AUTOTR is set. -/
  | hpdPlug (o : Nat)
  /-- HPD_UNPLUG (R535): HPD low for 2 ms or more is an unplug, and the output enters UNPLUGGED. -/
  | hpdUnplug (o : Nat)
  /-- IRQ_HPD (R535): A low HPD pulse of 0.25 ms to 2 ms is an IRQ_HPD and raises the output's event. -/
  | irqHpd (o : Nat)
  /-- LINK_TRAINING_DONE (R533): DisplayPort link training ends, and the output enters ACTIVE or FALLBACK. -/
  | linkTrainingDone (o rate lanes : Nat)
  /-- RETRAIN (R542): DSP_OCFG.OP = RETRAIN retrains an ACTIVE or FALLBACK output. -/
  | retrain (o : Nat)
  /-- AUX_NATIVE_WRITE (R536): DSP_AUXCMD starts a native AUX write transaction to the sink's DPCD. -/
  | auxNativeWrite (o : Nat)
  /-- AUX_NATIVE_READ (R536): DSP_AUXCMD starts a native AUX read transaction. -/
  | auxNativeRead (o : Nat)
  /-- AUX_I2C_WRITE (R536): DSP_AUXCMD starts an I²C-over-AUX write transaction. -/
  | auxI2cWrite (o : Nat)
  /-- AUX_I2C_READ (R536): DSP_AUXCMD starts an I²C-over-AUX read transaction. -/
  | auxI2cRead (o : Nat)
  /-- AUX_DONE (R536): An AUX transaction ends with ACK, NACK, exhausted DEFER or TIMEOUT. -/
  | auxDone (o result : Nat) (data : List Byte)
  /-- TOUCH_READ_START (R538): A touch report read starts at TINT low or at the poll period. -/
  | touchReadStart (tint : Bool)
  /-- TOUCH_REPORT (R540): A completed touch report updates the marker readout and raises EV501, or a bus error is counted. -/
  | touchReport (result : Nat) (report : List Byte)
  /-- MKR_READ (R541): A read of DSP_MKR0 latches the rest of the marker readout into the requester's shadow. -/
  | mkrRead (r : Requester)
  /-- DISPLAY_SWAP (R532): An output or the touch settings swap to the new bank, restarting the stream on a timing change. -/
  | displaySwap (o : Nat)
  /-- STIM_LANE_TRAINED (R544): A stimulus lane completes training and sends IDLE until its channel runs. -/
  | stimLaneTrained (c : Nat)
  /-- STIM_CHANNEL_START (R546): A stimulus channel starts at index 0 at T_start and begins sending frames. -/
  | stimChannelStart (c : Nat)
  /-- SEGMENT_BOUNDARY (R549): A stimulus channel reaches a segment boundary, advancing its sequence and raising EV505 on MARK. -/
  | segmentBoundary (c : Nat) (missing : List Nat)
  /-- STIMULUS_SWAP (R554): A stimulus channel swaps at its segment boundary, restarting when EN or RATE changed. -/
  | stimulusSwap (c : Nat)
  /-- CAL_LANE (R559): CAL_CMD with OP = LANE starts a lane adaptation and eye-measurement run. -/
  | calLane (apply part : Bool)
  /-- CAL_ALIGN (R560): CAL_CMD with OP = ALIGN starts a time-alignment run against the stimulus. -/
  | calAlign (apply part : Bool)
  /-- CAL_GAIN (R562): CAL_CMD with OP = GAIN starts a per-bin gain calibration run. -/
  | calGain (apply part : Bool)
  /-- CAL_FLAT (R563): CAL_CMD with OP = FLAT starts a fine-bin flatness calibration run. -/
  | calFlat (apply part : Bool)
  /-- CAL_MONITOR (R564): CAL_CMD with OP = MONITOR starts a monitor converter trim run. -/
  | calMonitor (apply part : Bool)
  /-- CAL_ABORT (R556): CAL_CMD with OP = ABORT ends the run, with status HOST for unfinished targets. -/
  | calAbort
  /-- CAL_APPLY (R565): CAL_CMD with OP = APPLY writes stored results into staged banks once they are not frozen. -/
  | calApply
  /-- CAL_SETTLE_DONE (R557): The 100 µs SETTLE of a calibration run ends and MEASURE begins. -/
  | calSettleDone
  /-- CAL_RUN_END (R556): A calibration run's measurement ends; targets are judged, results applied and RESULT written with EV506. -/
  | calRunEnd (eyes : List (Nat × Nat × Nat)) (readings : List (Nat × Nat × Nat))
  /-- CHECK (R582): ADM_CMD with OP = CHECK runs the admission check without freezing or committing. -/
  | admCheck (asap : Bool)
  /-- COMMIT (R582): ADM_CMD with OP = COMMIT freezes the named staged banks and runs the admission check for a commit. -/
  | admCommit (asap : Bool)
  /-- ABORT (R586): ADM_CMD with OP = ABORT discards a held request or withdraws an accepted commit whose instant has not arrived. -/
  | admAbort
  /-- ADMISSION_CHECK_DONE (R581): The admission check ends, accepting with a new generation or refusing with codes, and raises EV508. -/
  | admissionCheckDone (us : Nat)
  /-- COMMIT_INSTANT (R583): At the commit instant unnamed blocks take the new generation and named blocks begin swapping at their boundaries. -/
  | commitInstant
  /-- RELOCK (R607): CLK_CTRL.CMD = RELOCK applies CLK_REF and the band table and relocks the root PLL. -/
  | relock
  /-- BANDCAL (R598): CLK_CTRL.CMD = BANDCAL runs band calibration in Sleep. -/
  | bandcal
  /-- BANDCAL_DONE (R598): Band calibration fills the band table and raises EV041. -/
  | bandcalDone (entries : List Word)
  /-- ROOT_PLL_LOCK (R606): The root PLL completes its lock or relock and the clock tree switches to it. -/
  | rootPllLock (ok : Bool)
  /-- CLOCK_WALK_STEP (R599): After each dwell the walker moves N one step toward the target, handing over bands as needed. -/
  | clockWalkStep
  /-- REF_GLITCH (R602): A reference edge arriving within half a nominal period of the last is discarded and counted. -/
  | refGlitch
  /-- HOLDOVER_EXPIRY (R604): HOLDOVER lasting HOLDMAX seconds enters BYPASS. -/
  | holdoverExpiry
  /-- PLL_LOCK_LOSS (R605): Four PFD cycles outside ±2 ns lose lock and put the tree in BYPASS, forcing Sleep. -/
  | pllLockLoss
  /-- AUX_PLL_LOCK (R608): An auxiliary PLL locks or changes state for its pixel clock. -/
  | auxPllLock (k : Nat) (state : Nat)
  /-- CLK_OUT_WRITE (R609): A write to CLK_OUT enables, disables or re-divides a clock output at the runt-free point. -/
  | clkOutWrite (k : Nat) (v : Word)
  /-- SYSREF_FIRE (R610): Writing FIRE in GATED mode emits PCNT SYSREF pulses from the next boundary. -/
  | sysrefFire
  /-- PWR_SLEEP (R616): PWR_CMD with OP = SLEEP starts the transition to Sleep. -/
  | pwrSleep
  /-- PWR_WATCH (R618): PWR_CMD with OP = WATCH starts the transition to Watch. -/
  | pwrWatch
  /-- PWR_FULL (R616): PWR_CMD with OP = FULL starts the transition to Full. -/
  | pwrFull
  /-- PWR_KEEP (R620): PWR_CMD with OP = KEEP isolates the keep domain and powers the rest down. -/
  | pwrKeep
  /-- WAKE_REQUEST (R616): A wake request from a firing, a command or the partner starts the wake from Watch to Full, or cancels a Watch entry. -/
  | wakeRequest (src : Nat)
  /-- MODE_TRANSITION_DONE (R616): A power mode transition completes; PWR_STAT and PWR_TAG record it, EV048 is raised and a held command runs. -/
  | modeTransitionDone
  /-- GOVERNOR_SLOT (R623): At each governor slot the queued island steps are issued up to LIMIT amperes. -/
  | governorSlot
  /-- ISLAND_USABLE (R623): An island becomes usable 2 µs after its step. -/
  | islandUsable (i : Nat)
  /-- GOVERNOR_CHECK (R624): 8 µs into a rising slot the governor reads VDD_CORE and holds the next slot's rises if it is below VMIN. -/
  | governorCheck
  /-- SUPPLY_GOOD_CHANGE (R613): A supply's undervoltage detector changes its verdict. -/
  | supplyGoodChange (i : Nat) (good crystal : Bool)
  /-- SUPPLY_UNDERVOLTAGE (R614): A lane or HBM supply below threshold for more than 5 µs forces Sleep with cause SUPPLY. -/
  | supplyUndervoltage (i : Nat)
  /-- RESET_RELEASE (R613): 10 ms after the core supplies are good, reset is released and the start begins at S00. -/
  | resetRelease
  /-- THERMAL_EVALUATION (R627): Every 100 µs the thermal controller reads the sensors and moves the clock ceiling or forces Sleep. -/
  | thermalEvaluation (readings : List (Nat × Int))
  /-- THERMTRIP (R629): A sensor at or above T_TRIP for 3 samples holds the die in reset. -/
  | thermtrip
  /-- HK_ENTRY_DONE (R633): A monitor converter finishes a sequence entry, writes its result and checks limits and cross-check. -/
  | hkEntryDone (k e ch : Nat) (raw : Nat)
  /-- HK_URG (R636): A write of HK_URG queues an urgent conversion, or drops it when the queue is full. -/
  | hkUrg (conv ch : Nat)
  /-- HK_URGENT_CONVERSION (R636): An urgent conversion is served at the next boundary and its result written to HK_URGRES with EV062. -/
  | hkUrgentConversion (k raw : Nat)
  /-- RESET_N_ASSERT (R640): An assertion of RESET_N resets the engine, which starts at deassertion. -/
  | resetNAssert
  /-- START_STEP_DONE (R644): A start step succeeds or fails; a failure records its code and resets or enters SAFE. -/
  | startStepDone (code mask : Nat) (entries : List Word)
  /-- STEPFAIL_RESTART (R640): 100 ms after a STEPFAIL reset the start sequence begins again. -/
  | stepfailRestart
  /-- WATCHDOG_EXPIRY (R647): SEC_WDT not restarted within TMO ms causes a WATCHDOG reset. -/
  | watchdogExpiry
  /-- SEC_RESET (R648): SEC_CMD with OP = RESET performs a SOFT reset, clearing CONSEC in SAFE. -/
  | secReset
  /-- PROVISION (R651): SEC_CMD with OP = PROVISION burns the key hashes and the OPEN state. -/
  | secProvision
  /-- LCREQ (R651): SEC_CMD with OP = LCREQ burns a lifecycle change authorised by SEC_TOKEN. -/
  | lcreq
  /-- SVNBURN (R652): SEC_CMD with OP = SVNBURN raises the fused SVN. -/
  | svnburn (mailbox : Bool)
  /-- REVOKE (R652): SEC_CMD with OP = REVOKE sets the revocation bit of a key slot. -/
  | secRevoke (mailbox : Bool)
  /-- FUSE_BURN_DONE (R651): A fuse burn completes and its command status is reported. -/
  | fuseBurnDone
  /-- FLASH_READ (R654): SEC_FLCMD with OP = READ reads a 256-byte flash page into SEC_FLBUF. -/
  | flashRead
  /-- FLASH_PROGRAM (R654): SEC_FLCMD with OP = PROGRAM programs a flash page, refused inside the running image when protected. -/
  | flashProgram
  /-- FLASH_ERASE (R654): SEC_FLCMD with OP = ERASE erases a 64 KiB flash sector. -/
  | flashErase
  /-- FLASH_DONE (R654): A flash command completes and raises EV092. -/
  | flashDone
  /-- VERIFY (R655): SEC_TVCMD with OP = VERIFY verifies a tile's staged program signature. -/
  | tileVerify (t : Nat)
  /-- VERIFY_DONE (R655): A tile program verification ends, setting SIGOK or a failure status and raising EV089. -/
  | tileVerifyDone
  /-- CHAL (R657): A capture of the CHAL register returns a fresh nonce and the debug context. -/
  | dbgChal
  /-- RESP (R657): An Update-DR of RESP grants or refuses a debug level. -/
  | dbgResp (level : Nat) (sig : List Byte)
  /-- DBGACC (R658): A DBGACC update makes a 32-bit BAR0 access as the debug requester. -/
  | dbgacc (op o : Nat) (v : Word)
  /-- DBGEND (R657): An Update-IR of DBGEND ends the debug session and abandons its locks. -/
  | dbgend
  /-- EXTEST (R656): The EXTEST instruction drives pins from the boundary-scan register where permitted. -/
  | extest (cells : List Bool)
  /-- SAMPLE_PRELOAD (R656): The SAMPLE/PRELOAD instruction samples or preloads the boundary-scan register where permitted. -/
  | samplePreload (pins cells : List Bool)
  /-- RESP_LOCKOUT_END (R657): A RESP lockout period ends. -/
  | respLockoutEnd
  /-- HEARTBEAT (R664): A HEARTBEAT cell from the partner reports its role, state, mode, count and acknowledgement. -/
  | dzHeartbeat (ok : Bool) (role pstate mode pcnt gen ack : Nat) (forced : Bool)
  /-- SYNC (R671): A SYNC cell gives stamps from which the standby computes θ and steers its time base. -/
  | dzSync (ok : Bool) (id t1 pid pt stamp : Nat)
  /-- FIREA (R684): A FIREA cell presents a partner firing to the PAIR units. -/
  | dzFireA (ok : Bool) (id u firing tag tq elem : Nat)
  /-- FIREB (R684): A FIREB cell supplies the record fields of a partner firing. -/
  | dzFireB (ok : Bool) (id : Nat) (body : List Byte)
  /-- DZ_ARM (R282): An ARM cell schedules a pair arm group to arm at its arm tag. -/
  | dzArm (ok : Bool) (id g num tag : Nat)
  /-- DZ_RELEASE (R283): A RELEASE cell releases the members of a FIRST pair group. -/
  | dzRelease (ok : Bool) (id g num : Nat)
  /-- DZ_WAKE (R674): A WAKE cell is taken as a wake request with source partner. -/
  | dzWake (ok : Bool) (id src : Nat)
  /-- ORDER (R676): An ORDER cell announces a primary record's sequence and digest, matched by key against the standby's records. -/
  | dzOrder (ok : Bool) (n stream : Nat) (first : Bool) (key oseq digest : Nat)
  /-- SENT (R678): A SENT cell lets the standby free shadow records up to the named sequence. -/
  | dzSent (ok : Bool) (n st oseq : Nat)
  /-- DZ_EPOCH (R675): An EPOCH cell gives a stream's epoch and first sequence number. -/
  | dzEpoch (ok : Bool) (n st epoch first : Nat)
  /-- DZ_STEP (R675): A STEP cell makes the standby apply a ladder step at the same order instant. -/
  | dzStep (ok : Bool) (n st step : Nat)
  /-- DZ_INDEX (R670): An INDEX cell gives the standby an input's offset i − c. -/
  | dzIndex (ok : Bool) (n inp offset : Nat)
  /-- CREQ (R673): A CREQ cell asks the partner to check a pair commit and compare digests. -/
  | dzCreq (ok : Bool) (n : Nat) (commit asap : Bool) (instant gen digest : Nat)
  /-- CRESP (R673): A CRESP cell returns the partner's check result for a pair commit. -/
  | dzCresp (ok : Bool) (n code need avail : Nat)
  /-- DZ_MODE (R674): A MODE cell applies a mirrored power command on the standby. -/
  | dzMode (ok : Bool) (n op : Nat)
  /-- JOIN (R668): A JOIN cell settles roles and starts the joining steps. -/
  | dzJoin (ok : Bool) (n role pcnt digest gen : Nat) (serial : List Byte)
  /-- DZ_SWITCH_CELL (R682): A SWITCH cell begins or finalises a switchover on the standby. -/
  | dzSwitchCell (ok : Bool) (n phase : Nat)
  /-- DZ_LEAVE_CELL (R680): A LEAVE cell makes the receiver declare the partner lost. -/
  | dzLeaveCell (ok : Bool) (n : Nat)
  /-- ACK (R663): An ACK cell acknowledges class 2 cells cumulatively. -/
  | dzAck (ok : Bool) (ack : Nat)
  /-- CELL_RETRANSMIT (R663): A class 2 cell not acknowledged within 2 µs is sent again. -/
  | cellRetransmit (n : Nat)
  /-- HEARTBEAT_SEND (R664): Every DZ_HB.INT µs the engine sends a HEARTBEAT cell. -/
  | heartbeatSend
  /-- SYNC_SEND (R664): Every DZ_LOOP.SINT µs the engine sends a SYNC cell. -/
  | syncSend (stamp : Nat)
  /-- SENT_SEND (R675): Every SENTINT µs the primary sends SENT for each stream that emitted. -/
  | sentSend
  /-- ORDER_MISS (R676): An ORDER whose key the standby has not produced within 100 µs is counted and its sequence marked missing. -/
  | orderMiss (st oseq : Nat)
  /-- CRESP_TIMEOUT (R673): No CRESP within 10 ms refuses the pair commit with PARTNER. -/
  | crespTimeout
  /-- PARTNER_LOST (R680): No valid cell for MISS × INT µs declares the partner lost. -/
  | partnerLost (witness : Bool)
  /-- DZ_SWITCH (R682): DZ_CMD with OP = SWITCH begins a switchover on a SYNCED primary. -/
  | dzSwitch
  /-- SWITCH_FINAL (R682): The switching primary's queues empty or 10 ms pass; it sends final SENT and SWITCH final. -/
  | switchFinal
  /-- DZ_LEAVE (R668): DZ_CMD with OP = LEAVE takes the engine out of the pair. -/
  | dzLeave
  /-- REJOIN (R668): DZ_CMD with OP = REJOIN restarts joining under the current DZ_CFG. -/
  | rejoin
  /-- DZ_LINK_STATE (R665): The Dziast link becomes UP, DEGRADED or down as its lanes change state. -/
  | dzLinkState (lane state : Nat)
  /-- RESET_N_DEASSERT (R640): The deassertion of RESET_N after an assertion starts the start sequence at S00, and ends a THERMTRIP hold. -/
  | resetNDeassert
  /-- CDR_LOCK_LOSS (R138): A lane that keeps its signal but loses CDR lock enters ADAPT and fails its frame in flight with cause LOS. -/
  | cdrLockLoss (lane : Nat)
  /-- REFERENCE_RETURN (R98): Edges reappear on a reference that was LOST; the reference moves to OUT, a waiting manual selection may complete, and the clock outputs restart. -/
  | referenceReturn (refB : Bool)
  /-- BUS_MASTER_DISABLE (R509): The host clears Bus Master Enable, which stops every host ring at its next descriptor boundary and resets HEAD and TAIL. -/
  | busMasterDisable
  /-- LANE_DIE_LINK_FAULT (R150): A fault of the interposer link between a lane die and the engine die declares a gap on every input it serves and raises each input's event. -/
  | laneDieLinkFault (die : Nat)
deriving DecidableEq, Repr

end Sys2Proof
end

