-- ==== Sys2Proof/Machine/Arith.lean ====
section
/-!
DEFINITION. The arithmetic every block shares: convergent rounding (00_scope.md R16), saturation (R17), serial
numbers (03_time_base.md), byte order (00 R13) and bit fields.
-/
namespace Sys2Proof.Machine

/-- `x` divided by 2^`n` and rounded convergently (00 R16). -/
def rnd (x : Int) (n : Nat) : Int :=
  let p : Int := 2 ^ n
  let q := x / p
  let r := x % p
  if 2 * r < p then q else if 2 * r > p then q + 1 else if q % 2 = 0 then q else q + 1

/-- The quotient `a / b` rounded convergently, for positive `b` (00 R16). -/
def rndDiv (a : Int) (b : Int) : Int :=
  let q := a / b
  let r := a % b
  if 2 * r < b then q else if 2 * r > b then q + 1 else if q % 2 = 0 then q else q + 1

/-- `x` saturated to `n` bits, two's complement (00 R17). -/
def satS (n : Nat) (x : Int) : Int :=
  if x < -(2 ^ (n - 1) : Int) then -(2 ^ (n - 1) : Int)
  else if x > (2 ^ (n - 1) : Int) - 1 then (2 ^ (n - 1) : Int) - 1 else x

/-- `x` saturated to `n` bits, unsigned (00 R17). -/
def satU (n : Nat) (x : Int) : Int :=
  if x < 0 then 0 else if x > (2 ^ n : Int) - 1 then (2 ^ n : Int) - 1 else x

/-- `x` saturates when stored in `n` bits, two's complement. -/
def clipsS (n : Nat) (x : Int) : Bool := decide (satS n x ≠ x)

/-- A saturating counter of `n` bits, advanced by `k`. -/
def satAdd (n : Nat) (x k : Nat) : Nat := if x + k ≥ 2 ^ n then 2 ^ n - 1 else x + k

/-- The low `n` bits of `x` as a two's complement number. -/
def sext (n : Nat) (x : Nat) : Int :=
  let y := x % 2 ^ n
  if n = 0 then 0 else if y < 2 ^ (n - 1) then (y : Int) else (y : Int) - (2 ^ n : Int)

/-- `x` modulo 2^`n`, as an unsigned number. -/
def toU (n : Nat) (x : Int) : Nat := (x % (2 ^ n : Int)).toNat

/-- Serial-number order of 03_time_base.md: `a` is before `b` among `n`-bit numbers. -/
def serialBefore (n a b : Nat) : Bool :=
  let d := toU n ((b : Int) - a)
  decide (0 < d) && decide (d < 2 ^ (n - 1))

/-- bits [`lo` + `w` - 1 : `lo`] of `x`. -/
def bits (x lo w : Nat) : Nat := x / 2 ^ lo % 2 ^ w

/-- bit `i` of `x`. -/
def bit (x i : Nat) : Bool := decide (bits x i 1 = 1)

/-- `x` with bits [`lo` + `w` - 1 : `lo`] holding `v`. -/
def putBits (x lo w v : Nat) : Nat :=
  x % 2 ^ lo + (v % 2 ^ w) * 2 ^ lo + x / 2 ^ (lo + w) * 2 ^ (lo + w)

/-- `a` < `b` as a Bool. -/
def lt (a b : Nat) : Bool := decide (a < b)

/-- `a` ≤ `b` as a Bool. -/
def le (a b : Nat) : Bool := decide (a ≤ b)

/-- `a` < `b` for integers, as a Bool. -/
def ltI (a b : Int) : Bool := decide (a < b)

/-- `a` ≤ `b` for integers, as a Bool. -/
def leI (a b : Int) : Bool := decide (a ≤ b)

/-- `b` as 0 or 1. -/
def b2n (b : Bool) : Nat := if b then 1 else 0

/-- The `n` bytes of `x`, little-endian (00 R13). -/
def leBytes : Nat → Nat → List Byte
  | 0, _ => []
  | n + 1, x => BitVec.ofNat 8 x :: leBytes n (x / 256)

/-- The number a little-endian byte string holds (00 R13). -/
def leNat : List Byte → Nat
  | [] => 0
  | b :: bs => b.toNat + 256 * leNat bs

/-- The `n` bytes of `x`, most significant first. -/
def beBytes (n x : Nat) : List Byte := (leBytes n x).reverse

/-- The number a big-endian byte string holds. -/
def beNat (bs : List Byte) : Nat := leNat bs.reverse

/-- `bs` from byte `i`, `n` bytes, as a little-endian number. -/
def leAt (bs : List Byte) (i n : Nat) : Nat := leNat ((bs.drop i).take n)

/-- The numbers 0 to `n` - 1. -/
def upto (n : Nat) : List Nat := List.range n

/-- The number of set bits among the low `n` bits of `x`. -/
def popcount (n x : Nat) : Nat := ((upto n).filter (bit x)).length

/-- floor of log2, 0 for 0. -/
def log2 (x : Nat) : Nat := Nat.log2 x

/-- The largest of a list, 0 for none. -/
def maxOf (l : List Nat) : Nat := l.foldl max 0

/-- The sum of a list. -/
def sumOf (l : List Nat) : Nat := l.foldl (· + ·) 0

/-- `a / b` rounded up. -/
def ceilDiv (a b : Nat) : Nat := (a + b - 1) / b

/-- CRC-32C (Castagnoli), reflected, one byte at a time. -/
def crc32cByte (crc : Nat) (b : Byte) : Nat :=
  (upto 8).foldl (fun c _ => if c % 2 = 1 then (c / 2) ^^^ 0x82F63B78 else c / 2) (crc ^^^ b.toNat)

/-- CRC-32C of a byte string: initial value and final inversion of all ones. -/
def crc32c (bs : List Byte) : Nat := (bs.foldl crc32cByte 0xFFFFFFFF) ^^^ 0xFFFFFFFF

end Sys2Proof.Machine
end

