-- ==== Sys2Proof/Machine/Frac.lean ====
section
/-!
DEFINITION. Exact non-negative fractions, in which the loads and grants of the admission check are computed
(19_admission_and_configuration.md R574).
-/
namespace Sys2Proof.Machine

/-- A non-negative fraction in lowest terms. -/
structure Frac where
  num : Nat
  den : Nat
deriving DecidableEq, Repr

/-- `n` ÷ `d`; 0 for `d` = 0. -/
def frac (n d : Nat) : Frac :=
  if d = 0 then ⟨0, 1⟩ else let g := Nat.gcd n d; ⟨n / g, d / g⟩

def Frac.zero : Frac := ⟨0, 1⟩
def Frac.add (x y : Frac) : Frac := frac (x.num * y.den + y.num * x.den) (x.den * y.den)
def Frac.mul (x y : Frac) : Frac := frac (x.num * y.num) (x.den * y.den)
def Frac.div (x y : Frac) : Frac := frac (x.num * y.den) (x.den * y.num)
/-- `n` times a fraction. -/
def Frac.times (n : Nat) (x : Frac) : Frac := frac (n * x.num) x.den
/-- `x` ≤ `y`. -/
def Frac.le (x y : Frac) : Bool := decide (x.num * y.den ≤ y.num * x.den)
/-- The whole part. -/
def Frac.down (x : Frac) : Nat := x.num / x.den
/-- The nearest integer, convergent (00 R16). -/
def Frac.rnd (x : Frac) : Nat := (rndDiv x.num x.den).toNat
def Frac.sum (l : List Frac) : Frac := l.foldl Frac.add Frac.zero

end Sys2Proof.Machine
end

