-- ==== Sys2Proof/Config.lean ====
section
/-!
DEFINITION. What an implementation fixes and what the spec leaves open: constants without a body, so that nothing can be
proved about a value of theirs.
-/
namespace Sys2Proof.Config

/-- A free value of `w` bits: the `n`-th one the machine has needed (State.freeCount counts them).
The spec states no value at the place that asks for one. -/
opaque free (n w : Nat) : BitVec w

/-- Word `j` of entry `e` of the tuners' FIR ROM (08_tuners.md R246: the words define the responses; the spec lists none). -/
opaque firRom (e j : Nat) : BitVec 18

/-- Word `j` of entry `e` of the tuners' prototype ROM (08 R249). -/
opaque rsRom (e j : Nat) : BitVec 18

/-- Byte `i` of the part's SERIAL (02 R46): 16 bytes. -/
opaque serial (i : Nat) : BitVec 8

/-- The verdict of an ECDSA P-384 verification (22_start_security_debug.md R651, R653, R655, R657): the SHA-384 of the public key,
which is what the fuses hold, the signature (r, s) and the hash, as bytes. The spec names the algorithm and does not define it. -/
opaque ecdsa384 (key signature hash : List (BitVec 8)) : Bool

end Sys2Proof.Config
end

