-- ==== Sys2Proof/Machine/Regs.lean ====
section
/-!
DEFINITION. The register map: one `Fld` for each field of the register tables of spec/ (02 to 23).
Each field has its BAR0 byte offset (element 0), its array dimensions (stride, count), its place in the word,
its access code (02 R66), its reset value and its stated range. The tables of the spec are the only source.
-/
namespace Sys2Proof.Machine

/-- The access codes of 02_control_access.md R66 (TV is a separate mark). -/
inductive Acc where
  | ro | rw | rwd | rwl | w1c | rc | rl | rh | wo
deriving DecidableEq, Repr

/-- One field of a register table. -/
structure Fld where
  /-- BAR0 byte offset of element (0, 0, …). -/
  off : Nat
  /-- (stride in bytes, count) of each array dimension, outermost first. -/
  dims : List (Nat × Nat)
  /-- lowest bit in the word. -/
  lo : Nat
  /-- width in bits. -/
  w : Nat
  acc : Acc
  /-- reset value (02 R44). -/
  rst : Nat
  /-- lowest value of the stated range. -/
  mn : Nat
  /-- highest value of the stated range. -/
  mx : Nat
  /-- triple-voted (02 R73). -/
  tv : Bool
deriving DecidableEq, Repr

namespace Reg

/-! ### 02_control_access.md -/
def MBX_CTRL_LEN : Fld := ⟨0x1000, [], 0, 13, .wo, 0, 0, 8191, false⟩
def MBX_STATUS_BUSY : Fld := ⟨0x1004, [], 31, 1, .ro, 0, 0, 1, false⟩
def MBX_STATUS_DONE : Fld := ⟨0x1004, [], 30, 1, .w1c, 0, 0, 1, false⟩
def MBX_STATUS_OVR : Fld := ⟨0x1004, [], 29, 1, .w1c, 0, 0, 1, false⟩
def MBX_STATUS_RLEN : Fld := ⟨0x1004, [], 0, 13, .ro, 0, 0, 8191, false⟩
def EVT_CFG_EN : Fld := ⟨0x100000, [(0x20, 512)], 31, 1, .rw, 0, 0, 1, false⟩
def EVT_CFG_TO_CC : Fld := ⟨0x100000, [(0x20, 512)], 30, 1, .rw, 1, 0, 1, false⟩
def EVT_CFG_TO_MSIX : Fld := ⟨0x100000, [(0x20, 512)], 29, 1, .rw, 0, 0, 1, false⟩
def EVT_CFG_TO_OAP : Fld := ⟨0x100000, [(0x20, 512)], 28, 1, .rw, 0, 0, 1, false⟩
def EVT_CFG_TO_TILE : Fld := ⟨0x100000, [(0x20, 512)], 27, 1, .rw, 0, 0, 1, false⟩
def EVT_CFG_TO_TRIG : Fld := ⟨0x100000, [(0x20, 512)], 26, 1, .rw, 0, 0, 1, false⟩
def EVT_CFG_TILE : Fld := ⟨0x100000, [(0x20, 512)], 18, 6, .rw, 0, 0, 63, false⟩
def EVT_CFG_LINE : Fld := ⟨0x100000, [(0x20, 512)], 16, 2, .rw, 0, 0, 3, false⟩
def EVT_CFG_TLINE : Fld := ⟨0x100000, [(0x20, 512)], 11, 5, .rw, 0, 0, 31, false⟩
def EVT_CFG_VEC : Fld := ⟨0x100000, [(0x20, 512)], 0, 11, .rw, 0, 0, 2047, false⟩
def EVT_STAT_PEND : Fld := ⟨0x100004, [(0x20, 512)], 31, 1, .w1c, 0, 0, 1, false⟩
def EVT_STAT_SAT : Fld := ⟨0x100004, [(0x20, 512)], 30, 1, .ro, 0, 0, 1, false⟩
def EVT_STAT_CNT : Fld := ⟨0x100004, [(0x20, 512)], 0, 16, .ro, 0, 0, 65535, false⟩
def MSIX_ADDR_L_ADDR : Fld := ⟨0x80000, [(0x10, 2048)], 0, 32, .rw, 0, 0, 4294967295, false⟩
def MSIX_ADDR_H_ADDR : Fld := ⟨0x80004, [(0x10, 2048)], 0, 32, .rw, 0, 0, 4294967295, false⟩
def MSIX_DATA_DATA : Fld := ⟨0x80008, [(0x10, 2048)], 0, 32, .rw, 0, 0, 4294967295, false⟩
def MSIX_CTRL_MASK : Fld := ⟨0x8000C, [(0x10, 2048)], 0, 1, .rw, 1, 0, 1, false⟩
def MSIX_PBA_PEND : Fld := ⟨0x88000, [(0x4, 64)], 0, 32, .ro, 0, 0, 4294967295, false⟩
def MBX_REQ_DATA : Fld := ⟨0x2000, [(0x4, 1024)], 0, 32, .rw, 0, 0, 4294967295, false⟩
def MBX_RESP_DATA : Fld := ⟨0x3000, [(0x4, 1024)], 0, 32, .ro, 0, 0, 4294967295, false⟩
def EVT_TAG_L_TAG : Fld := ⟨0x100008, [(0x20, 512)], 0, 32, .rl, 0, 0, 4294967295, false⟩
def EVT_TAG_M_TAG : Fld := ⟨0x10000C, [(0x20, 512)], 0, 32, .rh, 0, 0, 4294967295, false⟩
def EVT_TAG_H_TAG : Fld := ⟨0x100010, [(0x20, 512)], 0, 32, .rh, 0, 0, 4294967295, false⟩
def EVT_PEND_PEND : Fld := ⟨0x104000, [(0x4, 16)], 0, 32, .ro, 0, 0, 4294967295, false⟩
/-! ### 03_time_base.md R110 -/
def TB_CTRL_CANCEL : Fld := ⟨0x200020, [], 10, 1, .wo, 0, 0, 1, false⟩
def TB_CTRL_SETMODE : Fld := ⟨0x200020, [], 8, 2, .rw, 0, 0, 2, false⟩
def TB_CTRL_ALLOW_STEP : Fld := ⟨0x200020, [], 7, 1, .rw, 1, 0, 1, false⟩
def TB_CTRL_PPS_POL : Fld := ⟨0x200020, [], 6, 1, .rw, 0, 0, 1, false⟩
def TB_CTRL_DISC : Fld := ⟨0x200020, [], 0, 3, .rw, 0, 0, 3, false⟩
def TB_STATUS_STEPCNT : Fld := ⟨0x200024, [], 16, 16, .ro, 0, 0, 65535, false⟩
def TB_STATUS_SETPEND : Fld := ⟨0x200024, [], 11, 1, .ro, 0, 0, 1, false⟩
def TB_STATUS_PPS : Fld := ⟨0x200024, [], 9, 2, .ro, 0, 0, 3, false⟩
def TB_STATUS_TQ : Fld := ⟨0x200024, [], 0, 8, .ro, 0, 0, 255, false⟩
def TB_NOW_L_TAG : Fld := ⟨0x200028, [], 0, 32, .rl, 0, 0, 4294967295, false⟩
def TB_NOW_M_TAG : Fld := ⟨0x20002C, [], 0, 32, .rh, 0, 0, 4294967295, false⟩
def TB_NOW_H_TAG : Fld := ⟨0x200030, [], 0, 32, .rh, 0, 0, 4294967295, false⟩
def TB_SET_L_SET : Fld := ⟨0x200034, [], 0, 32, .wo, 0, 0, 4294967295, false⟩
def TB_SET_M_SET : Fld := ⟨0x200038, [], 0, 32, .wo, 0, 0, 4294967295, false⟩
def TB_SET_H_SET : Fld := ⟨0x20003C, [], 0, 32, .wo, 0, 0, 4294967295, false⟩
def TB_PPS_TOL : Fld := ⟨0x200040, [], 16, 16, .rw, 1000, 100, 65535, false⟩
def TB_PPS_SPOIL : Fld := ⟨0x200040, [], 0, 16, .ro, 0, 0, 65535, false⟩
def TB_PPS_DELAY_DELAY : Fld := ⟨0x200044, [], 0, 32, .rw, 0, 0, 4294967295, false⟩
def TB_PPS_ERR_ERR : Fld := ⟨0x200048, [], 0, 32, .ro, 0, 0, 4294967295, false⟩
def TB_LOOP_SLEW_MAX : Fld := ⟨0x20004C, [], 16, 16, .rw, 100, 1, 10000, false⟩
def TB_LOOP_KP : Fld := ⟨0x20004C, [], 12, 4, .rw, 3, 0, 15, false⟩
def TB_LOOP_KI : Fld := ⟨0x20004C, [], 8, 4, .rw, 8, 0, 15, false⟩
def TB_LOOP_STEP_LIMIT : Fld := ⟨0x20004C, [], 0, 8, .rw, 10, 1, 255, false⟩
def TB_ADJ_RATE_RATE : Fld := ⟨0x200050, [], 0, 32, .rw, 0, 0, 4294967295, false⟩
def TB_CORR_CORR : Fld := ⟨0x200054, [], 0, 32, .ro, 0, 0, 4294967295, false⟩
def REF_CFG_REVERT_GATES : Fld := ⟨0x200060, [], 12, 4, .rw, 8, 1, 15, false⟩
def REF_CFG_DWELL : Fld := ⟨0x200060, [], 8, 4, .rw, 3, 1, 15, false⟩
def REF_CFG_GATE : Fld := ⟨0x200060, [], 4, 3, .rw, 4, 0, 6, false⟩
def REF_CFG_REVERT : Fld := ⟨0x200060, [], 2, 1, .rw, 0, 0, 1, false⟩
def REF_CFG_AUTO : Fld := ⟨0x200060, [], 1, 1, .rw, 1, 0, 1, false⟩
def REF_CFG_PREF : Fld := ⟨0x200060, [], 0, 1, .rw, 0, 0, 1, false⟩
def REF_THR_WIDE : Fld := ⟨0x200064, [], 16, 16, .rw, 1000, 1, 65535, false⟩
def REF_THR_TIGHT : Fld := ⟨0x200064, [], 0, 16, .rw, 50, 1, 65535, false⟩
def REF_STAT_SWCNT : Fld := ⟨0x200068, [], 24, 8, .ro, 0, 0, 255, false⟩
def REF_STAT_PEND : Fld := ⟨0x200068, [], 9, 1, .ro, 0, 0, 1, false⟩
def REF_STAT_BYPASS : Fld := ⟨0x200068, [], 8, 1, .ro, 0, 0, 1, false⟩
def REF_STAT_BAND_B : Fld := ⟨0x200068, [], 6, 2, .ro, 3, 0, 3, false⟩
def REF_STAT_QUAL_B : Fld := ⟨0x200068, [], 5, 1, .ro, 0, 0, 1, false⟩
def REF_STAT_BAND_A : Fld := ⟨0x200068, [], 2, 2, .ro, 3, 0, 3, false⟩
def REF_STAT_QUAL_A : Fld := ⟨0x200068, [], 1, 1, .ro, 0, 0, 1, false⟩
def REF_STAT_ACTIVE : Fld := ⟨0x200068, [], 0, 1, .ro, 0, 0, 1, false⟩
def REF_OFFA_Y : Fld := ⟨0x20006C, [], 0, 32, .ro, 0, 0, 4294967295, false⟩
def REF_OFFB_Y : Fld := ⟨0x200070, [], 0, 32, .ro, 0, 0, 4294967295, false⟩
def TB_INDELAY_DELAY : Fld := ⟨0x201000, [(0x4, 128)], 0, 32, .rw, 0, 0, 4294967295, false⟩
def TB_INRES_RES : Fld := ⟨0x201200, [(0x4, 128)], 0, 32, .ro, 0, 0, 4294967295, false⟩
def PTP_CFG_ONESTEP : Fld := ⟨0x202000, [(0x40, 8)], 5, 1, .rw, 0, 0, 1, false⟩
def PTP_CFG_L2 : Fld := ⟨0x202000, [(0x40, 8)], 4, 1, .rw, 0, 0, 1, false⟩
def PTP_CFG_UDP6 : Fld := ⟨0x202000, [(0x40, 8)], 3, 1, .rw, 0, 0, 1, false⟩
def PTP_CFG_UDP4 : Fld := ⟨0x202000, [(0x40, 8)], 2, 1, .rw, 0, 0, 1, false⟩
def PTP_CFG_TX_EN : Fld := ⟨0x202000, [(0x40, 8)], 1, 1, .rw, 0, 0, 1, false⟩
def PTP_CFG_RX_EN : Fld := ⟨0x202000, [(0x40, 8)], 0, 1, .rw, 0, 0, 1, false⟩
def PTP_RXLAT_LAT : Fld := ⟨0x202004, [(0x40, 8)], 0, 32, .rw, 0, 0, 4294967295, false⟩
def PTP_TXLAT_LAT : Fld := ⟨0x202008, [(0x40, 8)], 0, 32, .rw, 0, 0, 4294967295, false⟩
def PTP_TXH0_TAG : Fld := ⟨0x20200C, [(0x40, 8)], 0, 32, .ro, 0, 0, 4294967295, false⟩
def PTP_TXH1_TAG : Fld := ⟨0x202010, [(0x40, 8)], 0, 32, .ro, 0, 0, 4294967295, false⟩
def PTP_TXH2_TAG : Fld := ⟨0x202014, [(0x40, 8)], 0, 32, .ro, 0, 0, 4294967295, false⟩
def PTP_TXST_SEQID : Fld := ⟨0x202018, [(0x40, 8)], 16, 16, .ro, 0, 0, 65535, false⟩
def PTP_TXST_DOMAIN : Fld := ⟨0x202018, [(0x40, 8)], 8, 8, .ro, 0, 0, 255, false⟩
def PTP_TXST_MSGTYPE : Fld := ⟨0x202018, [(0x40, 8)], 4, 4, .ro, 0, 0, 15, false⟩
def PTP_TXST_OVF : Fld := ⟨0x202018, [(0x40, 8)], 3, 1, .w1c, 0, 0, 1, false⟩
def PTP_TXST_VALID : Fld := ⟨0x202018, [(0x40, 8)], 1, 1, .ro, 0, 0, 1, false⟩
def PTP_TXST_POP : Fld := ⟨0x202018, [(0x40, 8)], 0, 1, .wo, 0, 0, 1, false⟩
/-! ### 04_sample_ingress.md R149 -/
def ING_CTRL_GAPINT : Fld := ⟨0x1000020, [], 16, 16, .rwd, 1, 1, 1000, false⟩
def ING_CTRL_CTOL : Fld := ⟨0x1000020, [], 8, 8, .rwd, 4, 1, 255, false⟩
def ING_GCFG_JESD : Fld := ⟨0x1000100, [(0x4, 16)], 31, 1, .rwd, 0, 0, 1, false⟩
def ING_GCFG_MR : Fld := ⟨0x1000100, [(0x4, 16)], 30, 1, .rwd, 0, 0, 1, false⟩
def ING_GCFG_JRATE : Fld := ⟨0x1000100, [(0x4, 16)], 0, 12, .rwd, 0, 0, 4095, false⟩
def ING_LCFG_INV : Fld := ⟨0x1000400, [(0x4, 128)], 3, 1, .rwd, 0, 0, 1, false⟩
def ING_LCFG_PWRDN : Fld := ⟨0x1000400, [(0x4, 128)], 2, 1, .rwd, 0, 0, 1, false⟩
def ING_LCFG_CHK : Fld := ⟨0x1000400, [(0x4, 128)], 0, 2, .rwd, 0, 0, 2, false⟩
def ING_LSTAT_STATE : Fld := ⟨0x1000600, [(0x4, 128)], 28, 4, .ro, 0, 0, 15, false⟩
def ING_LSTAT_ADAPTCNT : Fld := ⟨0x1000600, [(0x4, 128)], 8, 8, .ro, 0, 0, 255, false⟩
def ING_LSTAT_LOSCNT : Fld := ⟨0x1000600, [(0x4, 128)], 0, 8, .ro, 0, 0, 255, false⟩
def ING_LERR_L_ERR : Fld := ⟨0x1000800, [(0x8, 128)], 0, 32, .rl, 0, 0, 4294967295, false⟩
def ING_LERR_H_ERR : Fld := ⟨0x1000804, [(0x8, 128)], 0, 32, .rh, 0, 0, 4294967295, false⟩
def ING_LMAP_EN : Fld := ⟨0x1001000, [(0x4, 128)], 31, 1, .rwd, 1, 0, 1, true⟩
def ING_LMAP_JESD : Fld := ⟨0x1001000, [(0x4, 128)], 30, 1, .rwd, 0, 0, 1, true⟩
def ING_LMAP_LW : Fld := ⟨0x1001000, [(0x4, 128)], 28, 2, .rwd, 0, 0, 2, true⟩
def ING_LMAP_LANE : Fld := ⟨0x1001000, [(0x4, 128)], 0, 7, .rwd, 0, 0, 127, true⟩
def ING_ICFG_SRCID : Fld := ⟨0x1001200, [(0x4, 128)], 16, 16, .rwd, 0, 0, 65535, false⟩
def ING_ICFG_SRCCHK : Fld := ⟨0x1001200, [(0x4, 128)], 15, 1, .rwd, 0, 0, 1, false⟩
def ING_ICFG_CLKGAP : Fld := ⟨0x1001200, [(0x4, 128)], 14, 1, .rwd, 1, 0, 1, false⟩
def ING_ICFG_GEN : Fld := ⟨0x1001200, [(0x4, 128)], 12, 2, .rwd, 0, 0, 2, false⟩
def ING_ICFG_FLEN : Fld := ⟨0x1001200, [(0x4, 128)], 10, 2, .rwd, 0, 0, 2, false⟩
def ING_ICFG_FMT : Fld := ⟨0x1001200, [(0x4, 128)], 8, 2, .rwd, 0, 0, 1, false⟩
def ING_RATE_RATE : Fld := ⟨0x1001400, [(0x4, 128)], 0, 32, .rwd, 6400000, 100000, 6400000, false⟩
def ING_JCFG_RBD : Fld := ⟨0x1001600, [(0x4, 128)], 24, 8, .rwd, 0, 0, 31, false⟩
def ING_JCFG_N : Fld := ⟨0x1001600, [(0x4, 128)], 19, 5, .rwd, 16, 12, 16, false⟩
def ING_JCFG_CS : Fld := ⟨0x1001600, [(0x4, 128)], 16, 3, .rwd, 0, 0, 4, false⟩
def ING_JCFG_SLOG : Fld := ⟨0x1001600, [(0x4, 128)], 12, 3, .rwd, 2, 0, 4, false⟩
def ING_JCFG_M : Fld := ⟨0x1001600, [(0x4, 128)], 8, 4, .rwd, 1, 1, 2, false⟩
def ING_ISTAT_STATE : Fld := ⟨0x1001800, [(0x4, 128)], 28, 4, .ro, 0, 0, 15, false⟩
def ING_ISTAT_UP : Fld := ⟨0x1001800, [(0x4, 128)], 16, 1, .w1c, 0, 0, 1, false⟩
def ING_ISTAT_CAUSE : Fld := ⟨0x1001800, [(0x4, 128)], 1, 15, .w1c, 0, 0, 32767, false⟩
def ING_DECLRATE_RATE : Fld := ⟨0x1001A00, [(0x4, 128)], 0, 32, .ro, 0, 0, 4294967295, false⟩
def ING_SPOIL_SPOIL : Fld := ⟨0x1001C00, [(0x4, 128)], 0, 32, .ro, 0, 0, 4294967295, false⟩
def ING_GAP_L_SAMP : Fld := ⟨0x1002000, [(0x8, 128)], 0, 32, .rl, 0, 0, 4294967295, false⟩
def ING_GAP_H_SAMP : Fld := ⟨0x1002004, [(0x8, 128)], 0, 32, .rh, 0, 0, 4294967295, false⟩
/-! ### 05_coarse_channeliser.md R177 -/
def CCH_STAT_SWPEND : Fld := ⟨0x1400020, [], 31, 1, .ro, 0, 0, 1, false⟩
def CCH_STAT_LASTSAT : Fld := ⟨0x1400020, [], 0, 7, .ro, 0, 0, 127, false⟩
def CCH_PALHDR_KIND : Fld := ⟨0x1400100, [(0x4, 8)], 24, 8, .rwd, 0, 0, 2, false⟩
def CCH_PALHDR_HALF : Fld := ⟨0x1400100, [(0x4, 8)], 0, 16, .rwd, 0, 0, 16384, false⟩
def CCH_WIN_WIN : Fld := ⟨0x1401000, [(0x4, 128)], 8, 8, .rwd, 0, 0, 23, false⟩
def CCH_WIN_SKWIN : Fld := ⟨0x1401000, [(0x4, 128)], 0, 8, .rwd, 0, 0, 23, false⟩
def CCH_ICFG_SSHIFT : Fld := ⟨0x1401200, [(0x4, 128)], 27, 5, .rwd, 10, 0, 31, false⟩
def CCH_ICFG_SFMT : Fld := ⟨0x1401200, [(0x4, 128)], 26, 1, .rwd, 1, 0, 1, false⟩
def CCH_ICFG_SEAMEN : Fld := ⟨0x1401200, [(0x4, 128)], 25, 1, .rwd, 0, 0, 1, false⟩
def CCH_ICFG_MAINEN : Fld := ⟨0x1401200, [(0x4, 128)], 24, 1, .rwd, 1, 0, 1, false⟩
def CCH_ICFG_SKEN : Fld := ⟨0x1401200, [(0x4, 128)], 23, 1, .rwd, 1, 0, 1, false⟩
def CCH_ICFG_SHIFT : Fld := ⟨0x1401200, [(0x4, 128)], 16, 5, .rwd, 10, 0, 31, false⟩
def CCH_ICFG_OFMT : Fld := ⟨0x1401200, [(0x4, 128)], 8, 2, .rwd, 0, 0, 2, false⟩
def CCH_ICFG_SKSHIFT : Fld := ⟨0x1401200, [(0x4, 128)], 5, 3, .rwd, 6, 0, 7, false⟩
def CCH_ICFG_OVS : Fld := ⟨0x1401200, [(0x4, 128)], 4, 1, .rwd, 0, 0, 1, false⟩
def CCH_ICFG_NLOG : Fld := ⟨0x1401200, [(0x4, 128)], 0, 3, .rwd, 2, 0, 4, false⟩
def CCH_DC_TRK : Fld := ⟨0x1401400, [(0x4, 128)], 31, 1, .rwd, 0, 0, 1, false⟩
def CCH_DC_DCRST : Fld := ⟨0x1401400, [(0x4, 128)], 30, 1, .rwd, 0, 0, 1, false⟩
def CCH_DC_DCK : Fld := ⟨0x1401400, [(0x4, 128)], 24, 5, .rwd, 20, 8, 31, false⟩
def CCH_DC_OFSI : Fld := ⟨0x1401400, [(0x4, 128)], 0, 16, .rwd, 0, 0, 65535, false⟩
def CCH_OFSQ_OFSQ : Fld := ⟨0x1401600, [(0x4, 128)], 0, 16, .rwd, 0, 0, 65535, false⟩
def CCH_DCEST_ESTQ : Fld := ⟨0x1401800, [(0x4, 128)], 16, 16, .rc, 0, 0, 65535, false⟩
def CCH_DCEST_ESTI : Fld := ⟨0x1401800, [(0x4, 128)], 0, 16, .rc, 0, 0, 65535, false⟩
def CCH_SAT_COUNT : Fld := ⟨0x1401A00, [(0x4, 128)], 0, 32, .ro, 0, 0, 4294967295, false⟩
def CCH_CSAT_COUNT : Fld := ⟨0x1401C00, [(0x4, 128)], 0, 32, .ro, 0, 0, 4294967295, false⟩
def CCH_SKFF_COUNT : Fld := ⟨0x1401E00, [(0x4, 128)], 0, 32, .ro, 0, 0, 4294967295, false⟩
def CCH_GAIN_G_ODD : Fld := ⟨0x1410000, [(0x1000, 128), (0x4, 1024)], 16, 16, .rwd, 16384, 0, 65535, false⟩
def CCH_GAIN_G_EVEN : Fld := ⟨0x1410000, [(0x1000, 128), (0x4, 1024)], 0, 16, .rwd, 16384, 0, 65535, false⟩
def CCH_PAL_COEF : Fld := ⟨0x1500000, [(0x10000, 8), (0x4, 16384)], 0, 18, .rwd, 0, 0, 262143, false⟩
/-! ### 06_fine_channeliser.md R204 -/
def FCH_CTRL_CTHBM : Fld := ⟨0x1800020, [], 0, 1, .rwd, 0, 0, 1, false⟩
def FCH_STAT_SWPEND : Fld := ⟨0x1800024, [], 31, 1, .ro, 0, 0, 1, false⟩
def FCH_STAT_LASTSAT : Fld := ⟨0x1800024, [], 0, 7, .ro, 0, 0, 127, false⟩
def FCH_CTHBM_L_BYTES : Fld := ⟨0x1800028, [], 0, 32, .rl, 0, 0, 4294967295, false⟩
def FCH_CTHBM_H_BYTES : Fld := ⟨0x180002C, [], 0, 32, .rh, 0, 0, 4294967295, false⟩
def FCH_CTSRAM_BYTES : Fld := ⟨0x1800040, [(0x4, 8)], 0, 32, .ro, 0, 0, 4294967295, false⟩
def FCH_PALHDR_KIND : Fld := ⟨0x1800100, [(0x4, 4)], 24, 8, .rwd, 0, 0, 2, false⟩
def FCH_PALHDR_LEN : Fld := ⟨0x1800100, [(0x4, 4)], 0, 15, .rwd, 0, 0, 16384, false⟩
def FCH_ICFG_EN : Fld := ⟨0x1801000, [(0x4, 128)], 31, 1, .rwd, 0, 0, 1, false⟩
def FCH_ICFG_ALIGN : Fld := ⟨0x1801000, [(0x4, 128)], 30, 1, .rwd, 0, 0, 1, false⟩
def FCH_ICFG_OVL : Fld := ⟨0x1801000, [(0x4, 128)], 28, 2, .rwd, 0, 0, 2, false⟩
def FCH_ICFG_NBLOG : Fld := ⟨0x1801000, [(0x4, 128)], 24, 4, .rwd, 6, 0, 10, false⟩
def FCH_ICFG_FFMT : Fld := ⟨0x1801000, [(0x4, 128)], 22, 2, .rwd, 0, 0, 2, false⟩
def FCH_ICFG_FSHIFT : Fld := ⟨0x1801000, [(0x4, 128)], 16, 5, .rwd, 10, 0, 31, false⟩
def FCH_WIN_WIN : Fld := ⟨0x1801200, [(0x4, 128)], 8, 8, .rwd, 0, 0, 19, false⟩
def FCH_WIN_FLAT : Fld := ⟨0x1801200, [(0x4, 128)], 0, 8, .rwd, 0, 0, 19, false⟩
def FCH_SAT_COUNT : Fld := ⟨0x1801400, [(0x4, 128)], 0, 32, .ro, 0, 0, 4294967295, false⟩
def FCH_LOST_COUNT : Fld := ⟨0x1801600, [(0x4, 128)], 0, 32, .ro, 0, 0, 4294967295, false⟩
def FCH_LATE_COUNT : Fld := ⟨0x1801800, [(0x4, 128)], 0, 32, .ro, 0, 0, 4294967295, false⟩
def FCH_SPLIT_COUNT : Fld := ⟨0x1801A00, [(0x4, 128)], 0, 32, .ro, 0, 0, 4294967295, false⟩
def FCH_BINSEL_SEL : Fld := ⟨0x1810000, [(0x100, 128), (0x4, 64)], 0, 32, .rwd, 0, 0, 4294967295, false⟩
def FCH_PAL_WORD : Fld := ⟨0x1900000, [(0x8000, 4), (0x4, 8192)], 0, 32, .rwd, 0, 0, 4294967295, false⟩
/-! ### 07_detection_and_maps.md R235 -/
def DVW_CTRL_EN : Fld := ⟨0x1C10000, [(0x40, 1024)], 31, 1, .rwd, 0, 0, 1, false⟩
def DVW_CTRL_CUT : Fld := ⟨0x1C10000, [(0x40, 1024)], 30, 1, .rwd, 0, 0, 1, false⟩
def DVW_CTRL_PLANE : Fld := ⟨0x1C10000, [(0x40, 1024)], 27, 3, .rwd, 0, 0, 3, false⟩
def DVW_CTRL_THI : Fld := ⟨0x1C10000, [(0x40, 1024)], 26, 1, .rwd, 0, 0, 1, false⟩
def DVW_CTRL_DET : Fld := ⟨0x1C10000, [(0x40, 1024)], 22, 4, .rwd, 2, 0, 8, false⟩
def DVW_CTRL_VFMT : Fld := ⟨0x1C10000, [(0x40, 1024)], 20, 2, .rwd, 0, 0, 2, false⟩
def DVW_CTRL_HOLD : Fld := ⟨0x1C10000, [(0x40, 1024)], 19, 1, .rwd, 0, 0, 1, false⟩
def DVW_CTRL_DELTA : Fld := ⟨0x1C10000, [(0x40, 1024)], 18, 1, .rwd, 0, 0, 1, false⟩
def DVW_CTRL_HWID : Fld := ⟨0x1C10000, [(0x40, 1024)], 17, 1, .rwd, 0, 0, 1, false⟩
def DVW_CTRL_LOWCLIP : Fld := ⟨0x1C10000, [(0x40, 1024)], 16, 1, .rwd, 0, 0, 1, false⟩
def DVW_CTRL_INTCNT : Fld := ⟨0x1C10000, [(0x40, 1024)], 0, 16, .rwd, 0, 0, 65535, false⟩
def DVW_INT_N : Fld := ⟨0x1C10004, [(0x40, 1024)], 0, 25, .rwd, 1, 1, 16777216, false⟩
def DVW_RECT0_K0 : Fld := ⟨0x1C10008, [(0x40, 1024)], 16, 11, .rwd, 0, 0, 2047, false⟩
def DVW_RECT0_KCNT : Fld := ⟨0x1C10008, [(0x40, 1024)], 0, 12, .rwd, 1, 1, 2048, false⟩
def DVW_RECT1_J0 : Fld := ⟨0x1C1000C, [(0x40, 1024)], 16, 14, .rwd, 0, 0, 16383, false⟩
def DVW_RECT1_JCNT : Fld := ⟨0x1C1000C, [(0x40, 1024)], 0, 15, .rwd, 1, 1, 16384, false⟩
def DVW_MAP0_ROWS : Fld := ⟨0x1C10020, [(0x40, 1024)], 16, 11, .rwd, 256, 1, 1024, false⟩
def DVW_MAP0_COLS : Fld := ⟨0x1C10020, [(0x40, 1024)], 0, 13, .rwd, 1, 1, 4096, false⟩
def DVW_MAP1_TOP : Fld := ⟨0x1C10024, [(0x40, 1024)], 16, 16, .rwd, 0, 0, 65535, false⟩
def DVW_MAP1_STEP : Fld := ⟨0x1C10024, [(0x40, 1024)], 0, 16, .rwd, 128, 1, 32767, false⟩
def DVW_PERS_HIT : Fld := ⟨0x1C10028, [(0x40, 1024)], 24, 8, .rwd, 16, 1, 255, false⟩
def DVW_PERS_DK : Fld := ⟨0x1C10028, [(0x40, 1024)], 20, 4, .rwd, 8, 0, 15, false⟩
def DVW_PERS_DECAY_T : Fld := ⟨0x1C10028, [(0x40, 1024)], 0, 20, .rwd, 1, 1, 1048575, false⟩
def DVW_DELTA_EMPTY : Fld := ⟨0x1C1002C, [(0x40, 1024)], 31, 1, .rwd, 0, 0, 1, false⟩
def DVW_DELTA_THR : Fld := ⟨0x1C1002C, [(0x40, 1024)], 16, 15, .rwd, 128, 1, 32767, false⟩
def DVW_DELTA_ANCH : Fld := ⟨0x1C1002C, [(0x40, 1024)], 0, 16, .rwd, 6000, 1, 65535, false⟩
def DVW_DEST_SEN : Fld := ⟨0x1C10030, [(0x40, 1024)], 31, 1, .rwd, 0, 0, 1, false⟩
def DVW_DEST_CEN : Fld := ⟨0x1C10030, [(0x40, 1024)], 30, 1, .rwd, 0, 0, 1, false⟩
def DVW_DEST_SKTRIG : Fld := ⟨0x1C10030, [(0x40, 1024)], 29, 1, .rwd, 0, 0, 1, false⟩
def DVW_DEST_CANOUT : Fld := ⟨0x1C10030, [(0x40, 1024)], 28, 1, .rwd, 0, 0, 1, false⟩
def DVW_DEST_LAYER : Fld := ⟨0x1C10030, [(0x40, 1024)], 24, 4, .rwd, 0, 0, 15, false⟩
def DVW_DEST_STREAM : Fld := ⟨0x1C10030, [(0x40, 1024)], 0, 12, .rwd, 0, 0, 4095, false⟩
def DVW_SK_SK_HI : Fld := ⟨0x1C10034, [(0x40, 1024)], 16, 16, .rwd, 6144, 0, 65535, false⟩
def DVW_SK_SK_LO : Fld := ⟨0x1C10034, [(0x40, 1024)], 0, 16, .rwd, 2048, 0, 65535, false⟩
def DVW_STAT_STATE : Fld := ⟨0x1C10038, [(0x40, 1024)], 29, 3, .ro, 0, 0, 7, false⟩
def DVW_STAT_GAL : Fld := ⟨0x1C10038, [(0x40, 1024)], 26, 3, .ro, 0, 0, 7, false⟩
def DVW_STAT_STEP : Fld := ⟨0x1C10038, [(0x40, 1024)], 21, 4, .ro, 0, 0, 15, false⟩
def DVW_CLR_PERSIST : Fld := ⟨0x1C1003C, [(0x40, 1024)], 1, 1, .wo, 0, 0, 1, false⟩
def DVW_CLR_HOLD : Fld := ⟨0x1C1003C, [(0x40, 1024)], 0, 1, .wo, 0, 0, 1, false⟩
def DVW_MASK_SEL : Fld := ⟨0x1C10010, [(0x40, 1024), (0x4, 4)], 0, 32, .rwd, 0, 0, 4294967295, false⟩
def DET_STAT_SWPEND : Fld := ⟨0x1C00020, [], 31, 1, .ro, 0, 0, 1, false⟩
def DET_STAT_LASTVIEW : Fld := ⟨0x1C00020, [], 0, 10, .ro, 0, 0, 1023, false⟩
def DET_LOAD_LOAD : Fld := ⟨0x1C00024, [], 0, 32, .ro, 0, 0, 4294967295, false⟩
def DET_SRAM_BYTES : Fld := ⟨0x1C00040, [(0x4, 8)], 0, 32, .ro, 0, 0, 4294967295, false⟩
def DET_LATE_COUNT : Fld := ⟨0x1C00060, [], 0, 32, .ro, 0, 0, 4294967295, false⟩
def DET_SHORT_COUNT : Fld := ⟨0x1C00064, [], 0, 32, .ro, 0, 0, 4294967295, false⟩
def DET_HSAT_COUNT : Fld := ⟨0x1C00068, [], 0, 32, .ro, 0, 0, 4294967295, false⟩
def DET_FF_COUNT : Fld := ⟨0x1C0006C, [], 0, 32, .ro, 0, 0, 4294967295, false⟩
def DET_DROP_COUNT : Fld := ⟨0x1C00070, [], 0, 32, .ro, 0, 0, 4294967295, false⟩
/-! ### 08_tuners.md R264 -/
def TUN_CTRL_EN : Fld := ⟨0x2010000, [(0x40, 256)], 31, 1, .rwd, 0, 0, 1, false⟩
def TUN_CTRL_CONT : Fld := ⟨0x2010000, [(0x40, 256)], 30, 1, .rwd, 0, 0, 1, false⟩
def TUN_CTRL_INPUT : Fld := ⟨0x2010000, [(0x40, 256)], 23, 7, .rwd, 0, 0, 127, false⟩
def TUN_CTRL_K : Fld := ⟨0x2010000, [(0x40, 256)], 19, 4, .rwd, 3, 0, 10, false⟩
def TUN_CTRL_FDEC : Fld := ⟨0x2010000, [(0x40, 256)], 16, 3, .rwd, 0, 0, 4, false⟩
def TUN_CTRL_FIREN : Fld := ⟨0x2010000, [(0x40, 256)], 15, 1, .rwd, 0, 0, 1, false⟩
def TUN_CTRL_RSEN : Fld := ⟨0x2010000, [(0x40, 256)], 14, 1, .rwd, 0, 0, 1, false⟩
def TUN_CTRL_OFMT : Fld := ⟨0x2010000, [(0x40, 256)], 12, 2, .rwd, 0, 0, 2, false⟩
def TUN_CTRL_GLZ : Fld := ⟨0x2010000, [(0x40, 256)], 8, 4, .rwd, 0, 0, 10, false⟩
def TUN_FTW_L_FTW : Fld := ⟨0x2010004, [(0x40, 256)], 0, 32, .rwd, 0, 0, 4294967295, false⟩
def TUN_FTW_H_FTW : Fld := ⟨0x2010008, [(0x40, 256)], 0, 16, .rwd, 0, 0, 65535, false⟩
def TUN_NCO_POFS : Fld := ⟨0x201000C, [(0x40, 256)], 16, 16, .rwd, 0, 0, 65535, false⟩
def TUN_NCO_USEIDX : Fld := ⟨0x201000C, [(0x40, 256)], 0, 1, .rwd, 0, 0, 1, false⟩
def TUN_SWIDX_L_IDX : Fld := ⟨0x2010010, [(0x40, 256)], 0, 32, .rwd, 0, 0, 4294967295, false⟩
def TUN_SWIDX_H_IDX : Fld := ⟨0x2010014, [(0x40, 256)], 0, 16, .rwd, 0, 0, 65535, false⟩
def TUN_FIR_FSEL : Fld := ⟨0x2010018, [(0x40, 256)], 16, 8, .rwd, 0, 0, 47, false⟩
def TUN_FIR_RSEL : Fld := ⟨0x2010018, [(0x40, 256)], 8, 8, .rwd, 0, 0, 19, false⟩
def TUN_FIR_GSH : Fld := ⟨0x2010018, [(0x40, 256)], 0, 5, .rwd, 0, 0, 24, false⟩
def TUN_STEP_STEP : Fld := ⟨0x201001C, [(0x40, 256)], 0, 32, .rwd, 2147483648, 2147483648, 4294967295, false⟩
def TUN_DEST_SEN : Fld := ⟨0x2010020, [(0x40, 256)], 31, 1, .rwd, 0, 0, 1, false⟩
def TUN_DEST_TEN : Fld := ⟨0x2010020, [(0x40, 256)], 30, 1, .rwd, 0, 0, 1, false⟩
def TUN_DEST_TRG : Fld := ⟨0x2010020, [(0x40, 256)], 29, 1, .rwd, 0, 0, 1, false⟩
def TUN_DEST_SMAX : Fld := ⟨0x2010020, [(0x40, 256)], 26, 3, .rwd, 0, 0, 4, false⟩
def TUN_DEST_TILE : Fld := ⟨0x2010020, [(0x40, 256)], 20, 6, .rwd, 0, 0, 63, false⟩
def TUN_DEST_STREAM : Fld := ⟨0x2010020, [(0x40, 256)], 0, 12, .rwd, 0, 0, 4095, false⟩
def TUN_RING_RBASE : Fld := ⟨0x2010024, [(0x40, 256)], 16, 15, .rwd, 0, 0, 32767, false⟩
def TUN_RING_RLEN : Fld := ⟨0x2010024, [(0x40, 256)], 0, 16, .rwd, 0, 0, 32768, false⟩
def TUN_TSTAT_STATE : Fld := ⟨0x2010028, [(0x40, 256)], 29, 3, .ro, 0, 0, 7, false⟩
def TUN_TSTAT_RSTEP : Fld := ⟨0x2010028, [(0x40, 256)], 21, 3, .ro, 0, 0, 7, false⟩
def TUN_TSTAT_LATEIDX : Fld := ⟨0x2010028, [(0x40, 256)], 5, 1, .w1c, 0, 0, 1, false⟩
def TUN_TSTAT_SER : Fld := ⟨0x2010028, [(0x40, 256)], 4, 1, .w1c, 0, 0, 1, false⟩
def TUN_TSTAT_GLZEND : Fld := ⟨0x2010028, [(0x40, 256)], 3, 1, .w1c, 0, 0, 1, false⟩
def TUN_TSTAT_DRAINED : Fld := ⟨0x2010028, [(0x40, 256)], 2, 1, .w1c, 0, 0, 1, false⟩
def TUN_TSTAT_SAT : Fld := ⟨0x2010028, [(0x40, 256)], 1, 1, .w1c, 0, 0, 1, false⟩
def TUN_SAT_COUNT : Fld := ⟨0x201002C, [(0x40, 256)], 0, 32, .ro, 0, 0, 4294967295, false⟩
def TUN_PHI_L_PHI : Fld := ⟨0x2010030, [(0x40, 256)], 0, 32, .rl, 0, 0, 4294967295, false⟩
def TUN_PHI_H_PHI : Fld := ⟨0x2010034, [(0x40, 256)], 0, 16, .rh, 0, 0, 65535, false⟩
def TUN_SERIES_SERIES : Fld := ⟨0x2010038, [(0x40, 256)], 0, 32, .ro, 0, 0, 4294967295, false⟩
def TUN_STAT_SWPEND : Fld := ⟨0x2000020, [], 31, 1, .ro, 0, 0, 1, false⟩
def TUN_STAT_LASTSAT : Fld := ⟨0x2000020, [], 0, 8, .ro, 0, 0, 255, false⟩
def TUN_FIRHDR_KIND : Fld := ⟨0x2000100, [(0x4, 32)], 30, 2, .rwd, 0, 0, 1, false⟩
def TUN_FIRHDR_DLY : Fld := ⟨0x2000100, [(0x4, 32)], 9, 13, .rwd, 0, 0, 6128, false⟩
def TUN_FIRHDR_T : Fld := ⟨0x2000100, [(0x4, 32)], 0, 9, .rwd, 0, 0, 384, false⟩
def TUN_RSHDR_VALID : Fld := ⟨0x2000180, [(0x4, 4)], 31, 1, .rwd, 0, 0, 1, false⟩
def TUN_FIRW_COEF : Fld := ⟨0x2040000, [(0x800, 32), (0x4, 384)], 0, 18, .rwd, 0, 0, 262143, false⟩
def TUN_RSW_COEF : Fld := ⟨0x2050000, [(0x1000, 4), (0x4, 1024)], 0, 18, .rwd, 0, 0, 262143, false⟩
def TUN_FIRROM_COEF : Fld := ⟨0x2060000, [(0x800, 6), (0x4, 384)], 0, 18, .ro, 0, 0, 262143, false⟩
def TUN_RSROM_COEF : Fld := ⟨0x2070000, [(0x1000, 2), (0x4, 1024)], 0, 18, .ro, 0, 0, 262143, false⟩
/-! ### 09_triggers.md R293 -/
def TRG_STAT_SWPEND : Fld := ⟨0x2400020, [], 31, 1, .ro, 0, 0, 1, false⟩
def TRG_STAT_QLEN : Fld := ⟨0x2400020, [], 0, 13, .ro, 0, 0, 8191, false⟩
def TRG_CMD_OP : Fld := ⟨0x2400024, [], 29, 3, .wo, 0, 0, 7, false⟩
def TRG_CMD_GROUP : Fld := ⟨0x2400024, [], 28, 1, .wo, 0, 0, 1, false⟩
def TRG_CMD_FTAGEN : Fld := ⟨0x2400024, [], 27, 1, .wo, 0, 0, 1, false⟩
def TRG_CMD_UNIT : Fld := ⟨0x2400024, [], 0, 5, .wo, 0, 0, 31, false⟩
def TRG_FTAG_L_TAG : Fld := ⟨0x2400028, [], 0, 32, .wo, 0, 0, 4294967295, false⟩
def TRG_FTAG_M_TAG : Fld := ⟨0x240002C, [], 0, 32, .wo, 0, 0, 4294967295, false⟩
def TRG_FTAG_H_TAG : Fld := ⟨0x2400030, [], 0, 32, .wo, 0, 0, 4294967295, false⟩
def TRG_GCFG_EN : Fld := ⟨0x2400040, [(0x4, 8)], 31, 1, .rwd, 0, 0, 1, false⟩
def TRG_GCFG_FIRST : Fld := ⟨0x2400040, [(0x4, 8)], 30, 1, .rwd, 0, 0, 1, false⟩
def TRG_GCFG_PAIR : Fld := ⟨0x2400040, [(0x4, 8)], 29, 1, .rwd, 0, 0, 1, false⟩
def TRG_GCFG_MASTER : Fld := ⟨0x2400040, [(0x4, 8)], 24, 5, .rwd, 0, 0, 31, false⟩
def TRG_GCFG_ARMLEAD : Fld := ⟨0x2400040, [(0x4, 8)], 0, 8, .rwd, 10, 1, 255, false⟩
def TIN_CFG_EN : Fld := ⟨0x2400080, [(0x4, 8)], 31, 1, .rwd, 0, 0, 1, false⟩
def TIN_CFG_EDGE : Fld := ⟨0x2400080, [(0x4, 8)], 29, 2, .rwd, 1, 1, 3, false⟩
def TIN_CFG_MINW : Fld := ⟨0x2400080, [(0x4, 8)], 0, 8, .rwd, 0, 0, 255, false⟩
def TIN_STAT_LEVEL : Fld := ⟨0x24000A0, [(0x4, 8)], 31, 1, .rc, 0, 0, 1, false⟩
def TIN_STAT_GLITCH : Fld := ⟨0x24000A0, [(0x4, 8)], 0, 16, .ro, 0, 0, 65535, false⟩
def TOUT_CFG_EN : Fld := ⟨0x24000C0, [(0x4, 8)], 31, 1, .rwd, 0, 0, 1, false⟩
def TOUT_CFG_POL : Fld := ⟨0x24000C0, [(0x4, 8)], 30, 1, .rwd, 0, 0, 1, false⟩
def TOUT_CFG_MODE : Fld := ⟨0x24000C0, [(0x4, 8)], 28, 2, .rwd, 0, 0, 3, false⟩
def TOUT_CFG_PW : Fld := ⟨0x24000C0, [(0x4, 8)], 0, 16, .rwd, 20, 2, 65535, false⟩
def TOUT_SRC_UNITS : Fld := ⟨0x24000E0, [(0x4, 8)], 0, 32, .rwd, 0, 0, 4294967295, false⟩
def TOUT_DLY_DLY : Fld := ⟨0x2400100, [(0x4, 8)], 0, 32, .rwd, 250, 0, 4294967295, false⟩
def TOUT_STAT_LATE : Fld := ⟨0x2400120, [(0x4, 8)], 16, 16, .ro, 0, 0, 65535, false⟩
def TOUT_STAT_MERGE : Fld := ⟨0x2400120, [(0x4, 8)], 0, 16, .ro, 0, 0, 65535, false⟩
def TRG_MSKHDR_VALID : Fld := ⟨0x2400200, [(0x4, 32)], 31, 1, .rwd, 0, 0, 1, false⟩
def TRG_MSKHDR_LEN : Fld := ⟨0x2400200, [(0x4, 32)], 0, 13, .rwd, 0, 0, 4096, false⟩
def TRG_MSK_UP : Fld := ⟨0x2500000, [(0x4000, 32), (0x4, 4096)], 16, 16, .rwd, 32767, 0, 65535, false⟩
def TRG_MSK_LO : Fld := ⟨0x2500000, [(0x4000, 32), (0x4, 4096)], 0, 16, .rwd, 32768, 0, 65535, false⟩
def TRG_UCFG_EN : Fld := ⟨0x2410000, [(0x80, 32)], 31, 1, .rwd, 0, 0, 1, false⟩
def TRG_UCFG_SRC : Fld := ⟨0x2410000, [(0x80, 32)], 27, 4, .rwd, 0, 0, 11, false⟩
def TRG_UCFG_REARM : Fld := ⟨0x2410000, [(0x80, 32)], 26, 1, .rwd, 0, 0, 1, false⟩
def TRG_UCFG_PARTOK : Fld := ⟨0x2410000, [(0x80, 32)], 25, 1, .rwd, 0, 0, 1, false⟩
def TRG_UCFG_GRPEN : Fld := ⟨0x2410000, [(0x80, 32)], 24, 1, .rwd, 0, 0, 1, false⟩
def TRG_UCFG_GRP : Fld := ⟨0x2410000, [(0x80, 32)], 21, 3, .rwd, 0, 0, 7, false⟩
def TRG_UCFG_THI : Fld := ⟨0x2410000, [(0x80, 32)], 20, 1, .rwd, 0, 0, 1, false⟩
def TRG_UCFG_HUNIT : Fld := ⟨0x2410000, [(0x80, 32)], 18, 2, .rwd, 0, 0, 2, false⟩
def TRG_UCFG_QCNT : Fld := ⟨0x2410000, [(0x80, 32)], 0, 16, .rwd, 1, 1, 65535, false⟩
def TRG_ULVL_LVL : Fld := ⟨0x2410004, [(0x80, 32)], 16, 16, .rwd, 0, 0, 65535, false⟩
def TRG_ULVL_HYS : Fld := ⟨0x2410004, [(0x80, 32)], 0, 16, .rwd, 0, 0, 65535, false⟩
def TRG_UMSK_LMODE : Fld := ⟨0x2410008, [(0x80, 32)], 29, 3, .rwd, 0, 0, 7, false⟩
def TRG_UMSK_SLOT : Fld := ⟨0x2410008, [(0x80, 32)], 16, 8, .rwd, 255, 0, 255, false⟩
def TRG_UMSK_NVIOL : Fld := ⟨0x2410008, [(0x80, 32)], 0, 13, .rwd, 1, 1, 4096, false⟩
def TRG_UELEM_ELEM : Fld := ⟨0x2410024, [(0x80, 32)], 0, 10, .rwd, 0, 0, 1023, false⟩
def TRG_UFLAT_UP : Fld := ⟨0x2410028, [(0x80, 32)], 16, 16, .rwd, 32767, 0, 65535, false⟩
def TRG_UFLAT_LO : Fld := ⟨0x2410028, [(0x80, 32)], 0, 16, .rwd, 32768, 0, 65535, false⟩
def TRG_UGATE_GMODE : Fld := ⟨0x241002C, [(0x80, 32)], 30, 2, .rwd, 0, 0, 3, false⟩
def TRG_UGATE_GPOL : Fld := ⟨0x241002C, [(0x80, 32)], 29, 1, .rwd, 0, 0, 1, false⟩
def TRG_UGATE_GIDX : Fld := ⟨0x241002C, [(0x80, 32)], 24, 5, .rwd, 0, 0, 31, false⟩
def TRG_UGATE_GWIN : Fld := ⟨0x241002C, [(0x80, 32)], 0, 24, .rwd, 0, 0, 16777215, false⟩
def TRG_UHOFF_HOFF : Fld := ⟨0x2410030, [(0x80, 32)], 0, 32, .rwd, 0, 0, 4294967295, false⟩
def TRG_UACT_CAP : Fld := ⟨0x2410034, [(0x80, 32)], 31, 1, .rwd, 0, 0, 1, false⟩
def TRG_UACT_WAKE : Fld := ⟨0x2410034, [(0x80, 32)], 30, 1, .rwd, 0, 0, 1, false⟩
def TRG_UACT_PAIRTX : Fld := ⟨0x2410034, [(0x80, 32)], 29, 1, .rwd, 0, 0, 1, false⟩
def TRG_UACT_EVF : Fld := ⟨0x2410034, [(0x80, 32)], 28, 1, .rwd, 1, 0, 1, false⟩
def TRG_UACT_M0EN : Fld := ⟨0x2410034, [(0x80, 32)], 27, 1, .rwd, 0, 0, 1, false⟩
def TRG_UACT_M1EN : Fld := ⟨0x2410034, [(0x80, 32)], 26, 1, .rwd, 0, 0, 1, false⟩
def TRG_UACT_CAPSEL : Fld := ⟨0x2410034, [(0x80, 32)], 16, 5, .rwd, 0, 0, 31, false⟩
def TRG_UMARK_STREAM1 : Fld := ⟨0x2410038, [(0x80, 32)], 16, 12, .rwd, 0, 0, 4095, false⟩
def TRG_UMARK_STREAM0 : Fld := ⟨0x2410038, [(0x80, 32)], 0, 12, .rwd, 0, 0, 4095, false⟩
def TRG_UDL_DL : Fld := ⟨0x241003C, [(0x80, 32)], 0, 16, .rwd, 0, 0, 65535, false⟩
def TRG_USTAT_STATE : Fld := ⟨0x2410040, [(0x80, 32)], 29, 3, .ro, 0, 0, 7, false⟩
def TRG_USTAT_ARMPEND : Fld := ⟨0x2410040, [(0x80, 32)], 28, 1, .ro, 0, 0, 1, false⟩
def TRG_USTAT_FPEND : Fld := ⟨0x2410040, [(0x80, 32)], 27, 1, .ro, 0, 0, 1, false⟩
def TRG_USTAT_LATEARM : Fld := ⟨0x2410040, [(0x80, 32)], 7, 1, .w1c, 0, 0, 1, false⟩
def TRG_USTAT_RACE : Fld := ⟨0x2410040, [(0x80, 32)], 6, 1, .w1c, 0, 0, 1, false⟩
def TRG_USTAT_LATEOUT : Fld := ⟨0x2410040, [(0x80, 32)], 5, 1, .w1c, 0, 0, 1, false⟩
def TRG_USTAT_LOST : Fld := ⟨0x2410040, [(0x80, 32)], 4, 1, .w1c, 0, 0, 1, false⟩
def TRG_USTAT_SWAP : Fld := ⟨0x2410040, [(0x80, 32)], 3, 1, .w1c, 0, 0, 1, false⟩
def TRG_USTAT_FIRED : Fld := ⟨0x2410040, [(0x80, 32)], 2, 1, .w1c, 0, 0, 1, false⟩
def TRG_UFIRE_COUNT : Fld := ⟨0x2410044, [(0x80, 32)], 0, 32, .ro, 0, 0, 4294967295, false⟩
def TRG_USUPP_COUNT : Fld := ⟨0x2410048, [(0x80, 32)], 0, 32, .ro, 0, 0, 4294967295, false⟩
def TRG_ULOST_COUNT : Fld := ⟨0x241004C, [(0x80, 32)], 0, 32, .ro, 0, 0, 4294967295, false⟩
def TRG_URECT0_K0 : Fld := ⟨0x241000C, [(0x80, 32)], 16, 11, .rwd, 0, 0, 2047, false⟩
def TRG_URECT0_KCNT : Fld := ⟨0x241000C, [(0x80, 32)], 0, 12, .rwd, 1, 1, 2048, false⟩
def TRG_URECT1_J0 : Fld := ⟨0x2410010, [(0x80, 32)], 16, 14, .rwd, 0, 0, 16383, false⟩
def TRG_URECT1_JCNT : Fld := ⟨0x2410010, [(0x80, 32)], 0, 15, .rwd, 1, 1, 16384, false⟩
def TRG_USEL_SEL : Fld := ⟨0x2410014, [(0x80, 32), (0x4, 4)], 0, 32, .rwd, 0, 0, 4294967295, false⟩
/-! ### 10_recorder_and_capture.md R323 -/
def REC_CTRL_EN : Fld := ⟨0x2800020, [], 31, 1, .rwd, 0, 0, 1, false⟩
def REC_CTRL_WATCHEN : Fld := ⟨0x2800020, [], 30, 1, .rwd, 0, 0, 1, false⟩
def REC_CTRL_SIZE : Fld := ⟨0x2800020, [], 0, 8, .rwd, 240, 1, 240, false⟩
def REC_STAT_SWPEND : Fld := ⟨0x2800024, [], 31, 1, .ro, 0, 0, 1, false⟩
def REC_STAT_STATE : Fld := ⟨0x2800024, [], 28, 3, .ro, 0, 0, 7, false⟩
def REC_STAT_DEGR : Fld := ⟨0x2800024, [], 27, 1, .ro, 0, 0, 1, false⟩
def REC_STAT_CAPUSE : Fld := ⟨0x2800024, [], 0, 9, .ro, 0, 0, 511, false⟩
def REC_DEPTH_DEPTH : Fld := ⟨0x2800028, [], 0, 32, .ro, 0, 0, 4294967295, false⟩
def REC_PIN_PINMAX : Fld := ⟨0x280002C, [], 24, 8, .rwd, 50, 1, 75, false⟩
def REC_PIN_PINNED : Fld := ⟨0x280002C, [], 0, 22, .ro, 0, 0, 4194303, false⟩
def REC_RDRES_RDRES : Fld := ⟨0x2800030, [], 0, 11, .rwd, 100, 50, 1300, false⟩
def REC_RRCFG0_HI : Fld := ⟨0x2800050, [], 24, 8, .rwd, 192, 2, 255, false⟩
def REC_RRCFG0_LO : Fld := ⟨0x2800050, [], 16, 8, .rwd, 48, 0, 126, false⟩
def REC_RRCFG0_PERIOD : Fld := ⟨0x2800050, [], 0, 16, .rwd, 100, 1, 65535, false⟩
def REC_RRCFG1_UPCNT : Fld := ⟨0x2800054, [], 24, 8, .rwd, 8, 1, 255, false⟩
def REC_RRCFG1_MINGAP : Fld := ⟨0x2800054, [], 16, 8, .rwd, 4, 1, 255, false⟩
def REC_RRCFG1_BACKWIN : Fld := ⟨0x2800054, [], 0, 16, .rwd, 1000, 1, 65535, false⟩
def CAP_CMD_OP : Fld := ⟨0x2800060, [], 29, 3, .wo, 0, 0, 7, false⟩
def CAP_CMD_SLOT : Fld := ⟨0x2800060, [], 24, 5, .wo, 0, 0, 31, false⟩
def REC_INEN_SEL : Fld := ⟨0x2800040, [(0x4, 4)], 0, 32, .rwd, 4294967295, 0, 4294967295, false⟩
def CAP_CMDNUM_NUM : Fld := ⟨0x2800064, [], 0, 32, .wo, 0, 0, 4294967295, false⟩
def CAP_TAG_L_TAG : Fld := ⟨0x2800068, [], 0, 32, .wo, 0, 0, 4294967295, false⟩
def CAP_TAG_M_TAG : Fld := ⟨0x280006C, [], 0, 32, .wo, 0, 0, 4294967295, false⟩
def CAP_TAG_H_TAG : Fld := ⟨0x2800070, [], 0, 32, .wo, 0, 0, 4294967295, false⟩
def CAP_STAT_COUNT : Fld := ⟨0x2800074, [], 0, 32, .ro, 0, 0, 4294967295, false⟩
def CAP_SPOIL_COUNT : Fld := ⟨0x2800078, [], 0, 32, .ro, 0, 0, 4294967295, false⟩
def CAP_ABANDON_COUNT : Fld := ⟨0x280007C, [], 0, 32, .ro, 0, 0, 4294967295, false⟩
def REC_OLDEST_L_VAL : Fld := ⟨0x2801000, [(0x8, 128)], 0, 32, .rl, 0, 0, 4294967295, false⟩
def REC_OLDEST_H_VAL : Fld := ⟨0x2801004, [(0x8, 128)], 0, 32, .rh, 0, 0, 4294967295, false⟩
def REC_OLDGAP_L_VAL : Fld := ⟨0x2801400, [(0x8, 128)], 0, 32, .rl, 0, 0, 4294967295, false⟩
def REC_OLDGAP_H_VAL : Fld := ⟨0x2801404, [(0x8, 128)], 0, 32, .rh, 0, 0, 4294967295, false⟩
def REC_LOSS_L_VAL : Fld := ⟨0x2801800, [(0x8, 128)], 0, 32, .rl, 0, 0, 4294967295, false⟩
def REC_LOSS_H_VAL : Fld := ⟨0x2801804, [(0x8, 128)], 0, 32, .rh, 0, 0, 4294967295, false⟩
def CAP_DSTAT0_CAPNUM : Fld := ⟨0x2802000, [(0x8, 256)], 0, 32, .ro, 0, 0, 4294967295, false⟩
def CAP_DSTAT1_STATE : Fld := ⟨0x2802004, [(0x8, 256)], 29, 3, .ro, 0, 0, 7, false⟩
def CAP_DSTAT1_SLOT : Fld := ⟨0x2802004, [(0x8, 256)], 24, 5, .ro, 0, 0, 31, false⟩
def CAP_SCFG_EN : Fld := ⟨0x2810000, [(0x40, 32)], 31, 1, .rwd, 0, 0, 1, false⟩
def CAP_SCFG_READ : Fld := ⟨0x2810000, [(0x40, 32)], 30, 1, .rwd, 0, 0, 1, false⟩
def CAP_SCFG_AUTOREL : Fld := ⟨0x2810000, [(0x40, 32)], 29, 1, .rwd, 0, 0, 1, false⟩
def CAP_SCFG_STATS : Fld := ⟨0x2810000, [(0x40, 32)], 28, 1, .rwd, 0, 0, 1, false⟩
def CAP_SCFG_SMODE : Fld := ⟨0x2810000, [(0x40, 32)], 26, 2, .rwd, 0, 0, 2, false⟩
def CAP_SCFG_STREAM : Fld := ⟨0x2810000, [(0x40, 32)], 0, 12, .rwd, 0, 0, 4095, false⟩
def CAP_SPRE_T : Fld := ⟨0x2810004, [(0x40, 32)], 0, 32, .rwd, 0, 0, 4294967295, false⟩
def CAP_SPOST_T : Fld := ⟨0x2810008, [(0x40, 32)], 0, 32, .rwd, 0, 0, 4294967295, false⟩
def CAP_SDEST_DMAX : Fld := ⟨0x281001C, [(0x40, 32)], 16, 10, .rwd, 16, 1, 1023, false⟩
def CAP_SDEST_RDRATE : Fld := ⟨0x281001C, [(0x40, 32)], 0, 11, .rwd, 10, 1, 1300, false⟩
def CAP_SSTAT_COLS : Fld := ⟨0x2810020, [(0x40, 32)], 16, 11, .rwd, 512, 1, 1024, false⟩
def CAP_SSTAT_DK : Fld := ⟨0x2810020, [(0x40, 32)], 12, 4, .rwd, 4, 0, 15, false⟩
def CAP_SSTAT_HIT : Fld := ⟨0x2810020, [(0x40, 32)], 0, 8, .rwd, 1, 1, 255, false⟩
def CAP_SMASK_SEL : Fld := ⟨0x281000C, [(0x40, 32), (0x4, 4)], 0, 32, .rwd, 0, 0, 4294967295, false⟩
def REC_LCFG_EN : Fld := ⟨0x2820000, [(0x4, 4096)], 31, 1, .rwd, 1, 0, 1, false⟩
def REC_LCFG_SMAXL : Fld := ⟨0x2820000, [(0x4, 4096)], 0, 4, .rwd, 15, 0, 15, false⟩
def REC_LSTAT_STEP : Fld := ⟨0x2824000, [(0x4, 4096)], 28, 4, .ro, 0, 0, 15, false⟩
def REC_LSTAT_BACKOFF : Fld := ⟨0x2824000, [(0x4, 4096)], 25, 3, .ro, 0, 0, 7, false⟩
def REC_LSTAT_SHED : Fld := ⟨0x2824000, [(0x4, 4096)], 24, 1, .ro, 0, 0, 1, false⟩
def REC_LSTAT_DISC : Fld := ⟨0x2824000, [(0x4, 4096)], 0, 24, .ro, 0, 0, 16777215, false⟩
/-! ### 11_cross_spectral.md R362 -/
def XSP_CTRL_EN : Fld := ⟨0x2C00020, [], 31, 1, .rwd, 0, 0, 1, false⟩
def XSP_CTRL_CUT : Fld := ⟨0x2C00020, [], 30, 1, .rwd, 0, 0, 1, false⟩
def XSP_CTRL_CORREN : Fld := ⟨0x2C00020, [], 29, 1, .rwd, 1, 0, 1, false⟩
def XSP_CTRL_WTAB : Fld := ⟨0x2C00020, [], 28, 1, .rwd, 1, 0, 1, false⟩
def XSP_CTRL_CPREC : Fld := ⟨0x2C00020, [], 26, 2, .rwd, 1, 0, 2, false⟩
def XSP_CTRL_VFMT : Fld := ⟨0x2C00020, [], 24, 2, .rwd, 1, 0, 2, false⟩
def XSP_CTRL_VSH : Fld := ⟨0x2C00020, [], 18, 6, .rwd, 0, 0, 63, false⟩
def XSP_CTRL_Q4SH : Fld := ⟨0x2C00020, [], 16, 2, .rwd, 0, 0, 3, false⟩
def XSP_CTRL_SUBLOG : Fld := ⟨0x2C00020, [], 12, 4, .rwd, 8, 0, 15, false⟩
def XSP_BAND_BIN0 : Fld := ⟨0x2C00024, [], 16, 11, .rwd, 16, 0, 2047, false⟩
def XSP_BAND_BCNT : Fld := ⟨0x2C00024, [], 0, 12, .rwd, 480, 1, 2048, false⟩
def XSP_INT_NX : Fld := ⟨0x2C00028, [], 0, 30, .rwd, 62500, 1, 1073741823, false⟩
def XSP_SKEW_TOL : Fld := ⟨0x2C0002C, [], 0, 16, .rwd, 10, 1, 65535, false⟩
def XSP_BCTRL_BEAMEN : Fld := ⟨0x2C00030, [], 31, 1, .rwd, 0, 0, 1, false⟩
def XSP_BCTRL_BPREC : Fld := ⟨0x2C00030, [], 29, 2, .rwd, 1, 0, 3, false⟩
def XSP_BCTRL_OFMT : Fld := ⟨0x2C00030, [], 28, 1, .rwd, 0, 0, 1, false⟩
def XSP_BCTRL_BSHIFT : Fld := ⟨0x2C00030, [], 23, 5, .rwd, 7, 0, 31, false⟩
def XSP_BCTRL_WGLOG : Fld := ⟨0x2C00030, [], 20, 3, .rwd, 0, 0, 6, false⟩
def XSP_BCTRL_PFMT : Fld := ⟨0x2C00030, [], 18, 2, .rwd, 0, 0, 2, false⟩
def XSP_BCTRL_VSPEC : Fld := ⟨0x2C00030, [], 12, 6, .rwd, 15, 0, 63, false⟩
def XSP_BCTRL_VSTREAM : Fld := ⟨0x2C00030, [], 0, 12, .rwd, 0, 0, 4095, false⟩
def XSP_DEST_PSTREAM : Fld := ⟨0x2C00034, [], 16, 12, .rwd, 0, 0, 4095, false⟩
def XSP_DEST_XSTREAM : Fld := ⟨0x2C00034, [], 0, 12, .rwd, 0, 0, 4095, false⟩
def XSP_WPTR_PTR : Fld := ⟨0x2C00038, [], 0, 24, .rwd, 0, 0, 16777215, false⟩
def XSP_WDATA_WQ : Fld := ⟨0x2C0003C, [], 16, 16, .rwd, 0, 0, 65535, false⟩
def XSP_WDATA_WI : Fld := ⟨0x2C0003C, [], 0, 16, .rwd, 0, 0, 65535, false⟩
def XSP_STAT_SWPEND : Fld := ⟨0x2C00040, [], 31, 1, .ro, 0, 0, 1, false⟩
def XSP_STAT_STATE : Fld := ⟨0x2C00040, [], 28, 3, .ro, 0, 0, 7, false⟩
def XSP_STAT_THROTTLE : Fld := ⟨0x2C00040, [], 27, 1, .ro, 0, 0, 1, false⟩
def XSP_STAT_SKEW : Fld := ⟨0x2C00040, [], 26, 1, .ro, 0, 0, 1, false⟩
def XSP_STAT_LASTSAT : Fld := ⟨0x2C00040, [], 0, 7, .ro, 0, 0, 127, false⟩
def XSP_TILES_L_TILES : Fld := ⟨0x2C00048, [], 0, 32, .rwd, 0, 0, 4294967295, false⟩
def XSP_TILES_H_TILES : Fld := ⟨0x2C0004C, [], 0, 32, .rwd, 0, 0, 4294967295, false⟩
def XSP_INMASK_SEL : Fld := ⟨0x2C00050, [(0x4, 4)], 0, 32, .rwd, 0, 0, 4294967295, false⟩
def XSP_SAT_COUNT : Fld := ⟨0x2C00060, [], 0, 32, .ro, 0, 0, 4294967295, false⟩
def XSP_ABSENT_COUNT : Fld := ⟨0x2C00064, [], 0, 32, .ro, 0, 0, 4294967295, false⟩
def XSP_LATE_COUNT : Fld := ⟨0x2C00068, [], 0, 32, .ro, 0, 0, 4294967295, false⟩
def XSP_SHORT_COUNT : Fld := ⟨0x2C0006C, [], 0, 32, .ro, 0, 0, 4294967295, false⟩
def XSP_DUMPLOST_COUNT : Fld := ⟨0x2C00070, [], 0, 32, .ro, 0, 0, 4294967295, false⟩
def XSP_GRUN_FIRST : Fld := ⟨0x2C00080, [(0x4, 8)], 16, 11, .ro, 0, 0, 2047, false⟩
def XSP_GRUN_COUNT : Fld := ⟨0x2C00080, [(0x4, 8)], 0, 12, .ro, 0, 0, 4095, false⟩
def XSP_TLOAD_CLAIMED : Fld := ⟨0x2C00100, [(0x4, 64)], 31, 1, .ro, 0, 0, 1, false⟩
def XSP_TLOAD_SLOT : Fld := ⟨0x2C00100, [(0x4, 64)], 24, 6, .ro, 0, 0, 63, false⟩
def XSP_TLOAD_LOAD : Fld := ⟨0x2C00100, [(0x4, 64)], 0, 17, .ro, 0, 0, 131071, false⟩
def XSP_BCFG_EN : Fld := ⟨0x2C00200, [(0x4, 64)], 31, 1, .rwd, 0, 0, 1, false⟩
def XSP_BCFG_MODE : Fld := ⟨0x2C00200, [(0x4, 64)], 30, 1, .rwd, 0, 0, 1, false⟩
/-! ### 12_tile_programming_model.md R406 -/
def TILE_CTRL_CMD : Fld := ⟨0x3010000, [(0x100000, 8), (0x10000, 8)], 29, 3, .wo, 0, 0, 7, false⟩
def TILE_CTRL_RSTVEC : Fld := ⟨0x3010000, [(0x100000, 8), (0x10000, 8)], 0, 14, .rw, 0, 0, 16383, false⟩
def TILE_STAT_STATE : Fld := ⟨0x3010004, [(0x100000, 8), (0x10000, 8)], 29, 3, .ro, 1, 0, 7, false⟩
def TILE_STAT_LVL : Fld := ⟨0x3010004, [(0x100000, 8), (0x10000, 8)], 28, 1, .ro, 0, 0, 1, false⟩
def TILE_STAT_BANK : Fld := ⟨0x3010004, [(0x100000, 8), (0x10000, 8)], 27, 1, .ro, 0, 0, 1, false⟩
def TILE_STAT_CLAIMED : Fld := ⟨0x3010004, [(0x100000, 8), (0x10000, 8)], 26, 1, .ro, 0, 0, 1, false⟩
def TILE_STAT_PRGV : Fld := ⟨0x3010004, [(0x100000, 8), (0x10000, 8)], 25, 1, .ro, 0, 0, 1, false⟩
def TILE_STAT_CMDHELD : Fld := ⟨0x3010004, [(0x100000, 8), (0x10000, 8)], 24, 1, .ro, 0, 0, 1, false⟩
def TILE_STAT_REPOCH : Fld := ⟨0x3010004, [(0x100000, 8), (0x10000, 8)], 16, 8, .ro, 0, 0, 255, false⟩
def TILE_STAT_LOCKS : Fld := ⟨0x3010004, [(0x100000, 8), (0x10000, 8)], 8, 8, .ro, 0, 0, 255, false⟩
def TILE_PC_PC : Fld := ⟨0x3010008, [(0x100000, 8), (0x10000, 8)], 0, 15, .rc, 0, 0, 32767, false⟩
def TILE_FAULT_CODE : Fld := ⟨0x301000C, [(0x100000, 8), (0x10000, 8)], 28, 4, .ro, 0, 0, 15, false⟩
def TILE_FAULT_LVL : Fld := ⟨0x301000C, [(0x100000, 8), (0x10000, 8)], 27, 1, .ro, 0, 0, 1, false⟩
def TILE_FAULT_ADDR : Fld := ⟨0x301000C, [(0x100000, 8), (0x10000, 8)], 0, 14, .ro, 0, 0, 16383, false⟩
def TILE_FADDR_DADDR : Fld := ⟨0x3010010, [(0x100000, 8), (0x10000, 8)], 0, 32, .ro, 0, 0, 4294967295, false⟩
def TILE_XCTL_OP : Fld := ⟨0x3010014, [(0x100000, 8), (0x10000, 8)], 29, 3, .wo, 0, 0, 7, false⟩
def TILE_XCTL_ENTRY : Fld := ⟨0x3010014, [(0x100000, 8), (0x10000, 8)], 0, 14, .rw, 0, 0, 16383, false⟩
def TILE_XSTAT_XSTATE : Fld := ⟨0x3010018, [(0x100000, 8), (0x10000, 8)], 30, 2, .ro, 0, 0, 3, false⟩
def TILE_XSTAT_SIGOK : Fld := ⟨0x3010018, [(0x100000, 8), (0x10000, 8)], 29, 1, .ro, 0, 0, 1, false⟩
def TILE_XSTAT_SIGREQ : Fld := ⟨0x3010018, [(0x100000, 8), (0x10000, 8)], 28, 1, .ro, 0, 0, 1, false⟩
def TILE_XSTAT_TMO : Fld := ⟨0x3010018, [(0x100000, 8), (0x10000, 8)], 0, 16, .rw, 1000, 0, 65535, false⟩
def TILE_PPTR_LIVE : Fld := ⟨0x301001C, [(0x100000, 8), (0x10000, 8)], 31, 1, .rw, 0, 0, 1, false⟩
def TILE_PPTR_PTR : Fld := ⟨0x301001C, [(0x100000, 8), (0x10000, 8)], 0, 14, .rw, 0, 0, 16383, false⟩
def TILE_PDATA_SYL : Fld := ⟨0x3010020, [(0x100000, 8), (0x10000, 8)], 0, 32, .rw, 0, 0, 4294967295, false⟩
def TILE_MPTR_WADDR : Fld := ⟨0x3010024, [(0x100000, 8), (0x10000, 8)], 2, 19, .rw, 0, 0, 524287, false⟩
def TILE_MDATA_DATA : Fld := ⟨0x3010028, [(0x100000, 8), (0x10000, 8)], 0, 32, .rw, 0, 0, 4294967295, false⟩
def TILE_ARB_WT : Fld := ⟨0x301002C, [(0x100000, 8), (0x10000, 8)], 0, 4, .rw, 1, 1, 8, false⟩
def TILE_HBMWIN_WIN : Fld := ⟨0x3010030, [(0x100000, 8), (0x10000, 8)], 0, 9, .rw, 0, 0, 267, false⟩
def TILE_VEC_VEC : Fld := ⟨0x3010034, [(0x100000, 8), (0x10000, 8)], 0, 14, .rw, 0, 0, 16383, false⟩
def TILE_EVST_FAULT : Fld := ⟨0x3010038, [(0x100000, 8), (0x10000, 8)], 6, 1, .w1c, 0, 0, 1, false⟩
def TILE_EVST_HALTED : Fld := ⟨0x3010038, [(0x100000, 8), (0x10000, 8)], 5, 1, .w1c, 0, 0, 1, false⟩
def TILE_EVST_XDONE : Fld := ⟨0x3010038, [(0x100000, 8), (0x10000, 8)], 4, 1, .w1c, 0, 0, 1, false⟩
def TILE_EVST_XTMO : Fld := ⟨0x3010038, [(0x100000, 8), (0x10000, 8)], 3, 1, .w1c, 0, 0, 1, false⟩
def TILE_EVST_XFORCED : Fld := ⟨0x3010038, [(0x100000, 8), (0x10000, 8)], 2, 1, .w1c, 0, 0, 1, false⟩
def TILE_EVST_ABANDON : Fld := ⟨0x3010038, [(0x100000, 8), (0x10000, 8)], 1, 1, .w1c, 0, 0, 1, false⟩
def TILE_EVST_RINGOVF : Fld := ⟨0x3010038, [(0x100000, 8), (0x10000, 8)], 0, 1, .w1c, 0, 0, 1, false⟩
def TILE_SAT_COUNT : Fld := ⟨0x301003C, [(0x100000, 8), (0x10000, 8)], 0, 32, .ro, 0, 0, 4294967295, false⟩
def TILE_SPOIL_COUNT : Fld := ⟨0x3010040, [(0x100000, 8), (0x10000, 8)], 0, 32, .ro, 0, 0, 4294967295, false⟩
def TILE_TIP_LATCHED : Fld := ⟨0x3010044, [(0x100000, 8), (0x10000, 8)], 4, 28, .w1c, 0, 0, 268435455, false⟩
def TILE_TIP_LINES : Fld := ⟨0x3010044, [(0x100000, 8), (0x10000, 8)], 0, 4, .ro, 0, 0, 15, false⟩
def TILE_TIE_EN : Fld := ⟨0x3010048, [(0x100000, 8), (0x10000, 8)], 0, 32, .rw, 0, 0, 4294967295, false⟩
def TILE_TMR_CFG_MODE : Fld := ⟨0x3010080, [(0x100000, 8), (0x10000, 8), (0x10, 4)], 30, 2, .rw, 0, 0, 3, false⟩
def TILE_TMR_CFG_KEEP : Fld := ⟨0x3010080, [(0x100000, 8), (0x10000, 8), (0x10, 4)], 29, 1, .rw, 0, 0, 1, false⟩
def TILE_TMR_CFG_PRESC : Fld := ⟨0x3010080, [(0x100000, 8), (0x10000, 8), (0x10, 4)], 0, 16, .rw, 0, 0, 65535, false⟩
def TILE_TMR_LOAD_LOAD : Fld := ⟨0x3010084, [(0x100000, 8), (0x10000, 8), (0x10, 4)], 0, 32, .rw, 0, 0, 4294967295, false⟩
def TILE_TMR_LOADH_SEC : Fld := ⟨0x3010088, [(0x100000, 8), (0x10000, 8), (0x10, 4)], 0, 32, .rw, 0, 0, 4294967295, false⟩
def TILE_TMR_CNT_CNT : Fld := ⟨0x301008C, [(0x100000, 8), (0x10000, 8), (0x10, 4)], 0, 32, .rc, 0, 0, 4294967295, false⟩
def TILE_EDG_CFG_EN : Fld := ⟨0x30100C0, [(0x100000, 8), (0x10000, 8), (0x10, 8)], 31, 1, .rw, 0, 0, 1, false⟩
def TILE_EDG_CFG_EDGE : Fld := ⟨0x30100C0, [(0x100000, 8), (0x10000, 8), (0x10, 8)], 29, 2, .rw, 1, 1, 3, false⟩
def TILE_EDG_CFG_KEEP : Fld := ⟨0x30100C0, [(0x100000, 8), (0x10000, 8), (0x10, 8)], 28, 1, .rw, 0, 0, 1, false⟩
def TILE_EDG_CFG_COUNT : Fld := ⟨0x30100C0, [(0x100000, 8), (0x10000, 8), (0x10, 8)], 12, 16, .ro, 0, 0, 65535, false⟩
def TILE_EDG_CFG_CLASS : Fld := ⟨0x30100C0, [(0x100000, 8), (0x10000, 8), (0x10, 8)], 8, 2, .rw, 0, 0, 3, false⟩
def TILE_EDG_CFG_INDEX : Fld := ⟨0x30100C0, [(0x100000, 8), (0x10000, 8), (0x10, 8)], 0, 5, .rw, 0, 0, 31, false⟩
def TILE_EDG_TAG_L_TAG : Fld := ⟨0x30100C4, [(0x100000, 8), (0x10000, 8), (0x10, 8)], 0, 32, .rl, 0, 0, 4294967295, false⟩
def TILE_EDG_TAG_M_TAG : Fld := ⟨0x30100C8, [(0x100000, 8), (0x10000, 8), (0x10, 8)], 0, 32, .rh, 0, 0, 4294967295, false⟩
def TILE_EDG_TAG_H_TAG : Fld := ⟨0x30100CC, [(0x100000, 8), (0x10000, 8), (0x10, 8)], 0, 32, .rh, 0, 0, 4294967295, false⟩
def TILE_RING0_VALID : Fld := ⟨0x3010140, [(0x100000, 8), (0x10000, 8), (0x8, 16)], 31, 1, .ro, 0, 0, 1, false⟩
def TILE_RING0_TUNER : Fld := ⟨0x3010140, [(0x100000, 8), (0x10000, 8), (0x8, 16)], 16, 8, .ro, 0, 0, 255, false⟩
def TILE_RING0_WIDX : Fld := ⟨0x3010140, [(0x100000, 8), (0x10000, 8), (0x8, 16)], 0, 16, .ro, 0, 0, 65535, false⟩
def TILE_RING1_WMARK : Fld := ⟨0x3010144, [(0x100000, 8), (0x10000, 8), (0x8, 16)], 24, 8, .rw, 1, 1, 255, false⟩
def TILE_RING1_OVF : Fld := ⟨0x3010144, [(0x100000, 8), (0x10000, 8), (0x8, 16)], 16, 8, .ro, 0, 0, 255, false⟩
def TILE_RING1_RIDX : Fld := ⟨0x3010144, [(0x100000, 8), (0x10000, 8), (0x8, 16)], 0, 16, .rw, 0, 0, 65535, false⟩
def LOCK_CMD_OP : Fld := ⟨0x30A0000, [], 30, 2, .wo, 0, 0, 3, false⟩
def LOCK_CMD_LOCK : Fld := ⟨0x30A0000, [], 0, 8, .wo, 0, 0, 255, false⟩
def LOCK_STAT_STATE : Fld := ⟨0x30A0100, [(0x4, 256)], 30, 2, .ro, 0, 0, 3, false⟩
def LOCK_STAT_OWNER : Fld := ⟨0x30A0100, [(0x4, 256)], 16, 7, .ro, 127, 0, 127, false⟩
def LOCK_STAT_EPOCH : Fld := ⟨0x30A0100, [(0x4, 256)], 8, 8, .ro, 0, 0, 255, false⟩
def LOCK_STAT_LAST : Fld := ⟨0x30A0100, [(0x4, 256)], 0, 3, .ro, 0, 0, 7, false⟩
/-! ### 14_gallery_dma.md R453 -/
def DMA_CTRL_WT : Fld := ⟨0x30C0000, [(0x100000, 8)], 0, 4, .rw, 4, 0, 15, false⟩
def DMA_STAT_ATTN : Fld := ⟨0x30C0004, [(0x100000, 8)], 0, 16, .ro, 0, 0, 65535, false⟩
def DMA_EVBASE_COUNT : Fld := ⟨0x30C0008, [(0x100000, 8)], 16, 9, .ro, 2, 0, 511, false⟩
def DMA_EVBASE_FIRST : Fld := ⟨0x30C0008, [(0x100000, 8)], 0, 9, .ro, 0, 0, 511, false⟩
def DMA_GSPTR_WADDR : Fld := ⟨0x30C0010, [(0x100000, 8)], 2, 23, .rw, 0, 0, 8388607, false⟩
def DMA_GSDATA_DATA : Fld := ⟨0x30C0014, [(0x100000, 8)], 0, 32, .rw, 0, 0, 4294967295, false⟩
def DMA_GSDATA_L_LO : Fld := ⟨0x30C0018, [(0x100000, 8)], 0, 32, .wo, 0, 0, 4294967295, false⟩
def DMA_GSDATA_H_HI : Fld := ⟨0x30C001C, [(0x100000, 8)], 0, 32, .wo, 0, 0, 4294967295, false⟩
def DMA_CHCFG_OWNER : Fld := ⟨0x30C0100, [(0x100000, 8), (0x40, 16)], 16, 7, .rwd, 127, 0, 127, false⟩
def DMA_CHCFG_RSTABT : Fld := ⟨0x30C0100, [(0x100000, 8), (0x40, 16)], 15, 1, .rwd, 1, 0, 1, false⟩
def DMA_CHCFG_CHW : Fld := ⟨0x30C0100, [(0x100000, 8), (0x40, 16)], 8, 4, .rwd, 1, 1, 8, false⟩
def DMA_CHCFG_POLL : Fld := ⟨0x30C0100, [(0x100000, 8), (0x40, 16)], 0, 8, .rwd, 16, 0, 255, false⟩
def DMA_CHCMD_OP : Fld := ⟨0x30C0104, [(0x100000, 8), (0x40, 16)], 29, 3, .wo, 0, 0, 7, false⟩
def DMA_CHSTAT_STATE : Fld := ⟨0x30C0108, [(0x100000, 8), (0x40, 16)], 29, 3, .ro, 0, 0, 7, false⟩
def DMA_CHSTAT_CMDHELD : Fld := ⟨0x30C0108, [(0x100000, 8), (0x40, 16)], 28, 1, .ro, 0, 0, 1, false⟩
def DMA_CHSTAT_CQWAIT : Fld := ⟨0x30C0108, [(0x100000, 8), (0x40, 16)], 27, 1, .ro, 0, 0, 1, false⟩
def DMA_CHSTAT_ERRCODE : Fld := ⟨0x30C0108, [(0x100000, 8), (0x40, 16)], 24, 3, .ro, 0, 0, 7, false⟩
def DMA_CHSTAT_DONE : Fld := ⟨0x30C0108, [(0x100000, 8), (0x40, 16)], 4, 1, .w1c, 0, 0, 1, false⟩
def DMA_CHSTAT_ERR : Fld := ⟨0x30C0108, [(0x100000, 8), (0x40, 16)], 3, 1, .w1c, 0, 0, 1, false⟩
def DMA_CHSTAT_CQFULL : Fld := ⟨0x30C0108, [(0x100000, 8), (0x40, 16)], 2, 1, .w1c, 0, 0, 1, false⟩
def DMA_CHSTAT_STOPPED : Fld := ⟨0x30C0108, [(0x100000, 8), (0x40, 16)], 1, 1, .w1c, 0, 0, 1, false⟩
def DMA_CHSTAT_MEMERR : Fld := ⟨0x30C0108, [(0x100000, 8), (0x40, 16)], 0, 1, .w1c, 0, 0, 1, false⟩
def DMA_CHHEAD_L_ADDR : Fld := ⟨0x30C010C, [(0x100000, 8), (0x40, 16)], 0, 32, .rwd, 0, 0, 4294967295, false⟩
def DMA_CHHEAD_H_ADDR : Fld := ⟨0x30C0110, [(0x100000, 8), (0x40, 16)], 0, 16, .rwd, 0, 0, 65535, false⟩
def DMA_CHCUR_L_ADDR : Fld := ⟨0x30C0114, [(0x100000, 8), (0x40, 16)], 0, 32, .rl, 0, 0, 4294967295, false⟩
def DMA_CHCUR_H_ADDR : Fld := ⟨0x30C0118, [(0x100000, 8), (0x40, 16)], 0, 16, .rh, 0, 0, 65535, false⟩
def DMA_CHERR_L_ADDR : Fld := ⟨0x30C011C, [(0x100000, 8), (0x40, 16)], 0, 32, .rl, 0, 0, 4294967295, false⟩
def DMA_CHERR_H_ADDR : Fld := ⟨0x30C0120, [(0x100000, 8), (0x40, 16)], 0, 16, .rh, 0, 0, 65535, false⟩
def DMA_CHCQBASE_L_ADDR : Fld := ⟨0x30C0124, [(0x100000, 8), (0x40, 16)], 0, 32, .rwd, 0, 0, 4294967295, false⟩
def DMA_CHCQBASE_H_ADDR : Fld := ⟨0x30C0128, [(0x100000, 8), (0x40, 16)], 0, 16, .rwd, 0, 0, 65535, false⟩
def DMA_CHCQCFG_EN : Fld := ⟨0x30C012C, [(0x100000, 8), (0x40, 16)], 31, 1, .rwd, 0, 0, 1, false⟩
def DMA_CHCQCFG_CQLOG : Fld := ⟨0x30C012C, [(0x100000, 8), (0x40, 16)], 0, 4, .rwd, 6, 4, 12, false⟩
def DMA_CHCQ_RIDX : Fld := ⟨0x30C0130, [(0x100000, 8), (0x40, 16)], 16, 16, .rw, 0, 0, 65535, false⟩
def DMA_CHCQ_WIDX : Fld := ⟨0x30C0130, [(0x100000, 8), (0x40, 16)], 0, 16, .ro, 0, 0, 65535, false⟩
def DMA_CHDONE_COUNT : Fld := ⟨0x30C0134, [(0x100000, 8), (0x40, 16)], 0, 32, .ro, 0, 0, 4294967295, false⟩
def DMA_CHMEMERR_COUNT : Fld := ⟨0x30C0138, [(0x100000, 8), (0x40, 16)], 0, 32, .ro, 0, 0, 4294967295, false⟩
/-! ### 15_memory_system.md R481 -/
def MEM_MAP_NSP : Fld := ⟨0x3800020, [], 8, 5, .rw, 4, 0, 16, false⟩
def MEM_MAP_GLOG : Fld := ⟨0x3800020, [], 0, 3, .rw, 2, 0, 4, false⟩
def MEM_PAGE_IDLE : Fld := ⟨0x3800024, [], 24, 8, .rw, 32, 0, 255, false⟩
def MEM_PAGE_HITCAP : Fld := ⟨0x3800024, [], 16, 8, .rw, 16, 1, 255, false⟩
def MEM_PAGE_WHI : Fld := ⟨0x3800024, [], 8, 8, .rw, 48, 16, 64, false⟩
def MEM_PAGE_WLO : Fld := ⟨0x3800024, [], 0, 8, .rw, 16, 0, 56, false⟩
def MEM_ECC_SCRUB : Fld := ⟨0x3800028, [], 24, 8, .rw, 24, 1, 255, false⟩
def MEM_ECC_CETHR : Fld := ⟨0x3800028, [], 8, 16, .rw, 64, 1, 65535, false⟩
def MEM_ECC_PREMIG : Fld := ⟨0x3800028, [], 7, 1, .rw, 1, 0, 1, false⟩
def MEM_MIG_MIGRES : Fld := ⟨0x380002C, [], 0, 13, .rw, 500, 100, 4000, false⟩
def MEM_PWR_LTOL : Fld := ⟨0x3800030, [], 16, 16, .rw, 0, 0, 65535, false⟩
def MEM_PWR_PDIDLE : Fld := ⟨0x3800030, [], 8, 8, .rw, 64, 1, 255, false⟩
def MEM_PWR_SRIDLE : Fld := ⟨0x3800030, [], 0, 8, .rw, 100, 1, 255, false⟩
def MEM_CMD_OP : Fld := ⟨0x3800034, [], 29, 3, .wo, 0, 0, 7, false⟩
def MEM_CMD_RANK : Fld := ⟨0x3800034, [], 0, 10, .wo, 0, 0, 1023, false⟩
def MEM_STAT_MIG : Fld := ⟨0x3800038, [], 30, 2, .ro, 0, 0, 3, false⟩
def MEM_STAT_SPARES : Fld := ⟨0x3800038, [], 25, 5, .ro, 0, 0, 31, false⟩
def MEM_STAT_FOLDS : Fld := ⟨0x3800038, [], 22, 3, .ro, 0, 0, 7, false⟩
def MEM_STAT_GLOG : Fld := ⟨0x3800038, [], 19, 3, .ro, 0, 0, 7, false⟩
def MEM_STAT_NSP : Fld := ⟨0x3800038, [], 14, 5, .ro, 0, 0, 31, false⟩
def MEM_STAT_LOST : Fld := ⟨0x3800038, [], 13, 1, .ro, 0, 0, 1, false⟩
def MEM_STAT_MRANK : Fld := ⟨0x3800038, [], 0, 10, .ro, 0, 0, 1023, false⟩
def MEM_MIGPOS_W : Fld := ⟨0x380003C, [], 0, 21, .ro, 0, 0, 2097151, false⟩
def MEM_SIZE_L_VAL : Fld := ⟨0x3800040, [], 0, 32, .rl, 0, 0, 4294967295, false⟩
def MEM_SIZE_H_VAL : Fld := ⟨0x3800044, [], 0, 32, .rh, 0, 0, 4294967295, false⟩
def MEM_UELOG_L_VAL : Fld := ⟨0x3800048, [], 0, 32, .rl, 0, 0, 4294967295, false⟩
def MEM_UELOG_H_VAL : Fld := ⟨0x380004C, [], 0, 32, .rh, 0, 0, 4294967295, false⟩
def MEM_UESRC_VALID : Fld := ⟨0x3800050, [], 31, 1, .w1c, 0, 0, 1, false⟩
def MEM_UESRC_SRC : Fld := ⟨0x3800050, [], 0, 8, .ro, 0, 0, 255, false⟩
def MEM_REFFORCE_COUNT : Fld := ⟨0x3800054, [], 0, 32, .ro, 0, 0, 4294967295, false⟩
def MEM_SRAMCE_COUNT : Fld := ⟨0x3800058, [], 0, 32, .ro, 0, 0, 4294967295, false⟩
def MEM_SRAMUE_COUNT : Fld := ⟨0x380005C, [], 0, 32, .ro, 0, 0, 4294967295, false⟩
def MEM_LOSTW_COUNT : Fld := ⟨0x3800060, [], 0, 32, .ro, 0, 0, 4294967295, false⟩
def MEM_REGION_BASE_GB64K : Fld := ⟨0x3800080, [(0x8, 5)], 0, 32, .ro, 0, 0, 4294967295, false⟩
def MEM_REGION_SIZE_GB64K : Fld := ⟨0x3800084, [(0x8, 5)], 0, 32, .ro, 0, 0, 4294967295, false⟩
def MEM_CE_COUNT : Fld := ⟨0x3800100, [(0x4, 8)], 0, 32, .ro, 0, 0, 4294967295, false⟩
def MEM_UE_COUNT : Fld := ⟨0x3800120, [(0x4, 8)], 0, 32, .ro, 0, 0, 4294967295, false⟩
def MEM_RANK_STATE : Fld := ⟨0x3801000, [(0x4, 768)], 29, 3, .ro, 0, 0, 7, false⟩
def MEM_RANK_LOGICAL : Fld := ⟨0x3801000, [(0x4, 768)], 16, 10, .ro, 0, 0, 1023, false⟩
def MEM_RANK_CE : Fld := ⟨0x3801000, [(0x4, 768)], 0, 16, .ro, 0, 0, 65535, false⟩
/-! ### 16_output_streams.md R520 -/
def STR_STAT_SWPEND : Fld := ⟨0x3A00020, [], 31, 1, .ro, 0, 0, 1, false⟩
def STR_STAT_FAILED : Fld := ⟨0x3A00020, [], 0, 12, .ro, 0, 0, 4095, false⟩
def STR_EPOCHNEXT_EPOCH : Fld := ⟨0x3A00024, [], 0, 32, .ro, 0, 0, 4294967295, false⟩
def STR_PCFG_EN : Fld := ⟨0x3A00100, [(0x40, 8)], 31, 1, .rwd, 0, 0, 1, false⟩
def STR_PCFG_AUI8 : Fld := ⟨0x3A00100, [(0x40, 8)], 30, 1, .rwd, 0, 0, 1, false⟩
def STR_PCFG_PAUSE : Fld := ⟨0x3A00100, [(0x40, 8)], 29, 1, .rwd, 0, 0, 1, false⟩
def STR_PCFG_PACK : Fld := ⟨0x3A00100, [(0x40, 8)], 26, 3, .rwd, 1, 0, 4, false⟩
def STR_PCFG_MTU : Fld := ⟨0x3A00100, [(0x40, 8)], 0, 14, .rwd, 1500, 1280, 9216, false⟩
def STR_PMAC_L_MAC : Fld := ⟨0x3A00104, [(0x40, 8)], 0, 32, .rwd, 0, 0, 4294967295, false⟩
def STR_PMAC_H_MAC : Fld := ⟨0x3A00108, [(0x40, 8)], 0, 16, .rwd, 0, 0, 65535, false⟩
def STR_PIP4_IP4 : Fld := ⟨0x3A0010C, [(0x40, 8)], 0, 32, .rwd, 0, 0, 4294967295, false⟩
def STR_PSTAT_LINK : Fld := ⟨0x3A00120, [(0x40, 8)], 31, 1, .ro, 0, 0, 1, false⟩
def STR_PSTAT_RXDROP : Fld := ⟨0x3A00120, [(0x40, 8)], 0, 16, .ro, 0, 0, 65535, false⟩
def STR_PIP6_IP6 : Fld := ⟨0x3A00110, [(0x40, 8), (0x4, 4)], 0, 32, .rwd, 0, 0, 4294967295, false⟩
def STR_NMAC_L_DMAC : Fld := ⟨0x3A10000, [(0x20, 512)], 0, 32, .rwd, 0, 0, 4294967295, false⟩
def STR_NMAC_H_PCP : Fld := ⟨0x3A10004, [(0x20, 512)], 26, 3, .rwd, 0, 0, 7, false⟩
def STR_NMAC_H_VLANEN : Fld := ⟨0x3A10004, [(0x20, 512)], 25, 1, .rwd, 0, 0, 1, false⟩
def STR_NMAC_H_V6 : Fld := ⟨0x3A10004, [(0x20, 512)], 24, 1, .rwd, 0, 0, 1, false⟩
def STR_NMAC_H_DSCP : Fld := ⟨0x3A10004, [(0x20, 512)], 16, 8, .rwd, 0, 0, 255, false⟩
def STR_NMAC_H_DMAC : Fld := ⟨0x3A10004, [(0x20, 512)], 0, 16, .rwd, 0, 0, 65535, false⟩
def STR_NPORT_DPORT : Fld := ⟨0x3A10018, [(0x20, 512)], 16, 16, .rwd, 0, 0, 65535, false⟩
def STR_NPORT_SPORT : Fld := ⟨0x3A10018, [(0x20, 512)], 0, 16, .rwd, 0, 0, 65535, false⟩
def STR_NMISC_TTL : Fld := ⟨0x3A1001C, [(0x20, 512)], 16, 8, .rwd, 64, 1, 255, false⟩
def STR_NMISC_VID : Fld := ⟨0x3A1001C, [(0x20, 512)], 0, 12, .rwd, 0, 0, 4095, false⟩
def STR_NDIP_DIP : Fld := ⟨0x3A10008, [(0x20, 512), (0x4, 4)], 0, 32, .rwd, 0, 0, 4294967295, false⟩
def HRG_CFG_EN : Fld := ⟨0x3A01000, [(0x20, 256)], 31, 1, .rwd, 0, 0, 1, false⟩
def HRG_CFG_KIND : Fld := ⟨0x3A01000, [(0x20, 256)], 29, 2, .rwd, 0, 0, 2, false⟩
def HRG_CFG_RLOG : Fld := ⟨0x3A01000, [(0x20, 256)], 25, 4, .rwd, 8, 4, 15, false⟩
def HRG_CFG_PORT : Fld := ⟨0x3A01000, [(0x20, 256)], 22, 3, .rwd, 0, 0, 7, false⟩
def HRG_CFG_VEC : Fld := ⟨0x3A01000, [(0x20, 256)], 11, 11, .rwd, 0, 0, 2047, false⟩
def HRG_TAIL_TAIL : Fld := ⟨0x3A0100C, [(0x20, 256)], 0, 16, .rw, 0, 0, 65535, false⟩
def HRG_STAT_BADDESC : Fld := ⟨0x3A01010, [(0x20, 256)], 17, 1, .w1c, 0, 0, 1, false⟩
def HRG_STAT_STARVED : Fld := ⟨0x3A01010, [(0x20, 256)], 16, 1, .w1c, 0, 0, 1, false⟩
def HRG_STAT_HEAD : Fld := ⟨0x3A01010, [(0x20, 256)], 0, 16, .ro, 0, 0, 65535, false⟩
def HRG_MOD_MODCNT : Fld := ⟨0x3A01014, [(0x20, 256)], 16, 16, .rwd, 1, 1, 65535, false⟩
def HRG_MOD_MODUS : Fld := ⟨0x3A01014, [(0x20, 256)], 8, 8, .rwd, 0, 0, 255, false⟩
def HRG_MOD_FLUSH : Fld := ⟨0x3A01014, [(0x20, 256)], 0, 8, .rwd, 2, 1, 255, false⟩
def HRG_BASE_L_BASE : Fld := ⟨0x3A01004, [(0x20, 256)], 0, 32, .rwd, 0, 0, 4294967295, false⟩
def HRG_BASE_H_BASE : Fld := ⟨0x3A01008, [(0x20, 256)], 0, 32, .rwd, 0, 0, 4294967295, false⟩
def STR_SCFG_EN : Fld := ⟨0x3A40000, [(0x20, 4096)], 31, 1, .rwd, 0, 0, 1, false⟩
def STR_SCFG_DEST : Fld := ⟨0x3A40000, [(0x20, 4096)], 29, 2, .rwd, 0, 0, 2, false⟩
def STR_SCFG_VRT : Fld := ⟨0x3A40000, [(0x20, 4096)], 28, 1, .rwd, 0, 0, 1, false⟩
def STR_SCFG_GAPMODE : Fld := ⟨0x3A40000, [(0x20, 4096)], 26, 2, .rwd, 0, 0, 2, false⟩
def STR_SCFG_QLOG : Fld := ⟨0x3A40000, [(0x20, 4096)], 22, 4, .rwd, 4, 0, 12, false⟩
def STR_SCFG_WT : Fld := ⟨0x3A40000, [(0x20, 4096)], 18, 4, .rwd, 1, 1, 15, false⟩
def STR_SCFG_DSEL : Fld := ⟨0x3A40000, [(0x20, 4096)], 8, 8, .rwd, 0, 0, 255, false⟩
def STR_SCFG_DEAD : Fld := ⟨0x3A40000, [(0x20, 4096)], 0, 8, .rwd, 100, 1, 255, false⟩
def STR_SXCFG_SPP : Fld := ⟨0x3A40004, [(0x20, 4096)], 20, 12, .rwd, 240, 16, 4095, false⟩
def STR_SXCFG_CTXINT : Fld := ⟨0x3A40004, [(0x20, 4096)], 12, 8, .rwd, 100, 0, 255, false⟩
def STR_SXCFG_NETIDX : Fld := ⟨0x3A40004, [(0x20, 4096)], 0, 9, .rwd, 0, 0, 511, false⟩
def STR_SSID_SID : Fld := ⟨0x3A40008, [(0x20, 4096)], 0, 32, .rwd, 0, 0, 4294967295, false⟩
def STR_SSTAT_STATE : Fld := ⟨0x3A4000C, [(0x20, 4096)], 29, 3, .ro, 0, 0, 7, false⟩
def STR_SSTAT_FILL : Fld := ⟨0x3A4000C, [(0x20, 4096)], 0, 8, .ro, 0, 0, 255, false⟩
def STR_SSEQ_SEQ : Fld := ⟨0x3A40010, [(0x20, 4096)], 0, 32, .ro, 0, 0, 4294967295, false⟩
def STR_SEPOCH_EPOCH : Fld := ⟨0x3A40014, [(0x20, 4096)], 0, 32, .ro, 0, 0, 4294967295, false⟩
def STR_SDUR_DUR : Fld := ⟨0x3A40018, [(0x20, 4096)], 0, 32, .ro, 0, 0, 4294967295, false⟩
def STR_SLOST_LOST : Fld := ⟨0x3A4001C, [(0x20, 4096)], 0, 32, .ro, 0, 0, 4294967295, false⟩
def DSK_CFG_EN : Fld := ⟨0x3A03000, [], 31, 1, .rwd, 0, 0, 1, false⟩
def DSK_CFG_STOP : Fld := ⟨0x3A03000, [], 30, 1, .rwd, 0, 0, 1, false⟩
def DSK_CFG_CKPT : Fld := ⟨0x3A03000, [], 20, 10, .rwd, 10, 1, 1000, false⟩
def DSK_CFG_DFLUSH : Fld := ⟨0x3A03000, [], 0, 20, .rwd, 10, 10, 1000000, false⟩
def DSK_STAT_STATE : Fld := ⟨0x3A03004, [], 29, 3, .ro, 0, 0, 7, false⟩
def DSK_STAT_BUSY : Fld := ⟨0x3A03004, [], 28, 1, .ro, 0, 0, 1, false⟩
def DSK_STAT_CMDST : Fld := ⟨0x3A03004, [], 24, 4, .ro, 0, 0, 15, false⟩
def DSK_STAT_DRIVES : Fld := ⟨0x3A03004, [], 16, 8, .ro, 0, 0, 255, false⟩
def DSK_CMD_OP : Fld := ⟨0x3A03008, [], 29, 3, .wo, 0, 0, 7, false⟩
def DSK_EXT_E : Fld := ⟨0x3A03020, [], 0, 32, .ro, 0, 0, 4294967295, false⟩
def DSK_FREE_FREE : Fld := ⟨0x3A03024, [], 0, 32, .ro, 0, 0, 4294967295, false⟩
def DSK_ARG_ARG : Fld := ⟨0x3A0300C, [(0x4, 5)], 0, 32, .rw, 0, 0, 4294967295, false⟩
def DSK_DRV_STATE : Fld := ⟨0x3A03040, [(0x4, 16)], 29, 3, .ro, 0, 0, 7, false⟩
def DSK_DRV_INDEX : Fld := ⟨0x3A03040, [(0x4, 16)], 24, 5, .ro, 0, 0, 31, false⟩
def DSK_DRV_CAP : Fld := ⟨0x3A03040, [(0x4, 16)], 0, 24, .ro, 0, 0, 16777215, false⟩
/-! ### 17_display_engine.md R542 -/
def DSP_STAT_SWPEND : Fld := ⟨0x3C00020, [], 31, 1, .ro, 0, 0, 1, false⟩
def DSP_OCFG_EN : Fld := ⟨0x3C00100, [(0x100, 2)], 31, 1, .rwd, 0, 0, 1, false⟩
def DSP_OCFG_VRR : Fld := ⟨0x3C00100, [(0x100, 2)], 30, 1, .rwd, 0, 0, 1, false⟩
def DSP_OCFG_AUTOTR : Fld := ⟨0x3C00100, [(0x100, 2)], 29, 1, .rwd, 1, 0, 1, false⟩
def DSP_OCFG_HSP : Fld := ⟨0x3C00100, [(0x100, 2)], 28, 1, .rwd, 0, 0, 1, false⟩
def DSP_OCFG_VSP : Fld := ⟨0x3C00100, [(0x100, 2)], 27, 1, .rwd, 0, 0, 1, false⟩
def DSP_OCFG_MAXRATE : Fld := ⟨0x3C00100, [(0x100, 2)], 24, 3, .rwd, 5, 0, 5, false⟩
def DSP_OCFG_MAXLN : Fld := ⟨0x3C00100, [(0x100, 2)], 22, 2, .rwd, 2, 0, 2, false⟩
def DSP_OCFG_OVLEN : Fld := ⟨0x3C00100, [(0x100, 2)], 21, 1, .rwd, 0, 0, 1, false⟩
def DSP_OCFG_LEAD : Fld := ⟨0x3C00100, [(0x100, 2)], 16, 5, .rwd, 4, 2, 31, false⟩
def DSP_OCFG_OP : Fld := ⟨0x3C00100, [(0x100, 2)], 0, 2, .wo, 0, 0, 3, false⟩
def DSP_HTIM_HTOTAL : Fld := ⟨0x3C00104, [(0x100, 2)], 16, 13, .rwd, 3920, 0, 8191, false⟩
def DSP_HTIM_HACT : Fld := ⟨0x3C00104, [(0x100, 2)], 0, 13, .rwd, 3840, 0, 8191, false⟩
def DSP_HSYN_HFP : Fld := ⟨0x3C00108, [(0x100, 2)], 16, 13, .rwd, 8, 0, 8191, false⟩
def DSP_HSYN_HSW : Fld := ⟨0x3C00108, [(0x100, 2)], 0, 13, .rwd, 32, 0, 8191, false⟩
def DSP_VTIM_VTOTAL : Fld := ⟨0x3C0010C, [(0x100, 2)], 16, 13, .rwd, 2222, 0, 8191, false⟩
def DSP_VTIM_VACT : Fld := ⟨0x3C0010C, [(0x100, 2)], 0, 13, .rwd, 2160, 0, 8191, false⟩
def DSP_VSYN_VFP : Fld := ⟨0x3C00110, [(0x100, 2)], 16, 13, .rwd, 48, 0, 8191, false⟩
def DSP_VSYN_VSW : Fld := ⟨0x3C00110, [(0x100, 2)], 0, 13, .rwd, 8, 0, 8191, false⟩
def DSP_PCLK_KHZ : Fld := ⟨0x3C00114, [(0x100, 2)], 0, 21, .rwd, 522614, 25000, 1300000, false⟩
def DSP_VRRMAX_VTMAX : Fld := ⟨0x3C00118, [(0x100, 2)], 0, 13, .rwd, 2222, 0, 8191, false⟩
def DSP_BG_RGB : Fld := ⟨0x3C0011C, [(0x100, 2)], 0, 24, .rwd, 0, 0, 16777215, false⟩
def DSP_UCOL_RGB : Fld := ⟨0x3C00120, [(0x100, 2)], 0, 24, .rwd, 2105376, 0, 16777215, false⟩
def DSP_FLIP_FLIPPEND : Fld := ⟨0x3C00124, [(0x100, 2)], 31, 1, .ro, 0, 0, 1, false⟩
def DSP_FLIP_SEL : Fld := ⟨0x3C00124, [(0x100, 2)], 0, 1, .rw, 0, 0, 1, false⟩
def DSP_OSTAT_STATE : Fld := ⟨0x3C00138, [(0x100, 2)], 29, 3, .ro, 0, 0, 7, false⟩
def DSP_OSTAT_RATE : Fld := ⟨0x3C00138, [(0x100, 2)], 26, 3, .ro, 0, 0, 7, false⟩
def DSP_OSTAT_LANES : Fld := ⟨0x3C00138, [(0x100, 2)], 24, 2, .ro, 0, 0, 3, false⟩
def DSP_OSTAT_LASTV : Fld := ⟨0x3C00138, [(0x100, 2)], 0, 13, .ro, 0, 0, 8191, false⟩
def DSP_FRAMES_COUNT : Fld := ⟨0x3C0013C, [(0x100, 2)], 0, 32, .ro, 0, 0, 4294967295, false⟩
def DSP_AUXCMD_OP : Fld := ⟨0x3C0014C, [(0x100, 2)], 29, 3, .wo, 0, 0, 7, false⟩
def DSP_AUXCMD_ADDR : Fld := ⟨0x3C0014C, [(0x100, 2)], 4, 20, .rw, 0, 0, 1048575, false⟩
def DSP_AUXCMD_LEN : Fld := ⟨0x3C0014C, [(0x100, 2)], 0, 4, .rw, 0, 0, 15, false⟩
def DSP_AUXST_BUSY : Fld := ⟨0x3C00160, [(0x100, 2)], 31, 1, .ro, 0, 0, 1, false⟩
def DSP_AUXST_RESULT : Fld := ⟨0x3C00160, [(0x100, 2)], 28, 3, .ro, 0, 0, 7, false⟩
def DSP_OVB0_L_ADDR : Fld := ⟨0x3C00128, [(0x100, 2)], 0, 32, .rwd, 0, 0, 4294967295, false⟩
def DSP_OVB0_H_ADDR : Fld := ⟨0x3C0012C, [(0x100, 2)], 0, 8, .rwd, 0, 0, 255, false⟩
def DSP_OVB1_L_ADDR : Fld := ⟨0x3C00130, [(0x100, 2)], 0, 32, .rwd, 0, 0, 4294967295, false⟩
def DSP_OVB1_H_ADDR : Fld := ⟨0x3C00134, [(0x100, 2)], 0, 8, .rwd, 0, 0, 255, false⟩
def DSP_UNDER_COUNT : Fld := ⟨0x3C00140, [(0x100, 2)], 0, 32, .ro, 0, 0, 4294967295, false⟩
def DSP_POISON_COUNT : Fld := ⟨0x3C00144, [(0x100, 2)], 0, 32, .ro, 0, 0, 4294967295, false⟩
def DSP_SKIP_COUNT : Fld := ⟨0x3C00148, [(0x100, 2)], 0, 32, .ro, 0, 0, 4294967295, false⟩
def DSP_AUXD_DATA : Fld := ⟨0x3C00150, [(0x100, 2), (0x4, 4)], 0, 32, .rw, 0, 0, 4294967295, false⟩
def DSP_LCFG_EN : Fld := ⟨0x3C01000, [(0x200, 2), (0x20, 16)], 31, 1, .rwd, 0, 0, 1, false⟩
def DSP_LCFG_MAXP : Fld := ⟨0x3C01000, [(0x200, 2), (0x20, 16)], 30, 1, .rwd, 0, 0, 1, false⟩
def DSP_LCFG_LOGM : Fld := ⟨0x3C01000, [(0x200, 2), (0x20, 16)], 29, 1, .rwd, 0, 0, 1, false⟩
def DSP_LCFG_TOUCH : Fld := ⟨0x3C01000, [(0x200, 2), (0x20, 16)], 28, 1, .rwd, 0, 0, 1, false⟩
def DSP_LCFG_GSH : Fld := ⟨0x3C01000, [(0x200, 2), (0x20, 16)], 23, 5, .rwd, 0, 0, 31, false⟩
def DSP_LCFG_INPUT : Fld := ⟨0x3C01000, [(0x200, 2), (0x20, 16)], 0, 7, .rwd, 0, 0, 127, false⟩
def DSP_LPOS_Y0 : Fld := ⟨0x3C01004, [(0x200, 2), (0x20, 16)], 16, 13, .rwd, 0, 0, 8191, false⟩
def DSP_LPOS_X0 : Fld := ⟨0x3C01004, [(0x200, 2), (0x20, 16)], 0, 13, .rwd, 0, 0, 8191, false⟩
def DSP_LSIZE_H : Fld := ⟨0x3C01008, [(0x200, 2), (0x20, 16)], 16, 13, .rwd, 1, 1, 8191, false⟩
def DSP_LSIZE_W : Fld := ⟨0x3C01008, [(0x200, 2), (0x20, 16)], 0, 13, .rwd, 1, 1, 8191, false⟩
def DSP_LGAIN_GAIN : Fld := ⟨0x3C0100C, [(0x200, 2), (0x20, 16)], 0, 16, .rwd, 1, 0, 65535, false⟩
def DSP_LSTAT_CLASS : Fld := ⟨0x3C01010, [(0x200, 2), (0x20, 16)], 30, 2, .ro, 0, 0, 3, false⟩
def DSP_LSTAT_SHOWN : Fld := ⟨0x3C01010, [(0x200, 2), (0x20, 16)], 29, 1, .ro, 0, 0, 1, false⟩
def DSP_LSTAT_VIEW : Fld := ⟨0x3C01010, [(0x200, 2), (0x20, 16)], 16, 10, .ro, 1023, 0, 1023, false⟩
def DSP_PAL_WORD : Fld := ⟨0x3C10000, [(0x4000, 2), (0x400, 16), (0x4, 256)], 0, 32, .rwd, 0, 0, 4294967295, false⟩
def DSP_TCFG_EN : Fld := ⟨0x3C00400, [], 31, 1, .rwd, 0, 0, 1, false⟩
def DSP_TCFG_OUT : Fld := ⟨0x3C00400, [], 30, 1, .rwd, 0, 0, 1, false⟩
def DSP_TCFG_SPEED : Fld := ⟨0x3C00400, [], 28, 2, .rwd, 1, 0, 2, false⟩
def DSP_TCFG_GLYPH : Fld := ⟨0x3C00400, [], 27, 1, .rwd, 0, 0, 1, false⟩
def DSP_TCFG_TINTEN : Fld := ⟨0x3C00400, [], 26, 1, .rwd, 1, 0, 1, false⟩
def DSP_TCFG_POLL : Fld := ⟨0x3C00400, [], 8, 8, .rwd, 0, 0, 255, false⟩
def DSP_TCFG_ADDR7 : Fld := ⟨0x3C00400, [], 0, 7, .rwd, 0, 0, 127, false⟩
def DSP_TREP_REG : Fld := ⟨0x3C00404, [], 24, 8, .rwd, 0, 0, 255, false⟩
def DSP_TREP_LEN : Fld := ⟨0x3C00404, [], 0, 4, .rwd, 6, 0, 15, false⟩
def DSP_TFLD_XOFF : Fld := ⟨0x3C00408, [], 28, 4, .rwd, 1, 0, 15, false⟩
def DSP_TFLD_YOFF : Fld := ⟨0x3C00408, [], 24, 4, .rwd, 3, 0, 15, false⟩
def DSP_TFLD_COFF : Fld := ⟨0x3C00408, [], 20, 4, .rwd, 0, 0, 15, false⟩
def DSP_TFLD_CBIT : Fld := ⟨0x3C00408, [], 17, 3, .rwd, 0, 0, 7, false⟩
def DSP_TFLD_CPOL : Fld := ⟨0x3C00408, [], 16, 1, .rwd, 0, 0, 1, false⟩
def DSP_TFLD_BE : Fld := ⟨0x3C00408, [], 15, 1, .rwd, 0, 0, 1, false⟩
def DSP_TFLD_X16 : Fld := ⟨0x3C00408, [], 14, 1, .rwd, 0, 0, 1, false⟩
def DSP_MKCOL_RGB : Fld := ⟨0x3C0040C, [], 0, 24, .rwd, 16777215, 0, 16777215, false⟩
def DSP_TSTAT_CONTACT : Fld := ⟨0x3C00428, [], 31, 1, .ro, 0, 0, 1, false⟩
def DSP_TSTAT_NAK : Fld := ⟨0x3C00428, [], 8, 8, .ro, 0, 0, 255, false⟩
def DSP_TSTAT_BUSERR : Fld := ⟨0x3C00428, [], 0, 8, .ro, 0, 0, 255, false⟩
def DSP_MKR0_VALID : Fld := ⟨0x3C00440, [], 31, 1, .rl, 0, 0, 1, false⟩
def DSP_MKR0_HIT : Fld := ⟨0x3C00440, [], 30, 1, .rl, 0, 0, 1, false⟩
def DSP_MKR0_PHASE : Fld := ⟨0x3C00440, [], 28, 2, .rl, 0, 0, 3, false⟩
def DSP_MKR0_LAYER : Fld := ⟨0x3C00440, [], 24, 4, .rl, 0, 0, 15, false⟩
def DSP_MKR0_INDEX : Fld := ⟨0x3C00440, [], 16, 8, .rl, 0, 0, 255, false⟩
def DSP_MKR0_MSEQ : Fld := ⟨0x3C00440, [], 0, 16, .rl, 0, 0, 65535, false⟩
def DSP_TCAL_COEF : Fld := ⟨0x3C00410, [(0x4, 6)], 0, 32, .rwd, 0, 0, 4294967295, false⟩
def DSP_MKR1_Y : Fld := ⟨0x3C00444, [], 16, 16, .rh, 0, 0, 65535, false⟩
def DSP_MKR1_X : Fld := ⟨0x3C00444, [], 0, 16, .rh, 0, 0, 65535, false⟩
def DSP_MKR2_ROW : Fld := ⟨0x3C00448, [], 16, 16, .rh, 0, 0, 65535, false⟩
def DSP_MKR2_MCOL : Fld := ⟨0x3C00448, [], 0, 16, .rh, 0, 0, 65535, false⟩
def DSP_MKR3_CHI : Fld := ⟨0x3C0044C, [], 16, 16, .rh, 0, 0, 65535, false⟩
def DSP_MKR3_CLO : Fld := ⟨0x3C0044C, [], 0, 16, .rh, 0, 0, 65535, false⟩
def DSP_MKR4_LEVEL : Fld := ⟨0x3C00450, [], 0, 32, .rh, 0, 0, 4294967295, false⟩
def DSP_MKR5_FREQ : Fld := ⟨0x3C00454, [], 0, 32, .rh, 0, 0, 4294967295, false⟩
def DSP_MKR6_FREQ : Fld := ⟨0x3C00458, [], 0, 32, .rh, 0, 0, 4294967295, false⟩
/-! ### 18_stimulus_and_calibration.md R567 -/
def STM_STAT_SWPEND : Fld := ⟨0x3D00020, [], 31, 1, .ro, 0, 0, 1, false⟩
def STM_STAT_RUN : Fld := ⟨0x3D00020, [], 0, 16, .ro, 0, 0, 65535, false⟩
def STM_MARK_L_TAG : Fld := ⟨0x3D00024, [], 0, 32, .rl, 0, 0, 4294967295, false⟩
def STM_MARK_M_TAG : Fld := ⟨0x3D00028, [], 0, 32, .rh, 0, 0, 4294967295, false⟩
def STM_MARK_H_TAG : Fld := ⟨0x3D0002C, [], 0, 32, .rh, 0, 0, 4294967295, false⟩
def CAL_CMD_OP : Fld := ⟨0x3D00040, [], 28, 4, .wo, 0, 0, 15, false⟩
def CAL_CMD_APPLY : Fld := ⟨0x3D00040, [], 27, 1, .wo, 0, 0, 1, false⟩
def CAL_CMD_PARTIAL : Fld := ⟨0x3D00040, [], 26, 1, .wo, 0, 0, 1, false⟩
def CAL_STAT_STATE : Fld := ⟨0x3D00044, [], 29, 3, .ro, 0, 0, 7, false⟩
def CAL_STAT_RESULT : Fld := ⟨0x3D00044, [], 27, 2, .ro, 0, 0, 3, false⟩
def CAL_STAT_STORED : Fld := ⟨0x3D00044, [], 26, 1, .ro, 0, 0, 1, false⟩
def CAL_STAT_LASTOP : Fld := ⟨0x3D00044, [], 16, 4, .ro, 0, 0, 15, false⟩
def CAL_STAT_PASS : Fld := ⟨0x3D00044, [], 0, 8, .ro, 0, 0, 255, false⟩
def CAL_PAR0_STIM : Fld := ⟨0x3D00048, [], 24, 4, .rw, 0, 0, 15, false⟩
def CAL_PAR0_NAVGLOG : Fld := ⟨0x3D00048, [], 20, 4, .rw, 8, 0, 12, false⟩
def CAL_PAR0_SRCH : Fld := ⟨0x3D00048, [], 8, 12, .rw, 256, 0, 4095, false⟩
def CAL_PAR0_REF : Fld := ⟨0x3D00048, [], 0, 7, .rw, 0, 0, 127, false⟩
def CAL_PAR1_COHMIN : Fld := ⟨0x3D0004C, [], 24, 8, .rw, 230, 1, 255, false⟩
def CAL_PAR1_BADMAX : Fld := ⟨0x3D0004C, [], 16, 8, .rw, 4, 0, 255, false⟩
def CAL_PAR1_GMAX : Fld := ⟨0x3D0004C, [], 0, 16, .rw, 1280, 1, 32767, false⟩
def CAL_PAR2_TGT : Fld := ⟨0x3D00050, [], 16, 16, .rw, 60416, 0, 65535, false⟩
def CAL_PAR2_PHRMS : Fld := ⟨0x3D00050, [], 8, 8, .rw, 50, 1, 255, false⟩
def CAL_PAR2_SLOT : Fld := ⟨0x3D00050, [], 4, 2, .rw, 0, 0, 3, false⟩
def CAL_PAR3_EYEH : Fld := ⟨0x3D00054, [], 24, 8, .rw, 20, 1, 255, false⟩
def CAL_PAR3_EYEW : Fld := ⟨0x3D00054, [], 12, 12, .rw, 150, 1, 1000, false⟩
def CAL_PAR3_MAXDLY : Fld := ⟨0x3D00054, [], 0, 12, .rw, 1000, 1, 4095, false⟩
def CAL_SEL_SEL : Fld := ⟨0x3D00060, [(0x4, 4)], 0, 32, .rw, 0, 0, 4294967295, false⟩
def STM_CCFG_EN : Fld := ⟨0x3D00100, [(0x20, 16)], 31, 1, .rwd, 0, 0, 1, false⟩
def STM_CCFG_LANEEN : Fld := ⟨0x3D00100, [(0x20, 16)], 30, 1, .rwd, 0, 0, 1, false⟩
def STM_CCFG_MR : Fld := ⟨0x3D00100, [(0x20, 16)], 29, 1, .rwd, 0, 0, 1, false⟩
def STM_CCFG_SEQEN : Fld := ⟨0x3D00100, [(0x20, 16)], 28, 1, .rwd, 0, 0, 1, false⟩
def STM_CCFG_SEQ0 : Fld := ⟨0x3D00100, [(0x20, 16)], 16, 6, .rwd, 0, 0, 63, false⟩
def STM_CCFG_GSEG : Fld := ⟨0x3D00100, [(0x20, 16)], 0, 16, .rwd, 16384, 0, 65535, false⟩
def STM_RATE_RATE : Fld := ⟨0x3D00104, [(0x20, 16)], 0, 32, .rwd, 6400000, 100000, 6400000, false⟩
def STM_TXCFG_TXLEAD : Fld := ⟨0x3D00108, [(0x20, 16)], 16, 16, .rwd, 20, 2, 200, false⟩
def STM_TXCFG_SRCID : Fld := ⟨0x3D00108, [(0x20, 16)], 0, 16, .rwd, 0, 0, 65535, false⟩
def STM_CSTAT_STATE : Fld := ⟨0x3D0010C, [(0x20, 16)], 29, 3, .ro, 0, 0, 7, false⟩
def STM_CSTAT_STEP : Fld := ⟨0x3D0010C, [(0x20, 16)], 18, 6, .ro, 0, 0, 63, false⟩
def STM_CSTAT_UNDER : Fld := ⟨0x3D0010C, [(0x20, 16)], 1, 1, .w1c, 0, 0, 1, false⟩
def STM_CSTAT_SAT : Fld := ⟨0x3D0010C, [(0x20, 16)], 0, 1, .w1c, 0, 0, 1, false⟩
def STM_IDX_L_IDX : Fld := ⟨0x3D00110, [(0x20, 16)], 0, 32, .rl, 0, 0, 4294967295, false⟩
def STM_IDX_H_IDX : Fld := ⟨0x3D00114, [(0x20, 16)], 0, 16, .rh, 0, 0, 65535, false⟩
def STM_UNDER_COUNT : Fld := ⟨0x3D00118, [(0x20, 16)], 0, 32, .ro, 0, 0, 4294967295, false⟩
def STM_SAT_COUNT : Fld := ⟨0x3D0011C, [(0x20, 16)], 0, 32, .ro, 0, 0, 4294967295, false⟩
def STM_TCFG_EN : Fld := ⟨0x3D00400, [(0x10, 64)], 31, 1, .rwd, 0, 0, 1, false⟩
def STM_TCFG_CH : Fld := ⟨0x3D00400, [(0x10, 64)], 24, 4, .rwd, 0, 0, 15, false⟩
def STM_TCFG_AMP : Fld := ⟨0x3D00400, [(0x10, 64)], 0, 16, .rwd, 0, 0, 32767, false⟩
def STM_TFTW_L_FTW : Fld := ⟨0x3D00404, [(0x10, 64)], 0, 32, .rwd, 0, 0, 4294967295, false⟩
def STM_TFTW_H_FTW : Fld := ⟨0x3D00408, [(0x10, 64)], 0, 16, .rwd, 0, 0, 65535, false⟩
def STM_TPH_POFS : Fld := ⟨0x3D0040C, [(0x10, 64)], 16, 16, .rwd, 0, 0, 65535, false⟩
def STM_SBASE_L_BASE : Fld := ⟨0x3D01000, [(0x10, 256)], 0, 32, .rwd, 0, 0, 4294967295, false⟩
def STM_SBASE_H_BASE : Fld := ⟨0x3D01004, [(0x10, 256)], 0, 8, .rwd, 0, 0, 255, false⟩
def STM_SLEN_LEN : Fld := ⟨0x3D01008, [(0x10, 256)], 0, 24, .rwd, 16, 16, 16777215, false⟩
def STM_STEP_END : Fld := ⟨0x3D02000, [(0x100, 16), (0x4, 64)], 31, 1, .rwd, 0, 0, 1, false⟩
def STM_STEP_MARK : Fld := ⟨0x3D02000, [(0x100, 16), (0x4, 64)], 30, 1, .rwd, 0, 0, 1, false⟩
def STM_STEP_NEXT : Fld := ⟨0x3D02000, [(0x100, 16), (0x4, 64)], 24, 6, .rwd, 0, 0, 63, false⟩
def STM_STEP_SEG : Fld := ⟨0x3D02000, [(0x100, 16), (0x4, 64)], 16, 8, .rwd, 0, 0, 255, false⟩
def STM_STEP_REP : Fld := ⟨0x3D02000, [(0x100, 16), (0x4, 64)], 0, 16, .rwd, 1, 0, 65535, false⟩
def CAL_DIST_DIST : Fld := ⟨0x3D03000, [(0x4, 128)], 0, 32, .rw, 0, 0, 4294967295, false⟩
def CAL_RES0_STATUS : Fld := ⟨0x3D03200, [(0x8, 128)], 28, 4, .ro, 0, 0, 15, false⟩
def CAL_RES0_SEAM : Fld := ⟨0x3D03200, [(0x8, 128)], 27, 1, .ro, 0, 0, 1, false⟩
def CAL_RES0_BAD : Fld := ⟨0x3D03200, [(0x8, 128)], 16, 11, .ro, 0, 0, 2047, false⟩
def CAL_RES0_COH : Fld := ⟨0x3D03200, [(0x8, 128)], 0, 16, .ro, 0, 0, 65535, false⟩
def CAL_RES1_VALUE : Fld := ⟨0x3D03204, [(0x8, 128)], 0, 32, .ro, 0, 0, 4294967295, false⟩
/-! ### 19_admission_and_configuration.md R590 -/
def ADM_CMD_OP : Fld := ⟨0x3E00020, [], 29, 3, .wo, 0, 0, 7, false⟩
def ADM_CMD_ASAP : Fld := ⟨0x3E00020, [], 28, 1, .wo, 0, 0, 1, false⟩
def ADM_INST_L_TAG : Fld := ⟨0x3E00024, [], 0, 32, .rw, 0, 0, 4294967295, false⟩
def ADM_INST_M_TAG : Fld := ⟨0x3E00028, [], 0, 32, .rw, 0, 0, 4294967295, false⟩
def ADM_INST_H_TAG : Fld := ⟨0x3E0002C, [], 0, 32, .rw, 0, 0, 4294967295, false⟩
def ADM_STAT_STATE : Fld := ⟨0x3E00030, [], 29, 3, .ro, 0, 0, 7, false⟩
def ADM_STAT_HELD : Fld := ⟨0x3E00030, [], 28, 1, .ro, 0, 0, 1, false⟩
def ADM_STAT_DEGR : Fld := ⟨0x3E00030, [], 27, 1, .ro, 0, 0, 1, false⟩
def ADM_STAT_LAST : Fld := ⟨0x3E00030, [], 24, 3, .ro, 0, 0, 7, false⟩
def ADM_STAT_NFAIL : Fld := ⟨0x3E00030, [], 0, 16, .ro, 0, 0, 65535, false⟩
def ADM_RES_CODE : Fld := ⟨0x3E00034, [], 24, 8, .ro, 0, 0, 255, false⟩
def ADM_RES_BLOCK : Fld := ⟨0x3E00034, [], 16, 8, .ro, 0, 0, 255, false⟩
def ADM_RES_ITEM : Fld := ⟨0x3E00034, [], 0, 16, .ro, 0, 0, 65535, false⟩
def ADM_NEED_NEED : Fld := ⟨0x3E00038, [], 0, 32, .ro, 0, 0, 4294967295, false⟩
def ADM_HAVE_HAVE : Fld := ⟨0x3E0003C, [], 0, 32, .ro, 0, 0, 4294967295, false⟩
def ADM_GEN_GEN : Fld := ⟨0x3E00040, [], 0, 32, .ro, 0, 0, 4294967295, false⟩
def ADM_CGEN_CGEN : Fld := ⟨0x3E00044, [], 0, 32, .ro, 0, 0, 4294967295, false⟩
def ADM_CLK_FLIVE : Fld := ⟨0x3E00048, [], 24, 8, .ro, 64, 0, 255, false⟩
def ADM_CLK_FRUN : Fld := ⟨0x3E00048, [], 16, 8, .rc, 64, 0, 255, false⟩
def ADM_CLK_FSTAGE : Fld := ⟨0x3E00048, [], 0, 8, .rw, 64, 56, 64, false⟩
def ADM_RSV_THBM : Fld := ⟨0x3E0004C, [], 16, 16, .rw, 100, 0, 2000, false⟩
def ADM_RSV_DSKBW : Fld := ⟨0x3E0004C, [], 0, 7, .rw, 100, 1, 100, false⟩
def ADM_TIME_US : Fld := ⟨0x3E00058, [], 0, 32, .ro, 0, 0, 4294967295, false⟩
def ADM_DEGRCNT_COUNT : Fld := ⟨0x3E0005C, [], 0, 32, .ro, 0, 0, 4294967295, false⟩
def ADM_XTILES_L_TILES : Fld := ⟨0x3E00050, [], 0, 32, .rw, 0, 0, 4294967295, false⟩
def ADM_XTILES_H_TILES : Fld := ⟨0x3E00054, [], 0, 32, .rw, 0, 0, 4294967295, false⟩
def ADM_DEGR_L_US : Fld := ⟨0x3E00060, [], 0, 32, .rl, 0, 0, 4294967295, false⟩
def ADM_DEGR_H_US : Fld := ⟨0x3E00064, [], 0, 32, .rh, 0, 0, 4294967295, false⟩
def ADM_TSRAM_SIZE : Fld := ⟨0x3E00080, [(0x4, 8)], 0, 9, .rw, 64, 0, 384, false⟩
def ADM_DLOSS_COUNT : Fld := ⟨0x3E00100, [(0x4, 64)], 0, 32, .ro, 0, 0, 4294967295, false⟩
def ADM_REF_RES_RES : Fld := ⟨0x3E00200, [(0x10, 16)], 0, 32, .ro, 0, 0, 4294967295, false⟩
def ADM_REF_NEED_NEED : Fld := ⟨0x3E00204, [(0x10, 16)], 0, 32, .ro, 0, 0, 4294967295, false⟩
def ADM_REF_HAVE_HAVE : Fld := ⟨0x3E00208, [(0x10, 16)], 0, 32, .ro, 0, 0, 4294967295, false⟩
/-! ### 20_clocks_and_plls.md R611 -/
def CLK_CTRL_CMD : Fld := ⟨0x300020, [], 29, 3, .wo, 0, 0, 7, false⟩
def CLK_CTRL_AUTORELOCK : Fld := ⟨0x300020, [], 28, 1, .rw, 1, 0, 1, false⟩
def CLK_CTRL_HOLDEN : Fld := ⟨0x300020, [], 27, 1, .rw, 1, 0, 1, false⟩
def CLK_CTRL_HOLDMAX : Fld := ⟨0x300020, [], 16, 8, .rw, 60, 0, 255, false⟩
def CLK_REF_FREFA : Fld := ⟨0x300024, [], 25, 3, .rw, 0, 0, 4, false⟩
def CLK_REF_FREFB : Fld := ⟨0x300024, [], 22, 3, .rw, 0, 0, 4, false⟩
def CLK_REF_DH : Fld := ⟨0x300024, [], 20, 2, .rw, 0, 0, 2, false⟩
def CLK_REF_PDIVA : Fld := ⟨0x300024, [], 16, 4, .rw, 0, 0, 15, false⟩
def CLK_REF_PDIVB : Fld := ⟨0x300024, [], 12, 4, .rw, 0, 0, 15, false⟩
def CLK_STEP_DWELL : Fld := ⟨0x300028, [], 0, 16, .rw, 20, 10, 1000, false⟩
def CLK_STAT_STATE : Fld := ⟨0x30002C, [], 29, 3, .ro, 0, 0, 7, false⟩
def CLK_STAT_PFDMIS : Fld := ⟨0x30002C, [], 28, 1, .ro, 0, 0, 1, false⟩
def CLK_STAT_CFGERR : Fld := ⟨0x30002C, [], 27, 1, .ro, 0, 0, 1, false⟩
def CLK_STAT_BANDGAP : Fld := ⟨0x30002C, [], 26, 1, .ro, 0, 0, 1, false⟩
def CLK_STAT_KXTAL : Fld := ⟨0x30002C, [], 25, 1, .ro, 0, 0, 1, false⟩
def CLK_STAT_BAND : Fld := ⟨0x30002C, [], 20, 4, .ro, 0, 0, 15, false⟩
def CLK_STAT_FTHR : Fld := ⟨0x30002C, [], 8, 8, .ro, 64, 0, 255, false⟩
def CLK_STAT_FTARGET : Fld := ⟨0x30002C, [], 0, 8, .ro, 64, 0, 255, false⟩
def CLK_N_N : Fld := ⟨0x300030, [], 0, 11, .ro, 0, 0, 2047, false⟩
def CLK_CNT_LOSS : Fld := ⟨0x300034, [], 24, 8, .ro, 0, 0, 255, false⟩
def CLK_CNT_BYP : Fld := ⟨0x300034, [], 16, 8, .ro, 0, 0, 255, false⟩
def CLK_CNT_GLITCH : Fld := ⟨0x300034, [], 0, 16, .ro, 0, 0, 65535, false⟩
def CLK_SYSREF_EN : Fld := ⟨0x300038, [], 31, 1, .rw, 0, 0, 1, false⟩
def CLK_SYSREF_MODE : Fld := ⟨0x300038, [], 30, 1, .rw, 0, 0, 1, false⟩
def CLK_SYSREF_POL : Fld := ⟨0x300038, [], 29, 1, .rw, 0, 0, 1, false⟩
def CLK_SYSREF_FIRE : Fld := ⟨0x300038, [], 28, 1, .wo, 0, 0, 1, false⟩
def CLK_SYSREF_PCNT : Fld := ⟨0x300038, [], 16, 12, .rw, 1, 1, 4095, false⟩
def CLK_SYSREF_SDIV : Fld := ⟨0x300038, [], 0, 16, .rw, 8, 2, 65535, false⟩
def CLK_BAND_VALID : Fld := ⟨0x300100, [(0x4, 16)], 31, 1, .rw, 0, 0, 1, false⟩
def CLK_BAND_CAP : Fld := ⟨0x300100, [(0x4, 16)], 24, 7, .rw, 0, 0, 127, false⟩
def CLK_BAND_FHI : Fld := ⟨0x300100, [(0x4, 16)], 14, 10, .rw, 0, 0, 1023, false⟩
def CLK_BAND_FLO : Fld := ⟨0x300100, [(0x4, 16)], 4, 10, .rw, 0, 0, 1023, false⟩
def CLK_BAND_VT : Fld := ⟨0x300100, [(0x4, 16)], 0, 4, .rw, 0, 0, 15, false⟩
def CLK_OUT_EN : Fld := ⟨0x300200, [(0x4, 4)], 31, 1, .rw, 0, 0, 1, false⟩
def CLK_OUT_POL : Fld := ⟨0x300200, [(0x4, 4)], 30, 1, .rw, 0, 0, 1, false⟩
def CLK_OUT_DRIVE : Fld := ⟨0x300200, [(0x4, 4)], 28, 2, .rw, 0, 0, 3, false⟩
def CLK_OUT_ODIV : Fld := ⟨0x300200, [(0x4, 4)], 0, 8, .rw, 0, 0, 255, false⟩
def CLK_AUX0_STATE : Fld := ⟨0x300300, [(0x10, 2)], 29, 3, .ro, 0, 0, 7, false⟩
def CLK_AUX0_PD : Fld := ⟨0x300300, [(0x10, 2)], 10, 8, .ro, 0, 0, 255, false⟩
def CLK_AUX0_MA : Fld := ⟨0x300300, [(0x10, 2)], 0, 10, .ro, 0, 0, 1023, false⟩
def CLK_AUX1_N : Fld := ⟨0x300304, [(0x10, 2)], 0, 19, .ro, 0, 0, 524287, false⟩
def CLK_AUX2_KHZ : Fld := ⟨0x300308, [(0x10, 2)], 0, 32, .ro, 0, 0, 4294967295, false⟩
/-! ### 21_power_thermal_housekeeping.md R638 -/
def PWR_CMD_OP : Fld := ⟨0x340020, [], 29, 3, .wo, 0, 0, 7, false⟩
def PWR_STAT_MODE : Fld := ⟨0x340024, [], 29, 3, .ro, 2, 0, 7, false⟩
def PWR_STAT_TRANS : Fld := ⟨0x340024, [], 28, 1, .ro, 0, 0, 1, false⟩
def PWR_STAT_HELD : Fld := ⟨0x340024, [], 27, 1, .ro, 0, 0, 1, false⟩
def PWR_STAT_REFUSED : Fld := ⟨0x340024, [], 26, 1, .w1c, 0, 0, 1, false⟩
def PWR_STAT_CAUSE : Fld := ⟨0x340024, [], 23, 3, .ro, 0, 0, 7, false⟩
def PWR_STAT_WAKESRC : Fld := ⟨0x340024, [], 20, 3, .ro, 0, 0, 7, false⟩
def PWR_STAT_SUPGOOD : Fld := ⟨0x340024, [], 0, 8, .rc, 0, 0, 255, false⟩
def PWR_TAG_L_TAG : Fld := ⟨0x340028, [], 0, 32, .rl, 0, 0, 4294967295, false⟩
def PWR_TAG_M_TAG : Fld := ⟨0x34002C, [], 0, 32, .rh, 0, 0, 4294967295, false⟩
def PWR_TAG_H_TAG : Fld := ⟨0x340030, [], 0, 32, .rh, 0, 0, 4294967295, false⟩
def PWR_CFG_BOOTMODE : Fld := ⟨0x340034, [], 30, 2, .rw, 0, 0, 2, false⟩
def PWR_CFG_TILEGATE : Fld := ⟨0x340034, [], 29, 1, .rw, 0, 0, 1, false⟩
def PWR_GOV_LIMIT : Fld := ⟨0x340038, [], 24, 8, .rw, 40, 8, 255, false⟩
def PWR_GOV_WIN : Fld := ⟨0x340038, [], 16, 8, .rw, 10, 2, 100, false⟩
def PWR_GOV_CHK : Fld := ⟨0x340038, [], 15, 1, .rw, 0, 0, 1, false⟩
def PWR_GOVVMIN_VMIN : Fld := ⟨0x34003C, [], 0, 16, .rw, 29491, 0, 65535, false⟩
def PWR_GOVSTAT_DEFER : Fld := ⟨0x340040, [], 16, 16, .ro, 0, 0, 65535, false⟩
def PWR_GOVSTAT_QLEN : Fld := ⟨0x340040, [], 8, 8, .ro, 0, 0, 255, false⟩
def PWR_GOVSTAT_HOLDS : Fld := ⟨0x340040, [], 0, 8, .ro, 0, 0, 255, false⟩
def PWR_SCRATCH_DATA : Fld := ⟨0x340800, [(0x4, 16)], 0, 32, .rw, 0, 0, 4294967295, false⟩
def THM_CFG_T_THR : Fld := ⟨0x340100, [], 16, 16, .rw, 1440, 0, 65535, false⟩
def THM_CFG_T_CRIT : Fld := ⟨0x340100, [], 0, 16, .rw, 1520, 0, 65535, false⟩
def THM_HYS_HYS : Fld := ⟨0x340104, [], 16, 16, .rw, 48, 16, 320, false⟩
def THM_HYS_DWELL : Fld := ⟨0x340104, [], 0, 16, .rw, 100, 1, 10000, false⟩
def THM_HBM_LIMIT : Fld := ⟨0x340108, [], 0, 16, .rw, 1520, 0, 1520, false⟩
def THM_STAT_TJ : Fld := ⟨0x34010C, [], 16, 16, .rc, 0, 0, 65535, false⟩
def THM_STAT_FTHR : Fld := ⟨0x34010C, [], 8, 8, .ro, 64, 0, 255, false⟩
def THM_STAT_STATE : Fld := ⟨0x34010C, [], 5, 3, .ro, 0, 0, 7, false⟩
def THM_STAT_HOT : Fld := ⟨0x34010C, [], 0, 5, .rc, 0, 0, 31, false⟩
def THM_S_FAIL : Fld := ⟨0x340200, [(0x4, 28)], 31, 1, .ro, 0, 0, 1, false⟩
def THM_S_T : Fld := ⟨0x340200, [(0x4, 28)], 0, 16, .rc, 0, 0, 65535, false⟩
def HK_CTRL_EN0 : Fld := ⟨0x340400, [], 31, 1, .rw, 1, 0, 1, false⟩
def HK_CTRL_EN1 : Fld := ⟨0x340400, [], 30, 1, .rw, 1, 0, 1, false⟩
def HK_CTRL_SYNC : Fld := ⟨0x340400, [], 29, 1, .rw, 1, 0, 1, false⟩
def HK_CTRL_XTOL : Fld := ⟨0x340400, [], 0, 8, .rw, 8, 0, 255, false⟩
def HK_URG_CONV : Fld := ⟨0x340404, [], 30, 2, .wo, 0, 0, 3, false⟩
def HK_URG_CH : Fld := ⟨0x340404, [], 0, 5, .wo, 0, 0, 31, false⟩
def HK_URGRES_NUM : Fld := ⟨0x340408, [], 24, 8, .ro, 0, 0, 255, false⟩
def HK_URGRES_CONV : Fld := ⟨0x340408, [], 23, 1, .ro, 0, 0, 1, false⟩
def HK_URGRES_RES : Fld := ⟨0x340408, [], 0, 16, .ro, 0, 0, 65535, false⟩
def HK_SPOIL_URGDROP : Fld := ⟨0x340418, [], 16, 16, .ro, 0, 0, 65535, false⟩
def HK_URGTAG_L_TAG : Fld := ⟨0x34040C, [], 0, 32, .rl, 0, 0, 4294967295, false⟩
def HK_URGTAG_M_TAG : Fld := ⟨0x340410, [], 0, 32, .rh, 0, 0, 4294967295, false⟩
def HK_URGTAG_H_TAG : Fld := ⟨0x340414, [], 0, 32, .rh, 0, 0, 4294967295, false⟩
def HK_TRIM_OFS : Fld := ⟨0x340420, [(0x4, 2)], 16, 16, .rw, 0, 0, 65535, false⟩
def HK_TRIM_GAIN : Fld := ⟨0x340420, [(0x4, 2)], 0, 16, .rw, 0, 0, 65535, false⟩
def HK_SEQ_EN : Fld := ⟨0x340500, [(0x40, 2), (0x4, 16)], 31, 1, .rw, 0, 0, 1, false⟩
def HK_SEQ_SIM : Fld := ⟨0x340500, [(0x40, 2), (0x4, 16)], 30, 1, .rw, 0, 0, 1, false⟩
def HK_SEQ_AVGLOG : Fld := ⟨0x340500, [(0x40, 2), (0x4, 16)], 27, 3, .rw, 0, 0, 7, false⟩
def HK_SEQ_HI : Fld := ⟨0x340500, [(0x40, 2), (0x4, 16)], 12, 12, .rw, 4095, 0, 4095, false⟩
def HK_SEQ_LO : Fld := ⟨0x340500, [(0x40, 2), (0x4, 16)], 0, 12, .rw, 0, 0, 4095, false⟩
def HK_RES_VIOL : Fld := ⟨0x340600, [(0x40, 2), (0x4, 16)], 31, 1, .ro, 0, 0, 1, false⟩
def HK_RES_CROSS : Fld := ⟨0x340600, [(0x40, 2), (0x4, 16)], 30, 1, .ro, 0, 0, 1, false⟩
def HK_RES_RES : Fld := ⟨0x340600, [(0x40, 2), (0x4, 16)], 0, 16, .rc, 0, 0, 65535, false⟩
/-! ### 22_start_security_debug.md R660 -/
def SEC_STAT_LC : Fld := ⟨0x400020, [], 30, 2, .ro, 0, 0, 3, false⟩
def SEC_STAT_DBG : Fld := ⟨0x400020, [], 28, 2, .ro, 0, 0, 3, false⟩
def SEC_STAT_SAFE : Fld := ⟨0x400020, [], 27, 1, .ro, 0, 0, 1, false⟩
def SEC_STAT_DEGR : Fld := ⟨0x400020, [], 26, 1, .ro, 0, 0, 1, false⟩
def SEC_STAT_LCPEND : Fld := ⟨0x400020, [], 25, 1, .ro, 0, 0, 1, false⟩
def SEC_STAT_BUSY : Fld := ⟨0x400020, [], 24, 1, .ro, 0, 0, 1, false⟩
def SEC_STAT_CMDST : Fld := ⟨0x400020, [], 20, 4, .ro, 0, 0, 15, false⟩
def SEC_STAT_TVST : Fld := ⟨0x400020, [], 17, 3, .ro, 0, 0, 7, false⟩
def SEC_STAT_LOCKOUT : Fld := ⟨0x400020, [], 16, 1, .ro, 0, 0, 1, false⟩
def SEC_STAT_SVN : Fld := ⟨0x400020, [], 8, 8, .ro, 0, 0, 255, false⟩
def SEC_CMD_OP : Fld := ⟨0x400024, [], 29, 3, .wo, 0, 0, 7, false⟩
def SEC_ARG_ARG : Fld := ⟨0x400028, [], 0, 8, .rw, 0, 0, 255, false⟩
def SEC_CTRL_KEYLOCK : Fld := ⟨0x40002C, [], 31, 1, .rwl, 0, 0, 1, false⟩
def SEC_CTRL_MAXTRY : Fld := ⟨0x40002C, [], 0, 4, .rw, 3, 1, 15, false⟩
def SEC_WDT_TMO : Fld := ⟨0x400030, [], 0, 16, .rw, 1000, 0, 65535, false⟩
def SEC_RSTCAUSE_MODE : Fld := ⟨0x400034, [], 8, 8, .rc, 0, 0, 255, false⟩
def SEC_RSTCAUSE_CAUSE : Fld := ⟨0x400034, [], 0, 8, .rc, 0, 0, 255, false⟩
def SEC_TRGLOST_COUNT : Fld := ⟨0x400038, [], 0, 32, .rc, 0, 0, 4294967295, false⟩
def SEC_WITHDRAWN_GAL : Fld := ⟨0x40003C, [], 16, 16, .ro, 0, 0, 65535, false⟩
def SEC_WITHDRAWN_CANVAS : Fld := ⟨0x40003C, [], 14, 2, .ro, 0, 0, 3, false⟩
def SEC_TVCMD_OP : Fld := ⟨0x400040, [], 29, 3, .wo, 0, 0, 7, false⟩
def SEC_TVCMD_TILE : Fld := ⟨0x400040, [], 0, 6, .wo, 0, 0, 63, false⟩
def SEC_FLADDR_ADDR : Fld := ⟨0x400044, [], 0, 26, .rw, 0, 0, 67108863, false⟩
def SEC_FLCMD_OP : Fld := ⟨0x400048, [], 29, 3, .wo, 0, 0, 7, false⟩
def SEC_STEP_ATTEMPTS : Fld := ⟨0x400100, [(0x4, 13)], 24, 8, .rc, 0, 0, 255, false⟩
def SEC_STEP_LASTFAIL : Fld := ⟨0x400100, [(0x4, 13)], 16, 8, .rc, 0, 0, 255, false⟩
def SEC_STEP_POLICY : Fld := ⟨0x400100, [(0x4, 13)], 14, 2, .rw, 0, 0, 3, false⟩
def SEC_STEP_LASTPOL : Fld := ⟨0x400100, [(0x4, 13)], 12, 2, .rc, 0, 0, 3, false⟩
def SEC_STEP_CONSEC : Fld := ⟨0x400100, [(0x4, 13)], 0, 8, .rc, 0, 0, 255, false⟩
def SEC_FLBUF_DATA : Fld := ⟨0x401000, [(0x4, 64)], 0, 32, .rw, 0, 0, 4294967295, false⟩
def SEC_TSIG_DATA : Fld := ⟨0x401100, [(0x4, 26)], 0, 32, .wo, 0, 0, 4294967295, false⟩
def SEC_TOKEN_DATA : Fld := ⟨0x401200, [(0x4, 25)], 0, 32, .wo, 0, 0, 4294967295, false⟩
def SEC_KEYS_DATA : Fld := ⟨0x401300, [(0x4, 84)], 0, 32, .wo, 0, 0, 4294967295, false⟩
/-! ### 23_redundant_pair.md R685 -/
def DZ_CFG_EN : Fld := ⟨0x500020, [], 31, 1, .rw, 0, 0, 1, false⟩
def DZ_CFG_MEMBER : Fld := ⟨0x500020, [], 30, 1, .rw, 0, 0, 1, false⟩
def DZ_CFG_ROLE : Fld := ⟨0x500020, [], 28, 2, .rw, 0, 0, 2, false⟩
def DZ_CFG_PDISC : Fld := ⟨0x500020, [], 26, 2, .rw, 0, 0, 2, false⟩
def DZ_CFG_AUTOPROM : Fld := ⟨0x500020, [], 25, 1, .rw, 1, 0, 1, false⟩
def DZ_CFG_WEN : Fld := ⟨0x500020, [], 24, 1, .rw, 0, 0, 1, false⟩
def DZ_CFG_WIN : Fld := ⟨0x500020, [], 21, 3, .rw, 0, 0, 7, false⟩
def DZ_CFG_WOUT : Fld := ⟨0x500020, [], 18, 3, .rw, 0, 0, 7, false⟩
def DZ_CFG_DSKTAKE : Fld := ⟨0x500020, [], 17, 1, .rw, 0, 0, 1, false⟩
def DZ_CFG_WAKEX : Fld := ⟨0x500020, [], 16, 1, .rw, 1, 0, 1, false⟩
def DZ_CFG_MODEX : Fld := ⟨0x500020, [], 15, 1, .rw, 1, 0, 1, false⟩
def DZ_CFG_MR : Fld := ⟨0x500020, [], 14, 1, .rw, 0, 0, 1, false⟩
def DZ_CFG_SENTINT : Fld := ⟨0x500020, [], 0, 8, .rw, 10, 1, 255, false⟩
def DZ_CMD_OP : Fld := ⟨0x500024, [], 29, 3, .wo, 0, 0, 7, false⟩
def DZ_STAT_PSTATE : Fld := ⟨0x500028, [], 29, 3, .ro, 0, 0, 7, false⟩
def DZ_STAT_ROLE : Fld := ⟨0x500028, [], 27, 2, .ro, 0, 0, 3, false⟩
def DZ_STAT_PROLE : Fld := ⟨0x500028, [], 25, 2, .ro, 0, 0, 3, false⟩
def DZ_STAT_TLOCK : Fld := ⟨0x500028, [], 24, 1, .ro, 0, 0, 1, false⟩
def DZ_STAT_JOINERR : Fld := ⟨0x500028, [], 23, 1, .ro, 0, 0, 1, false⟩
def DZ_STAT_WITNESS : Fld := ⟨0x500028, [], 22, 1, .ro, 0, 0, 1, false⟩
def DZ_STAT_SPLIT : Fld := ⟨0x500028, [], 21, 1, .w1c, 0, 0, 1, false⟩
def DZ_STAT_DEGR : Fld := ⟨0x500028, [], 20, 1, .ro, 0, 0, 1, false⟩
def DZ_STAT_RXUP : Fld := ⟨0x500028, [], 8, 8, .ro, 0, 0, 255, false⟩
def DZ_STAT_TXUP : Fld := ⟨0x500028, [], 0, 8, .ro, 0, 0, 255, false⟩
def DZ_PCNT_PCNT : Fld := ⟨0x50002C, [], 0, 32, .ro, 0, 0, 4294967295, false⟩
def DZ_OFFSET_THETA : Fld := ⟨0x500030, [], 0, 32, .ro, 0, 0, 4294967295, false⟩
def DZ_DELAY_DELAY : Fld := ⟨0x500034, [], 0, 32, .ro, 0, 0, 4294967295, false⟩
def DZ_ASYM_ASYM : Fld := ⟨0x500038, [], 0, 32, .rw, 0, 0, 4294967295, false⟩
def DZ_LOOP_SINT : Fld := ⟨0x50003C, [], 24, 8, .rw, 8, 1, 255, false⟩
def DZ_LOOP_KP : Fld := ⟨0x50003C, [], 20, 4, .rw, 3, 0, 15, false⟩
def DZ_LOOP_KI : Fld := ⟨0x50003C, [], 16, 4, .rw, 8, 0, 15, false⟩
def DZ_LOOP_STEPLIM : Fld := ⟨0x50003C, [], 0, 16, .rw, 10, 1, 65535, false⟩
def DZ_HB_INT : Fld := ⟨0x500040, [], 8, 8, .rw, 1, 1, 255, false⟩
def DZ_HB_MISS : Fld := ⟨0x500040, [], 0, 8, .rw, 4, 2, 255, false⟩
def DZ_CRCERR_COUNT : Fld := ⟨0x500044, [], 0, 32, .ro, 0, 0, 4294967295, false⟩
def DZ_RETX_COUNT : Fld := ⟨0x500048, [], 0, 32, .ro, 0, 0, 4294967295, false⟩
def DZ_MISMATCH_COUNT : Fld := ⟨0x50004C, [], 0, 32, .ro, 0, 0, 4294967295, false⟩
def DZ_DGSKIP_COUNT : Fld := ⟨0x500050, [], 0, 32, .ro, 0, 0, 4294967295, false⟩
def DZ_ORDMISS_COUNT : Fld := ⟨0x500054, [], 0, 32, .ro, 0, 0, 4294967295, false⟩
def DZ_SHDROP_COUNT : Fld := ⟨0x500058, [], 0, 32, .ro, 0, 0, 4294967295, false⟩
def DZ_PSERIAL_SERIAL : Fld := ⟨0x500060, [(0x4, 4)], 0, 32, .ro, 0, 0, 4294967295, false⟩
def DZ_LSTAT_STATE : Fld := ⟨0x500100, [(0x4, 8)], 28, 4, .ro, 0, 0, 15, false⟩
def DZ_LSTAT_ADAPTCNT : Fld := ⟨0x500100, [(0x4, 8)], 8, 8, .ro, 0, 0, 255, false⟩
def DZ_LSTAT_LOSCNT : Fld := ⟨0x500100, [(0x4, 8)], 0, 8, .ro, 0, 0, 255, false⟩

/-! ### The fields of each block, for the lookup of an offset -/
def identFields : List Fld :=
  [MBX_CTRL_LEN, MBX_STATUS_BUSY, MBX_STATUS_DONE, MBX_STATUS_OVR, MBX_STATUS_RLEN, MSIX_ADDR_L_ADDR, MSIX_ADDR_H_ADDR, MSIX_DATA_DATA, MSIX_CTRL_MASK, MSIX_PBA_PEND, MBX_REQ_DATA, MBX_RESP_DATA]
/-- the fields of the block whose reset value is not 0. -/
def identResets : List Fld :=
  [MSIX_CTRL_MASK]
def eventsFields : List Fld :=
  [EVT_CFG_EN, EVT_CFG_TO_CC, EVT_CFG_TO_MSIX, EVT_CFG_TO_OAP, EVT_CFG_TO_TILE, EVT_CFG_TO_TRIG, EVT_CFG_TILE, EVT_CFG_LINE, EVT_CFG_TLINE, EVT_CFG_VEC, EVT_STAT_PEND, EVT_STAT_SAT, EVT_STAT_CNT, EVT_TAG_L_TAG, EVT_TAG_M_TAG, EVT_TAG_H_TAG, EVT_PEND_PEND]
/-- the fields of the block whose reset value is not 0. -/
def eventsResets : List Fld :=
  [EVT_CFG_TO_CC]
def timeBaseFields0 : List Fld :=
  [TB_CTRL_CANCEL, TB_CTRL_SETMODE, TB_CTRL_ALLOW_STEP, TB_CTRL_PPS_POL, TB_CTRL_DISC, TB_STATUS_STEPCNT, TB_STATUS_SETPEND, TB_STATUS_PPS, TB_STATUS_TQ, TB_NOW_L_TAG, TB_NOW_M_TAG, TB_NOW_H_TAG, TB_SET_L_SET, TB_SET_M_SET, TB_SET_H_SET, TB_PPS_TOL, TB_PPS_SPOIL, TB_PPS_DELAY_DELAY, TB_PPS_ERR_ERR, TB_LOOP_SLEW_MAX, TB_LOOP_KP, TB_LOOP_KI, TB_LOOP_STEP_LIMIT, TB_ADJ_RATE_RATE, TB_CORR_CORR, REF_CFG_REVERT_GATES, REF_CFG_DWELL, REF_CFG_GATE, REF_CFG_REVERT, REF_CFG_AUTO, REF_CFG_PREF, REF_THR_WIDE, REF_THR_TIGHT, REF_STAT_SWCNT, REF_STAT_PEND, REF_STAT_BYPASS, REF_STAT_BAND_B, REF_STAT_QUAL_B, REF_STAT_BAND_A, REF_STAT_QUAL_A]
def timeBaseFields1 : List Fld :=
  [REF_STAT_ACTIVE, REF_OFFA_Y, REF_OFFB_Y, TB_INDELAY_DELAY, TB_INRES_RES, PTP_CFG_ONESTEP, PTP_CFG_L2, PTP_CFG_UDP6, PTP_CFG_UDP4, PTP_CFG_TX_EN, PTP_CFG_RX_EN, PTP_RXLAT_LAT, PTP_TXLAT_LAT, PTP_TXH0_TAG, PTP_TXH1_TAG, PTP_TXH2_TAG, PTP_TXST_SEQID, PTP_TXST_DOMAIN, PTP_TXST_MSGTYPE, PTP_TXST_OVF, PTP_TXST_VALID, PTP_TXST_POP]
def timeBaseFields : List Fld :=
  timeBaseFields0 ++ timeBaseFields1
/-- the fields of the block whose reset value is not 0. -/
def timeBaseResets : List Fld :=
  [TB_CTRL_ALLOW_STEP, TB_PPS_TOL, TB_LOOP_SLEW_MAX, TB_LOOP_KP, TB_LOOP_KI, TB_LOOP_STEP_LIMIT, REF_CFG_REVERT_GATES, REF_CFG_DWELL, REF_CFG_GATE, REF_CFG_AUTO, REF_THR_WIDE, REF_THR_TIGHT, REF_STAT_BAND_B, REF_STAT_BAND_A]
def ingressFields : List Fld :=
  [ING_CTRL_GAPINT, ING_CTRL_CTOL, ING_GCFG_JESD, ING_GCFG_MR, ING_GCFG_JRATE, ING_LCFG_INV, ING_LCFG_PWRDN, ING_LCFG_CHK, ING_LSTAT_STATE, ING_LSTAT_ADAPTCNT, ING_LSTAT_LOSCNT, ING_LERR_L_ERR, ING_LERR_H_ERR, ING_LMAP_EN, ING_LMAP_JESD, ING_LMAP_LW, ING_LMAP_LANE, ING_ICFG_SRCID, ING_ICFG_SRCCHK, ING_ICFG_CLKGAP, ING_ICFG_GEN, ING_ICFG_FLEN, ING_ICFG_FMT, ING_RATE_RATE, ING_JCFG_RBD, ING_JCFG_N, ING_JCFG_CS, ING_JCFG_SLOG, ING_JCFG_M, ING_ISTAT_STATE, ING_ISTAT_UP, ING_ISTAT_CAUSE, ING_DECLRATE_RATE, ING_SPOIL_SPOIL, ING_GAP_L_SAMP, ING_GAP_H_SAMP]
/-- the fields of the block whose reset value is not 0. -/
def ingressResets : List Fld :=
  [ING_CTRL_GAPINT, ING_CTRL_CTOL, ING_LMAP_EN, ING_ICFG_CLKGAP, ING_RATE_RATE, ING_JCFG_N, ING_JCFG_SLOG, ING_JCFG_M]
def coarseFields : List Fld :=
  [CCH_STAT_SWPEND, CCH_STAT_LASTSAT, CCH_PALHDR_KIND, CCH_PALHDR_HALF, CCH_WIN_WIN, CCH_WIN_SKWIN, CCH_ICFG_SSHIFT, CCH_ICFG_SFMT, CCH_ICFG_SEAMEN, CCH_ICFG_MAINEN, CCH_ICFG_SKEN, CCH_ICFG_SHIFT, CCH_ICFG_OFMT, CCH_ICFG_SKSHIFT, CCH_ICFG_OVS, CCH_ICFG_NLOG, CCH_DC_TRK, CCH_DC_DCRST, CCH_DC_DCK, CCH_DC_OFSI, CCH_OFSQ_OFSQ, CCH_DCEST_ESTQ, CCH_DCEST_ESTI, CCH_SAT_COUNT, CCH_CSAT_COUNT, CCH_SKFF_COUNT, CCH_GAIN_G_ODD, CCH_GAIN_G_EVEN, CCH_PAL_COEF]
/-- the fields of the block whose reset value is not 0. -/
def coarseResets : List Fld :=
  [CCH_ICFG_SSHIFT, CCH_ICFG_SFMT, CCH_ICFG_MAINEN, CCH_ICFG_SKEN, CCH_ICFG_SHIFT, CCH_ICFG_SKSHIFT, CCH_ICFG_NLOG, CCH_DC_DCK, CCH_GAIN_G_ODD, CCH_GAIN_G_EVEN]
def fineFields : List Fld :=
  [FCH_CTRL_CTHBM, FCH_STAT_SWPEND, FCH_STAT_LASTSAT, FCH_CTHBM_L_BYTES, FCH_CTHBM_H_BYTES, FCH_CTSRAM_BYTES, FCH_PALHDR_KIND, FCH_PALHDR_LEN, FCH_ICFG_EN, FCH_ICFG_ALIGN, FCH_ICFG_OVL, FCH_ICFG_NBLOG, FCH_ICFG_FFMT, FCH_ICFG_FSHIFT, FCH_WIN_WIN, FCH_WIN_FLAT, FCH_SAT_COUNT, FCH_LOST_COUNT, FCH_LATE_COUNT, FCH_SPLIT_COUNT, FCH_BINSEL_SEL, FCH_PAL_WORD]
/-- the fields of the block whose reset value is not 0. -/
def fineResets : List Fld :=
  [FCH_ICFG_NBLOG, FCH_ICFG_FSHIFT]
def detectFields0 : List Fld :=
  [DVW_CTRL_EN, DVW_CTRL_CUT, DVW_CTRL_PLANE, DVW_CTRL_THI, DVW_CTRL_DET, DVW_CTRL_VFMT, DVW_CTRL_HOLD, DVW_CTRL_DELTA, DVW_CTRL_HWID, DVW_CTRL_LOWCLIP, DVW_CTRL_INTCNT, DVW_INT_N, DVW_RECT0_K0, DVW_RECT0_KCNT, DVW_RECT1_J0, DVW_RECT1_JCNT, DVW_MAP0_ROWS, DVW_MAP0_COLS, DVW_MAP1_TOP, DVW_MAP1_STEP, DVW_PERS_HIT, DVW_PERS_DK, DVW_PERS_DECAY_T, DVW_DELTA_EMPTY, DVW_DELTA_THR, DVW_DELTA_ANCH, DVW_DEST_SEN, DVW_DEST_CEN, DVW_DEST_SKTRIG, DVW_DEST_CANOUT, DVW_DEST_LAYER, DVW_DEST_STREAM, DVW_SK_SK_HI, DVW_SK_SK_LO, DVW_STAT_STATE, DVW_STAT_GAL, DVW_STAT_STEP, DVW_CLR_PERSIST, DVW_CLR_HOLD, DVW_MASK_SEL]
def detectFields1 : List Fld :=
  [DET_STAT_SWPEND, DET_STAT_LASTVIEW, DET_LOAD_LOAD, DET_SRAM_BYTES, DET_LATE_COUNT, DET_SHORT_COUNT, DET_HSAT_COUNT, DET_FF_COUNT, DET_DROP_COUNT]
def detectFields : List Fld :=
  detectFields0 ++ detectFields1
/-- the fields of the block whose reset value is not 0. -/
def detectResets : List Fld :=
  [DVW_CTRL_DET, DVW_INT_N, DVW_RECT0_KCNT, DVW_RECT1_JCNT, DVW_MAP0_ROWS, DVW_MAP0_COLS, DVW_MAP1_STEP, DVW_PERS_HIT, DVW_PERS_DK, DVW_PERS_DECAY_T, DVW_DELTA_THR, DVW_DELTA_ANCH, DVW_SK_SK_HI, DVW_SK_SK_LO]
def tunersFields0 : List Fld :=
  [TUN_CTRL_EN, TUN_CTRL_CONT, TUN_CTRL_INPUT, TUN_CTRL_K, TUN_CTRL_FDEC, TUN_CTRL_FIREN, TUN_CTRL_RSEN, TUN_CTRL_OFMT, TUN_CTRL_GLZ, TUN_FTW_L_FTW, TUN_FTW_H_FTW, TUN_NCO_POFS, TUN_NCO_USEIDX, TUN_SWIDX_L_IDX, TUN_SWIDX_H_IDX, TUN_FIR_FSEL, TUN_FIR_RSEL, TUN_FIR_GSH, TUN_STEP_STEP, TUN_DEST_SEN, TUN_DEST_TEN, TUN_DEST_TRG, TUN_DEST_SMAX, TUN_DEST_TILE, TUN_DEST_STREAM, TUN_RING_RBASE, TUN_RING_RLEN, TUN_TSTAT_STATE, TUN_TSTAT_RSTEP, TUN_TSTAT_LATEIDX, TUN_TSTAT_SER, TUN_TSTAT_GLZEND, TUN_TSTAT_DRAINED, TUN_TSTAT_SAT, TUN_SAT_COUNT, TUN_PHI_L_PHI, TUN_PHI_H_PHI, TUN_SERIES_SERIES, TUN_STAT_SWPEND, TUN_STAT_LASTSAT]
def tunersFields1 : List Fld :=
  [TUN_FIRHDR_KIND, TUN_FIRHDR_DLY, TUN_FIRHDR_T, TUN_RSHDR_VALID, TUN_FIRW_COEF, TUN_RSW_COEF, TUN_FIRROM_COEF, TUN_RSROM_COEF]
def tunersFields : List Fld :=
  tunersFields0 ++ tunersFields1
/-- the fields of the block whose reset value is not 0. -/
def tunersResets : List Fld :=
  [TUN_CTRL_K, TUN_STEP_STEP]
def triggersFields0 : List Fld :=
  [TRG_STAT_SWPEND, TRG_STAT_QLEN, TRG_CMD_OP, TRG_CMD_GROUP, TRG_CMD_FTAGEN, TRG_CMD_UNIT, TRG_FTAG_L_TAG, TRG_FTAG_M_TAG, TRG_FTAG_H_TAG, TRG_GCFG_EN, TRG_GCFG_FIRST, TRG_GCFG_PAIR, TRG_GCFG_MASTER, TRG_GCFG_ARMLEAD, TIN_CFG_EN, TIN_CFG_EDGE, TIN_CFG_MINW, TIN_STAT_LEVEL, TIN_STAT_GLITCH, TOUT_CFG_EN, TOUT_CFG_POL, TOUT_CFG_MODE, TOUT_CFG_PW, TOUT_SRC_UNITS, TOUT_DLY_DLY, TOUT_STAT_LATE, TOUT_STAT_MERGE, TRG_MSKHDR_VALID, TRG_MSKHDR_LEN, TRG_MSK_UP, TRG_MSK_LO, TRG_UCFG_EN, TRG_UCFG_SRC, TRG_UCFG_REARM, TRG_UCFG_PARTOK, TRG_UCFG_GRPEN, TRG_UCFG_GRP, TRG_UCFG_THI, TRG_UCFG_HUNIT, TRG_UCFG_QCNT]
def triggersFields1 : List Fld :=
  [TRG_ULVL_LVL, TRG_ULVL_HYS, TRG_UMSK_LMODE, TRG_UMSK_SLOT, TRG_UMSK_NVIOL, TRG_UELEM_ELEM, TRG_UFLAT_UP, TRG_UFLAT_LO, TRG_UGATE_GMODE, TRG_UGATE_GPOL, TRG_UGATE_GIDX, TRG_UGATE_GWIN, TRG_UHOFF_HOFF, TRG_UACT_CAP, TRG_UACT_WAKE, TRG_UACT_PAIRTX, TRG_UACT_EVF, TRG_UACT_M0EN, TRG_UACT_M1EN, TRG_UACT_CAPSEL, TRG_UMARK_STREAM1, TRG_UMARK_STREAM0, TRG_UDL_DL, TRG_USTAT_STATE, TRG_USTAT_ARMPEND, TRG_USTAT_FPEND, TRG_USTAT_LATEARM, TRG_USTAT_RACE, TRG_USTAT_LATEOUT, TRG_USTAT_LOST, TRG_USTAT_SWAP, TRG_USTAT_FIRED, TRG_UFIRE_COUNT, TRG_USUPP_COUNT, TRG_ULOST_COUNT, TRG_URECT0_K0, TRG_URECT0_KCNT, TRG_URECT1_J0, TRG_URECT1_JCNT, TRG_USEL_SEL]
def triggersFields : List Fld :=
  triggersFields0 ++ triggersFields1
/-- the fields of the block whose reset value is not 0. -/
def triggersResets : List Fld :=
  [TRG_GCFG_ARMLEAD, TIN_CFG_EDGE, TOUT_CFG_PW, TOUT_DLY_DLY, TRG_MSK_UP, TRG_MSK_LO, TRG_UCFG_QCNT, TRG_UMSK_SLOT, TRG_UMSK_NVIOL, TRG_UFLAT_UP, TRG_UFLAT_LO, TRG_UACT_EVF, TRG_URECT0_KCNT, TRG_URECT1_JCNT]
def recorderFields0 : List Fld :=
  [REC_CTRL_EN, REC_CTRL_WATCHEN, REC_CTRL_SIZE, REC_STAT_SWPEND, REC_STAT_STATE, REC_STAT_DEGR, REC_STAT_CAPUSE, REC_DEPTH_DEPTH, REC_PIN_PINMAX, REC_PIN_PINNED, REC_RDRES_RDRES, REC_RRCFG0_HI, REC_RRCFG0_LO, REC_RRCFG0_PERIOD, REC_RRCFG1_UPCNT, REC_RRCFG1_MINGAP, REC_RRCFG1_BACKWIN, CAP_CMD_OP, CAP_CMD_SLOT, REC_INEN_SEL, CAP_CMDNUM_NUM, CAP_TAG_L_TAG, CAP_TAG_M_TAG, CAP_TAG_H_TAG, CAP_STAT_COUNT, CAP_SPOIL_COUNT, CAP_ABANDON_COUNT, REC_OLDEST_L_VAL, REC_OLDEST_H_VAL, REC_OLDGAP_L_VAL, REC_OLDGAP_H_VAL, REC_LOSS_L_VAL, REC_LOSS_H_VAL, CAP_DSTAT0_CAPNUM, CAP_DSTAT1_STATE, CAP_DSTAT1_SLOT, CAP_SCFG_EN, CAP_SCFG_READ, CAP_SCFG_AUTOREL, CAP_SCFG_STATS]
def recorderFields1 : List Fld :=
  [CAP_SCFG_SMODE, CAP_SCFG_STREAM, CAP_SPRE_T, CAP_SPOST_T, CAP_SDEST_DMAX, CAP_SDEST_RDRATE, CAP_SSTAT_COLS, CAP_SSTAT_DK, CAP_SSTAT_HIT, CAP_SMASK_SEL, REC_LCFG_EN, REC_LCFG_SMAXL, REC_LSTAT_STEP, REC_LSTAT_BACKOFF, REC_LSTAT_SHED, REC_LSTAT_DISC]
def recorderFields : List Fld :=
  recorderFields0 ++ recorderFields1
/-- the fields of the block whose reset value is not 0. -/
def recorderResets : List Fld :=
  [REC_CTRL_SIZE, REC_PIN_PINMAX, REC_RDRES_RDRES, REC_RRCFG0_HI, REC_RRCFG0_LO, REC_RRCFG0_PERIOD, REC_RRCFG1_UPCNT, REC_RRCFG1_MINGAP, REC_RRCFG1_BACKWIN, REC_INEN_SEL, CAP_SDEST_DMAX, CAP_SDEST_RDRATE, CAP_SSTAT_COLS, CAP_SSTAT_DK, CAP_SSTAT_HIT, REC_LCFG_EN, REC_LCFG_SMAXL]
def crossFields0 : List Fld :=
  [XSP_CTRL_EN, XSP_CTRL_CUT, XSP_CTRL_CORREN, XSP_CTRL_WTAB, XSP_CTRL_CPREC, XSP_CTRL_VFMT, XSP_CTRL_VSH, XSP_CTRL_Q4SH, XSP_CTRL_SUBLOG, XSP_BAND_BIN0, XSP_BAND_BCNT, XSP_INT_NX, XSP_SKEW_TOL, XSP_BCTRL_BEAMEN, XSP_BCTRL_BPREC, XSP_BCTRL_OFMT, XSP_BCTRL_BSHIFT, XSP_BCTRL_WGLOG, XSP_BCTRL_PFMT, XSP_BCTRL_VSPEC, XSP_BCTRL_VSTREAM, XSP_DEST_PSTREAM, XSP_DEST_XSTREAM, XSP_WPTR_PTR, XSP_WDATA_WQ, XSP_WDATA_WI, XSP_STAT_SWPEND, XSP_STAT_STATE, XSP_STAT_THROTTLE, XSP_STAT_SKEW, XSP_STAT_LASTSAT, XSP_TILES_L_TILES, XSP_TILES_H_TILES, XSP_INMASK_SEL, XSP_SAT_COUNT, XSP_ABSENT_COUNT, XSP_LATE_COUNT, XSP_SHORT_COUNT, XSP_DUMPLOST_COUNT, XSP_GRUN_FIRST]
def crossFields1 : List Fld :=
  [XSP_GRUN_COUNT, XSP_TLOAD_CLAIMED, XSP_TLOAD_SLOT, XSP_TLOAD_LOAD, XSP_BCFG_EN, XSP_BCFG_MODE]
def crossFields : List Fld :=
  crossFields0 ++ crossFields1
/-- the fields of the block whose reset value is not 0. -/
def crossResets : List Fld :=
  [XSP_CTRL_CORREN, XSP_CTRL_WTAB, XSP_CTRL_CPREC, XSP_CTRL_VFMT, XSP_CTRL_SUBLOG, XSP_BAND_BIN0, XSP_BAND_BCNT, XSP_INT_NX, XSP_SKEW_TOL, XSP_BCTRL_BPREC, XSP_BCTRL_BSHIFT, XSP_BCTRL_VSPEC]
def galleriesFields0 : List Fld :=
  [TILE_CTRL_CMD, TILE_CTRL_RSTVEC, TILE_STAT_STATE, TILE_STAT_LVL, TILE_STAT_BANK, TILE_STAT_CLAIMED, TILE_STAT_PRGV, TILE_STAT_CMDHELD, TILE_STAT_REPOCH, TILE_STAT_LOCKS, TILE_PC_PC, TILE_FAULT_CODE, TILE_FAULT_LVL, TILE_FAULT_ADDR, TILE_FADDR_DADDR, TILE_XCTL_OP, TILE_XCTL_ENTRY, TILE_XSTAT_XSTATE, TILE_XSTAT_SIGOK, TILE_XSTAT_SIGREQ, TILE_XSTAT_TMO, TILE_PPTR_LIVE, TILE_PPTR_PTR, TILE_PDATA_SYL, TILE_MPTR_WADDR, TILE_MDATA_DATA, TILE_ARB_WT, TILE_HBMWIN_WIN, TILE_VEC_VEC, TILE_EVST_FAULT, TILE_EVST_HALTED, TILE_EVST_XDONE, TILE_EVST_XTMO, TILE_EVST_XFORCED, TILE_EVST_ABANDON, TILE_EVST_RINGOVF, TILE_SAT_COUNT, TILE_SPOIL_COUNT, TILE_TIP_LATCHED, TILE_TIP_LINES]
def galleriesFields1 : List Fld :=
  [TILE_TIE_EN, TILE_TMR_CFG_MODE, TILE_TMR_CFG_KEEP, TILE_TMR_CFG_PRESC, TILE_TMR_LOAD_LOAD, TILE_TMR_LOADH_SEC, TILE_TMR_CNT_CNT, TILE_EDG_CFG_EN, TILE_EDG_CFG_EDGE, TILE_EDG_CFG_KEEP, TILE_EDG_CFG_COUNT, TILE_EDG_CFG_CLASS, TILE_EDG_CFG_INDEX, TILE_EDG_TAG_L_TAG, TILE_EDG_TAG_M_TAG, TILE_EDG_TAG_H_TAG, TILE_RING0_VALID, TILE_RING0_TUNER, TILE_RING0_WIDX, TILE_RING1_WMARK, TILE_RING1_OVF, TILE_RING1_RIDX, LOCK_CMD_OP, LOCK_CMD_LOCK, LOCK_STAT_STATE, LOCK_STAT_OWNER, LOCK_STAT_EPOCH, LOCK_STAT_LAST, DMA_CTRL_WT, DMA_STAT_ATTN, DMA_EVBASE_COUNT, DMA_EVBASE_FIRST, DMA_GSPTR_WADDR, DMA_GSDATA_DATA, DMA_GSDATA_L_LO, DMA_GSDATA_H_HI, DMA_CHCFG_OWNER, DMA_CHCFG_RSTABT, DMA_CHCFG_CHW, DMA_CHCFG_POLL]
def galleriesFields2 : List Fld :=
  [DMA_CHCMD_OP, DMA_CHSTAT_STATE, DMA_CHSTAT_CMDHELD, DMA_CHSTAT_CQWAIT, DMA_CHSTAT_ERRCODE, DMA_CHSTAT_DONE, DMA_CHSTAT_ERR, DMA_CHSTAT_CQFULL, DMA_CHSTAT_STOPPED, DMA_CHSTAT_MEMERR, DMA_CHHEAD_L_ADDR, DMA_CHHEAD_H_ADDR, DMA_CHCUR_L_ADDR, DMA_CHCUR_H_ADDR, DMA_CHERR_L_ADDR, DMA_CHERR_H_ADDR, DMA_CHCQBASE_L_ADDR, DMA_CHCQBASE_H_ADDR, DMA_CHCQCFG_EN, DMA_CHCQCFG_CQLOG, DMA_CHCQ_RIDX, DMA_CHCQ_WIDX, DMA_CHDONE_COUNT, DMA_CHMEMERR_COUNT]
def galleriesFields : List Fld :=
  galleriesFields0 ++ galleriesFields1 ++ galleriesFields2
/-- the fields of the block whose reset value is not 0. -/
def galleriesResets : List Fld :=
  [TILE_STAT_STATE, TILE_XSTAT_TMO, TILE_ARB_WT, TILE_EDG_CFG_EDGE, TILE_RING1_WMARK, LOCK_STAT_OWNER, DMA_CTRL_WT, DMA_EVBASE_COUNT, DMA_CHCFG_OWNER, DMA_CHCFG_RSTABT, DMA_CHCFG_CHW, DMA_CHCFG_POLL, DMA_CHCQCFG_CQLOG]
def memoryFields : List Fld :=
  [MEM_MAP_NSP, MEM_MAP_GLOG, MEM_PAGE_IDLE, MEM_PAGE_HITCAP, MEM_PAGE_WHI, MEM_PAGE_WLO, MEM_ECC_SCRUB, MEM_ECC_CETHR, MEM_ECC_PREMIG, MEM_MIG_MIGRES, MEM_PWR_LTOL, MEM_PWR_PDIDLE, MEM_PWR_SRIDLE, MEM_CMD_OP, MEM_CMD_RANK, MEM_STAT_MIG, MEM_STAT_SPARES, MEM_STAT_FOLDS, MEM_STAT_GLOG, MEM_STAT_NSP, MEM_STAT_LOST, MEM_STAT_MRANK, MEM_MIGPOS_W, MEM_SIZE_L_VAL, MEM_SIZE_H_VAL, MEM_UELOG_L_VAL, MEM_UELOG_H_VAL, MEM_UESRC_VALID, MEM_UESRC_SRC, MEM_REFFORCE_COUNT, MEM_SRAMCE_COUNT, MEM_SRAMUE_COUNT, MEM_LOSTW_COUNT, MEM_REGION_BASE_GB64K, MEM_REGION_SIZE_GB64K, MEM_CE_COUNT, MEM_UE_COUNT, MEM_RANK_STATE, MEM_RANK_LOGICAL, MEM_RANK_CE]
/-- the fields of the block whose reset value is not 0. -/
def memoryResets : List Fld :=
  [MEM_MAP_NSP, MEM_MAP_GLOG, MEM_PAGE_IDLE, MEM_PAGE_HITCAP, MEM_PAGE_WHI, MEM_PAGE_WLO, MEM_ECC_SCRUB, MEM_ECC_CETHR, MEM_ECC_PREMIG, MEM_MIG_MIGRES, MEM_PWR_PDIDLE, MEM_PWR_SRIDLE]
def streamsFields0 : List Fld :=
  [STR_STAT_SWPEND, STR_STAT_FAILED, STR_EPOCHNEXT_EPOCH, STR_PCFG_EN, STR_PCFG_AUI8, STR_PCFG_PAUSE, STR_PCFG_PACK, STR_PCFG_MTU, STR_PMAC_L_MAC, STR_PMAC_H_MAC, STR_PIP4_IP4, STR_PSTAT_LINK, STR_PSTAT_RXDROP, STR_PIP6_IP6, STR_NMAC_L_DMAC, STR_NMAC_H_PCP, STR_NMAC_H_VLANEN, STR_NMAC_H_V6, STR_NMAC_H_DSCP, STR_NMAC_H_DMAC, STR_NPORT_DPORT, STR_NPORT_SPORT, STR_NMISC_TTL, STR_NMISC_VID, STR_NDIP_DIP, HRG_CFG_EN, HRG_CFG_KIND, HRG_CFG_RLOG, HRG_CFG_PORT, HRG_CFG_VEC, HRG_TAIL_TAIL, HRG_STAT_BADDESC, HRG_STAT_STARVED, HRG_STAT_HEAD, HRG_MOD_MODCNT, HRG_MOD_MODUS, HRG_MOD_FLUSH, HRG_BASE_L_BASE, HRG_BASE_H_BASE, STR_SCFG_EN]
def streamsFields1 : List Fld :=
  [STR_SCFG_DEST, STR_SCFG_VRT, STR_SCFG_GAPMODE, STR_SCFG_QLOG, STR_SCFG_WT, STR_SCFG_DSEL, STR_SCFG_DEAD, STR_SXCFG_SPP, STR_SXCFG_CTXINT, STR_SXCFG_NETIDX, STR_SSID_SID, STR_SSTAT_STATE, STR_SSTAT_FILL, STR_SSEQ_SEQ, STR_SEPOCH_EPOCH, STR_SDUR_DUR, STR_SLOST_LOST, DSK_CFG_EN, DSK_CFG_STOP, DSK_CFG_CKPT, DSK_CFG_DFLUSH, DSK_STAT_STATE, DSK_STAT_BUSY, DSK_STAT_CMDST, DSK_STAT_DRIVES, DSK_CMD_OP, DSK_EXT_E, DSK_FREE_FREE, DSK_ARG_ARG, DSK_DRV_STATE, DSK_DRV_INDEX, DSK_DRV_CAP]
def streamsFields : List Fld :=
  streamsFields0 ++ streamsFields1
/-- the fields of the block whose reset value is not 0. -/
def streamsResets : List Fld :=
  [STR_PCFG_PACK, STR_PCFG_MTU, STR_NMISC_TTL, HRG_CFG_RLOG, HRG_MOD_MODCNT, HRG_MOD_FLUSH, STR_SCFG_QLOG, STR_SCFG_WT, STR_SCFG_DEAD, STR_SXCFG_SPP, STR_SXCFG_CTXINT, DSK_CFG_CKPT, DSK_CFG_DFLUSH]
def displayFields0 : List Fld :=
  [DSP_STAT_SWPEND, DSP_OCFG_EN, DSP_OCFG_VRR, DSP_OCFG_AUTOTR, DSP_OCFG_HSP, DSP_OCFG_VSP, DSP_OCFG_MAXRATE, DSP_OCFG_MAXLN, DSP_OCFG_OVLEN, DSP_OCFG_LEAD, DSP_OCFG_OP, DSP_HTIM_HTOTAL, DSP_HTIM_HACT, DSP_HSYN_HFP, DSP_HSYN_HSW, DSP_VTIM_VTOTAL, DSP_VTIM_VACT, DSP_VSYN_VFP, DSP_VSYN_VSW, DSP_PCLK_KHZ, DSP_VRRMAX_VTMAX, DSP_BG_RGB, DSP_UCOL_RGB, DSP_FLIP_FLIPPEND, DSP_FLIP_SEL, DSP_OSTAT_STATE, DSP_OSTAT_RATE, DSP_OSTAT_LANES, DSP_OSTAT_LASTV, DSP_FRAMES_COUNT, DSP_AUXCMD_OP, DSP_AUXCMD_ADDR, DSP_AUXCMD_LEN, DSP_AUXST_BUSY, DSP_AUXST_RESULT, DSP_OVB0_L_ADDR, DSP_OVB0_H_ADDR, DSP_OVB1_L_ADDR, DSP_OVB1_H_ADDR, DSP_UNDER_COUNT]
def displayFields1 : List Fld :=
  [DSP_POISON_COUNT, DSP_SKIP_COUNT, DSP_AUXD_DATA, DSP_LCFG_EN, DSP_LCFG_MAXP, DSP_LCFG_LOGM, DSP_LCFG_TOUCH, DSP_LCFG_GSH, DSP_LCFG_INPUT, DSP_LPOS_Y0, DSP_LPOS_X0, DSP_LSIZE_H, DSP_LSIZE_W, DSP_LGAIN_GAIN, DSP_LSTAT_CLASS, DSP_LSTAT_SHOWN, DSP_LSTAT_VIEW, DSP_PAL_WORD, DSP_TCFG_EN, DSP_TCFG_OUT, DSP_TCFG_SPEED, DSP_TCFG_GLYPH, DSP_TCFG_TINTEN, DSP_TCFG_POLL, DSP_TCFG_ADDR7, DSP_TREP_REG, DSP_TREP_LEN, DSP_TFLD_XOFF, DSP_TFLD_YOFF, DSP_TFLD_COFF, DSP_TFLD_CBIT, DSP_TFLD_CPOL, DSP_TFLD_BE, DSP_TFLD_X16, DSP_MKCOL_RGB, DSP_TSTAT_CONTACT, DSP_TSTAT_NAK, DSP_TSTAT_BUSERR, DSP_MKR0_VALID, DSP_MKR0_HIT]
def displayFields2 : List Fld :=
  [DSP_MKR0_PHASE, DSP_MKR0_LAYER, DSP_MKR0_INDEX, DSP_MKR0_MSEQ, DSP_TCAL_COEF, DSP_MKR1_Y, DSP_MKR1_X, DSP_MKR2_ROW, DSP_MKR2_MCOL, DSP_MKR3_CHI, DSP_MKR3_CLO, DSP_MKR4_LEVEL, DSP_MKR5_FREQ, DSP_MKR6_FREQ]
def displayFields : List Fld :=
  displayFields0 ++ displayFields1 ++ displayFields2
/-- the fields of the block whose reset value is not 0. -/
def displayResets : List Fld :=
  [DSP_OCFG_AUTOTR, DSP_OCFG_MAXRATE, DSP_OCFG_MAXLN, DSP_OCFG_LEAD, DSP_HTIM_HTOTAL, DSP_HTIM_HACT, DSP_HSYN_HFP, DSP_HSYN_HSW, DSP_VTIM_VTOTAL, DSP_VTIM_VACT, DSP_VSYN_VFP, DSP_VSYN_VSW, DSP_PCLK_KHZ, DSP_VRRMAX_VTMAX, DSP_UCOL_RGB, DSP_LSIZE_H, DSP_LSIZE_W, DSP_LGAIN_GAIN, DSP_LSTAT_VIEW, DSP_TCFG_SPEED, DSP_TCFG_TINTEN, DSP_TREP_LEN, DSP_TFLD_XOFF, DSP_TFLD_YOFF, DSP_MKCOL_RGB]
def stimulusFields0 : List Fld :=
  [STM_STAT_SWPEND, STM_STAT_RUN, STM_MARK_L_TAG, STM_MARK_M_TAG, STM_MARK_H_TAG, CAL_CMD_OP, CAL_CMD_APPLY, CAL_CMD_PARTIAL, CAL_STAT_STATE, CAL_STAT_RESULT, CAL_STAT_STORED, CAL_STAT_LASTOP, CAL_STAT_PASS, CAL_PAR0_STIM, CAL_PAR0_NAVGLOG, CAL_PAR0_SRCH, CAL_PAR0_REF, CAL_PAR1_COHMIN, CAL_PAR1_BADMAX, CAL_PAR1_GMAX, CAL_PAR2_TGT, CAL_PAR2_PHRMS, CAL_PAR2_SLOT, CAL_PAR3_EYEH, CAL_PAR3_EYEW, CAL_PAR3_MAXDLY, CAL_SEL_SEL, STM_CCFG_EN, STM_CCFG_LANEEN, STM_CCFG_MR, STM_CCFG_SEQEN, STM_CCFG_SEQ0, STM_CCFG_GSEG, STM_RATE_RATE, STM_TXCFG_TXLEAD, STM_TXCFG_SRCID, STM_CSTAT_STATE, STM_CSTAT_STEP, STM_CSTAT_UNDER, STM_CSTAT_SAT]
def stimulusFields1 : List Fld :=
  [STM_IDX_L_IDX, STM_IDX_H_IDX, STM_UNDER_COUNT, STM_SAT_COUNT, STM_TCFG_EN, STM_TCFG_CH, STM_TCFG_AMP, STM_TFTW_L_FTW, STM_TFTW_H_FTW, STM_TPH_POFS, STM_SBASE_L_BASE, STM_SBASE_H_BASE, STM_SLEN_LEN, STM_STEP_END, STM_STEP_MARK, STM_STEP_NEXT, STM_STEP_SEG, STM_STEP_REP, CAL_DIST_DIST, CAL_RES0_STATUS, CAL_RES0_SEAM, CAL_RES0_BAD, CAL_RES0_COH, CAL_RES1_VALUE]
def stimulusFields : List Fld :=
  stimulusFields0 ++ stimulusFields1
/-- the fields of the block whose reset value is not 0. -/
def stimulusResets : List Fld :=
  [CAL_PAR0_NAVGLOG, CAL_PAR0_SRCH, CAL_PAR1_COHMIN, CAL_PAR1_BADMAX, CAL_PAR1_GMAX, CAL_PAR2_TGT, CAL_PAR2_PHRMS, CAL_PAR3_EYEH, CAL_PAR3_EYEW, CAL_PAR3_MAXDLY, STM_CCFG_GSEG, STM_RATE_RATE, STM_TXCFG_TXLEAD, STM_SLEN_LEN, STM_STEP_REP]
def admissionFields : List Fld :=
  [ADM_CMD_OP, ADM_CMD_ASAP, ADM_INST_L_TAG, ADM_INST_M_TAG, ADM_INST_H_TAG, ADM_STAT_STATE, ADM_STAT_HELD, ADM_STAT_DEGR, ADM_STAT_LAST, ADM_STAT_NFAIL, ADM_RES_CODE, ADM_RES_BLOCK, ADM_RES_ITEM, ADM_NEED_NEED, ADM_HAVE_HAVE, ADM_GEN_GEN, ADM_CGEN_CGEN, ADM_CLK_FLIVE, ADM_CLK_FRUN, ADM_CLK_FSTAGE, ADM_RSV_THBM, ADM_RSV_DSKBW, ADM_TIME_US, ADM_DEGRCNT_COUNT, ADM_XTILES_L_TILES, ADM_XTILES_H_TILES, ADM_DEGR_L_US, ADM_DEGR_H_US, ADM_TSRAM_SIZE, ADM_DLOSS_COUNT, ADM_REF_RES_RES, ADM_REF_NEED_NEED, ADM_REF_HAVE_HAVE]
/-- the fields of the block whose reset value is not 0. -/
def admissionResets : List Fld :=
  [ADM_CLK_FLIVE, ADM_CLK_FRUN, ADM_CLK_FSTAGE, ADM_RSV_THBM, ADM_RSV_DSKBW, ADM_TSRAM_SIZE]
def clocksFields0 : List Fld :=
  [CLK_CTRL_CMD, CLK_CTRL_AUTORELOCK, CLK_CTRL_HOLDEN, CLK_CTRL_HOLDMAX, CLK_REF_FREFA, CLK_REF_FREFB, CLK_REF_DH, CLK_REF_PDIVA, CLK_REF_PDIVB, CLK_STEP_DWELL, CLK_STAT_STATE, CLK_STAT_PFDMIS, CLK_STAT_CFGERR, CLK_STAT_BANDGAP, CLK_STAT_KXTAL, CLK_STAT_BAND, CLK_STAT_FTHR, CLK_STAT_FTARGET, CLK_N_N, CLK_CNT_LOSS, CLK_CNT_BYP, CLK_CNT_GLITCH, CLK_SYSREF_EN, CLK_SYSREF_MODE, CLK_SYSREF_POL, CLK_SYSREF_FIRE, CLK_SYSREF_PCNT, CLK_SYSREF_SDIV, CLK_BAND_VALID, CLK_BAND_CAP, CLK_BAND_FHI, CLK_BAND_FLO, CLK_BAND_VT, CLK_OUT_EN, CLK_OUT_POL, CLK_OUT_DRIVE, CLK_OUT_ODIV, CLK_AUX0_STATE, CLK_AUX0_PD, CLK_AUX0_MA]
def clocksFields1 : List Fld :=
  [CLK_AUX1_N, CLK_AUX2_KHZ]
def clocksFields : List Fld :=
  clocksFields0 ++ clocksFields1
/-- the fields of the block whose reset value is not 0. -/
def clocksResets : List Fld :=
  [CLK_CTRL_AUTORELOCK, CLK_CTRL_HOLDEN, CLK_CTRL_HOLDMAX, CLK_STEP_DWELL, CLK_STAT_FTHR, CLK_STAT_FTARGET, CLK_SYSREF_PCNT, CLK_SYSREF_SDIV]
def powerFields0 : List Fld :=
  [PWR_CMD_OP, PWR_STAT_MODE, PWR_STAT_TRANS, PWR_STAT_HELD, PWR_STAT_REFUSED, PWR_STAT_CAUSE, PWR_STAT_WAKESRC, PWR_STAT_SUPGOOD, PWR_TAG_L_TAG, PWR_TAG_M_TAG, PWR_TAG_H_TAG, PWR_CFG_BOOTMODE, PWR_CFG_TILEGATE, PWR_GOV_LIMIT, PWR_GOV_WIN, PWR_GOV_CHK, PWR_GOVVMIN_VMIN, PWR_GOVSTAT_DEFER, PWR_GOVSTAT_QLEN, PWR_GOVSTAT_HOLDS, PWR_SCRATCH_DATA, THM_CFG_T_THR, THM_CFG_T_CRIT, THM_HYS_HYS, THM_HYS_DWELL, THM_HBM_LIMIT, THM_STAT_TJ, THM_STAT_FTHR, THM_STAT_STATE, THM_STAT_HOT, THM_S_FAIL, THM_S_T, HK_CTRL_EN0, HK_CTRL_EN1, HK_CTRL_SYNC, HK_CTRL_XTOL, HK_URG_CONV, HK_URG_CH, HK_URGRES_NUM, HK_URGRES_CONV]
def powerFields1 : List Fld :=
  [HK_URGRES_RES, HK_SPOIL_URGDROP, HK_URGTAG_L_TAG, HK_URGTAG_M_TAG, HK_URGTAG_H_TAG, HK_TRIM_OFS, HK_TRIM_GAIN, HK_SEQ_EN, HK_SEQ_SIM, HK_SEQ_AVGLOG, HK_SEQ_HI, HK_SEQ_LO, HK_RES_VIOL, HK_RES_CROSS, HK_RES_RES]
def powerFields : List Fld :=
  powerFields0 ++ powerFields1
/-- the fields of the block whose reset value is not 0. -/
def powerResets : List Fld :=
  [PWR_STAT_MODE, PWR_GOV_LIMIT, PWR_GOV_WIN, PWR_GOVVMIN_VMIN, THM_CFG_T_THR, THM_CFG_T_CRIT, THM_HYS_HYS, THM_HYS_DWELL, THM_HBM_LIMIT, THM_STAT_FTHR, HK_CTRL_EN0, HK_CTRL_EN1, HK_CTRL_SYNC, HK_CTRL_XTOL, HK_SEQ_HI]
def securityFields : List Fld :=
  [SEC_STAT_LC, SEC_STAT_DBG, SEC_STAT_SAFE, SEC_STAT_DEGR, SEC_STAT_LCPEND, SEC_STAT_BUSY, SEC_STAT_CMDST, SEC_STAT_TVST, SEC_STAT_LOCKOUT, SEC_STAT_SVN, SEC_CMD_OP, SEC_ARG_ARG, SEC_CTRL_KEYLOCK, SEC_CTRL_MAXTRY, SEC_WDT_TMO, SEC_RSTCAUSE_MODE, SEC_RSTCAUSE_CAUSE, SEC_TRGLOST_COUNT, SEC_WITHDRAWN_GAL, SEC_WITHDRAWN_CANVAS, SEC_TVCMD_OP, SEC_TVCMD_TILE, SEC_FLADDR_ADDR, SEC_FLCMD_OP, SEC_STEP_ATTEMPTS, SEC_STEP_LASTFAIL, SEC_STEP_POLICY, SEC_STEP_LASTPOL, SEC_STEP_CONSEC, SEC_FLBUF_DATA, SEC_TSIG_DATA, SEC_TOKEN_DATA, SEC_KEYS_DATA]
/-- the fields of the block whose reset value is not 0. -/
def securityResets : List Fld :=
  [SEC_CTRL_MAXTRY, SEC_WDT_TMO]
def pairFields0 : List Fld :=
  [DZ_CFG_EN, DZ_CFG_MEMBER, DZ_CFG_ROLE, DZ_CFG_PDISC, DZ_CFG_AUTOPROM, DZ_CFG_WEN, DZ_CFG_WIN, DZ_CFG_WOUT, DZ_CFG_DSKTAKE, DZ_CFG_WAKEX, DZ_CFG_MODEX, DZ_CFG_MR, DZ_CFG_SENTINT, DZ_CMD_OP, DZ_STAT_PSTATE, DZ_STAT_ROLE, DZ_STAT_PROLE, DZ_STAT_TLOCK, DZ_STAT_JOINERR, DZ_STAT_WITNESS, DZ_STAT_SPLIT, DZ_STAT_DEGR, DZ_STAT_RXUP, DZ_STAT_TXUP, DZ_PCNT_PCNT, DZ_OFFSET_THETA, DZ_DELAY_DELAY, DZ_ASYM_ASYM, DZ_LOOP_SINT, DZ_LOOP_KP, DZ_LOOP_KI, DZ_LOOP_STEPLIM, DZ_HB_INT, DZ_HB_MISS, DZ_CRCERR_COUNT, DZ_RETX_COUNT, DZ_MISMATCH_COUNT, DZ_DGSKIP_COUNT, DZ_ORDMISS_COUNT, DZ_SHDROP_COUNT]
def pairFields1 : List Fld :=
  [DZ_PSERIAL_SERIAL, DZ_LSTAT_STATE, DZ_LSTAT_ADAPTCNT, DZ_LSTAT_LOSCNT]
def pairFields : List Fld :=
  pairFields0 ++ pairFields1
/-- the fields of the block whose reset value is not 0. -/
def pairResets : List Fld :=
  [DZ_CFG_AUTOPROM, DZ_CFG_WAKEX, DZ_CFG_MODEX, DZ_CFG_SENTINT, DZ_LOOP_SINT, DZ_LOOP_KP, DZ_LOOP_KI, DZ_LOOP_STEPLIM, DZ_HB_INT, DZ_HB_MISS]

end Reg

end Sys2Proof.Machine
end

