-- ==== Sys2Proof/Machine/Blocks.lean ====
section
/-!
DEFINITION. The block windows of 02_control_access.md R40: base, size, bank views, block code, events, header place, and
the register fields of each; which window holds an offset; the reset word of an offset.
-/
namespace Sys2Proof.Machine

/-- A register's place: byte offset of its word in BAR0, lowest bit, width. -/
structure Loc where
  off : Nat
  lo : Nat
  w : Nat
deriving DecidableEq, Repr

/-- The place of a field that is no array. -/
def Fld.z (f : Fld) : Loc := ⟨f.off, f.lo, f.w⟩

/-- The offset of element `is` of an array with dimensions `ds`. -/
def elemOff : List (Nat × Nat) → List Nat → Nat
  | (st, _) :: ds, i :: is => i * st + elemOff ds is
  | _, _ => 0

/-- The place of element `i` of a field that is an array of one dimension. -/
def Fld.e (f : Fld) (i : Nat) : Loc := ⟨f.off + elemOff f.dims [i], f.lo, f.w⟩

/-- The place of element (`i`, `j`). -/
def Fld.e2 (f : Fld) (i j : Nat) : Loc := ⟨f.off + elemOff f.dims [i, j], f.lo, f.w⟩

/-- The place of element (`i`, `j`, `k`). -/
def Fld.e3 (f : Fld) (i j k : Nat) : Loc := ⟨f.off + elemOff f.dims [i, j, k], f.lo, f.w⟩

/-- The place of the register of tile `t` (12_tile_programming_model.md R406). -/
def Fld.t (f : Fld) (t : Nat) : Loc := f.e2 (t / 8) (t % 8)

/-- The place of array register `k` of tile `t`. -/
def Fld.tk (f : Fld) (t k : Nat) : Loc := f.e3 (t / 8) (t % 8) k

/-- `d` is the offset of an element of an array with dimensions `ds`. -/
def coversOff : List (Nat × Nat) → Nat → Bool
  | [], d => decide (d = 0)
  | (st, n) :: ds, d => decide (d / st < n) && coversOff ds (d % st)

/-- Field `f` has an element in the word at offset `o` (a live offset). -/
def Fld.covers (f : Fld) (o : Nat) : Bool := decide (f.off ≤ o) && coversOff f.dims (o - f.off)

/-- The element numbers of offset `d` in an array with dimensions `ds`. -/
def elemIdx : List (Nat × Nat) → Nat → List Nat
  | [], _ => []
  | (st, _) :: ds, d => d / st :: elemIdx ds (d % st)

/-- Window base (R40). -/
def Blk.base : Blk → Nat
  | .ident => 0x0 | .events => 0x100000 | .timeBase => 0x200000 | .clocks => 0x300000 | .power => 0x340000
  | .security => 0x400000 | .pair => 0x500000 | .ingress => 0x1000000 | .coarse => 0x1400000 | .fine => 0x1800000
  | .detect => 0x1C00000 | .tuners => 0x2000000 | .triggers => 0x2400000 | .recorder => 0x2800000
  | .cross => 0x2C00000 | .gallery g => 0x3000000 + g.val * 0x100000 | .memory => 0x3800000 | .streams => 0x3A00000
  | .display => 0x3C00000 | .stimulus => 0x3D00000 | .admission => 0x3E00000

/-- Window size in bytes (R40). -/
def Blk.size : Blk → Nat
  | .ident => 0x100000 | .events => 0x100000 | .timeBase => 0x100000 | .clocks => 0x40000 | .power => 0xC0000
  | .security => 0x100000 | .pair => 0x100000 | .ingress => 0x400000 | .coarse => 0x400000 | .fine => 0x400000
  | .detect => 0x400000 | .tuners => 0x400000 | .triggers => 0x400000 | .recorder => 0x400000
  | .cross => 0x400000 | .gallery _ => 0x100000 | .memory => 0x200000 | .streams => 0x200000
  | .display => 0x100000 | .stimulus => 0x100000 | .admission => 0x200000

/-- The window is split into a live and a staged view (R40, R64). -/
def Blk.banked : Blk → Bool
  | .ingress | .coarse | .fine | .detect | .tuners | .triggers | .recorder | .cross | .streams | .display
  | .stimulus => true
  | .ident | .events | .timeBase | .clocks | .power | .security | .pair | .gallery _ | .memory | .admission => false

/-- Block code (R40). -/
def Blk.code : Blk → Nat
  | .ident => 0x01 | .events => 0x02 | .timeBase => 0x03 | .clocks => 0x04 | .power => 0x05 | .security => 0x06
  | .pair => 0x07 | .ingress => 0x10 | .coarse => 0x11 | .fine => 0x12 | .detect => 0x13 | .tuners => 0x14
  | .triggers => 0x15 | .recorder => 0x16 | .cross => 0x17 | .gallery g => 0x20 + g.val | .memory => 0x18
  | .streams => 0x19 | .display => 0x1A | .stimulus => 0x1B | .admission => 0x1C

/-- First event number (R79). -/
def Blk.evFirst : Blk → Nat
  | .ident => 0 | .events => 0 | .timeBase => 16 | .clocks => 32 | .power => 48 | .security => 80 | .pair => 96
  | .ingress => 112 | .coarse => 240 | .fine => 248 | .detect => 272 | .tuners => 256 | .triggers => 296
  | .recorder => 328 | .cross => 352 | .gallery g => 376 + 8 * g.val | .memory => 456 | .streams => 480
  | .display => 496 | .stimulus => 504 | .admission => 508

/-- Number of events (R79). -/
def Blk.evCount : Blk → Nat
  | .ident => 0 | .events => 16 | .timeBase => 16 | .clocks => 16 | .power => 32 | .security => 16 | .pair => 16
  | .ingress => 128 | .coarse => 8 | .fine => 8 | .detect => 24 | .tuners => 16 | .triggers => 32 | .recorder => 24
  | .cross => 24 | .gallery _ => 8 | .memory => 24 | .streams => 16 | .display => 8 | .stimulus => 4 | .admission => 4

/-- Last object index of the block's range, which holds its header (R65); a gallery's is 0x67F8 + g (12 R406). -/
def Blk.hdrIndex : Blk → Nat
  | .ident => 0x11FF | .events => 0x13FF | .timeBase => 0x15FF | .clocks => 0x17FF | .power => 0x19FF
  | .security => 0x1BFF | .pair => 0x1DFF | .ingress => 0x2FFF | .coarse => 0x33FF | .fine => 0x37FF
  | .detect => 0x3FFF | .tuners => 0x47FF | .triggers => 0x4FFF | .recorder => 0x57FF | .cross => 0x5FFF
  | .gallery g => 0x67F8 + g.val | .memory => 0x77FF | .streams => 0x7FFF | .display => 0x83FF
  | .stimulus => 0x87FF | .admission => 0x8BFF

/-- A number for each block, below 64: the key of its shadows. -/
def Blk.num : Blk → Nat
  | .gallery g => 0x20 + g.val
  | b => b.code

/-- All blocks. -/
def allBlks : List Blk :=
  [.ident, .events, .timeBase, .clocks, .power, .security, .pair, .ingress, .coarse, .fine, .detect, .tuners, .triggers,
   .recorder, .cross, .gallery 0, .gallery 1, .gallery 2, .gallery 3, .gallery 4, .gallery 5, .gallery 6, .gallery 7,
   .memory, .streams, .display, .stimulus, .admission]

/-- The header's place (R65): the window base, but 0x0010_8000 in the events window. -/
def Blk.hdr : Blk → Nat
  | .events => 0x108000
  | b => b.base

/-- The register fields of the block. -/
def Blk.fields : Blk → List Fld
  | .ident => Reg.identFields | .events => Reg.eventsFields | .timeBase => Reg.timeBaseFields
  | .clocks => Reg.clocksFields | .power => Reg.powerFields | .security => Reg.securityFields | .pair => Reg.pairFields
  | .ingress => Reg.ingressFields | .coarse => Reg.coarseFields | .fine => Reg.fineFields | .detect => Reg.detectFields
  | .tuners => Reg.tunersFields | .triggers => Reg.triggersFields | .recorder => Reg.recorderFields
  | .cross => Reg.crossFields | .gallery _ => Reg.galleriesFields | .memory => Reg.memoryFields
  | .streams => Reg.streamsFields | .display => Reg.displayFields | .stimulus => Reg.stimulusFields
  | .admission => Reg.admissionFields

/-- The fields of the block whose reset value is not 0. -/
def Blk.resets : Blk → List Fld
  | .ident => Reg.identResets | .events => Reg.eventsResets | .timeBase => Reg.timeBaseResets
  | .clocks => Reg.clocksResets | .power => Reg.powerResets | .security => Reg.securityResets | .pair => Reg.pairResets
  | .ingress => Reg.ingressResets | .coarse => Reg.coarseResets | .fine => Reg.fineResets | .detect => Reg.detectResets
  | .tuners => Reg.tunersResets | .triggers => Reg.triggersResets | .recorder => Reg.recorderResets
  | .cross => Reg.crossResets | .gallery _ => Reg.galleriesResets | .memory => Reg.memoryResets
  | .streams => Reg.streamsResets | .display => Reg.displayResets | .stimulus => Reg.stimulusResets
  | .admission => Reg.admissionResets

/-- The gallery whose window starts at 0x0300_0000 + g × 0x0010_0000. -/
def galleryAt (o : Nat) : Blk := .gallery (Fin.ofNat 8 ((o - 0x3000000) / 0x100000))

/-- The window that holds BAR0 offset `o` (R40). -/
def blkAt (o : Nat) : Option Blk :=
  if o < 0x100000 then some .ident else if o < 0x200000 then some .events else if o < 0x300000 then some .timeBase
  else if o < 0x340000 then some .clocks else if o < 0x400000 then some .power else if o < 0x500000 then some .security
  else if o < 0x600000 then some .pair else if o < 0x1000000 then none else if o < 0x1400000 then some .ingress
  else if o < 0x1800000 then some .coarse else if o < 0x1C00000 then some .fine else if o < 0x2000000 then some .detect
  else if o < 0x2400000 then some .tuners else if o < 0x2800000 then some .triggers
  else if o < 0x2C00000 then some .recorder else if o < 0x3000000 then some .cross
  else if o < 0x3800000 then some (galleryAt o) else if o < 0x3A00000 then some .memory
  else if o < 0x3C00000 then some .streams else if o < 0x3D00000 then some .display
  else if o < 0x3E00000 then some .stimulus else if o < 0x4000000 then some .admission else none

/-- Half the window: the staged view of a banked block is that far above the live view (R64). -/
def Blk.half (b : Blk) : Nat := b.size / 2

/-- Offset `o` lies in the staged view of its banked block. -/
def inStaged (b : Blk) (o : Nat) : Bool := b.banked && decide (b.base + b.half ≤ o)

/-- The live offset of `o`. -/
def liveOff (b : Blk) (o : Nat) : Nat := if inStaged b o then o - b.half else o

/-- The fields in the word at offset `o` of block `b`, either view. -/
def fieldsAt (b : Blk) (o : Nat) : List Fld := b.fields.filter (·.covers (liveOff b o))

/-- A place moved to the staged view of block `b`. -/
def Loc.staged (b : Blk) (l : Loc) : Loc := { l with off := l.off + b.half }

/-- The header words of R65 that are not 0 after reset: BLK_ID and BLK_EVBASE. -/
def hdrReset (b : Blk) (o : Nat) : Nat :=
  if o = b.hdr then b.code * 2 ^ 24 + 0x01 * 2 ^ 16
  else if o = b.hdr + 0x14 then b.evCount * 2 ^ 16 + b.evFirst
  else 0

/-- Default policies of the start steps (22 R645): 0 RETRY, 1 SKIP, 2 ALT. -/
def stepDefault (k : Nat) : Nat :=
  if k = 0 ∨ k = 8 ∨ k = 9 then 1 else if k = 2 ∨ k = 3 ∨ k = 5 ∨ k = 6 ∨ k = 7 ∨ k = 11 then 2 else 0

/-- The resets that depend on the element's number: ING_LMAP.LANE = n (01 R20), TUN_CTRL.INPUT = t mod 128 (08 R264),
DMA_EVBASE.FIRST = 440 + 2g (14 R453); SEC_STEP.POLICY is the step's default policy (22 R645). -/
def elemReset (b : Blk) (o : Nat) : Nat :=
  match b with
  | .ingress => if Reg.ING_LMAP_LANE.covers o then (o - Reg.ING_LMAP_LANE.off) / 4 else 0
  | .tuners => if Reg.TUN_CTRL_INPUT.covers o then ((o - Reg.TUN_CTRL_INPUT.off) / 0x40 % 128) * 2 ^ 23 else 0
  | .gallery g => if Reg.DMA_EVBASE_FIRST.covers o then 440 + 2 * g.val else 0
  | .security => if Reg.SEC_STEP_POLICY.covers o then stepDefault ((o - Reg.SEC_STEP_POLICY.off) / 4) * 2 ^ 14 else 0
  | _ => 0

/-- The word an offset holds after reset: its fields' reset values (R44); the staged view resets as the live view. -/
def resetWord (o : Nat) : Word :=
  match blkAt o with
  | none => 0
  | some b =>
    let l := liveOff b o
    let plain := (b.resets.filter (·.covers l)).foldl (fun acc f => acc + f.rst * 2 ^ f.lo) 0
    BitVec.ofNat 32 (plain + hdrReset b l + elemReset b l)

/-- The header of block `b`: places of R65. -/
def Blk.wign (b : Blk) : Loc := ⟨b.hdr + 4, 31, 1⟩
def Blk.sign (b : Blk) : Loc := ⟨b.hdr + 4, 30, 1⟩
def Blk.lign (b : Blk) : Loc := ⟨b.hdr + 4, 29, 1⟩
def Blk.tverr (b : Blk) : Loc := ⟨b.hdr + 4, 28, 1⟩
def Blk.tvfail (b : Blk) : Loc := ⟨b.hdr + 4, 27, 1⟩
def Blk.badacc (b : Blk) : Loc := ⟨b.hdr + 4, 26, 1⟩
def Blk.frozen (b : Blk) : Loc := ⟨b.hdr + 4, 1, 1⟩
def Blk.lock (b : Blk) : Loc := ⟨b.hdr + 8, 0, 1⟩
def Blk.ignKind (b : Blk) : Loc := ⟨b.hdr + 0xC, 30, 2⟩
def Blk.ignOffset (b : Blk) : Loc := ⟨b.hdr + 0xC, 0, 26⟩
def Blk.gen (b : Blk) : Loc := ⟨b.hdr + 0x10, 0, 32⟩

end Sys2Proof.Machine
end

