-- ==== Sys2Proof/Machine/State.lean ====
section
/-!
DEFINITION. The state of the block as plain data: the registers in one sparse store, what the spec gives the block beside
its registers, the things that leave the engine, and the queue of waiting commands; the reasons a step can stop; and
the state after reset.
-/
namespace Sys2Proof.Machine

/-! ### What leaves the engine -/

/-- One thing that leaves the engine, in the order it leaves (model's own: see the assumption log). -/
inductive Out where
  /-- the value a register read returned to its requester. -/
  | readData (r : Requester) (v : Word)
  /-- an MSI-X message on a vector (02 R76). -/
  | msix (vector : Nat)
  /-- a management datagram from the engine's address and port to an address and port (02 R47, R49). -/
  | datagram (src sport addr port : Nat) (data : List Byte)
  /-- the status and data of an object operation run as a command of its own (02 R52). -/
  | objResult (status : Nat) (data : List Byte)
  /-- a TRIG_OUT pin changes to its active or inactive level at a tag (09 R285). -/
  | trigOut (pin : Nat) (level : Bool) (tag : Nat)
  /-- a frame leaves a streaming port, without FCS (16 R495). -/
  | frame (port : Nat) (data : List Byte)
  /-- bytes written to host memory (16 R505, R506). -/
  | hostWrite (addr : Nat) (data : List Byte)
  /-- bytes written to a drive of the disk set at a byte address, with FUA or without, and a Flush to every drive (16 R510, R511). -/
  | diskWrite (drive addr : Nat) (fua : Bool) (data : List Byte)
  | diskFlush
  /-- `len` zero bytes written to the set from a logical byte on (16 R516). -/
  | diskZero (start len : Nat)
  /-- a cell sent on the Dziast link (23 R663). -/
  | cell (data : List Byte)
  /-- a frame of an output: its lines of RGB pixels (17 R526). -/
  | video (output : Nat) (lines : List (List Nat))
  /-- TRIG_OUT pin `pin` carries the 500 kHz square wave of the pair's witness from now on, or no longer (23 R680). -/
  | witness (pin : Nat) (on : Bool)
  /-- an AUX transaction begins: output, OP, address, length and, for a write, its data (17 R536). -/
  | aux (output op addr len : Nat) (data : List Byte)
  /-- a touch report read begins: speed, address, register and length (17 R538). -/
  | touchRead (speed addr reg len : Nat)
  /-- a WSF frame on lane STXcc (18 R545). -/
  | stimFrame (channel : Nat) (data : List Byte)
  /-- SYSREF_OUT changes to its active or inactive level (20 R610). -/
  | sysref (active : Bool)
  /-- the 320 bits captured by CHAL, least significant byte first (22 R656). -/
  | chal (data : List Byte)
  /-- boundary-scan cells captured, and cells driven onto the pins (22 R656). -/
  | scan (cells : List Bool)
  | pins (cells : List Bool)
  /-- the status and data a DBGACC access leaves for the next capture (22 R658). -/
  | dbgAcc (status : Nat) (data : Word)
deriving DecidableEq, Repr

/-! ### Records (16_output_streams.md) -/

/-- A closed record before it takes its place in a stream (16 R484): WRF type, kind of producer (0 ingress, 1 trigger unit,
2 ladder, 3 stream loss, 4 view, 5 tuner, 6 capture, 7 cross-spectral), producer number, and body. -/
structure Record where
  kind : Nat
  source : Nat
  num : Nat
  body : List Byte
deriving DecidableEq, Repr

/-! ### 02_control_access.md -/

/-- A NOTIFY sent and not yet acknowledged (R59): its number, its body and how often it was sent. -/
structure Notice where
  num : Nat
  body : List Byte
  count : Nat
  sends : Nat
deriving DecidableEq, Repr

/-- An OAP session (R55 to R59). -/
structure Session where
  /-- session identifier. -/
  id : Nat
  /-- source address and port of the host. -/
  addr : Nat
  port : Nat
  /-- the expected request number E. -/
  expected : Nat
  /-- the last 8 responses, newest first: request number and datagram. -/
  cache : List (Nat × List Byte)
  /-- the subscription mask, bit n for event n. -/
  subs : Nat
  /-- the number of the next notification. -/
  notifyNo : Nat
  /-- notifications sent and not acknowledged, oldest first. -/
  window : List Notice
  /-- events whose entries are not yet sent, oldest first. -/
  held : List Nat
  /-- opened with AUTH, and its session key (R58). -/
  auth : Bool
  key : List Byte
deriving DecidableEq, Repr

/-- An OPEN that opened a session (R57): source address and port, S, its instant by Control.uptime, and the OPEN_ACK sent. -/
structure Opened where
  addr : Nat
  port : Nat
  seq : Nat
  at_ : Nat
  ack : List Byte
deriving DecidableEq, Repr

/-- What the control complex itself holds (R46 to R61, R76). -/
structure Control where
  /-- values of the objects the control complex holds, by index × 256 + subindex; unlisted: the default of R46. -/
  objs : Tbl Nat
  /-- writes to the network objects not yet in effect (R47): key and value. -/
  netPending : List (Nat × Nat)
  /-- the device key OAP_KEY (R46). -/
  oapKey : List Byte
  /-- open sessions, oldest first. -/
  sessions : List Session
  /-- the OPENs of the last second that opened a session, newest first (R57). -/
  opens : List Opened
  /-- the event log: (event, tag), oldest first, at most 4096 (R76). -/
  log : List (Nat × Nat)
  /-- the mailbox: expected request number, none until the first request (R61). -/
  mbxExpected : Option Nat
  mbxCache : List (Nat × List Byte)
  /-- the response of the mailbox request in execution. -/
  mbxResponse : Option (List Byte)
  /-- the response is discarded: a function-level reset arrived while BUSY (R61). -/
  mbxDiscard : Bool
  /-- a STORE of a set, or an ERASE (none), under way (R44). -/
  persistOp : Option (Option (Tbl Nat))
  /-- the two stored copies of the persistent objects (R44, R654): sequence number and values by index × 256 + subindex. -/
  stored0 : Option (Tbl Nat)
  stored1 : Option (Tbl Nat)
  /-- read shadows and write shadows by requester × 64 + block (R71, R72). -/
  readShadow : Tbl Nat
  writeShadow : Tbl Nat
  /-- functions stopped by a TV field without two agreeing copies (R73): live or staged offset, or 2²⁶ + u for the remap entry of
  logical rank u (15 R473). -/
  tvStopped : List Nat
  /-- the register words at the last CK_SLOW edge and at the last CK_KEEP edge: what RC fields read (R66, R70). -/
  rcSlow : Tbl Word
  rcKeep : Tbl Word
  /-- CK_CORE cycles since the last CK_SLOW edge (20 R592). -/
  slow : Nat
  /-- time since reset in units of 2⁻⁴⁸ s, by the control complex's own clock, which runs in every mode (R57). -/
  uptime : Nat
deriving DecidableEq, Repr

/-- The control complex after reset (R44, R57, R61). -/
def Control.reset : Control :=
  { objs := [], netPending := [], oapKey := [], sessions := [], opens := [], log := [], mbxExpected := none,
    mbxCache := [], mbxResponse := none, mbxDiscard := false, persistOp := none, stored0 := none, stored1 := none,
    readShadow := [], writeShadow := [], tvStopped := [], rcSlow := [], rcKeep := [], slow := 0, uptime := 0 }

/-! ### 03_time_base.md -/

/-- What an armed set does (R87). -/
inductive SetMode where
  | atPps | immediate | add
deriving DecidableEq, Repr

/-- Runs of consecutive gate ends of one reference (R98 to R100). -/
structure RefMon where
  /-- gate ends in a row with |y| ≤ 0.75 T. -/
  tightRun : Nat
  /-- gate ends in a row with 0.75 T < |y| ≤ 0.75 W. -/
  wideRun : Nat
  /-- gate ends in a row in band IN, the one that entered it included. -/
  inRun : Nat
  /-- the gate under way began without the reference's edges (R98). -/
  cut : Bool
deriving DecidableEq, Repr

/-- An entry of a transmit-tag FIFO (R107). -/
structure PtpEntry where
  tag : Nat
  msgType : Nat
  domain : Nat
  seqId : Nat
deriving DecidableEq, Repr

/-- The time base (R80 to R107). -/
structure TimeBase where
  /-- the time base runs (Watch and Full, R83). -/
  running : Bool
  /-- the first reference edge after the start has come: tag and R advance (R83). -/
  begun : Bool
  /-- the tag with 32 more fraction bits: units of 2⁻⁸⁰ s, 128 bits (R84). -/
  acc : Nat
  /-- the reference time R, same units (R84). -/
  ref : Nat
  /-- the tag has run ahead of R and holds (R84). -/
  holding : Bool
  /-- the correction c and the value it takes at the next reference edge, units of 2⁻⁶³ (R92). -/
  c : Int
  cNext : Option Int
  /-- the loop's integrator, units of 2⁻⁶³ (R92). -/
  integ : Int
  /-- the armed set: mode and value (R87, R88). -/
  armed : Option (SetMode × Nat)
  /-- the stamp of the accepted PPS edge at which an AT_PPS set falls due. -/
  setDue : Option Nat
  /-- a set has been applied since the last start (R109 SET). -/
  wasSet : Bool
  /-- the last accepted PPS edge in R without c and without its steps, units of 2⁻⁴⁸ s (R90). -/
  ppsLast : Option Nat
  /-- accepted edges in a row, each 1 s ± TOL after the one before. -/
  ppsRun : Nat
  ppsMisses : Nat
  ppsQualified : Bool
  /-- the loop's lock (R94) and the runs that decide it, and the run of large errors (R93). -/
  locked : Bool
  goodRun : Nat
  badRun : Nat
  largeRun : Nat
  /-- a rate write has arrived within the last 2 s (R95), and when the last one did. -/
  softFresh : Bool
  softLast : Option Nat
  /-- the two references' runs (R98 to R100). -/
  refA : RefMon
  refB : RefMon
  /-- a switch-over decided and waiting for the other reference's edge (R100, R101). -/
  switchTo : Option Nat
  /-- a switch has been decided in this gate (R100: at most one per gate). -/
  switchedThisGate : Bool
  /-- transmit-tag FIFOs by port, oldest first, and the entries each has discarded (R107). -/
  ptpFifo : Tbl (List PtpEntry)
  ptpLost : Tbl Nat
  /-- the time base has started since the reset (R83). -/
  started : Bool
  /-- CK_CORE interpolation since the last reference edge, units of 2⁻⁸⁰ s; the next edge is the first one of a new reference
  and is placed by it (R85). -/
  since : Nat
  bridge : Bool
  /-- the accepted PPS edge at which the gate under way began, in R without c; none while gates are timed by the time base
  (R97). -/
  gateAt : Option Nat
  /-- values of TQ[7:0], newest first, each with STEPCNT and the tag at which it came into force (R109). -/
  tqLog : List (Nat × Nat × Nat)
  /-- the tags just before and just after the last step (R89). -/
  lastStep : Option (Nat × Nat)
  /-- the sum of the steps so far, units of 2⁻⁴⁸ s (R89). -/
  total : Int
deriving DecidableEq, Repr

/-- The time base after reset: stopped at tag 0 (R83). -/
def TimeBase.reset : TimeBase :=
  { running := false, begun := false, acc := 0, ref := 0, holding := false, c := 0, cNext := none, integ := 0,
    armed := none, setDue := none, wasSet := false, ppsLast := none, ppsRun := 0, ppsMisses := 0, ppsQualified := false,
    locked := false, goodRun := 0, badRun := 0, largeRun := 0, softFresh := false, softLast := none,
    refA := ⟨0, 0, 0, true⟩, refB := ⟨0, 0, 0, true⟩, switchTo := none, switchedThisGate := false, ptpFifo := [], ptpLost := [],
    started := false, since := 0, bridge := false, gateAt := none, tqLog := [], lastStep := none, total := 0 }

/-! ### 04_sample_ingress.md -/

/-- What a lane holds beside its registers (R117, R118, R123). -/
structure Lane where
  /-- an equalisation from a full adaptation is stored. -/
  stored : Bool
  /-- a full adaptation runs. -/
  full : Bool
  /-- places of the LMBs received while it hunts for block lock, newest first (R117). -/
  lmbs : List Nat
  /-- a frame begins only after a control block and with the magic (R123). -/
  hunting : Bool
deriving DecidableEq, Repr

def Lane.reset : Lane := { stored := false, full := false, lmbs := [], hunting := true }

/-- The clock model after an accepted frame (03 R103), units of 2⁻⁸⁰ s. -/
structure FrameModel where
  /-- first delivered index of the frame. -/
  first : Nat
  a : Int
  iA : Nat
  p : Nat
  /-- the frame re-anchored the model. -/
  jump : Bool
  /-- TB_INDELAY and TB_STATUS.STEPCNT in force at the frame. -/
  indelay : Int
  stepcnt : Nat
  /-- the sum of the steps before the frame's scale began (R89). -/
  total : Int
deriving DecidableEq, Repr

/-- A gap of an input that has been opened (R140, R141). -/
structure Gap where
  num : Nat
  first : Nat
  firstCause : Nat
  mask : Nat
  discarded : Nat
  overlap : Nat
deriving DecidableEq, Repr

/-- A piece of the elastic buffer waiting for release (R137): a frame's samples, or `gapLen` gap indices. -/
structure Chunk where
  first : Nat
  c16 : Bool
  gapLen : Nat
  data : List (Int × Int)
  bytes : Nat
deriving DecidableEq, Repr

/-- A sample released on the main path, with its validity and the DC estimators E after it (05 R152). -/
structure Sample where
  idx : Nat
  i : Int
  q : Int
  valid : Bool
  c16 : Bool
  eI : Int
  eQ : Int
  /-- generation of the ingress bank in force. -/
  gen : Nat
deriving DecidableEq, Repr

/-- What an input holds beside its registers (R125 to R145). -/
structure Input where
  /-- has accepted a frame since it was enabled or the time base started. -/
  locked : Bool
  /-- has an index series: a first lock since the time base started. -/
  series : Bool
  /-- the first index of the series, and whether it lies so far back that no span reaches it (05 R171). -/
  start : Nat
  long : Bool
  /-- i_exp of R125, and the first index not yet given to a sample or a gap (R126). -/
  iExp : Nat
  iDel : Nat
  cExp : Nat
  /-- i − c (R125). -/
  offset : Nat
  models : List FrameModel
  /-- re-anchorings among the last 16 accepted frames, newest first (R129). -/
  recent : List Bool
  /-- RATEFAULT after three re-anchorings (R129). -/
  rateFault : Bool
  /-- the last declared rate failed check 5. -/
  rateBad : Bool
  /-- the last verdict accepted a frame; it refused one. -/
  accepting : Bool
  refused : Bool
  /-- ING_RATE changed at the swap and no frame has been accepted since (R128). -/
  newRate : Bool
  /-- the map changed, or the input was enabled again or left its generator: the next frame is placed by time. -/
  replace : Bool
  gapNo : Nat
  gap : Option Gap
  /-- closed gaps (first index, length), newest first, and the first indices delivered in another format than before (05
  R175). -/
  gaps : List (Nat × Nat)
  fmtAt : List Nat
  /-- the last 4096 CLOSE records (first index, length, body), newest first (10 R300). -/
  gapLog : List (Nat × Nat × List Byte)
  /-- causes that the next gap takes, the first seen first (R126, R136, R140). -/
  causes : List Nat
  elastic : List Chunk
  /-- released samples, newest first. -/
  main : List Sample
  eI : Int
  eQ : Int
  /-- E before the first of those samples, and the indices from which E was set to 0, newest first (05 R152, R153). -/
  dcBase : Int × Int
  dcLog : List Nat
  /-- the main path starts anew after Watch mode: 0 no, 1 waiting for its first sample, k + 2 once index k came first (05
  R171). -/
  resume : Nat
  /-- fast-path samples (index, I, Q), newest first, and whether the frame in flight feeds the fast path (R27). -/
  fast : List (Nat × Int × Int)
  fastOpen : Bool
  /-- the fast-path index of the first sample of that frame (R27, R124). -/
  fastFirst : Nat
  /-- index ranges of fast-path samples whose frame was refused or re-indexed (05 R172). -/
  faults : List (Nat × Nat)
  /-- a lane whose frames the input still takes until that lane's boundary (R136). -/
  oldLane : Option Nat
  /-- the lane the live map names has passed its boundary: its frames are taken no more (R136). -/
  cut : Bool
deriving DecidableEq, Repr

def Input.reset : Input :=
  { locked := false, series := false, start := 0, long := false, iExp := 0, iDel := 0, cExp := 0, offset := 0, models := [], recent := [],
    rateFault := false, rateBad := false, accepting := false, refused := false, newRate := false, replace := false, gapNo := 0, gap := none, gaps := [], fmtAt := [], gapLog := [],
    causes := [], elastic := [], main := [], eI := 0, eQ := 0, dcBase := (0, 0), dcLog := [], resume := 0, fast := [], fastOpen := false, fastFirst := 0,
    faults := [],
    oldLane := none, cut := false }

/-- Ingress. -/
structure Ingress where
  lanes : Tbl Lane
  inputs : Tbl Input
  /-- lanes whose boundary the commit under way still waits for. -/
  lanesLeft : List Nat
deriving DecidableEq, Repr

def Ingress.reset : Ingress := { lanes := [], inputs := [], lanesLeft := [] }

/-! ### The planes (05, 06) -/

/-- A spectrum of one of the planes, with the attributes its consumers see (05 R157): its index, the first index and the
length of its span, tag, TQ, generation, indices of the span that lay in gaps, and its bins. -/
structure Spectrum where
  idx : Nat
  first : Nat
  len : Nat
  tag : Nat
  tq : Nat
  gen : Nat
  gaps : Nat
  /-- complex bins in ascending order, in the plane's format. -/
  bins : List (Int × Int)
  /-- coarse bin of a fine spectrum; 0 elsewhere. -/
  bin : Nat
  /-- bits per component: 16, 12 or 8. -/
  bits : Nat
  /-- fine plane: generation of the coarse spectra used, and the split count (06 R189); N_B and the code of v. -/
  cgen : Nat
  split : Nat
  points : Nat
  ovl : Nat
  /-- its number on its grid: the index itself, for a fine spectrum q of (06 R182); the hop of that grid in samples, and its numbers in
  one turn of the sample index. -/
  seq : Nat
  pitch : Nat
  turn : Nat
deriving DecidableEq, Repr

/-- The fronts (05). Spectra are kept newest first by input. -/
structure Front where
  main : Tbl (List Spectrum)
  seam : Tbl (List Spectrum)
  sketch : Tbl (List Spectrum)
  /-- the coarse window's live words and generation before its last swap, for windows that begin before the swap index. -/
  oldRegs : Tbl Word
  oldGen : Nat
  /-- swap index of grid 3 × input + output (0 main, 1 seam, 2 sketch) in the last or the present commit, until no window before it
  is left. -/
  swapIdx : Tbl (Option Nat)
  /-- grids that have not swapped in the commit under way, and those that swapped in it with no window before the swap. -/
  gridsLeft : List Nat
  swapped : List Nat
  /-- inputs in format C16 before and after that commit (05 R175). -/
  oldC16 : List Nat
  newC16 : List Nat
deriving DecidableEq, Repr

def Front.reset : Front :=
  { main := [], seam := [], sketch := [], oldRegs := [], oldGen := 0, swapIdx := [], gridsLeft := [], swapped := [], oldC16 := [],
    newC16 := [] }

/-- Corner-turn rings of one entry width (06 R191, R192): bits per component, and the address of each bin's ring. -/
structure RingSet where
  bits : Nat
  rings : List (Nat × Nat)
deriving DecidableEq, Repr

/-- A fine grid of an input, with the rings that feed it (06 R182, R191). Positions are coarse indices counted on across the wrap of
R182, so that they only rise. -/
structure FineChain where
  /-- N_B, h and σ. -/
  nb : Nat
  hop : Nat
  sigma : Nat
  /-- H and L of the main output it takes. -/
  chop : Nat
  clen : Nat
  /-- it uses the new bank of the commit under way. -/
  side : Bool
  /-- it takes no new spectra, because its input was disabled. -/
  old : Bool
  /-- the lowest position a span may begin at. -/
  start : Nat
  /-- spans that begin at or after this position belong to the new grid (R202). -/
  limit : Option Nat
  /-- the first position that the coarse grid does not produce (R175, R200). -/
  cend : Option Nat
  /-- the newest position present or taken as void. -/
  last : Option Nat
  /-- positions taken as void at their deadline (R196). -/
  voids : List Nat
  /-- (position, bin) lost to memory errors (R198). -/
  lost : List (Nat × Nat)
  /-- the first span that is not due, and those due, earliest first (R195). -/
  next : Nat
  due : List Nat
  /-- bins of the earliest due span that are produced or void. -/
  done : List Nat
  rings : List RingSet
deriving DecidableEq, Repr

/-- The fine channeliser (06), by input. -/
structure FineInput where
  /-- fine spectra produced, newest first. -/
  specs : List Spectrum
  /-- the grids that run, the oldest first. -/
  chains : List FineChain
deriving DecidableEq, Repr

def FineInput.reset : FineInput := { specs := [], chains := [] }

structure Fine where
  inputs : Tbl FineInput
  /-- inputs that have not passed their swap point. -/
  left : List Nat
deriving DecidableEq, Repr

def Fine.reset : Fine := { inputs := [], left := [] }

/-! ### 08_tuners.md -/

/-- The settings of a tuner's chain, taken when it swaps (R245, R248, R251, R259). -/
structure TunSet where
  input : Nat
  rate : Nat
  c16 : Bool
  k : Nat
  fdec : Nat
  firen : Bool
  rsen : Bool
  step : Nat
  ofmt : Nat
  gsh : Nat
  /-- FIR taps and declared delay; prototype coefficients a_φ[t] at 16 φ + t. -/
  fir : List Int
  dly : Nat
  rs : List Int
  gen : Nat
deriving DecidableEq, Repr

/-- NCO settings in force from an index on: FTW, POFS and Φ (R239, R240). -/
structure Nco where
  at_ : Nat
  ftw : Int
  pofs : Nat
  phi : Nat
deriving DecidableEq, Repr

/-- A change of coefficients on a running chain (R259, R260): the old settings, the first output with the new ones, and G
(0: no cross-fade). -/
structure Glaze where
  old : TunSet
  first : Nat
  g : Nat
deriving DecidableEq, Repr

/-- A chain: its settings, its NCO settings newest first, the first index it takes, the resampler's j₀, and the numbers of its first
and its next output; for a chain that is being drained, the position (in units of 2⁻³⁵ samples) its outputs stay below. -/
structure Chain where
  set : TunSet
  nco : List Nco
  i0 : Nat
  j0 : Nat
  first : Nat
  next : Nat
  series : Nat
  limit : Option Int
  glaze : Option Glaze
  /-- the words TUN_DEST with the positions (in units of 2⁻³⁵ samples) from which they are in force, newest first (R259). -/
  dests : List (Int × Nat)
  /-- its stream path (R253, R254): step stages, thinning above SMAX, number of its series on that path, number of the path's next
  output, and a change to come: stages, thinning and the output number it begins at. -/
  stages : Nat
  thin : Nat
  path : Nat
  strM : Nat
  pend : Option (Nat × Nat × Nat)
deriving DecidableEq, Repr

/-- An output of a tuner (R252): its number in the series, output index, series, tag, TQ, generation and GLAZE flag, partial, a component
saturated, final value before requantisation, output value, and the span's first index and length. -/
structure TunOut where
  num : Nat
  e : Nat
  series : Nat
  tag : Nat
  tq : Nat
  gen : Nat
  glaze : Bool
  part : Bool
  sat : Bool
  y : Int × Int
  v : Int × Int
  first : Nat
  len : Nat
  /-- output format, the word TUN_DEST in force for it, F_out in Hz as a fraction, the tuned frequency in units of 2⁻²⁰ Hz, and
  whether a FIR or resampler shapes its band (R252, R253, 16 R503). -/
  ofmt : Nat
  dest : Nat
  fout : Nat × Nat
  freq : Int
  shaped : Bool
  /-- on the stream path: the number of its series there, and the thinning at its start (R253, R254). -/
  path : Nat
  thin : Nat
deriving DecidableEq, Repr

/-- A tuner. -/
structure Tuner where
  chain : Option Chain
  old : Option Chain
  /-- the swap index of the commit under way (R258). -/
  iS : Option Nat
  /-- outputs delivered, newest first. -/
  outs : List TunOut
  /-- outputs that the stream path has formed and no packet has taken, oldest first (R253, 16 R501). -/
  strOuts : List TunOut
  /-- outputs that no ring block has taken, oldest first (12 R390). -/
  ringOuts : List TunOut
  /-- a series to begin at or after this index once the drain has finished (R262). -/
  again : Option Nat
  /-- the ladder's order not yet taken, the ladder's step, and the number of series of the stream path (R253, R254). -/
  ordered : Option Nat
  step : Nat
  paths : Nat
  /-- the stream path's series of the last packet, with the number of its next data packet and its thinning; a thinning to come in one
  of its series (R254, 16 R503). -/
  vrtPath : Option Nat
  packet : Nat
  thin : Nat
  thinNext : Option (Nat × Nat)
  /-- 4-bit packet counts of data and context packets, and the index after the last data packet sent (16 R500, R502). -/
  vrtData : Nat
  vrtCtx : Nat
  vrtNext : Option Nat
  /-- the fields of the last context packet (16 R503). -/
  ctxLast : List Nat
deriving DecidableEq, Repr

def Tuner.reset : Tuner :=
  { chain := none, old := none, iS := none, outs := [], strOuts := [], ringOuts := [], again := none, ordered := none,
    step := 0, paths := 0, vrtPath := none, packet := 0, thin := 0, thinNext := none, vrtData := 0, vrtCtx := 0, vrtNext := none, ctxLast := [] }

structure Tuners where
  tuners : Tbl Tuner
  /-- tuners that have not swapped in the commit under way (R263). -/
  left : List Nat
  /-- groups whose tuners have all swapped and whose event has been raised. -/
  groups : List Nat
deriving DecidableEq, Repr

def Tuners.reset : Tuners := { tuners := [], left := [], groups := [] }

/-! ### 07_detection_and_maps.md -/

/-- Where the spans of a plane's indices lie: the span of index e is `wlen` sample indices from `org` + e × `hop`; the indices of one
turn number `turn`. On the tuner plane the chain's settings and j₀ place them. -/
structure PlaneGrid where
  org : Int
  hop : Nat
  wlen : Nat
  turn : Nat
  set : Option (TunSet × Nat)
deriving DecidableEq, Repr

/-- A spectrum as a view takes it: index, span, power per cell in units of 2⁻³⁰ (R210), plane and coarse generation, the split
count, and its grid. -/
structure Taken where
  e : Nat
  first : Nat
  len : Nat
  pw : List Nat
  gen : Nat
  cgen : Nat
  split : Nat
  grid : PlaneGrid
deriving DecidableEq, Repr

/-- An interval of a view and input (R217): the indices `e0` to `e1` − 1. -/
structure Interval where
  e0 : Nat
  e1 : Nat
  /-- spectra present, newest first. -/
  specs : List Taken
  late : Nat
  short : Bool
  step : Nat
  dgen : Nat
  pgen : Nat
  grid : PlaneGrid
  /-- density map of the interval (HIST), or of the view at its close (PERSIST); hold values at its close. -/
  raster : List Nat
  hold : List Nat
  /-- a map cell saturated. -/
  full : Bool
  /-- the view's descriptor words when the interval began. -/
  desc : List Word
deriving DecidableEq, Repr

/-- What an entry of a view accumulates across intervals (R214, R222): the hold, whether a clear of it waits for the next spectrum, the
persistence raster, and the index up to which its decay ticks have been applied. -/
structure ViewSum where
  hold : List Nat
  holdClr : Bool
  persist : List Nat
  tick : Option Nat
deriving DecidableEq, Repr

def ViewSum.reset : ViewSum := { hold := [], holdClr := false, persist := [], tick := none }

/-- One input of a view. -/
structure ViewIn where
  running : Bool
  /-- the first interval's first index and the first sample index of its span, while the view waits for it; none while the plane has no
  index yet. -/
  startAt : Nat
  startOn : Option Nat
  cur : Option Interval
  /-- the last spectrum taken, without its powers (R31). -/
  prev : Option Taken
  /-- indices declared late of intervals not closed (R224). -/
  lates : List Nat
  /-- intervals closed whose record has not been formed, and sketch-plane records held (R218), oldest first. -/
  closed : List Interval
  held : List Interval
  /-- records emitted (INTCNT). -/
  count : Nat
  fin : Bool
  sum : ViewSum
  /-- that sum as it stood where a commit's new bank is to begin (R227). -/
  mark : Option ViewSum
  step : Nat
  /-- change-only state (R230, R231): references, whether an anchor has been emitted, its number, tag, TQ, plane generation,
  step and interval number, and class and flags of the previous record. -/
  refs : List Int
  anchored : Bool
  ancNo : Nat
  ancTag : Nat
  ancTq : Nat
  ancGen : Nat
  ancStep : Nat
  ancQ : Nat
  prevClass : Nat
  prevFlags : Nat
deriving DecidableEq, Repr

def ViewIn.reset : ViewIn :=
  { running := false, startAt := 0, startOn := none, cur := none, prev := none, lates := [], closed := [], held := [], count := 0,
    fin := false, sum := ViewSum.reset, mark := none, step := 0, refs := [], anchored := false, ancNo := 0, ancTag := 0, ancTq := 0, ancGen := 0,
    ancStep := 0, ancQ := 0, prevClass := 0, prevFlags := 0 }

/-- SK flags of an interval as the trigger units see them (R213): tag, TQ, and the flagged cells. -/
structure SkFlags where
  q : Nat
  first : Nat
  len : Nat
  tag : Nat
  tq : Nat
  part : Bool
  cells : List Bool
  cgen : Nat
  /-- its interval and the next one begin at these numbers of the plane's grid, of which one turn has `turn`; the grid's hop. -/
  e0 : Nat
  e1 : Nat
  turn : Nat
  pitch : Nat
deriving DecidableEq, Repr

structure Detect where
  /-- view inputs by view × 256 + input (or tuner). -/
  ins : Tbl ViewIn
  /-- ladder steps ordered and not yet taken, by view. -/
  ordered : Tbl (Option Nat)
  /-- views that are to start again once their drain has finished (R227). -/
  restart : List Nat
  /-- views that have not swapped in the commit under way. -/
  left : List Nat
  /-- the last SK flags by view × 256 + input. -/
  sk : Tbl (Option SkFlags)
  /-- the old descriptor of a DRAINING view, which the admission check still charges (19 R572). -/
  drains : Tbl (List Word)
  /-- view, gallery and bytes of the stores of the live bank (R209). -/
  stores : List (Nat × Nat × Nat)
deriving DecidableEq, Repr

def Detect.reset : Detect := { ins := [], ordered := [], restart := [], left := [], sk := [], drains := [], stores := [] }

/-! ### 09_triggers.md -/

/-- A qualifying run of an element (R275): its count, index of its first product, first sample index of that product's span,
whether a product was partial, and the spans of its products. -/
structure TrigRun where
  count : Nat
  first : Nat
  sample : Nat
  part : Bool
  spans : List (Nat × Nat)
deriving DecidableEq, Repr

def TrigRun.reset : TrigRun := ⟨0, 0, 0, false, []⟩

/-- The place of a product in its element's sequence: its number there and the number that follows it, the numbers in one turn, the hop
of their grid (0 where the source has no grid), its first sample index, and its generations. -/
structure TrigPlace where
  num : Nat
  next : Nat
  turn : Nat
  pitch : Nat
  first : Nat
  gen : Nat
  cgen : Nat
deriving DecidableEq, Repr

/-- One element of a unit: edge state (0 UNKNOWN, 1 LOW, 2 HIGH; R268), the place of its last product, and its run. -/
structure TrigElem where
  edge : Nat
  last : Option TrigPlace
  run : TrigRun
deriving DecidableEq, Repr

def TrigElem.reset : TrigElem := ⟨0, none, TrigRun.reset⟩

/-- A product of a discrete source on its way to a unit (R272 to R274): index, condition tag and TQ, and for PAIR the
record's bytes 16 to 51. -/
structure TrigPulse where
  idx : Nat
  tag : Nat
  tq : Nat
  body : List Byte
deriving DecidableEq, Repr

/-- A completed condition on its way to its decision (R277): the time base's accumulator at completion, element, the
completing product, its run, and marks for the record. -/
structure TrigDone where
  at_ : Nat
  elem : Nat
  idx : Nat
  tag : Nat
  tq : Nat
  viol : Nat
  cell : Nat
  run : TrigRun
  multi : Bool
  forced : Bool
  sched : Bool
  body : List Byte
deriving DecidableEq, Repr

/-- A trigger unit. -/
structure TrigUnit where
  elems : Tbl TrigElem
  /-- products of a discrete source not judged yet, oldest first, the count of those so far, and the single count. -/
  queue : List TrigPulse
  seq : Nat
  single : TrigRun
  /-- the completed condition. -/
  comp : Option TrigDone
  /-- the tag of a pending force (FPEND). -/
  force : Option Nat
  /-- a disarm arrived during the firing, and the firing was forced from DISARMED (R278). -/
  disarm : Bool
  fromDisarmed : Bool
  /-- decision tag of the last firing, for hold-off and gates. -/
  dec : Option Nat
  /-- the time base's accumulator when it was last armed from DISARMED, and last disarmed, by an arm or disarm (R279). -/
  armAt : Option Nat
  offAt : Option Nat
  /-- arm number, and the arm number records carry. -/
  arm : Nat
  armRec : Nat
  /-- suppressed products and lost records since the previous record. -/
  supp : Nat
  lost : Nat
deriving DecidableEq, Repr

def TrigUnit.reset : TrigUnit :=
  { elems := [], queue := [], seq := 0, single := TrigRun.reset, comp := none, force := none, disarm := false,
    fromDisarmed := false, dec := none, armAt := none, offAt := none, arm := 0, armRec := 0, supp := 0, lost := 0 }

/-- A trigger record held or queued (R286, R287): its unit, the streams that have not taken it, its body; for a held one the
input and the spans of its run. -/
structure TrigRecord where
  unit : Nat
  streams : List Nat
  body : List Byte
  input : Nat
  spans : List (Nat × Nat)
deriving DecidableEq, Repr

/-- A TRIG_OUT pin (R285, R291): the fabric calls for its active level, the level it shows, end of the pulse under way, pulses
to come (start tag and width in units of 5 ns), and the settings TOUT_CFG in force until old pulses have ended, with the
switch-over point. -/
structure TrigOut where
  active : Bool
  level : Bool
  ends : Option Nat
  sched : List (Nat × Nat)
  old : Option (Word × Nat)
deriving DecidableEq, Repr

def TrigOut.reset : TrigOut := ⟨false, false, none, [], none⟩

/-- An arm group: its arm number, a pair arm to come (tag and number), and whether it has been released since its arm. -/
structure TrigGroup where
  arm : Nat
  pend : Option (Nat × Nat)
  fired : Bool
deriving DecidableEq, Repr

def TrigGroup.reset : TrigGroup := ⟨0, none, false⟩

structure Triggers where
  units : Tbl TrigUnit
  groups : Tbl TrigGroup
  pins : Tbl TrigOut
  held : List TrigRecord
  queue : List TrigRecord
  /-- units that have not swapped in the commit under way. -/
  left : List Nat
  /-- the levels at the TRIG_IN pins. -/
  ins : Tbl Bool
deriving DecidableEq, Repr

def Triggers.reset : Triggers := { units := [], groups := [], pins := [], held := [], queue := [], left := [], ins := [] }


/-! ### 10_recorder_and_capture.md -/

/-- A page written to the ring or the watch ring (R299): the DMA address of its header, its slot, and what the header says. -/
structure RecPage where
  addr : Nat
  slot : Nat
  first : Nat
  count : Nat
  tag : Nat
  tq : Nat
  gaps : Nat
  seq : Nat
  c16 : Bool
  watch : Bool
deriving DecidableEq, Repr

/-- A page being filled: its slot, first index, samples newest first, gap samples, format and ingress generation. -/
structure RecFill where
  slot : Nat
  first : Nat
  data : List (Int × Int)
  gaps : Nat
  c16 : Bool
  gen : Nat
deriving DecidableEq, Repr

/-- One recorded input. -/
structure RecInput where
  /-- base_n and p_n (R295), and slots given up (R318). -/
  base : Nat
  slots : Nat
  given : List Nat
  /-- the next slot of the writer, the next page sequence number, slots reserved for the drain (R315). -/
  next : Nat
  seq : Nat
  reserved : List Nat
  /-- pages of the ring and of the watch ring, newest first, the pages being filled, and the watch ring's next slot. -/
  pages : List RecPage
  fill : Option RecFill
  watch : List RecPage
  wfill : Option RecFill
  wnext : Nat
  /-- no slot was free for the last index (R296). -/
  hole : Bool
deriving DecidableEq, Repr

def RecInput.reset : RecInput :=
  { base := 0, slots := 0, given := [], next := 0, seq := 0, reserved := [], pages := [], fill := none, watch := [],
    wfill := none, wnext := 0, hole := false }

/-- A window of a capture on one input (R302): 48-byte entry of R307, and the samples at its start that the capture may hold, fewer than
its length where it was cut (R313). -/
structure CapWin where
  input : Nat
  status : Nat
  first : Nat
  len : Nat
  lim : Nat
  rate : Nat
  c16 : Bool
  pages : Nat
deriving DecidableEq, Repr

/-- A capture (R301 to R310): descriptor, number, slot and the slot's words at the request, unit and firing number, condition
tag and TQ, windows, and its progress. -/
structure Capture where
  desc : Nat
  num : Nat
  slot : Nat
  words : List Word
  unit : Nat
  firing : Nat
  tag : Nat
  tq : Nat
  wins : List CapWin
  mapped : Bool
  cut : Bool
  /-- 1 FILLING, 2 HELD, 3 READING. -/
  state : Nat
  /-- statistics have been delivered; samples lost to memory errors; samples bytes delivered. -/
  stats : Bool
  lost : Nat
  gen : Nat
deriving DecidableEq, Repr

/-- The ladder's state of a stream (R319, R320). -/
structure Ladder where
  hold : Nat
  low : Nat
  lastDown : Bool
  overflow : Bool
  discs : Nat
  bytes : Nat
deriving DecidableEq, Repr

def Ladder.reset : Ladder := ⟨0, 0, false, false, 0, 0⟩

structure Recorder where
  inputs : Tbl RecInput
  captures : List Capture
  /-- the watch ring is in HOLD (R315). -/
  hold : Bool
  ladder : Tbl Ladder
deriving DecidableEq, Repr

def Recorder.reset : Recorder := { inputs := [], captures := [], hold := false, ladder := [] }



/-! ### 11_cross_spectral.md -/

/-- A spectrum as the seam releases it (R328 to R330, R350): seam index, coarse generation, the ranks present and the ranks
partial, the galleries that dropped it (R332), C8 cells, and each rank's values on the band. -/
structure XSpec where
  m : Nat
  gen : Nat
  here : List Bool
  part : List Bool
  drop : Nat
  c8 : Bool
  vals : List (List (Int × Int))
deriving DecidableEq, Repr

/-- An interval (R347): its number, first index, coarse generation, the spectra it spans (index, ranks present, galleries that
dropped it; newest first), the bench sums and the gallery SRAM accumulators of the visibilities by band bin and product
(R339, R340), those of the power beams by band bin and beam (R345), bins with a saturated beam value, the marks SHORT and
SPLIT, the window's words, generation and next dump slot, hop and window length of the seam grid, and the run (R359) whose store
holds it. -/
structure XInt where
  q : Nat
  m0 : Nat
  gen : Nat
  specs : List (Nat × List Bool × Nat)
  bench : List (List (Int × Int))
  acc : List (List (Int × Int))
  bbench : List (List Nat)
  bacc : List (List Nat)
  bsat : List Nat
  short : Bool
  split : Bool
  regs : Tbl Word
  xgen : Nat
  slot : Nat
  hop : Nat
  len : Nat
  run : Nat
deriving DecidableEq, Repr

/-- Voltage beams of one spectrum (R346): index, coarse generation, dropping galleries, whether every rank was present, bins with a
saturation, the values by band bin and beam, the window's words and generation, the seam grid and the run, and the bins whose
record is emitted. -/
structure XVolt where
  m : Nat
  gen : Nat
  drop : Nat
  whole : Bool
  sat : List Nat
  vals : List (List (Int × Int))
  regs : Tbl Word
  xgen : Nat
  hop : Nat
  len : Nat
  run : Nat
  sent : List Nat
deriving DecidableEq, Repr

/-- A spectrum marked absent (R330): first index and hop of its window, and the input. -/
structure XAbsent where
  first : Nat
  hop : Nat
  input : Nat
deriving DecidableEq, Repr

structure Cross where
  /-- the first index of the spectrum the seam releases next, and the instant whose first boundary the engine waits for where there
  is none. -/
  next : Option Nat
  since : Nat
  /-- hop and window length of the seam grid released last, and the number of swaps (R359). -/
  hop : Nat
  len : Nat
  run : Nat
  absent : List XAbsent
  /-- first index and hop of the spectra at failed skew checks (R331). -/
  skewed : List (Nat × Nat)
  /-- landing buffers: the last 4 spectra, newest first (R332). -/
  landing : List XSpec
  cur : Option XInt
  /-- the next interval begins with SPLIT (R350). -/
  split : Bool
  /-- intervals whose cells are all released, and closed intervals in their dump copies, oldest first. -/
  ended : List XInt
  dumps : List XInt
  /-- voltage values whose records are not all emitted, newest first. -/
  volts : List XVolt
  /-- live and staged weights by the index of R343. -/
  weights : Tbl Nat
  staged : Tbl Nat
  /-- the first index of the swap's spectrum in the commit under way, and a swap whose old dump has not finished (R359, R360). -/
  swapAt : Option Nat
  draining : Bool
  /-- the lowest CK_CORE in Hz at which no tile's cost exceeds its capacity (R361). -/
  need : Nat
deriving DecidableEq, Repr

def Cross.reset : Cross :=
  { next := none, since := 0, hop := 0, len := 0, run := 0, absent := [], skewed := [], landing := [], cur := none, split := false, ended := [],
    dumps := [], volts := [], weights := [], staged := [], swapAt := none, draining := false, need := 0 }



/-! ### 12_tile_programming_model.md -/

/-- A hardware loop level beside its counter (R371): body start, address of the last bundle, rotate flag. -/
structure LoopLevel where
  start : Nat
  last : Nat
  rot : Bool
deriving DecidableEq, Repr

def LoopLevel.reset : LoopLevel := ⟨0, 0, false⟩

/-- One register set (R368): physical D registers; accumulators; P, B, L and M registers by X index (R422); loop counters;
predicates Q7 to Q0 as bits, bit 0 reading 1; PRG; the fields of SR but LVL; PC; and the loop levels. -/
structure RegSet where
  d : Tbl Word
  acc : Tbl (Int × Int)
  x : Tbl Word
  lc0 : Nat
  lc1 : Nat
  q : Nat
  prg : Nat
  ie : Bool
  l1a : Bool
  l0a : Bool
  sat : Bool
  aov : Bool
  drop : Bool
  rrb : Nat
  pc : Nat
  loop0 : LoopLevel
  loop1 : LoopLevel
deriving DecidableEq, Repr

def RegSet.reset : RegSet :=
  { d := [], acc := [], x := [], lc0 := 0, lc1 := 0, q := 1, prg := 0, ie := false, l1a := false, l0a := false,
    sat := false, aov := false, drop := false, rrb := 0, pc := 0, loop0 := LoopLevel.reset, loop1 := LoopLevel.reset }

/-- A long bench instruction that runs or is suspended (R381 to R383): opcode, latched parameter block, granules in all. -/
structure LongOp where
  op : Nat
  block : List Byte
  total : Nat
deriving DecidableEq, Repr

/-- What a tile holds beside its registers in the window. -/
structure Tile where
  main : RegSet
  shadow : RegSet
  lvl : Bool
  /-- syllables of the bundle being collected. -/
  bundle : List Word
  /-- bench accumulators (R376, R425). -/
  bench : Tbl (Int × Int)
  long : Option LongOp
  /-- a granule is under way (R380). -/
  busy : Bool
  /-- an interrupt accepted for the granule's end (R382). -/
  wantInt : Bool
  /-- the command in progress and the held one (R394): 2 HALT, 3 RESET, 1 RUN. -/
  cmd : Option Nat
  held : Option Nat
  /-- waiting in IDLE (R424). -/
  idle : Bool
  /-- the two program banks by syllable address (R397). -/
  bank0 : Tbl Word
  bank1 : Tbl Word
  /-- CK_CORE cycles since the last count of each timer (R386). -/
  presc : Tbl Nat
  /-- clock-gated (21 R622), and running at the entry to Watch mode (R396). -/
  gated : Bool
  resume : Bool
  /-- TTAG_L and TTAG_M of the software trigger port, and the tag its last write of TTAG_H loaded (R393). -/
  ttagL : Word
  ttagM : Word
  ttag : Nat
deriving DecidableEq, Repr

def Tile.reset : Tile :=
  { main := RegSet.reset, shadow := RegSet.reset, lvl := false, bundle := [], bench := [], long := none, busy := false,
    wantInt := false, cmd := none, held := none, idle := false, bank0 := [], bank1 := [], presc := [], gated := false,
    resume := false, ttagL := 0, ttagM := 0, ttag := 0 }

/-- A ring slot (R389 to R391): blocks lost before the next one, index and series expected next, and the ring's RBASE and RLEN
when the slot was given. -/
structure RingSlot where
  lost : Nat
  next : Option (Nat × Nat)
  base : Nat
  len : Nat
deriving DecidableEq, Repr

def RingSlot.reset : RingSlot := ⟨0, none, 0, 0⟩

/-- A request on the fabric (R404): a load (address, width, opcode, level, physical destinations), a store (address, width, value), a
lock operation (acquire or release, lock, level, physical destination), a write of the software trigger port, and a slot of a DMA
channel (channel, elements moved). -/
inductive FabReq where
  | load (a w op : Nat) (lvl : Bool) (dst : List Nat)
  | store (a w v : Nat)
  | lock (acq : Bool) (n : Nat) (lvl : Bool) (dst : Nat)
  | port (o v : Nat)
  | slot (c k : Nat)
deriving DecidableEq, Repr

structure Tiles where
  tile : Tbl Tile
  /-- ring slots by tile × 16 + slot. -/
  rings : Tbl RingSlot
  /-- outcome of each requester's last operation on each lock, by requester × 256 + lock (R406). -/
  lockLast : Tbl Nat
  /-- the queue of each requester, tiles 0 to 63 and the DMA engine of gallery g as 64 + g; one more than the requester each shared
  target served last; and one more than each lock's last grantee (R403, R404). -/
  queues : Tbl (List FabReq)
  served : Tbl Nat
  grantee : Tbl Nat
deriving DecidableEq, Repr

def Tiles.reset : Tiles := { tile := [], rings := [], lockLast := [], queues := [], served := [], grantee := [] }



/-! ### 14_gallery_dma.md -/

/-- A completion record waiting for queue space (R450), with what follows its write: status, flags and bytes. -/
structure DmaRec where
  status : Nat
  flags : Nat
  len : Nat
deriving DecidableEq, Repr

/-- A DMA channel beside its registers: the descriptor that passed its checks (R435), a STOP (false) or ABORT (true) in
progress, the held command, the record that waits, the state a pause interrupted (R448), the elements moved, the bytes replaced
in them (R447), and the link word as the end-mark read found it (R443). -/
structure Channel where
  desc : Option (List Byte)
  stopping : Option Bool
  held : Option Nat
  waiting : Option DmaRec
  paused : Bool
  moved : Nat
  lost : Nat
  link : Option Nat
deriving DecidableEq, Repr

def Channel.reset : Channel := ⟨none, none, none, none, false, 0, 0, none⟩

structure Dma where
  /-- channels by gallery × 16 + channel. -/
  ch : Tbl Channel
  /-- channel each engine served last, and the slots it has had in this round (R439). -/
  turn : Tbl (Nat × Nat)
deriving DecidableEq, Repr

def Dma.reset : Dma := ⟨[], []⟩


/-! ### 15_memory_system.md -/

/-- Every addressed memory in one: a list of (address, byte) pairs by the DMA address of 14 R431 — HBM at space 0, gallery
SRAM at space 1, tile memory at space 2. An address not listed reads 0. -/
abbrev Memory := List Host.Cell

/-- What an unlisted address reads as. -/
def memDefault (_ : Nat) : Byte := 0

/-- A logical rank's remap entry (R460, R473, R477): its physical rank, folded ranks and lost ranks. -/
structure Remap where
  phys : Nat
  folded : Bool
  lost : Bool
deriving DecidableEq, Repr

/-- A request of HBM_ACCESS: write, address, data, requester, wrong bytes found. -/
structure HbmReq where
  write : Bool
  addr : Nat
  data : List Byte
  src : Nat
  bad : Nat
deriving DecidableEq, Repr

/-- The HBM system beside its registers. -/
structure MemSys where
  /-- remap entries by logical rank; unlisted: the rank's own number. -/
  remap : Tbl Remap
  /-- poisoned ECC words, by HBM address ÷ 32 (R469). -/
  poison : List Nat
  /-- physical ranks whose migration waits, in order of cause (R472). -/
  waiting : List Nat
  /-- the migration under way: logical rank, source, and target (none: a fold). -/
  mig : Option (Nat × Nat × Option Nat)
  /-- open rows and refreshes owed, by physical rank × 16 + bank (R463, R466). -/
  rows : Tbl (Option Nat)
  owed : Tbl Nat
  /-- pseudo-channels in power-down (1) or self-refresh (2) (R479). -/
  power : Tbl Nat
  /-- requests held while their rank's remap entry has no two agreeing copies, oldest first (R474). -/
  held : List HbmReq
deriving DecidableEq, Repr

def Remap.plain (u : Nat) : Remap := ⟨u, false, false⟩

def MemSys.reset : MemSys :=
  { remap := [], poison := [], waiting := [], mig := none, rows := [], owed := [], power := [], held := [] }


/-! ### 16_output_streams.md -/

/-- A record in a stream's queue (R487): WRF type, whether it is a VITA packet sent without WRF framing (R500), its sequence
number, its bytes, how many of them its destination has taken, the destination and network entry in force when it entered, in a pair
whether its ORDER is acknowledged (23 R675), which of the stream's queues holds it (R519), and whether a word of it was found
uncorrectable after its check pass (R491). -/
structure QRec where
  kind : Nat
  raw : Bool
  seq : Nat
  bytes : List Byte
  taken : Nat
  dest : Nat
  sel : Nat
  net : Nat
  acked : Bool
  line : Nat
  hurt : Bool
deriving DecidableEq, Repr

/-- Records discarded and not yet declared by a LOSS record (R490, R494): cause, records, bytes, protected ones, and the time
base at the first and the last discard. -/
structure Loss where
  cause : Nat
  records : Nat
  bytes : Nat
  prot : Nat
  first : Option Nat
  last : Nat
deriving DecidableEq, Repr

/-- A record of a standby in SHADOW (23 R675 to R678): its key, the record, and the sequence number of the ORDER that matched
it with that cell's FIRST; the streams generation as the record entered the shadow queue, and whether the queue still holds its
bytes (it had room for them, and HBM has kept them). -/
structure ShadowRec where
  key : Nat
  body : Record
  seq : Option Nat
  first : Bool
  gen : Nat
  held : Bool
deriving DecidableEq, Repr

/-- A disk stream's place in its OPEN extent (R512, R514): extent, offset of the next byte to write, end of the last whole
record written (or of the padding after it) and its sequence number, the same for writes that have completed, the bytes valid of its
last journal entry, and whether the extent takes no further record, one having been discarded after part of it was written. -/
structure DiskPos where
  ext : Nat
  pos : Nat
  goodPos : Nat
  goodSeq : Nat
  donePos : Nat
  doneSeq : Nat
  logged : Nat
  cut : Bool
deriving DecidableEq, Repr

/-- A stream beside its registers. -/
structure Stream where
  queue : List QRec
  /-- protected records that wait (R489), in the order in which they will enter. -/
  waiting : List Record
  loss : Option Loss
  /-- the next record carries FIRST (R486). -/
  first : Bool
  /-- datagram number (R497). -/
  dgram : Nat
  /-- the stream has emitted since the last SENT, and the last sequence number taken by its destination, before the
  first one the number before 0 (23 R675). -/
  emitted : Bool
  sent : Nat
  /-- VITA packets the stream has queued for an Ethernet port: the number the next one's ORDER cell carries (log 76). -/
  packets : Nat
  /-- the disk stream's OPEN extent and the last extent it opened. -/
  disk : Option DiskPos
  lastExt : Nat
  /-- the number of its queue, which a change of QLOG raises, and the older queues that still hold records, with their QLOG (R519). -/
  line : Nat
  olds : List (Nat × Nat)
  /-- records in the shadow queue, oldest first, and sequence numbers marked missing, with the tags at which they were
  (23 R676). -/
  shadow : List ShadowRec
  missing : List (Nat × Nat)
deriving DecidableEq, Repr

def Stream.reset : Stream :=
  { queue := [], waiting := [], loss := none, first := true, dgram := 0, emitted := false, sent := 2 ^ 32 - 1, packets := 0, disk := none, lastExt := 0,
    line := 0, olds := [], shadow := [], missing := [] }

/-- A streaming port (R495, R499): the tag until which PAUSE stops it, the stream served last and its datagrams this round. -/
structure StrPort where
  paused : Option Nat
  last : Nat
  served : Nat
deriving DecidableEq, Repr

def StrPort.reset : StrPort := ⟨none, 4095, 0⟩

/-- A host ring (R506, R507): write-backs not yet signalled, and whether it starves. -/
structure HostRing where
  unsignalled : Nat
  starving : Bool
deriving DecidableEq, Repr

def HostRing.reset : HostRing := ⟨0, false⟩

/-- An extent table entry (R512) without its CRC. -/
structure Extent where
  state : Nat
  stream : Nat
  epoch : Nat
  first : Nat
  last : Nat
  valid : Nat
  opened : Nat
  lastTag : Nat
  blk : Nat
deriving DecidableEq, Repr

def Extent.reset : Extent := ⟨0, 0, 0, 0, 0, 0, 0, 0, 0⟩

/-- A journal entry (R513): kind (1 OPEN, 2 CKPT, 3 SEAL, 4 FREE, 5 KEEP), extent number, and the entry after the change. -/
structure JEntry where
  kind : Nat
  ext : Nat
  image : Extent
deriving DecidableEq, Repr

/-- What a write in flight holds (R513, R514): data of a stream, ending at an offset of its extent, with the last whole record
(or its padding) and the records freed by it; a journal block; or a block of the extent table with the changes it makes
durable (journal block, extent). -/
inductive DiskWrite where
  | data (stream ext goodPos goodSeq : Nat)
  | journal (block : Nat) (entries : List JEntry)
  | table (changes : List (Nat × Nat))
deriving DecidableEq, Repr

/-- A set (R511): identifier, N, SULOG, EXTLOG, J in MiB, L and E, and the capacity of each drive in bytes by drive index. -/
structure DiskSet where
  id : Nat
  n : Nat
  sulog : Nat
  extlog : Nat
  jmib : Nat
  len : Nat
  count : Nat
deriving DecidableEq, Repr

/-- The disk writer. -/
structure Disk where
  set : Option DiskSet
  /-- a controller of the set reports a volatile write cache (R510). -/
  vwc : Bool
  /-- the command under way (OP code) and its arguments. -/
  cmd : Option (Nat × List Nat)
  /-- the extents' entries as the writer keeps them. -/
  extents : Tbl Extent
  /-- table entries as the journal's durable blocks leave them. -/
  durable : Tbl Extent
  /-- the next journal block, entries waiting for it, whether a CKPT period has ended with entries waiting, and changes durable
  in the journal and not yet in the table (block, extent). -/
  block : Nat
  entries : List JEntry
  period : Bool
  undone : List (Nat × Nat)
  /-- writes in flight, oldest first: number, write, completed. -/
  writes : List (Nat × DiskWrite × Bool)
  nextId : Nat
deriving DecidableEq, Repr

def Disk.reset : Disk :=
  { set := none, vwc := false, cmd := none, extents := [], durable := [], block := 1, entries := [], period := false, undone := [],
    writes := [], nextId := 0 }

/-- The streams block beside its registers. -/
structure Streams where
  streams : Tbl Stream
  ports : Tbl StrPort
  rings : Tbl HostRing
  disk : Disk
  /-- streams and rings that have not swapped in the commit under way (R519). -/
  left : List Nat
  ringsLeft : List Nat
deriving DecidableEq, Repr

def Streams.reset : Streams := { streams := [], ports := [], rings := [], disk := Disk.reset, left := [], ringsLeft := [] }

/-! ### 17_display_engine.md -/

/-- A raster of a layer (R523): the view it came from with ROWS, COLS, TOP and STEP, class, LOGM, one count for each map cell (its index
follows GAIN and GSH, R532), and the cycle of its last byte. -/
structure Raster where
  view : Nat
  rows : Nat
  cols : Nat
  top : Nat
  step : Nat
  cls : Nat
  log : Bool
  cells : List Nat
  at_ : Nat
deriving DecidableEq, Repr

/-- A layer's two copies (R523). -/
structure Layer where
  front : Option Raster
  back : Option Raster
deriving DecidableEq, Repr

def Layer.reset : Layer := ⟨none, none⟩

/-- A crosshair (R541): layer and position. -/
structure Glyph where
  layer : Nat
  x : Int
  y : Int
deriving DecidableEq, Repr

/-- An output beside its registers (R523 to R532). -/
structure Output where
  layers : Tbl Layer
  /-- the overlay buffer in force, the cycle of the last write of DSP_FLIP, and the lines fetched for the frame under way: line and its
  words. -/
  buffer : Nat
  flipAt : Option Nat
  lines : Tbl (Option (List Nat))
  /-- a frame is under way; the line and pixel from which it is aborted (R529). -/
  begun : Bool
  abort : Option (Nat × Nat)
  /-- the crosshair drawn, and the one to draw from the next promotion point. -/
  glyph : Option Glyph
  glyphNext : Option Glyph
  /-- the output swaps in the commit under way. -/
  left : Bool
  /-- the AUX transaction under way (OP code). -/
  aux : Nat
deriving DecidableEq, Repr

def Output.reset : Output :=
  { layers := [], buffer := 0, flipAt := none, lines := [], begun := false, abort := none, glyph := none, glyphNext := none, left := false, aux := 0 }

/-- The display engine. -/
structure Display where
  outs : Tbl Output
  /-- touch (R538, R539): a read is on the bus, the STOP of the last read, the last contact and position. -/
  reading : Bool
  stop : Option Nat
  contact : Bool
  x : Int
  y : Int
  /-- the touch settings swap in the commit under way. -/
  touchLeft : Bool
deriving DecidableEq, Repr

def Display.reset : Display := { outs := [], reading := false, stop := none, contact := false, x := 0, y := 0, touchLeft := false }

/-! ### 18_stimulus_and_calibration.md -/

/-- A stimulus channel beside its registers (R545 to R549): the output index of the next sample, T_start and P in units of
2⁻⁸⁰ s, the instant t_c of a start that is still to come, repetitions of the present step that have been played, whether the
next frame carries RESTART, samples not framed yet, and the samples emitted since the start, newest run first (first index,
samples). -/
structure StimChan where
  idx : Nat
  tStart : Int
  period : Nat
  tc : Option Nat
  rep : Nat
  restart : Bool
  buf : List Int
  sent : List (Nat × List Int)
deriving DecidableEq, Repr

def StimChan.reset : StimChan :=
  { idx := 0, tStart := 0, period := 1, tc := none, rep := 0, restart := false, buf := [], sent := [] }

/-- A target of a calibration run (R555 to R566): its number, its status once it is finished, and what it was when the run
began: spectra of the main and of the fine plane produced before MEASURE, and whether its lane held stored equalisation. -/
structure CalTarget where
  target : Nat
  status : Option Nat
  main0 : Nat
  fine0 : Nat
  stored : Bool
deriving DecidableEq, Repr

/-- A target's result (R565, CAL_RES), with what APPLY writes for it: gains per bin, a delay, or trims. -/
structure CalResult where
  target : Nat
  status : Nat
  seam : Bool
  bad : Nat
  coh : Nat
  value : Int
  gains : List Nat
  delay : Int
  trim : Nat × Nat
deriving DecidableEq, Repr

/-- A run of the sequencer (R555). -/
structure CalRun where
  op : Nat
  apply : Bool
  part : Bool
  targets : List CalTarget
  ref : Option CalTarget
deriving DecidableEq, Repr

structure Stim where
  chans : Tbl StimChan
  /-- channels that have not swapped in the commit under way (R554). -/
  left : List Nat
  run : Option CalRun
  /-- results held for OP = APPLY, the OP that gave them, and a FLAT run's table (R563, R565). -/
  kept : List CalResult
  keptOp : Nat
  table : List Nat
deriving DecidableEq, Repr

def Stim.reset : Stim := { chans := [], left := [], run := none, kept := [], keptOp := 0, table := [] }

/-! ### 19_admission_and_configuration.md -/

/-- A request for a check: a commit (or only a check), ASAP (R582, R586), and the instant a request of the partner's came with
(23 R673). -/
structure AdmRequest where
  commit : Bool
  asap : Bool
  at_ : Option Nat
deriving DecidableEq, Repr

/-- A stream's load (R574, R576): its destination and DSEL, and as fractions its bytes per second and those it takes on a port. -/
structure StreamLoad where
  stream : Nat
  dest : Nat
  dsel : Nat
  rate : Nat × Nat
  wire : Nat × Nat
deriving DecidableEq, Repr

/-- The admission check and the commit under way (R582 to R587). -/
structure Admission where
  /-- the request whose check is in progress. -/
  request : Option AdmRequest
  /-- the request held behind it (R586). -/
  held : Option AdmRequest
  /-- the instant of the last accepted commit (R584). -/
  instant : Option Nat
  /-- the instant of the last commit whose instant has arrived: the last change of the coarse plane's generation (06 R200). -/
  genAt : Option Nat
  /-- the blocks the commit names that have not swapped yet (R583). -/
  named : List Blk
  /-- the tiles of ADM_XTILES of the accepted commit that have not been exchanged yet. -/
  xtiles : Nat
  /-- the committed clock an accepted commit moves to, in units of 25 MHz (R570). -/
  clock : Option Nat
  /-- f_commit the walker steers to: the last committed FSTAGE (20 R601). -/
  fcommit : Nat
  /-- since when the running clock has been below f_commit (R587). -/
  degrSince : Option Nat
  /-- bytes of each gallery granted to tiles and DMA by the last accepted commit (R577); none before one. -/
  tsram : List Nat
  /-- the regions the accepted commit grants from its instant on. -/
  grants : List Nat
  /-- base and size of the HBM regions, and view, gallery and bytes of each detector store, that an accepted commit places at its
  instant (R577, 15 R462). -/
  regions : List (Nat × Nat)
  stores : List (Nat × Nat × Nat)
  /-- the registers as they stood when the check in progress began (R571). -/
  began : Tbl Word
  /-- the loads of the streams under the configuration before the last accepted commit, and of those that drained then (R572). -/
  loads : List StreamLoad
  /-- a pair operation waits for the partner's CRESP (23 R673), and the instant it was sent with. -/
  partnerWait : Bool
  asked : Nat
deriving DecidableEq, Repr

/-- No commit; f_commit is 1.6 GHz (R590). -/
def Admission.reset : Admission :=
  { request := none, held := none, instant := none, genAt := none, named := [], xtiles := 0, clock := none, fcommit := 64,
    degrSince := none, tsram := [], grants := [], regions := [], stores := [], began := [], loads := [],
    partnerWait := false, asked := 0 }

/-! ### 20_clocks_and_plls.md -/

/-- The PLLs and clock outputs (R592 to R610). -/
structure Clocks where
  /-- CLK_REF as applied at S03 or RELOCK (R607). -/
  refApplied : Word
  /-- band calibration runs (R598). -/
  bandcal : Bool
  /-- a lock of the root PLL is under way (R606, R607). -/
  locking : Bool
  /-- the GLITCH counter has been read at zero since the last EV038 (R602). -/
  glitchArmed : Bool
  /-- CLKOUT outputs that run: number and ODIV in force (R609). -/
  outputs : Tbl Nat
  /-- pulses left of a GATED burst of SYSREF_OUT (R610). -/
  burst : Nat
  /-- edges of f_REF′ since the last boundary of SYSREF_OUT, and whether a pulse is high (R610). -/
  sysref : Nat
  pulse : Bool
deriving DecidableEq, Repr

/-- From power-on every clock runs in BYPASS (R606). -/
def Clocks.reset : Clocks :=
  { refApplied := 0, bandcal := false, locking := false, glitchArmed := true, outputs := [], burst := 0, sysref := 0, pulse := false }

/-! ### 21_power_thermal_housekeeping.md -/

/-- A mode transition under way (R616 to R619). -/
structure Transition where
  /-- the target mode as PWR_STAT.MODE codes it. -/
  target : Nat
  /-- the instant t_W at which the recorder closed every page, once it has come (R618). -/
  tW : Option Nat
deriving DecidableEq, Repr

/-- A queued urgent conversion (R636). -/
structure Urgent where
  num : Nat
  ch : Nat
  governor : Bool
deriving DecidableEq, Repr

/-- A temperature sensor's history (R631): the last reading, how often it repeated, plausible changing readings in a row
while failed. -/
structure Sensor where
  last : Int
  same : Nat
  good : Nat
deriving DecidableEq, Repr

/-- A monitor entry's passes in a row outside and inside its limits (R635), and its last result and channel (R634). -/
structure HkEntry where
  outRun : Nat
  inRun : Nat
  res : Option (Nat × Nat)
deriving DecidableEq, Repr

/-- The power, thermal and housekeeping controllers. -/
structure Power where
  trans : Option Transition
  /-- the command held during a transition (R617). -/
  held : Option Nat
  /-- island steps queued to rise and to fall, in order (R622, R623). -/
  rises : List Nat
  falls : List Nat
  /-- islands stepped up and not yet usable, and islands up. -/
  rising : List Nat
  up : List Nat
  /-- the next slot's rises are held (R624). -/
  holdNext : Bool
  /-- a VDD_CORE check is due in this slot. -/
  checkDue : Bool
  /-- a forced cause that persists (R619). -/
  cause : Nat
  /-- the die is held in reset by THERMTRIP (R629). -/
  tripHold : Bool
  /-- counters of R627, R628 and R630. -/
  upRun : Nat
  dnRun : Nat
  critRun : Nat
  hbmRun : Nat
  sensors : Tbl Sensor
  hk : Tbl HkEntry
  /-- urgent queues of MC0 and MC1, oldest first, at most 2 (R636). -/
  urg0 : List Urgent
  urg1 : List Urgent
  /-- the number of the last urgent request. -/
  urgNum : Nat
  /-- converter, offset and gain: trims written since the entry under way began, which still uses those before (R633, R637). -/
  trims : List (Nat × Int × Int)
deriving DecidableEq, Repr

/-- The controllers after reset. -/
def Power.reset : Power :=
  { trans := none, held := none, rises := [], falls := [], rising := [], up := [], holdNext := false, checkDue := false,
    cause := 0, tripHold := false, upRun := 0, dnRun := 0, critRun := 0, hbmRun := 0, sensors := [],
    hk := [], urg0 := [], urg1 := [], urgNum := 0, trims := [] }

/-! ### 22_start_security_debug.md -/

/-- One copy of the fuses (R650): lifecycle state, seven key hashes, revocation bits, and the security version counter as 64
thermometer bits. -/
structure Fuses where
  lc : Nat
  keys : List (List Byte)
  revoked : Nat
  svn : Nat
deriving DecidableEq, Repr

/-- Nothing burnt. -/
def Fuses.reset : Fuses := { lc := 0, keys := List.replicate 7 (List.replicate 48 0), revoked := 0, svn := 0 }

/-- A flash command under way (R654): 1 READ, 2 PROGRAM, 3 ERASE, with its address. -/
structure FlashOp where
  op : Nat
  addr : Nat
deriving DecidableEq, Repr

/-- Start, reset, security and debug. -/
structure Security where
  /-- the start step under way: none after S12, in SAFE, and while a reset is held. -/
  step : Option Nat
  /-- RESET_N is asserted; a core supply is not good; the 100 ms after a STEPFAIL reset run (R640). -/
  pin : Bool
  supply : Bool
  wait : Bool
  /-- a step failed in this start and in the previous one (EV081); a SKIP or ALT method was used (EV082). -/
  failed : Bool
  failedLast : Bool
  used : Bool
  /-- S03 and S06 of this start have read their persistent objects from the stored set (02 R44). -/
  early3 : Bool
  early6 : Bool
  /-- a fuse vote disagreement was found (EV093). -/
  vote : Bool
  /-- the keep domain: its two copies, the sequence of the last write and whether it went to copy 0, and whether a valid copy
  was found at the last reset (R643). -/
  keep0 : List Byte
  keep1 : List Byte
  keepSeq : Nat
  keepLast0 : Bool
  keepOk : Bool
  /-- the three fuse copies and a burn under way (R650). -/
  fuse0 : Fuses
  fuse1 : Fuses
  fuse2 : Fuses
  burn : Option Fuses
  /-- the burn is a lifecycle change (R651). -/
  burnLc : Bool
  /-- the vote S04 took. -/
  fuses : Fuses
  /-- the image loaded at S05, and the slot that signed it; the image tried last. -/
  image : Option Nat
  slot : Nat
  tried : Nat
  /-- the SPI_BOOT flash by byte address (R654) and the command under way. -/
  flash : Tbl Byte
  flashOp : Option FlashOp
  /-- a tile verification under way (R655). -/
  verify : Option Nat
  /-- the debug nonce, refusals in a row, and the lockout's length in seconds (R657). -/
  nonce : List Byte
  refusals : Nat
  lockSecs : Nat
  /-- EXTEST is in the instruction register; the boundary-scan cells (R656). -/
  extest : Bool
  cells : List Bool
  /-- withdrawn at S07 and S08: front buffers by input, lane dies (R645, R646). -/
  badFronts : Nat
  badDies : Nat
  /-- the part is of the extended grade WFA-9128-E0 (00 R1, 21 R631). -/
  extended : Bool
  /-- CK_KEEP runs from the crystal (20 R596). -/
  crystal : Bool
deriving DecidableEq, Repr

/-- At a first power-on: the start is at S00, the keep domain holds no valid record, no fuse is burnt, the flash is erased. -/
def Security.reset : Security :=
  { step := some 0, pin := false, supply := false, wait := false, failed := false, failedLast := false, used := false, early3 := false, early6 := false, vote := false,
    keep0 := [], keep1 := [], keepSeq := 0, keepLast0 := false, keepOk := false, fuse0 := Fuses.reset, fuse1 := Fuses.reset,
    fuse2 := Fuses.reset, burn := none, burnLc := false, fuses := Fuses.reset, image := none, slot := 0, tried := 0, flash := [], flashOp := none,
    verify := none, nonce := [], refusals := 0, lockSecs := 0, extest := false, cells := [], badFronts := 0,
    badDies := 0, extended := false, crystal := false }

/-! ### 23_redundant_pair.md -/

/-- A class 2 cell of the link (R663): link sequence number, type and content. -/
structure LinkCell where
  seq : Nat
  type : Nat
  content : List Byte
deriving DecidableEq, Repr

/-- An ORDER cell that no record has matched (R676): stream, key, sequence number, digest. -/
structure OrderCell where
  stream : Nat
  first : Bool
  key : Nat
  seq : Nat
  digest : Nat
deriving DecidableEq, Repr

/-- A PAIR firing received (R684): the FIREA that waits for its FIREB: message identifier, partner unit, firing number, condition
tag. -/
structure PairFire where
  id : Nat
  unit : Nat
  firing : Nat
  tag : Nat
deriving DecidableEq, Repr

/-- The Dziast link and the pair. -/
structure Pair where
  /-- a HEARTBEAT has been received since the link came up. -/
  heard : Bool
  /-- a JOIN has been exchanged and the roles are settled; the primary's EPOCH and INDEX cells have been sent. -/
  settled : Bool
  /-- the partner's power mode, promotion count and configuration digest as last received. -/
  pmode : Nat
  pcount : Nat
  pdigest : Option Nat
  /-- every stream of the standby is in SHADOW (R675). -/
  shadow : Bool
  /-- the primary no longer waits for acknowledgements (R681), or has stopped admitting records for a switchover (R682). -/
  alone : Bool
  switching : Bool
  /-- class 2 transmission: next link sequence number, cells unacknowledged and cells waiting, oldest first. -/
  txSeq : Nat
  unacked : List LinkCell
  txWait : List (Nat × List Byte)
  /-- class 2 reception: the next number expected; identifiers of class 0 cells received, newest first. -/
  rxNext : Nat
  seen : List Nat
  /-- message identifier of the next class 0 or 1 cell. -/
  msgId : Nat
  /-- SYNC: transmit stamp and identifier of this engine's SYNCs not answered, newest first; the partner's last SYNC:
  identifier and receive stamp. -/
  syncSent : List (Nat × Nat)
  syncIn : Option (Nat × Nat × Nat)
  /-- measurements of the time lock in a row: inside, outside; the first of a join is to come. -/
  lockRun : Nat
  badRun : Nat
  /-- SYNC intervals in a row without a measurement. -/
  silent : Nat
  firstTheta : Bool
  /-- unmatched ORDER cells, oldest first; the last ORDER key of each producer (kind, number, element). -/
  orders : List OrderCell
  lastKeys : List (Nat × Nat)
  /-- the last ORDER and SENT sequence number of each stream. -/
  orderEnd : Tbl Nat
  sentEnd : Tbl Nat
  /-- a request received for the partner's commit check (R673): generation, instant, digest. -/
  creq : Option (Nat × Nat × Nat)
  /-- offsets i − c received in INDEX cells (R670), by input: 0 none, else offset + 1. -/
  offsets : Tbl Nat
  /-- firings received whose FIREB has not come (R684). -/
  fires : List PairFire
  /-- DZ_CFG in force since the pair joined (R685). -/
  cfg : Word
  /-- the TRIG_OUT pin that carries the witness's square wave (R680). -/
  wave : Option Nat
  /-- lanes that hold the equalisation of a full adaptation, and lanes whose adaptation under way is a full one (R662, R118). -/
  trained : List Nat
  full : List Nat
  /-- the engine has left the pair until REJOIN (R668). -/
  left : Bool
deriving DecidableEq, Repr

def Pair.reset : Pair :=
  { heard := false, settled := false, pmode := 0, pcount := 0, pdigest := none, shadow := false, alone := false, switching := false,
    txSeq := 0, unacked := [], txWait := [], rxNext := 0, seen := [], msgId := 0, syncSent := [], syncIn := none, lockRun := 0,
    badRun := 0, silent := 0, firstTheta := true, orders := [], lastKeys := [], orderEnd := [], sentEnd := [], creq := none, offsets := [],
    fires := [], cfg := 0, wave := none, trained := [], full := [], left := false }

/-! ### The whole machine -/

/-- The state of the engine. -/
structure State where
  /-- every register word that does not hold its reset value, by BAR0 offset (02 R62). -/
  regs : Tbl Word
  /-- free values taken so far (Config.free). -/
  freeCount : Nat
  /-- what has left the engine, newest first. -/
  out : List Out
  ctl : Control
  tb : TimeBase
  ing : Ingress
  front : Front
  fine : Fine
  det : Detect
  tun : Tuners
  adm : Admission
  clk : Clocks
  pwr : Power
  trg : Triggers
  /-- HBM, gallery SRAM and tile memory by DMA address (14 R431). -/
  mem : Memory
  msys : MemSys
  rcd : Recorder
  xsp : Cross
  tls : Tiles
  dma : Dma
  str : Streams
  pair : Pair
  dsp : Display
  stm : Stim
  sec : Security
  /-- closed records that have not entered their streams' queues yet, oldest first: stream, time base, record. -/
  closed : List (Nat × Nat × Record)
  /-- the queue of waiting commands, first in, first out. -/
  pending : List Instr
deriving DecidableEq, Repr

/-- Why the block stops. Closed: no command of this model ends in one. -/
inductive Fault where
  /-- never raised: the spec names no behaviour that stops the block (02 R62: no access causes an error completion). Safe. -/
  | stuck
deriving DecidableEq, Repr

/-- Why a command has no meaning. -/
inductive Refusal where
  /-- raised by an arm of exec whose command has no meaning yet. Safe: nothing is proved of it. -/
  | notModelled (mnemonic : String)
deriving DecidableEq, Repr

/-- The machine right after a power-on reset: every register at its reset value, every queue empty. -/
def State.reset : State :=
  { regs := [], freeCount := 0, out := [], ctl := Control.reset, tb := TimeBase.reset, ing := Ingress.reset, front := Front.reset, fine := Fine.reset, det := Detect.reset, tun := Tuners.reset, adm := Admission.reset,
    clk := Clocks.reset, pwr := Power.reset, trg := Triggers.reset, mem := [], msys := MemSys.reset, rcd := Recorder.reset, xsp := Cross.reset, tls := Tiles.reset, dma := Dma.reset, str := Streams.reset, pair := Pair.reset, dsp := Display.reset, stm := Stim.reset, sec := Security.reset, closed := [], pending := [] }

end Sys2Proof.Machine
end

