-- ==== Sys2Proof/Machine/Table.lean ====
section
/-!
DEFINITION. Operations on sparse tables: keys strictly rising, no entry equal to the value an unlisted key holds.
-/
namespace Sys2Proof.Machine

/-- The value at key `k`; `d k` where nothing is listed. -/
def tget {α : Type} (d : Nat → α) : Tbl α → Nat → α
  | [], k => d k
  | (j, v) :: m, k => if k = j then v else tget d m k

/-- `m` without the entries of key `k`. -/
def terase {α : Type} : Tbl α → Nat → Tbl α
  | [], _ => []
  | (j, v) :: m, k => if k = j then terase m k else (j, v) :: terase m k

/-- `m` with `v` listed at key `k`. -/
def tinsert {α : Type} : Tbl α → Nat → α → Tbl α
  | [], k, v => [(k, v)]
  | (j, u) :: m, k, v =>
    if k = j then (k, v) :: m else if k < j then (k, v) :: (j, u) :: m else (j, u) :: tinsert m k v

/-- `m` with key `k` holding `v`: the entry is removed where `v` is what an unlisted key holds. -/
def tset {α : Type} [DecidableEq α] (d : Nat → α) (m : Tbl α) (k : Nat) (v : α) : Tbl α :=
  if v = d k then terase m k else tinsert m k v

/-- The keys of `m` rise strictly from above `lb`, and no entry equals its default. -/
def twfFrom {α : Type} [DecidableEq α] (d : Nat → α) : Nat → Tbl α → Bool
  | _, [] => true
  | lb, (j, v) :: m => decide (lb ≤ j) && decide (v ≠ d j) && twfFrom d (j + 1) m

/-- The canonical form of a sparse table. -/
def twf {α : Type} [DecidableEq α] (d : Nat → α) (m : Tbl α) : Bool := twfFrom d 0 m

end Sys2Proof.Machine
end

