-- ==== Sys2Proof/Machine/Ops.lean ====
section
/-!
DEFINITION. The named operations every block uses: reading and writing a register's place, what leaves the engine, free
values, raising an event (02_control_access.md R75, R76), flags and spoil counters, and the swap of banks (R29, R64).
-/
namespace Sys2Proof.Machine

/-- The outcome of a command of this model. -/
abbrev Res := Host.Outcome State Fault Refusal

/-! ### Registers -/

/-- The word held at offset `o`. -/
def State.word (s : State) (o : Nat) : Word := tget resetWord s.regs o

/-- `s` with the word at offset `o` holding `v`. -/
def State.setWord (s : State) (o : Nat) (v : Word) : State := { s with regs := tset resetWord s.regs o v }

/-- The value at a place. -/
def State.get (s : State) (l : Loc) : Nat := bits (s.word l.off).toNat l.lo l.w

/-- The value at a place as a two's complement number. -/
def State.getI (s : State) (l : Loc) : Int := sext l.w (s.get l)

/-- A one-bit place. -/
def State.on (s : State) (l : Loc) : Bool := decide (s.get l = 1)

/-- `s` with the place holding `v` (its low bits). -/
def State.put (s : State) (l : Loc) (v : Nat) : State :=
  s.setWord l.off (BitVec.ofNat 32 (putBits (s.word l.off).toNat l.lo l.w v))

/-- `s` with the place holding `v`, two's complement. -/
def State.putI (s : State) (l : Loc) (v : Int) : State := s.put l (toU l.w (satS l.w v))

/-- `s` with a one-bit place holding `b`. -/
def State.flag (s : State) (l : Loc) (b : Bool) : State := s.put l (b2n b)

/-- The value of a pair of words, low word first. -/
def State.get64 (s : State) (lo hi : Loc) : Nat := s.get lo + s.get hi * 2 ^ 32

/-- `s` with a pair of words holding `v`. -/
def State.put64 (s : State) (lo hi : Loc) (v : Nat) : State := (s.put lo v).put hi (v / 2 ^ 32)

/-- The value of three words, lowest first (a time tag). -/
def State.get96 (s : State) (l m h : Loc) : Nat := s.get l + s.get m * 2 ^ 32 + s.get h * 2 ^ 64

/-- `s` with three words holding `v`. -/
def State.put96 (s : State) (l m h : Loc) (v : Nat) : State :=
  ((s.put l v).put m (v / 2 ^ 32)).put h (v / 2 ^ 64)

/-- A counter at a place advanced by `k`, saturating. -/
def State.count (s : State) (l : Loc) (k : Nat) : State := s.put l (satAdd l.w (s.get l) k)

/-- A counter at a place advanced by `k`, wrapping. -/
def State.wrap (s : State) (l : Loc) (k : Nat) : State := s.put l (s.get l + k)

/-- A 64-bit saturating counter advanced by `k`. -/
def State.count64 (s : State) (lo hi : Loc) (k : Nat) : State := s.put64 lo hi (satAdd 64 (s.get64 lo hi) k)

/-! ### What leaves the engine, and free values -/

/-- `s` after `x` has left the engine. -/
def State.emit (s : State) (x : Out) : State := { s with out := x :: s.out }

/-- The next free value of `w` bits. -/
def State.free (s : State) (w : Nat) : Nat := (Config.free s.freeCount w).toNat

/-- `s` after the next free value has been taken. -/
def State.took (s : State) : State := { s with freeCount := s.freeCount + 1 }

/-! ### References and the clock in force -/

/-- Nominal frequency of a CLK_REF code in Hz (20 R611). -/
def frefHz (code : Nat) : Nat :=
  if code = 0 then 10000000 else if code = 1 then 25000000 else if code = 2 then 50000000
  else if code = 3 then 100000000 else 200000000

/-- The active reference: 1 for REFB (R100). -/
def State.activeRef (s : State) : Nat := s.get Reg.REF_STAT_ACTIVE.z

/-- f_REF′ in Hz of reference `r` under the applied CLK_REF `w` (20 R592). -/
def frefPrime (w : Word) (r : Nat) : Nat :=
  let f := frefHz (if r = 1 then bits w.toNat 22 3 else bits w.toNat 25 3)
  let dh := bits w.toNat 20 2
  if dh = 1 then 2 * f else if dh = 2 then f / 2 else f

/-- PDIV of reference `r` under the applied CLK_REF (20 R592). -/
def pdivOf (w : Word) (r : Nat) : Nat := (if r = 1 then bits w.toNat 12 4 else bits w.toNat 16 4) + 1

/-- f_PFD in Hz (20 R592). -/
def fpfd (w : Word) (r : Nat) : Nat := frefPrime w r / pdivOf w r

/-- f_REF′ of the active reference. -/
def State.fref (s : State) : Nat := frefPrime s.clk.refApplied s.activeRef

/-- f_CORE in Hz: N × f_PFD ÷ 4, or 100 MHz in BYPASS (20 R592, R606). -/
def State.fcore (s : State) : Nat :=
  bif le (s.get Reg.CLK_STAT_STATE.z) 1 then 100000000
  else s.get Reg.CLK_N_N.z * fpfd s.clk.refApplied s.activeRef / 4

/-! ### Time quality (R109) -/

/-- |c| is at its limit SLEW_MAX × 10⁻⁹, in units of 2⁻⁶³. -/
def State.smax (s : State) : Int := rndDiv ((s.get Reg.TB_LOOP_SLEW_MAX.z : Int) * 2 ^ 63) 1000000000

/-- The discipline in force. -/
def State.disc (s : State) : Nat := s.get Reg.TB_CTRL_DISC.z

/-- DISC = PAIR and the time lock holds (R96). -/
def State.pairLock (s : State) : Bool := (s.disc == 3) && s.on Reg.DZ_STAT_TLOCK.z

/-- The source of the discipline is locked or current (R94 to R96). -/
def State.discOk (s : State) : Bool :=
  bif s.disc == 1 then s.tb.locked else bif s.disc == 2 then s.tb.softFresh else s.pairLock

/-- Its source is missing, stale or unlocked, and c is held (R94 to R96); 0 under FREE. -/
def State.discHold (s : State) : Bool :=
  bif s.disc == 1 then !s.tb.ppsQualified else bif s.disc == 2 then !s.tb.softFresh
  else bif s.disc == 3 then !s.pairLock else false

/-- Band of the active reference for TQ: 0b11 on the bypass clock, 0b10 in HOLDOVER (R109, 20 R603). -/
def State.tqBand (s : State) : Nat :=
  bif le (s.get Reg.CLK_STAT_STATE.z) 1 then 3
  else bif s.get Reg.CLK_STAT_STATE.z == 4 then 2
  else min 2 (bif s.activeRef == 1 then s.get Reg.REF_STAT_BAND_B.z else s.get Reg.REF_STAT_BAND_A.z)

/-- TQ[7:0] now (R109). -/
def State.tqLow (s : State) : Nat :=
  b2n s.pairLock * 128 + b2n (s.tb.c.natAbs == s.smax.natAbs) * 64 + b2n s.discHold * 32 + b2n s.discOk * 16
    + b2n s.tb.wasSet * 8 + s.tqBand * 2 + s.activeRef

/-- The 16-bit time quality of a product tagged now, `step` and `model` its own marks (R109). -/
def State.tq (s : State) (step model : Bool) : Nat :=
  (s.get Reg.TB_STATUS_STEPCNT.z % 16) * 4096 + b2n step * 512 + b2n model * 256 + s.tqLow

/-- TQ[7:0] as it stood at tag `tag` on the scale of STEPCNT `k` (R109). -/
def State.tqLowAt (s : State) (k tag : Nat) : Nat :=
  bif k == s.get Reg.TB_STATUS_STEPCNT.z && le (s.tb.acc / 2 ^ 32) tag then s.tqLow
  else
    let l := s.tb.tqLog.filter (fun e => e.1 == k)
    match l.find? (fun e => le e.2.1 tag), l.getLast? with
    | some e, _ => e.2.2
    | none, some e => e.2.2
    | none, none => s.tqLow

/-- The 16-bit time quality of a product with tag `tag` on the scale of STEPCNT `k` (R109). -/
def State.tqAt (s : State) (k tag : Nat) (step model : Bool) : Nat :=
  k % 16 * 4096 + b2n step * 512 + b2n model * 256 + s.tqLowAt k tag

/-! ### Events (02 R74 to R78) -/

/-- Places of event `n`. -/
def evPend (n : Nat) : Loc := Reg.EVT_STAT_PEND.e n
def evSat (n : Nat) : Loc := Reg.EVT_STAT_SAT.e n
def evCnt (n : Nat) : Loc := Reg.EVT_STAT_CNT.e n
def evEn (n : Nat) : Loc := Reg.EVT_CFG_EN.e n

/-- The tag of the first occurrence of event `n`. -/
def State.evTag (s : State) (n : Nat) : Nat :=
  s.get96 (Reg.EVT_TAG_L_TAG.e n) (Reg.EVT_TAG_M_TAG.e n) (Reg.EVT_TAG_H_TAG.e n)

/-- An MSI-X message on vector `v`: sent, or held in the pending-bit array while the vector is masked (R76). -/
def State.sendMsix (s : State) (v : Nat) : State :=
  bif s.on (Reg.MSIX_CTRL_MASK.e v) then
    s.flag { Reg.MSIX_PBA_PEND.e (v / 32) with lo := v % 32, w := 1 } true
  else s.emit (.msix v)

/-- Every subscribed session receives an entry for event `n`; an entry already held while 8 NOTIFYs are outstanding is
merged into the later one (R59, R76). -/
def holdEntry (n : Nat) (x : Session) : Session :=
  if bit x.subs n then
    if x.held.contains n ∧ 8 ≤ x.window.length then { x with held := x.held.filter (· ≠ n) ++ [n] }
    else { x with held := x.held ++ [n] }
  else x

/-- The sessions in which the entry of event `n` merges a held one. -/
def mergesIn (n : Nat) (l : List Session) : Nat :=
  (l.filter (fun x => bit x.subs n && x.held.contains n && decide (8 ≤ x.window.length))).length

/-- The key of a control-complex object. -/
def objKey (i j : Nat) : Nat := i * 256 + j

/-- The default of an object the control complex holds (R46). -/
def objDefault (k : Nat) : Nat :=
  if k = objKey 0x1000 0 then 0x00579128
  else if k = objKey 0x1002 0 then 0xB1
  else if k = objKey 0x1100 1 then 0xC0A80180
  else if k = objKey 0x1100 2 then 0xFFFFFF00
  else if k = objKey 0x1102 0 then 47210
  else if k = objKey 0x1103 0 then 10000
  else 0

/-- The value of a control-complex object. -/
def State.obj (s : State) (i j : Nat) : Nat := tget objDefault s.ctl.objs (objKey i j)

/-- `s` with a control-complex object holding `v`. -/
def State.setObj (s : State) (i j v : Nat) : State :=
  { s with ctl := { s.ctl with objs := tset objDefault s.ctl.objs (objKey i j) v } }

/-- OAP_SPOIL:`j` advanced by `k`, saturating (R46). -/
def State.oapSpoil (s : State) (j k : Nat) : State := s.setObj 0x1107 j (satAdd 32 (s.obj 0x1107 j) k)

/-- A trigger unit. -/
def State.unit (s : State) (u : Nat) : TrigUnit := tget (fun _ => TrigUnit.reset) s.trg.units u
def State.setUnit (s : State) (u : Nat) (x : TrigUnit) : State :=
  { s with trg := { s.trg with units := tset (fun _ => TrigUnit.reset) s.trg.units u x } }

/-- A product of a discrete source on its way to unit `u` (09 R266): its index counts the unit's products. -/
def State.pushPulse (s : State) (u tag tq : Nat) : State :=
  let x := s.unit u
  let k := (x.seq + 1) % 2 ^ 48
  s.setUnit u { x with seq := k, queue := x.queue ++ [⟨k, tag, tq, []⟩] }

/-- Watch or Full mode. -/
def State.runs (s : State) : Bool := s.get Reg.PWR_STAT_MODE.z == 3 || s.get Reg.PWR_STAT_MODE.z == 4

/-- A pulse on a trigger-fabric event line (R76): one product for each EVLINE unit that watches it (09 R266, R274). -/
def State.linePulse (s : State) (line tag : Nat) : State :=
  (upto 32).foldl (fun s u =>
    bif s.runs && s.on (Reg.TRG_UCFG_EN.e u) && s.get (Reg.TRG_UCFG_SRC.e u) == 9 && s.get (Reg.TRG_UELEM_ELEM.e u) == line
    then s.pushPulse u tag (s.tq false false) else s) s

/-- CNT of event `n` advances; the first occurrence not counted sets SAT (R75). -/
def State.evCount (s : State) (n : Nat) : State :=
  bif s.get (evCnt n) == 0xFFFF then s.flag (evSat n) true else s.put (evCnt n) (s.get (evCnt n) + 1)

/-- The trigger-fabric route of event `n`, with EN = `en` (R76). -/
def State.evTrig (s : State) (en : Bool) (n tag : Nat) : State :=
  bif en && s.on (Reg.EVT_CFG_TO_TRIG.e n) then s.linePulse (s.get (Reg.EVT_CFG_TLINE.e n)) tag else s

/-- PEND of event `n` is set and the tag captured (R75). -/
def State.evHold (s : State) (n tag : Nat) : State :=
  (s.flag (evPend n) true).put96 (Reg.EVT_TAG_L_TAG.e n) (Reg.EVT_TAG_M_TAG.e n) (Reg.EVT_TAG_H_TAG.e n) tag

/-- The MSI-X route of event `n` (R76). -/
def State.evMsix (s : State) (n : Nat) : State :=
  bif s.on (Reg.EVT_CFG_TO_MSIX.e n) then s.sendMsix (s.get (Reg.EVT_CFG_VEC.e n)) else s

/-- The subscribed sessions take an entry for event `n` (R59, R76). -/
def State.evSubs (s : State) (n : Nat) : State := { s with ctl := { s.ctl with sessions := s.ctl.sessions.map (holdEntry n) } }

/-- `s` with the event log holding `l`. -/
def State.setLog (s : State) (l : List (Nat × Nat)) : State := { s with ctl := { s.ctl with log := l } }

/-- An occurrence of event `n` at `tag` (R75, R76): its routes, and its entry in the event log. Each held entry that it merges
raises EV009 (R59); a log that overflows raises EV012, which never enters the log. The fuel bounds what EV009 and EV012 raise
in turn: each of the two delivers at most once, so at most six levels occur. -/
def State.raiseCore : Nat → State → Nat → Nat → State
  | 0, s, _, _ => s
  | fuel + 1, s, n, tag =>
    let a := (s.evCount n).evTrig (s.on (evEn n)) n tag
    let t :=
      bif s.on (evPend n) then a
      else
        let d := a.evHold n tag
        bif !d.on (evEn n) then d
        else
          let e := d.evMsix n
          bif e.on (Reg.EVT_CFG_TO_OAP.e n) then
            (upto (mergesIn n e.ctl.sessions)).foldl (fun s _ => State.raiseCore fuel (s.oapSpoil 4 1) 9 tag) (e.evSubs n)
          else e
    bif s.on (evEn n) && s.on (Reg.EVT_CFG_TO_CC.e n) && decide (n ≠ 12) then
      bif le 4096 t.ctl.log.length then State.raiseCore fuel (t.setLog (t.ctl.log.drop 1 ++ [(n, tag)])) 12 tag
      else t.setLog (t.ctl.log ++ [(n, tag)])
    else t

/-- An occurrence of event `n` at `tag` (R75, R76). -/
def State.raise (s : State) (n tag : Nat) : State := State.raiseCore 8 s n tag

/-- Delivery of an event already pending when EN goes from 0 to 1 (R75): the MSI-X and OAP routes (the tile line is a
level). -/
def State.deliver (s : State) (n : Nat) : State :=
  let s := s.evMsix n
  bif s.on (Reg.EVT_CFG_TO_OAP.e n) then
    (upto (mergesIn n s.ctl.sessions)).foldl (fun t _ => (t.oapSpoil 4 1).raise 9 (s.evTag n)) (s.evSubs n)
  else s

/-- The tile interrupt line of event `n` is high (R76). -/
def State.tileLine (s : State) (n : Nat) : Bool :=
  s.on (evEn n) && s.on (evPend n) && s.on (Reg.EVT_CFG_TO_TILE.e n)

/-! ### Flags of a block header (02 R62, R65, R66) -/

/-- An ignored write captures its offset while WIGN, SIGN and LIGN are all 0 (R65). -/
def State.capture (s : State) (b : Blk) (kind o : Nat) : State :=
  bif s.on b.wign || s.on b.sign || s.on b.lign then s else (s.put b.ignKind kind).put b.ignOffset o

/-- A malformed access in block `b`: BADACC and EV005 (R62). -/
def State.badAccess (s : State) (b : Option Blk) (tag : Nat) : State :=
  let s := match b with
    | some b => s.flag b.badacc true
    | none => s
  s.raise 5 tag

/-- A write to a live RWD field ignored: WIGN and EV000 (R66). -/
def State.liveIgnored (s : State) (b : Blk) (o tag : Nat) : State := ((s.capture b 1 o).flag b.wign true).raise 0 tag

/-- A write to a frozen staged bank ignored: SIGN and EV001 (R64). -/
def State.frozenIgnored (s : State) (b : Blk) (o tag : Nat) : State := ((s.capture b 2 o).flag b.sign true).raise 1 tag

/-- A write to an RWL field of a locked block ignored: LIGN and EV002 (R66). -/
def State.lockIgnored (s : State) (b : Blk) (o tag : Nat) : State := ((s.capture b 3 o).flag b.lign true).raise 2 tag

/-- The key of requester `r`'s shadow of block `b` (R71). -/
def shadowKey (r : Requester) (b : Blk) : Nat :=
  (match r with
   | .bar0 => 0
   | .control => 64
   | .debug => 128) + b.num

/-! ### Banks (02 R64, 01 R29) -/

/-- The bits of the word at live offset `o` of block `b` that lie in the bank (RWD fields). -/
def bankMask (b : Blk) (o : Nat) : Nat :=
  (b.fields.filter (fun f => f.covers o && decide (f.acc = .rwd))).foldl
    (fun m f => m + (2 ^ f.w - 1) * 2 ^ f.lo) 0

/-- `s` with the bank bits of the live word at `o` taken from the staged word. -/
def State.swapWord (b : Blk) (s : State) (o : Nat) : State :=
  let m := bankMask b o
  let live := (s.word o).toNat
  let st := (s.word (o + b.half)).toNat
  s.setWord o (BitVec.ofNat 32 ((live &&& (0xFFFFFFFF - m)) ||| (st &&& m)))

/-- The live offsets of block `b` whose live or staged word is listed. -/
def State.bankOffsets (s : State) (b : Blk) : List Nat :=
  (s.regs.map (fun e => liveOff b e.1)).filter (fun o => decide (b.base ≤ o) && decide (o < b.base + b.half))

/-- Block `b` swaps the words chosen by `p`: the staged bank becomes live, and the staged bank then holds a copy of it. -/
def State.swapWhere (s : State) (b : Blk) (p : Nat → Bool) : State :=
  ((s.bankOffsets b).filter p).foldl (State.swapWord b) s

/-- A field of a staged bank. -/
def State.getStaged (s : State) (b : Blk) (l : Loc) : Nat := s.get (l.staged b)

/-- Element test: live offset `o` belongs to element `i` of the outermost dimension of one of the fields `fs`. -/
def ofElem (fs : List Fld) (i o : Nat) : Bool :=
  fs.any (fun f => f.covers o && decide ((elemIdx f.dims (o - f.off)).head? = some i))

end Sys2Proof.Machine
end

