-- ==== Sys2Proof/Machine/Time.lean ====
section
/-!
DEFINITION. Time: the tag now, the time quality TQ, steps of the tag, the clock model's use and the tags of products
(03_time_base.md), and the requests for a forced Sleep and for HOLDOVER and BYPASS that other blocks make (20, 21).
-/
namespace Sys2Proof.Machine

/-- 2⁻⁴⁸ s units in one second. -/
def sec48 : Nat := 2 ^ 48

/-- `x` nanoseconds in units of 2⁻⁴⁸ s, rounded convergently. -/
def ns48 (x : Nat) : Nat := (rndDiv ((x : Int) * 2 ^ 48) 1000000000).toNat

/-- `x` microseconds in units of 2⁻⁴⁸ s, rounded convergently. -/
def us48 (x : Nat) : Nat := ns48 (1000 * x)

/-- A tag is 96 bits wide (R80). -/
def tagMod : Nat := 2 ^ 96

/-- `t` moved by `d`, wrapping at 96 bits. -/
def tagAdd (t : Nat) (d : Int) : Nat := toU 96 ((t : Int) + d)

/-- The current tag (R80, R84). -/
def State.now (s : State) : Nat := s.tb.acc / 2 ^ 32

/-- The current event occurrence: event `n` at the current tag. -/
def State.ev (s : State) (n : Nat) : State := s.raise n s.now

/-- A malformed access now (02 R62). -/
def State.bad (s : State) (b : Blk) : State := s.badAccess (some b) s.now

/-- A CK_SLOW edge, or a CK_KEEP edge: every RC field of its blocks is copied at it (R66, R70). -/
def State.slowEdge (s : State) : State := { s with ctl := { s.ctl with rcSlow := s.regs } }
def State.keepEdge (s : State) : State := { s with ctl := { s.ctl with rcKeep := s.regs } }

/-- A stamp as the hardware takes it (R86): `x` quantised to one sixteenth of the CK_CORE period, counted from the present tag. Which
of the two neighbours a stamp takes is not stated: the earlier one (DESIGN CHOICE, log 61). -/
def State.quantised (s : State) (x : Nat) : Nat :=
  let f := 16 * max 1 s.fcore
  tagAdd s.now (rndDiv (((x : Int) - s.now) * f / 2 ^ 48 * 2 ^ 48) f)

/-- The scale on which a stamp was taken, as STEPCNT then (R89): one taken before the last step is on the old scale. Only a command
that comes within 1 ms of a step can bring such a stamp; where the stamp lies on both scales, which one it was taken on is a free
bit (log 61). -/
def State.stampScale (s : State) (f : Nat) : State × Nat :=
  let k := s.get Reg.TB_STATUS_STEPCNT.z
  match s.tb.lastStep with
  | none => (s, k)
  | some (old, new_) =>
    let before := lt f old && le old (f + sec48 / 1000) && le s.now (new_ + sec48 / 1000)
    let after := le new_ f && le f s.now
    let was := (k + 2 ^ 16 - 1) % 2 ^ 16
    bif !before then (s, k) else bif !after then (s, was) else (s.took, if s.free 1 = 1 then was else k)

/-- The value of TQ[7:0] enters the record of its values where it has changed, or `always` (R109). -/
def State.tqNote (s : State) (always : Bool) : State :=
  let k := s.get Reg.TB_STATUS_STEPCNT.z
  bif always || (s.tb.tqLog.head?.map (·.2.2)) != some s.tqLow then
    { s with tb := { s.tb with tqLog := (k, s.now, s.tqLow) :: s.tb.tqLog } }
  else s

/-- TB_STATUS and TB_CORR brought up to date with the time base (R110). -/
def State.tbSync (s : State) : State :=
  let s := s.tqNote false
  let pps := bif s.tb.locked then 3 else bif s.tb.ppsQualified then 2 else bif lt 0 s.tb.ppsRun then 1 else 0
  let s := s.put Reg.TB_STATUS_PPS.z pps
  let s := s.flag Reg.TB_STATUS_SETPEND.z s.tb.armed.isSome
  let s := s.put Reg.TB_CORR_CORR.z (toU 32 (satS 32 (rnd s.tb.c 23)))
  s.put Reg.TB_STATUS_TQ.z s.tqLow

/-- `s` with the time base changed by `f`, its status registers up to date. -/
def State.tbSet (s : State) (t : TimeBase) : State := { s with tb := t }.tbSync

/-! ### Arming a set (R87, R88) -/

/-- The set mode of TB_CTRL.SETMODE; none for the reserved code (R87). -/
def setModeOf (n : Nat) : Option SetMode :=
  if n = 0 then some .atPps else if n = 1 then some .immediate else if n = 2 then some .add else none

/-- Loads and arms a set with `v` in the mode of TB_CTRL.SETMODE (R87, R88): ignored under DISC = PAIR with WIGN and EV000
at offset `o`, and for the reserved mode with BADACC and EV005. -/
def State.armSet (s : State) (v o : Nat) : State :=
  bif s.disc == 3 then s.liveIgnored .timeBase o s.now
  else match setModeOf (s.get Reg.TB_CTRL_SETMODE.z) with
    | none => s.bad .timeBase
    | some m => s.tbSet { s.tb with armed := some (m, v % tagMod), setDue := none }

/-- A pending set discarded (R88). -/
def State.cancelSet (s : State) : State := s.tbSet { s.tb with armed := none, setDue := none }

/-! ### Requests to the power controller (21 R617, R619) -/

/-- The class of an island (21 R622): HBM controllers 0 to 7 and recorder 8; fronts 9 to 24; the third class 25 to 46; tiles
47 to 110. -/
def islandClass (i : Nat) : Nat := if i < 9 then 1 else if i < 25 then 2 else if i < 47 then 3 else 4

/-- Islands in the order in which they step down: descending class, ascending number within one (21 R618). -/
def fallOrder (l : List Nat) : List Nat :=
  [4, 3, 2, 1].flatMap (fun c => (upto 111).filter (fun i => islandClass i == c && l.contains i))

/-- A forced Sleep entry with cause `c` (21 R619): the held command is discarded, EV051 is raised and the transition to
Sleep begins; nothing begins in Sleep. -/
def State.forceSleep (s : State) (c : Nat) : State :=
  let s := { s with pwr := { s.pwr with cause := c, held := none } }
  let s := (s.put Reg.PWR_STAT_CAUSE.z c).flag Reg.PWR_STAT_HELD.z false
  let s := bif c == 3 then (s.put Reg.THM_STAT_STATE.z 3).ev 54 else s
  bif s.get Reg.PWR_STAT_MODE.z == 2 && s.pwr.trans.isNone then s
  else
    let s := (s.flag Reg.PWR_STAT_TRANS.z true).ev 51
    { s with pwr := { s.pwr with trans := some ⟨2, none⟩, rises := [], falls := fallOrder s.pwr.up } }

/-! ### The root PLL's state (20 R603 to R606) -/

/-- ADM_CLK.FRUN: the running CK_CORE in units of 25 MHz, rounded down (19 R590). -/
def State.frunSync (s : State) : State := s.put Reg.ADM_CLK_FRUN.z (s.fcore / 25000000)

/-- Auxiliary PLL `k` takes state `v`: 0 OFF, 1 LOCKING, 2 LOCKED, 3 HOLDOVER; a change raises EV039 + k (20 R608). -/
def State.auxTo (s : State) (k v : Nat) : State :=
  bif s.get (Reg.CLK_AUX0_STATE.e k) == v then s else (s.put (Reg.CLK_AUX0_STATE.e k) v).ev (39 + k)

/-- Both auxiliary PLLs are off, in Sleep and BYPASS (20 R608). -/
def State.auxOff (s : State) : State := (s.auxTo 0 0).auxTo 1 0

/-- The auxiliary PLLs follow the root PLL: one that is locked holds over with it, and is off in BYPASS (20 R608). -/
def State.auxSync (s : State) : State :=
  let hold := s.get Reg.CLK_STAT_STATE.z == 4
  bif le (s.get Reg.CLK_STAT_STATE.z) 1 then s.auxOff
  else (upto 2).foldl (fun s k =>
    let v := s.get (Reg.CLK_AUX0_STATE.e k)
    bif hold && v == 2 then s.auxTo k 3 else bif !hold && v == 3 then s.auxTo k 2 else s) s

/-- CLK_STAT.STATE takes value `v`; a change raises EV032 (20 R612), and entering or leaving HOLDOVER raises EV034. -/
def State.clkState (s : State) (v : Nat) : State :=
  let o := s.get Reg.CLK_STAT_STATE.z
  bif o == v then s
  else
    let s := (s.put Reg.CLK_STAT_STATE.z v).ev 32
    let s := bif o == 4 || v == 4 then s.ev 34 else s
    ((s.flag Reg.REF_STAT_BYPASS.z (le v 1)).frunSync).auxSync.tbSync

/-- Entry to BYPASS (20 R606): counted, EV035; from Watch or Full the engine is forced to Sleep. -/
def State.enterBypass (s : State) : State :=
  bif s.get Reg.CLK_STAT_STATE.z == 0 then s
  else
    let s := ((s.clkState 0).count Reg.CLK_CNT_BYP.z 1).ev 35
    let s := { s with clk := { s.clk with locking := false } }
    bif s.get Reg.PWR_STAT_MODE.z == 3 || s.get Reg.PWR_STAT_MODE.z == 4 || s.pwr.trans.isSome then s.forceSleep 1 else s

/-- The active reference became LOST or OUT and no switch replaced it (20 R603): HOLDOVER, or BYPASS with HOLDEN = 0. -/
def State.refCause (s : State) : State :=
  let st := s.get Reg.CLK_STAT_STATE.z
  bif st == 2 || st == 3 then (bif s.on Reg.CLK_CTRL_HOLDEN.z then s.clkState 4 else s.enterBypass) else s

/-! ### Steps of the tag (R89) -/

/-- A unit's decision tag, from which its hold-off and its GMODE 2 window run, moves by `f` (R89, 09 R276, R277). -/
def TrigUnit.moved (f : Nat → Nat) (y : TrigUnit) : TrigUnit := { y with dec := y.dec.map f }

/-- A pin's ALIGNED instants and the end of its pulse move by `f` (R89, 09 R285). -/
def TrigOut.moved (f : Nat → Nat) (x : TrigOut) : TrigOut :=
  { x with ends := x.ends.map f, sched := x.sched.map (fun c => (f c.1, c.2)), old := x.old.map (fun o => (o.1, f o.2)) }

/-- The end of a port's pause moves by `f` (16 R495). -/
def StrPort.moved (f : Nat → Nat) (x : StrPort) : StrPort := { x with paused := x.paused.map f }

/-- The instants the engine derived for its own purposes move with a step by `f` (R89); those that host software wrote as
tags do not. -/
def State.moveInstants (s : State) (f : Nat → Nat) : State :=
  { s with trg := { s.trg with units := s.trg.units.map (fun p => (p.1, p.2.moved f))
                               pins := s.trg.pins.map (fun p => (p.1, p.2.moved f)) }
           str := { s.str with ports := s.str.ports.map (fun p => (p.1, p.2.moved f)) }
           dsp := { s.dsp with stop := s.dsp.stop.map f } }

/-- The time base takes a new scale `t`: STEPCNT increments, and the tags on both sides of the step are kept (R89). -/
def State.tbScale (s : State) (t : TimeBase) : State :=
  let old := s.now
  let s := { s with tb := { t with lastStep := some (old, t.acc / 2 ^ 32) } }
  ((s.wrap Reg.TB_STATUS_STEPCNT.z 1).tqNote true).tbSync

/-- A step of the tag by `d` units of 2⁻⁴⁸ s (R89): STEPCNT increments and EV022 is raised. -/
def State.timeStep (s : State) (d : Int) : State :=
  let t := s.tb
  let s := s.moveInstants (tagAdd · d)
  (s.tbScale { t with acc := toU 128 ((t.acc : Int) + d * 2 ^ 32), ref := toU 128 ((t.ref : Int) + d * 2 ^ 32),
                      total := t.total + sext 96 (toU 96 d) }).ev 22

/-- The sum of the steps before the scale of STEPCNT `k` began: the present scale, or the one before the last step (R89). -/
def State.scaleTotal (s : State) (k : Nat) : Int :=
  match s.tb.lastStep with
  | some (old, new_) => if k = s.get Reg.TB_STATUS_STEPCNT.z then s.tb.total else s.tb.total - sext 96 (toU 96 ((new_ : Int) - old))
  | none => s.tb.total

/-- The time base stops, on entry to Sleep (R83): the tag stays where it stood. -/
def State.tbStop (s : State) : State := s.tbSet { s.tb with running := false, begun := false, holding := false }

/-- The time base at tag 0, waiting for the first reference edge (R83). -/
def TimeBase.fromZero (t : TimeBase) : TimeBase :=
  { t with running := true, started := true, begun := false, acc := 0, ref := 0, holding := false, wasSet := false, since := 0,
           bridge := false }

/-- The first start after a reset, when CK_CORE first runs from the root PLL (R83): from tag 0, and no step. -/
def State.tbFirst (s : State) : State := bif s.tb.started then s else (s.tbSet s.tb.fromZero).tqNote true

/-- The time base starts again from tag 0 on the next entry to Watch or Full after an entry to Sleep: a step (R83, R89), after
which every derived instant lies as far from the tag as before it. A time base that runs since its first start goes on. -/
def State.tbStart (s : State) : State :=
  bif s.tb.running then s
  else bif !s.tb.started then s.tbFirst
  else
    let s := s.moveInstants (tagAdd · (-(s.now : Int)))
    (s.tbScale s.tb.fromZero).ev 22

/-! ### One CK_CORE cycle (R84) -/

/-- `x` × (1 + c), c in units of 2⁻⁶³, rounded convergently (R84). -/
def scaled (x : Nat) (c : Int) : Nat := (rnd ((x : Int) * (2 ^ 63 + c)) 63).toNat

/-- The time base's accumulators wrap at 128 bits. -/
def accMod : Nat := 2 ^ 128

/-- A reference edge in a cycle of `cyc`: c takes its next value, R advances by one edge period `inc` and the tag is brought to R,
or holds where it has run ahead (R84). The first edge of a new reference is placed by CK_CORE interpolation from the last edge
of the old one (R85). -/
def refEdge (t : TimeBase) (inc cyc : Nat) : TimeBase :=
  let c := t.cNext.getD t.c
  let r := (t.ref + (if t.bridge then t.since + scaled cyc t.c else scaled inc t.c)) % accMod
  let t := { t with c := c, cNext := none, since := 0, bridge := false }
  if !t.begun then { t with begun := true, acc := 0, ref := 0 }
  else if serialBefore 128 r t.acc then { t with ref := r, holding := true }
  else { t with ref := r, acc := r, holding := false }

/-- A CK_CORE cycle between two reference edges: the tag advances by TB_INC unless it holds (R84). -/
def coreCycle (t : TimeBase) (inc : Nat) : TimeBase :=
  if !t.begun then t
  else
    let d := scaled inc t.c
    { t with since := t.since + d, acc := if t.holding then t.acc else (t.acc + d) % accMod }

/-- round(2⁸⁰ ÷ `f`) (R84). -/
def period80 (f : Nat) : Nat := (rndDiv (2 ^ 80 : Int) f).toNat

/-- The advance of R at one reference edge; in HOLDOVER one virtual edge stands for PDIV edges (20 R603). -/
def State.edgeInc (s : State) : Nat :=
  bif s.get Reg.CLK_STAT_STATE.z == 4 then pdivOf s.clk.refApplied s.activeRef * period80 s.fref else period80 s.fref

/-- The level of SYSREF_OUT's pulse; a change is seen at the pin. -/
def State.sysrefTo (s : State) (v : Bool) : State :=
  bif s.clk.pulse == v then s else { s with clk := { s.clk with pulse := v } }.emit (.sysref v)

/-- An edge of f_REF′ at SYSREF_OUT (20 R610): the counter marks a boundary every SDIV edges, whether or not the output is
enabled; at a boundary an enabled output begins a pulse, in GATED mode while pulses of a burst are left. A pulse that has begun stays
high for ceil(SDIV ÷ 2) edges. -/
def State.sysrefEdge (s : State) : State :=
  let n := s.clk.sysref + 1
  let d := s.get Reg.CLK_SYSREF_SDIV.z
  bif lt n d then
    let s := { s with clk := { s.clk with sysref := n } }
    bif le (ceilDiv d 2) n then s.sysrefTo false else s
  else
    let gated := s.on Reg.CLK_SYSREF_MODE.z
    let pulse := s.on Reg.CLK_SYSREF_EN.z && (!gated || lt 0 s.clk.burst)
    let s := { s with clk := { s.clk with sysref := 0, burst := s.clk.burst - 1 } }
    s.sysrefTo pulse

/-- One CK_CORE cycle: whether an edge of the reference, in HOLDOVER a virtual one (20 R603), falls in it is open, a free bit. SYSREF's
counter runs while the root PLL is locked, on edges of the reference alone (20 R610). A wrap of the epoch seconds raises EV023
(R80). -/
def State.tick (s : State) : State :=
  bif s.tb.running || le 2 (s.get Reg.CLK_STAT_STATE.z) then
    let era := s.now / 2 ^ 80
    let edge := s.free 1 == 1
    let s := s.took
    let s := bif s.tb.running then
        s.tbSet (bif edge then refEdge s.tb s.edgeInc (period80 s.fcore) else coreCycle s.tb (period80 s.fcore))
      else s
    let s := bif edge && s.get Reg.CLK_STAT_STATE.z != 4 then s.sysrefEdge else s
    bif s.now / 2 ^ 80 == era then s else s.ev 23
  else s

end Sys2Proof.Machine
end

