-- ==== Sys2Proof/Machine/Gen.lean ====
section
/-!
DEFINITION. Generations (19_admission_and_configuration.md R582 to R587): which blocks a commit names, the freeze of their
staged banks, the end of a block's swap, the generation every block has reached, and degradation.
-/
namespace Sys2Proof.Machine

/-- The block's staged bank differs from its live bank (R582); the weights of 11 R343 belong to the cross-spectral bank. -/
def State.blkChanged (s : State) (b : Blk) : Bool :=
  b.banked && ((s.bankOffsets b).any (fun o =>
    ((s.word o).toNat &&& bankMask b o) != ((s.word (o + b.half)).toNat &&& bankMask b o))
    || (b == .cross && s.xsp.weights != s.xsp.staged))

/-- The word at live offset `o` differs in the staged bank. -/
def State.wordChanged (s : State) (b : Blk) (o : Nat) : Bool :=
  ((s.word o).toNat &&& bankMask b o) != ((s.word (o + b.half)).toNat &&& bankMask b o)

/-- The request changes the clock (R570). -/
def State.clockChange (s : State) : Bool := s.get Reg.ADM_CLK_FSTAGE.z != s.get Reg.ADM_CLK_FLIVE.z

/-- ADM_XTILES. -/
def State.xtiles (s : State) : Nat := s.get64 Reg.ADM_XTILES_L_TILES.z Reg.ADM_XTILES_H_TILES.z

/-- The commit exchanges a tile of the block. -/
def tileNamed (x : Nat) (b : Blk) : Bool :=
  match b with
  | .gallery g => bits x (8 * g.val) 8 != 0
  | _ => false

/-- The blocks a commit of the staged configuration names (R582). -/
def State.namedNow (s : State) : List Blk :=
  allBlks.filter (fun b => s.blkChanged b || tileNamed s.xtiles b || (s.clockChange && b.banked))

/-- The staged bank of the block is frozen, or its freeze ends (R64). -/
def State.freeze (v : Bool) (s : State) (b : Blk) : State := s.flag b.frozen v

/-- SWPEND of a block: its staged bank is frozen for a commit and has not swapped. -/
def swpend : Blk → Option Loc
  | .coarse => some Reg.CCH_STAT_SWPEND.z
  | .fine => some Reg.FCH_STAT_SWPEND.z
  | .detect => some Reg.DET_STAT_SWPEND.z
  | .tuners => some Reg.TUN_STAT_SWPEND.z
  | .triggers => some Reg.TRG_STAT_SWPEND.z
  | .recorder => some Reg.REC_STAT_SWPEND.z
  | .cross => some Reg.XSP_STAT_SWPEND.z
  | .streams => some Reg.STR_STAT_SWPEND.z
  | .display => some Reg.DSP_STAT_SWPEND.z
  | .stimulus => some Reg.STM_STAT_SWPEND.z
  | _ => none

/-- The freeze of a block, with its SWPEND. -/
def State.pend (v : Bool) (s : State) (b : Blk) : State :=
  match swpend b with
  | some l => (State.freeze v s b).flag l v
  | none => State.freeze v s b

/-- A check begins (R582): a commit freezes the staged banks of the blocks it names. -/
def State.admStart (s : State) (r : AdmRequest) : State :=
  let named := bif r.commit then s.namedNow else []
  let s := named.foldl (State.pend true) s
  let s := s.put Reg.ADM_STAT_STATE.z 1
  { s with adm := { s.adm with request := some r, named := named, began := s.regs } }

/-- A held request runs as soon as the one before it has ended (R586). -/
def State.admNext (s : State) : State :=
  match s.adm.held with
  | none => s.put Reg.ADM_STAT_STATE.z 0
  | some r => ({ s with adm := { s.adm with held := none } }.flag Reg.ADM_STAT_HELD.z false).admStart r

/-- The last named block has swapped: ADM_GEN takes the new generation and EV509 is raised (R583). -/
def State.genReached (s : State) : State :=
  bif s.adm.named.isEmpty && s.get Reg.ADM_STAT_STATE.z == 3 then
    ((s.put Reg.ADM_GEN_GEN.z (s.get Reg.ADM_CGEN_CGEN.z)).ev 509).admNext
  else s

/-- The commit's instant has arrived and block `b` has not finished its swap. -/
def State.maySwap (s : State) (b : Blk) : Bool := s.get Reg.ADM_STAT_STATE.z == 3 && s.adm.named.contains b

/-! ### Banks (R29, R30) -/

/-- The bank a block uses: its words by live offset, and its generation. -/
structure BankView where
  word : Nat → Word
  gen : Nat

/-- A field of a bank view. -/
def BankView.get (b : BankView) (l : Loc) : Nat := bits (b.word l.off).toNat l.lo l.w
def BankView.on (b : BankView) (l : Loc) : Bool := b.get l == 1

def State.liveView (s : State) (b : Blk) : BankView := ⟨s.word, s.get b.gen⟩
def State.stagedView (s : State) (b : Blk) : BankView := ⟨fun o => s.word (o + b.half), s.get Reg.ADM_CGEN_CGEN.z⟩
/-- The bank block `b` is to run with once the commit under way is done. -/
def State.nextView (s : State) (b : Blk) : BankView := bif s.maySwap b then s.stagedView b else s.liveView b

/-- Block `b` has finished its swap: it takes the generation, its freeze ends (R64, R583). -/
def State.swapDone (s : State) (b : Blk) : State :=
  let s := s.put b.gen (s.get Reg.ADM_CGEN_CGEN.z)
  let s := State.freeze false s b
  ({ s with adm := { s.adm with named := s.adm.named.filter (· ≠ b) } }).genReached

/-- The words of block `b` chosen by `p` swap at one of its boundaries; once none is left to swap the block is done, and
`f` runs then. -/
def State.swapElem (s : State) (b : Blk) (p : Nat → Bool) (f : State → State) : State :=
  bif s.maySwap b then
    let s := s.swapWhere b p
    bif s.blkChanged b then s else f (s.swapDone b)
  else s

/-- Input `n` of the calibration run under way fails with `code` unless it is finished: in a run whose OP is among `ops`, while
CAL_STAT.STATE is among `states` (18 R556, R566). -/
def State.calFail (s : State) (ops states : List Nat) (n code : Nat) : State :=
  match s.stm.run with
  | none => s
  | some r =>
    bif ops.contains r.op && states.contains (s.get Reg.CAL_STAT_STATE.z) then
      let hit (t : CalTarget) : CalTarget := if t.target = n ∧ t.status.isNone then { t with status := some code } else t
      { s with stm := { s.stm with run := some { r with targets := r.targets.map hit, ref := r.ref.map hit } } }
    else s

/-- A gap opens on input `n` (18 R556: GAP). -/
def State.calGap (s : State) (n : Nat) : State := s.calFail [2, 3, 4] [2, 3] n 6
/-- A corrected value or a bin of input `n` saturates (18 R556: SAT). -/
def State.calSat (s : State) (n : Nat) : State := s.calFail [2, 3, 4] [3] n 5
/-- A bank that a run with OP `op` measures input `n` with swaps (18 R566: COMMIT). -/
def State.calSwap (s : State) (op n : Nat) : State := s.calFail [op] [2, 3] n 7

/-- Converter `k` runs its sequence: it is enabled, and so is some entry (21 R633). -/
def State.hkRuns (s : State) (k : Nat) : Bool :=
  s.on (if k = 0 then Reg.HK_CTRL_EN0.z else Reg.HK_CTRL_EN1.z) && (upto 16).any (fun e => s.on (Reg.HK_SEQ_EN.e2 k e))

/-- The trims of converter `k` that its entry under way uses: those at the entry's start (21 R633, R637). -/
def State.hkTrims (s : State) (k : Nat) : Int × Int :=
  match s.pwr.trims.find? (fun t => t.1 == k) with
  | some t => t.2
  | none => (s.getI (Reg.HK_TRIM_OFS.e k), s.getI (Reg.HK_TRIM_GAIN.e k))

/-- No entry of converter `k` uses older trims any more. -/
def State.trimsNew (s : State) (k : Nat) : State := { s with pwr := { s.pwr with trims := s.pwr.trims.filter (fun t => t.1 != k) } }

/-- The trims of converter `k` are about to change: an entry under way goes on with those it has (21 R637). -/
def State.trimsHeld (s : State) (k : Nat) : State :=
  bif s.hkRuns k then { s.trimsNew k with pwr := { (s.trimsNew k).pwr with trims := (k, s.hkTrims k) :: (s.trimsNew k).pwr.trims } }
  else s

/-- Block `b` loses `k` products: while DEGR = 1 ADM_DLOSS of its block code counts them (R587). -/
def State.degrLoss (s : State) (b : Blk) (k : Nat) : State :=
  bif s.on Reg.ADM_STAT_DEGR.z then s.count (Reg.ADM_DLOSS_COUNT.e b.code) k else s

/-- THROTTLE follows the running clock: some tile's cost exceeds its capacity at it (11 R361, EV359). -/
def State.throttleSync (s : State) : State :=
  let t := lt s.fcore s.xsp.need
  bif t == s.on Reg.XSP_STAT_THROTTLE.z then s
  else
    let s := s.flag Reg.XSP_STAT_THROTTLE.z t
    bif t then s.ev 359 else s

/-- ADM_DEGR takes the whole µs spent in degradation since it last did (R587). -/
def State.degrTime (s : State) : State :=
  match s.adm.degrSince with
  | none => s
  | some t =>
    let us := (s.now - t) * 1000000 / 2 ^ 48
    bif us == 0 then s
    else
      let s := s.count64 Reg.ADM_DEGR_L_US.z Reg.ADM_DEGR_H_US.z us
      { s with adm := { s.adm with degrSince := some (t + ceilDiv (us * 2 ^ 48) 1000000) } }

/-- DEGR follows the running clock against FLIVE (R587, 20 R601): each change raises EV510; entries and the time spent are
counted. -/
def State.degrSync (s : State) : State :=
  let s := s.throttleSync
  let below := le 2 (s.get Reg.CLK_STAT_STATE.z) && lt s.fcore (25000000 * s.get Reg.ADM_CLK_FLIVE.z)
  bif below == s.on Reg.ADM_STAT_DEGR.z then s
  else bif below then
    let s := ((s.flag Reg.ADM_STAT_DEGR.z true).count Reg.ADM_DEGRCNT_COUNT.z 1).ev 510
    { s with adm := { s.adm with degrSince := some s.now } }
  else
    let s := s.degrTime.flag Reg.ADM_STAT_DEGR.z false
    ({ s with adm := { s.adm with degrSince := none } }).ev 510

/-! ### The walker's target (20 R599, R601) -/

/-- f_target in units of 25 MHz: the lower of f_commit and the thermal ceiling, no lower than 1.400 GHz. -/
def State.ftarget (s : State) : Nat := max 56 (min s.adm.fcommit (s.get Reg.CLK_STAT_FTHR.z))

/-- CLK_STAT.FTARGET shows the target; a running clock away from it is STEPPING. -/
def State.retarget (s : State) : State :=
  let s := s.put Reg.CLK_STAT_FTARGET.z s.ftarget
  let away := s.get Reg.CLK_N_N.z * fpfd s.clk.refApplied s.activeRef != 4 * 25000000 * s.ftarget
  bif away && s.get Reg.CLK_STAT_STATE.z == 2 then s.clkState 3 else s

end Sys2Proof.Machine
end

