-- ==== Sys2Proof/Machine/Clocks.lean ====
section
/-!
DEFINITION. The commands of the clocks (20_clocks_and_plls.md): the root PLL, its band table and walker, the auxiliary
PLLs, the clock outputs and SYSREF.
-/
namespace Sys2Proof.Machine

/-- f_PFD of reference `r` qualifies (R593): 5 to 25 MHz and an exact divisor of 100 MHz. -/
def pfdOk (w : Word) (r : Nat) : Bool :=
  let f := frefPrime w r
  let p := pdivOf w r
  decide (5000000 * p ≤ f) && decide (f ≤ 25000000 * p) && decide (100000000 * p % f = 0)

/-- Reference `r` is fitted: its edges are present. -/
def State.fitted (s : State) (r : Nat) : Bool :=
  (bif r == 1 then s.get Reg.REF_STAT_BAND_B.z else s.get Reg.REF_STAT_BAND_A.z) != 3

/-- CLK_REF is applied (R593, R594), with PFDMIS where the two f_PFD differ; a setting that breaks R593 on a fitted reference is refused
with CFGERR. -/
def State.applyClkRef (s : State) (w : Word) : State :=
  let good := (!s.fitted 0 || pfdOk w 0) && (!s.fitted 1 || pfdOk w 1)
  let s := s.flag Reg.CLK_STAT_CFGERR.z (!good)
  bif good then
    { s with clk := { s.clk with refApplied := w } }.flag Reg.CLK_STAT_PFDMIS.z
      (frefPrime w 0 * pdivOf w 1 != frefPrime w 1 * pdivOf w 0)
  else s

/-- RELOCK (R607): accepted in Sleep or BYPASS; the tree runs on the bypass clock until the lock ends. -/
def execRelock (s : State) : Res :=
  .next <| bif s.get Reg.PWR_STAT_MODE.z == 2 || s.get Reg.CLK_STAT_STATE.z == 0 then
      let s := s.applyClkRef (s.word Reg.CLK_REF_FREFA.off)
      bif s.on Reg.CLK_STAT_CFGERR.z then (bif lt 1 (s.get Reg.CLK_STAT_STATE.z) then s.enterBypass else s.clkState 0)
      else { s with clk := { s.clk with locking := true } }.clkState 1
    else s.bad .clocks

/-- BANDCAL (R598): in Sleep mode only. DESIGN CHOICE (log 74): in another mode the command is ignored with BADACC and EV005, as RELOCK is
(R607). -/
def execBandcal (s : State) : Res :=
  .next <| bif s.get Reg.PWR_STAT_MODE.z == 2 then { s with clk := { s.clk with bandcal := true } } else s.bad .clocks

/-- An entry of the band table is usable (R597). -/
def bandUsable (w : Nat) : Bool :=
  bit w 31 && decide (560 ≤ bits w 4 10) && decide (bits w 4 10 < bits w 14 10) && decide (bits w 14 10 ≤ 720)

/-- Band calibration fills the table with what it measured and raises EV041 (R598). -/
def execBandcalDone (entries : List Word) (s : State) : Res :=
  .next <| bif s.clk.bandcal then
      let s := { s with clk := { s.clk with bandcal := false } }
      let s := (upto 16).foldl (fun s b => s.setWord (Reg.CLK_BAND_VALID.off + 4 * b) (entries.getD b 0)) s
      s.ev 41
    else s

/-- Entry `b` covers a VCO frequency of N × f_PFD (R598). -/
def State.bandCovers (s : State) (b n : Nat) : Bool :=
  let w := (s.word (Reg.CLK_BAND_VALID.off + 4 * b)).toNat
  let f := n * fpfd s.clk.refApplied s.activeRef
  bandUsable w && le (bits w 4 10 * 10000000) f && le f (bits w 14 10 * 10000000)

/-- The lowest-numbered usable entry that covers both N and N′ (R600). -/
def State.bandFor (s : State) (n m : Nat) : Option Nat := (upto 16).find? (fun b => s.bandCovers b n && s.bandCovers b m)

/-- The N of a clock in units of 25 MHz (R599). -/
def State.nFor (s : State) (f : Nat) : Nat := 4 * 25000000 * f / fpfd s.clk.refApplied s.activeRef

/-- A lock or relock of the root PLL ends (R606, R607): the tree switches to it at f_commit, or stays on the bypass clock.
With AUTORELOCK it may begin by itself once a reference is qualified (R606). -/
def execRootPllLock (ok : Bool) (s : State) : Res :=
  let n := s.nFor s.adm.fcommit
  .next <| bif lt 1 (s.get Reg.CLK_STAT_STATE.z) then s
    else bif !s.clk.locking && !(s.on Reg.CLK_CTRL_AUTORELOCK.z && (s.on Reg.REF_STAT_QUAL_A.z || s.on Reg.REF_STAT_QUAL_B.z))
    then s
    else
      let s := { s with clk := { s.clk with locking := false } }
      match s.bandFor n n with
      | none => s.clkState 0
      | some b =>
        bif ok && !s.on Reg.CLK_STAT_CFGERR.z then
          let s := ((s.put Reg.CLK_N_N.z n).put Reg.CLK_STAT_BAND.z b).put Reg.ADM_CLK_FLIVE.z s.adm.fcommit
          let s := { s with clk := { s.clk with sysref := 0 } }
          ((s.clkState 2).degrSync).retarget.tbFirst
        else s.clkState 0

/-- One step of the walker (R599 to R601): N moves by one toward its target, with a hand-over where the band in use does
not cover the step; a band gap stops the walk; a walk that ends raises EV036. -/
def execClockWalkStep (s : State) : Res :=
  let n := s.get Reg.CLK_N_N.z
  let t := s.nFor s.ftarget
  let st := s.get Reg.CLK_STAT_STATE.z
  .next <| bif le st 1 then s
    else bif n == t then
      let s := s.flag Reg.CLK_STAT_BANDGAP.z false
      bif st == 3 then (s.clkState 2).ev 36 else s
    else
      let m := bif lt n t then n + 1 else n - 1
      let cur := s.get Reg.CLK_STAT_BAND.z
      let use := bif s.bandCovers cur n && s.bandCovers cur m then some cur else s.bandFor n m
      match use with
      | none => bif s.on Reg.CLK_STAT_BANDGAP.z then s else (s.flag Reg.CLK_STAT_BANDGAP.z true).ev 37
      | some b =>
        let s := (s.put Reg.CLK_STAT_BAND.z b).flag Reg.CLK_STAT_BANDGAP.z false
        let s := bif st == 2 then s.clkState 3 else s
        let s := (s.put Reg.CLK_N_N.z m).frunSync
        let s := bif le (s.get Reg.ADM_CLK_FLIVE.z) s.adm.fcommit && le (s.nFor s.adm.fcommit) m then
          s.put Reg.ADM_CLK_FLIVE.z s.adm.fcommit else s
        let s := s.degrSync
        bif m == t then (bif s.get Reg.CLK_STAT_STATE.z == 3 then s.clkState 2 else s).ev 36 else s

/-- A reference edge less than half a nominal period after the last one is discarded and counted (R602). -/
def execRefGlitch (s : State) : Res :=
  let first := s.get Reg.CLK_CNT_GLITCH.z == 0
  let s := s.count Reg.CLK_CNT_GLITCH.z 1
  .next <| bif first && s.clk.glitchArmed then { s with clk := { s.clk with glitchArmed := false } }.ev 38 else s

/-- HOLDOVER has lasted HOLDMAX seconds (R604); 0 is no limit. -/
def execHoldoverExpiry (s : State) : Res :=
  .next <| bif s.get Reg.CLK_STAT_STATE.z == 4 && s.get Reg.CLK_CTRL_HOLDMAX.z != 0 then s.enterBypass else s

/-- A loss of lock: EV033, counted, BYPASS (R605). -/
def execPllLockLoss (s : State) : Res :=
  .next <| bif lt 1 (s.get Reg.CLK_STAT_STATE.z) then ((s.ev 33).count Reg.CLK_CNT_LOSS.z 1).enterBypass else s

/-- The divider settings of an auxiliary PLL with the least error for `khz` (R608): MA, N_a and PD; ties go to the smaller MA
and then the smaller PD. The VCO runs from 5.6 to 7.2 GHz, its input is at least 10 kHz. -/
def auxError (fref khz ma n pd : Nat) : Nat := ((n * fref : Int) - (khz * 1000 * ma * pd : Int)).natAbs

/-- The usable entries of the band table as pairs of FLO and FHI, 10 MHz units (R597). -/
def State.bands (s : State) : List (Nat × Nat) :=
  ((upto 16).map (fun b => (s.word (Reg.CLK_BAND_VALID.off + 4 * b)).toNat)).filterMap (fun w =>
    if bandUsable w then some (bits w 4 10, bits w 14 10) else none)

/-- The best (MA, N_a, PD) among the candidates whose VCO lies in the band table, first by relative error, then by MA, then
by PD. -/
def auxBest (table : List (Nat × Nat)) (fref khz : Nat) : Nat × Nat × Nat :=
  let inTable (ma n : Nat) : Bool :=
    table.any (fun p => decide (p.1 * 10000000 * ma ≤ n * fref) && decide (n * fref ≤ p.2 * 10000000 * ma))
  let cand := (upto 1024).flatMap (fun m => (upto 253).filterMap (fun p =>
    let ma := m + 1
    let pd := p + 4
    let n := ((khz * 1000 * pd * ma + fref / 2) / fref)
    if 10000 * ma ≤ fref ∧ 5600000000 * ma ≤ n * fref ∧ n * fref ≤ 7200000000 * ma ∧ inTable ma n = true then some (ma, n, pd) else none))
  cand.foldl (fun b c =>
    if b.1 = 0 then c
    else if auxError fref khz c.1 c.2.1 c.2.2 * (b.1 * b.2.2) < auxError fref khz b.1 b.2.1 b.2.2 * (c.1 * c.2.2) then c else b)
    (0, 0, 0)

/-- The settings of auxiliary PLL `k` are chosen for DSP_PCLK, and show (R608). -/
def State.auxChoose (s : State) (k : Nat) : State :=
  let f := s.fref
  let (ma, n, pd) := auxBest s.bands f (s.get (Reg.DSP_PCLK_KHZ.e k))
  let s := ((s.put (Reg.CLK_AUX0_MA.e k) (ma - 1)).put (Reg.CLK_AUX0_PD.e k) (pd - 1)).put (Reg.CLK_AUX1_N.e k) n
  s.put (Reg.CLK_AUX2_KHZ.e k) (rndDiv (n * f) (max 1 (ma * pd * 1000))).toNat

/-- Auxiliary PLL `k` may run: it is off in Sleep and BYPASS (R608). -/
def State.auxRuns (s : State) : Bool := le 2 (s.get Reg.CLK_STAT_STATE.z) && le 3 (s.get Reg.PWR_STAT_MODE.z)

/-- The pixel clock of output `k` has a new setting: its PLL's are chosen anew, and it locks again (R608). -/
def State.auxRetune (s : State) (k : Nat) : State :=
  let s := s.auxChoose k
  bif s.auxRuns then s.auxTo k 1 else s

/-- AUX_PLL_LOCK: auxiliary PLL `k` changes state (R608): on a lock its settings show those chosen for DSP_PCLK. -/
def execAuxPllLock (k : Nat) (state : Nat) (s : State) : Res :=
  .next <| bif lt k 2 && lt state 4 && (s.auxRuns || state == 0) then
      bif state == 2 then (s.auxChoose k).auxTo k 2 else s.auxTo k state
    else s

/-- A write to CLK_OUT (R609): enable, disable or a new ODIV, each at its runt-free point. -/
def execClkOutWrite (k : Nat) (v : Word) (s : State) : Res :=
  let s := s.setWord (Reg.CLK_OUT_EN.off + 4 * k) (v &&& 0xF00000FF)
  let present := s.fitted 0 || s.fitted 1
  let outs := bif bit v.toNat 31 && present then tinsert s.clk.outputs k (bits v.toNat 0 8 + 1) else terase s.clk.outputs k
  .next { s with clk := { s.clk with outputs := outs } }

/-- FIRE in GATED mode (R610): PCNT pulses from the next boundary; ignored during a burst. -/
def execSysrefFire (s : State) : Res :=
  .next <| bif s.on Reg.CLK_SYSREF_MODE.z && s.on Reg.CLK_SYSREF_EN.z && s.clk.burst == 0 then
      { s with clk := { s.clk with burst := s.get Reg.CLK_SYSREF_PCNT.z } }
    else s

end Sys2Proof.Machine
end

