-- ==== Sys2Proof/Machine/Bus.lean ====
section
/-!
DEFINITION. Register accesses by access code (02_control_access.md R62, R65, R66, R71): the write of a word outside the bank
views, and reads with the shadows of RL and RH words. What a block adds to these stands in its own file and in Control.lean.
-/
namespace Sys2Proof.Machine

/-- The fields of the word at live offset `o` with access `a`, as a mask. -/
def accMask (b : Blk) (o : Nat) (a : Acc) : Nat :=
  ((b.fields.filter (fun f => f.covers o && decide (f.acc = a))).map (fun f => (2 ^ f.w - 1) * 2 ^ f.lo)).foldl (· ||| ·) 0

/-- Blocks whose chapters refuse a write of a value outside a field's range (R110, R481, R590, R611, R638, R660, R685). -/
def rangeChecked : Blk → Bool
  | .timeBase | .clocks | .power | .security | .pair | .memory | .admission => true
  | .ident | .events | .ingress | .coarse | .fine | .detect | .tuners | .triggers | .recorder | .cross | .gallery _
  | .streams | .display | .stimulus => false

/-- The value of every writable field of the word lies in its stated range. -/
def rangeOk (b : Blk) (o v : Nat) : Bool :=
  (b.fields.filter (fun f => f.covers o && (decide (f.acc = .rw) || decide (f.acc = .rwl) || decide (f.acc = .rwd)))).all
    (fun f => le f.mn (bits v f.lo f.w) && le (bits v f.lo f.w) f.mx)

/-- A word outside the bank views is written under R66: RW and, while the block is unlocked, RWL fields take `v`; W1C bits
written 1 are cleared. Only the bits of `mask` are written. -/
def State.plainWrite (s : State) (b : Blk) (o v mask : Nat) : State :=
  let locked := s.on b.lock
  let rwl := accMask b o .rwl &&& mask
  let m := (accMask b o .rw &&& mask) ||| (bif locked then 0 else rwl)
  let clr := accMask b o .w1c &&& mask &&& v
  bif rangeChecked b && !rangeOk b o v then s.bad b
  else
    let old := (s.word o).toNat
    let s := s.setWord o (BitVec.ofNat 32 (((old &&& (0xFFFFFFFF ^^^ m)) ||| (v &&& m)) &&& (0xFFFFFFFF ^^^ clr)))
    bif locked && rwl != 0 then s.lockIgnored b o s.now else s

/-- The word at `o` is the low word of an RL group, or a word read from the shadow. -/
def isRl (b : Blk) (o : Nat) : Bool := (fieldsAt b o).any (fun f => decide (f.acc = .rl))
def isRh (b : Blk) (o : Nat) : Bool := (fieldsAt b o).any (fun f => decide (f.acc = .rh))

/-- The RH words that follow in a row from `o` on (at most `fuel`). -/
def rhRun (b : Blk) : Nat → Nat → Nat
  | 0, _ => 0
  | fuel + 1, o => if isRh b o && !isRl b o then rhRun b fuel (o + 4) + 1 else 0

/-- How many RH words lie between the RL word of the group and the RH word at `o`. -/
def rhPlace (b : Blk) : Nat → Nat → Nat
  | 0, _ => 0
  | fuel + 1, o => if isRl b (o - 4) then 0 else rhPlace b fuel (o - 4) + 1

/-- A read of the word at `o` by the holder of shadow `key` (R66, R71): an RL word latches the RH words above it in its group; an
RH word returns what the shadow holds of it. -/
def State.plainRead (s : State) (key : Nat) (b : Blk) (o : Nat) : State × Word :=
  bif isRl b o then
    let hi := (upto (rhRun b 6 (o + 4))).foldl (fun a k => a + (s.word (o + 4 + 4 * k)).toNat * 2 ^ (32 * k)) 0
    ({ s with ctl := { s.ctl with readShadow := tset (fun _ => 0) s.ctl.readShadow key hi } }, s.word o)
  else bif isRh b o then
    (s, BitVec.ofNat 32 (bits (tget (fun _ => 0) s.ctl.readShadow key) (32 * rhPlace b 6 o) 32))
  else (s, s.word o)

end Sys2Proof.Machine
end

