-- ==== Sys2Proof/Machine/Crypto.lean ====
section
/-! DEFINITION. The hash functions the spec names: SHA-256 and HMAC-SHA-256 (02_control_access.md R58) and SHA-384
(22_start_security_debug.md R650, R653, R655, R657), PRESUMED as FIPS 180-4 and FIPS 198-1 define them; the spec gives only
their names. Verification of an ECDSA P-384 signature is a constant of Config. -/

namespace Sys2Proof.Machine

def sha256K0 : List (BitVec 32) :=
  [0x428A2F98, 0x71374491, 0xB5C0FBCF, 0xE9B5DBA5, 0x3956C25B, 0x59F111F1, 0x923F82A4, 0xAB1C5ED5,
   0xD807AA98, 0x12835B01, 0x243185BE, 0x550C7DC3, 0x72BE5D74, 0x80DEB1FE, 0x9BDC06A7, 0xC19BF174]
def sha256K1 : List (BitVec 32) :=
  [0xE49B69C1, 0xEFBE4786, 0x0FC19DC6, 0x240CA1CC, 0x2DE92C6F, 0x4A7484AA, 0x5CB0A9DC, 0x76F988DA,
   0x983E5152, 0xA831C66D, 0xB00327C8, 0xBF597FC7, 0xC6E00BF3, 0xD5A79147, 0x06CA6351, 0x14292967]
def sha256K2 : List (BitVec 32) :=
  [0x27B70A85, 0x2E1B2138, 0x4D2C6DFC, 0x53380D13, 0x650A7354, 0x766A0ABB, 0x81C2C92E, 0x92722C85,
   0xA2BFE8A1, 0xA81A664B, 0xC24B8B70, 0xC76C51A3, 0xD192E819, 0xD6990624, 0xF40E3585, 0x106AA070]
def sha256K3 : List (BitVec 32) :=
  [0x19A4C116, 0x1E376C08, 0x2748774C, 0x34B0BCB5, 0x391C0CB3, 0x4ED8AA4A, 0x5B9CCA4F, 0x682E6FF3,
   0x748F82EE, 0x78A5636F, 0x84C87814, 0x8CC70208, 0x90BEFFFA, 0xA4506CEB, 0xBEF9A3F7, 0xC67178F2]
/-- Round constants of SHA-256. -/
def sha256K : List (BitVec 32) := sha256K0 ++ sha256K1 ++ sha256K2 ++ sha256K3
/-- Initial hash value of SHA-256. -/
def sha256H : List (BitVec 32) :=
  [0x6A09E667, 0xBB67AE85, 0x3C6EF372, 0xA54FF53A, 0x510E527F, 0x9B05688C, 0x1F83D9AB, 0x5BE0CD19]
def sha512K0 : List (BitVec 64) :=
  [0x428A2F98D728AE22, 0x7137449123EF65CD, 0xB5C0FBCFEC4D3B2F, 0xE9B5DBA58189DBBC,
   0x3956C25BF348B538, 0x59F111F1B605D019, 0x923F82A4AF194F9B, 0xAB1C5ED5DA6D8118,
   0xD807AA98A3030242, 0x12835B0145706FBE, 0x243185BE4EE4B28C, 0x550C7DC3D5FFB4E2,
   0x72BE5D74F27B896F, 0x80DEB1FE3B1696B1, 0x9BDC06A725C71235, 0xC19BF174CF692694]
def sha512K1 : List (BitVec 64) :=
  [0xE49B69C19EF14AD2, 0xEFBE4786384F25E3, 0x0FC19DC68B8CD5B5, 0x240CA1CC77AC9C65,
   0x2DE92C6F592B0275, 0x4A7484AA6EA6E483, 0x5CB0A9DCBD41FBD4, 0x76F988DA831153B5,
   0x983E5152EE66DFAB, 0xA831C66D2DB43210, 0xB00327C898FB213F, 0xBF597FC7BEEF0EE4,
   0xC6E00BF33DA88FC2, 0xD5A79147930AA725, 0x06CA6351E003826F, 0x142929670A0E6E70]
def sha512K2 : List (BitVec 64) :=
  [0x27B70A8546D22FFC, 0x2E1B21385C26C926, 0x4D2C6DFC5AC42AED, 0x53380D139D95B3DF,
   0x650A73548BAF63DE, 0x766A0ABB3C77B2A8, 0x81C2C92E47EDAEE6, 0x92722C851482353B,
   0xA2BFE8A14CF10364, 0xA81A664BBC423001, 0xC24B8B70D0F89791, 0xC76C51A30654BE30,
   0xD192E819D6EF5218, 0xD69906245565A910, 0xF40E35855771202A, 0x106AA07032BBD1B8]
def sha512K3 : List (BitVec 64) :=
  [0x19A4C116B8D2D0C8, 0x1E376C085141AB53, 0x2748774CDF8EEB99, 0x34B0BCB5E19B48A8,
   0x391C0CB3C5C95A63, 0x4ED8AA4AE3418ACB, 0x5B9CCA4F7763E373, 0x682E6FF3D6B2B8A3,
   0x748F82EE5DEFB2FC, 0x78A5636F43172F60, 0x84C87814A1F0AB72, 0x8CC702081A6439EC,
   0x90BEFFFA23631E28, 0xA4506CEBDE82BDE9, 0xBEF9A3F7B2C67915, 0xC67178F2E372532B]
def sha512K4 : List (BitVec 64) :=
  [0xCA273ECEEA26619C, 0xD186B8C721C0C207, 0xEADA7DD6CDE0EB1E, 0xF57D4F7FEE6ED178,
   0x06F067AA72176FBA, 0x0A637DC5A2C898A6, 0x113F9804BEF90DAE, 0x1B710B35131C471B,
   0x28DB77F523047D84, 0x32CAAB7B40C72493, 0x3C9EBE0A15C9BEBC, 0x431D67C49C100D4C,
   0x4CC5D4BECB3E42B6, 0x597F299CFC657E2A, 0x5FCB6FAB3AD6FAEC, 0x6C44198C4A475817]
/-- Round constants of SHA-512 and SHA-384. -/
def sha512K : List (BitVec 64) := sha512K0 ++ sha512K1 ++ sha512K2 ++ sha512K3 ++ sha512K4
/-- Initial hash value of SHA-384. -/
def sha384H : List (BitVec 64) :=
  [0xCBBB9D5DC1059ED8, 0x629A292A367CD507, 0x9159015A3070DD17, 0x152FECD8F70E5939,
   0x67332667FFC00B31, 0x8EB44A8768581511, 0xDB0C2E0D64F98FA7, 0x47B5481DBEFA4FA4]

/-- The rotation and shift amounts of a variant: big Σ0, big Σ1, small σ0, small σ1. -/
structure ShaAmounts where
  s0 : Nat × Nat × Nat
  s1 : Nat × Nat × Nat
  m0 : Nat × Nat × Nat
  m1 : Nat × Nat × Nat

def sha256Amounts : ShaAmounts := ⟨(2, 13, 22), (6, 11, 25), (7, 18, 3), (17, 19, 10)⟩
def sha512Amounts : ShaAmounts := ⟨(28, 34, 39), (14, 18, 41), (1, 8, 7), (19, 61, 6)⟩

def rot3 {w : Nat} (x : BitVec w) (a : Nat × Nat × Nat) : BitVec w :=
  x.rotateRight a.1 ^^^ x.rotateRight a.2.1 ^^^ x.rotateRight a.2.2
def rotShift {w : Nat} (x : BitVec w) (a : Nat × Nat × Nat) : BitVec w :=
  x.rotateRight a.1 ^^^ x.rotateRight a.2.1 ^^^ (x >>> a.2.2)

/-- `n` more words of the message schedule, newest first. -/
def shaExpand {w : Nat} (k : ShaAmounts) : Nat → List (BitVec w) → List (BitVec w)
  | 0, l => l
  | n + 1, l =>
    let at_ (i : Nat) : BitVec w := l.getD (i - 1) 0
    shaExpand k n ((rotShift (at_ 2) k.m1 + at_ 7 + rotShift (at_ 15) k.m0 + at_ 16) :: l)

/-- The eight working variables. -/
structure ShaVars (w : Nat) where
  a : BitVec w
  b : BitVec w
  c : BitVec w
  d : BitVec w
  e : BitVec w
  f : BitVec w
  g : BitVec w
  h : BitVec w

def shaRound {w : Nat} (k : ShaAmounts) (v : ShaVars w) (kw : BitVec w × BitVec w) : ShaVars w :=
  let t1 := v.h + rot3 v.e k.s1 + ((v.e &&& v.f) ^^^ (~~~v.e &&& v.g)) + kw.1 + kw.2
  let t2 := rot3 v.a k.s0 + ((v.a &&& v.b) ^^^ (v.a &&& v.c) ^^^ (v.b &&& v.c))
  ⟨t1 + t2, v.a, v.b, v.c, v.d + t1, v.e, v.f, v.g⟩

/-- One block of 16 words into the hash value. -/
def shaBlock {w : Nat} (k : ShaAmounts) (ks : List (BitVec w)) (h : List (BitVec w)) (m : List (BitVec w)) : List (BitVec w) :=
  let ws := (shaExpand k (ks.length - 16) m.reverse).reverse
  let at_ (i : Nat) : BitVec w := h.getD i 0
  let v := (ks.zip ws).foldl (shaRound k) ⟨at_ 0, at_ 1, at_ 2, at_ 3, at_ 4, at_ 5, at_ 6, at_ 7⟩
  [at_ 0 + v.a, at_ 1 + v.b, at_ 2 + v.c, at_ 3 + v.d, at_ 4 + v.e, at_ 5 + v.f, at_ 6 + v.g, at_ 7 + v.h]

/-- The first `n` blocks of `bytes` big-endian bytes per word. -/
def shaBlocks {w : Nat} (k : ShaAmounts) (ks : List (BitVec w)) (bytes : Nat) : Nat → List (BitVec w) → List Byte → List (BitVec w)
  | 0, h, _ => h
  | n + 1, h, l =>
    let m := (upto 16).map (fun i => BitVec.ofNat w (beNat ((l.drop (bytes * i)).take bytes)))
    shaBlocks k ks bytes n (shaBlock k ks h m) (l.drop (16 * bytes))

/-- The padded message: a 1 bit, zeros, and the length in bits. -/
def shaPad (bytes : Nat) (m : List Byte) : List Byte :=
  let block := 16 * bytes
  let z := (2 * block - (m.length + 1 + 2 * bytes) % block) % block
  m ++ [0x80] ++ List.replicate z 0 ++ beBytes (2 * bytes) (8 * m.length)

/-- SHA-256 (02 R58). -/
def sha256 (m : List Byte) : List Byte :=
  let p := shaPad 4 m
  (shaBlocks sha256Amounts sha256K 4 (p.length / 64) sha256H p).flatMap (fun x => beBytes 4 x.toNat)

/-- SHA-384 (22 R650). -/
def sha384 (m : List Byte) : List Byte :=
  let p := shaPad 8 m
  ((shaBlocks sha512Amounts sha512K 8 (p.length / 128) sha384H p).flatMap (fun x => beBytes 8 x.toNat)).take 48

/-- HMAC-SHA-256 (02 R58). -/
def hmac256 (key m : List Byte) : List Byte :=
  let k := if 64 < key.length then sha256 key else key
  let k := k ++ List.replicate (64 - k.length) 0
  sha256 (k.map (· ^^^ 0x5C) ++ sha256 (k.map (· ^^^ 0x36) ++ m))

end Sys2Proof.Machine
end

