-- ==== Sys2Proof/Machine/Records.lean ====
section
/-!
DEFINITION. Records on their way to streams (16_output_streams.md R483 to R485, R492): closing a record, the streams that
carry an input's gap records, and byte-string helpers.
-/
namespace Sys2Proof.Machine

/-- A record closes for stream `st` (16 R484). -/
def State.close (s : State) (st : Nat) (r : Record) : State := { s with closed := s.closed ++ [(st, s.now, r)] }

/-- A record closes for every stream of a list. -/
def State.closeAll (s : State) (sts : List Nat) (r : Record) : State := sts.foldl (fun s st => s.close st r) s

/-- Bit `n` of an array of 32-bit select words. -/
def State.sel (s : State) (f : Fld) (n : Nat) : Bool := bit (s.get (f.e (n / 32))) (n % 32)

/-- Bit `n` of the select words of element `u`. -/
def State.sel2 (s : State) (f : Fld) (u n : Nat) : Bool := bit (s.get (f.e2 u (n / 32))) (n % 32)

/-- The enabled streams (16 R483). -/
def State.enabledStreams (s : State) : List Nat :=
  (s.regs.filterMap (fun e =>
    if Reg.STR_SCFG_EN.covers e.1 then some ((e.1 - Reg.STR_SCFG_EN.off) / 0x20) else none)).filter
    (fun st => s.on (Reg.STR_SCFG_EN.e st))

/-- Trigger sources that take the samples, spectra or records of inputs they select: LEVEL, the masks and SK (09 R266). -/
def selectsInputs (src : Nat) : Bool := le 1 src && le src 5

/-- Bit `n` of the select words of element `u` in a bank. -/
def BankView.sel2 (b : BankView) (f : Fld) (u n : Nat) : Bool := bit (b.get (f.e2 u (n / 32))) (n % 32)

/-- Enabled beams; those of MODE `m` (0 POWER, 1 VOLT). -/
def xBeams (b : BankView) : List Nat :=
  bif b.on Reg.XSP_BCTRL_BEAMEN.z then (upto 64).filter (fun i => b.on (Reg.XSP_BCFG_EN.e i)) else []
def xMode (b : BankView) (m : Nat) : List Nat := (xBeams b).filter (fun i => b.get (Reg.XSP_BCFG_MODE.e i) == m)

/-- View `v` selects input `n`, or on the tuner plane a tuner of input `n` (07 R207). -/
def viewSelects (d t : BankView) (v n : Nat) : Bool :=
  bif d.get (Reg.DVW_CTRL_PLANE.e v) == 3 then
    (upto 128).any (fun b => d.sel2 Reg.DVW_MASK_SEL v b &&
      t.get (Reg.TUN_CTRL_INPUT.e (b + 128 * b2n (d.on (Reg.DVW_CTRL_THI.e v)))) == n)
  else d.sel2 Reg.DVW_MASK_SEL v n

/-- A producer of stream `st` takes data of input `n` (16 R485). The set is fixed at each commit: from its instant on it is the one of
the banks the commit brings. -/
def State.takesFrom (s : State) (st n : Nat) : Bool :=
  let d := s.nextView .detect
  let t := s.nextView .tuners
  let u := s.nextView .triggers
  let x := s.nextView .cross
  ((upto 1024).any (fun v => d.on (Reg.DVW_CTRL_EN.e v) && d.on (Reg.DVW_DEST_SEN.e v) &&
    d.get (Reg.DVW_DEST_STREAM.e v) == st && viewSelects d t v n)) ||
  ((upto 256).any (fun i => t.on (Reg.TUN_CTRL_EN.e i) && t.on (Reg.TUN_DEST_SEN.e i) &&
    t.get (Reg.TUN_DEST_STREAM.e i) == st && t.get (Reg.TUN_CTRL_INPUT.e i) == n)) ||
  ((upto 32).any (fun i => u.on (Reg.TRG_UCFG_EN.e i) && selectsInputs (u.get (Reg.TRG_UCFG_SRC.e i)) &&
    ((u.on (Reg.TRG_UACT_M0EN.e i) && u.get (Reg.TRG_UMARK_STREAM0.e i) == st) ||
     (u.on (Reg.TRG_UACT_M1EN.e i) && u.get (Reg.TRG_UMARK_STREAM1.e i) == st)) && u.sel2 Reg.TRG_USEL_SEL i n)) ||
  (x.on Reg.XSP_CTRL_EN.z && bit (x.get (Reg.XSP_INMASK_SEL.e (n / 32))) (n % 32) &&
    (x.get Reg.XSP_DEST_XSTREAM.z == st || (!(xMode x 0).isEmpty && x.get Reg.XSP_DEST_PSTREAM.z == st)
      || (!(xMode x 1).isEmpty && x.get Reg.XSP_BCTRL_VSTREAM.z == st)))

/-- The streams that carry the gap records of input `n` (16 R485). -/
def State.gapStreams (s : State) (n : Nat) : List Nat :=
  s.enabledStreams.filter (fun st =>
    let m := s.get (Reg.STR_SCFG_GAPMODE.e st)
    m == 2 || (m == 1 && s.takesFrom st n))

/-- `k` zero bytes. -/
def zeros (k : Nat) : List Byte := List.replicate k 0

/-- One byte. -/
def u8 (x : Nat) : List Byte := leBytes 1 x
def u16 (x : Nat) : List Byte := leBytes 2 x
def u32 (x : Nat) : List Byte := leBytes 4 x
def u48 (x : Nat) : List Byte := leBytes 6 x
def u64 (x : Nat) : List Byte := leBytes 8 x
/-- A time tag, 12 bytes. -/
def u96 (x : Nat) : List Byte := leBytes 12 x
/-- A two's complement number in `n` bytes. -/
def iN (n : Nat) (x : Int) : List Byte := leBytes n (toU (8 * n) x)

end Sys2Proof.Machine
end

