-- ==== Sys2Proof/Machine/Keep.lean ====
section
/-! DEFINITION. The keep domain (22_start_security_debug.md R643), the stored persistent set (02_control_access.md R44), the
fuses' vote and burn (22 R650), and what a reset of the engine die leaves (22 R640). -/

namespace Sys2Proof.Machine

/-! ### The keep record (R643) -/

/-- A step's entry from its register. -/
def stepEntry (w : Nat) : List Byte := u8 (bits w 24 8) ++ u8 (bits w 16 8) ++ u8 (bits w 14 2 + 4 * bits w 12 2) ++ u8 (bits w 0 8)

/-- SEC_STEP from an entry. -/
def entryWord (e : List Byte) : Nat :=
  leAt e 0 1 * 2 ^ 24 + leAt e 1 1 * 2 ^ 16 + bits (leAt e 2 1) 0 2 * 2 ^ 14 + bits (leAt e 2 1) 2 2 * 2 ^ 12 + leAt e 3 1

/-- The record of 128 bytes with write sequence `seq`. -/
def State.keepRecord (s : State) (seq : Nat) : List Byte :=
  let head := u16 0x4B57 ++ u8 1 ++ u8 (s.get Reg.DZ_STAT_ROLE.z) ++ u32 seq ++ u32 (s.obj 0x1005 0)
    ++ u8 (s.get Reg.SEC_RSTCAUSE_CAUSE.z) ++ u8 (s.get Reg.SEC_RSTCAUSE_MODE.z) ++ u8 (s.get Reg.PWR_CFG_BOOTMODE.z)
    ++ u8 (s.get Reg.SEC_CTRL_MAXTRY.z) ++ u32 (s.get Reg.SEC_TRGLOST_COUNT.z)
    ++ (upto 13).flatMap (fun k => stepEntry (s.word (Reg.SEC_STEP_ATTEMPTS.e k).off).toNat) ++ zeros 52
  head ++ u32 (crc32c head)

/-- A copy is valid: magic, version and CRC. -/
def keepValid (r : List Byte) : Bool :=
  r.length == 128 && leAt r 0 2 == 0x4B57 && leAt r 2 1 == 1 && leAt r 124 4 == crc32c (r.take 124)

/-- The record is written to the copy that was not written last. -/
def State.keepWrite (s : State) : State :=
  let x := s.sec
  let n := (x.keepSeq + 1) % 2 ^ 32
  let r := s.keepRecord n
  bif x.keepLast0 then { s with sec := { x with keep1 := r, keepSeq := n, keepLast0 := false } }
  else { s with sec := { x with keep0 := r, keepSeq := n, keepLast0 := true } }

/-- The copy in force: the one with the later sequence among the valid ones. -/
def Security.keepCopy (x : Security) : Option (List Byte × Bool) :=
  match keepValid x.keep0, keepValid x.keep1 with
  | true, true => if serialBefore 32 (leAt x.keep0 4 4) (leAt x.keep1 4 4) then some (x.keep1, false) else some (x.keep0, true)
  | true, false => some (x.keep0, true)
  | false, true => some (x.keep1, false)
  | false, false => none

/-- The fields of the keep record as their registers and objects show them. -/
def State.keepLoad (s : State) : State :=
  match s.sec.keepCopy with
  | none => { s with sec := { s.sec with keepOk := false } }
  | some (r, first) =>
    let s := { s with sec := { s.sec with keepOk := true, keepSeq := leAt r 4 4, keepLast0 := first } }
    let s := (s.put Reg.DZ_STAT_ROLE.z (leAt r 3 1)).setObj 0x1005 0 (leAt r 8 4)
    let s := (s.put Reg.SEC_RSTCAUSE_CAUSE.z (leAt r 12 1)).put Reg.SEC_RSTCAUSE_MODE.z (leAt r 13 1)
    let s := (s.put Reg.PWR_CFG_BOOTMODE.z (bits (leAt r 14 1) 0 2)).put Reg.SEC_CTRL_MAXTRY.z (leAt r 15 1)
    let s := s.put Reg.SEC_TRGLOST_COUNT.z (leAt r 16 4)
    (upto 13).foldl (fun s k =>
      s.setWord (Reg.SEC_STEP_ATTEMPTS.e k).off (BitVec.ofNat 32 (entryWord ((r.drop (20 + 4 * k)).take 4)))) s

/-- A loss of VKEEP (24 R689): both copies are invalid and PWR_SCRATCH is undefined (R643). -/
def State.keepLose (s : State) : State :=
  let s := { s with sec := { s.sec with keep0 := [], keep1 := [], keepOk := false } }
  (upto 16).foldl (fun s k => (s.setWord (Reg.PWR_SCRATCH_DATA.e k).off (BitVec.ofNat 32 (s.free 32))).took) s

/-! ### The stored persistent set (02 R44) -/

/-- The persistent registers, by offset. -/
def persistWords : List Nat :=
  [Reg.MEM_MAP_GLOG.off, Reg.CLK_REF_FREFA.off, Reg.PWR_CFG_BOOTMODE.off, Reg.PWR_GOV_LIMIT.off, Reg.DZ_CFG_EN.off]
    ++ (upto 16).map (fun b => Reg.CLK_BAND_VALID.off + 4 * b)
/-- The persistent objects of the control complex (R46). -/
def persistObjs : List Nat :=
  [objKey 0x1100 1, objKey 0x1100 2, objKey 0x1100 3, objKey 0x1100 4, objKey 0x1101 0, objKey 0x1102 0, objKey 0x1103 0,
   objKey 0x1104 0]
/-- The key of a persistent register in the set. -/
def wordKey (o : Nat) : Nat := 2 ^ 32 + o

/-- The key of the state of physical rank `p` in the set (15 R478). -/
def rankKey (p : Nat) : Nat := 2 ^ 33 + p
/-- The state of physical rank `p` in set `t`. -/
def rankIn (t : Tbl Nat) (p : Nat) : Nat := tget (fun _ => 0) t (rankKey p)
/-- Set `t` with the state of physical rank `p`. -/
def putRank (t : Tbl Nat) (p st : Nat) : Tbl Nat := tset (fun _ => 0) t (rankKey p) st

/-- A set of the persistent objects' values, `w` giving the registers' words and `o` the control complex's objects. -/
def persistSet (o : Nat → Nat) (w : Nat → Word) : Tbl Nat :=
  let t := persistObjs.foldl (fun t k => tset (fun _ => 0) t k (o k)) []
  persistWords.foldl (fun t a => tset (fun _ => 0) t (wordKey a) (w a).toNat) t

/-- The current values of every persistent object, the rank states among them (15 R478). -/
def State.persistNow (s : State) : Tbl Nat :=
  (upto 768).foldl (fun t p => putRank t p (s.get (Reg.MEM_RANK_STATE.e p))) (persistSet (tget objDefault s.ctl.objs) s.word)

/-- A set that a change of a rank's state creates where no valid copy exists: every other object at its default. -/
def defaultSet : Tbl Nat := persistSet objDefault resetWord

/-- The state of rank `p` is written into both stored copies, and into the set that a STORE under way will leave (15 R478). -/
def Control.setRank (c : Control) (p st : Nat) : Control :=
  let f (t : Option (Tbl Nat)) : Option (Tbl Nat) := some (putRank (t.getD defaultSet) p st)
  { c with stored0 := f c.stored0, stored1 := f c.stored1,
           persistOp := match c.persistOp with
             | some (some t) => some (some (putRank t p st))
             | x => x }

/-- A register takes its value from set `t`. -/
def State.restoreWord (t : Tbl Nat) (s : State) (o : Nat) : State :=
  s.setWord o (BitVec.ofNat 32 (tget (fun _ => 0) t (wordKey o)))

/-- The set a step reads a register from: copy 0, else copy 1, else the default (R44). -/
def Control.storedSet (c : Control) : Option (Tbl Nat) :=
  match c.stored0 with
  | some t => some t
  | none => c.stored1

/-! ### The fuses (R650) -/

/-- The majority of three copies of a value's bits. -/
def major (a b c : Nat) : Nat := (a &&& b) ||| (a &&& c) ||| (b &&& c)
def majorBytes (a b c : List Byte) : List Byte :=
  (a.zip (b.zip c)).map (fun x => (x.1 &&& x.2.1) ||| (x.1 &&& x.2.2) ||| (x.2.1 &&& x.2.2))
def Security.voted (x : Security) : Fuses :=
  { lc := major x.fuse0.lc x.fuse1.lc x.fuse2.lc
    keys := (x.fuse0.keys.zip (x.fuse1.keys.zip x.fuse2.keys)).map (fun k => majorBytes k.1 k.2.1 k.2.2)
    revoked := major x.fuse0.revoked x.fuse1.revoked x.fuse2.revoked
    svn := major x.fuse0.svn x.fuse1.svn x.fuse2.svn }

/-- The copies a burn reached are written, in the order 0, 1, 2. -/
def Security.burnt (x : Security) (k : Nat) : Security :=
  match x.burn with
  | none => x
  | some f => { x with burn := none, fuse0 := if 1 ≤ k then f else x.fuse0, fuse1 := if 2 ≤ k then f else x.fuse1,
                       fuse2 := if 3 ≤ k then f else x.fuse2 }

/-! ### A reset of the engine die (R640, R641) -/

/-- The part of a word that a reset keeps: under a set lock bit the lock bit and the locked fields (R640), the MSI-X table. -/
def State.keptWord (s : State) (warm : Bool) (o : Nat) (w : Word) : Option Word :=
  if Reg.PWR_SCRATCH_DATA.covers o || o == Reg.PWR_STAT_SUPGOOD.off then some (if o = Reg.PWR_STAT_SUPGOOD.off
    then BitVec.ofNat 32 ((resetWord o).toNat / 256 * 256 + w.toNat % 256) else w)
  else if !warm then none
  else if le 0x80000 o && lt o 0x90000 then some w
  else match blkAt o with
    | none => none
    | some b =>
      if s.on b.lock then
        if o == b.lock.off then some w
        else
          let m := accMask b o .rwl
          some (BitVec.ofNat 32 (((resetWord o).toNat &&& (0xFFFFFFFF - m)) ||| (w.toNat &&& m)))
      else none

/-- The registers a reset keeps. -/
def State.keptRegs (s : State) (warm : Bool) : Tbl Word :=
  s.regs.foldl (fun t e => match s.keptWord warm e.1 e.2 with
    | some w => tset resetWord t e.1 w
    | none => t) []

/-- What a reset leaves of the stored copies where a STORE or an ERASE is under way (02 R44, R654): the store writes copy 1 and
then copy 0, and how far it had come is free. -/
def Control.cut (c : Control) (k : Nat) : Option (Tbl Nat) × Option (Tbl Nat) :=
  match c.persistOp with
  | none => (c.stored0, c.stored1)
  | some (some t) =>
    if k = 0 then (c.stored0, c.stored1) else if k = 1 then (c.stored0, none) else if k = 2 then (c.stored0, some t)
    else (none, some t)
  | some none => (if bit k 0 then none else c.stored0, if bit k 1 then none else c.stored1)

/-- What a reset records before it acts (R613, R641, R644): a start step cut short counts as an attempt and has failed, the cause and
mode, the keep domain. -/
def State.resetRecord (s : State) (cause : Nat) : State :=
  let s := bif s.ctl.persistOp.isSome then s.took else s
  let s := match s.sec.step with
    | some j => bif cause == 6 then s else (s.count (Reg.SEC_STEP_ATTEMPTS.e j) 1).put (Reg.SEC_STEP_LASTFAIL.e j) 1
    | none => s
  let s := (s.put Reg.SEC_RSTCAUSE_CAUSE.z cause).put Reg.SEC_RSTCAUSE_MODE.z (s.get Reg.PWR_STAT_MODE.z)
  bif s.sec.keepOk then s.keepWrite else s

/-- The machine a reset leaves: everything at its reset value but what survives it. -/
def State.resetFresh (s : State) (warm : Bool) (cause : Nat) (kept : Option (Tbl Nat) × Option (Tbl Nat)) (x : Security) : State :=
  let sec : Security :=
    { Security.reset with
      step := if x.pin || x.supply || s.pwr.tripHold || cause == 6 then none else some 0,
      pin := x.pin, supply := x.supply, wait := cause == 6,
      failedLast := x.failed || (x.step.isSome && cause != 6), keep0 := x.keep0, keep1 := x.keep1, fuse0 := x.fuse0, fuse1 := x.fuse1, fuse2 := x.fuse2,
      tried := x.tried, flash := x.flash, refusals := if warm then x.refusals else 0,
      lockSecs := if warm then x.lockSecs else 0, extended := x.extended, crystal := x.crystal }
  { State.reset with
    regs := s.keptRegs warm, freeCount := s.freeCount, out := s.out, pending := s.pending, sec := sec,
    ctl := { Control.reset with oapKey := s.ctl.oapKey, stored0 := kept.1, stored1 := kept.2, rcSlow := s.keptRegs warm,
                                rcKeep := s.keptRegs warm },
    pwr := { Power.reset with tripHold := s.pwr.tripHold }, trg := { Triggers.reset with ins := s.trg.ins } }

/-- What the part itself gives its registers after a reset: the thresholds of its grade (21 R631), and the source of CK_KEEP (20 R596). -/
def State.partRegs (s : State) : State :=
  let s := s.flag Reg.CLK_STAT_KXTAL.z s.sec.crystal
  bif s.sec.extended then (s.put Reg.THM_CFG_T_THR.z 1600).put Reg.THM_CFG_T_CRIT.z 1680 else s

/-- Causes of a reset (R643): 1 SUPPLY, 2 RESET_N, 3 THERMTRIP, 4 SOFT, 5 WATCHDOG, 6 STEPFAIL. The last three keep lock bits,
locked fields, the MSI-X table and the RESP lockout. -/
def State.dieReset (s : State) (cause : Nat) : State :=
  let warm := le 4 cause
  let k := s.free 2
  let burning := s.sec.burn.isSome
  let s := bif burning then s.took else s
  let kept := s.ctl.cut (s.free 2)
  let s := s.resetRecord cause
  let open_ := s.get Reg.SEC_STAT_DBG.z != 0
  let n := s.resetFresh warm cause kept (s.sec.burnt k)
  let n := (n.partRegs.keepLoad).flag Reg.SEC_STAT_LOCKOUT.z (warm && s.on Reg.SEC_STAT_LOCKOUT.z)
  bif open_ then n.ev 86 else n

/-- Nothing holds the reset any more: the start sequence begins at S00 (R613, R640). -/
def State.startFree (s : State) : State :=
  let x := s.sec
  bif x.pin || x.supply || x.wait || s.pwr.tripHold then s
  else { s.put Reg.PWR_STAT_MODE.z 2 with sec := { x with step := some 0 } }

/-- The engine runs: it is not held in reset, and not in Keep (R613, R629, R640). -/
def State.alive (s : State) : Bool :=
  !s.sec.pin && !s.sec.supply && !s.sec.wait && !s.pwr.tripHold && s.get Reg.PWR_STAT_MODE.z != 1

end Sys2Proof.Machine
end

