-- ==== Sys2Proof/Machine/Package.lean ====
section
/-!
DEFINITION. The pins and the package (24_electrical_and_package.md): the boundary-scan register (R699), the state of each group of pins
(R693), and the ball map (R701 to R704).
-/
namespace Sys2Proof.Machine

/-! ### Single-ended pins and the boundary-scan register (R699, R703) -/

/-- A single-ended pin or a clock pin: its name and number. -/
inductive Pin where
  | ppsIn
  | trigIn (k : Nat)
  | trigOut (k : Nat)
  | mgmtTxc
  | mgmtTxCtl
  | mgmtTxd (k : Nat)
  | mgmtRxc
  | mgmtRxCtl
  | mgmtRxd (k : Nat)
  | mgmtMdc
  | mgmtMdio
  | touchScl
  | touchSda
  | touchTint
  | spiClk
  | spiCsN
  | spiIo (k : Nat)
  | dpHpd (k : Nat)
  | jtagTck
  | jtagTms
  | jtagTdi
  | jtagTdo
  | resetN
  | hkIn (k : Nat)
  | xkeepI
  | xkeepO
  | coreSense
  | vssSense
  | vkeep
  | ref (k : Nat)
  | clkout (k : Nat)
  | sysrefOut
deriving DecidableEq, Repr

/-- The single-ended pins at positions q = 0 to 60 (R703). -/
def singlePins : List Pin :=
  [.ppsIn] ++ (upto 8).map .trigIn ++ (upto 8).map .trigOut ++ [.mgmtTxc, .mgmtTxCtl] ++ (upto 4).map .mgmtTxd
    ++ [.mgmtRxc, .mgmtRxCtl] ++ (upto 4).map .mgmtRxd ++ [.mgmtMdc, .mgmtMdio, .touchScl, .touchSda, .touchTint, .spiClk, .spiCsN]
    ++ (upto 4).map .spiIo ++ [.dpHpd 0, .dpHpd 1, .jtagTck, .jtagTms, .jtagTdi, .jtagTdo, .resetN] ++ (upto 8).map .hkIn
    ++ [.xkeepI, .xkeepO, .coreSense, .vssSense, .vkeep, .vkeep]

/-- The kind of a boundary-scan cell (R699). -/
inductive CellKind where
  | input
  | output
  | control
deriving DecidableEq, Repr

/-- The cells of a pin, in the order given (R699); none for a pin outside the register. -/
def pinCells : Pin → List CellKind
  | .ppsIn | .trigIn _ | .mgmtRxc | .mgmtRxCtl | .mgmtRxd _ | .touchTint | .dpHpd _ | .ref _ => [.input]
  | .trigOut _ | .mgmtTxc | .mgmtTxCtl | .mgmtTxd _ | .mgmtMdc | .spiClk | .spiCsN | .clkout _ | .sysrefOut => [.output, .control]
  | .mgmtMdio | .touchScl | .touchSda | .spiIo _ => [.input, .output, .control]
  | .jtagTck | .jtagTms | .jtagTdi | .jtagTdo | .resetN | .hkIn _ | .xkeepI | .xkeepO | .coreSense | .vssSense | .vkeep => []

/-- The boundary-scan register: cell 0 is nearest TDO (R699). -/
def scanRegister : List (Pin × CellKind) :=
  let pins : List Pin := singlePins ++ [.ref 0, .ref 1] ++ (upto 4).map .clkout ++ [.sysrefOut]
  pins.flatMap (fun p => (pinCells p).map (fun c => (p, c)))

/-- The contents of the register: 85 cells; the safe value of a cell not given is 0 (R699). -/
def scanCells (l : List Bool) : List Bool := (l ++ List.replicate 85 false).take 85

/-- Pins that are open-drain: an output cell of 1 leaves them released (R693, R699). -/
def openDrain (p : Pin) : Bool := p == .touchScl || p == .touchSda

/-- The pins that the cells `l` drive, with their levels: a control cell of 1 enables the driver (R699). -/
def scanDriven (l : List Bool) : List (Pin × Bool) :=
  let cs := scanRegister.zip (scanCells l)
  let enabled (p : Pin) : Bool := cs.any (fun c => c.1 == (p, CellKind.control) && c.2)
  (cs.filter (fun c => c.1.2 == .output && enabled c.1.1 && !(openDrain c.1.1 && c.2))).map (fun c => (c.1.1, c.2))

/-! ### Pin states (R693) -/

/-- The groups of pins of R693. -/
inductive PinGroup where
  | trigOut
  | clocks
  | lanes
  | mgmt
  | spiCs
  | tdo
  | touch
deriving DecidableEq, Repr

/-- What a pin shows: nothing, no power, electrical idle, its pull, the inactive level of its settings, open-drain and released, or what
its own block drives. -/
inductive PinState where
  | highZ
  | unpowered
  | idle
  | pulledHigh
  | inactive
  | released
  | driven
deriving DecidableEq, Repr

/-- The core supplies are not good (21 R613). -/
def State.coreLost (s : State) : Bool := bits (s.get Reg.PWR_STAT_SUPGOOD.z) 0 3 != 7

/-- "Off" (R693): neither the core supplies nor VKEEP are good. -/
def State.off (s : State) : Bool := s.coreLost && !bit (s.get Reg.PWR_STAT_SUPGOOD.z) 7

/-- Touch is enabled (17 R538). -/
def State.touchOn (s : State) : Bool := s.on Reg.DSP_TCFG_EN.z

/-- The state of a group of pins in the present mode (R693). High-speed lanes in Sleep are idle but for the host port and trained Dziast
lanes; JTAG_TDO is driven in Shift-IR and Shift-DR alone, which this block does not see (log 77). -/
def State.pinState (s : State) (g : PinGroup) : PinState :=
  let keep := s.coreLost || s.get Reg.PWR_STAT_MODE.z == 1
  if s.off then (match g with
    | .lanes | .tdo => .unpowered
    | _ => .highZ)
  else if keep then (match g with
    | .lanes => .unpowered
    | _ => .highZ)
  else if !s.alive then (match g with
    | .lanes => .idle
    | .spiCs => .pulledHigh
    | _ => .highZ)
  else if s.runs then (match g with
    | .tdo => .highZ
    | .touch => bif s.touchOn then .driven else .released
    | _ => .driven)
  else match g with
    | .trigOut => .inactive
    | .lanes => .idle
    | .tdo => .highZ
    | .touch => bif s.touchOn then .driven else .released
    | _ => .driven

/-! ### The ball map (R701 to R704) -/

/-- What a ball carries: the P or N leg of a pair of a region, a single-ended pin, a supply, or VSS; no ball at 001/001. -/
inductive Ball where
  | pair (region : String) (p : Nat) (positive : Bool)
  | pin (p : Pin)
  | supply (name : String)
  | vss
  | absent
deriving DecidableEq, Repr

/-- A region of differential pairs (R702): name, pairs, c0, r0, w, and its extent as first and last column, first and last row. -/
structure PairRegion where
  name : String
  pairs : Nat
  c0 : Nat
  r0 : Nat
  w : Nat
  cEnd : Nat
  rEnd : Nat
deriving DecidableEq, Repr

/-- The regions (R702): each begins at its first ball. -/
def pairRegions : List PairRegion :=
  [⟨"LD0", 32, 2, 10, 4, 11, 32⟩, ⟨"LD1", 32, 55, 2, 8, 76, 12⟩, ⟨"LD2", 32, 80, 60, 4, 89, 82⟩, ⟨"LD3", 32, 15, 80, 8, 36, 90⟩,
   ⟨"ETX", 64, 2, 40, 4, 11, 86⟩, ⟨"ERX", 64, 80, 2, 4, 89, 48⟩, ⟨"PCIe", 64, 15, 2, 12, 48, 18⟩, ⟨"misc", 41, 40, 80, 14, 79, 87⟩]

/-- The ball at column `c` and row `r` lies in the region's extent. -/
def PairRegion.holds (g : PairRegion) (c r : Nat) : Bool := g.c0 ≤ c && c ≤ g.cEnd && g.r0 ≤ r && r ≤ g.rEnd

/-- The ball of a pair (R702): column, and row of its P leg. -/
def PairRegion.ball (g : PairRegion) (p : Nat) : Nat × Nat := (g.c0 + 3 * (p % g.w), g.r0 + 3 * (p / g.w))

/-- What a ball of a region carries (R702). -/
def PairRegion.at_ (g : PairRegion) (c r : Nat) : Ball :=
  match (upto g.pairs).find? (fun p => let b := g.ball p
                                       b.1 == c && (b.2 == r || b.2 + 1 == r)) with
  | some p => .pair g.name p ((g.ball p).2 == r)
  | none => .vss

/-- A rectangle of balls of a supply (R704): name, first and last column, first and last row. -/
structure SupplyArea where
  name : String
  c0 : Nat
  cEnd : Nat
  r0 : Nat
  rEnd : Nat
deriving DecidableEq, Repr

def supplyAreas : List SupplyArea :=
  [⟨"VDD_CORE", 25, 65, 25, 65⟩, ⟨"VDD_SRAM", 25, 65, 21, 24⟩, ⟨"VDD_SRAM", 25, 65, 66, 69⟩, ⟨"VDDA_LANE", 21, 24, 25, 65⟩,
   ⟨"VDDA_LANE", 66, 69, 25, 65⟩, ⟨"VDD_LANE", 14, 20, 21, 75⟩, ⟨"VDD_LANE", 70, 76, 21, 75⟩, ⟨"VDD_IO", 77, 79, 50, 58⟩,
   ⟨"VPP_HBM", 25, 65, 70, 70⟩, ⟨"VDDQ_HBM", 25, 65, 71, 76⟩]

/-- The balls of the single-ended region: columns 080 to 089, rows 050 to 058 (R703). -/
def singleBall (c r : Nat) : Option Nat := if 80 ≤ c ∧ c ≤ 89 ∧ 50 ≤ r ∧ r ≤ 58 then some (c - 80 + 10 * (r - 50)) else none

/-- The ball at column `c` and row `r`, both from 1 to 90 (R701 to R704). -/
def ballAt (c r : Nat) : Ball :=
  if c = 1 ∧ r = 1 then .absent
  else match pairRegions.find? (fun g => g.holds c r) with
    | some g => g.at_ c r
    | none => match singleBall c r with
      | some q => (match singlePins[q]? with
        | some p => .pin p
        | none => .vss)
      | none => match supplyAreas.find? (fun a => a.c0 ≤ c && c ≤ a.cEnd && a.r0 ≤ r && r ≤ a.rEnd) with
        | some a => if (c + r) % 2 = 0 then .supply a.name else .vss
        | none => .vss

end Sys2Proof.Machine
end

