-- ==== Sys2Proof/Machine/Memory.lean ====
section
/-!
DEFINITION. On-die memory and the HBM system (15_memory_system.md): the addressed memories, ECC and poison, ranks and their
migration, refresh and power-down. Folding, which the recorder takes part in, stands in Recorder.lean.
-/
namespace Sys2Proof.Machine

/-- The canonical form of a memory: addresses strictly rising, no entry equal to what an unlisted address reads as. -/
def Memory.wf (m : Memory) : Bool := twf memDefault m

/-! ### DMA addresses (14 R431) -/

def hbmSpace : Nat := 0
def galAddr (g o : Nat) : Nat := 2 ^ 44 + g * 2 ^ 25 + o
def tileAddr (t o : Nat) : Nat := 2 * 2 ^ 44 + t * 2 ^ 21 + o

/-! ### Reading and writing bytes -/

/-- The byte of memory `m` at address `a`. -/
def Memory.read (m : Memory) (a : Nat) : Byte := tget memDefault m a

/-- `m` with byte `b` at address `a`. -/
def Memory.write (m : Memory) (a : Nat) (b : Byte) : Memory := tset memDefault m a b

/-- `m` with the bytes `bs` from address `a` on. -/
def Memory.writeAll (m : Memory) (a : Nat) : List Byte → Memory
  | [] => m
  | b :: bs => Memory.writeAll (m.write a b) (a + 1) bs

/-- The `n` bytes of `m` from address `a` on. -/
def Memory.readAll (m : Memory) (a n : Nat) : List Byte := (upto n).map (fun i => m.read (a + i))

/-! ### The HBM address space (R459, R460) -/

/-- The size in force: 0 before start step S06. -/
def State.hbmSize (s : State) : Nat := s.get64 Reg.MEM_SIZE_L_VAL.z Reg.MEM_SIZE_H_VAL.z
/-- G, U and D in force. -/
def State.grain (s : State) : Nat := 2 ^ (8 + s.get Reg.MEM_STAT_GLOG.z)
def State.ranksU (s : State) : Nat := 768 - s.get Reg.MEM_STAT_NSP.z
def State.grainsD (s : State) : Nat := 375000000 / s.grain
/-- The logical rank and the offset in it of HBM address `a`. -/
def State.rankOf (s : State) (a : Nat) : Nat := a / s.grain % s.ranksU
def State.offsetOf (s : State) (a : Nat) : Nat := a / s.grain / s.ranksU * s.grain + a % s.grain

def State.remapOf (s : State) (u : Nat) : Remap := tget Remap.plain s.msys.remap u
def State.setRemap (s : State) (u : Nat) (r : Remap) : State :=
  { s with msys := { s.msys with remap := tset Remap.plain s.msys.remap u r } }

/-- The physical rank that serves address `a`: during a migration, the target for grains below the watermark (R474). -/
def State.physOf (s : State) (a : Nat) : Nat :=
  let u := s.rankOf a
  match s.msys.mig with
  | some (v, p, some q) => if v = u then (if s.offsetOf a / s.grain < s.get Reg.MEM_MIGPOS_W.z then q else p) else (s.remapOf u).phys
  | _ => (s.remapOf u).phys

/-- The stack of a physical rank: its pseudo-channel ÷ 32. -/
def stackOf (p : Nat) : Nat := p % 256 / 32

def rankState (p : Nat) : Loc := Reg.MEM_RANK_STATE.e p
/-- The stack's events (R482). -/
def State.memEv (s : State) (h k : Nat) : State := s.ev (456 + 3 * h + k)

/-- The stored state of rank `p`. -/
def State.setStored (s : State) (p st : Nat) : State := { s with ctl := s.ctl.setRank p st }

/-- A rank changes state: its event, and the stored set takes the new state (R472, R478). -/
def State.rankTo (s : State) (p st : Nat) : State :=
  let s := s.put (rankState p) st
  let s := s.setStored p st
  let n := ((upto 768).filter (fun q => s.get (rankState q) == 1)).length
  (s.put Reg.MEM_STAT_SPARES.z n).memEv (stackOf p) 2

/-- The rank's migration is asked for, unless it waits or is neither ACTIVE nor the target of the migration under way (R472, R475). -/
def State.askMigration (s : State) (p : Nat) : State :=
  bif (s.get (rankState p) != 0 && s.get (rankState p) != 3) || s.msys.waiting.contains p then s
  else { s with msys := { s.msys with waiting := s.msys.waiting ++ [p] } }

/-! ### Poison and errors (R468 to R470) -/

def State.poisoned (s : State) (a : Nat) : Bool :=
  lt a (2 ^ 44) && (s.msys.poison.contains (a / 32) || (s.remapOf (s.rankOf a)).lost)

/-- Byte `a` as its requester finds it: 0 where its word is poisoned. -/
def State.peek (s : State) (a : Nat) : Byte := if s.poisoned a then 0 else s.mem.read a
def State.peekAll (s : State) (a n : Nat) : List Byte := (upto n).map (fun i => s.peek (a + i))

/-- `bs` are written from address `a` on: bytes for a LOST rank are discarded, and an ECC word replaced whole is poisoned no
more (R469, R477). -/
def State.pokeAll (s : State) (a : Nat) (bs : List Byte) : State :=
  bif lt a (2 ^ 44) then
    let lostAt (i : Nat) := (s.remapOf (s.rankOf (a + i))).lost
    let m := ((bs.zip (upto bs.length)).filter (fun c => !lostAt c.2)).foldl (fun m c => m.write (a + c.2) c.1) s.mem
    let whole (w : Nat) := le a (32 * w) && le (32 * w + 32) (a + bs.length)
    let s2 := { s with mem := m, msys := { s.msys with poison := s.msys.poison.filter (fun w => !whole w) } }
    bif (upto bs.length).any lostAt then s2.count Reg.MEM_LOSTW_COUNT.z 1 else s2
  else { s with mem := s.mem.writeAll a bs }

/-- A word of stack `h` was corrected, against physical rank `p` (R468). -/
def State.eccCorrected (s : State) (p k : Nat) : State :=
  let h := stackOf p
  let first := s.get (Reg.MEM_CE_COUNT.e h) == 0
  let s := (s.count (Reg.MEM_RANK_CE.e p) k).count (Reg.MEM_CE_COUNT.e h) k
  bif first && lt 0 k then s.memEv h 0 else s

/-- The first uncorrectable word since the capture was released is logged with its requester (R470). -/
def State.logUe (s : State) (a src : Nat) : State :=
  bif s.on Reg.MEM_UESRC_VALID.z then s
  else ((s.put64 Reg.MEM_UELOG_L_VAL.z Reg.MEM_UELOG_H_VAL.z (a % 2 ^ 48)).put Reg.MEM_UESRC_SRC.z src).flag
    Reg.MEM_UESRC_VALID.z true

/-- An uncorrectable word at HBM address `a` found by requester `src` (R468 to R472). -/
def State.uncorrectable (s : State) (a src : Nat) : State :=
  bif s.poisoned a then s
  else
    let p := s.physOf a
    let h := stackOf p
    let s := { s with msys := { s.msys with poison := (a / 32) :: s.msys.poison } }
    ((((s.count (Reg.MEM_UE_COUNT.e h) 1).memEv h 1).logUe a src)).askMigration p

/-- The gallery whose UE event an on-die SRAM word raises (R456). -/
def sramIndex (a : Nat) : Nat := if a / 2 ^ 44 = 1 then a / 2 ^ 25 % 8 else a / 2 ^ 21 % 64 / 8

/-- The eight bytes from `w` on become zero. -/
def State.zeroWord (s : State) (w : Nat) : State := { s with mem := s.mem.writeAll w (zeros 8) }
/-- The ranks that wait for a migration. -/
def State.setWaiting (s : State) (l : List Nat) : State := { s with msys := { s.msys with waiting := l } }
/-- The migration under way. -/
def State.setMig (s : State) (x : Nat × Nat × Option Nat) : State := { s with msys := { s.msys with mig := some x } }


/-- An on-die SRAM word with `bad` wrong bits (R456): corrected, or returned as zero and logged. -/
def State.sramError (s : State) (a bad : Nat) : State :=
  bif bad == 0 then s
  else bif bad == 1 then s.count Reg.MEM_SRAMCE_COUNT.z 1
  else
    let w := a / 8 * 8
    let s := s.zeroWord w
    ((s.count Reg.MEM_SRAMUE_COUNT.z 1).logUe a 0x86).memEv (sramIndex a) 1

/-! ### Banks: rows, refresh, power (R463 to R466, R479) -/

def bankKey (rank bank : Nat) : Nat := rank * 16 + bank
def State.openRow (s : State) (rank bank : Nat) : Option Nat := tget (fun _ => none) s.msys.rows (bankKey rank bank)
def State.setRow (s : State) (rank bank : Nat) (r : Option Nat) : State :=
  { s with msys := { s.msys with rows := tset (fun _ => none) s.msys.rows (bankKey rank bank) r } }
def State.owed (s : State) (rank bank : Nat) : Nat := tget (fun _ => 0) s.msys.owed (bankKey rank bank)
def State.setOwed (s : State) (rank bank k : Nat) : State :=
  { s with msys := { s.msys with owed := tset (fun _ => 0) s.msys.owed (bankKey rank bank) k } }

/-- A pseudo-channel controller serves a request (R463, R464, R468, R469): the row opens, its wrong bytes are corrected or
poison their word, and a write's bytes reach memory. -/
def State.hbmDo (s : State) (q : HbmReq) : State :=
  let p := s.physOf q.addr
  let o := s.offsetOf q.addr
  let s := { s with msys := { s.msys with power := tset (fun _ => 0) s.msys.power (p % 256) 0 } }
  let s := s.setRow p (o / 1024 % 16) (bif s.get Reg.MEM_PAGE_IDLE.z == 0 then none else some (o / 16384))
  let s := bif q.bad == 0 then s else bif q.bad == 1 then s.eccCorrected p 1 else s.uncorrectable q.addr q.src
  bif q.write then s.pokeAll q.addr q.data else s

/-! ### The order of service (R464) -/

/-- Bank and row of a request, and whether it hits the bank's open row. -/
def State.reqBank (s : State) (q : HbmReq) : Nat := bankKey (s.physOf q.addr) (s.offsetOf q.addr / 1024 % 16)
def State.reqHits (s : State) (q : HbmReq) : Bool :=
  s.openRow (s.physOf q.addr) (s.offsetOf q.addr / 1024 % 16) == some (s.offsetOf q.addr / 16384)

/-- Two requests share an ECC word. -/
def HbmReq.meets (q r : HbmReq) : Bool :=
  le (q.addr / 32) ((r.addr + max 1 r.data.length - 1) / 32) && le (r.addr / 32) ((q.addr + max 1 q.data.length - 1) / 32)

/-- The requests that no older one to the same bytes precedes, with the older requests to the same bank of each. -/
def State.reqReady (s : State) : List (HbmReq × Nat) → List (HbmReq × Nat) → List ((HbmReq × Nat) × List (HbmReq × Nat))
  | _, [] => []
  | old, q :: qs =>
    (bif old.any (fun r => r.1.meets q.1) then [] else [(q, old.filter (fun r => s.reqBank r.1 == s.reqBank q.1))])
      ++ s.reqReady (old ++ [q]) qs

/-- The request served next, `drain` while writes are drained: reads before writes otherwise, row hits first unless an older request to
the bank has been passed over HITCAP times, else the oldest. -/
def State.reqNext (s : State) (drain : Bool) (qs : List (HbmReq × Nat)) : Option (HbmReq × Nat) :=
  let ready := s.reqReady [] qs
  let mine := ready.filter (fun r => r.1.1.write == drain)
  let l := bif mine.isEmpty then ready else mine
  let hit := l.find? (fun r => s.reqHits r.1.1 && r.2.all (fun o => lt o.2 (s.get Reg.MEM_PAGE_HITCAP.z)))
  (hit.orElse (fun _ => l.head?)).map (·.1)

/-- The controller serves its queue; writes are drained from WHI of them on down to WLO (R464). -/
def State.hbmServe (s : State) : Nat → Bool → List (HbmReq × Nat) → State
  | 0, _, _ => s
  | n + 1, drain, qs =>
    let writes := (qs.filter (fun q => q.1.write)).length
    let drain := bif drain then lt (s.get Reg.MEM_PAGE_WLO.z) writes else le (s.get Reg.MEM_PAGE_WHI.z) writes
    match s.reqNext drain qs with
    | none => s
    | some q =>
      let older := (qs.takeWhile (· ≠ q)).map (fun r => bif s.reqBank r.1 == s.reqBank q.1 then (r.1, r.2 + 1) else r)
      (s.hbmDo q.1).hbmServe n drain (older ++ (qs.dropWhile (· ≠ q)).drop 1)

/-- The requests `qs`, in their order of arrival, reach their controllers. -/
def State.hbmRun (s : State) (qs : List HbmReq) : State := s.hbmServe qs.length false (qs.map (fun q => (q, 0)))

/-- A request to address `a` is held (R474): its rank's remap entry has no two agreeing copies, or its grain is being copied. -/
def State.hbmHolds (s : State) (a : Nat) : Bool :=
  s.ctl.tvStopped.contains (2 ^ 26 + s.rankOf a)
    || match s.msys.mig with
       | some (v, _, _) => v == s.rankOf a && s.get Reg.MEM_STAT_MIG.z == 1 && s.offsetOf a / s.grain == s.get Reg.MEM_MIGPOS_W.z
       | none => false

/-- HBM_ACCESS: a request is served, or held (R474); `badBytes` of its first ECC word are found wrong. On-die SRAM errors (R456) come
through its addresses too. -/
def execHbmAccess (write : Bool) (addr : Nat) (data : List Byte) (src badBytes : Nat) (s : State) : Res :=
  .next <| bif le (2 ^ 44) addr then (bif write then s.pokeAll addr data else s).sramError addr badBytes
    else bif !lt addr s.hbmSize then s
    else bif s.hbmHolds addr then
      { s with msys := { s.msys with held := s.msys.held ++ [⟨write, addr, data, src, badBytes⟩] } }
    else s.hbmRun [⟨write, addr, data, src, badBytes⟩]

/-! ### The remap entry as a TV word (02 R73, R473, R474) -/

/-- The entry of logical rank `u` with its watermark as one word: physical rank, folded, lost, watermark. -/
def State.remapWord (s : State) (u : Nat) : Nat :=
  let r := s.remapOf u
  let w := match s.msys.mig with
    | some (v, _, _) => if v = u then s.get Reg.MEM_MIGPOS_W.z else 0
    | none => 0
  r.phys + 2 ^ 10 * b2n r.folded + 2 ^ 11 * b2n r.lost + 2 ^ 12 * w

/-- The entry of logical rank `u` takes the value two copies agree on. -/
def State.setRemapWord (s : State) (u x : Nat) : State :=
  let s := s.setRemap u ⟨x % 2 ^ 10, bit x 10, bit x 11⟩
  match s.msys.mig with
  | some (v, _, _) => bif v == u then s.put Reg.MEM_MIGPOS_W.z (x / 2 ^ 12) else s
  | none => s

/-- The requests held for logical rank `u` that nothing holds any more are released in arrival order (R474). -/
def State.release (s : State) (u : Nat) : State :=
  let qs := s.msys.held
  let mine (q : HbmReq) : Bool := s.rankOf q.addr == u && !s.hbmHolds q.addr
  { s with msys := { s.msys with held := qs.filter (fun q => !mine q) } }.hbmRun (qs.filter mine)

/-- A bank's open row is closed after IDLE cycles without access (R463). -/
def execRowIdleClose (rank bank : Nat) (s : State) : Res := .next (s.setRow rank bank none)

/-- A per-bank refresh falls due (R466): issued when the bank is free, owed otherwise, forced beyond 8 owed. -/
def execRefreshDue (rank bank : Nat) (free : Bool) (s : State) : Res :=
  let st := s.get (rankState rank)
  .next <| bif st == 1 || st == 4 then s
    else bif free && (s.openRow rank bank).isNone then s.setOwed rank bank 0
    else bif lt (s.owed rank bank) 8 then s.setOwed rank bank (s.owed rank bank + 1)
    else (s.setRow rank bank none).count Reg.MEM_REFFORCE_COUNT.z 1

/-- A pseudo-channel enters power-down, or self-refresh where R479 allows it. -/
def execPcPowerDown (pc : Nat) (selfRefresh : Bool) (s : State) : Res :=
  let fixed := (upto 5).any (fun r => r != 0 && s.get (Reg.MEM_REGION_SIZE_GB64K.e r) != 0)
  .next <| bif !selfRefresh then { s with msys := { s.msys with power := tset (fun _ => 0) s.msys.power pc 1 } }
    else bif s.get Reg.PWR_STAT_MODE.z == 4 && le 2000 (s.get Reg.MEM_PWR_LTOL.z) && !fixed then
      { s with msys := { s.msys with power := tset (fun _ => 0) s.msys.power pc 2 } }
    else s

/-! ### Scrubbing and retiring (R471, R472, R481) -/

/-- A scrub pass over rank `rank` ends: `corrected` words were corrected, and the words at the addresses of `uncorrectable` were
uncorrectable; CETHR retires the rank with PREMIG = 1. -/
def execScrubPass (rank corrected : Nat) (uncorrectable : List Nat) (s : State) : Res :=
  .next <| bif s.get Reg.PWR_STAT_MODE.z == 4 && s.get (rankState rank) == 0 then
      let s := bif corrected == 0 then s else s.eccCorrected rank corrected
      let s := uncorrectable.foldl (fun s a => s.uncorrectable a 0x84) s
      bif s.on Reg.MEM_ECC_PREMIG.z && le (s.get Reg.MEM_ECC_CETHR.z) corrected then s.askMigration rank else s
    else s

/-- MEM_CMD with OP = RETIRE. -/
def execMemRetire (rank : Nat) (s : State) : Res :=
  .next <| bif lt rank 768 && s.get (rankState rank) == 0 then s.askMigration rank else s.bad .memory

/-- MEM_CMD with OP = RESTORE: an OUT rank becomes SPARE. -/
def execMemRestore (rank : Nat) (s : State) : Res :=
  .next <| bif lt rank 768 && s.get (rankState rank) == 4 then s.rankTo rank 1 else s.bad .memory

/-! ### Migration (R472 to R477) -/

/-- The target of rank `p`: the lowest SPARE of its stack, or else the lowest SPARE. -/
def State.spareFor (s : State) (p : Nat) : Option Nat :=
  let l := (upto 768).filter (fun q => s.get (rankState q) == 1)
  match l.find? (fun q => stackOf q == stackOf p) with
  | some q => some q
  | none => l.head?

/-- The next queued migration starts: toward a spare, or waiting for a fold. -/
def execMigrationStart (s : State) : Res :=
  .next <| match s.msys.waiting with
    | [] => s
    | p :: rest =>
      bif s.get Reg.MEM_STAT_MIG.z != 0 || s.get Reg.PWR_STAT_MODE.z != 4 then s
      else
        let u := s.get (Reg.MEM_RANK_LOGICAL.e p)
        let s := s.setWaiting rest
        let s := ((s.rankTo p 2).put Reg.MEM_STAT_MRANK.z p).put Reg.MEM_MIGPOS_W.z 0
        match s.spareFor p with
        | some q =>
          let s := (s.rankTo q 3).put (Reg.MEM_RANK_LOGICAL.e q) u
          (s.setMig (u, p, some q)).put Reg.MEM_STAT_MIG.z 1
        | none => (s.setMig (u, p, none)).put Reg.MEM_STAT_MIG.z 3

/-- The migration under way ends: its source is OUT, its target ACTIVE, or a fold is held. -/
def State.migrationEnds (s : State) (u p : Nat) (q : Option Nat) : State :=
  let s := ({ s with msys := { s.msys with mig := none } }).put Reg.MEM_STAT_MIG.z 0
  let s := (s.rankTo p 4).put (Reg.MEM_RANK_LOGICAL.e p) 0x3FF
  match q with
  | some q => (s.setRemap u { s.remapOf u with phys := q }).rankTo q 0
  | none => ((s.setRemap u { s.remapOf u with folded := true }).wrap Reg.MEM_STAT_FOLDS.z 1).memEv (stackOf p) 2

/-- The copy of one grain has been acknowledged (R473). -/
def execMigrationGrain (s : State) : Res :=
  .next <| match s.msys.mig with
    | none => s
    | some (u, p, q) =>
      bif s.get Reg.MEM_STAT_MIG.z != 1 then s
      else
        let w := s.get Reg.MEM_MIGPOS_W.z + 1
        let s := s.put Reg.MEM_MIGPOS_W.z w
        (bif lt w s.grainsD then s else s.migrationEnds u p q).release u

/-- Every pseudo-channel takes power state `v`: 0 active, 2 self-refresh (R479, R480). -/
def State.pcPower (s : State) (v : Nat) : State :=
  { s with msys := { s.msys with power := (upto 256).foldl (fun t pc => tset (fun _ => 0) t pc v) s.msys.power } }

/-- At entry to Watch a migration pauses and every stack enters self-refresh; at the next entry to Full both end (R476, R479, R480). -/
def State.memWatch (s : State) : State := (bif s.get Reg.MEM_STAT_MIG.z == 1 then s.put Reg.MEM_STAT_MIG.z 2 else s).pcPower 2
def State.memFull (s : State) : State := (bif s.get Reg.MEM_STAT_MIG.z == 2 then s.put Reg.MEM_STAT_MIG.z 1 else s).pcPower 0

/-- Nothing is left in memory, and no row is open. -/
def State.hbmLost (s : State) : State :=
  { s with mem := [], msys := { s.msys with poison := [], rows := [], owed := [], power := [] } }

/-- Memory is empty behind the remap table `table`. -/
def State.hbmFresh (s : State) (table : Tbl Remap) : State :=
  { s with mem := [], msys := { MemSys.reset with remap := table } }

/-- At entry to Sleep every memory loses its contents; a migration ends without copying (R455, R476). -/
def State.memSleep (s : State) : State :=
  let s := s.hbmLost
  match s.msys.mig with
  | some (u, p, q) => s.migrationEnds u p q
  | none => s

/-- Start step S06 (R461, R478): MEM_MAP takes effect and the remap table is rebuilt from the stored rank states; false where
too few ranks are usable. -/
def State.memStart (s : State) : State × Bool :=
  let glog := s.get Reg.MEM_MAP_GLOG.z
  let nsp := s.get Reg.MEM_MAP_NSP.z
  let u := 768 - nsp
  let set := s.ctl.storedSet
  let out (p : Nat) := let st := rankIn (set.getD []) p
                       st == 4 || st == 2
  let own := (upto u).filter (fun p => !out p)
  let rest := (upto u).filter out
  let high := ((upto nsp).map (u + ·)).filter (fun p => !out p)
  let pairs := own.map (fun p => (p, p)) ++ rest.zip high
  let g := 2 ^ (8 + glog)
  let size := u * (375000000 / g) * g
  let table := (rest.zip high).foldl (fun m c => tset Remap.plain m c.1 ⟨c.2, false, false⟩) ([] : Tbl Remap)
  let s := s.hbmFresh table
  let s := (((s.put Reg.MEM_STAT_GLOG.z glog).put Reg.MEM_STAT_NSP.z nsp).put Reg.MEM_STAT_FOLDS.z 0).put Reg.MEM_STAT_MIG.z 0
  let s := s.put64 Reg.MEM_SIZE_L_VAL.z Reg.MEM_SIZE_H_VAL.z size
  let s := (upto 768).foldl (fun s p =>
    let st := if pairs.any (fun c => c.2 == p) then 0 else if out p then 4 else 1
    let log := match pairs.find? (fun c => c.2 == p) with
      | some c => c.1
      | none => 0x3FF
    let s := (s.put (rankState p) st).put (Reg.MEM_RANK_LOGICAL.e p) log
    bif set.isNone || rankIn (set.getD []) p == st then s else s.setStored p st) s
  let n := ((upto 768).filter (fun q => s.get (rankState q) == 1)).length
  (s.put Reg.MEM_STAT_SPARES.z n, le u pairs.length)

/-! ### Regions (R462) -/

/-- Base and size in bytes of region `r`. -/
def regionBase (r : Nat) : Loc := Reg.MEM_REGION_BASE_GB64K.e r
def regionSize (r : Nat) : Loc := Reg.MEM_REGION_SIZE_GB64K.e r
def State.regBase (s : State) (r : Nat) : Nat := s.get (regionBase r) * 65536
def State.regSize (s : State) (r : Nat) : Nat := s.get (regionSize r) * 65536

end Sys2Proof.Machine
end

