-- ==== Sys2Proof/Machine/CornerTurn.lean ====
section
/-!
DEFINITION. Banks, grids and corner-turn rings (05_coarse_channeliser.md R155; 06_fine_channeliser.md R180 to R182, R191, R192,
R196 to R203): what the ingress, the fronts and the fine channeliser share of them.
-/
namespace Sys2Proof.Machine

/-- Indices are numbers modulo 2⁴⁸ (03 R102). -/
def idxMod : Nat := 2 ^ 48
def idxAdd (i : Nat) (d : Int) : Nat := toU 48 ((i : Int) + d)
/-- The serial distance from `b` to `a`. -/
def idxSub (a b : Nat) : Int := sext 48 (toU 48 ((a : Int) - b))
/-- `a` is earlier than `b` (03 R102). -/
def idxBefore (a b : Nat) : Bool := serialBefore 48 a b

/-- The format of input `n` is C16. -/
def State.isC16 (s : State) (n : Nat) : Bool := s.get (Reg.ING_ICFG_FMT.e n) == 1

/-! ### Banks and grids (05 R155, R174) -/

/-- The instant of the commit under way or last accepted. -/
def State.commitAt (s : State) : Nat := s.adm.instant.getD 0

/-- log₂ of the transform length (R155): N_A points, half as many for a C16 input, 128 or 64 for the sketch. -/
def gridLog (b : BankView) (n port : Nat) (c16 : Bool) : Nat :=
  (if port = 2 then 7 else 8 + b.get (Reg.CCH_ICFG_NLOG.e n)) - b2n c16

/-- The main output is oversampled. -/
def gridOvs (b : BankView) (n port : Nat) : Bool := decide (port = 0) && b.on (Reg.CCH_ICFG_OVS.e n)

/-- The hop H and the window length L in samples (R155). -/
def gridHop (b : BankView) (n port : Nat) (c16 : Bool) : Nat :=
  let p := 2 ^ gridLog b n port c16
  if port = 2 then p / 2 else if gridOvs b n port then 3 * p / 4 else p
def gridLen (b : BankView) (n port : Nat) (c16 : Bool) : Nat :=
  let p := 2 ^ gridLog b n port c16
  if port = 2 then p else 8 * p

/-! ### Settings and grid of the fine channeliser (R180 to R182) -/

def fineNB (b : BankView) (n : Nat) : Nat := 2 ^ (4 + b.get (Reg.FCH_ICFG_NBLOG.e n))
/-- h = N_B × (1 − v). -/
def fineHop (b : BankView) (n : Nat) : Nat :=
  let p := fineNB b n
  let v := b.get (Reg.FCH_ICFG_OVL.e n)
  if v = 0 then p else if v = 1 then 3 * p / 4 else p / 2
/-- σ(n). -/
def fineSigma (b : BankView) (n : Nat) : Nat := if b.on (Reg.FCH_ICFG_ALIGN.e n) then 0 else n * fineHop b n / 128
/-- Coarse bin `k` is selected. -/
def fineSel (b : BankView) (n k : Nat) : Bool := bit (b.get (Reg.FCH_BINSEL_SEL.e2 n (k / 32))) (k % 32)
/-- The selected coarse bins below `bins` (R180). -/
def fineBins (b : BankView) (n bins : Nat) : List Nat := (upto bins).filter (fineSel b n)
/-- N_A ÷ 2 (05 R168). -/
def coarseBins (b : BankView) (n : Nat) : Nat := 2 ^ (7 + b.get (Reg.CCH_ICFG_NLOG.e n))
/-- Bits per component of a format code (C16, C12, C8). -/
def fmtBits (code : Nat) : Nat := if code = 0 then 16 else if code = 1 then 12 else 8

/-! ### Bytes of the rings (R191, R192) -/

/-- e of R191: a value of `b` bits per component, and its side byte. -/
def entryBytes (b : Nat) : Nat := b / 4 + 1

/-- Bytes of the rings of input `n`: S × (N_B + h) × e. -/
def ringBytes (f c : BankView) (n : Nat) : Nat :=
  bif f.on (Reg.FCH_ICFG_EN.e n) then
    (fineBins f n (coarseBins c n)).length * (fineNB f n + fineHop f n) * entryBytes (fmtBits (c.get (Reg.CCH_ICFG_OFMT.e n)))
  else 0

/-- The rings of input `n` lie in HBM (R192). -/
def ringInHbm (f : BankView) (n : Nat) : Bool := lt 512 (fineNB f n) || f.on Reg.FCH_CTRL_CTHBM.z

/-- The inputs whose rings the bank keeps in HBM, and in gallery `g`. -/
def hbmInputs (f : BankView) : List Nat := (upto 128).filter (ringInHbm f)
def sramInputs (f : BankView) (g : Nat) : List Nat := ((upto 16).map (16 * g + ·)).filter (fun n => !ringInHbm f n)

/-- Bytes of rings in HBM, and in gallery `g`. -/
def hbmRings (f c : BankView) : Nat := sumOf ((hbmInputs f).map (ringBytes f c))
def sramRings (f c : BankView) (g : Nat) : Nat := sumOf ((sramInputs f g).map (ringBytes f c))

/-- The two banks give input `n` the same rings on the same grid (R202). -/
def sameRing (f c f2 c2 : BankView) (n : Nat) : Bool :=
  f.on (Reg.FCH_ICFG_EN.e n) == f2.on (Reg.FCH_ICFG_EN.e n) && fineNB f n == fineNB f2 n && fineHop f n == fineHop f2 n
    && fineSigma f n == fineSigma f2 n && ringInHbm f n == ringInHbm f2 n
    && c.get (Reg.CCH_ICFG_OFMT.e n) == c2.get (Reg.CCH_ICFG_OFMT.e n)
    && c.get (Reg.CCH_ICFG_NLOG.e n) == c2.get (Reg.CCH_ICFG_NLOG.e n)

/-- The bins of input `n` in the old bank (`f`, `c`) whose rings the overlap holds beside those of the new one (R192): all of
them on a change of grid, else those no longer selected. -/
def oldBins (f c f2 c2 : BankView) (n : Nat) : List Nat :=
  let same := sameRing f c f2 c2 n
  (fineBins f n (coarseBins c n)).filter (fun k => !(same && fineSel f2 n k))

/-- The bytes of those rings. -/
def oldRingBytes (f c f2 c2 : BankView) (n : Nat) : Nat :=
  let bins := (fineBins f n (coarseBins c n)).length
  if bins = 0 then 0 else ringBytes f c n / bins * (oldBins f c f2 c2 n).length

/-- Old rings the overlap of a commit holds in HBM, and in gallery `g` (R192). -/
def hbmOldRings (f c f2 c2 : BankView) : Nat := sumOf ((hbmInputs f).map (oldRingBytes f c f2 c2))
def sramOldRings (f c f2 c2 : BankView) (g : Nat) : Nat := sumOf ((sramInputs f g).map (oldRingBytes f c f2 c2))

/-- FCH_CTHBM and FCH_CTSRAM show the bytes held: those of the live bank, and while an accepted commit has not swapped those of
the staged bank with what the overlap keeps of the live one (R192). -/
def State.ringSync (s : State) : State :=
  let coming (b : Blk) := s.maySwap b || (s.adm.named.contains b && le 2 (s.get Reg.ADM_STAT_STATE.z))
  let view (b : Blk) := bif coming b then s.stagedView b else s.liveView b
  let f := s.liveView .fine
  let c := s.liveView .coarse
  let f2 := view .fine
  let c2 := view .coarse
  let s := s.put64 Reg.FCH_CTHBM_L_BYTES.z Reg.FCH_CTHBM_H_BYTES.z (hbmRings f2 c2 + hbmOldRings f c f2 c2)
  (upto 8).foldl (fun s g => s.put (Reg.FCH_CTSRAM_BYTES.e g) (sramRings f2 c2 g + sramOldRings f c f2 c2 g)) s

/-! ### The grids that run (R182, R195) -/

def State.fin (s : State) (n : Nat) : FineInput := tget (fun _ => FineInput.reset) s.fine.inputs n
def State.setFin (s : State) (n : Nat) (x : FineInput) : State :=
  { s with fine := { s.fine with inputs := tset (fun _ => FineInput.reset) s.fine.inputs n x } }
def State.setChains (s : State) (n : Nat) (l : List FineChain) : State := s.setFin n { s.fin n with chains := l }

/-- The bank of a grid (R202). -/
def State.chainBank (s : State) (c : FineChain) : BankView := bif c.side then s.nextView .fine else s.liveView .fine

/-- M of R182: the coarse indices of one turn. -/
def FineChain.turn (c : FineChain) : Nat := idxMod / c.chop
/-- N_B + h of R191. -/
def FineChain.depth (c : FineChain) : Nat := c.nb + c.hop
/-- The position of coarse index `m`, the one nearest to those it holds. -/
def FineChain.posOf (c : FineChain) (m : Nat) : Nat :=
  let t := c.turn
  let base := c.last.getD c.start
  let d := (m + t - base % t) % t
  if 2 * d < t then base + d else base + d - t
/-- The first span at or after position `i`: m_f = σ + q × h below M, then σ of the next turn (R182). -/
def FineChain.spanFrom (c : FineChain) (i : Nat) : Nat :=
  let t := c.turn
  let g := c.sigma + ceilDiv (i % t - c.sigma) c.hop * c.hop
  if g < t then i / t * t + g else (i / t + 1) * t + c.sigma
/-- The grid takes spans that begin at position `g`. -/
def FineChain.takes (c : FineChain) (g : Nat) : Bool :=
  (match c.limit with
   | some e => lt g e
   | none => true) && (match c.cend with
   | some e => lt g e
   | none => true)
/-- The last position of the span at `g` that its coarse grid produces (R195, R200). -/
def FineChain.lastOf (c : FineChain) (g : Nat) : Nat :=
  match c.cend with
  | some e => min (g + c.nb) e - 1
  | none => g + c.nb - 1
/-- The first sample index of position `i`. -/
def FineChain.firstOf (c : FineChain) (i : Nat) : Nat := i % c.turn * c.chop
/-- The first position whose window begins at or after sample index `i`. -/
def FineChain.posAt (c : FineChain) (i : Nat) : Nat :=
  let m := ceilDiv i c.chop
  if m < c.turn then c.posOf m else c.posOf (m - 1) + 1
/-- Every span of the grid has been taken and is produced or void (R203). -/
def FineChain.drained (c : FineChain) : Bool := c.due.isEmpty && (!c.takes c.next || (c.last.isNone && (c.old || c.limit.isSome)))

/-- A coarse spectrum lies on the grid. -/
def FineChain.feeds (c : FineChain) (p : Spectrum) : Bool := p.len == c.clen && p.idx * c.chop % idxMod == p.first

/-! ### Places and entries of the rings (R191, R192) -/

/-- The place of a ring among those of the inputs `l`: the bytes of the inputs before `n` and of its bins before `k`. -/
def ringOffset (l : List Nat) (bytes : Nat → Nat) (bins : List Nat) (n k size : Nat) : Nat :=
  sumOf ((l.filter (lt · n)).map bytes) + bins.idxOf k * size

/-- The new bank keeps the ring of bin `k` of grid `c` with entries of `b` bits per component (R202). -/
def State.ringStays (s : State) (n : Nat) (c : FineChain) (b k : Nat) : Bool :=
  let f := s.nextView .fine
  let d := s.nextView .coarse
  f.on (Reg.FCH_ICFG_EN.e n) && c.nb == fineNB f n && c.hop == fineHop f n && c.sigma == fineSigma f n
    && ringInHbm (s.chainBank c) n == ringInHbm f n && b == fmtBits (d.get (Reg.CCH_ICFG_OFMT.e n))
    && (c.side || s.get (Reg.CCH_ICFG_NLOG.e n) == d.get (Reg.CCH_ICFG_NLOG.e n)) && fineSel f n k

/-- The address of the ring of bin `k`: rings lie in their region in ascending input and bin, those only the old bank keeps after the
others. -/
def State.ringAddr (s : State) (n : Nat) (c : FineChain) (b k : Nat) : Nat :=
  let f := s.liveView .fine
  let d := s.liveView .coarse
  let f2 := s.nextView .fine
  let d2 := s.nextView .coarse
  let size := c.depth * entryBytes b
  let hbm := ringInHbm (s.chainBank c) n
  let ins (f : BankView) : List Nat := bif hbm then hbmInputs f else sramInputs f (n / 16)
  let base := bif hbm then s.regBase 1 else galAddr (n / 16) (s.adm.tsram.getD (n / 16) 0)
  base + (bif s.ringStays n c b k then ringOffset (ins f2) (ringBytes f2 d2) (fineBins f2 n (coarseBins d2 n)) n k size
    else sumOf ((ins f2).map (ringBytes f2 d2))
      + ringOffset (ins f) (oldRingBytes f d f2 d2) (oldBins f d f2 d2 n) n k size)

/-- The rings of a grid for entries of `b` bits per component. -/
def State.ringSet (s : State) (n : Nat) (c : FineChain) (b : Nat) : RingSet :=
  let f := s.chainBank c
  let d := bif c.side then s.nextView .coarse else s.liveView .coarse
  ⟨b, (fineBins f n (coarseBins d n)).map (fun k => (k, s.ringAddr n c b k))⟩

/-- A complex value of `b` bits per component (00 R14). -/
def complexBytes (b : Nat) (v : Int × Int) : List Byte := leBytes (b / 4) (toU b v.1 + 2 ^ b * toU b v.2)
def complexOf (b : Nat) (l : List Byte) : Int × Int := (sext b (leNat l), sext b (leNat l / 2 ^ b))

/-- An entry: its value and the side byte with PRESENT; none is 0 and not present (R191). -/
def cornerEntry (b : Nat) (v : Option (Int × Int)) : List Byte := complexBytes b (v.getD (0, 0)) ++ [BitVec.ofNat 8 (b2n v.isSome)]

/-- The address of the entry of position `i` in a ring. -/
def FineChain.entryAddr (c : FineChain) (r : RingSet) (addr i : Nat) : Nat := addr + i % c.depth * entryBytes r.bits

/-- Position `i` takes its entry in every ring of the grid: that of spectrum `p`, or none (R191). -/
def State.ringWrite (s : State) (c : FineChain) (i : Nat) (p : Option Spectrum) : State :=
  c.rings.foldl (fun s r =>
    bif (match p with
         | some p => p.bits == r.bits
         | none => true) then
      r.rings.foldl (fun s a => s.pokeAll (c.entryAddr r a.2 i) (cornerEntry r.bits (p.bind (fun p => p.bins[a.1]?)))) s
    else s) s

/-- A word of the entry is poisoned (R198). -/
def State.entryLost (s : State) (r : RingSet) (a : Nat) : Bool := (upto (entryBytes r.bits)).any (fun d => s.poisoned (a + d))

/-- The entry of position `i` for bin `k` is lost to a memory error: counted once (R198). -/
def State.entryGone (s : State) (n : Nat) (c : FineChain) (i k : Nat) : State × FineChain :=
  bif c.lost.contains (i, k) then (s, c)
  else ((s.count (Reg.FCH_LOST_COUNT.e n) 1).ev 249, { c with lost := (i, k) :: c.lost })

/-- Positions a ring of the grid still holds, lowest first. -/
def FineChain.heldPos (c : FineChain) : List Nat :=
  match c.last with
  | some l => ((upto c.depth).map (fun d => l + 1 - c.depth + d)).filter (le c.start)
  | none => []

/-- Entries of the grid found lost among positions `l` and bins `ks` (R198). -/
def State.findLost (s : State) (n : Nat) (c : FineChain) (l ks : List Nat) : State × FineChain :=
  let bad := c.rings.flatMap (fun r => (r.rings.filter (fun a => ks.contains a.1)).flatMap (fun a =>
    (l.filter (fun i => s.entryLost r (c.entryAddr r a.2 i))).map (fun i => (i, a.1))))
  bad.foldl (fun (y : State × FineChain) e => State.entryGone y.1 n y.2 e.1 e.2) (s, c)

/-- The rings take the places that the configuration in force and the commit under way give them, with what they hold. -/
def State.ringsMove (s : State) : State :=
  let s := (upto 128).foldl (fun s n =>
    let y := (s.fin n).chains.foldl (fun (y : State × List FineChain) c =>
      let z := State.findLost y.1 n c c.heldPos (c.rings.flatMap (fun r => r.rings.map (·.1)))
      (z.1, y.2 ++ [z.2])) (s, [])
    bif y.2.isEmpty then s else y.1.setChains n y.2) s
  let t := s
  (upto 128).foldl (fun s n =>
    bif (t.fin n).chains.isEmpty then s
    else
      let cs := (t.fin n).chains.map (fun c => { c with rings := c.rings.map (fun r =>
        { r with rings := r.rings.map (fun a => (a.1, t.ringAddr n c r.bits a.1)) }) })
      let s := ((t.fin n).chains.zip cs).foldl (fun s z =>
        (z.1.rings.zip z.2.rings).foldl (fun s w =>
          (w.1.rings.zip w.2.rings).foldl (fun s a =>
            s.pokeAll a.2.2 (t.peekAll a.1.2 (z.1.depth * entryBytes w.1.bits))) s) s) s
      s.setChains n cs) s

/-! ### Coarse spectra taken (R195, R196, R199) -/

/-- The coarse spectrum at position `i` of the grid that was in time (R196). -/
def State.coarseOf (s : State) (n : Nat) (c : FineChain) (i : Nat) : Option Spectrum :=
  bif c.voids.contains i then none
  else (tget (fun _ => []) s.front.main n).find? (fun p => c.feeds p && p.first == c.firstOf i)

/-- Span `g` of the grid holds a coarse spectrum. -/
def State.spanHeld (s : State) (n : Nat) (c : FineChain) (g : Nat) : Bool :=
  (tget (fun _ => []) s.front.main n).any (fun p => c.feeds p &&
    (let i := c.posOf p.idx
     le g i && lt i (g + c.nb) && !c.voids.contains i))

/-- Position `i` of the grid is settled, by spectrum `p` or by none: the positions skipped before it are void, and the spans not
started whose first entry this overwrites are not produced. Answers those that held a spectrum, which are late (R195, R199). -/
def State.settle (s : State) (n : Nat) (c : FineChain) (i : Nat) (p : Option Spectrum) : State × FineChain × List Nat :=
  let c := bif c.last.isSome then c else { c with start := max c.start i, next := c.spanFrom (max c.start i) }
  let lo := max ((c.last.map (· + 1)).getD i) (i + 1 - c.depth)
  let s := ((upto (i - lo)).map (lo + ·)).foldl (fun s j => s.ringWrite c j none) s
  let s := s.ringWrite c i p
  let g1 := c.spanFrom (c.next + 1)
  let g2 := c.spanFrom (g1 + 1)
  let gone := [c.next, g1, g2, c.spanFrom (g2 + 1)].filter (fun g => le (g + c.depth) i && c.takes g)
  let late := gone.filter (s.spanHeld n c)
  let next := if c.next + c.depth ≤ i ∧ c.takes c.next then c.spanFrom (i + 1 - c.depth) else c.next
  let low := c.due.headD next
  let skipped := if p.isSome then [] else (upto (i + 1 - lo)).map (lo + ·)
  let keep := c.voids.filter (le low)
  let lost := late.length * (c.rings.headD ⟨0, []⟩).rings.length
  let s := (s.count (Reg.FCH_LATE_COUNT.e n) lost).degrLoss Blk.fine lost
  let s := (late.flatMap (fun _ => (c.rings.headD ⟨0, []⟩).rings)).foldl (fun s _ => s.ev 251) s
  (s, { c with last := some i, next := next, voids := skipped ++ keep, lost := c.lost.filter (fun e => le low e.1) }, late)

/-! ### The end of a grid (R200, R203) -/

/-- The block takes the new bank once every enabled input has passed its swap point and its old grids have drained (R203). -/
def State.fineDone (s : State) : State :=
  bif s.maySwap .fine && s.fine.left.isEmpty && s.fine.inputs.all (fun e => e.2.chains.all (·.side)) then
    let s := (((s.swapWhere .fine (fun _ => true)).flag Reg.FCH_STAT_SWPEND.z false).ev 250).swapDone .fine
    let same (x : FineInput) : FineInput := { x with chains := x.chains.map (fun c => { c with side := false }) }
    { s with fine := { s.fine with inputs := s.fine.inputs.map (fun (e : Nat × FineInput) => (e.1, same e.2)) } }.ringSync
  else s

/-- The grids of input `n` that have drained end (R203). -/
def State.finePrune (s : State) (n : Nat) : State :=
  (s.setChains n ((s.fin n).chains.filter (fun c => !c.drained))).fineDone

/-- Input `n` is disabled: its grids end with the last coarse spectrum (R200). -/
def State.fineEnd (s : State) (n : Nat) : State :=
  (s.setChains n ((s.fin n).chains.map (fun c =>
    let e := match c.last with
      | some l => l + 1
      | none => c.start
    { c with old := true, cend := some (min (c.cend.getD e) e) }))).finePrune n

/-- The main output of input `n` changes its grid at sample index `i`: windows of hop `h` and length `l` from there on are not
produced (R175). -/
def State.fineCut (s : State) (n h l i : Nat) : State :=
  (s.setChains n ((s.fin n).chains.map (fun c =>
    if c.chop = h ∧ c.clen = l ∧ c.cend = none then { c with cend := some (c.posAt i) } else c))).finePrune n

end Sys2Proof.Machine
end

