-- ==== Sys2Proof/Machine/Link.lean ====
section
/-!
DEFINITION. The Dziast link as every block sees it (23_redundant_pair.md R662 to R665): cells, their classes, what is
transmitted at once, and the reliable class 2 with its window.
-/
namespace Sys2Proof.Machine

def dzRole (s : State) : Nat := s.get Reg.DZ_STAT_ROLE.z
def dzState (s : State) : Nat := s.get Reg.DZ_STAT_PSTATE.z

/-- A field of DZ_CFG as in force since the last joining (R685). -/
def State.dzOn (s : State) (f : Fld) : Bool := bit s.pair.cfg.toNat f.lo
def State.dzCfg (s : State) (f : Fld) : Nat := bits s.pair.cfg.toNat f.lo f.w
/-- The engine is a member of a pair (R666). -/
def State.paired (s : State) : Bool := s.dzOn Reg.DZ_CFG_EN

/-- Cells mean something to a member of a pair that has not left it (R666, R668). -/
def State.inPair (s : State) : Bool := s.paired && !s.pair.left && dzState s != 0

/-- The pair runs as one, and this engine is its primary. -/
def State.syncedPrimary (s : State) : Bool := dzState s == 3 && dzRole s == 1

/-- This engine is the primary of a pair whose roles a JOIN has settled, and does not run alone: its records are ordered (R675), and
ORDER, SENT, EPOCH, STEP, INDEX and MODE cells go to the partner. R675 does not wait for SYNCED: from the EPOCH cells of R668 on, a
number the partner does not know of could not be continued (DEDUCED, log 76). -/
def State.ordering (s : State) : Bool :=
  s.inPair && dzRole s == 1 && s.pair.settled && !s.pair.alone && (dzState s == 2 || dzState s == 3)

/-- This engine's member number in a pair, 0 outside one (16 R492). -/
def State.engineNo (s : State) : Nat := bif s.paired then s.dzCfg Reg.DZ_CFG_MEMBER else 0

/-- The link runs in Sleep, Watch and Full from start step S08 on, not in Keep, in SAFE or during a reset (R662). -/
def State.linkRuns (s : State) : Bool :=
  s.alive && !s.on Reg.SEC_STAT_SAFE.z && (match s.sec.step with
    | some k => le 8 k
    | none => true)

/-- The link is UP: at least one lane in each direction (R665). -/
def State.linkUp (s : State) : Bool := s.get Reg.DZ_STAT_RXUP.z != 0 && s.get Reg.DZ_STAT_TXUP.z != 0

/-- TXUP, RXUP and DEGR follow the lanes (R665, R685); a link that becomes UP or leaves UP raises EV099. -/
def State.linkSync (s : State) : State :=
  let was := s.linkUp
  let mask (b : Nat) : Nat := sumOf ((upto 4).map (fun i => b2n (s.get (Reg.DZ_LSTAT_STATE.e (b + i)) == 4) * 2 ^ i))
  let tx := mask 0
  let rx := mask 4
  let s := (s.put Reg.DZ_STAT_TXUP.z tx).put Reg.DZ_STAT_RXUP.z rx
  let s := s.flag Reg.DZ_STAT_DEGR.z (s.linkUp && (tx != 15 || rx != 15))
  bif s.linkUp == was then s else s.ev 99

/-- Every Dziast lane takes state `v`, 0 OFF or 1 DOWN (R662): EV100 for each that changes. -/
def State.lanesTo (s : State) (v : Nat) : State :=
  ((upto 8).foldl (fun s l =>
    bif s.get (Reg.DZ_LSTAT_STATE.e l) == v then s else (s.put (Reg.DZ_LSTAT_STATE.e l) v).ev 100) s).linkSync

/-- The 32 bytes of a cell (R663). -/
def cellBytes (type cls id : Nat) (content : List Byte) : List Byte :=
  let b := u8 type ++ u8 (64 * cls) ++ u16 id ++ (content ++ zeros 24).take 24
  b ++ u32 (crc32c b)

/-- A cell of class 0 or 1 (R663): class 0 on two lanes when two are UP. -/
def State.sendCell (s : State) (type cls : Nat) (content : List Byte) : State :=
  bif s.linkUp then
    let c := cellBytes type cls s.pair.msgId content
    let s := { s with pair := { s.pair with msgId := (s.pair.msgId + 1) % 65536 } }
    let s := s.emit (.cell c)
    bif cls == 0 && le 2 (popcount 4 (s.get Reg.DZ_STAT_TXUP.z)) then s.emit (.cell c) else s
  else s

/-- At most 4096 class 2 cells are unacknowledged (R663). -/
def linkWindow : Nat := 4096

/-- A class 2 cell is transmitted under the next link sequence number, and kept until it is acknowledged (R663). -/
def State.sendNow (s : State) (type : Nat) (content : List Byte) : State :=
  let n := s.pair.txSeq
  let s := s.emit (.cell (cellBytes type 2 n content))
  { s with pair := { s.pair with txSeq := (n + 1) % 65536, unacked := s.pair.unacked ++ [⟨n, type, content⟩] } }

/-- No class 2 cell may be transmitted: the link is down, or the window is full. -/
def State.sendHeld (s : State) : Bool := !s.linkUp || le linkWindow s.pair.unacked.length

/-- A class 2 cell is sent in order (R663), or waits: for the window with EV108, or for the link to be UP. -/
def State.sendReliable (s : State) (type : Nat) (content : List Byte) : State :=
  bif s.sendHeld || !s.pair.txWait.isEmpty then
    let full := s.linkUp
    let s := { s with pair := { s.pair with txWait := s.pair.txWait ++ [(type, content)] } }
    bif full then s.ev 108 else s
  else s.sendNow type content

/-- Waiting class 2 cells are sent as the window opens. -/
def State.sendWaiting : Nat → State → State
  | 0, s => s
  | fuel + 1, s =>
    match s.pair.txWait with
    | [] => s
    | c :: rest =>
      bif s.sendHeld then s
      else State.sendWaiting fuel ({ s with pair := { s.pair with txWait := rest } }.sendNow c.1 c.2)

/-- The class 2 cell of sequence number `n` has been acknowledged by `ack`, cumulatively (R663). -/
def ackedBy (ack n : Nat) : Bool := n == ack || serialBefore 16 n ack

/-- The cumulative acknowledgement this engine sends: the last class 2 number delivered (R663). -/
def State.ackNow (s : State) : Nat := (s.pair.rxNext + 65535) % 65536

/-- An ACK cell (R663): a receiver sends one within 200 ns of a class 2 cell. -/
def State.sendAck (s : State) : State := s.sendCell 0x1B 1 (u16 s.ackNow)

/-- A cell arrives while the link is UP. `ok`: its CRC is right and its type known; otherwise it is discarded and counted (R663). What
it says means something in a pair only. -/
def State.cellIn (s : State) (ok : Bool) (f : State → State) : State :=
  bif !s.linkUp then s else bif !ok then s.count Reg.DZ_CRCERR_COUNT.z 1 else bif s.inPair then f s else s

/-- A class 2 cell of link sequence number `n` is delivered in order; another one is not delivered (R663). Both are acknowledged. -/
def State.reliableIn (s : State) (n : Nat) (ok : Bool) (f : State → State) : State :=
  s.cellIn ok (fun s =>
    bif n == s.pair.rxNext then f ({ s with pair := { s.pair with rxNext := (n + 1) % 65536 } }.sendAck) else s.sendAck)

/-- A class 0 cell is taken once (R663): the receiver keeps the first copy of each identifier. -/
def State.onceIn (s : State) (id : Nat) (ok : Bool) (f : State → State) : State :=
  s.cellIn ok (fun s =>
    bif s.pair.seen.contains id then s else f { s with pair := { s.pair with seen := id :: s.pair.seen.take 255 } })

end Sys2Proof.Machine
end

