-- ==== Sys2Proof/Machine/Symbols.lean ====
section
/-!
DEFINITION. A native lane's line code (04_sample_ingress.md R115, R116): PAM4 symbols, 257-bit blocks, the descrambler and the
control blocks.
-/
namespace Sys2Proof.Machine

/-- A bit in every second place, for `k` symbols. -/
def pairMask (k : Nat) : Nat := (4 ^ k - 1) / 3

/-- The received bits of a stretch, first bit lowest (R115): a symbol's first bit is the more significant one of its Gray code, which is
that of the level; INV turns level v into level 3 − v. -/
def Line.bits (inv : Bool) (x : Line) : Nat :=
  let m := pairMask (129 * (x.blocks + 1))
  let up := if inv then m else 0
  let hi := (x.levels / 2 &&& m) ^^^ up
  let lo := (x.levels &&& m) ^^^ up
  (hi ||| (2 * (hi ^^^ lo))) / (if x.odd then 2 else 1)

/-- The header bit and the line's payload bits of block `j` of a stretch of bits (R116). -/
def blockHeader (line j : Nat) : Bool := bit line (257 * j)
def blockPayload (line j : Nat) : Nat := bits line (257 * j + 1) 256

/-- The payload of block `j` ≥ 1 after the self-synchronous descrambler 1 + x³⁹ + x⁵⁸ (R116). -/
def descrambled (line j : Nat) : Nat :=
  let two := blockPayload line (j - 1) + blockPayload line j * 2 ^ 256
  bits (two ^^^ (two * 2 ^ 39) ^^^ (two * 2 ^ 58)) 256 256

/-- What a block is (R116). -/
inductive BlockKind where
  /-- 32 frame bytes. -/
  | data
  /-- a control block with nothing in it. -/
  | idle
  /-- a lane marker block. -/
  | lmb
  /-- a control block of any other content. -/
  | corrupt
deriving DecidableEq, Repr

/-- A block after the descrambler: its kind, its bytes 0 to 31 as a number with byte 0 lowest, and whether the block before it is a
control block. -/
structure RxBlock where
  kind : BlockKind
  bytes : Nat
  follows : Bool
deriving DecidableEq, Repr

/-- The kind of a control block by its type byte and its other bytes (R116). -/
def controlKind (v : Nat) : BlockKind :=
  if v = 0xE1 then .idle
  else if v % 2 ^ 40 = 0x5AA53CC3B4 ∧ v / 2 ^ 56 = 0 then .lmb
  else .corrupt

/-- Block `j` ≥ 1 of a stretch. -/
def rxBlock (line j : Nat) : RxBlock :=
  let v := descrambled line j
  ⟨if blockHeader line j then .data else controlKind v, v, !blockHeader line (j - 1)⟩

/-- The blocks of a stretch after its first one, which is there for its header and for the descrambler. -/
def Line.rx (inv : Bool) (x : Line) : List RxBlock := (upto x.blocks).map (fun j => rxBlock (x.bits inv) (j + 1))

def RxBlock.isData (b : RxBlock) : Bool := decide (b.kind = .data)

/-- A data block begins with the frame magic (R119, R123). -/
def RxBlock.magic (b : RxBlock) : Bool := b.isData && b.bytes % 65536 == 0x4657

/-- A data block that begins a frame where the lane hunts, and that is a frame start inside another frame (R123). -/
def RxBlock.start (b : RxBlock) : Bool := b.magic && b.follows

/-- The blocks of the frame of `n` data blocks that begins a stretch (R123), and none where a block of it is still to come. -/
def frameBlocks : Nat → List RxBlock → Option (List RxBlock)
  | 0, _ => some []
  | _ + 1, [] => none
  | n + 1, b :: bs => (frameBlocks (if b.isData then n else n + 1) bs).map (b :: ·)

/-- The bytes of a frame (R119). -/
def frameBytes (bs : List RxBlock) : List Byte := (bs.filter RxBlock.isData).flatMap (fun b => leBytes 32 b.bytes)

/-- No IDLE, no corrupt control block and no frame start stands inside a frame (check 2 of R123); an LMB may. -/
def frameWhole : List RxBlock → Bool
  | [] => true
  | _ :: bs => bs.all (fun b => decide (b.kind ≠ .idle) && decide (b.kind ≠ .corrupt) && !b.start)

end Sys2Proof.Machine
end

