-- ==== Sys2Proof/Machine/Ingress.lean ====
section
/-!
DEFINITION. Sample ingress (04_sample_ingress.md) with the clock model and product tags (03_time_base.md R102 to R104):
lanes, frames, indices, gaps, JESD204C multiblocks, the generator, and the swap of lane map and settings.
-/
namespace Sys2Proof.Machine

/-! ### Places -/

def State.lane (s : State) (l : Nat) : Lane := tget (fun _ => Lane.reset) s.ing.lanes l
def State.setLane (s : State) (l : Nat) (x : Lane) : State :=
  { s with ing := { s.ing with lanes := tset (fun _ => Lane.reset) s.ing.lanes l x } }
def State.inp (s : State) (n : Nat) : Input := tget (fun _ => Input.reset) s.ing.inputs n
def State.setInp (s : State) (n : Nat) (x : Input) : State :=
  { s with ing := { s.ing with inputs := tset (fun _ => Input.reset) s.ing.inputs n x } }

def laneState (l : Nat) : Loc := Reg.ING_LSTAT_STATE.e l
/-- L of input `n` (R135). -/
def State.lanesOf (s : State) (n : Nat) : List Nat :=
  (upto (2 ^ s.get (Reg.ING_LMAP_LW.e n))).map (· + s.get (Reg.ING_LMAP_LANE.e n))
/-- The input is enabled and its map is not stopped (R135, 02 R73). -/
def State.inputOn (s : State) (n : Nat) : Bool :=
  s.on (Reg.ING_LMAP_EN.e n) && !s.ctl.tvStopped.contains (Reg.ING_LMAP_EN.e n).off
/-- The inputs fed by lane `l`. -/
def State.fedBy (s : State) (l : Nat) : List Nat :=
  (upto 128).filter (fun n => s.inputOn n && (s.lanesOf n).contains l)
def State.lanesUp (s : State) (n : Nat) : Bool := (s.lanesOf n).all (fun l => s.get (laneState l) == 4)
/-- The engine is in Watch or Full: lanes are powered unless PWRDN (R138). -/
def State.awake (s : State) : Bool := s.get Reg.PWR_STAT_MODE.z == 3 || s.get Reg.PWR_STAT_MODE.z == 4
/-- round(2⁸⁰ ÷ F_s) for the configured rate (03 R103). -/
def State.nominalP (s : State) (n : Nat) : Nat := period80 (1000 * s.get (Reg.ING_RATE_RATE.e n))

/-! ### The clock model and tags (03 R103, R104) -/

/-- The model that times index `i`: that of the latest accepted frame whose first delivered index is at or before it. -/
def modelAt (ms : List FrameModel) (i : Nat) : Option FrameModel :=
  match ms.find? (fun m => !idxBefore i m.first) with
  | some m => some m
  | none => ms.getLast?

/-- T_pin(i) in units of 2⁻⁸⁰ s. -/
def tpinOf (ms : List FrameModel) (i : Nat) : Int :=
  match modelAt ms i with
  | some m => m.a + idxSub i m.iA * m.p
  | none => 0

def State.tpin (s : State) (n i : Nat) : Int := tpinOf (s.inp n).models i

/-- T_pin(i) as an instant of the time base, units of 2⁻⁴⁸ s. -/
def State.pinTag (s : State) (n i : Nat) : Nat := toU 96 (rnd (s.tpin n i) 32)

/-- The tag of a product whose span begins at `first` and whose group delay is `d2` ÷ 2 input samples (R104). -/
def State.productTag (s : State) (n first d2 : Nat) : Nat :=
  match modelAt (s.inp n).models first with
  | some m => toU 96 (rnd (2 * (m.a + idxSub first m.iA * m.p) - 2 * (m.indelay * 2 ^ 40) + (d2 : Int) * m.p) 33)
  | none => 0

/-- STEPCNT of the scale on which index `i` is timed, the present one where no model times it (R89). -/
def State.scaleAt (s : State) (n i : Nat) : Nat :=
  ((modelAt (s.inp n).models i).map (·.stepcnt)).getD (s.get Reg.TB_STATUS_STEPCNT.z)

/-- The marks STEP and MODEL of a product with span `first` to `last` (R89, R103, R109). -/
def State.spanMarks (s : State) (n first last : Nat) : Bool × Bool :=
  let ms := (s.inp n).models
  let later := ms.filter (fun m => idxBefore first m.first && !idxBefore last m.first)
  let c0 := ((modelAt ms first).map (·.stepcnt)).getD 0
  (later.any (fun m => m.stepcnt != c0), later.any (·.jump))

/-- TQ of a product of one input with tag `tag` (R109). -/
def State.spanTq (s : State) (n first last tag : Nat) : Nat :=
  let m := s.spanMarks n first last
  s.tqAt (s.scaleAt n first) tag m.1 m.2

/-- Time from T_pin(`i`) to an instant `f` of the scale whose steps sum to `total`, units of 2⁻⁸⁰ s; a step between them takes no time
(R89). -/
def elapsed (ms : List FrameModel) (i : Nat) (f total : Int) : Int :=
  let off := ((modelAt ms i).map (·.total)).getD total
  sext 128 (toU 128 (f - tpinOf ms i - (total - off) * 2 ^ 32))

/-- Time from T_pin(`i`) of input `n` to now, units of 2⁻⁸⁰ s. -/
def State.since (s : State) (n i : Nat) : Int := elapsed (s.inp n).models i ((s.now : Int) * 2 ^ 32) s.tb.total

/-- The index the clock model places at the current instant. -/
def State.indexNow (s : State) (n : Nat) : Nat :=
  match (s.inp n).models.head? with
  | some m => idxAdd m.iA (elapsed [m] m.iA ((s.now : Int) * 2 ^ 32) s.tb.total / m.p)
  | none => 0

/-! ### Indices in gaps (R33, R140, 05 R171, R175) -/

/-- An index that no span reaches from index `i` any more; past it a number of the same value is another index (03 R102). -/
def idxNear (i j : Nat) : Bool := decide ((idxSub i j).natAbs < 2 ^ 46)

/-- A list of (start, end) offsets with one inserted by its start. -/
def insertIv (v : Nat × Nat) : List (Nat × Nat) → List (Nat × Nat)
  | [] => [v]
  | u :: us => if v.1 ≤ u.1 then v :: u :: us else u :: insertIv v us

/-- Points covered by a list of intervals in rising order of start, from position `at` on. -/
def sweep : Nat → List (Nat × Nat) → Nat
  | _, [] => 0
  | pos, v :: vs => let a := max pos v.1
                    (v.2 - a) + sweep (max pos v.2) vs

/-- Number of indices of the span [`first`, `first` + `len`) that lie in one of the intervals (first index, length). -/
def unionCount (first len : Nat) (ivs : List (Nat × Nat)) : Nat :=
  let rel := ivs.map (fun v =>
    let a := idxSub v.1 first
    ((max a 0).toNat, (min (max (a + v.2) 0) (len : Int)).toNat))
  sweep 0 (rel.foldr insertIv [])

/-- The intervals of input `n` in which no valid sample was delivered: its closed gaps, the open one, the indices before its
series, and for a span that begins before a change of format the indices from that change on. -/
def State.gapIvs (s : State) (n first : Nat) : List (Nat × Nat) :=
  let x := s.inp n
  let before := if x.long then [] else [(idxAdd x.start (-(2 ^ 46)), 2 ^ 46)]
  let open_ := match x.gap with
    | some g => [(g.first, 2 ^ 46)]
    | none => []
  let fmt := (x.fmtAt.filter (fun j => idxBefore first j)).map (fun j => (j, 2 ^ 46))
  x.gaps ++ before ++ open_ ++ fmt

/-! ### Input state, causes and gap records (R139 to R143) -/

/-- ING_ISTAT.STATE brought up to date; a change raises the input's event (R139, R150). -/
def State.ingState (s : State) (n : Nat) : State :=
  let x := s.inp n
  let v := bif !s.on (Reg.ING_LMAP_EN.e n) then 0 else bif x.rateFault then 4
    else bif s.get (Reg.ING_ICFG_GEN.e n) == 0 && !s.lanesUp n then 1
    else bif x.rateBad then 4 else bif x.accepting then 2 else bif x.series || x.refused then 3 else 1
  let old := s.get (Reg.ING_ISTAT_STATE.e n)
  bif old == v then s
  else
    let s := (s.put (Reg.ING_ISTAT_STATE.e n) v).ev (112 + n)
    bif v == 2 then s.flag (Reg.ING_ISTAT_UP.e n) true else s

/-- ING_ISTAT.CAUSE bit `c` is set; a bit newly set raises the event (R150). -/
def State.causeBit (s : State) (n c : Nat) : State :=
  let l : Loc := { Reg.ING_ISTAT_CAUSE.e n with lo := c, w := 1 }
  bif s.on l then s else (s.flag l true).ev (112 + n)

/-- The lower bound of an OPEN or INTERIM record written now (R143). -/
def State.gapBound (s : State) (n first : Nat) : Nat :=
  let p := ((modelAt (s.inp n).models first).map (·.p)).getD 1
  (s.since n first * 1000000 - 2 ^ 80).toNat / (1000000 * p)

/-- The body of a gap record (R142). -/
def State.gapBody (s : State) (n kind : Nat) (g : Gap) (len : Nat) : List Byte :=
  let tag := s.productTag n g.first 0
  u16 n ++ u8 kind ++ u8 g.firstCause ++ u16 g.mask ++ u16 (s.get (Reg.ING_LMAP_LANE.e n)) ++ u48 g.first ++ u16 0
    ++ u64 len ++ u96 tag ++ u16 (s.spanTq n g.first (idxAdd g.first (max len 1 - 1)) tag) ++ u16 0 ++ u32 g.num
    ++ u32 (s.get Blk.ingress.gen) ++ u32 g.discarded ++ u32 g.overlap

/-- A gap record is written (R141): 1 OPEN, 2 INTERIM, 3 CLOSE. -/
def State.gapRecord (s : State) (n kind : Nat) (g : Gap) (len : Nat) : State :=
  s.closeAll (s.gapStreams n) ⟨1, 0, n, s.gapBody n kind g len⟩

/-- The mask of a list of causes (R142). -/
def causeMask (l : List Nat) : Nat := l.foldl (fun m c => m ||| 2 ^ c) 0

/-- A gap number is free, and a gap that starts now is open under it (R141): its causes are those seen since the last gap, then `c`. -/
def State.gapOpen (s : State) (n c : Nat) : State :=
  let x := s.inp n
  let l := x.causes ++ [c]
  let g : Gap := ⟨(x.gapNo + 1) % 2 ^ 32, x.iDel, l.headD c, causeMask l, 0, 0⟩
  let s := x.causes.foldl (fun s c => s.causeBit n c) s
  let s := (s.setInp n { x with gapNo := g.num, gap := some g, causes := [] }).calGap n
  (s.gapRecord n 1 g (s.gapBound n g.first)).ev (112 + n)

/-- Input `n` has an index series and is enabled: what it does not deliver makes a gap (R136, R141). -/
def State.gapsDeclared (s : State) (n : Nat) : Bool := (s.inp n).series && s.on (Reg.ING_LMAP_EN.e n)

/-- Cause `c` is seen on input `n`: an open gap takes it, or a gap opens (R140, R141). An input without an index series, or
one that is disabled, has no gap. -/
def State.gapCause (s : State) (n c : Nat) : State :=
  let s := s.causeBit n c
  match (s.inp n).gap with
  | some g => s.setInp n { s.inp n with gap := some { g with mask := g.mask ||| 2 ^ c } }
  | none => bif s.gapsDeclared n then s.gapOpen n c else s

/-- Cause `c` is seen, and what it did becomes known only with the next gap: an open gap takes it, else the next one (R140). -/
def State.causeLater (s : State) (n c : Nat) : State :=
  let x := s.inp n
  match x.gap with
  | some _ => s.gapCause n c
  | none => s.setInp n { x with causes := x.causes ++ [c] }

/-- A fault with cause `c` that several inputs share: the event of each of them is raised, whether it is new to the input or not
(R150); no frame is accepted while it lasts. -/
def State.gapShared (s : State) (n c : Nat) : State :=
  let quiet := s.on { Reg.ING_ISTAT_CAUSE.e n with lo := c, w := 1 } && ((s.inp n).gap.isSome || !s.gapsDeclared n)
  let s := s.gapCause n c
  let s := bif quiet then s.ev (112 + n) else s
  (s.setInp n { s.inp n with accepting := false, refused := true }).ingState n

/-- The gap of the input, open or found only now, is closed with its exact length (R126, R141, R143). -/
def State.gapClose (s : State) (n len : Nat) (g : Gap) : State :=
  let s := s.setInp n { s.inp n with gap := none, causes := [],
                                     gaps := (g.first, len) :: (s.inp n).gaps.filter (fun v => idxNear g.first v.1),
                                     gapLog := ((g.first, len, s.gapBody n 3 g len) :: (s.inp n).gapLog).take 4096 }
  let s := s.gapRecord n 3 g len
  (s.count64 (Reg.ING_GAP_L_SAMP.e n) (Reg.ING_GAP_H_SAMP.e n) len).ev (112 + n)

/-! ### The sketch's frame-fault notice (05 R172) -/

/-- A frame's fast-path samples are named by a frame-fault notice; EV242. `k` sketch spectra already produced are named for
the first time. -/
def State.faultNotice (s : State) (n first len k : Nat) : State :=
  bif len == 0 then s
  else
    let x := s.inp n
    let s := s.setInp n { x with faults := (first, len) :: x.faults.filter (fun v => idxNear first v.1) }
    (s.count (Reg.CCH_SKFF_COUNT.e n) k).ev 242

/-- Ranges [a, a + m) and [b, b + k) of indices overlap. -/
def overlaps (a m b k : Nat) : Bool :=
  let d := idxSub b a
  decide (d < m) && decide (-(k : Int) < d)

/-- A span used samples that a notice names. -/
def State.spanFault (s : State) (n first len : Nat) : Bool :=
  (s.inp n).faults.any (fun f => overlaps f.1 f.2 first len)

/-- The fast-path samples of the frame in flight: lowest index and number. -/
def fastFrame (x : Input) (first len : Nat) : List (Nat × Int × Int) :=
  x.fast.filter (fun p => let d := idxSub p.1 first; decide (0 ≤ d) && decide (d < len))

/-- The spans (first index, length) of the sketch spectra of input `n` produced so far. -/
def State.skSpans (s : State) (n : Nat) : List (Nat × Nat) :=
  (tget (fun _ => []) s.front.sketch n).map (fun p => (p.first, p.len))

/-- The frame in flight has had its verdict. With `bad`, the frame was refused or took another index than its fast-path
index, and a notice names the sketch spectra that used it, each counted once. -/
def State.fastEnd (s : State) (n first len : Nat) (bad : Bool) : State :=
  let x := s.inp n
  let used := x.fastOpen && (fastFrame x first len != [])
  let fresh := (s.skSpans n).filter (fun m => overlaps m.1 m.2 first len && !s.spanFault n m.1 m.2)
  let s := s.setInp n { x with fastOpen := false }
  bif used && bad then s.faultNotice n first len fresh.length else s

/-! ### Judging a frame (R119 to R124) -/

/-- F in bytes (R119). -/
def State.flen (s : State) (n : Nat) : Nat := 2048 / 2 ^ s.get (Reg.ING_ICFG_FLEN.e n)

/-- CRC of a frame with bytes 44 to 47 taken as 0 (R120). -/
def frameCrc (bs : List Byte) : Nat := crc32c (bs.take 44 ++ zeros 4 ++ bs.drop 48)

/-- Samples a frame of `f` bytes holds (R119). -/
def frameCount (f : Nat) (c16 : Bool) : Nat := if c16 then (f - 48) / 4 else (f - 48) / 2

/-- The samples of a frame (00 R14). -/
def frameSamples (bs : List Byte) (c16 : Bool) : List (Int × Int) :=
  let d := bs.drop 48
  (upto (frameCount bs.length c16)).map (fun k =>
    if c16 then (sext 16 (leAt d (4 * k) 2), sext 16 (leAt d (4 * k + 2) 2)) else (sext 16 (leAt d (2 * k) 2), 0))

/-- Check 4 of R123. -/
def State.headerOk (s : State) (n : Nat) (bs : List Byte) : Bool :=
  leAt bs 0 2 == 0x4657 && leAt bs 2 1 == 1 && leAt bs 3 1 == s.get (Reg.ING_ICFG_FMT.e n) + 1
    && leAt bs 4 2 == s.flen n && leAt bs 6 2 / 4 == 0 && leNat ((bs.drop 20).take 24) == 0
    && (!s.on (Reg.ING_ICFG_SRCCHK.e n) || leAt bs 14 2 == s.get (Reg.ING_ICFG_SRCID.e n))

/-- The cause of the first failing check of 1 to 6 (R123), none for an accepted frame. An input held in RATEFAULT by its
re-anchorings fails check 5 (R129). -/
def State.verdict (s : State) (n lane : Nat) (bs : List Byte) (whole : Bool) : Option Nat :=
  let st := s.get (laneState lane)
  bif st == 3 then some 2 else bif st != 4 then some 1
  else bif !whole then some 4
  else bif frameCrc bs != leAt bs 44 4 then some 3
  else bif !s.headerOk n bs then some 6
  else bif leAt bs 16 4 != s.get (Reg.ING_RATE_RATE.e n) || (s.inp n).rateFault then some 8
  else bif bit (leAt bs 6 2) 1 && s.on (Reg.ING_ICFG_CLKGAP.e n) then some 14
  else none

/-- A frame or multiblock of input `n` is discarded with cause `c` (R124). -/
def State.discard (s : State) (n c : Nat) : State :=
  let s := s.count (Reg.ING_SPOIL_SPOIL.e n) 1
  let s := bif c == 9 then s.degrLoss .ingress 1 else s
  let s := s.gapCause n c
  let x := s.inp n
  let g := x.gap.map (fun g => { g with discarded := satAdd 32 g.discarded 1 })
  (s.setInp n { x with gap := g, accepting := false, refused := true, rateBad := c == 8 }).ingState n

/-! ### Indices (R125 to R129) -/

/-- time_index() of R125: i_exp + round((F − T_pin(i_exp)) ÷ P), F in units of 2⁻⁸⁰ s on the scale whose steps sum to `total`; a step
does not move an index (03 R89). -/
def timeIndex (x : Input) (f total : Int) : Nat :=
  let p := ((modelAt x.models x.iExp).map (·.p)).getD 1
  idxAdd x.iExp (rndDiv (elapsed x.models x.iExp f total) p)

/-- The index R125 gives an accepted frame, whether it was placed by time, and whether COUNTER joins the causes. -/
def placeFrame (x : Input) (c : Nat) (restart : Bool) (f total : Int) (tol : Nat) : Nat × Bool × Bool :=
  let dc := toU 48 ((c : Int) - x.cExp)
  let it := timeIndex x f total
  let cont := !restart && decide (dc < 2 ^ 47) && decide ((idxSub (idxAdd x.iExp dc) it).natAbs ≤ tol)
  if !x.locked then (if x.series then (it, true, false) else (c, false, false))
  else if x.newRate then (it, true, !(cont || (!restart && decide (dc = 0))))
  else if x.replace then (it, true, false)
  else if !restart && dc = 0 then (x.iExp, false, false)
  else if 1 ≤ dc && cont then (idxAdd x.iExp dc, false, false)
  else (it, true, true)

/-- 2 ns in units of 2⁻⁸⁰ s, compared without rounding: |e| > 2 ns. -/
def beyond2ns (e : Int) : Bool := decide ((2 : Int) * 2 ^ 80 < e.natAbs * 1000000000)

/-- The clock model after a frame with first index `i` and stamp `f` (03 R103), `force`: re-anchored because the index was
re-established; `fresh`: the rate changed. Also e, and whether the model was re-anchored. -/
def stepModel (x : Input) (i dlv : Nat) (f : Int) (force fresh : Bool) (p0 : Nat) (ind : Int) (cnt : Nat) (total : Int) :
    FrameModel × Int × Bool :=
  match x.models.head? with
  | none => (⟨dlv, f, i, p0, false, ind, cnt, total⟩, 0, false)
  | some m =>
    let pred := m.a + idxSub i m.iA * m.p
    let e := f - pred
    let far := beyond2ns e
    if fresh then (⟨dlv, f, i, p0, true, ind, cnt, total⟩, e, far)
    else if force || far then (⟨dlv, f, i, m.p, true, ind, cnt, total⟩, e, far)
    else
      let d := idxSub i m.iA
      let p := if d = 0 then (m.p : Int) else m.p + rndDiv (e * (if d < 0 then -1 else 1)) (2 ^ 12 * d.natAbs)
      (⟨dlv, pred + rnd e 6, i, p.toNat, false, ind, cnt, total⟩, e, false)

/-- The gap that ends where an accepted frame's first delivered index is placed (R126, R141): an open gap is closed, and a
jump found only now makes a gap of its own with its CLOSE record. Where no cause has been seen for such a jump (the counter jumped
within tol), its first cause code and its mask are 0 (DESIGN CHOICE, log 62: R140 names no cause for it). -/
def State.settleGap (s : State) (n i lap : Nat) : State :=
  let x := s.inp n
  let missing := (idxSub i x.iDel).toNat
  let s := bif x.gap.isSome || lt 0 missing then x.causes.foldl (fun s c => s.causeBit n c) s else s
  match x.gap with
  | some g =>
    let g := { g with mask := g.mask ||| causeMask x.causes, overlap := satAdd 32 g.overlap lap }
    s.gapClose n (idxSub i g.first).toNat g
  | none =>
    bif lt 0 missing then
      let g : Gap := ⟨(x.gapNo + 1) % 2 ^ 32, x.iDel, x.causes.headD 0, causeMask x.causes, 0, lap⟩
      ((s.setInp n { x with gapNo := g.num }).calGap n).gapClose n missing g
    else s.setInp n { x with causes := [] }

/-- Bytes held in the elastic buffer (R137). -/
def heldBytes (x : Input) : Nat := sumOf (x.elastic.map (·.bytes))

/-- The primary of a pair sends INDEX whenever it re-establishes an input's offset (23 R670). -/
def State.sendIndex (s : State) (n i : Nat) : State :=
  bif s.ordering then
    s.sendReliable 0x14 (u8 n ++ zeros 1 ++ u48 (s.inp n).offset ++ u48 i)
  else s

/-- The offset i − c a standby takes from its primary (23 R670), plus 1; 0 for none. An engine that is no standby of a pair goes
by R125. -/
def State.pairOffset (s : State) (n : Nat) : Option Nat :=
  bif s.paired && dzRole s == 2 && (dzState s == 2 || dzState s == 3) then some (tget (fun _ => 0) s.pair.offsets n) else none

/-- The gap under way takes a frame of `k` samples that lies wholly before the next index (R126, R142). -/
def State.overlapped (s : State) (n k : Nat) : State :=
  let x := s.inp n
  s.setInp n { x with gap := x.gap.map (fun g => { g with discarded := satAdd 32 g.discarded 1, overlap := satAdd 32 g.overlap k }) }

/-- An accepted frame or multiblock of input `n`: counter `c`, samples `d`, stamp `f` in units of 2⁻⁸⁰ s on the scale of STEPCNT `k`
(03 R89), its place in the index given by `place` (R125 to R129, 03 R103). -/
def State.acceptAt (s : State) (n c : Nat) (d : List (Int × Int)) (f : Int) (k : Nat) (place : Nat × Bool × Bool) (bytes : Nat) :
    State :=
  let x := s.inp n
  let i := place.1
  let len := d.length
  let fastFirst := idxAdd c x.offset
  let start := !x.series
  let lap := if start then 0 else (idxSub x.iDel i).toNat
  let none_ := le len lap && lt 0 lap
  let dlv := if 0 < lap then x.iDel else i
  let ind := s.getI (Reg.TB_INDELAY_DELAY.e n)
  let (m, e, jump) := stepModel x i dlv f place.2.1 (x.newRate || !x.locked) (s.nominalP n) ind k (s.scaleTotal k)
  let third := jump && !place.2.1 && decide (2 ≤ ((x.recent.take 15).filter id).length)
  let s := bif m.jump then s.raise 24 s.now else s
  bif third then
    let s := s.setInp n { x with rateFault := true }
    (s.discard n 8).fastEnd n fastFirst len true
  else
    let s := bif lt 0 lap then s.count (Reg.ING_SPOIL_SPOIL.e n) 1 else s
    let s := bif place.2.2 then s.causeBit n 7 else s
    let x := { s.inp n with causes := x.causes ++ (if place.2.2 then [7] else []) }
    let s := s.setInp n x
    let s := bif start then s.setInp n { x with causes := [] } else bif none_ then s.overlapped n len else s.settleGap n dlv lap
    let s := s.putI (Reg.TB_INRES_RES.e n) (satS 32 (rnd e 40))
    let x := s.inp n
    let from_ := if start then i else x.iDel
    let gapLen := (idxSub dlv from_).toNat
    let c16 := s.isC16 n
    let gapc : List Chunk := if gapLen = 0 then [] else [⟨from_, c16, gapLen, [], 0⟩]
    let data : List Chunk := if none_ then [] else gapc ++ [⟨dlv, c16, 0, d.drop lap, bytes⟩]
    let s := s.setInp n
      { x with locked := true, series := true, start := if x.locked then x.start else dlv, long := x.locked && x.long, iExp := idxAdd i len,
               iDel := if none_ then x.iDel else idxAdd i len, cExp := idxAdd c len, offset := toU 48 ((i : Int) - c),
               models := m :: x.models, recent := (jump && !place.2.1) :: x.recent.take 15, rateBad := false,
               accepting := true, refused := false, newRate := false, replace := false, elastic := x.elastic ++ data }
    let s := bif x.locked && i == fastFirst then s else s.sendIndex n i
    (s.fastEnd n fastFirst len (x.locked && i != fastFirst)).ingState n

/-- The lane whose frames input `n` takes: the one its map names, until its boundary has passed, or the old one (R136). -/
def State.takesLane (s : State) (n lane : Nat) : Bool :=
  s.inputOn n && !s.on (Reg.ING_LMAP_JESD.e n) && s.get (Reg.ING_ICFG_GEN.e n) == 0 &&
  s.get (Reg.ING_LCFG_CHK.e lane) == 0 &&
  ((s.get (Reg.ING_LMAP_LANE.e n) == lane && !(s.inp n).cut) || (s.inp n).oldLane == some lane)

/-- The mode of lane `l`'s group (R112). -/
def State.laneJesd (s : State) (l : Nat) : Bool := s.on (Reg.ING_GCFG_JESD.e (l / 8))

/-- The fixed receive delay of lane `l` in units of 2⁻⁴⁸ s (R146): 31.25 ns in native mode, 18.0 ns and 640 UI at the group's lane rate
in JESD204C mode. -/
def State.rxDelay (s : State) (l : Nat) : Int :=
  if s.laneJesd l then
    let jr := max 1 (s.get (Reg.ING_GCFG_JRATE.e (l / 8)))
    rndDiv (2 ^ 48 * (18 * jr + 640 * 100)) (1000000000 * jr)
  else rndDiv (2 ^ 48 * 3125) 100000000000

/-- The stamp of a frame or multiblock whose first bit reaches the stamping point of lane `l` at `at_` (03 R86, R146). -/
def State.laneStamp (s : State) (l at_ : Nat) : Nat := tagAdd (s.quantised at_) (-(s.rxDelay l))

/-- The blocks of a stretch of lane `l`. -/
def State.lineRx (s : State) (l : Nat) (x : Line) : List RxBlock := x.rx (s.on (Reg.ING_LCFG_INV.e l))

/-- The blocks of a stretch from the one on that begins a frame (R123): any data block, or where the lane hunts one that directly
follows a control block and begins with the magic. -/
def frameFrom (hunting : Bool) (l : List RxBlock) : List RxBlock :=
  l.dropWhile (fun b => bif hunting then !b.start else !b.isData)

/-- The verdict of a frame for one input (R123 to R129, R137), its stamp `f` on the scale of STEPCNT `k`. -/
def State.judge (s : State) (lane : Nat) (bs : List Byte) (f k : Nat) (whole : Bool) (n : Nat) : State :=
  let c := leAt bs 8 6
  let c16 := s.isC16 n
  let first := idxAdd c (s.inp n).offset
  let len := frameCount (s.flen n) c16
  let s := bif whole && frameCrc bs == leAt bs 44 4 then s.put (Reg.ING_DECLRATE_RATE.e n) (leAt bs 16 4) else s
  match s.verdict n lane bs whole with
  | some cause => (s.discard n cause).fastEnd n first len true
  | none =>
    bif lt 16384 (heldBytes (s.inp n) + bs.length) then (s.discard n 9).fastEnd n first len true
    else
      let t : Int := (f : Int) * 2 ^ 32
      let tol := 16 * s.get Reg.ING_CTRL_CTOL.z
      let x := s.inp n
      match s.pairOffset n with
      | some 0 => (s.discard n 7).fastEnd n first len true
      | some (o + 1) =>
        let i := idxAdd c o
        s.acceptAt n c (frameSamples bs c16) t k (i, x.series && i != idxAdd c x.offset, false) bs.length
      | none =>
        s.acceptAt n c (frameSamples bs c16) t k (placeFrame x c (bit (leAt bs 6 2) 0) t (s.scaleTotal k) tol) bs.length

/-- The frame that begins a run of blocks, for one input with its own frame length; none where its last block is still to come. -/
def State.judgeBlocks (s : State) (lane : Nat) (bs : List RxBlock) (f k n : Nat) : State :=
  match frameBlocks (s.flen n / 32) bs with
  | some fr => s.judge lane (frameBytes fr) f k (frameWhole fr) n
  | none => s

/-- A lane in pattern checking counts the bit errors of a stretch (R144). The pattern and its phase are IEEE 802.3's, not the spec's:
the number of bits in error is a free value (log 62). -/
def State.patternCheck (s : State) (lane : Nat) (x : Line) : State :=
  s.took.count64 (Reg.ING_LERR_L_ERR.e lane) (Reg.ING_LERR_H_ERR.e lane) (s.free 32 % (257 * x.blocks + 1))

/-- A complete frame of lane `lane` is judged (R123); a lane in pattern checking takes no frames, and one in JESD204C mode carries none. -/
def execFrameVerdict (lane : Nat) (line : Line) (stamp : Nat) (s : State) : Res :=
  .next <| bif le 128 lane || s.laneJesd lane then s
    else bif s.get (Reg.ING_LCFG_CHK.e lane) != 0 then s.patternCheck lane line
    else
      let bs := frameFrom (s.lane lane).hunting (s.lineRx lane line)
      bif bs.isEmpty then s
      else
        let f := s.laneStamp lane stamp
        let (s, k) := s.stampScale f
        let s := s.setLane lane { s.lane lane with hunting := false }
        ((upto 128).filter (fun n => s.takesLane n lane)).foldl (fun s n => s.judgeBlocks lane bs f k n) s

/-- Check 7 of R123: the block after a frame begins the stretch. Where it is neither a control block nor begins with the magic, the data
blocks up to the next control block are discarded and the lane hunts; SPOIL counts them in frames or parts of one. Where a discarded
block begins with the magic, they cut the next frame (R140), and its gap opens with cause LONG; otherwise a gap found later takes the
cause (DESIGN CHOICE, log 62). -/
def execFrameLongCheck (lane : Nat) (line : Line) (s : State) : Res :=
  let bs := (s.lineRx lane line).takeWhile RxBlock.isData
  .next <| bif le 128 lane || s.laneJesd lane || (match bs with
      | [] => true
      | b :: _ => b.magic) then s
    else
      let s := s.setLane lane { s.lane lane with hunting := true }
      ((upto 128).filter (fun n => s.takesLane n lane)).foldl (fun s n =>
        let s := s.count (Reg.ING_SPOIL_SPOIL.e n) (ceilDiv bs.length (s.flen n / 32))
        bif bs.any RxBlock.magic then s.gapCause n 5 else s.causeLater n 5) s

/-- An INTERIM record while a gap lasts (R141, R143); a disabled input writes none (R136). -/
def execGapInterim (n : Nat) (s : State) : Res :=
  .next <| match (s.inp n).gap with
    | some g => bif s.on (Reg.ING_LMAP_EN.e n) then s.gapRecord n 2 g (s.gapBound n g.first) else s
    | none => s

/-- Software ends RATEFAULT by writing 1 to ING_ISTAT.CAUSE bit 8 (R129). -/
def execRatefaultClear (n : Nat) (s : State) : Res :=
  let s := s.flag { Reg.ING_ISTAT_CAUSE.e n with lo := 8, w := 1 } false
  .next ((s.setInp n { s.inp n with rateFault := false, rateBad := false, recent := [] }).ingState n)

/-! ### Lane states (R117, R118, R138) -/

/-- Lane `l` takes state `v`; its inputs' states follow. -/
def State.laneTo (s : State) (l v : Nat) : State :=
  (s.fedBy l).foldl State.ingState (s.put (laneState l) v)

/-- Samples of a frame, or of a multiblock in JESD204C mode, of input `n` (R119, R133). -/
def State.unitLen (s : State) (n : Nat) : Nat :=
  bif s.on (Reg.ING_LMAP_JESD.e n) then 128 * 2 ^ s.get (Reg.ING_LMAP_LW.e n) / s.get (Reg.ING_JCFG_M.e n)
  else frameCount (s.flen n) (s.isC16 n)

/-- The frame in flight of input `n`, if its lanes are UP and carry frames, fails check 1 with cause `c` (R123, R138). -/
def State.inputFails (s : State) (c n : Nat) : State :=
  bif s.get (Reg.ING_ICFG_GEN.e n) != 0 then s
  else bif s.lanesUp n && (s.lanesOf n).all (fun l => s.get (Reg.ING_LCFG_CHK.e l) == 0) then
    (s.discard n c).fastEnd n (s.inp n).fastFirst (s.unitLen n) true
  else s.gapCause n c

/-- The frames in flight of lane `l` fail check 1 with cause `c`. -/
def State.laneFails (s : State) (l c : Nat) : State := (s.fedBy l).foldl (State.inputFails · c ·) s

/-- Lane `l` leaves block lock or begins to look for it: no LMB has been seen, and a frame begins only at a frame start (R117, R123);
`full`: a full adaptation runs. -/
def State.laneAnew (s : State) (l : Nat) (full : Bool) : State :=
  s.setLane l { s.lane l with full := full, lmbs := [], hunting := true }

/-- Signal detected on a lane that is DOWN (R118, R138): ADAPT, with the stored equalisation, or with a full adaptation where none is
stored. -/
def execLaneSignalDetect (lane : Nat) (s : State) : Res :=
  .next <| bif s.get (laneState lane) == 1 && lt lane 128 then (s.laneAnew lane (!(s.lane lane).stored)).laneTo lane 2 else s

/-- Loss of signal (R138): DOWN, the frame in flight fails with LOS, LOSCNT counts. -/
def execLossOfSignal (lane : Nat) (s : State) : Res :=
  .next <| bif le (s.get (laneState lane)) 1 || le 128 lane then s
    else
      let s := (s.laneFails lane 1).count (Reg.ING_LSTAT_LOSCNT.e lane) 1
      (s.laneAnew lane false).laneTo lane 1

/-- CDR lock lost with the signal present (R138): ADAPT, the frame in flight fails with LOS. -/
def execCdrLockLoss (lane : Nat) (s : State) : Res :=
  .next <| bif (s.get (laneState lane) == 3 || s.get (laneState lane) == 4) && lt lane 128 then
      let s := s.laneFails lane 1
      (s.laneAnew lane (!(s.lane lane).stored)).laneTo lane 2
    else s

/-- The lane's fast relock or full adaptation completes (R118, R138): HUNT; a full one is counted and its equalisation stored. -/
def execAdaptationDone (lane : Nat) (s : State) : Res :=
  .next <| bif s.get (laneState lane) == 2 && lt lane 128 then
      let x := s.lane lane
      let s := s.setLane lane { x with stored := x.stored || x.full, full := false, lmbs := [], hunting := true }
      let s := bif x.full then s.count (Reg.ING_LSTAT_ADAPTCNT.e lane) 1 else s
      s.laneTo lane 3
    else s

/-- No block lock 200 µs after signal detection (R118): a full adaptation. -/
def execAdaptTimeout (lane : Nat) (s : State) : Res :=
  .next <| bif (s.get (laneState lane) == 2 || s.get (laneState lane) == 3) && lt lane 128 then
      (s.laneAnew lane true).laneTo lane 2
    else s

/-- Two LMBs stand at the same 257-bit alignment within 8193 blocks of each other, `p` the earlier one's place (R117). -/
def sameAlignment (p q : Nat) : Bool := lt p q && (q - p) % 257 == 0 && le ((q - p) / 257) 8193

/-- A block of a hunting native lane at place `pos` of its received bits (R116, R117): where it is a valid LMB, it gives block lock if it
is the second one at its alignment, and the lane is UP; otherwise it is remembered. -/
def execLmbRx (lane : Nat) (line : Line) (pos : Nat) (s : State) : Res :=
  .next <| bif s.get (laneState lane) == 3 && lt lane 128 && !s.laneJesd lane
        && decide ((s.lineRx lane line).head?.map (·.kind) = some .lmb) then
      let x := s.lane lane
      bif x.lmbs.any (sameAlignment · pos) then (s.laneAnew lane false).laneTo lane 4
      else s.setLane lane { x with lmbs := pos :: x.lmbs.filter (fun p => lt pos (p + 8194 * 257)) }
    else s

/-- Block lock lost (R117): HUNT, the frame in flight fails with BLOCK. -/
def execBlockLockLoss (lane : Nat) (s : State) : Res :=
  .next <| bif s.get (laneState lane) == 4 && lt lane 128 && !s.laneJesd lane then
      let s := s.laneFails lane 2
      (s.laneAnew lane false).laneTo lane 3
    else s

/-- A JESD204C lane gains or loses its lock (R133); a loss discards the whole multiblock of its input. -/
def execJesdLinkLock (lane : Nat) (locked : Bool) (s : State) : Res :=
  let st := s.get (laneState lane)
  .next <| bif le 128 lane || !s.laneJesd lane then s
    else bif locked then (bif st == 3 then s.laneTo lane 4 else s)
    else bif st == 4 then (s.laneFails lane 2).laneTo lane 3 else s

/-- A lane whose group's mode, electrical form or lane rate has changed is trained again (R112, R118): its frame in flight fails, and
with a signal present it adapts. -/
def State.laneRetrain (s : State) (l : Nat) : State :=
  bif le (s.get (laneState l)) 1 then s
  else ((s.laneFails l 1).laneAnew l (!(s.lane l).stored)).laneTo l 2

/-- A fault of the interposer link of lane die `die` (R150): a gap on every input it serves; the spec gives no cause code,
so the code is a free value among 1 to 15. -/
def execLaneDieLinkFault (die : Nat) (s : State) : Res :=
  let c := 1 + s.free 4 % 15
  .next (((upto 128).filter (fun n => s.inputOn n && (s.lanesOf n).any (fun l => l / 32 == die))).foldl
    (fun s n => s.gapShared n c) s.took)

/-! ### JESD204C (R131 to R134) -/

/-- A converter word with its control and tail bits cleared (R131). -/
def State.jesdWord (s : State) (n w : Nat) : Int :=
  let r := 16 - s.get (Reg.ING_JCFG_N.e n)
  sext 16 (w / 2 ^ r * 2 ^ r)

/-- The multiblock's samples. With M = 2, a word of converter 0 and one of converter 1 alternate, whatever S is (DESIGN CHOICE, log 62:
R131 names the converters of I and Q and no order of their words). -/
def State.jesdSamples (s : State) (n : Nat) (ws : List Nat) : List (Int × Int) :=
  let v := ws.map (s.jesdWord n)
  if s.isC16 n then (upto (v.length / 2)).map (fun k => (v.getD (2 * k) 0, v.getD (2 * k + 1) 0)) else v.map (·, 0)

/-- Multiblock `k` of input `n` is taken: the input is fed by JESD204C lanes that are UP, carry no test pattern and have not passed the
boundary at which the input leaves them (R134, R136, R144). -/
def State.takesBlocks (s : State) (n : Nat) : Bool :=
  s.inputOn n && s.on (Reg.ING_LMAP_JESD.e n) && s.get (Reg.ING_ICFG_GEN.e n) == 0 && s.lanesUp n && !(s.inp n).cut
    && (s.lanesOf n).all (fun l => s.get (Reg.ING_LCFG_CHK.e l) == 0)

/-- Multiblock `k` of input `n` reaches its release point (R134): ALIGN where a lane delivered it late or more than 8 early,
CRC where a CRC-12 failed, RATE after the third re-anchoring (R129); after a move or a change of rate its index goes by time_index()
(R128, R136). -/
def execJesdMultiblockRelease (n k : Nat) (words : List Nat) (stamp : Nat) (aligned crcOk : Bool) (s : State) : Res :=
  let l := 2 ^ s.get (Reg.ING_LMAP_LW.e n)
  let m := s.get (Reg.ING_JCFG_M.e n)
  let c := k * 128 * l / m % idxMod
  let d := s.jesdSamples n words
  let first := idxAdd c (s.inp n).offset
  .next <| bif !s.takesBlocks n then s
    else bif !aligned then (s.discard n 13).fastEnd n first d.length true
    else bif !crcOk then (s.discard n 3).fastEnd n first d.length true
    else bif (s.inp n).rateFault then (s.discard n 8).fastEnd n first d.length true
    else bif lt 16384 (heldBytes (s.inp n) + 2 * words.length) then (s.discard n 9).fastEnd n first d.length true
    else
      let f := s.laneStamp (s.get (Reg.ING_LMAP_LANE.e n)) stamp
      let (s, sc) := s.stampScale f
      let t : Int := (f : Int) * 2 ^ 32
      let x := s.inp n
      let place := bif x.series && (x.replace || x.newRate) then (timeIndex x t (s.scaleTotal sc), true, false)
        else (bif x.series then idxAdd c x.offset else c, false, false)
      s.acceptAt n c d t sc place (2 * words.length)

/-! ### The generator (R145) -/

/-- Carry-less product modulo x³¹ + x³ + 1 (31-bit polynomials). -/
def gfMul (a b : Nat) : Nat :=
  (upto 31).foldl (fun acc j =>
    let k := 30 - j
    let acc := 2 * acc
    let acc := if 2 ^ 31 ≤ acc then (acc - 2 ^ 31) ^^^ 9 else acc
    if bit b k then acc ^^^ a else acc) 0

/-- x^`e` modulo x³¹ + x³ + 1, from the top bit of `e` down. -/
def gfPow (e : Nat) : Nat :=
  (upto 64).foldl (fun acc j =>
    let acc := gfMul acc acc
    if bit e (63 - j) then gfMul acc 2 else acc) 1

/-- Bit `k` of the PRBS31 sequence x³¹ + x²⁸ + 1 with 31 ones at the start. -/
def prbs31 (k : Nat) : Nat := popcount 31 (gfPow k) % 2

/-- Generated sample `i` (R145). A C16 sample of PRBS31 takes 32 bits of the sequence, the first 16 for I and the others for Q (DESIGN
CHOICE, log 62: R145 says which bits a sample holds for 16 of them only). -/
def genSample (gen i : Nat) (c16 : Bool) : Int × Int :=
  if gen = 1 then (sext 16 i, if c16 then sext 16 (0xFFFF - i % 2 ^ 16) else 0)
  else
    let w (j : Nat) : Int := sext 16 ((upto 16).foldl (fun a b => 2 * a + prbs31 (16 * j + b)) 0)
    if c16 then (w (2 * i), w (2 * i + 1)) else (w i, 0)

/-- A fast-path sample (R27, 05 R172): the converter's count `counter` of it and its value; `first`: it begins its frame.
A frame feeds the fast path where the input was locked at its first sample. -/
def execFastPathSample (n counter : Nat) (i q : Int) (first : Bool) (s : State) : Res :=
  let x := s.inp n
  let gen := s.get (Reg.ING_ICFG_GEN.e n)
  let idx := idxAdd counter x.offset
  let frame := gen == 0 && (bif first then x.locked else x.fastOpen)
  let x := { x with fastOpen := frame, fastFirst := if first then idx else x.fastFirst }
  let v := if gen = 0 then (i, q) else genSample gen idx (s.isC16 n)
  .next <| bif !s.inputOn n then s
    else bif frame || (gen != 0 && x.locked) then s.setInp n { x with fast := (idx, v.1, v.2) :: x.fast.filter (fun p => idxNear idx p.1) }
    else s.setInp n x

/-! ### The swap of lane map and settings (R128, R136, R144, R145) -/

def mapFields : List Fld := [Reg.ING_LMAP_EN, Reg.ING_ICFG_SRCID, Reg.ING_RATE_RATE, Reg.ING_JCFG_RBD]

/-- The lanes whose boundary a commit waits for: those with changed settings, and those that the live or the staged map of a
changed input names. -/
def State.affectedLanes (s : State) : List Nat :=
  let ch (o : Nat) : Bool := s.wordChanged .ingress o
  let ins := (upto 128).filter (fun n => mapFields.any (fun f => ch (f.e n).off))
  let lanes (v : Nat → Nat) (n : Nat) : List Nat := if bit (v n) 31 then [bits (v n) 0 7] else []
  let live (n : Nat) := (s.word (Reg.ING_LMAP_EN.e n).off).toNat
  let st (n : Nat) := (s.word ((Reg.ING_LMAP_EN.e n).staged .ingress).off).toNat
  let byMap := ins.flatMap (fun n => lanes live n ++ lanes st n)
  (upto 128).filter (fun l => byMap.contains l || ch (Reg.ING_LCFG_INV.e l).off || ch (Reg.ING_GCFG_JESD.e (l / 8)).off)

/-- The generator of input `n` starts (R145): its index goes on by time_index(), which re-anchors the model (R127), or from 0 where no
series has begun (DESIGN CHOICE, log 62: the spec names no first index for a generator). -/
def State.genStart (s : State) (n : Nat) : State :=
  let x := s.inp n
  let f : Int := (s.now : Int) * 2 ^ 32
  let i := if x.series then timeIndex x f s.tb.total else 0
  let m : FrameModel := ⟨i, f, i, s.nominalP n, x.series, s.getI (Reg.TB_INDELAY_DELAY.e n),
                         s.get Reg.TB_STATUS_STEPCNT.z, s.tb.total⟩
  let gapLen := (idxSub i x.iDel).toNat
  let gapc : List Chunk := if x.series ∧ gapLen ≠ 0 then [⟨x.iDel, s.isC16 n, gapLen, [], 0⟩] else []
  let s := bif x.series then (s.settleGap n i 0).raise 24 s.now else s
  let x := s.inp n
  s.setInp n { x with locked := true, elastic := x.elastic ++ gapc, series := true,
                      start := if x.locked then x.start else i, long := x.locked && x.long, iExp := i, iDel := i, models := m :: x.models, offset := 0, accepting := true, refused := false, fastOpen := false,
                      newRate := false, replace := false }

/-- An enabled input that a checking lane feeds is in a gap with cause TEST (R144). -/
def State.testGap (s : State) (n : Nat) : State :=
  bif s.inputOn n && s.get (Reg.ING_ICFG_GEN.e n) == 0 && (s.lanesOf n).any (fun l => s.get (Reg.ING_LCFG_CHK.e l) != 0) then
    let s := s.gapCause n 15
    (s.setInp n { s.inp n with accepting := false, refused := true }).ingState n
  else s

/-- A word of input `n`'s settings in force. -/
def State.inputWord (s : State) (f : Fld) (n : Nat) : Nat := (s.word (f.e n).off).toNat

/-- CCH_DCEST shows Ê (05 R152). -/
def State.dcSync (s : State) (n : Nat) : State :=
  let x := s.inp n
  (s.putI (Reg.CCH_DCEST_ESTI.e n) (satS 16 (rnd x.eI 24))).putI (Reg.CCH_DCEST_ESTQ.e n) (satS 16 (rnd x.eQ 24))

/-- The grids that `p` picks begin anew: no window before their swap index is left (05 R174). -/
def Front.anew (f : Front) (p : Nat → Bool) : Front :=
  { f with swapped := (f.swapIdx.filter (fun e => p e.1)).map (·.1) ++ f.swapped, swapIdx := f.swapIdx.filter (fun e => !p e.1) }

/-- An input enabled again begins a new series (R136, 05 R152, R171): nothing of the old one stands before it, E is 0, and the interval
is declared with cause DISABLED. -/
def State.inputEnabled (s : State) (n : Nat) : State :=
  let f := s.front.anew (fun g => g / 3 == n)
  let f := { f with main := terase f.main n, seam := terase f.seam n, sketch := terase f.sketch n }
  let x := s.inp n
  let s := { s with front := f }.setInp n { x with locked := false, main := [], fast := [], fastOpen := false, faults := [], eI := 0,
                                                   eQ := 0, dcBase := (0, 0), dcLog := [] }
  let s := s.dcSync n
  bif x.series then s.gapCause n 11 else s

/-- The words of input `n` swap; what follows for its index, its gap and its rate. -/
def State.swapInput (s : State) (n : Nat) : State :=
  let was := s.on (Reg.ING_LMAP_EN.e n)
  let rate := s.get (Reg.ING_RATE_RATE.e n)
  let map := s.inputWord Reg.ING_LMAP_EN n % 2 ^ 31
  let gen := s.get (Reg.ING_ICFG_GEN.e n)
  let s := (s.swapWhere .ingress (ofElem mapFields n)).calSwap 2 n
  let now := s.on (Reg.ING_LMAP_EN.e n)
  let x := s.inp n
  let changed := s.get (Reg.ING_RATE_RATE.e n) != rate
  let map2 := s.inputWord Reg.ING_LMAP_EN n % 2 ^ 31
  let moved := was && now && map2 != map
  let gen2 := s.get (Reg.ING_ICFG_GEN.e n)
  let left := gen != 0 && gen2 == 0
  let s := s.setInp n
    { x with newRate := x.newRate || changed, rateFault := x.rateFault && !changed, recent := if changed then [] else x.recent,
             rateBad := x.rateBad && !changed, replace := x.replace || moved || gen != gen2,
             accepting := x.accepting && !left && now, refused := x.refused && !left && now,
             oldLane := if moved && !x.cut && bits map 0 7 != bits map2 0 7 then some (bits map 0 7) else none, cut := false }
  let s := bif moved then (s.causeBit n 10).causeLater n 10 else s
  let s := bif was && !now then s.setInp n { s.inp n with locked := false, fastOpen := false } else s
  let s := bif !was && now then s.inputEnabled n else bif was && !now then s.fineEnd n else s
  let s := bif now && gen2 != 0 && (gen == 0 || !was || changed) then s.genStart n else s
  (s.testGap n).ingState n

/-- The settings of lane `l` swap (R115, R138, R144). -/
def State.swapLane (s : State) (l : Nat) : State :=
  let chk := s.get (Reg.ING_LCFG_CHK.e l)
  let s := s.swapWhere .ingress (ofElem [Reg.ING_LCFG_INV] l)
  let chk2 := s.get (Reg.ING_LCFG_CHK.e l)
  let s := bif chk == chk2 then s
    else (s.put64 (Reg.ING_LERR_L_ERR.e l) (Reg.ING_LERR_H_ERR.e l) 0).setLane l { s.lane l with hunting := true }
  let s := bif chk2 != 0 && chk == 0 then (s.fedBy l).foldl State.testGap s else s
  let off := s.on (Reg.ING_LCFG_PWRDN.e l)
  bif off && s.get (laneState l) != 0 then (s.laneFails l 1).laneTo l 0
  else bif !off && s.get (laneState l) == 0 && s.awake then s.laneTo l 1 else s

/-- The settings of group `g` swap (R112), at the last boundary that a commit waits for among its lanes (DESIGN CHOICE, log 62), and a
change of its mode, its electrical form or its lane rate trains its lanes again. -/
def State.swapGroup (s : State) (g : Nat) : State :=
  bif s.ing.lanesLeft.any (fun l => l / 8 == g) then s
  else
    let v := s.inputWord Reg.ING_GCFG_JESD g
    let s := s.swapWhere .ingress (ofElem [Reg.ING_GCFG_JESD] g)
    let v2 := s.inputWord Reg.ING_GCFG_JESD g
    bif v / 2 ^ 30 != v2 / 2 ^ 30 || (bit v2 31 && v != v2) then ((upto 8).map (8 * g + ·)).foldl State.laneRetrain s else s

/-- What the boundary of lane `l` does to input `n` (R136): its new map begins there, or its old map ends. -/
def State.inputBoundary (s : State) (l n : Nat) : State :=
  let st := (s.word ((Reg.ING_LMAP_EN.e n).staged .ingress).off).toNat
  let lv := s.inputWord Reg.ING_LMAP_EN n
  let changed := mapFields.any (fun f => s.wordChanged .ingress (f.e n).off)
  bif changed && bits (bif bit st 31 then st else lv) 0 7 == l then s.swapInput n
  else bif changed && bits lv 0 7 == l then s.setInp n { s.inp n with cut := true }
  else bif (s.inp n).oldLane == some l then s.setInp n { s.inp n with oldLane := none }
  else s

/-- The frame boundary of lane `lane` (R30, R136): the lane's settings and those of the inputs whose new map it begins, or
whose old map it ends, become live. -/
def execIngressSwap (lane : Nat) (s : State) : Res :=
  .next <| bif s.maySwap .ingress && s.ing.lanesLeft.contains lane then
      let s := { s with ing := { s.ing with lanesLeft := s.ing.lanesLeft.filter (· ≠ lane) } }
      let s := (s.swapLane lane).swapGroup (lane / 8)
      let s := (upto 128).foldl (fun s n => s.inputBoundary lane n) s
      bif s.ing.lanesLeft.isEmpty then (s.swapWhere .ingress (fun _ => true)).swapDone .ingress else s
    else s

/-- A commit's instant arrives: the lanes whose boundaries it waits for; with none the block swaps at once. -/
def State.ingCommit (s : State) : State :=
  bif s.maySwap .ingress then
    let l := s.affectedLanes
    bif l.isEmpty then (s.swapWhere .ingress (fun _ => true)).swapDone .ingress
    else { s with ing := { s.ing with lanesLeft := l } }
  else s

/-! ### Sleep and wake (R138, R141) -/

/-- Entry to Sleep: frames in flight fail with LOS, every open gap is closed with the length up to the instant of entry, lanes
go OFF and the index series end. -/
def State.ingSleep (s : State) : State :=
  let s := (upto 128).foldl (fun s n =>
    let x := s.inp n
    bif x.series && s.on (Reg.ING_LMAP_EN.e n) then
      let s := s.inputFails 1 n
      match (s.inp n).gap with
      | some g => s.gapClose n (idxSub (s.indexNow n) g.first).toNat g
      | none => s
    else s) s
  let s := (upto 128).foldl (fun s l => (s.put (laneState l) 0).laneAnew l false) s
  (upto 128).foldl (fun s n =>
    let x := s.inp n
    (s.setInp n { x with locked := false, series := false, models := [], recent := [], accepting := false, refused := false, gap := none,
                         gaps := [], fmtAt := [], causes := [], elastic := [], fast := [], fastOpen := false, main := [], faults := [],
                         dcBase := (x.eI, x.eQ), dcLog := [], long := false }).ingState n) s

/-- The wake from Sleep: the lanes that are not powered down go to DOWN. -/
def State.ingWake (s : State) : State :=
  (upto 128).foldl (fun s l =>
    bif s.get (laneState l) == 0 && !s.on (Reg.ING_LCFG_PWRDN.e l) && !bit s.sec.badDies (l / 32) then s.laneTo l 1 else s) s

/-- The time base has started again: the generators start with it (R145). -/
def State.genWake (s : State) : State :=
  (upto 128).foldl (fun s n =>
    bif s.inputOn n && s.get (Reg.ING_ICFG_GEN.e n) != 0 then
      ((s.setInp n { s.inp n with series := false, models := [], gap := none }).genStart n).ingState n
    else s) s

/-- The lane map of input `n` is stopped under 02 R73: a gap with cause TVSTOP. -/
def State.ingTvStop (s : State) (n : Nat) : State := s.gapShared n 12

end Sys2Proof.Machine
end

