-- ==== Sys2Proof/Machine/Numeric.lean ====
section
/-!
DEFINITION. Elementary functions: fixed-point series for cos, sin and I₀, the rounding of a quotient to IEEE 754 binary64
(05_coarse_channeliser.md R159, R162), and log power (00_scope.md R14), exact by comparison of integer powers.
-/
namespace Sys2Proof.Machine

/-- Fraction bits of the fixed-point series. -/
def fixBits : Nat := 256
def fixOne : Int := 2 ^ fixBits

/-- Σ of the alternating series of arctan(1/k), `fuel` terms from term `j` with power `pw` = fixOne / k^(2j+1). -/
def arctanTerms (k : Int) : Nat → Int → Int → Int
  | 0, _, _ => 0
  | fuel + 1, j, pw => pw / (2 * j + 1) - arctanTerms k fuel (j + 1) (pw / (k * k))

def arctanInv (k : Int) (fuel : Nat) : Int := arctanTerms k fuel 0 (fixOne / k)

/-- π in fixed point (Machin). -/
def piFix : Int := 4 * (4 * arctanInv 5 120 - arctanInv 239 40)

/-- Σ of the alternating series with terms x^j/j!, from term `j` whose value is `term`. -/
def taylor (x2 : Int) : Nat → Int → Int → Int
  | 0, _, _ => 0
  | fuel + 1, j, term => term - taylor x2 fuel (j + 2) (term * x2 / fixOne / ((j + 1) * (j + 2)))

/-- cos and sin of a fixed-point angle. -/
def cosFix (x : Int) : Int := taylor (x * x / fixOne) 60 0 fixOne
def sinFix (x : Int) : Int := taylor (x * x / fixOne) 60 1 x

/-- A value so near 0 that only the exact 0 can give it. -/
def snap (x : Int) : Int := if x.natAbs < 2 ^ 64 then 0 else x

/-- cos(2π `r` ÷ `n`) and sin(2π `r` ÷ `n`) in fixed point. -/
def cosTurn (r : Int) (n : Nat) : Int := snap (cosFix (2 * piFix * (r % (n : Int)) / n))
def sinTurn (r : Int) (n : Nat) : Int := snap (sinFix (2 * piFix * (r % (n : Int)) / n))

/-- A binary64 value `m` × 2^`e` (finite, no limit on the exponent). -/
structure F64 where
  m : Int
  e : Int
deriving DecidableEq, Repr

/-- `n` ÷ `d` × 2^`s` rounded convergently, for either sign of `s`. -/
def scaleRound (n : Int) (d : Nat) (s : Int) : Int :=
  if 0 ≤ s then rndDiv (n * 2 ^ s.toNat) d else rndDiv n (d * 2 ^ (-s).toNat)

/-- `n` ÷ `d` rounded to binary64. -/
def f64 (n : Int) (d : Nat) : F64 :=
  if n = 0 then ⟨0, 0⟩
  else
    let s : Int := 53 + (Nat.log2 d : Int) - (Nat.log2 n.natAbs : Int)
    let q := scaleRound n d s
    if q.natAbs < 2 ^ 53 then ⟨q, -s⟩ else ⟨scaleRound n d (s - 1), 1 - s⟩

/-- A fixed-point value as binary64. -/
def f64Fix (x : Int) : F64 := f64 x (2 ^ fixBits)

/-- A decimal constant `n` ÷ 10^`k` as binary64. -/
def f64Dec (n : Int) (k : Nat) : F64 := f64 n (10 ^ k)

/-- `m` × 2^`e` as a quotient. -/
def F64.num (x : F64) : Int := if 0 ≤ x.e then x.m * 2 ^ x.e.toNat else x.m
def F64.den (x : F64) : Nat := if 0 ≤ x.e then 1 else 2 ^ (-x.e).toNat

def F64.add (x y : F64) : F64 := f64 (x.num * y.den + y.num * x.den) (x.den * y.den)
def F64.neg (x : F64) : F64 := ⟨-x.m, x.e⟩
def F64.sub (x y : F64) : F64 := x.add y.neg
def F64.mul (x y : F64) : F64 := f64 (x.num * y.num) (x.den * y.den)
/-- `x` ÷ `y`; 0 for a zero divisor (no use of the model divides by 0). -/
def F64.div (x y : F64) : F64 :=
  f64 ((if y.num < 0 then -1 else 1) * (x.num * y.den)) (x.den * y.num.natAbs)
/-- The binary64 value rounded convergently to an integer. -/
def F64.int (x : F64) : Int := rndDiv x.num x.den
/-- The value in fixed point. -/
def F64.fix (x : F64) : Int := x.num * fixOne / x.den

/-- The integer square root, by bits from bit `fuel` - 1 down. -/
def isqrtFrom (x : Nat) : Nat → Nat → Nat
  | 0, r => r
  | fuel + 1, r => let c := r + 2 ^ fuel
                   isqrtFrom x fuel (if c * c ≤ x then c else r)
def isqrt (x : Nat) : Nat := isqrtFrom x (Nat.log2 x / 2 + 1) 0

/-- The square root, correctly rounded to binary64 (of a value that is not negative). -/
def F64.sqrt (x : F64) : F64 := f64Fix (isqrt ((x.num.toNat * 2 ^ (2 * fixBits)) / x.den))

/-- Σ (x²/4)^k ÷ (k!)², from term `k`. -/
def besselTerms (y : Int) : Nat → Int → Int → Int
  | 0, _, _ => 0
  | fuel + 1, k, term => term + besselTerms y fuel (k + 1) (term * y / fixOne / ((k + 1) * (k + 1)))

/-- I₀ of a binary64 value, correctly rounded. -/
def F64.bessel (x : F64) : F64 := f64Fix (besselTerms (x.fix * x.fix / fixOne / 4) 120 0 fixOne)

/-- The largest integer v from `lo` up, below `lo` + 2^`fuel`, for which `p` holds, `p` being downward closed. -/
def searchUp (p : Int → Bool) : Nat → Int → Int
  | 0, lo => lo
  | fuel + 1, lo => let c := lo + 2 ^ fuel
                    searchUp p fuel (if p c then c else lo)

/-- round(1280 × log₁₀(`num` ÷ `den`)), evaluated exactly (00 R14, 05 R165): the largest v with
num ÷ den ≥ 10^((2v − 1) ÷ 2560), within −32767 and 32767; −32767 for 0. -/
def logPower (num den : Nat) : Int :=
  let a := num ^ 2560
  let b := den ^ 2560
  let p (v : Int) : Bool :=
    let k := 2 * v - 1
    if 0 ≤ k then decide (b * 10 ^ k.toNat ≤ a) else decide (b ≤ a * 10 ^ (-k).toNat)
  if num = 0 then -32767 else min 32767 (searchUp p 16 (-32767))

/-- The twiddle w(r) of a transform of length `n` (05 R162). -/
def twiddle (r n : Nat) : Int × Int :=
  let f (x : Int) : Int := let y := f64Fix x
                           scaleRound y.num y.den 22
  (f (cosTurn r n), -f (sinTurn r n))

/-- (p, q) times a twiddle, each component rounded convergently (05 R162). -/
def cmulTw (x w : Int × Int) : Int × Int := (rnd (x.1 * w.1 - x.2 * w.2) 22, rnd (x.1 * w.2 + x.2 * w.1) 22)

def cadd (a b : Int × Int) : Int × Int := (a.1 + b.1, a.2 + b.2)
def csub (a b : Int × Int) : Int × Int := (a.1 - b.1, a.2 - b.2)

/-- One butterfly pass over a block of `2 h` values of a transform of length `n` (05 R162). -/
def butterflies (n h : Nat) (blk : List (Int × Int)) : List (Int × Int) :=
  let us := blk.take h
  let vs := blk.drop h
  (us.zip vs).map (fun p => cadd p.1 p.2) ++
    ((us.zip vs).zip (upto h)).map (fun p => cmulTw (csub p.1.1 p.1.2) (twiddle (p.2 * n / (2 * h)) n))

/-- The decimation-in-frequency transform of a block, result in bit-reversed order (05 R162). -/
def difBlock (n : Nat) : Nat → List (Int × Int) → List (Int × Int)
  | 0, a => a
  | k + 1, a => let b := butterflies n (2 ^ k) a
                difBlock n k (b.take (2 ^ k)) ++ difBlock n k (b.drop (2 ^ k))

/-- The low `k` bits of `x` reversed. -/
def bitrev : Nat → Nat → Nat
  | 0, _ => 0
  | k + 1, x => (x % 2) * 2 ^ k + bitrev k (x / 2)

/-- The reference transform of 2^`k` points, bit for bit (05 R162). -/
def transform (k : Nat) (a : List (Int × Int)) : List (Int × Int) :=
  let y := difBlock (2 ^ k) k a
  (upto (2 ^ k)).map (fun i => y.getD (bitrev k i) (0, 0))

end Sys2Proof.Machine
end

