-- ==== Sys2Proof/Machine/Front.lean ====
section
/-!
DEFINITION. The fronts (05_coarse_channeliser.md): the palette, correction, windows, the filter bank, requantisation,
the sketch, and the swap of grids.
-/
namespace Sys2Proof.Machine

/-! ### Banks and grids (R155, R174) -/

def State.oldFront (s : State) : BankView := ⟨tget resetWord s.front.oldRegs, s.front.oldGen⟩

/-- The swap index of grid `port` of input `n` (0 main, 1 seam, 2 sketch), where one is set. -/
def State.swapIndex (s : State) (n port : Nat) : Option Nat := tget (fun _ => none) s.front.swapIdx (3 * n + port)

/-- A grid of an input's fronts: the bank that computes it, and the input's format on it (R155, R175). -/
structure Grid where
  bank : BankView
  c16 : Bool

def Grid.hop (g : Grid) (n port : Nat) : Nat := gridHop g.bank n port g.c16
def Grid.len (g : Grid) (n port : Nat) : Nat := gridLen g.bank n port g.c16
/-- The windows of one turn of the sample index (R155). -/
def Grid.turn (g : Grid) (n port : Nat) : Nat := ceilDiv idxMod (g.hop n port)

/-- The main output feeds the fine channeliser (06 R179). -/
def Grid.main (g : Grid) (n : Nat) : Bool := g.bank.on (Reg.CCH_ICFG_MAINEN.e n) && !g.bank.on (Reg.CCH_ICFG_OVS.e n)

/-- Format of the samples released last on the main path, that of the settings before the first one. -/
def State.releasedC16 (s : State) (n : Nat) : Bool :=
  match (s.inp n).main.head? with
  | some p => p.c16
  | none => s.isC16 n

/-- The old and the new grids of input `n` in the commit under way or last done (R174, R175). -/
def State.gridOld (s : State) (n : Nat) : Grid :=
  ⟨bif s.maySwap .coarse then s.liveView .coarse else s.oldFront, s.front.oldC16.contains n⟩
def State.gridNew (s : State) (n : Nat) : Grid :=
  bif s.maySwap .coarse then ⟨s.stagedView .coarse, s.front.newC16.contains n⟩ else ⟨s.liveView .coarse, s.isC16 n⟩

/-- The grids of output `port` of input `n`, the older one first, each with the window starts it covers (R174, R175): the old one
before the swap index and the new one from it on; a change of format without a swap of the front divides its grid likewise. -/
def State.grids (s : State) (n port : Nat) : List (Grid × (Nat → Bool)) :=
  match s.swapIndex n port with
  | some j => [(s.gridOld n, (idxBefore · j)), (s.gridNew n, fun i => !idxBefore i j)]
  | none =>
    if s.maySwap .coarse then [(bif s.front.swapped.contains (3 * n + port) then s.gridNew n else s.gridOld n, fun _ => true)]
    else
      let v := s.liveView .coarse
      let f := s.releasedC16 n
      match (s.inp n).fmtAt.head? with
      | some j => [(⟨v, !f⟩, (idxBefore · j)), (⟨v, f⟩, fun i => !idxBefore i j)]
      | none => [(⟨v, f⟩, fun _ => true)]

/-- The grid of the window that begins at index `i`. -/
def State.gridAt (s : State) (n port i : Nat) : Grid :=
  (((s.grids n port).find? (fun g => g.2 i)).map (·.1)).getD (s.gridNew n)

/-- The bank of the window that begins at index `i` (R174). -/
def State.frontBank (s : State) (n port i : Nat) : BankView := (s.gridAt n port i).bank

/-- The first index of window `m` of a grid; none beyond the last window before the index wraps (R155). -/
def Grid.startOf (g : Grid) (n port m : Nat) : Option Nat :=
  if m * g.hop n port < idxMod then some (m * g.hop n port) else none

/-- The windows of number `m`, the older grid's first (R155, R175). -/
def State.windowsOf (s : State) (n port m : Nat) : List (Grid × Nat) :=
  (s.grids n port).filterMap (fun g => (g.1.startOf n port m).bind (fun i => if g.2 i then some (g.1, i) else none))

/-- The first index whose pin time is at or after instant `t`. -/
def State.indexAt (s : State) (n t : Nat) : Nat :=
  match (s.inp n).models.head? with
  | some m => idxAdd m.iA (-((m.a - (t : Int) * 2 ^ 32) / (m.p : Int)))
  | none => 0

/-! ### Windows (R158 to R160) -/

/-- Σ of a cosine sum c₀ − c₁ cos 2πt + c₂ cos 4πt − …, in binary64, coefficients over 10⁹. -/
def cosSum (cs : List Int) (num den : Nat) : F64 :=
  ((cs.zip (upto cs.length)).foldl (fun acc c =>
    let term := (f64Dec c.1 9).mul (f64Fix (cosTurn (c.2 * num) den))
    if c.2 % 2 = 0 then acc.add term else acc.sub term) ⟨0, 0⟩)

/-- w(t) of R159 at t = (`n` + 0.5) ÷ `l`: 0 BH4, 1 HANN, 2 KAISER10, 3 FLAT, 4 RECT. -/
def windowAt (shape n l : Nat) : F64 :=
  let num := 2 * n + 1
  let den := 2 * l
  match shape with
  | 0 => cosSum [358750000, 488290000, 141280000, 11680000] num den
  | 1 => cosSum [500000000, 500000000] num den
  | 2 =>
    let u := f64 (2 * num - den : Int) den
    let r := ((f64 1 1).sub (u.mul u)).sqrt
    (((f64 10 1).mul r).bessel).div (f64 10 1).bessel
  | 3 => cosSum [215578950, 416631580, 277263158, 83578947, 6947368] num den
  | _ => f64 1 1

/-- sinc(u) at u = (`n` − (l − 1) ÷ 2) ÷ `p`, never at u = 0 (R159). -/
def sincAt (n l p : Nat) : F64 :=
  let k : Int := 2 * n - (l - 1)
  let pu := (f64Fix piFix).mul (f64 k (2 * p))
  (f64Fix (sinTurn k (4 * p))).div pu

/-- The larger magnitude of two binary64 values, as a quotient of integers. -/
def F64.maxAbs (x y : F64) : F64 := if x.num.natAbs * y.den < y.num.natAbs * x.den then y else x

/-- Binary64 values scaled to 131071 over the largest magnitude (R159). -/
def scaleWindow (h : List F64) : List Int :=
  let mx := h.foldl F64.maxAbs ⟨0, 0⟩
  let mx := if mx.m < 0 then mx.neg else mx
  h.map (fun x => (((f64 131071 1).mul x).div mx).int)

/-- ROM entry `e` for a prototype with transform length `p` (window length 8 p), first half. -/
def romPrototype (e p : Nat) : List Int :=
  scaleWindow ((upto (4 * p)).map (fun n => (windowAt e n (8 * p)).mul (sincAt n (8 * p) p)))

/-- ROM sketch entry `e` for length `l`, first half: HANN, BH4, FLAT, RECT. -/
def romSketch (e l : Nat) : List Int :=
  let shape := if e = 0 then 1 else if e = 1 then 0 else if e = 2 then 3 else 4
  scaleWindow ((upto (l / 2)).map (fun n => windowAt shape n l))

/-- The window of length `l` a selector names (R160), by its first half mirrored (R158). -/
def windowOf (b : BankView) (sel p l : Nat) (sketch : Bool) : List Int :=
  let half : List Int :=
    if sel < 0x10 then (if sketch then romSketch sel l else romPrototype sel p)
    else (upto (l / 2)).map (fun j => sext 18 (b.get (Reg.CCH_PAL_COEF.e2 (sel - 0x10) j)))
  half ++ half.reverse

/-! ### Correction (R151 to R154) -/

/-- E after the last released sample at or before index `i`, or 0 where it was set to 0 since, up to index `z` (R152). -/
def eAt (x : Input) (i z : Nat) : Int × Int :=
  let p := x.main.find? (fun p => !idxBefore i p.idx)
  match x.dcLog.find? (fun j => !idxBefore z j), p with
  | some j, some p => if idxBefore p.idx j then (0, 0) else (p.eI, p.eQ)
  | some _, none => (0, 0)
  | none, some p => (p.eI, p.eQ)
  | none, none => x.dcBase

/-- Ê as it stood after sample `i` (R152, R153). -/
def dcAt (x : Input) (i : Nat) : Int × Int :=
  let e := eAt x i i
  (satS 16 (rnd e.1 24), satS 16 (rnd e.2 24))

/-- Ê in force for the window that begins at `i`: 0 while TRK = 0. -/
def State.dcFor (s : State) (b : BankView) (n i : Nat) : Int × Int :=
  if b.on (Reg.CCH_DC_TRK.e n) then dcAt (s.inp n) (idxAdd i (-1)) else (0, 0)

/-- x − OFS − Ê before saturation; a sample of S16 has one component (R151). -/
def corrected (b : BankView) (n : Nat) (c16 : Bool) (e v : Int × Int) : Int × Int :=
  (v.1 - sext 16 (b.get (Reg.CCH_DC_OFSI.e n)) - e.1,
   if c16 then v.2 - sext 16 (b.get (Reg.CCH_OFSQ_OFSQ.e n)) - e.2 else 0)

/-- One step of the DC estimator for a valid sample, each component its own (R152). -/
def dcStep (b : BankView) (n : Nat) (c16 : Bool) (e v : Int × Int) : Int × Int :=
  if b.on (Reg.CCH_DC_TRK.e n) then
    let k := b.get (Reg.CCH_DC_DCK.e n)
    let f (e x o : Int) : Int := e + ((x - o) * 2 ^ 24 - e) / 2 ^ k
    (f e.1 v.1 (sext 16 (b.get (Reg.CCH_DC_OFSI.e n))),
     if c16 then f e.2 v.2 (sext 16 (b.get (Reg.CCH_OFSQ_OFSQ.e n))) else e.2)
  else e

/-! ### The filter bank (R161 to R164) -/

/-- Σ over the taps of the window times the corrected samples, each component rounded to 20 fraction bits (R161). -/
def polyphase (p : Nat) (w : List Int) (x : List (Int × Int)) : List (Int × Int) :=
  let y := w.zip x
  (upto p).map (fun k =>
    let taps := (y.zip (upto y.length)).filter (fun c => decide (c.2 % p = k))
    let sum := taps.foldl (fun a c => (a.1 + c.1.1 * c.1.2.1, a.2 + c.1.1 * c.1.2.2)) ((0, 0) : Int × Int)
    (rnd sum.1 12, rnd sum.2 12))

/-- (−j)^`k` times a value (R163). -/
def turn (k : Nat) (v : Int × Int) : Int × Int :=
  match k % 4 with
  | 0 => v
  | 1 => (v.2, -v.1)
  | 2 => (-v.1, -v.2)
  | _ => (-v.2, v.1)

/-- The bins of a transform in delivery order (R164). -/
def inOrder (c16 : Bool) (x : List (Int × Int)) : List (Int × Int) :=
  let p := x.length
  if c16 then (upto p).map (fun b => x.getD ((b + p / 2) % p) (0, 0)) else x.take (p / 2)

/-- A window as formed: corrected samples (0 for a gap), gap count, and whether a valid sample meets a non-zero weight. -/
structure Windowed where
  vals : List (Int × Int)
  gaps : Nat
  seen : Bool

/-- The samples of a window from a source that answers a sample for an index. -/
def gather (get : Nat → Option (Int × Int)) (i : Nat) (w : List Int) : Windowed :=
  (w.zip (upto w.length)).foldr (fun (c : Int × Nat) a =>
    match get (idxAdd i (c.2 : Nat)) with
    | some v => ⟨v :: a.vals, a.gaps, a.seen || c.1 != 0⟩
    | none => ⟨(0, 0) :: a.vals, a.gaps + 1, a.seen⟩) ⟨[], 0, false⟩

/-- The spectrum before requantisation (R161 to R164): bins in units of 2⁻²⁰. -/
def filterBank (k : Nat) (c16 : Bool) (i : Nat) (w : List Int) (x : List (Int × Int)) : List (Int × Int) :=
  let p := 2 ^ k
  let y := transform k (polyphase p w x)
  let q := i % p / (p / 4)
  let z := (y.zip (upto p)).map (fun c => turn (c.2 * q) c.1)
  inOrder c16 z

/-- Gain and requantisation of a component to `b` bits (R166), with its saturation. -/
def requant (x : Int) (g b sh : Nat) : Int × Bool :=
  let v := rnd (x * g) (35 - b + sh)
  (satS b v, clipsS b v)

def State.specs (s : State) (port n : Nat) : List Spectrum :=
  tget (fun _ => []) (if port = 0 then s.front.main else if port = 1 then s.front.seam else s.front.sketch) n

/-- A spectrum is the newest of its output; those that no span reaches any more are forgotten (03 R102). -/
def State.pushSpec (s : State) (port n : Nat) (p : Spectrum) : State :=
  let f := s.front
  let put (t : Tbl (List Spectrum)) := tinsert t n (p :: (tget (fun _ => []) t n).filter (fun q => idxNear p.first q.first))
  { s with front := match port with
                    | 0 => { f with main := put f.main }
                    | 1 => { f with seam := put f.seam }
                    | _ => { f with sketch := put f.sketch } }

/-- A spectrum of index `m` has been produced, and one whose window begins at index `i`. -/
def State.produced (s : State) (port n m : Nat) : Bool := (s.specs port n).any (fun p => p.idx == m)
def State.producedAt (s : State) (port n i : Nat) : Bool := (s.specs port n).any (fun p => p.first == i)

/-- The newest index released on the main path. -/
def mainNewest (x : Input) : Option Nat := x.main.head?.map (·.idx)

/-- Corrections that saturate, each component its own (R154). -/
def clips (c16 : Bool) (v : Int × Int) : Nat := b2n (clipsS 16 v.1) + b2n (c16 && clipsS 16 v.2)

/-- The spectrum of window `m`, beginning at index `i` of grid `g`, of the main output or the seam port (R161 to R167), none while its
last sample has not been released, where the output is off, or where it is void (R170, R171); with its saturated components and its
saturated corrections in the first hop (R154). A sample of another format than the grid's counts as missing (R175). -/
def State.coarseAt (s : State) (n port m : Nat) (g : Grid) (i : Nat) : Option (Spectrum × Nat × Nat) :=
  let x := s.inp n
  let b := g.bank
  let k := gridLog b n port g.c16
  let l := g.len n port
  let last := idxAdd i (l - 1)
  let here := match mainNewest x with
    | some j => !idxBefore j last
    | none => false
  let en := b.on ((if port = 0 then Reg.CCH_ICFG_MAINEN else Reg.CCH_ICFG_SEAMEN).e n)
  let early := bif le 2 x.resume then idxBefore i (x.resume - 2) else false
  bif !here || !en || early || s.get Reg.PWR_STAT_MODE.z != 4 || !s.on (Reg.ING_LMAP_EN.e n) then none
  else
    let w := windowOf b (b.get (Reg.CCH_WIN_WIN.e n)) (2 ^ k) l false
    let e := s.dcFor b n i
    let raw (j : Nat) : Option (Int × Int) := (x.main.find? (fun p => p.idx == j)).bind (fun p =>
      if p.valid && p.c16 == g.c16 then some (corrected b n g.c16 e (p.i, p.q)) else none)
    let a := gather (fun j => (raw j).map (fun v => (satS 16 v.1, satS 16 v.2))) i w
    bif !a.seen then none
    else
      let bitsOut := if port = 0 then fmtBits (b.get (Reg.CCH_ICFG_OFMT.e n))
        else if b.on (Reg.CCH_ICFG_SFMT.e n) then 8 else 16
      let sh := b.get ((if port = 0 then Reg.CCH_ICFG_SHIFT else Reg.CCH_ICFG_SSHIFT).e n)
      let gain (k : Nat) : Nat := b.get ((if k % 2 = 0 then Reg.CCH_GAIN_G_EVEN else Reg.CCH_GAIN_G_ODD).e2 n (k / 2))
      let z := filterBank k g.c16 i w a.vals
      let o := (z.zip (upto z.length)).map (fun c =>
        (requant c.1.1 (gain c.2) bitsOut sh, requant c.1.2 (gain c.2) bitsOut sh))
      let sat := (o.filter (fun c => c.1.2)).length + (o.filter (fun c => c.2.2)).length
      let csat := sumOf ((upto (g.hop n port)).map (fun (d : Nat) => ((raw (idxAdd i (d : Nat))).map (clips g.c16)).getD 0))
      let tag := s.productTag n i (l - 1)
      some (⟨m, i, l, tag, s.spanTq n i last tag, b.gen, a.gaps, o.map (fun c => (c.1.1, c.2.1)), 0,
             bitsOut, b.gen, 0, 0, 0, m, g.hop n port, g.turn n port⟩, sat, if port = 0 then csat else 0)

/-- A window that begins at index `i` lies after every one delivered (R164). -/
def State.afterAll (s : State) (port n i : Nat) : Bool :=
  match (s.specs port n).head? with
  | some q => idxBefore q.first i
  | none => true

/-- The last window of a grid that begins before index `i`: its number and its first index (R155). -/
def Grid.before (g : Grid) (n port i : Nat) : Nat × Nat :=
  let h := g.hop n port
  let m := (bif i == 0 then idxMod - 1 else i - 1) / h
  (m, m * h)

/-- The spectrum of number `m` that an output delivers next (R164, R175): of the older grid where both have one, after every one
delivered, and only once the window before it has been delivered or is void. -/
def State.coarseSpec (s : State) (n port m : Nat) : Option (Spectrum × Nat × Nat) :=
  (s.windowsOf n port m).findSome? (fun w =>
    let q := w.1.before n port w.2
    let g := s.gridAt n port q.2
    let p := g.before n port w.2
    bif s.afterAll port n w.2 && (s.producedAt port n p.2 || (s.coarseAt n port p.1 g p.2).isNone) then
      s.coarseAt n port m w.1 w.2
    else none)

/-- Fast-path sample at index `j`. -/
def fastAt (x : Input) (j : Nat) : Option (Int × Int) := (x.fast.find? (fun p => p.1 == j)).map (·.2)

/-- The spectrum of the sketch window that begins at index `i` of grid `g` (R165, R172). With `force`, or once a later fast-path sample
has come, missing indices are 0; none while it is incomplete, where the sketch is off, or where it is void. -/
def State.sketchAt (s : State) (n m : Nat) (force : Bool) (g : Grid) (i : Nat) : Option Spectrum :=
  let x := s.inp n
  let b := g.bank
  let l := g.len n 2
  let k := gridLog b n 2 g.c16
  let last := idxAdd i (l - 1)
  let later := x.fast.any (fun p => idxBefore last p.1)
  let w := windowOf b (b.get (Reg.CCH_WIN_SKWIN.e n)) (2 ^ k) l true
  let e := if b.on (Reg.CCH_DC_TRK.e n) then dcAt x (idxAdd i (-4096)) else (0, 0)
  let raw (j : Nat) := (fastAt x j).map (fun v => let c := corrected b n g.c16 e v; (satS 16 c.1, satS 16 c.2))
  let a := gather raw i w
  bif !b.on (Reg.CCH_ICFG_SKEN.e n) || !s.on (Reg.ING_LMAP_EN.e n) || !s.awake then none
  else bif !a.seen || (a.gaps != 0 && !force && !later) then none
  else
    let z := (filterBank k g.c16 i w a.vals).map (fun v =>
      let sh := 5 + b.get (Reg.CCH_ICFG_SKSHIFT.e n)
      (satS 16 (rnd v.1 sh), satS 16 (rnd v.2 sh)))
    let tag := s.productTag n i (l - 1)
    some ⟨m, i, l, tag, s.spanTq n i last tag, b.gen, a.gaps, z, 0, 16, b.gen, 0, 0, 0, m, g.hop n 2, g.turn n 2⟩

/-- The sketch spectrum of number `m` that is delivered next (R164): after every one delivered, and once the window before it has been
formed or is void. -/
def State.sketchSpec (s : State) (n m : Nat) (force : Bool) : Option Spectrum :=
  (s.windowsOf n 2 m).findSome? (fun w =>
    let q := w.1.before n 2 w.2
    let g := s.gridAt n 2 q.2
    let p := g.before n 2 w.2
    bif s.afterAll 2 n w.2 && (s.producedAt 2 n p.2 || (s.sketchAt n p.1 false g p.2).isNone) then s.sketchAt n m force w.1 w.2
    else none)

/-- LP16 of a sketch value (R165). -/
def sketchLp (z : Int × Int) : Int := logPower (z.1 * z.1 + z.2 * z.2).toNat (2 ^ 30)

/-- The saturation counters of a coarse spectrum and their events (R154, R167). -/
def State.coarseCount (s : State) (n sat csat : Nat) : State :=
  let s := bif lt 0 (sat + csat) then s.calSat n else s
  let s := bif lt 0 csat then (s.count (Reg.CCH_CSAT_COUNT.e n) csat).ev 241 else s
  bif lt 0 sat then ((s.count (Reg.CCH_SAT_COUNT.e n) sat).put Reg.CCH_STAT_LASTSAT.z n).ev 240 else s

/-- Once a grid delivers a window far past its swap index, no window before that index is left. -/
def State.swapPast (s : State) (port n i : Nat) : State :=
  match s.swapIndex n port with
  | some j =>
    bif !s.maySwap .coarse && leI (2 ^ 17) (idxSub i j) then
      { s with front := { s.front with swapIdx := terase s.front.swapIdx (3 * n + port) } }
    else s
  | none => s

/-- A spectrum takes its place in its plane. -/
def State.deliverSpec (s : State) (port n : Nat) (p : Spectrum) : State := (s.pushSpec port n p).swapPast port n p.first

/-- The side effects of a coarse spectrum that is delivered. -/
def State.coarseDone (s : State) (n port : Nat) (p : Spectrum) (sat csat : Nat) : State :=
  (s.coarseCount n sat csat).deliverSpec port n p

/-! ### The swap (R174 to R176) -/

/-- E of input `n` is 0 from now on (R152). -/
def State.dcZero (s : State) (n : Nat) : State :=
  (s.setInp n { s.inp n with eI := 0, eQ := 0, main := [], dcBase := (0, 0), dcLog := [] }).dcSync n

/-- A commit's instant arrives: the grids of every enabled input are to swap, those of a disabled one have swapped (R174). -/
def State.frontCommit (s : State) : State :=
  bif s.maySwap .coarse then
    let en (n : Nat) : Bool := s.on (Reg.ING_LMAP_EN.e n)
    let grids (l : List Nat) : List Nat := l.flatMap (fun n => [3 * n, 3 * n + 1, 3 * n + 2])
    let staged (n : Nat) : Bool := s.get ((Reg.ING_ICFG_FMT.e n).staged .ingress) == 1
    let off := (upto 128).filter (fun n => !en n)
    let s := { s with front := { s.front with
      swapIdx := [], gridsLeft := grids ((upto 128).filter en), swapped := grids off,
      oldC16 := (upto 128).filter s.isC16, newC16 := (upto 128).filter (fun n => bif s.maySwap .ingress then staged n else s.isC16 n) } }
    off.foldl (fun s n => bif (s.stagedView .coarse).on (Reg.CCH_DC_DCRST.e n) then s.dcZero n else s) s
  else s

/-- Every enabled input has swapped its three grids: the block takes the new bank and generation, EV243 (R176). -/
def State.frontDone (s : State) : State :=
  bif s.maySwap .coarse && s.front.gridsLeft.isEmpty then
    let s := { s with front := { s.front with oldGen := s.get Blk.coarse.gen,
                                              oldRegs := s.regs.filter (fun e => blkAt e.1 == some Blk.coarse) } }
    (((((s.swapWhere .coarse (fun _ => true)).flag Reg.CCH_STAT_SWPEND.z false).ev 243)).swapDone .coarse).ringSync
  else s

/-- Grid `g` has swapped. -/
def State.gridSwapped (s : State) (g : Nat) : State :=
  ({ s with front := { s.front with gridsLeft := s.front.gridsLeft.filter (· ≠ g) } }).frontDone

/-- Grid `port` of input `n` reaches its swap index (R174): the first window start of the new grid whose pin time is at or after the
commit instant; an input in a gap swaps at the instant, and so does one without a running index series. The main grid's swap applies
DCRST, and ends the fine grids that a change of the main output cuts short (R175, 06 R200). -/
def execCchSwap (n port : Nat) (s : State) : Res :=
  let g := 3 * n + port
  .next <| bif s.maySwap .coarse && s.front.gridsLeft.contains g then
      let new := s.gridNew n
      let old := s.gridOld n
      let rst := port == 0 && new.bank.on (Reg.CCH_DC_DCRST.e n)
      let cut := port == 0 && !(new.hop n 0 == old.hop n 0 && new.len n 0 == old.len n 0 && new.main n)
      let s := bif port == 0 then s.calSwap 3 n else s
      let x := s.inp n
      bif x.models.isEmpty || !s.on (Reg.ING_LMAP_EN.e n) then
        let s := bif rst then s.dcZero n else s
        let s := bif cut then s.fineEnd n else s
        { s with front := { s.front with swapped := g :: s.front.swapped } }.gridSwapped g
      else
        let h := new.hop n port
        let i := s.indexAt n s.commitAt
        let up := ceilDiv i h * h
        let idx := bif x.gap.isSome then i else bif lt up idxMod then up else 0
        let s := bif rst then s.setInp n { x with dcLog := idx :: x.dcLog.take 1 } else s
        let s := bif cut then s.fineCut n (old.hop n 0) (old.len n 0) idx else s
        { s with front := { s.front with swapIdx := tinsert s.front.swapIdx g (some idx) } }.gridSwapped g
    else s

/-! ### Release on the main path (R137, R152) -/

/-- One index released: its sample, with the estimator's step for a valid one; in Watch E holds (R152). -/
def State.releaseOne (s : State) (n idx : Nat) (v : Option (Int × Int)) (c16 : Bool) : State :=
  let x := s.inp n
  let e0 := eAt x (idxAdd idx (-1)) idx
  let e := match v with
    | some v => bif s.get Reg.PWR_STAT_MODE.z == 4 then dcStep (s.frontBank n 0 idx) n c16 e0 v else e0
    | none => e0
  let w := v.getD (0, 0)
  let p : Sample := ⟨idx, w.1, w.2, v.isSome, c16, e.1, e.2, s.get Blk.ingress.gen⟩
  let near := x.fmtAt.filter (idxNear idx)
  let fmt := match x.main.head? with
    | some q => if q.c16 = c16 then near else idx :: near
    | none => near
  let far (i : Nat) : Bool := leI (2 ^ 40) (idxSub idx i)
  s.setInp n { x with main := p :: x.main, fmtAt := fmt, eI := e.1, eQ := e.2, long := x.long || far x.start,
                      resume := if x.resume = 1 then idx + 2 else if 2 ≤ x.resume ∧ far (x.resume - 2) then 0 else x.resume }

/-- The next released index from the elastic buffer, or a generated sample (R137, R145). -/
def State.releaseNext (s : State) (n : Nat) : State × Option (Nat × Option (Int × Int) × Bool) :=
  let x := s.inp n
  match x.elastic with
  | c :: rest =>
    match c.data with
    | v :: more =>
      let c2 : Chunk := { c with first := idxAdd c.first 1, data := more, bytes := if more = [] then 0 else c.bytes }
      (s.setInp n { x with elastic := if more = [] then rest else c2 :: rest }, some (c.first, some v, c.c16))
    | [] =>
      let c2 : Chunk := { c with first := idxAdd c.first 1, gapLen := c.gapLen - 1 }
      (s.setInp n { x with elastic := if c.gapLen ≤ 1 then rest else c2 :: rest },
       if c.gapLen = 0 then none else some (c.first, none, c.c16))
  | [] =>
    let gen := s.get (Reg.ING_ICFG_GEN.e n)
    bif gen != 0 && x.locked then
      (s.setInp n { x with iExp := idxAdd x.iExp 1, iDel := idxAdd x.iExp 1 }, some (x.iExp, some (genSample gen x.iExp (s.isC16 n)), s.isC16 n))
    else (s, none)

end Sys2Proof.Machine
end

