-- ==== Sys2Proof/Machine/Fine.lean ====
section
/-!
DEFINITION. The fine channeliser (06_fine_channeliser.md): its windows and transform, the coarse spectra it takes, split products,
and the swap. Its grids and corner-turn rings stand in CornerTurn.lean.
-/
namespace Sys2Proof.Machine

/-! ### Windows and gains (R183) -/

/-- The fine window of length `p`. -/
def fineWindow (b : BankView) (n p : Nat) : List Int :=
  let sel := b.get (Reg.FCH_WIN_WIN.e n)
  let half : List Int := if sel < 0x10 then romSketch sel p
    else (upto (p / 2)).map (fun j => sext 18 (b.get (Reg.FCH_PAL_WORD.e2 (sel - 0x10) j)))
  half ++ half.reverse

/-- The flattening gain of fine bin `j`. -/
def fineGain (b : BankView) (n j : Nat) : Nat :=
  let sel := b.get (Reg.FCH_WIN_FLAT.e n)
  if sel = 0 then 0x4000 else bits (b.get (Reg.FCH_PAL_WORD.e2 (sel - 0x10) (j / 2))) (16 * (j % 2)) 16

/-! ### The coarse spectra of an input (R179, R191, R196, R199, R201) -/

/-- The fine bank that a grid begun now uses, and whether it is the new one of the commit under way (R202). -/
def State.fineSide (s : State) (n : Nat) : Bool := s.maySwap .fine && !s.fine.left.contains n
def State.fineView (s : State) (n : Nat) : BankView := bif s.fineSide n then s.stagedView .fine else s.liveView .fine

/-- A grid of input `n` on bank `b` whose first span begins at or after position `i`. -/
def fineGrid (b : BankView) (n chop clen i : Nat) (side : Bool) : FineChain :=
  let c : FineChain := { nb := fineNB b n, hop := fineHop b n, sigma := fineSigma b n, chop := chop, clen := clen, side := side,
                         old := false, start := i, limit := none, cend := none, last := none, voids := [], lost := [],
                         next := 0, due := [], done := [], rings := [] }
  { c with next := c.spanFrom i }

/-- The input's grids, with one begun where spectrum `p` is the first it is to transform (R179, R201). -/
def State.chainsFor (s : State) (n : Nat) (p : Spectrum) : List FineChain :=
  let cs := (s.fin n).chains
  let b := s.fineView n
  let g := s.gridAt n 0 p.first
  let h := g.hop n 0
  bif b.on (Reg.FCH_ICFG_EN.e n) && g.main n && s.get Reg.PWR_STAT_MODE.z == 4 && cs.all (fun c => c.old || c.limit.isSome)
  then cs ++ [fineGrid b n h p.len (idxMod / h + p.idx) (s.fineSide n)]
  else cs

/-- Grid `c` takes spectrum `p` (R191): a spectrum at a position it has taken as void is left. -/
def State.chainTake (s : State) (n : Nat) (c : FineChain) (p : Spectrum) : State × FineChain × List Nat :=
  let i := c.posOf p.idx
  bif !c.feeds p || lt i c.start || (match c.last with
      | some l => le i l
      | none => false) || (match c.cend with
      | some e => le e i
      | none => false) then (s, c, [])
  else
    let c := bif c.rings.any (fun r => r.bits == p.bits) then c else { c with rings := s.ringSet n c p.bits :: c.rings }
    s.settle n c i (some p)

/-- The grid took the spectrum's position as void (R196). -/
def FineChain.missed (c : FineChain) (p : Spectrum) : Bool := c.feeds p && c.voids.contains (c.posOf p.idx)

/-- The fine channeliser takes coarse spectrum `p` (R191); one that every grid took as void before is discarded and counted (R196).
Answers the spans found late (R199), each as its grid and its position. -/
def State.fineTake (s : State) (n : Nat) (p : Spectrum) : State × List (FineChain × Nat) :=
  let cs := s.chainsFor n p
  bif cs.isEmpty then (s, [])
  else
    let s := bif cs.any (FineChain.missed · p) then (s.count (Reg.FCH_LOST_COUNT.e n) 1).ev 249 else s
    let y := cs.foldl (fun (y : State × List FineChain × List (FineChain × Nat)) c =>
      let z := State.chainTake y.1 n c p
      (z.1, y.2.1 ++ [z.2.1], y.2.2 ++ z.2.2.map (fun g => (c, g)))) (s, [], [])
    ((y.1.setChains n y.2.1).finePrune n, y.2.2)

/-- Coarse index `m` of grid `c` is taken as void at its deadline (R196). -/
def State.chainVoid (s : State) (n : Nat) (c : FineChain) (m : Nat) : State × FineChain × List Nat :=
  let i := c.posOf m
  match c.last with
  | some l => bif le i l || (match c.cend with
      | some e => le e i
      | none => false) then (s, c, []) else s.settle n c i none
  | none => (s, c, [])

/-- A coarse spectrum of index `m` not present by its deadline is taken as void. Answers the spans found late. -/
def State.fineVoid (s : State) (n m : Nat) : State × List (FineChain × Nat) :=
  let y := (s.fin n).chains.foldl (fun (y : State × List FineChain × List (FineChain × Nat)) c =>
    let z := State.chainVoid y.1 n c m
    (z.1, y.2.1 ++ [z.2.1], y.2.2 ++ z.2.2.map (fun g => (c, g)))) (s, [], [])
  bif y.2.1.isEmpty then (s, []) else ((y.1.setChains n y.2.1).finePrune n, y.2.2)

/-! ### One fine spectrum (R184 to R188, R197, R198, R200) -/

/-- The value of bin `k` at position `i` that coarse generation `cg` gives the transform: the ring's entry while the ring holds it; none
where the spectrum is absent, void or lost. -/
def State.cornerValue (s : State) (n : Nat) (c : FineChain) (k i cg : Nat) : Option (Int × Int) :=
  match s.coarseOf n c i with
  | some q =>
    bif q.gen != cg || c.lost.contains (i, k) then none
    else match (c.rings.find? (fun r => r.bits == q.bits)).bind (fun r =>
          (r.rings.find? (fun a => a.1 == k)).map (fun a => (r, c.entryAddr r a.2 i))) with
      | some (r, a) =>
        bif le (i + c.depth) (c.last.getD 0) then q.bins[k]?
        else
          let l := s.peekAll a (entryBytes r.bits)
          bif bit (leNat (l.drop (r.bits / 4))) 0 then some (complexOf r.bits (l.take (r.bits / 4))) else none
      | none => none
  | none => none

/-- The generations of the coarse spectra in span `g`, the earliest first. -/
def State.spanGens (s : State) (n : Nat) (c : FineChain) (g : Nat) : List Nat :=
  ((upto c.nb).filterMap (fun d => (s.coarseOf n c (g + d)).map (·.gen))).eraseDups

/-- Span `g` reaches beyond its coarse grid's end, or holds two generations: its products are split ones (R200). -/
def State.spanSplit (s : State) (n : Nat) (c : FineChain) (g : Nat) : Bool :=
  lt (c.lastOf g + 1) (g + c.nb) || lt 1 (s.spanGens n c g).length

/-- The spans of a grid in one turn of `m` coarse indices (R182). -/
def fineTurn (m sigma hop : Nat) : Nat := (m - 1 - sigma) / hop + 1

/-- The product of coarse generation `cg` for bin `k` of span `g`, with its saturated components; none if void. -/
def State.fineSpec (s : State) (n : Nat) (c : FineChain) (g k cg : Nat) : Option (Spectrum × Nat) :=
  let b := s.chainBank c
  let p := c.nb
  let mf := g % c.turn
  let w := fineWindow b n p
  let vals := (upto p).map (fun d => s.cornerValue n c k (g + d) cg)
  let seen := (w.zip vals).any (fun c => c.1 != 0 && c.2.isSome)
  bif !seen then none
  else
    let bc := (((upto p).findSome? (fun d => (s.coarseOf n c (g + d)).filter (fun q => q.gen == cg))).map (·.bits)).getD 16
    let y := (w.zip vals).map (fun c => let v := c.2.getD (0, 0)
                                        (rnd (c.1 * v.1 * 2 ^ (16 - bc)) 12, rnd (c.1 * v.2 * 2 ^ (16 - bc)) 12))
    let t := transform (4 + b.get (Reg.FCH_ICFG_NBLOG.e n)) y
    let r := mf % p
    let t := (t.zip (upto p)).map (fun c => cmulTw c.1 (twiddle (c.2 * r % p) p))
    let ordered := (upto p).map (fun j => t.getD ((j + p / 2) % p) (0, 0))
    let bo := fmtBits (b.get (Reg.FCH_ICFG_FFMT.e n))
    let sh := b.get (Reg.FCH_ICFG_FSHIFT.e n)
    let o := (ordered.zip (upto p)).map (fun c =>
      (requant c.1.1 (fineGain b n c.2) bo sh, requant c.1.2 (fineGain b n c.2) bo sh))
    let sat := (o.filter (fun c => c.1.2)).length + (o.filter (fun c => c.2.2)).length
    let first := c.firstOf g
    let len := (p - 1) * c.chop + c.clen
    let lostWin := ((upto p).filter (fun d => c.voids.contains (g + d) || c.lost.contains (g + d, k))).map (fun d =>
      (c.firstOf (g + d), c.clen))
    let gaps := min (2 ^ 32 - 1) (unionCount first len (s.gapIvs n first ++ lostWin))
    let absent := ((upto p).filter (fun d => le (c.lastOf g + 1) (g + d) || (match s.coarseOf n c (g + d) with
      | some q => q.gen != cg
      | none => false))).length
    let tag := s.productTag n first (len - 1)
    some (⟨mf, first, len, tag, s.spanTq n first (idxAdd first (len - 1)) tag, b.gen, gaps, o.map (fun c => (c.1.1, c.2.1)), k, bo,
           cg, absent, p, b.get (Reg.FCH_ICFG_OVL.e n), (mf - c.sigma) / c.hop, c.hop * c.chop,
           fineTurn c.turn c.sigma c.hop⟩, sat)

/-- A fine spectrum is the newest of its input, with the saturation it held (R187). -/
def State.pushFine (s : State) (n : Nat) (p : Spectrum) (sat : Nat) : State :=
  let x := s.fin n
  let s := s.setFin n { x with specs := p :: x.specs.filter (fun q => idxNear p.first q.first) }
  bif lt 0 sat then ((s.count (Reg.FCH_SAT_COUNT.e n) sat).put Reg.FCH_STAT_LASTSAT.z n).ev 248 else s

/-! ### Due (R195) -/

/-- The selected bins of a grid. -/
def FineChain.bins (c : FineChain) : List Nat := (c.rings.headD ⟨0, []⟩).rings.map (·.1)

/-- The span that grid `c` is to take next, of index `mf`, has its last coarse spectrum present or void (R195). -/
def FineChain.isDue (c : FineChain) (mf : Nat) : Bool :=
  c.next % c.turn == mf && c.takes c.next && (match c.last with
  | some l => le (c.lastOf c.next) l
  | none => false)

/-- The span at `next` is due and its transform starts. -/
def FineChain.taken (c : FineChain) : FineChain :=
  { c with due := if c.bins = [] then c.due else c.due ++ [c.next], next := c.spanFrom (c.next + 1) }

/-- The list with `f` of its first element that `q` holds of. -/
def mapFirst {α : Type} (q : α → Bool) (f : α → α) : List α → List α
  | [] => []
  | a :: l => bif q a then f a :: l else a :: mapFirst q f l

/-- A fine spectrum becomes due and its transform starts (R195). -/
def execFineSpectrumDue (n mf : Nat) (s : State) : Res :=
  let cs := (s.fin n).chains
  .next <| bif cs.any (FineChain.isDue · mf) then
      (s.setChains n (mapFirst (FineChain.isDue · mf) FineChain.taken cs)).finePrune n
    else s

/-! ### The swap (R202) -/

/-- A commit's instant arrives: every enabled input is to pass its swap point. -/
def State.fineCommit (s : State) : State :=
  bif s.maySwap .fine then
    { s with fine := { s.fine with left := (upto 128).filter (fun n => s.on (Reg.ING_LMAP_EN.e n)) } }
  else s

/-- The grid of the new bank begun at position `i`, with the coarse spectra that the input already has from there on (R202). -/
def State.chainBegin (s : State) (n : Nat) (c : FineChain) (i : Nat) : State :=
  let c := { c with last := some (i - 1) }
  let c := { c with rings := [s.ringSet n c (fmtBits ((s.nextView .coarse).get (Reg.CCH_ICFG_OFMT.e n)))] }
  let have_ := ((s.specs 0 n).filter (fun p => c.feeds p && le i (c.posOf p.idx))).reverse
  let y := have_.foldl (fun (y : State × FineChain) p => let z := State.chainTake y.1 n y.2 p
                                                         (z.1, z.2.1)) (s, c)
  y.1.setChains n ((s.fin n).chains ++ [y.2])

/-- The grids of input `n` end at sample index `i`: they take the spans that begin before it (R202). -/
def State.chainsLimit (s : State) (n i : Nat) : State :=
  s.setChains n ((s.fin n).chains.map (fun c =>
    bif c.side || c.limit.isSome then c else { c with limit := some (c.posAt i) }))

/-- Input `n` passes its swap point: the first m_f of the new grid whose first index has its pin time at or after the commit
instant (R202). An input that has no coarse spectrum yet begins its new grid with the first one. -/
def execFchSwap (n : Nat) (s : State) : Res :=
  .next <| bif s.maySwap .fine && s.fine.left.contains n then
      let b := s.stagedView .fine
      let g := s.gridNew n
      let s := { s with fine := { s.fine with left := s.fine.left.filter (· ≠ n) } }.calSwap 4 n
      let i := s.indexAt n s.commitAt
      let h := g.hop n 0
      let c := fineGrid b n h (g.len n 0) (idxMod / h + ceilDiv i h) true
      let s := s.chainsLimit n (c.firstOf c.next)
      bif b.on (Reg.FCH_ICFG_EN.e n) && g.main n && (s.fin n).chains.any (fun c => c.last.isSome) && s.get Reg.PWR_STAT_MODE.z == 4
      then (s.chainBegin n c c.next).finePrune n
      else s.finePrune n
    else s

end Sys2Proof.Machine
end

