-- ==== Sys2Proof/Machine/Tuner.lean ====
section
/-!
DEFINITION. The tuners (08_tuners.md): NCO and mixer, half-band cascade, FIR, resampler, output, positions and spans,
series, glazes and the swap.
-/
namespace Sys2Proof.Machine

def State.tuner (s : State) (t : Nat) : Tuner := tget (fun _ => Tuner.reset) s.tun.tuners t
def State.setTuner (s : State) (t : Nat) (x : Tuner) : State :=
  { s with tun := { s.tun with tuners := tset (fun _ => Tuner.reset) s.tun.tuners t x } }

def tunState (t : Nat) : Loc := Reg.TUN_TSTAT_STATE.e t
/-- The group's event (R265). -/
def State.tunEv (s : State) (t : Nat) : State := s.ev (256 + t / 16)
/-- A flag of TUN_TSTAT is set, with the group's event. -/
def State.tunFlag (s : State) (t : Nat) (f : Fld) : State := (s.flag (f.e t) true).tunEv t

/-! ### Settings (R245, R246, R249) -/

/-- T of the FIR ROM's entries. -/
def firRomT (e : Nat) : Nat :=
  if e = 0 then 191 else if e = 1 then 383 else if e = 2 then 383 else if e = 3 then 97 else if e = 4 then 65 else 49

/-- Word `j` of entry `e` of the FIR ROM: every response is symmetric, and words from T on hold no coefficient (R246). -/
def firRomWord (e j : Nat) : BitVec 18 := if j < firRomT e then Config.firRom e (min j (firRomT e - 1 - j)) else 0
def firRomCoef (e j : Nat) : Int := (firRomWord e j).toInt

/-- Taps and declared delay of the FIR a bank selects for tuner `t`. -/
def firOf (b : BankView) (t : Nat) : List Int × Nat :=
  let sel := b.get (Reg.TUN_FIR_FSEL.e t)
  if sel < 0x10 then ((upto (firRomT sel)).map (firRomCoef sel), 8 * (firRomT sel - 1))
  else
    let k := sel - 0x10
    ((upto (b.get (Reg.TUN_FIRHDR_T.e k))).map (fun j => sext 18 (b.get (Reg.TUN_FIRW_COEF.e2 k j))),
     b.get (Reg.TUN_FIRHDR_DLY.e k))

/-- The prototype a bank selects for tuner `t`. -/
def rsOf (b : BankView) (t : Nat) : List Int :=
  let sel := b.get (Reg.TUN_FIR_RSEL.e t)
  (upto 1024).map (fun j => if sel < 0x10 then (Config.rsRom sel j).toInt
                            else sext 18 (b.get (Reg.TUN_RSW_COEF.e2 (sel - 0x10) j)))

/-- The settings of tuner `t` in a bank; `ing` is the ingress bank its input will run. -/
def tunSet (b ing : BankView) (t : Nat) : TunSet :=
  let inp := b.get (Reg.TUN_CTRL_INPUT.e t)
  let f := firOf b t
  { input := inp, rate := ing.get (Reg.ING_RATE_RATE.e inp), c16 := ing.get (Reg.ING_ICFG_FMT.e inp) == 1,
    k := b.get (Reg.TUN_CTRL_K.e t), fdec := b.get (Reg.TUN_CTRL_FDEC.e t), firen := b.on (Reg.TUN_CTRL_FIREN.e t),
    rsen := b.on (Reg.TUN_CTRL_RSEN.e t), step := b.get (Reg.TUN_STEP_STEP.e t), ofmt := b.get (Reg.TUN_CTRL_OFMT.e t),
    gsh := b.get (Reg.TUN_FIR_GSH.e t), fir := f.1, dly := f.2, rs := rsOf b t, gen := b.gen }

/-- FTW as a signed number. -/
def ftwOf (b : BankView) (t : Nat) : Int :=
  sext 48 (b.get (Reg.TUN_FTW_L_FTW.e t) + b.get (Reg.TUN_FTW_H_FTW.e t) * 2 ^ 32)

/-! ### Arithmetic (R239 to R251) -/

/-- φ(i) (R239). -/
def ncoPhase (c : Nco) (i : Int) : Nat := toU 48 (c.ftw * i + c.phi)

/-- The NCO settings in force at index `i`. -/
def ncoAt (l : List Nco) (i : Nat) : Option Nco :=
  match l.find? (fun c => !idxBefore i c.at_) with
  | some c => some c
  | none => l.getLast?

/-- round(131071 × cos or sin of a 20-bit phase) (R241). -/
def mixCoef (x : Int) : Int := let y := f64Fix x
                               rndDiv (131071 * y.num) y.den

/-- The mixer (R241). -/
def mix (c16 : Bool) (phase : Nat) (x : Int × Int) : Int × Int :=
  let th : Nat := phase / 2 ^ 28
  let c := mixCoef (cosTurn (th : Nat) (2 ^ 20))
  let d := mixCoef (sinTurn (th : Nat) (2 ^ 20))
  if c16 then (rnd (x.1 * c + x.2 * d) 10, rnd (x.2 * c - x.1 * d) 10) else (rnd (x.1 * c) 10, rnd (-x.1 * d) 10)

/-- The odd taps of one side of a half-band (R244), by its length. -/
def halfBand (l : Nat) : List Int :=
  if l = 11 then [76800, -12800, 1536]
  else if l = 19 then [79380, -17640, 4536, -810, 70]
  else [82856, -26103, 13974, -8388, 5143, -3095, 1781, -957, 466, -193, 58, -6]

/-- The full response of a half-band, n = −r to r. -/
def halfBandTaps (l : Nat) : List Int :=
  let odd := halfBand l
  let r := (l - 1) / 2
  (upto l).map (fun (p : Nat) =>
    let n := ((p : Int) - (r : Nat)).natAbs
    if n = 0 then 131072 else if n % 2 = 0 then 0 else odd.getD (n / 2) 0)

/-- The filter of stage `j` of a cascade of `k` (R243). -/
def stageLen (k j : Nat) : Nat := if j = k then 47 else if j + 1 = k then 19 else 11

/-- Σ of taps times values from position `p` on. -/
def dot (taps : List Int) (xs : List (Int × Int)) : Int × Int :=
  (taps.zip xs).foldl (fun a c => (a.1 + c.1 * c.2.1, a.2 + c.1 * c.2.2)) ((0, 0) : Int × Int)

/-- Each component rounded and saturated to 24 bits, with the number of components saturated. -/
def sat24 (v : Int × Int) (n : Nat) : (Int × Int) × Nat :=
  let a := rnd v.1 n
  let b := rnd v.2 n
  ((satS 24 a, satS 24 b), b2n (clipsS 24 a) + b2n (clipsS 24 b))

/-- Saturated components among the last `k` of a list. -/
def satLast (k : Nat) (l : List ((Int × Int) × Nat)) : Nat := sumOf ((l.drop (l.length - k)).map (·.2))

/-- Outputs `a` to `a` + `cnt` − 1 of stage `j` (R242), from the values `get` of stage 0, with the components saturated in
the last `adv` outputs of this stage and in what they add below. -/
def cascade (len : Nat → Nat) (get : Int → Int × Int) : Nat → Int → Nat → Nat → List (Int × Int) × Nat
  | 0, a, cnt, _ => ((upto cnt).map (fun d => get (a + (d : Nat))), 0)
  | j + 1, a, cnt, adv =>
    let l := len (j + 1)
    let r := (l - 1) / 2
    let below := cascade len get j (2 * a - r) (2 * (cnt - 1) + 1 + 2 * r) (2 * adv)
    let ys := (upto cnt).map (fun d => sat24 (dot (halfBandTaps l) (below.1.drop (2 * d))) 18)
    (ys.map (·.1), below.2 + satLast adv ys)

/-- Outputs `o` to `o` + `cnt` − 1 of the FIR, or of the cascade without one (R245), with the components saturated in the cascade and in
the FIR. -/
def firStage (c : TunSet) (get : Int → Int × Int) (o : Int) (cnt adv : Nat) : List (Int × Int) × Nat × Nat :=
  if c.firen then
    let d : Nat := 2 ^ c.fdec
    let t := c.fir.length
    let h := t / 2
    let lo := o * d + h - (t - 1 : Nat)
    let below := cascade (stageLen c.k) get c.k lo ((cnt - 1) * d + t) (adv * d)
    let ys := (upto cnt).map (fun m => sat24 (dot c.fir.reverse (below.1.drop (m * d))) 17)
    (ys.map (·.1), below.2, satLast adv ys)
  else
    let y := cascade (stageLen c.k) get c.k o cnt adv
    (y.1, y.2, 0)

/-- p_n in units of 2⁻³¹ (R248). -/
def rsPos (c : TunSet) (j0 n : Nat) : Int := (j0 : Int) * 2 ^ 31 + n * c.step

/-- Output number `n` of the chain before requantisation, with the components saturated in the cascade and after it (R242 to R249). -/
def chainOut (c : TunSet) (get : Int → Int × Int) (j0 n : Nat) : (Int × Int) × Nat × Nat :=
  if c.rsen then
    let p := rsPos c j0 n
    let j := p / 2 ^ 31
    let mu := p % 2 ^ 31
    let ph := (64 * mu / 2 ^ 31).toNat
    let nu := (64 * mu % 2 ^ 31) / 2 ^ 15
    let adv := if n = 0 then 17 else (j - rsPos c j0 (n - 1) / 2 ^ 31).toNat
    let below := firStage c get (j - 7) 17 adv
    let yf (q off : Nat) : Int × Int :=
      dot ((upto 16).map (fun t => c.rs.getD (16 * q + 15 - t) 0)) (below.1.drop off)
    let y0 := yf ph 0
    let y1 := if ph < 63 then yf (ph + 1) 0 else yf 0 1
    let o := sat24 (y0.1 * 2 ^ 16 + (y1.1 - y0.1) * nu, y0.2 * 2 ^ 16 + (y1.2 - y0.2) * nu) 33
    (o.1, below.2.1, below.2.2 + o.2)
  else
    let r := firStage c get n 1 1
    (r.1.headD (0, 0), r.2)

/-! ### Positions and spans (R255, R256), in units of 2⁻³⁵ samples -/

def unit35 : Int := 2 ^ 35

/-- c_F. -/
def firShift (c : TunSet) : Int :=
  if c.firen then 2 ^ c.k * ((c.fir.length / 2 : Nat) * unit35 - (c.dly : Int) * 2 ^ 31) else 0

/-- M. -/
def tunM (c : TunSet) : Nat := 2 ^ c.k * (if c.firen then 2 ^ c.fdec else 1)

/-- π of output number `n`. -/
def outPos (c : TunSet) (j0 n : Nat) : Int :=
  (if c.rsen then tunM c * rsPos c j0 n * 2 ^ 4 else (tunM c : Int) * n * unit35) + firShift c

def spanL (c : TunSet) : Int :=
  (if c.k = 0 then 0 else if c.k = 1 then 23 else 15 * 2 ^ c.k - 5) * unit35
    + (if c.firen then 2 ^ c.k * ((c.fir.length - 1 : Nat) * unit35 - (c.dly : Int) * 2 ^ 31) else 0)
    + (if c.rsen then 8 * (tunM c : Int) * unit35 else 0)
def spanR (c : TunSet) : Int :=
  (if c.k = 0 then 0 else if c.k = 1 then 23 else 15 * 2 ^ c.k - 5) * unit35
    + (if c.firen then 2 ^ c.k * ((c.dly : Int) * 2 ^ 31) else 0)
    + (if c.rsen then 9 * (tunM c : Int) * unit35 else 0)

/-- The first and the last index of an output's span. -/
def spanFirst (c : TunSet) (j0 n : Nat) : Int := -((-(outPos c j0 n - spanL c)) / unit35)
def spanLast (c : TunSet) (j0 n : Nat) : Int := (outPos c j0 n + spanR c) / unit35

/-- The composite response of the enabled stages on the input's indices, zero or not (R257): for a resampler the weights of
phases φ and φ + 1 together. The first index and the weights. -/
def spread (l : Nat) (base : Int) (w : List Int) : Int × List Int :=
  let r := (l - 1) / 2
  let taps := halfBandTaps l
  (2 * base - r, (upto (2 * (w.length - 1) + l)).map (fun p =>
    (w.zip (upto w.length)).foldl (fun a c => if 2 * c.2 ≤ p then a + c.1 * taps.getD (p - 2 * c.2) 0 else a) 0))

/-- Spread through stages `j` down to 1. -/
def spreadAll (k : Nat) : Nat → Int → List Int → Int × List Int
  | 0, base, w => (base, w)
  | j + 1, base, w => let n := spread (stageLen k (j + 1)) base w
                      spreadAll k j n.1 n.2

def response (c : TunSet) (j0 n : Nat) : Int × List Int :=
  let top : Int × List Int :=
    if c.rsen then
      let p := rsPos c j0 n
      let mu := p % 2 ^ 31
      let ph := (64 * mu / 2 ^ 31).toNat
      let nu := (64 * mu % 2 ^ 31) / 2 ^ 15
      let a (q t : Nat) : Int := c.rs.getD (16 * q + t) 0
      (p / 2 ^ 31 - 7, (upto 17).map (fun d =>
        let y0 : Int := if d ≤ 15 then a ph (15 - d) else 0
        let y1 : Int := if ph < 63 then (if d ≤ 15 then a (ph + 1) (15 - d) else 0) else if 1 ≤ d then a 0 (16 - d) else 0
        y0 * 2 ^ 16 + (y1 - y0) * nu))
    else (n, [1])
  let fir : Int × List Int :=
    if c.firen then
      let d : Nat := 2 ^ c.fdec
      let t := c.fir.length
      (top.1 * d + (t / 2 : Nat) - (t - 1 : Nat), (upto ((top.2.length - 1) * d + t)).map (fun p =>
        (top.2.zip (upto top.2.length)).foldl (fun acc w =>
          if w.2 * d ≤ p then acc + w.1 * c.fir.reverse.getD (p - w.2 * d) 0 else acc) 0))
    else top
  spreadAll c.k c.k fir.1 fir.2

/-! ### One output (R251, R252, R255, R257, R260) -/

/-- The released sample at index `i` of input `n`, valid. -/
def validAt (x : Input) (i : Int) : Option (Int × Int) :=
  (x.main.find? (fun p => p.idx == toU 48 i)).bind (fun p => if p.valid then some (p.i, p.q) else none)

/-- What the mixer gives the cascade at index `i`: 0 for a gap and before the chain's first index. -/
def mixed (x : Input) (ch : Chain) (i : Int) : Int × Int :=
  match validAt x i, ncoAt ch.nco (toU 48 i) with
  | some v, some c => mix ch.set.c16 (ncoPhase c i) v
  | _, _ => (0, 0)

/-- Requantisation to the output format (R251). -/
def tunFormat (c : TunSet) (y : Int × Int) : (Int × Int) × Nat :=
  let b := fmtBits c.ofmt
  let f (v : Int) : Int := rnd (v * 2 ^ c.gsh) (23 - b)
  ((satS b (f y.1), satS b (f y.2)), b2n (clipsS b (f y.1)) + b2n (clipsS b (f y.2)))

/-- Output number `n` of a chain before requantisation, with its saturated components, the glaze included, which shares the cascade
(R260). -/
def glazed (x : Input) (ch : Chain) (n : Nat) : (Int × Int) × Nat :=
  let get := mixed x ch
  let one (c : TunSet) : (Int × Int) × Nat :=
    let a := chainOut c get ch.j0 n
    (a.1, a.2.1 + a.2.2)
  match ch.glaze with
  | none => one ch.set
  | some g =>
    if n < g.first then one g.old
    else if n < g.first + g.g then
      let a := chainOut g.old get ch.j0 n
      let b := chainOut ch.set get ch.j0 n
      let k : Int := (n - g.first : Nat)
      let f (u v : Int) : Int := rndDiv (u * (g.g - k - 1) + v * (k + 1)) g.g
      ((f a.1.1 b.1.1, f a.1.2 b.1.2), b.2.1 + a.2.2 + b.2.2)
    else one ch.set

/-- The tag of output `n` (R255). -/
def State.tunTag (s : State) (c : TunSet) (j0 n : Nat) : Nat :=
  let f := spanFirst c j0 n
  match modelAt (s.inp c.input).models (toU 48 f) with
  | some m =>
    let base : Int := m.a + idxSub (toU 48 f) m.iA * m.p - m.indelay * 2 ^ 40
    toU 96 (rnd (base * unit35 + (outPos c j0 n - f * unit35) * m.p) 67)
  | none => 0

/-- The output index e of output `n`: of its position without a resampler, the count with one (R252). -/
def outIndex (c : TunSet) (n : Nat) : Nat := if c.rsen then n % idxMod else n % (idxMod / tunM c)

/-- Output `n` of chain `ch` is present: the last index of its span has been released (R256). -/
def State.tunReady (s : State) (ch : Chain) (n : Nat) : Bool :=
  match mainNewest (s.inp ch.set.input) with
  | some j => !idxBefore j (toU 48 (spanLast ch.set ch.j0 n))
  | none => false

/-- The generation of output `n`, and whether the glaze runs (R252, R260). -/
def Chain.genAt (ch : Chain) (n : Nat) : Nat × Bool :=
  match ch.glaze with
  | some g => if g.first ≤ n then (ch.set.gen, lt n (g.first + g.g)) else (g.old.gen, false)
  | none => (ch.set.gen, false)

/-- The word TUN_DEST in force for output `n` (R259). -/
def Chain.destAt (ch : Chain) (n : Nat) : Nat :=
  match ch.dests.find? (fun d => leI d.1 (outPos ch.set ch.j0 n)) with
  | some d => d.2
  | none => ((ch.dests.getLast?).map (·.2)).getD 0

/-- The tuned frequency at position `i` in units of 2⁻²⁰ Hz (R239, 16 R503). -/
def Chain.freqAt (ch : Chain) (i : Nat) : Int :=
  match ncoAt ch.nco i with
  | some n => rndDiv (n.ftw * (ch.set.rate * 1000 : Nat)) (2 ^ 28)
  | none => 0

/-- F_out after `stages` step stages as a fraction: numerator and denominator in Hz (R248, R253). -/
def fout (c : TunSet) (stages : Nat) : Nat × Nat :=
  let m := tunM c * 2 ^ stages
  if c.rsen then (c.rate * 1000 * 2 ^ 31, m * c.step) else (c.rate * 1000, m)

/-- An output at the position of output number `n` of a chain, after `k` step stages, with a span of `l` − `f` + 1 indices from `f` on:
value `y`, output value `v` (R252, R255). -/
def State.tunAttr (s : State) (ch : Chain) (n k : Nat) (f l : Int) (part sat : Bool) (y v : Int × Int) : TunOut :=
  let c := ch.set
  let first := toU 48 f
  let tag := s.tunTag c ch.j0 n
  let g := ch.genAt n
  { num := n, e := outIndex c n / 2 ^ k, series := ch.series, tag := tag, tq := s.spanTq c.input first (toU 48 l) tag, gen := g.1,
    glaze := g.2, part := part, sat := sat, y := y, v := v, first := first, len := (l - f + 1).toNat, ofmt := c.ofmt,
    dest := ch.destAt n, fout := fout c k, freq := ch.freqAt (toU 48 (outPos c ch.j0 n / unit35)), shaped := c.firen || c.rsen,
    path := ch.path, thin := ch.thin }

/-- Output `n`, none if it is void (R257); with its saturated components. -/
def State.tunOut (s : State) (ch : Chain) (n : Nat) : Option (TunOut × Nat) :=
  let c := ch.set
  let x := s.inp c.input
  let f := spanFirst c ch.j0 n
  let l := spanLast c ch.j0 n
  let r := response c ch.j0 n
  let seen := (r.2.zip (upto r.2.length)).any (fun w => w.1 != 0 && (validAt x (r.1 + (w.2 : Nat))).isSome)
  let part := (upto (l - f + 1).toNat).any (fun d => (validAt x (f + (d : Nat))).isNone)
  bif !seen then none
  else
    let y := glazed x ch n
    let o := tunFormat c y.1
    some (s.tunAttr ch n 0 f l part (lt 0 (y.2 + o.2)) y.1 o.1, y.2 + o.2)

/-- Saturations of tuner `t` are counted (R251). -/
def State.tunSat (s : State) (t k : Nat) : State :=
  bif k == 0 then s
  else
    let s := (s.count (Reg.TUN_SAT_COUNT.e t) k).put Reg.TUN_STAT_LASTSAT.z t
    bif s.on (Reg.TUN_TSTAT_SAT.e t) then s else s.tunFlag t Reg.TUN_TSTAT_SAT

/-! ### The stream path (R253, R254) -/

/-- Outputs on one side of the centre that `k` step stages take. -/
def stepReach (k : Nat) : Nat := 23 * (2 ^ k - 1)

/-- The number of the first step-path output whose support lies at or after output number `n`. -/
def stepFrom (k n : Nat) : Nat := ceilDiv (n + stepReach k) (2 ^ k)

/-- The composite response of `k` step stages on the outputs. -/
def stepTaps : Nat → List Int
  | 0 => [1]
  | k + 1 => (spread 47 0 (stepTaps k)).2

/-- The output of the stream path with number `m` after `k` step stages, with its saturated components; none where it is void (R253,
R257). -/
def State.stepOut (s : State) (x : Tuner) (ch : Chain) (k m : Nat) : Option (TunOut × Nat) :=
  let n := m * 2 ^ k
  let r := stepReach k
  let at_ (i : Int) : Option TunOut := x.outs.find? (fun p => p.series == ch.series && (p.num : Int) == i)
  if k = 0 then (at_ n).map (fun o => ({ o with path := ch.path, thin := ch.thin }, 0))
  else
    let ps := (upto (2 * r + 1)).map (fun d => at_ ((n : Int) - (r : Nat) + (d : Nat)))
    bif !(ps.zip (stepTaps k)).any (fun p => p.1.isSome && p.2 != 0) then none
    else
      let get (i : Int) : Int × Int := ((at_ i).map (·.y)).getD (0, 0)
      let y := cascade (fun _ => 47) get k m 1 1
      let v := tunFormat ch.set (y.1.headD (0, 0))
      let part := ps.any (fun p => match p with
        | some o => o.part
        | none => true)
      some (s.tunAttr ch n k (spanFirst ch.set ch.j0 (n - r)) (spanLast ch.set ch.j0 (n + r)) part (lt 0 (y.2 + v.2))
        (y.1.headD (0, 0)) v.1, y.2 + v.2)

/-- The stream path forms output `m` (R253); it reaches the stream that TUN_DEST names for it. -/
def State.streamForm (s : State) (t : Nat) (ch : Chain) : State :=
  match s.stepOut (s.tuner t) ch ch.stages ch.strM with
  | some (o, sat) =>
    let s := s.tunSat t sat
    bif bit o.dest 31 then s.setTuner t { s.tuner t with strOuts := (s.tuner t).strOuts ++ [o] } else s
  | none => s

/-- A chain takes its change of stages: a new series of the stream path (R253). -/
def Chain.restep (ch : Chain) (path k thin start : Nat) : Chain :=
  { ch with stages := k, thin := thin, path := path, pend := none, strM := max (start / 2 ^ k) (stepFrom k ch.first) }

/-- A tuner with its old chain, or its chain, as `ch`. -/
def Tuner.putChain (x : Tuner) (old : Bool) (ch : Chain) : Tuner := if old then { x with old := some ch } else { x with chain := some ch }

/-- The stream path runs once output number `n` of the chain has been delivered or skipped: it forms every output whose support is
complete, and changes stages before the first output at or after the change (R253). -/
def State.streamTake (t : Nat) (old : Bool) (n : Nat) : Nat → Chain → State → State
  | 0, ch, s => s.setTuner t ((s.tuner t).putChain old ch)
  | fuel + 1, ch, s =>
    let due := ch.pend.filter (fun p => decide (p.2.2 ≤ ch.strM * 2 ^ ch.stages))
    match due with
    | some p =>
      let path := (s.tuner t).paths + 1
      State.streamTake t old n fuel (ch.restep path p.1 p.2.1 p.2.2) (s.setTuner t { s.tuner t with paths := path })
    | none =>
      if ch.strM * 2 ^ ch.stages + stepReach ch.stages ≤ n then
        State.streamTake t old n fuel { ch with strM := ch.strM + 1 } (s.streamForm t ch)
      else (s.setTuner t ((s.tuner t).putChain old ch)).put (Reg.TUN_TSTAT_RSTEP.e t) ch.stages

/-! ### Series (R261, R262) -/

/-- The number of the first output of a chain whose span begins at or after index `i`, found upward from `n`. -/
def firstFrom (c : TunSet) (j0 : Nat) (i : Int) : Nat → Nat → Nat
  | 0, n => n
  | fuel + 1, n => if i ≤ spanFirst c j0 n then n else firstFrom c j0 i fuel (n + 1)

/-- A new chain from index `i` on, with the word TUN_DEST `dest`, the ladder's step and the number of its series on the stream path
(R261). -/
def newChain (c : TunSet) (nco : Nco) (i series dest step path : Nat) : Chain :=
  let m := (tunM c : Int)
  let up (x d : Int) : Nat := (-((-x) / d)).toNat
  let j0 := up ((i : Int) * unit35 - firShift c) (m * unit35)
  let need := (i : Int) * unit35 + spanL c - firShift c
  let guess : Nat := if c.rsen then up (need - m * (j0 : Nat) * unit35) (m * c.step * 2 ^ 4) else up need (m * unit35)
  let first := firstFrom c j0 i 4 (guess - 2)
  let smax := bits dest 26 3
  let k := min step smax
  { set := c, nco := [nco], i0 := i, j0 := j0, first := first, next := first, series := series, limit := none, glaze := none,
    dests := [(0, dest)], stages := k, thin := step - smax, path := path, strM := stepFrom k first, pend := none }

/-- Tuner `t` begins a series with chain settings `c` at index `i` (R261); it is WAITING until its first output (R264 names the state
only: log 65). -/
def State.startSeries (s : State) (t : Nat) (c : TunSet) (nco : Nco) (i : Nat) : State :=
  let s := s.wrap (Reg.TUN_SERIES_SERIES.e t) 1
  let x := s.tuner t
  let ch := newChain c nco i (s.get (Reg.TUN_SERIES_SERIES.e t)) (s.word (Reg.TUN_DEST_SEN.e t).off).toNat x.step (x.paths + 1)
  let s := s.put (tunState t) 1
  let s := s.put64 (Reg.TUN_PHI_L_PHI.e t) (Reg.TUN_PHI_H_PHI.e t) nco.phi
  let s := s.setTuner t { x with chain := some ch, paths := x.paths + 1 }
  s.tunFlag t Reg.TUN_TSTAT_SER

/-- The NCO in COHERENT mode. -/
def coherent (b : BankView) (t i : Nat) : Nco :=
  let p := b.get (Reg.TUN_NCO_POFS.e t)
  ⟨i, ftwOf b t, p, p * 2 ^ 32⟩

/-! ### The swap (R258 to R263) -/

def tunFields : List Fld :=
  [Reg.TUN_CTRL_EN, Reg.TUN_FTW_L_FTW, Reg.TUN_FTW_H_FTW, Reg.TUN_NCO_POFS, Reg.TUN_SWIDX_L_IDX, Reg.TUN_SWIDX_H_IDX,
   Reg.TUN_FIR_FSEL, Reg.TUN_STEP_STEP, Reg.TUN_DEST_SEN, Reg.TUN_RING_RBASE]

/-- The ingress bank tuner inputs run after the commit under way. -/
def State.ingNext (s : State) : BankView :=
  bif s.adm.named.contains .ingress then s.stagedView .ingress else s.liveView .ingress

/-- The first index the mixer of input `n` has not taken. -/
def State.mixNext (s : State) (n : Nat) : Nat :=
  match mainNewest (s.inp n) with
  | some j => idxAdd j 1
  | none => (s.inp n).start

/-- The input whose samples the mixer of tuner `t` takes before the commit: that of a running tuner, or the one it is to take. -/
def State.mixInput (s : State) (t : Nat) : Nat :=
  (bif s.on (Reg.TUN_CTRL_EN.e t) then s.liveView .tuners else s.stagedView .tuners).get (Reg.TUN_CTRL_INPUT.e t)

/-- A commit is accepted: a tuner with USEIDX whose swap index has been passed swaps at the first index not taken, with
LATEIDX (R258). -/
def State.tunAccept (s : State) : State :=
  bif s.adm.named.contains .tuners then
    let b := s.stagedView .tuners
    (upto 256).foldl (fun s t =>
      bif b.on (Reg.TUN_NCO_USEIDX.e t) && (s.on (Reg.TUN_CTRL_EN.e t) || b.on (Reg.TUN_CTRL_EN.e t)) then
        let i := b.get (Reg.TUN_SWIDX_L_IDX.e t) + b.get (Reg.TUN_SWIDX_H_IDX.e t) * 2 ^ 32
        let nxt := s.mixNext (s.mixInput t)
        bif idxBefore i nxt then (s.setTuner t { s.tuner t with iS := some nxt }).tunFlag t Reg.TUN_TSTAT_LATEIDX
        else s.setTuner t { s.tuner t with iS := some i }
      else s) s
  else s

/-! ### Ring slots (12 R389) -/

def ringKey (t k : Nat) : Nat := 16 * t + k
def State.ring (s : State) (t k : Nat) : RingSlot := tget (fun _ => RingSlot.reset) s.tls.rings (ringKey t k)
def State.setRing (s : State) (t k : Nat) (x : RingSlot) : State :=
  { s with tls := { s.tls with rings := tset (fun _ => RingSlot.reset) s.tls.rings (ringKey t k) x } }

/-- The tuners whose live TUN_DEST has TEN = 1, ascending. -/
def State.tenTuners (s : State) : List Nat :=
  (s.regs.filterMap (fun e => if Reg.TUN_DEST_TEN.covers e.1 then some ((e.1 - Reg.TUN_DEST_TEN.off) / 0x40) else none)).filter
    (fun u => s.on (Reg.TUN_DEST_TEN.e u))

/-- Slot `k` of tile `t` is given to tuner `u`; it restarts where its tuner, RBASE or RLEN changes (12 R389). -/
def State.ringGive (s : State) (t k : Nat) (u : Option Nat) : State :=
  match u with
  | none => bif s.on (Reg.TILE_RING0_VALID.tk t k) then
        (((s.flag (Reg.TILE_RING0_VALID.tk t k) false).put (Reg.TILE_RING0_TUNER.tk t k) 0).put (Reg.TILE_RING0_WIDX.tk t k) 0).setRing
          t k RingSlot.reset
      else s
  | some u =>
    let b := s.get (Reg.TUN_RING_RBASE.e u)
    let l := s.get (Reg.TUN_RING_RLEN.e u)
    let g := s.ring t k
    bif s.on (Reg.TILE_RING0_VALID.tk t k) && s.get (Reg.TILE_RING0_TUNER.tk t k) == u && g.base == b && g.len == l then s
    else
      let s := (s.flag (Reg.TILE_RING0_VALID.tk t k) true).put (Reg.TILE_RING0_TUNER.tk t k) u
      ((s.put (Reg.TILE_RING0_WIDX.tk t k) 0).put (Reg.TILE_RING1_RIDX.tk t k) 0).setRing t k ⟨0, none, b, l⟩

/-- Every tile's slots go to its tuners in ascending number (12 R389). -/
def State.ringAssign (s : State) : State :=
  let us := s.tenTuners
  let ts := us.map (fun u => s.get (Reg.TUN_DEST_TILE.e u)) ++ s.tls.rings.map (fun e => e.1 / 16)
  ts.eraseDups.foldl (fun s t =>
    let mine := us.filter (fun u => s.get (Reg.TUN_DEST_TILE.e u) == t)
    (upto 16).foldl (fun s k => s.ringGive t k mine[k]?) s) s

/-- A group whose tuners have all swapped raises its event; the last one ends the block's swap (R263). -/
def State.tunSwapped (s : State) (t : Nat) : State :=
  let s := s.ringAssign
  let s := { s with tun := { s.tun with left := s.tun.left.filter (· ≠ t) } }
  let g := t / 16
  let s := bif s.tun.left.any (fun u => u / 16 == g) || s.tun.groups.contains g then s
    else { s with tun := { s.tun with groups := g :: s.tun.groups } }.ev (256 + g)
  bif s.maySwap .tuners && s.tun.left.isEmpty then
    ((s.swapWhere .tuners (fun _ => true)).flag Reg.TUN_STAT_SWPEND.z false).swapDone .tuners
  else s

/-- The commit's instant arrives: the tuners to swap, and those that run nothing at once (R258, R263). -/
def State.tunCommit (s : State) : State :=
  bif s.maySwap .tuners then
    let b := s.stagedView .tuners
    let s := { s with tun := { s.tun with left := upto 256, groups := [] } }
    (upto 256).foldl (fun s t =>
      bif !s.on (Reg.TUN_CTRL_EN.e t) && !b.on (Reg.TUN_CTRL_EN.e t) then
        (s.setTuner t { s.tuner t with iS := none }).tunSwapped t
      else bif (s.tuner t).iS.isSome && b.on (Reg.TUN_NCO_USEIDX.e t) then s
      else
        let n := b.get (Reg.TUN_CTRL_INPUT.e t)
        let i := bif b.on (Reg.TUN_NCO_USEIDX.e t) then
            b.get (Reg.TUN_SWIDX_L_IDX.e t) + b.get (Reg.TUN_SWIDX_H_IDX.e t) * 2 ^ 32
          else s.indexAt n s.commitAt
        s.setTuner t { s.tuner t with iS := some i }) s
  else s

/-- The first output of a chain whose position is at or after index `i`, from its next one on. -/
def firstAt (c : TunSet) (j0 i : Nat) : Nat → Nat → Nat
  | 0, n => n
  | fuel + 1, n => if (i : Int) * unit35 ≤ outPos c j0 n then n else firstAt c j0 i fuel (n + 1)

/-- The first output with position at or after `i`: computed, then settled upward. -/
def outputAt (c : TunSet) (j0 i : Nat) : Nat :=
  let guess : Nat :=
    if c.rsen then (((i : Int) * unit35 - firShift c - (tunM c : Int) * j0 * unit35) / (tunM c * c.step * 2 ^ 4)).toNat
    else (((i : Int) * unit35 - firShift c) / (tunM c * unit35)).toNat
  firstAt c j0 i 4 guess

/-- The NCO settings of a bank from index `i` on, where the old ones gave phase `ph` at the swap (R240). -/
def swapNco (b : BankView) (t i ph pofs : Nat) : Nco :=
  let c := coherent b t i
  bif b.on (Reg.TUN_CTRL_CONT.e t) then
    { c with phi := toU 48 ((ph : Int) - c.ftw * i + ((c.pofs : Int) - pofs) * 2 ^ 32) }
  else c

/-- The change from settings `o` to `n` begins a new series (R259). -/
def TunSet.structural (o n : TunSet) : Bool :=
  o.input != n.input || o.rate != n.rate || o.c16 != n.c16 || o.k != n.k || o.fdec != n.fdec || o.firen != n.firen
    || o.rsen != n.rsen || o.step != n.step || o.ofmt != n.ofmt
    || (n.firen && (o.fir.length != n.fir.length || o.dly != n.dly))

/-- The change from settings `o` to `n` changes coefficients in use (R259). -/
def TunSet.coefficients (o n : TunSet) : Bool := (n.firen && o.fir != n.fir) || (n.rsen && o.rs != n.rs) || o.gsh != n.gsh

/-- T_pin at a position in units of 2⁻³⁵ samples, in units of 2⁻¹¹⁵ s. -/
def pinAt35 (m : FrameModel) (pos : Int) : Int :=
  (m.a + idxSub (toU 48 (pos / unit35)) m.iA * m.p) * unit35 + (pos % unit35) * m.p

/-- The position on input `a`, around index `i`, at the instant of position `pos` of input `b`; the same position on one input. -/
def State.samePos (s : State) (a i b : Nat) (pos : Int) : Int :=
  if a = b then pos
  else match modelAt (s.inp a).models i, modelAt (s.inp b).models (toU 48 (pos / unit35)) with
    | some m, some k =>
      let base := (i : Int) * unit35
      base - (pinAt35 m base - pinAt35 k pos) / m.p
    | _, _ => (i : Int) * unit35

/-- The change of the stream path that a change of SMAX makes at output number `n` of a chain (R253, R259). -/
def Chain.smaxTo (ch : Chain) (step smax n : Nat) : Chain :=
  let k := min step smax
  bif k == ch.stages && ch.pend.isNone then { ch with thin := step - smax }
  else { ch with pend := some (k, step - smax, ceilDiv (max n ch.next) (2 ^ k) * 2 ^ k) }

/-- The tuner reaches its swap index (R258 to R262). The NCO swaps for the old chain too. -/
def State.tunSwapAt (s : State) (t i : Nat) : State :=
  let b := s.stagedView .tuners
  let x := s.tuner t
  let new := tunSet b s.ingNext t
  let draining := s.get (tunState t) == 4
  let s := s.swapWhere .tuners (ofElem tunFields t)
  let word := (s.word (Reg.TUN_DEST_SEN.e t).off).toNat
  let enabled := b.on (Reg.TUN_CTRL_EN.e t)
  match x.chain with
  | none =>
    bif enabled && s.get Reg.PWR_STAT_MODE.z == 4 then
      bif draining then s.setTuner t { x with again := some i }
      else (s.startSeries t new (coherent b t i) i).tunSwapped t
    else s.tunSwapped t
  | some ch =>
    let old := ch.set
    let iOld := bif old.input == new.input || b.on (Reg.TUN_NCO_USEIDX.e t) then i else s.indexAt old.input s.commitAt
    let c0 := (ncoAt ch.nco iOld).getD (coherent b t iOld)
    let ph := ncoPhase c0 iOld
    let nco := swapNco b t i ph c0.pofs
    let ch := { ch with nco := swapNco b t iOld ph c0.pofs :: ch.nco }
    bif !enabled then
      (s.setTuner t { x with chain := none, old := some { ch with limit := some ((iOld : Int) * unit35) } }).put64
        (Reg.TUN_PHI_L_PHI.e t) (Reg.TUN_PHI_H_PHI.e t) nco.phi
    else bif old.structural new then
      let nch := newChain new nco i 0 word x.step 0
      let limit := s.samePos old.input iOld new.input (outPos new nch.j0 nch.next)
      (s.setTuner t { x with old := some { ch with limit := some limit } }).startSeries t new nco i
    else
      let glz := b.get (Reg.TUN_CTRL_GLZ.e t)
      let g : Nat := if old.coefficients new && glz != 0 then 2 ^ (glz + 3) else 0
      let n0 := outputAt new ch.j0 i
      let ch := { ch with set := new, glaze := some ⟨old, n0, g⟩, dests := ((i : Int) * unit35, word) :: ch.dests }
      let s := (s.setTuner t { x with chain := some (ch.smaxTo x.step (bits word 26 3) n0) }).put64 (Reg.TUN_PHI_L_PHI.e t)
        (Reg.TUN_PHI_H_PHI.e t) nco.phi
      bif g == 0 then s.tunSwapped t else s.put (tunState t) 3

/-- TUNER_SWAP. -/
def execTunerSwap (t : Nat) (s : State) : Res :=
  .next <| match (s.tuner t).iS with
    | none => s
    | some i =>
      bif s.adm.named.contains .tuners && le 2 (s.get Reg.ADM_STAT_STATE.z) then
        (s.setTuner t { s.tuner t with iS := none }).tunSwapAt t i
      else s

/-- A glaze has delivered its last cross-faded output (R260). -/
def execGlazeEnd (t : Nat) (s : State) : Res :=
  .next <| match (s.tuner t).chain with
    | some ch =>
      match ch.glaze with
      | some g =>
        bif lt 0 g.g && le (g.first + g.g) ch.next then
          let s := s.setTuner t { s.tuner t with chain := some { ch with glaze := none } }
          ((s.put (tunState t) 2).tunFlag t Reg.TUN_TSTAT_GLZEND).tunSwapped t
        else s
      | none => s
    | none => s

/-- A tuner that a commit has enabled again from index `i` on begins its new series (R262). -/
def State.tunAgain (s : State) (t i : Nat) : State :=
  let s := s.setTuner t { s.tuner t with again := none }
  let b := s.liveView .tuners
  let c := tunSet b s.ingNext t
  let nxt := s.mixNext c.input
  let from_ := if idxBefore i nxt then nxt else i
  (s.startSeries t { c with gen := (s.stagedView .tuners).gen } (coherent b t from_) from_).tunSwapped t

/-- The last output of a disabled tuner has reached its consumers: OFF; one that a commit has enabled again meanwhile begins its new
series (R262). -/
def execTunerDrained (t : Nat) (s : State) : Res :=
  .next <| bif s.get (tunState t) == 4 then
      let s := (s.put (tunState t) 0).tunFlag t Reg.TUN_TSTAT_DRAINED
      match (s.tuner t).again with
      | some i => s.tunAgain t i
      | none => s
    else s

/-- A chain is ordered to step stages `k` and thinning `thin`: at once where it has delivered nothing, otherwise at its next output whose
index the step path takes (R253, R254). -/
def Chain.order (ch : Chain) (k thin : Nat) : Chain :=
  if ch.next = ch.first then { ch with stages := k, thin := thin, pend := none, strM := stepFrom k ch.first }
  else if k = ch.stages ∧ ch.pend = none then { ch with thin := thin }
  else { ch with pend := some (k, thin, ceilDiv ch.next (2 ^ k) * 2 ^ k) }

/-- A ladder order is taken on the stream path (R253, R254): stages up to SMAX and thinning above it. A change of stages starts a new
series for that stream; one of the thinning alone begins at a packet. -/
def execTunerStepChange (t : Nat) (s : State) : Res :=
  let x := s.tuner t
  .next <| match x.ordered with
    | none => s
    | some step =>
      let smax := s.get (Reg.TUN_DEST_SMAX.e t)
      let k := min step smax
      let thin := step - smax
      let ch := x.old.orElse (fun _ => x.chain)
      let alone := match ch with
        | some c => decide (c.stages = k) && c.pend.isNone && decide (c.thin ≠ thin)
        | none => false
      let x := { x with ordered := none, step := step, old := x.old.map (·.order k thin), chain := x.chain.map (·.order k thin),
                        thinNext := bif alone then ch.map (fun c => (c.path, thin)) else x.thinNext }
      let s := s.setTuner t x
      match x.old.orElse (fun _ => x.chain) with
      | some c => s.put (Reg.TUN_TSTAT_RSTEP.e t) c.stages
      | none => s.put (Reg.TUN_TSTAT_RSTEP.e t) k

/-! ### Modes (R238) -/

/-- On entry to Full, every enabled tuner starts a new series at the first index still to be released. -/
def State.tunWake (s : State) : State :=
  (upto 256).foldl (fun s t =>
    bif s.on (Reg.TUN_CTRL_EN.e t) then
      let b := s.liveView .tuners
      let c := tunSet b (s.liveView .ingress) t
      let i := s.mixNext c.input
      s.startSeries t c (coherent b t i) i
    else s) s

/-- In Watch and Sleep every tuner is idle, and one that had to drain or to end a glaze has swapped; an enabled one is WAITING (R264
names the state only: log 65). -/
def State.tunIdle (s : State) : State :=
  (upto 256).foldl (fun s t => bif s.get (tunState t) == 0 then s
    else
      let x := s.tuner t
      let s := (s.setTuner t { x with chain := none, old := none, again := none }).put (tunState t) (b2n (s.on (Reg.TUN_CTRL_EN.e t)))
      bif s.tun.left.contains t && x.iS.isNone then s.tunSwapped t else s) s

end Sys2Proof.Machine
end

