-- ==== Sys2Proof/Machine/Views.lean ====
section
/-!
DEFINITION. Detectors and views (07_detection_and_maps.md): what a view takes from its plane, intervals, the values of a
record, maps, change-only records, and the swap.
-/
namespace Sys2Proof.Machine

def State.vin (s : State) (v x : Nat) : ViewIn := tget (fun _ => ViewIn.reset) s.det.ins (256 * v + x)
def State.setVin (s : State) (v x : Nat) (y : ViewIn) : State :=
  { s with det := { s.det with ins := tset (fun _ => ViewIn.reset) s.det.ins (256 * v + x) y } }

def viewState (v : Nat) : Loc := Reg.DVW_STAT_STATE.e v
def State.viewField (s : State) (v : Nat) (f : Fld) : Nat := s.get (f.e v)
/-- A view-specific event (R236). -/
def State.viewEv (s : State) (v n : Nat) : State := (s.put Reg.DET_STAT_LASTVIEW.z v).ev n

/-! ### What a view selects (R206, R207) -/

/-- The inputs, or on the tuner plane the tuners, of view `v`. -/
def State.viewInputs (s : State) (v : Nat) : List Nat :=
  let hi := s.viewField v Reg.DVW_CTRL_PLANE == 3 && s.on (Reg.DVW_CTRL_THI.e v)
  ((upto 128).filter (fun n => s.sel2 Reg.DVW_MASK_SEL v n)).map (fun n => if hi then n + 128 else n)

/-- W (R206). -/
def State.viewW (s : State) (v : Nat) : Nat :=
  let p := s.viewField v Reg.DVW_CTRL_PLANE
  if p = 3 then 1 else s.viewField v Reg.DVW_RECT0_KCNT * (if p = 2 then s.viewField v Reg.DVW_RECT1_JCNT else 1)

/-- The largest interval of a detector (R216). -/
def maxInterval (det : Nat) : Nat := if det = 0 then 1 else if det = 6 then 65536 else 2 ^ 24

/-- The part of step `k` that lengthens the interval of detector `det` from `n` (R228). Where no N × 2^k equals the detector's maximum the
interval stays at the largest below it (DESIGN CHOICE, log 63). -/
def lengthStep (det n : Nat) : Nat → Nat
  | 0 => 0
  | k + 1 => if det = 0 || det = 8 then 0
             else if n * 2 ^ (lengthStep det n k + 1) ≤ maxInterval det then lengthStep det n k + 1 else lengthStep det n k

/-- The interval length at step `k` (R217, R228). -/
def State.viewN (s : State) (v k : Nat) : Nat :=
  let n := max 1 (s.viewField v Reg.DVW_INT_N)
  n * 2 ^ lengthStep (s.viewField v Reg.DVW_CTRL_DET) n k

/-- An interval with number `q` is emitted at step `k` (R228). -/
def State.viewEmits (s : State) (v k q : Nat) : Bool :=
  q % 2 ^ (k - lengthStep (s.viewField v Reg.DVW_CTRL_DET) (max 1 (s.viewField v Reg.DVW_INT_N)) k) == 0

/-- The grid of plane `plane` at entry `x`: that of the commit under way once its blocks swap, else that in force. -/
def State.planeGrid (s : State) (plane x : Nat) : PlaneGrid :=
  let g := s.gridNew x
  match plane with
  | 0 => ⟨0, g.hop x 2, g.len x 2, g.turn x 2, none⟩
  | 1 => ⟨0, g.hop x 0, g.len x 0, g.turn x 0, none⟩
  | 2 =>
    let b := s.nextView .fine
    let h := g.hop x 0
    ⟨(fineSigma b x * h : Nat), fineHop b x * h, (fineNB b x - 1) * h + g.len x 0, fineTurn (idxMod / h) (fineSigma b x) (fineHop b x), none⟩
  | _ => ⟨0, 1, 1, idxMod, (s.tuner x).chain.map (fun c => (c.set, c.j0))⟩

/-- The first and the last sample index of the span of index `e`. -/
def PlaneGrid.span (g : PlaneGrid) (e : Nat) : Int × Int :=
  match g.set with
  | some (t, j0) => (spanFirst t j0 e, spanLast t j0 e)
  | none => (g.org + e * g.hop, g.org + e * g.hop + g.wlen - 1)

/-- The first index whose span begins at or after sample index `i`. -/
def PlaneGrid.indexAt (g : PlaneGrid) (i : Nat) : Nat :=
  match g.set with
  | some (c, j0) => firstFrom c j0 i 64 (outputAt c j0 i - 64)
  | none => (-((g.org - i) / (g.hop : Int))).toNat

/-- Index `a` lies before index `b`, across the wrap too (R217). -/
def PlaneGrid.before (g : PlaneGrid) (a b : Nat) : Bool :=
  let d := (b + g.turn - a % g.turn) % g.turn
  decide (0 < d) && decide (2 * d < g.turn)
/-- The index after the last one of an interval that ends at `e`. -/
def PlaneGrid.wrap (g : PlaneGrid) (e : Nat) : Nat := if g.turn ≤ e then 0 else e

/-- The input whose samples a view's entry `x` rests on. -/
def State.sampleInput (s : State) (v x : Nat) : Nat :=
  if s.viewField v Reg.DVW_CTRL_PLANE = 3 then s.get (Reg.TUN_CTRL_INPUT.e x) else x

/-- The generation of a plane's bank. -/
def State.planeGen (s : State) (plane : Nat) : Nat :=
  s.get (match plane with
         | 2 => Blk.fine.gen
         | 3 => Blk.tuners.gen
         | _ => Blk.coarse.gen)

/-! ### Power, level and values (R210 to R215) -/

/-- p of a cell with components of `b` bits (R210). -/
def power (b : Nat) (z : Int × Int) : Nat := (z.1 * z.1 + z.2 * z.2).toNat * 2 ^ (32 - 2 * b)

/-- lp(num ÷ den) (R210). -/
def lp (num den : Nat) : Int := logPower num (den * 2 ^ 30)

/-- binary32 nearest to `num` ÷ `den`, ties to even, as its bit pattern (no subnormal arises, R215). -/
def f32 (num den : Nat) : Nat :=
  if num = 0 then 0
  else
    let sh : Int := 24 + (Nat.log2 den : Int) - (Nat.log2 num : Int)
    let q := scaleRound num den sh
    let (q, e) := if q.natAbs < 2 ^ 24 then (q.natAbs, -sh) else ((scaleRound num den (sh - 1)).natAbs, 1 - sh)
    let (q, e) := if q = 2 ^ 24 then (2 ^ 23, e + 1) else (q, e)
    (e + 150).toNat * 2 ^ 23 + q % 2 ^ 23

/-- Sums over the present spectra of cell `c`. -/
def cellPowers (l : List Taken) (c : Nat) : List Nat := l.map (fun t => t.pw.getD c 0)

/-- SK of a cell in Q4.12 (R212). -/
def skOf (ps : List Nat) : Nat :=
  let n := ps.length
  let s1 := sumOf ps
  let s2 := sumOf (ps.map (fun p => p * p))
  if n < 2 || s1 = 0 then 0xFFFF
  else min 0xFFFE (rndDiv (4096 * (n + 1) * ((n * s2 : Nat) - (s1 * s1 : Nat) : Int)) ((n - 1) * (s1 * s1) : Nat)).toNat

/-- The value of a cell under detector `det`, value format `vf`, as bytes, with whether it saturated; `held`: the hold's
extreme (R211, R214, R215). -/
def cellValue (det vf : Nat) (ps : List Nat) (held : Option Nat) : List Byte × Bool :=
  let n := ps.length
  let num := match det with
    | 1 => ps.getLastD 0
    | 2 => sumOf ps
    | 4 => held.getD (maxOf ps)
    | 5 => held.getD (ps.foldl min (ps.headD 0))
    | _ => ps.headD 0
  let den := if det = 2 then max n 1 else 1
  let held := if n = 0 then none else held
  if det = 6 then let k := skOf ps
                  (u16 k, k == 0xFFFE)
  else if vf = 0 then
    if n = 0 && held.isNone then (u16 0x8000, false)
    else
      let l := if det = 3 then rndDiv (ps.foldl (fun a p => a + lp p 1) (0 : Int)) (max n 1) else lp num den
      (iN 2 l, l == 32767 || l == -32767)
  else if vf = 1 then (u32 (if n = 0 && held.isNone then 0x7FC00000 else f32 num (den * 2 ^ 30)), false)
  else (u64 num, false)

/-! ### Maps (R220 to R222) -/

/-- The column of cell `c` of `w` in a map of `cols` columns. -/
def mapCol (c w cols : Nat) : Nat := ((upto cols).find? (fun x => decide (c < (x + 1) * w / cols))).getD (cols - 1)

/-- One hit on a map, saturating at `top`; whether it saturated. -/
def hitAt (r : List Nat) (i inc top : Nat) : List Nat × Nat :=
  let v := r.getD i 0
  (r.set i (min top (v + inc)), b2n (decide (top < v + inc)))

/-- The hits of one spectrum: the raster, clip-high levels and saturations. -/
def hitAll (r : List Nat) (pw : List Nat) (rows cols inc top : Nat) (tp : Int) (step : Nat) (low : Bool) :
    List Nat × Nat × Nat :=
  (pw.zip (upto pw.length)).foldl (fun a c =>
    let y := (tp - lp c.1 1) / step
    let clip := decide (y < 0)
    let y := if y < 0 then 0 else y.toNat
    let hit := decide (y < rows) || low
    let y := min y (rows - 1)
    if hit then
      let h := hitAt a.1 (y * cols + mapCol c.2 pw.length cols) inc top
      (h.1, a.2.1 + b2n clip, a.2.2 + h.2)
    else (a.1, a.2.1 + b2n clip, a.2.2)) (r, 0, 0)

/-- `k` decay ticks on a map (R222). -/
def decay (dk : Nat) : Nat → List Nat → List Nat
  | 0, r => r
  | k + 1, r => decay dk k (r.map (fun c => c - (c + 2 ^ dk - 1) / 2 ^ dk))

/-- Decay ticks at the indices after `last` up to `e`, at every index i with (i + 1) mod `dt` = 0, across a wrap of `turn` indices;
beyond 65,536 of them no cell is left (R222). -/
def decayTicks (turn dt : Nat) (last : Option Nat) (e : Nat) : Nat :=
  match last with
  | none => 0
  | some l => min 65536 (if e < l then turn / dt - (l + 1) / dt + (e + 1) / dt else (e + 1) / dt - (l + 1) / dt)

/-! ### Intervals (R217, R218) -/

/-- The generation view `v` has: the commit's once it has swapped. -/
def State.viewGen (s : State) (v : Nat) : Nat :=
  if s.maySwap .detect && !s.det.left.contains v then s.get Reg.ADM_CGEN_CGEN.z else s.get Blk.detect.gen

/-- The 16 words of descriptor `v` (R235). -/
def State.viewWords (s : State) (v : Nat) : List Word := (upto 16).map (fun r => s.word ((Reg.DVW_CTRL_EN.e v).off + 4 * r))

/-- A descriptor field of an interval. -/
def Interval.field (c : Interval) (f : Fld) : Nat :=
  bits (c.desc.getD ((f.off - Reg.DVW_CTRL_EN.off) / 4) 0).toNat f.lo f.w

/-- N of an interval under its step (R228). -/
def Interval.len (c : Interval) : Nat :=
  let n := max 1 (c.field Reg.DVW_INT_N)
  n * 2 ^ lengthStep (c.field Reg.DVW_CTRL_DET) n c.step
/-- q (R217). -/
def Interval.q (c : Interval) : Nat := c.e0 / c.len

/-- The map cells of an empty raster of view `v`. -/
def State.blankMap (s : State) (v : Nat) : List Nat :=
  List.replicate (s.viewField v Reg.DVW_MAP0_ROWS * s.viewField v Reg.DVW_MAP0_COLS) 0

/-- An interval of view `v` from index `e` of grid `g` to the next aligned boundary, or to the wrap of its indices (R217). -/
def State.newInterval (s : State) (v : Nat) (g : PlaneGrid) (e step : Nat) : Interval :=
  let p := s.viewField v Reg.DVW_CTRL_PLANE
  let n := s.viewN v step
  let e1 := (e / n + 1) * n
  { e0 := e, e1 := min e1 g.turn, specs := [], late := 0, short := e % n != 0 || lt g.turn e1, step := step, dgen := s.viewGen v,
    pgen := s.planeGen p, grid := g, raster := if s.viewField v Reg.DVW_CTRL_DET = 7 then s.blankMap v else [], hold := [],
    full := false, desc := s.viewWords v }

/-- The map an interval's record states: the interval's own, or the persistence raster (R221, R222). -/
def Interval.rasterAt (c : Interval) (persist : List Nat) : List Nat :=
  if c.field Reg.DVW_CTRL_DET = 8 then
    (if persist = [] then List.replicate (c.field Reg.DVW_MAP0_ROWS * c.field Reg.DVW_MAP0_COLS) 0 else persist)
  else c.raster

/-- The interval under way closes; with `short` it ends at its last spectrum (R217). One with no index at all leaves
nothing. -/
def State.closeInterval (s : State) (v x : Nat) (short : Bool) : State :=
  let y := s.vin v x
  match y.cur with
  | none => s
  | some c =>
    let last := match c.specs.head? with
      | some t => t.e + 1
      | none => c.e0
    let e1 := if short then last else c.e1
    let mine (u : Nat) : Bool := le c.e0 u && lt u e1
    let cut := lt e1 (c.q * c.len + c.len)
    let c2 := { c with e1 := e1, short := c.short || cut, hold := y.sum.hold, raster := c.rasterAt y.sum.persist,
                       late := c.late + (y.lates.filter mine).length }
    let y := { y with cur := none, lates := y.lates.filter (fun u => !mine u) }
    bif le e1 c.e0 then s.setVin v x y
    else
      let s := s.setVin v x { y with closed := y.closed ++ [c2] }
      let s := bif c2.short then s.count Reg.DET_SHORT_COUNT.z 1 else s
      bif cut then s.viewEv v 274 else s

/-- The next interval begins at index `e` of grid `g` and ends at the next aligned boundary. -/
def State.openInterval (s : State) (v x : Nat) (g : PlaneGrid) (e : Nat) : State :=
  let y := s.vin v x
  bif y.fin then s else s.setVin v x { y with cur := some (s.newInterval v g e y.step) }

/-- What the entry has summed is noted before the first spectrum whose window begins at or after the instant of a commit that cuts the
view's interval there (R227). -/
def State.viewMark (s : State) (v x : Nat) (t : Taken) : State :=
  let y := s.vin v x
  bif y.mark.isNone && s.maySwap .detect && s.det.left.contains v && (s.stagedView .detect).on (Reg.DVW_CTRL_CUT.e v)
      && !lt (s.pinTag (s.sampleInput v x) t.first) s.commitAt then s.setVin v x { y with mark := some y.sum }
  else s

/-- The interval under way closes, and the one after it begins. -/
def State.nextInterval (s : State) (v x : Nat) (c : Interval) : State :=
  (s.closeInterval v x false).openInterval v x c.grid (c.grid.wrap c.e1)

/-- Intervals close until the one under way holds index `e`, which lies in it or after it. -/
def State.advanceTo (v x e : Nat) : Nat → State → State
  | 0, s => s
  | fuel + 1, s =>
    match (s.vin v x).cur with
    | none => s
    | some c => bif le c.e0 e && lt e c.e1 then s else State.advanceTo v x e fuel (s.nextInterval v x c)

/-- A list with `n` uses of an operation on a state. -/
def State.times (s : State) (n : Nat) (f : State → State) : State := (upto n).foldl (fun s _ => f s) s

/-- The maps and holds take a spectrum (R214, R220 to R222). -/
def State.viewMaps (s : State) (v x : Nat) (t : Taken) : State :=
  let y := s.vin v x
  let det := s.viewField v Reg.DVW_CTRL_DET
  let rows := s.viewField v Reg.DVW_MAP0_ROWS
  let cols := s.viewField v Reg.DVW_MAP0_COLS
  let tp := sext 16 (s.viewField v Reg.DVW_MAP1_TOP)
  let step := s.viewField v Reg.DVW_MAP1_STEP
  let low := s.on (Reg.DVW_CTRL_LOWCLIP.e v)
  bif det == 7 then
    match y.cur with
    | none => s
    | some c =>
      let top := if s.on (Reg.DVW_CTRL_HWID.e v) then 2 ^ 32 - 1 else 2 ^ 16 - 1
      let h := hitAll c.raster t.pw rows cols 1 top tp step low
      let s := s.setVin v x { y with cur := some { c with raster := h.1, full := c.full || h.1.any (· == top) } }
      (s.count Reg.DET_HSAT_COUNT.z (h.2.1 + h.2.2)).times h.2.2 (State.viewEv · v 277)
  else bif det == 8 then
    let dk := s.viewField v Reg.DVW_PERS_DK
    let r := if y.sum.persist = [] then s.blankMap v else y.sum.persist
    let h := hitAll r t.pw rows cols (s.viewField v Reg.DVW_PERS_HIT) 0xFFFF tp step low
    let due := decayTicks t.grid.turn (max 1 (s.viewField v Reg.DVW_PERS_DECAY_T)) y.sum.tick t.e
    let r := if dk = 0 then h.1 else decay dk due h.1
    (s.setVin v x { y with sum := { y.sum with persist := r, tick := some t.e } }).count Reg.DET_HSAT_COUNT.z h.2.1
  else bif (det == 4 || det == 5) && s.on (Reg.DVW_CTRL_HOLD.e v) then
    let f := if det = 4 then max else min
    let old := if y.sum.holdClr then [] else y.sum.hold
    s.setVin v x { y with sum := { y.sum with holdClr := false,
                                              hold := if old = [] then t.pw else (old.zip t.pw).map (fun c => f c.1 c.2) } }
  else s

/-- The interval under way takes the spectrum. -/
def State.takeInto (s : State) (v x : Nat) (t : Taken) : State :=
  let y := s.vin v x
  match y.cur with
  | some c => s.setVin v x { y with cur := some { c with specs := t :: c.specs }, prev := some { t with pw := [] } }
  | none => s

/-- The interval under way closes short and the next one begins at `e`: a generation change or a new grid (R217), with which the
hold starts anew (R214). -/
def State.breakAt (s : State) (v x : Nat) (g : PlaneGrid) (e : Nat) : State :=
  let s := s.closeInterval v x true
  let y := s.vin v x
  (s.setVin v x { y with sum := { y.sum with holdClr := true, tick := none } }).openInterval v x g e

/-- The entry waits for the interval that begins at index `e` of grid `g`. -/
def ViewIn.waitAt (y : ViewIn) (g : PlaneGrid) (e : Nat) : ViewIn := { y with startAt := e, startOn := some (toU 48 (g.span e).1) }

/-- The first boundary of intervals of length `n` at or after index `e` of grid `g` (R217). -/
def PlaneGrid.boundary (g : PlaneGrid) (n e : Nat) : Nat := g.wrap (ceilDiv e n * n)

/-- The entry is running once a span at or after the first sample index of its first interval comes: RUNNING with the first entry
(R217, EV272). Where the grid is not the one it waited for, its first interval begins at the spectrum. -/
def State.viewRun (s : State) (v x : Nat) (g : PlaneGrid) (e : Nat) : State :=
  let y := s.vin v x
  let y := if y.startOn = none then y.waitAt g (g.boundary (s.viewN v y.step) e) else y
  bif y.running || y.fin || idxBefore (toU 48 (g.span e).1) (y.startOn.getD 0) then s.setVin v x y
  else
    let from_ := if y.startOn = some (toU 48 (g.span y.startAt).1) then y.startAt else e
    let s := (s.setVin v x { y with running := true, prev := none, lates := [] }).openInterval v x g from_
    bif s.get (viewState v) == 1 then (s.put (viewState v) 2).viewEv v 272 else s

/-- Spectra `u` and `t` of an entry are of one generation, and of one grid (R31, R217). -/
def Taken.sameGen (u t : Taken) : Bool := u.gen == t.gen && u.cgen == t.cgen
def Taken.sameGrid (u t : Taken) : Bool := u.grid == t.grid

/-- Index `e` has a spectrum for view `v`, input `x` (R217, R218, R226). A spectrum of another generation or grid than the last one
ends the interval at that one and begins the next, the second product of a split pair at the same index. -/
def State.viewTake (s : State) (v x : Nat) (t : Taken) : State :=
  let s := s.viewRun v x t.grid t.e
  let y := s.vin v x
  match y.cur with
  | none => s
  | some c =>
    let other := match y.prev with
      | some u => !u.sameGen t
      | none => false
    let pair := match y.prev with
      | some u => u.e == t.e && u.gen == t.gen && u.cgen != t.cgen && t.split != 0
      | none => false
    let grid := c.grid != t.grid
    bif !grid && !pair && c.grid.before t.e c.e0 then ((s.count Reg.DET_DROP_COUNT.z 1).degrLoss .detect 1).viewEv v 275
    else
      let s := bif other || grid then s.breakAt v x t.grid t.e
        else State.advanceTo v x t.e ((t.e + c.grid.turn - c.e0) % c.grid.turn / c.len + 2) s
      let s := s.viewMark v x t
      let s := (s.takeInto v x t).viewMaps v x t
      match (s.vin v x).cur with
      | some c => bif t.e + 1 == c.e1 then s.nextInterval v x c else s
      | none => s

/-! ### What the planes give a view (R206, R207) -/

/-- The grid a spectrum lies on. -/
def Spectrum.grid (p : Spectrum) : PlaneGrid := ⟨(p.first : Int) - p.seq * p.pitch, p.pitch, p.len, p.turn, none⟩

/-- Cells K0 to K0 + KCNT − 1 of a sketch or coarse spectrum. -/
def State.cellsOf (s : State) (v : Nat) (p : Spectrum) : Taken :=
  let k0 := s.viewField v Reg.DVW_RECT0_K0
  ⟨p.seq, p.first, p.len, (upto (s.viewField v Reg.DVW_RECT0_KCNT)).map (fun c => power p.bits (p.bins.getD (k0 + c) (0, 0))),
   p.gen, p.gen, 0, p.grid⟩

/-- The fine spectrum of bin `k` delivered with the same span and generations as `p` (06 R189). -/
def State.fineBeside (s : State) (n : Nat) (p : Spectrum) (k : Nat) : Option Spectrum :=
  (s.fin n).specs.find? (fun q => q.idx == p.idx && q.first == p.first && q.len == p.len && q.gen == p.gen && q.cgen == p.cgen
    && q.bin == k)

/-- A fine spectrum as a view takes it, once every coarse bin of its rectangle has been delivered. -/
def State.fineCells (s : State) (v n : Nat) (p : Spectrum) : Option Taken :=
  let k0 := s.viewField v Reg.DVW_RECT0_K0
  let j0 := s.viewField v Reg.DVW_RECT1_J0
  let ps := (upto (s.viewField v Reg.DVW_RECT0_KCNT)).map (fun k => s.fineBeside n p (k0 + k))
  if ps.all Option.isSome then
    some ⟨p.seq, p.first, p.len,
      ps.flatMap (fun q => ((((q.map (·.bins)).getD []).drop j0).take (s.viewField v Reg.DVW_RECT1_JCNT)).map (power p.bits)),
      p.gen, p.cgen, p.split, p.grid⟩
  else none

/-- The views of plane `plane` that take entry `x`: enabled and WAITING or RUNNING, in Full mode (R707). -/
def State.viewsOf (s : State) (plane x : Nat) : List Nat :=
  bif s.get Reg.PWR_STAT_MODE.z == 4 then
    (upto 1024).filter (fun v => s.on (Reg.DVW_CTRL_EN.e v) && s.viewField v Reg.DVW_CTRL_PLANE == plane
      && (s.get (viewState v) == 1 || s.get (viewState v) == 2) && (s.viewInputs v).contains x)
  else []

/-- A coarse spectrum of the main output, or a sketch spectrum, reaches the views. -/
def State.viewsTake (s : State) (plane n : Nat) (p : Spectrum) : State :=
  (s.viewsOf plane n).foldl (fun s v => s.viewTake v n (s.cellsOf v p)) s

/-- A product of a fine spectrum reaches the views when the last bin of their rectangle is delivered. -/
def State.viewsFine (s : State) (n : Nat) (p : Spectrum) : State :=
  (s.viewsOf 2 n).foldl (fun s v =>
    let k0 := s.viewField v Reg.DVW_RECT0_K0
    bif le k0 p.bin && lt p.bin (k0 + s.viewField v Reg.DVW_RECT0_KCNT) then
      match s.fineCells v n p with
      | some t => s.viewTake v n t
      | none => s
    else s) s

/-- A tuner output reaches the views. -/
def State.viewsTuner (s : State) (t : Nat) (c : TunSet) (j0 : Nat) (o : TunOut) : State :=
  (s.viewsOf 3 t).foldl (fun s v => s.viewTake v t
    ⟨o.e, o.first, o.len, [power (fmtBits c.ofmt) o.v], o.gen, o.gen, 0, ⟨0, 1, 1, idxMod, some (c, j0)⟩⟩) s

/-- The interval `c` has one late spectrum more where it holds index `u`. -/
def Interval.addLate (c : Interval) (u : Nat) : Interval := if c.e0 ≤ u ∧ u < c.e1 then { c with late := c.late + 1 } else c

/-- A fine spectrum of number `u` declared late is void for its interval and added to its late count: one closed, the one under way or one
to come (R224). -/
def State.viewLate (s : State) (v x : Nat) (g : PlaneGrid) (u : Nat) : State :=
  let s := s.viewRun v x g u
  let y := s.vin v x
  bif !y.running then s
  else
    let s := bif y.closed.any (fun c => le c.e0 u && lt u c.e1) then
        s.setVin v x { y with closed := y.closed.map (Interval.addLate · u) }
      else s.setVin v x { y with lates := u :: y.lates }
    (s.count Reg.DET_LATE_COUNT.z 1).viewEv v 275

/-- A span at position `g` of grid `c` is declared late to the views (06 R199). -/
def State.viewsLate (s : State) (n : Nat) (c : FineChain) (g : Nat) : State :=
  let u := (g % c.turn - c.sigma) / c.hop
  let grid : PlaneGrid := ⟨(c.sigma * c.chop : Nat), c.hop * c.chop, (c.nb - 1) * c.chop + c.clen, fineTurn c.turn c.sigma c.hop, none⟩
  (s.viewsOf 2 n).foldl (fun s v => s.viewLate v n grid u) s

/-! ### Records (R213, R223 to R226, R230 to R234) -/

/-- What an interval's record states beside its values. -/
structure RecordHead where
  first : Nat
  len : Nat
  n : Nat
  gaps : Nat
  cls : Nat
  flags : Nat
  tag : Nat
  tq : Nat
  pgen : Nat
  q : Nat

/-- The present powers of cell `c`. -/
def Interval.powers (c : Interval) (k : Nat) : List Nat := cellPowers c.specs.reverse k

/-- W of an interval's descriptor. -/
def Interval.width (c : Interval) : Nat :=
  let p := c.field Reg.DVW_CTRL_PLANE
  if p = 3 then 1 else c.field Reg.DVW_RECT0_KCNT * (if p = 2 then c.field Reg.DVW_RECT1_JCNT else 1)

/-- The values of an interval's record as bytes, with whether one saturated. -/
def Interval.values (c : Interval) : List Byte × Bool :=
  let det := c.field Reg.DVW_CTRL_DET
  if det = 7 || det = 8 then
    (c.raster.flatMap (if det = 7 ∧ c.field Reg.DVW_CTRL_HWID = 1 then u32 else u16), c.full)
  else
    let vs := (upto c.width).map (fun k => cellValue det (c.field Reg.DVW_CTRL_VFMT) (c.powers k)
      (if c.field Reg.DVW_CTRL_HOLD = 1 then c.hold[k]? else none))
    (vs.flatMap (·.1), vs.any (·.2))

/-- The input whose samples an interval's record rests on. -/
def Interval.input (c : Interval) (x : Nat) (now : Nat) : Nat :=
  if c.field Reg.DVW_CTRL_PLANE = 3 then
    (match c.grid.set with
     | some (t, _) => t.input
     | none => now) else x

def State.recordHead (s : State) (x : Nat) (c : Interval) (sat : Bool) : RecordHead :=
  let inp := c.input x (s.get (Reg.TUN_CTRL_INPUT.e x))
  let a := (c.grid.span c.e0).1
  let z := (c.grid.span (c.e1 - 1)).2
  let first := toU 48 a
  let len := (z - a + 1).toNat
  let n := c.specs.length
  let gaps := min (2 ^ 32 - 1) (unionCount first len (s.gapIvs inp first))
  let cls := if n = 0 then 2 else if gaps = 0 ∧ c.late = 0 ∧ n = c.e1 - c.e0 then 0 else 1
  let ff := c.field Reg.DVW_CTRL_PLANE == 0 && c.specs.any (fun t => s.spanFault x t.first t.len)
  let flags := b2n c.short + 2 * b2n ff + 4 * b2n (lt 0 c.late) + 8 * b2n (c.specs.any (fun t => t.split != 0))
    + 16 * b2n sat + 32 * c.field Reg.DVW_CTRL_HOLD
  let tag := s.productTag inp first (len - 1)
  ⟨first, len, n, gaps, cls, flags, tag, s.spanTq inp first (toU 48 z) tag,
   match c.specs.head? with
   | some t => t.gen
   | none => c.pgen, c.q⟩

/-- The 72-byte prefix and values of R233; `kind` 1 DETECT, 2 MAP, 3 ANCHOR with anchor number `anc`. -/
def fullBody (v x kind anc : Nat) (c : Interval) (h : RecordHead) (vals : List Byte) (vf cnt : Nat) : List Byte :=
  u16 v ++ u8 x ++ u8 kind ++ u8 (c.field Reg.DVW_CTRL_DET) ++ u8 vf ++ u8 h.cls ++ u8 h.flags ++ u48 c.e0 ++ u8 c.step
    ++ zeros 1 ++ u32 h.q ++ u32 (c.e1 - c.e0) ++ u32 h.n ++ u32 c.late ++ u96 h.tag ++ u16 h.tq ++ zeros 2 ++ u32 c.dgen
    ++ u32 h.pgen ++ u32 h.gaps ++ u32 cnt
    ++ (if kind = 2 then u16 (c.field Reg.DVW_MAP0_ROWS) ++ u16 (c.field Reg.DVW_MAP0_COLS) ++ u16 (c.field Reg.DVW_MAP1_TOP)
          ++ u16 (c.field Reg.DVW_MAP1_STEP)
        else if kind = 3 then u32 anc ++ zeros 4 else zeros 8) ++ vals

/-- A record of view `v` for its stream (R233, 16 R493). -/
def State.viewRecord (s : State) (v : Nat) (c : Interval) (body : List Byte) : State :=
  bif c.field Reg.DVW_DEST_SEN == 1 then s.close (c.field Reg.DVW_DEST_STREAM) ⟨0x10, 4, v, body⟩ else s

/-- The values of a change-only interval in LP16, −32768 for a void cell. -/
def Interval.lpValues (c : Interval) : List Int :=
  (upto c.width).map (fun k => sext 16 (leNat (cellValue (c.field Reg.DVW_CTRL_DET) 0 (c.powers k)
    (if c.field Reg.DVW_CTRL_HOLD = 1 then c.hold[k]? else none)).1))

/-- R230. -/
def cellChanged (thr : Nat) (v r : Int) : Bool :=
  (decide (v = -32768) != decide (r = -32768)) || (v != -32768 && r != -32768 && decide ((thr : Int) ≤ (v - r).natAbs))

/-- Intervals since the last anchor (R231, R234), across the wrap of the plane's indices too. -/
def sinceAnchor (y : ViewIn) (c : Interval) (h : RecordHead) : Nat :=
  let m := ceilDiv c.grid.turn c.len
  (h.q + m - y.ancQ % m) % m

/-- The rules of R231 under which an interval is an anchor. DESIGN CHOICE (log 63): W ÷ 2 of rule 8 is the exact half. -/
def anchorDue (y : ViewIn) (c : Interval) (h : RecordHead) (changed : Nat) : Bool :=
  !y.anchored || h.pgen != y.ancGen || h.tq % 256 != y.ancTq % 256 || h.tq / 4096 != y.ancTq / 4096 || bit h.tq 9
    || c.step != y.ancStep || y.prevClass == 2 || le (c.field Reg.DVW_DELTA_ANCH) (sinceAnchor y c h)
    || decide ((0xFFFFFF : Int) < rnd ((h.tag : Int) - y.ancTag) 24) || le c.width (2 * changed) || h.cls == 2

/-- A change-only interval: an anchor, a change record, or nothing (R230 to R232, R234), and whether it was a record. -/
def State.deltaRecord (s : State) (v x : Nat) (c : Interval) (h : RecordHead) : State × Bool :=
  let y := s.vin v x
  let vals := c.lpValues
  let thr := c.field Reg.DVW_DELTA_THR
  let ch := (upto c.width).filter (fun k => cellChanged thr (vals.getD k 0) (y.refs.getD k (-32768)))
  bif anchorDue y c h ch.length then
    let s := s.setVin v x { y with refs := vals, anchored := true, ancNo := (y.ancNo + 1) % 2 ^ 32, ancTag := h.tag,
                                   ancTq := h.tq, ancGen := h.pgen, ancStep := c.step, ancQ := h.q, prevClass := h.cls,
                                   prevFlags := h.flags }
    (s.viewRecord v c (fullBody v x 3 y.ancNo c h (vals.flatMap (iN 2)) 1 c.width), true)
  else bif !ch.isEmpty || h.cls != y.prevClass || h.flags != y.prevFlags || c.field Reg.DVW_DELTA_EMPTY == 1 then
    let off := (rnd ((h.tag : Int) - y.ancTag) 24).toNat
    let s := s.setVin v x { y with prevClass := h.cls, prevFlags := h.flags, refs := (upto c.width).map (fun k =>
      if ch.contains k then vals.getD k 0 else y.refs.getD k (-32768)) }
    (s.viewRecord v c (u16 v ++ u8 x ++ u8 4 ++ leBytes 3 off ++ u8 h.flags ++ u32 (y.ancNo + 2 ^ 32 - 1)
      ++ u16 (sinceAnchor y c h) ++ u8 h.cls ++ zeros 1 ++ u32 h.gaps ++ u16 ch.length ++ zeros 2
      ++ ch.flatMap (fun k => u16 k ++ iN 2 (vals.getD k 0))), true)
  else (s, false)

/-- SK flags go to the trigger units (R213). -/
def State.skFlags (s : State) (v x : Nat) (c : Interval) (h : RecordHead) : State :=
  bif c.field Reg.DVW_DEST_SKTRIG == 1 && c.field Reg.DVW_CTRL_DET == 6 then
    let cells := (upto c.width).map (fun k =>
      let sk := skOf (c.powers k)
      sk != 0xFFFF && (lt sk (c.field Reg.DVW_SK_SK_LO) || lt (c.field Reg.DVW_SK_SK_HI) sk))
    let f : SkFlags := ⟨h.q, h.first, h.len, h.tag, h.tq, h.cls != 0, cells, h.pgen, c.e0, c.grid.wrap c.e1, c.grid.turn, c.grid.hop⟩
    let s := { s with det := { s.det with sk := tinsert s.det.sk (256 * v + x) (some f) } }
    bif cells.any id then s.viewEv v 278 else s
  else s

/-- The interval `c` of a step that thins by emission is one of those emitted (R228). -/
def Interval.emitted (c : Interval) : Bool :=
  let n := max 1 (c.field Reg.DVW_INT_N)
  c.q % 2 ^ (c.step - lengthStep (c.field Reg.DVW_CTRL_DET) n c.step) == 0

/-- A record of the view's input counts toward INTCNT; the last one of the last input makes the view DONE (R217). -/
def State.viewCount (s : State) (v x : Nat) : State :=
  let k := s.viewField v Reg.DVW_CTRL_INTCNT
  let y := s.vin v x
  let y := { y with count := y.count + 1 }
  bif k != 0 && le k y.count then
    let s := s.setVin v x { y with fin := true, cur := none, closed := [], held := [] }
    bif s.get (viewState v) == 2 && (s.viewInputs v).all (fun x => (s.vin v x).fin) then
      (s.put (viewState v) 4).viewEv v 273
    else s
  else s.setVin v x y

/-- The body of an interval's full or map record (R233). -/
def Interval.body (c : Interval) (v x : Nat) (h : RecordHead) (vals : List Byte) : List Byte :=
  let det := c.field Reg.DVW_CTRL_DET
  if det = 7 ∨ det = 8 then fullBody v x 2 0 c h vals (if det = 7 ∧ c.field Reg.DVW_CTRL_HWID = 1 then 5 else 4) c.raster.length
  else fullBody v x 1 0 c h vals (if det = 6 then 4 else c.field Reg.DVW_CTRL_VFMT + 1) c.width

/-- The record of a closed interval is formed (R219, R223 to R234); a quiet change-only interval leaves none. -/
def State.formRecord (s : State) (v x : Nat) (c : Interval) : State :=
  bif c.emitted then
    let vals := c.values
    let h := s.recordHead x c vals.2
    let s := s.skFlags v x c h
    let r := bif c.field Reg.DVW_CTRL_DELTA == 1 then s.deltaRecord v x c h else (s.viewRecord v c (c.body v x h vals.1), true)
    bif r.2 then
      let s := bif bit h.flags 1 then (r.1.count Reg.DET_FF_COUNT.z 1).viewEv v 276 else r.1
      s.viewCount v x
    else r.1
  else s

/-- Interval `a` of entry `x` comes before interval `b` of entry `z` in the view's order of records (R219). -/
def recordBefore (a b : Interval) (x z : Nat) : Bool :=
  let m := ceilDiv a.grid.turn a.len
  let d := (b.q + m - a.q % m) % m
  (decide (0 < d) && decide (2 * d < m)) || (d == 0 && lt x z)

/-- The entries of view `v`. -/
def State.viewEntries (s : State) (v : Nat) : List Nat := (s.det.ins.filter (fun e => e.1 / 256 == v)).map (fun e => e.1 % 256)

/-- No interval of another entry of view `v` is to be recorded before `c` of entry `x` (R219): none closed, and none under way where the
entry's input is enabled. -/
def State.inTurn (s : State) (v x : Nat) (c : Interval) : Bool :=
  (s.viewEntries v).all (fun z => z == x ||
    (let y := s.vin v z
     let live := y.running && s.on (Reg.ING_LMAP_EN.e (s.sampleInput v z))
     (y.held ++ y.closed ++ (if live then y.cur.toList else [])).all (fun d => !recordBefore d c z x)))

/-! ### Clears, deadlines, steps and the swap (R214, R218, R222, R227 to R229, R707) -/

/-- At the closing deadline the interval under way closes, or the first one of an entry that still waits for it (R218). -/
def execIntervalDeadline (v x : Nat) (s : State) : Res :=
  .next <| bif (s.viewsOf (s.viewField v Reg.DVW_CTRL_PLANE) x).contains v then
      let g := s.planeGrid (s.viewField v Reg.DVW_CTRL_PLANE) x
      let y := s.vin v x
      let s := bif y.running || y.startOn.isNone then s else s.viewRun v x g y.startAt
      match (s.vin v x).cur with
      | some c => s.nextInterval v x c
      | none => s
    else s

/-- A write of 1 to DVW_CLR.HOLD (R214). -/
def execDvwClrHold (v : Nat) (s : State) : Res :=
  .next <| (s.viewInputs v).foldl (fun s x =>
    s.setVin v x { s.vin v x with sum := { (s.vin v x).sum with holdClr := true } }) s

/-- A write of 1 to DVW_CLR.PERSIST (R222). -/
def execDvwClrPersist (v : Nat) (s : State) : Res :=
  .next <| (s.viewInputs v).foldl (fun s x => s.setVin v x { s.vin v x with sum := { (s.vin v x).sum with persist := [] } }) s

/-- The plane of view `v` has indices at entry `x`. -/
def State.viewIndexed (s : State) (v x : Nat) : Bool :=
  !(s.inp (s.sampleInput v x)).models.isEmpty && (s.viewField v Reg.DVW_CTRL_PLANE != 3 || (s.tuner x).chain.isSome)

/-- One entry of view `v` waits for the first interval boundary at or after instant `t` (R217). -/
def State.viewWait (s : State) (v x t : Nat) (y : ViewIn) : State :=
  let g := s.planeGrid (s.viewField v Reg.DVW_CTRL_PLANE) x
  let y := { y with running := false, startOn := none, cur := none, prev := none, lates := [], mark := none, anchored := false }
  s.setVin v x (bif s.viewIndexed v x then
    y.waitAt g (g.boundary (s.viewN v y.step) (g.indexAt (s.indexAt (s.sampleInput v x) t))) else y)

/-- The view starts: every selected entry begins anew, WAITING. -/
def State.viewStart (s : State) (v t : Nat) : State :=
  let s := s.put (viewState v) 1
  (s.viewInputs v).foldl (fun s x => s.viewWait v x t { ViewIn.reset with step := s.get (Reg.DVW_STAT_STEP.e v) }) s

/-- The register fields of a view descriptor. -/
def viewFields : List Fld :=
  [Reg.DVW_CTRL_EN, Reg.DVW_INT_N, Reg.DVW_RECT0_K0, Reg.DVW_RECT1_J0, Reg.DVW_MASK_SEL, Reg.DVW_MAP0_ROWS,
   Reg.DVW_MAP1_TOP, Reg.DVW_PERS_HIT, Reg.DVW_DELTA_EMPTY, Reg.DVW_DEST_SEN, Reg.DVW_SK_SK_HI]

/-- A spectrum already delivered, as the new bank's descriptor takes it. -/
def State.retake (s : State) (v x : Nat) (t : Taken) : Taken :=
  let same (p : Spectrum) : Bool := p.first == t.first && p.len == t.len && p.gen == t.gen && p.cgen == t.cgen
  match s.viewField v Reg.DVW_CTRL_PLANE with
  | 0 => (((s.specs 2 x).find? same).map (s.cellsOf v)).getD t
  | 1 => (((s.specs 0 x).find? same).map (s.cellsOf v)).getD t
  | 2 => (((s.fin x).specs.find? same).bind (s.fineCells v x)).getD t
  | _ => t

/-- The interval under way takes spectrum `t` into its maps and holds once more. -/
def State.retakeMap (s : State) (v x : Nat) (t : Taken) : State := (s.takeInto v x t).viewMaps v x t

/-- A continuing entry passes to the new bank: what is under way begins anew at index `e` of grid `g` with spectra `ts`; the persistence
raster and the hold start anew (R214, R222). -/
def State.viewCarry (s : State) (v x : Nat) (g : PlaneGrid) (e : Nat) (ts : List Taken) : State :=
  let y := s.vin v x
  let s := (s.setVin v x { y with anchored := false, mark := none, sum := ViewSum.reset, lates := y.lates.filter (le e) }).openInterval
    v x g e
  ts.foldr (fun t s => s.retakeMap v x (s.retake v x t)) s

/-! ### Stores (R208, R209) -/

/-- a_det of R216. -/
def detBytes (det : Nat) (wide : Bool) : Nat :=
  match det with
  | 2 => 8
  | 3 => 6
  | 6 => 18
  | 7 => if wide then 4 else 2
  | 8 => 2
  | _ => 4

/-- The number of entries a view of bank `b` selects. -/
def viewX (b : BankView) (v : Nat) : Nat := sumOf ((upto 4).map (fun w => popcount 32 (b.get (Reg.DVW_MASK_SEL.e2 v w))))

/-- W of a view of bank `b` (R206). -/
def viewWidth (b : BankView) (v : Nat) : Nat :=
  let p := b.get (Reg.DVW_CTRL_PLANE.e v)
  if p = 3 then 1 else b.get (Reg.DVW_RECT0_KCNT.e v) * (if p = 2 then b.get (Reg.DVW_RECT1_JCNT.e v) else 1)

/-- The bytes of a view's store (R209). -/
def storeBytes (b : BankView) (v : Nat) : Nat :=
  let det := b.get (Reg.DVW_CTRL_DET.e v)
  let cells := if det = 7 || det = 8 then b.get (Reg.DVW_MAP0_ROWS.e v) * b.get (Reg.DVW_MAP0_COLS.e v) else viewWidth b v
  2 * viewX b v * cells * detBytes det (b.on (Reg.DVW_CTRL_HWID.e v)) + viewX b v * viewWidth b v * 2 * b.get (Reg.DVW_CTRL_DELTA.e v)

/-- The enabled views of a bank. -/
def viewsOn (b : BankView) : List Nat := (upto 1024).filter (fun v => b.on (Reg.DVW_CTRL_EN.e v))

/-- Each view's store whole in the lowest-numbered gallery with room, in ascending view order (R209): (view, gallery, bytes),
gallery 8 for none; `used` holds the bytes already taken in each gallery of `size` bytes. -/
def placeStores (b : BankView) (size : Nat) (used : List Nat) : List (Nat × Nat × Nat) :=
  ((viewsOn b).foldl (fun a v =>
    let n := storeBytes b v
    let g := ((upto 8).find? (fun g => le (a.1.getD g 0 + n) size)).getD 8
    (a.1.set g (a.1.getD g 0 + n), a.2 ++ [(v, g, n)])) (used, [])).2

/-- The bank in which a draining view's descriptor still stands. -/
def State.drainBank (s : State) (v : Nat) (ws : List Word) : BankView :=
  let o0 := (Reg.DVW_CTRL_EN.e v).off
  ⟨fun o => bif le o0 o && lt o (o0 + 64) then ws.getD ((o - o0) / 4) 0 else s.word o, 0⟩

/-- The views still draining, with their old descriptors (19 R572). -/
def State.drainingViews (s : State) : List (BankView × Nat) := s.det.drains.map (fun e => (s.drainBank e.1 e.2, e.1))

/-- DET_SRAM: the bytes of the placed stores and of the draining ones. -/
def State.storeSync (s : State) : State :=
  (upto 8).foldl (fun s g => s.put (Reg.DET_SRAM_BYTES.e g)
    (sumOf ((s.det.stores.filter (fun p => p.2.1 == g)).map (·.2.2))
      + sumOf ((s.drainingViews.filter (fun p => p.1.get (Reg.DVW_STAT_GAL.e p.2) == g)).map (fun p => storeBytes p.1 p.2)))) s

/-! ### Swaps and steps -/

/-- The last view has swapped: the block takes the bank, EV279 (R227). -/
def State.detDone (s : State) : State :=
  bif s.maySwap .detect && s.det.left.isEmpty then
    ((s.swapWhere .detect (fun _ => true)).flag Reg.DET_STAT_SWPEND.z false).ev 279 |>.swapDone .detect
  else s

/-- A spectrum's window begins at or after the commit instant. -/
def State.afterCommit (s : State) (v x : Nat) (t : Taken) : Bool := !lt (s.pinTag (s.sampleInput v x) t.first) s.commitAt

/-- The interval under way of entry `x` begins at or after the commit instant, or holds nothing yet (R227). -/
def State.atBoundary (s : State) (v x : Nat) : Bool :=
  match (s.vin v x).cur with
  | some c => c.specs.isEmpty || !lt (s.pinTag (s.sampleInput v x) (toU 48 (c.grid.span c.e0).1)) s.commitAt
  | none => true

/-- What entry `x` passes to the new bank when its view swaps (R227): the grid, the first index of the next interval, and the spectra
already taken into it. A cut interval passes on those whose windows begin at or after the instant. -/
def State.viewKept (s : State) (v x : Nat) (cut : Bool) : Option (PlaneGrid × Nat × List Taken) :=
  (s.vin v x).cur.map (fun c =>
    let l := if cut then c.specs.filter (s.afterCommit v x) else c.specs
    (c.grid, (bif cut then (match l.getLast? with
      | some t => t.e
      | none => (match c.specs.head? with
        | some t => t.e + 1
        | none => c.e0)) else c.e0), l))

/-- The hits of spectrum `t` on the density map of an interval (R220, R221). -/
def Interval.hits (c : Interval) (r : List Nat) (t : Taken) : List Nat × Nat × Nat :=
  hitAll r t.pw (c.field Reg.DVW_MAP0_ROWS) (c.field Reg.DVW_MAP0_COLS) 1 (if c.field Reg.DVW_CTRL_HWID = 1 then 2 ^ 32 - 1 else 2 ^ 16 - 1)
    (sext 16 (c.field Reg.DVW_MAP1_TOP)) (c.field Reg.DVW_MAP1_STEP) (c.field Reg.DVW_CTRL_LOWCLIP == 1)

/-- The interval with the spectra `l` alone. -/
def Interval.recount (c : Interval) (l : List Taken) : Interval :=
  if l.length = c.specs.length ∨ c.field Reg.DVW_CTRL_DET ≠ 7 then { c with specs := l }
  else
    let r := l.foldr (fun t r => (c.hits r t).1) (List.replicate c.raster.length 0)
    { c with specs := l, raster := r, full := r.any (· == if c.field Reg.DVW_CTRL_HWID = 1 then 2 ^ 32 - 1 else 2 ^ 16 - 1) }

/-- The interval under way of entry `x` is closed short at the last spectrum whose window begins before the commit instant (R227). -/
def State.viewCut (s : State) (v x : Nat) : State :=
  let y := s.vin v x
  match y.cur with
  | none => s
  | some c =>
    let l := c.specs.filter (fun t => !s.afterCommit v x t)
    (s.setVin v x { y with cur := some (c.recount l), sum := y.mark.getD y.sum }).closeInterval v x true

/-- The views' commits that leave entry `x` where it is: its plane and its bit of the mask are the same. -/
def State.samePlane (s : State) (v : Nat) (words : List Word) : Bool :=
  let at_ (w : Word) : Nat := w.toNat / 2 ^ 26 % 16
  at_ ((s.viewWords v).headD 0) == at_ (words.headD 0)

/-- The entry starts again at step `k`, with the records it still has to give. -/
def ViewIn.anew (y : ViewIn) (k : Nat) : ViewIn := { ViewIn.reset with closed := y.closed, held := y.held, step := k }

/-- The view that feeds layer `l` of output `o` (17 R522). -/
def State.layerView (s : State) (o l : Nat) : Option Nat :=
  (upto 1024).find? (fun v => s.on (Reg.DVW_CTRL_EN.e v) && s.on (Reg.DVW_DEST_CEN.e v) && s.get (Reg.DVW_DEST_CANOUT.e v) == o
    && s.get (Reg.DVW_DEST_LAYER.e v) == l)

/-- DSP_LSTAT.VIEW of a layer shows the view that feeds it (17 R542). -/
def State.feedSync (s : State) (o l : Nat) : State := s.put (Reg.DSP_LSTAT_VIEW.e2 o l) ((s.layerView o l).getD 1023)

/-- The output and the layer that view `v` names. -/
def State.viewLayer (s : State) (v : Nat) : Nat × Nat := (s.viewField v Reg.DVW_DEST_CANOUT, s.viewField v Reg.DVW_DEST_LAYER)

/-- The bank of view `v` swaps, with CUT the intervals under way are cut first (R227), and a canvas that shows it follows. -/
def State.viewBank (s : State) (v : Nat) : State :=
  let place := s.viewLayer v
  let s := bif (s.stagedView .detect).on (Reg.DVW_CTRL_CUT.e v) then (s.viewInputs v).foldl (fun s x => s.viewCut v x) s else s
  let s := s.swapWhere .detect (ofElem viewFields v)
  let s := (s.feedSync place.1 place.2).feedSync (s.viewLayer v).1 (s.viewLayer v).2
  { s with det := { s.det with left := s.det.left.filter (· ≠ v) } }

/-- A running view goes on under its new settings: `olds` are the inputs it had, `kept` what their intervals hand over (R227). -/
def State.viewGoes (s : State) (v : Nat) (olds : List Nat) (kept : List (Nat × Option (PlaneGrid × Nat × List Taken))) (same : Bool) :
    State :=
  let s := olds.foldl (fun s x => bif (s.viewInputs v).contains x && same then s
    else s.setVin v x { s.vin v x with cur := none, fin := true }) s
  (s.viewInputs v).foldl (fun s x =>
    match (kept.find? (fun k => k.1 == x && same)).bind (·.2) with
    | some k => s.viewCarry v x k.1 k.2.1 k.2.2
    | none => s.viewWait v x s.commitAt
        (if same ∧ olds.contains x then s.vin v x else (s.vin v x).anew (s.get (Reg.DVW_STAT_STEP.e v)))) s

/-- A disabled view drains under the settings `words` it had (R227). -/
def State.viewDrain (s : State) (v : Nat) (olds : List Nat) (words : List Word) : State :=
  let st := s.get (viewState v)
  let s := { s with det := { s.det with drains := (if st = 3 then s.det.drains else tset (fun _ => []) s.det.drains v words),
                                        stores := s.det.stores.filter (fun p => p.1 != v),
                                        restart := s.det.restart.filter (· ≠ v) } }
  olds.foldl (fun s x => s.setVin v x { s.vin v x with cur := none, running := false }) (s.put (viewState v) 3)

/-- View `v` swaps (R227). -/
def State.viewSwapNow (s : State) (v : Nat) : State :=
  let was := s.on (Reg.DVW_CTRL_EN.e v)
  let words := s.viewWords v
  let olds := s.viewInputs v
  let cut := (s.stagedView .detect).on (Reg.DVW_CTRL_CUT.e v)
  let kept := olds.map (fun x => (x, s.viewKept v x cut))
  let s := s.viewBank v
  let now := s.on (Reg.DVW_CTRL_EN.e v)
  let st := s.get (viewState v)
  let s := bif now && (!was || (st == 4 && s.viewWords v != words)) then
      bif st == 3 then { s with det := { s.det with restart := v :: s.det.restart } } else s.viewStart v s.commitAt
    else bif now && st == 2 then s.viewGoes v olds kept (s.samePlane v words)
    else bif now && st == 1 then s.viewStart v s.commitAt
    else bif was && !now then s.viewDrain v olds words
    else s
  s.storeSync.detDone

/-- VIEW_SWAP: at its interval boundary, or with CUT at once (R227). -/
def execViewSwap (v : Nat) (s : State) : Res :=
  .next <| bif s.maySwap .detect && s.det.left.contains v
      && ((s.viewInputs v).all (s.atBoundary v) || (s.stagedView .detect).on (Reg.DVW_CTRL_CUT.e v)) then s.viewSwapNow v
    else s

/-- The commit's instant arrives: views that no bank enables, and every view outside Full mode, swap at once. -/
def State.detCommit (s : State) : State :=
  bif s.maySwap .detect then
    let b := s.stagedView .detect
    let on := (upto 1024).filter (fun v => s.on (Reg.DVW_CTRL_EN.e v) || b.on (Reg.DVW_CTRL_EN.e v))
    let s := ({ s with det := { s.det with left := on } })
    let s := bif s.get Reg.PWR_STAT_MODE.z == 4 then s else on.foldl State.viewSwapNow s
    s.detDone
  else s

/-- Every record of view `v` has been formed. -/
def State.viewEmpty (s : State) (v : Nat) : Bool :=
  (s.viewEntries v).all (fun x => (s.vin v x).closed.isEmpty && (s.vin v x).held.isEmpty)

/-- A disabled view has emitted its last records and its store has drained: OFF, or the start a commit left for this moment (R227). -/
def execViewDrained (v : Nat) (s : State) : Res :=
  .next <| bif s.get (viewState v) == 3 && s.viewEmpty v then
      let s := { s with det := { s.det with drains := terase s.det.drains v } }.storeSync
      bif s.det.restart.contains v then
        { s with det := { s.det with restart := s.det.restart.filter (· ≠ v) } }.viewStart v s.now
      else s.put (viewState v) 0
    else s

/-- A view adopts the ordered step at index `e`, a boundary of the new interval length (R229). -/
def execViewRateStep (v x e : Nat) (s : State) : Res :=
  let y := s.vin v x
  .next <| match tget (fun _ => none) s.det.ordered v with
    | none => s
    | some k =>
      let fresh := match y.cur with
        | some c => c.specs.isEmpty && c.e0 == e
        | none => true
      bif e % (max 1 (s.viewField v Reg.DVW_INT_N) * 2 ^ k) == 0 && fresh && y.step != k then
        let s := s.setVin v x { y with step := k }
        let s := match y.cur with
          | some c => s.openInterval v x c.grid e
          | none => s
        let s := bif s.get (Reg.DVW_STAT_STEP.e v) == k then s else (s.put (Reg.DVW_STAT_STEP.e v) k).viewEv v 280
        bif (s.viewInputs v).all (fun z => (s.vin v z).step == k) then
          { s with det := { s.det with ordered := tset (fun _ => none) s.det.ordered v none } }
        else s
      else s

/-- At entry to Watch or Sleep every running view closes the interval under way short (R707). -/
def State.viewIdle (s : State) : State :=
  (upto 1024).foldl (fun s v =>
    bif s.get (viewState v) == 2 then
      (s.viewInputs v).foldl (fun s x => let s := s.closeInterval v x true
                                         s.setVin v x { s.vin v x with cur := none, running := false }) (s.put (viewState v) 1)
    else s) s

/-- At entry to Full each enabled view waits for its first interval boundary (R707). -/
def State.viewWake (s : State) : State :=
  (upto 1024).foldl (fun s v =>
    bif s.get (viewState v) == 1 then (s.viewInputs v).foldl (fun s x => s.viewWait v x s.now (s.vin v x)) s else s) s

end Sys2Proof.Machine
end

