-- ==== Sys2Proof/Machine/Triggers.lean ====
section
/-!
DEFINITION. Trigger units (09_triggers.md): products and conditions, qualification, gates, arming, TRIG_IN and TRIG_OUT pins,
the record queue, and the swap. What a firing does stands in Fire.lean.
-/
namespace Sys2Proof.Machine

def unitState (u : Nat) : Loc := Reg.TRG_USTAT_STATE.e u
/-- A flag of TRG_USTAT changes from 0 to 1 with the unit's event (R294). -/
def State.unitFlag (s : State) (u : Nat) (f : Fld) : State :=
  bif s.on (f.e u) then s else (s.flag (f.e u) true).ev (296 + u)

def State.group (s : State) (g : Nat) : TrigGroup := tget (fun _ => TrigGroup.reset) s.trg.groups g
def State.setGroup (s : State) (g : Nat) (x : TrigGroup) : State :=
  { s with trg := { s.trg with groups := tset (fun _ => TrigGroup.reset) s.trg.groups g x } }
def State.pin (s : State) (p : Nat) : TrigOut := tget (fun _ => TrigOut.reset) s.trg.pins p
def State.setPin (s : State) (p : Nat) (x : TrigOut) : State :=
  { s with trg := { s.trg with pins := tset (fun _ => TrigOut.reset) s.trg.pins p x } }

/-- The bank unit `u` runs on (R291): the staged one once it has swapped. -/
def State.trgBank (s : State) (u : Nat) : BankView :=
  bif s.maySwap .triggers && !s.trg.left.contains u then s.stagedView .triggers else s.liveView .triggers

/-! ### Conditions (R268, R269) -/

/-- A value compared with levels: an integer, or a magnitude given by its square. -/
structure Level where
  square : Bool
  v : Int

/-- v ≥ l. -/
def Level.ge (x : Level) (l : Int) : Bool := if x.square then decide (l ≤ 0 ∨ l * l ≤ x.v) else decide (l ≤ x.v)
/-- v > l. -/
def Level.gt (x : Level) (l : Int) : Bool := if x.square then decide (l < 0 ∨ l * l < x.v) else decide (l < x.v)

/-- A product meets the level condition (R268); `edge` and `run` from before it. -/
def levelMet (mode : Nat) (x : Level) (lvl : Int) (edge count : Nat) : Bool :=
  match mode with
  | 0 => x.ge lvl
  | 1 => !x.gt lvl
  | 2 => x.ge lvl && (edge == 1 || lt 0 count)
  | 3 => !x.gt lvl && (edge == 2 || lt 0 count)
  | 4 => x.ge lvl
  | _ => false

/-- The edge state after a product (R268). -/
def edgeAfter (mode : Nat) (x : Level) (lvl : Int) (hys edge : Nat) : Nat :=
  if mode = 2 then (if x.ge lvl then 2 else if !x.ge (lvl - hys) then 1 else edge)
  else if mode = 3 then (if !x.gt lvl then 1 else if x.gt (lvl + hys) then 2 else edge)
  else edge

/-- The mask limits of cell `c` for unit `u` (R269): upper and lower. -/
def State.maskLimits (s : State) (u c : Nat) : Int × Int :=
  let slot := s.get (Reg.TRG_UMSK_SLOT.e u)
  bif slot == 0xFF then (s.getI (Reg.TRG_UFLAT_UP.e u), s.getI (Reg.TRG_UFLAT_LO.e u))
  else
    let b := s.trgBank u
    (sext 16 (b.get (Reg.TRG_MSK_UP.e2 slot c)), sext 16 (b.get (Reg.TRG_MSK_LO.e2 slot c)))

/-- The violating cells among cell levels (R269). -/
def State.violations (s : State) (u : Nat) (ls : List Int) : List Nat :=
  (ls.zip (upto ls.length)).filterMap (fun c =>
    let m := s.maskLimits u c.2
    if m.1 < c.1 ∨ c.1 < m.2 then some c.2 else none)

/-! ### Products (R266) -/

/-- A product as its unit judges it: index, condition tag and TQ, span length, partial, cells met, for LEVEL and TUNER its value, and
its place among the products of its element. -/
structure Product where
  idx : Nat
  tag : Nat
  tq : Nat
  len : Nat
  part : Bool
  cells : List Nat
  level : Option Level
  place : TrigPlace

/-- A product follows the one at `l` without a skipped index: the next number of its grid, 0 after the last one, or the second product
of a split pair (R271, R275, 06 R200). -/
def TrigPlace.follows (p l : TrigPlace) : Bool :=
  p.pitch == l.pitch && p.turn == l.turn
    && (p.num == l.next || (p.num == l.num && p.first == l.first && p.gen == l.gen && p.cgen != l.cgen))

/-- A product has not been judged where the last one judged is at `l`. -/
def TrigPlace.after (p l : TrigPlace) : Bool :=
  p.follows l
    || (if p.pitch = l.pitch ∧ p.turn = l.turn then
          let d := (p.num + p.turn - l.num) % p.turn
          lt 0 d && lt (2 * d) p.turn
        else idxBefore l.first p.first)

/-- The place of a product of a source whose indices count without a grid. -/
def TrigPlace.plain (e first gen : Nat) : TrigPlace := ⟨e, (e + 1) % idxMod, idxMod, 0, first, gen, gen⟩

/-- The place of a spectrum. -/
def Spectrum.place (p : Spectrum) : TrigPlace :=
  ⟨p.seq, (p.seq + 1) % max 1 p.turn, p.turn, p.pitch, p.first, p.gen, p.cgen⟩

/-- The cells of a spectrum in the rectangle of unit `u`, as levels. -/
def State.unitLevels (s : State) (u : Nat) (p : Spectrum) : List Int :=
  let k0 := s.get (Reg.TRG_URECT0_K0.e u)
  (upto (s.get (Reg.TRG_URECT0_KCNT.e u))).map (fun c => lp (power p.bits (p.bins.getD (k0 + c) (0, 0))) 1)

/-- A mask product of a spectrum. -/
def State.maskProduct (s : State) (u : Nat) (p : Spectrum) : Product :=
  ⟨p.idx, p.tag, p.tq, p.len, p.gaps != 0, s.violations u (s.unitLevels u p), none, p.place⟩

/-- The product of unit `u` with fine spectrum `p0` of its first bin, once every coarse bin of its rectangle has been delivered with the
same span and generations. -/
def State.fineProduct (s : State) (u n : Nat) (p0 : Spectrum) : Option Product :=
  let ps := (upto (s.get (Reg.TRG_URECT0_KCNT.e u))).map (fun k => s.fineBeside n p0 (s.get (Reg.TRG_URECT0_K0.e u) + k))
  if ps.all Option.isSome then
    let ps := ps.filterMap id
    let ls := ps.flatMap (fun p => ((p.bins.drop (s.get (Reg.TRG_URECT1_J0.e u))).take
      (s.get (Reg.TRG_URECT1_JCNT.e u))).map (fun z => lp (power p.bits z) 1))
    some ⟨p0.idx, p0.tag, p0.tq, p0.len, ps.any (fun p => p.gaps != 0), s.violations u ls, none, p0.place⟩
  else none

/-- The products of a plane at element `x`, index `e`, that have been delivered, oldest first (R266); a split pair of fine spectra gives
two (06 R200). -/
def State.unitProducts (s : State) (u x e : Nat) : List Product :=
  let full := s.get Reg.PWR_STAT_MODE.z == 4
  let sel := s.sel2 Reg.TRG_USEL_SEL u (x % 128)
  match s.get (Reg.TRG_UCFG_SRC.e u) with
  | 1 =>
    if !sel || !s.runs then []
    else (fastAt (s.inp x) e).toList.map (fun v =>
      let l : Level := if s.isC16 x then ⟨true, v.1 * v.1 + v.2 * v.2⟩
        else ⟨false, if s.get (Reg.TRG_UMSK_LMODE.e u) = 4 then (v.1.natAbs : Nat) else v.1⟩
      let tag := s.productTag x e 0
      ⟨e, tag, s.spanTq x e e tag, 1, false, [], some l, TrigPlace.plain e e 0⟩)
  | 2 => if !sel || !s.runs then [] else ((s.specs 2 x).reverse.filter (fun p => p.idx == e)).map (s.maskProduct u)
  | 3 => if !sel || !full then [] else ((s.specs 0 x).reverse.filter (fun p => p.idx == e)).map (s.maskProduct u)
  | 4 =>
    if !sel || !full then []
    else ((s.fin x).specs.reverse.filter (fun p => p.idx == e && p.bin == s.get (Reg.TRG_URECT0_K0.e u))).filterMap (s.fineProduct u x)
  | 5 =>
    if !sel || !full then []
    else ((tget (fun _ => none) s.det.sk (256 * s.get (Reg.TRG_UELEM_ELEM.e u) + x)).toList.filter (fun f => f.q == e)).map (fun f =>
      ⟨f.q, f.tag, f.tq, f.len, f.part, (f.cells.zip (upto f.cells.length)).filterMap (fun c => if c.1 then some c.2 else none),
       none, ⟨f.e0, f.e1, f.turn, f.pitch, f.first, f.cgen, f.cgen⟩⟩)
  | 6 =>
    if !sel || !full || decide (128 ≤ x) != s.on (Reg.TRG_UCFG_THI.e u) then []
    else ((s.tuner x).outs.reverse.filter (fun o => o.e == e && bit o.dest 29)).map (fun o =>
      ⟨e, o.tag, o.tq, o.len, o.part, [],
       some ⟨false, lp (power (fmtBits o.ofmt) o.v) 1⟩, TrigPlace.plain e o.first o.gen⟩)
  | _ => []

/-! ### Judging (R275 to R277) -/

/-- The gate of unit `u` is open (R276). -/
def State.gateOpen (s : State) (u : Nat) : Bool :=
  let g := s.get (Reg.TRG_UGATE_GIDX.e u)
  match s.get (Reg.TRG_UGATE_GMODE.e u) with
  | 0 => true
  | 1 => s.get (Reg.TIN_STAT_LEVEL.e (g % 8)) == s.get (Reg.TRG_UGATE_GPOL.e u)
  | 2 => match (s.unit g).dec with
         | some d => le (toU 96 ((s.now : Int) - d)) (ns48 (10 * s.get (Reg.TRG_UGATE_GWIN.e u)))
         | none => false
  | _ => false

/-- Every count is 0. -/
def TrigUnit.idle (x : TrigUnit) : Bool := x.single.count == 0 && x.elems.all (fun e => e.2.run.count == 0)

/-- Every count set to 0. -/
def TrigUnit.cleared (x : TrigUnit) : TrigUnit :=
  { x with single := TrigRun.reset, elems := x.elems.map (fun e => (e.1, { e.2 with run := TrigRun.reset })) }

/-- A satisfying product suppressed (R277). -/
def State.suppress (s : State) (u : Nat) : State :=
  let s := s.count (Reg.TRG_USUPP_COUNT.e u) 1
  s.setUnit u { s.unit u with supp := satAdd 32 (s.unit u).supp 1 }

/-- A satisfying product with its run so far, judged in the unit's state (R275, R277). -/
def State.satisfied (s : State) (u x : Nat) (d : TrigDone) : State :=
  let y := s.unit u
  let st := s.get (unitState u)
  match y.comp with
  | some c =>
    bif c.at_ == s.tb.acc && c.elem != x && le (s.get (Reg.TRG_UCFG_QCNT.e u)) d.run.count then
      s.setUnit u { y with comp := some (if x < c.elem then { d with multi := true } else { c with multi := true }) }
    else s.suppress u
  | none =>
    bif st == 3 || st == 4 then s.suppress u
    else bif le (s.get (Reg.TRG_UCFG_QCNT.e u)) d.run.count then s.setUnit u { y with comp := some d }
    else bif st == 1 then s.put (unitState u) 2 else s

/-- The state in which unit `u` judges a product: one armed from DISARMED in this very cycle is DISARMED to its end (R279). -/
def State.judgedIn (s : State) (u : Nat) : Nat := if (s.unit u).armAt = some s.tb.acc then 0 else s.get (unitState u)

/-- A product of a plane at an element (R266 to R276). -/
def State.judge1 (s : State) (u x : Nat) (p : Product) : State :=
  let y := s.unit u
  let el := tget (fun _ => TrigElem.reset) y.elems x
  let st := s.judgedIn u
  let src := s.get (Reg.TRG_UCFG_SRC.e u)
  let next := match el.last with
    | some l => p.place.follows l
    | none => false
  let lvl := if s.isC16 x && src == 1 then (s.get (Reg.TRG_ULVL_LVL.e u) : Int) else s.getI (Reg.TRG_ULVL_LVL.e u)
  let hys := s.get (Reg.TRG_ULVL_HYS.e u)
  let mode := s.get (Reg.TRG_UMSK_LMODE.e u)
  let edge := if next && !p.part then el.edge else 0
  let run := if next then el.run else TrigRun.reset
  let ok := s.gateOpen u && (!p.part || s.on (Reg.TRG_UCFG_PARTOK.e u)) && (match p.level with
    | some v => levelMet mode v lvl edge run.count
    | none => le (s.get (Reg.TRG_UMSK_NVIOL.e u)) p.cells.length)
  let edge2 := match p.level with
    | some v => edgeAfter mode v lvl hys edge
    | none => edge
  let live := (st == 1 || st == 2) && y.comp.isNone
  let run2 : TrigRun :=
    if !ok then TrigRun.reset
    else if run.count = 0 then ⟨1, p.idx, p.place.first, p.part, [(p.place.first, p.len)]⟩
    else ⟨run.count + 1, run.first, run.sample, run.part || p.part, (p.place.first, p.len) :: run.spans⟩
  let same := match y.comp with
    | some c => c.at_ == s.tb.acc
    | none => false
  let s := s.setUnit u { y with elems := tinsert y.elems x ⟨edge2, some p.place, if live || same then run2 else TrigRun.reset⟩ }
  let d : TrigDone := ⟨s.tb.acc, x, p.idx, p.tag, p.tq, p.cells.length, p.cells.headD 0xFFFF, run2, false, false, false, []⟩
  let s := bif st == 0 || !ok then s else s.satisfied u x d
  bif s.get (unitState u) == 2 && (s.unit u).comp.isNone && (s.unit u).idle then s.put (unitState u) 1 else s

/-- A product of a discrete source (R274, R275). -/
def State.judgePulse (s : State) (u : Nat) (p : TrigPulse) : State :=
  let y := s.unit u
  let st := s.judgedIn u
  bif st == 0 || !s.gateOpen u then s
  else
    let r := y.single
    let r2 : TrigRun := if r.count = 0 then ⟨1, p.idx, 0, false, []⟩ else { r with count := r.count + 1 }
    let live := (st == 1 || st == 2) && y.comp.isNone
    let s := bif live then s.setUnit u { y with single := r2 } else s
    s.satisfied u (s.get (Reg.TRG_UELEM_ELEM.e u))
      ⟨s.tb.acc, s.get (Reg.TRG_UELEM_ELEM.e u), p.idx, p.tag, p.tq, 0, 0xFFFF, r2, false, false, false, p.body⟩

/-- A product reaches unit `u` (R275): of a plane at element `x` and index `e`, later than the last one judged, or the next
of a discrete source. -/
def execTriggerProduct (u x e : Nat) (s : State) : Res :=
  let y := s.unit u
  .next <| bif !s.on (Reg.TRG_UCFG_EN.e u) || !lt u 32 || !s.runs then s
    else bif lt 6 (s.get (Reg.TRG_UCFG_SRC.e u)) then
      match y.queue with
      | [] => s
      | p :: rest => (s.setUnit u { y with queue := rest }).judgePulse u p
    else
      let fresh (p : Product) : Bool := match (tget (fun _ => TrigElem.reset) y.elems x).last with
        | some l => p.place.after l
        | none => true
      match (s.unitProducts u x e).find? fresh with
      | some p => s.judge1 u x p
      | none => s

/-! ### Arming and disarming (R277, R281) -/

/-- The enabled members of group `g`. -/
def State.members (s : State) (g : Nat) : List Nat :=
  (upto 32).filter (fun u => s.on (Reg.TRG_UCFG_EN.e u) && s.on (Reg.TRG_UCFG_GRPEN.e u) && s.get (Reg.TRG_UCFG_GRP.e u) == g)

/-- The group whose settings are in force: those of its master's bank (R291). -/
def State.groupBank (s : State) (g : Nat) : BankView := s.trgBank (s.get (Reg.TRG_GCFG_MASTER.e g))

/-- The group `u` belongs to, if it is in use. -/
def State.groupOf (s : State) (u : Nat) : Option Nat :=
  let g := s.get (Reg.TRG_UCFG_GRP.e u)
  if s.on (Reg.TRG_UCFG_GRPEN.e u) && (s.groupBank g).on (Reg.TRG_GCFG_EN.e g) then some g else none

/-- `u` is the master of its group. -/
def State.masterOf (s : State) (u : Nat) : Option Nat :=
  (s.groupOf u).filter (fun g => (s.groupBank g).get (Reg.TRG_GCFG_MASTER.e g) == u)

/-- The arm number that records of unit `u` carry: its own, `a`, or that of its group (R281). -/
def State.armNumber (s : State) (u a : Nat) : Nat :=
  match s.groupOf u with
  | some g => (s.group g).arm
  | none => a

/-- One unit is armed; an arm during a firing or its hold-off is held pending (R277), and a disarm in the same cycle wins (R279). -/
def State.armUnit (s : State) (u : Nat) : State :=
  let st := s.get (unitState u)
  let y := s.unit u
  bif !s.on (Reg.TRG_UCFG_EN.e u) then s
  else bif st == 0 then
    bif y.offAt == some s.tb.acc then s
    else
      let a := (y.arm + 1) % 2 ^ 32
      (s.setUnit u { y.cleared with arm := a, armRec := s.armNumber u a, disarm := false, armAt := some s.tb.acc }).put (unitState u) 1
  else bif st == 3 || st == 4 || y.comp.isSome then s.flag (Reg.TRG_USTAT_ARMPEND.e u) true
  else s

/-- A group is armed under a new group arm number, or the number of a pair arm. -/
def State.armGroup (s : State) (g : Nat) (num : Option Nat) : State :=
  let k := num.getD (((s.group g).arm + 1) % 2 ^ 32)
  let s := s.setGroup g { s.group g with arm := k, fired := false, pend := none }
  (s.members g).foldl State.armUnit s

/-- The arm of a group by its master (R281, R282). A group that spans the pair is armed by the primary at its time base plus
ARMLEAD × 100 ns, and the arm is sent to the partner; another engine forwards a command arm, as an arm message without number and
tag. -/
def State.groupArm (s : State) (g : Nat) (command : Bool) : State :=
  let b := s.groupBank g
  bif !(b.on (Reg.TRG_GCFG_PAIR.e g) && s.inPair) then s.armGroup g none
  else bif dzRole s == 1 then
    let k := ((s.group g).arm + 1) % 2 ^ 32
    let tag := tagAdd s.now (ns48 (100 * b.get (Reg.TRG_GCFG_ARMLEAD.e g)) : Nat)
    (s.setGroup g { s.group g with pend := some (tag, k) }).sendCell 0x05 0 (u8 g ++ u32 k ++ u96 tag)
  else bif command then s.sendCell 0x05 0 (u8 g ++ zeros 16) else s

/-- One unit is disarmed (R277); one whose condition is complete fires and is disarmed afterwards (R279). -/
def State.disarmUnit (s : State) (u : Nat) : State :=
  let st := s.get (unitState u)
  let y := { s.unit u with offAt := some s.tb.acc }
  bif !s.on (Reg.TRG_UCFG_EN.e u) then s
  else bif st == 3 || y.comp.isSome then s.setUnit u { y with disarm := true }
  else bif st == 4 then
    (((s.flag (Reg.TRG_USTAT_ARMPEND.e u) false).setUnit u y.cleared).put (unitState u) 0)
  else (s.setUnit u y.cleared).put (unitState u) 0

/-- A disarm of a unit, of every member where it is its group's master (R281). -/
def State.disarm (s : State) (u : Nat) : State :=
  match s.masterOf u with
  | some g => (s.members g).foldl State.disarmUnit s
  | none => s.disarmUnit u

/-- A FIRST group is released (R281): every member not in `fires` becomes DISARMED. -/
def State.releaseGroup (s : State) (g : Nat) (fires : List Nat) : State :=
  ((s.members g).filter (fun u => !fires.contains u)).foldl (fun s u =>
    let st := s.get (unitState u)
    bif st == 1 || st == 2 then (s.setUnit u { (s.unit u).cleared with comp := none }).put (unitState u) 0
    else s) s

/-! ### TRIG_OUT pins (R285, R291) -/

/-- The settings TOUT_CFG in force on pin `p`. -/
def State.pinCfg (s : State) (p : Nat) : Nat :=
  (match (s.pin p).old with
    | some o => o.1
    | none => s.word (Reg.TOUT_CFG_EN.e p).off).toNat

/-- Pin `p` carries the witness's square wave, its own settings ignored (23 R680). -/
def State.waves (s : State) (p : Nat) : Bool := s.pair.wave == some p

/-- The pin shows its active level where EN and the fabric call for it, low where POL = 1; otherwise the other one. -/
def State.pinShow (s : State) (p : Nat) : State :=
  let x := s.pin p
  let v := (x.active && bit (s.pinCfg p) 31) != bit (s.pinCfg p) 30
  bif x.level == v then s
  else bif s.waves p then s.setPin p { x with level := v }
  else (s.setPin p { x with level := v }).emit (.trigOut p v s.now)

/-- The witness's square wave (23 R680): with WEN = 1 it is on pin WOUT while the control complex runs; a pin it leaves shows the level of
its own settings again. -/
def State.waveSync (s : State) : State :=
  let want := bif s.paired && s.dzOn Reg.DZ_CFG_WEN && s.alive then some (s.dzCfg Reg.DZ_CFG_WOUT) else none
  bif want == s.pair.wave then s
  else
    let s := match s.pair.wave with
      | some p => (s.emit (.witness p false)).emit (.trigOut p (s.pin p).level s.now)
      | none => s
    let s := { s with pair := { s.pair with wave := want } }
    match want with
    | some p => s.emit (.witness p true)
    | none => s

/-- The fabric calls for the active level of the pin, or no longer does. -/
def State.drive (s : State) (p : Nat) (v : Bool) : State :=
  (s.setPin p { s.pin p with active := v }).pinShow p

/-- A unit that pin `p` follows in mode HOLD is in a firing (R285). -/
def State.pinHeld (s : State) (p : Nat) : Bool :=
  (upto 32).any (fun u => bit (s.get (Reg.TOUT_SRC_UNITS.e p)) u && le 3 (s.get (unitState u)))

/-- Pins in mode HOLD follow the states of their units (R285). -/
def State.holdPins (s : State) : State :=
  (upto 8).foldl (fun s p => bif bits (s.pinCfg p) 28 2 == 2 then s.drive p (s.pinHeld p) else s) s

/-- The settings of the bank take hold of a pin without pulses (R291). -/
def State.pinTakes (s : State) (p : Nat) : State :=
  s.drive p (bits (s.pinCfg p) 28 2 == 2 && s.pinHeld p)

/-- A pulse of pin `p` whose end has come ends; from the switch-over point on the settings of the bank are in force (R291). -/
def State.pinEnd (s : State) (p : Nat) : State :=
  let x := s.pin p
  match x.ends with
  | some e =>
    bif serialBefore 96 s.now e then s
    else
      let o := match x.old with
        | some o => if serialBefore 96 s.now o.2 then x.old else none
        | none => none
      (s.setPin p { x with ends := none, old := o }).pinTakes p
  | none => s

/-- PW × 5 ns. -/
def pulse48 (w : Nat) : Nat := ns48 (5 * w)

/-- A pulse of `w` × 5 ns that begins at `at_` begins, or extends the one under way. -/
def State.pulse (s : State) (p w at_ : Nat) : State :=
  let s := s.pinEnd p
  let x := s.pin p
  let e := tagAdd at_ (pulse48 w : Nat)
  bif x.ends.isSome then (s.setPin p { x with ends := some e }).count (Reg.TOUT_STAT_MERGE.e p) 1
  else (s.setPin p { x with ends := some e }).drive p true

/-- The end of the last pulse of pin `p` under way or to come: at a commit, the switch-over point (R291). -/
def State.lastPulse (s : State) (p : Nat) : Nat :=
  let x := s.pin p
  let ends := x.ends.toList ++ x.sched.map (fun c => tagAdd c.1 (pulse48 c.2 : Nat))
  ends.foldl (fun a b => if serialBefore 96 a b then b else a) s.now

/-- Pin `p` receives a firing of unit `u` with condition tag `c` (R285, R291); true where its edge is late. -/
def State.pinFire (s : State) (p c : Nat) : State × Bool :=
  let w := s.get (Reg.TOUT_CFG_PW.e p)
  let x := s.pin p
  let mode := s.get (Reg.TOUT_CFG_MODE.e p)
  bif !s.on (Reg.TOUT_CFG_EN.e p) || le 2 mode then (s, false)
  else
    let at_ := tagAdd c (ns48 (s.get (Reg.TOUT_DLY_DLY.e p)) : Nat)
    let arrives := tagAdd s.now (16 * 2 ^ 48 / s.fcore : Nat)
    let late := mode == 1 && !serialBefore 96 (tagAdd arrives (ns48 27 : Nat)) at_ && at_ != tagAdd arrives (ns48 27 : Nat)
    let start := if mode = 1 && !late then at_ else s.now
    let early := x.old.filter (fun o => serialBefore 96 start o.2)
    match early with
    | some o => ((s.setPin p { x with sched := x.sched ++ [(o.2, w)] }).count (Reg.TOUT_STAT_LATE.e p) 1, true)
    | none =>
      bif mode == 1 && !late then (s.setPin p { x with sched := x.sched ++ [(at_, w)] }, false)
      else bif late then ((s.count (Reg.TOUT_STAT_LATE.e p) 1).pulse p w s.now, true)
      else (s.pulse p w s.now, false)

/-! ### TRIG_IN pins (R272) -/

/-- Sampling of pin `p` begins: its filtered level starts at the level the pin holds. -/
def State.pinSample (s : State) (p : Nat) : State :=
  bif s.on (Reg.TIN_CFG_EN.e p) then s.flag (Reg.TIN_STAT_LEVEL.e p) (tget (fun _ => false) s.trg.ins p) else s

/-- A change of level at a TRIG_IN pin at tag `at_`, which is stamped under 03 R86: accepted once it has persisted, and then one product for each PIN unit that watches
the pin where TIN_CFG.EDGE selects it; otherwise a glitch. -/
def execTrigInEdge (p : Nat) (level persists : Bool) (at_ : Nat) (s : State) : Res :=
  let stamp := s.quantised at_
  let (s, k) := s.stampScale stamp
  let tq := s.tqAt k stamp false false
  let e := s.get (Reg.TIN_CFG_EDGE.e p)
  let s := bif persists && lt p 8 then { s with trg := { s.trg with ins := tset (fun _ => false) s.trg.ins p level } } else s
  .next <| bif !lt p 8 || !s.on (Reg.TIN_CFG_EN.e p) || !s.runs then s
    else bif !persists then s.count (Reg.TIN_STAT_GLITCH.e p) 1
    else bif s.on (Reg.TIN_STAT_LEVEL.e p) == level then s
    else
      let s := s.flag (Reg.TIN_STAT_LEVEL.e p) level
      bif (level && e % 2 == 1) || (!level && le 2 e) then
        (upto 32).foldl (fun s u =>
          bif s.on (Reg.TRG_UCFG_EN.e u) && s.get (Reg.TRG_UCFG_SRC.e u) == 8 && s.get (Reg.TRG_UELEM_ELEM.e u) == p
          then s.pushPulse u stamp tq else s) s
      else s

/-! ### Records (R286, R287) -/

/-- Byte 2 or 3 of a record's body with a flag set. -/
def setFlag (body : List Byte) (i k : Nat) : List Byte := body.set i (body.getD i 0 ||| BitVec.ofNat 8 (2 ^ k))

/-- A record enters the queue, with the unit's records lost since the one before; or it is lost itself (R287). -/
def State.queueRecord (s : State) (r : TrigRecord) : State :=
  bif r.streams.isEmpty then s
  else bif le 4096 s.trg.queue.length then
    let s := (s.count (Reg.TRG_ULOST_COUNT.e r.unit) 1).unitFlag r.unit Reg.TRG_USTAT_LOST
    s.setUnit r.unit { s.unit r.unit with lost := satAdd 32 (s.unit r.unit).lost 1 }
  else
    let y := s.unit r.unit
    let r := { r with body := r.body.take 72 ++ u32 y.lost ++ zeros 4 }
    let s := s.setUnit r.unit { y with lost := 0 }
    let s := { s with trg := { s.trg with queue := s.trg.queue ++ [r] } }
    s.put Reg.TRG_STAT_QLEN.z s.trg.queue.length

/-- A record of unit `u` held for the spans of its run is released, with FF where a product of the run was affected (R286). -/
def execTriggerRecordRelease (u : Nat) (s : State) : Res :=
  .next <| match s.trg.held.find? (fun r => r.unit == u) with
    | none => s
    | some r =>
      let s := { s with trg := { s.trg with held := s.trg.held.erase r } }
      let ff := r.spans.any (fun p => s.spanFault r.input p.1 p.2)
      s.queueRecord { r with body := bif ff then setFlag r.body 2 0 else r.body }

/-- A queued trigger record leaves for stream `st`, which accepts it (R287). -/
def execTriggerRecordDequeue (st : Nat) (s : State) : Res :=
  .next <| match s.trg.queue.find? (fun r => r.streams.contains st) with
    | none => s
    | some r =>
      let r2 := { r with streams := r.streams.filter (· ≠ st) }
      let q := if r2.streams.isEmpty then s.trg.queue.erase r else s.trg.queue.map (fun x => if x = r then r2 else x)
      let s := { s with trg := { s.trg with queue := q } }
      (s.put Reg.TRG_STAT_QLEN.z s.trg.queue.length).close st ⟨0x02, 1, r.unit, r.body⟩

/-! ### Leaving a firing (R278) -/

/-- Unit `u` of a FIRST group is not re-armed by itself, its master with REARM apart (R281). -/
def State.firstBars (s : State) (u : Nat) : Bool :=
  match s.groupOf u with
  | some g => (s.groupBank g).on (Reg.TRG_GCFG_FIRST.e g) &&
      !(s.masterOf u == some g && s.on (Reg.TRG_UCFG_REARM.e u))
  | none => false

/-- A unit whose firing has ended arms again (R278), a master with its whole group (R281); it does not come from DISARMED. -/
def State.armAgain (s : State) (u : Nat) : State :=
  let s := match s.masterOf u with
    | some g => s.groupArm g false
    | none => s.armUnit u
  s.setUnit u { s.unit u with armAt := none }

/-- FIRED or HOLDOFF ends: DISARMED, or ARMED under a new arm number (R278). -/
def State.firingEnds (s : State) (u : Nat) : State :=
  let y := s.unit u
  let again := s.on (Reg.TRG_USTAT_ARMPEND.e u) || s.on (Reg.TRG_UCFG_REARM.e u)
  let s := s.flag (Reg.TRG_USTAT_ARMPEND.e u) false
  let off := y.disarm || y.fromDisarmed || s.firstBars u || !again
  let s := (s.setUnit u { y.cleared with disarm := false, fromDisarmed := false }).put (unitState u) 0
  (bif off then s else s.armAgain u).holdPins

/-- HOFF in units of 2⁻⁴⁸ s (R277). -/
def State.hoff (s : State) (u : Nat) : Nat :=
  let k := s.get (Reg.TRG_UCFG_HUNIT.e u)
  ns48 (s.get (Reg.TRG_UHOFF_HOFF.e u) * (if k = 0 then 1 else if k = 1 then 1000 else 1000000))

/-! ### The swap (R291, R292) -/

def unitFields : List Fld :=
  [Reg.TRG_UCFG_EN, Reg.TRG_ULVL_LVL, Reg.TRG_UMSK_LMODE, Reg.TRG_URECT0_K0, Reg.TRG_URECT1_J0, Reg.TRG_USEL_SEL,
   Reg.TRG_UELEM_ELEM, Reg.TRG_UFLAT_UP, Reg.TRG_UGATE_GMODE, Reg.TRG_UHOFF_HOFF, Reg.TRG_UACT_CAP, Reg.TRG_UMARK_STREAM1,
   Reg.TRG_UDL_DL]

/-- The commit changes one of the words of block `b` chosen by `p`. -/
def State.changedWhere (s : State) (b : Blk) (p : Nat → Bool) : Bool :=
  (s.bankOffsets b).any (fun o => p o && s.wordChanged b o)

/-- The commit changes unit `u`: its descriptor, its mask slot or its group (R291). -/
def State.unitChanged (s : State) (u : Nat) : Bool :=
  let st := s.stagedView .triggers
  let slot (k : Nat) := k != 0xFF && s.changedWhere .triggers (ofElem [Reg.TRG_MSKHDR_VALID, Reg.TRG_MSK_UP] k)
  s.changedWhere .triggers (ofElem unitFields u) || slot (s.get (Reg.TRG_UMSK_SLOT.e u)) || slot (st.get (Reg.TRG_UMSK_SLOT.e u))
    || (s.on (Reg.TRG_UCFG_GRPEN.e u) && s.changedWhere .triggers (ofElem [Reg.TRG_GCFG_EN] (s.get (Reg.TRG_UCFG_GRP.e u))))
    || (st.on (Reg.TRG_UCFG_GRPEN.e u) && s.changedWhere .triggers (ofElem [Reg.TRG_GCFG_EN] (st.get (Reg.TRG_UCFG_GRP.e u))))

/-- Every unit and pin has swapped (R292). -/
def State.trgDone (s : State) : State :=
  bif s.maySwap .triggers && s.trg.left.isEmpty && (upto 8).all (fun p => (s.pin p).old.isNone) then
    ((s.swapWhere .triggers (fun _ => true)).flag Reg.TRG_STAT_SWPEND.z false).swapDone .triggers
  else s

/-- The next pulse of pin `p` whose instant has come begins (R285). -/
def execToutAlignedEdge (p : Nat) (s : State) : Res :=
  let x := s.pin p
  .next <| match x.sched.filter (fun c => !serialBefore 96 s.now c.1) with
    | [] => s
    | c :: _ => ((s.setPin p { x with sched := x.sched.erase c }).pulse p c.2 c.1).trgDone

/-- The pulse of pin `p` ends at its instant; pending settings take hold (R285, R291). -/
def execToutPulseEnd (p : Nat) (s : State) : Res := .next (s.pinEnd p).trgDone

/-- The bank of unit `u` swaps, with TRG_USTAT.SWAP; edge states last while the unit stays enabled on one source (R268). -/
def State.unitBank (s : State) (u : Nat) : State :=
  let keeps := s.on (Reg.TRG_UCFG_EN.e u) && s.get (Reg.TRG_UCFG_SRC.e u) == (s.stagedView .triggers).get (Reg.TRG_UCFG_SRC.e u)
  let s := s.swapWhere .triggers (ofElem unitFields u)
  let s := bif keeps then s else s.setUnit u { s.unit u with elems := [], queue := [] }
  ({ s with trg := { s.trg with left := s.trg.left.filter (· ≠ u) } }).unitFlag u Reg.TRG_USTAT_SWAP

/-- TRIGGER_UNIT_SWAP: a unit that is not in a firing swaps, and is armed again if it was armed (R291). -/
def execTriggerUnitSwap (u : Nat) (s : State) : Res :=
  let st := s.get (unitState u)
  .next <| bif s.maySwap .triggers && s.trg.left.contains u && lt st 3 && (s.unit u).comp.isNone then
      let s := (s.setUnit u (s.unit u).cleared).put (unitState u) 0
      let s := s.unitBank u
      let s := bif lt 0 st then (s.armUnit u).setUnit u { (s.armUnit u).unit u with armAt := none } else s
      s.trgDone
    else s.trgDone

/-- The commit's instant arrives: TIN and TOUT settings swap, and the units the commit changes are to swap. -/
def State.trgCommit (s : State) : State :=
  bif s.maySwap .triggers then
    let s := { s with trg := { s.trg with left := (upto 32).filter s.unitChanged } }
    let fs := [Reg.TOUT_CFG_EN, Reg.TOUT_SRC_UNITS, Reg.TOUT_DLY_DLY]
    let s := (upto 8).foldl (fun s p =>
      let x := s.pin p
      bif s.changedWhere .triggers (ofElem fs p) && (x.ends.isSome || !x.sched.isEmpty) then
        s.setPin p { x with old := some (s.word (Reg.TOUT_CFG_EN.e p).off, s.lastPulse p) }
      else s) s
    let off := (upto 8).filter (fun p => !s.on (Reg.TIN_CFG_EN.e p))
    let s := s.swapWhere .triggers (fun o => Reg.TIN_CFG_EN.covers o || fs.any (fun f => f.covers o))
    let s := off.foldl State.pinSample s
    let s := (upto 8).foldl (fun s p => bif (s.pin p).ends.isNone && (s.pin p).sched.isEmpty then s.pinTakes p else s) s
    s.trgDone
  else s

/-! ### Modes (R290) -/

/-- Entry to Watch: counts of units whose source is not live there are set to 0. -/
def State.trgWatch (s : State) : State :=
  (upto 32).foldl (fun s u =>
    let src := s.get (Reg.TRG_UCFG_SRC.e u)
    bif le 3 src && le src 7 then
      let s := s.setUnit u (s.unit u).cleared
      bif s.get (unitState u) == 2 then s.put (unitState u) 1 else s
    else s) s

/-- Entry to Sleep: every unit DISARMED, pending arms and forces discarded, pins inactive. -/
def State.trgSleep (s : State) : State :=
  let s := (upto 8).foldl (fun s g => s.setGroup g { s.group g with pend := none }) s
  let s := (upto 32).foldl (fun s u =>
    let s := s.setUnit u { (s.unit u).cleared with comp := none, force := none, queue := [], disarm := false,
                                                   fromDisarmed := false, elems := [] }
    let s := (s.flag (Reg.TRG_USTAT_ARMPEND.e u) false).flag (Reg.TRG_USTAT_FPEND.e u) false
    s.put (unitState u) 0) s
  (upto 8).foldl (fun s p => (s.setPin p { s.pin p with ends := none, sched := [], old := none }).drive p false) s

end Sys2Proof.Machine
end

