-- ==== Sys2Proof/Machine/Recorder.lean ====
section
/-!
DEFINITION. The flight recorder and captures (10_recorder_and_capture.md): the ring and its pages, captures from request to
read-out, the watch ring, shrinking under the memory system's fold, and the swap. The rate-reduction ladder stands in Ladder.lean.
-/
namespace Sys2Proof.Machine

def State.recIn (s : State) (n : Nat) : RecInput := tget (fun _ => RecInput.reset) s.rcd.inputs n
def State.setRecIn (s : State) (n : Nat) (x : RecInput) : State :=
  { s with rcd := { s.rcd with inputs := tset (fun _ => RecInput.reset) s.rcd.inputs n x } }
/-- Input `n` is recorded: selected in REC_INEN of an enabled recorder. -/
def State.recorded (s : State) (n : Nat) : Bool := s.on Reg.REC_CTRL_EN.z && s.sel Reg.REC_INEN_SEL n
def recState : Loc := Reg.REC_STAT_STATE.z
/-- REC_STAT.STATE takes value `v`; a change raises EV328. -/
def State.recTo (s : State) (v : Nat) : State := bif s.get recState == v then s else (s.put recState v).ev 328

/-! ### The layout (R295) -/

/-- A window whose samples the ring may hold: of a recorded input, and placed (R302, R304). -/
def CapWin.live (w : CapWin) : Bool := w.status == 0

/-- r_n in units of 1000 bytes per second, in the ingress bank `ing`. -/
def recRate (ing : BankView) (n : Nat) : Nat :=
  ing.get (Reg.ING_RATE_RATE.e n) * (if ing.get (Reg.ING_ICFG_FMT.e n) = 1 then 4 else 2)

/-- P. -/
def recSlots (rec : BankView) : Nat := rec.get Reg.REC_CTRL_SIZE.z * 1000000000 / 65536

/-- (input, base_n, p_n) of every recorded input. -/
def recLayout (rec ing : BankView) : List (Nat × Nat × Nat) :=
  let ns := (upto 128).filter (fun n => bit (rec.get (Reg.REC_INEN_SEL.e (n / 32))) (n % 32))
  let sum := sumOf (ns.map (recRate ing))
  let p := recSlots rec
  (ns.foldl (fun (a : Nat × List (Nat × Nat × Nat)) n =>
    let k := if sum = 0 then 0 else p * recRate ing n / sum
    (a.1 + k, a.2 ++ [(n, a.1, k)])) (0, [])).2

/-- c of a format (R295). -/
def pageCap (c16 : Bool) : Nat := if c16 then 16368 else 32736

/-! ### Pins (R305, R306) -/

/-- The windows of active captures on input `n`. -/
def State.winsOn (s : State) (n : Nat) : List CapWin :=
  (s.rcd.captures.filter (·.mapped)).flatMap (fun c => c.wins.filter (fun w => w.input == n && w.live))

/-- A page of input `n` is pinned. -/
def State.pinned (s : State) (n : Nat) (p : RecPage) : Bool := (s.winsOn n).any (fun w => overlaps p.first p.count w.first w.lim)

/-- The page slot of the recorder area, numbered from its start, that holds page `p`. -/
def State.areaSlot (s : State) (p : RecPage) : Nat := (p.addr - s.regBase 4) / 65536

/-- Slots of the recorder area that hold a pinned page of input `n`. -/
def State.pinnedSlots (s : State) (n : Nat) : List Nat :=
  (((s.recIn n).pages.filter (s.pinned n)).map s.areaSlot).eraseDups

/-- Slots of the recorder area that hold a pinned page of any input: none of them is overwritten (R296, R322). -/
def State.pinnedArea (s : State) : List Nat := (upto 128).flatMap s.pinnedSlots

/-- The pages charged on input `n` (R306). -/
def State.charged (s : State) (n : Nat) : Nat :=
  sumOf (s.rcd.captures.map (fun c => sumOf ((c.wins.filter (fun w => w.input == n && w.status != 2)).map (·.pages))))

/-- PINMAX percent of p_n. -/
def State.pinLimit (s : State) (n : Nat) : Nat := s.get Reg.REC_PIN_PINMAX.z * ((s.recIn n).slots - (s.recIn n).given.length) / 100

/-- REC_DEPTH, REC_PIN.PINNED, REC_STAT.CAPUSE and REC_OLDEST brought up to date (R297). -/
def State.recSync (s : State) : State :=
  let ns := (upto 128).filter s.recorded
  let depth (n : Nat) : Nat :=
    let x := s.recIn n
    let k := x.slots - x.given.length - 2 - (s.pinnedSlots n).length
    if x.hole then 0 else k * pageCap (s.isC16 n) * 1000 / max 1 (s.get (Reg.ING_RATE_RATE.e n))
  let d := match ns with
    | [] => 0
    | n :: rest => rest.foldl (fun a m => min a (depth m)) (depth n)
  let s := s.put Reg.REC_DEPTH_DEPTH.z (min d (2 ^ 32 - 1))
  let s := s.put Reg.REC_PIN_PINNED.z (sumOf (ns.map (fun n => ((s.recIn n).pages.filter (s.pinned n)).length)))
  let s := s.put Reg.REC_STAT_CAPUSE.z s.rcd.captures.length
  ns.foldl (fun s n =>
    let x := s.recIn n
    let firsts := x.fill.toList.map (·.first) ++ x.wfill.toList.map (·.first) ++ (x.watch ++ x.pages).map (·.first)
    match firsts.getLast? with
    | some i => s.put64 (Reg.REC_OLDEST_L_VAL.e n) (Reg.REC_OLDEST_H_VAL.e n) i
    | none => s) s

/-- REC_OLDGAP advances past a gap dropped from the log while it still intersects the ring (R300). -/
def State.oldGapSync (s : State) (n : Nat) : State :=
  match (s.inp n).gaps[4096]?, (s.recIn n).pages.getLast? with
  | some g, some p =>
    let e := idxAdd g.1 g.2
    bif idxBefore p.first e then s.put64 (Reg.REC_OLDGAP_L_VAL.e n) (Reg.REC_OLDGAP_H_VAL.e n) e else s
  | _, _ => s

/-! ### Pages (R296, R299) -/

/-- A sample in its format. -/
def sampleBytes (c16 : Bool) (v : Int × Int) : List Byte := if c16 then iN 2 v.1 ++ iN 2 v.2 else iN 2 v.1

/-- The 64-byte page header (R299) and the samples. -/
def State.pageBytes (s : State) (n : Nat) (f : RecFill) (p : RecPage) (short : Bool) : List Byte :=
  let h := u16 0x5250 ++ u8 n ++ u8 (if f.c16 then 2 else 1)
    ++ u16 (b2n p.watch + 2 * b2n (lt 0 f.gaps) + 4 * b2n short) ++ u16 0 ++ u48 p.first ++ u16 p.count ++ u96 p.tag ++ u16 p.tq
    ++ u16 f.gaps ++ u32 f.gen ++ u32 (s.get Blk.recorder.gen) ++ u32 p.seq
  h ++ u32 (crc32c h) ++ zeros 16 ++ f.data.reverse.flatMap (sampleBytes f.c16)

/-- The DMA address of slot `k` of input `n`. -/
def State.slotAddr (s : State) (n k : Nat) : Nat := s.regBase 4 + 65536 * ((s.recIn n).base + k)

/-- Slots of input `n` that the writer may not use: pinned, given up, reserved, being filled (R296, R315, R318). -/
def State.slotsBarred (s : State) (n : Nat) : List Nat :=
  let x := s.recIn n
  (s.pinnedArea.filter (le x.base)).map (· - x.base) ++ x.given ++ x.reserved ++ x.fill.toList.map (·.slot)

/-- The page record of a fill. -/
def State.pageOf (s : State) (n : Nat) (f : RecFill) (addr : Nat) (watch : Bool) : RecPage :=
  { addr := addr, slot := f.slot, first := f.first, count := f.data.length, tag := s.productTag n f.first 0,
    tq := s.spanTq n f.first f.first (s.productTag n f.first 0), gaps := f.gaps, seq := (s.recIn n).seq, c16 := f.c16, watch := watch }

/-- The page being filled is written to its slot; the page that held the slot before is overwritten (R296). -/
def State.pageClose (s : State) (n : Nat) : State :=
  let x := s.recIn n
  match x.fill with
  | none => s
  | some f =>
    let full := f.data.length == pageCap f.c16
    let p := s.pageOf n f (s.slotAddr n f.slot) false
    let s := s.pokeAll p.addr (s.pageBytes n f p (!full))
    let s := s.setRecIn n { x with fill := none, seq := (x.seq + 1) % 2 ^ 32,
                                   pages := p :: x.pages.filter (fun q => s.areaSlot q != s.areaSlot p) }
    (s.oldGapSync n).recSync

/-- The next slot the writer may use, from `k` on (R296, R315, R318). -/
def State.freeSlot (s : State) (n : Nat) : Option Nat :=
  let x := s.recIn n
  let bad := s.slotsBarred n
  ((upto x.slots).map (fun d => (x.next + d) % x.slots)).find? (fun k => !bad.contains k)

/-- Index `idx` is the last of a window of a capture being filled. -/
def State.windowEnds (s : State) (n idx : Nat) : Bool :=
  s.rcd.captures.any (fun c => c.state == 1 && c.mapped && c.wins.any (fun w =>
    w.input == n && w.live && idxAdd w.first ((w.len : Int) - 1) == idx))

/-- One released index goes to the ring (R296). -/
def State.ringTake (s : State) (n idx : Nat) (v : Option (Int × Int)) (c16 : Bool) : State :=
  let x := s.recIn n
  let follows := match x.fill with
    | some f => idxAdd f.first f.data.length == idx && f.c16 == c16
    | none => true
  let s := bif follows then s else s.pageClose n
  let x := s.recIn n
  let f := match x.fill with
    | some f => some f
    | none => (s.freeSlot n).map (fun k => ⟨k, idx, [], 0, c16, s.get Blk.ingress.gen⟩)
  match f with
  | none => bif x.hole then s else (s.setRecIn n { x with hole := true }).recSync
  | some f =>
    let f2 : RecFill := { f with data := v.getD (0, 0) :: f.data, gaps := f.gaps + b2n v.isNone }
    let s := s.setRecIn n { x with fill := some f2, hole := false, next := if x.slots = 0 then 0 else (f.slot + 1) % x.slots }
    let s := bif x.hole then s.recSync else s
    bif f2.data.length == pageCap c16 || s.windowEnds n idx then s.pageClose n else s

/-! ### The watch ring (R314, R315) -/

/-- The samples of a watch page. -/
def watchCap (c16 : Bool) : Nat := if c16 then 1008 else 2016

/-- The DMA address of page `k` of input `n` in the watch ring. -/
def watchAddr (n k : Nat) : Nat := galAddr (n / 16) (0x1000000 + n % 16 * 0x80000 + 4096 * k)

/-- The watch page being filled is written. -/
def State.watchClose (s : State) (n : Nat) : State :=
  let x := s.recIn n
  match x.wfill with
  | none => s
  | some f =>
    let p := s.pageOf n f (watchAddr n f.slot) true
    let s := s.pokeAll p.addr (s.pageBytes n f p (f.data.length != watchCap f.c16))
    s.setRecIn n { x with wfill := none, seq := (x.seq + 1) % 2 ^ 32, watch := p :: x.watch.filter (fun q => q.slot != f.slot) }

/-- A held watch ring that is full frees its oldest page (R315). -/
def State.watchRoom (s : State) (n : Nat) : State :=
  let x := s.recIn n
  match x.watch.find? (fun p => p.slot == x.wnext) with
  | some p =>
    let s := s.setRecIn n { x with watch := x.watch.filter (· ≠ p) }
    bif s.rcd.hold then
      (s.count64 (Reg.REC_LOSS_L_VAL.e n) (Reg.REC_LOSS_H_VAL.e n) p.count).ev 336
    else s
  | none => s

/-- One released index goes to the watch ring. -/
def State.watchTake (s : State) (n idx : Nat) (v : Option (Int × Int)) (c16 : Bool) : State :=
  let follows := match (s.recIn n).wfill with
    | some f => idxAdd f.first f.data.length == idx && f.c16 == c16
    | none => true
  let s := bif follows then s else s.watchClose n
  let s := bif (s.recIn n).wfill.isSome then s else s.watchRoom n
  let x := s.recIn n
  let f := x.wfill.getD ⟨x.wnext, idx, [], 0, c16, s.get Blk.ingress.gen⟩
  let f2 : RecFill := { f with data := v.getD (0, 0) :: f.data, gaps := f.gaps + b2n v.isNone }
  let s := s.setRecIn n { x with wfill := some f2, wnext := (f.slot + 1) % 128 }
  bif f2.data.length == watchCap c16 then s.watchClose n else s

/-- The recorder takes one released index of input `n`. -/
def State.recTake (s : State) (n idx : Nat) (v : Option (Int × Int)) (c16 : Bool) : State :=
  let st := s.get recState
  bif !s.recorded n then s
  else bif st == 1 || st == 3 then s.ringTake n idx v c16
  else bif st == 2 && s.on Reg.REC_CTRL_WATCHEN.z then s.watchTake n idx v c16
  else s

/-! ### Mapping a condition tag (R302 to R304) -/

/-- Every page of input `n` that can map a tag: ring, watch ring and the pages being filled, newest first. -/
def State.allPages (s : State) (n : Nat) : List RecPage :=
  let x := s.recIn n
  x.fill.toList.map (fun f => s.pageOf n f (s.slotAddr n f.slot) false) ++ x.wfill.toList.map (fun f => s.pageOf n f 0 true) ++ x.watch ++ x.pages

/-- i_c(n): the first index whose pin time less TB_INDELAY is at or after the tag, from the page of the tag's time scale nearest
before it. -/
def State.mapTag (s : State) (n tag step : Nat) : Option Nat :=
  let ps := (s.allPages n).filter (fun p => p.tq / 4096 == step)
  let page := match ps.find? (fun p => !lt tag p.tag) with
    | some p => some p
    | none => ps.getLast?
  page.map (fun p =>
    let per := ((modelAt (s.inp n).models p.first).map (·.p)).getD (s.nominalP n)
    let d := (sext 96 (toU 96 ((tag : Int) - p.tag))) * 2 ^ 32
    idxAdd p.first (-((-d) / (max per 1 : Nat))))

/-- ceil(T × 10⁻⁷ × F_n) for a rate in kS/s. -/
def winSamples (t rate : Nat) : Nat := ceilDiv (t * rate) 10000

/-- A field of a capture's slot words. -/
def Capture.field (c : Capture) (f : Fld) : Nat :=
  bits (c.words.getD ((f.off - Reg.CAP_SCFG_EN.off) / 4) 0).toNat f.lo f.w

/-- Input `n` is selected in the capture's slot. -/
def Capture.selects (c : Capture) (n : Nat) : Bool :=
  bit (c.words.getD ((Reg.CAP_SMASK_SEL.off - Reg.CAP_SCFG_EN.off) / 4 + n / 32) 0).toNat (n % 32)

/-- The windows of a capture, before mapping: lengths, rates and charges. -/
def State.capWindows (s : State) (c : Capture) : List CapWin :=
  ((upto 128).filter c.selects).map (fun n =>
    let rate := s.get (Reg.ING_RATE_RATE.e n)
    let len := winSamples (c.field Reg.CAP_SPRE_T) rate + winSamples (c.field Reg.CAP_SPOST_T) rate
    let c16 := s.isC16 n
    bif s.recorded n then ⟨n, 0, 0, len, len, rate, c16, ceilDiv len (pageCap c16) + 1⟩ else ⟨n, 2, 0, len, len, rate, c16, 0⟩)

/-- The capture record body of R307 with `entries` already laid out. -/
def State.capBody (s : State) (c : Capture) (kind code flags kept : Nat) (entries : List (List Byte)) : List Byte :=
  u32 c.num ++ u8 kind ++ u8 c.slot ++ u8 c.unit ++ u8 code ++ u32 c.firing ++ u32 (s.get Blk.recorder.gen) ++ u96 c.tag
    ++ u16 c.tq ++ u16 flags ++ u32 (c.field Reg.CAP_SPRE_T) ++ u32 (c.field Reg.CAP_SPOST_T) ++ u16 entries.length ++ zeros 6
    ++ u64 kept ++ u64 c.lost ++ entries.flatten

/-- A capture record for the capture's stream. -/
def State.capRecord (s : State) (c : Capture) (type : Nat) (body : List Byte) : State :=
  s.close (c.field Reg.CAP_SCFG_STREAM) ⟨type, 6, c.num, body⟩

/-- A request refused with `code` (R303). -/
def State.capRefuse (s : State) (c : Capture) (code : Nat) : State :=
  ((s.capRecord c 0x20 (s.capBody c 3 code 0 0 [])).count Reg.CAP_SPOIL_COUNT.z 1).ev 332

/-- A capture by its number. -/
def State.capOf (s : State) (num : Nat) : Option Capture := s.rcd.captures.find? (fun c => c.num == num)

/-- The capture's descriptor shows its state. -/
def State.setCap (s : State) (c : Capture) : State :=
  let s := { s with rcd := { s.rcd with captures := s.rcd.captures.map (fun (d : Capture) => if d.desc = c.desc then c else d) } }
  s.put (Reg.CAP_DSTAT1_STATE.e c.desc) c.state

/-- A capture is freed and its pins dropped. -/
def State.capFree (s : State) (c : Capture) : State :=
  let s := { s with rcd := { s.rcd with captures := s.rcd.captures.filter (fun d => d.desc != c.desc) } }
  (s.put (Reg.CAP_DSTAT1_STATE.e c.desc) 0).recSync

/-- The oldest index input `n` retains, of the ring and the watch ring. -/
def State.oldestKept (s : State) (n : Nat) : Option Nat := (s.allPages n).getLast?.map (·.first)

/-- The windows of a capture placed by the pages of the ring and the watch ring (R302); one without a page of the tag's time
scale holds nothing (status 1). -/
def State.capPlace (s : State) (c : Capture) : List CapWin :=
  c.wins.map (fun w =>
    bif w.live then
      match s.mapTag w.input c.tag (c.tq / 4096) with
      | some i => { w with first := idxAdd i (-(winSamples (c.field Reg.CAP_SPRE_T) w.rate : Nat)) }
      | none => { w with status := 1 }
    else w)

/-- The page being filled ends at the last index of window `w`: it is closed short (R296). -/
def State.capClose (s : State) (w : CapWin) : State :=
  match (s.recIn w.input).fill with
  | some f => bif w.live && idxAdd f.first f.data.length == idxAdd w.first w.len then s.pageClose w.input else s
  | none => s

/-- A capture is mapped (R302): its windows are placed, or it is refused with TIMESCALE or AGED. -/
def State.capMap (s : State) (c : Capture) : State × Option Nat :=
  let ws := s.capPlace c
  let live := ws.filter CapWin.live
  let aged := live.all (fun w => match s.oldestKept w.input with
    | some o => idxBefore (idxAdd w.first ((w.len : Int) - 1)) o
    | none => false)
  bif live.isEmpty && ws.any (fun w => w.status == 1) then (s, some 4)
  else bif !live.isEmpty && aged then (s, some 5)
  else (ws.foldl State.capClose ((s.setCap { c with wins := ws, mapped := true }).recSync), none)

/-- A capture takes its number and descriptor. -/
def State.capAdd (s : State) (c : Capture) : State :=
  let s := { s with rcd := { s.rcd with captures := s.rcd.captures ++ [c] } }
  let s := (s.put Reg.CAP_STAT_COUNT.z c.num).put (Reg.CAP_DSTAT0_CAPNUM.e c.desc) c.num
  (s.put (Reg.CAP_DSTAT1_STATE.e c.desc) 1).put (Reg.CAP_DSTAT1_SLOT.e c.desc) c.slot

/-- A capture with windows `wins` has been accepted: EV329, and EV334 where an input's pins are exhausted. -/
def State.capTaken (s : State) (wins : List CapWin) : State :=
  let s := (s.recSync).ev 329
  bif wins.any (fun w => w.status != 2 && s.charged w.input == s.pinLimit w.input) then s.ev 334 else s

/-- A request for a capture (R301, R303, R316): accepted with a descriptor and a number, or refused; a standby refuses it as OFF
(23 R678). After a commit's instant it takes the slot's new settings (R322). -/
def State.capRequest (s : State) (slot unit firing tag tq : Nat) : State :=
  let b := bif s.maySwap .recorder then s.stagedView .recorder else s.liveView .recorder
  let words := (upto 9).map (fun r => b.word ((Reg.CAP_SCFG_EN.e slot).off + 4 * r))
  let st := s.get recState
  let c0 : Capture := ⟨0, 0, slot, words, unit, firing, tag, tq, [], false, false, 1, false, 0, s.get Blk.recorder.gen⟩
  let desc := (upto 256).find? (fun d => !s.rcd.captures.any (fun c => c.desc == d))
  let wins := s.capWindows c0
  let tooMany := wins.any (fun w => w.status != 2 && lt (s.pinLimit w.input) (s.charged w.input + w.pages))
  bif c0.field Reg.CAP_SCFG_EN != 1 then s.capRefuse c0 6
  else bif !s.on Reg.REC_CTRL_EN.z || st == 0 || s.pair.shadow then s.capRefuse c0 3
  else match desc with
    | none => s.capRefuse c0 1
    | some d =>
      bif tooMany then s.capRefuse c0 2
      else
        let num := (s.get Reg.CAP_STAT_COUNT.z + 1) % 2 ^ 32
        let c := { c0 with desc := d, num := num, wins := wins }
        bif st == 2 && !s.on Reg.REC_CTRL_WATCHEN.z then (s.capAdd c).capTaken wins
        else match (s.capAdd c).capMap c with
          | (s2, none) => s2.capTaken wins
          | (_, some code) => s.capRefuse c0 code

/-- CAP_CMD with OP = REQUEST: the tag is the one loaded in CAP_TAG, on the present time scale (R301). -/
def execCapRequest (slot : Nat) (s : State) : Res :=
  .next (s.capRequest slot 0xFF 0 (s.get96 Reg.CAP_TAG_L_TAG.z Reg.CAP_TAG_M_TAG.z Reg.CAP_TAG_H_TAG.z) (s.tq false false))

/-! ### HELD and read-out (R304 to R310) -/

/-- The pages of a window, oldest first. -/
def State.winPages (s : State) (w : CapWin) : List RecPage :=
  ((s.allPages w.input).filter (fun p => overlaps w.first w.lim p.first p.count)).reverse

/-- The part of page `p` in window `w`: first index and length. -/
def partOf (w : CapWin) (p : RecPage) : Nat × Nat :=
  let a := idxSub p.first w.first
  let lo := max a 0
  let hi := min (a + p.count) w.lim
  (idxAdd w.first lo, (hi - lo).toNat)

/-- Samples retained, gap samples among them, pages. -/
def State.winKept (s : State) (w : CapWin) : Nat × Nat × Nat :=
  let ps := bif w.live then s.winPages w else []
  let kept := sumOf (ps.map (fun p => (partOf w p).2))
  let gaps := sumOf (ps.map (fun p => let q := partOf w p
                                     unionCount q.1 q.2 (s.gapIvs w.input q.1)))
  (kept, gaps, ps.length)

/-- The status of a window at HELD: TRUNC where a part is not retained. -/
def State.winStatus (s : State) (w : CapWin) : Nat := if w.status = 2 then 2 else if (s.winKept w).1 < w.len then 1 else 0

/-- The 48-byte entry of a window (R307). -/
def State.winEntry (s : State) (w : CapWin) : List Byte :=
  let k := s.winKept w
  let slot := match bif w.live then s.winPages w else [] with
    | p :: _ => s.areaSlot p
    | [] => 0
  u8 w.input ++ u8 (if w.c16 then 2 else 1) ++ u8 (s.winStatus w) ++ zeros 1 ++ u32 w.rate ++ u48 w.first ++ zeros 2
    ++ u64 w.len ++ u64 (w.len - k.1) ++ u64 k.2.1 ++ u32 slot ++ u32 k.2.2

/-- The flags of R307. -/
def State.capFlags (s : State) (c : Capture) : Nat :=
  let live := c.wins.filter CapWin.live
  let oldGap (n : Nat) := s.get64 (Reg.REC_OLDGAP_L_VAL.e n) (Reg.REC_OLDGAP_H_VAL.e n)
  b2n (c.wins.any (fun w => s.winStatus w == 1)) + 2 * b2n (live.any (fun w => (s.winPages w).any (·.watch)))
    + 4 * b2n (lt 0 c.lost) + 8 * c.field Reg.CAP_SCFG_STATS
    + 16 * b2n (live.any (fun w => oldGap w.input != 0 && idxBefore w.first (oldGap w.input)))

/-- Sample bytes retained over all inputs. -/
def State.capKept (s : State) (c : Capture) : Nat :=
  sumOf ((c.wins.filter CapWin.live).map (fun w => (s.winKept w).1 * (if w.c16 then 4 else 2)))

/-- A HEADER or END record; `kept` the sample bytes it states. -/
def State.capEnds (s : State) (c : Capture) (kind code kept : Nat) : State :=
  s.capRecord c 0x20 (s.capBody c kind code (s.capFlags c) kept (c.wins.map s.winEntry))

/-- The last index of window `w` has been written, or never will be. -/
def State.winWritten (s : State) (c : Capture) (w : CapWin) : Bool :=
  let x := s.recIn w.input
  let last := idxAdd w.first ((w.len : Int) - 1)
  let passed := match mainNewest (s.inp w.input) with
    | some j => !idxBefore j last
    | none => false
  let inWatch := x.watch.any (fun p => overlaps w.first w.lim p.first p.count)
    || x.wfill.toList.any (fun f => overlaps w.first w.lim f.first f.data.length)
  !w.live || c.cut || (passed && !inWatch)

/-- Every sample of the capture's windows stands in a written page. -/
def State.capWritten (s : State) (c : Capture) : Bool :=
  c.wins.all (fun w => !w.live ||
    (s.recIn w.input).fill.toList.all (fun f => !overlaps w.first w.lim f.first f.data.length))

/-- The GAP records of a read-out (R306): each logged gap that intersects a window, in CLOSE form. -/
def State.capGaps (s : State) (c : Capture) : State :=
  c.wins.foldl (fun s w =>
    ((s.inp w.input).gapLog.reverse.filter (fun g => w.live && overlaps w.first w.len g.1 g.2.1)).foldl
      (fun s g => s.capRecord c 0x01 g.2.2) s) s

/-- Read-out of a HELD capture starts (R305, R306). -/
def State.capStart (s : State) (c : Capture) : State := ((s.setCap { c with state := 3 }).capGaps c)

/-- CAPTURE_HELD (R304, R305): the HEADER is written; with READ = 1 read-out starts at once. -/
def execCaptureHeld (num : Nat) (s : State) : Res :=
  .next <| match s.capOf num with
    | some c =>
      bif c.state == 1 && c.mapped && c.wins.all (s.winWritten c) then
        let s := ((s.setCap { c with state := 2 }).capEnds c 1 (bif c.cut then 7 else 0) (s.capKept c)).ev 330
        let s := bif bit (s.capFlags c) 0 then s.ev 333 else s
        bif c.field Reg.CAP_SCFG_READ == 1 then s.capStart { c with state := 2 } else s
      else s
    | none => s

/-- CAP_CMD with OP = READ; a FREE capture is malformed (R323). -/
def execCapRead (num : Nat) (s : State) : Res :=
  .next <| match s.capOf num with
    | some c => bif c.state == 2 then s.capStart c else s
    | none => s.bad .recorder

/-- CAP_CMD with OP = RELEASE: a HELD capture is freed; a FILLING or READING one ends at once, its DATA records not delivered
(R305). -/
def execCapRelease (num : Nat) (s : State) : Res :=
  .next <| match s.capOf num with
    | some c => bif c.state == 2 then s.capFree c
      else
        let s := bif c.state == 1 && bit (s.capFlags c) 0 then s.ev 333 else s
        ((s.capEnds c 2 8 0).ev 331).capFree c
    | none => s.bad .recorder

/-- The samples of a window with their validity, from memory, oldest first. -/
def State.winSamplesOf (s : State) (w : CapWin) : List (Nat × (Int × Int)) :=
  (s.winPages w).flatMap (fun p =>
    let q := partOf w p
    let skip := (idxSub q.1 p.first).toNat
    let k := if p.c16 then 4 else 2
    let bs := s.peekAll (p.addr + 64 + skip * k) (q.2 * k)
    (upto q.2).filterMap (fun i =>
      let idx := idxAdd q.1 (i : Nat)
      if unionCount idx 1 (s.gapIvs w.input idx) = 0 then
        some ((idxSub idx w.first).toNat,
          (sext 16 (leAt bs (i * k) 2), if p.c16 then sext 16 (leAt bs (i * k + 2) 2) else 0))
      else none))

/-- One hit of a statistics raster row. -/
def statRow (x : Int) : Nat := (127 - x / 256).toNat

/-- The raster of CAPSTAT (R310): HIST, MAP, or PERSIST. -/
def statRaster (mode cols hit dk len : Nat) (vs : List (Nat × Int)) : List Byte :=
  match mode with
  | 0 =>
    (upto 256).flatMap (fun r => u32 (min (2 ^ 32 - 1) (vs.filter (fun v => statRow v.2 == r)).length))
  | 1 =>
    (upto 256).flatMap (fun r => (upto cols).flatMap (fun x =>
      u32 (min (2 ^ 32 - 1) (vs.filter (fun v => statRow v.2 == r && le (x * len / cols) v.1 && lt v.1 ((x + 1) * len / cols))).length)))
  | _ =>
    let step (a : List Nat × List (List Nat)) (x : Nat) : List Nat × List (List Nat) :=
      let mine := vs.filter (fun v => le (x * len / cols) v.1 && lt v.1 ((x + 1) * len / cols))
      let r := mine.foldl (fun (r : List Nat) v => r.set (statRow v.2) (min 0xFFFF (r.getD (statRow v.2) 0 + hit))) a.1
      (if dk = 0 then r else decay dk 1 r, a.2 ++ [r])
    let columns := ((upto cols).foldl step (List.replicate 256 0, [])).2
    (upto 256).flatMap (fun r => columns.flatMap (fun c => u16 (c.getD r 0)))

/-- The CAPSTAT record of a window. -/
def State.capStat (s : State) (c : Capture) (w : CapWin) : List Byte :=
  let mode := c.field Reg.CAP_SCFG_SMODE
  let cols := if mode = 0 then 1 else c.field Reg.CAP_SSTAT_COLS
  let vs : List (Nat × Int) := (s.winSamplesOf w).flatMap (fun v => if w.c16 then [(v.1, v.2.1), (v.1, v.2.2)] else [(v.1, v.2.1)])
  let xs := vs.map (·.2)
  let mn := xs.foldl min (xs.headD 0)
  let mx := xs.foldl max (xs.headD 0)
  u32 c.num ++ u8 w.input ++ u8 (mode + 1) ++ u16 cols ++ u64 xs.length ++ iN 2 mn ++ iN 2 mx
    ++ u32 (min (2 ^ 32 - 1) (xs.filter (fun x => x == 32767 || x == -32768)).length)
    ++ iN 8 (xs.foldl (· + ·) 0) ++ leBytes 16 (xs.foldl (fun a x => a + x * x) 0).toNat ++ u64 (w.len / cols) ++ zeros 8
    ++ statRaster mode cols (c.field Reg.CAP_SSTAT_HIT) (c.field Reg.CAP_SSTAT_DK) w.len vs

/-- CAPSTAT_DONE (R310): one record for each input, EV343. -/
def execCapstatDone (num : Nat) (s : State) : Res :=
  .next <| match s.capOf num with
    | some c =>
      bif c.state == 3 && c.field Reg.CAP_SCFG_STATS == 1 && !c.stats && s.get Reg.PWR_STAT_MODE.z == 4 && s.capWritten c then
        let s := (c.wins.filter CapWin.live).foldl (fun s w => s.capRecord c 0x22 (s.capStat c w)) s
        (s.setCap { c with stats := true }).ev 343
      else s
    | none => s

/-- The DATA records of one page's part of a window, at most DMAX × 64 bytes of samples each (R308, R309). -/
def State.capData (s : State) (c : Capture) (w : CapWin) (p : RecPage) : State :=
  let q := partOf w p
  let k := if p.c16 then 4 else 2
  let per := c.field Reg.CAP_SDEST_DMAX * 64 / k
  (upto (ceilDiv q.2 (max 1 per))).foldl (fun s j =>
    let first := idxAdd q.1 (j * per : Nat)
    let cnt := min per (q.2 - j * per)
    let a := p.addr + 64 + ((idxSub q.1 p.first).toNat + j * per) * k
    let lost := ((upto cnt).filter (fun i => (upto k).any (fun b => s.poisoned (a + i * k + b)))).length
    let gaps := unionCount first cnt (s.gapIvs w.input first)
    let body := u32 c.num ++ u8 w.input ++ u8 (if p.c16 then 2 else 1)
      ++ u16 (b2n (lt 0 gaps) + 2 * b2n (lt 0 lost) + 4 * b2n p.watch) ++ u48 first ++ zeros 2 ++ u32 cnt ++ u32 gaps
      ++ s.peekAll a (cnt * k)
    let s := s.capRecord c 0x21 body
    bif lost == 0 then s
    else
      let s := ((s.count64 (Reg.REC_LOSS_L_VAL.e w.input) (Reg.REC_LOSS_H_VAL.e w.input) lost)).ev 340
      match s.capOf c.num with
      | some d => s.setCap { d with lost := d.lost + lost }
      | none => s) s

/-- READOUT_END (R306, R308, R309): the DATA records and the END record; EV331, and release with AUTOREL. -/
def execReadoutEnd (num : Nat) (s : State) : Res :=
  .next <| match s.capOf num with
    | some c =>
      bif c.state == 3 && (c.stats || c.field Reg.CAP_SCFG_STATS == 0) && s.get Reg.PWR_STAT_MODE.z == 4 && s.capWritten c then
        let s := (c.wins.filter CapWin.live).foldl (fun s w =>
          (s.winPages w).foldl (fun s p => s.capData c w p) s) s
        match s.capOf num with
        | some d =>
          let s := (s.capEnds d 2 (bif d.cut then 7 else 0) (s.capKept d)).ev 331
          bif d.field Reg.CAP_SCFG_AUTOREL == 1 then s.capFree d else s.setCap { d with state := 2 }
        | none => s
      else s
    | none => s

/-! ### Watch, wake and Sleep (R313 to R317) -/

/-- A window cut at the last index that the ring holds of its input (R313). -/
def State.winCut (s : State) (w : CapWin) : CapWin :=
  let next := match (s.recIn w.input).pages.find? (fun p => !p.watch) with
    | some p => idxSub (idxAdd p.first p.count) w.first
    | none => 0
  { w with lim := min w.lim next.toNat }

/-- Entry to Watch (R313): pages closed short, captures being filled cut at the last index written. -/
def State.recWatch (s : State) : State :=
  bif s.get recState == 0 then s
  else
    let s := (upto 128).foldl State.pageClose s
    let s := s.rcd.captures.foldl (fun s c =>
      bif c.state == 1 && c.mapped then s.setCap { c with cut := true, wins := c.wins.map s.winCut } else s) s
    s.recTo 2

/-- An enabled recorder that is OFF in Watch takes state WATCH (R313). -/
def State.recWatchOn (s : State) : State :=
  bif s.on Reg.REC_CTRL_EN.z && s.get recState == 0 && s.get Reg.PWR_STAT_MODE.z == 3 then s.recTo 2 else s

/-- Entry to Sleep (R317): the ring, the watch ring and every capture are discarded. -/
def State.recSleep (s : State) : State :=
  let k := s.rcd.captures.length
  let s := s.rcd.captures.foldl (fun s c => (s.put (Reg.CAP_DSTAT1_STATE.e c.desc) 0).ev 332) s
  let s := s.count Reg.CAP_ABANDON_COUNT.z k
  let clear (x : RecInput) : RecInput :=
    { x with pages := [], fill := none, watch := [], wfill := none, wnext := 0, reserved := [], hole := false }
  let ins := s.rcd.inputs.map (fun x => (x.1, clear x.2))
  let s := { s with rcd := { s.rcd with captures := [], hold := false, inputs := ins } }
  (s.recSync).recTo 0

/-- The earliest window start of the captures being filled (R315). -/
def State.firstStart (s : State) : Option Nat :=
  let cs := s.rcd.captures.filter (fun c => c.state == 1 && c.mapped && !c.cut)
  let ts := cs.flatMap (fun c => (c.wins.filter CapWin.live).map (fun w => s.pinTag w.input w.first))
  match ts with
  | [] => none
  | t :: rest => some (rest.foldl (fun a b => if lt b a then b else a) t)

/-- A wake request at t_w = now puts the watch ring in HOLD and frees the pages it need not keep (R315). -/
def State.recWake (s : State) : State :=
  bif s.get recState == 2 && s.on Reg.REC_CTRL_WATCHEN.z && !s.rcd.hold then
    let limit := s.firstStart.getD (tagAdd s.now (-(ns48 39690 : Nat)))
    (upto 128).foldl (fun s n =>
      let x := s.recIn n
      let keep (p : RecPage) : Bool := !lt (s.pinTag n (idxAdd p.first p.count)) limit
      bif x.watch.isEmpty then s else s.setRecIn n { x with watch := x.watch.filter keep }) { s with rcd := { s.rcd with hold := true } }
  else s

/-- The next `k` free slots of the writer. -/
def State.takeSlots (n : Nat) : Nat → State → State
  | 0, s => s
  | k + 1, s =>
    match s.freeSlot n with
    | some j =>
      let x := s.recIn n
      State.takeSlots n k (s.setRecIn n { x with reserved := x.reserved ++ [j], next := (j + 1) % max 1 x.slots })
    | none => s

/-- HBM_WRITER_START (R315, R316): slots are reserved for the held watch samples, live samples follow them, and captures not
mapped yet are mapped. -/
def execHbmWriterStart (s : State) : Res :=
  .next <| bif s.on Reg.REC_CTRL_EN.z && (s.get recState == 2 || s.get recState == 0) && s.runs then
      let s := (upto 128).foldl State.watchClose s
      let held := (upto 128).any (fun n => !(s.recIn n).watch.isEmpty)
      let s := (upto 128).foldl (fun s n =>
        let b := sumOf ((s.recIn n).watch.map (·.count))
        State.takeSlots n (max (ceilDiv b (pageCap (s.isC16 n))) (ceilDiv (s.recIn n).watch.length 16)) s) s
      let s := s.recTo (if held then 3 else 1)
      s.rcd.captures.foldl (fun s c => bif c.mapped then s else
        match s.capMap c with
        | (s2, none) => s2
        | (_, some code) => (s.capRefuse c code).capFree c) s
    else s

/-- The held watch pages of input `n` move, oldest first, into its reserved slots, 16 to a slot. -/
def State.drain (s : State) (n : Nat) : State :=
  let x := s.recIn n
  let ps := x.watch.reverse
  let moved := (ps.zip (upto ps.length)).filterMap (fun c =>
    (x.reserved[c.2 / 16]?).map (fun k => (c.1, { c.1 with slot := k, addr := s.slotAddr n k + 4096 * (c.2 % 16) })))
  let s := moved.foldl (fun s m => s.pokeAll m.2.addr (s.peekAll m.1.addr 4096)) s
  let fresh := (moved.map (·.2)).reverse
  let top := maxOf (fresh.map (·.seq))
  let keep := x.pages.filter (fun p => !(x.reserved.map (· + x.base)).contains (s.areaSlot p))
  s.setRecIn n { x with watch := [], reserved := [],
                        pages := keep.filter (fun p => lt top p.seq) ++ fresh ++ keep.filter (fun p => !lt top p.seq) }

/-- WATCH_DRAIN_DONE (R315). -/
def execWatchDrainDone (s : State) : Res :=
  .next <| bif s.get recState == 3 then
      let s := (upto 128).foldl State.drain s
      (({ s with rcd := { s.rcd with hold := false } }.recSync).recTo 1).ev 335
    else s

/-! ### Shrinking and folds (R318, 15 R477) -/

/-- Slots input `n` gives up, highest first, among those it may. -/
def State.giveable (s : State) (n k : Nat) : List Nat :=
  let x := s.recIn n
  let bad := s.slotsBarred n
  ((upto x.slots).reverse.filter (fun j => !bad.contains j)).take k

/-- The recorder gives up about `total` slots in proportion to p_n (R318). -/
def State.recShrink (s : State) (total : Nat) : State :=
  let sum := sumOf ((upto 128).map (fun n => (s.recIn n).slots))
  let s := (upto 128).foldl (fun s n =>
    let x := s.recIn n
    let g := s.giveable n (ceilDiv (total * x.slots) (max 1 sum))
    bif g.isEmpty then s
    else
      let goes (p : RecPage) : Bool := (g.map (· + x.base)).contains (s.areaSlot p)
      let gone := x.pages.filter goes
      let s := s.setRecIn n { x with given := g ++ x.given, pages := x.pages.filter (fun p => !goes p) }
      s.count64 (Reg.REC_LOSS_L_VAL.e n) (Reg.REC_LOSS_H_VAL.e n) (sumOf (gone.map (·.count)))) s
  ((s.flag Reg.REC_STAT_DEGR.z true).recSync).ev 341

/-- Grains outside logical rank `u` in the slots given up since `before`. -/
def State.givenGrains (s : State) (before : Nat → List Nat) (u : Nat) : Nat :=
  sumOf ((upto 128).map (fun n =>
    sumOf (((s.recIn n).given.filter (fun k => !(before n).contains k)).map (fun k =>
      ((upto (65536 / s.grain)).filter (fun j => s.rankOf (s.slotAddr n k + j * s.grain) != u)).length))))

/-- FOLD (15 R477): the recorder shrinks and the copy toward the given-up slots begins, or the logical rank is LOST. -/
def execFold (s : State) : Res :=
  .next <| match s.msys.mig with
    | some (u, p, none) =>
      bif s.get Reg.MEM_STAT_MIG.z != 3 then s
      else
        let d := s.grainsD
        let slots := ceilDiv d (65536 / s.grain)
        let total := slots + ceilDiv slots (max 1 (s.ranksU - 1)) + 1
        let s2 := s.recShrink total
        bif s.on Reg.REC_CTRL_EN.z && lt (s.get Reg.MEM_STAT_FOLDS.z) 4 &&
            le d (s2.givenGrains (fun n => (s.recIn n).given) u) then
          s2.put Reg.MEM_STAT_MIG.z 1
        else
          let s := (s.setRemap u { s.remapOf u with lost := true }).flag Reg.MEM_STAT_LOST.z true
          let s := ({ s with msys := { s.msys with mig := none } }).put Reg.MEM_STAT_MIG.z 0
          (s.rankTo p 4).put (Reg.MEM_RANK_LOGICAL.e p) 0x3FF
    | _ => s

/-! ### The swap (R322) -/

/-- The ring is laid out anew (R322): current pages closed short, unpinned history discarded; pinned pages stay. -/
def State.recRepartition (s : State) (lay : List (Nat × Nat × Nat)) : State :=
  let s := (upto 128).foldl State.pageClose s
  let s := (upto 128).foldl (fun s n =>
    let x := s.recIn n
    let l := (lay.find? (fun e => e.1 == n)).map (·.2)
    s.setRecIn n { x with base := (l.map (·.1)).getD 0, slots := (l.map (·.2)).getD 0, given := [], next := 0, reserved := [],
                          pages := x.pages.filter (s.pinned n) }) s
  s.recSync

/-- The layout in force. -/
def State.layoutNow (s : State) : List (Nat × Nat × Nat) :=
  (recLayout (s.liveView .recorder) (s.liveView .ingress)).map (fun e => (e.1, (s.recIn e.1).base, (s.recIn e.1).slots))

/-- At a commit's instant the ring is repartitioned where the commit changes its layout (R322). -/
def State.recCommit (s : State) : State :=
  let rec2 := bif s.adm.named.contains .recorder then s.stagedView .recorder else s.liveView .recorder
  let lay := recLayout rec2 s.ingNext
  let old := recLayout (s.liveView .recorder) (s.liveView .ingress)
  let format (ing : BankView) := lay.map (fun l => (ing.get (Reg.ING_RATE_RATE.e l.1), ing.get (Reg.ING_ICFG_FMT.e l.1)))
  let changed := lay != old || recSlots rec2 != recSlots (s.liveView .recorder) || format s.ingNext != format (s.liveView .ingress)
  bif rec2.on Reg.REC_CTRL_EN.z && (changed || !s.on Reg.REC_CTRL_EN.z) then s.recRepartition lay else s

/-- RECORDER_SWAP: the bank becomes live (R322); an enabled recorder runs in Full mode and is in WATCH in Watch; a disabled one
is OFF. -/
def execRecorderSwap (s : State) : Res :=
  .next <| bif s.maySwap .recorder then
      let s := s.swapWhere .recorder (fun _ => true)
      let s := (s.flag Reg.REC_STAT_SWPEND.z false).ev 342
      let s := bif !s.on Reg.REC_CTRL_EN.z then s.recTo 0
        else bif s.get recState == 0 && s.get Reg.PWR_STAT_MODE.z == 4 then s.recTo 1 else s.recWatchOn
      s.recSync.swapDone .recorder
    else s

end Sys2Proof.Machine
end

