-- ==== Sys2Proof/Machine/Stim.lean ====
section
/-! DEFINITION. The stimulus generator (18_stimulus_and_calibration.md R544 to R554): transmit lanes, frames, segments and
steps, tones, the output sum, power modes and the swap. -/

namespace Sys2Proof.Machine

def State.chn (s : State) (c : Nat) : StimChan := tget (fun _ => StimChan.reset) s.stm.chans c
def State.setChn (s : State) (c : Nat) (x : StimChan) : State :=
  { s with stm := { s.stm with chans := tinsert s.stm.chans c x } }
def stmState (c : Nat) : Loc := Reg.STM_CSTAT_STATE.e c

/-- Channel `c` takes state `v`: 0 OFF, 1 IDLE, 2 TRAINING, 3 RUNNING, 4 DONE; a change raises EV504 (R568). -/
def State.stmTo (s : State) (c v : Nat) : State :=
  bif s.get (stmState c) == v then s
  else
    let s := s.put (stmState c) v
    (s.put Reg.STM_STAT_RUN.z (putBits (s.get Reg.STM_STAT_RUN.z) c 1 (b2n (v == 3)))).ev 504

/-- The bank channel `c` plays from: the staged one once it has swapped in the commit under way (R554). -/
def State.stmBank (s : State) (c : Nat) : BankView :=
  bif s.maySwap .stimulus && !s.stm.left.contains c then s.stagedView .stimulus else s.liveView .stimulus

/-! ### Samples (R548, R551, R552) -/

/-- The value of tone `t` at index `j` (R551). -/
def toneAt (b : BankView) (t j : Nat) : Int :=
  let ftw := b.get (Reg.STM_TFTW_L_FTW.e t) + b.get (Reg.STM_TFTW_H_FTW.e t) * 2 ^ 32
  let phase := (ftw * j + b.get (Reg.STM_TPH_POFS.e t) * 2 ^ 32) % 2 ^ 48
  rnd ((b.get (Reg.STM_TCFG_AMP.e t) : Int) * mixCoef (cosTurn ((phase / 2 ^ 28 : Nat) : Int) (2 ^ 20))) 17

/-- The tones of channel `c`. -/
def tonesOf (b : BankView) (c : Nat) : List Nat :=
  (upto 64).filter (fun t => b.on (Reg.STM_TCFG_EN.e t) && b.get (Reg.STM_TCFG_CH.e t) == c)

/-- y(j) before saturation, for the segment sample `x` (R552). -/
def stimSum (b : BankView) (c j : Nat) (x : Int) : Int :=
  rnd (x * sext 16 (b.get (Reg.STM_CCFG_GSEG.e c))) 14 + ((tonesOf b c).map (fun t => toneAt b t j)).foldl (· + ·) 0

/-- The segment plays on channel `c`: it runs a sequence that has not ended. -/
def State.plays (s : State) (c : Nat) : Bool := (s.stmBank c).on (Reg.STM_CCFG_SEQEN.e c) && s.get (stmState c) == 3

/-- The segment of the present step, and the samples to the next boundary: a repetition, or without a segment up to the next index that
is a multiple of 65,536 (R549). -/
def State.segOf (s : State) (c : Nat) : Nat := (s.stmBank c).get (Reg.STM_STEP_SEG.e2 c (s.get (Reg.STM_CSTAT_STEP.e c)))
def State.segLen (s : State) (c : Nat) : Nat :=
  bif s.plays c then 64 * (s.stmBank c).get (Reg.STM_SLEN_LEN.e (s.segOf c)) else 65536 - (s.chn c).idx % 65536

/-- Sample `k` of segment `g`: none where its word is poisoned (R548, R550). -/
def State.segSample (s : State) (b : BankView) (g k : Nat) : Option Int :=
  let a := b.get (Reg.STM_SBASE_L_BASE.e g) + b.get (Reg.STM_SBASE_H_BASE.e g) * 2 ^ 32 + 2 * k
  if s.poisoned a || s.poisoned (a + 1) then none else some (sext 16 (leNat (s.peekAll a 2)))

/-! ### Emission (R545, R550, R552) -/

/-- A WSF frame of 1000 S16 samples (R545, 04 R119, R120). -/
def stimFrame (counter src rate flags : Nat) (ys : List Int) : List Byte :=
  let head := u16 0x4657 ++ u8 1 ++ u8 1 ++ u16 2048 ++ u16 flags ++ u48 counter ++ u16 src ++ u32 rate ++ zeros 24
  let data := ys.flatMap (iN 2)
  head ++ u32 (crc32c (head ++ zeros 4 ++ data)) ++ data

/-- Whole frames leave the buffer of channel `c`. -/
def State.stimFrames (c : Nat) : Nat → State → State
  | 0, s => s
  | fuel + 1, s =>
    let x := s.chn c
    bif lt x.buf.length 1000 then s
    else
      let b := s.stmBank c
      let flags := b2n x.restart + 2 * b2n (le (s.get Reg.CLK_STAT_STATE.z) 1)
      let f := stimFrame ((x.idx - x.buf.length) % 2 ^ 48) (b.get (Reg.STM_TXCFG_SRCID.e c)) (b.get (Reg.STM_RATE_RATE.e c)) flags
        (x.buf.take 1000)
      State.stimFrames c fuel ((s.setChn c { x with buf := x.buf.drop 1000, restart := false }).emit (.stimFrame c f))

/-- Flag `f` of channel `c` is set, with EV504 where it was not (R568). -/
def State.stmFlag (s : State) (c : Nat) (f : Fld) : State := bif s.on (f.e c) then s else (s.flag (f.e c) true).ev 504

/-- `k` samples of a repetition are emitted; the offsets in `missing` had not arrived from HBM (R550, R552). -/
def State.stimPlay (s : State) (c k : Nat) (missing : List Nat) : State :=
  let b := s.stmBank c
  let x := s.chn c
  let plays := s.plays c
  let g := s.segOf c
  let seg (d : Nat) : Option Int := if plays then (if missing.contains d then none else s.segSample b g d) else some 0
  let xs := (upto k).map seg
  let ys := (xs.zip (upto k)).map (fun p => stimSum b c (x.idx + p.2) (p.1.getD 0))
  let under := (xs.filter (·.isNone)).length
  let sat := (ys.filter (clipsS 16)).length
  let out := ys.map (satS 16)
  let s := s.setChn c { x with idx := x.idx + k, buf := x.buf ++ out, sent := (x.idx, out) :: x.sent }
  let s := bif under == 0 then s else ((s.count (Reg.STM_UNDER_COUNT.e c) under).degrLoss .stimulus under).stmFlag c Reg.STM_CSTAT_UNDER
  let s := bif sat == 0 then s else (s.count (Reg.STM_SAT_COUNT.e c) sat).stmFlag c Reg.STM_CSTAT_SAT
  let s := s.put64 (Reg.STM_IDX_L_IDX.e c) (Reg.STM_IDX_H_IDX.e c) (x.idx + k)
  State.stimFrames c (k / 1000 + 2) s

/-! ### Starting, stepping, stopping (R546, R549, R553) -/

/-- TXLEAD in units of 2⁻⁸⁰ s. -/
def txLead (b : BankView) (c : Nat) : Int := rndDiv ((b.get (Reg.STM_TXCFG_TXLEAD.e c) : Int) * 2 ^ 80) 10000000

/-- t(j) in units of 2⁻⁸⁰ s, and as a tag (R546, R549). -/
def StimChan.time (x : StimChan) (j : Nat) : Int := x.tStart + j * x.period
def StimChan.tag (x : StimChan) : Nat := toU 96 (rnd (x.time x.idx) 32)

/-- A boundary of a step with MARK raises EV505 and captures its tag (R549). -/
def State.stimMark (s : State) (c : Nat) : State :=
  bif s.plays c && (s.stmBank c).on (Reg.STM_STEP_MARK.e2 c (s.get (Reg.STM_CSTAT_STEP.e c))) then
    (s.put96 Reg.STM_MARK_L_TAG.z Reg.STM_MARK_M_TAG.z Reg.STM_MARK_H_TAG.z (s.chn c).tag).raise 505 (s.chn c).tag
  else s

/-- The sequence of channel `c` begins at SEQ0. -/
def State.seqStart (s : State) (c : Nat) : State :=
  (s.put (Reg.STM_CSTAT_STEP.e c) ((s.stmBank c).get (Reg.STM_CCFG_SEQ0.e c))).setChn c { s.chn c with rep := 0 }

/-- The channel starts at index 0, with T_start = t_c + TXLEAD (R546). -/
def State.stimStart (s : State) (c tc : Nat) : State :=
  let b := s.stmBank c
  let p := period80 (1000 * b.get (Reg.STM_RATE_RATE.e c))
  let s := s.setChn c { StimChan.reset with tStart := (tc : Int) * 2 ^ 32 + txLead b c, period := p, restart := true }
  let s := s.put64 (Reg.STM_IDX_L_IDX.e c) (Reg.STM_IDX_H_IDX.e c) 0
  ((s.seqStart c).stmTo c 3).stimMark c

/-- After the last repetition of a step the sequence takes its NEXT, or ends (R549). -/
def State.stimNext (s : State) (c : Nat) : State :=
  bif s.plays c then
    let b := s.stmBank c
    let q := s.get (Reg.STM_CSTAT_STEP.e c)
    let x := s.chn c
    let n := b.get (Reg.STM_STEP_REP.e2 c q)
    bif n == 0 || lt (x.rep + 1) n then s.setChn c { x with rep := x.rep + 1 }
    else bif b.on (Reg.STM_STEP_END.e2 c q) then s.stmTo c 4
    else (s.put (Reg.STM_CSTAT_STEP.e c) (b.get (Reg.STM_STEP_NEXT.e2 c q))).setChn c { x with rep := 0 }
  else s

/-- The channel runs: RUNNING or DONE. -/
def State.stmRuns (s : State) (c : Nat) : Bool := s.get (stmState c) == 3 || s.get (stmState c) == 4

/-- The channel stops where it is; its lane sends IDLE. -/
def State.stimStop (s : State) (c : Nat) : State :=
  bif s.stmRuns c then (s.setChn c { s.chn c with buf := [], tc := none }).stmTo c 1 else s.setChn c { s.chn c with tc := none }

/-- STIM_LANE_TRAINED (R544): IDLE; a start whose t_c has passed meanwhile takes the end of the training as its t_c. -/
def execStimLaneTrained (c : Nat) (s : State) : Res :=
  .next <| bif lt c 16 && s.get (stmState c) == 2 then
      let x := s.chn c
      let late (t : Nat) : Nat := if lt t s.now then s.now else t
      (s.setChn c { x with tc := x.tc.map late }).stmTo c 1
    else s

/-- STIM_CHANNEL_START (R546). -/
def execStimChannelStart (c : Nat) (s : State) : Res :=
  .next <| match (s.chn c).tc with
    | none => s
    | some tc =>
      bif lt c 16 && s.get (stmState c) == 1 && s.get Reg.PWR_STAT_MODE.z == 4 then s.stimStart c tc else s

/-! ### Modes (R553) -/

/-- At entry to Watch a channel stops at the end of the frame in progress. -/
def State.stimHalt (s : State) (c : Nat) : State :=
  bif s.stmRuns c then
    let x := s.chn c
    let lead := txLead (s.stmBank c) c
    let j := (((s.now : Int) * 2 ^ 32 - (x.tStart - lead)) / x.period).toNat
    let stop := (j / 1000 + 1) * 1000
    (s.stimPlay c (min (stop - x.idx) (s.segLen c)) []).stimStop c
  else s.stimStop c
def State.stimWatch (s : State) : State := (upto 16).foldl State.stimHalt s

/-- At entry to Sleep the lanes go OFF. -/
def State.stimSleep (s : State) : State := (upto 16).foldl (fun s c => (s.stimStop c).stmTo c 0) s

/-- At entry to Full: lanes that were OFF train, and channels with EN = 1 start. -/
def State.stimWake (s : State) : State :=
  (upto 16).foldl (fun s c =>
    let s := bif s.on (Reg.STM_CCFG_LANEEN.e c) && s.get (stmState c) == 0 then s.stmTo c 2 else s
    bif s.on (Reg.STM_CCFG_EN.e c) then s.setChn c { s.chn c with tc := some s.now } else s) s

/-! ### The swap (R554) -/

/-- A word of channel `c`, of one of its segments or of one of its tones changes with the commit. -/
def State.stmChanges (s : State) (c : Nat) : Bool :=
  let fs := [Reg.STM_CCFG_EN, Reg.STM_RATE_RATE, Reg.STM_TXCFG_TXLEAD]
  let steps := (upto 64).any (fun q => s.wordChanged .stimulus (Reg.STM_STEP_REP.e2 c q).off)
  let b := s.stagedView .stimulus
  let segs := (upto 64).any (fun q => let g := s.get (Reg.STM_STEP_SEG.e2 c q)
    [Reg.STM_SBASE_L_BASE, Reg.STM_SBASE_H_BASE, Reg.STM_SLEN_LEN].any (fun f => s.wordChanged .stimulus (f.e g).off))
  let tones := (upto 64).any (fun t => (s.get (Reg.STM_TCFG_CH.e t) == c || b.get (Reg.STM_TCFG_CH.e t) == c)
    && [Reg.STM_TCFG_EN, Reg.STM_TFTW_L_FTW, Reg.STM_TFTW_H_FTW, Reg.STM_TPH_POFS].any (fun f =>
      s.wordChanged .stimulus (f.e t).off))
  fs.any (fun f => s.wordChanged .stimulus (f.e c).off) || steps || segs || tones

/-- Every channel has swapped: EV507 (R554). -/
def State.stmDone (s : State) : State :=
  bif s.maySwap .stimulus && s.stm.left.isEmpty then
    (((s.swapWhere .stimulus (fun _ => true)).flag Reg.STM_STAT_SWPEND.z false).ev 507).swapDone .stimulus
  else s

/-- The words of a channel. -/
def chanFields : List Fld := [Reg.STM_CCFG_EN, Reg.STM_RATE_RATE, Reg.STM_TXCFG_TXLEAD, Reg.STM_STEP_REP]

/-- Channel `c` swaps at instant `tc`: a change of EN or RATE stops it and it starts anew; lanes follow LANEEN. -/
def State.stimSwap (s : State) (c tc : Nat) : State :=
  let a := s.liveView .stimulus
  let b := s.stagedView .stimulus
  let f (v : BankView) (x : Fld) : Nat := v.get (x.e c)
  let s := { s with stm := { s.stm with left := s.stm.left.filter (· ≠ c) } }
  let s := s.swapWhere .stimulus (ofElem chanFields c)
  let restart := f a Reg.STM_CCFG_EN != f b Reg.STM_CCFG_EN || f a Reg.STM_RATE_RATE != f b Reg.STM_RATE_RATE
  let lane := f b Reg.STM_CCFG_LANEEN == 1
  let s := bif restart || !lane then s.stimStop c else s
  let s := bif !lane then s.stmTo c 0
    else bif s.get (stmState c) == 0 && s.runs then s.stmTo c 2 else s
  let s := bif restart && f b Reg.STM_CCFG_EN == 1 && s.get Reg.PWR_STAT_MODE.z == 4 then
      s.setChn c { s.chn c with tc := some tc }
    else s
  let s := bif !restart && f a Reg.STM_CCFG_SEQEN == 0 && f b Reg.STM_CCFG_SEQEN == 1 && s.stmRuns c then
      (s.seqStart c).stmTo c 3
    else s
  s.stmDone

end Sys2Proof.Machine
end

