-- ==== Sys2Proof/Machine/Calib.lean ====
section
/-! DEFINITION. The calibration sequencer (18_stimulus_and_calibration.md R555 to R566): runs, the presence of the stimulus,
the five procedures, results and where they are written; and the stimulus swap, which can end a run. -/

namespace Sys2Proof.Machine

/-! ### Arguments of complex sums, in fixed point (R560) -/

/-- Σ (−1)^k x^(2k+1) ÷ (2k+1). -/
def atanTerms (x2 : Int) : Nat → Int → Int → Int
  | 0, _, _ => 0
  | fuel + 1, k, pw => pw / (2 * k + 1) - atanTerms x2 fuel (k + 1) (pw * x2 / fixOne)

/-- arctan of `x` in 0 to 1, halved four times before the series. -/
def atanFix (x : Int) : Int :=
  let half (x : Int) : Int := x * fixOne / (fixOne + (isqrt (fixOne * fixOne + x * x).toNat : Int))
  let y := half (half (half (half x)))
  16 * atanTerms (y * y / fixOne) 40 0 y

/-- The argument of (re, im), in −π to π. -/
def argFix (z : Int × Int) : Int :=
  let a : Int := z.1.natAbs
  let b : Int := z.2.natAbs
  if a = 0 ∧ b = 0 then 0
  else
    let t := if b ≤ a then atanFix (b * fixOne / a) else piFix / 2 - atanFix (a * fixOne / b)
    let t := if z.1 < 0 then piFix - t else t
    if z.2 < 0 then -t else t

/-- `p` brought within π of `last` by whole turns. -/
def unwrapTo (last p : Int) : Int := p - 2 * piFix * ((p - last + piFix) / (2 * piFix))

/-- Successive arguments unwrapped. -/
def unwrapAll : Int → List Int → List Int
  | _, [] => []
  | last, p :: ps => let q := unwrapTo last p
                     q :: unwrapAll q ps

/-! ### Settings of a run (R555, R557) -/

def calStim (s : State) : Nat := s.get Reg.CAL_PAR0_STIM.z
def calNavg (s : State) : Nat := 2 ^ (8 + s.get Reg.CAL_PAR0_NAVGLOG.z)
def calRef (s : State) : Nat := s.get Reg.CAL_PAR0_REF.z

/-- The targets CAL_SEL names. -/
def State.calTargets (s : State) : List Nat := (upto 128).filter (fun n => s.sel Reg.CAL_SEL_SEL n)

/-- A target at PRECHECK with the outcome of its own condition (R557): none when it may be measured. -/
def State.calOwn (s : State) (op n : Nat) : Option Nat :=
  let up := s.get (Reg.ING_ISTAT_STATE.e n) == 2
  match op with
  | 1 => if (s.get (laneState n) = 3 ∨ s.get (laneState n) = 4) ∧ s.get (Reg.ING_LCFG_CHK.e n) = 0
            ∧ s.get (Reg.ING_LCFG_PWRDN.e n) = 0 then none else some 1
  | 2 => if !up || s.isC16 n then some 1 else if !(s.recorded n && s.get recState == 1) then some 3 else none
  | 3 => if up && s.on (Reg.CCH_ICFG_MAINEN.e n) then none else some 1
  | 4 => if up && s.on (Reg.FCH_ICFG_EN.e n)
            && !(fineBins (s.liveView .fine) n (coarseBins (s.liveView .coarse) n)).isEmpty then none else some 1
  | _ => if n < 2 then none else some 1

/-- All members of a list of settings agree. -/
def agree (l : List (Nat × Nat)) : Bool := l.all (fun x => decide (some x = l.head?))

/-- The shared conditions of R557: the status every target takes where one fails. -/
def State.calShared (s : State) (op : Nat) (ns : List Nat) : Option Nat :=
  let c := calStim s
  let run := s.get (stmState c) == 3
  let set (n : Nat) : Nat × Nat := (s.get (Reg.ING_RATE_RATE.e n), s.get (Reg.CCH_ICFG_NLOG.e n))
  match op with
  | 2 => if !run || !s.plays c || (s.calOwn 2 (calRef s)).isSome then some 1
         else if agree ((calRef s :: ns).map set) then none else some 2
  | 3 => if !run then some 1 else if agree (ns.map set) then none else some 2
  | 4 =>
    let slot := 16 + s.get Reg.CAL_PAR2_SLOT.z
    let used := (upto 128).any (fun n => s.on (Reg.FCH_ICFG_EN.e n)
      && (s.get (Reg.FCH_WIN_WIN.e n) == slot || s.get (Reg.FCH_WIN_FLAT.e n) == slot))
    if !run || used then some 1
    else if agree (ns.map (fun n => (s.get (Reg.FCH_ICFG_NBLOG.e n), 0))) then none else some 2
  | _ => none

/-- A target as PRECHECK sees it. -/
def State.calTarget (s : State) (n : Nat) (st : Option Nat) : CalTarget :=
  { target := n, status := st, main0 := 0, fine0 := 0, stored := (s.lane n).stored }

/-! ### Ending a run (R555, R556, R565) -/

/-- A result that only states a status. -/
def plainResult (n st : Nat) : CalResult := ⟨n, st, false, 0, 0, 0, [], 0, (0, 0)⟩

/-- CAL_RES of a target (R567). -/
def State.calShow (s : State) (r : CalResult) : State :=
  let n := r.target
  let s := (s.put (Reg.CAL_RES0_STATUS.e n) r.status).flag (Reg.CAL_RES0_SEAM.e n) r.seam
  let s := (s.put (Reg.CAL_RES0_BAD.e n) (min 2047 r.bad)).put (Reg.CAL_RES0_COH.e n) (min 65535 r.coh)
  s.putI (Reg.CAL_RES1_VALUE.e n) (satS 32 r.value)

/-- The staged gain table of input `n` (R565). -/
def State.writeGains (s : State) (n : Nat) (gs : List Nat) : State :=
  (gs.zip (upto gs.length)).foldl (fun s g =>
    s.put (((if g.2 % 2 = 0 then Reg.CCH_GAIN_G_EVEN else Reg.CCH_GAIN_G_ODD).e2 n (g.2 / 2)).staged .coarse) g.1) s

/-- The staged fine palette slot takes a flattening table (R563). -/
def State.writeTable (s : State) (slot : Nat) (t : List Nat) : State :=
  let s := s.put ((Reg.FCH_PALHDR_KIND.e slot).staged .fine) 2
  let s := s.put ((Reg.FCH_PALHDR_LEN.e slot).staged .fine) t.length
  (upto (t.length / 2)).foldl (fun s k =>
    s.put ((Reg.FCH_PAL_WORD.e2 slot k).staged .fine) (t.getD (2 * k) 0 + 65536 * t.getD (2 * k + 1) 0)) s

/-- APPLY for one OK result; one whose staged bank is frozen takes FROZEN (R565). -/
def State.calApply1 (s : State) (op : Nat) (r : CalResult) : State × CalResult :=
  let n := r.target
  match op with
  | 2 => (s.putI (Reg.TB_INDELAY_DELAY.e n) r.delay, { r with status := 0 })
  | 3 => bif s.on Blk.coarse.frozen then (s, { r with status := 10 }) else (s.writeGains n r.gains, { r with status := 0 })
  | 4 => (s, { r with status := if s.on Blk.fine.frozen then 10 else 0 })
  | 5 => (((s.trimsHeld n).put (Reg.HK_TRIM_OFS.e n) r.trim.1).put (Reg.HK_TRIM_GAIN.e n) r.trim.2, { r with status := 0 })
  | _ => (s, r)

/-- APPLY for a list of results. -/
def State.calApply (s : State) (op : Nat) (table : List Nat) (rs : List CalResult) : State × List CalResult :=
  let p := rs.foldl (fun (a : State × List CalResult) r =>
    bif r.status == 0 || r.status == 10 then let b := a.1.calApply1 op r
                                             (b.1, a.2 ++ [b.2])
    else (a.1, a.2 ++ [r])) (s, [])
  bif op == 4 && p.2.any (fun r => r.status == 0) then (p.1.writeTable (s.get Reg.CAL_PAR2_SLOT.z) table, p.2) else p

/-- RESULT (R556). -/
def resultOf (rs : List CalResult) : Nat :=
  let ok := (rs.filter (fun r => r.status == 0)).length
  if ok = 0 then 2 else if ok = rs.length then 0 else 1

/-- The run ends with these results (R555, R556, R565). -/
def State.calEnd (s : State) (c : CalRun) (table : List Nat) (rs : List CalResult) : State :=
  let res := resultOf rs
  let go := c.apply && (res == 0 || (res == 1 && c.part)) && c.op != 1
  let p := bif go then s.calApply c.op table rs else (s, rs)
  let keep := bif c.op == 1 then [] else p.2.filter (fun r => r.status == 10 || (!go && r.status == 0))
  let s := p.2.foldl State.calShow p.1
  let s := { s with stm := { s.stm with run := none, kept := keep, keptOp := c.op, table := table } }
  let s := (s.put Reg.CAL_STAT_STATE.z 0).put Reg.CAL_STAT_RESULT.z (resultOf p.2)
  let s := (s.put Reg.CAL_STAT_PASS.z (p.2.filter (fun r => r.status == 0)).length).flag Reg.CAL_STAT_STORED.z (!keep.isEmpty)
  s.ev 506

/-- The whole run ends at once: every unfinished target takes status `code` (R556). -/
def State.calStop (s : State) (code : Nat) : State :=
  match s.stm.run with
  | none => s
  | some c => s.calEnd c [] (c.targets.map (fun t => plainResult t.target (t.status.getD code)))

/-- Entry to Watch or Sleep ends a run (R556). -/
def State.calMode (s : State) : State := s.calStop 8

/-! ### Starting a run (R555, R557) -/

/-- A write of CAL_CMD with a procedure: PRECHECK, then SETTLE for the targets that passed. -/
def State.calStart (s : State) (op : Nat) (apply part : Bool) : State :=
  bif s.stm.run.isSome then s.bad .stimulus
  else
    let ns := s.calTargets
    let all := s.calShared op ns
    let ts := ns.map (fun n => s.calTarget n (match all with
      | some k => some k
      | none => s.calOwn op n))
    let r := bif op == 2 then some (s.calTarget (calRef s) none) else none
    let c : CalRun := ⟨op, apply, part, ts, r⟩
    let s := { s with stm := { s.stm with run := some c, kept := [], table := [] } }
    let s := (s.put Reg.CAL_STAT_LASTOP.z op).flag Reg.CAL_STAT_STORED.z false
    bif ts.all (fun t => t.status.isSome) then s.calStop 1 else s.put Reg.CAL_STAT_STATE.z 2

/-- CAL_LANE. -/
def execCalLane (apply part : Bool) (s : State) : Res := .next (s.calStart 1 apply part)
/-- CAL_ALIGN. -/
def execCalAlign (apply part : Bool) (s : State) : Res := .next (s.calStart 2 apply part)
/-- CAL_GAIN. -/
def execCalGain (apply part : Bool) (s : State) : Res := .next (s.calStart 3 apply part)
/-- CAL_FLAT. -/
def execCalFlat (apply part : Bool) (s : State) : Res := .next (s.calStart 4 apply part)
/-- CAL_MONITOR. -/
def execCalMonitor (apply part : Bool) (s : State) : Res := .next (s.calStart 5 apply part)
/-- CAL_ABORT (R556). -/
def execCalAbort (s : State) : Res := .next (s.calStop 11)

/-- CAL_APPLY (R565): stored results are written where their bank is not frozen. -/
def execCalApply (s : State) : Res :=
  .next <| bif s.stm.run.isSome then s.bad .stimulus
    else
      let p := s.calApply s.stm.keptOp s.stm.table s.stm.kept
      let keep := p.2.filter (fun r => r.status == 10)
      (({ p.1 with stm := { p.1.stm with kept := keep } }).flag Reg.CAL_STAT_STORED.z (!keep.isEmpty)).ev 506

/-- A target as MEASURE begins. -/
def State.calBegin (s : State) (t : CalTarget) : CalTarget :=
  { t with main0 := (s.specs 0 t.target).length, fine0 := (s.fin t.target).specs.length }

/-- CAL_SETTLE_DONE (R557): MEASURE begins; for LANE the selected lanes run a full adaptation (R559). -/
def execCalSettleDone (s : State) : Res :=
  .next <| match s.stm.run with
    | none => s
    | some c =>
      bif s.get Reg.CAL_STAT_STATE.z != 2 then s
      else
        let s1 := { s with stm := { s.stm with run := some { c with targets := c.targets.map s.calBegin, ref := c.ref.map s.calBegin } } }
        let s1 := s1.put Reg.CAL_STAT_STATE.z 3
        bif c.op == 1 then
          (c.targets.filter (fun t => t.status.isNone)).foldl (fun s t =>
            let s := s.laneFails t.target 2
            (s.laneAnew t.target true).laneTo t.target 2) s1
        else s1

/-! ### The reference spectra (R558) -/

/-- The sample channel `c` emitted at index `j`; 0 where it emitted none. -/
def State.played (s : State) (c : Nat) (j : Int) : Int :=
  match (s.chn c).sent.find? (fun r => decide ((r.1 : Int) ≤ j) && decide (j < r.1 + r.2.length)) with
  | some r => r.2.getD (j - r.1).toNat 0
  | none => 0

/-- The emitted index whose nominal time is nearest instant `t`. -/
def StimChan.near (x : StimChan) (t : Int) : Int := rndDiv (t - x.tStart) x.period

/-- Y of spectrum `p` of input `n`, the emitted stream shifted by `lag` samples. -/
def State.calY (s : State) (n : Nat) (p : Spectrum) (lag : Int) : List (Int × Int) :=
  let c := calStim s
  let b := s.frontBank n 0 p.first
  let c16 := s.isC16 n
  let k := gridLog b n 0 c16
  let w := windowOf b (b.get (Reg.CCH_WIN_WIN.e n)) (2 ^ k) p.len false
  let j := (s.chn c).near (s.tpin n p.first) - lag
  let g := gather (fun i => some (s.played c (j + idxSub i p.first), 0)) p.first w
  filterBank k c16 p.first w g.vals

/-- Sums over spectra of one bin: Σ X conj(Y), Σ |X|², Σ |Y|². -/
structure Corr where
  re : Int
  im : Int
  xx : Int
  yy : Int

def Corr.add (a : Corr) (x y : Int × Int) : Corr :=
  ⟨a.re + (x.1 * y.1 + x.2 * y.2), a.im + (x.2 * y.1 - x.1 * y.2), a.xx + (x.1 * x.1 + x.2 * x.2), a.yy + (y.1 * y.1 + y.2 * y.2)⟩

/-- The usable bins (05 R169). -/
def State.usableBins (s : State) (n : Nat) : List Nat :=
  let h := coarseBins (s.liveView .coarse) n
  (upto h).filter (fun k => le (h / 32) k && lt k (h - h / 32))

/-- The sums of every usable bin over spectra `ps` and references `ys`. -/
def corrAll (bins : List Nat) (ps : List Spectrum) (ys : List (List (Int × Int))) : List Corr :=
  bins.map (fun k => (ps.zip ys).foldl (fun a c => a.add (c.1.bins.getD k (0, 0)) (c.2.getD k (0, 0))) ⟨0, 0, 0, 0⟩)

/-- γ ≥ COHMIN ÷ 256. -/
def Corr.coherent (a : Corr) (min : Nat) : Bool :=
  ltI 0 (a.xx * a.yy) && leI ((min : Int) * (a.xx * a.yy)) (256 * (a.re * a.re + a.im * a.im))

/-- The NAVG spectra a target is measured over. -/
def State.calSpecs (s : State) (t : CalTarget) : List Spectrum :=
  let l := s.specs 0 t.target
  ((l.take (l.length - t.main0)).reverse).take (calNavg s)

/-- COH in units of 2⁻¹⁶, and whether 90 % of the usable bins are coherent (R558). -/
def coherence (min : Nat) (cs : List Corr) : Nat × Bool :=
  let k := (cs.filter (·.coherent min)).length
  ((rndDiv (k * 65536 : Nat) (max 1 cs.length : Nat)).toNat, le (9 * cs.length) (10 * k))

/-! ### ALIGN (R560, R561) -/

/-- Sample `i` of input `n` from the recorder's pages; 0 where they do not hold it. -/
def State.recSample (s : State) (n i : Nat) : Int :=
  match (s.allPages n).find? (fun p => leI 0 (idxSub i p.first) && ltI (idxSub i p.first) p.count) with
  | some p => sext 16 (leNat (s.peekAll (p.addr + 64 + 2 * (idxSub i p.first).toNat) 2))
  | none => 0

/-- The lag of R560 step 1. -/
def State.intLag (s : State) (n first : Nat) (j0 : Int) : Int :=
  let c := calStim s
  let ys := (upto 65536).map (fun (j : Nat) => s.played c (j0 + (j : Int)))
  let score (l : Int) : Nat :=
    ((ys.zip (upto 65536)).foldl (fun (a : Int) p => a + s.recSample n (idxAdd first (p.2 + l)) * p.1) 0).natAbs
  let tries := (upto (s.get Reg.CAL_PAR0_SRCH.z + 1)).flatMap (fun (k : Nat) => if k = 0 then [(0 : Int)] else [-(k : Int), (k : Int)])
  (tries.foldl (fun (a : Int × Option Nat) l =>
    let v := score l
    match a.2 with
    | some b => if b < v then (l, some v) else a
    | none => (l, some v)) (0, none)).1

/-- The weighted fit of R560 step 2: δ in units of 2⁻⁸⁰ s, and whether the phase residual is within PHRMS; none without two
bins. -/
def fitDelay (ks : List Nat) (cs : List Corr) (na fs phrms : Nat) : Option (Int × Bool) :=
  let args := cs.map (fun c => argFix (c.re, c.im))
  let phi := match args with
    | [] => []
    | p :: ps => p :: unwrapAll p ps
  let pts := ks.zip (phi.zip (cs.map (fun c => (isqrt ((c.re * c.re + c.im * c.im).toNat * 2 ^ 64) : Int))))
  let sum (f : Int → Int → Int → Int) : Int := (pts.map (fun p => f p.1 p.2.1 p.2.2)).foldl (· + ·) 0
  let w := sum (fun _ _ w => w)
  let wk := sum (fun k _ w => w * k)
  let wkk := sum (fun k _ w => w * k * k)
  let wp := sum (fun _ p w => w * p)
  let wkp := sum (fun k p w => w * k * p)
  let den := w * wkk - wk * wk
  if den = 0 then none
  else
    let slope := rndDiv (w * wkp - wk * wp) den
    let base := rndDiv (wp - slope * wk) w
    let res := sum (fun k p w => let r := p - base - slope * k
                                 w * (r * r))
    some (rndDiv (-(slope * na * 2 ^ 80)) (2 * piFix * fs),
      leI (res * (1800 * 1800)) (w * ((phrms * piFix) * (phrms * piFix))))

/-- An ALIGN measurement: status, COH, and τ in units of 2⁻⁴⁰ s with whether δ and the fit are plausible. -/
def State.alignOne (s : State) (t : CalTarget) : Nat × Nat × Int × Bool :=
  let n := t.target
  let ps := s.calSpecs t
  let min := s.get Reg.CAL_PAR1_COHMIN.z
  let bins := s.usableBins n
  let cs := corrAll bins ps (ps.map (fun p => s.calY n p 0))
  let coh := coherence min cs
  bif !coh.2 then (4, coh.1, 0, false)
  else match ps.head? with
    | none => (4, coh.1, 0, false)
    | some p0 =>
      let x := s.chn (calStim s)
      let j0 := x.near (s.tpin n p0.first)
      let l := s.intLag n p0.first j0
      let ds := corrAll bins ps (ps.map (fun p => s.calY n p l))
      let used := (bins.zip (cs.zip ds)).filter (fun c => c.2.1.coherent min)
      match fitDelay (used.map (·.1)) (used.map (·.2.2)) (2 * coarseBins (s.liveView .coarse) n)
          (1000 * s.get (Reg.ING_RATE_RATE.e n)) (s.get Reg.CAL_PAR2_PHRMS.z) with
      | none => (9, coh.1, 0, false)
      | some (d, ok) =>
        let tau := rnd (s.tpin n (idxAdd p0.first l) - (x.tStart + j0 * x.period) + d) 40
        (0, coh.1, tau, ok && le (2 * d.natAbs) (s.nominalP n))

/-- ALIGN results of every target (R560, R561). -/
def State.alignAll (s : State) (c : CalRun) : List CalResult :=
  match c.ref with
  | none => []
  | some r =>
    let m := s.alignOne r
    let refSt := match r.status with
      | some k => k
      | none => if m.1 = 0 && !m.2.2.2 then 9 else m.1
    c.targets.map (fun t =>
      match t.status with
      | some k => plainResult t.target k
      | none =>
        if refSt ≠ 0 then plainResult t.target refSt
        else
          let a := s.alignOne t
          let d := a.2.2.1 - m.2.2.1
          let h : Int := ((s.gridNew t.target).hop t.target 0 * s.nominalP t.target : Nat)
          let seam := leI h ((d.natAbs : Int) * 2 ^ 40)
          let near := leI ((d.natAbs : Int) * 1000000000) (s.get Reg.CAL_PAR3_MAXDLY.z * 2 ^ 40)
          let st := if a.1 ≠ 0 then a.1 else if a.2.2.2 && near then 0 else 9
          let new := s.getI (Reg.TB_INDELAY_DELAY.e (calRef s)) + d - s.getI (Reg.CAL_DIST_DIST.e t.target)
          ⟨t.target, st, seam, 0, a.2.1, d, [], if t.target = calRef s then s.getI (Reg.TB_INDELAY_DELAY.e (calRef s)) else new, (0, 0)⟩)

/-! ### GAIN and FLAT (R562, R563) -/

/-- min(0xFFFF, rnd(x)), convergent, of the x for which `below v` compares v − ½ with it: the last v not above, or one less where
v − ½ = x and v is odd. -/
def roundGain (below : Int → Ordering) : Nat :=
  let v := searchUp (fun v => below v != .gt) 17 0
  (min 65535 (if v % 2 = 1 ∧ below v = .eq then v - 1 else v)).toNat

/-- min(0xFFFF, rnd(`g` × 10^(`d` ÷ 2560))), exact (R562). -/
def gainTimes (g : Nat) (d : Int) : Nat :=
  let b := (2 * g) ^ 2560 * 10 ^ d.toNat
  if d = 0 then g else roundGain (fun v => compare ((2 * v - 1).toNat ^ 2560 * 10 ^ (-d).toNat) b)

/-- min(0xFFFF, rnd(`g` × √(`num` ÷ `den`))), exact (R563). -/
def gainRoot (g num den : Nat) : Nat :=
  if num = den then g else roundGain (fun v => compare ((2 * v - 1).toNat ^ 2 * den) (4 * g * g * num))

/-- The live gain of bin `k`. -/
def State.binGain (s : State) (n k : Nat) : Nat :=
  s.get ((if k % 2 = 0 then Reg.CCH_GAIN_G_EVEN else Reg.CCH_GAIN_G_ODD).e2 n (k / 2))

/-- GAIN of one target (R562). -/
def State.gainOne (s : State) (t : CalTarget) : CalResult :=
  let n := t.target
  let ps := s.calSpecs t
  let bins := s.usableBins n
  let coh := coherence (s.get Reg.CAL_PAR1_COHMIN.z) (corrAll bins ps (ps.map (fun p => s.calY n p 0)))
  if !coh.2 then { plainResult n 4 with coh := coh.1 }
  else
    let delta (k : Nat) : Int := s.getI Reg.CAL_PAR2_TGT.z - lp (sumOf (ps.map (fun p => power p.bits (p.bins.getD k (0, 0))))) ps.length
    let ds := bins.map (fun k => (k, delta k))
    let ok (d : Int) : Bool := le d.natAbs (s.get Reg.CAL_PAR1_GMAX.z)
    let good := ds.filter (fun d => ok d.2)
    let bad := ds.length - good.length
    let gs := (upto (coarseBins (s.liveView .coarse) n)).map (fun k => match good.find? (fun d => d.1 == k) with
      | some d => gainTimes (s.binGain n k) d.2
      | none => s.binGain n k)
    ⟨n, if bad ≤ s.get Reg.CAL_PAR1_BADMAX.z then 0 else 9, false, bad, coh.1,
      if good = [] then 0 else rndDiv ((good.map (·.2)).foldl (· + ·) 0) good.length, gs, 0, (0, 0)⟩

/-- The fine spectra a target is measured over: NAVG of them, every selected bin. -/
def State.calFine (s : State) (t : CalTarget) : List Spectrum :=
  let l := (s.fin t.target).specs
  let new := (l.take (l.length - t.fine0)).reverse
  let ms := ((new.map (·.idx)).eraseDups).take (calNavg s)
  new.filter (fun p => ms.contains p.idx)

/-- FLAT (R563): the results, and the pooled table. A bin without any power has no stated gain: a free value (log 72). -/
def State.flatAll (s : State) (c : CalRun) : List CalResult × List Nat :=
  let min := s.get Reg.CAL_PAR1_COHMIN.z
  let first := c.targets.map (fun t => match t.status with
    | some k => plainResult t.target k
    | none =>
      let ps := s.calSpecs t
      let coh := coherence min (corrAll (s.usableBins t.target) ps (ps.map (fun p => s.calY t.target p 0)))
      { plainResult t.target (if coh.2 then 0 else 4) with coh := coh.1 })
  let good := (c.targets.zip first).filter (fun x => x.2.status == 0)
  match good with
  | [] => (first, [])
  | g :: _ =>
    let b := s.liveView .fine
    let nb := fineNB b g.1.target
    let pool := good.flatMap (fun x => s.calFine x.1)
    let pj := (upto nb).map (fun j => sumOf (pool.map (fun p => power p.bits (p.bins.getD j (0, 0)))))
    let tot := sumOf pj
    let d := pj.map (fun p => lp tot (nb * pool.length) - lp p pool.length)
    let bad := (d.filter (fun x => lt (s.get Reg.CAL_PAR1_GMAX.z) x.natAbs)).length
    let st := if bad ≤ s.get Reg.CAL_PAR1_BADMAX.z then 0 else 9
    let table := (pj.zip (upto nb)).map (fun p =>
      if p.1 = 0 then (Config.free (s.freeCount + p.2) 16).toNat else gainRoot (fineGain b g.1.target p.2) tot (nb * p.1))
    let big : Int := (maxOf (d.map (·.natAbs)) : Nat)
    (first.map (fun r => if r.status = 0 then { r with status := st, bad := bad, value := big } else r), table)

/-! ### LANE and MONITOR (R559, R564) -/

/-- LANE of one target: its eye's height in mV and width in mUI. -/
def State.laneOne (s : State) (t : CalTarget) (eyes : List (Nat × Nat × Nat)) : CalResult :=
  let e := (eyes.find? (fun e => e.1 == t.target)).getD (t.target, 0, 0)
  let ok := le (s.get Reg.CAL_PAR3_EYEH.z) e.2.1 && le (s.get Reg.CAL_PAR3_EYEW.z) e.2.2
  { plainResult t.target (if ok then 0 else 9) with value := sext 32 ((e.2.1 * 65536 + e.2.2) % 2 ^ 32) }

/-- A plausible lane keeps its new equalisation; another goes back to its previous one and relocks (R559). -/
def State.laneSettle (s : State) (t : CalTarget) (r : CalResult) : State :=
  bif r.status == 0 then s.setLane t.target { s.lane t.target with stored := true }
  else bif r.status == 9 then
    let s := s.laneFails t.target 2
    (s.setLane t.target { s.lane t.target with stored := t.stored, full := false, lmbs := [], hunting := true }).laneTo t.target 2
  else s

/-- The converted value of a raw sum of `n` conversions with trims (21 R633). -/
def hkValue (sum n : Nat) (ofs gain : Int) : Nat :=
  (satU 16 (rndDiv (((sum : Int) * 16 - 16 * ofs * n) * (65536 + gain)) (n * 65536))).toNat

/-- MONITOR of converter `k` from the sums of its ground and reference conversions: offset, gain, and whether they are in
their windows (R564). -/
def monitorTrim (z r : Nat) : Int × Int × Bool :=
  let d : Int := (r : Int) - z
  let one : Int := 3072 * 256
  if d ≤ 0 then (0, 0, false)
  else (rndDiv z 256, rndDiv ((one - d) * 65536) d, le z (32 * 256) && leI ((one - d).natAbs * 100) (3 * d))

/-- MONITOR results (R564); `readings` gives for each converter the sums of 256 ground and 256 reference conversions and one
raw VDD_CORE conversion. -/
def State.monitorAll (s : State) (c : CalRun) (readings : List (Nat × Nat × Nat)) : List CalResult :=
  let rd (k : Nat) : Nat × Nat × Nat := readings.getD k (0, 0, 0)
  let chosen (k : Nat) : Bool := c.targets.any (fun t => t.target == k && t.status.isNone)
  let trim (k : Nat) : Int × Int × Bool := if chosen k then monitorTrim (rd k).1 (rd k).2.1
    else (s.getI (Reg.HK_TRIM_OFS.e k), s.getI (Reg.HK_TRIM_GAIN.e k), true)
  let v (k : Nat) : Nat := hkValue (rd k).2.2 1 (trim k).1 (trim k).2.1
  let near := le (400 * ((v 0 : Int) - v 1).natAbs) (v 0 + v 1)
  c.targets.map (fun t => match t.status with
    | some k => plainResult t.target k
    | none =>
      let x := trim t.target
      let tr : Nat × Nat := (toU 16 (satS 16 x.1), toU 16 (satS 16 x.2.1))
      ⟨t.target, if x.2.2 && near then 0 else 12, false, 0, 0, sext 32 (tr.1 * 65536 + tr.2), [], 0, tr⟩)

/-! ### The end of the measurement (R556, R558 to R566) -/

/-- The measurement of target `t` is over: its lane has adapted (R559), or its NAVG spectra have been delivered. -/
def State.calReady (s : State) (op : Nat) (t : CalTarget) : Bool :=
  t.status.isSome || (op == 1 && s.get (laneState t.target) != 2) || op == 5
    || ((s.calSpecs t).length == calNavg s
        && (op != 4 || (((s.calFine t).map (·.idx)).eraseDups).length == calNavg s))

/-- CAL_RUN_END: MEASURE ends; CHECK, APPLY and the end of the run. `eyes` is what each lane measured (R559), `readings` what
the monitor converters read (R564). -/
def execCalRunEnd (eyes : List (Nat × Nat × Nat)) (readings : List (Nat × Nat × Nat)) (s : State) : Res :=
  .next <| match s.stm.run with
    | none => s
    | some c =>
      bif s.get Reg.CAL_STAT_STATE.z != 3 || !(c.targets ++ c.ref.toList).all (s.calReady c.op) then s
      else match c.op with
        | 1 =>
          let rs := c.targets.map (fun t => match t.status with
            | some k => plainResult t.target k
            | none => s.laneOne t eyes)
          ((c.targets.zip rs).foldl (fun s p => bif p.1.status.isNone then s.laneSettle p.1 p.2 else s) s).calEnd c [] rs
        | 2 => s.calEnd c [] (s.alignAll c)
        | 3 => s.calEnd c [] (c.targets.map (fun t => match t.status with
            | some k => plainResult t.target k
            | none => s.gainOne t))
        | 4 => let p := s.flatAll c
               { s with freeCount := s.freeCount + p.2.length }.calEnd c p.2 p.1
        | _ => s.calEnd c [] (s.monitorAll c readings)

/-! ### The stimulus swap (R554, R566) -/

/-- Channel `c` swaps; a commit that stops or retunes the stimulus channel ends the run. -/
def State.stimSwapCal (s : State) (c tc : Nat) : State :=
  let hit := c == calStim s && s.stmChanges c && (match s.stm.run with
    | some r => le 2 r.op && le r.op 4
    | none => false)
  (bif hit then s.calStop 7 else s).stimSwap c tc

/-- Channel `c` has still to swap in the commit under way, and runs at a boundary at or after its instant, or not at all. -/
def State.stimDue (s : State) (c : Nat) : Bool :=
  s.maySwap .stimulus && s.stm.left.contains c && (!s.stmRuns c || !lt (s.chn c).tag s.commitAt)

/-- The swap at that boundary; the repetition that begins there plays from the new bank, whose step's MARK counts (R549). -/
def State.stimTurn (s : State) (c : Nat) : State :=
  (s.stimSwapCal c (if s.stmRuns c then (s.chn c).tag else s.commitAt)).stimMark c

/-- STIMULUS_SWAP: at its first segment boundary at or after the commit instant. -/
def execStimulusSwap (c : Nat) (s : State) : Res := .next (bif s.stimDue c then s.stimTurn c else s)

/-- SEGMENT_BOUNDARY (R549): the repetition under way has been emitted and the next one begins; a swap due where it began came first,
and one due where it ends comes before the boundary's MARK. -/
def execSegmentBoundary (c : Nat) (missing : List Nat) (s : State) : Res :=
  .next <| bif lt c 16 && s.stmRuns c && s.get Reg.PWR_STAT_MODE.z == 4 then
      let s := bif s.stimDue c then s.stimTurn c else s
      bif s.stmRuns c then
        let s := (s.stimPlay c (s.segLen c) missing).stimNext c
        bif s.stimDue c then s else s.stimMark c
      else s
    else s

/-- The commit's instant arrives: channels that do not run swap at once. -/
def State.stimCommit (s : State) : State :=
  bif s.maySwap .stimulus then
    let s := { s with stm := { s.stm with left := upto 16 } }
    (upto 16).foldl (fun s c => bif s.stmRuns c then s else s.stimSwapCal c s.commitAt) s
  else s

end Sys2Proof.Machine
end

