-- ==== Sys2Proof/Machine/Queue.lean ====
section
/-!
DEFINITION. Stream queues (16_output_streams.md R483 to R494): entering, waiting, discarding, FAILED and LOSS, the WRF header,
and the shadow queue of a standby (23_redundant_pair.md R675 to R678).
-/
namespace Sys2Proof.Machine

def State.stream (s : State) (st : Nat) : Stream := tget (fun _ => Stream.reset) s.str.streams st
def State.setStream (s : State) (st : Nat) (x : Stream) : State :=
  { s with str := { s.str with streams := tset (fun _ => Stream.reset) s.str.streams st x } }
def strState (st : Nat) : Loc := Reg.STR_SSTAT_STATE.e st
def State.ladder (s : State) (st : Nat) : Ladder := tget (fun _ => Ladder.reset) s.rcd.ladder st
def State.setLadder (s : State) (st : Nat) (x : Ladder) : State :=
  { s with rcd := { s.rcd with ladder := tset (fun _ => Ladder.reset) s.rcd.ladder st x } }

/-- The streams run: Full mode (21 R615). -/
def State.streamsRun (s : State) : Bool := s.get Reg.PWR_STAT_MODE.z == 4

/-! ### The record format (R492, R493) -/

/-- The protected types (R488). -/
def isProtected (kind : Nat) : Bool := (1 ≤ kind && kind ≤ 4) || (0x20 ≤ kind && kind ≤ 0x22)

/-- Padding to a multiple of 8. -/
def padTo8 (n : Nat) : Nat := (8 - n % 8) % 8

/-- The bytes a record of this body takes with its header (R492). -/
def wrfLen (body : List Byte) : Nat := 32 + body.length + padTo8 body.length

/-- A WRF record (R492). -/
def wrf (st kind seq epoch gen engine : Nat) (first : Bool) (body : List Byte) : List Byte :=
  let pad := padTo8 body.length
  let h := u16 0x5257 ++ u8 1 ++ u8 kind ++ u32 (wrfLen body) ++ u16 st ++ u8 pad
    ++ u8 (b2n (isProtected kind) + 2 * b2n first) ++ u32 seq ++ u32 epoch ++ u32 gen ++ u8 engine ++ zeros 3
  let rest := body ++ zeros pad
  h ++ u32 (crc32c (h ++ zeros 4 ++ rest)) ++ rest

/-! ### The fill (R487) -/

/-- Q: the bytes the queue holds; a queue that a change of QLOG left behind holds its own (R519). -/
def State.queued (s : State) (st : Nat) : Nat :=
  let x := s.stream st
  sumOf ((x.queue.filter (fun q => q.line == x.line)).map (·.bytes.length))

/-- The queue's size in bytes. -/
def State.queueSize (s : State) (st : Nat) : Nat := 2 ^ s.get (Reg.STR_SCFG_QLOG.e st) * 2 ^ 20

/-- f (R487). -/
def State.fill (s : State) (st : Nat) : Nat := min 255 (256 * s.queued st / s.queueSize st)

/-- STR_SSTAT.FILL follows the queue. -/
def State.fillSync (s : State) (st : Nat) : State := s.put (Reg.STR_SSTAT_FILL.e st) (s.fill st)

/-- A stream's state changes; STR_STAT.FAILED counts the streams in FAILED (R520). -/
def State.strTo (s : State) (st v : Nat) : State :=
  let o := s.get (strState st)
  let s := s.put (strState st) v
  let n := s.get Reg.STR_STAT_FAILED.z
  bif v == 3 && o != 3 then s.put Reg.STR_STAT_FAILED.z (n + 1)
  else bif o == 3 && v != 3 then s.put Reg.STR_STAT_FAILED.z (n - 1)
  else s

/-- The state of a stream that is neither OFF nor FAILED nor DRAINING: WAITING while a protected record waits (R489). -/
def State.waitSync (s : State) (st : Nat) : State :=
  let v := s.get (strState st)
  bif v == 1 || v == 2 then s.strTo st (if (s.stream st).waiting.isEmpty then 1 else 2) else s

/-! ### Host rings that starve (R507) -/

def State.hostRing (s : State) (r : Nat) : HostRing := tget (fun _ => HostRing.reset) s.str.rings r
def State.setHostRing (s : State) (r : Nat) (x : HostRing) : State :=
  { s with str := { s.str with rings := tset (fun _ => HostRing.reset) s.str.rings r x } }

/-- HEAD equals TAIL: no descriptor is posted. -/
def State.ringEmpty (s : State) (r : Nat) : Bool := s.get (Reg.HRG_STAT_HEAD.e r) == s.get (Reg.HRG_TAIL_TAIL.e r)

/-- A RECORD ring without a posted descriptor while records wait for it sets STARVED and raises EV484 (R507). -/
def State.ringStarve (s : State) (r : Nat) : State :=
  let now := s.on (Reg.HRG_CFG_EN.e r) && s.get (Reg.HRG_CFG_KIND.e r) == 0 && s.ringEmpty r
    && s.str.streams.any (fun e => match e.2.queue with
      | q :: _ => q.dest == 1 && q.sel == r
      | [] => false)
  let x := s.hostRing r
  let s := bif now != x.starving then s.setHostRing r { x with starving := now } else s
  bif now && !x.starving then (s.flag (Reg.HRG_STAT_STARVED.e r) true).ev 484 else s

/-- The queue of a stream becomes `l`: an older queue is given up once it is empty (R519), and FILL and the rings of its first records
follow. -/
def State.setQueue (s : State) (st : Nat) (l : List QRec) : State :=
  let x := s.stream st
  let s := s.setStream st { x with queue := l, olds := x.olds.filter (fun o => l.any (fun q => q.line == o.1)) }
  let s := s.fillSync st
  ((((x.queue.take 1 ++ l.take 1).filter (fun q => q.dest == 1)).map (·.sel)).eraseDups).foldl State.ringStarve s

/-! ### Discards (R320, R490, R494) -/

/-- A trigger record leaves the queue of R287 once each of its streams has taken it (09 R287). -/
def State.trgTaken (s : State) (st : Nat) (r : Record) : State :=
  bif r.source == 1 then
    let q := s.trg.queue.map (fun (t : TrigRecord) =>
      if t.body = r.body then { t with streams := t.streams.filter (· ≠ st) } else t)
    let q := q.filter (fun t => !t.streams.isEmpty)
    { s with trg := { s.trg with queue := q } }.put Reg.TRG_STAT_QLEN.z q.length
  else s

/-- A record counted in the stream's loss (R490, R494); `cause` where none is being counted yet. -/
def State.tally (s : State) (st cause bytes : Nat) (prot : Bool) : State :=
  let x := s.stream st
  let l := x.loss.getD ⟨cause, 0, 0, 0, none, 0⟩
  let l : Loss := { l with records := l.records + 1, bytes := l.bytes + bytes, prot := l.prot + b2n prot,
                           first := some (l.first.getD s.now), last := s.now }
  (s.setStream st { x with loss := some l }).count (Reg.STR_SLOST_LOST.e st) 1

/-- The body of a LOSS record (R494). -/
def State.lossBody (s : State) (st : Nat) (l : Loss) (seq : Nat) : List Byte :=
  u16 st ++ u8 l.cause ++ zeros 1 ++ u32 (min l.records (2 ^ 32 - 1)) ++ u64 (min l.bytes (2 ^ 64 - 1))
    ++ u32 (min l.prot (2 ^ 32 - 1)) ++ u32 seq ++ zeros 8 ++ u96 (l.first.getD 0) ++ u96 l.last
    ++ u32 (s.get Blk.streams.gen) ++ zeros 4

/-- The ladder sees an overflow: a discarded record (R320). -/
def State.ladderDiscard (s : State) (st bytes : Nat) : State :=
  let l := s.ladder st
  (s.setLadder st { l with overflow := true, discs := l.discs + 1, bytes := l.bytes + bytes }).count (Reg.REC_LSTAT_DISC.e st) 1

/-! ### Entering (R484 to R489) -/

/-- DEST, DSEL and NETIDX of the stream in force. -/
def State.destOf (s : State) (st : Nat) : Nat × Nat × Nat :=
  (s.get (Reg.STR_SCFG_DEST.e st), s.get (Reg.STR_SCFG_DSEL.e st), s.get (Reg.STR_SXCFG_NETIDX.e st))

/-- A VITA packet travels without WRF framing on an Ethernet port (R500, R504). -/
def State.rawIn (s : State) (st : Nat) (r : Record) : Bool := r.kind == 0x40 && s.get (Reg.STR_SCFG_DEST.e st) == 0

/-- The bytes of queue a record needs. -/
def State.recordLen (s : State) (st : Nat) (r : Record) : Nat := bif s.rawIn st r then r.body.length else wrfLen r.body

/-- The stream sends VITA packets as they are, on an Ethernet port: its SENT cells name them (R504, log 76). -/
def State.vitaPort (s : State) (st : Nat) : Bool := s.on (Reg.STR_SCFG_VRT.e st) && s.get (Reg.STR_SCFG_DEST.e st) == 0

/-- The key of a record by which a pair matches it (23 R676): kind, number, element and position. -/
def recordKey (r : Record) : Option Nat :=
  let key (kind num el pos : Nat) : Option Nat := some (kind * 2 ^ 72 + num * 2 ^ 56 + el * 2 ^ 48 + pos)
  let b := r.body
  if r.kind = 0x10 then
    if leAt b 3 1 = 4 then key 2 (leAt b 0 2) (leAt b 2 1) (leAt b 8 4 * 65536 + leAt b 12 2)
    else key 1 (leAt b 0 2) (leAt b 2 1) (leAt b 8 6)
  else if r.kind = 0x30 then key 3 (leAt b 0 2) (leAt b 2 1 + 4 * leAt b 3 1) (leAt b 8 6)
  else if r.kind = 0x31 then key 4 0 0 (leAt b 4 6)
  else if r.kind = 0x32 then key 5 (leAt b 0 2) (leAt b 2 1) (leAt b 8 6)
  else if r.kind = 0x33 then key 6 0 0 (leAt b 4 6)
  else if r.kind = 0x40 then key 7 (r.num % 256) 0 (r.num / 256)
  else none

/-- The ten bytes of a key. -/
def keyBytes (k : Nat) : List Byte := u8 (k / 2 ^ 72) ++ u16 (k / 2 ^ 56) ++ u8 (k / 2 ^ 48) ++ u48 k

/-- `k` bytes of `b` from `i` on taken as 0. -/
def blank (i k : Nat) (b : List Byte) : List Byte := b.take i ++ zeros (min k (b.length - i)) ++ b.drop (i + k)

/-- The tag and TQ of a record's body taken as 0; of a VITA packet its timestamps (23 R677). -/
def untagged (kind : Nat) (body : List Byte) : List Byte :=
  if kind = 0x10 then (if leAt body 3 1 = 4 then body else blank 32 14 body)
  else if kind = 0x30 then blank 32 14 body
  else if kind = 0x31 then blank 12 14 body
  else if kind = 0x32 then blank 24 14 body
  else if kind = 0x40 then blank 8 12 body
  else body

/-- The digest of a record (23 R677): header bytes 12 to 19, 24 and 28 to 31 taken as 0; a VITA packet without WRF header stands for
itself. -/
def digest (raw : Bool) (st gen : Nat) (first : Bool) (kind : Nat) (body : List Byte) : Nat :=
  let pad := padTo8 body.length
  if raw then crc32c (untagged kind body)
  else crc32c (u16 0x5257 ++ u8 1 ++ u8 kind ++ u32 (wrfLen body) ++ u16 st ++ u8 pad ++ u8 (b2n (isProtected kind) + 2 * b2n first)
    ++ zeros 8 ++ u32 gen ++ zeros 8 ++ untagged kind body ++ zeros pad)

/-- A record whose digest is compared: complete, or a VRT record with Valid Data (23 R677). -/
def comparable (r : Record) : Bool :=
  if r.kind = 0x10 then leAt r.body (if leAt r.body 3 1 = 4 then 14 else 6) 1 == 0
  else if r.kind = 0x30 || r.kind = 0x32 then leAt r.body 6 1 == 0
  else if r.kind = 0x40 then beNat (r.body.drop (r.body.length - 4)) / 2 ^ 18 % 2 == 1
  else false

/-- A record takes its place in the queue under number `seq`, generation `gen` and the flag FIRST (R486, R492); the primary of a pair
announces it in an ORDER cell and holds it until that is acknowledged (23 R675). -/
def State.enterAt (s : State) (st : Nat) (r : Record) (seq gen : Nat) (first order : Bool) : State :=
  let x := s.stream st
  let raw := s.rawIn st r
  let bytes := bif raw then r.body else wrf st r.kind seq (s.get (Reg.STR_SEPOCH_EPOCH.e st)) gen s.engineNo first r.body
  let d := s.destOf st
  let hold := order && s.ordering
  let s := s.setQueue st (x.queue ++ [⟨r.kind, raw, seq, bytes, 0, d.1, d.2.1, d.2.2, !hold, x.line, false⟩])
  bif hold then
    s.sendReliable 0x10 (u16 st ++ u8 (b2n first) ++ keyBytes ((recordKey r).getD 0) ++ zeros 1 ++ u32 seq
      ++ u32 (digest raw st gen first r.kind r.body) ++ zeros 2)
  else s

/-- A record takes its place in the queue with the stream's next sequence number (R486). A VITA packet on an Ethernet port has none
(R504): its number in the pair is the stream's count of such packets (DESIGN CHOICE, log 76). -/
def State.enter (s : State) (st : Nat) (r : Record) : State :=
  let x := s.stream st
  let gen := s.get Blk.streams.gen
  bif s.rawIn st r then (s.setStream st { x with packets := (x.packets + 1) % 2 ^ 32 }).enterAt st r x.packets gen false true
  else
    let seq := s.get (Reg.STR_SSEQ_SEQ.e st)
    ((s.setStream st { x with first := false }).wrap (Reg.STR_SSEQ_SEQ.e st) 1).enterAt st r seq gen x.first true

/-- The record fits (R488). -/
def State.fits (s : State) (st : Nat) (r : Record) : Bool :=
  let n := s.recordLen st r
  bif isProtected r.kind then le (s.queued st + n) (s.queueSize st)
  else le (8 * (s.queued st + n)) (7 * s.queueSize st) && (s.stream st).waiting.isEmpty

/-- Records that a stream gives up (R490, R512): `gone` of its queue, of which `keep` is left, and those that wait; each counts as
discarded under `cause`, and an extent that holds part of one takes no further record. -/
def State.giveUp (s : State) (st cause : Nat) (keep gone : List QRec) : State :=
  let x := s.stream st
  let part := gone.any (fun q => q.dest == 2 && lt 0 q.taken)
  let s := (s.setStream st { x with waiting := [], disk := x.disk.map (fun p => { p with cut := p.cut || part }) }).setQueue st keep
  let s := gone.foldl (fun s q => s.tally st cause q.bytes.length (isProtected q.kind)) s
  x.waiting.foldl (fun s r => (s.tally st cause (s.recordLen st r) true).trgTaken st r) s

/-- Entry to FAILED (R490): EV480, the queue is emptied, waiting producers are released, and all of it counts as discarded, with what
was discarded before and is not declared yet. -/
def State.strFail (s : State) (st cause : Nat) : State :=
  let x := s.stream st
  let s := s.strTo st 3
  let s := s.setStream st { x with loss := some { x.loss.getD ⟨cause, 0, 0, 0, none, 0⟩ with cause := cause } }
  (s.giveUp st cause [] x.queue).ev 480

/-- An INTERIM gap record replaces the waiting INTERIM record of the same gap (R489, 04 R142). -/
def sameInterim (r q : Record) : Bool :=
  r.kind == 1 && q.kind == 1 && r.source == 0 && q.source == 0 && leAt r.body 2 1 == 2 && leAt q.body 2 1 == 2
    && leAt r.body 0 2 == leAt q.body 0 2 && leAt r.body 40 4 == leAt q.body 40 4

/-- The gap hold of a stream holds 256 records (R489). -/
def gapHold : Nat := 256

/-- A protected record that cannot enter waits (R489); a gap record that finds the gap hold full fails the stream (R490). -/
def State.wait (s : State) (st : Nat) (r : Record) : State :=
  let x := s.stream st
  bif x.waiting.any (sameInterim r) then
    s.setStream st { x with waiting := x.waiting.map (fun q => if sameInterim r q then r else q) }
  else bif r.kind == 1 && r.source == 0 && le gapHold (x.waiting.filter (fun q => q.kind == 1 && q.source == 0)).length then
    (s.strFail st 2).tally st 2 (s.recordLen st r) true
  else (s.setStream st { x with waiting := x.waiting ++ [r] }).waitSync st

/-- A protected record that goes before all that wait: it enters, or waits in front. -/
def State.enterFirst (s : State) (st : Nat) (r : Record) : State :=
  let x := s.stream st
  bif x.waiting.isEmpty && s.fits st r then s.enter st r
  else (s.setStream st { x with waiting := r :: x.waiting }).waitSync st

/-- What was discarded is declared in a LOSS record (R494). -/
def State.declareLoss (s : State) (st : Nat) : State :=
  match (s.stream st).loss with
  | none => s
  | some l => (s.setStream st { s.stream st with loss := none }).enterFirst st ⟨4, 3, st, s.lossBody st l 0⟩

/-- The stream discards as FAILED does, its disk set being FULL (R512). -/
def State.diskSheds (s : State) (st : Nat) : Bool := s.get (Reg.STR_SCFG_DEST.e st) == 2 && s.get Reg.DSK_STAT_STATE.z == 4

/-- Discards of a stream that has taken up records again are declared before its next record (R490, R512). -/
def State.declareDue (s : State) (st : Nat) : State :=
  let v := s.get (strState st)
  bif v != 0 && v != 3 && !s.diskSheds st then s.declareLoss st else s

/-- The step a stream's ladder is at. -/
def State.ladderStep (s : State) (st : Nat) : Nat := s.get (Reg.REC_LSTAT_STEP.e st)

/-- The body of a rate-step record (10 R321): steps, reason, and what was discarded since the last one. -/
def State.rateBody (s : State) (st old new_ reason : Nat) : List Byte :=
  let l := s.ladder st
  u16 st ++ u8 old ++ u8 new_ ++ u8 reason ++ u8 (s.fill st) ++ u8 (s.get (Reg.REC_LSTAT_BACKOFF.e st)) ++ zeros 1 ++ u96 s.now
    ++ u16 (s.tq false false) ++ zeros 2 ++ u32 (min l.discs (2 ^ 32 - 1)) ++ u32 (min l.bytes (2 ^ 32 - 1))
    ++ u32 (s.get Blk.recorder.gen) ++ zeros 4

/-- A rate-step record closes; it declares what was discarded before it (10 R320, R321). -/
def State.rateRecord (s : State) (st old new_ reason : Nat) : State :=
  let s := s.close st ⟨3, 2, st, s.rateBody st old new_ reason⟩
  s.setLadder st { s.ladder st with discs := 0, bytes := 0 }

/-- An unprotected record is discarded under 10 R320; at SMAXL the discard sets SHED and EV339, with a rate-step record. -/
def State.overflow (s : State) (st bytes : Nat) : State :=
  let s := s.ladderDiscard st bytes
  let k := s.ladderStep st
  bif s.on (Reg.REC_LCFG_EN.e st) && k == s.get (Reg.REC_LCFG_SMAXL.e st) && !s.on (Reg.REC_LSTAT_SHED.e st) then
    ((s.flag (Reg.REC_LSTAT_SHED.e st) true).ev 339).rateRecord st k k 5
  else s

/-! ### The shadow queue of a standby (23 R675 to R678) -/

/-- The bytes a shadow queue holds. -/
def State.shadowed (s : State) (st : Nat) : Nat :=
  sumOf (((s.stream st).shadow.filter (·.held)).map (fun r => s.recordLen st r.body))

/-- A record and the ORDER of its key, which said `first`, are compared (R677). -/
def State.compareDigest (s : State) (r : ShadowRec) (first : Bool) (st dg : Nat) : State :=
  bif !comparable r.body then s.count Reg.DZ_DGSKIP_COUNT.z 1
  else bif digest (s.rawIn st r.body) st r.gen first r.body.kind r.body.body == dg then s
  else (s.count Reg.DZ_MISMATCH_COUNT.z 1).ev 102

/-- The producer of a record with key `k` (R676): a view, by kind of record; the collector of the cross-spectral engine; the beam tile of
a bin; a tuner. -/
def keyProducer (k : Nat) : Nat :=
  let kind := k / 2 ^ 72
  let num := k / 2 ^ 56 % 2 ^ 16
  let el := k / 2 ^ 48 % 2 ^ 8
  if kind = 5 ∧ el = 2 then 5 * 2 ^ 16 + num
  else if 3 ≤ kind ∧ kind ≤ 6 then 3 * 2 ^ 16
  else kind * 2 ^ 16 + num

/-- In one interval `a` comes after `b`: XSTAT and DUMPLOST after all; of one bin the blocks in ascending (b, a), then BEAMPWR
(11 R353); of a view ascending inputs (07 R219). -/
def keyAfter (a b : Nat) : Bool :=
  let kind (k : Nat) : Nat := k / 2 ^ 72
  let num (k : Nat) : Nat := k / 2 ^ 56 % 2 ^ 16
  let el (k : Nat) : Nat := k / 2 ^ 48 % 2 ^ 8
  if kind a = 4 ∨ kind a = 6 then kind b = 3 ∨ kind b = 5
  else if kind a = 3 ∨ kind a = 5 then num a = num b ∧ (kind b < kind a ∨ (kind a = kind b ∧ el b < el a))
  else el b < el a

/-- Key `a` is later than `b` in the order of the producer of both: positions in serial order (R676). Bins of one interval, whose order
lies in the plan of the engine, are not told apart (log 76). -/
def keyLater (a b : Nat) : Bool :=
  keyProducer a == keyProducer b
    && (serialBefore 48 (b % 2 ^ 48) (a % 2 ^ 48) || (a % 2 ^ 48 == b % 2 ^ 48 && keyAfter a b))

/-- A record enters the shadow queue of its stream, its bytes if there is room for them. -/
def State.shadowAdd (s : State) (st : Nat) (r : ShadowRec) : State :=
  let x := s.stream st
  let held := le (s.shadowed st + s.recordLen st r.body) (s.queueSize st)
  s.setStream st { x with shadow := x.shadow ++ [{ r with held := held }] }

/-- A record of a standby in SHADOW (R675 to R678): matched with the ORDER of its key, dropped where its producer's orders have passed
it, or kept for an ORDER to come; records without a key are discarded. From the begin of a switchover on the standby orders all its
records itself (R682). -/
def State.shadowTake (s : State) (st : Nat) (r : Record) : State :=
  let e : ShadowRec := ⟨(recordKey r).getD 0, r, none, false, s.get Blk.streams.gen, true⟩
  match recordKey r with
  | none => bif s.pair.switching then s.shadowAdd st e else s.count Reg.DZ_SHDROP_COUNT.z 1
  | some k =>
    match s.pair.orders.find? (fun o => o.stream == st && o.key == k) with
    | some o =>
      let s := { s with pair := { s.pair with orders := s.pair.orders.filter (· ≠ o) } }
      (s.shadowAdd st { e with seq := some o.seq, first := o.first }).compareDigest e o.first st o.digest
    | none =>
      bif s.pair.lastKeys.any (fun c => c.2 == k || keyLater c.2 k) then s else s.shadowAdd st e

/-! ### A closed record reaches its stream (R484, R488 to R490) -/

/-- A record reaches its stream: it enters, waits or is discarded. One that closes for a stream already OFF is discarded, counted and
declared when the stream is enabled again (01 R26; DESIGN CHOICE, log 70). -/
def State.reach (s : State) (st : Nat) (r : Record) : State :=
  let v := s.get (strState st)
  let n := s.recordLen st r
  let prot := isProtected r.kind
  let s := bif s.pair.shadow || s.pair.switching then s else s.declareDue st
  bif v == 0 || v == 3 then (s.tally st 1 n prot).trgTaken st r
  else bif !s.pair.shadow && s.diskSheds st then (s.tally st 4 n prot).trgTaken st r
  else bif s.pair.shadow || s.pair.switching then (s.shadowTake st r).trgTaken st r
  else bif prot then
    bif (s.stream st).waiting.isEmpty && s.fits st r then (s.enter st r).trgTaken st r else s.wait st r
  else bif s.fits st r then s.enter st r
  else s.overflow st n

/-- The place of a record among those closed in one cycle (R484). -/
def closeRank (r : Record) : Nat :=
  if r.source ≤ 3 then r.source * 2 ^ 32 else r.source * 2 ^ 32 + (if r.source = 7 then 0 else if r.source = 5 then r.num % 256 else r.num)

/-- The next closed record in the order of R484: of the oldest cycle, the least rank, the earliest of those. -/
def nextClosed (l : List (Nat × Nat × Record)) : Option (Nat × Nat × Record) :=
  match l with
  | [] => none
  | c :: rest => some ((rest.takeWhile (fun d => d.2.1 == c.2.1)).foldl (fun a d =>
      if closeRank d.2.2 < closeRank a.2.2 then d else a) c)

/-- The list without the first occurrence of an entry. -/
def dropFirst (c : Nat × Nat × Record) : List (Nat × Nat × Record) → List (Nat × Nat × Record)
  | [] => []
  | d :: rest => if d = c then rest else d :: dropFirst c rest

/-- RECORD_ENQUEUE (R484, R488): the next closed record reaches its stream, while the streams run; a switching primary admits
none (23 R682). -/
def execRecordEnqueue (s : State) : Res :=
  .next <| bif s.streamsRun && !(s.pair.switching && dzRole s == 1) then
      match nextClosed s.closed with
      | none => s
      | some c => { s with closed := dropFirst c s.closed }.reach c.1 c.2.2
    else s

/-- PROTECTED_RECORD_ENTER (R489): the first waiting record of a stream enters once there is space. -/
def execProtectedRecordEnter (st : Nat) (s : State) : Res :=
  .next <| bif s.streamsRun && !s.pair.switching then
      match (s.stream st).waiting with
      | [] => s
      | r :: rest =>
        bif s.fits st r then
          (((s.setStream st { s.stream st with waiting := rest }).enter st r).trgTaken st r).waitSync st
        else s
    else s

/-- STREAM_DEAD_TIMEOUT (R490): the destination has taken nothing for DEAD × 10 ms while the queue held records. -/
def execStreamDeadTimeout (st : Nat) (s : State) : Res :=
  .next <| bif s.get (strState st) != 3 && s.get (strState st) != 0 && !(s.stream st).queue.isEmpty then s.strFail st 1 else s

/-! ### What the destination has taken (R487, R491) -/

/-- Two entries of a queue are the same record. -/
def sameRec (q p : QRec) : Bool := p.seq == q.seq && p.raw == q.raw && p.bytes == q.bytes

/-- A record leaves the queue, its bytes free again. -/
def State.dequeue (s : State) (st : Nat) (q : QRec) : State :=
  let x := s.stream st
  (s.setStream st { x with sent := bif q.raw == s.vitaPort st then q.seq else x.sent, emitted := true }).setQueue st (x.queue.filter (! sameRec q ·))

/-- A record lost to a memory error is counted with EV482, and the stream's next record is a LOSS record of cause MEMERR that names its
sequence number (R491). -/
def State.memLoss (s : State) (st : Nat) (q : QRec) : State :=
  let s := (s.count (Reg.STR_SLOST_LOST.e st) 1).ev 482
  let l : Loss := ⟨3, 1, q.bytes.length, b2n (isProtected q.kind), some s.now, s.now⟩
  s.enterFirst st ⟨4, 3, st, s.lossBody st l q.seq⟩

/-- A record in which an uncorrectable word was found before a byte of it left is not emitted (R491). -/
def State.memErr (s : State) (st : Nat) (q : QRec) : State :=
  (s.setQueue st ((s.stream st).queue.filter (! sameRec q ·))).memLoss st q

/-- The words of record `q` of stream `st` among `bad`. -/
def badIn (bad : List BadWord) (st : Nat) (q : QRec) : List BadWord := bad.filter (fun w => w.stream == st && w.seq == q.seq)

/-- Records of up to 256 KiB are read whole into staging; a larger one is checked by a read pass first (R491). -/
def stageBytes : Nat := 262144

/-- Words of a larger record that become uncorrectable after its check pass are emitted as zeros, and the record is declared lost once
(R491; that it counts in STR_SLOST and raises EV482 is DEDUCED, log 70). -/
def State.blot (s : State) (st : Nat) (q : QRec) (ws : List BadWord) : State :=
  let ws := ws.filter (fun w => lt q.taken (w.at_ + 32))
  bif ws.isEmpty then s
  else
    let b := ws.foldl (fun b w => let i := max q.taken w.at_
                                  blank i (w.at_ + 32 - i) b) q.bytes
    let s := s.setQueue st ((s.stream st).queue.map (fun p => if sameRec q p then { p with bytes := b, hurt := true } else p))
    bif q.hurt then s else s.memLoss st q

/-- The record whose bytes leave next. -/
def State.nextOut (s : State) (st : Nat) : Option QRec := (s.stream st).queue.find? (fun q => lt q.taken q.bytes.length)

/-- The words of `bad` are found as the records that leave next are read (R491). -/
def State.checkHead (bad : List BadWord) (st : Nat) : Nat → State → State
  | 0, s => s
  | fuel + 1, s =>
    match s.nextOut st with
    | none => s
    | some q =>
      let ws := badIn bad st q
      bif q.taken == 0 then (bif ws.isEmpty then s else State.checkHead bad st fuel (s.memErr st q))
      else bif lt stageBytes q.bytes.length then s.blot st q ws
      else s

/-- The destination of stream `st` takes data now (R490): a port with its link up, a ring with a descriptor posted, a READY
disk set. -/
def State.takes (s : State) (st : Nat) : Bool :=
  let d := s.destOf st
  s.streamsRun && (
    if d.1 = 0 then s.on (Reg.STR_PCFG_EN.e d.2.1) && s.on (Reg.STR_PSTAT_LINK.e d.2.1)
    else if d.1 = 1 then s.get (Reg.HRG_STAT_HEAD.e d.2.1) != s.get (Reg.HRG_TAIL_TAIL.e d.2.1)
    else s.get Reg.DSK_STAT_STATE.z == 3)

/-- The stream leaves FAILED: its first record is a LOSS record with the cause, and EV481 is raised (R490). -/
def State.leaveFailed (s : State) (st v : Nat) : State :=
  let x := s.stream st
  let body := s.lossBody st (x.loss.getD ⟨1, 0, 0, 0, none, 0⟩) 0
  (((s.strTo st v).setStream st { x with loss := none }).enter st ⟨4, 3, st, body⟩).ev 481

/-- STREAM_FAILED_EXIT (R490). -/
def execStreamFailedExit (st : Nat) (s : State) : Res :=
  .next <| bif s.get (strState st) == 3 && s.takes st then s.leaveFailed st (if s.on (Reg.STR_SCFG_EN.e st) then 1 else 4) else s

/-- Every stream whose loss is over declares it: once an extent is free again, or the set is READY otherwise (R512). -/
def State.diskFullEnd (s : State) : State := s.str.streams.foldl (fun s e => s.declareDue e.1) s

/-- The set becomes FULL, EV489, and each disk stream discards what no write has begun to take (R512). -/
def State.diskFull (s : State) : State :=
  let s := (s.put Reg.DSK_STAT_STATE.z 4).ev 486
  s.str.streams.foldl (fun s e =>
    bif s.get (strState e.1) != 0 && s.get (strState e.1) != 3 && s.diskSheds e.1 then
      let open_ (q : QRec) : Bool := q.dest == 2 && lt q.taken q.bytes.length
      let l := (s.stream e.1).queue
      (s.giveUp e.1 4 (l.filter (! open_ ·)) (l.filter open_)).waitSync e.1
    else s) (s.ev 489)

/-- STREAM_DRAINED (R519): the queue of a DRAINING stream is empty, and the stream enters OFF. -/
def execStreamDrained (st : Nat) (s : State) : Res :=
  .next <| bif s.get (strState st) == 4 && (s.stream st).queue.isEmpty && (s.stream st).waiting.isEmpty
      && !(s.stream st).shadow.any (·.seq.isSome) && !s.closed.any (fun c => c.1 == st) then s.strTo st 0 else s

/-- The HBM queues are lost at entry to Sleep (15 R476), shadow queues too: each stream that held records fails with cause DEST. -/
def State.streamsSleep (s : State) : State :=
  s.str.streams.foldl (fun s e =>
    let x := s.stream e.1
    let s := s.setStream e.1 { x with shadow := x.shadow.map (fun r => { r with held := false }) }
    bif s.get (strState e.1) != 3 && s.get (strState e.1) != 0 && !(s.stream e.1).queue.isEmpty then s.strFail e.1 1 else s) s

end Sys2Proof.Machine
end

