-- ==== Sys2Proof/Machine/Ladder.lean ====
section
/-!
DEFINITION. The rate-reduction ladder (10_recorder_and_capture.md R319 to R321) and what it orders (07 R229, 08 R253).
-/
namespace Sys2Proof.Machine

/-- The views and tuners that feed stream `st`. -/
def State.feedingViews (s : State) (st : Nat) : List Nat :=
  (upto 1024).filter (fun v => s.on (Reg.DVW_CTRL_EN.e v) && s.on (Reg.DVW_DEST_SEN.e v) && s.get (Reg.DVW_DEST_STREAM.e v) == st)
def State.feedingTuners (s : State) (st : Nat) : List Nat :=
  (upto 256).filter (fun t => s.on (Reg.TUN_CTRL_EN.e t) && s.on (Reg.TUN_DEST_SEN.e t) && s.get (Reg.TUN_DEST_STREAM.e t) == st)

/-- The order of step `k` reaches the producers of the stream, each of which takes it at its boundary (07 R229, 08 R253). -/
def State.orderStep (s : State) (st k : Nat) : State :=
  let s := (s.feedingViews st).foldl (fun s v =>
    { s with det := { s.det with ordered := tset (fun _ => none) s.det.ordered v (some k) } }) s
  (s.feedingTuners st).foldl (fun s t =>
    let x := tget (fun _ => Tuner.reset) s.tun.tuners t
    { s with tun := { s.tun with tuners := tset (fun _ => Tuner.reset) s.tun.tuners t { x with ordered := some k } } }) s

/-- The step of stream `st` becomes `k` for `reason` (R321); the primary of a pair sends STEP (23 R675). -/
def State.stepTo (s : State) (st k reason : Nat) : State :=
  let o := s.ladderStep st
  let s := (s.put (Reg.REC_LSTAT_STEP.e st) k).rateRecord st o k reason
  let s := s.orderStep st k
  bif s.ordering then s.sendReliable 0x13 (u16 st ++ u8 k ++ u96 s.now) else s

/-- Whether an evaluation of R319 restores the step. -/
def restoreDue (f lo low upcnt b hold mingap : Nat) : Bool := le f lo && le (upcnt * 2 ^ b) (low + 1) && le mingap hold

/-- One evaluation of a stream (R319, R320). -/
def State.evaluate (s : State) (st : Nat) : State :=
  let l := s.ladder st
  let f := s.fill st
  let hi := s.get Reg.REC_RRCFG0_HI.z
  let lo := s.get Reg.REC_RRCFG0_LO.z
  let upcnt := s.get Reg.REC_RRCFG1_UPCNT.z
  let mingap := s.get Reg.REC_RRCFG1_MINGAP.z
  let backwin := s.get Reg.REC_RRCFG1_BACKWIN.z
  let k := s.ladderStep st
  let b := s.get (Reg.REC_LSTAT_BACKOFF.e st)
  let hold := l.hold + 1
  let ovf := l.overflow
  let s := bif s.on (Reg.REC_LSTAT_SHED.e st) && !ovf then (s.flag (Reg.REC_LSTAT_SHED.e st) false).rateRecord st k k 6 else s
  let l := { s.ladder st with overflow := false, hold := hold }
  bif ovf || le hi f then
    let l := { l with low := 0 }
    bif lt k (s.get (Reg.REC_LCFG_SMAXL.e st)) && (ovf || le mingap hold) then
      let s := bif le hold backwin && l.lastDown then s.put (Reg.REC_LSTAT_BACKOFF.e st) (min (b + 1) 6) else s
      ((s.setLadder st { l with hold := 0, lastDown := false }).stepTo st (k + 1) (if ovf then 2 else 1)).ev 337
    else
      let s := s.setLadder st l
      bif le backwin hold then s.put (Reg.REC_LSTAT_BACKOFF.e st) 0 else s
  else bif lt 0 k && le f lo then
    bif restoreDue f lo l.low upcnt b hold mingap then
      ((s.setLadder st { l with hold := 0, low := 0, lastDown := true }).stepTo st (k - 1) 3).ev 338
    else
      let s := s.setLadder st { l with low := l.low + 1 }
      bif le backwin hold then s.put (Reg.REC_LSTAT_BACKOFF.e st) 0 else s
  else
    let s := s.setLadder st { l with low := 0 }
    bif le backwin hold then s.put (Reg.REC_LSTAT_BACKOFF.e st) 0 else s

/-- A rate-step record of the stream has not entered its queue: the ladder does not evaluate it (16 R489). -/
def State.rateWaits (s : State) (st : Nat) : Bool :=
  (s.stream st).waiting.any (fun r => r.kind == 3) || s.closed.any (fun c => c.1 == st && c.2.2.kind == 3)

/-- The stream has a ladder in use: fed by a live producer, REC_LCFG.EN = 1, and not in SHADOW (23 R675). -/
def State.ladderRuns (s : State) (st : Nat) : Bool :=
  s.on (Reg.REC_LCFG_EN.e st) && !s.pair.shadow && !s.rateWaits st
    && (!(s.feedingViews st).isEmpty || !(s.feedingTuners st).isEmpty)

/-- LADDER_EVALUATION (R319). -/
def execLadderEvaluation (s : State) : Res :=
  .next <| bif s.streamsRun then
      (s.enabledStreams.filter s.ladderRuns).foldl State.evaluate s
    else s

/-- A commit that changes the stream's ladder settings or its producers' destination sets its step to 0 (R322). -/
def State.ladderReset (s : State) (st : Nat) : State :=
  let k := s.ladderStep st
  let s := (s.put (Reg.REC_LSTAT_BACKOFF.e st) 0).setLadder st { s.ladder st with hold := 0, low := 0, lastDown := false }
  bif k == 0 then s else s.stepTo st 0 4

end Sys2Proof.Machine
end

