-- ==== Sys2Proof/Machine/Cross.lean ====
section
/-!
DEFINITION. The cross-spectral engine (11_cross_spectral.md): runs and the work plan, the seam, correlation and beams,
intervals, dump slots and records, weights, and the swap.
-/
namespace Sys2Proof.Machine

/-! ### Band, runs and the plan (R325 to R327, R335 to R337) -/

/-- The selected inputs by rank (R325). -/
def xRanks (b : BankView) : List Nat :=
  (upto 128).filter (fun n => bit (b.get (Reg.XSP_INMASK_SEL.e (n / 32))) (n % 32))

/-- The claimed tiles, ascending (R334). -/
def xTiles (b : BankView) : List Nat :=
  (upto 64).filter (fun t => bit (b.get (if t < 32 then Reg.XSP_TILES_L_TILES.z else Reg.XSP_TILES_H_TILES.z)) (t % 32))

def xBin0 (b : BankView) : Nat := b.get Reg.XSP_BAND_BIN0.z
def xCount (b : BankView) : Nat := b.get Reg.XSP_BAND_BCNT.z

/-- Bins of each gallery's run (R326). -/
def xCounts (b : BankView) : List Nat :=
  let ts := xTiles b
  let tg (g : Nat) : Nat := (ts.filter (fun t => t / 8 == g)).length
  let n (g : Nat) : Nat := xCount b * tg g / max 1 ts.length
  let left := bif ts.isEmpty then 0 else xCount b - sumOf ((upto 8).map n)
  (upto 8).map (fun g => n g + b2n (lt 0 (tg g) && lt ((upto g).filter (fun h => lt 0 (tg h))).length left))

/-- First bin of gallery `g`'s run. -/
def xFirst (b : BankView) (g : Nat) : Nat := xBin0 b + sumOf ((xCounts b).take g)

/-- The gallery whose run holds band bin `i` (counted from BIN0). -/
def xGallery (b : BankView) (i : Nat) : Nat :=
  ((upto 8).find? (fun g => lt (xBin0 b + i) (xFirst b g + (xCounts b).getD g 0))).getD 8

/-- A precision code's bits per component: 4, 8 or 16 (R327). -/
def precBits (c : Nat) : Nat := 4 * 2 ^ min c 2

/-- Twice c_P (R335). -/
def twiceCost (p : Nat) : Nat := if p = 4 then 1 else if p = 8 then 2 else 8

def xCp (b : BankView) : Nat := precBits (b.get Reg.XSP_CTRL_CPREC.z)
def xBp (b : BankView) : Nat := precBits (b.get Reg.XSP_BCTRL_BPREC.z)

/-- A work unit: its cost in half slice-cycles per spectrum, bin, and block (a, b); a beam unit has `beam`. -/
structure XUnit where
  cost : Nat
  k : Nat
  beam : Bool
  b : Nat
  a : Nat
deriving DecidableEq, Repr

/-- Number of rank groups, and ranks in group `a`, for `x` ranks (R325, R335). -/
def xGroups (x : Nat) : Nat := ceilDiv x 32
def inGroup (x a : Nat) : Nat := min 32 (x - 32 * a)

/-- Blocks in ascending (b, a). -/
def xBlocks (x : Nat) : List (Nat × Nat) := (upto (xGroups x)).flatMap (fun b => (upto (b + 1)).map (fun a => (b, a)))

/-- Products of a block. -/
def blockSize (x b a : Nat) : Nat :=
  if a = b then inGroup x a * (inGroup x a + 1) / 2 else inGroup x a * inGroup x b

/-- The units of gallery `g`, ascending by bin, beam unit first, then ascending (b, a) (R335). -/
def xUnits (v : BankView) (g : Nat) : List XUnit :=
  let x := (xRanks v).length
  let beams := (xBeams v).length
  (upto ((xCounts v).getD g 0)).flatMap (fun d =>
    let k := xFirst v g + d
    (bif v.on Reg.XSP_BCTRL_BEAMEN.z then [⟨beams * x * twiceCost (xBp v), k, true, 0, 0⟩] else [])
      ++ (bif v.on Reg.XSP_CTRL_CORREN.z then
            (xBlocks x).map (fun p => ⟨blockSize x p.1 p.2 * twiceCost (xCp v), k, false, p.1, p.2⟩) else []))

/-- A unit put before the first one of no higher cost. -/
def insertUnit (u : XUnit) : List XUnit → List XUnit
  | [] => [u]
  | v :: vs => if v.cost ≤ u.cost then u :: v :: vs else v :: insertUnit u vs

/-- The tile with the smallest cost, the lowest number among equals. -/
def lightest : List (Nat × Nat) → Nat × Nat
  | [] => (64, 0)
  | [t] => t
  | t :: ts => let r := lightest ts
               if t.2 ≤ r.2 then t else r

/-- Each unit in turn goes to the lightest tile (R336). -/
def assign : List XUnit → List (Nat × Nat) → List (Nat × XUnit)
  | [], _ => []
  | u :: us, loads =>
    let t := (lightest loads).1
    (t, u) :: assign us (loads.map (fun l => if l.1 = t then (l.1, l.2 + u.cost) else l))

/-- The plan: each unit with its tile (R336). -/
def xPlan (v : BankView) : List (Nat × XUnit) :=
  (upto 8).flatMap (fun g =>
    assign ((xUnits v g).foldr insertUnit []) (((xTiles v).filter (fun t => t / 8 == g)).map (fun t => (t, 0))))

/-- Cost of tile `t` in half slice-cycles per spectrum. -/
def tileCost (plan : List (Nat × XUnit)) (t : Nat) : Nat := sumOf ((plan.filter (fun p => p.1 == t)).map (·.2.cost))

/-- F_s of the first rank in Hz, and its N_A. -/
def State.xRate (s : State) (v : BankView) : Nat :=
  match xRanks v with
  | n :: _ => 1000 * s.get (Reg.ING_RATE_RATE.e n)
  | [] => 0
def State.xNa (s : State) (v : BankView) : Nat :=
  match xRanks v with
  | n :: _ => 2 ^ (8 + s.get (Reg.CCH_ICFG_NLOG.e n))
  | [] => 256

/-- XSP_GRUN, XSP_TLOAD and THROTTLE show the live plan (R326, R336, R351, R361). -/
def State.xspPlan (s : State) : State :=
  let v := s.liveView .cross
  let on := v.on Reg.XSP_CTRL_EN.z
  let ts := bif on then xTiles v else []
  let plan := bif on then xPlan v else []
  let rate := s.xRate v
  let na := s.xNa v
  let s := (upto 8).foldl (fun (s : State) g =>
    (s.put (Reg.XSP_GRUN_FIRST.e g) (bif on && lt 0 ((xCounts v).getD g 0) then xFirst v g else 0)).put
      (Reg.XSP_GRUN_COUNT.e g) (bif on then (xCounts v).getD g 0 else 0)) s
  let s := (upto 64).foldl (fun (s : State) t =>
    let c := tileCost plan t
    ((s.flag (Reg.XSP_TLOAD_CLAIMED.e t) (ts.contains t)).put (Reg.XSP_TLOAD_SLOT.e t)
      (bif ts.contains t then (ts.filter (fun u => lt u t)).length else 0)).put (Reg.XSP_TLOAD_LOAD.e t)
        (ceilDiv (65536 * c * rate) (512 * na * (25000000 * s.adm.fcommit)))) s
  let need := ceilDiv (maxOf (ts.map (tileCost plan)) * rate) (512 * na)
  { s with xsp := { s.xsp with need := need } }.throttleSync

/-! ### The seam (R327 to R332, R350) -/

/-- x_P of a seam component of `bs` bits (R327), with its saturation. -/
def toPrec (p sh bs : Nat) (x : Int) : Int × Bool :=
  let y := if p ≤ bs then rnd (x * 2 ^ sh) (bs - p) else x * 2 ^ (sh + p - bs)
  (satS p y, clipsS p y)

/-- The engine runs in Full mode. -/
def State.xspOn (s : State) : Bool := s.on Reg.XSP_CTRL_EN.z && s.get Reg.PWR_STAT_MODE.z == 4

/-- The bank the engine works with and its generation: after a swap the new one at once, the block's own register following once the
old dump has finished (R31, R360). -/
def State.xspView (s : State) : BankView := ⟨s.word, s.get (bif s.xsp.draining then Reg.ADM_CGEN_CGEN.z else Blk.cross.gen)⟩

/-- The first rank's input, which times every product of the engine (R349). -/
def xLead (v : BankView) : Nat := (xRanks v).headD 0

/-- Input `n` has delivered the seam spectrum of hop `h` that begins at index `i`. -/
def State.seamHere (s : State) (n i h : Nat) : Bool := (s.specs 1 n).any (fun p => p.first == i && p.pitch == h)

def State.xspAbsent (s : State) (n i h : Nat) : Bool := s.xsp.absent.contains ⟨i, h, n⟩

/-- A spectrum marked absent: counted, with EV354 for the first absent input of the spectrum (R330). Those that no window under way
reaches are forgotten (03 R102). -/
def State.markAbsent (s : State) (n i h : Nat) : State :=
  let first := !s.xsp.absent.any (fun p => p.first == i && p.hop == h)
  let s := s.count Reg.XSP_ABSENT_COUNT.z 1
  let s := { s with xsp := { s.xsp with absent := ⟨i, h, n⟩ :: s.xsp.absent.filter (fun p => idxNear i p.first) } }
  bif first then s.ev 354 else s

/-- SEAM_ABSENT_DEADLINE: a spectrum of a selected input not at the seam by its deadline is absent (R330). -/
def execSeamAbsentDeadline (n m : Nat) (s : State) : Res :=
  .next <| bif s.xspOn && (xRanks s.xspView).contains n then
      match (s.windowsOf n 1 m).find? (fun w => !s.seamHere n w.2 (w.1.hop n 1) && !s.xspAbsent n w.2 (w.1.hop n 1)) with
      | some w => s.markAbsent n w.2 (w.1.hop n 1)
      | none => s
    else s

/-- A seam-port spectrum that arrives after its deadline is counted again (R330); the seam takes nothing of it. -/
def State.seamLate (s : State) (n : Nat) (p : Spectrum) : State :=
  bif s.xspAbsent n p.first p.pitch then s.count Reg.XSP_ABSENT_COUNT.z 1 else s

/-- The window of number `m` of the engine's seam grid: the one released next where it has this number, before the first release the
oldest of the first rank's at or after the instant the engine waits from. -/
def State.seamWindow (s : State) (m : Nat) : Option (Nat × Nat × Nat) :=
  match s.xsp.next with
  | some i => bif i / max 1 s.xsp.hop == m then some (i, s.xsp.hop, s.xsp.len) else none
  | none =>
    let n := xLead s.xspView
    ((s.windowsOf n 1 m).find? (fun w => !idxBefore w.2 (s.indexAt n s.xsp.since))).map (fun w => (w.2, w.1.hop n 1, w.1.len n 1))

/-- SEAM_SKEW_CHECK: T_pin(m H) of the selected inputs with a running index series compared once in 2²⁰ spectra (R331). -/
def execSeamSkewCheck (m : Nat) (s : State) : Res :=
  let v := s.xspView
  let n := xLead v
  let h := match s.xsp.next with
    | some _ => s.xsp.hop
    | none => (s.gridNew n).hop n 1
  let i := m * h % idxMod
  let ps := ((xRanks v).filter (fun n => !(s.inp n).models.isEmpty)).map (fun n => s.tpin n i)
  let hi := ps.foldl max (ps.headD 0)
  let lo := ps.foldl min (ps.headD 0)
  .next <| bif s.xspOn && m % 2 ^ 20 == 0 then
      bif ltI (s.get Reg.XSP_SKEW_TOL.z * 2 ^ 80) ((hi - lo) * 1000000000) then
        { (s.flag Reg.XSP_STAT_SKEW.z true).ev 356 with
          xsp := { s.xsp with skewed := (i, h) :: s.xsp.skewed.filter (fun p => idxNear i p.1) } }
      else s.flag Reg.XSP_STAT_SKEW.z false
    else s

/-- The cell of band bin `k` and rank group `a` of a released spectrum, `x` ranks, gallery `g` (R328). -/
def XSpec.cell (c : XSpec) (bin0 k a g : Nat) : List Byte :=
  let rank (j : Nat) : Nat := 32 * a + j
  let absent (j : Nat) : Bool := !(c.here.getD (rank j) false)
  let mask := sumOf ((upto 32).map (fun j => b2n (absent j) * 2 ^ j))
  let flags := b2n ((upto 32).any (fun j => lt (rank j) c.here.length && absent j))
    + 2 * b2n ((upto 32).any (fun j => c.part.getD (rank j) false)) + 4 * b2n (bit c.drop g)
  let w := if c.c8 then 1 else 2
  u48 c.m ++ u16 k ++ u8 a ++ u8 flags ++ u32 mask ++ u32 c.gen
    ++ (upto 32).flatMap (fun j =>
        let v := bif absent j then (0, 0) else (c.vals.getD (rank j) []).getD (k - bin0) (0, 0)
        iN w v.1 ++ iN w v.2)

/-- The spectrum of hop `h` at index `i` of the selected inputs as the seam releases it: the newest generation counts, older ones are absent
(R350); `full` names the galleries in which a tile still holds 4 spectra (R332). -/
def State.seamSpec (s : State) (v : BankView) (i h full : Nat) : XSpec :=
  let ns := xRanks v
  let of_ (n : Nat) : Option Spectrum :=
    bif s.xspAbsent n i h then none else (s.specs 1 n).find? (fun p => p.first == i && p.pitch == h)
  let gens := ns.filterMap (fun n => (of_ n).map (·.gen))
  let gen := bif gens.isEmpty then (match s.xsp.cur with
    | some c => c.gen
    | none => s.get Blk.coarse.gen) else maxOf gens
  let now (n : Nat) : Option Spectrum := (of_ n).filter (fun p => p.gen == gen)
  ⟨i / max 1 h, gen, ns.map (fun n => (now n).isSome), ns.map (fun n => ((now n).map (fun p => lt 0 p.gaps)).getD false),
   full, ns.any (fun n => ((now n).map (fun p => p.bits == 8)).getD false),
   ns.map (fun n => match now n with
     | some p => (upto (xCount v)).map (fun i => p.bins.getD (xBin0 v + i) (0, 0))
     | none => (upto (xCount v)).map (fun _ => (0, 0)))⟩

/-! ### Correlation and beams (R339, R343 to R346) -/

/-- Sums of products of one bin over ranks i ≤ j, in the order of p(i, j) (R339, R340). -/
def products (x : List (Int × Int)) : List (Int × Int) :=
  (upto x.length).flatMap (fun j => (upto (j + 1)).map (fun i =>
    let a := x.getD i (0, 0)
    let b := x.getD j (0, 0)
    (a.1 * b.1 + a.2 * b.2, a.2 * b.1 - a.1 * b.2)))

/-- Element-wise sums; an empty list stands for zeros. -/
def addAll {α : Type} (f : α → α → α) (x y : List α) : List α :=
  match x, y with
  | [], y => y
  | x, [] => x
  | x, y => List.zipWith f x y

/-- The weight of beam `b`, band bin `i` and input `n`, I and Q (R343). -/
def weightOf (w : Tbl Nat) (wglog b i n : Nat) : Int × Int :=
  let x := tget (fun _ => 0) w (262144 * b + i / 2 ^ wglog * 128 + n)
  (sext 16 x, sext 16 (x / 65536))

/-- o of beam `b` at a bin (R344): the exact sum over ranks requantised; with its saturation. -/
def beamValue (p ofmtBits bshift : Nat) (ws xs : List (Int × Int)) : (Int × Int) × Nat :=
  let wp (z : Int × Int) : Int × Int := (satS p (rnd z.1 (16 - p)), satS p (rnd z.2 (16 - p)))
  let y := (ws.zip xs).foldl (fun (a : Int × Int) c =>
    let w := wp c.1
    let x := c.2
    (a.1 + w.1 * x.1 - w.2 * x.2, a.2 + w.1 * x.2 + w.2 * x.1)) (0, 0)
  let e : Int := 2 * p - 1 - ofmtBits + bshift
  let q (z : Int) : Int := if 0 ≤ e then rnd z e.toNat else z * 2 ^ (-e).toNat
  ((satS ofmtBits (q y.1), satS ofmtBits (q y.2)), b2n (clipsS ofmtBits (q y.1)) + b2n (clipsS ofmtBits (q y.2)))

/-! ### Intervals (R347 to R350) -/

/-- The window's words in force. -/
def State.xspWords (s : State) : Tbl Word := s.regs.filter (fun e => blkAt e.1 == some Blk.cross && lt (e.1 - Blk.cross.base) Blk.cross.half)

/-- The interval in which spectrum `m` begins. -/
def State.newXInt (s : State) (v : BankView) (m gen : Nat) : XInt :=
  { q := m / max 1 (v.get Reg.XSP_INT_NX.z), m0 := m, gen := gen, specs := [], bench := [], acc := [], bbench := [],
    bacc := [], bsat := [], short := false, split := s.xsp.split, xgen := v.gen, slot := 0, hop := s.xsp.hop, len := s.xsp.len
    run := s.xsp.run
    regs := s.xspWords }

/-- The interval under way holds all its cells (R347): it waits for its close; SHORT where it spans fewer than N_X indices. -/
def State.endXInt (s : State) (split : Bool) : State :=
  match s.xsp.cur with
  | none => s
  | some c =>
    let nx := bits (tget resetWord c.regs Reg.XSP_INT_NX.off).toNat 0 30
    let c := { c with short := lt c.specs.length nx, split := c.split || split }
    { s with xsp := { s.xsp with cur := none, split := split, ended := s.xsp.ended ++ [c] } }

/-- Adds one spectrum to the interval under way: presence, bench sums of visibilities and power beams, voltage values
(R339, R342, R345, R346); with its saturated components by input (R327, R344). -/
def State.xspAccumulate (s : State) (v : BankView) (x : XSpec) : State :=
  match s.xsp.cur with
  | none => s
  | some c =>
    let ns := xRanks v
    let bs := bif x.c8 then 8 else 16
    let live (i : Nat) : Bool := !bit x.drop (xGallery v i)
    let bins := (upto (xCount v)).filter live
    let conv (p sh : Nat) (i : Nat) : List ((Int × Int) × Nat) := x.vals.map (fun r =>
      let z := r.getD i (0, 0)
      let a := toPrec p sh bs z.1
      let b := toPrec p sh bs z.2
      ((a.1, b.1), b2n a.2 + b2n b.2))
    let q4 (p : Nat) : Nat := if p = 4 then v.get Reg.XSP_CTRL_Q4SH.z else 0
    let cp := xCp v
    let bp := xBp v
    let corr := v.on Reg.XSP_CTRL_CORREN.z
    let beam := v.on Reg.XSP_BCTRL_BEAMEN.z
    let satOf (r : Nat) : Nat := sumOf (bins.map (fun i =>
      (bif corr then ((conv cp (q4 cp) i).getD r ((0, 0), 0)).2 else 0)
        + (bif beam then ((conv bp (q4 bp) i).getD r ((0, 0), 0)).2 else 0)))
    let vis := bif corr then (upto (xCount v)).map (fun i =>
      bif live i then products ((conv cp (q4 cp) i).map (·.1)) else []) else []
    let ob := bif v.on Reg.XSP_BCTRL_OFMT.z then 8 else 16
    let out (i j : Nat) : (Int × Int) × Nat := bif live i then
        beamValue bp ob (v.get Reg.XSP_BCTRL_BSHIFT.z)
          (ns.map (weightOf s.xsp.weights (v.get Reg.XSP_BCTRL_WGLOG.z) j i)) ((conv bp (q4 bp) i).map (·.1))
      else ((0, 0), 0)
    let pb := xMode v 0
    let vb := xMode v 1
    let pw := (upto (xCount v)).map (fun i => pb.map (fun j =>
      let o := (out i j).1
      (o.1 * o.1 + o.2 * o.2).toNat * 2 ^ (32 - 2 * ob)))
    let bsat (bl : List Nat) : List Nat := (upto (xCount v)).filter (fun i => bl.any (fun j => lt 0 (out i j).2))
    let osat := sumOf ((upto (xCount v)).map (fun i => sumOf ((pb ++ vb).map (fun j => (out i j).2))))
    let isat := (upto ns.length).filter (fun r => lt 0 (satOf r))
    let total := osat + sumOf ((upto ns.length).map satOf)
    let c := { c with
      specs := (x.m, x.here, x.drop) :: c.specs
      bench := addAll (fun a b => addAll (fun (p q : Int × Int) => (p.1 + q.1, p.2 + q.2)) a b) c.bench vis
      bbench := addAll (fun a b => addAll (fun (p q : Nat) => p + q) a b) c.bbench pw
      bsat := c.bsat ++ (bsat pb).filter (fun i => !c.bsat.contains i) }
    let volt : List XVolt := bif vb.isEmpty then [] else
      [⟨x.m, x.gen, x.drop, x.here.all (· == true), bsat vb, (upto (xCount v)).map (fun i => vb.map (fun j => (out i j).1)),
        s.xspWords, v.gen, s.xsp.hop, s.xsp.len, s.xsp.run, []⟩]
    let s := { s with xsp := { s.xsp with cur := some c, volts := volt ++ s.xsp.volts } }
    let s := bif lt 0 total then (s.count Reg.XSP_SAT_COUNT.z total).ev 355 else s
    match isat.getLast? with
    | some r => s.put Reg.XSP_STAT_LASTSAT.z (ns.getD r 0)
    | none => s

/-- The window `w` of spectrum `m` may be the first one released: an interval boundary at or after the instant the engine waits from
(R347, R359). -/
def State.xspFirst (s : State) (v : BankView) (m i : Nat) : Bool :=
  m % max 1 (v.get Reg.XSP_INT_NX.z) == 0 && !idxBefore i (s.indexAt (xLead v) s.xsp.since)

/-! ### The swap (R359, R360) -/

/-- The old interval's dump has finished after a swap (R360): BLK_GEN, SWPEND, EV358; an engine the new bank disables is OFF,
one it enables anew waits for its first boundary. -/
def State.xspDrained (s : State) : State :=
  let left := (s.xsp.ended ++ s.xsp.dumps).any (fun c => c.run != s.xsp.run)
  bif s.xsp.draining && !left then
    let s := { s with xsp := { s.xsp with draining := false } }
    let s := bif s.get Reg.XSP_STAT_STATE.z == 3 then
        bif s.on Reg.XSP_CTRL_EN.z then
          { (s.put Reg.XSP_STAT_STATE.z 1) with xsp := { s.xsp with next := none, since := s.now } }
        else s.put Reg.XSP_STAT_STATE.z 0
      else s
    ((s.flag Reg.XSP_STAT_SWPEND.z false).ev 358).swapDone .cross
  else s

/-- The staged bank, weights and plan become live at the present spectrum (R359); `keep`: the seam index goes on, on the seam grid of
the new bank. -/
def State.xspSwapNow (s : State) (keep : Bool) : State :=
  let was := s.get Reg.XSP_STAT_STATE.z
  let s := s.endXInt false
  let s := s.swapWhere .cross (fun _ => true)
  let on := s.on Reg.XSP_CTRL_EN.z
  let old := !(s.xsp.ended ++ s.xsp.dumps).isEmpty
  let n := xLead s.xspView
  let g := s.gridNew n
  let s := { s with xsp := { s.xsp with weights := s.xsp.staged, swapAt := none, draining := true, landing := [], since := s.commitAt
                                        next := bif keep && on then s.xsp.next else none
                                        hop := g.hop n 1, len := g.len n 1, run := s.xsp.run + 1 } }
  let s := s.put Reg.XSP_STAT_STATE.z (bif on then (bif was == 3 && old then 3 else bif keep then was else 1)
    else bif old then 3 else 0)
  (s.xspPlan).xspDrained

/-- The commit changes the seam grid of input `n`. -/
def State.seamGridChange (s : State) (n : Nat) : Bool :=
  (s.gridNew n).hop n 1 != (s.gridOld n).hop n 1 || (s.gridNew n).len n 1 != (s.gridOld n).len n 1

/-- The first index of the swap's spectrum (R359): the first interval boundary at or after the commit instant, with CUT the first
spectrum whose window begins at or after it, none released already. Where the commit changes the seam grid no interval of the old
grid goes on, and the swap falls at the first spectrum of the new grid (log 67). -/
def State.xspSwapIndex (s : State) (v w : BankView) (next : Nat) : Nat :=
  let up (i h : Nat) : Nat := bif lt (ceilDiv i (max 1 h) * h) idxMod then ceilDiv i (max 1 h) * h else 0
  let at_ := s.indexAt (xLead v) s.commitAt
  let n := bif w.on Reg.XSP_CTRL_EN.z then xLead w else xLead v
  let h := (s.gridNew n).hop n 1
  bif h != s.xsp.hop || s.seamGridChange (xLead v) then up at_ h
  else
    let i := bif idxBefore (up at_ h) next then next else up at_ h
    bif w.on Reg.XSP_CTRL_CUT.z then i else up i (max 1 (v.get Reg.XSP_INT_NX.z) * h)

/-- The commit's instant arrives (R359); an engine that is not running swaps at once. -/
def State.xspCommit (s : State) : State :=
  bif s.maySwap .cross then
    match s.xsp.next with
    | some k =>
      bif s.xspOn then { s with xsp := { s.xsp with swapAt := some (s.xspSwapIndex s.xspView (s.stagedView .cross) k) } }
      else s.xspSwapNow false
    | none => s.xspSwapNow false
  else s

/-- The seam has reached the swap index. -/
def State.xspAtSwap (s : State) : Bool :=
  match s.xsp.swapAt, s.xsp.next with
  | some a, some b => a == b
  | _, _ => false

/-- XSP_SWAP: routing, plan and weights change for the same spectrum in every gallery (R359). -/
def execXspSwap (s : State) : Res :=
  .next <| bif s.maySwap .cross && s.xspAtSwap then s.xspSwapNow true else s

/-- XSP_DUMP_DRAINED: the old interval's dump finishes after a swap (R360). -/
def execXspDumpDrained (s : State) : Res := .next s.xspDrained

/-- The seam releases the spectrum of grid hop `h` and window length `l` at index `i`, whose turn it is, to the galleries that can take
it (R330, R332, R347, R350). -/
def State.seamRelease (s : State) (v : BankView) (i h l full : Nat) : State :=
  let s := { s with xsp := { s.xsp with hop := h, len := l } }
  let full := bif lt s.fcore (25000000 * s.get Reg.ADM_CLK_FLIVE.z) then
      sumOf ((upto 8).map (fun g => b2n (bit full g && lt 0 ((xCounts v).getD g 0)) * 2 ^ g)) else 0
  let x := s.seamSpec v i h full
  let late := (xRanks v).filter (fun n => !s.xspAbsent n i h && s.seamHere n i h
    && !((x.here.zip (xRanks v)).contains (true, n)))
  let s := late.foldl (fun s n => s.markAbsent n i h) s
  let s := (upto 8).foldl (fun s g => bif bit full g then ((s.count Reg.XSP_LATE_COUNT.z 1).degrLoss .cross 1).ev 353 else s) s
  let s := match s.xsp.cur with
    | some c => bif c.gen == x.gen then s else s.endXInt true
    | none => s
  let s := bif s.xsp.cur.isSome then s
    else { s with xsp := { s.xsp with cur := some (s.newXInt v x.m x.gen), split := false } }
  let s := { s with xsp := { s.xsp with landing := (x :: s.xsp.landing).take 4 } }
  let s := (s.xspAccumulate v x).put Reg.XSP_STAT_STATE.z 2
  let j := (i + h) % idxMod
  let past := match s.xsp.swapAt with
    | some a => idxBefore a j
    | none => false
  let s := { s with xsp := { s.xsp with next := bif past then s.xsp.swapAt else some j } }
  bif j / max 1 h % max 1 (v.get Reg.XSP_INT_NX.z) == 0 || j == 0 then s.endXInt false else s

/-- SEAM_CELL_RELEASE: every selected input's spectrum `m` is present or absent (R330); spectra go in ascending order. -/
def execSeamCellRelease (m full : Nat) (s : State) : Res :=
  let s := bif s.maySwap .cross && s.xspAtSwap then s.xspSwapNow true else s
  let v := s.xspView
  .next <| match s.seamWindow m with
    | some (i, h, l) =>
      bif s.xspOn && s.get Reg.XSP_STAT_STATE.z != 3 && (s.xsp.next.isSome || s.xspFirst v m i) && !(xRanks v).isEmpty
          && (xRanks v).all (fun n => s.seamHere n i h || s.xspAbsent n i h)
        then s.seamRelease v i h l full else s
    | none => s

/-- The bench sums of an interval added into its accumulators. -/
def XInt.settle (c : XInt) : XInt :=
  { c with bench := [], bbench := []
           acc := addAll (fun a b => addAll (fun (p q : Int × Int) => (p.1 + q.1, p.2 + q.2)) a b) c.acc c.bench
           bacc := addAll (fun a b => addAll (fun (p q : Nat) => p + q) a b) c.bacc c.bbench }

/-- SUBINT_END: the bench sums are added into the gallery SRAM accumulators (R339, R345). -/
def execSubintEnd (s : State) : Res :=
  .next { s with xsp := { s.xsp with cur := s.xsp.cur.map XInt.settle } }

/-! ### Records (R341, R342, R348, R349, R353 to R358) -/

def XInt.view (c : XInt) : BankView := ⟨tget resetWord c.regs, c.xgen⟩

/-- First index and length of the union span of `n` windows of hop `h` and length `l` from spectrum `m0` on (R349). -/
def xSpan (h l m0 n : Nat) : Nat × Nat := (m0 * h % idxMod, (n - 1) * h + l)
def XInt.span (c : XInt) : Nat × Nat := xSpan c.hop c.len c.m0 c.specs.length

/-- Gap samples of an input over the span (R348). -/
def State.xGaps (s : State) (n : Nat) (sp : Nat × Nat) : Nat :=
  min (2 ^ 32 - 1) (unionCount sp.1 sp.2 (s.gapIvs n sp.1))

/-- A failed skew check falls on one of `n` spectra from `m0` on of the grid of hop `h` (R331). -/
def State.xSkew (s : State) (h m0 n : Nat) : Bool := s.xsp.skewed.any (fun p => p.2 == h && le (m0 * h) p.1 && lt p.1 ((m0 + n) * h))

/-- n_ij (R342), for the gallery `g` and a test of the ranks present. -/
def XInt.present (c : XInt) (g : Nat) (p : List Bool → Bool) : Nat :=
  (c.specs.filter (fun x => !bit x.2.2 g && p x.2.1)).length

def XInt.late (c : XInt) (g : Nat) : Nat := (c.specs.filter (fun x => bit x.2.2 g)).length

/-- Tag and TQ of the interval (R349). -/
def State.xTag (s : State) (c : XInt) : List Byte :=
  let sp := c.span
  let n := xLead c.view
  let tag := s.productTag n sp.1 (sp.2 - 1)
  u96 tag ++ u16 (s.spanTq n sp.1 (idxAdd sp.1 (sp.2 - 1)) tag)

def State.xFlags (s : State) (c : XInt) : Nat :=
  b2n c.short + 2 * b2n (s.xSkew c.hop c.m0 c.specs.length) + 4 * b2n c.split

/-- The entries of block (a, b) by ranks, in ascending p (R340). -/
def blockEntries (x b a : Nat) : List (Nat × Nat) :=
  if a = b then (upto (inGroup x a)).flatMap (fun j => (upto (j + 1)).map (fun i => (32 * a + i, 32 * a + j)))
  else (upto (inGroup x a * inGroup x b)).map (fun e => (32 * a + e % 32, 32 * b + e / 32))

/-- binary32 of v × 2^(−2(P−1)) ÷ n (R341). -/
def visF32 (v : Int) (p n : Nat) : Nat :=
  if n = 0 then 0x7FC00000 else b2n (decide (v < 0)) * 2 ^ 31 + f32 v.natAbs (n * 2 ^ (2 * (p - 1)))

/-- One component in format VFMT, with its saturation (R341). -/
def visComponent (fmt vsh p n : Nat) (v : Int) : List Byte × Nat :=
  if fmt = 0 then (iN 8 v, 0)
  else if fmt = 1 then (iN 4 (satS 32 (rnd v vsh)), b2n (clipsS 32 (rnd v vsh)))
  else (u32 (visF32 v p n), 0)

/-- The class of a record over ranks `rs` (R348). -/
def State.xClass (s : State) (c : XInt) (g n : Nat) (rs : List Nat) : Nat :=
  let sp := c.span
  let ns := xRanks c.view
  let all_ := c.specs.all (fun x => rs.all (fun r => x.2.1.getD r false))
  if n = 0 then 2
  else if all_ && c.late g = 0 && rs.all (fun r => s.xGaps (ns.getD r 0) sp == 0) then 0 else 1

/-- The VIS record of block (b, a) on bin `k` (R355), with its saturations. -/
def State.visRecord (s : State) (c : XInt) (k b a : Nat) : Record × Nat :=
  let v := c.view
  let ns := xRanks v
  let x := ns.length
  let g := xGallery v (k - xBin0 v)
  let ents := blockEntries x b a
  let rs := (upto x).filter (fun r => r / 32 == a || r / 32 == b)
  let nOf (e : Nat × Nat) : Nat := c.present g (fun h => h.getD e.1 false && h.getD e.2 false)
  let cnt := ents.map nOf
  let gone := cnt.all (· == 0)
  let all_ := c.present g (fun h => rs.all (fun r => h.getD r false))
  let hole := c.specs.any (fun y => !(rs.all (fun r => y.2.1.getD r false)))
  let wt := hole && v.on Reg.XSP_CTRL_WTAB.z && !gone
  let fmt := v.get Reg.XSP_CTRL_VFMT.z
  let acc := c.acc.getD (k - xBin0 v) []
  let vals := bif gone then [] else ents.map (fun e =>
    let z := acc.getD (e.2 * (e.2 + 1) / 2 + e.1) (0, 0)
    let re := visComponent fmt (v.get Reg.XSP_CTRL_VSH.z) (xCp v) (nOf e) z.1
    let im := visComponent fmt (v.get Reg.XSP_CTRL_VSH.z) (xCp v) (nOf e) z.2
    (re.1 ++ im.1, re.2 + im.2))
  let sat := sumOf (vals.map (·.2))
  let cls := s.xClass c g (if gone then 0 else 1) rs
  let flags := s.xFlags c + 8 * b2n (lt 0 sat) + 16 * b2n wt + 32 * b2n (lt 0 (c.late g))
  (⟨0x30, 7, 0, u16 k ++ u8 a ++ u8 b ++ u8 (xCp v) ++ u8 fmt ++ u8 cls ++ u8 flags ++ u48 c.m0 ++ u16 x ++ u32 c.q
     ++ u32 c.specs.length ++ u32 (c.late g) ++ u32 all_ ++ s.xTag c ++ u8 (v.get Reg.XSP_CTRL_VSH.z) ++ zeros 1 ++ u32 c.xgen
     ++ u32 c.gen ++ u32 vals.length ++ zeros 4 ++ vals.flatMap (·.1) ++ (bif wt then cnt.flatMap u32 else [])⟩, sat)

/-- The mask of the beams present in a record of bin `k` (R357). -/
def beamMask (beams : Nat) (bl : List Nat) (k : Nat) : Nat :=
  let base := if beams > 32 then 32 * (k % 2) else 0
  sumOf ((upto 32).map (fun i => b2n (bl.contains (base + i)) * 2 ^ i))

/-- The BEAMPWR record of bin `k` (R345, R357). -/
def State.beamPwr (s : State) (c : XInt) (k : Nat) : Record :=
  let v := c.view
  let i := k - xBin0 v
  let g := xGallery v i
  let pb := xMode v 0
  let n := c.present g (fun _ => true)
  let fmt := v.get Reg.XSP_BCTRL_PFMT.z
  let value (j : Nat) : List Byte :=
    let s1 := (c.bacc.getD i []).getD j 0
    if fmt = 0 then (if n = 0 then u16 0x8000 else iN 2 (lp s1 n))
    else if fmt = 1 then u32 (if n = 0 then 0x7FC00000 else f32 s1 (n * 2 ^ 30))
    else u64 s1
  let flags := s.xFlags c + 8 * b2n (c.bsat.contains i) + 32 * b2n (lt 0 (c.late g))
  ⟨0x32, 7, 0, u16 k ++ u8 1 ++ u8 (fmt + 1) ++ u8 pb.length ++ u8 1 ++ u8 (s.xClass c g n (upto (xRanks v).length)) ++ u8 flags
    ++ u48 c.m0 ++ zeros 2 ++ u32 c.q ++ u32 n ++ s.xTag c ++ zeros 2 ++ u32 c.xgen
    ++ u32 (beamMask (xBeams v).length pb k) ++ (upto pb.length).flatMap value⟩

/-- The XSTAT record (R356). -/
def State.xstat (s : State) (c : XInt) : Record :=
  let v := c.view
  let ns := xRanks v
  let sp := c.span
  ⟨0x31, 7, 0, u32 c.q ++ u48 c.m0 ++ u16 ns.length ++ s.xTag c ++ u16 (s.xFlags c) ++ u32 c.xgen
    ++ (upto ns.length).flatMap (fun r =>
      u8 (ns.getD r 0) ++ zeros 3 ++ u32 (c.specs.filter (fun x => !(x.2.1.getD r false))).length
        ++ u32 (s.xGaps (ns.getD r 0) sp) ++ zeros 4)⟩

/-- The records of dump slot `d` in their order (R351, R353): stream, record, saturations. -/
def State.slotRecords (s : State) (c : XInt) (d : Nat) : List (Nat × Record × Nat) :=
  let v := c.view
  match (xTiles v)[d]? with
  | none => []
  | some t =>
    let units := (xPlan v).filter (fun p => p.1 == t)
    (upto (xCount v)).flatMap (fun i =>
      let k := xBin0 v + i
      let here := units.filter (fun p => p.2.k == k)
      (xBlocks (xRanks v).length).flatMap (fun p =>
        bif here.any (fun u => !u.2.beam && u.2.b == p.1 && u.2.a == p.2) then
          [(v.get Reg.XSP_DEST_XSTREAM.z, s.visRecord c k p.1 p.2)] else [])
      ++ (bif here.any (fun u => u.2.beam) && !(xMode v 0).isEmpty then
            [(v.get Reg.XSP_DEST_PSTREAM.z, s.beamPwr c k, 0)] else []))

/-- The records of `c` not yet emitted are lost (R354). -/
def State.dumpLost (s : State) (c : XInt) : State :=
  let v := c.view
  let xs := v.get Reg.XSP_DEST_XSTREAM.z
  let ps := v.get Reg.XSP_DEST_PSTREAM.z
  let rs := (upto (xTiles v).length).flatMap (fun d => bif lt d c.slot then [] else s.slotRecords c d)
  let kinds (k : Nat) : Nat := (rs.filter (fun r => r.2.1.kind == k)).length
  let nx := kinds 0x30 + 1 + (bif xs == ps then kinds 0x32 else 0)
  let np := bif xs == ps then 0 else kinds 0x32
  let body (n : Nat) : Record := ⟨0x33, 7, 0, u32 c.q ++ u48 c.m0 ++ zeros 2 ++ u32 n⟩
  let s := (((s.count Reg.XSP_DUMPLOST_COUNT.z (nx + np)).degrLoss .cross (nx + np)).ev 357).close xs (body nx)
  bif lt 0 np then s.close ps (body np) else s

/-- XSP_INTERVAL_CLOSE: an interval closes and its accumulators pass to their dump copies (R347); unread records of the
interval before it in the same store are lost (R354). -/
def execXspIntervalClose (s : State) : Res :=
  .next <| match s.xsp.ended with
    | [] => s
    | c :: rest =>
      let s := bif c.short then (s.count Reg.XSP_SHORT_COUNT.z 1).ev 352 else s
      let lost := s.xsp.dumps.filter (fun d => d.run == c.run)
      let s := lost.foldl State.dumpLost s
      let dumps := s.xsp.dumps.filter (fun d => d.run != c.run)
      { s with xsp := { s.xsp with ended := rest, dumps := dumps ++ [c.settle] } }

/-- DUMP_SLOT: the collector emits the records of the next dump slot, and XSTAT after the last (R351, R353). -/
def execDumpSlot (s : State) : Res :=
  .next <| match s.xsp.dumps with
    | [] => s
    | c :: rest =>
      let v := c.view
      let s := (s.slotRecords c c.slot).foldl (fun s r =>
        let s := bif lt 0 r.2.2 then (s.count Reg.XSP_SAT_COUNT.z r.2.2).ev 355 else s
        s.close r.1 r.2.1) s
      bif lt (c.slot + 1) (xTiles v).length then
        { s with xsp := { s.xsp with dumps := { c with slot := c.slot + 1 } :: rest } }
      else
        { (s.close (v.get Reg.XSP_DEST_XSTREAM.z) (s.xstat c)) with xsp := { s.xsp with dumps := rest } }

/-- Value `x` belongs to the group of `n` spectra from `m` on, of the run and grid of `y`. -/
def XVolt.inGroup (x y : XVolt) (m n : Nat) : Bool := x.run == y.run && x.hop == y.hop && le m x.m && lt x.m (m + n)

def XVolt.view (x : XVolt) : BankView := ⟨tget resetWord x.regs, x.xgen⟩

/-- VSPEC + 1 of the bank the value was formed with. -/
def XVolt.count (x : XVolt) : Nat := x.view.get Reg.XSP_BCTRL_VSPEC.z + 1

/-- The oldest group that begins at spectrum `m` and whose record of bin `k` is still to come, as one of its values. -/
def State.voltGroup (s : State) (k m : Nat) : Option XVolt :=
  (s.xsp.volts.filter (fun x => m % x.count == 0 && le m x.m && lt x.m (m + x.count) && le (xBin0 x.view) k
    && lt (k - xBin0 x.view) (xCount x.view) && !x.sent.contains k)).getLast?

/-- The group of `y` from `m` on gets no spectrum any more: its last one is there, or the series it belongs to has ended or gone
past it (R346). -/
def State.voltDone (s : State) (y : XVolt) (m : Nat) : Bool :=
  s.xsp.volts.any (fun x => x.inGroup y m y.count && x.m == m + y.count - 1)
    || match s.xsp.next with
       | some i => y.run != s.xsp.run || y.hop != s.xsp.hop || lt (i / max 1 y.hop) m || le (m + y.count) (i / max 1 y.hop)
       | none => true

/-- The record of bin `k` for the group of `y` from spectrum `m` on (R346, R357), `l` its values. -/
def State.beamVolt (s : State) (y : XVolt) (l : List XVolt) (k m : Nat) : Record :=
  let v := y.view
  let n := y.count
  let i := k - xBin0 v
  let g := xGallery v i
  let vb := xMode v 1
  let got := l.filter (fun x => !bit x.drop g)
  let lead := xLead v
  let first := m * y.hop % idxMod
  let last := idxAdd first (y.len - 1)
  let sp := xSpan y.hop y.len m n
  let w := bif v.on Reg.XSP_BCTRL_OFMT.z then 1 else 2
  let value (j : Nat) : List Byte :=
    let z := (got.find? (fun x => x.m == m + j)).map (fun x => x.vals.getD i [])
    (upto vb.length).flatMap (fun b =>
      let z := (z.getD []).getD b (0, 0)
      iN w z.1 ++ iN w z.2)
  let whole := l.all (·.whole) && (xRanks v).all (fun r => s.xGaps r sp == 0)
  let cls := if got.isEmpty then 2 else if got.length = n && whole then 0 else 1
  let flags := 2 * b2n (s.xSkew y.hop m n) + 4 * b2n (l.any (fun x => x.gen != y.gen)) + 8 * b2n (l.any (fun x => x.sat.contains i))
    + 32 * b2n (l.any (fun x => bit x.drop g))
  let tag := s.productTag lead first (y.len - 1)
  ⟨0x32, 7, 0, u16 k ++ u8 2 ++ u8 (bif v.on Reg.XSP_BCTRL_OFMT.z then 5 else 4) ++ u8 vb.length ++ u8 n ++ u8 cls ++ u8 flags
    ++ u48 m ++ zeros 2 ++ u32 0 ++ u32 got.length ++ u96 tag ++ u16 (s.spanTq lead first last tag) ++ zeros 2 ++ u32 y.xgen
    ++ u32 (beamMask (xBeams v).length vb k) ++ (upto n).flatMap value⟩

/-- BEAMVOLT_EMIT: the record of bin `k` for the group of VSPEC + 1 spectra from `m` on, once its last one is processed or
the series has ended (R346, R357). A group whose records are all out is forgotten. -/
def execBeamvoltEmit (k m : Nat) (s : State) : Res :=
  .next <| match s.voltGroup k m with
    | none => s
    | some y =>
      bif s.voltDone y m then
        let n := y.count
        let l := s.xsp.volts.filter (fun x => x.inGroup y m n)
        let volts := s.xsp.volts.map (fun x => bif x.inGroup y m n then { x with sent := k :: x.sent } else x)
        let s := s.close (y.view.get Reg.XSP_BCTRL_VSTREAM.z) (s.beamVolt y l k m)
        { s with xsp := { s.xsp with volts := volts.filter (fun x => lt x.sent.length (xCount x.view)) } }
      else s

/-! ### Weights (R343) -/

/-- The staged bank takes a weight at this index. -/
def State.weightOk (s : State) (p : Nat) : Bool :=
  let v := s.stagedView .cross
  let w := p / 128 % 2048
  v.on (Reg.XSP_BCFG_EN.e (p / 262144)) && lt w (ceilDiv (xCount v) (2 ^ v.get Reg.XSP_BCTRL_WGLOG.z))
    && (xRanks v).contains (p % 128)

/-- XSP_WDATA_WRITE in the staged view: the weight at XSP_WPTR is stored and the pointer advances; discarded where the index
names no weight (R343), ignored while the staged bank is frozen (02 R64). -/
def execXspWdataWrite (v : Word) (s : State) : Res :=
  let ptr := Reg.XSP_WPTR_PTR.z.staged .cross
  let p := s.get ptr
  .next <| bif s.on Blk.cross.frozen then s.frozenIgnored .cross (Reg.XSP_WDATA_WQ.z.staged .cross).off s.now
    else
      let s := bif s.weightOk p then
          { s with xsp := { s.xsp with staged := tset (fun _ => 0) s.xsp.staged p v.toNat } } else s
      s.put ptr (p + 1)

/-- A staged write that moves the weights' meaning sets every staged weight to 0 (R343). -/
def State.clearWeights (s : State) : State := { s with xsp := { s.xsp with staged := [] } }

/-! ### Modes -/

/-- At entry to Watch or Sleep the engine stops: the interval under way ends short and it waits. -/
def State.xspIdle (s : State) : State :=
  bif s.get Reg.XSP_STAT_STATE.z == 2 || s.get Reg.XSP_STAT_STATE.z == 1 then
    let s := (s.endXInt false).put Reg.XSP_STAT_STATE.z 1
    { s with xsp := { s.xsp with next := none, swapAt := none, landing := [] } }
  else s

/-- At entry to Full it waits for the first interval boundary. -/
def State.xspWake (s : State) : State :=
  { s with xsp := { s.xsp with next := none, since := s.now } }

end Sys2Proof.Machine
end

