-- ==== Sys2Proof/Machine/Display.lean ====
section
/-!
DEFINITION. The display engine (17_display_engine.md): rasters of the layers, compositing, the overlay, promotion points, links and
hot-plug, AUX, touch and the marker readout.
-/
namespace Sys2Proof.Machine

def State.output (s : State) (o : Nat) : Output := tget (fun _ => Output.reset) s.dsp.outs o
def State.setOutput (s : State) (o : Nat) (x : Output) : State :=
  { s with dsp := { s.dsp with outs := tset (fun _ => Output.reset) s.dsp.outs o x } }
def Output.layer (x : Output) (l : Nat) : Layer := tget (fun _ => Layer.reset) x.layers l
def State.setLayer (s : State) (o l : Nat) (y : Layer) : State :=
  let x := s.output o
  s.setOutput o { x with layers := tset (fun _ => Layer.reset) x.layers l y }

def outState (o : Nat) : Loc := Reg.DSP_OSTAT_STATE.e o
/-- An output changes state (R534): EV496 + o. -/
def State.outTo (s : State) (o v : Nat) : State :=
  let v := if bit (s.get Reg.SEC_WITHDRAWN_CANVAS.z) o then 0 else v
  bif s.get (outState o) == v then s else (s.put (outState o) v).ev (496 + o)

/-! ### Layers and rasters (R522 to R525) -/

/-- The palette index of a map cell (R524). -/
def paletteIndex (log : Bool) (gain gsh v : Nat) : Nat :=
  let w := v * gain / 2 ^ gsh
  if log then (if w = 0 then 0 else min 255 (1 + Nat.log2 (w ^ 16))) else min 255 w

/-- DSP_LSTAT shows a layer (R523). -/
def State.layerSync (s : State) (o l : Nat) : State :=
  let f := ((s.output o).layer l).front
  let s := s.put (Reg.DSP_LSTAT_CLASS.e2 o l) (match f with
    | some r => r.cls
    | none => 0)
  (s.flag (Reg.DSP_LSTAT_SHOWN.e2 o l) f.isSome).feedSync o l

/-- The cycle under way, as promotion points, rasters and flips are told apart by it (R523, R527). -/
def State.cycleNow (s : State) : Nat := s.tb.acc

/-- A map record of view `v` for input `x` reaches its layer's back copy (R523); a raster never shown is counted. GAIN and GSH apply to
the raster as it stands (R532), so the copy holds the counts and LOGM; a void record's counts are 0. -/
def State.canvasTake (s : State) (v x : Nat) (c : Interval) (cls : Nat) : State :=
  let o := c.field Reg.DVW_DEST_CANOUT
  let l := c.field Reg.DVW_DEST_LAYER
  bif c.field Reg.DVW_DEST_CEN == 1 && s.on (Reg.DSP_LCFG_EN.e2 o l) && s.get (Reg.DSP_LCFG_INPUT.e2 o l) == x then
    let cells := c.raster.map (fun k => if cls = 2 then 0 else k)
    let r : Raster := ⟨v, c.field Reg.DVW_MAP0_ROWS, c.field Reg.DVW_MAP0_COLS, c.field Reg.DVW_MAP1_TOP, c.field Reg.DVW_MAP1_STEP,
      cls, s.on (Reg.DSP_LCFG_LOGM.e2 o l), cells, s.cycleNow⟩
    let y := (s.output o).layer l
    let s := bif y.back.isSome then s.count (Reg.DSP_SKIP_COUNT.e o) 1 else s
    s.setLayer o l { y with back := some r }
  else s

/-- The index of a raster's cell under GAIN and GSH (R524). -/
def Raster.index (r : Raster) (gain gsh row col : Nat) : Nat := paletteIndex r.log gain gsh (r.cells.getD (row * r.cols + col) 0)

/-- The index a layer shows at layer pixel (`x`, `y`) of `w` by `h` (R525). -/
def Raster.at (r : Raster) (gain gsh : Nat) (peak : Bool) (w h x y : Nat) : Nat :=
  let row := y * r.rows / h
  let a := x * r.cols / w
  let b := if peak then max a ((x + 1) * r.cols / w - 1) else a
  maxOf ((upto (b + 1 - a)).map (fun k => r.index gain gsh row (a + k)))

/-- GAIN and GSH of a layer. -/
def State.layerGain (s : State) (o l : Nat) : Nat := s.get (Reg.DSP_LGAIN_GAIN.e2 o l)
def State.layerGsh (s : State) (o l : Nat) : Nat := s.get (Reg.DSP_LCFG_GSH.e2 o l)

/-! ### Compositing (R526 to R529) -/

/-- One component blended (R526). -/
def blendByte (a src dst : Nat) : Nat := (rndDiv ((a * src + (255 - a) * dst : Nat) : Int) 255).toNat

/-- A palette or overlay word blended over a colour (R526). -/
def blend (word dst : Nat) : Nat :=
  let a := bits word 24 8
  let f (i : Nat) : Nat := blendByte a (bits word (8 * i) 8) (bits dst (8 * i) 8)
  f 0 + 256 * f 1 + 65536 * f 2

/-- Pixel (`x`, `y`) lies in layer `l`: its layer coordinates (R525). -/
def State.inLayer (s : State) (o l : Nat) (x y : Int) : Option (Nat × Nat) :=
  let x0 := s.get (Reg.DSP_LPOS_X0.e2 o l)
  let y0 := s.get (Reg.DSP_LPOS_Y0.e2 o l)
  if (x0 : Int) ≤ x ∧ x < x0 + s.get (Reg.DSP_LSIZE_W.e2 o l) ∧ (y0 : Int) ≤ y ∧ y < y0 + s.get (Reg.DSP_LSIZE_H.e2 o l) then
    some ((x - x0).toNat, (y - y0).toNat) else none

/-- Layer `l` over a colour at pixel (`x`, `y`). -/
def State.layerOver (s : State) (o x y : Nat) (d l : Nat) : Nat :=
  match ((s.output o).layer l).front, s.inLayer o l x y with
  | some r, some p =>
    bif s.on (Reg.DSP_LCFG_EN.e2 o l) then
      let i := r.at (s.layerGain o l) (s.layerGsh o l) (s.on (Reg.DSP_LCFG_MAXP.e2 o l)) (s.get (Reg.DSP_LSIZE_W.e2 o l)) (s.get (Reg.DSP_LSIZE_H.e2 o l)) p.1 p.2
      blend (s.get (Reg.DSP_PAL_WORD.e3 o l i)) d
    else d
  | _, _ => d

/-- The crosshair's pixels (R541). -/
def State.onGlyph (s : State) (o x y : Nat) (g : Glyph) : Bool :=
  (s.inLayer o g.layer x y).isSome && (decide ((x : Int) = g.x) || decide ((y : Int) = g.y))

/-- The address of overlay line `y` (R527). -/
def State.overlayAddr (s : State) (o y : Nat) : Nat :=
  let base := if (s.output o).buffer = 0 then s.get64 (Reg.DSP_OVB0_L_ADDR.e o) (Reg.DSP_OVB0_H_ADDR.e o)
    else s.get64 (Reg.DSP_OVB1_L_ADDR.e o) (Reg.DSP_OVB1_H_ADDR.e o)
  base + 4 * s.get (Reg.DSP_HTIM_HACT.e o) * y

/-- The words of overlay line `y` as HBM holds them; a poisoned word is transparent (R529). -/
def State.overlayLine (s : State) (o y : Nat) : List Nat :=
  let a := s.overlayAddr o y
  (upto (s.get (Reg.DSP_HTIM_HACT.e o))).map (fun i => if s.poisoned (a + 4 * i) then 0 else leNat (s.peekAll (a + 4 * i) 4))

/-- The overlay words of a line of the frame under way. -/
def State.lineWords (s : State) (o y : Nat) : List Nat :=
  match tget (fun _ => none) (s.output o).lines y with
  | some l => l
  | none => s.overlayLine o y

/-- A pixel of the frame under way (R526, R529, R537). -/
def State.pixel (s : State) (o y : Nat) (ov : List Nat) (x : Nat) : Nat :=
  let out := s.output o
  let gone := match out.abort with
    | some a => a.1 < y || (a.1 == y && a.2 ≤ x)
    | none => false
  bif s.get (outState o) == 5 then s.get (Reg.DSP_BG_RGB.e o)
  else bif gone then s.get (Reg.DSP_UCOL_RGB.e o)
  else
    let d := (upto 16).foldl (s.layerOver o x y) (s.get (Reg.DSP_BG_RGB.e o))
    let d := bif s.on (Reg.DSP_OCFG_OVLEN.e o) then blend (ov.getD x 0) d else d
    match out.glyph with
    | some g => bif s.onGlyph o x y g then s.get Reg.DSP_MKCOL_RGB.z else d
    | none => d

/-- The frame under way. -/
def State.frameLines (s : State) (o : Nat) : List (List Nat) :=
  (upto (s.get (Reg.DSP_VTIM_VACT.e o))).map (fun y =>
    let ov := s.lineWords o y
    (upto (s.get (Reg.DSP_HTIM_HACT.e o))).map (s.pixel o y ov))

/-! ### The bank (R532) -/

/-- The timing words of an output. -/
def timingFields : List Fld :=
  [Reg.DSP_HTIM_HTOTAL, Reg.DSP_HSYN_HFP, Reg.DSP_VTIM_VTOTAL, Reg.DSP_VSYN_VFP, Reg.DSP_PCLK_KHZ]

/-- The banked words of an output, its layers and palettes. -/
def outputFields : List Fld :=
  timingFields ++ [Reg.DSP_OCFG_EN, Reg.DSP_VRRMAX_VTMAX, Reg.DSP_BG_RGB, Reg.DSP_UCOL_RGB, Reg.DSP_OVB0_L_ADDR, Reg.DSP_OVB0_H_ADDR,
    Reg.DSP_OVB1_L_ADDR, Reg.DSP_OVB1_H_ADDR, Reg.DSP_LCFG_EN, Reg.DSP_LPOS_Y0, Reg.DSP_LSIZE_H, Reg.DSP_LGAIN_GAIN, Reg.DSP_PAL_WORD]

/-- A commit that changes f_pix, a timing field or a polarity. -/
def State.retimes (s : State) (o : Nat) : Bool :=
  let b := s.stagedView .display
  (s.bankOffsets .display).any (fun k => ofElem timingFields o k && s.wordChanged .display k)
    || b.on (Reg.DSP_OCFG_HSP.e o) != s.on (Reg.DSP_OCFG_HSP.e o) || b.on (Reg.DSP_OCFG_VSP.e o) != s.on (Reg.DSP_OCFG_VSP.e o)

/-- Both outputs and the touch settings have swapped: EV503 (R532). -/
def State.dspDone (s : State) : State :=
  bif s.maySwap .display && !(s.output 0).left && !(s.output 1).left && !s.dsp.touchLeft then
    (((s.swapWhere .display (fun _ => true)).flag Reg.DSP_STAT_SWPEND.z false).ev 503).swapDone .display
  else s

/-- Rasters made from another view, input or map geometry than the layer's are discarded (R532). -/
def State.dropRasters (s : State) (o : Nat) (inputs : List Nat) : State :=
  (upto 16).foldl (fun s l =>
    let y := (s.output o).layer l
    let ok (r : Raster) : Bool := match s.layerView o l with
      | some v => r.view == v && r.rows == s.get (Reg.DVW_MAP0_ROWS.e v) && r.cols == s.get (Reg.DVW_MAP0_COLS.e v)
          && r.top == s.get (Reg.DVW_MAP1_TOP.e v) && r.step == s.get (Reg.DVW_MAP1_STEP.e v)
          && inputs.getD l 0 == s.get (Reg.DSP_LCFG_INPUT.e2 o l)
      | none => false
    let keep (r : Option Raster) : Option Raster := match r with
      | some q => if ok q then r else none
      | none => none
    bif y.front.isNone && y.back.isNone then s else s.setLayer o l ⟨keep y.front, keep y.back⟩) s

/-- A link rate in kbit/s for each lane (R533). -/
def linkKbps (rate : Nat) : Nat :=
  if rate = 0 then 1620000 else if rate = 1 then 2700000 else if rate = 2 then 5400000 else if rate = 3 then 8100000
  else if rate = 4 then 10000000 else 13500000

/-- The trained link carries the stream (R533). -/
def carries (khz rate lanes : Nat) : Bool :=
  let n := 2 ^ lanes
  let k : Nat × Nat := if rate ≤ 3 then (8, 10) else (128, 132)
  le (khz * 24 * k.2 * 100) (n * linkKbps rate * k.1 * 97)

/-- The link of output `o` as trained carries its stream. -/
def State.linkCarries (s : State) (o : Nat) : Bool :=
  carries (s.get (Reg.DSP_PCLK_KHZ.e o)) (s.get (Reg.DSP_OSTAT_RATE.e o)) (s.get (Reg.DSP_OSTAT_LANES.e o))

/-- The state of an output once it has swapped (R532, R534): OFF when disabled, UNPLUGGED when enabled from OFF, TRAINING again from
FALLBACK, and FALLBACK where the trained link does not carry the new stream. -/
def State.outAfterSwap (s : State) (o : Nat) : State :=
  let v := s.get (outState o)
  bif !s.on (Reg.DSP_OCFG_EN.e o) then (s.setOutput o { s.output o with begun := false }).outTo o 0
  else bif v == 0 && s.runs then s.outTo o 1
  else bif v == 4 then s.outTo o 2
  else bif (v == 3 || v == 5) && !s.linkCarries o then (s.setOutput o { s.output o with begun := false }).outTo o 4
  else s

/-- Output `o` swaps to the new bank (R532, R534). -/
def State.outputSwap (s : State) (o : Nat) : State :=
  let inputs := (upto 16).map (fun l => s.get (Reg.DSP_LCFG_INPUT.e2 o l))
  let stop := s.retimes o
  let clock := s.get (Reg.DSP_PCLK_KHZ.e o)
  let s := s.swapWhere .display (ofElem outputFields o)
  let s := bif s.get (Reg.DSP_PCLK_KHZ.e o) == clock then s else s.auxRetune o
  let s := s.setOutput o { s.output o with left := false, begun := (s.output o).begun && !stop }
  let s := (s.dropRasters o inputs).outAfterSwap o
  ((upto 16).foldl (fun s l => s.layerSync o l) s).dspDone

/-- The touch settings swap at the commit instant (R532). -/
def touchFields : List Fld :=
  [Reg.DSP_TCFG_EN, Reg.DSP_TREP_REG, Reg.DSP_TFLD_XOFF, Reg.DSP_MKCOL_RGB, Reg.DSP_TCAL_COEF]

/-- The commit's instant arrives: touch settings and outputs that are not ACTIVE swap (R532). -/
def State.dspCommit (s : State) : State :=
  bif s.adm.named.contains .display then
    let s := s.swapWhere .display (fun k => touchFields.any (·.covers k))
    let s := (upto 2).foldl (fun s o => s.setOutput o { s.output o with left := true }) s
    let s := { s with dsp := { s.dsp with touchLeft := false } }
    (upto 2).foldl (fun s o => bif s.get (outState o) == 3 then s else s.outputSwap o) s
  else s

/-- DISPLAY_SWAP (R532): output `o` swaps if it has still to. -/
def execDisplaySwap (o : Nat) (s : State) : Res :=
  .next <| bif lt o 2 && s.maySwap .display && (s.output o).left then s.outputSwap o else s

/-! ### The promotion point (R523, R527, R530, R531, R537, R541) -/

/-- An update is pending (R531). -/
def State.updatePending (s : State) (o : Nat) : Bool :=
  let x := s.output o
  x.layers.any (fun y => y.2.back.isSome) || s.on (Reg.DSP_FLIP_FLIPPEND.e o) || decide (x.glyph ≠ x.glyphNext) || x.left

/-- The vertical sync of a frame may begin at line `b` (R531). -/
def State.syncAt (s : State) (o b : Nat) : Bool :=
  let lo := s.get (Reg.DSP_VTIM_VACT.e o) + s.get (Reg.DSP_VSYN_VFP.e o)
  let hi := s.get (Reg.DSP_VRRMAX_VTMAX.e o) - (s.get (Reg.DSP_VTIM_VTOTAL.e o) - lo)
  bif s.on (Reg.DSP_OCFG_VRR.e o) then b == hi || (le lo b && lt b hi && s.updatePending o) else b == lo

/-- A back copy becomes the front copy, its last byte written before cycle `now` (R523). -/
def Layer.promoted (now : Nat) (y : Layer) : Layer := match y.back with
  | some r => if r.at_ = now then y else ⟨some r, none⟩
  | none => y

/-- Back copies become front copies, the flip and the glyph take effect; what was written in this cycle waits for the next promotion
point. -/
def State.promote (s : State) (o : Nat) : State :=
  let x := s.output o
  let now := s.cycleNow
  let s := s.setOutput o { x with layers := x.layers.map (fun y => (y.1, y.2.promoted now)), glyph := x.glyphNext }
  let s := bif s.on (Reg.DSP_FLIP_FLIPPEND.e o) && decide (x.flipAt ≠ some now) then
      let s := s.setOutput o { s.output o with buffer := s.get (Reg.DSP_FLIP_SEL.e o) }
      (s.flag (Reg.DSP_FLIP_FLIPPEND.e o) false).ev 500
    else s
  let s := s.dropRasters o ((upto 16).map (fun l => s.get (Reg.DSP_LCFG_INPUT.e2 o l)))
  (upto 16).foldl (fun s l => s.layerSync o l) s

/-- The frame under way is aborted at pixel `k` of line `y` (R529), unless it was before. -/
def State.underrun (s : State) (o y k : Nat) : State :=
  bif (s.output o).abort.isSome then s
  else (((s.setOutput o { s.output o with abort := some (y, k) }).count (Reg.DSP_UNDER_COUNT.e o) 1).degrLoss
    .display 1).ev (498 + o)

/-- The first overlay line of the frame under way that was never fetched: its words are not present when their pixels are due. -/
def State.missedLine (s : State) (o : Nat) : Option Nat :=
  bif s.get (outState o) == 3 && s.on (Reg.DSP_OCFG_OVLEN.e o) then
    (upto (s.get (Reg.DSP_VTIM_VACT.e o))).find? (fun y => (tget (fun _ => none) (s.output o).lines y).isNone)
  else none

/-- DISPLAY_PROMOTION (R530): the frame under way ends at the vertical sync of line `b`, and what is ready takes effect; a BLANK
output is ACTIVE again in Full mode (R537). -/
def execDisplayPromotion (o b : Nat) (s : State) : Res :=
  .next <| bif lt o 2 && (s.get (outState o) == 3 || s.get (outState o) == 5) && (!(s.output o).begun || s.syncAt o b) then
      let x := s.output o
      let s := match x.begun, s.missedLine o with
        | true, some y => s.underrun o y 0
        | _, _ => s
      let s := bif x.begun then
          let back := s.get (Reg.DSP_VTIM_VTOTAL.e o) - (s.get (Reg.DSP_VTIM_VACT.e o) + s.get (Reg.DSP_VSYN_VFP.e o))
          let s := s.emit (.video o (s.frameLines o))
          (s.wrap (Reg.DSP_FRAMES_COUNT.e o) 1).put (Reg.DSP_OSTAT_LASTV.e o) (b + back)
        else s
      let s := s.setOutput o { s.output o with lines := [], abort := none, begun := true }
      let s := bif s.streamsRun then s.promote o else s
      let s := bif s.maySwap .display && (s.output o).left then s.outputSwap o else s
      bif s.get (outState o) == 5 && s.streamsRun then s.outTo o 3 else s
    else s

/-- OVERLAY_FETCH (R528, R529): line `y` of the overlay is fetched; `late` is the first pixel whose word was not present when it
was due, and the frame is aborted from there on. -/
def execOverlayFetch (o y : Nat) (late : Option Nat) (s : State) : Res :=
  .next <| bif lt o 2 && s.get (outState o) == 3 && s.on (Reg.DSP_OCFG_OVLEN.e o) && lt y (s.get (Reg.DSP_VTIM_VACT.e o)) then
      let x := s.output o
      let a := s.overlayAddr o y
      let bad := ((upto (s.get (Reg.DSP_HTIM_HACT.e o))).filter (fun i => s.poisoned (a + 4 * i))).length
      let s := s.setOutput o { x with lines := tset (fun _ => none) x.lines y (some (s.overlayLine o y)) }
      let s := bif lt 0 bad then (s.count (Reg.DSP_POISON_COUNT.e o) bad).ev (498 + o) else s
      match late with
      | none => s
      | some k => s.underrun o y k
    else s

/-- DSP_FLIP_WRITE (R527). -/
def execDspFlipWrite (o sel : Nat) (s : State) : Res :=
  let s := s.setOutput o { s.output o with flipAt := some s.cycleNow }
  .next ((s.put (Reg.DSP_FLIP_SEL.e o) sel).flag (Reg.DSP_FLIP_FLIPPEND.e o) true)

/-! ### Links and hot-plug (R533 to R537) -/

/-- HPD_PLUG (R534): training starts when AUTOTR is set. -/
def execHpdPlug (o : Nat) (s : State) : Res :=
  .next <| bif s.get (outState o) == 1 && s.on (Reg.DSP_OCFG_AUTOTR.e o) then s.outTo o 2 else s

/-- HPD_UNPLUG (R535). -/
def execHpdUnplug (o : Nat) (s : State) : Res :=
  .next <| bif s.get (outState o) == 0 then s
    else (s.setOutput o { s.output o with begun := false }).outTo o 1

/-- IRQ_HPD (R535). -/
def execIrqHpd (o : Nat) (s : State) : Res := .next (s.ev (496 + o))

/-- LINK_TRAINING_DONE (R533, R534): training ends at a rate and number of lanes of at most MAXRATE and MAXLN; in Watch mode a trained
output is BLANK. -/
def execLinkTrainingDone (o rate lanes : Nat) (s : State) : Res :=
  .next <| bif s.get (outState o) == 2 && le rate (s.get (Reg.DSP_OCFG_MAXRATE.e o)) && le lanes (s.get (Reg.DSP_OCFG_MAXLN.e o)) then
      let s := (s.put (Reg.DSP_OSTAT_RATE.e o) rate).put (Reg.DSP_OSTAT_LANES.e o) lanes
      let s := s.setOutput o { s.output o with begun := false }
      bif s.linkCarries o then s.outTo o (if s.streamsRun then 3 else 5) else s.outTo o 4
    else s

/-- RETRAIN (R534, R542). -/
def execRetrain (o : Nat) (s : State) : Res :=
  .next <| bif s.get (outState o) == 3 || s.get (outState o) == 4 then
      (s.setOutput o { s.output o with begun := false }).outTo o 2
    else s.bad .display

/-- An AUX transaction begins (R536); a write of AUXCMD while BUSY is ignored with BADACC and EV005. -/
def State.auxStart (s : State) (o op : Nat) : State :=
  bif s.on (Reg.DSP_AUXST_BUSY.e o) then s.bad .display
  else
    let len := s.get (Reg.DSP_AUXCMD_LEN.e o) + 1
    let data := ((upto 4).flatMap (fun w => u32 (s.get (Reg.DSP_AUXD_DATA.e2 o w)))).take len
    let s := s.emit (.aux o op (s.get (Reg.DSP_AUXCMD_ADDR.e o)) len (if op % 2 = 1 then data else []))
    (s.setOutput o { s.output o with aux := op }).flag (Reg.DSP_AUXST_BUSY.e o) true

/-- AUX_NATIVE_WRITE (R536). -/
def execAuxNativeWrite (o : Nat) (s : State) : Res := .next (s.auxStart o 1)
/-- AUX_NATIVE_READ (R536). -/
def execAuxNativeRead (o : Nat) (s : State) : Res := .next (s.auxStart o 2)
/-- AUX_I2C_WRITE (R536). -/
def execAuxI2cWrite (o : Nat) (s : State) : Res := .next (s.auxStart o 3)
/-- AUX_I2C_READ (R536). -/
def execAuxI2cRead (o : Nat) (s : State) : Res := .next (s.auxStart o 4)

/-- AUX_DONE (R536): the transaction ends; a read acknowledged leaves its bytes in DSP_AUXD. -/
def execAuxDone (o result : Nat) (data : List Byte) (s : State) : Res :=
  .next <| bif s.on (Reg.DSP_AUXST_BUSY.e o) then
      let op := (s.output o).aux
      let len := s.get (Reg.DSP_AUXCMD_LEN.e o) + 1
      let s := bif op % 2 == 0 && result == 0 then
          (upto len).foldl (fun s i => s.put ({ Reg.DSP_AUXD_DATA.e2 o (i / 4) with lo := 8 * (i % 4), w := 8 }) (leAt data i 1)) s
        else s
      ((s.flag (Reg.DSP_AUXST_BUSY.e o) false).put (Reg.DSP_AUXST_RESULT.e o) result).setOutput o { s.output o with aux := 0 }
    else s

/-! ### Touch and markers (R538 to R541) -/

/-- TOUCH_READ_START (R538): at a low level of TINT, no sooner than 250 µs after the last STOP, or at the poll period. -/
def execTouchReadStart (tint : Bool) (s : State) : Res :=
  let soon := match s.dsp.stop with
    | some t => serialBefore 96 s.now (tagAdd t (us48 250))
    | none => false
  .next <| bif s.runs && s.on Reg.DSP_TCFG_EN.z && !s.dsp.reading
      && (bif tint then s.on Reg.DSP_TCFG_TINTEN.z && !soon else s.get Reg.DSP_TCFG_POLL.z != 0) then
      let s := s.emit (.touchRead (s.get Reg.DSP_TCFG_SPEED.z) (s.get Reg.DSP_TCFG_ADDR7.z) (s.get Reg.DSP_TREP_REG.z)
        (s.get Reg.DSP_TREP_LEN.z + 1))
      { s with dsp := { s.dsp with reading := true } }
    else s

/-- A raw coordinate of a report (R539). -/
def State.rawCoord (s : State) (r : List Byte) (off : Nat) : Nat :=
  let b := (r.drop off).take 2
  let v := bif s.on Reg.DSP_TFLD_BE.z then beNat b else leNat b
  bif s.on Reg.DSP_TFLD_X16.z then v else v % 4096

/-- A calibration coefficient. -/
def State.tcal (s : State) (i : Nat) : Int := s.getI (Reg.DSP_TCAL_COEF.e i)

/-- The centre frequency of cell `c` of view `v` on input `n`, in units of 2⁻¹⁰ Hz (R540): F_s is twice the complex rate of a C16
input (05 R168, 06 R186). -/
def State.cellFreq (s : State) (v n c : Nat) : Int :=
  let c16 := s.isC16 n
  let fs : Int := (s.get (Reg.ING_RATE_RATE.e n) * 1000 * (if c16 then 2 else 1) : Nat)
  let na : Nat := 2 ^ (8 + (s.liveView .coarse).get (Reg.CCH_ICFG_NLOG.e n))
  let k0 := s.get (Reg.DVW_RECT0_K0.e v)
  let plane := s.get (Reg.DVW_CTRL_PLANE.e v)
  if plane = 0 then
    let k : Int := (k0 + c : Nat)
    rndDiv ((if c16 then k - 32 else k) * fs * 1024) 128
  else if plane = 1 then
    let k : Int := (k0 + c : Nat)
    rndDiv ((if c16 then k - (na / 4 : Nat) else k) * fs * 1024) na
  else if plane = 2 then
    let nb := fineNB (s.liveView .fine) n
    let jc := max 1 (s.get (Reg.DVW_RECT1_JCNT.e v))
    let k : Int := (k0 + c / jc : Nat)
    let kk : Int := if c16 then k - (na / 4 : Nat) else k
    let j : Int := (s.get (Reg.DVW_RECT1_J0.e v) + c % jc : Nat) - (nb / 2 : Nat)
    rndDiv ((kk * nb + j) * fs * 1024) (na * nb : Nat)
  else 0

/-- The layer hit at (`x`, `y`): the highest-numbered (R540). -/
def State.layerHit (s : State) (o : Nat) (x y : Int) : Option Nat :=
  (upto 16).reverse.find? (fun l => s.on (Reg.DSP_LCFG_EN.e2 o l) && s.on (Reg.DSP_LCFG_TOUCH.e2 o l) && (s.layerView o l).isSome
    && (s.inLayer o l x y).isSome)

/-- The crosshair from the next promotion point on (R541): at a readout that hits a layer, on the touched output; gone after the UP
readout. A MOVE off every layer leaves it where it was (DEDUCED, log 71). -/
def State.crosshair (s : State) (o : Nat) (hit : Option Nat) (x y : Int) (phase : Nat) : State :=
  let other := s.setOutput (1 - o) { s.output (1 - o) with glyphNext := none }
  bif phase == 3 || !s.on Reg.DSP_TCFG_GLYPH.z then other.setOutput o { other.output o with glyphNext := none }
  else match hit with
    | some l => other.setOutput o { other.output o with glyphNext := some ⟨l, x, y⟩ }
    | none => other

/-- The marker readout of a report (R540). -/
def State.readout (s : State) (x y : Int) (phase : Nat) : State :=
  let o := s.get Reg.DSP_TCFG_OUT.z
  let hit := s.layerHit o x y
  let s := (s.flag Reg.DSP_MKR0_VALID.z true).flag Reg.DSP_MKR0_HIT.z hit.isSome
  let s := (s.put Reg.DSP_MKR0_PHASE.z phase).wrap Reg.DSP_MKR0_MSEQ.z 1
  let s := (s.putI Reg.DSP_MKR1_X.z x).putI Reg.DSP_MKR1_Y.z y
  let s := match hit, hit.bind (fun l => s.inLayer o l x y), hit.bind (s.layerView o) with
    | some l, some p, some v =>
      let rows := s.get (Reg.DVW_MAP0_ROWS.e v)
      let cols := s.get (Reg.DVW_MAP0_COLS.e v)
      let mx := p.1 * cols / s.get (Reg.DSP_LSIZE_W.e2 o l)
      let row := p.2 * rows / s.get (Reg.DSP_LSIZE_H.e2 o l)
      let w := s.viewW v
      let lo := mx * w / max 1 cols
      let hi := (mx + 1) * w / max 1 cols - 1
      let idx := match ((s.output o).layer l).front with
        | some r => r.index (s.layerGain o l) (s.layerGsh o l) row mx
        | none => 0
      let level : Int := 2 * s.getI (Reg.DVW_MAP1_TOP.e v) - ((2 * row + 1) * s.get (Reg.DVW_MAP1_STEP.e v) : Nat)
      let f := toU 64 (s.cellFreq v (s.get (Reg.DSP_LCFG_INPUT.e2 o l)) ((lo + hi) / 2))
      let s := (s.put Reg.DSP_MKR0_LAYER.z l).put Reg.DSP_MKR0_INDEX.z idx
      let s := (s.put Reg.DSP_MKR2_ROW.z row).put Reg.DSP_MKR2_MCOL.z mx
      let s := (s.put Reg.DSP_MKR3_CHI.z hi).put Reg.DSP_MKR3_CLO.z lo
      (s.putI Reg.DSP_MKR4_LEVEL.z level).put64 Reg.DSP_MKR5_FREQ.z Reg.DSP_MKR6_FREQ.z f
    | _, _, _ =>
      let s := (s.put Reg.DSP_MKR0_LAYER.z 0).put Reg.DSP_MKR0_INDEX.z 0
      [Reg.DSP_MKR2_ROW.z, Reg.DSP_MKR2_MCOL.z, Reg.DSP_MKR3_CHI.z, Reg.DSP_MKR3_CLO.z, Reg.DSP_MKR4_LEVEL.z, Reg.DSP_MKR5_FREQ.z,
        Reg.DSP_MKR6_FREQ.z].foldl (fun s l => s.put l 0) s
  (s.crosshair o hit x y phase).ev 501

/-- TOUCH_REPORT (R538 to R540): a read ends with its report (`result` 0), with an address NAK (1), or with stretching beyond
10 ms or lost arbitration (2). -/
def execTouchReport (result : Nat) (report : List Byte) (s : State) : Res :=
  .next <| bif !s.dsp.reading then s
    else
      let s := { s with dsp := { s.dsp with reading := false, stop := some s.now } }
      bif result == 1 then (s.count Reg.DSP_TSTAT_NAK.z 1).ev 502
      else bif result != 0 then (s.count Reg.DSP_TSTAT_BUSERR.z 1).ev 502
      else
        let tx : Int := s.rawCoord report (s.get Reg.DSP_TFLD_XOFF.z)
        let ty : Int := s.rawCoord report (s.get Reg.DSP_TFLD_YOFF.z)
        let down := bit (leAt report (s.get Reg.DSP_TFLD_COFF.z) 1) (s.get Reg.DSP_TFLD_CBIT.z) != s.on Reg.DSP_TFLD_CPOL.z
        let was := s.dsp.contact
        let x := if down then (s.tcal 0 * tx + s.tcal 1 * ty + s.tcal 2) / 65536 else s.dsp.x
        let y := if down then (s.tcal 3 * tx + s.tcal 4 * ty + s.tcal 5) / 65536 else s.dsp.y
        let s := { s with dsp := { s.dsp with contact := down, x := x, y := y } }
        let s := s.flag Reg.DSP_TSTAT_CONTACT.z down
        bif down && !was then s.readout x y 1 else bif down then s.readout x y 2 else bif was then s.readout x y 3 else s

/-- MKR_READ (R541): a read of DSP_MKR0 latches the rest of the readout into the requester's shadow. -/
def execMkrRead (r : Requester) (s : State) : Res :=
  let p := s.plainRead (shadowKey r .display) .display Reg.DSP_MKR0_VALID.off
  .next (p.1.emit (.readData r p.2))

/-! ### Power modes (R537) -/

/-- Entry to Watch: an ACTIVE output becomes BLANK. -/
def State.dspWatch (s : State) : State :=
  (upto 2).foldl (fun s o => bif s.get (outState o) == 3 then s.outTo o 5 else s) s

/-- Entry to Sleep: every output is OFF and the canvas is lost. -/
def State.dspSleep (s : State) : State :=
  let s := (upto 2).foldl (fun s o =>
    let s := s.setOutput o { Output.reset with buffer := (s.output o).buffer, flipAt := (s.output o).flipAt, left := (s.output o).left, aux := (s.output o).aux }
    ((upto 16).foldl (fun s l => s.layerSync o l) s).outTo o 0) s
  { s with dsp := { s.dsp with reading := false } }

/-- Entry to Full: an output with EN = 1 that is OFF starts from UNPLUGGED. -/
def State.dspWake (s : State) : State :=
  (upto 2).foldl (fun s o => bif s.on (Reg.DSP_OCFG_EN.e o) && s.get (outState o) == 0 then s.outTo o 1 else s) s

end Sys2Proof.Machine
end

