-- ==== Sys2Proof/Machine/Dma.lean ====
section
/-!
DEFINITION. Gallery DMA (14_gallery_dma.md), and the address checks it shares with tiles (12 R365, R366).
-/
namespace Sys2Proof.Machine

/-! ### Tiles as a target (12 R365, R366, R396) -/

def State.tile (s : State) (t : Nat) : Tile := tget (fun _ => Tile.reset) s.tls.tile t
def State.setTile (s : State) (t : Nat) (x : Tile) : State :=
  { s with tls := { s.tls with tile := tset (fun _ => Tile.reset) s.tls.tile t x } }

def tileState (t : Nat) : Loc := Reg.TILE_STAT_STATE.t t
/-- A fenced tile (01 R24). -/
def State.fenced (s : State) (t : Nat) : Bool := s.get (tileState t) == 0
/-- Claimed by the cross-spectral engine (11 R334). -/
def State.claimed (s : State) (t : Nat) : Bool := s.on (Reg.XSP_TLOAD_CLAIMED.e t)

/-- Bytes `o` to `o` + `n` − 1 of tile `t`'s memory may be accessed by cores and DMA. -/
def State.tileOk (s : State) (t o n : Nat) : Bool :=
  lt t 64 && le (o + n) 0x200000 && !s.fenced t && (!s.claimed t || le (o + n) 0x40000)

/-- Bytes of gallery `g` granted to tiles and DMA (19 R577). -/
def State.galGrant (s : State) (g : Nat) : Nat := s.adm.tsram.getD g 0
def State.galOk (s : State) (g o n : Nat) : Bool := lt g 8 && le (o + n) (s.galGrant g)

/-- Bytes of HBM granted to tiles and DMA: the tile pool, which lies at address 0 (15 R462). -/
def State.hbmOk (s : State) (o n : Nat) : Bool := le (o + n) (min (s.regSize 0) s.hbmSize)

/-! ### DMA addresses (R431, R432) -/

/-- The space of a DMA address, its unit in the space, and the offset in the unit; none where a reserved bit is set. -/
def dmaUnit (a : Nat) : Option (Nat × Nat × Nat) :=
  let sp := a / 2 ^ 44
  let o := a % 2 ^ 44
  if 2 ^ 48 ≤ a then none
  else if sp = 0 then (if o < 2 ^ 40 then some (0, 0, o) else none)
  else if sp = 1 then (if o < 2 ^ 28 then some (1, o / 2 ^ 25, o % 2 ^ 25) else none)
  else if sp = 2 then (if o < 2 ^ 27 then some (2, o / 2 ^ 21, o % 2 ^ 21) else none)
  else none

/-- `n` bytes at offset `o` of a unit may be accessed (R432). -/
def State.dmaOk (s : State) (sp u o n : Nat) : Bool :=
  if sp = 0 then s.hbmOk o n else if sp = 1 then s.galOk u o n else s.tileOk u o n

/-- `n` bytes at DMA address `a` may be accessed. -/
def State.dmaMay (s : State) (a n : Nat) : Bool :=
  match dmaUnit a with
  | some (sp, u, o) => s.dmaOk sp u o n
  | none => false

/-! ### Descriptors (R433 to R437) -/

structure Desc where
  link : Nat
  src : Nat
  dst : Nat
  ss : List Int
  ds : List Int
  n : List Nat
  wlog : Nat
  flags : Nat
  tag : Nat
  pad : Nat
deriving DecidableEq, Repr

def descOf (b : List Byte) : Desc :=
  { link := leAt b 0 8, src := leAt b 8 8, dst := leAt b 16 8
    ss := [0, 1, 2].map (fun k => sext 32 (leAt b (24 + 4 * k) 4))
    ds := [0, 1, 2].map (fun k => sext 32 (leAt b (36 + 4 * k) 4))
    n := [0, 1, 2].map (fun k => leAt b (48 + 2 * k) 2 + 1)
    wlog := leAt b 54 1, flags := leAt b 55 1, tag := leAt b 56 4, pad := leAt b 60 4 }

def Desc.width (d : Desc) : Nat := 2 ^ d.wlog
def Desc.fill (d : Desc) : Bool := bit d.flags 5
/-- Number of elements. -/
def Desc.count (d : Desc) : Nat := d.n.foldl (· * ·) 1
/-- i0, i1, i2 of element `e` in logical order (R434). -/
def Desc.index (d : Desc) (e : Nat) : List Nat :=
  let n0 := d.n.getD 0 1
  let n1 := d.n.getD 1 1
  [e % n0, e / n0 % n1, e / n0 / n1]
def strideSum (i : List Nat) (st : List Int) : Int := (i.zip st).foldl (fun a c => a + c.1 * c.2) 0

/-- Lowest and highest byte touched from base `b` (R435). -/
def extent (b : Nat) (n : List Nat) (st : List Int) (w : Nat) : Int × Int :=
  let zs := n.zip st
  ((b : Int) + zs.foldl (fun a c => a + min 0 (((c.1 : Int) - 1) * c.2)) 0,
   (b : Int) + zs.foldl (fun a c => a + max 0 (((c.1 : Int) - 1) * c.2)) 0 + w - 1)

/-- An extent lies inside the unit of its base and may be accessed there. -/
def State.extentOk (s : State) (b : Nat) (e : Int × Int) : Bool :=
  match dmaUnit b with
  | none => false
  | some (sp, u, o) =>
    let lo : Int := (o : Int) + (e.1 - b)
    leI 0 lo && s.dmaOk sp u lo.toNat (e.2 - e.1 + 1).toNat

/-- The status of a descriptor at address `a` (R435): 0 where every check passes. -/
def State.descStatus (s : State) (a : Nat) (d : Desc) : Nat :=
  let w := d.width
  let spaceOk (x : Nat) : Bool := (dmaUnit x).isSome
  let strides (st : List Int) : Bool := (d.n.zip st).all (fun c => c.1 == 1 || c.2 % (w : Int) == 0)
  let es := extent d.src d.n d.ss w
  let ed := extent d.dst d.n d.ds w
  bif bits d.link 48 15 != 0 || d.flags / 64 != 0 || d.pad != 0 || lt 6 d.wlog || le (2 ^ 32) (w * d.count)
      || !spaceOk d.dst || (!d.fill && !spaceOk d.src) then 3
  else bif !s.extentOk d.dst ed || (!d.fill && !s.extentOk d.src es) then 4
  else bif a % 64 != 0 || d.dst % w != 0 || !strides d.ds || (!d.fill && (d.src % w != 0 || !strides d.ss)) then 5
  else bif !bit d.flags 4 && !d.fill && leI es.1 ed.2 && leI ed.1 es.2 then 6
  else 0

/-- The destination of element `e`. -/
def Desc.dstOf (d : Desc) (e : Nat) : Nat := ((d.dst : Int) + strideSum (d.index e) d.ds).toNat

/-- Element `e` copied whole (R434, R437), with the bytes of poisoned words it replaced by zeros (R447). -/
def State.dmaElem (s : State) (d : Desc) (e : Nat) : State × Nat :=
  let w := d.width
  let i := d.index e
  let dst := d.dstOf e
  bif d.fill then (s.pokeAll dst ((upto w).map (fun k => BitVec.ofNat 8 (d.src / 256 ^ (k % 8)))), 0)
  else
    let fr := ((d.src : Int) + strideSum i d.ss).toNat
    (s.pokeAll dst (s.peekAll fr w), ((upto w).filter (fun k => s.poisoned (fr + k))).length)

/-- `k` elements from element `i` on, in logical order. -/
def State.dmaMove (s : State) (d : Desc) (i k : Nat) : State × Nat :=
  (upto k).foldl (fun c e => let r := c.1.dmaElem d (i + e)
                             (r.1, c.2 + r.2)) (s, 0)

/-- The elements from element `i` on that one request writes (R438): those that follow each other within 64 bytes where |d0| = W,
else the element alone. -/
def Desc.slotLen (d : Desc) (i : Nat) : Nat :=
  let n0 := d.n.getD 0 1
  if (d.ds.getD 0 0).natAbs = d.width then
    ((upto 64).takeWhile (fun j => (i + j) / n0 == i / n0 && d.dstOf (i + j) / 64 == d.dstOf i / 64)).length
  else 1

/-! ### Channels (R440 to R454) -/

def chNo (g c : Nat) : Nat := 16 * g + c
def State.chan (s : State) (g c : Nat) : Channel := tget (fun _ => Channel.reset) s.dma.ch (chNo g c)
def State.setChan (s : State) (g c : Nat) (x : Channel) : State :=
  { s with dma := { s.dma with ch := tset (fun _ => Channel.reset) s.dma.ch (chNo g c) x } }
def chState (g c : Nat) : Loc := Reg.DMA_CHSTAT_STATE.e2 g c

/-- DMA_STAT.ATTN follows the W1C bits of the channels (R454). -/
def State.dmaAttn (s : State) (g : Nat) : State :=
  s.put (Reg.DMA_STAT_ATTN.e g) (sumOf ((upto 16).map (fun c =>
    b2n (bits (s.word (chState g c).off).toNat 0 5 != 0) * 2 ^ c)))

/-- A W1C bit of DMA_CHSTAT is set: its event on a change from 0 to 1 (R454). -/
def State.chBit (s : State) (g c : Nat) (f : Fld) : State :=
  bif s.on (f.e2 g c) then s
  else ((s.flag (f.e2 g c) true).dmaAttn g).ev ((bif f == Reg.DMA_CHSTAT_DONE then 440 else 441) + 2 * g)

def State.cqFull (s : State) (g c : Nat) : Bool :=
  (s.get (Reg.DMA_CHCQ_WIDX.e2 g c) + 2 ^ 16 - s.get (Reg.DMA_CHCQ_RIDX.e2 g c)) % 2 ^ 16
    == 2 ^ s.get (Reg.DMA_CHCQCFG_CQLOG.e2 g c)

def State.chCur (s : State) (g c : Nat) : Nat :=
  s.get64 (Reg.DMA_CHCUR_L_ADDR.e2 g c) (Reg.DMA_CHCUR_H_ADDR.e2 g c)

/-- START: the channel fetches the descriptor at DMA_CHHEAD (R441). -/
def State.dmaBegin (s : State) (g c a : Nat) : State :=
  ((s.setChan g c { s.chan g c with desc := none, moved := 0, lost := 0, link := none }).put64 (Reg.DMA_CHCUR_L_ADDR.e2 g c) (Reg.DMA_CHCUR_H_ADDR.e2 g c) a).put
    (chState g c) 1
def State.dmaStart (s : State) (g c : Nat) : State :=
  s.dmaBegin g c (s.get64 (Reg.DMA_CHHEAD_L_ADDR.e2 g c) (Reg.DMA_CHHEAD_H_ADDR.e2 g c))

/-- The channel reaches IDLE; a held command runs (R441): of those only START acts there. -/
def State.dmaRest (s : State) (g c : Nat) : State :=
  let h := (s.chan g c).held
  let s := ((s.setChan g c Channel.reset).put (chState g c) 0).flag (Reg.DMA_CHSTAT_CMDHELD.e2 g c) false
  bif h == some 1 then s.dmaStart g c else s
/-- The channel reaches IDLE after a STOP or ABORT (R441). -/
def State.dmaIdle (s : State) (g c : Nat) : State := (s.chBit g c Reg.DMA_CHSTAT_STOPPED).dmaRest g c

/-- What follows a descriptor and its record (R441, R443): ERROR, the end of a STOP or ABORT, the next descriptor, or
WAITING. -/
def State.dmaAfter (s : State) (g c status : Nat) : State :=
  let x := s.chan g c
  bif le 3 status then
    ((s.setChan g c { Channel.reset with held := x.held }).put (chState g c) 4).chBit g c Reg.DMA_CHSTAT_ERR
  else bif x.stopping.isSome then s.dmaIdle g c
  else
    let link := x.link.getD (leNat (s.peekAll (s.chCur g c) 8))
    bif bit link 63 then s.put (chState g c) 2 else s.dmaBegin g c (link % 2 ^ 48)

/-- The record is written at entry WIDX and WIDX advances (R449). -/
def State.cqWrite (s : State) (g c : Nat) (r : DmaRec) (tag : Nat) : State :=
  let w := s.get (Reg.DMA_CHCQ_WIDX.e2 g c)
  let lg := s.get (Reg.DMA_CHCQCFG_CQLOG.e2 g c)
  let base := s.get64 (Reg.DMA_CHCQBASE_L_ADDR.e2 g c) (Reg.DMA_CHCQBASE_H_ADDR.e2 g c)
  let phase := 1 - w / 2 ^ lg % 2
  let body := u64 (s.chCur g c) ++ u32 tag ++ u8 r.status ++ u8 (phase + r.flags) ++ u8 c ++ u8 g ++ u32 r.len ++ u96 s.now
  let a := base + 32 * (w % 2 ^ lg)
  let s := bif s.dmaMay a 32 then s.pokeAll a body else s
  s.wrap (Reg.DMA_CHCQ_WIDX.e2 g c) 1

/-- A descriptor is done with status `status` after `n` bytes: its record, where it has one, then what follows; a full queue
makes the channel wait (R446 to R451). -/
def State.dmaFinish (s : State) (g c status n : Nat) (d : Desc) : State :=
  let record := s.on (Reg.DMA_CHCQCFG_EN.e2 g c) && (bit d.flags 0 || status != 0)
  let r : DmaRec := ⟨status, 2 * b2n (bit d.flags 2) + 4 * b2n (bit d.flags 4), n⟩
  bif record && s.cqFull g c then
    let s := s.setChan g c { s.chan g c with waiting := some r }
    (s.flag (Reg.DMA_CHSTAT_CQWAIT.e2 g c) true).chBit g c Reg.DMA_CHSTAT_CQFULL
  else
    let s := bif record then s.cqWrite g c r d.tag else s
    let done := status == 0 || status == 2
    let s := bif done then s.wrap (Reg.DMA_CHDONE_COUNT.e2 g c) 1 else s
    let s := bif status == 2 then s.chBit g c Reg.DMA_CHSTAT_MEMERR else s
    let s := bif done && bit d.flags 1 then s.chBit g c Reg.DMA_CHSTAT_DONE else s
    s.dmaAfter g c status

/-- A command held while the channel is STOPPING (R441). -/
def State.dmaHold (s : State) (g c op : Nat) : State :=
  (s.setChan g c { s.chan g c with held := some op }).flag (Reg.DMA_CHSTAT_CMDHELD.e2 g c) true

/-- DMA_START (R441). -/
def execDmaStart (g c : Nat) (s : State) : Res :=
  let st := s.get (chState g c)
  .next <| bif st == 0 then s.dmaStart g c else bif st == 3 then s.dmaHold g c 1 else s

/-- The link word of a waiting channel is read again (R443). -/
def State.endMark (s : State) (g c : Nat) : State :=
  let link := leNat (s.peekAll (s.chCur g c) 8)
  bif bit link 63 then s else s.dmaBegin g c (link % 2 ^ 48)

/-- DMA_DOORBELL (R441). -/
def execDmaDoorbell (g c : Nat) (s : State) : Res :=
  let st := s.get (chState g c)
  .next <| bif st == 2 then s.endMark g c else bif st == 3 then s.dmaHold g c 2 else s

/-- STOP or ABORT. -/
def State.dmaHalt (s : State) (g c : Nat) (abort : Bool) : State :=
  let st := s.get (chState g c)
  bif st == 1 then (s.setChan g c { s.chan g c with stopping := some abort }).put (chState g c) 3
  else bif st == 2 then s.dmaIdle g c
  else bif st == 3 then s.dmaHold g c (bif abort then 4 else 3)
  else s

/-- DMA_STOP (R441). -/
def execDmaStop (g c : Nat) (s : State) : Res := .next (s.dmaHalt g c false)
/-- DMA_ABORT (R441, R446). -/
def execDmaAbort (g c : Nat) (s : State) : Res := .next (s.dmaHalt g c true)

/-- DMA_CLEAR (R441). -/
def execDmaClear (g c : Nat) (s : State) : Res :=
  let st := s.get (chState g c)
  .next <| bif st == 4 then s.dmaRest g c else bif st == 3 then s.dmaHold g c 5 else s

/-- The descriptor at DMA_CHCUR is fetched and checked before any element moves (R435, R447). -/
def execDescriptorFetch (g c : Nat) (s : State) : Res :=
  let st := s.get (chState g c)
  let x := s.chan g c
  .next <| bif (st == 1 || st == 3) && x.desc.isNone && x.waiting.isNone then
      let a := s.chCur g c
      let may := s.dmaMay a 64
      let b := bif may then s.peekAll a 64 else zeros 64
      let d := descOf b
      let status := bif may then s.descStatus a d else 4
      let s := s.setChan g c { x with desc := some b, moved := 0, lost := 0, link := none }
      bif status == 0 then s
      else
        let s := (s.put64 (Reg.DMA_CHERR_L_ADDR.e2 g c) (Reg.DMA_CHERR_H_ADDR.e2 g c) a).put
          (Reg.DMA_CHSTAT_ERRCODE.e2 g c) status
        s.dmaFinish g c status 0 d
    else s

/-- The descriptor's transfer ends (R434, R446, R449): all its elements, or under an ABORT its first `k` and no fewer than it has
moved; then the end-mark read (R443). -/
def execDescriptorComplete (g c k : Nat) (s : State) : Res :=
  let st := s.get (chState g c)
  let x := s.chan g c
  .next <| match x.desc with
    | none => s
    | some b =>
      bif (st == 1 || st == 3) && x.waiting.isNone then
        let d := descOf b
        let abort := x.stopping == some true
        let n := bif abort then max x.moved (min k d.count) else d.count
        let r := s.dmaMove d x.moved (n - x.moved)
        let lost := x.lost + r.2
        let s := r.1.count (Reg.DMA_CHMEMERR_COUNT.e2 g c) lost
        let s := s.setChan g c { s.chan g c with moved := n, link := some (leNat (s.peekAll (s.chCur g c) 8)) }
        s.dmaFinish g c (bif abort && lt n d.count then 1 else bif lt 0 lost then 2 else 0) (d.width * n) d
      else s

/-- A waiting channel's periodic end-mark read (R443). -/
def execEndMarkPoll (g c : Nat) (s : State) : Res :=
  .next <| bif s.get (chState g c) == 2 && s.get (Reg.DMA_CHCFG_POLL.e2 g c) != 0 then s.endMark g c else s

/-- A write of a queue's RIDX within range frees space: a record that waits is written (R450). -/
def execDmaCqRidxWrite (g c : Nat) (v : Word) (s : State) : Res :=
  let r := v.toNat / 2 ^ 16
  let w := s.get (Reg.DMA_CHCQ_WIDX.e2 g c)
  .next <| bif lt (2 ^ s.get (Reg.DMA_CHCQCFG_CQLOG.e2 g c)) ((w + 2 ^ 16 - r) % 2 ^ 16) then s.bad (.gallery (Fin.ofNat 8 g))
    else
      let s := s.put (Reg.DMA_CHCQ_RIDX.e2 g c) r
      let x := s.chan g c
      match x.waiting, x.desc with
      | some rec, some b =>
        bif s.cqFull g c then s
        else
          let s := (s.setChan g c { x with waiting := none }).flag (Reg.DMA_CHSTAT_CQWAIT.e2 g c) false
          s.dmaFinish g c rec.status rec.len (descOf b)
      | _, _ => s

/-- DMA_GSDATA_ACCESS: the port to gallery SRAM (R445, R453); `port` 0 GSDATA, 1 GSDATA_L, 2 GSDATA_H. -/
def execDmaGsdataAccess (r : Requester) (g port : Nat) (write : Bool) (v : Word) (s : State) : Res :=
  let b := Blk.gallery (Fin.ofNat 8 g)
  let w := s.get (Reg.DMA_GSPTR_WADDR.e g)
  let n := if port = 2 then 8 else 4
  let ok := s.galOk g (4 * w) n && (port != 2 || w % 2 == 0)
  .next <| bif port == 1 then
      bif write then { s with ctl := { s.ctl with writeShadow := tset (fun _ => 0) s.ctl.writeShadow (shadowKey r b) v.toNat } }
      else s.emit (.readData r 0)
    else bif port == 2 && !write then s.emit (.readData r 0)
    else bif !ok then (bif write then s else s.emit (.readData r 0)).bad b
    else bif port == 2 then
      let lo := tget (fun _ => 0) s.ctl.writeShadow (shadowKey r b)
      (s.pokeAll (galAddr g (4 * w)) (u32 lo ++ u32 v.toNat)).put (Reg.DMA_GSPTR_WADDR.e g) (w + 2)
    else bif write then (s.pokeAll (galAddr g (4 * w)) (u32 v.toNat)).put (Reg.DMA_GSPTR_WADDR.e g) (w + 1)
    else (s.emit (.readData r (BitVec.ofNat 32 (leNat (s.peekAll (galAddr g (4 * w)) 4))))).put (Reg.DMA_GSPTR_WADDR.e g) (w + 1)

/-- A core reset of tile `t` aborts the channels it owns (R446), one that is stopping or paused too. -/
def State.dmaOwnerReset (s : State) (t : Nat) : State :=
  (upto 128).foldl (fun s i =>
    let g := i / 16
    let c := i % 16
    bif s.get (Reg.DMA_CHCFG_OWNER.e2 g c) == t && s.on (Reg.DMA_CHCFG_RSTABT.e2 g c) then
      bif s.get (chState g c) == 3 || s.get (chState g c) == 5 then
        (s.setChan g c { s.chan g c with stopping := some true, paused := false }).put (chState g c) 3
      else s.dmaHalt g c true
    else s) s

/-! ### Slots of an engine (R438, R439) -/

/-- The channel has an element to move: its descriptor passed the checks, and no ABORT stops it. -/
def State.chWork (s : State) (g c : Nat) : Bool :=
  let x := s.chan g c
  (s.get (chState g c) == 1 || s.get (chState g c) == 3) && x.stopping != some true && x.waiting.isNone
    && match x.desc with
       | some b => lt x.moved (descOf b).count
       | none => false

/-- The channel that gets the next slot: the one served last for up to CHW slots, then the next one with work in ascending number
(R439). -/
def State.chTurn (s : State) (g : Nat) : Option (Nat × Nat) :=
  let t := tget (fun _ => (15, 0)) s.dma.turn g
  bif s.chWork g t.1 && lt t.2 (s.get (Reg.DMA_CHCFG_CHW.e2 g t.1)) then some (t.1, t.2 + 1)
  else ((upto 16).map (fun k => (t.1 + 1 + k) % 16)).find? (fun c => s.chWork g c) |>.map (fun c => (c, 1))

/-- A slot of channel `c`: `k` elements move. -/
def State.dmaSlot (s : State) (g c k : Nat) : State :=
  let x := s.chan g c
  match x.desc with
  | some b =>
    let r := s.dmaMove (descOf b) x.moved k
    r.1.setChan g c { r.1.chan g c with moved := x.moved + k, lost := x.lost + r.2 }
  | none => s

/-- At entry to Watch every RUNNING channel pauses; it resumes at the return to Full (R448). -/
def State.dmaPause (s : State) : State :=
  (upto 128).foldl (fun s i =>
    let g := i / 16
    let c := i % 16
    bif s.get (chState g c) == 1 then (s.setChan g c { s.chan g c with paused := true }).put (chState g c) 5 else s) s
def State.dmaResume (s : State) : State :=
  (upto 128).foldl (fun s i =>
    let g := i / 16
    let c := i % 16
    bif s.get (chState g c) == 5 then (s.setChan g c { s.chan g c with paused := false }).put (chState g c) 1 else s) s

/-- At entry to Sleep every channel returns to IDLE and every DMA register to its reset value (R448). -/
def State.dmaSleep (s : State) : State :=
  { s with dma := Dma.reset, regs := s.regs.filter (fun e =>
    !(le 0x3000000 e.1 && lt e.1 0x3800000 && le 0xC0000 (e.1 % 0x100000) && lt (e.1 % 0x100000) 0xD0000)) }

end Sys2Proof.Machine
end

