-- ==== Sys2Proof/Machine/TileOps.lean ====
section
/-!
DEFINITION. What the tiles share (12_tile_programming_model.md): pending interrupts, faults, locks, timers, edge detectors,
program banks and their exchange, halting and resetting, and a tile's own registers.
-/
namespace Sys2Proof.Machine

/-! ### Places -/

/-- The register set in use (R378). -/
def Tile.cur (x : Tile) : RegSet := if x.lvl then x.shadow else x.main
def Tile.setCur (x : Tile) (r : RegSet) : Tile := if x.lvl then { x with shadow := r } else { x with main := r }

/-- `s` with tile `t` holding `x`; TILE_STAT and TILE_PC show it (R406). -/
def State.tilePut (s : State) (t : Nat) (x : Tile) : State :=
  (((s.setTile t x).flag (Reg.TILE_STAT_LVL.t t) x.lvl).flag (Reg.TILE_STAT_PRGV.t t) (bit x.main.prg 31)).put
    (Reg.TILE_PC_PC.t t) x.main.pc

/-- The live program bank. -/
def State.liveBank (s : State) (t : Nat) : Nat := s.get (Reg.TILE_STAT_BANK.t t)
/-- The PC that names syllable address `a` of the live bank. -/
def State.pcAt (s : State) (t a : Nat) : Nat := s.liveBank t * 2 ^ 14 + a % 2 ^ 14

def Tile.bank (x : Tile) (b : Nat) : Tbl Word := if b = 0 then x.bank0 else x.bank1
/-- The syllable at address `a` of bank `b`. -/
def Tile.syllable (x : Tile) (b a : Nat) : Word := tget (fun _ => 0) (x.bank b) a
def Tile.setSyllable (x : Tile) (b a : Nat) (v : Word) : Tile :=
  if b = 0 then { x with bank0 := tset (fun _ => 0) x.bank0 a v } else { x with bank1 := tset (fun _ => 0) x.bank1 a v }

/-- A bit of TILE_EVST is set; a change from 0 to 1 raises the tile's event (R407). -/
def State.evst (s : State) (t : Nat) (f : Fld) : State :=
  bif s.on (f.t t) then s else (s.flag (f.t t) true).ev (376 + t)

/-- The tile's state; entering HALTED or FAULTHALT is reported (R406). -/
def State.tileTo (s : State) (t st : Nat) : State :=
  let was := s.get (tileState t)
  let s := s.put (tileState t) st
  bif (st == 1 || st == 4) && was != st then s.evst t Reg.TILE_EVST_HALTED else s

/-! ### Pending interrupts (R377) -/

/-- The tile interrupt lines. -/
def State.tileLines (s : State) (t : Nat) : Nat :=
  sumOf ((upto 4).map (fun l => b2n ((upto 512).any (fun n =>
    s.tileLine n && s.get (Reg.EVT_CFG_TILE.e n) == t && s.get (Reg.EVT_CFG_LINE.e n) == l)) * 2 ^ l))

/-- TIP. -/
def State.tip (s : State) (t : Nat) : Nat := s.get (Reg.TILE_TIP_LATCHED.t t) * 16 + s.tileLines t

/-- A latched source sets TIP bit `b`; a bit already 1 counts in TILE_SPOIL (R377). -/
def State.tipSet (s : State) (t b : Nat) : State :=
  let l := { Reg.TILE_TIP_LATCHED.t t with lo := b, w := 1 }
  bif s.on l then s.count (Reg.TILE_SPOIL_COUNT.t t) 1 else s.flag l true
def State.tipClear (s : State) (t b : Nat) : State := s.flag { Reg.TILE_TIP_LATCHED.t t with lo := b, w := 1 } false

/-- The lowest-numbered enabled pending bit. -/
def State.tipDue (s : State) (t : Nat) : Option Nat := (upto 32).find? (fun b => bit (s.tip t &&& s.get (Reg.TILE_TIE_EN.t t)) b)

/-! ### Interrupts and faults (R378, R379) -/

/-- The core enters its handler on the shadow set with `cause` in D0 (R378). -/
def State.tileEnter (s : State) (t cause : Nat) : State :=
  let x := s.tile t
  let sh := { x.shadow with pc := s.pcAt t (s.get (Reg.TILE_VEC_VEC.t t)),
                            d := tset (fun _ => 0) x.shadow.d 0 (BitVec.ofNat 32 cause) }
  s.tilePut t { x with lvl := true, shadow := sh, bundle := [], idle := false, wantInt := false }

/-- Fault `code` with data address `a` (R379): recorded; at level 0 taken, at level 1 the core stops. -/
def State.tileFault (s : State) (t code a : Nat) : State :=
  let x := s.tile t
  let s := s.setTile t { x with bundle := [] }
  let s := ((s.put (Reg.TILE_FAULT_CODE.t t) code).flag (Reg.TILE_FAULT_LVL.t t) x.lvl).put (Reg.TILE_FAULT_ADDR.t t) x.cur.pc
  let s := bif code == 2 || code == 3 || code == 7 then s.put (Reg.TILE_FADDR_DADDR.t t) a else s
  let s := s.evst t Reg.TILE_EVST_FAULT
  bif x.lvl then s.tileTo t 4 else s.tileEnter t (0x100 + code)

/-! ### Long instructions: abandoning one (R383, R384) -/

/-- The suspended or running long instruction is abandoned: PRG cleared, PRGDROP set; the bench accumulators are cleared
where `clear`. -/
def Tile.abandon (x : Tile) (clear : Bool) : Tile :=
  if bit x.main.prg 31 then
    { x with main := { x.main with prg := 0, drop := true }, long := none, busy := false,
             bench := if clear then [] else x.bench }
  else x

/-! ### Locks (R401 to R403) -/

def lockState (n : Nat) : Loc := Reg.LOCK_STAT_STATE.e n
def State.lockOwner (s : State) (n : Nat) : Nat := s.get (Reg.LOCK_STAT_OWNER.e n)

/-- TILE_STAT.LOCKS counts the locks a tile holds. -/
def State.lockSync (s : State) (o : Nat) : State :=
  bif lt o 64 then s.put (Reg.TILE_STAT_LOCKS.t o)
    ((upto 256).filter (fun n => s.get (lockState n) == 1 && s.lockOwner n == o)).length
  else s

/-- A lock's state, owner and epoch. -/
def State.lockSet (s : State) (n st o e : Nat) : State :=
  let was := s.lockOwner n
  let s := ((s.put (lockState n) st).put (Reg.LOCK_STAT_OWNER.e n) o).put (Reg.LOCK_STAT_EPOCH.e n) e
  (s.lockSync was).lockSync o

/-- The outcome of requester `o`'s operation is kept for its reads of LOCK_STAT. -/
def State.lockLast (s : State) (o n r : Nat) : State :=
  { s with tls := { s.tls with lockLast := tset (fun _ => 0) s.tls.lockLast (o * 256 + n) r } }

/-- The epoch a requester acquires with: a tile's REPOCH, 0 otherwise. -/
def State.epochOf (s : State) (o : Nat) : Nat := bif lt o 64 then s.get (Reg.TILE_STAT_REPOCH.t o) else 0

/-- Requester `o` is the lock's last grantee (R403). -/
def State.grantTo (s : State) (n o : Nat) : State :=
  { s with tls := { s.tls with grantee := tset (fun _ => 0) s.tls.grantee n (o + 1) } }

/-- Acquire lock `n` for requester `o`, with the outcome code (R401). -/
def State.lockAcquire (s : State) (o n : Nat) : State × Nat :=
  let st := s.get (lockState n)
  let r := bif st == 0 then 1 else bif st == 2 then 2 else bif s.lockOwner n == o then 3 else 0
  let s := bif r == 1 || r == 2 then (s.lockSet n 1 o (s.epochOf o)).grantTo n o else s
  (s.lockLast o n r, r)

/-- Release lock `n` for requester `o`, with the outcome code (R401). -/
def State.lockRelease (s : State) (o n : Nat) : State × Nat :=
  bif s.get (lockState n) == 1 && s.lockOwner n == o then ((s.lockSet n 0 0x7F 0).lockLast o n 1, 1)
  else (s.lockLast o n 4, 4)

/-- Every lock requester `o` holds becomes ABANDONED, keeping its owner (R402). -/
def State.lockAbandon (s : State) (o : Nat) : State :=
  let held := (upto 256).filter (fun n => s.get (lockState n) == 1 && s.lockOwner n == o)
  let s := held.foldl (fun s n => s.put (lockState n) 2) s
  let s := s.lockSync o
  bif lt o 64 && !held.isEmpty then s.evst o Reg.TILE_EVST_ABANDON else s

/-- Every lock is FREE (R402: power-on reset, RESET_N and entry to Sleep). -/
def State.lockFree (s : State) : State :=
  (upto 256).foldl (fun s n => bif s.get (lockState n) == 0 then s else s.lockSet n 0 0x7F 0) s

/-- The requester numbers of R401. -/
def lockRequester : Requester → Nat
  | .bar0 => 64
  | .control => 65
  | .debug => 66

/-- LOCK_ACQUIRE, for a requester that is no tile (R401). -/
def execLockAcquire (r : Requester) (n : Nat) (s : State) : Res := .next (s.lockAcquire (lockRequester r) (n % 256)).1
/-- LOCK_RELEASE (R401). -/
def execLockRelease (r : Requester) (n : Nat) (s : State) : Res := .next (s.lockRelease (lockRequester r) (n % 256)).1
/-- LOCK_BREAK, from BAR0 only (R401). -/
def execLockBreak (r : Requester) (n : Nat) (s : State) : Res :=
  .next <| bif r == .bar0 then s.lockSet (n % 256) 0 0x7F 0 else s

/-! ### Timers and edge detectors (R386 to R388) -/

def tmrMode (t k : Nat) : Loc := Reg.TILE_TMR_CFG_MODE.tk t k

/-- Timer `k` expires (R386): TIP[4 + k]; ONESHOT and AT_TIME stop, PERIODIC reloads. -/
def State.timerExpire (s : State) (t k : Nat) : State :=
  let m := s.get (tmrMode t k)
  let s := bif m == 2 then s.put (Reg.TILE_TMR_CNT_CNT.tk t k) (max 1 (s.get (Reg.TILE_TMR_LOAD_LOAD.tk t k)))
    else s.put (tmrMode t k) 0
  s.tipSet t (4 + k)

/-- Time-base bits [79:16] are at or after LOADH:LOAD (R386). -/
def State.timePassed (s : State) (t k : Nat) : Bool :=
  let now := bits s.now 16 64
  let at_ := s.get64 (Reg.TILE_TMR_LOAD_LOAD.tk t k) (Reg.TILE_TMR_LOADH_SEC.tk t k)
  le at_ now

/-- The timers run: the engine is in Full mode (R388). -/
def State.timersRun (s : State) : Bool := s.get Reg.PWR_STAT_MODE.z == 4

/-- Timer `k` restarts under the values it now holds (R386). -/
def State.timerRestart (s : State) (t k : Nat) : State :=
  let m := s.get (tmrMode t k)
  let x := s.tile t
  let s := s.setTile t { x with presc := tset (fun _ => 0) x.presc k 0 }
  let load := s.get (Reg.TILE_TMR_LOAD_LOAD.tk t k)
  bif m == 1 then s.put (Reg.TILE_TMR_CNT_CNT.tk t k) load
  else bif m == 2 then s.put (Reg.TILE_TMR_CNT_CNT.tk t k) (max 1 load)
  else bif m == 3 && s.timersRun && s.timePassed t k then s.timerExpire t k
  else s

/-- One CK_CORE cycle of timer `k` (R386, R388). -/
def State.timerTick (s : State) (t k : Nat) : State :=
  let m := s.get (tmrMode t k)
  bif m == 0 then s
  else bif m == 3 then (bif s.timePassed t k then s.timerExpire t k else s)
  else
    let x := s.tile t
    let p := tget (fun _ => 0) x.presc k + 1
    bif lt p (s.get (Reg.TILE_TMR_CFG_PRESC.tk t k) + 1) then s.setTile t { x with presc := tset (fun _ => 0) x.presc k p }
    else
      let s := s.setTile t { x with presc := tset (fun _ => 0) x.presc k 0 }
      let c := s.get (Reg.TILE_TMR_CNT_CNT.tk t k) - 1
      let s := s.put (Reg.TILE_TMR_CNT_CNT.tk t k) c
      bif c == 0 then s.timerExpire t k else s

/-- Timer `k` stops and its TIP bit clears. -/
def State.timerStop (s : State) (t k : Nat) : State := (s.put (tmrMode t k) 0).tipClear t (4 + k)
/-- Edge detector `j` stops and its TIP bit clears. -/
def State.edgeStop (s : State) (t j : Nat) : State := (s.flag (Reg.TILE_EDG_CFG_EN.tk t j) false).tipClear t (8 + j)

/-- TILE_TIMER_EXPIRY (R386). -/
def execTileTimerExpiry (t k : Nat) (s : State) : Res :=
  .next <| bif s.get (tmrMode t k) != 0 && s.timersRun && !s.fenced t then s.timerExpire t k else s

/-- TILE_TIMER_WRITE: a write of word `w` (0 CFG, 1 LOAD, 2 LOADH) of timer `k` restarts it (R386). -/
def execTileTimerWrite (t k w : Nat) (v : Word) (s : State) : Res :=
  let b := galleryAt (Reg.TILE_TMR_CFG_MODE.tk t k).off
  .next <| bif s.fenced t then s.bad b
    else (s.plainWrite b ((Reg.TILE_TMR_CFG_MODE.tk t k).off + 4 * (w % 3)) v.toNat 0xFFFFFFFF).timerRestart t k

/-- EDGE_DETECTOR_EDGE: detector `j` sees an edge of its source, with the tag that belongs to it; an edge of a timer takes the time
base's (R387). -/
def execEdgeDetectorEdge (t j : Nat) (rising : Bool) (tag : Nat) (s : State) : Res :=
  let e := s.get (Reg.TILE_EDG_CFG_EDGE.tk t j)
  .next <| bif s.on (Reg.TILE_EDG_CFG_EN.tk t j) && !s.fenced t && bit e (bif rising then 0 else 1) then
      let tag := bif s.get (Reg.TILE_EDG_CFG_CLASS.tk t j) == 3 then s.now else tag
      let s := s.wrap (Reg.TILE_EDG_CFG_COUNT.tk t j) 1
      let s := s.put96 (Reg.TILE_EDG_TAG_L_TAG.tk t j) (Reg.TILE_EDG_TAG_M_TAG.tk t j) (Reg.TILE_EDG_TAG_H_TAG.tk t j) tag
      s.tipSet t (8 + j)
    else s

/-! ### Exchange of program banks (R397 to R400) -/

def xState (t : Nat) : Loc := Reg.TILE_XSTAT_XSTATE.t t

/-- A tile of the commit under way has exchanged: once none is left, its gallery has the new generation (R400). -/
def State.tileExchanged (s : State) (t : Nat) : State :=
  bif bit s.adm.xtiles t && s.get Reg.ADM_STAT_STATE.z == 3 then
    let left := s.adm.xtiles - 2 ^ t
    let s := { s with adm := { s.adm with xtiles := left } }
    let g := Blk.gallery (Fin.ofNat 8 (t / 8))
    bif bits left (8 * (t / 8)) 8 == 0 && s.adm.named.contains g then s.swapDone g else s
  else s

/-- Steps 2 to 5 of an exchange (R398, R399): the banks swap and the main PC takes ENTRY; a forced one abandons a suspended
long instruction and leaves level 1. -/
def State.exchange (s : State) (t : Nat) (forced : Bool) : State :=
  let x := s.tile t
  let x := if forced then x.abandon true else x
  let nb := 1 - s.liveBank t
  let s := s.put (Reg.TILE_STAT_BANK.t t) nb
  let s := s.flag (Reg.TILE_XSTAT_SIGOK.t t) false
  let pc := s.pcAt t (s.get (Reg.TILE_XCTL_ENTRY.t t))
  let s := s.tilePut t { x with bundle := [], idle := false, lvl := if forced then false else x.lvl,
                                main := { x.main with ie := false, l0a := false, l1a := false, rrb := 0, pc := pc } }
  let s := (upto 4).foldl (fun s k => bif s.on (Reg.TILE_TMR_CFG_KEEP.tk t k) then s else s.timerStop t k) s
  let s := (upto 8).foldl (fun s j => bif s.on (Reg.TILE_EDG_CFG_KEEP.tk t j) then s else s.edgeStop t j) s
  let s := bif forced then s.evst t Reg.TILE_EVST_XFORCED else s
  ((s.evst t Reg.TILE_EVST_XDONE).put (xState t) 0).tileExchanged t

/-- An exchange to the staged bank is armed with ENTRY (R398); refused while an unverified bank needs a signature. -/
def State.xArm (s : State) (t entry : Nat) : State :=
  let s := s.put (Reg.TILE_XCTL_ENTRY.t t) entry
  bif s.on (Reg.TILE_XSTAT_SIGREQ.t t) && !s.on (Reg.TILE_XSTAT_SIGOK.t t) then
    s.bad (galleryAt (xState t).off)
  else s.put (xState t) 1

/-- XCTL_ARM. -/
def execXctlArm (t entry : Nat) (s : State) : Res :=
  .next <| bif s.fenced t then s.bad (galleryAt (xState t).off) else s.xArm t entry

/-- XCTL_CANCEL disarms an armed exchange (R399). -/
def execXctlCancel (t : Nat) (s : State) : Res :=
  .next <| bif s.fenced t then s.bad (galleryAt (xState t).off) else s.put (xState t) 0

/-- EXCHANGE_TIMEOUT: no swap point within TMO of the arm (R399); the exchange stays armed. -/
def execExchangeTimeout (t : Nat) (s : State) : Res :=
  .next <| bif s.get (xState t) != 0 && s.get (Reg.TILE_XSTAT_TMO.t t) != 0 then s.evst t Reg.TILE_EVST_XTMO else s

/-- XCTL_FORCE (R399): at a boundary now where there is one, else at the end of the granule under way; a halted tile exchanges
at its next RUN. -/
def execXctlForce (t : Nat) (s : State) : Res :=
  .next <| bif s.fenced t then s.bad (galleryAt (xState t).off)
    else bif s.get (xState t) == 0 then s
    else bif s.get (tileState t) == 2 && !(s.tile t).busy then s.exchange t true
    else s.put (xState t) 2

/-- A write to the staged bank under verification ends it with ABORTED (22 R655). -/
def State.verifyAbort (s : State) (t : Nat) : State :=
  bif s.sec.verify == some t then
    (({ s with sec := { s.sec with verify := none } }.put Reg.SEC_STAT_TVST.z 4).flag Reg.SEC_STAT_BUSY.z false).ev 89
  else s

/-- TILE_PDATA_WRITE: a syllable is stored at PPTR in the staged bank, SIGOK clears (R397). -/
def execTilePdataWrite (t : Nat) (v : Word) (s : State) : Res :=
  let b := galleryAt (Reg.TILE_PDATA_SYL.t t).off
  .next <| bif s.fenced t then s.bad b
    else bif s.on (Reg.TILE_PPTR_LIVE.t t) then s.liveIgnored b (Reg.TILE_PDATA_SYL.t t).off s.now
    else
      let p := s.get (Reg.TILE_PPTR_PTR.t t)
      let s := s.setTile t ((s.tile t).setSyllable (1 - s.liveBank t) p v)
      ((s.flag (Reg.TILE_XSTAT_SIGOK.t t) false).put (Reg.TILE_PPTR_PTR.t t) (p + 1)).verifyAbort t

/-- An access through TILE_MPTR and TILE_MDATA (R406): the word read, where it is one that may be accessed. -/
def State.mdata (s : State) (t : Nat) (v : Option Word) : State × Word :=
  let w := s.get (Reg.TILE_MPTR_WADDR.t t)
  bif s.claimed t && le 0x40000 (4 * w) then (s.bad (galleryAt (Reg.TILE_MDATA_DATA.t t).off), 0)
  else
    let a := tileAddr t (4 * w)
    let r := BitVec.ofNat 32 (leNat (s.peekAll a 4))
    let s := match v with
      | some v => s.pokeAll a (u32 v.toNat)
      | none => s
    (s.put (Reg.TILE_MPTR_WADDR.t t) (w + 1), r)

/-- TILE_MDATA_ACCESS (R406). -/
def execTileMdataAccess (r : Requester) (t : Nat) (write : Bool) (v : Word) (s : State) : Res :=
  .next <| bif s.fenced t then
      (bif write then s.bad (galleryAt (Reg.TILE_MDATA_DATA.t t).off) else s.emit (.readData r 0))
    else bif write then (s.mdata t (some v)).1
    else let c := s.mdata t none
         c.1.emit (.readData r c.2)

/-! ### Running, halting, resetting (R394 to R396) -/

/-- A core reset (R395): register sets, TIP, TIE, timers, edge detectors; locks become ABANDONED; channels it owns stop. -/
def State.coreReset (s : State) (t : Nat) : State :=
  let x := (s.tile t).abandon (!s.claimed t)
  let pc := s.pcAt t (s.get (Reg.TILE_CTRL_RSTVEC.t t))
  let s := s.tilePut t { x with main := { RegSet.reset with pc := pc }, shadow := RegSet.reset, lvl := false, bundle := [],
                                idle := false, wantInt := false, long := none, busy := false, resume := false,
                                cmd := none }
  let s := (s.put (Reg.TILE_TIP_LATCHED.t t) 0).put (Reg.TILE_TIE_EN.t t) 0
  let s := (upto 4).foldl (fun s k => s.put (tmrMode t k) 0) s
  let s := (upto 8).foldl (fun s j => s.flag (Reg.TILE_EDG_CFG_EN.tk t j) false) s
  let s := (s.lockAbandon t).wrap (Reg.TILE_STAT_REPOCH.t t) 1
  (s.tileTo t 1).dmaOwnerReset t

/-- RUN of a halted tile (R394, R400): an armed exchange comes first. -/
def State.tileRun (s : State) (t : Nat) : State :=
  let s := s.setTile t { s.tile t with gated := false }
  let s := bif s.get (xState t) == 0 then s else s.exchange t (s.get (xState t) == 2)
  s.tileTo t 2

/-- The island of tile `t` (21 R622). -/
def tileIsland (t : Nat) : Nat := 47 + t

/-- RUN of a clock-gated tile waits until its island, queued to rise, is up again (21 R622). -/
def State.tileUngate (s : State) (t : Nat) : State :=
  let s := s.setTile t { s.tile t with cmd := some 1 }
  let i := tileIsland t
  bif s.pwr.rises.contains i || s.pwr.rising.contains i then s
  else { s with pwr := { s.pwr with rises := s.pwr.rises ++ [i], up := s.pwr.up.filter (· ≠ i) } }

/-- A command takes effect at a boundary: 1 RUN, 2 HALT, 3 RESET (R394). -/
def State.tileCommand (s : State) (t op : Nat) : State :=
  let st := s.get (tileState t)
  bif op == 1 then (bif st == 1 then (bif (s.tile t).gated then s.tileUngate t else s.tileRun t) else s)
  else bif op == 2 then (bif st == 2 || st == 3 then (s.setTile t { s.tile t with bundle := [] }).tileTo t 1 else s)
  else bif op == 3 then (bif st == 0 then s else s.coreReset t) else s

/-- A held command runs (R394). -/
def State.tileHeld (s : State) (t : Nat) : State :=
  match (s.tile t).held with
  | none => s
  | some op => ((s.setTile t { s.tile t with held := none }).flag (Reg.TILE_STAT_CMDHELD.t t) false).tileCommand t op

/-- TILE_CTRL.CMD = `op` (R394): done at once at a boundary; during a granule it waits for the granule's end, and a command
that comes meanwhile is held. -/
def State.tileCmd (s : State) (t op : Nat) : State :=
  let x := s.tile t
  bif s.fenced t then s.bad (galleryAt (tileState t).off)
  else bif x.cmd.isSome then (s.setTile t { x with held := some op }).flag (Reg.TILE_STAT_CMDHELD.t t) true
  else bif x.busy then
    bif op == 2 then (s.setTile t { x with cmd := some 2 }).tileTo t 3
    else bif op == 3 then s.setTile t { x with cmd := some 3 }
    else s
  else s.tileCommand t op

/-- TILE_RUN. -/
def execTileRun (t : Nat) (s : State) : Res := .next (s.tileCmd t 1)
/-- TILE_HALT. -/
def execTileHalt (t : Nat) (s : State) : Res := .next (s.tileCmd t 2)
/-- TILE_RESET. -/
def execTileReset (t : Nat) (s : State) : Res := .next (s.tileCmd t 3)

/-- TILE_CLOCK_GATE: with TILEGATE, a tile halted for 10 µs is clock-gated (21 R622). -/
def execTileClockGate (t : Nat) (s : State) : Res :=
  .next <| bif s.on Reg.PWR_CFG_TILEGATE.z && s.get (tileState t) == 1 then
      let s := s.setTile t { s.tile t with gated := true }
      { s with pwr := { s.pwr with up := s.pwr.up.filter (· ≠ tileIsland t) } }
    else s

/-! ### Tuner rings (R389 to R392) -/

/-- NB of the ring of slot `k` (R391). -/
def State.ringBlocks (s : State) (t k : Nat) : Nat := s.get (Reg.TUN_RING_RLEN.e (s.get (Reg.TILE_RING0_TUNER.tk t k))) / 16
/-- Blocks between the indices. -/
def State.ringFill (s : State) (t k ridx : Nat) : Nat := (s.get (Reg.TILE_RING0_WIDX.tk t k) + 2 ^ 16 - ridx) % 2 ^ 16

/-- A write of RIDX lies within the ring (R392). -/
def State.ridxOk (s : State) (t k r : Nat) : Bool := le (s.ringFill t k r) (s.ringBlocks t k)

/-- TILE_RING_RIDX_WRITE by the host: word 1 of slot `k` (R392). -/
def execTileRingRidxWrite (t k : Nat) (v : Word) (s : State) : Res :=
  let o := (Reg.TILE_RING1_RIDX.tk t k).off
  let b := galleryAt o
  .next <| bif s.fenced t then s.bad b
    else bif s.ridxOk t k (bits v.toNat 0 16) then s.plainWrite b o v.toNat 0xFFFFFFFF
    else (s.plainWrite b o v.toNat 0xFF000000).bad b

/-- The first outputs that one block can hold: consecutive in index and series, at most `n`. -/
def ringTake : Nat → Option (Nat × Nat) → List TunOut → List TunOut
  | 0, _, _ => []
  | _, _, [] => []
  | n + 1, none, o :: os => o :: ringTake n (some (o.e + 1, o.series)) os
  | n + 1, some (e, r), o :: os => if o.e = e ∧ o.series = r then o :: ringTake n (some (e + 1, r)) os else []

/-- Bytes of one output component pair in format `f` (00 R14): C16, C12 or C8. -/
def outBytes (f : Nat) (v : Int × Int) : List Byte :=
  if f = 0 then iN 2 v.1 ++ iN 2 v.2
  else if f = 1 then leBytes 3 (toU 12 v.1 + toU 12 v.2 * 2 ^ 12)
  else iN 1 v.1 ++ iN 1 v.2

/-- TUNER_RING_BLOCK: the block of slot `k` closes and is written, or discarded where the ring is full (R390, R391). -/
def execTunerRingBlock (t k : Nat) (s : State) : Res :=
  let u := s.get (Reg.TILE_RING0_TUNER.tk t k)
  let x : Tuner := { s.tuner u with ringOuts := (s.tuner u).ringOuts.dropWhile (fun o => bits o.dest 20 6 != t) }
  let f := (x.ringOuts.head?.map (·.ofmt)).getD 0
  let cap := if f = 0 then 240 else if f = 1 then 320 else 480
  let os := ringTake cap none x.ringOuts
  .next <| match os.head? with
    | none => s
    | some o =>
      bif s.on (Reg.TILE_RING0_VALID.tk t k) then
        let rg := s.ring t k
        let s := s.setTuner u { x with ringOuts := x.ringOuts.drop os.length }
        let nb := s.ringBlocks t k
        let w := s.get (Reg.TILE_RING0_WIDX.tk t k)
        let nxt := some (o.e + os.length, o.series)
        bif s.ringFill t k (s.get (Reg.TILE_RING1_RIDX.tk t k)) == nb then
          let s := s.setRing t k { rg with lost := satAdd 16 rg.lost 1 }
          (s.count (Reg.TILE_RING1_OVF.tk t k) 1).evst t Reg.TILE_EVST_RINGOVF
        else
          let first := match rg.next with
            | some (_, r) => r != o.series
            | none => true
          let skip := match rg.next with
            | some (e, r) => r == o.series && e != o.e
            | none => false
          let flags := b2n first + 2 * b2n (os.any (·.glaze)) + 4 * b2n skip
          let body := u16 0x5254 ++ u8 u ++ u8 (f + 1) ++ u16 flags ++ u16 os.length ++ u48 o.e
            ++ u16 (os.filter (·.part)).length ++ u32 o.series ++ u32 o.gen ++ u96 o.tag ++ u16 o.tq ++ u16 rg.lost
            ++ zeros 24 ++ os.flatMap (fun p => outBytes f p.v)
          let a := s.get (Reg.TUN_RING_RBASE.e u) * 64 + 1024 * (w % nb)
          let s := (s.pokeAll (tileAddr t a) body).setRing t k { rg with lost := 0, next := nxt }
          let s := s.put (Reg.TILE_RING0_WIDX.tk t k) (w + 1)
          bif le (s.get (Reg.TILE_RING1_WMARK.tk t k)) (s.ringFill t k (s.get (Reg.TILE_RING1_RIDX.tk t k))) then
            s.tipSet t (16 + k)
          else s
      else s

/-! ### The software trigger (R393, 09 R273) -/

/-- SOFT_TRIGGER: a write of TRIGW by the core of tile `t` issues one SOFT product for unit `u`. -/
def State.softTrigger (s : State) (t u : Nat) (loaded : Bool) : State :=
  bif s.get (Reg.TRG_UCFG_SRC.e u) == 7 && s.get (Reg.TRG_UELEM_ELEM.e u) == t then
    bif s.get Reg.PWR_STAT_MODE.z == 4 && s.on (Reg.TRG_UCFG_EN.e u) then
      s.pushPulse u (bif loaded then (s.tile t).ttag else s.now) (s.tq false false) else s
  else s.count (Reg.TRG_USUPP_COUNT.e u) 1
def execSoftTrigger (t u : Nat) (loaded : Bool) (s : State) : Res := .next (s.softTrigger t (u % 32) loaded)

/-! ### A tile's own registers, as its core reaches them (R364, R393, R406) -/

/-- Registers that only the host may write. -/
def hostOnly (o : Nat) : Bool := [0x00, 0x14, 0x1C, 0x20, 0x24, 0x28, 0x2C, 0x30].contains o

/-- Offset of the tile's block. -/
def tileBase (t : Nat) : Nat := (tileState t).off - 4

/-- The word at offset `o` of the tile's block, and the state after the read's side effects. -/
def State.ownRead (s : State) (t o : Nat) : State × Word :=
  bif o == 0x28 then s.mdata t none
  else bif o == 0x44 then (s, BitVec.ofNat 32 (s.tip t))
  else bif o == 0x20 then
    (s, (s.tile t).syllable (bif s.on (Reg.TILE_PPTR_LIVE.t t) then s.liveBank t else 1 - s.liveBank t) (s.get (Reg.TILE_PPTR_PTR.t t)))
  else bif lt o 0x1C0 then s.plainRead (256 + t) (galleryAt (tileBase t)) (tileBase t + o)
  else (s, 0)

/-- The core writes the bits of `mask` of the word at offset `o` of its own block. -/
def State.ownWrite (s : State) (t o v mask : Nat) : State :=
  let s := s.plainWrite (galleryAt (tileBase t)) (tileBase t + o) v mask
  bif le 0x80 o && lt o 0xC0 && o % 16 != 12 then s.timerRestart t ((o - 0x80) / 16) else s

/-- The core writes the word at offset `o` of the software trigger port (R393). -/
def State.portWrite (s : State) (t o v : Nat) : State :=
  let x := s.tile t
  bif o == 4 then s.setTile t { x with ttagL := BitVec.ofNat 32 v }
  else bif o == 8 then s.setTile t { x with ttagM := BitVec.ofNat 32 v }
  else bif o == 12 then s.setTile t { x with ttag := x.ttagL.toNat + x.ttagM.toNat * 2 ^ 32 + v % 2 ^ 32 * 2 ^ 64 }
  else s.softTrigger t (v % 32) (bit v 31)

end Sys2Proof.Machine
end

