-- ==== Sys2Proof/Machine/Planes.lean ====
section
/-! DEFINITION. What the planes deliver: released samples (04 R137), coarse and sketch spectra (05 R161, R165, R172), fine spectra
(06 R187), tuner outputs (08 R255), and the records of closed intervals (07 R218, R219). Each reaches every consumer here. -/

namespace Sys2Proof.Machine

/-! ### Release on the main path (04 R137) -/

/-- One index of input `n` is released: the fronts, the tuners and the recorder see it. -/
def State.release1 (s : State) (n : Nat) : State :=
  match s.releaseNext n with
  | (s, some (idx, v, c16)) => (s.releaseOne n idx v c16).recTake n idx v c16
  | (s, none) => s

/-- SAMPLE_RELEASE: one cycle of CK_CORE, up to 16 indices of input `n` in index order. -/
def execSampleRelease (n : Nat) (s : State) : Res :=
  .next <| ((upto 16).foldl (fun s _ => s.release1 n) s).dcSync n

/-! ### Coarse and sketch spectra (05) -/

/-- Spans found late are declared to the views (06 R199, 07 R224). -/
def State.declareLate (s : State) (n : Nat) (l : List (FineChain × Nat)) : State := l.foldl (fun s g => s.viewsLate n g.1 g.2) s

/-- A main-output spectrum reaches the fine channeliser and the views (06 R191, 07 R206). -/
def State.mainTake (s : State) (n : Nat) (p : Spectrum) : State :=
  let y := s.fineTake n p
  (y.1.declareLate n y.2).viewsTake 1 n p

/-- COARSE_VOID_DEADLINE: the coarse spectrum of index `m` is not present by its deadline and is taken as void (06 R196). -/
def execCoarseVoidDeadline (n m : Nat) (s : State) : Res :=
  .next <| bif s.produced 0 n m then s
    else
      let y := s.fineVoid n m
      y.1.declareLate n y.2

/-- COARSE_SPECTRUM: window `m` of the main output (`seam` false) or of the seam port of input `n` (R161 to R167, R170). A seam
spectrum whose deadline has passed is absent, and counted again (11 R330). -/
def execCoarseSpectrum (n : Nat) (seam : Bool) (m : Nat) (s : State) : Res :=
  let port : Nat := if seam then 1 else 0
  .next <| match s.coarseSpec n port m with
      | none => s
      | some (p, sat, csat) =>
        if seam then
          (s.coarseDone n 1 p sat csat).seamLate n p
        else (s.coarseDone n 0 p sat csat).mainTake n p

/-- The sketch spectrum of window `m` is formed and reaches the views; a void one is not produced (R165, R172). One that a
frame-fault notice names already is counted (R172). -/
def State.sketchForm (s : State) (n m : Nat) (force : Bool) : State :=
  match s.sketchSpec n m force with
  | some p =>
    let s := bif s.spanFault n p.first p.len then s.count (Reg.CCH_SKFF_COUNT.e n) 1 else s
    (s.deliverSpec 2 n p).viewsTake 0 n p
  | none => s

/-- SKETCH_SPECTRUM: window `m` of input `n` once its samples, or a later one, have come (R165, R172). -/
def execSketchSpectrum (n m : Nat) (s : State) : Res := .next (s.sketchForm n m false)

/-- SKETCH_DEADLINE: T_pin(i_last) + 2 µs has passed; indices not delivered are zero (R172). -/
def execSketchDeadline (n m : Nat) (s : State) : Res := .next (s.sketchForm n m true)

/-! ### Fine spectra (06 R187, R190, R197, R200) -/

/-- The product of coarse generation `cg` for bin `k` of span `g` (R187, R200). -/
def State.fineProduce (s : State) (n : Nat) (c : FineChain) (g k cg : Nat) : State :=
  match s.fineSpec n c g k cg with
  | none => s
  | some (p, sat) =>
    let s := s.pushFine n p sat
    let s := bif s.spanSplit n c g then s.count (Reg.FCH_SPLIT_COUNT.e n) 1 else s
    s.viewsFine n p

/-- The grid whose earliest due span has index `mf`, with that span; of two, the one whose due span begins first (R190). -/
def State.dueSpan (s : State) (n mf : Nat) : Option (FineChain × Nat) :=
  let l := (s.fin n).chains.filterMap (fun c => c.due.head?.map (fun g => (c, g)))
  l.find? (fun x => x.2 % x.1.turn == mf && l.all (fun y => !idxBefore (y.1.firstOf y.2) (x.1.firstOf x.2)))

/-- Bin `k` of the earliest due span of a grid is finished; the span is, with its last bin (R190). -/
def FineChain.finish (c : FineChain) (k : Nat) : FineChain :=
  let d := k :: c.done
  if c.bins.all (d.contains ·) then { c with done := [], due := c.due.tail } else { c with done := d }

/-- FINE_SPECTRUM: bin `k` of the due fine spectrum `mf` of input `n`; all bins of one m_f come before any of the next (R190). Entries of
its rings found lost are counted first (R198). -/
def execFineSpectrum (n mf k : Nat) (s : State) : Res :=
  .next <| match s.dueSpan n mf with
    | none => s
    | some (c, g) =>
      if c.bins.contains k && !c.done.contains k then
        let held := ((upto c.nb).map (g + ·)).filter (fun i => lt (c.last.getD 0) (i + c.depth) && (s.coarseOf n c i).isSome)
        let y := s.findLost n c held [k]
        let t := (s.spanGens n c g).foldl (fun t cg => t.fineProduce n y.2 g k cg) y.1
        (t.setChains n (mapFirst (· == c) (fun _ => y.2.finish k) (t.fin n).chains)).finePrune n
      else s

/-! ### Tuner outputs (08 R252 to R262) -/

/-- An output reaches the tile ring that TUN_DEST names for it, and the views. -/
def State.tunDeliver (s : State) (t : Nat) (c : TunSet) (j0 : Nat) (o : TunOut) (sat : Nat) : State :=
  let s := s.tunSat t sat
  let x := s.tuner t
  (s.setTuner t { x with outs := o :: x.outs, ringOuts := bif bit o.dest 30 then x.ringOuts ++ [o] else x.ringOuts }).viewsTuner t c j0 o

/-- Output `ch.next` of a chain is delivered, or skipped where it is void (R257), and the stream path runs. -/
def State.tunNext (s : State) (t : Nat) (old : Bool) (ch : Chain) : State :=
  let s2 := match s.tunOut ch ch.next with
    | some (o, sat) => s.tunDeliver t ch.set ch.j0 o sat
    | none => s
  State.streamTake t old ch.next 512 { ch with next := ch.next + 1 } s2

/-- The old chain has delivered its last output: the tuner has swapped; one that a commit disabled is DRAINING (R261, R262). -/
def State.oldEnds (s : State) (t : Nat) : State :=
  let x := s.tuner t
  let s := s.setTuner t { x with old := none }
  (if x.chain.isNone then s.put (tunState t) 4 else s).tunSwapped t

def Chain.finished (c : Chain) : Bool :=
  match c.limit with
  | some l => leI l (outPos c.set c.j0 c.next)
  | none => false

/-- The old chain's next output, or its end. -/
def State.oldOutput (s : State) (t : Nat) (ch : Chain) : State :=
  if ch.finished then s.oldEnds t
  else if s.tunReady ch ch.next then s.tunNext t true ch
  else s

/-- The chain's next output; the first one makes the tuner RUNNING (R262). A void one is skipped (R257). -/
def State.chainOutput (s : State) (t : Nat) (ch : Chain) : State :=
  if s.tunReady ch ch.next then
    let s2 := s.tunNext t false ch
    bif s2.get (tunState t) == 1 && (s.tunOut ch ch.next).isSome then s2.put (tunState t) 2 else s2
  else s

/-- TUNER_OUTPUT: the next output of tuner `t`, the old chain's first while a series overlaps (R261). -/
def execTunerOutput (t : Nat) (s : State) : Res :=
  let x := s.tuner t
  .next <| match x.old, x.chain with
    | some ch, none => s.oldOutput t ch
    | none, some ch => s.chainOutput t ch
    | none, none => s
    | some o, some ch =>
      if o.finished then (s.oldEnds t).chainOutput t ch else s.oldOutput t o

/-! ### Records of closed intervals (07 R218, R219; 17 R523) -/

/-- The record of `c` is formed, and a map goes to its canvas layer. -/
def State.recordOut (s : State) (v x : Nat) (c : Interval) : State :=
  let s2 := s.formRecord v x c
  bif c.emitted && le 7 (c.field Reg.DVW_CTRL_DET) && le (c.field Reg.DVW_CTRL_DET) 8 then
    s2.canvasTake v x c (s.recordHead x c c.values.2).cls
  else s2

/-- DETECTOR_RECORD_CLOSE: the oldest closed interval of view `v`, entry `x`, in its turn (R219); on the sketch plane its record is held
(R218). -/
def execDetectorRecordClose (v x : Nat) (s : State) : Res :=
  let y := s.vin v x
  .next <| match y.closed with
    | [] => s
    | c :: rest =>
      if c.field Reg.DVW_CTRL_PLANE = 0 then s.setVin v x { y with closed := rest, held := y.held ++ [c] }
      else if s.inTurn v x c then (s.setVin v x { y with closed := rest }).recordOut v x c
      else s

/-- SKETCH_RECORD_HOLD_END: T_pin(i_last) + 400 ns of the oldest held interval, in its turn (R218, R219). -/
def execSketchRecordHoldEnd (v x : Nat) (s : State) : Res :=
  let y := s.vin v x
  .next <| match y.held with
    | [] => s
    | c :: rest => if s.inTurn v x c then (s.setVin v x { y with held := rest }).recordOut v x c else s

/-- A record with its entry put into the view's order (R219). -/
def insertRecord (a : Nat × Interval) : List (Nat × Interval) → List (Nat × Interval)
  | [] => [a]
  | b :: l => if recordBefore b.2 a.2 b.1 a.1 then b :: insertRecord a l else a :: b :: l

/-- The closed intervals of view `v` in the order of their records. -/
def State.viewRecords (s : State) (v : Nat) : List (Nat × Interval) :=
  ((s.viewEntries v).flatMap (fun x => (((s.vin v x).held ++ (s.vin v x).closed).map (fun c => (x, c))))).foldr insertRecord []

/-- The views stop: the records of their closed intervals are formed first (R707). -/
def State.recordsOut (s : State) : State :=
  ((s.det.ins.map (fun e => e.1 / 256)).eraseDups).foldl (fun s v =>
    let l := s.viewRecords v
    let s := (s.viewEntries v).foldl (fun s x => s.setVin v x { s.vin v x with closed := [], held := [] }) s
    l.foldl (fun s c => s.recordOut v c.1 c.2) s) s

end Sys2Proof.Machine
end

