-- ==== Sys2Proof/Machine/Disk.lean ====
section
/-!
DEFINITION. The disk writer (16_output_streams.md R510 to R517): the set and its layout, extents, the journal, data writes, checkpoints,
and the commands of DSK_CMD.
-/
namespace Sys2Proof.Machine

def State.disk (s : State) : Disk := s.str.disk
def State.setDisk (s : State) (d : Disk) : State := { s with str := { s.str with disk := d } }
def dskState : Loc := Reg.DSK_STAT_STATE.z
/-- DSK_STAT.STATE takes value `v`; a change raises EV486. -/
def State.dskTo (s : State) (v : Nat) : State := bif s.get dskState == v then s else (s.put dskState v).ev 486

/-! ### The layout (R511) -/

def DiskSet.su (d : DiskSet) : Nat := 2 ^ (16 + d.sulog)
def DiskSet.extBytes (d : DiskSet) : Nat := 2 ^ d.extlog
def DiskSet.journalBytes (d : DiskSet) : Nat := d.jmib * 2 ^ 20
def DiskSet.blocks (d : DiskSet) : Nat := d.journalBytes / 4096
/-- D0. -/
def DiskSet.base (d : DiskSet) : Nat := d.journalBytes + ceilDiv (64 * d.count) 4096 * 4096

/-- L of `n` drives of capacity `c`. -/
def logicalLen (n su c : Nat) : Nat := n * su * ((c - 2 ^ 20) / su)

/-- E: the largest count whose extents fit, found downward from `e`. -/
def extentCount (j x l : Nat) : Nat → Nat → Nat
  | 0, e => e
  | fuel + 1, e => if j + ceilDiv (64 * e) 4096 * 4096 + e * x ≤ l then e else extentCount j x l fuel (e - 1)

/-- Bytes written from logical byte `b` on, piece by piece on the drives (R511), with FUA or without. -/
def State.logicalWrite (d : DiskSet) (fua : Bool) : Nat → Nat → List Byte → State → State
  | 0, _, _, s => s
  | fuel + 1, b, data, s =>
    if data.isEmpty then s
    else
      let k := d.su - b % d.su
      let s := s.emit (.diskWrite (b / d.su % d.n) (2 ^ 20 + d.su * (b / (d.su * d.n)) + b % d.su) fua (data.take k))
      State.logicalWrite d fua fuel (b + k) (data.drop k) s

/-- A write at logical byte `b`. -/
def State.putLogical (s : State) (d : DiskSet) (fua : Bool) (b : Nat) (data : List Byte) : State :=
  State.logicalWrite d fua (data.length / d.su + 2) b data s

/-- A block of `h` with its CRC-32C at offset 60 (R511 to R513). -/
def withCrc60 (b : List Byte) : List Byte :=
  let z := b.take 60 ++ zeros 4 ++ b.drop 64
  b.take 60 ++ u32 (crc32c z) ++ b.drop 64

/-- The CRC at offset 60 passes. -/
def crc60Ok (b : List Byte) : Bool := leAt b 60 4 == crc32c (b.take 60 ++ zeros 4 ++ b.drop 64)

/-- The superblock of drive `i` (R511). -/
def superblock (d : DiskSet) (i tag : Nat) : List Byte :=
  withCrc60 (u32 0x53444657 ++ u16 1 ++ u8 i ++ u8 d.n ++ u64 d.id ++ u8 d.sulog ++ u8 d.extlog ++ zeros 2 ++ u32 d.jmib ++ u64 d.len
    ++ u32 d.count ++ u96 tag ++ zeros 12 ++ zeros 4)

/-- The set and the drive index a superblock names. -/
def readSuper (b : List Byte) : Option (DiskSet × Nat) :=
  if leAt b 0 4 = 0x53444657 ∧ leAt b 4 2 = 1 ∧ crc60Ok (b.take 64) then
    some (⟨leAt b 8 8, leAt b 7 1, leAt b 16 1, leAt b 17 1, leAt b 20 4, leAt b 24 8, leAt b 32 4⟩, leAt b 6 1)
  else none

/-! ### Extents and the journal (R512, R513) -/

/-- Bytes 0 to 47 of a table entry. -/
def Extent.image (e : Extent) : List Byte :=
  u8 e.state ++ zeros 1 ++ u16 e.stream ++ u32 e.epoch ++ u32 e.first ++ u32 e.last ++ u64 e.valid ++ u96 e.opened ++ u96 e.lastTag

/-- A table entry. -/
def Extent.entry (e : Extent) : List Byte := withCrc60 (e.image ++ u64 e.blk ++ zeros 8)

/-- An entry from its bytes. -/
def readExtent (b : List Byte) (blk : Nat) : Extent :=
  ⟨leAt b 0 1, leAt b 2 2, leAt b 4 4, leAt b 8 4, leAt b 12 4, leAt b 16 8, leAt b 24 12, leAt b 36 12, blk⟩

def Disk.extent (d : Disk) (k : Nat) : Extent := tget (fun _ => Extent.reset) d.extents k
def State.setExtent (s : State) (k : Nat) (e : Extent) : State :=
  s.setDisk { s.disk with extents := tset (fun _ => Extent.reset) s.disk.extents k e }

/-- DSK_FREE follows the extents. -/
def State.freeSync (s : State) : State :=
  match s.disk.set with
  | some d => s.put Reg.DSK_FREE_FREE.z (d.count - (s.disk.extents.filter (fun e => e.2.state != 0)).length)
  | none => s.put Reg.DSK_FREE_FREE.z 0

/-- A change of an extent is entered in the journal (R513). -/
def State.journal (s : State) (kind k : Nat) (e : Extent) : State :=
  let s := s.setExtent k e
  (s.setDisk { s.disk with entries := s.disk.entries ++ [⟨kind, k, e⟩] }).freeSync

/-- A journal block (R513). -/
def journalBlock (d : DiskSet) (i : Nat) (l : List JEntry) : List Byte :=
  let b := u32 0x4A444657 ++ zeros 4 ++ u64 i ++ u64 d.id ++ u32 l.length ++ zeros 32 ++ zeros 4
    ++ l.flatMap (fun j => j.image.image ++ u32 j.ext ++ u8 j.kind ++ zeros 11)
  withCrc60 (b ++ zeros (4096 - b.length))

/-- A journal block read back: its number and entries, if its magic, set identifier and CRC are valid (R515). -/
def readJournal (d : DiskSet) (b : List Byte) : Option (Nat × List JEntry) :=
  if leAt b 0 4 = 0x4A444657 ∧ leAt b 16 8 = d.id ∧ crc60Ok b then
    some (leAt b 8 8, (upto (leAt b 24 4)).map (fun i =>
      let e := b.drop (64 + 64 * i)
      ⟨leAt e 52 1, leAt e 48 4, readExtent e (leAt b 8 8)⟩))
  else none

/-- A write in flight is recorded under a number of its own. -/
def State.flight (s : State) (w : DiskWrite) : State :=
  let d := s.disk
  s.setDisk { d with writes := d.writes ++ [(d.nextId, w, false)], nextId := d.nextId + 1 }

/-- A journal block is durable (R513, R514): its changes are now to be made in the table, and STR_SDUR follows. -/
def State.journalDurable (s : State) (i : Nat) (l : List JEntry) : State :=
  l.foldl (fun s j =>
    let d := s.disk
    let s := s.setDisk { d with durable := tset (fun _ => Extent.reset) d.durable j.ext { j.image with blk := i },
                                undone := d.undone ++ [(i, j.ext)] }
    bif (j.kind == 2 || j.kind == 3) && lt 0 j.image.valid then s.put (Reg.STR_SDUR_DUR.e j.image.stream) j.image.last else s) s

/-- The table block that holds extent `k`, as the durable journal leaves it. -/
def Disk.tableBlock (d : Disk) (k : Nat) : List Byte :=
  (upto 64).flatMap (fun i => (tget (fun _ => Extent.reset) d.durable (k / 64 * 64 + i)).entry)

/-- The table blocks of extents changed by journal block `i` are written (R513). -/
def State.tableWrites (s : State) (set : DiskSet) (i : Nat) (l : List JEntry) : State :=
  ((l.map (·.ext / 64)).eraseDups).foldl (fun s b =>
    let s := s.putLogical set false (set.journalBytes + 4096 * b) (s.disk.tableBlock (64 * b))
    s.flight (.table ((l.filter (fun j => j.ext / 64 == b)).map (fun j => (i, j.ext))))) s

/-- The next journal block, of at most 63 entries, goes to the drives, after a Flush and with FUA where a drive has a volatile write
cache (R510, R513). -/
def State.journalIssue (s : State) (set : DiskSet) : State :=
  let d := s.disk
  let l := d.entries.take 63
  let s := bif d.vwc then s.emit .diskFlush else s
  let s := s.putLogical set d.vwc (4096 * (d.block % set.blocks)) (journalBlock set d.block l)
  let d := s.disk
  let s := s.setDisk { d with entries := d.entries.drop 63, period := d.period && lt 63 d.entries.length, block := d.block + 1 }
  s.flight (.journal (d.block) l)

/-- JOURNAL_WRITE (R513): the waiting block is written when it holds 63 entries or at the end of a CKPT period; one journal
write is in flight at a time, and block i is overwritten only once its changes are durable in the table. -/
def execJournalWrite (s : State) : Res :=
  let d := s.disk
  .next <| match d.set with
    | none => s
    | some set =>
      let busy := d.writes.any (fun w => match w.2.1 with
        | .journal _ _ => true
        | _ => false)
      let held := d.undone.any (fun u => le (u.1 + set.blocks) d.block)
      bif (s.get dskState == 3 || s.get dskState == 4) && !busy && !held && (le 63 d.entries.length || (d.period && !d.entries.isEmpty))
      then s.journalIssue set else s

/-! ### Data (R512, R514) -/

/-- The first extent from `k` on, wrapping, whose state is `v`. -/
def Disk.findExtent (d : Disk) (e v : Nat) : Nat → Nat → Option Nat
  | 0, _ => none
  | fuel + 1, k => if (d.extent (k % e)).state = v then some (k % e) else Disk.findExtent d e v fuel (k + 1)

/-- Stream `st` opens extent `k` (R512). -/
def State.openExtent (s : State) (st k : Nat) : State :=
  let x := s.stream st
  let seq := match x.queue with
    | q :: _ => q.seq
    | [] => s.get (Reg.STR_SSEQ_SEQ.e st)
  let s := bif (s.disk.extent k).state == 2 then s.journal 4 k Extent.reset else s
  let before := (seq + 2 ^ 32 - 1) % 2 ^ 32
  let s := s.journal 1 k ⟨1, st, s.get (Reg.STR_SEPOCH_EPOCH.e st), seq, before, 0, s.now, s.now, 0⟩
  s.setStream st { s.stream st with disk := some ⟨k, 0, 0, before, 0, before, 0, false⟩, lastExt := k + 1 }

/-- Stream `st` opens the next FREE extent in ascending order, or without STOP the next SEALED one; with STOP and none FREE the
set becomes FULL (R512). -/
def State.nextExtent (s : State) (set : DiskSet) (st : Nat) : State :=
  let from_ := (s.stream st).lastExt
  match s.disk.findExtent set.count 0 set.count from_ with
  | some k => s.openExtent st k
  | none =>
    bif s.on Reg.DSK_CFG_STOP.z then s.diskFull
    else match s.disk.findExtent set.count 2 set.count from_ with
      | some k => s.openExtent st k
      | none => s

/-- The records at the front of a queue that fit in `space`, and whether the next one does not (R512). -/
def fitting (p : QRec → Bool) : Nat → List QRec → List QRec × Bool
  | _, [] => ([], false)
  | space, q :: rest =>
    if !p q then ([], false)
    else if q.bytes.length - q.taken ≤ space then
      let r := fitting p (space - (q.bytes.length - q.taken)) rest
      (q :: r.1, r.2)
    else ([], true)

/-- The first `n` bytes of a queue are taken: the bytes, the queue after, and the end (in bytes taken) and number of the last
whole record. -/
def takeBytes : Nat → List QRec → Nat → Option (Nat × Nat) → List Byte × List QRec × Option (Nat × Nat)
  | 0, l, _, e => ([], l, e)
  | _, [], _, e => ([], [], e)
  | n, q :: rest, at_, e =>
    let left := q.bytes.drop q.taken
    if left.length ≤ n then
      let r := takeBytes (n - left.length) rest (at_ + left.length) (some (at_ + left.length, q.seq))
      (left ++ r.1, { q with taken := q.bytes.length } :: r.2.1, r.2.2)
    else (left.take n, { q with taken := q.taken + n } :: rest, e)

/-- The part of a queue whose bytes have not been written. -/
def unwritten (l : List QRec) : List QRec := l.dropWhile (fun q => q.dest == 2 && q.taken == q.bytes.length)

/-- `n` bytes of stream `st` are written at its place in the extent, followed by zeros to a 4096-byte boundary if `pad`
(R514). -/
def State.dataWrite (s : State) (set : DiskSet) (st n : Nat) (pad : Bool) : State :=
  let x := s.stream st
  match x.disk with
  | none => s
  | some p =>
    let done := x.queue.take (x.queue.length - (unwritten x.queue).length)
    let r := takeBytes n (unwritten x.queue) 0 none
    let stop := if pad then ceilDiv (p.pos + n) 4096 * 4096 else p.pos + n
    let good := match r.2.2 with
      | some e => (if pad then stop else p.pos + e.1, e.2)
      | none => (p.goodPos, p.goodSeq)
    let s := s.setStream st { x with queue := done ++ r.2.1,
                                     disk := some { p with pos := stop, goodPos := good.1, goodSeq := good.2 } }
    let s := s.putLogical set false (set.base + p.ext * set.extBytes + p.pos) (r.1 ++ zeros (stop - p.pos - n))
    s.flight (.data st p.ext good.1 good.2)

/-- The OPEN extent of stream `st` is sealed at its completed data (R512). -/
def State.seal (s : State) (st : Nat) : State :=
  match (s.stream st).disk with
  | none => s
  | some p =>
    let e := s.disk.extent p.ext
    let s := s.setStream st { s.stream st with disk := none }
    s.journal 3 p.ext { e with state := 2, last := p.doneSeq, valid := p.donePos, lastTag := s.now }

/-- DISK_DATA_WRITE (R512, R514): stream `st` issues a write when the bytes up to the next SU boundary are staged, or (`due`)
DFLUSH µs after the first unwritten byte was; a record that does not fit seals the extent once its data are complete. -/
def execDiskDataWrite (st : Nat) (due : Bool) (bad : List BadWord) (s : State) : Res :=
  .next <| match s.disk.set with
    | none => s
    | some set =>
      bif s.streamsRun && !s.pair.shadow && s.get dskState == 3 && s.get (strState st) != 3 then
        let s := State.checkHead bad st (s.stream st).queue.length s
        let mine (q : QRec) : Bool := q.dest == 2 && q.acked && (lt 0 q.taken || (badIn bad st q).isEmpty)
        let l := unwritten (s.stream st).queue
        bif !(l.take 1).any mine then s
        else match (s.stream st).disk with
          | none => s.nextExtent set st
          | some p =>
            let f := fitting mine (bif p.cut then 0 else set.extBytes - p.pos) l
            let total := sumOf (f.1.map (fun q => q.bytes.length - q.taken))
            let edge := (p.pos / set.su + 1) * set.su - p.pos
            bif le edge total then s.dataWrite set st edge false
            else bif lt 0 total && (due || f.2) then s.dataWrite set st total true
            else bif f.2 && p.goodPos == p.donePos then s.seal st
            else s
      else s

/-- A completed write takes effect (R513, R514). -/
def State.settled (s : State) (set : DiskSet) (w : DiskWrite) : State :=
  match w with
  | .data st ext gp gs =>
    let x := s.stream st
    let s := match x.disk with
      | some p => bif p.ext == ext then s.setStream st { x with disk := some { p with donePos := gp, doneSeq := gs } } else s
      | none => s
    let gone := (s.stream st).queue.filter (fun q => q.dest == 2 && q.taken == q.bytes.length &&
      (q.seq == gs || serialBefore 32 q.seq gs))
    gone.foldl (fun s q => s.dequeue st q) s
  | .journal i l => (s.journalDurable i l).tableWrites set i l
  | .table c => s.setDisk { s.disk with undone := s.disk.undone.filter (fun u => !c.contains u) }

/-- Two writes are data of one stream. -/
def sameStream (a b : DiskWrite) : Bool :=
  match a, b with
  | .data x _ _ _, .data y _ _ _ => x == y
  | _, _ => false

/-- The first completed write that no earlier write of its stream precedes. -/
def settleNext : List (Nat × DiskWrite × Bool) → List (Nat × DiskWrite × Bool) → Option (Nat × DiskWrite × Bool)
  | _, [] => none
  | before, w :: rest =>
    if w.2.2 ∧ ¬ before.any (fun v => sameStream v.2.1 w.2.1) then some w else settleNext (before ++ [w]) rest

/-- Completed writes take effect in order. -/
def State.settleAll (set : DiskSet) : Nat → State → State
  | 0, s => s
  | fuel + 1, s =>
    match settleNext [] s.disk.writes with
    | none => s
    | some w =>
      State.settleAll set fuel ((s.setDisk { s.disk with writes := s.disk.writes.filter (fun v => v.1 != w.1) }).settled set w.2.1)

/-- DISK_WRITE_COMPLETE (R514): the NVMe write of number `id` completes. -/
def execDiskWriteComplete (id : Nat) (s : State) : Res :=
  .next <| match s.disk.set with
    | none => s
    | some set =>
      bif s.get dskState == 5 then s
      else
        let d := s.disk
        let s := s.setDisk { d with writes := d.writes.map (fun w => if w.1 = id then (w.1, w.2.1, true) else w) }
        State.settleAll set d.writes.length s

/-- DISK_CHECKPOINT (R514): each OPEN extent whose completed data have advanced gains a CKPT entry; the CKPT period ends. -/
def execDiskCheckpoint (s : State) : Res :=
  .next <| bif s.get dskState == 3 || s.get dskState == 4 then
      let s := s.str.streams.foldl (fun s c =>
        match (s.stream c.1).disk with
        | some p => bif p.donePos == p.logged then s
          else
            let e := s.disk.extent p.ext
            let s := s.setStream c.1 { s.stream c.1 with disk := some { p with logged := p.donePos } }
            s.journal 2 p.ext { e with last := p.doneSeq, valid := p.donePos, lastTag := s.now }
        | none => s) s
      s.setDisk { s.disk with period := !s.disk.entries.isEmpty }
    else s

/-! ### Commands (R515, R516) -/

/-- A disk command completes (R516): CMDST and EV487. -/
def State.dskEnd (s : State) (st : Nat) : State :=
  let s := s.setDisk { s.disk with cmd := none }
  ((s.flag Reg.DSK_STAT_BUSY.z false).put Reg.DSK_STAT_CMDST.z st).ev 487

/-- A write of DSK_CMD (R516): ignored while BUSY with BADACC and EV005; a command not permitted in the state ends with
STATE. -/
def State.dskCmd (s : State) (op : Nat) (permitted : List Nat) : State :=
  bif s.on Reg.DSK_STAT_BUSY.z then s.bad .streams
  else bif permitted.contains (s.get dskState) then
    let s := s.flag Reg.DSK_STAT_BUSY.z true
    let s := s.setDisk { s.disk with cmd := some (op, (upto 5).map (fun i => s.get (Reg.DSK_ARG_ARG.e i))) }
    bif op == 1 then s.dskTo 1 else s
  else s.dskEnd 5

/-- ATTACH (R515, R516). -/
def execDiskAttach (s : State) : Res := .next (s.dskCmd 1 [0])
/-- FORMAT (R516). -/
def execDiskFormat (s : State) : Res := .next (s.dskCmd 2 [0])
/-- DETACH (R516). -/
def execDiskDetach (s : State) : Res := .next (s.dskCmd 3 [3, 4, 5])
/-- KEEP (R516). -/
def execDiskKeep (s : State) : Res := .next (s.dskCmd 4 [3, 4])
/-- FREE (R516). -/
def execDiskFree (s : State) : Res := .next (s.dskCmd 5 [3, 4])
/-- READ (R516). -/
def execDiskRead (s : State) : Res := .next (s.dskCmd 6 [3, 4])

/-- Every waiting journal entry is written, block by block, and made durable with its table updates, before a command ends. -/
def State.journalFlush (set : DiskSet) : Nat → State → State
  | 0, s => s
  | fuel + 1, s =>
    let d := s.disk
    if d.entries.isEmpty then s
    else
      let s := s.journalIssue set
      let s := s.setDisk { s.disk with writes := s.disk.writes.map (fun w => (w.1, w.2.1, true)) }
      let s := State.settleAll set (s.disk.writes.length) s
      let s := s.setDisk { s.disk with writes := s.disk.writes.map (fun w => (w.1, w.2.1, true)) }
      State.journalFlush set fuel (State.settleAll set (s.disk.writes.length) s)

/-- The drives are released: the set is gone (R517). -/
def State.diskRelease (s : State) : State :=
  let s := s.str.streams.foldl (fun s c => s.setStream c.1 { s.stream c.1 with disk := none }) s
  let s := s.setDisk { Disk.reset with cmd := s.disk.cmd, nextId := s.disk.nextId }
  let s := (upto 16).foldl (fun s d => ((s.put (Reg.DSK_DRV_STATE.e d) 0).put (Reg.DSK_DRV_INDEX.e d) 0).put (Reg.DSK_DRV_CAP.e d) 0) s
  (((s.put Reg.DSK_STAT_DRIVES.z 0).put Reg.DSK_EXT_E.z 0).put Reg.DSK_FREE_FREE.z 0).dskTo 0

/-- DETACH (R516): OPEN extents are sealed, the journal is written, and the drives are flushed where a Flush is used (R510); on a FAILED set only the drives are
released. -/
def State.diskDetach (s : State) : State :=
  match s.disk.set with
  | none => s
  | some set =>
    bif s.get dskState == 5 then s.diskRelease
    else
      let s := s.str.streams.foldl (fun s c => s.seal c.1) s
      let s := State.journalFlush set (s.disk.entries.length + 1) s
      (bif s.disk.vwc then s.emit .diskFlush else s).diskRelease

/-- DSK_DRV shows what was found (R510). -/
def State.showDrives (s : State) (l : List DriveFound) : State :=
  (l.zip (upto 16)).foldl (fun s c =>
    let s := s.put (Reg.DSK_DRV_STATE.e c.2) (if c.1.suits then 1 else 2)
    let s := s.put (Reg.DSK_DRV_CAP.e c.2) (c.1.cap / 2 ^ 30)
    s.put (Reg.DSK_DRV_INDEX.e c.2) (match readSuper c.1.block0 with
      | some x => if c.1.suits then x.2 else 0
      | none => 0)) s

/-- A set is in force. -/
def State.useSet (s : State) (set : DiskSet) (vwc : Bool) (next : Nat) : State :=
  let s := s.setDisk { s.disk with set := some set, vwc := vwc, block := next }
  ((s.put Reg.DSK_STAT_DRIVES.z set.n).put Reg.DSK_EXT_E.z set.count).freeSync

/-- FORMAT with its arguments and the controllers found (R516). -/
def State.diskFormat (s : State) (args : List Nat) (found : List DriveFound) : State :=
  let use := found.filter (·.suits)
  let jmib := args.getD 0 0
  let a1 := args.getD 1 0
  let extlog := a1 / 256 % 256
  let sulog := a1 % 256
  let c := use.foldl (fun m d => min m d.cap) ((use.head?.map (·.cap)).getD 0)
  let l := logicalLen use.length (2 ^ (16 + sulog)) c
  let top := (l - jmib * 2 ^ 20) / 2 ^ extlog
  let e := extentCount (jmib * 2 ^ 20) (2 ^ extlog) l (top / 2 ^ 19 + 64) top
  let tag := s.now
  let set : DiskSet := ⟨tag / 2 ^ 16 % 2 ^ 64, use.length, sulog, extlog, jmib, l, e⟩
  let s := s.showDrives found
  bif found.isEmpty then s.dskEnd 1
  else bif use.isEmpty then s.dskEnd 7
  else bif lt jmib 16 || lt 4096 jmib || lt extlog 26 || lt 36 extlog || lt 6 sulog || e == 0 then s.dskEnd 6
  else
    let s := (upto use.length).foldl (fun s i => s.emit (.diskWrite i 0 false (superblock set i tag))) s
    let s := (upto found.length).foldl (fun s d =>
      s.put (Reg.DSK_DRV_INDEX.e d) (if (found.getD d ⟨false, 0, false, []⟩).suits then (found.take d |>.filter (·.suits)).length else 0)) s
    let s := s.emit (.diskZero 0 set.journalBytes)
    let s := s.putLogical set false set.journalBytes ((List.replicate e Extent.reset.entry).flatten)
    ((s.useSet set (use.any (·.vwc)) 1).dskTo 3).diskFullEnd.dskEnd 0

/-- The scan of an OPEN extent from its bytes valid (R515): the end of the last accepted record and its number. -/
def scanExtent (st epoch ext : Nat) : Nat → List Byte → Nat → Nat → Nat → Nat × Nat
  | 0, _, _, stop, last => (stop, last)
  | fuel + 1, b, at_, stop, last =>
    let n := leAt b 4 4
    if leAt b 0 4 = 0 then
      let k := 4096 - at_ % 4096
      if b.length ≤ k then (stop, last) else scanExtent st epoch ext fuel (b.drop k) (at_ + k) stop last
    else if leAt b 0 2 = 0x5257 ∧ leAt b 2 1 = 1 ∧ leAt b 8 2 = st ∧ leAt b 16 4 = epoch ∧ leAt b 12 4 = (last + 1) % 2 ^ 32
      ∧ 32 ≤ n ∧ at_ + n ≤ ext ∧ n ≤ b.length ∧ leAt b 28 4 = crc32c ((b.take 28) ++ zeros 4 ++ ((b.take n).drop 32)) then
      scanExtent st epoch ext fuel (b.drop n) (at_ + n) (at_ + n) (leAt b 12 4)
    else (stop, last)

/-- The journal blocks to apply: the valid ones in ascending number up to the first missing number (R515). -/
def journalRun : List (Nat × List JEntry) → List (Nat × List JEntry)
  | a :: b :: rest => if b.1 = a.1 + 1 then a :: journalRun (b :: rest) else [a]
  | l => l

/-- Steps 2 to 5 of ATTACH (R515): table, journal, scans, seals. -/
def State.diskRecover (s : State) (set : DiskSet) (found : DiskFound) : State :=
  let table := (upto set.count).foldl (fun t k =>
    let b := (found.table.drop (64 * k)).take 64
    if crc60Ok b then tset (fun _ => Extent.reset) t k (readExtent b (leAt b 48 8)) else t) ([] : Tbl Extent)
  let blocks := journalRun ((found.journal.filterMap (readJournal set)).mergeSort (fun a b => decide (a.1 ≤ b.1)))
  let table := blocks.foldl (fun t b => b.2.foldl (fun t j =>
    if (tget (fun _ => Extent.reset) t j.ext).blk < b.1 then tset (fun _ => Extent.reset) t j.ext { j.image with blk := b.1 } else t) t) table
  let next := match blocks.getLast? with
    | some b => b.1 + 1
    | none => 1
  let s := s.useSet set ((found.drives.filter (·.suits)).any (·.vwc)) next
  let s := s.setDisk { s.disk with extents := table, durable := table }
  let s := table.foldl (fun s c =>
    bif c.2.state == 1 then
      let b := ((found.scans.find? (fun x => x.1 == c.1)).map (·.2)).getD []
      let r := scanExtent c.2.stream c.2.epoch set.extBytes (b.length + 1) b c.2.valid c.2.valid c.2.last
      s.journal 3 c.1 { c.2 with state := 2, valid := r.1, last := r.2, lastTag := s.now }
    else s) s
  let s := State.journalFlush set (s.disk.entries.length + 1) s
  s.freeSync

/-- ATTACH with what the controllers hold (R515). -/
def State.diskAttach (s : State) (found : DiskFound) : State :=
  let use := found.drives.filter (·.suits)
  let sups := use.map (fun d => readSuper d.block0)
  let s := s.showDrives found.drives
  let fail (s : State) (st : Nat) : State := (s.dskTo 0).dskEnd st
  bif found.drives.isEmpty then fail s 1
  else bif use.isEmpty then fail s 7
  else bif sups.all (·.isNone) then fail s 2
  else match sups with
    | some (set, _) :: _ =>
      let ok := sups.all (fun x => match x with
          | some y => decide (y.1 = set)
          | none => false)
        && set.n == sups.length && (upto set.n).all (fun i => sups.any (fun x => match x with
          | some y => y.2 == i
          | none => false))
      bif ok then (((s.dskTo 2).diskRecover set found).dskTo 3).diskFullEnd.dskEnd 0 else fail s 3
    | _ => fail s 3

/-- KEEP (R516): the extent becomes KEPT; an OPEN one is left by its stream at its completed data. -/
def State.diskKeep (s : State) (k : Nat) : State :=
  let owner := s.str.streams.find? (fun c => match c.2.disk with
    | some p => p.ext == k
    | none => false)
  let s := match owner with
    | some c => s.seal c.1
    | none => s
  (s.journal 5 k { s.disk.extent k with state := 3 }).dskEnd 0

/-- FREE (R516): a FULL set is READY again (R512). -/
def State.diskFree (s : State) (k : Nat) : State :=
  let s := s.journal 4 k Extent.reset
  let s := bif s.get dskState == 4 then (s.dskTo 3).diskFullEnd else s
  s.dskEnd 0

/-- READ (R516): bytes of an extent, or of the table, go to host memory. -/
def State.diskReadOut (s : State) (set : DiskSet) (args : List Nat) (data : List Byte) : State :=
  let k := args.getD 0 0
  let n := args.getD 2 0
  let size := if k = 0xFFFFFFFF then 64 * set.count else set.extBytes
  let addr := args.getD 3 0 + args.getD 4 0 * 2 ^ 32
  bif (k != 0xFFFFFFFF && le set.count k) || lt (ceilDiv size 4096) (args.getD 1 0 + n) || addr % 4096 != 0 then s.dskEnd 6
  else (s.emit (.hostWrite addr (data.take (4096 * n)))).dskEnd 0

/-- DISK_COMMAND_DONE (R515, R516): the command under way completes with what the drives gave it. -/
def execDiskCommandDone (found : DiskFound) (s : State) : Res :=
  .next <| match s.disk.cmd with
    | none => s
    | some (op, args) =>
      let k := args.getD 0 0
      bif found.error then (bif op == 1 then s.dskTo 0 else s).dskEnd 4
      else bif op == 1 then s.diskAttach found
      else bif op == 2 then s.diskFormat args found.drives
      else bif op == 3 then s.diskDetach.dskEnd 0
      else match s.disk.set with
        | none => s.dskEnd 5
        | some set =>
          bif op == 6 then s.diskReadOut set args found.data
          else bif le set.count k then s.dskEnd 6
          else bif op == 4 then s.diskKeep k
          else bif (s.disk.extent k).state == 1 then s.dskEnd 5
          else s.diskFree k

/-- DISK_DRIVE_FAIL (R517): the drive fails and the set becomes FAILED. -/
def execDiskDriveFail (d : Nat) (s : State) : Res :=
  .next <| match s.disk.set with
    | none => s
    | some _ =>
      let s := s.put (Reg.DSK_DRV_STATE.e d) 3
      bif s.get dskState == 5 then s else (s.dskTo 5).ev 488

end Sys2Proof.Machine
end

