-- ==== Sys2Proof/Machine/Net.lean ====
section
/-!
DEFINITION. The streaming Ethernet ports (16_output_streams.md R495 to R499): frames, datagrams, PAUSE, and PTP messages (03_time_base.md
R106 to R108), with the receive and transmit rings that carry them (16 R506, R508).
-/
namespace Sys2Proof.Machine

def State.strPort (s : State) (p : Nat) : StrPort := tget (fun _ => StrPort.reset) s.str.ports p
def State.setStrPort (s : State) (p : Nat) (x : StrPort) : State :=
  { s with str := { s.str with ports := tset (fun _ => StrPort.reset) s.str.ports p x } }

/-! ### Frames (R496): network byte order -/

/-- The sum of 16-bit words, an odd last byte padded with 0. -/
def sumWords : List Byte → Nat
  | a :: b :: rest => 256 * a.toNat + b.toNat + sumWords rest
  | [a] => 256 * a.toNat
  | [] => 0

/-- End-around carry into 16 bits. -/
def fold16 (x : Nat) : Nat :=
  let a := x % 65536 + x / 65536
  let b := a % 65536 + a / 65536
  b % 65536 + b / 65536

/-- The Internet checksum of a byte string. -/
def checksum (b : List Byte) : Nat := 65535 - fold16 (sumWords b)

/-- A UDP checksum, never sent as 0. -/
def udpSum (pseudo udp : List Byte) : Nat := let c := checksum (pseudo ++ udp)
                                             if c = 0 then 65535 else c

/-- A 48-bit MAC address. -/
def State.mac (s : State) (lo hi : Loc) : List Byte := beBytes 6 (s.get64 lo hi)

/-- A network entry asks for IPv6. -/
def State.netV6 (s : State) (i : Nat) : Bool := s.on (Reg.STR_NMAC_H_V6.e i)

/-- The Ethernet header of port `p` to network entry `i`. -/
def State.ethHeader (s : State) (p i : Nat) : List Byte :=
  s.mac (Reg.STR_NMAC_L_DMAC.e i) (Reg.STR_NMAC_H_DMAC.e i) ++ s.mac (Reg.STR_PMAC_L_MAC.e p) (Reg.STR_PMAC_H_MAC.e p)
    ++ (bif s.on (Reg.STR_NMAC_H_VLANEN.e i) then
          beBytes 2 0x8100 ++ beBytes 2 (s.get (Reg.STR_NMAC_H_PCP.e i) * 8192 + s.get (Reg.STR_NMISC_VID.e i))
        else [])
    ++ beBytes 2 (bif s.netV6 i then 0x86DD else 0x0800)

/-- A UDP datagram of network entry `i` from port `p` leaves, its UDP destination port moved by `d`; the IPv4 identification and
the IPv6 flow label are open (R496). -/
def State.sendUdp (s : State) (p i d : Nat) (payload : List Byte) : State :=
  let n := 8 + payload.length
  let x := s.free 20
  let s := s.took
  let word (f : Fld) (e w : Nat) : List Byte := leBytes 4 (s.get (f.e2 e w))
  let src := bif s.netV6 i then (upto 4).flatMap (word Reg.STR_PIP6_IP6 p) else beBytes 4 (s.get (Reg.STR_PIP4_IP4.e p))
  let dst := bif s.netV6 i then (upto 4).flatMap (word Reg.STR_NDIP_DIP i) else word Reg.STR_NDIP_DIP i 0
  let pseudo := src ++ dst ++ bif s.netV6 i then beBytes 4 n ++ beBytes 4 17 else beBytes 2 17 ++ beBytes 2 n
  let udp (c : Nat) : List Byte :=
    beBytes 2 (s.get (Reg.STR_NPORT_SPORT.e i)) ++ beBytes 2 (s.get (Reg.STR_NPORT_DPORT.e i) + d) ++ beBytes 2 n ++ beBytes 2 c
      ++ payload
  let ip4 (c : Nat) : List Byte :=
    u8 0x45 ++ u8 (s.get (Reg.STR_NMAC_H_DSCP.e i)) ++ beBytes 2 (20 + n) ++ beBytes 2 x ++ beBytes 2 0x4000
      ++ u8 (s.get (Reg.STR_NMISC_TTL.e i)) ++ u8 17 ++ beBytes 2 c ++ src ++ dst
  let ip6 : List Byte :=
    beBytes 4 (6 * 2 ^ 28 + s.get (Reg.STR_NMAC_H_DSCP.e i) * 2 ^ 20 + x) ++ beBytes 2 n ++ u8 17
      ++ u8 (s.get (Reg.STR_NMISC_TTL.e i)) ++ src ++ dst
  let ip := bif s.netV6 i then ip6 else ip4 (checksum (ip4 0))
  s.emit (.frame p (s.ethHeader p i ++ ip ++ udp (udpSum pseudo (udp 0))))

/-! ### Datagrams (R497 to R499) -/

/-- Pm: the largest datagram payload of port `p` to network entry `i` (R497). -/
def State.maxPayload (s : State) (p i : Nat) : Nat := s.get (Reg.STR_PCFG_MTU.e p) - (bif s.netV6 i then 40 else 20) - 8

/-- The 24-byte datagram header (R497). -/
def dgramHeader (flags st count n seq off epoch : Nat) : List Byte :=
  u16 0x4457 ++ u8 1 ++ u8 flags ++ u16 st ++ u16 count ++ u32 n ++ u32 seq ++ u32 off ++ u32 epoch

/-- The records a datagram of `room` bytes takes from the front of a queue (R498). -/
def packed (room : Nat) (p : QRec → Bool) : List QRec → List QRec
  | [] => []
  | q :: rest =>
    if p q && q.bytes.length ≤ room then q :: packed (room - q.bytes.length) p rest else []

/-- What stream `st` would send next on port `p`: the records of its next datagram, and whether it is a lone packet or
fragment (R498, R500). -/
def State.nextSend (s : State) (p st : Nat) (bad : List BadWord) : Option (List QRec × Bool) :=
  match (s.stream st).queue with
  | [] => none
  | q :: rest =>
    let room := s.maxPayload p q.net - 24
    let mine (x : QRec) : Bool := x.dest == 0 && x.sel == p && x.net == q.net && x.acked
    bif !mine q || s.get (strState st) == 3 then none
    else bif q.raw || lt 0 q.taken || lt room q.bytes.length then some ([q], true)
    else some (packed room (fun x => mine x && !x.raw && (badIn bad st x).isEmpty) (q :: rest), false)

/-- The stream has a datagram to send: a lone one, a full one, or one whose hold of PACK has ended (R498). -/
def State.sendable (s : State) (p : Nat) (due : List Nat) (bad : List BadWord) (st : Nat) : Bool :=
  match s.nextSend p st bad with
  | none => false
  | some (_, true) => true
  | some (l, false) =>
    due.contains st || (match (s.stream st).queue.drop l.length with
      | x :: _ => x.raw || lt (s.maxPayload p (match l with
          | q :: _ => q.net
          | [] => 0) - 24) (sumOf (l.map (·.bytes.length)) + x.bytes.length)
      | [] => false)

/-- The stream the weighted round robin serves next among those that can send (R499). -/
def State.serveNext (s : State) (p : Nat) (ready : List Nat) : Option Nat :=
  let x := s.strPort p
  if ready.contains x.last ∧ x.served < s.get (Reg.STR_SCFG_WT.e x.last) then some x.last
  else match ready.find? (fun st => x.last < st) with
    | some st => some st
    | none => ready.head?

/-- The port transmits: enabled, its link up, not paused, and the streams run (R495). -/
def State.portSends (s : State) (p : Nat) : Bool :=
  s.streamsRun && !s.pair.shadow && s.on (Reg.STR_PCFG_EN.e p) && s.on (Reg.STR_PSTAT_LINK.e p) &&
    (match (s.strPort p).paused with
     | some t => !serialBefore 96 s.now t
     | none => true)

/-- A frame is posted on a TX ring of port `p`; it goes ahead of stream datagrams (R499). -/
def State.txWaits (s : State) (p : Nat) : Bool :=
  (upto 256).any (fun r => s.on (Reg.HRG_CFG_EN.e r) && s.get (Reg.HRG_CFG_KIND.e r) == 2 && s.get (Reg.HRG_CFG_PORT.e r) == p
    && !s.ringEmpty r)

/-- A datagram of stream `st` leaves port `p` (R497, R498, R500, R504). -/
def State.sendDatagram (s : State) (p st : Nat) (l : List QRec) (alone : Bool) : State :=
  match l with
  | [] => s
  | q :: _ =>
    let x := s.stream st
    let epoch := s.get (Reg.STR_SEPOCH_EPOCH.e st)
    let side := s.on (Reg.STR_SCFG_VRT.e st)
    bif q.raw then (s.dequeue st q).sendUdp p q.net 0 q.bytes
    else
      let s := s.setStream st { x with dgram := (x.dgram + 1) % 2 ^ 32 }
      bif alone then
        let size := (s.maxPayload p q.net - 24) / 8 * 8
        let chunk := (q.bytes.drop q.taken).take size
        let last := le q.bytes.length (q.taken + size)
        let h := dgramHeader (1 + 2 * b2n last + 4 * b2n side) st 1 x.dgram q.seq q.taken epoch
        let s := bif last then s.dequeue st q
          else
            let y := s.stream st
            s.setStream st { y with queue := match y.queue with
              | a :: rest => { a with taken := a.taken + chunk.length } :: rest
              | [] => [] }
        s.sendUdp p q.net (b2n side) (h ++ chunk)
      else
        let h := dgramHeader (4 * b2n side) st l.length x.dgram q.seq 0 epoch
        let s := l.foldl (fun s r => s.dequeue st r) s
        s.sendUdp p q.net (b2n side) (h ++ l.flatMap (·.bytes))

/-- DATAGRAM_SEND (R498, R499): port `port` sends the next datagram of the stream it serves; `due` are the streams whose hold of
PACK µs has ended, `bad` the words that its reads find uncorrectable (R491). -/
def execDatagramSend (port : Nat) (due : List Nat) (bad : List BadWord) (s : State) : Res :=
  .next <| bif s.portSends port && !s.txWaits port then
      let s := s.str.streams.foldl (fun s e => State.checkHead bad e.1 e.2.queue.length s) s
      let ready := (s.str.streams.map (·.1)).filter (s.sendable port due bad)
      match s.serveNext port ready with
      | none => s
      | some st =>
        match s.nextSend port st bad with
        | none => s
        | some (l, alone) =>
          let x := s.strPort port
          let s := s.setStrPort port { x with last := st, served := if st = x.last then x.served + 1 else 1 }
          s.sendDatagram port st l alone
    else s

/-! ### Descriptors (R506) -/

/-- PHASE of a write-back at the present HEAD. -/
def State.ringPhase (s : State) (r : Nat) : Nat :=
  1 - s.get (Reg.HRG_STAT_HEAD.e r) / 2 ^ s.get (Reg.HRG_CFG_RLOG.e r) % 2

/-- The descriptor at HEAD is written back (R506): bytes, whole records or frames, CONT, HEAD and BAD marks, and the sequence
number; HEAD advances. -/
def State.writeBack (s : State) (r bytes whole : Nat) (cont head bad : Bool) (seq : Nat) : State :=
  let h := s.get (Reg.HRG_STAT_HEAD.e r)
  let base := s.get64 (Reg.HRG_BASE_L_BASE.e r) (Reg.HRG_BASE_H_BASE.e r)
  let flags := 1 + 2 * s.ringPhase r + 4 * b2n cont + 8 * b2n head + 16 * b2n bad
  let s := s.emit (.hostWrite (base + 32 * (h % 2 ^ s.get (Reg.HRG_CFG_RLOG.e r)) + 16)
    (u32 bytes ++ u16 whole ++ u8 flags ++ zeros 1 ++ u32 seq ++ zeros 4))
  let s := s.put (Reg.HRG_STAT_HEAD.e r) (h + 1)
  let x := s.hostRing r
  s.setHostRing r { x with unsignalled := x.unsignalled + 1 }

/-- A descriptor whose address or length breaks R506 is written back at once with BAD and 0 bytes, and EV485 is raised. -/
def State.badDescriptor (s : State) (r : Nat) : State :=
  ((s.writeBack r 0 0 false false true 0).flag (Reg.HRG_STAT_BADDESC.e r) true).ev 485

/-- The rules of R506 for a buffer; a non-zero reserved word is malformed (00 R12). -/
def bufferOk (d : HostDesc) : Bool :=
  d.addr % 64 == 0 && d.len % 4096 == 0 && le 4096 d.len && le d.len 16777216 && d.rsv == 0

/-- A ring of kind `kind` that runs. -/
def State.ringRuns (s : State) (r kind : Nat) : Bool :=
  s.on (Reg.HRG_CFG_EN.e r) && s.get (Reg.HRG_CFG_KIND.e r) == kind && !s.ringEmpty r

/-! ### PTP messages (03 R106 to R108) -/

/-- Where a frame's network layer begins, and its EtherType: behind one 802.1Q tag where there is one. -/
def etherAt (f : List Byte) : Nat × Nat :=
  if beNat ((f.drop 12).take 2) = 0x8100 then (18, beNat ((f.drop 16).take 2)) else (14, beNat ((f.drop 12).take 2))

/-- A PTP message of version 2: transport (0 Annex E, 1 UDP over IPv4, 2 UDP over IPv6), where its network layer begins, and
where it begins. -/
def ptpAt (f : List Byte) : Option (Nat × Nat × Nat) :=
  let e := etherAt f
  let port (o : Nat) : Bool := let d := beNat ((f.drop (o + 2)).take 2)
                               d == 319 || d == 320
  let v2 (o : Nat) : Bool := leAt f (o + 1) 1 % 16 == 2 && le (o + 34) f.length
  if e.2 = 0x88F7 then (if v2 e.1 then some (0, e.1, e.1) else none)
  else if e.2 = 0x0800 then
    let u := e.1 + 4 * (leAt f e.1 1 % 16)
    if leAt f (e.1 + 9) 1 = 17 ∧ port u ∧ v2 (u + 8) then some (1, e.1, u + 8) else none
  else if e.2 = 0x86DD then
    if leAt f (e.1 + 6) 1 = 17 ∧ port (e.1 + 40) ∧ v2 (e.1 + 48) then some (2, e.1, e.1 + 48) else none
  else none

/-- messageType, domainNumber and sequenceId of a PTP message at `o`. -/
def ptpType (f : List Byte) (o : Nat) : Nat := leAt f o 1 % 16
def ptpDomain (f : List Byte) (o : Nat) : Nat := leAt f (o + 4) 1
def ptpSeq (f : List Byte) (o : Nat) : Nat := beNat ((f.drop (o + 30)).take 2)

/-- The transport is enabled in PTP_CFG (03 R106). -/
def State.ptpEnabled (s : State) (p transport : Nat) : Bool :=
  if transport = 0 then s.on (Reg.PTP_CFG_L2.e p) else if transport = 1 then s.on (Reg.PTP_CFG_UDP4.e p)
  else s.on (Reg.PTP_CFG_UDP6.e p)

/-- `x` picoseconds in units of 2⁻⁴⁸ s. -/
def ps48 (x : Nat) : Nat := (rndDiv ((x : Int) * 2 ^ 48) 1000000000000).toNat

/-- A frame accepted under 03 R106. -/
def State.ptpAccepted (s : State) (p : Nat) (f : List Byte) : Bool :=
  s.on (Reg.PTP_CFG_RX_EN.e p) && (match ptpAt f with
    | some m => s.ptpEnabled p m.1
    | none => false)

/-- The RX ring of a port. -/
def State.rxRing (s : State) (p : Nat) : Option Nat :=
  (upto 256).find? (fun r => s.on (Reg.HRG_CFG_EN.e r) && s.get (Reg.HRG_CFG_KIND.e r) == 1 && s.get (Reg.HRG_CFG_PORT.e r) == p)

/-- A received frame is dropped (R508, EV491). -/
def State.rxDrop (s : State) (p : Nat) : State := (s.count (Reg.STR_PSTAT_RXDROP.e p) 1).ev 491

/-- A received frame goes into the next good buffer of ring `r` (R508); with none posted it is dropped. `descs` are the descriptors that
host memory holds from HEAD on. A frame longer than the buffer is dropped, the buffer staying posted (DESIGN CHOICE, log 70). -/
def State.rxDeliver (s : State) (p r : Nat) (bytes : List Byte) : List HostDesc → State
  | [] => s.rxDrop p
  | d :: rest =>
    bif s.ringEmpty r then s.rxDrop p
    else bif !bufferOk d then State.rxDeliver (s.badDescriptor r) p r bytes rest
    else bif lt d.len bytes.length then s.rxDrop p
    else (s.emit (.hostWrite d.addr bytes)).writeBack r bytes.length 1 false false false 0

/-- An accepted PTP frame with its receive tag is delivered (03 R106, R508). -/
def State.rxPtp (s : State) (p stamp : Nat) (f : List Byte) (descs : List HostDesc) : State :=
  let tag := tagAdd stamp (-(ps48 (s.get (Reg.PTP_RXLAT_LAT.e p)) : Nat))
  let prefix_ := u8 p ++ zeros 1 ++ u16 f.length ++ u96 tag ++ u16 (s.tq false false) ++ zeros 14
  match s.rxRing p with
  | some r => s.rxDeliver p r (prefix_ ++ f) descs
  | none => s.rxDrop p

/-- PTP_EVENT_RX (03 R106): a PTP event message arrives on a streaming port. -/
def execPtpEventRx (port stamp : Nat) (frame : List Byte) (descs : List HostDesc) (s : State) : Res :=
  .next <| match ptpAt frame with
    | some m => bif s.on (Reg.STR_PSTAT_LINK.e port) && le (ptpType frame m.2.2) 3 && s.ptpAccepted port frame
        then s.rxPtp port stamp frame descs else s
    | none => s

/-- An IEEE 802.3 PAUSE frame's quanta. -/
def pauseQuanta (f : List Byte) : Option Nat :=
  if beNat ((f.drop 12).take 2) = 0x8808 ∧ beNat ((f.drop 14).take 2) = 1 then some (beNat ((f.drop 16).take 2)) else none

/-- ETH_FRAME_RX (R495): a frame received on a streaming port. -/
def execEthFrameRx (port stamp : Nat) (frame : List Byte) (descs : List HostDesc) (s : State) : Res :=
  .next <| bif !s.on (Reg.STR_PSTAT_LINK.e port) then s
    else match pauseQuanta frame with
    | some q =>
      bif s.on (Reg.STR_PCFG_PAUSE.e port) then
        s.setStrPort port { s.strPort port with paused := some (tagAdd s.now (rndDiv ((q : Int) * 512 * 2 ^ 48) 400000000000)) }
      else s
    | none =>
      bif s.ptpAccepted port frame then s.rxPtp port stamp frame descs
      else s.count (Reg.STR_PSTAT_RXDROP.e port) 1

/-- PORT_LINK_CHANGE (R521): a port's link comes up, which takes an enabled port, or goes down. -/
def execPortLinkChange (port : Nat) (up : Bool) (s : State) : Res :=
  .next <| bif s.on (Reg.STR_PSTAT_LINK.e port) == up || (up && !s.on (Reg.STR_PCFG_EN.e port)) then s
    else
      let s := s.setStrPort port { s.strPort port with paused := none }
      (s.flag (Reg.STR_PSTAT_LINK.e port) up).ev 483

/-- The FIFO of port `p`, oldest first. -/
def State.ptpFifo (s : State) (p : Nat) : List PtpEntry := tget (fun _ => []) s.tb.ptpFifo p

/-- PTP_TXH and PTP_TXST show the head entry (03 R107). -/
def State.ptpHead (s : State) (p : Nat) : State :=
  let e := (s.ptpFifo p).head?.getD ⟨0, 0, 0, 0⟩
  let s := s.put96 (Reg.PTP_TXH0_TAG.e p) (Reg.PTP_TXH1_TAG.e p) (Reg.PTP_TXH2_TAG.e p) e.tag
  let s := (s.put (Reg.PTP_TXST_SEQID.e p) e.seqId).put (Reg.PTP_TXST_DOMAIN.e p) e.domain
  (s.put (Reg.PTP_TXST_MSGTYPE.e p) e.msgType).flag (Reg.PTP_TXST_VALID.e p) (!(s.ptpFifo p).isEmpty)

/-- The FIFO of port `p` holds `l`. -/
def State.setPtpFifo (s : State) (p : Nat) (l : List PtpEntry) : State :=
  ({ s with tb := { s.tb with ptpFifo := tset (fun _ => []) s.tb.ptpFifo p l } }).ptpHead p

/-- An entry for which the FIFO of port `p` has no room is discarded and counted (03 R107). -/
def State.ptpDrop (s : State) (p : Nat) : State :=
  let n := tget (fun _ => 0) s.tb.ptpLost p
  { s with tb := { s.tb with ptpLost := tset (fun _ => 0) s.tb.ptpLost p (n + 1) } }.flag (Reg.PTP_TXST_OVF.e p) true

/-- The transmit tag of an event message that left at `stamp` (03 R106). -/
def State.txTag (s : State) (p stamp : Nat) : Nat := tagAdd stamp (ps48 (s.get (Reg.PTP_TXLAT_LAT.e p)))

/-- The port writes the transmit time into Sync messages as they leave (03 R107). -/
def State.oneStep (s : State) (p : Nat) (f : List Byte) : Bool :=
  s.on (Reg.PTP_CFG_TX_EN.e p) && s.on (Reg.PTP_CFG_ONESTEP.e p) && (match ptpAt f with
    | some m => s.ptpEnabled p m.1 && ptpType f m.2.2 == 0 && le (m.2.2 + 44) f.length
    | none => false)

/-- PTP_TX_TIMESTAMP (03 R107): the transmit tag of an event message enters the port's FIFO. -/
def execPtpTxTimestamp (port stamp : Nat) (frame : List Byte) (s : State) : Res :=
  .next <| match ptpAt frame with
    | none => s
    | some m =>
      bif s.on (Reg.PTP_CFG_TX_EN.e port) && s.ptpEnabled port m.1 && le (ptpType frame m.2.2) 3 && !s.oneStep port frame then
        let l := s.ptpFifo port
        bif le 64 l.length then (s.ptpDrop port).ev 26
        else
          let e : PtpEntry := ⟨s.txTag port stamp, ptpType frame m.2.2, ptpDomain frame m.2.2, ptpSeq frame m.2.2⟩
          let s := s.setPtpFifo port (l ++ [e])
          bif l.isEmpty then s.ev 25 else s
      else s

/-- PTP_POP (03 R107): the head entry is removed. -/
def execPtpPop (port : Nat) (s : State) : Res := .next (s.setPtpFifo port ((s.ptpFifo port).drop 1))

/-- `b` with the bytes from `i` on replaced by `v`. -/
def splice (i : Nat) (v b : List Byte) : List Byte := b.take i ++ v ++ b.drop (i + v.length)

/-- A tag as a PTP timestamp: seconds, nanoseconds, and the remainder in units of 2⁻¹⁶ ns (03 R108). -/
def ptpTime (tag : Nat) : Nat × Nat × Nat :=
  let f := (rnd ((tag % 2 ^ 48 : Nat) * 1000000000) 32).toNat
  let whole := 1000000000 * 65536
  (tag / 2 ^ 48 + f / whole, f % whole / 65536, f % 65536)

/-- A one-step Sync with its transmit time, and the UDP checksum computed anew (03 R107, R108). -/
def stampSync (tag : Nat) (f : List Byte) : List Byte :=
  match ptpAt f with
  | none => f
  | some (tr, l3, o) =>
    let t := ptpTime tag
    let corr := beNat ((f.drop (o + 8)).take 8) + t.2.2
    let f := splice (o + 8) (beBytes 8 corr) f
    let f := splice (o + 34) (beBytes 6 t.1 ++ beBytes 4 t.2.1) f
    if tr = 0 then f
    else
      let u := o - 8
      let n := beNat ((f.drop (u + 4)).take 2)
      let f := splice (u + 6) (zeros 2) f
      let udp := (f.drop u).take n
      let addrs := if tr = 1 then (f.drop (l3 + 12)).take 8 else (f.drop (l3 + 8)).take 32
      let pseudo := addrs ++ (if tr = 1 then beBytes 2 17 ++ beBytes 2 n else beBytes 4 n ++ beBytes 4 17)
      splice (u + 6) (beBytes 2 (udpSum pseudo udp)) f

/-- TX_FRAME_SEND (R508): the frame named by the TX descriptor at HEAD (its contents in host memory) leaves the port at `stamp`, and
DONE is written back. -/
def execTxFrameSend (r : Nat) (desc : HostDesc) (stamp : Nat) (frame : List Byte) (s : State) : Res :=
  let p := s.get (Reg.HRG_CFG_PORT.e r)
  .next <| bif s.ringRuns r 2 then
      bif desc.addr % 64 != 0 || lt desc.len 60 || lt (s.get (Reg.STR_PCFG_MTU.e p) + 18) desc.len || desc.rsv != 0
        then s.badDescriptor r
      else bif s.portSends p then
        let f := frame.take desc.len
        let f := bif s.oneStep p f then stampSync (s.txTag p stamp) f else f
        (s.emit (.frame p f)).writeBack r 0 1 false false false 0
      else s
    else s

end Sys2Proof.Machine
end

