-- ==== Sys2Proof/Machine/Rings.lean ====
section
/-!
DEFINITION. The host rings (16_output_streams.md R506, R507, R509): posting descriptors, filling and writing back buffers, messages.
-/
namespace Sys2Proof.Machine

/-- HRG_TAIL_WRITE (R506): effective when at most 2^RLOG descriptors are then posted. -/
def execHrgTailWrite (r v : Nat) (s : State) : Res :=
  let posted := (v + 65536 - s.get (Reg.HRG_STAT_HEAD.e r)) % 65536
  .next <| bif le posted (2 ^ s.get (Reg.HRG_CFG_RLOG.e r)) then (s.put (Reg.HRG_TAIL_TAIL.e r) v).ringStarve r
    else s.bad .streams

/-- A buffer being filled (R507): bytes, whole records, first sequence number, CONT and HEAD. -/
structure Fill where
  data : List Byte
  whole : Nat
  seq : Option Nat
  cont : Bool
  head : Bool

/-- The record at the head of stream `st` that ring `r` may take. -/
def State.ringHead (s : State) (r st : Nat) (bad : List BadWord) : Option QRec :=
  match (s.stream st).queue with
  | q :: _ => if q.dest = 1 ∧ q.sel = r ∧ q.acked ∧ (0 < q.taken ∨ (badIn bad st q).isEmpty) then some q else none
  | [] => none

/-- The buffer takes bytes of the head record of stream `st` (R507). -/
def State.fillFrom (s : State) (r len st : Nat) (bad : List BadWord) (b : Fill) : State × Fill :=
  match s.ringHead r st bad with
  | none => (s, b)
  | some q =>
    let room := len - b.data.length
    bif room == 0 || b.cont then (s, b)
    else
      let rest := q.bytes.drop q.taken
      let b2 : Fill := { b with data := b.data ++ rest.take room, seq := some (b.seq.getD q.seq),
                                head := b.head || (lt 0 q.taken && b.data.isEmpty) }
      bif le rest.length room then (s.dequeue st q, { b2 with whole := b2.whole + b2n (q.taken == 0) })
      else
        let x := s.stream st
        (s.setStream st { x with queue := match x.queue with
           | a :: l => { a with taken := a.taken + room } :: l
           | [] => [] }, { b2 with cont := true })

/-- The stream whose record the ring's last buffer ended inside. -/
def State.ringCont (s : State) (r : Nat) : Option Nat :=
  (s.str.streams.find? (fun e => match e.2.queue with
    | q :: _ => q.dest == 1 && q.sel == r && lt 0 q.taken
    | [] => false)).map (·.1)

/-- HOST_BUFFER_WRITEBACK (R507): the buffer of the descriptor at HEAD, as host memory holds it, is filled and written back: full, or
FLUSH µs after its first byte. `picks` names, record by record, the stream the ring takes next; `bad` the words that its reads find
uncorrectable (R491). -/
def execHostBufferWriteback (r : Nat) (desc : HostDesc) (picks : List Nat) (bad : List BadWord) (s : State) : Res :=
  .next <| bif s.streamsRun && !s.pair.shadow && s.ringRuns r 0 then
      bif !bufferOk desc then (s.badDescriptor r).ringStarve r
      else
        let l := (s.ringCont r).toList ++ picks
        let s := l.foldl (fun s st => State.checkHead bad st (s.stream st).queue.length s) s
        let f := l.foldl (fun a st => a.1.fillFrom r desc.len st bad a.2) (s, (⟨[], 0, none, false, false⟩ : Fill))
        bif f.2.data.isEmpty then f.1
        else
          ((f.1.emit (.hostWrite desc.addr f.2.data)).writeBack r f.2.data.length f.2.whole f.2.cont f.2.head false
            (f.2.seq.getD 0)).ringStarve r
    else s

/-- HOST_RING_INTERRUPT (R507): vector VEC is sent after MODCNT write-backs, or MODUS µs after the first one not signalled. -/
def execHostRingInterrupt (r : Nat) (s : State) : Res :=
  let x := s.hostRing r
  .next <| bif le (s.get (Reg.HRG_MOD_MODCNT.e r)) x.unsignalled || (s.get (Reg.HRG_MOD_MODUS.e r) != 0 && lt 0 x.unsignalled) then
      (s.setHostRing r { x with unsignalled := 0 }).sendMsix (s.get (Reg.HRG_CFG_VEC.e r))
    else s

/-- Every host ring stops at its next descriptor boundary (R509): descriptors consumed are abandoned, HEAD and TAIL become 0. -/
def State.ringsStop (s : State) : State :=
  (upto 256).foldl (fun s r =>
    bif s.get (Reg.HRG_STAT_HEAD.e r) == 0 && s.get (Reg.HRG_TAIL_TAIL.e r) == 0 then s
    else ((s.put (Reg.HRG_STAT_HEAD.e r) 0).put (Reg.HRG_TAIL_TAIL.e r) 0).ringStarve r) s

/-- BUS_MASTER_DISABLE (R509). -/
def execBusMasterDisable (s : State) : Res := .next s.ringsStop

/-- Descriptors posted and not consumed are written back with DONE and 0 bytes, and the ring restarts (R519). -/
def State.ringRestart (s : State) (r : Nat) : State :=
  let n := (s.get (Reg.HRG_TAIL_TAIL.e r) + 65536 - s.get (Reg.HRG_STAT_HEAD.e r)) % 65536
  let s := (upto n).foldl (fun s _ => s.writeBack r 0 0 false false false 0) s
  (s.put (Reg.HRG_STAT_HEAD.e r) 0).put (Reg.HRG_TAIL_TAIL.e r) 0

end Sys2Proof.Machine
end

