-- ==== Sys2Proof/Machine/Vrt.lean ====
section
/-!
DEFINITION. VITA 49.2 packets of tuner streams (16_output_streams.md R500 to R504) with the thinning of 08_tuners.md R254.
-/
namespace Sys2Proof.Machine

/-- The rational `num` ÷ `den` Hz in units of 2⁻²⁰ Hz, rounded convergently (R503). -/
def hz20 (num : Int) (den : Nat) : Int := rndDiv (num * 2 ^ 20) (max den 1 : Nat)

/-- A sample in the packet's format (R501), as bits, most significant first. -/
def bitsBE (n : Nat) (x : Int) : List Bool := (upto n).map (fun i => bit (toU n x) (n - 1 - i))

/-- Bits packed into bytes, most significant first. -/
def packBits : Nat → List Bool → List Byte
  | 0, _ => []
  | n + 1, l => BitVec.ofNat 8 ((l.take 8 ++ List.replicate (8 - (l.take 8).length) false).foldl (fun a b => 2 * a + b2n b) 0)
      :: packBits n (l.drop 8)

/-- The payload of a data packet: I before Q, zero-padded to a whole word (R501). -/
def vrtPayload (w : Nat) (l : List TunOut) : List Byte :=
  let b := l.flatMap (fun o => bitsBE w o.v.1 ++ bitsBE w o.v.2)
  packBits (4 * ceilDiv b.length 32) b

/-- TSI and TSF of a tag (R500): integer seconds, and picoseconds rounded convergently with a carry into the seconds. -/
def vrtStamp (tag : Nat) : List Byte :=
  let ps := (rnd ((tag % 2 ^ 48 : Nat) * 1000000000000) 48).toNat
  beBytes 4 (tag / 2 ^ 48 + ps / 1000000000000) ++ beBytes 8 (ps % 1000000000000)

/-- A packet's header word (R500): type, trailer bit, TSI 0b11, TSF 0b10, count and size in words. -/
def vrtHeader (type trailer count words : Nat) : List Byte :=
  beBytes 4 (type * 2 ^ 28 + trailer * 2 ^ 26 + 3 * 2 ^ 22 + 2 * 2 ^ 20 + count % 16 * 2 ^ 16 + words)

/-- The indicators of R502 at their places, with their enables. -/
def vrtState (tq : Nat) (valid sat loss : Bool) : Nat :=
  0xE3000000 + b2n (bit tq 4 && bit tq 3) * 2 ^ 19 + b2n valid * 2 ^ 18 + b2n (bits tq 1 2 == 0) * 2 ^ 17 + b2n sat * 2 ^ 13
    + b2n loss * 2 ^ 12

/-- Output `o` continues the packet whose last output is `p`: of one series of the stream path, for one stream. -/
def continues (p o : TunOut) : Bool := o.path == p.path && o.e == p.e + 1 && o.dest == p.dest

/-- The outputs of the next data packet: at most `n`, consecutive, of one series (R501). -/
def vrtGroup : Nat → List TunOut → List TunOut
  | 0, _ => []
  | _, [] => []
  | _, [o] => [o]
  | n + 1, o :: p :: rest => if continues o p ∧ 0 < n then o :: vrtGroup n (p :: rest) else [o]

/-- The packet closes: full, or the next output does not continue it, or 10 µs have passed (R501). -/
def vrtCloses (spp : Nat) (timeout : Bool) (l : List TunOut) : Bool :=
  let g := vrtGroup spp l
  !g.isEmpty && (timeout || le spp g.length || lt g.length l.length)

/-- The stream that output `o` is for (08 R253, R259). -/
def TunOut.stream (o : TunOut) : Nat := bits o.dest 0 12

/-- The context fields that apply to outputs `g` (R503): bandwidth, tuned frequency, sample rate, state, payload format. -/
def vrtFields (last : List Nat) (g : List TunOut) (loss : Bool) : List Nat :=
  match g with
  | [] => last
  | o :: _ =>
    let bw := hz20 (o.fout.1 * (if o.shaped then 80 else 72) : Nat) (o.fout.2 * 100)
    let w := fmtBits o.ofmt
    let st := vrtState o.tq (g.all (fun p => !p.part)) (g.any (·.sat)) loss
    [toU 64 bw, toU 64 o.freq, toU 64 (hz20 o.fout.1 o.fout.2), st, (b2n (w == 12) * 2 ^ 31 + 2 ^ 29 + (w - 1) * 2 ^ 6 + (w - 1)) * 2 ^ 32]

/-- A VITA packet of tuner `t` closes for stream `st`; its number carries the position of its first sample (23 R676). -/
def State.vrtClose (s : State) (t st e : Nat) (b : List Byte) : State := s.close st ⟨0x40, 5, t + 256 * e, b⟩

/-- A context packet (R503) for the outputs `g`. -/
def State.vrtContext (s : State) (t : Nat) (g : List TunOut) (fields : List Nat) (changed : Bool) : State :=
  match g with
  | [] => s
  | o :: _ =>
    let x := s.tuner t
    let cif := b2n changed * 2 ^ 31 + 2 ^ 29 + 2 ^ 28 + 2 ^ 21 + 2 ^ 16 + 2 ^ 15
    let f (i : Nat) : Nat := fields.getD i 0
    let b := vrtHeader 4 0 x.vrtCtx 15 ++ beBytes 4 (s.get (Reg.STR_SSID_SID.e o.stream)) ++ vrtStamp o.tag
      ++ beBytes 4 cif ++ beBytes 8 (f 0) ++ beBytes 8 (f 1) ++ beBytes 8 (f 2) ++ beBytes 4 (f 3) ++ beBytes 8 (f 4)
    (s.setTuner t { x with vrtCtx := (x.vrtCtx + 1) % 16, ctxLast := fields }).vrtClose t o.stream o.e b

/-- The next output of the tuner for a stream with VRT = 1 (R483, R500), with that stream. -/
def State.vrtNextOut (s : State) (t : Nat) : Option (TunOut × Nat) :=
  ((s.tuner t).strOuts.head?.map (fun o => (o, o.stream))).filter (fun p => s.on (Reg.STR_SCFG_VRT.e p.2))

/-- A series of the stream path starts with output `o` (R503, 08 R254). -/
def Tuner.starts (x : Tuner) (o : TunOut) : Bool := x.vrtPath != some o.path

/-- At the start of a series of the stream path, data packets are numbered from 0 again; a thinning to come in the series begins at a
packet whose number it keeps (08 R254). -/
def State.vrtSeries (s : State) (t : Nat) (o : TunOut) : State :=
  let x := s.tuner t
  let x := bif x.starts o then { x with vrtPath := some o.path, vrtData := 0, vrtNext := none, packet := 0, thin := o.thin } else x
  s.setTuner t (match x.thinNext with
    | some (p, k) => if p = o.path ∧ x.packet % 2 ^ k = 0 then { x with thin := k, thinNext := none } else x
    | none => x)

/-- The first sample of the next data packet does not follow the last one sent (R502). -/
def Tuner.vrtLoss (x : Tuner) (o : TunOut) : Bool :=
  match x.vrtNext with
  | some e => e != o.e
  | none => false

/-- VRT_DATA_PACKET (R501, R502): the next data packet of tuner `t` closes; `timeout`: 10 µs have passed since its first sample.
A packet that the ladder thins is discarded whole (08 R254). -/
def execVrtDataPacket (t : Nat) (timeout : Bool) (s : State) : Res :=
  .next <| match s.vrtNextOut t with
    | none => s
    | some (o, st) =>
      let spp := s.get (Reg.STR_SXCFG_SPP.e st)
      bif vrtCloses spp timeout (s.tuner t).strOuts then
        let g := vrtGroup spp (s.tuner t).strOuts
        let starts := (s.tuner t).starts o
        let s := s.vrtSeries t o
        let x := s.tuner t
        let b := x.packet
        let s := s.setTuner t { x with strOuts := x.strOuts.drop g.length, packet := b + 1 }
        let pay := vrtPayload (fmtBits o.ofmt) g
        let words := 6 + pay.length / 4
        bif b % 2 ^ x.thin != 0 then
          let l := s.ladder st
          (s.setLadder st { l with discs := l.discs + 1, bytes := l.bytes + 4 * words }).count (Reg.REC_LSTAT_DISC.e st) 1
        else
          let fields := vrtFields x.ctxLast g (x.vrtLoss o)
          let s := bif starts || fields != x.ctxLast then s.vrtContext t g fields true else s
          let x := s.tuner t
          let s := s.setTuner t { x with vrtData := (x.vrtData + 1) % 16, vrtNext := some (o.e + g.length) }
          s.vrtClose t st o.e (vrtHeader 1 1 x.vrtData words ++ beBytes 4 (s.get (Reg.STR_SSID_SID.e st)) ++ vrtStamp o.tag ++ pay
            ++ beBytes 4 (fields.getD 3 0))
      else s

/-- VRT_CONTEXT_PACKET (R503): a context packet for the next data packet: at a series start, on a change, or as a periodic
repeat. -/
def execVrtContextPacket (t : Nat) (s : State) : Res :=
  .next <| match s.vrtNextOut t with
    | none => s
    | some (o, st) =>
      let starts := (s.tuner t).starts o
      let s := s.vrtSeries t o
      let x := s.tuner t
      let g := vrtGroup (s.get (Reg.STR_SXCFG_SPP.e st)) x.strOuts
      let fields := vrtFields x.ctxLast g (x.vrtLoss o)
      s.vrtContext t g fields (starts || fields != x.ctxLast)

end Sys2Proof.Machine
end

