-- ==== Sys2Proof/Machine/Streams.lean ====
section
/-!
DEFINITION. The commit of the streams block (16_output_streams.md R519) and the epochs of streams (R486).
-/
namespace Sys2Proof.Machine

/-- The words of a stream descriptor, and of a host ring. -/
def streamFields : List Fld := [Reg.STR_SCFG_EN, Reg.STR_SXCFG_SPP, Reg.STR_SSID_SID]
def ringFields : List Fld := [Reg.HRG_CFG_EN, Reg.HRG_BASE_L_BASE, Reg.HRG_BASE_H_BASE, Reg.HRG_MOD_MODCNT]

/-- Element `i` of the fields differs between the banks. -/
def State.elemChanged (s : State) (b : Blk) (fs : List Fld) (i : Nat) : Bool :=
  (s.bankOffsets b).any (fun o => ofElem fs i o && s.wordChanged b o)

/-- The elements of the fields that differ between the banks. -/
def State.changedElems (s : State) (b : Blk) (fs : List Fld) : List Nat :=
  (((s.bankOffsets b).filter (s.wordChanged b)).filterMap (fun o =>
    (fs.find? (fun f => f.covers o)).bind (fun f => (elemIdx f.dims (o - f.off)).head?))).eraseDups

/-- A stream enabled from OFF takes its epoch and its first sequence number (R486). -/
def State.streamStart (s : State) (st : Nat) : State :=
  let e := s.get Reg.STR_EPOCHNEXT_EPOCH.z
  let s := s.put Reg.STR_EPOCHNEXT_EPOCH.z (e / 65536 * 65536 + (e + 1) % 65536)
  let s := (s.put (Reg.STR_SEPOCH_EPOCH.e st) e).put (Reg.STR_SSEQ_SEQ.e st) 0
  let s := (s.setStream st { Stream.reset with loss := (s.stream st).loss }).strTo st 1
  let s := s.fillSync st
  let s := bif s.ordering then s.sendReliable 0x12 (u16 st ++ u32 e ++ u32 0) else s
  s.declareDue st

/-- Every stream and ring has swapped: EV490 (R519). -/
def State.strDone (s : State) : State :=
  bif s.maySwap .streams && s.str.left.isEmpty && s.str.ringsLeft.isEmpty then
    (((s.swapWhere .streams (fun _ => true)).flag Reg.STR_STAT_SWPEND.z false).ev 490).swapDone .streams
  else s

/-- A change of QLOG allocates a new queue; the old one drains first (R519). -/
def State.newQueue (s : State) (st old : Nat) : State :=
  let x := s.stream st
  bif s.get (Reg.STR_SCFG_QLOG.e st) == old || x.queue.isEmpty then s
  else s.setStream st { x with line := x.line + 1, olds := x.olds ++ [(x.line, old)] }

/-- Stream `st` swaps at its record boundary (R519). A FAILED stream that is disabled leaves FAILED for DRAINING, its loss declared
(DEDUCED, log 70). -/
def State.streamSwap (s : State) (st : Nat) : State :=
  let old := s.get (Reg.STR_SCFG_QLOG.e st)
  let s := (s.swapWhere .streams (ofElem streamFields st)).newQueue st old
  let s := { s with str := { s.str with left := s.str.left.filter (· ≠ st) } }
  let v := s.get (strState st)
  let s := bif s.on (Reg.STR_SCFG_EN.e st) then
      bif v == 0 then s.streamStart st
      else bif v == 4 then s.strTo st (if (s.stream st).waiting.isEmpty then 1 else 2)
      else s
    else bif v == 0 then s else bif v == 3 then s.leaveFailed st 4 else s.strTo st 4
  (s.fillSync st).declareDue st

/-- Ring `r` swaps at its descriptor boundary; a change of BASE or RLOG restarts it (R519). -/
def State.ringSwap (s : State) (r : Nat) : State :=
  let b := s.stagedView .streams
  let restart := b.get (Reg.HRG_CFG_RLOG.e r) != s.get (Reg.HRG_CFG_RLOG.e r)
    || b.get (Reg.HRG_BASE_L_BASE.e r) != s.get (Reg.HRG_BASE_L_BASE.e r)
    || b.get (Reg.HRG_BASE_H_BASE.e r) != s.get (Reg.HRG_BASE_H_BASE.e r)
  let s := bif restart then s.ringRestart r else s
  let s := s.swapWhere .streams (ofElem ringFields r)
  ({ s with str := { s.str with ringsLeft := s.str.ringsLeft.filter (· ≠ r) } }).ringStarve r

/-- STREAM_SWAP (R519): stream `e`, or host ring `e`, swaps at its boundary. -/
def execStreamSwap (e : Nat) (ring : Bool) (s : State) : Res :=
  .next <| bif s.maySwap .streams then
      bif ring then (bif s.str.ringsLeft.contains e then (s.ringSwap e).strDone else s)
      else bif s.str.left.contains e then (s.streamSwap e).strDone else s
    else s

/-- The commit's instant arrives (R519): network entries, port settings and the disk writer's change at once; a change of AUI8
or EN retrains a port's link; DSK_CFG.EN = 0 performs DETACH. -/
def State.strCommit (s : State) : State :=
  bif s.adm.named.contains .streams then
    let left := s.changedElems .streams streamFields
    let rings := s.changedElems .streams ringFields
    let b := s.stagedView .streams
    let retrain := (upto 8).filter (fun p => b.on (Reg.STR_PCFG_EN.e p) != s.on (Reg.STR_PCFG_EN.e p)
      || b.on (Reg.STR_PCFG_AUI8.e p) != s.on (Reg.STR_PCFG_AUI8.e p))
    let was := s.on Reg.DSK_CFG_EN.z
    let s := s.swapWhere .streams (fun o => !streamFields.any (·.covers o) && !ringFields.any (·.covers o))
    let s := retrain.foldl (fun s p => bif s.on (Reg.STR_PSTAT_LINK.e p) then
      (s.flag (Reg.STR_PSTAT_LINK.e p) false).ev 483 else s) s
    let s := bif was && !s.on Reg.DSK_CFG_EN.z then s.diskDetach else s
    ({ s with str := { s.str with left := left, ringsLeft := rings } }).strDone
  else s

end Sys2Proof.Machine
end

