-- ==== Sys2Proof/Machine/Commit.lean ====
section
/-!
DEFINITION. An accepted commit at its instant (19_admission_and_configuration.md R570, R583, R585): what is placed, which blocks
wait for their boundaries, and how blocks that stop swap at an entry to Watch or Sleep.
-/
namespace Sys2Proof.Machine

/-- What a command leaves, as a step of a longer operation. -/
def State.via (s : State) (f : State → Res) : State :=
  match f s with
  | .next t => t
  | _ => s

/-! ### Placement (15 R462, R577, 07 R209) -/

/-- The bytes of `len` from `a` on are discarded. -/
def Memory.discard (m : Memory) (a len : Nat) : Memory := m.filter (fun e => !(le a e.1 && lt e.1 (a + len)))

/-- The bytes of `len` from `a` on are lost. -/
def State.forget (s : State) (a len : Nat) : State := { s with mem := Memory.discard s.mem a len }

/-- The HBM regions take their places; a region that changes its size loses its contents, but for the stream queues, the rings
and the recorder area, which have rules of their own (15 R462, 16 R519, 10 R322). -/
def State.placeRegions (s : State) (l : List (Nat × Nat)) : State :=
  ((upto l.length).zip l).foldl (fun s p =>
    let r := p.1
    let lost := (r == 0 || r == 3) && s.get (regionSize r) != p.2.2
    let s := bif lost then s.forget (s.regBase r) (s.regSize r) else s
    (s.put (regionBase r) p.2.1).put (regionSize r) p.2.2) s

/-- The detector stores take their places: DVW_STAT.GAL, and DET_SRAM with the stores of views that have not swapped or drained. -/
def State.placeDetector (s : State) (l : List (Nat × Nat × Nat)) : State :=
  let s := l.foldl (fun s p => s.put (Reg.DVW_STAT_GAL.e p.1) p.2.1) s
  let old := s.det.stores.filter (fun p => !l.any (fun q => q.1 == p.1) && s.on (Reg.DVW_CTRL_EN.e p.1))
  { s with det := { s.det with stores := l ++ old } }.storeSync

/-! ### Ladders (10 R322) -/

/-- Streams whose REC_LCFG the commit changes, or whose producers change their destination. -/
def State.ladderChanged (s : State) : List Nat :=
  let b : BankView := ⟨fun o => match blkAt o with
    | some k => bif k.banked then s.word (o + k.half) else s.word o
    | none => 0, 0⟩
  let live : BankView := ⟨s.word, 0⟩
  let lcfg := (s.enabledStreams).filter (fun st => s.wordChanged .recorder (Reg.REC_LCFG_EN.e st).off)
  let dest (on en st : Fld) (k : Nat) (v : BankView) : Option Nat :=
    bif v.on (on.e k) && v.on (en.e k) then some (v.get (st.e k)) else none
  let moved (on en st : Fld) (k : Nat) : List Nat :=
    let x := dest on en st k live
    let y := dest on en st k b
    if x = y then [] else x.toList ++ y.toList
  (lcfg ++ (upto 1024).flatMap (moved Reg.DVW_CTRL_EN Reg.DVW_DEST_SEN Reg.DVW_DEST_STREAM)
    ++ (upto 256).flatMap (moved Reg.TUN_CTRL_EN Reg.TUN_DEST_SEN Reg.TUN_DEST_STREAM)).eraseDups

/-! ### The instant (R570, R583) -/

/-- A commit of the clock: the walker has a new target, and every block takes the new generation. FLIVE takes a lower FSTAGE at once, a
higher one when the running clock reaches it (20 R601). -/
def State.clockCommit (s : State) (f : Nat) : State :=
  let s := bif lt f (s.get Reg.ADM_CLK_FLIVE.z) || le (25000000 * f) s.fcore then s.put Reg.ADM_CLK_FLIVE.z f else s
  let s := (({ s with adm := { s.adm with fcommit := f, clock := none } }.retarget).degrSync).xspPlan
  s.adm.named.foldl (fun s b => (State.pend false s b).swapDone b) s

/-- The commit's instant arrives (R583): every block not named takes the new generation, what the check placed takes its place,
and the named blocks begin to swap at their boundaries; tiles of ADM_XTILES are armed (12 R398). -/
def State.takeInstant (s : State) : State :=
  let s := s.put Reg.ADM_STAT_STATE.z 3
  let s := { s with adm := { s.adm with genAt := s.adm.instant } }
  let gen := s.get Reg.ADM_CGEN_CGEN.z
  let s := allBlks.foldl (fun s b => bif s.adm.named.contains b then s else s.put b.gen gen) s
  let s := { s with adm := { s.adm with tsram := s.adm.grants } }
  match s.adm.clock with
  | some f => s.clockCommit f
  | none =>
    let s := ((s.placeRegions s.adm.regions).placeDetector s.adm.stores).ringsMove
    let ladders := s.ladderChanged
    let s := (s.recCommit).frontCommit.fineCommit
    let s := (s.detCommit).tunCommit.trgCommit
    let s := (s.xspCommit).strCommit.dspCommit
    let s := (s.stimCommit).ingCommit.frontDone
    let s := ladders.foldl State.ladderReset s
    let s := (upto 64).foldl (fun s t => bif bit s.adm.xtiles t then s.xArm t (s.get (Reg.TILE_XCTL_ENTRY.t t)) else s) s
    s.ringSync.genReached

/-! ### Blocks that stop with a commit under way (R585) -/

/-- Fine channeliser, detectors, tuners, cross-spectral engine, streams, outputs, stimulus and tiles are idle in Watch: those
named by a commit and not swapped yet swap. -/
def State.swapIdle (s : State) : State :=
  let s := ({ s with fine := { s.fine with left := [] } }).fineDone
  let s := bif s.maySwap .detect then (s.det.left.foldl State.viewSwapNow s) else s
  let s := bif s.maySwap .tuners then
    s.tun.left.foldl (fun s t => s.tunSwapAt t (s.mixNext ((s.stagedView .tuners).get (Reg.TUN_CTRL_INPUT.e t)))) s else s
  let s := bif s.maySwap .cross then s.xspSwapNow false else s
  let s := bif s.maySwap .streams then
    (s.str.ringsLeft.foldl State.ringSwap (s.str.left.foldl State.streamSwap s)).strDone else s
  let s := (upto 2).foldl (fun s o => s.via (execDisplaySwap o)) s
  let s := bif s.maySwap .stimulus then s.stm.left.foldl (fun s c => s.stimSwapCal c s.now) s else s
  (upto 64).foldl (fun s t => bif bit s.adm.xtiles t && s.get Reg.ADM_STAT_STATE.z == 3 && s.get (xState t) != 0 then
    s.exchange t false else s) s

/-- Every named block that has not swapped swaps. -/
def State.swapRest (s : State) : State :=
  let s := s.swapIdle
  let s := s.ing.lanesLeft.foldl (fun s l => s.via (execIngressSwap l)) s
  let s := s.front.gridsLeft.foldl (fun s g => s.via (execCchSwap (g / 3) (g % 3))) s
  let s := s.trg.left.foldl (fun s u => s.via (execTriggerUnitSwap u)) s
  s.via execRecorderSwap

/-- At entry to Sleep every named block that has not swapped swaps, those of a commit whose instant has not arrived too. -/
def State.swapAll (s : State) : State :=
  bif s.get Reg.ADM_STAT_STATE.z == 2 then ({ s with adm := { s.adm with instant := some s.now } }.takeInstant).swapRest
  else s.swapRest

/-- The instant arrives in the mode in force: blocks that do not run swap at once (R585). -/
def State.instantNow (s : State) : State :=
  let s := s.takeInstant
  match s.get Reg.PWR_STAT_MODE.z with
  | 4 => s
  | 3 => s.swapIdle
  | _ => s.swapRest

end Sys2Proof.Machine
end

