-- ==== Sys2Proof/Machine/Modes.lean ====
section
/-! DEFINITION. Power modes and the wake governor (21_power_thermal_housekeeping.md R613 to R625): what each block does at an
entry to Full, Watch and Sleep, islands and slots, commands, wake requests and the end of a transition. -/

namespace Sys2Proof.Machine

/-! ### What blocks do (R615, R618) -/

/-- At entry to Watch each RUNNING tile halts as HALT does, to run again at the return to Full (12 R396). -/
def State.tilesHalt (s : State) : State :=
  (upto 64).foldl (fun s t => bif s.get (tileState t) == 2 then
    let s := s.tileCmd t 2
    s.setTile t { s.tile t with resume := true } else s) s
def State.tilesResume (s : State) : State :=
  (upto 64).foldl (fun s t =>
    let x := s.tile t
    bif x.resume then (s.setTile t { x with resume := false, gated := false }).tileCmd t 1 else s) s

/-- At entry to Sleep tile memory, banks and registers are lost; each tile is HALTED in its reset state (12 R396). -/
def State.tilesSleep (s : State) : State :=
  let s := { s with tls := { s.tls with tile := [] } }
  let s := (upto 64).foldl (fun s t =>
    bif s.fenced t then s
    else
      let s := ((s.put (tileState t) 1).put (xState t) 0).flag (Reg.TILE_XSTAT_SIGOK.t t) false
      let s := (s.flag (Reg.TILE_STAT_CMDHELD.t t) false).put (Reg.TILE_TIP_LATCHED.t t) 0
      let s := s.put (Reg.TILE_TIE_EN.t t) 0
      let s := (upto 4).foldl (fun s k => s.put (tmrMode t k) 0) s
      (upto 8).foldl (fun s j => s.flag (Reg.TILE_EDG_CFG_EN.tk t j) false) s) s
  s.lockFree

/-- Step 1 of an entry to Watch (R618): tiles halt, DMA pauses, outputs go BLANK, running views close (07 R707). -/
def State.watchStop (s : State) : State :=
  let s := ((s.tilesHalt).dmaPause).dspWatch
  ((s.viewIdle).recordsOut).stimWatch.calMode

/-- Step 2: every page closes at t_W and HBM goes to self-refresh (R618, 10 R313, 15 R476). -/
def State.watchPages (s : State) : State :=
  let s := (s.recWatch).memWatch
  { s with pwr := { s.pwr with falls := fallOrder s.pwr.up, trans := some ⟨3, some s.now⟩ } }

/-- PWR_STAT.MODE. -/
def State.modeTo (s : State) (m : Nat) : State := s.put Reg.PWR_STAT_MODE.z m

/-- The engine is in Watch: main paths, planes, tuners and the cross-spectral engine are idle. -/
def State.inWatch (s : State) : State :=
  let s := (upto 8).foldl State.pinSample (s.modeTo 3).xspIdle.tunIdle.trgWatch
  let s := { s with front := { s.front with main := [], seam := [] },
                    fine := { s.fine with inputs := [] } }
  s.swapIdle

/-- The engine is in Full: main paths start anew (05 R171), tuners begin series, views wait for their boundaries, tiles and
DMA go on. -/
def State.inFull (s : State) : State :=
  let s := (upto 8).foldl State.pinSample (s.modeTo 4)
  let s := (upto 128).foldl (fun s n => bif s.on (Reg.ING_LMAP_EN.e n) then s.setInp n { s.inp n with resume := 1 } else s) s
  let s := (s.memFull).tunWake.viewWake.xspWake.dspWake
  (s.stimWake).tilesResume.dmaResume

/-- The engine is in Sleep (R615): what is lost is lost, the time base stops. -/
def State.inSleep (s : State) : State :=
  let s := bif s.get Reg.PWR_STAT_MODE.z == 4 then (s.viewIdle).recordsOut else s
  let s := (s.modeTo 2).xspIdle.tunIdle.trgSleep
  let s := { s with front := { s.front.anew (fun _ => true) with main := [], seam := [], sketch := [] },
                    fine := { s.fine with inputs := [] } }
  let s := (s.ingSleep).swapAll
  let s := (s.recSleep).dmaSleep.tilesSleep
  let s := (s.memSleep).streamsSleep.dspSleep
  let s := (s.stimSleep).calMode.auxOff
  { s with pwr := { s.pwr with rises := [], falls := [], rising := [], up := [], holdNext := false, checkDue := false } }.tbStop

/-! ### The governor (R622 to R624) -/

/-- ΔI of an island in units of 0.5 A (R622). -/
def islandAmps (i : Nat) : Nat :=
  if i < 8 then 4 else if i = 8 then 8 else if i < 25 then 10 else if i < 31 then 20 else if i < 39 then 10
  else if i < 41 then 20 else if i < 47 then 10 else 5

/-- Steps from the head of a queue until the next one would exceed `left` (in 0.5 A). -/
def slotSteps : Nat → List Nat → List Nat
  | _, [] => []
  | left, i :: is => if islandAmps i ≤ left then i :: slotSteps (left - islandAmps i) is else []

/-- PWR_GOVSTAT.QLEN. -/
def State.govSync (s : State) : State :=
  s.put Reg.PWR_GOVSTAT_QLEN.z (min 255 (s.pwr.rises.length + s.pwr.falls.length))

/-- Every island that is neither up nor queued is queued to rise, in the order of R622. -/
def State.riseAll (s : State) : State :=
  let p := s.pwr
  let more := (upto 111).filter (fun i => !p.up.contains i && !p.rising.contains i && !p.rises.contains i)
  ({ s with pwr := { p with rises := p.rises ++ more, falls := [] } }).govSync

/-- Rises of this slot, unless R624 holds them. -/
def State.slotRise (s : State) : State :=
  let p := s.pwr
  bif p.rises.isEmpty then { s with pwr := { p with holdNext := false } }
  else bif p.holdNext then
    let n := s.get Reg.PWR_GOVSTAT_HOLDS.z + 1
    let s := ({ s with pwr := { p with holdNext := false } }.put Reg.PWR_GOVSTAT_HOLDS.z n).ev 53
    bif le 16 n then s.forceSleep 4 else s
  else
    let go := slotSteps (2 * s.get Reg.PWR_GOV_LIMIT.z) p.rises
    { s with pwr := { p with rises := p.rises.drop go.length, rising := p.rising ++ go,
                             checkDue := s.on Reg.PWR_GOV_CHK.z && !go.isEmpty } }.put Reg.PWR_GOVSTAT_HOLDS.z 0

/-- Falls of this slot. -/
def State.slotFall (s : State) : State :=
  let p := s.pwr
  let go := slotSteps (2 * s.get Reg.PWR_GOV_LIMIT.z) p.falls
  { s with pwr := { p with falls := p.falls.drop go.length, up := p.up.filter (fun i => !go.contains i) } }

/-- GOVERNOR_SLOT (R623). In an entry to Watch from Full the first one closes every page (t_W), unless the recorder still drains
(10 R315). -/
def execGovernorSlot (s : State) : Res :=
  let entering := match s.pwr.trans with
    | some t => t.target == 3 && t.tW.isNone && s.get Reg.PWR_STAT_MODE.z == 4
    | none => false
  .next <| bif entering && s.get recState == 3 then s
    else
      let s := bif entering then s.watchPages else s
      let s := (s.slotRise).slotFall
      let s := bif s.pwr.rises.isEmpty && s.pwr.falls.isEmpty then s else s.count Reg.PWR_GOVSTAT_DEFER.z 1
      s.govSync

/-- ISLAND_USABLE (R623): the island is up; in an entry to Sleep it is queued to fall. A tile whose RUN waited runs. -/
def execIslandUsable (i : Nat) (s : State) : Res :=
  .next <| bif s.pwr.rising.contains i then
      let p := s.pwr
      let sleeping := match p.trans with
        | some t => t.target == 2
        | none => false
      let s := { s with pwr := { p with rising := p.rising.filter (· ≠ i), up := p.up ++ [i],
                                        falls := if sleeping then p.falls ++ [i] else p.falls } }
      let s := bif islandClass i == 1 && (upto 9).all (fun j => s.pwr.up.contains j) then s.memFull else s
      bif le 47 i && lt i 111 then
        let t := i - 47
        let x := s.tile t
        let s := s.setTile t { x with gated := false }
        bif x.cmd == some 1 then (s.setTile t { s.tile t with cmd := none }).tileCommand t 1 else s
      else s
    else s

/-! ### Commands and requests (R614, R616 to R619) -/

/-- A lane or HBM supply is not good (R614). -/
def State.suppliesLow (s : State) : Bool := bits (s.get Reg.PWR_STAT_SUPGOOD.z) 3 4 != 15

/-- Why an entry to Watch or Full is refused: supplies, a cause that persists, the bypass clock, no HBM (22 R645), SAFE,
lifecycle RETIRED, EXTEST (22 R659). -/
def State.modeRefused (s : State) : Bool :=
  s.suppliesLow || s.pwr.cause == 2 || s.pwr.cause == 3 || le (s.get Reg.CLK_STAT_STATE.z) 1 || s.hbmSize == 0
    || s.on Reg.SEC_STAT_SAFE.z || s.get Reg.SEC_STAT_LC.z == 3 || s.sec.extest

/-- A transition begins. -/
def State.transTo (s : State) (m : Nat) : State :=
  { s.flag Reg.PWR_STAT_TRANS.z true with pwr := { s.pwr with trans := some ⟨m, none⟩ } }

/-- The entry to Sleep from Watch or Full begins. -/
def State.sleepStart (s : State) : State :=
  let s := s.transTo 2
  { s with pwr := { s.pwr with rises := [], falls := fallOrder s.pwr.up } }.govSync

/-- A commanded entry to Sleep: it has no forced cause (R619). -/
def State.sleepAsked (s : State) : State := (s.sleepStart).put Reg.PWR_STAT_CAUSE.z 0

/-- Wake from Watch to Full: the recorder holds its watch ring, every island is queued to rise (R616, 10 R315). -/
def State.wakeStart (s : State) : State := ((s.recWake).transTo 4).riseAll

/-- A wake request is accepted: its source and EV050 (R616). -/
def State.wakeSeen (s : State) (src : Nat) : State := (s.put Reg.PWR_STAT_WAKESRC.z src).ev 50

/-- Each wake request of this engine's own is sent to the partner (23 R674). -/
def State.wakeSent (s : State) (src : Nat) : State :=
  bif s.inPair && s.dzOn Reg.DZ_CFG_WAKEX && src != 3 then s.sendCell 0x07 0 (u8 src) else s

/-- A wake request in Watch starts the wake (R616), unless it is refused (R614, R619). -/
def State.wakeWatch (s : State) (src : Nat) : State :=
  let s := s.wakeSeen src
  bif s.modeRefused then (s.flag Reg.PWR_STAT_REFUSED.z true).ev 49 else s.wakeStart

/-- PWR_CMD.OP: 1 SLEEP, 2 WATCH, 3 FULL, 4 KEEP, while no transition runs. -/
def State.powerStart (s : State) (op : Nat) : State :=
  let m := s.get Reg.PWR_STAT_MODE.z
  let refuse := (s.flag Reg.PWR_STAT_REFUSED.z true).ev 49
  match op with
  | 1 => if m = 3 ∨ m = 4 then s.sleepAsked else s
  | 2 =>
    if m = 2 then (if s.modeRefused then refuse else (s.ingWake).transTo 3)
    else if m = 4 then (s.watchStop).transTo 3 else s
  | 3 =>
    if m = 2 then (if s.modeRefused then refuse else ((s.ingWake).transTo 4).riseAll)
    else if m = 3 then (s.wakeSent 2).wakeWatch 2 else s
  | 4 =>
    if m = 2 then s.transTo 1
    else if m = 3 ∨ m = 4 then
      ({ s.sleepAsked with pwr := { s.sleepAsked.pwr with held := some 4 } }).flag Reg.PWR_STAT_HELD.z true
    else s
  | _ => s

/-- No command is held. -/
def State.heldTaken (s : State) : State := { s with pwr := { s.pwr with held := none } }

/-- A transition has ended: a held command runs (R617). -/
def State.heldRuns (s : State) : State :=
  match s.pwr.held with
  | none => s
  | some op => (s.heldTaken.flag Reg.PWR_STAT_HELD.z false).powerStart op

/-- A wake request with source 1 trigger, 2 command, 3 partner (R616, R618): from Watch it starts the wake; before t_W it cancels
an entry to Watch; after t_W it is a wake from Watch. -/
def State.wakeRequest (s : State) (src : Nat) : State :=
  let m := s.get Reg.PWR_STAT_MODE.z
  let s := s.wakeSent src
  match s.pwr.trans with
  | none => bif m == 3 then s.wakeWatch src else s
  | some t =>
    bif t.target == 3 && m == 4 then
      let s := s.wakeSeen src
      bif t.tW.isNone then
        let s := { s with pwr := { s.pwr with trans := none } }.flag Reg.PWR_STAT_TRANS.z false
        ((((s.viewWake).stimWake.tilesResume).dmaResume).ev 49).heldRuns
      else (s.inWatch).wakeStart
    else bif t.target == 4 then s.wakeSeen src else s

/-- A write of PWR_CMD (R617, 23 R674): held during a transition, where a later one replaces it with EV049; FULL between Full and
Watch is a wake request (R616, R618). -/
def State.powerCmd (s : State) (op : Nat) : State :=
  let s := bif s.ordering && s.dzOn Reg.DZ_CFG_MODEX then s.sendReliable 0x17 (u8 op) else s
  match s.pwr.trans with
  | none => s.powerStart op
  | some t =>
    let m := s.get Reg.PWR_STAT_MODE.z
    bif op == 3 && ((t.target == 3 && m == 4) || (t.target == 4 && m == 3)) then s.wakeRequest 2
    else ({ s with pwr := { s.pwr with held := some op } }.flag Reg.PWR_STAT_HELD.z true).ev 49

/-- PWR_SLEEP. -/
def execPwrSleep (s : State) : Res := .next (s.powerCmd 1)
/-- PWR_WATCH. -/
def execPwrWatch (s : State) : Res := .next (s.powerCmd 2)
/-- PWR_FULL. -/
def execPwrFull (s : State) : Res := .next (s.powerCmd 3)
/-- PWR_KEEP (R620). -/
def execPwrKeep (s : State) : Res := .next (s.powerCmd 4)
/-- WAKE_REQUEST. -/
def execWakeRequest (src : Nat) (s : State) : Res := .next (s.wakeRequest src)

/-! ### The end of a transition (R616, R617, R620) -/

/-- Entry to Keep: the trigger record queue is discarded and counted, the keep record is written, the rest of the die loses
its state (R620, 09 R287). -/
def State.keepEnter (s : State) : State :=
  let s := s.put Reg.SEC_TRGLOST_COUNT.z (s.trg.held.length + s.trg.queue.length)
  let s := s.dieReset (s.get Reg.SEC_RSTCAUSE_CAUSE.z)
  { s.modeTo 1 with sec := { s.sec with step := none } }

/-- Nothing the transition waits for is left. -/
def State.transReady (s : State) (t : Transition) : Bool :=
  let p := s.pwr
  match t.target with
  | 1 => true
  | 2 => p.falls.isEmpty && p.rising.isEmpty
  | 3 => s.get Reg.PWR_STAT_MODE.z == 2 || (t.tW.isSome && p.falls.isEmpty && p.rising.isEmpty)
  | _ => p.rises.isEmpty && p.rising.isEmpty && (upto 111).all (fun i => p.up.contains i || (le 47 i && (s.tile (i - 47)).gated))

/-- The target mode takes effect. -/
def State.transApply (s : State) (m : Nat) : State :=
  let old := s.get Reg.PWR_STAT_MODE.z
  match m with
  | 1 => s.keepEnter
  | 2 => s.inSleep
  | 3 => if old = 2 then ((upto 8).foldl State.pinSample (((s.tbStart).genWake).modeTo 3)).recWatchOn else s.inWatch
  | _ => if old = 2 then ((s.tbStart).genWake).inFull else s.inFull

/-- No transition is under way; a cause of the governor ends with it. -/
def State.transEnded (s : State) : State :=
  { s with pwr := { s.pwr with trans := none, cause := if s.pwr.cause = 4 then 0 else s.pwr.cause } }
/-- MODE_TRANSITION_DONE: the mode and its tag are recorded, EV048 is raised and a held command runs. -/
def execModeTransitionDone (s : State) : Res :=
  .next <| match s.pwr.trans with
    | none => s
    | some t =>
      bif !s.transReady t then s
      else
        let s := s.transEnded
        let s := (s.flag Reg.PWR_STAT_TRANS.z false).transApply t.target
        bif t.target == 1 then s
        else
          ((s.put96 Reg.PWR_TAG_L_TAG.z Reg.PWR_TAG_M_TAG.z Reg.PWR_TAG_H_TAG.z s.now).ev 48).heldRuns

end Sys2Proof.Machine
end

