-- ==== Sys2Proof/Machine/Power.lean ====
section
/-! DEFINITION. Supplies, the VDD_CORE check of the governor, thermal control and the monitor converters
(21_power_thermal_housekeeping.md R613, R614, R624 to R639). -/

namespace Sys2Proof.Machine

/-! ### Monitor converters (R632 to R637) -/

/-- MONITOR calibration holds converter `k` (18 R564). -/
def State.monitoring (s : State) (k : Nat) : Bool :=
  match s.stm.run with
  | none => false
  | some r => r.op == 5 && r.targets.any (fun t => t.target == k && t.status.isNone)

def State.urgQueue (s : State) (k : Nat) : List Urgent := if k = 0 then s.pwr.urg0 else s.pwr.urg1
def State.setUrg (s : State) (k : Nat) (q : List Urgent) : State :=
  if k = 0 then { s with pwr := { s.pwr with urg0 := q } } else { s with pwr := { s.pwr with urg1 := q } }

/-- The converter that takes a request for `conv`: ANY the shorter queue, MC0 on a tie; one under MONITOR leaves it to the other. -/
def State.urgTarget (s : State) (conv : Nat) : Nat :=
  let k := if conv = 2 then (if s.pwr.urg1.length < s.pwr.urg0.length then 1 else 0) else conv
  bif s.monitoring k then 1 - k else k

/-- An urgent request (R636); whether it was dropped. -/
def State.urgent (s : State) (conv ch : Nat) (governor : Bool) : State × Bool :=
  let k := s.urgTarget conv
  let q := s.urgQueue k
  bif le 2 q.length then ((s.count Reg.HK_SPOIL_URGDROP.z 1).ev 61, true)
  else
    let n := (s.pwr.urgNum + 1) % 256
    let q : List Urgent := q ++ [⟨n, ch, governor⟩]
    ({ s with pwr := { s.pwr with urgNum := n } }.setUrg k q, false)

/-- HK_URG: a write of CONV and CH (R636). -/
def execHkUrg (conv ch : Nat) (s : State) : Res :=
  .next <| if 3 ≤ conv ∨ 18 ≤ ch then s.bad .power else (s.urgent conv ch false).1

/-- A result of `n` conversions whose sum is `raw`, under the trims `t` (R633); a conversion reads at most full scale (24 R696). -/
def hkConv (t : Int × Int) (raw n : Nat) : Nat := hkValue (min raw (4095 * n)) n t.1 t.2

/-- HK_URGENT_CONVERSION: the oldest request of converter `k` is served; `raw` is the conversion (R636). A governor's reading
below VMIN holds the next slot's rises (R624). -/
def execHkUrgentConversion (k raw : Nat) (s : State) : Res :=
  .next <| match s.urgQueue k with
    | [] => s
    | u :: rest =>
      let v := hkConv (s.getI (Reg.HK_TRIM_OFS.e k), s.getI (Reg.HK_TRIM_GAIN.e k)) raw 1
      let s := (s.setUrg k rest).put Reg.HK_URGRES_NUM.z u.num
      let s := (s.put Reg.HK_URGRES_CONV.z k).put Reg.HK_URGRES_RES.z v
      let s := (s.put96 Reg.HK_URGTAG_L_TAG.z Reg.HK_URGTAG_M_TAG.z Reg.HK_URGTAG_H_TAG.z s.now).ev 62
      bif u.governor && lt v (s.get Reg.PWR_GOVVMIN_VMIN.z) then { s with pwr := { s.pwr with holdNext := true } } else s

def State.hkEntry (s : State) (k e : Nat) : HkEntry := tget (fun _ => ⟨0, 0, none⟩) s.pwr.hk (16 * k + e)
def State.setHk (s : State) (k e : Nat) (x : HkEntry) : State :=
  { s with pwr := { s.pwr with hk := tset (fun _ => ⟨0, 0, none⟩) s.pwr.hk (16 * k + e) x } }

/-- Runs of passes outside and inside the limits, and VIOL (R635). -/
def State.hkLimits (s : State) (k e v : Nat) : State :=
  let x := s.hkEntry k e
  let out := lt v (16 * s.get (Reg.HK_SEQ_LO.e2 k e)) || lt (16 * s.get (Reg.HK_SEQ_HI.e2 k e)) v
  let x := { x with outRun := if out then min 2 (x.outRun + 1) else 0, inRun := if out then 0 else min 2 (x.inRun + 1) }
  let s := s.setHk k e x
  let viol := Reg.HK_RES_VIOL.e2 k e
  bif x.outRun == 2 && !s.on viol then (s.flag viol true).ev (58 + k)
  else bif x.inRun == 2 && s.on viol then (s.flag viol false).ev (58 + k) else s

/-- The comparison of a simultaneous pair that named the same channel (R634). -/
def State.hkCross (s : State) (k e ch v : Nat) : State :=
  let s := s.setHk k e { s.hkEntry k e with res := some (v, ch) }
  let other := s.hkEntry (1 - k) e
  match other.res with
  | none => s
  | some (w, ch2) =>
    let s := s.setHk k e { s.hkEntry k e with res := none }
    let s := s.setHk (1 - k) e { other with res := none }
    bif ch != ch2 then s
    else
      let wrong := lt (16 * s.get Reg.HK_CTRL_XTOL.z) ((v : Int) - w).natAbs
      let s := (s.flag (Reg.HK_RES_CROSS.e2 0 e) wrong).flag (Reg.HK_RES_CROSS.e2 1 e) wrong
      bif wrong then s.ev 60 else s

/-- HK_ENTRY_DONE: converter `k` has finished entry `e`, which names channel `ch`; `raw` is the sum of its 2^AVGLOG conversions
(R633 to R635). -/
def execHkEntryDone (k e ch : Nat) (raw : Nat) (s : State) : Res :=
  .next <|
    if 2 ≤ k ∨ 16 ≤ e then s
    else
      let run := s.on (if k = 0 then Reg.HK_CTRL_EN0.z else Reg.HK_CTRL_EN1.z)
      bif !run || !s.on (Reg.HK_SEQ_EN.e2 k e) || s.monitoring k then s
      else bif le 18 ch then s.bad .power
      else
        let v := hkConv (s.hkTrims k) raw (2 ^ s.get (Reg.HK_SEQ_AVGLOG.e2 k e))
        let s := ((s.trimsNew k).put (Reg.HK_RES_RES.e2 k e) v).hkLimits k e v
        bif s.on (Reg.HK_SEQ_SIM.e2 0 e) && s.on (Reg.HK_SEQ_SIM.e2 1 e) then s.hkCross k e ch v else s

/-- GOVERNOR_CHECK: the urgent VDD_CORE conversion of a slot that issued a rise; a dropped request counts as a reading below
VMIN (R624). -/
def execGovernorCheck (s : State) : Res :=
  .next <| bif s.pwr.checkDue then
      let s := { s with pwr := { s.pwr with checkDue := false } }
      let p := s.urgent 2 8 true
      bif p.2 then { p.1 with pwr := { p.1.pwr with holdNext := true } } else p.1
    else s

/-! ### Supplies (R613, R614, R620) -/

/-- CK_KEEP takes its source at a power-up of VKEEP: the crystal where it oscillates within 1 s (20 R596). -/
def State.keepClock (s : State) (crystal : Bool) : State :=
  { s with sec := { s.sec with crystal := crystal } }.flag Reg.CLK_STAT_KXTAL.z crystal

/-- Without VKEEP, RESET_N is not sensed: it holds the die no longer (24 R692). -/
def State.pinUnsensed (s : State) : State :=
  bif s.sec.pin then { s with sec := { s.sec with pin := false } }.startFree else s

/-- SUPPLY_GOOD_CHANGE: supply `i` of PWR_STAT.SUPGOOD. A core supply lost resets the die; VKEEP lost invalidates the keep domain, and at
its return CK_KEEP takes its source, `crystal` telling whether one oscillates; a SUPPLY cause ends when the lane and HBM supplies are good
again (R619). -/
def execSupplyGoodChange (i : Nat) (good crystal : Bool) (s : State) : Res :=
  .next <|
    if 8 ≤ i then s
    else
      let l : Loc := { Reg.PWR_STAT_SUPGOOD.z with lo := i, w := 1 }
      bif s.on l == good then s
      else
        let s := s.flag l good
        let s := bif s.alive then s.ev 52 else s
        let s := bif s.pwr.cause == 2 && !s.suppliesLow then { s with pwr := { s.pwr with cause := 0 } } else s
        bif good then (bif i == 7 then s.keepClock crystal else s)
        else bif le i 2 then
          bif s.sec.supply then s else { s with sec := { s.sec with supply := true } }.dieReset 1
        else bif i == 7 then s.keepLose.pinUnsensed else s

/-- SUPPLY_UNDERVOLTAGE: a lane or HBM supply stayed below its threshold in Watch or Full; Sleep at once, without the governor
(R614). -/
def execSupplyUndervoltage (i : Nat) (s : State) : Res :=
  .next <|
    if i < 3 ∨ 6 < i then s
    else bif s.runs || s.pwr.trans.isSome then
      let s := s.forceSleep 2
      { s with pwr := { s.pwr with up := [], falls := [], rising := [] } }.govSync
    else s

/-- RESET_RELEASE: 10 ms after the core supplies have become good (R613). -/
def execResetRelease (s : State) : Res :=
  .next <| bif s.sec.supply && bits (s.get Reg.PWR_STAT_SUPGOOD.z) 0 3 == 7 then
      { s with sec := { s.sec with supply := false } }.startFree
    else s

/-! ### Temperatures (R626 to R631) -/

def State.sensor (s : State) (k : Nat) : Sensor := tget (fun _ => ⟨0, 0, 0⟩) s.pwr.sensors k

/-- HBM is out of self-refresh (R626, 15 R479, R480). -/
def State.hbmAwake (s : State) : Bool :=
  le 3 (s.get Reg.PWR_STAT_MODE.z) && tget (fun _ => 0) s.msys.power 0 != 2

/-- One reading `r` of sensor `k`, in units of 1/16 °C; a stack is read only while its memory is out of self-refresh (R626, R631). -/
def State.senseOne (s : State) (k : Nat) (r : Int) : State :=
  if 28 ≤ k then s
  else bif le 20 k && !s.hbmAwake then s
  else
    let x := s.sensor k
    let same := if 0 < x.same ∧ r = x.last then x.same + 1 else 1
    let bad := decide (r < -640) || decide (2400 < r)
    let fail := Reg.THM_S_FAIL.e k
    let failed := s.on fail
    let good := if failed && !bad && same == 1 then x.good + 1 else 0
    let keep (g : Nat) (s : State) : State :=
      { s with pwr := { s.pwr with sensors := tset (fun _ => ⟨0, 0, 0⟩) s.pwr.sensors k ⟨r, same, g⟩ } }
    let s := s.putI (Reg.THM_S_T.e k) r
    bif !failed && (bad || le 10000 same) then ((keep 0 s).flag fail true).ev 57
    else bif failed && le 100 good then ((keep 0 s).flag fail false).ev 57
    else keep good s

/-- The largest reading among valid sensors of a list, and the first sensor that gives it. -/
def State.hottest (s : State) (l : List Nat) : Option (Nat × Int) :=
  l.foldl (fun a k =>
    bif (s.sensor k).same == 0 || s.on (Reg.THM_S_FAIL.e k) then a
    else match a with
      | none => some (k, (s.sensor k).last)
      | some (j, t) => if t < (s.sensor k).last then some (k, (s.sensor k).last) else some (j, t)) none

/-- The ceiling, in THM_STAT and CLK_STAT; a change raises EV055 and moves the walker's target (R627). -/
def State.ceilTo (s : State) (f : Nat) : State :=
  bif f == s.get Reg.THM_STAT_FTHR.z then s
  else (((s.put Reg.THM_STAT_FTHR.z f).put Reg.CLK_STAT_FTHR.z f).ev 55).retarget

/-- THM_STAT.STATE; a change raises EV054 (R639). -/
def State.thmTo (s : State) (v : Nat) : State :=
  bif v == s.get Reg.THM_STAT_STATE.z then s else (s.put Reg.THM_STAT_STATE.z v).ev 54

/-- 8 or more of sensors 0 to 15 are failed: the ceiling is held at 56 (R631). -/
def State.ceilHeld (s : State) : Bool := le 8 ((upto 16).filter (fun k => s.on (Reg.THM_S_FAIL.e k))).length

/-- The ceiling's move of one evaluation (R627). -/
def State.ceilStep (s : State) (tj : Int) : State :=
  let thr := s.getI Reg.THM_CFG_T_THR.z
  let hys : Int := s.get Reg.THM_HYS_HYS.z
  let d := s.get Reg.THM_HYS_DWELL.z
  let f := s.get Reg.THM_STAT_FTHR.z
  let up := if tj ≥ thr then 0 else if tj ≤ thr - hys then s.pwr.upRun + 1 else 0
  let dn := if tj ≥ thr then s.pwr.dnRun + 1 else 0
  let down := le d dn && lt 56 f
  let rise := le d up && lt f 64
  let s := { s with pwr := { s.pwr with upRun := if rise then 0 else up, dnRun := if down then 0 else dn } }
  s.ceilTo (if s.ceilHeld then 56 else if down then f - 1 else if rise then f + 1 else f)

/-- What T_j does in one evaluation (R619, R627, R628). -/
def State.thmCore (s : State) (hot : Nat) (tj : Int) : State :=
  let d := s.get Reg.THM_HYS_DWELL.z
  let s := ((s.putI Reg.THM_STAT_TJ.z tj).put Reg.THM_STAT_HOT.z hot).ceilStep tj
  let crit := leI (s.getI Reg.THM_CFG_T_CRIT.z) tj
  let n := if crit then s.pwr.critRun + 1 else 0
  let s := { s with pwr := { s.pwr with critRun := n } }
  let lockout := s.pwr.cause == 3
  let cool := leI tj (s.getI Reg.THM_CFG_T_THR.z - (s.get Reg.THM_HYS_HYS.z : Int))
  let s := bif lockout && cool then { s with pwr := { s.pwr with cause := 0 } } else s
  bif lockout && !cool then s
  else bif le (2 * d) n && (s.runs || s.pwr.trans.isSome) then s.forceSleep 3
  else bif le d n then (s.ceilTo 56).thmTo 2
  else bif crit && s.get Reg.THM_STAT_STATE.z == 2 then s
  else s.thmTo (if lt (s.get Reg.THM_STAT_FTHR.z) 64 then 1 else 0)

/-- What T_HBM does in one evaluation (R630, R639). -/
def State.thmHbm (s : State) (t : Int) : State :=
  let d := s.get Reg.THM_HYS_DWELL.z
  let hot := leI (s.getI Reg.THM_HBM_LIMIT.z) t
  let n := if hot then s.pwr.hbmRun + 1 else 0
  let s := { s with pwr := { s.pwr with hbmRun := n } }
  let s := bif n == 1 then s.ev 56 else s
  bif le d n && (s.runs || s.pwr.trans.isSome) && s.pwr.cause != 3 then s.forceSleep 3 else s

/-- THERMAL_EVALUATION: the readings of this evaluation, sensor and value in units of 1/16 °C. -/
def execThermalEvaluation (readings : List (Nat × Int)) (s : State) : Res :=
  .next <| bif s.alive then
      let s := readings.foldl (fun s x => s.senseOne x.1 x.2) s
      let s := match s.hottest (upto 20) with
        | some (k, t) => s.thmCore k t
        | none => s
      let s := bif s.ceilHeld then s.ceilTo 56 else s
      match s.hottest ((upto 8).map (· + 20)) with
      | some (_, t) => s.thmHbm t
      | none => s
    else s

/-- THERMTRIP: a sensor at or above T_TRIP at 3 samples; the die is held in reset until RESET_N is asserted (R629). -/
def execThermtrip (s : State) : Res :=
  .next <| bif s.alive then { s with pwr := { s.pwr with tripHold := true } }.dieReset 3 else s

end Sys2Proof.Machine
end

