-- ==== Sys2Proof/Machine/Start.lean ====
section
/-! DEFINITION. The start sequence, resets, the lifecycle and fuses, secure boot, the flash, signed tile programs and the debug
port (22_start_security_debug.md R640 to R661). -/

namespace Sys2Proof.Machine

/-! ### Images (R653) -/

/-- `n` flash bytes from byte address `a` on. -/
def State.flashBytes (s : State) (a n : Nat) : List Byte := (upto n).map (fun k => tget (fun _ => 0xFF) s.sec.flash (a + k))

/-- The flash base of image A or B (R654). -/
def imageBase (i : Nat) : Nat := if i = 0 then 0x100000 else 0x1000000

/-- The lifecycle state checks signatures: OPEN or SECURED. -/
def signed (lc : Nat) : Bool := lc == 1 || lc == 2

/-- The number of SVN bits burnt (R650). -/
def svnOf (f : Fuses) : Nat := popcount 64 f.svn

/-- The outcome of the checks of image `i`: a failure code of R645, 0 for none (R653). -/
def State.imageCheck (s : State) (i : Nat) : Nat :=
  let h := s.flashBytes (imageBase i) 256
  let len := leAt h 12 4
  let slot := leAt h 9 1
  let f := s.sec.fuses
  let key := sha384 ((h.drop 64).take 96)
  let sg := signed f.lc
  bif leAt h 0 4 != 0x4D494657 || leAt h 10 2 != 0 || len % 4096 != 0 || lt 15724544 len then 0x50
  else bif sg && (le 4 slot || bit f.revoked slot || f.keys.getD slot [] != key) then 0x54
  else bif sha384 (s.flashBytes (imageBase i + 256) len) != (h.drop 16).take 48 then 0x51
  else bif sg && !Config.ecdsa384 key ((h.drop 160).take 96) (sha384 (h.take 160)) then 0x52
  else bif sg && lt (leAt h 8 1) (svnOf f) then 0x53 else 0

/-! ### The steps (R644, R645) -/

/-- Registers of the stored set that S03 applies itself (02 R44); S06 applies MEM_MAP. -/
def clockWords : List Nat := Reg.CLK_REF_FREFA.off :: (upto 16).map (fun b => Reg.CLK_BAND_VALID.off + 4 * b)

/-- Register `o` has been read from the stored set in this start (02 R44). -/
def State.readEarly (s : State) (o : Nat) : Bool :=
  (s.sec.early3 && clockWords.contains o) || (s.sec.early6 && o == Reg.MEM_MAP_GLOG.off)

/-- Registers of `l` take their values from the stored set, where one is valid. -/
def State.restoreEarly (s : State) (l : List Nat) : State :=
  match s.ctl.storedSet with
  | some t => l.foldl (State.restoreWord t) s
  | none => s

/-- S00: the lane and HBM supplies. -/
def State.stepS00 (s : State) : State × Nat := (s, if s.suppliesLow then 0x10 else 0)

/-- S01: the keep domain, and the boot generation (R643, 02 R48). -/
def State.stepS01 (s : State) : State × Nat :=
  let ok := s.sec.keepOk
  let g := if ok then (s.obj 0x1005 0 + 1) % 2 ^ 32 else 1
  let s := (s.setObj 0x1005 0 g).setObj 0x1006 0 (b2n (!ok))
  let s := bif s.get Reg.SEC_RSTCAUSE_CAUSE.z == 0 then s.put Reg.SEC_RSTCAUSE_CAUSE.z 1 else s
  (({ s with sec := { s.sec with keepOk := true, nonce := leBytes 32 (s.free 256) } }.took).keepWrite, 0)

/-- S02: a reference is qualified: the preferred one, or the other as the alternate method. -/
def State.stepS02 (s : State) (method code : Nat) : State × Nat :=
  bif code != 0 then (s, 0x20)
  else
    let p := s.get Reg.REF_CFG_PREF.z
    ((s.put Reg.REF_STAT_ACTIVE.z (if method = 2 then 1 - p else p)).tbSync, 0)

/-- The table covers every step of the grid from 5.6 GHz to 6.4 GHz (20 R598). -/
def State.bandComplete (s : State) : Bool :=
  let f := fpfd s.clk.refApplied s.activeRef
  bif f == 0 then false
  else
    let a := ceilDiv 5600000000 f
    let b := 6400000000 / f
    (upto (b - a)).all (fun k => (s.bandFor (a + k) (a + k + 1)).isSome)

/-- The band table holds `entries`. -/
def State.bandTable (s : State) (entries : List Word) : State :=
  (upto 16).foldl (fun s b => s.setWord (Reg.CLK_BAND_VALID.off + 4 * b) (entries.getD b 0)) s

/-- The root PLL locks at the committed frequency, if a band covers it. -/
def State.bandStart (s : State) : State × Nat :=
  let n := s.nFor s.adm.fcommit
  match s.bandFor n n with
  | none => (s, 0x32)
  | some b =>
    let s := { (s.put Reg.CLK_N_N.z n).put Reg.CLK_STAT_BAND.z b with clk := { s.clk with sysref := 0 } }
    ((s.clkState 2).frunSync.retarget.tbFirst, 0)

/-- S03: CLK_REF, the band table and the root PLL's lock; `entries` is what band calibration measures, `code` whether the lock
fails. Where S02 was passed over the root PLL stays in BYPASS (R645) and the step does not fail for it (DEDUCED, log 75). -/
def State.stepS03 (s : State) (method code : Nat) (entries : List Word) : State × Nat :=
  let s := { s.restoreEarly clockWords with sec := { s.sec with early3 := true } }
  let none_ := !(upto 16).any (fun b => bandUsable (s.word (Reg.CLK_BAND_VALID.off + 4 * b)).toNat)
  let s := bif method == 2 || none_ then (s.bandTable entries).ev 41 else s
  let s := s.applyClkRef (s.word Reg.CLK_REF_FREFA.off)
  bif s.on Reg.CLK_STAT_CFGERR.z then (s, 0x30)
  else bif !s.bandComplete then (s, 0x31)
  else bif s.get (Reg.SEC_STEP_LASTPOL.e 2) == 1 then (s, 0)
  else bif code != 0 then (s, 0x32)
  else
    s.bandStart

/-- S04: the fuses by vote (R650), the lifecycle state and what follows from it (R649). -/
def State.stepS04 (s : State) (code : Nat) : State × Nat :=
  bif code != 0 then (s, 0x40)
  else
    let x := s.sec
    let f := x.voted
    let s := { s with sec := { x with fuses := f, vote := x.fuse0 != x.fuse1 || x.fuse1 != x.fuse2 } }
    let s := ((s.put Reg.SEC_STAT_LC.z f.lc).put Reg.SEC_STAT_SVN.z (svnOf f)).flag Reg.SEC_STAT_LCPEND.z false
    let s := (upto 64).foldl (fun s t => s.flag (Reg.TILE_XSTAT_SIGREQ.t t) (f.lc == 2)) s
    (bif f.lc == 3 then { s with ctl := { s.ctl with oapKey := [] } } else s, 0)

/-- S05: the firmware image named by the directory, or the one not tried last (R653); RETIRED loads none. -/
def State.stepS05 (s : State) (method : Nat) : State × Nat :=
  bif s.sec.fuses.lc == 3 then (s, 0)
  else
    let named := leAt (s.flashBytes 0 1) 0 1
    let i := if method = 2 then 1 - s.sec.tried else named
    bif lt 1 i then (s, 0x50)
    else
      let s := { s with sec := { s.sec with tried := i } }
      let c := s.imageCheck i
      bif c != 0 then (s, c)
      else
        let h := s.flashBytes (imageBase i) 16
        let s := (s.setObj 0x1004 1 (leAt h 4 4)).setObj 0x1004 2 i
        ({ s with sec := { s.sec with image := some i, slot := leAt h 9 1 } }, 0)

/-- S06: HBM training, MEM_MAP and the rank states. -/
def State.stepS06 (s : State) (code : Nat) : State × Nat :=
  bif code != 0 then (s, 0x60)
  else
    let s := { s.restoreEarly [Reg.MEM_MAP_GLOG.off] with sec := { s.sec with early6 := true } }
    let p := s.memStart
    (p.1, if p.2 then 0 else 0x61)

/-- A tile is fenced at S07 or S09 (01 R24, R646). -/
def State.fence (s : State) (t : Nat) : State := s.put (tileState t) 0

/-- Memories left unrepaired at S07 are withdrawn (R646): bits 0 to 63 of `mask` tiles, 64 to 71 galleries, 72 and 73 canvases,
74 to 201 front buffers. -/
def State.withdraw (s : State) (mask : Nat) : State :=
  let s := (upto 64).foldl (fun s t => bif bit mask t then s.fence t else s) s
  let s := (s.put Reg.SEC_WITHDRAWN_GAL.z (bits mask 64 8)).put Reg.SEC_WITHDRAWN_CANVAS.z (bits mask 72 2)
  let s := s.flag Reg.SEC_STAT_DEGR.z (bits mask 0 202 != 0)
  { s with sec := { s.sec with badFronts := bits mask 74 128 } }

/-- S08: lane dies that do not come up are absent. -/
def State.absentDies (s : State) (mask : Nat) : State := { s with sec := { s.sec with badDies := bits mask 0 4 } }

/-- S09: each tile that fails is fenced; EV084. -/
def State.fenceAll (s : State) (mask : Nat) : State :=
  (upto 64).foldl (fun s t => bif bit mask t && !s.fenced t then (s.fence t).ev 84 else s) s

/-- S10: every lane with signal stores its equalisation. -/
def State.stepS10 (s : State) (mask : Nat) : State × Nat :=
  ((upto 128).foldl (fun s l =>
    bif bit mask l && !bit s.sec.badDies (l / 32) then
      (s.count (Reg.ING_LSTAT_ADAPTCNT.e l) 1).setLane l { s.lane l with stored := true }
    else s.setLane l { s.lane l with stored := false }) s, 0)

/-- The role in force from the start on (23 R666): the keep record's where it is valid and holds one, else DZ_CFG.ROLE. -/
def State.pairStart (s : State) : State :=
  bif s.on Reg.DZ_CFG_EN.z then
    let s := { s with pair := { s.pair with cfg := s.word Reg.DZ_CFG_EN.off } }
    let keep := s.obj 0x1006 0 == 0 && s.get Reg.DZ_STAT_ROLE.z != 0
    let s := bif keep then s else (s.put Reg.DZ_STAT_ROLE.z (s.get Reg.DZ_CFG_ROLE.z)).keepWrite
    ((s.put Reg.DZ_STAT_PSTATE.z 1).ev 96).waveSync
  else s

/-- S11's own effect: what the persistent set `t` restores; STR_EPOCHNEXT (16 R486); the pair's role. -/
def State.restoreSet (s : State) (t : Option (Tbl Nat)) : State :=
  let s := match t with
    | none => s
    | some t =>
      let s := (persistWords.filter (fun o => !s.readEarly o)).foldl (State.restoreWord t) s
      persistObjs.foldl (fun s k =>
        { s with ctl := { s.ctl with objs := tset objDefault s.ctl.objs k (tget (fun _ => 0) t k) } }) s
  let s := s.put Reg.STR_EPOCHNEXT_EPOCH.z (s.obj 0x1005 0 % 65536 * 65536)
  s.pairStart

/-- S11: stored copy 0, or copy 1 as the alternate method; copy 0 fails where only copy 1 is valid. -/
def State.stepS11 (s : State) (method : Nat) : State × Nat :=
  bif method == 2 then (s.restoreSet s.ctl.stored1, 0)
  else bif s.ctl.stored0.isNone && s.ctl.stored1.isSome then (s, 0xB0)
  else (s.restoreSet s.ctl.stored0, 0)

/-- A step's method, with its failure code, 0 for success. -/
def State.stepRun (s : State) (k method code mask : Nat) (entries : List Word) : State × Nat :=
  match k with
  | 0 => s.stepS00
  | 1 => s.stepS01
  | 2 => s.stepS02 method code
  | 3 => s.stepS03 method code entries
  | 4 => s.stepS04 code
  | 5 => s.stepS05 method
  | 6 => s.stepS06 code
  | 7 => (s, if bits mask 0 202 = 0 then 0 else 0x70)
  | 8 => (s.absentDies mask, if bits mask 0 4 = 0 then 0 else 0x80)
  | 9 => let s := s.fenceAll mask
         (s, if 8 < ((upto 64).filter s.fenced).length then 0x90 else 0)
  | 10 => s.stepS10 mask
  | 11 => s.stepS11 method
  | _ => (s, 0)

/-- A step passed over under SKIP, with its consequence (R645). -/
def State.stepSkip (s : State) (k mask : Nat) : State :=
  match k with
  | 6 => s.put64 Reg.MEM_SIZE_L_VAL.z Reg.MEM_SIZE_H_VAL.z 0
  | 7 => s.withdraw mask
  | 8 => s.absentDies mask
  | 9 => s.fenceAll mask
  | 11 => s.restoreSet none
  | _ => s

def stepAttempts (k : Nat) : Loc := Reg.SEC_STEP_ATTEMPTS.e k
def stepConsec (k : Nat) : Loc := Reg.SEC_STEP_CONSEC.e k
def stepPolicy (k : Nat) : Loc := Reg.SEC_STEP_POLICY.e k

/-- The policies a step permits (R645). -/
def stepPermits (k p : Nat) : Bool :=
  if k = 0 ∨ k = 8 then p = 0 ∨ p = 1
  else if k = 2 ∨ k = 3 ∨ k = 6 ∨ k = 7 ∨ k = 9 ∨ k = 11 then p ≤ 2
  else if k = 4 then p = 0
  else if k = 5 then p = 0 ∨ p = 2
  else false

/-- SAFE (R648): the time base stops, and the Dziast link is off (23 R662). -/
def State.safeEnter (s : State) : State :=
  ((({ s with sec := { s.sec with step := none } }.tbStop.flag Reg.SEC_STAT_SAFE.z true).lanesTo 0).ev 83)

/-- A failed step: recorded in the keep domain, then a STEPFAIL reset or, at MAXTRY, SAFE (R644). -/
def State.stepFail (s : State) (k code : Nat) : State :=
  let s := (s.put (Reg.SEC_STEP_LASTFAIL.e k) code).count (stepConsec k) 1
  let s := ({ s with sec := { s.sec with failed := true, keepOk := true } }).keepWrite
  bif le (s.get Reg.SEC_CTRL_MAXTRY.z) (s.get (stepConsec k)) then s.safeEnter else s.dieReset 6

/-- S12: the start is over; EV080 to EV082, EV093, and BOOTMODE (R621, R661). -/
def State.startEnd (s : State) : State :=
  let x := s.sec
  let cause := s.get Reg.SEC_RSTCAUSE_CAUSE.z
  let s := { s with sec := { x with step := none } }.ev 80
  let s := bif x.failed || x.failedLast || cause == 3 || cause == 5 then s.ev 81 else s
  let s := bif x.used then s.ev 82 else s
  let s := bif x.vote then s.ev 93 else s
  match s.get Reg.PWR_CFG_BOOTMODE.z with
  | 1 => s.powerStart 2
  | 2 => s.powerStart 3
  | _ => s

/-- START_STEP_DONE: the step under way ends. `code` is not 0 where its hardware failed, `mask` names what S07 to S10 found,
`entries` is what band calibration measured at S03. The Dziast link runs from S08 on (23 R662). -/
def execStartStepDone (code mask : Nat) (entries : List Word) (s : State) : Res :=
  .next <| match s.sec.step with
    | none => s
    | some k =>
      bif !s.alive then s
      else
        let method := if s.get (stepConsec k) = 0 then 0 else s.get (stepPolicy k)
        let s := (s.count (stepAttempts k) 1).put (Reg.SEC_STEP_LASTPOL.e k) method
        let s := { s with sec := { s.sec with used := s.sec.used || method != 0 } }
        let p := if method = 1 then (s.stepSkip k mask, 0) else s.stepRun k method code mask entries
        bif p.2 != 0 then p.1.stepFail k p.2
        else
          let s := p.1.put (stepConsec k) 0
          let s := bif s.sec.keepOk then s.keepWrite else s
          bif le 12 k then s.startEnd
          else
            let s := { s with sec := { s.sec with step := some (k + 1) } }
            bif k == 7 then s.lanesTo 1 else s

/-! ### Resets (R640, R647, R648) -/

/-- RESET_N_ASSERT: a hold by THERMTRIP keeps its cause (R643), and a supply reset its own; without VKEEP the pin is not sensed
(24 R692). -/
def execResetNAssert (s : State) : Res :=
  .next <| bif !bit (s.get Reg.PWR_STAT_SUPGOOD.z) 7 then s
    else
      let s := { s with sec := { s.sec with pin := true } }
      bif s.pwr.tripHold || s.sec.supply then s else s.dieReset 2

/-- RESET_N_DEASSERT: the start begins at S00, the hold of R629 has ended. -/
def execResetNDeassert (s : State) : Res :=
  .next <| bif s.sec.pin then
      { s with sec := { s.sec with pin := false }, pwr := { s.pwr with tripHold := false } }.startFree
    else s

/-- STEPFAIL_RESTART: 100 ms after a STEPFAIL reset. -/
def execStepfailRestart (s : State) : Res :=
  .next <| bif s.sec.wait then { s with sec := { s.sec with wait := false } }.startFree else s

/-- WATCHDOG_EXPIRY: enabled from S05, TMO = 0 is off (R647). -/
def execWatchdogExpiry (s : State) : Res :=
  let on := match s.sec.step with
    | some k => le 5 k
    | none => s.sec.image.isSome
  .next <| bif on && s.alive && s.get Reg.SEC_WDT_TMO.z != 0 then s.dieReset 5 else s

/-- A command of the security window while another runs is ignored (R660). -/
def State.secIdle (s : State) (f : State → State) : State := bif s.on Reg.SEC_STAT_BUSY.z then s.bad .security else f s

/-- SEC_RESET: SOFT; in SAFE it first clears every step's CONSEC (R648). -/
def execSecReset (s : State) : Res :=
  .next <| s.secIdle (fun s =>
    let s := bif s.on Reg.SEC_STAT_SAFE.z then ((upto 13).foldl (fun s k => s.put (stepConsec k) 0) s).keepWrite else s
    s.dieReset 4)

/-! ### Lifecycle and fuses (R651, R652) -/

/-- A command ends with status `st` and event `n`. -/
def State.secStatus (s : State) (st n : Nat) : State := (s.put Reg.SEC_STAT_CMDST.z st).ev n

/-- A burn of `f` begins. -/
def State.burnStart (s : State) (f : Fuses) (lc : Bool) : State :=
  { s.flag Reg.SEC_STAT_BUSY.z true with sec := { s.sec with burn := some f, burnLc := lc } }

/-- Bytes `a` to `a` + `n` − 1 of an OCTETS area of registers. -/
def State.octets (s : State) (f : Fld) (a n : Nat) : List Byte :=
  (upto n).map (fun k => BitVec.ofNat 8 (bits (s.word (f.e ((a + k) / 4)).off).toNat (8 * ((a + k) % 4)) 8))

def serialBytes : List Byte := (upto 16).map Config.serial

/-- Fuses can only be burnt: keys are ored. -/
def orBytes (a b : List Byte) : List Byte := (a.zip b).map (fun x => x.1 ||| x.2)

/-- PROVISION: seven key hashes and the OPEN state, in BLANK. -/
def execSecProvision (s : State) : Res :=
  .next <| s.secIdle (fun s =>
    bif s.get Reg.SEC_STAT_LC.z != 0 then s.secStatus 4 90
    else
      let f := s.sec.voted
      let keys := (upto 7).map (fun k => orBytes (f.keys.getD k (zeros 48)) (s.octets Reg.SEC_KEYS_DATA (48 * k) 48))
      s.burnStart { f with keys := keys, lc := max f.lc 1 } true)

/-- The message a lifecycle token signs (R651). -/
def State.tokenMessage (s : State) (target : Nat) : List Byte := sha384 (serialBytes ++ u8 target ++ u32 (s.obj 0x1005 0))

/-- LCREQ: a change that SEC_TOKEN authorises under firmware key slot 0; BLANK to RETIRED needs none. -/
def execLcreq (s : State) : Res :=
  .next <| s.secIdle (fun s =>
    let lc := s.get Reg.SEC_STAT_LC.z
    let tok := s.octets Reg.SEC_TOKEN_DATA 0 100
    let target := leAt tok 0 1
    let free := lc == 0 && target == 3
    let allowed := free || (lc == 1 && target == 2) || ((lc == 1 || lc == 2) && target == 3)
    let good := Config.ecdsa384 (s.sec.fuses.keys.getD 0 []) (tok.drop 4) (s.tokenMessage target)
    bif !allowed then s.secStatus 4 90
    else bif leAt tok 1 3 != 0 || (!free && !good) then s.secStatus 2 90
    else
      let f := s.sec.voted
      s.burnStart { f with lc := max f.lc target } true)

/-- SVNBURN: through the mailbox, in OPEN or SECURED, to SEC_ARG. -/
def execSvnburn (mailbox : Bool) (s : State) : Res :=
  .next <| s.secIdle (fun s =>
    let f := s.sec.voted
    let v := s.get Reg.SEC_ARG_ARG.z
    bif !signed (s.get Reg.SEC_STAT_LC.z) then s.secStatus 4 91
    else bif !mailbox || lt v (svnOf f) || lt 63 v then s.secStatus 1 91
    else s.burnStart { f with svn := 2 ^ v - 1 } false)

/-- REVOKE: the revocation bit of key slot SEC_ARG; refused for the slot that signed the running image. -/
def execSecRevoke (mailbox : Bool) (s : State) : Res :=
  .next <| s.secIdle (fun s =>
    let f := s.sec.voted
    let k := s.get Reg.SEC_ARG_ARG.z
    bif !signed (s.get Reg.SEC_STAT_LC.z) then s.secStatus 4 91
    else bif !mailbox || lt 6 k || (s.sec.image.isSome && s.sec.slot == k) then s.secStatus 1 91
    else s.burnStart { f with revoked := f.revoked ||| 2 ^ k } false)

/-- FUSE_BURN_DONE: a lifecycle change is pending until the next S04; SVN and revocation hold at once. -/
def execFuseBurnDone (s : State) : Res :=
  .next <| match s.sec.burn with
    | none => s
    | some f =>
      let lc := s.sec.burnLc
      let s := { s with sec := { s.sec.burnt 3 with burnLc := false } }.flag Reg.SEC_STAT_BUSY.z false
      bif lc then (s.flag Reg.SEC_STAT_LCPEND.z true).secStatus 0 90
      else
        let s := { s with sec := { s.sec with fuses := { s.sec.fuses with svn := f.svn, revoked := f.revoked } } }
        (s.put Reg.SEC_STAT_SVN.z (svnOf f)).secStatus 0 91

/-! ### The flash (R654) -/

/-- A flash command begins. -/
def State.flashStart (s : State) (op : Nat) : State :=
  { s.flag Reg.SEC_STAT_BUSY.z true with sec := { s.sec with flashOp := some ⟨op, s.get Reg.SEC_FLADDR_ADDR.z⟩ } }

/-- Bytes `a` to `a` + `n` − 1 touch the image that runs, in a lifecycle state that protects it. -/
def State.flashProtected (s : State) (a n : Nat) : Bool :=
  match s.sec.image with
  | none => false
  | some i => signed (s.get Reg.SEC_STAT_LC.z) && lt a (imageBase i + 0xF00000) && lt (imageBase i) (a + n)

/-- PROGRAM or ERASE of `n` bytes: aligned, and outside the running image. -/
def State.flashChange (s : State) (op n : Nat) : State :=
  let a := s.get Reg.SEC_FLADDR_ADDR.z
  s.secIdle (fun s =>
    bif a % n != 0 then s.bad .security
    else bif s.flashProtected a n then s.secStatus 3 92 else s.flashStart op)

/-- FLASH_READ. -/
def execFlashRead (s : State) : Res := .next <| s.secIdle (fun s => s.flashStart 1)
/-- FLASH_PROGRAM of a page. -/
def execFlashProgram (s : State) : Res := .next (s.flashChange 2 256)
/-- FLASH_ERASE of a sector. -/
def execFlashErase (s : State) : Res := .next (s.flashChange 3 65536)

/-- The flash byte at `a` as a read returns it; the bytes of a stored copy are not laid out. -/
def State.flashByte (s : State) (a : Nat) : State × Byte :=
  let a := a % 2 ^ 26
  let held := (le 0x2000000 a && lt a 0x2100000 && s.ctl.stored0.isSome)
    || (le 0x2100000 a && lt a 0x2200000 && s.ctl.stored1.isSome)
  bif held then (s.took, BitVec.ofNat 8 (s.free 8)) else (s, tget (fun _ => 0xFF) s.sec.flash a)

/-- READ fills SEC_FLBUF. -/
def State.flashFill (s : State) (a : Nat) : State :=
  (upto 64).foldl (fun s w =>
    let p := (upto 4).foldl (fun (p : State × Nat) k =>
      let q := p.1.flashByte (a + 4 * w + k)
      (q.1, p.2 + q.2.toNat * 2 ^ (8 * k))) (s, 0)
    p.1.setWord (Reg.SEC_FLBUF_DATA.e w).off (BitVec.ofNat 32 p.2)) s

/-- Flash bytes from `a` on take new contents; a stored copy they touch is no longer valid. -/
def State.flashStore (s : State) (a : Nat) (d : List Byte) : State :=
  let fl := (d.zip (upto d.length)).foldl (fun m x => tset (fun _ => 0xFF) m (a + x.2) x.1) s.sec.flash
  let s := { s with sec := { s.sec with flash := fl } }
  bif le 0x2000000 a && lt a 0x2100000 then { s with ctl := { s.ctl with stored0 := none } }
  else bif le 0x2100000 a && lt a 0x2200000 then { s with ctl := { s.ctl with stored1 := none } } else s

/-- FLASH_DONE: the command's effect, EV092. -/
def execFlashDone (s : State) : Res :=
  .next <| match s.sec.flashOp with
    | none => s
    | some f =>
      let s := { s with sec := { s.sec with flashOp := none } }.flag Reg.SEC_STAT_BUSY.z false
      let s := match f.op with
        | 1 => s.flashFill f.addr
        | 2 => s.flashStore f.addr (s.octets Reg.SEC_FLBUF_DATA 0 256)
        | _ => s.flashStore f.addr (List.replicate 65536 0xFF)
      s.secStatus 0 92

/-! ### Signed tile programs (R655) -/

/-- VERIFY of tile `t`'s staged program bank. -/
def execTileVerify (t : Nat) (s : State) : Res :=
  .next <| s.secIdle (fun s =>
    if 64 ≤ t then s.bad .security
    else { (s.put Reg.SEC_STAT_TVST.z 1).flag Reg.SEC_STAT_BUSY.z true with sec := { s.sec with verify := some t } })

/-- The status of the verification of tile `t`: 2 OK, 3 BADSIG, 5 REVOKED. -/
def State.verifyStatus (s : State) (t : Nat) : Nat :=
  let sig := s.octets Reg.SEC_TSIG_DATA 0 104
  let len := leAt sig 0 4
  let slot := leAt sig 4 1
  let b := 1 - s.liveBank t
  let prog := (upto (min len 16384)).flatMap (fun a => u32 ((s.tile t).syllable b a).toNat)
  let tail := ((s.tile t).bank b).any (fun e => le len e.1 && e.2 != 0)
  let f := s.sec.fuses
  bif lt slot 2 && bit f.revoked (4 + slot) then 5
  else bif len == 0 || lt 16384 len || lt 1 slot || leAt sig 5 3 != 0 || tail
    || !Config.ecdsa384 (f.keys.getD (4 + slot) []) (sig.drop 8) (sha384 (prog ++ u32 len ++ u8 slot)) then 3
  else 2

/-- VERIFY_DONE: SIGOK on success; EV089. -/
def execTileVerifyDone (s : State) : Res :=
  .next <| match s.sec.verify with
    | none => s
    | some t =>
      let st := s.verifyStatus t
      let s := ({ s with sec := { s.sec with verify := none } }.put Reg.SEC_STAT_TVST.z st).flag Reg.SEC_STAT_BUSY.z false
      (bif st == 2 then s.flag (Reg.TILE_XSTAT_SIGOK.t t) true else s).ev 89

/-! ### Debug (R656, R657, R659) -/

/-- The TAP answers: the die is powered and not in Keep. -/
def State.tap (s : State) : Bool := s.alive

/-- The nonce is renewed: 32 bytes the spec does not give. -/
def State.newNonce (s : State) : State :=
  { s with sec := { s.sec with nonce := leBytes 32 (s.free 256), extest := false } }.took

/-- CHAL: the 320 bits captured. -/
def execDbgChal (s : State) : Res :=
  .next <| bif s.tap then
      let s := s.newNonce
      s.emit (.chal (s.sec.nonce ++ u32 (s.obj 0x1005 0) ++ u8 (s.get Reg.SEC_STAT_LC.z) ++ u8 (s.get Reg.SEC_STAT_DBG.z) ++ zeros 2))
    else s

/-- The session ends: EV086, its locks are ABANDONED (R657, 12 R402). -/
def State.debugEnd (s : State) : State :=
  bif s.get Reg.SEC_STAT_DBG.z == 0 then s else ((s.put Reg.SEC_STAT_DBG.z 0).lockAbandon 66).ev 86

/-- A refused response: the third in a row, and each after it, locks RESP out for twice as long, from 10 s to 160 s. -/
def State.respRefuse (s : State) : State :=
  let n := s.sec.refusals + 1
  let secs := if n < 3 then s.sec.lockSecs else if n = 3 then 10 else min 160 (2 * s.sec.lockSecs)
  let s := ({ s with sec := { s.sec with refusals := n, lockSecs := secs } }).ev 87
  bif le 3 n then (s.flag Reg.SEC_STAT_LOCKOUT.z true).ev 88 else s

/-- The response is granted (R649, R657). -/
def State.respGood (s : State) (level : Nat) (sig : List Byte) : Bool :=
  let lc := s.get Reg.SEC_STAT_LC.z
  bif lt 2 level || (lc == 2 && level == 2) then false
  else bif !signed lc then true
  else Config.ecdsa384 (s.sec.fuses.keys.getD 6 []) sig
    (sha384 (s.sec.nonce ++ serialBytes ++ u32 (s.obj 0x1005 0) ++ u8 level))

/-- RESP: a level and a signature (r, s). -/
def execDbgResp (level : Nat) (sig : List Byte) (s : State) : Res :=
  .next <| bif !s.tap then s
    else bif s.on Reg.SEC_STAT_LOCKOUT.z then (s.newNonce).ev 87
    else
      let good := s.respGood level sig
      let s := s.newNonce
      bif !good then s.respRefuse
      else
        let s := { s with sec := { s.sec with refusals := 0, lockSecs := 0 } }
        bif level == 0 then s.debugEnd
        else bif s.get Reg.SEC_STAT_DBG.z == level then s
        else (s.put Reg.SEC_STAT_DBG.z level).ev 85

/-- DBGEND. -/
def execDbgend (s : State) : Res :=
  .next <| bif s.tap then { s with sec := { s.sec with extest := false } }.debugEnd else s

/-- RESP_LOCKOUT_END. -/
def execRespLockoutEnd (s : State) : Res := .next (s.flag Reg.SEC_STAT_LOCKOUT.z false)

/-- Boundary scan is available (R659): in Sleep, outside SECURED. -/
def State.scanOk (s : State) : Bool :=
  s.tap && s.get Reg.PWR_STAT_MODE.z == 2 && s.get Reg.SEC_STAT_LC.z != 2

/-- EXTEST: the cells drive the pins, as `scanDriven` says (24 R699). -/
def execExtest (cells : List Bool) (s : State) : Res :=
  .next <| bif s.scanOk then
      { s with sec := { s.sec with extest := true, cells := scanCells cells } }.emit (.pins (scanCells cells))
    else s

/-- SAMPLE/PRELOAD: the pins are captured, the cells take what is shifted in. -/
def execSamplePreload (pins cells : List Bool) (s : State) : Res :=
  .next <| bif s.scanOk then
      { s with sec := { s.sec with extest := false, cells := scanCells cells } }.emit (.scan (scanCells pins))
    else s

end Sys2Proof.Machine
end

