-- ==== Sys2Proof/Machine/Check.lean ====
section
/-!
DEFINITION. The admission check (19_admission_and_configuration.md R571 to R581), first part: the configuration it evaluates,
failures, the stated ranges, and the conditions of the ingress, the fronts and the fine channeliser.
-/
namespace Sys2Proof.Machine

/-- The staged configuration (R571): the staged word of a banked block, the word itself elsewhere; by live offset. -/
def State.cand (s : State) : BankView :=
  ⟨fun o => match blkAt o with
    | some b => bif b.banked then s.word (o + b.half) else s.word o
    | none => 0, s.get Reg.ADM_CGEN_CGEN.z⟩

/-- A failure of the check: code, block code and item of ADM_RES, NEED and HAVE (R581). -/
structure Fail where
  code : Nat
  block : Nat
  item : Nat
  need : Nat
  avail : Nat
deriving DecidableEq, Repr

/-- The failure, if the condition is broken. -/
def failIf (broken : Bool) (f : Fail) : List Fail := bif broken then [f] else []

/-- NEED, or HAVE, of a refused register: its staged offset. -/
def stagedAt (o : Nat) : Nat :=
  match blkAt o with
  | some b => bif b.banked then o + b.half else o
  | none => o

def codeAt (o : Nat) : Nat :=
  match blkAt o with
  | some b => b.code
  | none => 0

/-- INVALID for element `item`, by one of its registers (R581). -/
def invalidAt (c : BankView) (item : Nat) (l : Loc) : Fail := ⟨2, codeAt l.off, item, stagedAt l.off, (c.word l.off).toNat⟩

/-- RANGE for a field of the staged configuration (R581). -/
def rangeAt (c : BankView) (l : Loc) : Fail := ⟨1, codeAt l.off, 0, stagedAt l.off, c.get l⟩

/-- A failure of a budget: NEED and HAVE in the code's unit, rounded (00 R16, R581). -/
def overload (code block item : Nat) (need have_ : Frac) : List Fail :=
  failIf (!need.le have_) ⟨code, block, item, need.rnd, have_.rnd⟩

/-- f_commit of the check in Hz (R569). -/
def clockOf (c : BankView) : Nat := 25000000 * c.get Reg.ADM_CLK_FSTAGE.z

/-! ### RANGE -/

/-- Every field of a staged word lies in its stated range; a word at its reset value does. -/
def State.rangeFails (s : State) : List Fail :=
  s.regs.flatMap (fun e => match blkAt e.1 with
    | some b => bif inStaged b e.1 then
        (fieldsAt b e.1).filterMap (fun f =>
          let v := bits e.2.toNat f.lo f.w
          if f.acc = .rwd ∧ ¬ (f.mn ≤ v ∧ v ≤ f.mx) then some ⟨1, b.code, 0, e.1, v⟩ else none)
      else []
    | none => [])

/-- Inputs enabled by the configuration. -/
def inputsOn (c : BankView) : List Nat := (upto 128).filter (fun n => c.on (Reg.ING_LMAP_EN.e n))
def rateOf (c : BankView) (n : Nat) : Nat := 1000 * c.get (Reg.ING_RATE_RATE.e n)
def c16Of (c : BankView) (n : Nat) : Bool := c.get (Reg.ING_ICFG_FMT.e n) == 1

/-- Ranges that depend on another field: JRATE of a JESD204C group, the rate of a C16 input (04 R149), HALF of a palette slot
(05 R177), LEN of a fine one (06 R204), the FIR headers and selectors (08 R264), and a tuner's ring (08 R264). -/
def rangeFails2 (c : BankView) : List Fail :=
  (upto 16).flatMap (fun g =>
    let r := c.get (Reg.ING_GCFG_JRATE.e g)
    failIf (c.on (Reg.ING_GCFG_JESD.e g) && (lt r 800 || lt 3250 r)) (rangeAt c (Reg.ING_GCFG_JRATE.e g)))
  ++ (upto 128).flatMap (fun n =>
    let r := c.get (Reg.ING_RATE_RATE.e n)
    failIf (c16Of c n && lt 3200000 r && le r 6400000) (rangeAt c (Reg.ING_RATE_RATE.e n)))
  ++ (upto 8).flatMap (fun k =>
    let kind := c.get (Reg.CCH_PALHDR_KIND.e k)
    let h := c.get (Reg.CCH_PALHDR_HALF.e k)
    failIf ((kind == 1 && (lt h 512 || lt 16384 h)) || (kind == 2 && h != 32 && h != 64)) (rangeAt c (Reg.CCH_PALHDR_HALF.e k)))
  ++ (upto 4).flatMap (fun k =>
    let kind := c.get (Reg.FCH_PALHDR_KIND.e k)
    let l := c.get (Reg.FCH_PALHDR_LEN.e k)
    failIf ((kind == 1 && (lt l 8 || lt 8192 l)) || (kind == 2 && (lt l 16 || lt 16384 l))) (rangeAt c (Reg.FCH_PALHDR_LEN.e k)))
  ++ (upto 32).flatMap (fun k =>
    let t := c.get (Reg.TUN_FIRHDR_T.e k)
    bif c.get (Reg.TUN_FIRHDR_KIND.e k) == 1 then
      failIf (t == 0) (rangeAt c (Reg.TUN_FIRHDR_T.e k))
        ++ failIf (lt (16 * (t - 1)) (c.get (Reg.TUN_FIRHDR_DLY.e k))) (rangeAt c (Reg.TUN_FIRHDR_DLY.e k))
    else [])
  ++ (upto 256).flatMap (fun t =>
    let f := c.get (Reg.TUN_FIR_FSEL.e t)
    let r := c.get (Reg.TUN_FIR_RSEL.e t)
    failIf (lt 5 f && lt f 0x10) (rangeAt c (Reg.TUN_FIR_FSEL.e t))
      ++ failIf (lt 1 r && lt r 0x10) (rangeAt c (Reg.TUN_FIR_RSEL.e t))
      ++ failIf (c.on (Reg.TUN_CTRL_EN.e t) && c.on (Reg.TUN_DEST_TEN.e t) && c.get (Reg.TUN_RING_RLEN.e t) == 0)
        (rangeAt c (Reg.TUN_RING_RLEN.e t)))

/-! ### Ingress (04 R114, R122, R131, R132, R135, 20 R610, 22 R645, R646, 23 R670) -/

/-- L, M and F of an input's JESD204C link. -/
def linkLanes (c : BankView) (n : Nat) : Nat := 2 ^ c.get (Reg.ING_LMAP_LW.e n)
def jesdM (c : BankView) (n : Nat) : Nat := c.get (Reg.ING_JCFG_M.e n)

/-- The JESD204C parameters of an input are supported (R131). -/
def jesdOk (c : BankView) (n : Nat) : Bool :=
  let m := jesdM c n
  let f2 := m * 2 ^ c.get (Reg.ING_JCFG_SLOG.e n) * 2
  let l := linkLanes c n
  m == (bif c16Of c n then 2 else 1) && le (c.get (Reg.ING_JCFG_CS.e n)) (16 - c.get (Reg.ING_JCFG_N.e n))
    && (f2 == 2 * l || f2 == 4 * l || f2 == 8 * l)

/-- The lane map of input `n` stands (R135), its lanes are present (22 R645) and its front buffer too (22 R646). -/
def State.mapOk (s : State) (c : BankView) (on : List Nat) (n : Nat) : Bool :=
  let a := c.get (Reg.ING_LMAP_LANE.e n)
  let l := linkLanes c n
  let j := c.on (Reg.ING_LMAP_JESD.e n)
  let taken := on.any (fun m => lt m n && (let b := c.get (Reg.ING_LMAP_LANE.e m); lt b (a + l) && lt a (b + linkLanes c m)))
  !taken && a % l == 0 && (j || l == 1)
    && (upto l).all (fun i => c.on (Reg.ING_GCFG_JESD.e ((a + i) / 8)) == j && !c.on (Reg.ING_LCFG_PWRDN.e (a + i))
      && !bit s.sec.badDies ((a + i) / 32))
    && !bit s.sec.badFronts n

/-- SYSREF's boundaries fall on whole extended multiblocks of the input (20 R610): SDIV ÷ f_REF′ is a multiple of
128 × L ÷ (M × F_s). -/
def State.sysrefOk (s : State) (c : BankView) (n : Nat) : Bool :=
  c.get Reg.CLK_SYSREF_SDIV.z * jesdM c n * rateOf c n % (128 * linkLanes c n * max 1 s.fref) == 0

/-- INVALID conditions of the ingress, by input. -/
def State.ingInvalid (s : State) (c : BankView) : List Fail :=
  let on := inputsOn c
  on.flatMap (fun n =>
    let j := c.on (Reg.ING_LMAP_JESD.e n)
    failIf (!s.mapOk c on n || (j && s.paired)) (invalidAt c n (Reg.ING_LMAP_EN.e n))
      ++ failIf (j && !jesdOk c n) (invalidAt c n (Reg.ING_JCFG_M.e n))
      ++ failIf (j && !s.sysrefOk c n) (invalidAt c n Reg.CLK_SYSREF_SDIV.z))

/-- FRONT: the front's rate (R114), the native lane's (R122) and the JESD204C lane's (R132), in kS/s. -/
def frontFails (c : BankView) : List Fail :=
  (inputsOn c).flatMap (fun n =>
    let k := c.get (Reg.ING_RATE_RATE.e n)
    let top := frac (4 * clockOf c * 257 * 10000) (256 * 10002 * 1000)
    let b := bif c16Of c n then 4 else 2
    let f := 2048 / 2 ^ c.get (Reg.ING_ICFG_FLEN.e n)
    let lane := frac (106250000000 * 16 * 128 * (f - 48)) ((f / 2 + 1) * 257 * 129 * b * 1000)
    let m := jesdM c n
    let need := frac (rateOf c n * m * 66) (4 * linkLanes c n)
    let got := 10000000 * c.get (Reg.ING_GCFG_JRATE.e (c.get (Reg.ING_LMAP_LANE.e n) / 8))
    overload 5 0x10 n ⟨k, 1⟩ top
      ++ (bif c.on (Reg.ING_LMAP_JESD.e n) then
            failIf (lt (got * need.den * 1000000) (need.num * 999800) || lt (need.num * 1000200) (got * need.den * 1000000))
              ⟨5, 0x10, n, k, (frac (got * 4 * linkLanes c n) (max 1 m * 66 * 1000)).rnd⟩
          else overload 5 0x10 n ⟨k, 1⟩ lane))

/-! ### Fronts (05 R160, R175) and the fine channeliser (06 R179, R183, R194, R195, R200) -/

/-- The window of the filter bank, or of the sketch, that input `n` names exists and fits (R160). -/
def windowOk (c : BankView) (sel kind half : Nat) : Bool :=
  lt sel 4 || (le 0x10 sel && lt sel 0x18 && c.get (Reg.CCH_PALHDR_KIND.e (sel - 0x10)) == kind
    && c.get (Reg.CCH_PALHDR_HALF.e (sel - 0x10)) == half)

def coarseInvalid (c : BankView) : List Fail :=
  (upto 128).flatMap (fun n =>
    failIf (!windowOk c (c.get (Reg.CCH_WIN_WIN.e n)) 1 (4 * 2 ^ gridLog c n 0 (c16Of c n))
        || !windowOk c (c.get (Reg.CCH_WIN_SKWIN.e n)) 2 (bif c16Of c n then 32 else 64))
      (invalidAt c n (Reg.CCH_WIN_WIN.e n)))

/-- A fine window or flattening table (R183): none is `FLAT` = 0. -/
def fineSlotOk (c : BankView) (sel kind len : Nat) : Bool :=
  le 0x10 sel && lt sel 0x14 && c.get (Reg.FCH_PALHDR_KIND.e (sel - 0x10)) == kind
    && c.get (Reg.FCH_PALHDR_LEN.e (sel - 0x10)) == len

def fineInvalid (c : BankView) : List Fail :=
  (upto 128).flatMap (fun n =>
    let w := c.get (Reg.FCH_WIN_WIN.e n)
    let f := c.get (Reg.FCH_WIN_FLAT.e n)
    failIf (c.on (Reg.FCH_ICFG_EN.e n) && (!c.on (Reg.CCH_ICFG_MAINEN.e n) || c.on (Reg.CCH_ICFG_OVS.e n)))
        (invalidAt c n (Reg.FCH_ICFG_EN.e n))
      ++ failIf (!(lt w 4 || fineSlotOk c w 1 (fineNB c n / 2)) || !(f == 0 || fineSlotOk c f 2 (fineNB c n)))
        (invalidAt c n (Reg.FCH_WIN_WIN.e n)))

/-- The inputs the fine channeliser transforms (R179). -/
def fineInputs (c : BankView) : List Nat :=
  (inputsOn c).filter (fun n => c.on (Reg.FCH_ICFG_EN.e n) && c.on (Reg.CCH_ICFG_MAINEN.e n) && !c.on (Reg.CCH_ICFG_OVS.e n))

/-- r_n: spectra per second of the main output of input `n` (05 R168). -/
def mainRate (c : BankView) (n : Nat) : Frac := frac (rateOf c n) (gridHop c n 0 (c16Of c n))

/-- S_n: selected bins. -/
def binsOf (c : BankView) (n : Nat) : Nat := (fineBins c n (coarseBins c n)).length

/-- FINE: P of R194 against 98 % of 640 points per cycle. -/
def fineFails (c : BankView) : List Fail :=
  let p := Frac.sum ((fineInputs c).map (fun n => (mainRate c n).mul (frac (binsOf c n * fineNB c n) (fineHop c n))))
  overload 0xD 0x12 0 (p.div ⟨1000000, 1⟩) (frac (clockOf c * 640 * 98) 100000000)

/-- When the fine spectra of input `n` fall due: the sample index of the first one's last index, and their distance in samples. -/
def duePhase (c : BankView) (n : Nat) : Nat × Nat :=
  let h := gridHop c n 0 (c16Of c n)
  ((fineSigma c n + fineNB c n - 1) * h + gridLen c n 0 (c16Of c n) - 1, fineHop c n * h)

/-- The load of input `n`: S × N_B. -/
def dueWeight (c : BankView) (n : Nat) : Nat := binsOf c n * fineNB c n

/-- The largest Σ S × N_B of inputs `l` of one sample rate due within 256 cycles: the inputs due within that time after each of one
input's moments, over one period of their grids (R195). -/
def dueGroup (c : BankView) (l : List Nat) : Nat :=
  let ps := l.map (fun n => (n, duePhase c n))
  let period := ps.foldl (fun a p => Nat.lcm a p.2.2) 1
  let within (x : Nat) (p : Nat × Nat × Nat) : Bool :=
    lt ((p.2.1 + p.2.2 - x % p.2.2) % p.2.2 * clockOf c) (256 * rateOf c p.1)
  maxOf (ps.flatMap (fun p => (upto (period / p.2.2)).map (fun q =>
    let x := p.2.1 + q * p.2.2
    sumOf ((ps.filter (within x)).map (fun r => dueWeight c r.1)))))

/-- W of R195: the largest S × N_B due within 256 cycles. DEDUCED (log 63): inputs of different sample rates keep no common
distance and are taken to fall together at some time. -/
def dueLoad (c : BankView) : Nat :=
  let l := fineInputs c
  sumOf ((l.map (rateOf c)).eraseDups.map (fun r => dueGroup c (l.filter (fun n => rateOf c n == r))))

/-- The bound of R195 for input `n` in cycles, `w` being W. -/
def fineBound (c : BankView) (w n : Nat) : Nat :=
  (if ringInHbm c n then 15000 else 3000) + 2 * fineNB c n + ceilDiv (2 * w) 640

/-- SPLITGEN (R200): the coarse spectra of an input from the last generation change to the instant `at_` number fewer than a span of its
fine spectra, under the live bank or the staged one. -/
def State.splitFails (s : State) (c : BankView) (at_ : Option Nat) : List Fail :=
  let live : BankView := ⟨s.word, 0⟩
  match s.adm.genAt, at_ with
  | some a, some b =>
    ((upto 128).filter (fun n => (fineInputs c).contains n || (fineInputs live).contains n)).flatMap (fun n =>
      let span := max (bif (fineInputs c).contains n then fineNB c n else 0) (bif (fineInputs live).contains n then fineNB live n else 0)
      let got := (frac (b - a) sec48).mul (mainRate live n)
      failIf (lt got.down span) ⟨4, 0x12, n, span, got.down⟩)
  | _, _ => []

/-! ### DEPEND (05 R175, 08 R261, 11 R360) -/

/-- The view takes input `n` on the plane. -/
def viewTakes (c : BankView) (v n : Nat) : Bool := bit (c.get (Reg.DVW_MASK_SEL.e2 v (n / 32))) (n % 32)
def unitTakes (c : BankView) (u n : Nat) : Bool := bit (c.get (Reg.TRG_USEL_SEL.e2 u (n / 32))) (n % 32)
def seamTakes (c : BankView) (n : Nat) : Bool := c.on Reg.XSP_CTRL_EN.z && bit (c.get (Reg.XSP_INMASK_SEL.e (n / 32))) (n % 32)

/-- The fields of a seam port. -/
def seamFields : List Fld := [Reg.CCH_ICFG_SSHIFT, Reg.CCH_ICFG_SFMT, Reg.CCH_ICFG_SEAMEN, Reg.CCH_ICFG_NLOG, Reg.CCH_WIN_WIN]

def State.dependFails (s : State) (c : BankView) : List Fail :=
  let live : BankView := ⟨s.word, 0⟩
  let differs (n : Nat) (f : Fld) : Bool := live.get (f.e n) != c.get (f.e n)
  let views := viewsOn c
  let units := (upto 32).filter (fun u => c.on (Reg.TRG_UCFG_EN.e u) && c.get (Reg.TRG_UCFG_SRC.e u) == 3)
  let fail (block n : Nat) (b : Blk) (p : Bool) : List Fail := failIf (p && !s.blkChanged b) ⟨3, block, n, b.code, 0⟩
  (upto 128).flatMap (fun n =>
    let grid := differs n Reg.CCH_ICFG_NLOG || differs n Reg.CCH_ICFG_OVS || differs n Reg.ING_ICFG_FMT
    (bif grid then
        fail 0x11 n .fine (c.on (Reg.FCH_ICFG_EN.e n))
          ++ fail 0x11 n .detect (views.any (fun v => c.get (Reg.DVW_CTRL_PLANE.e v) == 1 && viewTakes c v n))
          ++ fail 0x11 n .triggers (units.any (fun u => unitTakes c u n))
      else [])
      ++ fail 0x11 n .cross (seamTakes c n && (grid || seamFields.any (differs n)))
      ++ failIf (differs n Reg.ING_RATE_RATE && (upto 256).any (fun t =>
            c.on (Reg.TUN_CTRL_EN.e t) && c.get (Reg.TUN_CTRL_INPUT.e t) == n
              && !s.elemChanged .tuners tunFields t)) ⟨3, 0x10, n, Blk.code .tuners, 0⟩)

end Sys2Proof.Machine
end

