-- ==== Sys2Proof/Machine/Check2.lean ====
section
/-!
DEFINITION. The admission check, second part: the INVALID conditions of the views, tuners, triggers, recorder, cross-spectral
engine, streams, display and stimulus (19_admission_and_configuration.md R581, and the chapters of the blocks).
-/
namespace Sys2Proof.Machine

/-! ### Cells of a plane (07 R207), for views and trigger units -/

/-- A rectangle of cells: plane, first bin, bins, first fine bin, fine bins. -/
structure CellRect where
  plane : Nat
  k0 : Nat
  kn : Nat
  j0 : Nat
  jn : Nat

/-- W of R206. -/
def CellRect.width (r : CellRect) : Nat :=
  if r.plane = 3 then 1 else r.kn * (if r.plane = 2 then r.jn else 1)

/-- All elements of the list have the same value of `f`. -/
def alike {α : Type} [DecidableEq α] (f : Nat → α) : List Nat → Bool
  | [] => true
  | n :: ns => ns.all (fun m => decide (f m = f n))

/-- The conditions of R207 on a rectangle over the inputs `ns`. -/
def rectOk (c : BankView) (r : CellRect) (ns : List Nat) : Bool :=
  let w := r.width
  let geo (n : Nat) := (c.get (Reg.CCH_ICFG_NLOG.e n), c.on (Reg.CCH_ICFG_OVS.e n), c16Of c n)
  let fgeo (n : Nat) := (c.get (Reg.FCH_ICFG_NBLOG.e n), c.get (Reg.FCH_ICFG_OVL.e n), c.on (Reg.FCH_ICFG_ALIGN.e n))
  le w 65536 && le (w * ns.length) 1048576 &&
    (match r.plane with
     | 0 => le (r.k0 + r.kn) 64 && alike geo ns
     | 1 => alike geo ns && ns.all (fun n => le (r.k0 + r.kn) (coarseBins c n))
     | 2 => alike fgeo ns && ns.all (fun n => le (r.k0 + r.kn) (coarseBins c n) && le (r.j0 + r.jn) (fineNB c n)
              && (upto r.kn).all (fun k => fineSel c n (r.k0 + k)))
     | _ => true)

/-! ### Views (07 R207, R216, R219) and their layers (17 R522) -/

def viewRect (c : BankView) (v : Nat) : CellRect :=
  ⟨c.get (Reg.DVW_CTRL_PLANE.e v), c.get (Reg.DVW_RECT0_K0.e v), c.get (Reg.DVW_RECT0_KCNT.e v), c.get (Reg.DVW_RECT1_J0.e v),
   c.get (Reg.DVW_RECT1_JCNT.e v)⟩

/-- The inputs, or tuners, that view `v` selects (R207). -/
def viewNs (c : BankView) (v : Nat) : List Nat :=
  let t := bif c.get (Reg.DVW_CTRL_PLANE.e v) == 3 && c.on (Reg.DVW_CTRL_THI.e v) then 128 else 0
  ((upto 128).filter (viewTakes c v)).map (· + t)

/-- A detector, format, interval and change-only setting that R216 permits on the plane, with HOLD for MAX and MIN alone. -/
def detectorOk (c : BankView) (v : Nat) : Bool :=
  let det := c.get (Reg.DVW_CTRL_DET.e v)
  let p := c.get (Reg.DVW_CTRL_PLANE.e v)
  let f := c.get (Reg.DVW_CTRL_VFMT.e v)
  let n := c.get (Reg.DVW_INT_N.e v)
  let d := c.on (Reg.DVW_CTRL_DELTA.e v)
  (match det with
   | 0 => n == 1
   | 1 => true
   | 2 => !d || f == 0
   | 3 => f == 0
   | 4 | 5 => !d || f == 0
   | 6 => !d && le p 2 && le 2 n && le n 65536
   | _ => !d && le p 2 && le (c.get (Reg.DVW_MAP0_COLS.e v)) (viewRect c v).width)
    && (!c.on (Reg.DVW_CTRL_HOLD.e v) || det == 4 || det == 5)

def viewInvalid (c : BankView) (views : List Nat) : List Fail :=
  views.flatMap (fun v =>
    failIf (!detectorOk c v || !rectOk c (viewRect c v) (viewNs c v)) (invalidAt c v (Reg.DVW_CTRL_EN.e v)))

/-- The enabled views that feed layer `l` of output `o` (17 R522). -/
def layerViews (c : BankView) (views : List Nat) (o l : Nat) : List Nat :=
  views.filter (fun v => c.on (Reg.DVW_DEST_CEN.e v) && c.get (Reg.DVW_DEST_CANOUT.e v) == o
    && c.get (Reg.DVW_DEST_LAYER.e v) == l)

/-- A layer's place on the screen and its view (17 R522). -/
def layerOk (c : BankView) (views : List Nat) (o l : Nat) : Bool :=
  let vs := layerViews c views o l
  le vs.length 1
    && vs.all (fun v => le 7 (c.get (Reg.DVW_CTRL_DET.e v)) && viewTakes c v (c.get (Reg.DSP_LCFG_INPUT.e2 o l)))
    && (!c.on (Reg.DSP_LCFG_EN.e2 o l)
      || (le (c.get (Reg.DSP_LPOS_X0.e2 o l) + c.get (Reg.DSP_LSIZE_W.e2 o l)) (c.get (Reg.DSP_HTIM_HACT.e o))
        && le (c.get (Reg.DSP_LPOS_Y0.e2 o l) + c.get (Reg.DSP_LSIZE_H.e2 o l)) (c.get (Reg.DSP_VTIM_VACT.e o))))

/-- Bytes of canvas memory of an output's enabled layers (17 R522). -/
def canvasBytes (c : BankView) (views : List Nat) (o : Nat) : Nat :=
  sumOf ((upto 16).map (fun l => bif c.on (Reg.DSP_LCFG_EN.e2 o l) then
      sumOf ((layerViews c views o l).map (fun v => 2 * c.get (Reg.DVW_MAP0_ROWS.e v) * c.get (Reg.DVW_MAP0_COLS.e v)))
    else 0))

/-! ### Display timing (17 R527, R530, 20 R608) -/

def dspVbp (c : BankView) (o : Nat) : Int :=
  (c.get (Reg.DSP_VTIM_VTOTAL.e o) : Int) - c.get (Reg.DSP_VTIM_VACT.e o) - c.get (Reg.DSP_VSYN_VFP.e o)
    - c.get (Reg.DSP_VSYN_VSW.e o)

def horizontalOk (c : BankView) (o : Nat) : Bool :=
  let a := c.get (Reg.DSP_HTIM_HACT.e o)
  let f := c.get (Reg.DSP_HSYN_HFP.e o)
  let w := c.get (Reg.DSP_HSYN_HSW.e o)
  le 640 a && le a 3840 && a % 8 == 0 && le 8 f && le 8 w && le (a + f + w + 8) (c.get (Reg.DSP_HTIM_HTOTAL.e o))

def verticalOk (c : BankView) (o : Nat) : Bool :=
  let a := c.get (Reg.DSP_VTIM_VACT.e o)
  le 480 a && le a 2160 && le 3 (c.get (Reg.DSP_VSYN_VFP.e o)) && le 4 (c.get (Reg.DSP_VSYN_VSW.e o)) && leI 6 (dspVbp c o)
    && le (c.get (Reg.DSP_VTIM_VTOTAL.e o)) (c.get (Reg.DSP_VRRMAX_VTMAX.e o))

/-- The best pixel clock of the auxiliary PLL lies within ±500 ppm (20 R608). -/
def State.pixelOk (s : State) (c : BankView) (o : Nat) : Bool :=
  let k := c.get (Reg.DSP_PCLK_KHZ.e o)
  let (ma, n, pd) := auxBest s.bands s.fref k
  ma != 0 && le (auxError s.fref k ma n pd * 2000) (k * 1000 * ma * pd)

/-- Both overlay buffers are aligned and lie in the display region (R527), at `base` of `size` bytes. -/
def overlayOk (c : BankView) (o base size : Nat) : Bool :=
  let n := 4 * c.get (Reg.DSP_HTIM_HACT.e o) * c.get (Reg.DSP_VTIM_VACT.e o)
  let fits (a : Nat) : Bool := a % 64 == 0 && le base a && le (a + n) (base + size)
  fits (c.get (Reg.DSP_OVB0_L_ADDR.e o) + c.get (Reg.DSP_OVB0_H_ADDR.e o) * 2 ^ 32)
    && fits (c.get (Reg.DSP_OVB1_L_ADDR.e o) + c.get (Reg.DSP_OVB1_H_ADDR.e o) * 2 ^ 32)

/-- INVALID conditions of the display, by output; the display region lies at `base`. -/
def State.dspInvalid (s : State) (c : BankView) (views : List Nat) (base size : Nat) : List Fail :=
  (upto 2).flatMap (fun o =>
    failIf (!horizontalOk c o) (invalidAt c o (Reg.DSP_HTIM_HACT.e o))
      ++ failIf (!verticalOk c o) (invalidAt c o (Reg.DSP_VTIM_VACT.e o))
      ++ failIf (c.on (Reg.DSP_OCFG_EN.e o) && !s.pixelOk c o) (invalidAt c o (Reg.DSP_PCLK_KHZ.e o))
      ++ failIf (c.on (Reg.DSP_OCFG_OVLEN.e o) && !overlayOk c o base size) (invalidAt c o (Reg.DSP_OVB0_L_ADDR.e o))
      ++ failIf (lt 16711680 (canvasBytes c views o)) (invalidAt c o (Reg.DSP_OCFG_EN.e o))
      ++ (upto 16).flatMap (fun l => failIf (!layerOk c views o l) (invalidAt c o (Reg.DSP_LCFG_EN.e2 o l))))

/-! ### Tuners (08 R245, R249, R264) -/

def tunInvalid (c : BankView) (tuners : List Nat) : List Fail :=
  tuners.flatMap (fun t =>
    let f := c.get (Reg.TUN_FIR_FSEL.e t)
    let r := c.get (Reg.TUN_FIR_RSEL.e t)
    failIf ((c.on (Reg.TUN_CTRL_FIREN.e t) && le 0x10 f && c.get (Reg.TUN_FIRHDR_KIND.e (f - 0x10)) != 1)
        || (c.on (Reg.TUN_CTRL_RSEN.e t) && le 0x10 r && !c.on (Reg.TUN_RSHDR_VALID.e (r - 0x10))))
      (invalidAt c t (Reg.TUN_FIR_FSEL.e t))
      ++ failIf (c.on (Reg.TUN_DEST_TEN.e t) && lt 32768 (c.get (Reg.TUN_RING_RBASE.e t) + c.get (Reg.TUN_RING_RLEN.e t)))
        (invalidAt c t (Reg.TUN_RING_RBASE.e t)))

/-! ### Triggers (09 R266 to R269, R276, R281, R285) -/

def unitRect (c : BankView) (u : Nat) : CellRect :=
  ⟨c.get (Reg.TRG_UCFG_SRC.e u) - 2, c.get (Reg.TRG_URECT0_K0.e u), c.get (Reg.TRG_URECT0_KCNT.e u),
   c.get (Reg.TRG_URECT1_J0.e u), c.get (Reg.TRG_URECT1_JCNT.e u)⟩

def unitNs (c : BankView) (u : Nat) : List Nat := (upto 128).filter (unitTakes c u)

/-- A mask unit's limits exist for each of its cells (R269). -/
def maskOk (c : BankView) (u : Nat) : Bool :=
  let k := c.get (Reg.TRG_UMSK_SLOT.e u)
  let w := (unitRect c u).width
  le w 4096 && (k == 255 || (lt k 32 && c.on (Reg.TRG_MSKHDR_VALID.e k) && le w (c.get (Reg.TRG_MSKHDR_LEN.e k))))

/-- The unit's source, elements and gate stand (R266 to R269, R276). -/
def State.unitOk (s : State) (c : BankView) (u : Nat) : Bool :=
  let e := c.get (Reg.TRG_UELEM_ELEM.e u)
  let m := c.get (Reg.TRG_UMSK_LMODE.e u)
  let ns := unitNs c u
  (match c.get (Reg.TRG_UCFG_SRC.e u) with
   | 0 => true
   | 1 => lt m 5 && !(m == 4 && ns.any (c16Of c))
   | 2 | 3 | 4 => rectOk c (unitRect c u) ns && maskOk c u
   | 5 => le (c.get (Reg.DVW_CTRL_PLANE.e e)) 2 && c.get (Reg.DVW_CTRL_DET.e e) == 6 && c.on (Reg.DVW_DEST_SKTRIG.e e)
   | 6 => lt m 4 && ns.all (fun n => c.on (Reg.TUN_DEST_TRG.e (n + 128 * c.get (Reg.TRG_UCFG_THI.e u))))
   | 7 => lt e 64
   | 8 => lt e 8
   | 9 | 10 => lt e 32
   | 11 => lt e 32 && s.paired
   | _ => false)
    && c.get (Reg.TRG_UGATE_GMODE.e u) != 3
    && !(c.get (Reg.TRG_UGATE_GMODE.e u) == 1 && lt 7 (c.get (Reg.TRG_UGATE_GIDX.e u)))

def State.trgInvalid (s : State) (c : BankView) (units : List Nat) : List Fail :=
  units.flatMap (fun u => failIf (!s.unitOk c u) (invalidAt c u (Reg.TRG_UCFG_EN.e u)))
  ++ (upto 8).flatMap (fun g =>
    let m := c.get (Reg.TRG_GCFG_MASTER.e g)
    failIf (c.on (Reg.TRG_GCFG_EN.e g) && !(c.on (Reg.TRG_UCFG_GRPEN.e m) && c.get (Reg.TRG_UCFG_GRP.e m) == g))
      (invalidAt c g (Reg.TRG_GCFG_EN.e g)))
  ++ (upto 8).flatMap (fun p => failIf (c.get (Reg.TOUT_CFG_MODE.e p) == 3) (invalidAt c p (Reg.TOUT_CFG_EN.e p)))

/-! ### Recorder (10 R319) and cross-spectral engine (11 R325 to R327, R339) -/

def recInvalid (c : BankView) : List Fail :=
  failIf (le (c.get Reg.REC_RRCFG0_HI.z / 2) (c.get Reg.REC_RRCFG0_LO.z)) (invalidAt c 0 Reg.REC_RRCFG0_HI.z)

/-- Bits per component of a seam value (05 R166). -/
def seamBits (c : BankView) (n : Nat) : Nat := bif c.on (Reg.CCH_ICFG_SFMT.e n) then 8 else 16

def xspInvalid (c : BankView) : List Fail :=
  bif !c.on Reg.XSP_CTRL_EN.z then []
  else
    let ns := xRanks c
    let n0 := ns.headD 0
    let geo (n : Nat) := (c.get (Reg.CCH_ICFG_NLOG.e n), c16Of c n, c.on (Reg.CCH_ICFG_SFMT.e n), rateOf c n)
    let corr := c.on Reg.XSP_CTRL_CORREN.z
    let beam := c.on Reg.XSP_BCTRL_BEAMEN.z
    let sub := c.get Reg.XSP_CTRL_SUBLOG.z
    ns.flatMap (fun n => failIf (!c.on (Reg.CCH_ICFG_SEAMEN.e n) || decide (geo n ≠ geo n0))
        (invalidAt c n (Reg.XSP_INMASK_SEL.e (n / 32))))
      ++ failIf ((!corr && !beam) || (corr && lt (seamBits c n0) (xCp c))
          || lt sub 4 || lt (bif xCp c == 16 then 7 else 12) sub) (invalidAt c 0 Reg.XSP_CTRL_EN.z)
      ++ failIf (beam && (c.get Reg.XSP_BCTRL_BPREC.z == 3 || lt (seamBits c n0) (xBp c))) (invalidAt c 0 Reg.XSP_BCTRL_BEAMEN.z)
      ++ failIf (lt (coarseBins c n0) (xBin0 c + xCount c)) (invalidAt c 0 Reg.XSP_BAND_BIN0.z)

/-! ### Streams (16 R483, R501) -/

/-- A producer that names a stream: its kind (0 view, 1 tuner, 2 trigger unit, 3 capture slot, 4 cross-spectral engine), its
number, and the stream. -/
structure Namer where
  kind : Nat
  num : Nat
  stream : Nat
deriving DecidableEq, Repr

/-- The enabled elements of each kind. -/
def tunersOn (c : BankView) : List Nat := (upto 256).filter (fun t => c.on (Reg.TUN_CTRL_EN.e t))
def unitsOn (c : BankView) : List Nat := (upto 32).filter (fun u => c.on (Reg.TRG_UCFG_EN.e u))
def slotsOn (c : BankView) : List Nat := (upto 32).filter (fun k => c.on (Reg.CAP_SCFG_EN.e k))

/-- Every producer of the configuration with the streams it names (R483). -/
def namers (c : BankView) (views tuners units : List Nat) : List Namer :=
  (views.filter (fun v => c.on (Reg.DVW_DEST_SEN.e v))).map (fun v => ⟨0, v, c.get (Reg.DVW_DEST_STREAM.e v)⟩)
  ++ (tuners.filter (fun t => c.on (Reg.TUN_DEST_SEN.e t))).map (fun t => ⟨1, t, c.get (Reg.TUN_DEST_STREAM.e t)⟩)
  ++ (units.filter (fun u => c.on (Reg.TRG_UACT_M0EN.e u))).map (fun u => ⟨2, u, c.get (Reg.TRG_UMARK_STREAM0.e u)⟩)
  ++ (units.filter (fun u => c.on (Reg.TRG_UACT_M1EN.e u))).map (fun u => ⟨2, u, c.get (Reg.TRG_UMARK_STREAM1.e u)⟩)
  ++ (slotsOn c).map (fun k => ⟨3, k, c.get (Reg.CAP_SCFG_STREAM.e k)⟩)
  ++ (bif c.on Reg.XSP_CTRL_EN.z then
        [⟨4, 0, c.get Reg.XSP_DEST_XSTREAM.z⟩]
          ++ (bif (xMode c 0).isEmpty then [] else [⟨4, 1, c.get Reg.XSP_DEST_PSTREAM.z⟩])
          ++ (bif (xMode c 1).isEmpty then [] else [⟨4, 2, c.get Reg.XSP_BCTRL_VSTREAM.z⟩])
      else [])

/-- Pm of port `p` to network entry `i` in a configuration (R497). -/
def payloadOf (c : BankView) (p i : Nat) : Nat :=
  c.get (Reg.STR_PCFG_MTU.e p) - (bif c.on (Reg.STR_NMAC_H_V6.e i) then 40 else 20) - 8

/-- Bytes of a full VITA data packet of stream `st` with outputs of format `ofmt` (R501). -/
def packetLen (c : BankView) (st ofmt : Nat) : Nat := 24 + 4 * ceilDiv (2 * fmtBits ofmt * c.get (Reg.STR_SXCFG_SPP.e st)) 32

/-- The same with outputs of tuner `t`. -/
def packetBytes (c : BankView) (st t : Nat) : Nat := packetLen c st (c.get (Reg.TUN_CTRL_OFMT.e t))

/-- The stream's destination can be served (R483). -/
def destOk (c : BankView) (st : Nat) : Bool :=
  let d := c.get (Reg.STR_SCFG_DSEL.e st)
  match c.get (Reg.STR_SCFG_DEST.e st) with
  | 0 => lt d 8 && c.on (Reg.STR_PCFG_EN.e d)
  | 1 => c.get (Reg.HRG_CFG_KIND.e d) == 0
  | _ => c.on Reg.DSK_CFG_EN.z

/-- The conditions of R483 and R501 on stream `st`. -/
def streamOk (c : BankView) (ns : List Namer) (st : Nat) : Bool :=
  let mine := ns.filter (fun n => n.stream == st)
  bif c.on (Reg.STR_SCFG_EN.e st) then
    destOk c st &&
      (!c.on (Reg.STR_SCFG_VRT.e st)
        || (c.get (Reg.STR_SCFG_DEST.e st) != 2 &&
          (match mine with
           | [n] => n.kind == 1 && (c.get (Reg.STR_SCFG_DEST.e st) != 0
               || le (packetBytes c st n.num) (payloadOf c (c.get (Reg.STR_SCFG_DSEL.e st)) (c.get (Reg.STR_SXCFG_NETIDX.e st))))
           | _ => false)))
  else mine.isEmpty

def streamsOn (c : BankView) : List Nat := (upto 4096).filter (fun st => c.on (Reg.STR_SCFG_EN.e st))

def strInvalid (c : BankView) (ns : List Namer) (streams : List Nat) : List Fail :=
  let off := (ns.map (·.stream)).eraseDups.filter (fun st => !c.on (Reg.STR_SCFG_EN.e st))
  (streams ++ off).flatMap (fun st => failIf (!streamOk c ns st) (invalidAt c st (Reg.STR_SCFG_EN.e st)))

/-! ### Stimulus (18 R548) -/

/-- The segments a channel's sequence plays, from step `q` (R549). -/
def segmentsFrom (c : BankView) (ch : Nat) : Nat → Nat → List Nat
  | 0, _ => []
  | n + 1, q =>
    let seg := c.get (Reg.STM_STEP_SEG.e2 ch q)
    bif c.on (Reg.STM_STEP_END.e2 ch q) || c.get (Reg.STM_STEP_REP.e2 ch q) == 0 then [seg]
    else seg :: segmentsFrom c ch n (c.get (Reg.STM_STEP_NEXT.e2 ch q))

/-- The channels that play segments. -/
def playing (c : BankView) : List Nat :=
  (upto 16).filter (fun ch => c.on (Reg.STM_CCFG_EN.e ch) && c.on (Reg.STM_CCFG_SEQEN.e ch))

/-- Segments named by an enabled sequence whose base is no multiple of 128 or whose extent leaves the tile pool of `pool`
bytes. -/
def stmInvalid (c : BankView) (pool : Nat) : List Fail :=
  ((playing c).flatMap (fun ch => segmentsFrom c ch 64 (c.get (Reg.STM_CCFG_SEQ0.e ch)))).eraseDups.flatMap (fun g =>
    let base := c.get (Reg.STM_SBASE_L_BASE.e g) + c.get (Reg.STM_SBASE_H_BASE.e g) * 2 ^ 32
    failIf (base % 128 != 0 || lt pool (base + 128 * c.get (Reg.STM_SLEN_LEN.e g))) (invalidAt c g (Reg.STM_SBASE_L_BASE.e g)))

end Sys2Proof.Machine
end

