-- ==== Sys2Proof/Machine/Check3.lean ====
section
/-!
DEFINITION. The admission check, third part: loads and their grants (19_admission_and_configuration.md R572 to R580), and the
deadlines of trigger units, captures and display outputs. Loads are exact fractions in units per second.
-/
namespace Sys2Proof.Machine

/-- A grant that scales with the committed clock: `per` per cycle, `pct` hundredths of it. -/
def grantOf (c : BankView) (per pct : Nat) : Frac := frac (clockOf c * per * pct) 100

/-! ### Views (07 R208, R209, R572) -/

/-- ρ: spectra per second of element `n` on a plane (07 R208). -/
def cellRate (c : BankView) (plane n : Nat) : Frac :=
  match plane with
  | 0 => frac (rateOf c n) (bif c16Of c n then 32 else 64)
  | 1 => mainRate c n
  | 2 => (mainRate c n).div ⟨fineHop c n, 1⟩
  | _ => let f := fout (tunSet c c n) 0
         frac f.1 f.2

/-- Σ ρ over the elements of a view. -/
def viewRate (c : BankView) (v : Nat) : Frac :=
  Frac.sum ((viewNs c v).map (cellRate c (c.get (Reg.DVW_CTRL_PLANE.e v))))

/-- w_det (07 R216). -/
def detWeight (det : Nat) : Nat := if det = 3 || (6 ≤ det && det ≤ 8) then 2 else 1

/-- λ. -/
def viewLoad (c : BankView) (v : Nat) : Frac := (viewRate c v).times (detWeight (c.get (Reg.DVW_CTRL_DET.e v)) * viewWidth c v)

/-- The views that are charged: those of the configuration, and those still draining at their old loads (R572). -/
def State.loadedViews (s : State) (c : BankView) (views : List Nat) : List (BankView × Nat) :=
  views.map (fun v => (c, v)) ++ s.drainingViews

/-- A WRF record's bytes with its header and padding. -/
def recordBytes (body : Nat) : Nat := 32 + ceilDiv body 8 * 8

/-- The largest body of a view's records (07 R233). -/
def viewBody (c : BankView) (v : Nat) : Nat :=
  let det := c.get (Reg.DVW_CTRL_DET.e v)
  let size := if det = 6 then 2 else
    match c.get (Reg.DVW_CTRL_VFMT.e v) with
    | 0 => 2
    | 1 => 4
    | _ => 8
  72 + (if det = 7 || det = 8 then
          c.get (Reg.DVW_MAP0_ROWS.e v) * c.get (Reg.DVW_MAP0_COLS.e v) * detBytes det (c.on (Reg.DVW_CTRL_HWID.e v))
        else viewWidth c v * size)

/-- Records per second of a view. -/
def viewRecords (c : BankView) (v : Nat) : Frac := (viewRate c v).div ⟨c.get (Reg.DVW_INT_N.e v), 1⟩

/-- DETECT (07 R208). -/
def detectFails (c : BankView) (views : List (BankView × Nat)) : List Fail :=
  overload 0xE 0x13 0 ((Frac.sum (views.map (fun p => viewLoad p.1 p.2))).div ⟨1000000, 1⟩)
    ((grantOf c 2048 90).div ⟨1000000, 1⟩)

/-- MASK (09 R270). -/
def maskFails (c : BankView) (units : List Nat) : List Fail :=
  let load (u : Nat) : Frac :=
    let p := c.get (Reg.TRG_UCFG_SRC.e u) - 2
    (Frac.sum ((unitNs c u).map (cellRate c p))).times (unitRect c u).width
  let on := units.filter (fun u => le 2 (c.get (Reg.TRG_UCFG_SRC.e u)) && le (c.get (Reg.TRG_UCFG_SRC.e u)) 4)
  overload 0xF 0x15 0 ((Frac.sum (on.map load)).div ⟨1000000, 1⟩) ((grantOf c 4096 90).div ⟨1000000, 1⟩)

/-! ### Tuners (08 R247, R250, R260) -/

/-- T × F_FIR of a chain, in multiply-accumulates per second. -/
def firLoad (t : TunSet) : Frac := bif t.firen then frac (t.fir.length * t.rate * 1000) (tunM t) else Frac.zero

/-- The tuners still draining, with their old chains (19 R572). -/
def State.drainingTuners (s : State) : List (Nat × Chain) :=
  (upto 256).filterMap (fun t => bif s.get (tunState t) == 4 then (s.tuner t).old.map (fun ch => (t, ch)) else none)

/-- A field of the word TUN_DEST last in force for a chain. -/
def Chain.destField (ch : Chain) (f : Fld) : Nat := bits ((ch.dests.headD (0, 0)).2) f.lo f.w

/-- T × F_FIR of tuner `t`: the new chain, in a glaze the old one too, and a chain still draining. -/
def State.tunerLoad (s : State) (c : BankView) (t : Nat) : Frac :=
  let new := tunSet c c t
  let x := s.tuner t
  let glaze := match x.chain with
    | some ch =>
      let o := ch.set
      bif c.get (Reg.TUN_CTRL_GLZ.e t) != 0 && o.coefficients new && !o.structural new then firLoad o else Frac.zero
    | none => Frac.zero
  let old := Frac.sum ((s.drainingTuners.filter (fun p => p.1 == t)).map (fun p => firLoad p.2.set))
  ((bif c.on (Reg.TUN_CTRL_EN.e t) then firLoad new else Frac.zero).add glaze).add old

/-- F_out of tuner `t` in kS/s, with that of a chain still draining. -/
def State.tunerOut (s : State) (c : BankView) (t : Nat) : Frac :=
  let kilo (f : Nat × Nat) : Frac := frac f.1 (f.2 * 1000)
  let old := Frac.sum ((s.drainingTuners.filter (fun p => p.1 == t)).map (fun p => kilo (fout p.2.set 0)))
  (bif c.on (Reg.TUN_CTRL_EN.e t) then kilo (fout (tunSet c c t) 0) else Frac.zero).add old

/-- TUNER. -/
def State.tunerFails (s : State) (c : BankView) (tuners : List Nat) : List Fail :=
  let drains := s.drainingTuners.map (·.1)
  ((upto 256).filter (fun t => tuners.contains t || drains.contains t)).flatMap (fun t =>
    overload 0x10 0x14 t ((s.tunerLoad c t).div ⟨1000000, 1⟩) ((grantOf c 256 100).div ⟨1000000, 1⟩)
      ++ overload 0x10 0x14 t (s.tunerOut c t) (frac (500000 * clockOf c) 1600000000))

/-! ### Cross-spectral engine (11 R328, R333, R337, R338, R351, R352, R355 to R357) -/

/-- r = F_s ÷ N_A of the seam grid. -/
def seamRate (c : BankView) : Frac :=
  let n := (xRanks c).headD 0
  frac (rateOf c n) (2 ^ (8 + c.get (Reg.CCH_ICFG_NLOG.e n)))

/-- Bytes of a seam cell. -/
def cellBytesOf (c : BankView) : Nat := 18 + 32 * (if seamBits c ((xRanks c).headD 0) = 8 then 2 else 4)

/-- Bodies of the records of one bin in one interval: the VIS records, without weight tables, and the BEAMPWR record. -/
def visBodies (c : BankView) : List Nat :=
  let size := if c.get Reg.XSP_CTRL_VFMT.z = 0 then 16 else 8
  bif c.on Reg.XSP_CTRL_CORREN.z then
    (xBlocks (xRanks c).length).map (fun p => 64 + blockSize (xRanks c).length p.1 p.2 * size) else []
def powerBodies (c : BankView) : List Nat :=
  let n := (xMode c 0).length
  let size := match c.get Reg.XSP_BCTRL_PFMT.z with
    | 0 => 2
    | 1 => 4
    | _ => 8
  if n = 0 then [] else [48 + n * size]
def statBody (c : BankView) : Nat := 32 + 16 * (xRanks c).length
def voltBody (c : BankView) : Nat :=
  48 + (c.get Reg.XSP_BCTRL_VSPEC.z + 1) * (xMode c 1).length * (bif c.on Reg.XSP_BCTRL_OFMT.z then 2 else 4)

/-- Products on the bins of gallery `g`, and its (bin, power beam) pairs. -/
def galProducts (c : BankView) (g : Nat) : Nat :=
  let x := (xRanks c).length
  bif c.on Reg.XSP_CTRL_CORREN.z then (xCounts c).getD g 0 * (x * (x + 1) / 2) else 0
def galBeams (c : BankView) (g : Nat) : Nat := (xCounts c).getD g 0 * (xMode c 0).length

/-- The cross-spectral store of gallery `g`, and its traffic in bytes per second (R338). -/
def xStore (c : BankView) (g : Nat) : Nat :=
  bif c.on Reg.XSP_CTRL_EN.z then 32 * galProducts c g + 16 * galBeams c g else 0
def xTraffic (c : BankView) (g : Nat) : Frac :=
  let sub := 2 ^ c.get Reg.XSP_CTRL_SUBLOG.z
  bif c.on Reg.XSP_CTRL_EN.z then
    (seamRate c).mul ((frac (32 * galProducts c g) sub).add (frac (16 * galBeams c g) (min sub 256)))
  else Frac.zero

/-- The claims of the configuration. -/
def claims (c : BankView) : List Nat := bif c.on Reg.XSP_CTRL_EN.z then xTiles c else []

/-- Bytes of a claimed tile above the Easel core's part: landing buffers and weights (R338). -/
def claimedBytes (c : BankView) (plan : List (Nat × XUnit)) (t : Nat) : Nat :=
  let mine := (plan.filter (fun p => p.1 == t)).map (·.2)
  let x := (xRanks c).length
  let k := ((mine.map (·.k)).eraseDups).length
  let w := (((mine.filter (·.beam)).map (fun u => (u.k - xBin0 c) / 2 ^ c.get Reg.XSP_BCTRL_WGLOG.z)).eraseDups).length
  4 * k * xGroups x * cellBytesOf c + 2 * w * (xBeams c).length * x * 4

/-- SEAM, TILE and DUMP. -/
def crossFails (c : BankView) (plan : List (Nat × XUnit)) : List Fail :=
  bif !c.on Reg.XSP_CTRL_EN.z then []
  else
    let r := seamRate c
    let per := 25600 * 96 * 25 * c.get Reg.ADM_CLK_FSTAGE.z * 100
    let dump := xCount c * (sumOf (visBodies c) + sumOf (powerBodies c)) + statBody c
    overload 0xB 0x17 0 ((r.times (xCount c * xGroups (xRanks c).length * cellBytesOf c)).div ⟨1000000000, 1⟩)
        (frac (1080 * c.get Reg.ADM_CLK_FSTAGE.z) 64)
      ++ (claims c).flatMap (fun t =>
        let cost := frac (tileCost plan t) 2
        let room := (⟨per, 1⟩ : Frac).div r
        overload 0xC (0x20 + t / 8) t cost room)
      ++ overload 0x11 0x17 0
        ((frac (8 * 64) (c.get Reg.ADM_CLK_FSTAGE.z)).add (frac (dump * 1000000) (32 * clockOf c)))
        ((frac (9 * c.get Reg.XSP_INT_NX.z * 100000) 1).div r)

/-! ### Streams (R576, 16 R487, R499) -/

/-- A producer with the bank its settings stand in; for a tuner, output format and F_out too. -/
structure Source where
  bank : BankView
  who : Namer
  ofmt : Nat
  rate : Frac

/-- A producer of a configuration. -/
def sourceOf (c : BankView) (n : Namer) : Source :=
  ⟨c, n, c.get (Reg.TUN_CTRL_OFMT.e n.num), if n.kind = 1 then cellRate c 3 n.num else Frac.zero⟩

/-- The producers that are charged, draining views and tuners with their old destinations among them (R572). -/
def State.sources (s : State) (c : BankView) (ns : List Namer) : List Source :=
  ns.map (sourceOf c)
    ++ (s.drainingViews.filter (fun p => p.1.on (Reg.DVW_DEST_SEN.e p.2))).map (fun p =>
      ⟨p.1, ⟨0, p.2, p.1.get (Reg.DVW_DEST_STREAM.e p.2)⟩, 0, Frac.zero⟩)
    ++ (s.drainingTuners.filter (fun p => p.2.destField Reg.TUN_DEST_SEN == 1)).map (fun p =>
      let f := fout p.2.set 0
      ⟨c, ⟨1, p.1, p.2.destField Reg.TUN_DEST_STREAM⟩, p.2.set.ofmt, frac f.1 f.2⟩)

/-- The bytes one packet of a VITA stream occupies: as it is on a port, in a record on a host ring. -/
def packetRoom (c : BankView) (st ofmt : Nat) : Nat :=
  let n := packetLen c st ofmt
  if c.get (Reg.STR_SCFG_DEST.e st) = 0 then n else recordBytes n

/-- Bytes per second of a producer at step 0, and its records per second. -/
def sourceRate (c : BankView) (p : Source) : Frac × Frac :=
  let b := p.bank
  let n := p.who
  let r := seamRate b
  let perInt := r.div ⟨b.get Reg.XSP_INT_NX.z, 1⟩
  match n.kind with
  | 0 => let q := viewRecords b n.num
         (q.times (recordBytes (viewBody b n.num)), q)
  | 1 =>
    bif c.on (Reg.STR_SCFG_VRT.e n.stream) then
      let q := p.rate.div ⟨c.get (Reg.STR_SXCFG_SPP.e n.stream), 1⟩
      (q.times (packetRoom c n.stream p.ofmt), q)
    else (Frac.zero, Frac.zero)
  | 3 =>
    let rate := b.get (Reg.CAP_SDEST_RDRATE.e n.num) * 1000000000
    (⟨rate, 1⟩, frac rate (recordBytes (24 + 64 * b.get (Reg.CAP_SDEST_DMAX.e n.num))))
  | 4 =>
    (match n.num with
     | 0 => (perInt.times (xCount b * sumOf ((visBodies b).map recordBytes) + recordBytes (statBody b)),
             perInt.times (xCount b * (visBodies b).length + 1))
     | 1 => (perInt.times (xCount b * sumOf ((powerBodies b).map recordBytes)), perInt.times (xCount b * (powerBodies b).length))
     | _ => let q := (r.div ⟨b.get Reg.XSP_BCTRL_VSPEC.z + 1, 1⟩).times (xCount b)
            (q.times (recordBytes (voltBody b)), q))
  | _ => (Frac.zero, Frac.zero)

/-- R_s. -/
def streamRate (c : BankView) (src : List Source) (st : Nat) : Frac :=
  Frac.sum ((src.filter (fun p => p.who.stream == st)).map (fun p => (sourceRate c p).1))

/-- The load of stream `st`: R_s, and for WRF records on a port 24 bytes more for each Pm − 24 (16 R499). -/
def loadOf (c : BankView) (src : List Source) (st : Nat) : StreamLoad :=
  let r := streamRate c src st
  let p := c.get (Reg.STR_SCFG_DSEL.e st)
  let wire := bif c.on (Reg.STR_SCFG_VRT.e st) then r
    else r.add ((r.times 24).div ⟨payloadOf c p (c.get (Reg.STR_SXCFG_NETIDX.e st)) - 24, 1⟩)
  ⟨st, c.get (Reg.STR_SCFG_DEST.e st), p, (r.num, r.den), (wire.num, wire.den)⟩

/-- The stream loads that are charged: those of the configuration, and the old ones of streams still draining (R572). -/
def State.streamLoads (s : State) (c : BankView) (src : List Source) (streams : List Nat) : List StreamLoad :=
  streams.map (loadOf c src) ++ s.adm.loads.filter (fun l => s.get (strState l.stream) == 4)

/-- Σ R_s. -/
def sumRates (l : List StreamLoad) : Frac := Frac.sum (l.map (fun x => frac x.rate.1 x.rate.2))

/-- Bytes of the largest record a producer can make. -/
def largest (c : BankView) (p : Source) : Nat :=
  let b := p.bank
  let n := p.who
  match n.kind with
  | 0 => recordBytes (viewBody b n.num)
  | 1 => bif c.on (Reg.STR_SCFG_VRT.e n.stream) then recordBytes (packetLen c n.stream p.ofmt) else 0
  | 2 => 112
  | 3 =>
    let k := n.num
    let sel := ((upto 128).filter (fun i => bit (b.get (Reg.CAP_SMASK_SEL.e2 k (i / 32))) (i % 32))).length
    let stats := bif b.on (Reg.CAP_SCFG_STATS.e k) then
        (match b.get (Reg.CAP_SCFG_SMODE.e k) with
         | 0 => 64 + 1024
         | 1 => 64 + 1024 * b.get (Reg.CAP_SSTAT_COLS.e k)
         | _ => 64 + 512 * b.get (Reg.CAP_SSTAT_COLS.e k))
      else 0
    maxOf [recordBytes (64 + 48 * sel), recordBytes (24 + 64 * b.get (Reg.CAP_SDEST_DMAX.e k)), 88, recordBytes stats]
  | _ =>
    (match n.num with
     | 0 =>
       let table := bif b.on Reg.XSP_CTRL_WTAB.z then 4 else 0
       let x := (xRanks b).length
       maxOf (recordBytes (statBody b) :: ((xBlocks x).zip (visBodies b)).map (fun q =>
         recordBytes (q.2 + table * blockSize x q.1.1 q.1.2)))
     | 1 => maxOf ((powerBodies b).map recordBytes)
     | _ => recordBytes (voltBody b))

/-- PORT, HOST, DISK and QUEUE. -/
def egressFails (c : BankView) (src : List Source) (loads : List StreamLoad) (streams : List Nat) : List Fail :=
  (upto 8).flatMap (fun p =>
    let load := Frac.sum ((loads.filter (fun l => l.dest == 0 && l.dsel == p)).map (fun l => frac l.wire.1 l.wire.2))
    overload 0x12 0x19 p ((load.times 8).div ⟨1000000, 1⟩) ⟨380000, 1⟩)
  ++ overload 0x13 0x19 0 ((sumRates (loads.filter (fun l => l.dest == 1))).div ⟨1000000000, 1⟩) ⟨100, 1⟩
  ++ overload 0x14 0x19 0 ((sumRates (loads.filter (fun l => l.dest == 2))).div ⟨1000000000, 1⟩)
      ⟨min 100 (c.get Reg.ADM_RSV_DSKBW.z), 1⟩
  ++ streams.flatMap (fun st =>
    let own := maxOf ((src.filter (fun p => p.who.stream == st)).map (largest c))
    let gap := if c.get (Reg.STR_SCFG_GAPMODE.e st) = 0 then 0 else 88
    overload 0x15 0x19 st (frac (2 * maxOf [own, 96, 72, gap]) 1024) ⟨2 ^ c.get (Reg.STR_SCFG_QLOG.e st) * 1024, 1⟩)

/-- INVALID of 23 R679: the records per second of a pair. -/
def State.pairFails (s : State) (c : BankView) (src : List Source) : List Fail :=
  let n := Frac.sum (src.map (fun p => (sourceRate c p).2))
  failIf (s.paired && !n.le ⟨413000000, 1⟩) (invalidAt c 0 Reg.DZ_CFG_EN.z)

/-! ### HBM (R575, R462, 10 R298) -/

/-- W_n × (1 + 1 ÷ (1 − v_n)) (06 R193). -/
def cornerTurn (c : BankView) (n : Nat) : Frac :=
  let e := bif c.get (Reg.CCH_ICFG_OFMT.e n) == 0 then 5 else bif c.get (Reg.CCH_ICFG_OFMT.e n) == 1 then 4 else 3
  let w := (mainRate c n).times (binsOf c n * e)
  w.add ((w.times (fineNB c n)).div ⟨fineHop c n, 1⟩)

def outputsOn (c : BankView) (f : Fld) : List Nat := (upto 2).filter (fun o => c.on (f.e o))

/-- The terms of B_HBM in bytes per second. -/
def hbmLoad (c : BankView) (loads : List StreamLoad) : Frac :=
  let ns := (upto 128).filter (fun n => bit (c.get (Reg.REC_INEN_SEL.e (n / 32))) (n % 32))
  let rec_ := bif c.on Reg.REC_CTRL_EN.z then frac (sumOf (ns.map (recRate c)) * 1000 * 65536) 65472 else Frac.zero
  let rings := Frac.sum (((fineInputs c).filter (ringInHbm c)).map (cornerTurn c))
  let queues := (sumRates loads).times 2
  let overlays := Frac.sum ((outputsOn c Reg.DSP_OCFG_OVLEN).map (fun o =>
    frac (4 * c.get (Reg.DSP_HTIM_HACT.e o) * c.get (Reg.DSP_VTIM_VACT.e o) * c.get (Reg.DSP_PCLK_KHZ.e o) * 1000)
      (c.get (Reg.DSP_HTIM_HTOTAL.e o) * c.get (Reg.DSP_VTIM_VTOTAL.e o))))
  let stim := sumOf ((playing c).map (fun ch => 2000 * c.get (Reg.STM_RATE_RATE.e ch)))
  let fixed := (c.get Reg.REC_RDRES_RDRES.z + c.get Reg.ADM_RSV_THBM.z) * 1000000000 + 256000000 * c.get Reg.MEM_MIG_MIGRES.z
  (((rec_.add rings).add queues).add overlays).add ⟨stim + fixed, 1⟩

/-- HBMBW. -/
def hbmFails (c : BankView) (loads : List StreamLoad) : List Fail :=
  overload 6 1 0 ((hbmLoad c loads).div ⟨1000000000, 1⟩) ⟨7864, 1⟩

/-- Units of 65,536 bytes of regions 1 to 4 (R462): corner-turn rings with those the overlap holds, stream queues with those
still draining, overlays, recorder. -/
def State.regionUnits (s : State) (c : BankView) (streams : List Nat) : List Nat :=
  let live : BankView := ⟨s.word, 0⟩
  let draining := (s.enabledStreams ++ s.str.streams.map (·.1)).eraseDups.filter (fun st => s.get (strState st) == 4)
  let size (b : BankView) (st : Nat) := 16 * 2 ^ b.get (Reg.STR_SCFG_QLOG.e st)
  let old := sumOf (s.str.streams.map (fun e => sumOf (e.2.olds.map (fun o => 16 * 2 ^ o.2))))
  let queues := sumOf (streams.map (size c)) + sumOf (draining.map (size live)) + old
  let overlays := sumOf ((outputsOn c Reg.DSP_OCFG_OVLEN).map (fun o =>
    8 * c.get (Reg.DSP_HTIM_HACT.e o) * c.get (Reg.DSP_VTIM_VACT.e o)))
  [ceilDiv (hbmRings c c + hbmOldRings live live c c) 65536, queues, ceilDiv overlays 65536,
   bif c.on Reg.REC_CTRL_EN.z then ceilDiv (c.get Reg.REC_CTRL_SIZE.z * 1000000000) 65536 else 0]

/-- Each region's needed and available units, in ascending region; what does not fit takes nothing. -/
def regionRoom : Nat → List Nat → List (Nat × Nat)
  | _, [] => []
  | free, n :: ns => (n, free) :: regionRoom (if n ≤ free then free - n else free) ns

/-- HBMCAP. -/
def State.regionFails (s : State) (units : List Nat) : List Fail :=
  let l := regionRoom (s.hbmSize / 65536) units
  ((upto 4).zip l).flatMap (fun p => failIf (lt p.2.2 p.2.1) ⟨7, 1, p.1 + 1, p.2.1, p.2.2⟩)

/-- Base and size of regions 0 to 4: the tile pool from 0 on takes what the others leave, the recorder ends at the top. -/
def State.regionMap (s : State) (units : List Nat) : List (Nat × Nat) :=
  let top := s.hbmSize / 65536
  let pool := top - sumOf units
  (0, pool) :: (upto 4).map (fun i => (pool + sumOf (units.take i), units.getD i 0))

/-! ### Gallery SRAM (R577, R578, R580) -/

/-- Bytes in KiB (R581). -/
def kib (n : Nat) : Nat := (frac n 1024).rnd

/-- Bytes of gallery `g` that the check may grant. -/
def State.galSize (s : State) (c : BankView) (g : Nat) : Nat :=
  bif bit (s.get Reg.SEC_WITHDRAWN_GAL.z) g then 0 else bif c.on Reg.REC_CTRL_WATCHEN.z then 16 * 2 ^ 20 else 24 * 2 ^ 20

/-- The fixed items of gallery `g` in their order: tile and DMA region, rings with those the overlap holds, cross-spectral store, and the
stores of draining views. The corner turn and the cross-spectral engine end their drains before their swap is done (06 R203, 11 R360), and
no check runs before that (R586). -/
def State.galItems (s : State) (c : BankView) (g : Nat) : List Nat :=
  let live : BankView := ⟨s.word, 0⟩
  [c.get (Reg.ADM_TSRAM_SIZE.e g) * 65536, sramRings c c g + sramOldRings live live c c g, xStore c g,
   sumOf ((s.drainingViews.filter (fun p => p.1.get (Reg.DVW_STAT_GAL.e p.2) == g)).map (fun p => storeBytes p.1 p.2))]

/-- The first item that does not fit, with the room it found. -/
def firstMiss (room : Nat) : List Nat → Option (Nat × Nat)
  | [] => none
  | n :: ns => if n ≤ room then firstMiss (room - n) ns else some (n, room)

/-- Bytes in use by the fixed items of each gallery, a gallery of less than the usual room counting what it lacks as used. -/
def State.galUsed (s : State) (c : BankView) : List Nat :=
  (upto 8).map (fun g => 24 * 2 ^ 20 - s.galSize c g + sumOf (s.galItems c g))

/-- The stores that fit nowhere, each with its bytes, the gallery of most room, and that room. -/
def storeMisses (c : BankView) (used : List Nat) (views : List Nat) : List Fail :=
  (views.foldl (fun (a : List Nat × List Fail) v =>
    let n := storeBytes c v
    match (upto 8).find? (fun g => le (a.1.getD g 0 + n) (24 * 2 ^ 20)) with
    | some g => (a.1.set g (a.1.getD g 0 + n), a.2)
    | none =>
      let least := a.1.foldl min (a.1.headD 0)
      let g := (a.1.findIdx? (· == least)).getD 0
      (a.1, a.2 ++ [⟨8, 1, g, kib n, kib (24 * 2 ^ 20 - least)⟩])) (used, [])).2

/-- GSCAP; the watch ring finds no place in a gallery whose memory is withdrawn (22 R646). -/
def State.galCapFails (s : State) (c : BankView) (views : List Nat) : List Fail :=
  let fixed := (upto 8).flatMap (fun g => match firstMiss (s.galSize c g) (s.galItems c g) with
    | some (n, room) => [(⟨8, 1, g, kib n, kib room⟩ : Fail)]
    | none => [])
  let watch := bif c.on Reg.REC_CTRL_WATCHEN.z then
      (upto 8).flatMap (fun g => failIf (bit (s.get Reg.SEC_WITHDRAWN_GAL.z) g && (inputsOn c).any (fun n => n / 16 == g))
        ⟨8, 1, g, 8192, 0⟩)
    else []
  fixed ++ storeMisses c (s.galUsed c) views ++ watch

/-- GSBW: rings, the stores' 2 × a_det × λ and the cross-spectral traffic of each gallery; `stores` is where each view's store
lies. -/
def State.galBwFails (s : State) (c : BankView) (stores : List (Nat × Nat × Nat)) : List Fail :=
  let traffic (p : BankView × Nat) : Frac :=
    (viewLoad p.1 p.2).times (2 * detBytes (p.1.get (Reg.DVW_CTRL_DET.e p.2)) (p.1.on (Reg.DVW_CTRL_HWID.e p.2)))
  (upto 8).flatMap (fun g =>
    let rings := Frac.sum (((fineInputs c).filter (fun n => n / 16 == g && !ringInHbm c n)).map (cornerTurn c))
    let new := Frac.sum ((stores.filter (fun p => p.2.1 == g)).map (fun p => traffic (c, p.1)))
    let old := Frac.sum ((s.drainingViews.filter (fun p => p.1.get (Reg.DVW_STAT_GAL.e p.2) == g)).map traffic)
    overload 9 1 g ((((rings.add new).add old).add (xTraffic c g)).div ⟨1000000000, 1⟩) ((grantOf c 1024 80).div ⟨1000000000, 1⟩))

/-- WATCH: the watch ring's writes of each gallery, and T_HW's limit (R580). -/
def watchFails (c : BankView) : List Fail :=
  bif c.on Reg.REC_CTRL_WATCHEN.z then
    let lim := c.get Reg.PWR_GOV_LIMIT.z
    failIf (lt lim 20) ⟨0x1D, 1, 0, 20, lim⟩
      ++ (upto 8).flatMap (fun g =>
        let load := sumOf (((inputsOn c).filter (fun n => n / 16 == g)).map (fun n => 1000 * recRate c n))
        overload 0x1D 1 g (frac load 1000000000) ((grantOf c 1024 80).div ⟨1000000000, 1⟩))
  else []

/-! ### Tiles (R579, 12 R366, R389, R398, 11 R334) -/

/-- Tile, base and length of the tuner rings, those of tuners still draining among them (08 R264, R572). -/
def State.tileRings (s : State) (c : BankView) : List (Nat × Nat × Nat) :=
  let ring (b : BankView) (u : Nat) := (b.get (Reg.TUN_RING_RBASE.e u), b.get (Reg.TUN_RING_RLEN.e u))
  ((upto 256).filter (fun u => c.on (Reg.TUN_CTRL_EN.e u) && c.on (Reg.TUN_DEST_TEN.e u))).map (fun u =>
      (c.get (Reg.TUN_DEST_TILE.e u), ring c u))
    ++ (s.drainingTuners.filter (fun p => p.2.destField Reg.TUN_DEST_TEN == 1)).map (fun p =>
      (p.2.destField Reg.TUN_DEST_TILE, ring (s.liveView .tuners) p.1))

/-- TMEM: claims, and the rings of each tile. -/
def State.tmemFails (s : State) (c : BankView) (plan : List (Nat × XUnit)) : List Fail :=
  let ten := s.tileRings c
  let used := ((claims c) ++ ten.map (·.1)).eraseDups
  used.flatMap (fun t =>
    let rings := (ten.filter (fun r => r.1 == t)).map (·.2)
    let bytes := sumOf (rings.map (·.2)) * 64
    let end_ := maxOf (rings.map (fun r => (r.1 + r.2) * 64))
    let cross := (upto rings.length).any (fun i => (upto i).any (fun j =>
      let a := rings.getD i (0, 0)
      let b := rings.getD j (0, 0)
      lt a.1 (b.1 + b.2) && lt b.1 (a.1 + a.2)))
    let broken := lt 16 rings.length || rings.any (fun r => r.2 % 16 != 0) || cross
    let code := 0x20 + t / 8
    failIf broken ⟨0xA, code, t, kib bytes, 2048⟩
      ++ failIf (!rings.isEmpty && s.fenced t) ⟨0xA, code, t, kib end_, 0⟩
      ++ (bif (claims c).contains t then
            let need := 256 * 1024 + claimedBytes c plan t
            failIf (lt (256 * 1024) end_) ⟨0xA, code, t, kib end_, 256⟩
              ++ failIf (lt (2048 * 1024) need) ⟨0xA, code, t, kib need, 2048⟩
          else []))
  ++ (upto 64).flatMap (fun t =>
    failIf (bit s.xtiles t && s.on (Reg.TILE_XSTAT_SIGREQ.t t) && !s.on (Reg.TILE_XSTAT_SIGOK.t t)) ⟨0x19, 0x20 + t / 8, t, 0, 0⟩
      ++ failIf ((bit s.xtiles t || (claims c).contains t) && s.fenced t) ⟨0x1A, 0x20 + t / 8, t, 0, 0⟩)

/-! ### Trigger deadlines (09 R289) -/

/-- ns of `n` cycles. -/
def cyclesNs (c : BankView) (n : Nat) : Frac := frac (n * 1000000000) (clockOf c)

/-- The fast-path allowance of the inputs: 63 ns, or 45 ns + 2 × T_B in JESD204C mode, the largest of them. -/
def fastPath (c : BankView) (ns : List Nat) : Frac :=
  ns.foldl (fun a n =>
    let x := bif c.on (Reg.ING_LMAP_JESD.e n) then
        (⟨45, 1⟩ : Frac).add (frac (2 * 66 * 100) (c.get (Reg.ING_GCFG_JRATE.e (c.get (Reg.ING_LMAP_LANE.e n) / 8))))
      else ⟨63, 1⟩
    bif a.le x then x else a) (bif ns.isEmpty then ⟨63, 1⟩ else Frac.zero)

/-- Cycles of the tuner chain (08 R256). -/
def chainCycles (c : BankView) (t : Nat) : Nat :=
  64 + 16 * c.get (Reg.TUN_CTRL_K.e t) + 32 * b2n (c.on (Reg.TUN_CTRL_FIREN.e t)) + 32 * b2n (c.on (Reg.TUN_CTRL_RSEN.e t))

/-- The bound of R289 of unit `u` in ns; `w` is W of 06 R195. -/
def unitBound (c : BankView) (w u : Nat) : Frac :=
  let ns := unitNs c u
  let e := c.get (Reg.TRG_UELEM_ELEM.e u)
  let sum (fixed : Frac) (cycles : Nat) : Frac := (fixed.add (cyclesNs c cycles)).add ⟨27, 1⟩
  let na := maxOf (ns.map (fun n => 2 ^ (8 + c.get (Reg.CCH_ICFG_NLOG.e n))))
  match c.get (Reg.TRG_UCFG_SRC.e u) with
  | 0 => sum Frac.zero 32
  | 1 => sum (fastPath c ns) 32
  | 2 => sum (fastPath c ns) 144
  | 3 => sum ⟨270, 1⟩ (216 + na / 4)
  | 4 => sum ⟨270, 1⟩ (216 + na / 4 + maxOf (ns.map (fineBound c w)))
  | 5 => sum Frac.zero 56
  | 6 => sum ⟨270, 1⟩ (32 + maxOf (ns.map (fun n => chainCycles c (n + 128 * c.get (Reg.TRG_UCFG_THI.e u)))))
  | 7 => sum Frac.zero 40
  | 8 => sum ⟨12, 1⟩ (c.get (Reg.TIN_CFG_MINW.e e) + 24)
  | 9 => sum ⟨50, 1⟩ 24
  | 10 => sum Frac.zero 32
  | _ => sum ⟨40, 1⟩ 16

/-- TRIGDL: units with a deadline. -/
def deadlineFails (c : BankView) (units : List Nat) : List Fail :=
  let w := dueLoad c
  units.flatMap (fun u =>
    let d := c.get (Reg.TRG_UDL_DL.e u)
    bif d == 0 then [] else overload 0x16 0x15 u (unitBound c w u) ⟨10 * d, 1⟩)

/-! ### Captures and display (10 R298, R306, 17 R528) -/

/-- PIN: an enabled slot on each recorded input. -/
def pinFails (c : BankView) : List Fail :=
  bif !c.on Reg.REC_CTRL_EN.z then []
  else
    let lay := recLayout c c
    (slotsOn c).flatMap (fun k => lay.flatMap (fun l =>
      let n := l.1
      let p := l.2.2
      let rate := c.get (Reg.ING_RATE_RATE.e n)
      let cap := pageCap (c16Of c n)
      let pre := winSamples (c.get (Reg.CAP_SPRE_T.e k)) rate
      let need := ceilDiv (pre + winSamples (c.get (Reg.CAP_SPOST_T.e k)) rate) cap + 1
      let have_ := c.get Reg.REC_PIN_PINMAX.z * p / 100
      bif bit (c.get (Reg.CAP_SMASK_SEL.e2 k (n / 32))) (n % 32) then
        failIf (lt ((p - 2) * cap) pre) ⟨0x18, 0x16, k, ceilDiv pre cap + 2, p⟩
          ++ failIf (lt have_ need) ⟨0x18, 0x16, k, need, have_⟩
      else []))

/-- DISPDL. -/
def displayFails (c : BankView) : List Fail :=
  (upto 2).flatMap (fun o =>
    let lead := c.get (Reg.DSP_OCFG_LEAD.e o)
    let tol := frac ((lead - 1) * c.get (Reg.DSP_HTIM_HTOTAL.e o) * 1000000) (c.get (Reg.DSP_PCLK_KHZ.e o))
    bif c.on (Reg.DSP_OCFG_EN.e o) || c.on (Reg.DSP_OCFG_OVLEN.e o) then
      failIf (decide ((c.get (Reg.DSP_VSYN_VSW.e o) : Int) + dspVbp c o < lead) || lt tol.num (2000 * tol.den))
        ⟨0x17, 0x1A, o, 2000, tol.rnd⟩
    else [])

/-! ### The instant and the clock (R570, R585, 20 R600) -/

/-- The walk from one N to the next is covered by usable entries. -/
def State.walkOk (s : State) (from_ to_ : Nat) : Bool :=
  let a := s.nFor from_
  let b := s.nFor to_
  (upto (max a b - min a b)).all (fun i =>
    let n := min a b + i
    (s.bandFor n (n + 1)).isSome)

/-- CLOCK. -/
def State.clockFails (s : State) : List Fail :=
  let stage := s.get Reg.ADM_CLK_FSTAGE.z
  let live := s.get Reg.ADM_CLK_FLIVE.z
  let grants := (upto 8).map (fun g => s.get (Reg.ADM_TSRAM_SIZE.e g) * 65536)
  failIf (stage != live && (allBlks.any s.blkChanged || s.xtiles != 0 || (!s.adm.tsram.isEmpty && s.adm.tsram != grants)
    || !s.walkOk live stage)) ⟨0x1C, 1, 0, stage, live⟩

/-- ADM_INST. -/
def State.admInst (s : State) : Nat := s.get96 Reg.ADM_INST_L_TAG.z Reg.ADM_INST_M_TAG.z Reg.ADM_INST_H_TAG.z

/-- The instant a request asks for: the partner's (23 R673), that of the partner's request, ADM_INST, or 50 µs from now (R584). -/
def State.admAsked (s : State) (r : AdmRequest) : Nat :=
  match s.pair.creq with
  | some c => c.2.1
  | none => bif r.asap then tagAdd s.now (us48 50) else r.at_.getD s.admInst

/-- LATEINST: the instant a commit names lies less than 50 µs ahead. -/
def State.instantFails (s : State) (r : AdmRequest) : List Fail :=
  let at_ := s.admAsked r
  failIf (r.commit && (!r.asap || s.pair.creq.isSome) && lt at_ (tagAdd s.now (us48 50)))
    ⟨0x1B, 1, 0, 50, (frac ((at_ - s.now) * 1000000) sec48).rnd⟩

/-! ### The whole check (R573, R581) -/

/-- A failure put behind those of its code and item, or lower. -/
def insertFail (f : Fail) : List Fail → List Fail
  | [] => [f]
  | g :: gs => if g.code < f.code ∨ (g.code = f.code ∧ g.item ≤ f.item) then g :: insertFail f gs else f :: g :: gs

/-- The machine with the registers as they stood when the check in progress began (R571). -/
def State.asBegun (s : State) : State := { s with regs := s.adm.began }

/-- Every failure, under request `r` and at the present time, of the configuration staged when the check began: in ascending code and,
within a code, ascending item. -/
def State.checkAll (s0 : State) (r : AdmRequest) : List Fail :=
  let s := s0.asBegun
  let c := s.cand
  let views := viewsOn c
  let tuners := tunersOn c
  let units := unitsOn c
  let streams := streamsOn c
  let ns := namers c views tuners units
  let src := s.sources c ns
  let loads := s.streamLoads c src streams
  let plan := bif c.on Reg.XSP_CTRL_EN.z then xPlan c else []
  let regions := s.regionUnits c streams
  let map := s.regionMap regions
  let dsp := map.getD 3 (0, 0)
  let pool := (map.getD 0 (0, 0)).2 * 65536
  let at_ := bif r.commit then some (s0.admAsked r) else none
  let stores := placeStores c (24 * 2 ^ 20) (s.galUsed c)
  let all_ := s.rangeFails ++ rangeFails2 c
    ++ s.ingInvalid c ++ coarseInvalid c ++ fineInvalid c ++ viewInvalid c views ++ tunInvalid c tuners ++ s.trgInvalid c units
    ++ recInvalid c ++ xspInvalid c ++ strInvalid c ns streams ++ s.dspInvalid c views (dsp.1 * 65536) (dsp.2 * 65536)
    ++ stmInvalid c pool ++ s.pairFails c src
    ++ s.dependFails c ++ s.splitFails c at_ ++ frontFails c ++ hbmFails c loads ++ s.regionFails regions
    ++ s.galCapFails c views ++ s.galBwFails c stores ++ s.tmemFails c plan ++ crossFails c plan ++ fineFails c
    ++ detectFails c (s.loadedViews c views) ++ maskFails c units ++ s.tunerFails c tuners ++ egressFails c src loads streams
    ++ deadlineFails c units ++ displayFails c ++ pinFails c ++ s0.instantFails r ++ s.clockFails ++ watchFails c
  all_.foldl (fun l f => insertFail f l) []

end Sys2Proof.Machine
end

