-- ==== Sys2Proof/Machine/Admission.lean ====
section
/-!
DEFINITION. The admission protocol (19_admission_and_configuration.md R581 to R586) with its part between two engines
(23_redundant_pair.md R669, R673).
-/
namespace Sys2Proof.Machine

/-! ### The configuration digest (23 R669) -/

/-- Fields that may differ between members are taken as 0. -/
def digestMask (o : Nat) : Nat :=
  if [Reg.STR_PMAC_L_MAC, Reg.STR_PMAC_H_MAC, Reg.STR_PIP4_IP4, Reg.STR_PIP6_IP6].any (fun f => f.covers o) then 0
  else
    let cut (f : Fld) (m : Nat) : Nat := if f.covers o then m &&& (0xFFFFFFFF ^^^ ((2 ^ f.w - 1) * 2 ^ f.lo)) else m
    cut Reg.ING_LCFG_INV (cut Reg.ING_GCFG_MR 0xFFFFFFFF)

/-- The canonical image of the staged, or of the live, configuration. -/
def State.canonical (s : State) (staged : Bool) : List Byte :=
  (allBlks.filter Blk.banked).flatMap (fun b => (s.bankOffsets b).flatMap (fun o =>
    u32 ((s.word (bif staged then o + b.half else o)).toNat &&& bankMask b o &&& digestMask o)))
  ++ u32 (s.get Reg.ADM_CLK_FSTAGE.z)
  ++ (upto 64).flatMap (fun t => bif bit s.xtiles t then
      (upto 16384).flatMap (fun a => u32 ((s.tile t).syllable (bif staged then 1 - s.liveBank t else s.liveBank t) a).toNat) else [])

/-- The first 8 bytes of its SHA-384. -/
def State.digest64 (s : State) (staged : Bool) : Nat := leNat ((sha384 (s.canonical staged)).take 8)

/-! ### The end of a check (R581 to R584) -/

def Fail.res (f : Fail) : Nat := f.code * 2 ^ 24 + f.block * 2 ^ 16 + f.item

/-- The first 16 failures, their number, and the first of them (R581). -/
def State.admRecord (s : State) (l : List Fail) : State :=
  let none_ : Fail := ⟨0, 0, 0, 0, 0⟩
  let s := s.put Reg.ADM_STAT_NFAIL.z (min l.length 65535)
  let s := (upto 16).foldl (fun s n =>
    let f := l.getD n none_
    ((s.put (Reg.ADM_REF_RES_RES.e n) f.res).put (Reg.ADM_REF_NEED_NEED.e n) (min f.need (2 ^ 32 - 1))).put
      (Reg.ADM_REF_HAVE_HAVE.e n) (min f.avail (2 ^ 32 - 1))) s
  let f := l.headD none_
  let s := ((s.put Reg.ADM_RES_CODE.z f.code).put Reg.ADM_RES_BLOCK.z f.block).put Reg.ADM_RES_ITEM.z f.item
  (s.put Reg.ADM_NEED_NEED.z (min f.need (2 ^ 32 - 1))).put Reg.ADM_HAVE_HAVE.z (min f.avail (2 ^ 32 - 1))

/-- A request ends with LAST = `last` and EV508; a commit that is not accepted ends its freeze. -/
def State.admEnd (s : State) (last : Nat) : State :=
  let s := s.adm.named.foldl (State.pend false) s
  let s := { s with adm := { s.adm with request := none, named := [], partnerWait := false }, pair := { s.pair with creq := none } }
  ((s.put Reg.ADM_STAT_LAST.z last).ev 508).admNext

/-- DET_LOAD (07 R235) for the views of a bank: 10⁹ weighted values per second, the whole part. DESIGN CHOICE (log 63): the spec
gives no rounding for it, nor whether views that still drain count; they do not. -/
def State.detLoad (s : State) (c : BankView) : State :=
  s.put Reg.DET_LOAD_LOAD.z ((Frac.sum ((viewsOn c).map (viewLoad c))).div ⟨1000000000, 1⟩).down

/-- The loads of the streams of the live configuration, and of those that drain now (R572). -/
def State.liveLoads (s : State) : List StreamLoad :=
  let v : BankView := ⟨s.word, 0⟩
  let streams := streamsOn v
  streams.map (loadOf v (s.sources v (namers v (viewsOn v) (tunersOn v) (unitsOn v))))
    ++ s.adm.loads.filter (fun l => s.get (strState l.stream) == 4 && !streams.contains l.stream)

/-- The commit is accepted (R583, R584): it takes generation `gen` and its instant; ADM_XTILES clears. What the check placed is
kept for the instant. -/
def State.admAccept (s : State) (gen instant : Nat) : State :=
  let t := s.asBegun
  let c := t.cand
  let streams := streamsOn c
  let clock := bif s.clockChange then some (s.get Reg.ADM_CLK_FSTAGE.z) else none
  let s := { s with adm := { s.adm with request := none, partnerWait := false, instant := some instant, clock := clock,
                                        xtiles := s.xtiles, regions := t.regionMap (t.regionUnits c streams),
                                        stores := placeStores c (24 * 2 ^ 20) (t.galUsed c), loads := s.liveLoads,
                                        grants := (upto 8).map (fun g => c.get (Reg.ADM_TSRAM_SIZE.e g) * 65536) },
                    pair := { s.pair with creq := none } }
  let s := s.put64 Reg.ADM_XTILES_L_TILES.z Reg.ADM_XTILES_H_TILES.z 0
  let s := (((s.put Reg.ADM_CGEN_CGEN.z gen).put Reg.ADM_STAT_STATE.z 2).put Reg.ADM_STAT_LAST.z 2).ev 508
  (s.detLoad c).tunAccept.ringSync

/-- The next generation. -/
def State.nextGen (s : State) : Nat := (s.get Reg.ADM_CGEN_CGEN.z + 1) % 2 ^ 32

/-- The check of request `r` has no failure left: a check has passed, a commit is accepted for `instant`. -/
def State.admPass (s : State) (r : AdmRequest) (gen instant : Nat) : State :=
  bif r.commit then s.admAccept gen instant else s.admEnd 1

/-- 50 µs after the 10 ms within which a partner answers: the instant a pair commit with ASAP is sent with. -/
def pairLead : Nat := us48 10050

/-- The code of a refusal on the standby, with NEED and HAVE: 0 for none, 0xFF for unequal digests (23 R673). -/
def standbyCode (l : List Fail) (same : Bool) : Nat × Nat × Nat :=
  match l with
  | f :: _ => (f.code, f.need, f.avail)
  | [] => if same then (0, 0, 0) else (0xFF, 0, 0)

/-- PARTNER (R581, 23 R673). -/
def partnerFail (code : Nat) : Fail := ⟨0x1E, 7, 0, code, 0⟩

/-- The request's cell: kind, instant, generation, digest (23 R664). -/
def creqBody (r : AdmRequest) (instant gen digest : Nat) : List Byte :=
  u8 (b2n r.commit + 2 * b2n r.asap) ++ leBytes 11 instant ++ u32 gen ++ u64 digest

/-- ADMISSION_CHECK_DONE: the check in progress ends after `us` µs (R573, R581). The primary of a SYNCED pair then asks its
partner; a standby that checks for it answers (23 R673). -/
def execAdmissionCheckDone (us : Nat) (s : State) : Res :=
  .next <| match s.adm.request with
    | none => s
    | some r =>
      bif s.adm.partnerWait then s
      else
        let s := s.put Reg.ADM_TIME_US.z (min us (2 ^ 32 - 1))
        match s.pair.creq with
        | some (gen, instant, digest) =>
          let l := s.checkAll r
          let same := s.asBegun.digest64 true == digest
          let a := standbyCode l same
          let s := s.sendReliable 0x16 (u8 a.1 ++ u32 a.2.1 ++ u32 a.2.2)
          bif l.isEmpty && same then (s.admRecord []).admPass r gen instant
          else (s.admRecord (bif l.isEmpty then [partnerFail 0xFF] else l)).admEnd 3
        | none =>
          let l := s.checkAll r
          bif !l.isEmpty then (s.admRecord l).admEnd 3
          else bif s.syncedPrimary then
            let instant := bif r.asap then tagAdd s.now pairLead else r.at_.getD s.admInst
            let s := { s with adm := { s.adm with partnerWait := true, asked := instant } }
            s.sendReliable 0x15 (creqBody r instant s.nextGen (s.asBegun.digest64 true))
          else (s.admRecord []).admPass r s.nextGen (s.admAsked r)

/-- The partner's answer (23 R673): the commit is accepted, or refused with PARTNER; 0xFE where none came in 10 ms. -/
def State.partnerAnswer (s : State) (code : Nat) : State :=
  match s.adm.request with
  | none => s
  | some r =>
    bif !s.adm.partnerWait then s
    else
      let late := bif code == 0 then s.instantFails r else []
      bif code != 0 then (s.admRecord [partnerFail code]).admEnd 3
      else bif !late.isEmpty then (s.admRecord late).admEnd 3
      else (s.admRecord []).admPass r s.nextGen s.adm.asked

/-! ### Requests (R582, R586) -/

/-- A request runs at once, or is held while the one before it has not ended; a later one replaces a held one (R586). On the
standby of a SYNCED pair it is sent to the primary (23 R673). -/
def State.admRequest (s : State) (r : AdmRequest) : State :=
  bif s.get Reg.ADM_STAT_STATE.z == 0 then s.admStart r
  else
    let s := bif s.adm.held.isSome then s.ev 511 else s
    { s with adm := { s.adm with held := some r } }.flag Reg.ADM_STAT_HELD.z true

/-- A write of ADM_CMD with CHECK or COMMIT. -/
def State.admCommand (s : State) (r : AdmRequest) : State :=
  bif dzState s == 3 && dzRole s == 2 then s.sendReliable 0x15 (creqBody r s.admInst 0 0) else s.admRequest r

/-- CHECK. -/
def execAdmCheck (asap : Bool) (s : State) : Res := .next (s.admCommand ⟨false, asap, none⟩)

/-- COMMIT. -/
def execAdmCommit (asap : Bool) (s : State) : Res := .next (s.admCommand ⟨true, asap, none⟩)

/-- ABORT (R586). -/
def execAdmAbort (s : State) : Res :=
  let held := s.adm.held.isSome
  let waiting := s.get Reg.ADM_STAT_STATE.z == 2
  .next <| bif !held && !waiting then s.bad .admission
    else
      let s := ({ s with adm := { s.adm with held := none } }.flag Reg.ADM_STAT_HELD.z false).ev 511
      bif waiting then
        let s := s.adm.named.foldl (State.pend false) s
        let s := (upto 256).foldl (fun s t => bif (s.tuner t).iS.isSome then s.setTuner t { s.tuner t with iS := none } else s) s
        let s := { s with adm := { s.adm with named := [], xtiles := 0, clock := none } }
        ((s.put Reg.ADM_STAT_LAST.z 4).detLoad ⟨s.word, 0⟩).admNext.ringSync
      else s

/-- COMMIT_INSTANT: the instant of the accepted commit arrives (R583); in Sleep, where the time base stands, it need not have. -/
def execCommitInstant (s : State) : Res :=
  .next <| bif s.get Reg.ADM_STAT_STATE.z == 2
      && (!lt s.now (s.adm.instant.getD 0) || s.get Reg.PWR_STAT_MODE.z == 2) then s.instantNow
    else s

end Sys2Proof.Machine
end

