-- ==== Sys2Proof/Machine/Fabric.lean ====
section
/-!
DEFINITION. The fabric between the tiles, the DMA engines and the targets they share (12_tile_programming_model.md R403 to R405,
14_gallery_dma.md R439): the requests of one cycle wait in a queue per requester, each target serves its requesters in rounds,
and each lock its acquires from the requester after its last grantee on.
-/
namespace Sys2Proof.Machine

/-! ### Queues -/

/-- Request `q` joins requester `r`'s queue. -/
def State.fabPush (s : State) (r : Nat) (q : FabReq) : State :=
  { s with tls := { s.tls with queues := tset (fun _ => []) s.tls.queues r (tget (fun _ => []) s.tls.queues r ++ [q]) } }

/-- The shared target of memory address `a`: gallery SRAM 0 to 7, tile memory 8 + t, HBM controller 72 + pc (R404). -/
def State.memTarget (s : State) (a : Nat) : Nat :=
  match dmaUnit a with
  | some (1, g, _) => g
  | some (2, t, _) => 8 + t
  | _ => 72 + s.physOf a % 256

/-- The lock block and the register space as shared targets. -/
def lockTarget : Nat := 328
def regTarget : Nat := 329

/-- The target of a request of requester `r`. -/
def State.reqTarget (s : State) (r : Nat) (q : FabReq) : Nat :=
  match q with
  | .load a _ _ _ _ => s.memTarget a
  | .store a _ _ => s.memTarget a
  | .lock _ _ _ _ => lockTarget
  | .port _ _ => regTarget
  | .slot c _ =>
    let x := s.chan (r - 64) c
    s.memTarget ((x.desc.map (fun b => (descOf b).dstOf x.moved)).getD 0)

/-- W of a requester: TILE_ARB.WT of a tile, DMA_CTRL.WT of an engine (R404, 14 R439). -/
def State.fabWeight (s : State) (r : Nat) : Nat :=
  max 1 (bif lt r 64 then s.get (Reg.TILE_ARB_WT.t r) else s.get (Reg.DMA_CTRL_WT.e (r - 64)))

/-! ### Rounds (R404) -/

/-- Every requester in its order gets up to W grants a round, until no request waits. -/
def arbRounds (w : Nat → Nat) : Nat → List (Nat × List FabReq) → List (Nat × FabReq)
  | 0, _ => []
  | n + 1, qs =>
    let qs := qs.filter (fun q => !q.2.isEmpty)
    bif qs.isEmpty then []
    else qs.flatMap (fun q => (q.2.take (w q.1)).map (fun x => (q.1, x)))
      ++ arbRounds w n (qs.map (fun q => (q.1, q.2.drop (w q.1))))

/-- The 72 requesters from the one after `last` on. -/
def fromAfter (n last : Nat) : List Nat := (upto n).map (fun k => (last + k) % n)

/-- The grants of target `x` for the requests that wait, in their order. -/
def State.grantsOf (s : State) (x : Nat) : List (Nat × FabReq) :=
  let qs := (fromAfter 72 (tget (fun _ => 0) s.tls.served x)).map (fun r =>
    (r, (tget (fun _ => []) s.tls.queues r).filter (fun q => s.reqTarget r q == x)))
  arbRounds s.fabWeight (maxOf (qs.map (fun q => q.2.length))) qs

/-! ### Service -/

/-- The value `one` register of a load with opcode `op` takes from the bytes `v` read, register `k` of the transfer (13 R418). -/
def loadValue (op v k : Nat) : Word :=
  if op = 0 then BitVec.ofInt 32 (sext 8 v) else if op = 2 then BitVec.ofInt 32 (sext 16 v) else BitVec.ofNat 32 (v / 2 ^ (32 * k))

/-- Physical register `p` of a register set of tile `t` takes `v`. -/
def State.tileSetD (s : State) (t : Nat) (lvl : Bool) (p : Nat) (v : Word) : State :=
  let x := s.tile t
  let r (y : RegSet) : RegSet := { y with d := tset (fun _ => 0) y.d p v }
  s.setTile t (if lvl then { x with shadow := r x.shadow } else { x with main := r x.main })

/-- A request of requester `r` takes effect at its target. -/
def State.fabServe (s : State) (r : Nat) (q : FabReq) : State :=
  match q with
  | .load a w op lvl dst =>
    let v := leNat (s.peekAll a w)
    (dst.zip (upto dst.length)).foldl (fun s p => s.tileSetD r lvl p.1 (loadValue op v p.2)) s
  | .store a w v => s.pokeAll a (leBytes w v)
  | .lock acq n lvl dst =>
    let y := bif acq then s.lockAcquire r n else s.lockRelease r n
    y.1.tileSetD r lvl dst (BitVec.ofNat 32 y.2)
  | .port o v => s.portWrite r o v
  | .slot c k => s.dmaSlot (r - 64) c k

/-- The requests of lock `n` among grants `l`, releases before acquires, and those from the requester after its last grantee on, in
ascending number modulo 67 (R403). -/
def State.lockOrder (s : State) (l : List (Nat × FabReq)) (n : Nat) : List (Nat × FabReq) :=
  let of_ (acq : Bool) : List (Nat × FabReq) := (fromAfter 67 (tget (fun _ => 0) s.tls.grantee n)).flatMap (fun r => l.filter (fun q =>
    q.1 == r && match q.2 with
      | .lock a m _ _ => a == acq && m == n
      | _ => false))
  of_ false ++ of_ true

/-- The locks that grants `l` name. -/
def locksOf (l : List (Nat × FabReq)) : List Nat :=
  (l.filterMap (fun q => match q.2 with
    | .lock _ n _ _ => some n
    | _ => none)).eraseDups

/-- Target `x` serves what waits for it, and remembers whom it served last. -/
def State.serveTarget (s : State) (x : Nat) : State :=
  let l := s.grantsOf x
  let o := bif x == lockTarget then (locksOf l).flatMap (s.lockOrder l) else l
  let s := o.foldl (fun s q => s.fabServe q.1 q.2) s
  match l.getLast? with
  | some q => { s with tls := { s.tls with served := tset (fun _ => 0) s.tls.served x (q.1 + 1) } }
  | none => s

/-- The targets that requests wait for, ascending. -/
def State.targetsDue (s : State) : List Nat :=
  let due := (upto 72).flatMap (fun r => (tget (fun _ => []) s.tls.queues r).map (s.reqTarget r))
  (upto 330).filter (fun x => due.contains x)

/-- Every target serves the requests of this cycle; the queues are empty again. -/
def State.fabric (s : State) : State :=
  let s := s.targetsDue.foldl State.serveTarget s
  { s with tls := { s.tls with queues := [] } }

/-- The DMA engine of gallery `g` issues the slot of this CK_FABRIC cycle (14 R438, R439). -/
def State.dmaTick (s : State) (g : Nat) : State :=
  match s.chTurn g with
  | some (c, u) =>
    let x := s.chan g c
    let k := (x.desc.map (fun b => min ((descOf b).slotLen x.moved) ((descOf b).count - x.moved))).getD 0
    { s with dma := { s.dma with turn := tset (fun _ => (15, 0)) s.dma.turn g (c, u) } }.fabPush (64 + g) (.slot c k)
  | none => s

end Sys2Proof.Machine
end

