-- ==== Sys2Proof/Machine/Easel.lean ====
section
/-!
DEFINITION. The Easel core (13_easel_instruction_set.md): registers, bundles and their checks, the effect of each syllable on
the core, and the issue of a bundle (R408 to R424).
-/
namespace Sys2Proof.Machine

/-! ### Registers (12 R368 to R370) -/

/-- The physical register that logical register `r` names (12 R370). -/
def RegSet.phys (x : RegSet) (r : Nat) : Nat := if r < 32 then r else 32 + (r - 32 + x.rrb) % 32
def RegSet.dAt (x : RegSet) (p : Nat) : Word := tget (fun _ => 0) x.d p
/-- Logical register `r`. -/
def RegSet.dReg (x : RegSet) (r : Nat) : Word := x.dAt (x.phys r)
def RegSet.setD (x : RegSet) (p : Nat) (v : Word) : RegSet := { x with d := tset (fun _ => 0) x.d p v }
def RegSet.accAt (x : RegSet) (i : Nat) : Int × Int := tget (fun _ => (0, 0)) x.acc i
def RegSet.setAcc (x : RegSet) (i : Nat) (v : Int × Int) : RegSet := { x with acc := tset (fun _ => (0, 0)) x.acc i v }
/-- Predicate `i`; Q0 reads 1 (12 R368). -/
def RegSet.pred (x : RegSet) (i : Nat) : Bool := i == 0 || bit x.q i
def RegSet.setQ (x : RegSet) (i : Nat) (v : Bool) : RegSet := if i = 0 then x else { x with q := putBits x.q i 1 (b2n v) }
/-- P, B, L and M registers by X index. -/
def RegSet.xAt (x : RegSet) (i : Nat) : Word := tget (fun _ => 0) x.x i
def RegSet.pReg (x : RegSet) (n : Nat) : Nat := (x.xAt n).toNat
def RegSet.bReg (x : RegSet) (n : Nat) : Nat := (x.xAt (0x10 + n)).toNat
def RegSet.lReg (x : RegSet) (n : Nat) : Nat := (x.xAt (0x18 + n)).toNat
def RegSet.mReg (x : RegSet) (n : Nat) : Int := (x.xAt (0x20 + n)).toInt

/-- SR (12 R368). -/
def RegSet.sr (x : RegSet) (lvl : Bool) : Nat :=
  b2n x.ie * 2 ^ 31 + b2n lvl * 2 ^ 30 + b2n x.l1a * 2 ^ 29 + b2n x.l0a * 2 ^ 28 + b2n x.sat * 2 ^ 27 + b2n x.aov * 2 ^ 26
    + b2n x.drop * 2 ^ 25 + x.rrb

/-- The register at X index `i` (R422). -/
def RegSet.xSpace (x : RegSet) (lvl : Bool) (i : Nat) : Word :=
  if i < 0x28 then x.xAt i
  else BitVec.ofNat 32 (if i = 0x28 then x.lc0 else if i = 0x29 then x.lc1 else if i = 0x2A then x.prg
    else if i = 0x2B then x.sr lvl else x.q / 2 * 2 + 1)

/-- A write of the register at X index `i`, PRG's bench effects apart (R422). -/
def RegSet.setX (x : RegSet) (i : Nat) (v : Word) : RegSet :=
  let n := v.toNat
  if i < 0x28 then { x with x := tset (fun _ => 0) x.x i v }
  else if i = 0x28 then { x with lc0 := n }
  else if i = 0x29 then { x with lc1 := n }
  else if i = 0x2A then { x with prg := 0, drop := x.drop || bit x.prg 31 }
  else if i = 0x2B then { x with ie := bit n 31, sat := bit n 27, aov := bit n 26, drop := bit n 25, rrb := n % 32 }
  else { x with q := bits n 0 8 / 2 * 2 + 1 }

/-- A write of X index `i` of the main set or the set in use: a write of a PRG with V = 1 abandons the instruction (R422). -/
def Tile.writeX (x : Tile) (main : Bool) (i : Nat) (v : Word) : Tile :=
  let r := if main then x.main else x.cur
  let x := if i = 0x2A ∧ bit r.prg 31 then { x with bench := [], long := none, busy := false } else x
  if main then { x with main := r.setX i v } else x.setCur (r.setX i v)

/-! ### Arithmetic (12 R369, R374, R375) -/

/-- The components of a C16 value (12 R369). -/
def c16I (v : Word) : Int := sext 16 v.toNat
def c16Q (v : Word) : Int := sext 16 (v.toNat / 65536)
def c16 (i q : Int) : Word := BitVec.ofNat 32 (toU 16 i + toU 16 q * 65536)

/-- satacc (12 R374), with the number of saturated components. -/
def satAcc (v : Int × Int) : (Int × Int) × Nat := ((satS 40 v.1, satS 40 v.2), b2n (clipsS 40 v.1) + b2n (clipsS 40 v.2))

/-- The exact product of two C16 values, the second conjugated where `cj` (12 R374). -/
def cmul16 (a b : Word) (cj : Bool) : Int × Int :=
  let bq := if cj then -(c16Q b) else c16Q b
  (c16I a * c16I b - c16Q a * bq, c16I a * bq + c16Q a * c16I b)

/-- x × 2^e, rounded convergently where `e` < 0. -/
def scaleBy (x : Int) (e : Int) : Int := if 0 ≤ e then x * 2 ^ e.toNat else rnd x (-e).toNat

/-- An accumulator as C16 with shift `n` (12 R375), with the number of saturated components. -/
def accC16 (a : Int × Int) (n : Int) : Word × Nat :=
  let i := scaleBy a.1 (-15 - n)
  let q := scaleBy a.2 (-15 - n)
  (c16 (satS 16 i) (satS 16 q), b2n (clipsS 16 i) + b2n (clipsS 16 q))

/-- A component as I32 with shift `n` (12 R375). -/
def accI32 (a : Int) (n : Nat) : Word × Nat := (BitVec.ofInt 32 (satS 32 (rnd a n)), b2n (clipsS 32 (rnd a n)))

/-- step (12 R372, R373) of P`n` with value `p`. -/
def RegSet.step (x : RegSet) (n : Nat) (d : Int) : Nat :=
  let p : Int := x.pReg n
  if n < 8 && x.lReg n ≠ 0 then toU 32 (x.bReg n + (p + d - x.bReg n) % (x.lReg n : Int)) else toU 32 (p + d)

/-! ### The core's address map (12 R364 to R366) -/

/-- What a core address reaches: a memory byte by its DMA address, a word of the tile's own block, the trigger port, or
nothing. -/
inductive CoreAt where
  | mem (a : Nat)
  | reg (o : Nat)
  | port (o : Nat)
  | bad
deriving DecidableEq, Repr

/-- The target of `w` bytes at core address `a` of tile `t`. -/
def State.coreAt (s : State) (t a w : Nat) : CoreAt :=
  bif lt a 0x200000 then (bif s.tileOk t a w then .mem (tileAddr t a) else .bad)
  else bif le 0x10000000 a && lt a 0x20000000 then
    let u := (a - 0x10000000) / 0x400000
    let o := (a - 0x10000000) % 0x400000
    bif s.tileOk u o w then .mem (tileAddr u o) else .bad
  else bif le 0x20000000 a && lt a 0x30000000 then
    let g := (a - 0x20000000) / 0x2000000
    let o := (a - 0x20000000) % 0x2000000
    bif s.galOk g o w then .mem (galAddr g o) else .bad
  else bif le 0x40000000 a && lt a 0x80000000 then
    let o := s.get (Reg.TILE_HBMWIN_WIN.t t) * 2 ^ 30 + (a - 0x40000000)
    bif s.hbmOk o w then .mem o else .bad
  else bif le 0xFFF00000 a && le (a + w) 0xFFF00200 then .reg (a - 0xFFF00000)
  else bif le 0xFFF01000 a && le (a + w) 0xFFF01010 then .port (a - 0xFFF01000)
  else .bad

/-- The value a load of `w` bytes finds, before any side effect. -/
def State.coreLoad (s : State) (t w : Nat) (c : CoreAt) : Nat :=
  match c with
  | .mem a => leNat (s.peekAll a w)
  | .reg o =>
    let words := (upto (max 1 (w / 4))).map (fun k => (s.ownRead t (o / 4 * 4 + 4 * k)).2.toNat)
    let v := words.zip (upto words.length) |>.foldl (fun a p => a + p.1 * 2 ^ (32 * p.2)) 0
    v / 2 ^ (8 * (o % 4)) % 2 ^ (8 * w)
  | _ => 0

/-- A store of `w` bytes with value `v`. -/
def State.coreStore (s : State) (t w v : Nat) (c : CoreAt) : State :=
  match c with
  | .mem a => s.pokeAll a (leBytes w v)
  | .reg o => (upto (max 1 (w / 4))).foldl (fun s k =>
      let m := if w ≥ 4 then 0xFFFFFFFF else (2 ^ (8 * w) - 1) * 2 ^ (8 * (o % 4))
      let u := if w ≥ 4 then v / 2 ^ (32 * k) % 2 ^ 32 else v * 2 ^ (8 * (o % 4)) % 2 ^ 32
      s.ownWrite t (o / 4 * 4 + 4 * k) u m) s
  | .port o => bif lt w 4 then s else (upto (w / 4)).foldl (fun s k => s.portWrite t (o + 4 * k) (v / 2 ^ (32 * k) % 2 ^ 32)) s
  | .bad => s

/-- The fault of a store to own registers: a host-only register (ADDR), a RIDX beyond the ring (RING) (R379, R392). -/
def State.storeFault (s : State) (t w v : Nat) (c : CoreAt) : Nat :=
  match c with
  | .reg o =>
    let ws := (upto (max 1 (w / 4))).map (fun k => o / 4 * 4 + 4 * k)
    bif ws.any hostOnly then 2
    else bif (ws.zip (upto ws.length)).any (fun p =>
        le 0x140 p.1 && lt p.1 0x1C0 && p.1 % 8 == 4
          && !s.ridxOk t ((p.1 - 0x140) / 8) (v / 2 ^ (32 * p.2) % 2 ^ 16)) && le 2 w && o % 4 == 0 then 7
    else 0
  | _ => 0

/-! ### Syllables (R408 to R413) -/

def sylClass (w : Nat) : Nat := bits w 28 3

/-- The classes of a bundle's syllables are allowed together and stand in slot order (R409). -/
def slotsOk (cs : List Nat) : Bool :=
  let slot (c : Nat) : Nat := min c 2
  let n (f : Nat → Bool) : Nat := (cs.filter f).length
  cs == [4] || (cs.all (fun c => lt c 4) && le (n (fun c => c == 0)) 2 && le (n (fun c => c == 1)) 1
    && le (n (fun c => le 2 c)) 1 && (cs.zip (cs.drop 1)).all (fun p => le (slot p.1) (slot p.2)))

/-- Index of a valid X register (R422). -/
def xOk (i : Nat) : Bool := le i 0x2C

/-- The syllable's opcode is listed, its zero fields are zero and its constraints hold (R413); `lvl` for MVFM, MVTM, RTI. -/
def sylOk (w : Nat) (lvl : Bool) : Bool :=
  let op := bits w 22 6
  let f (lo n : Nat) : Nat := bits w lo n
  if sylClass w = 0 then
    let o := f 24 4
    let m := f 22 2
    if o = 0xF then false
    else if o = 0xE then m < 2 && f 15 4 = 0 && f 8 1 = 0
    else (m % 2 = 0 || f 3 6 = 0)
      && (!(o = 5 || o = 0xB) || f 9 1 = 0) && (!(o = 6 || o = 0xC) || f 9 2 = 0)
      && (o ≠ 7 || f 13 2 = 0) && (o ≠ 0xD || m % 2 = 0)
  else if sylClass w = 1 then
    if op ≤ 9 then f 12 3 = 0 && (op ≠ 7 || f 0 12 = 0) && (!(op = 8 || op = 9) || (f 0 6 = 0 && f 9 3 = 0))
    else if 0x10 ≤ op && op ≤ 0x14 then
      f 0 3 = 0 &&
        (if op = 0x10 then (decide (-8 ≤ sext 6 (f 3 6)) && decide (sext 6 (f 3 6) ≤ 23))
         else if op ≤ 0x12 then f 3 6 < 32 else f 3 6 < 3)
    else false
  else if sylClass w = 2 then
    if op ≤ 0x20 then
      let da := f 6 6
      let db := f 0 6
      let dd := f 12 6
      if op = 0x0F || op = 0x12 || op = 0x13 then db = 0
      else if 0x16 ≤ op && op ≤ 0x19 then dd < 8
      else if 0x1A ≤ op && op ≤ 0x1C then dd < 8 && da < 8 && db < 8
      else if op = 0x1D then db = 0 && xOk dd
      else if op = 0x1E then db = 0 && xOk da
      else if op = 0x1F then f 0 5 = 0 && lvl && (f 5 7 < 0x40 || xOk (f 5 7 - 0x40))
      else if op = 0x20 then f 0 5 = 0 && lvl && (f 11 7 < 0x40 || xOk (f 11 7 - 0x40))
      else true
    else if 0x28 ≤ op && op ≤ 0x2D then op ≤ 0x2A || f 5 7 = 0
    else op = 0x30 || op = 0x31
  else if sylClass w = 3 then
    let o := f 24 4
    if o = 1 || o = 2 then f 14 6 = 0
    else if o = 3 then f 0 20 = 0
    else if o = 4 then f 14 2 = 0
    else if o = 5 then true
    else if o = 6 then f 0 19 = 0
    else if o = 7 then lvl && f 0 24 = 0
    else o ≤ 0xA && f 0 24 = 0
  else sylClass w = 4

/-- The syllable executes (R411). -/
def RegSet.runs (x : RegSet) (w : Nat) : Bool :=
  let op := bits w 22 6
  let o := bits w 24 4
  if sylClass w = 0 then x.pred (bits w 19 3)
  else if sylClass w = 1 || (sylClass w = 2 && op < 0x30) then xor (x.pred (bits w 19 3)) (bit w 18)
  else if sylClass w = 3 && (o = 1 || o = 2 || o = 3) then xor (x.pred (bits w 21 3)) (bit w 20)
  else if sylClass w = 3 && o = 6 then xor (x.pred (bits w 20 3)) (bit w 19)
  else true

/-- What a syllable asks the ALU/branch slot to do after its bundle. -/
inductive CtlFx where
  | none
  | goto (a : Nat)
  | call (a : Nat)
  | loop (lv : Nat) (rot : Bool) (count last : Nat)
  | lbrk (lv : Nat)
  | rti
  | swp
  | idle
deriving DecidableEq, Repr

/-- The effects of one executing syllable, computed before any is made (R410). -/
structure Fx where
  /-- fault code and data address; code 0: none. -/
  fault : Nat × Nat
  d : List (Nat × Word)
  x : List (Nat × Word)
  acc : List (Nat × (Int × Int))
  q : List (Nat × Bool)
  /-- a load through the fabric (12 R404). -/
  far : Option FabReq
  /-- stores: target, width, value; own words read. -/
  st : List (CoreAt × Nat × Nat)
  touch : List Nat
  /-- a lock operation: acquire or release, lock, physical destination. -/
  lock : Option (Bool × Nat × Nat)
  /-- a write of the main set (R423). -/
  main : Option (Nat × Word)
  sat : Nat
  aov : Nat
  ctl : CtlFx
deriving DecidableEq, Repr

def Fx.none : Fx := ⟨(0, 0), [], [], [], [], .none, [], [], .none, .none, 0, 0, .none⟩

/-! ### The load/store slot (R417 to R419) -/

/-- Width of a load/store opcode. -/
def lsWidth (o : Nat) : Nat :=
  if o = 2 || o = 3 || o = 9 then 2 else if o = 4 || o = 0xA || o = 0xD then 4 else if o = 5 || o = 0xB then 8
  else if o = 6 || o = 0xC then 16 else 1

/-- The address used, and the write of Pn (R417). -/
def RegSet.address (x : RegSet) (w wd : Nat) : Nat × List (Nat × Word) :=
  let m := bits w 22 2
  let n := bits w 15 4
  let imm := sext 9 (bits w 0 9)
  let p : Int := x.pReg n
  let md := x.mReg (bits w 0 3)
  if m = 0 then (toU 32 (p + imm * wd), [])
  else if m = 1 then (toU 32 (p + md), [])
  else if m = 2 then (x.pReg n, [(n, BitVec.ofNat 32 (x.step n (imm * wd)))])
  else (x.pReg n, [(n, BitVec.ofNat 32 (x.step n md))])

/-- A load/store syllable (R418, R419). -/
def State.lsFx (s : State) (t : Nat) (x : RegSet) (w : Nat) : Fx :=
  let o := bits w 24 4
  let wd := lsWidth o
  let dn := bits w 9 6
  if o = 0xE then { Fx.none with lock := some (bits w 22 2 == 0, bits w 0 8, x.phys dn) }
  else
    let (a, px) := x.address w wd
    if o = 7 then { Fx.none with x := (dn % 16, BitVec.ofNat 32 a) :: px }
    else
      let c := s.coreAt t a wd
      if c = .bad then { Fx.none with fault := (2, a) }
      else if a % wd ≠ 0 then { Fx.none with fault := (3, a) }
      else if o < 7 then
        let v := s.coreLoad t wd c
        let dst := (upto (max 1 (wd / 4))).map (fun k => x.phys (dn + k))
        let far := match c with
          | .mem m => bif s.memTarget m == 8 + t then none else some (FabReq.load m wd o (s.tile t).lvl dst)
          | _ => none
        let touch := match c with
          | .reg r => (upto (max 1 (wd / 4))).map (fun k => r / 4 * 4 + 4 * k)
          | _ => []
        { Fx.none with d := (dst.zip (upto dst.length)).map (fun p => (p.1, loadValue o v p.2)), x := px, far := far, touch := touch }
      else
        let (v, sat) :=
          if o = 0xD then
            let n := max (-8) (min 23 (sext 6 (x.xAt (0x20 + dn % 8)).toNat))
            let r := accC16 (x.accAt (dn / 8)) n
            (r.1.toNat, r.2)
          else (((upto (max 1 (wd / 4))).map (fun k => (x.dReg (dn + k)).toNat * 2 ^ (32 * k))).foldl (· + ·) 0, 0)
        let v := v % 2 ^ (8 * wd)
        let f := s.storeFault t wd v c
        if f ≠ 0 then { Fx.none with fault := (f, a) } else { Fx.none with st := [(c, wd, v)], x := px, sat := sat }

/-! ### The MAC slot (R420) -/

/-- Part `n` of an accumulator as AGET gives it. -/
def accPart (a : Int × Int) (n : Nat) : Word :=
  if n = 0 then BitVec.ofInt 32 a.1
  else if n = 1 then BitVec.ofInt 32 a.2
  else BitVec.ofNat 32 (toU 40 a.1 / 2 ^ 32 + toU 40 a.2 / 2 ^ 32 * 2 ^ 8)

/-- ASET of part `n`. -/
def setAccPart (a : Int × Int) (n : Nat) (v : Word) : Int × Int :=
  let i := toU 40 a.1
  let q := toU 40 a.2
  if n = 0 then (sext 40 (putBits i 0 32 v.toNat), a.2)
  else if n = 1 then (a.1, sext 40 (putBits q 0 32 v.toNat))
  else (sext 40 (putBits i 32 8 (bits v.toNat 0 8)), sext 40 (putBits q 32 8 (bits v.toNat 8 8)))

/-- A MAC syllable. -/
def macFx (x : RegSet) (w : Nat) : Fx :=
  let op := bits w 22 6
  let ad := bits w 15 3
  let a := x.dReg (bits w 6 6)
  let b := x.dReg (bits w 0 6)
  let put (i : Nat) (r : (Int × Int) × Nat) : Fx := { Fx.none with acc := [(i, r.1)], aov := r.2 }
  let cur := x.accAt ad
  let src := x.accAt (bits w 6 3)
  let real : Int := c16I a * c16I b
  if op = 0x00 then let p := cmul16 a b false
                    put ad (satAcc (cur.1 + p.1, cur.2 + p.2))
  else if op = 0x01 then let p := cmul16 a b true
                         put ad (satAcc (cur.1 + p.1, cur.2 + p.2))
  else if op = 0x02 then let p := cmul16 a b false
                         put ad (satAcc (cur.1 - p.1, cur.2 - p.2))
  else if op = 0x03 then put ad (cmul16 a b false, 0)
  else if op = 0x04 then put ad (cmul16 a b true, 0)
  else if op = 0x05 then put ad ((satS 40 (cur.1 + real), cur.2), b2n (clipsS 40 (cur.1 + real)))
  else if op = 0x06 then put ad ((real, 0), 0)
  else if op = 0x07 then put ad ((0, 0), 0)
  else if op = 0x08 then put ad (satAcc (cur.1 + src.1, cur.2 + src.2))
  else if op = 0x09 then put ad (src, 0)
  else
    let i := bits w 9 3
    let acc := x.accAt i
    let n := bits w 3 6
    let dd := x.phys (bits w 12 6)
    let give (r : Word × Nat) : Fx := { Fx.none with d := [(dd, r.1)], sat := r.2 }
    if op = 0x10 then give (accC16 acc (sext 6 n))
    else if op = 0x11 then give (accI32 acc.1 n)
    else if op = 0x12 then give (accI32 acc.2 n)
    else if op = 0x13 then give (accPart acc n, 0)
    else { Fx.none with acc := [(i, setAccPart acc n (x.dReg (bits w 12 6)))] }

/-! ### The ALU slot (R421 to R423) -/

/-- The value of a format R instruction that writes a D register, with its saturated components (R421). -/
def aluValue (op : Nat) (a b : Word) : Word × Nat :=
  let sh := b.toNat % 32
  let sat (v : Int) : Word × Nat := (BitVec.ofInt 32 (satS 32 v), b2n (clipsS 32 v))
  let csat (i q : Int) : Word × Nat := (c16 (satS 16 i) (satS 16 q), b2n (clipsS 16 i) + b2n (clipsS 16 q))
  if op = 0x00 then (a + b, 0)
  else if op = 0x01 then (a - b, 0)
  else if op = 0x02 then sat (a.toInt + b.toInt)
  else if op = 0x03 then sat (a.toInt - b.toInt)
  else if op = 0x04 then (a &&& b, 0)
  else if op = 0x05 then (a ||| b, 0)
  else if op = 0x06 then (a ^^^ b, 0)
  else if op = 0x07 then (a &&& ~~~b, 0)
  else if op = 0x08 then (a <<< sh, 0)
  else if op = 0x09 then (a >>> sh, 0)
  else if op = 0x0A then (BitVec.sshiftRight a sh, 0)
  else if op = 0x0B then (if a.toInt ≤ b.toInt then a else b, 0)
  else if op = 0x0C then (if a.toInt ≤ b.toInt then b else a, 0)
  else if op = 0x0D then (if a.toNat ≤ b.toNat then a else b, 0)
  else if op = 0x0E then (if a.toNat ≤ b.toNat then b else a, 0)
  else if op = 0x0F then (a, 0)
  else if op = 0x10 then csat (c16I a + c16I b) (c16Q a + c16Q b)
  else if op = 0x11 then csat (c16I a - c16I b) (c16Q a - c16Q b)
  else if op = 0x12 then csat (c16I a) (-(c16Q a))
  else if op = 0x13 then (c16 (c16Q a) (c16I a), 0)
  else if op = 0x14 then (c16 (c16I a / 2 ^ (b.toNat % 16)) (c16Q a / 2 ^ (b.toNat % 16)), 0)
  else (c16 (c16I a) (c16I b), 0)

/-- The value of a format I instruction on `d` (R421). -/
def immValue (op : Nat) (d : Word) (imm : Nat) : Word :=
  let i := BitVec.ofInt 32 (sext 12 imm)
  if op = 0x28 then d + i else if op = 0x29 then d &&& i else if op = 0x2A then d ||| i
  else if op = 0x2B then d <<< (imm % 32) else if op = 0x2C then d >>> (imm % 32) else BitVec.sshiftRight d (imm % 32)

/-- The main-set register that MVFM names (R423). -/
def Tile.mainReg (x : Tile) (i : Nat) : Word := if i < 0x40 then x.main.dAt i else x.main.xSpace x.lvl (i - 0x40)

/-- An ALU syllable. -/
def aluFx (tl : Tile) (w : Nat) : Fx :=
  let x := tl.cur
  let op := bits w 22 6
  let dd := bits w 12 6
  let a := x.dReg (bits w 6 6)
  let b := x.dReg (bits w 0 6)
  let qa := x.pred (bits w 6 3)
  let qb := x.pred (bits w 0 3)
  let give (r : Word × Nat) : Fx := { Fx.none with d := [(x.phys dd, r.1)], sat := r.2 }
  let qput (v : Bool) : Fx := { Fx.none with q := [(dd % 8, v)] }
  if op ≤ 0x15 then let r := aluValue op a b
                    give (r.1, min 1 r.2)
  else if op = 0x16 then qput (a == b)
  else if op = 0x17 then qput (decide (a.toInt < b.toInt))
  else if op = 0x18 then qput (lt a.toNat b.toNat)
  else if op = 0x19 then qput (decide (a.toInt ≤ b.toInt))
  else if op = 0x1A then qput (qa && qb)
  else if op = 0x1B then qput (qa || qb)
  else if op = 0x1C then qput (qa && !qb)
  else if op = 0x1D then { Fx.none with x := [(dd, a)] }
  else if op = 0x1E then give (x.xSpace tl.lvl (bits w 6 6), 0)
  else if op = 0x1F then give (tl.mainReg (bits w 5 7), 0)
  else if op = 0x20 then { Fx.none with main := some (bits w 11 7, x.dReg (bits w 5 6)) }
  else if op < 0x30 then give (immValue op (x.dReg dd) (bits w 0 12), 0)
  else
    let k := bits w 16 6
    let v := if op = 0x30 then BitVec.ofInt 32 (sext 16 (bits w 0 16))
      else BitVec.ofNat 32 ((x.dReg k).toNat % 65536 + bits w 0 16 * 65536)
    { Fx.none with d := [(x.phys k, v)] }

/-! ### Control (R424) -/

/-- A control syllable. -/
def ctlFx (x : RegSet) (w : Nat) : Fx :=
  let o := bits w 24 4
  let c : CtlFx :=
    if o = 1 then .goto (bits w 0 14)
    else if o = 2 then .call (bits w 0 14)
    else if o = 3 then .goto (x.pReg 15 % 2 ^ 14)
    else if o = 4 then .loop (bits w 23 1) (bit w 22) (x.dReg (bits w 16 6)).toNat (bits w 0 14)
    else if o = 5 then .loop (bits w 23 1) (bit w 22) (bits w 14 8) (bits w 0 14)
    else if o = 6 then .lbrk (bits w 23 1)
    else if o = 7 then .rti
    else if o = 8 then .swp
    else if o = 0xA then .idle
    else .none
  { Fx.none with ctl := c }

/-- The effects of a syllable; none where its predicate is false (R411). -/
def State.sylFx (s : State) (t : Nat) (w : Nat) : Fx :=
  let tl := s.tile t
  let x := tl.cur
  if !x.runs w then Fx.none
  else if sylClass w = 0 then s.lsFx t x w
  else if sylClass w = 1 then macFx x w
  else if sylClass w = 2 then aluFx tl w
  else ctlFx x w

/-! ### The issue of a bundle (R408, R410, R413, 12 R371, R379) -/

/-- No key twice. -/
def noDup (l : List Nat) : Bool := l.eraseDups.length == l.length

/-- No two syllables write one register (R410). -/
def writesOk (fs : List Fx) : Bool :=
  noDup (fs.flatMap (fun f => f.d.map (·.1) ++ (match f.lock with
    | some (_, _, p) => [p]
    | none => []))) &&
  noDup (fs.flatMap (fun f => f.x.map (·.1) ++ (match f.ctl with
    | .call _ => [15]
    | _ => []))) && noDup (fs.flatMap (fun f => f.acc.map (·.1))) && noDup (fs.flatMap (fun f => f.q.map (·.1)))

/-- Length of the bundle at address `a` of a bank; 0 where it has no stop bit within its bounds. -/
def bundleLen (bk : Tbl Word) (a : Nat) : Nat :=
  match (upto 4).find? (fun k => lt (a + k) 16384 && bit (tget (fun _ => 0) bk (a + k)).toNat 31) with
  | some k => k + 1
  | none => 0

/-- Walking whole bundles from `a` reaches the bundle at `last`: its length (R424); 0 where it does not. -/
def bodyEnd (bk : Tbl Word) (last : Nat) : Nat → Nat → Nat
  | 0, _ => 0
  | fuel + 1, a =>
    let n := bundleLen bk a
    if n = 0 then 0 else if a = last then n else if last < a then 0 else bodyEnd bk last fuel (a + n)

def isBranch (w : Nat) : Bool := sylClass w == 3 && (let o := bits w 24 4
                                                     o == 1 || o == 2 || o == 3)

/-- Rotation at the end of an iteration (12 R370, R371). -/
def RegSet.rotate (x : RegSet) (l : LoopLevel) : RegSet := if l.rot then { x with rrb := (x.rrb + 31) % 32 } else x

/-- The loop-back decision of a bundle at syllable address `a` (12 R371): the next address, where `next` follows it. -/
def RegSet.loopBack (x : RegSet) (a next : Nat) : RegSet × Nat :=
  let zero (x : RegSet) : RegSet × Nat :=
    if x.l0a && x.loop0.last = a then
      if x.lc0 > 1 then ({ x with lc0 := x.lc0 - 1 }.rotate x.loop0, x.loop0.start)
      else ({ x with lc0 := 0, l0a := false }.rotate x.loop0, next)
    else (x, next)
  if x.l1a && x.loop1.last = a then
    if x.lc1 > 1 then ({ x with lc1 := x.lc1 - 1 }.rotate x.loop1, x.loop1.start)
    else zero ({ x with lc1 := 0, l1a := false }.rotate x.loop1)
  else zero x

/-- A LOOP takes effect: the level's state, and the next address where the count is 0 (12 R371). -/
def RegSet.startLoop (x : RegSet) (lv : Nat) (rot : Bool) (count last next skip : Nat) : RegSet × Nat :=
  let l : LoopLevel := ⟨next, last, rot⟩
  let on := decide (count ≠ 0)
  let x := if lv = 0 then { x with lc0 := count, l0a := on, loop0 := l } else { x with lc1 := count, l1a := on, loop1 := l }
  (x, if on then next else skip)

/-- The effects of a bundle on registers (R410). -/
def Tile.commit (x : Tile) (fs : List Fx) : Tile :=
  let x := fs.foldl (fun x f =>
    let r := f.d.foldl (fun r p => r.setD p.1 p.2) x.cur
    let r := f.acc.foldl (fun r p => r.setAcc p.1 p.2) r
    let r := f.q.foldl (fun r p => r.setQ p.1 p.2) r
    let r := { r with sat := r.sat || lt 0 f.sat, aov := r.aov || lt 0 f.aov }
    f.x.foldl (fun x p => x.writeX false p.1 p.2) (x.setCur r)) x
  fs.foldl (fun (x : Tile) f => match f.main with
    | some (i, v) => if i < 0x40 then { x with main := x.main.setD i v } else x.writeX true (i - 0x40) v
    | none => x) x

/-- A store goes through the fabric where its target is not the tile's own memory or registers (12 R404). -/
def State.storeReq (s : State) (t : Nat) (c : CoreAt) (w v : Nat) : List FabReq :=
  match c with
  | .mem a => bif s.memTarget a == 8 + t then [] else [.store a w v]
  | .port o => bif lt w 4 then [] else (upto (w / 4)).map (fun k => .port (o + 4 * k) (v / 2 ^ (32 * k) % 2 ^ 32))
  | _ => []

/-- Memory, own registers and locks: reads' side effects, then stores, then lock operations, in slot order (R410, R419). In a cycle
(`cyc`) what passes through the fabric joins the tile's queue, else no other request competes and it takes effect at once. -/
def State.commitMem (s : State) (t : Nat) (fs : List Fx) (cyc : Bool) : State :=
  let s := fs.foldl (fun s f => f.touch.foldl (fun s o => (s.ownRead t o).1) s) s
  let s := bif cyc then (fs.filterMap (·.far)).foldl (fun s q => s.fabPush t q) s else s
  let s := fs.foldl (fun s f => f.st.foldl (fun s p =>
    let l := s.storeReq t p.1 p.2.1 p.2.2
    bif cyc && !l.isEmpty then l.foldl (fun s q => s.fabPush t q) s else s.coreStore t p.2.1 p.2.2 p.1) s) s
  fs.foldl (fun s f => match f.lock with
    | some (acq, n, p) =>
      let q := FabReq.lock acq n (s.tile t).lvl p
      bif cyc then s.fabPush t q else s.fabServe t q
    | none => s) s

/-- The bundle at syllable address `a`, `next` after it, raises ILLEGAL (R408, R409, R413, R424, 12 R379). -/
def State.bundleIllegal (s : State) (t a next : Nat) (ws : List Nat) (fs : List Fx) : Bool :=
  let tl := s.tile t
  let x := tl.cur
  let bk := tl.bank (s.liveBank t)
  let lastOf := (x.l0a && x.loop0.last == a) || (x.l1a && x.loop1.last == a)
  let badLoop := fs.any (fun f => match f.ctl with
    | .loop _ _ _ last => bodyEnd bk last 16384 next == 0
    | _ => false)
  !slotsOk (ws.map sylClass) || ws.any (fun w => !sylOk w tl.lvl) || !bit (ws.getLastD 0) 31 || lt 16384 (a + ws.length)
    || (lastOf && ws.any isBranch) || badLoop || !writesOk fs

/-- The core of tile `t` goes on with registers `r` at syllable address `n`. -/
def State.coreGo (s : State) (t : Nat) (r : RegSet) (n : Nat) : State :=
  s.tilePut t ((s.tile t).setCur { r with pc := s.pcAt t n })

/-- What the control syllable does after the bundle at `a` (R424); the loop-back decision follows what LOOP and LBRK do to the loop
state (12 R371). -/
def State.control (s : State) (t a next : Nat) (c : CtlFx) : State :=
  let tl := s.tile t
  let x := tl.cur
  let r := x.loopBack a next
  match c with
  | .none => s.coreGo t r.1 r.2
  | .goto n => s.coreGo t x n
  | .call n => s.coreGo t { x with x := tset (fun _ => 0) x.x 15 (BitVec.ofNat 32 next) } n
  | .loop lv rot count last =>
    let skip := last + bundleLen (tl.bank (s.liveBank t)) last
    let n := x.startLoop lv rot count last next skip
    let r := n.1.loopBack a n.2
    s.coreGo t r.1 r.2
  | .lbrk lv =>
    let r := (if lv = 0 then { x with lc0 := 0, l0a := false } else { x with lc1 := 0, l1a := false }).loopBack a next
    s.coreGo t r.1 r.2
  | .rti => s.tilePut t { tl with lvl := false }
  | .swp =>
    let s := s.coreGo t r.1 r.2
    bif !tl.lvl && s.get (xState t) != 0 then s.exchange t false else s
  | .idle => let s := s.coreGo t r.1 r.2
             s.setTile t { s.tile t with idle := true }

/-- A bundle other than a bench one issues (R410), in a cycle where `cyc`: its faults come before any of its effects. -/
def State.issue (s : State) (t : Nat) (ws : List Nat) (cyc : Bool) : State :=
  let tl := s.tile t
  let a := tl.cur.pc % 2 ^ 14
  let next := a + ws.length
  let fs := ws.map (fun w => s.sylFx t w)
  let s := s.setTile t { tl with bundle := [], idle := false }
  bif s.bundleIllegal t a next ws fs then s.tileFault t 1 0
  else match fs.find? (fun f => f.fault.1 != 0) with
    | some f => s.tileFault t f.fault.1 f.fault.2
    | none =>
      let n := sumOf (fs.map (fun f => f.sat + f.aov))
      let s := bif lt 0 n then s.count (Reg.TILE_SAT_COUNT.t t) n else s
      let s := s.setTile t ((s.tile t).commit fs)
      let s := s.commitMem t fs cyc
      s.control t a next ((fs.map (·.ctl)).find? (· ≠ .none) |>.getD .none)

end Sys2Proof.Machine
end

