-- ==== Sys2Proof/Machine/Bench.lean ====
section
/-!
DEFINITION. Bench instructions (13_easel_instruction_set.md R425 to R430) and long instructions (12 R380 to R385): their
checks, their granules, and what takes effect at a granule's end.
-/
namespace Sys2Proof.Machine

/-! ### Parameter blocks -/

/-- A signed stride of a parameter block. -/
def stride (b : List Byte) (i : Nat) : Int := sext 32 (leAt b i 4)
def byteAt (b : List Byte) (i : Nat) : Nat := leAt b i 1

/-- An operand of a bench instruction: base, counts, strides, element width, and whether it is written. -/
structure Operand where
  base : Nat
  n : List Nat
  st : List Int
  w : Nat
  write : Bool
deriving DecidableEq, Repr

/-- Bytes of a BMOV format, and bits of a component (R429). -/
def movBytes (f : Nat) : Nat := if f = 0 then 2 else if f = 1 then 4 else if f = 2 then 2 else 4
def movBits (f : Nat) : Nat := if f = 1 then 32 else if f = 2 then 8 else 16
def movComplex (f : Nat) : Bool := decide (2 ≤ f)

/-- The operands of an instruction with parameter block `b` (R427 to R430). -/
def benchOperands (op : Nat) (b : List Byte) : List Operand :=
  if op = 1 then
    let w := if byteAt b 28 = 2 then 4 else 2
    let m := byteAt b 24
    let n := byteAt b 25
    let k := leAt b 26 2
    [⟨leAt b 0 4, [m, k], [stride b 8, stride b 12], w, false⟩, ⟨leAt b 4 4, [k, n], [stride b 16, stride b 20], w, false⟩]
  else if op = 2 then
    [⟨leAt b 0 4, [byteAt b 12, byteAt b 13], [stride b 4, stride b 8], if byteAt b 14 = 0 then 4 else 8, true⟩]
  else if op = 3 then
    let r := leAt b 24 2
    let c := leAt b 26 2
    [⟨leAt b 0 4, [r, c], [stride b 8, stride b 16], movBytes (byteAt b 28 % 16), false⟩,
     ⟨leAt b 4 4, [r, c], [stride b 12, stride b 20], movBytes (byteAt b 28 / 16), true⟩]
  else if op = 4 then
    let n := 2 ^ byteAt b 16
    let k := leAt b 18 2
    [⟨leAt b 0 4, [k, n], [stride b 8, 4], 4, false⟩, ⟨leAt b 4 4, [k, n], [stride b 12, 4], 4, true⟩]
  else []

/-- Granules in all (R426). -/
def benchGranules (op : Nat) (b : List Byte) : Nat :=
  if op = 0 then 1
  else if op = 1 then leAt b 26 2
  else if op = 2 then ceilDiv (byteAt b 12 * byteAt b 13) 64
  else if op = 3 then ceilDiv (leAt b 24 2 * leAt b 26 2) 256
  else ceilDiv (leAt b 18 2 * (2 ^ byteAt b 16 / 2)) 256

/-- Reserved fields are 0 and every parameter lies in its range (R425 to R430). -/
def benchParams (op : Nat) (b : List Byte) : Bool :=
  let zero (i n : Nat) : Bool := leAt b i n == 0
  let dim (x hi : Nat) : Bool := le 1 x && le x hi
  (if op = 0 then true
   else if op = 1 then
     dim (byteAt b 24) 64 && dim (byteAt b 25) 64 && dim (leAt b 26 2) 65535 && le (byteAt b 28) 2 && lt (byteAt b 29) 4 && zero 30 2
   else if op = 2 then
     let n := sext 8 (byteAt b 15)
     dim (byteAt b 12) 64 && dim (byteAt b 13) 64 && le (byteAt b 14) 1 && lt (byteAt b 16) 2 && zero 17 15
       && (if byteAt b 14 = 0 then leI (-8) n && leI n 23 else leI 0 n && leI n 31)
   else if op = 3 then
     let f := byteAt b 28
     let sh := sext 8 (byteAt b 29)
     dim (leAt b 24 2) 65535 && dim (leAt b 26 2) 4096 && lt (f % 16) 4 && lt (f / 16) 4 && leI (-31) sh && leI sh 31
       && zero 30 2 && movComplex (f % 16) == movComplex (f / 16)
   else
     let nl := byteAt b 16
     let sl := byteAt b 17
     le 4 nl && le nl 12 && le 1 sl && le sl nl && dim (leAt b 18 2) 4096 && lt (byteAt b 20) 8 && zero 21 11
       && (!bit (byteAt b 20) 2 || sl == 1))
  && le (benchGranules op b) 65536

/-- The byte range an operand touches. -/
def Operand.range (o : Operand) : Int × Int := extent o.base o.n o.st o.w

/-- The fault of an instruction that starts afresh (R425): 0 where every check passes; `p` is the value of its pointer. -/
def State.benchFault (s : State) (t op p z : Nat) (b : List Byte) : Nat :=
  let tl := s.tile t
  let os := benchOperands op b
  let inside (r : Int × Int) : Bool := leI 0 r.1 && ltI r.2 0x200000
  let aligned (o : Operand) : Bool := o.base % o.w == 0 && (o.n.zip o.st).all (fun c => c.1 == 1 || c.2 % (o.w : Int) == 0)
  let meet (x y : Int × Int) : Bool := leI x.1 y.2 && leI y.1 x.2
  let srcs := os.filter (fun o => !o.write)
  let dsts := os.filter (·.write)
  bif tl.lvl then 5 else bif s.claimed t then 4
  else bif lt 4 op || z != 0 then 1
  else bif op == 0 then 0
  else bif lt 0x1FFFE0 p then 2
  else bif !benchParams op b then 1
  else bif !os.all (fun o => inside o.range) then 2
  else bif p % 32 != 0 || !os.all aligned then 3
  else bif srcs.any (fun x => dsts.any (fun y => meet x.range y.range)) then 6
  else 0

/-! ### Granules (R427 to R430) -/

def State.tileBytes (s : State) (t a n : Nat) : List Byte := s.peekAll (tileAddr t a) n
/-- Address of element (i, j) of an operand. -/
def Operand.at_ (o : Operand) (i j : Nat) : Nat :=
  ((o.base : Int) + i * o.st.getD 0 0 + j * o.st.getD 1 0).toNat

/-- A complex value of `c` bits per component at address `a`. -/
def State.complexAt (s : State) (t a c : Nat) : Int × Int :=
  let b := s.tileBytes t a (c / 4)
  (sext c (leAt b 0 (c / 8)), sext c (leAt b (c / 8) (c / 8)))

def Tile.benchAt (x : Tile) (i : Nat) : Int × Int := tget (fun _ => (0, 0)) x.bench i
def Tile.setBench (x : Tile) (i : Nat) (v : Int × Int) : Tile := { x with bench := tset (fun _ => (0, 0)) x.bench i v }

/-- Saturations of a granule: counted in TILE_SAT, with SR.SAT or SR.AOV of the main set. -/
def State.benchSat (s : State) (t sat aov : Nat) : State :=
  let x := s.tile t
  let s := s.setTile t { x with main := { x.main with sat := x.main.sat || lt 0 sat, aov := x.main.aov || lt 0 aov } }
  bif lt 0 (sat + aov) then s.count (Reg.TILE_SAT_COUNT.t t) (sat + aov) else s

/-- Granule `k` of BMAC: every output takes one product (R427). -/
def State.bmacGranule (s : State) (t : Nat) (b : List Byte) (k : Nat) : State :=
  let os := benchOperands 1 b
  let oa := os.getD 0 ⟨0, [], [], 1, false⟩
  let ob := os.getD 1 ⟨0, [], [], 1, false⟩
  let pr := byteAt b 28
  let c := if pr = 2 then 16 else 8
  let conj := bit (byteAt b 29) 0
  let n := byteAt b 25
  let four (v : Int × Int) : (Int × Int) × Nat :=
    if pr = 0 then ((satS 4 v.1, satS 4 v.2), b2n (clipsS 4 v.1) + b2n (clipsS 4 v.2)) else (v, 0)
  let r := (upto (byteAt b 24 * n)).foldl (fun (st : Tile × Nat × Nat) e =>
    let i := e / n
    let j := e % n
    let x := four (s.complexAt t (oa.at_ i k) c)
    let y0 := four (s.complexAt t (ob.at_ k j) c)
    let y : Int × Int := if conj then (y0.1.1, -y0.1.2) else y0.1
    let acc := st.1.benchAt (64 * i + j)
    let v := satAcc (acc.1 + x.1.1 * y.1 - x.1.2 * y.2, acc.2 + x.1.1 * y.2 + x.1.2 * y.1)
    (st.1.setBench (64 * i + j) v.1, st.2.1 + x.2 + y0.2, st.2.2 + v.2)) (s.tile t, 0, 0)
  let s := s.setTile t r.1
  let s := bif lt 0 r.2.1 then s.count (Reg.TILE_SAT_COUNT.t t) r.2.1 else s
  s.benchSat t 0 r.2.2

/-- Granule `k` of BOUT: 64 accumulators in order e (R428). -/
def State.boutGranule (s : State) (t : Nat) (b : List Byte) (k : Nat) : State :=
  let o := (benchOperands 2 b).headD ⟨0, [], [], 1, true⟩
  let n := byteAt b 13
  let items := (upto 64).map (· + 64 * k) |>.filter (fun e => lt e (byteAt b 12 * n))
  let sh := sext 8 (byteAt b 15)
  let clr := bit (byteAt b 16) 0
  let x := s.tile t
  let conv (v : Int × Int) : List Byte × Nat :=
    if byteAt b 14 = 0 then let r := accC16 v sh
                            (u32 r.1.toNat, r.2)
    else let i := accI32 v.1 sh.toNat
         let q := accI32 v.2 sh.toNat
         (u32 i.1.toNat ++ u32 q.1.toNat, i.2 + q.2)
  let sat := sumOf (items.map (fun e => (conv (x.benchAt (64 * (e / n) + e % n))).2))
  let s := items.foldl (fun s e => s.pokeAll (tileAddr t (o.at_ (e / n) (e % n))) (conv (x.benchAt (64 * (e / n) + e % n))).1) s
  let s := bif clr then s.setTile t (items.foldl (fun y e => y.setBench (64 * (e / n) + e % n) (0, 0)) (s.tile t)) else s
  s.benchSat t sat 0

/-- Granule `k` of BMOV: 256 elements in order (r, c) (R429). -/
def State.bmovGranule (s : State) (t : Nat) (b : List Byte) (k : Nat) : State :=
  let os := benchOperands 3 b
  let os_ := os.getD 0 ⟨0, [], [], 1, false⟩
  let od := os.getD 1 ⟨0, [], [], 1, true⟩
  let cols := leAt b 26 2
  let fs := byteAt b 28 % 16
  let fd := byteAt b 28 / 16
  let e : Int := (movBits fd : Int) - movBits fs + sext 8 (byteAt b 29)
  let items := (upto 256).map (· + 256 * k) |>.filter (fun i => lt i (leAt b 24 2 * cols))
  let conv (x : Int) : List Byte × Nat :=
    let y := scaleBy x e
    (iN (movBits fd / 8) (satS (movBits fd) y), b2n (clipsS (movBits fd) y))
  let elem (i : Nat) : List Byte × Nat :=
    let a := os_.at_ (i / cols) (i % cols)
    if movComplex fs then
      let v := s.complexAt t a (movBits fs)
      let p := conv v.1
      let q := conv v.2
      (p.1 ++ q.1, p.2 + q.2)
    else conv (sext (movBits fs) (leNat (s.tileBytes t a (movBytes fs))))
  let out := items.map (fun i => (od.at_ (i / cols) (i % cols), elem i))
  let s := out.foldl (fun s p => s.pokeAll (tileAddr t p.1) p.2.1) s
  s.benchSat t (sumOf (out.map (fun p => p.2.2))) 0

/-- w(r) of R430. -/
def fftTwiddle (r n : Nat) (inv : Bool) : Int × Int :=
  let f (x : Int) : Int := let y := f64Fix x
                           scaleRound y.num y.den 15
  let sn := f (sinTurn r n)
  (f (cosTurn r n), if inv then sn else -sn)

/-- Granule `k` of BFFT: 256 butterflies in order (batch, base, j) (R430). -/
def State.bfftGranule (s : State) (t : Nat) (b : List Byte) (k : Nat) : State :=
  let os := benchOperands 4 b
  let os_ := os.getD 0 ⟨0, [], [], 1, false⟩
  let od := os.getD 1 ⟨0, [], [], 1, true⟩
  let nl := byteAt b 16
  let n := 2 ^ nl
  let span := 2 ^ byteAt b 17
  let scale := b2n (bit (byteAt b 20) 0)
  let inv := bit (byteAt b 20) 1
  let pos (i : Nat) : Nat := if bit (byteAt b 20) 2 then bitrev nl i else i
  let items := (upto 256).map (· + 256 * k) |>.filter (fun f => lt f (leAt b 18 2 * (n / 2)))
  let fly (f : Nat) : List (Nat × Word × Nat) :=
    let bt := f / (n / 2)
    let base := f % (n / 2) / (span / 2) * span
    let j := f % (n / 2) % (span / 2)
    let u := s.complexAt t (os_.at_ bt (base + j)) 16
    let v := s.complexAt t (os_.at_ bt (base + j + span / 2)) 16
    let w := fftTwiddle (j * n / span) n inv
    let d := (u.1 - v.1, u.2 - v.2)
    let x := (d.1 * w.1 - d.2 * w.2, d.1 * w.2 + d.2 * w.1)
    let put (p : Nat) (i q : Int) : Nat × Word × Nat :=
      (od.at_ bt (pos p), c16 (satS 16 i) (satS 16 q), b2n (clipsS 16 i) + b2n (clipsS 16 q))
    [put (base + j) (rnd (u.1 + v.1) scale) (rnd (u.2 + v.2) scale),
     put (base + j + span / 2) (rnd x.1 (15 + scale)) (rnd x.2 (15 + scale))]
  let out := items.flatMap fly
  let s := out.foldl (fun s p => s.pokeAll (tileAddr t p.1) (u32 p.2.1.toNat)) s
  s.benchSat t (sumOf (out.map (fun p => p.2.2))) 0

/-- Granule `k` of the long instruction `l`. -/
def State.granule (s : State) (t : Nat) (l : LongOp) (k : Nat) : State :=
  if l.op = 0 then s.setTile t { s.tile t with bench := [] }
  else if l.op = 1 then s.bmacGranule t l.block k
  else if l.op = 2 then s.boutGranule t l.block k
  else if l.op = 3 then s.bmovGranule t l.block k
  else s.bfftGranule t l.block k

/-! ### Issue, resumption, granule ends (12 R380 to R385) -/

/-- PRG of an instruction at PC `pc` with `g` granules done (12 R381). -/
def prgOf (pc g : Nat) : Nat := 2 ^ 31 + bits pc 14 1 * 2 ^ 30 + bits pc 0 14 * 2 ^ 16 + g % 2 ^ 16

/-- A bench instruction with opcode `op` issues at the main PC: it resumes the instruction PRG names, or starts afresh
(12 R383). -/
def State.benchIssue (s : State) (t w : Nat) : State :=
  let tl := s.tile t
  let op := bits w 22 6
  let pn := bits w 18 4
  let z := bits w 0 18 + (if op = 0 then pn else 0)
  let x := tl.cur
  let p := x.pReg pn
  let match_ := !tl.lvl && bit tl.main.prg 31 && bits tl.main.prg 16 15 == bits (prgOf x.pc 0) 16 15
  let s := s.setTile t { tl with bundle := [], idle := false }
  bif match_ && !s.claimed t then s.setTile t { s.tile t with busy := true }
  else
    let b := bif le p 0x1FFFE0 then s.tileBytes t p 32 else zeros 32
    let f := s.benchFault t op p z b
    bif f != 0 then s.tileFault t f p
    else
      let y := (s.tile t).abandon true
      let clr := op == 1 && bit (byteAt b 29) 1
      let y := if clr then
          (upto (byteAt b 24 * byteAt b 25)).foldl (fun (y : Tile) e =>
            y.setBench (64 * (e / byteAt b 25) + e % byteAt b 25) (0, 0)) y
        else y
      s.tilePut t { y with long := some ⟨op, b, benchGranules op b⟩, busy := true,
                           main := { y.main with prg := prgOf x.pc 0 } }

/-- At a boundary: a command in progress, a forced exchange, then an accepted interrupt take effect (12 R382, R384). -/
def State.tileBoundary (s : State) (t : Nat) : State :=
  let x := s.tile t
  match x.cmd with
  | some op => ((s.setTile t { x with cmd := none, busy := false, wantInt := false }).tileCommand t op).tileHeld t
  | none =>
    bif s.get (xState t) == 2 then s.exchange t true
    else bif x.wantInt then
      match s.tipDue t with
      | some b => (s.setTile t { x with busy := false }).tileEnter t b
      | none => s.setTile t { x with wantInt := false }
    else s

/-- BENCH_GRANULE_END: the granule under way ends and its results are written; after the last one the instruction completes
(12 R380 to R384). -/
def execBenchGranuleEnd (t : Nat) (s : State) : Res :=
  let x := s.tile t
  .next <| match x.long with
    | none => s
    | some l =>
      bif x.busy then
        let k := bits x.main.prg 0 16
        let s := s.granule t l k
        let y := s.tile t
        bif le l.total (k + 1) then
          let a := bits x.main.prg 16 14
          let r := { y.main with prg := 0 }.loopBack a (a + 1)
          (s.tilePut t { y with long := none, busy := false, main := { r.1 with pc := s.pcAt t r.2 } }).tileBoundary t
        else (s.tilePut t { y with main := { y.main with prg := y.main.prg + 1 } }).tileBoundary t
      else s

/-- INTERRUPT_ENTRY: at a bundle boundary the core takes the lowest enabled pending bit; during a granule the entry waits for
its end (12 R378, R382). -/
def execInterruptEntry (t : Nat) (s : State) : Res :=
  let x := s.tile t
  .next <| match s.tipDue t with
    | none => s
    | some b =>
      bif s.get (tileState t) != 2 && s.get (tileState t) != 3 || x.lvl || !x.main.ie then s
      else bif x.busy then s.setTile t { x with wantInt := true }
      else s.tileEnter t b

/-! ### Fetch and issue -/

/-- The tile may issue: RUNNING, no granule under way, not held in IDLE (R424). -/
def State.tileMay (s : State) (t : Nat) : Bool :=
  s.get (tileState t) == 2 && !(s.tile t).busy && (!(s.tile t).idle || (s.tipDue t).isSome)

/-- The syllables of the bundle at the PC of the live bank (R408). -/
def State.fetch (s : State) (t : Nat) : List Nat :=
  let x := s.tile t
  let a := x.cur.pc % 2 ^ 14
  let n := bundleLen (x.bank (s.liveBank t)) a
  (upto (if n = 0 then 4 else n)).map (fun k => (x.syllable (s.liveBank t) (a + k)).toNat)

/-- A whole bundle issues, in a cycle where `cyc`. -/
def State.bundle (s : State) (t : Nat) (ws : List Nat) (cyc : Bool) : State :=
  bif ws.map sylClass == [4] && bit (ws.headD 0) 31 then s.benchIssue t (ws.headD 0) else s.issue t ws cyc

/-- The core of tile `t` takes syllable `w` of the bundle at its PC; with the stop bit, or as the fourth one, it ends the
bundle, which issues (R408). -/
def State.syllable (s : State) (t w : Nat) : State :=
  bif s.tileMay t then
    let ws := (s.tile t).bundle ++ [BitVec.ofNat 32 w]
    bif bit w 31 || le 4 ws.length then s.bundle t (ws.map (·.toNat)) false
    else s.setTile t { s.tile t with bundle := ws }
  else s

/-- One CK_CORE cycle of a core (R414, 12 R378): a due interrupt is taken, else the bundle at the PC issues. -/
def State.coreTick (s : State) (t : Nat) : State :=
  bif s.tileMay t then
    let x := s.tile t
    match bif !x.lvl && x.main.ie then s.tipDue t else none with
    | some b => s.tileEnter t b
    | none => s.bundle t (s.fetch t) true
  else s

end Sys2Proof.Machine
end

