-- ==== Sys2Proof/Machine/Instructions.lean ====
section
/-!
DEFINITION. The instructions of the Easel core as commands: the core of a tile takes one syllable (13_easel_instruction_set.md,
Formats). Each command encodes its syllable; the syllable with the stop bit ends the bundle, which issues (R408, R410).
-/
namespace Sys2Proof.Machine

def LsSyl.word (op : Nat) (y : LsSyl) : Nat :=
  b2n y.stop * 2 ^ 31 + op * 2 ^ 24 + y.mode.toNat * 2 ^ 22 + y.qp.toNat * 2 ^ 19 + y.pn.toNat * 2 ^ 15 + y.data.toNat * 2 ^ 9
    + y.imm.toNat
def MacSyl.word (op : Nat) (y : MacSyl) : Nat :=
  b2n y.stop * 2 ^ 31 + 1 * 2 ^ 28 + op * 2 ^ 22 + y.qp.toNat * 2 ^ 19 + y.qn.toNat * 2 ^ 18 + y.ad.toNat * 2 ^ 15
    + y.z.toNat * 2 ^ 12 + y.da.toNat * 2 ^ 6 + y.db.toNat
def XferSyl.word (op : Nat) (y : XferSyl) : Nat :=
  b2n y.stop * 2 ^ 31 + 1 * 2 ^ 28 + op * 2 ^ 22 + y.qp.toNat * 2 ^ 19 + y.qn.toNat * 2 ^ 18 + y.dd.toNat * 2 ^ 12
    + y.as.toNat * 2 ^ 9 + y.n.toNat * 2 ^ 3 + y.z.toNat
def AluSyl.word (op : Nat) (y : AluSyl) : Nat :=
  b2n y.stop * 2 ^ 31 + 2 * 2 ^ 28 + op * 2 ^ 22 + y.qp.toNat * 2 ^ 19 + y.qn.toNat * 2 ^ 18 + y.dd.toNat * 2 ^ 12
    + y.da.toNat * 2 ^ 6 + y.db.toNat
def ImmSyl.word (op : Nat) (y : ImmSyl) : Nat :=
  b2n y.stop * 2 ^ 31 + 2 * 2 ^ 28 + op * 2 ^ 22 + y.qp.toNat * 2 ^ 19 + y.qn.toNat * 2 ^ 18 + y.dd.toNat * 2 ^ 12 + y.imm.toNat
def WideSyl.word (op : Nat) (y : WideSyl) : Nat :=
  b2n y.stop * 2 ^ 31 + 2 * 2 ^ 28 + op * 2 ^ 22 + y.dd.toNat * 2 ^ 16 + y.imm.toNat
def CtlSyl.word (op : Nat) (y : CtlSyl) : Nat := b2n y.stop * 2 ^ 31 + 3 * 2 ^ 28 + op * 2 ^ 24 + y.f.toNat
def BenchSyl.word (op : Nat) (y : BenchSyl) : Nat :=
  b2n y.stop * 2 ^ 31 + 4 * 2 ^ 28 + op * 2 ^ 22 + y.pn.toNat * 2 ^ 18 + y.z.toNat

/-- LDB (R418). -/
def execLdb (t : Nat) (y : LsSyl) (s : State) : Res := .next (s.syllable t (LsSyl.word 0x00 y))
/-- LDBU (R418). -/
def execLdbu (t : Nat) (y : LsSyl) (s : State) : Res := .next (s.syllable t (LsSyl.word 0x01 y))
/-- LDH (R418). -/
def execLdh (t : Nat) (y : LsSyl) (s : State) : Res := .next (s.syllable t (LsSyl.word 0x02 y))
/-- LDHU (R418). -/
def execLdhu (t : Nat) (y : LsSyl) (s : State) : Res := .next (s.syllable t (LsSyl.word 0x03 y))
/-- LDW (R418). -/
def execLdw (t : Nat) (y : LsSyl) (s : State) : Res := .next (s.syllable t (LsSyl.word 0x04 y))
/-- LDD (R418). -/
def execLdd (t : Nat) (y : LsSyl) (s : State) : Res := .next (s.syllable t (LsSyl.word 0x05 y))
/-- LDQ (R418). -/
def execLdq (t : Nat) (y : LsSyl) (s : State) : Res := .next (s.syllable t (LsSyl.word 0x06 y))
/-- LEA (R418). -/
def execLea (t : Nat) (y : LsSyl) (s : State) : Res := .next (s.syllable t (LsSyl.word 0x07 y))
/-- STB (R418). -/
def execStb (t : Nat) (y : LsSyl) (s : State) : Res := .next (s.syllable t (LsSyl.word 0x08 y))
/-- STH (R418). -/
def execSth (t : Nat) (y : LsSyl) (s : State) : Res := .next (s.syllable t (LsSyl.word 0x09 y))
/-- STW (R418). -/
def execStw (t : Nat) (y : LsSyl) (s : State) : Res := .next (s.syllable t (LsSyl.word 0x0A y))
/-- STD (R418). -/
def execStd (t : Nat) (y : LsSyl) (s : State) : Res := .next (s.syllable t (LsSyl.word 0x0B y))
/-- STQ (R418). -/
def execStq (t : Nat) (y : LsSyl) (s : State) : Res := .next (s.syllable t (LsSyl.word 0x0C y))
/-- STAC (R418). -/
def execStac (t : Nat) (y : LsSyl) (s : State) : Res := .next (s.syllable t (LsSyl.word 0x0D y))
/-- LKACQ (R419). -/
def execLkacq (t : Nat) (y : LsSyl) (s : State) : Res := .next (s.syllable t (LsSyl.word 0x0E { y with mode := 0 }))
/-- LKREL (R419). -/
def execLkrel (t : Nat) (y : LsSyl) (s : State) : Res := .next (s.syllable t (LsSyl.word 0x0E { y with mode := 1 }))
/-- CMAC (R420). -/
def execCmac (t : Nat) (y : MacSyl) (s : State) : Res := .next (s.syllable t (MacSyl.word 0x00 y))
/-- CMACC (R420). -/
def execCmacc (t : Nat) (y : MacSyl) (s : State) : Res := .next (s.syllable t (MacSyl.word 0x01 y))
/-- CMSB (R420). -/
def execCmsb (t : Nat) (y : MacSyl) (s : State) : Res := .next (s.syllable t (MacSyl.word 0x02 y))
/-- CMUL (R420). -/
def execCmul (t : Nat) (y : MacSyl) (s : State) : Res := .next (s.syllable t (MacSyl.word 0x03 y))
/-- CMULC (R420). -/
def execCmulc (t : Nat) (y : MacSyl) (s : State) : Res := .next (s.syllable t (MacSyl.word 0x04 y))
/-- RMAC (R420). -/
def execRmac (t : Nat) (y : MacSyl) (s : State) : Res := .next (s.syllable t (MacSyl.word 0x05 y))
/-- RMUL (R420). -/
def execRmul (t : Nat) (y : MacSyl) (s : State) : Res := .next (s.syllable t (MacSyl.word 0x06 y))
/-- ACLR (R420). -/
def execAclr (t : Nat) (y : MacSyl) (s : State) : Res := .next (s.syllable t (MacSyl.word 0x07 y))
/-- AADD (R420). -/
def execAadd (t : Nat) (y : MacSyl) (s : State) : Res := .next (s.syllable t (MacSyl.word 0x08 y))
/-- AMOV (R420). -/
def execAmov (t : Nat) (y : MacSyl) (s : State) : Res := .next (s.syllable t (MacSyl.word 0x09 y))
/-- EXTC (R420). -/
def execExtc (t : Nat) (y : XferSyl) (s : State) : Res := .next (s.syllable t (XferSyl.word 0x10 y))
/-- EXTI (R420). -/
def execExti (t : Nat) (y : XferSyl) (s : State) : Res := .next (s.syllable t (XferSyl.word 0x11 y))
/-- EXTQ (R420). -/
def execExtq (t : Nat) (y : XferSyl) (s : State) : Res := .next (s.syllable t (XferSyl.word 0x12 y))
/-- AGET (R420). -/
def execAget (t : Nat) (y : XferSyl) (s : State) : Res := .next (s.syllable t (XferSyl.word 0x13 y))
/-- ASET (R420). -/
def execAset (t : Nat) (y : XferSyl) (s : State) : Res := .next (s.syllable t (XferSyl.word 0x14 y))
/-- ADD (R421). -/
def execAdd (t : Nat) (y : AluSyl) (s : State) : Res := .next (s.syllable t (AluSyl.word 0x00 y))
/-- SUB (R421). -/
def execSub (t : Nat) (y : AluSyl) (s : State) : Res := .next (s.syllable t (AluSyl.word 0x01 y))
/-- ADDS (R421). -/
def execAdds (t : Nat) (y : AluSyl) (s : State) : Res := .next (s.syllable t (AluSyl.word 0x02 y))
/-- SUBS (R421). -/
def execSubs (t : Nat) (y : AluSyl) (s : State) : Res := .next (s.syllable t (AluSyl.word 0x03 y))
/-- AND (R421). -/
def execAnd (t : Nat) (y : AluSyl) (s : State) : Res := .next (s.syllable t (AluSyl.word 0x04 y))
/-- OR (R421). -/
def execOr (t : Nat) (y : AluSyl) (s : State) : Res := .next (s.syllable t (AluSyl.word 0x05 y))
/-- XOR (R421). -/
def execXor (t : Nat) (y : AluSyl) (s : State) : Res := .next (s.syllable t (AluSyl.word 0x06 y))
/-- ANDN (R421). -/
def execAndn (t : Nat) (y : AluSyl) (s : State) : Res := .next (s.syllable t (AluSyl.word 0x07 y))
/-- SHL (R421). -/
def execShl (t : Nat) (y : AluSyl) (s : State) : Res := .next (s.syllable t (AluSyl.word 0x08 y))
/-- SHR (R421). -/
def execShr (t : Nat) (y : AluSyl) (s : State) : Res := .next (s.syllable t (AluSyl.word 0x09 y))
/-- SAR (R421). -/
def execSar (t : Nat) (y : AluSyl) (s : State) : Res := .next (s.syllable t (AluSyl.word 0x0A y))
/-- MIN (R421). -/
def execMin (t : Nat) (y : AluSyl) (s : State) : Res := .next (s.syllable t (AluSyl.word 0x0B y))
/-- MAX (R421). -/
def execMax (t : Nat) (y : AluSyl) (s : State) : Res := .next (s.syllable t (AluSyl.word 0x0C y))
/-- MINU (R421). -/
def execMinu (t : Nat) (y : AluSyl) (s : State) : Res := .next (s.syllable t (AluSyl.word 0x0D y))
/-- MAXU (R421). -/
def execMaxu (t : Nat) (y : AluSyl) (s : State) : Res := .next (s.syllable t (AluSyl.word 0x0E y))
/-- MOV (R421). -/
def execMov (t : Nat) (y : AluSyl) (s : State) : Res := .next (s.syllable t (AluSyl.word 0x0F y))
/-- CADD (R421). -/
def execCadd (t : Nat) (y : AluSyl) (s : State) : Res := .next (s.syllable t (AluSyl.word 0x10 y))
/-- CSUB (R421). -/
def execCsub (t : Nat) (y : AluSyl) (s : State) : Res := .next (s.syllable t (AluSyl.word 0x11 y))
/-- CCONJ (R421). -/
def execCconj (t : Nat) (y : AluSyl) (s : State) : Res := .next (s.syllable t (AluSyl.word 0x12 y))
/-- CSWAP (R421). -/
def execCswap (t : Nat) (y : AluSyl) (s : State) : Res := .next (s.syllable t (AluSyl.word 0x13 y))
/-- CSHR (R421). -/
def execCshr (t : Nat) (y : AluSyl) (s : State) : Res := .next (s.syllable t (AluSyl.word 0x14 y))
/-- PACK (R421). -/
def execPack (t : Nat) (y : AluSyl) (s : State) : Res := .next (s.syllable t (AluSyl.word 0x15 y))
/-- CMPEQ (R421). -/
def execCmpeq (t : Nat) (y : AluSyl) (s : State) : Res := .next (s.syllable t (AluSyl.word 0x16 y))
/-- CMPLT (R421). -/
def execCmplt (t : Nat) (y : AluSyl) (s : State) : Res := .next (s.syllable t (AluSyl.word 0x17 y))
/-- CMPLTU (R421). -/
def execCmpltu (t : Nat) (y : AluSyl) (s : State) : Res := .next (s.syllable t (AluSyl.word 0x18 y))
/-- CMPLE (R421). -/
def execCmple (t : Nat) (y : AluSyl) (s : State) : Res := .next (s.syllable t (AluSyl.word 0x19 y))
/-- QAND (R421). -/
def execQand (t : Nat) (y : AluSyl) (s : State) : Res := .next (s.syllable t (AluSyl.word 0x1A y))
/-- QOR (R421). -/
def execQor (t : Nat) (y : AluSyl) (s : State) : Res := .next (s.syllable t (AluSyl.word 0x1B y))
/-- QANDN (R421). -/
def execQandn (t : Nat) (y : AluSyl) (s : State) : Res := .next (s.syllable t (AluSyl.word 0x1C y))
/-- MVTX (R422). -/
def execMvtx (t : Nat) (y : AluSyl) (s : State) : Res := .next (s.syllable t (AluSyl.word 0x1D y))
/-- MVFX (R422). -/
def execMvfx (t : Nat) (y : AluSyl) (s : State) : Res := .next (s.syllable t (AluSyl.word 0x1E y))
/-- MVFM (R423). -/
def execMvfm (t : Nat) (y : AluSyl) (s : State) : Res := .next (s.syllable t (AluSyl.word 0x1F y))
/-- MVTM (R423). -/
def execMvtm (t : Nat) (y : AluSyl) (s : State) : Res := .next (s.syllable t (AluSyl.word 0x20 y))
/-- ADDI (R421). -/
def execAddi (t : Nat) (y : ImmSyl) (s : State) : Res := .next (s.syllable t (ImmSyl.word 0x28 y))
/-- ANDI (R421). -/
def execAndi (t : Nat) (y : ImmSyl) (s : State) : Res := .next (s.syllable t (ImmSyl.word 0x29 y))
/-- ORI (R421). -/
def execOri (t : Nat) (y : ImmSyl) (s : State) : Res := .next (s.syllable t (ImmSyl.word 0x2A y))
/-- SHLI (R421). -/
def execShli (t : Nat) (y : ImmSyl) (s : State) : Res := .next (s.syllable t (ImmSyl.word 0x2B y))
/-- SHRI (R421). -/
def execShri (t : Nat) (y : ImmSyl) (s : State) : Res := .next (s.syllable t (ImmSyl.word 0x2C y))
/-- SARI (R421). -/
def execSari (t : Nat) (y : ImmSyl) (s : State) : Res := .next (s.syllable t (ImmSyl.word 0x2D y))
/-- MOVLO (R421). -/
def execMovlo (t : Nat) (y : WideSyl) (s : State) : Res := .next (s.syllable t (WideSyl.word 0x30 y))
/-- MOVHI (R421). -/
def execMovhi (t : Nat) (y : WideSyl) (s : State) : Res := .next (s.syllable t (WideSyl.word 0x31 y))
/-- NOP (R424). -/
def execNop (t : Nat) (y : CtlSyl) (s : State) : Res := .next (s.syllable t (CtlSyl.word 0x00 y))
/-- BR (R424). -/
def execBr (t : Nat) (y : CtlSyl) (s : State) : Res := .next (s.syllable t (CtlSyl.word 0x01 y))
/-- CALL (R424). -/
def execCall (t : Nat) (y : CtlSyl) (s : State) : Res := .next (s.syllable t (CtlSyl.word 0x02 y))
/-- RET (R424). -/
def execRet (t : Nat) (y : CtlSyl) (s : State) : Res := .next (s.syllable t (CtlSyl.word 0x03 y))
/-- LOOP (R371). -/
def execLoop (t : Nat) (y : CtlSyl) (s : State) : Res := .next (s.syllable t (CtlSyl.word 0x04 y))
/-- LOOPI (R371). -/
def execLoopi (t : Nat) (y : CtlSyl) (s : State) : Res := .next (s.syllable t (CtlSyl.word 0x05 y))
/-- LBRK (R424). -/
def execLbrk (t : Nat) (y : CtlSyl) (s : State) : Res := .next (s.syllable t (CtlSyl.word 0x06 y))
/-- RTI (R378). -/
def execRti (t : Nat) (y : CtlSyl) (s : State) : Res := .next (s.syllable t (CtlSyl.word 0x07 y))
/-- SWP (R398). -/
def execSwp (t : Nat) (y : CtlSyl) (s : State) : Res := .next (s.syllable t (CtlSyl.word 0x08 y))
/-- FENCE (R367). -/
def execFence (t : Nat) (y : CtlSyl) (s : State) : Res := .next (s.syllable t (CtlSyl.word 0x09 y))
/-- IDLE (R424). -/
def execIdle (t : Nat) (y : CtlSyl) (s : State) : Res := .next (s.syllable t (CtlSyl.word 0x0A y))
/-- BCLR (R426). -/
def execBclr (t : Nat) (y : BenchSyl) (s : State) : Res := .next (s.syllable t (BenchSyl.word 0x00 y))
/-- BMAC (R427). -/
def execBmac (t : Nat) (y : BenchSyl) (s : State) : Res := .next (s.syllable t (BenchSyl.word 0x01 y))
/-- BOUT (R428). -/
def execBout (t : Nat) (y : BenchSyl) (s : State) : Res := .next (s.syllable t (BenchSyl.word 0x02 y))
/-- BMOV (R429). -/
def execBmov (t : Nat) (y : BenchSyl) (s : State) : Res := .next (s.syllable t (BenchSyl.word 0x03 y))
/-- BFFT (R430). -/
def execBfft (t : Nat) (y : BenchSyl) (s : State) : Res := .next (s.syllable t (BenchSyl.word 0x04 y))

end Sys2Proof.Machine
end

