-- ==== Sys2Proof/Machine/Fire.lean ====
section
/-! DEFINITION. What a trigger unit's firing does (09_triggers.md R277 to R288): actions, records, groups, forces, and the commands
of TRG_CMD. -/

namespace Sys2Proof.Machine

/-! ### The record (R288) -/

/-- The marks of a firing known when it is decided. -/
structure FireMarks where
  late : Bool
  remote : Bool

/-- Offsets 16 to 51 of a record: what a PAIR firing copies from the partner's. -/
def fireFields (d : TrigDone) : List Byte :=
  bif d.body.isEmpty then
    u48 d.idx ++ u16 (min d.viol 65535) ++ u48 d.run.first ++ u16 d.cell ++ u48 d.run.sample ++ u16 d.tq ++ u96 d.tag
  else (d.body ++ zeros 36).take 36

/-- The flags of a record. -/
def State.fireFlags (s : State) (d : TrigDone) (m : FireMarks) : Nat :=
  2 * b2n d.forced + 4 * b2n m.remote + 16 * b2n m.late + 32 * b2n (s.get Reg.PWR_STAT_MODE.z == 3) + 64 * b2n d.multi
    + 128 * b2n d.run.part + 256 * b2n d.sched

/-- The body of the trigger record of firing `n` of unit `u`, decided now (R288). -/
def State.fireBody (s : State) (u n : Nat) (d : TrigDone) (m : FireMarks) : List Byte :=
  let y := s.unit u
  let g := match s.groupOf u with
    | some g => g
    | none => 0xFF
  u8 u ++ u8 (s.get (Reg.TRG_UCFG_SRC.e u)) ++ u16 (s.fireFlags d m) ++ u16 d.elem ++ u8 g ++ u8 (b2n m.remote) ++ u32 n ++ u32 y.armRec
    ++ fireFields d ++ u96 s.now ++ u32 (s.trgBank u).gen ++ u32 y.supp ++ zeros 8

/-! ### Actions (R284, R285) -/

/-- The pins that unit `u` drives receive a firing; whether an edge is late. -/
def State.firePins (s : State) (u tag : Nat) : State × Bool :=
  (upto 8).foldl (fun (p : State × Bool) k =>
    bif bit (p.1.get (Reg.TOUT_SRC_UNITS.e k)) u then
      let q := p.1.pinFire k tag
      (q.1, p.2 || q.2)
    else p) (s, false)

/-- Every UNIT unit that watches `u` receives the firing as a product (R266, R274). -/
def State.unitPulses (s : State) (u n : Nat) (d : TrigDone) : State :=
  (upto 32).foldl (fun s v =>
    bif s.on (Reg.TRG_UCFG_EN.e v) && s.get (Reg.TRG_UCFG_SRC.e v) == 0xA && s.get (Reg.TRG_UELEM_ELEM.e v) == u then
      let y := s.unit v
      s.setUnit v { y with queue := y.queue ++ [⟨n, d.tag, d.tq, []⟩] }
    else s) s

/-- The FIREB of a PAIR firing with this condition tag has not come (23 R684). -/
def State.fireWaits (s : State) (tag : Nat) : Bool := s.pair.fires.any (fun f => f.tag == tag)

/-- The record is held, or enters the queue (R286, R287, 23 R684). -/
def State.fireRecord (s : State) (u : Nat) (d : TrigDone) (m : FireMarks) (body : List Byte) : State :=
  let act (f : Fld) := s.on (f.e u)
  let sts := (if act Reg.TRG_UACT_M0EN then [s.get (Reg.TRG_UMARK_STREAM0.e u)] else [])
    ++ (if act Reg.TRG_UACT_M1EN then [s.get (Reg.TRG_UMARK_STREAM1.e u)] else [])
  let r : TrigRecord := ⟨u, sts, body, d.elem, d.run.spans⟩
  let src := s.get (Reg.TRG_UCFG_SRC.e u)
  let hold := ((src == 1 || src == 2) && !d.run.spans.isEmpty) || (m.remote && s.fireWaits d.tag)
  bif hold then { s with trg := { s.trg with held := s.trg.held ++ [r] } } else s.queueRecord r

/-- The firing's group: a FIRST group is released, on both engines where it spans the pair (R281, R283). -/
def State.fireGroup (s : State) (u at_ : Nat) : State :=
  match s.groupOf u with
  | none => s
  | some g =>
    let b := s.groupBank g
    bif !b.on (Reg.TRG_GCFG_FIRST.e g) then s
    else
      let fires := u :: (s.members g).filter (fun v => match (s.unit v).comp with
        | some c => c.at_ == at_
        | none => false)
      let first := !(s.group g).fired
      let s := (s.setGroup g { s.group g with fired := true }).releaseGroup g fires
      bif first && b.on (Reg.TRG_GCFG_PAIR.e g) && s.inPair then
        s.sendCell 0x06 0 (u8 g ++ u32 (s.group g).arm) else s

/-- A firing of unit `u` (R277, R284): the next firing number, the decision tag, FIRED, and the actions of TRG_UACT. -/
def State.fire (s : State) (u : Nat) (d : TrigDone) : State :=
  let y := s.unit u
  let was := s.get (unitState u)
  let n := (s.get (Reg.TRG_UFIRE_COUNT.e u) + 1) % 2 ^ 32
  let remote := s.get (Reg.TRG_UCFG_SRC.e u) == 0xB && !d.body.isEmpty
  let s := s.setUnit u { y.cleared with comp := none, dec := some s.now, fromDisarmed := was == 0 }
  let s := (s.put (Reg.TRG_UFIRE_COUNT.e u) n).put (unitState u) 3
  let p := s.firePins u d.tag
  let m : FireMarks := ⟨p.2, remote⟩
  let s := p.1
  let body := s.fireBody u n d m
  let s := s.setUnit u { s.unit u with supp := 0 }
  let s := bif p.2 then s.unitFlag u Reg.TRG_USTAT_LATEOUT else s
  let s := bif s.on (Reg.TRG_UACT_CAP.e u) then s.capRequest (s.get (Reg.TRG_UACT_CAPSEL.e u)) u n d.tag d.tq else s
  let s := s.fireRecord u d m body
  let s := bif s.on (Reg.TRG_UACT_PAIRTX.e u) && s.inPair then
      (s.sendCell 0x03 0 (u8 u ++ u8 (s.fireFlags d m) ++ u32 n ++ u96 d.tag ++ u16 d.tq ++ u16 d.elem ++ zeros 2)).sendCell
        0x04 0 ((fireFields d).take 22 ++ zeros 2)
    else s
  let s := bif s.on (Reg.TRG_UACT_EVF.e u) then s.unitFlag u Reg.TRG_USTAT_FIRED else s
  let s := ((s.unitPulses u n d).fireGroup u d.at_).holdPins
  bif s.on (Reg.TRG_UACT_WAKE.e u) then s.wakeRequest 1 else s

/-- A forced firing without a completing product (R280): product fields of 0, element 0xFFFF. -/
def State.forcedDone (s : State) (tag : Nat) (sched : Bool) : TrigDone :=
  ⟨s.tb.acc, 0xFFFF, 0, tag, s.tq false false, 0, 0, TrigRun.reset, false, true, sched, []⟩

/-- TRIGGER_FIRE: the decision of the completed condition of unit `u`. -/
def execTriggerFire (u : Nat) (s : State) : Res :=
  .next <| match (s.unit u).comp with
    | some d => bif lt u 32 && s.runs then s.fire u d else s
    | none => s

/-- FIRED or HOLDOFF of unit `u` ends; a unit named by a commit swaps first (R291). -/
def State.firingOver (s : State) (u : Nat) : State :=
  bif s.maySwap .triggers && s.trg.left.contains u then ((s.unitBank u).firingEnds u).trgDone else s.firingEnds u

/-- The cycle of FIRED ends (R277). -/
def State.firedEnds (s : State) (u : Nat) : State :=
  bif s.get (unitState u) == 3 then
    bif s.hoff u == 0 then s.firingOver u else s.put (unitState u) 4
  else s

/-- The record of the last firing of unit `u` carries FORCED, and SCHED (R279). -/
def State.markForced (s : State) (u : Nat) (sched : Bool) : State :=
  let n := u32 (s.get (Reg.TRG_UFIRE_COUNT.e u))
  let mark (r : TrigRecord) : TrigRecord :=
    if r.unit == u && (r.body.drop 8).take 4 == n then
      let b := setFlag r.body 2 1
      { r with body := if sched then setFlag b 3 0 else b }
    else r
  { s with trg := { s.trg with held := s.trg.held.map mark, queue := s.trg.queue.map mark } }

/-- A force reaches unit `u` (R277, R279, R280): one that meets a completed condition, or comes in the cycle of a decision, marks
that firing. -/
def State.force (s : State) (u tag : Nat) (sched : Bool) : State :=
  let y := s.unit u
  bif s.get (unitState u) == 3 && y.dec == some s.now then s.markForced u sched
  else match y.comp with
    | some c => s.setUnit u { y with comp := some { c with forced := true, sched := c.sched || sched } }
    | none =>
      let s := s.firedEnds u
      s.fire u (s.forcedDone tag sched)

/-- HOLDOFF_END: the time base has reached the decision tag + HOFF. -/
def execHoldoffEnd (u : Nat) (s : State) : Res :=
  let s := s.firedEnds u
  let due := match (s.unit u).dec with
    | some d => !serialBefore 96 s.now (tagAdd d (s.hoff u : Nat))
    | none => true
  .next <| bif s.get (unitState u) == 4 && due then s.firingOver u else s

/-! ### TRG_CMD (R277 to R282) -/

/-- TRG_ARM: a unit, its whole group where it is the master; or a group. -/
def execTrgArm (unit : Nat) (group : Bool) (s : State) : Res :=
  .next <| bif !s.runs || (group && le 8 unit) || le 32 unit then s.bad .triggers
    else bif group then
      bif (s.groupBank unit).on (Reg.TRG_GCFG_EN.e unit) then s.groupArm unit true else s
    else match s.masterOf unit with
      | some g => s.groupArm g true
      | none => s.armUnit unit

/-- TRG_DISARM. -/
def execTrgDisarm (unit : Nat) (group : Bool) (s : State) : Res :=
  .next <| bif !s.runs || (group && le 8 unit) || le 32 unit then s.bad .triggers
    else (bif !group then s.disarm unit
      else bif (s.groupBank unit).on (Reg.TRG_GCFG_EN.e unit) then (s.members unit).foldl State.disarmUnit s else s).holdPins

/-- TRG_FORCE: with FTAGEN the condition tag is TRG_FTAG; one later than the time base is held pending. -/
def execTrgForce (unit : Nat) (ftagen : Bool) (s : State) : Res :=
  let tag := s.get96 Reg.TRG_FTAG_L_TAG.z Reg.TRG_FTAG_M_TAG.z Reg.TRG_FTAG_H_TAG.z
  .next <| bif !s.runs || le 32 unit then s.bad .triggers
    else bif !s.on (Reg.TRG_UCFG_EN.e unit) then s
    else bif ftagen && lt s.now tag then
      (s.setUnit unit { s.unit unit with force := some tag }).flag (Reg.TRG_USTAT_FPEND.e unit) true
    else s.force unit (if ftagen then tag else s.now) ftagen

/-- FORCE_SCHEDULED: the time base has reached the tag of the pending force. -/
def execForceScheduled (u : Nat) (s : State) : Res :=
  .next <| match (s.unit u).force with
    | none => s
    | some tag =>
      bif lt s.now tag || !s.runs then s
      else
        let s := (s.setUnit u { s.unit u with force := none }).flag (Reg.TRG_USTAT_FPEND.e u) false
        bif s.on (Reg.TRG_UCFG_EN.e u) then s.force u tag true else s

/-- PAIR_GROUP_ARM: the time base has reached the arm tag of group `g` (R282). -/
def execPairGroupArm (g : Nat) (s : State) : Res :=
  .next <| match (s.group g).pend with
    | none => s
    | some (tag, k) => bif lt s.now tag || !s.runs then s else s.armGroup g (some k)

end Sys2Proof.Machine
end

