-- ==== Sys2Proof/Machine/TimeBase.lean ====
section
/-!
DEFINITION. The commands of the time base (03_time_base.md): setting and stepping the tag, the PPS loop, the soft
discipline, and the reference monitor with its switch-over.
-/
namespace Sys2Proof.Machine

/-- TB_SET_H written by requester `r` with the two low words held in its write shadow, or object 0x1402:00 written whole
(R87). -/
def execTbSetArm (r : Requester) (whole : Bool) (value : Nat) (s : State) : Res :=
  let low := tget (fun _ => 0) s.ctl.writeShadow (shadowKey r .timeBase)
  .next (s.armSet (if whole then value else low % 2 ^ 64 + value % 2 ^ 32 * 2 ^ 64) Reg.TB_SET_H_SET.off)

/-- TB_CTRL.CANCEL (R88). -/
def execTbCancel (s : State) : Res := .next s.cancelSet

/-- The step an armed set makes at an edge with tag `edge` (R87). -/
def setDelta (m : SetMode) (v edge : Nat) : Int :=
  match m with
  | .add => sext 96 v
  | _ => (v : Int) - edge

/-- An armed set is applied (R88): AT_PPS at the accepted PPS edge that it fell due at, the others at the reference edge
whose tag is `edge`; nothing armed, or nothing due, changes nothing. -/
def execTbSetApply (edge : Nat) (s : State) : Res :=
  .next <| match s.tb.armed, s.tb.setDue with
    | some (.atPps, _), none => s
    | some (m, v), due =>
      let d := setDelta m v (due.getD edge)
      let s := s.tbSet { s.tb with armed := none, setDue := none, wasSet := true }
      (s.timeStep d).ev 28
    | none, _ => s

/-- The epoch seconds wrap to 0 and the era increments in the same step (R80). -/
def execEraIncrement (s : State) : Res :=
  let era := (s.now / 2 ^ 80 + 1) % 2 ^ 16
  let a := era * 2 ^ 80 * 2 ^ 32
  .next ((s.tbSet { s.tb with acc := a, ref := a }).ev 23)

/-! ### The PPS loop -/

/-- The PPS error of a stamp (R91), units of 2⁻⁴⁸ s, in (−0.5 s, 0.5 s]. -/
def ppsError (stamp : Nat) (delay : Int) : Int :=
  let f : Int := ((stamp : Int) - delay * 256) % 2 ^ 48
  if 2 * f > 2 ^ 48 then f - 2 ^ 48 else f

/-- `d` is 1 s ± TOL (R90), both in units of 2⁻⁴⁸ s. -/
def nearSecond (d : Int) (tol : Nat) : Bool := decide ((d - 2 ^ 48).natAbs ≤ tol)

/-- An edge at raw position `raw` is accepted (R90): unqualified, with no edge accepted in the last 0.5 s; qualified, within
TOL of the expected position, which each miss has moved on by 1 s. -/
def ppsAccepts (t : TimeBase) (raw tol : Nat) : Bool :=
  match t.ppsLast with
  | none => true
  | some l =>
    let d : Int := (raw : Int) - l
    if t.ppsQualified then nearSecond (d - 2 ^ 48 * t.ppsMisses) tol else decide ((2 ^ 47 : Int) ≤ d)

/-- The lock of the loop after an accepted edge with error `e` (R94); it is unlocked while PPS is unqualified. -/
def ppsLock (t : TimeBase) (e : Int) : TimeBase :=
  let good := if e.natAbs ≤ ns48 50 then t.goodRun + 1 else 0
  let badr := if e.natAbs > ns48 100 then t.badRun + 1 else 0
  let locked := if t.locked then decide (badr < 2) else decide (4 ≤ good)
  { t with goodRun := good, badRun := badr, locked := locked && t.ppsQualified }

/-- The loop's update of c and i (R92), in units of 2⁻⁶³: an error of 2⁻⁴⁸ s is 2¹⁵ units. -/
def ppsUpdate (t : TimeBase) (e : Int) (kp ki : Nat) (smax : Int) : TimeBase :=
  let ei := e * 2 ^ (15 - ki)
  let u := e * 2 ^ (15 - kp) + (t.integ + ei)
  if u.natAbs ≤ smax.natAbs then { t with integ := t.integ + ei, cNext := some (-u) }
  else { t with cNext := some (if u < 0 then smax else -smax) }

/-- EV021 where the lock has changed (R94). -/
def State.lockChange (s : State) (was : Bool) : State := bif s.tb.locked == was then s else s.ev 21

/-- An accepted PPS edge (R90 to R94). -/
def State.ppsAccept (s : State) (stamp raw : Nat) : State :=
  let tol := ns48 (s.get Reg.TB_PPS_TOL.z)
  let t := s.tb
  let near := match t.ppsLast with
    | some l => nearSecond ((raw : Int) - l) tol
    | none => false
  let run := if near then t.ppsRun + 1 else 1
  let qual := t.ppsQualified || decide (3 ≤ run)
  let e := ppsError stamp (s.getI Reg.TB_PPS_DELAY_DELAY.z)
  let s := s.putI Reg.TB_PPS_ERR_ERR.z (satS 32 (rnd e 8))
  let t := { t with ppsLast := some raw, ppsRun := run, ppsMisses := 0, ppsQualified := qual,
                    gateAt := if qual then some (t.gateAt.getD raw) else none }
  let due := match t.armed with
    | some (.atPps, _) => true
    | _ => false
  let loop := s.disc == 1 && qual
  let stepDue := s.disc == 1 && s.on Reg.TB_CTRL_ALLOW_STEP.z && le 3 t.largeRun
  let large := lt (ns48 (100 * s.get Reg.TB_LOOP_STEP_LIMIT.z)) e.natAbs
  let was := t.locked
  let t := if s.disc = 1 then ppsLock { t with largeRun := if large then t.largeRun + 1 else 0 } e else t
  bif due then
    let t := if loop && !stepDue then ppsUpdate t e (s.get Reg.TB_LOOP_KP.z) (s.get Reg.TB_LOOP_KI.z) s.smax else t
    (s.tbSet { t with setDue := some stamp, largeRun := if stepDue then 0 else t.largeRun }).lockChange was
  else bif stepDue then
    ((s.tbSet { t with integ := 0, largeRun := 0 }).lockChange was).timeStep (-e)
  else bif loop then
    (s.tbSet (ppsUpdate t e (s.get Reg.TB_LOOP_KP.z) (s.get Reg.TB_LOOP_KI.z) s.smax)).lockChange was
  else (s.tbSet t).lockChange was

/-- An edge at PPS_IN (R90): an edge of the other polarity is not stamped; a rejected edge is counted and raises EV020. `at_` is its
tag at the pin, which is stamped under R86 (the delay from pin to stamping point, which the spec does not give, is subtracted in
hardware), and `raw` its position in R without c, both in units of 2⁻⁴⁸ s. -/
def execPpsEdge (falling : Bool) (at_ raw : Nat) (s : State) : Res :=
  let stamp := s.quantised at_
  .next <| bif s.on Reg.TB_CTRL_PPS_POL.z == falling then
      bif ppsAccepts s.tb raw (ns48 (s.get Reg.TB_PPS_TOL.z)) then s.ppsAccept stamp raw
      else (s.count Reg.TB_PPS_SPOIL.z 1).raise 20 stamp
    else s

/-- No edge accepted by 1 s + TOL after the last one (R90): a miss, EV019; after 2 in a row PPS is unqualified and the loop
unlocked. Where no edge has ever been accepted there is nothing to miss. -/
def execPpsMiss (s : State) : Res :=
  let t := s.tb
  let was := t.locked
  let m := t.ppsMisses + 1
  let t := if 2 ≤ m then { t with ppsMisses := m, ppsQualified := false, ppsRun := 0, locked := false, goodRun := 0,
                                  badRun := 0, largeRun := 0, gateAt := none }
    else { t with ppsMisses := m }
  .next (bif s.tb.ppsLast.isSome then ((s.tbSet t).ev 19).lockChange was else s)

/-- DISC takes value `d` (R92, R94 to R96): the loop starts anew with i := 0 and the current c; under FREE c is 0. -/
def State.discTo (s : State) (d : Nat) : State :=
  bif s.disc == d then s
  else
    let was := s.tb.locked
    let s := s.put Reg.TB_CTRL_DISC.z d
    let t := { s.tb with integ := 0, locked := false, goodRun := 0, badRun := 0, largeRun := 0, softFresh := false,
                           c := if d = 0 then 0 else s.tb.c, cNext := if d = 0 then none else s.tb.cNext }
    let s := (s.tbSet t).lockChange was
    bif d == 2 then s.ev 27 else s

/-! ### Soft discipline (R95) -/

/-- A write to TB_ADJ_RATE: with DISC = SOFT, c takes the value at the next reference edge. -/
def execTbAdjRateWrite (v : Word) (s : State) : Res :=
  let s := s.put Reg.TB_ADJ_RATE_RATE.z v.toNat
  .next <| bif s.disc == 2 then
      s.tbSet { s.tb with cNext := some (sext 32 v.toNat * 2 ^ 23), softFresh := true, softLast := some s.now }
    else s

/-- No rate write for 2 s under DISC = SOFT: TQ.HOLD, c held, EV027 once. -/
def execSoftDiscStale (s : State) : Res :=
  .next <| bif s.disc == 2 && s.tb.softFresh then (s.tbSet { s.tb with softFresh := false }).ev 27 else s

/-! ### The reference monitor (R97 to R101) -/

/-- Band codes of REF_STAT. -/
def bandLoc (r : Nat) : Loc := if r = 1 then Reg.REF_STAT_BAND_B.z else Reg.REF_STAT_BAND_A.z
def qualLoc (r : Nat) : Loc := if r = 1 then Reg.REF_STAT_QUAL_B.z else Reg.REF_STAT_QUAL_A.z
def offLoc (r : Nat) : Loc := if r = 1 then Reg.REF_OFFB_Y.z else Reg.REF_OFFA_Y.z

/-- A reference's runs. -/
def monOf (t : TimeBase) (r : Nat) : RefMon := if r = 1 then t.refB else t.refA
def setMon (t : TimeBase) (r : Nat) (m : RefMon) : TimeBase := if r = 1 then { t with refB := m } else { t with refA := m }

/-- 4 |y| ≤ 3 k ppb, that is |y| ≤ 0.75 k × 10⁻⁹ with y in units of 2⁻⁴⁰. -/
def within34 (y : Int) (k : Nat) : Bool := decide (4 * y.natAbs * 1000000000 ≤ 3 * k * 2 ^ 40)

/-- |y| ≤ k × 10⁻⁹. -/
def within1 (y : Int) (k : Nat) : Bool := decide (y.natAbs * 1000000000 ≤ k * 2 ^ 40)

/-- The band and the runs after a gate end (R98, R99): 0 IN, 1 WARN, 2 OUT, 3 LOST. The gate in which the edges of a LOST
reference came back is not complete, and its end judges nothing. -/
def judgeBand (band : Nat) (m : RefMon) (y : Int) (far : Bool) (tight wide d : Nat) : Nat × RefMon :=
  if band = 3 then (3, ⟨0, 0, 0, true⟩)
  else if m.cut then (band, { m with cut := false })
  else
    let t34 := within34 y tight && !far
    let tr := if t34 then m.tightRun + 1 else 0
    let wr := if within34 y wide && !t34 && !far then m.wideRun + 1 else 0
    let out := far || !within1 y wide
    let nb :=
      if band = 0 then (if out then 2 else if within1 y tight then 0 else 1)
      else if band = 1 then (if out then 2 else if d ≤ tr then 0 else 1)
      else (if d ≤ tr then 0 else if d ≤ wr then 1 else 2)
    (nb, ⟨if nb = band then tr else 0, if nb = band then wr else 0, if nb = 0 then m.inRun + 1 else 0, false⟩)

/-- A band takes its new value; a change raises EV016 or EV017. -/
def State.setBand (s : State) (r b : Nat) : State :=
  bif s.get (bandLoc r) == b then s else ((s.put (bandLoc r) b).ev (16 + r)).tbSync

/-- Reference `r` is judged at a gate end with measured offset `y` (R97 to R99). While PPS is unqualified the active
reference is judged only against the bypass oscillator: y is 0 unless it exceeds 500 ppm, and then its band is OUT. -/
def State.judgeRef (s : State) (r : Nat) (y : Int) : State :=
  let active := s.activeRef == r
  let alone := active && !s.tb.ppsQualified
  let far := alone && !within1 y 500000
  let y := if alone && !far then 0 else y
  let (b, m) := judgeBand (s.get (bandLoc r)) (monOf s.tb r) y far (s.get Reg.REF_THR_TIGHT.z)
    (s.get Reg.REF_THR_WIDE.z) (s.get Reg.REF_CFG_DWELL.z)
  let s := s.putI (offLoc r) (satS 32 y)
  let s := { s with tb := setMon s.tb r m }
  (s.setBand r b).flag (qualLoc r) (b == 0 && (s.on (qualLoc r) || le (s.get Reg.REF_CFG_DWELL.z) m.inRun))

/-- The reference a switch-over would go to (R100, R101); none: no switch. -/
def State.switchTarget (s : State) : Option Nat :=
  let a := s.activeRef
  let o := 1 - a
  let ba := s.get (bandLoc a)
  let bo := s.get (bandLoc o)
  let qo := s.on (qualLoc o)
  let pref := s.get Reg.REF_CFG_PREF.z
  bif !s.on Reg.REF_CFG_AUTO.z || s.on Reg.CLK_STAT_PFDMIS.z then
    bif pref != a && s.get (bandLoc pref) != 3 then some pref else none
  else bif (ba == 3 || ba == 2) && (qo || bo == 1) then some o
  else bif ba == 1 && qo then some o
  else bif pref != a && s.on Reg.REF_CFG_REVERT.z && qo && le (s.get Reg.REF_CFG_REVERT_GATES.z) (monOf s.tb o).inRun then
    some o
  else none

/-- The loss rule of 20 R603 where nothing replaces an active reference that is LOST or OUT. -/
def State.lossRule (s : State) : State :=
  let ba := s.get (bandLoc s.activeRef)
  bif ba == 3 || ba == 2 then s.refCause else s

/-- Switch-over is evaluated (R100): at most once per gate. -/
def State.evalSwitch (s : State) : State :=
  match s.switchTarget with
  | some o =>
    bif s.tb.switchedThisGate then s.lossRule
    else s.tbSet { s.tb with switchTo := some o, switchedThisGate := true }
  | none => s.lossRule

/-- HOLDOVER ends once the active reference is qualified (20 R604). -/
def State.holdEnd (s : State) : State :=
  bif s.get Reg.CLK_STAT_STATE.z == 4 && s.on (qualLoc s.activeRef) then s.clkState 2 else s

/-- The length of the gate that ends now, in seconds, and the offset of the active reference in it in units of 2⁻⁴⁰ (R97). With PPS
qualified a gate runs from one accepted PPS edge to the one 2^GATE later, and none ends before it; otherwise it is timed by the
time base, and `bypass` is the offset against the bypass oscillator. -/
def State.gateOver (s : State) (bypass : Int) : Option (Nat × Int) :=
  let n := 2 ^ s.get Reg.REF_CFG_GATE.z
  bif !s.tb.ppsQualified then some (n, bypass)
  else match s.tb.gateAt, s.tb.ppsLast with
    | some a, some l =>
      let d : Int := (l : Int) - a
      let secs := (rndDiv d (2 ^ 48)).toNat
      bif lt secs n then none else some (secs, rndDiv (d - secs * 2 ^ 48) (secs * 2 ^ 8))
    | _, _ => none

/-- The offset of reference `r` whose edges numbered `count` in a gate of `secs` seconds, in units of 2⁻⁴⁰ (R97). -/
def State.edgeOffset (s : State) (r count secs : Nat) : Int :=
  let w := s.clk.refApplied.toNat
  let n := secs * frefHz (bits w (if r = 1 then 22 else 25) 3)
  rndDiv (((count : Int) - n) * 2 ^ 40) n

/-- REF_GATE_END (R97 to R100): at the end of a measurement gate both references are judged, the one that is not active by its
`count` of edges, then switch-over is evaluated; before it nothing happens. A switch decided here is the one of the gate that begins
(DESIGN CHOICE, log 61: R100 does not say to which of the two gates a gate end belongs). -/
def execRefGateEnd (count : Nat) (bypass : Int) (s : State) : Res :=
  .next <| match s.gateOver bypass with
    | none => s
    | some (secs, y) =>
      let a := s.activeRef
      let yo := s.edgeOffset (1 - a) count secs
      let s := s.tbSet { s.tb with switchedThisGate := false, gateAt := if s.tb.ppsQualified then s.tb.ppsLast else none }
      (((s.judgeRef 0 (if a = 0 then y else yo)).judgeRef 1 (if a = 0 then yo else y)).evalSwitch).holdEnd

/-- REF_STAT.PEND: a manual selection waits for a LOST reference (R101). -/
def State.manualPend (s : State) : State :=
  let pref := s.get Reg.REF_CFG_PREF.z
  s.flag Reg.REF_STAT_PEND.z (!s.on Reg.REF_CFG_AUTO.z && pref != s.activeRef && s.get (bandLoc pref) == 3)

/-- A reference with no edge for 3 nominal periods is LOST (R98); a lost active reference is replaced, or the root PLL
holds over (20 R603); the clock outputs rest when no reference is present (20 R609). -/
def execRefLost (refB : Bool) (s : State) : Res :=
  let r := b2n refB
  let s := { s with tb := { setMon s.tb r ⟨0, 0, 0, true⟩ with switchTo := s.tb.switchTo.filter (· ≠ r) } }
  let s := ((s.setBand r 3).flag (qualLoc r) false).manualPend
  let s := bif s.activeRef == r then s.evalSwitch else s
  .next <| bif s.get (bandLoc 0) == 3 && s.get (bandLoc 1) == 3 then { s with clk := { s.clk with outputs := [] } } else s

/-- The clock outputs that are enabled start under the enable rule (20 R609). -/
def State.startOutputs (s : State) : State :=
  let on := (upto 4).filter (fun k => s.on (Reg.CLK_OUT_EN.e k))
  { s with clk := { s.clk with outputs := on.map (fun k => (k, s.get (Reg.CLK_OUT_ODIV.e k) + 1)) } }

/-- The active reference changes at its next edge (R100, R101): SWCNT and EV018; HOLDOVER ends when the new reference is
qualified (20 R604); an auxiliary PLL relocks where f_REF′ changes (20 R608). -/
def execRefSwitchover (s : State) : Res :=
  .next <| match s.tb.switchTo with
    | none => s
    | some o =>
      let f := s.fref
      let s := s.tbSet { s.tb with switchTo := none, bridge := true }
      let s := ((s.put Reg.REF_STAT_ACTIVE.z o).wrap Reg.REF_STAT_SWCNT.z 1).ev 18
      let s := bif s.fref == f then s else (upto 2).foldl (fun s k =>
        bif le 2 (s.get (Reg.CLK_AUX0_STATE.e k)) then s.auxTo k 1 else s) s
      (s.holdEnd).manualPend.tbSync

/-- Edges present again on a LOST reference (R98): band OUT; a waiting manual selection completes (R101), the clock outputs
restart (20 R609). -/
def execReferenceReturn (refB : Bool) (s : State) : Res :=
  let r := b2n refB
  .next <| bif s.get (bandLoc r) == 3 then
      let s := { s with tb := setMon s.tb r ⟨0, 0, 0, true⟩ }
      let s := s.setBand r 2
      let waits := s.on Reg.REF_STAT_PEND.z && s.get Reg.REF_CFG_PREF.z == r
      let s := bif waits then s.tbSet { s.tb with switchTo := some r } else s
      s.manualPend.startOutputs
    else s

end Sys2Proof.Machine
end

