-- ==== Sys2Proof/Machine/Pair.lean ====
section
/-!
DEFINITION. The redundant pair (23_redundant_pair.md R661 to R684): cells received and sent, joining, the standby's time,
matching records to ORDER cells, loss and promotion, switchover, and triggering across engines.
-/
namespace Sys2Proof.Machine

/-- PSTATE takes value `v`; a change raises EV096 (R667). -/
def State.pstateTo (s : State) (v : Nat) : State := bif dzState s == v then s else (s.put Reg.DZ_STAT_PSTATE.z v).ev 96

/-- The role in force changes: EV097, and it is written to the keep domain (R666). -/
def State.roleTo (s : State) (v : Nat) : State :=
  bif dzRole s == v then s else ((s.put Reg.DZ_STAT_ROLE.z v).ev 97).keepWrite

/-- TLOCK; a change raises EV101 (R672). -/
def State.tlockTo (s : State) (v : Bool) : State :=
  bif s.on Reg.DZ_STAT_TLOCK.z == v then s else ((s.flag Reg.DZ_STAT_TLOCK.z v).ev 101).tbSync

/-! ### Class 2 acknowledgement (R663) -/

/-- The queued record that an ORDER cell announced (R664): its sequence number, and whether it is a VITA packet. -/
def orderedBy (content : List Byte) (q : QRec) : Bool := q.seq == leAt content 14 4 && (q.kind == 0x40) == (leAt content 3 1 == 7)

/-- Records of stream `st` that `f` names no longer wait for an acknowledgement (R675). -/
def State.letGo (s : State) (st : Nat) (f : QRec → Bool) : State :=
  let x := s.stream st
  s.setStream st { x with queue := x.queue.map (fun q => if f q then { q with acked := true } else q) }

/-- No record waits for an acknowledgement any more: nobody is left to give it (R681). -/
def State.letGoAll (s : State) : State := s.str.streams.foldl (fun s e => s.letGo e.1 (fun _ => true)) s

/-- An acknowledgement arrives: the cells it covers are done, the records of acknowledged ORDER cells may go to their
destination (R675), and waiting cells are sent. -/
def State.ackUpTo (s : State) (ack : Nat) : State :=
  let done := s.pair.unacked.filter (fun c => ackedBy ack c.seq)
  let s := { s with pair := { s.pair with unacked := s.pair.unacked.filter (fun c => !ackedBy ack c.seq) } }
  let s := (done.filter (fun c => c.type == 0x10)).foldl (fun s c => s.letGo (leAt c.content 0 2) (orderedBy c.content)) s
  s.sendWaiting s.pair.txWait.length

/-- CELL_RETRANSMIT: class 2 cell `n` was not acknowledged within 2 µs. -/
def execCellRetransmit (n : Nat) (s : State) : Res :=
  .next <| match s.pair.unacked.find? (fun c => c.seq == n) with
    | some c => bif s.linkUp then (s.emit (.cell (cellBytes c.type 2 c.seq c.content))).count Reg.DZ_RETX_COUNT.z 1 else s
    | none => s

/-- ACK. -/
def execDzAck (ok : Bool) (ack : Nat) (s : State) : Res := .next <| s.cellIn ok (fun s => s.ackUpTo ack)

/-! ### Joining (R666, R668) -/

/-- A JOIN is sent: role claimed, promotion count, live digest, ADM_GEN (R664, R668). -/
def State.sendJoin (s : State) : State :=
  s.sendReliable 0x18 (u8 (dzRole s) ++ u32 (s.get Reg.DZ_PCNT_PCNT.z) ++ u64 (s.digest64 false) ++ u32 (s.get Reg.ADM_GEN_GEN.z))

/-- The engine enters JOINING (R668): a new exchange of class 2 cells and of measurements begins, and JOIN is sent. -/
def State.joinStart (s : State) : State :=
  let p := s.pair
  let s := { s with pair := { p with heard := true, settled := false, unacked := [], txWait := [], orders := [], lastKeys := [], lockRun := 0,
                                     badRun := 0, silent := 0, firstTheta := true } }
  ((s.letGoAll.pstateTo 2).flag Reg.DZ_STAT_JOINERR.z false).sendJoin

/-- What a stream still holds is discarded as the engine yields (R683), counted, and declared once the stream emits again (DESIGN CHOICE,
log 76). -/
def State.yieldStream (s : State) (st : Nat) : State :=
  let x := s.stream st
  bif x.queue.isEmpty && x.waiting.isEmpty then s else (s.giveUp st 5 [] x.queue).waitSync st

/-- The streams of the standby enter SHADOW (R675): egress stops at once (R683). -/
def State.toShadow (s : State) : State :=
  let s := { s with pair := { s.pair with shadow := true } }
  s.str.streams.foldl (fun s e => s.yieldStream e.1) s

/-- The engine becomes the standby (R666, R668): the primary's promotion count, DISC := PAIR, SHADOW. -/
def State.beStandby (s : State) (pcnt : Nat) : State :=
  ((((s.roleTo 2).put Reg.DZ_PCNT_PCNT.z pcnt).discTo 3).tlockTo false).toShadow

/-- The primary sends EPOCH for every enabled stream and INDEX for every enabled input (R668). -/
def State.sendSeries (s : State) : State :=
  let s := (s.enabledStreams).foldl (fun s st =>
    s.sendReliable 0x12 (u16 st ++ u32 (s.get (Reg.STR_SEPOCH_EPOCH.e st)) ++ u32 (s.get (Reg.STR_SSEQ_SEQ.e st)))) s
  ((upto 128).filter (fun n => s.on (Reg.ING_LMAP_EN.e n) && (s.inp n).series)).foldl (fun s n => s.sendIndex n (s.inp n).iExp) s

/-- The claim of this engine keeps the role of primary against the partner's (R666); an engine without a role claims none, and two that
claim no PRIMARY are settled as two STANDBY claims are (DESIGN CHOICE, log 76). -/
def State.claimKeeps (s : State) (role pcnt : Nat) : Bool :=
  let own := dzRole s
  let me := s.get Reg.DZ_PCNT_PCNT.z
  let zero := s.engineNo == 0
  if own = 1 then (if role = 1 then (if me = pcnt then zero else serialBefore 32 pcnt me) else true)
  else if role = 1 then false else zero

/-- The join is complete on the standby: time lock, SHADOW, equal digests and equal modes (R668, R674). -/
def State.joinDone (s : State) : State :=
  bif dzState s == 2 && dzRole s == 2 && s.pair.settled && s.on Reg.DZ_STAT_TLOCK.z && !s.on Reg.DZ_STAT_JOINERR.z && s.linkUp
      && s.pair.pmode == s.get Reg.PWR_STAT_MODE.z then s.pstateTo 3
  else s

/-- Both engines claim PRIMARY as the link returns (R683): SPLIT and EV106. -/
def State.splitSeen (s : State) (role : Nat) : State :=
  let own := dzState s
  bif (own == 1 || own == 4) && dzRole s == 1 && role == 1 then (s.flag Reg.DZ_STAT_SPLIT.z true).ev 106 else s

/-- The roles are settled by the two claims (R666): an engine that yields stops egress at once and is the standby. -/
def State.settleRole (s : State) (role pcnt : Nat) : State := bif s.claimKeeps role pcnt then s.roleTo 1 else s.beStandby pcnt

/-- The JOIN of number `n` has been taken already. -/
def State.joinTaken (s : State) (n : Nat) : Bool :=
  s.pair.settled && (dzState s == 2 || dzState s == 3) && (n + 1) % 65536 == s.pair.rxNext

/-- JOIN: the roles are settled (R666), a split is declared (R683), and the joining steps follow (R668). Its number is where the
partner's class 2 numbering goes on. -/
def execDzJoin (ok : Bool) (n role pcnt digest gen : Nat) (serial : List Byte) (s : State) : Res :=
  .next <| s.cellIn ok (fun s =>
    bif s.joinTaken n then s.sendAck
    else
      let s := { s with pair := { s.pair with rxNext := (n + 1) % 65536 } }.sendAck
      let s := (upto 4).foldl (fun s k => s.put (Reg.DZ_PSERIAL_SERIAL.e k) (leAt serial (4 * k) 4)) s
      let s := (s.put Reg.DZ_STAT_PROLE.z role).splitSeen role
      let s := s.settleRole role pcnt
      let s := bif dzState s == 2 && !s.pair.settled then s else s.joinStart
      let s := { s with pair := { s.pair with settled := true, alone := false, switching := false, pcount := pcnt,
                                              pdigest := some digest } }
      bif dzRole s == 1 then s.sendSeries
      else bif s.digest64 false == digest then
        ((s.put Reg.ADM_GEN_GEN.z gen).put Reg.ADM_CGEN_CGEN.z gen).joinDone
      else (s.flag Reg.DZ_STAT_JOINERR.z true).ev 104)

/-- The ORDER and SENT numbers of a stream: its sequence numbers, or those of its VITA packets on an Ethernet port (log 76). -/
def orderSlot (st : Nat) (vita : Bool) : Nat := bif vita then 4096 + st else st

/-- STR_EPOCHNEXT of a standby follows its primary's (R486, 16 R520; DEDUCED, log 76). -/
def State.epochAfter (s : State) (e : Nat) : State :=
  let new_ := e / 65536 * 65536 + (e + 1) % 65536
  let old := s.get Reg.STR_EPOCHNEXT_EPOCH.z
  bif old / 65536 == e / 65536 && !serialBefore 16 (old % 65536) (new_ % 65536) then s else s.put Reg.STR_EPOCHNEXT_EPOCH.z new_

/-- DZ_EPOCH: a stream's epoch and first sequence number; orders of before are the primary's own matter. -/
def execDzEpoch (ok : Bool) (n st epoch first : Nat) (s : State) : Res :=
  .next <| s.reliableIn n ok (fun s => bif dzRole s == 2 then
      let s := ((s.put (Reg.STR_SEPOCH_EPOCH.e st) epoch).put (Reg.STR_SSEQ_SEQ.e st) first).epochAfter epoch
      let last := (first + 2 ^ 32 - 1) % 2 ^ 32
      let x := s.stream st
      let s := s.setStream st { x with first := first == 0, missing := [], shadow := x.shadow.filter (·.seq.isNone) }
      { s with pair := { s.pair with orderEnd := tinsert s.pair.orderEnd st last, sentEnd := tinsert s.pair.sentEnd st last } }
    else s)

/-- DZ_INDEX: an input's offset (R670). -/
def execDzIndex (ok : Bool) (n inp offset : Nat) (s : State) : Res :=
  .next <| s.reliableIn n ok (fun s =>
      { s with pair := { s.pair with offsets := tset (fun _ => 0) s.pair.offsets inp (offset % 2 ^ 48 + 1) } })

/-! ### Time (R671, R672) -/

/-- The difference of two 80-bit stamps. -/
def stampDiff (a b : Nat) : Int := sext 80 (toU 80 ((a : Int) - b))

/-- Time lock is lost (R672): a SYNCED pair returns to JOINING. -/
def State.lockLost (s : State) : State :=
  let s := s.tlockTo false
  bif dzState s == 3 then s.pstateTo 2 else s

/-- The standby steps its time base by `d` (R672); its own SYNC stamps not answered yet move with it. -/
def State.pairStep (s : State) (d : Int) : State :=
  let s := s.timeStep d
  { s with pair := { s.pair with syncSent := s.pair.syncSent.map (fun c => (c.1, toU 80 ((c.2 : Int) + d))) } }

/-- A measurement of θ in units of 2⁻⁴⁸ s, twice its value to keep its half (R672). -/
def State.measure (s : State) (two : Int) : State :=
  let th := rndDiv two 2
  let p := s.pair
  let exceeds (ns : Nat) : Bool := decide (2 * ns * 2 ^ 48 < two.natAbs * 1000000000)
  let good := if exceeds 1 then 0 else p.lockRun + 1
  let bad := if exceeds 5 then p.badRun + 1 else 0
  let step := p.firstTheta || exceeds (100 * s.get Reg.DZ_LOOP_STEPLIM.z)
  let s := { s with pair := { p with lockRun := good, badRun := bad, silent := 0, firstTheta := false } }
  let s := bif step then s.pairStep (-th)
    else s.tbSet (ppsUpdate s.tb th (s.get Reg.DZ_LOOP_KP.z) (s.get Reg.DZ_LOOP_KI.z) s.smax)
  bif le 16 good then (s.tlockTo true).joinDone
  else bif le 4 bad && s.on Reg.DZ_STAT_TLOCK.z then s.lockLost
  else s

/-- SYNC: its transmit stamp `t1`, the identifier of this engine's last SYNC that the partner had and its receive stamp, received
at `at_`, which is stamped under 03 R86 (R671). -/
def execDzSync (ok : Bool) (id t1 pid pt at_ : Nat) (s : State) : Res :=
  .next <| s.cellIn ok (fun s =>
      let stamp := s.quantised at_ % 2 ^ 80
      let s := { s with pair := { s.pair with syncIn := some (id, t1, stamp) } }
      match s.pair.syncSent.find? (fun c => c.1 == pid) with
      | some (_, t3) =>
        bif dzRole s == 2 && s.disc == 3 && (dzState s == 2 || dzState s == 3) then
          let a := stampDiff stamp t1
          let b := stampDiff pt t3
          let two := (a - b) - 2 * s.getI Reg.DZ_ASYM_ASYM.z * 2 ^ 8
          let s := s.putI Reg.DZ_OFFSET_THETA.z (satS 32 (rnd two 9))
          let s := s.put Reg.DZ_DELAY_DELAY.z (satU 32 (rnd (a + b) 9)).toNat
          s.measure two
        else s
      | none => s)

/-- A SYNC goes out with the transmit stamp `stamp` (R664, R671). -/
def State.sendSync (s : State) (stamp : Nat) : State :=
  let back := s.pair.syncIn.getD (0, 0, 0)
  { s with pair := { s.pair with syncSent := (s.pair.msgId, stamp) :: s.pair.syncSent.take 15 } }.sendCell 0x02 1
    (leBytes 10 stamp ++ u16 back.1 ++ leBytes 10 back.2.2)

/-- One more SYNC interval without a measurement (R672). -/
def State.syncSilent (s : State) : State := { s with pair := { s.pair with silent := s.pair.silent + 1 } }

/-- SYNC_SEND: this engine's SYNC, sent at `at_`; 16 intervals without a measurement lose the time lock, whether or not the link is UP
(R671, R672). -/
def execSyncSend (at_ : Nat) (s : State) : Res :=
  .next <| bif !s.inPair then s
    else
      let s := s.syncSilent
      let s := bif s.linkUp then s.sendSync (s.quantised at_ % 2 ^ 80) else s
      bif le 16 s.pair.silent && s.on Reg.DZ_STAT_TLOCK.z then s.lockLost else s

/-! ### Records of a standby (R675 to R678) -/

/-- Records that an ORDER of key `k` has passed: their producer's later record has been ordered (R676). -/
def State.dropPassed (s : State) (k : Nat) : State :=
  s.str.streams.foldl (fun s e =>
    let x := s.stream e.1
    s.setStream e.1 { x with shadow := x.shadow.filter (fun q => !(q.seq.isNone && keyLater k q.key)) }) s

/-- The shadow record that an ORDER of key `k` names. -/
def State.shadowOf (s : State) (st k : Nat) : Option ShadowRec :=
  bif lt k (2 ^ 72) then none else (s.stream st).shadow.find? (fun r => r.key == k && r.seq.isNone && r.held)

/-- ORDER: the primary's record of key `key` took sequence number `oseq`; the standby's record of that key, made or to come, takes
it too, and its records that the order has passed are discarded, as the primary discarded and declared them (R676, R677). -/
def execDzOrder (ok : Bool) (n stream : Nat) (first : Bool) (key oseq dg : Nat) (s : State) : Res :=
  .next <| s.reliableIn n ok (fun s =>
      let p := s.pair
      let slot := orderSlot stream (key / 2 ^ 72 == 7 && s.vitaPort stream)
      let keys := bif lt key (2 ^ 72) then p.lastKeys
        else (keyProducer key, key) :: p.lastKeys.filter (fun c => c.1 != keyProducer key)
      let s := { s with pair := { p with orderEnd := tinsert p.orderEnd slot oseq, lastKeys := keys } }
      let s := s.dropPassed key
      let x := s.stream stream
      match s.shadowOf stream key with
      | some r =>
        let s := s.setStream stream { x with shadow := x.shadow.map (fun q => if q = r then { q with seq := some oseq, first := first } else q) }
        s.compareDigest r first stream dg
      | none =>
        let s := s.setStream stream { x with shadow := x.shadow.filter (fun q => !(q.seq.isNone && q.key == key)) }
        { s with pair := { s.pair with orders := s.pair.orders ++ [⟨stream, first, key, oseq, dg⟩] } })

/-- Sequence number `q` is covered by the last SENT `sent` of its stream. -/
def sentCovers (sent q : Nat) : Bool := q == sent || serialBefore 32 q sent

/-- The last SENT of a stream, and the number of its last ORDER. -/
def State.sentLast (s : State) (st : Nat) (vita : Bool) : Nat := tget (fun _ => 2 ^ 32 - 1) s.pair.sentEnd (orderSlot st vita)
def State.orderLast (s : State) (st : Nat) (vita : Bool) : Nat := tget (fun _ => 2 ^ 32 - 1) s.pair.orderEnd (orderSlot st vita)

/-- ORDER_MISS: 100 µs after ORDER `oseq` of stream `st` the standby has not made its record (R676). A number that the destination has
taken meanwhile is not missing (DEDUCED, log 76). -/
def execOrderMiss (st oseq : Nat) (s : State) : Res :=
  .next <| match s.pair.orders.find? (fun o => o.stream == st && o.seq == oseq) with
    | none => s
    | some o =>
      let s := { s with pair := { s.pair with orders := s.pair.orders.filter (· ≠ o) } }
      let x := s.stream st
      let add := if sentCovers (s.sentLast st (o.key / 2 ^ 72 == 7 && s.vitaPort st)) oseq then [] else [(oseq, s.now)]
      ((s.setStream st { x with missing := x.missing ++ add }).count Reg.DZ_ORDMISS_COUNT.z 1).ev 103

/-- SENT: shadow records up to the named sequence number are freed (R678). -/
def execDzSent (ok : Bool) (n st oseq : Nat) (s : State) : Res :=
  .next <| s.reliableIn n ok (fun s =>
      let x := s.stream st
      let vita := s.vitaPort st
      let s := s.setStream st { x with shadow := x.shadow.filter (fun r => !((r.seq.map (sentCovers oseq)).getD false)),
                                       missing := x.missing.filter (fun q => !(vita || sentCovers oseq q.1)) }
      { s with pair := { s.pair with sentEnd := tinsert s.pair.sentEnd (orderSlot st vita) oseq } })

/-- SENT_SEND: the primary reports what the destinations have taken (R675). -/
def execSentSend (s : State) : Res :=
  .next <| bif s.ordering then
      s.str.streams.foldl (fun s e =>
        let st := e.1
        let x := s.stream st
        bif x.emitted then (s.setStream st { x with emitted := false }).sendReliable 0x11 (u16 st ++ u32 x.sent) else s) s
    else s

/-- DZ_STEP: the standby applies a ladder step at the order instant (R675). -/
def execDzStep (ok : Bool) (n st step : Nat) (s : State) : Res :=
  .next <| s.reliableIn n ok (fun s => bif dzRole s == 2 then (s.put (Reg.REC_LSTAT_STEP.e st) step).orderStep st step else s)

/-! ### Commits, modes and wakes (R673, R674) -/

/-- CREQ: on the standby the check of the primary's operation; on the primary a request written on the standby, which runs as if written
there, with the instant it came with. -/
def execDzCreq (ok : Bool) (n : Nat) (commit asap : Bool) (instant gen digest : Nat) (s : State) : Res :=
  .next <| s.reliableIn n ok (fun s =>
      bif dzRole s == 1 then s.admRequest ⟨commit, asap, some instant⟩
      else ({ s with pair := { s.pair with creq := some (gen, instant, digest) } }).admRequest ⟨commit, asap, none⟩)

/-- CRESP: the standby's answer. -/
def execDzCresp (ok : Bool) (n code _need _avail : Nat) (s : State) : Res :=
  .next <| s.reliableIn n ok (fun s => s.partnerAnswer code)

/-- CRESP_TIMEOUT: no CRESP within 10 ms. -/
def execCrespTimeout (s : State) : Res := .next (s.partnerAnswer 0xFE)

/-- DZ_MODE: the standby applies the primary's power command. -/
def execDzMode (ok : Bool) (n op : Nat) (s : State) : Res :=
  .next <| s.reliableIn n ok (fun s => bif dzRole s == 2 then s.powerCmd op else s)

/-- DZ_WAKE: a wake request with source partner. -/
def execDzWake (ok : Bool) (id _src : Nat) (s : State) : Res :=
  .next <| s.onceIn id ok (fun s => s.wakeRequest 3)

/-! ### Loss and promotion (R680, R681) -/

/-- Records of the shadow queue in the order in which the new primary emits them: by sequence number from the last SENT on, then
those that no ORDER named. -/
def insertBySeq (base : Nat) (r : ShadowRec) : List ShadowRec → List ShadowRec
  | [] => [r]
  | q :: qs =>
    let off (x : ShadowRec) : Nat := (x.seq.getD 0 + 2 ^ 32 - base) % 2 ^ 32
    if off q ≤ off r then q :: insertBySeq base r qs else r :: q :: qs

/-- The sequence numbers that a stream which leaves SHADOW cannot emit, with the tags at which that was known: marked missing, ordered and
not made yet, or no longer held (R681). -/
def State.missingNow (s : State) (st : Nat) (ordered : List ShadowRec) : List (Nat × Nat) :=
  let vita := s.vitaPort st
  let late := s.pair.orders.filter (fun o =>
    o.stream == st && !sentCovers (s.sentLast st (o.key / 2 ^ 72 == 7 && vita)) o.seq)
  (s.stream st).missing ++ late.map (fun o => (o.seq, s.now)) ++ (ordered.filter (! ·.held)).map (fun r => (r.seq.getD 0, s.now))

/-- Records that the shadow queue no longer holds and no ORDER named are discarded and counted, cause FAILOVER. -/
def State.tallyLost (s : State) (st : Nat) (l : List ShadowRec) : State :=
  (l.filter (! ·.held)).foldl (fun s r => s.tally st 5 (s.recordLen st r.body) false) s

/-- The numbers of a stream go on after the last ORDER (R681). -/
def State.numberOn (s : State) (st : Nat) : State :=
  let next (vita : Bool) : Nat := (s.orderLast st vita + 1) % 2 ^ 32
  let x := s.stream st
  (s.setStream st { x with first := next false == 0 && x.first, packets := if s.vitaPort st then next true else x.packets }).put
    (Reg.STR_SSEQ_SEQ.e st) (next false)

/-- The LOSS record of cause FAILOVER (R494, R681): how many numbers are missing, and the first. -/
def State.failoverLoss (s : State) (st : Nat) (missing : List (Nat × Nat)) : State :=
  match missing with
  | [] => s
  | q :: rest =>
    s.enterFirst st ⟨4, 3, st, s.lossBody st ⟨5, rest.length + 1, 0, 0, some q.2, (rest.getLast?.getD q).2⟩ q.1⟩

/-- A stream leaves SHADOW (R681): the ordered records not taken keep their numbers, epoch and generation; further ones go on after the
last ORDER, the first a LOSS record of cause FAILOVER where numbers are missing. `fresh`: the pair was not SYNCED and the stream has
a new epoch. -/
def State.leaveShadow (fresh : Bool) (s : State) (st : Nat) : State :=
  let x := s.stream st
  let sent := s.sentLast st (s.vitaPort st)
  let ordered := (x.shadow.filter (·.seq.isSome)).foldl (fun l r => insertBySeq sent r l) []
  let rest := x.shadow.filter (·.seq.isNone)
  let missing := s.missingNow st ordered
  let s := s.setStream st { x with shadow := [], missing := [], sent := sent }
  bif fresh then
    let s := (s.streamStart st).tallyLost st (ordered ++ rest)
    ((ordered ++ rest).filter (·.held)).foldl (fun s r => s.reach st r.body) s
  else
    let s := (ordered.filter (·.held)).foldl (fun s r => s.enterAt st r.body (r.seq.getD 0) r.gen r.first false) s
    let s := ((s.numberOn st).failoverLoss st missing).tallyLost st rest
    (rest.filter (·.held)).foldl (fun s r => s.reach st r.body) s

/-- The streams that leave SHADOW: all that are not OFF. -/
def State.shadowStreams (s : State) : List Nat :=
  (s.str.streams.map (·.1) ++ s.enabledStreams).eraseDups.filter (fun st => s.get (strState st) != 0)

/-- Promotion (R681). -/
def State.becomePrimary (s : State) (fresh : Bool) : State :=
  let s := (s.roleTo 1).wrap Reg.DZ_PCNT_PCNT.z 1
  let s := (s.tlockTo false).discTo (s.dzCfg Reg.DZ_CFG_PDISC)
  let s := { s with pair := { s.pair with shadow := false, switching := false } }
  let s := (s.shadowStreams).foldl (State.leaveShadow fresh) s
  let s := { s with pair := { s.pair with orders := [], lastKeys := [] } }
  bif s.dzOn Reg.DZ_CFG_DSKTAKE then s.via execDiskAttach else s

/-- The partner is declared lost (R680, R681): EV098; a standby with AUTOPROM promotes itself; a primary stops waiting for
acknowledgements. -/
def State.partnerLost (s : State) : State :=
  bif s.inPair && (dzState s == 2 || dzState s == 3) then
    let was := dzState s
    let s := ((s.pstateTo 4).flag Reg.DZ_STAT_WITNESS.z false).ev 98
    let s := { s with pair := { s.pair with alone := true, heard := false, settled := false } }
    let s := s.partnerAnswer 0xFE
    bif dzRole s == 2 then (bif s.dzOn Reg.DZ_CFG_AUTOPROM then s.becomePrimary (was != 3) else s) else s.letGoAll
  else s

/-- PARTNER_LOST: no valid cell for MISS × INT µs; `witness`: the partner's witness pin has shown an edge meanwhile. -/
def execPartnerLost (witness : Bool) (s : State) : Res :=
  .next <| bif s.inPair && (dzState s == 2 || dzState s == 3) then
      bif s.dzOn Reg.DZ_CFG_WEN && witness then
        bif s.on Reg.DZ_STAT_WITNESS.z then s else ((s.pstateTo 2).flag Reg.DZ_STAT_WITNESS.z true).ev 107
      else s.partnerLost
    else s

/-- DZ_LEAVE_CELL. -/
def execDzLeaveCell (ok : Bool) (n : Nat) (s : State) : Res :=
  .next <| s.reliableIn n ok State.partnerLost

/-- The link has returned (R667, R683): a split is declared, the engine that loses yields at once, and joining begins. -/
def State.linkReturns (s : State) (role pcnt : Nat) : State :=
  let split := dzRole s == 1 && role == 1
  let s := s.splitSeen role
  let s := bif split && !s.claimKeeps role pcnt then s.beStandby pcnt else s
  s.joinStart

/-- HEARTBEAT: role, pair state, power mode, promotion count, ADM_GEN and acknowledgement; `forced`: SAFE or a forced Sleep. -/
def execDzHeartbeat (ok : Bool) (role pstate mode pcnt _gen ack : Nat) (forced : Bool) (s : State) : Res :=
  .next <| s.cellIn ok (fun s =>
      let s := (s.put Reg.DZ_STAT_PROLE.z role).flag Reg.DZ_STAT_WITNESS.z false
      let s := { s with pair := { s.pair with pmode := mode, pcount := pcnt } }
      bif forced then s.partnerLost
      else
        let s := s.ackUpTo ack
        let own := dzState s
        bif own == 1 || own == 4 then s.linkReturns role pcnt
        else bif own == 3 then
          bif dzRole s == 2 && mode != s.get Reg.PWR_STAT_MODE.z then s.pstateTo 2
          else bif dzRole s == 1 && pstate != 3 then s.pstateTo 2 else s
        else bif dzRole s == 1 then (bif s.pair.settled && pstate == 3 then s.pstateTo 3 else s)
        else s.joinDone)

/-- The engine is in SAFE, or in a Sleep that a cause has forced, or enters one (R680, 21 R619). -/
def State.sleepForced (s : State) : Bool :=
  let sleeping := s.get Reg.PWR_STAT_MODE.z == 2 || (match s.pwr.trans with
    | some t => t.target == 2
    | none => false)
  s.on Reg.SEC_STAT_SAFE.z || (sleeping && s.get Reg.PWR_STAT_CAUSE.z != 0)

/-- HEARTBEAT_SEND. -/
def execHeartbeatSend (s : State) : Res :=
  .next <| bif s.inPair then
      s.sendCell 0x01 1 (u8 (dzRole s) ++ u8 (dzState s) ++ u8 (s.get Reg.PWR_STAT_MODE.z) ++ u8 (b2n s.sleepForced)
        ++ u32 (s.get Reg.DZ_PCNT_PCNT.z) ++ u32 (s.get Reg.ADM_GEN_GEN.z) ++ u16 s.ackNow)
    else s

/-! ### Switchover, leaving and the link (R665, R668, R682) -/

/-- DZ_SWITCH: the primary of a SYNCED pair stops admitting records and sends SWITCH begin. -/
def execDzSwitch (s : State) : Res :=
  .next <| bif s.syncedPrimary && !s.pair.switching then
      { s with pair := { s.pair with switching := true } }.sendReliable 0x19 (u8 1)
    else s

/-- A stream hands over (R682): its destination has taken what the final SENT says, and the standby emits the rest. Records that wait to
enter are discarded, as own records of a standby are (R678). -/
def State.handOver (s : State) (st : Nat) : State :=
  let x := s.stream st
  let part := x.queue.any (fun q => q.dest == 2 && lt 0 q.taken)
  let s := (s.setStream st { x with waiting := [], emitted := false, disk := x.disk.map (fun p => { p with cut := p.cut || part }) }).setQueue
    st []
  let s := x.waiting.foldl (fun s r => (s.count Reg.DZ_SHDROP_COUNT.z 1).trgTaken st r) s
  let s := (s.waitSync st).sendReliable 0x11 (u16 st ++ u32 x.sent)
  let slot := orderSlot st (s.vitaPort st)
  { s with pair := { s.pair with sentEnd := tinsert s.pair.sentEnd slot x.sent, orderEnd := tinsert s.pair.orderEnd slot x.sent } }

/-- SWITCH_FINAL: the queues are empty or 10 ms have passed: the final SENT of every stream, SWITCH final, and the former primary
is the standby, JOINING until its time lock holds (R668). -/
def execSwitchFinal (s : State) : Res :=
  .next <| bif s.ordering && s.pair.switching then
      let s := s.shadowStreams.foldl State.handOver s
      let s := s.sendReliable 0x19 (u8 2)
      let s := { s with pair := { s.pair with switching := false, firstTheta := false, lockRun := 0, badRun := 0, silent := 0 } }
      (((s.beStandby ((s.get Reg.DZ_PCNT_PCNT.z + 1) % 2 ^ 32)).put Reg.DZ_STAT_PROLE.z 1).pstateTo 2).ev 105
    else s

/-- DZ_SWITCH_CELL: phase 1, begin; phase 2, final: the standby promotes from the final SENT. -/
def execDzSwitchCell (ok : Bool) (n phase : Nat) (s : State) : Res :=
  .next <| s.reliableIn n ok (fun s =>
      bif dzRole s != 2 || !s.pair.settled then s
      else bif phase == 1 then { s with pair := { s.pair with switching := true } }
      else bif phase == 2 then ((s.becomePrimary false).put Reg.DZ_STAT_PROLE.z 2).ev 105 else s)

/-- DZ_LEAVE: the engine leaves the pair; its records wait for nobody. -/
def execDzLeave (s : State) : Res :=
  .next <| bif s.inPair then
      let s := s.sendReliable 0x1A []
      let s := { s with pair := { s.pair with left := true, heard := false, settled := false, alone := true } }
      ((s.letGoAll.tlockTo false).flag Reg.DZ_STAT_JOINERR.z false).pstateTo 1
    else s

/-- The streams of an engine that is in no pair any more leave SHADOW under new epochs (R681, R486). -/
def State.shadowEnd (s : State) : State :=
  bif s.pair.shadow then
    let s := { s with pair := { s.pair with shadow := false, switching := false } }
    s.shadowStreams.foldl (State.leaveShadow true) s
  else s

/-- DZ_CFG comes into force (R685): membership, the witness's pin, and the role of an engine that has none. -/
def State.pairConfig (s : State) : State :=
  let s := { s with pair := { s.pair with cfg := s.word Reg.DZ_CFG_EN.off, left := false, heard := false, settled := false } }
  let s := ((s.letGoAll.waveSync).flag Reg.DZ_STAT_JOINERR.z false).flag Reg.DZ_STAT_WITNESS.z false
  bif s.paired then (bif dzRole s == 0 then s.roleTo (s.dzCfg Reg.DZ_CFG_ROLE) else s).pstateTo 1
  else (s.shadowEnd.tlockTo false).pstateTo 0

/-- REJOIN. -/
def execRejoin (s : State) : Res := .next s.pairConfig

/-- A Dziast lane adapts (R118): one that holds no stored equalisation runs a full adaptation, and so does one that is commanded to adapt
again before it has reached lock, 200 µs after signal detection; a full adaptation is counted once it is done. -/
def State.laneAdapt (s : State) (lane old st : Nat) : State :=
  let p := s.pair
  let full := !p.trained.contains lane || (st == 2 && (old == 2 || old == 3))
  let rest := p.full.filter (· ≠ lane)
  bif st == 2 then { s with pair := { p with full := bif full then lane :: rest else rest } }
  else bif old == 2 && lt 2 st && p.full.contains lane then
    { s with pair := { p with full := rest, trained := lane :: p.trained.filter (· ≠ lane) } }.count (Reg.DZ_LSTAT_ADAPTCNT.e lane) 1
  else s

/-- The link goes down in JOINING (R667): SEEKING, unless a loss is withheld (R680). -/
def State.linkGone (s : State) : State :=
  bif !s.linkUp && dzState s == 2 && !s.on Reg.DZ_STAT_WITNESS.z then
    { s with pair := { s.pair with heard := false, settled := false } }.letGoAll.pstateTo 1
  else s

/-- DZ_LINK_STATE: lane `lane` (0 to 3 transmit, 4 to 7 receive) takes state `st` of 04 R138, while the link runs; the link becomes UP,
DEGRADED or down, and class 2 cells that waited for it are sent. -/
def execDzLinkState (lane st : Nat) (s : State) : Res :=
  let old := s.get (Reg.DZ_LSTAT_STATE.e lane)
  .next <| bif le 8 lane || st == 0 || le 5 st || !s.linkRuns then s
    else
      let s := s.laneAdapt lane old st
      bif old == st then s
      else
        let s := (s.put (Reg.DZ_LSTAT_STATE.e lane) st).ev 100
        let s := bif st == 1 && lt 1 old then s.count (Reg.DZ_LSTAT_LOSCNT.e lane) 1 else s
        let s := s.linkSync.linkGone
        s.sendWaiting s.pair.txWait.length

/-! ### Triggering across engines (R282, R283, R684) -/

/-- Bytes 16 to 37 of a trigger record replaced by those of FIREB. -/
def patchFire (b body : List Byte) : List Byte := (b ++ zeros 22).take 22 ++ body.drop 22

/-- FIREA: a product for each PAIR unit that watches the partner's unit `u`. -/
def execDzFireA (ok : Bool) (id u firing tag tq _elem : Nat) (s : State) : Res :=
  .next <| s.onceIn id ok (fun s =>
      let s := { s with pair := { s.pair with fires := s.pair.fires.filter (fun f => f.id != id) ++ [⟨id, u, firing, tag⟩] } }
      (upto 32).foldl (fun s v =>
        bif s.on (Reg.TRG_UCFG_EN.e v) && s.get (Reg.TRG_UCFG_SRC.e v) == 0xB && s.get (Reg.TRG_UELEM_ELEM.e v) == u && s.runs then
          let y := s.unit v
          s.setUnit v { y with queue := y.queue ++ [⟨firing, tag, tq, zeros 22 ++ u16 tq ++ u96 tag⟩] }
        else s) s)

/-- FIREB: the record fields of the firing whose FIREA came with the identifier before; a record held for them is released. -/
def execDzFireB (ok : Bool) (id : Nat) (body : List Byte) (s : State) : Res :=
  .next <| s.onceIn id ok (fun s =>
      match s.pair.fires.find? (fun f => (f.id + 1) % 65536 == id) with
      | none => s
      | some f =>
        let s := { s with pair := { s.pair with fires := s.pair.fires.filter (· ≠ f) } }
        let s := (upto 32).foldl (fun s v =>
          bif s.get (Reg.TRG_UCFG_SRC.e v) == 0xB && s.get (Reg.TRG_UELEM_ELEM.e v) == f.unit then
            let y := s.unit v
            let y := { y with queue := y.queue.map (fun (p : TrigPulse) =>
              if p.idx = f.firing ∧ p.tag = f.tag then { p with body := patchFire body p.body } else p) }
            s.setUnit v { y with comp := y.comp.map (fun (d : TrigDone) =>
              if d.tag = f.tag ∧ d.body ≠ [] then { d with body := patchFire body d.body } else d) }
          else s) s
        let mine (r : TrigRecord) : Bool :=
          s.get (Reg.TRG_UCFG_SRC.e r.unit) == 0xB && leAt r.body 7 1 == 1 && leAt r.body 40 12 == f.tag
        let out := s.trg.held.filter mine
        let s := { s with trg := { s.trg with held := s.trg.held.filter (fun r => !mine r) } }
        out.foldl (fun s r => s.queueRecord { r with body := r.body.take 16 ++ (body ++ zeros 22).take 22 ++ r.body.drop 38 }) s)

/-- DZ_ARM: a pair group is to arm at its arm tag; one that comes late arms it at once and sets LATEARM. On the primary it is a
command arm forwarded by the partner (R282). -/
def execDzArm (ok : Bool) (id g num tag : Nat) (s : State) : Res :=
  .next <| s.onceIn id ok (fun s =>
      bif le 8 g || !s.runs then s
      else bif dzRole s == 1 then s.groupArm g true
      else bif lt s.now tag then s.setGroup g { s.group g with pend := some (tag, num) }
      else (s.members g).foldl (fun s u => s.unitFlag u Reg.TRG_USTAT_LATEARM) (s.armGroup g (some num)))

/-- A record of group `g` under arm number `num` carries RACE. -/
def raceMark (g num : Nat) (r : TrigRecord) : TrigRecord :=
  if leAt r.body 6 1 = g ∧ leAt r.body 12 4 = num then { r with body := setFlag r.body 2 3 } else r

/-- DZ_RELEASE: the members of a FIRST group are released; where one has fired already, both firings stand and carry RACE
(R283). -/
def execDzRelease (ok : Bool) (id g num : Nat) (s : State) : Res :=
  .next <| s.onceIn id ok (fun s =>
      bif le 8 g || (s.group g).arm != num then s
      else bif (s.group g).fired then
        let marked := ((s.trg.held ++ s.trg.queue).filter (fun r => decide (raceMark g num r ≠ r))).map (·.unit)
        let s := { s with trg := { s.trg with held := s.trg.held.map (raceMark g num), queue := s.trg.queue.map (raceMark g num) } }
        ((s.members g).filter (fun u => le 3 (s.get (unitState u)) || marked.contains u)).foldl (fun s u =>
          s.unitFlag u Reg.TRG_USTAT_RACE) s
      else (s.setGroup g { s.group g with fired := true }).releaseGroup g [])

end Sys2Proof.Machine
end

