-- ==== Sys2Proof/Machine/Access.lean ====
section
/-!
DEFINITION. A read and a write of any register word (02_control_access.md R62 to R72): the view, the access codes, the held words
of a 64-bit or 96-bit field, and what each block's chapter adds to a write of its registers. A register whose write is a
command of its own gives that command here.
-/
namespace Sys2Proof.Machine

/-- The state after a command that ran on `s`. -/
def State.did (s : State) (f : State → Res) : State :=
  match f s with
  | .next t => t
  | .fault _ => s
  | .refused _ => s

/-- The element of field `f` that live offset `o` lies in, by dimension. -/
def Fld.at1 (f : Fld) (o : Nat) : Nat := (elemIdx f.dims (o - f.off)).getD 0 0
def Fld.at2 (f : Fld) (o : Nat) : Nat := (elemIdx f.dims (o - f.off)).getD 1 0
def Fld.at3 (f : Fld) (o : Nat) : Nat := (elemIdx f.dims (o - f.off)).getD 2 0

/-- `s` with the bits of `m` of the word at `o` taken from `v`. -/
def State.setMasked (s : State) (o m v : Nat) : State :=
  s.setWord o (BitVec.ofNat 32 (((s.word o).toNat &&& (0xFFFFFFFF ^^^ m)) ||| (v &&& m)))

/-! ### Which register an offset names (R62, R64, R65, R641) -/

/-- A word of the block's header (R65). -/
def inHeader (b : Blk) (o : Nat) : Bool := le b.hdr o && lt o (b.hdr + 0x18) && o % 4 == 0

/-- The offset names a register of its block. The first 32 bytes of a staged view are reserved (R64). -/
def isReg (b : Blk) (o : Nat) : Bool := inHeader b o || !(fieldsAt b o).isEmpty

/-- The start sequence has reached S12 (22 R641). -/
def State.booted (s : State) : Bool := s.sec.step.isNone && !s.on Reg.SEC_STAT_SAFE.z

/-- The block that answers at offset `o`: before S12 only the identity, events and security windows do (22 R641). -/
def State.window (s : State) (o : Nat) : Option Blk :=
  match blkAt o with
  | none => none
  | some b => if s.booted || decide (b = .ident) || decide (b = .events) || decide (b = .security) then some b else none

/-- A tile's number from a live offset inside its block (12 R406). -/
def tileAt (o : Nat) : Option Nat :=
  let w := o % 0x100000 / 0x10000
  if 0x3000000 ≤ o ∧ o < 0x3800000 ∧ 1 ≤ w ∧ w ≤ 8 then some ((o - 0x3000000) / 0x100000 * 8 + w - 1) else none

/-! ### Reads -/

/-- The bits of a word that a read returns: a WO field reads 0 (R66). -/
def readMask (b : Blk) (o : Nat) : Nat :=
  if inHeader b o then 0xFFFFFFFF
  else (b.fields.filter (fun f => f.covers o && !decide (f.acc = .wo))).foldl (fun m f => m ||| ((2 ^ f.w - 1) * 2 ^ f.lo)) 0

/-- The bits of the word at offset `o` that a fine palette slot has: [17:0] alone in one that its view's KIND makes a window (06 R204). -/
def State.slotMask (s : State) (b : Blk) (o : Nat) : Nat :=
  let l := liveOff b o
  if b = .fine ∧ Reg.FCH_PAL_WORD.covers l then
    let k := Reg.FCH_PALHDR_KIND.e (Reg.FCH_PAL_WORD.at1 l)
    if s.get (if inStaged b o then k.staged .fine else k) = 1 then 0x3FFFF else 0xFFFFFFFF
  else 0xFFFFFFFF

/-- The word at offset `o` in its view (R64): RWD fields from the view's bank, all others alike in both. -/
def State.viewWord (s : State) (b : Blk) (o : Nat) : Nat :=
  let l := liveOff b o
  let live := (s.word l).toNat &&& readMask b l
  (if inStaged b o then (live &&& (0xFFFFFFFF ^^^ bankMask b l)) ||| ((s.word o).toNat &&& bankMask b l) else live)
    &&& s.slotMask b o

/-- The registers whose value follows from other state, brought up to date before a read: the time base, the summary words of
the events (R74), BLK_STATUS.LOCKED, TIP.LINES, DMA_STAT.ATTN, and LOCK_STAT.LAST of requester `r` (12 R406). -/
def State.sense (s : State) (r : Requester) (b : Blk) (l : Nat) : State :=
  if l = b.hdr + 4 then s.put ⟨l, 0, 1⟩ (s.get b.lock)
  else match b with
    | .timeBase =>
      if l = Reg.TB_NOW_L_TAG.off then s.put96 Reg.TB_NOW_L_TAG.z Reg.TB_NOW_M_TAG.z Reg.TB_NOW_H_TAG.z s.now else s.tbSync
    | .events =>
      if Reg.EVT_PEND_PEND.covers l then
        let k := Reg.EVT_PEND_PEND.at1 l
        s.setWord l (BitVec.ofNat 32 (sumOf ((upto 32).map (fun j => s.get (evPend (32 * k + j)) * 2 ^ j))))
      else s
    | .gallery g =>
      if Reg.LOCK_STAT_STATE.covers l then
        let n := Reg.LOCK_STAT_STATE.at1 l
        s.put (Reg.LOCK_STAT_LAST.e n) (tget (fun _ => 0) s.tls.lockLast (lockRequester r * 256 + n))
      else if Reg.DMA_STAT_ATTN.covers l then s.dmaAttn g.val
      else s
    | _ => s

/-- A read of word `l` of the block of tile `t`. -/
def State.tileRead (s : State) (r : Requester) (b : Blk) (t l : Nat) : State × Word :=
  let o := l % 0x10000
  bif s.fenced t && o != 4 then (s, 0)
  else bif o == 0x28 then s.mdata t none
  else bif o == 0x44 then (s, BitVec.ofNat 32 (s.tip t))
  else bif o == 0x20 then
    (s, (s.tile t).syllable (bif s.on (Reg.TILE_PPTR_LIVE.t t) then s.liveBank t else 1 - s.liveBank t) (s.get (Reg.TILE_PPTR_PTR.t t)))
  else
    let p := s.plainRead (shadowKey r b) b l
    (p.1, BitVec.ofNat 32 (p.2.toNat &&& readMask b l))

/-- The port to gallery SRAM as a read finds it (14 R453). -/
def State.gsRead (s : State) (g : Nat) : State × Word :=
  let w := s.get (Reg.DMA_GSPTR_WADDR.e g)
  bif s.galOk g (4 * w) 4 then
    (s.put (Reg.DMA_GSPTR_WADDR.e g) (w + 1), BitVec.ofNat 32 (leNat (s.peekAll (galAddr g (4 * w)) 4)))
  else (s.bad (.gallery (Fin.ofNat 8 g)), 0)

/-- The fields of the keep domain: their registers are read as RC from CK_KEEP (21 R638, 22 R660). -/
def keepFields : List Fld :=
  [Reg.PWR_SCRATCH_DATA, Reg.PWR_CFG_BOOTMODE, Reg.SEC_RSTCAUSE_MODE, Reg.SEC_RSTCAUSE_CAUSE, Reg.SEC_TRGLOST_COUNT,
   Reg.SEC_CTRL_MAXTRY, Reg.SEC_STEP_ATTEMPTS, Reg.SEC_STEP_LASTFAIL, Reg.SEC_STEP_POLICY, Reg.SEC_STEP_LASTPOL,
   Reg.SEC_STEP_CONSEC]

/-- The bits of the word at live offset `l` that lie in fields of the keep domain. -/
def keepMask (l : Nat) : Nat := (keepFields.filter (·.covers l)).foldl (fun m f => m ||| ((2 ^ f.w - 1) * 2 ^ f.lo)) 0

/-- The bits of the word at live offset `l` of block `b` that read as the copy of the last CK_SLOW edge (R66). -/
def slowMask (b : Blk) (l : Nat) : Nat := accMask b l .rc &&& (0xFFFFFFFF ^^^ keepMask l)

/-- Whether an edge of either clock has passed since the last command is free: host software cannot know after which edge its
read falls (R70). -/
def State.edges (s : State) : State :=
  let e := s.free 2
  let s := s.took
  let s := bif bit e 0 then s.slowEdge else s
  bif bit e 1 then s.keepEdge else s

/-- A word read, its RC bits taken from the copies of the last edges (R66). -/
def State.rcValue (s : State) (b : Blk) (l : Nat) (w : Word) : Word :=
  let m := slowMask b l
  let k := keepMask l
  BitVec.ofNat 32 ((w.toNat &&& (0xFFFFFFFF ^^^ (m ||| k))) ||| ((tget resetWord s.ctl.rcSlow l).toNat &&& m)
    ||| ((tget resetWord s.ctl.rcKeep l).toNat &&& k))

/-- The word at live offset `l` holds RC bits; a fenced tile's registers read 0 all the same (01 R24). -/
def State.hasRc (s : State) (b : Blk) (l : Nat) : Bool :=
  slowMask b l ||| keepMask l != 0 && !(match tileAt l with
    | some t => s.fenced t
    | none => false)

/-- The current word of a register at offset `o` of block `b`, with the read's side effects (R66, R71). -/
def State.wordRead (s : State) (r : Requester) (b : Blk) (o : Nat) : State × Word :=
  let l := liveOff b o
  match b, tileAt l with
  | .gallery g, some t => if inHeader (.gallery g) l then (s, s.word l) else s.tileRead r b t l
  | .gallery g, none =>
    if Reg.DMA_GSDATA_DATA.covers l then s.gsRead g.val
    else
      let p := s.plainRead (shadowKey r b) b l
      (p.1, BitVec.ofNat 32 (p.2.toNat &&& readMask b l))
  | .tuners, _ =>
    if Reg.TUN_FIRROM_COEF.covers l then
      (s, BitVec.ofNat 32 (firRomWord (Reg.TUN_FIRROM_COEF.at1 l) (Reg.TUN_FIRROM_COEF.at2 l)).toNat)
    else if Reg.TUN_RSROM_COEF.covers l then
      (s, BitVec.ofNat 32 (Config.rsRom (Reg.TUN_RSROM_COEF.at1 l) (Reg.TUN_RSROM_COEF.at2 l)).toNat)
    else if isRl b l || isRh b l then
      let p := s.plainRead (shadowKey r b) b l
      (p.1, BitVec.ofNat 32 (p.2.toNat &&& readMask b l))
    else (s, BitVec.ofNat 32 (s.viewWord b o))
  | .cross, _ =>
    if Reg.XSP_WDATA_WI.covers l then
      let x := if inStaged b o then tget (fun _ => 0) s.xsp.staged (s.get (Reg.XSP_WPTR_PTR.z.staged .cross))
        else tget (fun _ => 0) s.xsp.weights (s.get Reg.XSP_WPTR_PTR.z)
      (s, BitVec.ofNat 32 x)
    else if isRl b l || isRh b l then s.plainRead (shadowKey r b) b l
    else (s, BitVec.ofNat 32 (s.viewWord b o))
  | _, _ =>
    if isRl b l || isRh b l then
      let p := s.plainRead (shadowKey r b) b l
      (p.1, BitVec.ofNat 32 (p.2.toNat &&& readMask b l))
    else (s, BitVec.ofNat 32 (s.viewWord b o))

/-- The word of a register at offset `o` of block `b` as a read returns it, with the read's side effects (R66, R71). -/
def State.regRead (s : State) (r : Requester) (b : Blk) (o : Nat) : State × Word :=
  let l := liveOff b o
  let s := s.sense r b l
  bif s.hasRc b l then
    let p := s.edges.wordRead r b o
    (p.1, p.1.rcValue b l p.2)
  else s.wordRead r b o

/-- A read of an aligned word by requester `r`; outside every register it returns 0 (R62). -/
def State.busRead (s : State) (r : Requester) (o : Nat) : State × Word :=
  match s.window o with
  | none => (s.badAccess (blkAt o) s.now, 0)
  | some b => if isReg b o then s.regRead r b o else (s.bad b, 0)

/-! ### Held words of 64-bit and 96-bit fields (R72, 03 R87, 09 R293, 10 R323, 19 R590) -/

/-- The low words of the fields of two words. -/
def lows2 : List Fld :=
  [Reg.TUN_FTW_L_FTW, Reg.TUN_SWIDX_L_IDX, Reg.XSP_TILES_L_TILES, Reg.DMA_CHHEAD_L_ADDR, Reg.DMA_CHCQBASE_L_ADDR,
   Reg.HRG_BASE_L_BASE, Reg.STR_PMAC_L_MAC, Reg.STR_NMAC_L_DMAC, Reg.DSP_OVB0_L_ADDR, Reg.DSP_OVB1_L_ADDR,
   Reg.STM_TFTW_L_FTW, Reg.STM_SBASE_L_BASE, Reg.ADM_XTILES_L_TILES]

/-- The low words of the fields of three words. -/
def lows3 : List Fld := [Reg.TB_SET_L_SET, Reg.TRG_FTAG_L_TAG, Reg.CAP_TAG_L_TAG, Reg.ADM_INST_L_TAG]

/-- The place of the word at live offset `l` in its field, and the field's words, where the field has more than one. -/
def wordPlace (l : Nat) : Option (Nat × Nat) :=
  let has (fs : List Fld) (k : Nat) := fs.any (fun f => decide (4 * k ≤ l) && f.covers (l - 4 * k))
  if has lows2 0 then some (0, 2) else if has lows2 1 then some (1, 2)
  else if has lows3 0 then some (0, 3) else if has lows3 1 then some (1, 3) else if has lows3 2 then some (2, 3) else none

/-- The write shadow of requester `r` in block `b` (R71). -/
def State.writeHeld (s : State) (r : Requester) (b : Blk) : Nat := tget (fun _ => 0) s.ctl.writeShadow (shadowKey r b)
def State.setHeld (s : State) (r : Requester) (b : Blk) (v : Nat) : State :=
  { s with ctl := { s.ctl with writeShadow := tset (fun _ => 0) s.ctl.writeShadow (shadowKey r b) v } }

/-- A word below the highest one is only held (R72). -/
def State.holdWord (s : State) (r : Requester) (b : Blk) (k v : Nat) : State :=
  s.setHeld r b (putBits (s.writeHeld r b) (32 * k) 32 v)

/-- The highest word writes the whole field of `n` words, the bits of each word that lie in the field. -/
def State.storeWords (s : State) (r : Requester) (b : Blk) (o n v : Nat) (mask : Nat → Nat) : State :=
  (upto n).foldl (fun s k =>
    let at_ := o - 4 * (n - 1 - k)
    s.setMasked at_ (mask at_) (if k + 1 = n then v else bits (s.writeHeld r b) (32 * k) 32)) s

/-! ### Writes by access code -/

/-- A write of an RWD field of a block without bank views takes effect: the DMA channel of the word is IDLE or ERROR (14 R442). -/
def State.rwdOpen (s : State) (b : Blk) (l : Nat) : Bool :=
  match b with
  | .gallery g =>
    let st := s.get (chState g.val ((l % 0x100000 - 0xC0100) / 0x40))
    st == 0 || st == 4
  | _ => false

/-- The admission check or a commit is under way: the non-banked fields of 19 R571 are frozen (19 R590). -/
def State.admFrozen (s : State) (b : Blk) (l : Nat) : Bool :=
  decide (b = .admission) && s.get Reg.ADM_STAT_STATE.z != 0 &&
    (Reg.ADM_CLK_FSTAGE.covers l || Reg.ADM_RSV_THBM.covers l || Reg.ADM_TSRAM_SIZE.covers l || Reg.ADM_XTILES_H_TILES.covers l)

/-- Why a write is ignored: 1 a live RWD field, 2 a frozen staged bank (R64, R66). -/
def State.ignores (s : State) (b : Blk) (o : Nat) : Nat :=
  let l := liveOff b o
  bif s.admFrozen b l then 2
  else bif bankMask b l == 0 then 0
  else bif inStaged b o then (bif s.on b.frozen then 2 else 0)
  else bif b.banked || !s.rwdOpen b l then 1 else 0

/-- The flags of an ignored write. -/
def State.ignored (s : State) (b : Blk) (o why : Nat) : State :=
  bif why == 1 then s.liveIgnored b o s.now else bif why == 2 then s.frozenIgnored b o s.now else s

/-- A word of one view is written by the access codes of its fields (R66). -/
def State.codeWrite (s : State) (b : Blk) (o v : Nat) : State :=
  let l := liveOff b o
  let why := s.ignores b o
  bif s.admFrozen b l then s.ignored b o why
  else
    let m := bankMask b l
    let s := bif m == 0 then s else bif why == 0 then s.setMasked o m v else s.ignored b o why
    s.plainWrite b l v 0xFFFFFFFF

/-- The header: W1C bits of BLK_STATUS, BLK_LOCK (R65). -/
def State.hdrWrite (s : State) (b : Blk) (o v : Nat) : State :=
  bif o == b.hdr + 4 then s.setMasked o (v &&& 0xFC000000) 0
  else bif o == b.hdr + 8 then
    bif s.on b.lock then s.lockIgnored b o s.now else bif bit v 0 then s.flag b.lock true else s
  else s

/-! ### What each block adds -/

/-- The identity window: the request buffer is closed while BUSY (R61); a vector unmasked sends its pending message (R76). -/
def State.identWrite (s : State) (o v : Nat) : State :=
  if Reg.MBX_REQ_DATA.covers o then
    bif s.on Reg.MBX_STATUS_BUSY.z then (s.flag Reg.MBX_STATUS_OVR.z true).ev 11 else s.codeWrite .ident o v
  else if Reg.MSIX_CTRL_MASK.covers o then
    let n := Reg.MSIX_CTRL_MASK.at1 o
    let was := s.on (Reg.MSIX_CTRL_MASK.e n)
    let pba : Loc := { Reg.MSIX_PBA_PEND.e (n / 32) with lo := n % 32, w := 1 }
    let s := s.codeWrite .ident o v
    bif was && !s.on (Reg.MSIX_CTRL_MASK.e n) && s.on pba then (s.flag pba false).emit (.msix n) else s
  else s.codeWrite .ident o v

/-- EVT_CFG of event `n` takes `v`; EN going from 0 to 1 while PEND is 1 delivers the event (R75). -/
def State.evtCfg (s : State) (n v : Nat) : State :=
  let was := s.on (evEn n)
  let s := s.codeWrite .events (evEn n).off v
  bif !was && s.on (evEn n) && s.on (evPend n) then s.deliver n else s

/-- EVT_STAT.PEND of event `n` is cleared, with CNT and SAT (R74). -/
def State.evtClear (s : State) (n : Nat) : State := ((s.flag (evPend n) false).flag (evSat n) false).put (evCnt n) 0

def State.eventsWrite (s : State) (o v : Nat) : State :=
  if Reg.EVT_CFG_EN.covers o then s.evtCfg (Reg.EVT_CFG_EN.at1 o) v
  else if Reg.EVT_STAT_PEND.covers o then (if bit v 31 then s.evtClear (Reg.EVT_STAT_PEND.at1 o) else s)
  else s.codeWrite .events o v

/-- A manual selection of a reference (03 R101), or one that AUTO has no part in (20 R594), is taken at its next edge. -/
def State.prefWritten (s : State) : State :=
  let s := s.manualPend
  bif !s.on Reg.REF_CFG_AUTO.z || s.on Reg.CLK_STAT_PFDMIS.z then s.tbSet { s.tb with switchTo := s.switchTarget } else s

/-- The time base (03 R87 to R110). -/
def State.timeWrite (s : State) (o v : Nat) : State :=
  let ok := rangeOk .timeBase o v
  if o = Reg.TB_CTRL_DISC.off then
    bif !ok then s.bad .timeBase
    else
      let s := s.plainWrite .timeBase o v 0xFFFFFFF8
      let s := bif bit v 10 then s.did execTbCancel else s
      s.discTo (bits v 0 3)
  else if Reg.TB_INDELAY_DELAY.covers o then
    let t := s.codeWrite .timeBase o v
    bif t.word o == s.word o then t else t.calSwap 2 (Reg.TB_INDELAY_DELAY.at1 o)
  else if o = Reg.TB_ADJ_RATE_RATE.off then s.did (execTbAdjRateWrite (BitVec.ofNat 32 v))
  else if o = Reg.TB_LOOP_KP.off then
    bif lt (bits v 8 4) (bits v 12 4) then s.bad .timeBase else s.codeWrite .timeBase o v
  else if o = Reg.REF_THR_WIDE.off then
    bif le (bits v 16 16) (bits v 0 16) then s.bad .timeBase else s.codeWrite .timeBase o v
  else if o = Reg.REF_CFG_PREF.off then
    bif !ok then s.bad .timeBase else (s.codeWrite .timeBase o v).prefWritten
  else if Reg.PTP_TXST_POP.covers o then
    let s := s.codeWrite .timeBase o v
    bif bit v 0 then s.did (execPtpPop (Reg.PTP_TXST_POP.at1 o)) else s
  else s.codeWrite .timeBase o v

/-- Some enabled input is in JESD204C mode. -/
def State.anyJesd (s : State) : Bool := (upto 128).any (fun n => s.on (Reg.ING_LMAP_EN.e n) && s.on (Reg.ING_LMAP_JESD.e n))

/-- The clocks (20 R597, R607, R609 to R611). -/
def State.clocksWrite (s : State) (o v : Nat) : State :=
  if o = Reg.CLK_CTRL_CMD.off then
    bif lt 2 (bits v 29 3) then s.bad .clocks
    else
      let s := s.codeWrite .clocks o v
      bif bits v 29 3 == 1 then s.did execRelock else bif bits v 29 3 == 2 then s.did execBandcal else s
  else if o = Reg.CLK_SYSREF_SDIV.off then
    let held := s.anyJesd && bits v 0 16 != s.get Reg.CLK_SYSREF_SDIV.z
    bif !rangeOk .clocks o v then s.bad .clocks
    else
      let s := bif held then (s.plainWrite .clocks o v 0xFFFF0000).liveIgnored .clocks o s.now else s.codeWrite .clocks o v
      bif bit v 28 then s.did execSysrefFire else s
  else if Reg.CLK_BAND_VALID.covers o then
    bif bit v 31 && !bandUsable v then s.bad .clocks else s.codeWrite .clocks o v
  else if Reg.CLK_OUT_EN.covers o then s.did (execClkOutWrite (Reg.CLK_OUT_EN.at1 o) (BitVec.ofNat 32 v))
  else s.codeWrite .clocks o v

/-- Power, thermal and housekeeping (21 R614, R625, R631, R636 to R638). -/
def State.powerWrite (s : State) (o v : Nat) : State :=
  if o = Reg.PWR_CMD_OP.off then
    match bits v 29 3 with
    | 1 => s.did execPwrSleep
    | 2 => s.did execPwrWatch
    | 3 => s.did execPwrFull
    | 4 => s.did execPwrKeep
    | _ => s
  else if o = Reg.PWR_GOV_LIMIT.off then
    bif lt (bits v 24 8) 20 && s.on Reg.REC_CTRL_WATCHEN.z then s.bad .power else s.codeWrite .power o v
  else if o = Reg.PWR_CFG_BOOTMODE.off then
    bif rangeOk .power o v then (s.codeWrite .power o v).keepWrite else s.bad .power
  else if o = Reg.THM_CFG_T_THR.off then
    let top : Int := if s.sec.extended then 1680 else 1520
    bif leI (sext 16 (bits v 0 16)) (sext 16 (bits v 16 16)) || ltI top (sext 16 (bits v 0 16)) || ltI top (sext 16 (bits v 16 16))
    then s.bad .power else s.codeWrite .power o v
  else if Reg.HK_TRIM_OFS.covers o then (s.trimsHeld (Reg.HK_TRIM_OFS.at1 o)).codeWrite .power o v
  else if o = Reg.HK_CTRL_EN0.off ∨ Reg.HK_SEQ_EN.covers o then
    (upto 2).foldl (fun s k => bif s.hkRuns k then s else s.trimsNew k) (s.codeWrite .power o v)
  else if o = Reg.HK_URG_CONV.off then s.did (execHkUrg (bits v 30 2) (bits v 0 5))
  else s.codeWrite .power o v

/-- Start, security and debug (22 R645, R651, R652, R654, R655, R660). -/
def State.securityWrite (s : State) (mailbox : Bool) (o v : Nat) : State :=
  let op := bits v 29 3
  if o = Reg.SEC_CMD_OP.off then
    s.secIdle (fun s => match op with
      | 1 => s.did execSecReset
      | 2 => s.did execSecProvision
      | 3 => s.did execLcreq
      | 4 => s.did (execSvnburn mailbox)
      | 5 => s.did (execSecRevoke mailbox)
      | _ => s)
  else if o = Reg.SEC_TVCMD_OP.off then
    s.secIdle (fun s => bif op == 1 then s.did (execTileVerify (bits v 0 6)) else s)
  else if o = Reg.SEC_FLCMD_OP.off then
    s.secIdle (fun s => match op with
      | 1 => s.did execFlashRead
      | 2 => s.did execFlashProgram
      | 3 => s.did execFlashErase
      | _ => s)
  else if o = Reg.SEC_CTRL_MAXTRY.off then
    bif rangeOk .security o v then (s.codeWrite .security o v).keepWrite else s.bad .security
  else if Reg.SEC_STEP_POLICY.covers o then
    bif stepPermits (Reg.SEC_STEP_POLICY.at1 o) (bits v 14 2) then (s.codeWrite .security o v).keepWrite else s.bad .security
  else if Reg.SEC_KEYS_DATA.covers o then
    bif s.get Reg.SEC_STAT_LC.z == 0 then s.setWord o (BitVec.ofNat 32 v) else s
  else if Reg.SEC_TSIG_DATA.covers o || Reg.SEC_TOKEN_DATA.covers o then s.setWord o (BitVec.ofNat 32 v)
  else s.codeWrite .security o v

/-- The pair (23 R685): a change of DZ_CFG while PSTATE is OFF takes effect at once. -/
def State.pairWrite (s : State) (o v : Nat) : State :=
  if o = Reg.DZ_CFG_EN.off then
    bif !rangeOk .pair o v then s.bad .pair
    else
      let s := s.codeWrite .pair o v
      bif s.get Reg.DZ_STAT_PSTATE.z == 0 then s.pairConfig else s
  else if o = Reg.DZ_CMD_OP.off then
    match bits v 29 3 with
    | 1 => s.did execDzSwitch
    | 2 => s.did execDzLeave
    | 3 => s.did execRejoin
    | _ => s
  else if o = Reg.DZ_LOOP_KP.off then
    bif lt (bits v 16 4) (bits v 20 4) then s.bad .pair else s.codeWrite .pair o v
  else s.codeWrite .pair o v

/-- Clearing cause bit 8 ends RATEFAULT (04 R129). -/
def State.ingressWrite (s : State) (o v : Nat) : State :=
  let l := liveOff .ingress o
  let s := s.codeWrite .ingress o v
  if Reg.ING_ISTAT_CAUSE.covers l ∧ bit v 8 then s.did (execRatefaultClear (Reg.ING_ISTAT_CAUSE.at1 l)) else s

/-- DVW_CLR (07 R221, R222). -/
def State.detectWrite (s : State) (o v : Nat) : State :=
  let l := liveOff .detect o
  if Reg.DVW_CLR_HOLD.covers l then
    let u := Reg.DVW_CLR_HOLD.at1 l
    let s := bif bit v 0 then s.did (execDvwClrHold u) else s
    bif bit v 1 then s.did (execDvwClrPersist u) else s
  else s.codeWrite .detect o v

/-- TRG_CMD (09 R277, R280, R293). -/
def State.triggersWrite (s : State) (o v : Nat) : State :=
  let group := bit v 28
  let u := bits v 0 5
  if liveOff .triggers o = Reg.TRG_CMD_OP.off then
    match bits v 29 3 with
    | 0 => s
    | 1 => s.did (execTrgArm u group)
    | 2 => s.did (execTrgDisarm u group)
    | 3 => bif group then s.bad .triggers else s.did (execTrgForce u (bit v 27))
    | _ => s.bad .triggers
  else s.codeWrite .triggers o v

/-- CAP_CMD (10 R301 to R306, R323). -/
def State.recorderWrite (s : State) (o v : Nat) : State :=
  let num := s.get Reg.CAP_CMDNUM_NUM.z
  let l := liveOff .recorder o
  if l = Reg.CAP_CMD_OP.off then
    match bits v 29 3 with
    | 0 => s
    | 1 => s.did (execCapRelease num)
    | 2 => s.did (execCapRead num)
    | 3 => s.did (execCapRequest (bits v 24 5))
    | _ => s.bad .recorder
  else if l = Reg.CAP_CMDNUM_NUM.off then s.setWord l (BitVec.ofNat 32 v)
  else s.codeWrite .recorder o v

/-- The weight port, and the staged writes that set every staged weight to 0 (11 R343). -/
def State.crossWrite (s : State) (o v : Nat) : State :=
  let l := liveOff .cross o
  if Reg.XSP_WDATA_WI.covers l then
    bif inStaged .cross o then s.did (execXspWdataWrite (BitVec.ofNat 32 v)) else s.liveIgnored .cross o s.now
  else
    let clears := inStaged .cross o && s.ignores .cross o == 0 && (Reg.XSP_BAND_BIN0.covers l || Reg.XSP_INMASK_SEL.covers l
      || Reg.XSP_BCTRL_WGLOG.covers l || Reg.XSP_BCFG_EN.covers l)
    let s := s.codeWrite .cross o v
    bif clears then s.clearWeights else s

/-- The block of tile `t` (12 R394, R397, R399, R406). -/
def State.tileWrite (s : State) (b : Blk) (t o v : Nat) : State :=
  let w := BitVec.ofNat 32 v
  let k := o % 0x10000
  bif s.fenced t then s.bad b
  else bif k == 0 then
    let s := s.codeWrite b o v
    match bits v 29 3 with
    | 1 => s.did (execTileRun t)
    | 2 => s.did (execTileHalt t)
    | 3 => s.did (execTileReset t)
    | _ => s
  else bif k == 0x14 then
    let s := s.codeWrite b o v
    match bits v 29 3 with
    | 1 => s.did (execXctlArm t (bits v 0 14))
    | 2 => s.did (execXctlForce t)
    | 3 => s.did (execXctlCancel t)
    | _ => s
  else bif k == 0x20 then s.did (execTilePdataWrite t w)
  else bif k == 0x28 then (s.mdata t (some w)).1
  else bif Reg.TILE_TMR_CFG_MODE.covers o then s.did (execTileTimerWrite t (Reg.TILE_TMR_CFG_MODE.at3 o) 0 w)
  else bif Reg.TILE_TMR_LOAD_LOAD.covers o then s.did (execTileTimerWrite t (Reg.TILE_TMR_LOAD_LOAD.at3 o) 1 w)
  else bif Reg.TILE_TMR_LOADH_SEC.covers o then s.did (execTileTimerWrite t (Reg.TILE_TMR_LOADH_SEC.at3 o) 2 w)
  else bif Reg.TILE_RING1_RIDX.covers o then s.did (execTileRingRidxWrite t (Reg.TILE_RING1_RIDX.at3 o) w)
  else s.codeWrite b o v

/-- A gallery window: tiles, the lock block and DMA (12 R401, R406; 14 R440 to R453). -/
def State.galleryWrite (s : State) (r : Requester) (g : Fin 8) (o v : Nat) : State :=
  let b := Blk.gallery g
  let w := BitVec.ofNat 32 v
  match tileAt o with
  | some t => s.tileWrite b t o v
  | none =>
    if o = Reg.LOCK_CMD_OP.off then
      match bits v 30 2 with
      | 1 => s.did (execLockAcquire r (bits v 0 8))
      | 2 => s.did (execLockRelease r (bits v 0 8))
      | 3 => s.did (execLockBreak r (bits v 0 8))
      | _ => s
    else if Reg.DMA_GSDATA_DATA.covers o then s.did (execDmaGsdataAccess r g.val 0 true w)
    else if Reg.DMA_GSDATA_L_LO.covers o then s.did (execDmaGsdataAccess r g.val 1 true w)
    else if Reg.DMA_GSDATA_H_HI.covers o then s.did (execDmaGsdataAccess r g.val 2 true w)
    else if Reg.DMA_CHCMD_OP.covers o then
      let c := Reg.DMA_CHCMD_OP.at2 o
      match bits v 29 3 with
      | 1 => s.did (execDmaStart g.val c)
      | 2 => s.did (execDmaDoorbell g.val c)
      | 3 => s.did (execDmaStop g.val c)
      | 4 => s.did (execDmaAbort g.val c)
      | 5 => s.did (execDmaClear g.val c)
      | _ => s
    else if Reg.DMA_CHSTAT_DONE.covers o then (s.codeWrite b o v).dmaAttn g.val
    else if Reg.DMA_CHCQ_RIDX.covers o then s.did (execDmaCqRidxWrite g.val (Reg.DMA_CHCQ_RIDX.at2 o) w)
    else s.codeWrite b o v

/-- The memory system (15 R481). -/
def State.memoryWrite (s : State) (o v : Nat) : State :=
  if o = Reg.MEM_CMD_OP.off then
    match bits v 29 3 with
    | 0 => s
    | 1 => s.did (execMemRetire (bits v 0 10))
    | 2 => s.did (execMemRestore (bits v 0 10))
    | _ => s.bad .memory
  else if o = Reg.MEM_PAGE_WLO.off then
    bif lt (bits v 8 8) (bits v 0 8 + 8) then s.bad .memory else s.codeWrite .memory o v
  else s.codeWrite .memory o v

/-- HRG_TAIL and DSK_CMD (16 R506, R515, R520). -/
def State.streamsWrite (s : State) (o v : Nat) : State :=
  let l := liveOff .streams o
  if Reg.HRG_TAIL_TAIL.covers l then s.did (execHrgTailWrite (Reg.HRG_TAIL_TAIL.at1 l) (bits v 0 16))
  else if l = Reg.DSK_CMD_OP.off then
    match bits v 29 3 with
    | 1 => s.did execDiskAttach
    | 2 => s.did execDiskFormat
    | 3 => s.did execDiskDetach
    | 4 => s.did execDiskKeep
    | 5 => s.did execDiskFree
    | 6 => s.did execDiskRead
    | _ => s
  else s.codeWrite .streams o v

/-- DSP_OCFG.OP, DSP_FLIP and DSP_AUXCMD (17 R530, R534, R536, R542). -/
def State.displayWrite (s : State) (o v : Nat) : State :=
  let l := liveOff .display o
  if Reg.DSP_OCFG_OP.covers l then
    let s := s.codeWrite .display o v
    bif bits v 0 2 == 1 then s.did (execRetrain (Reg.DSP_OCFG_OP.at1 l)) else s
  else if Reg.DSP_FLIP_SEL.covers l then s.did (execDspFlipWrite (Reg.DSP_FLIP_SEL.at1 l) (bits v 0 1))
  else if Reg.DSP_AUXCMD_OP.covers l then
    let k := Reg.DSP_AUXCMD_OP.at1 l
    bif s.on (Reg.DSP_AUXST_BUSY.e k) then s.bad .display
    else
      let s := s.codeWrite .display o v
      match bits v 29 3 with
      | 1 => s.did (execAuxNativeWrite k)
      | 2 => s.did (execAuxNativeRead k)
      | 3 => s.did (execAuxI2cWrite k)
      | 4 => s.did (execAuxI2cRead k)
      | _ => s
  else s.codeWrite .display o v

/-- CAL_CMD (18 R550, R567). -/
def State.stimulusWrite (s : State) (o v : Nat) : State :=
  let a := bit v 27
  let p := bit v 26
  if liveOff .stimulus o = Reg.CAL_CMD_OP.off then
    match bits v 28 4 with
    | 1 => s.did (execCalLane a p)
    | 2 => s.did (execCalAlign a p)
    | 3 => s.did (execCalGain a p)
    | 4 => s.did (execCalFlat a p)
    | 5 => s.did (execCalMonitor a p)
    | 6 => s.did execCalAbort
    | 7 => s.did execCalApply
    | _ => bif s.stm.run.isSome then s.bad .stimulus else s
  else s.codeWrite .stimulus o v

/-- ADM_CMD (19 R583 to R586, R590). -/
def State.admissionWrite (s : State) (o v : Nat) : State :=
  if o = Reg.ADM_CMD_OP.off then
    match bits v 29 3 with
    | 0 => s
    | 1 => s.did (execAdmCheck (bit v 28))
    | 2 => s.did (execAdmCommit (bit v 28))
    | 3 => s.did execAdmAbort
    | _ => s.bad .admission
  else s.codeWrite .admission o v

/-- The highest word of a field of `n` words completes it: the access rules apply once, and an ignored write discards the held
words (R72). -/
def State.completeWrite (s : State) (r : Requester) (b : Blk) (o n v : Nat) : State :=
  let l := liveOff b o
  bif decide (b = .timeBase) then s.did (execTbSetArm r false v)
  else
    let why := s.ignores b o
    bif why != 0 then (s.ignored b o why).setHeld r b 0
    else
      let m (a : Nat) : Nat := bankMask b (liveOff b a)
      s.storeWords r b (if m o = 0 then l else o) n v (fun a => if m a = 0 then 0xFFFFFFFF else m a)

/-- A write of a register word in its view. -/
def State.regWrite (s : State) (r : Requester) (mailbox : Bool) (b : Blk) (o v : Nat) : State :=
  bif inHeader b o then s.hdrWrite b o v
  else match wordPlace (liveOff b o) with
    | some (k, n) => if k + 1 < n then s.holdWord r b k v else s.completeWrite r b o n v
    | none => match b with
      | .ident => s.identWrite o v
      | .events => s.eventsWrite o v
      | .timeBase => s.timeWrite o v
      | .clocks => s.clocksWrite o v
      | .power => s.powerWrite o v
      | .security => s.securityWrite mailbox o v
      | .pair => s.pairWrite o v
      | .ingress => s.ingressWrite o v
      | .coarse => s.codeWrite .coarse o v
      | .fine => s.codeWrite .fine o (v &&& s.slotMask .fine o)
      | .detect => s.detectWrite o v
      | .tuners => s.codeWrite .tuners o v
      | .triggers => s.triggersWrite o v
      | .recorder => s.recorderWrite o v
      | .cross => s.crossWrite o v
      | .gallery g => s.galleryWrite r g o v
      | .memory => s.memoryWrite o v
      | .streams => s.streamsWrite o v
      | .display => s.displayWrite o v
      | .stimulus => s.stimulusWrite o v
      | .admission => s.admissionWrite o v

/-- A write of an aligned word by requester `r`; outside every register it is ignored (R62). -/
def State.wordWrite (s : State) (r : Requester) (mailbox : Bool) (o : Nat) (v : Word) : State :=
  match s.window o with
  | none => s.badAccess (blkAt o) s.now
  | some b => if isReg b o then s.regWrite r mailbox b o v.toNat else s.bad b

end Sys2Proof.Machine
end

