-- ==== Sys2Proof/Machine/Objects.lean ====
section
/-!
DEFINITION. The object dictionary (02_control_access.md R40 to R46): which register word an object index and subindex
name, with its type; and the objects the control complex holds itself.
-/
namespace Sys2Proof.Machine

/-- Object types (R42). -/
inductive ObjTy where
  | bool | u8 | u16 | u32 | u64 | i16 | i32 | f32 | time96
  | octets (n : Nat)
deriving DecidableEq, Repr

/-- The code of a type (R42). -/
def ObjTy.code : ObjTy → Nat
  | .bool => 0x01 | .u8 => 0x02 | .u16 => 0x03 | .u32 => 0x04 | .u64 => 0x05 | .i16 => 0x06 | .i32 => 0x07
  | .f32 => 0x08 | .time96 => 0x09 | .octets _ => 0x0A

/-- The size of a value in bytes, the largest one for OCTETS (R42). -/
def ObjTy.size : ObjTy → Nat
  | .bool => 1 | .u8 => 1 | .u16 => 2 | .u32 => 4 | .u64 => 8 | .i16 => 2 | .i32 => 4 | .f32 => 4 | .time96 => 12
  | .octets n => n

/-- How a subindex moves the offset: by a fixed stride, by tile number (12 R406) or by DMA channel number (14 R453). -/
inductive SubMap where
  | stride (n : Nat)
  | tile
  | channel
deriving DecidableEq, Repr

/-- A run of object indices that name registers. -/
structure ObjRow where
  idx : Nat
  nIdx : Nat
  idxStride : Nat
  sub : Nat
  nSub : Nat
  map : SubMap
  off : Nat
  ty : ObjTy
deriving DecidableEq, Repr

def objRows0 : List ObjRow :=
  [⟨0x1200, 4, 0x1000, 1, 128, .stride 0x20, 0x100000, .u32⟩,
   ⟨0x1210, 4, 0x1000, 1, 128, .stride 0x20, 0x100004, .u32⟩,
   ⟨0x1220, 4, 0x1000, 1, 128, .stride 0x20, 0x100008, .time96⟩,
   ⟨0x1240, 1, 0x0, 1, 16, .stride 0x4, 0x104000, .u32⟩,
   ⟨0x1400, 1, 0x0, 1, 1, .stride 0x0, 0x200020, .u32⟩,
   ⟨0x1400, 1, 0x0, 2, 1, .stride 0x0, 0x200024, .u32⟩,
   ⟨0x1401, 1, 0x0, 0, 1, .stride 0x0, 0x200028, .time96⟩,
   ⟨0x1402, 1, 0x0, 0, 1, .stride 0x0, 0x200034, .time96⟩,
   ⟨0x1403, 1, 0x0, 1, 1, .stride 0x0, 0x200040, .u32⟩,
   ⟨0x1403, 1, 0x0, 2, 1, .stride 0x0, 0x200044, .i32⟩,
   ⟨0x1403, 1, 0x0, 3, 1, .stride 0x0, 0x200048, .i32⟩,
   ⟨0x1403, 1, 0x0, 4, 1, .stride 0x0, 0x20004C, .u32⟩,
   ⟨0x1403, 1, 0x0, 5, 1, .stride 0x0, 0x200050, .i32⟩,
   ⟨0x1403, 1, 0x0, 6, 1, .stride 0x0, 0x200054, .i32⟩,
   ⟨0x1404, 1, 0x0, 1, 1, .stride 0x0, 0x200060, .u32⟩,
   ⟨0x1404, 1, 0x0, 2, 1, .stride 0x0, 0x200064, .u32⟩,
   ⟨0x1404, 1, 0x0, 3, 1, .stride 0x0, 0x200068, .u32⟩,
   ⟨0x1404, 1, 0x0, 4, 1, .stride 0x0, 0x20006C, .i32⟩,
   ⟨0x1404, 1, 0x0, 5, 1, .stride 0x0, 0x200070, .i32⟩,
   ⟨0x1410, 1, 0x200, 1, 128, .stride 0x4, 0x201000, .i32⟩,
   ⟨0x1411, 1, 0x200, 1, 128, .stride 0x4, 0x201200, .i32⟩,
   ⟨0x1420, 8, 0x40, 1, 1, .stride 0x0, 0x202000, .u32⟩,
   ⟨0x1420, 8, 0x40, 2, 1, .stride 0x0, 0x202004, .u32⟩,
   ⟨0x1420, 8, 0x40, 3, 1, .stride 0x0, 0x202008, .u32⟩,
   ⟨0x1420, 8, 0x40, 4, 1, .stride 0x0, 0x20200C, .time96⟩,
   ⟨0x1420, 8, 0x40, 5, 1, .stride 0x0, 0x202018, .u32⟩,
   ⟨0x2000, 1, 0x0, 1, 1, .stride 0x0, 0x1000020, .u32⟩,
   ⟨0x2001, 1, 0x0, 1, 16, .stride 0x4, 0x1000100, .u32⟩,
   ⟨0x2002, 1, 0x200, 1, 128, .stride 0x4, 0x1000400, .u32⟩,
   ⟨0x2003, 1, 0x200, 1, 128, .stride 0x4, 0x1000600, .u32⟩,
   ⟨0x2004, 1, 0x400, 1, 128, .stride 0x8, 0x1000800, .u64⟩,
   ⟨0x2010, 1, 0x200, 1, 128, .stride 0x4, 0x1001000, .u32⟩,
   ⟨0x2011, 1, 0x200, 1, 128, .stride 0x4, 0x1001200, .u32⟩,
   ⟨0x2012, 1, 0x200, 1, 128, .stride 0x4, 0x1001400, .u32⟩,
   ⟨0x2013, 1, 0x200, 1, 128, .stride 0x4, 0x1001600, .u32⟩,
   ⟨0x2014, 1, 0x200, 1, 128, .stride 0x4, 0x1001800, .u32⟩,
   ⟨0x2015, 1, 0x200, 1, 128, .stride 0x4, 0x1001A00, .u32⟩,
   ⟨0x2016, 1, 0x200, 1, 128, .stride 0x4, 0x1001C00, .u32⟩,
   ⟨0x2017, 1, 0x400, 1, 128, .stride 0x8, 0x1002000, .u64⟩,
   ⟨0x3000, 1, 0x0, 1, 1, .stride 0x0, 0x1400020, .u32⟩]

def objRows1 : List ObjRow :=
  [⟨0x3208, 1, 0x0, 1, 8, .stride 0x4, 0x1400100, .u32⟩,
   ⟨0x3010, 1, 0x200, 1, 128, .stride 0x4, 0x1401000, .u16⟩,
   ⟨0x3011, 1, 0x200, 1, 128, .stride 0x4, 0x1401200, .u32⟩,
   ⟨0x3012, 1, 0x200, 1, 128, .stride 0x4, 0x1401400, .u32⟩,
   ⟨0x3013, 1, 0x200, 1, 128, .stride 0x4, 0x1401600, .u32⟩,
   ⟨0x3014, 1, 0x200, 1, 128, .stride 0x4, 0x1401800, .u32⟩,
   ⟨0x3015, 1, 0x200, 1, 128, .stride 0x4, 0x1401A00, .u32⟩,
   ⟨0x3016, 1, 0x200, 1, 128, .stride 0x4, 0x1401C00, .u32⟩,
   ⟨0x3017, 1, 0x200, 1, 128, .stride 0x4, 0x1401E00, .u32⟩,
   ⟨0x3100, 128, 0x1000, 1, 4, .stride 0x400, 0x1410000, .octets 1024⟩,
   ⟨0x3200, 8, 0x10000, 1, 64, .stride 0x400, 0x1500000, .octets 1024⟩,
   ⟨0x3400, 1, 0x0, 1, 1, .stride 0x0, 0x1800020, .u32⟩,
   ⟨0x3400, 1, 0x0, 2, 1, .stride 0x0, 0x1800024, .u32⟩,
   ⟨0x3400, 1, 0x0, 3, 1, .stride 0x0, 0x1800028, .u64⟩,
   ⟨0x3401, 1, 0x0, 1, 8, .stride 0x4, 0x1800040, .u32⟩,
   ⟨0x3408, 1, 0x0, 1, 4, .stride 0x4, 0x1800100, .u32⟩,
   ⟨0x3410, 1, 0x200, 1, 128, .stride 0x4, 0x1801000, .u32⟩,
   ⟨0x3411, 1, 0x200, 1, 128, .stride 0x4, 0x1801200, .u32⟩,
   ⟨0x3412, 1, 0x200, 1, 128, .stride 0x4, 0x1801400, .u32⟩,
   ⟨0x3413, 1, 0x200, 1, 128, .stride 0x4, 0x1801600, .u32⟩,
   ⟨0x3414, 1, 0x200, 1, 128, .stride 0x4, 0x1801800, .u32⟩,
   ⟨0x3415, 1, 0x200, 1, 128, .stride 0x4, 0x1801A00, .u32⟩,
   ⟨0x3480, 128, 0x100, 1, 1, .stride 0x0, 0x1810000, .octets 256⟩,
   ⟨0x3500, 4, 0x8000, 1, 32, .stride 0x400, 0x1900000, .octets 1024⟩,
   ⟨0x3800, 8, 0x2000, 1, 128, .stride 0x40, 0x1C10000, .u32⟩,
   ⟨0x3808, 8, 0x2000, 1, 128, .stride 0x40, 0x1C10004, .u32⟩,
   ⟨0x3810, 8, 0x2000, 1, 128, .stride 0x40, 0x1C10008, .u32⟩,
   ⟨0x3818, 8, 0x2000, 1, 128, .stride 0x40, 0x1C1000C, .u32⟩,
   ⟨0x3840, 8, 0x2000, 1, 128, .stride 0x40, 0x1C10020, .u32⟩,
   ⟨0x3848, 8, 0x2000, 1, 128, .stride 0x40, 0x1C10024, .u32⟩,
   ⟨0x3850, 8, 0x2000, 1, 128, .stride 0x40, 0x1C10028, .u32⟩,
   ⟨0x3858, 8, 0x2000, 1, 128, .stride 0x40, 0x1C1002C, .u32⟩,
   ⟨0x3860, 8, 0x2000, 1, 128, .stride 0x40, 0x1C10030, .u32⟩,
   ⟨0x3868, 8, 0x2000, 1, 128, .stride 0x40, 0x1C10034, .u32⟩,
   ⟨0x3870, 8, 0x2000, 1, 128, .stride 0x40, 0x1C10038, .u32⟩,
   ⟨0x3878, 8, 0x2000, 1, 128, .stride 0x40, 0x1C1003C, .u32⟩,
   ⟨0x3820, 8, 0x2000, 1, 128, .stride 0x40, 0x1C10010, .u32⟩,
   ⟨0x3828, 8, 0x2000, 1, 128, .stride 0x40, 0x1C10014, .u32⟩,
   ⟨0x3830, 8, 0x2000, 1, 128, .stride 0x40, 0x1C10018, .u32⟩,
   ⟨0x3838, 8, 0x2000, 1, 128, .stride 0x40, 0x1C1001C, .u32⟩]

def objRows2 : List ObjRow :=
  [⟨0x3880, 1, 0x0, 1, 1, .stride 0x0, 0x1C00020, .u32⟩,
   ⟨0x3880, 1, 0x0, 2, 1, .stride 0x0, 0x1C00024, .u32⟩,
   ⟨0x3881, 1, 0x0, 1, 8, .stride 0x4, 0x1C00040, .u32⟩,
   ⟨0x3882, 1, 0x0, 1, 1, .stride 0x0, 0x1C00060, .u32⟩,
   ⟨0x3882, 1, 0x0, 2, 1, .stride 0x0, 0x1C00064, .u32⟩,
   ⟨0x3882, 1, 0x0, 3, 1, .stride 0x0, 0x1C00068, .u32⟩,
   ⟨0x3882, 1, 0x0, 4, 1, .stride 0x0, 0x1C0006C, .u32⟩,
   ⟨0x3882, 1, 0x0, 5, 1, .stride 0x0, 0x1C00070, .u32⟩,
   ⟨0x4000, 2, 0x2000, 1, 128, .stride 0x40, 0x2010000, .u32⟩,
   ⟨0x4002, 2, 0x2000, 1, 128, .stride 0x40, 0x2010004, .u32⟩,
   ⟨0x4004, 2, 0x2000, 1, 128, .stride 0x40, 0x2010008, .u32⟩,
   ⟨0x4006, 2, 0x2000, 1, 128, .stride 0x40, 0x201000C, .u32⟩,
   ⟨0x4008, 2, 0x2000, 1, 128, .stride 0x40, 0x2010010, .u32⟩,
   ⟨0x400A, 2, 0x2000, 1, 128, .stride 0x40, 0x2010014, .u32⟩,
   ⟨0x400C, 2, 0x2000, 1, 128, .stride 0x40, 0x2010018, .u32⟩,
   ⟨0x400E, 2, 0x2000, 1, 128, .stride 0x40, 0x201001C, .u32⟩,
   ⟨0x4010, 2, 0x2000, 1, 128, .stride 0x40, 0x2010020, .u32⟩,
   ⟨0x4012, 2, 0x2000, 1, 128, .stride 0x40, 0x2010024, .u32⟩,
   ⟨0x4014, 2, 0x2000, 1, 128, .stride 0x40, 0x2010028, .u32⟩,
   ⟨0x4016, 2, 0x2000, 1, 128, .stride 0x40, 0x201002C, .u32⟩,
   ⟨0x4018, 2, 0x2000, 1, 128, .stride 0x40, 0x2010030, .u32⟩,
   ⟨0x401A, 2, 0x2000, 1, 128, .stride 0x40, 0x2010034, .u32⟩,
   ⟨0x401C, 2, 0x2000, 1, 128, .stride 0x40, 0x2010038, .u32⟩,
   ⟨0x4700, 1, 0x0, 1, 1, .stride 0x0, 0x2000020, .u32⟩,
   ⟨0x4708, 1, 0x0, 1, 32, .stride 0x4, 0x2000100, .u32⟩,
   ⟨0x4709, 1, 0x0, 1, 4, .stride 0x4, 0x2000180, .u32⟩,
   ⟨0x4600, 32, 0x800, 1, 6, .stride 0x100, 0x2040000, .octets 256⟩,
   ⟨0x4640, 4, 0x1000, 1, 4, .stride 0x400, 0x2050000, .octets 1024⟩,
   ⟨0x4680, 6, 0x800, 1, 6, .stride 0x100, 0x2060000, .octets 256⟩,
   ⟨0x46C0, 2, 0x1000, 1, 4, .stride 0x400, 0x2070000, .octets 1024⟩,
   ⟨0x4900, 1, 0x0, 1, 1, .stride 0x0, 0x2400020, .u32⟩,
   ⟨0x4900, 1, 0x0, 2, 1, .stride 0x0, 0x2400024, .u32⟩,
   ⟨0x4900, 1, 0x0, 3, 1, .stride 0x0, 0x2400028, .time96⟩,
   ⟨0x4901, 1, 0x0, 1, 8, .stride 0x4, 0x2400040, .u32⟩,
   ⟨0x4902, 1, 0x0, 1, 8, .stride 0x4, 0x2400080, .u32⟩,
   ⟨0x4903, 1, 0x0, 1, 8, .stride 0x4, 0x24000A0, .u32⟩,
   ⟨0x4904, 1, 0x0, 1, 8, .stride 0x4, 0x24000C0, .u32⟩,
   ⟨0x4905, 1, 0x0, 1, 8, .stride 0x4, 0x24000E0, .u32⟩,
   ⟨0x4906, 1, 0x0, 1, 8, .stride 0x4, 0x2400100, .u32⟩,
   ⟨0x4907, 1, 0x0, 1, 8, .stride 0x4, 0x2400120, .u32⟩]

def objRows3 : List ObjRow :=
  [⟨0x4908, 1, 0x0, 1, 32, .stride 0x4, 0x2400200, .u32⟩,
   ⟨0x4C00, 32, 0x4000, 1, 16, .stride 0x400, 0x2500000, .octets 1024⟩,
   ⟨0x4800, 1, 0x0, 1, 32, .stride 0x80, 0x2410000, .u32⟩,
   ⟨0x4801, 1, 0x0, 1, 32, .stride 0x80, 0x2410004, .u32⟩,
   ⟨0x4802, 1, 0x0, 1, 32, .stride 0x80, 0x2410008, .u32⟩,
   ⟨0x4809, 1, 0x0, 1, 32, .stride 0x80, 0x2410024, .u32⟩,
   ⟨0x480A, 1, 0x0, 1, 32, .stride 0x80, 0x2410028, .u32⟩,
   ⟨0x480B, 1, 0x0, 1, 32, .stride 0x80, 0x241002C, .u32⟩,
   ⟨0x480C, 1, 0x0, 1, 32, .stride 0x80, 0x2410030, .u32⟩,
   ⟨0x480D, 1, 0x0, 1, 32, .stride 0x80, 0x2410034, .u32⟩,
   ⟨0x480E, 1, 0x0, 1, 32, .stride 0x80, 0x2410038, .u32⟩,
   ⟨0x480F, 1, 0x0, 1, 32, .stride 0x80, 0x241003C, .u32⟩,
   ⟨0x4810, 1, 0x0, 1, 32, .stride 0x80, 0x2410040, .u32⟩,
   ⟨0x4811, 1, 0x0, 1, 32, .stride 0x80, 0x2410044, .u32⟩,
   ⟨0x4812, 1, 0x0, 1, 32, .stride 0x80, 0x2410048, .u32⟩,
   ⟨0x4813, 1, 0x0, 1, 32, .stride 0x80, 0x241004C, .u32⟩,
   ⟨0x4803, 1, 0x0, 1, 32, .stride 0x80, 0x241000C, .u32⟩,
   ⟨0x4804, 1, 0x0, 1, 32, .stride 0x80, 0x2410010, .u32⟩,
   ⟨0x4805, 1, 0x0, 1, 32, .stride 0x80, 0x2410014, .u32⟩,
   ⟨0x4806, 1, 0x0, 1, 32, .stride 0x80, 0x2410018, .u32⟩,
   ⟨0x4807, 1, 0x0, 1, 32, .stride 0x80, 0x241001C, .u32⟩,
   ⟨0x4808, 1, 0x0, 1, 32, .stride 0x80, 0x2410020, .u32⟩,
   ⟨0x5000, 1, 0x0, 1, 1, .stride 0x0, 0x2800020, .u32⟩,
   ⟨0x5000, 1, 0x0, 2, 1, .stride 0x0, 0x2800024, .u32⟩,
   ⟨0x5000, 1, 0x0, 3, 1, .stride 0x0, 0x2800028, .u32⟩,
   ⟨0x5000, 1, 0x0, 4, 1, .stride 0x0, 0x280002C, .u32⟩,
   ⟨0x5000, 1, 0x0, 5, 1, .stride 0x0, 0x2800030, .u32⟩,
   ⟨0x5002, 1, 0x0, 1, 1, .stride 0x0, 0x2800050, .u32⟩,
   ⟨0x5002, 1, 0x0, 2, 1, .stride 0x0, 0x2800054, .u32⟩,
   ⟨0x5003, 1, 0x0, 1, 1, .stride 0x0, 0x2800060, .u32⟩,
   ⟨0x5001, 1, 0x0, 1, 4, .stride 0x4, 0x2800040, .u32⟩,
   ⟨0x5003, 1, 0x0, 2, 1, .stride 0x0, 0x2800064, .u32⟩,
   ⟨0x5003, 1, 0x0, 3, 1, .stride 0x0, 0x2800068, .time96⟩,
   ⟨0x5003, 1, 0x0, 4, 1, .stride 0x0, 0x2800074, .u32⟩,
   ⟨0x5003, 1, 0x0, 5, 1, .stride 0x0, 0x2800078, .u32⟩,
   ⟨0x5003, 1, 0x0, 6, 1, .stride 0x0, 0x280007C, .u32⟩,
   ⟨0x5010, 1, 0x400, 1, 128, .stride 0x8, 0x2801000, .u64⟩,
   ⟨0x5011, 1, 0x400, 1, 128, .stride 0x8, 0x2801400, .u64⟩,
   ⟨0x5012, 1, 0x400, 1, 128, .stride 0x8, 0x2801800, .u64⟩,
   ⟨0x5020, 2, 0x400, 1, 128, .stride 0x8, 0x2802000, .u32⟩]

def objRows4 : List ObjRow :=
  [⟨0x5022, 2, 0x400, 1, 128, .stride 0x8, 0x2802004, .u32⟩,
   ⟨0x5100, 1, 0x0, 1, 32, .stride 0x40, 0x2810000, .u32⟩,
   ⟨0x5101, 1, 0x0, 1, 32, .stride 0x40, 0x2810004, .u32⟩,
   ⟨0x5102, 1, 0x0, 1, 32, .stride 0x40, 0x2810008, .u32⟩,
   ⟨0x5107, 1, 0x0, 1, 32, .stride 0x40, 0x281001C, .u32⟩,
   ⟨0x5108, 1, 0x0, 1, 32, .stride 0x40, 0x2810020, .u32⟩,
   ⟨0x5103, 1, 0x0, 1, 32, .stride 0x40, 0x281000C, .u32⟩,
   ⟨0x5104, 1, 0x0, 1, 32, .stride 0x40, 0x2810010, .u32⟩,
   ⟨0x5105, 1, 0x0, 1, 32, .stride 0x40, 0x2810014, .u32⟩,
   ⟨0x5106, 1, 0x0, 1, 32, .stride 0x40, 0x2810018, .u32⟩,
   ⟨0x5400, 32, 0x200, 1, 128, .stride 0x4, 0x2820000, .u32⟩,
   ⟨0x5420, 32, 0x200, 1, 128, .stride 0x4, 0x2824000, .u32⟩,
   ⟨0x5800, 1, 0x0, 1, 1, .stride 0x0, 0x2C00020, .u32⟩,
   ⟨0x5800, 1, 0x0, 2, 1, .stride 0x0, 0x2C00024, .u32⟩,
   ⟨0x5800, 1, 0x0, 3, 1, .stride 0x0, 0x2C00028, .u32⟩,
   ⟨0x5800, 1, 0x0, 4, 1, .stride 0x0, 0x2C0002C, .u32⟩,
   ⟨0x5800, 1, 0x0, 5, 1, .stride 0x0, 0x2C00030, .u32⟩,
   ⟨0x5800, 1, 0x0, 6, 1, .stride 0x0, 0x2C00034, .u32⟩,
   ⟨0x5800, 1, 0x0, 7, 1, .stride 0x0, 0x2C00038, .u32⟩,
   ⟨0x5800, 1, 0x0, 8, 1, .stride 0x0, 0x2C0003C, .u32⟩,
   ⟨0x5800, 1, 0x0, 9, 1, .stride 0x0, 0x2C00040, .u32⟩,
   ⟨0x5800, 1, 0x0, 10, 1, .stride 0x0, 0x2C00048, .u64⟩,
   ⟨0x5801, 1, 0x0, 1, 4, .stride 0x4, 0x2C00050, .u32⟩,
   ⟨0x5802, 1, 0x0, 1, 1, .stride 0x0, 0x2C00060, .u32⟩,
   ⟨0x5802, 1, 0x0, 2, 1, .stride 0x0, 0x2C00064, .u32⟩,
   ⟨0x5802, 1, 0x0, 3, 1, .stride 0x0, 0x2C00068, .u32⟩,
   ⟨0x5802, 1, 0x0, 4, 1, .stride 0x0, 0x2C0006C, .u32⟩,
   ⟨0x5802, 1, 0x0, 5, 1, .stride 0x0, 0x2C00070, .u32⟩,
   ⟨0x5803, 1, 0x0, 1, 8, .stride 0x4, 0x2C00080, .u32⟩,
   ⟨0x5804, 1, 0x0, 1, 64, .stride 0x4, 0x2C00100, .u32⟩,
   ⟨0x5805, 1, 0x0, 1, 64, .stride 0x4, 0x2C00200, .u32⟩,
   ⟨0x6602, 1, 0x0, 1, 1, .stride 0x0, 0x30A0000, .u32⟩,
   ⟨0x6600, 2, 0x200, 1, 128, .stride 0x4, 0x30A0100, .u32⟩,
   ⟨0x6F00, 1, 0x0, 1, 8, .stride 0x100000, 0x30C0000, .u32⟩,
   ⟨0x6F01, 1, 0x0, 1, 8, .stride 0x100000, 0x30C0004, .u32⟩,
   ⟨0x6F02, 1, 0x0, 1, 8, .stride 0x100000, 0x30C0008, .u32⟩,
   ⟨0x6F04, 1, 0x0, 1, 8, .stride 0x100000, 0x30C0010, .u32⟩,
   ⟨0x6F05, 1, 0x0, 1, 8, .stride 0x100000, 0x30C0014, .u32⟩,
   ⟨0x6F06, 1, 0x0, 1, 8, .stride 0x100000, 0x30C0018, .u32⟩,
   ⟨0x6F07, 1, 0x0, 1, 8, .stride 0x100000, 0x30C001C, .u32⟩]

def objRows5 : List ObjRow :=
  [⟨0x7000, 1, 0x0, 1, 1, .stride 0x0, 0x3800020, .u32⟩,
   ⟨0x7000, 1, 0x0, 2, 1, .stride 0x0, 0x3800024, .u32⟩,
   ⟨0x7000, 1, 0x0, 3, 1, .stride 0x0, 0x3800028, .u32⟩,
   ⟨0x7000, 1, 0x0, 4, 1, .stride 0x0, 0x380002C, .u32⟩,
   ⟨0x7000, 1, 0x0, 5, 1, .stride 0x0, 0x3800030, .u32⟩,
   ⟨0x7000, 1, 0x0, 6, 1, .stride 0x0, 0x3800034, .u32⟩,
   ⟨0x7000, 1, 0x0, 7, 1, .stride 0x0, 0x3800038, .u32⟩,
   ⟨0x7000, 1, 0x0, 8, 1, .stride 0x0, 0x380003C, .u32⟩,
   ⟨0x7001, 1, 0x0, 0, 1, .stride 0x0, 0x3800040, .u64⟩,
   ⟨0x7002, 1, 0x0, 0, 1, .stride 0x0, 0x3800048, .u64⟩,
   ⟨0x7000, 1, 0x0, 9, 1, .stride 0x0, 0x3800050, .u32⟩,
   ⟨0x7003, 1, 0x0, 1, 1, .stride 0x0, 0x3800054, .u32⟩,
   ⟨0x7003, 1, 0x0, 2, 1, .stride 0x0, 0x3800058, .u32⟩,
   ⟨0x7003, 1, 0x0, 3, 1, .stride 0x0, 0x380005C, .u32⟩,
   ⟨0x7003, 1, 0x0, 4, 1, .stride 0x0, 0x3800060, .u32⟩,
   ⟨0x7004, 1, 0x0, 1, 10, .stride 0x4, 0x3800080, .u32⟩,
   ⟨0x7005, 1, 0x0, 1, 8, .stride 0x4, 0x3800100, .u32⟩,
   ⟨0x7006, 1, 0x0, 1, 8, .stride 0x4, 0x3800120, .u32⟩,
   ⟨0x7100, 6, 0x200, 1, 128, .stride 0x4, 0x3801000, .u32⟩,
   ⟨0x7800, 1, 0x0, 1, 1, .stride 0x0, 0x3A00020, .u32⟩,
   ⟨0x7800, 1, 0x0, 2, 1, .stride 0x0, 0x3A00024, .u32⟩,
   ⟨0x7810, 8, 0x40, 1, 1, .stride 0x0, 0x3A00100, .u32⟩,
   ⟨0x7810, 8, 0x40, 2, 1, .stride 0x0, 0x3A00104, .u32⟩,
   ⟨0x7810, 8, 0x40, 3, 1, .stride 0x0, 0x3A00108, .u32⟩,
   ⟨0x7810, 8, 0x40, 4, 1, .stride 0x0, 0x3A0010C, .u32⟩,
   ⟨0x7810, 8, 0x40, 9, 1, .stride 0x0, 0x3A00120, .u32⟩,
   ⟨0x7810, 8, 0x40, 5, 4, .stride 0x4, 0x3A00110, .u32⟩,
   ⟨0x7820, 4, 0x1000, 1, 128, .stride 0x20, 0x3A10000, .u32⟩,
   ⟨0x7824, 4, 0x1000, 1, 128, .stride 0x20, 0x3A10004, .u32⟩,
   ⟨0x7838, 4, 0x1000, 1, 128, .stride 0x20, 0x3A10018, .u32⟩,
   ⟨0x783C, 4, 0x1000, 1, 128, .stride 0x20, 0x3A1001C, .u32⟩,
   ⟨0x7828, 4, 0x1000, 1, 128, .stride 0x20, 0x3A10008, .u32⟩,
   ⟨0x782C, 4, 0x1000, 1, 128, .stride 0x20, 0x3A1000C, .u32⟩,
   ⟨0x7830, 4, 0x1000, 1, 128, .stride 0x20, 0x3A10010, .u32⟩,
   ⟨0x7834, 4, 0x1000, 1, 128, .stride 0x20, 0x3A10014, .u32⟩,
   ⟨0x7840, 2, 0x1000, 1, 128, .stride 0x20, 0x3A01000, .u32⟩,
   ⟨0x7846, 2, 0x1000, 1, 128, .stride 0x20, 0x3A0100C, .u32⟩,
   ⟨0x7848, 2, 0x1000, 1, 128, .stride 0x20, 0x3A01010, .u32⟩,
   ⟨0x784A, 2, 0x1000, 1, 128, .stride 0x20, 0x3A01014, .u32⟩,
   ⟨0x7842, 2, 0x1000, 1, 128, .stride 0x20, 0x3A01004, .u32⟩]

def objRows6 : List ObjRow :=
  [⟨0x7844, 2, 0x1000, 1, 128, .stride 0x20, 0x3A01008, .u32⟩,
   ⟨0x7C00, 32, 0x1000, 1, 128, .stride 0x20, 0x3A40000, .u32⟩,
   ⟨0x7C20, 32, 0x1000, 1, 128, .stride 0x20, 0x3A40004, .u32⟩,
   ⟨0x7C40, 32, 0x1000, 1, 128, .stride 0x20, 0x3A40008, .u32⟩,
   ⟨0x7C60, 32, 0x1000, 1, 128, .stride 0x20, 0x3A4000C, .u32⟩,
   ⟨0x7C80, 32, 0x1000, 1, 128, .stride 0x20, 0x3A40010, .u32⟩,
   ⟨0x7CA0, 32, 0x1000, 1, 128, .stride 0x20, 0x3A40014, .u32⟩,
   ⟨0x7CC0, 32, 0x1000, 1, 128, .stride 0x20, 0x3A40018, .u32⟩,
   ⟨0x7CE0, 32, 0x1000, 1, 128, .stride 0x20, 0x3A4001C, .u32⟩,
   ⟨0x7880, 1, 0x0, 1, 1, .stride 0x0, 0x3A03000, .u32⟩,
   ⟨0x7880, 1, 0x0, 2, 1, .stride 0x0, 0x3A03004, .u32⟩,
   ⟨0x7880, 1, 0x0, 3, 1, .stride 0x0, 0x3A03008, .u32⟩,
   ⟨0x7880, 1, 0x0, 9, 1, .stride 0x0, 0x3A03020, .u32⟩,
   ⟨0x7880, 1, 0x0, 10, 1, .stride 0x0, 0x3A03024, .u32⟩,
   ⟨0x7880, 1, 0x0, 4, 5, .stride 0x4, 0x3A0300C, .u32⟩,
   ⟨0x7881, 1, 0x0, 1, 16, .stride 0x4, 0x3A03040, .u32⟩,
   ⟨0x8000, 1, 0x0, 1, 1, .stride 0x0, 0x3C00020, .u32⟩,
   ⟨0x8010, 2, 0x100, 1, 1, .stride 0x0, 0x3C00100, .u32⟩,
   ⟨0x8010, 2, 0x100, 2, 1, .stride 0x0, 0x3C00104, .u32⟩,
   ⟨0x8010, 2, 0x100, 3, 1, .stride 0x0, 0x3C00108, .u32⟩,
   ⟨0x8010, 2, 0x100, 4, 1, .stride 0x0, 0x3C0010C, .u32⟩,
   ⟨0x8010, 2, 0x100, 5, 1, .stride 0x0, 0x3C00110, .u32⟩,
   ⟨0x8010, 2, 0x100, 6, 1, .stride 0x0, 0x3C00114, .u32⟩,
   ⟨0x8010, 2, 0x100, 7, 1, .stride 0x0, 0x3C00118, .u32⟩,
   ⟨0x8010, 2, 0x100, 8, 1, .stride 0x0, 0x3C0011C, .u32⟩,
   ⟨0x8010, 2, 0x100, 9, 1, .stride 0x0, 0x3C00120, .u32⟩,
   ⟨0x8010, 2, 0x100, 10, 1, .stride 0x0, 0x3C00124, .u32⟩,
   ⟨0x8010, 2, 0x100, 15, 1, .stride 0x0, 0x3C00138, .u32⟩,
   ⟨0x8010, 2, 0x100, 16, 1, .stride 0x0, 0x3C0013C, .u32⟩,
   ⟨0x8010, 2, 0x100, 20, 1, .stride 0x0, 0x3C0014C, .u32⟩,
   ⟨0x8010, 2, 0x100, 25, 1, .stride 0x0, 0x3C00160, .u32⟩,
   ⟨0x8010, 2, 0x100, 11, 1, .stride 0x0, 0x3C00128, .u32⟩,
   ⟨0x8010, 2, 0x100, 12, 1, .stride 0x0, 0x3C0012C, .u32⟩,
   ⟨0x8010, 2, 0x100, 13, 1, .stride 0x0, 0x3C00130, .u32⟩,
   ⟨0x8010, 2, 0x100, 14, 1, .stride 0x0, 0x3C00134, .u32⟩,
   ⟨0x8010, 2, 0x100, 17, 1, .stride 0x0, 0x3C00140, .u32⟩,
   ⟨0x8010, 2, 0x100, 18, 1, .stride 0x0, 0x3C00144, .u32⟩,
   ⟨0x8010, 2, 0x100, 19, 1, .stride 0x0, 0x3C00148, .u32⟩,
   ⟨0x8010, 2, 0x100, 21, 4, .stride 0x4, 0x3C00150, .u32⟩,
   ⟨0x8040, 1, 0x0, 1, 16, .stride 0x20, 0x3C01000, .u32⟩]

def objRows7 : List ObjRow :=
  [⟨0x8048, 1, 0x0, 1, 16, .stride 0x20, 0x3C01200, .u32⟩,
   ⟨0x8041, 1, 0x0, 1, 16, .stride 0x20, 0x3C01004, .u32⟩,
   ⟨0x8049, 1, 0x0, 1, 16, .stride 0x20, 0x3C01204, .u32⟩,
   ⟨0x8042, 1, 0x0, 1, 16, .stride 0x20, 0x3C01008, .u32⟩,
   ⟨0x804A, 1, 0x0, 1, 16, .stride 0x20, 0x3C01208, .u32⟩,
   ⟨0x8043, 1, 0x0, 1, 16, .stride 0x20, 0x3C0100C, .u32⟩,
   ⟨0x804B, 1, 0x0, 1, 16, .stride 0x20, 0x3C0120C, .u32⟩,
   ⟨0x8044, 1, 0x0, 1, 16, .stride 0x20, 0x3C01010, .u32⟩,
   ⟨0x804C, 1, 0x0, 1, 16, .stride 0x20, 0x3C01210, .u32⟩,
   ⟨0x8100, 16, 0x400, 1, 1, .stride 0x0, 0x3C10000, .octets 1024⟩,
   ⟨0x8110, 16, 0x400, 1, 1, .stride 0x0, 0x3C14000, .octets 1024⟩,
   ⟨0x8030, 1, 0x0, 1, 1, .stride 0x0, 0x3C00400, .u32⟩,
   ⟨0x8030, 1, 0x0, 2, 1, .stride 0x0, 0x3C00404, .u32⟩,
   ⟨0x8030, 1, 0x0, 3, 1, .stride 0x0, 0x3C00408, .u32⟩,
   ⟨0x8030, 1, 0x0, 4, 1, .stride 0x0, 0x3C0040C, .u32⟩,
   ⟨0x8030, 1, 0x0, 11, 1, .stride 0x0, 0x3C00428, .u32⟩,
   ⟨0x8030, 1, 0x0, 12, 1, .stride 0x0, 0x3C00440, .u32⟩,
   ⟨0x8030, 1, 0x0, 5, 6, .stride 0x4, 0x3C00410, .i32⟩,
   ⟨0x8030, 1, 0x0, 13, 1, .stride 0x0, 0x3C00444, .u32⟩,
   ⟨0x8030, 1, 0x0, 14, 1, .stride 0x0, 0x3C00448, .u32⟩,
   ⟨0x8030, 1, 0x0, 15, 1, .stride 0x0, 0x3C0044C, .u32⟩,
   ⟨0x8030, 1, 0x0, 16, 1, .stride 0x0, 0x3C00450, .u32⟩,
   ⟨0x8030, 1, 0x0, 17, 1, .stride 0x0, 0x3C00454, .u32⟩,
   ⟨0x8030, 1, 0x0, 18, 1, .stride 0x0, 0x3C00458, .u32⟩,
   ⟨0x8400, 1, 0x0, 1, 1, .stride 0x0, 0x3D00020, .u32⟩,
   ⟨0x8400, 1, 0x0, 2, 1, .stride 0x0, 0x3D00024, .time96⟩,
   ⟨0x8400, 1, 0x0, 3, 1, .stride 0x0, 0x3D00040, .u32⟩,
   ⟨0x8400, 1, 0x0, 4, 1, .stride 0x0, 0x3D00044, .u32⟩,
   ⟨0x8400, 1, 0x0, 5, 1, .stride 0x0, 0x3D00048, .u32⟩,
   ⟨0x8400, 1, 0x0, 6, 1, .stride 0x0, 0x3D0004C, .u32⟩,
   ⟨0x8400, 1, 0x0, 7, 1, .stride 0x0, 0x3D00050, .u32⟩,
   ⟨0x8400, 1, 0x0, 8, 1, .stride 0x0, 0x3D00054, .u32⟩,
   ⟨0x8401, 1, 0x0, 1, 4, .stride 0x4, 0x3D00060, .u32⟩,
   ⟨0x8410, 1, 0x0, 1, 16, .stride 0x20, 0x3D00100, .u32⟩,
   ⟨0x8411, 1, 0x0, 1, 16, .stride 0x20, 0x3D00104, .u32⟩,
   ⟨0x8412, 1, 0x0, 1, 16, .stride 0x20, 0x3D00108, .u32⟩,
   ⟨0x8413, 1, 0x0, 1, 16, .stride 0x20, 0x3D0010C, .u32⟩,
   ⟨0x8414, 1, 0x0, 1, 16, .stride 0x20, 0x3D00110, .u32⟩,
   ⟨0x8415, 1, 0x0, 1, 16, .stride 0x20, 0x3D00114, .u32⟩,
   ⟨0x8416, 1, 0x0, 1, 16, .stride 0x20, 0x3D00118, .u32⟩]

def objRows8 : List ObjRow :=
  [⟨0x8417, 1, 0x0, 1, 16, .stride 0x20, 0x3D0011C, .u32⟩,
   ⟨0x8420, 1, 0x0, 1, 64, .stride 0x10, 0x3D00400, .u32⟩,
   ⟨0x8421, 1, 0x0, 1, 64, .stride 0x10, 0x3D00404, .u32⟩,
   ⟨0x8422, 1, 0x0, 1, 64, .stride 0x10, 0x3D00408, .u32⟩,
   ⟨0x8423, 1, 0x0, 1, 64, .stride 0x10, 0x3D0040C, .u32⟩,
   ⟨0x8430, 2, 0x800, 1, 128, .stride 0x10, 0x3D01000, .u32⟩,
   ⟨0x8432, 2, 0x800, 1, 128, .stride 0x10, 0x3D01004, .u32⟩,
   ⟨0x8434, 2, 0x800, 1, 128, .stride 0x10, 0x3D01008, .u32⟩,
   ⟨0x8440, 16, 0x100, 1, 64, .stride 0x4, 0x3D02000, .u32⟩,
   ⟨0x8450, 1, 0x200, 1, 128, .stride 0x4, 0x3D03000, .i32⟩,
   ⟨0x8451, 1, 0x400, 1, 128, .stride 0x8, 0x3D03200, .u32⟩,
   ⟨0x8452, 1, 0x400, 1, 128, .stride 0x8, 0x3D03204, .u32⟩,
   ⟨0x8800, 1, 0x0, 1, 1, .stride 0x0, 0x3E00020, .u32⟩,
   ⟨0x8800, 1, 0x0, 2, 1, .stride 0x0, 0x3E00024, .time96⟩,
   ⟨0x8800, 1, 0x0, 3, 1, .stride 0x0, 0x3E00030, .u32⟩,
   ⟨0x8800, 1, 0x0, 4, 1, .stride 0x0, 0x3E00034, .u32⟩,
   ⟨0x8800, 1, 0x0, 5, 1, .stride 0x0, 0x3E00038, .u32⟩,
   ⟨0x8800, 1, 0x0, 6, 1, .stride 0x0, 0x3E0003C, .u32⟩,
   ⟨0x8800, 1, 0x0, 7, 1, .stride 0x0, 0x3E00040, .u32⟩,
   ⟨0x8800, 1, 0x0, 8, 1, .stride 0x0, 0x3E00044, .u32⟩,
   ⟨0x8800, 1, 0x0, 9, 1, .stride 0x0, 0x3E00048, .u32⟩,
   ⟨0x8800, 1, 0x0, 10, 1, .stride 0x0, 0x3E0004C, .u32⟩,
   ⟨0x8800, 1, 0x0, 12, 1, .stride 0x0, 0x3E00058, .u32⟩,
   ⟨0x8800, 1, 0x0, 13, 1, .stride 0x0, 0x3E0005C, .u32⟩,
   ⟨0x8800, 1, 0x0, 11, 1, .stride 0x0, 0x3E00050, .u64⟩,
   ⟨0x8800, 1, 0x0, 14, 1, .stride 0x0, 0x3E00060, .u64⟩,
   ⟨0x8801, 1, 0x0, 1, 8, .stride 0x4, 0x3E00080, .u32⟩,
   ⟨0x8802, 1, 0x0, 1, 64, .stride 0x4, 0x3E00100, .u32⟩,
   ⟨0x8810, 1, 0x0, 1, 16, .stride 0x10, 0x3E00200, .u32⟩,
   ⟨0x8811, 1, 0x0, 1, 16, .stride 0x10, 0x3E00204, .u32⟩,
   ⟨0x8812, 1, 0x0, 1, 16, .stride 0x10, 0x3E00208, .u32⟩,
   ⟨0x1600, 1, 0x0, 1, 1, .stride 0x0, 0x300020, .u32⟩,
   ⟨0x1600, 1, 0x0, 2, 1, .stride 0x0, 0x300024, .u32⟩,
   ⟨0x1600, 1, 0x0, 3, 1, .stride 0x0, 0x300028, .u32⟩,
   ⟨0x1600, 1, 0x0, 4, 1, .stride 0x0, 0x30002C, .u32⟩,
   ⟨0x1600, 1, 0x0, 5, 1, .stride 0x0, 0x300030, .u32⟩,
   ⟨0x1600, 1, 0x0, 6, 1, .stride 0x0, 0x300034, .u32⟩,
   ⟨0x1600, 1, 0x0, 7, 1, .stride 0x0, 0x300038, .u32⟩,
   ⟨0x1610, 1, 0x0, 1, 16, .stride 0x4, 0x300100, .u32⟩,
   ⟨0x1620, 1, 0x0, 1, 4, .stride 0x4, 0x300200, .u32⟩]

def objRows9 : List ObjRow :=
  [⟨0x1630, 1, 0x0, 1, 2, .stride 0x10, 0x300300, .u32⟩,
   ⟨0x1631, 1, 0x0, 1, 2, .stride 0x10, 0x300304, .u32⟩,
   ⟨0x1632, 1, 0x0, 1, 2, .stride 0x10, 0x300308, .u32⟩,
   ⟨0x1800, 1, 0x0, 1, 1, .stride 0x0, 0x340020, .u32⟩,
   ⟨0x1800, 1, 0x0, 2, 1, .stride 0x0, 0x340024, .u32⟩,
   ⟨0x1800, 1, 0x0, 3, 1, .stride 0x0, 0x340028, .time96⟩,
   ⟨0x1800, 1, 0x0, 4, 1, .stride 0x0, 0x340034, .u32⟩,
   ⟨0x1800, 1, 0x0, 5, 1, .stride 0x0, 0x340038, .u32⟩,
   ⟨0x1800, 1, 0x0, 6, 1, .stride 0x0, 0x34003C, .u32⟩,
   ⟨0x1800, 1, 0x0, 7, 1, .stride 0x0, 0x340040, .u32⟩,
   ⟨0x1810, 1, 0x0, 0, 1, .stride 0x0, 0x340800, .octets 64⟩,
   ⟨0x1808, 1, 0x0, 1, 1, .stride 0x0, 0x340100, .u32⟩,
   ⟨0x1808, 1, 0x0, 2, 1, .stride 0x0, 0x340104, .u32⟩,
   ⟨0x1808, 1, 0x0, 3, 1, .stride 0x0, 0x340108, .u32⟩,
   ⟨0x1808, 1, 0x0, 4, 1, .stride 0x0, 0x34010C, .u32⟩,
   ⟨0x1809, 1, 0x0, 1, 28, .stride 0x4, 0x340200, .u32⟩,
   ⟨0x1820, 1, 0x0, 1, 1, .stride 0x0, 0x340400, .u32⟩,
   ⟨0x1820, 1, 0x0, 2, 1, .stride 0x0, 0x340404, .u32⟩,
   ⟨0x1820, 1, 0x0, 3, 1, .stride 0x0, 0x340408, .u32⟩,
   ⟨0x1820, 1, 0x0, 5, 1, .stride 0x0, 0x340418, .u32⟩,
   ⟨0x1820, 1, 0x0, 4, 1, .stride 0x0, 0x34040C, .time96⟩,
   ⟨0x1821, 1, 0x0, 1, 2, .stride 0x4, 0x340420, .u32⟩,
   ⟨0x1830, 2, 0x40, 1, 16, .stride 0x4, 0x340500, .u32⟩,
   ⟨0x1832, 2, 0x40, 1, 16, .stride 0x4, 0x340600, .u32⟩,
   ⟨0x1A00, 1, 0x0, 1, 1, .stride 0x0, 0x400020, .u32⟩,
   ⟨0x1A00, 1, 0x0, 2, 1, .stride 0x0, 0x400024, .u32⟩,
   ⟨0x1A00, 1, 0x0, 3, 1, .stride 0x0, 0x400028, .u32⟩,
   ⟨0x1A00, 1, 0x0, 4, 1, .stride 0x0, 0x40002C, .u32⟩,
   ⟨0x1A00, 1, 0x0, 5, 1, .stride 0x0, 0x400030, .u32⟩,
   ⟨0x1A00, 1, 0x0, 6, 1, .stride 0x0, 0x400034, .u32⟩,
   ⟨0x1A00, 1, 0x0, 7, 1, .stride 0x0, 0x400038, .u32⟩,
   ⟨0x1A00, 1, 0x0, 8, 1, .stride 0x0, 0x40003C, .u32⟩,
   ⟨0x1A00, 1, 0x0, 9, 1, .stride 0x0, 0x400040, .u32⟩,
   ⟨0x1A00, 1, 0x0, 10, 1, .stride 0x0, 0x400044, .u32⟩,
   ⟨0x1A00, 1, 0x0, 11, 1, .stride 0x0, 0x400048, .u32⟩,
   ⟨0x1A10, 1, 0x0, 1, 13, .stride 0x4, 0x400100, .u32⟩,
   ⟨0x1A40, 1, 0x0, 0, 1, .stride 0x0, 0x401000, .octets 256⟩,
   ⟨0x1A41, 1, 0x0, 0, 1, .stride 0x0, 0x401100, .octets 104⟩,
   ⟨0x1A42, 1, 0x0, 0, 1, .stride 0x0, 0x401200, .octets 100⟩,
   ⟨0x1A43, 1, 0x0, 0, 1, .stride 0x0, 0x401300, .octets 336⟩]

def objRows10 : List ObjRow :=
  [⟨0x1C00, 1, 0x0, 1, 1, .stride 0x0, 0x500020, .u32⟩,
   ⟨0x1C00, 1, 0x0, 2, 1, .stride 0x0, 0x500024, .u32⟩,
   ⟨0x1C00, 1, 0x0, 3, 1, .stride 0x0, 0x500028, .u32⟩,
   ⟨0x1C00, 1, 0x0, 4, 1, .stride 0x0, 0x50002C, .u32⟩,
   ⟨0x1C00, 1, 0x0, 5, 1, .stride 0x0, 0x500030, .i32⟩,
   ⟨0x1C00, 1, 0x0, 6, 1, .stride 0x0, 0x500034, .u32⟩,
   ⟨0x1C00, 1, 0x0, 7, 1, .stride 0x0, 0x500038, .i32⟩,
   ⟨0x1C00, 1, 0x0, 8, 1, .stride 0x0, 0x50003C, .u32⟩,
   ⟨0x1C00, 1, 0x0, 9, 1, .stride 0x0, 0x500040, .u32⟩,
   ⟨0x1C01, 1, 0x0, 1, 1, .stride 0x0, 0x500044, .u32⟩,
   ⟨0x1C01, 1, 0x0, 2, 1, .stride 0x0, 0x500048, .u32⟩,
   ⟨0x1C01, 1, 0x0, 3, 1, .stride 0x0, 0x50004C, .u32⟩,
   ⟨0x1C01, 1, 0x0, 4, 1, .stride 0x0, 0x500050, .u32⟩,
   ⟨0x1C01, 1, 0x0, 5, 1, .stride 0x0, 0x500054, .u32⟩,
   ⟨0x1C01, 1, 0x0, 6, 1, .stride 0x0, 0x500058, .u32⟩,
   ⟨0x1C02, 1, 0x0, 0, 1, .stride 0x0, 0x500060, .octets 16⟩,
   ⟨0x1C03, 1, 0x0, 1, 8, .stride 0x4, 0x500100, .u32⟩,
   ⟨0x6000, 0x70, 4, 1, 64, .tile, 0x3010000, .u32⟩,
   ⟨0x6800, 15, 4, 1, 128, .channel, 0x30C0100, .u32⟩]

/-- The objects that are views of register words. -/
def objRows : List ObjRow :=
  objRows0 ++ objRows1 ++ objRows2 ++ objRows3 ++ objRows4 ++ objRows5 ++ objRows6 ++ objRows7 ++ objRows8 ++ objRows9 ++ objRows10

/-- Row `r` names object `i`:`j`. -/
def ObjRow.names (r : ObjRow) (i j : Nat) : Bool :=
  decide (r.idx ≤ i) && decide (i < r.idx + r.nIdx) && decide (r.sub ≤ j) && decide (j < r.sub + r.nSub)

/-- The BAR0 offset of object `i`:`j` of row `r`. -/
def ObjRow.at (r : ObjRow) (i j : Nat) : Nat :=
  let k := j - r.sub
  r.off + (i - r.idx) * r.idxStride +
    (match r.map with
     | .stride n => k * n
     | .tile => k / 8 * 0x100000 + k % 8 * 0x10000
     | .channel => k / 16 * 0x100000 + k % 16 * 0x40)

/-- The header objects of R65: subindices 1 to 6 of the block's last index. -/
def hdrObj (i j : Nat) : Option Nat :=
  if 1 ≤ j ∧ j ≤ 6 then (allBlks.find? (fun b => decide (b.hdrIndex = i))).map (fun b => b.hdr + 4 * (j - 1)) else none

/-- An object that is a register view: its offset and type. -/
def regObj (i j : Nat) : Option (Nat × ObjTy) :=
  match hdrObj i j with
  | some o => some (o, .u32)
  | none => (objRows.find? (·.names i j)).map (fun r => (r.at i j, r.ty))

/-- The object has that index. -/
def objIndexExists (i : Nat) : Bool :=
  objRows.any (fun r => decide (r.idx ≤ i) && decide (i < r.idx + r.nIdx)) || allBlks.any (fun b => decide (b.hdrIndex = i))

/-- Subindex 0 of an array holds the count of its entries (00 R10, 02 R41). -/
def objCount (i : Nat) : Option Nat :=
  (objRows.find? (fun r => decide (r.idx ≤ i) && decide (i < r.idx + r.nIdx) && decide (1 < r.nSub) && decide (r.sub = 1))).map
    (·.nSub)

end Sys2Proof.Machine
end

