-- ==== Sys2Proof/Machine/Oap.lean ====
section
/-!
DEFINITION. The object dictionary as the control complex serves it, the Object Access Protocol, and the mailbox
(02_control_access.md R38 to R61, R78; 22 R642, R649).
-/
namespace Sys2Proof.Machine

/-- Right codes of DESCRIBE (R51). -/
inductive Right where
  | ro | rw | rwd | rwl | wo
deriving DecidableEq, Repr

def Right.code : Right → Nat
  | .ro => 0 | .rw => 1 | .rwd => 2 | .rwl => 3 | .wo => 4

/-- Who asks: the mailbox, or a session that is authenticated or not. -/
structure Asker where
  mailbox : Bool
  auth : Bool
deriving DecidableEq, Repr

/-- The outcome of an operation (R52): status, type code and data. -/
structure OpResult where
  status : Nat
  ty : Nat
  data : List Byte
deriving DecidableEq, Repr

def failed (st : Nat) : OpResult := ⟨st, 0, []⟩
def done : OpResult := ⟨0, 0, []⟩

/-! ### Objects held by the control complex (R46) -/

/-- Type and right of a control-complex object. -/
def ccObj (i j : Nat) : Option (ObjTy × Right) :=
  match i, j with
  | 0x1000, 0 => some (.u32, .ro)
  | 0x1001, 0 => some (.octets 16, .ro)
  | 0x1002, 0 => some (.u8, .ro)
  | 0x1003, 0 => some (.octets 16, .ro)
  | 0x1004, 1 => some (.u32, .ro)
  | 0x1004, 2 => some (.u8, .ro)
  | 0x1005, 0 => some (.u32, .ro)
  | 0x1006, 0 => some (.bool, .ro)
  | 0x1007, 0 => some (.u64, .ro)
  | 0x1010, 1 => some (.u32, .wo)
  | 0x1010, 2 => some (.u32, .wo)
  | 0x1100, 1 => some (.u32, .rw)
  | 0x1100, 2 => some (.u32, .rw)
  | 0x1100, 3 => some (.u32, .rw)
  | 0x1100, 4 => some (.bool, .rw)
  | 0x1101, 0 => some (.octets 16, .rw)
  | 0x1102, 0 => some (.u16, .rw)
  | 0x1103, 0 => some (.u32, .rw)
  | 0x1104, 0 => some (.bool, .rw)
  | 0x1105, 0 => some (.octets 32, .wo)
  | 0x1106, 0 => some (.u8, .ro)
  | 0x1107, 1 => some (.u32, .ro)
  | 0x1107, 2 => some (.u32, .ro)
  | 0x1107, 3 => some (.u32, .ro)
  | 0x1107, 4 => some (.u32, .ro)
  | _, _ => none

/-- The indices of R46. -/
def ccIndex (i : Nat) : Bool := (upto 5).any (fun j => (ccObj i j).isSome)

/-- The order code "WFA-9128-C0", or "WFA-9128-E0" for the extended grade, padded (R46, 00 R1). -/
def orderCode (e : Bool) : List Byte :=
  [0x57, 0x46, 0x41, 0x2D, 0x39, 0x31, 0x32, 0x38, 0x2D, if e then 0x45 else 0x43, 0x30, 0, 0, 0, 0, 0]

/-- The value of a control-complex object as bytes. -/
def State.ccRead (s : State) (i j : Nat) (ty : ObjTy) : List Byte :=
  match i with
  | 0x1001 => orderCode s.sec.extended
  | 0x1003 => serialBytes
  | 0x1007 => leBytes 8 (sumOf ((upto 64).map (fun t => b2n (s.fenced t) * 2 ^ t)))
  | 0x1106 => u8 s.ctl.sessions.length
  | _ => leBytes ty.size (s.obj i j)

/-- Minimum and maximum of a control-complex object (R46). -/
def ccRange (i j : Nat) : Nat × Nat :=
  match i, j with
  | 0x1100, 4 => (0, 1)
  | 0x1102, _ => (1024, 65535)
  | 0x1103, _ => (1000, 3600000)
  | 0x1104, _ => (0, 1)
  | _, _ => (0, 2 ^ 128 - 1)

/-- The lifecycle state permits a write of the network objects (22 R649). -/
def State.netMay (s : State) (a : Asker) : Bool :=
  let lc := s.get Reg.SEC_STAT_LC.z
  lc == 0 || lc == 1 || (lc == 2 && (a.mailbox || a.auth))

/-- … and one of OAP_KEY. -/
def State.keyMay (s : State) (a : Asker) : Bool :=
  let lc := s.get Reg.SEC_STAT_LC.z
  lc == 0 || lc == 1 || (lc == 2 && a.mailbox && !s.on Reg.SEC_CTRL_KEYLOCK.z)

/-- A STORE or an ERASE begins (R44). -/
def State.persist (s : State) (op : Option (Tbl Nat)) : State := { s with ctl := { s.ctl with persistOp := some op } }

/-- A write to a control-complex object whose type and length are right. -/
def State.ccWrite (s : State) (a : Asker) (i j : Nat) (d : List Byte) : State × OpResult :=
  let v := leNat d
  let net := le 0x1100 i && le i 0x1104
  if i = 0x1010 then
    if j = 1 ∧ v = 0x53415645 then (s.persist (some s.persistNow), done)
    else if j = 2 ∧ v = 0x44454641 then (s.persist none, done)
    else (s, failed 6)
  else if i = 0x1105 then
    bif s.keyMay a then
      ({ s with ctl := { s.ctl with oapKey := d ++ ((s.ctl.oapKey ++ zeros 32).take 32).drop d.length } }, done)
    else (s, failed 10)
  else bif net && !s.netMay a then (s, failed 10)
  else bif lt v (ccRange i j).1 || lt (ccRange i j).2 v then (s, failed 6)
  else
    let old := leBytes (match ccObj i j with
      | some (ty, _) => ty.size
      | none => 0) (s.obj i j)
    ({ s with ctl := { s.ctl with netPending := s.ctl.netPending ++ [(objKey i j, leNat (d ++ old.drop d.length))] } }, done)

/-! ### Objects that are views of registers (R43, R45) -/

/-- The fields of the words of an object. -/
def objFields (b : Blk) (o : Nat) (ty : ObjTy) : List Fld :=
  let n := match ty with
    | .u64 => 2
    | .time96 => 3
    | _ => 1
  (upto n).flatMap (fun k => fieldsAt b (o + 4 * k))

/-- The right of a register's object. -/
def objRight (b : Blk) (o : Nat) (ty : ObjTy) : Right :=
  if inHeader b o then (if o = b.hdr + 4 then .rw else if o = b.hdr + 8 then .rwl else .ro)
  else
    let fs := objFields b o ty
    let has (a : Acc) : Bool := fs.any (fun f => decide (f.acc = a))
    if has .rwd then .rwd else if has .rwl then .rwl else if has .rw || has .w1c then .rw else if has .wo then .wo else .ro

/-- The stated range of an object of one field, at bit 0 of its word; else what its type holds. -/
def objRange (b : Blk) (o : Nat) (ty : ObjTy) : Nat × Nat :=
  match objFields b o ty with
  | [f] => if f.lo = 0 ∧ f.w ≤ 32 then (f.mn, f.mx) else (0, 2 ^ (8 * ty.size) - 1)
  | _ => (0, 2 ^ (8 * ty.size) - 1)

/-- The offset an operation on the object reaches: the staged view of an rwd object of a banked block, unless LIVE is set (R43,
R51). -/
def objOffset (b : Blk) (o : Nat) (ty : ObjTy) (live : Bool) : Nat :=
  if b.banked ∧ objRight b o ty = .rwd ∧ live = false then o + b.half else o

/-- The bytes of the words at `o` in their view. -/
def State.viewBytes (s : State) (b : Blk) (o n : Nat) : List Byte :=
  ((upto (ceilDiv n 4)).flatMap (fun k => leBytes 4 (s.viewWord b (o + 4 * k)))).take n

/-- `k` register words from `o` on, each read as the control complex reads it. -/
def State.readWords (b : Blk) : Nat → Nat → State → State × List Byte
  | 0, _, s => (s, [])
  | k + 1, o, s =>
    let p := s.regRead .control b o
    let q := State.readWords b k (o + 4) p.1
    (q.1, leBytes 4 p.2.toNat ++ q.2)

/-- The value of a register's object; a value of two or three words is read coherently (R43, R71). -/
def State.objGet (s : State) (b : Blk) (o : Nat) (ty : ObjTy) (live : Bool) : State × List Byte :=
  let at_ := objOffset b o ty live
  match ty with
  | .u64 | .time96 =>
    let s := s.sense .control b o
    (s, s.viewBytes b at_ ty.size)
  | .octets n =>
    let p := State.readWords b (ceilDiv n 4) at_ s
    (p.1, p.2.take n)
  | _ =>
    let p := s.regRead .control b at_
    (p.1, leBytes ty.size p.2.toNat)

/-- A value of the type's size written to a register's object, one word after another; a value of two or three words is one
operation (R72). -/
def State.objPut (s : State) (a : Asker) (b : Blk) (at_ : Nat) (ty : ObjTy) (d : List Byte) : State :=
  let w (k : Nat) : Nat := leAt d (4 * k) 4
  match ty with
  | .u64 => (s.setHeld .control b (w 0)).regWrite .control a.mailbox b (at_ + 4) (w 1)
  | .time96 => (s.setHeld .control b (w 0 + w 1 * 2 ^ 32)).regWrite .control a.mailbox b (at_ + 8) (w 2)
  | .octets _ =>
    (upto (ceilDiv d.length 4)).foldl (fun s k =>
      let old := leBytes 4 (s.viewWord b (at_ + 4 * k))
      let new_ := (d.drop (4 * k)).take 4
      s.regWrite .control a.mailbox b (at_ + 4 * k) (leNat (new_ ++ old.drop new_.length))) s
  | _ => s.regWrite .control a.mailbox b at_ (leNat d)

/-- The word of the object whose access rules decide the write: the highest one. -/
def lastWord (at_ : Nat) (ty : ObjTy) : Nat :=
  match ty with
  | .u64 => at_ + 4
  | .time96 => at_ + 8
  | _ => at_

/-- A write to a register's object: refused with its status, or carried out; a register that refuses the value with BADACC
returns RANGE (R45, R52). -/
def State.objSet (s : State) (a : Asker) (b : Blk) (o : Nat) (ty : ObjTy) (d : List Byte) : State × OpResult :=
  let at_ := objOffset b o ty false
  let right := objRight b o ty
  let hi := lastWord at_ ty
  let r := objRange b o ty
  let wide := match ty with
    | .octets _ => true
    | _ => false
  let keys := Reg.SEC_KEYS_DATA.covers o && s.get Reg.SEC_STAT_LC.z != 0
  let held := match wordPlace (liveOff b hi) with
    | some (k, n) => lt (k + 1) n
    | none => false
  let why := bif held then 0 else s.ignores b hi
  bif !wide && (lt (leNat d) r.1 || lt r.2 (leNat d)) then (s, failed 6)
  else bif keys then (s, failed 10)
  else bif decide (right = .rwl) && s.on b.lock then (s.lockIgnored b hi s.now, failed 7)
  else bif why != 0 then (s.ignored b hi why, failed (bif why == 2 then 8 else 9))
  else bif at_ == b.badacc.off then (s.objPut a b at_ ty d, done)
  else
    let was := s.on b.badacc
    let t := (s.flag b.badacc false).objPut a b at_ ty d
    bif t.on b.badacc then (t, failed 6) else (t.flag b.badacc was, done)

/-! ### Which objects are served (R41, 22 R642, R648) -/

/-- The control complex answers: S05 is over (22 R642). -/
def State.answers (s : State) : Bool :=
  s.alive && (match s.sec.step with
    | none => true
    | some k => le 6 k)

/-- Index `i` is served: before S12, in SAFE and in RETIRED only the first windows and the security window are. -/
def State.serves (s : State) (i : Nat) : Bool :=
  (le 0x1000 i && le i 0x13FF) || (le 0x1A00 i && le i 0x1BFF) || (s.booted && s.get Reg.SEC_STAT_LC.z != 3)

/-- The register an object names, with its block. -/
def objPlace (i j : Nat) : Option (Blk × Nat × ObjTy) :=
  match regObj i j with
  | none => none
  | some (o, ty) => (blkAt o).map (fun b => (b, o, ty))

/-- Index `i` is assigned and served (R40, R41). -/
def State.known (s : State) (i : Nat) : Bool := s.serves i && (ccIndex i || objIndexExists i)

/-- Status `st`, or NO_OBJECT where the index is unassigned or not served (R40, R41). -/
def State.failedAt (s : State) (i st : Nat) : OpResult := failed (bif s.known i then st else 1)

/-- The status of a missing object (R40, R52): no such index, or no such subindex. -/
def State.missing (s : State) (i : Nat) : OpResult := s.failedAt i 2

/-- Subindex 0 of an array of objects (00 R10). -/
def countObj (i j : Nat) : Option Nat := if j = 0 then objCount i else none

/-! ### The operations (R51 to R53) -/

/-- READ. -/
def State.opRead (s : State) (live : Bool) (i j : Nat) : State × OpResult :=
  bif !s.serves i then (s, failed 1)
  else match ccObj i j, objPlace i j, countObj i j with
    | some (ty, r), _, _ => if r = .wo then (s, failed 4) else (s, ⟨0, ty.code, s.ccRead i j ty⟩)
    | none, some (b, o, ty), _ =>
      if objRight b o ty = .wo then (s, failed 4)
      else
        let p := s.objGet b o ty live
        (p.1, ⟨0, ty.code, p.2⟩)
    | none, none, some n => (s, ⟨0, ObjTy.u8.code, u8 n⟩)
    | none, none, none => (s, s.missing i)

/-- Type code and length match (R45). -/
def typeFits (t : ObjTy) (ty len : Nat) : Bool :=
  match t with
  | .octets n => ty == t.code && le 1 len && le len n
  | _ => ty == t.code && len == t.size

/-- A BOOL is 0 or 1, an F32 is no NaN (R42). -/
def valueFits (t : ObjTy) (d : List Byte) : Bool :=
  match t with
  | .bool => le (leNat d) 1
  | .f32 => le (leNat d % 2 ^ 31) 0x7F800000
  | _ => true

/-- WRITE. -/
def State.opWrite (s : State) (a : Asker) (i j ty : Nat) (d : List Byte) : State × OpResult :=
  bif !s.serves i then (s, failed 1)
  else match ccObj i j, objPlace i j, countObj i j with
    | some (t, r), _, _ =>
      if r = .ro then (s, failed 3)
      else if typeFits t ty d.length = false then (s, failed 5)
      else if valueFits t d = false then (s, failed 6)
      else s.ccWrite a i j d
    | none, some (b, o, t), _ =>
      if objRight b o t = .ro then (s, failed 3)
      else if typeFits t ty d.length = false then (s, failed 5)
      else if valueFits t d = false then (s, failed 6)
      else s.objSet a b o t d
    | none, none, some _ => (s, failed 3)
    | none, none, none => (s, s.missing i)

/-- READ_RANGE: the values of subindices `j` to `last`; the first failure is the outcome. A last subindex below the first names
no subindex of the range: NO_SUBINDEX (DESIGN CHOICE, log 58: R51 gives no status for it). -/
def State.opRange (s : State) (live : Bool) (i j last : Nat) : State × OpResult :=
  bif lt last j then (s, s.missing i)
  else (upto (last + 1 - j)).foldl (fun p k =>
    bif p.2.status != 0 then p
    else
      let q := p.1.opRead live i (j + k)
      bif q.2.status != 0 then (q.1, failed q.2.status) else (q.1, ⟨0, q.2.ty, p.2.data ++ q.2.data⟩)) (s, done)

/-- The per-input arrays (00 R10). -/
def perInput (i : Nat) : Bool :=
  [0x1410, 0x1411, 0x5010, 0x5011, 0x5012].contains i || (le 0x2010 i && le i 0x2017) || (le 0x3010 i && le i 0x3017)
    || (le 0x3410 i && le i 0x3415) || (le 0x8450 i && le i 0x8452)

/-- A persistent object (R44, R46). -/
def persistent (i j : Nat) : Bool :=
  persistObjs.contains (objKey i j) || (match regObj i j with
    | some (o, _) => persistWords.contains o || Reg.MEM_RANK_STATE.covers o
    | none => false)

/-- A value of 8 bytes in DESCRIBE: sign-extended for I16 and I32, 0 for TIME96 (R51). -/
def describeValue (ty : ObjTy) (v : Nat) : List Byte :=
  match ty with
  | .i16 => leBytes 8 (toU 64 (sext 16 v))
  | .i32 => leBytes 8 (toU 64 (sext 32 v))
  | .time96 => zeros 8
  | .octets _ => zeros 8
  | _ => leBytes 8 v

/-- The stated limits of a type without a range of its own. -/
def typeLimits (ty : ObjTy) (r : Nat × Nat) : Nat × Nat :=
  match ty with
  | .bool => (0, 1)
  | .i16 => if r = (0, 2 ^ 16 - 1) then (2 ^ 15, 2 ^ 15 - 1) else r
  | .i32 => if r = (0, 2 ^ 32 - 1) then (2 ^ 31, 2 ^ 31 - 1) else r
  | .octets n => (0, n)
  | _ => (r.1, min r.2 (2 ^ (8 * ty.size) - 1))

/-- The 32 bytes of DESCRIBE (R51). -/
def describeBytes (ty : ObjTy) (r : Right) (flags off : Nat) (dflt : Nat) (lim : Nat × Nat) : List Byte :=
  let mx := match ty with
    | .octets n => leBytes 8 n
    | _ => describeValue ty lim.2
  u8 ty.code ++ u8 r.code ++ u8 flags ++ zeros 1 ++ u32 off ++ describeValue ty dflt ++ describeValue ty lim.1 ++ mx

/-- DESCRIBE. -/
def State.opDescribe (s : State) (i j : Nat) : State × OpResult :=
  bif !s.serves i then (s, failed 1)
  else match ccObj i j, objPlace i j, countObj i j with
    | some (ty, r), _, _ =>
      (s, ⟨0, ty.code, describeBytes ty r (b2n (persistent i j) + 8) 0xFFFFFFFF (objDefault (objKey i j)) (typeLimits ty (ccRange i j))⟩)
    | none, some (b, o, ty), _ =>
      let tv := (objFields b o ty).any (·.tv)
      let dflt := sumOf ((upto (ceilDiv (min 8 ty.size) 4)).map (fun k => (resetWord (o + 4 * k)).toNat * 2 ^ (32 * k)))
      let flags := b2n (persistent i j) + 2 * b2n tv + 4 * b2n (perInput i)
      (s, ⟨0, ty.code, describeBytes ty (objRight b o ty) flags o dflt (typeLimits ty (objRange b o ty))⟩)
    | none, none, some n => (s, ⟨0, ObjTy.u8.code, describeBytes .u8 .ro (4 * b2n (perInput i)) 0xFFFFFFFF n (n, n)⟩)
    | none, none, none => (s, s.missing i)

/-- One operation of a request (R51). -/
structure OapOp where
  code : Nat
  status : Nat
  idx : Nat
  sub : Nat
  ty : Nat
  data : List Byte
  pad : List Byte
deriving DecidableEq, Repr

/-- The subscription of session `sid` (R51, R59); the mailbox receives no notification. -/
def State.opSubscribe (s : State) (sid : Nat) (mask : List Byte) : State × OpResult :=
  ({ s with ctl := { s.ctl with sessions := s.ctl.sessions.map (fun x =>
      if x.id = sid ∧ sid ≠ 0 then { x with subs := leNat mask } else x) } }, done)

/-- One operation runs; `sid` is its session. -/
def State.opRun (s : State) (a : Asker) (sid : Nat) (op : OapOp) : State × OpResult :=
  let live := bit op.code 7
  let c := op.code % 64
  let bad := bit op.code 6 || op.status != 0 || op.pad.any (· != 0) || (live && c != 1 && c != 3)
  let n := op.data.length
  bif bad then (s, failed 12)
  else match c with
    | 1 => bif n != 0 then (s, s.failedAt op.idx 5) else s.opRead live op.idx op.sub
    | 2 => s.opWrite a op.idx op.sub op.ty op.data
    | 3 =>
      bif n != 1 && n != 4 then (s, s.failedAt op.idx 5)
      else bif (op.data.drop 1).any (· != 0) then (s, failed 12)
      else s.opRange live op.idx op.sub (leAt op.data 0 1)
    | 4 => bif n != 0 then (s, s.failedAt op.idx 5) else s.opDescribe op.idx op.sub
    | 5 =>
      bif op.idx != 0 || op.sub != 0 then (s, failed 12) else bif n != 64 then (s, failed 5) else s.opSubscribe sid op.data
    | _ => (s, failed 12)

/-- The operations of a body, each with its data padded to a multiple of 4 bytes; none where the body ends inside one. -/
def parseOps : Nat → List Byte → Option (List OapOp)
  | 0, _ => none
  | fuel + 1, bs =>
    if bs = [] then some []
    else if bs.length < 8 then none
    else
      let n := leAt bs 6 2
      let m := ceilDiv n 4 * 4
      if bs.length < 8 + m then none
      else (parseOps fuel (bs.drop (8 + m))).map (fun l =>
        ⟨leAt bs 0 1, leAt bs 1 1, leAt bs 2 2, leAt bs 4 1, leAt bs 5 1, (bs.drop 8).take n, (bs.drop (8 + n)).take (m - n)⟩ :: l)

/-- The operations that can be read from a body that is not well formed. -/
def parseSome : Nat → List Byte → List OapOp
  | 0, _ => []
  | fuel + 1, bs =>
    if bs.length < 8 then []
    else
      let m := ceilDiv (leAt bs 6 2) 4 * 4
      ⟨leAt bs 0 1, 0, leAt bs 2 2, leAt bs 4 1, leAt bs 5 1, [], []⟩ :: parseSome fuel (bs.drop (8 + m))

/-- An operation of a response (R51). -/
def opResponse (op : OapOp) (r : OpResult) : List Byte :=
  let n := r.data.length
  u8 op.code ++ u8 r.status ++ u16 op.idx ++ u8 op.sub ++ u8 (if r.status = 0 ∧ n ≠ 0 then r.ty else op.ty) ++ u16 n
    ++ r.data ++ zeros (ceilDiv n 4 * 4 - n)

/-- The outcome of an operation whose response has `room` bytes for data; one that does not fit returns RANGE (DESIGN CHOICE, log
58: R49 bounds the body and gives no status for it). -/
def OpResult.fit (r : OpResult) (room : Nat) : OpResult := bif lt room (ceilDiv r.data.length 4 * 4) then failed 6 else r

/-- What a response has come to: its bytes, whether an operation has failed, and the operations still to run. -/
structure Answer where
  bytes : List Byte
  bad : Bool
  left : Nat
deriving DecidableEq, Repr

/-- One more operation has the outcome `r`; the body holds at most `most` bytes, and keeps 8 for each operation to come (R49). -/
def Answer.add (x : Answer) (most : Nat) (op : OapOp) (r : OpResult) : Answer :=
  let r := r.fit (most - x.bytes.length - 8 * x.left)
  ⟨x.bytes ++ opResponse op r, x.bad || r.status != 0, x.left - 1⟩

/-- The operations of a request run in order; with STOP_ON_ERROR those after the first failure return NOT_EXECUTED (R53). -/
def State.runOps (s : State) (a : Asker) (sid : Nat) (stop : Bool) (most : Nat) (ops : List OapOp) : State × List Byte :=
  let p := ops.foldl (fun (p : State × Answer) op =>
    bif stop && p.2.bad then (p.1, p.2.add most op (failed 11))
    else
      let q := p.1.opRun a sid op
      (q.1, p.2.add most op q.2)) (s, ⟨[], false, ops.length⟩)
  (p.1, p.2.bytes)

/-! ### Datagrams (R49, R50, R58) -/

/-- A datagram's header, body and trailer. -/
structure Dgram where
  type : Nat
  flags : Nat
  count : Nat
  sid : Nat
  seq : Nat
  ack : Nat
  gen : Nat
  body : List Byte
  signed : List Byte
  trailer : List Byte
deriving DecidableEq, Repr

/-- A datagram whose header and lengths are right (R49, R50); `most` is the largest body. -/
def parseDgram (most : Nat) (bs : List Byte) : Option Dgram :=
  let len := leAt bs 24 4
  let flags := leAt bs 4 2
  let auth := bit flags 0
  let good := le 32 bs.length && leAt bs 0 2 == 0x4F57 && leAt bs 2 1 == 1 && le 1 (leAt bs 3 1) && le (leAt bs 3 1) 8
    && lt flags 8 && leAt bs 28 4 == 0 && le len most && bs.length == 32 + len + (bif auth then 32 else 0)
  if good then
    some ⟨leAt bs 3 1, flags, leAt bs 6 2, leAt bs 8 4, leAt bs 12 4, leAt bs 16 4, leAt bs 20 4, (bs.drop 32).take len,
          bs.take (32 + len), bs.drop (32 + len)⟩
  else none

/-- A datagram of the engine; `key` signs it (R50, R58). -/
def State.dgram (s : State) (key : Option (List Byte)) (type count sid seq ack : Nat) (body : List Byte) : List Byte :=
  let m := u16 0x4F57 ++ u8 1 ++ u8 type ++ u16 (b2n key.isSome + 4 * s.obj 0x1006 0) ++ u16 count ++ u32 sid ++ u32 seq
    ++ u32 ack ++ u32 (s.obj 0x1005 0) ++ u32 body.length ++ zeros 4 ++ body
  match key with
  | some k => m ++ hmac256 k m
  | none => m

/-- REJECT (R56): its acknowledge number, and the expected number where there is no session, are free. -/
def State.reject (s : State) (key : Option (List Byte)) (d : Dgram) (reason : Nat) (e : Option Nat) : State × List Byte :=
  let ack := s.free 32
  let s := s.took
  let ex := e.getD (s.free 32)
  let s := s.took
  (s, s.dgram key 8 0 d.sid d.seq ack (u32 reason ++ u32 ex))

def State.session (s : State) (sid : Nat) : Option Session := s.ctl.sessions.find? (fun x => decide (x.id = sid))
def State.setSession (s : State) (x : Session) : State :=
  { s with ctl := { s.ctl with sessions := s.ctl.sessions.map (fun y => if y.id = x.id then x else y) } }
def Session.keyOf (x : Session) : Option (List Byte) := if x.auth then some x.key else none

/-- A management datagram leaves from the address and port in force (R47): IP4_ADDR or, to an IPv6 host, IP6_ADDR, and OAP_PORT. -/
def State.sendDgram (s : State) (addr port : Nat) (m : List Byte) : State :=
  s.emit (.datagram (if addr < 2 ^ 32 then s.obj 0x1100 1 else s.obj 0x1101 0) (s.obj 0x1102 0) addr port m)
def State.sendTo (s : State) (x : Session) (m : List Byte) : State := s.sendDgram x.addr x.port m

/-- A session closes (R57): EV008. -/
def State.closeSession (s : State) (sid : Nat) : State :=
  match s.session sid with
  | some _ => { s with ctl := { s.ctl with sessions := s.ctl.sessions.filter (fun x => decide (x.id ≠ sid)) } }.ev 8
  | none => s

/-- A malformed datagram is dropped: OAP_SPOIL:01 and EV006 (R49). -/
def State.dropBad (s : State) : State := (s.oapSpoil 1 1).ev 6
/-- A datagram that does not verify is dropped: OAP_SPOIL:02 and EV007 (R58). -/
def State.dropAuth (s : State) : State := (s.oapSpoil 2 1).ev 7

/-- The trailer verifies under the session's key; a session without AUTH takes no trailer (R58). -/
def verified (x : Session) (d : Dgram) : Bool :=
  if x.auth then bit d.flags 0 && d.trailer == hmac256 x.key d.signed else !bit d.flags 0

/-- `a` is at or before `b` (R54). -/
def seqUpTo (a b : Nat) : Bool := a == b || serialBefore 32 a b

/-- Notifications up to number `n` are acknowledged (R54, R59). -/
def Session.acked (x : Session) (n : Nat) : Session := { x with window := x.window.filter (fun w => !seqUpTo w.num n) }

/-- What a request with number `n` meets (R55): execution, a cached response, or a rejection. A number at most 8 behind for which
no response is cached (a session that has answered fewer requests) is rejected as out of sequence (DESIGN CHOICE, log 58: R55
names no response to resend). -/
inductive SeqCase where
  | fresh
  | again (response : List Byte)
  | out
deriving DecidableEq, Repr

def seqCase (e n : Nat) (cache : List (Nat × List Byte)) : SeqCase :=
  let d := (e + 2 ^ 32 - n) % 2 ^ 32
  if d = 0 then .fresh
  else if d ≤ 8 then
    match cache.find? (fun c => decide (c.1 = n)) with
    | some c => .again c.2
    | none => .out
  else .out

/-- A session that has answered request `seq` with `m`. -/
def Session.answered (y : Session) (seq : Nat) (m : List Byte) : Session :=
  { y with expected := (seq + 1) % 2 ^ 32, cache := ((seq, m) :: y.cache).take 8 }

/-- A REJECT is sent. -/
def State.oapReject (s : State) (addr port : Nat) (key : Option (List Byte)) (d : Dgram) (reason : Nat) (e : Option Nat) : State :=
  let p := s.reject key d reason e
  p.1.sendDgram addr port p.2

/-- A request of session `x` whose sequence number is out of the window. -/
def State.oapOut (s : State) (addr port : Nat) (x : Session) (d : Dgram) : State :=
  let p := s.reject x.keyOf d 1 (some x.expected)
  ((p.1.oapSpoil 3 1).ev 6).sendDgram addr port p.2

/-- A new request of session `x` runs. -/
def State.oapFresh (s : State) (addr port : Nat) (x : Session) (d : Dgram) (ops : List OapOp) : State :=
  let p := s.runOps ⟨false, x.auth⟩ x.id (bit d.flags 1) 1388 ops
  let m := p.1.dgram x.keyOf 2 ops.length x.id d.seq d.seq p.2
  match p.1.session d.sid with
  | none => p.1.sendDgram addr port m
  | some y => (p.1.setSession (y.answered d.seq m)).sendDgram addr port m

/-- A verified request of session `x` is answered again, refused or run. -/
def State.oapTake (s : State) (addr port : Nat) (x : Session) (d : Dgram) (ops : List OapOp) : SeqCase → State
  | .again m => s.sendDgram addr port m
  | .out => s.oapOut addr port x d
  | .fresh => s.oapFresh addr port x d ops

/-- A REQUEST in session `x` (R53 to R56, R58). -/
def State.oapRequest (s : State) (addr port : Nat) (d : Dgram) : State :=
  match parseOps 2048 d.body with
  | none => s.dropBad
  | some ops =>
    bif ops.length != d.count then s.dropBad
    else match s.session d.sid with
      | none =>
        s.oapReject addr port none d (if d.gen = s.obj 0x1005 0 then 2 else 3) none
      | some x =>
        bif !verified x d then s.dropAuth
        else bif d.gen != s.obj 0x1005 0 then
          s.oapReject addr port x.keyOf d 3 (some x.expected)
        else
          (s.setSession (x.acked d.ack)).oapTake addr port (x.acked d.ack) d ops
            (seqCase (x.acked d.ack).expected d.seq (x.acked d.ack).cache)

/-- A new session identifier: a free value, moved on past 0 and the identifiers of open sessions. -/
def newSid (l : List Session) (v : Nat) : Nat :=
  ((upto 10).map (fun k => (v + k) % 2 ^ 32)).find? (fun n => n != 0 && !l.any (fun x => x.id == n)) |>.getD 1

/-- An OPEN (R57, R58). -/
def State.oapOpen (s : State) (addr port : Nat) (d : Dgram) : State :=
  let auth := bit d.flags 0
  let opens := s.ctl.opens.filter (fun o => le s.ctl.uptime (o.at_ + 2 ^ 48))
  let rej (r : Nat) : State :=
    let p := s.reject none d r none
    p.1.sendDgram addr port p.2
  bif d.count != 0 || d.sid != 0 || d.body.length != (bif auth then 16 else 0) then s.dropBad
  else bif auth && d.trailer != hmac256 s.ctl.oapKey d.signed then s.dropAuth
  else bif !auth && s.obj 0x1104 0 == 1 then rej 5
  else match opens.find? (fun o => decide (o.addr = addr) && decide (o.port = port) && decide (o.seq = d.seq)) with
    | some o => s.sendDgram addr port o.ack
    | none =>
      bif le 8 s.ctl.sessions.length then rej 4
      else
        let sid := newSid s.ctl.sessions (s.free 32)
        let s := s.took
        let first := s.free 32
        let s := s.took
        let ack := s.free 32
        let s := s.took
        let nonce := leBytes 16 (s.free 128)
        let s := bif auth then s.took else s
        let m := s.dgram (if auth then some s.ctl.oapKey else none) 6 0 sid d.seq ack (u32 first ++ (if auth then nonce else []))
        let x : Session :=
          { id := sid, addr := addr, port := port, expected := (d.seq + 1) % 2 ^ 32, cache := [], subs := 0, notifyNo := first,
            window := [], held := [], auth := auth, key := if auth then hmac256 s.ctl.oapKey (d.body ++ nonce) else [] }
        let s := { s with ctl := { s.ctl with sessions := s.ctl.sessions ++ [x],
                                              opens := ⟨addr, port, d.seq, s.ctl.uptime, m⟩ :: opens } }
        (s.sendDgram addr port m).ev 8

/-- A CLOSE or a NOTIFY_ACK of a session (R54, R57 to R59). One that names no open session has no effect and no answer (DESIGN
CHOICE, log 58: R56 rejects requests and OPENs). -/
def State.oapShort (s : State) (d : Dgram) (f : State → Session → State) : State :=
  bif d.count != 0 || !d.body.isEmpty then s.dropBad
  else match s.session d.sid with
    | none => s
    | some x => bif verified x d then f s x else s.dropAuth

/-- A datagram arrives at the management port (R49); the types only the engine sends are malformed. -/
def State.datagramIn (s : State) (addr port : Nat) (bs : List Byte) : State :=
  bif !s.answers then s
  else match parseDgram 1388 bs with
    | none => s.dropBad
    | some d => match d.type with
      | 1 => s.oapRequest addr port d
      | 4 => bif d.seq != 0 then s.dropBad else s.oapShort d (fun s x => s.setSession (x.acked d.ack))
      | 5 => s.oapOpen addr port d
      | 7 => s.oapShort d (fun s x => s.closeSession x.id)
      | _ => s.dropBad

/-! ### Notifications (R59, R78) -/

/-- The 16-byte entry of event `n`. -/
def State.notifyEntry (s : State) (n : Nat) : List Byte := u16 n ++ u16 (s.get (evCnt n)) ++ u96 (s.evTag n)

/-- A NOTIFY as it is sent, each time under the request number expected then. -/
def State.notifyDgram (s : State) (x : Session) (w : Notice) : List Byte :=
  s.dgram x.keyOf 3 w.count x.id w.num ((x.expected + 2 ^ 32 - 1) % 2 ^ 32) w.body

/-- The entries held for a session leave in one NOTIFY, at most 86 of them, while fewer than 8 are outstanding. -/
def State.notify (s : State) (sid : Nat) : State :=
  match s.session sid with
  | none => s
  | some x =>
    bif x.held.isEmpty || le 8 x.window.length then s
    else
      let es := x.held.take 86
      let w : Notice := ⟨x.notifyNo, es.flatMap s.notifyEntry, es.length, 1⟩
      let y := { x with held := x.held.drop 86, notifyNo := (x.notifyNo + 1) % 2 ^ 32, window := x.window ++ [w] }
      (s.setSession y).sendTo y (s.notifyDgram y w)

/-- An unacknowledged NOTIFY is sent again; after 10 sends the session closes. Its entries are those of its first sending, with the
CNT of then; only the acknowledge number is that of the new sending (DESIGN CHOICE, log 58: R59 and R78 leave it open). -/
def State.renotify (s : State) (sid num : Nat) : State :=
  match s.session sid with
  | none => s
  | some x => match x.window.find? (fun w => decide (w.num = num)) with
    | none => s
    | some w =>
      bif le 10 w.sends then s.closeSession sid
      else
        let w := { w with sends := w.sends + 1 }
        let y := { x with window := x.window.map (fun v => if v.num = num then w else v) }
        (s.setSession y).sendTo y (s.notifyDgram y w)

/-! ### The mailbox (R60, R61) -/

/-- The mailbox has answered request `seq` with `m`. -/
def State.mbxKeep (s : State) (seq : Nat) (m : List Byte) : State :=
  { s with ctl := { s.ctl with mbxExpected := some ((seq + 1) % 2 ^ 32), mbxCache := ((seq, m) :: s.ctl.mbxCache).take 8 } }

/-- A malformed mailbox request: EV011 and a response that fails every request it holds. -/
def State.mbxBad (s : State) (bs : List Byte) : State × List Byte :=
  let ops := parseSome 512 (bs.drop 32)
  (s.ev 11, s.dgram none 2 ops.length 0 (leAt bs 12 4) (leAt bs 12 4) (ops.flatMap (fun o => opResponse o (failed 12))))

/-- A mailbox request whose sequence number is out of the window. -/
def State.mbxOut (s : State) (d : Dgram) : State × List Byte :=
  let p := s.reject none d 1 s.ctl.mbxExpected
  ((p.1.oapSpoil 3 1).ev 6, p.2)

/-- A new mailbox request runs. -/
def State.mbxFresh (s : State) (d : Dgram) (ops : List OapOp) : State × List Byte :=
  let p := s.runOps ⟨true, false⟩ 0 (bit d.flags 1) 4064 ops
  let m := p.1.dgram none 2 ops.length 0 d.seq d.seq p.2
  (p.1.mbxKeep d.seq m, m)

/-- A request of the mailbox: the state after it and the response. -/
def State.mbxRun (s : State) (bs : List Byte) : State × List Byte :=
  match parseDgram 4064 bs with
  | none => s.mbxBad bs
  | some d => match parseOps 2048 d.body with
    | none => s.mbxBad bs
    | some ops =>
      bif d.type != 1 || bit d.flags 0 || d.sid != 0 || ops.length != d.count then s.mbxBad bs
      else bif d.gen != s.obj 0x1005 0 then s.reject none d 3 s.ctl.mbxExpected
      else match seqCase (s.ctl.mbxExpected.getD d.seq) d.seq s.ctl.mbxCache with
        | .again m => (s, m)
        | .out =>
          s.mbxOut d
        | .fresh =>
          s.mbxFresh d ops

/-- A write of MBX_CTRL: LEN bytes of the request buffer are executed; the response waits until the request has finished. -/
def State.mbxStart (s : State) (len : Nat) : State :=
  bif s.on Reg.MBX_STATUS_BUSY.z then (s.flag Reg.MBX_STATUS_OVR.z true).ev 11
  else bif !s.answers then s
  else
    let p := s.mbxRun (s.octets Reg.MBX_REQ_DATA 0 (min len 4096))
    ({ p.1 with ctl := { p.1.ctl with mbxResponse := some p.2 } }).flag Reg.MBX_STATUS_BUSY.z true

/-- The mailbox and the MSI-X table of the PCIe function return to their reset values. -/
def pcieWord (o : Nat) : Bool := (le 0x1000 o && lt o 0x4000) || (le 0x80000 o && lt o 0x90000)

/-- The PCIe registers and the mailbox are as after reset. -/
def State.flrClear (s : State) : State :=
  { s with regs := s.regs.filter (fun e => !pcieWord e.1),
           ctl := { s.ctl with mbxExpected := none, mbxCache := [], mbxResponse := none, mbxDiscard := false,
                               readShadow := s.ctl.readShadow.filter (fun e => le 64 e.1),
                               writeShadow := s.ctl.writeShadow.filter (fun e => le 64 e.1) } }

/-- A function-level reset takes effect (22 R640): mailbox, host rings, BAR0 shadows, BAR0's locks, and the MSI-X table. -/
def State.flr (s : State) : State :=
  (s.flrClear.ringsStop).lockAbandon 64

/-- The response is written, or discarded where a function-level reset has arrived (R61). -/
def State.mbxDone (s : State) : State :=
  match s.ctl.mbxResponse with
  | none => s
  | some m =>
    let s := { s with ctl := { s.ctl with mbxResponse := none } }.flag Reg.MBX_STATUS_BUSY.z false
    bif s.ctl.mbxDiscard then s.flr
    else
      let s := (upto (ceilDiv m.length 4)).foldl (fun s k =>
        s.setWord (Reg.MBX_RESP_DATA.e k).off (BitVec.ofNat 32 (leAt m (4 * k) 4))) s
      ((s.put Reg.MBX_STATUS_RLEN.z m.length).flag Reg.MBX_STATUS_DONE.z true).ev 10

end Sys2Proof.Machine
end

