-- ==== Sys2Proof/Machine/Control.lean ====
section
/-!
DEFINITION. The commands of 02_control_access.md: register accesses, triple-voted fields, events, OAP, the persistent set, the
mailbox and the PCIe function-level reset; and the debug port's accesses (22_start_security_debug.md R658, R659).
-/
namespace Sys2Proof.Machine

/-! ### Accesses -/

/-- A write of an aligned word; MBX_CTRL starts the mailbox (R61). -/
def State.busWrite (s : State) (r : Requester) (o : Nat) (v : Word) : State :=
  bif o == Reg.MBX_CTRL_LEN.off then s.mbxStart (bits v.toNat 0 13) else s.wordWrite r false o v

/-- REGISTER_WRITE (R62, R66): an aligned 32-bit write of requester `r`; any other offset is a malformed access. -/
def execRegisterWrite (r : Requester) (o : Nat) (v : Word) (s : State) : Res :=
  .next <| bif !s.alive then s
    else bif o % 4 != 0 then s.badAccess (blkAt o) s.now
    else s.busWrite r o v

/-- An access of `n` bytes has a size BAR0 does not take, is not aligned to it, or is a write narrower than 32 bits (R62). -/
def badShape (write : Bool) (o n : Nat) : Bool := !([1, 2, 4, 8].contains n) || o % n != 0 || (write && lt n 4)

/-- An access of `n` bytes at offset `o` is malformed as a whole (R62): of a bad shape, or outside every register. One of 64
bits is two accesses of 32 bits, each of which is judged for itself. -/
def State.malformed (s : State) (write : Bool) (o n : Nat) : Bool :=
  badShape write o n || (n != 8 && (match s.window (o / 4 * 4) with
    | none => true
    | some b => !isReg b (o / 4 * 4)))

/-- The `n` bytes at offset `o` of a word that was read whole. -/
def narrow (o n : Nat) (w : Word) : Word := BitVec.ofNat 32 (bits w.toNat (8 * (o % 4)) (8 * n))

/-- A 32-bit read and the word it returns to its requester. -/
def State.readBack (s : State) (r : Requester) (o : Nat) (f : Word → Word) : State :=
  let p := s.busRead r o
  p.1.emit (.readData r (f p.2))

/-- RL_READ (R62, R71): an aligned 32-bit read of requester `r`, with what it returns. -/
def execRlRead (r : Requester) (o : Nat) (s : State) : Res :=
  .next <| bif !s.alive then s
    else bif o % 4 != 0 then (s.badAccess (blkAt o) s.now).emit (.readData r 0)
    else s.readBack r o id

/-- BAD_ACCESS (R62): an access of any size and offset, with the data `v` of a write. A malformed one is ignored as a write,
returns 0 as a read, and raises BADACC of the enclosing block and EV005. Otherwise the access is carried out: 64 bits as two
accesses of 32 bits, the lower address first, and a narrow read as the full 32-bit read. -/
def execBadAccess (r : Requester) (write : Bool) (o bytes v : Nat) (s : State) : Res :=
  .next <| bif !s.alive then s
    else bif s.malformed write o bytes then
      let s := s.badAccess (blkAt o) s.now
      bif write then s else s.emit (.readData r 0)
    else bif write then
      let s := s.busWrite r o (BitVec.ofNat 32 v)
      bif bytes == 8 then s.busWrite r (o + 4) (BitVec.ofNat 32 (v / 2 ^ 32)) else s
    else bif bytes == 8 then (s.readBack r o id).readBack r (o + 4) id
    else s.readBack r (o / 4 * 4) (narrow o bytes)

/-- BLK_LOCK_SET (R65): writing 1 to BLK_LOCK.LOCK; in a locked block it is one more write of a locked field (R66). -/
def execBlkLockSet (b : Blk) (s : State) : Res :=
  .next <| bif s.on b.lock then s.lockIgnored b (b.hdr + 8) s.now else s.flag b.lock true

/-! ### Triple-voted fields (R73) -/

/-- The triple-voted field with lowest bit `lo` in the word at offset `o`, either view. -/
def tvField (o lo : Nat) : Option (Blk × Fld) :=
  match blkAt o with
  | none => none
  | some b => ((fieldsAt b o).find? (fun f => f.tv && decide (f.lo = lo))).map (fun f => (b, f))

/-- Three copies of a TV word of block `b` as they are found (R73): two that agree are used, through `use`, and rewrite the third;
without agreement the function `o` stops, through `stop`. -/
def State.vote (s : State) (b : Blk) (o a c d : Nat) (use : State → Nat → State) (stop : State → State) : State :=
  bif s.ctl.tvStopped.contains o then s
  else bif a == c || a == d || c == d then
    let s := use s (bif a == c || a == d then a else c)
    bif a == c && a == d then s else (s.flag b.tverr true).ev 3
  else
    let s := stop s
    let s := { s with ctl := { s.ctl with tvStopped := o :: s.ctl.tvStopped } }
    (s.flag b.tvfail true).ev 4

/-- TV_COMPARE: the copies of a field as they are found, or from 2²⁶ on those of a logical rank's remap entry (15 R473). A stopped
lane map opens a gap on its input; a stopped entry holds its rank's requests. -/
def execTvCompare (o lo c0 c1 c2 : Nat) (s : State) : Res :=
  .next <| bif le (2 ^ 26) o then
      bif lt (o - 2 ^ 26) s.ranksU && s.hbmSize != 0 then
        s.vote .memory o (c0 % 2 ^ 41) (c1 % 2 ^ 41) (c2 % 2 ^ 41) (fun s x => s.setRemapWord (o - 2 ^ 26) x) (fun s => s)
      else s
    else match tvField o lo with
    | none => s
    | some (b, f) =>
      s.vote b o (c0 % 2 ^ f.w) (c1 % 2 ^ f.w) (c2 % 2 ^ f.w) (fun s x => s.put ⟨o, f.lo, f.w⟩ x)
        (fun s => bif inStaged b o then s else s.ingTvStop (f.at1 o))

/-- TV_RESTORE_DONE: all three copies hold the value of the image again, and the function resumes. -/
def execTvRestoreDone (o : Nat) (s : State) : Res :=
  let s := { s with ctl := { s.ctl with tvStopped := s.ctl.tvStopped.filter (fun x => decide (x ≠ o)) } }
  .next <| bif le (2 ^ 26) o then s.release (o - 2 ^ 26) else s

/-! ### Events -/

/-- The events that are reserved and never raised (R79 and the event tables of the chapters). -/
def reservedEvents : List Nat :=
  [14, 15, 29, 30, 31, 94, 95, 109, 110, 111] ++ (upto 6).map (42 + ·) ++ (upto 17).map (63 + ·) ++ (upto 4).map (244 + ·)
    ++ (upto 4).map (252 + ·) ++ (upto 15).map (281 + ·) ++ (upto 8).map (344 + ·) ++ (upto 16).map (360 + ·)
    ++ (upto 4).map (492 + ·)

/-- Event `n` exists and is not reserved. -/
def isEvent (n : Nat) : Bool := lt n 512 && !reservedEvents.contains n

/-- EVENT_OCCURRENCE (R75, R76): source `n` raises an occurrence now; a reserved event has no source and is never raised. -/
def execEventOccurrence (n : Nat) (s : State) : Res := .next <| bif isEvent n then s.ev n else s

/-- EVT_PEND_CLEAR (R77): the clear comes first; an occurrence in the same cycle is the first one after it. -/
def execEvtPendClear (n : Nat) (again : Bool) (s : State) : Res :=
  .next <| bif le 512 n then s
    else
      let s := s.evtClear n
      bif again && isEvent n then s.ev n else s

/-- EVT_CFG_WRITE (R75). -/
def execEvtCfgWrite (n : Nat) (v : Word) (s : State) : Res := .next <| bif le 512 n then s else s.evtCfg n v.toNat

/-! ### OAP -/

/-- OAP_REQUEST: a datagram from a host's address and port (R55). -/
def execOapRequest (addr port : Nat) (datagram : List Byte) (s : State) : Res := .next (s.datagramIn addr port datagram)
/-- OPEN (R57). -/
def execOapOpen (addr port : Nat) (datagram : List Byte) (s : State) : Res := .next (s.datagramIn addr port datagram)
/-- CLOSE (R57). -/
def execOapClose (addr port : Nat) (datagram : List Byte) (s : State) : Res := .next (s.datagramIn addr port datagram)
/-- NOTIFY_ACK (R59). -/
def execNotifyAck (addr port : Nat) (datagram : List Byte) (s : State) : Res := .next (s.datagramIn addr port datagram)

/-- The outcome of an operation that runs by itself. -/
def State.opAlone (s : State) (f : State → State × OpResult) : State :=
  bif s.answers then
    let p := f s
    p.1.emit (.objResult p.2.status p.2.data)
  else s

/-- READ (R51). -/
def execObjRead (live : Bool) (i j : Nat) (s : State) : Res := .next (s.opAlone (fun s => s.opRead live i j))
/-- WRITE (R45). -/
def execObjWrite (mailbox auth : Bool) (i j ty : Nat) (data : List Byte) (s : State) : Res :=
  .next (s.opAlone (fun s => s.opWrite ⟨mailbox, auth⟩ i j ty data))
/-- READ_RANGE (R51). -/
def execObjReadRange (live : Bool) (i j last : Nat) (s : State) : Res := .next (s.opAlone (fun s => s.opRange live i j last))
/-- DESCRIBE (R51). -/
def execObjDescribe (i j : Nat) (s : State) : Res := .next (s.opAlone (fun s => s.opDescribe i j))
/-- SUBSCRIBE (R51). -/
def execObjSubscribe (sid : Nat) (mask : List Byte) (s : State) : Res := .next (s.opAlone (fun s => s.opSubscribe sid mask))

/-- SESSION_IDLE_TIMEOUT (R57). -/
def execSessionIdleTimeout (sid : Nat) (s : State) : Res := .next (s.closeSession sid)
/-- NOTIFY_SEND (R78). -/
def execNotifySend (sid : Nat) (s : State) : Res := .next (s.notify sid)
/-- NOTIFY_RESEND (R59). -/
def execNotifyResend (sid num : Nat) (s : State) : Res := .next (s.renotify sid num)

/-- NET_SETTINGS_APPLY (R47): the `k` oldest writes that wait take effect, 100 ms after their responses. -/
def execNetSettingsApply (k : Nat) (s : State) : Res :=
  let objs := (s.ctl.netPending.take k).foldl (fun t e => tset objDefault t e.1 e.2) s.ctl.objs
  .next { s with ctl := { s.ctl with objs := objs, netPending := s.ctl.netPending.drop k } }

/-! ### The persistent set (R44) -/

/-- STORE: a key that is not the STORE key is refused. -/
def execPersistStore (key : Word) (s : State) : Res :=
  .next <| bif s.answers && key == 0x53415645 then s.persist (some s.persistNow) else s
/-- ERASE. -/
def execPersistErase (key : Word) (s : State) : Res :=
  .next <| bif s.answers && key == 0x44454641 then s.persist none else s

/-- PERSIST_DONE: both copies hold the set, or none is left; EV013. -/
def execPersistDone (s : State) : Res :=
  .next <| match s.ctl.persistOp with
    | none => s
    | some t => { s with ctl := { s.ctl with persistOp := none, stored0 := t, stored1 := t } }.ev 13

/-! ### The mailbox and the function-level reset (R61, 22 R640) -/

/-- MBX_CTRL_WRITE. -/
def execMbxCtrlWrite (v : Word) (s : State) : Res :=
  .next <| bif s.alive then s.mbxStart (bits v.toNat 0 13) else s
/-- MAILBOX_RESPONSE_DONE. -/
def execMailboxResponseDone (s : State) : Res := .next s.mbxDone

/-- PCIE_FLR: while a mailbox request executes, it takes effect after it (R61). -/
def execPcieFlr (s : State) : Res :=
  .next <| bif s.on Reg.MBX_STATUS_BUSY.z then { s with ctl := { s.ctl with mbxDiscard := true } } else s.flr

/-! ### DBGACC (22 R656, R658, R659) -/

/-- The registers that read 0 at level OBSERVE in SECURED (22 R659). -/
def debugBlind (o : Nat) : Bool :=
  Reg.TILE_PDATA_SYL.covers o || Reg.TILE_MDATA_DATA.covers o || Reg.DMA_GSDATA_DATA.covers o || Reg.SEC_FLBUF_DATA.covers o

/-- The access is outside every register or misaligned. -/
def State.dbgBad (s : State) (o : Nat) : Bool := o % 4 != 0 || s.malformed true o 4

/-- What an access `f` to offset `o` leaves, and whether it raised BADACC of the block there. -/
def State.watched (s : State) (o : Nat) (f : State → State) : State × Bool :=
  match blkAt o with
  | none => (f s, false)
  | some b =>
    bif o == b.badacc.off then (f s, false)
    else
    let was := s.on b.badacc
    let t := f (s.flag b.badacc false)
    bif t.on b.badacc then (t, true) else (t.flag b.badacc was, false)

/-- DBGACC: OP 1 reads, 2 writes; the status is 0 done, 1 DENIED by level, 3 BADACC. -/
def execDbgacc (op o : Nat) (v : Word) (s : State) : Res :=
  let level := s.get Reg.SEC_STAT_DBG.z
  .next <| bif !s.tap || (op != 1 && op != 2) then s
    else bif lt level op then s.emit (.dbgAcc 1 0)
    else bif s.dbgBad o then (s.badAccess (blkAt o) s.now).emit (.dbgAcc 3 0)
    else bif op == 2 then
      let p := s.watched o (fun s => s.busWrite .debug o v)
      p.1.emit (.dbgAcc (if p.2 then 3 else 0) 0)
    else bif s.get Reg.SEC_STAT_LC.z == 2 && debugBlind o then s.emit (.dbgAcc 0 0)
    else
      let p := s.busRead .debug o
      p.1.emit (.dbgAcc 0 p.2)

end Sys2Proof.Machine
end

