-- ==== Sys2Proof/Machine/Dispatch.lean ====
section
/-!
DEFINITION. Dispatch: one arm for each command, each one direct call of its meaning.
-/
namespace Sys2Proof.Machine

/-- The effect of command `cmd` on everything but the queue. -/
def exec (cmd : Instr) (s : State) : Host.Outcome State Fault Refusal :=
  match cmd with
  | .registerWrite r o v => Sys2Proof.Machine.execRegisterWrite r o v s
  | .rlRead r o => Sys2Proof.Machine.execRlRead r o s
  | .badAccess r write o bytes v => Sys2Proof.Machine.execBadAccess r write o bytes v s
  | .blkLockSet b => Sys2Proof.Machine.execBlkLockSet b s
  | .tvCompare o lo c0 c1 c2 => Sys2Proof.Machine.execTvCompare o lo c0 c1 c2 s
  | .tvRestoreDone o => Sys2Proof.Machine.execTvRestoreDone o s
  | .eventOccurrence n => Sys2Proof.Machine.execEventOccurrence n s
  | .evtPendClear n again => Sys2Proof.Machine.execEvtPendClear n again s
  | .evtCfgWrite n v => Sys2Proof.Machine.execEvtCfgWrite n v s
  | .oapRequest addr port datagram => Sys2Proof.Machine.execOapRequest addr port datagram s
  | .objRead live i j => Sys2Proof.Machine.execObjRead live i j s
  | .objWrite mailbox auth i j ty data => Sys2Proof.Machine.execObjWrite mailbox auth i j ty data s
  | .objReadRange live i j last => Sys2Proof.Machine.execObjReadRange live i j last s
  | .objDescribe i j => Sys2Proof.Machine.execObjDescribe i j s
  | .objSubscribe sid mask => Sys2Proof.Machine.execObjSubscribe sid mask s
  | .oapOpen addr port datagram => Sys2Proof.Machine.execOapOpen addr port datagram s
  | .oapClose addr port datagram => Sys2Proof.Machine.execOapClose addr port datagram s
  | .sessionIdleTimeout sid => Sys2Proof.Machine.execSessionIdleTimeout sid s
  | .notifySend sid => Sys2Proof.Machine.execNotifySend sid s
  | .notifyAck addr port datagram => Sys2Proof.Machine.execNotifyAck addr port datagram s
  | .notifyResend sid num => Sys2Proof.Machine.execNotifyResend sid num s
  | .netSettingsApply k => Sys2Proof.Machine.execNetSettingsApply k s
  | .persistStore key => Sys2Proof.Machine.execPersistStore key s
  | .persistErase key => Sys2Proof.Machine.execPersistErase key s
  | .persistDone => Sys2Proof.Machine.execPersistDone s
  | .mbxCtrlWrite v => Sys2Proof.Machine.execMbxCtrlWrite v s
  | .mailboxResponseDone => Sys2Proof.Machine.execMailboxResponseDone s
  | .pcieFlr => Sys2Proof.Machine.execPcieFlr s
  | .tbSetArm r whole value => Sys2Proof.Machine.execTbSetArm r whole value s
  | .tbCancel => Sys2Proof.Machine.execTbCancel s
  | .tbSetApply edge => Sys2Proof.Machine.execTbSetApply edge s
  | .eraIncrement => Sys2Proof.Machine.execEraIncrement s
  | .ppsEdge falling stamp raw => Sys2Proof.Machine.execPpsEdge falling stamp raw s
  | .ppsMiss => Sys2Proof.Machine.execPpsMiss s
  | .tbAdjRateWrite v => Sys2Proof.Machine.execTbAdjRateWrite v s
  | .softDiscStale => Sys2Proof.Machine.execSoftDiscStale s
  | .refGateEnd count bypass => Sys2Proof.Machine.execRefGateEnd count bypass s
  | .refLost refB => Sys2Proof.Machine.execRefLost refB s
  | .refSwitchover => Sys2Proof.Machine.execRefSwitchover s
  | .ptpEventRx port stamp frame descs => Sys2Proof.Machine.execPtpEventRx port stamp frame descs s
  | .ptpTxTimestamp port stamp frame => Sys2Proof.Machine.execPtpTxTimestamp port stamp frame s
  | .ptpPop port => Sys2Proof.Machine.execPtpPop port s
  | .laneSignalDetect lane => Sys2Proof.Machine.execLaneSignalDetect lane s
  | .lossOfSignal lane => Sys2Proof.Machine.execLossOfSignal lane s
  | .adaptationDone lane => Sys2Proof.Machine.execAdaptationDone lane s
  | .adaptTimeout lane => Sys2Proof.Machine.execAdaptTimeout lane s
  | .lmbRx lane line pos => Sys2Proof.Machine.execLmbRx lane line pos s
  | .blockLockLoss lane => Sys2Proof.Machine.execBlockLockLoss lane s
  | .frameVerdict lane line stamp => Sys2Proof.Machine.execFrameVerdict lane line stamp s
  | .frameLongCheck lane line => Sys2Proof.Machine.execFrameLongCheck lane line s
  | .gapInterim n => Sys2Proof.Machine.execGapInterim n s
  | .ratefaultClear n => Sys2Proof.Machine.execRatefaultClear n s
  | .jesdLinkLock lane locked => Sys2Proof.Machine.execJesdLinkLock lane locked s
  | .jesdMultiblockRelease n k words stamp aligned crcOk => Sys2Proof.Machine.execJesdMultiblockRelease n k words stamp aligned crcOk s
  | .fastPathSample n counter i q first => Sys2Proof.Machine.execFastPathSample n counter i q first s
  | .sampleRelease n => Sys2Proof.Machine.execSampleRelease n s
  | .ingressSwap lane => Sys2Proof.Machine.execIngressSwap lane s
  | .coarseSpectrum n seam m => Sys2Proof.Machine.execCoarseSpectrum n seam m s
  | .sketchSpectrum n m => Sys2Proof.Machine.execSketchSpectrum n m s
  | .sketchDeadline n m => Sys2Proof.Machine.execSketchDeadline n m s
  | .cchSwap n port => Sys2Proof.Machine.execCchSwap n port s
  | .coarseVoidDeadline n m => Sys2Proof.Machine.execCoarseVoidDeadline n m s
  | .fineSpectrumDue n mf => Sys2Proof.Machine.execFineSpectrumDue n mf s
  | .fineSpectrum n mf k => Sys2Proof.Machine.execFineSpectrum n mf k s
  | .fchSwap n => Sys2Proof.Machine.execFchSwap n s
  | .intervalDeadline v x => Sys2Proof.Machine.execIntervalDeadline v x s
  | .detectorRecordClose v x => Sys2Proof.Machine.execDetectorRecordClose v x s
  | .sketchRecordHoldEnd v x => Sys2Proof.Machine.execSketchRecordHoldEnd v x s
  | .dvwClrHold v => Sys2Proof.Machine.execDvwClrHold v s
  | .dvwClrPersist v => Sys2Proof.Machine.execDvwClrPersist v s
  | .viewSwap v => Sys2Proof.Machine.execViewSwap v s
  | .viewDrained v => Sys2Proof.Machine.execViewDrained v s
  | .viewRateStep v x e => Sys2Proof.Machine.execViewRateStep v x e s
  | .tunerOutput t => Sys2Proof.Machine.execTunerOutput t s
  | .tunerSwap t => Sys2Proof.Machine.execTunerSwap t s
  | .glazeEnd t => Sys2Proof.Machine.execGlazeEnd t s
  | .tunerDrained t => Sys2Proof.Machine.execTunerDrained t s
  | .tunerStepChange t => Sys2Proof.Machine.execTunerStepChange t s
  | .triggerProduct u x e => Sys2Proof.Machine.execTriggerProduct u x e s
  | .triggerFire u => Sys2Proof.Machine.execTriggerFire u s
  | .holdoffEnd u => Sys2Proof.Machine.execHoldoffEnd u s
  | .trgArm unit group => Sys2Proof.Machine.execTrgArm unit group s
  | .trgDisarm unit group => Sys2Proof.Machine.execTrgDisarm unit group s
  | .trgForce unit ftagen => Sys2Proof.Machine.execTrgForce unit ftagen s
  | .forceScheduled u => Sys2Proof.Machine.execForceScheduled u s
  | .trigInEdge p level persists stamp => Sys2Proof.Machine.execTrigInEdge p level persists stamp s
  | .softTrigger t u loaded => Sys2Proof.Machine.execSoftTrigger t u loaded s
  | .pairGroupArm g => Sys2Proof.Machine.execPairGroupArm g s
  | .toutAlignedEdge p => Sys2Proof.Machine.execToutAlignedEdge p s
  | .toutPulseEnd p => Sys2Proof.Machine.execToutPulseEnd p s
  | .triggerRecordRelease u => Sys2Proof.Machine.execTriggerRecordRelease u s
  | .triggerRecordDequeue st => Sys2Proof.Machine.execTriggerRecordDequeue st s
  | .triggerUnitSwap u => Sys2Proof.Machine.execTriggerUnitSwap u s
  | .capRequest slot => Sys2Proof.Machine.execCapRequest slot s
  | .captureHeld num => Sys2Proof.Machine.execCaptureHeld num s
  | .capRead num => Sys2Proof.Machine.execCapRead num s
  | .capRelease num => Sys2Proof.Machine.execCapRelease num s
  | .capstatDone num => Sys2Proof.Machine.execCapstatDone num s
  | .readoutEnd num => Sys2Proof.Machine.execReadoutEnd num s
  | .hbmWriterStart => Sys2Proof.Machine.execHbmWriterStart s
  | .watchDrainDone => Sys2Proof.Machine.execWatchDrainDone s
  | .ladderEvaluation => Sys2Proof.Machine.execLadderEvaluation s
  | .recorderSwap => Sys2Proof.Machine.execRecorderSwap s
  | .seamAbsentDeadline n m => Sys2Proof.Machine.execSeamAbsentDeadline n m s
  | .seamCellRelease m full => Sys2Proof.Machine.execSeamCellRelease m full s
  | .seamSkewCheck m => Sys2Proof.Machine.execSeamSkewCheck m s
  | .subintEnd => Sys2Proof.Machine.execSubintEnd s
  | .xspIntervalClose => Sys2Proof.Machine.execXspIntervalClose s
  | .dumpSlot => Sys2Proof.Machine.execDumpSlot s
  | .beamvoltEmit k m => Sys2Proof.Machine.execBeamvoltEmit k m s
  | .xspWdataWrite v => Sys2Proof.Machine.execXspWdataWrite v s
  | .xspSwap => Sys2Proof.Machine.execXspSwap s
  | .xspDumpDrained => Sys2Proof.Machine.execXspDumpDrained s
  | .ldb t y => Sys2Proof.Machine.execLdb t y s
  | .ldbu t y => Sys2Proof.Machine.execLdbu t y s
  | .ldh t y => Sys2Proof.Machine.execLdh t y s
  | .ldhu t y => Sys2Proof.Machine.execLdhu t y s
  | .ldw t y => Sys2Proof.Machine.execLdw t y s
  | .ldd t y => Sys2Proof.Machine.execLdd t y s
  | .ldq t y => Sys2Proof.Machine.execLdq t y s
  | .lea t y => Sys2Proof.Machine.execLea t y s
  | .stb t y => Sys2Proof.Machine.execStb t y s
  | .sth t y => Sys2Proof.Machine.execSth t y s
  | .stw t y => Sys2Proof.Machine.execStw t y s
  | .std t y => Sys2Proof.Machine.execStd t y s
  | .stq t y => Sys2Proof.Machine.execStq t y s
  | .stac t y => Sys2Proof.Machine.execStac t y s
  | .lkacq t y => Sys2Proof.Machine.execLkacq t y s
  | .lkrel t y => Sys2Proof.Machine.execLkrel t y s
  | .cmac t y => Sys2Proof.Machine.execCmac t y s
  | .cmacc t y => Sys2Proof.Machine.execCmacc t y s
  | .cmsb t y => Sys2Proof.Machine.execCmsb t y s
  | .cmul t y => Sys2Proof.Machine.execCmul t y s
  | .cmulc t y => Sys2Proof.Machine.execCmulc t y s
  | .rmac t y => Sys2Proof.Machine.execRmac t y s
  | .rmul t y => Sys2Proof.Machine.execRmul t y s
  | .aclr t y => Sys2Proof.Machine.execAclr t y s
  | .aadd t y => Sys2Proof.Machine.execAadd t y s
  | .amov t y => Sys2Proof.Machine.execAmov t y s
  | .extc t y => Sys2Proof.Machine.execExtc t y s
  | .exti t y => Sys2Proof.Machine.execExti t y s
  | .extq t y => Sys2Proof.Machine.execExtq t y s
  | .aget t y => Sys2Proof.Machine.execAget t y s
  | .aset t y => Sys2Proof.Machine.execAset t y s
  | .add t y => Sys2Proof.Machine.execAdd t y s
  | .sub t y => Sys2Proof.Machine.execSub t y s
  | .adds t y => Sys2Proof.Machine.execAdds t y s
  | .subs t y => Sys2Proof.Machine.execSubs t y s
  | .and t y => Sys2Proof.Machine.execAnd t y s
  | .or t y => Sys2Proof.Machine.execOr t y s
  | .xor t y => Sys2Proof.Machine.execXor t y s
  | .andn t y => Sys2Proof.Machine.execAndn t y s
  | .shl t y => Sys2Proof.Machine.execShl t y s
  | .shr t y => Sys2Proof.Machine.execShr t y s
  | .sar t y => Sys2Proof.Machine.execSar t y s
  | .min t y => Sys2Proof.Machine.execMin t y s
  | .max t y => Sys2Proof.Machine.execMax t y s
  | .minu t y => Sys2Proof.Machine.execMinu t y s
  | .maxu t y => Sys2Proof.Machine.execMaxu t y s
  | .mov t y => Sys2Proof.Machine.execMov t y s
  | .cadd t y => Sys2Proof.Machine.execCadd t y s
  | .csub t y => Sys2Proof.Machine.execCsub t y s
  | .cconj t y => Sys2Proof.Machine.execCconj t y s
  | .cswap t y => Sys2Proof.Machine.execCswap t y s
  | .cshr t y => Sys2Proof.Machine.execCshr t y s
  | .pack t y => Sys2Proof.Machine.execPack t y s
  | .cmpeq t y => Sys2Proof.Machine.execCmpeq t y s
  | .cmplt t y => Sys2Proof.Machine.execCmplt t y s
  | .cmpltu t y => Sys2Proof.Machine.execCmpltu t y s
  | .cmple t y => Sys2Proof.Machine.execCmple t y s
  | .qand t y => Sys2Proof.Machine.execQand t y s
  | .qor t y => Sys2Proof.Machine.execQor t y s
  | .qandn t y => Sys2Proof.Machine.execQandn t y s
  | .mvtx t y => Sys2Proof.Machine.execMvtx t y s
  | .mvfx t y => Sys2Proof.Machine.execMvfx t y s
  | .mvfm t y => Sys2Proof.Machine.execMvfm t y s
  | .mvtm t y => Sys2Proof.Machine.execMvtm t y s
  | .addi t y => Sys2Proof.Machine.execAddi t y s
  | .andi t y => Sys2Proof.Machine.execAndi t y s
  | .ori t y => Sys2Proof.Machine.execOri t y s
  | .shli t y => Sys2Proof.Machine.execShli t y s
  | .shri t y => Sys2Proof.Machine.execShri t y s
  | .sari t y => Sys2Proof.Machine.execSari t y s
  | .movlo t y => Sys2Proof.Machine.execMovlo t y s
  | .movhi t y => Sys2Proof.Machine.execMovhi t y s
  | .nop t y => Sys2Proof.Machine.execNop t y s
  | .br t y => Sys2Proof.Machine.execBr t y s
  | .call t y => Sys2Proof.Machine.execCall t y s
  | .ret t y => Sys2Proof.Machine.execRet t y s
  | .loop t y => Sys2Proof.Machine.execLoop t y s
  | .loopi t y => Sys2Proof.Machine.execLoopi t y s
  | .lbrk t y => Sys2Proof.Machine.execLbrk t y s
  | .rti t y => Sys2Proof.Machine.execRti t y s
  | .swp t y => Sys2Proof.Machine.execSwp t y s
  | .fence t y => Sys2Proof.Machine.execFence t y s
  | .idle t y => Sys2Proof.Machine.execIdle t y s
  | .bclr t y => Sys2Proof.Machine.execBclr t y s
  | .bmac t y => Sys2Proof.Machine.execBmac t y s
  | .bout t y => Sys2Proof.Machine.execBout t y s
  | .bmov t y => Sys2Proof.Machine.execBmov t y s
  | .bfft t y => Sys2Proof.Machine.execBfft t y s
  | .benchGranuleEnd t => Sys2Proof.Machine.execBenchGranuleEnd t s
  | .interruptEntry t => Sys2Proof.Machine.execInterruptEntry t s
  | .tileTimerExpiry t k => Sys2Proof.Machine.execTileTimerExpiry t k s
  | .tileTimerWrite t k w v => Sys2Proof.Machine.execTileTimerWrite t k w v s
  | .edgeDetectorEdge t j rising tag => Sys2Proof.Machine.execEdgeDetectorEdge t j rising tag s
  | .tunerRingBlock t k => Sys2Proof.Machine.execTunerRingBlock t k s
  | .tileRingRidxWrite t k v => Sys2Proof.Machine.execTileRingRidxWrite t k v s
  | .tileRun t => Sys2Proof.Machine.execTileRun t s
  | .tileHalt t => Sys2Proof.Machine.execTileHalt t s
  | .tileReset t => Sys2Proof.Machine.execTileReset t s
  | .tileClockGate t => Sys2Proof.Machine.execTileClockGate t s
  | .xctlArm t entry => Sys2Proof.Machine.execXctlArm t entry s
  | .xctlForce t => Sys2Proof.Machine.execXctlForce t s
  | .xctlCancel t => Sys2Proof.Machine.execXctlCancel t s
  | .exchangeTimeout t => Sys2Proof.Machine.execExchangeTimeout t s
  | .tilePdataWrite t v => Sys2Proof.Machine.execTilePdataWrite t v s
  | .tileMdataAccess r t write v => Sys2Proof.Machine.execTileMdataAccess r t write v s
  | .lockAcquire r n => Sys2Proof.Machine.execLockAcquire r n s
  | .lockRelease r n => Sys2Proof.Machine.execLockRelease r n s
  | .lockBreak r n => Sys2Proof.Machine.execLockBreak r n s
  | .dmaStart g c => Sys2Proof.Machine.execDmaStart g c s
  | .dmaDoorbell g c => Sys2Proof.Machine.execDmaDoorbell g c s
  | .dmaStop g c => Sys2Proof.Machine.execDmaStop g c s
  | .dmaAbort g c => Sys2Proof.Machine.execDmaAbort g c s
  | .dmaClear g c => Sys2Proof.Machine.execDmaClear g c s
  | .descriptorFetch g c => Sys2Proof.Machine.execDescriptorFetch g c s
  | .descriptorComplete g c k => Sys2Proof.Machine.execDescriptorComplete g c k s
  | .endMarkPoll g c => Sys2Proof.Machine.execEndMarkPoll g c s
  | .dmaCqRidxWrite g c v => Sys2Proof.Machine.execDmaCqRidxWrite g c v s
  | .dmaGsdataAccess r g port write v => Sys2Proof.Machine.execDmaGsdataAccess r g port write v s
  | .hbmAccess write addr data src badBytes => Sys2Proof.Machine.execHbmAccess write addr data src badBytes s
  | .rowIdleClose rank bank => Sys2Proof.Machine.execRowIdleClose rank bank s
  | .refreshDue rank bank free => Sys2Proof.Machine.execRefreshDue rank bank free s
  | .scrubPass rank corrected uncorrectable => Sys2Proof.Machine.execScrubPass rank corrected uncorrectable s
  | .memRetire rank => Sys2Proof.Machine.execMemRetire rank s
  | .memRestore rank => Sys2Proof.Machine.execMemRestore rank s
  | .migrationStart => Sys2Proof.Machine.execMigrationStart s
  | .migrationGrain => Sys2Proof.Machine.execMigrationGrain s
  | .fold => Sys2Proof.Machine.execFold s
  | .pcPowerDown pc selfRefresh => Sys2Proof.Machine.execPcPowerDown pc selfRefresh s
  | .recordEnqueue => Sys2Proof.Machine.execRecordEnqueue s
  | .protectedRecordEnter st => Sys2Proof.Machine.execProtectedRecordEnter st s
  | .streamDeadTimeout st => Sys2Proof.Machine.execStreamDeadTimeout st s
  | .streamFailedExit st => Sys2Proof.Machine.execStreamFailedExit st s
  | .datagramSend port due bad => Sys2Proof.Machine.execDatagramSend port due bad s
  | .ethFrameRx port stamp frame descs => Sys2Proof.Machine.execEthFrameRx port stamp frame descs s
  | .portLinkChange port up => Sys2Proof.Machine.execPortLinkChange port up s
  | .vrtDataPacket t timeout => Sys2Proof.Machine.execVrtDataPacket t timeout s
  | .vrtContextPacket t => Sys2Proof.Machine.execVrtContextPacket t s
  | .hrgTailWrite r v => Sys2Proof.Machine.execHrgTailWrite r v s
  | .hostBufferWriteback r desc picks bad => Sys2Proof.Machine.execHostBufferWriteback r desc picks bad s
  | .hostRingInterrupt r => Sys2Proof.Machine.execHostRingInterrupt r s
  | .txFrameSend r desc stamp frame => Sys2Proof.Machine.execTxFrameSend r desc stamp frame s
  | .diskAttach => Sys2Proof.Machine.execDiskAttach s
  | .diskFormat => Sys2Proof.Machine.execDiskFormat s
  | .diskDetach => Sys2Proof.Machine.execDiskDetach s
  | .diskKeep => Sys2Proof.Machine.execDiskKeep s
  | .diskFree => Sys2Proof.Machine.execDiskFree s
  | .diskRead => Sys2Proof.Machine.execDiskRead s
  | .diskCommandDone found => Sys2Proof.Machine.execDiskCommandDone found s
  | .diskDataWrite st due bad => Sys2Proof.Machine.execDiskDataWrite st due bad s
  | .diskWriteComplete id => Sys2Proof.Machine.execDiskWriteComplete id s
  | .diskCheckpoint => Sys2Proof.Machine.execDiskCheckpoint s
  | .journalWrite => Sys2Proof.Machine.execJournalWrite s
  | .diskDriveFail d => Sys2Proof.Machine.execDiskDriveFail d s
  | .streamSwap e ring => Sys2Proof.Machine.execStreamSwap e ring s
  | .streamDrained st => Sys2Proof.Machine.execStreamDrained st s
  | .displayPromotion o b => Sys2Proof.Machine.execDisplayPromotion o b s
  | .overlayFetch o y late => Sys2Proof.Machine.execOverlayFetch o y late s
  | .dspFlipWrite o sel => Sys2Proof.Machine.execDspFlipWrite o sel s
  | .hpdPlug o => Sys2Proof.Machine.execHpdPlug o s
  | .hpdUnplug o => Sys2Proof.Machine.execHpdUnplug o s
  | .irqHpd o => Sys2Proof.Machine.execIrqHpd o s
  | .linkTrainingDone o rate lanes => Sys2Proof.Machine.execLinkTrainingDone o rate lanes s
  | .retrain o => Sys2Proof.Machine.execRetrain o s
  | .auxNativeWrite o => Sys2Proof.Machine.execAuxNativeWrite o s
  | .auxNativeRead o => Sys2Proof.Machine.execAuxNativeRead o s
  | .auxI2cWrite o => Sys2Proof.Machine.execAuxI2cWrite o s
  | .auxI2cRead o => Sys2Proof.Machine.execAuxI2cRead o s
  | .auxDone o result data => Sys2Proof.Machine.execAuxDone o result data s
  | .touchReadStart tint => Sys2Proof.Machine.execTouchReadStart tint s
  | .touchReport result report => Sys2Proof.Machine.execTouchReport result report s
  | .mkrRead r => Sys2Proof.Machine.execMkrRead r s
  | .displaySwap o => Sys2Proof.Machine.execDisplaySwap o s
  | .stimLaneTrained c => Sys2Proof.Machine.execStimLaneTrained c s
  | .stimChannelStart c => Sys2Proof.Machine.execStimChannelStart c s
  | .segmentBoundary c missing => Sys2Proof.Machine.execSegmentBoundary c missing s
  | .stimulusSwap c => Sys2Proof.Machine.execStimulusSwap c s
  | .calLane apply part => Sys2Proof.Machine.execCalLane apply part s
  | .calAlign apply part => Sys2Proof.Machine.execCalAlign apply part s
  | .calGain apply part => Sys2Proof.Machine.execCalGain apply part s
  | .calFlat apply part => Sys2Proof.Machine.execCalFlat apply part s
  | .calMonitor apply part => Sys2Proof.Machine.execCalMonitor apply part s
  | .calAbort => Sys2Proof.Machine.execCalAbort s
  | .calApply => Sys2Proof.Machine.execCalApply s
  | .calSettleDone => Sys2Proof.Machine.execCalSettleDone s
  | .calRunEnd eyes readings => Sys2Proof.Machine.execCalRunEnd eyes readings s
  | .admCheck asap => Sys2Proof.Machine.execAdmCheck asap s
  | .admCommit asap => Sys2Proof.Machine.execAdmCommit asap s
  | .admAbort => Sys2Proof.Machine.execAdmAbort s
  | .admissionCheckDone us => Sys2Proof.Machine.execAdmissionCheckDone us s
  | .commitInstant => Sys2Proof.Machine.execCommitInstant s
  | .relock => Sys2Proof.Machine.execRelock s
  | .bandcal => Sys2Proof.Machine.execBandcal s
  | .bandcalDone entries => Sys2Proof.Machine.execBandcalDone entries s
  | .rootPllLock ok => Sys2Proof.Machine.execRootPllLock ok s
  | .clockWalkStep => Sys2Proof.Machine.execClockWalkStep s
  | .refGlitch => Sys2Proof.Machine.execRefGlitch s
  | .holdoverExpiry => Sys2Proof.Machine.execHoldoverExpiry s
  | .pllLockLoss => Sys2Proof.Machine.execPllLockLoss s
  | .auxPllLock k state => Sys2Proof.Machine.execAuxPllLock k state s
  | .clkOutWrite k v => Sys2Proof.Machine.execClkOutWrite k v s
  | .sysrefFire => Sys2Proof.Machine.execSysrefFire s
  | .pwrSleep => Sys2Proof.Machine.execPwrSleep s
  | .pwrWatch => Sys2Proof.Machine.execPwrWatch s
  | .pwrFull => Sys2Proof.Machine.execPwrFull s
  | .pwrKeep => Sys2Proof.Machine.execPwrKeep s
  | .wakeRequest src => Sys2Proof.Machine.execWakeRequest src s
  | .modeTransitionDone => Sys2Proof.Machine.execModeTransitionDone s
  | .governorSlot => Sys2Proof.Machine.execGovernorSlot s
  | .islandUsable i => Sys2Proof.Machine.execIslandUsable i s
  | .governorCheck => Sys2Proof.Machine.execGovernorCheck s
  | .supplyGoodChange i good crystal => Sys2Proof.Machine.execSupplyGoodChange i good crystal s
  | .supplyUndervoltage i => Sys2Proof.Machine.execSupplyUndervoltage i s
  | .resetRelease => Sys2Proof.Machine.execResetRelease s
  | .thermalEvaluation readings => Sys2Proof.Machine.execThermalEvaluation readings s
  | .thermtrip => Sys2Proof.Machine.execThermtrip s
  | .hkEntryDone k e ch raw => Sys2Proof.Machine.execHkEntryDone k e ch raw s
  | .hkUrg conv ch => Sys2Proof.Machine.execHkUrg conv ch s
  | .hkUrgentConversion k raw => Sys2Proof.Machine.execHkUrgentConversion k raw s
  | .resetNAssert => Sys2Proof.Machine.execResetNAssert s
  | .startStepDone code mask entries => Sys2Proof.Machine.execStartStepDone code mask entries s
  | .stepfailRestart => Sys2Proof.Machine.execStepfailRestart s
  | .watchdogExpiry => Sys2Proof.Machine.execWatchdogExpiry s
  | .secReset => Sys2Proof.Machine.execSecReset s
  | .secProvision => Sys2Proof.Machine.execSecProvision s
  | .lcreq => Sys2Proof.Machine.execLcreq s
  | .svnburn mailbox => Sys2Proof.Machine.execSvnburn mailbox s
  | .secRevoke mailbox => Sys2Proof.Machine.execSecRevoke mailbox s
  | .fuseBurnDone => Sys2Proof.Machine.execFuseBurnDone s
  | .flashRead => Sys2Proof.Machine.execFlashRead s
  | .flashProgram => Sys2Proof.Machine.execFlashProgram s
  | .flashErase => Sys2Proof.Machine.execFlashErase s
  | .flashDone => Sys2Proof.Machine.execFlashDone s
  | .tileVerify t => Sys2Proof.Machine.execTileVerify t s
  | .tileVerifyDone => Sys2Proof.Machine.execTileVerifyDone s
  | .dbgChal => Sys2Proof.Machine.execDbgChal s
  | .dbgResp level sig => Sys2Proof.Machine.execDbgResp level sig s
  | .dbgacc op o v => Sys2Proof.Machine.execDbgacc op o v s
  | .dbgend => Sys2Proof.Machine.execDbgend s
  | .extest cells => Sys2Proof.Machine.execExtest cells s
  | .samplePreload pins cells => Sys2Proof.Machine.execSamplePreload pins cells s
  | .respLockoutEnd => Sys2Proof.Machine.execRespLockoutEnd s
  | .dzHeartbeat ok role pstate mode pcnt gen ack forced => Sys2Proof.Machine.execDzHeartbeat ok role pstate mode pcnt gen ack forced s
  | .dzSync ok id t1 pid pt stamp => Sys2Proof.Machine.execDzSync ok id t1 pid pt stamp s
  | .dzFireA ok id u firing tag tq elem => Sys2Proof.Machine.execDzFireA ok id u firing tag tq elem s
  | .dzFireB ok id body => Sys2Proof.Machine.execDzFireB ok id body s
  | .dzArm ok id g num tag => Sys2Proof.Machine.execDzArm ok id g num tag s
  | .dzRelease ok id g num => Sys2Proof.Machine.execDzRelease ok id g num s
  | .dzWake ok id src => Sys2Proof.Machine.execDzWake ok id src s
  | .dzOrder ok n stream first key oseq digest => Sys2Proof.Machine.execDzOrder ok n stream first key oseq digest s
  | .dzSent ok n st oseq => Sys2Proof.Machine.execDzSent ok n st oseq s
  | .dzEpoch ok n st epoch first => Sys2Proof.Machine.execDzEpoch ok n st epoch first s
  | .dzStep ok n st step => Sys2Proof.Machine.execDzStep ok n st step s
  | .dzIndex ok n inp offset => Sys2Proof.Machine.execDzIndex ok n inp offset s
  | .dzCreq ok n commit asap instant gen digest => Sys2Proof.Machine.execDzCreq ok n commit asap instant gen digest s
  | .dzCresp ok n code need avail => Sys2Proof.Machine.execDzCresp ok n code need avail s
  | .dzMode ok n op => Sys2Proof.Machine.execDzMode ok n op s
  | .dzJoin ok n role pcnt digest gen serial => Sys2Proof.Machine.execDzJoin ok n role pcnt digest gen serial s
  | .dzSwitchCell ok n phase => Sys2Proof.Machine.execDzSwitchCell ok n phase s
  | .dzLeaveCell ok n => Sys2Proof.Machine.execDzLeaveCell ok n s
  | .dzAck ok ack => Sys2Proof.Machine.execDzAck ok ack s
  | .cellRetransmit n => Sys2Proof.Machine.execCellRetransmit n s
  | .heartbeatSend => Sys2Proof.Machine.execHeartbeatSend s
  | .syncSend stamp => Sys2Proof.Machine.execSyncSend stamp s
  | .sentSend => Sys2Proof.Machine.execSentSend s
  | .orderMiss st oseq => Sys2Proof.Machine.execOrderMiss st oseq s
  | .crespTimeout => Sys2Proof.Machine.execCrespTimeout s
  | .partnerLost witness => Sys2Proof.Machine.execPartnerLost witness s
  | .dzSwitch => Sys2Proof.Machine.execDzSwitch s
  | .switchFinal => Sys2Proof.Machine.execSwitchFinal s
  | .dzLeave => Sys2Proof.Machine.execDzLeave s
  | .rejoin => Sys2Proof.Machine.execRejoin s
  | .dzLinkState lane state => Sys2Proof.Machine.execDzLinkState lane state s
  | .resetNDeassert => Sys2Proof.Machine.execResetNDeassert s
  | .cdrLockLoss lane => Sys2Proof.Machine.execCdrLockLoss lane s
  | .referenceReturn refB => Sys2Proof.Machine.execReferenceReturn refB s
  | .busMasterDisable => Sys2Proof.Machine.execBusMasterDisable s
  | .laneDieLinkFault die => Sys2Proof.Machine.execLaneDieLinkFault die s

end Sys2Proof.Machine
end

