-- ==== Sys2Proof/Machine/Tick.lean ====
section
/-!
DEFINITION. The tick: one CK_CORE cycle of the block, which a step takes when no command waits. The time base advances (03
R84), trigger units leave FIRED (09 R277), the tiles' timers count (12 R386), their cores take an interrupt or issue the
bundle at their PC (12 R378, 13 R414), the DMA engines issue their slots (14 R439), and the fabric serves what asks for it (12
R403, R404).
-/
namespace Sys2Proof.Machine

/-- The timers without KEEP that expired in this cycle, which TIP bits they set (`was` and `new` the latched bits before and after). -/
def State.freshStops (s : State) (t was new : Nat) : Nat :=
  ((upto 4).filter (fun k => !bit was k && bit new k && !s.on (Reg.TILE_TMR_CFG_KEEP.tk t k))).length

/-- One cycle of tile `t` in Full mode: its four timers, then its core. An expiry without KEEP in the cycle of an exchange is discarded
and counted (12 R398). -/
def State.tileTick (s : State) (t : Nat) : State :=
  let was := s.get (Reg.TILE_TIP_LATCHED.t t)
  let s := (upto 4).foldl (fun s k => s.timerTick t k) s
  let n := s.freshStops t was (s.get (Reg.TILE_TIP_LATCHED.t t))
  let bank := s.liveBank t
  let s := s.coreTick t
  bif s.liveBank t != bank && lt 0 n then s.count (Reg.TILE_SPOIL_COUNT.t t) n else s

/-- The present CK_CORE cycle begins a CK_FABRIC cycle: every second one, in BYPASS every one (20 R592, R606). -/
def State.fabricEdge (s : State) : Bool := le (s.get Reg.CLK_STAT_STATE.z) 1 || s.ctl.slow % 2 == 0

/-- The control complex's own clock takes one CK_CORE cycle, and every 64th one is a CK_SLOW edge, in BYPASS every 4th (20 R592,
R606). -/
def State.clockTick (s : State) : State :=
  let n := bif le (s.get Reg.CLK_STAT_STATE.z) 1 then 4 else 64
  let up := s.ctl.uptime + 2 ^ 48 / max 1 s.fcore
  bif le n (s.ctl.slow + 1) then { s with ctl := { s.ctl with slow := 0, uptime := up } }.slowEdge
  else { s with ctl := { s.ctl with slow := s.ctl.slow + 1, uptime := up } }

/-- One CK_CORE cycle. -/
def State.cycle (s : State) : State :=
  let s := s.tick.clockTick.degrTime
  bif s.runs then
    let s := (upto 32).foldl State.firedEnds s
    bif s.get Reg.PWR_STAT_MODE.z == 4 then
      let s := (upto 64).foldl State.tileTick s
      (bif s.fabricEdge then (upto 8).foldl State.dmaTick s else s).fabric
    else s
  else s

end Sys2Proof.Machine
end

