-- ==== Sys2Proof/Machine/Step.lean ====
section
/-!
DEFINITION. One step: the command at the front of the queue runs on the state with the queue's rest; on an empty queue
one CK_CORE cycle passes (Tick.lean).
-/
namespace Sys2Proof.Machine

/-- `s` with the command that the word spells put at the front of its queue; `s` where the word spells none. -/
def State.withFetchWord (s : State) (nbits w : Nat) : State :=
  match decodeTableWord nbits w with
  | some c => { s with pending := c :: s.pending }
  | none => s

/-- One step of the block. -/
def step (s : State) : Host.Outcome State Fault Refusal :=
  match s.pending with
  | [] => .next s.cycle
  | c :: rest => exec c { s with pending := rest }

end Sys2Proof.Machine
end

