-- ==== Sys2Proof/Safety.lean ====
section
/-!
DEFINITION. What the statements call a safe state, and the words they use for an Easel core at a bundle boundary.
-/
namespace Sys2Proof.Machine

/-- The core of tile `t` is at a bundle boundary and may issue; neither loop level is active. -/
def State.readyAt (s : State) (t : Nat) : Bool :=
  s.tileMay t && (s.tile t).bundle == [] && !(s.tile t).cur.l0a && !(s.tile t).cur.l1a

/-- The bundle at the PC of tile `t` has issued with `n` saturated components and leaves the registers `r`; PC apart. -/
def State.bundleTaken (s : State) (t : Nat) (r : RegSet) (n : Nat) : State :=
  let x := { s.tile t with bundle := [], idle := false }
  let s := s.setTile t x
  let s := bif lt 0 n then s.count (Reg.TILE_SAT_COUNT.t t) n else s
  s.setTile t (x.setCur r)

/-- The PC of tile `t` becomes syllable address `a` of the live bank. -/
def State.goTo (s : State) (t a : Nat) : State :=
  let x := s.tile t
  s.tilePut t (x.setCur { x.cur with pc := s.pcAt t a })

/-- The syllable address after a bundle of one syllable at the PC of `x`. -/
def RegSet.after (x : RegSet) : Nat := x.pc % 2 ^ 14 + 1

/-- A bundle of one syllable has issued on tile `t`, with `n` saturated components, and leaves the registers `r`. -/
def State.issued (s : State) (t : Nat) (r : RegSet) (n : Nat) : State := (s.bundleTaken t r n).goTo t r.after

/-- The register table and memory are in their canonical form: keys rise strictly, and no entry holds what an unlisted key does. -/
abbrev State.tidy (s : State) : Prop := twf resetWord s.regs = true ∧ Memory.wf s.mem = true

end Sys2Proof.Machine
end

