-- ==== Sys2Proof/Certificates/Slice0/Obligations.lean ====
section
/-!
DEFINITION. The statements for the provers. A clause "exec (c …) s = .next t" says that command c completes in s; the rest of
the clause says what the next state holds. s.ev n is an occurrence of event n (02 R75).
-/
open Sys2Proof Sys2Proof.Machine

/-- For every command c, state s and rest of the queue, a step of s with c at the front of its queue is exec of c on s with the queue's rest. -/
def Obligations.StepRunsFrontCommand : Prop :=
  ∀ (c : Instr) (rest : List Instr) (s : State), step { s with pending := c :: rest } = exec c { s with pending := rest }

/-- With no command waiting, a step answers the state one CK_CORE cycle later. In BYPASS with the time base stopped, a mode that is neither Watch nor Full and no degradation, that cycle advances the control complex's own clock alone: its CK_SLOW count, with a copy of the registers at every fourth cycle, and its uptime. The model's choice (log 2). -/
def Obligations.EmptyQueueTakesOneCycle : Prop :=
  (∀ (s : State),
      s.pending = [] →
      step s = .next s.cycle) ∧
  (∀ (s : State),
      s.tb.running = false →
      s.get Reg.CLK_STAT_STATE.z < 2 →
      s.runs = false →
      s.adm.degrSince = none →
      s.cycle = { s with ctl := { s.ctl with
        slow := if s.ctl.slow + 1 < 4 then s.ctl.slow + 1 else 0,
        uptime := s.ctl.uptime + 2 ^ 48 / max 1 s.fcore,
        rcSlow := if s.ctl.slow + 1 < 4 then s.ctl.rcSlow else s.regs } })

/-- A write of a full-width RW word stores it and changes no other word. A read of BLK_ID returns it. A read of an RL word returns the low half and latches the high half in the shadow. A malformed access sets BADACC of its block and raises EV005 and, as a read, returns 0; a well-formed 64-bit access is two of 32 bits, the lower address first, and a well-formed narrow read returns its bytes of the whole word. Setting BLK_LOCK locks the block. -/
def Obligations.RegisterAccessCommandsComplete : Prop :=
  (∀ (s : State) (r : Requester) (v : Word),
      s.alive = true →
      s.booted = true →
      ∃ t, exec (.registerWrite r Reg.MSIX_DATA_DATA.off v) s = .next t ∧
        t.word Reg.MSIX_DATA_DATA.off = v ∧ (∀ o, o ≠ Reg.MSIX_DATA_DATA.off → t.word o = s.word o) ∧ t.out = s.out) ∧
  (∀ (s : State) (r : Requester),
      s.alive = true →
      exec (.rlRead r Blk.ident.hdr) s = .next (s.emit (.readData r (s.word Blk.ident.hdr)))) ∧
  (∀ (s : State) (r : Requester),
      s.alive = true →
      s.booted = true →
      ∃ t, exec (.rlRead r Reg.MEM_SIZE_L_VAL.off) s = .next t ∧
        t.out = .readData r (s.word Reg.MEM_SIZE_L_VAL.off) :: s.out ∧
        tget (fun _ => 0) t.ctl.readShadow (shadowKey r .memory) = (s.word (Reg.MEM_SIZE_L_VAL.off + 4)).toNat ∧ t.regs = s.regs) ∧
  (∀ (s : State) (r : Requester) (o n v : Nat),
      s.alive = true →
      s.malformed true o n = true →
      ∃ t, exec (.badAccess r true o n v) s = .next t ∧
        t.on (evPend 5) = true ∧ (∀ b, blkAt o = some b → t.on b.badacc = true) ∧
        ∀ p, p < 0x88000 ∨ (0x88100 ≤ p ∧ p < 0x100000) ∨ 0x104000 ≤ p → (∀ b, blkAt o = some b → b.badacc.off ≠ p) →
          t.word p = s.word p) ∧
  (∀ (s : State) (r : Requester) (o n v : Nat),
      s.alive = true →
      s.malformed false o n = true →
      ∃ t, exec (.badAccess r false o n v) s = .next t ∧
        t.on (evPend 5) = true ∧ (∀ b, blkAt o = some b → t.on b.badacc = true) ∧ t.out.head? = some (.readData r 0)) ∧
  (∀ (s : State) (r : Requester) (o v : Nat),
      s.alive = true →
      s.malformed true o 8 = false →
      exec (.badAccess r true o 8 v) s = .next ((s.busWrite r o (BitVec.ofNat 32 v)).busWrite r (o + 4) (BitVec.ofNat 32 (v / 2 ^ 32)))) ∧
  (∀ (s : State) (r : Requester) (o n v : Nat),
      s.alive = true →
      s.malformed false o n = false →
      n < 8 →
      ∃ t, exec (.badAccess r false o n v) s = .next t ∧
        t.out.head? = some (.readData r (BitVec.ofNat 32 ((s.busRead r (o / 4 * 4)).2.toNat / 2 ^ (8 * (o % 4)) % 2 ^ (8 * n))))) ∧
  (∀ (s : State) (b : Blk),
      s.on b.lock = false →
      ∃ t, exec (.blkLockSet b) s = .next t ∧
        t.on b.lock = true ∧ t.out = s.out)

/-- Setting BLK_LOCK of a locked block leaves it locked, sets LIGN and raises EV002. -/
def Obligations.LockedBlockRefusesItsLock : Prop :=
  ∀ (s : State) (b : Blk),
      s.on b.lock = true →
      ∃ t, exec (.blkLockSet b) s = .next t ∧
        t.on b.lock = true ∧ t.on b.lign = true ∧ t.on (evPend 2) = true

/-- An occurrence of an event sets PEND, captures the tag where PEND was 0 and keeps it where PEND was 1; for every event but EV009 and EV012 (which its own delivery may raise again) CNT increments, saturating at 0xFFFF, and SAT is set exactly where CNT was already 0xFFFF. A clear zeroes PEND, SAT and CNT, and an occurrence in the same cycle counts as the first one after it. A write of EVT_CFG takes effect. (The reserved events have no source.) Where exactly two of the three copies of a field agree, TVERR is set and EV003 raised; where no two agree, the function stops, TVFAIL is set and EV004 raised; the same of a logical rank's remap entry. A restore lets it resume. -/
def Obligations.EventAndVoteCommandsComplete : Prop :=
  (∀ (s : State) (n : Nat),
      isEvent n = true →
      ∃ t, exec (.eventOccurrence n) s = .next t ∧
        t.on (evPend n) = true ∧ t.evTag n = (if s.on (evPend n) then s.evTag n else s.now) ∧
        (n ≠ 9 → n ≠ 12 → t.get (evCnt n) = min 0xFFFF (s.get (evCnt n) + 1) ∧
          t.on (evSat n) = (s.on (evSat n) || decide (s.get (evCnt n) = 0xFFFF)))) ∧
  (∀ (s : State) (n : Nat),
      n < 512 →
      ∃ t, exec (.evtPendClear n false) s = .next t ∧
        t.on (evPend n) = false ∧ t.on (evSat n) = false ∧ t.get (evCnt n) = 0) ∧
  (∀ (s : State) (n : Nat),
      isEvent n = true →
      n ≠ 9 →
      n ≠ 12 →
      ∃ t, exec (.evtPendClear n true) s = .next t ∧
        t.on (evPend n) = true ∧ t.on (evSat n) = false ∧ t.get (evCnt n) = 1) ∧
  (∀ (s : State) (n : Nat) (v : Word),
      n < 512 →
      ∃ t, exec (.evtCfgWrite n v) s = .next t ∧
        t.on (evEn n) = v.getLsbD 31 ∧ t.get (Reg.EVT_CFG_VEC.e n) = v.toNat % 2048) ∧
  (∀ (s : State) (o lo a c d : Nat) (b : Blk) (f : Fld),
      tvField o lo = some (b, f) →
      o ∉ s.ctl.tvStopped →
      a < 2 ^ f.w →
      c < 2 ^ f.w →
      d < 2 ^ f.w →
      (a = c ∧ a ≠ d) ∨ (a = d ∧ a ≠ c) ∨ (c = d ∧ a ≠ c) →
      ∃ t, exec (.tvCompare o lo a c d) s = .next t ∧
        t.on b.tverr = true ∧ t.on (evPend 3) = true ∧ t.ctl.tvStopped = s.ctl.tvStopped) ∧
  (∀ (s : State) (o lo a c d : Nat) (b : Blk) (f : Fld),
      tvField o lo = some (b, f) →
      o ∉ s.ctl.tvStopped →
      a < 2 ^ f.w →
      c < 2 ^ f.w →
      d < 2 ^ f.w →
      a ≠ c →
      a ≠ d →
      c ≠ d →
      ∃ t, exec (.tvCompare o lo a c d) s = .next t ∧
        o ∈ t.ctl.tvStopped ∧ t.on b.tvfail = true ∧ t.on (evPend 4) = true) ∧
  (∀ (s : State) (u lo a c d : Nat),
      u < s.ranksU →
      s.hbmSize ≠ 0 →
      2 ^ 26 + u ∉ s.ctl.tvStopped →
      a < 2 ^ 41 →
      c < 2 ^ 41 →
      d < 2 ^ 41 →
      a ≠ c →
      a ≠ d →
      c ≠ d →
      ∃ t, exec (.tvCompare (2 ^ 26 + u) lo a c d) s = .next t ∧
        2 ^ 26 + u ∈ t.ctl.tvStopped ∧ t.on Blk.memory.tvfail = true ∧ t.on (evPend 4) = true ∧ t.msys.remap = s.msys.remap) ∧
  (∀ (s : State) (o : Nat),
      o < 2 ^ 26 ∨ s.msys.held = [] →
      ∃ t, exec (.tvRestoreDone o) s = .next t ∧
        o ∉ t.ctl.tvStopped ∧ t.regs = s.regs)

/-- A REQUEST that repeats one of the last 8 is answered from the cache without execution. A fresh one is executed, answered, and moves the expected number on. An OPEN without authentication, allowed and with fewer than 8 sessions, opens a session, answers and raises EV008. A verified CLOSE ends its session and raises EV008. A verified NOTIFY_ACK takes the acknowledged notices from the window. -/
def Obligations.DatagramCommandsComplete : Prop :=
  (∀ (s : State) (addr port : Nat) (bs : List Byte) (d : Dgram) (x : Session) (ops : List OapOp) (m : List Byte),
      s.answers = true →
      parseDgram 1388 bs = some d →
      d.type = 1 →
      parseOps 2048 d.body = some ops →
      ops.length = d.count →
      s.session d.sid = some x →
      verified x d = true →
      d.gen = s.obj 0x1005 0 →
      seqCase x.expected d.seq x.cache = .again m →
      ∃ t, exec (.oapRequest addr port bs) s = .next t ∧
        t.out = .datagram (if addr < 2 ^ 32 then s.obj 0x1100 1 else s.obj 0x1101 0) (s.obj 0x1102 0) addr port m :: s.out ∧ t.regs = s.regs) ∧
  (∀ (s : State) (addr port : Nat) (bs : List Byte) (d : Dgram) (x : Session) (ops : List OapOp),
      s.answers = true →
      parseDgram 1388 bs = some d →
      d.type = 1 →
      parseOps 2048 d.body = some ops →
      ops.length = d.count →
      s.session d.sid = some x →
      verified x d = true →
      d.gen = s.obj 0x1005 0 →
      seqCase x.expected d.seq x.cache = .fresh →
      ∃ t, exec (.oapRequest addr port bs) s = .next t ∧
        (∃ a p m, t.out.head? = some (.datagram a p addr port m)) ∧
        (∀ y, t.session d.sid = some y → y.expected = (d.seq + 1) % 2 ^ 32)) ∧
  (∀ (s : State) (addr port : Nat) (bs : List Byte) (d : Dgram),
      s.answers = true →
      parseDgram 1388 bs = some d →
      d.type = 5 →
      d.count = 0 →
      d.sid = 0 →
      d.body = [] →
      d.flags % 2 = 0 →
      s.obj 0x1104 0 = 0 →
      s.ctl.opens = [] →
      s.ctl.sessions.length < 8 →
      ∃ t, exec (.oapOpen addr port bs) s = .next t ∧
        t.ctl.sessions.length = s.ctl.sessions.length + 1 ∧ t.on (evPend 8) = true) ∧
  (∀ (s : State) (addr port : Nat) (bs : List Byte) (d : Dgram) (x : Session),
      s.answers = true →
      parseDgram 1388 bs = some d →
      d.type = 7 →
      d.count = 0 →
      d.body = [] →
      s.session d.sid = some x →
      verified x d = true →
      ∃ t, exec (.oapClose addr port bs) s = .next t ∧
        t.session d.sid = none ∧ t.on (evPend 8) = true) ∧
  (∀ (s : State) (addr port : Nat) (bs : List Byte) (d : Dgram) (x : Session),
      s.answers = true →
      parseDgram 1388 bs = some d →
      d.type = 4 →
      d.seq = 0 →
      d.count = 0 →
      d.body = [] →
      s.session d.sid = some x →
      verified x d = true →
      exec (.notifyAck addr port bs) s = .next (s.setSession (x.acked d.ack)))

/-- A malformed datagram on the management port executes nothing (no setting, no stored set, no key changes): OAP_SPOIL:01 increments (saturating) and EV006 is raised, whatever the command that carries it. -/
def Obligations.MalformedDatagramIsDropped : Prop :=
  ∀ (s : State) (addr port : Nat) (bs : List Byte) (c : Instr),
      s.answers = true →
      parseDgram 1388 bs = none →
      c = .oapRequest addr port bs ∨ c = .oapOpen addr port bs ∨ c = .oapClose addr port bs ∨ c = .notifyAck addr port bs →
      ∃ t, exec c s = .next t ∧ t.obj 0x1107 1 = satAdd 32 (s.obj 0x1107 1) 1 ∧ t.on (evPend 6) = true ∧
        t.ctl.netPending = s.ctl.netPending ∧ t.ctl.persistOp = s.ctl.persistOp ∧ t.ctl.oapKey = s.ctl.oapKey

/-- READ of 0x1102:00 answers OK with its value; WRITE of an in-range value answers OK and queues the network setting; a READ_RANGE of one subindex answers what READ answers; DESCRIBE of a control-complex object answers its descriptor and changes nothing; SUBSCRIBE stores the mask of the named session. -/
def Obligations.ObjectCommandsComplete : Prop :=
  (∀ (s : State) (live : Bool),
      s.answers = true →
      exec (.objRead live 0x1102 0) s = .next (s.emit (.objResult 0 (leBytes 2 (s.obj 0x1102 0))))) ∧
  (∀ (s : State) (v : BitVec 16),
      s.answers = true →
      s.netMay ⟨false, false⟩ = true →
      1024 ≤ v.toNat →
      ∃ t, exec (.objWrite false false 0x1102 0 ObjTy.u16.code (leBytes 2 v.toNat)) s = .next t ∧
        t.ctl.netPending = s.ctl.netPending ++ [(objKey 0x1102 0, v.toNat)] ∧ t.out = .objResult 0 [] :: s.out ∧ t.ctl.objs = s.ctl.objs) ∧
  (∀ (s : State) (live : Bool),
      s.answers = true →
      ∃ t, exec (.objReadRange live 0x1107 1 4) s = .next t ∧
        t.out = .objResult 0 (leBytes 4 (s.obj 0x1107 1) ++ leBytes 4 (s.obj 0x1107 2) ++ leBytes 4 (s.obj 0x1107 3) ++ leBytes 4 (s.obj 0x1107 4)) :: s.out) ∧
  (∀ (s : State),
      s.answers = true →
      ∃ t, exec (.objDescribe 0x1102 0) s = .next t ∧
        (∃ d, t.out = .objResult 0 d :: s.out) ∧ t.regs = s.regs ∧ t.ctl = s.ctl) ∧
  (∀ (s : State) (sid : Nat) (mask : List Byte) (x : Session),
      s.answers = true →
      sid ≠ 0 →
      s.session sid = some x →
      ∃ t, exec (.objSubscribe sid mask) s = .next t ∧
        ∃ y, t.session sid = some y ∧ y.subs = leNat mask)

/-- An idle session ends with EV008. A NOTIFY carries the oldest held entries and joins the window; a resend repeats a notice and counts it. k oldest network settings take effect. STORE and ERASE with their key begin the operation; at its end both copies hold the result and EV013 is raised. -/
def Obligations.SessionAndPersistenceCommandsComplete : Prop :=
  (∀ (s : State) (sid : Nat) (x : Session),
      s.session sid = some x →
      ∃ t, exec (.sessionIdleTimeout sid) s = .next t ∧
        t.session sid = none ∧ t.on (evPend 8) = true) ∧
  (∀ (s : State) (sid : Nat) (x : Session),
      s.session sid = some x →
      x.held ≠ [] →
      x.window.length < 8 →
      ∃ t, exec (.notifySend sid) s = .next t ∧
        ∃ y, t.session sid = some y ∧ y.held = x.held.drop 86 ∧ y.window.length = x.window.length + 1 ∧
          (∃ m, t.out = .datagram (if x.addr < 2 ^ 32 then s.obj 0x1100 1 else s.obj 0x1101 0) (s.obj 0x1102 0) x.addr x.port m :: s.out)) ∧
  (∀ (s : State) (sid num : Nat) (x : Session) (w : Notice),
      s.session sid = some x →
      x.window.find? (fun w => decide (w.num = num)) = some w →
      w.sends < 10 →
      ∃ t, exec (.notifyResend sid num) s = .next t ∧
        (∃ m, t.out = .datagram (if x.addr < 2 ^ 32 then s.obj 0x1100 1 else s.obj 0x1101 0) (s.obj 0x1102 0) x.addr x.port m :: s.out) ∧
        ∃ y, t.session sid = some y ∧ y.window = x.window.map (fun v => if v.num = num then { w with sends := w.sends + 1 } else v)) ∧
  (∀ (s : State) (k : Nat), ∃ t, exec (.netSettingsApply k) s = .next t ∧
        t.ctl.netPending = s.ctl.netPending.drop k ∧ t.regs = s.regs) ∧
  (∀ (s : State),
      s.answers = true →
      ∃ t, exec (.persistStore 0x53415645) s = .next t ∧
        t.ctl.persistOp = some (some s.persistNow) ∧ t.regs = s.regs) ∧
  (∀ (s : State),
      s.answers = true →
      ∃ t, exec (.persistErase 0x44454641) s = .next t ∧
        t.ctl.persistOp = some none ∧ t.regs = s.regs) ∧
  (∀ (s : State) (x : Option (Tbl Nat)),
      s.ctl.persistOp = some x →
      ∃ t, exec (.persistDone) s = .next t ∧
        t.ctl.persistOp = none ∧ t.ctl.stored0 = x ∧ t.ctl.stored1 = x ∧ t.on (evPend 13) = true)

/-- A mailbox request while none runs sets BUSY and holds the response; its end clears BUSY, sets DONE and RLEN and raises EV010. A function-level reset with no request running clears the mailbox's expected number; one during a request is held to its end. A debug access below the session's level answers status 1 and changes nothing. -/
def Obligations.MailboxResetAndDebugCommandsComplete : Prop :=
  (∀ (s : State) (v : Word),
      s.answers = true →
      s.on Reg.MBX_STATUS_BUSY.z = false →
      ∃ t, exec (.mbxCtrlWrite v) s = .next t ∧
        t.on Reg.MBX_STATUS_BUSY.z = true ∧ t.ctl.mbxResponse.isSome = true) ∧
  (∀ (s : State) (m : List Byte),
      s.ctl.mbxResponse = some m →
      s.ctl.mbxDiscard = false →
      m.length ≤ 4096 →
      ∃ t, exec (.mailboxResponseDone) s = .next t ∧
        t.ctl.mbxResponse = none ∧ t.on Reg.MBX_STATUS_BUSY.z = false ∧ t.on Reg.MBX_STATUS_DONE.z = true ∧
        t.get Reg.MBX_STATUS_RLEN.z = m.length ∧ t.on (evPend 10) = true) ∧
  (∀ (s : State),
      s.on Reg.MBX_STATUS_BUSY.z = false →
      ∃ t, exec (.pcieFlr) s = .next t ∧
        t.ctl.mbxExpected = none ∧ t.ctl.mbxResponse = none) ∧
  (∀ (s : State),
      s.on Reg.MBX_STATUS_BUSY.z = true →
      ∃ t, exec (.pcieFlr) s = .next t ∧
        t.ctl.mbxDiscard = true ∧ t.regs = s.regs) ∧
  (∀ (s : State) (o : Nat) (v : Word),
      s.alive = true →
      s.get Reg.SEC_STAT_DBG.z = 0 →
      exec (.dbgacc 1 o v) s = .next (s.emit (.dbgAcc 1 0))) ∧
  (∀ (s : State) (r : Nat) (v : Word),
      s.alive = true →
      1 ≤ s.get Reg.SEC_STAT_DBG.z →
      r = Blk.ident.hdr →
      exec (.dbgacc 1 r v) s = .next (s.emit (.dbgAcc 0 (s.word r))))

/-- The clear takes effect first and the occurrence is then delivered anew as the first one: the state is that of an occurrence after the clear, with PEND = 1, CNT = 1 and the occurrence's tag. (For EV009 and EV012 the counter is stated where no session is open, since their own delivery can raise them again.) -/
def Obligations.ClearMeetsAnOccurrence : Prop :=
  (∀ (s : State) (n : Nat),
      isEvent n = true →
      exec (.evtPendClear n true) s = .next ((s.evtClear n).ev n)) ∧
  (∀ (s : State) (n : Nat),
      isEvent n = true →
      (n ≠ 9 ∧ n ≠ 12) ∨ s.ctl.sessions = [] →
      ∃ t, exec (.evtPendClear n true) s = .next t ∧
        t.on (evPend n) = true ∧ t.get (evCnt n) = 1 ∧ t.on (evSat n) = false ∧ t.evTag n = s.now % 2 ^ 96)

/-- Outside DISC = PAIR an arm with a defined SETMODE holds the value, cancels any older one and shows SETPEND; a cancel discards it; an immediate or additive set, or an AT_PPS set whose edge has come, is applied: the set is no longer pending, SET is marked and EV028 is raised. An era increment raises EV023. -/
def Obligations.TimeSetCommandsComplete : Prop :=
  (∀ (s : State) (r : Requester) (v : Nat) (m : SetMode),
      s.disc ≠ 3 →
      setModeOf (s.get Reg.TB_CTRL_SETMODE.z) = some m →
      ∃ t, exec (.tbSetArm r true v) s = .next t ∧
        t.tb.armed = some (m, v % tagMod) ∧ t.on Reg.TB_STATUS_SETPEND.z = true) ∧
  (∀ (s : State), ∃ t, exec (.tbCancel) s = .next t ∧
        t.tb.armed = none ∧ t.on Reg.TB_STATUS_SETPEND.z = false) ∧
  (∀ (s : State) (edge v : Nat) (m : SetMode),
      s.tb.armed = some (m, v) →
      m ≠ .atPps ∨ s.tb.setDue.isSome = true →
      ∃ t, exec (.tbSetApply edge) s = .next t ∧
        t.tb.armed = none ∧ t.tb.wasSet = true ∧ t.on (evPend 28) = true) ∧
  (∀ (s : State), ∃ t, exec (.eraIncrement) s = .next t ∧
        t.now = (s.now / 2 ^ 80 + 1) % 2 ^ 16 * 2 ^ 80 ∧ t.on (evPend 23) = true)

/-- Applying an ADD set of v moves the tag by v as a signed 96-bit amount, modulo 2^96, increments STEPCNT and moves the ALIGNED instants of the trigger outputs by the same amount; sample indices and every input's state stay. -/
def Obligations.SetStepsTheTag : Prop :=
  ∀ (s : State) (edge v p : Nat),
      s.tb.armed = some (.add, v) →
      s.tb.acc < 2 ^ 128 →
      p < 8 →
      ∃ t, exec (.tbSetApply edge) s = .next t ∧ t.now = tagAdd s.now (sext 96 v) ∧ t.ing = s.ing ∧
        t.get Reg.TB_STATUS_STEPCNT.z = (s.get Reg.TB_STATUS_STEPCNT.z + 1) % 2 ^ Reg.TB_STATUS_STEPCNT.w ∧
        (t.pin p).sched = (s.pin p).sched.map (fun c => (tagAdd c.1 (sext 96 v), c.2))

/-- An edge of the selected polarity that fails the acceptance test counts in SPOIL and raises EV020; an edge of the other polarity changes nothing; an accepted one that no set waits for, outside DISC = PPS, becomes the last accepted edge. Once an edge has been accepted, a miss raises EV019, and the second in a row ends qualification and lock. Under DISC = SOFT a rate write sets the next correction; its going stale raises EV027. A gate end judges reference A, then B, then decides a switch, and ends HOLDOVER where the active reference is qualified; with PPS unqualified the gate is one of 2^GATE seconds and the active reference's offset is that against the bypass oscillator, the other's comes from its count of edges; with PPS qualified no gate ends before 2^GATE accepted seconds have passed. A lost reference loses its qualification and its runs, and is in band LOST. A decided switch makes the other reference active, counts it and raises EV018. A lost reference that returns is in band OUT. -/
def Obligations.PpsReferenceAndRateCommandsComplete : Prop :=
  (∀ (s : State) (pol : Bool) (stamp raw : Nat),
      s.on Reg.TB_CTRL_PPS_POL.z = pol →
      ppsAccepts s.tb raw (ns48 (s.get Reg.TB_PPS_TOL.z)) = false →
      ∃ t, exec (.ppsEdge pol stamp raw) s = .next t ∧
        t.on (evPend 20) = true ∧ t.tb = s.tb) ∧
  (∀ (s : State) (pol : Bool) (stamp raw : Nat),
      s.on Reg.TB_CTRL_PPS_POL.z ≠ pol →
      exec (.ppsEdge pol stamp raw) s = .next (s)) ∧
  (∀ (s : State) (pol : Bool) (stamp raw : Nat),
      s.on Reg.TB_CTRL_PPS_POL.z = pol →
      ppsAccepts s.tb raw (ns48 (s.get Reg.TB_PPS_TOL.z)) = true →
      s.tb.armed = none →
      s.disc = 0 →
      ∃ t, exec (.ppsEdge pol stamp raw) s = .next t ∧
        t.tb.ppsLast = some raw ∧ t.tb.ppsMisses = 0 ∧ t.tb.c = s.tb.c) ∧
  (∀ (s : State),
      s.tb.ppsLast.isSome = true →
      1 ≤ s.tb.ppsMisses →
      ∃ t, exec (.ppsMiss) s = .next t ∧
        t.tb.ppsQualified = false ∧ t.tb.locked = false ∧ t.on (evPend 19) = true) ∧
  (∀ (s : State),
      s.tb.ppsLast.isSome = true →
      s.tb.ppsMisses = 0 →
      ∃ t, exec (.ppsMiss) s = .next t ∧
        t.tb.ppsQualified = s.tb.ppsQualified ∧ t.tb.ppsMisses = 1 ∧ t.on (evPend 19) = true) ∧
  (∀ (s : State) (v : Word),
      s.disc = 2 →
      ∃ t, exec (.tbAdjRateWrite v) s = .next t ∧
        t.tb.cNext = some (v.toInt * 2 ^ 23) ∧ t.tb.softFresh = true) ∧
  (∀ (s : State),
      s.disc = 2 →
      s.tb.softFresh = true →
      ∃ t, exec (.softDiscStale) s = .next t ∧
        t.tb.softFresh = false ∧ t.on (evPend 27) = true) ∧
  (∀ (s : State) (count n : Nat) (bypass y : Int),
      s.gateOver bypass = some (n, y) →
      exec (.refGateEnd count bypass) s = .next (((((s.tbSet { s.tb with switchedThisGate := false, gateAt := if s.tb.ppsQualified then s.tb.ppsLast else none }).judgeRef 0 (if s.activeRef = 0 then y else s.edgeOffset (1 - s.activeRef) count n)).judgeRef 1 (if s.activeRef = 0 then s.edgeOffset (1 - s.activeRef) count n else y)).evalSwitch).holdEnd)) ∧
  (∀ (s : State) (bypass : Int),
      s.tb.ppsQualified = false →
      s.gateOver bypass = some (2 ^ s.get Reg.REF_CFG_GATE.z, bypass)) ∧
  (∀ (s : State) (bypass : Int) (a l n : Nat),
      s.tb.ppsQualified = true →
      s.tb.gateAt = some a →
      s.tb.ppsLast = some l →
      l = a + n * 2 ^ 48 →
      s.gateOver bypass = if n < 2 ^ s.get Reg.REF_CFG_GATE.z then none else some (n, 0)) ∧
  (∀ (s : State) (b : Bool), ∃ t, exec (.refLost b) s = .next t ∧
        t.get (bandLoc (b2n b)) = 3 ∧ t.on (qualLoc (b2n b)) = false) ∧
  (∀ (s : State) (o : Nat),
      s.tb.switchTo = some o →
      o < 2 →
      ∃ t, exec (.refSwitchover) s = .next t ∧
        t.activeRef = o ∧ t.tb.switchTo = none ∧ t.on (evPend 18) = true ∧
        t.get Reg.REF_STAT_SWCNT.z = (s.get Reg.REF_STAT_SWCNT.z + 1) % 2 ^ Reg.REF_STAT_SWCNT.w) ∧
  (∀ (s : State) (b : Bool),
      s.get (bandLoc (b2n b)) = 3 →
      ∃ t, exec (.referenceReturn b) s = .next t ∧
        t.get (bandLoc (b2n b)) = 2)

/-- A received PTP event frame, accepted by the port, is delivered with its receive tag, into the next posted buffer of the port's RX ring, behind a prefix with the port, the frame's length, the tag and TQ. A sent event frame that is no one-step Sync puts its tag at the end of the FIFO, raising EV025 where the FIFO was empty; a full FIFO sets OVF and raises EV026. POP removes the oldest entry. -/
def Obligations.PtpCommandsComplete : Prop :=
  (∀ (s : State) (p stamp : Nat) (f : List Byte) (d : List HostDesc) (m : Nat × Nat × Nat),
      ptpAt f = some m →
      s.on (Reg.STR_PSTAT_LINK.e p) = true →
      ptpType f m.2.2 ≤ 3 →
      s.ptpAccepted p f = true →
      exec (.ptpEventRx p stamp f d) s = .next (s.rxPtp p stamp f d)) ∧
  (∀ (s : State) (p r stamp : Nat) (f : List Byte) (d : HostDesc) (rest : List HostDesc),
      s.rxRing p = some r →
      s.ringEmpty r = false →
      bufferOk d = true →
      32 + f.length ≤ d.len →
      ∃ b, (s.rxPtp p stamp f (d :: rest)).out = .hostWrite (s.get64 (Reg.HRG_BASE_L_BASE.e r) (Reg.HRG_BASE_H_BASE.e r)
          + 32 * (s.get (Reg.HRG_STAT_HEAD.e r) % 2 ^ s.get (Reg.HRG_CFG_RLOG.e r)) + 16) b
        :: .hostWrite d.addr (u8 p ++ zeros 1 ++ u16 f.length
          ++ u96 (tagAdd stamp (-(ps48 (s.get (Reg.PTP_RXLAT_LAT.e p)) : Nat))) ++ u16 (s.tq false false) ++ zeros 14 ++ f) :: s.out) ∧
  (∀ (s : State) (p stamp : Nat) (f : List Byte) (m : Nat × Nat × Nat),
      ptpAt f = some m →
      s.on (Reg.PTP_CFG_TX_EN.e p) = true →
      s.ptpEnabled p m.1 = true →
      ptpType f m.2.2 ≤ 3 →
      s.oneStep p f = false →
      s.ptpFifo p = [] →
      ∃ t, exec (.ptpTxTimestamp p stamp f) s = .next t ∧
        t.ptpFifo p = [⟨s.txTag p stamp, ptpType f m.2.2, ptpDomain f m.2.2, ptpSeq f m.2.2⟩] ∧ t.on (evPend 25) = true) ∧
  (∀ (s : State) (p : Nat), ∃ t, exec (.ptpPop p) s = .next t ∧
        t.ptpFifo p = (s.ptpFifo p).drop 1)

/-- Signal on a DOWN lane brings it to ADAPT. Loss of signal brings a running lane to DOWN and counts it. A CDR loss brings HUNT or UP back to ADAPT, finished adaptation brings ADAPT to HUNT and stores and counts a full one, a timeout brings ADAPT or HUNT to ADAPT with a full adaptation, the second LMB at one alignment within 8193 blocks brings a native lane from HUNT to UP where the first is only remembered, and a block-lock loss brings it back to HUNT. A JESD204C link's lock moves a lane of a JESD group between HUNT and UP. -/
def Obligations.LaneCommandsComplete : Prop :=
  (∀ (s : State) (lane : Nat),
      lane < 128 →
      s.get (laneState lane) = 1 →
      ∃ t, exec (.laneSignalDetect lane) s = .next t ∧
        t.get (laneState lane) = 2 ∧ (t.lane lane).full = !(s.lane lane).stored) ∧
  (∀ (s : State) (lane : Nat),
      lane < 128 →
      2 ≤ s.get (laneState lane) →
      ∃ t, exec (.lossOfSignal lane) s = .next t ∧
        t.get (laneState lane) = 1 ∧ (t.lane lane).lmbs = [] ∧
        t.get (Reg.ING_LSTAT_LOSCNT.e lane) = satAdd (Reg.ING_LSTAT_LOSCNT.e lane).w (s.get (Reg.ING_LSTAT_LOSCNT.e lane)) 1) ∧
  (∀ (s : State) (lane : Nat),
      lane < 128 →
      s.get (laneState lane) = 3 ∨ s.get (laneState lane) = 4 →
      ∃ t, exec (.cdrLockLoss lane) s = .next t ∧
        t.get (laneState lane) = 2) ∧
  (∀ (s : State) (lane : Nat),
      lane < 128 →
      s.get (laneState lane) = 2 →
      ∃ t, exec (.adaptationDone lane) s = .next t ∧
        t.get (laneState lane) = 3 ∧ (t.lane lane).stored = ((s.lane lane).stored || (s.lane lane).full) ∧
        t.get (Reg.ING_LSTAT_ADAPTCNT.e lane) = (if (s.lane lane).full then
          satAdd (Reg.ING_LSTAT_ADAPTCNT.e lane).w (s.get (Reg.ING_LSTAT_ADAPTCNT.e lane)) 1 else s.get (Reg.ING_LSTAT_ADAPTCNT.e lane))) ∧
  (∀ (s : State) (lane : Nat),
      lane < 128 →
      s.get (laneState lane) = 2 ∨ s.get (laneState lane) = 3 →
      ∃ t, exec (.adaptTimeout lane) s = .next t ∧
        t.get (laneState lane) = 2 ∧ (t.lane lane).full = true) ∧
  (∀ (s : State) (lane pos p : Nat) (line : Line) (b : RxBlock),
      lane < 128 →
      s.get (laneState lane) = 3 →
      s.laneJesd lane = false →
      (s.lineRx lane line).head? = some b →
      b.kind = .lmb →
      p ∈ (s.lane lane).lmbs →
      p < pos →
      (pos - p) % 257 = 0 →
      (pos - p) / 257 ≤ 8193 →
      ∃ t, exec (.lmbRx lane line pos) s = .next t ∧
        t.get (laneState lane) = 4) ∧
  (∀ (s : State) (lane pos : Nat) (line : Line) (b : RxBlock),
      lane < 128 →
      s.get (laneState lane) = 3 →
      s.laneJesd lane = false →
      (s.lineRx lane line).head? = some b →
      b.kind = .lmb →
      (s.lane lane).lmbs.all (fun p => !sameAlignment p pos) = true →
      ∃ t, exec (.lmbRx lane line pos) s = .next t ∧
        t.get (laneState lane) = 3 ∧ pos ∈ (t.lane lane).lmbs ∧ t.regs = s.regs) ∧
  (∀ (s : State) (lane : Nat),
      lane < 128 →
      s.get (laneState lane) = 4 →
      s.laneJesd lane = false →
      ∃ t, exec (.blockLockLoss lane) s = .next t ∧
        t.get (laneState lane) = 3 ∧ (t.lane lane).hunting = true) ∧
  (∀ (s : State) (lane : Nat),
      lane < 128 →
      s.get (laneState lane) = 3 →
      s.laneJesd lane = true →
      ∃ t, exec (.jesdLinkLock lane true) s = .next t ∧
        t.get (laneState lane) = 4) ∧
  (∀ (s : State) (lane : Nat),
      lane < 128 →
      s.get (laneState lane) = 4 →
      s.laneJesd lane = true →
      ∃ t, exec (.jesdLinkLock lane false) s = .next t ∧
        t.get (laneState lane) = 3)

/-- Every lane command of the ingress leaves memory, the tiles, the DMA engines, the time base, the display and the security state unchanged, and the LANE register of every other lane keeps its state. -/
def Obligations.LaneCommandsKeepTheTimeBaseAndMemory : Prop :=
  ∀ (s : State) (lane k pos : Nat) (line : Line) (b : Bool) (c : Instr),
      c = .laneSignalDetect lane ∨ c = .lossOfSignal lane ∨ c = .cdrLockLoss lane ∨ c = .adaptationDone lane ∨ c = .adaptTimeout lane ∨
        c = .lmbRx lane line pos ∨ c = .blockLockLoss lane ∨ c = .jesdLinkLock lane b →
      k < 128 →
      k ≠ lane →
      ∃ t, exec c s = .next t ∧ t.mem = s.mem ∧ t.tls = s.tls ∧ t.dma = s.dma ∧ t.tb = s.tb ∧ t.dsp = s.dsp ∧ t.sec = s.sec ∧
        t.pending = s.pending ∧ t.get (laneState k) = s.get (laneState k)

/-- The frame that begins a stretch of a native lane's blocks is judged for each input that takes the lane, in ascending order, with its stamp less the receive delay, and the lane stops hunting; a checking lane counts a free number of bit errors instead, at most one for each bit. The block after a frame that is a control block or begins with the magic changes nothing; any other discards the blocks up to the next control block, in which no further frame begins, counts them, and the lane hunts. An INTERIM record of an open gap is closed into the gap streams. Clearing RATEFAULT releases the input. The first fast-path sample of a frame of a locked input opens it. A multiblock with a good CRC that fits is accepted at its index. A link fault of a lane die takes one free cause from 1 to 15 on every enabled input of its lanes, and none of them accepts a frame while it lasts. -/
def Obligations.FrameCommandsComplete : Prop :=
  (∀ (s : State) (lane stamp : Nat) (line : Line) (bs : List RxBlock),
      lane < 128 →
      s.laneJesd lane = false →
      s.get (Reg.ING_LCFG_CHK.e lane) = 0 →
      frameFrom (s.lane lane).hunting (s.lineRx lane line) = bs →
      bs ≠ [] →
      let f := tagAdd (s.quantised stamp) (-(8796093 : Int))
      let p := s.stampScale f
      let t := p.1.setLane lane { p.1.lane lane with hunting := false }
      exec (.frameVerdict lane line stamp) s = .next (((upto 128).filter (fun n => t.takesLane n lane)).foldl (fun s n => s.judgeBlocks lane bs f p.2 n) t)) ∧
  (∀ (s : State) (lane stamp : Nat) (line : Line),
      lane < 128 →
      s.laneJesd lane = false →
      s.get (Reg.ING_LCFG_CHK.e lane) ≠ 0 →
      ∃ e, e ≤ 257 * line.blocks ∧ exec (.frameVerdict lane line stamp) s = .next (s.took.count64 (Reg.ING_LERR_L_ERR.e lane) (Reg.ING_LERR_H_ERR.e lane) e)) ∧
  (∀ (s : State) (lane : Nat) (line : Line) (b : RxBlock) (l : List RxBlock),
      s.lineRx lane line = b :: l →
      b.kind ≠ .data ∨ b.magic = true →
      exec (.frameLongCheck lane line) s = .next s) ∧
  (∀ (s : State) (lane n : Nat) (line : Line) (b : RxBlock) (l : List RxBlock),
      lane < 128 →
      n < 128 →
      s.laneJesd lane = false →
      s.takesLane n lane = true →
      (s.lineRx lane line).takeWhile RxBlock.isData = b :: l →
      (b :: l).any RxBlock.magic = false →
      (s.inp n).gap = none →
      ∃ t, exec (.frameLongCheck lane line) s = .next t ∧
        (t.lane lane).hunting = true ∧ (t.inp n).causes = (s.inp n).causes ++ [5] ∧
        t.get (Reg.ING_SPOIL_SPOIL.e n) = satAdd (Reg.ING_SPOIL_SPOIL.e n).w (s.get (Reg.ING_SPOIL_SPOIL.e n))
          (ceilDiv (l.length + 1) (s.flen n / 32))) ∧
  (∀ (s : State) (n : Nat) (g : Gap),
      (s.inp n).gap = some g →
      s.on (Reg.ING_LMAP_EN.e n) = true →
      exec (.gapInterim n) s = .next (s.gapRecord n 2 g (s.gapBound n g.first))) ∧
  (∀ (s : State) (n : Nat), ∃ t, exec (.ratefaultClear n) s = .next t ∧
        (t.inp n).rateFault = false ∧ (t.inp n).rateBad = false ∧ (t.inp n).recent = []) ∧
  (∀ (s : State) (n counter : Nat) (i q : Int),
      s.inputOn n = true →
      s.get (Reg.ING_ICFG_GEN.e n) = 0 →
      (s.inp n).locked = true →
      ∃ t, exec (.fastPathSample n counter i q true) s = .next t ∧
        (t.inp n).fast.head? = some (idxAdd counter (s.inp n).offset, i, q) ∧ (t.inp n).fastOpen = true ∧
        (t.inp n).fastFirst = idxAdd counter (s.inp n).offset ∧ t.regs = s.regs) ∧
  (∀ (s : State) (n k : Nat) (words : List Nat) (stamp : Nat),
      s.takesBlocks n = true →
      (s.inp n).rateFault = false →
      heldBytes (s.inp n) + 2 * words.length ≤ 16384 →
      ((s.inp n).series = true → (s.inp n).replace = false ∧ (s.inp n).newRate = false) →
      let c := k * 128 * 2 ^ s.get (Reg.ING_LMAP_LW.e n) / s.get (Reg.ING_JCFG_M.e n) % idxMod
      let f := s.laneStamp (s.get (Reg.ING_LMAP_LANE.e n)) stamp
      let p := s.stampScale f
      exec (.jesdMultiblockRelease n k words stamp true true) s = .next (p.1.acceptAt n c (s.jesdSamples n words) ((f : Int) * 2 ^ 32) p.2 (if (s.inp n).series then idxAdd c (s.inp n).offset else c, false, false) (2 * words.length))) ∧
  (∀ (s : State) (die : Nat), ∃ t c, exec (.laneDieLinkFault die) s = .next t ∧
        1 ≤ c ∧ c ≤ 15 ∧ t.mem = s.mem ∧
        ∀ n, n < 128 → s.inputOn n = true → (s.lanesOf n).any (fun l => l / 32 == die) = true →
          t.on { Reg.ING_ISTAT_CAUSE.e n with lo := c, w := 1 } = true ∧ (t.inp n).accepting = false ∧ t.on (evPend (112 + n)) = true)

/-- A frame for an input held in RATEFAULT by its re-anchorings is discarded, whatever it holds: no sample joins its elastic buffer and its expected index stays. -/
def Obligations.LockedFrameFromARateFaultIsDiscarded : Prop :=
  ∀ (s : State) (lane n f k : Nat) (bs : List Byte) (whole : Bool),
      (s.inp n).rateFault = true →
      ((s.judge lane bs f k whole n).inp n).elastic = (s.inp n).elastic ∧ ((s.judge lane bs f k whole n).inp n).iExp = (s.inp n).iExp ∧
      (s.judge lane bs f k whole n).get (Reg.ING_SPOIL_SPOIL.e n) = satAdd (Reg.ING_SPOIL_SPOIL.e n).w (s.get (Reg.ING_SPOIL_SPOIL.e n)) 1

/-- At its frame boundary a lane that the commit waits for takes its staged settings, its group's with the group's last lane, and each input's map that begins or ends there follows; with the last lane the block is done. A coarse grid that has not swapped takes as its swap index the first window start of the new grid at or after the commit instant, or the instant's own index where the input is in a gap, and one without a running index series swaps at once. A fine input that has not passed its swap point passes it: its old grids take no span that begins at or after the first of the new grid. -/
def Obligations.IngressAndCoarseSwapsComplete : Prop :=
  (∀ (s : State) (lane : Nat),
      s.maySwap .ingress = true →
      s.ing.lanesLeft.contains lane = true →
      let s0 := { s with ing := { s.ing with lanesLeft := s.ing.lanesLeft.filter (· ≠ lane) } }
      let t := (upto 128).foldl (fun s n => s.inputBoundary lane n) ((s0.swapLane lane).swapGroup (lane / 8))
      exec (.ingressSwap lane) s = .next (if t.ing.lanesLeft = [] then (t.swapWhere .ingress (fun _ => true)).swapDone .ingress else t)) ∧
  (∀ (s : State) (lane : Nat),
      lane < 128 →
      s.maySwap .ingress = true →
      s.ing.lanesLeft.contains lane = true →
      ∃ t, exec (.ingressSwap lane) s = .next t ∧
        t.ing.lanesLeft = s.ing.lanesLeft.filter (· ≠ lane) ∧
        ∀ f, f = Reg.ING_LCFG_INV ∨ f = Reg.ING_LCFG_PWRDN ∨ f = Reg.ING_LCFG_CHK → t.get (f.e lane) = s.get ((f.e lane).staged .ingress)) ∧
  (∀ (s : State) (n port : Nat),
      s.maySwap .coarse = true →
      s.front.gridsLeft.contains (3 * n + port) = true →
      (s.inp n).models ≠ [] →
      s.on (Reg.ING_LMAP_EN.e n) = true →
      let i := s.indexAt n s.commitAt
      let h := (s.gridNew n).hop n port
      let up := ceilDiv i h * h
      ∃ t, exec (.cchSwap n port) s = .next t ∧
        t.front.gridsLeft = s.front.gridsLeft.filter (· ≠ 3 * n + port) ∧
        t.swapIndex n port = some (if (s.inp n).gap.isSome then i else if up < idxMod then up else 0)) ∧
  (∀ (s : State) (n port : Nat),
      s.maySwap .coarse = true →
      s.front.gridsLeft.contains (3 * n + port) = true →
      (s.inp n).models = [] ∨ s.on (Reg.ING_LMAP_EN.e n) = false →
      ∃ t, exec (.cchSwap n port) s = .next t ∧
        t.front.gridsLeft = s.front.gridsLeft.filter (· ≠ 3 * n + port) ∧ t.front.swapped.contains (3 * n + port) = true) ∧
  (∀ (s : State) (n : Nat),
      s.maySwap .fine = true →
      s.fine.left.contains n = true →
      let b := s.stagedView .fine
      let g := s.gridNew n
      let h := g.hop n 0
      let c := fineGrid b n h (g.len n 0) (idxMod / h + ceilDiv (s.indexAt n s.commitAt) h) true
      let t := ({ s with fine := { s.fine with left := s.fine.left.filter (· ≠ n) } }.calSwap 4 n).chainsLimit n (c.firstOf c.next)
      exec (.fchSwap n) s = .next (if b.on (Reg.FCH_ICFG_EN.e n) = true ∧ g.main n = true ∧ (t.fin n).chains.any (fun c => c.last.isSome) = true ∧
          t.get Reg.PWR_STAT_MODE.z = 4 then (t.chainBegin n c c.next).finePrune n else t.finePrune n))

/-- A release passes at most 16 indices on. The coarse spectrum that its output delivers next is counted and delivered to its consumers, on the main path and at the seam port. The sketch spectrum delivered next goes to the views, at its deadline with what is there, and one that a frame-fault notice names already is counted. A coarse index not delivered by its deadline is taken as void by every fine grid, and the spans found late are declared. A fine span that is due is taken by its grid, and the earliest due span is formed for its bin, one product for each coarse generation it holds. -/
def Obligations.SpectrumCommandsComplete : Prop :=
  (∀ (s : State) (n : Nat), exec (.sampleRelease n) s = .next (((upto 16).foldl (fun s _ => s.release1 n) s).dcSync n)) ∧
  (∀ (s : State) (n m sat csat : Nat) (p : Spectrum),
      s.coarseSpec n 0 m = some (p, sat, csat) →
      exec (.coarseSpectrum n false m) s = .next ((s.coarseDone n 0 p sat csat).mainTake n p)) ∧
  (∀ (s : State) (n m sat csat : Nat) (p : Spectrum),
      s.coarseSpec n 1 m = some (p, sat, csat) →
      exec (.coarseSpectrum n true m) s = .next ((s.coarseDone n 1 p sat csat).seamLate n p)) ∧
  (∀ (s : State) (n m : Nat) (p : Spectrum),
      s.sketchSpec n m false = some p →
      exec (.sketchSpectrum n m) s = .next (((bif s.spanFault n p.first p.len then s.count (Reg.CCH_SKFF_COUNT.e n) 1 else s).deliverSpec 2 n p).viewsTake 0 n p)) ∧
  (∀ (s : State) (n m : Nat) (p : Spectrum),
      s.sketchSpec n m true = some p →
      exec (.sketchDeadline n m) s = .next (((bif s.spanFault n p.first p.len then s.count (Reg.CCH_SKFF_COUNT.e n) 1 else s).deliverSpec 2 n p).viewsTake 0 n p)) ∧
  (∀ (s : State) (n m : Nat),
      s.produced 0 n m = false →
      exec (.coarseVoidDeadline n m) s = .next ((s.fineVoid n m).1.declareLate n (s.fineVoid n m).2)) ∧
  (∀ (s : State) (n mf : Nat),
      (s.fin n).chains.any (FineChain.isDue · mf) = true →
      exec (.fineSpectrumDue n mf) s = .next ((s.setChains n (mapFirst (FineChain.isDue · mf) FineChain.taken (s.fin n).chains)).finePrune n)) ∧
  (∀ (s : State) (n mf k g : Nat) (c : FineChain),
      s.dueSpan n mf = some (c, g) →
      c.bins.contains k = true →
      c.done.contains k = false →
      let y := s.findLost n c (((upto c.nb).map (g + ·)).filter (fun i => lt (c.last.getD 0) (i + c.depth) && (s.coarseOf n c i).isSome)) [k]
      let t := (s.spanGens n c g).foldl (fun t cg => t.fineProduce n y.2 g k cg) y.1
      exec (.fineSpectrum n mf k) s = .next ((t.setChains n (mapFirst (· == c) (fun _ => y.2.finish k) (t.fin n).chains)).finePrune n))

/-- At its deadline the interval under way of a running entry closes and the next one opens. The oldest closed interval of a sketch-plane view joins those held, one of any other plane forms its record in its turn, and so does a held one whose hold ends. CLR_HOLD and CLR_PERSIST reach every input of the view. A view at its boundary, or with CUT at once, swaps. A drained view whose records are all formed and that no commit restarts is OFF. A view takes the ordered step at a boundary of the new interval length. -/
def Obligations.DetectorCommandsComplete : Prop :=
  (∀ (s : State) (v x : Nat) (c : Interval),
      (s.viewsOf (s.viewField v Reg.DVW_CTRL_PLANE) x).contains v = true →
      (s.vin v x).running = true →
      (s.vin v x).cur = some c →
      exec (.intervalDeadline v x) s = .next ((s.closeInterval v x false).openInterval v x c.grid (c.grid.wrap c.e1))) ∧
  (∀ (s : State) (v x : Nat) (c : Interval) (l : List Interval),
      (s.vin v x).closed = c :: l →
      c.field Reg.DVW_CTRL_PLANE = 0 →
      ∃ t, exec (.detectorRecordClose v x) s = .next t ∧
        (t.vin v x).closed = l ∧ (t.vin v x).held = (s.vin v x).held ++ [c] ∧ t.regs = s.regs) ∧
  (∀ (s : State) (v x : Nat) (c : Interval) (l : List Interval),
      (s.vin v x).closed = c :: l →
      c.field Reg.DVW_CTRL_PLANE ≠ 0 →
      s.inTurn v x c = true →
      exec (.detectorRecordClose v x) s = .next ((s.setVin v x { s.vin v x with closed := l }).recordOut v x c)) ∧
  (∀ (s : State) (v x : Nat) (c : Interval) (l : List Interval),
      (s.vin v x).held = c :: l →
      s.inTurn v x c = true →
      exec (.sketchRecordHoldEnd v x) s = .next ((s.setVin v x { s.vin v x with held := l }).recordOut v x c)) ∧
  (∀ (s : State) (v x : Nat),
      x ∈ s.viewInputs v →
      ∃ t, exec (.dvwClrHold v) s = .next t ∧
        (t.vin v x).sum.holdClr = true ∧ t.regs = s.regs) ∧
  (∀ (s : State) (v x : Nat),
      x ∈ s.viewInputs v →
      ∃ t, exec (.dvwClrPersist v) s = .next t ∧
        (t.vin v x).sum.persist = [] ∧ t.regs = s.regs) ∧
  (∀ (s : State) (v : Nat),
      s.maySwap .detect = true →
      s.det.left.contains v = true →
      (s.viewInputs v).all (s.atBoundary v) = true ∨ (s.stagedView .detect).on (Reg.DVW_CTRL_CUT.e v) = true →
      exec (.viewSwap v) s = .next (s.viewSwapNow v)) ∧
  (∀ (s : State) (v : Nat),
      s.get (viewState v) = 3 →
      s.viewEmpty v = true →
      s.det.restart.contains v = false →
      ∃ t, exec (.viewDrained v) s = .next t ∧
        t.get (viewState v) = 0) ∧
  (∀ (s : State) (v x e k : Nat),
      tget (fun _ => none) s.det.ordered v = some k →
      (∀ c, (s.vin v x).cur = some c → c.specs = [] ∧ c.e0 = e) →
      (s.vin v x).step ≠ k →
      e % (max 1 (s.viewField v Reg.DVW_INT_N) * 2 ^ k) = 0 →
      ∃ t, exec (.viewRateStep v x e) s = .next t ∧
        (t.vin v x).step = k)

/-- A tuner's chain delivers its next output once its samples are there, and the first one delivered makes the tuner RUNNING; an old chain delivers before it, and its end swaps the tuner. A tuner with a swap index under a commit swaps at it. A glaze ends once its outputs are done. A drained tuner is OFF and shows DRAINED, and one that a commit has enabled again begins its new series. The ladder's order becomes the tuner's step, of which the chain is ordered as many stages as SMAX allows and the rest as thinning. -/
def Obligations.TunerCommandsComplete : Prop :=
  (∀ (s : State) (k : Nat) (ch : Chain),
      (s.tuner k).old = none →
      (s.tuner k).chain = some ch →
      s.tunReady ch ch.next = true →
      let t := s.tunNext k false ch
      exec (.tunerOutput k) s = .next (if t.get (tunState k) = 1 ∧ (s.tunOut ch ch.next).isSome = true then t.put (tunState k) 2 else t)) ∧
  (∀ (s : State) (k : Nat) (o : Chain),
      (s.tuner k).old = some o →
      o.finished = false →
      s.tunReady o o.next = true →
      exec (.tunerOutput k) s = .next (s.tunNext k true o)) ∧
  (∀ (s : State) (k : Nat) (o : Chain),
      (s.tuner k).old = some o →
      (s.tuner k).chain = none →
      o.finished = true →
      exec (.tunerOutput k) s = .next (((s.setTuner k { s.tuner k with old := none }).put (tunState k) 4).tunSwapped k)) ∧
  (∀ (s : State) (k i : Nat),
      (s.tuner k).iS = some i →
      s.adm.named.contains .tuners = true →
      2 ≤ s.get Reg.ADM_STAT_STATE.z →
      exec (.tunerSwap k) s = .next ((s.setTuner k { s.tuner k with iS := none }).tunSwapAt k i)) ∧
  (∀ (s : State) (k : Nat) (ch : Chain) (g : Glaze),
      k < 256 →
      (s.tuner k).chain = some ch →
      ch.glaze = some g →
      0 < g.g →
      g.first + g.g ≤ ch.next →
      ∃ t, exec (.glazeEnd k) s = .next t ∧
        (∃ c, (t.tuner k).chain = some c ∧ c.glaze = none) ∧ t.get (tunState k) = 2 ∧ t.on (Reg.TUN_TSTAT_GLZEND.e k) = true) ∧
  (∀ (s : State) (k : Nat),
      k < 256 →
      s.get (tunState k) = 4 →
      (s.tuner k).again = none →
      ∃ t, exec (.tunerDrained k) s = .next t ∧
        t.get (tunState k) = 0 ∧ t.on (Reg.TUN_TSTAT_DRAINED.e k) = true) ∧
  (∀ (s : State) (k i : Nat),
      s.get (tunState k) = 4 →
      (s.tuner k).again = some i →
      exec (.tunerDrained k) s = .next (((s.put (tunState k) 0).tunFlag k Reg.TUN_TSTAT_DRAINED).tunAgain k i)) ∧
  (∀ (s : State) (k n : Nat),
      (s.tuner k).ordered = some n →
      ∃ t, exec (.tunerStepChange k) s = .next t ∧
        (t.tuner k).ordered = none ∧ (t.tuner k).step = n ∧
        (t.tuner k).chain = (s.tuner k).chain.map (·.order (min n (s.get (Reg.TUN_DEST_SMAX.e k))) (n - s.get (Reg.TUN_DEST_SMAX.e k))) ∧
        (t.tuner k).old = (s.tuner k).old.map (·.order (min n (s.get (Reg.TUN_DEST_SMAX.e k))) (n - s.get (Reg.TUN_DEST_SMAX.e k))))

/-- The first product of a plane's element that a unit sees is judged, and so is a discrete product at the head of an enabled unit's queue. A completed condition fires. At the end of its hold-off a unit leaves HOLDOFF. An edge that persists changes the level, a glitch is counted. -/
def Obligations.TriggerQualificationCommandsComplete : Prop :=
  (∀ (s : State) (u x e : Nat) (p : TrigPulse) (l : List TrigPulse),
      u < 32 →
      s.on (Reg.TRG_UCFG_EN.e u) = true →
      s.runs = true →
      6 < s.get (Reg.TRG_UCFG_SRC.e u) →
      (s.unit u).queue = p :: l →
      exec (.triggerProduct u x e) s = .next ((s.setUnit u { s.unit u with queue := l }).judgePulse u p)) ∧
  (∀ (s : State) (u x e : Nat) (p : Product) (l : List Product),
      u < 32 →
      s.on (Reg.TRG_UCFG_EN.e u) = true →
      s.runs = true →
      s.get (Reg.TRG_UCFG_SRC.e u) ≤ 6 →
      s.unitProducts u x e = p :: l →
      (tget (fun _ => TrigElem.reset) (s.unit u).elems x).last = none →
      exec (.triggerProduct u x e) s = .next (s.judge1 u x p)) ∧
  (∀ (s : State) (u : Nat) (d : TrigDone),
      u < 32 →
      s.runs = true →
      (s.unit u).comp = some d →
      exec (.triggerFire u) s = .next (s.fire u d)) ∧
  (∀ (s : State) (u d : Nat),
      s.get (unitState u) = 4 →
      (s.unit u).dec = some d →
      serialBefore 96 s.now (tagAdd d (s.hoff u : Nat)) = false →
      exec (.holdoffEnd u) s = .next (s.firingOver u)) ∧
  (∀ (s : State) (p stamp : Nat) (level : Bool),
      p < 8 →
      s.on (Reg.TIN_CFG_EN.e p) = true →
      s.runs = true →
      s.on (Reg.TIN_STAT_LEVEL.e p) ≠ level →
      ∃ t, exec (.trigInEdge p level true stamp) s = .next t ∧
        t.on (Reg.TIN_STAT_LEVEL.e p) = level ∧ t.mem = s.mem ∧ t.out = s.out) ∧
  (∀ (s : State) (p stamp : Nat) (level : Bool),
      p < 8 →
      s.on (Reg.TIN_CFG_EN.e p) = true →
      s.runs = true →
      exec (.trigInEdge p level false stamp) s = .next ((s.stampScale (s.quantised stamp)).1.count (Reg.TIN_STAT_GLITCH.e p) 1))

/-- In Watch and Full, arming a unit in no group as its master arms it, arming a group in use arms the group, disarming disarms, and a force without FTAGEN fires it now. A force tag in the future is held pending with FPEND, and a due one is taken. A due pair arm arms its group under the given number. -/
def Obligations.TriggerControlCommandsComplete : Prop :=
  (∀ (s : State) (u : Nat),
      u < 32 →
      s.runs = true →
      s.masterOf u = none →
      exec (.trgArm u false) s = .next (s.armUnit u)) ∧
  (∀ (s : State) (g : Nat),
      g < 8 →
      s.runs = true →
      (s.groupBank g).on (Reg.TRG_GCFG_EN.e g) = true →
      exec (.trgArm g true) s = .next (s.groupArm g true)) ∧
  (∀ (s : State) (u : Nat),
      u < 32 →
      s.runs = true →
      exec (.trgDisarm u false) s = .next ((s.disarm u).holdPins)) ∧
  (∀ (s : State) (u : Nat),
      u < 32 →
      s.runs = true →
      s.on (Reg.TRG_UCFG_EN.e u) = true →
      exec (.trgForce u false) s = .next (s.force u s.now false)) ∧
  (∀ (s : State) (u : Nat),
      u < 32 →
      s.runs = true →
      s.on (Reg.TRG_UCFG_EN.e u) = true →
      s.now < s.get96 Reg.TRG_FTAG_L_TAG.z Reg.TRG_FTAG_M_TAG.z Reg.TRG_FTAG_H_TAG.z →
      ∃ t, exec (.trgForce u true) s = .next t ∧
        (t.unit u).force = some (s.get96 Reg.TRG_FTAG_L_TAG.z Reg.TRG_FTAG_M_TAG.z Reg.TRG_FTAG_H_TAG.z) ∧ t.on (Reg.TRG_USTAT_FPEND.e u) = true) ∧
  (∀ (s : State) (u tag : Nat),
      u < 32 →
      (s.unit u).force = some tag →
      tag ≤ s.now →
      s.runs = true →
      s.on (Reg.TRG_UCFG_EN.e u) = false →
      ∃ t, exec (.forceScheduled u) s = .next t ∧
        (t.unit u).force = none ∧ t.on (Reg.TRG_USTAT_FPEND.e u) = false) ∧
  (∀ (s : State) (u tag : Nat),
      u < 32 →
      (s.unit u).force = some tag →
      tag ≤ s.now →
      s.runs = true →
      s.on (Reg.TRG_UCFG_EN.e u) = true →
      exec (.forceScheduled u) s = .next (((s.setUnit u { s.unit u with force := none }).flag (Reg.TRG_USTAT_FPEND.e u) false).force u tag true)) ∧
  (∀ (s : State) (g tag k : Nat),
      (s.group g).pend = some (tag, k) →
      tag ≤ s.now →
      s.runs = true →
      exec (.pairGroupArm g) s = .next (s.armGroup g (some k)))

/-- Arming an enabled DISARMED unit gives state ARMED and the next arm number, modulo 2^32, which its records carry unless its group gives one; in FIRED and HOLDOFF, and with a completed condition, the arm is held pending and the state stays; a disarm in the same cycle wins over an arm from DISARMED; every other unit keeps its state, counts and records. -/
def Obligations.ArmOfAnEnabledUnit : Prop :=
  (∀ (s : State) (u : Nat),
      u < 32 →
      s.on (Reg.TRG_UCFG_EN.e u) = true →
      s.get (unitState u) = 0 →
      (s.unit u).offAt ≠ some s.tb.acc →
      (s.armUnit u).get (unitState u) = 1 ∧ ((s.armUnit u).unit u).arm = ((s.unit u).arm + 1) % 2 ^ 32 ∧
      ((s.armUnit u).unit u).armRec = s.armNumber u (((s.unit u).arm + 1) % 2 ^ 32) ∧
      ∀ v, v < 32 → v ≠ u → (s.armUnit u).unit v = s.unit v ∧ (s.armUnit u).get (unitState v) = s.get (unitState v)) ∧
  (∀ (s : State) (u : Nat),
      u < 32 →
      s.on (Reg.TRG_UCFG_EN.e u) = true →
      s.get (unitState u) = 3 ∨ s.get (unitState u) = 4 ∨ (s.get (unitState u) ≠ 0 ∧ (s.unit u).comp.isSome = true) →
      (s.armUnit u).get (unitState u) = s.get (unitState u) ∧ (s.armUnit u).on (Reg.TRG_USTAT_ARMPEND.e u) = true ∧
      ((s.armUnit u).unit u).arm = (s.unit u).arm) ∧
  (∀ (s : State) (u : Nat),
      s.get (unitState u) = 0 →
      (s.unit u).offAt = some s.tb.acc →
      s.armUnit u = s)

/-- An ALIGNED instant that has come begins its pulse. A pulse that has reached its end leaves the pin at its inactive level, high where POL = 1, outside mode HOLD and outside a commit. A held record is released to the queue, a queued record enters its stream and leaves the queue with its last stream. A unit in no firing that a commit waits for swaps to its staged settings and shows it. -/
def Obligations.TriggerOutputCommandsComplete : Prop :=
  (∀ (s : State) (p : Nat) (c : Nat × Nat) (l : List (Nat × Nat)),
      (s.pin p).sched.filter (fun c => !serialBefore 96 s.now c.1) = c :: l →
      exec (.toutAlignedEdge p) s = .next (((s.setPin p { s.pin p with sched := (s.pin p).sched.erase c }).pulse p c.2 c.1).trgDone)) ∧
  (∀ (s : State) (p e : Nat),
      (s.pin p).ends = some e →
      serialBefore 96 s.now e = false →
      s.maySwap .triggers = false →
      (s.pin p).old = none →
      bits (s.pinCfg p) 28 2 ≠ 2 →
      ∃ t, exec (.toutPulseEnd p) s = .next t ∧
        (t.pin p).ends = none ∧ (t.pin p).active = false ∧ (t.pin p).level = bit (s.pinCfg p) 30) ∧
  (∀ (s : State) (u : Nat) (r : TrigRecord),
      s.trg.held.find? (fun r => r.unit == u) = some r →
      ∃ t, exec (.triggerRecordRelease u) s = .next t ∧
        t.trg.held = s.trg.held.erase r ∧ t.mem = s.mem) ∧
  (∀ (s : State) (st : Nat) (r : TrigRecord),
      s.trg.queue.find? (fun r => r.streams.contains st) = some r →
      r.streams = [st] →
      ∃ t, exec (.triggerRecordDequeue st) s = .next t ∧
        t.trg.queue = s.trg.queue.erase r ∧ t.closed = s.closed ++ [(st, s.now, ⟨0x02, 1, r.unit, r.body⟩)]) ∧
  (∀ (s : State) (u : Nat),
      u < 32 →
      s.maySwap .triggers = true →
      s.trg.left.contains u = true →
      s.get (unitState u) < 3 →
      (s.unit u).comp = none →
      ∃ t, exec (.triggerUnitSwap u) s = .next t ∧
        t.trg.left.contains u = false ∧ t.on (Reg.TRG_USTAT_SWAP.e u) = true ∧
        t.get (Reg.TRG_UCFG_SRC.e u) = s.get ((Reg.TRG_UCFG_SRC.e u).staged .triggers))

/-- In Watch mode without a watch ring, a request to an enabled slot that selects no input takes a descriptor and the next capture number and raises EV329. A mapped capture whose windows are written is HELD, raising EV330. READ starts a HELD capture's readout; RELEASE frees a HELD one, and ends any other with EV331. In Full mode, where every sample of the windows is in a written page, the statistics of a capture being read are delivered, one record for each input, with EV343, and a readout that owes no statistics ends with EV331. -/
def Obligations.CaptureCommandsComplete : Prop :=
  (∀ (s : State) (slot : Nat),
      slot < 32 →
      s.on (Reg.CAP_SCFG_EN.e slot) = true →
      (∀ r, r < 4 → s.word (Reg.CAP_SMASK_SEL.e2 slot r).off = 0) →
      s.on Reg.REC_CTRL_EN.z = true →
      s.get recState = 2 →
      s.on Reg.REC_CTRL_WATCHEN.z = false →
      s.pair.shadow = false →
      s.maySwap .recorder = false →
      s.rcd.captures = [] →
      ∃ t, exec (.capRequest slot) s = .next t ∧
        (t.rcd.captures.map (fun c => (c.desc, c.num, c.state))) = [(0, (s.get Reg.CAP_STAT_COUNT.z + 1) % 2 ^ 32, 1)] ∧
        t.get Reg.CAP_STAT_COUNT.z = (s.get Reg.CAP_STAT_COUNT.z + 1) % 2 ^ 32 ∧ t.on (evPend 329) = true) ∧
  (∀ (s : State) (num : Nat) (c : Capture),
      s.capOf num = some c →
      c.state = 1 →
      c.mapped = true →
      c.wins.all (s.winWritten c) = true →
      c.field Reg.CAP_SCFG_READ = 0 →
      ∃ t, exec (.captureHeld num) s = .next t ∧
        t.on (evPend 330) = true ∧ (t.capOf num).map (·.state) = some 2) ∧
  (∀ (s : State) (num : Nat) (c : Capture),
      s.capOf num = some c →
      c.state = 2 →
      exec (.capRead num) s = .next (s.capStart c)) ∧
  (∀ (s : State) (num : Nat) (c : Capture),
      s.capOf num = some c →
      c.state = 2 →
      exec (.capRelease num) s = .next (s.capFree c)) ∧
  (∀ (s : State) (num : Nat) (c : Capture),
      s.capOf num = some c →
      c.state ≠ 2 →
      ∃ t, exec (.capRelease num) s = .next t ∧
        t.on (evPend 331) = true ∧ t.rcd.captures = s.rcd.captures.filter (fun d => d.desc != c.desc)) ∧
  (∀ (s : State) (num : Nat) (c : Capture),
      s.capOf num = some c →
      c.state = 3 →
      c.field Reg.CAP_SCFG_STATS = 1 →
      c.stats = false →
      s.get Reg.PWR_STAT_MODE.z = 4 →
      s.capWritten c = true →
      ∃ t, exec (.capstatDone num) s = .next t ∧
        t.on (evPend 343) = true ∧ t.closed.length = s.closed.length + (c.wins.filter CapWin.live).length) ∧
  (∀ (s : State) (num : Nat) (c : Capture),
      s.capOf num = some c →
      c.state = 3 →
      c.stats = true ∨ c.field Reg.CAP_SCFG_STATS = 0 →
      s.get Reg.PWR_STAT_MODE.z = 4 →
      s.capWritten c = true →
      ∃ t, exec (.readoutEnd num) s = .next t ∧
        t.on (evPend 331) = true)

/-- A request to a slot that is not enabled takes no descriptor and no capture number: CAP_SPOIL counts it, saturating, EV332 is raised and one REFUSED record goes to the slot's stream. -/
def Obligations.RefusedCaptureIsCountedAndDeclared : Prop :=
  ∀ (s : State) (slot : Nat),
      slot < 32 →
      s.on (Reg.CAP_SCFG_EN.e slot) = false →
      ∃ t, exec (.capRequest slot) s = .next t ∧ t.rcd.captures = s.rcd.captures ∧ t.get Reg.CAP_STAT_COUNT.z = s.get Reg.CAP_STAT_COUNT.z ∧
      t.get Reg.CAP_SPOIL_COUNT.z = satAdd Reg.CAP_SPOIL_COUNT.w (s.get Reg.CAP_SPOIL_COUNT.z) 1 ∧ t.on (evPend 332) = true ∧
      t.closed.length = s.closed.length + 1

/-- The HBM writer starts from WATCH or OFF and the recorder is RECORDING or DRAINING. At the end of a drain it is RECORDING with EV335. A fold that the recorder serves shrinks it and the copy begins; one that it cannot serve loses the rank and ends the migration. A commit swaps the recorder with EV342. The ladder evaluates every stream it runs on. -/
def Obligations.RecorderCommandsComplete : Prop :=
  (∀ (s : State),
      s.on Reg.REC_CTRL_EN.z = true →
      s.get recState = 2 ∨ s.get recState = 0 →
      s.runs = true →
      ∃ t, exec (.hbmWriterStart) s = .next t ∧
        (t.get recState = 1 ∨ t.get recState = 3)) ∧
  (∀ (s : State),
      s.get recState = 3 →
      ∃ t, exec (.watchDrainDone) s = .next t ∧
        t.get recState = 1 ∧ t.on (evPend 335) = true ∧ t.rcd.hold = false) ∧
  (∀ (s : State) (u p : Nat),
      u < 768 →
      p < 768 →
      s.msys.mig = some (u, p, none) →
      s.get Reg.MEM_STAT_MIG.z = 3 →
      s.on Reg.REC_CTRL_EN.z = false →
      ∃ t, exec (.fold) s = .next t ∧
        t.msys.mig = none ∧ t.get Reg.MEM_STAT_MIG.z = 0 ∧ t.get (rankState p) = 4 ∧ (t.remapOf u).lost = true) ∧
  (∀ (s r : State) (u p slots : Nat),
      s.msys.mig = some (u, p, none) →
      s.get Reg.MEM_STAT_MIG.z = 3 →
      s.on Reg.REC_CTRL_EN.z = true →
      s.get Reg.MEM_STAT_FOLDS.z < 4 →
      slots = ceilDiv s.grainsD (65536 / s.grain) →
      r = s.recShrink (slots + ceilDiv slots (max 1 (s.ranksU - 1)) + 1) →
      s.grainsD ≤ r.givenGrains (fun n => (s.recIn n).given) u →
      exec (.fold) s = .next (r.put Reg.MEM_STAT_MIG.z 1)) ∧
  (∀ (s : State),
      s.maySwap .recorder = true →
      ∃ t, exec (.recorderSwap) s = .next t ∧
        t.on (evPend 342) = true) ∧
  (∀ (s : State),
      s.streamsRun = true →
      exec (.ladderEvaluation) s = .next ((s.enabledStreams.filter s.ladderRuns).foldl State.evaluate s))

/-- A spectrum of a selected input not at the seam by its deadline is marked absent and counted. With one input the skew check clears SKEW; with two whose pin times differ by more than the tolerance it sets SKEW with EV356. The awaited spectrum, present or absent for every rank, is released. A subinterval's end settles the interval under way. An ended interval takes its place in the dump. The last slot of a dump ends it. The BEAMVOLT record of a bin goes to the stream of its group's bank once the group is whole or its series has ended, and its values are marked as sent. A weight write to a valid place of an unfrozen bank stores it and moves the pointer. A swap at its index takes the new bank, and a swap whose old dump is done is complete with EV358. -/
def Obligations.CrossSpectralCommandsComplete : Prop :=
  (∀ (s : State) (n m : Nat),
      s.xspOn = true →
      (xRanks s.xspView).contains n = true →
      ∀ (g : Grid) (i : Nat),
      (s.windowsOf n 1 m).find? (fun w => !s.seamHere n w.2 (w.1.hop n 1) && !s.xspAbsent n w.2 (w.1.hop n 1)) = some (g, i) →
      ∃ t, exec (.seamAbsentDeadline n m) s = .next t ∧
        t.xspAbsent n i (g.hop n 1) = true ∧ t.mem = s.mem ∧
        t.get Reg.XSP_ABSENT_COUNT.z = satAdd Reg.XSP_ABSENT_COUNT.w (s.get Reg.XSP_ABSENT_COUNT.z) 1) ∧
  (∀ (s : State) (n m : Nat),
      s.xspOn = true →
      m % 2 ^ 20 = 0 →
      xRanks s.xspView = [n] →
      ∃ t, exec (.seamSkewCheck m) s = .next t ∧
        t.on Reg.XSP_STAT_SKEW.z = false ∧ t.xsp = s.xsp) ∧
  (∀ (s : State) (m n k f : Nat),
      s.xspOn = true →
      m % 2 ^ 20 = 0 →
      s.xsp.next = some f →
      xRanks s.xspView = [n, k] →
      (s.inp n).models ≠ [] →
      (s.inp k).models ≠ [] →
      (s.get Reg.XSP_SKEW_TOL.z : Int) * 2 ^ 80 < (s.tpin n (m * s.xsp.hop % idxMod) - s.tpin k (m * s.xsp.hop % idxMod)) * 1000000000 →
      ∃ t, exec (.seamSkewCheck m) s = .next t ∧
        t.on Reg.XSP_STAT_SKEW.z = true ∧ t.on (evPend 356) = true ∧
        t.xsp.skewed = (m * s.xsp.hop % idxMod, s.xsp.hop) :: s.xsp.skewed.filter (fun p => idxNear (m * s.xsp.hop % idxMod) p.1)) ∧
  (∀ (s : State) (m full i h l : Nat),
      s.xsp.swapAt = none →
      s.xspOn = true →
      s.get Reg.XSP_STAT_STATE.z ≠ 3 →
      s.seamWindow m = some (i, h, l) →
      s.xsp.next.isSome = true ∨ s.xspFirst s.xspView m i = true →
      xRanks s.xspView ≠ [] →
      (xRanks s.xspView).all (fun n => s.seamHere n i h || s.xspAbsent n i h) = true →
      exec (.seamCellRelease m full) s = .next (s.seamRelease s.xspView i h l full)) ∧
  (∀ (s : State), ∃ t, exec (.subintEnd) s = .next t ∧
        t.xsp.cur = s.xsp.cur.map XInt.settle ∧ t.regs = s.regs) ∧
  (∀ (s : State) (c : XInt) (l : List XInt),
      s.xsp.ended = c :: l →
      ∃ t, exec (.xspIntervalClose) s = .next t ∧
        t.xsp.ended = l ∧ t.xsp.dumps = s.xsp.dumps.filter (fun d => d.run != c.run) ++ [c.settle]) ∧
  (∀ (s : State) (c : XInt) (l : List XInt),
      s.xsp.dumps = c :: l →
      (xTiles c.view).length ≤ c.slot + 1 →
      ∃ t, exec (.dumpSlot) s = .next t ∧
        t.xsp.dumps = l ∧ t.mem = s.mem) ∧
  (∀ (s : State) (k m : Nat) (y : XVolt),
      s.voltGroup k m = some y →
      s.voltDone y m = true →
      ∃ t, exec (.beamvoltEmit k m) s = .next t ∧
        t.closed = s.closed ++ [(y.view.get Reg.XSP_BCTRL_VSTREAM.z, s.now,
          s.beamVolt y (s.xsp.volts.filter (fun x => x.inGroup y m y.count)) k m)] ∧
        t.xsp.volts.all (fun x => !x.inGroup y m y.count || x.sent.contains k) = true ∧ t.regs = s.regs ∧ t.mem = s.mem) ∧
  (∀ (s : State) (v : Word),
      s.on Blk.cross.frozen = false →
      s.weightOk (s.get (Reg.XSP_WPTR_PTR.z.staged .cross)) = true →
      ∃ t, exec (.xspWdataWrite v) s = .next t ∧
        tget (fun _ => 0) t.xsp.staged (s.get (Reg.XSP_WPTR_PTR.z.staged .cross)) = v.toNat ∧
        t.get (Reg.XSP_WPTR_PTR.z.staged .cross) = (s.get (Reg.XSP_WPTR_PTR.z.staged .cross) + 1) % 2 ^ Reg.XSP_WPTR_PTR.w) ∧
  (∀ (s : State),
      s.maySwap .cross = true →
      s.xspAtSwap = true →
      exec (.xspSwap) s = .next (s.xspSwapNow true)) ∧
  (∀ (s : State),
      s.xsp.draining = true →
      s.xsp.ended = [] →
      s.xsp.dumps = [] →
      ∃ t, exec (.xspDumpDrained) s = .next t ∧
        t.xsp.draining = false ∧ t.on (evPend 358) = true)

/-- For a ready core and a true predicate, the instructions of R421 that need no saturation set Dd to their function of a = D[DA] and b = D[DB]; the bundle ends and nothing else changes (the right side is a whole state). A false predicate leaves all registers. ADDS, SUBS, CADD, CSUB and CCONJ write the saturated result; where a component saturates, SR.SAT is set and TILE_SAT counts one. -/
def Obligations.AluResults : Prop :=
  (∀ (s : State) (t : Nat) (x : RegSet) (y : AluSyl),
      s.readyAt t = true →
      y.stop = true →
      (s.tile t).cur = x →
      xor (x.pred y.qp.toNat) (y.qn == 1) = true →
      (∀ p ∈ ([(.add, fun a b => a + b),
         (.sub, fun a b => a - b),
         (.and, fun a b => a &&& b),
         (.or, fun a b => a ||| b),
         (.xor, fun a b => a ^^^ b),
         (.andn, fun a b => a &&& ~~~b),
         (.shl, fun a b => a <<< (b.toNat % 32)),
         (.shr, fun a b => a >>> (b.toNat % 32)),
         (.sar, fun a b => a.sshiftRight (b.toNat % 32)),
         (.min, fun a b => if a.toInt ≤ b.toInt then a else b),
         (.max, fun a b => if a.toInt ≤ b.toInt then b else a),
         (.minu, fun a b => if a.toNat ≤ b.toNat then a else b),
         (.maxu, fun a b => if a.toNat ≤ b.toNat then b else a),
         (.cshr, fun a b => c16 (c16I a / 2 ^ (b.toNat % 16)) (c16Q a / 2 ^ (b.toNat % 16))),
         (.pack, fun a b => c16 (c16I a) (c16I b))] :
        List ((Nat → AluSyl → Instr) × (Word → Word → Word))),
        exec (p.1 t y) s = .next (s.issued t (x.setD (x.phys y.dd.toNat) (p.2 (x.dReg y.da.toNat) (x.dReg y.db.toNat))) 0))) ∧
  (∀ (s : State) (t : Nat) (x : RegSet) (y : AluSyl),
      s.readyAt t = true →
      y.stop = true →
      (s.tile t).cur = x →
      xor (x.pred y.qp.toNat) (y.qn == 1) = true →
      y.db = 0 →
      exec (.mov t y) s = .next (s.issued t (x.setD (x.phys y.dd.toNat) (x.dReg y.da.toNat)) 0) ∧
      exec (.cswap t y) s =
        .next (s.issued t (x.setD (x.phys y.dd.toNat) (c16 (c16Q (x.dReg y.da.toNat)) (c16I (x.dReg y.da.toNat)))) 0)) ∧
  (∀ (s : State) (t : Nat) (x : RegSet) (y : AluSyl),
      s.readyAt t = true →
      y.stop = true →
      (s.tile t).cur = x →
      xor (x.pred y.qp.toNat) (y.qn == 1) = false →
      ∀ f ∈ ([.add, .adds, .minu, .cadd, .pack] : List (Nat → AluSyl → Instr)), exec (f t y) s = .next (s.issued t x 0)) ∧
  (∀ (s : State) (t : Nat) (x : RegSet) (y : AluSyl),
      s.readyAt t = true →
      y.stop = true →
      (s.tile t).cur = x →
      xor (x.pred y.qp.toNat) (y.qn == 1) = true →
      ∀ p ∈ ([(.adds, fun a b => (BitVec.ofInt 32 (satS 32 (a.toInt + b.toInt)), clipsS 32 (a.toInt + b.toInt))),
         (.subs, fun a b => (BitVec.ofInt 32 (satS 32 (a.toInt - b.toInt)), clipsS 32 (a.toInt - b.toInt))),
         (.cadd, fun a b => (c16 (satS 16 (c16I a + c16I b)) (satS 16 (c16Q a + c16Q b)), clipsS 16 (c16I a + c16I b) || clipsS 16 (c16Q a + c16Q b))),
         (.csub, fun a b => (c16 (satS 16 (c16I a - c16I b)) (satS 16 (c16Q a - c16Q b)), clipsS 16 (c16I a - c16I b) || clipsS 16 (c16Q a - c16Q b)))] :
        List ((Nat → AluSyl → Instr) × (Word → Word → Word × Bool))),
        let r := p.2 (x.dReg y.da.toNat) (x.dReg y.db.toNat)
        exec (p.1 t y) s = .next (s.issued t { x.setD (x.phys y.dd.toNat) r.1 with sat := x.sat || r.2 } (b2n r.2))) ∧
  (∀ (s : State) (t : Nat) (x : RegSet) (y : AluSyl) (a : Word),
      s.readyAt t = true →
      y.stop = true →
      (s.tile t).cur = x →
      xor (x.pred y.qp.toNat) (y.qn == 1) = true →
      y.db = 0 →
      x.dReg y.da.toNat = a →
      exec (.cconj t y) s = .next (s.issued t
        { x.setD (x.phys y.dd.toNat) (c16 (satS 16 (c16I a)) (satS 16 (-(c16Q a)))) with sat := x.sat || clipsS 16 (-(c16Q a)) }
        (b2n (clipsS 16 (-(c16Q a))))))

/-- Compares write Q[DD] and predicate operations combine two predicates; a write to Q0 is ignored (setQ). The immediate instructions work on Dd in place, with the sign-extended IMM12 or the shift count. MOVLO sign-extends IMM16; MOVHI sets bits 31:16. MVTX writes X[DD], MVFX reads X[DA]; at level 1, MVFM reads and MVTM writes a register of the main set. At level 0, MVFM, MVTM and RTI raise ILLEGAL. -/
def Obligations.PredicateImmediateAndMoveResults : Prop :=
  (∀ (s : State) (t : Nat) (x : RegSet) (y : AluSyl),
      s.readyAt t = true →
      y.stop = true →
      (s.tile t).cur = x →
      xor (x.pred y.qp.toNat) (y.qn == 1) = true →
      y.dd.toNat < 8 →
      ∀ p ∈ ([(.cmpeq, fun a b => a == b),
         (.cmplt, fun a b => decide (a.toInt < b.toInt)),
         (.cmpltu, fun a b => decide (a.toNat < b.toNat)),
         (.cmple, fun a b => decide (a.toInt ≤ b.toInt))] :
        List ((Nat → AluSyl → Instr) × (Word → Word → Bool))),
        exec (p.1 t y) s = .next (s.issued t (x.setQ y.dd.toNat (p.2 (x.dReg y.da.toNat) (x.dReg y.db.toNat))) 0)) ∧
  (∀ (s : State) (t : Nat) (x : RegSet) (y : AluSyl),
      s.readyAt t = true →
      y.stop = true →
      (s.tile t).cur = x →
      xor (x.pred y.qp.toNat) (y.qn == 1) = true →
      y.dd.toNat < 8 →
      y.da.toNat < 8 →
      y.db.toNat < 8 →
      ∀ p ∈ ([(.qand, fun a b => a && b),
         (.qor, fun a b => a || b),
         (.qandn, fun a b => a && !b)] :
        List ((Nat → AluSyl → Instr) × (Bool → Bool → Bool))),
        exec (p.1 t y) s = .next (s.issued t (x.setQ y.dd.toNat (p.2 (x.pred y.da.toNat) (x.pred y.db.toNat))) 0)) ∧
  (∀ (s : State) (t : Nat) (x : RegSet) (y : ImmSyl),
      s.readyAt t = true →
      y.stop = true →
      (s.tile t).cur = x →
      xor (x.pred y.qp.toNat) (y.qn == 1) = true →
      ∀ p ∈ ([(.addi, fun d i => d + i),
         (.andi, fun d i => d &&& i),
         (.ori, fun d i => d ||| i)] :
        List ((Nat → ImmSyl → Instr) × (Word → Word → Word))),
        exec (p.1 t y) s = .next (s.issued t (x.setD (x.phys y.dd.toNat) (p.2 (x.dReg y.dd.toNat) (y.imm.signExtend 32))) 0)) ∧
  (∀ (s : State) (t : Nat) (x : RegSet) (y : ImmSyl),
      s.readyAt t = true →
      y.stop = true →
      (s.tile t).cur = x →
      xor (x.pred y.qp.toNat) (y.qn == 1) = true →
      y.imm.toNat < 32 →
      ∀ p ∈ ([(.shli, fun d n => d <<< n),
         (.shri, fun d n => d >>> n),
         (.sari, fun d n => d.sshiftRight n)] :
        List ((Nat → ImmSyl → Instr) × (Word → Nat → Word))),
        exec (p.1 t y) s = .next (s.issued t (x.setD (x.phys y.dd.toNat) (p.2 (x.dReg y.dd.toNat) y.imm.toNat)) 0)) ∧
  (∀ (s : State) (t : Nat) (x : RegSet) (y : WideSyl),
      s.readyAt t = true →
      y.stop = true →
      (s.tile t).cur = x →
      exec (.movlo t y) s = .next (s.issued t (x.setD (x.phys y.dd.toNat) (y.imm.signExtend 32)) 0) ∧
      exec (.movhi t y) s =
        .next (s.issued t (x.setD (x.phys y.dd.toNat) (y.imm ++ (x.dReg y.dd.toNat).extractLsb' 0 16)) 0)) ∧
  (∀ (s : State) (t : Nat) (x : RegSet) (y : AluSyl),
      s.readyAt t = true →
      y.stop = true →
      (s.tile t).cur = x →
      xor (x.pred y.qp.toNat) (y.qn == 1) = true →
      y.db = 0 →
      y.dd.toNat < 0x2A →
      exec (.mvtx t y) s = .next (s.issued t (x.setX y.dd.toNat (x.dReg y.da.toNat)) 0)) ∧
  (∀ (s : State) (t : Nat) (x : RegSet) (y : AluSyl),
      s.readyAt t = true →
      y.stop = true →
      (s.tile t).cur = x →
      xor (x.pred y.qp.toNat) (y.qn == 1) = true →
      y.db = 0 →
      y.da.toNat ≤ 0x2C →
      exec (.mvfx t y) s = .next (s.issued t (x.setD (x.phys y.dd.toNat) (x.xSpace (s.tile t).lvl y.da.toNat)) 0)) ∧
  (∀ (s : State) (t : Nat) (x : RegSet) (y : AluSyl) (i : Nat),
      s.readyAt t = true →
      y.stop = true →
      (s.tile t).cur = x →
      xor (x.pred y.qp.toNat) (y.qn == 1) = true →
      (s.tile t).lvl = true →
      i < 0x6D →
      y.da.toNat * 64 + y.db.toNat = i * 32 →
      exec (.mvfm t y) s = .next (s.issued t (x.setD (x.phys y.dd.toNat) ((s.tile t).mainReg i)) 0)) ∧
  (∀ (s : State) (n : Nat) (x : RegSet) (y : AluSyl) (i k : Nat),
      s.readyAt n = true →
      y.stop = true →
      (s.tile n).cur = x →
      xor (x.pred y.qp.toNat) (y.qn == 1) = true →
      (s.tile n).lvl = true →
      i < 64 →
      k < 64 →
      y.dd.toNat * 4096 + y.da.toNat * 64 + y.db.toNat = i * 2048 + k * 32 →
      ∃ t, exec (.mvtm n y) s = .next t ∧
        (t.tile n).main = (s.tile n).main.setD i (x.dReg k) ∧ (t.tile n).cur.d = x.d ∧ t.mem = s.mem) ∧
  (∀ (s : State) (t : Nat) (x : RegSet) (y : AluSyl) (z : CtlSyl),
      s.readyAt t = true →
      y.stop = true →
      (s.tile t).cur = x →
      (s.tile t).lvl = false →
      z.stop = true →
      x.pc % 2 ^ 14 < 16384 →
      exec (.mvfm t y) s = .next ((s.setTile t { s.tile t with bundle := [], idle := false }).tileFault t 1 0) ∧
      exec (.mvtm t y) s = .next ((s.setTile t { s.tile t with bundle := [], idle := false }).tileFault t 1 0) ∧
      exec (.rti t z) s = .next ((s.setTile t { s.tile t with bundle := [], idle := false }).tileFault t 1 0))

/-- The accumulating instructions set ACC[AD] from its value c and the operands a, b, with AOV and TILE_SAT for each saturated component; ACLR clears, AADD adds and AMOV copies ACC[DA]. EXTC, EXTI and EXTQ round and saturate an accumulator to Dd; AGET and ASET move its bits. -/
def Obligations.MacResults : Prop :=
  (∀ (s : State) (t : Nat) (x : RegSet) (y : MacSyl),
      s.readyAt t = true →
      y.stop = true →
      (s.tile t).cur = x →
      xor (x.pred y.qp.toNat) (y.qn == 1) = true →
      y.z = 0 →
      ∀ p ∈ ([(.cmac, fun c a b => satAcc (c.1 + (cmul16 a b false).1, c.2 + (cmul16 a b false).2)),
         (.cmacc, fun c a b => satAcc (c.1 + (cmul16 a b true).1, c.2 + (cmul16 a b true).2)),
         (.cmsb, fun c a b => satAcc (c.1 - (cmul16 a b false).1, c.2 - (cmul16 a b false).2)),
         (.cmul, fun _ a b => (cmul16 a b false, 0)),
         (.cmulc, fun _ a b => (cmul16 a b true, 0)),
         (.rmac, fun c a b => ((satS 40 (c.1 + c16I a * c16I b), c.2), b2n (clipsS 40 (c.1 + c16I a * c16I b)))),
         (.rmul, fun _ a b => ((c16I a * c16I b, 0), 0))] :
        List ((Nat → MacSyl → Instr) × (Int × Int → Word → Word → (Int × Int) × Nat))),
        let r := p.2 (x.accAt y.ad.toNat) (x.dReg y.da.toNat) (x.dReg y.db.toNat)
        exec (p.1 t y) s = .next (s.issued t { x.setAcc y.ad.toNat r.1 with aov := x.aov || lt 0 r.2 } r.2)) ∧
  (∀ (s : State) (t : Nat) (x : RegSet) (y : MacSyl),
      s.readyAt t = true →
      y.stop = true →
      (s.tile t).cur = x →
      xor (x.pred y.qp.toNat) (y.qn == 1) = true →
      y.z = 0 →
      y.da.toNat < 8 →
      y.db = 0 →
      (y.da = 0 → exec (.aclr t y) s = .next (s.issued t (x.setAcc y.ad.toNat (0, 0)) 0)) ∧
      (let r := satAcc ((x.accAt y.ad.toNat).1 + (x.accAt y.da.toNat).1, (x.accAt y.ad.toNat).2 + (x.accAt y.da.toNat).2)
       exec (.aadd t y) s = .next (s.issued t { x.setAcc y.ad.toNat r.1 with aov := x.aov || lt 0 r.2 } r.2)) ∧
      exec (.amov t y) s = .next (s.issued t (x.setAcc y.ad.toNat (x.accAt y.da.toNat)) 0)) ∧
  (∀ (s : State) (t : Nat) (x : RegSet) (y : XferSyl),
      s.readyAt t = true →
      y.stop = true →
      (s.tile t).cur = x →
      xor (x.pred y.qp.toNat) (y.qn == 1) = true →
      y.z = 0 →
      -8 ≤ y.n.toInt ∧ y.n.toInt ≤ 23 →
      let c := x.accAt y.as.toNat
      let r := accC16 c y.n.toInt
      exec (.extc t y) s = .next (s.issued t { x.setD (x.phys y.dd.toNat) r.1 with sat := x.sat || lt 0 r.2 } r.2)) ∧
  (∀ (s : State) (t : Nat) (x : RegSet) (y : XferSyl),
      s.readyAt t = true →
      y.stop = true →
      (s.tile t).cur = x →
      xor (x.pred y.qp.toNat) (y.qn == 1) = true →
      y.z = 0 →
      y.n.toNat < 32 →
      let c := x.accAt y.as.toNat
      let r := accI32 c.1 y.n.toNat
      exec (.exti t y) s = .next (s.issued t { x.setD (x.phys y.dd.toNat) r.1 with sat := x.sat || lt 0 r.2 } r.2)) ∧
  (∀ (s : State) (t : Nat) (x : RegSet) (y : XferSyl),
      s.readyAt t = true →
      y.stop = true →
      (s.tile t).cur = x →
      xor (x.pred y.qp.toNat) (y.qn == 1) = true →
      y.z = 0 →
      y.n.toNat < 32 →
      let c := x.accAt y.as.toNat
      let r := accI32 c.2 y.n.toNat
      exec (.extq t y) s = .next (s.issued t { x.setD (x.phys y.dd.toNat) r.1 with sat := x.sat || lt 0 r.2 } r.2)) ∧
  (∀ (s : State) (t : Nat) (x : RegSet) (y : XferSyl),
      s.readyAt t = true →
      y.stop = true →
      (s.tile t).cur = x →
      xor (x.pred y.qp.toNat) (y.qn == 1) = true →
      y.z = 0 →
      y.n.toNat < 3 →
      exec (.aget t y) s = .next (s.issued t (x.setD (x.phys y.dd.toNat) (accPart (x.accAt y.as.toNat) y.n.toNat)) 0) ∧
      exec (.aset t y) s = .next (s.issued t (x.setAcc y.as.toNat (setAccPart (x.accAt y.as.toNat) y.n.toNat (x.dReg y.dd.toNat))) 0))

/-- Where Pn + IMM9·w is an aligned address of memory, the load sets D(0) (and D(1) to D(3)) from the w bytes there and changes nothing else. LEA writes the address to P[DATA]. -/
def Obligations.LoadResults : Prop :=
  (∀ (s : State) (t : Nat) (x : RegSet) (y : LsSyl) (a m : Nat),
      s.readyAt t = true →
      y.stop = true →
      (s.tile t).cur = x →
      x.pred y.qp.toNat = true →
      y.mode = 0 →
      toU 32 ((x.pReg y.pn.toNat : Int) + y.imm.toInt * 1) = a →
      s.coreAt t a 1 = .mem m →
      a % 1 = 0 →
      exec (.ldb t y) s = .next (s.issued t (x.setD (x.phys y.data.toNat) (BitVec.ofInt 32 (sext 8 (leNat (s.peekAll m 1))))) 0)) ∧
  (∀ (s : State) (t : Nat) (x : RegSet) (y : LsSyl) (a m : Nat),
      s.readyAt t = true →
      y.stop = true →
      (s.tile t).cur = x →
      x.pred y.qp.toNat = true →
      y.mode = 0 →
      toU 32 ((x.pReg y.pn.toNat : Int) + y.imm.toInt * 1) = a →
      s.coreAt t a 1 = .mem m →
      a % 1 = 0 →
      exec (.ldbu t y) s = .next (s.issued t (x.setD (x.phys y.data.toNat) (BitVec.ofNat 32 (leNat (s.peekAll m 1)))) 0)) ∧
  (∀ (s : State) (t : Nat) (x : RegSet) (y : LsSyl) (a m : Nat),
      s.readyAt t = true →
      y.stop = true →
      (s.tile t).cur = x →
      x.pred y.qp.toNat = true →
      y.mode = 0 →
      toU 32 ((x.pReg y.pn.toNat : Int) + y.imm.toInt * 2) = a →
      s.coreAt t a 2 = .mem m →
      a % 2 = 0 →
      exec (.ldh t y) s = .next (s.issued t (x.setD (x.phys y.data.toNat) (BitVec.ofInt 32 (sext 16 (leNat (s.peekAll m 2))))) 0)) ∧
  (∀ (s : State) (t : Nat) (x : RegSet) (y : LsSyl) (a m : Nat),
      s.readyAt t = true →
      y.stop = true →
      (s.tile t).cur = x →
      x.pred y.qp.toNat = true →
      y.mode = 0 →
      toU 32 ((x.pReg y.pn.toNat : Int) + y.imm.toInt * 2) = a →
      s.coreAt t a 2 = .mem m →
      a % 2 = 0 →
      exec (.ldhu t y) s = .next (s.issued t (x.setD (x.phys y.data.toNat) (BitVec.ofNat 32 (leNat (s.peekAll m 2)))) 0)) ∧
  (∀ (s : State) (t : Nat) (x : RegSet) (y : LsSyl) (a m : Nat),
      s.readyAt t = true →
      y.stop = true →
      (s.tile t).cur = x →
      x.pred y.qp.toNat = true →
      y.mode = 0 →
      toU 32 ((x.pReg y.pn.toNat : Int) + y.imm.toInt * 4) = a →
      s.coreAt t a 4 = .mem m →
      a % 4 = 0 →
      exec (.ldw t y) s = .next (s.issued t (x.setD (x.phys y.data.toNat) (BitVec.ofNat 32 (leNat (s.peekAll m 4)))) 0)) ∧
  (∀ (s : State) (t : Nat) (x : RegSet) (y : LsSyl) (a m : Nat),
      s.readyAt t = true →
      y.stop = true →
      (s.tile t).cur = x →
      x.pred y.qp.toNat = true →
      y.mode = 0 →
      toU 32 ((x.pReg y.pn.toNat : Int) + y.imm.toInt * 8) = a →
      s.coreAt t a 8 = .mem m →
      a % 8 = 0 →
      y.data.toNat % 2 = 0 →
      exec (.ldd t y) s = .next (s.issued t ((x.setD (x.phys (y.data.toNat + 0)) (BitVec.ofNat 32 (leNat (s.peekAll (m + 0) 4)))).setD (x.phys (y.data.toNat + 1)) (BitVec.ofNat 32 (leNat (s.peekAll (m + 4) 4)))) 0)) ∧
  (∀ (s : State) (t : Nat) (x : RegSet) (y : LsSyl) (a m : Nat),
      s.readyAt t = true →
      y.stop = true →
      (s.tile t).cur = x →
      x.pred y.qp.toNat = true →
      y.mode = 0 →
      toU 32 ((x.pReg y.pn.toNat : Int) + y.imm.toInt * 16) = a →
      s.coreAt t a 16 = .mem m →
      a % 16 = 0 →
      y.data.toNat % 4 = 0 →
      exec (.ldq t y) s = .next (s.issued t ((((x.setD (x.phys (y.data.toNat + 0)) (BitVec.ofNat 32 (leNat (s.peekAll (m + 0) 4)))).setD (x.phys (y.data.toNat + 1)) (BitVec.ofNat 32 (leNat (s.peekAll (m + 4) 4)))).setD (x.phys (y.data.toNat + 2)) (BitVec.ofNat 32 (leNat (s.peekAll (m + 8) 4)))).setD (x.phys (y.data.toNat + 3)) (BitVec.ofNat 32 (leNat (s.peekAll (m + 12) 4)))) 0)) ∧
  (∀ (s : State) (t : Nat) (x : RegSet) (y : LsSyl),
      s.readyAt t = true →
      y.stop = true →
      (s.tile t).cur = x →
      x.pred y.qp.toNat = true →
      y.mode = 0 →
      y.data.toNat < 16 →
      exec (.lea t y) s = .next (s.issued t (x.setX y.data.toNat (BitVec.ofNat 32 (toU 32 ((x.pReg y.pn.toNat : Int) + y.imm.toInt)))) 0))

/-- Where Pn + IMM9·w is an aligned address of memory, the store writes the low w bytes of D(0) (of D(0) to D(3)) from there on; registers keep their values. STAC stores the accumulator as C16. -/
def Obligations.StoreResults : Prop :=
  (∀ (s : State) (t : Nat) (x : RegSet) (y : LsSyl) (a m : Nat),
      s.readyAt t = true →
      y.stop = true →
      (s.tile t).cur = x →
      x.pred y.qp.toNat = true →
      y.mode = 0 →
      toU 32 ((x.pReg y.pn.toNat : Int) + y.imm.toInt * 1) = a →
      s.coreAt t a 1 = .mem m →
      a % 1 = 0 →
      exec (.stb t y) s = .next (((s.bundleTaken t x 0).pokeAll m (leBytes 1 ((x.dReg y.data.toNat).toNat % 2 ^ 8))).goTo t x.after)) ∧
  (∀ (s : State) (t : Nat) (x : RegSet) (y : LsSyl) (a m : Nat),
      s.readyAt t = true →
      y.stop = true →
      (s.tile t).cur = x →
      x.pred y.qp.toNat = true →
      y.mode = 0 →
      toU 32 ((x.pReg y.pn.toNat : Int) + y.imm.toInt * 2) = a →
      s.coreAt t a 2 = .mem m →
      a % 2 = 0 →
      exec (.sth t y) s = .next (((s.bundleTaken t x 0).pokeAll m (leBytes 2 ((x.dReg y.data.toNat).toNat % 2 ^ 16))).goTo t x.after)) ∧
  (∀ (s : State) (t : Nat) (x : RegSet) (y : LsSyl) (a m : Nat),
      s.readyAt t = true →
      y.stop = true →
      (s.tile t).cur = x →
      x.pred y.qp.toNat = true →
      y.mode = 0 →
      toU 32 ((x.pReg y.pn.toNat : Int) + y.imm.toInt * 4) = a →
      s.coreAt t a 4 = .mem m →
      a % 4 = 0 →
      exec (.stw t y) s = .next (((s.bundleTaken t x 0).pokeAll m (leBytes 4 ((x.dReg y.data.toNat).toNat % 2 ^ 32))).goTo t x.after)) ∧
  (∀ (s : State) (t : Nat) (x : RegSet) (y : LsSyl) (a m : Nat),
      s.readyAt t = true →
      y.stop = true →
      (s.tile t).cur = x →
      x.pred y.qp.toNat = true →
      y.mode = 0 →
      toU 32 ((x.pReg y.pn.toNat : Int) + y.imm.toInt * 8) = a →
      s.coreAt t a 8 = .mem m →
      a % 8 = 0 →
      y.data.toNat % 2 = 0 →
      exec (.std t y) s = .next (((s.bundleTaken t x 0).pokeAll m ((upto 2).flatMap (fun k => u32 (x.dReg (y.data.toNat + k)).toNat))).goTo t x.after)) ∧
  (∀ (s : State) (t : Nat) (x : RegSet) (y : LsSyl) (a m : Nat),
      s.readyAt t = true →
      y.stop = true →
      (s.tile t).cur = x →
      x.pred y.qp.toNat = true →
      y.mode = 0 →
      toU 32 ((x.pReg y.pn.toNat : Int) + y.imm.toInt * 16) = a →
      s.coreAt t a 16 = .mem m →
      a % 16 = 0 →
      y.data.toNat % 4 = 0 →
      exec (.stq t y) s = .next (((s.bundleTaken t x 0).pokeAll m ((upto 4).flatMap (fun k => u32 (x.dReg (y.data.toNat + k)).toNat))).goTo t x.after)) ∧
  (∀ (s : State) (t : Nat) (x : RegSet) (y : LsSyl) (a m : Nat) (n : Int),
      s.readyAt t = true →
      y.stop = true →
      (s.tile t).cur = x →
      x.pred y.qp.toNat = true →
      y.mode = 0 →
      toU 32 ((x.pReg y.pn.toNat : Int) + y.imm.toInt * 4) = a →
      s.coreAt t a 4 = .mem m →
      a % 4 = 0 →
      (x.xAt (0x20 + y.data.toNat % 8)).toNat = toU 6 n →
      -8 ≤ n ∧ n ≤ 23 →
      let r := accC16 (x.accAt (y.data.toNat / 8)) n
      exec (.stac t y) s =
        .next (((s.bundleTaken t { x with sat := x.sat || lt 0 r.2 } r.2).pokeAll m (u32 r.1.toNat)).goTo t x.after))

/-- STW or LDW to no target takes fault 2 with the address; to a target at a misaligned address fault 3. No part of the bundle takes effect: memory and the registers are as before the entry. -/
def Obligations.MisplacedAccessFaults : Prop :=
  (∀ (s : State) (t : Nat) (x : RegSet) (y : LsSyl) (a : Nat),
      s.readyAt t = true →
      y.stop = true →
      (s.tile t).cur = x →
      x.pred y.qp.toNat = true →
      y.mode = 0 →
      toU 32 ((x.pReg y.pn.toNat : Int) + y.imm.toInt * 4) = a →
      s.coreAt t a 4 = .bad →
      exec (.ldw t y) s = .next ((s.setTile t { s.tile t with bundle := [], idle := false }).tileFault t 2 a) ∧
      exec (.stw t y) s = .next ((s.setTile t { s.tile t with bundle := [], idle := false }).tileFault t 2 a)) ∧
  (∀ (s : State) (t : Nat) (x : RegSet) (y : LsSyl) (a : Nat),
      s.readyAt t = true →
      y.stop = true →
      (s.tile t).cur = x →
      x.pred y.qp.toNat = true →
      y.mode = 0 →
      toU 32 ((x.pReg y.pn.toNat : Int) + y.imm.toInt * 4) = a →
      s.coreAt t a 4 ≠ .bad →
      a % 4 ≠ 0 →
      exec (.ldw t y) s = .next ((s.setTile t { s.tile t with bundle := [], idle := false }).tileFault t 3 a) ∧
      exec (.stw t y) s = .next ((s.setTile t { s.tile t with bundle := [], idle := false }).tileFault t 3 a))

/-- NOP and FENCE only pass on. A taken BR goes to TARGET, CALL also writes P15, RET goes to P15[13:0]. LOOP and LOOPI set the level's counter and activate it, or skip the body for a count of 0; LBRK ends a level. RTI returns to the main set. SWP exchanges the banks when an exchange is armed at level 0. IDLE holds the core. -/
def Obligations.ControlResults : Prop :=
  (∀ (s : State) (t : Nat) (x : RegSet) (y : CtlSyl),
      s.readyAt t = true →
      y.stop = true →
      (s.tile t).cur = x →
      y.f = 0 →
      exec (.nop t y) s = .next (s.issued t x 0) ∧ exec (.fence t y) s = .next (s.issued t x 0) ∧
      exec (.idle t y) s = .next ((s.issued t x 0).setTile t { (s.issued t x 0).tile t with idle := true })) ∧
  (∀ (s : State) (t : Nat) (x : RegSet) (y : CtlSyl),
      s.readyAt t = true →
      y.stop = true →
      (s.tile t).cur = x →
      y.f.toNat / 2 ^ 14 % 2 ^ 6 = 0 →
      xor (x.pred (y.f.toNat / 2 ^ 21)) (y.f.toNat / 2 ^ 20 % 2 == 1) = true →
      exec (.br t y) s = .next ((s.bundleTaken t x 0).goTo t (y.f.toNat % 2 ^ 14)) ∧
      exec (.call t y) s = .next (((s.bundleTaken t (x.setX 15 (BitVec.ofNat 32 x.after)) 0)).goTo t (y.f.toNat % 2 ^ 14))) ∧
  (∀ (s : State) (t : Nat) (x : RegSet) (y : CtlSyl),
      s.readyAt t = true →
      y.stop = true →
      (s.tile t).cur = x →
      y.f.toNat % 2 ^ 20 = 0 →
      xor (x.pred (y.f.toNat / 2 ^ 21)) (y.f.toNat / 2 ^ 20 % 2 == 1) = true →
      exec (.ret t y) s = .next ((s.bundleTaken t x 0).goTo t (x.pReg 15))) ∧
  (∀ (s : State) (n : Nat) (x : RegSet) (y : CtlSyl) (bk : Tbl Word) (k : Nat),
      s.readyAt n = true →
      y.stop = true →
      (s.tile n).cur = x →
      (s.tile n).bank (s.liveBank n) = bk →
      bodyEnd bk (y.f.toNat % 2 ^ 14) 16384 x.after ≠ 0 →
      n < 64 →
      y.f.toNat / 2 ^ 14 % 4 = 0 ∧ (x.dReg (y.f.toNat / 2 ^ 16 % 64)).toNat = k →
      ∃ t, exec (.loop n y) s = .next t ∧
        (t.tile n).cur = { (x.startLoop (y.f.toNat / 2 ^ 23) (y.f.toNat / 2 ^ 22 % 2 == 1) k (y.f.toNat % 2 ^ 14) x.after
            (y.f.toNat % 2 ^ 14 + bundleLen bk (y.f.toNat % 2 ^ 14))).1 with
          pc := s.pcAt n (if k = 0 then y.f.toNat % 2 ^ 14 + bundleLen bk (y.f.toNat % 2 ^ 14) else x.after) } ∧
        t.mem = s.mem) ∧
  (∀ (s : State) (n : Nat) (x : RegSet) (y : CtlSyl) (bk : Tbl Word) (k : Nat),
      s.readyAt n = true →
      y.stop = true →
      (s.tile n).cur = x →
      (s.tile n).bank (s.liveBank n) = bk →
      bodyEnd bk (y.f.toNat % 2 ^ 14) 16384 x.after ≠ 0 →
      n < 64 →
      y.f.toNat / 2 ^ 14 % 256 = k →
      ∃ t, exec (.loopi n y) s = .next t ∧
        (t.tile n).cur = { (x.startLoop (y.f.toNat / 2 ^ 23) (y.f.toNat / 2 ^ 22 % 2 == 1) k (y.f.toNat % 2 ^ 14) x.after
            (y.f.toNat % 2 ^ 14 + bundleLen bk (y.f.toNat % 2 ^ 14))).1 with
          pc := s.pcAt n (if k = 0 then y.f.toNat % 2 ^ 14 + bundleLen bk (y.f.toNat % 2 ^ 14) else x.after) } ∧
        t.mem = s.mem) ∧
  (∀ (s : State) (n : Nat) (x : RegSet) (y : CtlSyl),
      s.readyAt n = true →
      y.stop = true →
      (s.tile n).cur = x →
      n < 64 →
      y.f.toNat % 2 ^ 19 = 0 →
      xor (x.pred (y.f.toNat / 2 ^ 20 % 8)) (y.f.toNat / 2 ^ 19 % 2 == 1) = true →
      ∃ t, exec (.lbrk n y) s = .next t ∧
        (t.tile n).cur = { (if y.f.toNat / 2 ^ 23 = 0 then { x with lc0 := 0, l0a := false } else { x with lc1 := 0, l1a := false }) with
          pc := s.pcAt n x.after } ∧ t.mem = s.mem) ∧
  (∀ (s : State) (t : Nat) (x : RegSet) (y : CtlSyl),
      s.readyAt t = true →
      y.stop = true →
      (s.tile t).cur = x →
      y.f = 0 →
      (s.tile t).lvl = true →
      exec (.rti t y) s = .next ((s.bundleTaken t x 0).tilePut t { (s.bundleTaken t x 0).tile t with lvl := false })) ∧
  (∀ (s : State) (t : Nat) (x : RegSet) (y : CtlSyl),
      s.readyAt t = true →
      y.stop = true →
      (s.tile t).cur = x →
      y.f = 0 →
      (s.tile t).lvl = false →
      exec (.swp t y) s = .next (if s.get (xState t) = 0 then s.issued t x 0 else (s.issued t x 0).exchange t false)) ∧
  (∀ (s : State) (t : Nat) (x : RegSet) (y : CtlSyl) (n : Nat),
      s.tileMay t = true →
      (s.tile t).bundle = [] →
      y.stop = true →
      (s.tile t).cur = x →
      y.f = 0 →
      x.l0a = true →
      x.l1a = false →
      x.loop0.last = x.pc % 2 ^ 14 →
      x.lc0 = n + 2 →
      exec (.nop t y) s = .next (((s.bundleTaken t ({ x with lc0 := n + 1 }.rotate x.loop0) 0)).goTo t x.loop0.start))

/-- At level 0 with no instruction under way, BCLR, and a bench instruction whose parameter block b at its pointer passes every check of R425, latches the block, sets PRG and makes the core busy, without a change to memory; the end of an only granule then writes its results (BCLR: all bench accumulators 0), clears PRG and frees the core. A granule's end performs that granule and counts it in PRG; the last one completes the instruction. An armed interrupt enters its handler. -/
def Obligations.BenchInstructionsComplete : Prop :=
  (∀ (s : State) (n : Nat) (x : RegSet) (y : BenchSyl) (b : List Byte),
      s.readyAt n = true →
      y.stop = true →
      (s.tile n).cur = x →
      n < 64 →
      bit x.prg 31 = false →
      (s.tile n).lvl = false →
      s.claimed n = false →
      y.z = 0 →
      y.pn = 0 →
      (if x.pReg 0 ≤ 0x1FFFE0 then s.tileBytes n (x.pReg 0) 32 else zeros 32) = b →
      ∃ t, exec (.bclr n y) s = .next t ∧
        (t.tile n).long = some ⟨0, b, 1⟩ ∧ (t.tile n).busy = true ∧
        (t.tile n).main = { x with prg := prgOf x.pc 0 } ∧ t.mem = s.mem ∧
        ((s.tile n).cmd = none → (s.tile n).wantInt = false → s.get (xState n) = 0 →
          ∃ u, exec (.benchGranuleEnd n) t = .next u ∧
            (u.tile n).bench = [] ∧ (u.tile n).long = none ∧ (u.tile n).busy = false ∧ (u.tile n).main.prg = 0 ∧ u.mem = s.mem)) ∧
  (∀ (s : State) (n : Nat) (x : RegSet) (y : BenchSyl) (b : List Byte),
      s.readyAt n = true →
      y.stop = true →
      (s.tile n).cur = x →
      n < 64 →
      bit x.prg 31 = false →
      (s.tile n).lvl = false →
      y.z = 0 →
      (if x.pReg y.pn.toNat ≤ 0x1FFFE0 then s.tileBytes n (x.pReg y.pn.toNat) 32 else zeros 32) = b →
      ∀ p ∈ ([(.bmac, 1), (.bout, 2), (.bmov, 3), (.bfft, 4)] : List ((Nat → BenchSyl → Instr) × Nat)),
      s.benchFault n p.2 (x.pReg y.pn.toNat) 0 b = 0 →
      ∃ t, exec (p.1 n y) s = .next t ∧
        (t.tile n).long = some ⟨p.2, b, benchGranules p.2 b⟩ ∧ (t.tile n).busy = true ∧
        (t.tile n).main = { x with prg := prgOf x.pc 0 } ∧ t.mem = s.mem ∧
        (benchGranules p.2 b = 1 → (s.tile n).cmd = none → (s.tile n).wantInt = false → s.get (xState n) = 0 →
          ∃ u, exec (.benchGranuleEnd n) t = .next u ∧
            u.mem = (t.granule n ⟨p.2, b, 1⟩ 0).mem ∧ (u.tile n).bench = ((t.granule n ⟨p.2, b, 1⟩ 0).tile n).bench ∧
            (u.tile n).long = none ∧ (u.tile n).busy = false ∧ (u.tile n).main.prg = 0)) ∧
  (∀ (s : State) (n : Nat) (l : LongOp),
      n < 64 →
      (s.tile n).long = some l →
      (s.tile n).busy = true →
      l.total ≤ (s.tile n).main.prg % 2 ^ 16 + 1 →
      (s.tile n).cmd = none →
      (s.tile n).wantInt = false →
      s.get (xState n) = 0 →
      ∃ t, exec (.benchGranuleEnd n) s = .next t ∧
        (t.tile n).long = none ∧ (t.tile n).busy = false ∧ (t.tile n).main.prg = 0 ∧
        t.mem = (s.granule n l ((s.tile n).main.prg % 2 ^ 16)).mem ∧
        (t.tile n).bench = ((s.granule n l ((s.tile n).main.prg % 2 ^ 16)).tile n).bench) ∧
  (∀ (s : State) (n : Nat),
      (s.tile n).long = none →
      exec (.benchGranuleEnd n) s = .next (s)) ∧
  (∀ (s : State) (n : Nat) (l : LongOp),
      n < 64 →
      (s.tile n).long = some l →
      (s.tile n).busy = true →
      (s.tile n).main.prg % 2 ^ 16 + 1 < l.total →
      (s.tile n).cmd = none →
      (s.tile n).wantInt = false →
      s.get (xState n) = 0 →
      ∃ t, exec (.benchGranuleEnd n) s = .next t ∧
        (t.tile n).long = some l ∧ (t.tile n).main.prg = ((s.granule n l ((s.tile n).main.prg % 2 ^ 16)).tile n).main.prg + 1 ∧
        t.mem = (s.granule n l ((s.tile n).main.prg % 2 ^ 16)).mem) ∧
  (∀ (s : State) (n b : Nat),
      s.tipDue n = some b →
      s.get (tileState n) = 2 →
      (s.tile n).lvl = false →
      (s.tile n).main.ie = true →
      (s.tile n).busy = false →
      exec (.interruptEntry n) s = .next (s.tileEnter n b))

/-- Each command of a tile that is not fenced takes effect as its rule says: a timer expires, an edge is counted and latched, an exchange is armed, cancelled or forced, a timeout is reported, a syllable is stored at PPTR, MDATA reads a word and moves its pointer, RUN, HALT and RESET change the state, a halted tile is gated, a ring index within the ring is stored, a soft trigger reaches its unit. -/
def Obligations.TileCommandsComplete : Prop :=
  (∀ (s : State) (n k : Nat),
      n < 64 →
      k < 4 →
      s.get (tmrMode n k) = 1 →
      s.timersRun = true →
      s.fenced n = false →
      ∃ t, exec (.tileTimerExpiry n k) s = .next t ∧
        t.get (tmrMode n k) = 0 ∧ bit (t.get (Reg.TILE_TIP_LATCHED.t n)) k = true ∧ t.mem = s.mem) ∧
  (∀ (s : State) (n k w : Nat) (v : Word),
      s.fenced n = false →
      k < 4 →
      n < 64 →
      w < 3 →
      exec (.tileTimerWrite n k w v) s = .next ((s.plainWrite (galleryAt (Reg.TILE_TMR_CFG_MODE.tk n k).off) ((Reg.TILE_TMR_CFG_MODE.tk n k).off + 4 * w) v.toNat
        0xFFFFFFFF).timerRestart n k)) ∧
  (∀ (s : State) (n j tag : Nat),
      n < 64 →
      j < 8 →
      s.on (Reg.TILE_EDG_CFG_EN.tk n j) = true →
      s.fenced n = false →
      bit (s.get (Reg.TILE_EDG_CFG_EDGE.tk n j)) 0 = true →
      ∃ t, exec (.edgeDetectorEdge n j true tag) s = .next t ∧
        t.get (Reg.TILE_EDG_CFG_COUNT.tk n j) = (s.get (Reg.TILE_EDG_CFG_COUNT.tk n j) + 1) % 2 ^ Reg.TILE_EDG_CFG_COUNT.w ∧
        bit (t.get (Reg.TILE_TIP_LATCHED.t n)) (4 + j) = true ∧ t.mem = s.mem) ∧
  (∀ (s : State) (n entry : Nat),
      n < 64 →
      s.fenced n = false →
      s.on (Reg.TILE_XSTAT_SIGREQ.t n) = false →
      ∃ t, exec (.xctlArm n entry) s = .next t ∧
        t.get (xState n) = 1 ∧ t.get (Reg.TILE_XCTL_ENTRY.t n) = entry % 2 ^ Reg.TILE_XCTL_ENTRY.w ∧ t.tls = s.tls) ∧
  (∀ (s : State) (n : Nat),
      n < 64 →
      s.fenced n = false →
      ∃ t, exec (.xctlCancel n) s = .next t ∧
        t.get (xState n) = 0 ∧ t.tls = s.tls ∧ t.mem = s.mem) ∧
  (∀ (s : State) (n : Nat),
      s.fenced n = false →
      s.get (xState n) ≠ 0 →
      s.get (tileState n) = 2 →
      (s.tile n).busy = false →
      exec (.xctlForce n) s = .next (s.exchange n true)) ∧
  (∀ (s : State) (n : Nat),
      n < 64 →
      s.get (xState n) ≠ 0 →
      s.get (Reg.TILE_XSTAT_TMO.t n) ≠ 0 →
      s.on (Reg.TILE_EVST_XTMO.t n) = false →
      ∃ t, exec (.exchangeTimeout n) s = .next t ∧
        t.on (Reg.TILE_EVST_XTMO.t n) = true ∧ t.on (evPend (376 + n)) = true ∧ t.get (xState n) = s.get (xState n)) ∧
  (∀ (s : State) (n p : Nat) (v : Word),
      n < 64 →
      s.fenced n = false →
      s.on (Reg.TILE_PPTR_LIVE.t n) = false →
      s.get (Reg.TILE_PPTR_PTR.t n) = p →
      s.liveBank n = 0 ∨ s.liveBank n = 1 →
      ∃ t, exec (.tilePdataWrite n v) s = .next t ∧
        (t.tile n).syllable (1 - s.liveBank n) p = v ∧ t.get (Reg.TILE_PPTR_PTR.t n) = (p + 1) % 2 ^ Reg.TILE_PPTR_PTR.w ∧
        t.on (Reg.TILE_XSTAT_SIGOK.t n) = false) ∧
  (∀ (s : State) (r : Requester) (n a : Nat) (v : Word),
      n < 64 →
      s.fenced n = false →
      s.claimed n = false ∨ 4 * a < 0x40000 →
      s.get (Reg.TILE_MPTR_WADDR.t n) = a →
      exec (.tileMdataAccess r n false v) s = .next ((s.put (Reg.TILE_MPTR_WADDR.t n) (a + 1)).emit (.readData r (BitVec.ofNat 32 (leNat (s.peekAll (tileAddr n (4 * a)) 4)))))) ∧
  (∀ (s : State) (r : Requester) (n a : Nat) (v : Word),
      n < 64 →
      s.fenced n = false →
      s.claimed n = false ∨ 4 * a < 0x40000 →
      s.get (Reg.TILE_MPTR_WADDR.t n) = a →
      exec (.tileMdataAccess r n true v) s = .next ((s.pokeAll (tileAddr n (4 * a)) (u32 v.toNat)).put (Reg.TILE_MPTR_WADDR.t n) (a + 1))) ∧
  (∀ (s : State) (n : Nat),
      n < 64 →
      s.get (tileState n) = 1 →
      (s.tile n).cmd = none →
      (s.tile n).busy = false →
      (s.tile n).gated = false →
      s.get (xState n) = 0 →
      ∃ t, exec (.tileRun n) s = .next t ∧
        t.get (tileState n) = 2 ∧ t.mem = s.mem) ∧
  (∀ (s : State) (n : Nat),
      n < 64 →
      s.get (tileState n) = 2 →
      (s.tile n).cmd = none →
      (s.tile n).busy = false →
      ∃ t, exec (.tileHalt n) s = .next t ∧
        t.get (tileState n) = 1 ∧ (t.tile n).bundle = [] ∧ t.mem = s.mem) ∧
  (∀ (s : State) (n : Nat),
      s.fenced n = false →
      (s.tile n).cmd = none →
      (s.tile n).busy = false →
      exec (.tileReset n) s = .next (s.coreReset n)) ∧
  (∀ (s : State) (n : Nat),
      s.on Reg.PWR_CFG_TILEGATE.z = true →
      s.get (tileState n) = 1 →
      ∃ t, exec (.tileClockGate n) s = .next t ∧
        (t.tile n).gated = true ∧ t.pwr.up.contains (tileIsland n) = false ∧ t.regs = s.regs) ∧
  (∀ (s : State) (n k : Nat),
      (s.tuner (s.get (Reg.TILE_RING0_TUNER.tk n k))).ringOuts = [] →
      ∃ t, exec (.tunerRingBlock n k) s = .next t ∧
        t = s) ∧
  (∀ (s : State) (n k u : Nat) (o : TunOut),
      n < 64 →
      k < 8 →
      s.get (Reg.TILE_RING0_TUNER.tk n k) = u →
      (s.tuner u).ringOuts = [o] →
      bits o.dest 20 6 = n →
      s.on (Reg.TILE_RING0_VALID.tk n k) = true →
      s.ringFill n k (s.get (Reg.TILE_RING1_RIDX.tk n k)) ≠ s.ringBlocks n k →
      ∃ t, exec (.tunerRingBlock n k) s = .next t ∧
        t.get (Reg.TILE_RING0_WIDX.tk n k) = (s.get (Reg.TILE_RING0_WIDX.tk n k) + 1) % 2 ^ 16 ∧ (t.tuner u).ringOuts = []) ∧
  (∀ (s : State) (n u : Nat) (loaded : Bool),
      u < 32 →
      s.get (Reg.TRG_UCFG_SRC.e u) = 7 →
      s.get (Reg.TRG_UELEM_ELEM.e u) = n →
      s.get Reg.PWR_STAT_MODE.z = 4 →
      s.on (Reg.TRG_UCFG_EN.e u) = true →
      exec (.softTrigger n u loaded) s = .next (s.pushPulse u (if loaded then (s.tile n).ttag else s.now) (s.tq false false)))

/-- A requester other than a tile that acquires lock n: FREE gives 1 and ABANDONED 2, and the lock is HELD by it with epoch 0; HELD by another gives 0 and by itself 3, and the lock is unchanged. A release by the holder gives 1 and FREE; any other gives 4 and changes nothing. A break from BAR0 gives FREE; from another requester it has no effect. The outcome is what LOCK_STAT then shows the requester. A tile's LKACQ and LKREL follow the same rows with the tile as requester and its REPOCH as epoch, and put the outcome into D(0). -/
def Obligations.LocksFollowTheirTable : Prop :=
  (∀ (s : State) (r : Requester) (n : Nat),
      n < 256 →
      s.get (lockState n) ≠ 1 →
      ∃ t, exec (.lockAcquire r n) s = .next t ∧
        t.get (lockState n) = 1 ∧ t.lockOwner n = lockRequester r ∧ t.get (Reg.LOCK_STAT_EPOCH.e n) = 0 ∧ t.mem = s.mem ∧ t.tls.tile = s.tls.tile ∧
        (s.get (lockState n) = 0 → tget (fun _ => 0) t.tls.lockLast (lockRequester r * 256 + n) = 1) ∧ (s.get (lockState n) = 2 → tget (fun _ => 0) t.tls.lockLast (lockRequester r * 256 + n) = 2)) ∧
  (∀ (s : State) (r : Requester) (n : Nat),
      n < 256 →
      s.get (lockState n) = 1 →
      ∃ t, exec (.lockAcquire r n) s = .next t ∧
        t.get (lockState n) = s.get (lockState n) ∧ t.lockOwner n = s.lockOwner n ∧ t.get (Reg.LOCK_STAT_EPOCH.e n) = s.get (Reg.LOCK_STAT_EPOCH.e n) ∧
        tget (fun _ => 0) t.tls.lockLast (lockRequester r * 256 + n) = (if s.lockOwner n = lockRequester r then 3 else 0) ∧ t.regs = s.regs) ∧
  (∀ (s : State) (r : Requester) (n : Nat),
      n < 256 →
      s.get (lockState n) = 1 →
      s.lockOwner n = lockRequester r →
      ∃ t, exec (.lockRelease r n) s = .next t ∧
        t.get (lockState n) = 0 ∧ tget (fun _ => 0) t.tls.lockLast (lockRequester r * 256 + n) = 1 ∧ t.mem = s.mem) ∧
  (∀ (s : State) (r : Requester) (n : Nat),
      n < 256 →
      s.get (lockState n) ≠ 1 ∨ s.lockOwner n ≠ lockRequester r →
      ∃ t, exec (.lockRelease r n) s = .next t ∧
        t.get (lockState n) = s.get (lockState n) ∧ t.lockOwner n = s.lockOwner n ∧ t.get (Reg.LOCK_STAT_EPOCH.e n) = s.get (Reg.LOCK_STAT_EPOCH.e n) ∧ tget (fun _ => 0) t.tls.lockLast (lockRequester r * 256 + n) = 4 ∧ t.regs = s.regs) ∧
  (∀ (s : State) (n : Nat),
      n < 256 →
      ∃ t, exec (.lockBreak .bar0 n) s = .next t ∧
        t.get (lockState n) = 0 ∧ t.mem = s.mem) ∧
  (∀ (s : State) (r : Requester) (n : Nat),
      r ≠ .bar0 →
      exec (.lockBreak r n) s = .next (s)) ∧
  (∀ (s : State) (k n : Nat) (x : RegSet) (y : LsSyl),
      s.readyAt k = true →
      y.stop = true →
      (s.tile k).cur = x →
      x.pred y.qp.toNat = true →
      y.pn = 0 →
      y.imm.toNat = n →
      n < 256 →
      k < 64 →
      s.get (lockState n) ≠ 1 →
      ∃ t, exec (.lkacq k y) s = .next t ∧
        t.get (lockState n) = 1 ∧ t.lockOwner n = k ∧ t.get (Reg.LOCK_STAT_EPOCH.e n) = s.get (Reg.TILE_STAT_REPOCH.t k) ∧ t.mem = s.mem ∧
        (t.tile k).cur.dAt (x.phys y.data.toNat) = (if s.get (lockState n) = 0 then 1 else 2)) ∧
  (∀ (s : State) (k n : Nat) (x : RegSet) (y : LsSyl),
      s.readyAt k = true →
      y.stop = true →
      (s.tile k).cur = x →
      x.pred y.qp.toNat = true →
      y.pn = 0 →
      y.imm.toNat = n →
      n < 256 →
      k < 64 →
      s.get (lockState n) = 1 →
      ∃ t, exec (.lkacq k y) s = .next t ∧
        t.get (lockState n) = s.get (lockState n) ∧ t.lockOwner n = s.lockOwner n ∧ t.get (Reg.LOCK_STAT_EPOCH.e n) = s.get (Reg.LOCK_STAT_EPOCH.e n) ∧ t.mem = s.mem ∧
        (t.tile k).cur.dAt (x.phys y.data.toNat) = (if s.lockOwner n = k then 3 else 0)) ∧
  (∀ (s : State) (k n : Nat) (x : RegSet) (y : LsSyl),
      s.readyAt k = true →
      y.stop = true →
      (s.tile k).cur = x →
      x.pred y.qp.toNat = true →
      y.pn = 0 →
      y.imm.toNat = n →
      n < 256 →
      k < 64 →
      s.get (lockState n) = 1 →
      s.lockOwner n = k →
      ∃ t, exec (.lkrel k y) s = .next t ∧
        t.get (lockState n) = 0 ∧ (t.tile k).cur.dAt (x.phys y.data.toNat) = 1 ∧ t.mem = s.mem) ∧
  (∀ (s : State) (k n : Nat) (x : RegSet) (y : LsSyl),
      s.readyAt k = true →
      y.stop = true →
      (s.tile k).cur = x →
      x.pred y.qp.toNat = true →
      y.pn = 0 →
      y.imm.toNat = n →
      n < 256 →
      k < 64 →
      s.get (lockState n) ≠ 1 ∨ s.lockOwner n ≠ k →
      ∃ t, exec (.lkrel k y) s = .next t ∧
        t.get (lockState n) = s.get (lockState n) ∧ t.lockOwner n = s.lockOwner n ∧ t.get (Reg.LOCK_STAT_EPOCH.e n) = s.get (Reg.LOCK_STAT_EPOCH.e n) ∧ (t.tile k).cur.dAt (x.phys y.data.toNat) = 4 ∧ t.mem = s.mem)

/-- A host write of RIDX with (WIDX − RIDX) mod 2¹⁶ at most NB stores it; a host write beyond leaves RIDX and raises BADACC and EV005. A store of the core within the ring stores it; one beyond is ignored and the core takes fault RING. -/
def Obligations.RingIndexStaysWithinTheRing : Prop :=
  (∀ (s : State) (n k : Nat) (v : Word),
      n < 64 →
      k < 8 →
      s.fenced n = false →
      (s.get (Reg.TILE_RING0_WIDX.tk n k) + 2 ^ 16 - v.toNat % 2 ^ 16) % 2 ^ 16 ≤ s.ringBlocks n k →
      ∃ t, exec (.tileRingRidxWrite n k v) s = .next t ∧
        t.get (Reg.TILE_RING1_RIDX.tk n k) = v.toNat % 2 ^ 16 ∧ t.mem = s.mem) ∧
  (∀ (s : State) (n k : Nat) (v : Word),
      n < 64 →
      k < 8 →
      s.fenced n = false →
      s.ringBlocks n k < (s.get (Reg.TILE_RING0_WIDX.tk n k) + 2 ^ 16 - v.toNat % 2 ^ 16) % 2 ^ 16 →
      ∃ t, exec (.tileRingRidxWrite n k v) s = .next t ∧
        t.get (Reg.TILE_RING1_RIDX.tk n k) = s.get (Reg.TILE_RING1_RIDX.tk n k) ∧ t.on (Blk.gallery (Fin.ofNat 8 (n / 8))).badacc = true ∧
        t.on (evPend 5) = true ∧ t.mem = s.mem) ∧
  (∀ (s : State) (n k v : Nat) (x : RegSet) (y : LsSyl),
      n < 64 →
      k < 8 →
      s.readyAt n = true →
      y.stop = true →
      (s.tile n).cur = x →
      x.pred y.qp.toNat = true →
      y.mode = 0 →
      toU 32 ((x.pReg y.pn.toNat : Int) + y.imm.toInt * 4) = 0xFFF00144 + 8 * k →
      (x.dReg y.data.toNat).toNat % 2 ^ 16 = v →
      (s.get (Reg.TILE_RING0_WIDX.tk n k) + 2 ^ 16 - v) % 2 ^ 16 ≤ s.ringBlocks n k →
      ∃ t, exec (.stw n y) s = .next t ∧
        t.get (Reg.TILE_RING1_RIDX.tk n k) = v ∧ t.mem = s.mem) ∧
  (∀ (s : State) (n k v : Nat) (x : RegSet) (y : LsSyl),
      n < 64 →
      k < 8 →
      s.readyAt n = true →
      y.stop = true →
      (s.tile n).cur = x →
      x.pred y.qp.toNat = true →
      y.mode = 0 →
      toU 32 ((x.pReg y.pn.toNat : Int) + y.imm.toInt * 4) = 0xFFF00144 + 8 * k →
      (x.dReg y.data.toNat).toNat % 2 ^ 16 = v →
      s.ringBlocks n k < (s.get (Reg.TILE_RING0_WIDX.tk n k) + 2 ^ 16 - v) % 2 ^ 16 →
      exec (.stw n y) s = .next ((s.setTile n { s.tile n with bundle := [], idle := false }).tileFault n 7 (0xFFF00144 + 8 * k)))

/-- START and a DOORBELL that finds a link begin a descriptor; while STOPPING a command is held. STOP and ABORT make a RUNNING channel STOPPING; CLEAR ends ERROR, and is held while STOPPING. A fetched descriptor that passes its checks is latched; one that fails sets ERROR, its code and address. An end-mark poll that finds a link begins it. A RIDX beyond the queue is a bad access; the data port reads and writes gallery SRAM and moves its pointer. -/
def Obligations.DmaChannelCommandsComplete : Prop :=
  (∀ (s : State) (g c : Nat),
      g < 8 →
      c < 16 →
      s.get (chState g c) = 0 →
      ∃ t, exec (.dmaStart g c) s = .next t ∧
        t.get (chState g c) = 1 ∧ t.chCur g c = s.get64 (Reg.DMA_CHHEAD_L_ADDR.e2 g c) (Reg.DMA_CHHEAD_H_ADDR.e2 g c) ∧ t.mem = s.mem) ∧
  (∀ (s : State) (g c l : Nat),
      g < 8 →
      c < 16 →
      s.get (chState g c) = 2 →
      leNat (s.peekAll (s.chCur g c) 8) = l →
      bit l 63 = false →
      ∃ t, exec (.dmaDoorbell g c) s = .next t ∧
        t.get (chState g c) = 1 ∧ t.chCur g c = l % 2 ^ 48 ∧ t.mem = s.mem) ∧
  (∀ (s : State) (g c : Nat),
      g < 8 →
      c < 16 →
      s.get (chState g c) = 1 →
      ∃ t, exec (.dmaStop g c) s = .next t ∧
        t.get (chState g c) = 3 ∧ (t.chan g c).stopping = some false ∧ t.mem = s.mem) ∧
  (∀ (s : State) (g c : Nat),
      g < 8 →
      c < 16 →
      s.get (chState g c) = 1 →
      ∃ t, exec (.dmaAbort g c) s = .next t ∧
        t.get (chState g c) = 3 ∧ (t.chan g c).stopping = some true ∧ t.mem = s.mem) ∧
  (∀ (s : State) (g c : Nat),
      g < 8 →
      c < 16 →
      s.get (chState g c) = 4 →
      (s.chan g c).held ≠ some 1 →
      ∃ t, exec (.dmaClear g c) s = .next t ∧
        t.get (chState g c) = 0 ∧ t.chan g c = Channel.reset ∧ t.on (Reg.DMA_CHSTAT_CMDHELD.e2 g c) = false ∧ t.mem = s.mem) ∧
  (∀ (s : State) (g c : Nat),
      s.get (chState g c) = 3 →
      exec (.dmaClear g c) s = .next (s.dmaHold g c 5)) ∧
  (∀ (s : State) (g c : Nat),
      g < 8 →
      c < 16 →
      s.get (chState g c) = 1 →
      (s.chan g c).desc = none →
      (s.chan g c).waiting = none →
      s.dmaMay (s.chCur g c) 64 = true →
      s.descStatus (s.chCur g c) (descOf (s.peekAll (s.chCur g c) 64)) = 0 →
      ∃ t, exec (.descriptorFetch g c) s = .next t ∧
        (t.chan g c).desc = some (s.peekAll (s.chCur g c) 64) ∧ t.regs = s.regs ∧ t.mem = s.mem) ∧
  (∀ (s : State) (g c : Nat),
      g < 8 →
      c < 16 →
      s.get (chState g c) = 1 →
      (s.chan g c).desc = none →
      (s.chan g c).waiting = none →
      s.dmaMay (s.chCur g c) 64 = false →
      s.on (Reg.DMA_CHCQCFG_EN.e2 g c) = false →
      ∃ t, exec (.descriptorFetch g c) s = .next t ∧
        t.get (chState g c) = 4 ∧ t.get (Reg.DMA_CHSTAT_ERRCODE.e2 g c) = 4 ∧ t.on (Reg.DMA_CHSTAT_ERR.e2 g c) = true ∧ t.mem = s.mem) ∧
  (∀ (s : State) (g c l : Nat),
      g < 8 →
      c < 16 →
      s.get (chState g c) = 2 →
      s.get (Reg.DMA_CHCFG_POLL.e2 g c) ≠ 0 →
      leNat (s.peekAll (s.chCur g c) 8) = l →
      bit l 63 = false →
      ∃ t, exec (.endMarkPoll g c) s = .next t ∧
        t.get (chState g c) = 1 ∧ t.chCur g c = l % 2 ^ 48 ∧ t.mem = s.mem) ∧
  (∀ (s : State) (g c : Nat) (v : Word),
      2 ^ s.get (Reg.DMA_CHCQCFG_CQLOG.e2 g c) < (s.get (Reg.DMA_CHCQ_WIDX.e2 g c) + 2 ^ 16 - v.toNat / 2 ^ 16) % 2 ^ 16 →
      exec (.dmaCqRidxWrite g c v) s = .next (s.bad (.gallery (Fin.ofNat 8 g)))) ∧
  (∀ (s : State) (g c : Nat) (v : Word),
      g < 8 →
      c < 16 →
      (s.get (Reg.DMA_CHCQ_WIDX.e2 g c) + 2 ^ 16 - v.toNat / 2 ^ 16) % 2 ^ 16 ≤ 2 ^ s.get (Reg.DMA_CHCQCFG_CQLOG.e2 g c) →
      (s.chan g c).waiting = none →
      ∃ t, exec (.dmaCqRidxWrite g c v) s = .next t ∧
        t.get (Reg.DMA_CHCQ_RIDX.e2 g c) = v.toNat / 2 ^ 16 ∧ t.mem = s.mem ∧ t.dma = s.dma) ∧
  (∀ (s : State) (r : Requester) (g w : Nat) (v : Word),
      s.get (Reg.DMA_GSPTR_WADDR.e g) = w →
      s.galOk g (4 * w) 4 = true →
      exec (.dmaGsdataAccess r g 0 true v) s = .next ((s.pokeAll (galAddr g (4 * w)) (u32 v.toNat)).put (Reg.DMA_GSPTR_WADDR.e g) (w + 1))) ∧
  (∀ (s : State) (r : Requester) (g w : Nat) (v : Word),
      s.get (Reg.DMA_GSPTR_WADDR.e g) = w →
      s.galOk g (4 * w) 4 = true →
      exec (.dmaGsdataAccess r g 0 false v) s = .next ((s.emit (.readData r (BitVec.ofNat 32 (leNat (s.peekAll (galAddr g (4 * w)) 4))))).put (Reg.DMA_GSPTR_WADDR.e g) (w + 1)))

/-- A RUNNING channel whose latched descriptor asks for no record and whose source holds no poisoned word ends with the memory in which the elements it has not moved yet have been copied in logical order (dmaMove), and with DONE, INT being set. -/
def Obligations.DescriptorCopiesItsElements : Prop :=
  ∀ (s : State) (g c k m : Nat) (b : List Byte) (d : Desc),
      g < 8 →
      c < 16 →
      s.get (chState g c) = 1 →
      (s.chan g c).desc = some b →
      descOf b = d →
      (s.chan g c).waiting = none →
      (s.chan g c).stopping = none →
      bit d.flags 0 = false →
      bit d.flags 1 = true →
      (s.chan g c).moved = m →
      (s.chan g c).lost = 0 →
      (s.dmaMove d m (d.count - m)).2 = 0 →
      ∃ t, exec (.descriptorComplete g c k) s = .next t ∧
        t.mem = (s.dmaMove d m (d.count - m)).1.mem ∧ t.on (Reg.DMA_CHSTAT_DONE.e2 g c) = true

/-- A write below the memory size without error stores its bytes; a request to a grain being copied, or through a remap entry without two agreeing copies, is held. An idle row is closed. A refresh of a free bank is done, one of a busy bank is owed. A scrub pass without error changes nothing; corrected words are counted, at the threshold with PREMIG they ask for a migration of the rank, and an uncorrectable word is poisoned with its event. RETIRE of an ACTIVE rank asks for its migration and RESTORE of an OUT rank makes it SPARE; on any other rank both are bad accesses. A migration starts toward a spare or waits for a fold; the copy of a grain advances the watermark; a pseudo-channel powers down. -/
def Obligations.MemoryCommandsComplete : Prop :=
  (∀ (s : State) (a src : Nat) (bs : List Byte),
      a < s.hbmSize →
      a + bs.length ≤ 2 ^ 44 →
      (∀ i, i < bs.length → (s.remapOf (s.rankOf (a + i))).lost = false) →
      s.hbmHolds a = false →
      ∃ t, exec (.hbmAccess true a bs src 0) s = .next t ∧
        t.mem = (s.pokeAll a bs).mem ∧ t.regs = s.regs) ∧
  (∀ (s : State) (w : Bool) (a src bad : Nat) (bs : List Byte),
      a < s.hbmSize →
      s.hbmHolds a = true →
      ∃ t, exec (.hbmAccess w a bs src bad) s = .next t ∧
        t.msys.held = s.msys.held ++ [⟨w, a, bs, src, bad⟩] ∧ t.mem = s.mem ∧ t.regs = s.regs) ∧
  (∀ (s : State) (rank bank : Nat), ∃ t, exec (.rowIdleClose rank bank) s = .next t ∧
        t.openRow rank bank = none ∧ t.regs = s.regs ∧ t.mem = s.mem) ∧
  (∀ (s : State) (rank bank : Nat),
      s.get (rankState rank) = 0 →
      s.openRow rank bank = none →
      ∃ t, exec (.refreshDue rank bank true) s = .next t ∧
        t.owed rank bank = 0 ∧ t.regs = s.regs ∧ t.mem = s.mem) ∧
  (∀ (s : State) (rank bank : Nat),
      s.get (rankState rank) = 0 →
      s.owed rank bank < 8 →
      ∃ t, exec (.refreshDue rank bank false) s = .next t ∧
        t.owed rank bank = s.owed rank bank + 1 ∧ t.regs = s.regs ∧ t.mem = s.mem) ∧
  (∀ (s : State) (rank : Nat),
      s.get Reg.PWR_STAT_MODE.z = 4 →
      s.get (rankState rank) = 0 →
      s.get Reg.MEM_ECC_CETHR.z ≠ 0 →
      exec (.scrubPass rank 0 []) s = .next (s)) ∧
  (∀ (s : State) (rank k : Nat),
      rank < 768 →
      s.get Reg.PWR_STAT_MODE.z = 4 →
      s.get (rankState rank) = 0 →
      0 < k →
      k < s.get Reg.MEM_ECC_CETHR.z →
      exec (.scrubPass rank k []) s = .next (s.eccCorrected rank k)) ∧
  (∀ (s : State) (rank k : Nat),
      rank < 768 →
      s.get Reg.PWR_STAT_MODE.z = 4 →
      s.get (rankState rank) = 0 →
      0 < k →
      s.on Reg.MEM_ECC_PREMIG.z = true →
      s.get Reg.MEM_ECC_CETHR.z ≤ k →
      s.msys.waiting = [] →
      ∃ t, exec (.scrubPass rank k []) s = .next t ∧
        t.msys.waiting = [rank] ∧ t.get (Reg.MEM_RANK_CE.e rank) = satAdd Reg.MEM_RANK_CE.w (s.get (Reg.MEM_RANK_CE.e rank)) k ∧ t.mem = s.mem) ∧
  (∀ (s : State) (rank a : Nat),
      rank < 768 →
      s.get Reg.PWR_STAT_MODE.z = 4 →
      s.get (rankState rank) = 0 →
      s.get Reg.MEM_ECC_CETHR.z ≠ 0 →
      s.poisoned a = false →
      ∃ t, exec (.scrubPass rank 0 [a]) s = .next t ∧
        t.msys.poison = (a / 32) :: s.msys.poison ∧ t.on (evPend (456 + 3 * stackOf (s.physOf a) + 1)) = true ∧ t.mem = s.mem) ∧
  (∀ (s : State) (rank : Nat),
      rank < 768 →
      s.get (rankState rank) = 0 →
      ∃ t, exec (.memRetire rank) s = .next t ∧
        t.msys.waiting.contains rank = true ∧ t.regs = s.regs ∧ t.mem = s.mem) ∧
  (∀ (s : State) (rank : Nat),
      rank < 768 →
      s.get (rankState rank) = 4 →
      ∃ t, exec (.memRestore rank) s = .next t ∧
        t.get (rankState rank) = 1 ∧ t.on (evPend (456 + 3 * stackOf rank + 2)) = true ∧ t.mem = s.mem) ∧
  (∀ (s : State) (rank : Nat),
      rank < 768 →
      s.get (rankState rank) = 2 ∨ s.get (rankState rank) = 3 →
      exec (.memRetire rank) s = .next (s.bad .memory) ∧ exec (.memRestore rank) s = .next (s.bad .memory)) ∧
  (∀ (s : State) (p : Nat) (rest : List Nat),
      p < 768 →
      s.msys.waiting = p :: rest →
      s.get Reg.MEM_STAT_MIG.z = 0 →
      s.get Reg.PWR_STAT_MODE.z = 4 →
      ∃ t, exec (.migrationStart) s = .next t ∧
        t.get (rankState p) = 2 ∧ t.get Reg.MEM_STAT_MRANK.z = p ∧ t.get Reg.MEM_MIGPOS_W.z = 0 ∧ t.msys.waiting = rest ∧ t.mem = s.mem ∧
        (t.get Reg.MEM_STAT_MIG.z = 1 ∨ t.get Reg.MEM_STAT_MIG.z = 3)) ∧
  (∀ (s : State) (m : Nat × Nat × Option Nat),
      s.msys.mig = some m →
      s.get Reg.MEM_STAT_MIG.z = 1 →
      s.get Reg.MEM_MIGPOS_W.z + 1 < s.grainsD →
      s.get Reg.MEM_MIGPOS_W.z + 1 < 2 ^ Reg.MEM_MIGPOS_W.w →
      s.msys.held = [] →
      ∃ t, exec (.migrationGrain) s = .next t ∧
        t.get Reg.MEM_MIGPOS_W.z = s.get Reg.MEM_MIGPOS_W.z + 1 ∧ t.msys = s.msys ∧ t.mem = s.mem) ∧
  (∀ (s : State) (pc : Nat), ∃ t, exec (.pcPowerDown pc false) s = .next t ∧
        tget (fun _ => 0) t.msys.power pc = 1 ∧ t.regs = s.regs ∧ t.mem = s.mem)

/-- With the streams running the next closed record reaches its stream. A waiting protected record that fits enters. A dead stream with records fails with EV480; a FAILED stream whose destination takes data again leaves FAILED with EV481. A DRAINING stream with an empty queue is OFF. A stream in the commit swaps at its boundary. -/
def Obligations.StreamQueueCommandsComplete : Prop :=
  (∀ (s : State) (c : Nat × Nat × Record),
      s.streamsRun = true →
      s.pair.switching = false →
      nextClosed s.closed = some c →
      exec (.recordEnqueue) s = .next (({ s with closed := dropFirst c s.closed }.reach c.1 c.2.2))) ∧
  (∀ (s : State) (st : Nat) (r : Record) (l : List Record),
      s.streamsRun = true →
      s.pair.switching = false →
      (s.stream st).waiting = r :: l →
      s.fits st r = true →
      exec (.protectedRecordEnter st) s = .next ((((s.setStream st { s.stream st with waiting := l }).enter st r).trgTaken st r).waitSync st)) ∧
  (∀ (s : State) (st : Nat),
      st < 4096 →
      s.get (strState st) ≠ 0 →
      s.get (strState st) ≠ 3 →
      (s.stream st).queue ≠ [] →
      ∃ t, exec (.streamDeadTimeout st) s = .next t ∧
        t.get (strState st) = 3 ∧ (t.stream st).queue = [] ∧ t.on (evPend 480) = true) ∧
  (∀ (s : State) (st : Nat),
      st < 4096 →
      s.get (strState st) = 3 →
      s.takes st = true →
      ∃ t, exec (.streamFailedExit st) s = .next t ∧
        (t.get (strState st) = 1 ∨ t.get (strState st) = 4) ∧ t.on (evPend 481) = true ∧ (t.stream st).loss = none) ∧
  (∀ (s : State) (st : Nat),
      s.get (strState st) = 4 →
      (s.stream st).queue = [] →
      (s.stream st).waiting = [] →
      (s.stream st).shadow.any (·.seq.isSome) = false →
      s.closed.any (fun c => c.1 == st) = false →
      exec (.streamDrained st) s = .next (s.strTo st 0)) ∧
  (∀ (s : State) (st : Nat),
      s.maySwap .streams = true →
      s.str.left.contains st = true →
      exec (.streamSwap st false) s = .next ((s.streamSwap st).strDone)) ∧
  (∀ (s : State) (r : Nat),
      s.maySwap .streams = true →
      s.str.ringsLeft.contains r = true →
      exec (.streamSwap r true) s = .next ((s.ringSwap r).strDone))

/-- A record that fits, closed for a running stream of an unpaired engine, joins the end of its queue as a WRF record with the stream's next sequence number, its epoch, the generation and the engine number; the sequence number advances by one. Without the ladder, an unprotected record that does not fit leaves the queue as it was and is counted in the ladder's discards with its bytes; a protected one waits instead. -/
def Obligations.RecordsEnterOrAreCounted : Prop :=
  (∀ (s : State) (c : Nat × Nat × Record) (st n : Nat) (x : Stream),
      s.streamsRun = true →
      s.paired = false →
      s.pair.switching = false →
      s.pair.shadow = false →
      nextClosed s.closed = some c →
      c.1 = st →
      s.stream st = x →
      x.waiting = [] →
      x.loss = none →
      st < 4096 →
      s.get (strState st) = 1 →
      s.get (Reg.STR_SCFG_DEST.e st) ≠ 2 →
      s.get (Reg.STR_SCFG_DEST.e st) ≠ 1 →
      s.rawIn st c.2.2 = false →
      c.2.2.source ≠ 1 →
      s.fits st c.2.2 = true →
      s.get (Reg.STR_SSEQ_SEQ.e st) = n →
      ∃ t, exec (.recordEnqueue) s = .next t ∧
        (t.stream st).queue.map (·.bytes) = x.queue.map (·.bytes) ++
          [wrf st c.2.2.kind n (s.get (Reg.STR_SEPOCH_EPOCH.e st)) (s.get Blk.streams.gen) 0 x.first c.2.2.body] ∧
        t.get (Reg.STR_SSEQ_SEQ.e st) = (n + 1) % 2 ^ 32 ∧ t.mem = s.mem) ∧
  (∀ (s : State) (c : Nat × Nat × Record) (st : Nat),
      s.streamsRun = true →
      s.pair.switching = false →
      s.pair.shadow = false →
      nextClosed s.closed = some c →
      c.1 = st →
      st < 4096 →
      s.get (strState st) = 1 →
      s.get (Reg.STR_SCFG_DEST.e st) ≠ 2 →
      (s.stream st).loss = none →
      isProtected c.2.2.kind = false →
      s.fits st c.2.2 = false →
      s.on (Reg.REC_LCFG_EN.e st) = false →
      ∃ t, exec (.recordEnqueue) s = .next t ∧
        (t.stream st).queue = (s.stream st).queue ∧ (t.ladder st).discs = (s.ladder st).discs + 1 ∧
        (t.ladder st).bytes = (s.ladder st).bytes + s.recordLen st c.2.2 ∧ t.mem = s.mem) ∧
  (∀ (s : State) (c : Nat × Nat × Record) (st : Nat),
      s.streamsRun = true →
      s.pair.switching = false →
      s.pair.shadow = false →
      nextClosed s.closed = some c →
      c.1 = st →
      st < 4096 →
      s.get (strState st) = 2 →
      s.get (Reg.STR_SCFG_DEST.e st) ≠ 2 →
      (s.stream st).loss = none →
      c.2.2.kind = 2 →
      (s.stream st).waiting ≠ [] →
      ∃ t, exec (.recordEnqueue) s = .next t ∧
        (t.stream st).queue = (s.stream st).queue ∧ (t.stream st).waiting = (s.stream st).waiting ++ [c.2.2] ∧ t.mem = s.mem)

/-- A port that transmits and serves a stream sends its next datagram. A PAUSE frame pauses a port that honours it and any other frame outside PTP is dropped and counted. A change of a link is reported by EV483. A TAIL write posts at most 2^RLOG descriptors. A record that its stream has for a ring goes whole into a posted buffer, which is written back; a buffer that breaks the rules is written back BAD with EV485; a message is sent once enough write-backs are due; BME off empties the rings. A posted frame that obeys the rules leaves its port. The outputs of a VITA tuner close a data packet, and a context packet is sent; without outputs no packet closes. -/
def Obligations.PortAndRingCommandsComplete : Prop :=
  (∀ (s : State) (p : Nat),
      s.portSends p = false →
      exec (.datagramSend p [] []) s = .next (s)) ∧
  (∀ (s : State) (p st : Nat) (l : List QRec) (a : Bool),
      s.portSends p = true →
      s.txWaits p = false →
      s.serveNext p ((s.str.streams.map (·.1)).filter (s.sendable p [st] [])) = some st →
      s.nextSend p st [] = some (l, a) →
      s.str.streams = [(st, s.stream st)] →
      exec (.datagramSend p [st] []) s = .next ((s.setStrPort p { s.strPort p with last := st, served := if st = (s.strPort p).last then (s.strPort p).served + 1 else 1 }).sendDatagram p st l a)) ∧
  (∀ (s : State) (p stamp q : Nat) (f : List Byte),
      s.on (Reg.STR_PSTAT_LINK.e p) = true →
      s.on (Reg.STR_PCFG_PAUSE.e p) = true →
      pauseQuanta f = some q →
      ∃ t, exec (.ethFrameRx p stamp f []) s = .next t ∧
        (t.strPort p).paused.isSome = true ∧ t.regs = s.regs) ∧
  (∀ (s : State) (p stamp : Nat) (f : List Byte),
      p < 8 →
      s.on (Reg.STR_PSTAT_LINK.e p) = true →
      pauseQuanta f = none →
      s.ptpAccepted p f = false →
      ∃ t, exec (.ethFrameRx p stamp f []) s = .next t ∧
        t.get (Reg.STR_PSTAT_RXDROP.e p) = satAdd Reg.STR_PSTAT_RXDROP.w (s.get (Reg.STR_PSTAT_RXDROP.e p)) 1 ∧ t.str = s.str) ∧
  (∀ (s : State) (p : Nat) (b : Bool),
      p < 8 →
      s.on (Reg.STR_PSTAT_LINK.e p) ≠ b →
      (b = true → s.on (Reg.STR_PCFG_EN.e p) = true) →
      ∃ t, exec (.portLinkChange p b) s = .next t ∧
        t.on (Reg.STR_PSTAT_LINK.e p) = b ∧ t.on (evPend 483) = true ∧ (t.strPort p).paused = none) ∧
  (∀ (s : State) (r v : Nat),
      r < 256 →
      s.on (Reg.HRG_CFG_EN.e r) = false →
      (s.hostRing r).starving = false →
      (v + 65536 - s.get (Reg.HRG_STAT_HEAD.e r)) % 65536 ≤ 2 ^ s.get (Reg.HRG_CFG_RLOG.e r) →
      ∃ t, exec (.hrgTailWrite r v) s = .next t ∧
        t.get (Reg.HRG_TAIL_TAIL.e r) = v % 65536 ∧ t.mem = s.mem) ∧
  (∀ (s : State) (r v : Nat),
      2 ^ s.get (Reg.HRG_CFG_RLOG.e r) < (v + 65536 - s.get (Reg.HRG_STAT_HEAD.e r)) % 65536 →
      exec (.hrgTailWrite r v) s = .next (s.bad .streams)) ∧
  (∀ (s : State) (r : Nat) (d : HostDesc),
      s.streamsRun = true →
      s.pair.shadow = false →
      s.ringRuns r 0 = true →
      bufferOk d = false →
      exec (.hostBufferWriteback r d [] []) s = .next ((s.badDescriptor r).ringStarve r)) ∧
  (∀ (s : State) (r st : Nat) (d : HostDesc) (q : QRec),
      r < 256 →
      s.streamsRun = true →
      s.pair.shadow = false →
      s.ringRuns r 0 = true →
      bufferOk d = true →
      s.ringCont r = none →
      (s.stream st).queue = [q] →
      q.dest = 1 →
      q.sel = r →
      q.acked = true →
      q.taken = 0 →
      q.bytes ≠ [] →
      q.bytes.length ≤ d.len →
      ∃ t, exec (.hostBufferWriteback r d [st] []) s = .next t ∧
        (t.stream st).queue = [] ∧ (Out.hostWrite d.addr q.bytes) ∈ t.out ∧
        t.get (Reg.HRG_STAT_HEAD.e r) = (s.get (Reg.HRG_STAT_HEAD.e r) + 1) % 2 ^ Reg.HRG_STAT_HEAD.w ∧ t.mem = s.mem) ∧
  (∀ (s : State) (r : Nat),
      s.get (Reg.HRG_MOD_MODCNT.e r) ≤ (s.hostRing r).unsignalled →
      exec (.hostRingInterrupt r) s = .next ((s.setHostRing r { s.hostRing r with unsignalled := 0 }).sendMsix (s.get (Reg.HRG_CFG_VEC.e r)))) ∧
  (∀ (s : State), exec (.busMasterDisable) s = .next (s.ringsStop)) ∧
  (∀ (s : State) (r p stamp : Nat) (d : HostDesc) (f : List Byte),
      s.get (Reg.HRG_CFG_PORT.e r) = p →
      s.ringRuns r 2 = true →
      d.addr % 64 = 0 →
      60 ≤ d.len →
      d.len ≤ s.get (Reg.STR_PCFG_MTU.e p) + 18 →
      d.rsv = 0 →
      s.portSends p = true →
      s.oneStep p (f.take d.len) = false →
      exec (.txFrameSend r d stamp f) s = .next ((s.emit (.frame p (f.take d.len))).writeBack r 0 1 false false false 0)) ∧
  (∀ (s : State) (r p stamp : Nat) (d : HostDesc) (f : List Byte),
      s.get (Reg.HRG_CFG_PORT.e r) = p →
      s.ringRuns r 2 = true →
      d.addr % 64 ≠ 0 ∨ d.len < 60 ∨ s.get (Reg.STR_PCFG_MTU.e p) + 18 < d.len ∨ d.rsv ≠ 0 →
      exec (.txFrameSend r d stamp f) s = .next (s.badDescriptor r)) ∧
  (∀ (s : State) (n : Nat),
      (s.tuner n).strOuts = [] →
      exec (.vrtDataPacket n true) s = .next (s)) ∧
  (∀ (s : State) (n st : Nat) (o : TunOut) (x : Tuner),
      n < 256 →
      s.tuner n = x →
      x.strOuts = [o] →
      x.starts o = true ∨ x.packet = 0 →
      s.vrtNextOut n = some (o, st) →
      0 < s.get (Reg.STR_SXCFG_SPP.e st) →
      ∃ t, exec (.vrtDataPacket n true) s = .next t ∧
        (t.tuner n).strOuts = [] ∧ s.closed.length < t.closed.length ∧ t.regs = s.regs) ∧
  (∀ (s : State) (n st : Nat) (o : TunOut) (x : Tuner),
      s.tuner n = x →
      x.strOuts = [o] →
      s.vrtNextOut n = some (o, st) →
      0 < s.get (Reg.STR_SXCFG_SPP.e st) →
      ∃ t, exec (.vrtContextPacket n) s = .next t ∧
        t.closed.length = s.closed.length + 1 ∧ t.regs = s.regs ∧ (t.tuner n).strOuts = [o])

/-- A permitted disk command on an idle writer becomes BUSY with its arguments latched; while BUSY it is a bad access, and in another state it ends with STATE and EV487. A command whose transfer failed ends with IO; ATTACH, FORMAT, DETACH and READ take what the drives gave, and KEEP makes its extent KEPT. A waiting journal block is written. A stream with a record opens an extent, or writes its bytes in the one it has when they are due; one without records writes no data. A completed write takes effect. A checkpoint enters the data of an open extent that has advanced. A drive's failure fails the set with EV488. -/
def Obligations.DiskCommandsComplete : Prop :=
  (∀ (s : State),
      s.on Reg.DSK_STAT_BUSY.z = false →
      s.get dskState = 0 →
      ∃ t, exec (.diskAttach) s = .next t ∧
        t.on Reg.DSK_STAT_BUSY.z = true ∧ t.disk.cmd = some (1, (upto 5).map (fun i => s.get (Reg.DSK_ARG_ARG.e i))) ∧ t.mem = s.mem) ∧
  (∀ (s : State),
      s.on Reg.DSK_STAT_BUSY.z = false →
      s.get dskState = 0 →
      ∃ t, exec (.diskFormat) s = .next t ∧
        t.on Reg.DSK_STAT_BUSY.z = true ∧ t.disk.cmd = some (2, (upto 5).map (fun i => s.get (Reg.DSK_ARG_ARG.e i))) ∧ t.mem = s.mem) ∧
  (∀ (s : State),
      s.on Reg.DSK_STAT_BUSY.z = false →
      s.get dskState = 3 →
      ∃ t, exec (.diskDetach) s = .next t ∧
        t.on Reg.DSK_STAT_BUSY.z = true ∧ t.disk.cmd = some (3, (upto 5).map (fun i => s.get (Reg.DSK_ARG_ARG.e i))) ∧ t.mem = s.mem) ∧
  (∀ (s : State),
      s.on Reg.DSK_STAT_BUSY.z = false →
      s.get dskState = 3 →
      ∃ t, exec (.diskKeep) s = .next t ∧
        t.on Reg.DSK_STAT_BUSY.z = true ∧ t.disk.cmd = some (4, (upto 5).map (fun i => s.get (Reg.DSK_ARG_ARG.e i))) ∧ t.mem = s.mem) ∧
  (∀ (s : State),
      s.on Reg.DSK_STAT_BUSY.z = false →
      s.get dskState = 4 →
      ∃ t, exec (.diskFree) s = .next t ∧
        t.on Reg.DSK_STAT_BUSY.z = true ∧ t.disk.cmd = some (5, (upto 5).map (fun i => s.get (Reg.DSK_ARG_ARG.e i))) ∧ t.mem = s.mem) ∧
  (∀ (s : State),
      s.on Reg.DSK_STAT_BUSY.z = false →
      s.get dskState = 4 →
      ∃ t, exec (.diskRead) s = .next t ∧
        t.on Reg.DSK_STAT_BUSY.z = true ∧ t.disk.cmd = some (6, (upto 5).map (fun i => s.get (Reg.DSK_ARG_ARG.e i))) ∧ t.mem = s.mem) ∧
  (∀ (s : State),
      s.on Reg.DSK_STAT_BUSY.z = true →
      ∀ c ∈ ([.diskAttach, .diskFormat, .diskDetach, .diskKeep, .diskFree, .diskRead] : List Instr), exec c s = .next (s.bad .streams)) ∧
  (∀ (s : State),
      s.on Reg.DSK_STAT_BUSY.z = false →
      s.get dskState = 3 →
      ∃ t, exec (.diskFormat) s = .next t ∧
        t.get Reg.DSK_STAT_CMDST.z = 5 ∧ t.on (evPend 487) = true ∧ t.get dskState = 3) ∧
  (∀ (s : State) (op : Nat) (a : List Nat) (f : DiskFound),
      s.disk.cmd = some (op, a) →
      op ≠ 1 →
      f.error = true →
      ∃ t, exec (.diskCommandDone f) s = .next t ∧
        t.get Reg.DSK_STAT_CMDST.z = 4 ∧ t.on (evPend 487) = true ∧ t.disk.cmd = none ∧ t.on Reg.DSK_STAT_BUSY.z = false) ∧
  (∀ (s : State) (a : List Nat) (f : DiskFound),
      f.error = false →
      (s.disk.cmd = some (1, a) → exec (.diskCommandDone f) s = .next (s.diskAttach f)) ∧
      (s.disk.cmd = some (2, a) → exec (.diskCommandDone f) s = .next (s.diskFormat a f.drives)) ∧
      (s.disk.cmd = some (3, a) → exec (.diskCommandDone f) s = .next (s.diskDetach.dskEnd 0)) ∧
      ∀ set, s.disk.set = some set → s.disk.cmd = some (6, a) → exec (.diskCommandDone f) s = .next (s.diskReadOut set a f.data)) ∧
  (∀ (s : State) (set : DiskSet) (a : List Nat) (f : DiskFound),
      f.error = false →
      s.disk.set = some set →
      a.getD 0 0 < set.count →
      s.disk.cmd = some (4, a) →
      ∃ t, exec (.diskCommandDone f) s = .next t ∧
        (t.disk.extent (a.getD 0 0)).state = 3 ∧ t.get Reg.DSK_STAT_CMDST.z = 0 ∧ t.on (evPend 487) = true ∧ t.disk.cmd = none) ∧
  (∀ (s : State) (set : DiskSet),
      s.disk.set = some set →
      s.get dskState = 3 →
      s.disk.writes = [] →
      s.disk.undone = [] →
      s.disk.period = true →
      s.disk.entries ≠ [] →
      exec (.journalWrite) s = .next (s.journalIssue set)) ∧
  (∀ (s : State) (set : DiskSet) (st : Nat),
      s.disk.set = some set →
      (s.stream st).queue = [] →
      exec (.diskDataWrite st true []) s = .next (s)) ∧
  (∀ (s : State) (set : DiskSet) (st : Nat) (q : QRec) (p : DiskPos),
      s.disk.set = some set →
      s.streamsRun = true →
      s.pair.shadow = false →
      s.get dskState = 3 →
      s.get (strState st) ≠ 3 →
      (s.stream st).queue = [q] →
      q.dest = 2 →
      q.acked = true →
      q.taken = 0 →
      q.bytes ≠ [] →
      (s.stream st).disk = some p →
      p.cut = false →
      p.pos + q.bytes.length ≤ set.extBytes →
      p.pos + q.bytes.length < (p.pos / set.su + 1) * set.su →
      exec (.diskDataWrite st true []) s = .next (s.dataWrite set st q.bytes.length true)) ∧
  (∀ (s : State) (set : DiskSet) (st : Nat) (q : QRec) (l : List QRec),
      s.disk.set = some set →
      s.streamsRun = true →
      s.pair.shadow = false →
      s.get dskState = 3 →
      s.get (strState st) ≠ 3 →
      (s.stream st).queue = q :: l →
      q.dest = 2 →
      q.acked = true →
      q.taken = 0 →
      q.bytes ≠ [] →
      (s.stream st).disk = none →
      exec (.diskDataWrite st true []) s = .next (s.nextExtent set st)) ∧
  (∀ (s : State) (set : DiskSet) (i : Nat) (w : DiskWrite) (b : Bool),
      s.disk.set = some set →
      s.get dskState ≠ 5 →
      s.disk.writes = [(i, w, b)] →
      exec (.diskWriteComplete i) s = .next ((s.setDisk { s.disk with writes := [] }).settled set w)) ∧
  (∀ (s : State) (st : Nat) (x : Stream) (p : DiskPos),
      s.get dskState = 3 →
      s.str.streams = [(st, x)] →
      x.disk = some p →
      p.donePos ≠ p.logged →
      ∃ t, exec (.diskCheckpoint) s = .next t ∧
        t.disk.period = true ∧ (t.stream st).disk = some { p with logged := p.donePos } ∧
        t.disk.entries = s.disk.entries ++
          [⟨2, p.ext, { s.disk.extent p.ext with last := p.doneSeq, valid := p.donePos, lastTag := s.now }⟩] ∧ t.mem = s.mem) ∧
  (∀ (s : State) (set : DiskSet) (d : Nat),
      d < 16 →
      s.disk.set = some set →
      s.get dskState ≠ 5 →
      ∃ t, exec (.diskDriveFail d) s = .next t ∧
        t.get (Reg.DSK_DRV_STATE.e d) = 3 ∧ t.get dskState = 5 ∧ t.on (evPend 488) = true)

/-- A pending output swaps. At a promotion point of an output without a frame under way the next frame begins. An overlay line is fetched; a late fetch aborts the frame and is counted with EV498 + o. A flip is pending until promoted. Hot-plug events, training and retraining move the link; a retrain in another state is a bad access. A free AUX channel becomes BUSY with the operation, and DONE gives its result. A touch read is started once; a report without answer is counted with EV502. Reading MKR0 gives its word. -/
def Obligations.DisplayCommandsComplete : Prop :=
  (∀ (s : State) (o : Nat),
      o < 2 →
      s.maySwap .display = true →
      (s.output o).left = true →
      exec (.displaySwap o) s = .next (s.outputSwap o)) ∧
  (∀ (s : State) (o b : Nat),
      o < 2 →
      s.get (outState o) = 3 →
      (s.output o).begun = false →
      s.streamsRun = true →
      s.maySwap .display = false →
      (s.output o).flipAt ≠ some s.cycleNow →
      ∃ t, exec (.displayPromotion o b) s = .next t ∧
        (t.output o).begun = true ∧ (t.output o).abort = none ∧ t.on (Reg.DSP_FLIP_FLIPPEND.e o) = false ∧ t.mem = s.mem) ∧
  (∀ (s : State) (o y k : Nat),
      o < 2 →
      s.get (outState o) = 3 →
      s.on (Reg.DSP_OCFG_OVLEN.e o) = true →
      y < s.get (Reg.DSP_VTIM_VACT.e o) →
      (s.output o).abort = none →
      ∃ t, exec (.overlayFetch o y (some k)) s = .next t ∧
        (t.output o).abort = some (y, k) ∧ t.get (Reg.DSP_UNDER_COUNT.e o) = satAdd Reg.DSP_UNDER_COUNT.w (s.get (Reg.DSP_UNDER_COUNT.e o)) 1 ∧
        t.on (evPend (498 + o)) = true ∧ t.mem = s.mem) ∧
  (∀ (s : State) (o v : Nat),
      o < 2 →
      v < 2 →
      ∃ t, exec (.dspFlipWrite o v) s = .next t ∧
        t.get (Reg.DSP_FLIP_SEL.e o) = v ∧ t.on (Reg.DSP_FLIP_FLIPPEND.e o) = true ∧
        t.output o = { s.output o with flipAt := some s.cycleNow } ∧ t.mem = s.mem) ∧
  (∀ (s : State) (o : Nat),
      o < 2 →
      s.get (outState o) = 1 →
      s.on (Reg.DSP_OCFG_AUTOTR.e o) = true →
      bit (s.get Reg.SEC_WITHDRAWN_CANVAS.z) o = false →
      ∃ t, exec (.hpdPlug o) s = .next t ∧
        t.get (outState o) = 2 ∧ t.on (evPend (496 + o)) = true) ∧
  (∀ (s : State) (o : Nat),
      o < 2 →
      s.get (outState o) ≠ 0 →
      s.get (outState o) ≠ 1 →
      bit (s.get Reg.SEC_WITHDRAWN_CANVAS.z) o = false →
      ∃ t, exec (.hpdUnplug o) s = .next t ∧
        t.get (outState o) = 1 ∧ (t.output o).begun = false ∧ t.on (evPend (496 + o)) = true) ∧
  (∀ (s : State) (o : Nat),
      o < 2 →
      ∃ t, exec (.irqHpd o) s = .next t ∧
        t.on (evPend (496 + o)) = true ∧ t.dsp = s.dsp) ∧
  (∀ (s : State) (o rate lanes : Nat),
      o < 2 →
      rate < 6 →
      lanes < 3 →
      rate ≤ s.get (Reg.DSP_OCFG_MAXRATE.e o) →
      lanes ≤ s.get (Reg.DSP_OCFG_MAXLN.e o) →
      s.get (outState o) = 2 →
      bit (s.get Reg.SEC_WITHDRAWN_CANVAS.z) o = false →
      ∃ t, exec (.linkTrainingDone o rate lanes) s = .next t ∧
        t.get (Reg.DSP_OSTAT_RATE.e o) = rate ∧ t.get (Reg.DSP_OSTAT_LANES.e o) = lanes ∧
        t.get (outState o) = (if carries (s.get (Reg.DSP_PCLK_KHZ.e o)) rate lanes then (if s.streamsRun then 3 else 5) else 4) ∧ t.on (evPend (496 + o)) = true) ∧
  (∀ (s : State) (o : Nat),
      o < 2 →
      s.get (outState o) = 3 ∨ s.get (outState o) = 4 →
      bit (s.get Reg.SEC_WITHDRAWN_CANVAS.z) o = false →
      ∃ t, exec (.retrain o) s = .next t ∧
        t.get (outState o) = 2 ∧ (t.output o).begun = false) ∧
  (∀ (s : State) (o : Nat),
      s.get (outState o) ≠ 3 →
      s.get (outState o) ≠ 4 →
      exec (.retrain o) s = .next (s.bad .display)) ∧
  (∀ (s : State) (o : Nat),
      o < 2 →
      s.on (Reg.DSP_AUXST_BUSY.e o) = false →
      ∃ t, exec (.auxNativeWrite o) s = .next t ∧
        t.on (Reg.DSP_AUXST_BUSY.e o) = true ∧ (t.output o).aux = 1 ∧ t.mem = s.mem) ∧
  (∀ (s : State) (o : Nat),
      o < 2 →
      s.on (Reg.DSP_AUXST_BUSY.e o) = false →
      ∃ t, exec (.auxNativeRead o) s = .next t ∧
        t.on (Reg.DSP_AUXST_BUSY.e o) = true ∧ (t.output o).aux = 2 ∧ t.mem = s.mem) ∧
  (∀ (s : State) (o : Nat),
      o < 2 →
      s.on (Reg.DSP_AUXST_BUSY.e o) = false →
      ∃ t, exec (.auxI2cWrite o) s = .next t ∧
        t.on (Reg.DSP_AUXST_BUSY.e o) = true ∧ (t.output o).aux = 3 ∧ t.mem = s.mem) ∧
  (∀ (s : State) (o : Nat),
      o < 2 →
      s.on (Reg.DSP_AUXST_BUSY.e o) = false →
      ∃ t, exec (.auxI2cRead o) s = .next t ∧
        t.on (Reg.DSP_AUXST_BUSY.e o) = true ∧ (t.output o).aux = 4 ∧ t.mem = s.mem) ∧
  (∀ (s : State) (o r : Nat) (d : List Byte),
      o < 2 →
      r < 8 →
      s.on (Reg.DSP_AUXST_BUSY.e o) = true →
      ∃ t, exec (.auxDone o r d) s = .next t ∧
        t.on (Reg.DSP_AUXST_BUSY.e o) = false ∧ t.get (Reg.DSP_AUXST_RESULT.e o) = r ∧ (t.output o).aux = 0 ∧ t.mem = s.mem) ∧
  (∀ (s : State),
      s.runs = true →
      s.on Reg.DSP_TCFG_EN.z = true →
      s.dsp.reading = false →
      s.get Reg.DSP_TCFG_POLL.z ≠ 0 →
      ∃ t, exec (.touchReadStart false) s = .next t ∧
        t.dsp.reading = true ∧ t.out.length = s.out.length + 1 ∧ t.regs = s.regs) ∧
  (∀ (s : State) (l : List Byte),
      s.dsp.reading = true →
      ∃ t, exec (.touchReport 1 l) s = .next t ∧
        t.get Reg.DSP_TSTAT_NAK.z = satAdd Reg.DSP_TSTAT_NAK.w (s.get Reg.DSP_TSTAT_NAK.z) 1 ∧ t.dsp.reading = false ∧ t.on (evPend 502) = true) ∧
  (∀ (s : State) (r : Requester), exec (.mkrRead r) s = .next (((s.plainRead (shadowKey r .display) .display Reg.DSP_MKR0_VALID.off).1.emit (.readData r (s.word Reg.DSP_MKR0_VALID.off)))))

/-- A trained lane makes its channel IDLE with EV504; a channel with a start time starts. A running channel plays its segment and takes its next step. A channel not yet swapped swaps at a boundary after the instant. A procedure starts when none runs and PRECHECK leaves a target; while one runs it is a bad access. ABORT ends the run with EV506; SETTLE_DONE begins MEASURE; a run whose targets are all judged ends; APPLY writes stored results. -/
def Obligations.StimulusAndCalibrationCommandsComplete : Prop :=
  (∀ (s : State) (c : Nat),
      c < 16 →
      s.get (stmState c) = 2 →
      ∃ t, exec (.stimLaneTrained c) s = .next t ∧
        t.get (stmState c) = 1 ∧ t.on (evPend 504) = true ∧ t.mem = s.mem) ∧
  (∀ (s : State) (c tc : Nat),
      c < 16 →
      (s.chn c).tc = some tc →
      s.get (stmState c) = 1 →
      s.get Reg.PWR_STAT_MODE.z = 4 →
      ∃ t, exec (.stimChannelStart c) s = .next t ∧
        t.get (stmState c) = 3 ∧ t.on (evPend 504) = true ∧ t.mem = s.mem ∧ (t.chn c).tc = none) ∧
  (∀ (s : State) (c : Nat) (m : List Nat),
      c < 16 →
      s.stmRuns c = true →
      s.get Reg.PWR_STAT_MODE.z = 4 →
      s.maySwap .stimulus = false →
      exec (.segmentBoundary c m) s = .next (((s.stimPlay c (s.segLen c) m).stimNext c).stimMark c)) ∧
  (∀ (s : State) (c : Nat),
      s.maySwap .stimulus = true →
      s.stm.left.contains c = true →
      s.stmRuns c = false →
      exec (.stimulusSwap c) s = .next ((s.stimSwapCal c s.commitAt).stimMark c)) ∧
  (∀ (s : State) (a p : Bool),
      s.stm.run = none →
      s.calShared 1 s.calTargets = none →
      (s.calTargets.map (s.calOwn 1)).contains none = true →
      ∃ t, exec (.calLane a p) s = .next t ∧
        t.get Reg.CAL_STAT_STATE.z = 2 ∧ t.get Reg.CAL_STAT_LASTOP.z = 1 ∧
        (t.stm.run.map (fun r => (r.op, r.apply, r.part, r.targets.map (·.target)))) = some (1, a, p, s.calTargets) ∧ t.mem = s.mem) ∧
  (∀ (s : State) (a p : Bool),
      s.stm.run = none →
      s.calShared 2 s.calTargets = none →
      (s.calTargets.map (s.calOwn 2)).contains none = true →
      ∃ t, exec (.calAlign a p) s = .next t ∧
        t.get Reg.CAL_STAT_STATE.z = 2 ∧ t.get Reg.CAL_STAT_LASTOP.z = 2 ∧
        (t.stm.run.map (fun r => (r.op, r.apply, r.part, r.targets.map (·.target)))) = some (2, a, p, s.calTargets) ∧ t.mem = s.mem) ∧
  (∀ (s : State) (a p : Bool),
      s.stm.run = none →
      s.calShared 3 s.calTargets = none →
      (s.calTargets.map (s.calOwn 3)).contains none = true →
      ∃ t, exec (.calGain a p) s = .next t ∧
        t.get Reg.CAL_STAT_STATE.z = 2 ∧ t.get Reg.CAL_STAT_LASTOP.z = 3 ∧
        (t.stm.run.map (fun r => (r.op, r.apply, r.part, r.targets.map (·.target)))) = some (3, a, p, s.calTargets) ∧ t.mem = s.mem) ∧
  (∀ (s : State) (a p : Bool),
      s.stm.run = none →
      s.calShared 4 s.calTargets = none →
      (s.calTargets.map (s.calOwn 4)).contains none = true →
      ∃ t, exec (.calFlat a p) s = .next t ∧
        t.get Reg.CAL_STAT_STATE.z = 2 ∧ t.get Reg.CAL_STAT_LASTOP.z = 4 ∧
        (t.stm.run.map (fun r => (r.op, r.apply, r.part, r.targets.map (·.target)))) = some (4, a, p, s.calTargets) ∧ t.mem = s.mem) ∧
  (∀ (s : State) (a p : Bool),
      s.stm.run = none →
      s.calShared 5 s.calTargets = none →
      (s.calTargets.map (s.calOwn 5)).contains none = true →
      ∃ t, exec (.calMonitor a p) s = .next t ∧
        t.get Reg.CAL_STAT_STATE.z = 2 ∧ t.get Reg.CAL_STAT_LASTOP.z = 5 ∧
        (t.stm.run.map (fun r => (r.op, r.apply, r.part, r.targets.map (·.target)))) = some (5, a, p, s.calTargets) ∧ t.mem = s.mem) ∧
  (∀ (s : State) (c : CalRun) (a p : Bool),
      s.stm.run = some c →
      ∀ f ∈ ([.calLane, .calAlign, .calGain, .calFlat, .calMonitor] : List (Bool → Bool → Instr)), exec (f a p) s = .next (s.bad .stimulus)) ∧
  (∀ (s : State) (c : CalRun),
      s.stm.run = some c →
      ∃ t, exec (.calAbort) s = .next t ∧
        t.stm.run = none ∧ t.get Reg.CAL_STAT_STATE.z = 0 ∧ t.on (evPend 506) = true ∧ t.mem = s.mem) ∧
  (∀ (s : State) (r : CalResult),
      s.stm.run = none →
      s.stm.kept = [r] →
      s.stm.keptOp = 2 →
      r.status = 0 →
      r.target < 128 →
      ∃ t, exec (.calApply) s = .next t ∧
        t.get (Reg.TB_INDELAY_DELAY.e r.target) = toU Reg.TB_INDELAY_DELAY.w r.delay ∧ t.stm.kept = [] ∧ t.on Reg.CAL_STAT_STORED.z = false ∧ t.on (evPend 506) = true) ∧
  (∀ (s : State) (c : CalRun),
      s.stm.run = some c →
      c.op ≠ 1 →
      s.get Reg.CAL_STAT_STATE.z = 2 →
      ∃ t, exec (.calSettleDone) s = .next t ∧
        t.get Reg.CAL_STAT_STATE.z = 3 ∧ (t.stm.run.map (·.targets)) = some (c.targets.map s.calBegin) ∧ t.mem = s.mem) ∧
  (∀ (s : State) (c : CalRun),
      s.stm.run = some c →
      c.op = 3 →
      c.ref = none →
      s.get Reg.CAL_STAT_STATE.z = 3 →
      c.targets.all (fun x => x.status.isSome) = true →
      ∃ t, exec (.calRunEnd [] []) s = .next t ∧
        t.stm.run = none ∧ t.get Reg.CAL_STAT_STATE.z = 0 ∧ t.on (evPend 506) = true ∧ t.mem = s.mem)

/-- Outside a SYNCED pair a CHECK or COMMIT of an idle engine starts the check and freezes the named blocks; while another request has not ended it is held. ABORT discards a held request with EV511, withdraws an accepted commit (LAST = ABORTED), and in any other state is a bad access. A check that finds failures ends REFUSED with the first of them; a CHECK without failures ends passed. At its instant an accepted commit takes effect. -/
def Obligations.AdmissionCommandsComplete : Prop :=
  (∀ (s : State) (a : Bool),
      dzState s ≠ 3 →
      s.get Reg.ADM_STAT_STATE.z = 0 →
      exec (.admCheck a) s = .next (s.admStart ⟨false, a, none⟩)) ∧
  (∀ (s : State) (a : Bool),
      dzState s ≠ 3 →
      s.get Reg.ADM_STAT_STATE.z = 0 →
      exec (.admCommit a) s = .next (s.admStart ⟨true, a, none⟩)) ∧
  (∀ (s : State) (a : Bool),
      dzState s ≠ 3 →
      s.get Reg.ADM_STAT_STATE.z ≠ 0 →
      ∃ t, exec (.admCheck a) s = .next t ∧
        t.adm.held = some ⟨false, a, none⟩ ∧ t.on Reg.ADM_STAT_HELD.z = true ∧ t.adm.request = s.adm.request ∧ (s.adm.held ≠ none → t.on (evPend 511) = true)) ∧
  (∀ (s : State) (a : Bool),
      dzState s ≠ 3 →
      s.get Reg.ADM_STAT_STATE.z ≠ 0 →
      ∃ t, exec (.admCommit a) s = .next t ∧
        t.adm.held = some ⟨true, a, none⟩ ∧ t.on Reg.ADM_STAT_HELD.z = true ∧ t.adm.request = s.adm.request ∧ (s.adm.held ≠ none → t.on (evPend 511) = true)) ∧
  (∀ (s : State),
      s.adm.held ≠ none →
      s.get Reg.ADM_STAT_STATE.z ≠ 2 →
      ∃ t, exec (.admAbort) s = .next t ∧
        t.adm.held = none ∧ t.on Reg.ADM_STAT_HELD.z = false ∧ t.on (evPend 511) = true ∧ t.adm.request = s.adm.request) ∧
  (∀ (s : State),
      s.get Reg.ADM_STAT_STATE.z = 2 →
      ∃ t, exec (.admAbort) s = .next t ∧
        t.get Reg.ADM_STAT_LAST.z = 4 ∧ t.get Reg.ADM_STAT_STATE.z = 0 ∧ t.adm.named = [] ∧ t.on (evPend 511) = true ∧ t.mem = s.mem) ∧
  (∀ (s : State),
      s.adm.held = none →
      s.get Reg.ADM_STAT_STATE.z ≠ 2 →
      exec (.admAbort) s = .next (s.bad .admission)) ∧
  (∀ (s : State) (us : Nat) (r : AdmRequest),
      s.adm.request = some r →
      s.adm.partnerWait = false →
      s.pair.creq = none →
      s.adm.held = none →
      r.commit = false →
      s.syncedPrimary = false →
      ∃ t, exec (.admissionCheckDone us) s = .next t ∧
        t.adm.request = none ∧ t.get Reg.ADM_STAT_STATE.z = 0 ∧ t.get Reg.ADM_TIME_US.z = min us (2 ^ 32 - 1) ∧ t.on (evPend 508) = true ∧
        ((s.put Reg.ADM_TIME_US.z (min us (2 ^ 32 - 1))).checkAll r = [] → t.get Reg.ADM_STAT_LAST.z = 1 ∧ t.get Reg.ADM_STAT_NFAIL.z = 0) ∧
        (∀ f l, (s.put Reg.ADM_TIME_US.z (min us (2 ^ 32 - 1))).checkAll r = f :: l →
          t.get Reg.ADM_STAT_LAST.z = 3 ∧ t.get Reg.ADM_STAT_NFAIL.z = min (l.length + 1) 65535 ∧ t.get Reg.ADM_RES_CODE.z = f.code % 256)) ∧
  (∀ (s : State),
      s.get Reg.ADM_STAT_STATE.z = 2 →
      ¬ s.now < s.adm.instant.getD 0 ∨ s.get Reg.PWR_STAT_MODE.z = 2 →
      exec (.commitInstant) s = .next (s.instantNow))

/-- RELOCK in Sleep or BYPASS applies the references and begins a lock, elsewhere it is a bad access; band calibration runs in Sleep only and fills the table with EV041. A lock with a covering band is LOCKED at N. A walk step moves N by one. A glitch is counted; a loss of lock is counted with EV033 and, as an expired holdover, ends in BYPASS with EV035. An auxiliary PLL that locks shows its dividers; a clock output is written; SYSREF fires a burst. -/
def Obligations.ClockCommandsComplete : Prop :=
  (∀ (s : State),
      s.get Reg.PWR_STAT_MODE.z = 2 →
      (s.applyClkRef (s.word Reg.CLK_REF_FREFA.off)).on Reg.CLK_STAT_CFGERR.z = false →
      ∃ t, exec (.relock) s = .next t ∧
        t.get Reg.CLK_STAT_STATE.z = 1 ∧ t.clk.locking = true ∧ t.clk.refApplied = s.word Reg.CLK_REF_FREFA.off ∧ t.mem = s.mem) ∧
  (∀ (s : State),
      s.get Reg.PWR_STAT_MODE.z ≠ 2 →
      s.get Reg.CLK_STAT_STATE.z ≠ 0 →
      exec (.relock) s = .next (s.bad .clocks)) ∧
  (∀ (s : State),
      s.get Reg.PWR_STAT_MODE.z = 2 →
      ∃ t, exec (.bandcal) s = .next t ∧
        t.clk.bandcal = true ∧ t.regs = s.regs ∧ t.mem = s.mem) ∧
  (∀ (s : State),
      s.get Reg.PWR_STAT_MODE.z ≠ 2 →
      exec (.bandcal) s = .next (s.bad .clocks)) ∧
  (∀ (s : State) (l : List Word),
      s.clk.bandcal = true →
      ∃ t, exec (.bandcalDone l) s = .next t ∧
        t.clk.bandcal = false ∧ (∀ b, b < 16 → t.word (Reg.CLK_BAND_VALID.off + 4 * b) = l.getD b 0) ∧ t.on (evPend 41) = true ∧ t.mem = s.mem) ∧
  (∀ (s : State) (n b : Nat),
      s.get Reg.CLK_STAT_STATE.z ≤ 1 →
      s.clk.locking = true →
      s.nFor s.adm.fcommit = n →
      n < 2 ^ Reg.CLK_N_N.w →
      s.bandFor n n = some b →
      b < 16 →
      s.on Reg.CLK_STAT_CFGERR.z = false →
      ∃ t, exec (.rootPllLock true) s = .next t ∧
        t.get Reg.CLK_STAT_STATE.z = 2 ∧ t.get Reg.CLK_N_N.z = n ∧ t.get Reg.CLK_STAT_BAND.z = b ∧ t.clk.locking = false ∧ t.on (evPend 32) = true) ∧
  (∀ (s : State) (n b : Nat),
      1 < s.get Reg.CLK_STAT_STATE.z →
      s.get Reg.CLK_STAT_STATE.z ≠ 4 →
      s.get Reg.CLK_N_N.z = n →
      n < s.nFor s.ftarget →
      n + 1 < 2 ^ Reg.CLK_N_N.w →
      b < 16 →
      s.get Reg.CLK_STAT_BAND.z = b →
      s.bandCovers b n = true →
      s.bandCovers b (n + 1) = true →
      ∃ t, exec (.clockWalkStep) s = .next t ∧
        t.get Reg.CLK_N_N.z = n + 1 ∧ t.get Reg.CLK_STAT_BAND.z = b ∧ t.mem = s.mem) ∧
  (∀ (s : State),
      s.get Reg.CLK_CNT_GLITCH.z ≠ 0 →
      ∃ t, exec (.refGlitch) s = .next t ∧
        t.get Reg.CLK_CNT_GLITCH.z = satAdd Reg.CLK_CNT_GLITCH.w (s.get Reg.CLK_CNT_GLITCH.z) 1 ∧ t.clk = s.clk ∧ t.mem = s.mem) ∧
  (∀ (s : State),
      s.get Reg.CLK_STAT_STATE.z = 4 →
      s.get Reg.CLK_CTRL_HOLDMAX.z ≠ 0 →
      s.get Reg.PWR_STAT_MODE.z = 2 →
      ∃ t, exec (.holdoverExpiry) s = .next t ∧
        t.get Reg.CLK_STAT_STATE.z = 0 ∧ t.on (evPend 35) = true ∧ t.on (evPend 34) = true ∧ t.on Reg.REF_STAT_BYPASS.z = true) ∧
  (∀ (s : State),
      1 < s.get Reg.CLK_STAT_STATE.z →
      ∃ t, exec (.pllLockLoss) s = .next t ∧
        t.get Reg.CLK_STAT_STATE.z = 0 ∧ t.on (evPend 33) = true ∧ t.on (evPend 35) = true ∧ t.mem = s.mem) ∧
  (∀ (s : State) (k v : Nat),
      k < 2 →
      v < 2 →
      s.get (Reg.CLK_AUX0_STATE.e k) ≠ v →
      s.auxRuns = true ∨ v = 0 →
      ∃ t, exec (.auxPllLock k v) s = .next t ∧
        t.get (Reg.CLK_AUX0_STATE.e k) = v ∧ t.on (evPend (39 + k)) = true ∧ t.mem = s.mem) ∧
  (∀ (s : State) (k : Nat) (v : Word),
      k < 4 →
      ∃ t, exec (.clkOutWrite k v) s = .next t ∧
        t.word (Reg.CLK_OUT_EN.off + 4 * k) = v &&& 0xF00000FF ∧ t.mem = s.mem ∧ t.tb = s.tb) ∧
  (∀ (s : State),
      s.on Reg.CLK_SYSREF_MODE.z = true →
      s.on Reg.CLK_SYSREF_EN.z = true →
      s.clk.burst = 0 →
      ∃ t, exec (.sysrefFire) s = .next t ∧
        t.clk.burst = s.get Reg.CLK_SYSREF_PCNT.z ∧ t.out = s.out ∧ t.regs = s.regs)

/-- With no transition under way, SLEEP leaves Watch or Full, KEEP leaves Sleep, WATCH and FULL leave Sleep unless the mode is refused, and FULL in Watch is a wake; during a transition a command is held with EV049, but FULL between Full and Watch is a wake request (log 47). A transition with nothing left to wait for takes effect with EV048. The governor slot counts what it defers; an island that has risen is up; a governor check becomes an urgent request. A supply that changes is reported by EV052; a low one forces Sleep. A thermal reading, the thermal trip, and housekeeping conversions do what their rules say. -/
def Obligations.PowerCommandsComplete : Prop :=
  (∀ (s : State),
      s.pwr.trans = none →
      s.ordering = false →
      s.get Reg.PWR_STAT_MODE.z = 4 →
      ∃ t, exec (.pwrSleep) s = .next t ∧
        t.pwr.trans = some ⟨2, none⟩ ∧ t.on Reg.PWR_STAT_TRANS.z = true ∧ t.pwr.rises = [] ∧ t.get Reg.PWR_STAT_MODE.z = 4 ∧ t.mem = s.mem) ∧
  (∀ (s : State),
      s.pwr.trans = none →
      s.ordering = false →
      s.get Reg.PWR_STAT_MODE.z = 2 →
      s.modeRefused = false →
      ∃ t, exec (.pwrWatch) s = .next t ∧
        t.pwr.trans = some ⟨3, none⟩ ∧ t.on Reg.PWR_STAT_TRANS.z = true ∧ t.get Reg.PWR_STAT_MODE.z = 2 ∧ t.mem = s.mem) ∧
  (∀ (s : State),
      s.pwr.trans = none →
      s.ordering = false →
      s.get Reg.PWR_STAT_MODE.z = 2 →
      s.modeRefused = false →
      ∃ t, exec (.pwrFull) s = .next t ∧
        t.pwr.trans = some ⟨4, none⟩ ∧ t.on Reg.PWR_STAT_TRANS.z = true ∧ t.get Reg.PWR_STAT_MODE.z = 2 ∧ t.mem = s.mem) ∧
  (∀ (s : State),
      s.pwr.trans = none →
      s.ordering = false →
      s.get Reg.PWR_STAT_MODE.z = 2 →
      s.modeRefused = true →
      ∃ t, exec (.pwrWatch) s = .next t ∧
        t.on Reg.PWR_STAT_REFUSED.z = true ∧ t.on (evPend 49) = true ∧ t.pwr = s.pwr) ∧
  (∀ (s : State),
      s.pwr.trans = none →
      s.ordering = false →
      s.get Reg.PWR_STAT_MODE.z = 2 →
      s.modeRefused = true →
      ∃ t, exec (.pwrFull) s = .next t ∧
        t.on Reg.PWR_STAT_REFUSED.z = true ∧ t.on (evPend 49) = true ∧ t.pwr = s.pwr) ∧
  (∀ (s : State),
      s.pwr.trans = none →
      s.ordering = false →
      s.get Reg.PWR_STAT_MODE.z = 2 →
      ∃ t, exec (.pwrKeep) s = .next t ∧
        t.pwr.trans = some ⟨1, none⟩ ∧ t.on Reg.PWR_STAT_TRANS.z = true ∧ t.get Reg.PWR_STAT_MODE.z = 2 ∧ t.mem = s.mem) ∧
  (∀ (s : State),
      s.pwr.trans ≠ none →
      s.ordering = false →
      ∀ p ∈ ([(.pwrSleep, 1), (.pwrWatch, 2), (.pwrKeep, 4)] : List (Instr × Nat)),
        exec p.1 s = .next (({ s with pwr := { s.pwr with held := some p.2 } }.flag Reg.PWR_STAT_HELD.z true).ev 49)) ∧
  (∀ (s : State) (x : Transition),
      s.pwr.trans = some x →
      s.ordering = false →
      ((x.target = 3 ∧ s.get Reg.PWR_STAT_MODE.z = 4) ∨ (x.target = 4 ∧ s.get Reg.PWR_STAT_MODE.z = 3)) →
      exec .pwrFull s = exec (.wakeRequest 2) s) ∧
  (∀ (s : State) (x : Transition),
      s.pwr.trans = some x →
      s.ordering = false →
      ¬((x.target = 3 ∧ s.get Reg.PWR_STAT_MODE.z = 4) ∨ (x.target = 4 ∧ s.get Reg.PWR_STAT_MODE.z = 3)) →
      exec .pwrFull s = .next (({ s with pwr := { s.pwr with held := some 3 } }.flag Reg.PWR_STAT_HELD.z true).ev 49)) ∧
  (∀ (s : State) (k : Nat),
      s.pwr.trans = none →
      s.paired = false →
      s.get Reg.PWR_STAT_MODE.z = 3 →
      s.modeRefused = false →
      0 < k →
      k < 4 →
      ∃ t, exec (.wakeRequest k) s = .next t ∧
        t.pwr.trans = some ⟨4, none⟩ ∧ t.get Reg.PWR_STAT_WAKESRC.z = k ∧ t.on (evPend 50) = true) ∧
  (∀ (s : State) (x : Transition),
      s.pwr.trans = some x →
      x.target = 3 →
      s.get Reg.PWR_STAT_MODE.z = 2 →
      s.pwr.held = none →
      ∃ t, exec (.modeTransitionDone) s = .next t ∧
        t.get Reg.PWR_STAT_MODE.z = 3 ∧ t.pwr.trans = none ∧ t.on Reg.PWR_STAT_TRANS.z = false ∧ t.on (evPend 48) = true) ∧
  (∀ (s : State),
      s.pwr.trans = none →
      s.pwr.rises = [] →
      s.pwr.falls = [] →
      ∃ t, exec (.governorSlot) s = .next t ∧
        t.get Reg.PWR_GOVSTAT_QLEN.z = 0 ∧ t.pwr.holdNext = false ∧ t.pwr.up = s.pwr.up ∧ t.mem = s.mem) ∧
  (∀ (s : State) (i : Nat),
      9 ≤ i →
      i < 47 →
      s.pwr.trans = none →
      s.pwr.rising.contains i = true →
      ∃ t, exec (.islandUsable i) s = .next t ∧
        t.pwr.up = s.pwr.up ++ [i] ∧ t.pwr.rising.contains i = false ∧ t.regs = s.regs ∧ t.mem = s.mem) ∧
  (∀ (s : State),
      s.pwr.checkDue = true →
      ∃ t, exec (.governorCheck) s = .next t ∧
        t.pwr.checkDue = false ∧ t.mem = s.mem) ∧
  (∀ (s : State) (i : Nat) (g x : Bool),
      2 < i →
      i < 7 →
      s.alive = true →
      s.pwr.cause ≠ 2 →
      s.on { Reg.PWR_STAT_SUPGOOD.z with lo := i, w := 1 } ≠ g →
      ∃ t, exec (.supplyGoodChange i g x) s = .next t ∧
        t.on { Reg.PWR_STAT_SUPGOOD.z with lo := i, w := 1 } = g ∧ t.on (evPend 52) = true ∧ t.pwr = s.pwr) ∧
  (∀ (s : State) (i : Nat),
      3 ≤ i →
      i ≤ 6 →
      s.runs = true →
      ∃ t, exec (.supplyUndervoltage i) s = .next t ∧
        t.pwr.trans = some ⟨2, none⟩ ∧ t.pwr.up = [] ∧ t.get Reg.PWR_STAT_CAUSE.z = 2 ∧ t.on (evPend 51) = true) ∧
  (∀ (s : State),
      s.sec.supply = true →
      s.get Reg.PWR_STAT_SUPGOOD.z % 8 = 7 →
      s.sec.pin = false →
      s.sec.wait = false →
      s.pwr.tripHold = false →
      ∃ t, exec (.resetRelease) s = .next t ∧
        t.sec.supply = false ∧ t.sec.step = some 0 ∧ t.get Reg.PWR_STAT_MODE.z = 2 ∧ t.mem = s.mem) ∧
  (∀ (s : State),
      s.alive = true →
      s.pwr.sensors = [] →
      s.ceilHeld = false →
      exec (.thermalEvaluation []) s = .next (s)) ∧
  (∀ (s : State) (k : Nat) (r : Int),
      k < 20 →
      s.alive = true →
      s.ceilHeld = false →
      s.pwr.sensors = [] →
      s.on (Reg.THM_S_FAIL.e k) = false →
      -640 ≤ r ∧ r ≤ 2400 →
      ∃ t, exec (.thermalEvaluation [(k, r)]) s = .next t ∧
        t.getI Reg.THM_STAT_TJ.z = r ∧ t.get Reg.THM_STAT_HOT.z = k ∧ t.getI (Reg.THM_S_T.e k) = r) ∧
  (∀ (s : State),
      s.alive = true →
      exec (.thermtrip) s = .next ({ s with pwr := { s.pwr with tripHold := true } }.dieReset 3)) ∧
  (∀ (s : State) (k e raw : Nat),
      k < 2 →
      e < 16 →
      s.on (if k = 0 then Reg.HK_CTRL_EN0.z else Reg.HK_CTRL_EN1.z) = true →
      s.on (Reg.HK_SEQ_EN.e2 k e) = true →
      s.monitoring k = false →
      s.on (Reg.HK_SEQ_SIM.e2 0 e) = false →
      ∃ t, exec (.hkEntryDone k e 0 raw) s = .next t ∧
        t.get (Reg.HK_RES_RES.e2 k e) = hkConv (s.hkTrims k) raw (2 ^ s.get (Reg.HK_SEQ_AVGLOG.e2 k e)) % 65536 ∧ t.mem = s.mem) ∧
  (∀ (s : State) (conv ch : Nat),
      conv < 3 →
      ch < 18 →
      exec (.hkUrg conv ch) s = .next ((s.urgent conv ch false).1)) ∧
  (∀ (s : State) (k raw : Nat) (u : Urgent) (l : List Urgent),
      k < 2 →
      s.urgQueue k = u :: l →
      u.num < 256 →
      u.governor = false →
      ∃ t, exec (.hkUrgentConversion k raw) s = .next t ∧
        t.urgQueue k = l ∧ t.get Reg.HK_URGRES_NUM.z = u.num ∧ t.get Reg.HK_URGRES_CONV.z = k ∧ t.get Reg.HK_URGRES_RES.z = hkConv (s.getI (Reg.HK_TRIM_OFS.e k), s.getI (Reg.HK_TRIM_GAIN.e k)) raw 1 % 65536 ∧ t.on (evPend 62) = true)

/-- A start step without failure is counted and the next one is due; step 12 ends the start with EV080. RESET_N, a restart after STEPFAIL, the watchdog and SEC_RESET reset the engine. Permitted lifecycle, fuse and flash commands of an idle security block make it BUSY; while BUSY each is a bad access. A finished burn ends with its event, a flash command with EV092. A tile's bank is verified. The debug port's CHAL, RESP, DBGEND and scan instructions act on an accessible port; a lockout ends. -/
def Obligations.StartAndSecurityCommandsComplete : Prop :=
  (∀ (s : State) (c m : Nat),
      s.alive = true →
      s.sec.step = some 0 →
      s.suppliesLow = false →
      s.get (stepConsec 0) = 0 →
      s.sec.keepOk = false →
      ∃ t, exec (.startStepDone c m []) s = .next t ∧
        t.sec.step = some 1 ∧ t.get (stepAttempts 0) = satAdd (stepAttempts 0).w (s.get (stepAttempts 0)) 1 ∧ t.get (Reg.SEC_STEP_LASTPOL.e 0) = 0 ∧ t.mem = s.mem) ∧
  (∀ (s : State) (c m : Nat),
      s.alive = true →
      s.sec.step = some 12 →
      s.get (stepConsec 12) = 0 →
      s.sec.keepOk = false →
      s.get Reg.PWR_CFG_BOOTMODE.z = 0 →
      ∃ t, exec (.startStepDone c m []) s = .next t ∧
        t.sec.step = none ∧ t.on (evPend 80) = true) ∧
  (∀ (s : State),
      bit (s.get Reg.PWR_STAT_SUPGOOD.z) 7 = true →
      s.pwr.tripHold = true ∨ s.sec.supply = true →
      exec (.resetNAssert) s = .next ({ s with sec := { s.sec with pin := true } })) ∧
  (∀ (s : State),
      bit (s.get Reg.PWR_STAT_SUPGOOD.z) 7 = true →
      s.pwr.tripHold = false →
      s.sec.supply = false →
      exec (.resetNAssert) s = .next ({ s with sec := { s.sec with pin := true } }.dieReset 2)) ∧
  (∀ (s : State),
      s.sec.pin = true →
      s.sec.supply = false →
      s.sec.wait = false →
      ∃ t, exec (.resetNDeassert) s = .next t ∧
        t.sec.pin = false ∧ t.sec.step = some 0 ∧ t.get Reg.PWR_STAT_MODE.z = 2 ∧ t.mem = s.mem) ∧
  (∀ (s : State),
      s.sec.wait = true →
      s.sec.pin = false →
      s.sec.supply = false →
      s.pwr.tripHold = false →
      ∃ t, exec (.stepfailRestart) s = .next t ∧
        t.sec.wait = false ∧ t.sec.step = some 0 ∧ t.get Reg.PWR_STAT_MODE.z = 2 ∧ t.mem = s.mem) ∧
  (∀ (s : State),
      s.alive = true →
      s.sec.step = none →
      s.sec.image ≠ none →
      s.get Reg.SEC_WDT_TMO.z ≠ 0 →
      exec (.watchdogExpiry) s = .next (s.dieReset 5)) ∧
  (∀ (s : State),
      s.on Reg.SEC_STAT_BUSY.z = false →
      s.on Reg.SEC_STAT_SAFE.z = false →
      exec (.secReset) s = .next (s.dieReset 4)) ∧
  (∀ (s : State),
      s.on Reg.SEC_STAT_BUSY.z = false →
      s.get Reg.SEC_STAT_LC.z = 0 →
      ∃ t, exec (.secProvision) s = .next t ∧
        t.on Reg.SEC_STAT_BUSY.z = true ∧ (t.sec.burn.map (·.lc)) = some (max s.sec.voted.lc 1) ∧ t.sec.burnLc = true ∧ t.mem = s.mem) ∧
  (∀ (s : State),
      s.on Reg.SEC_STAT_BUSY.z = false →
      s.get Reg.SEC_STAT_LC.z = 0 →
      leAt (s.octets Reg.SEC_TOKEN_DATA 0 100) 0 1 = 3 →
      leAt (s.octets Reg.SEC_TOKEN_DATA 0 100) 1 3 = 0 →
      ∃ t, exec (.lcreq) s = .next t ∧
        t.on Reg.SEC_STAT_BUSY.z = true ∧ (t.sec.burn.map (·.lc)) = some (max s.sec.voted.lc 3) ∧ t.mem = s.mem) ∧
  (∀ (s : State) (v : Nat),
      s.on Reg.SEC_STAT_BUSY.z = false →
      signed (s.get Reg.SEC_STAT_LC.z) = true →
      s.get Reg.SEC_ARG_ARG.z = v →
      svnOf s.sec.voted ≤ v →
      v < 64 →
      ∃ t, exec (.svnburn true) s = .next t ∧
        t.on Reg.SEC_STAT_BUSY.z = true ∧ (t.sec.burn.map (·.svn)) = some (2 ^ v - 1) ∧ t.mem = s.mem) ∧
  (∀ (s : State) (v : Nat),
      s.on Reg.SEC_STAT_BUSY.z = false →
      signed (s.get Reg.SEC_STAT_LC.z) = true →
      s.get Reg.SEC_ARG_ARG.z = v →
      v < 7 →
      s.sec.image = none →
      ∃ t, exec (.secRevoke true) s = .next t ∧
        t.on Reg.SEC_STAT_BUSY.z = true ∧ (t.sec.burn.map (·.revoked)) = some (s.sec.voted.revoked ||| 2 ^ v) ∧ t.mem = s.mem) ∧
  (∀ (s : State) (f : Fuses),
      s.sec.burn = some f →
      ∃ t, exec (.fuseBurnDone) s = .next t ∧
        t.on Reg.SEC_STAT_BUSY.z = false ∧ t.get Reg.SEC_STAT_CMDST.z = 0 ∧ t.on (evPend (if s.sec.burnLc then 90 else 91)) = true ∧ t.mem = s.mem) ∧
  (∀ (s : State) (a : Nat),
      s.on Reg.SEC_STAT_BUSY.z = false →
      s.get Reg.SEC_FLADDR_ADDR.z = a →
      ∃ t, exec (.flashRead) s = .next t ∧
        t.on Reg.SEC_STAT_BUSY.z = true ∧ t.sec.flashOp = some ⟨1, a⟩ ∧ t.mem = s.mem) ∧
  (∀ (s : State) (a : Nat),
      s.on Reg.SEC_STAT_BUSY.z = false →
      s.get Reg.SEC_FLADDR_ADDR.z = a →
      a % 256 = 0 →
      s.sec.image = none →
      ∃ t, exec (.flashProgram) s = .next t ∧
        t.on Reg.SEC_STAT_BUSY.z = true ∧ t.sec.flashOp = some ⟨2, a⟩ ∧ t.mem = s.mem) ∧
  (∀ (s : State) (a : Nat),
      s.on Reg.SEC_STAT_BUSY.z = false →
      s.get Reg.SEC_FLADDR_ADDR.z = a →
      a % 65536 = 0 →
      s.sec.image = none →
      ∃ t, exec (.flashErase) s = .next t ∧
        t.on Reg.SEC_STAT_BUSY.z = true ∧ t.sec.flashOp = some ⟨3, a⟩ ∧ t.mem = s.mem) ∧
  (∀ (s : State) (a : Nat),
      s.sec.flashOp = some ⟨2, a⟩ →
      ∃ t, exec (.flashDone) s = .next t ∧
        t.on Reg.SEC_STAT_BUSY.z = false ∧ t.sec.flashOp = none ∧ t.on (evPend 92) = true ∧ t.mem = s.mem ∧
        t.sec.flash = ((s.octets Reg.SEC_FLBUF_DATA 0 256).zip (upto 256)).foldl (fun m x => tset (fun _ => 0xFF) m (a + x.2) x.1) s.sec.flash) ∧
  (∀ (s : State) (n : Nat),
      s.on Reg.SEC_STAT_BUSY.z = false →
      n < 64 →
      ∃ t, exec (.tileVerify n) s = .next t ∧
        t.sec.verify = some n ∧ t.get Reg.SEC_STAT_TVST.z = 1 ∧ t.on Reg.SEC_STAT_BUSY.z = true ∧ t.mem = s.mem) ∧
  (∀ (s : State) (n : Nat),
      n < 64 →
      s.sec.verify = some n →
      ∃ t, exec (.tileVerifyDone) s = .next t ∧
        t.sec.verify = none ∧ t.get Reg.SEC_STAT_TVST.z = s.verifyStatus n % 2 ^ Reg.SEC_STAT_TVST.w ∧ t.on Reg.SEC_STAT_BUSY.z = false ∧ t.on (evPend 89) = true) ∧
  (∀ (s : State),
      s.on Reg.SEC_STAT_BUSY.z = true →
      ∀ c ∈ ([.secReset, .secProvision, .lcreq, .svnburn true, .secRevoke true, .flashRead, .flashProgram, .flashErase, .tileVerify 0] : List Instr),
        exec c s = .next (s.bad .security)) ∧
  (∀ (s : State),
      s.tap = true →
      ∃ t, exec (.dbgChal) s = .next t ∧
        t.out.length = s.out.length + 1 ∧ t.sec.extest = false ∧ t.regs = s.regs ∧ t.freeCount = s.freeCount + 1) ∧
  (∀ (s : State) (l : Nat) (g : List Byte),
      s.tap = true →
      s.on Reg.SEC_STAT_LOCKOUT.z = false →
      0 < l →
      l < 3 →
      signed (s.get Reg.SEC_STAT_LC.z) = false →
      s.get Reg.SEC_STAT_LC.z ≠ 2 →
      s.get Reg.SEC_STAT_DBG.z ≠ l →
      ∃ t, exec (.dbgResp l g) s = .next t ∧
        t.get Reg.SEC_STAT_DBG.z = l ∧ t.sec.refusals = 0 ∧ t.on (evPend 85) = true ∧ t.mem = s.mem) ∧
  (∀ (s : State) (g : List Byte),
      s.tap = true →
      s.on Reg.SEC_STAT_LOCKOUT.z = false →
      ∃ t, exec (.dbgResp 3 g) s = .next t ∧
        t.get Reg.SEC_STAT_DBG.z = s.get Reg.SEC_STAT_DBG.z ∧ t.sec.refusals = s.sec.refusals + 1 ∧ t.on (evPend 87) = true ∧
        (2 ≤ s.sec.refusals → t.on Reg.SEC_STAT_LOCKOUT.z = true)) ∧
  (∀ (s : State),
      s.tap = true →
      s.get Reg.SEC_STAT_DBG.z ≠ 0 →
      ∃ t, exec (.dbgend) s = .next t ∧
        t.get Reg.SEC_STAT_DBG.z = 0 ∧ t.sec.extest = false ∧ t.on (evPend 86) = true) ∧
  (∀ (s : State) (c : List Bool),
      s.scanOk = true →
      ∃ t, exec (.extest c) s = .next t ∧
        t.sec.extest = true ∧ t.sec.cells = scanCells c ∧ t.regs = s.regs ∧ t.mem = s.mem) ∧
  (∀ (s : State) (p c : List Bool),
      s.scanOk = true →
      ∃ t, exec (.samplePreload p c) s = .next t ∧
        t.sec.extest = false ∧ t.sec.cells = scanCells c ∧ t.out = .scan (scanCells p) :: s.out ∧ t.regs = s.regs) ∧
  (∀ (s : State), ∃ t, exec (.respLockoutEnd) s = .next t ∧
        t.on Reg.SEC_STAT_LOCKOUT.z = false ∧ t.sec = s.sec ∧ t.mem = s.mem)

/-- A cell comes only while the link is UP; one whose CRC fails is discarded and counted; outside a pair the rest mean nothing. A class 2 cell that is not the next one is not delivered but acknowledged, as a delivered one is, and a class 0 cell is taken once. In order, each cell has its effect: HEARTBEAT and JOIN move the pair on, SYNC gives θ, ORDER, SENT, EPOCH, STEP and INDEX keep the standby's record series, CREQ and CRESP carry the admission, MODE and WAKE the power commands, FIREA, FIREB, ARM and RELEASE the triggers, ACK the class 2 window. -/
def Obligations.PairCellsComplete : Prop :=
  (∀ (s : State) (a b c d e f : Nat) (x y ok : Bool) (l : List Byte),
      s.linkUp = false →
      ∀ i ∈ ([.dzHeartbeat ok a b c d e f x, .dzSync ok a b c d e, .dzFireA ok a b c d e f, .dzFireB ok a l,
        .dzArm ok a c d e, .dzRelease ok a c d, .dzWake ok a b, .dzOrder ok a b x d e f, .dzSent ok a b c,
        .dzEpoch ok a b c d, .dzStep ok a b c, .dzIndex ok a b c, .dzCreq ok a x y d e f, .dzCresp ok a b c d,
        .dzMode ok a b, .dzJoin ok a b c d e l, .dzSwitchCell ok a b, .dzLeaveCell ok a, .dzAck ok a] : List Instr),
        exec i s = .next s) ∧
  (∀ (s : State) (a b c d e f : Nat) (x y : Bool) (l : List Byte),
      s.linkUp = true →
      s.inPair = false →
      ∀ i ∈ ([.dzHeartbeat true a b c d e f x, .dzSync true a b c d e, .dzFireA true a b c d e f, .dzFireB true a l,
        .dzArm true a c d e, .dzRelease true a c d, .dzWake true a b, .dzOrder true a b x d e f, .dzSent true a b c,
        .dzEpoch true a b c d, .dzStep true a b c, .dzIndex true a b c, .dzCreq true a x y d e f, .dzCresp true a b c d,
        .dzMode true a b, .dzJoin true a b c d e l, .dzSwitchCell true a b, .dzLeaveCell true a, .dzAck true a] : List Instr),
        exec i s = .next s) ∧
  (∀ (s : State) (a b c d e f : Nat) (x y : Bool) (l : List Byte),
      s.linkUp = true →
      ∀ i ∈ ([.dzHeartbeat false a b c d e f x, .dzSync false a b c d e, .dzFireA false a b c d e f, .dzFireB false a l,
        .dzArm false a c d e, .dzRelease false a c d, .dzWake false a b, .dzOrder false a b x d e f, .dzSent false a b c,
        .dzEpoch false a b c d, .dzStep false a b c, .dzIndex false a b c, .dzCreq false a x y d e f, .dzCresp false a b c d,
        .dzMode false a b, .dzJoin false a b c d e l, .dzSwitchCell false a b, .dzLeaveCell false a, .dzAck false a] : List Instr),
        exec i s = .next (s.count Reg.DZ_CRCERR_COUNT.z 1)) ∧
  (∀ (s : State) (a b c d e f : Nat) (x y : Bool),
      s.linkUp = true →
      s.inPair = true →
      a ≠ s.pair.rxNext →
      ∀ i ∈ ([.dzOrder true a b x d e f, .dzSent true a b c, .dzEpoch true a b c d, .dzStep true a b c, .dzIndex true a b c,
        .dzCreq true a x y d e f, .dzCresp true a b c d, .dzMode true a b, .dzSwitchCell true a b, .dzLeaveCell true a] : List Instr),
        exec i s = .next s.sendAck) ∧
  (∀ (s : State) (a b c d e f : Nat) (l : List Byte),
      s.linkUp = true →
      s.inPair = true →
      s.pair.seen.contains a = true →
      ∀ i ∈ ([.dzFireA true a b c d e f, .dzFireB true a l, .dzArm true a b c d, .dzRelease true a b c, .dzWake true a b] : List Instr),
        exec i s = .next s) ∧
  (∀ (s : State) (role mode pcnt gen ack : Nat),
      s.linkUp = true →
      s.inPair = true →
      dzState s = 2 →
      dzRole s = 1 →
      s.pair.settled = true →
      ∃ t, exec (.dzHeartbeat true role 3 mode pcnt gen ack false) s = .next t ∧
        dzState t = 3 ∧ t.pair.pmode = mode ∧ t.pair.pcount = pcnt ∧ t.on (evPend 96) = true) ∧
  (∀ (s : State) (role pstate mode pcnt gen ack : Nat),
      s.linkUp = true →
      s.inPair = true →
      dzState s = 1 →
      ∃ t, exec (.dzHeartbeat true role pstate mode pcnt gen ack false) s = .next t ∧
        dzState t = 2 ∧ t.pair.heard = true ∧ t.pair.settled = false ∧ t.on (evPend 96) = true) ∧
  (∀ (s : State) (m role pcnt digest gen : Nat) (serial : List Byte),
      s.linkUp = true →
      s.inPair = true →
      dzState s = 2 →
      dzRole s = 1 →
      s.pair.settled = false →
      role = 2 →
      ∃ t, exec (.dzJoin true m role pcnt digest gen serial) s = .next t ∧
        dzRole t = 1 ∧ t.pair.settled = true ∧ t.pair.pcount = pcnt ∧ t.get Reg.DZ_STAT_PROLE.z = 2 ∧ t.pair.rxNext = (m + 1) % 65536) ∧
  (∀ (s : State) (m pcnt digest gen : Nat) (serial : List Byte),
      s.linkUp = true →
      s.inPair = true →
      dzState s = 2 →
      dzRole s = 2 →
      s.pair.settled = false →
      pcnt < 2 ^ 32 →
      ∃ t, exec (.dzJoin true m 1 pcnt digest gen serial) s = .next t ∧
        dzRole t = 2 ∧ t.get Reg.DZ_PCNT_PCNT.z = pcnt ∧ t.disc = 3 ∧ t.pair.shadow = true ∧ t.pair.settled = true) ∧
  (∀ (s : State) (id t1 pid pt a stamp : Nat),
      s.linkUp = true →
      s.inPair = true →
      dzRole s = 1 →
      stamp = s.quantised a % 2 ^ 80 →
      ∃ t, exec (.dzSync true id t1 pid pt a) s = .next t ∧
        t.pair.syncIn = some (id, t1, stamp) ∧ t.regs = s.regs ∧ t.mem = s.mem) ∧
  (∀ (s : State) (id t1 pid pt a stamp t3 : Nat),
      s.linkUp = true →
      s.inPair = true →
      dzRole s = 2 →
      s.disc = 3 →
      dzState s = 2 →
      s.pair.syncSent.find? (fun c => c.1 == pid) = some (pid, t3) →
      stamp = s.quantised a % 2 ^ 80 →
      ∃ t, exec (.dzSync true id t1 pid pt a) s = .next t ∧
        t.pair.syncIn = some (id, t1, stamp) ∧
        t.getI Reg.DZ_OFFSET_THETA.z = satS 32 (rnd ((stampDiff stamp t1 - stampDiff pt t3) - 2 * s.getI Reg.DZ_ASYM_ASYM.z * 2 ^ 8) 9) ∧
        t.get Reg.DZ_DELAY_DELAY.z = (satU 32 (rnd (stampDiff stamp t1 + stampDiff pt t3) 9)).toNat) ∧
  (∀ (s : State) (n st : Nat) (first : Bool) (key oseq digest : Nat),
      s.linkUp = true →
      s.inPair = true →
      n = s.pair.rxNext →
      (s.stream st).shadow = [] →
      ∃ t, exec (.dzOrder true n st first key oseq digest) s = .next t ∧
        t.pair.orders = s.pair.orders ++ [⟨st, first, key, oseq, digest⟩] ∧ t.orderLast st (key / 2 ^ 72 == 7 && s.vitaPort st) = oseq ∧ t.regs = s.regs ∧ t.mem = s.mem) ∧
  (∀ (s : State) (n st : Nat) (first : Bool) (key oseq digest : Nat) (r : ShadowRec),
      s.linkUp = true →
      s.inPair = true →
      n = s.pair.rxNext →
      (s.stream st).shadow = [r] →
      r.key = key →
      2 ^ 72 ≤ key →
      r.seq = none →
      r.held = true →
      ∃ t, exec (.dzOrder true n st first key oseq digest) s = .next t ∧
        (t.stream st).shadow = [{ r with seq := some oseq, first := first }] ∧ t.pair.orders = s.pair.orders ∧ t.mem = s.mem) ∧
  (∀ (s : State) (n st oseq : Nat),
      s.linkUp = true →
      s.inPair = true →
      n = s.pair.rxNext →
      ∃ t, exec (.dzSent true n st oseq) s = .next t ∧
        t.sentLast st (s.vitaPort st) = oseq ∧ t.regs = s.regs ∧ t.mem = s.mem ∧
        (t.stream st).shadow = (s.stream st).shadow.filter (fun r => !((r.seq.map (sentCovers oseq)).getD false))) ∧
  (∀ (s : State) (n st epoch first : Nat),
      s.linkUp = true →
      s.inPair = true →
      n = s.pair.rxNext →
      dzRole s = 2 →
      st < 4096 →
      epoch < 2 ^ 32 →
      first < 2 ^ 32 →
      ∃ t, exec (.dzEpoch true n st epoch first) s = .next t ∧
        t.get (Reg.STR_SEPOCH_EPOCH.e st) = epoch ∧ t.get (Reg.STR_SSEQ_SEQ.e st) = first ∧ t.sentLast st false = (first + 2 ^ 32 - 1) % 2 ^ 32 ∧ t.orderLast st false = t.sentLast st false ∧ t.mem = s.mem) ∧
  (∀ (s : State) (n st step : Nat),
      s.linkUp = true →
      s.inPair = true →
      n = s.pair.rxNext →
      dzRole s = 2 →
      st < 4096 →
      step < 2 ^ Reg.REC_LSTAT_STEP.w →
      ∃ t, exec (.dzStep true n st step) s = .next t ∧
        t.get (Reg.REC_LSTAT_STEP.e st) = step ∧ t.mem = s.mem) ∧
  (∀ (s : State) (n i offset : Nat),
      s.linkUp = true →
      s.inPair = true →
      n = s.pair.rxNext →
      ∃ t, exec (.dzIndex true n i offset) s = .next t ∧
        tget (fun _ => 0) t.pair.offsets i = offset % 2 ^ 48 + 1 ∧ t.regs = s.regs ∧ t.mem = s.mem) ∧
  (∀ (s : State) (n : Nat) (c a : Bool) (instant gen digest : Nat),
      s.linkUp = true →
      s.inPair = true →
      n = s.pair.rxNext →
      dzRole s = 1 →
      exec (.dzCreq true n c a instant gen digest) s = .next (({ s with pair := { s.pair with rxNext := (n + 1) % 65536 } } : State).sendAck.admRequest ⟨c, a, some instant⟩)) ∧
  (∀ (s u : State) (n : Nat) (c a : Bool) (instant gen digest : Nat),
      s.linkUp = true →
      s.inPair = true →
      n = s.pair.rxNext →
      dzRole s = 2 →
      u = ({ s with pair := { s.pair with rxNext := (n + 1) % 65536 } } : State).sendAck →
      exec (.dzCreq true n c a instant gen digest) s = .next (({ u with pair := { u.pair with creq := some (gen, instant, digest) } } : State).admRequest ⟨c, a, none⟩)) ∧
  (∀ (s : State) (n code need avail : Nat) (r : AdmRequest),
      s.linkUp = true →
      s.inPair = true →
      s.adm.request = some r →
      s.adm.partnerWait = true →
      s.adm.held = none →
      s.adm.named = [] →
      n = s.pair.rxNext →
      code ≠ 0 →
      ∃ t, exec (.dzCresp true n code need avail) s = .next t ∧
        t.adm.request = none ∧ t.adm.partnerWait = false ∧ t.get Reg.ADM_STAT_LAST.z = 3 ∧ t.get Reg.ADM_STAT_NFAIL.z = 1 ∧ t.on (evPend 508) = true ∧ t.mem = s.mem) ∧
  (∀ (s : State) (r : AdmRequest),
      s.adm.request = some r →
      s.adm.partnerWait = true →
      s.adm.held = none →
      s.adm.named = [] →
      ∃ t, exec (.crespTimeout) s = .next t ∧
        t.adm.request = none ∧ t.adm.partnerWait = false ∧ t.get Reg.ADM_STAT_LAST.z = 3 ∧ t.get Reg.ADM_STAT_NFAIL.z = 1 ∧ t.on (evPend 508) = true ∧ t.mem = s.mem) ∧
  (∀ (s : State) (n op : Nat),
      s.linkUp = true →
      s.inPair = true →
      n = s.pair.rxNext →
      dzRole s = 2 →
      exec (.dzMode true n op) s = .next (({ s with pair := { s.pair with rxNext := (n + 1) % 65536 } } : State).sendAck.powerCmd op)) ∧
  (∀ (s : State) (id src : Nat),
      s.linkUp = true →
      s.inPair = true →
      s.pair.seen.contains id = false →
      s.pwr.trans = none →
      s.get Reg.PWR_STAT_MODE.z = 3 →
      s.modeRefused = false →
      ∃ t, exec (.dzWake true id src) s = .next t ∧
        t.pwr.trans = some ⟨4, none⟩ ∧ t.get Reg.PWR_STAT_WAKESRC.z = 3 ∧ t.on (evPend 50) = true) ∧
  (∀ (s : State) (id u firing tag tq elem : Nat),
      s.linkUp = true →
      s.inPair = true →
      s.pair.seen.contains id = false →
      ∃ t, exec (.dzFireA true id u firing tag tq elem) s = .next t ∧
        t.pair.fires = s.pair.fires.filter (fun f => f.id != id) ++ [⟨id, u, firing, tag⟩] ∧ t.regs = s.regs ∧ t.mem = s.mem ∧
        ∀ v, v < 32 → s.on (Reg.TRG_UCFG_EN.e v) = true → s.get (Reg.TRG_UCFG_SRC.e v) = 11 → s.get (Reg.TRG_UELEM_ELEM.e v) = u → s.runs = true →
          (t.unit v).queue = (s.unit v).queue ++ [⟨firing, tag, tq, zeros 22 ++ u16 tq ++ u96 tag⟩]) ∧
  (∀ (s : State) (id : Nat) (body : List Byte) (f : PairFire),
      s.linkUp = true →
      s.inPair = true →
      s.pair.seen.contains id = false →
      s.pair.fires.find? (fun f => (f.id + 1) % 65536 == id) = some f →
      s.trg.held = [] →
      ∃ t, exec (.dzFireB true id body) s = .next t ∧
        t.pair.fires = s.pair.fires.filter (· ≠ f) ∧ t.regs = s.regs ∧ t.mem = s.mem) ∧
  (∀ (s : State) (id g num tag : Nat),
      s.linkUp = true →
      s.inPair = true →
      g < 8 →
      s.pair.seen.contains id = false →
      s.runs = true →
      dzRole s ≠ 1 →
      s.now < tag →
      ∃ t, exec (.dzArm true id g num tag) s = .next t ∧
        (t.group g).pend = some (tag, num) ∧ t.regs = s.regs ∧ t.mem = s.mem) ∧
  (∀ (s : State) (id g num tag : Nat),
      s.linkUp = true →
      s.inPair = true →
      g < 8 →
      s.pair.seen.contains id = false →
      s.runs = true →
      dzRole s ≠ 1 →
      tag ≤ s.now →
      ∃ t, exec (.dzArm true id g num tag) s = .next t ∧
        ∀ u ∈ s.members g, t.on (Reg.TRG_USTAT_LATEARM.e u) = true) ∧
  (∀ (s : State) (id g num : Nat),
      s.linkUp = true →
      s.inPair = true →
      g < 8 →
      s.pair.seen.contains id = false →
      (s.group g).arm = num →
      (s.group g).fired = false →
      ∃ t, exec (.dzRelease true id g num) s = .next t ∧
        (t.group g).fired = true ∧ t.mem = s.mem ∧ (∀ u ∈ s.members g, s.get (unitState u) = 1 → t.get (unitState u) = 0)) ∧
  (∀ (s : State) (id g num : Nat),
      s.linkUp = true →
      s.inPair = true →
      g < 8 →
      s.pair.seen.contains id = false →
      (s.group g).arm = num →
      (s.group g).fired = true →
      ∃ t, exec (.dzRelease true id g num) s = .next t ∧
        t.trg.held = s.trg.held.map (raceMark g num) ∧ t.trg.queue = s.trg.queue.map (raceMark g num) ∧ t.mem = s.mem) ∧
  (∀ (s : State) (ack : Nat),
      s.linkUp = true →
      s.inPair = true →
      s.pair.txWait = [] →
      ∃ t, exec (.dzAck true ack) s = .next t ∧
        t.pair.unacked = s.pair.unacked.filter (fun c => !ackedBy ack c.seq) ∧ t.regs = s.regs ∧ t.mem = s.mem)

/-- A class 2 cell that is not acknowledged is sent again and counted. HEARTBEAT and SYNC are sent while the link is UP; the primary that orders its records reports what its streams emitted; 16 intervals without a measurement lose the time lock with EV101. A missing ORDER key is counted with EV103. A partner is lost with EV098, unless the witness withholds the loss with EV107. A switchover begins, and ends with the former primary as standby and EV105. An engine leaves and rejoins. A lane that changes state raises EV100. -/
def Obligations.PairRoleCommandsComplete : Prop :=
  (∀ (s : State) (n : Nat) (c : LinkCell),
      s.linkUp = true →
      s.pair.unacked.find? (fun c => c.seq == n) = some c →
      exec (.cellRetransmit n) s = .next ((s.emit (.cell (cellBytes c.type 2 c.seq c.content))).count Reg.DZ_RETX_COUNT.z 1)) ∧
  (∀ (s : State),
      s.inPair = true →
      s.linkUp = true →
      ∃ t, exec (.heartbeatSend) s = .next t ∧
        t.pair.msgId = (s.pair.msgId + 1) % 65536 ∧ t.regs = s.regs ∧ t.mem = s.mem ∧
        t.out = .cell (cellBytes 1 1 s.pair.msgId (u8 (dzRole s) ++ u8 (dzState s) ++ u8 (s.get Reg.PWR_STAT_MODE.z) ++
          u8 (b2n s.sleepForced) ++ u32 (s.get Reg.DZ_PCNT_PCNT.z) ++ u32 (s.get Reg.ADM_GEN_GEN.z) ++ u16 s.ackNow)) :: s.out) ∧
  (∀ (s : State) (stamp : Nat),
      s.inPair = true →
      s.linkUp = true →
      s.pair.silent < 15 →
      ∃ t, exec (.syncSend stamp) s = .next t ∧
        t.pair.syncSent = (s.pair.msgId, s.quantised stamp % 2 ^ 80) :: s.pair.syncSent.take 15 ∧ t.pair.silent = s.pair.silent + 1 ∧
        t.out.length = s.out.length + 1 ∧ t.regs = s.regs ∧ t.mem = s.mem) ∧
  (∀ (s : State) (stamp : Nat),
      s.inPair = true →
      15 ≤ s.pair.silent →
      dzState s = 3 →
      s.on Reg.DZ_STAT_TLOCK.z = true →
      ∃ t, exec (.syncSend stamp) s = .next t ∧
        dzState t = 2 ∧ t.on Reg.DZ_STAT_TLOCK.z = false ∧ t.on (evPend 101) = true ∧ dzRole t = dzRole s ∧ t.mem = s.mem) ∧
  (∀ (s : State),
      s.ordering = true →
      ∃ t, exec (.sentSend) s = .next t ∧
        (∀ st, (t.stream st).emitted = false) ∧ s.out.length ≤ t.out.length ∧ t.mem = s.mem) ∧
  (∀ (s : State) (st oseq : Nat) (o : OrderCell),
      s.pair.orders.find? (fun o => o.stream == st && o.seq == oseq) = some o →
      s.get Reg.DZ_ORDMISS_COUNT.z < 2 ^ 32 - 1 →
      sentCovers (s.sentLast st (o.key / 2 ^ 72 == 7 && s.vitaPort st)) oseq = false →
      ∃ t, exec (.orderMiss st oseq) s = .next t ∧
        t.get Reg.DZ_ORDMISS_COUNT.z = s.get Reg.DZ_ORDMISS_COUNT.z + 1 ∧ (t.stream st).missing = (s.stream st).missing ++ [(oseq, s.now)] ∧ t.on (evPend 103) = true ∧
        t.pair.orders = s.pair.orders.filter (· ≠ o) ∧ t.mem = s.mem) ∧
  (∀ (s : State),
      s.inPair = true →
      dzState s = 3 →
      s.dzOn Reg.DZ_CFG_WEN = true →
      s.on Reg.DZ_STAT_WITNESS.z = false →
      ∃ t, exec (.partnerLost true) s = .next t ∧
        dzState t = 2 ∧ t.on Reg.DZ_STAT_WITNESS.z = true ∧ t.on (evPend 107) = true ∧ dzRole t = dzRole s ∧ t.mem = s.mem) ∧
  (∀ (s : State),
      s.inPair = true →
      dzState s = 3 →
      dzRole s = 1 →
      s.adm.request = none →
      ∃ t, exec (.partnerLost false) s = .next t ∧
        dzState t = 4 ∧ dzRole t = 1 ∧ t.pair.alone = true ∧ t.on (evPend 98) = true ∧ t.mem = s.mem) ∧
  (∀ (s : State),
      s.inPair = true →
      dzState s = 3 →
      dzRole s = 2 →
      s.adm.request = none →
      s.dzOn Reg.DZ_CFG_AUTOPROM = true →
      ∃ t, exec (.partnerLost false) s = .next t ∧
        dzState t = 4 ∧ dzRole t = 1 ∧ t.pair.shadow = false ∧ t.get Reg.DZ_PCNT_PCNT.z = (s.get Reg.DZ_PCNT_PCNT.z + 1) % 2 ^ 32 ∧ t.on (evPend 98) = true) ∧
  (∀ (s : State) (n : Nat),
      s.linkUp = true →
      s.inPair = true →
      dzState s = 3 →
      dzRole s = 1 →
      s.adm.request = none →
      n = s.pair.rxNext →
      ∃ t, exec (.dzLeaveCell true n) s = .next t ∧
        dzState t = 4 ∧ dzRole t = 1 ∧ t.pair.alone = true ∧ t.on (evPend 98) = true ∧ t.mem = s.mem) ∧
  (∀ (s : State),
      s.syncedPrimary = true →
      s.pair.switching = false →
      s.linkUp = true →
      s.pair.unacked.length < linkWindow →
      s.pair.txWait = [] →
      ∃ t, exec (.dzSwitch) s = .next t ∧
        t.pair.switching = true ∧ t.out = .cell (cellBytes 0x19 2 s.pair.txSeq (u8 1)) :: s.out ∧ t.regs = s.regs ∧ t.mem = s.mem) ∧
  (∀ (s : State),
      s.ordering = true →
      s.pair.switching = true →
      ∃ t, exec (.switchFinal) s = .next t ∧
        dzRole t = 2 ∧ dzState t = 2 ∧ t.get Reg.DZ_STAT_PROLE.z = 1 ∧ t.pair.shadow = true ∧ t.pair.switching = false ∧ t.get Reg.DZ_PCNT_PCNT.z = (s.get Reg.DZ_PCNT_PCNT.z + 1) % 2 ^ 32 ∧ t.on (evPend 105) = true) ∧
  (∀ (s u : State) (n : Nat),
      s.linkUp = true →
      s.inPair = true →
      n = s.pair.rxNext →
      dzRole s = 2 →
      s.pair.settled = true →
      u = ({ s with pair := { s.pair with rxNext := (n + 1) % 65536 } } : State).sendAck →
      exec (.dzSwitchCell true n 1) s = .next ({ u with pair := { u.pair with switching := true } })) ∧
  (∀ (s : State) (n : Nat),
      s.linkUp = true →
      s.inPair = true →
      n = s.pair.rxNext →
      dzRole s = 2 →
      s.pair.settled = true →
      ∃ t, exec (.dzSwitchCell true n 2) s = .next t ∧
        dzRole t = 1 ∧ t.get Reg.DZ_STAT_PROLE.z = 2 ∧ t.pair.shadow = false ∧ t.on (evPend 105) = true) ∧
  (∀ (s : State),
      s.inPair = true →
      ∃ t, exec (.dzLeave) s = .next t ∧
        t.pair.left = true ∧ dzState t = 1 ∧ t.on Reg.DZ_STAT_TLOCK.z = false) ∧
  (∀ (s : State),
      bit (s.word Reg.DZ_CFG_EN.off).toNat 31 = true →
      ∃ t, exec (.rejoin) s = .next t ∧
        dzState t = 1 ∧ t.pair.left = false ∧ t.pair.cfg = s.word Reg.DZ_CFG_EN.off) ∧
  (∀ (s : State),
      bit (s.word Reg.DZ_CFG_EN.off).toNat 31 = false →
      ∃ t, exec (.rejoin) s = .next t ∧
        dzState t = 0 ∧ t.pair.shadow = false ∧ t.pair.cfg = s.word Reg.DZ_CFG_EN.off) ∧
  (∀ (s : State) (l v : Nat),
      l < 8 →
      0 < v →
      v < 5 →
      s.linkRuns = true →
      s.get (Reg.DZ_LSTAT_STATE.e l) ≠ v →
      ∃ t, exec (.dzLinkState l v) s = .next t ∧
        t.get (Reg.DZ_LSTAT_STATE.e l) = v ∧ t.on (evPend 100) = true ∧ t.mem = s.mem ∧ dzRole t = dzRole s)

/-- In every state whose register table and memory are in canonical form (keys rise strictly, and no entry holds what an unlisted key does), a step that answers a next state leaves both in that form. -/
def Obligations.StepKeepsTheTables : Prop :=
  ∀ (s t : State),
      s.tidy →
      step s = .next t →
      t.tidy

/-- After reset the register table and memory are in canonical form, and no command waits. -/
def Obligations.ResetStateIsTidy : Prop :=
  State.reset.tidy ∧ State.reset.pending = []

/-- In every state, every command of the table answers a next state, never a fault or a refusal, and the commands that wait stay as they are. -/
def Obligations.EveryCommandCompletesAndLeavesTheQueue : Prop :=
  ∀ (c : Instr) (s : State), ∃ t, exec c s = .next t ∧ t.pending = s.pending
end

