-- ==== Sys2Proof/Laws/State.lean ====
section
/-!
SUPPORT. What each named operation leaves alone: one lemma for each field of State and each operation, true by rfl.
-/
namespace Sys2Proof.Machine

@[simp] theorem State.setWord_freeCount (s : State) (o : Nat) (v : Word) : (s.setWord o v).freeCount = s.freeCount := rfl
@[simp] theorem State.setWord_out (s : State) (o : Nat) (v : Word) : (s.setWord o v).out = s.out := rfl
@[simp] theorem State.setWord_ctl (s : State) (o : Nat) (v : Word) : (s.setWord o v).ctl = s.ctl := rfl
@[simp] theorem State.setWord_tb (s : State) (o : Nat) (v : Word) : (s.setWord o v).tb = s.tb := rfl
@[simp] theorem State.setWord_ing (s : State) (o : Nat) (v : Word) : (s.setWord o v).ing = s.ing := rfl
@[simp] theorem State.setWord_front (s : State) (o : Nat) (v : Word) : (s.setWord o v).front = s.front := rfl
@[simp] theorem State.setWord_fine (s : State) (o : Nat) (v : Word) : (s.setWord o v).fine = s.fine := rfl
@[simp] theorem State.setWord_det (s : State) (o : Nat) (v : Word) : (s.setWord o v).det = s.det := rfl
@[simp] theorem State.setWord_tun (s : State) (o : Nat) (v : Word) : (s.setWord o v).tun = s.tun := rfl
@[simp] theorem State.setWord_adm (s : State) (o : Nat) (v : Word) : (s.setWord o v).adm = s.adm := rfl
@[simp] theorem State.setWord_clk (s : State) (o : Nat) (v : Word) : (s.setWord o v).clk = s.clk := rfl
@[simp] theorem State.setWord_pwr (s : State) (o : Nat) (v : Word) : (s.setWord o v).pwr = s.pwr := rfl
@[simp] theorem State.setWord_trg (s : State) (o : Nat) (v : Word) : (s.setWord o v).trg = s.trg := rfl
@[simp] theorem State.setWord_mem (s : State) (o : Nat) (v : Word) : (s.setWord o v).mem = s.mem := rfl
@[simp] theorem State.setWord_msys (s : State) (o : Nat) (v : Word) : (s.setWord o v).msys = s.msys := rfl
@[simp] theorem State.setWord_rcd (s : State) (o : Nat) (v : Word) : (s.setWord o v).rcd = s.rcd := rfl
@[simp] theorem State.setWord_xsp (s : State) (o : Nat) (v : Word) : (s.setWord o v).xsp = s.xsp := rfl
@[simp] theorem State.setWord_tls (s : State) (o : Nat) (v : Word) : (s.setWord o v).tls = s.tls := rfl
@[simp] theorem State.setWord_dma (s : State) (o : Nat) (v : Word) : (s.setWord o v).dma = s.dma := rfl
@[simp] theorem State.setWord_str (s : State) (o : Nat) (v : Word) : (s.setWord o v).str = s.str := rfl
@[simp] theorem State.setWord_pair (s : State) (o : Nat) (v : Word) : (s.setWord o v).pair = s.pair := rfl
@[simp] theorem State.setWord_dsp (s : State) (o : Nat) (v : Word) : (s.setWord o v).dsp = s.dsp := rfl
@[simp] theorem State.setWord_stm (s : State) (o : Nat) (v : Word) : (s.setWord o v).stm = s.stm := rfl
@[simp] theorem State.setWord_sec (s : State) (o : Nat) (v : Word) : (s.setWord o v).sec = s.sec := rfl
@[simp] theorem State.setWord_closed (s : State) (o : Nat) (v : Word) : (s.setWord o v).closed = s.closed := rfl
@[simp] theorem State.setWord_pending (s : State) (o : Nat) (v : Word) : (s.setWord o v).pending = s.pending := rfl

@[simp] theorem State.put_freeCount (s : State) (l : Loc) (v : Nat) : (s.put l v).freeCount = s.freeCount := State.setWord_freeCount ..
@[simp] theorem State.put_out (s : State) (l : Loc) (v : Nat) : (s.put l v).out = s.out := State.setWord_out ..
@[simp] theorem State.put_ctl (s : State) (l : Loc) (v : Nat) : (s.put l v).ctl = s.ctl := State.setWord_ctl ..
@[simp] theorem State.put_tb (s : State) (l : Loc) (v : Nat) : (s.put l v).tb = s.tb := State.setWord_tb ..
@[simp] theorem State.put_ing (s : State) (l : Loc) (v : Nat) : (s.put l v).ing = s.ing := State.setWord_ing ..
@[simp] theorem State.put_front (s : State) (l : Loc) (v : Nat) : (s.put l v).front = s.front := State.setWord_front ..
@[simp] theorem State.put_fine (s : State) (l : Loc) (v : Nat) : (s.put l v).fine = s.fine := State.setWord_fine ..
@[simp] theorem State.put_det (s : State) (l : Loc) (v : Nat) : (s.put l v).det = s.det := State.setWord_det ..
@[simp] theorem State.put_tun (s : State) (l : Loc) (v : Nat) : (s.put l v).tun = s.tun := State.setWord_tun ..
@[simp] theorem State.put_adm (s : State) (l : Loc) (v : Nat) : (s.put l v).adm = s.adm := State.setWord_adm ..
@[simp] theorem State.put_clk (s : State) (l : Loc) (v : Nat) : (s.put l v).clk = s.clk := State.setWord_clk ..
@[simp] theorem State.put_pwr (s : State) (l : Loc) (v : Nat) : (s.put l v).pwr = s.pwr := State.setWord_pwr ..
@[simp] theorem State.put_trg (s : State) (l : Loc) (v : Nat) : (s.put l v).trg = s.trg := State.setWord_trg ..
@[simp] theorem State.put_mem (s : State) (l : Loc) (v : Nat) : (s.put l v).mem = s.mem := State.setWord_mem ..
@[simp] theorem State.put_msys (s : State) (l : Loc) (v : Nat) : (s.put l v).msys = s.msys := State.setWord_msys ..
@[simp] theorem State.put_rcd (s : State) (l : Loc) (v : Nat) : (s.put l v).rcd = s.rcd := State.setWord_rcd ..
@[simp] theorem State.put_xsp (s : State) (l : Loc) (v : Nat) : (s.put l v).xsp = s.xsp := State.setWord_xsp ..
@[simp] theorem State.put_tls (s : State) (l : Loc) (v : Nat) : (s.put l v).tls = s.tls := State.setWord_tls ..
@[simp] theorem State.put_dma (s : State) (l : Loc) (v : Nat) : (s.put l v).dma = s.dma := State.setWord_dma ..
@[simp] theorem State.put_str (s : State) (l : Loc) (v : Nat) : (s.put l v).str = s.str := State.setWord_str ..
@[simp] theorem State.put_pair (s : State) (l : Loc) (v : Nat) : (s.put l v).pair = s.pair := State.setWord_pair ..
@[simp] theorem State.put_dsp (s : State) (l : Loc) (v : Nat) : (s.put l v).dsp = s.dsp := State.setWord_dsp ..
@[simp] theorem State.put_stm (s : State) (l : Loc) (v : Nat) : (s.put l v).stm = s.stm := State.setWord_stm ..
@[simp] theorem State.put_sec (s : State) (l : Loc) (v : Nat) : (s.put l v).sec = s.sec := State.setWord_sec ..
@[simp] theorem State.put_closed (s : State) (l : Loc) (v : Nat) : (s.put l v).closed = s.closed := State.setWord_closed ..
@[simp] theorem State.put_pending (s : State) (l : Loc) (v : Nat) : (s.put l v).pending = s.pending := State.setWord_pending ..

@[simp] theorem State.putI_freeCount (s : State) (l : Loc) (v : Int) : (s.putI l v).freeCount = s.freeCount := State.put_freeCount ..
@[simp] theorem State.putI_out (s : State) (l : Loc) (v : Int) : (s.putI l v).out = s.out := State.put_out ..
@[simp] theorem State.putI_ctl (s : State) (l : Loc) (v : Int) : (s.putI l v).ctl = s.ctl := State.put_ctl ..
@[simp] theorem State.putI_tb (s : State) (l : Loc) (v : Int) : (s.putI l v).tb = s.tb := State.put_tb ..
@[simp] theorem State.putI_ing (s : State) (l : Loc) (v : Int) : (s.putI l v).ing = s.ing := State.put_ing ..
@[simp] theorem State.putI_front (s : State) (l : Loc) (v : Int) : (s.putI l v).front = s.front := State.put_front ..
@[simp] theorem State.putI_fine (s : State) (l : Loc) (v : Int) : (s.putI l v).fine = s.fine := State.put_fine ..
@[simp] theorem State.putI_det (s : State) (l : Loc) (v : Int) : (s.putI l v).det = s.det := State.put_det ..
@[simp] theorem State.putI_tun (s : State) (l : Loc) (v : Int) : (s.putI l v).tun = s.tun := State.put_tun ..
@[simp] theorem State.putI_adm (s : State) (l : Loc) (v : Int) : (s.putI l v).adm = s.adm := State.put_adm ..
@[simp] theorem State.putI_clk (s : State) (l : Loc) (v : Int) : (s.putI l v).clk = s.clk := State.put_clk ..
@[simp] theorem State.putI_pwr (s : State) (l : Loc) (v : Int) : (s.putI l v).pwr = s.pwr := State.put_pwr ..
@[simp] theorem State.putI_trg (s : State) (l : Loc) (v : Int) : (s.putI l v).trg = s.trg := State.put_trg ..
@[simp] theorem State.putI_mem (s : State) (l : Loc) (v : Int) : (s.putI l v).mem = s.mem := State.put_mem ..
@[simp] theorem State.putI_msys (s : State) (l : Loc) (v : Int) : (s.putI l v).msys = s.msys := State.put_msys ..
@[simp] theorem State.putI_rcd (s : State) (l : Loc) (v : Int) : (s.putI l v).rcd = s.rcd := State.put_rcd ..
@[simp] theorem State.putI_xsp (s : State) (l : Loc) (v : Int) : (s.putI l v).xsp = s.xsp := State.put_xsp ..
@[simp] theorem State.putI_tls (s : State) (l : Loc) (v : Int) : (s.putI l v).tls = s.tls := State.put_tls ..
@[simp] theorem State.putI_dma (s : State) (l : Loc) (v : Int) : (s.putI l v).dma = s.dma := State.put_dma ..
@[simp] theorem State.putI_str (s : State) (l : Loc) (v : Int) : (s.putI l v).str = s.str := State.put_str ..
@[simp] theorem State.putI_pair (s : State) (l : Loc) (v : Int) : (s.putI l v).pair = s.pair := State.put_pair ..
@[simp] theorem State.putI_dsp (s : State) (l : Loc) (v : Int) : (s.putI l v).dsp = s.dsp := State.put_dsp ..
@[simp] theorem State.putI_stm (s : State) (l : Loc) (v : Int) : (s.putI l v).stm = s.stm := State.put_stm ..
@[simp] theorem State.putI_sec (s : State) (l : Loc) (v : Int) : (s.putI l v).sec = s.sec := State.put_sec ..
@[simp] theorem State.putI_closed (s : State) (l : Loc) (v : Int) : (s.putI l v).closed = s.closed := State.put_closed ..
@[simp] theorem State.putI_pending (s : State) (l : Loc) (v : Int) : (s.putI l v).pending = s.pending := State.put_pending ..

@[simp] theorem State.flag_freeCount (s : State) (l : Loc) (b : Bool) : (s.flag l b).freeCount = s.freeCount := State.put_freeCount ..
@[simp] theorem State.flag_out (s : State) (l : Loc) (b : Bool) : (s.flag l b).out = s.out := State.put_out ..
@[simp] theorem State.flag_ctl (s : State) (l : Loc) (b : Bool) : (s.flag l b).ctl = s.ctl := State.put_ctl ..
@[simp] theorem State.flag_tb (s : State) (l : Loc) (b : Bool) : (s.flag l b).tb = s.tb := State.put_tb ..
@[simp] theorem State.flag_ing (s : State) (l : Loc) (b : Bool) : (s.flag l b).ing = s.ing := State.put_ing ..
@[simp] theorem State.flag_front (s : State) (l : Loc) (b : Bool) : (s.flag l b).front = s.front := State.put_front ..
@[simp] theorem State.flag_fine (s : State) (l : Loc) (b : Bool) : (s.flag l b).fine = s.fine := State.put_fine ..
@[simp] theorem State.flag_det (s : State) (l : Loc) (b : Bool) : (s.flag l b).det = s.det := State.put_det ..
@[simp] theorem State.flag_tun (s : State) (l : Loc) (b : Bool) : (s.flag l b).tun = s.tun := State.put_tun ..
@[simp] theorem State.flag_adm (s : State) (l : Loc) (b : Bool) : (s.flag l b).adm = s.adm := State.put_adm ..
@[simp] theorem State.flag_clk (s : State) (l : Loc) (b : Bool) : (s.flag l b).clk = s.clk := State.put_clk ..
@[simp] theorem State.flag_pwr (s : State) (l : Loc) (b : Bool) : (s.flag l b).pwr = s.pwr := State.put_pwr ..
@[simp] theorem State.flag_trg (s : State) (l : Loc) (b : Bool) : (s.flag l b).trg = s.trg := State.put_trg ..
@[simp] theorem State.flag_mem (s : State) (l : Loc) (b : Bool) : (s.flag l b).mem = s.mem := State.put_mem ..
@[simp] theorem State.flag_msys (s : State) (l : Loc) (b : Bool) : (s.flag l b).msys = s.msys := State.put_msys ..
@[simp] theorem State.flag_rcd (s : State) (l : Loc) (b : Bool) : (s.flag l b).rcd = s.rcd := State.put_rcd ..
@[simp] theorem State.flag_xsp (s : State) (l : Loc) (b : Bool) : (s.flag l b).xsp = s.xsp := State.put_xsp ..
@[simp] theorem State.flag_tls (s : State) (l : Loc) (b : Bool) : (s.flag l b).tls = s.tls := State.put_tls ..
@[simp] theorem State.flag_dma (s : State) (l : Loc) (b : Bool) : (s.flag l b).dma = s.dma := State.put_dma ..
@[simp] theorem State.flag_str (s : State) (l : Loc) (b : Bool) : (s.flag l b).str = s.str := State.put_str ..
@[simp] theorem State.flag_pair (s : State) (l : Loc) (b : Bool) : (s.flag l b).pair = s.pair := State.put_pair ..
@[simp] theorem State.flag_dsp (s : State) (l : Loc) (b : Bool) : (s.flag l b).dsp = s.dsp := State.put_dsp ..
@[simp] theorem State.flag_stm (s : State) (l : Loc) (b : Bool) : (s.flag l b).stm = s.stm := State.put_stm ..
@[simp] theorem State.flag_sec (s : State) (l : Loc) (b : Bool) : (s.flag l b).sec = s.sec := State.put_sec ..
@[simp] theorem State.flag_closed (s : State) (l : Loc) (b : Bool) : (s.flag l b).closed = s.closed := State.put_closed ..
@[simp] theorem State.flag_pending (s : State) (l : Loc) (b : Bool) : (s.flag l b).pending = s.pending := State.put_pending ..

@[simp] theorem State.count_freeCount (s : State) (l : Loc) (k : Nat) : (s.count l k).freeCount = s.freeCount := State.put_freeCount ..
@[simp] theorem State.count_out (s : State) (l : Loc) (k : Nat) : (s.count l k).out = s.out := State.put_out ..
@[simp] theorem State.count_ctl (s : State) (l : Loc) (k : Nat) : (s.count l k).ctl = s.ctl := State.put_ctl ..
@[simp] theorem State.count_tb (s : State) (l : Loc) (k : Nat) : (s.count l k).tb = s.tb := State.put_tb ..
@[simp] theorem State.count_ing (s : State) (l : Loc) (k : Nat) : (s.count l k).ing = s.ing := State.put_ing ..
@[simp] theorem State.count_front (s : State) (l : Loc) (k : Nat) : (s.count l k).front = s.front := State.put_front ..
@[simp] theorem State.count_fine (s : State) (l : Loc) (k : Nat) : (s.count l k).fine = s.fine := State.put_fine ..
@[simp] theorem State.count_det (s : State) (l : Loc) (k : Nat) : (s.count l k).det = s.det := State.put_det ..
@[simp] theorem State.count_tun (s : State) (l : Loc) (k : Nat) : (s.count l k).tun = s.tun := State.put_tun ..
@[simp] theorem State.count_adm (s : State) (l : Loc) (k : Nat) : (s.count l k).adm = s.adm := State.put_adm ..
@[simp] theorem State.count_clk (s : State) (l : Loc) (k : Nat) : (s.count l k).clk = s.clk := State.put_clk ..
@[simp] theorem State.count_pwr (s : State) (l : Loc) (k : Nat) : (s.count l k).pwr = s.pwr := State.put_pwr ..
@[simp] theorem State.count_trg (s : State) (l : Loc) (k : Nat) : (s.count l k).trg = s.trg := State.put_trg ..
@[simp] theorem State.count_mem (s : State) (l : Loc) (k : Nat) : (s.count l k).mem = s.mem := State.put_mem ..
@[simp] theorem State.count_msys (s : State) (l : Loc) (k : Nat) : (s.count l k).msys = s.msys := State.put_msys ..
@[simp] theorem State.count_rcd (s : State) (l : Loc) (k : Nat) : (s.count l k).rcd = s.rcd := State.put_rcd ..
@[simp] theorem State.count_xsp (s : State) (l : Loc) (k : Nat) : (s.count l k).xsp = s.xsp := State.put_xsp ..
@[simp] theorem State.count_tls (s : State) (l : Loc) (k : Nat) : (s.count l k).tls = s.tls := State.put_tls ..
@[simp] theorem State.count_dma (s : State) (l : Loc) (k : Nat) : (s.count l k).dma = s.dma := State.put_dma ..
@[simp] theorem State.count_str (s : State) (l : Loc) (k : Nat) : (s.count l k).str = s.str := State.put_str ..
@[simp] theorem State.count_pair (s : State) (l : Loc) (k : Nat) : (s.count l k).pair = s.pair := State.put_pair ..
@[simp] theorem State.count_dsp (s : State) (l : Loc) (k : Nat) : (s.count l k).dsp = s.dsp := State.put_dsp ..
@[simp] theorem State.count_stm (s : State) (l : Loc) (k : Nat) : (s.count l k).stm = s.stm := State.put_stm ..
@[simp] theorem State.count_sec (s : State) (l : Loc) (k : Nat) : (s.count l k).sec = s.sec := State.put_sec ..
@[simp] theorem State.count_closed (s : State) (l : Loc) (k : Nat) : (s.count l k).closed = s.closed := State.put_closed ..
@[simp] theorem State.count_pending (s : State) (l : Loc) (k : Nat) : (s.count l k).pending = s.pending := State.put_pending ..

@[simp] theorem State.wrap_freeCount (s : State) (l : Loc) (k : Nat) : (s.wrap l k).freeCount = s.freeCount := State.put_freeCount ..
@[simp] theorem State.wrap_out (s : State) (l : Loc) (k : Nat) : (s.wrap l k).out = s.out := State.put_out ..
@[simp] theorem State.wrap_ctl (s : State) (l : Loc) (k : Nat) : (s.wrap l k).ctl = s.ctl := State.put_ctl ..
@[simp] theorem State.wrap_tb (s : State) (l : Loc) (k : Nat) : (s.wrap l k).tb = s.tb := State.put_tb ..
@[simp] theorem State.wrap_ing (s : State) (l : Loc) (k : Nat) : (s.wrap l k).ing = s.ing := State.put_ing ..
@[simp] theorem State.wrap_front (s : State) (l : Loc) (k : Nat) : (s.wrap l k).front = s.front := State.put_front ..
@[simp] theorem State.wrap_fine (s : State) (l : Loc) (k : Nat) : (s.wrap l k).fine = s.fine := State.put_fine ..
@[simp] theorem State.wrap_det (s : State) (l : Loc) (k : Nat) : (s.wrap l k).det = s.det := State.put_det ..
@[simp] theorem State.wrap_tun (s : State) (l : Loc) (k : Nat) : (s.wrap l k).tun = s.tun := State.put_tun ..
@[simp] theorem State.wrap_adm (s : State) (l : Loc) (k : Nat) : (s.wrap l k).adm = s.adm := State.put_adm ..
@[simp] theorem State.wrap_clk (s : State) (l : Loc) (k : Nat) : (s.wrap l k).clk = s.clk := State.put_clk ..
@[simp] theorem State.wrap_pwr (s : State) (l : Loc) (k : Nat) : (s.wrap l k).pwr = s.pwr := State.put_pwr ..
@[simp] theorem State.wrap_trg (s : State) (l : Loc) (k : Nat) : (s.wrap l k).trg = s.trg := State.put_trg ..
@[simp] theorem State.wrap_mem (s : State) (l : Loc) (k : Nat) : (s.wrap l k).mem = s.mem := State.put_mem ..
@[simp] theorem State.wrap_msys (s : State) (l : Loc) (k : Nat) : (s.wrap l k).msys = s.msys := State.put_msys ..
@[simp] theorem State.wrap_rcd (s : State) (l : Loc) (k : Nat) : (s.wrap l k).rcd = s.rcd := State.put_rcd ..
@[simp] theorem State.wrap_xsp (s : State) (l : Loc) (k : Nat) : (s.wrap l k).xsp = s.xsp := State.put_xsp ..
@[simp] theorem State.wrap_tls (s : State) (l : Loc) (k : Nat) : (s.wrap l k).tls = s.tls := State.put_tls ..
@[simp] theorem State.wrap_dma (s : State) (l : Loc) (k : Nat) : (s.wrap l k).dma = s.dma := State.put_dma ..
@[simp] theorem State.wrap_str (s : State) (l : Loc) (k : Nat) : (s.wrap l k).str = s.str := State.put_str ..
@[simp] theorem State.wrap_pair (s : State) (l : Loc) (k : Nat) : (s.wrap l k).pair = s.pair := State.put_pair ..
@[simp] theorem State.wrap_dsp (s : State) (l : Loc) (k : Nat) : (s.wrap l k).dsp = s.dsp := State.put_dsp ..
@[simp] theorem State.wrap_stm (s : State) (l : Loc) (k : Nat) : (s.wrap l k).stm = s.stm := State.put_stm ..
@[simp] theorem State.wrap_sec (s : State) (l : Loc) (k : Nat) : (s.wrap l k).sec = s.sec := State.put_sec ..
@[simp] theorem State.wrap_closed (s : State) (l : Loc) (k : Nat) : (s.wrap l k).closed = s.closed := State.put_closed ..
@[simp] theorem State.wrap_pending (s : State) (l : Loc) (k : Nat) : (s.wrap l k).pending = s.pending := State.put_pending ..

@[simp] theorem State.put64_freeCount (s : State) (a b : Loc) (v : Nat) : (s.put64 a b v).freeCount = s.freeCount := (State.put_freeCount ..).trans (State.put_freeCount ..)
@[simp] theorem State.put64_out (s : State) (a b : Loc) (v : Nat) : (s.put64 a b v).out = s.out := (State.put_out ..).trans (State.put_out ..)
@[simp] theorem State.put64_ctl (s : State) (a b : Loc) (v : Nat) : (s.put64 a b v).ctl = s.ctl := (State.put_ctl ..).trans (State.put_ctl ..)
@[simp] theorem State.put64_tb (s : State) (a b : Loc) (v : Nat) : (s.put64 a b v).tb = s.tb := (State.put_tb ..).trans (State.put_tb ..)
@[simp] theorem State.put64_ing (s : State) (a b : Loc) (v : Nat) : (s.put64 a b v).ing = s.ing := (State.put_ing ..).trans (State.put_ing ..)
@[simp] theorem State.put64_front (s : State) (a b : Loc) (v : Nat) : (s.put64 a b v).front = s.front := (State.put_front ..).trans (State.put_front ..)
@[simp] theorem State.put64_fine (s : State) (a b : Loc) (v : Nat) : (s.put64 a b v).fine = s.fine := (State.put_fine ..).trans (State.put_fine ..)
@[simp] theorem State.put64_det (s : State) (a b : Loc) (v : Nat) : (s.put64 a b v).det = s.det := (State.put_det ..).trans (State.put_det ..)
@[simp] theorem State.put64_tun (s : State) (a b : Loc) (v : Nat) : (s.put64 a b v).tun = s.tun := (State.put_tun ..).trans (State.put_tun ..)
@[simp] theorem State.put64_adm (s : State) (a b : Loc) (v : Nat) : (s.put64 a b v).adm = s.adm := (State.put_adm ..).trans (State.put_adm ..)
@[simp] theorem State.put64_clk (s : State) (a b : Loc) (v : Nat) : (s.put64 a b v).clk = s.clk := (State.put_clk ..).trans (State.put_clk ..)
@[simp] theorem State.put64_pwr (s : State) (a b : Loc) (v : Nat) : (s.put64 a b v).pwr = s.pwr := (State.put_pwr ..).trans (State.put_pwr ..)
@[simp] theorem State.put64_trg (s : State) (a b : Loc) (v : Nat) : (s.put64 a b v).trg = s.trg := (State.put_trg ..).trans (State.put_trg ..)
@[simp] theorem State.put64_mem (s : State) (a b : Loc) (v : Nat) : (s.put64 a b v).mem = s.mem := (State.put_mem ..).trans (State.put_mem ..)
@[simp] theorem State.put64_msys (s : State) (a b : Loc) (v : Nat) : (s.put64 a b v).msys = s.msys := (State.put_msys ..).trans (State.put_msys ..)
@[simp] theorem State.put64_rcd (s : State) (a b : Loc) (v : Nat) : (s.put64 a b v).rcd = s.rcd := (State.put_rcd ..).trans (State.put_rcd ..)
@[simp] theorem State.put64_xsp (s : State) (a b : Loc) (v : Nat) : (s.put64 a b v).xsp = s.xsp := (State.put_xsp ..).trans (State.put_xsp ..)
@[simp] theorem State.put64_tls (s : State) (a b : Loc) (v : Nat) : (s.put64 a b v).tls = s.tls := (State.put_tls ..).trans (State.put_tls ..)
@[simp] theorem State.put64_dma (s : State) (a b : Loc) (v : Nat) : (s.put64 a b v).dma = s.dma := (State.put_dma ..).trans (State.put_dma ..)
@[simp] theorem State.put64_str (s : State) (a b : Loc) (v : Nat) : (s.put64 a b v).str = s.str := (State.put_str ..).trans (State.put_str ..)
@[simp] theorem State.put64_pair (s : State) (a b : Loc) (v : Nat) : (s.put64 a b v).pair = s.pair := (State.put_pair ..).trans (State.put_pair ..)
@[simp] theorem State.put64_dsp (s : State) (a b : Loc) (v : Nat) : (s.put64 a b v).dsp = s.dsp := (State.put_dsp ..).trans (State.put_dsp ..)
@[simp] theorem State.put64_stm (s : State) (a b : Loc) (v : Nat) : (s.put64 a b v).stm = s.stm := (State.put_stm ..).trans (State.put_stm ..)
@[simp] theorem State.put64_sec (s : State) (a b : Loc) (v : Nat) : (s.put64 a b v).sec = s.sec := (State.put_sec ..).trans (State.put_sec ..)
@[simp] theorem State.put64_closed (s : State) (a b : Loc) (v : Nat) : (s.put64 a b v).closed = s.closed := (State.put_closed ..).trans (State.put_closed ..)
@[simp] theorem State.put64_pending (s : State) (a b : Loc) (v : Nat) : (s.put64 a b v).pending = s.pending := (State.put_pending ..).trans (State.put_pending ..)

@[simp] theorem State.put96_freeCount (s : State) (a b c : Loc) (v : Nat) : (s.put96 a b c v).freeCount = s.freeCount := (State.put_freeCount ..).trans ((State.put_freeCount ..).trans (State.put_freeCount ..))
@[simp] theorem State.put96_out (s : State) (a b c : Loc) (v : Nat) : (s.put96 a b c v).out = s.out := (State.put_out ..).trans ((State.put_out ..).trans (State.put_out ..))
@[simp] theorem State.put96_ctl (s : State) (a b c : Loc) (v : Nat) : (s.put96 a b c v).ctl = s.ctl := (State.put_ctl ..).trans ((State.put_ctl ..).trans (State.put_ctl ..))
@[simp] theorem State.put96_tb (s : State) (a b c : Loc) (v : Nat) : (s.put96 a b c v).tb = s.tb := (State.put_tb ..).trans ((State.put_tb ..).trans (State.put_tb ..))
@[simp] theorem State.put96_ing (s : State) (a b c : Loc) (v : Nat) : (s.put96 a b c v).ing = s.ing := (State.put_ing ..).trans ((State.put_ing ..).trans (State.put_ing ..))
@[simp] theorem State.put96_front (s : State) (a b c : Loc) (v : Nat) : (s.put96 a b c v).front = s.front := (State.put_front ..).trans ((State.put_front ..).trans (State.put_front ..))
@[simp] theorem State.put96_fine (s : State) (a b c : Loc) (v : Nat) : (s.put96 a b c v).fine = s.fine := (State.put_fine ..).trans ((State.put_fine ..).trans (State.put_fine ..))
@[simp] theorem State.put96_det (s : State) (a b c : Loc) (v : Nat) : (s.put96 a b c v).det = s.det := (State.put_det ..).trans ((State.put_det ..).trans (State.put_det ..))
@[simp] theorem State.put96_tun (s : State) (a b c : Loc) (v : Nat) : (s.put96 a b c v).tun = s.tun := (State.put_tun ..).trans ((State.put_tun ..).trans (State.put_tun ..))
@[simp] theorem State.put96_adm (s : State) (a b c : Loc) (v : Nat) : (s.put96 a b c v).adm = s.adm := (State.put_adm ..).trans ((State.put_adm ..).trans (State.put_adm ..))
@[simp] theorem State.put96_clk (s : State) (a b c : Loc) (v : Nat) : (s.put96 a b c v).clk = s.clk := (State.put_clk ..).trans ((State.put_clk ..).trans (State.put_clk ..))
@[simp] theorem State.put96_pwr (s : State) (a b c : Loc) (v : Nat) : (s.put96 a b c v).pwr = s.pwr := (State.put_pwr ..).trans ((State.put_pwr ..).trans (State.put_pwr ..))
@[simp] theorem State.put96_trg (s : State) (a b c : Loc) (v : Nat) : (s.put96 a b c v).trg = s.trg := (State.put_trg ..).trans ((State.put_trg ..).trans (State.put_trg ..))
@[simp] theorem State.put96_mem (s : State) (a b c : Loc) (v : Nat) : (s.put96 a b c v).mem = s.mem := (State.put_mem ..).trans ((State.put_mem ..).trans (State.put_mem ..))
@[simp] theorem State.put96_msys (s : State) (a b c : Loc) (v : Nat) : (s.put96 a b c v).msys = s.msys := (State.put_msys ..).trans ((State.put_msys ..).trans (State.put_msys ..))
@[simp] theorem State.put96_rcd (s : State) (a b c : Loc) (v : Nat) : (s.put96 a b c v).rcd = s.rcd := (State.put_rcd ..).trans ((State.put_rcd ..).trans (State.put_rcd ..))
@[simp] theorem State.put96_xsp (s : State) (a b c : Loc) (v : Nat) : (s.put96 a b c v).xsp = s.xsp := (State.put_xsp ..).trans ((State.put_xsp ..).trans (State.put_xsp ..))
@[simp] theorem State.put96_tls (s : State) (a b c : Loc) (v : Nat) : (s.put96 a b c v).tls = s.tls := (State.put_tls ..).trans ((State.put_tls ..).trans (State.put_tls ..))
@[simp] theorem State.put96_dma (s : State) (a b c : Loc) (v : Nat) : (s.put96 a b c v).dma = s.dma := (State.put_dma ..).trans ((State.put_dma ..).trans (State.put_dma ..))
@[simp] theorem State.put96_str (s : State) (a b c : Loc) (v : Nat) : (s.put96 a b c v).str = s.str := (State.put_str ..).trans ((State.put_str ..).trans (State.put_str ..))
@[simp] theorem State.put96_pair (s : State) (a b c : Loc) (v : Nat) : (s.put96 a b c v).pair = s.pair := (State.put_pair ..).trans ((State.put_pair ..).trans (State.put_pair ..))
@[simp] theorem State.put96_dsp (s : State) (a b c : Loc) (v : Nat) : (s.put96 a b c v).dsp = s.dsp := (State.put_dsp ..).trans ((State.put_dsp ..).trans (State.put_dsp ..))
@[simp] theorem State.put96_stm (s : State) (a b c : Loc) (v : Nat) : (s.put96 a b c v).stm = s.stm := (State.put_stm ..).trans ((State.put_stm ..).trans (State.put_stm ..))
@[simp] theorem State.put96_sec (s : State) (a b c : Loc) (v : Nat) : (s.put96 a b c v).sec = s.sec := (State.put_sec ..).trans ((State.put_sec ..).trans (State.put_sec ..))
@[simp] theorem State.put96_closed (s : State) (a b c : Loc) (v : Nat) : (s.put96 a b c v).closed = s.closed := (State.put_closed ..).trans ((State.put_closed ..).trans (State.put_closed ..))
@[simp] theorem State.put96_pending (s : State) (a b c : Loc) (v : Nat) : (s.put96 a b c v).pending = s.pending := (State.put_pending ..).trans ((State.put_pending ..).trans (State.put_pending ..))

@[simp] theorem State.count64_freeCount (s : State) (a b : Loc) (k : Nat) : (s.count64 a b k).freeCount = s.freeCount := State.put64_freeCount ..
@[simp] theorem State.count64_out (s : State) (a b : Loc) (k : Nat) : (s.count64 a b k).out = s.out := State.put64_out ..
@[simp] theorem State.count64_ctl (s : State) (a b : Loc) (k : Nat) : (s.count64 a b k).ctl = s.ctl := State.put64_ctl ..
@[simp] theorem State.count64_tb (s : State) (a b : Loc) (k : Nat) : (s.count64 a b k).tb = s.tb := State.put64_tb ..
@[simp] theorem State.count64_ing (s : State) (a b : Loc) (k : Nat) : (s.count64 a b k).ing = s.ing := State.put64_ing ..
@[simp] theorem State.count64_front (s : State) (a b : Loc) (k : Nat) : (s.count64 a b k).front = s.front := State.put64_front ..
@[simp] theorem State.count64_fine (s : State) (a b : Loc) (k : Nat) : (s.count64 a b k).fine = s.fine := State.put64_fine ..
@[simp] theorem State.count64_det (s : State) (a b : Loc) (k : Nat) : (s.count64 a b k).det = s.det := State.put64_det ..
@[simp] theorem State.count64_tun (s : State) (a b : Loc) (k : Nat) : (s.count64 a b k).tun = s.tun := State.put64_tun ..
@[simp] theorem State.count64_adm (s : State) (a b : Loc) (k : Nat) : (s.count64 a b k).adm = s.adm := State.put64_adm ..
@[simp] theorem State.count64_clk (s : State) (a b : Loc) (k : Nat) : (s.count64 a b k).clk = s.clk := State.put64_clk ..
@[simp] theorem State.count64_pwr (s : State) (a b : Loc) (k : Nat) : (s.count64 a b k).pwr = s.pwr := State.put64_pwr ..
@[simp] theorem State.count64_trg (s : State) (a b : Loc) (k : Nat) : (s.count64 a b k).trg = s.trg := State.put64_trg ..
@[simp] theorem State.count64_mem (s : State) (a b : Loc) (k : Nat) : (s.count64 a b k).mem = s.mem := State.put64_mem ..
@[simp] theorem State.count64_msys (s : State) (a b : Loc) (k : Nat) : (s.count64 a b k).msys = s.msys := State.put64_msys ..
@[simp] theorem State.count64_rcd (s : State) (a b : Loc) (k : Nat) : (s.count64 a b k).rcd = s.rcd := State.put64_rcd ..
@[simp] theorem State.count64_xsp (s : State) (a b : Loc) (k : Nat) : (s.count64 a b k).xsp = s.xsp := State.put64_xsp ..
@[simp] theorem State.count64_tls (s : State) (a b : Loc) (k : Nat) : (s.count64 a b k).tls = s.tls := State.put64_tls ..
@[simp] theorem State.count64_dma (s : State) (a b : Loc) (k : Nat) : (s.count64 a b k).dma = s.dma := State.put64_dma ..
@[simp] theorem State.count64_str (s : State) (a b : Loc) (k : Nat) : (s.count64 a b k).str = s.str := State.put64_str ..
@[simp] theorem State.count64_pair (s : State) (a b : Loc) (k : Nat) : (s.count64 a b k).pair = s.pair := State.put64_pair ..
@[simp] theorem State.count64_dsp (s : State) (a b : Loc) (k : Nat) : (s.count64 a b k).dsp = s.dsp := State.put64_dsp ..
@[simp] theorem State.count64_stm (s : State) (a b : Loc) (k : Nat) : (s.count64 a b k).stm = s.stm := State.put64_stm ..
@[simp] theorem State.count64_sec (s : State) (a b : Loc) (k : Nat) : (s.count64 a b k).sec = s.sec := State.put64_sec ..
@[simp] theorem State.count64_closed (s : State) (a b : Loc) (k : Nat) : (s.count64 a b k).closed = s.closed := State.put64_closed ..
@[simp] theorem State.count64_pending (s : State) (a b : Loc) (k : Nat) : (s.count64 a b k).pending = s.pending := State.put64_pending ..

@[simp] theorem State.emit_regs (s : State) (x : Out) : (s.emit x).regs = s.regs := rfl
@[simp] theorem State.emit_freeCount (s : State) (x : Out) : (s.emit x).freeCount = s.freeCount := rfl
@[simp] theorem State.emit_ctl (s : State) (x : Out) : (s.emit x).ctl = s.ctl := rfl
@[simp] theorem State.emit_tb (s : State) (x : Out) : (s.emit x).tb = s.tb := rfl
@[simp] theorem State.emit_ing (s : State) (x : Out) : (s.emit x).ing = s.ing := rfl
@[simp] theorem State.emit_front (s : State) (x : Out) : (s.emit x).front = s.front := rfl
@[simp] theorem State.emit_fine (s : State) (x : Out) : (s.emit x).fine = s.fine := rfl
@[simp] theorem State.emit_det (s : State) (x : Out) : (s.emit x).det = s.det := rfl
@[simp] theorem State.emit_tun (s : State) (x : Out) : (s.emit x).tun = s.tun := rfl
@[simp] theorem State.emit_adm (s : State) (x : Out) : (s.emit x).adm = s.adm := rfl
@[simp] theorem State.emit_clk (s : State) (x : Out) : (s.emit x).clk = s.clk := rfl
@[simp] theorem State.emit_pwr (s : State) (x : Out) : (s.emit x).pwr = s.pwr := rfl
@[simp] theorem State.emit_trg (s : State) (x : Out) : (s.emit x).trg = s.trg := rfl
@[simp] theorem State.emit_mem (s : State) (x : Out) : (s.emit x).mem = s.mem := rfl
@[simp] theorem State.emit_msys (s : State) (x : Out) : (s.emit x).msys = s.msys := rfl
@[simp] theorem State.emit_rcd (s : State) (x : Out) : (s.emit x).rcd = s.rcd := rfl
@[simp] theorem State.emit_xsp (s : State) (x : Out) : (s.emit x).xsp = s.xsp := rfl
@[simp] theorem State.emit_tls (s : State) (x : Out) : (s.emit x).tls = s.tls := rfl
@[simp] theorem State.emit_dma (s : State) (x : Out) : (s.emit x).dma = s.dma := rfl
@[simp] theorem State.emit_str (s : State) (x : Out) : (s.emit x).str = s.str := rfl
@[simp] theorem State.emit_pair (s : State) (x : Out) : (s.emit x).pair = s.pair := rfl
@[simp] theorem State.emit_dsp (s : State) (x : Out) : (s.emit x).dsp = s.dsp := rfl
@[simp] theorem State.emit_stm (s : State) (x : Out) : (s.emit x).stm = s.stm := rfl
@[simp] theorem State.emit_sec (s : State) (x : Out) : (s.emit x).sec = s.sec := rfl
@[simp] theorem State.emit_closed (s : State) (x : Out) : (s.emit x).closed = s.closed := rfl
@[simp] theorem State.emit_pending (s : State) (x : Out) : (s.emit x).pending = s.pending := rfl

@[simp] theorem State.took_regs (s : State) : (s.took).regs = s.regs := rfl
@[simp] theorem State.took_out (s : State) : (s.took).out = s.out := rfl
@[simp] theorem State.took_ctl (s : State) : (s.took).ctl = s.ctl := rfl
@[simp] theorem State.took_tb (s : State) : (s.took).tb = s.tb := rfl
@[simp] theorem State.took_ing (s : State) : (s.took).ing = s.ing := rfl
@[simp] theorem State.took_front (s : State) : (s.took).front = s.front := rfl
@[simp] theorem State.took_fine (s : State) : (s.took).fine = s.fine := rfl
@[simp] theorem State.took_det (s : State) : (s.took).det = s.det := rfl
@[simp] theorem State.took_tun (s : State) : (s.took).tun = s.tun := rfl
@[simp] theorem State.took_adm (s : State) : (s.took).adm = s.adm := rfl
@[simp] theorem State.took_clk (s : State) : (s.took).clk = s.clk := rfl
@[simp] theorem State.took_pwr (s : State) : (s.took).pwr = s.pwr := rfl
@[simp] theorem State.took_trg (s : State) : (s.took).trg = s.trg := rfl
@[simp] theorem State.took_mem (s : State) : (s.took).mem = s.mem := rfl
@[simp] theorem State.took_msys (s : State) : (s.took).msys = s.msys := rfl
@[simp] theorem State.took_rcd (s : State) : (s.took).rcd = s.rcd := rfl
@[simp] theorem State.took_xsp (s : State) : (s.took).xsp = s.xsp := rfl
@[simp] theorem State.took_tls (s : State) : (s.took).tls = s.tls := rfl
@[simp] theorem State.took_dma (s : State) : (s.took).dma = s.dma := rfl
@[simp] theorem State.took_str (s : State) : (s.took).str = s.str := rfl
@[simp] theorem State.took_pair (s : State) : (s.took).pair = s.pair := rfl
@[simp] theorem State.took_dsp (s : State) : (s.took).dsp = s.dsp := rfl
@[simp] theorem State.took_stm (s : State) : (s.took).stm = s.stm := rfl
@[simp] theorem State.took_sec (s : State) : (s.took).sec = s.sec := rfl
@[simp] theorem State.took_closed (s : State) : (s.took).closed = s.closed := rfl
@[simp] theorem State.took_pending (s : State) : (s.took).pending = s.pending := rfl

@[simp] theorem State.setObj_regs (s : State) (i j v : Nat) : (s.setObj i j v).regs = s.regs := rfl
@[simp] theorem State.setObj_freeCount (s : State) (i j v : Nat) : (s.setObj i j v).freeCount = s.freeCount := rfl
@[simp] theorem State.setObj_out (s : State) (i j v : Nat) : (s.setObj i j v).out = s.out := rfl
@[simp] theorem State.setObj_tb (s : State) (i j v : Nat) : (s.setObj i j v).tb = s.tb := rfl
@[simp] theorem State.setObj_ing (s : State) (i j v : Nat) : (s.setObj i j v).ing = s.ing := rfl
@[simp] theorem State.setObj_front (s : State) (i j v : Nat) : (s.setObj i j v).front = s.front := rfl
@[simp] theorem State.setObj_fine (s : State) (i j v : Nat) : (s.setObj i j v).fine = s.fine := rfl
@[simp] theorem State.setObj_det (s : State) (i j v : Nat) : (s.setObj i j v).det = s.det := rfl
@[simp] theorem State.setObj_tun (s : State) (i j v : Nat) : (s.setObj i j v).tun = s.tun := rfl
@[simp] theorem State.setObj_adm (s : State) (i j v : Nat) : (s.setObj i j v).adm = s.adm := rfl
@[simp] theorem State.setObj_clk (s : State) (i j v : Nat) : (s.setObj i j v).clk = s.clk := rfl
@[simp] theorem State.setObj_pwr (s : State) (i j v : Nat) : (s.setObj i j v).pwr = s.pwr := rfl
@[simp] theorem State.setObj_trg (s : State) (i j v : Nat) : (s.setObj i j v).trg = s.trg := rfl
@[simp] theorem State.setObj_mem (s : State) (i j v : Nat) : (s.setObj i j v).mem = s.mem := rfl
@[simp] theorem State.setObj_msys (s : State) (i j v : Nat) : (s.setObj i j v).msys = s.msys := rfl
@[simp] theorem State.setObj_rcd (s : State) (i j v : Nat) : (s.setObj i j v).rcd = s.rcd := rfl
@[simp] theorem State.setObj_xsp (s : State) (i j v : Nat) : (s.setObj i j v).xsp = s.xsp := rfl
@[simp] theorem State.setObj_tls (s : State) (i j v : Nat) : (s.setObj i j v).tls = s.tls := rfl
@[simp] theorem State.setObj_dma (s : State) (i j v : Nat) : (s.setObj i j v).dma = s.dma := rfl
@[simp] theorem State.setObj_str (s : State) (i j v : Nat) : (s.setObj i j v).str = s.str := rfl
@[simp] theorem State.setObj_pair (s : State) (i j v : Nat) : (s.setObj i j v).pair = s.pair := rfl
@[simp] theorem State.setObj_dsp (s : State) (i j v : Nat) : (s.setObj i j v).dsp = s.dsp := rfl
@[simp] theorem State.setObj_stm (s : State) (i j v : Nat) : (s.setObj i j v).stm = s.stm := rfl
@[simp] theorem State.setObj_sec (s : State) (i j v : Nat) : (s.setObj i j v).sec = s.sec := rfl
@[simp] theorem State.setObj_closed (s : State) (i j v : Nat) : (s.setObj i j v).closed = s.closed := rfl
@[simp] theorem State.setObj_pending (s : State) (i j v : Nat) : (s.setObj i j v).pending = s.pending := rfl

@[simp] theorem State.oapSpoil_regs (s : State) (j k : Nat) : (s.oapSpoil j k).regs = s.regs := State.setObj_regs ..
@[simp] theorem State.oapSpoil_freeCount (s : State) (j k : Nat) : (s.oapSpoil j k).freeCount = s.freeCount := State.setObj_freeCount ..
@[simp] theorem State.oapSpoil_out (s : State) (j k : Nat) : (s.oapSpoil j k).out = s.out := State.setObj_out ..
@[simp] theorem State.oapSpoil_tb (s : State) (j k : Nat) : (s.oapSpoil j k).tb = s.tb := State.setObj_tb ..
@[simp] theorem State.oapSpoil_ing (s : State) (j k : Nat) : (s.oapSpoil j k).ing = s.ing := State.setObj_ing ..
@[simp] theorem State.oapSpoil_front (s : State) (j k : Nat) : (s.oapSpoil j k).front = s.front := State.setObj_front ..
@[simp] theorem State.oapSpoil_fine (s : State) (j k : Nat) : (s.oapSpoil j k).fine = s.fine := State.setObj_fine ..
@[simp] theorem State.oapSpoil_det (s : State) (j k : Nat) : (s.oapSpoil j k).det = s.det := State.setObj_det ..
@[simp] theorem State.oapSpoil_tun (s : State) (j k : Nat) : (s.oapSpoil j k).tun = s.tun := State.setObj_tun ..
@[simp] theorem State.oapSpoil_adm (s : State) (j k : Nat) : (s.oapSpoil j k).adm = s.adm := State.setObj_adm ..
@[simp] theorem State.oapSpoil_clk (s : State) (j k : Nat) : (s.oapSpoil j k).clk = s.clk := State.setObj_clk ..
@[simp] theorem State.oapSpoil_pwr (s : State) (j k : Nat) : (s.oapSpoil j k).pwr = s.pwr := State.setObj_pwr ..
@[simp] theorem State.oapSpoil_trg (s : State) (j k : Nat) : (s.oapSpoil j k).trg = s.trg := State.setObj_trg ..
@[simp] theorem State.oapSpoil_mem (s : State) (j k : Nat) : (s.oapSpoil j k).mem = s.mem := State.setObj_mem ..
@[simp] theorem State.oapSpoil_msys (s : State) (j k : Nat) : (s.oapSpoil j k).msys = s.msys := State.setObj_msys ..
@[simp] theorem State.oapSpoil_rcd (s : State) (j k : Nat) : (s.oapSpoil j k).rcd = s.rcd := State.setObj_rcd ..
@[simp] theorem State.oapSpoil_xsp (s : State) (j k : Nat) : (s.oapSpoil j k).xsp = s.xsp := State.setObj_xsp ..
@[simp] theorem State.oapSpoil_tls (s : State) (j k : Nat) : (s.oapSpoil j k).tls = s.tls := State.setObj_tls ..
@[simp] theorem State.oapSpoil_dma (s : State) (j k : Nat) : (s.oapSpoil j k).dma = s.dma := State.setObj_dma ..
@[simp] theorem State.oapSpoil_str (s : State) (j k : Nat) : (s.oapSpoil j k).str = s.str := State.setObj_str ..
@[simp] theorem State.oapSpoil_pair (s : State) (j k : Nat) : (s.oapSpoil j k).pair = s.pair := State.setObj_pair ..
@[simp] theorem State.oapSpoil_dsp (s : State) (j k : Nat) : (s.oapSpoil j k).dsp = s.dsp := State.setObj_dsp ..
@[simp] theorem State.oapSpoil_stm (s : State) (j k : Nat) : (s.oapSpoil j k).stm = s.stm := State.setObj_stm ..
@[simp] theorem State.oapSpoil_sec (s : State) (j k : Nat) : (s.oapSpoil j k).sec = s.sec := State.setObj_sec ..
@[simp] theorem State.oapSpoil_closed (s : State) (j k : Nat) : (s.oapSpoil j k).closed = s.closed := State.setObj_closed ..
@[simp] theorem State.oapSpoil_pending (s : State) (j k : Nat) : (s.oapSpoil j k).pending = s.pending := State.setObj_pending ..

@[simp] theorem State.setUnit_regs (s : State) (u : Nat) (x : TrigUnit) : (s.setUnit u x).regs = s.regs := rfl
@[simp] theorem State.setUnit_freeCount (s : State) (u : Nat) (x : TrigUnit) : (s.setUnit u x).freeCount = s.freeCount := rfl
@[simp] theorem State.setUnit_out (s : State) (u : Nat) (x : TrigUnit) : (s.setUnit u x).out = s.out := rfl
@[simp] theorem State.setUnit_ctl (s : State) (u : Nat) (x : TrigUnit) : (s.setUnit u x).ctl = s.ctl := rfl
@[simp] theorem State.setUnit_tb (s : State) (u : Nat) (x : TrigUnit) : (s.setUnit u x).tb = s.tb := rfl
@[simp] theorem State.setUnit_ing (s : State) (u : Nat) (x : TrigUnit) : (s.setUnit u x).ing = s.ing := rfl
@[simp] theorem State.setUnit_front (s : State) (u : Nat) (x : TrigUnit) : (s.setUnit u x).front = s.front := rfl
@[simp] theorem State.setUnit_fine (s : State) (u : Nat) (x : TrigUnit) : (s.setUnit u x).fine = s.fine := rfl
@[simp] theorem State.setUnit_det (s : State) (u : Nat) (x : TrigUnit) : (s.setUnit u x).det = s.det := rfl
@[simp] theorem State.setUnit_tun (s : State) (u : Nat) (x : TrigUnit) : (s.setUnit u x).tun = s.tun := rfl
@[simp] theorem State.setUnit_adm (s : State) (u : Nat) (x : TrigUnit) : (s.setUnit u x).adm = s.adm := rfl
@[simp] theorem State.setUnit_clk (s : State) (u : Nat) (x : TrigUnit) : (s.setUnit u x).clk = s.clk := rfl
@[simp] theorem State.setUnit_pwr (s : State) (u : Nat) (x : TrigUnit) : (s.setUnit u x).pwr = s.pwr := rfl
@[simp] theorem State.setUnit_mem (s : State) (u : Nat) (x : TrigUnit) : (s.setUnit u x).mem = s.mem := rfl
@[simp] theorem State.setUnit_msys (s : State) (u : Nat) (x : TrigUnit) : (s.setUnit u x).msys = s.msys := rfl
@[simp] theorem State.setUnit_rcd (s : State) (u : Nat) (x : TrigUnit) : (s.setUnit u x).rcd = s.rcd := rfl
@[simp] theorem State.setUnit_xsp (s : State) (u : Nat) (x : TrigUnit) : (s.setUnit u x).xsp = s.xsp := rfl
@[simp] theorem State.setUnit_tls (s : State) (u : Nat) (x : TrigUnit) : (s.setUnit u x).tls = s.tls := rfl
@[simp] theorem State.setUnit_dma (s : State) (u : Nat) (x : TrigUnit) : (s.setUnit u x).dma = s.dma := rfl
@[simp] theorem State.setUnit_str (s : State) (u : Nat) (x : TrigUnit) : (s.setUnit u x).str = s.str := rfl
@[simp] theorem State.setUnit_pair (s : State) (u : Nat) (x : TrigUnit) : (s.setUnit u x).pair = s.pair := rfl
@[simp] theorem State.setUnit_dsp (s : State) (u : Nat) (x : TrigUnit) : (s.setUnit u x).dsp = s.dsp := rfl
@[simp] theorem State.setUnit_stm (s : State) (u : Nat) (x : TrigUnit) : (s.setUnit u x).stm = s.stm := rfl
@[simp] theorem State.setUnit_sec (s : State) (u : Nat) (x : TrigUnit) : (s.setUnit u x).sec = s.sec := rfl
@[simp] theorem State.setUnit_closed (s : State) (u : Nat) (x : TrigUnit) : (s.setUnit u x).closed = s.closed := rfl
@[simp] theorem State.setUnit_pending (s : State) (u : Nat) (x : TrigUnit) : (s.setUnit u x).pending = s.pending := rfl

@[simp] theorem State.pushPulse_regs (s : State) (u a b : Nat) : (s.pushPulse u a b).regs = s.regs := State.setUnit_regs ..
@[simp] theorem State.pushPulse_freeCount (s : State) (u a b : Nat) : (s.pushPulse u a b).freeCount = s.freeCount := State.setUnit_freeCount ..
@[simp] theorem State.pushPulse_out (s : State) (u a b : Nat) : (s.pushPulse u a b).out = s.out := State.setUnit_out ..
@[simp] theorem State.pushPulse_ctl (s : State) (u a b : Nat) : (s.pushPulse u a b).ctl = s.ctl := State.setUnit_ctl ..
@[simp] theorem State.pushPulse_tb (s : State) (u a b : Nat) : (s.pushPulse u a b).tb = s.tb := State.setUnit_tb ..
@[simp] theorem State.pushPulse_ing (s : State) (u a b : Nat) : (s.pushPulse u a b).ing = s.ing := State.setUnit_ing ..
@[simp] theorem State.pushPulse_front (s : State) (u a b : Nat) : (s.pushPulse u a b).front = s.front := State.setUnit_front ..
@[simp] theorem State.pushPulse_fine (s : State) (u a b : Nat) : (s.pushPulse u a b).fine = s.fine := State.setUnit_fine ..
@[simp] theorem State.pushPulse_det (s : State) (u a b : Nat) : (s.pushPulse u a b).det = s.det := State.setUnit_det ..
@[simp] theorem State.pushPulse_tun (s : State) (u a b : Nat) : (s.pushPulse u a b).tun = s.tun := State.setUnit_tun ..
@[simp] theorem State.pushPulse_adm (s : State) (u a b : Nat) : (s.pushPulse u a b).adm = s.adm := State.setUnit_adm ..
@[simp] theorem State.pushPulse_clk (s : State) (u a b : Nat) : (s.pushPulse u a b).clk = s.clk := State.setUnit_clk ..
@[simp] theorem State.pushPulse_pwr (s : State) (u a b : Nat) : (s.pushPulse u a b).pwr = s.pwr := State.setUnit_pwr ..
@[simp] theorem State.pushPulse_mem (s : State) (u a b : Nat) : (s.pushPulse u a b).mem = s.mem := State.setUnit_mem ..
@[simp] theorem State.pushPulse_msys (s : State) (u a b : Nat) : (s.pushPulse u a b).msys = s.msys := State.setUnit_msys ..
@[simp] theorem State.pushPulse_rcd (s : State) (u a b : Nat) : (s.pushPulse u a b).rcd = s.rcd := State.setUnit_rcd ..
@[simp] theorem State.pushPulse_xsp (s : State) (u a b : Nat) : (s.pushPulse u a b).xsp = s.xsp := State.setUnit_xsp ..
@[simp] theorem State.pushPulse_tls (s : State) (u a b : Nat) : (s.pushPulse u a b).tls = s.tls := State.setUnit_tls ..
@[simp] theorem State.pushPulse_dma (s : State) (u a b : Nat) : (s.pushPulse u a b).dma = s.dma := State.setUnit_dma ..
@[simp] theorem State.pushPulse_str (s : State) (u a b : Nat) : (s.pushPulse u a b).str = s.str := State.setUnit_str ..
@[simp] theorem State.pushPulse_pair (s : State) (u a b : Nat) : (s.pushPulse u a b).pair = s.pair := State.setUnit_pair ..
@[simp] theorem State.pushPulse_dsp (s : State) (u a b : Nat) : (s.pushPulse u a b).dsp = s.dsp := State.setUnit_dsp ..
@[simp] theorem State.pushPulse_stm (s : State) (u a b : Nat) : (s.pushPulse u a b).stm = s.stm := State.setUnit_stm ..
@[simp] theorem State.pushPulse_sec (s : State) (u a b : Nat) : (s.pushPulse u a b).sec = s.sec := State.setUnit_sec ..
@[simp] theorem State.pushPulse_closed (s : State) (u a b : Nat) : (s.pushPulse u a b).closed = s.closed := State.setUnit_closed ..
@[simp] theorem State.pushPulse_pending (s : State) (u a b : Nat) : (s.pushPulse u a b).pending = s.pending := State.setUnit_pending ..

@[simp] theorem State.word_emit (s : State) (x : Out) (o : Nat) : (s.emit x).word o = s.word o := rfl
@[simp] theorem State.get_emit (s : State) (x : Out) (l : Loc) : (s.emit x).get l = s.get l := rfl
@[simp] theorem State.emit_out (s : State) (x : Out) : (s.emit x).out = x :: s.out := rfl
@[simp] theorem State.get_took (s : State) (l : Loc) : s.took.get l = s.get l := rfl

end Sys2Proof.Machine
end

