-- ==== Sys2Proof/Laws/Table.lean ====
section
/-!
SUPPORT. Sparse tables: a key reads what was last written to it, a write leaves every other key alone, and every operation
keeps the canonical form.
-/
namespace Sys2Proof.Machine

variable {α : Type}

@[simp] theorem tget_nil (d : Nat → α) (k : Nat) : tget d [] k = d k := rfl

theorem tget_tinsert (d : Nat → α) (m : Tbl α) (k j : Nat) (v : α) :
    tget d (tinsert m k v) j = if j = k then v else tget d m j := by
  induction m with
  | nil => simp [tinsert, tget]
  | cons e m ih =>
    obtain ⟨i, u⟩ := e
    unfold tinsert
    split
    · subst_vars
      by_cases h : j = i <;> simp [tget, h]
    · split
      · by_cases h : j = k <;> simp [tget, h]
      · by_cases h : j = i
        · subst h
          have : ¬ j = k := fun e => by simp_all
          simp [tget, this]
        · simp [tget, h, ih]

theorem tget_terase (d : Nat → α) (m : Tbl α) (k j : Nat) :
    tget d (terase m k) j = if j = k then d j else tget d m j := by
  induction m with
  | nil => simp [terase, tget]
  | cons e m ih =>
    obtain ⟨i, u⟩ := e
    unfold terase
    split
    · subst_vars
      rw [ih]
      by_cases h : j = i <;> simp [tget, h]
    · by_cases h : j = i
      · subst h
        have : ¬ j = k := fun e => by simp_all
        simp [tget, this]
      · simp [tget, h, ih]

/-- A key reads what was written to it, any other key what it held. -/
theorem tget_tset [DecidableEq α] (d : Nat → α) (m : Tbl α) (k j : Nat) (v : α) :
    tget d (tset d m k v) j = if j = k then v else tget d m j := by
  unfold tset
  split
  · rw [tget_terase]
    split <;> simp_all
  · rw [tget_tinsert]

@[simp] theorem tget_tset_same [DecidableEq α] (d : Nat → α) (m : Tbl α) (k : Nat) (v : α) :
    tget d (tset d m k v) k = v := by simp [tget_tset]

theorem tget_tset_ne [DecidableEq α] (d : Nat → α) (m : Tbl α) {k j : Nat} (h : j ≠ k) (v : α) :
    tget d (tset d m k v) j = tget d m j := by simp [tget_tset, h]

theorem twfFrom_mono [DecidableEq α] (d : Nat → α) (m : Tbl α) {a b : Nat} (h : a ≤ b) (w : twfFrom d b m = true) :
    twfFrom d a m = true := by
  cases m with
  | nil => rfl
  | cons e m =>
    simp only [twfFrom, Bool.and_eq_true, decide_eq_true_eq] at w ⊢
    exact ⟨⟨Nat.le_trans h w.1.1, w.1.2⟩, w.2⟩

theorem twfFrom_terase [DecidableEq α] (d : Nat → α) (m : Tbl α) (k : Nat) :
    ∀ a, twfFrom d a m = true → twfFrom d a (terase m k) = true := by
  induction m with
  | nil => intros; rfl
  | cons e m ih =>
    intro a w
    obtain ⟨i, u⟩ := e
    simp only [twfFrom, Bool.and_eq_true, decide_eq_true_eq] at w
    unfold terase
    split
    · exact ih a (twfFrom_mono d m (Nat.le_succ_of_le w.1.1) w.2)
    · simp only [twfFrom, Bool.and_eq_true, decide_eq_true_eq]
      exact ⟨w.1, ih _ w.2⟩

theorem twfFrom_tinsert [DecidableEq α] (d : Nat → α) (m : Tbl α) (k : Nat) (v : α) (hv : v ≠ d k) :
    ∀ a, a ≤ k → twfFrom d a m = true → twfFrom d a (tinsert m k v) = true := by
  induction m with
  | nil => intro a h _; simp [tinsert, twfFrom, h, hv]
  | cons e m ih =>
    intro a h w
    obtain ⟨i, u⟩ := e
    have w' := w
    simp only [twfFrom, Bool.and_eq_true, decide_eq_true_eq] at w
    unfold tinsert
    split
    · subst_vars
      simp only [twfFrom, Bool.and_eq_true, decide_eq_true_eq]
      exact ⟨⟨h, hv⟩, w.2⟩
    · split
      · simp only [twfFrom, Bool.and_eq_true, decide_eq_true_eq]
        refine ⟨⟨h, hv⟩, ⟨by omega, w.1.2⟩, w.2⟩
      · simp only [twfFrom, Bool.and_eq_true, decide_eq_true_eq]
        exact ⟨w.1, ih _ (by omega) w.2⟩

/-- Writing a key keeps the canonical form. -/
theorem twf_tset [DecidableEq α] (d : Nat → α) (m : Tbl α) (k : Nat) (v : α) (w : twf d m = true) :
    twf d (tset d m k v) = true := by
  unfold tset
  split
  · exact twfFrom_terase d m k 0 w
  · exact twfFrom_tinsert d m k v (by assumption) 0 (Nat.zero_le k) w

end Sys2Proof.Machine
end

