-- ==== Sys2Proof/Laws/Regs.lean ====
section
/-!
SUPPORT. Registers: a place reads what was last written to it, and a write leaves every place in another word, or in other bits
of its word, alone.
-/
namespace Sys2Proof.Machine

theorem bits_lt (x lo w : Nat) : bits x lo w < 2 ^ w := Nat.mod_lt _ (Nat.two_pow_pos w)

/-- A field holds what was put into it. -/
theorem bits_putBits_same (x lo w v : Nat) : bits (putBits x lo w v) lo w = v % 2 ^ w := by
  unfold bits putBits
  have hlo := Nat.two_pow_pos lo
  have h1 : x % 2 ^ lo < 2 ^ lo := Nat.mod_lt _ hlo
  have e : x % 2 ^ lo + v % 2 ^ w * 2 ^ lo + x / 2 ^ (lo + w) * 2 ^ (lo + w)
      = x % 2 ^ lo + 2 ^ lo * (v % 2 ^ w + 2 ^ w * (x / 2 ^ (lo + w))) := by
    rw [pow_add]; ring
  rw [e, Nat.add_mul_div_left _ _ hlo, Nat.div_eq_of_lt h1, zero_add, Nat.add_mul_mod_self_left, Nat.mod_mod]

/-- A field keeps its value when one wholly above or below it is written. -/
theorem bits_putBits_other (x lo w v lo' w' : Nat) (h : lo' + w' ≤ lo ∨ lo + w ≤ lo') :
    bits (putBits x lo w v) lo' w' = bits x lo' w' := by
  unfold bits putBits
  have hx : x = x % 2 ^ lo + 2 ^ lo * (x / 2 ^ lo % 2 ^ w + 2 ^ w * (x / 2 ^ (lo + w))) := by
    rw [pow_add, ← Nat.div_div_eq_div_mul]
    conv_lhs => rw [← Nat.mod_add_div x (2 ^ lo), ← Nat.mod_add_div (x / 2 ^ lo) (2 ^ w)]
  rcases h with h | h
  · obtain ⟨k, rfl⟩ := Nat.exists_eq_add_of_le h
    have e : ∀ a b : Nat, (a + 2 ^ (lo' + w' + k) * b) / 2 ^ lo' % 2 ^ w' = a / 2 ^ lo' % 2 ^ w' := by
      intro a b
      have : 2 ^ (lo' + w' + k) * b = 2 ^ lo' * (2 ^ w' * (2 ^ k * b)) := by rw [pow_add, pow_add]; ring
      rw [this, Nat.add_mul_div_left _ _ (Nat.two_pow_pos lo'), Nat.add_mul_mod_self_left]
    have e1 : x % 2 ^ (lo' + w' + k) + v % 2 ^ w * 2 ^ (lo' + w' + k) + x / 2 ^ (lo' + w' + k + w) * 2 ^ (lo' + w' + k + w)
        = x % 2 ^ (lo' + w' + k) + 2 ^ (lo' + w' + k) * (v % 2 ^ w + 2 ^ w * (x / 2 ^ (lo' + w' + k + w))) := by
      rw [pow_add _ _ w]; ring
    rw [e1, e]
    conv_rhs => rw [hx, e]
  · obtain ⟨k, rfl⟩ := Nat.exists_eq_add_of_le h
    have d : ∀ a b : Nat, a < 2 ^ (lo + w) → (a + 2 ^ (lo + w) * b) / 2 ^ (lo + w + k) = b / 2 ^ k := by
      intro a b ha
      rw [pow_add _ _ k, ← Nat.div_div_eq_div_mul, Nat.add_mul_div_left _ _ (Nat.two_pow_pos _), Nat.div_eq_of_lt ha, zero_add]
    have hs : x % 2 ^ lo + v % 2 ^ w * 2 ^ lo < 2 ^ (lo + w) := by
      have a1 : x % 2 ^ lo < 2 ^ lo := Nat.mod_lt _ (Nat.two_pow_pos _)
      have a2 : v % 2 ^ w + 1 ≤ 2 ^ w := Nat.mod_lt _ (Nat.two_pow_pos _)
      calc x % 2 ^ lo + v % 2 ^ w * 2 ^ lo < 2 ^ lo + v % 2 ^ w * 2 ^ lo := by omega
        _ = (v % 2 ^ w + 1) * 2 ^ lo := by ring
        _ ≤ 2 ^ w * 2 ^ lo := Nat.mul_le_mul_right _ a2
        _ = 2 ^ (lo + w) := by rw [pow_add]; ring
    rw [mul_comm (x / 2 ^ (lo + w)), d _ _ hs]
    conv_rhs => rw [← Nat.mod_add_div x (2 ^ (lo + w)), d _ _ (Nat.mod_lt _ (Nat.two_pow_pos _))]

theorem putBits_lt (x lo w v : Nat) (hx : x < 2 ^ 32) (h : lo + w ≤ 32) : putBits x lo w v < 2 ^ 32 := by
  unfold putBits
  obtain ⟨k, hk⟩ := Nat.exists_eq_add_of_le h
  have a1 : x % 2 ^ lo < 2 ^ lo := Nat.mod_lt _ (Nat.two_pow_pos _)
  have a2 : v % 2 ^ w + 1 ≤ 2 ^ w := Nat.mod_lt _ (Nat.two_pow_pos _)
  have hs : x % 2 ^ lo + v % 2 ^ w * 2 ^ lo + 1 ≤ 2 ^ (lo + w) := by
    calc x % 2 ^ lo + v % 2 ^ w * 2 ^ lo + 1 ≤ 2 ^ lo + v % 2 ^ w * 2 ^ lo := by omega
      _ = (v % 2 ^ w + 1) * 2 ^ lo := by ring
      _ ≤ 2 ^ w * 2 ^ lo := Nat.mul_le_mul_right _ a2
      _ = 2 ^ (lo + w) := by rw [pow_add]; ring
  have hq : x / 2 ^ (lo + w) + 1 ≤ 2 ^ k := by
    apply Nat.div_lt_of_lt_mul
    calc x < 2 ^ 32 := hx
      _ = 2 ^ (lo + w) * 2 ^ k := by rw [← pow_add, ← hk]
  calc x % 2 ^ lo + v % 2 ^ w * 2 ^ lo + x / 2 ^ (lo + w) * 2 ^ (lo + w)
      < 2 ^ (lo + w) + x / 2 ^ (lo + w) * 2 ^ (lo + w) := by omega
    _ = (x / 2 ^ (lo + w) + 1) * 2 ^ (lo + w) := by ring
    _ ≤ 2 ^ k * 2 ^ (lo + w) := Nat.mul_le_mul_right _ hq
    _ = 2 ^ 32 := by rw [← pow_add, hk]; congr 1; omega

/-! ### Words and places -/

@[simp] theorem State.word_setWord_same (s : State) (o : Nat) (v : Word) : (s.setWord o v).word o = v := by
  simp [State.word, State.setWord]

theorem State.word_setWord (s : State) (o p : Nat) (v : Word) :
    (s.setWord o v).word p = if p = o then v else s.word p := by
  simp [State.word, State.setWord, tget_tset]

theorem State.word_setWord_ne (s : State) {o p : Nat} (h : p ≠ o) (v : Word) : (s.setWord o v).word p = s.word p := by
  simp [State.word_setWord, h]

theorem State.word_put_same (s : State) (l : Loc) (v : Nat) :
    (s.put l v).word l.off = BitVec.ofNat 32 (putBits (s.word l.off).toNat l.lo l.w v) := by simp [State.put]

theorem State.word_put_ne (s : State) (l : Loc) (v : Nat) {p : Nat} (h : p ≠ l.off) : (s.put l v).word p = s.word p := by
  simp [State.put, State.word_setWord_ne _ h]

/-- A place reads what was put there, modulo its width. -/
theorem State.get_put_same (s : State) (l : Loc) (v : Nat) (h : l.lo + l.w ≤ 32) : (s.put l v).get l = v % 2 ^ l.w := by
  have hx := (s.word l.off).isLt
  simp only [State.get, State.word_put_same, BitVec.toNat_ofNat]
  rw [Nat.mod_eq_of_lt (putBits_lt _ _ _ _ hx h), bits_putBits_same]

/-- A place in another word, or in other bits of the same word, keeps its value. -/
theorem State.get_put_other (s : State) (l m : Loc) (v : Nat)
    (h : m.off ≠ l.off ∨ (l.lo + l.w ≤ 32 ∧ (m.lo + m.w ≤ l.lo ∨ l.lo + l.w ≤ m.lo))) : (s.put l v).get m = s.get m := by
  by_cases e : m.off = l.off
  · obtain h | ⟨hl, h⟩ := h
    · exact absurd e h
    · simp only [State.get, e, State.word_put_same, BitVec.toNat_ofNat]
      rw [Nat.mod_eq_of_lt (putBits_lt _ _ _ _ (s.word l.off).isLt hl), bits_putBits_other _ _ _ _ _ _ h]
  · simp [State.get, State.word_put_ne s l v e]

theorem State.on_flag_same (s : State) (l : Loc) (b : Bool) (h : l.lo + l.w ≤ 32) (hw : 1 ≤ l.w) : (s.flag l b).on l = b := by
  have h2 : 2 ≤ 2 ^ l.w := by calc 2 = 2 ^ 1 := rfl
    _ ≤ 2 ^ l.w := Nat.pow_le_pow_right (by norm_num) hw
  simp only [State.on, State.flag, State.get_put_same s l _ h]
  cases b <;> simp [b2n]
  omega

theorem State.on_flag_other (s : State) (l m : Loc) (b : Bool)
    (h : m.off ≠ l.off ∨ (l.lo + l.w ≤ 32 ∧ (m.lo + m.w ≤ l.lo ∨ l.lo + l.w ≤ m.lo))) : (s.flag l b).on m = s.on m := by
  simp [State.on, State.flag, State.get_put_other s l m _ h]

/-- Writing a word keeps the register file's canonical form. -/
theorem State.setWord_wf (s : State) (o : Nat) (v : Word) (h : twf resetWord s.regs = true) :
    twf resetWord (s.setWord o v).regs = true := twf_tset _ _ _ _ h

theorem State.put_wf (s : State) (l : Loc) (v : Nat) (h : twf resetWord s.regs = true) :
    twf resetWord (s.put l v).regs = true := State.setWord_wf _ _ _ h

end Sys2Proof.Machine
end

