-- ==== Sys2Proof/Laws/Events.lean ====
section
/-!
SUPPORT. What an occurrence of an event does (02 R75, R76): it may change the event and pending-bit words, what has left the
engine, the control complex and the trigger units' products; nothing else. The event is pending afterwards.
-/
namespace Sys2Proof.Machine

/-- A fold keeps what each of its steps keeps. -/
theorem foldl_keeps {α β γ : Type} (f : α → β → α) (g : α → γ) (h : ∀ a b, g (f a b) = g a) (l : List β) (a : α) :
    g (l.foldl f a) = g a := by
  induction l generalizing a with
  | nil => rfl
  | cons b l ih => rw [List.foldl_cons, ih, h]

/-- A word that an occurrence may write: an event's words and the MSI-X pending bits. -/
def eventWord (o : Nat) : Prop := (0x100000 ≤ o ∧ o < 0x104000) ∨ (0x88000 ≤ o ∧ o < 0x88100)

/-- The parts of the state an occurrence leaves alone. -/
structure SameBut (s t : State) : Prop where
  tb : t.tb = s.tb
  ing : t.ing = s.ing
  front : t.front = s.front
  fine : t.fine = s.fine
  det : t.det = s.det
  tun : t.tun = s.tun
  adm : t.adm = s.adm
  clk : t.clk = s.clk
  pwr : t.pwr = s.pwr
  mem : t.mem = s.mem
  msys : t.msys = s.msys
  rcd : t.rcd = s.rcd
  xsp : t.xsp = s.xsp
  tls : t.tls = s.tls
  dma : t.dma = s.dma
  str : t.str = s.str
  pair : t.pair = s.pair
  dsp : t.dsp = s.dsp
  stm : t.stm = s.stm
  sec : t.sec = s.sec
  closed : t.closed = s.closed
  pending : t.pending = s.pending
  word : ∀ o, ¬ eventWord o → t.word o = s.word o

theorem SameBut.rfl' (s : State) : SameBut s s := by constructor <;> intros <;> rfl

theorem SameBut.trans {a b c : State} (h : SameBut a b) (k : SameBut b c) : SameBut a c := by
  constructor
  all_goals first
    | exact fun o ho => (k.word o ho).trans (h.word o ho)
    | (first
        | exact k.tb.trans h.tb | exact k.ing.trans h.ing | exact k.front.trans h.front | exact k.fine.trans h.fine
        | exact k.det.trans h.det | exact k.tun.trans h.tun | exact k.adm.trans h.adm | exact k.clk.trans h.clk
        | exact k.pwr.trans h.pwr | exact k.mem.trans h.mem | exact k.msys.trans h.msys | exact k.rcd.trans h.rcd
        | exact k.xsp.trans h.xsp | exact k.tls.trans h.tls | exact k.dma.trans h.dma | exact k.str.trans h.str
        | exact k.pair.trans h.pair | exact k.dsp.trans h.dsp | exact k.stm.trans h.stm | exact k.sec.trans h.sec
        | exact k.closed.trans h.closed | exact k.pending.trans h.pending)

theorem SameBut.put (s : State) (l : Loc) (v : Nat) (h : eventWord l.off) : SameBut s (s.put l v) := by
  constructor <;> first | rfl | exact fun o ho => State.word_put_ne s l v (fun e => ho (e ▸ h))

theorem SameBut.put96 (s : State) (x y z : Loc) (v : Nat) (hx : eventWord x.off) (hy : eventWord y.off) (hz : eventWord z.off) :
    SameBut s (s.put96 x y z v) := by
  unfold State.put96
  exact ((SameBut.put s x _ hx).trans (SameBut.put _ y _ hy)).trans (SameBut.put _ z _ hz)

theorem SameBut.flag (s : State) (l : Loc) (b : Bool) (h : eventWord l.off) : SameBut s (s.flag l b) := SameBut.put s l _ h

theorem SameBut.emit (s : State) (x : Out) : SameBut s (s.emit x) := by constructor <;> intros <;> rfl

theorem SameBut.setCtl (s : State) (c : Control) : SameBut s { s with ctl := c } := by constructor <;> intros <;> rfl

theorem SameBut.setUnit (s : State) (u : Nat) (x : TrigUnit) : SameBut s (s.setUnit u x) := by
  constructor <;> intros <;> rfl

theorem SameBut.foldl {β : Type} (f : State → β → State) (h : ∀ a b, SameBut a (f a b)) (l : List β) (s : State) :
    SameBut s (l.foldl f s) := by
  induction l generalizing s with
  | nil => exact SameBut.rfl' s
  | cons b l ih => exact (h s b).trans (ih _)

theorem SameBut.cond {s a b : State} (c : Bool) (ha : SameBut s a) (hb : SameBut s b) :
    SameBut s (bif c then a else b) := by cases c <;> assumption

theorem SameBut.linePulse (s : State) (line tag : Nat) : SameBut s (s.linePulse line tag) := by
  refine SameBut.foldl _ (fun a u => SameBut.cond _ (SameBut.setUnit a _ _) (SameBut.rfl' a)) _ s

theorem SameBut.sendMsix (s : State) (v : Nat) (h : v < 2048) : SameBut s (s.sendMsix v) := by
  refine SameBut.cond _ (SameBut.flag _ _ _ ?_) (SameBut.emit _ _)
  right
  show 0x88000 ≤ 0x88000 + (v / 32 * 4 + 0) ∧ 0x88000 + (v / 32 * 4 + 0) < 0x88100
  omega

theorem eventWord_of (f : Fld) (n k : Nat) (hn : n < 512) (hk : k < 0x20) (hf : f.off = 0x100000 + k)
    (hd : f.dims = [(0x20, 512)]) : eventWord (f.e n).off := by
  have e : (f.e n).off = f.off + elemOff f.dims [n] := rfl
  have e2 : elemOff [(0x20, 512)] [n] = n * 0x20 + 0 := rfl
  rw [e, hf, hd, e2]
  left
  omega

theorem vec_lt (s : State) (n : Nat) : s.get (Reg.EVT_CFG_VEC.e n) < 2048 := bits_lt _ _ 11

theorem SameBut.evCount (s : State) (n : Nat) (hn : n < 512) : SameBut s (s.evCount n) :=
  SameBut.cond _ (SameBut.flag _ _ _ (eventWord_of Reg.EVT_STAT_SAT n 4 hn (by norm_num) rfl rfl))
    (SameBut.put _ _ _ (eventWord_of Reg.EVT_STAT_CNT n 4 hn (by norm_num) rfl rfl))

theorem SameBut.evTrig (s : State) (en : Bool) (n tag : Nat) : SameBut s (s.evTrig en n tag) :=
  SameBut.cond _ (SameBut.linePulse s _ tag) (SameBut.rfl' s)

theorem SameBut.evHold (s : State) (n tag : Nat) (hn : n < 512) : SameBut s (s.evHold n tag) :=
  (SameBut.flag _ _ _ (eventWord_of Reg.EVT_STAT_PEND n 4 hn (by norm_num) rfl rfl)).trans
    (SameBut.put96 _ _ _ _ _ (eventWord_of _ n 8 hn (by norm_num) rfl rfl) (eventWord_of _ n 12 hn (by norm_num) rfl rfl)
      (eventWord_of _ n 16 hn (by norm_num) rfl rfl))

theorem SameBut.evMsix (s : State) (n : Nat) : SameBut s (s.evMsix n) :=
  SameBut.cond _ (SameBut.sendMsix s _ (vec_lt s n)) (SameBut.rfl' s)

theorem SameBut.evSubs (s : State) (n : Nat) : SameBut s (s.evSubs n) := SameBut.setCtl s _
theorem SameBut.oapSpoil (s : State) (j k : Nat) : SameBut s (s.oapSpoil j k) := SameBut.setCtl s _
theorem SameBut.setLog (s : State) (l : List (Nat × Nat)) : SameBut s (s.setLog l) := SameBut.setCtl s _

theorem SameBut.raiseCore (fuel : Nat) : ∀ (s : State) (n tag : Nat), n < 512 → SameBut s (State.raiseCore fuel s n tag) := by
  induction fuel with
  | zero => intro s _ _ _; exact SameBut.rfl' s
  | succ fuel ih =>
    intro s n tag hn
    unfold State.raiseCore
    have ha := (SameBut.evCount s n hn).trans (SameBut.evTrig _ (s.on (evEn n)) n tag)
    have hd := ha.trans (SameBut.evHold _ n tag hn)
    have he := hd.trans (SameBut.evMsix _ n)
    have hs := he.trans (SameBut.evSubs _ n)
    have ht := SameBut.cond (s.on (evPend n)) ha (SameBut.cond (!(((s.evCount n).evTrig (s.on (evEn n)) n tag).evHold n tag).on
      (evEn n)) hd (SameBut.cond (((((s.evCount n).evTrig (s.on (evEn n)) n tag).evHold n tag).evMsix n).on
      (Reg.EVT_CFG_TO_OAP.e n)) (hs.trans (SameBut.foldl _ (fun a _ => (SameBut.oapSpoil a 4 1).trans
        (ih _ 9 tag (by norm_num))) (upto (mergesIn n ((((s.evCount n).evTrig (s.on (evEn n)) n tag).evHold n tag).evMsix
      n).ctl.sessions)) _)) he))
    exact SameBut.cond _ (SameBut.cond _ (ht.trans ((SameBut.setLog _ _).trans (ih _ 12 tag (by norm_num))))
      (ht.trans (SameBut.setLog _ _))) ht

/-- An occurrence of an event leaves everything but the event words, what leaves the engine, the control complex and the trigger
units alone. -/
theorem SameBut.raise (s : State) (n tag : Nat) (hn : n < 512) : SameBut s (s.raise n tag) :=
  SameBut.raiseCore 8 s n tag hn

theorem SameBut.ev (s : State) (n : Nat) (hn : n < 512) : SameBut s (s.ev n) := SameBut.raise s n _ hn

/-- Every place outside the event and pending-bit words reads after an occurrence as before. -/
theorem State.get_ev (s : State) (n : Nat) (l : Loc) (hn : n < 512) (hl : ¬ eventWord l.off) : (s.ev n).get l = s.get l := by
  simp only [State.get, (SameBut.ev s n hn).word _ hl]

/-! ### The event is pending afterwards -/

theorem evPend_off (n : Nat) : (evPend n).off = 0x100004 + (n * 0x20 + 0) := rfl
theorem evTagL_off (n : Nat) : (Reg.EVT_TAG_L_TAG.e n).off = 0x100008 + (n * 0x20 + 0) := rfl
theorem evTagM_off (n : Nat) : (Reg.EVT_TAG_M_TAG.e n).off = 0x10000C + (n * 0x20 + 0) := rfl
theorem evTagH_off (n : Nat) : (Reg.EVT_TAG_H_TAG.e n).off = 0x100010 + (n * 0x20 + 0) := rfl
theorem pba_off (v : Nat) : (Reg.MSIX_PBA_PEND.e (v / 32)).off = 0x88000 + (v / 32 * 4 + 0) := rfl

/-- Every pending event stays pending. -/
def PendKept (s t : State) : Prop := ∀ m, s.on (evPend m) = true → t.on (evPend m) = true

theorem PendKept.rfl' (s : State) : PendKept s s := fun _ h => h
theorem PendKept.trans {a b c : State} (h : PendKept a b) (k : PendKept b c) : PendKept a c := fun m x => k m (h m x)
theorem PendKept.cond {s a b : State} (c : Bool) (ha : PendKept s a) (hb : PendKept s b) : PendKept s (bif c then a else b) := by
  cases c <;> assumption

theorem PendKept.of_regs {s t : State} (h : t.regs = s.regs) : PendKept s t := by
  intro m x
  have e : t.get (evPend m) = s.get (evPend m) := by simp only [State.get, State.word, h]
  unfold State.on at x ⊢
  rw [e]; exact x

theorem PendKept.oapSpoil (s : State) (j k : Nat) : PendKept s (s.oapSpoil j k) := PendKept.of_regs (State.oapSpoil_regs ..)
theorem PendKept.evSubs (s : State) (n : Nat) : PendKept s (s.evSubs n) := PendKept.of_regs rfl
theorem PendKept.setLog (s : State) (l : List (Nat × Nat)) : PendKept s (s.setLog l) := PendKept.of_regs rfl

theorem PendKept.setCtl (s : State) (c : Control) : PendKept s { s with ctl := c } := PendKept.of_regs rfl

/-- A write outside every PEND bit keeps them. -/
theorem PendKept.put (s : State) (l : Loc) (v : Nat)
    (h : ∀ m, (evPend m).off ≠ l.off ∨ (l.lo + l.w ≤ 31)) : PendKept s (s.put l v) := by
  intro m x
  have e : (s.put l v).get (evPend m) = s.get (evPend m) := by
    apply State.get_put_other
    rcases h m with h | h
    · exact .inl h
    · refine .inr ⟨by omega, .inr ?_⟩
      show l.lo + l.w ≤ 31
      omega
  simpa [State.on, e] using x

theorem PendKept.put96 (s : State) (x y z : Loc) (v : Nat) (hx : ∀ m, (evPend m).off ≠ x.off) (hy : ∀ m, (evPend m).off ≠ y.off)
    (hz : ∀ m, (evPend m).off ≠ z.off) : PendKept s (s.put96 x y z v) := by
  unfold State.put96
  exact ((PendKept.put s x _ (fun m => .inl (hx m))).trans (PendKept.put _ y _ (fun m => .inl (hy m)))).trans
    (PendKept.put _ z _ (fun m => .inl (hz m)))

theorem PendKept.pend (s : State) (n : Nat) : PendKept s (s.flag (evPend n) true) := by
  intro m x
  by_cases h : (evPend m).off = (evPend n).off
  · have hm : m = n := by
      rw [evPend_off, evPend_off] at h
      omega
    subst hm
    exact State.on_flag_same _ _ _ (by show (31 : Nat) + 1 ≤ 32; omega) (by show (1 : Nat) ≤ 1; omega)
  · rw [State.on_flag_other _ _ _ _ (.inl h)]; exact x

theorem PendKept.foldl {β : Type} (f : State → β → State) (h : ∀ a b, PendKept a (f a b)) (l : List β) (s : State) :
    PendKept s (l.foldl f s) := by
  induction l generalizing s with
  | nil => exact PendKept.rfl' s
  | cons b l ih => exact (h s b).trans (ih _)

theorem PendKept.linePulse (s : State) (line tag : Nat) : PendKept s (s.linePulse line tag) := by
  refine PendKept.foldl _ (fun a u => PendKept.cond _ (PendKept.of_regs ?_) (PendKept.rfl' a)) _ s
  exact State.pushPulse_regs ..

theorem PendKept.evCount (s : State) (n : Nat) : PendKept s (s.evCount n) :=
  PendKept.cond _ (PendKept.put _ _ _ (fun _ => .inr (by decide : 30 + 1 ≤ 31)))
    (PendKept.put _ _ _ (fun _ => .inr (by decide : 0 + 16 ≤ 31)))

theorem PendKept.evTrig (s : State) (en : Bool) (n tag : Nat) : PendKept s (s.evTrig en n tag) :=
  PendKept.cond _ (PendKept.linePulse s _ tag) (PendKept.rfl' s)

theorem PendKept.tag (s : State) (n tag : Nat) :
    PendKept s (s.put96 (Reg.EVT_TAG_L_TAG.e n) (Reg.EVT_TAG_M_TAG.e n) (Reg.EVT_TAG_H_TAG.e n) tag) := by
  refine PendKept.put96 _ _ _ _ _ (fun m => ?_) (fun m => ?_) (fun m => ?_)
  · rw [evPend_off, evTagL_off]; omega
  · rw [evPend_off, evTagM_off]; omega
  · rw [evPend_off, evTagH_off]; omega

theorem PendKept.evHold (s : State) (n tag : Nat) :
    PendKept s (s.evHold n tag) ∧ (s.evHold n tag).on (evPend n) = true := by
  have h : (s.flag (evPend n) true).on (evPend n) = true :=
    State.on_flag_same _ _ _ (by decide : 31 + 1 ≤ 32) (by decide : 1 ≤ 1)
  exact ⟨(PendKept.pend s n).trans (PendKept.tag _ n tag), PendKept.tag _ n tag n h⟩

theorem PendKept.evMsix (s : State) (n : Nat) : PendKept s (s.evMsix n) := by
  refine PendKept.cond _ (PendKept.cond _ (PendKept.put _ _ _ (fun m => .inl ?_)) (PendKept.of_regs rfl)) (PendKept.rfl' s)
  have hv := vec_lt s n
  have hp := pba_off (s.get (Reg.EVT_CFG_VEC.e n))
  rw [evPend_off]
  simp only [hp]
  omega

/-- EV009 of each merged entry keeps what is pending. -/
theorem PendKept.merges (fuel : Nat) (ih : ∀ (s : State) (n tag : Nat), PendKept s (State.raiseCore fuel s n tag)) (tag k : Nat)
    (s : State) : PendKept s ((upto k).foldl (fun s _ => State.raiseCore fuel (s.oapSpoil 4 1) 9 tag) s) :=
  PendKept.foldl _ (fun a _ => (PendKept.oapSpoil a 4 1).trans (ih _ 9 tag)) _ s

theorem PendKept.raiseCore (fuel : Nat) : ∀ (s : State) (n tag : Nat), PendKept s (State.raiseCore fuel s n tag) := by
  induction fuel with
  | zero => intro s _ _; exact PendKept.rfl' s
  | succ fuel ih =>
    intro s n tag
    unfold State.raiseCore
    have ha := (PendKept.evCount s n).trans (PendKept.evTrig _ (s.on (evEn n)) n tag)
    have hd := ha.trans (PendKept.evHold _ n tag).1
    have he := hd.trans (PendKept.evMsix _ n)
    have hs := he.trans (PendKept.evSubs _ n)
    have ht := PendKept.cond (s.on (evPend n)) ha (PendKept.cond (!(((s.evCount n).evTrig (s.on (evEn n)) n tag).evHold n
      tag).on (evEn n)) hd (PendKept.cond (((((s.evCount n).evTrig (s.on (evEn n)) n tag).evHold n tag).evMsix n).on
      (Reg.EVT_CFG_TO_OAP.e n)) (hs.trans (PendKept.merges fuel ih tag (mergesIn n ((((s.evCount n).evTrig (s.on (evEn n)) n
      tag).evHold n tag).evMsix n).ctl.sessions) _)) he))
    exact PendKept.cond _ (PendKept.cond _ (ht.trans ((PendKept.setLog _ _).trans (ih _ 12 tag)))
      (ht.trans (PendKept.setLog _ _))) ht

theorem on_cond {a b : State} {l : Loc} (c : Bool) (ha : a.on l = true) (hb : b.on l = true) :
    (bif c then a else b).on l = true := by cases c <;> assumption

/-- The entry in the event log keeps what is pending. -/
theorem PendKept.logs (fuel : Nat) (c : Bool) (t : State) (n tag : Nat) :
    PendKept t (bif c then
      (bif le 4096 t.ctl.log.length then State.raiseCore fuel (t.setLog (t.ctl.log.drop 1 ++ [(n, tag)])) 12 tag
      else t.setLog (t.ctl.log ++ [(n, tag)])) else t) :=
  PendKept.cond _ (PendKept.cond _ ((PendKept.setLog _ _).trans (PendKept.raiseCore fuel _ 12 tag)) (PendKept.setLog _ _))
    (PendKept.rfl' t)

theorem State.raiseCore_pend (fuel : Nat) (s : State) (n tag : Nat) :
    (State.raiseCore (fuel + 1) s n tag).on (evPend n) = true := by
  unfold State.raiseCore
  have ha := (PendKept.evCount s n).trans (PendKept.evTrig _ (s.on (evEn n)) n tag)
  generalize (s.evCount n).evTrig (s.on (evEn n)) n tag = a at ha ⊢
  dsimp only
  refine PendKept.logs fuel _ _ n tag n ?_
  cases hp : s.on (evPend n)
  · rw [cond_false]
    have hd := (PendKept.evHold a n tag).2
    generalize a.evHold n tag = d at hd ⊢
    have he := PendKept.evMsix d n n hd
    generalize d.evMsix n = e at he ⊢
    exact on_cond _ hd (on_cond _ (PendKept.merges fuel (PendKept.raiseCore fuel) tag _ _ n (PendKept.evSubs e n n he)) he)
  · rw [cond_true]
    exact ha n hp

/-- After an occurrence of event `n`, whatever was pending is pending, and so is `n`. -/
theorem PendKept.raise (s : State) (n tag : Nat) : PendKept s (s.raise n tag) ∧ (s.raise n tag).on (evPend n) = true :=
  ⟨PendKept.raiseCore 8 s n tag, State.raiseCore_pend 7 s n tag⟩

@[simp] theorem State.ev_pend (s : State) (n : Nat) : (s.ev n).on (evPend n) = true := (PendKept.raise s n _).2

theorem State.ev_keeps_pend (s : State) (n m : Nat) (h : s.on (evPend m) = true) : (s.ev n).on (evPend m) = true :=
  (PendKept.raise s n _).1 m h

end Sys2Proof.Machine
end

