-- ==== Sys2Proof/Laws/Keeps.lean ====
section
/-!
SUPPORT. What every operation of the model keeps: the canonical form of the register table and of memory, and the queue of
waiting commands. The lemmas of the other files of Laws/Keeps say it of each operation in turn.
-/
namespace Sys2Proof.Machine

/-- `s` has come from `o` by operations that keep the canonical form and leave the queue alone. -/
structure Keeps (o s : State) : Prop where
  tidy : o.tidy → s.tidy
  pending : s.pending = o.pending

/-- A command's outcome is a next state, which keeps both. -/
def KeepsRes (o : State) (r : Res) : Prop := ∃ t, r = .next t ∧ Keeps o t

theorem Keeps.refl (s : State) : Keeps s s := ⟨id, rfl⟩

/-- Two states with the registers, memory and queue of one another keep the same. -/
theorem Keeps.of {o s t : State} (h : Keeps o s) (hr : t.regs = s.regs) (hm : t.mem = s.mem) (hp : t.pending = s.pending) :
    Keeps o t := by
  refine ⟨fun c => ?_, hp.trans h.pending⟩
  have := h.tidy c
  simpa only [State.tidy, hr, hm] using this

/-- A record update that leaves registers, memory and queue. -/
theorem Keeps.mk' {o s : State} (h : Keeps o s) {fc ou ct tb ing fr fi de tu ad cl pw tr ms rc xs tl dm st pa ds sm se cd} :
    Keeps o (State.mk s.regs fc ou ct tb ing fr fi de tu ad cl pw tr s.mem ms rc xs tl dm st pa ds sm se cd s.pending) :=
  h.of rfl rfl rfl

/-- A record update of registers and memory. -/
theorem Keeps.mkAll {o s : State} (h : Keeps o s) {r m} (hr : twf resetWord s.regs = true → twf resetWord r = true)
    (hm : Memory.wf s.mem = true → Memory.wf m = true) {fc ou ct tb ing fr fi de tu ad cl pw tr ms rc xs tl dm st pa ds sm se cd} :
    Keeps o (State.mk r fc ou ct tb ing fr fi de tu ad cl pw tr m ms rc xs tl dm st pa ds sm se cd s.pending) :=
  ⟨fun c => ⟨hr (h.tidy c).1, hm (h.tidy c).2⟩, h.pending⟩

theorem Keeps.cond {o a b : State} {c : Bool} (ha : Keeps o a) (hb : Keeps o b) : Keeps o (bif c then a else b) := by
  cases c <;> assumption

theorem Keeps.ite {o a b : State} {c : Prop} [Decidable c] (ha : Keeps o a) (hb : Keeps o b) : Keeps o (if c then a else b) := by
  split <;> assumption

theorem Keeps.cond_fst {α : Type} {o : State} {a b : State × α} {c : Bool} (ha : Keeps o a.1) (hb : Keeps o b.1) :
    Keeps o (bif c then a else b).1 := by
  cases c <;> assumption

theorem Keeps.ite_fst {α : Type} {o : State} {a b : State × α} {c : Prop} [Decidable c] (ha : Keeps o a.1) (hb : Keeps o b.1) :
    Keeps o (if c then a else b).1 := by
  split <;> assumption

theorem Keeps.foldl {β : Type} {o s : State} {f : State → β → State} {l : List β} (h : Keeps o s)
    (hf : ∀ s b, Keeps o s → Keeps o (f s b)) : Keeps o (l.foldl f s) := by
  induction l generalizing s with
  | nil => exact h
  | cons b l ih => exact ih (hf s b h)

theorem Keeps.foldl_fst {α β : Type} {o : State} {p : State × α} {f : State × α → β → State × α} {l : List β} (h : Keeps o p.1)
    (hf : ∀ q b, Keeps o q.1 → Keeps o (f q b).1) : Keeps o (l.foldl f p).1 := by
  induction l generalizing p with
  | nil => exact h
  | cons b l ih => exact ih (hf p b h)

theorem Keeps.foldr {β : Type} {o s : State} {f : β → State → State} {l : List β} (h : Keeps o s)
    (hf : ∀ b s, Keeps o s → Keeps o (f b s)) : Keeps o (l.foldr f s) := by
  induction l with
  | nil => exact h
  | cons b l ih => exact hf b _ ih

theorem Keeps.of_pair {α : Type} {o a : State} {p : State × α} {b : α} (h : Keeps o p.1) (e : p = (a, b)) : Keeps o a := by
  subst e
  exact h

theorem Keeps.of_res {o t : State} {r : Res} (h : KeepsRes o r) (e : r = .next t) : Keeps o t := by
  obtain ⟨u, hu, k⟩ := h
  cases hu.symm.trans e
  exact k

theorem Keeps.via' {G : Prop} {o x : State} (h : Keeps o x) (f : Keeps o x → G) : G := f h

theorem KeepsRes.next {o s : State} (h : Keeps o s) : KeepsRes o (.next s) := ⟨s, rfl, h⟩

theorem KeepsRes.cond {o : State} {a b : Res} {c : Bool} (ha : KeepsRes o a) (hb : KeepsRes o b) :
    KeepsRes o (bif c then a else b) := by
  cases c <;> assumption

theorem KeepsRes.ite {o : State} {a b : Res} {c : Prop} [Decidable c] (ha : KeepsRes o a) (hb : KeepsRes o b) :
    KeepsRes o (if c then a else b) := by
  split <;> assumption

theorem KeepsRes.of_next {o s : State} (h : KeepsRes o (.next s)) : Keeps o s := by
  obtain ⟨t, ht, k⟩ := h
  cases ht
  exact k

theorem twf_filter {α : Type} [DecidableEq α] (d : Nat → α) (p : Nat × α → Bool) (m : Tbl α) (h : twf d m = true) :
    twf d (m.filter p) = true := by
  have go : ∀ (m : Tbl α) (a : Nat), twfFrom d a m = true → twfFrom d a (m.filter p) = true := by
    intro m
    induction m with
    | nil => intro a h; exact h
    | cons e m ih =>
      intro a h
      simp only [twfFrom, Bool.and_eq_true, decide_eq_true_eq] at h
      rw [List.filter_cons]
      split
      · simp only [twfFrom, Bool.and_eq_true, decide_eq_true_eq]
        exact ⟨h.1, ih _ h.2⟩
      · exact ih _ (twfFrom_mono d m (Nat.le_succ_of_le h.1.1) h.2)
  exact go m 0 h

theorem twf_foldl {α β : Type} [DecidableEq α] {d : Nat → α} {f : Tbl α → β → Tbl α} (l : List β)
    (hf : ∀ t b, twf d t = true → twf d (f t b) = true) : ∀ t : Tbl α, twf d t = true → twf d (l.foldl f t) = true := by
  induction l with
  | nil => intro t h; exact h
  | cons b l ih => intro t h; exact ih _ (hf t b h)

theorem Memory.write_wf (m : Memory) (a : Nat) (b : Byte) (h : m.wf = true) : (m.write a b).wf = true := twf_tset _ _ _ _ h

theorem Memory.writeAll_wf (bs : List Byte) : ∀ (m : Memory) (a : Nat), m.wf = true → (m.writeAll a bs).wf = true := by
  induction bs with
  | nil => intro m a h; exact h
  | cons b bs ih => intro m a h; exact ih _ _ (Memory.write_wf m a b h)

theorem Memory.discard_wf (m : Memory) (a n : Nat) (h : m.wf = true) : (Memory.discard m a n).wf = true := twf_filter _ _ _ h

theorem Memory.foldl_wf {β : Type} {f : Memory → β → Memory} (l : List β) (hf : ∀ m b, m.wf = true → (f m b).wf = true) :
    ∀ m : Memory, m.wf = true → (l.foldl f m).wf = true := by
  induction l with
  | nil => intro m h; exact h
  | cons b l ih => intro m h; exact ih _ (hf m b h)

theorem State.reset_tidy : State.reset.tidy := ⟨rfl, rfl⟩
end Sys2Proof.Machine
end

