-- ==== Sys2Proof/Laws/KeepsOps.lean ====
section
/-!
SUPPORT. Every operation of Machine/Ops.lean keeps the canonical forms and the queue.
-/
namespace Sys2Proof.Machine

theorem State.setWord_keeps {orig : State} (s : State) (o : Nat) (v : Word) (h_s : Keeps orig s) : Keeps orig (State.setWord s o v) := by
  exact h_s.mkAll (twf_tset _ _ _ _) id

theorem State.put_keeps {orig : State} (s : State) (l : Loc) (v : Nat) (h_s : Keeps orig s) : Keeps orig (State.put s l v) := by
  unfold State.put
  repeat' (first
    | with_reducible assumption
    | with_reducible apply State.setWord_keeps)

theorem State.putI_keeps {orig : State} (s : State) (l : Loc) (v : Int) (h_s : Keeps orig s) : Keeps orig (State.putI s l v) := by
  unfold State.putI
  repeat' (first
    | with_reducible assumption
    | with_reducible apply State.put_keeps)

theorem State.flag_keeps {orig : State} (s : State) (l : Loc) (b : Bool) (h_s : Keeps orig s) : Keeps orig (State.flag s l b) := by
  unfold State.flag
  repeat' (first
    | with_reducible assumption
    | with_reducible apply State.put_keeps)

theorem State.put64_keeps {orig : State} (s : State) (lo : Loc) (hi : Loc) (v : Nat) (h_s : Keeps orig s) : Keeps orig (State.put64 s lo hi v) := by
  unfold State.put64
  repeat' (first
    | with_reducible assumption
    | with_reducible apply State.put_keeps)

theorem State.put96_keeps {orig : State} (s : State) (l : Loc) (m : Loc) (h : Loc) (v : Nat) (h_s : Keeps orig s) : Keeps orig (State.put96 s l m h v) := by
  unfold State.put96
  repeat' (first
    | with_reducible assumption
    | with_reducible apply State.put_keeps)

theorem State.count_keeps {orig : State} (s : State) (l : Loc) (k : Nat) (h_s : Keeps orig s) : Keeps orig (State.count s l k) := by
  unfold State.count
  repeat' (first
    | with_reducible assumption
    | with_reducible apply State.put_keeps)

theorem State.wrap_keeps {orig : State} (s : State) (l : Loc) (k : Nat) (h_s : Keeps orig s) : Keeps orig (State.wrap s l k) := by
  unfold State.wrap
  repeat' (first
    | with_reducible assumption
    | with_reducible apply State.put_keeps)

theorem State.count64_keeps {orig : State} (s : State) (lo : Loc) (hi : Loc) (k : Nat) (h_s : Keeps orig s) : Keeps orig (State.count64 s lo hi k) := by
  unfold State.count64
  repeat' (first
    | with_reducible assumption
    | with_reducible apply State.put64_keeps)

theorem State.emit_keeps {orig : State} (s : State) (x : Out) (h_s : Keeps orig s) : Keeps orig (State.emit s x) := by
  unfold State.emit
  repeat' (first
    | (with_reducible apply Keeps.mk'; with_reducible assumption))

theorem State.took_keeps {orig : State} (s : State) (h_s : Keeps orig s) : Keeps orig (State.took s) := by
  unfold State.took
  repeat' (first
    | (with_reducible apply Keeps.mk'; with_reducible assumption))

theorem State.sendMsix_keeps {orig : State} (s : State) (v : Nat) (h_s : Keeps orig s) : Keeps orig (State.sendMsix s v) := by
  unfold State.sendMsix
  repeat' (first
    | with_reducible assumption
    | with_reducible apply State.flag_keeps
    | with_reducible apply State.emit_keeps
    | with_reducible apply Keeps.cond)

theorem State.setObj_keeps {orig : State} (s : State) (i : Nat) (j : Nat) (v : Nat) (h_s : Keeps orig s) : Keeps orig (State.setObj s i j v) := by
  unfold State.setObj
  repeat' (first
    | (extract_lets +onlyGivenNames x; clear_value x)
    | (with_reducible apply Keeps.mk'; with_reducible assumption))

theorem State.oapSpoil_keeps {orig : State} (s : State) (j : Nat) (k : Nat) (h_s : Keeps orig s) : Keeps orig (State.oapSpoil s j k) := by
  unfold State.oapSpoil
  repeat' (first
    | with_reducible assumption
    | with_reducible apply State.setObj_keeps)

theorem State.setUnit_keeps {orig : State} (s : State) (u : Nat) (x : TrigUnit) (h_s : Keeps orig s) : Keeps orig (State.setUnit s u x) := by
  unfold State.setUnit
  repeat' (first
    | (extract_lets +onlyGivenNames x; clear_value x)
    | (with_reducible apply Keeps.mk'; with_reducible assumption))

theorem State.pushPulse_keeps {orig : State} (s : State) (u : Nat) (tag : Nat) (tq : Nat) (h_s : Keeps orig s) : Keeps orig (State.pushPulse s u tag tq) := by
  unfold State.pushPulse
  repeat' (first
    | with_reducible assumption
    | with_reducible apply State.setUnit_keeps)

theorem State.linePulse_keeps {orig : State} (s : State) (line : Nat) (tag : Nat) (h_s : Keeps orig s) : Keeps orig (State.linePulse s line tag) := by
  unfold State.linePulse
  repeat' (first
    | with_reducible assumption
    | intro x
    | with_reducible apply State.pushPulse_keeps
    | with_reducible apply Keeps.cond
    | with_reducible apply Keeps.foldl)

theorem State.evCount_keeps {orig : State} (s : State) (n : Nat) (h_s : Keeps orig s) : Keeps orig (State.evCount s n) := by
  unfold State.evCount
  repeat' (first
    | with_reducible assumption
    | with_reducible apply State.flag_keeps
    | with_reducible apply State.put_keeps
    | with_reducible apply Keeps.cond)

theorem State.evTrig_keeps {orig : State} (s : State) (en : Bool) (n : Nat) (tag : Nat) (h_s : Keeps orig s) : Keeps orig (State.evTrig s en n tag) := by
  unfold State.evTrig
  repeat' (first
    | with_reducible assumption
    | with_reducible apply State.linePulse_keeps
    | with_reducible apply Keeps.cond)

theorem State.evHold_keeps {orig : State} (s : State) (n : Nat) (tag : Nat) (h_s : Keeps orig s) : Keeps orig (State.evHold s n tag) := by
  unfold State.evHold
  repeat' (first
    | with_reducible assumption
    | with_reducible apply State.put96_keeps
    | with_reducible apply State.flag_keeps)

theorem State.evMsix_keeps {orig : State} (s : State) (n : Nat) (h_s : Keeps orig s) : Keeps orig (State.evMsix s n) := by
  unfold State.evMsix
  repeat' (first
    | with_reducible assumption
    | with_reducible apply State.sendMsix_keeps
    | with_reducible apply Keeps.cond)

theorem State.evSubs_keeps {orig : State} (s : State) (n : Nat) (h_s : Keeps orig s) : Keeps orig (State.evSubs s n) := by
  unfold State.evSubs
  repeat' (first
    | (extract_lets +onlyGivenNames x; clear_value x)
    | (with_reducible apply Keeps.mk'; with_reducible assumption))

theorem State.setLog_keeps {orig : State} (s : State) (l : List (Nat × Nat)) (h_s : Keeps orig s) : Keeps orig (State.setLog s l) := by
  unfold State.setLog
  repeat' (first
    | (extract_lets +onlyGivenNames x; clear_value x)
    | (with_reducible apply Keeps.mk'; with_reducible assumption))

theorem State.raiseCore_keeps {orig : State} (y0 : Nat) (y1 : State) (y2 : Nat) (y3 : Nat) (h_y1 : Keeps orig y1) : Keeps orig (State.raiseCore y0 y1 y2 y3) := by
  induction y0 generalizing y1 y2 y3 with
  | zero =>
  rw [State.raiseCore]
  repeat' (first
    | with_reducible assumption
    | intro x
    | with_reducible apply State.evCount_keeps
    | with_reducible apply State.evTrig_keeps
    | with_reducible apply State.evHold_keeps
    | with_reducible apply State.evMsix_keeps
    | with_reducible apply State.oapSpoil_keeps
    | with_reducible apply State.evSubs_keeps
    | with_reducible apply State.setLog_keeps
    | with_reducible apply Keeps.cond
    | with_reducible apply Keeps.foldl
    | (extract_lets +onlyGivenNames x; refine Keeps.via' (o := orig) (x := x) ?_ (fun hx => ?_); rotate_left; clear_value x; rotate_right; subst x)
    | (extract_lets +onlyGivenNames x; clear_value x))
  | succ k ih =>
  rw [State.raiseCore]
  repeat' (first
    | with_reducible assumption
    | with_reducible apply ih
    | intro x
    | with_reducible apply State.evCount_keeps
    | with_reducible apply State.evTrig_keeps
    | with_reducible apply State.evHold_keeps
    | with_reducible apply State.evMsix_keeps
    | with_reducible apply State.oapSpoil_keeps
    | with_reducible apply State.evSubs_keeps
    | with_reducible apply State.setLog_keeps
    | with_reducible apply Keeps.cond
    | with_reducible apply Keeps.foldl
    | (extract_lets +onlyGivenNames x; refine Keeps.via' (o := orig) (x := x) ?_ (fun hx => ?_); rotate_left; clear_value x; rotate_right; subst x)
    | (extract_lets +onlyGivenNames x; clear_value x))

theorem State.raise_keeps {orig : State} (s : State) (n : Nat) (tag : Nat) (h_s : Keeps orig s) : Keeps orig (State.raise s n tag) := by
  unfold State.raise
  repeat' (first
    | with_reducible assumption
    | with_reducible apply State.raiseCore_keeps
    | with_reducible apply State.setLog_keeps
    | with_reducible apply Keeps.cond)

theorem State.deliver_keeps {orig : State} (s : State) (n : Nat) (h_s : Keeps orig s) : Keeps orig (State.deliver s n) := by
  unfold State.deliver
  repeat' (first
    | with_reducible assumption
    | intro x
    | with_reducible apply State.evMsix_keeps
    | with_reducible apply State.oapSpoil_keeps
    | with_reducible apply State.raise_keeps
    | with_reducible apply State.evSubs_keeps
    | with_reducible apply Keeps.cond
    | with_reducible apply Keeps.foldl
    | (extract_lets +onlyGivenNames x; refine Keeps.via' (o := orig) (x := x) ?_ (fun hx => ?_); rotate_left; clear_value x; rotate_right; subst x)
    | (extract_lets +onlyGivenNames x; clear_value x))

theorem State.capture_keeps {orig : State} (s : State) (b : Blk) (kind : Nat) (o : Nat) (h_s : Keeps orig s) : Keeps orig (State.capture s b kind o) := by
  unfold State.capture
  repeat' (first
    | with_reducible assumption
    | with_reducible apply State.put_keeps
    | with_reducible apply Keeps.cond)

theorem State.badAccess_keeps {orig : State} (s : State) (b : Option Blk) (tag : Nat) (h_s : Keeps orig s) : Keeps orig (State.badAccess s b tag) := by
  unfold State.badAccess
  repeat' (first
    | with_reducible assumption
    | with_reducible apply State.flag_keeps
    | with_reducible apply State.raise_keeps
    | split)

theorem State.liveIgnored_keeps {orig : State} (s : State) (b : Blk) (o : Nat) (tag : Nat) (h_s : Keeps orig s) : Keeps orig (State.liveIgnored s b o tag) := by
  unfold State.liveIgnored
  repeat' (first
    | with_reducible assumption
    | with_reducible apply State.raise_keeps
    | with_reducible apply State.flag_keeps
    | with_reducible apply State.capture_keeps)

theorem State.frozenIgnored_keeps {orig : State} (s : State) (b : Blk) (o : Nat) (tag : Nat) (h_s : Keeps orig s) : Keeps orig (State.frozenIgnored s b o tag) := by
  unfold State.frozenIgnored
  repeat' (first
    | with_reducible assumption
    | with_reducible apply State.raise_keeps
    | with_reducible apply State.flag_keeps
    | with_reducible apply State.capture_keeps)

theorem State.lockIgnored_keeps {orig : State} (s : State) (b : Blk) (o : Nat) (tag : Nat) (h_s : Keeps orig s) : Keeps orig (State.lockIgnored s b o tag) := by
  unfold State.lockIgnored
  repeat' (first
    | with_reducible assumption
    | with_reducible apply State.raise_keeps
    | with_reducible apply State.flag_keeps
    | with_reducible apply State.capture_keeps)

theorem State.swapWord_keeps {orig : State} (b : Blk) (s : State) (o : Nat) (h_s : Keeps orig s) : Keeps orig (State.swapWord b s o) := by
  unfold State.swapWord
  repeat' (first
    | with_reducible assumption
    | with_reducible apply State.setWord_keeps)

theorem State.swapWhere_keeps {orig : State} (s : State) (b : Blk) (p : Nat → Bool) (h_s : Keeps orig s) : Keeps orig (State.swapWhere s b p) := by
  unfold State.swapWhere
  repeat' (first
    | with_reducible assumption
    | intro x
    | with_reducible apply State.swapWord_keeps
    | with_reducible apply Keeps.foldl)

end Sys2Proof.Machine
end

