-- ==== Sys2Proof/Laws/KeepsTime.lean ====
section
/-!
SUPPORT. Every operation of Machine/Time.lean keeps the canonical forms and the queue.
-/
namespace Sys2Proof.Machine

theorem State.ev_keeps {orig : State} (s : State) (n : Nat) (h_s : Keeps orig s) : Keeps orig (State.ev s n) := by
  unfold State.ev
  repeat' (first
    | with_reducible assumption
    | with_reducible apply State.raise_keeps)

theorem State.bad_keeps {orig : State} (s : State) (b : Blk) (h_s : Keeps orig s) : Keeps orig (State.bad s b) := by
  unfold State.bad
  repeat' (first
    | with_reducible assumption
    | with_reducible apply State.badAccess_keeps)

theorem State.slowEdge_keeps {orig : State} (s : State) (h_s : Keeps orig s) : Keeps orig (State.slowEdge s) := by
  unfold State.slowEdge
  repeat' (first
    | with_reducible assumption
    | (with_reducible apply Keeps.mk'; with_reducible assumption))

theorem State.keepEdge_keeps {orig : State} (s : State) (h_s : Keeps orig s) : Keeps orig (State.keepEdge s) := by
  unfold State.keepEdge
  repeat' (first
    | with_reducible assumption
    | (with_reducible apply Keeps.mk'; with_reducible assumption))

theorem State.stampScale_keeps {orig : State} (s : State) (f : Nat) (h_s : Keeps orig s) : Keeps orig (State.stampScale s f).1 := by
  unfold State.stampScale
  repeat' (first
    | with_reducible assumption
    | with_reducible apply State.took_keeps
    | with_reducible apply Keeps.cond
    | with_reducible apply Keeps.ite
    | with_reducible apply Keeps.cond_fst
    | with_reducible apply Keeps.ite_fst
    | (extract_lets +onlyGivenNames x; refine Keeps.via' (o := orig) (x := x) ?_ (fun hx => ?_); rotate_left; clear_value x; rotate_right; subst x)
    | (extract_lets +onlyGivenNames x; refine Keeps.via' (o := orig) (x := x.1) ?_ (fun hx => ?_); rotate_left; clear_value x; rotate_right; subst x)
    | (extract_lets +onlyGivenNames x; clear_value x)
    | split)

theorem State.tqNote_keeps {orig : State} (s : State) (always : Bool) (h_s : Keeps orig s) : Keeps orig (State.tqNote s always) := by
  unfold State.tqNote
  repeat' (first
    | with_reducible assumption
    | with_reducible apply Keeps.cond
    | (extract_lets +onlyGivenNames x; refine Keeps.via' (o := orig) (x := x) ?_ (fun hx => ?_); rotate_left; clear_value x; rotate_right; subst x)
    | (extract_lets +onlyGivenNames x; clear_value x)
    | (with_reducible apply Keeps.mk'; with_reducible assumption)
    | (with_reducible apply Keeps.mk'; first | with_reducible apply Keeps.cond))

theorem State.tbSync_keeps {orig : State} (s : State) (h_s : Keeps orig s) : Keeps orig (State.tbSync s) := by
  unfold State.tbSync
  repeat' (first
    | with_reducible assumption
    | with_reducible apply State.tqNote_keeps
    | with_reducible apply State.put_keeps
    | with_reducible apply State.flag_keeps
    | with_reducible apply Keeps.cond
    | (extract_lets +onlyGivenNames x; refine Keeps.via' (o := orig) (x := x) ?_ (fun hx => ?_); rotate_left; clear_value x; rotate_right; subst x)
    | (extract_lets +onlyGivenNames x; clear_value x))

theorem State.tbSet_keeps {orig : State} (s : State) (t : TimeBase) (h_s : Keeps orig s) : Keeps orig (State.tbSet s t) := by
  unfold State.tbSet
  repeat' (first
    | with_reducible apply State.tbSync_keeps
    | (with_reducible apply Keeps.mk'; with_reducible assumption))

theorem State.armSet_keeps {orig : State} (s : State) (v : Nat) (o : Nat) (h_s : Keeps orig s) : Keeps orig (State.armSet s v o) := by
  unfold State.armSet
  repeat' (first
    | with_reducible assumption
    | with_reducible apply State.liveIgnored_keeps
    | with_reducible apply State.bad_keeps
    | with_reducible apply State.tbSet_keeps
    | with_reducible apply Keeps.cond
    | (extract_lets +onlyGivenNames x; clear_value x)
    | split)

theorem State.cancelSet_keeps {orig : State} (s : State) (h_s : Keeps orig s) : Keeps orig (State.cancelSet s) := by
  unfold State.cancelSet
  repeat' (first
    | with_reducible assumption
    | with_reducible apply State.tbSet_keeps)

theorem State.forceSleep_keeps {orig : State} (s : State) (c : Nat) (h_s : Keeps orig s) : Keeps orig (State.forceSleep s c) := by
  unfold State.forceSleep
  repeat' (first
    | with_reducible apply State.flag_keeps
    | with_reducible apply State.put_keeps
    | with_reducible apply State.ev_keeps
    | with_reducible apply Keeps.cond
    | (extract_lets +onlyGivenNames x; refine Keeps.via' (o := orig) (x := x) ?_ (fun hx => ?_); rotate_left; clear_value x; rotate_right; subst x)
    | (extract_lets +onlyGivenNames x; clear_value x)
    | (with_reducible apply Keeps.mk'; with_reducible assumption))

theorem State.frunSync_keeps {orig : State} (s : State) (h_s : Keeps orig s) : Keeps orig (State.frunSync s) := by
  unfold State.frunSync
  repeat' (first
    | with_reducible assumption
    | with_reducible apply State.put_keeps)

theorem State.auxTo_keeps {orig : State} (s : State) (k : Nat) (v : Nat) (h_s : Keeps orig s) : Keeps orig (State.auxTo s k v) := by
  unfold State.auxTo
  repeat' (first
    | with_reducible assumption
    | with_reducible apply State.put_keeps
    | with_reducible apply State.ev_keeps
    | with_reducible apply Keeps.cond)

theorem State.auxOff_keeps {orig : State} (s : State) (h_s : Keeps orig s) : Keeps orig (State.auxOff s) := by
  unfold State.auxOff
  repeat' (first
    | with_reducible assumption
    | with_reducible apply State.auxTo_keeps)

theorem State.auxSync_keeps {orig : State} (s : State) (h_s : Keeps orig s) : Keeps orig (State.auxSync s) := by
  unfold State.auxSync
  repeat' (first
    | with_reducible assumption
    | intro x
    | with_reducible apply State.auxOff_keeps
    | with_reducible apply State.auxTo_keeps
    | with_reducible apply Keeps.cond
    | with_reducible apply Keeps.foldl
    | (extract_lets +onlyGivenNames x; refine Keeps.via' (o := orig) (x := x) ?_ (fun hx => ?_); rotate_left; clear_value x; rotate_right; subst x)
    | (extract_lets +onlyGivenNames x; clear_value x))

theorem State.clkState_keeps {orig : State} (s : State) (v : Nat) (h_s : Keeps orig s) : Keeps orig (State.clkState s v) := by
  unfold State.clkState
  repeat' (first
    | with_reducible assumption
    | with_reducible apply State.put_keeps
    | with_reducible apply State.ev_keeps
    | with_reducible apply State.flag_keeps
    | with_reducible apply State.frunSync_keeps
    | with_reducible apply State.auxSync_keeps
    | with_reducible apply State.tbSync_keeps
    | with_reducible apply Keeps.cond
    | (extract_lets +onlyGivenNames x; refine Keeps.via' (o := orig) (x := x) ?_ (fun hx => ?_); rotate_left; clear_value x; rotate_right; subst x)
    | (extract_lets +onlyGivenNames x; clear_value x))

theorem State.enterBypass_keeps {orig : State} (s : State) (h_s : Keeps orig s) : Keeps orig (State.enterBypass s) := by
  unfold State.enterBypass
  repeat' (first
    | with_reducible assumption
    | with_reducible apply State.count_keeps
    | with_reducible apply State.clkState_keeps
    | with_reducible apply State.forceSleep_keeps
    | with_reducible apply Keeps.cond
    | (extract_lets +onlyGivenNames x; clear_value x)
    | (with_reducible apply Keeps.mk'; with_reducible apply State.ev_keeps))

theorem State.refCause_keeps {orig : State} (s : State) (h_s : Keeps orig s) : Keeps orig (State.refCause s) := by
  unfold State.refCause
  repeat' (first
    | with_reducible assumption
    | with_reducible apply State.clkState_keeps
    | with_reducible apply State.enterBypass_keeps
    | with_reducible apply Keeps.cond)

theorem State.moveInstants_keeps {orig : State} (s : State) (f : Nat → Nat) (h_s : Keeps orig s) : Keeps orig (State.moveInstants s f) := by
  unfold State.moveInstants
  repeat' (first
    | (extract_lets +onlyGivenNames x; clear_value x)
    | (with_reducible apply Keeps.mk'; with_reducible assumption))

theorem State.tbScale_keeps {orig : State} (s : State) (t : TimeBase) (h_s : Keeps orig s) : Keeps orig (State.tbScale s t) := by
  unfold State.tbScale
  repeat' (first
    | with_reducible assumption
    | with_reducible apply State.wrap_keeps
    | with_reducible apply State.tqNote_keeps
    | with_reducible apply State.tbSync_keeps
    | (extract_lets +onlyGivenNames x; refine Keeps.via' (o := orig) (x := x) ?_ (fun hx => ?_); rotate_left; clear_value x; rotate_right; subst x)
    | (extract_lets +onlyGivenNames x; clear_value x)
    | (with_reducible apply Keeps.mk'; with_reducible assumption)
    | (with_reducible apply Keeps.mk'; first | with_reducible apply State.wrap_keeps | with_reducible apply State.tqNote_keeps | with_reducible apply State.tbSync_keeps))

theorem State.timeStep_keeps {orig : State} (s : State) (d : Int) (h_s : Keeps orig s) : Keeps orig (State.timeStep s d) := by
  unfold State.timeStep
  repeat' (first
    | with_reducible assumption
    | with_reducible apply State.moveInstants_keeps
    | with_reducible apply State.tbScale_keeps
    | with_reducible apply State.ev_keeps
    | (extract_lets +onlyGivenNames x; refine Keeps.via' (o := orig) (x := x) ?_ (fun hx => ?_); rotate_left; clear_value x; rotate_right; subst x)
    | (extract_lets +onlyGivenNames x; clear_value x)
    | (with_reducible apply Keeps.mk'; with_reducible assumption)
    | (with_reducible apply Keeps.mk'; first | with_reducible apply State.moveInstants_keeps | with_reducible apply State.tbScale_keeps | with_reducible apply State.ev_keeps))

theorem State.tbStop_keeps {orig : State} (s : State) (h_s : Keeps orig s) : Keeps orig (State.tbStop s) := by
  unfold State.tbStop
  repeat' (first
    | with_reducible assumption
    | with_reducible apply State.tbSet_keeps)

theorem State.tbFirst_keeps {orig : State} (s : State) (h_s : Keeps orig s) : Keeps orig (State.tbFirst s) := by
  unfold State.tbFirst
  repeat' (first
    | with_reducible assumption
    | with_reducible apply State.tbSet_keeps
    | with_reducible apply State.tqNote_keeps
    | with_reducible apply Keeps.cond)

theorem State.tbStart_keeps {orig : State} (s : State) (h_s : Keeps orig s) : Keeps orig (State.tbStart s) := by
  unfold State.tbStart
  repeat' (first
    | with_reducible assumption
    | with_reducible apply State.tbFirst_keeps
    | with_reducible apply State.moveInstants_keeps
    | with_reducible apply State.tbScale_keeps
    | with_reducible apply State.ev_keeps
    | with_reducible apply Keeps.cond
    | (extract_lets +onlyGivenNames x; refine Keeps.via' (o := orig) (x := x) ?_ (fun hx => ?_); rotate_left; clear_value x; rotate_right; subst x)
    | (extract_lets +onlyGivenNames x; clear_value x))

theorem State.sysrefTo_keeps {orig : State} (s : State) (v : Bool) (h_s : Keeps orig s) : Keeps orig (State.sysrefTo s v) := by
  unfold State.sysrefTo
  repeat' (first
    | with_reducible assumption
    | with_reducible apply State.pulse_keeps
    | with_reducible apply State.emit_keeps
    | with_reducible apply Keeps.cond
    | (with_reducible apply Keeps.mk'; with_reducible assumption)
    | (with_reducible apply Keeps.mk'; first | with_reducible apply State.pulse_keeps | with_reducible apply State.emit_keeps | with_reducible apply Keeps.cond))

theorem State.sysrefEdge_keeps {orig : State} (s : State) (h_s : Keeps orig s) : Keeps orig (State.sysrefEdge s) := by
  unfold State.sysrefEdge
  repeat' (first
    | with_reducible assumption
    | with_reducible apply State.sysrefTo_keeps
    | with_reducible apply Keeps.cond
    | (extract_lets +onlyGivenNames x; refine Keeps.via' (o := orig) (x := x) ?_ (fun hx => ?_); rotate_left; clear_value x; rotate_right; subst x)
    | (extract_lets +onlyGivenNames x; clear_value x)
    | (with_reducible apply Keeps.mk'; with_reducible assumption)
    | (with_reducible apply Keeps.mk'; first | with_reducible apply State.sysrefTo_keeps | with_reducible apply Keeps.cond))

theorem State.tick_keeps {orig : State} (s : State) (h_s : Keeps orig s) : Keeps orig (State.tick s) := by
  unfold State.tick
  repeat' (first
    | with_reducible assumption
    | with_reducible apply State.took_keeps
    | with_reducible apply State.tbSet_keeps
    | with_reducible apply State.ev_keeps
    | with_reducible apply State.sysrefEdge_keeps
    | with_reducible apply Keeps.cond)

end Sys2Proof.Machine
end

