-- ==== Sys2Proof/Laws/KeepsGen.lean ====
section
/-!
SUPPORT. Every operation of Machine/Gen.lean keeps the canonical forms and the queue.
-/
namespace Sys2Proof.Machine

theorem State.freeze_keeps {orig : State} (v : Bool) (s : State) (b : Blk) (h_s : Keeps orig s) : Keeps orig (State.freeze v s b) := by
  unfold State.freeze
  repeat' (first
    | with_reducible assumption
    | with_reducible apply State.flag_keeps)

theorem State.pend_keeps {orig : State} (v : Bool) (s : State) (b : Blk) (h_s : Keeps orig s) : Keeps orig (State.pend v s b) := by
  unfold State.pend
  repeat' (first
    | with_reducible assumption
    | with_reducible apply State.flag_keeps
    | with_reducible apply State.freeze_keeps
    | split)

theorem State.admStart_keeps {orig : State} (s : State) (r : AdmRequest) (h_s : Keeps orig s) : Keeps orig (State.admStart s r) := by
  unfold State.admStart
  repeat' (first
    | with_reducible assumption
    | intro x
    | with_reducible apply State.pend_keeps
    | with_reducible apply State.put_keeps
    | with_reducible apply Keeps.foldl
    | (extract_lets +onlyGivenNames x; refine Keeps.via' (o := orig) (x := x) ?_ (fun hx => ?_); rotate_left; clear_value x; rotate_right; subst x)
    | (extract_lets +onlyGivenNames x; clear_value x)
    | (with_reducible apply Keeps.mk'; with_reducible assumption))

theorem State.admNext_keeps {orig : State} (s : State) (h_s : Keeps orig s) : Keeps orig (State.admNext s) := by
  unfold State.admNext
  repeat' (first
    | with_reducible assumption
    | with_reducible apply State.put_keeps
    | with_reducible apply State.admStart_keeps
    | with_reducible apply State.flag_keeps
    | (extract_lets +onlyGivenNames x; clear_value x)
    | split
    | (with_reducible apply Keeps.mk'; with_reducible assumption))

theorem State.genReached_keeps {orig : State} (s : State) (h_s : Keeps orig s) : Keeps orig (State.genReached s) := by
  unfold State.genReached
  repeat' (first
    | with_reducible assumption
    | with_reducible apply State.admNext_keeps
    | with_reducible apply State.ev_keeps
    | with_reducible apply State.put_keeps
    | with_reducible apply Keeps.cond)

theorem State.swapDone_keeps {orig : State} (s : State) (b : Blk) (h_s : Keeps orig s) : Keeps orig (State.swapDone s b) := by
  unfold State.swapDone
  repeat' (first
    | with_reducible assumption
    | with_reducible apply State.put_keeps
    | with_reducible apply State.genReached_keeps
    | (extract_lets +onlyGivenNames x; clear_value x)
    | (with_reducible apply Keeps.mk'; with_reducible apply State.freeze_keeps))

theorem State.swapElem_keeps {orig : State} (s : State) (b : Blk) (p : Nat → Bool) (f : State → State) (h_s : Keeps orig s) (h_f : ∀ a0, Keeps orig a0 → Keeps orig (f a0)) : Keeps orig (State.swapElem s b p f) := by
  unfold State.swapElem
  repeat' (first
    | with_reducible assumption
    | with_reducible apply h_f
    | with_reducible apply State.swapWhere_keeps
    | with_reducible apply State.swapDone_keeps
    | with_reducible apply Keeps.cond)

theorem State.calFail_keeps {orig : State} (s : State) (ops : List Nat) (states : List Nat) (n : Nat) (code : Nat) (h_s : Keeps orig s) : Keeps orig (State.calFail s ops states n code) := by
  unfold State.calFail
  repeat' (first
    | with_reducible assumption
    | with_reducible apply Keeps.cond
    | with_reducible apply Keeps.ite
    | (extract_lets +onlyGivenNames x; refine Keeps.via' (o := orig) (x := x) ?_ (fun hx => ?_); rotate_left; clear_value x; rotate_right; subst x)
    | (extract_lets +onlyGivenNames x; clear_value x)
    | split
    | (with_reducible apply Keeps.mk'; with_reducible assumption)
    | (with_reducible apply Keeps.mk'; first | with_reducible apply Keeps.cond | with_reducible apply Keeps.ite))

theorem State.calGap_keeps {orig : State} (s : State) (n : Nat) (h_s : Keeps orig s) : Keeps orig (State.calGap s n) := by
  unfold State.calGap
  repeat' (first
    | with_reducible assumption
    | with_reducible apply State.calFail_keeps)

theorem State.calSat_keeps {orig : State} (s : State) (n : Nat) (h_s : Keeps orig s) : Keeps orig (State.calSat s n) := by
  unfold State.calSat
  repeat' (first
    | with_reducible assumption
    | with_reducible apply State.calFail_keeps)

theorem State.calSwap_keeps {orig : State} (s : State) (op : Nat) (n : Nat) (h_s : Keeps orig s) : Keeps orig (State.calSwap s op n) := by
  unfold State.calSwap
  repeat' (first
    | with_reducible assumption
    | with_reducible apply State.calFail_keeps)

theorem State.trimsNew_keeps {orig : State} (s : State) (k : Nat) (h_s : Keeps orig s) : Keeps orig (State.trimsNew s k) := by
  unfold State.trimsNew
  repeat' (first
    | with_reducible assumption
    | intro x
    | with_reducible apply Keeps.cond_fst
    | with_reducible apply Keeps.ite_fst
    | (with_reducible apply Keeps.mk'; with_reducible assumption))

theorem State.trimsHeld_keeps {orig : State} (s : State) (k : Nat) (h_s : Keeps orig s) : Keeps orig (State.trimsHeld s k) := by
  unfold State.trimsHeld
  repeat' (first
    | with_reducible assumption
    | with_reducible apply State.trimsNew_keeps
    | with_reducible apply Keeps.cond
    | (with_reducible apply Keeps.mk'; with_reducible assumption)
    | (with_reducible apply Keeps.mk'; first | with_reducible apply State.trimsNew_keeps | with_reducible apply Keeps.cond))

theorem State.degrLoss_keeps {orig : State} (s : State) (b : Blk) (k : Nat) (h_s : Keeps orig s) : Keeps orig (State.degrLoss s b k) := by
  unfold State.degrLoss
  repeat' (first
    | with_reducible assumption
    | with_reducible apply State.count_keeps
    | with_reducible apply Keeps.cond)

theorem State.throttleSync_keeps {orig : State} (s : State) (h_s : Keeps orig s) : Keeps orig (State.throttleSync s) := by
  unfold State.throttleSync
  repeat' (first
    | with_reducible assumption
    | with_reducible apply State.flag_keeps
    | with_reducible apply State.ev_keeps
    | with_reducible apply Keeps.cond)

theorem State.degrTime_keeps {orig : State} (s : State) (h_s : Keeps orig s) : Keeps orig (State.degrTime s) := by
  unfold State.degrTime
  repeat' (first
    | with_reducible assumption
    | with_reducible apply State.count64_keeps
    | with_reducible apply Keeps.cond
    | (extract_lets +onlyGivenNames x; refine Keeps.via' (o := orig) (x := x) ?_ (fun hx => ?_); rotate_left; clear_value x; rotate_right; subst x)
    | (extract_lets +onlyGivenNames x; clear_value x)
    | split
    | (with_reducible apply Keeps.mk'; with_reducible assumption)
    | (with_reducible apply Keeps.mk'; first | with_reducible apply State.count64_keeps | with_reducible apply Keeps.cond))

theorem State.degrSync_keeps {orig : State} (s : State) (h_s : Keeps orig s) : Keeps orig (State.degrSync s) := by
  unfold State.degrSync
  repeat' (first
    | with_reducible assumption
    | with_reducible apply State.throttleSync_keeps
    | with_reducible apply State.flag_keeps
    | with_reducible apply State.count_keeps
    | with_reducible apply State.ev_keeps
    | with_reducible apply State.degrTime_keeps
    | with_reducible apply Keeps.cond
    | (extract_lets +onlyGivenNames x; refine Keeps.via' (o := orig) (x := x) ?_ (fun hx => ?_); rotate_left; clear_value x; rotate_right; subst x)
    | (extract_lets +onlyGivenNames x; clear_value x)
    | (with_reducible apply Keeps.mk'; with_reducible assumption)
    | (with_reducible apply Keeps.mk'; first | with_reducible apply State.throttleSync_keeps | with_reducible apply State.flag_keeps | with_reducible apply State.count_keeps | with_reducible apply State.ev_keeps | with_reducible apply State.degrTime_keeps | with_reducible apply Keeps.cond))

theorem State.retarget_keeps {orig : State} (s : State) (h_s : Keeps orig s) : Keeps orig (State.retarget s) := by
  unfold State.retarget
  repeat' (first
    | with_reducible assumption
    | with_reducible apply State.put_keeps
    | with_reducible apply State.clkState_keeps
    | with_reducible apply Keeps.cond)

end Sys2Proof.Machine
end

