-- ==== Sys2Proof/Laws/KeepsBus.lean ====
section
/-!
SUPPORT. Every operation of Machine/Bus.lean keeps the canonical forms and the queue.
-/
namespace Sys2Proof.Machine

theorem State.plainWrite_keeps {orig : State} (s : State) (b : Blk) (o : Nat) (v : Nat) (mask : Nat) (h_s : Keeps orig s) : Keeps orig (State.plainWrite s b o v mask) := by
  unfold State.plainWrite
  repeat' (first
    | with_reducible assumption
    | with_reducible apply State.bad_keeps
    | with_reducible apply State.setWord_keeps
    | with_reducible apply State.lockIgnored_keeps
    | with_reducible apply Keeps.cond)

theorem State.plainRead_keeps {orig : State} (s : State) (key : Nat) (b : Blk) (o : Nat) (h_s : Keeps orig s) : Keeps orig (State.plainRead s key b o).1 := by
  unfold State.plainRead
  repeat' (first
    | with_reducible assumption
    | with_reducible apply Keeps.cond_fst
    | (extract_lets +onlyGivenNames x; clear_value x)
    | (with_reducible apply Keeps.mk'; with_reducible assumption))

end Sys2Proof.Machine
end

