-- ==== Sys2Proof/Laws/KeepsClocks.lean ====
section
/-!
SUPPORT. Every operation of Machine/Clocks.lean keeps the canonical forms and the queue.
-/
namespace Sys2Proof.Machine

theorem State.applyClkRef_keeps {orig : State} (s : State) (w : Word) (h_s : Keeps orig s) : Keeps orig (State.applyClkRef s w) := by
  unfold State.applyClkRef
  repeat' (first
    | with_reducible assumption
    | with_reducible apply State.flag_keeps
    | with_reducible apply Keeps.cond
    | (extract_lets +onlyGivenNames x; refine Keeps.via' (o := orig) (x := x) ?_ (fun hx => ?_); rotate_left; clear_value x; rotate_right; subst x)
    | (extract_lets +onlyGivenNames x; clear_value x)
    | (with_reducible apply Keeps.mk'; with_reducible assumption)
    | (with_reducible apply Keeps.mk'; first | with_reducible apply State.flag_keeps | with_reducible apply Keeps.cond))

theorem execRelock_keeps {orig : State} (s : State) (h_s : Keeps orig s) : KeepsRes orig (execRelock s) := by
  unfold execRelock
  repeat' (first
    | with_reducible assumption
    | with_reducible apply State.enterBypass_keeps
    | with_reducible apply KeepsRes.next
    | with_reducible apply State.applyClkRef_keeps
    | with_reducible apply State.clkState_keeps
    | with_reducible apply State.bad_keeps
    | with_reducible apply Keeps.cond
    | (extract_lets +onlyGivenNames x; clear_value x)
    | (with_reducible apply Keeps.mk'; with_reducible apply State.applyClkRef_keeps))

theorem execBandcal_keeps {orig : State} (s : State) (h_s : Keeps orig s) : KeepsRes orig (execBandcal s) := by
  unfold execBandcal
  repeat' (first
    | with_reducible assumption
    | with_reducible apply KeepsRes.next
    | with_reducible apply State.bad_keeps
    | with_reducible apply Keeps.cond
    | (extract_lets +onlyGivenNames x; clear_value x)
    | (with_reducible apply Keeps.mk'; with_reducible assumption))

theorem execBandcalDone_keeps {orig : State} (entries : List Word) (s : State) (h_s : Keeps orig s) : KeepsRes orig (execBandcalDone entries s) := by
  unfold execBandcalDone
  repeat' (first
    | with_reducible assumption
    | intro x
    | with_reducible apply KeepsRes.next
    | with_reducible apply State.setWord_keeps
    | with_reducible apply State.ev_keeps
    | with_reducible apply Keeps.cond
    | with_reducible apply Keeps.foldl
    | (extract_lets +onlyGivenNames x; clear_value x)
    | (with_reducible apply Keeps.mk'; with_reducible assumption))

theorem execRootPllLock_keeps {orig : State} (ok : Bool) (s : State) (h_s : Keeps orig s) : KeepsRes orig (execRootPllLock ok s) := by
  unfold execRootPllLock
  repeat' (first
    | with_reducible assumption
    | with_reducible apply KeepsRes.next
    | with_reducible apply State.clkState_keeps
    | with_reducible apply State.put_keeps
    | with_reducible apply State.degrSync_keeps
    | with_reducible apply State.retarget_keeps
    | with_reducible apply State.tbFirst_keeps
    | with_reducible apply KeepsRes.cond
    | with_reducible apply KeepsRes.ite
    | with_reducible apply Keeps.cond
    | (extract_lets +onlyGivenNames x; refine Keeps.via' (o := orig) (x := x) ?_ (fun hx => ?_); rotate_left; clear_value x; rotate_right; subst x)
    | (extract_lets +onlyGivenNames x; clear_value x)
    | split
    | (with_reducible apply Keeps.mk'; with_reducible assumption)
    | (with_reducible apply Keeps.mk'; first | with_reducible apply State.clkState_keeps | with_reducible apply State.put_keeps | with_reducible apply State.degrSync_keeps | with_reducible apply State.retarget_keeps | with_reducible apply State.tbFirst_keeps | with_reducible apply Keeps.cond))

theorem execClockWalkStep_keeps {orig : State} (s : State) (h_s : Keeps orig s) : KeepsRes orig (execClockWalkStep s) := by
  unfold execClockWalkStep
  repeat' (first
    | with_reducible assumption
    | with_reducible apply KeepsRes.next
    | with_reducible apply State.clkState_keeps
    | with_reducible apply State.ev_keeps
    | with_reducible apply State.flag_keeps
    | with_reducible apply State.put_keeps
    | with_reducible apply State.frunSync_keeps
    | with_reducible apply State.degrSync_keeps
    | with_reducible apply Keeps.cond
    | (extract_lets +onlyGivenNames x; clear_value x)
    | split)

theorem execRefGlitch_keeps {orig : State} (s : State) (h_s : Keeps orig s) : KeepsRes orig (execRefGlitch s) := by
  unfold execRefGlitch
  repeat' (first
    | with_reducible assumption
    | with_reducible apply KeepsRes.next
    | with_reducible apply State.count_keeps
    | with_reducible apply State.ev_keeps
    | with_reducible apply Keeps.cond
    | (extract_lets +onlyGivenNames x; clear_value x)
    | (with_reducible apply Keeps.mk'; with_reducible apply State.count_keeps))

theorem execHoldoverExpiry_keeps {orig : State} (s : State) (h_s : Keeps orig s) : KeepsRes orig (execHoldoverExpiry s) := by
  unfold execHoldoverExpiry
  repeat' (first
    | with_reducible assumption
    | with_reducible apply KeepsRes.next
    | with_reducible apply State.enterBypass_keeps
    | with_reducible apply Keeps.cond)

theorem execPllLockLoss_keeps {orig : State} (s : State) (h_s : Keeps orig s) : KeepsRes orig (execPllLockLoss s) := by
  unfold execPllLockLoss
  repeat' (first
    | with_reducible assumption
    | with_reducible apply KeepsRes.next
    | with_reducible apply State.enterBypass_keeps
    | with_reducible apply State.count_keeps
    | with_reducible apply State.ev_keeps
    | with_reducible apply Keeps.cond)

theorem State.auxChoose_keeps {orig : State} (s : State) (k : Nat) (h_s : Keeps orig s) : Keeps orig (State.auxChoose s k) := by
  unfold State.auxChoose
  repeat' (first
    | with_reducible assumption
    | with_reducible apply State.put_keeps
    | (extract_lets +onlyGivenNames x; refine Keeps.via' (o := orig) (x := x) ?_ (fun hx => ?_); rotate_left; clear_value x; rotate_right; subst x)
    | (extract_lets +onlyGivenNames x; clear_value x)
    | split)

theorem State.auxRetune_keeps {orig : State} (s : State) (k : Nat) (h_s : Keeps orig s) : Keeps orig (State.auxRetune s k) := by
  unfold State.auxRetune
  repeat' (first
    | with_reducible assumption
    | with_reducible apply State.auxChoose_keeps
    | with_reducible apply State.auxTo_keeps
    | with_reducible apply Keeps.cond
    | (extract_lets +onlyGivenNames x; refine Keeps.via' (o := orig) (x := x) ?_ (fun hx => ?_); rotate_left; clear_value x; rotate_right; subst x)
    | (extract_lets +onlyGivenNames x; clear_value x))

theorem execAuxPllLock_keeps {orig : State} (k : Nat) (state : Nat) (s : State) (h_s : Keeps orig s) : KeepsRes orig (execAuxPllLock k state s) := by
  unfold execAuxPllLock
  repeat' (first
    | with_reducible assumption
    | with_reducible apply KeepsRes.next
    | with_reducible apply State.auxChoose_keeps
    | with_reducible apply State.auxTo_keeps
    | with_reducible apply KeepsRes.cond
    | with_reducible apply KeepsRes.ite
    | with_reducible apply Keeps.cond)

theorem execClkOutWrite_keeps {orig : State} (k : Nat) (v : Word) (s : State) (h_s : Keeps orig s) : KeepsRes orig (execClkOutWrite k v s) := by
  unfold execClkOutWrite
  repeat' (first
    | with_reducible assumption
    | with_reducible apply KeepsRes.next
    | (extract_lets +onlyGivenNames x; clear_value x)
    | (with_reducible apply Keeps.mk'; with_reducible apply State.setWord_keeps))

theorem execSysrefFire_keeps {orig : State} (s : State) (h_s : Keeps orig s) : KeepsRes orig (execSysrefFire s) := by
  unfold execSysrefFire
  repeat' (first
    | with_reducible assumption
    | with_reducible apply KeepsRes.next
    | with_reducible apply State.emit_keeps
    | with_reducible apply Keeps.cond
    | (extract_lets +onlyGivenNames x; clear_value x)
    | (with_reducible apply Keeps.mk'; with_reducible assumption))

end Sys2Proof.Machine
end

