-- ==== Sys2Proof/Laws/KeepsRecords.lean ====
section
/-!
SUPPORT. Every operation of Machine/Records.lean keeps the canonical forms and the queue.
-/
namespace Sys2Proof.Machine

theorem State.close_keeps {orig : State} (s : State) (st : Nat) (r : Record) (h_s : Keeps orig s) : Keeps orig (State.close s st r) := by
  unfold State.close
  repeat' (first
    | (with_reducible apply Keeps.mk'; with_reducible assumption))

theorem State.closeAll_keeps {orig : State} (s : State) (sts : List Nat) (r : Record) (h_s : Keeps orig s) : Keeps orig (State.closeAll s sts r) := by
  unfold State.closeAll
  repeat' (first
    | with_reducible assumption
    | intro x
    | with_reducible apply State.close_keeps
    | with_reducible apply Keeps.foldl)

end Sys2Proof.Machine
end

