-- ==== Sys2Proof/Laws/KeepsKeep.lean ====
section
/-!
SUPPORT. Every operation of Machine/Keep.lean keeps the canonical forms and the queue.
-/
namespace Sys2Proof.Machine

theorem State.keepWrite_keeps {orig : State} (s : State) (h_s : Keeps orig s) : Keeps orig (State.keepWrite s) := by
  unfold State.keepWrite
  repeat' (first
    | with_reducible apply Keeps.cond
    | (with_reducible apply Keeps.mk'; with_reducible assumption))

theorem State.keepLoad_keeps {orig : State} (s : State) (h_s : Keeps orig s) : Keeps orig (State.keepLoad s) := by
  unfold State.keepLoad
  repeat' (first
    | with_reducible assumption
    | intro x
    | with_reducible apply State.setObj_keeps
    | with_reducible apply State.put_keeps
    | with_reducible apply State.setWord_keeps
    | with_reducible apply Keeps.foldl
    | (extract_lets +onlyGivenNames x; clear_value x)
    | split
    | (with_reducible apply Keeps.mk'; with_reducible assumption))

theorem State.keepLose_keeps {orig : State} (s : State) (h_s : Keeps orig s) : Keeps orig (State.keepLose s) := by
  unfold State.keepLose
  repeat' (first
    | with_reducible assumption
    | intro x
    | with_reducible apply State.took_keeps
    | with_reducible apply State.setWord_keeps
    | with_reducible apply Keeps.foldl
    | (extract_lets +onlyGivenNames x; clear_value x)
    | (with_reducible apply Keeps.mk'; with_reducible assumption))

theorem State.restoreWord_keeps {orig : State} (t : Tbl Nat) (s : State) (o : Nat) (h_s : Keeps orig s) : Keeps orig (State.restoreWord t s o) := by
  unfold State.restoreWord
  repeat' (first
    | with_reducible assumption
    | with_reducible apply State.setWord_keeps)

theorem State.resetRecord_keeps {orig : State} (s : State) (cause : Nat) (h_s : Keeps orig s) : Keeps orig (State.resetRecord s cause) := by
  unfold State.resetRecord
  repeat' (first
    | with_reducible assumption
    | with_reducible apply State.took_keeps
    | with_reducible apply State.count_keeps
    | with_reducible apply State.put_keeps
    | with_reducible apply State.keepWrite_keeps
    | with_reducible apply Keeps.cond
    | (extract_lets +onlyGivenNames x; refine Keeps.via' (o := orig) (x := x) ?_ (fun hx => ?_); rotate_left; clear_value x; rotate_right; subst x)
    | (extract_lets +onlyGivenNames x; clear_value x)
    | split)

theorem State.resetFresh_keeps {orig : State} (s : State) (warm : Bool) (cause : Nat) (kept : Option (Tbl Nat) × Option (Tbl Nat)) (x : Security) (h_s : Keeps orig s) : Keeps orig (State.resetFresh s warm cause kept x) := by
  exact h_s.mkAll (fun _ => twf_foldl _ (fun t e h => by
    split
    · exact twf_tset _ _ _ _ h
    · exact h) [] rfl) (fun _ => rfl)

theorem State.partRegs_keeps {orig : State} (s : State) (h_s : Keeps orig s) : Keeps orig (State.partRegs s) := by
  unfold State.partRegs
  repeat' (first
    | with_reducible assumption
    | with_reducible apply State.flag_keeps
    | with_reducible apply State.put_keeps
    | with_reducible apply Keeps.cond
    | (extract_lets +onlyGivenNames x; refine Keeps.via' (o := orig) (x := x) ?_ (fun hx => ?_); rotate_left; clear_value x; rotate_right; subst x)
    | (extract_lets +onlyGivenNames x; clear_value x))

theorem State.dieReset_keeps {orig : State} (s : State) (cause : Nat) (h_s : Keeps orig s) : Keeps orig (State.dieReset s cause) := by
  unfold State.dieReset
  repeat' (first
    | with_reducible assumption
    | with_reducible apply State.took_keeps
    | with_reducible apply State.resetRecord_keeps
    | with_reducible apply State.resetFresh_keeps
    | with_reducible apply State.partRegs_keeps
    | with_reducible apply State.keepLoad_keeps
    | with_reducible apply State.flag_keeps
    | with_reducible apply State.ev_keeps
    | with_reducible apply Keeps.cond
    | (extract_lets +onlyGivenNames x; refine Keeps.via' (o := orig) (x := x) ?_ (fun hx => ?_); rotate_left; clear_value x; rotate_right; subst x)
    | (extract_lets +onlyGivenNames x; clear_value x))

theorem State.startFree_keeps {orig : State} (s : State) (h_s : Keeps orig s) : Keeps orig (State.startFree s) := by
  unfold State.startFree
  repeat' (first
    | with_reducible assumption
    | with_reducible apply State.put_keeps
    | with_reducible apply Keeps.cond
    | (extract_lets +onlyGivenNames x; refine Keeps.via' (o := orig) (x := x) ?_ (fun hx => ?_); rotate_left; clear_value x; rotate_right; subst x)
    | (with_reducible apply Keeps.mk'; with_reducible assumption))

end Sys2Proof.Machine
end

