-- ==== Sys2Proof/Laws/KeepsMemory.lean ====
section
/-!
SUPPORT. Every operation of Machine/Memory.lean keeps the canonical forms and the queue.
-/
namespace Sys2Proof.Machine

theorem State.setRemap_keeps {orig : State} (s : State) (u : Nat) (r : Remap) (h_s : Keeps orig s) : Keeps orig (State.setRemap s u r) := by
  unfold State.setRemap
  repeat' (first
    | (extract_lets +onlyGivenNames x; clear_value x)
    | (with_reducible apply Keeps.mk'; with_reducible assumption))

theorem State.memEv_keeps {orig : State} (s : State) (h : Nat) (k : Nat) (h_s : Keeps orig s) : Keeps orig (State.memEv s h k) := by
  unfold State.memEv
  repeat' (first
    | with_reducible assumption
    | with_reducible apply State.ev_keeps)

theorem State.setStored_keeps {orig : State} (s : State) (p : Nat) (st : Nat) (h_s : Keeps orig s) : Keeps orig (State.setStored s p st) := by
  unfold State.setStored
  repeat' (first
    | (extract_lets +onlyGivenNames x; clear_value x)
    | (with_reducible apply Keeps.mk'; with_reducible assumption))

theorem State.rankTo_keeps {orig : State} (s : State) (p : Nat) (st : Nat) (h_s : Keeps orig s) : Keeps orig (State.rankTo s p st) := by
  unfold State.rankTo
  repeat' (first
    | with_reducible assumption
    | intro x
    | with_reducible apply State.put_keeps
    | with_reducible apply State.setStored_keeps
    | with_reducible apply State.memEv_keeps
    | (extract_lets +onlyGivenNames x; refine Keeps.via' (o := orig) (x := x) ?_ (fun hx => ?_); rotate_left; clear_value x; rotate_right; subst x)
    | (extract_lets +onlyGivenNames x; clear_value x))

theorem State.askMigration_keeps {orig : State} (s : State) (p : Nat) (h_s : Keeps orig s) : Keeps orig (State.askMigration s p) := by
  unfold State.askMigration
  repeat' (first
    | with_reducible assumption
    | with_reducible apply Keeps.cond
    | (extract_lets +onlyGivenNames x; clear_value x)
    | (with_reducible apply Keeps.mk'; with_reducible assumption))

theorem State.pokeAll_keeps {orig : State} (s : State) (a : Nat) (bs : List Byte) (h_s : Keeps orig s) : Keeps orig (State.pokeAll s a bs) := by
  unfold State.pokeAll
  apply Keeps.cond
  · extract_lets lostAt m whole src s2
    have h2 : Keeps orig s2 := h_s.mkAll id (Memory.foldl_wf _ (fun m c h => Memory.write_wf m _ _ h) _)
    exact Keeps.cond (State.count_keeps _ _ _ h2) h2
  · exact h_s.mkAll id (Memory.writeAll_wf _ _ _)

theorem State.eccCorrected_keeps {orig : State} (s : State) (p : Nat) (k : Nat) (h_s : Keeps orig s) : Keeps orig (State.eccCorrected s p k) := by
  unfold State.eccCorrected
  repeat' (first
    | with_reducible assumption
    | with_reducible apply State.count_keeps
    | with_reducible apply State.memEv_keeps
    | with_reducible apply Keeps.cond)

theorem State.logUe_keeps {orig : State} (s : State) (a : Nat) (src : Nat) (h_s : Keeps orig s) : Keeps orig (State.logUe s a src) := by
  unfold State.logUe
  repeat' (first
    | with_reducible assumption
    | with_reducible apply State.flag_keeps
    | with_reducible apply State.put_keeps
    | with_reducible apply State.put64_keeps
    | with_reducible apply Keeps.cond)

theorem State.uncorrectable_keeps {orig : State} (s : State) (a : Nat) (src : Nat) (h_s : Keeps orig s) : Keeps orig (State.uncorrectable s a src) := by
  unfold State.uncorrectable
  repeat' (first
    | with_reducible assumption
    | with_reducible apply State.askMigration_keeps
    | with_reducible apply State.logUe_keeps
    | with_reducible apply State.memEv_keeps
    | with_reducible apply State.count_keeps
    | with_reducible apply Keeps.cond
    | (extract_lets +onlyGivenNames x; clear_value x)
    | (with_reducible apply Keeps.mk'; with_reducible assumption))

theorem State.zeroWord_keeps {orig : State} (s : State) (w : Nat) (h_s : Keeps orig s) : Keeps orig (State.zeroWord s w) := by
  exact h_s.mkAll id (Memory.writeAll_wf _ _ _)

theorem State.setWaiting_keeps {orig : State} (s : State) (l : List Nat) (h_s : Keeps orig s) : Keeps orig (State.setWaiting s l) := by
  unfold State.setWaiting
  repeat' (first
    | (extract_lets +onlyGivenNames x; clear_value x)
    | (with_reducible apply Keeps.mk'; with_reducible assumption))

theorem State.setMig_keeps {orig : State} (s : State) (x : Nat × Nat × Option Nat) (h_s : Keeps orig s) : Keeps orig (State.setMig s x) := by
  unfold State.setMig
  repeat' (first
    | (extract_lets +onlyGivenNames x; clear_value x)
    | (with_reducible apply Keeps.mk'; with_reducible assumption))

theorem State.sramError_keeps {orig : State} (s : State) (a : Nat) (bad : Nat) (h_s : Keeps orig s) : Keeps orig (State.sramError s a bad) := by
  unfold State.sramError
  repeat' (first
    | with_reducible assumption
    | with_reducible apply State.count_keeps
    | with_reducible apply State.zeroWord_keeps
    | with_reducible apply State.memEv_keeps
    | with_reducible apply State.logUe_keeps
    | with_reducible apply Keeps.cond)

theorem State.setRow_keeps {orig : State} (s : State) (rank : Nat) (bank : Nat) (r : Option Nat) (h_s : Keeps orig s) : Keeps orig (State.setRow s rank bank r) := by
  unfold State.setRow
  repeat' (first
    | (extract_lets +onlyGivenNames x; clear_value x)
    | (with_reducible apply Keeps.mk'; with_reducible assumption))

theorem State.setOwed_keeps {orig : State} (s : State) (rank : Nat) (bank : Nat) (k : Nat) (h_s : Keeps orig s) : Keeps orig (State.setOwed s rank bank k) := by
  unfold State.setOwed
  repeat' (first
    | (extract_lets +onlyGivenNames x; clear_value x)
    | (with_reducible apply Keeps.mk'; with_reducible assumption))

theorem State.hbmDo_keeps {orig : State} (s : State) (q : HbmReq) (h_s : Keeps orig s) : Keeps orig (State.hbmDo s q) := by
  unfold State.hbmDo
  repeat' (first
    | with_reducible assumption
    | intro x
    | with_reducible apply State.setRow_keeps
    | with_reducible apply State.bad_keeps
    | with_reducible apply State.eccCorrected_keeps
    | with_reducible apply State.uncorrectable_keeps
    | with_reducible apply State.pokeAll_keeps
    | with_reducible apply Keeps.cond
    | (extract_lets +onlyGivenNames x; refine Keeps.via' (o := orig) (x := x) ?_ (fun hx => ?_); rotate_left; clear_value x; rotate_right; subst x)
    | (extract_lets +onlyGivenNames x; clear_value x)
    | (with_reducible apply Keeps.mk'; with_reducible assumption)
    | (with_reducible apply Keeps.mk'; first | with_reducible apply State.setRow_keeps | with_reducible apply State.bad_keeps | with_reducible apply State.eccCorrected_keeps | with_reducible apply State.uncorrectable_keeps | with_reducible apply State.pokeAll_keeps | with_reducible apply Keeps.cond))

theorem State.hbmServe_keeps {orig : State} (s : State) (y0 : Nat) (y1 : Bool) (y2 : List (HbmReq × Nat)) (h_s : Keeps orig s) : Keeps orig (State.hbmServe s y0 y1 y2) := by
  induction y0 generalizing y1 y2 s with
  | zero =>
  rw [State.hbmServe]
  repeat' (first
    | with_reducible assumption
    | intro x
    | with_reducible apply State.hbmDo_keeps
    | with_reducible apply Keeps.cond
    | with_reducible apply Keeps.cond_fst
    | with_reducible apply Keeps.ite_fst
    | (extract_lets +onlyGivenNames x; refine Keeps.via' (o := orig) (x := x) ?_ (fun hx => ?_); rotate_left; clear_value x; rotate_right; subst x)
    | (extract_lets +onlyGivenNames x; refine Keeps.via' (o := orig) (x := x.1) ?_ (fun hx => ?_); rotate_left; clear_value x; rotate_right; subst x)
    | (extract_lets +onlyGivenNames x; clear_value x)
    | split)
  | succ k ih =>
  rw [State.hbmServe]
  repeat' (first
    | with_reducible assumption
    | with_reducible apply ih
    | intro x
    | with_reducible apply State.hbmDo_keeps
    | with_reducible apply Keeps.cond
    | with_reducible apply Keeps.cond_fst
    | with_reducible apply Keeps.ite_fst
    | (extract_lets +onlyGivenNames x; refine Keeps.via' (o := orig) (x := x) ?_ (fun hx => ?_); rotate_left; clear_value x; rotate_right; subst x)
    | (extract_lets +onlyGivenNames x; refine Keeps.via' (o := orig) (x := x.1) ?_ (fun hx => ?_); rotate_left; clear_value x; rotate_right; subst x)
    | (extract_lets +onlyGivenNames x; clear_value x)
    | split)

theorem State.hbmRun_keeps {orig : State} (s : State) (qs : List HbmReq) (h_s : Keeps orig s) : Keeps orig (State.hbmRun s qs) := by
  unfold State.hbmRun
  repeat' (first
    | with_reducible assumption
    | intro x
    | with_reducible apply State.hbmServe_keeps)

theorem execHbmAccess_keeps {orig : State} (write : Bool) (addr : Nat) (data : List Byte) (src : Nat) (badBytes : Nat) (s : State) (h_s : Keeps orig s) : KeepsRes orig (execHbmAccess write addr data src badBytes s) := by
  unfold execHbmAccess
  repeat' (first
    | with_reducible assumption
    | with_reducible apply KeepsRes.next
    | with_reducible apply State.pokeAll_keeps
    | with_reducible apply State.sramError_keeps
    | with_reducible apply State.hbmRun_keeps
    | with_reducible apply KeepsRes.cond
    | with_reducible apply KeepsRes.ite
    | with_reducible apply Keeps.cond
    | (with_reducible apply Keeps.mk'; with_reducible assumption)
    | (with_reducible apply Keeps.mk'; first | with_reducible apply State.pokeAll_keeps | with_reducible apply State.sramError_keeps | with_reducible apply State.hbmRun_keeps | with_reducible apply Keeps.cond))

theorem State.setRemapWord_keeps {orig : State} (s : State) (u : Nat) (x : Nat) (h_s : Keeps orig s) : Keeps orig (State.setRemapWord s u x) := by
  unfold State.setRemapWord
  repeat' (first
    | with_reducible assumption
    | with_reducible apply State.setRemap_keeps
    | with_reducible apply State.put_keeps
    | with_reducible apply Keeps.cond
    | (extract_lets +onlyGivenNames x; refine Keeps.via' (o := orig) (x := x) ?_ (fun hx => ?_); rotate_left; clear_value x; rotate_right; subst x)
    | (extract_lets +onlyGivenNames x; clear_value x)
    | split)

theorem State.release_keeps {orig : State} (s : State) (u : Nat) (h_s : Keeps orig s) : Keeps orig (State.release s u) := by
  unfold State.release
  repeat' (first
    | with_reducible assumption
    | intro x
    | with_reducible apply State.hbmRun_keeps
    | (extract_lets +onlyGivenNames x; refine Keeps.via' (o := orig) (x := x) ?_ (fun hx => ?_); rotate_left; clear_value x; rotate_right; subst x)
    | (extract_lets +onlyGivenNames x; clear_value x)
    | (with_reducible apply Keeps.mk'; with_reducible assumption)
    | (with_reducible apply Keeps.mk'; first | with_reducible apply State.hbmRun_keeps))

theorem execRowIdleClose_keeps {orig : State} (rank : Nat) (bank : Nat) (s : State) (h_s : Keeps orig s) : KeepsRes orig (execRowIdleClose rank bank s) := by
  unfold execRowIdleClose
  repeat' (first
    | with_reducible assumption
    | with_reducible apply KeepsRes.next
    | with_reducible apply State.setRow_keeps)

theorem execRefreshDue_keeps {orig : State} (rank : Nat) (bank : Nat) (free : Bool) (s : State) (h_s : Keeps orig s) : KeepsRes orig (execRefreshDue rank bank free s) := by
  unfold execRefreshDue
  repeat' (first
    | with_reducible assumption
    | with_reducible apply KeepsRes.next
    | with_reducible apply State.setOwed_keeps
    | with_reducible apply State.count_keeps
    | with_reducible apply State.setRow_keeps
    | with_reducible apply Keeps.cond)

theorem execPcPowerDown_keeps {orig : State} (pc : Nat) (selfRefresh : Bool) (s : State) (h_s : Keeps orig s) : KeepsRes orig (execPcPowerDown pc selfRefresh s) := by
  unfold execPcPowerDown
  repeat' (first
    | with_reducible assumption
    | with_reducible apply KeepsRes.next
    | with_reducible apply Keeps.cond
    | (extract_lets +onlyGivenNames x; clear_value x)
    | (with_reducible apply Keeps.mk'; with_reducible assumption))

theorem execScrubPass_keeps {orig : State} (rank : Nat) (corrected : Nat) (uncorrectable : List Nat) (s : State) (h_s : Keeps orig s) : KeepsRes orig (execScrubPass rank corrected uncorrectable s) := by
  unfold execScrubPass
  repeat' (first
    | with_reducible assumption
    | intro x
    | with_reducible apply KeepsRes.next
    | with_reducible apply State.eccCorrected_keeps
    | with_reducible apply State.uncorrectable_keeps
    | with_reducible apply State.askMigration_keeps
    | with_reducible apply Keeps.cond
    | with_reducible apply Keeps.foldl)

theorem execMemRetire_keeps {orig : State} (rank : Nat) (s : State) (h_s : Keeps orig s) : KeepsRes orig (execMemRetire rank s) := by
  unfold execMemRetire
  repeat' (first
    | with_reducible assumption
    | with_reducible apply KeepsRes.next
    | with_reducible apply State.askMigration_keeps
    | with_reducible apply State.bad_keeps
    | with_reducible apply Keeps.cond)

theorem execMemRestore_keeps {orig : State} (rank : Nat) (s : State) (h_s : Keeps orig s) : KeepsRes orig (execMemRestore rank s) := by
  unfold execMemRestore
  repeat' (first
    | with_reducible assumption
    | with_reducible apply KeepsRes.next
    | with_reducible apply State.rankTo_keeps
    | with_reducible apply State.bad_keeps
    | with_reducible apply Keeps.cond)

theorem execMigrationStart_keeps {orig : State} (s : State) (h_s : Keeps orig s) : KeepsRes orig (execMigrationStart s) := by
  unfold execMigrationStart
  repeat' (first
    | with_reducible assumption
    | with_reducible apply KeepsRes.next
    | with_reducible apply State.setWaiting_keeps
    | with_reducible apply State.put_keeps
    | with_reducible apply State.rankTo_keeps
    | with_reducible apply State.setMig_keeps
    | with_reducible apply Keeps.cond
    | (extract_lets +onlyGivenNames x; refine Keeps.via' (o := orig) (x := x) ?_ (fun hx => ?_); rotate_left; clear_value x; rotate_right; subst x)
    | (extract_lets +onlyGivenNames x; clear_value x)
    | split)

theorem State.migrationEnds_keeps {orig : State} (s : State) (u : Nat) (p : Nat) (q : Option Nat) (h_s : Keeps orig s) : Keeps orig (State.migrationEnds s u p q) := by
  unfold State.migrationEnds
  repeat' (first
    | with_reducible assumption
    | with_reducible apply State.put_keeps
    | with_reducible apply State.rankTo_keeps
    | with_reducible apply State.setRemap_keeps
    | with_reducible apply State.memEv_keeps
    | with_reducible apply State.wrap_keeps
    | (extract_lets +onlyGivenNames x; refine Keeps.via' (o := orig) (x := x) ?_ (fun hx => ?_); rotate_left; clear_value x; rotate_right; subst x)
    | (extract_lets +onlyGivenNames x; clear_value x)
    | split
    | (with_reducible apply Keeps.mk'; with_reducible assumption))

theorem execMigrationGrain_keeps {orig : State} (s : State) (h_s : Keeps orig s) : KeepsRes orig (execMigrationGrain s) := by
  unfold execMigrationGrain
  repeat' (first
    | with_reducible assumption
    | with_reducible apply KeepsRes.next
    | with_reducible apply State.put_keeps
    | with_reducible apply State.migrationEnds_keeps
    | with_reducible apply State.release_keeps
    | with_reducible apply KeepsRes.cond
    | with_reducible apply KeepsRes.ite
    | with_reducible apply Keeps.cond
    | (extract_lets +onlyGivenNames x; refine Keeps.via' (o := orig) (x := x) ?_ (fun hx => ?_); rotate_left; clear_value x; rotate_right; subst x)
    | (extract_lets +onlyGivenNames x; clear_value x)
    | split)

theorem State.pcPower_keeps {orig : State} (s : State) (v : Nat) (h_s : Keeps orig s) : Keeps orig (State.pcPower s v) := by
  unfold State.pcPower
  repeat' (first
    | with_reducible assumption
    | intro x
    | with_reducible apply Keeps.foldl
    | (with_reducible apply Keeps.mk'; with_reducible assumption)
    | (with_reducible apply Keeps.mk'; first | with_reducible apply Keeps.foldl))

theorem State.memWatch_keeps {orig : State} (s : State) (h_s : Keeps orig s) : Keeps orig (State.memWatch s) := by
  unfold State.memWatch
  repeat' (first
    | with_reducible assumption
    | with_reducible apply State.put_keeps
    | with_reducible apply State.pcPower_keeps
    | with_reducible apply Keeps.cond)

theorem State.memFull_keeps {orig : State} (s : State) (h_s : Keeps orig s) : Keeps orig (State.memFull s) := by
  unfold State.memFull
  repeat' (first
    | with_reducible assumption
    | with_reducible apply State.put_keeps
    | with_reducible apply State.pcPower_keeps
    | with_reducible apply Keeps.cond)

theorem State.hbmLost_keeps {orig : State} (s : State) (h_s : Keeps orig s) : Keeps orig (State.hbmLost s) := by
  exact h_s.mkAll id (fun _ => rfl)

theorem State.hbmFresh_keeps {orig : State} (s : State) (table : Tbl Remap) (h_s : Keeps orig s) : Keeps orig (State.hbmFresh s table) := by
  exact h_s.mkAll id (fun _ => rfl)

theorem State.memSleep_keeps {orig : State} (s : State) (h_s : Keeps orig s) : Keeps orig (State.memSleep s) := by
  unfold State.memSleep
  repeat' (first
    | with_reducible assumption
    | with_reducible apply State.hbmLost_keeps
    | with_reducible apply State.migrationEnds_keeps
    | (extract_lets +onlyGivenNames x; refine Keeps.via' (o := orig) (x := x) ?_ (fun hx => ?_); rotate_left; clear_value x; rotate_right; subst x)
    | split)

theorem State.memStart_keeps {orig : State} (s : State) (h_s : Keeps orig s) : Keeps orig (State.memStart s).1 := by
  unfold State.memStart
  repeat' (first
    | with_reducible assumption
    | intro x
    | with_reducible apply State.hbmFresh_keeps
    | with_reducible apply State.put_keeps
    | with_reducible apply State.put64_keeps
    | with_reducible apply State.setStored_keeps
    | with_reducible apply Keeps.cond
    | with_reducible apply Keeps.ite
    | with_reducible apply Keeps.cond_fst
    | with_reducible apply Keeps.ite_fst
    | with_reducible apply Keeps.foldl
    | with_reducible apply Keeps.foldl_fst
    | (extract_lets +onlyGivenNames x; refine Keeps.via' (o := orig) (x := x) ?_ (fun hx => ?_); rotate_left; clear_value x; rotate_right; subst x)
    | (extract_lets +onlyGivenNames x; refine Keeps.via' (o := orig) (x := x.1) ?_ (fun hx => ?_); rotate_left; clear_value x; rotate_right; subst x)
    | (extract_lets +onlyGivenNames x; clear_value x)
    | split)

end Sys2Proof.Machine
end

