-- ==== Sys2Proof/Laws/KeepsLink.lean ====
section
/-!
SUPPORT. Every operation of Machine/Link.lean keeps the canonical forms and the queue.
-/
namespace Sys2Proof.Machine

theorem State.linkSync_keeps {orig : State} (s : State) (h_s : Keeps orig s) : Keeps orig (State.linkSync s) := by
  unfold State.linkSync
  repeat' (first
    | with_reducible assumption
    | intro x
    | with_reducible apply State.put_keeps
    | with_reducible apply State.flag_keeps
    | with_reducible apply State.ev_keeps
    | with_reducible apply Keeps.cond
    | (extract_lets +onlyGivenNames x; refine Keeps.via' (o := orig) (x := x) ?_ (fun hx => ?_); rotate_left; clear_value x; rotate_right; subst x)
    | (extract_lets +onlyGivenNames x; clear_value x))

theorem State.lanesTo_keeps {orig : State} (s : State) (v : Nat) (h_s : Keeps orig s) : Keeps orig (State.lanesTo s v) := by
  unfold State.lanesTo
  repeat' (first
    | with_reducible assumption
    | intro x
    | with_reducible apply State.put_keeps
    | with_reducible apply State.ev_keeps
    | with_reducible apply State.linkSync_keeps
    | with_reducible apply Keeps.cond
    | with_reducible apply Keeps.foldl)

theorem State.sendCell_keeps {orig : State} (s : State) (type : Nat) (cls : Nat) (content : List Byte) (h_s : Keeps orig s) : Keeps orig (State.sendCell s type cls content) := by
  unfold State.sendCell
  repeat' (first
    | with_reducible assumption
    | with_reducible apply State.emit_keeps
    | with_reducible apply Keeps.cond
    | (extract_lets +onlyGivenNames x; clear_value x)
    | (with_reducible apply Keeps.mk'; with_reducible assumption))

theorem State.sendNow_keeps {orig : State} (s : State) (type : Nat) (content : List Byte) (h_s : Keeps orig s) : Keeps orig (State.sendNow s type content) := by
  unfold State.sendNow
  repeat' (first
    | with_reducible assumption
    | with_reducible apply State.emit_keeps
    | (extract_lets +onlyGivenNames x; refine Keeps.via' (o := orig) (x := x) ?_ (fun hx => ?_); rotate_left; clear_value x; rotate_right; subst x)
    | (extract_lets +onlyGivenNames x; clear_value x)
    | (with_reducible apply Keeps.mk'; with_reducible assumption)
    | (with_reducible apply Keeps.mk'; first | with_reducible apply State.emit_keeps))

theorem State.sendReliable_keeps {orig : State} (s : State) (type : Nat) (content : List Byte) (h_s : Keeps orig s) : Keeps orig (State.sendReliable s type content) := by
  unfold State.sendReliable
  repeat' (first
    | with_reducible assumption
    | with_reducible apply State.ev_keeps
    | with_reducible apply State.sendNow_keeps
    | with_reducible apply Keeps.cond
    | (extract_lets +onlyGivenNames x; refine Keeps.via' (o := orig) (x := x) ?_ (fun hx => ?_); rotate_left; clear_value x; rotate_right; subst x)
    | (extract_lets +onlyGivenNames x; clear_value x)
    | (with_reducible apply Keeps.mk'; with_reducible assumption)
    | (with_reducible apply Keeps.mk'; first | with_reducible apply State.ev_keeps | with_reducible apply State.sendNow_keeps | with_reducible apply Keeps.cond))

theorem State.sendWaiting_keeps {orig : State} (y0 : Nat) (y1 : State) (h_y1 : Keeps orig y1) : Keeps orig (State.sendWaiting y0 y1) := by
  induction y0 generalizing y1 with
  | zero =>
  rw [State.sendWaiting]
  repeat' (first
    | with_reducible assumption
    | with_reducible apply State.sendNow_keeps
    | with_reducible apply Keeps.cond
    | with_reducible apply Keeps.cond_fst
    | with_reducible apply Keeps.ite_fst
    | split
    | (with_reducible apply Keeps.mk'; with_reducible assumption)
    | (with_reducible apply Keeps.mk'; first | with_reducible apply State.sendNow_keeps | with_reducible apply Keeps.cond))
  | succ k ih =>
  rw [State.sendWaiting]
  repeat' (first
    | with_reducible assumption
    | with_reducible apply ih
    | with_reducible apply State.sendNow_keeps
    | with_reducible apply Keeps.cond
    | with_reducible apply Keeps.cond_fst
    | with_reducible apply Keeps.ite_fst
    | split
    | (with_reducible apply Keeps.mk'; with_reducible assumption)
    | (with_reducible apply Keeps.mk'; first | with_reducible apply State.sendNow_keeps | with_reducible apply Keeps.cond))

theorem State.sendAck_keeps {orig : State} (s : State) (h_s : Keeps orig s) : Keeps orig (State.sendAck s) := by
  unfold State.sendAck
  repeat' (first
    | with_reducible assumption
    | with_reducible apply State.sendCell_keeps)

theorem State.cellIn_keeps {orig : State} (s : State) (ok : Bool) (f : State → State) (h_s : Keeps orig s) (h_f : ∀ a0, Keeps orig a0 → Keeps orig (f a0)) : Keeps orig (State.cellIn s ok f) := by
  unfold State.cellIn
  repeat' (first
    | with_reducible assumption
    | with_reducible apply h_f
    | with_reducible apply State.count_keeps
    | with_reducible apply Keeps.cond)

theorem State.reliableIn_keeps {orig : State} (s : State) (n : Nat) (ok : Bool) (f : State → State) (h_s : Keeps orig s) (h_f : ∀ a0, Keeps orig a0 → Keeps orig (f a0)) : Keeps orig (State.reliableIn s n ok f) := by
  unfold State.reliableIn
  repeat' (first
    | with_reducible assumption
    | intro x
    | with_reducible apply h_f
    | with_reducible apply State.cellIn_keeps
    | with_reducible apply State.sendAck_keeps
    | with_reducible apply Keeps.cond
    | (with_reducible apply Keeps.mk'; with_reducible assumption)
    | (with_reducible apply Keeps.mk'; first | with_reducible apply State.cellIn_keeps | with_reducible apply State.sendAck_keeps | with_reducible apply Keeps.cond))

theorem State.onceIn_keeps {orig : State} (s : State) (id : Nat) (ok : Bool) (f : State → State) (h_s : Keeps orig s) (h_f : ∀ a0, Keeps orig a0 → Keeps orig (f a0)) : Keeps orig (State.onceIn s id ok f) := by
  unfold State.onceIn
  repeat' (first
    | with_reducible assumption
    | intro x
    | with_reducible apply h_f
    | with_reducible apply State.cellIn_keeps
    | with_reducible apply Keeps.cond
    | (extract_lets +onlyGivenNames x; clear_value x)
    | (with_reducible apply Keeps.mk'; with_reducible assumption))

end Sys2Proof.Machine
end

