-- ==== Sys2Proof/Laws/KeepsQueue.lean ====
section
/-!
SUPPORT. Every operation of Machine/Queue.lean keeps the canonical forms and the queue.
-/
namespace Sys2Proof.Machine

theorem State.setStream_keeps {orig : State} (s : State) (st : Nat) (x : Stream) (h_s : Keeps orig s) : Keeps orig (State.setStream s st x) := by
  unfold State.setStream
  repeat' (first
    | (extract_lets +onlyGivenNames x; clear_value x)
    | (with_reducible apply Keeps.mk'; with_reducible assumption))

theorem State.setLadder_keeps {orig : State} (s : State) (st : Nat) (x : Ladder) (h_s : Keeps orig s) : Keeps orig (State.setLadder s st x) := by
  unfold State.setLadder
  repeat' (first
    | (extract_lets +onlyGivenNames x; clear_value x)
    | (with_reducible apply Keeps.mk'; with_reducible assumption))

theorem State.fillSync_keeps {orig : State} (s : State) (st : Nat) (h_s : Keeps orig s) : Keeps orig (State.fillSync s st) := by
  unfold State.fillSync
  repeat' (first
    | with_reducible assumption
    | with_reducible apply State.put_keeps)

theorem State.strTo_keeps {orig : State} (s : State) (st : Nat) (v : Nat) (h_s : Keeps orig s) : Keeps orig (State.strTo s st v) := by
  unfold State.strTo
  repeat' (first
    | with_reducible assumption
    | with_reducible apply State.put_keeps
    | with_reducible apply Keeps.cond)

theorem State.waitSync_keeps {orig : State} (s : State) (st : Nat) (h_s : Keeps orig s) : Keeps orig (State.waitSync s st) := by
  unfold State.waitSync
  repeat' (first
    | with_reducible assumption
    | with_reducible apply State.strTo_keeps
    | with_reducible apply Keeps.cond)

theorem State.setHostRing_keeps {orig : State} (s : State) (r : Nat) (x : HostRing) (h_s : Keeps orig s) : Keeps orig (State.setHostRing s r x) := by
  unfold State.setHostRing
  repeat' (first
    | (extract_lets +onlyGivenNames x; clear_value x)
    | (with_reducible apply Keeps.mk'; with_reducible assumption))

theorem State.ringStarve_keeps {orig : State} (s : State) (r : Nat) (h_s : Keeps orig s) : Keeps orig (State.ringStarve s r) := by
  unfold State.ringStarve
  repeat' (first
    | with_reducible assumption
    | with_reducible apply State.setHostRing_keeps
    | with_reducible apply State.ev_keeps
    | with_reducible apply State.flag_keeps
    | with_reducible apply Keeps.cond)

theorem State.setQueue_keeps {orig : State} (s : State) (st : Nat) (l : List QRec) (h_s : Keeps orig s) : Keeps orig (State.setQueue s st l) := by
  unfold State.setQueue
  repeat' (first
    | with_reducible assumption
    | intro x
    | with_reducible apply State.setStream_keeps
    | with_reducible apply State.fillSync_keeps
    | with_reducible apply State.ringStarve_keeps
    | with_reducible apply Keeps.cond_fst
    | with_reducible apply Keeps.ite_fst
    | with_reducible apply Keeps.foldl
    | with_reducible apply Keeps.foldl_fst
    | (extract_lets +onlyGivenNames x; refine Keeps.via' (o := orig) (x := x) ?_ (fun hx => ?_); rotate_left; clear_value x; rotate_right; subst x)
    | (extract_lets +onlyGivenNames x; refine Keeps.via' (o := orig) (x := x.1) ?_ (fun hx => ?_); rotate_left; clear_value x; rotate_right; subst x)
    | (extract_lets +onlyGivenNames x; clear_value x)
    | (with_reducible apply Keeps.mk'; with_reducible assumption)
    | (with_reducible apply Keeps.mk'; first | with_reducible apply State.setStream_keeps | with_reducible apply State.fillSync_keeps | with_reducible apply State.ringStarve_keeps | with_reducible apply Keeps.foldl))

theorem State.trgTaken_keeps {orig : State} (s : State) (st : Nat) (r : Record) (h_s : Keeps orig s) : Keeps orig (State.trgTaken s st r) := by
  unfold State.trgTaken
  repeat' (first
    | with_reducible assumption
    | with_reducible apply State.put_keeps
    | with_reducible apply Keeps.cond
    | (extract_lets +onlyGivenNames x; clear_value x)
    | (with_reducible apply Keeps.mk'; with_reducible assumption))

theorem State.tally_keeps {orig : State} (s : State) (st : Nat) (cause : Nat) (bytes : Nat) (prot : Bool) (h_s : Keeps orig s) : Keeps orig (State.tally s st cause bytes prot) := by
  unfold State.tally
  repeat' (first
    | with_reducible assumption
    | with_reducible apply State.count_keeps
    | with_reducible apply State.setStream_keeps)

theorem State.ladderDiscard_keeps {orig : State} (s : State) (st : Nat) (bytes : Nat) (h_s : Keeps orig s) : Keeps orig (State.ladderDiscard s st bytes) := by
  unfold State.ladderDiscard
  repeat' (first
    | with_reducible assumption
    | with_reducible apply State.count_keeps
    | with_reducible apply State.setLadder_keeps)

theorem State.enterAt_keeps {orig : State} (s : State) (st : Nat) (r : Record) (seq : Nat) (gen : Nat) (first : Bool) (order : Bool) (h_s : Keeps orig s) : Keeps orig (State.enterAt s st r seq gen first order) := by
  unfold State.enterAt
  repeat' (first
    | with_reducible assumption
    | with_reducible apply State.setQueue_keeps
    | with_reducible apply State.sendReliable_keeps
    | with_reducible apply Keeps.cond
    | with_reducible apply Keeps.cond_fst
    | with_reducible apply Keeps.ite_fst
    | (extract_lets +onlyGivenNames x; refine Keeps.via' (o := orig) (x := x) ?_ (fun hx => ?_); rotate_left; clear_value x; rotate_right; subst x)
    | (extract_lets +onlyGivenNames x; refine Keeps.via' (o := orig) (x := x.1) ?_ (fun hx => ?_); rotate_left; clear_value x; rotate_right; subst x)
    | (extract_lets +onlyGivenNames x; clear_value x))

theorem State.enter_keeps {orig : State} (s : State) (st : Nat) (r : Record) (h_s : Keeps orig s) : Keeps orig (State.enter s st r) := by
  unfold State.enter
  repeat' (first
    | with_reducible assumption
    | with_reducible apply State.setStream_keeps
    | with_reducible apply State.enterAt_keeps
    | with_reducible apply State.wrap_keeps
    | with_reducible apply Keeps.cond
    | (extract_lets +onlyGivenNames x; refine Keeps.via' (o := orig) (x := x) ?_ (fun hx => ?_); rotate_left; clear_value x; rotate_right; subst x)
    | (extract_lets +onlyGivenNames x; clear_value x)
    | (with_reducible apply Keeps.mk'; with_reducible assumption)
    | (with_reducible apply Keeps.mk'; first | with_reducible apply State.setStream_keeps | with_reducible apply State.enterAt_keeps | with_reducible apply State.wrap_keeps | with_reducible apply Keeps.cond))

theorem State.giveUp_keeps {orig : State} (s : State) (st : Nat) (cause : Nat) (keep : List QRec) (gone : List QRec) (h_s : Keeps orig s) : Keeps orig (State.giveUp s st cause keep gone) := by
  unfold State.giveUp
  repeat' (first
    | with_reducible assumption
    | intro x
    | with_reducible apply State.setStream_keeps
    | with_reducible apply State.setQueue_keeps
    | with_reducible apply State.tally_keeps
    | with_reducible apply State.trgTaken_keeps
    | with_reducible apply Keeps.foldl
    | (extract_lets +onlyGivenNames x; refine Keeps.via' (o := orig) (x := x) ?_ (fun hx => ?_); rotate_left; clear_value x; rotate_right; subst x)
    | (extract_lets +onlyGivenNames x; clear_value x)
    | (with_reducible apply Keeps.mk'; with_reducible assumption)
    | (with_reducible apply Keeps.mk'; first | with_reducible apply State.setStream_keeps | with_reducible apply State.setQueue_keeps | with_reducible apply State.tally_keeps | with_reducible apply State.trgTaken_keeps | with_reducible apply Keeps.foldl))

theorem State.strFail_keeps {orig : State} (s : State) (st : Nat) (cause : Nat) (h_s : Keeps orig s) : Keeps orig (State.strFail s st cause) := by
  unfold State.strFail
  repeat' (first
    | with_reducible assumption
    | with_reducible apply State.strTo_keeps
    | with_reducible apply State.setStream_keeps
    | with_reducible apply State.giveUp_keeps
    | with_reducible apply State.ev_keeps
    | (extract_lets +onlyGivenNames x; refine Keeps.via' (o := orig) (x := x) ?_ (fun hx => ?_); rotate_left; clear_value x; rotate_right; subst x)
    | (extract_lets +onlyGivenNames x; clear_value x)
    | (with_reducible apply Keeps.mk'; with_reducible assumption)
    | (with_reducible apply Keeps.mk'; first | with_reducible apply State.strTo_keeps | with_reducible apply State.setStream_keeps | with_reducible apply State.giveUp_keeps | with_reducible apply State.ev_keeps))

theorem State.wait_keeps {orig : State} (s : State) (st : Nat) (r : Record) (h_s : Keeps orig s) : Keeps orig (State.wait s st r) := by
  unfold State.wait
  repeat' (first
    | with_reducible assumption
    | with_reducible apply State.setStream_keeps
    | with_reducible apply State.tally_keeps
    | with_reducible apply State.strFail_keeps
    | with_reducible apply State.waitSync_keeps
    | with_reducible apply Keeps.cond)

theorem State.enterFirst_keeps {orig : State} (s : State) (st : Nat) (r : Record) (h_s : Keeps orig s) : Keeps orig (State.enterFirst s st r) := by
  unfold State.enterFirst
  repeat' (first
    | with_reducible assumption
    | with_reducible apply State.enter_keeps
    | with_reducible apply State.setStream_keeps
    | with_reducible apply State.waitSync_keeps
    | with_reducible apply Keeps.cond
    | (extract_lets +onlyGivenNames x; refine Keeps.via' (o := orig) (x := x) ?_ (fun hx => ?_); rotate_left; clear_value x; rotate_right; subst x)
    | (extract_lets +onlyGivenNames x; clear_value x)
    | (with_reducible apply Keeps.mk'; with_reducible assumption)
    | (with_reducible apply Keeps.mk'; first | with_reducible apply State.enter_keeps | with_reducible apply State.setStream_keeps | with_reducible apply State.waitSync_keeps | with_reducible apply Keeps.cond))

theorem State.declareLoss_keeps {orig : State} (s : State) (st : Nat) (h_s : Keeps orig s) : Keeps orig (State.declareLoss s st) := by
  unfold State.declareLoss
  repeat' (first
    | with_reducible assumption
    | with_reducible apply State.setStream_keeps
    | with_reducible apply State.enterFirst_keeps
    | split
    | (with_reducible apply Keeps.mk'; with_reducible assumption)
    | (with_reducible apply Keeps.mk'; first | with_reducible apply State.setStream_keeps | with_reducible apply State.enterFirst_keeps))

theorem State.declareDue_keeps {orig : State} (s : State) (st : Nat) (h_s : Keeps orig s) : Keeps orig (State.declareDue s st) := by
  unfold State.declareDue
  repeat' (first
    | with_reducible assumption
    | with_reducible apply State.declareLoss_keeps
    | with_reducible apply Keeps.cond
    | (extract_lets +onlyGivenNames x; refine Keeps.via' (o := orig) (x := x) ?_ (fun hx => ?_); rotate_left; clear_value x; rotate_right; subst x)
    | (extract_lets +onlyGivenNames x; clear_value x))

theorem State.rateRecord_keeps {orig : State} (s : State) (st : Nat) (old : Nat) (new_ : Nat) (reason : Nat) (h_s : Keeps orig s) : Keeps orig (State.rateRecord s st old new_ reason) := by
  unfold State.rateRecord
  repeat' (first
    | with_reducible assumption
    | with_reducible apply State.close_keeps
    | with_reducible apply State.setLadder_keeps)

theorem State.overflow_keeps {orig : State} (s : State) (st : Nat) (bytes : Nat) (h_s : Keeps orig s) : Keeps orig (State.overflow s st bytes) := by
  unfold State.overflow
  repeat' (first
    | with_reducible assumption
    | with_reducible apply State.ladderDiscard_keeps
    | with_reducible apply State.rateRecord_keeps
    | with_reducible apply State.ev_keeps
    | with_reducible apply State.flag_keeps
    | with_reducible apply Keeps.cond)

theorem State.compareDigest_keeps {orig : State} (s : State) (r : ShadowRec) (first : Bool) (st : Nat) (dg : Nat) (h_s : Keeps orig s) : Keeps orig (State.compareDigest s r first st dg) := by
  unfold State.compareDigest
  repeat' (first
    | with_reducible assumption
    | with_reducible apply State.count_keeps
    | with_reducible apply State.ev_keeps
    | with_reducible apply Keeps.cond)

theorem State.shadowAdd_keeps {orig : State} (s : State) (st : Nat) (r : ShadowRec) (h_s : Keeps orig s) : Keeps orig (State.shadowAdd s st r) := by
  unfold State.shadowAdd
  repeat' (first
    | with_reducible assumption
    | with_reducible apply State.setStream_keeps
    | (extract_lets +onlyGivenNames x; refine Keeps.via' (o := orig) (x := x) ?_ (fun hx => ?_); rotate_left; clear_value x; rotate_right; subst x)
    | (extract_lets +onlyGivenNames x; clear_value x)
    | (with_reducible apply Keeps.mk'; with_reducible assumption)
    | (with_reducible apply Keeps.mk'; first | with_reducible apply State.setStream_keeps))

theorem State.shadowTake_keeps {orig : State} (s : State) (st : Nat) (r : Record) (h_s : Keeps orig s) : Keeps orig (State.shadowTake s st r) := by
  unfold State.shadowTake
  repeat' (first
    | with_reducible assumption
    | intro x
    | with_reducible apply State.shadowAdd_keeps
    | with_reducible apply State.count_keeps
    | with_reducible apply State.compareDigest_keeps
    | with_reducible apply Keeps.cond
    | (extract_lets +onlyGivenNames x; refine Keeps.via' (o := orig) (x := x) ?_ (fun hx => ?_); rotate_left; clear_value x; rotate_right; subst x)
    | (extract_lets +onlyGivenNames x; clear_value x)
    | split
    | (with_reducible apply Keeps.mk'; with_reducible assumption)
    | (with_reducible apply Keeps.mk'; first | with_reducible apply State.shadowAdd_keeps | with_reducible apply State.count_keeps | with_reducible apply State.compareDigest_keeps | with_reducible apply Keeps.cond))

theorem State.reach_keeps {orig : State} (s : State) (st : Nat) (r : Record) (h_s : Keeps orig s) : Keeps orig (State.reach s st r) := by
  unfold State.reach
  repeat' (first
    | with_reducible assumption
    | with_reducible apply State.declareDue_keeps
    | with_reducible apply State.tally_keeps
    | with_reducible apply State.trgTaken_keeps
    | with_reducible apply State.shadowTake_keeps
    | with_reducible apply State.enter_keeps
    | with_reducible apply State.wait_keeps
    | with_reducible apply State.overflow_keeps
    | with_reducible apply Keeps.cond
    | (extract_lets +onlyGivenNames x; refine Keeps.via' (o := orig) (x := x) ?_ (fun hx => ?_); rotate_left; clear_value x; rotate_right; subst x)
    | (extract_lets +onlyGivenNames x; clear_value x))

theorem execRecordEnqueue_keeps {orig : State} (s : State) (h_s : Keeps orig s) : KeepsRes orig (execRecordEnqueue s) := by
  unfold execRecordEnqueue
  repeat' (first
    | with_reducible assumption
    | with_reducible apply KeepsRes.next
    | with_reducible apply State.reach_keeps
    | with_reducible apply Keeps.cond
    | split
    | (with_reducible apply Keeps.mk'; with_reducible assumption))

theorem execProtectedRecordEnter_keeps {orig : State} (st : Nat) (s : State) (h_s : Keeps orig s) : KeepsRes orig (execProtectedRecordEnter st s) := by
  unfold execProtectedRecordEnter
  repeat' (first
    | with_reducible assumption
    | with_reducible apply KeepsRes.next
    | with_reducible apply State.waitSync_keeps
    | with_reducible apply State.trgTaken_keeps
    | with_reducible apply State.enter_keeps
    | with_reducible apply State.setStream_keeps
    | with_reducible apply Keeps.cond
    | (extract_lets +onlyGivenNames x; clear_value x)
    | split)

theorem execStreamDeadTimeout_keeps {orig : State} (st : Nat) (s : State) (h_s : Keeps orig s) : KeepsRes orig (execStreamDeadTimeout st s) := by
  unfold execStreamDeadTimeout
  repeat' (first
    | with_reducible assumption
    | with_reducible apply KeepsRes.next
    | with_reducible apply State.strFail_keeps
    | with_reducible apply Keeps.cond)

theorem State.dequeue_keeps {orig : State} (s : State) (st : Nat) (q : QRec) (h_s : Keeps orig s) : Keeps orig (State.dequeue s st q) := by
  unfold State.dequeue
  repeat' (first
    | with_reducible assumption
    | with_reducible apply State.setStream_keeps
    | with_reducible apply State.setQueue_keeps
    | with_reducible apply Keeps.cond
    | (extract_lets +onlyGivenNames x; refine Keeps.via' (o := orig) (x := x) ?_ (fun hx => ?_); rotate_left; clear_value x; rotate_right; subst x)
    | (extract_lets +onlyGivenNames x; clear_value x)
    | (with_reducible apply Keeps.mk'; with_reducible assumption)
    | (with_reducible apply Keeps.mk'; first | with_reducible apply State.setStream_keeps | with_reducible apply State.setQueue_keeps | with_reducible apply Keeps.cond))

theorem State.memLoss_keeps {orig : State} (s : State) (st : Nat) (q : QRec) (h_s : Keeps orig s) : Keeps orig (State.memLoss s st q) := by
  unfold State.memLoss
  repeat' (first
    | with_reducible assumption
    | with_reducible apply State.count_keeps
    | with_reducible apply State.ev_keeps
    | with_reducible apply State.enterFirst_keeps
    | (extract_lets +onlyGivenNames x; refine Keeps.via' (o := orig) (x := x) ?_ (fun hx => ?_); rotate_left; clear_value x; rotate_right; subst x)
    | (extract_lets +onlyGivenNames x; clear_value x))

theorem State.memErr_keeps {orig : State} (s : State) (st : Nat) (q : QRec) (h_s : Keeps orig s) : Keeps orig (State.memErr s st q) := by
  unfold State.memErr
  repeat' (first
    | with_reducible assumption
    | with_reducible apply State.setQueue_keeps
    | with_reducible apply State.memLoss_keeps)

theorem State.blot_keeps {orig : State} (s : State) (st : Nat) (q : QRec) (ws : List BadWord) (h_s : Keeps orig s) : Keeps orig (State.blot s st q ws) := by
  unfold State.blot
  repeat' (first
    | with_reducible assumption
    | intro x
    | with_reducible apply State.setQueue_keeps
    | with_reducible apply State.memLoss_keeps
    | with_reducible apply Keeps.cond
    | with_reducible apply Keeps.ite
    | with_reducible apply Keeps.foldl
    | (extract_lets +onlyGivenNames x; refine Keeps.via' (o := orig) (x := x) ?_ (fun hx => ?_); rotate_left; clear_value x; rotate_right; subst x)
    | (extract_lets +onlyGivenNames x; clear_value x)
    | split
    | (with_reducible apply Keeps.mk'; with_reducible assumption)
    | (with_reducible apply Keeps.mk'; first | with_reducible apply State.setQueue_keeps | with_reducible apply State.memLoss_keeps | with_reducible apply Keeps.foldl | with_reducible apply Keeps.cond | with_reducible apply Keeps.ite))

theorem State.checkHead_keeps {orig : State} (bad : List BadWord) (st : Nat) (y0 : Nat) (y1 : State) (h_y1 : Keeps orig y1) : Keeps orig (State.checkHead bad st y0 y1) := by
  induction y0 generalizing y1 with
  | zero =>
  rw [State.checkHead]
  repeat' (first
    | with_reducible assumption
    | with_reducible apply State.memErr_keeps
    | with_reducible apply State.blot_keeps
    | with_reducible apply Keeps.cond
    | (extract_lets +onlyGivenNames x; refine Keeps.via' (o := orig) (x := x) ?_ (fun hx => ?_); rotate_left; clear_value x; rotate_right; subst x)
    | (extract_lets +onlyGivenNames x; clear_value x)
    | split)
  | succ k ih =>
  rw [State.checkHead]
  repeat' (first
    | with_reducible assumption
    | with_reducible apply ih
    | with_reducible apply State.memErr_keeps
    | with_reducible apply State.blot_keeps
    | with_reducible apply Keeps.cond
    | (extract_lets +onlyGivenNames x; refine Keeps.via' (o := orig) (x := x) ?_ (fun hx => ?_); rotate_left; clear_value x; rotate_right; subst x)
    | (extract_lets +onlyGivenNames x; clear_value x)
    | split)

theorem State.leaveFailed_keeps {orig : State} (s : State) (st : Nat) (v : Nat) (h_s : Keeps orig s) : Keeps orig (State.leaveFailed s st v) := by
  unfold State.leaveFailed
  repeat' (first
    | with_reducible assumption
    | with_reducible apply State.strTo_keeps
    | with_reducible apply State.setStream_keeps
    | with_reducible apply State.enter_keeps
    | with_reducible apply State.ev_keeps
    | (extract_lets +onlyGivenNames x; refine Keeps.via' (o := orig) (x := x) ?_ (fun hx => ?_); rotate_left; clear_value x; rotate_right; subst x)
    | (extract_lets +onlyGivenNames x; clear_value x)
    | (with_reducible apply Keeps.mk'; with_reducible assumption)
    | (with_reducible apply Keeps.mk'; first | with_reducible apply State.strTo_keeps | with_reducible apply State.setStream_keeps | with_reducible apply State.enter_keeps | with_reducible apply State.ev_keeps))

theorem execStreamFailedExit_keeps {orig : State} (st : Nat) (s : State) (h_s : Keeps orig s) : KeepsRes orig (execStreamFailedExit st s) := by
  unfold execStreamFailedExit
  repeat' (first
    | with_reducible assumption
    | with_reducible apply KeepsRes.next
    | with_reducible apply State.leaveFailed_keeps
    | with_reducible apply KeepsRes.cond
    | with_reducible apply KeepsRes.ite
    | with_reducible apply Keeps.cond
    | with_reducible apply Keeps.ite
    | split)

theorem State.diskFullEnd_keeps {orig : State} (s : State) (h_s : Keeps orig s) : Keeps orig (State.diskFullEnd s) := by
  unfold State.diskFullEnd
  repeat' (first
    | with_reducible assumption
    | intro x
    | with_reducible apply State.declareDue_keeps
    | with_reducible apply Keeps.cond_fst
    | with_reducible apply Keeps.ite_fst
    | with_reducible apply Keeps.foldl
    | with_reducible apply Keeps.foldl_fst)

theorem State.diskFull_keeps {orig : State} (s : State) (h_s : Keeps orig s) : Keeps orig (State.diskFull s) := by
  unfold State.diskFull
  repeat' (first
    | with_reducible assumption
    | intro x
    | with_reducible apply State.put_keeps
    | with_reducible apply State.ev_keeps
    | with_reducible apply State.giveUp_keeps
    | with_reducible apply State.waitSync_keeps
    | with_reducible apply Keeps.cond
    | with_reducible apply Keeps.cond_fst
    | with_reducible apply Keeps.ite_fst
    | with_reducible apply Keeps.foldl
    | with_reducible apply Keeps.foldl_fst
    | (extract_lets +onlyGivenNames x; refine Keeps.via' (o := orig) (x := x) ?_ (fun hx => ?_); rotate_left; clear_value x; rotate_right; subst x)
    | (extract_lets +onlyGivenNames x; refine Keeps.via' (o := orig) (x := x.1) ?_ (fun hx => ?_); rotate_left; clear_value x; rotate_right; subst x)
    | (extract_lets +onlyGivenNames x; clear_value x))

theorem execStreamDrained_keeps {orig : State} (st : Nat) (s : State) (h_s : Keeps orig s) : KeepsRes orig (execStreamDrained st s) := by
  unfold execStreamDrained
  repeat' (first
    | with_reducible assumption
    | with_reducible apply KeepsRes.next
    | with_reducible apply State.strTo_keeps
    | with_reducible apply Keeps.cond)

theorem State.streamsSleep_keeps {orig : State} (s : State) (h_s : Keeps orig s) : Keeps orig (State.streamsSleep s) := by
  unfold State.streamsSleep
  repeat' (first
    | with_reducible assumption
    | intro x
    | with_reducible apply State.setStream_keeps
    | with_reducible apply State.strFail_keeps
    | with_reducible apply Keeps.cond
    | with_reducible apply Keeps.cond_fst
    | with_reducible apply Keeps.ite_fst
    | with_reducible apply Keeps.foldl
    | with_reducible apply Keeps.foldl_fst
    | (extract_lets +onlyGivenNames x; refine Keeps.via' (o := orig) (x := x) ?_ (fun hx => ?_); rotate_left; clear_value x; rotate_right; subst x)
    | (extract_lets +onlyGivenNames x; refine Keeps.via' (o := orig) (x := x.1) ?_ (fun hx => ?_); rotate_left; clear_value x; rotate_right; subst x)
    | (extract_lets +onlyGivenNames x; clear_value x)
    | (with_reducible apply Keeps.mk'; with_reducible assumption)
    | (with_reducible apply Keeps.mk'; first | with_reducible apply State.setStream_keeps | with_reducible apply State.strFail_keeps | with_reducible apply Keeps.foldl | with_reducible apply Keeps.cond))

end Sys2Proof.Machine
end

