-- ==== Sys2Proof/Laws/KeepsCornerTurn.lean ====
section
/-!
SUPPORT. Every operation of Machine/CornerTurn.lean keeps the canonical forms and the queue.
-/
namespace Sys2Proof.Machine

theorem State.ringSync_keeps {orig : State} (s : State) (h_s : Keeps orig s) : Keeps orig (State.ringSync s) := by
  unfold State.ringSync
  repeat' (first
    | with_reducible assumption
    | intro x
    | with_reducible apply State.put64_keeps
    | with_reducible apply State.put_keeps
    | with_reducible apply Keeps.cond
    | with_reducible apply Keeps.foldl
    | (extract_lets +onlyGivenNames x; refine Keeps.via' (o := orig) (x := x) ?_ (fun hx => ?_); rotate_left; clear_value x; rotate_right; subst x)
    | (extract_lets +onlyGivenNames x; clear_value x))

theorem State.setFin_keeps {orig : State} (s : State) (n : Nat) (x : FineInput) (h_s : Keeps orig s) : Keeps orig (State.setFin s n x) := by
  unfold State.setFin
  repeat' (first
    | with_reducible assumption
    | intro x
    | (with_reducible apply Keeps.mk'; with_reducible assumption))

theorem State.setChains_keeps {orig : State} (s : State) (n : Nat) (l : List FineChain) (h_s : Keeps orig s) : Keeps orig (State.setChains s n l) := by
  unfold State.setChains
  repeat' (first
    | with_reducible assumption
    | with_reducible apply State.setFin_keeps
    | (with_reducible apply Keeps.mk'; with_reducible assumption)
    | (with_reducible apply Keeps.mk'; first | with_reducible apply State.setFin_keeps))

theorem State.ringWrite_keeps {orig : State} (s : State) (c : FineChain) (i : Nat) (p : Option Spectrum) (h_s : Keeps orig s) : Keeps orig (State.ringWrite s c i p) := by
  unfold State.ringWrite
  repeat' (first
    | with_reducible assumption
    | intro x
    | with_reducible apply State.pokeAll_keeps
    | with_reducible apply Keeps.cond
    | with_reducible apply Keeps.cond_fst
    | with_reducible apply Keeps.ite_fst
    | with_reducible apply Keeps.foldl
    | with_reducible apply Keeps.foldl_fst
    | split)

theorem State.entryGone_keeps {orig : State} (s : State) (n : Nat) (c : FineChain) (i : Nat) (k : Nat) (h_s : Keeps orig s) : Keeps orig (State.entryGone s n c i k).1 := by
  unfold State.entryGone
  repeat' (first
    | with_reducible assumption
    | with_reducible apply State.count_keeps
    | with_reducible apply State.ev_keeps
    | with_reducible apply Keeps.cond
    | with_reducible apply Keeps.cond_fst
    | with_reducible apply Keeps.ite_fst
    | (with_reducible apply Keeps.mk'; with_reducible assumption)
    | (with_reducible apply Keeps.mk'; first | with_reducible apply State.count_keeps | with_reducible apply State.ev_keeps | with_reducible apply Keeps.cond))

theorem State.findLost_keeps {orig : State} (s : State) (n : Nat) (c : FineChain) (l : List Nat) (ks : List Nat) (h_s : Keeps orig s) : Keeps orig (State.findLost s n c l ks).1 := by
  unfold State.findLost
  repeat' (first
    | with_reducible assumption
    | intro x
    | with_reducible apply State.entryGone_keeps
    | with_reducible apply Keeps.cond_fst
    | with_reducible apply Keeps.ite_fst
    | with_reducible apply Keeps.foldl
    | with_reducible apply Keeps.foldl_fst
    | (extract_lets +onlyGivenNames x; refine Keeps.via' (o := orig) (x := x) ?_ (fun hx => ?_); rotate_left; clear_value x; rotate_right; subst x)
    | (extract_lets +onlyGivenNames x; refine Keeps.via' (o := orig) (x := x.1) ?_ (fun hx => ?_); rotate_left; clear_value x; rotate_right; subst x)
    | (extract_lets +onlyGivenNames x; clear_value x))

theorem State.ringsMove_keeps {orig : State} (s : State) (h_s : Keeps orig s) : Keeps orig (State.ringsMove s) := by
  unfold State.ringsMove
  repeat' (first
    | with_reducible assumption
    | intro x
    | with_reducible apply State.findLost_keeps
    | with_reducible apply State.setChains_keeps
    | with_reducible apply State.pokeAll_keeps
    | with_reducible apply Keeps.cond
    | with_reducible apply Keeps.cond_fst
    | with_reducible apply Keeps.ite_fst
    | with_reducible apply Keeps.foldl
    | with_reducible apply Keeps.foldl_fst
    | (extract_lets +onlyGivenNames x; refine Keeps.via' (o := orig) (x := x) ?_ (fun hx => ?_); rotate_left; clear_value x; rotate_right; subst x)
    | (extract_lets +onlyGivenNames x; refine Keeps.via' (o := orig) (x := x.1) ?_ (fun hx => ?_); rotate_left; clear_value x; rotate_right; subst x)
    | (extract_lets +onlyGivenNames x; clear_value x)
    | (with_reducible apply Keeps.mk'; with_reducible assumption)
    | (with_reducible apply Keeps.mk'; first | with_reducible apply State.findLost_keeps | with_reducible apply State.setChains_keeps | with_reducible apply State.pokeAll_keeps | with_reducible apply Keeps.foldl | with_reducible apply Keeps.cond))

theorem State.settle_keeps {orig : State} (s : State) (n : Nat) (c : FineChain) (i : Nat) (p : Option Spectrum) (h_s : Keeps orig s) : Keeps orig (State.settle s n c i p).1 := by
  unfold State.settle
  repeat' (first
    | with_reducible assumption
    | intro x
    | with_reducible apply State.ringWrite_keeps
    | with_reducible apply State.count_keeps
    | with_reducible apply State.degrLoss_keeps
    | with_reducible apply State.ev_keeps
    | with_reducible apply Keeps.cond
    | with_reducible apply Keeps.ite
    | with_reducible apply Keeps.cond_fst
    | with_reducible apply Keeps.ite_fst
    | with_reducible apply Keeps.foldl
    | with_reducible apply Keeps.foldl_fst
    | (extract_lets +onlyGivenNames x; refine Keeps.via' (o := orig) (x := x) ?_ (fun hx => ?_); rotate_left; clear_value x; rotate_right; subst x)
    | (extract_lets +onlyGivenNames x; refine Keeps.via' (o := orig) (x := x.1) ?_ (fun hx => ?_); rotate_left; clear_value x; rotate_right; subst x)
    | (extract_lets +onlyGivenNames x; clear_value x)
    | split
    | (with_reducible apply Keeps.mk'; with_reducible assumption)
    | (with_reducible apply Keeps.mk'; first | with_reducible apply State.ringWrite_keeps | with_reducible apply State.count_keeps | with_reducible apply State.degrLoss_keeps | with_reducible apply State.ev_keeps | with_reducible apply Keeps.foldl | with_reducible apply Keeps.cond | with_reducible apply Keeps.ite))

theorem State.fineDone_keeps {orig : State} (s : State) (h_s : Keeps orig s) : Keeps orig (State.fineDone s) := by
  unfold State.fineDone
  repeat' (first
    | with_reducible assumption
    | intro x
    | with_reducible apply State.swapWhere_keeps
    | with_reducible apply State.flag_keeps
    | with_reducible apply State.ev_keeps
    | with_reducible apply State.swapDone_keeps
    | with_reducible apply State.ringSync_keeps
    | with_reducible apply Keeps.cond
    | with_reducible apply Keeps.cond_fst
    | with_reducible apply Keeps.ite_fst
    | (extract_lets +onlyGivenNames x; refine Keeps.via' (o := orig) (x := x) ?_ (fun hx => ?_); rotate_left; clear_value x; rotate_right; subst x)
    | (extract_lets +onlyGivenNames x; refine Keeps.via' (o := orig) (x := x.1) ?_ (fun hx => ?_); rotate_left; clear_value x; rotate_right; subst x)
    | (extract_lets +onlyGivenNames x; clear_value x)
    | (with_reducible apply Keeps.mk'; with_reducible assumption)
    | (with_reducible apply Keeps.mk'; first | with_reducible apply State.swapWhere_keeps | with_reducible apply State.flag_keeps | with_reducible apply State.ev_keeps | with_reducible apply State.swapDone_keeps | with_reducible apply State.ringSync_keeps | with_reducible apply Keeps.cond))

theorem State.finePrune_keeps {orig : State} (s : State) (n : Nat) (h_s : Keeps orig s) : Keeps orig (State.finePrune s n) := by
  unfold State.finePrune
  repeat' (first
    | with_reducible assumption
    | intro x
    | with_reducible apply State.setChains_keeps
    | with_reducible apply State.fineDone_keeps)

theorem State.fineEnd_keeps {orig : State} (s : State) (n : Nat) (h_s : Keeps orig s) : Keeps orig (State.fineEnd s n) := by
  unfold State.fineEnd
  repeat' (first
    | with_reducible assumption
    | intro x
    | with_reducible apply State.setChains_keeps
    | with_reducible apply State.finePrune_keeps
    | (extract_lets +onlyGivenNames x; refine Keeps.via' (o := orig) (x := x) ?_ (fun hx => ?_); rotate_left; clear_value x; rotate_right; subst x)
    | (extract_lets +onlyGivenNames x; clear_value x)
    | split
    | (with_reducible apply Keeps.mk'; with_reducible assumption)
    | (with_reducible apply Keeps.mk'; first | with_reducible apply State.setChains_keeps | with_reducible apply State.finePrune_keeps))

theorem State.fineCut_keeps {orig : State} (s : State) (n : Nat) (h : Nat) (l : Nat) (i : Nat) (h_s : Keeps orig s) : Keeps orig (State.fineCut s n h l i) := by
  unfold State.fineCut
  repeat' (first
    | with_reducible assumption
    | intro x
    | with_reducible apply State.setChains_keeps
    | with_reducible apply State.finePrune_keeps
    | with_reducible apply Keeps.ite
    | split
    | (with_reducible apply Keeps.mk'; with_reducible assumption)
    | (with_reducible apply Keeps.mk'; first | with_reducible apply State.setChains_keeps | with_reducible apply State.finePrune_keeps | with_reducible apply Keeps.ite))

end Sys2Proof.Machine
end

