-- ==== Sys2Proof/Laws/KeepsIngress.lean ====
section
/-!
SUPPORT. Every operation of Machine/Ingress.lean keeps the canonical forms and the queue.
-/
namespace Sys2Proof.Machine

theorem State.setLane_keeps {orig : State} (s : State) (l : Nat) (x : Lane) (h_s : Keeps orig s) : Keeps orig (State.setLane s l x) := by
  unfold State.setLane
  repeat' (first
    | (extract_lets +onlyGivenNames x; clear_value x)
    | (with_reducible apply Keeps.mk'; with_reducible assumption))

theorem State.setInp_keeps {orig : State} (s : State) (n : Nat) (x : Input) (h_s : Keeps orig s) : Keeps orig (State.setInp s n x) := by
  unfold State.setInp
  repeat' (first
    | (extract_lets +onlyGivenNames x; clear_value x)
    | (with_reducible apply Keeps.mk'; with_reducible assumption))

theorem State.ingState_keeps {orig : State} (s : State) (n : Nat) (h_s : Keeps orig s) : Keeps orig (State.ingState s n) := by
  unfold State.ingState
  repeat' (first
    | with_reducible assumption
    | with_reducible apply State.ev_keeps
    | with_reducible apply State.put_keeps
    | with_reducible apply State.flag_keeps
    | with_reducible apply Keeps.cond)

theorem State.causeBit_keeps {orig : State} (s : State) (n : Nat) (c : Nat) (h_s : Keeps orig s) : Keeps orig (State.causeBit s n c) := by
  unfold State.causeBit
  repeat' (first
    | with_reducible assumption
    | with_reducible apply State.ev_keeps
    | with_reducible apply State.flag_keeps
    | with_reducible apply Keeps.cond)

theorem State.gapRecord_keeps {orig : State} (s : State) (n : Nat) (kind : Nat) (g : Gap) (len : Nat) (h_s : Keeps orig s) : Keeps orig (State.gapRecord s n kind g len) := by
  unfold State.gapRecord
  repeat' (first
    | with_reducible assumption
    | with_reducible apply State.closeAll_keeps)

theorem State.gapOpen_keeps {orig : State} (s : State) (n : Nat) (c : Nat) (h_s : Keeps orig s) : Keeps orig (State.gapOpen s n c) := by
  unfold State.gapOpen
  repeat' (first
    | with_reducible assumption
    | intro x
    | with_reducible apply State.causeBit_keeps
    | with_reducible apply State.setInp_keeps
    | with_reducible apply State.calGap_keeps
    | with_reducible apply State.gapRecord_keeps
    | with_reducible apply State.ev_keeps
    | with_reducible apply Keeps.foldl
    | (extract_lets +onlyGivenNames x; refine Keeps.via' (o := orig) (x := x) ?_ (fun hx => ?_); rotate_left; clear_value x; rotate_right; subst x)
    | (extract_lets +onlyGivenNames x; clear_value x)
    | (with_reducible apply Keeps.mk'; with_reducible assumption)
    | (with_reducible apply Keeps.mk'; first | with_reducible apply State.causeBit_keeps | with_reducible apply State.setInp_keeps | with_reducible apply State.calGap_keeps | with_reducible apply State.gapRecord_keeps | with_reducible apply State.ev_keeps | with_reducible apply Keeps.foldl))

theorem State.gapCause_keeps {orig : State} (s : State) (n : Nat) (c : Nat) (h_s : Keeps orig s) : Keeps orig (State.gapCause s n c) := by
  unfold State.gapCause
  repeat' (first
    | with_reducible assumption
    | with_reducible apply State.causeBit_keeps
    | with_reducible apply State.setInp_keeps
    | with_reducible apply State.gapOpen_keeps
    | with_reducible apply Keeps.cond
    | (extract_lets +onlyGivenNames x; refine Keeps.via' (o := orig) (x := x) ?_ (fun hx => ?_); rotate_left; clear_value x; rotate_right; subst x)
    | (extract_lets +onlyGivenNames x; clear_value x)
    | split
    | (with_reducible apply Keeps.mk'; with_reducible assumption)
    | (with_reducible apply Keeps.mk'; first | with_reducible apply State.causeBit_keeps | with_reducible apply State.setInp_keeps | with_reducible apply State.gapOpen_keeps | with_reducible apply Keeps.cond))

theorem State.causeLater_keeps {orig : State} (s : State) (n : Nat) (c : Nat) (h_s : Keeps orig s) : Keeps orig (State.causeLater s n c) := by
  unfold State.causeLater
  repeat' (first
    | with_reducible assumption
    | with_reducible apply State.gapCause_keeps
    | with_reducible apply State.setInp_keeps
    | (extract_lets +onlyGivenNames x; refine Keeps.via' (o := orig) (x := x) ?_ (fun hx => ?_); rotate_left; clear_value x; rotate_right; subst x)
    | (extract_lets +onlyGivenNames x; clear_value x)
    | split
    | (with_reducible apply Keeps.mk'; with_reducible assumption)
    | (with_reducible apply Keeps.mk'; first | with_reducible apply State.gapCause_keeps | with_reducible apply State.setInp_keeps))

theorem State.gapShared_keeps {orig : State} (s : State) (n : Nat) (c : Nat) (h_s : Keeps orig s) : Keeps orig (State.gapShared s n c) := by
  unfold State.gapShared
  repeat' (first
    | with_reducible assumption
    | with_reducible apply State.gapCause_keeps
    | with_reducible apply State.ev_keeps
    | with_reducible apply State.setInp_keeps
    | with_reducible apply State.ingState_keeps
    | with_reducible apply Keeps.cond
    | (extract_lets +onlyGivenNames x; refine Keeps.via' (o := orig) (x := x) ?_ (fun hx => ?_); rotate_left; clear_value x; rotate_right; subst x)
    | (extract_lets +onlyGivenNames x; clear_value x)
    | (with_reducible apply Keeps.mk'; with_reducible assumption)
    | (with_reducible apply Keeps.mk'; first | with_reducible apply State.gapCause_keeps | with_reducible apply State.ev_keeps | with_reducible apply State.setInp_keeps | with_reducible apply State.ingState_keeps | with_reducible apply Keeps.cond))

theorem State.gapClose_keeps {orig : State} (s : State) (n : Nat) (len : Nat) (g : Gap) (h_s : Keeps orig s) : Keeps orig (State.gapClose s n len g) := by
  unfold State.gapClose
  repeat' (first
    | with_reducible assumption
    | with_reducible apply State.setInp_keeps
    | with_reducible apply State.gapRecord_keeps
    | with_reducible apply State.ev_keeps
    | with_reducible apply State.count64_keeps)

theorem State.faultNotice_keeps {orig : State} (s : State) (n : Nat) (first : Nat) (len : Nat) (k : Nat) (h_s : Keeps orig s) : Keeps orig (State.faultNotice s n first len k) := by
  unfold State.faultNotice
  repeat' (first
    | with_reducible assumption
    | with_reducible apply State.setInp_keeps
    | with_reducible apply State.ev_keeps
    | with_reducible apply State.count_keeps
    | with_reducible apply Keeps.cond)

theorem State.fastEnd_keeps {orig : State} (s : State) (n : Nat) (first : Nat) (len : Nat) (bad : Bool) (h_s : Keeps orig s) : Keeps orig (State.fastEnd s n first len bad) := by
  unfold State.fastEnd
  repeat' (first
    | with_reducible assumption
    | with_reducible apply State.setInp_keeps
    | with_reducible apply State.faultNotice_keeps
    | with_reducible apply Keeps.cond)

theorem State.discard_keeps {orig : State} (s : State) (n : Nat) (c : Nat) (h_s : Keeps orig s) : Keeps orig (State.discard s n c) := by
  unfold State.discard
  repeat' (first
    | with_reducible assumption
    | intro x
    | with_reducible apply State.count_keeps
    | with_reducible apply State.degrLoss_keeps
    | with_reducible apply State.gapCause_keeps
    | with_reducible apply State.setInp_keeps
    | with_reducible apply State.ingState_keeps
    | with_reducible apply Keeps.cond
    | (extract_lets +onlyGivenNames x; refine Keeps.via' (o := orig) (x := x) ?_ (fun hx => ?_); rotate_left; clear_value x; rotate_right; subst x)
    | (extract_lets +onlyGivenNames x; clear_value x)
    | (with_reducible apply Keeps.mk'; with_reducible assumption)
    | (with_reducible apply Keeps.mk'; first | with_reducible apply State.count_keeps | with_reducible apply State.degrLoss_keeps | with_reducible apply State.gapCause_keeps | with_reducible apply State.setInp_keeps | with_reducible apply State.ingState_keeps | with_reducible apply Keeps.cond))

theorem State.settleGap_keeps {orig : State} (s : State) (n : Nat) (i : Nat) (lap : Nat) (h_s : Keeps orig s) : Keeps orig (State.settleGap s n i lap) := by
  unfold State.settleGap
  repeat' (first
    | with_reducible assumption
    | intro x
    | with_reducible apply State.causeBit_keeps
    | with_reducible apply State.gapClose_keeps
    | with_reducible apply State.setInp_keeps
    | with_reducible apply State.calGap_keeps
    | with_reducible apply Keeps.cond
    | with_reducible apply Keeps.foldl
    | (extract_lets +onlyGivenNames x; refine Keeps.via' (o := orig) (x := x) ?_ (fun hx => ?_); rotate_left; clear_value x; rotate_right; subst x)
    | (extract_lets +onlyGivenNames x; clear_value x)
    | split
    | (with_reducible apply Keeps.mk'; with_reducible assumption)
    | (with_reducible apply Keeps.mk'; first | with_reducible apply State.causeBit_keeps | with_reducible apply State.gapClose_keeps | with_reducible apply State.setInp_keeps | with_reducible apply State.calGap_keeps | with_reducible apply Keeps.foldl | with_reducible apply Keeps.cond))

theorem State.sendIndex_keeps {orig : State} (s : State) (n : Nat) (i : Nat) (h_s : Keeps orig s) : Keeps orig (State.sendIndex s n i) := by
  unfold State.sendIndex
  repeat' (first
    | with_reducible assumption
    | with_reducible apply State.sendReliable_keeps
    | with_reducible apply Keeps.cond)

theorem State.overlapped_keeps {orig : State} (s : State) (n : Nat) (k : Nat) (h_s : Keeps orig s) : Keeps orig (State.overlapped s n k) := by
  unfold State.overlapped
  repeat' (first
    | with_reducible assumption
    | intro x
    | with_reducible apply State.setInp_keeps
    | (extract_lets +onlyGivenNames x; refine Keeps.via' (o := orig) (x := x) ?_ (fun hx => ?_); rotate_left; clear_value x; rotate_right; subst x)
    | (extract_lets +onlyGivenNames x; clear_value x)
    | (with_reducible apply Keeps.mk'; with_reducible assumption)
    | (with_reducible apply Keeps.mk'; first | with_reducible apply State.setInp_keeps))

theorem State.acceptAt_keeps {orig : State} (s : State) (n : Nat) (c : Nat) (d : List (Int × Int)) (f : Int) (k : Nat) (place : Nat × Bool × Bool) (bytes : Nat) (h_s : Keeps orig s) : Keeps orig (State.acceptAt s n c d f k place bytes) := by
  unfold State.acceptAt
  repeat' (first
    | with_reducible assumption
    | with_reducible apply State.raise_keeps
    | with_reducible apply State.setInp_keeps
    | with_reducible apply State.discard_keeps
    | with_reducible apply State.fastEnd_keeps
    | with_reducible apply State.count_keeps
    | with_reducible apply State.causeBit_keeps
    | with_reducible apply State.overlapped_keeps
    | with_reducible apply State.settleGap_keeps
    | with_reducible apply State.putI_keeps
    | with_reducible apply State.sendIndex_keeps
    | with_reducible apply State.ingState_keeps
    | with_reducible apply Keeps.cond
    | with_reducible apply Keeps.ite
    | with_reducible apply Keeps.cond_fst
    | with_reducible apply Keeps.ite_fst
    | (extract_lets +onlyGivenNames x; refine Keeps.via' (o := orig) (x := x) ?_ (fun hx => ?_); rotate_left; clear_value x; rotate_right; subst x)
    | (extract_lets +onlyGivenNames x; refine Keeps.via' (o := orig) (x := x.1) ?_ (fun hx => ?_); rotate_left; clear_value x; rotate_right; subst x)
    | (extract_lets +onlyGivenNames x; clear_value x)
    | split
    | (with_reducible apply Keeps.mk'; with_reducible assumption)
    | (with_reducible apply Keeps.mk'; first | with_reducible apply State.raise_keeps | with_reducible apply State.setInp_keeps | with_reducible apply State.discard_keeps | with_reducible apply State.fastEnd_keeps | with_reducible apply State.count_keeps | with_reducible apply State.causeBit_keeps | with_reducible apply State.overlapped_keeps | with_reducible apply State.settleGap_keeps | with_reducible apply State.putI_keeps | with_reducible apply State.sendIndex_keeps | with_reducible apply State.ingState_keeps | with_reducible apply Keeps.cond | with_reducible apply Keeps.ite))

theorem State.judge_keeps {orig : State} (s : State) (lane : Nat) (bs : List Byte) (f : Nat) (k : Nat) (whole : Bool) (n : Nat) (h_s : Keeps orig s) : Keeps orig (State.judge s lane bs f k whole n) := by
  unfold State.judge
  repeat' (first
    | with_reducible assumption
    | with_reducible apply State.put_keeps
    | with_reducible apply State.discard_keeps
    | with_reducible apply State.fastEnd_keeps
    | with_reducible apply State.acceptAt_keeps
    | with_reducible apply Keeps.cond
    | (extract_lets +onlyGivenNames x; refine Keeps.via' (o := orig) (x := x) ?_ (fun hx => ?_); rotate_left; clear_value x; rotate_right; subst x)
    | (extract_lets +onlyGivenNames x; clear_value x)
    | split)

theorem State.judgeBlocks_keeps {orig : State} (s : State) (lane : Nat) (bs : List RxBlock) (f : Nat) (k : Nat) (n : Nat) (h_s : Keeps orig s) : Keeps orig (State.judgeBlocks s lane bs f k n) := by
  unfold State.judgeBlocks
  repeat' (first
    | with_reducible assumption
    | with_reducible apply State.judge_keeps
    | split)

theorem State.patternCheck_keeps {orig : State} (s : State) (lane : Nat) (x : Line) (h_s : Keeps orig s) : Keeps orig (State.patternCheck s lane x) := by
  unfold State.patternCheck
  repeat' (first
    | with_reducible assumption
    | with_reducible apply State.took_keeps
    | with_reducible apply State.count64_keeps)

theorem execFrameVerdict_keeps {orig : State} (lane : Nat) (line : Line) (stamp : Nat) (s : State) (h_s : Keeps orig s) : KeepsRes orig (execFrameVerdict lane line stamp s) := by
  unfold execFrameVerdict
  repeat' (first
    | with_reducible assumption
    | intro x
    | with_reducible apply KeepsRes.next
    | with_reducible apply State.patternCheck_keeps
    | with_reducible apply State.stampScale_keeps
    | with_reducible apply State.setLane_keeps
    | with_reducible apply State.judgeBlocks_keeps
    | with_reducible apply KeepsRes.cond
    | with_reducible apply KeepsRes.ite
    | with_reducible apply Keeps.cond
    | with_reducible apply Keeps.cond_fst
    | with_reducible apply Keeps.ite_fst
    | with_reducible apply Keeps.foldl
    | with_reducible apply Keeps.foldl_fst
    | (extract_lets +onlyGivenNames x; refine Keeps.via' (o := orig) (x := x) ?_ (fun hx => ?_); rotate_left; clear_value x; rotate_right; subst x)
    | (extract_lets +onlyGivenNames x; refine Keeps.via' (o := orig) (x := x.1) ?_ (fun hx => ?_); rotate_left; clear_value x; rotate_right; subst x)
    | (extract_lets +onlyGivenNames x; clear_value x)
    | split
    | (with_reducible apply Keeps.mk'; with_reducible assumption)
    | (with_reducible apply Keeps.mk'; first | with_reducible apply State.patternCheck_keeps | with_reducible apply State.stampScale_keeps | with_reducible apply State.setLane_keeps | with_reducible apply State.judgeBlocks_keeps | with_reducible apply Keeps.foldl | with_reducible apply Keeps.cond))

theorem execFrameLongCheck_keeps {orig : State} (lane : Nat) (line : Line) (s : State) (h_s : Keeps orig s) : KeepsRes orig (execFrameLongCheck lane line s) := by
  unfold execFrameLongCheck
  repeat' (first
    | with_reducible assumption
    | intro x
    | with_reducible apply KeepsRes.next
    | with_reducible apply State.setLane_keeps
    | with_reducible apply State.count_keeps
    | with_reducible apply State.gapCause_keeps
    | with_reducible apply State.causeLater_keeps
    | with_reducible apply KeepsRes.cond
    | with_reducible apply KeepsRes.ite
    | with_reducible apply Keeps.cond
    | with_reducible apply Keeps.foldl
    | (extract_lets +onlyGivenNames x; refine Keeps.via' (o := orig) (x := x) ?_ (fun hx => ?_); rotate_left; clear_value x; rotate_right; subst x)
    | (extract_lets +onlyGivenNames x; clear_value x)
    | split
    | (with_reducible apply Keeps.mk'; with_reducible assumption)
    | (with_reducible apply Keeps.mk'; first | with_reducible apply State.setLane_keeps | with_reducible apply State.count_keeps | with_reducible apply State.gapCause_keeps | with_reducible apply State.causeLater_keeps | with_reducible apply Keeps.foldl | with_reducible apply Keeps.cond))

theorem execGapInterim_keeps {orig : State} (n : Nat) (s : State) (h_s : Keeps orig s) : KeepsRes orig (execGapInterim n s) := by
  unfold execGapInterim
  repeat' (first
    | with_reducible assumption
    | with_reducible apply KeepsRes.next
    | with_reducible apply State.gapRecord_keeps
    | split
    | with_reducible apply Keeps.cond)

theorem execRatefaultClear_keeps {orig : State} (n : Nat) (s : State) (h_s : Keeps orig s) : KeepsRes orig (execRatefaultClear n s) := by
  unfold execRatefaultClear
  repeat' (first
    | with_reducible assumption
    | with_reducible apply KeepsRes.next
    | with_reducible apply State.flag_keeps
    | with_reducible apply State.ingState_keeps
    | with_reducible apply State.setInp_keeps)

theorem State.laneTo_keeps {orig : State} (s : State) (l : Nat) (v : Nat) (h_s : Keeps orig s) : Keeps orig (State.laneTo s l v) := by
  unfold State.laneTo
  repeat' (first
    | with_reducible assumption
    | intro x
    | with_reducible apply State.ingState_keeps
    | with_reducible apply State.put_keeps
    | with_reducible apply Keeps.foldl)

theorem State.inputFails_keeps {orig : State} (s : State) (c n : Nat) (h_s : Keeps orig s) : Keeps orig (State.inputFails s c n) := by
  unfold State.inputFails
  repeat' (first
    | with_reducible assumption
    | with_reducible apply State.discard_keeps
    | with_reducible apply State.fastEnd_keeps
    | with_reducible apply State.gapCause_keeps
    | with_reducible apply Keeps.cond)

theorem State.laneFails_keeps {orig : State} (s : State) (l : Nat) (c : Nat) (h_s : Keeps orig s) : Keeps orig (State.laneFails s l c) := by
  unfold State.laneFails
  repeat' (first
    | with_reducible assumption
    | intro x
    | with_reducible apply State.inputFails_keeps
    | with_reducible apply State.fastEnd_keeps
    | with_reducible apply State.discard_keeps
    | with_reducible apply State.gapCause_keeps
    | with_reducible apply Keeps.cond
    | with_reducible apply Keeps.foldl)

theorem State.laneAnew_keeps {orig : State} (s : State) (l : Nat) (full : Bool) (h_s : Keeps orig s) : Keeps orig (State.laneAnew s l full) := by
  unfold State.laneAnew
  repeat' (first
    | with_reducible assumption
    | with_reducible apply State.setLane_keeps
    | (with_reducible apply Keeps.mk'; with_reducible assumption)
    | (with_reducible apply Keeps.mk'; first | with_reducible apply State.setLane_keeps))

theorem execLaneSignalDetect_keeps {orig : State} (lane : Nat) (s : State) (h_s : Keeps orig s) : KeepsRes orig (execLaneSignalDetect lane s) := by
  unfold execLaneSignalDetect
  repeat' (first
    | with_reducible assumption
    | with_reducible apply KeepsRes.next
    | with_reducible apply State.laneAnew_keeps
    | with_reducible apply State.laneTo_keeps
    | with_reducible apply KeepsRes.cond
    | with_reducible apply KeepsRes.ite
    | with_reducible apply Keeps.cond)

theorem execLossOfSignal_keeps {orig : State} (lane : Nat) (s : State) (h_s : Keeps orig s) : KeepsRes orig (execLossOfSignal lane s) := by
  unfold execLossOfSignal
  repeat' (first
    | with_reducible assumption
    | with_reducible apply KeepsRes.next
    | with_reducible apply State.laneFails_keeps
    | with_reducible apply State.count_keeps
    | with_reducible apply State.laneAnew_keeps
    | with_reducible apply State.laneTo_keeps
    | with_reducible apply KeepsRes.cond
    | with_reducible apply KeepsRes.ite
    | with_reducible apply Keeps.cond
    | (extract_lets +onlyGivenNames x; refine Keeps.via' (o := orig) (x := x) ?_ (fun hx => ?_); rotate_left; clear_value x; rotate_right; subst x)
    | (extract_lets +onlyGivenNames x; clear_value x))

theorem execCdrLockLoss_keeps {orig : State} (lane : Nat) (s : State) (h_s : Keeps orig s) : KeepsRes orig (execCdrLockLoss lane s) := by
  unfold execCdrLockLoss
  repeat' (first
    | with_reducible assumption
    | with_reducible apply KeepsRes.next
    | with_reducible apply State.laneFails_keeps
    | with_reducible apply State.laneAnew_keeps
    | with_reducible apply State.laneTo_keeps
    | with_reducible apply KeepsRes.cond
    | with_reducible apply KeepsRes.ite
    | with_reducible apply Keeps.cond
    | (extract_lets +onlyGivenNames x; refine Keeps.via' (o := orig) (x := x) ?_ (fun hx => ?_); rotate_left; clear_value x; rotate_right; subst x)
    | (extract_lets +onlyGivenNames x; clear_value x))

theorem execAdaptationDone_keeps {orig : State} (lane : Nat) (s : State) (h_s : Keeps orig s) : KeepsRes orig (execAdaptationDone lane s) := by
  unfold execAdaptationDone
  repeat' (first
    | with_reducible assumption
    | with_reducible apply KeepsRes.next
    | with_reducible apply State.setLane_keeps
    | with_reducible apply State.count_keeps
    | with_reducible apply State.laneTo_keeps
    | with_reducible apply KeepsRes.cond
    | with_reducible apply KeepsRes.ite
    | with_reducible apply Keeps.cond
    | (extract_lets +onlyGivenNames x; refine Keeps.via' (o := orig) (x := x) ?_ (fun hx => ?_); rotate_left; clear_value x; rotate_right; subst x)
    | (extract_lets +onlyGivenNames x; clear_value x)
    | (with_reducible apply Keeps.mk'; with_reducible assumption)
    | (with_reducible apply Keeps.mk'; first | with_reducible apply State.setLane_keeps | with_reducible apply State.count_keeps | with_reducible apply State.laneTo_keeps | with_reducible apply Keeps.cond))

theorem execAdaptTimeout_keeps {orig : State} (lane : Nat) (s : State) (h_s : Keeps orig s) : KeepsRes orig (execAdaptTimeout lane s) := by
  unfold execAdaptTimeout
  repeat' (first
    | with_reducible assumption
    | with_reducible apply KeepsRes.next
    | with_reducible apply State.laneAnew_keeps
    | with_reducible apply State.laneTo_keeps
    | with_reducible apply KeepsRes.cond
    | with_reducible apply KeepsRes.ite
    | with_reducible apply Keeps.cond)

theorem execLmbRx_keeps {orig : State} (lane : Nat) (line : Line) (pos : Nat) (s : State) (h_s : Keeps orig s) : KeepsRes orig (execLmbRx lane line pos s) := by
  unfold execLmbRx
  repeat' (first
    | with_reducible assumption
    | intro x
    | with_reducible apply KeepsRes.next
    | with_reducible apply State.laneAnew_keeps
    | with_reducible apply State.laneTo_keeps
    | with_reducible apply State.setLane_keeps
    | with_reducible apply KeepsRes.cond
    | with_reducible apply KeepsRes.ite
    | with_reducible apply Keeps.cond
    | (extract_lets +onlyGivenNames x; refine Keeps.via' (o := orig) (x := x) ?_ (fun hx => ?_); rotate_left; clear_value x; rotate_right; subst x)
    | (extract_lets +onlyGivenNames x; clear_value x)
    | (with_reducible apply Keeps.mk'; with_reducible assumption)
    | (with_reducible apply Keeps.mk'; first | with_reducible apply State.laneAnew_keeps | with_reducible apply State.laneTo_keeps | with_reducible apply State.setLane_keeps | with_reducible apply Keeps.cond))

theorem execBlockLockLoss_keeps {orig : State} (lane : Nat) (s : State) (h_s : Keeps orig s) : KeepsRes orig (execBlockLockLoss lane s) := by
  unfold execBlockLockLoss
  repeat' (first
    | with_reducible assumption
    | with_reducible apply KeepsRes.next
    | with_reducible apply State.laneFails_keeps
    | with_reducible apply State.laneAnew_keeps
    | with_reducible apply State.laneTo_keeps
    | with_reducible apply KeepsRes.cond
    | with_reducible apply KeepsRes.ite
    | with_reducible apply Keeps.cond
    | (extract_lets +onlyGivenNames x; refine Keeps.via' (o := orig) (x := x) ?_ (fun hx => ?_); rotate_left; clear_value x; rotate_right; subst x)
    | (extract_lets +onlyGivenNames x; clear_value x))

theorem execJesdLinkLock_keeps {orig : State} (lane : Nat) (locked : Bool) (s : State) (h_s : Keeps orig s) : KeepsRes orig (execJesdLinkLock lane locked s) := by
  unfold execJesdLinkLock
  repeat' (first
    | with_reducible assumption
    | with_reducible apply KeepsRes.next
    | with_reducible apply State.laneTo_keeps
    | with_reducible apply State.laneFails_keeps
    | with_reducible apply Keeps.cond)

theorem State.laneRetrain_keeps {orig : State} (s : State) (l : Nat) (h_s : Keeps orig s) : Keeps orig (State.laneRetrain s l) := by
  unfold State.laneRetrain
  repeat' (first
    | with_reducible assumption
    | with_reducible apply State.laneFails_keeps
    | with_reducible apply State.laneAnew_keeps
    | with_reducible apply State.laneTo_keeps
    | with_reducible apply Keeps.cond)

theorem execLaneDieLinkFault_keeps {orig : State} (die : Nat) (s : State) (h_s : Keeps orig s) : KeepsRes orig (execLaneDieLinkFault die s) := by
  unfold execLaneDieLinkFault
  repeat' (first
    | with_reducible assumption
    | intro x
    | with_reducible apply KeepsRes.next
    | with_reducible apply State.gapShared_keeps
    | with_reducible apply State.took_keeps
    | with_reducible apply KeepsRes.cond
    | with_reducible apply KeepsRes.ite
    | with_reducible apply Keeps.foldl
    | (extract_lets +onlyGivenNames x; refine Keeps.via' (o := orig) (x := x) ?_ (fun hx => ?_); rotate_left; clear_value x; rotate_right; subst x)
    | (extract_lets +onlyGivenNames x; clear_value x))

theorem execJesdMultiblockRelease_keeps {orig : State} (n : Nat) (k : Nat) (words : List Nat) (stamp : Nat) (aligned : Bool) (crcOk : Bool) (s : State) (h_s : Keeps orig s) : KeepsRes orig (execJesdMultiblockRelease n k words stamp aligned crcOk s) := by
  unfold execJesdMultiblockRelease
  repeat' (first
    | with_reducible assumption
    | with_reducible apply KeepsRes.next
    | with_reducible apply State.discard_keeps
    | with_reducible apply State.fastEnd_keeps
    | with_reducible apply State.stampScale_keeps
    | with_reducible apply State.acceptAt_keeps
    | with_reducible apply KeepsRes.cond
    | with_reducible apply KeepsRes.ite
    | with_reducible apply Keeps.cond
    | with_reducible apply Keeps.cond_fst
    | with_reducible apply Keeps.ite_fst
    | (extract_lets +onlyGivenNames x; refine Keeps.via' (o := orig) (x := x) ?_ (fun hx => ?_); rotate_left; clear_value x; rotate_right; subst x)
    | (extract_lets +onlyGivenNames x; refine Keeps.via' (o := orig) (x := x.1) ?_ (fun hx => ?_); rotate_left; clear_value x; rotate_right; subst x)
    | (extract_lets +onlyGivenNames x; clear_value x)
    | split)

theorem execFastPathSample_keeps {orig : State} (n : Nat) (counter : Nat) (i : Int) (q : Int) (first : Bool) (s : State) (h_s : Keeps orig s) : KeepsRes orig (execFastPathSample n counter i q first s) := by
  unfold execFastPathSample
  repeat' (first
    | with_reducible assumption
    | with_reducible apply KeepsRes.next
    | with_reducible apply State.setInp_keeps
    | with_reducible apply Keeps.cond)

theorem State.genStart_keeps {orig : State} (s : State) (n : Nat) (h_s : Keeps orig s) : Keeps orig (State.genStart s n) := by
  unfold State.genStart
  repeat' (first
    | with_reducible assumption
    | with_reducible apply State.settleGap_keeps
    | with_reducible apply State.raise_keeps
    | with_reducible apply State.setInp_keeps
    | with_reducible apply Keeps.cond
    | with_reducible apply Keeps.ite
    | (extract_lets +onlyGivenNames x; refine Keeps.via' (o := orig) (x := x) ?_ (fun hx => ?_); rotate_left; clear_value x; rotate_right; subst x)
    | (extract_lets +onlyGivenNames x; clear_value x)
    | split
    | (with_reducible apply Keeps.mk'; with_reducible assumption)
    | (with_reducible apply Keeps.mk'; first | with_reducible apply State.settleGap_keeps | with_reducible apply State.raise_keeps | with_reducible apply State.setInp_keeps | with_reducible apply Keeps.cond | with_reducible apply Keeps.ite))

theorem State.testGap_keeps {orig : State} (s : State) (n : Nat) (h_s : Keeps orig s) : Keeps orig (State.testGap s n) := by
  unfold State.testGap
  repeat' (first
    | with_reducible assumption
    | intro x
    | with_reducible apply State.gapCause_keeps
    | with_reducible apply State.setInp_keeps
    | with_reducible apply State.ingState_keeps
    | with_reducible apply Keeps.cond
    | (extract_lets +onlyGivenNames x; refine Keeps.via' (o := orig) (x := x) ?_ (fun hx => ?_); rotate_left; clear_value x; rotate_right; subst x)
    | (extract_lets +onlyGivenNames x; clear_value x)
    | (with_reducible apply Keeps.mk'; with_reducible assumption)
    | (with_reducible apply Keeps.mk'; first | with_reducible apply State.gapCause_keeps | with_reducible apply State.setInp_keeps | with_reducible apply State.ingState_keeps | with_reducible apply Keeps.cond))

theorem State.dcSync_keeps {orig : State} (s : State) (n : Nat) (h_s : Keeps orig s) : Keeps orig (State.dcSync s n) := by
  unfold State.dcSync
  repeat' (first
    | with_reducible assumption
    | with_reducible apply State.putI_keeps
    | (extract_lets +onlyGivenNames x; refine Keeps.via' (o := orig) (x := x) ?_ (fun hx => ?_); rotate_left; clear_value x; rotate_right; subst x)
    | (extract_lets +onlyGivenNames x; clear_value x))

theorem State.inputEnabled_keeps {orig : State} (s : State) (n : Nat) (h_s : Keeps orig s) : Keeps orig (State.inputEnabled s n) := by
  unfold State.inputEnabled
  repeat' (first
    | with_reducible assumption
    | intro x
    | with_reducible apply State.setInp_keeps
    | with_reducible apply State.dcSync_keeps
    | with_reducible apply State.gapCause_keeps
    | with_reducible apply Keeps.cond
    | (extract_lets +onlyGivenNames x; refine Keeps.via' (o := orig) (x := x) ?_ (fun hx => ?_); rotate_left; clear_value x; rotate_right; subst x)
    | (extract_lets +onlyGivenNames x; clear_value x)
    | (with_reducible apply Keeps.mk'; with_reducible assumption)
    | (with_reducible apply Keeps.mk'; first | with_reducible apply State.setInp_keeps | with_reducible apply State.dcSync_keeps | with_reducible apply State.gapCause_keeps | with_reducible apply Keeps.cond))

theorem State.swapInput_keeps {orig : State} (s : State) (n : Nat) (h_s : Keeps orig s) : Keeps orig (State.swapInput s n) := by
  unfold State.swapInput
  repeat' (first
    | with_reducible assumption
    | with_reducible apply State.swapWhere_keeps
    | with_reducible apply State.calSwap_keeps
    | with_reducible apply State.setInp_keeps
    | with_reducible apply State.causeBit_keeps
    | with_reducible apply State.causeLater_keeps
    | with_reducible apply State.inputEnabled_keeps
    | with_reducible apply State.fineEnd_keeps
    | with_reducible apply State.genStart_keeps
    | with_reducible apply State.testGap_keeps
    | with_reducible apply State.ingState_keeps
    | with_reducible apply Keeps.cond
    | with_reducible apply Keeps.ite
    | (extract_lets +onlyGivenNames x; refine Keeps.via' (o := orig) (x := x) ?_ (fun hx => ?_); rotate_left; clear_value x; rotate_right; subst x)
    | (extract_lets +onlyGivenNames x; clear_value x)
    | split
    | (with_reducible apply Keeps.mk'; with_reducible assumption)
    | (with_reducible apply Keeps.mk'; first | with_reducible apply State.swapWhere_keeps | with_reducible apply State.calSwap_keeps | with_reducible apply State.setInp_keeps | with_reducible apply State.causeBit_keeps | with_reducible apply State.causeLater_keeps | with_reducible apply State.inputEnabled_keeps | with_reducible apply State.fineEnd_keeps | with_reducible apply State.genStart_keeps | with_reducible apply State.testGap_keeps | with_reducible apply State.ingState_keeps | with_reducible apply Keeps.cond | with_reducible apply Keeps.ite))

theorem State.swapLane_keeps {orig : State} (s : State) (l : Nat) (h_s : Keeps orig s) : Keeps orig (State.swapLane s l) := by
  unfold State.swapLane
  repeat' (first
    | with_reducible assumption
    | intro x
    | with_reducible apply State.swapWhere_keeps
    | with_reducible apply State.put64_keeps
    | with_reducible apply State.setLane_keeps
    | with_reducible apply State.testGap_keeps
    | with_reducible apply State.laneFails_keeps
    | with_reducible apply State.laneTo_keeps
    | with_reducible apply Keeps.cond
    | with_reducible apply Keeps.foldl
    | (extract_lets +onlyGivenNames x; refine Keeps.via' (o := orig) (x := x) ?_ (fun hx => ?_); rotate_left; clear_value x; rotate_right; subst x)
    | (extract_lets +onlyGivenNames x; clear_value x)
    | (with_reducible apply Keeps.mk'; with_reducible assumption)
    | (with_reducible apply Keeps.mk'; first | with_reducible apply State.swapWhere_keeps | with_reducible apply State.put64_keeps | with_reducible apply State.setLane_keeps | with_reducible apply State.testGap_keeps | with_reducible apply State.laneFails_keeps | with_reducible apply State.laneTo_keeps | with_reducible apply Keeps.foldl | with_reducible apply Keeps.cond))

theorem State.swapGroup_keeps {orig : State} (s : State) (g : Nat) (h_s : Keeps orig s) : Keeps orig (State.swapGroup s g) := by
  unfold State.swapGroup
  repeat' (first
    | with_reducible assumption
    | intro x
    | with_reducible apply State.swapWhere_keeps
    | with_reducible apply State.laneRetrain_keeps
    | with_reducible apply Keeps.cond
    | with_reducible apply Keeps.foldl
    | (extract_lets +onlyGivenNames x; refine Keeps.via' (o := orig) (x := x) ?_ (fun hx => ?_); rotate_left; clear_value x; rotate_right; subst x)
    | (extract_lets +onlyGivenNames x; clear_value x))

theorem State.inputBoundary_keeps {orig : State} (s : State) (l : Nat) (n : Nat) (h_s : Keeps orig s) : Keeps orig (State.inputBoundary s l n) := by
  unfold State.inputBoundary
  repeat' (first
    | with_reducible assumption
    | intro x
    | with_reducible apply State.swapInput_keeps
    | with_reducible apply State.setInp_keeps
    | with_reducible apply Keeps.cond
    | (extract_lets +onlyGivenNames x; refine Keeps.via' (o := orig) (x := x) ?_ (fun hx => ?_); rotate_left; clear_value x; rotate_right; subst x)
    | (extract_lets +onlyGivenNames x; clear_value x)
    | (with_reducible apply Keeps.mk'; with_reducible assumption)
    | (with_reducible apply Keeps.mk'; first | with_reducible apply State.swapInput_keeps | with_reducible apply State.setInp_keeps | with_reducible apply Keeps.cond))

theorem execIngressSwap_keeps {orig : State} (lane : Nat) (s : State) (h_s : Keeps orig s) : KeepsRes orig (execIngressSwap lane s) := by
  unfold execIngressSwap
  repeat' (first
    | with_reducible assumption
    | intro x
    | with_reducible apply KeepsRes.next
    | with_reducible apply State.swapLane_keeps
    | with_reducible apply State.swapGroup_keeps
    | with_reducible apply State.inputBoundary_keeps
    | with_reducible apply State.swapWhere_keeps
    | with_reducible apply State.swapDone_keeps
    | with_reducible apply KeepsRes.cond
    | with_reducible apply KeepsRes.ite
    | with_reducible apply Keeps.cond
    | with_reducible apply Keeps.foldl
    | (extract_lets +onlyGivenNames x; refine Keeps.via' (o := orig) (x := x) ?_ (fun hx => ?_); rotate_left; clear_value x; rotate_right; subst x)
    | (extract_lets +onlyGivenNames x; clear_value x)
    | (with_reducible apply Keeps.mk'; with_reducible assumption)
    | (with_reducible apply Keeps.mk'; first | with_reducible apply State.swapLane_keeps | with_reducible apply State.swapGroup_keeps | with_reducible apply State.inputBoundary_keeps | with_reducible apply State.swapWhere_keeps | with_reducible apply State.swapDone_keeps | with_reducible apply Keeps.foldl | with_reducible apply Keeps.cond))

theorem State.ingCommit_keeps {orig : State} (s : State) (h_s : Keeps orig s) : Keeps orig (State.ingCommit s) := by
  unfold State.ingCommit
  repeat' (first
    | with_reducible assumption
    | with_reducible apply State.swapDone_keeps
    | with_reducible apply State.swapWhere_keeps
    | with_reducible apply Keeps.cond
    | (extract_lets +onlyGivenNames x; clear_value x)
    | (with_reducible apply Keeps.mk'; with_reducible assumption))

theorem State.ingSleep_keeps {orig : State} (s : State) (h_s : Keeps orig s) : Keeps orig (State.ingSleep s) := by
  unfold State.ingSleep
  repeat' (first
    | with_reducible assumption
    | intro x
    | with_reducible apply State.inputFails_keeps
    | with_reducible apply State.gapClose_keeps
    | with_reducible apply State.put_keeps
    | with_reducible apply State.laneAnew_keeps
    | with_reducible apply State.setInp_keeps
    | with_reducible apply State.ingState_keeps
    | with_reducible apply Keeps.cond
    | with_reducible apply Keeps.foldl
    | (extract_lets +onlyGivenNames x; refine Keeps.via' (o := orig) (x := x) ?_ (fun hx => ?_); rotate_left; clear_value x; rotate_right; subst x)
    | (extract_lets +onlyGivenNames x; clear_value x)
    | split
    | (with_reducible apply Keeps.mk'; with_reducible assumption)
    | (with_reducible apply Keeps.mk'; first | with_reducible apply State.inputFails_keeps | with_reducible apply State.gapClose_keeps | with_reducible apply State.put_keeps | with_reducible apply State.laneAnew_keeps | with_reducible apply State.setInp_keeps | with_reducible apply State.ingState_keeps | with_reducible apply Keeps.foldl | with_reducible apply Keeps.cond))

theorem State.ingWake_keeps {orig : State} (s : State) (h_s : Keeps orig s) : Keeps orig (State.ingWake s) := by
  unfold State.ingWake
  repeat' (first
    | with_reducible assumption
    | intro x
    | with_reducible apply State.laneTo_keeps
    | with_reducible apply Keeps.cond
    | with_reducible apply Keeps.foldl)

theorem State.genWake_keeps {orig : State} (s : State) (h_s : Keeps orig s) : Keeps orig (State.genWake s) := by
  unfold State.genWake
  repeat' (first
    | with_reducible assumption
    | intro x
    | with_reducible apply State.setInp_keeps
    | with_reducible apply State.genStart_keeps
    | with_reducible apply State.ingState_keeps
    | with_reducible apply Keeps.cond
    | with_reducible apply Keeps.foldl)

theorem State.ingTvStop_keeps {orig : State} (s : State) (n : Nat) (h_s : Keeps orig s) : Keeps orig (State.ingTvStop s n) := by
  unfold State.ingTvStop
  repeat' (first
    | with_reducible assumption
    | with_reducible apply State.gapShared_keeps)

end Sys2Proof.Machine
end

