-- ==== Sys2Proof/Laws/KeepsFront.lean ====
section
/-!
SUPPORT. Every operation of Machine/Front.lean keeps the canonical forms and the queue.
-/
namespace Sys2Proof.Machine

theorem State.pushSpec_keeps {orig : State} (s : State) (port : Nat) (n : Nat) (p : Spectrum) (h_s : Keeps orig s) : Keeps orig (State.pushSpec s port n p) := by
  unfold State.pushSpec
  repeat' (first
    | (extract_lets +onlyGivenNames x; clear_value x)
    | split
    | (with_reducible apply Keeps.mk'; with_reducible assumption))

theorem State.coarseCount_keeps {orig : State} (s : State) (n : Nat) (sat : Nat) (csat : Nat) (h_s : Keeps orig s) : Keeps orig (State.coarseCount s n sat csat) := by
  unfold State.coarseCount
  repeat' (first
    | with_reducible assumption
    | with_reducible apply State.calSat_keeps
    | with_reducible apply State.count_keeps
    | with_reducible apply State.ev_keeps
    | with_reducible apply State.put_keeps
    | with_reducible apply Keeps.cond
    | (extract_lets +onlyGivenNames x; refine Keeps.via' (o := orig) (x := x) ?_ (fun hx => ?_); rotate_left; clear_value x; rotate_right; subst x)
    | (extract_lets +onlyGivenNames x; clear_value x))

theorem State.swapPast_keeps {orig : State} (s : State) (port : Nat) (n : Nat) (i : Nat) (h_s : Keeps orig s) : Keeps orig (State.swapPast s port n i) := by
  unfold State.swapPast
  repeat' (first
    | with_reducible assumption
    | with_reducible apply Keeps.cond
    | split
    | (with_reducible apply Keeps.mk'; with_reducible assumption)
    | (with_reducible apply Keeps.mk'; first | with_reducible apply Keeps.cond))

theorem State.deliverSpec_keeps {orig : State} (s : State) (port : Nat) (n : Nat) (p : Spectrum) (h_s : Keeps orig s) : Keeps orig (State.deliverSpec s port n p) := by
  unfold State.deliverSpec
  repeat' (first
    | with_reducible assumption
    | with_reducible apply State.pushSpec_keeps
    | with_reducible apply State.swapPast_keeps)

theorem State.coarseDone_keeps {orig : State} (s : State) (n : Nat) (port : Nat) (p : Spectrum) (sat : Nat) (csat : Nat) (h_s : Keeps orig s) : Keeps orig (State.coarseDone s n port p sat csat) := by
  unfold State.coarseDone
  repeat' (first
    | with_reducible assumption
    | with_reducible apply State.coarseCount_keeps
    | with_reducible apply State.deliverSpec_keeps)

theorem State.dcZero_keeps {orig : State} (s : State) (n : Nat) (h_s : Keeps orig s) : Keeps orig (State.dcZero s n) := by
  unfold State.dcZero
  repeat' (first
    | with_reducible assumption
    | with_reducible apply State.setInp_keeps
    | with_reducible apply State.dcSync_keeps
    | (with_reducible apply Keeps.mk'; with_reducible assumption)
    | (with_reducible apply Keeps.mk'; first | with_reducible apply State.setInp_keeps | with_reducible apply State.dcSync_keeps))

theorem State.frontCommit_keeps {orig : State} (s : State) (h_s : Keeps orig s) : Keeps orig (State.frontCommit s) := by
  unfold State.frontCommit
  repeat' (first
    | with_reducible assumption
    | intro x
    | with_reducible apply State.dcZero_keeps
    | with_reducible apply Keeps.cond
    | with_reducible apply Keeps.foldl
    | (extract_lets +onlyGivenNames x; refine Keeps.via' (o := orig) (x := x) ?_ (fun hx => ?_); rotate_left; clear_value x; rotate_right; subst x)
    | (extract_lets +onlyGivenNames x; clear_value x)
    | (with_reducible apply Keeps.mk'; with_reducible assumption)
    | (with_reducible apply Keeps.mk'; first | with_reducible apply State.dcZero_keeps | with_reducible apply Keeps.foldl | with_reducible apply Keeps.cond))

theorem State.frontDone_keeps {orig : State} (s : State) (h_s : Keeps orig s) : Keeps orig (State.frontDone s) := by
  unfold State.frontDone
  repeat' (first
    | with_reducible assumption
    | intro x
    | with_reducible apply State.swapWhere_keeps
    | with_reducible apply State.flag_keeps
    | with_reducible apply State.ev_keeps
    | with_reducible apply State.swapDone_keeps
    | with_reducible apply State.ringSync_keeps
    | with_reducible apply Keeps.cond
    | with_reducible apply Keeps.cond_fst
    | with_reducible apply Keeps.ite_fst
    | (extract_lets +onlyGivenNames x; refine Keeps.via' (o := orig) (x := x) ?_ (fun hx => ?_); rotate_left; clear_value x; rotate_right; subst x)
    | (extract_lets +onlyGivenNames x; refine Keeps.via' (o := orig) (x := x.1) ?_ (fun hx => ?_); rotate_left; clear_value x; rotate_right; subst x)
    | (extract_lets +onlyGivenNames x; clear_value x)
    | (with_reducible apply Keeps.mk'; with_reducible assumption)
    | (with_reducible apply Keeps.mk'; first | with_reducible apply State.swapWhere_keeps | with_reducible apply State.flag_keeps | with_reducible apply State.ev_keeps | with_reducible apply State.swapDone_keeps | with_reducible apply State.ringSync_keeps | with_reducible apply Keeps.cond))

theorem State.gridSwapped_keeps {orig : State} (s : State) (g : Nat) (h_s : Keeps orig s) : Keeps orig (State.gridSwapped s g) := by
  unfold State.gridSwapped
  repeat' (first
    | with_reducible assumption
    | with_reducible apply State.frontDone_keeps
    | (with_reducible apply Keeps.mk'; with_reducible assumption)
    | (with_reducible apply Keeps.mk'; first | with_reducible apply State.frontDone_keeps))

theorem execCchSwap_keeps {orig : State} (n : Nat) (port : Nat) (s : State) (h_s : Keeps orig s) : KeepsRes orig (execCchSwap n port s) := by
  unfold execCchSwap
  repeat' (first
    | with_reducible assumption
    | with_reducible apply KeepsRes.next
    | with_reducible apply State.calSwap_keeps
    | with_reducible apply State.dcZero_keeps
    | with_reducible apply State.fineEnd_keeps
    | with_reducible apply State.gridSwapped_keeps
    | with_reducible apply State.setInp_keeps
    | with_reducible apply State.fineCut_keeps
    | with_reducible apply KeepsRes.cond
    | with_reducible apply KeepsRes.ite
    | with_reducible apply Keeps.cond
    | (extract_lets +onlyGivenNames x; refine Keeps.via' (o := orig) (x := x) ?_ (fun hx => ?_); rotate_left; clear_value x; rotate_right; subst x)
    | (extract_lets +onlyGivenNames x; clear_value x)
    | (with_reducible apply Keeps.mk'; with_reducible assumption)
    | (with_reducible apply Keeps.mk'; first | with_reducible apply State.calSwap_keeps | with_reducible apply State.dcZero_keeps | with_reducible apply State.fineEnd_keeps | with_reducible apply State.gridSwapped_keeps | with_reducible apply State.setInp_keeps | with_reducible apply State.fineCut_keeps | with_reducible apply Keeps.cond))

theorem State.releaseOne_keeps {orig : State} (s : State) (n : Nat) (idx : Nat) (v : Option (Int × Int)) (c16 : Bool) (h_s : Keeps orig s) : Keeps orig (State.releaseOne s n idx v c16) := by
  unfold State.releaseOne
  repeat' (first
    | with_reducible assumption
    | with_reducible apply State.setInp_keeps)

theorem State.releaseNext_keeps {orig : State} (s : State) (n : Nat) (h_s : Keeps orig s) : Keeps orig (State.releaseNext s n).1 := by
  unfold State.releaseNext
  repeat' (first
    | with_reducible assumption
    | with_reducible apply State.setInp_keeps
    | with_reducible apply Keeps.cond_fst
    | (extract_lets +onlyGivenNames x; clear_value x)
    | split)

end Sys2Proof.Machine
end

