-- ==== Sys2Proof/Laws/KeepsFine.lean ====
section
/-!
SUPPORT. Every operation of Machine/Fine.lean keeps the canonical forms and the queue.
-/
namespace Sys2Proof.Machine

theorem State.chainTake_keeps {orig : State} (s : State) (n : Nat) (c : FineChain) (p : Spectrum) (h_s : Keeps orig s) : Keeps orig (State.chainTake s n c p).1 := by
  unfold State.chainTake
  repeat' (first
    | with_reducible assumption
    | intro x
    | with_reducible apply State.settle_keeps
    | with_reducible apply Keeps.cond
    | with_reducible apply Keeps.cond_fst
    | with_reducible apply Keeps.ite_fst
    | (extract_lets +onlyGivenNames x; refine Keeps.via' (o := orig) (x := x) ?_ (fun hx => ?_); rotate_left; clear_value x; rotate_right; subst x)
    | (extract_lets +onlyGivenNames x; refine Keeps.via' (o := orig) (x := x.1) ?_ (fun hx => ?_); rotate_left; clear_value x; rotate_right; subst x)
    | (extract_lets +onlyGivenNames x; clear_value x)
    | split
    | (with_reducible apply Keeps.mk'; with_reducible assumption)
    | (with_reducible apply Keeps.mk'; first | with_reducible apply State.settle_keeps | with_reducible apply Keeps.cond))

theorem State.fineTake_keeps {orig : State} (s : State) (n : Nat) (p : Spectrum) (h_s : Keeps orig s) : Keeps orig (State.fineTake s n p).1 := by
  unfold State.fineTake
  repeat' (first
    | with_reducible assumption
    | intro x
    | with_reducible apply State.count_keeps
    | with_reducible apply State.ev_keeps
    | with_reducible apply State.chainTake_keeps
    | with_reducible apply State.setChains_keeps
    | with_reducible apply State.finePrune_keeps
    | with_reducible apply Keeps.cond
    | with_reducible apply Keeps.cond_fst
    | with_reducible apply Keeps.ite_fst
    | with_reducible apply Keeps.foldl
    | with_reducible apply Keeps.foldl_fst
    | (extract_lets +onlyGivenNames x; refine Keeps.via' (o := orig) (x := x) ?_ (fun hx => ?_); rotate_left; clear_value x; rotate_right; subst x)
    | (extract_lets +onlyGivenNames x; refine Keeps.via' (o := orig) (x := x.1) ?_ (fun hx => ?_); rotate_left; clear_value x; rotate_right; subst x)
    | (extract_lets +onlyGivenNames x; clear_value x))

theorem State.chainVoid_keeps {orig : State} (s : State) (n : Nat) (c : FineChain) (m : Nat) (h_s : Keeps orig s) : Keeps orig (State.chainVoid s n c m).1 := by
  unfold State.chainVoid
  repeat' (first
    | with_reducible assumption
    | with_reducible apply State.settle_keeps
    | with_reducible apply Keeps.cond
    | with_reducible apply Keeps.cond_fst
    | with_reducible apply Keeps.ite_fst
    | (extract_lets +onlyGivenNames x; refine Keeps.via' (o := orig) (x := x) ?_ (fun hx => ?_); rotate_left; clear_value x; rotate_right; subst x)
    | (extract_lets +onlyGivenNames x; refine Keeps.via' (o := orig) (x := x.1) ?_ (fun hx => ?_); rotate_left; clear_value x; rotate_right; subst x)
    | (extract_lets +onlyGivenNames x; clear_value x)
    | split)

theorem State.fineVoid_keeps {orig : State} (s : State) (n : Nat) (m : Nat) (h_s : Keeps orig s) : Keeps orig (State.fineVoid s n m).1 := by
  unfold State.fineVoid
  repeat' (first
    | with_reducible assumption
    | intro x
    | with_reducible apply State.chainVoid_keeps
    | with_reducible apply State.setChains_keeps
    | with_reducible apply State.finePrune_keeps
    | with_reducible apply Keeps.cond
    | with_reducible apply Keeps.cond_fst
    | with_reducible apply Keeps.ite_fst
    | with_reducible apply Keeps.foldl
    | with_reducible apply Keeps.foldl_fst
    | (extract_lets +onlyGivenNames x; refine Keeps.via' (o := orig) (x := x) ?_ (fun hx => ?_); rotate_left; clear_value x; rotate_right; subst x)
    | (extract_lets +onlyGivenNames x; refine Keeps.via' (o := orig) (x := x.1) ?_ (fun hx => ?_); rotate_left; clear_value x; rotate_right; subst x)
    | (extract_lets +onlyGivenNames x; clear_value x))

theorem State.pushFine_keeps {orig : State} (s : State) (n : Nat) (p : Spectrum) (sat : Nat) (h_s : Keeps orig s) : Keeps orig (State.pushFine s n p sat) := by
  unfold State.pushFine
  repeat' (first
    | with_reducible assumption
    | with_reducible apply State.setFin_keeps
    | with_reducible apply State.ev_keeps
    | with_reducible apply State.put_keeps
    | with_reducible apply State.count_keeps
    | with_reducible apply Keeps.cond)

theorem execFineSpectrumDue_keeps {orig : State} (n : Nat) (mf : Nat) (s : State) (h_s : Keeps orig s) : KeepsRes orig (execFineSpectrumDue n mf s) := by
  unfold execFineSpectrumDue
  repeat' (first
    | with_reducible assumption
    | with_reducible apply KeepsRes.next
    | with_reducible apply State.setChains_keeps
    | with_reducible apply State.finePrune_keeps
    | with_reducible apply KeepsRes.cond
    | with_reducible apply KeepsRes.ite
    | with_reducible apply Keeps.cond
    | (extract_lets +onlyGivenNames x; refine Keeps.via' (o := orig) (x := x) ?_ (fun hx => ?_); rotate_left; clear_value x; rotate_right; subst x)
    | (extract_lets +onlyGivenNames x; clear_value x))

theorem State.fineCommit_keeps {orig : State} (s : State) (h_s : Keeps orig s) : Keeps orig (State.fineCommit s) := by
  unfold State.fineCommit
  repeat' (first
    | with_reducible assumption
    | intro x
    | with_reducible apply State.setFin_keeps
    | with_reducible apply Keeps.cond
    | with_reducible apply Keeps.foldl
    | (extract_lets +onlyGivenNames x; refine Keeps.via' (o := orig) (x := x) ?_ (fun hx => ?_); rotate_left; clear_value x; rotate_right; subst x)
    | (extract_lets +onlyGivenNames x; clear_value x)
    | (with_reducible apply Keeps.mk'; with_reducible assumption))

theorem State.chainBegin_keeps {orig : State} (s : State) (n : Nat) (c : FineChain) (i : Nat) (h_s : Keeps orig s) : Keeps orig (State.chainBegin s n c i) := by
  unfold State.chainBegin
  repeat' (first
    | with_reducible assumption
    | intro x
    | with_reducible apply State.chainTake_keeps
    | with_reducible apply State.setChains_keeps
    | with_reducible apply Keeps.cond_fst
    | with_reducible apply Keeps.ite_fst
    | with_reducible apply Keeps.foldl
    | with_reducible apply Keeps.foldl_fst
    | (extract_lets +onlyGivenNames x; refine Keeps.via' (o := orig) (x := x) ?_ (fun hx => ?_); rotate_left; clear_value x; rotate_right; subst x)
    | (extract_lets +onlyGivenNames x; refine Keeps.via' (o := orig) (x := x.1) ?_ (fun hx => ?_); rotate_left; clear_value x; rotate_right; subst x)
    | (extract_lets +onlyGivenNames x; clear_value x)
    | (with_reducible apply Keeps.mk'; with_reducible assumption)
    | (with_reducible apply Keeps.mk'; first | with_reducible apply State.chainTake_keeps | with_reducible apply State.setChains_keeps | with_reducible apply Keeps.foldl))

theorem State.chainsLimit_keeps {orig : State} (s : State) (n : Nat) (i : Nat) (h_s : Keeps orig s) : Keeps orig (State.chainsLimit s n i) := by
  unfold State.chainsLimit
  repeat' (first
    | with_reducible assumption
    | intro x
    | with_reducible apply State.setChains_keeps
    | with_reducible apply Keeps.cond
    | (with_reducible apply Keeps.mk'; with_reducible assumption)
    | (with_reducible apply Keeps.mk'; first | with_reducible apply State.setChains_keeps | with_reducible apply Keeps.cond))

theorem execFchSwap_keeps {orig : State} (n : Nat) (s : State) (h_s : Keeps orig s) : KeepsRes orig (execFchSwap n s) := by
  unfold execFchSwap
  repeat' (first
    | with_reducible assumption
    | intro x
    | with_reducible apply KeepsRes.next
    | with_reducible apply State.calSwap_keeps
    | with_reducible apply State.chainsLimit_keeps
    | with_reducible apply State.chainBegin_keeps
    | with_reducible apply State.finePrune_keeps
    | with_reducible apply KeepsRes.cond
    | with_reducible apply KeepsRes.ite
    | with_reducible apply Keeps.cond
    | (extract_lets +onlyGivenNames x; refine Keeps.via' (o := orig) (x := x) ?_ (fun hx => ?_); rotate_left; clear_value x; rotate_right; subst x)
    | (extract_lets +onlyGivenNames x; clear_value x)
    | (with_reducible apply Keeps.mk'; with_reducible assumption)
    | (with_reducible apply Keeps.mk'; first | with_reducible apply State.calSwap_keeps | with_reducible apply State.chainsLimit_keeps | with_reducible apply State.chainBegin_keeps | with_reducible apply State.finePrune_keeps | with_reducible apply Keeps.cond))

end Sys2Proof.Machine
end

