-- ==== Sys2Proof/Laws/KeepsTuner.lean ====
section
/-!
SUPPORT. Every operation of Machine/Tuner.lean keeps the canonical forms and the queue.
-/
namespace Sys2Proof.Machine

theorem State.setTuner_keeps {orig : State} (s : State) (t : Nat) (x : Tuner) (h_s : Keeps orig s) : Keeps orig (State.setTuner s t x) := by
  unfold State.setTuner
  repeat' (first
    | (extract_lets +onlyGivenNames x; clear_value x)
    | (with_reducible apply Keeps.mk'; with_reducible assumption))

theorem State.tunEv_keeps {orig : State} (s : State) (t : Nat) (h_s : Keeps orig s) : Keeps orig (State.tunEv s t) := by
  unfold State.tunEv
  repeat' (first
    | with_reducible assumption
    | with_reducible apply State.ev_keeps)

theorem State.tunFlag_keeps {orig : State} (s : State) (t : Nat) (f : Fld) (h_s : Keeps orig s) : Keeps orig (State.tunFlag s t f) := by
  unfold State.tunFlag
  repeat' (first
    | with_reducible assumption
    | with_reducible apply State.tunEv_keeps
    | with_reducible apply State.flag_keeps)

theorem State.tunSat_keeps {orig : State} (s : State) (t : Nat) (k : Nat) (h_s : Keeps orig s) : Keeps orig (State.tunSat s t k) := by
  unfold State.tunSat
  repeat' (first
    | with_reducible assumption
    | with_reducible apply State.put_keeps
    | with_reducible apply State.count_keeps
    | with_reducible apply State.tunFlag_keeps
    | with_reducible apply Keeps.cond)

theorem State.streamForm_keeps {orig : State} (s : State) (t : Nat) (ch : Chain) (h_s : Keeps orig s) : Keeps orig (State.streamForm s t ch) := by
  unfold State.streamForm
  repeat' (first
    | with_reducible assumption
    | with_reducible apply State.tunSat_keeps
    | with_reducible apply State.setTuner_keeps
    | with_reducible apply Keeps.cond
    | (extract_lets +onlyGivenNames x; refine Keeps.via' (o := orig) (x := x) ?_ (fun hx => ?_); rotate_left; clear_value x; rotate_right; subst x)
    | (extract_lets +onlyGivenNames x; clear_value x)
    | split
    | (with_reducible apply Keeps.mk'; with_reducible assumption)
    | (with_reducible apply Keeps.mk'; first | with_reducible apply State.tunSat_keeps | with_reducible apply State.setTuner_keeps | with_reducible apply Keeps.cond))

theorem State.streamTake_keeps {orig : State} (t : Nat) (old : Bool) (n : Nat) (y0 : Nat) (y1 : Chain) (y2 : State) (h_y2 : Keeps orig y2) : Keeps orig (State.streamTake t old n y0 y1 y2) := by
  induction y0 generalizing y1 y2 with
  | zero =>
  rw [State.streamTake]
  repeat' (first
    | with_reducible assumption
    | intro x
    | with_reducible apply State.setTuner_keeps
    | with_reducible apply State.pend_keeps
    | with_reducible apply State.streamForm_keeps
    | with_reducible apply State.put_keeps
    | with_reducible apply Keeps.ite
    | with_reducible apply Keeps.cond_fst
    | with_reducible apply Keeps.ite_fst
    | (extract_lets +onlyGivenNames x; refine Keeps.via' (o := orig) (x := x) ?_ (fun hx => ?_); rotate_left; clear_value x; rotate_right; subst x)
    | (extract_lets +onlyGivenNames x; refine Keeps.via' (o := orig) (x := x.1) ?_ (fun hx => ?_); rotate_left; clear_value x; rotate_right; subst x)
    | (extract_lets +onlyGivenNames x; clear_value x)
    | split
    | (with_reducible apply Keeps.mk'; with_reducible assumption)
    | (with_reducible apply Keeps.mk'; first | with_reducible apply State.setTuner_keeps | with_reducible apply State.pend_keeps | with_reducible apply State.streamForm_keeps | with_reducible apply State.put_keeps | with_reducible apply Keeps.ite))
  | succ k ih =>
  rw [State.streamTake]
  repeat' (first
    | with_reducible assumption
    | with_reducible apply ih
    | intro x
    | with_reducible apply State.setTuner_keeps
    | with_reducible apply State.pend_keeps
    | with_reducible apply State.streamForm_keeps
    | with_reducible apply State.put_keeps
    | with_reducible apply Keeps.ite
    | with_reducible apply Keeps.cond_fst
    | with_reducible apply Keeps.ite_fst
    | (extract_lets +onlyGivenNames x; refine Keeps.via' (o := orig) (x := x) ?_ (fun hx => ?_); rotate_left; clear_value x; rotate_right; subst x)
    | (extract_lets +onlyGivenNames x; refine Keeps.via' (o := orig) (x := x.1) ?_ (fun hx => ?_); rotate_left; clear_value x; rotate_right; subst x)
    | (extract_lets +onlyGivenNames x; clear_value x)
    | split
    | (with_reducible apply Keeps.mk'; with_reducible assumption)
    | (with_reducible apply Keeps.mk'; first | with_reducible apply State.setTuner_keeps | with_reducible apply State.pend_keeps | with_reducible apply State.streamForm_keeps | with_reducible apply State.put_keeps | with_reducible apply Keeps.ite))

theorem State.startSeries_keeps {orig : State} (s : State) (t : Nat) (c : TunSet) (nco : Nco) (i : Nat) (h_s : Keeps orig s) : Keeps orig (State.startSeries s t c nco i) := by
  unfold State.startSeries
  repeat' (first
    | with_reducible assumption
    | with_reducible apply State.wrap_keeps
    | with_reducible apply State.put_keeps
    | with_reducible apply State.put64_keeps
    | with_reducible apply State.setTuner_keeps
    | with_reducible apply State.tunFlag_keeps)

theorem State.tunAccept_keeps {orig : State} (s : State) (h_s : Keeps orig s) : Keeps orig (State.tunAccept s) := by
  unfold State.tunAccept
  repeat' (first
    | with_reducible assumption
    | intro x
    | with_reducible apply State.tunFlag_keeps
    | with_reducible apply State.setTuner_keeps
    | with_reducible apply Keeps.cond
    | with_reducible apply Keeps.foldl)

theorem State.setRing_keeps {orig : State} (s : State) (t : Nat) (k : Nat) (x : RingSlot) (h_s : Keeps orig s) : Keeps orig (State.setRing s t k x) := by
  unfold State.setRing
  repeat' (first
    | (extract_lets +onlyGivenNames x; clear_value x)
    | (with_reducible apply Keeps.mk'; with_reducible assumption))

theorem State.ringGive_keeps {orig : State} (s : State) (t : Nat) (k : Nat) (u : Option Nat) (h_s : Keeps orig s) : Keeps orig (State.ringGive s t k u) := by
  unfold State.ringGive
  repeat' (first
    | with_reducible assumption
    | with_reducible apply State.setRing_keeps
    | with_reducible apply State.put_keeps
    | with_reducible apply State.flag_keeps
    | with_reducible apply Keeps.cond
    | (extract_lets +onlyGivenNames x; clear_value x)
    | split)

theorem State.ringAssign_keeps {orig : State} (s : State) (h_s : Keeps orig s) : Keeps orig (State.ringAssign s) := by
  unfold State.ringAssign
  repeat' (first
    | with_reducible assumption
    | intro x
    | with_reducible apply State.ringGive_keeps
    | with_reducible apply Keeps.foldl)

theorem State.tunSwapped_keeps {orig : State} (s : State) (t : Nat) (h_s : Keeps orig s) : Keeps orig (State.tunSwapped s t) := by
  unfold State.tunSwapped
  repeat' (first
    | with_reducible assumption
    | with_reducible apply State.ev_keeps
    | with_reducible apply State.swapDone_keeps
    | with_reducible apply State.flag_keeps
    | with_reducible apply State.swapWhere_keeps
    | with_reducible apply Keeps.cond
    | (extract_lets +onlyGivenNames x; clear_value x)
    | (with_reducible apply Keeps.mk'; with_reducible apply State.ringAssign_keeps)
    | (with_reducible apply Keeps.mk'; with_reducible apply Keeps.mk'; with_reducible apply State.ringAssign_keeps))

theorem State.tunCommit_keeps {orig : State} (s : State) (h_s : Keeps orig s) : Keeps orig (State.tunCommit s) := by
  unfold State.tunCommit
  repeat' (first
    | with_reducible assumption
    | intro x
    | with_reducible apply State.tunSwapped_keeps
    | with_reducible apply State.setTuner_keeps
    | with_reducible apply Keeps.cond
    | with_reducible apply Keeps.foldl
    | (extract_lets +onlyGivenNames x; clear_value x)
    | (with_reducible apply Keeps.mk'; with_reducible assumption))

theorem State.tunSwapAt_keeps {orig : State} (s : State) (t : Nat) (i : Nat) (h_s : Keeps orig s) : Keeps orig (State.tunSwapAt s t i) := by
  unfold State.tunSwapAt
  repeat' (first
    | with_reducible assumption
    | with_reducible apply State.swapWhere_keeps
    | with_reducible apply State.tunSwapped_keeps
    | with_reducible apply State.startSeries_keeps
    | with_reducible apply State.put64_keeps
    | with_reducible apply State.setTuner_keeps
    | with_reducible apply State.put_keeps
    | with_reducible apply Keeps.cond
    | (extract_lets +onlyGivenNames x; refine Keeps.via' (o := orig) (x := x) ?_ (fun hx => ?_); rotate_left; clear_value x; rotate_right; subst x)
    | (extract_lets +onlyGivenNames x; clear_value x)
    | split)

theorem execTunerSwap_keeps {orig : State} (t : Nat) (s : State) (h_s : Keeps orig s) : KeepsRes orig (execTunerSwap t s) := by
  unfold execTunerSwap
  repeat' (first
    | with_reducible assumption
    | with_reducible apply KeepsRes.next
    | with_reducible apply State.tunSwapAt_keeps
    | with_reducible apply State.setTuner_keeps
    | with_reducible apply Keeps.cond
    | (extract_lets +onlyGivenNames x; clear_value x)
    | split)

theorem execGlazeEnd_keeps {orig : State} (t : Nat) (s : State) (h_s : Keeps orig s) : KeepsRes orig (execGlazeEnd t s) := by
  unfold execGlazeEnd
  repeat' (first
    | with_reducible assumption
    | with_reducible apply KeepsRes.next
    | with_reducible apply State.setTuner_keeps
    | with_reducible apply State.tunSwapped_keeps
    | with_reducible apply State.tunFlag_keeps
    | with_reducible apply State.put_keeps
    | with_reducible apply Keeps.cond
    | (extract_lets +onlyGivenNames x; refine Keeps.via' (o := orig) (x := x) ?_ (fun hx => ?_); rotate_left; clear_value x; rotate_right; subst x)
    | (extract_lets +onlyGivenNames x; clear_value x)
    | split)

theorem State.tunAgain_keeps {orig : State} (s : State) (t : Nat) (i : Nat) (h_s : Keeps orig s) : Keeps orig (State.tunAgain s t i) := by
  unfold State.tunAgain
  repeat' (first
    | with_reducible assumption
    | with_reducible apply State.setTuner_keeps
    | with_reducible apply State.startSeries_keeps
    | with_reducible apply State.tunSwapped_keeps
    | with_reducible apply Keeps.ite
    | (extract_lets +onlyGivenNames x; refine Keeps.via' (o := orig) (x := x) ?_ (fun hx => ?_); rotate_left; clear_value x; rotate_right; subst x)
    | (extract_lets +onlyGivenNames x; clear_value x)
    | split
    | (with_reducible apply Keeps.mk'; with_reducible assumption)
    | (with_reducible apply Keeps.mk'; first | with_reducible apply State.setTuner_keeps | with_reducible apply State.startSeries_keeps | with_reducible apply State.tunSwapped_keeps | with_reducible apply Keeps.ite))

theorem execTunerDrained_keeps {orig : State} (t : Nat) (s : State) (h_s : Keeps orig s) : KeepsRes orig (execTunerDrained t s) := by
  unfold execTunerDrained
  repeat' (first
    | with_reducible assumption
    | with_reducible apply KeepsRes.next
    | with_reducible apply State.put_keeps
    | with_reducible apply State.tunFlag_keeps
    | with_reducible apply State.tunAgain_keeps
    | with_reducible apply KeepsRes.cond
    | with_reducible apply KeepsRes.ite
    | with_reducible apply Keeps.cond
    | (extract_lets +onlyGivenNames x; refine Keeps.via' (o := orig) (x := x) ?_ (fun hx => ?_); rotate_left; clear_value x; rotate_right; subst x)
    | (extract_lets +onlyGivenNames x; clear_value x)
    | split)

theorem execTunerStepChange_keeps {orig : State} (t : Nat) (s : State) (h_s : Keeps orig s) : KeepsRes orig (execTunerStepChange t s) := by
  unfold execTunerStepChange
  repeat' (first
    | with_reducible assumption
    | intro x
    | with_reducible apply KeepsRes.next
    | with_reducible apply State.pend_keeps
    | with_reducible apply State.setTuner_keeps
    | with_reducible apply State.put_keeps
    | with_reducible apply KeepsRes.cond
    | with_reducible apply KeepsRes.ite
    | with_reducible apply Keeps.cond
    | (extract_lets +onlyGivenNames x; refine Keeps.via' (o := orig) (x := x) ?_ (fun hx => ?_); rotate_left; clear_value x; rotate_right; subst x)
    | (extract_lets +onlyGivenNames x; clear_value x)
    | split
    | (with_reducible apply Keeps.mk'; with_reducible assumption)
    | (with_reducible apply Keeps.mk'; first | with_reducible apply State.pend_keeps | with_reducible apply State.setTuner_keeps | with_reducible apply State.put_keeps | with_reducible apply Keeps.cond))

theorem State.tunWake_keeps {orig : State} (s : State) (h_s : Keeps orig s) : Keeps orig (State.tunWake s) := by
  unfold State.tunWake
  repeat' (first
    | with_reducible assumption
    | intro x
    | with_reducible apply State.startSeries_keeps
    | with_reducible apply Keeps.cond
    | with_reducible apply Keeps.foldl)

theorem State.tunIdle_keeps {orig : State} (s : State) (h_s : Keeps orig s) : Keeps orig (State.tunIdle s) := by
  unfold State.tunIdle
  repeat' (first
    | with_reducible assumption
    | intro x
    | with_reducible apply State.setTuner_keeps
    | with_reducible apply State.put_keeps
    | with_reducible apply State.tunSwapped_keeps
    | with_reducible apply Keeps.cond
    | with_reducible apply Keeps.foldl
    | (extract_lets +onlyGivenNames x; refine Keeps.via' (o := orig) (x := x) ?_ (fun hx => ?_); rotate_left; clear_value x; rotate_right; subst x)
    | (extract_lets +onlyGivenNames x; clear_value x)
    | (with_reducible apply Keeps.mk'; with_reducible assumption)
    | (with_reducible apply Keeps.mk'; first | with_reducible apply State.setTuner_keeps | with_reducible apply State.put_keeps | with_reducible apply State.tunSwapped_keeps | with_reducible apply Keeps.foldl | with_reducible apply Keeps.cond))

end Sys2Proof.Machine
end

