-- ==== Sys2Proof/Laws/KeepsViews.lean ====
section
/-!
SUPPORT. Every operation of Machine/Views.lean keeps the canonical forms and the queue.
-/
namespace Sys2Proof.Machine

theorem State.setVin_keeps {orig : State} (s : State) (v : Nat) (x : Nat) (y : ViewIn) (h_s : Keeps orig s) : Keeps orig (State.setVin s v x y) := by
  unfold State.setVin
  repeat' (first
    | (extract_lets +onlyGivenNames x; clear_value x)
    | (with_reducible apply Keeps.mk'; with_reducible assumption))

theorem State.viewEv_keeps {orig : State} (s : State) (v : Nat) (n : Nat) (h_s : Keeps orig s) : Keeps orig (State.viewEv s v n) := by
  unfold State.viewEv
  repeat' (first
    | with_reducible assumption
    | with_reducible apply State.ev_keeps
    | with_reducible apply State.put_keeps)

theorem State.closeInterval_keeps {orig : State} (s : State) (v : Nat) (x : Nat) (short : Bool) (h_s : Keeps orig s) : Keeps orig (State.closeInterval s v x short) := by
  unfold State.closeInterval
  repeat' (first
    | with_reducible assumption
    | with_reducible apply State.setVin_keeps
    | with_reducible apply State.viewEv_keeps
    | with_reducible apply State.count_keeps
    | with_reducible apply Keeps.cond
    | (extract_lets +onlyGivenNames x; clear_value x)
    | split)

theorem State.openInterval_keeps {orig : State} (s : State) (v : Nat) (x : Nat) (g : PlaneGrid) (e : Nat) (h_s : Keeps orig s) : Keeps orig (State.openInterval s v x g e) := by
  unfold State.openInterval
  repeat' (first
    | with_reducible assumption
    | with_reducible apply State.setVin_keeps
    | with_reducible apply Keeps.cond
    | (extract_lets +onlyGivenNames x; refine Keeps.via' (o := orig) (x := x) ?_ (fun hx => ?_); rotate_left; clear_value x; rotate_right; subst x)
    | (extract_lets +onlyGivenNames x; clear_value x)
    | (with_reducible apply Keeps.mk'; with_reducible assumption)
    | (with_reducible apply Keeps.mk'; first | with_reducible apply State.setVin_keeps | with_reducible apply Keeps.cond))

theorem State.viewMark_keeps {orig : State} (s : State) (v : Nat) (x : Nat) (t : Taken) (h_s : Keeps orig s) : Keeps orig (State.viewMark s v x t) := by
  unfold State.viewMark
  repeat' (first
    | with_reducible assumption
    | with_reducible apply State.setVin_keeps
    | with_reducible apply Keeps.cond
    | (extract_lets +onlyGivenNames x; refine Keeps.via' (o := orig) (x := x) ?_ (fun hx => ?_); rotate_left; clear_value x; rotate_right; subst x)
    | (extract_lets +onlyGivenNames x; clear_value x)
    | (with_reducible apply Keeps.mk'; with_reducible assumption)
    | (with_reducible apply Keeps.mk'; first | with_reducible apply State.setVin_keeps | with_reducible apply Keeps.cond))

theorem State.nextInterval_keeps {orig : State} (s : State) (v : Nat) (x : Nat) (c : Interval) (h_s : Keeps orig s) : Keeps orig (State.nextInterval s v x c) := by
  unfold State.nextInterval
  repeat' (first
    | with_reducible assumption
    | with_reducible apply State.closeInterval_keeps
    | with_reducible apply State.openInterval_keeps
    | with_reducible apply State.wrap_keeps)

theorem State.advanceTo_keeps {orig : State} (v : Nat) (x : Nat) (e : Nat) (y0 : Nat) (y1 : State) (h_y1 : Keeps orig y1) : Keeps orig (State.advanceTo v x e y0 y1) := by
  induction y0 generalizing y1 with
  | zero =>
  rw [State.advanceTo]
  repeat' (first
    | with_reducible assumption
    | with_reducible apply State.nextInterval_keeps
    | with_reducible apply Keeps.cond
    | split)
  | succ k ih =>
  rw [State.advanceTo]
  repeat' (first
    | with_reducible assumption
    | with_reducible apply ih
    | with_reducible apply State.nextInterval_keeps
    | with_reducible apply Keeps.cond
    | split)

theorem State.times_keeps {orig : State} (s : State) (n : Nat) (f : State → State) (h_s : Keeps orig s) (h_f : ∀ a0, Keeps orig a0 → Keeps orig (f a0)) : Keeps orig (State.times s n f) := by
  unfold State.times
  repeat' (first
    | with_reducible assumption
    | intro x
    | with_reducible apply h_f
    | with_reducible apply Keeps.foldl)

theorem State.viewMaps_keeps {orig : State} (s : State) (v : Nat) (x : Nat) (t : Taken) (h_s : Keeps orig s) : Keeps orig (State.viewMaps s v x t) := by
  unfold State.viewMaps
  repeat' (first
    | with_reducible assumption
    | intro x
    | with_reducible apply State.setVin_keeps
    | with_reducible apply State.count_keeps
    | with_reducible apply State.times_keeps
    | with_reducible apply State.viewEv_keeps
    | with_reducible apply State.persist_keeps
    | with_reducible apply State.tick_keeps
    | with_reducible apply Keeps.cond
    | with_reducible apply Keeps.ite
    | with_reducible apply Keeps.cond_fst
    | with_reducible apply Keeps.ite_fst
    | (extract_lets +onlyGivenNames x; refine Keeps.via' (o := orig) (x := x) ?_ (fun hx => ?_); rotate_left; clear_value x; rotate_right; subst x)
    | (extract_lets +onlyGivenNames x; refine Keeps.via' (o := orig) (x := x.1) ?_ (fun hx => ?_); rotate_left; clear_value x; rotate_right; subst x)
    | (extract_lets +onlyGivenNames x; clear_value x)
    | split
    | (with_reducible apply Keeps.mk'; with_reducible assumption)
    | (with_reducible apply Keeps.mk'; first | with_reducible apply State.setVin_keeps | with_reducible apply State.count_keeps | with_reducible apply State.times_keeps | with_reducible apply State.viewEv_keeps | with_reducible apply State.persist_keeps | with_reducible apply State.tick_keeps | with_reducible apply Keeps.cond | with_reducible apply Keeps.ite))

theorem State.takeInto_keeps {orig : State} (s : State) (v : Nat) (x : Nat) (t : Taken) (h_s : Keeps orig s) : Keeps orig (State.takeInto s v x t) := by
  unfold State.takeInto
  repeat' (first
    | with_reducible assumption
    | with_reducible apply State.setVin_keeps
    | (extract_lets +onlyGivenNames x; clear_value x)
    | split)

theorem State.breakAt_keeps {orig : State} (s : State) (v : Nat) (x : Nat) (g : PlaneGrid) (e : Nat) (h_s : Keeps orig s) : Keeps orig (State.breakAt s v x g e) := by
  unfold State.breakAt
  repeat' (first
    | with_reducible assumption
    | with_reducible apply State.closeInterval_keeps
    | with_reducible apply State.setVin_keeps
    | with_reducible apply State.openInterval_keeps
    | (extract_lets +onlyGivenNames x; refine Keeps.via' (o := orig) (x := x) ?_ (fun hx => ?_); rotate_left; clear_value x; rotate_right; subst x)
    | (extract_lets +onlyGivenNames x; clear_value x)
    | (with_reducible apply Keeps.mk'; with_reducible assumption)
    | (with_reducible apply Keeps.mk'; first | with_reducible apply State.closeInterval_keeps | with_reducible apply State.setVin_keeps | with_reducible apply State.openInterval_keeps))

theorem State.viewRun_keeps {orig : State} (s : State) (v : Nat) (x : Nat) (g : PlaneGrid) (e : Nat) (h_s : Keeps orig s) : Keeps orig (State.viewRun s v x g e) := by
  unfold State.viewRun
  repeat' (first
    | with_reducible assumption
    | with_reducible apply State.setVin_keeps
    | with_reducible apply State.openInterval_keeps
    | with_reducible apply State.put_keeps
    | with_reducible apply State.viewEv_keeps
    | with_reducible apply Keeps.cond
    | with_reducible apply Keeps.ite
    | with_reducible apply Keeps.cond_fst
    | with_reducible apply Keeps.ite_fst
    | (extract_lets +onlyGivenNames x; refine Keeps.via' (o := orig) (x := x) ?_ (fun hx => ?_); rotate_left; clear_value x; rotate_right; subst x)
    | (extract_lets +onlyGivenNames x; refine Keeps.via' (o := orig) (x := x.1) ?_ (fun hx => ?_); rotate_left; clear_value x; rotate_right; subst x)
    | (extract_lets +onlyGivenNames x; clear_value x)
    | split
    | (with_reducible apply Keeps.mk'; with_reducible assumption)
    | (with_reducible apply Keeps.mk'; first | with_reducible apply State.setVin_keeps | with_reducible apply State.openInterval_keeps | with_reducible apply State.put_keeps | with_reducible apply State.viewEv_keeps | with_reducible apply Keeps.cond | with_reducible apply Keeps.ite))

theorem State.viewTake_keeps {orig : State} (s : State) (v : Nat) (x : Nat) (t : Taken) (h_s : Keeps orig s) : Keeps orig (State.viewTake s v x t) := by
  unfold State.viewTake
  repeat' (first
    | with_reducible assumption
    | with_reducible apply State.viewRun_keeps
    | with_reducible apply State.count_keeps
    | with_reducible apply State.degrLoss_keeps
    | with_reducible apply State.viewEv_keeps
    | with_reducible apply State.breakAt_keeps
    | with_reducible apply State.advanceTo_keeps
    | with_reducible apply State.viewMark_keeps
    | with_reducible apply State.takeInto_keeps
    | with_reducible apply State.viewMaps_keeps
    | with_reducible apply State.nextInterval_keeps
    | with_reducible apply Keeps.cond
    | (extract_lets +onlyGivenNames x; refine Keeps.via' (o := orig) (x := x) ?_ (fun hx => ?_); rotate_left; clear_value x; rotate_right; subst x)
    | (extract_lets +onlyGivenNames x; clear_value x)
    | split)

theorem State.viewsTake_keeps {orig : State} (s : State) (plane : Nat) (n : Nat) (p : Spectrum) (h_s : Keeps orig s) : Keeps orig (State.viewsTake s plane n p) := by
  unfold State.viewsTake
  repeat' (first
    | with_reducible assumption
    | intro x
    | with_reducible apply State.viewTake_keeps
    | with_reducible apply Keeps.foldl)

theorem State.viewsFine_keeps {orig : State} (s : State) (n : Nat) (p : Spectrum) (h_s : Keeps orig s) : Keeps orig (State.viewsFine s n p) := by
  unfold State.viewsFine
  repeat' (first
    | with_reducible assumption
    | intro x
    | with_reducible apply State.viewTake_keeps
    | with_reducible apply Keeps.cond
    | with_reducible apply Keeps.foldl
    | (extract_lets +onlyGivenNames x; refine Keeps.via' (o := orig) (x := x) ?_ (fun hx => ?_); rotate_left; clear_value x; rotate_right; subst x)
    | (extract_lets +onlyGivenNames x; clear_value x)
    | split)

theorem State.viewsTuner_keeps {orig : State} (s : State) (t : Nat) (c : TunSet) (j0 : Nat) (o : TunOut) (h_s : Keeps orig s) : Keeps orig (State.viewsTuner s t c j0 o) := by
  unfold State.viewsTuner
  repeat' (first
    | with_reducible assumption
    | intro x
    | with_reducible apply State.viewTake_keeps
    | with_reducible apply Keeps.foldl)

theorem State.viewLate_keeps {orig : State} (s : State) (v : Nat) (x : Nat) (g : PlaneGrid) (u : Nat) (h_s : Keeps orig s) : Keeps orig (State.viewLate s v x g u) := by
  unfold State.viewLate
  repeat' (first
    | with_reducible assumption
    | intro x
    | with_reducible apply State.viewRun_keeps
    | with_reducible apply State.setVin_keeps
    | with_reducible apply State.count_keeps
    | with_reducible apply State.viewEv_keeps
    | with_reducible apply Keeps.cond
    | (extract_lets +onlyGivenNames x; refine Keeps.via' (o := orig) (x := x) ?_ (fun hx => ?_); rotate_left; clear_value x; rotate_right; subst x)
    | (extract_lets +onlyGivenNames x; clear_value x)
    | (with_reducible apply Keeps.mk'; with_reducible assumption)
    | (with_reducible apply Keeps.mk'; first | with_reducible apply State.viewRun_keeps | with_reducible apply State.setVin_keeps | with_reducible apply State.count_keeps | with_reducible apply State.viewEv_keeps | with_reducible apply Keeps.cond))

theorem State.viewsLate_keeps {orig : State} (s : State) (n : Nat) (c : FineChain) (g : Nat) (h_s : Keeps orig s) : Keeps orig (State.viewsLate s n c g) := by
  unfold State.viewsLate
  repeat' (first
    | with_reducible assumption
    | intro x
    | with_reducible apply State.viewLate_keeps
    | with_reducible apply Keeps.foldl
    | (extract_lets +onlyGivenNames x; refine Keeps.via' (o := orig) (x := x) ?_ (fun hx => ?_); rotate_left; clear_value x; rotate_right; subst x)
    | (extract_lets +onlyGivenNames x; clear_value x))

theorem State.viewRecord_keeps {orig : State} (s : State) (v : Nat) (c : Interval) (body : List Byte) (h_s : Keeps orig s) : Keeps orig (State.viewRecord s v c body) := by
  unfold State.viewRecord
  repeat' (first
    | with_reducible assumption
    | with_reducible apply State.close_keeps
    | with_reducible apply Keeps.cond)

theorem State.deltaRecord_keeps {orig : State} (s : State) (v : Nat) (x : Nat) (c : Interval) (h : RecordHead) (h_s : Keeps orig s) : Keeps orig (State.deltaRecord s v x c h).1 := by
  unfold State.deltaRecord
  repeat' (first
    | with_reducible assumption
    | intro x
    | with_reducible apply State.setVin_keeps
    | with_reducible apply State.viewRecord_keeps
    | with_reducible apply Keeps.cond
    | with_reducible apply Keeps.ite
    | with_reducible apply Keeps.cond_fst
    | with_reducible apply Keeps.ite_fst
    | (extract_lets +onlyGivenNames x; refine Keeps.via' (o := orig) (x := x) ?_ (fun hx => ?_); rotate_left; clear_value x; rotate_right; subst x)
    | (extract_lets +onlyGivenNames x; refine Keeps.via' (o := orig) (x := x.1) ?_ (fun hx => ?_); rotate_left; clear_value x; rotate_right; subst x)
    | (extract_lets +onlyGivenNames x; clear_value x)
    | split
    | (with_reducible apply Keeps.mk'; with_reducible assumption)
    | (with_reducible apply Keeps.mk'; first | with_reducible apply State.setVin_keeps | with_reducible apply State.viewRecord_keeps | with_reducible apply Keeps.cond | with_reducible apply Keeps.ite))

theorem State.skFlags_keeps {orig : State} (s : State) (v : Nat) (x : Nat) (c : Interval) (h : RecordHead) (h_s : Keeps orig s) : Keeps orig (State.skFlags s v x c h) := by
  unfold State.skFlags
  repeat' (first
    | with_reducible assumption
    | with_reducible apply State.viewEv_keeps
    | with_reducible apply Keeps.cond
    | (extract_lets +onlyGivenNames x; clear_value x)
    | (with_reducible apply Keeps.mk'; with_reducible assumption))

theorem State.viewCount_keeps {orig : State} (s : State) (v : Nat) (x : Nat) (h_s : Keeps orig s) : Keeps orig (State.viewCount s v x) := by
  unfold State.viewCount
  repeat' (first
    | with_reducible assumption
    | with_reducible apply State.setVin_keeps
    | with_reducible apply State.viewEv_keeps
    | with_reducible apply State.put_keeps
    | with_reducible apply Keeps.cond)

theorem State.formRecord_keeps {orig : State} (s : State) (v : Nat) (x : Nat) (c : Interval) (h_s : Keeps orig s) : Keeps orig (State.formRecord s v x c) := by
  unfold State.formRecord
  repeat' (first
    | with_reducible assumption
    | with_reducible apply State.skFlags_keeps
    | with_reducible apply State.deltaRecord_keeps
    | with_reducible apply State.viewRecord_keeps
    | with_reducible apply State.count_keeps
    | with_reducible apply State.viewEv_keeps
    | with_reducible apply State.viewCount_keeps
    | with_reducible apply Keeps.cond
    | with_reducible apply Keeps.cond_fst
    | with_reducible apply Keeps.ite_fst
    | (extract_lets +onlyGivenNames x; refine Keeps.via' (o := orig) (x := x) ?_ (fun hx => ?_); rotate_left; clear_value x; rotate_right; subst x)
    | (extract_lets +onlyGivenNames x; refine Keeps.via' (o := orig) (x := x.1) ?_ (fun hx => ?_); rotate_left; clear_value x; rotate_right; subst x)
    | (extract_lets +onlyGivenNames x; clear_value x))

theorem execIntervalDeadline_keeps {orig : State} (v : Nat) (x : Nat) (s : State) (h_s : Keeps orig s) : KeepsRes orig (execIntervalDeadline v x s) := by
  unfold execIntervalDeadline
  repeat' (first
    | with_reducible assumption
    | with_reducible apply KeepsRes.next
    | with_reducible apply State.viewRun_keeps
    | with_reducible apply State.nextInterval_keeps
    | with_reducible apply KeepsRes.cond
    | with_reducible apply KeepsRes.ite
    | with_reducible apply Keeps.cond
    | (extract_lets +onlyGivenNames x; refine Keeps.via' (o := orig) (x := x) ?_ (fun hx => ?_); rotate_left; clear_value x; rotate_right; subst x)
    | (extract_lets +onlyGivenNames x; clear_value x)
    | split)

theorem execDvwClrHold_keeps {orig : State} (v : Nat) (s : State) (h_s : Keeps orig s) : KeepsRes orig (execDvwClrHold v s) := by
  unfold execDvwClrHold
  repeat' (first
    | with_reducible assumption
    | intro x
    | with_reducible apply KeepsRes.next
    | with_reducible apply State.setVin_keeps
    | with_reducible apply Keeps.foldl)

theorem execDvwClrPersist_keeps {orig : State} (v : Nat) (s : State) (h_s : Keeps orig s) : KeepsRes orig (execDvwClrPersist v s) := by
  unfold execDvwClrPersist
  repeat' (first
    | with_reducible assumption
    | intro x
    | with_reducible apply KeepsRes.next
    | with_reducible apply State.setVin_keeps
    | with_reducible apply Keeps.foldl)

theorem State.viewWait_keeps {orig : State} (s : State) (v : Nat) (x : Nat) (t : Nat) (y : ViewIn) (h_s : Keeps orig s) : Keeps orig (State.viewWait s v x t y) := by
  unfold State.viewWait
  repeat' (first
    | with_reducible assumption
    | with_reducible apply State.setVin_keeps)

theorem State.viewStart_keeps {orig : State} (s : State) (v : Nat) (t : Nat) (h_s : Keeps orig s) : Keeps orig (State.viewStart s v t) := by
  unfold State.viewStart
  repeat' (first
    | with_reducible assumption
    | intro x
    | with_reducible apply State.put_keeps
    | with_reducible apply State.viewWait_keeps
    | with_reducible apply Keeps.foldl)

theorem State.retakeMap_keeps {orig : State} (s : State) (v : Nat) (x : Nat) (t : Taken) (h_s : Keeps orig s) : Keeps orig (State.retakeMap s v x t) := by
  unfold State.retakeMap
  repeat' (first
    | with_reducible assumption
    | with_reducible apply State.takeInto_keeps
    | with_reducible apply State.viewMaps_keeps)

theorem State.viewCarry_keeps {orig : State} (s : State) (v : Nat) (x : Nat) (g : PlaneGrid) (e : Nat) (ts : List Taken) (h_s : Keeps orig s) : Keeps orig (State.viewCarry s v x g e ts) := by
  unfold State.viewCarry
  repeat' (first
    | with_reducible assumption
    | intro x
    | with_reducible apply State.setVin_keeps
    | with_reducible apply State.openInterval_keeps
    | with_reducible apply State.retakeMap_keeps
    | with_reducible apply Keeps.foldr
    | (extract_lets +onlyGivenNames x; refine Keeps.via' (o := orig) (x := x) ?_ (fun hx => ?_); rotate_left; clear_value x; rotate_right; subst x)
    | (extract_lets +onlyGivenNames x; clear_value x)
    | (with_reducible apply Keeps.mk'; with_reducible assumption)
    | (with_reducible apply Keeps.mk'; first | with_reducible apply State.setVin_keeps | with_reducible apply State.openInterval_keeps | with_reducible apply State.retakeMap_keeps))

theorem State.storeSync_keeps {orig : State} (s : State) (h_s : Keeps orig s) : Keeps orig (State.storeSync s) := by
  unfold State.storeSync
  repeat' (first
    | with_reducible assumption
    | intro x
    | with_reducible apply State.put_keeps
    | with_reducible apply Keeps.foldl)

theorem State.detDone_keeps {orig : State} (s : State) (h_s : Keeps orig s) : Keeps orig (State.detDone s) := by
  unfold State.detDone
  repeat' (first
    | with_reducible assumption
    | with_reducible apply State.swapDone_keeps
    | with_reducible apply State.ev_keeps
    | with_reducible apply State.flag_keeps
    | with_reducible apply State.swapWhere_keeps
    | with_reducible apply Keeps.cond)

theorem State.viewCut_keeps {orig : State} (s : State) (v : Nat) (x : Nat) (h_s : Keeps orig s) : Keeps orig (State.viewCut s v x) := by
  unfold State.viewCut
  repeat' (first
    | with_reducible assumption
    | intro x
    | with_reducible apply State.setVin_keeps
    | with_reducible apply State.closeInterval_keeps
    | (extract_lets +onlyGivenNames x; refine Keeps.via' (o := orig) (x := x) ?_ (fun hx => ?_); rotate_left; clear_value x; rotate_right; subst x)
    | (extract_lets +onlyGivenNames x; clear_value x)
    | split
    | (with_reducible apply Keeps.mk'; with_reducible assumption)
    | (with_reducible apply Keeps.mk'; first | with_reducible apply State.setVin_keeps | with_reducible apply State.closeInterval_keeps))

theorem State.feedSync_keeps {orig : State} (s : State) (o : Nat) (l : Nat) (h_s : Keeps orig s) : Keeps orig (State.feedSync s o l) := by
  unfold State.feedSync
  repeat' (first
    | with_reducible assumption
    | with_reducible apply State.put_keeps)

theorem State.viewBank_keeps {orig : State} (s : State) (v : Nat) (h_s : Keeps orig s) : Keeps orig (State.viewBank s v) := by
  unfold State.viewBank
  repeat' (first
    | with_reducible assumption
    | intro x
    | with_reducible apply State.viewCut_keeps
    | with_reducible apply State.swapWhere_keeps
    | with_reducible apply State.feedSync_keeps
    | with_reducible apply Keeps.cond
    | with_reducible apply Keeps.cond_fst
    | with_reducible apply Keeps.ite_fst
    | with_reducible apply Keeps.foldl
    | with_reducible apply Keeps.foldl_fst
    | (extract_lets +onlyGivenNames x; refine Keeps.via' (o := orig) (x := x) ?_ (fun hx => ?_); rotate_left; clear_value x; rotate_right; subst x)
    | (extract_lets +onlyGivenNames x; refine Keeps.via' (o := orig) (x := x.1) ?_ (fun hx => ?_); rotate_left; clear_value x; rotate_right; subst x)
    | (extract_lets +onlyGivenNames x; clear_value x)
    | (with_reducible apply Keeps.mk'; with_reducible assumption)
    | (with_reducible apply Keeps.mk'; first | with_reducible apply State.viewCut_keeps | with_reducible apply State.swapWhere_keeps | with_reducible apply State.feedSync_keeps | with_reducible apply Keeps.foldl | with_reducible apply Keeps.cond))

theorem State.viewGoes_keeps {orig : State} (s : State) (v : Nat) (olds : List Nat) (kept : List (Nat × Option (PlaneGrid × Nat × List Taken))) (same : Bool) (h_s : Keeps orig s) : Keeps orig (State.viewGoes s v olds kept same) := by
  unfold State.viewGoes
  repeat' (first
    | with_reducible assumption
    | intro x
    | with_reducible apply State.setVin_keeps
    | with_reducible apply State.viewCarry_keeps
    | with_reducible apply State.viewWait_keeps
    | with_reducible apply Keeps.cond
    | with_reducible apply Keeps.ite
    | with_reducible apply Keeps.cond_fst
    | with_reducible apply Keeps.ite_fst
    | with_reducible apply Keeps.foldl
    | with_reducible apply Keeps.foldl_fst
    | (extract_lets +onlyGivenNames x; refine Keeps.via' (o := orig) (x := x) ?_ (fun hx => ?_); rotate_left; clear_value x; rotate_right; subst x)
    | (extract_lets +onlyGivenNames x; refine Keeps.via' (o := orig) (x := x.1) ?_ (fun hx => ?_); rotate_left; clear_value x; rotate_right; subst x)
    | (extract_lets +onlyGivenNames x; clear_value x)
    | split
    | (with_reducible apply Keeps.mk'; with_reducible assumption)
    | (with_reducible apply Keeps.mk'; first | with_reducible apply State.setVin_keeps | with_reducible apply State.viewCarry_keeps | with_reducible apply State.viewWait_keeps | with_reducible apply Keeps.foldl | with_reducible apply Keeps.cond | with_reducible apply Keeps.ite))

theorem State.viewDrain_keeps {orig : State} (s : State) (v : Nat) (olds : List Nat) (words : List Word) (h_s : Keeps orig s) : Keeps orig (State.viewDrain s v olds words) := by
  unfold State.viewDrain
  repeat' (first
    | with_reducible assumption
    | intro x
    | with_reducible apply State.setVin_keeps
    | with_reducible apply State.put_keeps
    | with_reducible apply Keeps.ite
    | with_reducible apply Keeps.cond_fst
    | with_reducible apply Keeps.ite_fst
    | with_reducible apply Keeps.foldl
    | with_reducible apply Keeps.foldl_fst
    | (extract_lets +onlyGivenNames x; refine Keeps.via' (o := orig) (x := x) ?_ (fun hx => ?_); rotate_left; clear_value x; rotate_right; subst x)
    | (extract_lets +onlyGivenNames x; refine Keeps.via' (o := orig) (x := x.1) ?_ (fun hx => ?_); rotate_left; clear_value x; rotate_right; subst x)
    | (extract_lets +onlyGivenNames x; clear_value x)
    | split
    | (with_reducible apply Keeps.mk'; with_reducible assumption)
    | (with_reducible apply Keeps.mk'; first | with_reducible apply State.setVin_keeps | with_reducible apply State.put_keeps | with_reducible apply Keeps.foldl | with_reducible apply Keeps.ite))

theorem State.viewSwapNow_keeps {orig : State} (s : State) (v : Nat) (h_s : Keeps orig s) : Keeps orig (State.viewSwapNow s v) := by
  unfold State.viewSwapNow
  repeat' (first
    | with_reducible assumption
    | intro x
    | with_reducible apply State.viewBank_keeps
    | with_reducible apply State.viewStart_keeps
    | with_reducible apply State.viewGoes_keeps
    | with_reducible apply State.viewDrain_keeps
    | with_reducible apply State.storeSync_keeps
    | with_reducible apply State.detDone_keeps
    | with_reducible apply Keeps.cond
    | (extract_lets +onlyGivenNames x; refine Keeps.via' (o := orig) (x := x) ?_ (fun hx => ?_); rotate_left; clear_value x; rotate_right; subst x)
    | (extract_lets +onlyGivenNames x; clear_value x)
    | (with_reducible apply Keeps.mk'; with_reducible assumption)
    | (with_reducible apply Keeps.mk'; first | with_reducible apply State.viewBank_keeps | with_reducible apply State.viewStart_keeps | with_reducible apply State.viewGoes_keeps | with_reducible apply State.viewDrain_keeps | with_reducible apply State.storeSync_keeps | with_reducible apply State.detDone_keeps | with_reducible apply Keeps.cond))

theorem execViewSwap_keeps {orig : State} (v : Nat) (s : State) (h_s : Keeps orig s) : KeepsRes orig (execViewSwap v s) := by
  unfold execViewSwap
  repeat' (first
    | with_reducible assumption
    | with_reducible apply KeepsRes.next
    | with_reducible apply State.viewSwapNow_keeps
    | with_reducible apply Keeps.cond)

theorem State.detCommit_keeps {orig : State} (s : State) (h_s : Keeps orig s) : Keeps orig (State.detCommit s) := by
  unfold State.detCommit
  repeat' (first
    | with_reducible assumption
    | intro x
    | with_reducible apply State.viewSwapNow_keeps
    | with_reducible apply State.detDone_keeps
    | with_reducible apply Keeps.cond
    | with_reducible apply Keeps.foldl
    | (extract_lets +onlyGivenNames x; clear_value x)
    | (with_reducible apply Keeps.mk'; with_reducible assumption))

theorem execViewDrained_keeps {orig : State} (v : Nat) (s : State) (h_s : Keeps orig s) : KeepsRes orig (execViewDrained v s) := by
  unfold execViewDrained
  repeat' (first
    | with_reducible assumption
    | with_reducible apply KeepsRes.next
    | with_reducible apply State.storeSync_keeps
    | with_reducible apply State.viewStart_keeps
    | with_reducible apply State.put_keeps
    | with_reducible apply Keeps.cond
    | (extract_lets +onlyGivenNames x; clear_value x)
    | (with_reducible apply Keeps.mk'; with_reducible assumption)
    | (with_reducible apply Keeps.mk'; with_reducible apply State.storeSync_keeps))

theorem execViewRateStep_keeps {orig : State} (v : Nat) (x : Nat) (e : Nat) (s : State) (h_s : Keeps orig s) : KeepsRes orig (execViewRateStep v x e s) := by
  unfold execViewRateStep
  repeat' (first
    | with_reducible assumption
    | with_reducible apply KeepsRes.next
    | with_reducible apply State.setVin_keeps
    | with_reducible apply State.openInterval_keeps
    | with_reducible apply State.viewEv_keeps
    | with_reducible apply State.put_keeps
    | with_reducible apply Keeps.cond
    | (extract_lets +onlyGivenNames x; clear_value x)
    | split
    | (with_reducible apply Keeps.mk'; with_reducible apply Keeps.cond))

theorem State.viewIdle_keeps {orig : State} (s : State) (h_s : Keeps orig s) : Keeps orig (State.viewIdle s) := by
  unfold State.viewIdle
  repeat' (first
    | with_reducible assumption
    | intro x
    | with_reducible apply State.closeInterval_keeps
    | with_reducible apply State.setVin_keeps
    | with_reducible apply State.put_keeps
    | with_reducible apply Keeps.cond
    | with_reducible apply Keeps.foldl)

theorem State.viewWake_keeps {orig : State} (s : State) (h_s : Keeps orig s) : Keeps orig (State.viewWake s) := by
  unfold State.viewWake
  repeat' (first
    | with_reducible assumption
    | intro x
    | with_reducible apply State.viewWait_keeps
    | with_reducible apply Keeps.cond
    | with_reducible apply Keeps.foldl)

end Sys2Proof.Machine
end

