-- ==== Sys2Proof/Laws/KeepsDisplay.lean ====
section
/-!
SUPPORT. Every operation of Machine/Display.lean keeps the canonical forms and the queue.
-/
namespace Sys2Proof.Machine

theorem State.setOutput_keeps {orig : State} (s : State) (o : Nat) (x : Output) (h_s : Keeps orig s) : Keeps orig (State.setOutput s o x) := by
  unfold State.setOutput
  repeat' (first
    | (extract_lets +onlyGivenNames x; clear_value x)
    | (with_reducible apply Keeps.mk'; with_reducible assumption))

theorem State.setLayer_keeps {orig : State} (s : State) (o : Nat) (l : Nat) (y : Layer) (h_s : Keeps orig s) : Keeps orig (State.setLayer s o l y) := by
  unfold State.setLayer
  repeat' (first
    | with_reducible assumption
    | with_reducible apply State.setOutput_keeps)

theorem State.outTo_keeps {orig : State} (s : State) (o : Nat) (v : Nat) (h_s : Keeps orig s) : Keeps orig (State.outTo s o v) := by
  unfold State.outTo
  repeat' (first
    | with_reducible assumption
    | with_reducible apply State.ev_keeps
    | with_reducible apply State.put_keeps
    | with_reducible apply Keeps.cond)

theorem State.layerSync_keeps {orig : State} (s : State) (o : Nat) (l : Nat) (h_s : Keeps orig s) : Keeps orig (State.layerSync s o l) := by
  unfold State.layerSync
  repeat' (first
    | with_reducible assumption
    | with_reducible apply State.put_keeps
    | with_reducible apply State.flag_keeps
    | with_reducible apply State.feedSync_keeps
    | (extract_lets +onlyGivenNames x; refine Keeps.via' (o := orig) (x := x) ?_ (fun hx => ?_); rotate_left; clear_value x; rotate_right; subst x)
    | (extract_lets +onlyGivenNames x; clear_value x)
    | split)

theorem State.canvasTake_keeps {orig : State} (s : State) (v : Nat) (x : Nat) (c : Interval) (cls : Nat) (h_s : Keeps orig s) : Keeps orig (State.canvasTake s v x c cls) := by
  unfold State.canvasTake
  repeat' (first
    | with_reducible assumption
    | with_reducible apply State.count_keeps
    | with_reducible apply State.setLayer_keeps
    | with_reducible apply Keeps.cond)

theorem State.dspDone_keeps {orig : State} (s : State) (h_s : Keeps orig s) : Keeps orig (State.dspDone s) := by
  unfold State.dspDone
  repeat' (first
    | with_reducible assumption
    | with_reducible apply State.swapDone_keeps
    | with_reducible apply State.ev_keeps
    | with_reducible apply State.flag_keeps
    | with_reducible apply State.swapWhere_keeps
    | with_reducible apply Keeps.cond)

theorem State.dropRasters_keeps {orig : State} (s : State) (o : Nat) (inputs : List Nat) (h_s : Keeps orig s) : Keeps orig (State.dropRasters s o inputs) := by
  unfold State.dropRasters
  repeat' (first
    | with_reducible assumption
    | intro x
    | with_reducible apply State.setLayer_keeps
    | with_reducible apply Keeps.cond
    | with_reducible apply Keeps.foldl)

theorem State.outAfterSwap_keeps {orig : State} (s : State) (o : Nat) (h_s : Keeps orig s) : Keeps orig (State.outAfterSwap s o) := by
  unfold State.outAfterSwap
  repeat' (first
    | with_reducible assumption
    | with_reducible apply State.setOutput_keeps
    | with_reducible apply State.outTo_keeps
    | with_reducible apply Keeps.cond
    | (extract_lets +onlyGivenNames x; refine Keeps.via' (o := orig) (x := x) ?_ (fun hx => ?_); rotate_left; clear_value x; rotate_right; subst x)
    | (extract_lets +onlyGivenNames x; clear_value x)
    | (with_reducible apply Keeps.mk'; with_reducible assumption)
    | (with_reducible apply Keeps.mk'; first | with_reducible apply State.setOutput_keeps | with_reducible apply State.outTo_keeps | with_reducible apply Keeps.cond))

theorem State.outputSwap_keeps {orig : State} (s : State) (o : Nat) (h_s : Keeps orig s) : Keeps orig (State.outputSwap s o) := by
  unfold State.outputSwap
  repeat' (first
    | with_reducible assumption
    | intro x
    | with_reducible apply State.swapWhere_keeps
    | with_reducible apply State.auxRetune_keeps
    | with_reducible apply State.setOutput_keeps
    | with_reducible apply State.dropRasters_keeps
    | with_reducible apply State.outAfterSwap_keeps
    | with_reducible apply State.layerSync_keeps
    | with_reducible apply State.dspDone_keeps
    | with_reducible apply Keeps.cond
    | with_reducible apply Keeps.foldl
    | (extract_lets +onlyGivenNames x; refine Keeps.via' (o := orig) (x := x) ?_ (fun hx => ?_); rotate_left; clear_value x; rotate_right; subst x)
    | (extract_lets +onlyGivenNames x; clear_value x)
    | (with_reducible apply Keeps.mk'; with_reducible assumption)
    | (with_reducible apply Keeps.mk'; first | with_reducible apply State.swapWhere_keeps | with_reducible apply State.auxRetune_keeps | with_reducible apply State.setOutput_keeps | with_reducible apply State.dropRasters_keeps | with_reducible apply State.outAfterSwap_keeps | with_reducible apply State.layerSync_keeps | with_reducible apply State.dspDone_keeps | with_reducible apply Keeps.foldl | with_reducible apply Keeps.cond))

theorem State.dspCommit_keeps {orig : State} (s : State) (h_s : Keeps orig s) : Keeps orig (State.dspCommit s) := by
  unfold State.dspCommit
  repeat' (first
    | with_reducible assumption
    | intro x
    | with_reducible apply State.swapWhere_keeps
    | with_reducible apply State.setOutput_keeps
    | with_reducible apply State.outputSwap_keeps
    | with_reducible apply Keeps.cond
    | with_reducible apply Keeps.foldl
    | (extract_lets +onlyGivenNames x; clear_value x)
    | (with_reducible apply Keeps.mk'; with_reducible apply Keeps.foldl))

theorem execDisplaySwap_keeps {orig : State} (o : Nat) (s : State) (h_s : Keeps orig s) : KeepsRes orig (execDisplaySwap o s) := by
  unfold execDisplaySwap
  repeat' (first
    | with_reducible assumption
    | with_reducible apply KeepsRes.next
    | with_reducible apply State.outputSwap_keeps
    | with_reducible apply Keeps.cond)

theorem State.promote_keeps {orig : State} (s : State) (o : Nat) (h_s : Keeps orig s) : Keeps orig (State.promote s o) := by
  unfold State.promote
  repeat' (first
    | with_reducible assumption
    | intro x
    | with_reducible apply State.setOutput_keeps
    | with_reducible apply State.ev_keeps
    | with_reducible apply State.flag_keeps
    | with_reducible apply State.dropRasters_keeps
    | with_reducible apply State.layerSync_keeps
    | with_reducible apply Keeps.cond
    | with_reducible apply Keeps.foldl)

theorem State.underrun_keeps {orig : State} (s : State) (o : Nat) (y : Nat) (k : Nat) (h_s : Keeps orig s) : Keeps orig (State.underrun s o y k) := by
  unfold State.underrun
  repeat' (first
    | with_reducible assumption
    | with_reducible apply State.setOutput_keeps
    | with_reducible apply State.count_keeps
    | with_reducible apply State.degrLoss_keeps
    | with_reducible apply State.ev_keeps
    | with_reducible apply Keeps.cond
    | (with_reducible apply Keeps.mk'; with_reducible assumption)
    | (with_reducible apply Keeps.mk'; first | with_reducible apply State.setOutput_keeps | with_reducible apply State.count_keeps | with_reducible apply State.degrLoss_keeps | with_reducible apply State.ev_keeps | with_reducible apply Keeps.cond))

theorem execDisplayPromotion_keeps {orig : State} (o : Nat) (b : Nat) (s : State) (h_s : Keeps orig s) : KeepsRes orig (execDisplayPromotion o b s) := by
  unfold execDisplayPromotion
  repeat' (first
    | with_reducible assumption
    | with_reducible apply KeepsRes.next
    | with_reducible apply State.underrun_keeps
    | with_reducible apply State.emit_keeps
    | with_reducible apply State.wrap_keeps
    | with_reducible apply State.put_keeps
    | with_reducible apply State.setOutput_keeps
    | with_reducible apply State.promote_keeps
    | with_reducible apply State.outputSwap_keeps
    | with_reducible apply State.outTo_keeps
    | with_reducible apply KeepsRes.cond
    | with_reducible apply KeepsRes.ite
    | with_reducible apply Keeps.cond
    | (extract_lets +onlyGivenNames x; refine Keeps.via' (o := orig) (x := x) ?_ (fun hx => ?_); rotate_left; clear_value x; rotate_right; subst x)
    | (extract_lets +onlyGivenNames x; clear_value x)
    | split
    | (with_reducible apply Keeps.mk'; with_reducible assumption)
    | (with_reducible apply Keeps.mk'; first | with_reducible apply State.underrun_keeps | with_reducible apply State.emit_keeps | with_reducible apply State.wrap_keeps | with_reducible apply State.put_keeps | with_reducible apply State.setOutput_keeps | with_reducible apply State.promote_keeps | with_reducible apply State.outputSwap_keeps | with_reducible apply State.outTo_keeps | with_reducible apply Keeps.cond))

theorem execOverlayFetch_keeps {orig : State} (o : Nat) (y : Nat) (late : Option Nat) (s : State) (h_s : Keeps orig s) : KeepsRes orig (execOverlayFetch o y late s) := by
  unfold execOverlayFetch
  repeat' (first
    | with_reducible assumption
    | intro x
    | with_reducible apply KeepsRes.next
    | with_reducible apply State.setOutput_keeps
    | with_reducible apply State.count_keeps
    | with_reducible apply State.ev_keeps
    | with_reducible apply State.underrun_keeps
    | with_reducible apply KeepsRes.cond
    | with_reducible apply KeepsRes.ite
    | with_reducible apply Keeps.cond
    | (extract_lets +onlyGivenNames x; refine Keeps.via' (o := orig) (x := x) ?_ (fun hx => ?_); rotate_left; clear_value x; rotate_right; subst x)
    | (extract_lets +onlyGivenNames x; clear_value x)
    | split
    | (with_reducible apply Keeps.mk'; with_reducible assumption)
    | (with_reducible apply Keeps.mk'; first | with_reducible apply State.setOutput_keeps | with_reducible apply State.count_keeps | with_reducible apply State.ev_keeps | with_reducible apply State.underrun_keeps | with_reducible apply Keeps.cond))

theorem execDspFlipWrite_keeps {orig : State} (o : Nat) (sel : Nat) (s : State) (h_s : Keeps orig s) : KeepsRes orig (execDspFlipWrite o sel s) := by
  unfold execDspFlipWrite
  repeat' (first
    | with_reducible assumption
    | with_reducible apply KeepsRes.next
    | with_reducible apply State.setOutput_keeps
    | with_reducible apply State.put_keeps
    | with_reducible apply State.flag_keeps
    | with_reducible apply KeepsRes.cond
    | with_reducible apply KeepsRes.ite
    | (extract_lets +onlyGivenNames x; refine Keeps.via' (o := orig) (x := x) ?_ (fun hx => ?_); rotate_left; clear_value x; rotate_right; subst x)
    | (extract_lets +onlyGivenNames x; clear_value x)
    | (with_reducible apply Keeps.mk'; with_reducible assumption)
    | (with_reducible apply Keeps.mk'; first | with_reducible apply State.setOutput_keeps | with_reducible apply State.put_keeps | with_reducible apply State.flag_keeps))

theorem execHpdPlug_keeps {orig : State} (o : Nat) (s : State) (h_s : Keeps orig s) : KeepsRes orig (execHpdPlug o s) := by
  unfold execHpdPlug
  repeat' (first
    | with_reducible assumption
    | with_reducible apply KeepsRes.next
    | with_reducible apply State.outTo_keeps
    | with_reducible apply Keeps.cond)

theorem execHpdUnplug_keeps {orig : State} (o : Nat) (s : State) (h_s : Keeps orig s) : KeepsRes orig (execHpdUnplug o s) := by
  unfold execHpdUnplug
  repeat' (first
    | with_reducible assumption
    | with_reducible apply KeepsRes.next
    | with_reducible apply State.outTo_keeps
    | with_reducible apply State.setOutput_keeps
    | with_reducible apply Keeps.cond)

theorem execIrqHpd_keeps {orig : State} (o : Nat) (s : State) (h_s : Keeps orig s) : KeepsRes orig (execIrqHpd o s) := by
  unfold execIrqHpd
  repeat' (first
    | with_reducible assumption
    | with_reducible apply KeepsRes.next
    | with_reducible apply State.ev_keeps
    | with_reducible apply Keeps.cond)

theorem execLinkTrainingDone_keeps {orig : State} (o : Nat) (rate : Nat) (lanes : Nat) (s : State) (h_s : Keeps orig s) : KeepsRes orig (execLinkTrainingDone o rate lanes s) := by
  unfold execLinkTrainingDone
  repeat' (first
    | with_reducible assumption
    | with_reducible apply KeepsRes.next
    | with_reducible apply State.put_keeps
    | with_reducible apply State.setOutput_keeps
    | with_reducible apply State.outTo_keeps
    | with_reducible apply Keeps.cond)

theorem execRetrain_keeps {orig : State} (o : Nat) (s : State) (h_s : Keeps orig s) : KeepsRes orig (execRetrain o s) := by
  unfold execRetrain
  repeat' (first
    | with_reducible assumption
    | with_reducible apply KeepsRes.next
    | with_reducible apply State.outTo_keeps
    | with_reducible apply State.setOutput_keeps
    | with_reducible apply State.bad_keeps
    | with_reducible apply Keeps.cond)

theorem State.auxStart_keeps {orig : State} (s : State) (o : Nat) (op : Nat) (h_s : Keeps orig s) : Keeps orig (State.auxStart s o op) := by
  unfold State.auxStart
  repeat' (first
    | with_reducible assumption
    | with_reducible apply State.bad_keeps
    | with_reducible apply State.emit_keeps
    | with_reducible apply State.flag_keeps
    | with_reducible apply State.setOutput_keeps
    | with_reducible apply Keeps.cond)

theorem execAuxNativeWrite_keeps {orig : State} (o : Nat) (s : State) (h_s : Keeps orig s) : KeepsRes orig (execAuxNativeWrite o s) := by
  unfold execAuxNativeWrite
  repeat' (first
    | with_reducible assumption
    | with_reducible apply KeepsRes.next
    | with_reducible apply State.auxStart_keeps)

theorem execAuxNativeRead_keeps {orig : State} (o : Nat) (s : State) (h_s : Keeps orig s) : KeepsRes orig (execAuxNativeRead o s) := by
  unfold execAuxNativeRead
  repeat' (first
    | with_reducible assumption
    | with_reducible apply KeepsRes.next
    | with_reducible apply State.auxStart_keeps)

theorem execAuxI2cWrite_keeps {orig : State} (o : Nat) (s : State) (h_s : Keeps orig s) : KeepsRes orig (execAuxI2cWrite o s) := by
  unfold execAuxI2cWrite
  repeat' (first
    | with_reducible assumption
    | with_reducible apply KeepsRes.next
    | with_reducible apply State.auxStart_keeps)

theorem execAuxI2cRead_keeps {orig : State} (o : Nat) (s : State) (h_s : Keeps orig s) : KeepsRes orig (execAuxI2cRead o s) := by
  unfold execAuxI2cRead
  repeat' (first
    | with_reducible assumption
    | with_reducible apply KeepsRes.next
    | with_reducible apply State.auxStart_keeps)

theorem execAuxDone_keeps {orig : State} (o : Nat) (result : Nat) (data : List Byte) (s : State) (h_s : Keeps orig s) : KeepsRes orig (execAuxDone o result data s) := by
  unfold execAuxDone
  repeat' (first
    | with_reducible assumption
    | intro x
    | with_reducible apply KeepsRes.next
    | with_reducible apply State.put_keeps
    | with_reducible apply State.setOutput_keeps
    | with_reducible apply State.flag_keeps
    | with_reducible apply Keeps.cond
    | with_reducible apply Keeps.foldl)

theorem execTouchReadStart_keeps {orig : State} (tint : Bool) (s : State) (h_s : Keeps orig s) : KeepsRes orig (execTouchReadStart tint s) := by
  unfold execTouchReadStart
  repeat' (first
    | with_reducible assumption
    | with_reducible apply KeepsRes.next
    | with_reducible apply State.emit_keeps
    | with_reducible apply Keeps.cond
    | (extract_lets +onlyGivenNames x; refine Keeps.via' (o := orig) (x := x) ?_ (fun hx => ?_); rotate_left; clear_value x; rotate_right; subst x)
    | (extract_lets +onlyGivenNames x; clear_value x)
    | (with_reducible apply Keeps.mk'; with_reducible assumption))

theorem State.crosshair_keeps {orig : State} (s : State) (o : Nat) (hit : Option Nat) (x : Int) (y : Int) (phase : Nat) (h_s : Keeps orig s) : Keeps orig (State.crosshair s o hit x y phase) := by
  unfold State.crosshair
  repeat' (first
    | with_reducible assumption
    | with_reducible apply State.setOutput_keeps
    | with_reducible apply Keeps.cond
    | (extract_lets +onlyGivenNames x; refine Keeps.via' (o := orig) (x := x) ?_ (fun hx => ?_); rotate_left; clear_value x; rotate_right; subst x)
    | (extract_lets +onlyGivenNames x; clear_value x)
    | split
    | (with_reducible apply Keeps.mk'; with_reducible assumption)
    | (with_reducible apply Keeps.mk'; first | with_reducible apply State.setOutput_keeps | with_reducible apply Keeps.cond))

theorem State.readout_keeps {orig : State} (s : State) (x : Int) (y : Int) (phase : Nat) (h_s : Keeps orig s) : Keeps orig (State.readout s x y phase) := by
  unfold State.readout
  repeat' (first
    | with_reducible assumption
    | intro x
    | with_reducible apply State.flag_keeps
    | with_reducible apply State.put_keeps
    | with_reducible apply State.wrap_keeps
    | with_reducible apply State.putI_keeps
    | with_reducible apply State.put64_keeps
    | with_reducible apply State.crosshair_keeps
    | with_reducible apply State.ev_keeps
    | with_reducible apply Keeps.cond_fst
    | with_reducible apply Keeps.ite_fst
    | with_reducible apply Keeps.foldl
    | with_reducible apply Keeps.foldl_fst
    | (extract_lets +onlyGivenNames x; refine Keeps.via' (o := orig) (x := x) ?_ (fun hx => ?_); rotate_left; clear_value x; rotate_right; subst x)
    | (extract_lets +onlyGivenNames x; refine Keeps.via' (o := orig) (x := x.1) ?_ (fun hx => ?_); rotate_left; clear_value x; rotate_right; subst x)
    | (extract_lets +onlyGivenNames x; clear_value x)
    | split)

theorem execTouchReport_keeps {orig : State} (result : Nat) (report : List Byte) (s : State) (h_s : Keeps orig s) : KeepsRes orig (execTouchReport result report s) := by
  unfold execTouchReport
  repeat' (first
    | with_reducible assumption
    | with_reducible apply KeepsRes.next
    | with_reducible apply State.ev_keeps
    | with_reducible apply State.count_keeps
    | with_reducible apply State.flag_keeps
    | with_reducible apply State.readout_keeps
    | with_reducible apply Keeps.cond
    | (extract_lets +onlyGivenNames x; clear_value x)
    | (with_reducible apply Keeps.mk'; with_reducible assumption)
    | (with_reducible apply Keeps.mk'; with_reducible apply Keeps.mk'; with_reducible assumption))

theorem execMkrRead_keeps {orig : State} (r : Requester) (s : State) (h_s : Keeps orig s) : KeepsRes orig (execMkrRead r s) := by
  unfold execMkrRead
  repeat' (first
    | with_reducible assumption
    | with_reducible apply KeepsRes.next
    | with_reducible apply State.plainRead_keeps
    | with_reducible apply State.emit_keeps)

theorem State.dspWatch_keeps {orig : State} (s : State) (h_s : Keeps orig s) : Keeps orig (State.dspWatch s) := by
  unfold State.dspWatch
  repeat' (first
    | with_reducible assumption
    | intro x
    | with_reducible apply State.outTo_keeps
    | with_reducible apply Keeps.cond
    | with_reducible apply Keeps.foldl)

theorem State.dspSleep_keeps {orig : State} (s : State) (h_s : Keeps orig s) : Keeps orig (State.dspSleep s) := by
  unfold State.dspSleep
  repeat' (first
    | with_reducible assumption
    | intro x
    | with_reducible apply State.setOutput_keeps
    | with_reducible apply State.outTo_keeps
    | with_reducible apply State.layerSync_keeps
    | with_reducible apply Keeps.foldl
    | (extract_lets +onlyGivenNames x; refine Keeps.via' (o := orig) (x := x) ?_ (fun hx => ?_); rotate_left; clear_value x; rotate_right; subst x)
    | (extract_lets +onlyGivenNames x; clear_value x)
    | (with_reducible apply Keeps.mk'; with_reducible assumption))

theorem State.dspWake_keeps {orig : State} (s : State) (h_s : Keeps orig s) : Keeps orig (State.dspWake s) := by
  unfold State.dspWake
  repeat' (first
    | with_reducible assumption
    | intro x
    | with_reducible apply State.outTo_keeps
    | with_reducible apply Keeps.cond
    | with_reducible apply Keeps.foldl)

end Sys2Proof.Machine
end

