-- ==== Sys2Proof/Laws/KeepsTriggers.lean ====
section
/-!
SUPPORT. Every operation of Machine/Triggers.lean keeps the canonical forms and the queue.
-/
namespace Sys2Proof.Machine

theorem State.unitFlag_keeps {orig : State} (s : State) (u : Nat) (f : Fld) (h_s : Keeps orig s) : Keeps orig (State.unitFlag s u f) := by
  unfold State.unitFlag
  repeat' (first
    | with_reducible assumption
    | with_reducible apply State.ev_keeps
    | with_reducible apply State.flag_keeps
    | with_reducible apply Keeps.cond)

theorem State.setGroup_keeps {orig : State} (s : State) (g : Nat) (x : TrigGroup) (h_s : Keeps orig s) : Keeps orig (State.setGroup s g x) := by
  unfold State.setGroup
  repeat' (first
    | (extract_lets +onlyGivenNames x; clear_value x)
    | (with_reducible apply Keeps.mk'; with_reducible assumption))

theorem State.setPin_keeps {orig : State} (s : State) (p : Nat) (x : TrigOut) (h_s : Keeps orig s) : Keeps orig (State.setPin s p x) := by
  unfold State.setPin
  repeat' (first
    | (extract_lets +onlyGivenNames x; clear_value x)
    | (with_reducible apply Keeps.mk'; with_reducible assumption))

theorem State.suppress_keeps {orig : State} (s : State) (u : Nat) (h_s : Keeps orig s) : Keeps orig (State.suppress s u) := by
  unfold State.suppress
  repeat' (first
    | with_reducible assumption
    | with_reducible apply State.count_keeps
    | with_reducible apply State.setUnit_keeps)

theorem State.satisfied_keeps {orig : State} (s : State) (u : Nat) (x : Nat) (d : TrigDone) (h_s : Keeps orig s) : Keeps orig (State.satisfied s u x d) := by
  unfold State.satisfied
  repeat' (first
    | with_reducible assumption
    | with_reducible apply State.setUnit_keeps
    | with_reducible apply State.suppress_keeps
    | with_reducible apply State.put_keeps
    | with_reducible apply Keeps.cond
    | (extract_lets +onlyGivenNames x; clear_value x)
    | split)

theorem State.judge1_keeps {orig : State} (s : State) (u : Nat) (x : Nat) (p : Product) (h_s : Keeps orig s) : Keeps orig (State.judge1 s u x p) := by
  unfold State.judge1
  repeat' (first
    | with_reducible assumption
    | with_reducible apply State.setUnit_keeps
    | with_reducible apply State.satisfied_keeps
    | with_reducible apply State.put_keeps
    | with_reducible apply Keeps.cond)

theorem State.judgePulse_keeps {orig : State} (s : State) (u : Nat) (p : TrigPulse) (h_s : Keeps orig s) : Keeps orig (State.judgePulse s u p) := by
  unfold State.judgePulse
  repeat' (first
    | with_reducible assumption
    | with_reducible apply State.setUnit_keeps
    | with_reducible apply State.satisfied_keeps
    | with_reducible apply Keeps.cond)

theorem execTriggerProduct_keeps {orig : State} (u : Nat) (x : Nat) (e : Nat) (s : State) (h_s : Keeps orig s) : KeepsRes orig (execTriggerProduct u x e s) := by
  unfold execTriggerProduct
  repeat' (first
    | with_reducible assumption
    | with_reducible apply KeepsRes.next
    | with_reducible apply State.judgePulse_keeps
    | with_reducible apply State.setUnit_keeps
    | with_reducible apply State.judge1_keeps
    | with_reducible apply Keeps.cond
    | (extract_lets +onlyGivenNames x; clear_value x)
    | split)

theorem State.armUnit_keeps {orig : State} (s : State) (u : Nat) (h_s : Keeps orig s) : Keeps orig (State.armUnit s u) := by
  unfold State.armUnit
  repeat' (first
    | with_reducible assumption
    | with_reducible apply State.setUnit_keeps
    | with_reducible apply State.put_keeps
    | with_reducible apply State.flag_keeps
    | with_reducible apply Keeps.cond)

theorem State.armGroup_keeps {orig : State} (s : State) (g : Nat) (num : Option Nat) (h_s : Keeps orig s) : Keeps orig (State.armGroup s g num) := by
  unfold State.armGroup
  repeat' (first
    | with_reducible assumption
    | intro x
    | with_reducible apply State.setGroup_keeps
    | with_reducible apply State.armUnit_keeps
    | with_reducible apply Keeps.foldl)

theorem State.groupArm_keeps {orig : State} (s : State) (g : Nat) (command : Bool) (h_s : Keeps orig s) : Keeps orig (State.groupArm s g command) := by
  unfold State.groupArm
  repeat' (first
    | with_reducible assumption
    | with_reducible apply State.armGroup_keeps
    | with_reducible apply State.sendCell_keeps
    | with_reducible apply State.setGroup_keeps
    | with_reducible apply Keeps.cond)

theorem State.disarmUnit_keeps {orig : State} (s : State) (u : Nat) (h_s : Keeps orig s) : Keeps orig (State.disarmUnit s u) := by
  unfold State.disarmUnit
  repeat' (first
    | with_reducible assumption
    | with_reducible apply State.setUnit_keeps
    | with_reducible apply State.put_keeps
    | with_reducible apply State.flag_keeps
    | with_reducible apply Keeps.cond)

theorem State.disarm_keeps {orig : State} (s : State) (u : Nat) (h_s : Keeps orig s) : Keeps orig (State.disarm s u) := by
  unfold State.disarm
  repeat' (first
    | with_reducible assumption
    | intro x
    | with_reducible apply State.disarmUnit_keeps
    | with_reducible apply Keeps.foldl
    | split)

theorem State.releaseGroup_keeps {orig : State} (s : State) (g : Nat) (fires : List Nat) (h_s : Keeps orig s) : Keeps orig (State.releaseGroup s g fires) := by
  unfold State.releaseGroup
  repeat' (first
    | with_reducible assumption
    | intro x
    | with_reducible apply State.put_keeps
    | with_reducible apply State.setUnit_keeps
    | with_reducible apply Keeps.cond
    | with_reducible apply Keeps.foldl)

theorem State.pinShow_keeps {orig : State} (s : State) (p : Nat) (h_s : Keeps orig s) : Keeps orig (State.pinShow s p) := by
  unfold State.pinShow
  repeat' (first
    | with_reducible assumption
    | with_reducible apply State.setPin_keeps
    | with_reducible apply State.emit_keeps
    | with_reducible apply Keeps.cond)

theorem State.waveSync_keeps {orig : State} (s : State) (h_s : Keeps orig s) : Keeps orig (State.waveSync s) := by
  unfold State.waveSync
  repeat' (first
    | with_reducible assumption
    | with_reducible apply State.emit_keeps
    | with_reducible apply Keeps.cond
    | (extract_lets +onlyGivenNames x; refine Keeps.via' (o := orig) (x := x) ?_ (fun hx => ?_); rotate_left; clear_value x; rotate_right; subst x)
    | (extract_lets +onlyGivenNames x; clear_value x)
    | split
    | (with_reducible apply Keeps.mk'; with_reducible assumption)
    | (with_reducible apply Keeps.mk'; first | with_reducible apply State.emit_keeps | with_reducible apply Keeps.cond))

theorem State.drive_keeps {orig : State} (s : State) (p : Nat) (v : Bool) (h_s : Keeps orig s) : Keeps orig (State.drive s p v) := by
  unfold State.drive
  repeat' (first
    | with_reducible assumption
    | with_reducible apply State.emit_keeps
    | with_reducible apply State.setPin_keeps
    | with_reducible apply State.pinShow_keeps
    | with_reducible apply Keeps.cond)

theorem State.holdPins_keeps {orig : State} (s : State) (h_s : Keeps orig s) : Keeps orig (State.holdPins s) := by
  unfold State.holdPins
  repeat' (first
    | with_reducible assumption
    | intro x
    | with_reducible apply State.drive_keeps
    | with_reducible apply Keeps.cond
    | with_reducible apply Keeps.foldl)

theorem State.pinTakes_keeps {orig : State} (s : State) (p : Nat) (h_s : Keeps orig s) : Keeps orig (State.pinTakes s p) := by
  unfold State.pinTakes
  repeat' (first
    | with_reducible assumption
    | with_reducible apply State.drive_keeps)

theorem State.pinEnd_keeps {orig : State} (s : State) (p : Nat) (h_s : Keeps orig s) : Keeps orig (State.pinEnd s p) := by
  unfold State.pinEnd
  repeat' (first
    | with_reducible assumption
    | with_reducible apply State.setPin_keeps
    | with_reducible apply State.pinTakes_keeps
    | with_reducible apply Keeps.cond
    | (extract_lets +onlyGivenNames x; clear_value x)
    | split)

theorem State.pulse_keeps {orig : State} (s : State) (p : Nat) (w : Nat) (at_ : Nat) (h_s : Keeps orig s) : Keeps orig (State.pulse s p w at_) := by
  unfold State.pulse
  repeat' (first
    | with_reducible assumption
    | with_reducible apply State.pinEnd_keeps
    | with_reducible apply State.setPin_keeps
    | with_reducible apply State.count_keeps
    | with_reducible apply State.drive_keeps
    | with_reducible apply Keeps.cond
    | (extract_lets +onlyGivenNames x; refine Keeps.via' (o := orig) (x := x) ?_ (fun hx => ?_); rotate_left; clear_value x; rotate_right; subst x)
    | (extract_lets +onlyGivenNames x; clear_value x)
    | (with_reducible apply Keeps.mk'; with_reducible assumption)
    | (with_reducible apply Keeps.mk'; first | with_reducible apply State.pinEnd_keeps | with_reducible apply State.setPin_keeps | with_reducible apply State.count_keeps | with_reducible apply State.drive_keeps | with_reducible apply Keeps.cond))

theorem State.pinFire_keeps {orig : State} (s : State) (p : Nat) (c : Nat) (h_s : Keeps orig s) : Keeps orig (State.pinFire s p c).1 := by
  unfold State.pinFire
  repeat' (first
    | with_reducible assumption
    | with_reducible apply State.count_keeps
    | with_reducible apply State.setPin_keeps
    | with_reducible apply State.pulse_keeps
    | with_reducible apply Keeps.cond_fst
    | (extract_lets +onlyGivenNames x; clear_value x)
    | split)

theorem State.pinSample_keeps {orig : State} (s : State) (p : Nat) (h_s : Keeps orig s) : Keeps orig (State.pinSample s p) := by
  unfold State.pinSample
  repeat' (first
    | with_reducible assumption
    | with_reducible apply State.flag_keeps
    | with_reducible apply Keeps.cond)

theorem execTrigInEdge_keeps {orig : State} (p : Nat) (level : Bool) (persists : Bool) (at_ : Nat) (s : State) (h_s : Keeps orig s) : KeepsRes orig (execTrigInEdge p level persists at_ s) := by
  unfold execTrigInEdge
  repeat' (first
    | with_reducible assumption
    | intro x
    | with_reducible apply KeepsRes.next
    | with_reducible apply State.stampScale_keeps
    | with_reducible apply State.count_keeps
    | with_reducible apply State.flag_keeps
    | with_reducible apply State.pushPulse_keeps
    | with_reducible apply KeepsRes.cond
    | with_reducible apply KeepsRes.ite
    | with_reducible apply Keeps.cond
    | with_reducible apply Keeps.cond_fst
    | with_reducible apply Keeps.ite_fst
    | with_reducible apply Keeps.foldl
    | with_reducible apply Keeps.foldl_fst
    | (extract_lets +onlyGivenNames x; refine Keeps.via' (o := orig) (x := x) ?_ (fun hx => ?_); rotate_left; clear_value x; rotate_right; subst x)
    | (extract_lets +onlyGivenNames x; refine Keeps.via' (o := orig) (x := x.1) ?_ (fun hx => ?_); rotate_left; clear_value x; rotate_right; subst x)
    | (extract_lets +onlyGivenNames x; clear_value x)
    | split
    | (with_reducible apply Keeps.mk'; with_reducible assumption)
    | (with_reducible apply Keeps.mk'; first | with_reducible apply State.stampScale_keeps | with_reducible apply State.count_keeps | with_reducible apply State.flag_keeps | with_reducible apply State.pushPulse_keeps | with_reducible apply Keeps.foldl | with_reducible apply Keeps.cond))

theorem State.queueRecord_keeps {orig : State} (s : State) (r : TrigRecord) (h_s : Keeps orig s) : Keeps orig (State.queueRecord s r) := by
  unfold State.queueRecord
  repeat' (first
    | with_reducible assumption
    | with_reducible apply State.unitFlag_keeps
    | with_reducible apply State.count_keeps
    | with_reducible apply State.setUnit_keeps
    | with_reducible apply State.put_keeps
    | with_reducible apply Keeps.cond
    | (extract_lets +onlyGivenNames x; clear_value x)
    | (with_reducible apply Keeps.mk'; with_reducible assumption)
    | (with_reducible apply Keeps.mk'; first | with_reducible apply State.count_keeps | with_reducible apply State.unitFlag_keeps | with_reducible apply State.setUnit_keeps | with_reducible apply State.put_keeps | with_reducible apply Keeps.cond))

theorem execTriggerRecordRelease_keeps {orig : State} (u : Nat) (s : State) (h_s : Keeps orig s) : KeepsRes orig (execTriggerRecordRelease u s) := by
  unfold execTriggerRecordRelease
  repeat' (first
    | with_reducible assumption
    | with_reducible apply KeepsRes.next
    | with_reducible apply State.queueRecord_keeps
    | (extract_lets +onlyGivenNames x; clear_value x)
    | split
    | (with_reducible apply Keeps.mk'; with_reducible assumption))

theorem execTriggerRecordDequeue_keeps {orig : State} (st : Nat) (s : State) (h_s : Keeps orig s) : KeepsRes orig (execTriggerRecordDequeue st s) := by
  unfold execTriggerRecordDequeue
  repeat' (first
    | with_reducible assumption
    | with_reducible apply KeepsRes.next
    | with_reducible apply State.close_keeps
    | with_reducible apply State.put_keeps
    | (extract_lets +onlyGivenNames x; clear_value x)
    | split
    | (with_reducible apply Keeps.mk'; with_reducible assumption))

theorem State.armAgain_keeps {orig : State} (s : State) (u : Nat) (h_s : Keeps orig s) : Keeps orig (State.armAgain s u) := by
  unfold State.armAgain
  repeat' (first
    | with_reducible assumption
    | with_reducible apply State.groupArm_keeps
    | with_reducible apply State.armUnit_keeps
    | with_reducible apply State.setUnit_keeps
    | (extract_lets +onlyGivenNames x; refine Keeps.via' (o := orig) (x := x) ?_ (fun hx => ?_); rotate_left; clear_value x; rotate_right; subst x)
    | (extract_lets +onlyGivenNames x; clear_value x)
    | split
    | (with_reducible apply Keeps.mk'; with_reducible assumption)
    | (with_reducible apply Keeps.mk'; first | with_reducible apply State.groupArm_keeps | with_reducible apply State.armUnit_keeps | with_reducible apply State.setUnit_keeps))

theorem State.firingEnds_keeps {orig : State} (s : State) (u : Nat) (h_s : Keeps orig s) : Keeps orig (State.firingEnds s u) := by
  unfold State.firingEnds
  repeat' (first
    | with_reducible assumption
    | with_reducible apply State.flag_keeps
    | with_reducible apply State.disarm_keeps
    | with_reducible apply State.setUnit_keeps
    | with_reducible apply State.put_keeps
    | with_reducible apply State.armAgain_keeps
    | with_reducible apply State.holdPins_keeps
    | with_reducible apply Keeps.cond
    | (extract_lets +onlyGivenNames x; refine Keeps.via' (o := orig) (x := x) ?_ (fun hx => ?_); rotate_left; clear_value x; rotate_right; subst x)
    | (extract_lets +onlyGivenNames x; clear_value x)
    | (with_reducible apply Keeps.mk'; with_reducible assumption)
    | (with_reducible apply Keeps.mk'; first | with_reducible apply State.flag_keeps | with_reducible apply State.disarm_keeps | with_reducible apply State.setUnit_keeps | with_reducible apply State.put_keeps | with_reducible apply State.armAgain_keeps | with_reducible apply State.holdPins_keeps | with_reducible apply Keeps.cond))

theorem State.trgDone_keeps {orig : State} (s : State) (h_s : Keeps orig s) : Keeps orig (State.trgDone s) := by
  unfold State.trgDone
  repeat' (first
    | with_reducible assumption
    | with_reducible apply State.swapDone_keeps
    | with_reducible apply State.flag_keeps
    | with_reducible apply State.swapWhere_keeps
    | with_reducible apply Keeps.cond)

theorem execToutAlignedEdge_keeps {orig : State} (p : Nat) (s : State) (h_s : Keeps orig s) : KeepsRes orig (execToutAlignedEdge p s) := by
  unfold execToutAlignedEdge
  repeat' (first
    | with_reducible assumption
    | with_reducible apply State.trgDone_keeps
    | with_reducible apply KeepsRes.next
    | with_reducible apply State.pulse_keeps
    | with_reducible apply State.setPin_keeps
    | split)

theorem execToutPulseEnd_keeps {orig : State} (p : Nat) (s : State) (h_s : Keeps orig s) : KeepsRes orig (execToutPulseEnd p s) := by
  unfold execToutPulseEnd
  repeat' (first
    | with_reducible assumption
    | with_reducible apply State.pinEnd_keeps
    | with_reducible apply State.trgDone_keeps
    | with_reducible apply KeepsRes.next
    | with_reducible apply State.pinSwitch_keeps
    | with_reducible apply State.drive_keeps
    | with_reducible apply State.setPin_keeps
    | with_reducible apply Keeps.cond
    | split)

theorem State.unitBank_keeps {orig : State} (s : State) (u : Nat) (h_s : Keeps orig s) : Keeps orig (State.unitBank s u) := by
  unfold State.unitBank
  repeat' (first
    | with_reducible assumption
    | with_reducible apply State.unitFlag_keeps
    | (extract_lets +onlyGivenNames x; clear_value x)
    | (with_reducible apply Keeps.mk'; with_reducible apply State.swapWhere_keeps)
    | (with_reducible apply Keeps.mk'; first | with_reducible apply State.swapWhere_keeps | with_reducible apply State.setUnit_keeps | with_reducible apply State.unitFlag_keeps | with_reducible apply Keeps.cond))

theorem execTriggerUnitSwap_keeps {orig : State} (u : Nat) (s : State) (h_s : Keeps orig s) : KeepsRes orig (execTriggerUnitSwap u s) := by
  unfold execTriggerUnitSwap
  repeat' (first
    | with_reducible assumption
    | with_reducible apply KeepsRes.next
    | with_reducible apply State.put_keeps
    | with_reducible apply State.setUnit_keeps
    | with_reducible apply State.unitBank_keeps
    | with_reducible apply State.armUnit_keeps
    | with_reducible apply State.trgDone_keeps
    | with_reducible apply Keeps.cond)

theorem State.trgCommit_keeps {orig : State} (s : State) (h_s : Keeps orig s) : Keeps orig (State.trgCommit s) := by
  unfold State.trgCommit
  repeat' (first
    | with_reducible assumption
    | intro x
    | with_reducible apply State.pinSample_keeps
    | with_reducible apply State.pinTakes_keeps
    | with_reducible apply State.setPin_keeps
    | with_reducible apply State.swapWhere_keeps
    | with_reducible apply State.trgDone_keeps
    | with_reducible apply State.holdPins_keeps
    | with_reducible apply Keeps.cond
    | with_reducible apply Keeps.foldl
    | (extract_lets +onlyGivenNames x; clear_value x)
    | (with_reducible apply Keeps.mk'; with_reducible assumption))

theorem State.trgWatch_keeps {orig : State} (s : State) (h_s : Keeps orig s) : Keeps orig (State.trgWatch s) := by
  unfold State.trgWatch
  repeat' (first
    | with_reducible assumption
    | intro x
    | with_reducible apply State.setUnit_keeps
    | with_reducible apply State.put_keeps
    | with_reducible apply Keeps.cond
    | with_reducible apply Keeps.foldl)

theorem State.trgSleep_keeps {orig : State} (s : State) (h_s : Keeps orig s) : Keeps orig (State.trgSleep s) := by
  unfold State.trgSleep
  repeat' (first
    | with_reducible assumption
    | intro x
    | with_reducible apply State.setGroup_keeps
    | with_reducible apply State.setUnit_keeps
    | with_reducible apply State.flag_keeps
    | with_reducible apply State.put_keeps
    | with_reducible apply State.drive_keeps
    | with_reducible apply State.setPin_keeps
    | with_reducible apply Keeps.foldl)

end Sys2Proof.Machine
end

