-- ==== Sys2Proof/Laws/KeepsRecorder.lean ====
section
/-!
SUPPORT. Every operation of Machine/Recorder.lean keeps the canonical forms and the queue.
-/
namespace Sys2Proof.Machine

theorem State.setRecIn_keeps {orig : State} (s : State) (n : Nat) (x : RecInput) (h_s : Keeps orig s) : Keeps orig (State.setRecIn s n x) := by
  unfold State.setRecIn
  repeat' (first
    | (extract_lets +onlyGivenNames x; clear_value x)
    | (with_reducible apply Keeps.mk'; with_reducible assumption))

theorem State.recTo_keeps {orig : State} (s : State) (v : Nat) (h_s : Keeps orig s) : Keeps orig (State.recTo s v) := by
  unfold State.recTo
  repeat' (first
    | with_reducible assumption
    | with_reducible apply State.ev_keeps
    | with_reducible apply State.put_keeps
    | with_reducible apply Keeps.cond)

theorem State.recSync_keeps {orig : State} (s : State) (h_s : Keeps orig s) : Keeps orig (State.recSync s) := by
  unfold State.recSync
  repeat' (first
    | with_reducible assumption
    | intro x
    | with_reducible apply State.put_keeps
    | with_reducible apply State.put64_keeps
    | with_reducible apply Keeps.ite
    | with_reducible apply Keeps.foldl
    | (extract_lets +onlyGivenNames x; refine Keeps.via' (o := orig) (x := x) ?_ (fun hx => ?_); rotate_left; clear_value x; rotate_right; subst x)
    | (extract_lets +onlyGivenNames x; clear_value x)
    | split)

theorem State.oldGapSync_keeps {orig : State} (s : State) (n : Nat) (h_s : Keeps orig s) : Keeps orig (State.oldGapSync s n) := by
  unfold State.oldGapSync
  repeat' (first
    | with_reducible assumption
    | with_reducible apply State.put64_keeps
    | with_reducible apply Keeps.cond
    | split)

theorem State.pageClose_keeps {orig : State} (s : State) (n : Nat) (h_s : Keeps orig s) : Keeps orig (State.pageClose s n) := by
  unfold State.pageClose
  repeat' (first
    | with_reducible assumption
    | with_reducible apply State.pokeAll_keeps
    | with_reducible apply State.setRecIn_keeps
    | with_reducible apply State.recSync_keeps
    | with_reducible apply State.oldGapSync_keeps
    | (extract_lets +onlyGivenNames x; clear_value x)
    | split)

theorem State.ringTake_keeps {orig : State} (s : State) (n : Nat) (idx : Nat) (v : Option (Int × Int)) (c16 : Bool) (h_s : Keeps orig s) : Keeps orig (State.ringTake s n idx v c16) := by
  unfold State.ringTake
  repeat' (first
    | with_reducible assumption
    | with_reducible apply State.pageClose_keeps
    | with_reducible apply State.recSync_keeps
    | with_reducible apply State.setRecIn_keeps
    | with_reducible apply Keeps.cond
    | (extract_lets +onlyGivenNames x; refine Keeps.via' (o := orig) (x := x) ?_ (fun hx => ?_); rotate_left; clear_value x; rotate_right; subst x)
    | (extract_lets +onlyGivenNames x; clear_value x)
    | split)

theorem State.watchClose_keeps {orig : State} (s : State) (n : Nat) (h_s : Keeps orig s) : Keeps orig (State.watchClose s n) := by
  unfold State.watchClose
  repeat' (first
    | with_reducible assumption
    | with_reducible apply State.pokeAll_keeps
    | with_reducible apply State.setRecIn_keeps
    | (extract_lets +onlyGivenNames x; clear_value x)
    | split)

theorem State.watchRoom_keeps {orig : State} (s : State) (n : Nat) (h_s : Keeps orig s) : Keeps orig (State.watchRoom s n) := by
  unfold State.watchRoom
  repeat' (first
    | with_reducible assumption
    | with_reducible apply State.setRecIn_keeps
    | with_reducible apply State.ev_keeps
    | with_reducible apply State.count64_keeps
    | with_reducible apply Keeps.cond
    | (extract_lets +onlyGivenNames x; clear_value x)
    | split)

theorem State.watchTake_keeps {orig : State} (s : State) (n : Nat) (idx : Nat) (v : Option (Int × Int)) (c16 : Bool) (h_s : Keeps orig s) : Keeps orig (State.watchTake s n idx v c16) := by
  unfold State.watchTake
  repeat' (first
    | with_reducible assumption
    | with_reducible apply State.watchClose_keeps
    | with_reducible apply State.watchRoom_keeps
    | with_reducible apply State.setRecIn_keeps
    | with_reducible apply Keeps.cond)

theorem State.recTake_keeps {orig : State} (s : State) (n : Nat) (idx : Nat) (v : Option (Int × Int)) (c16 : Bool) (h_s : Keeps orig s) : Keeps orig (State.recTake s n idx v c16) := by
  unfold State.recTake
  repeat' (first
    | with_reducible assumption
    | with_reducible apply State.ringTake_keeps
    | with_reducible apply State.watchTake_keeps
    | with_reducible apply Keeps.cond)

theorem State.capRecord_keeps {orig : State} (s : State) (c : Capture) (type : Nat) (body : List Byte) (h_s : Keeps orig s) : Keeps orig (State.capRecord s c type body) := by
  unfold State.capRecord
  repeat' (first
    | with_reducible assumption
    | with_reducible apply State.close_keeps)

theorem State.capRefuse_keeps {orig : State} (s : State) (c : Capture) (code : Nat) (h_s : Keeps orig s) : Keeps orig (State.capRefuse s c code) := by
  unfold State.capRefuse
  repeat' (first
    | with_reducible assumption
    | with_reducible apply State.ev_keeps
    | with_reducible apply State.count_keeps
    | with_reducible apply State.capRecord_keeps)

theorem State.setCap_keeps {orig : State} (s : State) (c : Capture) (h_s : Keeps orig s) : Keeps orig (State.setCap s c) := by
  unfold State.setCap
  repeat' (first
    | with_reducible apply State.put_keeps
    | (extract_lets +onlyGivenNames x; clear_value x)
    | (with_reducible apply Keeps.mk'; with_reducible assumption))

theorem State.capFree_keeps {orig : State} (s : State) (c : Capture) (h_s : Keeps orig s) : Keeps orig (State.capFree s c) := by
  unfold State.capFree
  repeat' (first
    | with_reducible apply State.recSync_keeps
    | with_reducible apply State.put_keeps
    | (extract_lets +onlyGivenNames x; clear_value x)
    | (with_reducible apply Keeps.mk'; with_reducible assumption))

theorem State.capClose_keeps {orig : State} (s : State) (w : CapWin) (h_s : Keeps orig s) : Keeps orig (State.capClose s w) := by
  unfold State.capClose
  repeat' (first
    | with_reducible assumption
    | with_reducible apply State.pageClose_keeps
    | with_reducible apply Keeps.cond
    | split)

theorem State.capMap_keeps {orig : State} (s : State) (c : Capture) (h_s : Keeps orig s) : Keeps orig (State.capMap s c).1 := by
  unfold State.capMap
  repeat' (first
    | with_reducible assumption
    | with_reducible apply State.capClose_keeps
    | with_reducible apply State.setCap_keeps
    | with_reducible apply State.recSync_keeps
    | with_reducible apply Keeps.cond_fst
    | with_reducible apply Keeps.foldl)

theorem State.capAdd_keeps {orig : State} (s : State) (c : Capture) (h_s : Keeps orig s) : Keeps orig (State.capAdd s c) := by
  unfold State.capAdd
  repeat' (first
    | with_reducible apply State.put_keeps
    | (extract_lets +onlyGivenNames x; clear_value x)
    | (with_reducible apply Keeps.mk'; with_reducible assumption))

theorem State.capTaken_keeps {orig : State} (s : State) (wins : List CapWin) (h_s : Keeps orig s) : Keeps orig (State.capTaken s wins) := by
  unfold State.capTaken
  repeat' (first
    | with_reducible assumption
    | with_reducible apply State.ev_keeps
    | with_reducible apply State.recSync_keeps
    | with_reducible apply Keeps.cond)

theorem State.capRequest_keeps {orig : State} (s : State) (slot : Nat) (unit : Nat) (firing : Nat) (tag : Nat) (tq : Nat) (h_s : Keeps orig s) : Keeps orig (State.capRequest s slot unit firing tag tq) := by
  unfold State.capRequest
  repeat' (first
    | with_reducible assumption
    | with_reducible apply State.capRefuse_keeps
    | with_reducible apply State.capTaken_keeps
    | with_reducible apply State.capAdd_keeps
    | with_reducible apply State.capMap_keeps
    | with_reducible apply Keeps.cond
    | (extract_lets +onlyGivenNames x; clear_value x)
    | with_reducible refine Keeps.of_pair ?_ (by assumption)
    | split)

theorem execCapRequest_keeps {orig : State} (slot : Nat) (s : State) (h_s : Keeps orig s) : KeepsRes orig (execCapRequest slot s) := by
  unfold execCapRequest
  repeat' (first
    | with_reducible assumption
    | with_reducible apply KeepsRes.next
    | with_reducible apply State.capRequest_keeps)

theorem State.capEnds_keeps {orig : State} (s : State) (c : Capture) (kind code kept : Nat) (h_s : Keeps orig s) : Keeps orig (State.capEnds s c kind code kept) := by
  unfold State.capEnds
  repeat' (first
    | with_reducible assumption
    | with_reducible apply State.capRecord_keeps)

theorem State.capGaps_keeps {orig : State} (s : State) (c : Capture) (h_s : Keeps orig s) : Keeps orig (State.capGaps s c) := by
  unfold State.capGaps
  repeat' (first
    | with_reducible assumption
    | intro x
    | with_reducible apply State.capRecord_keeps
    | with_reducible apply Keeps.foldl)

theorem State.capStart_keeps {orig : State} (s : State) (c : Capture) (h_s : Keeps orig s) : Keeps orig (State.capStart s c) := by
  unfold State.capStart
  repeat' (first
    | with_reducible assumption
    | with_reducible apply State.capGaps_keeps
    | with_reducible apply State.setCap_keeps)

theorem execCaptureHeld_keeps {orig : State} (num : Nat) (s : State) (h_s : Keeps orig s) : KeepsRes orig (execCaptureHeld num s) := by
  unfold execCaptureHeld
  repeat' (first
    | with_reducible assumption
    | with_reducible apply KeepsRes.next
    | with_reducible apply State.ev_keeps
    | with_reducible apply State.capEnds_keeps
    | with_reducible apply State.setCap_keeps
    | with_reducible apply State.capStart_keeps
    | with_reducible apply Keeps.cond
    | split)

theorem execCapRead_keeps {orig : State} (num : Nat) (s : State) (h_s : Keeps orig s) : KeepsRes orig (execCapRead num s) := by
  unfold execCapRead
  repeat' (first
    | with_reducible assumption
    | with_reducible apply KeepsRes.next
    | with_reducible apply State.capStart_keeps
    | with_reducible apply State.bad_keeps
    | with_reducible apply Keeps.cond
    | split)

theorem execCapRelease_keeps {orig : State} (num : Nat) (s : State) (h_s : Keeps orig s) : KeepsRes orig (execCapRelease num s) := by
  unfold execCapRelease
  repeat' (first
    | with_reducible assumption
    | with_reducible apply KeepsRes.next
    | with_reducible apply State.capFree_keeps
    | with_reducible apply State.ev_keeps
    | with_reducible apply State.capEnds_keeps
    | with_reducible apply State.bad_keeps
    | with_reducible apply Keeps.cond
    | split)

theorem execCapstatDone_keeps {orig : State} (num : Nat) (s : State) (h_s : Keeps orig s) : KeepsRes orig (execCapstatDone num s) := by
  unfold execCapstatDone
  repeat' (first
    | with_reducible assumption
    | intro x
    | with_reducible apply KeepsRes.next
    | with_reducible apply State.capRecord_keeps
    | with_reducible apply State.ev_keeps
    | with_reducible apply State.setCap_keeps
    | with_reducible apply Keeps.cond
    | with_reducible apply Keeps.foldl
    | split)

theorem State.capData_keeps {orig : State} (s : State) (c : Capture) (w : CapWin) (p : RecPage) (h_s : Keeps orig s) : Keeps orig (State.capData s c w p) := by
  unfold State.capData
  repeat' (first
    | with_reducible assumption
    | intro x
    | with_reducible apply State.capRecord_keeps
    | with_reducible apply State.ev_keeps
    | with_reducible apply State.count64_keeps
    | with_reducible apply State.setCap_keeps
    | with_reducible apply Keeps.cond
    | with_reducible apply Keeps.foldl
    | (extract_lets +onlyGivenNames x; refine Keeps.via' (o := orig) (x := x) ?_ (fun hx => ?_); rotate_left; clear_value x; rotate_right; subst x)
    | split)

theorem execReadoutEnd_keeps {orig : State} (num : Nat) (s : State) (h_s : Keeps orig s) : KeepsRes orig (execReadoutEnd num s) := by
  unfold execReadoutEnd
  repeat' (first
    | with_reducible assumption
    | intro x
    | with_reducible apply KeepsRes.next
    | with_reducible apply State.capData_keeps
    | with_reducible apply State.ev_keeps
    | with_reducible apply State.capEnds_keeps
    | with_reducible apply State.capFree_keeps
    | with_reducible apply State.setCap_keeps
    | with_reducible apply Keeps.cond
    | with_reducible apply Keeps.foldl
    | (extract_lets +onlyGivenNames x; refine Keeps.via' (o := orig) (x := x) ?_ (fun hx => ?_); rotate_left; clear_value x; rotate_right; subst x)
    | split)

theorem State.recWatch_keeps {orig : State} (s : State) (h_s : Keeps orig s) : Keeps orig (State.recWatch s) := by
  unfold State.recWatch
  repeat' (first
    | with_reducible assumption
    | intro x
    | with_reducible apply State.pageClose_keeps
    | with_reducible apply State.setCap_keeps
    | with_reducible apply State.recTo_keeps
    | with_reducible apply Keeps.cond
    | with_reducible apply Keeps.foldl)

theorem State.recWatchOn_keeps {orig : State} (s : State) (h_s : Keeps orig s) : Keeps orig (State.recWatchOn s) := by
  unfold State.recWatchOn
  repeat' (first
    | with_reducible assumption
    | with_reducible apply State.recTo_keeps
    | with_reducible apply Keeps.cond)

theorem State.recSleep_keeps {orig : State} (s : State) (h_s : Keeps orig s) : Keeps orig (State.recSleep s) := by
  unfold State.recSleep
  repeat' (first
    | with_reducible assumption
    | intro x
    | with_reducible apply State.ev_keeps
    | with_reducible apply State.put_keeps
    | with_reducible apply State.recTo_keeps
    | with_reducible apply State.recSync_keeps
    | with_reducible apply Keeps.foldl
    | (extract_lets +onlyGivenNames x; clear_value x)
    | (with_reducible apply Keeps.mk'; with_reducible apply State.count_keeps))

theorem State.recWake_keeps {orig : State} (s : State) (h_s : Keeps orig s) : Keeps orig (State.recWake s) := by
  unfold State.recWake
  repeat' (first
    | with_reducible assumption
    | intro x
    | with_reducible apply State.setRecIn_keeps
    | with_reducible apply Keeps.cond
    | with_reducible apply Keeps.foldl
    | (extract_lets +onlyGivenNames x; clear_value x)
    | (with_reducible apply Keeps.mk'; with_reducible assumption))

theorem State.takeSlots_keeps {orig : State} (n : Nat) (y1 : Nat) (y2 : State) (h_y2 : Keeps orig y2) : Keeps orig (State.takeSlots n y1 y2) := by
  induction y1 generalizing n y2 with
  | zero =>
  rw [State.takeSlots]
  repeat' (first
    | with_reducible assumption
    | with_reducible apply State.setRecIn_keeps
    | (extract_lets +onlyGivenNames x; clear_value x)
    | split)
  | succ k ih =>
  rw [State.takeSlots]
  repeat' (first
    | with_reducible assumption
    | with_reducible apply State.setRecIn_keeps
    | with_reducible apply ih
    | (extract_lets +onlyGivenNames x; clear_value x)
    | split)

theorem execHbmWriterStart_keeps {orig : State} (s : State) (h_s : Keeps orig s) : KeepsRes orig (execHbmWriterStart s) := by
  unfold execHbmWriterStart
  repeat' (first
    | with_reducible assumption
    | intro x
    | with_reducible apply KeepsRes.next
    | with_reducible apply State.watchClose_keeps
    | with_reducible apply State.takeSlots_keeps
    | with_reducible apply State.recTo_keeps
    | with_reducible apply State.capMap_keeps
    | with_reducible apply State.capFree_keeps
    | with_reducible apply State.capRefuse_keeps
    | with_reducible apply Keeps.cond
    | with_reducible apply Keeps.foldl
    | with_reducible refine Keeps.of_pair ?_ (by assumption)
    | split)

theorem State.drain_keeps {orig : State} (s : State) (n : Nat) (h_s : Keeps orig s) : Keeps orig (State.drain s n) := by
  unfold State.drain
  repeat' (first
    | with_reducible assumption
    | intro x
    | with_reducible apply State.pokeAll_keeps
    | with_reducible apply State.setRecIn_keeps
    | with_reducible apply Keeps.foldl)

theorem execWatchDrainDone_keeps {orig : State} (s : State) (h_s : Keeps orig s) : KeepsRes orig (execWatchDrainDone s) := by
  unfold execWatchDrainDone
  repeat' (first
    | with_reducible assumption
    | intro x
    | with_reducible apply KeepsRes.next
    | with_reducible apply State.drain_keeps
    | with_reducible apply State.ev_keeps
    | with_reducible apply State.recTo_keeps
    | with_reducible apply State.recSync_keeps
    | with_reducible apply Keeps.cond
    | (extract_lets +onlyGivenNames x; clear_value x)
    | (with_reducible apply Keeps.mk'; with_reducible apply Keeps.foldl))

theorem State.recShrink_keeps {orig : State} (s : State) (total : Nat) (h_s : Keeps orig s) : Keeps orig (State.recShrink s total) := by
  unfold State.recShrink
  repeat' (first
    | with_reducible assumption
    | intro x
    | with_reducible apply State.setRecIn_keeps
    | with_reducible apply State.count64_keeps
    | with_reducible apply State.ev_keeps
    | with_reducible apply State.recSync_keeps
    | with_reducible apply State.flag_keeps
    | with_reducible apply Keeps.cond
    | with_reducible apply Keeps.foldl)

theorem execFold_keeps {orig : State} (s : State) (h_s : Keeps orig s) : KeepsRes orig (execFold s) := by
  unfold execFold
  repeat' (first
    | with_reducible assumption
    | with_reducible apply KeepsRes.next
    | with_reducible apply State.recShrink_keeps
    | with_reducible apply State.put_keeps
    | with_reducible apply State.setRemap_keeps
    | with_reducible apply State.rankTo_keeps
    | with_reducible apply Keeps.cond
    | (extract_lets +onlyGivenNames x; refine Keeps.via' (o := orig) (x := x) ?_ (fun hx => ?_); rotate_left; clear_value x; rotate_right; subst x)
    | (extract_lets +onlyGivenNames x; clear_value x)
    | split
    | (with_reducible apply Keeps.mk'; with_reducible apply State.flag_keeps))

theorem State.recRepartition_keeps {orig : State} (s : State) (lay : List (Nat × Nat × Nat)) (h_s : Keeps orig s) : Keeps orig (State.recRepartition s lay) := by
  unfold State.recRepartition
  repeat' (first
    | with_reducible assumption
    | intro x
    | with_reducible apply State.pageClose_keeps
    | with_reducible apply State.setRecIn_keeps
    | with_reducible apply State.recSync_keeps
    | with_reducible apply Keeps.foldl)

theorem State.recCommit_keeps {orig : State} (s : State) (h_s : Keeps orig s) : Keeps orig (State.recCommit s) := by
  unfold State.recCommit
  repeat' (first
    | with_reducible assumption
    | with_reducible apply State.recRepartition_keeps
    | with_reducible apply Keeps.cond)

theorem execRecorderSwap_keeps {orig : State} (s : State) (h_s : Keeps orig s) : KeepsRes orig (execRecorderSwap s) := by
  unfold execRecorderSwap
  repeat' (first
    | with_reducible assumption
    | with_reducible apply State.recWatchOn_keeps
    | with_reducible apply KeepsRes.next
    | with_reducible apply State.swapWhere_keeps
    | with_reducible apply State.ev_keeps
    | with_reducible apply State.flag_keeps
    | with_reducible apply State.recSleep_keeps
    | with_reducible apply State.recTo_keeps
    | with_reducible apply State.swapDone_keeps
    | with_reducible apply State.recSync_keeps
    | with_reducible apply Keeps.cond)

end Sys2Proof.Machine
end

