-- ==== Sys2Proof/Laws/KeepsCross.lean ====
section
/-!
SUPPORT. Every operation of Machine/Cross.lean keeps the canonical forms and the queue.
-/
namespace Sys2Proof.Machine

theorem State.xspPlan_keeps {orig : State} (s : State) (h_s : Keeps orig s) : Keeps orig (State.xspPlan s) := by
  unfold State.xspPlan
  repeat' (first
    | with_reducible assumption
    | intro x
    | with_reducible apply State.put_keeps
    | with_reducible apply State.flag_keeps
    | with_reducible apply State.throttleSync_keeps
    | with_reducible apply Keeps.foldl
    | (extract_lets +onlyGivenNames x; clear_value x)
    | (with_reducible apply Keeps.mk'; with_reducible apply Keeps.foldl))

theorem State.markAbsent_keeps {orig : State} (s : State) (n : Nat) (i : Nat) (h : Nat) (h_s : Keeps orig s) : Keeps orig (State.markAbsent s n i h) := by
  unfold State.markAbsent
  repeat' (first
    | with_reducible assumption
    | intro x
    | with_reducible apply State.count_keeps
    | with_reducible apply State.ev_keeps
    | with_reducible apply Keeps.cond
    | (extract_lets +onlyGivenNames x; refine Keeps.via' (o := orig) (x := x) ?_ (fun hx => ?_); rotate_left; clear_value x; rotate_right; subst x)
    | (extract_lets +onlyGivenNames x; clear_value x)
    | (with_reducible apply Keeps.mk'; with_reducible assumption)
    | (with_reducible apply Keeps.mk'; first | with_reducible apply State.count_keeps | with_reducible apply State.ev_keeps | with_reducible apply Keeps.cond))

theorem execSeamAbsentDeadline_keeps {orig : State} (n : Nat) (m : Nat) (s : State) (h_s : Keeps orig s) : KeepsRes orig (execSeamAbsentDeadline n m s) := by
  unfold execSeamAbsentDeadline
  repeat' (first
    | with_reducible assumption
    | intro x
    | with_reducible apply KeepsRes.next
    | with_reducible apply State.markAbsent_keeps
    | with_reducible apply KeepsRes.cond
    | with_reducible apply KeepsRes.ite
    | with_reducible apply Keeps.cond
    | with_reducible apply Keeps.cond_fst
    | with_reducible apply Keeps.ite_fst
    | split)

theorem State.seamLate_keeps {orig : State} (s : State) (n : Nat) (p : Spectrum) (h_s : Keeps orig s) : Keeps orig (State.seamLate s n p) := by
  unfold State.seamLate
  repeat' (first
    | with_reducible assumption
    | with_reducible apply State.count_keeps
    | with_reducible apply Keeps.cond)

theorem execSeamSkewCheck_keeps {orig : State} (m : Nat) (s : State) (h_s : Keeps orig s) : KeepsRes orig (execSeamSkewCheck m s) := by
  unfold execSeamSkewCheck
  repeat' (first
    | with_reducible assumption
    | with_reducible apply KeepsRes.next
    | with_reducible apply State.ev_keeps
    | with_reducible apply State.flag_keeps
    | with_reducible apply Keeps.cond
    | (extract_lets +onlyGivenNames x; refine Keeps.via' (o := orig) (x := x) ?_ (fun hx => ?_); rotate_left; clear_value x; rotate_right; subst x)
    | (extract_lets +onlyGivenNames x; clear_value x)
    | (with_reducible apply Keeps.mk'; with_reducible assumption))

theorem State.endXInt_keeps {orig : State} (s : State) (split : Bool) (h_s : Keeps orig s) : Keeps orig (State.endXInt s split) := by
  unfold State.endXInt
  repeat' (first
    | with_reducible assumption
    | (extract_lets +onlyGivenNames x; clear_value x)
    | split
    | (with_reducible apply Keeps.mk'; with_reducible assumption))

theorem State.xspAccumulate_keeps {orig : State} (s : State) (v : BankView) (x : XSpec) (h_s : Keeps orig s) : Keeps orig (State.xspAccumulate s v x) := by
  unfold State.xspAccumulate
  repeat' (first
    | with_reducible assumption
    | with_reducible apply State.ev_keeps
    | with_reducible apply State.count_keeps
    | with_reducible apply State.put_keeps
    | with_reducible apply Keeps.cond
    | (extract_lets +onlyGivenNames x; refine Keeps.via' (o := orig) (x := x) ?_ (fun hx => ?_); rotate_left; clear_value x; rotate_right; subst x)
    | (extract_lets +onlyGivenNames x; clear_value x)
    | split
    | (with_reducible apply Keeps.mk'; with_reducible assumption))

theorem State.xspDrained_keeps {orig : State} (s : State) (h_s : Keeps orig s) : Keeps orig (State.xspDrained s) := by
  unfold State.xspDrained
  repeat' (first
    | with_reducible assumption
    | with_reducible apply State.put_keeps
    | with_reducible apply State.swapDone_keeps
    | with_reducible apply State.ev_keeps
    | with_reducible apply State.flag_keeps
    | with_reducible apply Keeps.cond
    | (extract_lets +onlyGivenNames x; refine Keeps.via' (o := orig) (x := x) ?_ (fun hx => ?_); rotate_left; clear_value x; rotate_right; subst x)
    | (extract_lets +onlyGivenNames x; clear_value x)
    | (with_reducible apply Keeps.mk'; with_reducible assumption))

theorem State.xspSwapNow_keeps {orig : State} (s : State) (keep : Bool) (h_s : Keeps orig s) : Keeps orig (State.xspSwapNow s keep) := by
  unfold State.xspSwapNow
  repeat' (first
    | with_reducible assumption
    | with_reducible apply State.endXInt_keeps
    | with_reducible apply State.put_keeps
    | with_reducible apply State.xspDrained_keeps
    | with_reducible apply State.xspPlan_keeps
    | (extract_lets +onlyGivenNames x; clear_value x)
    | (with_reducible apply Keeps.mk'; with_reducible apply State.swapWhere_keeps))

theorem State.xspCommit_keeps {orig : State} (s : State) (h_s : Keeps orig s) : Keeps orig (State.xspCommit s) := by
  unfold State.xspCommit
  repeat' (first
    | with_reducible assumption
    | with_reducible apply State.xspSwapNow_keeps
    | with_reducible apply Keeps.cond
    | (extract_lets +onlyGivenNames x; clear_value x)
    | split
    | (with_reducible apply Keeps.mk'; with_reducible assumption))

theorem execXspSwap_keeps {orig : State} (s : State) (h_s : Keeps orig s) : KeepsRes orig (execXspSwap s) := by
  unfold execXspSwap
  repeat' (first
    | with_reducible assumption
    | with_reducible apply KeepsRes.next
    | with_reducible apply State.xspSwapNow_keeps
    | with_reducible apply Keeps.cond)

theorem execXspDumpDrained_keeps {orig : State} (s : State) (h_s : Keeps orig s) : KeepsRes orig (execXspDumpDrained s) := by
  unfold execXspDumpDrained
  repeat' (first
    | with_reducible assumption
    | with_reducible apply KeepsRes.next
    | with_reducible apply State.xspDrained_keeps)

theorem State.seamRelease_keeps {orig : State} (s : State) (v : BankView) (i : Nat) (h : Nat) (l : Nat) (full : Nat) (h_s : Keeps orig s) : Keeps orig (State.seamRelease s v i h l full) := by
  unfold State.seamRelease
  repeat' (first
    | with_reducible assumption
    | intro x
    | with_reducible apply State.markAbsent_keeps
    | with_reducible apply State.count_keeps
    | with_reducible apply State.degrLoss_keeps
    | with_reducible apply State.ev_keeps
    | with_reducible apply State.endXInt_keeps
    | with_reducible apply State.xspAccumulate_keeps
    | with_reducible apply State.put_keeps
    | with_reducible apply Keeps.cond
    | with_reducible apply Keeps.foldl
    | (extract_lets +onlyGivenNames x; refine Keeps.via' (o := orig) (x := x) ?_ (fun hx => ?_); rotate_left; clear_value x; rotate_right; subst x)
    | (extract_lets +onlyGivenNames x; clear_value x)
    | split
    | (with_reducible apply Keeps.mk'; with_reducible assumption)
    | (with_reducible apply Keeps.mk'; first | with_reducible apply State.markAbsent_keeps | with_reducible apply State.count_keeps | with_reducible apply State.degrLoss_keeps | with_reducible apply State.ev_keeps | with_reducible apply State.endXInt_keeps | with_reducible apply State.xspAccumulate_keeps | with_reducible apply State.put_keeps | with_reducible apply Keeps.foldl | with_reducible apply Keeps.cond))

theorem execSeamCellRelease_keeps {orig : State} (m : Nat) (full : Nat) (s : State) (h_s : Keeps orig s) : KeepsRes orig (execSeamCellRelease m full s) := by
  unfold execSeamCellRelease
  repeat' (first
    | with_reducible assumption
    | intro x
    | with_reducible apply KeepsRes.next
    | with_reducible apply State.xspSwapNow_keeps
    | with_reducible apply State.seamRelease_keeps
    | with_reducible apply KeepsRes.cond
    | with_reducible apply KeepsRes.ite
    | with_reducible apply Keeps.cond
    | (extract_lets +onlyGivenNames x; refine Keeps.via' (o := orig) (x := x) ?_ (fun hx => ?_); rotate_left; clear_value x; rotate_right; subst x)
    | (extract_lets +onlyGivenNames x; clear_value x)
    | split)

theorem execSubintEnd_keeps {orig : State} (s : State) (h_s : Keeps orig s) : KeepsRes orig (execSubintEnd s) := by
  unfold execSubintEnd
  repeat' (first
    | with_reducible apply KeepsRes.next
    | (extract_lets +onlyGivenNames x; clear_value x)
    | (with_reducible apply Keeps.mk'; with_reducible assumption))

theorem State.dumpLost_keeps {orig : State} (s : State) (c : XInt) (h_s : Keeps orig s) : Keeps orig (State.dumpLost s c) := by
  unfold State.dumpLost
  repeat' (first
    | with_reducible assumption
    | intro x
    | with_reducible apply State.count_keeps
    | with_reducible apply State.degrLoss_keeps
    | with_reducible apply State.ev_keeps
    | with_reducible apply State.close_keeps
    | with_reducible apply Keeps.cond
    | with_reducible apply Keeps.cond_fst
    | with_reducible apply Keeps.ite_fst
    | (extract_lets +onlyGivenNames x; refine Keeps.via' (o := orig) (x := x) ?_ (fun hx => ?_); rotate_left; clear_value x; rotate_right; subst x)
    | (extract_lets +onlyGivenNames x; refine Keeps.via' (o := orig) (x := x.1) ?_ (fun hx => ?_); rotate_left; clear_value x; rotate_right; subst x)
    | (extract_lets +onlyGivenNames x; clear_value x))

theorem execXspIntervalClose_keeps {orig : State} (s : State) (h_s : Keeps orig s) : KeepsRes orig (execXspIntervalClose s) := by
  unfold execXspIntervalClose
  repeat' (first
    | with_reducible assumption
    | intro x
    | with_reducible apply KeepsRes.next
    | with_reducible apply State.ev_keeps
    | with_reducible apply State.count_keeps
    | with_reducible apply State.dumpLost_keeps
    | with_reducible apply Keeps.cond
    | with_reducible apply Keeps.foldl
    | (extract_lets +onlyGivenNames x; refine Keeps.via' (o := orig) (x := x) ?_ (fun hx => ?_); rotate_left; clear_value x; rotate_right; subst x)
    | (extract_lets +onlyGivenNames x; clear_value x)
    | split
    | (with_reducible apply Keeps.mk'; with_reducible assumption))

theorem execDumpSlot_keeps {orig : State} (s : State) (h_s : Keeps orig s) : KeepsRes orig (execDumpSlot s) := by
  unfold execDumpSlot
  repeat' (first
    | with_reducible assumption
    | intro x
    | with_reducible apply KeepsRes.next
    | with_reducible apply State.ev_keeps
    | with_reducible apply State.count_keeps
    | with_reducible apply State.close_keeps
    | with_reducible apply Keeps.cond
    | with_reducible apply Keeps.foldl
    | (extract_lets +onlyGivenNames x; refine Keeps.via' (o := orig) (x := x) ?_ (fun hx => ?_); rotate_left; clear_value x; rotate_right; subst x)
    | (extract_lets +onlyGivenNames x; clear_value x)
    | split
    | (with_reducible apply Keeps.mk'; with_reducible assumption)
    | (with_reducible apply Keeps.mk'; with_reducible apply Keeps.foldl))

theorem execBeamvoltEmit_keeps {orig : State} (k : Nat) (m : Nat) (s : State) (h_s : Keeps orig s) : KeepsRes orig (execBeamvoltEmit k m s) := by
  unfold execBeamvoltEmit
  repeat' (first
    | with_reducible assumption
    | intro x
    | with_reducible apply KeepsRes.next
    | with_reducible apply State.count_keeps
    | with_reducible apply State.close_keeps
    | with_reducible apply KeepsRes.cond
    | with_reducible apply KeepsRes.ite
    | with_reducible apply Keeps.cond
    | (extract_lets +onlyGivenNames x; refine Keeps.via' (o := orig) (x := x) ?_ (fun hx => ?_); rotate_left; clear_value x; rotate_right; subst x)
    | (extract_lets +onlyGivenNames x; clear_value x)
    | split
    | (with_reducible apply Keeps.mk'; with_reducible assumption)
    | (with_reducible apply Keeps.mk'; first | with_reducible apply State.count_keeps | with_reducible apply State.close_keeps | with_reducible apply Keeps.cond))

theorem execXspWdataWrite_keeps {orig : State} (v : Word) (s : State) (h_s : Keeps orig s) : KeepsRes orig (execXspWdataWrite v s) := by
  unfold execXspWdataWrite
  repeat' (first
    | with_reducible assumption
    | with_reducible apply KeepsRes.next
    | with_reducible apply State.frozenIgnored_keeps
    | with_reducible apply State.put_keeps
    | with_reducible apply Keeps.cond
    | (extract_lets +onlyGivenNames x; clear_value x)
    | (with_reducible apply Keeps.mk'; with_reducible assumption))

theorem State.clearWeights_keeps {orig : State} (s : State) (h_s : Keeps orig s) : Keeps orig (State.clearWeights s) := by
  unfold State.clearWeights
  repeat' (first
    | (extract_lets +onlyGivenNames x; clear_value x)
    | (with_reducible apply Keeps.mk'; with_reducible assumption))

theorem State.xspIdle_keeps {orig : State} (s : State) (h_s : Keeps orig s) : Keeps orig (State.xspIdle s) := by
  unfold State.xspIdle
  repeat' (first
    | with_reducible assumption
    | with_reducible apply State.put_keeps
    | with_reducible apply State.endXInt_keeps
    | with_reducible apply Keeps.cond
    | (extract_lets +onlyGivenNames x; refine Keeps.via' (o := orig) (x := x) ?_ (fun hx => ?_); rotate_left; clear_value x; rotate_right; subst x)
    | (extract_lets +onlyGivenNames x; clear_value x)
    | (with_reducible apply Keeps.mk'; with_reducible assumption))

theorem State.xspWake_keeps {orig : State} (s : State) (h_s : Keeps orig s) : Keeps orig (State.xspWake s) := by
  unfold State.xspWake
  repeat' (first
    | (extract_lets +onlyGivenNames x; clear_value x)
    | (with_reducible apply Keeps.mk'; with_reducible assumption))

end Sys2Proof.Machine
end

