-- ==== Sys2Proof/Laws/KeepsDma.lean ====
section
/-!
SUPPORT. Every operation of Machine/Dma.lean keeps the canonical forms and the queue.
-/
namespace Sys2Proof.Machine

theorem State.setTile_keeps {orig : State} (s : State) (t : Nat) (x : Tile) (h_s : Keeps orig s) : Keeps orig (State.setTile s t x) := by
  unfold State.setTile
  repeat' (first
    | (extract_lets +onlyGivenNames x; clear_value x)
    | (with_reducible apply Keeps.mk'; with_reducible assumption))

theorem State.dmaElem_keeps {orig : State} (s : State) (d : Desc) (e : Nat) (h_s : Keeps orig s) : Keeps orig (State.dmaElem s d e).1 := by
  unfold State.dmaElem
  repeat' (first
    | with_reducible assumption
    | with_reducible apply State.pokeAll_keeps
    | with_reducible apply Keeps.cond_fst)

theorem State.dmaMove_keeps {orig : State} (s : State) (d : Desc) (i : Nat) (k : Nat) (h_s : Keeps orig s) : Keeps orig (State.dmaMove s d i k).1 := by
  unfold State.dmaMove
  repeat' (first
    | with_reducible assumption
    | intro x
    | with_reducible apply State.dmaElem_keeps
    | with_reducible apply Keeps.cond_fst
    | with_reducible apply Keeps.ite_fst
    | with_reducible apply Keeps.foldl
    | with_reducible apply Keeps.foldl_fst
    | (extract_lets +onlyGivenNames x; refine Keeps.via' (o := orig) (x := x) ?_ (fun hx => ?_); rotate_left; clear_value x; rotate_right; subst x)
    | (extract_lets +onlyGivenNames x; refine Keeps.via' (o := orig) (x := x.1) ?_ (fun hx => ?_); rotate_left; clear_value x; rotate_right; subst x)
    | (extract_lets +onlyGivenNames x; clear_value x))

theorem State.setChan_keeps {orig : State} (s : State) (g : Nat) (c : Nat) (x : Channel) (h_s : Keeps orig s) : Keeps orig (State.setChan s g c x) := by
  unfold State.setChan
  repeat' (first
    | (extract_lets +onlyGivenNames x; clear_value x)
    | (with_reducible apply Keeps.mk'; with_reducible assumption))

theorem State.dmaAttn_keeps {orig : State} (s : State) (g : Nat) (h_s : Keeps orig s) : Keeps orig (State.dmaAttn s g) := by
  unfold State.dmaAttn
  repeat' (first
    | with_reducible assumption
    | with_reducible apply State.put_keeps)

theorem State.chBit_keeps {orig : State} (s : State) (g : Nat) (c : Nat) (f : Fld) (h_s : Keeps orig s) : Keeps orig (State.chBit s g c f) := by
  unfold State.chBit
  repeat' (first
    | with_reducible assumption
    | with_reducible apply State.ev_keeps
    | with_reducible apply State.dmaAttn_keeps
    | with_reducible apply State.flag_keeps
    | with_reducible apply Keeps.cond)

theorem State.dmaBegin_keeps {orig : State} (s : State) (g : Nat) (c : Nat) (a : Nat) (h_s : Keeps orig s) : Keeps orig (State.dmaBegin s g c a) := by
  unfold State.dmaBegin
  repeat' (first
    | with_reducible assumption
    | with_reducible apply State.put_keeps
    | with_reducible apply State.put64_keeps
    | with_reducible apply State.setChan_keeps)

theorem State.dmaStart_keeps {orig : State} (s : State) (g : Nat) (c : Nat) (h_s : Keeps orig s) : Keeps orig (State.dmaStart s g c) := by
  unfold State.dmaStart
  repeat' (first
    | with_reducible assumption
    | with_reducible apply State.dmaBegin_keeps)

theorem State.dmaRest_keeps {orig : State} (s : State) (g : Nat) (c : Nat) (h_s : Keeps orig s) : Keeps orig (State.dmaRest s g c) := by
  unfold State.dmaRest
  repeat' (first
    | with_reducible assumption
    | with_reducible apply State.setChan_keeps
    | with_reducible apply State.put_keeps
    | with_reducible apply State.flag_keeps
    | with_reducible apply State.dmaStart_keeps
    | with_reducible apply Keeps.cond
    | (extract_lets +onlyGivenNames x; refine Keeps.via' (o := orig) (x := x) ?_ (fun hx => ?_); rotate_left; clear_value x; rotate_right; subst x)
    | (extract_lets +onlyGivenNames x; clear_value x))

theorem State.dmaIdle_keeps {orig : State} (s : State) (g : Nat) (c : Nat) (h_s : Keeps orig s) : Keeps orig (State.dmaIdle s g c) := by
  unfold State.dmaIdle
  repeat' (first
    | with_reducible assumption
    | with_reducible apply State.chBit_keeps
    | with_reducible apply State.dmaRest_keeps)

theorem State.dmaAfter_keeps {orig : State} (s : State) (g : Nat) (c : Nat) (status : Nat) (h_s : Keeps orig s) : Keeps orig (State.dmaAfter s g c status) := by
  unfold State.dmaAfter
  repeat' (first
    | with_reducible assumption
    | with_reducible apply State.chBit_keeps
    | with_reducible apply State.put_keeps
    | with_reducible apply State.setChan_keeps
    | with_reducible apply State.dmaIdle_keeps
    | with_reducible apply State.dmaBegin_keeps
    | with_reducible apply Keeps.cond)

theorem State.cqWrite_keeps {orig : State} (s : State) (g : Nat) (c : Nat) (r : DmaRec) (tag : Nat) (h_s : Keeps orig s) : Keeps orig (State.cqWrite s g c r tag) := by
  unfold State.cqWrite
  repeat' (first
    | with_reducible assumption
    | with_reducible apply State.pokeAll_keeps
    | with_reducible apply State.wrap_keeps
    | with_reducible apply Keeps.cond)

theorem State.dmaFinish_keeps {orig : State} (s : State) (g : Nat) (c : Nat) (status : Nat) (n : Nat) (d : Desc) (h_s : Keeps orig s) : Keeps orig (State.dmaFinish s g c status n d) := by
  unfold State.dmaFinish
  repeat' (first
    | with_reducible assumption
    | with_reducible apply State.setChan_keeps
    | with_reducible apply State.chBit_keeps
    | with_reducible apply State.flag_keeps
    | with_reducible apply State.cqWrite_keeps
    | with_reducible apply State.wrap_keeps
    | with_reducible apply State.dmaAfter_keeps
    | with_reducible apply Keeps.cond)

theorem State.dmaHold_keeps {orig : State} (s : State) (g : Nat) (c : Nat) (op : Nat) (h_s : Keeps orig s) : Keeps orig (State.dmaHold s g c op) := by
  unfold State.dmaHold
  repeat' (first
    | with_reducible assumption
    | with_reducible apply State.flag_keeps
    | with_reducible apply State.setChan_keeps)

theorem execDmaStart_keeps {orig : State} (g : Nat) (c : Nat) (s : State) (h_s : Keeps orig s) : KeepsRes orig (execDmaStart g c s) := by
  unfold execDmaStart
  repeat' (first
    | with_reducible assumption
    | with_reducible apply KeepsRes.next
    | with_reducible apply State.dmaStart_keeps
    | with_reducible apply State.dmaHold_keeps
    | with_reducible apply Keeps.cond)

theorem State.endMark_keeps {orig : State} (s : State) (g : Nat) (c : Nat) (h_s : Keeps orig s) : Keeps orig (State.endMark s g c) := by
  unfold State.endMark
  repeat' (first
    | with_reducible assumption
    | with_reducible apply State.dmaBegin_keeps
    | with_reducible apply Keeps.cond)

theorem execDmaDoorbell_keeps {orig : State} (g : Nat) (c : Nat) (s : State) (h_s : Keeps orig s) : KeepsRes orig (execDmaDoorbell g c s) := by
  unfold execDmaDoorbell
  repeat' (first
    | with_reducible assumption
    | with_reducible apply KeepsRes.next
    | with_reducible apply State.endMark_keeps
    | with_reducible apply State.dmaHold_keeps
    | with_reducible apply Keeps.cond)

theorem State.dmaHalt_keeps {orig : State} (s : State) (g : Nat) (c : Nat) (abort : Bool) (h_s : Keeps orig s) : Keeps orig (State.dmaHalt s g c abort) := by
  unfold State.dmaHalt
  repeat' (first
    | with_reducible assumption
    | with_reducible apply State.put_keeps
    | with_reducible apply State.setChan_keeps
    | with_reducible apply State.dmaIdle_keeps
    | with_reducible apply State.dmaHold_keeps
    | with_reducible apply Keeps.cond)

theorem execDmaStop_keeps {orig : State} (g : Nat) (c : Nat) (s : State) (h_s : Keeps orig s) : KeepsRes orig (execDmaStop g c s) := by
  unfold execDmaStop
  repeat' (first
    | with_reducible assumption
    | with_reducible apply KeepsRes.next
    | with_reducible apply State.dmaHalt_keeps)

theorem execDmaAbort_keeps {orig : State} (g : Nat) (c : Nat) (s : State) (h_s : Keeps orig s) : KeepsRes orig (execDmaAbort g c s) := by
  unfold execDmaAbort
  repeat' (first
    | with_reducible assumption
    | with_reducible apply KeepsRes.next
    | with_reducible apply State.dmaHalt_keeps)

theorem execDmaClear_keeps {orig : State} (g : Nat) (c : Nat) (s : State) (h_s : Keeps orig s) : KeepsRes orig (execDmaClear g c s) := by
  unfold execDmaClear
  repeat' (first
    | with_reducible assumption
    | with_reducible apply KeepsRes.next
    | with_reducible apply State.dmaRest_keeps
    | with_reducible apply State.dmaHold_keeps
    | with_reducible apply KeepsRes.cond
    | with_reducible apply KeepsRes.ite
    | with_reducible apply Keeps.cond
    | (extract_lets +onlyGivenNames x; refine Keeps.via' (o := orig) (x := x) ?_ (fun hx => ?_); rotate_left; clear_value x; rotate_right; subst x)
    | (extract_lets +onlyGivenNames x; clear_value x))

theorem execDescriptorFetch_keeps {orig : State} (g : Nat) (c : Nat) (s : State) (h_s : Keeps orig s) : KeepsRes orig (execDescriptorFetch g c s) := by
  unfold execDescriptorFetch
  repeat' (first
    | with_reducible assumption
    | with_reducible apply KeepsRes.next
    | with_reducible apply State.setChan_keeps
    | with_reducible apply State.put_keeps
    | with_reducible apply State.put64_keeps
    | with_reducible apply State.dmaFinish_keeps
    | with_reducible apply Keeps.cond)

theorem execDescriptorComplete_keeps {orig : State} (g : Nat) (c : Nat) (k : Nat) (s : State) (h_s : Keeps orig s) : KeepsRes orig (execDescriptorComplete g c k s) := by
  unfold execDescriptorComplete
  repeat' (first
    | with_reducible assumption
    | with_reducible apply KeepsRes.next
    | with_reducible apply State.count_keeps
    | with_reducible apply State.dmaMove_keeps
    | with_reducible apply State.setChan_keeps
    | with_reducible apply State.dmaFinish_keeps
    | with_reducible apply KeepsRes.cond
    | with_reducible apply KeepsRes.ite
    | with_reducible apply Keeps.cond
    | with_reducible apply Keeps.cond_fst
    | with_reducible apply Keeps.ite_fst
    | (extract_lets +onlyGivenNames x; refine Keeps.via' (o := orig) (x := x) ?_ (fun hx => ?_); rotate_left; clear_value x; rotate_right; subst x)
    | (extract_lets +onlyGivenNames x; refine Keeps.via' (o := orig) (x := x.1) ?_ (fun hx => ?_); rotate_left; clear_value x; rotate_right; subst x)
    | (extract_lets +onlyGivenNames x; clear_value x)
    | split
    | (with_reducible apply Keeps.mk'; with_reducible assumption)
    | (with_reducible apply Keeps.mk'; first | with_reducible apply State.count_keeps | with_reducible apply State.dmaMove_keeps | with_reducible apply State.setChan_keeps | with_reducible apply State.dmaFinish_keeps | with_reducible apply Keeps.cond))

theorem execEndMarkPoll_keeps {orig : State} (g : Nat) (c : Nat) (s : State) (h_s : Keeps orig s) : KeepsRes orig (execEndMarkPoll g c s) := by
  unfold execEndMarkPoll
  repeat' (first
    | with_reducible assumption
    | with_reducible apply KeepsRes.next
    | with_reducible apply State.endMark_keeps
    | with_reducible apply Keeps.cond)

theorem execDmaCqRidxWrite_keeps {orig : State} (g : Nat) (c : Nat) (v : Word) (s : State) (h_s : Keeps orig s) : KeepsRes orig (execDmaCqRidxWrite g c v s) := by
  unfold execDmaCqRidxWrite
  repeat' (first
    | with_reducible assumption
    | with_reducible apply KeepsRes.next
    | with_reducible apply State.bad_keeps
    | with_reducible apply State.put_keeps
    | with_reducible apply State.flag_keeps
    | with_reducible apply State.setChan_keeps
    | with_reducible apply State.dmaFinish_keeps
    | with_reducible apply Keeps.cond
    | (extract_lets +onlyGivenNames x; refine Keeps.via' (o := orig) (x := x) ?_ (fun hx => ?_); rotate_left; clear_value x; rotate_right; subst x)
    | (extract_lets +onlyGivenNames x; clear_value x)
    | split)

theorem execDmaGsdataAccess_keeps {orig : State} (r : Requester) (g : Nat) (port : Nat) (write : Bool) (v : Word) (s : State) (h_s : Keeps orig s) : KeepsRes orig (execDmaGsdataAccess r g port write v s) := by
  unfold execDmaGsdataAccess
  repeat' (first
    | with_reducible assumption
    | with_reducible apply KeepsRes.next
    | with_reducible apply State.emit_keeps
    | with_reducible apply State.bad_keeps
    | with_reducible apply State.put_keeps
    | with_reducible apply State.pokeAll_keeps
    | with_reducible apply Keeps.cond
    | (extract_lets +onlyGivenNames x; clear_value x)
    | (with_reducible apply Keeps.mk'; with_reducible assumption))

theorem State.dmaOwnerReset_keeps {orig : State} (s : State) (t : Nat) (h_s : Keeps orig s) : Keeps orig (State.dmaOwnerReset s t) := by
  unfold State.dmaOwnerReset
  repeat' (first
    | with_reducible assumption
    | intro x
    | with_reducible apply State.setChan_keeps
    | with_reducible apply State.put_keeps
    | with_reducible apply State.dmaHalt_keeps
    | with_reducible apply Keeps.cond
    | with_reducible apply Keeps.foldl
    | (extract_lets +onlyGivenNames x; refine Keeps.via' (o := orig) (x := x) ?_ (fun hx => ?_); rotate_left; clear_value x; rotate_right; subst x)
    | (extract_lets +onlyGivenNames x; clear_value x)
    | (with_reducible apply Keeps.mk'; with_reducible assumption)
    | (with_reducible apply Keeps.mk'; first | with_reducible apply State.setChan_keeps | with_reducible apply State.put_keeps | with_reducible apply State.dmaHalt_keeps | with_reducible apply Keeps.foldl | with_reducible apply Keeps.cond))

theorem State.dmaSlot_keeps {orig : State} (s : State) (g : Nat) (c : Nat) (k : Nat) (h_s : Keeps orig s) : Keeps orig (State.dmaSlot s g c k) := by
  unfold State.dmaSlot
  repeat' (first
    | with_reducible assumption
    | with_reducible apply State.dmaMove_keeps
    | with_reducible apply State.setChan_keeps
    | with_reducible apply Keeps.cond_fst
    | with_reducible apply Keeps.ite_fst
    | (extract_lets +onlyGivenNames x; refine Keeps.via' (o := orig) (x := x) ?_ (fun hx => ?_); rotate_left; clear_value x; rotate_right; subst x)
    | (extract_lets +onlyGivenNames x; refine Keeps.via' (o := orig) (x := x.1) ?_ (fun hx => ?_); rotate_left; clear_value x; rotate_right; subst x)
    | (extract_lets +onlyGivenNames x; clear_value x)
    | split
    | (with_reducible apply Keeps.mk'; with_reducible assumption)
    | (with_reducible apply Keeps.mk'; first | with_reducible apply State.dmaMove_keeps | with_reducible apply State.setChan_keeps))

theorem State.dmaPause_keeps {orig : State} (s : State) (h_s : Keeps orig s) : Keeps orig (State.dmaPause s) := by
  unfold State.dmaPause
  repeat' (first
    | with_reducible assumption
    | intro x
    | with_reducible apply State.put_keeps
    | with_reducible apply State.setChan_keeps
    | with_reducible apply Keeps.cond
    | with_reducible apply Keeps.foldl)

theorem State.dmaResume_keeps {orig : State} (s : State) (h_s : Keeps orig s) : Keeps orig (State.dmaResume s) := by
  unfold State.dmaResume
  repeat' (first
    | with_reducible assumption
    | intro x
    | with_reducible apply State.put_keeps
    | with_reducible apply State.setChan_keeps
    | with_reducible apply Keeps.cond
    | with_reducible apply Keeps.foldl)

theorem State.dmaSleep_keeps {orig : State} (s : State) (h_s : Keeps orig s) : Keeps orig (State.dmaSleep s) := by
  exact h_s.mkAll (twf_filter _ _ _) id

end Sys2Proof.Machine
end

