-- ==== Sys2Proof/Laws/KeepsTileOps.lean ====
section
/-!
SUPPORT. Every operation of Machine/TileOps.lean keeps the canonical forms and the queue.
-/
namespace Sys2Proof.Machine

theorem State.tilePut_keeps {orig : State} (s : State) (t : Nat) (x : Tile) (h_s : Keeps orig s) : Keeps orig (State.tilePut s t x) := by
  unfold State.tilePut
  repeat' (first
    | with_reducible assumption
    | with_reducible apply State.put_keeps
    | with_reducible apply State.flag_keeps
    | with_reducible apply State.setTile_keeps)

theorem State.evst_keeps {orig : State} (s : State) (t : Nat) (f : Fld) (h_s : Keeps orig s) : Keeps orig (State.evst s t f) := by
  unfold State.evst
  repeat' (first
    | with_reducible assumption
    | with_reducible apply State.ev_keeps
    | with_reducible apply State.flag_keeps
    | with_reducible apply Keeps.cond)

theorem State.tileTo_keeps {orig : State} (s : State) (t : Nat) (st : Nat) (h_s : Keeps orig s) : Keeps orig (State.tileTo s t st) := by
  unfold State.tileTo
  repeat' (first
    | with_reducible assumption
    | with_reducible apply State.put_keeps
    | with_reducible apply State.evst_keeps
    | with_reducible apply Keeps.cond)

theorem State.tipSet_keeps {orig : State} (s : State) (t : Nat) (b : Nat) (h_s : Keeps orig s) : Keeps orig (State.tipSet s t b) := by
  unfold State.tipSet
  repeat' (first
    | with_reducible assumption
    | with_reducible apply State.count_keeps
    | with_reducible apply State.flag_keeps
    | with_reducible apply Keeps.cond)

theorem State.tipClear_keeps {orig : State} (s : State) (t : Nat) (b : Nat) (h_s : Keeps orig s) : Keeps orig (State.tipClear s t b) := by
  unfold State.tipClear
  repeat' (first
    | with_reducible assumption
    | with_reducible apply State.flag_keeps)

theorem State.tileEnter_keeps {orig : State} (s : State) (t : Nat) (cause : Nat) (h_s : Keeps orig s) : Keeps orig (State.tileEnter s t cause) := by
  unfold State.tileEnter
  repeat' (first
    | with_reducible assumption
    | with_reducible apply State.tilePut_keeps)

theorem State.tileFault_keeps {orig : State} (s : State) (t : Nat) (code : Nat) (a : Nat) (h_s : Keeps orig s) : Keeps orig (State.tileFault s t code a) := by
  unfold State.tileFault
  repeat' (first
    | with_reducible assumption
    | with_reducible apply State.setTile_keeps
    | with_reducible apply State.put_keeps
    | with_reducible apply State.flag_keeps
    | with_reducible apply State.evst_keeps
    | with_reducible apply State.tileTo_keeps
    | with_reducible apply State.tileEnter_keeps
    | with_reducible apply Keeps.cond)

theorem State.lockSync_keeps {orig : State} (s : State) (o : Nat) (h_s : Keeps orig s) : Keeps orig (State.lockSync s o) := by
  unfold State.lockSync
  repeat' (first
    | with_reducible assumption
    | with_reducible apply State.put_keeps
    | with_reducible apply Keeps.cond)

theorem State.lockSet_keeps {orig : State} (s : State) (n : Nat) (st : Nat) (o : Nat) (e : Nat) (h_s : Keeps orig s) : Keeps orig (State.lockSet s n st o e) := by
  unfold State.lockSet
  repeat' (first
    | with_reducible assumption
    | with_reducible apply State.put_keeps
    | with_reducible apply State.lockSync_keeps)

theorem State.lockLast_keeps {orig : State} (s : State) (o : Nat) (n : Nat) (r : Nat) (h_s : Keeps orig s) : Keeps orig (State.lockLast s o n r) := by
  unfold State.lockLast
  repeat' (first
    | (extract_lets +onlyGivenNames x; clear_value x)
    | (with_reducible apply Keeps.mk'; with_reducible assumption))

theorem State.grantTo_keeps {orig : State} (s : State) (n : Nat) (o : Nat) (h_s : Keeps orig s) : Keeps orig (State.grantTo s n o) := by
  unfold State.grantTo
  repeat' (first
    | with_reducible assumption
    | intro x
    | (with_reducible apply Keeps.mk'; with_reducible assumption))

theorem State.lockAcquire_keeps {orig : State} (s : State) (o : Nat) (n : Nat) (h_s : Keeps orig s) : Keeps orig (State.lockAcquire s o n).1 := by
  unfold State.lockAcquire
  repeat' (first
    | with_reducible assumption
    | with_reducible apply State.lockSet_keeps
    | with_reducible apply State.grantTo_keeps
    | with_reducible apply State.lockLast_keeps
    | with_reducible apply Keeps.cond
    | with_reducible apply Keeps.cond_fst
    | with_reducible apply Keeps.ite_fst
    | (extract_lets +onlyGivenNames x; refine Keeps.via' (o := orig) (x := x) ?_ (fun hx => ?_); rotate_left; clear_value x; rotate_right; subst x)
    | (extract_lets +onlyGivenNames x; refine Keeps.via' (o := orig) (x := x.1) ?_ (fun hx => ?_); rotate_left; clear_value x; rotate_right; subst x)
    | (extract_lets +onlyGivenNames x; clear_value x))

theorem State.lockRelease_keeps {orig : State} (s : State) (o : Nat) (n : Nat) (h_s : Keeps orig s) : Keeps orig (State.lockRelease s o n).1 := by
  unfold State.lockRelease
  repeat' (first
    | with_reducible assumption
    | with_reducible apply State.lockLast_keeps
    | with_reducible apply State.lockSet_keeps
    | with_reducible apply Keeps.cond_fst)

theorem State.lockAbandon_keeps {orig : State} (s : State) (o : Nat) (h_s : Keeps orig s) : Keeps orig (State.lockAbandon s o) := by
  unfold State.lockAbandon
  repeat' (first
    | with_reducible assumption
    | intro x
    | with_reducible apply State.put_keeps
    | with_reducible apply State.lockSync_keeps
    | with_reducible apply State.evst_keeps
    | with_reducible apply Keeps.cond
    | with_reducible apply Keeps.foldl)

theorem State.lockFree_keeps {orig : State} (s : State) (h_s : Keeps orig s) : Keeps orig (State.lockFree s) := by
  unfold State.lockFree
  repeat' (first
    | with_reducible assumption
    | intro x
    | with_reducible apply State.lockSet_keeps
    | with_reducible apply Keeps.cond
    | with_reducible apply Keeps.foldl)

theorem execLockAcquire_keeps {orig : State} (r : Requester) (n : Nat) (s : State) (h_s : Keeps orig s) : KeepsRes orig (execLockAcquire r n s) := by
  unfold execLockAcquire
  repeat' (first
    | with_reducible assumption
    | with_reducible apply KeepsRes.next
    | with_reducible apply State.lockAcquire_keeps)

theorem execLockRelease_keeps {orig : State} (r : Requester) (n : Nat) (s : State) (h_s : Keeps orig s) : KeepsRes orig (execLockRelease r n s) := by
  unfold execLockRelease
  repeat' (first
    | with_reducible assumption
    | with_reducible apply KeepsRes.next
    | with_reducible apply State.lockRelease_keeps)

theorem execLockBreak_keeps {orig : State} (r : Requester) (n : Nat) (s : State) (h_s : Keeps orig s) : KeepsRes orig (execLockBreak r n s) := by
  unfold execLockBreak
  repeat' (first
    | with_reducible assumption
    | with_reducible apply KeepsRes.next
    | with_reducible apply State.lockSet_keeps
    | with_reducible apply Keeps.cond)

theorem State.timerExpire_keeps {orig : State} (s : State) (t : Nat) (k : Nat) (h_s : Keeps orig s) : Keeps orig (State.timerExpire s t k) := by
  unfold State.timerExpire
  repeat' (first
    | with_reducible assumption
    | with_reducible apply State.put_keeps
    | with_reducible apply State.tipSet_keeps
    | with_reducible apply Keeps.cond)

theorem State.timerRestart_keeps {orig : State} (s : State) (t : Nat) (k : Nat) (h_s : Keeps orig s) : Keeps orig (State.timerRestart s t k) := by
  unfold State.timerRestart
  repeat' (first
    | with_reducible assumption
    | with_reducible apply State.setTile_keeps
    | with_reducible apply State.put_keeps
    | with_reducible apply State.timerExpire_keeps
    | with_reducible apply Keeps.cond)

theorem State.timerTick_keeps {orig : State} (s : State) (t : Nat) (k : Nat) (h_s : Keeps orig s) : Keeps orig (State.timerTick s t k) := by
  unfold State.timerTick
  repeat' (first
    | with_reducible assumption
    | with_reducible apply State.timerExpire_keeps
    | with_reducible apply State.setTile_keeps
    | with_reducible apply State.put_keeps
    | with_reducible apply Keeps.cond)

theorem State.timerStop_keeps {orig : State} (s : State) (t : Nat) (k : Nat) (h_s : Keeps orig s) : Keeps orig (State.timerStop s t k) := by
  unfold State.timerStop
  repeat' (first
    | with_reducible assumption
    | with_reducible apply State.tipClear_keeps
    | with_reducible apply State.put_keeps)

theorem State.edgeStop_keeps {orig : State} (s : State) (t : Nat) (j : Nat) (h_s : Keeps orig s) : Keeps orig (State.edgeStop s t j) := by
  unfold State.edgeStop
  repeat' (first
    | with_reducible assumption
    | with_reducible apply State.tipClear_keeps
    | with_reducible apply State.flag_keeps)

theorem execTileTimerExpiry_keeps {orig : State} (t : Nat) (k : Nat) (s : State) (h_s : Keeps orig s) : KeepsRes orig (execTileTimerExpiry t k s) := by
  unfold execTileTimerExpiry
  repeat' (first
    | with_reducible assumption
    | with_reducible apply KeepsRes.next
    | with_reducible apply State.timerExpire_keeps
    | with_reducible apply Keeps.cond)

theorem execTileTimerWrite_keeps {orig : State} (t : Nat) (k : Nat) (w : Nat) (v : Word) (s : State) (h_s : Keeps orig s) : KeepsRes orig (execTileTimerWrite t k w v s) := by
  unfold execTileTimerWrite
  repeat' (first
    | with_reducible assumption
    | with_reducible apply KeepsRes.next
    | with_reducible apply State.bad_keeps
    | with_reducible apply State.timerRestart_keeps
    | with_reducible apply State.plainWrite_keeps
    | with_reducible apply Keeps.cond)

theorem execEdgeDetectorEdge_keeps {orig : State} (t : Nat) (j : Nat) (rising : Bool) (tag : Nat) (s : State) (h_s : Keeps orig s) : KeepsRes orig (execEdgeDetectorEdge t j rising tag s) := by
  unfold execEdgeDetectorEdge
  repeat' (first
    | with_reducible assumption
    | with_reducible apply KeepsRes.next
    | with_reducible apply State.wrap_keeps
    | with_reducible apply State.put96_keeps
    | with_reducible apply State.tipSet_keeps
    | with_reducible apply Keeps.cond)

theorem State.tileExchanged_keeps {orig : State} (s : State) (t : Nat) (h_s : Keeps orig s) : Keeps orig (State.tileExchanged s t) := by
  unfold State.tileExchanged
  repeat' (first
    | with_reducible assumption
    | with_reducible apply State.swapDone_keeps
    | with_reducible apply Keeps.cond
    | (extract_lets +onlyGivenNames x; clear_value x)
    | (with_reducible apply Keeps.mk'; with_reducible assumption))

theorem State.exchange_keeps {orig : State} (s : State) (t : Nat) (forced : Bool) (h_s : Keeps orig s) : Keeps orig (State.exchange s t forced) := by
  unfold State.exchange
  repeat' (first
    | with_reducible assumption
    | intro x
    | with_reducible apply State.put_keeps
    | with_reducible apply State.flag_keeps
    | with_reducible apply State.tilePut_keeps
    | with_reducible apply State.timerStop_keeps
    | with_reducible apply State.edgeStop_keeps
    | with_reducible apply State.evst_keeps
    | with_reducible apply State.tileExchanged_keeps
    | with_reducible apply Keeps.cond
    | with_reducible apply Keeps.foldl)

theorem State.xArm_keeps {orig : State} (s : State) (t : Nat) (entry : Nat) (h_s : Keeps orig s) : Keeps orig (State.xArm s t entry) := by
  unfold State.xArm
  repeat' (first
    | with_reducible assumption
    | with_reducible apply State.put_keeps
    | with_reducible apply State.bad_keeps
    | with_reducible apply Keeps.cond)

theorem execXctlArm_keeps {orig : State} (t : Nat) (entry : Nat) (s : State) (h_s : Keeps orig s) : KeepsRes orig (execXctlArm t entry s) := by
  unfold execXctlArm
  repeat' (first
    | with_reducible assumption
    | with_reducible apply KeepsRes.next
    | with_reducible apply State.bad_keeps
    | with_reducible apply State.xArm_keeps
    | with_reducible apply Keeps.cond)

theorem execXctlCancel_keeps {orig : State} (t : Nat) (s : State) (h_s : Keeps orig s) : KeepsRes orig (execXctlCancel t s) := by
  unfold execXctlCancel
  repeat' (first
    | with_reducible assumption
    | with_reducible apply KeepsRes.next
    | with_reducible apply State.bad_keeps
    | with_reducible apply State.put_keeps
    | with_reducible apply Keeps.cond)

theorem execExchangeTimeout_keeps {orig : State} (t : Nat) (s : State) (h_s : Keeps orig s) : KeepsRes orig (execExchangeTimeout t s) := by
  unfold execExchangeTimeout
  repeat' (first
    | with_reducible assumption
    | with_reducible apply KeepsRes.next
    | with_reducible apply State.evst_keeps
    | with_reducible apply Keeps.cond)

theorem execXctlForce_keeps {orig : State} (t : Nat) (s : State) (h_s : Keeps orig s) : KeepsRes orig (execXctlForce t s) := by
  unfold execXctlForce
  repeat' (first
    | with_reducible assumption
    | with_reducible apply KeepsRes.next
    | with_reducible apply State.bad_keeps
    | with_reducible apply State.exchange_keeps
    | with_reducible apply State.put_keeps
    | with_reducible apply Keeps.cond)

theorem State.verifyAbort_keeps {orig : State} (s : State) (t : Nat) (h_s : Keeps orig s) : Keeps orig (State.verifyAbort s t) := by
  unfold State.verifyAbort
  repeat' (first
    | with_reducible assumption
    | with_reducible apply State.ev_keeps
    | with_reducible apply State.flag_keeps
    | with_reducible apply State.put_keeps
    | with_reducible apply Keeps.cond
    | (extract_lets +onlyGivenNames x; clear_value x)
    | (with_reducible apply Keeps.mk'; with_reducible assumption))

theorem execTilePdataWrite_keeps {orig : State} (t : Nat) (v : Word) (s : State) (h_s : Keeps orig s) : KeepsRes orig (execTilePdataWrite t v s) := by
  unfold execTilePdataWrite
  repeat' (first
    | with_reducible assumption
    | with_reducible apply KeepsRes.next
    | with_reducible apply State.bad_keeps
    | with_reducible apply State.liveIgnored_keeps
    | with_reducible apply State.setTile_keeps
    | with_reducible apply State.verifyAbort_keeps
    | with_reducible apply State.put_keeps
    | with_reducible apply State.flag_keeps
    | with_reducible apply Keeps.cond)

theorem State.mdata_keeps {orig : State} (s : State) (t : Nat) (v : Option Word) (h_s : Keeps orig s) : Keeps orig (State.mdata s t v).1 := by
  unfold State.mdata
  repeat' (first
    | with_reducible assumption
    | with_reducible apply State.bad_keeps
    | with_reducible apply State.pokeAll_keeps
    | with_reducible apply State.put_keeps
    | with_reducible apply Keeps.cond_fst
    | split)

theorem execTileMdataAccess_keeps {orig : State} (r : Requester) (t : Nat) (write : Bool) (v : Word) (s : State) (h_s : Keeps orig s) : KeepsRes orig (execTileMdataAccess r t write v s) := by
  unfold execTileMdataAccess
  repeat' (first
    | with_reducible assumption
    | with_reducible apply KeepsRes.next
    | with_reducible apply State.bad_keeps
    | with_reducible apply State.emit_keeps
    | with_reducible apply State.mdata_keeps
    | with_reducible apply Keeps.cond)

theorem State.coreReset_keeps {orig : State} (s : State) (t : Nat) (h_s : Keeps orig s) : Keeps orig (State.coreReset s t) := by
  unfold State.coreReset
  repeat' (first
    | with_reducible assumption
    | intro x
    | with_reducible apply State.tilePut_keeps
    | with_reducible apply State.put_keeps
    | with_reducible apply State.flag_keeps
    | with_reducible apply State.wrap_keeps
    | with_reducible apply State.lockAbandon_keeps
    | with_reducible apply State.dmaOwnerReset_keeps
    | with_reducible apply State.tileTo_keeps
    | with_reducible apply Keeps.foldl)

theorem State.tileRun_keeps {orig : State} (s : State) (t : Nat) (h_s : Keeps orig s) : Keeps orig (State.tileRun s t) := by
  unfold State.tileRun
  repeat' (first
    | with_reducible assumption
    | with_reducible apply State.setTile_keeps
    | with_reducible apply State.exchange_keeps
    | with_reducible apply State.tileTo_keeps
    | with_reducible apply Keeps.cond)

theorem State.tileUngate_keeps {orig : State} (s : State) (t : Nat) (h_s : Keeps orig s) : Keeps orig (State.tileUngate s t) := by
  unfold State.tileUngate
  repeat' (first
    | with_reducible assumption
    | with_reducible apply State.setTile_keeps
    | with_reducible apply Keeps.cond
    | (extract_lets +onlyGivenNames x; clear_value x)
    | (with_reducible apply Keeps.mk'; with_reducible apply State.setTile_keeps))

theorem State.tileCommand_keeps {orig : State} (s : State) (t : Nat) (op : Nat) (h_s : Keeps orig s) : Keeps orig (State.tileCommand s t op) := by
  unfold State.tileCommand
  repeat' (first
    | with_reducible assumption
    | with_reducible apply State.tileUngate_keeps
    | with_reducible apply State.tileRun_keeps
    | with_reducible apply State.tileTo_keeps
    | with_reducible apply State.setTile_keeps
    | with_reducible apply State.coreReset_keeps
    | with_reducible apply Keeps.cond)

theorem State.tileHeld_keeps {orig : State} (s : State) (t : Nat) (h_s : Keeps orig s) : Keeps orig (State.tileHeld s t) := by
  unfold State.tileHeld
  repeat' (first
    | with_reducible assumption
    | with_reducible apply State.tileCommand_keeps
    | with_reducible apply State.flag_keeps
    | with_reducible apply State.setTile_keeps
    | (extract_lets +onlyGivenNames x; clear_value x)
    | split)

theorem State.tileCmd_keeps {orig : State} (s : State) (t : Nat) (op : Nat) (h_s : Keeps orig s) : Keeps orig (State.tileCmd s t op) := by
  unfold State.tileCmd
  repeat' (first
    | with_reducible assumption
    | with_reducible apply State.bad_keeps
    | with_reducible apply State.flag_keeps
    | with_reducible apply State.setTile_keeps
    | with_reducible apply State.tileTo_keeps
    | with_reducible apply State.tileCommand_keeps
    | with_reducible apply Keeps.cond)

theorem execTileRun_keeps {orig : State} (t : Nat) (s : State) (h_s : Keeps orig s) : KeepsRes orig (execTileRun t s) := by
  unfold execTileRun
  repeat' (first
    | with_reducible assumption
    | with_reducible apply KeepsRes.next
    | with_reducible apply State.tileCmd_keeps)

theorem execTileHalt_keeps {orig : State} (t : Nat) (s : State) (h_s : Keeps orig s) : KeepsRes orig (execTileHalt t s) := by
  unfold execTileHalt
  repeat' (first
    | with_reducible assumption
    | with_reducible apply KeepsRes.next
    | with_reducible apply State.tileCmd_keeps)

theorem execTileReset_keeps {orig : State} (t : Nat) (s : State) (h_s : Keeps orig s) : KeepsRes orig (execTileReset t s) := by
  unfold execTileReset
  repeat' (first
    | with_reducible assumption
    | with_reducible apply KeepsRes.next
    | with_reducible apply State.tileCmd_keeps)

theorem execTileClockGate_keeps {orig : State} (t : Nat) (s : State) (h_s : Keeps orig s) : KeepsRes orig (execTileClockGate t s) := by
  unfold execTileClockGate
  repeat' (first
    | with_reducible assumption
    | with_reducible apply KeepsRes.next
    | with_reducible apply State.setTile_keeps
    | with_reducible apply Keeps.cond
    | (extract_lets +onlyGivenNames x; refine Keeps.via' (o := orig) (x := x) ?_ (fun hx => ?_); rotate_left; clear_value x; rotate_right; subst x)
    | (extract_lets +onlyGivenNames x; clear_value x)
    | (with_reducible apply Keeps.mk'; with_reducible assumption))

theorem execTileRingRidxWrite_keeps {orig : State} (t : Nat) (k : Nat) (v : Word) (s : State) (h_s : Keeps orig s) : KeepsRes orig (execTileRingRidxWrite t k v s) := by
  unfold execTileRingRidxWrite
  repeat' (first
    | with_reducible assumption
    | with_reducible apply KeepsRes.next
    | with_reducible apply State.bad_keeps
    | with_reducible apply State.plainWrite_keeps
    | with_reducible apply Keeps.cond)

theorem execTunerRingBlock_keeps {orig : State} (t : Nat) (k : Nat) (s : State) (h_s : Keeps orig s) : KeepsRes orig (execTunerRingBlock t k s) := by
  unfold execTunerRingBlock
  repeat' (first
    | with_reducible assumption
    | with_reducible apply KeepsRes.next
    | with_reducible apply State.setTuner_keeps
    | with_reducible apply State.setRing_keeps
    | with_reducible apply State.evst_keeps
    | with_reducible apply State.count_keeps
    | with_reducible apply State.pokeAll_keeps
    | with_reducible apply State.put_keeps
    | with_reducible apply State.tipSet_keeps
    | with_reducible apply Keeps.cond
    | (extract_lets +onlyGivenNames x; refine Keeps.via' (o := orig) (x := x) ?_ (fun hx => ?_); rotate_left; clear_value x; rotate_right; subst x)
    | (extract_lets +onlyGivenNames x; clear_value x)
    | split)

theorem State.softTrigger_keeps {orig : State} (s : State) (t : Nat) (u : Nat) (loaded : Bool) (h_s : Keeps orig s) : Keeps orig (State.softTrigger s t u loaded) := by
  unfold State.softTrigger
  repeat' (first
    | with_reducible assumption
    | with_reducible apply State.pushPulse_keeps
    | with_reducible apply State.count_keeps
    | with_reducible apply Keeps.cond)

theorem execSoftTrigger_keeps {orig : State} (t : Nat) (u : Nat) (loaded : Bool) (s : State) (h_s : Keeps orig s) : KeepsRes orig (execSoftTrigger t u loaded s) := by
  unfold execSoftTrigger
  repeat' (first
    | with_reducible assumption
    | with_reducible apply KeepsRes.next
    | with_reducible apply State.softTrigger_keeps)

theorem State.ownRead_keeps {orig : State} (s : State) (t : Nat) (o : Nat) (h_s : Keeps orig s) : Keeps orig (State.ownRead s t o).1 := by
  unfold State.ownRead
  repeat' (first
    | with_reducible assumption
    | with_reducible apply State.mdata_keeps
    | with_reducible apply State.plainRead_keeps
    | with_reducible apply Keeps.cond_fst)

theorem State.ownWrite_keeps {orig : State} (s : State) (t : Nat) (o : Nat) (v : Nat) (mask : Nat) (h_s : Keeps orig s) : Keeps orig (State.ownWrite s t o v mask) := by
  unfold State.ownWrite
  repeat' (first
    | with_reducible assumption
    | with_reducible apply State.plainWrite_keeps
    | with_reducible apply State.timerRestart_keeps
    | with_reducible apply Keeps.cond)

theorem State.portWrite_keeps {orig : State} (s : State) (t : Nat) (o : Nat) (v : Nat) (h_s : Keeps orig s) : Keeps orig (State.portWrite s t o v) := by
  unfold State.portWrite
  repeat' (first
    | with_reducible assumption
    | with_reducible apply State.setTile_keeps
    | with_reducible apply State.softTrigger_keeps
    | with_reducible apply Keeps.cond)

end Sys2Proof.Machine
end

