-- ==== Sys2Proof/Laws/KeepsFabric.lean ====
section
/-!
SUPPORT. Every operation of Machine/Fabric.lean keeps the canonical forms and the queue.
-/
namespace Sys2Proof.Machine

theorem State.fabPush_keeps {orig : State} (s : State) (r : Nat) (q : FabReq) (h_s : Keeps orig s) : Keeps orig (State.fabPush s r q) := by
  unfold State.fabPush
  repeat' (first
    | with_reducible assumption
    | intro x
    | (with_reducible apply Keeps.mk'; with_reducible assumption))

theorem State.tileSetD_keeps {orig : State} (s : State) (t : Nat) (lvl : Bool) (p : Nat) (v : Word) (h_s : Keeps orig s) : Keeps orig (State.tileSetD s t lvl p v) := by
  unfold State.tileSetD
  repeat' (first
    | with_reducible assumption
    | intro x
    | with_reducible apply State.setTile_keeps
    | with_reducible apply Keeps.ite
    | (extract_lets +onlyGivenNames x; refine Keeps.via' (o := orig) (x := x) ?_ (fun hx => ?_); rotate_left; clear_value x; rotate_right; subst x)
    | (extract_lets +onlyGivenNames x; clear_value x)
    | split
    | (with_reducible apply Keeps.mk'; with_reducible assumption)
    | (with_reducible apply Keeps.mk'; first | with_reducible apply State.setTile_keeps | with_reducible apply Keeps.ite))

theorem State.fabServe_keeps {orig : State} (s : State) (r : Nat) (q : FabReq) (h_s : Keeps orig s) : Keeps orig (State.fabServe s r q) := by
  unfold State.fabServe
  repeat' (first
    | with_reducible assumption
    | intro x
    | with_reducible apply State.tileSetD_keeps
    | with_reducible apply State.pokeAll_keeps
    | with_reducible apply State.lockAcquire_keeps
    | with_reducible apply State.lockRelease_keeps
    | with_reducible apply State.portWrite_keeps
    | with_reducible apply State.dmaSlot_keeps
    | with_reducible apply Keeps.cond
    | with_reducible apply Keeps.cond_fst
    | with_reducible apply Keeps.ite_fst
    | with_reducible apply Keeps.foldl
    | with_reducible apply Keeps.foldl_fst
    | (extract_lets +onlyGivenNames x; refine Keeps.via' (o := orig) (x := x) ?_ (fun hx => ?_); rotate_left; clear_value x; rotate_right; subst x)
    | (extract_lets +onlyGivenNames x; refine Keeps.via' (o := orig) (x := x.1) ?_ (fun hx => ?_); rotate_left; clear_value x; rotate_right; subst x)
    | (extract_lets +onlyGivenNames x; clear_value x)
    | split)

theorem State.serveTarget_keeps {orig : State} (s : State) (x : Nat) (h_s : Keeps orig s) : Keeps orig (State.serveTarget s x) := by
  unfold State.serveTarget
  repeat' (first
    | with_reducible assumption
    | intro x
    | with_reducible apply State.fabServe_keeps
    | with_reducible apply Keeps.cond
    | with_reducible apply Keeps.cond_fst
    | with_reducible apply Keeps.ite_fst
    | with_reducible apply Keeps.foldl
    | with_reducible apply Keeps.foldl_fst
    | (extract_lets +onlyGivenNames x; refine Keeps.via' (o := orig) (x := x) ?_ (fun hx => ?_); rotate_left; clear_value x; rotate_right; subst x)
    | (extract_lets +onlyGivenNames x; refine Keeps.via' (o := orig) (x := x.1) ?_ (fun hx => ?_); rotate_left; clear_value x; rotate_right; subst x)
    | (extract_lets +onlyGivenNames x; clear_value x)
    | split
    | (with_reducible apply Keeps.mk'; with_reducible assumption)
    | (with_reducible apply Keeps.mk'; first | with_reducible apply State.fabServe_keeps | with_reducible apply Keeps.foldl | with_reducible apply Keeps.cond))

theorem State.fabric_keeps {orig : State} (s : State) (h_s : Keeps orig s) : Keeps orig (State.fabric s) := by
  unfold State.fabric
  repeat' (first
    | with_reducible assumption
    | intro x
    | with_reducible apply State.serveTarget_keeps
    | with_reducible apply Keeps.foldl
    | (extract_lets +onlyGivenNames x; refine Keeps.via' (o := orig) (x := x) ?_ (fun hx => ?_); rotate_left; clear_value x; rotate_right; subst x)
    | (extract_lets +onlyGivenNames x; clear_value x)
    | (with_reducible apply Keeps.mk'; with_reducible assumption)
    | (with_reducible apply Keeps.mk'; first | with_reducible apply State.serveTarget_keeps | with_reducible apply Keeps.foldl))

theorem State.dmaTick_keeps {orig : State} (s : State) (g : Nat) (h_s : Keeps orig s) : Keeps orig (State.dmaTick s g) := by
  unfold State.dmaTick
  repeat' (first
    | with_reducible assumption
    | intro x
    | with_reducible apply State.count_keeps
    | with_reducible apply State.fabPush_keeps
    | (extract_lets +onlyGivenNames x; refine Keeps.via' (o := orig) (x := x) ?_ (fun hx => ?_); rotate_left; clear_value x; rotate_right; subst x)
    | (extract_lets +onlyGivenNames x; clear_value x)
    | split
    | (with_reducible apply Keeps.mk'; with_reducible assumption)
    | (with_reducible apply Keeps.mk'; first | with_reducible apply State.count_keeps | with_reducible apply State.fabPush_keeps))

end Sys2Proof.Machine
end

