-- ==== Sys2Proof/Laws/KeepsEasel.lean ====
section
/-!
SUPPORT. Every operation of Machine/Easel.lean keeps the canonical forms and the queue.
-/
namespace Sys2Proof.Machine

theorem State.coreStore_keeps {orig : State} (s : State) (t : Nat) (w : Nat) (v : Nat) (c : CoreAt) (h_s : Keeps orig s) : Keeps orig (State.coreStore s t w v c) := by
  unfold State.coreStore
  repeat' (first
    | with_reducible assumption
    | intro x
    | with_reducible apply State.pokeAll_keeps
    | with_reducible apply State.ownWrite_keeps
    | with_reducible apply State.portWrite_keeps
    | with_reducible apply Keeps.cond
    | with_reducible apply Keeps.foldl
    | split)

theorem State.commitMem_keeps {orig : State} (s : State) (t : Nat) (fs : List Fx) (cyc : Bool) (h_s : Keeps orig s) : Keeps orig (State.commitMem s t fs cyc) := by
  unfold State.commitMem
  repeat' (first
    | with_reducible assumption
    | intro x
    | with_reducible apply State.ownRead_keeps
    | with_reducible apply State.fabPush_keeps
    | with_reducible apply State.coreStore_keeps
    | with_reducible apply State.fabServe_keeps
    | with_reducible apply Keeps.cond
    | with_reducible apply Keeps.cond_fst
    | with_reducible apply Keeps.ite_fst
    | with_reducible apply Keeps.foldl
    | with_reducible apply Keeps.foldl_fst
    | (extract_lets +onlyGivenNames x; refine Keeps.via' (o := orig) (x := x) ?_ (fun hx => ?_); rotate_left; clear_value x; rotate_right; subst x)
    | (extract_lets +onlyGivenNames x; refine Keeps.via' (o := orig) (x := x.1) ?_ (fun hx => ?_); rotate_left; clear_value x; rotate_right; subst x)
    | (extract_lets +onlyGivenNames x; clear_value x)
    | split)

theorem State.coreGo_keeps {orig : State} (s : State) (t : Nat) (r : RegSet) (n : Nat) (h_s : Keeps orig s) : Keeps orig (State.coreGo s t r n) := by
  unfold State.coreGo
  repeat' (first
    | with_reducible assumption
    | with_reducible apply State.tilePut_keeps)

theorem State.control_keeps {orig : State} (s : State) (t : Nat) (a : Nat) (next : Nat) (c : CtlFx) (h_s : Keeps orig s) : Keeps orig (State.control s t a next c) := by
  unfold State.control
  repeat' (first
    | with_reducible assumption
    | with_reducible apply State.coreGo_keeps
    | with_reducible apply State.tilePut_keeps
    | with_reducible apply State.exchange_keeps
    | with_reducible apply State.setTile_keeps
    | with_reducible apply Keeps.cond
    | (extract_lets +onlyGivenNames x; refine Keeps.via' (o := orig) (x := x) ?_ (fun hx => ?_); rotate_left; clear_value x; rotate_right; subst x)
    | (extract_lets +onlyGivenNames x; clear_value x)
    | split)

theorem State.issue_keeps {orig : State} (s : State) (t : Nat) (ws : List Nat) (cyc : Bool) (h_s : Keeps orig s) : Keeps orig (State.issue s t ws cyc) := by
  unfold State.issue
  repeat' (first
    | with_reducible assumption
    | intro x
    | with_reducible apply State.setTile_keeps
    | with_reducible apply State.tileFault_keeps
    | with_reducible apply State.count_keeps
    | with_reducible apply State.commitMem_keeps
    | with_reducible apply State.control_keeps
    | with_reducible apply Keeps.cond
    | with_reducible apply Keeps.cond_fst
    | with_reducible apply Keeps.ite_fst
    | (extract_lets +onlyGivenNames x; refine Keeps.via' (o := orig) (x := x) ?_ (fun hx => ?_); rotate_left; clear_value x; rotate_right; subst x)
    | (extract_lets +onlyGivenNames x; refine Keeps.via' (o := orig) (x := x.1) ?_ (fun hx => ?_); rotate_left; clear_value x; rotate_right; subst x)
    | (extract_lets +onlyGivenNames x; clear_value x)
    | split
    | (with_reducible apply Keeps.mk'; with_reducible assumption)
    | (with_reducible apply Keeps.mk'; first | with_reducible apply State.setTile_keeps | with_reducible apply State.tileFault_keeps | with_reducible apply State.count_keeps | with_reducible apply State.commitMem_keeps | with_reducible apply State.control_keeps | with_reducible apply Keeps.cond))

end Sys2Proof.Machine
end

