-- ==== Sys2Proof/Laws/KeepsBench.lean ====
section
/-!
SUPPORT. Every operation of Machine/Bench.lean keeps the canonical forms and the queue.
-/
namespace Sys2Proof.Machine

theorem State.benchSat_keeps {orig : State} (s : State) (t : Nat) (sat : Nat) (aov : Nat) (h_s : Keeps orig s) : Keeps orig (State.benchSat s t sat aov) := by
  unfold State.benchSat
  repeat' (first
    | with_reducible assumption
    | with_reducible apply State.setTile_keeps
    | with_reducible apply State.count_keeps
    | with_reducible apply Keeps.cond)

theorem State.bmacGranule_keeps {orig : State} (s : State) (t : Nat) (b : List Byte) (k : Nat) (h_s : Keeps orig s) : Keeps orig (State.bmacGranule s t b k) := by
  unfold State.bmacGranule
  repeat' (first
    | with_reducible assumption
    | with_reducible apply State.setTile_keeps
    | with_reducible apply State.count_keeps
    | with_reducible apply State.benchSat_keeps
    | with_reducible apply Keeps.cond)

theorem State.boutGranule_keeps {orig : State} (s : State) (t : Nat) (b : List Byte) (k : Nat) (h_s : Keeps orig s) : Keeps orig (State.boutGranule s t b k) := by
  unfold State.boutGranule
  repeat' (first
    | with_reducible assumption
    | intro x
    | with_reducible apply State.pokeAll_keeps
    | with_reducible apply State.setTile_keeps
    | with_reducible apply State.benchSat_keeps
    | with_reducible apply Keeps.cond
    | with_reducible apply Keeps.foldl)

theorem State.bmovGranule_keeps {orig : State} (s : State) (t : Nat) (b : List Byte) (k : Nat) (h_s : Keeps orig s) : Keeps orig (State.bmovGranule s t b k) := by
  unfold State.bmovGranule
  repeat' (first
    | with_reducible assumption
    | intro x
    | with_reducible apply State.pokeAll_keeps
    | with_reducible apply State.benchSat_keeps
    | with_reducible apply Keeps.foldl)

theorem State.bfftGranule_keeps {orig : State} (s : State) (t : Nat) (b : List Byte) (k : Nat) (h_s : Keeps orig s) : Keeps orig (State.bfftGranule s t b k) := by
  unfold State.bfftGranule
  repeat' (first
    | with_reducible assumption
    | intro x
    | with_reducible apply State.pokeAll_keeps
    | with_reducible apply State.benchSat_keeps
    | with_reducible apply Keeps.foldl)

theorem State.granule_keeps {orig : State} (s : State) (t : Nat) (l : LongOp) (k : Nat) (h_s : Keeps orig s) : Keeps orig (State.granule s t l k) := by
  unfold State.granule
  repeat' (first
    | with_reducible assumption
    | with_reducible apply State.setTile_keeps
    | with_reducible apply State.bmacGranule_keeps
    | with_reducible apply State.boutGranule_keeps
    | with_reducible apply State.bmovGranule_keeps
    | with_reducible apply State.bfftGranule_keeps
    | with_reducible apply Keeps.ite)

theorem State.benchIssue_keeps {orig : State} (s : State) (t : Nat) (w : Nat) (h_s : Keeps orig s) : Keeps orig (State.benchIssue s t w) := by
  unfold State.benchIssue
  repeat' (first
    | with_reducible assumption
    | with_reducible apply State.setTile_keeps
    | with_reducible apply State.tileFault_keeps
    | with_reducible apply State.tilePut_keeps
    | with_reducible apply Keeps.cond)

theorem State.tileBoundary_keeps {orig : State} (s : State) (t : Nat) (h_s : Keeps orig s) : Keeps orig (State.tileBoundary s t) := by
  unfold State.tileBoundary
  repeat' (first
    | with_reducible assumption
    | with_reducible apply State.tileHeld_keeps
    | with_reducible apply State.tileCommand_keeps
    | with_reducible apply State.setTile_keeps
    | with_reducible apply State.exchange_keeps
    | with_reducible apply State.tileEnter_keeps
    | with_reducible apply Keeps.cond
    | (extract_lets +onlyGivenNames x; clear_value x)
    | split)

theorem execBenchGranuleEnd_keeps {orig : State} (t : Nat) (s : State) (h_s : Keeps orig s) : KeepsRes orig (execBenchGranuleEnd t s) := by
  unfold execBenchGranuleEnd
  repeat' (first
    | with_reducible assumption
    | with_reducible apply KeepsRes.next
    | with_reducible apply State.granule_keeps
    | with_reducible apply State.tileBoundary_keeps
    | with_reducible apply State.tilePut_keeps
    | with_reducible apply Keeps.cond
    | (extract_lets +onlyGivenNames x; clear_value x)
    | split)

theorem execInterruptEntry_keeps {orig : State} (t : Nat) (s : State) (h_s : Keeps orig s) : KeepsRes orig (execInterruptEntry t s) := by
  unfold execInterruptEntry
  repeat' (first
    | with_reducible assumption
    | with_reducible apply KeepsRes.next
    | with_reducible apply State.setTile_keeps
    | with_reducible apply State.tileEnter_keeps
    | with_reducible apply Keeps.cond
    | split)

theorem State.bundle_keeps {orig : State} (s : State) (t : Nat) (ws : List Nat) (cyc : Bool) (h_s : Keeps orig s) : Keeps orig (State.bundle s t ws cyc) := by
  unfold State.bundle
  repeat' (first
    | with_reducible assumption
    | with_reducible apply State.benchIssue_keeps
    | with_reducible apply State.issue_keeps
    | with_reducible apply Keeps.cond)

theorem State.syllable_keeps {orig : State} (s : State) (t : Nat) (w : Nat) (h_s : Keeps orig s) : Keeps orig (State.syllable s t w) := by
  unfold State.syllable
  repeat' (first
    | with_reducible assumption
    | with_reducible apply State.bundle_keeps
    | with_reducible apply State.setTile_keeps
    | with_reducible apply Keeps.cond)

theorem State.coreTick_keeps {orig : State} (s : State) (t : Nat) (h_s : Keeps orig s) : Keeps orig (State.coreTick s t) := by
  unfold State.coreTick
  repeat' (first
    | with_reducible assumption
    | with_reducible apply State.tileEnter_keeps
    | with_reducible apply State.bundle_keeps
    | with_reducible apply Keeps.cond
    | (extract_lets +onlyGivenNames x; clear_value x)
    | split)

end Sys2Proof.Machine
end

