-- ==== Sys2Proof/Laws/KeepsInstructions.lean ====
section
/-!
SUPPORT. Every operation of Machine/Instructions.lean keeps the canonical forms and the queue.
-/
namespace Sys2Proof.Machine

theorem execLdb_keeps {orig : State} (t : Nat) (y : LsSyl) (s : State) (h_s : Keeps orig s) : KeepsRes orig (execLdb t y s) := by
  unfold execLdb
  repeat' (first
    | with_reducible assumption
    | with_reducible apply KeepsRes.next
    | with_reducible apply State.syllable_keeps)

theorem execLdbu_keeps {orig : State} (t : Nat) (y : LsSyl) (s : State) (h_s : Keeps orig s) : KeepsRes orig (execLdbu t y s) := by
  unfold execLdbu
  repeat' (first
    | with_reducible assumption
    | with_reducible apply KeepsRes.next
    | with_reducible apply State.syllable_keeps)

theorem execLdh_keeps {orig : State} (t : Nat) (y : LsSyl) (s : State) (h_s : Keeps orig s) : KeepsRes orig (execLdh t y s) := by
  unfold execLdh
  repeat' (first
    | with_reducible assumption
    | with_reducible apply KeepsRes.next
    | with_reducible apply State.syllable_keeps)

theorem execLdhu_keeps {orig : State} (t : Nat) (y : LsSyl) (s : State) (h_s : Keeps orig s) : KeepsRes orig (execLdhu t y s) := by
  unfold execLdhu
  repeat' (first
    | with_reducible assumption
    | with_reducible apply KeepsRes.next
    | with_reducible apply State.syllable_keeps)

theorem execLdw_keeps {orig : State} (t : Nat) (y : LsSyl) (s : State) (h_s : Keeps orig s) : KeepsRes orig (execLdw t y s) := by
  unfold execLdw
  repeat' (first
    | with_reducible assumption
    | with_reducible apply KeepsRes.next
    | with_reducible apply State.syllable_keeps)

theorem execLdd_keeps {orig : State} (t : Nat) (y : LsSyl) (s : State) (h_s : Keeps orig s) : KeepsRes orig (execLdd t y s) := by
  unfold execLdd
  repeat' (first
    | with_reducible assumption
    | with_reducible apply KeepsRes.next
    | with_reducible apply State.syllable_keeps)

theorem execLdq_keeps {orig : State} (t : Nat) (y : LsSyl) (s : State) (h_s : Keeps orig s) : KeepsRes orig (execLdq t y s) := by
  unfold execLdq
  repeat' (first
    | with_reducible assumption
    | with_reducible apply KeepsRes.next
    | with_reducible apply State.syllable_keeps)

theorem execLea_keeps {orig : State} (t : Nat) (y : LsSyl) (s : State) (h_s : Keeps orig s) : KeepsRes orig (execLea t y s) := by
  unfold execLea
  repeat' (first
    | with_reducible assumption
    | with_reducible apply KeepsRes.next
    | with_reducible apply State.syllable_keeps)

theorem execStb_keeps {orig : State} (t : Nat) (y : LsSyl) (s : State) (h_s : Keeps orig s) : KeepsRes orig (execStb t y s) := by
  unfold execStb
  repeat' (first
    | with_reducible assumption
    | with_reducible apply KeepsRes.next
    | with_reducible apply State.syllable_keeps)

theorem execSth_keeps {orig : State} (t : Nat) (y : LsSyl) (s : State) (h_s : Keeps orig s) : KeepsRes orig (execSth t y s) := by
  unfold execSth
  repeat' (first
    | with_reducible assumption
    | with_reducible apply KeepsRes.next
    | with_reducible apply State.syllable_keeps)

theorem execStw_keeps {orig : State} (t : Nat) (y : LsSyl) (s : State) (h_s : Keeps orig s) : KeepsRes orig (execStw t y s) := by
  unfold execStw
  repeat' (first
    | with_reducible assumption
    | with_reducible apply KeepsRes.next
    | with_reducible apply State.syllable_keeps)

theorem execStd_keeps {orig : State} (t : Nat) (y : LsSyl) (s : State) (h_s : Keeps orig s) : KeepsRes orig (execStd t y s) := by
  unfold execStd
  repeat' (first
    | with_reducible assumption
    | with_reducible apply KeepsRes.next
    | with_reducible apply State.syllable_keeps)

theorem execStq_keeps {orig : State} (t : Nat) (y : LsSyl) (s : State) (h_s : Keeps orig s) : KeepsRes orig (execStq t y s) := by
  unfold execStq
  repeat' (first
    | with_reducible assumption
    | with_reducible apply KeepsRes.next
    | with_reducible apply State.syllable_keeps)

theorem execStac_keeps {orig : State} (t : Nat) (y : LsSyl) (s : State) (h_s : Keeps orig s) : KeepsRes orig (execStac t y s) := by
  unfold execStac
  repeat' (first
    | with_reducible assumption
    | with_reducible apply KeepsRes.next
    | with_reducible apply State.syllable_keeps)

theorem execLkacq_keeps {orig : State} (t : Nat) (y : LsSyl) (s : State) (h_s : Keeps orig s) : KeepsRes orig (execLkacq t y s) := by
  unfold execLkacq
  repeat' (first
    | with_reducible assumption
    | with_reducible apply KeepsRes.next
    | with_reducible apply State.syllable_keeps)

theorem execLkrel_keeps {orig : State} (t : Nat) (y : LsSyl) (s : State) (h_s : Keeps orig s) : KeepsRes orig (execLkrel t y s) := by
  unfold execLkrel
  repeat' (first
    | with_reducible assumption
    | with_reducible apply KeepsRes.next
    | with_reducible apply State.syllable_keeps)

theorem execCmac_keeps {orig : State} (t : Nat) (y : MacSyl) (s : State) (h_s : Keeps orig s) : KeepsRes orig (execCmac t y s) := by
  unfold execCmac
  repeat' (first
    | with_reducible assumption
    | with_reducible apply KeepsRes.next
    | with_reducible apply State.syllable_keeps)

theorem execCmacc_keeps {orig : State} (t : Nat) (y : MacSyl) (s : State) (h_s : Keeps orig s) : KeepsRes orig (execCmacc t y s) := by
  unfold execCmacc
  repeat' (first
    | with_reducible assumption
    | with_reducible apply KeepsRes.next
    | with_reducible apply State.syllable_keeps)

theorem execCmsb_keeps {orig : State} (t : Nat) (y : MacSyl) (s : State) (h_s : Keeps orig s) : KeepsRes orig (execCmsb t y s) := by
  unfold execCmsb
  repeat' (first
    | with_reducible assumption
    | with_reducible apply KeepsRes.next
    | with_reducible apply State.syllable_keeps)

theorem execCmul_keeps {orig : State} (t : Nat) (y : MacSyl) (s : State) (h_s : Keeps orig s) : KeepsRes orig (execCmul t y s) := by
  unfold execCmul
  repeat' (first
    | with_reducible assumption
    | with_reducible apply KeepsRes.next
    | with_reducible apply State.syllable_keeps)

theorem execCmulc_keeps {orig : State} (t : Nat) (y : MacSyl) (s : State) (h_s : Keeps orig s) : KeepsRes orig (execCmulc t y s) := by
  unfold execCmulc
  repeat' (first
    | with_reducible assumption
    | with_reducible apply KeepsRes.next
    | with_reducible apply State.syllable_keeps)

theorem execRmac_keeps {orig : State} (t : Nat) (y : MacSyl) (s : State) (h_s : Keeps orig s) : KeepsRes orig (execRmac t y s) := by
  unfold execRmac
  repeat' (first
    | with_reducible assumption
    | with_reducible apply KeepsRes.next
    | with_reducible apply State.syllable_keeps)

theorem execRmul_keeps {orig : State} (t : Nat) (y : MacSyl) (s : State) (h_s : Keeps orig s) : KeepsRes orig (execRmul t y s) := by
  unfold execRmul
  repeat' (first
    | with_reducible assumption
    | with_reducible apply KeepsRes.next
    | with_reducible apply State.syllable_keeps)

theorem execAclr_keeps {orig : State} (t : Nat) (y : MacSyl) (s : State) (h_s : Keeps orig s) : KeepsRes orig (execAclr t y s) := by
  unfold execAclr
  repeat' (first
    | with_reducible assumption
    | with_reducible apply KeepsRes.next
    | with_reducible apply State.syllable_keeps)

theorem execAadd_keeps {orig : State} (t : Nat) (y : MacSyl) (s : State) (h_s : Keeps orig s) : KeepsRes orig (execAadd t y s) := by
  unfold execAadd
  repeat' (first
    | with_reducible assumption
    | with_reducible apply KeepsRes.next
    | with_reducible apply State.syllable_keeps)

theorem execAmov_keeps {orig : State} (t : Nat) (y : MacSyl) (s : State) (h_s : Keeps orig s) : KeepsRes orig (execAmov t y s) := by
  unfold execAmov
  repeat' (first
    | with_reducible assumption
    | with_reducible apply KeepsRes.next
    | with_reducible apply State.syllable_keeps)

theorem execExtc_keeps {orig : State} (t : Nat) (y : XferSyl) (s : State) (h_s : Keeps orig s) : KeepsRes orig (execExtc t y s) := by
  unfold execExtc
  repeat' (first
    | with_reducible assumption
    | with_reducible apply KeepsRes.next
    | with_reducible apply State.syllable_keeps)

theorem execExti_keeps {orig : State} (t : Nat) (y : XferSyl) (s : State) (h_s : Keeps orig s) : KeepsRes orig (execExti t y s) := by
  unfold execExti
  repeat' (first
    | with_reducible assumption
    | with_reducible apply KeepsRes.next
    | with_reducible apply State.syllable_keeps)

theorem execExtq_keeps {orig : State} (t : Nat) (y : XferSyl) (s : State) (h_s : Keeps orig s) : KeepsRes orig (execExtq t y s) := by
  unfold execExtq
  repeat' (first
    | with_reducible assumption
    | with_reducible apply KeepsRes.next
    | with_reducible apply State.syllable_keeps)

theorem execAget_keeps {orig : State} (t : Nat) (y : XferSyl) (s : State) (h_s : Keeps orig s) : KeepsRes orig (execAget t y s) := by
  unfold execAget
  repeat' (first
    | with_reducible assumption
    | with_reducible apply KeepsRes.next
    | with_reducible apply State.syllable_keeps)

theorem execAset_keeps {orig : State} (t : Nat) (y : XferSyl) (s : State) (h_s : Keeps orig s) : KeepsRes orig (execAset t y s) := by
  unfold execAset
  repeat' (first
    | with_reducible assumption
    | with_reducible apply KeepsRes.next
    | with_reducible apply State.syllable_keeps)

theorem execAdd_keeps {orig : State} (t : Nat) (y : AluSyl) (s : State) (h_s : Keeps orig s) : KeepsRes orig (execAdd t y s) := by
  unfold execAdd
  repeat' (first
    | with_reducible assumption
    | with_reducible apply KeepsRes.next
    | with_reducible apply State.syllable_keeps)

theorem execSub_keeps {orig : State} (t : Nat) (y : AluSyl) (s : State) (h_s : Keeps orig s) : KeepsRes orig (execSub t y s) := by
  unfold execSub
  repeat' (first
    | with_reducible assumption
    | with_reducible apply KeepsRes.next
    | with_reducible apply State.syllable_keeps)

theorem execAdds_keeps {orig : State} (t : Nat) (y : AluSyl) (s : State) (h_s : Keeps orig s) : KeepsRes orig (execAdds t y s) := by
  unfold execAdds
  repeat' (first
    | with_reducible assumption
    | with_reducible apply KeepsRes.next
    | with_reducible apply State.syllable_keeps)

theorem execSubs_keeps {orig : State} (t : Nat) (y : AluSyl) (s : State) (h_s : Keeps orig s) : KeepsRes orig (execSubs t y s) := by
  unfold execSubs
  repeat' (first
    | with_reducible assumption
    | with_reducible apply KeepsRes.next
    | with_reducible apply State.syllable_keeps)

theorem execAnd_keeps {orig : State} (t : Nat) (y : AluSyl) (s : State) (h_s : Keeps orig s) : KeepsRes orig (execAnd t y s) := by
  unfold execAnd
  repeat' (first
    | with_reducible assumption
    | with_reducible apply KeepsRes.next
    | with_reducible apply State.syllable_keeps)

theorem execOr_keeps {orig : State} (t : Nat) (y : AluSyl) (s : State) (h_s : Keeps orig s) : KeepsRes orig (execOr t y s) := by
  unfold execOr
  repeat' (first
    | with_reducible assumption
    | with_reducible apply KeepsRes.next
    | with_reducible apply State.syllable_keeps)

theorem execXor_keeps {orig : State} (t : Nat) (y : AluSyl) (s : State) (h_s : Keeps orig s) : KeepsRes orig (execXor t y s) := by
  unfold execXor
  repeat' (first
    | with_reducible assumption
    | with_reducible apply KeepsRes.next
    | with_reducible apply State.syllable_keeps)

theorem execAndn_keeps {orig : State} (t : Nat) (y : AluSyl) (s : State) (h_s : Keeps orig s) : KeepsRes orig (execAndn t y s) := by
  unfold execAndn
  repeat' (first
    | with_reducible assumption
    | with_reducible apply KeepsRes.next
    | with_reducible apply State.syllable_keeps)

theorem execShl_keeps {orig : State} (t : Nat) (y : AluSyl) (s : State) (h_s : Keeps orig s) : KeepsRes orig (execShl t y s) := by
  unfold execShl
  repeat' (first
    | with_reducible assumption
    | with_reducible apply KeepsRes.next
    | with_reducible apply State.syllable_keeps)

theorem execShr_keeps {orig : State} (t : Nat) (y : AluSyl) (s : State) (h_s : Keeps orig s) : KeepsRes orig (execShr t y s) := by
  unfold execShr
  repeat' (first
    | with_reducible assumption
    | with_reducible apply KeepsRes.next
    | with_reducible apply State.syllable_keeps)

theorem execSar_keeps {orig : State} (t : Nat) (y : AluSyl) (s : State) (h_s : Keeps orig s) : KeepsRes orig (execSar t y s) := by
  unfold execSar
  repeat' (first
    | with_reducible assumption
    | with_reducible apply KeepsRes.next
    | with_reducible apply State.syllable_keeps)

theorem execMin_keeps {orig : State} (t : Nat) (y : AluSyl) (s : State) (h_s : Keeps orig s) : KeepsRes orig (execMin t y s) := by
  unfold execMin
  repeat' (first
    | with_reducible assumption
    | with_reducible apply KeepsRes.next
    | with_reducible apply State.syllable_keeps)

theorem execMax_keeps {orig : State} (t : Nat) (y : AluSyl) (s : State) (h_s : Keeps orig s) : KeepsRes orig (execMax t y s) := by
  unfold execMax
  repeat' (first
    | with_reducible assumption
    | with_reducible apply KeepsRes.next
    | with_reducible apply State.syllable_keeps)

theorem execMinu_keeps {orig : State} (t : Nat) (y : AluSyl) (s : State) (h_s : Keeps orig s) : KeepsRes orig (execMinu t y s) := by
  unfold execMinu
  repeat' (first
    | with_reducible assumption
    | with_reducible apply KeepsRes.next
    | with_reducible apply State.syllable_keeps)

theorem execMaxu_keeps {orig : State} (t : Nat) (y : AluSyl) (s : State) (h_s : Keeps orig s) : KeepsRes orig (execMaxu t y s) := by
  unfold execMaxu
  repeat' (first
    | with_reducible assumption
    | with_reducible apply KeepsRes.next
    | with_reducible apply State.syllable_keeps)

theorem execMov_keeps {orig : State} (t : Nat) (y : AluSyl) (s : State) (h_s : Keeps orig s) : KeepsRes orig (execMov t y s) := by
  unfold execMov
  repeat' (first
    | with_reducible assumption
    | with_reducible apply KeepsRes.next
    | with_reducible apply State.syllable_keeps)

theorem execCadd_keeps {orig : State} (t : Nat) (y : AluSyl) (s : State) (h_s : Keeps orig s) : KeepsRes orig (execCadd t y s) := by
  unfold execCadd
  repeat' (first
    | with_reducible assumption
    | with_reducible apply KeepsRes.next
    | with_reducible apply State.syllable_keeps)

theorem execCsub_keeps {orig : State} (t : Nat) (y : AluSyl) (s : State) (h_s : Keeps orig s) : KeepsRes orig (execCsub t y s) := by
  unfold execCsub
  repeat' (first
    | with_reducible assumption
    | with_reducible apply KeepsRes.next
    | with_reducible apply State.syllable_keeps)

theorem execCconj_keeps {orig : State} (t : Nat) (y : AluSyl) (s : State) (h_s : Keeps orig s) : KeepsRes orig (execCconj t y s) := by
  unfold execCconj
  repeat' (first
    | with_reducible assumption
    | with_reducible apply KeepsRes.next
    | with_reducible apply State.syllable_keeps)

theorem execCswap_keeps {orig : State} (t : Nat) (y : AluSyl) (s : State) (h_s : Keeps orig s) : KeepsRes orig (execCswap t y s) := by
  unfold execCswap
  repeat' (first
    | with_reducible assumption
    | with_reducible apply KeepsRes.next
    | with_reducible apply State.syllable_keeps)

theorem execCshr_keeps {orig : State} (t : Nat) (y : AluSyl) (s : State) (h_s : Keeps orig s) : KeepsRes orig (execCshr t y s) := by
  unfold execCshr
  repeat' (first
    | with_reducible assumption
    | with_reducible apply KeepsRes.next
    | with_reducible apply State.syllable_keeps)

theorem execPack_keeps {orig : State} (t : Nat) (y : AluSyl) (s : State) (h_s : Keeps orig s) : KeepsRes orig (execPack t y s) := by
  unfold execPack
  repeat' (first
    | with_reducible assumption
    | with_reducible apply KeepsRes.next
    | with_reducible apply State.syllable_keeps)

theorem execCmpeq_keeps {orig : State} (t : Nat) (y : AluSyl) (s : State) (h_s : Keeps orig s) : KeepsRes orig (execCmpeq t y s) := by
  unfold execCmpeq
  repeat' (first
    | with_reducible assumption
    | with_reducible apply KeepsRes.next
    | with_reducible apply State.syllable_keeps)

theorem execCmplt_keeps {orig : State} (t : Nat) (y : AluSyl) (s : State) (h_s : Keeps orig s) : KeepsRes orig (execCmplt t y s) := by
  unfold execCmplt
  repeat' (first
    | with_reducible assumption
    | with_reducible apply KeepsRes.next
    | with_reducible apply State.syllable_keeps)

theorem execCmpltu_keeps {orig : State} (t : Nat) (y : AluSyl) (s : State) (h_s : Keeps orig s) : KeepsRes orig (execCmpltu t y s) := by
  unfold execCmpltu
  repeat' (first
    | with_reducible assumption
    | with_reducible apply KeepsRes.next
    | with_reducible apply State.syllable_keeps)

theorem execCmple_keeps {orig : State} (t : Nat) (y : AluSyl) (s : State) (h_s : Keeps orig s) : KeepsRes orig (execCmple t y s) := by
  unfold execCmple
  repeat' (first
    | with_reducible assumption
    | with_reducible apply KeepsRes.next
    | with_reducible apply State.syllable_keeps)

theorem execQand_keeps {orig : State} (t : Nat) (y : AluSyl) (s : State) (h_s : Keeps orig s) : KeepsRes orig (execQand t y s) := by
  unfold execQand
  repeat' (first
    | with_reducible assumption
    | with_reducible apply KeepsRes.next
    | with_reducible apply State.syllable_keeps)

theorem execQor_keeps {orig : State} (t : Nat) (y : AluSyl) (s : State) (h_s : Keeps orig s) : KeepsRes orig (execQor t y s) := by
  unfold execQor
  repeat' (first
    | with_reducible assumption
    | with_reducible apply KeepsRes.next
    | with_reducible apply State.syllable_keeps)

theorem execQandn_keeps {orig : State} (t : Nat) (y : AluSyl) (s : State) (h_s : Keeps orig s) : KeepsRes orig (execQandn t y s) := by
  unfold execQandn
  repeat' (first
    | with_reducible assumption
    | with_reducible apply KeepsRes.next
    | with_reducible apply State.syllable_keeps)

theorem execMvtx_keeps {orig : State} (t : Nat) (y : AluSyl) (s : State) (h_s : Keeps orig s) : KeepsRes orig (execMvtx t y s) := by
  unfold execMvtx
  repeat' (first
    | with_reducible assumption
    | with_reducible apply KeepsRes.next
    | with_reducible apply State.syllable_keeps)

theorem execMvfx_keeps {orig : State} (t : Nat) (y : AluSyl) (s : State) (h_s : Keeps orig s) : KeepsRes orig (execMvfx t y s) := by
  unfold execMvfx
  repeat' (first
    | with_reducible assumption
    | with_reducible apply KeepsRes.next
    | with_reducible apply State.syllable_keeps)

theorem execMvfm_keeps {orig : State} (t : Nat) (y : AluSyl) (s : State) (h_s : Keeps orig s) : KeepsRes orig (execMvfm t y s) := by
  unfold execMvfm
  repeat' (first
    | with_reducible assumption
    | with_reducible apply KeepsRes.next
    | with_reducible apply State.syllable_keeps)

theorem execMvtm_keeps {orig : State} (t : Nat) (y : AluSyl) (s : State) (h_s : Keeps orig s) : KeepsRes orig (execMvtm t y s) := by
  unfold execMvtm
  repeat' (first
    | with_reducible assumption
    | with_reducible apply KeepsRes.next
    | with_reducible apply State.syllable_keeps)

theorem execAddi_keeps {orig : State} (t : Nat) (y : ImmSyl) (s : State) (h_s : Keeps orig s) : KeepsRes orig (execAddi t y s) := by
  unfold execAddi
  repeat' (first
    | with_reducible assumption
    | with_reducible apply KeepsRes.next
    | with_reducible apply State.syllable_keeps)

theorem execAndi_keeps {orig : State} (t : Nat) (y : ImmSyl) (s : State) (h_s : Keeps orig s) : KeepsRes orig (execAndi t y s) := by
  unfold execAndi
  repeat' (first
    | with_reducible assumption
    | with_reducible apply KeepsRes.next
    | with_reducible apply State.syllable_keeps)

theorem execOri_keeps {orig : State} (t : Nat) (y : ImmSyl) (s : State) (h_s : Keeps orig s) : KeepsRes orig (execOri t y s) := by
  unfold execOri
  repeat' (first
    | with_reducible assumption
    | with_reducible apply KeepsRes.next
    | with_reducible apply State.syllable_keeps)

theorem execShli_keeps {orig : State} (t : Nat) (y : ImmSyl) (s : State) (h_s : Keeps orig s) : KeepsRes orig (execShli t y s) := by
  unfold execShli
  repeat' (first
    | with_reducible assumption
    | with_reducible apply KeepsRes.next
    | with_reducible apply State.syllable_keeps)

theorem execShri_keeps {orig : State} (t : Nat) (y : ImmSyl) (s : State) (h_s : Keeps orig s) : KeepsRes orig (execShri t y s) := by
  unfold execShri
  repeat' (first
    | with_reducible assumption
    | with_reducible apply KeepsRes.next
    | with_reducible apply State.syllable_keeps)

theorem execSari_keeps {orig : State} (t : Nat) (y : ImmSyl) (s : State) (h_s : Keeps orig s) : KeepsRes orig (execSari t y s) := by
  unfold execSari
  repeat' (first
    | with_reducible assumption
    | with_reducible apply KeepsRes.next
    | with_reducible apply State.syllable_keeps)

theorem execMovlo_keeps {orig : State} (t : Nat) (y : WideSyl) (s : State) (h_s : Keeps orig s) : KeepsRes orig (execMovlo t y s) := by
  unfold execMovlo
  repeat' (first
    | with_reducible assumption
    | with_reducible apply KeepsRes.next
    | with_reducible apply State.syllable_keeps)

theorem execMovhi_keeps {orig : State} (t : Nat) (y : WideSyl) (s : State) (h_s : Keeps orig s) : KeepsRes orig (execMovhi t y s) := by
  unfold execMovhi
  repeat' (first
    | with_reducible assumption
    | with_reducible apply KeepsRes.next
    | with_reducible apply State.syllable_keeps)

theorem execNop_keeps {orig : State} (t : Nat) (y : CtlSyl) (s : State) (h_s : Keeps orig s) : KeepsRes orig (execNop t y s) := by
  unfold execNop
  repeat' (first
    | with_reducible assumption
    | with_reducible apply KeepsRes.next
    | with_reducible apply State.syllable_keeps)

theorem execBr_keeps {orig : State} (t : Nat) (y : CtlSyl) (s : State) (h_s : Keeps orig s) : KeepsRes orig (execBr t y s) := by
  unfold execBr
  repeat' (first
    | with_reducible assumption
    | with_reducible apply KeepsRes.next
    | with_reducible apply State.syllable_keeps)

theorem execCall_keeps {orig : State} (t : Nat) (y : CtlSyl) (s : State) (h_s : Keeps orig s) : KeepsRes orig (execCall t y s) := by
  unfold execCall
  repeat' (first
    | with_reducible assumption
    | with_reducible apply KeepsRes.next
    | with_reducible apply State.syllable_keeps)

theorem execRet_keeps {orig : State} (t : Nat) (y : CtlSyl) (s : State) (h_s : Keeps orig s) : KeepsRes orig (execRet t y s) := by
  unfold execRet
  repeat' (first
    | with_reducible assumption
    | with_reducible apply KeepsRes.next
    | with_reducible apply State.syllable_keeps)

theorem execLoop_keeps {orig : State} (t : Nat) (y : CtlSyl) (s : State) (h_s : Keeps orig s) : KeepsRes orig (execLoop t y s) := by
  unfold execLoop
  repeat' (first
    | with_reducible assumption
    | with_reducible apply KeepsRes.next
    | with_reducible apply State.syllable_keeps)

theorem execLoopi_keeps {orig : State} (t : Nat) (y : CtlSyl) (s : State) (h_s : Keeps orig s) : KeepsRes orig (execLoopi t y s) := by
  unfold execLoopi
  repeat' (first
    | with_reducible assumption
    | with_reducible apply KeepsRes.next
    | with_reducible apply State.syllable_keeps)

theorem execLbrk_keeps {orig : State} (t : Nat) (y : CtlSyl) (s : State) (h_s : Keeps orig s) : KeepsRes orig (execLbrk t y s) := by
  unfold execLbrk
  repeat' (first
    | with_reducible assumption
    | with_reducible apply KeepsRes.next
    | with_reducible apply State.syllable_keeps)

theorem execRti_keeps {orig : State} (t : Nat) (y : CtlSyl) (s : State) (h_s : Keeps orig s) : KeepsRes orig (execRti t y s) := by
  unfold execRti
  repeat' (first
    | with_reducible assumption
    | with_reducible apply KeepsRes.next
    | with_reducible apply State.syllable_keeps)

theorem execSwp_keeps {orig : State} (t : Nat) (y : CtlSyl) (s : State) (h_s : Keeps orig s) : KeepsRes orig (execSwp t y s) := by
  unfold execSwp
  repeat' (first
    | with_reducible assumption
    | with_reducible apply KeepsRes.next
    | with_reducible apply State.syllable_keeps)

theorem execFence_keeps {orig : State} (t : Nat) (y : CtlSyl) (s : State) (h_s : Keeps orig s) : KeepsRes orig (execFence t y s) := by
  unfold execFence
  repeat' (first
    | with_reducible assumption
    | with_reducible apply KeepsRes.next
    | with_reducible apply State.syllable_keeps)

theorem execIdle_keeps {orig : State} (t : Nat) (y : CtlSyl) (s : State) (h_s : Keeps orig s) : KeepsRes orig (execIdle t y s) := by
  unfold execIdle
  repeat' (first
    | with_reducible assumption
    | with_reducible apply KeepsRes.next
    | with_reducible apply State.syllable_keeps)

theorem execBclr_keeps {orig : State} (t : Nat) (y : BenchSyl) (s : State) (h_s : Keeps orig s) : KeepsRes orig (execBclr t y s) := by
  unfold execBclr
  repeat' (first
    | with_reducible assumption
    | with_reducible apply KeepsRes.next
    | with_reducible apply State.syllable_keeps)

theorem execBmac_keeps {orig : State} (t : Nat) (y : BenchSyl) (s : State) (h_s : Keeps orig s) : KeepsRes orig (execBmac t y s) := by
  unfold execBmac
  repeat' (first
    | with_reducible assumption
    | with_reducible apply KeepsRes.next
    | with_reducible apply State.syllable_keeps)

theorem execBout_keeps {orig : State} (t : Nat) (y : BenchSyl) (s : State) (h_s : Keeps orig s) : KeepsRes orig (execBout t y s) := by
  unfold execBout
  repeat' (first
    | with_reducible assumption
    | with_reducible apply KeepsRes.next
    | with_reducible apply State.syllable_keeps)

theorem execBmov_keeps {orig : State} (t : Nat) (y : BenchSyl) (s : State) (h_s : Keeps orig s) : KeepsRes orig (execBmov t y s) := by
  unfold execBmov
  repeat' (first
    | with_reducible assumption
    | with_reducible apply KeepsRes.next
    | with_reducible apply State.syllable_keeps)

theorem execBfft_keeps {orig : State} (t : Nat) (y : BenchSyl) (s : State) (h_s : Keeps orig s) : KeepsRes orig (execBfft t y s) := by
  unfold execBfft
  repeat' (first
    | with_reducible assumption
    | with_reducible apply KeepsRes.next
    | with_reducible apply State.syllable_keeps)

end Sys2Proof.Machine
end

