-- ==== Sys2Proof/Laws/KeepsStim.lean ====
section
/-!
SUPPORT. Every operation of Machine/Stim.lean keeps the canonical forms and the queue.
-/
namespace Sys2Proof.Machine

theorem State.setChn_keeps {orig : State} (s : State) (c : Nat) (x : StimChan) (h_s : Keeps orig s) : Keeps orig (State.setChn s c x) := by
  unfold State.setChn
  repeat' (first
    | (extract_lets +onlyGivenNames x; clear_value x)
    | (with_reducible apply Keeps.mk'; with_reducible assumption))

theorem State.stmTo_keeps {orig : State} (s : State) (c : Nat) (v : Nat) (h_s : Keeps orig s) : Keeps orig (State.stmTo s c v) := by
  unfold State.stmTo
  repeat' (first
    | with_reducible assumption
    | with_reducible apply State.put_keeps
    | with_reducible apply State.ev_keeps
    | with_reducible apply Keeps.cond)

theorem State.stimFrames_keeps {orig : State} (c : Nat) (y1 : Nat) (y2 : State) (h_y2 : Keeps orig y2) : Keeps orig (State.stimFrames c y1 y2) := by
  induction y1 generalizing c y2 with
  | zero =>
  rw [State.stimFrames]
  repeat' (first
    | with_reducible assumption
    | with_reducible apply State.emit_keeps
    | with_reducible apply State.setChn_keeps
    | with_reducible apply Keeps.cond)
  | succ k ih =>
  rw [State.stimFrames]
  repeat' (first
    | with_reducible assumption
    | with_reducible apply State.emit_keeps
    | with_reducible apply ih
    | with_reducible apply State.setChn_keeps
    | with_reducible apply Keeps.cond)

theorem State.stmFlag_keeps {orig : State} (s : State) (c : Nat) (f : Fld) (h_s : Keeps orig s) : Keeps orig (State.stmFlag s c f) := by
  unfold State.stmFlag
  repeat' (first
    | with_reducible assumption
    | with_reducible apply State.ev_keeps
    | with_reducible apply State.flag_keeps
    | with_reducible apply Keeps.cond)

theorem State.stimPlay_keeps {orig : State} (s : State) (c : Nat) (k : Nat) (missing : List Nat) (h_s : Keeps orig s) : Keeps orig (State.stimPlay s c k missing) := by
  unfold State.stimPlay
  repeat' (first
    | with_reducible assumption
    | intro x
    | with_reducible apply State.setChn_keeps
    | with_reducible apply State.count_keeps
    | with_reducible apply State.degrLoss_keeps
    | with_reducible apply State.stmFlag_keeps
    | with_reducible apply State.put64_keeps
    | with_reducible apply State.stimFrames_keeps
    | with_reducible apply Keeps.cond
    | with_reducible apply Keeps.ite
    | with_reducible apply Keeps.cond_fst
    | with_reducible apply Keeps.ite_fst
    | (extract_lets +onlyGivenNames x; refine Keeps.via' (o := orig) (x := x) ?_ (fun hx => ?_); rotate_left; clear_value x; rotate_right; subst x)
    | (extract_lets +onlyGivenNames x; refine Keeps.via' (o := orig) (x := x.1) ?_ (fun hx => ?_); rotate_left; clear_value x; rotate_right; subst x)
    | (extract_lets +onlyGivenNames x; clear_value x)
    | split
    | (with_reducible apply Keeps.mk'; with_reducible assumption)
    | (with_reducible apply Keeps.mk'; first | with_reducible apply State.setChn_keeps | with_reducible apply State.count_keeps | with_reducible apply State.degrLoss_keeps | with_reducible apply State.stmFlag_keeps | with_reducible apply State.put64_keeps | with_reducible apply State.stimFrames_keeps | with_reducible apply Keeps.cond | with_reducible apply Keeps.ite))

theorem State.stimMark_keeps {orig : State} (s : State) (c : Nat) (h_s : Keeps orig s) : Keeps orig (State.stimMark s c) := by
  unfold State.stimMark
  repeat' (first
    | with_reducible assumption
    | with_reducible apply State.raise_keeps
    | with_reducible apply State.put96_keeps
    | with_reducible apply Keeps.cond)

theorem State.seqStart_keeps {orig : State} (s : State) (c : Nat) (h_s : Keeps orig s) : Keeps orig (State.seqStart s c) := by
  unfold State.seqStart
  repeat' (first
    | with_reducible assumption
    | with_reducible apply State.setChn_keeps
    | with_reducible apply State.put_keeps)

theorem State.stimStart_keeps {orig : State} (s : State) (c : Nat) (tc : Nat) (h_s : Keeps orig s) : Keeps orig (State.stimStart s c tc) := by
  unfold State.stimStart
  repeat' (first
    | with_reducible assumption
    | with_reducible apply State.setChn_keeps
    | with_reducible apply State.put64_keeps
    | with_reducible apply State.stimMark_keeps
    | with_reducible apply State.stmTo_keeps
    | with_reducible apply State.seqStart_keeps)

theorem State.stimNext_keeps {orig : State} (s : State) (c : Nat) (h_s : Keeps orig s) : Keeps orig (State.stimNext s c) := by
  unfold State.stimNext
  repeat' (first
    | with_reducible assumption
    | with_reducible apply State.setChn_keeps
    | with_reducible apply State.stmTo_keeps
    | with_reducible apply State.put_keeps
    | with_reducible apply Keeps.cond)

theorem State.stimStop_keeps {orig : State} (s : State) (c : Nat) (h_s : Keeps orig s) : Keeps orig (State.stimStop s c) := by
  unfold State.stimStop
  repeat' (first
    | with_reducible assumption
    | with_reducible apply State.stmTo_keeps
    | with_reducible apply State.setChn_keeps
    | with_reducible apply Keeps.cond)

theorem execStimLaneTrained_keeps {orig : State} (c : Nat) (s : State) (h_s : Keeps orig s) : KeepsRes orig (execStimLaneTrained c s) := by
  unfold execStimLaneTrained
  repeat' (first
    | with_reducible assumption
    | with_reducible apply KeepsRes.next
    | with_reducible apply State.stmTo_keeps
    | with_reducible apply State.setChn_keeps
    | with_reducible apply Keeps.cond)

theorem execStimChannelStart_keeps {orig : State} (c : Nat) (s : State) (h_s : Keeps orig s) : KeepsRes orig (execStimChannelStart c s) := by
  unfold execStimChannelStart
  repeat' (first
    | with_reducible assumption
    | with_reducible apply KeepsRes.next
    | with_reducible apply State.stimStart_keeps
    | with_reducible apply Keeps.cond
    | split)

theorem State.stimHalt_keeps {orig : State} (s : State) (c : Nat) (h_s : Keeps orig s) : Keeps orig (State.stimHalt s c) := by
  unfold State.stimHalt
  repeat' (first
    | with_reducible assumption
    | with_reducible apply State.stimStop_keeps
    | with_reducible apply State.stimPlay_keeps
    | with_reducible apply Keeps.cond)

theorem State.stimWatch_keeps {orig : State} (s : State) (h_s : Keeps orig s) : Keeps orig (State.stimWatch s) := by
  unfold State.stimWatch
  repeat' (first
    | with_reducible assumption
    | intro x
    | with_reducible apply State.stimHalt_keeps
    | with_reducible apply Keeps.foldl)

theorem State.stimSleep_keeps {orig : State} (s : State) (h_s : Keeps orig s) : Keeps orig (State.stimSleep s) := by
  unfold State.stimSleep
  repeat' (first
    | with_reducible assumption
    | intro x
    | with_reducible apply State.stmTo_keeps
    | with_reducible apply State.stimStop_keeps
    | with_reducible apply Keeps.foldl)

theorem State.stimWake_keeps {orig : State} (s : State) (h_s : Keeps orig s) : Keeps orig (State.stimWake s) := by
  unfold State.stimWake
  repeat' (first
    | with_reducible assumption
    | intro x
    | with_reducible apply State.stmTo_keeps
    | with_reducible apply State.setChn_keeps
    | with_reducible apply Keeps.cond
    | with_reducible apply Keeps.foldl)

theorem State.stmDone_keeps {orig : State} (s : State) (h_s : Keeps orig s) : Keeps orig (State.stmDone s) := by
  unfold State.stmDone
  repeat' (first
    | with_reducible assumption
    | with_reducible apply State.swapDone_keeps
    | with_reducible apply State.ev_keeps
    | with_reducible apply State.flag_keeps
    | with_reducible apply State.swapWhere_keeps
    | with_reducible apply Keeps.cond)

theorem State.stimSwap_keeps {orig : State} (s : State) (c : Nat) (tc : Nat) (h_s : Keeps orig s) : Keeps orig (State.stimSwap s c tc) := by
  unfold State.stimSwap
  repeat' (first
    | with_reducible assumption
    | with_reducible apply State.swapWhere_keeps
    | with_reducible apply State.stimStop_keeps
    | with_reducible apply State.stmTo_keeps
    | with_reducible apply State.setChn_keeps
    | with_reducible apply State.seqStart_keeps
    | with_reducible apply State.stmDone_keeps
    | with_reducible apply Keeps.cond
    | (extract_lets +onlyGivenNames x; refine Keeps.via' (o := orig) (x := x) ?_ (fun hx => ?_); rotate_left; clear_value x; rotate_right; subst x)
    | (extract_lets +onlyGivenNames x; clear_value x)
    | (with_reducible apply Keeps.mk'; with_reducible assumption)
    | (with_reducible apply Keeps.mk'; first | with_reducible apply State.swapWhere_keeps | with_reducible apply State.stimStop_keeps | with_reducible apply State.stmTo_keeps | with_reducible apply State.setChn_keeps | with_reducible apply State.seqStart_keeps | with_reducible apply State.stmDone_keeps | with_reducible apply Keeps.cond))

end Sys2Proof.Machine
end

