-- ==== Sys2Proof/Laws/KeepsCalib.lean ====
section
/-!
SUPPORT. Every operation of Machine/Calib.lean keeps the canonical forms and the queue.
-/
namespace Sys2Proof.Machine

theorem State.calShow_keeps {orig : State} (s : State) (r : CalResult) (h_s : Keeps orig s) : Keeps orig (State.calShow s r) := by
  unfold State.calShow
  repeat' (first
    | with_reducible assumption
    | with_reducible apply State.flag_keeps
    | with_reducible apply State.put_keeps
    | with_reducible apply State.putI_keeps)

theorem State.writeGains_keeps {orig : State} (s : State) (n : Nat) (gs : List Nat) (h_s : Keeps orig s) : Keeps orig (State.writeGains s n gs) := by
  unfold State.writeGains
  repeat' (first
    | with_reducible assumption
    | intro x
    | with_reducible apply State.put_keeps
    | with_reducible apply Keeps.foldl)

theorem State.writeTable_keeps {orig : State} (s : State) (slot : Nat) (t : List Nat) (h_s : Keeps orig s) : Keeps orig (State.writeTable s slot t) := by
  unfold State.writeTable
  repeat' (first
    | with_reducible assumption
    | intro x
    | with_reducible apply State.put_keeps
    | with_reducible apply Keeps.foldl)

theorem State.calApply1_keeps {orig : State} (s : State) (op : Nat) (r : CalResult) (h_s : Keeps orig s) : Keeps orig (State.calApply1 s op r).1 := by
  unfold State.calApply1
  repeat' (first
    | with_reducible assumption
    | with_reducible apply State.putI_keeps
    | with_reducible apply State.writeGains_keeps
    | with_reducible apply State.trimsHeld_keeps
    | with_reducible apply State.put_keeps
    | with_reducible apply Keeps.cond
    | with_reducible apply Keeps.ite
    | with_reducible apply Keeps.cond_fst
    | with_reducible apply Keeps.ite_fst
    | (extract_lets +onlyGivenNames x; refine Keeps.via' (o := orig) (x := x) ?_ (fun hx => ?_); rotate_left; clear_value x; rotate_right; subst x)
    | (extract_lets +onlyGivenNames x; refine Keeps.via' (o := orig) (x := x.1) ?_ (fun hx => ?_); rotate_left; clear_value x; rotate_right; subst x)
    | (extract_lets +onlyGivenNames x; clear_value x)
    | split
    | (with_reducible apply Keeps.mk'; with_reducible assumption)
    | (with_reducible apply Keeps.mk'; first | with_reducible apply State.putI_keeps | with_reducible apply State.writeGains_keeps | with_reducible apply State.trimsHeld_keeps | with_reducible apply State.put_keeps | with_reducible apply Keeps.cond | with_reducible apply Keeps.ite))

theorem State.calApply_keeps {orig : State} (s : State) (op : Nat) (table : List Nat) (rs : List CalResult) (h_s : Keeps orig s) : Keeps orig (State.calApply s op table rs).1 := by
  unfold State.calApply
  repeat' (first
    | with_reducible assumption
    | intro x
    | with_reducible apply State.calApply1_keeps
    | with_reducible apply State.writeTable_keeps
    | with_reducible apply Keeps.cond_fst
    | with_reducible apply Keeps.foldl_fst)

theorem State.calEnd_keeps {orig : State} (s : State) (c : CalRun) (table : List Nat) (rs : List CalResult) (h_s : Keeps orig s) : Keeps orig (State.calEnd s c table rs) := by
  unfold State.calEnd
  repeat' (first
    | with_reducible assumption
    | intro x
    | with_reducible apply State.calApply_keeps
    | with_reducible apply State.calShow_keeps
    | with_reducible apply State.put_keeps
    | with_reducible apply State.flag_keeps
    | with_reducible apply State.ev_keeps
    | with_reducible apply Keeps.cond_fst
    | (extract_lets +onlyGivenNames x; clear_value x)
    | (with_reducible apply Keeps.mk'; with_reducible apply Keeps.foldl))

theorem State.calStop_keeps {orig : State} (s : State) (code : Nat) (h_s : Keeps orig s) : Keeps orig (State.calStop s code) := by
  unfold State.calStop
  repeat' (first
    | with_reducible assumption
    | with_reducible apply State.calEnd_keeps
    | split)

theorem State.calMode_keeps {orig : State} (s : State) (h_s : Keeps orig s) : Keeps orig (State.calMode s) := by
  unfold State.calMode
  repeat' (first
    | with_reducible assumption
    | with_reducible apply State.calStop_keeps)

theorem State.calStart_keeps {orig : State} (s : State) (op : Nat) (apply : Bool) (part : Bool) (h_s : Keeps orig s) : Keeps orig (State.calStart s op apply part) := by
  unfold State.calStart
  repeat' (first
    | with_reducible assumption
    | with_reducible apply State.bad_keeps
    | with_reducible apply State.flag_keeps
    | with_reducible apply State.put_keeps
    | with_reducible apply State.calStop_keeps
    | with_reducible apply Keeps.cond
    | (extract_lets +onlyGivenNames x; clear_value x)
    | split
    | (with_reducible apply Keeps.mk'; with_reducible assumption))

theorem execCalLane_keeps {orig : State} (apply : Bool) (part : Bool) (s : State) (h_s : Keeps orig s) : KeepsRes orig (execCalLane apply part s) := by
  unfold execCalLane
  repeat' (first
    | with_reducible assumption
    | with_reducible apply KeepsRes.next
    | with_reducible apply State.calStart_keeps)

theorem execCalAlign_keeps {orig : State} (apply : Bool) (part : Bool) (s : State) (h_s : Keeps orig s) : KeepsRes orig (execCalAlign apply part s) := by
  unfold execCalAlign
  repeat' (first
    | with_reducible assumption
    | with_reducible apply KeepsRes.next
    | with_reducible apply State.calStart_keeps)

theorem execCalGain_keeps {orig : State} (apply : Bool) (part : Bool) (s : State) (h_s : Keeps orig s) : KeepsRes orig (execCalGain apply part s) := by
  unfold execCalGain
  repeat' (first
    | with_reducible assumption
    | with_reducible apply KeepsRes.next
    | with_reducible apply State.calStart_keeps)

theorem execCalFlat_keeps {orig : State} (apply : Bool) (part : Bool) (s : State) (h_s : Keeps orig s) : KeepsRes orig (execCalFlat apply part s) := by
  unfold execCalFlat
  repeat' (first
    | with_reducible assumption
    | with_reducible apply KeepsRes.next
    | with_reducible apply State.calStart_keeps)

theorem execCalMonitor_keeps {orig : State} (apply : Bool) (part : Bool) (s : State) (h_s : Keeps orig s) : KeepsRes orig (execCalMonitor apply part s) := by
  unfold execCalMonitor
  repeat' (first
    | with_reducible assumption
    | with_reducible apply KeepsRes.next
    | with_reducible apply State.calStart_keeps)

theorem execCalAbort_keeps {orig : State} (s : State) (h_s : Keeps orig s) : KeepsRes orig (execCalAbort s) := by
  unfold execCalAbort
  repeat' (first
    | with_reducible assumption
    | with_reducible apply KeepsRes.next
    | with_reducible apply State.calStop_keeps)

theorem execCalApply_keeps {orig : State} (s : State) (h_s : Keeps orig s) : KeepsRes orig (execCalApply s) := by
  unfold execCalApply
  repeat' (first
    | with_reducible assumption
    | with_reducible apply KeepsRes.next
    | with_reducible apply State.bad_keeps
    | with_reducible apply State.calApply_keeps
    | with_reducible apply State.ev_keeps
    | with_reducible apply State.flag_keeps
    | with_reducible apply Keeps.cond
    | (extract_lets +onlyGivenNames x; refine Keeps.via' (o := orig) (x := x) ?_ (fun hx => ?_); rotate_left; clear_value x; rotate_right; subst x)
    | (extract_lets +onlyGivenNames x; clear_value x)
    | (with_reducible apply Keeps.mk'; with_reducible assumption))

theorem execCalSettleDone_keeps {orig : State} (s : State) (h_s : Keeps orig s) : KeepsRes orig (execCalSettleDone s) := by
  unfold execCalSettleDone
  repeat' (first
    | with_reducible assumption
    | intro x
    | with_reducible apply KeepsRes.next
    | with_reducible apply State.put_keeps
    | with_reducible apply State.laneFails_keeps
    | with_reducible apply State.laneAnew_keeps
    | with_reducible apply State.laneTo_keeps
    | with_reducible apply KeepsRes.cond
    | with_reducible apply KeepsRes.ite
    | with_reducible apply Keeps.cond
    | with_reducible apply Keeps.foldl
    | (extract_lets +onlyGivenNames x; refine Keeps.via' (o := orig) (x := x) ?_ (fun hx => ?_); rotate_left; clear_value x; rotate_right; subst x)
    | (extract_lets +onlyGivenNames x; clear_value x)
    | split
    | (with_reducible apply Keeps.mk'; with_reducible assumption)
    | (with_reducible apply Keeps.mk'; first | with_reducible apply State.put_keeps | with_reducible apply State.laneFails_keeps | with_reducible apply State.laneAnew_keeps | with_reducible apply State.laneTo_keeps | with_reducible apply Keeps.foldl | with_reducible apply Keeps.cond))

theorem State.laneSettle_keeps {orig : State} (s : State) (t : CalTarget) (r : CalResult) (h_s : Keeps orig s) : Keeps orig (State.laneSettle s t r) := by
  unfold State.laneSettle
  repeat' (first
    | with_reducible assumption
    | with_reducible apply State.setLane_keeps
    | with_reducible apply State.laneFails_keeps
    | with_reducible apply State.laneTo_keeps
    | with_reducible apply Keeps.cond)

theorem execCalRunEnd_keeps {orig : State} (eyes : List (Nat × Nat × Nat)) (readings : List (Nat × Nat × Nat)) (s : State) (h_s : Keeps orig s) : KeepsRes orig (execCalRunEnd eyes readings s) := by
  unfold execCalRunEnd
  repeat' (first
    | with_reducible assumption
    | intro x
    | with_reducible apply KeepsRes.next
    | with_reducible apply State.laneSettle_keeps
    | with_reducible apply State.calEnd_keeps
    | with_reducible apply KeepsRes.cond
    | with_reducible apply KeepsRes.ite
    | with_reducible apply Keeps.cond
    | with_reducible apply Keeps.cond_fst
    | with_reducible apply Keeps.ite_fst
    | with_reducible apply Keeps.foldl
    | with_reducible apply Keeps.foldl_fst
    | (extract_lets +onlyGivenNames x; refine Keeps.via' (o := orig) (x := x) ?_ (fun hx => ?_); rotate_left; clear_value x; rotate_right; subst x)
    | (extract_lets +onlyGivenNames x; refine Keeps.via' (o := orig) (x := x.1) ?_ (fun hx => ?_); rotate_left; clear_value x; rotate_right; subst x)
    | (extract_lets +onlyGivenNames x; clear_value x)
    | split
    | (with_reducible apply Keeps.mk'; with_reducible assumption)
    | (with_reducible apply Keeps.mk'; first | with_reducible apply State.laneSettle_keeps | with_reducible apply State.calEnd_keeps | with_reducible apply Keeps.foldl | with_reducible apply Keeps.cond))

theorem State.stimSwapCal_keeps {orig : State} (s : State) (c : Nat) (tc : Nat) (h_s : Keeps orig s) : Keeps orig (State.stimSwapCal s c tc) := by
  unfold State.stimSwapCal
  repeat' (first
    | with_reducible assumption
    | with_reducible apply State.stimSwap_keeps
    | with_reducible apply State.calStop_keeps
    | with_reducible apply Keeps.cond)

theorem State.stimTurn_keeps {orig : State} (s : State) (c : Nat) (h_s : Keeps orig s) : Keeps orig (State.stimTurn s c) := by
  unfold State.stimTurn
  repeat' (first
    | with_reducible assumption
    | with_reducible apply State.stimSwapCal_keeps
    | with_reducible apply State.stimMark_keeps
    | with_reducible apply Keeps.ite
    | split)

theorem execStimulusSwap_keeps {orig : State} (c : Nat) (s : State) (h_s : Keeps orig s) : KeepsRes orig (execStimulusSwap c s) := by
  unfold execStimulusSwap
  repeat' (first
    | with_reducible assumption
    | with_reducible apply KeepsRes.next
    | with_reducible apply State.stimTurn_keeps
    | with_reducible apply KeepsRes.cond
    | with_reducible apply KeepsRes.ite
    | with_reducible apply Keeps.cond)

theorem execSegmentBoundary_keeps {orig : State} (c : Nat) (missing : List Nat) (s : State) (h_s : Keeps orig s) : KeepsRes orig (execSegmentBoundary c missing s) := by
  unfold execSegmentBoundary
  repeat' (first
    | with_reducible assumption
    | with_reducible apply KeepsRes.next
    | with_reducible apply State.stimTurn_keeps
    | with_reducible apply State.stimPlay_keeps
    | with_reducible apply State.stimNext_keeps
    | with_reducible apply State.stimMark_keeps
    | with_reducible apply KeepsRes.cond
    | with_reducible apply KeepsRes.ite
    | with_reducible apply Keeps.cond
    | (extract_lets +onlyGivenNames x; refine Keeps.via' (o := orig) (x := x) ?_ (fun hx => ?_); rotate_left; clear_value x; rotate_right; subst x)
    | (extract_lets +onlyGivenNames x; clear_value x))

theorem State.stimCommit_keeps {orig : State} (s : State) (h_s : Keeps orig s) : Keeps orig (State.stimCommit s) := by
  unfold State.stimCommit
  repeat' (first
    | with_reducible assumption
    | intro x
    | with_reducible apply State.stimSwapCal_keeps
    | with_reducible apply Keeps.cond
    | with_reducible apply Keeps.foldl
    | (extract_lets +onlyGivenNames x; clear_value x)
    | (with_reducible apply Keeps.mk'; with_reducible assumption))

end Sys2Proof.Machine
end

