-- ==== Sys2Proof/Laws/KeepsLadder.lean ====
section
/-!
SUPPORT. Every operation of Machine/Ladder.lean keeps the canonical forms and the queue.
-/
namespace Sys2Proof.Machine

theorem State.orderStep_keeps {orig : State} (s : State) (st : Nat) (k : Nat) (h_s : Keeps orig s) : Keeps orig (State.orderStep s st k) := by
  unfold State.orderStep
  repeat' (first
    | with_reducible assumption
    | intro x
    | with_reducible apply Keeps.foldl
    | (extract_lets +onlyGivenNames x; clear_value x)
    | (with_reducible apply Keeps.mk'; with_reducible assumption))

theorem State.stepTo_keeps {orig : State} (s : State) (st : Nat) (k : Nat) (reason : Nat) (h_s : Keeps orig s) : Keeps orig (State.stepTo s st k reason) := by
  unfold State.stepTo
  repeat' (first
    | with_reducible assumption
    | with_reducible apply State.rateRecord_keeps
    | with_reducible apply State.put_keeps
    | with_reducible apply State.orderStep_keeps
    | with_reducible apply State.sendReliable_keeps
    | with_reducible apply Keeps.cond)

theorem State.evaluate_keeps {orig : State} (s : State) (st : Nat) (h_s : Keeps orig s) : Keeps orig (State.evaluate s st) := by
  unfold State.evaluate
  repeat' (first
    | with_reducible assumption
    | with_reducible apply State.rateRecord_keeps
    | with_reducible apply State.flag_keeps
    | with_reducible apply State.put_keeps
    | with_reducible apply State.ev_keeps
    | with_reducible apply State.stepTo_keeps
    | with_reducible apply State.setLadder_keeps
    | with_reducible apply Keeps.cond)

theorem execLadderEvaluation_keeps {orig : State} (s : State) (h_s : Keeps orig s) : KeepsRes orig (execLadderEvaluation s) := by
  unfold execLadderEvaluation
  repeat' (first
    | with_reducible assumption
    | intro x
    | with_reducible apply KeepsRes.next
    | with_reducible apply State.evaluate_keeps
    | with_reducible apply Keeps.cond
    | with_reducible apply Keeps.foldl)

theorem State.ladderReset_keeps {orig : State} (s : State) (st : Nat) (h_s : Keeps orig s) : Keeps orig (State.ladderReset s st) := by
  unfold State.ladderReset
  repeat' (first
    | with_reducible assumption
    | with_reducible apply State.setLadder_keeps
    | with_reducible apply State.put_keeps
    | with_reducible apply State.stepTo_keeps
    | with_reducible apply Keeps.cond)

end Sys2Proof.Machine
end

