-- ==== Sys2Proof/Laws/KeepsPlanes.lean ====
section
/-!
SUPPORT. Every operation of Machine/Planes.lean keeps the canonical forms and the queue.
-/
namespace Sys2Proof.Machine

theorem State.release1_keeps {orig : State} (s : State) (n : Nat) (h_s : Keeps orig s) : Keeps orig (State.release1 s n) := by
  unfold State.release1
  repeat' (first
    | with_reducible assumption
    | with_reducible apply State.releaseNext_keeps
    | with_reducible apply State.recTake_keeps
    | with_reducible apply State.releaseOne_keeps
    | with_reducible refine Keeps.of_pair ?_ (by assumption)
    | split)

theorem execSampleRelease_keeps {orig : State} (n : Nat) (s : State) (h_s : Keeps orig s) : KeepsRes orig (execSampleRelease n s) := by
  unfold execSampleRelease
  repeat' (first
    | with_reducible assumption
    | intro x
    | with_reducible apply KeepsRes.next
    | with_reducible apply State.dcSync_keeps
    | with_reducible apply State.release1_keeps
    | with_reducible apply Keeps.foldl)

theorem State.declareLate_keeps {orig : State} (s : State) (n : Nat) (l : List (FineChain × Nat)) (h_s : Keeps orig s) : Keeps orig (State.declareLate s n l) := by
  unfold State.declareLate
  repeat' (first
    | with_reducible assumption
    | intro x
    | with_reducible apply State.viewsLate_keeps
    | with_reducible apply Keeps.cond_fst
    | with_reducible apply Keeps.ite_fst
    | with_reducible apply Keeps.foldl
    | with_reducible apply Keeps.foldl_fst)

theorem State.mainTake_keeps {orig : State} (s : State) (n : Nat) (p : Spectrum) (h_s : Keeps orig s) : Keeps orig (State.mainTake s n p) := by
  unfold State.mainTake
  repeat' (first
    | with_reducible assumption
    | with_reducible apply State.fineTake_keeps
    | with_reducible apply State.declareLate_keeps
    | with_reducible apply State.viewsTake_keeps
    | with_reducible apply Keeps.cond_fst
    | with_reducible apply Keeps.ite_fst
    | (extract_lets +onlyGivenNames x; refine Keeps.via' (o := orig) (x := x) ?_ (fun hx => ?_); rotate_left; clear_value x; rotate_right; subst x)
    | (extract_lets +onlyGivenNames x; refine Keeps.via' (o := orig) (x := x.1) ?_ (fun hx => ?_); rotate_left; clear_value x; rotate_right; subst x)
    | (extract_lets +onlyGivenNames x; clear_value x))

theorem execCoarseVoidDeadline_keeps {orig : State} (n : Nat) (m : Nat) (s : State) (h_s : Keeps orig s) : KeepsRes orig (execCoarseVoidDeadline n m s) := by
  unfold execCoarseVoidDeadline
  repeat' (first
    | with_reducible assumption
    | with_reducible apply KeepsRes.next
    | with_reducible apply State.fineVoid_keeps
    | with_reducible apply State.declareLate_keeps
    | with_reducible apply KeepsRes.cond
    | with_reducible apply KeepsRes.ite
    | with_reducible apply Keeps.cond
    | with_reducible apply Keeps.cond_fst
    | with_reducible apply Keeps.ite_fst
    | (extract_lets +onlyGivenNames x; refine Keeps.via' (o := orig) (x := x) ?_ (fun hx => ?_); rotate_left; clear_value x; rotate_right; subst x)
    | (extract_lets +onlyGivenNames x; refine Keeps.via' (o := orig) (x := x.1) ?_ (fun hx => ?_); rotate_left; clear_value x; rotate_right; subst x)
    | (extract_lets +onlyGivenNames x; clear_value x))

theorem execCoarseSpectrum_keeps {orig : State} (n : Nat) (seam : Bool) (m : Nat) (s : State) (h_s : Keeps orig s) : KeepsRes orig (execCoarseSpectrum n seam m s) := by
  unfold execCoarseSpectrum
  repeat' (first
    | with_reducible assumption
    | with_reducible apply KeepsRes.next
    | with_reducible apply State.coarseDone_keeps
    | with_reducible apply State.seamLate_keeps
    | with_reducible apply State.mainTake_keeps
    | with_reducible apply KeepsRes.cond
    | with_reducible apply KeepsRes.ite
    | with_reducible apply Keeps.ite
    | (extract_lets +onlyGivenNames x; refine Keeps.via' (o := orig) (x := x) ?_ (fun hx => ?_); rotate_left; clear_value x; rotate_right; subst x)
    | (extract_lets +onlyGivenNames x; clear_value x)
    | split)

theorem State.sketchForm_keeps {orig : State} (s : State) (n : Nat) (m : Nat) (force : Bool) (h_s : Keeps orig s) : Keeps orig (State.sketchForm s n m force) := by
  unfold State.sketchForm
  repeat' (first
    | with_reducible assumption
    | with_reducible apply State.count_keeps
    | with_reducible apply State.deliverSpec_keeps
    | with_reducible apply State.viewsTake_keeps
    | with_reducible apply Keeps.cond
    | (extract_lets +onlyGivenNames x; refine Keeps.via' (o := orig) (x := x) ?_ (fun hx => ?_); rotate_left; clear_value x; rotate_right; subst x)
    | (extract_lets +onlyGivenNames x; clear_value x)
    | split)

theorem execSketchSpectrum_keeps {orig : State} (n : Nat) (m : Nat) (s : State) (h_s : Keeps orig s) : KeepsRes orig (execSketchSpectrum n m s) := by
  unfold execSketchSpectrum
  repeat' (first
    | with_reducible assumption
    | with_reducible apply KeepsRes.next
    | with_reducible apply State.sketchForm_keeps)

theorem execSketchDeadline_keeps {orig : State} (n : Nat) (m : Nat) (s : State) (h_s : Keeps orig s) : KeepsRes orig (execSketchDeadline n m s) := by
  unfold execSketchDeadline
  repeat' (first
    | with_reducible assumption
    | with_reducible apply KeepsRes.next
    | with_reducible apply State.sketchForm_keeps)

theorem State.fineProduce_keeps {orig : State} (s : State) (n : Nat) (c : FineChain) (g : Nat) (k : Nat) (cg : Nat) (h_s : Keeps orig s) : Keeps orig (State.fineProduce s n c g k cg) := by
  unfold State.fineProduce
  repeat' (first
    | with_reducible assumption
    | with_reducible apply State.pushFine_keeps
    | with_reducible apply State.count_keeps
    | with_reducible apply State.viewsFine_keeps
    | with_reducible apply Keeps.cond
    | (extract_lets +onlyGivenNames x; refine Keeps.via' (o := orig) (x := x) ?_ (fun hx => ?_); rotate_left; clear_value x; rotate_right; subst x)
    | (extract_lets +onlyGivenNames x; clear_value x)
    | split)

theorem execFineSpectrum_keeps {orig : State} (n : Nat) (mf : Nat) (k : Nat) (s : State) (h_s : Keeps orig s) : KeepsRes orig (execFineSpectrum n mf k s) := by
  unfold execFineSpectrum
  repeat' (first
    | with_reducible assumption
    | intro x
    | with_reducible apply KeepsRes.next
    | with_reducible apply State.findLost_keeps
    | with_reducible apply State.fineProduce_keeps
    | with_reducible apply State.setChains_keeps
    | with_reducible apply State.finePrune_keeps
    | with_reducible apply KeepsRes.cond
    | with_reducible apply KeepsRes.ite
    | with_reducible apply Keeps.ite
    | with_reducible apply Keeps.cond_fst
    | with_reducible apply Keeps.ite_fst
    | with_reducible apply Keeps.foldl
    | with_reducible apply Keeps.foldl_fst
    | (extract_lets +onlyGivenNames x; refine Keeps.via' (o := orig) (x := x) ?_ (fun hx => ?_); rotate_left; clear_value x; rotate_right; subst x)
    | (extract_lets +onlyGivenNames x; refine Keeps.via' (o := orig) (x := x.1) ?_ (fun hx => ?_); rotate_left; clear_value x; rotate_right; subst x)
    | (extract_lets +onlyGivenNames x; clear_value x)
    | split)

theorem State.tunDeliver_keeps {orig : State} (s : State) (t : Nat) (c : TunSet) (j0 : Nat) (o : TunOut) (sat : Nat) (h_s : Keeps orig s) : Keeps orig (State.tunDeliver s t c j0 o sat) := by
  unfold State.tunDeliver
  repeat' (first
    | with_reducible assumption
    | with_reducible apply State.tunSat_keeps
    | with_reducible apply State.setTuner_keeps
    | with_reducible apply State.viewsTuner_keeps
    | with_reducible apply Keeps.cond
    | (extract_lets +onlyGivenNames x; refine Keeps.via' (o := orig) (x := x) ?_ (fun hx => ?_); rotate_left; clear_value x; rotate_right; subst x)
    | (extract_lets +onlyGivenNames x; clear_value x)
    | (with_reducible apply Keeps.mk'; with_reducible assumption)
    | (with_reducible apply Keeps.mk'; first | with_reducible apply State.tunSat_keeps | with_reducible apply State.setTuner_keeps | with_reducible apply State.viewsTuner_keeps | with_reducible apply Keeps.cond))

theorem State.tunNext_keeps {orig : State} (s : State) (t : Nat) (old : Bool) (ch : Chain) (h_s : Keeps orig s) : Keeps orig (State.tunNext s t old ch) := by
  unfold State.tunNext
  repeat' (first
    | with_reducible assumption
    | with_reducible apply State.tunDeliver_keeps
    | with_reducible apply State.streamTake_keeps
    | (extract_lets +onlyGivenNames x; refine Keeps.via' (o := orig) (x := x) ?_ (fun hx => ?_); rotate_left; clear_value x; rotate_right; subst x)
    | (extract_lets +onlyGivenNames x; clear_value x)
    | split
    | (with_reducible apply Keeps.mk'; with_reducible assumption)
    | (with_reducible apply Keeps.mk'; first | with_reducible apply State.tunDeliver_keeps | with_reducible apply State.streamTake_keeps))

theorem State.oldEnds_keeps {orig : State} (s : State) (t : Nat) (h_s : Keeps orig s) : Keeps orig (State.oldEnds s t) := by
  unfold State.oldEnds
  repeat' (first
    | with_reducible assumption
    | with_reducible apply State.setTuner_keeps
    | with_reducible apply State.tunSwapped_keeps
    | with_reducible apply State.put_keeps
    | with_reducible apply Keeps.ite)

theorem State.oldOutput_keeps {orig : State} (s : State) (t : Nat) (ch : Chain) (h_s : Keeps orig s) : Keeps orig (State.oldOutput s t ch) := by
  unfold State.oldOutput
  repeat' (first
    | with_reducible assumption
    | with_reducible apply State.oldEnds_keeps
    | with_reducible apply State.tunNext_keeps
    | with_reducible apply Keeps.ite
    | split)

theorem State.chainOutput_keeps {orig : State} (s : State) (t : Nat) (ch : Chain) (h_s : Keeps orig s) : Keeps orig (State.chainOutput s t ch) := by
  unfold State.chainOutput
  repeat' (first
    | with_reducible assumption
    | with_reducible apply State.tunNext_keeps
    | with_reducible apply State.put_keeps
    | with_reducible apply Keeps.cond
    | with_reducible apply Keeps.ite
    | (extract_lets +onlyGivenNames x; refine Keeps.via' (o := orig) (x := x) ?_ (fun hx => ?_); rotate_left; clear_value x; rotate_right; subst x)
    | (extract_lets +onlyGivenNames x; clear_value x)
    | split)

theorem execTunerOutput_keeps {orig : State} (t : Nat) (s : State) (h_s : Keeps orig s) : KeepsRes orig (execTunerOutput t s) := by
  unfold execTunerOutput
  repeat' (first
    | with_reducible assumption
    | with_reducible apply KeepsRes.next
    | with_reducible apply State.oldOutput_keeps
    | with_reducible apply State.chainOutput_keeps
    | with_reducible apply State.oldEnds_keeps
    | with_reducible apply Keeps.ite
    | split)

theorem State.recordOut_keeps {orig : State} (s : State) (v : Nat) (x : Nat) (c : Interval) (h_s : Keeps orig s) : Keeps orig (State.recordOut s v x c) := by
  unfold State.recordOut
  repeat' (first
    | with_reducible assumption
    | with_reducible apply State.formRecord_keeps
    | with_reducible apply State.canvasTake_keeps
    | with_reducible apply Keeps.cond)

theorem execDetectorRecordClose_keeps {orig : State} (v : Nat) (x : Nat) (s : State) (h_s : Keeps orig s) : KeepsRes orig (execDetectorRecordClose v x s) := by
  unfold execDetectorRecordClose
  repeat' (first
    | with_reducible assumption
    | with_reducible apply KeepsRes.next
    | with_reducible apply State.setVin_keeps
    | with_reducible apply State.recordOut_keeps
    | with_reducible apply Keeps.ite
    | split)

theorem execSketchRecordHoldEnd_keeps {orig : State} (v : Nat) (x : Nat) (s : State) (h_s : Keeps orig s) : KeepsRes orig (execSketchRecordHoldEnd v x s) := by
  unfold execSketchRecordHoldEnd
  repeat' (first
    | with_reducible assumption
    | with_reducible apply KeepsRes.next
    | with_reducible apply State.recordOut_keeps
    | with_reducible apply State.setVin_keeps
    | split)

theorem State.recordsOut_keeps {orig : State} (s : State) (h_s : Keeps orig s) : Keeps orig (State.recordsOut s) := by
  unfold State.recordsOut
  repeat' (first
    | with_reducible assumption
    | intro x
    | with_reducible apply State.setVin_keeps
    | with_reducible apply State.recordOut_keeps
    | with_reducible apply Keeps.foldl)

end Sys2Proof.Machine
end

