-- ==== Sys2Proof/Laws/KeepsDisk.lean ====
section
/-!
SUPPORT. Every operation of Machine/Disk.lean keeps the canonical forms and the queue.
-/
namespace Sys2Proof.Machine

theorem State.setDisk_keeps {orig : State} (s : State) (d : Disk) (h_s : Keeps orig s) : Keeps orig (State.setDisk s d) := by
  unfold State.setDisk
  repeat' (first
    | (extract_lets +onlyGivenNames x; clear_value x)
    | (with_reducible apply Keeps.mk'; with_reducible assumption))

theorem State.dskTo_keeps {orig : State} (s : State) (v : Nat) (h_s : Keeps orig s) : Keeps orig (State.dskTo s v) := by
  unfold State.dskTo
  repeat' (first
    | with_reducible assumption
    | with_reducible apply State.ev_keeps
    | with_reducible apply State.put_keeps
    | with_reducible apply Keeps.cond)

theorem State.logicalWrite_keeps {orig : State} (d : DiskSet) (fua : Bool) (y0 : Nat) (y1 : Nat) (y2 : List Byte) (y3 : State) (h_y3 : Keeps orig y3) : Keeps orig (State.logicalWrite d fua y0 y1 y2 y3) := by
  induction y0 generalizing y1 y2 y3 with
  | zero =>
  rw [State.logicalWrite]
  repeat' (first
    | with_reducible assumption
    | with_reducible apply State.emit_keeps
    | with_reducible apply Keeps.ite
    | (extract_lets +onlyGivenNames x; refine Keeps.via' (o := orig) (x := x) ?_ (fun hx => ?_); rotate_left; clear_value x; rotate_right; subst x)
    | (extract_lets +onlyGivenNames x; clear_value x)
    | split)
  | succ k ih =>
  rw [State.logicalWrite]
  repeat' (first
    | with_reducible assumption
    | with_reducible apply ih
    | with_reducible apply State.emit_keeps
    | with_reducible apply Keeps.ite
    | (extract_lets +onlyGivenNames x; refine Keeps.via' (o := orig) (x := x) ?_ (fun hx => ?_); rotate_left; clear_value x; rotate_right; subst x)
    | (extract_lets +onlyGivenNames x; clear_value x)
    | split)

theorem State.putLogical_keeps {orig : State} (s : State) (d : DiskSet) (fua : Bool) (b : Nat) (data : List Byte) (h_s : Keeps orig s) : Keeps orig (State.putLogical s d fua b data) := by
  unfold State.putLogical
  repeat' (first
    | with_reducible assumption
    | with_reducible apply State.logicalWrite_keeps)

theorem State.setExtent_keeps {orig : State} (s : State) (k : Nat) (e : Extent) (h_s : Keeps orig s) : Keeps orig (State.setExtent s k e) := by
  unfold State.setExtent
  repeat' (first
    | with_reducible assumption
    | with_reducible apply State.setDisk_keeps)

theorem State.freeSync_keeps {orig : State} (s : State) (h_s : Keeps orig s) : Keeps orig (State.freeSync s) := by
  unfold State.freeSync
  repeat' (first
    | with_reducible assumption
    | with_reducible apply State.put_keeps
    | split)

theorem State.journal_keeps {orig : State} (s : State) (kind : Nat) (k : Nat) (e : Extent) (h_s : Keeps orig s) : Keeps orig (State.journal s kind k e) := by
  unfold State.journal
  repeat' (first
    | with_reducible assumption
    | with_reducible apply State.setExtent_keeps
    | with_reducible apply State.freeSync_keeps
    | with_reducible apply State.setDisk_keeps)

theorem State.flight_keeps {orig : State} (s : State) (w : DiskWrite) (h_s : Keeps orig s) : Keeps orig (State.flight s w) := by
  unfold State.flight
  repeat' (first
    | with_reducible assumption
    | with_reducible apply State.setDisk_keeps)

theorem State.journalDurable_keeps {orig : State} (s : State) (i : Nat) (l : List JEntry) (h_s : Keeps orig s) : Keeps orig (State.journalDurable s i l) := by
  unfold State.journalDurable
  repeat' (first
    | with_reducible assumption
    | intro x
    | with_reducible apply State.setDisk_keeps
    | with_reducible apply State.put_keeps
    | with_reducible apply Keeps.cond
    | with_reducible apply Keeps.foldl)

theorem State.tableWrites_keeps {orig : State} (s : State) (set : DiskSet) (i : Nat) (l : List JEntry) (h_s : Keeps orig s) : Keeps orig (State.tableWrites s set i l) := by
  unfold State.tableWrites
  repeat' (first
    | with_reducible assumption
    | intro x
    | with_reducible apply State.putLogical_keeps
    | with_reducible apply State.flight_keeps
    | with_reducible apply Keeps.foldl)

theorem State.journalIssue_keeps {orig : State} (s : State) (set : DiskSet) (h_s : Keeps orig s) : Keeps orig (State.journalIssue s set) := by
  unfold State.journalIssue
  repeat' (first
    | with_reducible assumption
    | with_reducible apply State.emit_keeps
    | with_reducible apply State.putLogical_keeps
    | with_reducible apply State.setDisk_keeps
    | with_reducible apply State.flight_keeps
    | with_reducible apply Keeps.cond)

theorem execJournalWrite_keeps {orig : State} (s : State) (h_s : Keeps orig s) : KeepsRes orig (execJournalWrite s) := by
  unfold execJournalWrite
  repeat' (first
    | with_reducible assumption
    | with_reducible apply KeepsRes.next
    | with_reducible apply State.journalIssue_keeps
    | with_reducible apply Keeps.cond
    | (extract_lets +onlyGivenNames x; clear_value x)
    | split)

theorem State.openExtent_keeps {orig : State} (s : State) (st : Nat) (k : Nat) (h_s : Keeps orig s) : Keeps orig (State.openExtent s st k) := by
  unfold State.openExtent
  repeat' (first
    | with_reducible assumption
    | with_reducible apply State.journal_keeps
    | with_reducible apply State.setStream_keeps
    | with_reducible apply Keeps.cond)

theorem State.nextExtent_keeps {orig : State} (s : State) (set : DiskSet) (st : Nat) (h_s : Keeps orig s) : Keeps orig (State.nextExtent s set st) := by
  unfold State.nextExtent
  repeat' (first
    | with_reducible assumption
    | with_reducible apply State.count_keeps
    | with_reducible apply State.openExtent_keeps
    | with_reducible apply State.diskFull_keeps
    | with_reducible apply Keeps.cond
    | (extract_lets +onlyGivenNames x; refine Keeps.via' (o := orig) (x := x) ?_ (fun hx => ?_); rotate_left; clear_value x; rotate_right; subst x)
    | (extract_lets +onlyGivenNames x; clear_value x)
    | split)

theorem State.dataWrite_keeps {orig : State} (s : State) (set : DiskSet) (st : Nat) (n : Nat) (pad : Bool) (h_s : Keeps orig s) : Keeps orig (State.dataWrite s set st n pad) := by
  unfold State.dataWrite
  repeat' (first
    | with_reducible assumption
    | with_reducible apply State.setStream_keeps
    | with_reducible apply State.putLogical_keeps
    | with_reducible apply State.flight_keeps
    | (extract_lets +onlyGivenNames x; clear_value x)
    | split)

theorem State.seal_keeps {orig : State} (s : State) (st : Nat) (h_s : Keeps orig s) : Keeps orig (State.seal s st) := by
  unfold State.seal
  repeat' (first
    | with_reducible assumption
    | with_reducible apply State.setStream_keeps
    | with_reducible apply State.journal_keeps
    | (extract_lets +onlyGivenNames x; refine Keeps.via' (o := orig) (x := x) ?_ (fun hx => ?_); rotate_left; clear_value x; rotate_right; subst x)
    | (extract_lets +onlyGivenNames x; clear_value x)
    | split)

theorem execDiskDataWrite_keeps {orig : State} (st : Nat) (due : Bool) (bad : List BadWord) (s : State) (h_s : Keeps orig s) : KeepsRes orig (execDiskDataWrite st due bad s) := by
  unfold execDiskDataWrite
  repeat' (first
    | with_reducible assumption
    | intro x
    | with_reducible apply KeepsRes.next
    | with_reducible apply State.checkHead_keeps
    | with_reducible apply State.nextExtent_keeps
    | with_reducible apply State.dataWrite_keeps
    | with_reducible apply State.seal_keeps
    | with_reducible apply KeepsRes.cond
    | with_reducible apply KeepsRes.ite
    | with_reducible apply Keeps.cond
    | with_reducible apply Keeps.cond_fst
    | with_reducible apply Keeps.ite_fst
    | (extract_lets +onlyGivenNames x; refine Keeps.via' (o := orig) (x := x) ?_ (fun hx => ?_); rotate_left; clear_value x; rotate_right; subst x)
    | (extract_lets +onlyGivenNames x; refine Keeps.via' (o := orig) (x := x.1) ?_ (fun hx => ?_); rotate_left; clear_value x; rotate_right; subst x)
    | (extract_lets +onlyGivenNames x; clear_value x)
    | split)

theorem State.settled_keeps {orig : State} (s : State) (set : DiskSet) (w : DiskWrite) (h_s : Keeps orig s) : Keeps orig (State.settled s set w) := by
  unfold State.settled
  repeat' (first
    | with_reducible assumption
    | intro x
    | with_reducible apply State.setStream_keeps
    | with_reducible apply State.dequeue_keeps
    | with_reducible apply State.tableWrites_keeps
    | with_reducible apply State.journalDurable_keeps
    | with_reducible apply State.setDisk_keeps
    | with_reducible apply Keeps.cond
    | with_reducible apply Keeps.foldl
    | (extract_lets +onlyGivenNames x; clear_value x)
    | split)

theorem State.settleAll_keeps {orig : State} (set : DiskSet) (y1 : Nat) (y2 : State) (h_y2 : Keeps orig y2) : Keeps orig (State.settleAll set y1 y2) := by
  induction y1 generalizing set y2 with
  | zero =>
  rw [State.settleAll]
  repeat' (first
    | with_reducible assumption
    | with_reducible apply State.settled_keeps
    | with_reducible apply State.setDisk_keeps
    | (extract_lets +onlyGivenNames x; clear_value x)
    | split)
  | succ k ih =>
  rw [State.settleAll]
  repeat' (first
    | with_reducible assumption
    | with_reducible apply State.settled_keeps
    | with_reducible apply ih
    | with_reducible apply State.setDisk_keeps
    | (extract_lets +onlyGivenNames x; clear_value x)
    | split)

theorem execDiskWriteComplete_keeps {orig : State} (id : Nat) (s : State) (h_s : Keeps orig s) : KeepsRes orig (execDiskWriteComplete id s) := by
  unfold execDiskWriteComplete
  repeat' (first
    | with_reducible assumption
    | with_reducible apply KeepsRes.next
    | with_reducible apply State.setDisk_keeps
    | with_reducible apply State.settleAll_keeps
    | with_reducible apply Keeps.cond
    | (extract_lets +onlyGivenNames x; refine Keeps.via' (o := orig) (x := x) ?_ (fun hx => ?_); rotate_left; clear_value x; rotate_right; subst x)
    | (extract_lets +onlyGivenNames x; clear_value x)
    | split)

theorem execDiskCheckpoint_keeps {orig : State} (s : State) (h_s : Keeps orig s) : KeepsRes orig (execDiskCheckpoint s) := by
  unfold execDiskCheckpoint
  repeat' (first
    | with_reducible assumption
    | intro x
    | with_reducible apply KeepsRes.next
    | with_reducible apply State.setStream_keeps
    | with_reducible apply State.journal_keeps
    | with_reducible apply State.setDisk_keeps
    | with_reducible apply Keeps.cond
    | with_reducible apply Keeps.foldl
    | (extract_lets +onlyGivenNames x; clear_value x)
    | split)

theorem State.dskEnd_keeps {orig : State} (s : State) (st : Nat) (h_s : Keeps orig s) : Keeps orig (State.dskEnd s st) := by
  unfold State.dskEnd
  repeat' (first
    | with_reducible assumption
    | with_reducible apply State.setDisk_keeps
    | with_reducible apply State.ev_keeps
    | with_reducible apply State.put_keeps
    | with_reducible apply State.flag_keeps)

theorem State.dskCmd_keeps {orig : State} (s : State) (op : Nat) (permitted : List Nat) (h_s : Keeps orig s) : Keeps orig (State.dskCmd s op permitted) := by
  unfold State.dskCmd
  repeat' (first
    | with_reducible assumption
    | with_reducible apply State.bad_keeps
    | with_reducible apply State.flag_keeps
    | with_reducible apply State.setDisk_keeps
    | with_reducible apply State.dskTo_keeps
    | with_reducible apply State.dskEnd_keeps
    | with_reducible apply Keeps.cond)

theorem execDiskAttach_keeps {orig : State} (s : State) (h_s : Keeps orig s) : KeepsRes orig (execDiskAttach s) := by
  unfold execDiskAttach
  repeat' (first
    | with_reducible assumption
    | with_reducible apply KeepsRes.next
    | with_reducible apply State.dskCmd_keeps)

theorem execDiskFormat_keeps {orig : State} (s : State) (h_s : Keeps orig s) : KeepsRes orig (execDiskFormat s) := by
  unfold execDiskFormat
  repeat' (first
    | with_reducible assumption
    | with_reducible apply KeepsRes.next
    | with_reducible apply State.dskCmd_keeps)

theorem execDiskDetach_keeps {orig : State} (s : State) (h_s : Keeps orig s) : KeepsRes orig (execDiskDetach s) := by
  unfold execDiskDetach
  repeat' (first
    | with_reducible assumption
    | with_reducible apply KeepsRes.next
    | with_reducible apply State.dskCmd_keeps)

theorem execDiskKeep_keeps {orig : State} (s : State) (h_s : Keeps orig s) : KeepsRes orig (execDiskKeep s) := by
  unfold execDiskKeep
  repeat' (first
    | with_reducible assumption
    | with_reducible apply KeepsRes.next
    | with_reducible apply State.dskCmd_keeps)

theorem execDiskFree_keeps {orig : State} (s : State) (h_s : Keeps orig s) : KeepsRes orig (execDiskFree s) := by
  unfold execDiskFree
  repeat' (first
    | with_reducible assumption
    | with_reducible apply KeepsRes.next
    | with_reducible apply State.dskCmd_keeps)

theorem execDiskRead_keeps {orig : State} (s : State) (h_s : Keeps orig s) : KeepsRes orig (execDiskRead s) := by
  unfold execDiskRead
  repeat' (first
    | with_reducible assumption
    | with_reducible apply KeepsRes.next
    | with_reducible apply State.dskCmd_keeps)

theorem State.journalFlush_keeps {orig : State} (set : DiskSet) (y1 : Nat) (y2 : State) (h_y2 : Keeps orig y2) : Keeps orig (State.journalFlush set y1 y2) := by
  induction y1 generalizing set y2 with
  | zero =>
  rw [State.journalFlush]
  repeat' (first
    | with_reducible assumption
    | with_reducible apply State.journalIssue_keeps
    | with_reducible apply State.setDisk_keeps
    | with_reducible apply State.settleAll_keeps
    | with_reducible apply Keeps.ite)
  | succ k ih =>
  rw [State.journalFlush]
  repeat' (first
    | with_reducible assumption
    | with_reducible apply State.journalIssue_keeps
    | with_reducible apply ih
    | with_reducible apply State.setDisk_keeps
    | with_reducible apply State.settleAll_keeps
    | with_reducible apply Keeps.ite)

theorem State.diskRelease_keeps {orig : State} (s : State) (h_s : Keeps orig s) : Keeps orig (State.diskRelease s) := by
  unfold State.diskRelease
  repeat' (first
    | with_reducible assumption
    | intro x
    | with_reducible apply State.setStream_keeps
    | with_reducible apply State.setDisk_keeps
    | with_reducible apply State.put_keeps
    | with_reducible apply State.dskTo_keeps
    | with_reducible apply Keeps.foldl)

theorem State.diskDetach_keeps {orig : State} (s : State) (h_s : Keeps orig s) : Keeps orig (State.diskDetach s) := by
  unfold State.diskDetach
  repeat' (first
    | with_reducible assumption
    | intro x
    | with_reducible apply State.diskRelease_keeps
    | with_reducible apply State.seal_keeps
    | with_reducible apply State.journalFlush_keeps
    | with_reducible apply State.emit_keeps
    | with_reducible apply Keeps.cond
    | with_reducible apply Keeps.foldl
    | (extract_lets +onlyGivenNames x; refine Keeps.via' (o := orig) (x := x) ?_ (fun hx => ?_); rotate_left; clear_value x; rotate_right; subst x)
    | split)

theorem State.showDrives_keeps {orig : State} (s : State) (l : List DriveFound) (h_s : Keeps orig s) : Keeps orig (State.showDrives s l) := by
  unfold State.showDrives
  repeat' (first
    | with_reducible assumption
    | intro x
    | with_reducible apply State.put_keeps
    | with_reducible apply Keeps.foldl)

theorem State.useSet_keeps {orig : State} (s : State) (set : DiskSet) (vwc : Bool) (next : Nat) (h_s : Keeps orig s) : Keeps orig (State.useSet s set vwc next) := by
  unfold State.useSet
  repeat' (first
    | with_reducible assumption
    | with_reducible apply State.setDisk_keeps
    | with_reducible apply State.freeSync_keeps
    | with_reducible apply State.put_keeps)

theorem State.diskFormat_keeps {orig : State} (s : State) (args : List Nat) (found : List DriveFound) (h_s : Keeps orig s) : Keeps orig (State.diskFormat s args found) := by
  unfold State.diskFormat
  repeat' (first
    | with_reducible assumption
    | intro x
    | with_reducible apply State.showDrives_keeps
    | with_reducible apply State.dskEnd_keeps
    | with_reducible apply State.emit_keeps
    | with_reducible apply State.put_keeps
    | with_reducible apply State.putLogical_keeps
    | with_reducible apply State.useSet_keeps
    | with_reducible apply State.dskTo_keeps
    | with_reducible apply State.diskFullEnd_keeps
    | with_reducible apply Keeps.cond
    | with_reducible apply Keeps.ite
    | with_reducible apply Keeps.foldl
    | (extract_lets +onlyGivenNames x; refine Keeps.via' (o := orig) (x := x) ?_ (fun hx => ?_); rotate_left; clear_value x; rotate_right; subst x)
    | (extract_lets +onlyGivenNames x; clear_value x)
    | split)

theorem State.diskRecover_keeps {orig : State} (s : State) (set : DiskSet) (found : DiskFound) (h_s : Keeps orig s) : Keeps orig (State.diskRecover s set found) := by
  unfold State.diskRecover
  repeat' (first
    | with_reducible assumption
    | intro x
    | with_reducible apply State.useSet_keeps
    | with_reducible apply State.setDisk_keeps
    | with_reducible apply State.journal_keeps
    | with_reducible apply State.journalFlush_keeps
    | with_reducible apply State.freeSync_keeps
    | with_reducible apply Keeps.cond
    | with_reducible apply Keeps.foldl)

theorem State.diskAttach_keeps {orig : State} (s : State) (found : DiskFound) (h_s : Keeps orig s) : Keeps orig (State.diskAttach s found) := by
  unfold State.diskAttach
  repeat' (first
    | with_reducible assumption
    | intro x
    | with_reducible apply State.showDrives_keeps
    | with_reducible apply State.dskTo_keeps
    | with_reducible apply State.dskEnd_keeps
    | with_reducible apply State.diskRecover_keeps
    | with_reducible apply State.diskFullEnd_keeps
    | with_reducible apply Keeps.cond
    | with_reducible apply Keeps.cond_fst
    | with_reducible apply Keeps.ite_fst
    | (extract_lets +onlyGivenNames x; refine Keeps.via' (o := orig) (x := x) ?_ (fun hx => ?_); rotate_left; clear_value x; rotate_right; subst x)
    | (extract_lets +onlyGivenNames x; refine Keeps.via' (o := orig) (x := x.1) ?_ (fun hx => ?_); rotate_left; clear_value x; rotate_right; subst x)
    | (extract_lets +onlyGivenNames x; clear_value x)
    | split)

theorem State.diskKeep_keeps {orig : State} (s : State) (k : Nat) (h_s : Keeps orig s) : Keeps orig (State.diskKeep s k) := by
  unfold State.diskKeep
  repeat' (first
    | with_reducible assumption
    | with_reducible apply State.seal_keeps
    | with_reducible apply State.dskEnd_keeps
    | with_reducible apply State.journal_keeps
    | split)

theorem State.diskFree_keeps {orig : State} (s : State) (k : Nat) (h_s : Keeps orig s) : Keeps orig (State.diskFree s k) := by
  unfold State.diskFree
  repeat' (first
    | with_reducible assumption
    | with_reducible apply State.journal_keeps
    | with_reducible apply State.diskFullEnd_keeps
    | with_reducible apply State.dskTo_keeps
    | with_reducible apply State.dskEnd_keeps
    | with_reducible apply Keeps.cond)

theorem State.diskReadOut_keeps {orig : State} (s : State) (set : DiskSet) (args : List Nat) (data : List Byte) (h_s : Keeps orig s) : Keeps orig (State.diskReadOut s set args data) := by
  unfold State.diskReadOut
  repeat' (first
    | with_reducible assumption
    | with_reducible apply State.dskEnd_keeps
    | with_reducible apply State.emit_keeps
    | with_reducible apply Keeps.cond)

theorem execDiskCommandDone_keeps {orig : State} (found : DiskFound) (s : State) (h_s : Keeps orig s) : KeepsRes orig (execDiskCommandDone found s) := by
  unfold execDiskCommandDone
  repeat' (first
    | with_reducible assumption
    | with_reducible apply KeepsRes.next
    | with_reducible apply State.dskEnd_keeps
    | with_reducible apply State.dskTo_keeps
    | with_reducible apply State.diskAttach_keeps
    | with_reducible apply State.diskFormat_keeps
    | with_reducible apply State.diskDetach_keeps
    | with_reducible apply State.diskReadOut_keeps
    | with_reducible apply State.diskKeep_keeps
    | with_reducible apply State.diskFree_keeps
    | with_reducible apply Keeps.cond
    | split)

theorem execDiskDriveFail_keeps {orig : State} (d : Nat) (s : State) (h_s : Keeps orig s) : KeepsRes orig (execDiskDriveFail d s) := by
  unfold execDiskDriveFail
  repeat' (first
    | with_reducible assumption
    | with_reducible apply KeepsRes.next
    | with_reducible apply State.put_keeps
    | with_reducible apply State.ev_keeps
    | with_reducible apply State.dskTo_keeps
    | with_reducible apply Keeps.cond
    | (extract_lets +onlyGivenNames x; refine Keeps.via' (o := orig) (x := x) ?_ (fun hx => ?_); rotate_left; clear_value x; rotate_right; subst x)
    | split)

end Sys2Proof.Machine
end

