-- ==== Sys2Proof/Laws/KeepsNet.lean ====
section
/-!
SUPPORT. Every operation of Machine/Net.lean keeps the canonical forms and the queue.
-/
namespace Sys2Proof.Machine

theorem State.setStrPort_keeps {orig : State} (s : State) (p : Nat) (x : StrPort) (h_s : Keeps orig s) : Keeps orig (State.setStrPort s p x) := by
  unfold State.setStrPort
  repeat' (first
    | (extract_lets +onlyGivenNames x; clear_value x)
    | (with_reducible apply Keeps.mk'; with_reducible assumption))

theorem State.sendUdp_keeps {orig : State} (s : State) (p : Nat) (i : Nat) (d : Nat) (payload : List Byte) (h_s : Keeps orig s) : Keeps orig (State.sendUdp s p i d payload) := by
  unfold State.sendUdp
  repeat' (first
    | with_reducible assumption
    | with_reducible apply State.took_keeps
    | with_reducible apply State.emit_keeps)

theorem State.sendDatagram_keeps {orig : State} (s : State) (p : Nat) (st : Nat) (l : List QRec) (alone : Bool) (h_s : Keeps orig s) : Keeps orig (State.sendDatagram s p st l alone) := by
  unfold State.sendDatagram
  repeat' (first
    | with_reducible assumption
    | intro x
    | with_reducible apply State.sendUdp_keeps
    | with_reducible apply State.dequeue_keeps
    | with_reducible apply State.setStream_keeps
    | with_reducible apply Keeps.cond
    | with_reducible apply Keeps.foldl
    | (extract_lets +onlyGivenNames x; refine Keeps.via' (o := orig) (x := x) ?_ (fun hx => ?_); rotate_left; clear_value x; rotate_right; subst x)
    | (extract_lets +onlyGivenNames x; clear_value x)
    | split)

theorem execDatagramSend_keeps {orig : State} (port : Nat) (due : List Nat) (bad : List BadWord) (s : State) (h_s : Keeps orig s) : KeepsRes orig (execDatagramSend port due bad s) := by
  unfold execDatagramSend
  repeat' (first
    | with_reducible assumption
    | intro x
    | with_reducible apply KeepsRes.next
    | with_reducible apply State.checkHead_keeps
    | with_reducible apply State.setStrPort_keeps
    | with_reducible apply State.sendDatagram_keeps
    | with_reducible apply KeepsRes.cond
    | with_reducible apply KeepsRes.ite
    | with_reducible apply Keeps.cond
    | with_reducible apply Keeps.ite
    | with_reducible apply Keeps.cond_fst
    | with_reducible apply Keeps.ite_fst
    | with_reducible apply Keeps.foldl
    | with_reducible apply Keeps.foldl_fst
    | (extract_lets +onlyGivenNames x; refine Keeps.via' (o := orig) (x := x) ?_ (fun hx => ?_); rotate_left; clear_value x; rotate_right; subst x)
    | (extract_lets +onlyGivenNames x; refine Keeps.via' (o := orig) (x := x.1) ?_ (fun hx => ?_); rotate_left; clear_value x; rotate_right; subst x)
    | (extract_lets +onlyGivenNames x; clear_value x)
    | split
    | (with_reducible apply Keeps.mk'; with_reducible assumption)
    | (with_reducible apply Keeps.mk'; first | with_reducible apply State.checkHead_keeps | with_reducible apply State.setStrPort_keeps | with_reducible apply State.sendDatagram_keeps | with_reducible apply Keeps.foldl | with_reducible apply Keeps.cond | with_reducible apply Keeps.ite))

theorem State.writeBack_keeps {orig : State} (s : State) (r : Nat) (bytes : Nat) (whole : Nat) (cont : Bool) (head : Bool) (bad : Bool) (seq : Nat) (h_s : Keeps orig s) : Keeps orig (State.writeBack s r bytes whole cont head bad seq) := by
  unfold State.writeBack
  repeat' (first
    | with_reducible assumption
    | with_reducible apply State.emit_keeps
    | with_reducible apply State.put_keeps
    | with_reducible apply State.setHostRing_keeps)

theorem State.badDescriptor_keeps {orig : State} (s : State) (r : Nat) (h_s : Keeps orig s) : Keeps orig (State.badDescriptor s r) := by
  unfold State.badDescriptor
  repeat' (first
    | with_reducible assumption
    | with_reducible apply State.ev_keeps
    | with_reducible apply State.flag_keeps
    | with_reducible apply State.writeBack_keeps)

theorem State.rxDrop_keeps {orig : State} (s : State) (p : Nat) (h_s : Keeps orig s) : Keeps orig (State.rxDrop s p) := by
  unfold State.rxDrop
  repeat' (first
    | with_reducible assumption
    | with_reducible apply State.count_keeps
    | with_reducible apply State.ev_keeps)

theorem State.rxDeliver_keeps {orig : State} (s : State) (p : Nat) (r : Nat) (bytes : List Byte) (y0 : List HostDesc) (h_s : Keeps orig s) : Keeps orig (State.rxDeliver s p r bytes y0) := by
  induction y0 generalizing s with
  | nil =>
  rw [State.rxDeliver]
  repeat' (first
    | with_reducible assumption
    | with_reducible apply State.rxDrop_keeps
    | with_reducible apply State.badDescriptor_keeps
    | with_reducible apply State.emit_keeps
    | with_reducible apply State.writeBack_keeps
    | with_reducible apply Keeps.cond)
  | cons k l ih =>
  rw [State.rxDeliver]
  repeat' (first
    | with_reducible assumption
    | with_reducible apply ih
    | with_reducible apply State.rxDrop_keeps
    | with_reducible apply State.badDescriptor_keeps
    | with_reducible apply State.emit_keeps
    | with_reducible apply State.writeBack_keeps
    | with_reducible apply Keeps.cond)

theorem State.rxPtp_keeps {orig : State} (s : State) (p : Nat) (stamp : Nat) (f : List Byte) (descs : List HostDesc) (h_s : Keeps orig s) : Keeps orig (State.rxPtp s p stamp f descs) := by
  unfold State.rxPtp
  repeat' (first
    | with_reducible assumption
    | with_reducible apply State.rxDeliver_keeps
    | with_reducible apply State.rxDrop_keeps
    | (extract_lets +onlyGivenNames x; refine Keeps.via' (o := orig) (x := x) ?_ (fun hx => ?_); rotate_left; clear_value x; rotate_right; subst x)
    | (extract_lets +onlyGivenNames x; clear_value x)
    | split)

theorem execPtpEventRx_keeps {orig : State} (port : Nat) (stamp : Nat) (frame : List Byte) (descs : List HostDesc) (s : State) (h_s : Keeps orig s) : KeepsRes orig (execPtpEventRx port stamp frame descs s) := by
  unfold execPtpEventRx
  repeat' (first
    | with_reducible assumption
    | with_reducible apply KeepsRes.next
    | with_reducible apply State.rxPtp_keeps
    | with_reducible apply KeepsRes.cond
    | with_reducible apply KeepsRes.ite
    | with_reducible apply Keeps.cond
    | split)

theorem execEthFrameRx_keeps {orig : State} (port : Nat) (stamp : Nat) (frame : List Byte) (descs : List HostDesc) (s : State) (h_s : Keeps orig s) : KeepsRes orig (execEthFrameRx port stamp frame descs s) := by
  unfold execEthFrameRx
  repeat' (first
    | with_reducible assumption
    | with_reducible apply KeepsRes.next
    | with_reducible apply State.setStrPort_keeps
    | with_reducible apply State.rxPtp_keeps
    | with_reducible apply State.count_keeps
    | with_reducible apply KeepsRes.cond
    | with_reducible apply KeepsRes.ite
    | with_reducible apply Keeps.cond
    | split
    | (with_reducible apply Keeps.mk'; with_reducible assumption)
    | (with_reducible apply Keeps.mk'; first | with_reducible apply State.setStrPort_keeps | with_reducible apply State.rxPtp_keeps | with_reducible apply State.count_keeps | with_reducible apply Keeps.cond))

theorem execPortLinkChange_keeps {orig : State} (port : Nat) (up : Bool) (s : State) (h_s : Keeps orig s) : KeepsRes orig (execPortLinkChange port up s) := by
  unfold execPortLinkChange
  repeat' (first
    | with_reducible assumption
    | with_reducible apply KeepsRes.next
    | with_reducible apply State.setStrPort_keeps
    | with_reducible apply State.ev_keeps
    | with_reducible apply State.flag_keeps
    | with_reducible apply Keeps.cond)

theorem State.ptpHead_keeps {orig : State} (s : State) (p : Nat) (h_s : Keeps orig s) : Keeps orig (State.ptpHead s p) := by
  unfold State.ptpHead
  repeat' (first
    | with_reducible assumption
    | with_reducible apply State.put96_keeps
    | with_reducible apply State.put_keeps
    | with_reducible apply State.flag_keeps)

theorem State.setPtpFifo_keeps {orig : State} (s : State) (p : Nat) (l : List PtpEntry) (h_s : Keeps orig s) : Keeps orig (State.setPtpFifo s p l) := by
  unfold State.setPtpFifo
  repeat' (first
    | with_reducible apply State.ptpHead_keeps
    | (extract_lets +onlyGivenNames x; clear_value x)
    | (with_reducible apply Keeps.mk'; with_reducible assumption))

theorem State.ptpDrop_keeps {orig : State} (s : State) (p : Nat) (h_s : Keeps orig s) : Keeps orig (State.ptpDrop s p) := by
  unfold State.ptpDrop
  repeat' (first
    | with_reducible assumption
    | intro x
    | with_reducible apply State.flag_keeps
    | (extract_lets +onlyGivenNames x; refine Keeps.via' (o := orig) (x := x) ?_ (fun hx => ?_); rotate_left; clear_value x; rotate_right; subst x)
    | (extract_lets +onlyGivenNames x; clear_value x)
    | (with_reducible apply Keeps.mk'; with_reducible assumption)
    | (with_reducible apply Keeps.mk'; first | with_reducible apply State.flag_keeps))

theorem execPtpTxTimestamp_keeps {orig : State} (port : Nat) (stamp : Nat) (frame : List Byte) (s : State) (h_s : Keeps orig s) : KeepsRes orig (execPtpTxTimestamp port stamp frame s) := by
  unfold execPtpTxTimestamp
  repeat' (first
    | with_reducible assumption
    | with_reducible apply KeepsRes.next
    | with_reducible apply State.ptpDrop_keeps
    | with_reducible apply State.ev_keeps
    | with_reducible apply State.setPtpFifo_keeps
    | with_reducible apply KeepsRes.cond
    | with_reducible apply KeepsRes.ite
    | with_reducible apply Keeps.cond
    | with_reducible apply Keeps.cond_fst
    | with_reducible apply Keeps.ite_fst
    | (extract_lets +onlyGivenNames x; refine Keeps.via' (o := orig) (x := x) ?_ (fun hx => ?_); rotate_left; clear_value x; rotate_right; subst x)
    | (extract_lets +onlyGivenNames x; refine Keeps.via' (o := orig) (x := x.1) ?_ (fun hx => ?_); rotate_left; clear_value x; rotate_right; subst x)
    | (extract_lets +onlyGivenNames x; clear_value x)
    | split)

theorem execPtpPop_keeps {orig : State} (port : Nat) (s : State) (h_s : Keeps orig s) : KeepsRes orig (execPtpPop port s) := by
  unfold execPtpPop
  repeat' (first
    | with_reducible assumption
    | with_reducible apply KeepsRes.next
    | with_reducible apply State.setPtpFifo_keeps)

theorem execTxFrameSend_keeps {orig : State} (r : Nat) (desc : HostDesc) (stamp : Nat) (frame : List Byte) (s : State) (h_s : Keeps orig s) : KeepsRes orig (execTxFrameSend r desc stamp frame s) := by
  unfold execTxFrameSend
  repeat' (first
    | with_reducible assumption
    | with_reducible apply KeepsRes.next
    | with_reducible apply State.badDescriptor_keeps
    | with_reducible apply State.emit_keeps
    | with_reducible apply State.writeBack_keeps
    | with_reducible apply KeepsRes.cond
    | with_reducible apply KeepsRes.ite
    | with_reducible apply Keeps.cond
    | (extract_lets +onlyGivenNames x; refine Keeps.via' (o := orig) (x := x) ?_ (fun hx => ?_); rotate_left; clear_value x; rotate_right; subst x)
    | (extract_lets +onlyGivenNames x; clear_value x))

end Sys2Proof.Machine
end

