-- ==== Sys2Proof/Laws/KeepsRings.lean ====
section
/-!
SUPPORT. Every operation of Machine/Rings.lean keeps the canonical forms and the queue.
-/
namespace Sys2Proof.Machine

theorem execHrgTailWrite_keeps {orig : State} (r : Nat) (v : Nat) (s : State) (h_s : Keeps orig s) : KeepsRes orig (execHrgTailWrite r v s) := by
  unfold execHrgTailWrite
  repeat' (first
    | with_reducible assumption
    | with_reducible apply KeepsRes.next
    | with_reducible apply State.ringStarve_keeps
    | with_reducible apply State.put_keeps
    | with_reducible apply State.bad_keeps
    | with_reducible apply Keeps.cond)

theorem State.fillFrom_keeps {orig : State} (s : State) (r : Nat) (len : Nat) (st : Nat) (bad : List BadWord) (b : Fill) (h_s : Keeps orig s) : Keeps orig (State.fillFrom s r len st bad b).1 := by
  unfold State.fillFrom
  repeat' (first
    | with_reducible assumption
    | with_reducible apply State.dequeue_keeps
    | with_reducible apply State.setStream_keeps
    | with_reducible apply Keeps.cond
    | with_reducible apply Keeps.cond_fst
    | with_reducible apply Keeps.ite_fst
    | (extract_lets +onlyGivenNames x; refine Keeps.via' (o := orig) (x := x) ?_ (fun hx => ?_); rotate_left; clear_value x; rotate_right; subst x)
    | (extract_lets +onlyGivenNames x; refine Keeps.via' (o := orig) (x := x.1) ?_ (fun hx => ?_); rotate_left; clear_value x; rotate_right; subst x)
    | (extract_lets +onlyGivenNames x; clear_value x)
    | split
    | (with_reducible apply Keeps.mk'; with_reducible assumption)
    | (with_reducible apply Keeps.mk'; first | with_reducible apply State.dequeue_keeps | with_reducible apply State.setStream_keeps | with_reducible apply Keeps.cond))

theorem execHostBufferWriteback_keeps {orig : State} (r : Nat) (desc : HostDesc) (picks : List Nat) (bad : List BadWord) (s : State) (h_s : Keeps orig s) : KeepsRes orig (execHostBufferWriteback r desc picks bad s) := by
  unfold execHostBufferWriteback
  repeat' (first
    | with_reducible assumption
    | intro x
    | with_reducible apply KeepsRes.next
    | with_reducible apply State.badDescriptor_keeps
    | with_reducible apply State.ringStarve_keeps
    | with_reducible apply State.checkHead_keeps
    | with_reducible apply State.fillFrom_keeps
    | with_reducible apply State.emit_keeps
    | with_reducible apply State.writeBack_keeps
    | with_reducible apply KeepsRes.cond
    | with_reducible apply KeepsRes.ite
    | with_reducible apply Keeps.cond
    | with_reducible apply Keeps.cond_fst
    | with_reducible apply Keeps.ite_fst
    | with_reducible apply Keeps.foldl
    | with_reducible apply Keeps.foldl_fst
    | (extract_lets +onlyGivenNames x; refine Keeps.via' (o := orig) (x := x) ?_ (fun hx => ?_); rotate_left; clear_value x; rotate_right; subst x)
    | (extract_lets +onlyGivenNames x; refine Keeps.via' (o := orig) (x := x.1) ?_ (fun hx => ?_); rotate_left; clear_value x; rotate_right; subst x)
    | (extract_lets +onlyGivenNames x; clear_value x))

theorem execHostRingInterrupt_keeps {orig : State} (r : Nat) (s : State) (h_s : Keeps orig s) : KeepsRes orig (execHostRingInterrupt r s) := by
  unfold execHostRingInterrupt
  repeat' (first
    | with_reducible assumption
    | with_reducible apply KeepsRes.next
    | with_reducible apply State.sendMsix_keeps
    | with_reducible apply State.setHostRing_keeps
    | with_reducible apply Keeps.cond)

theorem State.ringsStop_keeps {orig : State} (s : State) (h_s : Keeps orig s) : Keeps orig (State.ringsStop s) := by
  unfold State.ringsStop
  repeat' (first
    | with_reducible assumption
    | intro x
    | with_reducible apply State.ringStarve_keeps
    | with_reducible apply State.put_keeps
    | with_reducible apply Keeps.cond
    | with_reducible apply Keeps.foldl)

theorem execBusMasterDisable_keeps {orig : State} (s : State) (h_s : Keeps orig s) : KeepsRes orig (execBusMasterDisable s) := by
  unfold execBusMasterDisable
  repeat' (first
    | with_reducible assumption
    | with_reducible apply KeepsRes.next
    | with_reducible apply State.ringsStop_keeps)

theorem State.ringRestart_keeps {orig : State} (s : State) (r : Nat) (h_s : Keeps orig s) : Keeps orig (State.ringRestart s r) := by
  unfold State.ringRestart
  repeat' (first
    | with_reducible assumption
    | intro x
    | with_reducible apply State.writeBack_keeps
    | with_reducible apply State.put_keeps
    | with_reducible apply Keeps.foldl)

end Sys2Proof.Machine
end

