-- ==== Sys2Proof/Laws/KeepsVrt.lean ====
section
/-!
SUPPORT. Every operation of Machine/Vrt.lean keeps the canonical forms and the queue.
-/
namespace Sys2Proof.Machine

theorem State.vrtClose_keeps {orig : State} (s : State) (t : Nat) (st : Nat) (e : Nat) (b : List Byte) (h_s : Keeps orig s) : Keeps orig (State.vrtClose s t st e b) := by
  unfold State.vrtClose
  repeat' (first
    | with_reducible assumption
    | with_reducible apply State.close_keeps)

theorem State.vrtContext_keeps {orig : State} (s : State) (t : Nat) (g : List TunOut) (fields : List Nat) (changed : Bool) (h_s : Keeps orig s) : Keeps orig (State.vrtContext s t g fields changed) := by
  unfold State.vrtContext
  repeat' (first
    | with_reducible assumption
    | with_reducible apply State.vrtClose_keeps
    | with_reducible apply State.setTuner_keeps
    | (extract_lets +onlyGivenNames x; clear_value x)
    | split)

theorem State.vrtSeries_keeps {orig : State} (s : State) (t : Nat) (o : TunOut) (h_s : Keeps orig s) : Keeps orig (State.vrtSeries s t o) := by
  unfold State.vrtSeries
  repeat' (first
    | with_reducible assumption
    | with_reducible apply State.setTuner_keeps
    | with_reducible apply Keeps.cond
    | with_reducible apply Keeps.ite
    | (extract_lets +onlyGivenNames x; refine Keeps.via' (o := orig) (x := x) ?_ (fun hx => ?_); rotate_left; clear_value x; rotate_right; subst x)
    | (extract_lets +onlyGivenNames x; clear_value x)
    | split
    | (with_reducible apply Keeps.mk'; with_reducible assumption)
    | (with_reducible apply Keeps.mk'; first | with_reducible apply State.setTuner_keeps | with_reducible apply Keeps.cond | with_reducible apply Keeps.ite))

theorem execVrtDataPacket_keeps {orig : State} (t : Nat) (timeout : Bool) (s : State) (h_s : Keeps orig s) : KeepsRes orig (execVrtDataPacket t timeout s) := by
  unfold execVrtDataPacket
  repeat' (first
    | with_reducible assumption
    | with_reducible apply KeepsRes.next
    | with_reducible apply State.vrtSeries_keeps
    | with_reducible apply State.setTuner_keeps
    | with_reducible apply State.setLadder_keeps
    | with_reducible apply State.count_keeps
    | with_reducible apply State.vrtContext_keeps
    | with_reducible apply State.vrtClose_keeps
    | with_reducible apply KeepsRes.cond
    | with_reducible apply KeepsRes.ite
    | with_reducible apply Keeps.cond
    | (extract_lets +onlyGivenNames x; refine Keeps.via' (o := orig) (x := x) ?_ (fun hx => ?_); rotate_left; clear_value x; rotate_right; subst x)
    | (extract_lets +onlyGivenNames x; clear_value x)
    | split
    | (with_reducible apply Keeps.mk'; with_reducible assumption)
    | (with_reducible apply Keeps.mk'; first | with_reducible apply State.vrtSeries_keeps | with_reducible apply State.setTuner_keeps | with_reducible apply State.setLadder_keeps | with_reducible apply State.count_keeps | with_reducible apply State.vrtContext_keeps | with_reducible apply State.vrtClose_keeps | with_reducible apply Keeps.cond))

theorem execVrtContextPacket_keeps {orig : State} (t : Nat) (s : State) (h_s : Keeps orig s) : KeepsRes orig (execVrtContextPacket t s) := by
  unfold execVrtContextPacket
  repeat' (first
    | with_reducible assumption
    | with_reducible apply KeepsRes.next
    | with_reducible apply State.vrtSeries_keeps
    | with_reducible apply State.vrtContext_keeps
    | with_reducible apply KeepsRes.cond
    | with_reducible apply KeepsRes.ite
    | (extract_lets +onlyGivenNames x; refine Keeps.via' (o := orig) (x := x) ?_ (fun hx => ?_); rotate_left; clear_value x; rotate_right; subst x)
    | (extract_lets +onlyGivenNames x; clear_value x)
    | split)

end Sys2Proof.Machine
end

