-- ==== Sys2Proof/Laws/KeepsStreams.lean ====
section
/-!
SUPPORT. Every operation of Machine/Streams.lean keeps the canonical forms and the queue.
-/
namespace Sys2Proof.Machine

theorem State.streamStart_keeps {orig : State} (s : State) (st : Nat) (h_s : Keeps orig s) : Keeps orig (State.streamStart s st) := by
  unfold State.streamStart
  repeat' (first
    | with_reducible assumption
    | with_reducible apply State.put_keeps
    | with_reducible apply State.setStream_keeps
    | with_reducible apply State.strTo_keeps
    | with_reducible apply State.fillSync_keeps
    | with_reducible apply State.sendReliable_keeps
    | with_reducible apply State.declareDue_keeps
    | with_reducible apply Keeps.cond
    | (extract_lets +onlyGivenNames x; refine Keeps.via' (o := orig) (x := x) ?_ (fun hx => ?_); rotate_left; clear_value x; rotate_right; subst x)
    | (extract_lets +onlyGivenNames x; clear_value x)
    | (with_reducible apply Keeps.mk'; with_reducible assumption)
    | (with_reducible apply Keeps.mk'; first | with_reducible apply State.put_keeps | with_reducible apply State.setStream_keeps | with_reducible apply State.strTo_keeps | with_reducible apply State.fillSync_keeps | with_reducible apply State.sendReliable_keeps | with_reducible apply State.declareDue_keeps | with_reducible apply Keeps.cond))

theorem State.strDone_keeps {orig : State} (s : State) (h_s : Keeps orig s) : Keeps orig (State.strDone s) := by
  unfold State.strDone
  repeat' (first
    | with_reducible assumption
    | with_reducible apply State.swapDone_keeps
    | with_reducible apply State.ev_keeps
    | with_reducible apply State.flag_keeps
    | with_reducible apply State.swapWhere_keeps
    | with_reducible apply Keeps.cond)

theorem State.newQueue_keeps {orig : State} (s : State) (st : Nat) (old : Nat) (h_s : Keeps orig s) : Keeps orig (State.newQueue s st old) := by
  unfold State.newQueue
  repeat' (first
    | with_reducible assumption
    | with_reducible apply State.setStream_keeps
    | with_reducible apply Keeps.cond
    | (extract_lets +onlyGivenNames x; refine Keeps.via' (o := orig) (x := x) ?_ (fun hx => ?_); rotate_left; clear_value x; rotate_right; subst x)
    | (extract_lets +onlyGivenNames x; clear_value x)
    | (with_reducible apply Keeps.mk'; with_reducible assumption)
    | (with_reducible apply Keeps.mk'; first | with_reducible apply State.setStream_keeps | with_reducible apply Keeps.cond))

theorem State.streamSwap_keeps {orig : State} (s : State) (st : Nat) (h_s : Keeps orig s) : Keeps orig (State.streamSwap s st) := by
  unfold State.streamSwap
  repeat' (first
    | with_reducible assumption
    | with_reducible apply State.swapWhere_keeps
    | with_reducible apply State.newQueue_keeps
    | with_reducible apply State.streamStart_keeps
    | with_reducible apply State.strTo_keeps
    | with_reducible apply State.leaveFailed_keeps
    | with_reducible apply State.fillSync_keeps
    | with_reducible apply State.declareDue_keeps
    | with_reducible apply Keeps.cond
    | with_reducible apply Keeps.ite
    | (extract_lets +onlyGivenNames x; refine Keeps.via' (o := orig) (x := x) ?_ (fun hx => ?_); rotate_left; clear_value x; rotate_right; subst x)
    | (extract_lets +onlyGivenNames x; clear_value x)
    | split
    | (with_reducible apply Keeps.mk'; with_reducible assumption)
    | (with_reducible apply Keeps.mk'; first | with_reducible apply State.swapWhere_keeps | with_reducible apply State.newQueue_keeps | with_reducible apply State.streamStart_keeps | with_reducible apply State.strTo_keeps | with_reducible apply State.leaveFailed_keeps | with_reducible apply State.fillSync_keeps | with_reducible apply State.declareDue_keeps | with_reducible apply Keeps.cond | with_reducible apply Keeps.ite))

theorem State.ringSwap_keeps {orig : State} (s : State) (r : Nat) (h_s : Keeps orig s) : Keeps orig (State.ringSwap s r) := by
  unfold State.ringSwap
  repeat' (first
    | with_reducible assumption
    | with_reducible apply State.ringRestart_keeps
    | with_reducible apply State.ringStarve_keeps
    | with_reducible apply Keeps.cond
    | (extract_lets +onlyGivenNames x; clear_value x)
    | (with_reducible apply Keeps.mk'; with_reducible apply State.swapWhere_keeps))

theorem execStreamSwap_keeps {orig : State} (e : Nat) (ring : Bool) (s : State) (h_s : Keeps orig s) : KeepsRes orig (execStreamSwap e ring s) := by
  unfold execStreamSwap
  repeat' (first
    | with_reducible assumption
    | with_reducible apply KeepsRes.next
    | with_reducible apply State.strDone_keeps
    | with_reducible apply State.ringSwap_keeps
    | with_reducible apply State.streamSwap_keeps
    | with_reducible apply Keeps.cond)

theorem State.strCommit_keeps {orig : State} (s : State) (h_s : Keeps orig s) : Keeps orig (State.strCommit s) := by
  unfold State.strCommit
  repeat' (first
    | with_reducible assumption
    | intro x
    | with_reducible apply State.swapWhere_keeps
    | with_reducible apply State.ev_keeps
    | with_reducible apply State.flag_keeps
    | with_reducible apply State.diskDetach_keeps
    | with_reducible apply State.strDone_keeps
    | with_reducible apply Keeps.cond
    | with_reducible apply Keeps.foldl
    | (extract_lets +onlyGivenNames x; clear_value x)
    | (with_reducible apply Keeps.mk'; with_reducible apply Keeps.cond))

end Sys2Proof.Machine
end

