-- ==== Sys2Proof/Laws/KeepsCommit.lean ====
section
/-!
SUPPORT. Every operation of Machine/Commit.lean keeps the canonical forms and the queue.
-/
namespace Sys2Proof.Machine

theorem State.via_keeps {orig : State} (s : State) (f : State → Res) (h_s : Keeps orig s) (h_f : ∀ a0, Keeps orig a0 → KeepsRes orig (f a0)) : Keeps orig (State.via s f) := by
  unfold State.via
  repeat' (first
    | with_reducible assumption
    | with_reducible apply h_f
    | with_reducible refine Keeps.of_res ?_ (by assumption)
    | split)

theorem State.forget_keeps {orig : State} (s : State) (a : Nat) (len : Nat) (h_s : Keeps orig s) : Keeps orig (State.forget s a len) := by
  exact h_s.mkAll id (Memory.discard_wf _ _ _)

theorem State.placeRegions_keeps {orig : State} (s : State) (l : List (Nat × Nat)) (h_s : Keeps orig s) : Keeps orig (State.placeRegions s l) := by
  unfold State.placeRegions
  repeat' (first
    | with_reducible assumption
    | intro x
    | with_reducible apply State.forget_keeps
    | with_reducible apply State.put_keeps
    | with_reducible apply Keeps.cond
    | with_reducible apply Keeps.foldl)

theorem State.placeDetector_keeps {orig : State} (s : State) (l : List (Nat × Nat × Nat)) (h_s : Keeps orig s) : Keeps orig (State.placeDetector s l) := by
  unfold State.placeDetector
  repeat' (first
    | with_reducible assumption
    | intro x
    | with_reducible apply State.put_keeps
    | with_reducible apply State.storeSync_keeps
    | (extract_lets +onlyGivenNames x; clear_value x)
    | (with_reducible apply Keeps.mk'; with_reducible apply Keeps.foldl))

theorem State.clockCommit_keeps {orig : State} (s : State) (f : Nat) (h_s : Keeps orig s) : Keeps orig (State.clockCommit s f) := by
  unfold State.clockCommit
  repeat' (first
    | with_reducible assumption
    | intro x
    | with_reducible apply State.put_keeps
    | with_reducible apply State.retarget_keeps
    | with_reducible apply State.degrSync_keeps
    | with_reducible apply State.xspPlan_keeps
    | with_reducible apply State.pend_keeps
    | with_reducible apply State.swapDone_keeps
    | with_reducible apply Keeps.cond
    | with_reducible apply Keeps.foldl
    | (extract_lets +onlyGivenNames x; refine Keeps.via' (o := orig) (x := x) ?_ (fun hx => ?_); rotate_left; clear_value x; rotate_right; subst x)
    | (extract_lets +onlyGivenNames x; clear_value x)
    | (with_reducible apply Keeps.mk'; with_reducible assumption)
    | (with_reducible apply Keeps.mk'; first | with_reducible apply State.put_keeps | with_reducible apply State.retarget_keeps | with_reducible apply State.degrSync_keeps | with_reducible apply State.xspPlan_keeps | with_reducible apply State.pend_keeps | with_reducible apply State.swapDone_keeps | with_reducible apply Keeps.foldl | with_reducible apply Keeps.cond))

theorem State.takeInstant_keeps {orig : State} (s : State) (h_s : Keeps orig s) : Keeps orig (State.takeInstant s) := by
  unfold State.takeInstant
  repeat' (first
    | with_reducible assumption
    | intro x
    | with_reducible apply State.put_keeps
    | with_reducible apply State.clockCommit_keeps
    | with_reducible apply State.placeRegions_keeps
    | with_reducible apply State.placeDetector_keeps
    | with_reducible apply State.ringsMove_keeps
    | with_reducible apply State.recCommit_keeps
    | with_reducible apply State.frontCommit_keeps
    | with_reducible apply State.fineCommit_keeps
    | with_reducible apply State.detCommit_keeps
    | with_reducible apply State.tunCommit_keeps
    | with_reducible apply State.trgCommit_keeps
    | with_reducible apply State.xspCommit_keeps
    | with_reducible apply State.strCommit_keeps
    | with_reducible apply State.dspCommit_keeps
    | with_reducible apply State.stimCommit_keeps
    | with_reducible apply State.ingCommit_keeps
    | with_reducible apply State.frontDone_keeps
    | with_reducible apply State.ladderReset_keeps
    | with_reducible apply State.xArm_keeps
    | with_reducible apply State.ringSync_keeps
    | with_reducible apply State.genReached_keeps
    | with_reducible apply Keeps.cond
    | with_reducible apply Keeps.foldl
    | (extract_lets +onlyGivenNames x; refine Keeps.via' (o := orig) (x := x) ?_ (fun hx => ?_); rotate_left; clear_value x; rotate_right; subst x)
    | (extract_lets +onlyGivenNames x; clear_value x)
    | split
    | (with_reducible apply Keeps.mk'; with_reducible assumption)
    | (with_reducible apply Keeps.mk'; first | with_reducible apply State.put_keeps | with_reducible apply State.clockCommit_keeps | with_reducible apply State.placeRegions_keeps | with_reducible apply State.placeDetector_keeps | with_reducible apply State.ringsMove_keeps | with_reducible apply State.recCommit_keeps | with_reducible apply State.frontCommit_keeps | with_reducible apply State.fineCommit_keeps | with_reducible apply State.detCommit_keeps | with_reducible apply State.tunCommit_keeps | with_reducible apply State.trgCommit_keeps | with_reducible apply State.xspCommit_keeps | with_reducible apply State.strCommit_keeps | with_reducible apply State.dspCommit_keeps | with_reducible apply State.stimCommit_keeps | with_reducible apply State.ingCommit_keeps | with_reducible apply State.frontDone_keeps | with_reducible apply State.ladderReset_keeps | with_reducible apply State.xArm_keeps | with_reducible apply State.ringSync_keeps | with_reducible apply State.genReached_keeps | with_reducible apply Keeps.foldl | with_reducible apply Keeps.cond))

theorem State.swapIdle_keeps {orig : State} (s : State) (h_s : Keeps orig s) : Keeps orig (State.swapIdle s) := by
  unfold State.swapIdle
  repeat' (first
    | with_reducible assumption
    | intro x
    | with_reducible apply State.fineDone_keeps
    | with_reducible apply State.viewSwapNow_keeps
    | with_reducible apply State.tunSwapAt_keeps
    | with_reducible apply State.xspSwapNow_keeps
    | with_reducible apply State.strDone_keeps
    | with_reducible apply State.ringSwap_keeps
    | with_reducible apply State.streamSwap_keeps
    | with_reducible apply State.via_keeps
    | with_reducible apply execDisplaySwap_keeps
    | with_reducible apply State.stimSwapCal_keeps
    | with_reducible apply State.exchange_keeps
    | with_reducible apply Keeps.cond
    | with_reducible apply Keeps.foldl
    | (extract_lets +onlyGivenNames x; clear_value x)
    | (with_reducible apply Keeps.mk'; with_reducible assumption))

theorem State.swapRest_keeps {orig : State} (s : State) (h_s : Keeps orig s) : Keeps orig (State.swapRest s) := by
  unfold State.swapRest
  repeat' (first
    | with_reducible assumption
    | intro x
    | with_reducible apply State.swapIdle_keeps
    | with_reducible apply State.via_keeps
    | with_reducible apply execIngressSwap_keeps
    | with_reducible apply execCchSwap_keeps
    | with_reducible apply execTriggerUnitSwap_keeps
    | with_reducible apply execRecorderSwap_keeps
    | with_reducible apply Keeps.foldl)

theorem State.swapAll_keeps {orig : State} (s : State) (h_s : Keeps orig s) : Keeps orig (State.swapAll s) := by
  unfold State.swapAll
  repeat' (first
    | with_reducible assumption
    | with_reducible apply State.swapRest_keeps
    | with_reducible apply State.takeInstant_keeps
    | with_reducible apply Keeps.cond
    | (extract_lets +onlyGivenNames x; clear_value x)
    | (with_reducible apply Keeps.mk'; with_reducible assumption))

theorem State.instantNow_keeps {orig : State} (s : State) (h_s : Keeps orig s) : Keeps orig (State.instantNow s) := by
  unfold State.instantNow
  repeat' (first
    | with_reducible assumption
    | with_reducible apply State.takeInstant_keeps
    | with_reducible apply State.swapIdle_keeps
    | with_reducible apply State.swapRest_keeps
    | (extract_lets +onlyGivenNames x; refine Keeps.via' (o := orig) (x := x) ?_ (fun hx => ?_); rotate_left; clear_value x; rotate_right; subst x)
    | split)

end Sys2Proof.Machine
end

