-- ==== Sys2Proof/Laws/KeepsModes.lean ====
section
/-!
SUPPORT. Every operation of Machine/Modes.lean keeps the canonical forms and the queue.
-/
namespace Sys2Proof.Machine

theorem State.tilesHalt_keeps {orig : State} (s : State) (h_s : Keeps orig s) : Keeps orig (State.tilesHalt s) := by
  unfold State.tilesHalt
  repeat' (first
    | with_reducible assumption
    | intro x
    | with_reducible apply State.tileCmd_keeps
    | with_reducible apply State.setTile_keeps
    | with_reducible apply Keeps.cond
    | with_reducible apply Keeps.foldl)

theorem State.tilesResume_keeps {orig : State} (s : State) (h_s : Keeps orig s) : Keeps orig (State.tilesResume s) := by
  unfold State.tilesResume
  repeat' (first
    | with_reducible assumption
    | intro x
    | with_reducible apply State.tileCmd_keeps
    | with_reducible apply State.setTile_keeps
    | with_reducible apply Keeps.cond
    | with_reducible apply Keeps.foldl)

theorem State.tilesSleep_keeps {orig : State} (s : State) (h_s : Keeps orig s) : Keeps orig (State.tilesSleep s) := by
  unfold State.tilesSleep
  repeat' (first
    | with_reducible assumption
    | intro x
    | with_reducible apply State.flag_keeps
    | with_reducible apply State.put_keeps
    | with_reducible apply State.lockFree_keeps
    | with_reducible apply Keeps.cond
    | with_reducible apply Keeps.foldl
    | (extract_lets +onlyGivenNames x; clear_value x)
    | (with_reducible apply Keeps.mk'; with_reducible assumption))

theorem State.watchStop_keeps {orig : State} (s : State) (h_s : Keeps orig s) : Keeps orig (State.watchStop s) := by
  unfold State.watchStop
  repeat' (first
    | with_reducible assumption
    | with_reducible apply State.dspWatch_keeps
    | with_reducible apply State.dmaPause_keeps
    | with_reducible apply State.tilesHalt_keeps
    | with_reducible apply State.calMode_keeps
    | with_reducible apply State.stimWatch_keeps
    | with_reducible apply State.recordsOut_keeps
    | with_reducible apply State.viewIdle_keeps)

theorem State.watchPages_keeps {orig : State} (s : State) (h_s : Keeps orig s) : Keeps orig (State.watchPages s) := by
  unfold State.watchPages
  repeat' (first
    | with_reducible assumption
    | with_reducible apply State.memWatch_keeps
    | with_reducible apply State.recWatch_keeps
    | (extract_lets +onlyGivenNames x; refine Keeps.via' (o := orig) (x := x) ?_ (fun hx => ?_); rotate_left; clear_value x; rotate_right; subst x)
    | (extract_lets +onlyGivenNames x; clear_value x)
    | (with_reducible apply Keeps.mk'; with_reducible assumption))

theorem State.modeTo_keeps {orig : State} (s : State) (m : Nat) (h_s : Keeps orig s) : Keeps orig (State.modeTo s m) := by
  unfold State.modeTo
  repeat' (first
    | with_reducible assumption
    | with_reducible apply State.put_keeps)

theorem State.inWatch_keeps {orig : State} (s : State) (h_s : Keeps orig s) : Keeps orig (State.inWatch s) := by
  have h : Keeps orig ((upto 8).foldl State.pinSample (s.modeTo 3).xspIdle.tunIdle.trgWatch) :=
    Keeps.foldl (State.trgWatch_keeps _ (State.tunIdle_keeps _ (State.xspIdle_keeps _ (State.modeTo_keeps _ _ h_s))))
      (fun s p h => State.pinSample_keeps s p h)
  unfold State.inWatch
  revert h
  generalize List.foldl State.pinSample (s.modeTo 3).xspIdle.tunIdle.trgWatch (upto 8) = t
  intro h
  exact State.swapIdle_keeps _ h.mk'

theorem State.inFull_keeps {orig : State} (s : State) (h_s : Keeps orig s) : Keeps orig (State.inFull s) := by
  unfold State.inFull
  repeat' (first
    | with_reducible assumption
    | intro x
    | with_reducible apply State.pinSample_keeps
    | with_reducible apply State.modeTo_keeps
    | with_reducible apply State.setInp_keeps
    | with_reducible apply State.dspWake_keeps
    | with_reducible apply State.xspWake_keeps
    | with_reducible apply State.viewWake_keeps
    | with_reducible apply State.tunWake_keeps
    | with_reducible apply State.memFull_keeps
    | with_reducible apply State.dmaResume_keeps
    | with_reducible apply State.tilesResume_keeps
    | with_reducible apply State.stimWake_keeps
    | with_reducible apply Keeps.cond
    | with_reducible apply Keeps.foldl)

theorem State.inSleep_keeps {orig : State} (s : State) (h_s : Keeps orig s) : Keeps orig (State.inSleep s) := by
  unfold State.inSleep
  repeat' (first
    | with_reducible assumption
    | intro x
    | with_reducible apply State.viewIdle_keeps
    | with_reducible apply State.recordsOut_keeps
    | with_reducible apply State.modeTo_keeps
    | with_reducible apply State.xspIdle_keeps
    | with_reducible apply State.tunIdle_keeps
    | with_reducible apply State.trgSleep_keeps
    | with_reducible apply State.ingSleep_keeps
    | with_reducible apply State.swapAll_keeps
    | with_reducible apply State.recSleep_keeps
    | with_reducible apply State.dmaSleep_keeps
    | with_reducible apply State.tilesSleep_keeps
    | with_reducible apply State.memSleep_keeps
    | with_reducible apply State.streamsSleep_keeps
    | with_reducible apply State.dspSleep_keeps
    | with_reducible apply State.stimSleep_keeps
    | with_reducible apply State.calMode_keeps
    | with_reducible apply State.auxOff_keeps
    | with_reducible apply State.tbStop_keeps
    | with_reducible apply Keeps.cond
    | (extract_lets +onlyGivenNames x; refine Keeps.via' (o := orig) (x := x) ?_ (fun hx => ?_); rotate_left; clear_value x; rotate_right; subst x)
    | (extract_lets +onlyGivenNames x; clear_value x)
    | (with_reducible apply Keeps.mk'; with_reducible assumption)
    | (with_reducible apply Keeps.mk'; first | with_reducible apply State.viewIdle_keeps | with_reducible apply State.recordsOut_keeps | with_reducible apply State.modeTo_keeps | with_reducible apply State.xspIdle_keeps | with_reducible apply State.tunIdle_keeps | with_reducible apply State.trgSleep_keeps | with_reducible apply State.ingSleep_keeps | with_reducible apply State.swapAll_keeps | with_reducible apply State.recSleep_keeps | with_reducible apply State.dmaSleep_keeps | with_reducible apply State.tilesSleep_keeps | with_reducible apply State.memSleep_keeps | with_reducible apply State.streamsSleep_keeps | with_reducible apply State.dspSleep_keeps | with_reducible apply State.stimSleep_keeps | with_reducible apply State.calMode_keeps | with_reducible apply State.auxOff_keeps | with_reducible apply State.tbStop_keeps | with_reducible apply Keeps.cond))

theorem State.govSync_keeps {orig : State} (s : State) (h_s : Keeps orig s) : Keeps orig (State.govSync s) := by
  unfold State.govSync
  repeat' (first
    | with_reducible assumption
    | with_reducible apply State.put_keeps)

theorem State.riseAll_keeps {orig : State} (s : State) (h_s : Keeps orig s) : Keeps orig (State.riseAll s) := by
  unfold State.riseAll
  repeat' (first
    | with_reducible apply State.govSync_keeps
    | (with_reducible apply Keeps.mk'; with_reducible assumption))

theorem State.slotRise_keeps {orig : State} (s : State) (h_s : Keeps orig s) : Keeps orig (State.slotRise s) := by
  unfold State.slotRise
  repeat' (first
    | with_reducible apply State.ev_keeps
    | with_reducible apply State.put_keeps
    | with_reducible apply State.forceSleep_keeps
    | with_reducible apply Keeps.cond
    | (with_reducible apply Keeps.mk'; with_reducible assumption))

theorem State.slotFall_keeps {orig : State} (s : State) (h_s : Keeps orig s) : Keeps orig (State.slotFall s) := by
  unfold State.slotFall
  repeat' (first
    | (extract_lets +onlyGivenNames x; clear_value x)
    | (with_reducible apply Keeps.mk'; with_reducible assumption))

theorem execGovernorSlot_keeps {orig : State} (s : State) (h_s : Keeps orig s) : KeepsRes orig (execGovernorSlot s) := by
  unfold execGovernorSlot
  repeat' (first
    | with_reducible assumption
    | with_reducible apply KeepsRes.next
    | with_reducible apply State.watchPages_keeps
    | with_reducible apply State.slotFall_keeps
    | with_reducible apply State.slotRise_keeps
    | with_reducible apply State.count_keeps
    | with_reducible apply State.govSync_keeps
    | with_reducible apply Keeps.cond)

theorem execIslandUsable_keeps {orig : State} (i : Nat) (s : State) (h_s : Keeps orig s) : KeepsRes orig (execIslandUsable i s) := by
  unfold execIslandUsable
  repeat' (first
    | with_reducible assumption
    | with_reducible apply KeepsRes.next
    | with_reducible apply State.memFull_keeps
    | with_reducible apply State.setTile_keeps
    | with_reducible apply State.tileCommand_keeps
    | with_reducible apply Keeps.cond
    | split
    | (with_reducible apply Keeps.mk'; with_reducible assumption))

theorem State.transTo_keeps {orig : State} (s : State) (m : Nat) (h_s : Keeps orig s) : Keeps orig (State.transTo s m) := by
  unfold State.transTo
  repeat' (first
    | with_reducible assumption
    | with_reducible apply State.flag_keeps
    | (extract_lets +onlyGivenNames x; refine Keeps.via' (o := orig) (x := x) ?_ (fun hx => ?_); rotate_left; clear_value x; rotate_right; subst x)
    | (extract_lets +onlyGivenNames x; clear_value x)
    | (with_reducible apply Keeps.mk'; with_reducible assumption))

theorem State.sleepStart_keeps {orig : State} (s : State) (h_s : Keeps orig s) : Keeps orig (State.sleepStart s) := by
  unfold State.sleepStart
  repeat' (first
    | with_reducible assumption
    | with_reducible apply State.govSync_keeps
    | (extract_lets +onlyGivenNames x; clear_value x)
    | (with_reducible apply Keeps.mk'; with_reducible apply State.transTo_keeps))

theorem State.sleepAsked_keeps {orig : State} (s : State) (h_s : Keeps orig s) : Keeps orig (State.sleepAsked s) := by
  unfold State.sleepAsked
  repeat' (first
    | with_reducible assumption
    | with_reducible apply State.sleepStart_keeps
    | with_reducible apply State.put_keeps)

theorem State.wakeStart_keeps {orig : State} (s : State) (h_s : Keeps orig s) : Keeps orig (State.wakeStart s) := by
  unfold State.wakeStart
  repeat' (first
    | with_reducible assumption
    | with_reducible apply State.riseAll_keeps
    | with_reducible apply State.transTo_keeps
    | with_reducible apply State.recWake_keeps)

theorem State.wakeSeen_keeps {orig : State} (s : State) (src : Nat) (h_s : Keeps orig s) : Keeps orig (State.wakeSeen s src) := by
  unfold State.wakeSeen
  repeat' (first
    | with_reducible assumption
    | with_reducible apply State.ev_keeps
    | with_reducible apply State.put_keeps
    | with_reducible apply State.sendCell_keeps
    | with_reducible apply Keeps.cond)

theorem State.wakeSent_keeps {orig : State} (s : State) (src : Nat) (h_s : Keeps orig s) : Keeps orig (State.wakeSent s src) := by
  unfold State.wakeSent
  repeat' (first
    | with_reducible assumption
    | with_reducible apply State.sendCell_keeps
    | with_reducible apply Keeps.cond)

theorem State.wakeWatch_keeps {orig : State} (s : State) (src : Nat) (h_s : Keeps orig s) : Keeps orig (State.wakeWatch s src) := by
  unfold State.wakeWatch
  repeat' (first
    | with_reducible assumption
    | with_reducible apply State.wakeSeen_keeps
    | with_reducible apply State.flag_keeps
    | with_reducible apply State.ev_keeps
    | with_reducible apply State.wakeStart_keeps
    | with_reducible apply Keeps.cond)

theorem State.powerStart_keeps {orig : State} (s : State) (op : Nat) (h_s : Keeps orig s) : Keeps orig (State.powerStart s op) := by
  unfold State.powerStart
  repeat' (first
    | with_reducible assumption
    | with_reducible apply State.flag_keeps
    | with_reducible apply State.ev_keeps
    | with_reducible apply State.sleepAsked_keeps
    | with_reducible apply State.ingWake_keeps
    | with_reducible apply State.transTo_keeps
    | with_reducible apply State.watchStop_keeps
    | with_reducible apply State.riseAll_keeps
    | with_reducible apply State.wakeSent_keeps
    | with_reducible apply State.wakeWatch_keeps
    | with_reducible apply Keeps.ite
    | (extract_lets +onlyGivenNames x; refine Keeps.via' (o := orig) (x := x) ?_ (fun hx => ?_); rotate_left; clear_value x; rotate_right; subst x)
    | (extract_lets +onlyGivenNames x; clear_value x)
    | split
    | (with_reducible apply Keeps.mk'; with_reducible assumption)
    | (with_reducible apply Keeps.mk'; first | with_reducible apply State.flag_keeps | with_reducible apply State.ev_keeps | with_reducible apply State.sleepAsked_keeps | with_reducible apply State.ingWake_keeps | with_reducible apply State.transTo_keeps | with_reducible apply State.watchStop_keeps | with_reducible apply State.riseAll_keeps | with_reducible apply State.wakeSent_keeps | with_reducible apply State.wakeWatch_keeps | with_reducible apply Keeps.ite))

theorem State.heldTaken_keeps {orig : State} (s : State) (h_s : Keeps orig s) : Keeps orig (State.heldTaken s) := by
  unfold State.heldTaken
  repeat' (first
    | (extract_lets +onlyGivenNames x; clear_value x)
    | (with_reducible apply Keeps.mk'; with_reducible assumption))

theorem State.heldRuns_keeps {orig : State} (s : State) (h_s : Keeps orig s) : Keeps orig (State.heldRuns s) := by
  unfold State.heldRuns
  repeat' (first
    | with_reducible assumption
    | with_reducible apply State.heldTaken_keeps
    | with_reducible apply State.flag_keeps
    | with_reducible apply State.powerStart_keeps
    | split)

theorem State.wakeRequest_keeps {orig : State} (s : State) (src : Nat) (h_s : Keeps orig s) : Keeps orig (State.wakeRequest s src) := by
  unfold State.wakeRequest
  repeat' (first
    | with_reducible assumption
    | with_reducible apply State.wakeSent_keeps
    | with_reducible apply State.wakeWatch_keeps
    | with_reducible apply State.wakeSeen_keeps
    | with_reducible apply State.flag_keeps
    | with_reducible apply State.viewWake_keeps
    | with_reducible apply State.stimWake_keeps
    | with_reducible apply State.tilesResume_keeps
    | with_reducible apply State.dmaResume_keeps
    | with_reducible apply State.ev_keeps
    | with_reducible apply State.heldRuns_keeps
    | with_reducible apply State.inWatch_keeps
    | with_reducible apply State.wakeStart_keeps
    | with_reducible apply Keeps.cond
    | (extract_lets +onlyGivenNames x; refine Keeps.via' (o := orig) (x := x) ?_ (fun hx => ?_); rotate_left; clear_value x; rotate_right; subst x)
    | (extract_lets +onlyGivenNames x; clear_value x)
    | split
    | (with_reducible apply Keeps.mk'; with_reducible assumption)
    | (with_reducible apply Keeps.mk'; first | with_reducible apply State.wakeSent_keeps | with_reducible apply State.wakeWatch_keeps | with_reducible apply State.wakeSeen_keeps | with_reducible apply State.flag_keeps | with_reducible apply State.viewWake_keeps | with_reducible apply State.stimWake_keeps | with_reducible apply State.tilesResume_keeps | with_reducible apply State.dmaResume_keeps | with_reducible apply State.ev_keeps | with_reducible apply State.heldRuns_keeps | with_reducible apply State.inWatch_keeps | with_reducible apply State.wakeStart_keeps | with_reducible apply Keeps.cond))

theorem State.powerCmd_keeps {orig : State} (s : State) (op : Nat) (h_s : Keeps orig s) : Keeps orig (State.powerCmd s op) := by
  unfold State.powerCmd
  repeat' (first
    | with_reducible assumption
    | with_reducible apply State.sendReliable_keeps
    | with_reducible apply State.ev_keeps
    | with_reducible apply State.flag_keeps
    | with_reducible apply State.powerStart_keeps
    | with_reducible apply State.wakeRequest_keeps
    | with_reducible apply Keeps.cond
    | (extract_lets +onlyGivenNames x; refine Keeps.via' (o := orig) (x := x) ?_ (fun hx => ?_); rotate_left; clear_value x; rotate_right; subst x)
    | (extract_lets +onlyGivenNames x; clear_value x)
    | (with_reducible apply Keeps.mk'; with_reducible apply Keeps.cond)
    | (with_reducible apply Keeps.mk'; with_reducible assumption)
    | split)

theorem execPwrSleep_keeps {orig : State} (s : State) (h_s : Keeps orig s) : KeepsRes orig (execPwrSleep s) := by
  unfold execPwrSleep
  repeat' (first
    | with_reducible assumption
    | with_reducible apply KeepsRes.next
    | with_reducible apply State.powerCmd_keeps)

theorem execPwrWatch_keeps {orig : State} (s : State) (h_s : Keeps orig s) : KeepsRes orig (execPwrWatch s) := by
  unfold execPwrWatch
  repeat' (first
    | with_reducible assumption
    | with_reducible apply KeepsRes.next
    | with_reducible apply State.powerCmd_keeps)

theorem execPwrFull_keeps {orig : State} (s : State) (h_s : Keeps orig s) : KeepsRes orig (execPwrFull s) := by
  unfold execPwrFull
  repeat' (first
    | with_reducible assumption
    | with_reducible apply KeepsRes.next
    | with_reducible apply State.powerCmd_keeps)

theorem execPwrKeep_keeps {orig : State} (s : State) (h_s : Keeps orig s) : KeepsRes orig (execPwrKeep s) := by
  unfold execPwrKeep
  repeat' (first
    | with_reducible assumption
    | with_reducible apply KeepsRes.next
    | with_reducible apply State.powerCmd_keeps)

theorem execWakeRequest_keeps {orig : State} (src : Nat) (s : State) (h_s : Keeps orig s) : KeepsRes orig (execWakeRequest src s) := by
  unfold execWakeRequest
  repeat' (first
    | with_reducible assumption
    | with_reducible apply KeepsRes.next
    | with_reducible apply State.wakeRequest_keeps)

theorem State.keepEnter_keeps {orig : State} (s : State) (h_s : Keeps orig s) : Keeps orig (State.keepEnter s) := by
  unfold State.keepEnter
  repeat' (first
    | with_reducible assumption
    | with_reducible apply State.put_keeps
    | with_reducible apply State.dieReset_keeps
    | with_reducible apply State.modeTo_keeps
    | (extract_lets +onlyGivenNames x; refine Keeps.via' (o := orig) (x := x) ?_ (fun hx => ?_); rotate_left; clear_value x; rotate_right; subst x)
    | (extract_lets +onlyGivenNames x; clear_value x)
    | (with_reducible apply Keeps.mk'; with_reducible assumption))

theorem State.transApply_keeps {orig : State} (s : State) (m : Nat) (h_s : Keeps orig s) : Keeps orig (State.transApply s m) := by
  unfold State.transApply
  repeat' (first
    | with_reducible assumption
    | with_reducible apply State.pinSample_keeps
    | with_reducible apply State.genWake_keeps
    | with_reducible apply State.recWatchOn_keeps
    | with_reducible apply State.keepEnter_keeps
    | with_reducible apply State.inSleep_keeps
    | with_reducible apply State.modeTo_keeps
    | with_reducible apply State.tbStart_keeps
    | with_reducible apply State.inWatch_keeps
    | with_reducible apply State.inFull_keeps
    | with_reducible apply Keeps.ite
    | (extract_lets +onlyGivenNames x; clear_value x)
    | split
    | with_reducible apply Keeps.foldl)

theorem State.transEnded_keeps {orig : State} (s : State) (h_s : Keeps orig s) : Keeps orig (State.transEnded s) := by
  unfold State.transEnded
  repeat' (first
    | (extract_lets +onlyGivenNames x; clear_value x)
    | (with_reducible apply Keeps.mk'; with_reducible assumption))

theorem execModeTransitionDone_keeps {orig : State} (s : State) (h_s : Keeps orig s) : KeepsRes orig (execModeTransitionDone s) := by
  unfold execModeTransitionDone
  repeat' (first
    | with_reducible assumption
    | with_reducible apply State.heldRuns_keeps
    | with_reducible apply KeepsRes.next
    | with_reducible apply State.transEnded_keeps
    | with_reducible apply State.transApply_keeps
    | with_reducible apply State.flag_keeps
    | with_reducible apply State.ev_keeps
    | with_reducible apply State.put96_keeps
    | with_reducible apply State.powerStart_keeps
    | with_reducible apply State.heldTaken_keeps
    | with_reducible apply Keeps.cond
    | (extract_lets +onlyGivenNames x; refine Keeps.via' (o := orig) (x := x) ?_ (fun hx => ?_); rotate_left; clear_value x; rotate_right; subst x)
    | split)

end Sys2Proof.Machine
end

