-- ==== Sys2Proof/Laws/KeepsPower.lean ====
section
/-!
SUPPORT. Every operation of Machine/Power.lean keeps the canonical forms and the queue.
-/
namespace Sys2Proof.Machine

theorem State.setUrg_keeps {orig : State} (s : State) (k : Nat) (q : List Urgent) (h_s : Keeps orig s) : Keeps orig (State.setUrg s k q) := by
  unfold State.setUrg
  repeat' (first
    | with_reducible apply Keeps.ite
    | (extract_lets +onlyGivenNames x; clear_value x)
    | (with_reducible apply Keeps.mk'; with_reducible assumption))

theorem State.urgent_keeps {orig : State} (s : State) (conv : Nat) (ch : Nat) (governor : Bool) (h_s : Keeps orig s) : Keeps orig (State.urgent s conv ch governor).1 := by
  unfold State.urgent
  repeat' (first
    | with_reducible assumption
    | with_reducible apply State.ev_keeps
    | with_reducible apply State.count_keeps
    | with_reducible apply State.setUrg_keeps
    | with_reducible apply Keeps.cond_fst
    | (extract_lets +onlyGivenNames x; clear_value x)
    | (with_reducible apply Keeps.mk'; with_reducible assumption))

theorem execHkUrg_keeps {orig : State} (conv : Nat) (ch : Nat) (s : State) (h_s : Keeps orig s) : KeepsRes orig (execHkUrg conv ch s) := by
  unfold execHkUrg
  repeat' (first
    | with_reducible assumption
    | with_reducible apply KeepsRes.next
    | with_reducible apply State.bad_keeps
    | with_reducible apply State.urgent_keeps
    | with_reducible apply Keeps.ite)

theorem execHkUrgentConversion_keeps {orig : State} (k : Nat) (raw : Nat) (s : State) (h_s : Keeps orig s) : KeepsRes orig (execHkUrgentConversion k raw s) := by
  unfold execHkUrgentConversion
  repeat' (first
    | with_reducible assumption
    | with_reducible apply KeepsRes.next
    | with_reducible apply State.put_keeps
    | with_reducible apply State.setUrg_keeps
    | with_reducible apply State.ev_keeps
    | with_reducible apply State.put96_keeps
    | with_reducible apply Keeps.cond
    | (extract_lets +onlyGivenNames x; clear_value x)
    | split
    | (with_reducible apply Keeps.mk'; with_reducible apply State.ev_keeps))

theorem State.setHk_keeps {orig : State} (s : State) (k : Nat) (e : Nat) (x : HkEntry) (h_s : Keeps orig s) : Keeps orig (State.setHk s k e x) := by
  unfold State.setHk
  repeat' (first
    | (extract_lets +onlyGivenNames x; clear_value x)
    | (with_reducible apply Keeps.mk'; with_reducible assumption))

theorem State.hkLimits_keeps {orig : State} (s : State) (k : Nat) (e : Nat) (v : Nat) (h_s : Keeps orig s) : Keeps orig (State.hkLimits s k e v) := by
  unfold State.hkLimits
  repeat' (first
    | with_reducible assumption
    | with_reducible apply State.setHk_keeps
    | with_reducible apply State.ev_keeps
    | with_reducible apply State.flag_keeps
    | with_reducible apply Keeps.cond)

theorem State.hkCross_keeps {orig : State} (s : State) (k : Nat) (e : Nat) (ch : Nat) (v : Nat) (h_s : Keeps orig s) : Keeps orig (State.hkCross s k e ch v) := by
  unfold State.hkCross
  repeat' (first
    | with_reducible assumption
    | with_reducible apply State.setHk_keeps
    | with_reducible apply State.flag_keeps
    | with_reducible apply State.ev_keeps
    | with_reducible apply Keeps.cond
    | (extract_lets +onlyGivenNames x; refine Keeps.via' (o := orig) (x := x) ?_ (fun hx => ?_); rotate_left; clear_value x; rotate_right; subst x)
    | (extract_lets +onlyGivenNames x; clear_value x)
    | split)

theorem execHkEntryDone_keeps {orig : State} (k : Nat) (e : Nat) (ch : Nat) (raw : Nat) (s : State) (h_s : Keeps orig s) : KeepsRes orig (execHkEntryDone k e ch raw s) := by
  unfold execHkEntryDone
  repeat' (first
    | with_reducible assumption
    | with_reducible apply KeepsRes.next
    | with_reducible apply State.bad_keeps
    | with_reducible apply State.trimsNew_keeps
    | with_reducible apply State.put_keeps
    | with_reducible apply State.hkLimits_keeps
    | with_reducible apply State.hkCross_keeps
    | with_reducible apply KeepsRes.cond
    | with_reducible apply KeepsRes.ite
    | with_reducible apply Keeps.cond
    | with_reducible apply Keeps.ite
    | (extract_lets +onlyGivenNames x; refine Keeps.via' (o := orig) (x := x) ?_ (fun hx => ?_); rotate_left; clear_value x; rotate_right; subst x)
    | (extract_lets +onlyGivenNames x; clear_value x)
    | split)

theorem execGovernorCheck_keeps {orig : State} (s : State) (h_s : Keeps orig s) : KeepsRes orig (execGovernorCheck s) := by
  unfold execGovernorCheck
  repeat' (first
    | with_reducible assumption
    | with_reducible apply KeepsRes.next
    | with_reducible apply State.urgent_keeps
    | with_reducible apply Keeps.cond
    | (extract_lets +onlyGivenNames x; refine Keeps.via' (o := orig) (x := x) ?_ (fun hx => ?_); rotate_left; clear_value x; rotate_right; subst x)
    | (extract_lets +onlyGivenNames x; clear_value x)
    | (with_reducible apply Keeps.mk'; with_reducible assumption))

theorem State.keepClock_keeps {orig : State} (s : State) (crystal : Bool) (h_s : Keeps orig s) : Keeps orig (State.keepClock s crystal) := by
  unfold State.keepClock
  repeat' (first
    | with_reducible assumption
    | with_reducible apply State.flag_keeps
    | (with_reducible apply Keeps.mk'; with_reducible assumption)
    | (with_reducible apply Keeps.mk'; first | with_reducible apply State.flag_keeps))

theorem State.pinUnsensed_keeps {orig : State} (s : State) (h_s : Keeps orig s) : Keeps orig (State.pinUnsensed s) := by
  unfold State.pinUnsensed
  repeat' (first
    | with_reducible assumption
    | with_reducible apply State.startFree_keeps
    | with_reducible apply Keeps.cond
    | (with_reducible apply Keeps.mk'; with_reducible assumption)
    | (with_reducible apply Keeps.mk'; first | with_reducible apply State.startFree_keeps | with_reducible apply Keeps.cond))

theorem execSupplyGoodChange_keeps {orig : State} (i : Nat) (good : Bool) (crystal : Bool) (s : State) (h_s : Keeps orig s) : KeepsRes orig (execSupplyGoodChange i good crystal s) := by
  unfold execSupplyGoodChange
  repeat' (first
    | with_reducible assumption
    | with_reducible apply KeepsRes.next
    | with_reducible apply State.flag_keeps
    | with_reducible apply State.ev_keeps
    | with_reducible apply State.keepClock_keeps
    | with_reducible apply State.dieReset_keeps
    | with_reducible apply State.keepLose_keeps
    | with_reducible apply State.pinUnsensed_keeps
    | with_reducible apply KeepsRes.cond
    | with_reducible apply KeepsRes.ite
    | with_reducible apply Keeps.cond
    | with_reducible apply Keeps.ite
    | (extract_lets +onlyGivenNames x; refine Keeps.via' (o := orig) (x := x) ?_ (fun hx => ?_); rotate_left; clear_value x; rotate_right; subst x)
    | (extract_lets +onlyGivenNames x; clear_value x)
    | split
    | (with_reducible apply Keeps.mk'; with_reducible assumption)
    | (with_reducible apply Keeps.mk'; first | with_reducible apply State.flag_keeps | with_reducible apply State.ev_keeps | with_reducible apply State.keepClock_keeps | with_reducible apply State.dieReset_keeps | with_reducible apply State.keepLose_keeps | with_reducible apply State.pinUnsensed_keeps | with_reducible apply Keeps.cond | with_reducible apply Keeps.ite))

theorem execSupplyUndervoltage_keeps {orig : State} (i : Nat) (s : State) (h_s : Keeps orig s) : KeepsRes orig (execSupplyUndervoltage i s) := by
  unfold execSupplyUndervoltage
  repeat' (first
    | with_reducible assumption
    | with_reducible apply KeepsRes.next
    | with_reducible apply State.govSync_keeps
    | with_reducible apply Keeps.cond
    | with_reducible apply Keeps.ite
    | (extract_lets +onlyGivenNames x; clear_value x)
    | (with_reducible apply Keeps.mk'; with_reducible apply State.forceSleep_keeps))

theorem execResetRelease_keeps {orig : State} (s : State) (h_s : Keeps orig s) : KeepsRes orig (execResetRelease s) := by
  unfold execResetRelease
  repeat' (first
    | with_reducible assumption
    | with_reducible apply KeepsRes.next
    | with_reducible apply State.startFree_keeps
    | with_reducible apply Keeps.cond
    | (extract_lets +onlyGivenNames x; clear_value x)
    | (with_reducible apply Keeps.mk'; with_reducible assumption))

theorem State.senseOne_keeps {orig : State} (s : State) (k : Nat) (r : Int) (h_s : Keeps orig s) : Keeps orig (State.senseOne s k r) := by
  unfold State.senseOne
  repeat' (first
    | with_reducible assumption
    | with_reducible apply State.ev_keeps
    | with_reducible apply State.flag_keeps
    | with_reducible apply Keeps.cond
    | with_reducible apply Keeps.ite
    | (with_reducible apply Keeps.mk'; with_reducible apply State.putI_keeps))

theorem State.ceilTo_keeps {orig : State} (s : State) (f : Nat) (h_s : Keeps orig s) : Keeps orig (State.ceilTo s f) := by
  unfold State.ceilTo
  repeat' (first
    | with_reducible assumption
    | with_reducible apply State.retarget_keeps
    | with_reducible apply State.ev_keeps
    | with_reducible apply State.put_keeps
    | with_reducible apply Keeps.cond)

theorem State.thmTo_keeps {orig : State} (s : State) (v : Nat) (h_s : Keeps orig s) : Keeps orig (State.thmTo s v) := by
  unfold State.thmTo
  repeat' (first
    | with_reducible assumption
    | with_reducible apply State.ev_keeps
    | with_reducible apply State.put_keeps
    | with_reducible apply Keeps.cond)

theorem State.ceilStep_keeps {orig : State} (s : State) (tj : Int) (h_s : Keeps orig s) : Keeps orig (State.ceilStep s tj) := by
  unfold State.ceilStep
  repeat' (first
    | with_reducible apply State.ceilTo_keeps
    | (extract_lets +onlyGivenNames x; clear_value x)
    | (with_reducible apply Keeps.mk'; with_reducible assumption))

theorem State.thmCore_keeps {orig : State} (s : State) (hot : Nat) (tj : Int) (h_s : Keeps orig s) : Keeps orig (State.thmCore s hot tj) := by
  unfold State.thmCore
  repeat' (first
    | with_reducible assumption
    | with_reducible apply State.put_keeps
    | with_reducible apply State.putI_keeps
    | with_reducible apply State.forceSleep_keeps
    | with_reducible apply State.thmTo_keeps
    | with_reducible apply State.ceilTo_keeps
    | with_reducible apply Keeps.cond
    | (extract_lets +onlyGivenNames x; clear_value x)
    | (with_reducible apply Keeps.mk'; with_reducible apply State.ceilStep_keeps)
    | (with_reducible apply Keeps.mk'; with_reducible apply Keeps.mk'; with_reducible apply State.ceilStep_keeps))

theorem State.thmHbm_keeps {orig : State} (s : State) (t : Int) (h_s : Keeps orig s) : Keeps orig (State.thmHbm s t) := by
  unfold State.thmHbm
  repeat' (first
    | with_reducible apply State.ev_keeps
    | with_reducible apply State.forceSleep_keeps
    | with_reducible apply Keeps.cond
    | (extract_lets +onlyGivenNames x; clear_value x)
    | (with_reducible apply Keeps.mk'; with_reducible assumption))

theorem execThermalEvaluation_keeps {orig : State} (readings : List (Nat × Int)) (s : State) (h_s : Keeps orig s) : KeepsRes orig (execThermalEvaluation readings s) := by
  unfold execThermalEvaluation
  repeat' (first
    | with_reducible assumption
    | intro x
    | with_reducible apply KeepsRes.next
    | with_reducible apply State.senseOne_keeps
    | with_reducible apply State.thmCore_keeps
    | with_reducible apply State.ceilTo_keeps
    | with_reducible apply State.thmHbm_keeps
    | with_reducible apply Keeps.cond
    | with_reducible apply Keeps.foldl
    | (extract_lets +onlyGivenNames x; refine Keeps.via' (o := orig) (x := x) ?_ (fun hx => ?_); rotate_left; clear_value x; rotate_right; subst x)
    | split)

theorem execThermtrip_keeps {orig : State} (s : State) (h_s : Keeps orig s) : KeepsRes orig (execThermtrip s) := by
  unfold execThermtrip
  repeat' (first
    | with_reducible assumption
    | with_reducible apply KeepsRes.next
    | with_reducible apply State.dieReset_keeps
    | with_reducible apply Keeps.cond
    | (extract_lets +onlyGivenNames x; clear_value x)
    | (with_reducible apply Keeps.mk'; with_reducible assumption))

end Sys2Proof.Machine
end

