-- ==== Sys2Proof/Laws/KeepsStart.lean ====
section
/-!
SUPPORT. Every operation of Machine/Start.lean keeps the canonical forms and the queue.
-/
namespace Sys2Proof.Machine

theorem State.restoreEarly_keeps {orig : State} (s : State) (l : List Nat) (h_s : Keeps orig s) : Keeps orig (State.restoreEarly s l) := by
  unfold State.restoreEarly
  repeat' (first
    | with_reducible assumption
    | intro x
    | with_reducible apply State.restoreWord_keeps
    | with_reducible apply Keeps.foldl
    | split)

theorem State.stepS00_keeps {orig : State} (s : State) (h_s : Keeps orig s) : Keeps orig (State.stepS00 s).1 := by
  unfold State.stepS00
  repeat' (first
    | with_reducible assumption)

theorem State.stepS01_keeps {orig : State} (s : State) (h_s : Keeps orig s) : Keeps orig (State.stepS01 s).1 := by
  unfold State.stepS01
  repeat' (first
    | with_reducible assumption
    | with_reducible apply State.setObj_keeps
    | with_reducible apply State.put_keeps
    | with_reducible apply State.keepWrite_keeps
    | with_reducible apply State.took_keeps
    | (extract_lets +onlyGivenNames x; clear_value x)
    | (with_reducible apply Keeps.mk'; with_reducible apply Keeps.cond))

theorem State.stepS02_keeps {orig : State} (s : State) (method : Nat) (code : Nat) (h_s : Keeps orig s) : Keeps orig (State.stepS02 s method code).1 := by
  unfold State.stepS02
  repeat' (first
    | with_reducible assumption
    | with_reducible apply State.tbSync_keeps
    | with_reducible apply State.put_keeps
    | with_reducible apply Keeps.cond_fst)

theorem State.bandTable_keeps {orig : State} (s : State) (entries : List Word) (h_s : Keeps orig s) : Keeps orig (State.bandTable s entries) := by
  unfold State.bandTable
  repeat' (first
    | with_reducible assumption
    | intro x
    | with_reducible apply State.setWord_keeps
    | with_reducible apply Keeps.foldl)

theorem State.bandStart_keeps {orig : State} (s : State) (h_s : Keeps orig s) : Keeps orig (State.bandStart s).1 := by
  unfold State.bandStart
  repeat' (first
    | with_reducible assumption
    | with_reducible apply State.put_keeps
    | with_reducible apply State.clkState_keeps
    | with_reducible apply State.frunSync_keeps
    | with_reducible apply State.retarget_keeps
    | with_reducible apply State.tbFirst_keeps
    | with_reducible apply Keeps.cond_fst
    | with_reducible apply Keeps.ite_fst
    | (extract_lets +onlyGivenNames x; refine Keeps.via' (o := orig) (x := x) ?_ (fun hx => ?_); rotate_left; clear_value x; rotate_right; subst x)
    | (extract_lets +onlyGivenNames x; refine Keeps.via' (o := orig) (x := x.1) ?_ (fun hx => ?_); rotate_left; clear_value x; rotate_right; subst x)
    | (extract_lets +onlyGivenNames x; clear_value x)
    | split
    | (with_reducible apply Keeps.mk'; with_reducible assumption)
    | (with_reducible apply Keeps.mk'; first | with_reducible apply State.put_keeps | with_reducible apply State.clkState_keeps | with_reducible apply State.frunSync_keeps | with_reducible apply State.retarget_keeps | with_reducible apply State.tbFirst_keeps))

theorem State.stepS03_keeps {orig : State} (s : State) (method : Nat) (code : Nat) (entries : List Word) (h_s : Keeps orig s) : Keeps orig (State.stepS03 s method code entries).1 := by
  unfold State.stepS03
  repeat' (first
    | with_reducible assumption
    | intro x
    | with_reducible apply State.restoreEarly_keeps
    | with_reducible apply State.bandTable_keeps
    | with_reducible apply State.ev_keeps
    | with_reducible apply State.applyClkRef_keeps
    | with_reducible apply State.bandStart_keeps
    | with_reducible apply Keeps.cond
    | with_reducible apply Keeps.cond_fst
    | with_reducible apply Keeps.ite_fst
    | (extract_lets +onlyGivenNames x; refine Keeps.via' (o := orig) (x := x) ?_ (fun hx => ?_); rotate_left; clear_value x; rotate_right; subst x)
    | (extract_lets +onlyGivenNames x; refine Keeps.via' (o := orig) (x := x.1) ?_ (fun hx => ?_); rotate_left; clear_value x; rotate_right; subst x)
    | (extract_lets +onlyGivenNames x; clear_value x)
    | (with_reducible apply Keeps.mk'; with_reducible assumption)
    | (with_reducible apply Keeps.mk'; first | with_reducible apply State.restoreEarly_keeps | with_reducible apply State.bandTable_keeps | with_reducible apply State.ev_keeps | with_reducible apply State.applyClkRef_keeps | with_reducible apply State.bandStart_keeps | with_reducible apply Keeps.cond))

theorem State.stepS04_keeps {orig : State} (s : State) (code : Nat) (h_s : Keeps orig s) : Keeps orig (State.stepS04 s code).1 := by
  unfold State.stepS04
  repeat' (first
    | with_reducible assumption
    | intro x
    | with_reducible apply State.flag_keeps
    | with_reducible apply State.put_keeps
    | with_reducible apply Keeps.cond
    | with_reducible apply Keeps.cond_fst
    | with_reducible apply Keeps.foldl
    | (extract_lets +onlyGivenNames x; clear_value x)
    | (with_reducible apply Keeps.mk'; with_reducible assumption)
    | (with_reducible apply Keeps.mk'; with_reducible apply Keeps.foldl))

theorem State.stepS05_keeps {orig : State} (s : State) (method : Nat) (h_s : Keeps orig s) : Keeps orig (State.stepS05 s method).1 := by
  unfold State.stepS05
  repeat' (first
    | with_reducible assumption
    | with_reducible apply State.setObj_keeps
    | with_reducible apply Keeps.cond_fst
    | (extract_lets +onlyGivenNames x; refine Keeps.via' (o := orig) (x := x) ?_ (fun hx => ?_); rotate_left; clear_value x; rotate_right; subst x)
    | (extract_lets +onlyGivenNames x; clear_value x)
    | (with_reducible apply Keeps.mk'; with_reducible assumption))

theorem State.stepS06_keeps {orig : State} (s : State) (code : Nat) (h_s : Keeps orig s) : Keeps orig (State.stepS06 s code).1 := by
  unfold State.stepS06
  repeat' (first
    | with_reducible assumption
    | with_reducible apply State.restoreEarly_keeps
    | with_reducible apply State.memStart_keeps
    | with_reducible apply Keeps.cond
    | with_reducible apply Keeps.ite
    | with_reducible apply Keeps.cond_fst
    | with_reducible apply Keeps.ite_fst
    | (extract_lets +onlyGivenNames x; refine Keeps.via' (o := orig) (x := x) ?_ (fun hx => ?_); rotate_left; clear_value x; rotate_right; subst x)
    | (extract_lets +onlyGivenNames x; refine Keeps.via' (o := orig) (x := x.1) ?_ (fun hx => ?_); rotate_left; clear_value x; rotate_right; subst x)
    | (extract_lets +onlyGivenNames x; clear_value x)
    | split
    | (with_reducible apply Keeps.mk'; with_reducible assumption)
    | (with_reducible apply Keeps.mk'; first | with_reducible apply State.restoreEarly_keeps | with_reducible apply State.memStart_keeps | with_reducible apply Keeps.cond | with_reducible apply Keeps.ite))

theorem State.fence_keeps {orig : State} (s : State) (t : Nat) (h_s : Keeps orig s) : Keeps orig (State.fence s t) := by
  unfold State.fence
  repeat' (first
    | with_reducible assumption
    | with_reducible apply State.put_keeps)

theorem State.withdraw_keeps {orig : State} (s : State) (mask : Nat) (h_s : Keeps orig s) : Keeps orig (State.withdraw s mask) := by
  unfold State.withdraw
  repeat' (first
    | with_reducible assumption
    | intro x
    | with_reducible apply State.fence_keeps
    | with_reducible apply State.put_keeps
    | with_reducible apply State.flag_keeps
    | with_reducible apply Keeps.cond
    | with_reducible apply Keeps.foldl
    | (extract_lets +onlyGivenNames x; refine Keeps.via' (o := orig) (x := x) ?_ (fun hx => ?_); rotate_left; clear_value x; rotate_right; subst x)
    | (extract_lets +onlyGivenNames x; clear_value x)
    | (with_reducible apply Keeps.mk'; with_reducible assumption))

theorem State.absentDies_keeps {orig : State} (s : State) (mask : Nat) (h_s : Keeps orig s) : Keeps orig (State.absentDies s mask) := by
  unfold State.absentDies
  repeat' (first
    | (extract_lets +onlyGivenNames x; clear_value x)
    | (with_reducible apply Keeps.mk'; with_reducible assumption))

theorem State.fenceAll_keeps {orig : State} (s : State) (mask : Nat) (h_s : Keeps orig s) : Keeps orig (State.fenceAll s mask) := by
  unfold State.fenceAll
  repeat' (first
    | with_reducible assumption
    | intro x
    | with_reducible apply State.ev_keeps
    | with_reducible apply State.fence_keeps
    | with_reducible apply Keeps.cond
    | with_reducible apply Keeps.foldl)

theorem State.stepS10_keeps {orig : State} (s : State) (mask : Nat) (h_s : Keeps orig s) : Keeps orig (State.stepS10 s mask).1 := by
  unfold State.stepS10
  repeat' (first
    | with_reducible assumption
    | intro x
    | with_reducible apply State.count_keeps
    | with_reducible apply State.setLane_keeps
    | with_reducible apply Keeps.cond
    | with_reducible apply Keeps.cond_fst
    | with_reducible apply Keeps.ite_fst
    | with_reducible apply Keeps.foldl
    | with_reducible apply Keeps.foldl_fst
    | (with_reducible apply Keeps.mk'; with_reducible assumption)
    | (with_reducible apply Keeps.mk'; first | with_reducible apply State.count_keeps | with_reducible apply State.setLane_keeps | with_reducible apply Keeps.foldl | with_reducible apply Keeps.cond))

theorem State.pairStart_keeps {orig : State} (s : State) (h_s : Keeps orig s) : Keeps orig (State.pairStart s) := by
  unfold State.pairStart
  repeat' (first
    | with_reducible assumption
    | with_reducible apply State.put_keeps
    | with_reducible apply State.keepWrite_keeps
    | with_reducible apply State.ev_keeps
    | with_reducible apply State.waveSync_keeps
    | with_reducible apply Keeps.cond
    | (extract_lets +onlyGivenNames x; refine Keeps.via' (o := orig) (x := x) ?_ (fun hx => ?_); rotate_left; clear_value x; rotate_right; subst x)
    | (extract_lets +onlyGivenNames x; clear_value x)
    | (with_reducible apply Keeps.mk'; with_reducible assumption)
    | (with_reducible apply Keeps.mk'; first | with_reducible apply State.put_keeps | with_reducible apply State.keepWrite_keeps | with_reducible apply State.ev_keeps | with_reducible apply State.waveSync_keeps | with_reducible apply Keeps.cond))

theorem State.restoreSet_keeps {orig : State} (s : State) (t : Option (Tbl Nat)) (h_s : Keeps orig s) : Keeps orig (State.restoreSet s t) := by
  unfold State.restoreSet
  repeat' (first
    | with_reducible assumption
    | intro x
    | with_reducible apply State.restoreWord_keeps
    | with_reducible apply State.put_keeps
    | with_reducible apply State.pairStart_keeps
    | with_reducible apply Keeps.foldl
    | (extract_lets +onlyGivenNames x; clear_value x)
    | split
    | (with_reducible apply Keeps.mk'; with_reducible assumption))

theorem State.stepS11_keeps {orig : State} (s : State) (method : Nat) (h_s : Keeps orig s) : Keeps orig (State.stepS11 s method).1 := by
  unfold State.stepS11
  repeat' (first
    | with_reducible assumption
    | with_reducible apply State.restoreSet_keeps
    | with_reducible apply Keeps.cond_fst)

theorem State.stepRun_keeps {orig : State} (s : State) (k : Nat) (method : Nat) (code : Nat) (mask : Nat) (entries : List Word) (h_s : Keeps orig s) : Keeps orig (State.stepRun s k method code mask entries).1 := by
  unfold State.stepRun
  repeat' (first
    | with_reducible assumption
    | with_reducible apply State.stepS00_keeps
    | with_reducible apply State.stepS01_keeps
    | with_reducible apply State.stepS02_keeps
    | with_reducible apply State.stepS03_keeps
    | with_reducible apply State.stepS04_keeps
    | with_reducible apply State.stepS05_keeps
    | with_reducible apply State.stepS06_keeps
    | with_reducible apply State.absentDies_keeps
    | with_reducible apply State.fenceAll_keeps
    | with_reducible apply State.stepS10_keeps
    | with_reducible apply State.stepS11_keeps
    | split)

theorem State.stepSkip_keeps {orig : State} (s : State) (k : Nat) (mask : Nat) (h_s : Keeps orig s) : Keeps orig (State.stepSkip s k mask) := by
  unfold State.stepSkip
  repeat' (first
    | with_reducible assumption
    | with_reducible apply State.put64_keeps
    | with_reducible apply State.withdraw_keeps
    | with_reducible apply State.absentDies_keeps
    | with_reducible apply State.fenceAll_keeps
    | with_reducible apply State.restoreSet_keeps
    | split)

theorem State.safeEnter_keeps {orig : State} (s : State) (h_s : Keeps orig s) : Keeps orig (State.safeEnter s) := by
  unfold State.safeEnter
  repeat' (first
    | with_reducible assumption
    | with_reducible apply State.tbStop_keeps
    | with_reducible apply State.flag_keeps
    | with_reducible apply State.lanesTo_keeps
    | with_reducible apply State.ev_keeps
    | (with_reducible apply Keeps.mk'; with_reducible assumption)
    | (with_reducible apply Keeps.mk'; first | with_reducible apply State.tbStop_keeps | with_reducible apply State.flag_keeps | with_reducible apply State.lanesTo_keeps | with_reducible apply State.ev_keeps))

theorem State.stepFail_keeps {orig : State} (s : State) (k : Nat) (code : Nat) (h_s : Keeps orig s) : Keeps orig (State.stepFail s k code) := by
  unfold State.stepFail
  repeat' (first
    | with_reducible assumption
    | with_reducible apply State.put_keeps
    | with_reducible apply State.keepWrite_keeps
    | with_reducible apply State.safeEnter_keeps
    | with_reducible apply State.dieReset_keeps
    | with_reducible apply Keeps.cond
    | (extract_lets +onlyGivenNames x; clear_value x)
    | (with_reducible apply Keeps.mk'; with_reducible apply State.count_keeps))

theorem State.startEnd_keeps {orig : State} (s : State) (h_s : Keeps orig s) : Keeps orig (State.startEnd s) := by
  unfold State.startEnd
  repeat' (first
    | with_reducible assumption
    | with_reducible apply State.ev_keeps
    | with_reducible apply State.powerStart_keeps
    | with_reducible apply Keeps.cond
    | (extract_lets +onlyGivenNames x; refine Keeps.via' (o := orig) (x := x) ?_ (fun hx => ?_); rotate_left; clear_value x; rotate_right; subst x)
    | (extract_lets +onlyGivenNames x; clear_value x)
    | split
    | (with_reducible apply Keeps.mk'; with_reducible assumption))

theorem execStartStepDone_keeps {orig : State} (code : Nat) (mask : Nat) (entries : List Word) (s : State) (h_s : Keeps orig s) : KeepsRes orig (execStartStepDone code mask entries s) := by
  unfold execStartStepDone
  repeat' (first
    | with_reducible assumption
    | with_reducible apply KeepsRes.next
    | with_reducible apply State.count_keeps
    | with_reducible apply State.put_keeps
    | with_reducible apply State.stepSkip_keeps
    | with_reducible apply State.stepRun_keeps
    | with_reducible apply State.stepFail_keeps
    | with_reducible apply State.keepWrite_keeps
    | with_reducible apply State.startEnd_keeps
    | with_reducible apply State.lanesTo_keeps
    | with_reducible apply KeepsRes.cond
    | with_reducible apply KeepsRes.ite
    | with_reducible apply Keeps.cond
    | with_reducible apply Keeps.ite
    | with_reducible apply Keeps.cond_fst
    | with_reducible apply Keeps.ite_fst
    | (extract_lets +onlyGivenNames x; refine Keeps.via' (o := orig) (x := x) ?_ (fun hx => ?_); rotate_left; clear_value x; rotate_right; subst x)
    | (extract_lets +onlyGivenNames x; refine Keeps.via' (o := orig) (x := x.1) ?_ (fun hx => ?_); rotate_left; clear_value x; rotate_right; subst x)
    | (extract_lets +onlyGivenNames x; clear_value x)
    | split
    | (with_reducible apply Keeps.mk'; with_reducible assumption)
    | (with_reducible apply Keeps.mk'; first | with_reducible apply State.count_keeps | with_reducible apply State.put_keeps | with_reducible apply State.stepSkip_keeps | with_reducible apply State.stepRun_keeps | with_reducible apply State.stepFail_keeps | with_reducible apply State.keepWrite_keeps | with_reducible apply State.startEnd_keeps | with_reducible apply State.lanesTo_keeps | with_reducible apply Keeps.cond | with_reducible apply Keeps.ite))

theorem execResetNAssert_keeps {orig : State} (s : State) (h_s : Keeps orig s) : KeepsRes orig (execResetNAssert s) := by
  unfold execResetNAssert
  repeat' (first
    | with_reducible apply KeepsRes.next
    | with_reducible apply State.dieReset_keeps
    | with_reducible apply Keeps.cond
    | (extract_lets +onlyGivenNames x; clear_value x)
    | (with_reducible apply Keeps.mk'; with_reducible assumption))

theorem execResetNDeassert_keeps {orig : State} (s : State) (h_s : Keeps orig s) : KeepsRes orig (execResetNDeassert s) := by
  unfold execResetNDeassert
  repeat' (first
    | with_reducible assumption
    | with_reducible apply KeepsRes.next
    | with_reducible apply State.startFree_keeps
    | with_reducible apply Keeps.cond
    | (extract_lets +onlyGivenNames x; clear_value x)
    | (with_reducible apply Keeps.mk'; with_reducible assumption))

theorem execStepfailRestart_keeps {orig : State} (s : State) (h_s : Keeps orig s) : KeepsRes orig (execStepfailRestart s) := by
  unfold execStepfailRestart
  repeat' (first
    | with_reducible assumption
    | with_reducible apply KeepsRes.next
    | with_reducible apply State.startFree_keeps
    | with_reducible apply Keeps.cond
    | (extract_lets +onlyGivenNames x; clear_value x)
    | (with_reducible apply Keeps.mk'; with_reducible assumption))

theorem execWatchdogExpiry_keeps {orig : State} (s : State) (h_s : Keeps orig s) : KeepsRes orig (execWatchdogExpiry s) := by
  unfold execWatchdogExpiry
  repeat' (first
    | with_reducible assumption
    | with_reducible apply KeepsRes.next
    | with_reducible apply State.dieReset_keeps
    | with_reducible apply Keeps.cond)

theorem State.secIdle_keeps {orig : State} (s : State) (f : State → State) (h_s : Keeps orig s) (h_f : ∀ a0, Keeps orig a0 → Keeps orig (f a0)) : Keeps orig (State.secIdle s f) := by
  unfold State.secIdle
  repeat' (first
    | with_reducible assumption
    | with_reducible apply h_f
    | with_reducible apply State.bad_keeps
    | with_reducible apply Keeps.cond)

theorem execSecReset_keeps {orig : State} (s : State) (h_s : Keeps orig s) : KeepsRes orig (execSecReset s) := by
  unfold execSecReset
  repeat' (first
    | with_reducible assumption
    | intro x
    | with_reducible apply KeepsRes.next
    | with_reducible apply State.secIdle_keeps
    | with_reducible apply State.keepWrite_keeps
    | with_reducible apply State.put_keeps
    | with_reducible apply State.dieReset_keeps
    | with_reducible apply Keeps.cond
    | with_reducible apply Keeps.foldl)

theorem State.secStatus_keeps {orig : State} (s : State) (st : Nat) (n : Nat) (h_s : Keeps orig s) : Keeps orig (State.secStatus s st n) := by
  unfold State.secStatus
  repeat' (first
    | with_reducible assumption
    | with_reducible apply State.ev_keeps
    | with_reducible apply State.put_keeps)

theorem State.burnStart_keeps {orig : State} (s : State) (f : Fuses) (lc : Bool) (h_s : Keeps orig s) : Keeps orig (State.burnStart s f lc) := by
  unfold State.burnStart
  repeat' (first
    | with_reducible assumption
    | with_reducible apply State.flag_keeps
    | (extract_lets +onlyGivenNames x; refine Keeps.via' (o := orig) (x := x) ?_ (fun hx => ?_); rotate_left; clear_value x; rotate_right; subst x)
    | (extract_lets +onlyGivenNames x; clear_value x)
    | (with_reducible apply Keeps.mk'; with_reducible assumption))

theorem execSecProvision_keeps {orig : State} (s : State) (h_s : Keeps orig s) : KeepsRes orig (execSecProvision s) := by
  unfold execSecProvision
  repeat' (first
    | with_reducible assumption
    | intro x
    | with_reducible apply KeepsRes.next
    | with_reducible apply State.secIdle_keeps
    | with_reducible apply State.secStatus_keeps
    | with_reducible apply State.burnStart_keeps
    | with_reducible apply Keeps.cond)

theorem execLcreq_keeps {orig : State} (s : State) (h_s : Keeps orig s) : KeepsRes orig (execLcreq s) := by
  unfold execLcreq
  repeat' (first
    | with_reducible assumption
    | intro x
    | with_reducible apply KeepsRes.next
    | with_reducible apply State.secIdle_keeps
    | with_reducible apply State.secStatus_keeps
    | with_reducible apply State.burnStart_keeps
    | with_reducible apply Keeps.cond)

theorem execSvnburn_keeps {orig : State} (mailbox : Bool) (s : State) (h_s : Keeps orig s) : KeepsRes orig (execSvnburn mailbox s) := by
  unfold execSvnburn
  repeat' (first
    | with_reducible assumption
    | intro x
    | with_reducible apply KeepsRes.next
    | with_reducible apply State.secIdle_keeps
    | with_reducible apply State.secStatus_keeps
    | with_reducible apply State.burnStart_keeps
    | with_reducible apply Keeps.cond)

theorem execSecRevoke_keeps {orig : State} (mailbox : Bool) (s : State) (h_s : Keeps orig s) : KeepsRes orig (execSecRevoke mailbox s) := by
  unfold execSecRevoke
  repeat' (first
    | with_reducible assumption
    | intro x
    | with_reducible apply KeepsRes.next
    | with_reducible apply State.secIdle_keeps
    | with_reducible apply State.secStatus_keeps
    | with_reducible apply State.burnStart_keeps
    | with_reducible apply Keeps.cond)

theorem execFuseBurnDone_keeps {orig : State} (s : State) (h_s : Keeps orig s) : KeepsRes orig (execFuseBurnDone s) := by
  unfold execFuseBurnDone
  repeat' (first
    | with_reducible assumption
    | with_reducible apply KeepsRes.next
    | with_reducible apply State.flag_keeps
    | with_reducible apply State.secStatus_keeps
    | with_reducible apply State.put_keeps
    | with_reducible apply Keeps.cond
    | (extract_lets +onlyGivenNames x; refine Keeps.via' (o := orig) (x := x) ?_ (fun hx => ?_); rotate_left; clear_value x; rotate_right; subst x)
    | (extract_lets +onlyGivenNames x; clear_value x)
    | split
    | (with_reducible apply Keeps.mk'; with_reducible assumption))

theorem State.flashStart_keeps {orig : State} (s : State) (op : Nat) (h_s : Keeps orig s) : Keeps orig (State.flashStart s op) := by
  unfold State.flashStart
  repeat' (first
    | with_reducible assumption
    | with_reducible apply State.flag_keeps
    | (extract_lets +onlyGivenNames x; refine Keeps.via' (o := orig) (x := x) ?_ (fun hx => ?_); rotate_left; clear_value x; rotate_right; subst x)
    | (extract_lets +onlyGivenNames x; clear_value x)
    | (with_reducible apply Keeps.mk'; with_reducible assumption))

theorem State.flashChange_keeps {orig : State} (s : State) (op : Nat) (n : Nat) (h_s : Keeps orig s) : Keeps orig (State.flashChange s op n) := by
  unfold State.flashChange
  repeat' (first
    | with_reducible assumption
    | intro x
    | with_reducible apply State.secIdle_keeps
    | with_reducible apply State.bad_keeps
    | with_reducible apply State.secStatus_keeps
    | with_reducible apply State.flashStart_keeps
    | with_reducible apply Keeps.cond)

theorem execFlashRead_keeps {orig : State} (s : State) (h_s : Keeps orig s) : KeepsRes orig (execFlashRead s) := by
  unfold execFlashRead
  repeat' (first
    | with_reducible assumption
    | intro x
    | with_reducible apply KeepsRes.next
    | with_reducible apply State.secIdle_keeps
    | with_reducible apply State.flashStart_keeps)

theorem execFlashProgram_keeps {orig : State} (s : State) (h_s : Keeps orig s) : KeepsRes orig (execFlashProgram s) := by
  unfold execFlashProgram
  repeat' (first
    | with_reducible assumption
    | with_reducible apply KeepsRes.next
    | with_reducible apply State.flashChange_keeps)

theorem execFlashErase_keeps {orig : State} (s : State) (h_s : Keeps orig s) : KeepsRes orig (execFlashErase s) := by
  unfold execFlashErase
  repeat' (first
    | with_reducible assumption
    | with_reducible apply KeepsRes.next
    | with_reducible apply State.flashChange_keeps)

theorem State.flashByte_keeps {orig : State} (s : State) (a : Nat) (h_s : Keeps orig s) : Keeps orig (State.flashByte s a).1 := by
  unfold State.flashByte
  repeat' (first
    | with_reducible assumption
    | with_reducible apply State.took_keeps
    | with_reducible apply Keeps.cond_fst)

theorem State.flashFill_keeps {orig : State} (s : State) (a : Nat) (h_s : Keeps orig s) : Keeps orig (State.flashFill s a) := by
  unfold State.flashFill
  repeat' (first
    | with_reducible assumption
    | intro x
    | with_reducible apply State.flashByte_keeps
    | with_reducible apply State.setWord_keeps
    | with_reducible apply Keeps.foldl
    | with_reducible apply Keeps.foldl_fst)

theorem State.flashStore_keeps {orig : State} (s : State) (a : Nat) (d : List Byte) (h_s : Keeps orig s) : Keeps orig (State.flashStore s a d) := by
  unfold State.flashStore
  repeat' (first
    | with_reducible apply Keeps.cond
    | (extract_lets +onlyGivenNames x; clear_value x)
    | (with_reducible apply Keeps.mk'; with_reducible assumption)
    | (with_reducible apply Keeps.mk'; with_reducible apply Keeps.mk'; with_reducible assumption))

theorem execFlashDone_keeps {orig : State} (s : State) (h_s : Keeps orig s) : KeepsRes orig (execFlashDone s) := by
  unfold execFlashDone
  repeat' (first
    | with_reducible assumption
    | with_reducible apply KeepsRes.next
    | with_reducible apply State.flag_keeps
    | with_reducible apply State.flashFill_keeps
    | with_reducible apply State.flashStore_keeps
    | with_reducible apply State.secStatus_keeps
    | (extract_lets +onlyGivenNames x; refine Keeps.via' (o := orig) (x := x) ?_ (fun hx => ?_); rotate_left; clear_value x; rotate_right; subst x)
    | (extract_lets +onlyGivenNames x; clear_value x)
    | split
    | (with_reducible apply Keeps.mk'; with_reducible assumption))

theorem execTileVerify_keeps {orig : State} (t : Nat) (s : State) (h_s : Keeps orig s) : KeepsRes orig (execTileVerify t s) := by
  unfold execTileVerify
  repeat' (first
    | with_reducible assumption
    | intro x
    | with_reducible apply KeepsRes.next
    | with_reducible apply State.secIdle_keeps
    | with_reducible apply State.bad_keeps
    | with_reducible apply State.flag_keeps
    | with_reducible apply State.put_keeps
    | with_reducible apply Keeps.ite
    | (extract_lets +onlyGivenNames x; refine Keeps.via' (o := orig) (x := x) ?_ (fun hx => ?_); rotate_left; clear_value x; rotate_right; subst x)
    | (extract_lets +onlyGivenNames x; clear_value x)
    | (with_reducible apply Keeps.mk'; with_reducible assumption))

theorem execTileVerifyDone_keeps {orig : State} (s : State) (h_s : Keeps orig s) : KeepsRes orig (execTileVerifyDone s) := by
  unfold execTileVerifyDone
  repeat' (first
    | with_reducible assumption
    | with_reducible apply KeepsRes.next
    | with_reducible apply State.flag_keeps
    | with_reducible apply State.put_keeps
    | with_reducible apply State.ev_keeps
    | with_reducible apply Keeps.cond
    | (extract_lets +onlyGivenNames x; clear_value x)
    | split
    | (with_reducible apply Keeps.mk'; with_reducible assumption))

theorem State.newNonce_keeps {orig : State} (s : State) (h_s : Keeps orig s) : Keeps orig (State.newNonce s) := by
  unfold State.newNonce
  repeat' (first
    | with_reducible apply State.took_keeps
    | (extract_lets +onlyGivenNames x; clear_value x)
    | (with_reducible apply Keeps.mk'; with_reducible assumption))

theorem execDbgChal_keeps {orig : State} (s : State) (h_s : Keeps orig s) : KeepsRes orig (execDbgChal s) := by
  unfold execDbgChal
  repeat' (first
    | with_reducible assumption
    | with_reducible apply KeepsRes.next
    | with_reducible apply State.newNonce_keeps
    | with_reducible apply State.emit_keeps
    | with_reducible apply Keeps.cond)

theorem State.debugEnd_keeps {orig : State} (s : State) (h_s : Keeps orig s) : Keeps orig (State.debugEnd s) := by
  unfold State.debugEnd
  repeat' (first
    | with_reducible assumption
    | with_reducible apply State.ev_keeps
    | with_reducible apply State.lockAbandon_keeps
    | with_reducible apply State.put_keeps
    | with_reducible apply Keeps.cond)

theorem State.respRefuse_keeps {orig : State} (s : State) (h_s : Keeps orig s) : Keeps orig (State.respRefuse s) := by
  unfold State.respRefuse
  repeat' (first
    | with_reducible apply State.ev_keeps
    | with_reducible apply State.flag_keeps
    | with_reducible apply Keeps.cond
    | (extract_lets +onlyGivenNames x; clear_value x)
    | (with_reducible apply Keeps.mk'; with_reducible assumption))

theorem execDbgResp_keeps {orig : State} (level : Nat) (sig : List Byte) (s : State) (h_s : Keeps orig s) : KeepsRes orig (execDbgResp level sig s) := by
  unfold execDbgResp
  repeat' (first
    | with_reducible assumption
    | with_reducible apply KeepsRes.next
    | with_reducible apply State.ev_keeps
    | with_reducible apply State.newNonce_keeps
    | with_reducible apply State.respRefuse_keeps
    | with_reducible apply State.debugEnd_keeps
    | with_reducible apply State.put_keeps
    | with_reducible apply Keeps.cond
    | (extract_lets +onlyGivenNames x; clear_value x)
    | (with_reducible apply Keeps.mk'; with_reducible apply State.newNonce_keeps))

theorem execDbgend_keeps {orig : State} (s : State) (h_s : Keeps orig s) : KeepsRes orig (execDbgend s) := by
  unfold execDbgend
  repeat' (first
    | with_reducible assumption
    | with_reducible apply KeepsRes.next
    | with_reducible apply State.debugEnd_keeps
    | with_reducible apply Keeps.cond
    | (extract_lets +onlyGivenNames x; clear_value x)
    | (with_reducible apply Keeps.mk'; with_reducible assumption))

theorem execRespLockoutEnd_keeps {orig : State} (s : State) (h_s : Keeps orig s) : KeepsRes orig (execRespLockoutEnd s) := by
  unfold execRespLockoutEnd
  repeat' (first
    | with_reducible assumption
    | with_reducible apply KeepsRes.next
    | with_reducible apply State.flag_keeps)

theorem execExtest_keeps {orig : State} (cells : List Bool) (s : State) (h_s : Keeps orig s) : KeepsRes orig (execExtest cells s) := by
  unfold execExtest
  repeat' (first
    | with_reducible assumption
    | with_reducible apply KeepsRes.next
    | with_reducible apply State.emit_keeps
    | with_reducible apply Keeps.cond
    | (extract_lets +onlyGivenNames x; clear_value x)
    | (with_reducible apply Keeps.mk'; with_reducible assumption))

theorem execSamplePreload_keeps {orig : State} (pins : List Bool) (cells : List Bool) (s : State) (h_s : Keeps orig s) : KeepsRes orig (execSamplePreload pins cells s) := by
  unfold execSamplePreload
  repeat' (first
    | with_reducible assumption
    | with_reducible apply KeepsRes.next
    | with_reducible apply State.emit_keeps
    | with_reducible apply Keeps.cond
    | (extract_lets +onlyGivenNames x; clear_value x)
    | (with_reducible apply Keeps.mk'; with_reducible assumption))

end Sys2Proof.Machine
end

