-- ==== Sys2Proof/Laws/KeepsAdmission.lean ====
section
/-!
SUPPORT. Every operation of Machine/Admission.lean keeps the canonical forms and the queue.
-/
namespace Sys2Proof.Machine

theorem State.admRecord_keeps {orig : State} (s : State) (l : List Fail) (h_s : Keeps orig s) : Keeps orig (State.admRecord s l) := by
  unfold State.admRecord
  repeat' (first
    | with_reducible assumption
    | intro x
    | with_reducible apply State.put_keeps
    | with_reducible apply Keeps.foldl)

theorem State.admEnd_keeps {orig : State} (s : State) (last : Nat) (h_s : Keeps orig s) : Keeps orig (State.admEnd s last) := by
  unfold State.admEnd
  repeat' (first
    | with_reducible assumption
    | intro x
    | with_reducible apply State.pend_keeps
    | with_reducible apply State.admNext_keeps
    | with_reducible apply State.ev_keeps
    | with_reducible apply State.put_keeps
    | (extract_lets +onlyGivenNames x; clear_value x)
    | (with_reducible apply Keeps.mk'; with_reducible apply Keeps.foldl))

theorem State.detLoad_keeps {orig : State} (s : State) (c : BankView) (h_s : Keeps orig s) : Keeps orig (State.detLoad s c) := by
  unfold State.detLoad
  repeat' (first
    | with_reducible assumption
    | with_reducible apply State.put_keeps)

theorem State.admAccept_keeps {orig : State} (s : State) (gen : Nat) (instant : Nat) (h_s : Keeps orig s) : Keeps orig (State.admAccept s gen instant) := by
  unfold State.admAccept
  repeat' (first
    | with_reducible assumption
    | intro x
    | with_reducible apply State.put64_keeps
    | with_reducible apply State.put_keeps
    | with_reducible apply State.ev_keeps
    | with_reducible apply State.detLoad_keeps
    | with_reducible apply State.tunAccept_keeps
    | with_reducible apply State.ringSync_keeps
    | with_reducible apply Keeps.cond
    | (extract_lets +onlyGivenNames x; refine Keeps.via' (o := orig) (x := x) ?_ (fun hx => ?_); rotate_left; clear_value x; rotate_right; subst x)
    | (extract_lets +onlyGivenNames x; clear_value x)
    | (with_reducible apply Keeps.mk'; with_reducible assumption)
    | (with_reducible apply Keeps.mk'; first | with_reducible apply State.put64_keeps | with_reducible apply State.put_keeps | with_reducible apply State.ev_keeps | with_reducible apply State.detLoad_keeps | with_reducible apply State.tunAccept_keeps | with_reducible apply State.ringSync_keeps | with_reducible apply Keeps.cond))

theorem State.admPass_keeps {orig : State} (s : State) (r : AdmRequest) (gen : Nat) (instant : Nat) (h_s : Keeps orig s) : Keeps orig (State.admPass s r gen instant) := by
  unfold State.admPass
  repeat' (first
    | with_reducible assumption
    | with_reducible apply State.admAccept_keeps
    | with_reducible apply State.admEnd_keeps
    | with_reducible apply Keeps.cond)

theorem execAdmissionCheckDone_keeps {orig : State} (us : Nat) (s : State) (h_s : Keeps orig s) : KeepsRes orig (execAdmissionCheckDone us s) := by
  unfold execAdmissionCheckDone
  repeat' (first
    | with_reducible assumption
    | with_reducible apply KeepsRes.next
    | with_reducible apply State.put_keeps
    | with_reducible apply State.sendReliable_keeps
    | with_reducible apply State.admPass_keeps
    | with_reducible apply State.admRecord_keeps
    | with_reducible apply State.admEnd_keeps
    | with_reducible apply Keeps.cond
    | (extract_lets +onlyGivenNames x; refine Keeps.via' (o := orig) (x := x) ?_ (fun hx => ?_); rotate_left; clear_value x; rotate_right; subst x)
    | (extract_lets +onlyGivenNames x; clear_value x)
    | split
    | (with_reducible apply Keeps.mk'; with_reducible assumption))

theorem State.partnerAnswer_keeps {orig : State} (s : State) (code : Nat) (h_s : Keeps orig s) : Keeps orig (State.partnerAnswer s code) := by
  unfold State.partnerAnswer
  repeat' (first
    | with_reducible assumption
    | with_reducible apply State.admEnd_keeps
    | with_reducible apply State.admRecord_keeps
    | with_reducible apply State.admPass_keeps
    | with_reducible apply Keeps.cond
    | split)

theorem State.admRequest_keeps {orig : State} (s : State) (r : AdmRequest) (h_s : Keeps orig s) : Keeps orig (State.admRequest s r) := by
  unfold State.admRequest
  repeat' (first
    | with_reducible assumption
    | with_reducible apply State.admStart_keeps
    | with_reducible apply State.ev_keeps
    | with_reducible apply State.flag_keeps
    | with_reducible apply Keeps.cond
    | (extract_lets +onlyGivenNames x; clear_value x)
    | (with_reducible apply Keeps.mk'; with_reducible apply Keeps.cond))

theorem State.admCommand_keeps {orig : State} (s : State) (r : AdmRequest) (h_s : Keeps orig s) : Keeps orig (State.admCommand s r) := by
  unfold State.admCommand
  repeat' (first
    | with_reducible assumption
    | with_reducible apply State.sendReliable_keeps
    | with_reducible apply State.admRequest_keeps
    | with_reducible apply Keeps.cond)

theorem execAdmCheck_keeps {orig : State} (asap : Bool) (s : State) (h_s : Keeps orig s) : KeepsRes orig (execAdmCheck asap s) := by
  unfold execAdmCheck
  repeat' (first
    | with_reducible assumption
    | with_reducible apply KeepsRes.next
    | with_reducible apply State.admCommand_keeps)

theorem execAdmCommit_keeps {orig : State} (asap : Bool) (s : State) (h_s : Keeps orig s) : KeepsRes orig (execAdmCommit asap s) := by
  unfold execAdmCommit
  repeat' (first
    | with_reducible assumption
    | with_reducible apply KeepsRes.next
    | with_reducible apply State.admCommand_keeps)

theorem execAdmAbort_keeps {orig : State} (s : State) (h_s : Keeps orig s) : KeepsRes orig (execAdmAbort s) := by
  unfold execAdmAbort
  repeat' (first
    | with_reducible assumption
    | intro x
    | with_reducible apply KeepsRes.next
    | with_reducible apply State.bad_keeps
    | with_reducible apply State.flag_keeps
    | with_reducible apply State.ev_keeps
    | with_reducible apply State.pend_keeps
    | with_reducible apply State.setTuner_keeps
    | with_reducible apply State.put_keeps
    | with_reducible apply State.detLoad_keeps
    | with_reducible apply State.admNext_keeps
    | with_reducible apply State.ringSync_keeps
    | with_reducible apply KeepsRes.cond
    | with_reducible apply KeepsRes.ite
    | with_reducible apply Keeps.cond
    | with_reducible apply Keeps.foldl
    | (extract_lets +onlyGivenNames x; refine Keeps.via' (o := orig) (x := x) ?_ (fun hx => ?_); rotate_left; clear_value x; rotate_right; subst x)
    | (extract_lets +onlyGivenNames x; clear_value x)
    | (with_reducible apply Keeps.mk'; with_reducible assumption)
    | (with_reducible apply Keeps.mk'; first | with_reducible apply State.bad_keeps | with_reducible apply State.flag_keeps | with_reducible apply State.ev_keeps | with_reducible apply State.pend_keeps | with_reducible apply State.setTuner_keeps | with_reducible apply State.put_keeps | with_reducible apply State.detLoad_keeps | with_reducible apply State.admNext_keeps | with_reducible apply State.ringSync_keeps | with_reducible apply Keeps.foldl | with_reducible apply Keeps.cond))

theorem execCommitInstant_keeps {orig : State} (s : State) (h_s : Keeps orig s) : KeepsRes orig (execCommitInstant s) := by
  unfold execCommitInstant
  repeat' (first
    | with_reducible assumption
    | with_reducible apply KeepsRes.next
    | with_reducible apply State.instantNow_keeps
    | with_reducible apply Keeps.cond)

end Sys2Proof.Machine
end

