-- ==== Sys2Proof/Laws/KeepsFire.lean ====
section
/-!
SUPPORT. Every operation of Machine/Fire.lean keeps the canonical forms and the queue.
-/
namespace Sys2Proof.Machine

theorem State.firePins_keeps {orig : State} (s : State) (u : Nat) (tag : Nat) (h_s : Keeps orig s) : Keeps orig (State.firePins s u tag).1 := by
  unfold State.firePins
  repeat' (first
    | with_reducible assumption
    | intro x
    | with_reducible apply State.pinFire_keeps
    | with_reducible apply Keeps.cond_fst
    | with_reducible apply Keeps.foldl_fst)

theorem State.unitPulses_keeps {orig : State} (s : State) (u : Nat) (n : Nat) (d : TrigDone) (h_s : Keeps orig s) : Keeps orig (State.unitPulses s u n d) := by
  unfold State.unitPulses
  repeat' (first
    | with_reducible assumption
    | intro x
    | with_reducible apply State.setUnit_keeps
    | with_reducible apply Keeps.cond
    | with_reducible apply Keeps.foldl)

theorem State.fireRecord_keeps {orig : State} (s : State) (u : Nat) (d : TrigDone) (m : FireMarks) (body : List Byte) (h_s : Keeps orig s) : Keeps orig (State.fireRecord s u d m body) := by
  unfold State.fireRecord
  repeat' (first
    | with_reducible assumption
    | with_reducible apply State.queueRecord_keeps
    | with_reducible apply Keeps.cond
    | (extract_lets +onlyGivenNames x; clear_value x)
    | (with_reducible apply Keeps.mk'; with_reducible assumption))

theorem State.fireGroup_keeps {orig : State} (s : State) (u : Nat) (at_ : Nat) (h_s : Keeps orig s) : Keeps orig (State.fireGroup s u at_) := by
  unfold State.fireGroup
  repeat' (first
    | with_reducible assumption
    | with_reducible apply State.releaseGroup_keeps
    | with_reducible apply State.setGroup_keeps
    | with_reducible apply State.sendCell_keeps
    | with_reducible apply Keeps.cond
    | split)

theorem State.fire_keeps {orig : State} (s : State) (u : Nat) (d : TrigDone) (h_s : Keeps orig s) : Keeps orig (State.fire s u d) := by
  unfold State.fire
  repeat' (first
    | with_reducible assumption
    | with_reducible apply State.setUnit_keeps
    | with_reducible apply State.put_keeps
    | with_reducible apply State.firePins_keeps
    | with_reducible apply State.unitFlag_keeps
    | with_reducible apply State.capRequest_keeps
    | with_reducible apply State.fireRecord_keeps
    | with_reducible apply State.sendCell_keeps
    | with_reducible apply State.holdPins_keeps
    | with_reducible apply State.fireGroup_keeps
    | with_reducible apply State.unitPulses_keeps
    | with_reducible apply State.wakeRequest_keeps
    | with_reducible apply Keeps.cond)

theorem execTriggerFire_keeps {orig : State} (u : Nat) (s : State) (h_s : Keeps orig s) : KeepsRes orig (execTriggerFire u s) := by
  unfold execTriggerFire
  repeat' (first
    | with_reducible assumption
    | with_reducible apply KeepsRes.next
    | with_reducible apply State.fire_keeps
    | with_reducible apply Keeps.cond
    | split)

theorem State.firingOver_keeps {orig : State} (s : State) (u : Nat) (h_s : Keeps orig s) : Keeps orig (State.firingOver s u) := by
  unfold State.firingOver
  repeat' (first
    | with_reducible assumption
    | with_reducible apply State.trgDone_keeps
    | with_reducible apply State.firingEnds_keeps
    | with_reducible apply State.unitBank_keeps
    | with_reducible apply Keeps.cond)

theorem State.firedEnds_keeps {orig : State} (s : State) (u : Nat) (h_s : Keeps orig s) : Keeps orig (State.firedEnds s u) := by
  unfold State.firedEnds
  repeat' (first
    | with_reducible assumption
    | with_reducible apply State.firingOver_keeps
    | with_reducible apply State.put_keeps
    | with_reducible apply Keeps.cond)

theorem State.markForced_keeps {orig : State} (s : State) (u : Nat) (sched : Bool) (h_s : Keeps orig s) : Keeps orig (State.markForced s u sched) := by
  unfold State.markForced
  repeat' (first
    | (with_reducible apply Keeps.mk'; with_reducible assumption))

theorem State.force_keeps {orig : State} (s : State) (u : Nat) (tag : Nat) (sched : Bool) (h_s : Keeps orig s) : Keeps orig (State.force s u tag sched) := by
  unfold State.force
  repeat' (first
    | with_reducible assumption
    | with_reducible apply State.setUnit_keeps
    | with_reducible apply State.fire_keeps
    | with_reducible apply State.markForced_keeps
    | with_reducible apply State.firedEnds_keeps
    | with_reducible apply Keeps.cond
    | split)

theorem execHoldoffEnd_keeps {orig : State} (u : Nat) (s : State) (h_s : Keeps orig s) : KeepsRes orig (execHoldoffEnd u s) := by
  unfold execHoldoffEnd
  repeat' (first
    | with_reducible assumption
    | with_reducible apply KeepsRes.next
    | with_reducible apply State.firedEnds_keeps
    | with_reducible apply State.firingOver_keeps
    | with_reducible apply Keeps.cond)

theorem execTrgArm_keeps {orig : State} (unit : Nat) (group : Bool) (s : State) (h_s : Keeps orig s) : KeepsRes orig (execTrgArm unit group s) := by
  unfold execTrgArm
  repeat' (first
    | with_reducible assumption
    | with_reducible apply KeepsRes.next
    | with_reducible apply State.bad_keeps
    | with_reducible apply State.groupArm_keeps
    | with_reducible apply State.armUnit_keeps
    | with_reducible apply Keeps.cond
    | split)

theorem execTrgDisarm_keeps {orig : State} (unit : Nat) (group : Bool) (s : State) (h_s : Keeps orig s) : KeepsRes orig (execTrgDisarm unit group s) := by
  unfold execTrgDisarm
  repeat' (first
    | with_reducible assumption
    | intro x
    | with_reducible apply KeepsRes.next
    | with_reducible apply State.bad_keeps
    | with_reducible apply State.holdPins_keeps
    | with_reducible apply State.disarmUnit_keeps
    | with_reducible apply State.disarm_keeps
    | with_reducible apply Keeps.cond
    | with_reducible apply Keeps.foldl)

theorem execTrgForce_keeps {orig : State} (unit : Nat) (ftagen : Bool) (s : State) (h_s : Keeps orig s) : KeepsRes orig (execTrgForce unit ftagen s) := by
  unfold execTrgForce
  repeat' (first
    | with_reducible assumption
    | with_reducible apply KeepsRes.next
    | with_reducible apply State.bad_keeps
    | with_reducible apply State.flag_keeps
    | with_reducible apply State.setUnit_keeps
    | with_reducible apply State.force_keeps
    | with_reducible apply Keeps.cond)

theorem execForceScheduled_keeps {orig : State} (u : Nat) (s : State) (h_s : Keeps orig s) : KeepsRes orig (execForceScheduled u s) := by
  unfold execForceScheduled
  repeat' (first
    | with_reducible assumption
    | with_reducible apply KeepsRes.next
    | with_reducible apply State.flag_keeps
    | with_reducible apply State.setUnit_keeps
    | with_reducible apply State.force_keeps
    | with_reducible apply Keeps.cond
    | (extract_lets +onlyGivenNames x; refine Keeps.via' (o := orig) (x := x) ?_ (fun hx => ?_); rotate_left; clear_value x; rotate_right; subst x)
    | (extract_lets +onlyGivenNames x; clear_value x)
    | split)

theorem execPairGroupArm_keeps {orig : State} (g : Nat) (s : State) (h_s : Keeps orig s) : KeepsRes orig (execPairGroupArm g s) := by
  unfold execPairGroupArm
  repeat' (first
    | with_reducible assumption
    | with_reducible apply KeepsRes.next
    | with_reducible apply State.armGroup_keeps
    | with_reducible apply Keeps.cond
    | split)

end Sys2Proof.Machine
end

