-- ==== Sys2Proof/Laws/KeepsTimeBase.lean ====
section
/-!
SUPPORT. Every operation of Machine/TimeBase.lean keeps the canonical forms and the queue.
-/
namespace Sys2Proof.Machine

theorem execTbSetArm_keeps {orig : State} (r : Requester) (whole : Bool) (value : Nat) (s : State) (h_s : Keeps orig s) : KeepsRes orig (execTbSetArm r whole value s) := by
  unfold execTbSetArm
  repeat' (first
    | with_reducible assumption
    | with_reducible apply KeepsRes.next
    | with_reducible apply State.armSet_keeps)

theorem execTbCancel_keeps {orig : State} (s : State) (h_s : Keeps orig s) : KeepsRes orig (execTbCancel s) := by
  unfold execTbCancel
  repeat' (first
    | with_reducible assumption
    | with_reducible apply KeepsRes.next
    | with_reducible apply State.cancelSet_keeps)

theorem execTbSetApply_keeps {orig : State} (edge : Nat) (s : State) (h_s : Keeps orig s) : KeepsRes orig (execTbSetApply edge s) := by
  unfold execTbSetApply
  repeat' (first
    | with_reducible assumption
    | with_reducible apply KeepsRes.next
    | with_reducible apply State.tbSet_keeps
    | with_reducible apply State.ev_keeps
    | with_reducible apply State.timeStep_keeps
    | (extract_lets +onlyGivenNames x; refine Keeps.via' (o := orig) (x := x) ?_ (fun hx => ?_); rotate_left; clear_value x; rotate_right; subst x)
    | (extract_lets +onlyGivenNames x; clear_value x)
    | split)

theorem execEraIncrement_keeps {orig : State} (s : State) (h_s : Keeps orig s) : KeepsRes orig (execEraIncrement s) := by
  unfold execEraIncrement
  repeat' (first
    | with_reducible assumption
    | with_reducible apply KeepsRes.next
    | with_reducible apply State.ev_keeps
    | with_reducible apply State.tbSet_keeps)

theorem State.lockChange_keeps {orig : State} (s : State) (was : Bool) (h_s : Keeps orig s) : Keeps orig (State.lockChange s was) := by
  unfold State.lockChange
  repeat' (first
    | with_reducible assumption
    | with_reducible apply State.ev_keeps
    | with_reducible apply Keeps.cond)

theorem State.ppsAccept_keeps {orig : State} (s : State) (stamp : Nat) (raw : Nat) (h_s : Keeps orig s) : Keeps orig (State.ppsAccept s stamp raw) := by
  unfold State.ppsAccept
  repeat' (first
    | with_reducible assumption
    | with_reducible apply State.putI_keeps
    | with_reducible apply State.lockChange_keeps
    | with_reducible apply State.tbSet_keeps
    | with_reducible apply State.timeStep_keeps
    | with_reducible apply Keeps.cond)

theorem execPpsEdge_keeps {orig : State} (falling : Bool) (stamp : Nat) (raw : Nat) (s : State) (h_s : Keeps orig s) : KeepsRes orig (execPpsEdge falling stamp raw s) := by
  unfold execPpsEdge
  repeat' (first
    | with_reducible assumption
    | with_reducible apply KeepsRes.next
    | with_reducible apply State.ppsAccept_keeps
    | with_reducible apply State.raise_keeps
    | with_reducible apply State.count_keeps
    | with_reducible apply Keeps.cond)

theorem execPpsMiss_keeps {orig : State} (s : State) (h_s : Keeps orig s) : KeepsRes orig (execPpsMiss s) := by
  unfold execPpsMiss
  repeat' (first
    | with_reducible assumption
    | with_reducible apply KeepsRes.next
    | with_reducible apply State.lockChange_keeps
    | with_reducible apply State.ev_keeps
    | with_reducible apply State.tbSet_keeps
    | with_reducible apply Keeps.cond)

theorem State.discTo_keeps {orig : State} (s : State) (d : Nat) (h_s : Keeps orig s) : Keeps orig (State.discTo s d) := by
  unfold State.discTo
  repeat' (first
    | with_reducible assumption
    | with_reducible apply State.put_keeps
    | with_reducible apply State.lockChange_keeps
    | with_reducible apply State.tbSet_keeps
    | with_reducible apply State.ev_keeps
    | with_reducible apply Keeps.cond)

theorem execTbAdjRateWrite_keeps {orig : State} (v : Word) (s : State) (h_s : Keeps orig s) : KeepsRes orig (execTbAdjRateWrite v s) := by
  unfold execTbAdjRateWrite
  repeat' (first
    | with_reducible assumption
    | with_reducible apply KeepsRes.next
    | with_reducible apply State.put_keeps
    | with_reducible apply State.tbSet_keeps
    | with_reducible apply Keeps.cond)

theorem execSoftDiscStale_keeps {orig : State} (s : State) (h_s : Keeps orig s) : KeepsRes orig (execSoftDiscStale s) := by
  unfold execSoftDiscStale
  repeat' (first
    | with_reducible assumption
    | with_reducible apply KeepsRes.next
    | with_reducible apply State.ev_keeps
    | with_reducible apply State.tbSet_keeps
    | with_reducible apply Keeps.cond)

theorem State.setBand_keeps {orig : State} (s : State) (r : Nat) (b : Nat) (h_s : Keeps orig s) : Keeps orig (State.setBand s r b) := by
  unfold State.setBand
  repeat' (first
    | with_reducible assumption
    | with_reducible apply State.tbSync_keeps
    | with_reducible apply State.ev_keeps
    | with_reducible apply State.put_keeps
    | with_reducible apply Keeps.cond)

theorem State.judgeRef_keeps {orig : State} (s : State) (r : Nat) (y : Int) (h_s : Keeps orig s) : Keeps orig (State.judgeRef s r y) := by
  unfold State.judgeRef
  repeat' (first
    | with_reducible assumption
    | with_reducible apply State.flag_keeps
    | with_reducible apply State.setBand_keeps
    | split
    | (with_reducible apply Keeps.mk'; with_reducible apply State.putI_keeps))

theorem State.lossRule_keeps {orig : State} (s : State) (h_s : Keeps orig s) : Keeps orig (State.lossRule s) := by
  unfold State.lossRule
  repeat' (first
    | with_reducible assumption
    | with_reducible apply State.refCause_keeps
    | with_reducible apply Keeps.cond)

theorem State.evalSwitch_keeps {orig : State} (s : State) (h_s : Keeps orig s) : Keeps orig (State.evalSwitch s) := by
  unfold State.evalSwitch
  repeat' (first
    | with_reducible assumption
    | with_reducible apply State.tbSet_keeps
    | with_reducible apply State.refCause_keeps
    | with_reducible apply State.lossRule_keeps
    | with_reducible apply Keeps.cond
    | (extract_lets +onlyGivenNames x; clear_value x)
    | split)

theorem State.holdEnd_keeps {orig : State} (s : State) (h_s : Keeps orig s) : Keeps orig (State.holdEnd s) := by
  unfold State.holdEnd
  repeat' (first
    | with_reducible assumption
    | with_reducible apply State.clkState_keeps
    | with_reducible apply Keeps.cond)

theorem execRefGateEnd_keeps {orig : State} (count : Nat) (bypass : Int) (s : State) (h_s : Keeps orig s) : KeepsRes orig (execRefGateEnd count bypass s) := by
  unfold execRefGateEnd
  repeat' (first
    | with_reducible assumption
    | with_reducible apply KeepsRes.next
    | with_reducible apply State.tbSet_keeps
    | with_reducible apply State.judgeRef_keeps
    | with_reducible apply State.evalSwitch_keeps
    | with_reducible apply State.holdEnd_keeps
    | with_reducible apply KeepsRes.cond
    | with_reducible apply KeepsRes.ite
    | with_reducible apply Keeps.ite
    | (extract_lets +onlyGivenNames x; refine Keeps.via' (o := orig) (x := x) ?_ (fun hx => ?_); rotate_left; clear_value x; rotate_right; subst x)
    | (extract_lets +onlyGivenNames x; clear_value x)
    | split
    | (with_reducible apply Keeps.mk'; with_reducible assumption)
    | (with_reducible apply Keeps.mk'; first | with_reducible apply State.tbSet_keeps | with_reducible apply State.judgeRef_keeps | with_reducible apply State.evalSwitch_keeps | with_reducible apply State.holdEnd_keeps | with_reducible apply Keeps.ite))

theorem State.manualPend_keeps {orig : State} (s : State) (h_s : Keeps orig s) : Keeps orig (State.manualPend s) := by
  unfold State.manualPend
  repeat' (first
    | with_reducible assumption
    | with_reducible apply State.flag_keeps)

theorem execRefLost_keeps {orig : State} (refB : Bool) (s : State) (h_s : Keeps orig s) : KeepsRes orig (execRefLost refB s) := by
  unfold execRefLost
  repeat' (first
    | with_reducible apply KeepsRes.next
    | with_reducible apply State.manualPend_keeps
    | with_reducible apply State.flag_keeps
    | with_reducible apply State.setBand_keeps
    | with_reducible apply State.evalSwitch_keeps
    | with_reducible apply Keeps.cond
    | (extract_lets +onlyGivenNames x; clear_value x)
    | (with_reducible apply Keeps.mk'; with_reducible assumption)
    | (with_reducible apply Keeps.mk'; with_reducible apply Keeps.cond))

theorem State.startOutputs_keeps {orig : State} (s : State) (h_s : Keeps orig s) : Keeps orig (State.startOutputs s) := by
  unfold State.startOutputs
  repeat' (first
    | (extract_lets +onlyGivenNames x; clear_value x)
    | (with_reducible apply Keeps.mk'; with_reducible assumption))

theorem execRefSwitchover_keeps {orig : State} (s : State) (h_s : Keeps orig s) : KeepsRes orig (execRefSwitchover s) := by
  unfold execRefSwitchover
  repeat' (first
    | with_reducible assumption
    | intro x
    | with_reducible apply KeepsRes.next
    | with_reducible apply State.tbSet_keeps
    | with_reducible apply State.put_keeps
    | with_reducible apply State.wrap_keeps
    | with_reducible apply State.ev_keeps
    | with_reducible apply State.auxTo_keeps
    | with_reducible apply State.holdEnd_keeps
    | with_reducible apply State.manualPend_keeps
    | with_reducible apply State.tbSync_keeps
    | with_reducible apply KeepsRes.cond
    | with_reducible apply KeepsRes.ite
    | with_reducible apply Keeps.cond
    | with_reducible apply Keeps.foldl
    | (extract_lets +onlyGivenNames x; refine Keeps.via' (o := orig) (x := x) ?_ (fun hx => ?_); rotate_left; clear_value x; rotate_right; subst x)
    | (extract_lets +onlyGivenNames x; clear_value x)
    | split
    | (with_reducible apply Keeps.mk'; with_reducible assumption)
    | (with_reducible apply Keeps.mk'; first | with_reducible apply State.tbSet_keeps | with_reducible apply State.put_keeps | with_reducible apply State.wrap_keeps | with_reducible apply State.ev_keeps | with_reducible apply State.auxTo_keeps | with_reducible apply State.holdEnd_keeps | with_reducible apply State.manualPend_keeps | with_reducible apply State.tbSync_keeps | with_reducible apply Keeps.foldl | with_reducible apply Keeps.cond))

theorem execReferenceReturn_keeps {orig : State} (refB : Bool) (s : State) (h_s : Keeps orig s) : KeepsRes orig (execReferenceReturn refB s) := by
  unfold execReferenceReturn
  repeat' (first
    | with_reducible assumption
    | with_reducible apply KeepsRes.next
    | with_reducible apply State.setBand_keeps
    | with_reducible apply State.tbSet_keeps
    | with_reducible apply State.startOutputs_keeps
    | with_reducible apply State.manualPend_keeps
    | with_reducible apply Keeps.cond
    | (with_reducible apply Keeps.mk'; with_reducible assumption))

end Sys2Proof.Machine
end

