-- ==== Sys2Proof/Laws/KeepsPair.lean ====
section
/-!
SUPPORT. Every operation of Machine/Pair.lean keeps the canonical forms and the queue.
-/
namespace Sys2Proof.Machine

theorem State.pstateTo_keeps {orig : State} (s : State) (v : Nat) (h_s : Keeps orig s) : Keeps orig (State.pstateTo s v) := by
  unfold State.pstateTo
  repeat' (first
    | with_reducible assumption
    | with_reducible apply State.ev_keeps
    | with_reducible apply State.put_keeps
    | with_reducible apply Keeps.cond)

theorem State.roleTo_keeps {orig : State} (s : State) (v : Nat) (h_s : Keeps orig s) : Keeps orig (State.roleTo s v) := by
  unfold State.roleTo
  repeat' (first
    | with_reducible assumption
    | with_reducible apply State.keepWrite_keeps
    | with_reducible apply State.ev_keeps
    | with_reducible apply State.put_keeps
    | with_reducible apply Keeps.cond)

theorem State.tlockTo_keeps {orig : State} (s : State) (v : Bool) (h_s : Keeps orig s) : Keeps orig (State.tlockTo s v) := by
  unfold State.tlockTo
  repeat' (first
    | with_reducible assumption
    | with_reducible apply State.tbSync_keeps
    | with_reducible apply State.ev_keeps
    | with_reducible apply State.flag_keeps
    | with_reducible apply Keeps.cond)

theorem State.letGo_keeps {orig : State} (s : State) (st : Nat) (f : QRec → Bool) (h_s : Keeps orig s) : Keeps orig (State.letGo s st f) := by
  unfold State.letGo
  repeat' (first
    | with_reducible assumption
    | intro x
    | with_reducible apply State.setStream_keeps
    | with_reducible apply Keeps.ite
    | (extract_lets +onlyGivenNames x; refine Keeps.via' (o := orig) (x := x) ?_ (fun hx => ?_); rotate_left; clear_value x; rotate_right; subst x)
    | (extract_lets +onlyGivenNames x; clear_value x)
    | split
    | (with_reducible apply Keeps.mk'; with_reducible assumption)
    | (with_reducible apply Keeps.mk'; first | with_reducible apply State.setStream_keeps | with_reducible apply Keeps.ite))

theorem State.letGoAll_keeps {orig : State} (s : State) (h_s : Keeps orig s) : Keeps orig (State.letGoAll s) := by
  unfold State.letGoAll
  repeat' (first
    | with_reducible assumption
    | intro x
    | with_reducible apply State.letGo_keeps
    | with_reducible apply Keeps.cond_fst
    | with_reducible apply Keeps.ite_fst
    | with_reducible apply Keeps.foldl
    | with_reducible apply Keeps.foldl_fst)

theorem State.ackUpTo_keeps {orig : State} (s : State) (ack : Nat) (h_s : Keeps orig s) : Keeps orig (State.ackUpTo s ack) := by
  unfold State.ackUpTo
  repeat' (first
    | with_reducible assumption
    | intro x
    | with_reducible apply State.letGo_keeps
    | with_reducible apply State.sendWaiting_keeps
    | with_reducible apply Keeps.foldl
    | (extract_lets +onlyGivenNames x; refine Keeps.via' (o := orig) (x := x) ?_ (fun hx => ?_); rotate_left; clear_value x; rotate_right; subst x)
    | (extract_lets +onlyGivenNames x; clear_value x)
    | (with_reducible apply Keeps.mk'; with_reducible assumption)
    | (with_reducible apply Keeps.mk'; first | with_reducible apply State.letGo_keeps | with_reducible apply State.sendWaiting_keeps | with_reducible apply Keeps.foldl))

theorem execCellRetransmit_keeps {orig : State} (n : Nat) (s : State) (h_s : Keeps orig s) : KeepsRes orig (execCellRetransmit n s) := by
  unfold execCellRetransmit
  repeat' (first
    | with_reducible assumption
    | with_reducible apply KeepsRes.next
    | with_reducible apply State.count_keeps
    | with_reducible apply State.emit_keeps
    | with_reducible apply Keeps.cond
    | split)

theorem execDzAck_keeps {orig : State} (ok : Bool) (ack : Nat) (s : State) (h_s : Keeps orig s) : KeepsRes orig (execDzAck ok ack s) := by
  unfold execDzAck
  repeat' (first
    | with_reducible assumption
    | intro x
    | with_reducible apply KeepsRes.next
    | with_reducible apply State.cellIn_keeps
    | with_reducible apply State.ackUpTo_keeps)

theorem State.sendJoin_keeps {orig : State} (s : State) (h_s : Keeps orig s) : Keeps orig (State.sendJoin s) := by
  unfold State.sendJoin
  repeat' (first
    | with_reducible assumption
    | with_reducible apply State.sendReliable_keeps)

theorem State.joinStart_keeps {orig : State} (s : State) (h_s : Keeps orig s) : Keeps orig (State.joinStart s) := by
  unfold State.joinStart
  repeat' (first
    | with_reducible assumption
    | with_reducible apply State.letGoAll_keeps
    | with_reducible apply State.pstateTo_keeps
    | with_reducible apply State.flag_keeps
    | with_reducible apply State.sendJoin_keeps
    | (extract_lets +onlyGivenNames x; refine Keeps.via' (o := orig) (x := x) ?_ (fun hx => ?_); rotate_left; clear_value x; rotate_right; subst x)
    | (extract_lets +onlyGivenNames x; clear_value x)
    | (with_reducible apply Keeps.mk'; with_reducible assumption)
    | (with_reducible apply Keeps.mk'; first | with_reducible apply State.letGoAll_keeps | with_reducible apply State.pstateTo_keeps | with_reducible apply State.flag_keeps | with_reducible apply State.sendJoin_keeps))

theorem State.yieldStream_keeps {orig : State} (s : State) (st : Nat) (h_s : Keeps orig s) : Keeps orig (State.yieldStream s st) := by
  unfold State.yieldStream
  repeat' (first
    | with_reducible assumption
    | with_reducible apply State.giveUp_keeps
    | with_reducible apply State.waitSync_keeps
    | with_reducible apply Keeps.cond
    | (extract_lets +onlyGivenNames x; refine Keeps.via' (o := orig) (x := x) ?_ (fun hx => ?_); rotate_left; clear_value x; rotate_right; subst x)
    | (extract_lets +onlyGivenNames x; clear_value x))

theorem State.toShadow_keeps {orig : State} (s : State) (h_s : Keeps orig s) : Keeps orig (State.toShadow s) := by
  unfold State.toShadow
  repeat' (first
    | with_reducible assumption
    | intro x
    | with_reducible apply State.yieldStream_keeps
    | with_reducible apply Keeps.cond_fst
    | with_reducible apply Keeps.ite_fst
    | with_reducible apply Keeps.foldl
    | with_reducible apply Keeps.foldl_fst
    | (extract_lets +onlyGivenNames x; refine Keeps.via' (o := orig) (x := x) ?_ (fun hx => ?_); rotate_left; clear_value x; rotate_right; subst x)
    | (extract_lets +onlyGivenNames x; refine Keeps.via' (o := orig) (x := x.1) ?_ (fun hx => ?_); rotate_left; clear_value x; rotate_right; subst x)
    | (extract_lets +onlyGivenNames x; clear_value x)
    | (with_reducible apply Keeps.mk'; with_reducible assumption)
    | (with_reducible apply Keeps.mk'; first | with_reducible apply State.yieldStream_keeps | with_reducible apply Keeps.foldl))

theorem State.beStandby_keeps {orig : State} (s : State) (pcnt : Nat) (h_s : Keeps orig s) : Keeps orig (State.beStandby s pcnt) := by
  unfold State.beStandby
  repeat' (first
    | with_reducible assumption
    | with_reducible apply State.toShadow_keeps
    | with_reducible apply State.tlockTo_keeps
    | with_reducible apply State.discTo_keeps
    | with_reducible apply State.put_keeps
    | with_reducible apply State.roleTo_keeps)

theorem State.sendSeries_keeps {orig : State} (s : State) (h_s : Keeps orig s) : Keeps orig (State.sendSeries s) := by
  unfold State.sendSeries
  repeat' (first
    | with_reducible assumption
    | intro x
    | with_reducible apply State.sendReliable_keeps
    | with_reducible apply State.sendIndex_keeps
    | with_reducible apply Keeps.foldl)

theorem State.joinDone_keeps {orig : State} (s : State) (h_s : Keeps orig s) : Keeps orig (State.joinDone s) := by
  unfold State.joinDone
  repeat' (first
    | with_reducible assumption
    | with_reducible apply State.pstateTo_keeps
    | with_reducible apply Keeps.cond)

theorem State.splitSeen_keeps {orig : State} (s : State) (role : Nat) (h_s : Keeps orig s) : Keeps orig (State.splitSeen s role) := by
  unfold State.splitSeen
  repeat' (first
    | with_reducible assumption
    | with_reducible apply State.flag_keeps
    | with_reducible apply State.ev_keeps
    | with_reducible apply Keeps.cond
    | (extract_lets +onlyGivenNames x; refine Keeps.via' (o := orig) (x := x) ?_ (fun hx => ?_); rotate_left; clear_value x; rotate_right; subst x)
    | (extract_lets +onlyGivenNames x; clear_value x))

theorem State.settleRole_keeps {orig : State} (s : State) (role : Nat) (pcnt : Nat) (h_s : Keeps orig s) : Keeps orig (State.settleRole s role pcnt) := by
  unfold State.settleRole
  repeat' (first
    | with_reducible assumption
    | with_reducible apply State.roleTo_keeps
    | with_reducible apply State.beStandby_keeps
    | with_reducible apply Keeps.cond)

theorem execDzJoin_keeps {orig : State} (ok : Bool) (n : Nat) (role : Nat) (pcnt : Nat) (digest : Nat) (gen : Nat) (serial : List Byte) (s : State) (h_s : Keeps orig s) : KeepsRes orig (execDzJoin ok n role pcnt digest gen serial s) := by
  unfold execDzJoin
  repeat' (first
    | with_reducible assumption
    | intro x
    | with_reducible apply KeepsRes.next
    | with_reducible apply State.cellIn_keeps
    | with_reducible apply State.sendAck_keeps
    | with_reducible apply State.put_keeps
    | with_reducible apply State.splitSeen_keeps
    | with_reducible apply State.settleRole_keeps
    | with_reducible apply State.settled_keeps
    | with_reducible apply State.joinStart_keeps
    | with_reducible apply State.sendSeries_keeps
    | with_reducible apply State.joinDone_keeps
    | with_reducible apply State.flag_keeps
    | with_reducible apply State.ev_keeps
    | with_reducible apply KeepsRes.cond
    | with_reducible apply KeepsRes.ite
    | with_reducible apply Keeps.cond
    | with_reducible apply Keeps.foldl
    | (extract_lets +onlyGivenNames x; refine Keeps.via' (o := orig) (x := x) ?_ (fun hx => ?_); rotate_left; clear_value x; rotate_right; subst x)
    | (extract_lets +onlyGivenNames x; clear_value x)
    | (with_reducible apply Keeps.mk'; with_reducible assumption)
    | (with_reducible apply Keeps.mk'; first | with_reducible apply State.cellIn_keeps | with_reducible apply State.sendAck_keeps | with_reducible apply State.put_keeps | with_reducible apply State.splitSeen_keeps | with_reducible apply State.settleRole_keeps | with_reducible apply State.settled_keeps | with_reducible apply State.joinStart_keeps | with_reducible apply State.sendSeries_keeps | with_reducible apply State.joinDone_keeps | with_reducible apply State.flag_keeps | with_reducible apply State.ev_keeps | with_reducible apply Keeps.foldl | with_reducible apply Keeps.cond))

theorem State.epochAfter_keeps {orig : State} (s : State) (e : Nat) (h_s : Keeps orig s) : Keeps orig (State.epochAfter s e) := by
  unfold State.epochAfter
  repeat' (first
    | with_reducible assumption
    | with_reducible apply State.put_keeps
    | with_reducible apply Keeps.cond
    | (extract_lets +onlyGivenNames x; refine Keeps.via' (o := orig) (x := x) ?_ (fun hx => ?_); rotate_left; clear_value x; rotate_right; subst x)
    | (extract_lets +onlyGivenNames x; clear_value x))

theorem execDzEpoch_keeps {orig : State} (ok : Bool) (n : Nat) (st : Nat) (epoch : Nat) (first : Nat) (s : State) (h_s : Keeps orig s) : KeepsRes orig (execDzEpoch ok n st epoch first s) := by
  unfold execDzEpoch
  repeat' (first
    | with_reducible assumption
    | intro x
    | with_reducible apply KeepsRes.next
    | with_reducible apply State.reliableIn_keeps
    | with_reducible apply State.put_keeps
    | with_reducible apply State.epochAfter_keeps
    | with_reducible apply State.setStream_keeps
    | with_reducible apply KeepsRes.cond
    | with_reducible apply KeepsRes.ite
    | with_reducible apply Keeps.cond
    | (extract_lets +onlyGivenNames x; refine Keeps.via' (o := orig) (x := x) ?_ (fun hx => ?_); rotate_left; clear_value x; rotate_right; subst x)
    | (extract_lets +onlyGivenNames x; clear_value x)
    | (with_reducible apply Keeps.mk'; with_reducible assumption)
    | (with_reducible apply Keeps.mk'; first | with_reducible apply State.reliableIn_keeps | with_reducible apply State.put_keeps | with_reducible apply State.epochAfter_keeps | with_reducible apply State.setStream_keeps | with_reducible apply Keeps.cond))

theorem execDzIndex_keeps {orig : State} (ok : Bool) (n : Nat) (inp : Nat) (offset : Nat) (s : State) (h_s : Keeps orig s) : KeepsRes orig (execDzIndex ok n inp offset s) := by
  unfold execDzIndex
  repeat' (first
    | with_reducible assumption
    | intro x
    | with_reducible apply KeepsRes.next
    | with_reducible apply State.reliableIn_keeps
    | with_reducible apply Keeps.cond
    | (extract_lets +onlyGivenNames x; clear_value x)
    | (with_reducible apply Keeps.mk'; with_reducible assumption))

theorem State.lockLost_keeps {orig : State} (s : State) (h_s : Keeps orig s) : Keeps orig (State.lockLost s) := by
  unfold State.lockLost
  repeat' (first
    | with_reducible assumption
    | with_reducible apply State.tlockTo_keeps
    | with_reducible apply State.pstateTo_keeps
    | with_reducible apply Keeps.cond
    | (extract_lets +onlyGivenNames x; refine Keeps.via' (o := orig) (x := x) ?_ (fun hx => ?_); rotate_left; clear_value x; rotate_right; subst x)
    | (extract_lets +onlyGivenNames x; clear_value x))

theorem State.pairStep_keeps {orig : State} (s : State) (d : Int) (h_s : Keeps orig s) : Keeps orig (State.pairStep s d) := by
  unfold State.pairStep
  repeat' (first
    | with_reducible assumption
    | intro x
    | with_reducible apply State.timeStep_keeps
    | with_reducible apply Keeps.cond_fst
    | with_reducible apply Keeps.ite_fst
    | (extract_lets +onlyGivenNames x; refine Keeps.via' (o := orig) (x := x) ?_ (fun hx => ?_); rotate_left; clear_value x; rotate_right; subst x)
    | (extract_lets +onlyGivenNames x; refine Keeps.via' (o := orig) (x := x.1) ?_ (fun hx => ?_); rotate_left; clear_value x; rotate_right; subst x)
    | (extract_lets +onlyGivenNames x; clear_value x)
    | (with_reducible apply Keeps.mk'; with_reducible assumption)
    | (with_reducible apply Keeps.mk'; first | with_reducible apply State.timeStep_keeps))

theorem State.measure_keeps {orig : State} (s : State) (two : Int) (h_s : Keeps orig s) : Keeps orig (State.measure s two) := by
  unfold State.measure
  repeat' (first
    | with_reducible assumption
    | with_reducible apply State.pairStep_keeps
    | with_reducible apply State.tbSet_keeps
    | with_reducible apply State.tlockTo_keeps
    | with_reducible apply State.joinDone_keeps
    | with_reducible apply State.lockLost_keeps
    | with_reducible apply Keeps.cond
    | with_reducible apply Keeps.ite
    | (extract_lets +onlyGivenNames x; refine Keeps.via' (o := orig) (x := x) ?_ (fun hx => ?_); rotate_left; clear_value x; rotate_right; subst x)
    | (extract_lets +onlyGivenNames x; clear_value x)
    | split
    | (with_reducible apply Keeps.mk'; with_reducible assumption)
    | (with_reducible apply Keeps.mk'; first | with_reducible apply State.pairStep_keeps | with_reducible apply State.tbSet_keeps | with_reducible apply State.tlockTo_keeps | with_reducible apply State.joinDone_keeps | with_reducible apply State.lockLost_keeps | with_reducible apply Keeps.cond | with_reducible apply Keeps.ite))

theorem execDzSync_keeps {orig : State} (ok : Bool) (id : Nat) (t1 : Nat) (pid : Nat) (pt : Nat) (stamp : Nat) (s : State) (h_s : Keeps orig s) : KeepsRes orig (execDzSync ok id t1 pid pt stamp s) := by
  unfold execDzSync
  repeat' (first
    | with_reducible assumption
    | intro x
    | with_reducible apply KeepsRes.next
    | with_reducible apply State.cellIn_keeps
    | with_reducible apply State.putI_keeps
    | with_reducible apply State.put_keeps
    | with_reducible apply State.measure_keeps
    | with_reducible apply Keeps.cond
    | (extract_lets +onlyGivenNames x; refine Keeps.via' (o := orig) (x := x) ?_ (fun hx => ?_); rotate_left; clear_value x; rotate_right; subst x)
    | (extract_lets +onlyGivenNames x; clear_value x)
    | split
    | (with_reducible apply Keeps.mk'; with_reducible assumption))

theorem State.sendSync_keeps {orig : State} (s : State) (stamp : Nat) (h_s : Keeps orig s) : Keeps orig (State.sendSync s stamp) := by
  unfold State.sendSync
  repeat' (first
    | with_reducible assumption
    | with_reducible apply State.sendCell_keeps
    | with_reducible apply Keeps.cond_fst
    | with_reducible apply Keeps.ite_fst
    | (extract_lets +onlyGivenNames x; refine Keeps.via' (o := orig) (x := x) ?_ (fun hx => ?_); rotate_left; clear_value x; rotate_right; subst x)
    | (extract_lets +onlyGivenNames x; refine Keeps.via' (o := orig) (x := x.1) ?_ (fun hx => ?_); rotate_left; clear_value x; rotate_right; subst x)
    | (extract_lets +onlyGivenNames x; clear_value x)
    | (with_reducible apply Keeps.mk'; with_reducible assumption)
    | (with_reducible apply Keeps.mk'; first | with_reducible apply State.sendCell_keeps))

theorem State.syncSilent_keeps {orig : State} (s : State) (h_s : Keeps orig s) : Keeps orig (State.syncSilent s) := by
  unfold State.syncSilent
  repeat' (first
    | with_reducible assumption
    | (with_reducible apply Keeps.mk'; with_reducible assumption))

theorem execSyncSend_keeps {orig : State} (at_ : Nat) (s : State) (h_s : Keeps orig s) : KeepsRes orig (execSyncSend at_ s) := by
  unfold execSyncSend
  repeat' (first
    | with_reducible assumption
    | with_reducible apply KeepsRes.next
    | with_reducible apply State.syncSilent_keeps
    | with_reducible apply State.sendSync_keeps
    | with_reducible apply State.lockLost_keeps
    | with_reducible apply KeepsRes.cond
    | with_reducible apply KeepsRes.ite
    | with_reducible apply Keeps.cond
    | (extract_lets +onlyGivenNames x; refine Keeps.via' (o := orig) (x := x) ?_ (fun hx => ?_); rotate_left; clear_value x; rotate_right; subst x)
    | (extract_lets +onlyGivenNames x; clear_value x))

theorem State.dropPassed_keeps {orig : State} (s : State) (k : Nat) (h_s : Keeps orig s) : Keeps orig (State.dropPassed s k) := by
  unfold State.dropPassed
  repeat' (first
    | with_reducible assumption
    | intro x
    | with_reducible apply State.setStream_keeps
    | with_reducible apply Keeps.cond_fst
    | with_reducible apply Keeps.ite_fst
    | with_reducible apply Keeps.foldl
    | with_reducible apply Keeps.foldl_fst
    | (extract_lets +onlyGivenNames x; refine Keeps.via' (o := orig) (x := x) ?_ (fun hx => ?_); rotate_left; clear_value x; rotate_right; subst x)
    | (extract_lets +onlyGivenNames x; refine Keeps.via' (o := orig) (x := x.1) ?_ (fun hx => ?_); rotate_left; clear_value x; rotate_right; subst x)
    | (extract_lets +onlyGivenNames x; clear_value x)
    | (with_reducible apply Keeps.mk'; with_reducible assumption)
    | (with_reducible apply Keeps.mk'; first | with_reducible apply State.setStream_keeps | with_reducible apply Keeps.foldl))

theorem execDzOrder_keeps {orig : State} (ok : Bool) (n : Nat) (stream : Nat) (first : Bool) (key : Nat) (oseq : Nat) (dg : Nat) (s : State) (h_s : Keeps orig s) : KeepsRes orig (execDzOrder ok n stream first key oseq dg s) := by
  unfold execDzOrder
  repeat' (first
    | with_reducible assumption
    | intro x
    | with_reducible apply KeepsRes.next
    | with_reducible apply State.reliableIn_keeps
    | with_reducible apply State.dropPassed_keeps
    | with_reducible apply State.setStream_keeps
    | with_reducible apply State.compareDigest_keeps
    | with_reducible apply KeepsRes.cond
    | with_reducible apply KeepsRes.ite
    | with_reducible apply Keeps.cond
    | with_reducible apply Keeps.ite
    | with_reducible apply Keeps.cond_fst
    | with_reducible apply Keeps.ite_fst
    | (extract_lets +onlyGivenNames x; refine Keeps.via' (o := orig) (x := x) ?_ (fun hx => ?_); rotate_left; clear_value x; rotate_right; subst x)
    | (extract_lets +onlyGivenNames x; refine Keeps.via' (o := orig) (x := x.1) ?_ (fun hx => ?_); rotate_left; clear_value x; rotate_right; subst x)
    | (extract_lets +onlyGivenNames x; clear_value x)
    | split
    | (with_reducible apply Keeps.mk'; with_reducible assumption)
    | (with_reducible apply Keeps.mk'; first | with_reducible apply State.reliableIn_keeps | with_reducible apply State.dropPassed_keeps | with_reducible apply State.setStream_keeps | with_reducible apply State.compareDigest_keeps | with_reducible apply Keeps.cond | with_reducible apply Keeps.ite))

theorem execOrderMiss_keeps {orig : State} (st : Nat) (oseq : Nat) (s : State) (h_s : Keeps orig s) : KeepsRes orig (execOrderMiss st oseq s) := by
  unfold execOrderMiss
  repeat' (first
    | with_reducible assumption
    | with_reducible apply KeepsRes.next
    | with_reducible apply State.ev_keeps
    | with_reducible apply State.count_keeps
    | with_reducible apply State.setStream_keeps
    | (extract_lets +onlyGivenNames x; clear_value x)
    | split
    | (with_reducible apply Keeps.mk'; with_reducible assumption))

theorem execDzSent_keeps {orig : State} (ok : Bool) (n : Nat) (st : Nat) (oseq : Nat) (s : State) (h_s : Keeps orig s) : KeepsRes orig (execDzSent ok n st oseq s) := by
  unfold execDzSent
  repeat' (first
    | with_reducible assumption
    | intro x
    | with_reducible apply KeepsRes.next
    | with_reducible apply State.reliableIn_keeps
    | with_reducible apply State.setStream_keeps
    | with_reducible apply Keeps.cond
    | (extract_lets +onlyGivenNames x; refine Keeps.via' (o := orig) (x := x) ?_ (fun hx => ?_); rotate_left; clear_value x; rotate_right; subst x)
    | (extract_lets +onlyGivenNames x; clear_value x)
    | (with_reducible apply Keeps.mk'; with_reducible assumption))

theorem execSentSend_keeps {orig : State} (s : State) (h_s : Keeps orig s) : KeepsRes orig (execSentSend s) := by
  unfold execSentSend
  repeat' (first
    | with_reducible assumption
    | intro x
    | with_reducible apply KeepsRes.next
    | with_reducible apply State.sendReliable_keeps
    | with_reducible apply State.setStream_keeps
    | with_reducible apply Keeps.cond
    | with_reducible apply Keeps.foldl)

theorem execDzStep_keeps {orig : State} (ok : Bool) (n : Nat) (st : Nat) (step : Nat) (s : State) (h_s : Keeps orig s) : KeepsRes orig (execDzStep ok n st step s) := by
  unfold execDzStep
  repeat' (first
    | with_reducible assumption
    | intro x
    | with_reducible apply KeepsRes.next
    | with_reducible apply State.reliableIn_keeps
    | with_reducible apply State.orderStep_keeps
    | with_reducible apply State.put_keeps
    | with_reducible apply Keeps.cond)

theorem execDzCreq_keeps {orig : State} (ok : Bool) (n : Nat) (commit : Bool) (asap : Bool) (instant : Nat) (gen : Nat) (digest : Nat) (s : State) (h_s : Keeps orig s) : KeepsRes orig (execDzCreq ok n commit asap instant gen digest s) := by
  unfold execDzCreq
  repeat' (first
    | with_reducible assumption
    | intro x
    | with_reducible apply KeepsRes.next
    | with_reducible apply State.reliableIn_keeps
    | with_reducible apply State.admRequest_keeps
    | with_reducible apply Keeps.cond
    | (extract_lets +onlyGivenNames x; clear_value x)
    | (with_reducible apply Keeps.mk'; with_reducible assumption))

theorem execDzCresp_keeps {orig : State} (ok : Bool) (n : Nat) (code : Nat) (_need : Nat) (_avail : Nat) (s : State) (h_s : Keeps orig s) : KeepsRes orig (execDzCresp ok n code _need _avail s) := by
  unfold execDzCresp
  repeat' (first
    | with_reducible assumption
    | intro x
    | with_reducible apply KeepsRes.next
    | with_reducible apply State.reliableIn_keeps
    | with_reducible apply State.partnerAnswer_keeps
    | with_reducible apply Keeps.cond)

theorem execCrespTimeout_keeps {orig : State} (s : State) (h_s : Keeps orig s) : KeepsRes orig (execCrespTimeout s) := by
  unfold execCrespTimeout
  repeat' (first
    | with_reducible assumption
    | with_reducible apply KeepsRes.next
    | with_reducible apply State.partnerAnswer_keeps)

theorem execDzMode_keeps {orig : State} (ok : Bool) (n : Nat) (op : Nat) (s : State) (h_s : Keeps orig s) : KeepsRes orig (execDzMode ok n op s) := by
  unfold execDzMode
  repeat' (first
    | with_reducible assumption
    | intro x
    | with_reducible apply KeepsRes.next
    | with_reducible apply State.reliableIn_keeps
    | with_reducible apply State.powerCmd_keeps
    | with_reducible apply Keeps.cond)

theorem execDzWake_keeps {orig : State} (ok : Bool) (id : Nat) (_src : Nat) (s : State) (h_s : Keeps orig s) : KeepsRes orig (execDzWake ok id _src s) := by
  unfold execDzWake
  repeat' (first
    | with_reducible assumption
    | intro x
    | with_reducible apply KeepsRes.next
    | with_reducible apply State.onceIn_keeps
    | with_reducible apply State.wakeRequest_keeps
    | with_reducible apply Keeps.cond)

theorem State.tallyLost_keeps {orig : State} (s : State) (st : Nat) (l : List ShadowRec) (h_s : Keeps orig s) : Keeps orig (State.tallyLost s st l) := by
  unfold State.tallyLost
  repeat' (first
    | with_reducible assumption
    | intro x
    | with_reducible apply State.tally_keeps
    | with_reducible apply Keeps.foldl)

theorem State.numberOn_keeps {orig : State} (s : State) (st : Nat) (h_s : Keeps orig s) : Keeps orig (State.numberOn s st) := by
  unfold State.numberOn
  repeat' (first
    | with_reducible assumption
    | with_reducible apply State.setStream_keeps
    | with_reducible apply State.put_keeps
    | with_reducible apply Keeps.ite
    | (extract_lets +onlyGivenNames x; refine Keeps.via' (o := orig) (x := x) ?_ (fun hx => ?_); rotate_left; clear_value x; rotate_right; subst x)
    | (extract_lets +onlyGivenNames x; clear_value x)
    | split
    | (with_reducible apply Keeps.mk'; with_reducible assumption)
    | (with_reducible apply Keeps.mk'; first | with_reducible apply State.setStream_keeps | with_reducible apply State.put_keeps | with_reducible apply Keeps.ite))

theorem State.failoverLoss_keeps {orig : State} (s : State) (st : Nat) (missing : List (Nat × Nat)) (h_s : Keeps orig s) : Keeps orig (State.failoverLoss s st missing) := by
  unfold State.failoverLoss
  repeat' (first
    | with_reducible assumption
    | with_reducible apply State.enterFirst_keeps
    | with_reducible apply Keeps.cond_fst
    | with_reducible apply Keeps.ite_fst
    | split)

theorem State.leaveShadow_keeps {orig : State} (fresh : Bool) (s : State) (st : Nat) (h_s : Keeps orig s) : Keeps orig (State.leaveShadow fresh s st) := by
  unfold State.leaveShadow
  repeat' (first
    | with_reducible assumption
    | intro x
    | with_reducible apply State.setStream_keeps
    | with_reducible apply State.streamStart_keeps
    | with_reducible apply State.tallyLost_keeps
    | with_reducible apply State.reach_keeps
    | with_reducible apply State.enterAt_keeps
    | with_reducible apply State.numberOn_keeps
    | with_reducible apply State.failoverLoss_keeps
    | with_reducible apply Keeps.cond
    | with_reducible apply Keeps.foldl
    | (extract_lets +onlyGivenNames x; refine Keeps.via' (o := orig) (x := x) ?_ (fun hx => ?_); rotate_left; clear_value x; rotate_right; subst x)
    | (extract_lets +onlyGivenNames x; clear_value x)
    | (with_reducible apply Keeps.mk'; with_reducible assumption)
    | (with_reducible apply Keeps.mk'; first | with_reducible apply State.setStream_keeps | with_reducible apply State.streamStart_keeps | with_reducible apply State.tallyLost_keeps | with_reducible apply State.reach_keeps | with_reducible apply State.enterAt_keeps | with_reducible apply State.numberOn_keeps | with_reducible apply State.failoverLoss_keeps | with_reducible apply Keeps.foldl | with_reducible apply Keeps.cond))

theorem State.becomePrimary_keeps {orig : State} (s : State) (fresh : Bool) (h_s : Keeps orig s) : Keeps orig (State.becomePrimary s fresh) := by
  unfold State.becomePrimary
  repeat' (first
    | with_reducible assumption
    | intro x
    | with_reducible apply State.wrap_keeps
    | with_reducible apply State.roleTo_keeps
    | with_reducible apply State.tlockTo_keeps
    | with_reducible apply State.leaveShadow_keeps
    | with_reducible apply State.via_keeps
    | with_reducible apply execDiskAttach_keeps
    | with_reducible apply Keeps.cond
    | (extract_lets +onlyGivenNames x; clear_value x)
    | (with_reducible apply Keeps.mk'; with_reducible apply State.discTo_keeps)
    | (with_reducible apply Keeps.mk'; with_reducible apply Keeps.foldl))

theorem State.partnerLost_keeps {orig : State} (s : State) (h_s : Keeps orig s) : Keeps orig (State.partnerLost s) := by
  unfold State.partnerLost
  repeat' (first
    | with_reducible assumption
    | with_reducible apply State.pstateTo_keeps
    | with_reducible apply State.flag_keeps
    | with_reducible apply State.ev_keeps
    | with_reducible apply State.partnerAnswer_keeps
    | with_reducible apply State.becomePrimary_keeps
    | with_reducible apply State.letGoAll_keeps
    | with_reducible apply Keeps.cond
    | (extract_lets +onlyGivenNames x; refine Keeps.via' (o := orig) (x := x) ?_ (fun hx => ?_); rotate_left; clear_value x; rotate_right; subst x)
    | (extract_lets +onlyGivenNames x; clear_value x)
    | (with_reducible apply Keeps.mk'; with_reducible assumption)
    | (with_reducible apply Keeps.mk'; first | with_reducible apply State.pstateTo_keeps | with_reducible apply State.flag_keeps | with_reducible apply State.ev_keeps | with_reducible apply State.partnerAnswer_keeps | with_reducible apply State.becomePrimary_keeps | with_reducible apply State.letGoAll_keeps | with_reducible apply Keeps.cond))

theorem execPartnerLost_keeps {orig : State} (witness : Bool) (s : State) (h_s : Keeps orig s) : KeepsRes orig (execPartnerLost witness s) := by
  unfold execPartnerLost
  repeat' (first
    | with_reducible assumption
    | with_reducible apply KeepsRes.next
    | with_reducible apply State.ev_keeps
    | with_reducible apply State.flag_keeps
    | with_reducible apply State.pstateTo_keeps
    | with_reducible apply State.partnerLost_keeps
    | with_reducible apply Keeps.cond)

theorem execDzLeaveCell_keeps {orig : State} (ok : Bool) (n : Nat) (s : State) (h_s : Keeps orig s) : KeepsRes orig (execDzLeaveCell ok n s) := by
  unfold execDzLeaveCell
  repeat' (first
    | with_reducible assumption
    | intro x
    | with_reducible apply KeepsRes.next
    | with_reducible apply State.reliableIn_keeps
    | with_reducible apply State.partnerLost_keeps
    | with_reducible apply Keeps.cond)

theorem State.linkReturns_keeps {orig : State} (s : State) (role : Nat) (pcnt : Nat) (h_s : Keeps orig s) : Keeps orig (State.linkReturns s role pcnt) := by
  unfold State.linkReturns
  repeat' (first
    | with_reducible assumption
    | with_reducible apply State.splitSeen_keeps
    | with_reducible apply State.beStandby_keeps
    | with_reducible apply State.joinStart_keeps
    | with_reducible apply Keeps.cond
    | (extract_lets +onlyGivenNames x; refine Keeps.via' (o := orig) (x := x) ?_ (fun hx => ?_); rotate_left; clear_value x; rotate_right; subst x)
    | (extract_lets +onlyGivenNames x; clear_value x))

theorem execDzHeartbeat_keeps {orig : State} (ok : Bool) (role : Nat) (pstate : Nat) (mode : Nat) (pcnt : Nat) (_gen : Nat) (ack : Nat) (forced : Bool) (s : State) (h_s : Keeps orig s) : KeepsRes orig (execDzHeartbeat ok role pstate mode pcnt _gen ack forced s) := by
  unfold execDzHeartbeat
  repeat' (first
    | with_reducible assumption
    | intro x
    | with_reducible apply KeepsRes.next
    | with_reducible apply State.cellIn_keeps
    | with_reducible apply State.put_keeps
    | with_reducible apply State.flag_keeps
    | with_reducible apply State.partnerLost_keeps
    | with_reducible apply State.ackUpTo_keeps
    | with_reducible apply State.linkReturns_keeps
    | with_reducible apply State.pstateTo_keeps
    | with_reducible apply State.settled_keeps
    | with_reducible apply State.joinDone_keeps
    | with_reducible apply KeepsRes.cond
    | with_reducible apply KeepsRes.ite
    | with_reducible apply Keeps.cond
    | (extract_lets +onlyGivenNames x; refine Keeps.via' (o := orig) (x := x) ?_ (fun hx => ?_); rotate_left; clear_value x; rotate_right; subst x)
    | (extract_lets +onlyGivenNames x; clear_value x)
    | (with_reducible apply Keeps.mk'; with_reducible assumption)
    | (with_reducible apply Keeps.mk'; first | with_reducible apply State.cellIn_keeps | with_reducible apply State.put_keeps | with_reducible apply State.flag_keeps | with_reducible apply State.partnerLost_keeps | with_reducible apply State.ackUpTo_keeps | with_reducible apply State.linkReturns_keeps | with_reducible apply State.pstateTo_keeps | with_reducible apply State.settled_keeps | with_reducible apply State.joinDone_keeps | with_reducible apply Keeps.cond))

theorem execHeartbeatSend_keeps {orig : State} (s : State) (h_s : Keeps orig s) : KeepsRes orig (execHeartbeatSend s) := by
  unfold execHeartbeatSend
  repeat' (first
    | with_reducible assumption
    | with_reducible apply KeepsRes.next
    | with_reducible apply State.sendCell_keeps
    | with_reducible apply Keeps.cond)

theorem execDzSwitch_keeps {orig : State} (s : State) (h_s : Keeps orig s) : KeepsRes orig (execDzSwitch s) := by
  unfold execDzSwitch
  repeat' (first
    | with_reducible assumption
    | with_reducible apply KeepsRes.next
    | with_reducible apply State.sendReliable_keeps
    | with_reducible apply Keeps.cond
    | (extract_lets +onlyGivenNames x; clear_value x)
    | (with_reducible apply Keeps.mk'; with_reducible assumption))

theorem State.handOver_keeps {orig : State} (s : State) (st : Nat) (h_s : Keeps orig s) : Keeps orig (State.handOver s st) := by
  unfold State.handOver
  repeat' (first
    | with_reducible assumption
    | intro x
    | with_reducible apply State.setStream_keeps
    | with_reducible apply State.setQueue_keeps
    | with_reducible apply State.count_keeps
    | with_reducible apply State.trgTaken_keeps
    | with_reducible apply State.waitSync_keeps
    | with_reducible apply State.sendReliable_keeps
    | with_reducible apply Keeps.foldl
    | (extract_lets +onlyGivenNames x; refine Keeps.via' (o := orig) (x := x) ?_ (fun hx => ?_); rotate_left; clear_value x; rotate_right; subst x)
    | (extract_lets +onlyGivenNames x; clear_value x)
    | (with_reducible apply Keeps.mk'; with_reducible assumption)
    | (with_reducible apply Keeps.mk'; first | with_reducible apply State.setStream_keeps | with_reducible apply State.setQueue_keeps | with_reducible apply State.count_keeps | with_reducible apply State.trgTaken_keeps | with_reducible apply State.waitSync_keeps | with_reducible apply State.sendReliable_keeps | with_reducible apply Keeps.foldl))

theorem execSwitchFinal_keeps {orig : State} (s : State) (h_s : Keeps orig s) : KeepsRes orig (execSwitchFinal s) := by
  unfold execSwitchFinal
  repeat' (first
    | with_reducible assumption
    | intro x
    | with_reducible apply KeepsRes.next
    | with_reducible apply State.handOver_keeps
    | with_reducible apply State.sendReliable_keeps
    | with_reducible apply State.beStandby_keeps
    | with_reducible apply State.put_keeps
    | with_reducible apply State.pstateTo_keeps
    | with_reducible apply State.ev_keeps
    | with_reducible apply KeepsRes.cond
    | with_reducible apply KeepsRes.ite
    | with_reducible apply Keeps.cond
    | with_reducible apply Keeps.foldl
    | (extract_lets +onlyGivenNames x; refine Keeps.via' (o := orig) (x := x) ?_ (fun hx => ?_); rotate_left; clear_value x; rotate_right; subst x)
    | (extract_lets +onlyGivenNames x; clear_value x)
    | (with_reducible apply Keeps.mk'; with_reducible assumption)
    | (with_reducible apply Keeps.mk'; first | with_reducible apply State.handOver_keeps | with_reducible apply State.sendReliable_keeps | with_reducible apply State.beStandby_keeps | with_reducible apply State.put_keeps | with_reducible apply State.pstateTo_keeps | with_reducible apply State.ev_keeps | with_reducible apply Keeps.foldl | with_reducible apply Keeps.cond))

theorem execDzSwitchCell_keeps {orig : State} (ok : Bool) (n : Nat) (phase : Nat) (s : State) (h_s : Keeps orig s) : KeepsRes orig (execDzSwitchCell ok n phase s) := by
  unfold execDzSwitchCell
  repeat' (first
    | with_reducible assumption
    | intro x
    | with_reducible apply KeepsRes.next
    | with_reducible apply State.reliableIn_keeps
    | with_reducible apply State.ev_keeps
    | with_reducible apply State.put_keeps
    | with_reducible apply State.becomePrimary_keeps
    | with_reducible apply Keeps.cond
    | (extract_lets +onlyGivenNames x; clear_value x)
    | (with_reducible apply Keeps.mk'; with_reducible assumption))

theorem execDzLeave_keeps {orig : State} (s : State) (h_s : Keeps orig s) : KeepsRes orig (execDzLeave s) := by
  unfold execDzLeave
  repeat' (first
    | with_reducible assumption
    | with_reducible apply KeepsRes.next
    | with_reducible apply State.sendReliable_keeps
    | with_reducible apply State.letGoAll_keeps
    | with_reducible apply State.tlockTo_keeps
    | with_reducible apply State.flag_keeps
    | with_reducible apply State.pstateTo_keeps
    | with_reducible apply KeepsRes.cond
    | with_reducible apply KeepsRes.ite
    | with_reducible apply Keeps.cond
    | (extract_lets +onlyGivenNames x; refine Keeps.via' (o := orig) (x := x) ?_ (fun hx => ?_); rotate_left; clear_value x; rotate_right; subst x)
    | (extract_lets +onlyGivenNames x; clear_value x)
    | (with_reducible apply Keeps.mk'; with_reducible assumption)
    | (with_reducible apply Keeps.mk'; first | with_reducible apply State.sendReliable_keeps | with_reducible apply State.letGoAll_keeps | with_reducible apply State.tlockTo_keeps | with_reducible apply State.flag_keeps | with_reducible apply State.pstateTo_keeps | with_reducible apply Keeps.cond))

theorem State.shadowEnd_keeps {orig : State} (s : State) (h_s : Keeps orig s) : Keeps orig (State.shadowEnd s) := by
  unfold State.shadowEnd
  repeat' (first
    | with_reducible assumption
    | intro x
    | with_reducible apply State.leaveShadow_keeps
    | with_reducible apply Keeps.cond
    | with_reducible apply Keeps.foldl
    | (extract_lets +onlyGivenNames x; refine Keeps.via' (o := orig) (x := x) ?_ (fun hx => ?_); rotate_left; clear_value x; rotate_right; subst x)
    | (extract_lets +onlyGivenNames x; clear_value x)
    | (with_reducible apply Keeps.mk'; with_reducible assumption)
    | (with_reducible apply Keeps.mk'; first | with_reducible apply State.leaveShadow_keeps | with_reducible apply Keeps.foldl | with_reducible apply Keeps.cond))

theorem State.pairConfig_keeps {orig : State} (s : State) (h_s : Keeps orig s) : Keeps orig (State.pairConfig s) := by
  unfold State.pairConfig
  repeat' (first
    | with_reducible assumption
    | with_reducible apply State.letGoAll_keeps
    | with_reducible apply State.waveSync_keeps
    | with_reducible apply State.flag_keeps
    | with_reducible apply State.roleTo_keeps
    | with_reducible apply State.pstateTo_keeps
    | with_reducible apply State.shadowEnd_keeps
    | with_reducible apply State.tlockTo_keeps
    | with_reducible apply Keeps.cond
    | (extract_lets +onlyGivenNames x; refine Keeps.via' (o := orig) (x := x) ?_ (fun hx => ?_); rotate_left; clear_value x; rotate_right; subst x)
    | (extract_lets +onlyGivenNames x; clear_value x)
    | (with_reducible apply Keeps.mk'; with_reducible assumption)
    | (with_reducible apply Keeps.mk'; first | with_reducible apply State.letGoAll_keeps | with_reducible apply State.waveSync_keeps | with_reducible apply State.flag_keeps | with_reducible apply State.roleTo_keeps | with_reducible apply State.pstateTo_keeps | with_reducible apply State.shadowEnd_keeps | with_reducible apply State.tlockTo_keeps | with_reducible apply Keeps.cond))

theorem execRejoin_keeps {orig : State} (s : State) (h_s : Keeps orig s) : KeepsRes orig (execRejoin s) := by
  unfold execRejoin
  repeat' (first
    | with_reducible assumption
    | with_reducible apply KeepsRes.next
    | with_reducible apply State.pairConfig_keeps)

theorem State.laneAdapt_keeps {orig : State} (s : State) (lane : Nat) (old : Nat) (st : Nat) (h_s : Keeps orig s) : Keeps orig (State.laneAdapt s lane old st) := by
  unfold State.laneAdapt
  repeat' (first
    | with_reducible assumption
    | with_reducible apply State.count_keeps
    | with_reducible apply Keeps.cond
    | (extract_lets +onlyGivenNames x; refine Keeps.via' (o := orig) (x := x) ?_ (fun hx => ?_); rotate_left; clear_value x; rotate_right; subst x)
    | (extract_lets +onlyGivenNames x; clear_value x)
    | (with_reducible apply Keeps.mk'; with_reducible assumption)
    | (with_reducible apply Keeps.mk'; first | with_reducible apply State.count_keeps | with_reducible apply Keeps.cond))

theorem State.linkGone_keeps {orig : State} (s : State) (h_s : Keeps orig s) : Keeps orig (State.linkGone s) := by
  unfold State.linkGone
  repeat' (first
    | with_reducible assumption
    | with_reducible apply State.letGoAll_keeps
    | with_reducible apply State.pstateTo_keeps
    | with_reducible apply Keeps.cond
    | (with_reducible apply Keeps.mk'; with_reducible assumption)
    | (with_reducible apply Keeps.mk'; first | with_reducible apply State.letGoAll_keeps | with_reducible apply State.pstateTo_keeps | with_reducible apply Keeps.cond))

theorem execDzLinkState_keeps {orig : State} (lane : Nat) (st : Nat) (s : State) (h_s : Keeps orig s) : KeepsRes orig (execDzLinkState lane st s) := by
  unfold execDzLinkState
  repeat' (first
    | with_reducible assumption
    | with_reducible apply KeepsRes.next
    | with_reducible apply State.laneAdapt_keeps
    | with_reducible apply State.put_keeps
    | with_reducible apply State.ev_keeps
    | with_reducible apply State.count_keeps
    | with_reducible apply State.linkSync_keeps
    | with_reducible apply State.linkGone_keeps
    | with_reducible apply State.sendWaiting_keeps
    | with_reducible apply KeepsRes.cond
    | with_reducible apply KeepsRes.ite
    | with_reducible apply Keeps.cond
    | (extract_lets +onlyGivenNames x; refine Keeps.via' (o := orig) (x := x) ?_ (fun hx => ?_); rotate_left; clear_value x; rotate_right; subst x)
    | (extract_lets +onlyGivenNames x; clear_value x))

theorem execDzFireA_keeps {orig : State} (ok : Bool) (id : Nat) (u : Nat) (firing : Nat) (tag : Nat) (tq : Nat) (_elem : Nat) (s : State) (h_s : Keeps orig s) : KeepsRes orig (execDzFireA ok id u firing tag tq _elem s) := by
  unfold execDzFireA
  repeat' (first
    | with_reducible assumption
    | intro x
    | with_reducible apply KeepsRes.next
    | with_reducible apply State.onceIn_keeps
    | with_reducible apply State.setUnit_keeps
    | with_reducible apply Keeps.cond
    | with_reducible apply Keeps.foldl
    | (extract_lets +onlyGivenNames x; clear_value x)
    | (with_reducible apply Keeps.mk'; with_reducible assumption))

theorem execDzFireB_keeps {orig : State} (ok : Bool) (id : Nat) (body : List Byte) (s : State) (h_s : Keeps orig s) : KeepsRes orig (execDzFireB ok id body s) := by
  unfold execDzFireB
  repeat' (first
    | with_reducible assumption
    | intro x
    | with_reducible apply KeepsRes.next
    | with_reducible apply State.onceIn_keeps
    | with_reducible apply State.setUnit_keeps
    | with_reducible apply State.queueRecord_keeps
    | with_reducible apply Keeps.cond
    | with_reducible apply Keeps.foldl
    | (extract_lets +onlyGivenNames x; clear_value x)
    | split
    | (with_reducible apply Keeps.mk'; with_reducible assumption)
    | (with_reducible apply Keeps.mk'; with_reducible apply Keeps.foldl))

theorem execDzArm_keeps {orig : State} (ok : Bool) (id : Nat) (g : Nat) (num : Nat) (tag : Nat) (s : State) (h_s : Keeps orig s) : KeepsRes orig (execDzArm ok id g num tag s) := by
  unfold execDzArm
  repeat' (first
    | with_reducible assumption
    | intro x
    | with_reducible apply KeepsRes.next
    | with_reducible apply State.onceIn_keeps
    | with_reducible apply State.groupArm_keeps
    | with_reducible apply State.setGroup_keeps
    | with_reducible apply State.unitFlag_keeps
    | with_reducible apply State.armGroup_keeps
    | with_reducible apply Keeps.cond
    | with_reducible apply Keeps.foldl)

theorem execDzRelease_keeps {orig : State} (ok : Bool) (id : Nat) (g : Nat) (num : Nat) (s : State) (h_s : Keeps orig s) : KeepsRes orig (execDzRelease ok id g num s) := by
  unfold execDzRelease
  repeat' (first
    | with_reducible assumption
    | intro x
    | with_reducible apply KeepsRes.next
    | with_reducible apply State.onceIn_keeps
    | with_reducible apply State.unitFlag_keeps
    | with_reducible apply State.releaseGroup_keeps
    | with_reducible apply State.setGroup_keeps
    | with_reducible apply Keeps.cond
    | with_reducible apply Keeps.foldl
    | (extract_lets +onlyGivenNames x; clear_value x)
    | (with_reducible apply Keeps.mk'; with_reducible assumption))

end Sys2Proof.Machine
end

