-- ==== Sys2Proof/Laws/KeepsAccess.lean ====
section
/-!
SUPPORT. Every operation of Machine/Access.lean keeps the canonical forms and the queue.
-/
namespace Sys2Proof.Machine

theorem State.did_keeps {orig : State} (s : State) (f : State → Res) (h_s : Keeps orig s) (h_f : ∀ a0, Keeps orig a0 → KeepsRes orig (f a0)) : Keeps orig (State.did s f) := by
  unfold State.did
  repeat' (first
    | with_reducible assumption
    | with_reducible apply h_f
    | with_reducible refine Keeps.of_res ?_ (by assumption)
    | split)

theorem State.setMasked_keeps {orig : State} (s : State) (o : Nat) (m : Nat) (v : Nat) (h_s : Keeps orig s) : Keeps orig (State.setMasked s o m v) := by
  unfold State.setMasked
  repeat' (first
    | with_reducible assumption
    | with_reducible apply State.setWord_keeps)

theorem State.sense_keeps {orig : State} (s : State) (r : Requester) (b : Blk) (l : Nat) (h_s : Keeps orig s) : Keeps orig (State.sense s r b l) := by
  unfold State.sense
  repeat' (first
    | with_reducible assumption
    | with_reducible apply State.put_keeps
    | with_reducible apply State.put96_keeps
    | with_reducible apply State.tbSync_keeps
    | with_reducible apply State.setWord_keeps
    | with_reducible apply State.dmaAttn_keeps
    | with_reducible apply Keeps.ite
    | (extract_lets +onlyGivenNames x; clear_value x)
    | split)

theorem State.tileRead_keeps {orig : State} (s : State) (r : Requester) (b : Blk) (t : Nat) (l : Nat) (h_s : Keeps orig s) : Keeps orig (State.tileRead s r b t l).1 := by
  unfold State.tileRead
  repeat' (first
    | with_reducible assumption
    | with_reducible apply State.mdata_keeps
    | with_reducible apply State.plainRead_keeps
    | with_reducible apply Keeps.cond_fst)

theorem State.gsRead_keeps {orig : State} (s : State) (g : Nat) (h_s : Keeps orig s) : Keeps orig (State.gsRead s g).1 := by
  unfold State.gsRead
  repeat' (first
    | with_reducible assumption
    | with_reducible apply State.put_keeps
    | with_reducible apply State.bad_keeps
    | with_reducible apply Keeps.cond_fst)

theorem State.edges_keeps {orig : State} (s : State) (h_s : Keeps orig s) : Keeps orig (State.edges s) := by
  unfold State.edges
  repeat' (first
    | with_reducible assumption
    | with_reducible apply State.took_keeps
    | with_reducible apply State.slowEdge_keeps
    | with_reducible apply State.keepEdge_keeps
    | with_reducible apply Keeps.cond
    | (extract_lets +onlyGivenNames x; refine Keeps.via' (o := orig) (x := x) ?_ (fun hx => ?_); rotate_left; clear_value x; rotate_right; subst x)
    | (extract_lets +onlyGivenNames x; clear_value x))

theorem State.wordRead_keeps {orig : State} (s : State) (r : Requester) (b : Blk) (o : Nat) (h_s : Keeps orig s) : Keeps orig (State.wordRead s r b o).1 := by
  unfold State.wordRead
  repeat' (first
    | with_reducible assumption
    | intro x
    | with_reducible apply State.tileRead_keeps
    | with_reducible apply State.gsRead_keeps
    | with_reducible apply State.plainRead_keeps
    | with_reducible apply Keeps.ite
    | with_reducible apply Keeps.cond_fst
    | with_reducible apply Keeps.ite_fst
    | (extract_lets +onlyGivenNames x; refine Keeps.via' (o := orig) (x := x) ?_ (fun hx => ?_); rotate_left; clear_value x; rotate_right; subst x)
    | (extract_lets +onlyGivenNames x; refine Keeps.via' (o := orig) (x := x.1) ?_ (fun hx => ?_); rotate_left; clear_value x; rotate_right; subst x)
    | (extract_lets +onlyGivenNames x; clear_value x)
    | split)

theorem State.regRead_keeps {orig : State} (s : State) (r : Requester) (b : Blk) (o : Nat) (h_s : Keeps orig s) : Keeps orig (State.regRead s r b o).1 := by
  unfold State.regRead
  repeat' (first
    | with_reducible assumption
    | with_reducible apply State.sense_keeps
    | with_reducible apply State.edges_keeps
    | with_reducible apply State.wordRead_keeps
    | with_reducible apply Keeps.cond
    | with_reducible apply Keeps.cond_fst
    | with_reducible apply Keeps.ite_fst
    | (extract_lets +onlyGivenNames x; refine Keeps.via' (o := orig) (x := x) ?_ (fun hx => ?_); rotate_left; clear_value x; rotate_right; subst x)
    | (extract_lets +onlyGivenNames x; refine Keeps.via' (o := orig) (x := x.1) ?_ (fun hx => ?_); rotate_left; clear_value x; rotate_right; subst x)
    | (extract_lets +onlyGivenNames x; clear_value x))

theorem State.busRead_keeps {orig : State} (s : State) (r : Requester) (o : Nat) (h_s : Keeps orig s) : Keeps orig (State.busRead s r o).1 := by
  unfold State.busRead
  repeat' (first
    | with_reducible assumption
    | with_reducible apply State.badAccess_keeps
    | with_reducible apply State.regRead_keeps
    | with_reducible apply State.bad_keeps
    | with_reducible apply Keeps.ite_fst
    | split)

theorem State.setHeld_keeps {orig : State} (s : State) (r : Requester) (b : Blk) (v : Nat) (h_s : Keeps orig s) : Keeps orig (State.setHeld s r b v) := by
  unfold State.setHeld
  repeat' (first
    | (extract_lets +onlyGivenNames x; clear_value x)
    | (with_reducible apply Keeps.mk'; with_reducible assumption))

theorem State.holdWord_keeps {orig : State} (s : State) (r : Requester) (b : Blk) (k : Nat) (v : Nat) (h_s : Keeps orig s) : Keeps orig (State.holdWord s r b k v) := by
  unfold State.holdWord
  repeat' (first
    | with_reducible assumption
    | with_reducible apply State.setHeld_keeps)

theorem State.storeWords_keeps {orig : State} (s : State) (r : Requester) (b : Blk) (o : Nat) (n : Nat) (v : Nat) (mask : Nat → Nat) (h_s : Keeps orig s) : Keeps orig (State.storeWords s r b o n v mask) := by
  unfold State.storeWords
  repeat' (first
    | with_reducible assumption
    | intro x
    | with_reducible apply State.setMasked_keeps
    | with_reducible apply Keeps.foldl)

theorem State.ignored_keeps {orig : State} (s : State) (b : Blk) (o : Nat) (why : Nat) (h_s : Keeps orig s) : Keeps orig (State.ignored s b o why) := by
  unfold State.ignored
  repeat' (first
    | with_reducible assumption
    | with_reducible apply State.liveIgnored_keeps
    | with_reducible apply State.frozenIgnored_keeps
    | with_reducible apply Keeps.cond)

theorem State.codeWrite_keeps {orig : State} (s : State) (b : Blk) (o : Nat) (v : Nat) (h_s : Keeps orig s) : Keeps orig (State.codeWrite s b o v) := by
  unfold State.codeWrite
  repeat' (first
    | with_reducible assumption
    | with_reducible apply State.ignored_keeps
    | with_reducible apply State.setMasked_keeps
    | with_reducible apply State.plainWrite_keeps
    | with_reducible apply Keeps.cond)

theorem State.hdrWrite_keeps {orig : State} (s : State) (b : Blk) (o : Nat) (v : Nat) (h_s : Keeps orig s) : Keeps orig (State.hdrWrite s b o v) := by
  unfold State.hdrWrite
  repeat' (first
    | with_reducible assumption
    | with_reducible apply State.setMasked_keeps
    | with_reducible apply State.lockIgnored_keeps
    | with_reducible apply State.flag_keeps
    | with_reducible apply Keeps.cond)

theorem State.identWrite_keeps {orig : State} (s : State) (o : Nat) (v : Nat) (h_s : Keeps orig s) : Keeps orig (State.identWrite s o v) := by
  unfold State.identWrite
  repeat' (first
    | with_reducible assumption
    | with_reducible apply State.ev_keeps
    | with_reducible apply State.flag_keeps
    | with_reducible apply State.codeWrite_keeps
    | with_reducible apply State.emit_keeps
    | with_reducible apply Keeps.cond
    | with_reducible apply Keeps.ite)

theorem State.evtCfg_keeps {orig : State} (s : State) (n : Nat) (v : Nat) (h_s : Keeps orig s) : Keeps orig (State.evtCfg s n v) := by
  unfold State.evtCfg
  repeat' (first
    | with_reducible assumption
    | with_reducible apply State.codeWrite_keeps
    | with_reducible apply State.deliver_keeps
    | with_reducible apply Keeps.cond)

theorem State.evtClear_keeps {orig : State} (s : State) (n : Nat) (h_s : Keeps orig s) : Keeps orig (State.evtClear s n) := by
  unfold State.evtClear
  repeat' (first
    | with_reducible assumption
    | with_reducible apply State.put_keeps
    | with_reducible apply State.flag_keeps)

theorem State.eventsWrite_keeps {orig : State} (s : State) (o : Nat) (v : Nat) (h_s : Keeps orig s) : Keeps orig (State.eventsWrite s o v) := by
  unfold State.eventsWrite
  repeat' (first
    | with_reducible assumption
    | with_reducible apply State.evtCfg_keeps
    | with_reducible apply State.evtClear_keeps
    | with_reducible apply State.codeWrite_keeps
    | with_reducible apply Keeps.ite)

theorem State.prefWritten_keeps {orig : State} (s : State) (h_s : Keeps orig s) : Keeps orig (State.prefWritten s) := by
  unfold State.prefWritten
  repeat' (first
    | with_reducible assumption
    | with_reducible apply State.manualPend_keeps
    | with_reducible apply State.tbSet_keeps
    | with_reducible apply Keeps.cond)

theorem State.timeWrite_keeps {orig : State} (s : State) (o : Nat) (v : Nat) (h_s : Keeps orig s) : Keeps orig (State.timeWrite s o v) := by
  unfold State.timeWrite
  repeat' (first
    | with_reducible assumption
    | with_reducible apply State.bad_keeps
    | with_reducible apply State.plainWrite_keeps
    | with_reducible apply State.did_keeps
    | with_reducible apply execTbCancel_keeps
    | with_reducible apply State.discTo_keeps
    | with_reducible apply State.codeWrite_keeps
    | with_reducible apply State.calSwap_keeps
    | with_reducible apply execTbAdjRateWrite_keeps
    | with_reducible apply State.prefWritten_keeps
    | with_reducible apply execPtpPop_keeps
    | with_reducible apply Keeps.cond
    | with_reducible apply Keeps.ite
    | (extract_lets +onlyGivenNames x; refine Keeps.via' (o := orig) (x := x) ?_ (fun hx => ?_); rotate_left; clear_value x; rotate_right; subst x)
    | (extract_lets +onlyGivenNames x; clear_value x)
    | split)

theorem State.clocksWrite_keeps {orig : State} (s : State) (o : Nat) (v : Nat) (h_s : Keeps orig s) : Keeps orig (State.clocksWrite s o v) := by
  unfold State.clocksWrite
  repeat' (first
    | with_reducible assumption
    | intro x
    | with_reducible apply State.bad_keeps
    | with_reducible apply State.codeWrite_keeps
    | with_reducible apply State.did_keeps
    | with_reducible apply execRelock_keeps
    | with_reducible apply execBandcal_keeps
    | with_reducible apply State.liveIgnored_keeps
    | with_reducible apply State.plainWrite_keeps
    | with_reducible apply execSysrefFire_keeps
    | with_reducible apply execClkOutWrite_keeps
    | with_reducible apply Keeps.cond
    | with_reducible apply Keeps.ite)

theorem State.powerWrite_keeps {orig : State} (s : State) (o : Nat) (v : Nat) (h_s : Keeps orig s) : Keeps orig (State.powerWrite s o v) := by
  unfold State.powerWrite
  repeat' (first
    | with_reducible assumption
    | intro x
    | with_reducible apply State.did_keeps
    | with_reducible apply execPwrSleep_keeps
    | with_reducible apply execPwrWatch_keeps
    | with_reducible apply execPwrFull_keeps
    | with_reducible apply execPwrKeep_keeps
    | with_reducible apply State.bad_keeps
    | with_reducible apply State.codeWrite_keeps
    | with_reducible apply State.keepWrite_keeps
    | with_reducible apply State.trimsHeld_keeps
    | with_reducible apply State.trimsNew_keeps
    | with_reducible apply execHkUrg_keeps
    | with_reducible apply Keeps.cond
    | with_reducible apply Keeps.ite
    | with_reducible apply Keeps.foldl
    | (extract_lets +onlyGivenNames x; refine Keeps.via' (o := orig) (x := x) ?_ (fun hx => ?_); rotate_left; clear_value x; rotate_right; subst x)
    | (extract_lets +onlyGivenNames x; clear_value x)
    | split)

theorem State.securityWrite_keeps {orig : State} (s : State) (mailbox : Bool) (o : Nat) (v : Nat) (h_s : Keeps orig s) : Keeps orig (State.securityWrite s mailbox o v) := by
  unfold State.securityWrite
  repeat' (first
    | with_reducible assumption
    | intro x
    | with_reducible apply State.secIdle_keeps
    | with_reducible apply State.did_keeps
    | with_reducible apply execSecReset_keeps
    | with_reducible apply execSecProvision_keeps
    | with_reducible apply execLcreq_keeps
    | with_reducible apply execSvnburn_keeps
    | with_reducible apply execSecRevoke_keeps
    | with_reducible apply execTileVerify_keeps
    | with_reducible apply execFlashRead_keeps
    | with_reducible apply execFlashProgram_keeps
    | with_reducible apply execFlashErase_keeps
    | with_reducible apply State.keepWrite_keeps
    | with_reducible apply State.codeWrite_keeps
    | with_reducible apply State.bad_keeps
    | with_reducible apply State.setWord_keeps
    | with_reducible apply Keeps.cond
    | with_reducible apply Keeps.ite
    | split)

theorem State.pairWrite_keeps {orig : State} (s : State) (o : Nat) (v : Nat) (h_s : Keeps orig s) : Keeps orig (State.pairWrite s o v) := by
  unfold State.pairWrite
  repeat' (first
    | with_reducible assumption
    | intro x
    | with_reducible apply State.bad_keeps
    | with_reducible apply State.codeWrite_keeps
    | with_reducible apply State.pairConfig_keeps
    | with_reducible apply State.did_keeps
    | with_reducible apply execDzSwitch_keeps
    | with_reducible apply execDzLeave_keeps
    | with_reducible apply execRejoin_keeps
    | with_reducible apply Keeps.cond
    | with_reducible apply Keeps.ite
    | split)

theorem State.ingressWrite_keeps {orig : State} (s : State) (o : Nat) (v : Nat) (h_s : Keeps orig s) : Keeps orig (State.ingressWrite s o v) := by
  unfold State.ingressWrite
  repeat' (first
    | with_reducible assumption
    | intro x
    | with_reducible apply State.codeWrite_keeps
    | with_reducible apply State.did_keeps
    | with_reducible apply execRatefaultClear_keeps
    | with_reducible apply Keeps.ite)

theorem State.detectWrite_keeps {orig : State} (s : State) (o : Nat) (v : Nat) (h_s : Keeps orig s) : Keeps orig (State.detectWrite s o v) := by
  unfold State.detectWrite
  repeat' (first
    | with_reducible assumption
    | intro x
    | with_reducible apply State.did_keeps
    | with_reducible apply execDvwClrHold_keeps
    | with_reducible apply execDvwClrPersist_keeps
    | with_reducible apply State.codeWrite_keeps
    | with_reducible apply Keeps.cond
    | with_reducible apply Keeps.ite)

theorem State.triggersWrite_keeps {orig : State} (s : State) (o : Nat) (v : Nat) (h_s : Keeps orig s) : Keeps orig (State.triggersWrite s o v) := by
  unfold State.triggersWrite
  repeat' (first
    | with_reducible assumption
    | intro x
    | with_reducible apply State.did_keeps
    | with_reducible apply execTrgArm_keeps
    | with_reducible apply execTrgDisarm_keeps
    | with_reducible apply State.bad_keeps
    | with_reducible apply execTrgForce_keeps
    | with_reducible apply State.codeWrite_keeps
    | with_reducible apply Keeps.cond
    | with_reducible apply Keeps.ite
    | split)

theorem State.recorderWrite_keeps {orig : State} (s : State) (o : Nat) (v : Nat) (h_s : Keeps orig s) : Keeps orig (State.recorderWrite s o v) := by
  unfold State.recorderWrite
  repeat' (first
    | with_reducible assumption
    | intro x
    | with_reducible apply State.did_keeps
    | with_reducible apply execCapRelease_keeps
    | with_reducible apply execCapRead_keeps
    | with_reducible apply execCapRequest_keeps
    | with_reducible apply State.bad_keeps
    | with_reducible apply State.setWord_keeps
    | with_reducible apply State.codeWrite_keeps
    | with_reducible apply Keeps.ite
    | split)

theorem State.crossWrite_keeps {orig : State} (s : State) (o : Nat) (v : Nat) (h_s : Keeps orig s) : Keeps orig (State.crossWrite s o v) := by
  unfold State.crossWrite
  repeat' (first
    | with_reducible assumption
    | intro x
    | with_reducible apply State.did_keeps
    | with_reducible apply execXspWdataWrite_keeps
    | with_reducible apply State.liveIgnored_keeps
    | with_reducible apply State.codeWrite_keeps
    | with_reducible apply State.clearWeights_keeps
    | with_reducible apply Keeps.cond
    | with_reducible apply Keeps.ite)

theorem State.tileWrite_keeps {orig : State} (s : State) (b : Blk) (t : Nat) (o : Nat) (v : Nat) (h_s : Keeps orig s) : Keeps orig (State.tileWrite s b t o v) := by
  unfold State.tileWrite
  repeat' (first
    | with_reducible assumption
    | intro x
    | with_reducible apply State.bad_keeps
    | with_reducible apply State.codeWrite_keeps
    | with_reducible apply State.did_keeps
    | with_reducible apply execTileRun_keeps
    | with_reducible apply execTileHalt_keeps
    | with_reducible apply execTileReset_keeps
    | with_reducible apply execXctlArm_keeps
    | with_reducible apply execXctlForce_keeps
    | with_reducible apply execXctlCancel_keeps
    | with_reducible apply execTilePdataWrite_keeps
    | with_reducible apply State.mdata_keeps
    | with_reducible apply execTileTimerWrite_keeps
    | with_reducible apply execTileRingRidxWrite_keeps
    | with_reducible apply Keeps.cond
    | (extract_lets +onlyGivenNames x; refine Keeps.via' (o := orig) (x := x) ?_ (fun hx => ?_); rotate_left; clear_value x; rotate_right; subst x)
    | split)

theorem State.galleryWrite_keeps {orig : State} (s : State) (r : Requester) (g : Fin 8) (o : Nat) (v : Nat) (h_s : Keeps orig s) : Keeps orig (State.galleryWrite s r g o v) := by
  unfold State.galleryWrite
  repeat' (first
    | with_reducible assumption
    | intro x
    | with_reducible apply State.tileWrite_keeps
    | with_reducible apply State.did_keeps
    | with_reducible apply execLockAcquire_keeps
    | with_reducible apply execLockRelease_keeps
    | with_reducible apply execLockBreak_keeps
    | with_reducible apply execDmaGsdataAccess_keeps
    | with_reducible apply execDmaStart_keeps
    | with_reducible apply execDmaDoorbell_keeps
    | with_reducible apply execDmaStop_keeps
    | with_reducible apply execDmaAbort_keeps
    | with_reducible apply execDmaClear_keeps
    | with_reducible apply State.dmaAttn_keeps
    | with_reducible apply State.codeWrite_keeps
    | with_reducible apply execDmaCqRidxWrite_keeps
    | with_reducible apply Keeps.ite
    | (extract_lets +onlyGivenNames x; clear_value x)
    | split)

theorem State.memoryWrite_keeps {orig : State} (s : State) (o : Nat) (v : Nat) (h_s : Keeps orig s) : Keeps orig (State.memoryWrite s o v) := by
  unfold State.memoryWrite
  repeat' (first
    | with_reducible assumption
    | intro x
    | with_reducible apply State.did_keeps
    | with_reducible apply execMemRetire_keeps
    | with_reducible apply execMemRestore_keeps
    | with_reducible apply State.bad_keeps
    | with_reducible apply State.codeWrite_keeps
    | with_reducible apply Keeps.cond
    | with_reducible apply Keeps.ite
    | split)

theorem State.streamsWrite_keeps {orig : State} (s : State) (o : Nat) (v : Nat) (h_s : Keeps orig s) : Keeps orig (State.streamsWrite s o v) := by
  unfold State.streamsWrite
  repeat' (first
    | with_reducible assumption
    | intro x
    | with_reducible apply State.did_keeps
    | with_reducible apply execHrgTailWrite_keeps
    | with_reducible apply execDiskAttach_keeps
    | with_reducible apply execDiskFormat_keeps
    | with_reducible apply execDiskDetach_keeps
    | with_reducible apply execDiskKeep_keeps
    | with_reducible apply execDiskFree_keeps
    | with_reducible apply execDiskRead_keeps
    | with_reducible apply State.codeWrite_keeps
    | with_reducible apply Keeps.ite
    | split)

theorem State.displayWrite_keeps {orig : State} (s : State) (o : Nat) (v : Nat) (h_s : Keeps orig s) : Keeps orig (State.displayWrite s o v) := by
  unfold State.displayWrite
  repeat' (first
    | with_reducible assumption
    | intro x
    | with_reducible apply State.codeWrite_keeps
    | with_reducible apply State.did_keeps
    | with_reducible apply execRetrain_keeps
    | with_reducible apply execDspFlipWrite_keeps
    | with_reducible apply State.bad_keeps
    | with_reducible apply execAuxNativeWrite_keeps
    | with_reducible apply execAuxNativeRead_keeps
    | with_reducible apply execAuxI2cWrite_keeps
    | with_reducible apply execAuxI2cRead_keeps
    | with_reducible apply Keeps.cond
    | with_reducible apply Keeps.ite
    | (extract_lets +onlyGivenNames x; refine Keeps.via' (o := orig) (x := x) ?_ (fun hx => ?_); rotate_left; clear_value x; rotate_right; subst x)
    | split)

theorem State.stimulusWrite_keeps {orig : State} (s : State) (o : Nat) (v : Nat) (h_s : Keeps orig s) : Keeps orig (State.stimulusWrite s o v) := by
  unfold State.stimulusWrite
  repeat' (first
    | with_reducible assumption
    | with_reducible apply State.did_keeps
    | with_reducible apply execCalLane_keeps
    | with_reducible apply execCalAlign_keeps
    | with_reducible apply execCalGain_keeps
    | with_reducible apply execCalFlat_keeps
    | with_reducible apply execCalMonitor_keeps
    | with_reducible apply execCalAbort_keeps
    | with_reducible apply execCalApply_keeps
    | with_reducible apply State.bad_keeps
    | with_reducible apply State.codeWrite_keeps
    | with_reducible apply Keeps.cond
    | with_reducible apply Keeps.ite
    | (extract_lets +onlyGivenNames x; refine Keeps.via' (o := orig) (x := x) ?_ (fun hx => ?_); rotate_left; clear_value x; rotate_right; subst x)
    | (extract_lets +onlyGivenNames x; clear_value x)
    | split)

theorem State.admissionWrite_keeps {orig : State} (s : State) (o : Nat) (v : Nat) (h_s : Keeps orig s) : Keeps orig (State.admissionWrite s o v) := by
  unfold State.admissionWrite
  repeat' (first
    | with_reducible assumption
    | intro x
    | with_reducible apply State.did_keeps
    | with_reducible apply execAdmCheck_keeps
    | with_reducible apply execAdmCommit_keeps
    | with_reducible apply execAdmAbort_keeps
    | with_reducible apply State.bad_keeps
    | with_reducible apply State.codeWrite_keeps
    | with_reducible apply Keeps.ite
    | split)

theorem State.completeWrite_keeps {orig : State} (s : State) (r : Requester) (b : Blk) (o : Nat) (n : Nat) (v : Nat) (h_s : Keeps orig s) : Keeps orig (State.completeWrite s r b o n v) := by
  unfold State.completeWrite
  repeat' (first
    | with_reducible assumption
    | intro x
    | with_reducible apply State.did_keeps
    | with_reducible apply execTbSetArm_keeps
    | with_reducible apply State.setHeld_keeps
    | with_reducible apply State.ignored_keeps
    | with_reducible apply State.storeWords_keeps
    | with_reducible apply Keeps.cond)

theorem State.regWrite_keeps {orig : State} (s : State) (r : Requester) (mailbox : Bool) (b : Blk) (o : Nat) (v : Nat) (h_s : Keeps orig s) : Keeps orig (State.regWrite s r mailbox b o v) := by
  unfold State.regWrite
  repeat' (first
    | with_reducible assumption
    | with_reducible apply State.hdrWrite_keeps
    | with_reducible apply State.holdWord_keeps
    | with_reducible apply State.completeWrite_keeps
    | with_reducible apply State.identWrite_keeps
    | with_reducible apply State.eventsWrite_keeps
    | with_reducible apply State.timeWrite_keeps
    | with_reducible apply State.clocksWrite_keeps
    | with_reducible apply State.powerWrite_keeps
    | with_reducible apply State.securityWrite_keeps
    | with_reducible apply State.pairWrite_keeps
    | with_reducible apply State.ingressWrite_keeps
    | with_reducible apply State.codeWrite_keeps
    | with_reducible apply State.detectWrite_keeps
    | with_reducible apply State.triggersWrite_keeps
    | with_reducible apply State.recorderWrite_keeps
    | with_reducible apply State.crossWrite_keeps
    | with_reducible apply State.galleryWrite_keeps
    | with_reducible apply State.memoryWrite_keeps
    | with_reducible apply State.streamsWrite_keeps
    | with_reducible apply State.displayWrite_keeps
    | with_reducible apply State.stimulusWrite_keeps
    | with_reducible apply State.admissionWrite_keeps
    | with_reducible apply Keeps.cond
    | with_reducible apply Keeps.ite
    | split)

theorem State.wordWrite_keeps {orig : State} (s : State) (r : Requester) (mailbox : Bool) (o : Nat) (v : Word) (h_s : Keeps orig s) : Keeps orig (State.wordWrite s r mailbox o v) := by
  unfold State.wordWrite
  repeat' (first
    | with_reducible assumption
    | with_reducible apply State.badAccess_keeps
    | with_reducible apply State.regWrite_keeps
    | with_reducible apply State.bad_keeps
    | with_reducible apply Keeps.ite
    | split)

end Sys2Proof.Machine
end

