-- ==== Sys2Proof/Laws/KeepsOap.lean ====
section
/-!
SUPPORT. Every operation of Machine/Oap.lean keeps the canonical forms and the queue.
-/
namespace Sys2Proof.Machine

theorem State.persist_keeps {orig : State} (s : State) (op : Option (Tbl Nat)) (h_s : Keeps orig s) : Keeps orig (State.persist s op) := by
  unfold State.persist
  repeat' (first
    | (extract_lets +onlyGivenNames x; clear_value x)
    | (with_reducible apply Keeps.mk'; with_reducible assumption))

theorem State.ccWrite_keeps {orig : State} (s : State) (a : Asker) (i : Nat) (j : Nat) (d : List Byte) (h_s : Keeps orig s) : Keeps orig (State.ccWrite s a i j d).1 := by
  unfold State.ccWrite
  repeat' (first
    | with_reducible assumption
    | with_reducible apply State.persist_keeps
    | with_reducible apply Keeps.cond_fst
    | with_reducible apply Keeps.ite_fst
    | (extract_lets +onlyGivenNames x; clear_value x)
    | (with_reducible apply Keeps.mk'; with_reducible assumption))

theorem State.readWords_keeps {orig : State} (b : Blk) (y0 : Nat) (y1 : Nat) (y2 : State) (h_y2 : Keeps orig y2) : Keeps orig (State.readWords b y0 y1 y2).1 := by
  induction y0 generalizing y1 y2 with
  | zero =>
  rw [State.readWords]
  repeat' (first
    | with_reducible assumption
    | with_reducible apply State.regRead_keeps
    | with_reducible apply State.control_keeps
    | with_reducible apply Keeps.cond_fst
    | with_reducible apply Keeps.ite_fst
    | (extract_lets +onlyGivenNames x; refine Keeps.via' (o := orig) (x := x) ?_ (fun hx => ?_); rotate_left; clear_value x; rotate_right; subst x)
    | (extract_lets +onlyGivenNames x; refine Keeps.via' (o := orig) (x := x.1) ?_ (fun hx => ?_); rotate_left; clear_value x; rotate_right; subst x)
    | (extract_lets +onlyGivenNames x; clear_value x))
  | succ k ih =>
  rw [State.readWords]
  repeat' (first
    | with_reducible assumption
    | with_reducible apply ih
    | with_reducible apply State.regRead_keeps
    | with_reducible apply State.control_keeps
    | with_reducible apply Keeps.cond_fst
    | with_reducible apply Keeps.ite_fst
    | (extract_lets +onlyGivenNames x; refine Keeps.via' (o := orig) (x := x) ?_ (fun hx => ?_); rotate_left; clear_value x; rotate_right; subst x)
    | (extract_lets +onlyGivenNames x; refine Keeps.via' (o := orig) (x := x.1) ?_ (fun hx => ?_); rotate_left; clear_value x; rotate_right; subst x)
    | (extract_lets +onlyGivenNames x; clear_value x))

theorem State.objGet_keeps {orig : State} (s : State) (b : Blk) (o : Nat) (ty : ObjTy) (live : Bool) (h_s : Keeps orig s) : Keeps orig (State.objGet s b o ty live).1 := by
  unfold State.objGet
  repeat' (first
    | with_reducible assumption
    | with_reducible apply State.sense_keeps
    | with_reducible apply State.control_keeps
    | with_reducible apply State.readWords_keeps
    | with_reducible apply State.regRead_keeps
    | with_reducible apply Keeps.cond_fst
    | with_reducible apply Keeps.ite_fst
    | (extract_lets +onlyGivenNames x; refine Keeps.via' (o := orig) (x := x) ?_ (fun hx => ?_); rotate_left; clear_value x; rotate_right; subst x)
    | (extract_lets +onlyGivenNames x; refine Keeps.via' (o := orig) (x := x.1) ?_ (fun hx => ?_); rotate_left; clear_value x; rotate_right; subst x)
    | (extract_lets +onlyGivenNames x; clear_value x)
    | split)

theorem State.objPut_keeps {orig : State} (s : State) (a : Asker) (b : Blk) (at_ : Nat) (ty : ObjTy) (d : List Byte) (h_s : Keeps orig s) : Keeps orig (State.objPut s a b at_ ty d) := by
  unfold State.objPut
  repeat' (first
    | with_reducible assumption
    | intro x
    | with_reducible apply State.regWrite_keeps
    | with_reducible apply State.setHeld_keeps
    | with_reducible apply Keeps.foldl
    | (extract_lets +onlyGivenNames x; clear_value x)
    | split)

theorem State.objSet_keeps {orig : State} (s : State) (a : Asker) (b : Blk) (o : Nat) (ty : ObjTy) (d : List Byte) (h_s : Keeps orig s) : Keeps orig (State.objSet s a b o ty d).1 := by
  unfold State.objSet
  repeat' (first
    | with_reducible assumption
    | with_reducible apply State.lockIgnored_keeps
    | with_reducible apply State.ignored_keeps
    | with_reducible apply State.objPut_keeps
    | with_reducible apply State.flag_keeps
    | with_reducible apply Keeps.cond_fst)

theorem State.opRead_keeps {orig : State} (s : State) (live : Bool) (i : Nat) (j : Nat) (h_s : Keeps orig s) : Keeps orig (State.opRead s live i j).1 := by
  unfold State.opRead
  repeat' (first
    | with_reducible assumption
    | with_reducible apply State.objGet_keeps
    | with_reducible apply Keeps.cond_fst
    | with_reducible apply Keeps.ite_fst
    | split)

theorem State.opWrite_keeps {orig : State} (s : State) (a : Asker) (i : Nat) (j : Nat) (ty : Nat) (d : List Byte) (h_s : Keeps orig s) : Keeps orig (State.opWrite s a i j ty d).1 := by
  unfold State.opWrite
  repeat' (first
    | with_reducible assumption
    | with_reducible apply State.ccWrite_keeps
    | with_reducible apply State.objSet_keeps
    | with_reducible apply Keeps.cond_fst
    | with_reducible apply Keeps.ite_fst
    | split)

theorem State.opRange_keeps {orig : State} (s : State) (live : Bool) (i : Nat) (j : Nat) (last : Nat) (h_s : Keeps orig s) : Keeps orig (State.opRange s live i j last).1 := by
  unfold State.opRange
  repeat' (first
    | with_reducible assumption
    | intro x
    | with_reducible apply State.opRead_keeps
    | with_reducible apply Keeps.cond_fst
    | with_reducible apply Keeps.foldl_fst)

theorem State.opDescribe_keeps {orig : State} (s : State) (i : Nat) (j : Nat) (h_s : Keeps orig s) : Keeps orig (State.opDescribe s i j).1 := by
  unfold State.opDescribe
  repeat' (first
    | with_reducible assumption
    | with_reducible apply Keeps.cond_fst
    | split)

theorem State.opSubscribe_keeps {orig : State} (s : State) (sid : Nat) (mask : List Byte) (h_s : Keeps orig s) : Keeps orig (State.opSubscribe s sid mask).1 := by
  unfold State.opSubscribe
  repeat' (first
    | (extract_lets +onlyGivenNames x; clear_value x)
    | (with_reducible apply Keeps.mk'; with_reducible assumption))

theorem State.opRun_keeps {orig : State} (s : State) (a : Asker) (sid : Nat) (op : OapOp) (h_s : Keeps orig s) : Keeps orig (State.opRun s a sid op).1 := by
  unfold State.opRun
  repeat' (first
    | with_reducible assumption
    | with_reducible apply State.opRead_keeps
    | with_reducible apply State.opWrite_keeps
    | with_reducible apply State.opRange_keeps
    | with_reducible apply State.opDescribe_keeps
    | with_reducible apply State.opSubscribe_keeps
    | with_reducible apply Keeps.cond_fst
    | split)

theorem State.runOps_keeps {orig : State} (s : State) (a : Asker) (sid : Nat) (stop : Bool) (most : Nat) (ops : List OapOp) (h_s : Keeps orig s) : Keeps orig (State.runOps s a sid stop most ops).1 := by
  unfold State.runOps
  repeat' (first
    | with_reducible assumption
    | intro x
    | with_reducible apply State.bad_keeps
    | with_reducible apply State.opRun_keeps
    | with_reducible apply Keeps.cond
    | with_reducible apply Keeps.cond_fst
    | with_reducible apply Keeps.ite_fst
    | with_reducible apply Keeps.foldl
    | with_reducible apply Keeps.foldl_fst
    | (extract_lets +onlyGivenNames x; refine Keeps.via' (o := orig) (x := x) ?_ (fun hx => ?_); rotate_left; clear_value x; rotate_right; subst x)
    | (extract_lets +onlyGivenNames x; refine Keeps.via' (o := orig) (x := x.1) ?_ (fun hx => ?_); rotate_left; clear_value x; rotate_right; subst x)
    | (extract_lets +onlyGivenNames x; clear_value x))

theorem State.reject_keeps {orig : State} (s : State) (key : Option (List Byte)) (d : Dgram) (reason : Nat) (e : Option Nat) (h_s : Keeps orig s) : Keeps orig (State.reject s key d reason e).1 := by
  unfold State.reject
  repeat' (first
    | with_reducible assumption
    | with_reducible apply State.took_keeps)

theorem State.setSession_keeps {orig : State} (s : State) (x : Session) (h_s : Keeps orig s) : Keeps orig (State.setSession s x) := by
  unfold State.setSession
  repeat' (first
    | (extract_lets +onlyGivenNames x; clear_value x)
    | (with_reducible apply Keeps.mk'; with_reducible assumption))

theorem State.sendDgram_keeps {orig : State} (s : State) (addr : Nat) (port : Nat) (m : List Byte) (h_s : Keeps orig s) : Keeps orig (State.sendDgram s addr port m) := by
  unfold State.sendDgram
  repeat' (first
    | with_reducible assumption
    | with_reducible apply State.emit_keeps
    | with_reducible apply Keeps.ite
    | split)

theorem State.sendTo_keeps {orig : State} (s : State) (x : Session) (m : List Byte) (h_s : Keeps orig s) : Keeps orig (State.sendTo s x m) := by
  unfold State.sendTo
  repeat' (first
    | with_reducible assumption
    | with_reducible apply State.sendDgram_keeps)

theorem State.closeSession_keeps {orig : State} (s : State) (sid : Nat) (h_s : Keeps orig s) : Keeps orig (State.closeSession s sid) := by
  unfold State.closeSession
  repeat' (first
    | with_reducible assumption
    | with_reducible apply State.ev_keeps
    | (extract_lets +onlyGivenNames x; clear_value x)
    | split
    | (with_reducible apply Keeps.mk'; with_reducible assumption))

theorem State.dropBad_keeps {orig : State} (s : State) (h_s : Keeps orig s) : Keeps orig (State.dropBad s) := by
  unfold State.dropBad
  repeat' (first
    | with_reducible assumption
    | with_reducible apply State.ev_keeps
    | with_reducible apply State.oapSpoil_keeps)

theorem State.dropAuth_keeps {orig : State} (s : State) (h_s : Keeps orig s) : Keeps orig (State.dropAuth s) := by
  unfold State.dropAuth
  repeat' (first
    | with_reducible assumption
    | with_reducible apply State.ev_keeps
    | with_reducible apply State.oapSpoil_keeps)

theorem State.oapReject_keeps {orig : State} (s : State) (addr : Nat) (port : Nat) (key : Option (List Byte)) (d : Dgram) (reason : Nat) (e : Option Nat) (h_s : Keeps orig s) : Keeps orig (State.oapReject s addr port key d reason e) := by
  unfold State.oapReject
  repeat' (first
    | with_reducible assumption
    | with_reducible apply State.reject_keeps
    | with_reducible apply State.sendDgram_keeps
    | with_reducible apply Keeps.cond_fst
    | with_reducible apply Keeps.ite_fst
    | (extract_lets +onlyGivenNames x; refine Keeps.via' (o := orig) (x := x) ?_ (fun hx => ?_); rotate_left; clear_value x; rotate_right; subst x)
    | (extract_lets +onlyGivenNames x; refine Keeps.via' (o := orig) (x := x.1) ?_ (fun hx => ?_); rotate_left; clear_value x; rotate_right; subst x)
    | (extract_lets +onlyGivenNames x; clear_value x))

theorem State.oapOut_keeps {orig : State} (s : State) (addr : Nat) (port : Nat) (x : Session) (d : Dgram) (h_s : Keeps orig s) : Keeps orig (State.oapOut s addr port x d) := by
  unfold State.oapOut
  repeat' (first
    | with_reducible assumption
    | with_reducible apply State.reject_keeps
    | with_reducible apply State.oapSpoil_keeps
    | with_reducible apply State.ev_keeps
    | with_reducible apply State.sendDgram_keeps
    | with_reducible apply Keeps.cond_fst
    | with_reducible apply Keeps.ite_fst
    | (extract_lets +onlyGivenNames x; refine Keeps.via' (o := orig) (x := x) ?_ (fun hx => ?_); rotate_left; clear_value x; rotate_right; subst x)
    | (extract_lets +onlyGivenNames x; refine Keeps.via' (o := orig) (x := x.1) ?_ (fun hx => ?_); rotate_left; clear_value x; rotate_right; subst x)
    | (extract_lets +onlyGivenNames x; clear_value x))

theorem State.oapFresh_keeps {orig : State} (s : State) (addr : Nat) (port : Nat) (x : Session) (d : Dgram) (ops : List OapOp) (h_s : Keeps orig s) : Keeps orig (State.oapFresh s addr port x d ops) := by
  unfold State.oapFresh
  repeat' (first
    | with_reducible assumption
    | with_reducible apply State.runOps_keeps
    | with_reducible apply State.sendDgram_keeps
    | with_reducible apply State.setSession_keeps
    | with_reducible apply Keeps.cond_fst
    | with_reducible apply Keeps.ite_fst
    | (extract_lets +onlyGivenNames x; refine Keeps.via' (o := orig) (x := x) ?_ (fun hx => ?_); rotate_left; clear_value x; rotate_right; subst x)
    | (extract_lets +onlyGivenNames x; refine Keeps.via' (o := orig) (x := x.1) ?_ (fun hx => ?_); rotate_left; clear_value x; rotate_right; subst x)
    | (extract_lets +onlyGivenNames x; clear_value x)
    | split)

theorem State.oapTake_keeps {orig : State} (s : State) (addr : Nat) (port : Nat) (x : Session) (d : Dgram) (ops : List OapOp) (y6 : SeqCase) (h_s : Keeps orig s) : Keeps orig (State.oapTake s addr port x d ops y6) := by
  cases y6
  · exact State.oapFresh_keeps _ _ _ _ _ _ h_s
  · exact State.emit_keeps _ _ h_s
  · exact State.oapOut_keeps _ _ _ _ _ h_s

theorem State.oapRequest_keeps {orig : State} (s : State) (addr : Nat) (port : Nat) (d : Dgram) (h_s : Keeps orig s) : Keeps orig (State.oapRequest s addr port d) := by
  unfold State.oapRequest
  repeat' (first
    | with_reducible assumption
    | with_reducible apply State.dropBad_keeps
    | with_reducible apply State.oapReject_keeps
    | with_reducible apply State.dropAuth_keeps
    | with_reducible apply State.oapTake_keeps
    | with_reducible apply State.setSession_keeps
    | with_reducible apply Keeps.cond
    | split)

theorem State.oapOpen_keeps {orig : State} (s : State) (addr : Nat) (port : Nat) (d : Dgram) (h_s : Keeps orig s) : Keeps orig (State.oapOpen s addr port d) := by
  unfold State.oapOpen
  repeat' (first
    | with_reducible assumption
    | intro x
    | with_reducible apply State.reject_keeps
    | with_reducible apply State.sendDgram_keeps
    | with_reducible apply State.count_keeps
    | with_reducible apply State.dropBad_keeps
    | with_reducible apply State.dropAuth_keeps
    | with_reducible apply State.took_keeps
    | with_reducible apply State.ev_keeps
    | with_reducible apply Keeps.cond
    | with_reducible apply Keeps.ite
    | with_reducible apply Keeps.cond_fst
    | with_reducible apply Keeps.ite_fst
    | (extract_lets +onlyGivenNames x; refine Keeps.via' (o := orig) (x := x) ?_ (fun hx => ?_); rotate_left; clear_value x; rotate_right; subst x)
    | (extract_lets +onlyGivenNames x; refine Keeps.via' (o := orig) (x := x.1) ?_ (fun hx => ?_); rotate_left; clear_value x; rotate_right; subst x)
    | (extract_lets +onlyGivenNames x; clear_value x)
    | split
    | (with_reducible apply Keeps.mk'; with_reducible assumption)
    | (with_reducible apply Keeps.mk'; first | with_reducible apply State.reject_keeps | with_reducible apply State.sendDgram_keeps | with_reducible apply State.count_keeps | with_reducible apply State.dropBad_keeps | with_reducible apply State.dropAuth_keeps | with_reducible apply State.took_keeps | with_reducible apply State.ev_keeps | with_reducible apply Keeps.cond | with_reducible apply Keeps.ite))

theorem State.oapShort_keeps {orig : State} (s : State) (d : Dgram) (f : State → Session → State) (h_s : Keeps orig s) (h_f : ∀ a0 a1, Keeps orig a0 → Keeps orig (f a0 a1)) : Keeps orig (State.oapShort s d f) := by
  unfold State.oapShort
  repeat' (first
    | with_reducible assumption
    | with_reducible apply h_f
    | with_reducible apply State.dropBad_keeps
    | with_reducible apply State.dropAuth_keeps
    | with_reducible apply Keeps.cond
    | split)

theorem State.datagramIn_keeps {orig : State} (s : State) (addr : Nat) (port : Nat) (bs : List Byte) (h_s : Keeps orig s) : Keeps orig (State.datagramIn s addr port bs) := by
  unfold State.datagramIn
  repeat' (first
    | with_reducible assumption
    | intro x
    | with_reducible apply State.dropBad_keeps
    | with_reducible apply State.oapRequest_keeps
    | with_reducible apply State.oapShort_keeps
    | with_reducible apply State.setSession_keeps
    | with_reducible apply State.oapOpen_keeps
    | with_reducible apply State.closeSession_keeps
    | with_reducible apply Keeps.cond
    | split)

theorem State.notify_keeps {orig : State} (s : State) (sid : Nat) (h_s : Keeps orig s) : Keeps orig (State.notify s sid) := by
  unfold State.notify
  repeat' (first
    | with_reducible assumption
    | with_reducible apply State.sendTo_keeps
    | with_reducible apply State.setSession_keeps
    | with_reducible apply Keeps.cond
    | split)

theorem State.renotify_keeps {orig : State} (s : State) (sid : Nat) (num : Nat) (h_s : Keeps orig s) : Keeps orig (State.renotify s sid num) := by
  unfold State.renotify
  repeat' (first
    | with_reducible assumption
    | with_reducible apply State.closeSession_keeps
    | with_reducible apply State.sendTo_keeps
    | with_reducible apply State.setSession_keeps
    | with_reducible apply Keeps.cond
    | split)

theorem State.mbxKeep_keeps {orig : State} (s : State) (seq : Nat) (m : List Byte) (h_s : Keeps orig s) : Keeps orig (State.mbxKeep s seq m) := by
  unfold State.mbxKeep
  repeat' (first
    | (extract_lets +onlyGivenNames x; clear_value x)
    | (with_reducible apply Keeps.mk'; with_reducible assumption))

theorem State.mbxBad_keeps {orig : State} (s : State) (bs : List Byte) (h_s : Keeps orig s) : Keeps orig (State.mbxBad s bs).1 := by
  unfold State.mbxBad
  repeat' (first
    | with_reducible assumption
    | with_reducible apply State.ev_keeps)

theorem State.mbxOut_keeps {orig : State} (s : State) (d : Dgram) (h_s : Keeps orig s) : Keeps orig (State.mbxOut s d).1 := by
  unfold State.mbxOut
  repeat' (first
    | with_reducible assumption
    | with_reducible apply State.reject_keeps
    | with_reducible apply State.ev_keeps
    | with_reducible apply State.oapSpoil_keeps)

theorem State.mbxFresh_keeps {orig : State} (s : State) (d : Dgram) (ops : List OapOp) (h_s : Keeps orig s) : Keeps orig (State.mbxFresh s d ops).1 := by
  unfold State.mbxFresh
  repeat' (first
    | with_reducible assumption
    | with_reducible apply State.runOps_keeps
    | with_reducible apply State.mbxKeep_keeps)

theorem State.mbxRun_keeps {orig : State} (s : State) (bs : List Byte) (h_s : Keeps orig s) : Keeps orig (State.mbxRun s bs).1 := by
  unfold State.mbxRun
  repeat' (first
    | with_reducible assumption
    | with_reducible apply State.mbxBad_keeps
    | with_reducible apply State.reject_keeps
    | with_reducible apply State.mbxOut_keeps
    | with_reducible apply State.mbxFresh_keeps
    | with_reducible apply Keeps.cond_fst
    | split)

theorem State.mbxStart_keeps {orig : State} (s : State) (len : Nat) (h_s : Keeps orig s) : Keeps orig (State.mbxStart s len) := by
  unfold State.mbxStart
  repeat' (first
    | with_reducible assumption
    | with_reducible apply State.ev_keeps
    | with_reducible apply State.flag_keeps
    | with_reducible apply State.mbxRun_keeps
    | with_reducible apply Keeps.cond
    | (extract_lets +onlyGivenNames x; refine Keeps.via' (o := orig) (x := x) ?_ (fun hx => ?_); rotate_left; clear_value x; rotate_right; subst x)
    | (extract_lets +onlyGivenNames x; clear_value x)
    | (with_reducible apply Keeps.mk'; with_reducible assumption))

theorem State.flrClear_keeps {orig : State} (s : State) (h_s : Keeps orig s) : Keeps orig (State.flrClear s) := by
  exact h_s.mkAll (twf_filter _ _ _) id

theorem State.flr_keeps {orig : State} (s : State) (h_s : Keeps orig s) : Keeps orig (State.flr s) := by
  unfold State.flr
  repeat' (first
    | with_reducible assumption
    | with_reducible apply State.lockAbandon_keeps
    | with_reducible apply State.ringsStop_keeps
    | with_reducible apply State.flrClear_keeps)

theorem State.mbxDone_keeps {orig : State} (s : State) (h_s : Keeps orig s) : Keeps orig (State.mbxDone s) := by
  unfold State.mbxDone
  repeat' (first
    | with_reducible assumption
    | intro x
    | with_reducible apply State.flag_keeps
    | with_reducible apply State.flr_keeps
    | with_reducible apply State.setWord_keeps
    | with_reducible apply State.ev_keeps
    | with_reducible apply State.put_keeps
    | with_reducible apply Keeps.cond
    | with_reducible apply Keeps.foldl
    | (extract_lets +onlyGivenNames x; refine Keeps.via' (o := orig) (x := x) ?_ (fun hx => ?_); rotate_left; clear_value x; rotate_right; subst x)
    | (extract_lets +onlyGivenNames x; clear_value x)
    | split
    | (with_reducible apply Keeps.mk'; with_reducible assumption))

end Sys2Proof.Machine
end

