-- ==== Sys2Proof/Laws/KeepsControl.lean ====
section
/-!
SUPPORT. Every operation of Machine/Control.lean keeps the canonical forms and the queue.
-/
namespace Sys2Proof.Machine

theorem State.busWrite_keeps {orig : State} (s : State) (r : Requester) (o : Nat) (v : Word) (h_s : Keeps orig s) : Keeps orig (State.busWrite s r o v) := by
  unfold State.busWrite
  repeat' (first
    | with_reducible assumption
    | with_reducible apply State.mbxStart_keeps
    | with_reducible apply State.wordWrite_keeps
    | with_reducible apply Keeps.cond)

theorem execRegisterWrite_keeps {orig : State} (r : Requester) (o : Nat) (v : Word) (s : State) (h_s : Keeps orig s) : KeepsRes orig (execRegisterWrite r o v s) := by
  unfold execRegisterWrite
  repeat' (first
    | with_reducible assumption
    | with_reducible apply KeepsRes.next
    | with_reducible apply State.badAccess_keeps
    | with_reducible apply State.busWrite_keeps
    | with_reducible apply Keeps.cond)

theorem State.readBack_keeps {orig : State} (s : State) (r : Requester) (o : Nat) (f : Word → Word) (h_s : Keeps orig s) : Keeps orig (State.readBack s r o f) := by
  unfold State.readBack
  repeat' (first
    | with_reducible assumption
    | with_reducible apply State.busRead_keeps
    | with_reducible apply State.emit_keeps
    | with_reducible apply Keeps.cond_fst
    | with_reducible apply Keeps.ite_fst
    | (extract_lets +onlyGivenNames x; refine Keeps.via' (o := orig) (x := x) ?_ (fun hx => ?_); rotate_left; clear_value x; rotate_right; subst x)
    | (extract_lets +onlyGivenNames x; refine Keeps.via' (o := orig) (x := x.1) ?_ (fun hx => ?_); rotate_left; clear_value x; rotate_right; subst x)
    | (extract_lets +onlyGivenNames x; clear_value x))

theorem execRlRead_keeps {orig : State} (r : Requester) (o : Nat) (s : State) (h_s : Keeps orig s) : KeepsRes orig (execRlRead r o s) := by
  unfold execRlRead
  repeat' (first
    | with_reducible assumption
    | with_reducible apply KeepsRes.next
    | with_reducible apply State.badAccess_keeps
    | with_reducible apply State.emit_keeps
    | with_reducible apply State.readBack_keeps
    | with_reducible apply KeepsRes.cond
    | with_reducible apply KeepsRes.ite
    | with_reducible apply Keeps.cond)

theorem execBadAccess_keeps {orig : State} (r : Requester) (write : Bool) (o : Nat) (bytes : Nat) (v : Nat) (s : State) (h_s : Keeps orig s) : KeepsRes orig (execBadAccess r write o bytes v s) := by
  unfold execBadAccess
  repeat' (first
    | with_reducible assumption
    | with_reducible apply KeepsRes.next
    | with_reducible apply State.badAccess_keeps
    | with_reducible apply State.emit_keeps
    | with_reducible apply State.busWrite_keeps
    | with_reducible apply State.readBack_keeps
    | with_reducible apply KeepsRes.cond
    | with_reducible apply KeepsRes.ite
    | with_reducible apply Keeps.cond
    | (extract_lets +onlyGivenNames x; refine Keeps.via' (o := orig) (x := x) ?_ (fun hx => ?_); rotate_left; clear_value x; rotate_right; subst x)
    | (extract_lets +onlyGivenNames x; clear_value x))

theorem execBlkLockSet_keeps {orig : State} (b : Blk) (s : State) (h_s : Keeps orig s) : KeepsRes orig (execBlkLockSet b s) := by
  unfold execBlkLockSet
  repeat' (first
    | with_reducible assumption
    | with_reducible apply KeepsRes.next
    | with_reducible apply State.lockIgnored_keeps
    | with_reducible apply State.flag_keeps
    | with_reducible apply Keeps.cond)

theorem State.vote_keeps {orig : State} (s : State) (b : Blk) (o : Nat) (a : Nat) (c : Nat) (d : Nat) (use : State → Nat → State) (stop : State → State) (h_s : Keeps orig s) (h_use : ∀ a0 a1, Keeps orig a0 → Keeps orig (use a0 a1)) (h_stop : ∀ a0, Keeps orig a0 → Keeps orig (stop a0)) : Keeps orig (State.vote s b o a c d use stop) := by
  unfold State.vote
  repeat' (first
    | with_reducible assumption
    | with_reducible apply h_use
    | with_reducible apply h_stop
    | with_reducible apply State.flag_keeps
    | with_reducible apply State.ev_keeps
    | with_reducible apply Keeps.cond
    | (extract_lets +onlyGivenNames x; refine Keeps.via' (o := orig) (x := x) ?_ (fun hx => ?_); rotate_left; clear_value x; rotate_right; subst x)
    | (extract_lets +onlyGivenNames x; clear_value x)
    | (with_reducible apply Keeps.mk'; with_reducible assumption)
    | (with_reducible apply Keeps.mk'; first | with_reducible apply h_use | with_reducible apply h_stop | with_reducible apply State.flag_keeps | with_reducible apply State.ev_keeps | with_reducible apply Keeps.cond))

theorem execTvCompare_keeps {orig : State} (o : Nat) (lo : Nat) (c0 : Nat) (c1 : Nat) (c2 : Nat) (s : State) (h_s : Keeps orig s) : KeepsRes orig (execTvCompare o lo c0 c1 c2 s) := by
  unfold execTvCompare
  repeat' (first
    | with_reducible assumption
    | intro x
    | with_reducible apply KeepsRes.next
    | with_reducible apply State.vote_keeps
    | with_reducible apply State.setRemapWord_keeps
    | with_reducible apply State.put_keeps
    | with_reducible apply State.ingTvStop_keeps
    | with_reducible apply KeepsRes.cond
    | with_reducible apply KeepsRes.ite
    | with_reducible apply Keeps.cond
    | split)

theorem execTvRestoreDone_keeps {orig : State} (o : Nat) (s : State) (h_s : Keeps orig s) : KeepsRes orig (execTvRestoreDone o s) := by
  unfold execTvRestoreDone
  repeat' (first
    | with_reducible assumption
    | intro x
    | with_reducible apply KeepsRes.next
    | with_reducible apply State.release_keeps
    | with_reducible apply KeepsRes.cond
    | with_reducible apply KeepsRes.ite
    | with_reducible apply Keeps.cond
    | (extract_lets +onlyGivenNames x; refine Keeps.via' (o := orig) (x := x) ?_ (fun hx => ?_); rotate_left; clear_value x; rotate_right; subst x)
    | (extract_lets +onlyGivenNames x; clear_value x)
    | (with_reducible apply Keeps.mk'; with_reducible assumption)
    | (with_reducible apply Keeps.mk'; first | with_reducible apply State.release_keeps | with_reducible apply Keeps.cond))

theorem execEventOccurrence_keeps {orig : State} (n : Nat) (s : State) (h_s : Keeps orig s) : KeepsRes orig (execEventOccurrence n s) := by
  unfold execEventOccurrence
  repeat' (first
    | with_reducible assumption
    | with_reducible apply KeepsRes.next
    | with_reducible apply State.ev_keeps
    | with_reducible apply Keeps.cond)

theorem execEvtPendClear_keeps {orig : State} (n : Nat) (again : Bool) (s : State) (h_s : Keeps orig s) : KeepsRes orig (execEvtPendClear n again s) := by
  unfold execEvtPendClear
  repeat' (first
    | with_reducible assumption
    | with_reducible apply KeepsRes.next
    | with_reducible apply State.evtClear_keeps
    | with_reducible apply State.ev_keeps
    | with_reducible apply Keeps.cond)

theorem execEvtCfgWrite_keeps {orig : State} (n : Nat) (v : Word) (s : State) (h_s : Keeps orig s) : KeepsRes orig (execEvtCfgWrite n v s) := by
  unfold execEvtCfgWrite
  repeat' (first
    | with_reducible assumption
    | with_reducible apply KeepsRes.next
    | with_reducible apply State.evtCfg_keeps
    | with_reducible apply Keeps.cond)

theorem execOapRequest_keeps {orig : State} (addr : Nat) (port : Nat) (datagram : List Byte) (s : State) (h_s : Keeps orig s) : KeepsRes orig (execOapRequest addr port datagram s) := by
  unfold execOapRequest
  repeat' (first
    | with_reducible assumption
    | with_reducible apply KeepsRes.next
    | with_reducible apply State.datagramIn_keeps)

theorem execOapOpen_keeps {orig : State} (addr : Nat) (port : Nat) (datagram : List Byte) (s : State) (h_s : Keeps orig s) : KeepsRes orig (execOapOpen addr port datagram s) := by
  unfold execOapOpen
  repeat' (first
    | with_reducible assumption
    | with_reducible apply KeepsRes.next
    | with_reducible apply State.datagramIn_keeps)

theorem execOapClose_keeps {orig : State} (addr : Nat) (port : Nat) (datagram : List Byte) (s : State) (h_s : Keeps orig s) : KeepsRes orig (execOapClose addr port datagram s) := by
  unfold execOapClose
  repeat' (first
    | with_reducible assumption
    | with_reducible apply KeepsRes.next
    | with_reducible apply State.datagramIn_keeps)

theorem execNotifyAck_keeps {orig : State} (addr : Nat) (port : Nat) (datagram : List Byte) (s : State) (h_s : Keeps orig s) : KeepsRes orig (execNotifyAck addr port datagram s) := by
  unfold execNotifyAck
  repeat' (first
    | with_reducible assumption
    | with_reducible apply KeepsRes.next
    | with_reducible apply State.datagramIn_keeps)

theorem State.opAlone_keeps {orig : State} (s : State) (f : State → State × OpResult) (h_s : Keeps orig s) (h_f : ∀ a0, Keeps orig a0 → Keeps orig (f a0).1) : Keeps orig (State.opAlone s f) := by
  unfold State.opAlone
  repeat' (first
    | with_reducible assumption
    | with_reducible apply h_f
    | with_reducible apply State.emit_keeps
    | with_reducible apply Keeps.cond)

theorem execObjRead_keeps {orig : State} (live : Bool) (i : Nat) (j : Nat) (s : State) (h_s : Keeps orig s) : KeepsRes orig (execObjRead live i j s) := by
  unfold execObjRead
  repeat' (first
    | with_reducible assumption
    | intro x
    | with_reducible apply KeepsRes.next
    | with_reducible apply State.opAlone_keeps
    | with_reducible apply State.opRead_keeps)

theorem execObjWrite_keeps {orig : State} (mailbox : Bool) (auth : Bool) (i : Nat) (j : Nat) (ty : Nat) (data : List Byte) (s : State) (h_s : Keeps orig s) : KeepsRes orig (execObjWrite mailbox auth i j ty data s) := by
  unfold execObjWrite
  repeat' (first
    | with_reducible assumption
    | intro x
    | with_reducible apply KeepsRes.next
    | with_reducible apply State.opAlone_keeps
    | with_reducible apply State.opWrite_keeps)

theorem execObjReadRange_keeps {orig : State} (live : Bool) (i : Nat) (j : Nat) (last : Nat) (s : State) (h_s : Keeps orig s) : KeepsRes orig (execObjReadRange live i j last s) := by
  unfold execObjReadRange
  repeat' (first
    | with_reducible assumption
    | intro x
    | with_reducible apply KeepsRes.next
    | with_reducible apply State.opAlone_keeps
    | with_reducible apply State.opRange_keeps)

theorem execObjDescribe_keeps {orig : State} (i : Nat) (j : Nat) (s : State) (h_s : Keeps orig s) : KeepsRes orig (execObjDescribe i j s) := by
  unfold execObjDescribe
  repeat' (first
    | with_reducible assumption
    | intro x
    | with_reducible apply KeepsRes.next
    | with_reducible apply State.opAlone_keeps
    | with_reducible apply State.opDescribe_keeps)

theorem execObjSubscribe_keeps {orig : State} (sid : Nat) (mask : List Byte) (s : State) (h_s : Keeps orig s) : KeepsRes orig (execObjSubscribe sid mask s) := by
  unfold execObjSubscribe
  repeat' (first
    | with_reducible assumption
    | intro x
    | with_reducible apply KeepsRes.next
    | with_reducible apply State.opAlone_keeps
    | with_reducible apply State.opSubscribe_keeps)

theorem execSessionIdleTimeout_keeps {orig : State} (sid : Nat) (s : State) (h_s : Keeps orig s) : KeepsRes orig (execSessionIdleTimeout sid s) := by
  unfold execSessionIdleTimeout
  repeat' (first
    | with_reducible assumption
    | with_reducible apply KeepsRes.next
    | with_reducible apply State.closeSession_keeps)

theorem execNotifySend_keeps {orig : State} (sid : Nat) (s : State) (h_s : Keeps orig s) : KeepsRes orig (execNotifySend sid s) := by
  unfold execNotifySend
  repeat' (first
    | with_reducible assumption
    | with_reducible apply KeepsRes.next
    | with_reducible apply State.notify_keeps)

theorem execNotifyResend_keeps {orig : State} (sid : Nat) (num : Nat) (s : State) (h_s : Keeps orig s) : KeepsRes orig (execNotifyResend sid num s) := by
  unfold execNotifyResend
  repeat' (first
    | with_reducible assumption
    | with_reducible apply KeepsRes.next
    | with_reducible apply State.renotify_keeps)

theorem execNetSettingsApply_keeps {orig : State} (k : Nat) (s : State) (h_s : Keeps orig s) : KeepsRes orig (execNetSettingsApply k s) := by
  unfold execNetSettingsApply
  repeat' (first
    | with_reducible apply KeepsRes.next
    | (extract_lets +onlyGivenNames x; clear_value x)
    | (with_reducible apply Keeps.mk'; with_reducible assumption))

theorem execPersistStore_keeps {orig : State} (key : Word) (s : State) (h_s : Keeps orig s) : KeepsRes orig (execPersistStore key s) := by
  unfold execPersistStore
  repeat' (first
    | with_reducible assumption
    | with_reducible apply KeepsRes.next
    | with_reducible apply State.persist_keeps
    | with_reducible apply Keeps.cond)

theorem execPersistErase_keeps {orig : State} (key : Word) (s : State) (h_s : Keeps orig s) : KeepsRes orig (execPersistErase key s) := by
  unfold execPersistErase
  repeat' (first
    | with_reducible assumption
    | with_reducible apply KeepsRes.next
    | with_reducible apply State.persist_keeps
    | with_reducible apply Keeps.cond)

theorem execPersistDone_keeps {orig : State} (s : State) (h_s : Keeps orig s) : KeepsRes orig (execPersistDone s) := by
  unfold execPersistDone
  repeat' (first
    | with_reducible assumption
    | with_reducible apply KeepsRes.next
    | with_reducible apply State.ev_keeps
    | (extract_lets +onlyGivenNames x; clear_value x)
    | split
    | (with_reducible apply Keeps.mk'; with_reducible assumption))

theorem execMbxCtrlWrite_keeps {orig : State} (v : Word) (s : State) (h_s : Keeps orig s) : KeepsRes orig (execMbxCtrlWrite v s) := by
  unfold execMbxCtrlWrite
  repeat' (first
    | with_reducible assumption
    | with_reducible apply KeepsRes.next
    | with_reducible apply State.mbxStart_keeps
    | with_reducible apply Keeps.cond)

theorem execMailboxResponseDone_keeps {orig : State} (s : State) (h_s : Keeps orig s) : KeepsRes orig (execMailboxResponseDone s) := by
  unfold execMailboxResponseDone
  repeat' (first
    | with_reducible assumption
    | with_reducible apply KeepsRes.next
    | with_reducible apply State.mbxDone_keeps)

theorem execPcieFlr_keeps {orig : State} (s : State) (h_s : Keeps orig s) : KeepsRes orig (execPcieFlr s) := by
  unfold execPcieFlr
  repeat' (first
    | with_reducible assumption
    | with_reducible apply KeepsRes.next
    | with_reducible apply State.flr_keeps
    | with_reducible apply Keeps.cond
    | (extract_lets +onlyGivenNames x; clear_value x)
    | (with_reducible apply Keeps.mk'; with_reducible assumption))

theorem State.watched_keeps {orig : State} (s : State) (o : Nat) (f : State → State) (h_s : Keeps orig s) (h_f : ∀ a0, Keeps orig a0 → Keeps orig (f a0)) : Keeps orig (State.watched s o f).1 := by
  unfold State.watched
  repeat' (first
    | with_reducible assumption
    | with_reducible apply h_f
    | with_reducible apply State.flag_keeps
    | with_reducible apply Keeps.cond
    | with_reducible apply Keeps.cond_fst
    | with_reducible apply Keeps.ite_fst
    | (extract_lets +onlyGivenNames x; refine Keeps.via' (o := orig) (x := x) ?_ (fun hx => ?_); rotate_left; clear_value x; rotate_right; subst x)
    | (extract_lets +onlyGivenNames x; refine Keeps.via' (o := orig) (x := x.1) ?_ (fun hx => ?_); rotate_left; clear_value x; rotate_right; subst x)
    | (extract_lets +onlyGivenNames x; clear_value x)
    | split)

theorem execDbgacc_keeps {orig : State} (op : Nat) (o : Nat) (v : Word) (s : State) (h_s : Keeps orig s) : KeepsRes orig (execDbgacc op o v s) := by
  unfold execDbgacc
  repeat' (first
    | with_reducible assumption
    | intro x
    | with_reducible apply KeepsRes.next
    | with_reducible apply State.emit_keeps
    | with_reducible apply State.badAccess_keeps
    | with_reducible apply State.watched_keeps
    | with_reducible apply State.busWrite_keeps
    | with_reducible apply State.busRead_keeps
    | with_reducible apply KeepsRes.cond
    | with_reducible apply KeepsRes.ite
    | with_reducible apply Keeps.cond
    | with_reducible apply Keeps.ite
    | with_reducible apply Keeps.cond_fst
    | with_reducible apply Keeps.ite_fst
    | (extract_lets +onlyGivenNames x; refine Keeps.via' (o := orig) (x := x) ?_ (fun hx => ?_); rotate_left; clear_value x; rotate_right; subst x)
    | (extract_lets +onlyGivenNames x; refine Keeps.via' (o := orig) (x := x.1) ?_ (fun hx => ?_); rotate_left; clear_value x; rotate_right; subst x)
    | (extract_lets +onlyGivenNames x; clear_value x)
    | split)

end Sys2Proof.Machine
end

