-- ==== Sys2Proof/Laws/KeepsTick.lean ====
section
/-!
SUPPORT. Every operation of Machine/Tick.lean keeps the canonical forms and the queue.
-/
namespace Sys2Proof.Machine

theorem State.tileTick_keeps {orig : State} (s : State) (t : Nat) (h_s : Keeps orig s) : Keeps orig (State.tileTick s t) := by
  unfold State.tileTick
  repeat' (first
    | with_reducible assumption
    | intro x
    | with_reducible apply State.timerTick_keeps
    | with_reducible apply State.coreTick_keeps
    | with_reducible apply State.count_keeps
    | with_reducible apply Keeps.cond
    | with_reducible apply Keeps.foldl
    | (extract_lets +onlyGivenNames x; refine Keeps.via' (o := orig) (x := x) ?_ (fun hx => ?_); rotate_left; clear_value x; rotate_right; subst x)
    | (extract_lets +onlyGivenNames x; clear_value x))

theorem State.clockTick_keeps {orig : State} (s : State) (h_s : Keeps orig s) : Keeps orig (State.clockTick s) := by
  unfold State.clockTick
  repeat' (first
    | with_reducible assumption
    | with_reducible apply State.slowEdge_keeps
    | with_reducible apply Keeps.cond
    | (extract_lets +onlyGivenNames x; refine Keeps.via' (o := orig) (x := x) ?_ (fun hx => ?_); rotate_left; clear_value x; rotate_right; subst x)
    | (extract_lets +onlyGivenNames x; clear_value x)
    | (with_reducible apply Keeps.mk'; with_reducible assumption)
    | (with_reducible apply Keeps.mk'; first | with_reducible apply State.slowEdge_keeps | with_reducible apply Keeps.cond))

theorem State.cycle_keeps {orig : State} (s : State) (h_s : Keeps orig s) : Keeps orig (State.cycle s) := by
  unfold State.cycle
  repeat' (first
    | with_reducible assumption
    | intro x
    | with_reducible apply State.tick_keeps
    | with_reducible apply State.clockTick_keeps
    | with_reducible apply State.degrTime_keeps
    | with_reducible apply State.firedEnds_keeps
    | with_reducible apply State.tileTick_keeps
    | with_reducible apply State.dmaTick_keeps
    | with_reducible apply State.fabric_keeps
    | with_reducible apply Keeps.cond
    | with_reducible apply Keeps.foldl
    | (extract_lets +onlyGivenNames x; refine Keeps.via' (o := orig) (x := x) ?_ (fun hx => ?_); rotate_left; clear_value x; rotate_right; subst x)
    | (extract_lets +onlyGivenNames x; clear_value x))

end Sys2Proof.Machine
end

