-- ==== Sys2Proof/WellFormed.lean ====
section
/-!
DEFINITION. Well-formed commands: every number is one the spec has (events 02 R74, lanes and inputs 04, views 07, tuners 08,
trigger units, groups and pins 09, capture slots 10, tiles 12, galleries and channels 14, ranks 15, streams, ports and rings 16,
outputs 17, stimulus channels 18, PLLs and clock outputs 20, islands, supplies and monitor converters 21). A command that is not
well formed is one that nothing outside the block can send; exec answers it all the same.
-/
namespace Sys2Proof

/-- The operands of a command are within the ranges the spec gives them. -/
def Instr.wf : Instr → Bool
  | .registerWrite _ o _ => decide (o < 2 ^ 26) && decide (o % 4 = 0)
  | .rlRead _ o => decide (o < 2 ^ 26) && decide (o % 4 = 0)
  | .badAccess _ _ _ _ v => decide (v < 2 ^ 64)
  | .blkLockSet _ => true
  | .tvCompare _ _ _ _ _ => true
  | .tvRestoreDone _ => true
  | .eventOccurrence n => decide (n < 512)
  | .evtPendClear n _ => decide (n < 512)
  | .evtCfgWrite n _ => decide (n < 512)
  | .oapRequest _ _ _ => true
  | .objRead _ i j => decide (i < 65536) && decide (j < 256)
  | .objWrite _ _ i j ty _ => decide (i < 65536) && decide (j < 256) && decide (ty < 256)
  | .objReadRange _ i j last => decide (i < 65536) && decide (j < 256) && decide (last < 256)
  | .objDescribe i j => decide (i < 65536) && decide (j < 256)
  | .objSubscribe _ mask => decide (mask.length = 64)
  | .oapOpen _ _ _ => true
  | .oapClose _ _ _ => true
  | .sessionIdleTimeout _ => true
  | .notifySend _ => true
  | .notifyAck _ _ _ => true
  | .notifyResend _ _ => true
  | .netSettingsApply _ => true
  | .persistStore _ => true
  | .persistErase _ => true
  | .persistDone => true
  | .mbxCtrlWrite _ => true
  | .mailboxResponseDone => true
  | .pcieFlr => true
  | .tbSetArm _ _ _ => true
  | .tbCancel => true
  | .tbSetApply _ => true
  | .eraIncrement => true
  | .ppsEdge _ _ _ => true
  | .ppsMiss => true
  | .tbAdjRateWrite _ => true
  | .softDiscStale => true
  | .refGateEnd _ _ => true
  | .refLost _ => true
  | .refSwitchover => true
  | .ptpEventRx port _ _ _ => decide (port < 8)
  | .ptpTxTimestamp port _ _ => decide (port < 8)
  | .ptpPop port => decide (port < 8)
  | .laneSignalDetect lane => decide (lane < 128)
  | .lossOfSignal lane => decide (lane < 128)
  | .adaptationDone lane => decide (lane < 128)
  | .adaptTimeout lane => decide (lane < 128)
  | .lmbRx lane _ _ => decide (lane < 128)
  | .blockLockLoss lane => decide (lane < 128)
  | .frameVerdict lane _ _ => decide (lane < 128)
  | .frameLongCheck lane _ => decide (lane < 128)
  | .gapInterim n => decide (n < 128)
  | .ratefaultClear n => decide (n < 128)
  | .jesdLinkLock lane _ => decide (lane < 128)
  | .jesdMultiblockRelease n _ _ _ _ _ => decide (n < 128)
  | .fastPathSample n _ _ _ _ => decide (n < 128)
  | .sampleRelease n => decide (n < 128)
  | .ingressSwap lane => decide (lane < 128)
  | .coarseSpectrum n _ _ => decide (n < 128)
  | .sketchSpectrum n _ => decide (n < 128)
  | .sketchDeadline n _ => decide (n < 128)
  | .cchSwap n _ => decide (n < 128)
  | .coarseVoidDeadline n _ => decide (n < 128)
  | .fineSpectrumDue n _ => decide (n < 128)
  | .fineSpectrum n _ _ => decide (n < 128)
  | .fchSwap n => decide (n < 128)
  | .intervalDeadline v _ => decide (v < 1024)
  | .detectorRecordClose v _ => decide (v < 1024)
  | .sketchRecordHoldEnd v _ => decide (v < 1024)
  | .dvwClrHold v => decide (v < 1024)
  | .dvwClrPersist v => decide (v < 1024)
  | .viewSwap v => decide (v < 1024)
  | .viewDrained v => decide (v < 1024)
  | .viewRateStep v _ _ => decide (v < 1024)
  | .tunerOutput t => decide (t < 256)
  | .tunerSwap t => decide (t < 256)
  | .glazeEnd t => decide (t < 256)
  | .tunerDrained t => decide (t < 256)
  | .tunerStepChange t => decide (t < 256)
  | .triggerProduct u _ _ => decide (u < 32)
  | .triggerFire u => decide (u < 32)
  | .holdoffEnd u => decide (u < 32)
  | .trgArm unit group => (bif group then decide (unit < 8) else decide (unit < 32))
  | .trgDisarm unit group => (bif group then decide (unit < 8) else decide (unit < 32))
  | .trgForce unit _ => decide (unit < 32)
  | .forceScheduled u => decide (u < 32)
  | .trigInEdge p _ _ _ => decide (p < 8)
  | .softTrigger t u _ => decide (t < 64) && decide (u < 32)
  | .pairGroupArm g => decide (g < 8)
  | .toutAlignedEdge p => decide (p < 8)
  | .toutPulseEnd p => decide (p < 8)
  | .triggerRecordRelease u => decide (u < 32)
  | .triggerRecordDequeue st => decide (st < 4096)
  | .triggerUnitSwap u => decide (u < 32)
  | .capRequest slot => decide (slot < 32)
  | .captureHeld _ => true
  | .capRead _ => true
  | .capRelease _ => true
  | .capstatDone _ => true
  | .readoutEnd _ => true
  | .hbmWriterStart => true
  | .watchDrainDone => true
  | .ladderEvaluation => true
  | .recorderSwap => true
  | .seamAbsentDeadline n _ => decide (n < 128)
  | .seamCellRelease _ _ => true
  | .seamSkewCheck _ => true
  | .subintEnd => true
  | .xspIntervalClose => true
  | .dumpSlot => true
  | .beamvoltEmit _ _ => true
  | .xspWdataWrite _ => true
  | .xspSwap => true
  | .xspDumpDrained => true
  | .ldb t _ => decide (t < 64)
  | .ldbu t _ => decide (t < 64)
  | .ldh t _ => decide (t < 64)
  | .ldhu t _ => decide (t < 64)
  | .ldw t _ => decide (t < 64)
  | .ldd t _ => decide (t < 64)
  | .ldq t _ => decide (t < 64)
  | .lea t _ => decide (t < 64)
  | .stb t _ => decide (t < 64)
  | .sth t _ => decide (t < 64)
  | .stw t _ => decide (t < 64)
  | .std t _ => decide (t < 64)
  | .stq t _ => decide (t < 64)
  | .stac t _ => decide (t < 64)
  | .lkacq t _ => decide (t < 64)
  | .lkrel t _ => decide (t < 64)
  | .cmac t _ => decide (t < 64)
  | .cmacc t _ => decide (t < 64)
  | .cmsb t _ => decide (t < 64)
  | .cmul t _ => decide (t < 64)
  | .cmulc t _ => decide (t < 64)
  | .rmac t _ => decide (t < 64)
  | .rmul t _ => decide (t < 64)
  | .aclr t _ => decide (t < 64)
  | .aadd t _ => decide (t < 64)
  | .amov t _ => decide (t < 64)
  | .extc t _ => decide (t < 64)
  | .exti t _ => decide (t < 64)
  | .extq t _ => decide (t < 64)
  | .aget t _ => decide (t < 64)
  | .aset t _ => decide (t < 64)
  | .add t _ => decide (t < 64)
  | .sub t _ => decide (t < 64)
  | .adds t _ => decide (t < 64)
  | .subs t _ => decide (t < 64)
  | .and t _ => decide (t < 64)
  | .or t _ => decide (t < 64)
  | .xor t _ => decide (t < 64)
  | .andn t _ => decide (t < 64)
  | .shl t _ => decide (t < 64)
  | .shr t _ => decide (t < 64)
  | .sar t _ => decide (t < 64)
  | .min t _ => decide (t < 64)
  | .max t _ => decide (t < 64)
  | .minu t _ => decide (t < 64)
  | .maxu t _ => decide (t < 64)
  | .mov t _ => decide (t < 64)
  | .cadd t _ => decide (t < 64)
  | .csub t _ => decide (t < 64)
  | .cconj t _ => decide (t < 64)
  | .cswap t _ => decide (t < 64)
  | .cshr t _ => decide (t < 64)
  | .pack t _ => decide (t < 64)
  | .cmpeq t _ => decide (t < 64)
  | .cmplt t _ => decide (t < 64)
  | .cmpltu t _ => decide (t < 64)
  | .cmple t _ => decide (t < 64)
  | .qand t _ => decide (t < 64)
  | .qor t _ => decide (t < 64)
  | .qandn t _ => decide (t < 64)
  | .mvtx t _ => decide (t < 64)
  | .mvfx t _ => decide (t < 64)
  | .mvfm t _ => decide (t < 64)
  | .mvtm t _ => decide (t < 64)
  | .addi t _ => decide (t < 64)
  | .andi t _ => decide (t < 64)
  | .ori t _ => decide (t < 64)
  | .shli t _ => decide (t < 64)
  | .shri t _ => decide (t < 64)
  | .sari t _ => decide (t < 64)
  | .movlo t _ => decide (t < 64)
  | .movhi t _ => decide (t < 64)
  | .nop t _ => decide (t < 64)
  | .br t _ => decide (t < 64)
  | .call t _ => decide (t < 64)
  | .ret t _ => decide (t < 64)
  | .loop t _ => decide (t < 64)
  | .loopi t _ => decide (t < 64)
  | .lbrk t _ => decide (t < 64)
  | .rti t _ => decide (t < 64)
  | .swp t _ => decide (t < 64)
  | .fence t _ => decide (t < 64)
  | .idle t _ => decide (t < 64)
  | .bclr t _ => decide (t < 64)
  | .bmac t _ => decide (t < 64)
  | .bout t _ => decide (t < 64)
  | .bmov t _ => decide (t < 64)
  | .bfft t _ => decide (t < 64)
  | .benchGranuleEnd t => decide (t < 64)
  | .interruptEntry t => decide (t < 64)
  | .tileTimerExpiry t k => decide (t < 64) && decide (k < 4)
  | .tileTimerWrite t k w _ => decide (t < 64) && decide (k < 4) && decide (w < 3)
  | .edgeDetectorEdge t j _ _ => decide (t < 64) && decide (j < 8)
  | .tunerRingBlock t k => decide (t < 64) && decide (k < 8)
  | .tileRingRidxWrite t k _ => decide (t < 64) && decide (k < 8)
  | .tileRun t => decide (t < 64)
  | .tileHalt t => decide (t < 64)
  | .tileReset t => decide (t < 64)
  | .tileClockGate t => decide (t < 64)
  | .xctlArm t _ => decide (t < 64)
  | .xctlForce t => decide (t < 64)
  | .xctlCancel t => decide (t < 64)
  | .exchangeTimeout t => decide (t < 64)
  | .tilePdataWrite t _ => decide (t < 64)
  | .tileMdataAccess _ t _ _ => decide (t < 64)
  | .lockAcquire _ n => decide (n < 256)
  | .lockRelease _ n => decide (n < 256)
  | .lockBreak _ n => decide (n < 256)
  | .dmaStart g c => decide (g < 8) && decide (c < 16)
  | .dmaDoorbell g c => decide (g < 8) && decide (c < 16)
  | .dmaStop g c => decide (g < 8) && decide (c < 16)
  | .dmaAbort g c => decide (g < 8) && decide (c < 16)
  | .dmaClear g c => decide (g < 8) && decide (c < 16)
  | .descriptorFetch g c => decide (g < 8) && decide (c < 16)
  | .descriptorComplete g c _ => decide (g < 8) && decide (c < 16)
  | .endMarkPoll g c => decide (g < 8) && decide (c < 16)
  | .dmaCqRidxWrite g c _ => decide (g < 8) && decide (c < 16)
  | .dmaGsdataAccess _ g port _ _ => decide (g < 8) && decide (port < 2)
  | .hbmAccess _ _ _ _ _ => true
  | .rowIdleClose rank bank => decide (rank < 768) && decide (bank < 16)
  | .refreshDue rank bank _ => decide (rank < 768) && decide (bank < 16)
  | .scrubPass rank _ _ => decide (rank < 768)
  | .memRetire rank => decide (rank < 768)
  | .memRestore rank => decide (rank < 768)
  | .migrationStart => true
  | .migrationGrain => true
  | .fold => true
  | .pcPowerDown pc _ => decide (pc < 256)
  | .recordEnqueue => true
  | .protectedRecordEnter st => decide (st < 4096)
  | .streamDeadTimeout st => decide (st < 4096)
  | .streamFailedExit st => decide (st < 4096)
  | .datagramSend port _ _ => decide (port < 8)
  | .ethFrameRx port _ _ _ => decide (port < 8)
  | .portLinkChange port _ => decide (port < 8)
  | .vrtDataPacket t _ => decide (t < 256)
  | .vrtContextPacket t => decide (t < 256)
  | .hrgTailWrite r _ => decide (r < 256)
  | .hostBufferWriteback r _ _ _ => decide (r < 256)
  | .hostRingInterrupt r => decide (r < 256)
  | .txFrameSend r _ _ _ => decide (r < 256)
  | .diskAttach => true
  | .diskFormat => true
  | .diskDetach => true
  | .diskKeep => true
  | .diskFree => true
  | .diskRead => true
  | .diskCommandDone _ => true
  | .diskDataWrite st _ _ => decide (st < 4096)
  | .diskWriteComplete _ => true
  | .diskCheckpoint => true
  | .journalWrite => true
  | .diskDriveFail _ => true
  | .streamSwap e ring => (bif ring then decide (e < 256) else decide (e < 4096))
  | .streamDrained st => decide (st < 4096)
  | .displayPromotion o _ => decide (o < 2)
  | .overlayFetch o _ _ => decide (o < 2)
  | .dspFlipWrite o sel => decide (o < 2) && decide (sel < 2)
  | .hpdPlug o => decide (o < 2)
  | .hpdUnplug o => decide (o < 2)
  | .irqHpd o => decide (o < 2)
  | .linkTrainingDone o _ _ => decide (o < 2)
  | .retrain o => decide (o < 2)
  | .auxNativeWrite o => decide (o < 2)
  | .auxNativeRead o => decide (o < 2)
  | .auxI2cWrite o => decide (o < 2)
  | .auxI2cRead o => decide (o < 2)
  | .auxDone o _ _ => decide (o < 2)
  | .touchReadStart _ => true
  | .touchReport _ _ => true
  | .mkrRead _ => true
  | .displaySwap o => decide (o < 2)
  | .stimLaneTrained c => decide (c < 16)
  | .stimChannelStart c => decide (c < 16)
  | .segmentBoundary c _ => decide (c < 16)
  | .stimulusSwap c => decide (c < 16)
  | .calLane _ _ => true
  | .calAlign _ _ => true
  | .calGain _ _ => true
  | .calFlat _ _ => true
  | .calMonitor _ _ => true
  | .calAbort => true
  | .calApply => true
  | .calSettleDone => true
  | .calRunEnd _ _ => true
  | .admCheck _ => true
  | .admCommit _ => true
  | .admAbort => true
  | .admissionCheckDone _ => true
  | .commitInstant => true
  | .relock => true
  | .bandcal => true
  | .bandcalDone _ => true
  | .rootPllLock _ => true
  | .clockWalkStep => true
  | .refGlitch => true
  | .holdoverExpiry => true
  | .pllLockLoss => true
  | .auxPllLock k state => decide (k < 2) && decide (state < 4)
  | .clkOutWrite k _ => decide (k < 4)
  | .sysrefFire => true
  | .pwrSleep => true
  | .pwrWatch => true
  | .pwrFull => true
  | .pwrKeep => true
  | .wakeRequest src => decide (0 < src) && decide (src < 4)
  | .modeTransitionDone => true
  | .governorSlot => true
  | .islandUsable i => decide (i < 111)
  | .governorCheck => true
  | .supplyGoodChange i _ _ => decide (i < 8)
  | .supplyUndervoltage i => decide (3 ≤ i) && decide (i ≤ 6)
  | .resetRelease => true
  | .thermalEvaluation _ => true
  | .thermtrip => true
  | .hkEntryDone k e _ _ => decide (k < 2) && decide (e < 16)
  | .hkUrg conv ch => decide (conv < 3) && decide (ch < 18)
  | .hkUrgentConversion k _ => decide (k < 2)
  | .resetNAssert => true
  | .startStepDone _ _ _ => true
  | .stepfailRestart => true
  | .watchdogExpiry => true
  | .secReset => true
  | .secProvision => true
  | .lcreq => true
  | .svnburn _ => true
  | .secRevoke _ => true
  | .fuseBurnDone => true
  | .flashRead => true
  | .flashProgram => true
  | .flashErase => true
  | .flashDone => true
  | .tileVerify t => decide (t < 64)
  | .tileVerifyDone => true
  | .dbgChal => true
  | .dbgResp level _ => decide (level < 4)
  | .dbgacc _ _ _ => true
  | .dbgend => true
  | .extest _ => true
  | .samplePreload _ _ => true
  | .respLockoutEnd => true
  | .dzHeartbeat _ _ _ _ _ _ _ _ => true
  | .dzSync _ _ _ _ _ _ => true
  | .dzFireA _ _ _ _ _ _ _ => true
  | .dzFireB _ _ _ => true
  | .dzArm _ _ g _ _ => decide (g < 8)
  | .dzRelease _ _ g _ => decide (g < 8)
  | .dzWake _ _ _ => true
  | .dzOrder _ _ stream _ _ _ _ => decide (stream < 4096)
  | .dzSent _ _ st _ => decide (st < 4096)
  | .dzEpoch _ _ st _ _ => decide (st < 4096)
  | .dzStep _ _ st _ => decide (st < 4096)
  | .dzIndex _ _ inp _ => decide (inp < 128)
  | .dzCreq _ _ _ _ _ _ _ => true
  | .dzCresp _ _ _ _ _ => true
  | .dzMode _ _ _ => true
  | .dzJoin _ _ _ _ _ _ _ => true
  | .dzSwitchCell _ _ _ => true
  | .dzLeaveCell _ _ => true
  | .dzAck _ _ => true
  | .cellRetransmit _ => true
  | .heartbeatSend => true
  | .syncSend _ => true
  | .sentSend => true
  | .orderMiss st _ => decide (st < 4096)
  | .crespTimeout => true
  | .partnerLost _ => true
  | .dzSwitch => true
  | .switchFinal => true
  | .dzLeave => true
  | .rejoin => true
  | .dzLinkState lane state => decide (lane < 8) && decide (state < 16)
  | .resetNDeassert => true
  | .cdrLockLoss lane => decide (lane < 128)
  | .referenceReturn _ => true
  | .busMasterDisable => true
  | .laneDieLinkFault die => decide (die < 4)

end Sys2Proof
end

