-- ==== Sys2Proof/Tests/Slice0.lean ====
section
/-!
SUPPORT. Small states, one witness for the hypotheses of each clause of the statements (witness_<statement>_<clause>), one
ill-formed term for each check of WellFormed.lean, and a few commands checked by hand against the spec.
-/
set_option linter.unusedVariables false

namespace Sys2Proof.Tests

open Sys2Proof Sys2Proof.Machine

/-- Started, in Sleep. -/
def up : State := { State.reset with sec := { State.reset.sec with step := none } }
/-- Started, in Full. -/
def full : State := up.put Reg.PWR_STAT_MODE.z 4
/-- A session with request 6 answered. -/
def oldSession : Session :=
  { id := 9, addr := 1, port := 2, expected := 7, cache := [(6, [7])], subs := 0, notifyNo := 5, window := [], held := [], auth := false,
    key := [] }
def heldSession : Session := { oldSession with held := [3] }
def windowSession : Session := { oldSession with window := [⟨4, [], 0, 1⟩] }
def withSession (x : Session) : State := { up with ctl := { up.ctl with sessions := [x] } }
def sess : State := withSession oldSession
def noticed : State := withSession heldSession
def resent : State := withSession windowSession
def storing : State := { up with ctl := { up.ctl with persistOp := some none } }
def answered : State := { up with ctl := { up.ctl with mbxResponse := some [1, 2] } }
def noDgram : Dgram := ⟨0, 0, 0, 0, 0, 0, 0, [], [], []⟩
/-- A datagram without body (02 R49). -/
def header (type sid seq : Nat) : List Byte :=
  u16 0x4F57 ++ u8 1 ++ u8 type ++ u16 0 ++ u16 0 ++ u32 sid ++ u32 seq ++ zeros 16
def reqBytes (seq : Nat) : List Byte := header 1 9 seq
def shortBytes (type : Nat) : List Byte := header type 9 0
def opnBytes : List Byte := header 5 0 1
def setting : State := { up with tb := { up.tb with armed := some (.add, 5) } }
def ppsSeen : State := { up with tb := { up.tb with ppsLast := some 5 } }
def missed : State := { up with tb := { up.tb with ppsLast := some 5, ppsMisses := 1 } }
def gating : State := { up with tb := { up.tb with ppsQualified := true, gateAt := some 0, ppsLast := some (2 ^ 48) } }
def soft : State := { (up.put Reg.TB_CTRL_DISC.z 2) with tb := { up.tb with softFresh := true } }
def switching : State := { up with tb := { up.tb with switchTo := some 1 } }
/-- Port 0 with its link up and PTP over Ethernet enabled both ways. -/
def ptpUp : State :=
  (((up.flag (Reg.STR_PSTAT_LINK.e 0) true).flag (Reg.PTP_CFG_RX_EN.e 0) true).flag (Reg.PTP_CFG_TX_EN.e 0) true).flag
    (Reg.PTP_CFG_L2.e 0) true
/-- A PTPv2 Delay_Req over Ethernet (03 R107). -/
def ptpFrame : List Byte := zeros 12 ++ [0x88, 0xF7, 1, 2] ++ zeros 46
/-- Lane 3 hunting with one LMB received. -/
def marked : State := (up.put (laneState 3) 3).setLane 3 { Lane.reset with lmbs := [100] }
/-- A stretch of an all-zero control block and an LMB, Gray-coded and scrambled (04 R115, R116). -/
def lmbLine : Line :=
  ⟨0x2df705e7e3281b25329fb810ac4af03f32ef55f27d79ee7e3274ed7d57ca209b00000000000000000000000000000000000000000000000000000000000000000,
   false, 1⟩
/-- A stretch of a data block of zeros and a data block that begins with byte 0x11. -/
def dataLine : Line :=
  ⟨0x3fc00330001100033000dd000cc00088000000033000330001100000000cd0000000000000000000000000000000000000000000000000000000000000003,
   false, 1⟩
/-- The second block of a stretch. -/
def blockOf (x : Line) : RxBlock := ((x.rx false).head?).getD ⟨.idle, 0, false⟩
/-- Input 0 takes lane 0. -/
def fed : State := full.flag (Reg.ING_LMAP_EN.e 0) true
def gapped : State := up.setInp 5 { up.inp 5 with gap := some ⟨1, 0, 1, 2, 0, 0⟩ }
def lockedIn : State := fed.setInp 0 { fed.inp 0 with locked := true }
/-- Input 0 in lock, its index model 1000 instants from the start of the time base. -/
def model : FrameModel := ⟨0, 0, 0, 2 ^ 40, false, 0, 0, 0⟩
def timed : State := fed.setInp 0 { fed.inp 0 with models := [model] }
def rateFaulted : State := fed.setInp 0 { fed.inp 0 with rateFault := true }
def jesdUp : State := (fed.flag (Reg.ING_LMAP_JESD.e 0) true).put (laneState 0) 4
/-- A commit waits for block `b`, whose element 3 has not swapped. -/
def swapping (b : Blk) : State :=
  { (full.put Reg.ADM_STAT_STATE.z 3) with
    adm := { full.adm with named := [b] }
    ing := { full.ing with lanesLeft := [3] }
    fine := { full.fine with left := [3] }
    front := { full.front with gridsLeft := [9] } }
def seriesSwapping : State :=
  ((swapping .coarse).flag (Reg.ING_LMAP_EN.e 3) true).setInp 3 { full.inp 3 with models := [model] }
/-- A spectrum of index `m`. -/
def spectrum (m : Nat) : Spectrum := ⟨m, m, 1, 0, 0, 0, 0, [], 0, 16, 0, 0, 0, 0, 0, 1, 0⟩
/-- Input 0 with the smallest window (05 R155, a palette window whose outer weights are 1), its last sample released. -/
def sample (i : Nat) : Sample := ⟨i, 5, 0, true, false, 0, 0, 0⟩
def windowed : State :=
  let s := ((fed.flag (Reg.CCH_ICFG_MAINEN.e 0) true).flag (Reg.CCH_ICFG_SEAMEN.e 0) true).flag (Reg.CCH_ICFG_SKEN.e 0) true
  let s := ((s.put (Reg.CCH_ICFG_NLOG.e 0) 0).put (Reg.CCH_WIN_WIN.e 0) 16).put (Reg.CCH_WIN_SKWIN.e 0) 16
  let s := (s.put (Reg.CCH_PAL_COEF.e2 0 0) 1)
  s.setInp 0 { s.inp 0 with main := [sample 2047], fast := [(200, 0, 0), (127, 0, 0)] }
/-- A fine grid of 16 spectra a span, one span taken and the next complete. -/
def fineChain : FineChain :=
  ⟨16, 16, 0, 1, 1, false, false, 0, none, none, some 31, [], [], 16, [0], [], [⟨16, [(3, 0)]⟩]⟩
def fineDue : State := fed.setFin 0 { fed.fin 0 with chains := [fineChain] }
def grid : PlaneGrid := ⟨0, 1, 1, 0, none⟩
def interval : Interval :=
  { e0 := 0, e1 := 4, specs := [], late := 0, short := false, step := 0, dgen := 0, pgen := 0, grid := grid,
    raster := [], hold := [], full := false, desc := [] }
def otherPlane : Interval := { interval with desc := [BitVec.ofNat 32 (2 ^ Reg.DVW_CTRL_PLANE.lo)] }
def viewing : State :=
  let s := (((full.flag (Reg.DVW_CTRL_EN.e 2) true).put (viewState 2) 2).put (Reg.DVW_MASK_SEL.e2 2 0) 32)
  s.setVin 2 5 { ViewIn.reset with running := true, cur := some interval, closed := [interval], held := [interval] }
def viewingCells : State := up.setVin 2 6 { ViewIn.reset with closed := [otherPlane] }
/-- View 2 takes input 5. -/
def viewOf5 : State := up.put (Reg.DVW_MASK_SEL.e2 2 0) 32
def detSwapping : State := let s := swapping .detect
                           { s with det := { s.det with left := [2] } }
def stepping : State := { up with det := { up.det with ordered := [(2, some 3)] } }
def chain : Chain :=
  ⟨⟨0, 1, false, 1, 1, false, false, 0, 0, 0, [], 0, [], 0⟩, [], 0, 0, 0, 10, 1, none, none, [], 0, 0, 0, 0, none⟩
def glazeChain : Chain := { chain with glaze := some ⟨chain.set, 1, 8⟩ }
def tuning : State := windowed.setTuner 4 { Tuner.reset with chain := some chain }
def tunSwapping : State := (swapping .tuners).setTuner 4 { Tuner.reset with iS := some 77 }
def glazing : State := up.setTuner 4 { Tuner.reset with chain := some glazeChain }
def tunOld (c : Chain) : State := windowed.setTuner 4 { Tuner.reset with old := some c }
def endedChain : Chain := { chain with limit := some (-1000000) }
def tunOrdered : State := up.setTuner 4 { Tuner.reset with ordered := some 3 }
def s31 : TrigDone := ⟨0, 0, 0, 0, 0, 0, 0, TrigRun.reset, false, false, false, []⟩
def unit31 (x : TrigUnit) : State := (full.flag (Reg.TRG_UCFG_EN.e 31) true).setUnit 31 x
def pulsed : State := (unit31 { TrigUnit.reset with queue := [⟨1, 5, 0, []⟩] }).put (Reg.TRG_UCFG_SRC.e 31) 7
/-- Unit 31 watches the fast path of input 0. -/
def trigFast : State :=
  let s := ((windowed.flag (Reg.TRG_UCFG_EN.e 31) true).put (Reg.TRG_UCFG_SRC.e 31) 1).put (Reg.TRG_USEL_SEL.e2 31 0) 1
  s.setInp 0 { s.inp 0 with models := [model] }
def completed : State := unit31 { TrigUnit.reset with comp := some s31 }
def heldOff : State := (unit31 { TrigUnit.reset with dec := some 0 }).put (unitState 31) 4
def forced (en : Bool) : State := (unit31 { TrigUnit.reset with force := some 0 }).flag (Reg.TRG_UCFG_EN.e 31) en
def armPending : State := { full with trg := { full.trg with groups := [(7, ⟨0, some (0, 5), false⟩)] } }
def pinned : State := full.setPin 7 ⟨true, true, some 0, [(0, 4)], none⟩
def recorded : State := { full with trg := { full.trg with held := [⟨31, [4], [], 0, []⟩], queue := [⟨31, [4], [], 0, []⟩] } }
def trgSwapping : State := let s := swapping .triggers
                           { s with trg := { s.trg with left := [31] } }
/-- In Watch with the recorder enabled, no watch ring and slot 31 enabled. -/
def capReady : State :=
  ((((full.put Reg.PWR_STAT_MODE.z 3).flag Reg.REC_CTRL_EN.z true).put recState 2).flag Reg.REC_CTRL_WATCHEN.z false).flag
    (Reg.CAP_SCFG_EN.e 31) true
def capture (state : Nat) : Capture := ⟨0, 5, 31, [], 0xFF, 0, 0, 0, [], true, false, state, false, 0, 0⟩
def withCapture (c : Capture) : State := { full with rcd := { full.rcd with captures := [c] } }
def capturing (state : Nat) : State := withCapture (capture state)
def statCapture : Capture := { capture 3 with words := [BitVec.ofNat 32 (2 ^ Reg.CAP_SCFG_STATS.lo)] }
def statCapturing : State := withCapture statCapture
def readCapture : Capture := { capture 3 with stats := true }
def readCapturing : State := withCapture readCapture
def folding : State :=
  let s := full.put Reg.MEM_STAT_MIG.z 3
  { s with msys := { s.msys with mig := some (2, 767, none) } }
/-- The same with a ring of 6000 slots and 2 grains a slot. -/
def shrinking : State :=
  let s := (folding.flag Reg.REC_CTRL_EN.z true).put Reg.MEM_STAT_GLOG.z 7
  s.setRecIn 0 { s.recIn 0 with slots := 6000 }
def shrunk : State := shrinking.recShrink (5722 + ceilDiv 5722 (max 1 (shrinking.ranksU - 1)) + 1)
/-- The cross-spectral unit runs on input 3, spectrum 8 next. -/
def crossOn : State :=
  let s := (full.flag Reg.XSP_CTRL_EN.z true).put (Reg.XSP_INMASK_SEL.e 0) 8
  { s with xsp := { s.xsp with next := some 8, hop := 1, len := 8 } }
/-- The same with inputs 0 and 1, whose pin times differ. -/
def skewed : State :=
  let s := (crossOn.put (Reg.XSP_INMASK_SEL.e 0) 3).setInp 0 { crossOn.inp 0 with models := [{ model with a := 2 ^ 120 }] }
  s.setInp 1 { s.inp 1 with models := [model] }
def seamReady : State := { crossOn with xsp := { crossOn.xsp with absent := [⟨8, 1, 3⟩] } }
def xint : XInt := ⟨0, 0, 0, [], [], [], [], [], [], false, false, [], 0, 0, 1, 8, 0⟩
def dumping : State := { full with xsp := { full.xsp with ended := [xint], dumps := [xint] } }
/-- One voltage beam of one band bin, with a value of spectrum 8. -/
def volting : State :=
  let s := ((crossOn.put Reg.XSP_BAND_BCNT.z 1).flag (Reg.XSP_BCFG_EN.e 0) true).put (Reg.XSP_BCFG_MODE.e 0) 1
  let s := (s.put Reg.XSP_BCTRL_VSPEC.z 0).flag Reg.XSP_BCTRL_BEAMEN.z true
  { s with xsp := { s.xsp with next := none, volts := [⟨8, 0, 0, true, [], [[(1, 2)]], s.regs, 0, 1, 8, 0, []⟩] } }
def weighing : State :=
  ((full.put ((Reg.XSP_INMASK_SEL.e 0).staged .cross) 1).put (Reg.XSP_BAND_BCNT.z.staged .cross) 1).flag
    ((Reg.XSP_BCFG_EN.e 0).staged .cross) true
def xswapping : State := let s := swapping .cross
                         { s with xsp := { s.xsp with swapAt := some 8, next := some 8 } }
def xdrained : State := { full with xsp := { full.xsp with draining := true } }
/-- Tile 3 runs, at a bundle boundary. -/
def tiled : State := full.put (tileState 3) 2
/-- The same at level 1. -/
def tiledUp : State := (tiled.setTile 3 { tiled.tile 3 with lvl := true }).flag (Reg.TILE_STAT_LVL.t 3) true
/-- P2 of tile 3 is 2. -/
def tiledOdd : State := tiled.setTile 3 { tiled.tile 3 with main := (tiled.tile 3).main.setX 2 2 }
/-- A loop's body at syllable address 1 of tile 3, and D6 = 7. -/
def tiledLoop : State := tiled.setTile 3 { tiled.tile 3 with bank0 := [(1, 0x80000000)], main := (tiled.tile 3).main.setD 6 7 }
def looping : State :=
  tiled.setTile 3 { tiled.tile 3 with main := { (tiled.tile 3).main with l0a := true, lc0 := 7, loop0 := ⟨9, 0, true⟩ } }
def bclrBlock : List Byte := zeros 32
/-- A at 0x100 (1 × 1), B at 0x200, C16. -/
def bmacBlock : List Byte := u32 0x100 ++ u32 0x200 ++ zeros 16 ++ [1, 1, 1, 0, 2, 0, 0, 0]
def boutBlock : List Byte := u32 0x100 ++ zeros 8 ++ [1, 1] ++ zeros 18
def bmovBlock : List Byte := u32 0x100 ++ u32 0x200 ++ zeros 16 ++ [1, 0, 1, 0, 0, 0, 0, 0]
def bfftBlock : List Byte := u32 0x100 ++ u32 0x200 ++ zeros 8 ++ [4, 1, 1, 0] ++ zeros 12
/-- Tile 3 with a parameter block at address 0. -/
def benched (b : List Byte) : State := tiled.pokeAll (tileAddr 3 0) b
def granuled (g : Nat) : State :=
  tiled.setTile 3 { tiled.tile 3 with long := some ⟨0, [], 5⟩, busy := true, main := { (tiled.tile 3).main with prg := 2 ^ 31 + g } }
def interrupted : State :=
  let s := (tiled.put (Reg.TILE_TIP_LATCHED.t 3) 1).put (Reg.TILE_TIE_EN.t 3) 16
  s.setTile 3 { s.tile 3 with main := { (s.tile 3).main with ie := true } }
def edged : State := (tiled.flag (Reg.TILE_EDG_CFG_EN.tk 3 7) true).put (Reg.TILE_EDG_CFG_EDGE.tk 3 7) 1
def timing : State := (tiled.put (xState 3) 1).put (Reg.TILE_XSTAT_TMO.t 3) 1
def halted : State := tiled.put (tileState 3) 1
def tunOut : TunOut := ⟨0, 0, 0, 0, 0, 0, false, false, false, (1, 2), (1, 2), 0, 1, 0, 3 * 2 ^ 20 + 9, (0, 0), 0, false, 0, 0⟩
/-- Slot 7 of tile 3 takes tuner 4, whose output is due. -/
def ringed : State :=
  let s := (tiled.put (Reg.TILE_RING0_TUNER.tk 3 7) 4).flag (Reg.TILE_RING0_VALID.tk 3 7) true
  (s.put (Reg.TUN_RING_RLEN.e 4) 32).setTuner 4 { s.tuner 4 with ringOuts := [tunOut] }
def lockHeld : State := (up.put (lockState 255) 1).put (Reg.LOCK_STAT_OWNER.e 255) 64
/-- A descriptor that fills 4 bytes at 0 of gallery 7, with INT. -/
def dmaDesc : List Byte := u64 (2 ^ 63) ++ u64 9 ++ u64 (galAddr 7 0) ++ zeros 24 ++ zeros 6 ++ [2, 0x22] ++ zeros 8
/-- Gallery 7 grants its first 4096 bytes. -/
def granted : State := { full with adm := { full.adm with tsram := [0, 0, 0, 0, 0, 0, 0, 4096] } }
/-- Channel 15 of gallery 7 runs with the descriptor at byte 64. -/
def dmaReady : State :=
  ((granted.put (chState 7 15) 1).pokeAll (galAddr 7 64) dmaDesc).put64 (Reg.DMA_CHCUR_L_ADDR.e2 7 15)
    (Reg.DMA_CHCUR_H_ADDR.e2 7 15) (galAddr 7 64)
def dmaLatched : State := dmaReady.setChan 7 15 { dmaReady.chan 7 15 with desc := some dmaDesc }
def sized : State := full.put Reg.MEM_SIZE_L_VAL.z 4096
def askedMig : State := { full with msys := { full.msys with waiting := [767] } }
def migrating : State :=
  let s := full.put Reg.MEM_STAT_MIG.z 1
  { s with msys := { s.msys with mig := some (2, 767, some 5) } }
/-- Stream 9 runs; records close for it. -/
def streaming : State := full.put (strState 9) 1
def mapRec : Record := ⟨0x10, 4, 0, [1, 2, 3, 4]⟩
def gapRec : Record := ⟨2, 0, 0, [1, 2, 3, 4]⟩
def closedRec : Nat × Nat × Record := (9, 5, mapRec)
def bigRec : Nat × Nat × Record := (9, 5, { mapRec with body := zeros 64 })
def protRec : Nat × Nat × Record := (9, 5, gapRec)
def closing : State := { streaming with closed := [closedRec] }
def waitingRec : State := streaming.setStream 9 { Stream.reset with waiting := [gapRec] }
def qrec : QRec := ⟨0x10, false, 0, [1, 2, 3, 4], 0, 0, 7, 0, true, 0, false⟩
def queued : State := streaming.setStream 9 { Stream.reset with queue := [qrec] }
/-- A protected record waits, so no unprotected one enters. -/
def overflowing : State := { waitingRec.flag (Reg.REC_LCFG_EN.e 9) false with closed := [bigRec] }
def overflowing2 : State := { waitingRec.put (strState 9) 2 with closed := [protRec] }
def portUp : State := (full.flag (Reg.STR_PSTAT_LINK.e 7) true).flag (Reg.STR_PCFG_EN.e 7) true
def failedStream : State := (portUp.put (strState 9) 3).put (Reg.STR_SCFG_DSEL.e 9) 7
def strSwapping : State := let s := swapping .streams
                           { s with str := { s.str with left := [9], ringsLeft := [3] } }
def sending : State := (portUp.put (strState 9) 1).setStream 9 { Stream.reset with queue := [qrec] }
def pauseFrame : List Byte := zeros 12 ++ [0x88, 0x08, 0, 1, 0, 5] ++ zeros 42
/-- Ring 255 of kind `k` with one descriptor posted. -/
def posted (k : Nat) : State :=
  (((portUp.flag (Reg.HRG_CFG_EN.e 255) true).put (Reg.HRG_CFG_KIND.e 255) k).put (Reg.HRG_TAIL_TAIL.e 255) 1).put
    (Reg.HRG_CFG_PORT.e 255) 7
def signalling : State := full.setHostRing 255 { HostRing.reset with unsignalled := 300 }
def vrtReady : State :=
  let s := ((full.flag (Reg.TUN_DEST_SEN.e 3) true).put (Reg.TUN_DEST_STREAM.e 3) 9).flag (Reg.STR_SCFG_VRT.e 9) true
  s.setTuner 3 { Tuner.reset with strOuts := [tunOut] }
/-- A record for ring 255. -/
def hostRec : QRec := { qrec with dest := 1, sel := 255 }
def diskRec : QRec := { qrec with dest := 2 }
def diskPos : DiskPos := ⟨0, 0, 0, 0, 64, 0, 0, false⟩
def noDisk : DiskFound := ⟨[], [], [], [], [], true⟩
def diskBusy : State := { full with str := { full.str with disk := { full.str.disk with cmd := some (6, []) } } }
def diskSet : DiskSet := ⟨1, 1, 0, 26, 16, 2 ^ 30, 4⟩
def journaling : State :=
  let s := full.put dskState 3
  s.setDisk { s.disk with set := some diskSet, period := true, entries := [⟨1, 0, Extent.reset⟩] }
def commanded (c : Nat × List Nat) : State := journaling.setDisk { journaling.disk with cmd := some c }
/-- Stream 9 with a record for the disk, at place `p` of its extent. -/
def writing (p : Option DiskPos) : State := journaling.setStream 9 { Stream.reset with queue := [diskRec], disk := p }
/-- Lock 255 is HELD by tile 3. -/
def tiledHeld : State := (tiled.put (lockState 255) 1).put (Reg.LOCK_STAT_OWNER.e 255) 3
/-- P2 of tile 3 names RIDX of slot 7. -/
def ringTile0 : State := tiled.setTile 3 { tiled.tile 3 with main := (tiled.tile 3).main.setX 2 0xFFF0017C }
/-- The same with D4 = 5. -/
def ringTile : State := ringTile0.setTile 3 { ringTile0.tile 3 with main := (ringTile0.tile 3).main.setD 4 5 }
def dspSwapping : State := let s := swapping .display
                           s.setOutput 1 { Output.reset with left := true }
/-- Output 1 is ACTIVE. -/
def shown : State := full.put (outState 1) 3
def overlaid : State := shown.flag (Reg.DSP_OCFG_OVLEN.e 1) true
def stimIdle : State := (full.put (stmState 15) 1).setChn 15 { full.chn 15 with tc := some 5 }
def stimSwapping : State := let s := swapping .stimulus
                            { s with stm := { s.stm with left := [15] } }
/-- Input 0 may be calibrated by every procedure. -/
def calibrating : State :=
  let s := (full.put (Reg.CAL_SEL_SEL.e 0) 1).put (laneState 0) 3
  let s := ((s.put (Reg.ING_ISTAT_STATE.e 0) 2).flag (Reg.CCH_ICFG_MAINEN.e 0) true).flag (Reg.FCH_ICFG_EN.e 0) true
  let s := ((s.put (Reg.FCH_BINSEL_SEL.e2 0 0) 8).flag Reg.REC_CTRL_EN.z true).put (Reg.REC_INEN_SEL.e 0) 1
  ((s.put recState 1).put (stmState 0) 3).flag (Reg.STM_CCFG_SEQEN.e 0) true
def calRun : CalRun := ⟨3, false, false, [⟨0, some 1, 0, 0, false⟩], none⟩
def calRunning : State := { full with stm := { full.stm with run := some calRun } }
def calRes : CalResult := ⟨127, 0, false, 0, 0, 0, [], -5, (0, 0)⟩
def calKept : State := { full with stm := { full.stm with kept := [calRes], keptOp := 2 } }
/-- A CHECK of the reset configuration is under way. -/
def checking : State :=
  let s := up.put Reg.ADM_STAT_STATE.z 1
  { s with adm := { s.adm with request := some ⟨false, true, none⟩, began := s.regs } }
/-- The same with a view staged whose rectangle passes cell 63. -/
def checkingBad : State :=
  (checking.flag ((Reg.DVW_CTRL_EN.e 2).staged .detect) true).put ((Reg.DVW_RECT0_KCNT.e 2).staged .detect) 100
/-- Band 3 covers 5.6 to 7.2 GHz. -/
def banded : State := up.setWord (Reg.CLK_BAND_VALID.off + 12) (BitVec.ofNat 32 (2 ^ 31 + 560 * 16 + 720 * 16384))
def locking : State := { banded with clk := { banded.clk with locking := true } }
def walking : State :=
  let s := (banded.put Reg.CLK_STAT_STATE.z 2).put Reg.CLK_STAT_BAND.z 3
  s.put Reg.CLK_N_N.z (s.nFor s.ftarget - 1)
/-- In Sleep, with clock, memory and supplies for Watch and Full. -/
def awake : State :=
  ((up.put Reg.CLK_STAT_STATE.z 2).put Reg.MEM_SIZE_L_VAL.z 4096).put Reg.PWR_STAT_SUPGOOD.z 255
def supplied : State :=
  let s := up.put Reg.PWR_STAT_SUPGOOD.z 255
  { s with sec := { s.sec with supply := true } }
def starting (k : Nat) : State :=
  let s := awake.put Reg.PWR_CFG_BOOTMODE.z 0
  { s with sec := { s.sec with step := some k } }
def signedUp : State := (up.put Reg.SEC_STAT_LC.z 1).put Reg.SEC_ARG_ARG.z 5
/-- Member of a pair, JOINING, the link UP. -/
def inP : State :=
  let s := ((up.put Reg.DZ_STAT_PSTATE.z 2).put Reg.DZ_STAT_RXUP.z 1).put Reg.DZ_STAT_TXUP.z 1
  { s with pair := { s.pair with cfg := 0x80000000 } }
/-- The same as a standby with one SYNC sent. -/
def standbyIn : State :=
  let s := (inP.put Reg.DZ_STAT_ROLE.z 2).put Reg.TB_CTRL_DISC.z 3
  { s with pair := { s.pair with syncSent := [(3, 500)] } }
/-- The primary of a SYNCED pair, whose stream 9 has emitted. -/
def syncedP : State :=
  let s := (((inP.put Reg.DZ_STAT_ROLE.z 1).put Reg.DZ_STAT_PSTATE.z 3).flag (Reg.STR_SCFG_EN.e 9) true).setStream 9
    { Stream.reset with emitted := true }
  { s with pair := { s.pair with settled := true, alone := false } }
def settledStandby : State := { standbyIn with pair := { standbyIn.pair with settled := true } }
def shadowRec : ShadowRec := ⟨2 ^ 72 + 77, ⟨2, 1, 9, []⟩, none, false, 0, true⟩
/-- In Watch in a pair. -/
def wakeIn : State :=
  let s := (((awake.put Reg.PWR_STAT_MODE.z 3).put Reg.DZ_STAT_PSTATE.z 2).put Reg.DZ_STAT_RXUP.z 1).put Reg.DZ_STAT_TXUP.z 1
  { s with pair := { s.pair with cfg := 0x80000000 } }
/-- Unit 31 watches unit 6 of the partner. -/
def pairUnit : State :=
  (((inP.put Reg.PWR_STAT_MODE.z 4).flag (Reg.TRG_UCFG_EN.e 31) true).put (Reg.TRG_UCFG_SRC.e 31) 11).put (Reg.TRG_UELEM_ELEM.e 31) 6

theorem some_of {α : Type} {x : Option α} (h : x.isSome = true) : ∃ p, x = some p := Option.isSome_iff_exists.mp h
theorem some_spec {α β γ : Type} {x : Option (α × β × γ)} (h : x.isSome = true) : ∃ p a b, x = some (p, a, b) :=
  (some_of h).elim fun p e => ⟨p.1, p.2.1, p.2.2, e⟩

theorem witness_empty_queue_takes_one_cycle :
    (∃ (s : State), (s.pending = [])) ∧
    (∃ (s : State), (s.tb.running = false) ∧ (s.get Reg.CLK_STAT_STATE.z < 2) ∧ (s.runs = false) ∧ (s.adm.degrSince = none)) :=
  ⟨⟨up, by decide⟩,
   ⟨up, by decide⟩⟩

theorem witness_register_access_commands_complete :
    (∃ (s : State) (r : Requester) (v : Word), (s.alive = true) ∧ (s.booted = true)) ∧
    (∃ (s : State) (r : Requester), (s.alive = true)) ∧
    (∃ (s : State) (r : Requester), (s.alive = true) ∧ (s.booted = true)) ∧
    (∃ (s : State) (r : Requester) (o n v : Nat), (s.alive = true) ∧ (s.malformed true o n = true)) ∧
    (∃ (s : State) (r : Requester) (o n v : Nat), (s.alive = true) ∧ (s.malformed false o n = true)) ∧
    (∃ (s : State) (r : Requester) (o v : Nat), (s.alive = true) ∧ (s.malformed true o 8 = false)) ∧
    (∃ (s : State) (r : Requester) (o n v : Nat), (s.alive = true) ∧ (s.malformed false o n = false) ∧ (n < 8)) ∧
    (∃ (s : State) (b : Blk), (s.on b.lock = false)) :=
  ⟨⟨up, .bar0, 0x1234, by decide⟩,
   ⟨up, .debug, by decide⟩,
   ⟨up, .bar0, by decide⟩,
   ⟨up, .bar0, 0x200021, 4, 0, by decide⟩,
   ⟨up, .bar0, 0x200021, 4, 0, by decide⟩,
   ⟨up, .bar0, Reg.EVT_CFG_EN.off, 0, by decide⟩,
   ⟨up, .bar0, Blk.ident.hdr + 1, 1, 0, by decide⟩,
   ⟨up, .gallery 3, by decide⟩⟩

theorem witness_locked_block_refuses_its_lock :
    ∃ (s : State) (b : Blk), (s.on b.lock = true) :=
  ⟨up.flag Blk.pair.lock true, .pair, by decide⟩

theorem witness_event_and_vote_commands_complete :
    (∃ (s : State) (n : Nat), (isEvent n = true)) ∧
    (∃ (s : State) (n : Nat), (n < 512)) ∧
    (∃ (s : State) (n : Nat), (isEvent n = true) ∧ (n ≠ 9) ∧ (n ≠ 12)) ∧
    (∃ (s : State) (n : Nat) (v : Word), (n < 512)) ∧
    (∃ (s : State) (o lo a c d : Nat) (b : Blk) (f : Fld), (tvField o lo = some (b, f)) ∧ (o ∉ s.ctl.tvStopped) ∧ (a < 2 ^ f.w) ∧ (c < 2 ^ f.w) ∧ (d < 2 ^ f.w) ∧ ((a = c ∧ a ≠ d) ∨ (a = d ∧ a ≠ c) ∨ (c = d ∧ a ≠ c))) ∧
    (∃ (s : State) (o lo a c d : Nat) (b : Blk) (f : Fld), (tvField o lo = some (b, f)) ∧ (o ∉ s.ctl.tvStopped) ∧ (a < 2 ^ f.w) ∧ (c < 2 ^ f.w) ∧ (d < 2 ^ f.w) ∧ (a ≠ c) ∧ (a ≠ d) ∧ (c ≠ d)) ∧
    (∃ (s : State) (u lo a c d : Nat), (u < s.ranksU) ∧ (s.hbmSize ≠ 0) ∧ (2 ^ 26 + u ∉ s.ctl.tvStopped) ∧ (a < 2 ^ 41) ∧ (c < 2 ^ 41) ∧ (d < 2 ^ 41) ∧ (a ≠ c) ∧ (a ≠ d) ∧ (c ≠ d)) ∧
    (∃ (s : State) (o : Nat), (o < 2 ^ 26 ∨ s.msys.held = [])) :=
  ⟨⟨up, 511, by decide⟩,
   ⟨up.ev 3, 3, by decide⟩,
   ⟨up.ev 3, 3, by decide⟩,
   ⟨up, 0, 0x80000007, by decide⟩,
   ⟨up, Reg.ING_LMAP_LW.off, 28, 1, 1, 0, .ingress, Reg.ING_LMAP_LW, by decide⟩,
   ⟨up, Reg.ING_LMAP_LW.off, 28, 1, 2, 0, .ingress, Reg.ING_LMAP_LW, by decide⟩,
   ⟨sized, 5, 0, 1, 2, 3, by decide⟩,
   ⟨up, 0, by decide⟩⟩

theorem witness_datagram_commands_complete :
    (∃ (s : State) (addr port : Nat) (bs : List Byte) (d : Dgram) (x : Session) (ops : List OapOp) (m : List Byte), (s.answers = true) ∧ (parseDgram 1388 bs = some d) ∧ (d.type = 1) ∧ (parseOps 2048 d.body = some ops) ∧ (ops.length = d.count) ∧ (s.session d.sid = some x) ∧ (verified x d = true) ∧ (d.gen = s.obj 0x1005 0) ∧ (seqCase x.expected d.seq x.cache = .again m)) ∧
    (∃ (s : State) (addr port : Nat) (bs : List Byte) (d : Dgram) (x : Session) (ops : List OapOp), (s.answers = true) ∧ (parseDgram 1388 bs = some d) ∧ (d.type = 1) ∧ (parseOps 2048 d.body = some ops) ∧ (ops.length = d.count) ∧ (s.session d.sid = some x) ∧ (verified x d = true) ∧ (d.gen = s.obj 0x1005 0) ∧ (seqCase x.expected d.seq x.cache = .fresh)) ∧
    (∃ (s : State) (addr port : Nat) (bs : List Byte) (d : Dgram), (s.answers = true) ∧ (parseDgram 1388 bs = some d) ∧ (d.type = 5) ∧ (d.count = 0) ∧ (d.sid = 0) ∧ (d.body = []) ∧ (d.flags % 2 = 0) ∧ (s.obj 0x1104 0 = 0) ∧ (s.ctl.opens = []) ∧ (s.ctl.sessions.length < 8)) ∧
    (∃ (s : State) (addr port : Nat) (bs : List Byte) (d : Dgram) (x : Session), (s.answers = true) ∧ (parseDgram 1388 bs = some d) ∧ (d.type = 7) ∧ (d.count = 0) ∧ (d.body = []) ∧ (s.session d.sid = some x) ∧ (verified x d = true)) ∧
    (∃ (s : State) (addr port : Nat) (bs : List Byte) (d : Dgram) (x : Session), (s.answers = true) ∧ (parseDgram 1388 bs = some d) ∧ (d.type = 4) ∧ (d.seq = 0) ∧ (d.count = 0) ∧ (d.body = []) ∧ (s.session d.sid = some x) ∧ (verified x d = true)) :=
  ⟨⟨sess, 1, 2, reqBytes 6, (parseDgram 1388 (reqBytes 6)).getD noDgram, oldSession, [], [7], by decide⟩,
   ⟨sess, 1, 2, reqBytes 7, (parseDgram 1388 (reqBytes 7)).getD noDgram, oldSession, [], by decide⟩,
   ⟨up, 1, 2, opnBytes, (parseDgram 1388 opnBytes).getD noDgram, by decide⟩,
   ⟨sess, 1, 2, shortBytes 7, (parseDgram 1388 (shortBytes 7)).getD noDgram, oldSession, by decide⟩,
   ⟨sess, 1, 2, shortBytes 4, (parseDgram 1388 (shortBytes 4)).getD noDgram, oldSession, by decide⟩⟩

theorem witness_malformed_datagram_is_dropped :
    ∃ (s : State) (addr port : Nat) (bs : List Byte) (c : Instr), (s.answers = true) ∧ (parseDgram 1388 bs = none) ∧ (c = .oapRequest addr port bs ∨ c = .oapOpen addr port bs ∨ c = .oapClose addr port bs ∨ c = .notifyAck addr port bs) :=
  ⟨up, 1, 2, [], .oapOpen 1 2 [], by decide⟩

theorem witness_object_commands_complete :
    (∃ (s : State) (live : Bool), (s.answers = true)) ∧
    (∃ (s : State) (v : BitVec 16), (s.answers = true) ∧ (s.netMay ⟨false, false⟩ = true) ∧ (1024 ≤ v.toNat)) ∧
    (∃ (s : State) (live : Bool), (s.answers = true)) ∧
    (∃ (s : State), (s.answers = true)) ∧
    (∃ (s : State) (sid : Nat) (mask : List Byte) (x : Session), (s.answers = true) ∧ (sid ≠ 0) ∧ (s.session sid = some x)) :=
  ⟨⟨up, true, by decide⟩,
   ⟨up, 47000, by decide⟩,
   ⟨up, true, by decide⟩,
   ⟨up, by decide⟩,
   ⟨sess, 9, [255], oldSession, by decide⟩⟩

theorem witness_session_and_persistence_commands_complete :
    (∃ (s : State) (sid : Nat) (x : Session), (s.session sid = some x)) ∧
    (∃ (s : State) (sid : Nat) (x : Session), (s.session sid = some x) ∧ (x.held ≠ []) ∧ (x.window.length < 8)) ∧
    (∃ (s : State) (sid num : Nat) (x : Session) (w : Notice), (s.session sid = some x) ∧ (x.window.find? (fun w => decide (w.num = num)) = some w) ∧ (w.sends < 10)) ∧
    (∃ (s : State), (s.answers = true)) ∧
    (∃ (s : State), (s.answers = true)) ∧
    (∃ (s : State) (x : Option (Tbl Nat)), (s.ctl.persistOp = some x)) :=
  ⟨⟨sess, 9, oldSession, by decide⟩,
   ⟨noticed, 9, heldSession, by decide⟩,
   ⟨resent, 9, 4, windowSession, ⟨4, [], 0, 1⟩, by decide⟩,
   ⟨up, by decide⟩,
   ⟨up, by decide⟩,
   ⟨storing, none, by decide⟩⟩

theorem witness_mailbox_reset_and_debug_commands_complete :
    (∃ (s : State) (v : Word), (s.answers = true) ∧ (s.on Reg.MBX_STATUS_BUSY.z = false)) ∧
    (∃ (s : State) (m : List Byte), (s.ctl.mbxResponse = some m) ∧ (s.ctl.mbxDiscard = false) ∧ (m.length ≤ 4096)) ∧
    (∃ (s : State), (s.on Reg.MBX_STATUS_BUSY.z = false)) ∧
    (∃ (s : State), (s.on Reg.MBX_STATUS_BUSY.z = true)) ∧
    (∃ (s : State) (o : Nat) (v : Word), (s.alive = true) ∧ (s.get Reg.SEC_STAT_DBG.z = 0)) ∧
    (∃ (s : State) (r : Nat) (v : Word), (s.alive = true) ∧ (1 ≤ s.get Reg.SEC_STAT_DBG.z) ∧ (r = Blk.ident.hdr)) :=
  ⟨⟨up, 32, by decide⟩,
   ⟨answered, [1, 2], by decide⟩,
   ⟨up, by decide⟩,
   ⟨up.flag Reg.MBX_STATUS_BUSY.z true, by decide⟩,
   ⟨up, 0, 0, by decide⟩,
   ⟨up.put Reg.SEC_STAT_DBG.z 1, 0, 0, by decide⟩⟩

theorem witness_clear_meets_an_occurrence :
    (∃ (s : State) (n : Nat), (isEvent n = true)) ∧
    (∃ (s : State) (n : Nat), (isEvent n = true) ∧ ((n ≠ 9 ∧ n ≠ 12) ∨ s.ctl.sessions = [])) :=
  ⟨⟨up.ev 3, 3, by decide⟩,
   ⟨up.ev 9, 9, by decide⟩⟩

theorem witness_time_set_commands_complete :
    (∃ (s : State) (r : Requester) (v : Nat) (m : SetMode), (s.disc ≠ 3) ∧ (setModeOf (s.get Reg.TB_CTRL_SETMODE.z) = some m)) ∧
    (∃ (s : State) (edge v : Nat) (m : SetMode), (s.tb.armed = some (m, v)) ∧ (m ≠ .atPps ∨ s.tb.setDue.isSome = true)) :=
  ⟨⟨up, .bar0, 5, .atPps, by decide⟩,
   ⟨setting, 9, 5, .add, by decide⟩⟩

theorem witness_set_steps_the_tag :
    ∃ (s : State) (edge v p : Nat), (s.tb.armed = some (.add, v)) ∧ (s.tb.acc < 2 ^ 128) ∧ (p < 8) :=
  ⟨setting, 9, 5, 0, by decide⟩

theorem witness_pps_reference_and_rate_commands_complete :
    (∃ (s : State) (pol : Bool) (stamp raw : Nat), (s.on Reg.TB_CTRL_PPS_POL.z = pol) ∧ (ppsAccepts s.tb raw (ns48 (s.get Reg.TB_PPS_TOL.z)) = false)) ∧
    (∃ (s : State) (pol : Bool) (stamp raw : Nat), (s.on Reg.TB_CTRL_PPS_POL.z ≠ pol)) ∧
    (∃ (s : State) (pol : Bool) (stamp raw : Nat), (s.on Reg.TB_CTRL_PPS_POL.z = pol) ∧ (ppsAccepts s.tb raw (ns48 (s.get Reg.TB_PPS_TOL.z)) = true) ∧ (s.tb.armed = none) ∧ (s.disc = 0)) ∧
    (∃ (s : State), (s.tb.ppsLast.isSome = true) ∧ (1 ≤ s.tb.ppsMisses)) ∧
    (∃ (s : State), (s.tb.ppsLast.isSome = true) ∧ (s.tb.ppsMisses = 0)) ∧
    (∃ (s : State) (v : Word), (s.disc = 2)) ∧
    (∃ (s : State), (s.disc = 2) ∧ (s.tb.softFresh = true)) ∧
    (∃ (s : State) (count n : Nat) (bypass y : Int), (s.gateOver bypass = some (n, y))) ∧
    (∃ (s : State) (bypass : Int), (s.tb.ppsQualified = false)) ∧
    (∃ (s : State) (bypass : Int) (a l n : Nat), (s.tb.ppsQualified = true) ∧ (s.tb.gateAt = some a) ∧ (s.tb.ppsLast = some l) ∧ (l = a + n * 2 ^ 48)) ∧
    (∃ (s : State) (o : Nat), (s.tb.switchTo = some o) ∧ (o < 2)) ∧
    (∃ (s : State) (b : Bool), (s.get (bandLoc (b2n b)) = 3)) :=
  ⟨⟨ppsSeen, false, 5, 5, by decide⟩,
   ⟨up, true, 5, 5, by decide⟩,
   ⟨up, false, 5, 5, by decide⟩,
   ⟨missed, by decide⟩,
   ⟨ppsSeen, by decide⟩,
   ⟨soft, 0x80000000, by decide⟩,
   ⟨soft, by decide⟩,
   ⟨up, 5, 2 ^ up.get Reg.REF_CFG_GATE.z, 7, 7, by decide⟩,
   ⟨up, 7, by decide⟩,
   ⟨gating, 7, 0, 2 ^ 48, 1, by decide⟩,
   ⟨switching, 1, by decide⟩,
   ⟨up.put (bandLoc 1) 3, true, by decide⟩⟩

set_option maxRecDepth 1000000 in
theorem witness_ptp_commands_complete :
    (∃ (s : State) (p stamp : Nat) (f : List Byte) (d : List HostDesc) (m : Nat × Nat × Nat), (ptpAt f = some m) ∧ (s.on (Reg.STR_PSTAT_LINK.e p) = true) ∧ (ptpType f m.2.2 ≤ 3) ∧ (s.ptpAccepted p f = true)) ∧
    (∃ (s : State) (p r stamp : Nat) (f : List Byte) (d : HostDesc) (rest : List HostDesc), (s.rxRing p = some r) ∧ (s.ringEmpty r = false) ∧ (bufferOk d = true) ∧ (32 + f.length ≤ d.len)) ∧
    (∃ (s : State) (p stamp : Nat) (f : List Byte) (m : Nat × Nat × Nat), (ptpAt f = some m) ∧ (s.on (Reg.PTP_CFG_TX_EN.e p) = true) ∧ (s.ptpEnabled p m.1 = true) ∧ (ptpType f m.2.2 ≤ 3) ∧ (s.oneStep p f = false) ∧ (s.ptpFifo p = [])) :=
  ⟨⟨ptpUp, 0, 7, ptpFrame, [], (0, 14, 14), by decide⟩,
   ⟨posted 1, 7, 255, 7, ptpFrame, ⟨64, 4096, 0⟩, [], by decide +kernel⟩,
   ⟨ptpUp, 0, 7, ptpFrame, (0, 14, 14), by decide⟩⟩

set_option maxRecDepth 1000000 in
theorem witness_lane_commands_complete :
    (∃ (s : State) (lane : Nat), (lane < 128) ∧ (s.get (laneState lane) = 1)) ∧
    (∃ (s : State) (lane : Nat), (lane < 128) ∧ (2 ≤ s.get (laneState lane))) ∧
    (∃ (s : State) (lane : Nat), (lane < 128) ∧ (s.get (laneState lane) = 3 ∨ s.get (laneState lane) = 4)) ∧
    (∃ (s : State) (lane : Nat), (lane < 128) ∧ (s.get (laneState lane) = 2)) ∧
    (∃ (s : State) (lane : Nat), (lane < 128) ∧ (s.get (laneState lane) = 2 ∨ s.get (laneState lane) = 3)) ∧
    (∃ (s : State) (lane pos p : Nat) (line : Line) (b : RxBlock), (lane < 128) ∧ (s.get (laneState lane) = 3) ∧ (s.laneJesd lane = false) ∧ ((s.lineRx lane line).head? = some b) ∧ (b.kind = .lmb) ∧ (p ∈ (s.lane lane).lmbs) ∧ (p < pos) ∧ ((pos - p) % 257 = 0) ∧ ((pos - p) / 257 ≤ 8193)) ∧
    (∃ (s : State) (lane pos : Nat) (line : Line) (b : RxBlock), (lane < 128) ∧ (s.get (laneState lane) = 3) ∧ (s.laneJesd lane = false) ∧ ((s.lineRx lane line).head? = some b) ∧ (b.kind = .lmb) ∧ ((s.lane lane).lmbs.all (fun p => !sameAlignment p pos) = true)) ∧
    (∃ (s : State) (lane : Nat), (lane < 128) ∧ (s.get (laneState lane) = 4) ∧ (s.laneJesd lane = false)) ∧
    (∃ (s : State) (lane : Nat), (lane < 128) ∧ (s.get (laneState lane) = 3) ∧ (s.laneJesd lane = true)) ∧
    (∃ (s : State) (lane : Nat), (lane < 128) ∧ (s.get (laneState lane) = 4) ∧ (s.laneJesd lane = true)) :=
  ⟨⟨up.put (laneState 3) 1, 3, by decide⟩,
   ⟨up.put (laneState 127) 4, 127, by decide⟩,
   ⟨up.put (laneState 3) 4, 3, by decide⟩,
   ⟨up.put (laneState 3) 2, 3, by decide⟩,
   ⟨up.put (laneState 3) 3, 3, by decide⟩,
   ⟨marked, 3, 357, 100, lmbLine, blockOf lmbLine, by decide +kernel⟩,
   ⟨marked, 3, 358, lmbLine, blockOf lmbLine, by decide +kernel⟩,
   ⟨up.put (laneState 3) 4, 3, by decide⟩,
   ⟨(up.flag (Reg.ING_GCFG_JESD.e 0) true).put (laneState 3) 3, 3, by decide⟩,
   ⟨(up.flag (Reg.ING_GCFG_JESD.e 0) true).put (laneState 3) 4, 3, by decide⟩⟩

theorem witness_lane_commands_keep_the_time_base_and_memory :
    ∃ (s : State) (lane k pos : Nat) (line : Line) (b : Bool) (c : Instr), (c = .laneSignalDetect lane ∨ c = .lossOfSignal lane ∨ c = .cdrLockLoss lane ∨ c = .adaptationDone lane ∨ c = .adaptTimeout lane ∨ c = .lmbRx lane line pos ∨ c = .blockLockLoss lane ∨ c = .jesdLinkLock lane b) ∧ (k < 128) ∧ (k ≠ lane) :=
  ⟨up, 3, 4, 357, lmbLine, true, .lmbRx 3 lmbLine 357, by decide⟩

set_option maxRecDepth 1000000 in
theorem witness_frame_commands_complete :
    (∃ (s : State) (lane stamp : Nat) (line : Line) (bs : List RxBlock), (lane < 128) ∧ (s.laneJesd lane = false) ∧ (s.get (Reg.ING_LCFG_CHK.e lane) = 0) ∧ (frameFrom (s.lane lane).hunting (s.lineRx lane line) = bs) ∧ (bs ≠ [])) ∧
    (∃ (s : State) (lane stamp : Nat) (line : Line), (lane < 128) ∧ (s.laneJesd lane = false) ∧ (s.get (Reg.ING_LCFG_CHK.e lane) ≠ 0)) ∧
    (∃ (s : State) (lane : Nat) (line : Line) (b : RxBlock) (l : List RxBlock), (s.lineRx lane line = b :: l) ∧ (b.kind ≠ .data ∨ b.magic = true)) ∧
    (∃ (s : State) (lane n : Nat) (line : Line) (b : RxBlock) (l : List RxBlock), (lane < 128) ∧ (n < 128) ∧ (s.laneJesd lane = false) ∧ (s.takesLane n lane = true) ∧ ((s.lineRx lane line).takeWhile RxBlock.isData = b :: l) ∧ ((b :: l).any RxBlock.magic = false) ∧ ((s.inp n).gap = none)) ∧
    (∃ (s : State) (n : Nat) (g : Gap), ((s.inp n).gap = some g) ∧ (s.on (Reg.ING_LMAP_EN.e n) = true)) ∧
    (∃ (s : State) (n counter : Nat) (i q : Int), (s.inputOn n = true) ∧ (s.get (Reg.ING_ICFG_GEN.e n) = 0) ∧ ((s.inp n).locked = true)) ∧
    (∃ (s : State) (n k : Nat) (words : List Nat) (stamp : Nat), (s.takesBlocks n = true) ∧ ((s.inp n).rateFault = false) ∧ (heldBytes (s.inp n) + 2 * words.length ≤ 16384) ∧ (((s.inp n).series = true → (s.inp n).replace = false ∧ (s.inp n).newRate = false))) :=
  ⟨⟨up.setLane 3 { up.lane 3 with hunting := false }, 3, 9, dataLine, [blockOf dataLine], by decide +kernel⟩,
   ⟨up.put (Reg.ING_LCFG_CHK.e 3) 1, 3, 9, dataLine, by decide⟩,
   ⟨up, 3, lmbLine, blockOf lmbLine, [], by decide +kernel⟩,
   ⟨fed, 0, 0, dataLine, blockOf dataLine, [], by decide +kernel⟩,
   ⟨gapped, 5, ⟨1, 0, 1, 2, 0, 0⟩, by decide⟩,
   ⟨lockedIn, 0, 9, 1, 2, by decide⟩,
   ⟨jesdUp, 0, 1, [], 9, by decide⟩⟩

theorem witness_locked_frame_from_a_rate_fault_is_discarded :
    ∃ (s : State) (lane n f k : Nat) (bs : List Byte) (whole : Bool), ((s.inp n).rateFault = true) :=
  ⟨rateFaulted, 0, 0, 0, 0, [], true, by decide⟩

theorem witness_ingress_and_coarse_swaps_complete :
    (∃ (s : State) (lane : Nat), (s.maySwap .ingress = true) ∧ (s.ing.lanesLeft.contains lane = true)) ∧
    (∃ (s : State) (lane : Nat), (lane < 128) ∧ (s.maySwap .ingress = true) ∧ (s.ing.lanesLeft.contains lane = true)) ∧
    (∃ (s : State) (n port : Nat), (s.maySwap .coarse = true) ∧ (s.front.gridsLeft.contains (3 * n + port) = true) ∧ ((s.inp n).models ≠ []) ∧ (s.on (Reg.ING_LMAP_EN.e n) = true)) ∧
    (∃ (s : State) (n port : Nat), (s.maySwap .coarse = true) ∧ (s.front.gridsLeft.contains (3 * n + port) = true) ∧ ((s.inp n).models = [] ∨ s.on (Reg.ING_LMAP_EN.e n) = false)) ∧
    (∃ (s : State) (n : Nat), (s.maySwap .fine = true) ∧ (s.fine.left.contains n = true)) :=
  ⟨⟨swapping .ingress, 3, by decide⟩,
   ⟨swapping .ingress, 3, by decide⟩,
   ⟨seriesSwapping, 3, 0, by decide⟩,
   ⟨swapping .coarse, 3, 0, by decide⟩,
   ⟨swapping .fine, 3, by decide⟩⟩

set_option maxRecDepth 1000000 in
theorem witness_spectrum_commands_complete :
    (∃ (s : State) (n m sat csat : Nat) (p : Spectrum), (s.coarseSpec n 0 m = some (p, sat, csat))) ∧
    (∃ (s : State) (n m sat csat : Nat) (p : Spectrum), (s.coarseSpec n 1 m = some (p, sat, csat))) ∧
    (∃ (s : State) (n m : Nat) (p : Spectrum), (s.sketchSpec n m false = some p)) ∧
    (∃ (s : State) (n m : Nat) (p : Spectrum), (s.sketchSpec n m true = some p)) ∧
    (∃ (s : State) (n m : Nat), (s.produced 0 n m = false)) ∧
    (∃ (s : State) (n mf : Nat), ((s.fin n).chains.any (FineChain.isDue · mf) = true)) ∧
    (∃ (s : State) (n mf k g : Nat) (c : FineChain), (s.dueSpan n mf = some (c, g)) ∧ (c.bins.contains k = true) ∧ (c.done.contains k = false)) :=
  ⟨(some_spec (by decide +kernel : (windowed.coarseSpec 0 0 0).isSome = true)).elim fun p ⟨a, b, h⟩ => ⟨windowed, 0, 0, a, b, p, h⟩,
   (some_spec (by decide +kernel : (windowed.coarseSpec 0 1 0).isSome = true)).elim fun p ⟨a, b, h⟩ => ⟨windowed, 0, 0, a, b, p, h⟩,
   (some_of (by decide +kernel : (windowed.sketchSpec 0 0 false).isSome = true)).elim fun p h => ⟨windowed, 0, 0, p, h⟩,
   (some_of (by decide +kernel : (windowed.sketchSpec 0 0 true).isSome = true)).elim fun p h => ⟨windowed, 0, 0, p, h⟩,
   ⟨up, 0, 0, by decide⟩,
   ⟨fineDue, 0, 16, by decide⟩,
   ⟨fineDue, 0, 0, 3, 0, fineChain, by decide⟩⟩

theorem witness_detector_commands_complete :
    (∃ (s : State) (v x : Nat) (c : Interval), ((s.viewsOf (s.viewField v Reg.DVW_CTRL_PLANE) x).contains v = true) ∧ ((s.vin v x).running = true) ∧ ((s.vin v x).cur = some c)) ∧
    (∃ (s : State) (v x : Nat) (c : Interval) (l : List Interval), ((s.vin v x).closed = c :: l) ∧ (c.field Reg.DVW_CTRL_PLANE = 0)) ∧
    (∃ (s : State) (v x : Nat) (c : Interval) (l : List Interval), ((s.vin v x).closed = c :: l) ∧ (c.field Reg.DVW_CTRL_PLANE ≠ 0) ∧ (s.inTurn v x c = true)) ∧
    (∃ (s : State) (v x : Nat) (c : Interval) (l : List Interval), ((s.vin v x).held = c :: l) ∧ (s.inTurn v x c = true)) ∧
    (∃ (s : State) (v x : Nat), (x ∈ s.viewInputs v)) ∧
    (∃ (s : State) (v x : Nat), (x ∈ s.viewInputs v)) ∧
    (∃ (s : State) (v : Nat), (s.maySwap .detect = true) ∧ (s.det.left.contains v = true) ∧ ((s.viewInputs v).all (s.atBoundary v) = true ∨ (s.stagedView .detect).on (Reg.DVW_CTRL_CUT.e v) = true)) ∧
    (∃ (s : State) (v : Nat), (s.get (viewState v) = 3) ∧ (s.viewEmpty v = true) ∧ (s.det.restart.contains v = false)) ∧
    (∃ (s : State) (v x e k : Nat), (tget (fun _ => none) s.det.ordered v = some k) ∧ ((∀ c, (s.vin v x).cur = some c → c.specs = [] ∧ c.e0 = e)) ∧ ((s.vin v x).step ≠ k) ∧ (e % (max 1 (s.viewField v Reg.DVW_INT_N) * 2 ^ k) = 0)) :=
  ⟨⟨viewing, 2, 5, interval, by decide +kernel⟩,
   ⟨viewing, 2, 5, interval, [], by decide⟩,
   ⟨viewingCells, 2, 6, otherPlane, [], by decide⟩,
   ⟨viewing, 2, 5, interval, [], by decide⟩,
   ⟨viewOf5, 2, 5, by decide⟩,
   ⟨viewOf5, 2, 5, by decide⟩,
   ⟨detSwapping, 2, by decide⟩,
   ⟨up.put (viewState 1023) 3, 1023, by decide⟩,
   ⟨stepping, 2, 5, 0, 3, by decide⟩⟩

set_option maxRecDepth 1000000 in
theorem witness_tuner_commands_complete :
    (∃ (s : State) (k : Nat) (ch : Chain), ((s.tuner k).old = none) ∧ ((s.tuner k).chain = some ch) ∧ (s.tunReady ch ch.next = true)) ∧
    (∃ (s : State) (k : Nat) (o : Chain), ((s.tuner k).old = some o) ∧ (o.finished = false) ∧ (s.tunReady o o.next = true)) ∧
    (∃ (s : State) (k : Nat) (o : Chain), ((s.tuner k).old = some o) ∧ ((s.tuner k).chain = none) ∧ (o.finished = true)) ∧
    (∃ (s : State) (k i : Nat), ((s.tuner k).iS = some i) ∧ (s.adm.named.contains .tuners = true) ∧ (2 ≤ s.get Reg.ADM_STAT_STATE.z)) ∧
    (∃ (s : State) (k : Nat) (ch : Chain) (g : Glaze), (k < 256) ∧ ((s.tuner k).chain = some ch) ∧ (ch.glaze = some g) ∧ (0 < g.g) ∧ (g.first + g.g ≤ ch.next)) ∧
    (∃ (s : State) (k : Nat), (k < 256) ∧ (s.get (tunState k) = 4) ∧ ((s.tuner k).again = none)) ∧
    (∃ (s : State) (k i : Nat), (s.get (tunState k) = 4) ∧ ((s.tuner k).again = some i)) ∧
    (∃ (s : State) (k n : Nat), ((s.tuner k).ordered = some n)) :=
  ⟨⟨tuning, 4, chain, by decide⟩,
   ⟨tunOld chain, 4, chain, by decide +kernel⟩,
   ⟨tunOld endedChain, 4, endedChain, by decide +kernel⟩,
   ⟨tunSwapping, 4, 77, by decide⟩,
   ⟨glazing, 4, glazeChain, ⟨chain.set, 1, 8⟩, by decide⟩,
   ⟨up.put (tunState 255) 4, 255, by decide⟩,
   ⟨(up.put (tunState 255) 4).setTuner 255 { Tuner.reset with again := some 9 }, 255, 9, by decide⟩,
   ⟨tunOrdered, 4, 3, by decide⟩⟩

set_option maxRecDepth 1000000 in
theorem witness_trigger_qualification_commands_complete :
    (∃ (s : State) (u x e : Nat) (p : TrigPulse) (l : List TrigPulse), (u < 32) ∧ (s.on (Reg.TRG_UCFG_EN.e u) = true) ∧ (s.runs = true) ∧ (6 < s.get (Reg.TRG_UCFG_SRC.e u)) ∧ ((s.unit u).queue = p :: l)) ∧
    (∃ (s : State) (u x e : Nat) (p : Product) (l : List Product), (u < 32) ∧ (s.on (Reg.TRG_UCFG_EN.e u) = true) ∧ (s.runs = true) ∧ (s.get (Reg.TRG_UCFG_SRC.e u) ≤ 6) ∧ (s.unitProducts u x e = p :: l) ∧ ((tget (fun _ => TrigElem.reset) (s.unit u).elems x).last = none)) ∧
    (∃ (s : State) (u : Nat) (d : TrigDone), (u < 32) ∧ (s.runs = true) ∧ ((s.unit u).comp = some d)) ∧
    (∃ (s : State) (u d : Nat), (s.get (unitState u) = 4) ∧ ((s.unit u).dec = some d) ∧ (serialBefore 96 s.now (tagAdd d (s.hoff u : Nat)) = false)) ∧
    (∃ (s : State) (p stamp : Nat) (level : Bool), (p < 8) ∧ (s.on (Reg.TIN_CFG_EN.e p) = true) ∧ (s.runs = true) ∧ (s.on (Reg.TIN_STAT_LEVEL.e p) ≠ level)) ∧
    (∃ (s : State) (p stamp : Nat) (level : Bool), (p < 8) ∧ (s.on (Reg.TIN_CFG_EN.e p) = true) ∧ (s.runs = true)) :=
  ⟨⟨pulsed, 31, 0, 0, ⟨1, 5, 0, []⟩, [], by decide⟩,
   ⟨trigFast, 31, 0, 200, ⟨200, trigFast.productTag 0 200 0, trigFast.spanTq 0 200 200 (trigFast.productTag 0 200 0), 1, false, [], some ⟨false, 0⟩, TrigPlace.plain 200 200 0⟩, [], by decide, by decide, by decide, by decide, rfl, by decide +kernel⟩,
   ⟨completed, 31, s31, by decide⟩,
   ⟨heldOff, 31, 0, by decide⟩,
   ⟨full.flag (Reg.TIN_CFG_EN.e 7) true, 7, 9, true, by decide⟩,
   ⟨full.flag (Reg.TIN_CFG_EN.e 7) true, 7, 9, true, by decide⟩⟩

theorem witness_trigger_control_commands_complete :
    (∃ (s : State) (u : Nat), (u < 32) ∧ (s.runs = true) ∧ (s.masterOf u = none)) ∧
    (∃ (s : State) (g : Nat), (g < 8) ∧ (s.runs = true) ∧ ((s.groupBank g).on (Reg.TRG_GCFG_EN.e g) = true)) ∧
    (∃ (s : State) (u : Nat), (u < 32) ∧ (s.runs = true)) ∧
    (∃ (s : State) (u : Nat), (u < 32) ∧ (s.runs = true) ∧ (s.on (Reg.TRG_UCFG_EN.e u) = true)) ∧
    (∃ (s : State) (u : Nat), (u < 32) ∧ (s.runs = true) ∧ (s.on (Reg.TRG_UCFG_EN.e u) = true) ∧ (s.now < s.get96 Reg.TRG_FTAG_L_TAG.z Reg.TRG_FTAG_M_TAG.z Reg.TRG_FTAG_H_TAG.z)) ∧
    (∃ (s : State) (u tag : Nat), (u < 32) ∧ ((s.unit u).force = some tag) ∧ (tag ≤ s.now) ∧ (s.runs = true) ∧ (s.on (Reg.TRG_UCFG_EN.e u) = false)) ∧
    (∃ (s : State) (u tag : Nat), (u < 32) ∧ ((s.unit u).force = some tag) ∧ (tag ≤ s.now) ∧ (s.runs = true) ∧ (s.on (Reg.TRG_UCFG_EN.e u) = true)) ∧
    (∃ (s : State) (g tag k : Nat), ((s.group g).pend = some (tag, k)) ∧ (tag ≤ s.now) ∧ (s.runs = true)) :=
  ⟨⟨full, 31, by decide⟩,
   ⟨full.flag (Reg.TRG_GCFG_EN.e 7) true, 7, by decide⟩,
   ⟨full, 31, by decide⟩,
   ⟨full.flag (Reg.TRG_UCFG_EN.e 31) true, 31, by decide⟩,
   ⟨(full.flag (Reg.TRG_UCFG_EN.e 31) true).put Reg.TRG_FTAG_L_TAG.z 9, 31, by decide⟩,
   ⟨forced false, 31, 0, by decide⟩,
   ⟨forced true, 31, 0, by decide⟩,
   ⟨armPending, 7, 0, 5, by decide⟩⟩

theorem witness_arm_of_an_enabled_unit :
    (∃ (s : State) (u : Nat), (u < 32) ∧ (s.on (Reg.TRG_UCFG_EN.e u) = true) ∧ (s.get (unitState u) = 0) ∧ ((s.unit u).offAt ≠ some s.tb.acc)) ∧
    (∃ (s : State) (u : Nat), (u < 32) ∧ (s.on (Reg.TRG_UCFG_EN.e u) = true) ∧ (s.get (unitState u) = 3 ∨ s.get (unitState u) = 4 ∨ (s.get (unitState u) ≠ 0 ∧ (s.unit u).comp.isSome = true))) ∧
    (∃ (s : State) (u : Nat), (s.get (unitState u) = 0) ∧ ((s.unit u).offAt = some s.tb.acc)) :=
  ⟨⟨full.flag (Reg.TRG_UCFG_EN.e 31) true, 31, by decide⟩,
   ⟨(full.flag (Reg.TRG_UCFG_EN.e 31) true).put (unitState 31) 4, 31, by decide⟩,
   ⟨unit31 { TrigUnit.reset with offAt := some full.tb.acc }, 31, by decide⟩⟩

theorem witness_trigger_output_commands_complete :
    (∃ (s : State) (p : Nat) (c : Nat × Nat) (l : List (Nat × Nat)), ((s.pin p).sched.filter (fun c => !serialBefore 96 s.now c.1) = c :: l)) ∧
    (∃ (s : State) (p e : Nat), ((s.pin p).ends = some e) ∧ (serialBefore 96 s.now e = false) ∧ (s.maySwap .triggers = false) ∧ ((s.pin p).old = none) ∧ (bits (s.pinCfg p) 28 2 ≠ 2)) ∧
    (∃ (s : State) (u : Nat) (r : TrigRecord), (s.trg.held.find? (fun r => r.unit == u) = some r)) ∧
    (∃ (s : State) (st : Nat) (r : TrigRecord), (s.trg.queue.find? (fun r => r.streams.contains st) = some r) ∧ (r.streams = [st])) ∧
    (∃ (s : State) (u : Nat), (u < 32) ∧ (s.maySwap .triggers = true) ∧ (s.trg.left.contains u = true) ∧ (s.get (unitState u) < 3) ∧ ((s.unit u).comp = none)) :=
  ⟨⟨pinned, 7, (0, 4), [], by decide⟩,
   ⟨pinned, 7, 0, by decide⟩,
   ⟨recorded, 31, ⟨31, [4], [], 0, []⟩, by decide⟩,
   ⟨recorded, 4, ⟨31, [4], [], 0, []⟩, by decide⟩,
   ⟨trgSwapping, 31, by decide⟩⟩

theorem witness_capture_commands_complete :
    (∃ (s : State) (slot : Nat), (slot < 32) ∧ (s.on (Reg.CAP_SCFG_EN.e slot) = true) ∧ ((∀ r, r < 4 → s.word (Reg.CAP_SMASK_SEL.e2 slot r).off = 0)) ∧ (s.on Reg.REC_CTRL_EN.z = true) ∧ (s.get recState = 2) ∧ (s.on Reg.REC_CTRL_WATCHEN.z = false) ∧ (s.pair.shadow = false) ∧ (s.maySwap .recorder = false) ∧ (s.rcd.captures = [])) ∧
    (∃ (s : State) (num : Nat) (c : Capture), (s.capOf num = some c) ∧ (c.state = 1) ∧ (c.mapped = true) ∧ (c.wins.all (s.winWritten c) = true) ∧ (c.field Reg.CAP_SCFG_READ = 0)) ∧
    (∃ (s : State) (num : Nat) (c : Capture), (s.capOf num = some c) ∧ (c.state = 2)) ∧
    (∃ (s : State) (num : Nat) (c : Capture), (s.capOf num = some c) ∧ (c.state = 2)) ∧
    (∃ (s : State) (num : Nat) (c : Capture), (s.capOf num = some c) ∧ (c.state ≠ 2)) ∧
    (∃ (s : State) (num : Nat) (c : Capture), (s.capOf num = some c) ∧ (c.state = 3) ∧ (c.field Reg.CAP_SCFG_STATS = 1) ∧ (c.stats = false) ∧ (s.get Reg.PWR_STAT_MODE.z = 4) ∧ (s.capWritten c = true)) ∧
    (∃ (s : State) (num : Nat) (c : Capture), (s.capOf num = some c) ∧ (c.state = 3) ∧ (c.stats = true ∨ c.field Reg.CAP_SCFG_STATS = 0) ∧ (s.get Reg.PWR_STAT_MODE.z = 4) ∧ (s.capWritten c = true)) :=
  ⟨⟨capReady, 31, by decide⟩,
   ⟨capturing 1, 5, capture 1, by decide⟩,
   ⟨capturing 2, 5, capture 2, by decide⟩,
   ⟨capturing 2, 5, capture 2, by decide⟩,
   ⟨capturing 3, 5, capture 3, by decide⟩,
   ⟨statCapturing, 5, statCapture, by decide⟩,
   ⟨readCapturing, 5, readCapture, by decide⟩⟩

theorem witness_refused_capture_is_counted_and_declared :
    ∃ (s : State) (slot : Nat), (slot < 32) ∧ (s.on (Reg.CAP_SCFG_EN.e slot) = false) :=
  ⟨full, 31, by decide⟩

set_option maxRecDepth 1000000 in
theorem witness_recorder_commands_complete :
    (∃ (s : State), (s.on Reg.REC_CTRL_EN.z = true) ∧ (s.get recState = 2 ∨ s.get recState = 0) ∧ (s.runs = true)) ∧
    (∃ (s : State), (s.get recState = 3)) ∧
    (∃ (s : State) (u p : Nat), (u < 768) ∧ (p < 768) ∧ (s.msys.mig = some (u, p, none)) ∧ (s.get Reg.MEM_STAT_MIG.z = 3) ∧ (s.on Reg.REC_CTRL_EN.z = false)) ∧
    (∃ (s r : State) (u p slots : Nat), (s.msys.mig = some (u, p, none)) ∧ (s.get Reg.MEM_STAT_MIG.z = 3) ∧ (s.on Reg.REC_CTRL_EN.z = true) ∧ (s.get Reg.MEM_STAT_FOLDS.z < 4) ∧ (slots = ceilDiv s.grainsD (65536 / s.grain)) ∧ (r = s.recShrink (slots + ceilDiv slots (max 1 (s.ranksU - 1)) + 1)) ∧ (s.grainsD ≤ r.givenGrains (fun n => (s.recIn n).given) u)) ∧
    (∃ (s : State), (s.maySwap .recorder = true)) ∧
    (∃ (s : State), (s.streamsRun = true)) :=
  ⟨⟨capReady, by decide⟩,
   ⟨full.put recState 3, by decide⟩,
   ⟨folding, 2, 767, by decide⟩,
   ⟨shrinking, shrunk, 2, 767, 5722, by decide, by decide, by decide, by decide, by decide +kernel, rfl, by decide +kernel⟩,
   ⟨swapping .recorder, by decide⟩,
   ⟨full, by decide⟩⟩

set_option maxRecDepth 1000000 in
theorem witness_cross_spectral_commands_complete :
    (∃ (s : State) (n m : Nat), (s.xspOn = true) ∧ ((xRanks s.xspView).contains n = true) ∧ (∃ (g : Grid) (i : Nat), (s.windowsOf n 1 m).find? (fun w => !s.seamHere n w.2 (w.1.hop n 1) && !s.xspAbsent n w.2 (w.1.hop n 1)) = some (g, i))) ∧
    (∃ (s : State) (n m : Nat), (s.xspOn = true) ∧ (m % 2 ^ 20 = 0) ∧ (xRanks s.xspView = [n])) ∧
    (∃ (s : State) (m n k f : Nat), (s.xspOn = true) ∧ (m % 2 ^ 20 = 0) ∧ (s.xsp.next = some f) ∧ (xRanks s.xspView = [n, k]) ∧ ((s.inp n).models ≠ []) ∧ ((s.inp k).models ≠ []) ∧ ((s.get Reg.XSP_SKEW_TOL.z : Int) * 2 ^ 80 < (s.tpin n (m * s.xsp.hop % idxMod) - s.tpin k (m * s.xsp.hop % idxMod)) * 1000000000)) ∧
    (∃ (s : State) (m full i h l : Nat), (s.xsp.swapAt = none) ∧ (s.xspOn = true) ∧ (s.get Reg.XSP_STAT_STATE.z ≠ 3) ∧ (s.seamWindow m = some (i, h, l)) ∧ (s.xsp.next.isSome = true ∨ s.xspFirst s.xspView m i = true) ∧ (xRanks s.xspView ≠ []) ∧ ((xRanks s.xspView).all (fun n => s.seamHere n i h || s.xspAbsent n i h) = true)) ∧
    (∃ (s : State) (c : XInt) (l : List XInt), (s.xsp.ended = c :: l)) ∧
    (∃ (s : State) (c : XInt) (l : List XInt), (s.xsp.dumps = c :: l) ∧ ((xTiles c.view).length ≤ c.slot + 1)) ∧
    (∃ (s : State) (k m : Nat) (y : XVolt), (s.voltGroup k m = some y) ∧ (s.voltDone y m = true)) ∧
    (∃ (s : State) (v : Word), (s.on Blk.cross.frozen = false) ∧ (s.weightOk (s.get (Reg.XSP_WPTR_PTR.z.staged .cross)) = true)) ∧
    (∃ (s : State), (s.maySwap .cross = true) ∧ (s.xspAtSwap = true)) ∧
    (∃ (s : State), (s.xsp.draining = true) ∧ (s.xsp.ended = []) ∧ (s.xsp.dumps = [])) :=
  ⟨(some_of (by decide +kernel : ((crossOn.windowsOf 3 1 8).find?
      (fun w => !crossOn.seamHere 3 w.2 (w.1.hop 3 1) && !crossOn.xspAbsent 3 w.2 (w.1.hop 3 1))).isSome = true)).elim
      fun p h => ⟨crossOn, 3, 8, by decide, by decide, p.1, p.2, h⟩,
   ⟨crossOn, 3, 1048576, by decide⟩,
   ⟨skewed, 1048576, 0, 1, 8, by decide +kernel⟩,
   ⟨seamReady, 8, 0, 8, 1, 8, by decide +kernel⟩,
   ⟨dumping, xint, [], by decide⟩,
   ⟨dumping, xint, [], by decide⟩,
   ⟨volting, 16, 8, ⟨8, 0, 0, true, [], [[(1, 2)]], volting.regs, 0, 1, 8, 0, []⟩, by decide +kernel⟩,
   ⟨weighing, 7, by decide⟩,
   ⟨xswapping, by decide⟩,
   ⟨xdrained, by decide⟩⟩

theorem witness_alu_results :
    (∃ (s : State) (t : Nat) (x : RegSet) (y : AluSyl), (s.readyAt t = true) ∧ (y.stop = true) ∧ ((s.tile t).cur = x) ∧ (xor (x.pred y.qp.toNat) (y.qn == 1) = true)) ∧
    (∃ (s : State) (t : Nat) (x : RegSet) (y : AluSyl), (s.readyAt t = true) ∧ (y.stop = true) ∧ ((s.tile t).cur = x) ∧ (xor (x.pred y.qp.toNat) (y.qn == 1) = true) ∧ (y.db = 0)) ∧
    (∃ (s : State) (t : Nat) (x : RegSet) (y : AluSyl), (s.readyAt t = true) ∧ (y.stop = true) ∧ ((s.tile t).cur = x) ∧ (xor (x.pred y.qp.toNat) (y.qn == 1) = false)) ∧
    (∃ (s : State) (t : Nat) (x : RegSet) (y : AluSyl), (s.readyAt t = true) ∧ (y.stop = true) ∧ ((s.tile t).cur = x) ∧ (xor (x.pred y.qp.toNat) (y.qn == 1) = true)) ∧
    (∃ (s : State) (t : Nat) (x : RegSet) (y : AluSyl) (a : Word), (s.readyAt t = true) ∧ (y.stop = true) ∧ ((s.tile t).cur = x) ∧ (xor (x.pred y.qp.toNat) (y.qn == 1) = true) ∧ (y.db = 0) ∧ (x.dReg y.da.toNat = a)) :=
  ⟨⟨tiled, 3, (tiled.tile 3).cur, AluSyl.mk true 0 0 5 6 7, by decide⟩,
   ⟨tiled, 3, (tiled.tile 3).cur, AluSyl.mk true 0 0 5 6 0, by decide⟩,
   ⟨tiled, 3, (tiled.tile 3).cur, AluSyl.mk true 0 1 5 6 7, by decide⟩,
   ⟨tiled, 3, (tiled.tile 3).cur, AluSyl.mk true 0 0 5 6 7, by decide⟩,
   ⟨tiled, 3, (tiled.tile 3).cur, AluSyl.mk true 0 0 5 6 0, 0, by decide⟩⟩

theorem witness_predicate_immediate_and_move_results :
    (∃ (s : State) (t : Nat) (x : RegSet) (y : AluSyl), (s.readyAt t = true) ∧ (y.stop = true) ∧ ((s.tile t).cur = x) ∧ (xor (x.pred y.qp.toNat) (y.qn == 1) = true) ∧ (y.dd.toNat < 8)) ∧
    (∃ (s : State) (t : Nat) (x : RegSet) (y : AluSyl), (s.readyAt t = true) ∧ (y.stop = true) ∧ ((s.tile t).cur = x) ∧ (xor (x.pred y.qp.toNat) (y.qn == 1) = true) ∧ (y.dd.toNat < 8) ∧ (y.da.toNat < 8) ∧ (y.db.toNat < 8)) ∧
    (∃ (s : State) (t : Nat) (x : RegSet) (y : ImmSyl), (s.readyAt t = true) ∧ (y.stop = true) ∧ ((s.tile t).cur = x) ∧ (xor (x.pred y.qp.toNat) (y.qn == 1) = true)) ∧
    (∃ (s : State) (t : Nat) (x : RegSet) (y : ImmSyl), (s.readyAt t = true) ∧ (y.stop = true) ∧ ((s.tile t).cur = x) ∧ (xor (x.pred y.qp.toNat) (y.qn == 1) = true) ∧ (y.imm.toNat < 32)) ∧
    (∃ (s : State) (t : Nat) (x : RegSet) (y : WideSyl), (s.readyAt t = true) ∧ (y.stop = true) ∧ ((s.tile t).cur = x)) ∧
    (∃ (s : State) (t : Nat) (x : RegSet) (y : AluSyl), (s.readyAt t = true) ∧ (y.stop = true) ∧ ((s.tile t).cur = x) ∧ (xor (x.pred y.qp.toNat) (y.qn == 1) = true) ∧ (y.db = 0) ∧ (y.dd.toNat < 0x2A)) ∧
    (∃ (s : State) (t : Nat) (x : RegSet) (y : AluSyl), (s.readyAt t = true) ∧ (y.stop = true) ∧ ((s.tile t).cur = x) ∧ (xor (x.pred y.qp.toNat) (y.qn == 1) = true) ∧ (y.db = 0) ∧ (y.da.toNat ≤ 0x2C)) ∧
    (∃ (s : State) (t : Nat) (x : RegSet) (y : AluSyl) (i : Nat), (s.readyAt t = true) ∧ (y.stop = true) ∧ ((s.tile t).cur = x) ∧ (xor (x.pred y.qp.toNat) (y.qn == 1) = true) ∧ ((s.tile t).lvl = true) ∧ (i < 0x6D) ∧ (y.da.toNat * 64 + y.db.toNat = i * 32)) ∧
    (∃ (s : State) (n : Nat) (x : RegSet) (y : AluSyl) (i k : Nat), (s.readyAt n = true) ∧ (y.stop = true) ∧ ((s.tile n).cur = x) ∧ (xor (x.pred y.qp.toNat) (y.qn == 1) = true) ∧ ((s.tile n).lvl = true) ∧ (i < 64) ∧ (k < 64) ∧ (y.dd.toNat * 4096 + y.da.toNat * 64 + y.db.toNat = i * 2048 + k * 32)) ∧
    (∃ (s : State) (t : Nat) (x : RegSet) (y : AluSyl) (z : CtlSyl), (s.readyAt t = true) ∧ (y.stop = true) ∧ ((s.tile t).cur = x) ∧ ((s.tile t).lvl = false) ∧ (z.stop = true) ∧ (x.pc % 2 ^ 14 < 16384)) :=
  ⟨⟨tiled, 3, (tiled.tile 3).cur, AluSyl.mk true 0 0 5 6 7, by decide⟩,
   ⟨tiled, 3, (tiled.tile 3).cur, AluSyl.mk true 0 0 5 6 7, by decide⟩,
   ⟨tiled, 3, (tiled.tile 3).cur, ImmSyl.mk true 0 0 5 9, by decide⟩,
   ⟨tiled, 3, (tiled.tile 3).cur, ImmSyl.mk true 0 0 5 9, by decide⟩,
   ⟨tiled, 3, (tiled.tile 3).cur, WideSyl.mk true 5 9, by decide⟩,
   ⟨tiled, 3, (tiled.tile 3).cur, AluSyl.mk true 0 0 5 6 0, by decide⟩,
   ⟨tiled, 3, (tiled.tile 3).cur, AluSyl.mk true 0 0 5 6 0, by decide⟩,
   ⟨tiledUp, 3, (tiledUp.tile 3).cur, AluSyl.mk true 0 0 5 1 0, 2, by decide⟩,
   ⟨tiledUp, 3, (tiledUp.tile 3).cur, AluSyl.mk true 0 0 1 2 0, 2, 4, by decide⟩,
   ⟨tiled, 3, (tiled.tile 3).cur, AluSyl.mk true 0 0 5 1 0, CtlSyl.mk true 0, by decide⟩⟩

theorem witness_mac_results :
    (∃ (s : State) (t : Nat) (x : RegSet) (y : MacSyl), (s.readyAt t = true) ∧ (y.stop = true) ∧ ((s.tile t).cur = x) ∧ (xor (x.pred y.qp.toNat) (y.qn == 1) = true) ∧ (y.z = 0)) ∧
    (∃ (s : State) (t : Nat) (x : RegSet) (y : MacSyl), (s.readyAt t = true) ∧ (y.stop = true) ∧ ((s.tile t).cur = x) ∧ (xor (x.pred y.qp.toNat) (y.qn == 1) = true) ∧ (y.z = 0) ∧ (y.da.toNat < 8) ∧ (y.db = 0)) ∧
    (∃ (s : State) (t : Nat) (x : RegSet) (y : XferSyl), (s.readyAt t = true) ∧ (y.stop = true) ∧ ((s.tile t).cur = x) ∧ (xor (x.pred y.qp.toNat) (y.qn == 1) = true) ∧ (y.z = 0) ∧ (-8 ≤ y.n.toInt ∧ y.n.toInt ≤ 23)) ∧
    (∃ (s : State) (t : Nat) (x : RegSet) (y : XferSyl), (s.readyAt t = true) ∧ (y.stop = true) ∧ ((s.tile t).cur = x) ∧ (xor (x.pred y.qp.toNat) (y.qn == 1) = true) ∧ (y.z = 0) ∧ (y.n.toNat < 32)) ∧
    (∃ (s : State) (t : Nat) (x : RegSet) (y : XferSyl), (s.readyAt t = true) ∧ (y.stop = true) ∧ ((s.tile t).cur = x) ∧ (xor (x.pred y.qp.toNat) (y.qn == 1) = true) ∧ (y.z = 0) ∧ (y.n.toNat < 32)) ∧
    (∃ (s : State) (t : Nat) (x : RegSet) (y : XferSyl), (s.readyAt t = true) ∧ (y.stop = true) ∧ ((s.tile t).cur = x) ∧ (xor (x.pred y.qp.toNat) (y.qn == 1) = true) ∧ (y.z = 0) ∧ (y.n.toNat < 3)) :=
  ⟨⟨tiled, 3, (tiled.tile 3).cur, MacSyl.mk true 0 0 3 0 6 7, by decide⟩,
   ⟨tiled, 3, (tiled.tile 3).cur, MacSyl.mk true 0 0 3 0 0 0, by decide⟩,
   ⟨tiled, 3, (tiled.tile 3).cur, XferSyl.mk true 0 0 5 3 2 0, by decide⟩,
   ⟨tiled, 3, (tiled.tile 3).cur, XferSyl.mk true 0 0 5 3 2 0, by decide⟩,
   ⟨tiled, 3, (tiled.tile 3).cur, XferSyl.mk true 0 0 5 3 2 0, by decide⟩,
   ⟨tiled, 3, (tiled.tile 3).cur, XferSyl.mk true 0 0 5 3 2 0, by decide⟩⟩

theorem witness_load_results :
    (∃ (s : State) (t : Nat) (x : RegSet) (y : LsSyl) (a m : Nat), (s.readyAt t = true) ∧ (y.stop = true) ∧ ((s.tile t).cur = x) ∧ (x.pred y.qp.toNat = true) ∧ (y.mode = 0) ∧ (toU 32 ((x.pReg y.pn.toNat : Int) + y.imm.toInt * 1) = a) ∧ (s.coreAt t a 1 = .mem m) ∧ (a % 1 = 0)) ∧
    (∃ (s : State) (t : Nat) (x : RegSet) (y : LsSyl) (a m : Nat), (s.readyAt t = true) ∧ (y.stop = true) ∧ ((s.tile t).cur = x) ∧ (x.pred y.qp.toNat = true) ∧ (y.mode = 0) ∧ (toU 32 ((x.pReg y.pn.toNat : Int) + y.imm.toInt * 1) = a) ∧ (s.coreAt t a 1 = .mem m) ∧ (a % 1 = 0)) ∧
    (∃ (s : State) (t : Nat) (x : RegSet) (y : LsSyl) (a m : Nat), (s.readyAt t = true) ∧ (y.stop = true) ∧ ((s.tile t).cur = x) ∧ (x.pred y.qp.toNat = true) ∧ (y.mode = 0) ∧ (toU 32 ((x.pReg y.pn.toNat : Int) + y.imm.toInt * 2) = a) ∧ (s.coreAt t a 2 = .mem m) ∧ (a % 2 = 0)) ∧
    (∃ (s : State) (t : Nat) (x : RegSet) (y : LsSyl) (a m : Nat), (s.readyAt t = true) ∧ (y.stop = true) ∧ ((s.tile t).cur = x) ∧ (x.pred y.qp.toNat = true) ∧ (y.mode = 0) ∧ (toU 32 ((x.pReg y.pn.toNat : Int) + y.imm.toInt * 2) = a) ∧ (s.coreAt t a 2 = .mem m) ∧ (a % 2 = 0)) ∧
    (∃ (s : State) (t : Nat) (x : RegSet) (y : LsSyl) (a m : Nat), (s.readyAt t = true) ∧ (y.stop = true) ∧ ((s.tile t).cur = x) ∧ (x.pred y.qp.toNat = true) ∧ (y.mode = 0) ∧ (toU 32 ((x.pReg y.pn.toNat : Int) + y.imm.toInt * 4) = a) ∧ (s.coreAt t a 4 = .mem m) ∧ (a % 4 = 0)) ∧
    (∃ (s : State) (t : Nat) (x : RegSet) (y : LsSyl) (a m : Nat), (s.readyAt t = true) ∧ (y.stop = true) ∧ ((s.tile t).cur = x) ∧ (x.pred y.qp.toNat = true) ∧ (y.mode = 0) ∧ (toU 32 ((x.pReg y.pn.toNat : Int) + y.imm.toInt * 8) = a) ∧ (s.coreAt t a 8 = .mem m) ∧ (a % 8 = 0) ∧ (y.data.toNat % 2 = 0)) ∧
    (∃ (s : State) (t : Nat) (x : RegSet) (y : LsSyl) (a m : Nat), (s.readyAt t = true) ∧ (y.stop = true) ∧ ((s.tile t).cur = x) ∧ (x.pred y.qp.toNat = true) ∧ (y.mode = 0) ∧ (toU 32 ((x.pReg y.pn.toNat : Int) + y.imm.toInt * 16) = a) ∧ (s.coreAt t a 16 = .mem m) ∧ (a % 16 = 0) ∧ (y.data.toNat % 4 = 0)) ∧
    (∃ (s : State) (t : Nat) (x : RegSet) (y : LsSyl), (s.readyAt t = true) ∧ (y.stop = true) ∧ ((s.tile t).cur = x) ∧ (x.pred y.qp.toNat = true) ∧ (y.mode = 0) ∧ (y.data.toNat < 16)) :=
  ⟨⟨tiled, 3, (tiled.tile 3).cur, LsSyl.mk true 0 0 2 4 0, 0, tileAddr 3 0, by decide⟩,
   ⟨tiled, 3, (tiled.tile 3).cur, LsSyl.mk true 0 0 2 4 0, 0, tileAddr 3 0, by decide⟩,
   ⟨tiled, 3, (tiled.tile 3).cur, LsSyl.mk true 0 0 2 4 0, 0, tileAddr 3 0, by decide⟩,
   ⟨tiled, 3, (tiled.tile 3).cur, LsSyl.mk true 0 0 2 4 0, 0, tileAddr 3 0, by decide⟩,
   ⟨tiled, 3, (tiled.tile 3).cur, LsSyl.mk true 0 0 2 4 0, 0, tileAddr 3 0, by decide⟩,
   ⟨tiled, 3, (tiled.tile 3).cur, LsSyl.mk true 0 0 2 4 0, 0, tileAddr 3 0, by decide⟩,
   ⟨tiled, 3, (tiled.tile 3).cur, LsSyl.mk true 0 0 2 4 0, 0, tileAddr 3 0, by decide⟩,
   ⟨tiled, 3, (tiled.tile 3).cur, LsSyl.mk true 0 0 2 4 0, by decide⟩⟩

theorem witness_store_results :
    (∃ (s : State) (t : Nat) (x : RegSet) (y : LsSyl) (a m : Nat), (s.readyAt t = true) ∧ (y.stop = true) ∧ ((s.tile t).cur = x) ∧ (x.pred y.qp.toNat = true) ∧ (y.mode = 0) ∧ (toU 32 ((x.pReg y.pn.toNat : Int) + y.imm.toInt * 1) = a) ∧ (s.coreAt t a 1 = .mem m) ∧ (a % 1 = 0)) ∧
    (∃ (s : State) (t : Nat) (x : RegSet) (y : LsSyl) (a m : Nat), (s.readyAt t = true) ∧ (y.stop = true) ∧ ((s.tile t).cur = x) ∧ (x.pred y.qp.toNat = true) ∧ (y.mode = 0) ∧ (toU 32 ((x.pReg y.pn.toNat : Int) + y.imm.toInt * 2) = a) ∧ (s.coreAt t a 2 = .mem m) ∧ (a % 2 = 0)) ∧
    (∃ (s : State) (t : Nat) (x : RegSet) (y : LsSyl) (a m : Nat), (s.readyAt t = true) ∧ (y.stop = true) ∧ ((s.tile t).cur = x) ∧ (x.pred y.qp.toNat = true) ∧ (y.mode = 0) ∧ (toU 32 ((x.pReg y.pn.toNat : Int) + y.imm.toInt * 4) = a) ∧ (s.coreAt t a 4 = .mem m) ∧ (a % 4 = 0)) ∧
    (∃ (s : State) (t : Nat) (x : RegSet) (y : LsSyl) (a m : Nat), (s.readyAt t = true) ∧ (y.stop = true) ∧ ((s.tile t).cur = x) ∧ (x.pred y.qp.toNat = true) ∧ (y.mode = 0) ∧ (toU 32 ((x.pReg y.pn.toNat : Int) + y.imm.toInt * 8) = a) ∧ (s.coreAt t a 8 = .mem m) ∧ (a % 8 = 0) ∧ (y.data.toNat % 2 = 0)) ∧
    (∃ (s : State) (t : Nat) (x : RegSet) (y : LsSyl) (a m : Nat), (s.readyAt t = true) ∧ (y.stop = true) ∧ ((s.tile t).cur = x) ∧ (x.pred y.qp.toNat = true) ∧ (y.mode = 0) ∧ (toU 32 ((x.pReg y.pn.toNat : Int) + y.imm.toInt * 16) = a) ∧ (s.coreAt t a 16 = .mem m) ∧ (a % 16 = 0) ∧ (y.data.toNat % 4 = 0)) ∧
    (∃ (s : State) (t : Nat) (x : RegSet) (y : LsSyl) (a m : Nat) (n : Int), (s.readyAt t = true) ∧ (y.stop = true) ∧ ((s.tile t).cur = x) ∧ (x.pred y.qp.toNat = true) ∧ (y.mode = 0) ∧ (toU 32 ((x.pReg y.pn.toNat : Int) + y.imm.toInt * 4) = a) ∧ (s.coreAt t a 4 = .mem m) ∧ (a % 4 = 0) ∧ ((x.xAt (0x20 + y.data.toNat % 8)).toNat = toU 6 n) ∧ (-8 ≤ n ∧ n ≤ 23)) :=
  ⟨⟨tiled, 3, (tiled.tile 3).cur, LsSyl.mk true 0 0 2 4 0, 0, tileAddr 3 0, by decide⟩,
   ⟨tiled, 3, (tiled.tile 3).cur, LsSyl.mk true 0 0 2 4 0, 0, tileAddr 3 0, by decide⟩,
   ⟨tiled, 3, (tiled.tile 3).cur, LsSyl.mk true 0 0 2 4 0, 0, tileAddr 3 0, by decide⟩,
   ⟨tiled, 3, (tiled.tile 3).cur, LsSyl.mk true 0 0 2 4 0, 0, tileAddr 3 0, by decide⟩,
   ⟨tiled, 3, (tiled.tile 3).cur, LsSyl.mk true 0 0 2 4 0, 0, tileAddr 3 0, by decide⟩,
   ⟨tiled, 3, (tiled.tile 3).cur, LsSyl.mk true 0 0 2 4 0, 0, tileAddr 3 0, 0, by decide⟩⟩

theorem witness_misplaced_access_faults :
    (∃ (s : State) (t : Nat) (x : RegSet) (y : LsSyl) (a : Nat), (s.readyAt t = true) ∧ (y.stop = true) ∧ ((s.tile t).cur = x) ∧ (x.pred y.qp.toNat = true) ∧ (y.mode = 0) ∧ (toU 32 ((x.pReg y.pn.toNat : Int) + y.imm.toInt * 4) = a) ∧ (s.coreAt t a 4 = .bad)) ∧
    (∃ (s : State) (t : Nat) (x : RegSet) (y : LsSyl) (a : Nat), (s.readyAt t = true) ∧ (y.stop = true) ∧ ((s.tile t).cur = x) ∧ (x.pred y.qp.toNat = true) ∧ (y.mode = 0) ∧ (toU 32 ((x.pReg y.pn.toNat : Int) + y.imm.toInt * 4) = a) ∧ (s.coreAt t a 4 ≠ .bad) ∧ (a % 4 ≠ 0)) :=
  ⟨⟨tiled, 3, (tiled.tile 3).cur, LsSyl.mk true 0 0 2 4 (-1), 0xFFFFFFFC, by decide⟩,
   ⟨tiledOdd, 3, (tiledOdd.tile 3).cur, LsSyl.mk true 0 0 2 4 0, 2, by decide⟩⟩

theorem witness_control_results :
    (∃ (s : State) (t : Nat) (x : RegSet) (y : CtlSyl), (s.readyAt t = true) ∧ (y.stop = true) ∧ ((s.tile t).cur = x) ∧ (y.f = 0)) ∧
    (∃ (s : State) (t : Nat) (x : RegSet) (y : CtlSyl), (s.readyAt t = true) ∧ (y.stop = true) ∧ ((s.tile t).cur = x) ∧ (y.f.toNat / 2 ^ 14 % 2 ^ 6 = 0) ∧ (xor (x.pred (y.f.toNat / 2 ^ 21)) (y.f.toNat / 2 ^ 20 % 2 == 1) = true)) ∧
    (∃ (s : State) (t : Nat) (x : RegSet) (y : CtlSyl), (s.readyAt t = true) ∧ (y.stop = true) ∧ ((s.tile t).cur = x) ∧ (y.f.toNat % 2 ^ 20 = 0) ∧ (xor (x.pred (y.f.toNat / 2 ^ 21)) (y.f.toNat / 2 ^ 20 % 2 == 1) = true)) ∧
    (∃ (s : State) (n : Nat) (x : RegSet) (y : CtlSyl) (bk : Tbl Word) (k : Nat), (s.readyAt n = true) ∧ (y.stop = true) ∧ ((s.tile n).cur = x) ∧ ((s.tile n).bank (s.liveBank n) = bk) ∧ (bodyEnd bk (y.f.toNat % 2 ^ 14) 16384 x.after ≠ 0) ∧ (n < 64) ∧ (y.f.toNat / 2 ^ 14 % 4 = 0 ∧ (x.dReg (y.f.toNat / 2 ^ 16 % 64)).toNat = k)) ∧
    (∃ (s : State) (n : Nat) (x : RegSet) (y : CtlSyl) (bk : Tbl Word) (k : Nat), (s.readyAt n = true) ∧ (y.stop = true) ∧ ((s.tile n).cur = x) ∧ ((s.tile n).bank (s.liveBank n) = bk) ∧ (bodyEnd bk (y.f.toNat % 2 ^ 14) 16384 x.after ≠ 0) ∧ (n < 64) ∧ (y.f.toNat / 2 ^ 14 % 256 = k)) ∧
    (∃ (s : State) (n : Nat) (x : RegSet) (y : CtlSyl), (s.readyAt n = true) ∧ (y.stop = true) ∧ ((s.tile n).cur = x) ∧ (n < 64) ∧ (y.f.toNat % 2 ^ 19 = 0) ∧ (xor (x.pred (y.f.toNat / 2 ^ 20 % 8)) (y.f.toNat / 2 ^ 19 % 2 == 1) = true)) ∧
    (∃ (s : State) (t : Nat) (x : RegSet) (y : CtlSyl), (s.readyAt t = true) ∧ (y.stop = true) ∧ ((s.tile t).cur = x) ∧ (y.f = 0) ∧ ((s.tile t).lvl = true)) ∧
    (∃ (s : State) (t : Nat) (x : RegSet) (y : CtlSyl), (s.readyAt t = true) ∧ (y.stop = true) ∧ ((s.tile t).cur = x) ∧ (y.f = 0) ∧ ((s.tile t).lvl = false)) ∧
    (∃ (s : State) (t : Nat) (x : RegSet) (y : CtlSyl) (n : Nat), (s.tileMay t = true) ∧ ((s.tile t).bundle = []) ∧ (y.stop = true) ∧ ((s.tile t).cur = x) ∧ (y.f = 0) ∧ (x.l0a = true) ∧ (x.l1a = false) ∧ (x.loop0.last = x.pc % 2 ^ 14) ∧ (x.lc0 = n + 2)) :=
  ⟨⟨tiled, 3, (tiled.tile 3).cur, CtlSyl.mk true 0, by decide⟩,
   ⟨tiled, 3, (tiled.tile 3).cur, CtlSyl.mk true 9, by decide⟩,
   ⟨tiled, 3, (tiled.tile 3).cur, CtlSyl.mk true 0, by decide⟩,
   ⟨tiledLoop, 3, (tiledLoop.tile 3).cur, CtlSyl.mk true 0x60001, [(1, 0x80000000)], 7, by decide⟩,
   ⟨tiledLoop, 3, (tiledLoop.tile 3).cur, CtlSyl.mk true 0x1C001, [(1, 0x80000000)], 7, by decide⟩,
   ⟨tiled, 3, (tiled.tile 3).cur, CtlSyl.mk true 0, by decide⟩,
   ⟨tiledUp, 3, (tiledUp.tile 3).cur, CtlSyl.mk true 0, by decide⟩,
   ⟨tiled, 3, (tiled.tile 3).cur, CtlSyl.mk true 0, by decide⟩,
   ⟨looping, 3, (looping.tile 3).cur, CtlSyl.mk true 0, 5, by decide⟩⟩

set_option maxRecDepth 1000000 in
theorem witness_bench_instructions_complete :
    (∃ (s : State) (n : Nat) (x : RegSet) (y : BenchSyl) (b : List Byte), (s.readyAt n = true) ∧ (y.stop = true) ∧ ((s.tile n).cur = x) ∧ (n < 64) ∧ (bit x.prg 31 = false) ∧ ((s.tile n).lvl = false) ∧ (s.claimed n = false) ∧ (y.z = 0) ∧ (y.pn = 0) ∧ ((if x.pReg 0 ≤ 0x1FFFE0 then s.tileBytes n (x.pReg 0) 32 else zeros 32) = b)) ∧
    (∃ (s : State) (n : Nat) (x : RegSet) (y : BenchSyl) (b : List Byte), (s.readyAt n = true) ∧ (y.stop = true) ∧ ((s.tile n).cur = x) ∧ (n < 64) ∧ (bit x.prg 31 = false) ∧ ((s.tile n).lvl = false) ∧ (y.z = 0) ∧ ((if x.pReg y.pn.toNat ≤ 0x1FFFE0 then s.tileBytes n (x.pReg y.pn.toNat) 32 else zeros 32) = b)) ∧
    (∃ (s : State) (n : Nat) (l : LongOp), (n < 64) ∧ ((s.tile n).long = some l) ∧ ((s.tile n).busy = true) ∧ (l.total ≤ (s.tile n).main.prg % 2 ^ 16 + 1) ∧ ((s.tile n).cmd = none) ∧ ((s.tile n).wantInt = false) ∧ (s.get (xState n) = 0)) ∧
    (∃ (s : State) (n : Nat), ((s.tile n).long = none)) ∧
    (∃ (s : State) (n : Nat) (l : LongOp), (n < 64) ∧ ((s.tile n).long = some l) ∧ ((s.tile n).busy = true) ∧ ((s.tile n).main.prg % 2 ^ 16 + 1 < l.total) ∧ ((s.tile n).cmd = none) ∧ ((s.tile n).wantInt = false) ∧ (s.get (xState n) = 0)) ∧
    (∃ (s : State) (n b : Nat), (s.tipDue n = some b) ∧ (s.get (tileState n) = 2) ∧ ((s.tile n).lvl = false) ∧ ((s.tile n).main.ie = true) ∧ ((s.tile n).busy = false)) :=
  ⟨⟨benched bclrBlock, 3, ((benched bclrBlock).tile 3).cur, BenchSyl.mk true 0 0, bclrBlock, by decide +kernel⟩,
   ⟨benched bmacBlock, 3, ((benched bmacBlock).tile 3).cur, BenchSyl.mk true 0 0, bmacBlock, by decide +kernel⟩,
   ⟨granuled 7, 3, ⟨0, [], 5⟩, by decide +kernel⟩,
   ⟨tiled, 3, by decide⟩,
   ⟨granuled 0, 3, ⟨0, [], 5⟩, by decide +kernel⟩,
   ⟨interrupted, 3, 4, by decide +kernel⟩⟩

set_option maxRecDepth 1000000 in
theorem witness_tile_commands_complete :
    (∃ (s : State) (n k : Nat), (n < 64) ∧ (k < 4) ∧ (s.get (tmrMode n k) = 1) ∧ (s.timersRun = true) ∧ (s.fenced n = false)) ∧
    (∃ (s : State) (n k w : Nat) (v : Word), (s.fenced n = false) ∧ (k < 4) ∧ (n < 64) ∧ (w < 3)) ∧
    (∃ (s : State) (n j tag : Nat), (n < 64) ∧ (j < 8) ∧ (s.on (Reg.TILE_EDG_CFG_EN.tk n j) = true) ∧ (s.fenced n = false) ∧ (bit (s.get (Reg.TILE_EDG_CFG_EDGE.tk n j)) 0 = true)) ∧
    (∃ (s : State) (n entry : Nat), (n < 64) ∧ (s.fenced n = false) ∧ (s.on (Reg.TILE_XSTAT_SIGREQ.t n) = false)) ∧
    (∃ (s : State) (n : Nat), (n < 64) ∧ (s.fenced n = false)) ∧
    (∃ (s : State) (n : Nat), (s.fenced n = false) ∧ (s.get (xState n) ≠ 0) ∧ (s.get (tileState n) = 2) ∧ ((s.tile n).busy = false)) ∧
    (∃ (s : State) (n : Nat), (n < 64) ∧ (s.get (xState n) ≠ 0) ∧ (s.get (Reg.TILE_XSTAT_TMO.t n) ≠ 0) ∧ (s.on (Reg.TILE_EVST_XTMO.t n) = false)) ∧
    (∃ (s : State) (n p : Nat) (v : Word), (n < 64) ∧ (s.fenced n = false) ∧ (s.on (Reg.TILE_PPTR_LIVE.t n) = false) ∧ (s.get (Reg.TILE_PPTR_PTR.t n) = p) ∧ (s.liveBank n = 0 ∨ s.liveBank n = 1)) ∧
    (∃ (s : State) (r : Requester) (n a : Nat) (v : Word), (n < 64) ∧ (s.fenced n = false) ∧ (s.claimed n = false ∨ 4 * a < 0x40000) ∧ (s.get (Reg.TILE_MPTR_WADDR.t n) = a)) ∧
    (∃ (s : State) (r : Requester) (n a : Nat) (v : Word), (n < 64) ∧ (s.fenced n = false) ∧ (s.claimed n = false ∨ 4 * a < 0x40000) ∧ (s.get (Reg.TILE_MPTR_WADDR.t n) = a)) ∧
    (∃ (s : State) (n : Nat), (n < 64) ∧ (s.get (tileState n) = 1) ∧ ((s.tile n).cmd = none) ∧ ((s.tile n).busy = false) ∧ ((s.tile n).gated = false) ∧ (s.get (xState n) = 0)) ∧
    (∃ (s : State) (n : Nat), (n < 64) ∧ (s.get (tileState n) = 2) ∧ ((s.tile n).cmd = none) ∧ ((s.tile n).busy = false)) ∧
    (∃ (s : State) (n : Nat), (s.fenced n = false) ∧ ((s.tile n).cmd = none) ∧ ((s.tile n).busy = false)) ∧
    (∃ (s : State) (n : Nat), (s.on Reg.PWR_CFG_TILEGATE.z = true) ∧ (s.get (tileState n) = 1)) ∧
    (∃ (s : State) (n k : Nat), ((s.tuner (s.get (Reg.TILE_RING0_TUNER.tk n k))).ringOuts = [])) ∧
    (∃ (s : State) (n k u : Nat) (o : TunOut), (n < 64) ∧ (k < 8) ∧ (s.get (Reg.TILE_RING0_TUNER.tk n k) = u) ∧ ((s.tuner u).ringOuts = [o]) ∧ (bits o.dest 20 6 = n) ∧ (s.on (Reg.TILE_RING0_VALID.tk n k) = true) ∧ (s.ringFill n k (s.get (Reg.TILE_RING1_RIDX.tk n k)) ≠ s.ringBlocks n k)) ∧
    (∃ (s : State) (n u : Nat) (loaded : Bool), (u < 32) ∧ (s.get (Reg.TRG_UCFG_SRC.e u) = 7) ∧ (s.get (Reg.TRG_UELEM_ELEM.e u) = n) ∧ (s.get Reg.PWR_STAT_MODE.z = 4) ∧ (s.on (Reg.TRG_UCFG_EN.e u) = true)) :=
  ⟨⟨tiled.put (tmrMode 3 2) 1, 3, 2, by decide⟩,
   ⟨tiled, 3, 2, 1, 5, by decide⟩,
   ⟨edged, 3, 7, 99, by decide⟩,
   ⟨tiled, 3, 7, by decide⟩,
   ⟨tiled, 3, by decide⟩,
   ⟨tiled.put (xState 3) 1, 3, by decide⟩,
   ⟨timing, 3, by decide⟩,
   ⟨tiled, 3, 0, 7, by decide⟩,
   ⟨tiled, .bar0, 3, 0, 0, by decide⟩,
   ⟨tiled, .bar0, 3, 0, 7, by decide⟩,
   ⟨halted, 3, by decide⟩,
   ⟨tiled, 3, by decide⟩,
   ⟨tiled, 3, by decide⟩,
   ⟨halted.flag Reg.PWR_CFG_TILEGATE.z true, 3, by decide⟩,
   ⟨tiled, 3, 7, by decide⟩,
   ⟨ringed, 3, 7, 4, tunOut, by decide +kernel⟩,
   ⟨pulsed.put (Reg.TRG_UELEM_ELEM.e 31) 3, 3, 31, true, by decide⟩⟩

theorem witness_locks_follow_their_table :
    (∃ (s : State) (r : Requester) (n : Nat), (n < 256) ∧ (s.get (lockState n) ≠ 1)) ∧
    (∃ (s : State) (r : Requester) (n : Nat), (n < 256) ∧ (s.get (lockState n) = 1)) ∧
    (∃ (s : State) (r : Requester) (n : Nat), (n < 256) ∧ (s.get (lockState n) = 1) ∧ (s.lockOwner n = lockRequester r)) ∧
    (∃ (s : State) (r : Requester) (n : Nat), (n < 256) ∧ (s.get (lockState n) ≠ 1 ∨ s.lockOwner n ≠ lockRequester r)) ∧
    (∃ (s : State) (n : Nat), (n < 256)) ∧
    (∃ (s : State) (r : Requester) (n : Nat), (r ≠ .bar0)) ∧
    (∃ (s : State) (k n : Nat) (x : RegSet) (y : LsSyl), (s.readyAt k = true) ∧ (y.stop = true) ∧ ((s.tile k).cur = x) ∧ (x.pred y.qp.toNat = true) ∧ (y.pn = 0) ∧ (y.imm.toNat = n) ∧ (n < 256) ∧ (k < 64) ∧ (s.get (lockState n) ≠ 1)) ∧
    (∃ (s : State) (k n : Nat) (x : RegSet) (y : LsSyl), (s.readyAt k = true) ∧ (y.stop = true) ∧ ((s.tile k).cur = x) ∧ (x.pred y.qp.toNat = true) ∧ (y.pn = 0) ∧ (y.imm.toNat = n) ∧ (n < 256) ∧ (k < 64) ∧ (s.get (lockState n) = 1)) ∧
    (∃ (s : State) (k n : Nat) (x : RegSet) (y : LsSyl), (s.readyAt k = true) ∧ (y.stop = true) ∧ ((s.tile k).cur = x) ∧ (x.pred y.qp.toNat = true) ∧ (y.pn = 0) ∧ (y.imm.toNat = n) ∧ (n < 256) ∧ (k < 64) ∧ (s.get (lockState n) = 1) ∧ (s.lockOwner n = k)) ∧
    (∃ (s : State) (k n : Nat) (x : RegSet) (y : LsSyl), (s.readyAt k = true) ∧ (y.stop = true) ∧ ((s.tile k).cur = x) ∧ (x.pred y.qp.toNat = true) ∧ (y.pn = 0) ∧ (y.imm.toNat = n) ∧ (n < 256) ∧ (k < 64) ∧ (s.get (lockState n) ≠ 1 ∨ s.lockOwner n ≠ k)) :=
  ⟨⟨up, .bar0, 255, by decide⟩,
   ⟨lockHeld, .control, 255, by decide⟩,
   ⟨lockHeld, .bar0, 255, by decide⟩,
   ⟨lockHeld, .debug, 255, by decide⟩,
   ⟨lockHeld, 255, by decide⟩,
   ⟨lockHeld, .debug, 255, by decide⟩,
   ⟨tiled, 3, 255, (tiled.tile 3).cur, LsSyl.mk true 0 0 0 4 255, by decide⟩,
   ⟨tiledHeld, 3, 255, (tiled.tile 3).cur, LsSyl.mk true 0 0 0 4 255, by decide⟩,
   ⟨tiledHeld, 3, 255, (tiled.tile 3).cur, LsSyl.mk true 0 0 0 4 255, by decide⟩,
   ⟨tiled, 3, 255, (tiled.tile 3).cur, LsSyl.mk true 0 0 0 4 255, by decide⟩⟩

theorem witness_ring_index_stays_within_the_ring :
    (∃ (s : State) (n k : Nat) (v : Word), (n < 64) ∧ (k < 8) ∧ (s.fenced n = false) ∧ ((s.get (Reg.TILE_RING0_WIDX.tk n k) + 2 ^ 16 - v.toNat % 2 ^ 16) % 2 ^ 16 ≤ s.ringBlocks n k)) ∧
    (∃ (s : State) (n k : Nat) (v : Word), (n < 64) ∧ (k < 8) ∧ (s.fenced n = false) ∧ (s.ringBlocks n k < (s.get (Reg.TILE_RING0_WIDX.tk n k) + 2 ^ 16 - v.toNat % 2 ^ 16) % 2 ^ 16)) ∧
    (∃ (s : State) (n k v : Nat) (x : RegSet) (y : LsSyl), (n < 64) ∧ (k < 8) ∧ (s.readyAt n = true) ∧ (y.stop = true) ∧ ((s.tile n).cur = x) ∧ (x.pred y.qp.toNat = true) ∧ (y.mode = 0) ∧ (toU 32 ((x.pReg y.pn.toNat : Int) + y.imm.toInt * 4) = 0xFFF00144 + 8 * k) ∧ ((x.dReg y.data.toNat).toNat % 2 ^ 16 = v) ∧ ((s.get (Reg.TILE_RING0_WIDX.tk n k) + 2 ^ 16 - v) % 2 ^ 16 ≤ s.ringBlocks n k)) ∧
    (∃ (s : State) (n k v : Nat) (x : RegSet) (y : LsSyl), (n < 64) ∧ (k < 8) ∧ (s.readyAt n = true) ∧ (y.stop = true) ∧ ((s.tile n).cur = x) ∧ (x.pred y.qp.toNat = true) ∧ (y.mode = 0) ∧ (toU 32 ((x.pReg y.pn.toNat : Int) + y.imm.toInt * 4) = 0xFFF00144 + 8 * k) ∧ ((x.dReg y.data.toNat).toNat % 2 ^ 16 = v) ∧ (s.ringBlocks n k < (s.get (Reg.TILE_RING0_WIDX.tk n k) + 2 ^ 16 - v) % 2 ^ 16)) :=
  ⟨⟨tiled, 3, 7, 0, by decide⟩,
   ⟨tiled, 3, 7, 5, by decide⟩,
   ⟨ringTile0, 3, 7, 0, (ringTile0.tile 3).cur, LsSyl.mk true 0 0 2 4 0, by decide⟩,
   ⟨ringTile, 3, 7, 5, (ringTile.tile 3).cur, LsSyl.mk true 0 0 2 4 0, by decide⟩⟩

set_option maxRecDepth 1000000 in
theorem witness_dma_channel_commands_complete :
    (∃ (s : State) (g c : Nat), (g < 8) ∧ (c < 16) ∧ (s.get (chState g c) = 0)) ∧
    (∃ (s : State) (g c l : Nat), (g < 8) ∧ (c < 16) ∧ (s.get (chState g c) = 2) ∧ (leNat (s.peekAll (s.chCur g c) 8) = l) ∧ (bit l 63 = false)) ∧
    (∃ (s : State) (g c : Nat), (g < 8) ∧ (c < 16) ∧ (s.get (chState g c) = 1)) ∧
    (∃ (s : State) (g c : Nat), (g < 8) ∧ (c < 16) ∧ (s.get (chState g c) = 1)) ∧
    (∃ (s : State) (g c : Nat), (g < 8) ∧ (c < 16) ∧ (s.get (chState g c) = 4) ∧ ((s.chan g c).held ≠ some 1)) ∧
    (∃ (s : State) (g c : Nat), (s.get (chState g c) = 3)) ∧
    (∃ (s : State) (g c : Nat), (g < 8) ∧ (c < 16) ∧ (s.get (chState g c) = 1) ∧ ((s.chan g c).desc = none) ∧ ((s.chan g c).waiting = none) ∧ (s.dmaMay (s.chCur g c) 64 = true) ∧ (s.descStatus (s.chCur g c) (descOf (s.peekAll (s.chCur g c) 64)) = 0)) ∧
    (∃ (s : State) (g c : Nat), (g < 8) ∧ (c < 16) ∧ (s.get (chState g c) = 1) ∧ ((s.chan g c).desc = none) ∧ ((s.chan g c).waiting = none) ∧ (s.dmaMay (s.chCur g c) 64 = false) ∧ (s.on (Reg.DMA_CHCQCFG_EN.e2 g c) = false)) ∧
    (∃ (s : State) (g c l : Nat), (g < 8) ∧ (c < 16) ∧ (s.get (chState g c) = 2) ∧ (s.get (Reg.DMA_CHCFG_POLL.e2 g c) ≠ 0) ∧ (leNat (s.peekAll (s.chCur g c) 8) = l) ∧ (bit l 63 = false)) ∧
    (∃ (s : State) (g c : Nat) (v : Word), (2 ^ s.get (Reg.DMA_CHCQCFG_CQLOG.e2 g c) < (s.get (Reg.DMA_CHCQ_WIDX.e2 g c) + 2 ^ 16 - v.toNat / 2 ^ 16) % 2 ^ 16)) ∧
    (∃ (s : State) (g c : Nat) (v : Word), (g < 8) ∧ (c < 16) ∧ ((s.get (Reg.DMA_CHCQ_WIDX.e2 g c) + 2 ^ 16 - v.toNat / 2 ^ 16) % 2 ^ 16 ≤ 2 ^ s.get (Reg.DMA_CHCQCFG_CQLOG.e2 g c)) ∧ ((s.chan g c).waiting = none)) ∧
    (∃ (s : State) (r : Requester) (g w : Nat) (v : Word), (s.get (Reg.DMA_GSPTR_WADDR.e g) = w) ∧ (s.galOk g (4 * w) 4 = true)) ∧
    (∃ (s : State) (r : Requester) (g w : Nat) (v : Word), (s.get (Reg.DMA_GSPTR_WADDR.e g) = w) ∧ (s.galOk g (4 * w) 4 = true)) :=
  ⟨⟨full, 7, 15, by decide⟩,
   ⟨full.put (chState 7 15) 2, 7, 15, 0, by decide⟩,
   ⟨full.put (chState 7 15) 1, 7, 15, by decide⟩,
   ⟨full.put (chState 7 15) 1, 7, 15, by decide⟩,
   ⟨full.put (chState 7 15) 4, 7, 15, by decide⟩,
   ⟨full.put (chState 7 15) 3, 7, 15, by decide⟩,
   ⟨dmaReady, 7, 15, by decide +kernel⟩,
   ⟨full.put (chState 7 15) 1, 7, 15, by decide⟩,
   ⟨(full.put (chState 7 15) 2).put (Reg.DMA_CHCFG_POLL.e2 7 15) 1, 7, 15, 0, by decide⟩,
   ⟨full, 7, 15, 0xFFFF0000#32 - 0x10000 * 0x7FFF, by decide⟩,
   ⟨full, 7, 15, 0, by decide⟩,
   ⟨granted, .bar0, 7, 0, 5, by decide⟩,
   ⟨granted, .bar0, 7, 0, 5, by decide⟩⟩

set_option maxRecDepth 1000000 in
theorem witness_descriptor_copies_its_elements :
    ∃ (s : State) (g c k m : Nat) (b : List Byte) (d : Desc), (g < 8) ∧ (c < 16) ∧ (s.get (chState g c) = 1) ∧ ((s.chan g c).desc = some b) ∧ (descOf b = d) ∧ ((s.chan g c).waiting = none) ∧ ((s.chan g c).stopping = none) ∧ (bit d.flags 0 = false) ∧ (bit d.flags 1 = true) ∧ ((s.chan g c).moved = m) ∧ ((s.chan g c).lost = 0) ∧ ((s.dmaMove d m (d.count - m)).2 = 0) :=
  ⟨dmaLatched, 7, 15, 0, 0, dmaDesc, descOf dmaDesc, by decide +kernel⟩

theorem witness_memory_commands_complete :
    (∃ (s : State) (a src : Nat) (bs : List Byte), (a < s.hbmSize) ∧ (a + bs.length ≤ 2 ^ 44) ∧ ((∀ i, i < bs.length → (s.remapOf (s.rankOf (a + i))).lost = false)) ∧ (s.hbmHolds a = false)) ∧
    (∃ (s : State) (w : Bool) (a src bad : Nat) (bs : List Byte), (a < s.hbmSize) ∧ (s.hbmHolds a = true)) ∧
    (∃ (s : State) (rank bank : Nat), (s.get (rankState rank) = 0) ∧ (s.openRow rank bank = none)) ∧
    (∃ (s : State) (rank bank : Nat), (s.get (rankState rank) = 0) ∧ (s.owed rank bank < 8)) ∧
    (∃ (s : State) (rank : Nat), (s.get Reg.PWR_STAT_MODE.z = 4) ∧ (s.get (rankState rank) = 0) ∧ (s.get Reg.MEM_ECC_CETHR.z ≠ 0)) ∧
    (∃ (s : State) (rank k : Nat), (rank < 768) ∧ (s.get Reg.PWR_STAT_MODE.z = 4) ∧ (s.get (rankState rank) = 0) ∧ (0 < k) ∧ (k < s.get Reg.MEM_ECC_CETHR.z)) ∧
    (∃ (s : State) (rank k : Nat), (rank < 768) ∧ (s.get Reg.PWR_STAT_MODE.z = 4) ∧ (s.get (rankState rank) = 0) ∧ (0 < k) ∧ (s.on Reg.MEM_ECC_PREMIG.z = true) ∧ (s.get Reg.MEM_ECC_CETHR.z ≤ k) ∧ (s.msys.waiting = [])) ∧
    (∃ (s : State) (rank a : Nat), (rank < 768) ∧ (s.get Reg.PWR_STAT_MODE.z = 4) ∧ (s.get (rankState rank) = 0) ∧ (s.get Reg.MEM_ECC_CETHR.z ≠ 0) ∧ (s.poisoned a = false)) ∧
    (∃ (s : State) (rank : Nat), (rank < 768) ∧ (s.get (rankState rank) = 0)) ∧
    (∃ (s : State) (rank : Nat), (rank < 768) ∧ (s.get (rankState rank) = 4)) ∧
    (∃ (s : State) (rank : Nat), (rank < 768) ∧ (s.get (rankState rank) = 2 ∨ s.get (rankState rank) = 3)) ∧
    (∃ (s : State) (p : Nat) (rest : List Nat), (p < 768) ∧ (s.msys.waiting = p :: rest) ∧ (s.get Reg.MEM_STAT_MIG.z = 0) ∧ (s.get Reg.PWR_STAT_MODE.z = 4)) ∧
    (∃ (s : State) (m : Nat × Nat × Option Nat), (s.msys.mig = some m) ∧ (s.get Reg.MEM_STAT_MIG.z = 1) ∧ (s.get Reg.MEM_MIGPOS_W.z + 1 < s.grainsD) ∧ (s.get Reg.MEM_MIGPOS_W.z + 1 < 2 ^ Reg.MEM_MIGPOS_W.w) ∧ (s.msys.held = [])) :=
  ⟨⟨sized, 4, 0, [5], by decide⟩,
   ⟨{ sized with ctl := { sized.ctl with tvStopped := [2 ^ 26] } }, true, 4, 0, 0, [5], by decide⟩,
   ⟨full, 767, 15, by decide⟩,
   ⟨full, 767, 15, by decide⟩,
   ⟨full.put Reg.MEM_ECC_CETHR.z 1, 767, by decide⟩,
   ⟨full.put Reg.MEM_ECC_CETHR.z 9, 767, 5, by decide⟩,
   ⟨(full.put Reg.MEM_ECC_CETHR.z 1).flag Reg.MEM_ECC_PREMIG.z true, 767, 5, by decide⟩,
   ⟨full.put Reg.MEM_ECC_CETHR.z 1, 767, 4, by decide⟩,
   ⟨full, 767, by decide⟩,
   ⟨full.put (rankState 767) 4, 767, by decide⟩,
   ⟨full.put (rankState 767) 2, 767, by decide⟩,
   ⟨askedMig, 767, [], by decide⟩,
   ⟨migrating, (2, 767, some 5), by decide⟩⟩

theorem witness_stream_queue_commands_complete :
    (∃ (s : State) (c : Nat × Nat × Record), (s.streamsRun = true) ∧ (s.pair.switching = false) ∧ (nextClosed s.closed = some c)) ∧
    (∃ (s : State) (st : Nat) (r : Record) (l : List Record), (s.streamsRun = true) ∧ (s.pair.switching = false) ∧ ((s.stream st).waiting = r :: l) ∧ (s.fits st r = true)) ∧
    (∃ (s : State) (st : Nat), (st < 4096) ∧ (s.get (strState st) ≠ 0) ∧ (s.get (strState st) ≠ 3) ∧ ((s.stream st).queue ≠ [])) ∧
    (∃ (s : State) (st : Nat), (st < 4096) ∧ (s.get (strState st) = 3) ∧ (s.takes st = true)) ∧
    (∃ (s : State) (st : Nat), (s.get (strState st) = 4) ∧ ((s.stream st).queue = []) ∧ ((s.stream st).waiting = []) ∧ ((s.stream st).shadow.any (·.seq.isSome) = false) ∧ (s.closed.any (fun c => c.1 == st) = false)) ∧
    (∃ (s : State) (st : Nat), (s.maySwap .streams = true) ∧ (s.str.left.contains st = true)) ∧
    (∃ (s : State) (r : Nat), (s.maySwap .streams = true) ∧ (s.str.ringsLeft.contains r = true)) :=
  ⟨⟨closing, closedRec, by decide⟩,
   ⟨waitingRec, 9, gapRec, [], by decide⟩,
   ⟨queued, 9, by decide⟩,
   ⟨failedStream, 9, by decide⟩,
   ⟨full.put (strState 9) 4, 9, by decide⟩,
   ⟨strSwapping, 9, by decide⟩,
   ⟨strSwapping, 3, by decide⟩⟩

set_option maxRecDepth 1000000 in
theorem witness_records_enter_or_are_counted :
    (∃ (s : State) (c : Nat × Nat × Record) (st n : Nat) (x : Stream), (s.streamsRun = true) ∧ (s.paired = false) ∧ (s.pair.switching = false) ∧ (s.pair.shadow = false) ∧ (nextClosed s.closed = some c) ∧ (c.1 = st) ∧ (s.stream st = x) ∧ (x.waiting = []) ∧ (x.loss = none) ∧ (st < 4096) ∧ (s.get (strState st) = 1) ∧ (s.get (Reg.STR_SCFG_DEST.e st) ≠ 2) ∧ (s.get (Reg.STR_SCFG_DEST.e st) ≠ 1) ∧ (s.rawIn st c.2.2 = false) ∧ (c.2.2.source ≠ 1) ∧ (s.fits st c.2.2 = true) ∧ (s.get (Reg.STR_SSEQ_SEQ.e st) = n)) ∧
    (∃ (s : State) (c : Nat × Nat × Record) (st : Nat), (s.streamsRun = true) ∧ (s.pair.switching = false) ∧ (s.pair.shadow = false) ∧ (nextClosed s.closed = some c) ∧ (c.1 = st) ∧ (st < 4096) ∧ (s.get (strState st) = 1) ∧ (s.get (Reg.STR_SCFG_DEST.e st) ≠ 2) ∧ ((s.stream st).loss = none) ∧ (isProtected c.2.2.kind = false) ∧ (s.fits st c.2.2 = false) ∧ (s.on (Reg.REC_LCFG_EN.e st) = false)) ∧
    (∃ (s : State) (c : Nat × Nat × Record) (st : Nat), (s.streamsRun = true) ∧ (s.pair.switching = false) ∧ (s.pair.shadow = false) ∧ (nextClosed s.closed = some c) ∧ (c.1 = st) ∧ (st < 4096) ∧ (s.get (strState st) = 2) ∧ (s.get (Reg.STR_SCFG_DEST.e st) ≠ 2) ∧ ((s.stream st).loss = none) ∧ (c.2.2.kind = 2) ∧ ((s.stream st).waiting ≠ [])) :=
  ⟨⟨closing, closedRec, 9, 0, closing.stream 9, by decide +kernel⟩,
   ⟨overflowing, bigRec, 9, by decide +kernel⟩,
   ⟨overflowing2, protRec, 9, by decide +kernel⟩⟩

set_option maxRecDepth 1000000 in
theorem witness_port_and_ring_commands_complete :
    (∃ (s : State) (p : Nat), (s.portSends p = false)) ∧
    (∃ (s : State) (p st : Nat) (l : List QRec) (a : Bool), (s.portSends p = true) ∧ (s.txWaits p = false) ∧ (s.serveNext p ((s.str.streams.map (·.1)).filter (s.sendable p [st] [])) = some st) ∧ (s.nextSend p st [] = some (l, a)) ∧ (s.str.streams = [(st, s.stream st)])) ∧
    (∃ (s : State) (p stamp q : Nat) (f : List Byte), (s.on (Reg.STR_PSTAT_LINK.e p) = true) ∧ (s.on (Reg.STR_PCFG_PAUSE.e p) = true) ∧ (pauseQuanta f = some q)) ∧
    (∃ (s : State) (p stamp : Nat) (f : List Byte), (p < 8) ∧ (s.on (Reg.STR_PSTAT_LINK.e p) = true) ∧ (pauseQuanta f = none) ∧ (s.ptpAccepted p f = false)) ∧
    (∃ (s : State) (p : Nat) (b : Bool), (p < 8) ∧ (s.on (Reg.STR_PSTAT_LINK.e p) ≠ b) ∧ ((b = true → s.on (Reg.STR_PCFG_EN.e p) = true))) ∧
    (∃ (s : State) (r v : Nat), (r < 256) ∧ (s.on (Reg.HRG_CFG_EN.e r) = false) ∧ ((s.hostRing r).starving = false) ∧ ((v + 65536 - s.get (Reg.HRG_STAT_HEAD.e r)) % 65536 ≤ 2 ^ s.get (Reg.HRG_CFG_RLOG.e r))) ∧
    (∃ (s : State) (r v : Nat), (2 ^ s.get (Reg.HRG_CFG_RLOG.e r) < (v + 65536 - s.get (Reg.HRG_STAT_HEAD.e r)) % 65536)) ∧
    (∃ (s : State) (r : Nat) (d : HostDesc), (s.streamsRun = true) ∧ (s.pair.shadow = false) ∧ (s.ringRuns r 0 = true) ∧ (bufferOk d = false)) ∧
    (∃ (s : State) (r st : Nat) (d : HostDesc) (q : QRec), (r < 256) ∧ (s.streamsRun = true) ∧ (s.pair.shadow = false) ∧ (s.ringRuns r 0 = true) ∧ (bufferOk d = true) ∧ (s.ringCont r = none) ∧ ((s.stream st).queue = [q]) ∧ (q.dest = 1) ∧ (q.sel = r) ∧ (q.acked = true) ∧ (q.taken = 0) ∧ (q.bytes ≠ []) ∧ (q.bytes.length ≤ d.len)) ∧
    (∃ (s : State) (r : Nat), (s.get (Reg.HRG_MOD_MODCNT.e r) ≤ (s.hostRing r).unsignalled)) ∧
    (∃ (s : State) (r p stamp : Nat) (d : HostDesc) (f : List Byte), (s.get (Reg.HRG_CFG_PORT.e r) = p) ∧ (s.ringRuns r 2 = true) ∧ (d.addr % 64 = 0) ∧ (60 ≤ d.len) ∧ (d.len ≤ s.get (Reg.STR_PCFG_MTU.e p) + 18) ∧ (d.rsv = 0) ∧ (s.portSends p = true) ∧ (s.oneStep p (f.take d.len) = false)) ∧
    (∃ (s : State) (r p stamp : Nat) (d : HostDesc) (f : List Byte), (s.get (Reg.HRG_CFG_PORT.e r) = p) ∧ (s.ringRuns r 2 = true) ∧ (d.addr % 64 ≠ 0 ∨ d.len < 60 ∨ s.get (Reg.STR_PCFG_MTU.e p) + 18 < d.len ∨ d.rsv ≠ 0)) ∧
    (∃ (s : State) (n : Nat), ((s.tuner n).strOuts = [])) ∧
    (∃ (s : State) (n st : Nat) (o : TunOut) (x : Tuner), (n < 256) ∧ (s.tuner n = x) ∧ (x.strOuts = [o]) ∧ (x.starts o = true ∨ x.packet = 0) ∧ (s.vrtNextOut n = some (o, st)) ∧ (0 < s.get (Reg.STR_SXCFG_SPP.e st))) ∧
    (∃ (s : State) (n st : Nat) (o : TunOut) (x : Tuner), (s.tuner n = x) ∧ (x.strOuts = [o]) ∧ (s.vrtNextOut n = some (o, st)) ∧ (0 < s.get (Reg.STR_SXCFG_SPP.e st))) :=
  ⟨⟨full, 7, by decide⟩,
   ⟨sending, 7, 9, [qrec], false, by decide +kernel⟩,
   ⟨portUp.flag (Reg.STR_PCFG_PAUSE.e 7) true, 7, 0, 5, pauseFrame, by decide⟩,
   ⟨portUp, 7, 0, zeros 60, by decide⟩,
   ⟨full.flag (Reg.STR_PCFG_EN.e 7) true, 7, true, by decide⟩,
   ⟨full, 255, 1, by decide⟩,
   ⟨full, 255, 65535, by decide⟩,
   ⟨posted 0, 255, ⟨1, 4096, 0⟩, by decide⟩,
   ⟨(posted 0).setStream 9 { Stream.reset with queue := [hostRec] }, 255, 9, ⟨64, 4096, 0⟩, hostRec, by decide +kernel⟩,
   ⟨signalling, 255, by decide⟩,
   ⟨posted 2, 255, 7, 0, ⟨64, 60, 0⟩, zeros 60, by decide⟩,
   ⟨posted 2, 255, 7, 0, ⟨64, 60, 1⟩, zeros 60, by decide⟩,
   ⟨full, 3, by decide⟩,
   ⟨vrtReady, 3, 9, tunOut, vrtReady.tuner 3, by decide +kernel⟩,
   ⟨vrtReady, 3, 9, tunOut, vrtReady.tuner 3, by decide +kernel⟩⟩

set_option maxRecDepth 1000000 in
theorem witness_disk_commands_complete :
    (∃ (s : State), (s.on Reg.DSK_STAT_BUSY.z = false) ∧ (s.get dskState = 0)) ∧
    (∃ (s : State), (s.on Reg.DSK_STAT_BUSY.z = false) ∧ (s.get dskState = 0)) ∧
    (∃ (s : State), (s.on Reg.DSK_STAT_BUSY.z = false) ∧ (s.get dskState = 3)) ∧
    (∃ (s : State), (s.on Reg.DSK_STAT_BUSY.z = false) ∧ (s.get dskState = 3)) ∧
    (∃ (s : State), (s.on Reg.DSK_STAT_BUSY.z = false) ∧ (s.get dskState = 4)) ∧
    (∃ (s : State), (s.on Reg.DSK_STAT_BUSY.z = false) ∧ (s.get dskState = 4)) ∧
    (∃ (s : State), (s.on Reg.DSK_STAT_BUSY.z = true)) ∧
    (∃ (s : State), (s.on Reg.DSK_STAT_BUSY.z = false) ∧ (s.get dskState = 3)) ∧
    (∃ (s : State) (op : Nat) (a : List Nat) (f : DiskFound), (s.disk.cmd = some (op, a)) ∧ (op ≠ 1) ∧ (f.error = true)) ∧
    (∃ (s : State) (a : List Nat) (f : DiskFound), (f.error = false)) ∧
    (∃ (s : State) (set : DiskSet) (a : List Nat) (f : DiskFound), (f.error = false) ∧ (s.disk.set = some set) ∧ (a.getD 0 0 < set.count) ∧ (s.disk.cmd = some (4, a))) ∧
    (∃ (s : State) (set : DiskSet), (s.disk.set = some set) ∧ (s.get dskState = 3) ∧ (s.disk.writes = []) ∧ (s.disk.undone = []) ∧ (s.disk.period = true) ∧ (s.disk.entries ≠ [])) ∧
    (∃ (s : State) (set : DiskSet) (st : Nat), (s.disk.set = some set) ∧ ((s.stream st).queue = [])) ∧
    (∃ (s : State) (set : DiskSet) (st : Nat) (q : QRec) (p : DiskPos), (s.disk.set = some set) ∧ (s.streamsRun = true) ∧ (s.pair.shadow = false) ∧ (s.get dskState = 3) ∧ (s.get (strState st) ≠ 3) ∧ ((s.stream st).queue = [q]) ∧ (q.dest = 2) ∧ (q.acked = true) ∧ (q.taken = 0) ∧ (q.bytes ≠ []) ∧ ((s.stream st).disk = some p) ∧ (p.cut = false) ∧ (p.pos + q.bytes.length ≤ set.extBytes) ∧ (p.pos + q.bytes.length < (p.pos / set.su + 1) * set.su)) ∧
    (∃ (s : State) (set : DiskSet) (st : Nat) (q : QRec) (l : List QRec), (s.disk.set = some set) ∧ (s.streamsRun = true) ∧ (s.pair.shadow = false) ∧ (s.get dskState = 3) ∧ (s.get (strState st) ≠ 3) ∧ ((s.stream st).queue = q :: l) ∧ (q.dest = 2) ∧ (q.acked = true) ∧ (q.taken = 0) ∧ (q.bytes ≠ []) ∧ ((s.stream st).disk = none)) ∧
    (∃ (s : State) (set : DiskSet) (i : Nat) (w : DiskWrite) (b : Bool), (s.disk.set = some set) ∧ (s.get dskState ≠ 5) ∧ (s.disk.writes = [(i, w, b)])) ∧
    (∃ (s : State) (st : Nat) (x : Stream) (p : DiskPos), (s.get dskState = 3) ∧ (s.str.streams = [(st, x)]) ∧ (x.disk = some p) ∧ (p.donePos ≠ p.logged)) ∧
    (∃ (s : State) (set : DiskSet) (d : Nat), (d < 16) ∧ (s.disk.set = some set) ∧ (s.get dskState ≠ 5)) :=
  ⟨⟨full.put dskState 0, by decide⟩,
   ⟨full.put dskState 0, by decide⟩,
   ⟨full.put dskState 3, by decide⟩,
   ⟨full.put dskState 3, by decide⟩,
   ⟨full.put dskState 4, by decide⟩,
   ⟨full.put dskState 4, by decide⟩,
   ⟨full.flag Reg.DSK_STAT_BUSY.z true, by decide⟩,
   ⟨full.put dskState 3, by decide⟩,
   ⟨diskBusy, 6, [], noDisk, by decide⟩,
   ⟨commanded (1, []), [], { noDisk with error := false }, by decide⟩,
   ⟨commanded (4, [0]), diskSet, [0], { noDisk with error := false }, by decide⟩,
   ⟨journaling, diskSet, by decide⟩,
   ⟨journaling, diskSet, 9, by decide⟩,
   ⟨writing (some diskPos), diskSet, 9, diskRec, diskPos, by decide +kernel⟩,
   ⟨writing none, diskSet, 9, diskRec, [], by decide +kernel⟩,
   ⟨journaling.setDisk { journaling.disk with writes := [(4, .data 9 0 64 7, false)] }, diskSet, 4, .data 9 0 64 7, false, by decide⟩,
   ⟨journaling.setStream 9 { Stream.reset with disk := some diskPos }, 9, { Stream.reset with disk := some diskPos }, diskPos, by decide⟩,
   ⟨journaling, diskSet, 15, by decide⟩⟩

set_option maxRecDepth 1000000 in
theorem witness_display_commands_complete :
    (∃ (s : State) (o : Nat), (o < 2) ∧ (s.maySwap .display = true) ∧ ((s.output o).left = true)) ∧
    (∃ (s : State) (o b : Nat), (o < 2) ∧ (s.get (outState o) = 3) ∧ ((s.output o).begun = false) ∧ (s.streamsRun = true) ∧ (s.maySwap .display = false) ∧ ((s.output o).flipAt ≠ some s.cycleNow)) ∧
    (∃ (s : State) (o y k : Nat), (o < 2) ∧ (s.get (outState o) = 3) ∧ (s.on (Reg.DSP_OCFG_OVLEN.e o) = true) ∧ (y < s.get (Reg.DSP_VTIM_VACT.e o)) ∧ ((s.output o).abort = none)) ∧
    (∃ (s : State) (o v : Nat), (o < 2) ∧ (v < 2)) ∧
    (∃ (s : State) (o : Nat), (o < 2) ∧ (s.get (outState o) = 1) ∧ (s.on (Reg.DSP_OCFG_AUTOTR.e o) = true) ∧ (bit (s.get Reg.SEC_WITHDRAWN_CANVAS.z) o = false)) ∧
    (∃ (s : State) (o : Nat), (o < 2) ∧ (s.get (outState o) ≠ 0) ∧ (s.get (outState o) ≠ 1) ∧ (bit (s.get Reg.SEC_WITHDRAWN_CANVAS.z) o = false)) ∧
    (∃ (s : State) (o : Nat), (o < 2)) ∧
    (∃ (s : State) (o rate lanes : Nat), (o < 2) ∧ (rate < 6) ∧ (lanes < 3) ∧ (rate ≤ s.get (Reg.DSP_OCFG_MAXRATE.e o)) ∧ (lanes ≤ s.get (Reg.DSP_OCFG_MAXLN.e o)) ∧ (s.get (outState o) = 2) ∧ (bit (s.get Reg.SEC_WITHDRAWN_CANVAS.z) o = false)) ∧
    (∃ (s : State) (o : Nat), (o < 2) ∧ (s.get (outState o) = 3 ∨ s.get (outState o) = 4) ∧ (bit (s.get Reg.SEC_WITHDRAWN_CANVAS.z) o = false)) ∧
    (∃ (s : State) (o : Nat), (s.get (outState o) ≠ 3) ∧ (s.get (outState o) ≠ 4)) ∧
    (∃ (s : State) (o : Nat), (o < 2) ∧ (s.on (Reg.DSP_AUXST_BUSY.e o) = false)) ∧
    (∃ (s : State) (o : Nat), (o < 2) ∧ (s.on (Reg.DSP_AUXST_BUSY.e o) = false)) ∧
    (∃ (s : State) (o : Nat), (o < 2) ∧ (s.on (Reg.DSP_AUXST_BUSY.e o) = false)) ∧
    (∃ (s : State) (o : Nat), (o < 2) ∧ (s.on (Reg.DSP_AUXST_BUSY.e o) = false)) ∧
    (∃ (s : State) (o r : Nat) (d : List Byte), (o < 2) ∧ (r < 8) ∧ (s.on (Reg.DSP_AUXST_BUSY.e o) = true)) ∧
    (∃ (s : State), (s.runs = true) ∧ (s.on Reg.DSP_TCFG_EN.z = true) ∧ (s.dsp.reading = false) ∧ (s.get Reg.DSP_TCFG_POLL.z ≠ 0)) ∧
    (∃ (s : State) (l : List Byte), (s.dsp.reading = true)) :=
  ⟨⟨dspSwapping, 1, by decide⟩,
   ⟨shown, 1, 0, by decide +kernel⟩,
   ⟨overlaid, 1, 9, 3, by decide⟩,
   ⟨full, 1, 1, by decide⟩,
   ⟨full.put (outState 1) 1, 1, by decide⟩,
   ⟨shown, 1, by decide⟩,
   ⟨shown, 1, by decide⟩,
   ⟨full.put (outState 1) 2, 1, 5, 2, by decide⟩,
   ⟨shown, 1, by decide⟩,
   ⟨full, 1, by decide⟩,
   ⟨full, 1, by decide⟩,
   ⟨full, 1, by decide⟩,
   ⟨full, 1, by decide⟩,
   ⟨full, 1, by decide⟩,
   ⟨full.flag (Reg.DSP_AUXST_BUSY.e 1) true, 1, 0, [5], by decide⟩,
   ⟨(full.flag Reg.DSP_TCFG_EN.z true).put Reg.DSP_TCFG_POLL.z 1, by decide⟩,
   ⟨{ full with dsp := { full.dsp with reading := true } }, [], by decide⟩⟩

set_option maxRecDepth 1000000 in
theorem witness_stimulus_and_calibration_commands_complete :
    (∃ (s : State) (c : Nat), (c < 16) ∧ (s.get (stmState c) = 2)) ∧
    (∃ (s : State) (c tc : Nat), (c < 16) ∧ ((s.chn c).tc = some tc) ∧ (s.get (stmState c) = 1) ∧ (s.get Reg.PWR_STAT_MODE.z = 4)) ∧
    (∃ (s : State) (c : Nat) (m : List Nat), (c < 16) ∧ (s.stmRuns c = true) ∧ (s.get Reg.PWR_STAT_MODE.z = 4) ∧ (s.maySwap .stimulus = false)) ∧
    (∃ (s : State) (c : Nat), (s.maySwap .stimulus = true) ∧ (s.stm.left.contains c = true) ∧ (s.stmRuns c = false)) ∧
    (∃ (s : State) (a p : Bool), (s.stm.run = none) ∧ (s.calShared 1 s.calTargets = none) ∧ ((s.calTargets.map (s.calOwn 1)).contains none = true)) ∧
    (∃ (s : State) (a p : Bool), (s.stm.run = none) ∧ (s.calShared 2 s.calTargets = none) ∧ ((s.calTargets.map (s.calOwn 2)).contains none = true)) ∧
    (∃ (s : State) (a p : Bool), (s.stm.run = none) ∧ (s.calShared 3 s.calTargets = none) ∧ ((s.calTargets.map (s.calOwn 3)).contains none = true)) ∧
    (∃ (s : State) (a p : Bool), (s.stm.run = none) ∧ (s.calShared 4 s.calTargets = none) ∧ ((s.calTargets.map (s.calOwn 4)).contains none = true)) ∧
    (∃ (s : State) (a p : Bool), (s.stm.run = none) ∧ (s.calShared 5 s.calTargets = none) ∧ ((s.calTargets.map (s.calOwn 5)).contains none = true)) ∧
    (∃ (s : State) (c : CalRun) (a p : Bool), (s.stm.run = some c)) ∧
    (∃ (s : State) (c : CalRun), (s.stm.run = some c)) ∧
    (∃ (s : State) (r : CalResult), (s.stm.run = none) ∧ (s.stm.kept = [r]) ∧ (s.stm.keptOp = 2) ∧ (r.status = 0) ∧ (r.target < 128)) ∧
    (∃ (s : State) (c : CalRun), (s.stm.run = some c) ∧ (c.op ≠ 1) ∧ (s.get Reg.CAL_STAT_STATE.z = 2)) ∧
    (∃ (s : State) (c : CalRun), (s.stm.run = some c) ∧ (c.op = 3) ∧ (c.ref = none) ∧ (s.get Reg.CAL_STAT_STATE.z = 3) ∧ (c.targets.all (fun x => x.status.isSome) = true)) :=
  ⟨⟨full.put (stmState 15) 2, 15, by decide⟩,
   ⟨stimIdle, 15, 5, by decide⟩,
   ⟨full.put (stmState 15) 3, 15, [], by decide⟩,
   ⟨stimSwapping, 15, by decide⟩,
   ⟨calibrating, true, false, by decide +kernel⟩,
   ⟨calibrating, true, false, by decide +kernel⟩,
   ⟨calibrating, true, false, by decide +kernel⟩,
   ⟨calibrating, true, false, by decide +kernel⟩,
   ⟨calibrating, true, false, by decide +kernel⟩,
   ⟨calRunning, calRun, true, false, by decide⟩,
   ⟨calRunning, calRun, by decide⟩,
   ⟨calKept, calRes, by decide⟩,
   ⟨calRunning.put Reg.CAL_STAT_STATE.z 2, calRun, by decide⟩,
   ⟨calRunning.put Reg.CAL_STAT_STATE.z 3, calRun, by decide⟩⟩

set_option maxRecDepth 1000000 in
theorem witness_admission_commands_complete :
    (∃ (s : State) (a : Bool), (dzState s ≠ 3) ∧ (s.get Reg.ADM_STAT_STATE.z = 0)) ∧
    (∃ (s : State) (a : Bool), (dzState s ≠ 3) ∧ (s.get Reg.ADM_STAT_STATE.z = 0)) ∧
    (∃ (s : State) (a : Bool), (dzState s ≠ 3) ∧ (s.get Reg.ADM_STAT_STATE.z ≠ 0)) ∧
    (∃ (s : State) (a : Bool), (dzState s ≠ 3) ∧ (s.get Reg.ADM_STAT_STATE.z ≠ 0)) ∧
    (∃ (s : State), (s.adm.held ≠ none) ∧ (s.get Reg.ADM_STAT_STATE.z ≠ 2)) ∧
    (∃ (s : State), (s.get Reg.ADM_STAT_STATE.z = 2)) ∧
    (∃ (s : State), (s.adm.held = none) ∧ (s.get Reg.ADM_STAT_STATE.z ≠ 2)) ∧
    (∃ (s : State) (us : Nat) (r : AdmRequest), (s.adm.request = some r) ∧ (s.adm.partnerWait = false) ∧ (s.pair.creq = none) ∧ (s.adm.held = none) ∧ (r.commit = false) ∧ (s.syncedPrimary = false)) ∧
    (∃ (s : State), (s.get Reg.ADM_STAT_STATE.z = 2) ∧ (¬ s.now < s.adm.instant.getD 0 ∨ s.get Reg.PWR_STAT_MODE.z = 2)) :=
  ⟨⟨full, true, by decide⟩,
   ⟨full, true, by decide⟩,
   ⟨full.put Reg.ADM_STAT_STATE.z 3, true, by decide⟩,
   ⟨full.put Reg.ADM_STAT_STATE.z 3, true, by decide⟩,
   ⟨{ full with adm := { full.adm with held := some ⟨true, true, none⟩ } }, by decide⟩,
   ⟨full.put Reg.ADM_STAT_STATE.z 2, by decide +kernel⟩,
   ⟨full, by decide⟩,
   ⟨checking, 7, ⟨false, true, none⟩, by decide⟩,
   ⟨up.put Reg.ADM_STAT_STATE.z 2, by decide⟩⟩

set_option maxRecDepth 1000000 in
theorem witness_clock_commands_complete :
    (∃ (s : State), (s.get Reg.PWR_STAT_MODE.z = 2) ∧ ((s.applyClkRef (s.word Reg.CLK_REF_FREFA.off)).on Reg.CLK_STAT_CFGERR.z = false)) ∧
    (∃ (s : State), (s.get Reg.PWR_STAT_MODE.z ≠ 2) ∧ (s.get Reg.CLK_STAT_STATE.z ≠ 0)) ∧
    (∃ (s : State), (s.get Reg.PWR_STAT_MODE.z = 2)) ∧
    (∃ (s : State), (s.get Reg.PWR_STAT_MODE.z ≠ 2)) ∧
    (∃ (s : State) (l : List Word), (s.clk.bandcal = true)) ∧
    (∃ (s : State) (n b : Nat), (s.get Reg.CLK_STAT_STATE.z ≤ 1) ∧ (s.clk.locking = true) ∧ (s.nFor s.adm.fcommit = n) ∧ (n < 2 ^ Reg.CLK_N_N.w) ∧ (s.bandFor n n = some b) ∧ (b < 16) ∧ (s.on Reg.CLK_STAT_CFGERR.z = false)) ∧
    (∃ (s : State) (n b : Nat), (1 < s.get Reg.CLK_STAT_STATE.z) ∧ (s.get Reg.CLK_STAT_STATE.z ≠ 4) ∧ (s.get Reg.CLK_N_N.z = n) ∧ (n < s.nFor s.ftarget) ∧ (n + 1 < 2 ^ Reg.CLK_N_N.w) ∧ (b < 16) ∧ (s.get Reg.CLK_STAT_BAND.z = b) ∧ (s.bandCovers b n = true) ∧ (s.bandCovers b (n + 1) = true)) ∧
    (∃ (s : State), (s.get Reg.CLK_CNT_GLITCH.z ≠ 0)) ∧
    (∃ (s : State), (s.get Reg.CLK_STAT_STATE.z = 4) ∧ (s.get Reg.CLK_CTRL_HOLDMAX.z ≠ 0) ∧ (s.get Reg.PWR_STAT_MODE.z = 2)) ∧
    (∃ (s : State), (1 < s.get Reg.CLK_STAT_STATE.z)) ∧
    (∃ (s : State) (k v : Nat), (k < 2) ∧ (v < 2) ∧ (s.get (Reg.CLK_AUX0_STATE.e k) ≠ v) ∧ (s.auxRuns = true ∨ v = 0)) ∧
    (∃ (s : State) (k : Nat) (v : Word), (k < 4)) ∧
    (∃ (s : State), (s.on Reg.CLK_SYSREF_MODE.z = true) ∧ (s.on Reg.CLK_SYSREF_EN.z = true) ∧ (s.clk.burst = 0)) :=
  ⟨⟨up, by decide⟩,
   ⟨full.put Reg.CLK_STAT_STATE.z 2, by decide⟩,
   ⟨up, by decide⟩,
   ⟨full, by decide⟩,
   ⟨{ up with clk := { up.clk with bandcal := true } }, [5], by decide⟩,
   ⟨locking, locking.nFor locking.adm.fcommit, 3, by decide +kernel⟩,
   ⟨walking, walking.get Reg.CLK_N_N.z, 3, by decide +kernel⟩,
   ⟨up.put Reg.CLK_CNT_GLITCH.z 5, by decide⟩,
   ⟨(up.put Reg.CLK_STAT_STATE.z 4).put Reg.CLK_CTRL_HOLDMAX.z 1, by decide⟩,
   ⟨up.put Reg.CLK_STAT_STATE.z 2, by decide⟩,
   ⟨(full.put Reg.CLK_STAT_STATE.z 2).put (Reg.CLK_AUX0_STATE.e 1) 2, 1, 1, by decide⟩,
   ⟨up, 3, 0x80000005, by decide⟩,
   ⟨(up.flag Reg.CLK_SYSREF_MODE.z true).flag Reg.CLK_SYSREF_EN.z true, by decide⟩⟩

set_option maxRecDepth 1000000 in
theorem witness_power_commands_complete :
    (∃ (s : State), (s.pwr.trans = none) ∧ (s.ordering = false) ∧ (s.get Reg.PWR_STAT_MODE.z = 4)) ∧
    (∃ (s : State), (s.pwr.trans = none) ∧ (s.ordering = false) ∧ (s.get Reg.PWR_STAT_MODE.z = 2) ∧ (s.modeRefused = false)) ∧
    (∃ (s : State), (s.pwr.trans = none) ∧ (s.ordering = false) ∧ (s.get Reg.PWR_STAT_MODE.z = 2) ∧ (s.modeRefused = false)) ∧
    (∃ (s : State), (s.pwr.trans = none) ∧ (s.ordering = false) ∧ (s.get Reg.PWR_STAT_MODE.z = 2) ∧ (s.modeRefused = true)) ∧
    (∃ (s : State), (s.pwr.trans = none) ∧ (s.ordering = false) ∧ (s.get Reg.PWR_STAT_MODE.z = 2) ∧ (s.modeRefused = true)) ∧
    (∃ (s : State), (s.pwr.trans = none) ∧ (s.ordering = false) ∧ (s.get Reg.PWR_STAT_MODE.z = 2)) ∧
    (∃ (s : State), (s.pwr.trans ≠ none) ∧ (s.ordering = false)) ∧
    (∃ (s : State) (x : Transition), (s.pwr.trans = some x) ∧ (s.ordering = false) ∧ (((x.target = 3 ∧ s.get Reg.PWR_STAT_MODE.z = 4) ∨ (x.target = 4 ∧ s.get Reg.PWR_STAT_MODE.z = 3)))) ∧
    (∃ (s : State) (x : Transition), (s.pwr.trans = some x) ∧ (s.ordering = false) ∧ (¬((x.target = 3 ∧ s.get Reg.PWR_STAT_MODE.z = 4) ∨ (x.target = 4 ∧ s.get Reg.PWR_STAT_MODE.z = 3)))) ∧
    (∃ (s : State) (k : Nat), (s.pwr.trans = none) ∧ (s.paired = false) ∧ (s.get Reg.PWR_STAT_MODE.z = 3) ∧ (s.modeRefused = false) ∧ (0 < k) ∧ (k < 4)) ∧
    (∃ (s : State) (x : Transition), (s.pwr.trans = some x) ∧ (x.target = 3) ∧ (s.get Reg.PWR_STAT_MODE.z = 2) ∧ (s.pwr.held = none)) ∧
    (∃ (s : State), (s.pwr.trans = none) ∧ (s.pwr.rises = []) ∧ (s.pwr.falls = [])) ∧
    (∃ (s : State) (i : Nat), (9 ≤ i) ∧ (i < 47) ∧ (s.pwr.trans = none) ∧ (s.pwr.rising.contains i = true)) ∧
    (∃ (s : State), (s.pwr.checkDue = true)) ∧
    (∃ (s : State) (i : Nat) (g x : Bool), (2 < i) ∧ (i < 7) ∧ (s.alive = true) ∧ (s.pwr.cause ≠ 2) ∧ (s.on { Reg.PWR_STAT_SUPGOOD.z with lo := i, w := 1 } ≠ g)) ∧
    (∃ (s : State) (i : Nat), (3 ≤ i) ∧ (i ≤ 6) ∧ (s.runs = true)) ∧
    (∃ (s : State), (s.sec.supply = true) ∧ (s.get Reg.PWR_STAT_SUPGOOD.z % 8 = 7) ∧ (s.sec.pin = false) ∧ (s.sec.wait = false) ∧ (s.pwr.tripHold = false)) ∧
    (∃ (s : State), (s.alive = true) ∧ (s.pwr.sensors = []) ∧ (s.ceilHeld = false)) ∧
    (∃ (s : State) (k : Nat) (r : Int), (k < 20) ∧ (s.alive = true) ∧ (s.ceilHeld = false) ∧ (s.pwr.sensors = []) ∧ (s.on (Reg.THM_S_FAIL.e k) = false) ∧ (-640 ≤ r ∧ r ≤ 2400)) ∧
    (∃ (s : State), (s.alive = true)) ∧
    (∃ (s : State) (k e raw : Nat), (k < 2) ∧ (e < 16) ∧ (s.on (if k = 0 then Reg.HK_CTRL_EN0.z else Reg.HK_CTRL_EN1.z) = true) ∧ (s.on (Reg.HK_SEQ_EN.e2 k e) = true) ∧ (s.monitoring k = false) ∧ (s.on (Reg.HK_SEQ_SIM.e2 0 e) = false)) ∧
    (∃ (s : State) (conv ch : Nat), (conv < 3) ∧ (ch < 18)) ∧
    (∃ (s : State) (k raw : Nat) (u : Urgent) (l : List Urgent), (k < 2) ∧ (s.urgQueue k = u :: l) ∧ (u.num < 256) ∧ (u.governor = false)) :=
  ⟨⟨full, by decide⟩,
   ⟨awake, by decide +kernel⟩,
   ⟨awake, by decide +kernel⟩,
   ⟨up, by decide⟩,
   ⟨up, by decide⟩,
   ⟨up, by decide⟩,
   ⟨{ full with pwr := { full.pwr with trans := some ⟨2, none⟩ } }, by decide⟩,
   ⟨{ full with pwr := { full.pwr with trans := some ⟨3, none⟩ } }, ⟨3, none⟩, by decide⟩,
   ⟨{ full with pwr := { full.pwr with trans := some ⟨2, none⟩ } }, ⟨2, none⟩, by decide⟩,
   ⟨awake.put Reg.PWR_STAT_MODE.z 3, 1, by decide +kernel⟩,
   ⟨{ awake with pwr := { awake.pwr with trans := some ⟨3, none⟩ } }, ⟨3, none⟩, by decide⟩,
   ⟨full, by decide⟩,
   ⟨{ full with pwr := { full.pwr with rising := [9] } }, 9, by decide⟩,
   ⟨{ full with pwr := { full.pwr with checkDue := true } }, by decide⟩,
   ⟨up, 3, !up.on { Reg.PWR_STAT_SUPGOOD.z with lo := 3, w := 1 }, false, by decide⟩,
   ⟨full, 6, by decide⟩,
   ⟨supplied, by decide⟩,
   ⟨full, by decide⟩,
   ⟨full, 19, 480, by decide +kernel⟩,
   ⟨full, by decide⟩,
   ⟨full.flag (Reg.HK_SEQ_EN.e2 1 15) true, 1, 15, 7, by decide⟩,
   ⟨full, 2, 17, by decide⟩,
   ⟨{ full with pwr := { full.pwr with urg1 := [⟨5, 3, false⟩] } }, 1, 7, ⟨5, 3, false⟩, [], by decide⟩⟩

theorem witness_start_and_security_commands_complete :
    (∃ (s : State) (c m : Nat), (s.alive = true) ∧ (s.sec.step = some 0) ∧ (s.suppliesLow = false) ∧ (s.get (stepConsec 0) = 0) ∧ (s.sec.keepOk = false)) ∧
    (∃ (s : State) (c m : Nat), (s.alive = true) ∧ (s.sec.step = some 12) ∧ (s.get (stepConsec 12) = 0) ∧ (s.sec.keepOk = false) ∧ (s.get Reg.PWR_CFG_BOOTMODE.z = 0)) ∧
    (∃ (s : State), (bit (s.get Reg.PWR_STAT_SUPGOOD.z) 7 = true) ∧ (s.pwr.tripHold = true ∨ s.sec.supply = true)) ∧
    (∃ (s : State), (bit (s.get Reg.PWR_STAT_SUPGOOD.z) 7 = true) ∧ (s.pwr.tripHold = false) ∧ (s.sec.supply = false)) ∧
    (∃ (s : State), (s.sec.pin = true) ∧ (s.sec.supply = false) ∧ (s.sec.wait = false)) ∧
    (∃ (s : State), (s.sec.wait = true) ∧ (s.sec.pin = false) ∧ (s.sec.supply = false) ∧ (s.pwr.tripHold = false)) ∧
    (∃ (s : State), (s.alive = true) ∧ (s.sec.step = none) ∧ (s.sec.image ≠ none) ∧ (s.get Reg.SEC_WDT_TMO.z ≠ 0)) ∧
    (∃ (s : State), (s.on Reg.SEC_STAT_BUSY.z = false) ∧ (s.on Reg.SEC_STAT_SAFE.z = false)) ∧
    (∃ (s : State), (s.on Reg.SEC_STAT_BUSY.z = false) ∧ (s.get Reg.SEC_STAT_LC.z = 0)) ∧
    (∃ (s : State), (s.on Reg.SEC_STAT_BUSY.z = false) ∧ (s.get Reg.SEC_STAT_LC.z = 0) ∧ (leAt (s.octets Reg.SEC_TOKEN_DATA 0 100) 0 1 = 3) ∧ (leAt (s.octets Reg.SEC_TOKEN_DATA 0 100) 1 3 = 0)) ∧
    (∃ (s : State) (v : Nat), (s.on Reg.SEC_STAT_BUSY.z = false) ∧ (signed (s.get Reg.SEC_STAT_LC.z) = true) ∧ (s.get Reg.SEC_ARG_ARG.z = v) ∧ (svnOf s.sec.voted ≤ v) ∧ (v < 64)) ∧
    (∃ (s : State) (v : Nat), (s.on Reg.SEC_STAT_BUSY.z = false) ∧ (signed (s.get Reg.SEC_STAT_LC.z) = true) ∧ (s.get Reg.SEC_ARG_ARG.z = v) ∧ (v < 7) ∧ (s.sec.image = none)) ∧
    (∃ (s : State) (f : Fuses), (s.sec.burn = some f)) ∧
    (∃ (s : State) (a : Nat), (s.on Reg.SEC_STAT_BUSY.z = false) ∧ (s.get Reg.SEC_FLADDR_ADDR.z = a)) ∧
    (∃ (s : State) (a : Nat), (s.on Reg.SEC_STAT_BUSY.z = false) ∧ (s.get Reg.SEC_FLADDR_ADDR.z = a) ∧ (a % 256 = 0) ∧ (s.sec.image = none)) ∧
    (∃ (s : State) (a : Nat), (s.on Reg.SEC_STAT_BUSY.z = false) ∧ (s.get Reg.SEC_FLADDR_ADDR.z = a) ∧ (a % 65536 = 0) ∧ (s.sec.image = none)) ∧
    (∃ (s : State) (a : Nat), (s.sec.flashOp = some ⟨2, a⟩)) ∧
    (∃ (s : State) (n : Nat), (s.on Reg.SEC_STAT_BUSY.z = false) ∧ (n < 64)) ∧
    (∃ (s : State) (n : Nat), (n < 64) ∧ (s.sec.verify = some n)) ∧
    (∃ (s : State), (s.on Reg.SEC_STAT_BUSY.z = true)) ∧
    (∃ (s : State), (s.tap = true)) ∧
    (∃ (s : State) (l : Nat) (g : List Byte), (s.tap = true) ∧ (s.on Reg.SEC_STAT_LOCKOUT.z = false) ∧ (0 < l) ∧ (l < 3) ∧ (signed (s.get Reg.SEC_STAT_LC.z) = false) ∧ (s.get Reg.SEC_STAT_LC.z ≠ 2) ∧ (s.get Reg.SEC_STAT_DBG.z ≠ l)) ∧
    (∃ (s : State) (g : List Byte), (s.tap = true) ∧ (s.on Reg.SEC_STAT_LOCKOUT.z = false)) ∧
    (∃ (s : State), (s.tap = true) ∧ (s.get Reg.SEC_STAT_DBG.z ≠ 0)) ∧
    (∃ (s : State) (c : List Bool), (s.scanOk = true)) ∧
    (∃ (s : State) (p c : List Bool), (s.scanOk = true)) :=
  ⟨⟨starting 0, 0, 0, by decide⟩,
   ⟨starting 12, 0, 0, by decide⟩,
   ⟨{ awake with pwr := { awake.pwr with tripHold := true } }, by decide⟩,
   ⟨awake, by decide⟩,
   ⟨{ up with sec := { up.sec with pin := true } }, by decide⟩,
   ⟨{ up with sec := { up.sec with wait := true } }, by decide⟩,
   ⟨{ up.put Reg.SEC_WDT_TMO.z 1 with sec := { up.sec with image := some 0 } }, by decide⟩,
   ⟨up, by decide⟩,
   ⟨up, by decide⟩,
   ⟨up.setWord Reg.SEC_TOKEN_DATA.off 3, by decide⟩,
   ⟨signedUp, 5, by decide⟩,
   ⟨signedUp, 5, by decide⟩,
   ⟨{ up with sec := { up.sec with burn := some up.sec.voted } }, up.sec.voted, by decide⟩,
   ⟨up, 0, by decide⟩,
   ⟨up, 0, by decide⟩,
   ⟨up, 0, by decide⟩,
   ⟨{ up with sec := { up.sec with flashOp := some ⟨2, 256⟩ } }, 256, by decide⟩,
   ⟨up, 63, by decide⟩,
   ⟨{ up with sec := { up.sec with verify := some 63 } }, 63, by decide⟩,
   ⟨up.flag Reg.SEC_STAT_BUSY.z true, by decide⟩,
   ⟨up, by decide⟩,
   ⟨up, 2, [], by decide⟩,
   ⟨up, [], by decide⟩,
   ⟨up.put Reg.SEC_STAT_DBG.z 1, by decide⟩,
   ⟨up, [true], by decide⟩,
   ⟨up, [], [true], by decide⟩⟩

set_option maxRecDepth 1000000 in
theorem witness_pair_cells_complete :
    (∃ (s : State) (a b c d e f : Nat) (x y ok : Bool) (l : List Byte), (s.linkUp = false)) ∧
    (∃ (s : State) (a b c d e f : Nat) (x y : Bool) (l : List Byte), (s.linkUp = true) ∧ (s.inPair = false)) ∧
    (∃ (s : State) (a b c d e f : Nat) (x y : Bool) (l : List Byte), (s.linkUp = true)) ∧
    (∃ (s : State) (a b c d e f : Nat) (x y : Bool), (s.linkUp = true) ∧ (s.inPair = true) ∧ (a ≠ s.pair.rxNext)) ∧
    (∃ (s : State) (a b c d e f : Nat) (l : List Byte), (s.linkUp = true) ∧ (s.inPair = true) ∧ (s.pair.seen.contains a = true)) ∧
    (∃ (s : State) (role mode pcnt gen ack : Nat), (s.linkUp = true) ∧ (s.inPair = true) ∧ (dzState s = 2) ∧ (dzRole s = 1) ∧ (s.pair.settled = true)) ∧
    (∃ (s : State) (role pstate mode pcnt gen ack : Nat), (s.linkUp = true) ∧ (s.inPair = true) ∧ (dzState s = 1)) ∧
    (∃ (s : State) (m role pcnt digest gen : Nat) (serial : List Byte), (s.linkUp = true) ∧ (s.inPair = true) ∧ (dzState s = 2) ∧ (dzRole s = 1) ∧ (s.pair.settled = false) ∧ (role = 2)) ∧
    (∃ (s : State) (m pcnt digest gen : Nat) (serial : List Byte), (s.linkUp = true) ∧ (s.inPair = true) ∧ (dzState s = 2) ∧ (dzRole s = 2) ∧ (s.pair.settled = false) ∧ (pcnt < 2 ^ 32)) ∧
    (∃ (s : State) (id t1 pid pt a stamp : Nat), (s.linkUp = true) ∧ (s.inPair = true) ∧ (dzRole s = 1) ∧ (stamp = s.quantised a % 2 ^ 80)) ∧
    (∃ (s : State) (id t1 pid pt a stamp t3 : Nat), (s.linkUp = true) ∧ (s.inPair = true) ∧ (dzRole s = 2) ∧ (s.disc = 3) ∧ (dzState s = 2) ∧ (s.pair.syncSent.find? (fun c => c.1 == pid) = some (pid, t3)) ∧ (stamp = s.quantised a % 2 ^ 80)) ∧
    (∃ (s : State) (n st : Nat) (first : Bool) (key oseq digest : Nat), (s.linkUp = true) ∧ (s.inPair = true) ∧ (n = s.pair.rxNext) ∧ ((s.stream st).shadow = [])) ∧
    (∃ (s : State) (n st : Nat) (first : Bool) (key oseq digest : Nat) (r : ShadowRec), (s.linkUp = true) ∧ (s.inPair = true) ∧ (n = s.pair.rxNext) ∧ ((s.stream st).shadow = [r]) ∧ (r.key = key) ∧ (2 ^ 72 ≤ key) ∧ (r.seq = none) ∧ (r.held = true)) ∧
    (∃ (s : State) (n st oseq : Nat), (s.linkUp = true) ∧ (s.inPair = true) ∧ (n = s.pair.rxNext)) ∧
    (∃ (s : State) (n st epoch first : Nat), (s.linkUp = true) ∧ (s.inPair = true) ∧ (n = s.pair.rxNext) ∧ (dzRole s = 2) ∧ (st < 4096) ∧ (epoch < 2 ^ 32) ∧ (first < 2 ^ 32)) ∧
    (∃ (s : State) (n st step : Nat), (s.linkUp = true) ∧ (s.inPair = true) ∧ (n = s.pair.rxNext) ∧ (dzRole s = 2) ∧ (st < 4096)) ∧
    (∃ (s : State) (n i offset : Nat), (s.linkUp = true) ∧ (s.inPair = true) ∧ (n = s.pair.rxNext)) ∧
    (∃ (s : State) (n : Nat) (c a : Bool) (instant gen digest : Nat), (s.linkUp = true) ∧ (s.inPair = true) ∧ (n = s.pair.rxNext) ∧ (dzRole s = 1)) ∧
    (∃ (s u : State) (n : Nat) (c a : Bool) (instant gen digest : Nat), (s.linkUp = true) ∧ (s.inPair = true) ∧ (n = s.pair.rxNext) ∧ (dzRole s = 2) ∧ (u = ({ s with pair := { s.pair with rxNext := (n + 1) % 65536 } } : State).sendAck)) ∧
    (∃ (s : State) (n code need avail : Nat) (r : AdmRequest), (s.linkUp = true) ∧ (s.inPair = true) ∧ (s.adm.request = some r) ∧ (s.adm.partnerWait = true) ∧ (s.adm.held = none) ∧ (s.adm.named = []) ∧ (n = s.pair.rxNext) ∧ (code ≠ 0)) ∧
    (∃ (s : State) (r : AdmRequest), (s.adm.request = some r) ∧ (s.adm.partnerWait = true) ∧ (s.adm.held = none) ∧ (s.adm.named = [])) ∧
    (∃ (s : State) (n op : Nat), (s.linkUp = true) ∧ (s.inPair = true) ∧ (n = s.pair.rxNext) ∧ (dzRole s = 2)) ∧
    (∃ (s : State) (id src : Nat), (s.linkUp = true) ∧ (s.inPair = true) ∧ (s.pair.seen.contains id = false) ∧ (s.pwr.trans = none) ∧ (s.get Reg.PWR_STAT_MODE.z = 3) ∧ (s.modeRefused = false)) ∧
    (∃ (s : State) (id u firing tag tq elem : Nat), (s.linkUp = true) ∧ (s.inPair = true) ∧ (s.pair.seen.contains id = false)) ∧
    (∃ (s : State) (id : Nat) (body : List Byte) (f : PairFire), (s.linkUp = true) ∧ (s.inPair = true) ∧ (s.pair.seen.contains id = false) ∧ (s.pair.fires.find? (fun f => (f.id + 1) % 65536 == id) = some f) ∧ (s.trg.held = [])) ∧
    (∃ (s : State) (id g num tag : Nat), (s.linkUp = true) ∧ (s.inPair = true) ∧ (g < 8) ∧ (s.pair.seen.contains id = false) ∧ (s.runs = true) ∧ (dzRole s ≠ 1) ∧ (s.now < tag)) ∧
    (∃ (s : State) (id g num tag : Nat), (s.linkUp = true) ∧ (s.inPair = true) ∧ (g < 8) ∧ (s.pair.seen.contains id = false) ∧ (s.runs = true) ∧ (dzRole s ≠ 1) ∧ (tag ≤ s.now)) ∧
    (∃ (s : State) (id g num : Nat), (s.linkUp = true) ∧ (s.inPair = true) ∧ (g < 8) ∧ (s.pair.seen.contains id = false) ∧ ((s.group g).arm = num) ∧ ((s.group g).fired = false)) ∧
    (∃ (s : State) (id g num : Nat), (s.linkUp = true) ∧ (s.inPair = true) ∧ (g < 8) ∧ (s.pair.seen.contains id = false) ∧ ((s.group g).arm = num) ∧ ((s.group g).fired = true)) ∧
    (∃ (s : State) (ack : Nat), (s.linkUp = true) ∧ (s.inPair = true) ∧ (s.pair.txWait = [])) :=
  ⟨⟨up, 0, 0, 0, 0, 0, 0, true, true, true, [], by decide⟩,
   ⟨{ inP with pair := { inP.pair with cfg := 0 } }, 0, 0, 0, 0, 0, 0, true, true, [], by decide⟩,
   ⟨inP, 0, 0, 0, 0, 0, 0, true, true, [], by decide⟩,
   ⟨inP, 5, 0, 0, 0, 0, 0, true, true, by decide⟩,
   ⟨{ inP with pair := { inP.pair with seen := [5] } }, 5, 0, 0, 0, 0, 0, [], by decide⟩,
   ⟨{ (inP.put Reg.DZ_STAT_ROLE.z 1) with pair := { inP.pair with settled := true } }, 2, 4, 0, 1, 0, by decide⟩,
   ⟨inP.put Reg.DZ_STAT_PSTATE.z 1, 1, 1, 2, 0, 1, 0, by decide⟩,
   ⟨inP.put Reg.DZ_STAT_ROLE.z 1, 7, 2, 0, 9, 1, [], by decide⟩,
   ⟨inP.put Reg.DZ_STAT_ROLE.z 2, 7, 3, 9, 1, [], by decide⟩,
   ⟨inP.put Reg.DZ_STAT_ROLE.z 1, 1, 2, 3, 4, 5, (inP.put Reg.DZ_STAT_ROLE.z 1).quantised 5 % 2 ^ 80, by decide⟩,
   ⟨standbyIn, 1, 1000, 3, 90000, 70000, standbyIn.quantised 70000 % 2 ^ 80, 500, by decide⟩,
   ⟨standbyIn, 0, 9, true, 77, 5, 3, by decide⟩,
   ⟨standbyIn.setStream 9 { Stream.reset with shadow := [shadowRec] }, 0, 9, true, 2 ^ 72 + 77, 5, 3, shadowRec, by decide⟩,
   ⟨standbyIn.setStream 9 { Stream.reset with shadow := [{ shadowRec with seq := some 4 }] }, 0, 9, 5, by decide⟩,
   ⟨standbyIn, 0, 4095, 7, 9, by decide⟩,
   ⟨standbyIn, 0, 4095, 2, by decide⟩,
   ⟨standbyIn, 0, 127, 12345, by decide⟩,
   ⟨inP.put Reg.DZ_STAT_ROLE.z 1, 0, true, true, 5, 6, 7, by decide⟩,
   ⟨standbyIn, ({ standbyIn with pair := { standbyIn.pair with rxNext := 1 } } : State).sendAck, 0, true, true, 5, 6, 7, by decide, by decide, by decide, by decide, rfl⟩,
   ⟨{ inP with adm := { inP.adm with request := some ⟨true, true, none⟩, partnerWait := true } }, 0, 5, 1, 0, ⟨true, true, none⟩, by decide⟩,
   ⟨{ inP with adm := { inP.adm with request := some ⟨true, true, none⟩, partnerWait := true } }, ⟨true, true, none⟩, by decide⟩,
   ⟨standbyIn, 0, 1, by decide⟩,
   ⟨wakeIn, 0, 1, by decide +kernel⟩,
   ⟨pairUnit, 0, 6, 1, 2, 3, 4, by decide⟩,
   ⟨{ inP with pair := { inP.pair with fires := [⟨4, 6, 1, 2⟩] } }, 5, [1, 2], ⟨4, 6, 1, 2⟩, by decide⟩,
   ⟨standbyIn.put Reg.PWR_STAT_MODE.z 4, 0, 7, 3, standbyIn.now + 1000, by decide⟩,
   ⟨standbyIn.put Reg.PWR_STAT_MODE.z 4, 0, 7, 3, 0, by decide⟩,
   ⟨standbyIn, 0, 7, standbyIn.group 7 |>.arm, by decide⟩,
   ⟨standbyIn.setGroup 7 ⟨0, none, true⟩, 0, 7, 0, by decide⟩,
   ⟨{ inP with pair := { inP.pair with unacked := [⟨1, 0x10, zeros 24⟩, ⟨2, 0x11, []⟩] } }, 1, by decide⟩⟩

theorem witness_pair_role_commands_complete :
    (∃ (s : State) (n : Nat) (c : LinkCell), (s.linkUp = true) ∧ (s.pair.unacked.find? (fun c => c.seq == n) = some c)) ∧
    (∃ (s : State), (s.inPair = true) ∧ (s.linkUp = true)) ∧
    (∃ (s : State) (stamp : Nat), (s.inPair = true) ∧ (s.linkUp = true) ∧ (s.pair.silent < 15)) ∧
    (∃ (s : State) (stamp : Nat), (s.inPair = true) ∧ (15 ≤ s.pair.silent) ∧ (dzState s = 3) ∧ (s.on Reg.DZ_STAT_TLOCK.z = true)) ∧
    (∃ (s : State), (s.ordering = true)) ∧
    (∃ (s : State) (st oseq : Nat) (o : OrderCell), (s.pair.orders.find? (fun o => o.stream == st && o.seq == oseq) = some o) ∧ (s.get Reg.DZ_ORDMISS_COUNT.z < 2 ^ 32 - 1) ∧ (sentCovers (s.sentLast st (o.key / 2 ^ 72 == 7 && s.vitaPort st)) oseq = false)) ∧
    (∃ (s : State), (s.inPair = true) ∧ (dzState s = 3) ∧ (s.dzOn Reg.DZ_CFG_WEN = true) ∧ (s.on Reg.DZ_STAT_WITNESS.z = false)) ∧
    (∃ (s : State), (s.inPair = true) ∧ (dzState s = 3) ∧ (dzRole s = 1) ∧ (s.adm.request = none)) ∧
    (∃ (s : State), (s.inPair = true) ∧ (dzState s = 3) ∧ (dzRole s = 2) ∧ (s.adm.request = none) ∧ (s.dzOn Reg.DZ_CFG_AUTOPROM = true)) ∧
    (∃ (s : State) (n : Nat), (s.linkUp = true) ∧ (s.inPair = true) ∧ (dzState s = 3) ∧ (dzRole s = 1) ∧ (s.adm.request = none) ∧ (n = s.pair.rxNext)) ∧
    (∃ (s : State), (s.syncedPrimary = true) ∧ (s.pair.switching = false) ∧ (s.linkUp = true) ∧ (s.pair.unacked.length < linkWindow) ∧ (s.pair.txWait = [])) ∧
    (∃ (s : State), (s.ordering = true) ∧ (s.pair.switching = true)) ∧
    (∃ (s u : State) (n : Nat), (s.linkUp = true) ∧ (s.inPair = true) ∧ (n = s.pair.rxNext) ∧ (dzRole s = 2) ∧ (s.pair.settled = true) ∧ (u = ({ s with pair := { s.pair with rxNext := (n + 1) % 65536 } } : State).sendAck)) ∧
    (∃ (s : State) (n : Nat), (s.linkUp = true) ∧ (s.inPair = true) ∧ (n = s.pair.rxNext) ∧ (dzRole s = 2) ∧ (s.pair.settled = true)) ∧
    (∃ (s : State), (s.inPair = true)) ∧
    (∃ (s : State), (bit (s.word Reg.DZ_CFG_EN.off).toNat 31 = true)) ∧
    (∃ (s : State), (bit (s.word Reg.DZ_CFG_EN.off).toNat 31 = false)) ∧
    (∃ (s : State) (l v : Nat), (l < 8) ∧ (0 < v) ∧ (v < 5) ∧ (s.linkRuns = true) ∧ (s.get (Reg.DZ_LSTAT_STATE.e l) ≠ v)) :=
  ⟨⟨{ inP with pair := { inP.pair with unacked := [⟨1, 0x10, zeros 24⟩] } }, 1, ⟨1, 0x10, zeros 24⟩, by decide⟩,
   ⟨inP, by decide⟩,
   ⟨inP.put Reg.DZ_STAT_ROLE.z 1, 77, by decide⟩,
   ⟨{ syncedP.flag Reg.DZ_STAT_TLOCK.z true with pair := { syncedP.pair with silent := 15 } }, 77, by decide⟩,
   ⟨syncedP, by decide⟩,
   ⟨{ standbyIn with pair := { standbyIn.pair with orders := [⟨9, true, 77, 5, 3⟩] } }, 9, 5, ⟨9, true, 77, 5, 3⟩, by decide⟩,
   ⟨{ syncedP with pair := { syncedP.pair with cfg := 0x81000000 } }, by decide⟩,
   ⟨syncedP, by decide⟩,
   ⟨{ syncedP.put Reg.DZ_STAT_ROLE.z 2 with pair := { syncedP.pair with cfg := BitVec.ofNat 32 (2 ^ 31 + 2 ^ Reg.DZ_CFG_AUTOPROM.lo) } }, by decide⟩,
   ⟨syncedP, 0, by decide⟩,
   ⟨syncedP, by decide⟩,
   ⟨{ syncedP with pair := { syncedP.pair with switching := true } }, by decide⟩,
   ⟨settledStandby, ({ settledStandby with pair := { settledStandby.pair with rxNext := 1 } } : State).sendAck, 0, by decide, by decide, by decide, by decide, by decide, rfl⟩,
   ⟨settledStandby, 0, by decide⟩,
   ⟨inP, by decide⟩,
   ⟨inP.setWord Reg.DZ_CFG_EN.off 0x80000000, by decide⟩,
   ⟨inP, by decide⟩,
   ⟨inP, 7, 4, by decide⟩⟩

theorem witness_step_keeps_the_tables :
    ∃ (s t : State), (s.tidy) :=
  ⟨{ State.reset with pending := [.heartbeatSend] }, State.reset, by decide, rfl⟩

set_option maxRecDepth 1000000 in
/-- Parameter blocks that the bench takes, in one granule each. -/
theorem witness_bench_blocks :
    (∀ p ∈ [(1, bmacBlock), (2, boutBlock), (3, bmovBlock), (4, bfftBlock)],
      (benched p.2).readyAt 3 = true ∧ (benched p.2).benchFault 3 p.1 0 0 p.2 = 0 ∧ (benched p.2).tileBytes 3 0 32 = p.2) ∧
    (∀ p ∈ [(1, bmacBlock), (2, boutBlock), (3, bmovBlock), (4, bfftBlock)], benchGranules p.1 p.2 = 1) := by decide +kernel


/-! ### Ill-formed commands (WellFormed.lean) -/

theorem test_ill_formed_1 : ([.registerWrite .bar0 (2 ^ 26) 0, .registerWrite .bar0 2 0, .rlRead .bar0 (2 ^ 26), .rlRead .bar0 2,
    .badAccess .bar0 false 0 4 (2 ^ 64),
    .eventOccurrence (512), .evtPendClear (512) false, .evtCfgWrite (512) 0, .objRead false (65536) 0,
    .objRead false 0 (256), .objWrite false false (65536) 0 0 [], .objWrite false false 0 (256) 0 [], .objWrite false false 0 0 (256) [],
    .objReadRange false (65536) 0 0, .objReadRange false 0 (256) 0, .objReadRange false 0 0 (256), .objDescribe (65536) 0,
    .objDescribe 0 (256), .objSubscribe 0 [], .ptpEventRx (8) 0 [] [], .ptpTxTimestamp (8) 0 [],
    .ptpPop (8), .laneSignalDetect (128), .lossOfSignal (128), .adaptationDone (128),
    .adaptTimeout (128), .lmbRx (128) lmbLine 0, .blockLockLoss (128), .frameVerdict (128) lmbLine 0,
    .frameLongCheck (128) lmbLine, .gapInterim (128), .ratefaultClear (128), .jesdLinkLock (128) false,
    .jesdMultiblockRelease (128) 0 [] 0 false false, .fastPathSample (128) 0 0 0 false, .sampleRelease (128), .ingressSwap (128),
    .coarseSpectrum (128) false 0, .sketchSpectrum (128) 0, .sketchDeadline (128) 0, .cchSwap (128) 0,
    .coarseVoidDeadline (128) 0, .fineSpectrumDue (128) 0, .fineSpectrum (128) 0 0, .fchSwap (128),
    .intervalDeadline (1024) 0, .detectorRecordClose (1024) 0, .sketchRecordHoldEnd (1024) 0, .dvwClrHold (1024),
    .dvwClrPersist (1024), .viewSwap (1024), .viewDrained (1024), .viewRateStep (1024) 0 0,
    .tunerOutput (256), .tunerSwap (256), .glazeEnd (256), .tunerDrained (256),
    .tunerStepChange (256), .triggerProduct (32) 0 0, .triggerFire (32), .holdoffEnd (32)] : List Instr).all (fun c => !c.wf) = true := by decide

theorem test_ill_formed_2 : ([.trgArm 8 true, .trgArm 32 false, .trgDisarm 32 false, .trgDisarm 8 true, .trgForce (32) false, .forceScheduled (32),
    .trigInEdge (8) false false 0, .softTrigger (64) 0 false, .softTrigger 0 (32) false, .pairGroupArm (8),
    .toutAlignedEdge (8), .toutPulseEnd (8), .triggerRecordRelease (32), .triggerRecordDequeue (4096),
    .triggerUnitSwap (32), .capRequest (32), .seamAbsentDeadline (128) 0, .ldb (64) ⟨true, 0, 0, 0, 0, 0⟩,
    .ldbu (64) ⟨true, 0, 0, 0, 0, 0⟩, .ldh (64) ⟨true, 0, 0, 0, 0, 0⟩, .ldhu (64) ⟨true, 0, 0, 0, 0, 0⟩, .ldw (64) ⟨true, 0, 0, 0, 0, 0⟩,
    .ldd (64) ⟨true, 0, 0, 0, 0, 0⟩, .ldq (64) ⟨true, 0, 0, 0, 0, 0⟩, .lea (64) ⟨true, 0, 0, 0, 0, 0⟩, .stb (64) ⟨true, 0, 0, 0, 0, 0⟩,
    .sth (64) ⟨true, 0, 0, 0, 0, 0⟩, .stw (64) ⟨true, 0, 0, 0, 0, 0⟩, .std (64) ⟨true, 0, 0, 0, 0, 0⟩, .stq (64) ⟨true, 0, 0, 0, 0, 0⟩,
    .stac (64) ⟨true, 0, 0, 0, 0, 0⟩, .lkacq (64) ⟨true, 0, 0, 0, 0, 0⟩, .lkrel (64) ⟨true, 0, 0, 0, 0, 0⟩, .cmac (64) ⟨true, 0, 0, 0, 0, 0, 0⟩,
    .cmacc (64) ⟨true, 0, 0, 0, 0, 0, 0⟩, .cmsb (64) ⟨true, 0, 0, 0, 0, 0, 0⟩, .cmul (64) ⟨true, 0, 0, 0, 0, 0, 0⟩, .cmulc (64) ⟨true, 0, 0, 0, 0, 0, 0⟩,
    .rmac (64) ⟨true, 0, 0, 0, 0, 0, 0⟩, .rmul (64) ⟨true, 0, 0, 0, 0, 0, 0⟩, .aclr (64) ⟨true, 0, 0, 0, 0, 0, 0⟩, .aadd (64) ⟨true, 0, 0, 0, 0, 0, 0⟩,
    .amov (64) ⟨true, 0, 0, 0, 0, 0, 0⟩, .extc (64) ⟨true, 0, 0, 0, 0, 0, 0⟩, .exti (64) ⟨true, 0, 0, 0, 0, 0, 0⟩, .extq (64) ⟨true, 0, 0, 0, 0, 0, 0⟩,
    .aget (64) ⟨true, 0, 0, 0, 0, 0, 0⟩, .aset (64) ⟨true, 0, 0, 0, 0, 0, 0⟩, .add (64) ⟨true, 0, 0, 0, 0, 0⟩, .sub (64) ⟨true, 0, 0, 0, 0, 0⟩,
    .adds (64) ⟨true, 0, 0, 0, 0, 0⟩, .subs (64) ⟨true, 0, 0, 0, 0, 0⟩, .and (64) ⟨true, 0, 0, 0, 0, 0⟩, .or (64) ⟨true, 0, 0, 0, 0, 0⟩,
    .xor (64) ⟨true, 0, 0, 0, 0, 0⟩, .andn (64) ⟨true, 0, 0, 0, 0, 0⟩, .shl (64) ⟨true, 0, 0, 0, 0, 0⟩, .shr (64) ⟨true, 0, 0, 0, 0, 0⟩,
    .sar (64) ⟨true, 0, 0, 0, 0, 0⟩, .min (64) ⟨true, 0, 0, 0, 0, 0⟩, .max (64) ⟨true, 0, 0, 0, 0, 0⟩, .minu (64) ⟨true, 0, 0, 0, 0, 0⟩] : List Instr).all (fun c => !c.wf) = true := by decide

theorem test_ill_formed_3 : ([.maxu (64) ⟨true, 0, 0, 0, 0, 0⟩, .mov (64) ⟨true, 0, 0, 0, 0, 0⟩, .cadd (64) ⟨true, 0, 0, 0, 0, 0⟩, .csub (64) ⟨true, 0, 0, 0, 0, 0⟩,
    .cconj (64) ⟨true, 0, 0, 0, 0, 0⟩, .cswap (64) ⟨true, 0, 0, 0, 0, 0⟩, .cshr (64) ⟨true, 0, 0, 0, 0, 0⟩, .pack (64) ⟨true, 0, 0, 0, 0, 0⟩,
    .cmpeq (64) ⟨true, 0, 0, 0, 0, 0⟩, .cmplt (64) ⟨true, 0, 0, 0, 0, 0⟩, .cmpltu (64) ⟨true, 0, 0, 0, 0, 0⟩, .cmple (64) ⟨true, 0, 0, 0, 0, 0⟩,
    .qand (64) ⟨true, 0, 0, 0, 0, 0⟩, .qor (64) ⟨true, 0, 0, 0, 0, 0⟩, .qandn (64) ⟨true, 0, 0, 0, 0, 0⟩, .mvtx (64) ⟨true, 0, 0, 0, 0, 0⟩,
    .mvfx (64) ⟨true, 0, 0, 0, 0, 0⟩, .mvfm (64) ⟨true, 0, 0, 0, 0, 0⟩, .mvtm (64) ⟨true, 0, 0, 0, 0, 0⟩, .addi (64) ⟨true, 0, 0, 0, 0⟩,
    .andi (64) ⟨true, 0, 0, 0, 0⟩, .ori (64) ⟨true, 0, 0, 0, 0⟩, .shli (64) ⟨true, 0, 0, 0, 0⟩, .shri (64) ⟨true, 0, 0, 0, 0⟩,
    .sari (64) ⟨true, 0, 0, 0, 0⟩, .movlo (64) ⟨true, 0, 0⟩, .movhi (64) ⟨true, 0, 0⟩, .nop (64) ⟨true, 0⟩,
    .br (64) ⟨true, 0⟩, .call (64) ⟨true, 0⟩, .ret (64) ⟨true, 0⟩, .loop (64) ⟨true, 0⟩,
    .loopi (64) ⟨true, 0⟩, .lbrk (64) ⟨true, 0⟩, .rti (64) ⟨true, 0⟩, .swp (64) ⟨true, 0⟩,
    .fence (64) ⟨true, 0⟩, .idle (64) ⟨true, 0⟩, .bclr (64) ⟨true, 0, 0⟩, .bmac (64) ⟨true, 0, 0⟩,
    .bout (64) ⟨true, 0, 0⟩, .bmov (64) ⟨true, 0, 0⟩, .bfft (64) ⟨true, 0, 0⟩, .benchGranuleEnd (64),
    .interruptEntry (64), .tileTimerExpiry (64) 0, .tileTimerExpiry 0 (4), .tileTimerWrite (64) 0 0 0,
    .tileTimerWrite 0 (4) 0 0, .tileTimerWrite 0 0 (3) 0, .edgeDetectorEdge (64) 0 false 0, .edgeDetectorEdge 0 (8) false 0,
    .tunerRingBlock (64) 0, .tunerRingBlock 0 (8), .tileRingRidxWrite (64) 0 0, .tileRingRidxWrite 0 (8) 0,
    .tileRun (64), .tileHalt (64), .tileReset (64), .tileClockGate (64)] : List Instr).all (fun c => !c.wf) = true := by decide

theorem test_ill_formed_4 : ([.xctlArm (64) 0, .xctlForce (64), .xctlCancel (64), .exchangeTimeout (64),
    .tilePdataWrite (64) 0, .tileMdataAccess .bar0 (64) false 0, .lockAcquire .bar0 (256), .lockRelease .bar0 (256),
    .lockBreak .bar0 (256), .dmaStart (8) 0, .dmaStart 0 (16), .dmaDoorbell (8) 0,
    .dmaDoorbell 0 (16), .dmaStop (8) 0, .dmaStop 0 (16), .dmaAbort (8) 0,
    .dmaAbort 0 (16), .dmaClear (8) 0, .dmaClear 0 (16), .descriptorFetch (8) 0,
    .descriptorFetch 0 (16), .descriptorComplete (8) 0 0, .descriptorComplete 0 (16) 0, .endMarkPoll (8) 0,
    .endMarkPoll 0 (16), .dmaCqRidxWrite (8) 0 0, .dmaCqRidxWrite 0 (16) 0, .dmaGsdataAccess .bar0 (8) 0 false 0,
    .dmaGsdataAccess .bar0 0 (2) false 0, .rowIdleClose (768) 0, .rowIdleClose 0 (16), .refreshDue (768) 0 false,
    .refreshDue 0 (16) false, .scrubPass (768) 0 [], .memRetire (768), .memRestore (768),
    .pcPowerDown (256) false, .protectedRecordEnter (4096), .streamDeadTimeout (4096), .streamFailedExit (4096),
    .datagramSend (8) [] [], .ethFrameRx (8) 0 [] [], .portLinkChange (8) false, .vrtDataPacket (256) false,
    .vrtContextPacket (256), .hrgTailWrite (256) 0, .hostBufferWriteback (256) ⟨0, 0, 0⟩ [] [], .hostRingInterrupt (256),
    .txFrameSend (256) ⟨0, 0, 0⟩ 0 [], .diskDataWrite (4096) false [], .streamSwap 4096 false, .streamSwap 256 true, .streamDrained (4096),
    .displayPromotion (2) 0, .overlayFetch (2) 0 .none, .dspFlipWrite (2) 0, .dspFlipWrite 0 (2),
    .hpdPlug (2), .hpdUnplug (2), .irqHpd (2), .linkTrainingDone (2) 0 0] : List Instr).all (fun c => !c.wf) = true := by decide

theorem test_ill_formed_5 : ([.retrain (2), .auxNativeWrite (2), .auxNativeRead (2), .auxI2cWrite (2),
    .auxI2cRead (2), .auxDone (2) 0 [], .displaySwap (2), .stimLaneTrained (16),
    .stimChannelStart (16), .segmentBoundary (16) [], .stimulusSwap (16), .auxPllLock (2) 0,
    .auxPllLock 0 (4), .clkOutWrite (4) 0, .wakeRequest 0, .wakeRequest (4),
    .islandUsable (111), .supplyGoodChange (8) false false, .supplyUndervoltage 2, .supplyUndervoltage 7,
    .hkEntryDone (2) 0 0 0, .hkEntryDone 0 (16) 0 0, .hkUrg (3) 0, .hkUrg 0 (18),
    .hkUrgentConversion (2) 0, .tileVerify (64), .dbgResp (4) [], .dzArm false 0 (8) 0 0,
    .dzRelease false 0 (8) 0, .dzOrder false 0 (4096) false 0 0 0, .dzSent false 0 (4096) 0, .dzEpoch false 0 (4096) 0 0,
    .dzStep false 0 (4096) 0, .dzIndex false 0 (128) 0, .orderMiss (4096) 0, .dzLinkState (8) 0,
    .dzLinkState 0 (16), .cdrLockLoss (128), .laneDieLinkFault (4)] : List Instr).all (fun c => !c.wf) = true := by decide

/-! ### Commands checked by hand -/

/-- 03 R104, worked example: input 7 at 6.4 GS/s, the model 500 ns before second 1001, a delay of 13,744 × 2⁻⁴⁰ s, D = 4095.5. -/
theorem test_product_tag :
    (up.setInp 7 { up.inp 7 with models :=
      [⟨0, (1001 * 2 ^ 48 - 140737488) * 2 ^ 32, 0, 188894659314786, false, 13744, 0, 0⟩] }).productTag 7 0 8191
      = 1001 * 2 ^ 48 + 35866043 := by decide

/-- 03 R104, worked example: P of 6.4 GS/s. -/
theorem test_nominal_period : period80 6400000000 = 188894659314786 := by decide

/-- 02, worked example: EVT_CFG112 with EN, TO_CC, TO_MSIX, TO_TRIG, TLINE 3 and VEC 40 is the word 0xE400_1828. -/
theorem test_evt_cfg_word :
    (match execEvtCfgWrite 112 0xE4001828 up with
     | .next s => [s.get (Reg.EVT_CFG_EN.e 112), s.get (Reg.EVT_CFG_TO_CC.e 112), s.get (Reg.EVT_CFG_TO_MSIX.e 112),
         s.get (Reg.EVT_CFG_TO_TRIG.e 112), s.get (Reg.EVT_CFG_TLINE.e 112), s.get (Reg.EVT_CFG_VEC.e 112),
         (Reg.EVT_CFG_EN.e 112).off]
     | _ => []) = [1, 1, 1, 1, 3, 40, 0x100E00] := by decide

/-- 13, worked example: the syllables of the inner loop of the complex FIR. -/
theorem test_fir_syllables :
    LsSyl.word 4 ⟨false, 2, 0, 0, 32, 0x1FF⟩ = 0x048041FF ∧ LsSyl.word 4 ⟨false, 2, 0, 1, 48, 1⟩ = 0x0480E001
      ∧ MacSyl.word 0 ⟨true, 0, 0, 0, 0, 35, 51⟩ = 0x900008F3 ∧ XferSyl.word 0x10 ⟨true, 0, 0, 4, 0, 0, 0⟩ = 0x94004000
      ∧ LsSyl.word 0xA ⟨true, 2, 0, 2, 4, 1⟩ = 0x8A810801 := by decide

/-- 17, worked example: 3840 × 2160 at 144 Hz fits UHBR10 × 4 and not HBR3 × 4. -/
theorem test_link_carries : carries 1254275 4 2 = true ∧ carries 1254275 3 2 = false := by decide

/-- 10, worked example: windows of 80 ms and 70 ms at 6.4 GS/s need 15,642 and 13,687 pages. -/
theorem test_window_pages :
    ceilDiv (winSamples 600000 6400000 + winSamples 200000 6400000) (pageCap false) + 1 = 15642
      ∧ ceilDiv (winSamples 600000 6400000 + winSamples 100000 6400000) (pageCap false) + 1 = 13687 := by decide

/-- 00 R16: halves round to the even neighbour. -/
theorem test_convergent : rnd 5 1 = 2 ∧ rnd 7 1 = 4 ∧ rnd (-5) 1 = -2 ∧ rnd (-3) 1 = -2 := by decide

/-- 12 R370: with RRB = 29, three decrements after 0, logical D35 is the register loaded as D32. -/
theorem test_rotation : ({ RegSet.reset with rrb := 29 } : RegSet).phys 35 = RegSet.reset.phys 32 := by decide

/-- 03 R105: at a distance of 2³¹ neither number is later; 0 is later than 0xFFFF_FFFF. -/
theorem test_serial :
    serialBefore 32 0x80000000 0 = false ∧ serialBefore 32 0 0x80000000 = false ∧ serialBefore 32 0xFFFFFFFF 0 = true := by decide

/-- 24 R699: the boundary-scan register has 85 cells. -/
theorem test_scan_cells : scanRegister.length = 85 := by decide

/-- 24 R702: SRX070_P is ball 086/063 and SRX070_N is ball 086/064. -/
theorem test_lane_balls : ballAt 86 63 = .pair "LD2" 6 true ∧ ballAt 86 64 = .pair "LD2" 6 false := by decide

end Sys2Proof.Tests
end

section
/-!
SUPPORT. What an occurrence writes in one event's own words (02 R75, R76): an occurrence of another event leaves them alone,
except those of EV009 and EV012, which a delivery may raise in turn; after a clear they are those of a first occurrence (02 R77).
-/
namespace Sys2Proof.Machine

/-! ### The words of one event -/

/-- Offset `o` lies in the group of words of event `n` (02 R74). -/
def inEvent (n o : Nat) : Prop := 0x100000 + n * 0x20 ≤ o ∧ o < 0x100020 + n * 0x20

theorem inEvent_e (f : Fld) (n k : Nat) (hk : k < 0x20) (hf : f.off = 0x100000 + k) (hd : f.dims = [(0x20, 512)]) :
    inEvent n (f.e n).off := by
  have e : (f.e n).off = f.off + (n * 0x20 + 0) := by simp [Fld.e, hd, elemOff]
  rw [inEvent, e, hf]
  omega

theorem inEvent_ne {n m o : Nat} (h : m ≠ n) (hm : inEvent m o) : ¬ inEvent n o := by
  unfold inEvent at hm ⊢
  omega

theorem evPend_in (n : Nat) : inEvent n (evPend n).off := inEvent_e _ n 4 (by decide) rfl rfl
theorem evSat_in (n : Nat) : inEvent n (evSat n).off := inEvent_e _ n 4 (by decide) rfl rfl
theorem evCnt_in (n : Nat) : inEvent n (evCnt n).off := inEvent_e _ n 4 (by decide) rfl rfl
theorem evTagL_in (n : Nat) : inEvent n (Reg.EVT_TAG_L_TAG.e n).off := inEvent_e _ n 8 (by decide) rfl rfl
theorem evTagM_in (n : Nat) : inEvent n (Reg.EVT_TAG_M_TAG.e n).off := inEvent_e _ n 12 (by decide) rfl rfl
theorem evTagH_in (n : Nat) : inEvent n (Reg.EVT_TAG_H_TAG.e n).off := inEvent_e _ n 16 (by decide) rfl rfl

/-- The words of event `n` stay as they are, and where no session is open none opens. -/
structure EventKept (n : Nat) (s t : State) : Prop where
  word : ∀ o, inEvent n o → t.word o = s.word o
  noSession : s.ctl.sessions = [] → t.ctl.sessions = []

namespace EventKept

variable {n : Nat}

theorem refl (s : State) : EventKept n s s := ⟨fun _ _ => rfl, id⟩

theorem trans {a b c : State} (h : EventKept n a b) (k : EventKept n b c) : EventKept n a c :=
  ⟨fun o ho => (k.word o ho).trans (h.word o ho), k.noSession ∘ h.noSession⟩

theorem cond {s a b : State} (c : Bool) (ha : EventKept n s a) (hb : EventKept n s b) :
    EventKept n s (bif c then a else b) := by cases c <;> assumption

theorem foldl {β : Type} (f : State → β → State) (h : ∀ a b, EventKept n a (f a b)) (l : List β) (s : State) :
    EventKept n s (l.foldl f s) := by
  induction l generalizing s with
  | nil => exact refl s
  | cons b l ih => exact (h s b).trans (ih _)

theorem get {s t : State} (h : EventKept n s t) (l : Loc) (hl : inEvent n l.off) : t.get l = s.get l := by
  rw [State.get, h.word _ hl, State.get]

theorem on {s t : State} (h : EventKept n s t) (l : Loc) (hl : inEvent n l.off) : t.on l = s.on l := by
  rw [State.on, h.get l hl, State.on]

theorem evTag {s t : State} (h : EventKept n s t) : t.evTag n = s.evTag n := by
  simp only [State.evTag, State.get96, h.get _ (evTagL_in n), h.get _ (evTagM_in n), h.get _ (evTagH_in n)]

/-! ### The parts of an occurrence -/

theorem of_regs {s t : State} (h : t.regs = s.regs) (hc : s.ctl.sessions = [] → t.ctl.sessions = []) : EventKept n s t :=
  ⟨fun _ _ => by simp only [State.word, h], hc⟩

theorem put (s : State) (l : Loc) (v : Nat) (h : ¬ inEvent n l.off) : EventKept n s (s.put l v) :=
  ⟨fun _ ho => State.word_put_ne s l v fun e => h (e ▸ ho), id⟩

theorem put96 (s : State) (x y z : Loc) (v : Nat) (hx : ¬ inEvent n x.off) (hy : ¬ inEvent n y.off) (hz : ¬ inEvent n z.off) :
    EventKept n s (s.put96 x y z v) := ((put s x _ hx).trans (put _ y _ hy)).trans (put _ z _ hz)

theorem evTrig (s : State) (en : Bool) (m tag : Nat) : EventKept n s (s.evTrig en m tag) :=
  cond _ (foldl _ (fun a u => cond _ (of_regs (State.pushPulse_regs ..) (by simp)) (refl a)) _ s) (refl s)

theorem evCount (s : State) {m : Nat} (h : m ≠ n) : EventKept n s (s.evCount m) :=
  cond _ (put _ _ _ (inEvent_ne h (evSat_in m))) (put _ _ _ (inEvent_ne h (evCnt_in m)))

theorem evHold (s : State) {m : Nat} (tag : Nat) (h : m ≠ n) : EventKept n s (s.evHold m tag) :=
  (put s _ _ (inEvent_ne h (evPend_in m))).trans (put96 _ _ _ _ tag (inEvent_ne h (evTagL_in m))
    (inEvent_ne h (evTagM_in m)) (inEvent_ne h (evTagH_in m)))

theorem evMsix (s : State) (m : Nat) : EventKept n s (s.evMsix m) := by
  refine cond _ (cond _ (put _ _ _ ?_) (of_regs rfl id)) (refl s)
  have hv := vec_lt s m
  simp only [inEvent, pba_off]
  omega

theorem evSubs (s : State) (m : Nat) : EventKept n s (s.evSubs m) := of_regs rfl fun h => by simp [State.evSubs, h]

theorem oapSpoil (s : State) (j k : Nat) : EventKept n s (s.oapSpoil j k) := of_regs (State.oapSpoil_regs ..) id

theorem setLog (s : State) (l : List (Nat × Nat)) : EventKept n s (s.setLog l) := of_regs rfl id

end EventKept

/-! ### The two halves of an occurrence -/

/-- The MSI-X and OAP routes of an event `n` that has just become pending (02 R76), EV009 raised with the fuel `fuel`. -/
def State.routes (fuel : Nat) (d : State) (n tag : Nat) : State :=
  bif !d.on (evEn n) then d
  else
    let e := d.evMsix n
    bif e.on (Reg.EVT_CFG_TO_OAP.e n) then
      (upto (mergesIn n e.ctl.sessions)).foldl (fun s _ => State.raiseCore fuel (s.oapSpoil 4 1) 9 tag) (e.evSubs n)
    else e

/-- The entry of event `n` in the event log where `c` holds (02 R76), EV012 raised with the fuel `fuel`. -/
def State.logEntry (fuel : Nat) (c : Bool) (t : State) (n tag : Nat) : State :=
  bif c then
    bif le 4096 t.ctl.log.length then State.raiseCore fuel (t.setLog (t.ctl.log.drop 1 ++ [(n, tag)])) 12 tag
    else t.setLog (t.ctl.log ++ [(n, tag)])
  else t

@[simp] theorem State.logEntry_false (fuel : Nat) (t : State) (n tag : Nat) : t.logEntry fuel false n tag = t := rfl

/-- An occurrence of event `n` has counted and gone to the trigger fabric (02 R75, R76). -/
def State.counted (s : State) (n tag : Nat) : State := (s.evCount n).evTrig (s.on (evEn n)) n tag

theorem State.raiseCore_succ (fuel : Nat) (s : State) (n tag : Nat) :
    State.raiseCore (fuel + 1) s n tag =
      State.logEntry fuel (s.on (evEn n) && s.on (Reg.EVT_CFG_TO_CC.e n) && decide (n ≠ 12))
        (bif s.on (evPend n) then s.counted n tag else ((s.counted n tag).evHold n tag).routes fuel n tag) n tag := rfl

/-- Where no session is open, no entry merges. -/
@[simp] theorem mergesIn_nil (n : Nat) : mergesIn n [] = 0 := rfl

/-- With the fuel `fuel`, an occurrence of another event keeps the words of event `n`, which is not EV012, and is EV009 only
where no session is open. -/
def RaiseKeeps (fuel n : Nat) : Prop :=
  ∀ (s : State) (m tag : Nat), m ≠ n → n ≠ 12 → n ≠ 9 ∨ s.ctl.sessions = [] → EventKept n s (State.raiseCore fuel s m tag)

/-- The routes of an event raise no event but EV009, and that only where a session is open. -/
theorem EventKept.routes {fuel n : Nat} (ih : RaiseKeeps fuel n) (d : State) (m tag : Nat)
    (h : (n ≠ 9 ∧ n ≠ 12) ∨ d.ctl.sessions = []) : EventKept n d (d.routes fuel m tag) := by
  have he : EventKept n d (d.evMsix m) := .evMsix d m
  refine .cond _ (.refl d) (.cond _ (he.trans ((EventKept.evSubs _ m).trans ?_)) he)
  rcases h with ⟨h9, h12⟩ | h
  · exact .foldl _ (fun a _ => (EventKept.oapSpoil a 4 1).trans (ih _ 9 tag h9.symm h12 (.inl h9))) _ _
  · rw [he.noSession h, mergesIn_nil]
    exact .refl _

/-- An entry in the event log raises no event but EV012. -/
theorem EventKept.logEntry {fuel n : Nat} (ih : RaiseKeeps fuel n) (c : Bool) (t : State) (m tag : Nat)
    (h12 : n ≠ 12) (h9 : n ≠ 9 ∨ t.ctl.sessions = []) : EventKept n t (t.logEntry fuel c m tag) :=
  .cond _ (.cond _ ((EventKept.setLog t _).trans (ih _ 12 tag h12.symm h12 h9)) (.setLog t _)) (.refl t)

theorem EventKept.raiseCore (n fuel : Nat) : RaiseKeeps fuel n := by
  induction fuel with
  | zero => exact fun s _ _ _ _ _ => .refl s
  | succ fuel ih =>
    intro s m tag hm h12 h9
    have ha : EventKept n s (s.counted m tag) := (EventKept.evCount s hm).trans (.evTrig ..)
    have hd : EventKept n s ((s.counted m tag).evHold m tag) := ha.trans (.evHold _ tag hm)
    have ht := EventKept.cond (s.on (evPend m)) ha
      (hd.trans (.routes ih _ m tag (h9.imp (⟨·, h12⟩) hd.noSession)))
    rw [State.raiseCore_succ]
    exact ht.trans (.logEntry ih _ _ m tag h12 (h9.imp id ht.noSession))

/-! ### The first occurrence -/

@[simp] theorem State.evCount_ctl (s : State) (n : Nat) : (s.evCount n).ctl = s.ctl := by
  unfold State.evCount
  cases s.get (evCnt n) == 0xFFFF <;> simp

@[simp] theorem State.evHold_ctl (s : State) (n tag : Nat) : (s.evHold n tag).ctl = s.ctl := by
  simp [State.evHold, State.put96]

/-- What follows the capture of event `n`'s own first occurrence leaves its words alone: for EV009 and EV012 where no session is
open. -/
theorem State.raiseCore_first (fuel : Nat) (s : State) (n tag : Nat) (h : (n ≠ 9 ∧ n ≠ 12) ∨ s.ctl.sessions = [])
    (hp : s.on (evPend n) = false) :
    EventKept n ((s.counted n tag).evHold n tag) (State.raiseCore (fuel + 1) s n tag) := by
  have hs (h0 : s.ctl.sessions = []) : ((s.counted n tag).evHold n tag).ctl.sessions = [] := by
    rw [State.evHold_ctl]
    exact (EventKept.evTrig (n := n) (s.evCount n) _ n tag).noSession (by rw [State.evCount_ctl, h0])
  have hr := EventKept.routes (.raiseCore n fuel) ((s.counted n tag).evHold n tag) n tag (h.imp id hs)
  rw [State.raiseCore_succ, hp, cond_false]
  by_cases h12 : n = 12
  · have hc : decide (n ≠ 12) = false := by simp [h12]
    rwa [hc, Bool.and_false, State.logEntry_false]
  · exact hr.trans (.logEntry (.raiseCore n fuel) _ _ n tag h12 (h.imp And.left (hr.noSession ∘ hs)))

/-- Three words read what was put into them, modulo 2⁹⁶. -/
theorem State.get96_put96 (s : State) (x y z : Loc) (v : Nat) (hx : x.lo = 0 ∧ x.w = 32) (hy : y.lo = 0 ∧ y.w = 32)
    (hz : z.lo = 0 ∧ z.w = 32) (hxy : x.off ≠ y.off) (hxz : x.off ≠ z.off) (hyz : y.off ≠ z.off) :
    (s.put96 x y z v).get96 x y z = v % 2 ^ 96 := by
  obtain ⟨⟨hx0, hxw⟩, ⟨hy0, hyw⟩, ⟨hz0, hzw⟩⟩ := hx, hy, hz
  have ex : (s.put96 x y z v).get x = v % 2 ^ 32 := by
    rw [State.put96, State.get_put_other _ z x _ (.inl hxz), State.get_put_other _ y x _ (.inl hxy),
      State.get_put_same _ x _ (by omega), hxw]
  have ey : (s.put96 x y z v).get y = v / 2 ^ 32 % 2 ^ 32 := by
    rw [State.put96, State.get_put_other _ z y _ (.inl hyz), State.get_put_same _ y _ (by omega), hyw]
  have ez : (s.put96 x y z v).get z = v / 2 ^ 64 % 2 ^ 32 := by
    rw [State.put96, State.get_put_same _ z _ (by omega), hzw]
  rw [State.get96, ex, ey, ez]
  omega

/-- Capturing an occurrence takes its tag. -/
@[simp] theorem State.evHold_evTag (s : State) (n tag : Nat) : (s.evHold n tag).evTag n = tag % 2 ^ 96 :=
  State.get96_put96 _ _ _ _ tag ⟨rfl, rfl⟩ ⟨rfl, rfl⟩ ⟨rfl, rfl⟩ (by rw [evTagL_off, evTagM_off]; omega)
    (by rw [evTagL_off, evTagH_off]; omega) (by rw [evTagM_off, evTagH_off]; omega)

/-- Capturing an occurrence changes only PEND in the word of the event's state. -/
theorem State.evHold_get (s : State) (n tag : Nat) (l : Loc) (ho : l.off = (evPend n).off) (hl : l.lo + l.w ≤ 31) :
    (s.evHold n tag).get l = s.get l := by
  have hL : l.off ≠ (Reg.EVT_TAG_L_TAG.e n).off := by rw [ho, evPend_off, evTagL_off]; omega
  have hM : l.off ≠ (Reg.EVT_TAG_M_TAG.e n).off := by rw [ho, evPend_off, evTagM_off]; omega
  have hH : l.off ≠ (Reg.EVT_TAG_H_TAG.e n).off := by rw [ho, evPend_off, evTagH_off]; omega
  rw [State.evHold, State.put96, State.get_put_other _ _ l _ (.inl hH), State.get_put_other _ _ l _ (.inl hM),
    State.get_put_other _ _ l _ (.inl hL)]
  exact State.get_put_other s (evPend n) l _ (.inr ⟨(by decide : 31 + 1 ≤ 32), .inl hl⟩)

@[simp] theorem State.evHold_cnt (s : State) (n tag : Nat) : (s.evHold n tag).get (evCnt n) = s.get (evCnt n) :=
  s.evHold_get n tag _ rfl (by decide : 0 + 16 ≤ 31)

@[simp] theorem State.evHold_sat (s : State) (n tag : Nat) : (s.evHold n tag).on (evSat n) = s.on (evSat n) := by
  have h := s.evHold_get n tag (evSat n) rfl (by decide : 30 + 1 ≤ 31)
  rw [State.on, h, State.on]

/-- A write of CNT leaves PEND and SAT alone. -/
theorem State.put_cnt_get (s : State) (n v : Nat) (l : Loc) (hl : 16 ≤ l.lo) : (s.put (evCnt n) v).get l = s.get l :=
  State.get_put_other s (evCnt n) l v (.inr ⟨(by decide : 0 + 16 ≤ 32), .inr (by omega : 0 + 16 ≤ l.lo)⟩)

/-- Below its limit CNT advances by one, and SAT stays. -/
theorem State.counted_below (s : State) (n tag : Nat) (h : s.get (evCnt n) < 0xFFFF) :
    (s.counted n tag).get (evCnt n) = s.get (evCnt n) + 1 ∧ (s.counted n tag).on (evSat n) = s.on (evSat n) := by
  have ht : EventKept n (s.evCount n) (s.counted n tag) := .evTrig ..
  have hc : s.evCount n = s.put (evCnt n) (s.get (evCnt n) + 1) := by
    rw [State.evCount, beq_false_of_ne h.ne, cond_false]
  constructor
  · rw [ht.get _ (evCnt_in n), hc, State.get_put_same _ _ _ (by decide : 0 + 16 ≤ 32)]
    exact Nat.mod_eq_of_lt (by show _ < 65536; omega)
  · rw [ht.on _ (evSat_in n), hc, State.on, State.put_cnt_get _ n _ _ (by decide : 16 ≤ 30), State.on]

/-! ### The clear -/

@[simp] theorem State.evtClear_ctl (s : State) (n : Nat) : (s.evtClear n).ctl = s.ctl := by simp [State.evtClear]

@[simp] theorem State.evtClear_now (s : State) (n : Nat) : (s.evtClear n).now = s.now := by
  simp [State.now, State.evtClear]

@[simp] theorem State.evtClear_cnt (s : State) (n : Nat) : (s.evtClear n).get (evCnt n) = 0 :=
  State.get_put_same _ _ 0 (by decide : 0 + 16 ≤ 32)

@[simp] theorem State.evtClear_sat (s : State) (n : Nat) : (s.evtClear n).on (evSat n) = false := by
  have h := State.on_flag_same (s.flag (evPend n) false) (evSat n) false (by decide : 30 + 1 ≤ 32) (by decide : 1 ≤ 1)
  rw [State.on] at h ⊢
  rwa [State.evtClear, State.put_cnt_get _ n _ _ (by decide : 16 ≤ 30)]

@[simp] theorem State.evtClear_pend (s : State) (n : Nat) : (s.evtClear n).on (evPend n) = false := by
  have h := State.on_flag_same s (evPend n) false (by decide : 31 + 1 ≤ 32) (by decide : 1 ≤ 1)
  rw [← State.on_flag_other _ (evSat n) (evPend n) false
    (.inr ⟨(by decide : 30 + 1 ≤ 32), .inr (by decide : 30 + 1 ≤ 31)⟩), State.on] at h
  rwa [State.on, State.evtClear, State.put_cnt_get _ n _ _ (by decide : 16 ≤ 31)]

/-- A clear in the cycle of an occurrence comes first (02 R77). -/
theorem exec_evtPendClear_again (s : State) (n : Nat) (h : isEvent n = true) :
    exec (.evtPendClear n true) s = .next ((s.evtClear n).ev n) := by
  have hn : n < 512 := by
    simp only [isEvent, lt, Bool.and_eq_true, decide_eq_true_eq] at h
    exact h.1
  have hle : le 512 n = false := by simpa [le] using hn
  have hx : exec (.evtPendClear n true) s = execEvtPendClear n true s := rfl
  rw [hx, execEvtPendClear, hle, h, Bool.and_self, cond_false, cond_true]

/-- The occurrence after a clear is a first one (02 R77). -/
theorem State.evtClear_ev_first (s : State) (n : Nat) (h : (n ≠ 9 ∧ n ≠ 12) ∨ s.ctl.sessions = []) :
    ((s.evtClear n).ev n).get (evCnt n) = 1 ∧ ((s.evtClear n).ev n).on (evSat n) = false ∧
      ((s.evtClear n).ev n).evTag n = s.now % 2 ^ 96 := by
  have hk := (s.evtClear n).raiseCore_first 7 n s.now (by rwa [State.evtClear_ctl]) (s.evtClear_pend n)
  have ⟨hcnt, hsat⟩ := (s.evtClear n).counted_below n s.now (by simp)
  rw [State.ev, State.evtClear_now, State.raise, hk.get _ (evCnt_in n), hk.on _ (evSat_in n), hk.evTag]
  simp [hcnt, hsat]

/-- Settles O11: the clear leaves PEND = 0, so the occurrence is captured and delivered as a first one, and nothing that its
delivery raises writes the event's own words. -/
theorem clearMeetsAnOccurrence : Obligations.ClearMeetsAnOccurrence := by
  refine ⟨exec_evtPendClear_again, fun s n hn h => ⟨_, exec_evtPendClear_again s n hn, ?_⟩⟩
  exact ⟨State.ev_pend _ n, s.evtClear_ev_first n h⟩

end Sys2Proof.Machine
end

section
/-!
SUPPORT. The lock table (12 R401) at the code of LOCK_STAT.STATE that R406 lists for no lock state: neither FREE, HELD nor
ABANDONED.
-/
namespace Sys2Proof.Machine

@[simp] theorem State.get_lockLast (s : State) (o n r : Nat) (l : Loc) : (s.lockLast o n r).get l = s.get l := rfl

theorem exec_lockAcquire (r : Requester) (n : Nat) (s : State) :
    exec (.lockAcquire r n) s = .next (s.lockAcquire (lockRequester r) (n % 256)).1 := rfl

/-- An acquire that finds a lock neither FREE nor ABANDONED leaves its state as it is. -/
theorem State.lockAcquire_ungranted (s : State) (o n : Nat) (hf : s.get (lockState n) ≠ 0) (ha : s.get (lockState n) ≠ 2) :
    (s.lockAcquire o n).1.get (lockState n) = s.get (lockState n) := by
  cases hs : s.lockOwner n == o <;> simp [State.lockAcquire, beq_false_of_ne hf, beq_false_of_ne ha, hs]

/-- Refutes O41: its first row asks of every lock that is not HELD that an acquire makes it HELD, and a STATE of 3 is none of the
three lock states, so nothing is granted. Lock 0 of the reset state with STATE = 3 stays at 3. (The model's own
lock operations write the codes 0 to 2 only.) -/
theorem not_locksFollowTheirTable : ¬ Obligations.LocksFollowTheirTable := by
  rintro ⟨acquireGrants, -⟩
  let s := State.reset.put (lockState 0) 3
  have h3 : s.get (lockState 0) = 3 := State.get_put_same _ _ 3 (by decide : 30 + 2 ≤ 32)
  obtain ⟨t, ht, hheld, -⟩ := acquireGrants s .bar0 0 (by decide) (by rw [h3]; decide)
  have hkept := s.lockAcquire_ungranted 64 0 (by rw [h3]; decide) (by rw [h3]; decide)
  rw [exec_lockAcquire] at ht
  obtain rfl := Host.Outcome.next.inj ht
  exact absurd (hheld.symm.trans (hkept.trans h3)) (by decide)

end Sys2Proof.Machine
end

section
/-!
SUPPORT. A bundle of one load/store syllable (13 R408 to R413, R417 to R419): the fields of the encoded syllable, its issue, and what
a store to the tile's own registers asks for.
-/
namespace Sys2Proof.Machine

/-! ### The fields of a load/store syllable (13 Formats) -/

/-- `w` is the load/store syllable with opcode `op` and the fields of `y`. -/
structure LsSyl.Encodes (y : LsSyl) (op w : Nat) : Prop where
  lt : w < 2 ^ 32
  stop : bit w 31 = y.stop
  cls : sylClass w = 0
  op : bits w 24 4 = op
  mode : bits w 22 2 = y.mode.toNat
  qp : bits w 19 3 = y.qp.toNat
  pn : bits w 15 4 = y.pn.toNat
  data : bits w 9 6 = y.data.toNat
  imm : bits w 0 9 = y.imm.toNat

theorem LsSyl.word_encodes (y : LsSyl) {op : Nat} (h : op < 16) : y.Encodes op (y.word op) := by
  obtain ⟨stop, ⟨m, hm⟩, ⟨q, hq⟩, ⟨p, hp⟩, ⟨d, hd⟩, ⟨i, hi⟩⟩ := y
  cases stop <;> constructor <;>
    simp only [LsSyl.word, bit, bits, sylClass, b2n, BitVec.toNat, decide_eq_true_eq, decide_eq_false_iff_not, if_true,
      Bool.false_eq_true, if_false] <;> omega

/-- The sign-extended immediate of a syllable is its field's value. -/
theorem sext_toNat {w : Nat} (x : BitVec w) : sext w x.toNat = x.toInt := by
  rw [BitVec.toInt_eq_toNat_cond, sext, Nat.mod_eq_of_lt x.isLt]
  cases w with
  | zero => simp [BitVec.eq_nil x]
  | succ w => grind

/-! ### The issue of a bundle of one load/store syllable -/

/-- Tile `t` has taken its whole bundle, which now issues. -/
def State.issuing (s : State) (t : Nat) : State := s.setTile t { s.tile t with bundle := [], idle := false }

@[simp] theorem State.tile_setTile (s : State) (t : Nat) (x : Tile) : (s.setTile t x).tile t = x := by
  simp [State.tile, State.setTile]

@[simp] theorem State.setTile_mem (s : State) (t : Nat) (x : Tile) : (s.setTile t x).mem = s.mem := rfl
@[simp] theorem State.get_setTile (s : State) (t : Nat) (x : Tile) (l : Loc) : (s.setTile t x).get l = s.get l := rfl

@[simp] theorem State.issuing_cur (s : State) (t : Nat) : ((s.issuing t).tile t).cur = (s.tile t).cur := by
  simp [State.issuing, Tile.cur]

@[simp] theorem State.issuing_lvl (s : State) (t : Nat) : ((s.issuing t).tile t).lvl = (s.tile t).lvl := by
  simp [State.issuing]

/-- What `readyAt` says of the tile. -/
theorem State.readyAt_iff (s : State) (t : Nat) :
    s.readyAt t = true ↔
      s.tileMay t = true ∧ (s.tile t).bundle = [] ∧ (s.tile t).cur.l0a = false ∧ (s.tile t).cur.l1a = false := by
  simp [State.readyAt, and_assoc]

/-- At a bundle boundary a load/store syllable with the stop bit is a whole bundle, which issues. -/
theorem State.syllable_issues {s : State} {t op w : Nat} {y : LsSyl} (hr : s.readyAt t = true) (he : y.Encodes op w)
    (hs : y.stop = true) : s.syllable t w = s.issue t [w] false := by
  obtain ⟨hmay, hb, -, -⟩ := s.readyAt_iff t |>.mp hr
  have hstop : bit w 31 = true := he.stop.trans hs
  have hw : (BitVec.ofNat 32 w).toNat = w := Nat.mod_eq_of_lt he.lt
  simp only [State.syllable, hmay, hb, hstop, List.nil_append, Bool.true_or, cond_true, List.map_cons, List.map_nil, hw]
  simp [State.bundle, he.cls]

/-- The effects of a syllable that stores `w` bytes with value `v` at `c` and writes no register. -/
def Fx.store (c : CoreAt) (w v : Nat) : Fx := { Fx.none with st := [(c, w, v)] }

theorem Tile.cur_setCur (x : Tile) (r : RegSet) : (x.setCur r).cur = r := by
  cases h : x.lvl <;> simp [Tile.setCur, Tile.cur, h]

/-- With no saturation the bundle leaves the registers `r`. -/
theorem State.bundleTaken_zero (s : State) (t : Nat) (r : RegSet) :
    s.bundleTaken t r 0 = (s.issuing t).setTile t (((s.issuing t).tile t).setCur r) := by
  rw [State.issuing, State.tile_setTile]
  rfl

theorem State.bundleTaken_cur (s : State) (t : Nat) (r : RegSet) : ((s.bundleTaken t r 0).tile t).cur = r := by
  rw [State.bundleTaken_zero, State.tile_setTile, Tile.cur_setCur]

/-- A store changes no register. -/
theorem Tile.commit_store (x : Tile) (c : CoreAt) (w v : Nat) : x.commit [Fx.store c w v] = x.setCur x.cur := by
  have hr : { x.cur with sat := x.cur.sat || lt 0 0, aov := x.cur.aov || lt 0 0 } = x.cur := by simp [lt]
  exact congrArg x.setCur hr

/-- After a bundle without branch or loop, and with no loop level active, the core goes on at the next syllable. -/
theorem State.control_none {s : State} {t a n : Nat} (h0 : (s.tile t).cur.l0a = false) (h1 : (s.tile t).cur.l1a = false) :
    s.control t a n .none = s.goTo t n := by
  have hl : (s.tile t).cur.loopBack a n = ((s.tile t).cur, n) := by simp [RegSet.loopBack, h0, h1]
  rw [State.control, hl]
  rfl

section
variable {s : State} {t op w : Nat} {y : LsSyl} (he : y.Encodes op w) (hs : y.stop = true) (hok : sylOk w (s.tile t).lvl = true)
  (hr : s.readyAt t = true)
include he hs hok hr

/-- A bundle of one well-formed load/store syllable is legal where no loop level is active. -/
theorem State.bundle_legal {f : Fx} (hc : f.ctl = .none) (hw : writesOk [f] = true) :
    (s.issuing t).bundleIllegal t ((s.tile t).cur.pc % 2 ^ 14) (s.tile t).cur.after [w] [f] = false := by
  obtain ⟨-, -, h0, h1⟩ := s.readyAt_iff t |>.mp hr
  have hstop : bit w 31 = true := he.stop.trans hs
  have hlen : lt 16384 ((s.tile t).cur.pc % 16384 + 1) = false := by simp only [lt, decide_eq_false_iff_not]; omega
  have hslot : slotsOk [0] = true := by decide
  simp [State.bundleIllegal, he.cls, hslot, hok, hstop, hlen, h0, h1, hc, hw]

/-- The bundle stores, and the core then goes on. -/
theorem State.issue_stores {c : CoreAt} {n v : Nat} (hf : s.sylFx t w = Fx.store c n v) :
    s.issue t [w] false =
      ((s.bundleTaken t (s.tile t).cur 0).coreStore t n v c).control t ((s.tile t).cur.pc % 2 ^ 14) (s.tile t).cur.after .none := by
  have hl := State.bundle_legal he hs hok hr (f := Fx.store c n v) rfl rfl
  simp only [State.issue, List.map_cons, List.map_nil, hf]
  change (bif (s.issuing t).bundleIllegal t ((s.tile t).cur.pc % 2 ^ 14) (s.tile t).cur.after [w] [Fx.store c n v] then _
    else ((((s.issuing t).setTile t (((s.issuing t).tile t).commit [Fx.store c n v])).coreStore t n v c).control t _ _ .none)) = _
  rw [hl, cond_false, Tile.commit_store, State.issuing_cur, ← State.bundleTaken_zero]
  rfl

/-- The bundle faults with code `c` and data address `a`. -/
theorem State.issue_faults {c a : Nat} (hc : (c != 0) = true) (hf : s.sylFx t w = { Fx.none with fault := (c, a) }) :
    s.issue t [w] false = (s.issuing t).tileFault t c a := by
  have hl := State.bundle_legal he hs hok hr (f := { Fx.none with fault := (c, a) }) rfl rfl
  simp only [State.issue, List.map_cons, List.map_nil, hf, List.find?_cons, hc]
  change (bif (s.issuing t).bundleIllegal t ((s.tile t).cur.pc % 2 ^ 14) (s.tile t).cur.after [w]
    [{ Fx.none with fault := (c, a) }] then _ else _) = _
  rw [hl, cond_false]
  rfl

end

/-! ### A word store (13 R417, R418) -/

theorem State.sylFx_ls {s : State} {t op w : Nat} {y : LsSyl} (he : y.Encodes op w)
    (hq : (s.tile t).cur.pred y.qp.toNat = true) : s.sylFx t w = s.lsFx t (s.tile t).cur w := by
  simp [State.sylFx, RegSet.runs, he.cls, he.qp, hq]

theorem LsSyl.Encodes.stw_ok {y : LsSyl} {w : Nat} (he : y.Encodes 0xA w) (hm : y.mode = 0) (lvl : Bool) : sylOk w lvl = true := by
  have hmode : bits w 22 2 = 0 := by rw [he.mode, hm]; rfl
  simp [sylOk, he.cls, he.op, hmode]

/-- STW in offset mode at the aligned own-register address of offset `o`: it stores, or faults as the register asks. -/
theorem State.lsFx_stw_reg {s : State} {t w a o : Nat} {x : RegSet} {y : LsSyl} (he : y.Encodes 0xA w) (hm : y.mode = 0)
    (ha : toU 32 ((x.pReg y.pn.toNat : Int) + y.imm.toInt * 4) = a) (hc : s.coreAt t a 4 = .reg o) (hal : a % 4 = 0) :
    s.lsFx t x w =
      if s.storeFault t 4 (x.dReg y.data.toNat).toNat (.reg o) ≠ 0 then
        { Fx.none with fault := (s.storeFault t 4 (x.dReg y.data.toNat).toNat (.reg o), a) }
      else Fx.store (.reg o) 4 (x.dReg y.data.toNat).toNat := by
  have hmode : bits w 22 2 = 0 := by rw [he.mode, hm]; rfl
  have haddr : x.address w 4 = (a, []) := by
    simp only [RegSet.address, hmode, if_true, he.pn, he.imm, sext_toNat, Prod.mk.injEq, and_true]
    exact ha
  have hv : (x.dReg y.data.toNat).toNat % 4294967296 = (x.dReg y.data.toNat).toNat := Nat.mod_eq_of_lt (BitVec.isLt _)
  simp [State.lsFx, he.op, he.data, lsWidth, haddr, hc, hal, hv, Fx.store, Fx.none, upto]

end Sys2Proof.Machine
end

section
/-!
SUPPORT. Register writes in a gallery window (02 R62, R66, 12 R406): which bits of a word a write takes, and a malformed access.
-/
namespace Sys2Proof.Machine

/-! ### The bits a write takes -/

/-- `old` with the bits of `m` taken from `v` and the bits of `clr` cleared. -/
def maskedWrite (old v m clr : Nat) : Nat := ((old &&& (0xFFFFFFFF ^^^ m)) ||| (v &&& m)) &&& (0xFFFFFFFF ^^^ clr)

theorem testBit_ones32 {i : Nat} (h : i < 32) : Nat.testBit 0xFFFFFFFF i = true :=
  (Nat.testBit_two_pow_sub_one 32 i).trans (decide_eq_true h)

theorem testBit_bits (x lo w j : Nat) : (bits x lo w).testBit j = (decide (j < w) && x.testBit (lo + j)) := by
  simp [bits, Nat.testBit_mod_two_pow, Nat.testBit_div_two_pow, Nat.add_comm]

theorem testBit_maskedWrite (old v m clr : Nat) {i : Nat} (h : i < 32) :
    (BitVec.ofNat 32 (maskedWrite old v m clr)).toNat.testBit i =
      ((if m.testBit i then v.testBit i else old.testBit i) && !clr.testBit i) := by
  rw [BitVec.toNat_ofNat, Nat.testBit_mod_two_pow, decide_eq_true h, Bool.true_and, maskedWrite]
  simp only [Nat.testBit_and, Nat.testBit_or, Nat.testBit_xor, testBit_ones32 h]
  cases m.testBit i <;> simp

/-- A field wholly inside the mask takes its bits of `v`; one wholly outside it keeps its own. -/
theorem bits_maskedWrite (old v m clr lo w : Nat) (inside : Bool) (h : lo + w ≤ 32)
    (hm : ∀ j < w, m.testBit (lo + j) = inside) (hc : ∀ j < w, clr.testBit (lo + j) = false) :
    bits (BitVec.ofNat 32 (maskedWrite old v m clr)).toNat lo w = bits (if inside then v else old) lo w := by
  refine Nat.eq_of_testBit_eq fun j => ?_
  rw [testBit_bits, testBit_bits]
  by_cases hj : j < w
  · rw [testBit_maskedWrite old v m clr (by omega : lo + j < 32), hm j hj, hc j hj]
    cases inside <;> simp
  · simp [hj]

/-! ### The mask of an access code -/

theorem testBit_foldl_or (l : List Nat) (a i : Nat) :
    (l.foldl (· ||| ·) a).testBit i = (a.testBit i || l.any (·.testBit i)) := by
  induction l generalizing a with
  | nil => simp
  | cons b l ih => simp [ih, Bool.or_assoc]

/-- A bit lies in the mask of access code `a` exactly where a field of that code has it. -/
theorem testBit_accMask (b : Blk) (o : Nat) (a : Acc) (i : Nat) :
    (accMask b o a).testBit i = true ↔
      ∃ f ∈ b.fields, f.covers o = true ∧ f.acc = a ∧ ((2 ^ f.w - 1) * 2 ^ f.lo).testBit i = true := by
  simp [accMask, testBit_foldl_or, and_assoc]

/-- Where no field of access code `a` lies in the word, the mask is empty. -/
theorem accMask_eq_zero {b : Blk} {o : Nat} {a : Acc} (h : ∀ f ∈ b.fields, f.acc = a → f.covers o = false) :
    accMask b o a = 0 := by
  refine Nat.eq_of_testBit_eq fun i => ?_
  rw [Nat.zero_testBit, ← Bool.not_eq_true, testBit_accMask]
  rintro ⟨f, hf, hc, ha, -⟩
  simp [h f hf ha] at hc

/-- A gallery window has no RWL field (12 R406). -/
theorem galleries_no_rwl : ∀ f ∈ Reg.galleriesFields, f.acc ≠ .rwl := by decide

/-- A write in a gallery window takes its RW fields and clears its W1C bits. -/
theorem State.plainWrite_gallery (s : State) (g : Fin 8) (o v mask : Nat) :
    s.plainWrite (.gallery g) o v mask = s.setWord o (BitVec.ofNat 32 (maskedWrite (s.word o).toNat v
      (accMask (.gallery g) o .rw &&& mask) (accMask (.gallery g) o .w1c &&& mask &&& v))) := by
  have hl : accMask (.gallery g) o .rwl = 0 := accMask_eq_zero fun f hf ha => absurd ha (galleries_no_rwl f hf)
  simp [State.plainWrite, hl, rangeChecked, maskedWrite]

/-- A write in a gallery window changes registers alone. -/
theorem State.plainWrite_gallery_mem (s : State) (g : Fin 8) (o v mask : Nat) : (s.plainWrite (.gallery g) o v mask).mem = s.mem := by
  rw [State.plainWrite_gallery, State.setWord_mem]

theorem State.plainWrite_gallery_tls (s : State) (g : Fin 8) (o v mask : Nat) : (s.plainWrite (.gallery g) o v mask).tls = s.tls := by
  rw [State.plainWrite_gallery, State.setWord_tls]

/-! ### A malformed access (02 R62) -/

theorem State.bad_eq (s : State) (b : Blk) : s.bad b = (s.flag b.badacc true).raise 5 s.now := rfl

@[simp] theorem State.bad_mem (s : State) (b : Blk) : (s.bad b).mem = s.mem := by
  rw [State.bad_eq, (SameBut.raise _ 5 _ (by decide)).mem, State.flag_mem]

@[simp] theorem State.bad_pend (s : State) (b : Blk) : (s.bad b).on (evPend 5) = true := (PendKept.raise _ 5 _).2

/-- Every place outside the event words and the header's status word reads as before. -/
theorem State.bad_get (s : State) (b : Blk) (l : Loc) (he : ¬ eventWord l.off) (hb : l.off ≠ b.badacc.off) :
    (s.bad b).get l = s.get l := by
  rw [State.bad_eq, State.get, (SameBut.raise _ 5 _ (by decide)).word _ he, ← State.get]
  exact State.get_put_other _ _ _ _ (.inl hb)

/-- BADACC is set. -/
theorem State.bad_badacc (s : State) (b : Blk) (he : ¬ eventWord b.badacc.off) : (s.bad b).on b.badacc = true := by
  rw [State.bad_eq, State.on, State.get, (SameBut.raise _ 5 _ (by decide)).word _ he, ← State.get, ← State.on]
  exact State.on_flag_same _ _ _ (by decide : 26 + 1 ≤ 32) (by decide : 1 ≤ 1)

end Sys2Proof.Machine
end

section
/-!
SUPPORT. The read index of a tuner ring (12 R392) and its word in the tile's block.
-/
namespace Sys2Proof.Machine

/-- The read index of ring slot `k` of tile `t`. -/
def ridx (t k : Nat) : Loc := Reg.TILE_RING1_RIDX.tk t k

theorem ridx_off (t k : Nat) : (ridx t k).off = 0x3010144 + (t / 8 * 0x100000 + (t % 8 * 0x10000 + (k * 8 + 0))) := rfl

theorem galleryAt_ridx {t k : Nat} (hk : k < 16) : galleryAt (ridx t k).off = .gallery (Fin.ofNat 8 (t / 8)) := by
  have hw : ((ridx t k).off - 0x3000000) / 0x100000 = t / 8 := by
    rw [ridx_off]
    omega
  rw [galleryAt, hw]

/-- The W1C words of a gallery window are those of TILE_EVST, TILE_TIP and DMA_CHSTAT. -/
theorem galleries_w1c : ∀ f ∈ Reg.galleriesFields, f.acc = .w1c →
    f.dims = [(0x100000, 8), (0x10000, 8)] ∧ (f.off = 0x3010038 ∨ f.off = 0x3010044) ∨
      f.dims = [(0x100000, 8), (0x40, 16)] ∧ f.off = 0x30C0108 := by decide

/-- No W1C field lies in the word of a read index. -/
theorem accMask_ridx_w1c (g : Fin 8) (t : Nat) {k : Nat} (hk : k < 16) : accMask (.gallery g) (ridx t k).off .w1c = 0 := by
  refine accMask_eq_zero fun f hf ha => ?_
  rw [ridx_off, Fld.covers]
  obtain ⟨hd, ho | ho⟩ | ⟨hd, ho⟩ := galleries_w1c f hf ha <;> simp [hd, ho, coversOff] <;> omega

/-- RIDX is an RW field of its word. -/
theorem accMask_ridx_rw (g : Fin 8) {t k j : Nat} (ht : t < 64) (hk : k < 16) (hj : j < 16) :
    (accMask (.gallery g) (ridx t k).off .rw).testBit j = true := by
  rw [testBit_accMask]
  have hf : Reg.TILE_RING1_RIDX ∈ Reg.galleriesFields := by decide
  refine ⟨Reg.TILE_RING1_RIDX, hf, ?_, rfl, ?_⟩
  · simp [ridx_off, Fld.covers, Reg.TILE_RING1_RIDX, coversOff]
    omega
  · exact (congrArg (Nat.testBit · j) (Nat.mul_one _)).trans ((Nat.testBit_two_pow_sub_one 16 j).trans (decide_eq_true hj))

/-- A write of the whole word sets RIDX. -/
theorem State.plainWrite_ridx (s : State) {t k : Nat} (v : Nat) (ht : t < 64) (hk : k < 16) :
    (s.plainWrite (galleryAt (ridx t k).off) (ridx t k).off v 0xFFFFFFFF).get (ridx t k) = v % 2 ^ 16 := by
  rw [galleryAt_ridx hk, State.plainWrite_gallery, State.get, State.word_setWord_same]
  refine (bits_maskedWrite _ _ _ _ 0 16 true (by decide) (fun j hj => ?_) (fun j hj => ?_)).trans (by simp [bits])
  · rw [Nat.zero_add, Nat.testBit_and, accMask_ridx_rw _ ht hk hj, testBit_ones32 (by omega), Bool.and_self]
  · simp [accMask_ridx_w1c _ t hk]

/-- A write of the byte above OVF leaves RIDX. -/
theorem State.plainWrite_wmark_ridx (s : State) {t k : Nat} (v : Nat) (hk : k < 16) :
    (s.plainWrite (galleryAt (ridx t k).off) (ridx t k).off v 0xFF000000).get (ridx t k) = s.get (ridx t k) := by
  rw [galleryAt_ridx hk, State.plainWrite_gallery, State.get, State.word_setWord_same]
  refine bits_maskedWrite _ _ _ _ 0 16 false (by decide) (fun j hj => ?_) (fun j hj => ?_)
  · have hz : ∀ j < 16, Nat.testBit 0xFF000000 (0 + j) = false := by decide
    rw [Nat.testBit_and, hz j hj, Bool.and_false]
  · simp [accMask_ridx_w1c _ t hk]

theorem ridx_not_eventWord (t k : Nat) : ¬ eventWord (ridx t k).off := by
  rw [ridx_off, eventWord]
  omega

theorem gallery_badacc_off (g : Fin 8) : (Blk.gallery g).badacc.off = 0x3000000 + g.val * 0x100000 + 4 := rfl

theorem ridx_ne_badacc (g : Fin 8) {t k : Nat} (hk : k < 16) : (ridx t k).off ≠ (Blk.gallery g).badacc.off := by
  rw [ridx_off, gallery_badacc_off]
  omega

theorem gallery_badacc_not_eventWord (g : Fin 8) : ¬ eventWord (Blk.gallery g).badacc.off := by
  rw [gallery_badacc_off, eventWord]
  omega

/-- A write of RIDX lies within the ring where at most NB blocks lie between it and WIDX. -/
theorem State.ridxOk_iff (s : State) (t k r : Nat) :
    s.ridxOk t k r = true ↔ (s.get (Reg.TILE_RING0_WIDX.tk t k) + 2 ^ 16 - r) % 2 ^ 16 ≤ s.ringBlocks t k :=
  decide_eq_true_iff

/-! ### The host's write -/

/-- A host write of the ring word, by whether its RIDX lies within the ring. -/
theorem exec_tileRingRidxWrite {s : State} {t k : Nat} {v : Word} (hf : s.fenced t = false) (hk : k < 16) :
    exec (.tileRingRidxWrite t k v) s = .next
      (bif s.ridxOk t k (v.toNat % 2 ^ 16) then s.plainWrite (galleryAt (ridx t k).off) (ridx t k).off v.toNat 0xFFFFFFFF
      else (s.plainWrite (galleryAt (ridx t k).off) (ridx t k).off v.toNat 0xFF000000).bad (.gallery (Fin.ofNat 8 (t / 8)))) := by
  have hv : bits v.toNat 0 16 = v.toNat % 2 ^ 16 := by simp [bits]
  rw [← galleryAt_ridx hk, ← hv]
  change Host.Outcome.next (bif s.fenced t then _ else _) = _
  rw [hf, cond_false]
  rfl

/-! ### The core's store -/

theorem tileState_off (t : Nat) : (tileState t).off = 0x3010004 + (t / 8 * 0x100000 + (t % 8 * 0x10000 + 0)) := rfl

theorem tileBase_eq (t : Nat) : tileBase t = 0x3010000 + t / 8 * 0x100000 + t % 8 * 0x10000 := by
  rw [tileBase, tileState_off]
  omega

theorem tileBase_ridx (t k : Nat) : tileBase t + (0x144 + 8 * k) = (ridx t k).off := by
  rw [tileBase_eq, ridx_off]
  omega

theorem galleryAt_tileBase (t : Nat) : galleryAt (tileBase t) = .gallery (Fin.ofNat 8 (t / 8)) := by
  have hw : (tileBase t - 0x3000000) / 0x100000 = t / 8 := by
    rw [tileBase_eq]
    omega
  rw [galleryAt, hw]

/-- The core's address of a word of its own block. -/
theorem State.coreAt_own (s : State) (t o w : Nat) (h : o + w ≤ 0x200) : s.coreAt t (0xFFF00000 + o) w = .reg o := by
  have below (b : Nat) (hb : b ≤ 0xFFF00000) : lt (0xFFF00000 + o) b = false := decide_eq_false (by omega)
  have start : le 0xFFF00000 (0xFFF00000 + o) = true := decide_eq_true (by omega)
  have stop : le (0xFFF00000 + o + w) 0xFFF00200 = true := decide_eq_true (by omega)
  rw [State.coreAt, below 0x200000 (by decide), below 0x20000000 (by decide), below 0x30000000 (by decide),
    below 0x80000000 (by decide), start, stop]
  simp

/-- Word 1 of ring slot `k` is a word of the tile's block that the core may write. -/
theorem ring1_not_hostOnly (k : Nat) : hostOnly (0x144 + 8 * k) = false := by
  simp [hostOnly]
  omega

/-- The store of a read index faults exactly where the index lies beyond the ring. -/
theorem State.storeFault_ridx (s : State) (t v : Nat) {k : Nat} (hk : k < 8) :
    s.storeFault t 4 v (.reg (0x144 + 8 * k)) = bif s.ridxOk t k (v % 2 ^ 16) then 0 else 7 := by
  have hw : (0x144 + 8 * k) / 4 * 4 = 0x144 + 8 * k := by omega
  have hslot : (0x144 + 8 * k - 0x140) / 8 = k := by omega
  have hlo : le 0x140 (0x144 + 8 * k) = true := decide_eq_true (by omega)
  have hhi : lt (0x144 + 8 * k) 0x1C0 = true := decide_eq_true (by omega)
  have hal : ((0x144 + 8 * k) % 4 == 0) = true := beq_iff_eq.mpr (by omega)
  have hwide : le 2 4 = true := rfl
  have hf : s.storeFault t 4 v (.reg (0x144 + 8 * k)) = bif !s.ridxOk t k (v % 2 ^ 16) then 7 else 0 := by
    simp [State.storeFault, upto, hw, ring1_not_hostOnly, hslot, hlo, hhi, hal, hwide]
  rw [hf, Bool.cond_not]

/-- A word store to an own register is one write of its word. -/
theorem State.coreStore_word (s : State) (t : Nat) {v o : Nat} (hv : v < 2 ^ 32) (ho : o / 4 * 4 = o) :
    s.coreStore t 4 v (.reg o) = s.ownWrite t o v 0xFFFFFFFF := by
  have hv' : v % 4294967296 = v := Nat.mod_eq_of_lt hv
  simp [State.coreStore, upto, ho, hv']

/-- The core's write of the ring word restarts no timer. -/
theorem State.ownWrite_ridx (s : State) (t v : Nat) {k : Nat} (hk : k < 8) :
    s.ownWrite t (0x144 + 8 * k) v 0xFFFFFFFF = s.plainWrite (galleryAt (ridx t k).off) (ridx t k).off v 0xFFFFFFFF := by
  have htimer : lt (0x144 + 8 * k) 0xC0 = false := decide_eq_false (by omega)
  rw [State.ownWrite, tileBase_ridx, galleryAt_tileBase, galleryAt_ridx (by omega : k < 16), htimer, Bool.and_false,
    Bool.false_and, cond_false]

/-- A store of word 1 of ring slot `k` writes the word. -/
theorem State.coreStore_ridx (s : State) (t : Nat) {v k : Nat} (hv : v < 2 ^ 32) (hk : k < 8) :
    s.coreStore t 4 v (.reg (0x144 + 8 * k)) = s.plainWrite (galleryAt (ridx t k).off) (ridx t k).off v 0xFFFFFFFF := by
  rw [State.coreStore_word s t hv (by omega), State.ownWrite_ridx s t v hk]

/-! ### The core goes on -/

@[simp] theorem State.goTo_mem (s : State) (t a : Nat) : (s.goTo t a).mem = s.mem := by simp [State.goTo, State.tilePut]

/-- Putting a tile writes TILE_STAT and TILE_PC alone. -/
theorem State.get_tilePut (s : State) (t : Nat) (x : Tile) (l : Loc) (hstat : l.off ≠ (tileState t).off)
    (hpc : l.off ≠ (Reg.TILE_PC_PC.t t).off) : (s.tilePut t x).get l = s.get l :=
  (State.get_put_other _ (Reg.TILE_PC_PC.t t) l _ (.inl hpc)).trans
    ((State.get_put_other _ (Reg.TILE_STAT_PRGV.t t) l _ (.inl hstat)).trans
      (State.get_put_other _ (Reg.TILE_STAT_LVL.t t) l _ (.inl hstat)))

/-- Going on leaves every read index alone. -/
theorem State.get_goTo_ridx (s : State) (t n k a : Nat) (hk : k < 16) : (s.goTo t a).get (ridx n k) = s.get (ridx n k) := by
  have hstat : (ridx n k).off ≠ (tileState t).off := by
    rw [ridx_off, tileState_off]
    omega
  have hpc : (ridx n k).off ≠ (Reg.TILE_PC_PC.t t).off := by
    rw [ridx_off, show (Reg.TILE_PC_PC.t t).off = 0x3010008 + (t / 8 * 0x100000 + (t % 8 * 0x10000 + 0)) from rfl]
    omega
  rw [State.goTo, State.get_tilePut _ t _ _ hstat hpc]

/-! ### The word store and the ring -/

theorem exec_stw (s : State) (t : Nat) (y : LsSyl) : exec (.stw t y) s = .next (s.syllable t (y.word 0xA)) := rfl

section
variable {s : State} {t k : Nat} {y : LsSyl} (hk : k < 8) (hr : s.readyAt t = true) (hs : y.stop = true)
  (hq : (s.tile t).cur.pred y.qp.toNat = true) (hm : y.mode = 0)
  (ha : toU 32 (((s.tile t).cur.pReg y.pn.toNat : Int) + y.imm.toInt * 4) = 0xFFF00144 + 8 * k)
include hk hq hm ha

/-- The effects of a word store to the ring word of slot `k`. -/
theorem State.sylFx_stw_ridx :
    s.sylFx t (y.word 0xA) =
      bif s.ridxOk t k (((s.tile t).cur.dReg y.data.toNat).toNat % 2 ^ 16) then
        Fx.store (.reg (0x144 + 8 * k)) 4 ((s.tile t).cur.dReg y.data.toNat).toNat
      else { Fx.none with fault := (7, 0xFFF00144 + 8 * k) } := by
  have he := y.word_encodes (by decide : 0xA < 16)
  have hc : s.coreAt t (0xFFF00144 + 8 * k) 4 = .reg (0x144 + 8 * k) := by
    rw [show 0xFFF00144 + 8 * k = 0xFFF00000 + (0x144 + 8 * k) by omega]
    exact s.coreAt_own t _ 4 (by omega)
  rw [State.sylFx_ls he hq, State.lsFx_stw_reg he hm ha hc (by omega), s.storeFault_ridx t _ hk]
  cases s.ridxOk t k (((s.tile t).cur.dReg y.data.toNat).toNat % 2 ^ 16) <;> rfl

include hr hs

/-- A store beyond the ring faults with RING. -/
theorem exec_stw_beyond (hb : s.ridxOk t k (((s.tile t).cur.dReg y.data.toNat).toNat % 2 ^ 16) = false) :
    exec (.stw t y) s = .next ((s.issuing t).tileFault t 7 (0xFFF00144 + 8 * k)) := by
  have he := y.word_encodes (by decide : 0xA < 16)
  have hf := State.sylFx_stw_ridx hk hq hm ha
  rw [hb, cond_false] at hf
  rw [exec_stw, State.syllable_issues hr he hs, State.issue_faults he hs (he.stw_ok hm _) hr rfl hf]

/-- A store within the ring writes the word, and the core goes on. -/
theorem exec_stw_within (hb : s.ridxOk t k (((s.tile t).cur.dReg y.data.toNat).toNat % 2 ^ 16) = true) :
    exec (.stw t y) s = .next
      (((s.bundleTaken t (s.tile t).cur 0).plainWrite (galleryAt (ridx t k).off) (ridx t k).off
        ((s.tile t).cur.dReg y.data.toNat).toNat 0xFFFFFFFF).goTo t (s.tile t).cur.after) := by
  have he := y.word_encodes (by decide : 0xA < 16)
  have hf := State.sylFx_stw_ridx hk hq hm ha
  rw [hb, cond_true] at hf
  obtain ⟨-, -, h0, h1⟩ := s.readyAt_iff t |>.mp hr
  have hcur : (((s.bundleTaken t (s.tile t).cur 0).plainWrite (galleryAt (ridx t k).off) (ridx t k).off
      ((s.tile t).cur.dReg y.data.toNat).toNat 0xFFFFFFFF).tile t).cur = (s.tile t).cur := by
    rw [State.tile, galleryAt, State.plainWrite_gallery_tls, ← State.tile, State.bundleTaken_cur]
  rw [exec_stw, State.syllable_issues hr he hs, State.issue_stores he hs (he.stw_ok hm _) hr hf,
    State.coreStore_ridx _ t (BitVec.isLt _) hk, State.control_none (by rw [hcur, h0]) (by rw [hcur, h1])]

end

/-- Settles O42: the written word holds RIDX whole, no W1C bit lies over it, and a write beyond the ring is masked off it (host) or
faults before it (core). -/
theorem ringIndexStaysWithinTheRing : Obligations.RingIndexStaysWithinTheRing := by
  refine ⟨fun s n k v hn hk hf hin => ?_, fun s n k v hn hk hf hout => ?_, ?_, ?_⟩
  · have hok := (s.ridxOk_iff n k _).mpr hin
    refine ⟨_, (exec_tileRingRidxWrite hf (by omega)).trans (by rw [hok, cond_true]), ?_, ?_⟩
    · exact s.plainWrite_ridx v.toNat hn (by omega)
    · exact s.plainWrite_gallery_mem _ _ _ _
  · have hok : s.ridxOk n k (v.toNat % 2 ^ 16) = false := by rw [← Bool.not_eq_true, s.ridxOk_iff]; omega
    refine ⟨_, (exec_tileRingRidxWrite hf (by omega)).trans (by rw [hok, cond_false]), ?_, ?_, State.bad_pend _ _, ?_⟩
    · exact (State.bad_get _ _ (ridx n k) (ridx_not_eventWord n k) (ridx_ne_badacc _ (by omega))).trans
        (s.plainWrite_wmark_ridx v.toNat (by omega))
    · exact State.bad_badacc _ _ (gallery_badacc_not_eventWord _)
    · rw [State.bad_mem]
      exact s.plainWrite_gallery_mem _ _ _ _
  · rintro s n k v x y hn hk hr hs rfl hq hm ha rfl hin
    refine ⟨_, exec_stw_within hk hr hs hq hm ha ((s.ridxOk_iff n k _).mpr hin), ?_, ?_⟩
    · exact (State.get_goTo_ridx _ n n k _ (by omega)).trans (State.plainWrite_ridx _ _ hn (by omega))
    · rw [State.goTo_mem]
      exact State.plainWrite_gallery_mem _ _ _ _ _
  · rintro s n k v x y - hk hr hs rfl hq hm ha rfl hout
    exact exec_stw_beyond hk hr hs hq hm ha (by rw [← Bool.not_eq_true, s.ridxOk_iff]; omega)

end Sys2Proof.Machine
end

section
/-!
SUPPORT. Every command of the table keeps the canonical forms and the queue; what a step does with either queue.
-/
namespace Sys2Proof.Machine

/-- Every command answers a next state, which keeps the canonical forms and the queue of waiting commands. -/
theorem exec_keeps (c : Instr) (s : State) : KeepsRes s (exec c s) := by
  cases c with
  | registerWrite _ _ _ => exact execRegisterWrite_keeps _ _ _ s (.refl s)
  | rlRead _ _ => exact execRlRead_keeps _ _ s (.refl s)
  | badAccess _ _ _ _ _ => exact execBadAccess_keeps _ _ _ _ _ s (.refl s)
  | blkLockSet _ => exact execBlkLockSet_keeps _ s (.refl s)
  | tvCompare _ _ _ _ _ => exact execTvCompare_keeps _ _ _ _ _ s (.refl s)
  | tvRestoreDone _ => exact execTvRestoreDone_keeps _ s (.refl s)
  | eventOccurrence _ => exact execEventOccurrence_keeps _ s (.refl s)
  | evtPendClear _ _ => exact execEvtPendClear_keeps _ _ s (.refl s)
  | evtCfgWrite _ _ => exact execEvtCfgWrite_keeps _ _ s (.refl s)
  | oapRequest _ _ _ => exact execOapRequest_keeps _ _ _ s (.refl s)
  | objRead _ _ _ => exact execObjRead_keeps _ _ _ s (.refl s)
  | objWrite _ _ _ _ _ _ => exact execObjWrite_keeps _ _ _ _ _ _ s (.refl s)
  | objReadRange _ _ _ _ => exact execObjReadRange_keeps _ _ _ _ s (.refl s)
  | objDescribe _ _ => exact execObjDescribe_keeps _ _ s (.refl s)
  | objSubscribe _ _ => exact execObjSubscribe_keeps _ _ s (.refl s)
  | oapOpen _ _ _ => exact execOapOpen_keeps _ _ _ s (.refl s)
  | oapClose _ _ _ => exact execOapClose_keeps _ _ _ s (.refl s)
  | sessionIdleTimeout _ => exact execSessionIdleTimeout_keeps _ s (.refl s)
  | notifySend _ => exact execNotifySend_keeps _ s (.refl s)
  | notifyAck _ _ _ => exact execNotifyAck_keeps _ _ _ s (.refl s)
  | notifyResend _ _ => exact execNotifyResend_keeps _ _ s (.refl s)
  | netSettingsApply _ => exact execNetSettingsApply_keeps _ s (.refl s)
  | persistStore _ => exact execPersistStore_keeps _ s (.refl s)
  | persistErase _ => exact execPersistErase_keeps _ s (.refl s)
  | persistDone => exact execPersistDone_keeps s (.refl s)
  | mbxCtrlWrite _ => exact execMbxCtrlWrite_keeps _ s (.refl s)
  | mailboxResponseDone => exact execMailboxResponseDone_keeps s (.refl s)
  | pcieFlr => exact execPcieFlr_keeps s (.refl s)
  | tbSetArm _ _ _ => exact execTbSetArm_keeps _ _ _ s (.refl s)
  | tbCancel => exact execTbCancel_keeps s (.refl s)
  | tbSetApply _ => exact execTbSetApply_keeps _ s (.refl s)
  | eraIncrement => exact execEraIncrement_keeps s (.refl s)
  | ppsEdge _ _ _ => exact execPpsEdge_keeps _ _ _ s (.refl s)
  | ppsMiss => exact execPpsMiss_keeps s (.refl s)
  | tbAdjRateWrite _ => exact execTbAdjRateWrite_keeps _ s (.refl s)
  | softDiscStale => exact execSoftDiscStale_keeps s (.refl s)
  | refGateEnd _ _ => exact execRefGateEnd_keeps _ _ s (.refl s)
  | refLost _ => exact execRefLost_keeps _ s (.refl s)
  | refSwitchover => exact execRefSwitchover_keeps s (.refl s)
  | ptpEventRx _ _ _ _ => exact execPtpEventRx_keeps _ _ _ _ s (.refl s)
  | ptpTxTimestamp _ _ _ => exact execPtpTxTimestamp_keeps _ _ _ s (.refl s)
  | ptpPop _ => exact execPtpPop_keeps _ s (.refl s)
  | laneSignalDetect _ => exact execLaneSignalDetect_keeps _ s (.refl s)
  | lossOfSignal _ => exact execLossOfSignal_keeps _ s (.refl s)
  | adaptationDone _ => exact execAdaptationDone_keeps _ s (.refl s)
  | adaptTimeout _ => exact execAdaptTimeout_keeps _ s (.refl s)
  | lmbRx _ _ _ => exact execLmbRx_keeps _ _ _ s (.refl s)
  | blockLockLoss _ => exact execBlockLockLoss_keeps _ s (.refl s)
  | frameVerdict _ _ _ => exact execFrameVerdict_keeps _ _ _ s (.refl s)
  | frameLongCheck _ _ => exact execFrameLongCheck_keeps _ _ s (.refl s)
  | gapInterim _ => exact execGapInterim_keeps _ s (.refl s)
  | ratefaultClear _ => exact execRatefaultClear_keeps _ s (.refl s)
  | jesdLinkLock _ _ => exact execJesdLinkLock_keeps _ _ s (.refl s)
  | jesdMultiblockRelease _ _ _ _ _ _ => exact execJesdMultiblockRelease_keeps _ _ _ _ _ _ s (.refl s)
  | fastPathSample _ _ _ _ _ => exact execFastPathSample_keeps _ _ _ _ _ s (.refl s)
  | sampleRelease _ => exact execSampleRelease_keeps _ s (.refl s)
  | ingressSwap _ => exact execIngressSwap_keeps _ s (.refl s)
  | coarseSpectrum _ _ _ => exact execCoarseSpectrum_keeps _ _ _ s (.refl s)
  | sketchSpectrum _ _ => exact execSketchSpectrum_keeps _ _ s (.refl s)
  | sketchDeadline _ _ => exact execSketchDeadline_keeps _ _ s (.refl s)
  | cchSwap _ _ => exact execCchSwap_keeps _ _ s (.refl s)
  | coarseVoidDeadline _ _ => exact execCoarseVoidDeadline_keeps _ _ s (.refl s)
  | fineSpectrumDue _ _ => exact execFineSpectrumDue_keeps _ _ s (.refl s)
  | fineSpectrum _ _ _ => exact execFineSpectrum_keeps _ _ _ s (.refl s)
  | fchSwap _ => exact execFchSwap_keeps _ s (.refl s)
  | intervalDeadline _ _ => exact execIntervalDeadline_keeps _ _ s (.refl s)
  | detectorRecordClose _ _ => exact execDetectorRecordClose_keeps _ _ s (.refl s)
  | sketchRecordHoldEnd _ _ => exact execSketchRecordHoldEnd_keeps _ _ s (.refl s)
  | dvwClrHold _ => exact execDvwClrHold_keeps _ s (.refl s)
  | dvwClrPersist _ => exact execDvwClrPersist_keeps _ s (.refl s)
  | viewSwap _ => exact execViewSwap_keeps _ s (.refl s)
  | viewDrained _ => exact execViewDrained_keeps _ s (.refl s)
  | viewRateStep _ _ _ => exact execViewRateStep_keeps _ _ _ s (.refl s)
  | tunerOutput _ => exact execTunerOutput_keeps _ s (.refl s)
  | tunerSwap _ => exact execTunerSwap_keeps _ s (.refl s)
  | glazeEnd _ => exact execGlazeEnd_keeps _ s (.refl s)
  | tunerDrained _ => exact execTunerDrained_keeps _ s (.refl s)
  | tunerStepChange _ => exact execTunerStepChange_keeps _ s (.refl s)
  | triggerProduct _ _ _ => exact execTriggerProduct_keeps _ _ _ s (.refl s)
  | triggerFire _ => exact execTriggerFire_keeps _ s (.refl s)
  | holdoffEnd _ => exact execHoldoffEnd_keeps _ s (.refl s)
  | trgArm _ _ => exact execTrgArm_keeps _ _ s (.refl s)
  | trgDisarm _ _ => exact execTrgDisarm_keeps _ _ s (.refl s)
  | trgForce _ _ => exact execTrgForce_keeps _ _ s (.refl s)
  | forceScheduled _ => exact execForceScheduled_keeps _ s (.refl s)
  | trigInEdge _ _ _ _ => exact execTrigInEdge_keeps _ _ _ _ s (.refl s)
  | softTrigger _ _ _ => exact execSoftTrigger_keeps _ _ _ s (.refl s)
  | pairGroupArm _ => exact execPairGroupArm_keeps _ s (.refl s)
  | toutAlignedEdge _ => exact execToutAlignedEdge_keeps _ s (.refl s)
  | toutPulseEnd _ => exact execToutPulseEnd_keeps _ s (.refl s)
  | triggerRecordRelease _ => exact execTriggerRecordRelease_keeps _ s (.refl s)
  | triggerRecordDequeue _ => exact execTriggerRecordDequeue_keeps _ s (.refl s)
  | triggerUnitSwap _ => exact execTriggerUnitSwap_keeps _ s (.refl s)
  | capRequest _ => exact execCapRequest_keeps _ s (.refl s)
  | captureHeld _ => exact execCaptureHeld_keeps _ s (.refl s)
  | capRead _ => exact execCapRead_keeps _ s (.refl s)
  | capRelease _ => exact execCapRelease_keeps _ s (.refl s)
  | capstatDone _ => exact execCapstatDone_keeps _ s (.refl s)
  | readoutEnd _ => exact execReadoutEnd_keeps _ s (.refl s)
  | hbmWriterStart => exact execHbmWriterStart_keeps s (.refl s)
  | watchDrainDone => exact execWatchDrainDone_keeps s (.refl s)
  | ladderEvaluation => exact execLadderEvaluation_keeps s (.refl s)
  | recorderSwap => exact execRecorderSwap_keeps s (.refl s)
  | seamAbsentDeadline _ _ => exact execSeamAbsentDeadline_keeps _ _ s (.refl s)
  | seamCellRelease _ _ => exact execSeamCellRelease_keeps _ _ s (.refl s)
  | seamSkewCheck _ => exact execSeamSkewCheck_keeps _ s (.refl s)
  | subintEnd => exact execSubintEnd_keeps s (.refl s)
  | xspIntervalClose => exact execXspIntervalClose_keeps s (.refl s)
  | dumpSlot => exact execDumpSlot_keeps s (.refl s)
  | beamvoltEmit _ _ => exact execBeamvoltEmit_keeps _ _ s (.refl s)
  | xspWdataWrite _ => exact execXspWdataWrite_keeps _ s (.refl s)
  | xspSwap => exact execXspSwap_keeps s (.refl s)
  | xspDumpDrained => exact execXspDumpDrained_keeps s (.refl s)
  | ldb _ _ => exact execLdb_keeps _ _ s (.refl s)
  | ldbu _ _ => exact execLdbu_keeps _ _ s (.refl s)
  | ldh _ _ => exact execLdh_keeps _ _ s (.refl s)
  | ldhu _ _ => exact execLdhu_keeps _ _ s (.refl s)
  | ldw _ _ => exact execLdw_keeps _ _ s (.refl s)
  | ldd _ _ => exact execLdd_keeps _ _ s (.refl s)
  | ldq _ _ => exact execLdq_keeps _ _ s (.refl s)
  | lea _ _ => exact execLea_keeps _ _ s (.refl s)
  | stb _ _ => exact execStb_keeps _ _ s (.refl s)
  | sth _ _ => exact execSth_keeps _ _ s (.refl s)
  | stw _ _ => exact execStw_keeps _ _ s (.refl s)
  | std _ _ => exact execStd_keeps _ _ s (.refl s)
  | stq _ _ => exact execStq_keeps _ _ s (.refl s)
  | stac _ _ => exact execStac_keeps _ _ s (.refl s)
  | lkacq _ _ => exact execLkacq_keeps _ _ s (.refl s)
  | lkrel _ _ => exact execLkrel_keeps _ _ s (.refl s)
  | cmac _ _ => exact execCmac_keeps _ _ s (.refl s)
  | cmacc _ _ => exact execCmacc_keeps _ _ s (.refl s)
  | cmsb _ _ => exact execCmsb_keeps _ _ s (.refl s)
  | cmul _ _ => exact execCmul_keeps _ _ s (.refl s)
  | cmulc _ _ => exact execCmulc_keeps _ _ s (.refl s)
  | rmac _ _ => exact execRmac_keeps _ _ s (.refl s)
  | rmul _ _ => exact execRmul_keeps _ _ s (.refl s)
  | aclr _ _ => exact execAclr_keeps _ _ s (.refl s)
  | aadd _ _ => exact execAadd_keeps _ _ s (.refl s)
  | amov _ _ => exact execAmov_keeps _ _ s (.refl s)
  | extc _ _ => exact execExtc_keeps _ _ s (.refl s)
  | exti _ _ => exact execExti_keeps _ _ s (.refl s)
  | extq _ _ => exact execExtq_keeps _ _ s (.refl s)
  | aget _ _ => exact execAget_keeps _ _ s (.refl s)
  | aset _ _ => exact execAset_keeps _ _ s (.refl s)
  | add _ _ => exact execAdd_keeps _ _ s (.refl s)
  | sub _ _ => exact execSub_keeps _ _ s (.refl s)
  | adds _ _ => exact execAdds_keeps _ _ s (.refl s)
  | subs _ _ => exact execSubs_keeps _ _ s (.refl s)
  | and _ _ => exact execAnd_keeps _ _ s (.refl s)
  | or _ _ => exact execOr_keeps _ _ s (.refl s)
  | xor _ _ => exact execXor_keeps _ _ s (.refl s)
  | andn _ _ => exact execAndn_keeps _ _ s (.refl s)
  | shl _ _ => exact execShl_keeps _ _ s (.refl s)
  | shr _ _ => exact execShr_keeps _ _ s (.refl s)
  | sar _ _ => exact execSar_keeps _ _ s (.refl s)
  | min _ _ => exact execMin_keeps _ _ s (.refl s)
  | max _ _ => exact execMax_keeps _ _ s (.refl s)
  | minu _ _ => exact execMinu_keeps _ _ s (.refl s)
  | maxu _ _ => exact execMaxu_keeps _ _ s (.refl s)
  | mov _ _ => exact execMov_keeps _ _ s (.refl s)
  | cadd _ _ => exact execCadd_keeps _ _ s (.refl s)
  | csub _ _ => exact execCsub_keeps _ _ s (.refl s)
  | cconj _ _ => exact execCconj_keeps _ _ s (.refl s)
  | cswap _ _ => exact execCswap_keeps _ _ s (.refl s)
  | cshr _ _ => exact execCshr_keeps _ _ s (.refl s)
  | pack _ _ => exact execPack_keeps _ _ s (.refl s)
  | cmpeq _ _ => exact execCmpeq_keeps _ _ s (.refl s)
  | cmplt _ _ => exact execCmplt_keeps _ _ s (.refl s)
  | cmpltu _ _ => exact execCmpltu_keeps _ _ s (.refl s)
  | cmple _ _ => exact execCmple_keeps _ _ s (.refl s)
  | qand _ _ => exact execQand_keeps _ _ s (.refl s)
  | qor _ _ => exact execQor_keeps _ _ s (.refl s)
  | qandn _ _ => exact execQandn_keeps _ _ s (.refl s)
  | mvtx _ _ => exact execMvtx_keeps _ _ s (.refl s)
  | mvfx _ _ => exact execMvfx_keeps _ _ s (.refl s)
  | mvfm _ _ => exact execMvfm_keeps _ _ s (.refl s)
  | mvtm _ _ => exact execMvtm_keeps _ _ s (.refl s)
  | addi _ _ => exact execAddi_keeps _ _ s (.refl s)
  | andi _ _ => exact execAndi_keeps _ _ s (.refl s)
  | ori _ _ => exact execOri_keeps _ _ s (.refl s)
  | shli _ _ => exact execShli_keeps _ _ s (.refl s)
  | shri _ _ => exact execShri_keeps _ _ s (.refl s)
  | sari _ _ => exact execSari_keeps _ _ s (.refl s)
  | movlo _ _ => exact execMovlo_keeps _ _ s (.refl s)
  | movhi _ _ => exact execMovhi_keeps _ _ s (.refl s)
  | nop _ _ => exact execNop_keeps _ _ s (.refl s)
  | br _ _ => exact execBr_keeps _ _ s (.refl s)
  | call _ _ => exact execCall_keeps _ _ s (.refl s)
  | ret _ _ => exact execRet_keeps _ _ s (.refl s)
  | loop _ _ => exact execLoop_keeps _ _ s (.refl s)
  | loopi _ _ => exact execLoopi_keeps _ _ s (.refl s)
  | lbrk _ _ => exact execLbrk_keeps _ _ s (.refl s)
  | rti _ _ => exact execRti_keeps _ _ s (.refl s)
  | swp _ _ => exact execSwp_keeps _ _ s (.refl s)
  | fence _ _ => exact execFence_keeps _ _ s (.refl s)
  | idle _ _ => exact execIdle_keeps _ _ s (.refl s)
  | bclr _ _ => exact execBclr_keeps _ _ s (.refl s)
  | bmac _ _ => exact execBmac_keeps _ _ s (.refl s)
  | bout _ _ => exact execBout_keeps _ _ s (.refl s)
  | bmov _ _ => exact execBmov_keeps _ _ s (.refl s)
  | bfft _ _ => exact execBfft_keeps _ _ s (.refl s)
  | benchGranuleEnd _ => exact execBenchGranuleEnd_keeps _ s (.refl s)
  | interruptEntry _ => exact execInterruptEntry_keeps _ s (.refl s)
  | tileTimerExpiry _ _ => exact execTileTimerExpiry_keeps _ _ s (.refl s)
  | tileTimerWrite _ _ _ _ => exact execTileTimerWrite_keeps _ _ _ _ s (.refl s)
  | edgeDetectorEdge _ _ _ _ => exact execEdgeDetectorEdge_keeps _ _ _ _ s (.refl s)
  | tunerRingBlock _ _ => exact execTunerRingBlock_keeps _ _ s (.refl s)
  | tileRingRidxWrite _ _ _ => exact execTileRingRidxWrite_keeps _ _ _ s (.refl s)
  | tileRun _ => exact execTileRun_keeps _ s (.refl s)
  | tileHalt _ => exact execTileHalt_keeps _ s (.refl s)
  | tileReset _ => exact execTileReset_keeps _ s (.refl s)
  | tileClockGate _ => exact execTileClockGate_keeps _ s (.refl s)
  | xctlArm _ _ => exact execXctlArm_keeps _ _ s (.refl s)
  | xctlForce _ => exact execXctlForce_keeps _ s (.refl s)
  | xctlCancel _ => exact execXctlCancel_keeps _ s (.refl s)
  | exchangeTimeout _ => exact execExchangeTimeout_keeps _ s (.refl s)
  | tilePdataWrite _ _ => exact execTilePdataWrite_keeps _ _ s (.refl s)
  | tileMdataAccess _ _ _ _ => exact execTileMdataAccess_keeps _ _ _ _ s (.refl s)
  | lockAcquire _ _ => exact execLockAcquire_keeps _ _ s (.refl s)
  | lockRelease _ _ => exact execLockRelease_keeps _ _ s (.refl s)
  | lockBreak _ _ => exact execLockBreak_keeps _ _ s (.refl s)
  | dmaStart _ _ => exact execDmaStart_keeps _ _ s (.refl s)
  | dmaDoorbell _ _ => exact execDmaDoorbell_keeps _ _ s (.refl s)
  | dmaStop _ _ => exact execDmaStop_keeps _ _ s (.refl s)
  | dmaAbort _ _ => exact execDmaAbort_keeps _ _ s (.refl s)
  | dmaClear _ _ => exact execDmaClear_keeps _ _ s (.refl s)
  | descriptorFetch _ _ => exact execDescriptorFetch_keeps _ _ s (.refl s)
  | descriptorComplete _ _ _ => exact execDescriptorComplete_keeps _ _ _ s (.refl s)
  | endMarkPoll _ _ => exact execEndMarkPoll_keeps _ _ s (.refl s)
  | dmaCqRidxWrite _ _ _ => exact execDmaCqRidxWrite_keeps _ _ _ s (.refl s)
  | dmaGsdataAccess _ _ _ _ _ => exact execDmaGsdataAccess_keeps _ _ _ _ _ s (.refl s)
  | hbmAccess _ _ _ _ _ => exact execHbmAccess_keeps _ _ _ _ _ s (.refl s)
  | rowIdleClose _ _ => exact execRowIdleClose_keeps _ _ s (.refl s)
  | refreshDue _ _ _ => exact execRefreshDue_keeps _ _ _ s (.refl s)
  | scrubPass _ _ _ => exact execScrubPass_keeps _ _ _ s (.refl s)
  | memRetire _ => exact execMemRetire_keeps _ s (.refl s)
  | memRestore _ => exact execMemRestore_keeps _ s (.refl s)
  | migrationStart => exact execMigrationStart_keeps s (.refl s)
  | migrationGrain => exact execMigrationGrain_keeps s (.refl s)
  | fold => exact execFold_keeps s (.refl s)
  | pcPowerDown _ _ => exact execPcPowerDown_keeps _ _ s (.refl s)
  | recordEnqueue => exact execRecordEnqueue_keeps s (.refl s)
  | protectedRecordEnter _ => exact execProtectedRecordEnter_keeps _ s (.refl s)
  | streamDeadTimeout _ => exact execStreamDeadTimeout_keeps _ s (.refl s)
  | streamFailedExit _ => exact execStreamFailedExit_keeps _ s (.refl s)
  | datagramSend _ _ _ => exact execDatagramSend_keeps _ _ _ s (.refl s)
  | ethFrameRx _ _ _ _ => exact execEthFrameRx_keeps _ _ _ _ s (.refl s)
  | portLinkChange _ _ => exact execPortLinkChange_keeps _ _ s (.refl s)
  | vrtDataPacket _ _ => exact execVrtDataPacket_keeps _ _ s (.refl s)
  | vrtContextPacket _ => exact execVrtContextPacket_keeps _ s (.refl s)
  | hrgTailWrite _ _ => exact execHrgTailWrite_keeps _ _ s (.refl s)
  | hostBufferWriteback _ _ _ _ => exact execHostBufferWriteback_keeps _ _ _ _ s (.refl s)
  | hostRingInterrupt _ => exact execHostRingInterrupt_keeps _ s (.refl s)
  | txFrameSend _ _ _ _ => exact execTxFrameSend_keeps _ _ _ _ s (.refl s)
  | diskAttach => exact execDiskAttach_keeps s (.refl s)
  | diskFormat => exact execDiskFormat_keeps s (.refl s)
  | diskDetach => exact execDiskDetach_keeps s (.refl s)
  | diskKeep => exact execDiskKeep_keeps s (.refl s)
  | diskFree => exact execDiskFree_keeps s (.refl s)
  | diskRead => exact execDiskRead_keeps s (.refl s)
  | diskCommandDone _ => exact execDiskCommandDone_keeps _ s (.refl s)
  | diskDataWrite _ _ _ => exact execDiskDataWrite_keeps _ _ _ s (.refl s)
  | diskWriteComplete _ => exact execDiskWriteComplete_keeps _ s (.refl s)
  | diskCheckpoint => exact execDiskCheckpoint_keeps s (.refl s)
  | journalWrite => exact execJournalWrite_keeps s (.refl s)
  | diskDriveFail _ => exact execDiskDriveFail_keeps _ s (.refl s)
  | streamSwap _ _ => exact execStreamSwap_keeps _ _ s (.refl s)
  | streamDrained _ => exact execStreamDrained_keeps _ s (.refl s)
  | displayPromotion _ _ => exact execDisplayPromotion_keeps _ _ s (.refl s)
  | overlayFetch _ _ _ => exact execOverlayFetch_keeps _ _ _ s (.refl s)
  | dspFlipWrite _ _ => exact execDspFlipWrite_keeps _ _ s (.refl s)
  | hpdPlug _ => exact execHpdPlug_keeps _ s (.refl s)
  | hpdUnplug _ => exact execHpdUnplug_keeps _ s (.refl s)
  | irqHpd _ => exact execIrqHpd_keeps _ s (.refl s)
  | linkTrainingDone _ _ _ => exact execLinkTrainingDone_keeps _ _ _ s (.refl s)
  | retrain _ => exact execRetrain_keeps _ s (.refl s)
  | auxNativeWrite _ => exact execAuxNativeWrite_keeps _ s (.refl s)
  | auxNativeRead _ => exact execAuxNativeRead_keeps _ s (.refl s)
  | auxI2cWrite _ => exact execAuxI2cWrite_keeps _ s (.refl s)
  | auxI2cRead _ => exact execAuxI2cRead_keeps _ s (.refl s)
  | auxDone _ _ _ => exact execAuxDone_keeps _ _ _ s (.refl s)
  | touchReadStart _ => exact execTouchReadStart_keeps _ s (.refl s)
  | touchReport _ _ => exact execTouchReport_keeps _ _ s (.refl s)
  | mkrRead _ => exact execMkrRead_keeps _ s (.refl s)
  | displaySwap _ => exact execDisplaySwap_keeps _ s (.refl s)
  | stimLaneTrained _ => exact execStimLaneTrained_keeps _ s (.refl s)
  | stimChannelStart _ => exact execStimChannelStart_keeps _ s (.refl s)
  | segmentBoundary _ _ => exact execSegmentBoundary_keeps _ _ s (.refl s)
  | stimulusSwap _ => exact execStimulusSwap_keeps _ s (.refl s)
  | calLane _ _ => exact execCalLane_keeps _ _ s (.refl s)
  | calAlign _ _ => exact execCalAlign_keeps _ _ s (.refl s)
  | calGain _ _ => exact execCalGain_keeps _ _ s (.refl s)
  | calFlat _ _ => exact execCalFlat_keeps _ _ s (.refl s)
  | calMonitor _ _ => exact execCalMonitor_keeps _ _ s (.refl s)
  | calAbort => exact execCalAbort_keeps s (.refl s)
  | calApply => exact execCalApply_keeps s (.refl s)
  | calSettleDone => exact execCalSettleDone_keeps s (.refl s)
  | calRunEnd _ _ => exact execCalRunEnd_keeps _ _ s (.refl s)
  | admCheck _ => exact execAdmCheck_keeps _ s (.refl s)
  | admCommit _ => exact execAdmCommit_keeps _ s (.refl s)
  | admAbort => exact execAdmAbort_keeps s (.refl s)
  | admissionCheckDone _ => exact execAdmissionCheckDone_keeps _ s (.refl s)
  | commitInstant => exact execCommitInstant_keeps s (.refl s)
  | relock => exact execRelock_keeps s (.refl s)
  | bandcal => exact execBandcal_keeps s (.refl s)
  | bandcalDone _ => exact execBandcalDone_keeps _ s (.refl s)
  | rootPllLock _ => exact execRootPllLock_keeps _ s (.refl s)
  | clockWalkStep => exact execClockWalkStep_keeps s (.refl s)
  | refGlitch => exact execRefGlitch_keeps s (.refl s)
  | holdoverExpiry => exact execHoldoverExpiry_keeps s (.refl s)
  | pllLockLoss => exact execPllLockLoss_keeps s (.refl s)
  | auxPllLock _ _ => exact execAuxPllLock_keeps _ _ s (.refl s)
  | clkOutWrite _ _ => exact execClkOutWrite_keeps _ _ s (.refl s)
  | sysrefFire => exact execSysrefFire_keeps s (.refl s)
  | pwrSleep => exact execPwrSleep_keeps s (.refl s)
  | pwrWatch => exact execPwrWatch_keeps s (.refl s)
  | pwrFull => exact execPwrFull_keeps s (.refl s)
  | pwrKeep => exact execPwrKeep_keeps s (.refl s)
  | wakeRequest _ => exact execWakeRequest_keeps _ s (.refl s)
  | modeTransitionDone => exact execModeTransitionDone_keeps s (.refl s)
  | governorSlot => exact execGovernorSlot_keeps s (.refl s)
  | islandUsable _ => exact execIslandUsable_keeps _ s (.refl s)
  | governorCheck => exact execGovernorCheck_keeps s (.refl s)
  | supplyGoodChange _ _ _ => exact execSupplyGoodChange_keeps _ _ _ s (.refl s)
  | supplyUndervoltage _ => exact execSupplyUndervoltage_keeps _ s (.refl s)
  | resetRelease => exact execResetRelease_keeps s (.refl s)
  | thermalEvaluation _ => exact execThermalEvaluation_keeps _ s (.refl s)
  | thermtrip => exact execThermtrip_keeps s (.refl s)
  | hkEntryDone _ _ _ _ => exact execHkEntryDone_keeps _ _ _ _ s (.refl s)
  | hkUrg _ _ => exact execHkUrg_keeps _ _ s (.refl s)
  | hkUrgentConversion _ _ => exact execHkUrgentConversion_keeps _ _ s (.refl s)
  | resetNAssert => exact execResetNAssert_keeps s (.refl s)
  | startStepDone _ _ _ => exact execStartStepDone_keeps _ _ _ s (.refl s)
  | stepfailRestart => exact execStepfailRestart_keeps s (.refl s)
  | watchdogExpiry => exact execWatchdogExpiry_keeps s (.refl s)
  | secReset => exact execSecReset_keeps s (.refl s)
  | secProvision => exact execSecProvision_keeps s (.refl s)
  | lcreq => exact execLcreq_keeps s (.refl s)
  | svnburn _ => exact execSvnburn_keeps _ s (.refl s)
  | secRevoke _ => exact execSecRevoke_keeps _ s (.refl s)
  | fuseBurnDone => exact execFuseBurnDone_keeps s (.refl s)
  | flashRead => exact execFlashRead_keeps s (.refl s)
  | flashProgram => exact execFlashProgram_keeps s (.refl s)
  | flashErase => exact execFlashErase_keeps s (.refl s)
  | flashDone => exact execFlashDone_keeps s (.refl s)
  | tileVerify _ => exact execTileVerify_keeps _ s (.refl s)
  | tileVerifyDone => exact execTileVerifyDone_keeps s (.refl s)
  | dbgChal => exact execDbgChal_keeps s (.refl s)
  | dbgResp _ _ => exact execDbgResp_keeps _ _ s (.refl s)
  | dbgacc _ _ _ => exact execDbgacc_keeps _ _ _ s (.refl s)
  | dbgend => exact execDbgend_keeps s (.refl s)
  | extest _ => exact execExtest_keeps _ s (.refl s)
  | samplePreload _ _ => exact execSamplePreload_keeps _ _ s (.refl s)
  | respLockoutEnd => exact execRespLockoutEnd_keeps s (.refl s)
  | dzHeartbeat ok role pstate mode pcnt gen ack forced => exact execDzHeartbeat_keeps ok role pstate mode pcnt gen ack forced s (.refl s)
  | dzSync _ _ _ _ _ _ => exact execDzSync_keeps _ _ _ _ _ _ s (.refl s)
  | dzFireA ok id u firing tag tq elem => exact execDzFireA_keeps ok id u firing tag tq elem s (.refl s)
  | dzFireB _ _ _ => exact execDzFireB_keeps _ _ _ s (.refl s)
  | dzArm _ _ _ _ _ => exact execDzArm_keeps _ _ _ _ _ s (.refl s)
  | dzRelease _ _ _ _ => exact execDzRelease_keeps _ _ _ _ s (.refl s)
  | dzWake ok id src => exact execDzWake_keeps ok id src s (.refl s)
  | dzOrder _ _ _ _ _ _ _ => exact execDzOrder_keeps _ _ _ _ _ _ _ s (.refl s)
  | dzSent _ _ _ _ => exact execDzSent_keeps _ _ _ _ s (.refl s)
  | dzEpoch _ _ _ _ _ => exact execDzEpoch_keeps _ _ _ _ _ s (.refl s)
  | dzStep _ _ _ _ => exact execDzStep_keeps _ _ _ _ s (.refl s)
  | dzIndex _ _ _ _ => exact execDzIndex_keeps _ _ _ _ s (.refl s)
  | dzCreq _ _ _ _ _ _ _ => exact execDzCreq_keeps _ _ _ _ _ _ _ s (.refl s)
  | dzCresp ok n code need avail => exact execDzCresp_keeps ok n code need avail s (.refl s)
  | dzMode _ _ _ => exact execDzMode_keeps _ _ _ s (.refl s)
  | dzJoin _ _ _ _ _ _ _ => exact execDzJoin_keeps _ _ _ _ _ _ _ s (.refl s)
  | dzSwitchCell _ _ _ => exact execDzSwitchCell_keeps _ _ _ s (.refl s)
  | dzLeaveCell _ _ => exact execDzLeaveCell_keeps _ _ s (.refl s)
  | dzAck _ _ => exact execDzAck_keeps _ _ s (.refl s)
  | cellRetransmit _ => exact execCellRetransmit_keeps _ s (.refl s)
  | heartbeatSend => exact execHeartbeatSend_keeps s (.refl s)
  | syncSend _ => exact execSyncSend_keeps _ s (.refl s)
  | sentSend => exact execSentSend_keeps s (.refl s)
  | orderMiss _ _ => exact execOrderMiss_keeps _ _ s (.refl s)
  | crespTimeout => exact execCrespTimeout_keeps s (.refl s)
  | partnerLost _ => exact execPartnerLost_keeps _ s (.refl s)
  | dzSwitch => exact execDzSwitch_keeps s (.refl s)
  | switchFinal => exact execSwitchFinal_keeps s (.refl s)
  | dzLeave => exact execDzLeave_keeps s (.refl s)
  | rejoin => exact execRejoin_keeps s (.refl s)
  | dzLinkState _ _ => exact execDzLinkState_keeps _ _ s (.refl s)
  | resetNDeassert => exact execResetNDeassert_keeps s (.refl s)
  | cdrLockLoss _ => exact execCdrLockLoss_keeps _ s (.refl s)
  | referenceReturn _ => exact execReferenceReturn_keeps _ s (.refl s)
  | busMasterDisable => exact execBusMasterDisable_keeps s (.refl s)
  | laneDieLinkFault _ => exact execLaneDieLinkFault_keeps _ s (.refl s)

/-- With commands waiting, a step runs the front one on the queue's rest. -/
theorem step_cons (c : Instr) (rest : List Instr) (s : State) :
    step { s with pending := c :: rest } = exec c { s with pending := rest } := rfl

/-- With no command waiting, a step is one cycle. -/
theorem step_of_empty {s : State} (h : s.pending = []) : step s = .next s.cycle := by
  rw [step, h]

/-- A step keeps the canonical forms. -/
theorem step_tidy {s t : State} (hs : s.tidy) (h : step s = .next t) : t.tidy := by
  match hp : s.pending with
  | [] =>
    cases (step_of_empty hp).symm.trans h
    exact (State.cycle_keeps s (.refl s)).tidy hs
  | c :: rest =>
    have hx : exec c { s with pending := rest } = .next t := by rw [← h, step, hp]
    exact (Keeps.of_res (exec_keeps c _) hx).tidy hs

/-- Settles O58: every operation of a cycle and every command keeps the canonical forms (`State.cycle_keeps`, `exec_keeps`). -/
theorem stepKeepsTheTables : Obligations.StepKeepsTheTables := fun _ _ => step_tidy

/-- Settles O60: no command ends in a fault or a refusal, and none touches the queue (`exec_keeps`). -/
theorem everyCommandCompletesAndLeavesTheQueue : Obligations.EveryCommandCompletesAndLeavesTheQueue := fun c s =>
  have ⟨t, ht, hk⟩ := exec_keeps c s
  ⟨t, ht, hk.pending⟩

/-- Settles O1: a step looks at the front of the queue alone. -/
theorem stepRunsFrontCommand : Obligations.StepRunsFrontCommand := step_cons

/-- Settles O59: at reset both tables and the queue are empty (`State.reset_tidy`). -/
theorem resetStateIsTidy : Obligations.ResetStateIsTidy := ⟨State.reset_tidy, rfl⟩

end Sys2Proof.Machine
end

section
/-!
SUPPORT. Where places lie, and what they read after the operations that write others: an element's offset as a sum, reads after
puts, flags and occurrences, and the parts of the state an occurrence leaves alone, for every event number.
-/
namespace Sys2Proof.Machine

/-! ### Offsets -/

@[simp] theorem Fld.z_off (f : Fld) : f.z.off = f.off := rfl
@[simp] theorem Fld.z_lo (f : Fld) : f.z.lo = f.lo := rfl
@[simp] theorem Fld.z_w (f : Fld) : f.z.w = f.w := rfl
@[simp] theorem Fld.e_off (f : Fld) (i : Nat) : (f.e i).off = f.off + elemOff f.dims [i] := rfl
@[simp] theorem Fld.e_lo (f : Fld) (i : Nat) : (f.e i).lo = f.lo := rfl
@[simp] theorem Fld.e_w (f : Fld) (i : Nat) : (f.e i).w = f.w := rfl
@[simp] theorem Fld.e2_off (f : Fld) (i j : Nat) : (f.e2 i j).off = f.off + elemOff f.dims [i, j] := rfl
@[simp] theorem Fld.e2_lo (f : Fld) (i j : Nat) : (f.e2 i j).lo = f.lo := rfl
@[simp] theorem Fld.e2_w (f : Fld) (i j : Nat) : (f.e2 i j).w = f.w := rfl
@[simp] theorem Fld.e3_off (f : Fld) (i j k : Nat) : (f.e3 i j k).off = f.off + elemOff f.dims [i, j, k] := rfl
@[simp] theorem Fld.e3_lo (f : Fld) (i j k : Nat) : (f.e3 i j k).lo = f.lo := rfl
@[simp] theorem Fld.e3_w (f : Fld) (i j k : Nat) : (f.e3 i j k).w = f.w := rfl
@[simp] theorem Fld.t_off (f : Fld) (t : Nat) : (f.t t).off = f.off + elemOff f.dims [t / 8, t % 8] := rfl
@[simp] theorem Fld.t_lo (f : Fld) (t : Nat) : (f.t t).lo = f.lo := rfl
@[simp] theorem Fld.t_w (f : Fld) (t : Nat) : (f.t t).w = f.w := rfl
@[simp] theorem Fld.tk_off (f : Fld) (t k : Nat) : (f.tk t k).off = f.off + elemOff f.dims [t / 8, t % 8, k] := rfl
@[simp] theorem Fld.tk_lo (f : Fld) (t k : Nat) : (f.tk t k).lo = f.lo := rfl
@[simp] theorem Fld.tk_w (f : Fld) (t k : Nat) : (f.tk t k).w = f.w := rfl

@[simp] theorem elemOff_nil (ds : List (Nat × Nat)) : elemOff ds [] = 0 := by cases ds <;> rfl
@[simp] theorem elemOff_cons (st n : Nat) (ds : List (Nat × Nat)) (i : Nat) (is : List Nat) :
    elemOff ((st, n) :: ds) (i :: is) = i * st + elemOff ds is := rfl

/-- A word apart from those an occurrence may write. -/
theorem not_eventWord {o : Nat} (h : o < 0x88000 ∨ (0x88100 ≤ o ∧ o < 0x100000) ∨ 0x104000 ≤ o) : ¬ eventWord o := by
  unfold eventWord
  lia

theorem array_not_event {a : Nat} (h : 0x104000 ≤ a) (x : Nat) : ¬ eventWord (a + x) :=
  not_eventWord (.inr (.inr (h.trans (Nat.le_add_right a x))))

theorem evPend_range {m : Nat} (h : m < 512) : 0x100000 ≤ (evPend m).off ∧ (evPend m).off < 0x104000 :=
  ⟨le_trans (by decide) (Nat.le_add_right 0x100004 _),
    (Nat.add_le_add_left (Nat.mul_le_mul_right 0x20 (Nat.le_of_lt_succ h)) 0x100004).trans_lt (by decide)⟩

/-! ### Words of arrays -/

theorem shift_ne {a b : Nat} (h : a ≠ b) (x : Nat) : a + x ≠ b + x := fun e => h (Nat.add_right_cancel e)

theorem low_ne {a k : Nat} (h : k < a) (x : Nat) : a + x ≠ k := Nat.ne_of_gt (h.trans_le (Nat.le_add_right a x))

theorem elem_ne {k m n : Nat} (hk : 0 < k) (h : m ≠ n) (a : Nat) : a + (m * k + 0) ≠ a + (n * k + 0) := fun e =>
  h (Nat.eq_of_mul_eq_mul_right hk (Nat.add_left_cancel e))

/-- Words of two arrays whose elements are `k` bytes apart, at different places in an element. -/
theorem stride_ne {a b k : Nat} (h : a % k ≠ b % k) (m n : Nat) : a + (m * k + 0) ≠ b + (n * k + 0) := fun e => h (by
  rw [← Nat.add_mul_mod_self_right a m k, ← Nat.add_mul_mod_self_right b n k]
  exact congrArg (· % k) e)

/-! ### Reads after writes -/

/-- A write of place `l` leaves place `m` alone: another word, or other bits of the same one. -/
abbrev Loc.apart (l m : Loc) : Prop := m.off ≠ l.off ∨ (l.lo + l.w ≤ 32 ∧ (m.lo + m.w ≤ l.lo ∨ l.lo + l.w ≤ m.lo))

theorem State.get_put_apart (s : State) {l m : Loc} (v : Nat) (h : l.apart m) : (s.put l v).get m = s.get m :=
  State.get_put_other s l m v h

theorem State.get_flag_apart (s : State) {l m : Loc} (b : Bool) (h : l.apart m) : (s.flag l b).get m = s.get m :=
  State.get_put_other s l m _ h

theorem State.on_put_apart (s : State) {l m : Loc} (v : Nat) (h : l.apart m) : (s.put l v).on m = s.on m := by
  rw [State.on, State.get_put_apart s v h, State.on]

theorem State.on_flag_apart (s : State) {l m : Loc} (b : Bool) (h : l.apart m) : (s.flag l b).on m = s.on m :=
  State.on_put_apart s _ h

theorem State.get_flag_same (s : State) (l : Loc) (b : Bool) (h : l.lo + l.w ≤ 32) (hw : 1 ≤ l.w) :
    (s.flag l b).get l = b2n b := by
  have h2 : 2 ^ 1 ≤ 2 ^ l.w := Nat.pow_le_pow_right (by decide) hw
  rw [State.flag, State.get_put_same s l _ h]
  refine Nat.mod_eq_of_lt (Nat.lt_of_lt_of_le ?_ h2)
  cases b
  all_goals decide

theorem State.get_congr {s t : State} (h : t.regs = s.regs) (l : Loc) : t.get l = s.get l := by
  simp only [State.get, State.word, h]

theorem State.on_congr {s t : State} (h : t.regs = s.regs) (l : Loc) : t.on l = s.on l := by
  rw [State.on, State.get_congr h, State.on]

theorem State.get_lt (s : State) (l : Loc) : s.get l < 2 ^ l.w := bits_lt ..

theorem State.on_iff (s : State) (l : Loc) : s.on l = true ↔ s.get l = 1 := decide_eq_true_iff

@[simp] theorem State.on_emit (s : State) (x : Out) (l : Loc) : (s.emit x).on l = s.on l := rfl
@[simp] theorem State.on_took (s : State) (l : Loc) : s.took.on l = s.on l := rfl

/-! ### An occurrence of any event -/

theorem State.get_raise (s : State) (n tag : Nat) (l : Loc) (hn : n < 512) (hl : ¬ eventWord l.off) :
    (s.raise n tag).get l = s.get l := by
  simp only [State.get, (SameBut.raise s n tag hn).word _ hl]

theorem State.on_raise (s : State) (n tag : Nat) (l : Loc) (hn : n < 512) (hl : ¬ eventWord l.off) :
    (s.raise n tag).on l = s.on l := by
  rw [State.on, State.get_raise s n tag l hn hl, State.on]

theorem State.on_ev (s : State) (n : Nat) (l : Loc) (hn : n < 512) (hl : ¬ eventWord l.off) : (s.ev n).on l = s.on l :=
  State.on_raise s n _ l hn hl

/-- The parts of the state that no occurrence changes: all but the registers, what leaves the engine, the control complex and the
trigger units. -/
structure Aside (s t : State) : Prop where
  freeCount : t.freeCount = s.freeCount
  tb : t.tb = s.tb
  ing : t.ing = s.ing
  front : t.front = s.front
  fine : t.fine = s.fine
  det : t.det = s.det
  tun : t.tun = s.tun
  adm : t.adm = s.adm
  clk : t.clk = s.clk
  pwr : t.pwr = s.pwr
  mem : t.mem = s.mem
  msys : t.msys = s.msys
  rcd : t.rcd = s.rcd
  xsp : t.xsp = s.xsp
  tls : t.tls = s.tls
  dma : t.dma = s.dma
  str : t.str = s.str
  pair : t.pair = s.pair
  dsp : t.dsp = s.dsp
  stm : t.stm = s.stm
  sec : t.sec = s.sec
  closed : t.closed = s.closed
  pending : t.pending = s.pending

namespace Aside

theorem refl (s : State) : Aside s s := by constructor <;> rfl

theorem trans {a b c : State} (h : Aside a b) (k : Aside b c) : Aside a c := by
  obtain ⟨⟩ := h
  obtain ⟨⟩ := k
  constructor
  all_goals simp only [*]

theorem cond {s a b : State} (c : Bool) (ha : Aside s a) (hb : Aside s b) : Aside s (bif c then a else b) := by
  cases c <;> assumption

theorem foldl {β : Type} (f : State → β → State) (h : ∀ a b, Aside a (f a b)) (l : List β) (s : State) :
    Aside s (l.foldl f s) := by
  induction l generalizing s with
  | nil => exact refl s
  | cons b l ih => exact (h s b).trans (ih _)

theorem put (s : State) (l : Loc) (v : Nat) : Aside s (s.put l v) := by constructor <;> rfl
theorem emit (s : State) (x : Out) : Aside s (s.emit x) := by constructor <;> rfl
theorem setCtl (s : State) (c : Control) : Aside s { s with ctl := c } := by constructor <;> rfl
theorem pushPulse (s : State) (u a b : Nat) : Aside s (s.pushPulse u a b) := by constructor <;> rfl

theorem put96 (s : State) (x y z : Loc) (v : Nat) : Aside s (s.put96 x y z v) :=
  ((put s x _).trans (put _ y _)).trans (put _ z _)

theorem evCount (s : State) (n : Nat) : Aside s (s.evCount n) := cond _ (put ..) (put ..)
theorem evTrig (s : State) (en : Bool) (n tag : Nat) : Aside s (s.evTrig en n tag) :=
  cond _ (foldl _ (fun a _ => cond _ (pushPulse a _ _ _) (refl a)) _ s) (refl s)
theorem evHold (s : State) (n tag : Nat) : Aside s (s.evHold n tag) := (put ..).trans (put96 ..)
theorem evMsix (s : State) (n : Nat) : Aside s (s.evMsix n) := cond _ (cond _ (put ..) (emit ..)) (refl s)
theorem evSubs (s : State) (n : Nat) : Aside s (s.evSubs n) := setCtl ..
theorem oapSpoil (s : State) (j k : Nat) : Aside s (s.oapSpoil j k) := setCtl ..
theorem setLog (s : State) (l : List (Nat × Nat)) : Aside s (s.setLog l) := setCtl ..

theorem raiseCore (fuel : Nat) : ∀ (s : State) (n tag : Nat), Aside s (State.raiseCore fuel s n tag) := by
  induction fuel with
  | zero => exact fun s _ _ => refl s
  | succ fuel ih =>
    intro s n tag
    have ha : Aside s (s.counted n tag) := (evCount s n).trans (evTrig ..)
    have hd := ha.trans (evHold (s.counted n tag) n tag)
    have he := hd.trans (evMsix _ n)
    have hr : Aside s (((s.counted n tag).evHold n tag).routes fuel n tag) :=
      cond _ hd (cond _ ((he.trans (evSubs _ n)).trans (foldl _ (fun a _ => (oapSpoil a 4 1).trans (ih ..)) _ _)) he)
    have ht := cond (s.on (evPend n)) ha hr
    rw [State.raiseCore_succ]
    exact ht.trans (cond _ (cond _ ((setLog _ _).trans (ih ..)) (setLog _ _)) (refl _))

theorem raise (s : State) (n tag : Nat) : Aside s (s.raise n tag) := raiseCore 8 s n tag

end Aside

@[simp] theorem State.raise_tb (s : State) (n tag : Nat) : (s.raise n tag).tb = s.tb := (Aside.raise s n tag).tb

@[simp] theorem State.ev_freeCount (s : State) (n : Nat) : (s.ev n).freeCount = s.freeCount := (Aside.raise s n s.now).freeCount
@[simp] theorem State.ev_tb (s : State) (n : Nat) : (s.ev n).tb = s.tb := (Aside.raise s n s.now).tb
@[simp] theorem State.ev_ing (s : State) (n : Nat) : (s.ev n).ing = s.ing := (Aside.raise s n s.now).ing
@[simp] theorem State.ev_front (s : State) (n : Nat) : (s.ev n).front = s.front := (Aside.raise s n s.now).front
@[simp] theorem State.ev_fine (s : State) (n : Nat) : (s.ev n).fine = s.fine := (Aside.raise s n s.now).fine
@[simp] theorem State.ev_det (s : State) (n : Nat) : (s.ev n).det = s.det := (Aside.raise s n s.now).det
@[simp] theorem State.ev_tun (s : State) (n : Nat) : (s.ev n).tun = s.tun := (Aside.raise s n s.now).tun
@[simp] theorem State.ev_adm (s : State) (n : Nat) : (s.ev n).adm = s.adm := (Aside.raise s n s.now).adm
@[simp] theorem State.ev_clk (s : State) (n : Nat) : (s.ev n).clk = s.clk := (Aside.raise s n s.now).clk
@[simp] theorem State.ev_pwr (s : State) (n : Nat) : (s.ev n).pwr = s.pwr := (Aside.raise s n s.now).pwr
@[simp] theorem State.ev_mem (s : State) (n : Nat) : (s.ev n).mem = s.mem := (Aside.raise s n s.now).mem
@[simp] theorem State.ev_msys (s : State) (n : Nat) : (s.ev n).msys = s.msys := (Aside.raise s n s.now).msys
@[simp] theorem State.ev_rcd (s : State) (n : Nat) : (s.ev n).rcd = s.rcd := (Aside.raise s n s.now).rcd
@[simp] theorem State.ev_xsp (s : State) (n : Nat) : (s.ev n).xsp = s.xsp := (Aside.raise s n s.now).xsp
@[simp] theorem State.ev_tls (s : State) (n : Nat) : (s.ev n).tls = s.tls := (Aside.raise s n s.now).tls
@[simp] theorem State.ev_dma (s : State) (n : Nat) : (s.ev n).dma = s.dma := (Aside.raise s n s.now).dma
@[simp] theorem State.ev_str (s : State) (n : Nat) : (s.ev n).str = s.str := (Aside.raise s n s.now).str
@[simp] theorem State.ev_pair (s : State) (n : Nat) : (s.ev n).pair = s.pair := (Aside.raise s n s.now).pair
@[simp] theorem State.ev_dsp (s : State) (n : Nat) : (s.ev n).dsp = s.dsp := (Aside.raise s n s.now).dsp
@[simp] theorem State.ev_stm (s : State) (n : Nat) : (s.ev n).stm = s.stm := (Aside.raise s n s.now).stm
@[simp] theorem State.ev_sec (s : State) (n : Nat) : (s.ev n).sec = s.sec := (Aside.raise s n s.now).sec
@[simp] theorem State.ev_closed (s : State) (n : Nat) : (s.ev n).closed = s.closed := (Aside.raise s n s.now).closed
@[simp] theorem State.ev_pending (s : State) (n : Nat) : (s.ev n).pending = s.pending := (Aside.raise s n s.now).pending

/-! ### What an occurrence does to the control complex and the trigger units -/

/-- A session apart from the entries it holds. -/
noncomputable def Session.shell (x : Session) : Session := { x with held := [] }

/-- A trigger unit apart from the products on their way to it. -/
noncomputable def TrigUnit.shell (x : TrigUnit) : TrigUnit := { x with queue := [], seq := 0 }

/-- What an occurrence leaves of the control complex and the trigger units: all but the objects, of which it may advance
OAP_SPOIL:04, the entries held for sessions, the event log, and the products on their way to a unit. -/
structure Occurs (s t : State) : Prop where
  ctl : ∃ se ob lg, t.ctl = { s.ctl with sessions := se, objs := ob, log := lg }
  obj : ∀ k, k ≠ objKey 0x1107 4 → tget objDefault t.ctl.objs k = tget objDefault s.ctl.objs k
  sessions : t.ctl.sessions.map Session.shell = s.ctl.sessions.map Session.shell
  trg : ∃ us, t.trg = { s.trg with units := us }
  unit : ∀ u, (t.unit u).shell = (s.unit u).shell

namespace Occurs

theorem of {s t : State} (hc : t.ctl = s.ctl) (ht : t.trg = s.trg) : Occurs s t := by
  refine ⟨⟨_, _, _, hc⟩, fun _ _ => by rw [hc], by rw [hc], ⟨_, ht⟩, fun _ => by rw [State.unit, ht, State.unit]⟩

theorem refl (s : State) : Occurs s s := of rfl rfl

theorem trans {a b c : State} (h : Occurs a b) (k : Occurs b c) : Occurs a c := by
  obtain ⟨⟨_, _, _, h1⟩, h2, h3, ⟨_, h4⟩, h5⟩ := h
  obtain ⟨⟨_, _, _, k1⟩, k2, k3, ⟨_, k4⟩, k5⟩ := k
  exact ⟨⟨_, _, _, by rw [k1, h1]⟩, fun j hj => (k2 j hj).trans (h2 j hj), k3.trans h3, ⟨_, by rw [k4, h4]⟩,
    fun u => (k5 u).trans (h5 u)⟩

theorem cond {s a b : State} (c : Bool) (ha : Occurs s a) (hb : Occurs s b) : Occurs s (bif c then a else b) := by
  cases c <;> assumption

theorem foldl {β : Type} (f : State → β → State) (h : ∀ a b, Occurs a (f a b)) (l : List β) (s : State) :
    Occurs s (l.foldl f s) := by
  induction l generalizing s with
  | nil => exact refl s
  | cons b l ih => exact (h s b).trans (ih _)

theorem put (s : State) (l : Loc) (v : Nat) : Occurs s (s.put l v) := of rfl rfl
theorem put96 (s : State) (x y z : Loc) (v : Nat) : Occurs s (s.put96 x y z v) := of rfl rfl
theorem emit (s : State) (x : Out) : Occurs s (s.emit x) := of rfl rfl

theorem pushPulse (s : State) (u a b : Nat) : Occurs s (s.pushPulse u a b) := by
  refine ⟨⟨_, _, _, rfl⟩, fun _ _ => rfl, rfl, ⟨_, rfl⟩, fun v => ?_⟩
  unfold State.pushPulse State.unit State.setUnit
  rw [tget_tset]
  split
  · next h => rw [h]; rfl
  · rfl

theorem holdEntry_shell (n : Nat) (x : Session) : (holdEntry n x).shell = x.shell := by
  unfold holdEntry
  split
  · split <;> rfl
  · rfl

theorem evSubs (s : State) (n : Nat) : Occurs s (s.evSubs n) := by
  refine ⟨⟨_, _, _, rfl⟩, fun _ _ => rfl, ?_, ⟨_, rfl⟩, fun _ => rfl⟩
  show (s.ctl.sessions.map (holdEntry n)).map Session.shell = _
  rw [List.map_map]
  exact List.map_congr_left fun x _ => holdEntry_shell n x

theorem oapSpoil_merges (s : State) : Occurs s (s.oapSpoil 4 1) :=
  ⟨⟨_, _, _, rfl⟩, fun _ hk => tget_tset_ne _ _ hk _, rfl, ⟨_, rfl⟩, fun _ => rfl⟩

theorem setLog (s : State) (l : List (Nat × Nat)) : Occurs s (s.setLog l) :=
  ⟨⟨_, _, _, rfl⟩, fun _ _ => rfl, rfl, ⟨_, rfl⟩, fun _ => rfl⟩

theorem evCount (s : State) (n : Nat) : Occurs s (s.evCount n) := cond _ (put ..) (put ..)
theorem evTrig (s : State) (en : Bool) (n tag : Nat) : Occurs s (s.evTrig en n tag) :=
  cond _ (foldl _ (fun a _ => cond _ (pushPulse a _ _ _) (refl a)) _ s) (refl s)
theorem evHold (s : State) (n tag : Nat) : Occurs s (s.evHold n tag) := (put ..).trans (put96 ..)
theorem evMsix (s : State) (n : Nat) : Occurs s (s.evMsix n) := cond _ (cond _ (put ..) (emit ..)) (refl s)

theorem raiseCore (fuel : Nat) : ∀ (s : State) (n tag : Nat), Occurs s (State.raiseCore fuel s n tag) := by
  induction fuel with
  | zero => exact fun s _ _ => refl s
  | succ fuel ih =>
    intro s n tag
    have ha : Occurs s (s.counted n tag) := (evCount s n).trans (evTrig ..)
    have hd := ha.trans (evHold (s.counted n tag) n tag)
    have he := hd.trans (evMsix _ n)
    have hr : Occurs s (((s.counted n tag).evHold n tag).routes fuel n tag) :=
      cond _ hd (cond _ ((he.trans (evSubs _ n)).trans (foldl _ (fun a _ => (oapSpoil_merges a).trans (ih ..)) _ _)) he)
    have ht := cond (s.on (evPend n)) ha hr
    rw [State.raiseCore_succ]
    exact ht.trans (cond _ (cond _ ((setLog _ _).trans (ih ..)) (setLog _ _)) (refl _))

theorem raise (s : State) (n tag : Nat) : Occurs s (s.raise n tag) := raiseCore 8 s n tag

end Occurs

/-- An object other than OAP_SPOIL:04 holds after an occurrence what it held. -/
theorem State.raise_obj (s : State) (n tag i j : Nat) (h : objKey i j ≠ objKey 0x1107 4) :
    (s.raise n tag).obj i j = s.obj i j := (Occurs.raise s n tag).obj _ h

theorem State.ev_obj (s : State) (n i j : Nat) (h : objKey i j ≠ objKey 0x1107 4) : (s.ev n).obj i j = s.obj i j :=
  s.raise_obj n _ i j h

@[simp] theorem State.raise_ctl_netPending (s : State) (n tag : Nat) : (s.raise n tag).ctl.netPending = s.ctl.netPending := by
  obtain ⟨_, _, _, h⟩ := (Occurs.raise s n tag).ctl
  rw [h]
@[simp] theorem State.raise_ctl_oapKey (s : State) (n tag : Nat) : (s.raise n tag).ctl.oapKey = s.ctl.oapKey := by
  obtain ⟨_, _, _, h⟩ := (Occurs.raise s n tag).ctl
  rw [h]
@[simp] theorem State.raise_ctl_mbxResponse (s : State) (n tag : Nat) : (s.raise n tag).ctl.mbxResponse = s.ctl.mbxResponse := by
  obtain ⟨_, _, _, h⟩ := (Occurs.raise s n tag).ctl
  rw [h]
@[simp] theorem State.raise_ctl_persistOp (s : State) (n tag : Nat) : (s.raise n tag).ctl.persistOp = s.ctl.persistOp := by
  obtain ⟨_, _, _, h⟩ := (Occurs.raise s n tag).ctl
  rw [h]
@[simp] theorem State.raise_ctl_tvStopped (s : State) (n tag : Nat) : (s.raise n tag).ctl.tvStopped = s.ctl.tvStopped := by
  obtain ⟨_, _, _, h⟩ := (Occurs.raise s n tag).ctl
  rw [h]

@[simp] theorem State.ev_ctl_netPending (s : State) (n : Nat) : (s.ev n).ctl.netPending = s.ctl.netPending := s.raise_ctl_netPending n s.now
@[simp] theorem State.ev_ctl_oapKey (s : State) (n : Nat) : (s.ev n).ctl.oapKey = s.ctl.oapKey := s.raise_ctl_oapKey n s.now
@[simp] theorem State.ev_ctl_mbxResponse (s : State) (n : Nat) : (s.ev n).ctl.mbxResponse = s.ctl.mbxResponse := s.raise_ctl_mbxResponse n s.now
@[simp] theorem State.ev_ctl_persistOp (s : State) (n : Nat) : (s.ev n).ctl.persistOp = s.ctl.persistOp := s.raise_ctl_persistOp n s.now
@[simp] theorem State.ev_ctl_tvStopped (s : State) (n : Nat) : (s.ev n).ctl.tvStopped = s.ctl.tvStopped := s.raise_ctl_tvStopped n s.now

@[simp] theorem State.raise_trg_groups (s : State) (n tag : Nat) : (s.raise n tag).trg.groups = s.trg.groups := by
  obtain ⟨_, h⟩ := (Occurs.raise s n tag).trg
  rw [h]
@[simp] theorem State.ev_trg_groups (s : State) (n : Nat) : (s.ev n).trg.groups = s.trg.groups := s.raise_trg_groups n s.now
@[simp] theorem State.raise_trg_pins (s : State) (n tag : Nat) : (s.raise n tag).trg.pins = s.trg.pins := by
  obtain ⟨_, h⟩ := (Occurs.raise s n tag).trg
  rw [h]
@[simp] theorem State.ev_trg_pins (s : State) (n : Nat) : (s.ev n).trg.pins = s.trg.pins := s.raise_trg_pins n s.now
@[simp] theorem State.raise_trg_held (s : State) (n tag : Nat) : (s.raise n tag).trg.held = s.trg.held := by
  obtain ⟨_, h⟩ := (Occurs.raise s n tag).trg
  rw [h]
@[simp] theorem State.ev_trg_held (s : State) (n : Nat) : (s.ev n).trg.held = s.trg.held := s.raise_trg_held n s.now
@[simp] theorem State.raise_trg_queue (s : State) (n tag : Nat) : (s.raise n tag).trg.queue = s.trg.queue := by
  obtain ⟨_, h⟩ := (Occurs.raise s n tag).trg
  rw [h]
@[simp] theorem State.ev_trg_queue (s : State) (n : Nat) : (s.ev n).trg.queue = s.trg.queue := s.raise_trg_queue n s.now
@[simp] theorem State.raise_trg_left (s : State) (n tag : Nat) : (s.raise n tag).trg.left = s.trg.left := by
  obtain ⟨_, h⟩ := (Occurs.raise s n tag).trg
  rw [h]
@[simp] theorem State.ev_trg_left (s : State) (n : Nat) : (s.ev n).trg.left = s.trg.left := s.raise_trg_left n s.now
@[simp] theorem State.raise_trg_ins (s : State) (n tag : Nat) : (s.raise n tag).trg.ins = s.trg.ins := by
  obtain ⟨_, h⟩ := (Occurs.raise s n tag).trg
  rw [h]
@[simp] theorem State.ev_trg_ins (s : State) (n : Nat) : (s.ev n).trg.ins = s.trg.ins := s.raise_trg_ins n s.now

@[simp] theorem State.raise_unit_elems (s : State) (n tag u : Nat) : ((s.raise n tag).unit u).elems = (s.unit u).elems :=
  congrArg (·.elems) ((Occurs.raise s n tag).unit u)
@[simp] theorem State.ev_unit_elems (s : State) (n u : Nat) : ((s.ev n).unit u).elems = (s.unit u).elems := s.raise_unit_elems n _ u
@[simp] theorem State.raise_unit_single (s : State) (n tag u : Nat) : ((s.raise n tag).unit u).single = (s.unit u).single :=
  congrArg (·.single) ((Occurs.raise s n tag).unit u)
@[simp] theorem State.ev_unit_single (s : State) (n u : Nat) : ((s.ev n).unit u).single = (s.unit u).single := s.raise_unit_single n _ u
@[simp] theorem State.raise_unit_comp (s : State) (n tag u : Nat) : ((s.raise n tag).unit u).comp = (s.unit u).comp :=
  congrArg (·.comp) ((Occurs.raise s n tag).unit u)
@[simp] theorem State.ev_unit_comp (s : State) (n u : Nat) : ((s.ev n).unit u).comp = (s.unit u).comp := s.raise_unit_comp n _ u
@[simp] theorem State.raise_unit_force (s : State) (n tag u : Nat) : ((s.raise n tag).unit u).force = (s.unit u).force :=
  congrArg (·.force) ((Occurs.raise s n tag).unit u)
@[simp] theorem State.ev_unit_force (s : State) (n u : Nat) : ((s.ev n).unit u).force = (s.unit u).force := s.raise_unit_force n _ u
@[simp] theorem State.raise_unit_disarm (s : State) (n tag u : Nat) : ((s.raise n tag).unit u).disarm = (s.unit u).disarm :=
  congrArg (·.disarm) ((Occurs.raise s n tag).unit u)
@[simp] theorem State.ev_unit_disarm (s : State) (n u : Nat) : ((s.ev n).unit u).disarm = (s.unit u).disarm := s.raise_unit_disarm n _ u
@[simp] theorem State.raise_unit_fromDisarmed (s : State) (n tag u : Nat) : ((s.raise n tag).unit u).fromDisarmed = (s.unit u).fromDisarmed :=
  congrArg (·.fromDisarmed) ((Occurs.raise s n tag).unit u)
@[simp] theorem State.ev_unit_fromDisarmed (s : State) (n u : Nat) : ((s.ev n).unit u).fromDisarmed = (s.unit u).fromDisarmed := s.raise_unit_fromDisarmed n _ u
@[simp] theorem State.raise_unit_dec (s : State) (n tag u : Nat) : ((s.raise n tag).unit u).dec = (s.unit u).dec :=
  congrArg (·.dec) ((Occurs.raise s n tag).unit u)
@[simp] theorem State.ev_unit_dec (s : State) (n u : Nat) : ((s.ev n).unit u).dec = (s.unit u).dec := s.raise_unit_dec n _ u
@[simp] theorem State.raise_unit_armAt (s : State) (n tag u : Nat) : ((s.raise n tag).unit u).armAt = (s.unit u).armAt :=
  congrArg (·.armAt) ((Occurs.raise s n tag).unit u)
@[simp] theorem State.ev_unit_armAt (s : State) (n u : Nat) : ((s.ev n).unit u).armAt = (s.unit u).armAt := s.raise_unit_armAt n _ u
@[simp] theorem State.raise_unit_offAt (s : State) (n tag u : Nat) : ((s.raise n tag).unit u).offAt = (s.unit u).offAt :=
  congrArg (·.offAt) ((Occurs.raise s n tag).unit u)
@[simp] theorem State.ev_unit_offAt (s : State) (n u : Nat) : ((s.ev n).unit u).offAt = (s.unit u).offAt := s.raise_unit_offAt n _ u
@[simp] theorem State.raise_unit_arm (s : State) (n tag u : Nat) : ((s.raise n tag).unit u).arm = (s.unit u).arm :=
  congrArg (·.arm) ((Occurs.raise s n tag).unit u)
@[simp] theorem State.ev_unit_arm (s : State) (n u : Nat) : ((s.ev n).unit u).arm = (s.unit u).arm := s.raise_unit_arm n _ u
@[simp] theorem State.raise_unit_armRec (s : State) (n tag u : Nat) : ((s.raise n tag).unit u).armRec = (s.unit u).armRec :=
  congrArg (·.armRec) ((Occurs.raise s n tag).unit u)
@[simp] theorem State.ev_unit_armRec (s : State) (n u : Nat) : ((s.ev n).unit u).armRec = (s.unit u).armRec := s.raise_unit_armRec n _ u
@[simp] theorem State.raise_unit_supp (s : State) (n tag u : Nat) : ((s.raise n tag).unit u).supp = (s.unit u).supp :=
  congrArg (·.supp) ((Occurs.raise s n tag).unit u)
@[simp] theorem State.ev_unit_supp (s : State) (n u : Nat) : ((s.ev n).unit u).supp = (s.unit u).supp := s.raise_unit_supp n _ u
@[simp] theorem State.raise_unit_lost (s : State) (n tag u : Nat) : ((s.raise n tag).unit u).lost = (s.unit u).lost :=
  congrArg (·.lost) ((Occurs.raise s n tag).unit u)
@[simp] theorem State.ev_unit_lost (s : State) (n u : Nat) : ((s.ev n).unit u).lost = (s.unit u).lost := s.raise_unit_lost n _ u

@[simp] theorem State.raise_now (s : State) (n tag : Nat) : (s.raise n tag).now = s.now := by simp [State.now]
@[simp] theorem State.ev_now (s : State) (n : Nat) : (s.ev n).now = s.now := s.raise_now n _

/-! ### What an operation writes -/

/-- From `s` to `t` no register is written but the events' words and the places of `W`. -/
structure Writes (W : Loc → Prop) (s t : State) : Prop where
  get : ∀ l, ¬ eventWord l.off → (∀ m, W m → m.apart l) → t.get l = s.get l

namespace Writes

variable {W V : Loc → Prop} {s t u : State}

theorem of_regs (h : t.regs = s.regs) : Writes W s t := ⟨fun l _ _ => State.get_congr h l⟩
theorem refl (s : State) : Writes W s s := of_regs rfl
theorem trans (h : Writes W s t) (k : Writes W t u) : Writes W s u :=
  ⟨fun l he hl => (k.get l he hl).trans (h.get l he hl)⟩
/-- A change that touches no register may come first. -/
theorem after {r : State} (h : Writes W s t) (hr : s.regs = r.regs) : Writes W r t := (of_regs hr).trans h
/-- A record update that leaves the registers. -/
theorem mono (h : Writes V s t) (hv : ∀ l, V l → W l) : Writes W s t := ⟨fun l he hl => h.get l he fun m hm => hl m (hv m hm)⟩

theorem put (s : State) {l : Loc} (v : Nat) (h : W l) : Writes W s (s.put l v) :=
  ⟨fun _ _ hl => State.get_put_apart s v (hl l h)⟩
theorem flag (s : State) {l : Loc} (b : Bool) (h : W l) : Writes W s (s.flag l b) := put s _ h
theorem count (s : State) {l : Loc} (k : Nat) (h : W l) : Writes W s (s.count l k) := put s _ h
theorem put64 (s : State) {a b : Loc} (v : Nat) (ha : W a) (hb : W b) : Writes W s (s.put64 a b v) :=
  (put s _ ha).trans (put _ _ hb)
theorem raise (s : State) {n : Nat} (tag : Nat) (h : n < 512) : Writes W s (s.raise n tag) :=
  ⟨fun l he _ => State.get_raise s n tag l h he⟩
theorem ev (s : State) {n : Nat} (h : n < 512) : Writes W s (s.ev n) := raise s _ h

theorem on (h : Writes W s t) (l : Loc) (he : ¬ eventWord l.off) (hl : ∀ m, W m → m.apart l) : t.on l = s.on l := by
  rw [State.on, h.get l he hl, State.on]

end Writes

end Sys2Proof.Machine
end

section
/-!
SUPPORT. The header of a block (02 R65): where its words lie, and what an ignored write leaves in them.
-/
namespace Sys2Proof.Machine

/-- A block's header stands at the start of its window, that of the events window at 0x0010_8000 (02 R65). -/
theorem Blk.hdr_place (b : Blk) : b.hdr = 0x108000 ∨ (b.hdr % 0x40000 = 0 ∧ b.hdr ≠ 0x100000 ∧ b.hdr ≤ 0x3E00000) := by
  cases b with
  | events => exact .inl rfl
  | gallery g =>
    exact .inr ((by decide : ∀ g : Fin 8, (0x3000000 + g.val * 0x100000) % 0x40000 = 0 ∧ 0x3000000 + g.val * 0x100000 ≠ 0x100000 ∧
      0x3000000 + g.val * 0x100000 ≤ 0x3E00000) g)
  | _ => exact .inr ⟨rfl, by decide, by decide⟩

/-- No word of a block's header is a word of an event or of the pending-bit array. -/
theorem Blk.hdr_not_eventWord (b : Blk) {k : Nat} (hk : k < 0x100) : ¬ eventWord (b.hdr + k) := by
  have hp := b.hdr_place
  unfold eventWord
  lia

theorem Blk.status_not_eventWord (b : Blk) : ¬ eventWord (b.hdr + 4) := b.hdr_not_eventWord (by decide)
theorem Blk.lock_not_eventWord (b : Blk) : ¬ eventWord (b.hdr + 8) := b.hdr_not_eventWord (by decide)

/-- A capture writes BLK_IGN alone. -/
theorem State.capture_on (s : State) (b : Blk) (kind o : Nat) {l : Loc} (hl : l.off ≠ b.hdr + 0xC) :
    (s.capture b kind o).on l = s.on l := by
  unfold State.capture
  cases s.on b.wign || s.on b.sign || s.on b.lign
  · exact (State.on_put_apart _ _ (.inl hl)).trans (State.on_put_apart _ _ (.inl hl))
  · rfl

/-- A write to an RWL field of a locked block sets LIGN, raises EV002 and leaves the lock. -/
theorem State.lockIgnored_reads (s : State) (b : Blk) (o tag : Nat) :
    (s.lockIgnored b o tag).on b.lock = s.on b.lock ∧ (s.lockIgnored b o tag).on b.lign = true ∧
      (s.lockIgnored b o tag).on (evPend 2) = true := by
  have hlock : b.lign.apart b.lock := .inl (by simp [Blk.lock, Blk.lign])
  refine ⟨?_, ?_, (PendKept.raise _ 2 tag).2⟩
  · unfold State.lockIgnored
    rw [State.on_raise _ 2 tag _ (by decide) b.lock_not_eventWord, State.on_flag_apart _ _ hlock, State.capture_on _ _ _ _ (by simp [Blk.lock])]
  · unfold State.lockIgnored
    rw [State.on_raise _ 2 tag _ (by decide) b.status_not_eventWord]
    exact State.on_flag_same _ _ _ (by decide : 29 + 1 ≤ 32) (by decide : 1 ≤ 1)

/-- Settles O4: the write is turned away by the lock (`State.lockIgnored_reads`). -/
theorem lockedBlockRefusesItsLock : Obligations.LockedBlockRefusesItsLock := by
  intro s b h
  obtain ⟨hlock, hlign, hev⟩ := s.lockIgnored_reads b (b.hdr + 8) s.now
  exact ⟨_, show execBlkLockSet b s = _ by unfold execBlkLockSet; rw [h, cond_true], hlock.trans h, hlign, hev⟩

end Sys2Proof.Machine
end

section
/-!
SUPPORT. The objects the control complex holds, and a datagram that is dropped (02 R46, R49).
-/
namespace Sys2Proof.Machine

@[simp] theorem State.obj_setObj_same (s : State) (i j v : Nat) : (s.setObj i j v).obj i j = v := tget_tset_same ..

/-- A malformed datagram is dropped, counted and raised, whichever command brings it. -/
theorem State.datagramIn_malformed (s : State) (addr port : Nat) {bs : List Byte} (ha : s.answers = true)
    (hp : parseDgram 1388 bs = none) : s.datagramIn addr port bs = s.dropBad := by
  unfold State.datagramIn
  rw [hp, ha, Bool.not_true, cond_false]

theorem State.dropBad_count (s : State) : s.dropBad.obj 0x1107 1 = satAdd 32 (s.obj 0x1107 1) 1 := by
  unfold State.dropBad
  rw [State.ev_obj _ _ _ _ (by decide)]
  unfold State.oapSpoil
  rw [State.obj_setObj_same]

/-- Settles O7: no command looks past the shape of a malformed datagram (`State.datagramIn_malformed`). -/
theorem malformedDatagramIsDropped : Obligations.MalformedDatagramIsDropped := by
  intro s addr port bs c ha hp hc
  have hx : exec c s = .next s.dropBad := by
    rw [← s.datagramIn_malformed addr port ha hp]
    obtain rfl | rfl | rfl | rfl := hc
    all_goals rfl
  exact ⟨_, hx, s.dropBad_count, State.ev_pend _ 6, by simp [State.dropBad, State.oapSpoil, State.setObj],
    by simp [State.dropBad, State.oapSpoil, State.setObj], by simp [State.dropBad, State.oapSpoil, State.setObj]⟩

end Sys2Proof.Machine
end

section
/-!
SUPPORT. The time base's status registers (03 R110), steps of the tag (R89), and what arming, cancelling and applying a set leave
(R87, R88).
-/
namespace Sys2Proof.Machine

/-- The places that follow the time base. -/
def tbPlaces (l : Loc) : Prop :=
  l ∈ [Reg.TB_STATUS_PPS.z, Reg.TB_STATUS_SETPEND.z, Reg.TB_CORR_CORR.z, Reg.TB_STATUS_TQ.z]

/-- A change of TQ enters its record alone. -/
theorem State.tqNote_eq (s : State) (a : Bool) : ∃ l, s.tqNote a = { s with tb := { s.tb with tqLog := l } } := by
  unfold State.tqNote
  cases a || (s.tb.tqLog.head?.map (·.2.2)) != some s.tqLow
  · exact ⟨_, rfl⟩
  · exact ⟨_, rfl⟩

@[simp] theorem State.tqNote_ing (s : State) (a : Bool) : (s.tqNote a).ing = s.ing := by
  obtain ⟨_, h⟩ := s.tqNote_eq a
  rw [h]
@[simp] theorem State.tqNote_trg (s : State) (a : Bool) : (s.tqNote a).trg = s.trg := by
  obtain ⟨_, h⟩ := s.tqNote_eq a
  rw [h]
@[simp] theorem State.tqNote_regs (s : State) (a : Bool) : (s.tqNote a).regs = s.regs := by
  obtain ⟨_, h⟩ := s.tqNote_eq a
  rw [h]
@[simp] theorem State.tqNote_tb_acc (s : State) (a : Bool) : (s.tqNote a).tb.acc = s.tb.acc := by
  obtain ⟨_, h⟩ := s.tqNote_eq a
  rw [h]
@[simp] theorem State.tqNote_tb_c (s : State) (a : Bool) : (s.tqNote a).tb.c = s.tb.c := by
  obtain ⟨_, h⟩ := s.tqNote_eq a
  rw [h]
@[simp] theorem State.tqNote_tb_armed (s : State) (a : Bool) : (s.tqNote a).tb.armed = s.tb.armed := by
  obtain ⟨_, h⟩ := s.tqNote_eq a
  rw [h]
@[simp] theorem State.tqNote_tb_wasSet (s : State) (a : Bool) : (s.tqNote a).tb.wasSet = s.tb.wasSet := by
  obtain ⟨_, h⟩ := s.tqNote_eq a
  rw [h]
@[simp] theorem State.tqNote_tb_ppsRun (s : State) (a : Bool) : (s.tqNote a).tb.ppsRun = s.tb.ppsRun := by
  obtain ⟨_, h⟩ := s.tqNote_eq a
  rw [h]
@[simp] theorem State.tqNote_tb_ppsQualified (s : State) (a : Bool) : (s.tqNote a).tb.ppsQualified = s.tb.ppsQualified := by
  obtain ⟨_, h⟩ := s.tqNote_eq a
  rw [h]
@[simp] theorem State.tqNote_tb_locked (s : State) (a : Bool) : (s.tqNote a).tb.locked = s.tb.locked := by
  obtain ⟨_, h⟩ := s.tqNote_eq a
  rw [h]

@[simp] theorem State.tbSync_ing (s : State) : s.tbSync.ing = s.ing := by simp [State.tbSync]
@[simp] theorem State.tbSync_trg (s : State) : s.tbSync.trg = s.trg := by simp [State.tbSync]
@[simp] theorem State.tbSync_tb_acc (s : State) : s.tbSync.tb.acc = s.tb.acc := by simp [State.tbSync]
@[simp] theorem State.tbSync_tb_armed (s : State) : s.tbSync.tb.armed = s.tb.armed := by simp [State.tbSync]
@[simp] theorem State.tbSync_tb_wasSet (s : State) : s.tbSync.tb.wasSet = s.tb.wasSet := by simp [State.tbSync]

@[simp] theorem State.tbSet_ing (s : State) (t : TimeBase) : (s.tbSet t).ing = s.ing := State.tbSync_ing _
@[simp] theorem State.tbSet_trg (s : State) (t : TimeBase) : (s.tbSet t).trg = s.trg := State.tbSync_trg _
@[simp] theorem State.tbSet_tb_acc (s : State) (t : TimeBase) : (s.tbSet t).tb.acc = t.acc := State.tbSync_tb_acc _
@[simp] theorem State.tbSet_tb_armed (s : State) (t : TimeBase) : (s.tbSet t).tb.armed = t.armed := State.tbSync_tb_armed _
@[simp] theorem State.tbSet_tb_wasSet (s : State) (t : TimeBase) : (s.tbSet t).tb.wasSet = t.wasSet := State.tbSync_tb_wasSet _

theorem Writes.tbSync (s : State) : Writes tbPlaces s s.tbSync :=
  (Writes.of_regs (s.tqNote_regs false)).trans <| (Writes.put _ _ (by simp [tbPlaces])).trans <|
    (Writes.flag _ _ (by simp [tbPlaces])).trans <| (Writes.put _ _ (by simp [tbPlaces])).trans
    (Writes.put _ _ (by simp [tbPlaces]))

theorem Writes.tbSet (s : State) (t : TimeBase) : Writes tbPlaces s (s.tbSet t) :=
  Writes.after (s := { s with tb := t }) (Writes.tbSync _) rfl

/-- SETPEND shows whether a set is armed. -/
theorem State.tbSync_setpend (s : State) : s.tbSync.on Reg.TB_STATUS_SETPEND.z = s.tb.armed.isSome := by
  have hp : (Reg.TB_STATUS_TQ.z).apart Reg.TB_STATUS_SETPEND.z := by decide
  have hc : (Reg.TB_CORR_CORR.z).apart Reg.TB_STATUS_SETPEND.z := by decide
  unfold State.tbSync
  rw [State.on_put_apart _ _ hp, State.on_put_apart _ _ hc, State.on_flag_same _ _ _ (by decide) (by decide), State.put_tb, State.tqNote_tb_armed]

theorem State.tbSet_setpend (s : State) (t : TimeBase) : (s.tbSet t).on Reg.TB_STATUS_SETPEND.z = t.armed.isSome :=
  State.tbSync_setpend _

/-! ### Steps of the tag (03 R89) -/

/-- A new scale is one more in STEPCNT. -/
theorem State.tbScale_stepcnt (s : State) (t : TimeBase) :
    (s.tbScale t).get Reg.TB_STATUS_STEPCNT.z = (s.get Reg.TB_STATUS_STEPCNT.z + 1) % 2 ^ Reg.TB_STATUS_STEPCNT.w := by
  have ht : ∀ m, tbPlaces m → m.apart Reg.TB_STATUS_STEPCNT.z := by unfold tbPlaces; decide
  unfold State.tbScale
  rw [(Writes.tbSync _).get _ (not_eventWord (by decide)) ht, State.get_congr (State.tqNote_regs _ true)]
  unfold State.wrap
  rw [State.get_put_same _ _ _ (by decide)]
  rfl

@[simp] theorem State.tbScale_ing (s : State) (t : TimeBase) : (s.tbScale t).ing = s.ing := by simp [State.tbScale, State.wrap]
@[simp] theorem State.tbScale_trg (s : State) (t : TimeBase) : (s.tbScale t).trg = s.trg := by simp [State.tbScale, State.wrap]
@[simp] theorem State.tbScale_tb_acc (s : State) (t : TimeBase) : (s.tbScale t).tb.acc = t.acc := by simp [State.tbScale, State.wrap]
@[simp] theorem State.tbScale_tb_armed (s : State) (t : TimeBase) : (s.tbScale t).tb.armed = t.armed := by simp [State.tbScale, State.wrap]
@[simp] theorem State.tbScale_tb_wasSet (s : State) (t : TimeBase) : (s.tbScale t).tb.wasSet = t.wasSet := by simp [State.tbScale, State.wrap]

@[simp] theorem State.timeStep_ing (s : State) (d : Int) : (s.timeStep d).ing = s.ing := by
  simp [State.timeStep, State.moveInstants]
@[simp] theorem State.timeStep_tb_armed (s : State) (d : Int) : (s.timeStep d).tb.armed = s.tb.armed := by
  simp [State.timeStep, State.moveInstants]
@[simp] theorem State.timeStep_tb_wasSet (s : State) (d : Int) : (s.timeStep d).tb.wasSet = s.tb.wasSet := by
  simp [State.timeStep, State.moveInstants]

theorem emod_mul_ediv (x : Int) {n k : Int} (hn : 0 < n) : x % (n * k) / n = x / n % k := by
  rw [Int.emod_def, Int.emod_def, ← Int.ediv_ediv_of_nonneg hn.le, sub_eq_add_neg, ← mul_neg, mul_assoc,
    Int.add_mul_ediv_left _ _ hn.ne', mul_neg, ← sub_eq_add_neg]

/-- A step moves the tag by its amount, modulo 2⁹⁶. -/
theorem State.timeStep_now (s : State) (d : Int) : (s.timeStep d).now = tagAdd s.now d := by
  have h := emod_mul_ediv ((s.tb.acc : Int) + d * 2 ^ 32) (n := 2 ^ 32) (k := 2 ^ 96) (by decide)
  rw [Int.add_mul_ediv_right _ _ (by decide), ← pow_add] at h
  unfold State.timeStep
  rw [State.ev_now, State.now, State.tbScale_tb_acc]
  dsimp only
  refine Int.ofNat_inj.mp ?_
  rw [tagAdd, toU, toU, State.now, Int.natCast_ediv, Int.toNat_of_nonneg (Int.emod_nonneg _ (by decide)),
    Int.toNat_of_nonneg (Int.emod_nonneg _ (by decide)), Int.natCast_ediv]
  exact h

theorem State.timeStep_stepcnt (s : State) (d : Int) :
    (s.timeStep d).get Reg.TB_STATUS_STEPCNT.z = (s.get Reg.TB_STATUS_STEPCNT.z + 1) % 2 ^ Reg.TB_STATUS_STEPCNT.w := by
  unfold State.timeStep
  rw [State.get_ev _ _ _ (by decide) (not_eventWord (by decide)), State.tbScale_stepcnt]
  rfl

/-- A table whose values move by a function that leaves the reset value alone. -/
theorem tget_map {α : Type} {d : Nat → α} (g : α → α) (hd : ∀ k, g (d k) = d k) (m : Tbl α) (k : Nat) :
    tget d (m.map (fun p => (p.1, g p.2))) k = g (tget d m k) := by
  induction m with
  | nil => exact (hd k).symm
  | cons e m ih =>
    simp only [List.map_cons, tget]
    split
    · rfl
    · exact ih

/-- A step moves the instants of every TRIG_OUT pin. -/
theorem State.timeStep_pin (s : State) (d : Int) (p : Nat) : (s.timeStep d).pin p = (s.pin p).moved (tagAdd · d) := by
  unfold State.timeStep State.pin
  rw [State.ev_trg_pins, State.tbScale_trg]
  exact tget_map (TrigOut.moved (tagAdd · d)) (fun _ => rfl) s.trg.pins p

/-- What a set leaves: it is no longer armed, SET is marked, and the tag has stepped by its amount. -/
theorem exec_tbSetApply {s : State} {m : SetMode} {v : Nat} (edge : Nat) (ha : s.tb.armed = some (m, v))
    (hm : m ≠ .atPps ∨ s.tb.setDue.isSome = true) :
    exec (.tbSetApply edge) s = .next (((s.tbSet { s.tb with armed := none, setDue := none, wasSet := true }).timeStep
      (setDelta m v (s.tb.setDue.getD edge))).ev 28) := by
  show execTbSetApply edge s = _
  unfold execTbSetApply
  rw [ha]
  cases m with
  | atPps =>
    obtain ⟨due, hd⟩ := Option.isSome_iff_exists.mp (hm.resolve_left fun h => h rfl)
    rw [hd]
  | immediate => rfl
  | add => rfl

/-- Settles O13: the applied set is one step of the tag (`State.timeStep`), whose parts are read one by one. -/
theorem setStepsTheTag : Obligations.SetStepsTheTag := by
  intro s edge v p ha _ _
  have ht : ∀ m, tbPlaces m → m.apart Reg.TB_STATUS_STEPCNT.z := by unfold tbPlaces; decide
  refine ⟨_, exec_tbSetApply edge ha (.inl (by decide)), ?_, ?_, ?_, ?_⟩
  · rw [State.ev_now, State.timeStep_now, State.now, State.tbSet_tb_acc]
    rfl
  · rw [State.ev_ing, State.timeStep_ing, State.tbSet_ing]
  · rw [State.get_ev _ _ _ (by decide) (not_eventWord (by decide)), State.timeStep_stepcnt,
      (Writes.tbSet _ _).get _ (not_eventWord (by decide)) ht]
  · unfold State.pin
    rw [State.ev_trg_pins, ← State.pin, State.timeStep_pin]
    unfold State.pin
    rw [State.tbSet_trg]
    rfl

/-- Settles O12: each command leaves the set in the time base, and SETPEND follows it (`State.tbSet_setpend`). -/
theorem timeSetCommandsComplete : Obligations.TimeSetCommandsComplete := by
  refine ⟨fun s r v m hd hm => ?_, fun s => ⟨_, rfl, State.tbSet_tb_armed .., State.tbSet_setpend ..⟩,
    fun s edge v m ha hm => ⟨_, exec_tbSetApply edge ha hm, ?_, ?_, State.ev_pend ..⟩, fun s => ⟨_, rfl, ?_, State.ev_pend ..⟩⟩
  · have hx : exec (.tbSetArm r true v) s = .next (s.tbSet { s.tb with armed := some (m, v % tagMod), setDue := none }) := by
      show Host.Outcome.next (s.armSet v _) = _
      unfold State.armSet
      rw [beq_false_of_ne hd, cond_false, hm]
    exact ⟨_, hx, State.tbSet_tb_armed .., State.tbSet_setpend ..⟩
  · rw [State.ev_tb, State.timeStep_tb_armed, State.tbSet_tb_armed]
  · rw [State.ev_tb, State.timeStep_tb_wasSet, State.tbSet_tb_wasSet]
  · rw [State.ev_now, State.now, State.tbSet_tb_acc]
    exact Nat.mul_div_cancel _ (by decide)

end Sys2Proof.Machine
end

section
/-!
SUPPORT. A bundle of one syllable (13 R408 to R413): when it is legal, and what it leaves where the syllable writes registers of the
set in use and stores.
-/
namespace Sys2Proof.Machine

/-! ### The registers after a syllable -/

/-- The registers `x` after the writes of a syllable's effects (13 R410). -/
noncomputable def Fx.regs (f : Fx) (x : RegSet) : RegSet :=
  let r := f.d.foldl (fun r p => r.setD p.1 p.2) x
  let r := f.acc.foldl (fun r p => r.setAcc p.1 p.2) r
  let r := f.q.foldl (fun r p => r.setQ p.1 p.2) r
  let r := { r with sat := r.sat || lt 0 f.sat, aov := r.aov || lt 0 f.aov }
  f.x.foldl (fun r p => r.setX p.1 p.2) r

/-- PC and the activity of the loop levels are as before. -/
def RegSet.SamePlace (x y : RegSet) : Prop := y.pc = x.pc ∧ y.l0a = x.l0a ∧ y.l1a = x.l1a

theorem RegSet.SamePlace.refl (x : RegSet) : x.SamePlace x := ⟨rfl, rfl, rfl⟩

theorem RegSet.SamePlace.trans {x y z : RegSet} (h : x.SamePlace y) (k : y.SamePlace z) : x.SamePlace z :=
  ⟨k.1.trans h.1, k.2.1.trans h.2.1, k.2.2.trans h.2.2⟩

theorem RegSet.SamePlace.foldl {β : Type} {f : RegSet → β → RegSet} (h : ∀ (r : RegSet) b, r.SamePlace (f r b)) (l : List β) (x : RegSet) :
    x.SamePlace (l.foldl f x) := by
  induction l generalizing x with
  | nil => exact refl x
  | cons b l ih => exact (h x b).trans (ih _)

theorem RegSet.setQ_samePlace (x : RegSet) (i : Nat) (v : Bool) : x.SamePlace (x.setQ i v) := by
  unfold RegSet.setQ
  split <;> exact ⟨rfl, rfl, rfl⟩

theorem RegSet.setX_samePlace (x : RegSet) (i : Nat) (v : Word) : x.SamePlace (x.setX i v) := by
  unfold RegSet.setX
  dsimp only
  split_ifs <;> exact ⟨rfl, rfl, rfl⟩

theorem Fx.regs_samePlace (f : Fx) (x : RegSet) : x.SamePlace (f.regs x) := by
  have hd := RegSet.SamePlace.foldl (f := fun r p => r.setD p.1 p.2) (fun _ _ => ⟨rfl, rfl, rfl⟩) f.d x
  have ha := hd.trans (RegSet.SamePlace.foldl (f := fun r p => r.setAcc p.1 p.2) (fun _ _ => ⟨rfl, rfl, rfl⟩) f.acc _)
  have hq := ha.trans (RegSet.SamePlace.foldl (f := fun r p => r.setQ p.1 p.2) (fun r p => r.setQ_samePlace p.1 p.2) f.q _)
  exact (hq.trans ⟨rfl, rfl, rfl⟩).trans (RegSet.SamePlace.foldl (f := fun r p => r.setX p.1 p.2) (fun r p => r.setX_samePlace p.1 p.2) f.x _)

theorem Tile.setCur_setCur (x : Tile) (r q : RegSet) : (x.setCur r).setCur q = x.setCur q := by
  cases h : x.lvl <;> simp [Tile.setCur, h]

@[simp] theorem Tile.setCur_lvl (x : Tile) (r : RegSet) : (x.setCur r).lvl = x.lvl := by
  cases h : x.lvl <;> simp [Tile.setCur, h]

/-- A write of an X register other than PRG changes the set in use alone. -/
theorem Tile.writeX_cur (x : Tile) {i : Nat} (v : Word) (h : i ≠ 0x2A) : x.writeX false i v = x.setCur (x.cur.setX i v) := by
  simp [Tile.writeX, h]

theorem Tile.foldl_writeX (l : List (Nat × Word)) (h : ∀ p ∈ l, p.1 ≠ 0x2A) (x : Tile) (r : RegSet) :
    l.foldl (fun x p => x.writeX false p.1 p.2) (x.setCur r) = x.setCur (l.foldl (fun r p => r.setX p.1 p.2) r) := by
  induction l generalizing r with
  | nil => rfl
  | cons p l ih =>
    simp only [List.mem_cons, forall_eq_or_imp] at h
    simp only [List.foldl_cons]
    rw [Tile.writeX_cur _ _ h.1, Tile.cur_setCur, Tile.setCur_setCur, ih h.2]

/-- The tile after the only syllable of a bundle that does not write the other set or PRG. -/
theorem Tile.commit_one (x : Tile) {f : Fx} (hm : f.main = none) (hx : ∀ p ∈ f.x, p.1 ≠ 0x2A) :
    x.commit [f] = x.setCur (f.regs x.cur) := by
  unfold Tile.commit
  simp only [List.foldl_cons, List.foldl_nil, hm]
  exact Tile.foldl_writeX f.x hx x _

/-! ### The issue -/

@[simp] theorem State.tile_count (s : State) (t : Nat) (l : Loc) (n : Nat) : (s.count l n).tile t = s.tile t := by
  simp [State.tile]

/-- The saturated components `n` of a bundle are counted. -/
noncomputable def State.satCounted (s : State) (t n : Nat) : State := bif lt 0 n then s.count (Reg.TILE_SAT_COUNT.t t) n else s

@[simp] theorem State.satCounted_tile (s : State) (t n i : Nat) : (s.satCounted t n).tile i = s.tile i := by
  unfold State.satCounted
  cases lt 0 n <;> simp

@[simp] theorem State.satCounted_mem (s : State) (t n : Nat) : (s.satCounted t n).mem = s.mem := by
  unfold State.satCounted
  cases lt 0 n <;> simp

theorem State.bundleTaken_eq (s : State) (t : Nat) (r : RegSet) (n : Nat) :
    s.bundleTaken t r n = ((s.issuing t).satCounted t n).setTile t (((s.issuing t).tile t).setCur r) := by
  rw [State.issuing, State.tile_setTile]
  rfl

@[simp] theorem State.cur_bundleTaken (s : State) (t : Nat) (r : RegSet) (n : Nat) : ((s.bundleTaken t r n).tile t).cur = r := by
  rw [State.bundleTaken_eq, State.tile_setTile, Tile.cur_setCur]

/-- Word `w` alone is a bundle with its stop bit, of a class other than the bench's. -/
structure AloneWord (c w : Nat) : Prop where
  lt : w < 2 ^ 32
  stop : bit w 31 = true
  cls : sylClass w = c
  below : c < 4

/-- At a bundle boundary such a word is a whole bundle, which issues. -/
theorem State.syllable_alone {s : State} {t c w : Nat} (hw : AloneWord c w) (hmay : s.tileMay t = true)
    (hb : (s.tile t).bundle = []) : s.syllable t w = s.issue t [w] false := by
  obtain ⟨hlt, hstop, hcls, hbelow⟩ := hw
  have hnat : (BitVec.ofNat 32 w).toNat = w := Nat.mod_eq_of_lt hlt
  have hc : ([c] == [4]) = false := by simpa using hbelow.ne
  simp only [State.syllable, hmay, hb, hstop, List.nil_append, Bool.true_or, cond_true, List.map_cons, List.map_nil, hnat]
  simp only [State.bundle, List.map_cons, List.map_nil, hcls, hc, Bool.false_and, cond_false]

/-- Such a bundle is legal where the syllable is, where it writes no register twice, where it is no branch at the end of a loop,
and where a loop that it starts has a body. -/
theorem State.alone_legal {s : State} {t c w : Nat} {f : Fx} (hw : AloneWord c w) (hok : sylOk w (s.tile t).lvl = true)
    (hbr : isBranch w = false ∨ (s.tile t).cur.l0a = false ∧ (s.tile t).cur.l1a = false)
    (hl : ∀ v r k last, f.ctl = .loop v r k last →
      bodyEnd ((s.tile t).bank (s.liveBank t)) last 16384 (s.tile t).cur.after ≠ 0)
    (hwr : writesOk [f] = true) :
    (s.issuing t).bundleIllegal t ((s.tile t).cur.pc % 2 ^ 14) (s.tile t).cur.after [w] [f] = false := by
  obtain ⟨-, hstop, hcls, hbelow⟩ := hw
  have hslot : slotsOk [c] = true := (by decide : ∀ c < 4, slotsOk [c] = true) c hbelow
  have hlen : lt 16384 ((s.tile t).cur.pc % 2 ^ 14 + 1) = false := by simp only [lt, decide_eq_false_iff_not]; lia
  have hbank : ((s.issuing t).tile t).bank ((s.issuing t).liveBank t) = (s.tile t).bank (s.liveBank t) := by
    rw [State.issuing, State.tile_setTile]
    rfl
  have hloop : (match f.ctl with
      | .loop _ _ _ last => bodyEnd ((s.tile t).bank (s.liveBank t)) last 16384 (s.tile t).cur.after == 0
      | _ => false) = false := by
    cases hctl : f.ctl with
    | loop v r k last => exact beq_false_of_ne (hl v r k last hctl)
    | _ => rfl
  unfold State.bundleIllegal
  simp only [List.map_cons, List.map_nil, hcls, hslot, hok, hstop, hlen, hwr, State.issuing_lvl,
    State.issuing_cur, hbank, List.any_cons, List.any_nil, List.getLastD_cons, List.getLastD_nil, List.length_cons, List.length_nil, Nat.zero_add,
    Bool.not_true, Bool.or_false, Bool.false_or]
  rcases hbr with hbr | ⟨h0, h1⟩
  · simp only [hbr, Bool.and_false, Bool.false_or]
    exact hloop
  · simp only [h0, h1, Bool.false_and, Bool.or_false, Bool.false_or]
    exact hloop

/-- A legal bundle of one syllable whose effects read no own register and take no lock: its writes, its stores, its control. -/
theorem State.issue_one {s : State} {t w : Nat} {f : Fx} (hf : s.sylFx t w = f)
    (hl : (s.issuing t).bundleIllegal t ((s.tile t).cur.pc % 2 ^ 14) (s.tile t).cur.after [w] [f] = false)
    (h0 : f.fault.1 = 0) (ht : f.touch = []) (hk : f.lock = none) :
    s.issue t [w] false =
      (f.st.foldl (fun s p => s.coreStore t p.2.1 p.2.2 p.1)
        (((s.issuing t).satCounted t (f.sat + f.aov)).setTile t (((s.issuing t).tile t).commit [f]))).control t
          ((s.tile t).cur.pc % 2 ^ 14) (s.tile t).cur.after f.ctl := by
  have hc : ([f.ctl].find? (· ≠ .none)).getD .none = f.ctl := by
    by_cases h : f.ctl = .none <;> simp [h]
  have hn : sumOf [f.sat + f.aov] = f.sat + f.aov := by simp [sumOf]
  have hfault : [f].find? (fun f => f.fault.1 != 0) = none := by simp [h0]
  unfold State.issue
  simp only [List.map_cons, List.map_nil, hf, hc, hn]
  change (bif (s.issuing t).bundleIllegal t ((s.tile t).cur.pc % 2 ^ 14) (s.tile t).cur.after [w] [f] then _ else
    match [f].find? (fun f => f.fault.1 != 0) with
    | some _ => _
    | none => ((((s.issuing t).satCounted t (f.sat + f.aov)).setTile t
        ((((s.issuing t).satCounted t (f.sat + f.aov)).tile t).commit [f])).commitMem t [f] false).control t
          ((s.tile t).cur.pc % 2 ^ 14) (s.tile t).cur.after f.ctl) = _
  rw [hl, cond_false, hfault]
  dsimp only
  rw [State.satCounted_tile]
  simp only [State.commitMem, List.foldl_cons, List.foldl_nil, ht, hk, Bool.false_and, cond_false]

/-- A faulting bundle of one legal syllable. -/
theorem State.issue_fault {s : State} {t w c a : Nat} {f : Fx} (hf : s.sylFx t w = f)
    (hl : (s.issuing t).bundleIllegal t ((s.tile t).cur.pc % 2 ^ 14) (s.tile t).cur.after [w] [f] = false)
    (h0 : f.fault = (c, a)) (hc : c ≠ 0) : s.issue t [w] false = (s.issuing t).tileFault t c a := by
  have hfault : [f].find? (fun f => f.fault.1 != 0) = some f := by simp [h0, hc]
  unfold State.issue
  simp only [List.map_cons, List.map_nil, hf, hfault]
  change (bif (s.issuing t).bundleIllegal t ((s.tile t).cur.pc % 2 ^ 14) (s.tile t).cur.after [w] [f] then _
    else (s.issuing t).tileFault t f.fault.1 f.fault.2) = _
  rw [hl, cond_false, h0]

/-- A bundle of one illegal syllable raises ILLEGAL. -/
theorem State.issue_illegal {s : State} {t w : Nat} (hok : sylOk w (s.tile t).lvl = false) :
    s.issue t [w] false = (s.issuing t).tileFault t 1 0 := by
  have hl (n m : Nat) : (s.issuing t).bundleIllegal t n m [w] [s.sylFx t w] = true := by
    unfold State.bundleIllegal
    simp only [List.map_cons, List.map_nil, List.any_cons, List.any_nil, State.issuing_lvl, hok, Bool.not_false, Bool.true_or, Bool.or_true]
  unfold State.issue
  simp only [List.map_cons, List.map_nil]
  change (bif (s.issuing t).bundleIllegal t ((s.tile t).cur.pc % 2 ^ 14) (s.tile t).cur.after [w] [s.sylFx t w] then
    (s.issuing t).tileFault t 1 0 else _) = _
  rw [hl, cond_true]

/-! ### Effects on the registers in use -/

/-- The effects of a syllable that may only write the registers in use, without PRG and no register twice, and store. -/
structure Fx.Local (f : Fx) : Prop where
  fault : f.fault.1 = 0
  touch : f.touch = []
  lock : f.lock = Option.none
  main : f.main = Option.none
  prg : ∀ p ∈ f.x, p.1 ≠ 0x2A
  once : writesOk [f] = true

/-- The only syllable of a bundle, with effects on the registers in use and memory, and its control. -/
theorem State.syllable_local {s : State} {t c w : Nat} {f : Fx} (hw : AloneWord c w) (hmay : s.tileMay t = true)
    (hb : (s.tile t).bundle = []) (hok : sylOk w (s.tile t).lvl = true)
    (hbr : isBranch w = false ∨ (s.tile t).cur.l0a = false ∧ (s.tile t).cur.l1a = false)
    (hl : ∀ v r k last, f.ctl = .loop v r k last →
      bodyEnd ((s.tile t).bank (s.liveBank t)) last 16384 (s.tile t).cur.after ≠ 0)
    (hf : s.sylFx t w = f) (h : f.Local) :
    s.syllable t w =
      (f.st.foldl (fun s p => s.coreStore t p.2.1 p.2.2 p.1) (s.bundleTaken t (f.regs (s.tile t).cur) (f.sat + f.aov))).control t
        ((s.tile t).cur.pc % 2 ^ 14) (s.tile t).cur.after f.ctl := by
  rw [State.syllable_alone hw hmay hb, State.issue_one hf (State.alone_legal hw hok hbr hl h.once) h.fault h.touch h.lock,
    Tile.commit_one _ h.main h.prg, State.issuing_cur, ← State.bundleTaken_eq]

/-- With no control, store or loop the core goes on at the next syllable. -/
theorem State.syllable_writes {s : State} {t c w : Nat} {f : Fx} (hw : AloneWord c w) (hr : s.readyAt t = true)
    (hok : sylOk w (s.tile t).lvl = true) (hf : s.sylFx t w = f) (h : f.Local) (hst : f.st = []) (hc : f.ctl = .none) :
    s.syllable t w = s.issued t (f.regs (s.tile t).cur) (f.sat + f.aov) := by
  obtain ⟨hmay, hb, h0, h1⟩ := s.readyAt_iff t |>.mp hr
  obtain ⟨hpc, hl0, hl1⟩ := f.regs_samePlace (s.tile t).cur
  rw [State.syllable_local hw hmay hb hok (.inr ⟨h0, h1⟩) (by simp [hc]) hf h, hst, List.foldl_nil, hc,
    State.control_none (by rw [State.cur_bundleTaken, hl0, h0]) (by rw [State.cur_bundleTaken, hl1, h1]),
    State.issued, RegSet.after, RegSet.after, hpc]

theorem Res.next_congr {a b : State} (h : a = b) : (Host.Outcome.next a : Res) = .next b := by rw [h]

/-! ### The four ways to write a register -/

/-- A write of a D register with `n` saturated components. -/
noncomputable def Fx.putD (p : Nat) (v : Word) (n : Nat) : Fx := { Fx.none with d := [(p, v)], sat := n }
/-- A write of a predicate. -/
noncomputable def Fx.putQ (i : Nat) (v : Bool) : Fx := { Fx.none with q := [(i, v)] }
/-- A write of an accumulator with `n` saturated components. -/
noncomputable def Fx.putAcc (i : Nat) (v : Int × Int) (n : Nat) : Fx := { Fx.none with acc := [(i, v)], aov := n }
/-- A write of an X register. -/
noncomputable def Fx.putX (i : Nat) (v : Word) : Fx := { Fx.none with x := [(i, v)] }

theorem Fx.putD_local (p : Nat) (v : Word) (n : Nat) : (Fx.putD p v n).Local :=
  ⟨rfl, rfl, rfl, rfl, List.forall_mem_nil _, rfl⟩
theorem Fx.putQ_local (i : Nat) (v : Bool) : (Fx.putQ i v).Local :=
  ⟨rfl, rfl, rfl, rfl, List.forall_mem_nil _, rfl⟩
theorem Fx.putAcc_local (i : Nat) (v : Int × Int) (n : Nat) : (Fx.putAcc i v n).Local :=
  ⟨rfl, rfl, rfl, rfl, List.forall_mem_nil _, rfl⟩
theorem Fx.putX_local {i : Nat} (v : Word) (h : i ≠ 0x2A) : (Fx.putX i v).Local :=
  ⟨rfl, rfl, rfl, rfl, List.forall_mem_singleton.mpr h, rfl⟩

theorem Fx.none_local : Fx.none.Local := ⟨rfl, rfl, rfl, rfl, List.forall_mem_nil _, rfl⟩

@[simp] theorem Fx.putD_regs (p : Nat) (v : Word) (n : Nat) (x : RegSet) :
    (Fx.putD p v n).regs x = { x.setD p v with sat := x.sat || lt 0 n } := by
  simp [Fx.regs, Fx.putD, Fx.none, RegSet.setD, show lt 0 0 = false from rfl]
@[simp] theorem Fx.putQ_regs (i : Nat) (v : Bool) (x : RegSet) : (Fx.putQ i v).regs x = x.setQ i v := by
  simp [Fx.regs, Fx.putQ, Fx.none, lt]
@[simp] theorem Fx.putAcc_regs (i : Nat) (v : Int × Int) (n : Nat) (x : RegSet) :
    (Fx.putAcc i v n).regs x = { x.setAcc i v with aov := x.aov || lt 0 n } := by
  simp [Fx.regs, Fx.putAcc, Fx.none, RegSet.setAcc, show lt 0 0 = false from rfl]
@[simp] theorem Fx.putX_regs (i : Nat) (v : Word) (x : RegSet) : (Fx.putX i v).regs x = x.setX i v := by
  simp [Fx.regs, Fx.putX, Fx.none, lt]
@[simp] theorem Fx.none_regs (x : RegSet) : Fx.none.regs x = x := by simp [Fx.regs, Fx.none, lt]

@[simp] theorem Fx.putD_count (p : Nat) (v : Word) (n : Nat) : (Fx.putD p v n).sat + (Fx.putD p v n).aov = n := Nat.add_zero n
@[simp] theorem Fx.putQ_count (i : Nat) (v : Bool) : (Fx.putQ i v).sat + (Fx.putQ i v).aov = 0 := rfl
@[simp] theorem Fx.putAcc_count (i : Nat) (v : Int × Int) (n : Nat) : (Fx.putAcc i v n).sat + (Fx.putAcc i v n).aov = n :=
  Nat.zero_add n
@[simp] theorem Fx.putX_count (i : Nat) (v : Word) : (Fx.putX i v).sat + (Fx.putX i v).aov = 0 := rfl
@[simp] theorem Fx.none_count : Fx.none.sat + Fx.none.aov = 0 := rfl

/-- No saturated component leaves SR.SAT. -/
theorem RegSet.setD_unsaturated (x : RegSet) (p : Nat) (v : Word) : { x.setD p v with sat := x.sat || lt 0 0 } = x.setD p v := by
  simp [RegSet.setD, lt]

theorem RegSet.setAcc_unsaturated (x : RegSet) (i : Nat) (v : Int × Int) :
    { x.setAcc i v with aov := x.aov || lt 0 0 } = x.setAcc i v := by
  simp [RegSet.setAcc, lt]

end Sys2Proof.Machine
end

section
/-!
SUPPORT. The ALU slot (13 R421 to R423): the fields of its three formats and what each instruction leaves.
-/
namespace Sys2Proof.Machine

/-! ### The stop bit, the class, the opcode and the predicate of a syllable (13 Formats) -/

theorem mul_add_mod_of_lt {a b c : Nat} (h : c < b) : (a * b + c) % b = c := by
  rw [Nat.add_comm, Nat.add_mul_mod_self_right, Nat.mod_eq_of_lt h]

theorem b2n_lt_two (b : Bool) : b2n b < 2 := by cases b <;> decide

theorem bit_of_bits {w i : Nat} {b : Bool} (h : bits w i 1 = b2n b) : bit w i = b := by
  rw [bit, h]
  cases b <;> rfl

theorem qn_eq_one (q : BitVec 1) : (q == 1) = decide (q.toNat = 1) := by
  rw [Bool.eq_iff_iff, beq_iff_eq, decide_eq_true_eq, BitVec.toNat_eq]
  rfl

/-- A field of the part of a word below bit `k`. -/
theorem bits_low {w low k lo n : Nat} (hw : w % 2 ^ k = low) (h : lo + n ≤ k) : bits w lo n = low / 2 ^ lo % 2 ^ n := by
  have hd : 2 ^ n ∣ 2 ^ (k - lo) := pow_dvd_pow 2 (by lia)
  rw [← hw, bits, show (2 : Nat) ^ k = 2 ^ lo * 2 ^ (k - lo) by rw [← pow_add]; congr 1; lia, Nat.mod_mul_right_div_self,
    Nat.mod_mod_of_dvd _ hd]

/-- A field of the upper part of a packed word. -/
theorem bits_pack {hi low k : Nat} (h : low < 2 ^ k) (lo n : Nat) : bits (hi * 2 ^ k + low) (lo + k) n = bits hi lo n := by
  rw [bits, bits, Nat.add_comm lo k, Nat.pow_add, ← Nat.div_div_eq_div_mul, Nat.add_comm _ low,
    Nat.add_mul_div_right _ _ (Nat.two_pow_pos k), Nat.div_eq_of_lt h, Nat.zero_add]

/-- The upper field of a packed word. -/
theorem bits_pack_top {hi low k n : Nat} (h : low < 2 ^ k) (hn : hi < 2 ^ n) : bits (hi * 2 ^ k + low) k n = hi := by
  have hb := bits_pack (hi := hi) h 0 n
  rw [Nat.zero_add] at hb
  rw [hb, bits, pow_zero, Nat.div_one, Nat.mod_eq_of_lt hn]

/-- The lower field of a packed word. -/
theorem bits_pack_low {hi low k : Nat} (h : low < 2 ^ k) : bits (hi * 2 ^ k + low) 0 k = low := by
  rw [bits, pow_zero, Nat.div_one, mul_add_mod_of_lt h]

/-- A field below the top of the lower part. -/
theorem bits_pack_below {hi low k lo n : Nat} (h : low < 2 ^ k) (hl : lo + n ≤ k) : bits (hi * 2 ^ k + low) lo n = bits low lo n :=
  bits_low (mul_add_mod_of_lt h) hl

theorem pack_lt {hi low k n : Nat} (h : low < 2 ^ k) (hn : hi < 2 ^ n) : hi * 2 ^ k + low < 2 ^ (n + k) := by
  have h1 : (hi + 1) * 2 ^ k ≤ 2 ^ n * 2 ^ k := Nat.mul_le_mul_right _ hn
  rw [← Nat.pow_add, Nat.add_mul, Nat.one_mul] at h1
  exact Nat.lt_of_lt_of_le (Nat.add_lt_add_left h _) h1

/-- The stop bit and the seven bits below it. -/
theorem syl_top {w t low : Nat} (stop : Bool) (ht : t < 2 ^ 7) (hl : low < 2 ^ 24) (hw : w = (b2n stop * 2 ^ 7 + t) * 2 ^ 24 + low) :
    w < 2 ^ 32 ∧ bit w 31 = stop ∧ sylClass w = bits t 4 3 ∧ bits w 24 4 = bits t 0 4 ∧ w % 2 ^ 24 = low := by
  have hb : b2n stop < 2 ^ 1 := b2n_lt_two stop
  rw [hw]
  refine ⟨pack_lt hl (pack_lt ht hb), bit_of_bits ?_, ?_, ?_, mul_add_mod_of_lt hl⟩
  · exact (bits_pack hl 7 1).trans (bits_pack_top ht hb)
  · exact (bits_pack hl 4 3).trans (bits_pack_below ht (by decide))
  · exact (bits_pack hl 0 4).trans (bits_pack_below ht (by decide))

/-- `w` is a syllable of class `c` with opcode `op`, its stop bit and predicate fields, and `low` below them. -/
structure Head (c op w : Nat) (stop : Bool) (qp : BitVec 3) (qn : BitVec 1) (low : Nat) : Prop where
  lt : w < 2 ^ 32
  stop : bit w 31 = stop
  cls : sylClass w = c
  op : bits w 22 6 = op
  qp : bits w 19 3 = qp.toNat
  qn : bit w 18 = (qn == 1)
  low : w % 2 ^ 18 = low

/-- The head of a syllable with a predicate: its stop bit, class, opcode and predicate, and `low` below them. -/
theorem Head.packed {w c op low : Nat} (stop : Bool) (qp : BitVec 3) (qn : BitVec 1) (hc : c < 2 ^ 3) (ho : op < 2 ^ 6)
    (hl : low < 2 ^ 18)
    (hw : w = ((((b2n stop * 2 ^ 3 + c) * 2 ^ 6 + op) * 2 ^ 3 + qp.toNat) * 2 ^ 1 + qn.toNat) * 2 ^ 18 + low) :
    Head c op w stop qp qn low := by
  have hb : b2n stop < 2 ^ 1 := b2n_lt_two stop
  have hq := qp.isLt
  have hn := qn.isLt
  rw [hw]
  refine ⟨pack_lt hl (pack_lt hn (pack_lt hq (pack_lt ho (pack_lt hc hb)))), bit_of_bits ?_, ?_, ?_, ?_, ?_,
    mul_add_mod_of_lt hl⟩
  · exact (bits_pack hl 13 1).trans ((bits_pack hn 12 1).trans ((bits_pack hq 9 1).trans ((bits_pack ho 3 1).trans (bits_pack_top hc hb))))
  · exact (bits_pack hl 10 3).trans ((bits_pack hn 9 3).trans ((bits_pack hq 6 3).trans ((bits_pack ho 0 3).trans (bits_pack_low hc))))
  · exact (bits_pack hl 4 6).trans ((bits_pack hn 3 6).trans ((bits_pack hq 0 6).trans (bits_pack_low ho)))
  · exact (bits_pack hl 1 3).trans ((bits_pack hn 0 3).trans (bits_pack_low hq))
  · rw [bit, (bits_pack hl 0 1).trans (bits_pack_low hn), qn_eq_one]

/-- The fields of a packed word, added up or nested. -/
theorem packed_eq (b c o q n l : Nat) : b * 2 ^ 31 + c * 2 ^ 28 + o * 2 ^ 22 + q * 2 ^ 19 + n * 2 ^ 18 + l =
    ((((b * 2 ^ 3 + c) * 2 ^ 6 + o) * 2 ^ 3 + q) * 2 ^ 1 + n) * 2 ^ 18 + l := by
  lia

namespace Head

variable {c op w low : Nat} {stop : Bool} {qp : BitVec 3} {qn : BitVec 1} (he : Head c op w stop qp qn low)
include he

theorem alone (hs : stop = true) (hc : c < 4) : AloneWord c w := ⟨he.lt, he.stop.trans hs, he.cls, hc⟩

/-- A field below the predicate. -/
theorem field {lo n : Nat} (h : lo + n ≤ 18) : bits w lo n = bits low lo n := bits_low he.low h

end Head

/-! ### The rules and effects of ALU syllables by their opcode (R413, R421 to R423) -/

/-- The rule of R413 for a load/store syllable with opcode `o` and fields `f`. -/
noncomputable def lsOk (o : Nat) (f : Nat → Nat → Nat) : Bool :=
  if o = 0xF then false
  else if o = 0xE then f 22 2 < 2 && f 15 4 = 0 && f 8 1 = 0
  else (f 22 2 % 2 = 0 || f 3 6 = 0) && (!(o = 5 || o = 0xB) || f 9 1 = 0) && (!(o = 6 || o = 0xC) || f 9 2 = 0)
    && (o ≠ 7 || f 13 2 = 0) && (o ≠ 0xD || f 22 2 % 2 = 0)

/-- The rule for a MAC syllable. -/
noncomputable def macOk (op : Nat) (f : Nat → Nat → Nat) : Bool :=
  if op ≤ 9 then f 12 3 = 0 && (op ≠ 7 || f 0 12 = 0) && (!(op = 8 || op = 9) || (f 0 6 = 0 && f 9 3 = 0))
  else if 0x10 ≤ op && op ≤ 0x14 then
    f 0 3 = 0 && (if op = 0x10 then (decide (-8 ≤ sext 6 (f 3 6)) && decide (sext 6 (f 3 6) ≤ 23))
      else if op ≤ 0x12 then f 3 6 < 32 else f 3 6 < 3)
  else false

/-- The rule for an ALU syllable. -/
noncomputable def aluOk (op : Nat) (f : Nat → Nat → Nat) (lvl : Bool) : Bool :=
  if op ≤ 0x20 then
    if op = 0x0F || op = 0x12 || op = 0x13 then f 0 6 = 0
    else if 0x16 ≤ op && op ≤ 0x19 then f 12 6 < 8
    else if 0x1A ≤ op && op ≤ 0x1C then f 12 6 < 8 && f 6 6 < 8 && f 0 6 < 8
    else if op = 0x1D then f 0 6 = 0 && xOk (f 12 6)
    else if op = 0x1E then f 0 6 = 0 && xOk (f 6 6)
    else if op = 0x1F then f 0 5 = 0 && lvl && (f 5 7 < 0x40 || xOk (f 5 7 - 0x40))
    else if op = 0x20 then f 0 5 = 0 && lvl && (f 11 7 < 0x40 || xOk (f 11 7 - 0x40))
    else true
  else if 0x28 ≤ op && op ≤ 0x2D then op ≤ 0x2A || f 5 7 = 0
  else op = 0x30 || op = 0x31

/-- The rule for a control syllable. -/
noncomputable def ctlOk (o : Nat) (f : Nat → Nat → Nat) (lvl : Bool) : Bool :=
  if o = 1 || o = 2 then f 14 6 = 0
  else if o = 3 then f 0 20 = 0
  else if o = 4 then f 14 2 = 0
  else if o = 5 then true
  else if o = 6 then f 0 19 = 0
  else if o = 7 then lvl && f 0 24 = 0
  else o ≤ 0xA && f 0 24 = 0

/-- The rule for class `c`. -/
noncomputable def classOk (c op o : Nat) (f : Nat → Nat → Nat) (lvl : Bool) : Bool :=
  if c = 0 then lsOk o f else if c = 1 then macOk op f else if c = 2 then aluOk op f lvl else if c = 3 then ctlOk o f lvl else c = 4

theorem sylOk_eq (w : Nat) (lvl : Bool) : sylOk w lvl = classOk (sylClass w) (bits w 22 6) (bits w 24 4) (bits w) lvl := rfl

theorem sylOk_mac {w op : Nat} (hc : sylClass w = 1) (ho : bits w 22 6 = op) (lvl : Bool) : sylOk w lvl = macOk op (bits w) := by
  rw [sylOk_eq, hc, ho]
  rfl

theorem sylOk_alu {w op : Nat} (hc : sylClass w = 2) (ho : bits w 22 6 = op) (lvl : Bool) : sylOk w lvl = aluOk op (bits w) lvl := by
  rw [sylOk_eq, hc, ho]
  rfl

theorem sylOk_ctl {w o : Nat} (hc : sylClass w = 3) (ho : bits w 24 4 = o) (lvl : Bool) : sylOk w lvl = ctlOk o (bits w) lvl := by
  rw [sylOk_eq, hc, ho]
  rfl

/-- A syllable of class `c` with opcodes `op` and `o` executes (R411), by its fields `f` and bits `b`. -/
noncomputable def RegSet.runsAt (x : RegSet) (c op o : Nat) (f : Nat → Nat → Nat) (b : Nat → Bool) : Bool :=
  if c = 0 then x.pred (f 19 3)
  else if c = 1 || (c = 2 && op < 0x30) then xor (x.pred (f 19 3)) (b 18)
  else if c = 3 && (o = 1 || o = 2 || o = 3) then xor (x.pred (f 21 3)) (b 20)
  else if c = 3 && o = 6 then xor (x.pred (f 20 3)) (b 19)
  else true

/-- The effects of a syllable of class `c` that executes. -/
noncomputable def State.classFx (s : State) (t c w : Nat) : Fx :=
  if c = 0 then s.lsFx t (s.tile t).cur w else if c = 1 then macFx (s.tile t).cur w else if c = 2 then aluFx (s.tile t) w
  else ctlFx (s.tile t).cur w

theorem RegSet.runs_eq (x : RegSet) (w : Nat) : x.runs w = x.runsAt (sylClass w) (bits w 22 6) (bits w 24 4) (bits w) (bit w) := rfl

theorem State.sylFx_eq (s : State) (t w : Nat) :
    s.sylFx t w = if !(s.tile t).cur.runs w then Fx.none else s.classFx t (sylClass w) w := rfl

/-- The effects of an ALU syllable with opcode `op`, destination `dd` and operands `a`, `b`, its other fields in `f`. -/
noncomputable def aluAt (tl : Tile) (op dd : Nat) (a b : Word) (f : Nat → Nat → Nat) : Fx :=
  let x := tl.cur
  let qput (v : Bool) : Fx := .putQ (dd % 8) v
  if op ≤ 0x15 then .putD (x.phys dd) (aluValue op a b).1 (min 1 (aluValue op a b).2)
  else if op = 0x16 then qput (a == b)
  else if op = 0x17 then qput (decide (a.toInt < b.toInt))
  else if op = 0x18 then qput (lt a.toNat b.toNat)
  else if op = 0x19 then qput (decide (a.toInt ≤ b.toInt))
  else if op = 0x1A then qput (x.pred (f 6 3) && x.pred (f 0 3))
  else if op = 0x1B then qput (x.pred (f 6 3) || x.pred (f 0 3))
  else if op = 0x1C then qput (x.pred (f 6 3) && !x.pred (f 0 3))
  else if op = 0x1D then .putX dd a
  else if op = 0x1E then .putD (x.phys dd) (x.xSpace tl.lvl (f 6 6)) 0
  else if op = 0x1F then .putD (x.phys dd) (tl.mainReg (f 5 7)) 0
  else if op = 0x20 then { Fx.none with main := some (f 11 7, x.dReg (f 5 6)) }
  else if op < 0x30 then .putD (x.phys dd) (immValue op (x.dReg dd) (f 0 12)) 0
  else .putD (x.phys (f 16 6)) (if op = 0x30 then BitVec.ofInt 32 (sext 16 (f 0 16))
    else BitVec.ofNat 32 ((x.dReg (f 16 6)).toNat % 65536 + f 0 16 * 65536)) 0

theorem aluFx_at (tl : Tile) {w op dd da db : Nat} (ho : bits w 22 6 = op) (hd : bits w 12 6 = dd) (ha : bits w 6 6 = da)
    (hb : bits w 0 6 = db) : aluFx tl w = aluAt tl op dd (tl.cur.dReg da) (tl.cur.dReg db) (bits w) := by
  subst ho hd ha hb
  rfl

/-- An ALU syllable executes where its predicate says so; else it has no effect. -/
theorem Head.sylFx_alu {op w low : Nat} {stop : Bool} {qp : BitVec 3} {qn : BitVec 1} (he : Head 2 op w stop qp qn low)
    (hop : (op < 0x30 : Bool) = true) (s : State) (t : Nat) :
    s.sylFx t w = bif xor ((s.tile t).cur.pred qp.toNat) (qn == 1) then aluFx (s.tile t) w else Fx.none := by
  have hr : (s.tile t).cur.runs w = xor ((s.tile t).cur.pred qp.toNat) (qn == 1) := by
    rw [RegSet.runs_eq]
    unfold RegSet.runsAt
    rw [he.cls, he.op, hop, he.qp, he.qn]
    rfl
  rw [State.sylFx_eq, hr, he.cls]
  cases xor ((s.tile t).cur.pred qp.toNat) (qn == 1) <;> rfl

/-! ### The fields of an ALU syllable (13 Formats) -/

/-- The part of a format R syllable below its predicate. -/
noncomputable def AluSyl.low (y : AluSyl) : Nat := (y.dd.toNat * 2 ^ 6 + y.da.toNat) * 2 ^ 6 + y.db.toNat

/-- `w` is the format R syllable with opcode `op` and the fields of `y`. -/
abbrev AluSyl.Encodes (y : AluSyl) (op w : Nat) : Prop := Head 2 op w y.stop y.qp y.qn y.low

theorem AluSyl.word_encodes (y : AluSyl) {op : Nat} (h : op < 64) : y.Encodes op (y.word op) :=
  .packed y.stop y.qp y.qn (by decide) h (pack_lt y.db.isLt (pack_lt y.da.isLt y.dd.isLt))
    ((packed_eq ..).symm.trans (by rw [AluSyl.word, AluSyl.low]; lia)).symm

namespace AluSyl.Encodes

variable {y : AluSyl} {op w : Nat} (he : y.Encodes op w)
include he

theorem dd : bits w 12 6 = y.dd.toNat :=
  (he.field (by decide)).trans ((bits_pack y.db.isLt 6 6).trans (bits_pack_top y.da.isLt y.dd.isLt))

theorem da : bits w 6 6 = y.da.toNat := (he.field (by decide)).trans ((bits_pack y.db.isLt 0 6).trans (bits_pack_low y.da.isLt))

theorem db : bits w 0 6 = y.db.toNat := (he.field (by decide)).trans (bits_pack_low y.db.isLt)

/-- The effects by opcode. -/
theorem fx (tl : Tile) : aluFx tl w = aluAt tl op y.dd.toNat (tl.cur.dReg y.da.toNat) (tl.cur.dReg y.db.toNat) (bits w) :=
  aluFx_at tl he.op (dd he) (da he) (db he)

end AluSyl.Encodes

/-- An ALU syllable whose predicate is true has the effects `f` on the registers in use. -/
theorem State.head_runs {s : State} {t op w low : Nat} {x : RegSet} {stop : Bool} {qp : BitVec 3} {qn : BitVec 1}
    (he : Head 2 op w stop qp qn low) (hr : s.readyAt t = true) (hs : stop = true) (hx : (s.tile t).cur = x)
    (hop : (op < 0x30 : Bool) = true) (hok : aluOk op (bits w) (s.tile t).lvl = true) (hq : xor (x.pred qp.toNat) (qn == 1) = true)
    {f : Fx} (hf : aluFx (s.tile t) w = f) (h : f.Local) (hst : f.st = []) (hc : f.ctl = .none) :
    s.syllable t w = s.issued t (f.regs x) (f.sat + f.aov) := by
  have hf : s.sylFx t w = f := by rw [he.sylFx_alu hop, hx, hq, Bool.cond_true, hf]
  rw [State.syllable_writes (he.alone hs (by decide)) hr ((sylOk_alu he.cls he.op _).trans hok) hf h hst hc, hx]

section
variable {s : State} {t op : Nat} {x : RegSet} {y : AluSyl} (hr : s.readyAt t = true) (hs : y.stop = true)
  (hx : (s.tile t).cur = x) (hop : (op < 0x30 : Bool) = true)
  (hok : ∀ w, y.Encodes op w → aluOk op (bits w) (s.tile t).lvl = true)
include hr hs hx hop hok

/-- A format R instruction whose predicate is false passes on. -/
theorem State.alu_skipped (hq : xor (x.pred y.qp.toNat) (y.qn == 1) = false) : s.syllable t (y.word op) = s.issued t x 0 := by
  have he := y.word_encodes (by have := of_decide_eq_true hop; lia : op < 64)
  have hf : s.sylFx t (y.word op) = Fx.none := by rw [he.sylFx_alu hop, hx, hq, Bool.cond_false]
  have := State.syllable_writes (he.alone hs (by decide)) hr ((sylOk_alu he.cls he.op _).trans (hok _ he)) hf Fx.none_local rfl rfl
  rwa [Fx.none_regs, Fx.none_count, hx] at this

/-- A format R instruction whose predicate is true has the effects `f` on the registers in use. -/
theorem State.alu_runs {f : Fx} (hq : xor (x.pred y.qp.toNat) (y.qn == 1) = true)
    (hf : ∀ w, y.Encodes op w →
      aluAt (s.tile t) op y.dd.toNat ((s.tile t).cur.dReg y.da.toNat) ((s.tile t).cur.dReg y.db.toNat) (bits w) = f)
    (h : f.Local) (hst : f.st = []) (hc : f.ctl = .none) : s.syllable t (y.word op) = s.issued t (f.regs x) (f.sat + f.aov) := by
  have he := y.word_encodes (by have := of_decide_eq_true hop; lia : op < 64)
  exact State.head_runs he hr hs hx hop (hok _ he) hq ((AluSyl.Encodes.fx he _).trans (hf _ he)) h hst hc

/-- A write of `v` to Dd where `c` says whether a component saturates. -/
theorem State.alu_saturating (hq : xor (x.pred y.qp.toNat) (y.qn == 1) = true) {v : Word} {n : Nat} {c : Bool} (hn : n = b2n c)
    (hf : ∀ w, y.Encodes op w → aluAt (s.tile t) op y.dd.toNat ((s.tile t).cur.dReg y.da.toNat) ((s.tile t).cur.dReg y.db.toNat)
      (bits w) = Fx.putD ((s.tile t).cur.phys y.dd.toNat) v n) :
    s.syllable t (y.word op) = s.issued t { x.setD (x.phys y.dd.toNat) v with sat := x.sat || c } (b2n c) := by
  have hc : lt 0 (b2n c) = c := by cases c <;> rfl
  rw [State.alu_runs hr hs hx hop hok hq hf (Fx.putD_local ..) rfl rfl, Fx.putD_regs, Fx.putD_count, hn, hc, hx]

/-- The same without a saturated component. -/
theorem State.alu_plain (hq : xor (x.pred y.qp.toNat) (y.qn == 1) = true) {v : Word}
    (hf : ∀ w, y.Encodes op w → aluAt (s.tile t) op y.dd.toNat ((s.tile t).cur.dReg y.da.toNat) ((s.tile t).cur.dReg y.db.toNat)
      (bits w) = Fx.putD ((s.tile t).cur.phys y.dd.toNat) v 0) :
    s.syllable t (y.word op) = s.issued t (x.setD (x.phys y.dd.toNat) v) 0 := by
  rw [State.alu_saturating hr hs hx hop hok hq (c := false) rfl hf, Bool.or_false]
  rfl

end

theorem min_one_b2n (a : Bool) : min 1 (b2n a) = b2n a := by cases a <;> rfl
theorem min_one_b2n_add (a b : Bool) : min 1 (b2n a + b2n b) = b2n (a || b) := by cases a <;> cases b <;> rfl

theorem clipsS_of_le {n : Nat} {x : Int} (hl : -(2 ^ (n - 1) : Int) ≤ x) (hu : x ≤ (2 ^ (n - 1) : Int) - 1) :
    clipsS n x = false := by
  simp [clipsS, satS, not_lt.mpr hl, not_lt.mpr hu]

/-- A component of a C16 value lies in 16 bits. -/
theorem sext16_bounds (n : Nat) : -(2 ^ (16 - 1) : Int) ≤ sext 16 n ∧ sext 16 n ≤ (2 ^ (16 - 1) : Int) - 1 := by
  have hs : sext 16 n = (BitVec.ofNat 16 n).toInt := by
    rw [← sext_toNat, BitVec.toNat_ofNat, sext, sext, Nat.mod_mod]
  rw [hs]
  exact ⟨BitVec.le_toInt _, Int.le_sub_one_of_lt (BitVec.toInt_lt)⟩

/-- Settles O32: each instruction is `aluValue` of its opcode, which writes Dd. -/
theorem aluResults : Obligations.AluResults := by
  unfold Obligations.AluResults
  refine ⟨fun s t x y hr hs hx hq => ?_, fun s t x y hr hs hx hq hdb => ?_, fun s t x y hr hs hx hq => ?_,
    fun s t x y hr hs hx hq => ?_, fun s t x y a hr hs hx hq hdb ha => ?_⟩
  · subst hx
    have k (op : Nat) (hop : (op < 0x30 : Bool) = true) (hok : ∀ f lvl, aluOk op f lvl = true) {v : Word}
        (hf : ∀ f, aluAt (s.tile t) op y.dd.toNat ((s.tile t).cur.dReg y.da.toNat) ((s.tile t).cur.dReg y.db.toNat) f =
          Fx.putD ((s.tile t).cur.phys y.dd.toNat) v 0) :=
      Res.next_congr (State.alu_plain hr hs rfl hop (fun _ _ => hok _ _) hq fun _ _ => hf _)
    exact List.forall_mem_cons.mpr ⟨k 0x00 rfl (fun _ _ => rfl) fun _ => rfl, List.forall_mem_cons.mpr ⟨
      k 0x01 rfl (fun _ _ => rfl) fun _ => rfl, List.forall_mem_cons.mpr ⟨
      k 0x04 rfl (fun _ _ => rfl) fun _ => rfl, List.forall_mem_cons.mpr ⟨
      k 0x05 rfl (fun _ _ => rfl) fun _ => rfl, List.forall_mem_cons.mpr ⟨
      k 0x06 rfl (fun _ _ => rfl) fun _ => rfl, List.forall_mem_cons.mpr ⟨
      k 0x07 rfl (fun _ _ => rfl) fun _ => rfl, List.forall_mem_cons.mpr ⟨
      k 0x08 rfl (fun _ _ => rfl) fun _ => rfl, List.forall_mem_cons.mpr ⟨
      k 0x09 rfl (fun _ _ => rfl) fun _ => rfl, List.forall_mem_cons.mpr ⟨
      k 0x0A rfl (fun _ _ => rfl) fun _ => rfl, List.forall_mem_cons.mpr ⟨
      k 0x0B rfl (fun _ _ => rfl) fun _ => rfl, List.forall_mem_cons.mpr ⟨
      k 0x0C rfl (fun _ _ => rfl) fun _ => rfl, List.forall_mem_cons.mpr ⟨
      k 0x0D rfl (fun _ _ => rfl) fun _ => rfl, List.forall_mem_cons.mpr ⟨
      k 0x0E rfl (fun _ _ => rfl) fun _ => rfl, List.forall_mem_cons.mpr ⟨
      k 0x14 rfl (fun _ _ => rfl) fun _ => rfl, List.forall_mem_cons.mpr ⟨
      k 0x15 rfl (fun _ _ => rfl) fun _ => rfl, List.forall_mem_nil _⟩⟩⟩⟩⟩⟩⟩⟩⟩⟩⟩⟩⟩⟩⟩
  · subst hx
    have hok (w op : Nat) (he : y.Encodes op w) : decide (bits w 0 6 = 0) = true := by
      rw [AluSyl.Encodes.db he, hdb]
      rfl
    exact ⟨Res.next_congr (State.alu_plain (op := 0x0F) hr hs rfl rfl (fun w he => hok w _ he) hq fun _ _ => rfl),
      Res.next_congr (State.alu_plain (op := 0x13) hr hs rfl rfl (fun w he => hok w _ he) hq fun _ _ => rfl)⟩
  · have k (op : Nat) (hop : (op < 0x30 : Bool) = true) (hok : ∀ f lvl, aluOk op f lvl = true) :=
      Res.next_congr (State.alu_skipped hr hs hx hop (fun _ _ => hok _ _) hq)
    exact List.forall_mem_cons.mpr ⟨k 0x00 rfl fun _ _ => rfl, List.forall_mem_cons.mpr ⟨
      k 0x02 rfl fun _ _ => rfl, List.forall_mem_cons.mpr ⟨k 0x0D rfl fun _ _ => rfl, List.forall_mem_cons.mpr ⟨
      k 0x10 rfl fun _ _ => rfl, List.forall_mem_cons.mpr ⟨k 0x15 rfl fun _ _ => rfl, List.forall_mem_nil _⟩⟩⟩⟩⟩
  · subst hx
    have k (op : Nat) (hop : (op < 0x30 : Bool) = true) (hok : ∀ f lvl, aluOk op f lvl = true) {v : Word} {n : Nat} {c : Bool}
        (hn : n = b2n c)
        (hf : ∀ f, aluAt (s.tile t) op y.dd.toNat ((s.tile t).cur.dReg y.da.toNat) ((s.tile t).cur.dReg y.db.toNat) f =
          Fx.putD ((s.tile t).cur.phys y.dd.toNat) v n) :=
      Res.next_congr (State.alu_saturating hr hs rfl hop (fun _ _ => hok _ _) hq hn fun _ _ => hf _)
    exact List.forall_mem_cons.mpr ⟨k 0x02 rfl (fun _ _ => rfl) (min_one_b2n _) fun _ => rfl, List.forall_mem_cons.mpr ⟨
      k 0x03 rfl (fun _ _ => rfl) (min_one_b2n _) fun _ => rfl, List.forall_mem_cons.mpr ⟨
      k 0x10 rfl (fun _ _ => rfl) (min_one_b2n_add _ _) fun _ => rfl, List.forall_mem_cons.mpr ⟨
      k 0x11 rfl (fun _ _ => rfl) (min_one_b2n_add _ _) fun _ => rfl, List.forall_mem_nil _⟩⟩⟩⟩
  · subst hx ha
    have hi : clipsS 16 (c16I ((s.tile t).cur.dReg y.da.toNat)) = false := clipsS_of_le (sext16_bounds _).1 (sext16_bounds _).2
    refine Res.next_congr (State.alu_saturating (op := 0x12) hr hs rfl rfl (fun w he => ?_) hq ?_ fun _ _ => rfl)
    · show decide (bits w 0 6 = 0) = true
      rw [AluSyl.Encodes.db he, hdb]
      rfl
    · show min 1 (b2n (clipsS 16 (c16I ((s.tile t).cur.dReg y.da.toNat))) +
        b2n (clipsS 16 (-(c16Q ((s.tile t).cur.dReg y.da.toNat))))) = _
      rw [hi, min_one_b2n_add, Bool.false_or]

end Sys2Proof.Machine
end

section
/-!
SUPPORT. Control syllables (13 R424, 12 R371, R378, R398): their fields, where the core goes on, and the loop levels.
-/
namespace Sys2Proof.Machine

/-! ### The fields of a control syllable (13 Formats) -/

/-- `w` is the control syllable with opcode `op` and the field of `y`. -/
structure CtlSyl.Encodes (y : CtlSyl) (op w : Nat) : Prop where
  lt : w < 2 ^ 32
  stop : bit w 31 = y.stop
  cls : sylClass w = 3
  op : bits w 24 4 = op
  low : w % 2 ^ 24 = y.f.toNat

theorem CtlSyl.word_encodes (y : CtlSyl) {op : Nat} (h : op < 16) : y.Encodes op (y.word op) := by
  have hw : y.word op = (b2n y.stop * 2 ^ 7 + (3 * 2 ^ 4 + op)) * 2 ^ 24 + y.f.toNat := by
    rw [CtlSyl.word]
    simp only [Nat.add_mul, Nat.mul_assoc, Nat.reducePow, Nat.reduceMul, Nat.add_assoc]
  obtain ⟨hlt, hstop, hcls, hop, hlow⟩ := syl_top y.stop (pack_lt (n := 3) h (by decide)) y.f.isLt hw
  exact ⟨hlt, hstop, hcls.trans (bits_pack_top h (by decide)), hop.trans (bits_pack_low h), hlow⟩

namespace CtlSyl.Encodes

variable {y : CtlSyl} {op w : Nat} (he : y.Encodes op w)
include he

/-- A field below bit 24. -/
theorem field {lo n : Nat} (h : lo + n ≤ 24) : bits w lo n = y.f.toNat / 2 ^ lo % 2 ^ n := bits_low he.low h

theorem alone (hs : y.stop = true) : AloneWord 3 w := ⟨he.lt, he.stop.trans hs, he.cls, by decide⟩

theorem noField (hf : y.f = 0) : decide (bits w 0 24 = 0) = true := by
  rw [he.field (by decide), hf]
  rfl

theorem qp : bits w 21 3 = y.f.toNat / 2 ^ 21 :=
  (he.field (by decide)).trans (Nat.mod_eq_of_lt (Nat.div_lt_of_lt_mul y.f.isLt))

theorem lv : bits w 23 1 = y.f.toNat / 2 ^ 23 :=
  (he.field (by decide)).trans (Nat.mod_eq_of_lt (Nat.div_lt_of_lt_mul y.f.isLt))

theorem low14 : bits w 0 14 = y.f.toNat % 2 ^ 14 := (he.field (by decide)).trans (by rw [pow_zero, Nat.div_one])

/-- A single bit of the field. -/
theorem bitAt {i : Nat} (h : i + 1 ≤ 24) : bit w i = (y.f.toNat / 2 ^ i % 2 == 1) := by
  rw [bit, he.field h, pow_one]
  rfl

end CtlSyl.Encodes

/-- The control that a syllable with opcode `o`, fields `f` and bits `b` asks for (R424). -/
noncomputable def ctlAt (x : RegSet) (o : Nat) (f : Nat → Nat → Nat) (b : Nat → Bool) : CtlFx :=
  if o = 1 then .goto (f 0 14)
  else if o = 2 then .call (f 0 14)
  else if o = 3 then .goto (x.pReg 15 % 2 ^ 14)
  else if o = 4 then .loop (f 23 1) (b 22) (x.dReg (f 16 6)).toNat (f 0 14)
  else if o = 5 then .loop (f 23 1) (b 22) (f 14 8) (f 0 14)
  else if o = 6 then .lbrk (f 23 1)
  else if o = 7 then .rti
  else if o = 8 then .swp
  else if o = 0xA then .idle
  else .none

/-- The effects of a syllable that asks for control `c` alone. -/
noncomputable def Fx.control (c : CtlFx) : Fx := { Fx.none with ctl := c }

theorem ctlFx_eq (x : RegSet) (w : Nat) : ctlFx x w = Fx.control (ctlAt x (bits w 24 4) (bits w) (bit w)) := rfl

theorem Fx.control_local (c : CtlFx) : (Fx.control c).Local := by
  refine ⟨rfl, rfl, rfl, rfl, List.forall_mem_nil _, ?_⟩
  cases c <;> rfl

@[simp] theorem Fx.control_regs (c : CtlFx) (x : RegSet) : (Fx.control c).regs x = x := Fx.none_regs x

/-! ### Going on -/

theorem terase_terase {α : Type} (m : Tbl α) (k : Nat) : terase (terase m k) k = terase m k := by
  induction m with
  | nil => rfl
  | cons p m ih =>
    obtain ⟨j, u⟩ := p
    by_cases h : k = j <;> simp [terase, h]
    · rwa [← h]
    · exact ih

theorem terase_tinsert {α : Type} (m : Tbl α) (k : Nat) (v : α) : terase (tinsert m k v) k = terase m k := by
  induction m with
  | nil => simp [tinsert, terase]
  | cons p m ih =>
    by_cases h : k = p.1
    · simp [tinsert, terase, h]
    · by_cases hlt : k < p.1 <;> simp [tinsert, terase, h, hlt, ih]

theorem tinsert_tinsert {α : Type} (m : Tbl α) (k : Nat) (v u : α) : tinsert (tinsert m k v) k u = tinsert m k u := by
  induction m with
  | nil => simp [tinsert]
  | cons p m ih =>
    by_cases h : k = p.1
    · simp [tinsert, h]
    · by_cases hlt : k < p.1 <;> simp [tinsert, h, hlt, ih]

/-- A second write of a key replaces the first where that listed it, or where both write the same. -/
theorem tset_tset {α : Type} [DecidableEq α] (d : Nat → α) (m : Tbl α) (k : Nat) {v u : α} (h : v ≠ d k ∨ v = u) :
    tset d (tset d m k v) k u = tset d m k u := by
  by_cases hv : v = d k
  · obtain rfl : v = u := h.resolve_left (not_not_intro hv)
    rw [tset, if_pos hv, tset, if_pos hv, terase_terase]
  · by_cases hu : u = d k
    · rw [tset, if_pos hu, tset, if_neg hv, tset, if_pos hu, terase_tinsert]
    · rw [tset, if_neg hu, tset, if_neg hv, tset, if_neg hu, tinsert_tinsert]

theorem State.setTile_setTile (s : State) (t : Nat) {x y : Tile} (h : x ≠ Tile.reset ∨ x = y) :
    (s.setTile t x).setTile t y = s.setTile t y := by
  have := tset_tset (fun _ => Tile.reset) s.tls.tile t h
  simp only [State.setTile, this]

theorem Tile.setCur_cur (x : Tile) : x.setCur x.cur = x := by
  unfold Tile.setCur Tile.cur
  split <;> rfl

@[simp] theorem State.liveBank_setTile (s : State) (t n : Nat) (x : Tile) : (s.setTile t x).liveBank n = s.liveBank n := rfl

/-- A bundle without saturation that leaves the registers as they are has only been taken. -/
theorem State.bundleTaken_same (s : State) (t : Nat) : s.bundleTaken t (s.tile t).cur 0 = s.issuing t := by
  rw [State.bundleTaken_zero, ← State.issuing_cur, Tile.setCur_cur, State.issuing, State.tile_setTile,
    State.setTile_setTile _ _ (.inr rfl)]

/-- The core goes on with the registers `r`: the bundle left them. -/
theorem State.coreGo_taken (s : State) (t a : Nat) {r : RegSet} (h : ((s.issuing t).tile t).setCur r ≠ Tile.reset) :
    (s.bundleTaken t (s.tile t).cur 0).coreGo t r a = (s.bundleTaken t r 0).goTo t a := by
  rw [State.bundleTaken_same, State.goTo, State.cur_bundleTaken, State.bundleTaken_zero, State.tile_setTile, Tile.setCur_setCur,
    State.tilePut, State.setTile_setTile _ _ (.inl h)]
  rfl

@[simp] theorem State.tile_flag (s : State) (t : Nat) (l : Loc) (b : Bool) : (s.flag l b).tile t = s.tile t := by simp [State.tile]
@[simp] theorem State.tile_put (s : State) (t : Nat) (l : Loc) (v : Nat) : (s.put l v).tile t = s.tile t := by simp [State.tile]
@[simp] theorem State.tile_tilePut (s : State) (t : Nat) (x : Tile) : (s.tilePut t x).tile t = x := by simp [State.tilePut]
@[simp] theorem State.tilePut_mem (s : State) (t : Nat) (x : Tile) : (s.tilePut t x).mem = s.mem := by simp [State.tilePut]

theorem State.goTo_mod (s : State) (t a : Nat) : s.goTo t (a % 2 ^ 14) = s.goTo t a := by
  simp only [State.goTo, State.pcAt, Nat.mod_mod]

@[simp] theorem State.issuing_mem (s : State) (t : Nat) : (s.issuing t).mem = s.mem := rfl

@[simp] theorem State.bundleTaken_mem (s : State) (t : Nat) (r : RegSet) (n : Nat) : (s.bundleTaken t r n).mem = s.mem := by
  rw [State.bundleTaken_eq, State.setTile_mem, State.satCounted_mem, State.issuing_mem]

/-- A body that ends at `last` begins no later. -/
theorem bodyEnd_le {bk : Tbl Word} {last fuel a : Nat} (h : bodyEnd bk last fuel a ≠ 0) : a ≤ last := by
  cases fuel with
  | zero => exact absurd rfl h
  | succ fuel =>
    by_contra hlt
    have hne : ¬ a = last := by lia
    have hlt : last < a := by lia
    simp [bodyEnd, hne, hlt] at h

theorem RegSet.loopBack_idle {x : RegSet} (h0 : x.l0a = false) (h1 : x.l1a = false) (a n : Nat) : x.loopBack a n = (x, n) := by
  simp [RegSet.loopBack, h0, h1]

/-- A loop just set, with a body that lies behind the bundle at `a`, does not end there. -/
theorem RegSet.startLoop_loopBack {x : RegSet} (h0 : x.l0a = false) (h1 : x.l1a = false) (lv : Nat) (rot : Bool)
    {a last : Nat} (k next skip n : Nat) (h : a < last) :
    (x.startLoop lv rot k last next skip).1.loopBack a n = ((x.startLoop lv rot k last next skip).1, n) := by
  have hne : ¬ last = a := by lia
  by_cases hlv : lv = 0 <;> simp [RegSet.startLoop, RegSet.loopBack, hlv, h0, h1, hne]

section
variable {s : State} {t op : Nat} {x : RegSet} {y : CtlSyl} (hr : s.readyAt t = true) (hs : y.stop = true)
  (hx : (s.tile t).cur = x)
include hr hs hx

omit hr hs hx in
/-- A control syllable that executes asks for its control. -/
theorem State.sylFx_ctl {w : Nat} (he : y.Encodes op w) (hx : (s.tile t).cur = x) {c : CtlFx}
    (hrun : x.runsAt 3 (bits w 22 6) op (bits w) (bit w) = true) (hc : ctlAt x op (bits w) (bit w) = c) :
    s.sylFx t w = Fx.control c := by
  rw [State.sylFx_eq, hx, RegSet.runs_eq, he.cls, he.op, hrun, ← hc]
  show ctlFx (s.tile t).cur w = _
  rw [ctlFx_eq, hx, he.op]

/-- A control syllable with opcode `op` that is well-formed and executes leaves the registers to its control `c`. -/
theorem State.ctl_runs {c : CtlFx} (hop : op < 16) (hok : ∀ w, y.Encodes op w → ctlOk op (bits w) (s.tile t).lvl = true)
    (hrun : ∀ w, y.Encodes op w → x.runsAt 3 (bits w 22 6) op (bits w) (bit w) = true)
    (hf : ∀ w, y.Encodes op w → ctlAt x op (bits w) (bit w) = c)
    (hl : ∀ v r k last, c = .loop v r k last → bodyEnd ((s.tile t).bank (s.liveBank t)) last 16384 x.after ≠ 0) :
    s.syllable t (y.word op) = (s.bundleTaken t x 0).control t (x.pc % 2 ^ 14) x.after c := by
  obtain ⟨hmay, hb, h0, h1⟩ := s.readyAt_iff t |>.mp hr
  have he := y.word_encodes hop
  have hfx : s.sylFx t (y.word op) = Fx.control c := State.sylFx_ctl he hx (hrun _ he) (hf _ he)
  have := State.syllable_local (he.alone hs) hmay hb ((sylOk_ctl he.cls he.op _).trans (hok _ he)) (.inr ⟨h0, h1⟩) (by rwa [hx]) hfx
    (Fx.control_local c)
  rwa [Fx.control_regs, hx] at this

end

/-- RTI at level 0 is not well-formed. -/
theorem CtlSyl.Encodes.rti_bad {y : CtlSyl} {w : Nat} (he : y.Encodes 7 w) : sylOk w false = false := sylOk_ctl he.cls he.op false

end Sys2Proof.Machine
end

section
/-!
PROOF. Branches, loops, RTI, SWP, FENCE and IDLE (13 R424, 12 R371, R378, R398).
-/
namespace Sys2Proof.Machine

section
variable {s : State} {t : Nat} {x : RegSet} {y : CtlSyl} (hr : s.readyAt t = true) (hs : y.stop = true)
  (hx : (s.tile t).cur = x)
include hr hs hx

omit hs in
/-- The bundle passes on where its control goes on at the next syllable. -/
theorem State.taken_coreGo :
    (s.bundleTaken t x 0).coreGo t (x.loopBack (x.pc % 2 ^ 14) x.after).1 (x.loopBack (x.pc % 2 ^ 14) x.after).2 =
      s.issued t x 0 := by
  obtain ⟨-, -, h0, h1⟩ := s.readyAt_iff t |>.mp hr
  rw [hx] at h0 h1
  rw [RegSet.loopBack_idle h0 h1]
  unfold State.issued
  rw [State.goTo, State.cur_bundleTaken]
  rfl

theorem State.syllable_nop {op : Nat} (hop : op < 16) (hok : ∀ w, y.Encodes op w → ctlOk op (bits w) (s.tile t).lvl = true)
    (hrun : ∀ w, y.Encodes op w → x.runsAt 3 (bits w 22 6) op (bits w) (bit w) = true)
    (hc : ∀ w, y.Encodes op w → ctlAt x op (bits w) (bit w) = .none) : s.syllable t (y.word op) = s.issued t x 0 := by
  rw [State.ctl_runs hr hs hx hop hok hrun hc (fun _ _ _ _ h => by cases h), State.control, State.cur_bundleTaken]
  exact State.taken_coreGo hr hx

theorem State.syllable_idle (hf : y.f = 0) : s.syllable t (y.word 0xA) =
    (s.issued t x 0).setTile t { (s.issued t x 0).tile t with idle := true } := by
  rw [State.ctl_runs hr hs hx (op := 0xA) (c := .idle) (by decide) (fun _ he => he.noField hf) (fun _ _ => rfl) (fun _ _ => rfl) (fun _ _ _ _ h => by cases h),
    State.control, State.cur_bundleTaken]
  dsimp only
  rw [State.taken_coreGo hr hx]

/-- A branch whose predicate is true reaches its control. -/
theorem State.ctl_branch {op : Nat} (hop : op < 16)
    (hok : ∀ w, y.Encodes op w → ctlOk op (bits w) (s.tile t).lvl = true)
    (hrun : ∀ w, x.runsAt 3 (bits w 22 6) op (bits w) (bit w) = xor (x.pred (bits w 21 3)) (bit w 20))
    (hq : xor (x.pred (y.f.toNat / 2 ^ 21)) (y.f.toNat / 2 ^ 20 % 2 == 1) = true) {c : CtlFx}
    (hc : ∀ w, y.Encodes op w → ctlAt x op (bits w) (bit w) = c) (hl : ∀ v r k last, c ≠ .loop v r k last) :
    s.syllable t (y.word op) = (s.bundleTaken t x 0).control t (x.pc % 2 ^ 14) x.after c :=
  State.ctl_runs hr hs hx hop hok (fun w he => by rw [hrun, he.qp, he.bitAt (by decide), hq]) hc
    fun v r k last h => absurd h (hl v r k last)

omit hr hs hx in
theorem State.taken_goto (a : Nat) : (s.bundleTaken t x 0).control t (x.pc % 2 ^ 14) x.after (.goto a) =
    (s.bundleTaken t x 0).goTo t a := by
  rw [State.control, State.cur_bundleTaken, State.goTo, State.cur_bundleTaken]
  rfl

omit hr hs hx in
/-- P15 holds the address of the next syllable, which is not 0. -/
theorem State.called_ne_reset (z : Tile) : z.setCur (x.setX 15 (BitVec.ofNat 32 x.after)) ≠ Tile.reset := by
  have ha : x.after < 2 ^ 32 ∧ 0 < x.after := by unfold RegSet.after; lia
  intro h
  have hc : (z.setCur (x.setX 15 (BitVec.ofNat 32 x.after))).cur.xAt 15 = Tile.reset.cur.xAt 15 := by rw [h]
  rw [Tile.cur_setCur] at hc
  unfold RegSet.setX at hc
  rw [if_pos (by decide)] at hc
  unfold RegSet.xAt at hc
  rw [tget_tset_same] at hc
  have hn : x.after % 2 ^ 32 = 0 := by
    have := congrArg BitVec.toNat hc
    rwa [BitVec.toNat_ofNat] at this
  lia

omit hr hs in
theorem State.taken_call (a : Nat) : (s.bundleTaken t x 0).control t (x.pc % 2 ^ 14) x.after (.call a) =
    (s.bundleTaken t (x.setX 15 (BitVec.ofNat 32 x.after)) 0).goTo t a := by
  have h := s.coreGo_taken t a (State.called_ne_reset (x := x) ((s.issuing t).tile t))
  rw [hx] at h
  rw [← h, State.control, State.cur_bundleTaken]
  rfl

/-- What LOOP and LOOPI leave. -/
theorem State.syllable_loop {op k : Nat} (h16 : op < 16)
    (hok : ∀ w, y.Encodes op w → ctlOk op (bits w) (s.tile t).lvl = true)
    (hrun : ∀ w, y.Encodes op w → x.runsAt 3 (bits w 22 6) op (bits w) (bit w) = true)
    (hf : ∀ w, y.Encodes op w → ctlAt x op (bits w) (bit w) =
      .loop (y.f.toNat / 2 ^ 23) (y.f.toNat / 2 ^ 22 % 2 == 1) k (y.f.toNat % 2 ^ 14)) {bk : Tbl Word}
    (hbk : (s.tile t).bank (s.liveBank t) = bk) (hbody : bodyEnd bk (y.f.toNat % 2 ^ 14) 16384 x.after ≠ 0) :
    ((s.syllable t (y.word op)).tile t).cur =
        { (x.startLoop (y.f.toNat / 2 ^ 23) (y.f.toNat / 2 ^ 22 % 2 == 1) k (y.f.toNat % 2 ^ 14) x.after
            (y.f.toNat % 2 ^ 14 + bundleLen bk (y.f.toNat % 2 ^ 14))).1 with
          pc := s.pcAt t (if k = 0 then y.f.toNat % 2 ^ 14 + bundleLen bk (y.f.toNat % 2 ^ 14) else x.after) } ∧
      (s.syllable t (y.word op)).mem = s.mem := by
  obtain ⟨-, -, h0, h1⟩ := s.readyAt_iff t |>.mp hr
  rw [hx] at h0 h1
  have hlast : x.pc % 2 ^ 14 < y.f.toNat % 2 ^ 14 := by
    have : x.pc % 2 ^ 14 + 1 ≤ y.f.toNat % 2 ^ 14 := bodyEnd_le hbody
    lia
  have hbank : ((s.bundleTaken t x 0).tile t).bank ((s.bundleTaken t x 0).liveBank t) = bk := by
    rw [← hx, State.bundleTaken_same, State.issuing, State.tile_setTile, State.liveBank_setTile, ← hbk]
    rfl
  have hpc (a : Nat) : (s.bundleTaken t x 0).pcAt t a = s.pcAt t a := by rw [← hx, State.bundleTaken_same]; rfl
  have hnext (lv : Nat) (rot : Bool) (last next skip : Nat) :
      (x.startLoop lv rot k last next skip).2 = if k = 0 then skip else next := by
    by_cases hk : k = 0 <;> simp [RegSet.startLoop, hk]
  rw [State.ctl_runs hr hs hx h16 hok hrun hf (by rintro v r j last ⟨⟩; rwa [hbk]), State.control, State.cur_bundleTaken, hbank]
  dsimp only
  rw [RegSet.startLoop_loopBack h0 h1 _ _ _ _ _ _ hlast]
  unfold State.coreGo
  rw [State.tile_tilePut, Tile.cur_setCur, hpc, hnext, State.tilePut_mem, State.bundleTaken_mem]
  exact ⟨rfl, rfl⟩

/-- What LBRK leaves. -/
theorem State.syllable_lbrk (hz : y.f.toNat % 2 ^ 19 = 0)
    (hq : xor (x.pred (y.f.toNat / 2 ^ 20 % 8)) (y.f.toNat / 2 ^ 19 % 2 == 1) = true) :
    ((s.syllable t (y.word 6)).tile t).cur =
        { (if y.f.toNat / 2 ^ 23 = 0 then { x with lc0 := 0, l0a := false } else { x with lc1 := 0, l1a := false }) with
          pc := s.pcAt t x.after } ∧ (s.syllable t (y.word 6)).mem = s.mem := by
  obtain ⟨-, -, h0, h1⟩ := s.readyAt_iff t |>.mp hr
  rw [hx] at h0 h1
  have hok (w : Nat) (he : y.Encodes 6 w) : decide (bits w 0 19 = 0) = true := by
    rw [he.field (by decide), pow_zero, Nat.div_one, hz]
    rfl
  have hrun (w : Nat) (he : y.Encodes 6 w) : xor (x.pred (bits w 20 3)) (bit w 19) = true := by
    rw [he.field (by decide), he.bitAt (by decide)]
    exact hq
  have hpc (a : Nat) : (s.bundleTaken t x 0).pcAt t a = s.pcAt t a := by rw [← hx, State.bundleTaken_same]; rfl
  have hidle : (if y.f.toNat / 2 ^ 23 = 0 then { x with lc0 := 0, l0a := false } else { x with lc1 := 0, l1a := false }).loopBack
      (x.pc % 2 ^ 14) x.after =
        ((if y.f.toNat / 2 ^ 23 = 0 then { x with lc0 := 0, l0a := false } else { x with lc1 := 0, l1a := false }), x.after) := by
    split
    · exact RegSet.loopBack_idle (x := { x with lc0 := 0, l0a := false }) rfl h1 _ _
    · exact RegSet.loopBack_idle (x := { x with lc1 := 0, l1a := false }) h0 rfl _ _
  rw [State.ctl_runs hr hs hx (by decide) hok hrun (fun _ he => congrArg CtlFx.lbrk he.lv) (fun _ _ _ _ h => by cases h), State.control, State.cur_bundleTaken]
  dsimp only
  rw [hidle]
  unfold State.coreGo
  rw [State.tile_tilePut, Tile.cur_setCur, hpc, State.tilePut_mem, State.bundleTaken_mem]
  exact ⟨rfl, rfl⟩

theorem State.syllable_rti (hf : y.f = 0) (hl : (s.tile t).lvl = true) : s.syllable t (y.word 7) =
    (s.bundleTaken t x 0).tilePut t { (s.bundleTaken t x 0).tile t with lvl := false } := by
  rw [State.ctl_runs hr hs hx (op := 7) (c := .rti) (by decide) (fun w he => by rw [hl]; exact he.noField hf) (fun _ _ => rfl)
    (fun _ _ => rfl) (fun _ _ _ _ h => by cases h), State.control]

theorem State.syllable_swp (hf : y.f = 0) (hl : (s.tile t).lvl = false) : s.syllable t (y.word 8) =
    if s.get (xState t) = 0 then s.issued t x 0 else (s.issued t x 0).exchange t false := by
  have hlvl : ((s.bundleTaken t x 0).tile t).lvl = false := by
    rw [← hx, State.bundleTaken_same, State.issuing_lvl, hl]
  have hg : (s.issued t x 0).get (xState t) = s.get (xState t) := by
    unfold State.issued
    rw [State.goTo, State.get_tilePut _ t _ _ ?_ ?_, ← hx, State.bundleTaken_same, State.issuing, State.get_setTile]
    · simp +ground [xState, tileState]
    · simp +ground [xState]
  rw [State.ctl_runs hr hs hx (op := 8) (c := .swp) (by decide) (fun _ he => he.noField hf) (fun _ _ => rfl) (fun _ _ => rfl) (fun _ _ _ _ h => by cases h),
    State.control, State.cur_bundleTaken]
  rw [State.taken_coreGo hr hx, hlvl, hg, Bool.not_false, Bool.true_and]
  by_cases h : s.get (xState t) = 0
  · rw [if_pos h, h, bne_self_eq_false, cond_false]
  · rw [if_neg h, bne_iff_ne.mpr h, cond_true]

end

/-- A NOP at the end of the body of level 0 with iterations left goes back to its start. -/
theorem State.syllable_nop_loops {s : State} {t n : Nat} {x : RegSet} {y : CtlSyl} (hmay : s.tileMay t = true)
    (hb : (s.tile t).bundle = []) (hs : y.stop = true) (hx : (s.tile t).cur = x) (hf : y.f = 0) (h0 : x.l0a = true)
    (h1 : x.l1a = false) (hlast : x.loop0.last = x.pc % 2 ^ 14) (hn : x.lc0 = n + 2) :
    s.syllable t (y.word 0) = (s.bundleTaken t ({ x with lc0 := n + 1 }.rotate x.loop0) 0).goTo t x.loop0.start := by
  have he := y.word_encodes (by decide : 0 < 16)
  have hbr : isBranch (y.word 0) = false := by simp [isBranch, he.op]
  have hfx (w : Nat) (he : y.Encodes 0 w) : s.sylFx t w = Fx.control .none := State.sylFx_ctl he rfl rfl rfl
  have hok (w : Nat) (he : y.Encodes 0 w) (lvl : Bool) : sylOk w lvl = true := (sylOk_ctl he.cls he.op lvl).trans (he.noField hf)
  have hl0 : ({ x with lc0 := n + 1 }.rotate x.loop0).l0a = true := by
    unfold RegSet.rotate
    split <;> exact h0
  have hne : ((s.issuing t).tile t).setCur ({ x with lc0 := n + 1 }.rotate x.loop0) ≠ Tile.reset := by
    intro h
    have := congrArg (fun z : Tile => z.cur.l0a) h
    simp only [Tile.cur_setCur, hl0] at this
    exact absurd this (by decide)
  have hback : x.loopBack (x.pc % 2 ^ 14) x.after = ({ x with lc0 := n + 1 }.rotate x.loop0, x.loop0.start) := by
    simp [RegSet.loopBack, h0, h1, hlast, hn]
  have h := State.syllable_local (he.alone hs) hmay hb (hok _ he _) (.inl hbr) (by simp [Fx.control]) (hfx _ he)
    (Fx.control_local .none)
  rw [h]
  change ((s.bundleTaken t ((Fx.control .none).regs (s.tile t).cur) 0).control t _ _ .none) = _
  rw [Fx.control_regs, State.control, State.cur_bundleTaken, hx, hback, ← hx]
  exact State.coreGo_taken s t _ (by rw [hx]; exact hne)

/-- Settles O38: each form reaches its control, which goes on, branches, or sets the loop state. -/
theorem controlResults : Obligations.ControlResults := by
  unfold Obligations.ControlResults
  refine ⟨fun s t x y hr hs hx hf => ⟨?_, ?_, ?_⟩, fun s t x y hr hs hx hz hq => ⟨?_, ?_⟩, fun s t x y hr hs hx hz hq => ?_,
    fun s n x y bk k hr hs hx hbk hbody _ hk => ?_, fun s n x y bk k hr hs hx hbk hbody _ hk => ?_,
    fun s n x y hr hs hx _ hz hq => ?_, fun s t x y hr hs hx hf hl => ?_, fun s t x y hr hs hx hf hl => ?_,
    fun s t x y n hmay hb hs hx hf h0 h1 hlast hn => ?_⟩
  · exact Res.next_congr (State.syllable_nop (op := 0) hr hs hx (by decide) (fun _ he => he.noField hf) (fun _ _ => rfl) fun _ _ => rfl)
  · exact Res.next_congr (State.syllable_nop (op := 9) hr hs hx (by decide) (fun _ he => he.noField hf) (fun _ _ => rfl) fun _ _ => rfl)
  · exact Res.next_congr (State.syllable_idle hr hs hx hf)
  · have hok (op w : Nat) (he : y.Encodes op w) : decide (bits w 14 6 = 0) = true := decide_eq_true ((he.field (by decide)).trans hz)
    exact Res.next_congr ((State.ctl_branch (op := 1) hr hs hx (by decide) (hok 1) (fun _ => rfl) hq
      (fun w he => congrArg CtlFx.goto he.low14) (fun _ _ _ _ h => by cases h)).trans (State.taken_goto _))
  · have hok (op w : Nat) (he : y.Encodes op w) : decide (bits w 14 6 = 0) = true := decide_eq_true ((he.field (by decide)).trans hz)
    exact Res.next_congr ((State.ctl_branch (op := 2) hr hs hx (by decide) (hok 2) (fun _ => rfl) hq
      (fun w he => congrArg CtlFx.call he.low14) (fun _ _ _ _ h => by cases h)).trans (State.taken_call hx _))
  · have hok (w : Nat) (he : y.Encodes 3 w) : decide (bits w 0 20 = 0) = true :=
      decide_eq_true ((he.field (by decide)).trans (by rw [pow_zero, Nat.div_one, hz]))
    refine Res.next_congr ((State.ctl_branch (op := 3) (c := .goto (x.pReg 15 % 2 ^ 14)) hr hs hx (by decide) hok (fun _ => rfl) hq
      (fun _ _ => rfl) (fun _ _ _ _ h => by cases h)).trans ?_)
    rw [State.taken_goto, State.goTo_mod]
  · refine ⟨_, rfl, State.syllable_loop (op := 4) hr hs hx (by decide) (fun w he => ?_) (fun _ _ => rfl) (fun w he => ?_) hbk hbody⟩
    · exact decide_eq_true ((he.field (by decide)).trans hk.1)
    · show CtlFx.loop (bits w 23 1) (bit w 22) (x.dReg (bits w 16 6)).toNat (bits w 0 14) = _
      rw [he.lv, he.bitAt (by decide), he.low14, he.field (by decide), ← hk.2]
      rfl
  · refine ⟨_, rfl, State.syllable_loop (op := 5) hr hs hx (by decide) (fun _ _ => rfl) (fun _ _ => rfl) (fun w he => ?_) hbk hbody⟩
    show CtlFx.loop (bits w 23 1) (bit w 22) (bits w 14 8) (bits w 0 14) = _
    rw [he.lv, he.bitAt (by decide), he.low14, he.field (by decide), ← hk]
    rfl
  · exact ⟨_, rfl, State.syllable_lbrk hr hs hx hz hq⟩
  · exact Res.next_congr (State.syllable_rti hr hs hx hf hl)
  · exact Res.next_congr (State.syllable_swp hr hs hx hf hl)
  · exact Res.next_congr (State.syllable_nop_loops hmay hb hs hx hf h0 h1 hlast hn)

end Sys2Proof.Machine
end

section
/-!
SUPPORT. The MAC slot (13 R420): the fields of its two formats and what each instruction leaves.
-/
namespace Sys2Proof.Machine

/-! ### The effects of MAC syllables by their opcode (R420) -/

/-- The effects of a MAC syllable with opcode `op`: of an accumulating instruction on accumulator `ad` with operands `a`, `b` and
source `src`, of a transfer between accumulator `i` and D register `dd` with shift or part `n`. -/
noncomputable def macAt (x : RegSet) (op ad : Nat) (a b : Word) (src : Int × Int) (i n dd : Nat) : Fx :=
  let put (i : Nat) (r : (Int × Int) × Nat) : Fx := .putAcc i r.1 r.2
  let give (r : Word × Nat) : Fx := .putD (x.phys dd) r.1 r.2
  let cur := x.accAt ad
  let real : Int := c16I a * c16I b
  let acc := x.accAt i
  if op = 0x00 then put ad (satAcc (cur.1 + (cmul16 a b false).1, cur.2 + (cmul16 a b false).2))
  else if op = 0x01 then put ad (satAcc (cur.1 + (cmul16 a b true).1, cur.2 + (cmul16 a b true).2))
  else if op = 0x02 then put ad (satAcc (cur.1 - (cmul16 a b false).1, cur.2 - (cmul16 a b false).2))
  else if op = 0x03 then put ad (cmul16 a b false, 0)
  else if op = 0x04 then put ad (cmul16 a b true, 0)
  else if op = 0x05 then put ad ((satS 40 (cur.1 + real), cur.2), b2n (clipsS 40 (cur.1 + real)))
  else if op = 0x06 then put ad ((real, 0), 0)
  else if op = 0x07 then put ad ((0, 0), 0)
  else if op = 0x08 then put ad (satAcc (cur.1 + src.1, cur.2 + src.2))
  else if op = 0x09 then put ad (src, 0)
  else if op = 0x10 then give (accC16 acc (sext 6 n))
  else if op = 0x11 then give (accI32 acc.1 n)
  else if op = 0x12 then give (accI32 acc.2 n)
  else if op = 0x13 then give (accPart acc n, 0)
  else put i (setAccPart acc n (x.dReg dd), 0)

theorem macFx_eq (x : RegSet) (w : Nat) : macFx x w = macAt x (bits w 22 6) (bits w 15 3) (x.dReg (bits w 6 6))
    (x.dReg (bits w 0 6)) (x.accAt (bits w 6 3)) (bits w 9 3) (bits w 3 6) (bits w 12 6) := rfl

/-! ### The fields of a MAC syllable (13 Formats) -/

/-- The part of a format A syllable below its predicate. -/
noncomputable def MacSyl.low (y : MacSyl) : Nat := ((y.ad.toNat * 2 ^ 3 + y.z.toNat) * 2 ^ 6 + y.da.toNat) * 2 ^ 6 + y.db.toNat

/-- `w` is the format A syllable with opcode `op` and the fields of `y`. -/
abbrev MacSyl.Encodes (y : MacSyl) (op w : Nat) : Prop := Head 1 op w y.stop y.qp y.qn y.low

/-- The part of a format X syllable below its predicate. -/
noncomputable def XferSyl.low (y : XferSyl) : Nat := ((y.dd.toNat * 2 ^ 3 + y.as.toNat) * 2 ^ 6 + y.n.toNat) * 2 ^ 3 + y.z.toNat

/-- `w` is the format X syllable with opcode `op` and the fields of `y`. -/
abbrev XferSyl.Encodes (y : XferSyl) (op w : Nat) : Prop := Head 1 op w y.stop y.qp y.qn y.low

theorem MacSyl.word_encodes (y : MacSyl) {op : Nat} (h : op < 64) : y.Encodes op (y.word op) :=
  .packed y.stop y.qp y.qn (by decide) h (pack_lt y.db.isLt (pack_lt y.da.isLt (pack_lt y.z.isLt y.ad.isLt)))
    ((packed_eq ..).symm.trans (by rw [MacSyl.word, MacSyl.low]; lia)).symm

theorem XferSyl.word_encodes (y : XferSyl) {op : Nat} (h : op < 64) : y.Encodes op (y.word op) :=
  .packed y.stop y.qp y.qn (by decide) h (pack_lt y.z.isLt (pack_lt y.n.isLt (pack_lt y.as.isLt y.dd.isLt)))
    ((packed_eq ..).symm.trans (by rw [XferSyl.word, XferSyl.low]; lia)).symm

/-- A MAC syllable executes where its predicate is true. -/
theorem Head.sylFx_mac {op w low : Nat} {stop : Bool} {qp : BitVec 3} {qn : BitVec 1} (he : Head 1 op w stop qp qn low)
    {s : State} {t : Nat} (hq : xor ((s.tile t).cur.pred qp.toNat) (qn == 1) = true) : s.sylFx t w = macFx (s.tile t).cur w := by
  have hr : (s.tile t).cur.runs w = true := by
    rw [RegSet.runs_eq]
    unfold RegSet.runsAt
    rw [he.cls, he.qp, he.qn]
    exact hq
  rw [State.sylFx_eq, hr, he.cls]
  rfl

namespace MacSyl.Encodes

variable {y : MacSyl} {op w : Nat} (he : y.Encodes op w)
include he

theorem ad : bits w 15 3 = y.ad.toNat :=
  (he.field (by decide)).trans ((bits_pack y.db.isLt 9 3).trans ((bits_pack y.da.isLt 3 3).trans (bits_pack_top y.z.isLt y.ad.isLt)))

theorem z : bits w 12 3 = y.z.toNat :=
  (he.field (by decide)).trans ((bits_pack y.db.isLt 6 3).trans ((bits_pack y.da.isLt 0 3).trans (bits_pack_low y.z.isLt)))

theorem da : bits w 6 6 = y.da.toNat := (he.field (by decide)).trans ((bits_pack y.db.isLt 0 6).trans (bits_pack_low y.da.isLt))

theorem db : bits w 0 6 = y.db.toNat := (he.field (by decide)).trans (bits_pack_low y.db.isLt)

/-- The accumulator that DA names. -/
theorem da_acc (h : y.da.toNat < 8) : bits w 6 3 = y.da.toNat :=
  (he.field (by decide)).trans ((bits_pack y.db.isLt 0 3).trans ((bits_pack_below y.da.isLt (by decide)).trans
    (by rw [bits, pow_zero, Nat.div_one]; exact Nat.mod_eq_of_lt h)))

theorem da_high (h : y.da.toNat < 8) : bits w 9 3 = 0 :=
  (he.field (by decide)).trans ((bits_pack y.db.isLt 3 3).trans ((bits_pack_below y.da.isLt (by decide)).trans
    (by rw [bits, show y.da.toNat / 2 ^ 3 = 0 from Nat.div_eq_of_lt h, Nat.zero_mod])))

/-- The zero field of the format is zero. -/
theorem noZ (hz : y.z = 0) : decide (bits w 12 3 = 0) = true := by
  rw [z he, hz]
  rfl

/-- The rule of R413 for AADD and AMOV. -/
theorem move_ok (hz : y.z = 0) (ha : y.da.toNat < 8) (hb : y.db = 0) :
    (decide (bits w 12 3 = 0) && true && (decide (bits w 0 6 = 0) && decide (bits w 9 3 = 0))) = true := by
  rw [noZ he hz, db he, hb, da_high he ha]
  rfl

/-- The rule for ACLR. -/
theorem clear_ok (hz : y.z = 0) (ha : y.da = 0) (hb : y.db = 0) :
    (decide (bits w 12 3 = 0) && decide (bits w 0 12 = 0) && true) = true := by
  have h0 : bits w 0 12 = 0 := by
    rw [he.field (by decide)]
    unfold MacSyl.low
    rw [ha, hb, show (0 : BitVec 6).toNat = 0 from rfl, Nat.add_zero, Nat.add_zero, Nat.mul_assoc, ← pow_add, bits, pow_zero, Nat.div_one, Nat.mul_mod_left]
  rw [noZ he hz, h0]
  rfl

end MacSyl.Encodes

namespace XferSyl.Encodes

variable {y : XferSyl} {op w : Nat} (he : y.Encodes op w)
include he

theorem dd : bits w 12 6 = y.dd.toNat :=
  (he.field (by decide)).trans ((bits_pack y.z.isLt 9 6).trans ((bits_pack y.n.isLt 3 6).trans (bits_pack_top y.as.isLt y.dd.isLt)))

theorem as : bits w 9 3 = y.as.toNat :=
  (he.field (by decide)).trans ((bits_pack y.z.isLt 6 3).trans ((bits_pack y.n.isLt 0 3).trans (bits_pack_low y.as.isLt)))

theorem n : bits w 3 6 = y.n.toNat := (he.field (by decide)).trans ((bits_pack y.z.isLt 0 6).trans (bits_pack_low y.n.isLt))

/-- The zero field of the format is zero; the rule `r` for its shift or part holds. -/
theorem ok (hz : y.z = 0) {r : Nat → Bool} (hr : r y.n.toNat = true) : (decide (bits w 0 3 = 0) && r (bits w 3 6)) = true := by
  rw [n he, hr, he.field (by decide)]
  unfold XferSyl.low
  rw [bits_pack_low y.z.isLt, hz]
  rfl

end XferSyl.Encodes

section
variable {s : State} {t op : Nat} {x : RegSet} (hr : s.readyAt t = true) (hx : (s.tile t).cur = x)
include hr hx

section
variable {y : MacSyl} (hs : y.stop = true) (hq : xor (x.pred y.qp.toNat) (y.qn == 1) = true)
include hs hq

/-- An accumulating instruction writes `v` to its accumulator and counts `n` saturated components. -/
theorem State.mac_writes (hop : (op < 64 : Bool) = true) (hok : ∀ w, y.Encodes op w → macOk op (bits w) = true) {v : Int × Int} {n : Nat}
    (hf : ∀ w, y.Encodes op w → ∀ i k d, macAt x op y.ad.toNat (x.dReg y.da.toNat) (x.dReg y.db.toNat) (x.accAt (bits w 6 3)) i k d =
      Fx.putAcc y.ad.toNat v n) :
    s.syllable t (y.word op) = s.issued t { x.setAcc y.ad.toNat v with aov := x.aov || lt 0 n } n := by
  have he := y.word_encodes (of_decide_eq_true hop)
  have hfx : s.sylFx t (y.word op) = Fx.putAcc y.ad.toNat v n := by
    rw [he.sylFx_mac (by rw [hx, hq]), macFx_eq, he.op, MacSyl.Encodes.ad he, MacSyl.Encodes.da he, MacSyl.Encodes.db he, hx, hf _ he]
  rw [State.syllable_writes (he.alone hs (by decide)) hr ((sylOk_mac he.cls he.op _).trans (hok _ he)) hfx (Fx.putAcc_local ..) rfl rfl,
    Fx.putAcc_regs, Fx.putAcc_count, hx]

/-- The same without a saturated component. -/
theorem State.mac_plain (hop : (op < 64 : Bool) = true) (hok : ∀ w, y.Encodes op w → macOk op (bits w) = true) {v : Int × Int}
    (hf : ∀ w, y.Encodes op w → ∀ i k d, macAt x op y.ad.toNat (x.dReg y.da.toNat) (x.dReg y.db.toNat) (x.accAt (bits w 6 3)) i k d =
      Fx.putAcc y.ad.toNat v 0) :
    s.syllable t (y.word op) = s.issued t (x.setAcc y.ad.toNat v) 0 := by
  rw [State.mac_writes hr hx hs hq hop hok hf, RegSet.setAcc_unsaturated]

end

section
variable {y : XferSyl} (hs : y.stop = true) (hq : xor (x.pred y.qp.toNat) (y.qn == 1) = true)
include hs hq

/-- A transfer leaves its effects `f`. -/
theorem State.xfer_runs (hop : (op < 64 : Bool) = true) (hok : ∀ w, y.Encodes op w → macOk op (bits w) = true) {f : Fx}
    (hf : ∀ i a b c, macAt x op i a b c y.as.toNat y.n.toNat y.dd.toNat = f) (h : f.Local) (hst : f.st = []) (hc : f.ctl = .none) :
    s.syllable t (y.word op) = s.issued t (f.regs x) (f.sat + f.aov) := by
  have he := y.word_encodes (of_decide_eq_true hop)
  have hfx : s.sylFx t (y.word op) = f := by
    rw [he.sylFx_mac (by rw [hx, hq]), macFx_eq, he.op, XferSyl.Encodes.as he, XferSyl.Encodes.n he, XferSyl.Encodes.dd he, hx, hf]
  rw [State.syllable_writes (he.alone hs (by decide)) hr ((sylOk_mac he.cls he.op _).trans (hok _ he)) hfx h hst hc, hx]

/-- A transfer to a D register. -/
theorem State.xfer_value (hop : (op < 64 : Bool) = true) (hok : ∀ w, y.Encodes op w → macOk op (bits w) = true) {v : Word} {n : Nat}
    (hf : ∀ i a b c, macAt x op i a b c y.as.toNat y.n.toNat y.dd.toNat = Fx.putD (x.phys y.dd.toNat) v n) :
    s.syllable t (y.word op) = s.issued t { x.setD (x.phys y.dd.toNat) v with sat := x.sat || lt 0 n } n := by
  rw [State.xfer_runs hr hx hs hq hop hok hf (Fx.putD_local ..) rfl rfl, Fx.putD_regs, Fx.putD_count]

end
end

/-- Settles O34: each instruction is one write of an accumulator or of Dd. -/
theorem macResults : Obligations.MacResults := by
  unfold Obligations.MacResults
  refine ⟨fun s t x y hr hs hx hq hz => ?_, fun s t x y hr hs hx hq hz ha hb => ⟨fun h0 => ?_, ?_, ?_⟩,
    fun s t x y hr hs hx hq hz hn => ?_, fun s t x y hr hs hx hq hz hn => ?_, fun s t x y hr hs hx hq hz hn => ?_,
    fun s t x y hr hs hx hq hz hn => ⟨?_, ?_⟩⟩
  · have k (op : Nat) (hop : (op < 64 : Bool) = true) (hok : ∀ f, macOk op f = (decide (f 12 3 = 0) && true && true)) {v : Int × Int}
        {n : Nat} (hf : ∀ c i k d, macAt x op y.ad.toNat (x.dReg y.da.toNat) (x.dReg y.db.toNat) c i k d = Fx.putAcc y.ad.toNat v n) :=
      Res.next_congr (State.mac_writes hr hx hs hq hop (fun w he => by rw [hok, MacSyl.Encodes.noZ he hz]; rfl) fun _ _ => hf _)
    exact List.forall_mem_cons.mpr ⟨k 0 rfl (fun _ => rfl) fun _ _ _ _ => rfl, List.forall_mem_cons.mpr ⟨
      k 1 rfl (fun _ => rfl) fun _ _ _ _ => rfl, List.forall_mem_cons.mpr ⟨
      k 2 rfl (fun _ => rfl) fun _ _ _ _ => rfl, List.forall_mem_cons.mpr ⟨
      k 3 rfl (fun _ => rfl) fun _ _ _ _ => rfl, List.forall_mem_cons.mpr ⟨
      k 4 rfl (fun _ => rfl) fun _ _ _ _ => rfl, List.forall_mem_cons.mpr ⟨
      k 5 rfl (fun _ => rfl) fun _ _ _ _ => rfl, List.forall_mem_cons.mpr ⟨
      k 6 rfl (fun _ => rfl) fun _ _ _ _ => rfl, List.forall_mem_nil _⟩⟩⟩⟩⟩⟩⟩
  · exact Res.next_congr (State.mac_plain (op := 7) hr hx hs hq rfl (fun w he => MacSyl.Encodes.clear_ok he hz h0 hb)
      fun _ _ _ _ _ => rfl)
  · refine Res.next_congr (State.mac_writes (op := 8) hr hx hs hq rfl (fun w he => MacSyl.Encodes.move_ok he hz ha hb)
      fun w he _ _ _ => ?_)
    rw [MacSyl.Encodes.da_acc he ha]
    rfl
  · refine Res.next_congr (State.mac_plain (op := 9) hr hx hs hq rfl (fun w he => MacSyl.Encodes.move_ok he hz ha hb)
      fun w he _ _ _ => ?_)
    rw [MacSyl.Encodes.da_acc he ha]
    rfl
  · rw [← sext_toNat] at hn ⊢
    exact Res.next_congr (State.xfer_value (op := 0x10) hr hx hs hq rfl
      (fun w he => XferSyl.Encodes.ok he hz (r := fun n => decide (-8 ≤ sext 6 n) && decide (sext 6 n ≤ 23)) (by simpa using hn))
      fun _ _ _ _ => rfl)
  · exact Res.next_congr (State.xfer_value (op := 0x11) hr hx hs hq rfl
      (fun w he => XferSyl.Encodes.ok he hz (r := fun n => decide (n < 32)) (decide_eq_true hn)) fun _ _ _ _ => rfl)
  · exact Res.next_congr (State.xfer_value (op := 0x12) hr hx hs hq rfl
      (fun w he => XferSyl.Encodes.ok he hz (r := fun n => decide (n < 32)) (decide_eq_true hn)) fun _ _ _ _ => rfl)
  · refine Res.next_congr ((State.xfer_value (op := 0x13) (v := accPart (x.accAt y.as.toNat) y.n.toNat) (n := 0) hr hx hs hq rfl
      (fun w he => XferSyl.Encodes.ok he hz (r := fun n => decide (n < 3)) (decide_eq_true hn)) fun _ _ _ _ => rfl).trans ?_)
    rw [RegSet.setD_unsaturated]
  · refine Res.next_congr ((State.xfer_runs (op := 0x14)
      (f := Fx.putAcc y.as.toNat (setAccPart (x.accAt y.as.toNat) y.n.toNat (x.dReg y.dd.toNat)) 0) hr hx hs hq rfl
      (fun w he => XferSyl.Encodes.ok he hz (r := fun n => decide (n < 3)) (decide_eq_true hn)) (fun _ _ _ _ => rfl)
      (Fx.putAcc_local ..) rfl rfl).trans ?_)
    rw [Fx.putAcc_regs, Fx.putAcc_count, RegSet.setAcc_unsaturated]

end Sys2Proof.Machine
end

section
/-!
SUPPORT. Immediate forms, wide immediates, predicate writes and register moves of the ALU slot (13 R421 to R423).
-/
namespace Sys2Proof.Machine

/-! ### The fields of an immediate syllable (13 Formats) -/

/-- `w` is the format I syllable with opcode `op` and the fields of `y`. -/
abbrev ImmSyl.Encodes (y : ImmSyl) (op w : Nat) : Prop := Head 2 op w y.stop y.qp y.qn (y.dd.toNat * 2 ^ 12 + y.imm.toNat)

theorem ImmSyl.word_encodes (y : ImmSyl) {op : Nat} (h : op < 64) : y.Encodes op (y.word op) :=
  .packed y.stop y.qp y.qn (by decide) h (pack_lt y.imm.isLt y.dd.isLt)
    ((packed_eq ..).symm.trans (Nat.add_assoc ..).symm).symm

namespace ImmSyl.Encodes

variable {y : ImmSyl} {op w : Nat} (he : y.Encodes op w)
include he

theorem dd : bits w 12 6 = y.dd.toNat := (he.field (by decide)).trans (bits_pack_top y.imm.isLt y.dd.isLt)

theorem imm : bits w 0 12 = y.imm.toNat := (he.field (by decide)).trans (bits_pack_low y.imm.isLt)

/-- A shift count leaves the upper part of the immediate zero. -/
theorem high (hi : y.imm.toNat < 32) : decide (bits w 5 7 = 0) = true :=
  decide_eq_true <| ((he.field (by decide)).trans (bits_pack_below y.imm.isLt (by decide))).trans (by
    rw [bits, show y.imm.toNat / 2 ^ 5 = 0 from Nat.div_eq_of_lt hi, Nat.zero_mod])

end ImmSyl.Encodes

/-- `w` is the format K syllable with opcode `op` and the fields of `y`. -/
structure WideSyl.Encodes (y : WideSyl) (op w : Nat) : Prop where
  lt : w < 2 ^ 32
  stop : bit w 31 = y.stop
  cls : sylClass w = 2
  op : bits w 22 6 = op
  dd : bits w 16 6 = y.dd.toNat
  imm : bits w 0 16 = y.imm.toNat

theorem WideSyl.word_encodes (y : WideSyl) {op : Nat} (h : op < 64) : y.Encodes op (y.word op) := by
  have hb : b2n y.stop < 2 ^ 1 := b2n_lt_two y.stop
  have hd : y.dd.toNat * 2 ^ 16 + y.imm.toNat < 2 ^ 22 := pack_lt y.imm.isLt y.dd.isLt
  have hnest : y.word op = ((b2n y.stop * 2 ^ 3 + 2) * 2 ^ 6 + op) * 2 ^ 22 + (y.dd.toNat * 2 ^ 16 + y.imm.toNat) := by
    unfold WideSyl.word
    rw [Nat.add_assoc]
    simp only [Nat.add_mul, Nat.mul_assoc, ← Nat.pow_add, Nat.reduceAdd]
  rw [hnest]
  refine ⟨pack_lt hd (pack_lt h (pack_lt (k := 3) (by decide) hb)), bit_of_bits ?_, ?_, ?_, ?_, ?_⟩
  · exact (bits_pack hd 9 1).trans ((bits_pack h 3 1).trans (bits_pack_top (by decide) hb))
  · exact (bits_pack hd 6 3).trans ((bits_pack h 0 3).trans (bits_pack_low (by decide)))
  · exact (bits_pack hd 0 6).trans (bits_pack_low h)
  · exact (bits_pack_below hd (by decide)).trans (bits_pack_top y.imm.isLt y.dd.isLt)
  · exact (bits_pack_below hd (by decide)).trans (bits_pack_low y.imm.isLt)

/-- A sign-extended immediate. -/
theorem ofInt_sext {n : Nat} (i : BitVec n) : BitVec.ofInt 32 (sext n i.toNat) = i.signExtend 32 := by
  rw [sext_toNat]
  rfl

section
variable {s : State} {t op : Nat} {x : RegSet} (hr : s.readyAt t = true) (hx : (s.tile t).cur = x)
include hr hx

/-- An immediate instruction writes Dd in place. -/
theorem State.imm_value {y : ImmSyl} (hs : y.stop = true) (hq : xor (x.pred y.qp.toNat) (y.qn == 1) = true)
    (hop : (op < 0x30 : Bool) = true) (hok : ∀ w, y.Encodes op w → aluOk op (bits w) (s.tile t).lvl = true)
    (hf : ∀ a b f, aluAt (s.tile t) op y.dd.toNat a b f =
      Fx.putD ((s.tile t).cur.phys y.dd.toNat) (immValue op ((s.tile t).cur.dReg y.dd.toNat) (f 0 12)) 0)
    {v : Word} (hv : immValue op (x.dReg y.dd.toNat) y.imm.toNat = v) :
    s.syllable t (y.word op) = s.issued t (x.setD (x.phys y.dd.toNat) v) 0 := by
  have he := y.word_encodes (by have := of_decide_eq_true hop; lia : op < 64)
  have hfx : aluFx (s.tile t) (y.word op) = Fx.putD (x.phys y.dd.toNat) v 0 := by
    rw [aluFx_at (s.tile t) he.op (ImmSyl.Encodes.dd he) rfl rfl, hf, ImmSyl.Encodes.imm he, hx, hv]
  rw [State.head_runs he hr hs hx hop (hok _ he) hq hfx (Fx.putD_local ..) rfl rfl, Fx.putD_regs, Fx.putD_count,
    RegSet.setD_unsaturated]

/-- A wide immediate instruction writes Dd whatever the predicates. -/
theorem State.wide_value {y : WideSyl} (hs : y.stop = true) (h64 : op < 64) (hok : ∀ f lvl, aluOk op f lvl = true)
    (hrun : ∀ f b, x.runsAt 2 op (f 24 4) f b = true) {v : Word}
    (hv : ∀ w, y.Encodes op w → ∀ d a b, aluAt (s.tile t) op d a b (bits w) = Fx.putD (x.phys y.dd.toNat) v 0) :
    s.syllable t (y.word op) = s.issued t (x.setD (x.phys y.dd.toNat) v) 0 := by
  have he := y.word_encodes h64
  have hw : AloneWord 2 (y.word op) := ⟨he.lt, he.stop.trans hs, he.cls, by decide⟩
  have hf (w : Nat) (he : y.Encodes op w) : s.sylFx t w = Fx.putD (x.phys y.dd.toNat) v 0 := by
    rw [State.sylFx_eq, hx, RegSet.runs_eq, he.cls, he.op, hrun, ← hv _ he, ← aluFx_at (s.tile t) he.op rfl rfl rfl]
    rfl
  have := State.syllable_writes hw hr ((sylOk_alu he.cls he.op _).trans (hok _ _)) (hf _ he) (Fx.putD_local ..) rfl rfl
  rwa [Fx.putD_regs, Fx.putD_count, hx, RegSet.setD_unsaturated] at this

section
variable {y : AluSyl} (hs : y.stop = true) (hq : xor (x.pred y.qp.toNat) (y.qn == 1) = true)
include hs hq

/-- An instruction that writes predicate DD. -/
theorem State.alu_predicate (hop : (op < 0x30 : Bool) = true) (hd : y.dd.toNat < 8)
    (hok : ∀ w, y.Encodes op w → aluOk op (bits w) (s.tile t).lvl = true) {v : Bool}
    (hv : ∀ w, y.Encodes op w → aluAt (s.tile t) op y.dd.toNat ((s.tile t).cur.dReg y.da.toNat) ((s.tile t).cur.dReg y.db.toNat)
      (bits w) = Fx.putQ (y.dd.toNat % 8) v) :
    s.syllable t (y.word op) = s.issued t (x.setQ y.dd.toNat v) 0 := by
  rw [State.alu_runs hr hs hx hop hok hq hv (Fx.putQ_local ..) rfl rfl, Fx.putQ_regs, Fx.putQ_count, Nat.mod_eq_of_lt hd]

end
end

/-- The two moves between the sets are illegal at level 0. -/
theorem AluSyl.Encodes.setMove_bad {y : AluSyl} {op w : Nat} (he : y.Encodes op w) (hop : op = 0x1F ∨ op = 0x20) :
    sylOk w false = false := by
  rw [sylOk_alu he.cls he.op]
  rcases hop with rfl | rfl
  · show (decide (bits w 0 5 = 0) && false && (_ : Bool)) = false
    rw [Bool.and_false, Bool.false_and]
  · show (decide (bits w 0 5 = 0) && false && (_ : Bool)) = false
    rw [Bool.and_false, Bool.false_and]

/-- An illegal only syllable of a bundle. -/
theorem State.syllable_illegal {s : State} {t c w : Nat} (hw : AloneWord c w) (hr : s.readyAt t = true)
    (hok : sylOk w (s.tile t).lvl = false) :
    s.syllable t w = (s.setTile t { s.tile t with bundle := [], idle := false }).tileFault t 1 0 := by
  obtain ⟨hmay, hb, -, -⟩ := s.readyAt_iff t |>.mp hr
  rw [State.syllable_alone hw hmay hb, State.issue_illegal hok]
  rfl

/-- MOVHI's value. -/
theorem movhi_value (imm : BitVec 16) (d : Word) :
    BitVec.ofNat 32 (d.toNat % 65536 + imm.toNat * 65536) = imm ++ d.extractLsb' 0 16 := by
  have hi := imm.isLt
  have hd : d.toNat % 65536 < 2 ^ 16 := Nat.mod_lt _ (by decide)
  refine BitVec.eq_of_toNat_eq ?_
  rw [BitVec.toNat_ofNat, BitVec.toNat_append, BitVec.extractLsb'_toNat, Nat.shiftRight_zero, Nat.shiftLeft_eq,
    ← Nat.shiftLeft_eq, ← Nat.shiftLeft_add_eq_or_of_lt hd, Nat.shiftLeft_eq]
  lia

/-- The effects of a move of `v` to D register `i` of the main set. -/
noncomputable def Fx.putMain (i : Nat) (v : Word) : Fx := { Fx.none with main := some (i, v) }

/-- Tile `z` with register set `r` as its main set. -/
noncomputable def Tile.setMain (z : Tile) (r : RegSet) : Tile := { z with main := r }

theorem Tile.setMain_cur (z : Tile) (r : RegSet) (h : z.lvl = true) : (z.setMain r).cur = z.cur := by
  simp [Tile.setMain, Tile.cur, h]

/-- A tile after the move to the main set. -/
theorem Tile.commit_main (z : Tile) {i : Nat} (v : Word) (h : i < 0x40) :
    z.commit [Fx.putMain i v] = (z.setCur z.cur).setMain ((z.setCur z.cur).main.setD i v) := by
  have hr : { z.cur with sat := z.cur.sat || lt 0 0, aov := z.cur.aov || lt 0 0 } = z.cur := by simp [lt]
  simp only [Tile.commit, List.foldl_cons, List.foldl_nil, Fx.putMain, Fx.none, h, if_true, hr, Tile.setMain]

/-- MVTM at level 1 leaves its D register in the main set, and the set in use and memory as they are. -/
theorem State.syllable_mvtm {s : State} {t i k : Nat} {x : RegSet} {y : AluSyl} (hr : s.readyAt t = true) (hs : y.stop = true)
    (hx : (s.tile t).cur = x) (hq : xor (x.pred y.qp.toNat) (y.qn == 1) = true) (hl : (s.tile t).lvl = true) (hi : i < 64)
    (hk : k < 64) (hlow : y.dd.toNat * 4096 + y.da.toNat * 64 + y.db.toNat = i * 2048 + k * 32) :
    ((s.syllable t (y.word 0x20)).tile t).main = (s.tile t).main.setD i (x.dReg k) ∧
      ((s.syllable t (y.word 0x20)).tile t).cur.d = x.d ∧ (s.syllable t (y.word 0x20)).mem = s.mem := by
  obtain ⟨hmay, hb, h0, h1⟩ := s.readyAt_iff t |>.mp hr
  have he := y.word_encodes (by decide : 0x20 < 64)
  have hbits : y.low = (i * 2 ^ 6 + k) * 2 ^ 5 + 0 := by rw [AluSyl.low]; lia
  have h11 (w : Nat) (he : y.Encodes 0x20 w) : bits w 11 7 = i := by
    rw [he.field (by decide), hbits, bits_pack (lo := 6) (by decide)]
    exact bits_pack_top hk (Nat.lt_trans hi (by decide))
  have h5 (w : Nat) (he : y.Encodes 0x20 w) : bits w 5 6 = k := by
    rw [he.field (by decide), hbits, bits_pack (lo := 0) (by decide)]
    exact bits_pack_low hk
  have hok (w : Nat) (he : y.Encodes 0x20 w) : sylOk w true = true := by
    have h05 : bits w 0 5 = 0 := by rw [he.field (by decide), hbits, bits_pack_low (by decide)]
    rw [sylOk_alu he.cls he.op]
    show (decide (bits w 0 5 = 0) && true && (decide (bits w 11 7 < 0x40) || _)) = true
    rw [h05, h11 w he, decide_eq_true hi]
    rfl
  have hfx (w : Nat) (he : y.Encodes 0x20 w) : s.sylFx t w = Fx.putMain i (x.dReg k) := by
    rw [he.sylFx_alu rfl, hx, hq, Bool.cond_true, AluSyl.Encodes.fx he, ← hx, ← h11 w he, ← h5 w he]
    rfl
  have hlegal := State.alone_legal (f := Fx.putMain i (x.dReg k)) (he.alone hs (by decide)) (by rw [hl]; exact hok _ he)
    (.inr ⟨h0, h1⟩) (by simp [Fx.putMain, Fx.none]) rfl
  have hissue := State.issue_one (hfx _ he) hlegal rfl rfl rfl
  obtain ⟨z, hz⟩ : ∃ z : Tile, z = (s.issuing t).tile t := ⟨_, rfl⟩
  have hzl : z.lvl = true := by rw [hz, State.issuing_lvl, hl]
  have hzc : z.cur = x := by rw [hz, State.issuing_cur, hx]
  have hzm : z.main = (s.tile t).main := by rw [hz, State.issuing, State.tile_setTile]
  rw [← hz, Tile.commit_main _ _ hi, Tile.setCur_cur, hzm] at hissue
  have hcur := (z.setMain_cur ((s.tile t).main.setD i (x.dReg k)) hzl).trans hzc
  have hgo : s.issue t [y.word 0x20] false =
      ((s.issuing t).setTile t (z.setMain ((s.tile t).main.setD i (x.dReg k)))).goTo t x.after := by
    rw [hissue, ← hx]
    change ((s.issuing t).setTile t (z.setMain ((s.tile t).main.setD i ((s.tile t).cur.dReg k)))).control t _ _ .none = _
    rw [hx]
    exact State.control_none (by rw [State.tile_setTile, hcur, ← hx, h0]) (by rw [State.tile_setTile, hcur, ← hx, h1])
  rw [State.syllable_alone (he.alone hs (by decide)) hmay hb, hgo, State.goTo_mem, State.setTile_mem, State.issuing_mem, State.goTo,
    State.tile_tilePut, State.tile_setTile, hcur, Tile.cur_setCur, Tile.setCur,
    if_pos (show (z.setMain ((s.tile t).main.setD i (x.dReg k))).lvl = true from hzl)]
  exact ⟨rfl, rfl, rfl⟩

/-- Settles O33: each form is one write of a predicate, of Dd or of an X register, and a level-1 move at level 0 is illegal. -/
theorem predicateImmediateAndMoveResults : Obligations.PredicateImmediateAndMoveResults := by
  unfold Obligations.PredicateImmediateAndMoveResults
  refine ⟨fun s t x y hr hs hx hq hd => ?_, fun s t x y hr hs hx hq hd ha hb => ?_, fun s t x y hr hs hx hq => ?_,
    fun s t x y hr hs hx hq hi => ?_, fun s t x y hr hs hx => ⟨?_, ?_⟩, fun s t x y hr hs hx hq hb hd => ?_,
    fun s t x y hr hs hx hq hb ha => ?_, fun s t x y i hr hs hx hq hl hi hlow => ?_,
    fun s n x y i k hr hs hx hq hl hi hk hlow => ?_, fun s t x y z hr hs hx hl hz _ => ⟨?_, ?_, ?_⟩⟩
  · subst hx
    have k (op : Nat) (hop : (op < 0x30 : Bool) = true) (hok : ∀ f lvl, aluOk op f lvl = decide (f 12 6 < 8)) {v : Bool}
        (hv : ∀ f, aluAt (s.tile t) op y.dd.toNat ((s.tile t).cur.dReg y.da.toNat) ((s.tile t).cur.dReg y.db.toNat) f =
          Fx.putQ (y.dd.toNat % 8) v) :=
      Res.next_congr (State.alu_predicate hr rfl hs hq hop hd (fun w he => by
        rw [hok, AluSyl.Encodes.dd he, decide_eq_true hd]) fun _ _ => hv _)
    exact List.forall_mem_cons.mpr ⟨k 0x16 rfl (fun _ _ => rfl) fun _ => rfl, List.forall_mem_cons.mpr ⟨
      k 0x17 rfl (fun _ _ => rfl) fun _ => rfl, List.forall_mem_cons.mpr ⟨
      k 0x18 rfl (fun _ _ => rfl) fun _ => rfl, List.forall_mem_cons.mpr ⟨
      k 0x19 rfl (fun _ _ => rfl) fun _ => rfl, List.forall_mem_nil _⟩⟩⟩⟩
  · subst hx
    have fa (w op : Nat) (he : y.Encodes op w) : bits w 6 3 = y.da.toNat :=
      (he.field (by decide)).trans ((bits_pack y.db.isLt 0 3).trans ((bits_pack_below y.da.isLt (by decide)).trans
        (by rw [bits, pow_zero, Nat.div_one]; exact Nat.mod_eq_of_lt ha)))
    have fb (w op : Nat) (he : y.Encodes op w) : bits w 0 3 = y.db.toNat :=
      (he.field (by decide)).trans ((bits_pack_below y.db.isLt (by decide)).trans
        (by rw [bits, pow_zero, Nat.div_one]; exact Nat.mod_eq_of_lt hb))
    have k (op : Nat) (hop : (op < 0x30 : Bool) = true)
        (hok : ∀ f lvl, aluOk op f lvl = (decide (f 12 6 < 8) && decide (f 6 6 < 8) && decide (f 0 6 < 8))) (g : Bool → Bool → Bool)
        (hv : ∀ a b f, aluAt (s.tile t) op y.dd.toNat a b f =
          Fx.putQ (y.dd.toNat % 8) (g ((s.tile t).cur.pred (f 6 3)) ((s.tile t).cur.pred (f 0 3)))) :=
      Res.next_congr (State.alu_predicate (v := g ((s.tile t).cur.pred y.da.toNat) ((s.tile t).cur.pred y.db.toNat)) hr rfl hs hq hop
        hd (fun w he => by
          rw [hok, AluSyl.Encodes.dd he, AluSyl.Encodes.da he, AluSyl.Encodes.db he, decide_eq_true hd, decide_eq_true ha,
            decide_eq_true hb]
          rfl) fun w he => by rw [hv, fa w op he, fb w op he])
    exact List.forall_mem_cons.mpr ⟨k 0x1A rfl (fun _ _ => rfl) (fun a b => a && b) fun _ _ _ => rfl, List.forall_mem_cons.mpr ⟨
      k 0x1B rfl (fun _ _ => rfl) (fun a b => a || b) fun _ _ _ => rfl, List.forall_mem_cons.mpr ⟨
      k 0x1C rfl (fun _ _ => rfl) (fun a b => a && !b) fun _ _ _ => rfl, List.forall_mem_nil _⟩⟩⟩
  · have k (op : Nat) (hop : (op < 0x30 : Bool) = true) (hok : ∀ f lvl, aluOk op f lvl = true)
        (hf : ∀ a b f, aluAt (s.tile t) op y.dd.toNat a b f =
          Fx.putD ((s.tile t).cur.phys y.dd.toNat) (immValue op ((s.tile t).cur.dReg y.dd.toNat) (f 0 12)) 0)
        {v : Word} (hv : immValue op (x.dReg y.dd.toNat) y.imm.toNat = v) :=
      Res.next_congr (State.imm_value hr hx hs hq hop (fun _ _ => hok _ _) hf hv)
    rw [← ofInt_sext]
    exact List.forall_mem_cons.mpr ⟨k 0x28 rfl (fun _ _ => rfl) (fun _ _ _ => rfl) rfl, List.forall_mem_cons.mpr ⟨
      k 0x29 rfl (fun _ _ => rfl) (fun _ _ _ => rfl) rfl, List.forall_mem_cons.mpr ⟨
      k 0x2A rfl (fun _ _ => rfl) (fun _ _ _ => rfl) rfl, List.forall_mem_nil _⟩⟩⟩
  · have k (op : Nat) (hop : (op < 0x30 : Bool) = true) (hok : ∀ f lvl, aluOk op f lvl = decide (f 5 7 = 0))
        (hf : ∀ a b f, aluAt (s.tile t) op y.dd.toNat a b f =
          Fx.putD ((s.tile t).cur.phys y.dd.toNat) (immValue op ((s.tile t).cur.dReg y.dd.toNat) (f 0 12)) 0)
        {v : Word} (hv : immValue op (x.dReg y.dd.toNat) y.imm.toNat = v) :=
      Res.next_congr (State.imm_value hr hx hs hq hop (fun w he => by rw [hok, ImmSyl.Encodes.high he hi]) hf hv)
    have hm := Nat.mod_eq_of_lt hi
    exact List.forall_mem_cons.mpr ⟨k 0x2B rfl (fun _ _ => rfl) (fun _ _ _ => rfl) (congrArg (x.dReg y.dd.toNat <<< ·) hm),
      List.forall_mem_cons.mpr ⟨k 0x2C rfl (fun _ _ => rfl) (fun _ _ _ => rfl) (congrArg (x.dReg y.dd.toNat >>> ·) hm),
      List.forall_mem_cons.mpr ⟨k 0x2D rfl (fun _ _ => rfl) (fun _ _ _ => rfl) (congrArg (x.dReg y.dd.toNat).sshiftRight hm),
      List.forall_mem_nil _⟩⟩⟩
  · refine Res.next_congr (State.wide_value (op := 0x30) hr hx hs (by decide) (fun _ _ => rfl) (fun _ _ => rfl) fun w he _ _ _ => ?_)
    rw [← ofInt_sext, ← he.imm, ← he.dd, ← hx]
    rfl
  · refine Res.next_congr (State.wide_value (op := 0x31) hr hx hs (by decide) (fun _ _ => rfl) (fun _ _ => rfl) fun w he _ _ _ => ?_)
    rw [← movhi_value, ← he.imm, ← he.dd, ← hx]
    rfl
  · have hok (w : Nat) (he : y.Encodes 0x1D w) : (decide (bits w 0 6 = 0) && xOk (bits w 12 6)) = true := by
      have hle : y.dd.toNat ≤ 0x2C := by lia
      rw [AluSyl.Encodes.db he, AluSyl.Encodes.dd he, hb]
      unfold xOk
      rw [le, decide_eq_true hle]
      rfl
    refine Res.next_congr ((State.alu_runs (op := 0x1D) (f := Fx.putX y.dd.toNat (x.dReg y.da.toNat)) hr hs hx rfl hok hq
      (fun w he => by rw [← hx]; rfl) (Fx.putX_local _ (by lia)) rfl rfl).trans ?_)
    rw [Fx.putX_regs, Fx.putX_count]
  · subst hx
    have hok (w : Nat) (he : y.Encodes 0x1E w) : (decide (bits w 0 6 = 0) && xOk (bits w 6 6)) = true := by
      rw [AluSyl.Encodes.db he, AluSyl.Encodes.da he, hb]
      unfold xOk
      rw [le, decide_eq_true ha]
      rfl
    exact Res.next_congr (State.alu_plain (op := 0x1E) hr hs rfl rfl hok hq fun w he => by
      rw [← AluSyl.Encodes.da he]
      rfl)
  · subst hx
    have hbits : y.low = y.dd.toNat * 2 ^ 12 + (i * 2 ^ 5 + 0) := by rw [AluSyl.low]; lia
    have hlt : i * 2 ^ 5 + 0 < 2 ^ 12 := pack_lt (n := 7) (by decide) (Nat.lt_trans hi (by decide))
    have h5 (w : Nat) (he : y.Encodes 0x1F w) : bits w 5 7 = i := by
      rw [he.field (by decide), hbits, bits_pack_below hlt (by decide)]
      exact bits_pack_top (by decide) (Nat.lt_trans hi (by decide))
    have h0 (w : Nat) (he : y.Encodes 0x1F w) : bits w 0 5 = 0 := by
      rw [he.field (by decide), hbits, bits_pack_below hlt (by decide)]
      exact bits_pack_low (by decide)
    refine Res.next_congr (State.alu_plain (op := 0x1F) hr hs rfl rfl (fun w he => ?_) hq fun w he => ?_)
    · show (decide (bits w 0 5 = 0) && (s.tile t).lvl && (decide (bits w 5 7 < 0x40) || xOk (bits w 5 7 - 0x40))) = true
      rw [h5 w he, h0 w he, hl]
      unfold xOk
      rw [le]
      have hx : i < 64 ∨ i - 64 ≤ 44 := by lia
      rcases hx with hx | hx
      · rw [decide_eq_true hx]
        rfl
      · rw [decide_eq_true hx, Bool.or_true]
        rfl
    · rw [← h5 w he]
      rfl
  · exact ⟨_, rfl, State.syllable_mvtm hr hs hx hq hl hi hk hlow⟩
  · have he := y.word_encodes (by decide : 0x1F < 64)
    exact Res.next_congr (State.syllable_illegal (he.alone hs (by decide)) hr (by rw [hl]; exact AluSyl.Encodes.setMove_bad he (.inl rfl)))
  · have he := y.word_encodes (by decide : 0x20 < 64)
    exact Res.next_congr (State.syllable_illegal (he.alone hs (by decide)) hr (by rw [hl]; exact AluSyl.Encodes.setMove_bad he (.inr rfl)))
  · have he := z.word_encodes (by decide : 7 < 16)
    exact Res.next_congr (State.syllable_illegal (he.alone hz) hr (by rw [hl]; exact he.rti_bad))

end Sys2Proof.Machine
end

section
/-!
SUPPORT. Loads and stores in the offset mode (13 R417, R418): the address, the bytes of a wide value, and the registers it names.
-/
namespace Sys2Proof.Machine

/-! ### Little-endian values (00 R13) -/

theorem leNat_append (xs ys : List Byte) : leNat (xs ++ ys) = leNat xs + 256 ^ xs.length * leNat ys := by
  induction xs with
  | nil => simp [leNat]
  | cons b xs ih =>
    simp only [List.cons_append, leNat, ih, List.length_cons, pow_succ]
    ring

theorem leNat_lt (xs : List Byte) : leNat xs < 256 ^ xs.length := by
  induction xs with
  | nil => simp [leNat]
  | cons b xs ih =>
    have hb : b.toNat < 256 := b.isLt
    simp only [leNat, List.length_cons, pow_succ]
    refine (Nat.add_lt_add_right hb _).trans_le ?_
    rw [Nat.add_comm, ← Nat.mul_succ, Nat.mul_comm (256 ^ _)]
    exact Nat.mul_le_mul_left _ ih

theorem leBytes_add (a b v : Nat) : leBytes (a + b) v = leBytes a v ++ leBytes b (v / 256 ^ a) := by
  induction a generalizing v with
  | zero => simp [leBytes]
  | succ a ih => rw [Nat.succ_add, leBytes, ih, leBytes, List.cons_append, Nat.div_div_eq_div_mul, pow_succ']

theorem leBytes_mod (n v : Nat) : leBytes n (v % 256 ^ n) = leBytes n v := by
  induction n generalizing v with
  | zero => rfl
  | succ n ih =>
    have hdiv : v % 256 ^ (n + 1) / 256 = v / 256 % 256 ^ n := by
      rw [pow_succ', Nat.mod_mul_right_div_self]
    have hlow : BitVec.ofNat 8 (v % 256 ^ (n + 1)) = BitVec.ofNat 8 v := by
      refine BitVec.eq_of_toNat_eq ?_
      rw [BitVec.toNat_ofNat, BitVec.toNat_ofNat, pow_succ']
      exact Nat.mod_mul_right_mod v 256 (256 ^ n)
    rw [leBytes, leBytes, hdiv, ih, hlow]

/-- The low bytes do not see what lies above them. -/
theorem leBytes_add_mul (n d e : Nat) : leBytes n (d + e * 256 ^ n) = leBytes n d := by
  rw [← leBytes_mod, Nat.add_mul_mod_self_right, leBytes_mod]

theorem u32_append_leBytes (d : Word) (n v : Nat) : leBytes (4 + n) (d.toNat + v * 2 ^ 32) = u32 d.toNat ++ leBytes n v := by
  have hd : d.toNat < 256 ^ 4 := d.isLt
  have hv : (d.toNat + v * 256 ^ 4) / 256 ^ 4 = v := by
    rw [Nat.add_mul_div_right _ _ (by decide), Nat.div_eq_of_lt hd, Nat.zero_add]
  rw [show (2 : Nat) ^ 32 = 256 ^ 4 by decide, leBytes_add, leBytes_add_mul, hv]
  rfl

theorem State.peekAll_add (s : State) (m a b : Nat) : s.peekAll m (a + b) = s.peekAll m a ++ s.peekAll (m + a) b := by
  simp [State.peekAll, upto, List.range_add, Nat.add_assoc, Function.comp_def]

@[simp] theorem State.peekAll_length (s : State) (m n : Nat) : (s.peekAll m n).length = n := by simp [State.peekAll, upto]

/-- Word `k` of a wide value. -/
theorem State.peekAll_word (s : State) (m k r : Nat) :
    BitVec.ofNat 32 (leNat (s.peekAll m (4 * k + (4 + r))) / 2 ^ (32 * k)) = BitVec.ofNat 32 (leNat (s.peekAll (m + 4 * k) 4)) := by
  have h256 (n : Nat) : (256 : Nat) ^ (4 * n) = 2 ^ (32 * n) := by rw [pow_mul, pow_mul 2 32]; norm_num
  have hlow := leNat_lt (s.peekAll m (4 * k))
  rw [State.peekAll_length, h256] at hlow
  rw [State.peekAll_add, State.peekAll_add, leNat_append, leNat_append, State.peekAll_length, State.peekAll_length, h256,
    Nat.add_mul_div_left _ _ (by positivity), Nat.div_eq_of_lt hlow, Nat.zero_add]
  refine BitVec.eq_of_toNat_eq ?_
  rw [BitVec.toNat_ofNat, BitVec.toNat_ofNat, show (256 : Nat) ^ 4 = 2 ^ 32 by decide, Nat.add_mul_mod_self_left]

/-! ### The registers of a wide value -/

/-- Registers of a group that lies in one half are distinct. -/
theorem RegSet.phys_ne (x : RegSet) {d n j k : Nat} (hd : d + n ≤ 32 ∨ 32 ≤ d) (hn : n ≤ 32) (hj : j < n) (hk : k < n)
    (h : j ≠ k) : x.phys (d + j) ≠ x.phys (d + k) := by
  unfold RegSet.phys
  rcases hd with hd | hd
  · have low {i : Nat} (hi : i < n) : d + i < 32 := (Nat.add_lt_add_left hi d).trans_le hd
    rw [if_pos (low hj), if_pos (low hk)]
    exact fun e => h (Nat.add_left_cancel e)
  · have high (i : Nat) : ¬ d + i < 32 := Nat.not_lt.2 (hd.trans (Nat.le_add_right d i))
    have hmove (i : Nat) : d + i - 32 + x.rrb = d - 32 + x.rrb + i := by rw [Nat.sub_add_comm hd, Nat.add_right_comm]
    rw [if_neg (high j), if_neg (high k), hmove, hmove]
    exact fun e => h ((Nat.ModEq.add_left_cancel' _ (Nat.add_left_cancel e)).eq_of_lt_of_lt (hj.trans_le hn) (hk.trans_le hn))

/-! ### A load/store syllable in the offset mode -/

/-- A field within a field of value `v`. -/
theorem bits_part {w at_ k v lo n : Nat} (h : bits w at_ k = v) (hn : lo + n ≤ k) : bits w (at_ + lo) n = v / 2 ^ lo % 2 ^ n := by
  rw [bits, Nat.pow_add, ← Nat.div_div_eq_div_mul]
  exact bits_low h hn

theorem sylOk_ls {w o : Nat} (hc : sylClass w = 0) (ho : bits w 24 4 = o) (lvl : Bool) : sylOk w lvl = lsOk o (bits w) := by
  rw [sylOk_eq, hc, ho]
  rfl

/-- The D registers of an access begin at a multiple of their number; LEA writes a P register. -/
abbrev LsSyl.Grouped (y : LsSyl) (op : Nat) : Prop :=
  (op = 5 ∨ op = 0xB → y.data.toNat % 2 = 0) ∧ (op = 6 ∨ op = 0xC → y.data.toNat % 4 = 0) ∧ (op = 7 → y.data.toNat < 16)

theorem LsSyl.grouped_one (y : LsSyl) {op : Nat} (h : ¬(op = 5 ∨ op = 0xB) ∧ ¬(op = 6 ∨ op = 0xC) ∧ op ≠ 7) : y.Grouped op :=
  ⟨fun k => absurd k h.1, fun k => absurd k h.2.1, fun k => absurd k h.2.2⟩

namespace LsSyl.Encodes

variable {y : LsSyl} {op w : Nat} (he : y.Encodes op w)
include he

theorem alone (hs : y.stop = true) : AloneWord 0 w := ⟨he.lt, he.stop.trans hs, he.cls, by decide⟩

/-- The offset mode is well-formed where the group of D registers is aligned. -/
theorem offset_ok (hop : op < 0xE) (hm : y.mode = 0) (hg : y.Grouped op) (lvl : Bool) : sylOk w lvl = true := by
  obtain ⟨h2, h4, h7⟩ := hg
  have hmode : bits w 22 2 = 0 := by rw [he.mode, hm]; rfl
  have imp {a : Bool} {q : Prop} [Decidable q] (h : a = true → q) : (!a || decide q) = true := by
    cases a
    · rfl
    · exact decide_eq_true (h rfl)
  have k2 : (!(decide (op = 5) || decide (op = 0xB)) || decide (bits w 9 1 = 0)) = true := imp fun h => by
    rw [Bool.or_eq_true, decide_eq_true_eq, decide_eq_true_eq] at h
    exact (bits_part (lo := 0) he.data (by decide)).trans (by rw [pow_zero, Nat.div_one, pow_one, h2 h])
  have k4 : (!(decide (op = 6) || decide (op = 0xC)) || decide (bits w 9 2 = 0)) = true := imp fun h => by
    rw [Bool.or_eq_true, decide_eq_true_eq, decide_eq_true_eq] at h
    exact (bits_part (lo := 0) he.data (by decide)).trans (by rw [pow_zero, Nat.div_one]; exact h4 h)
  have k7 : (decide (op ≠ 7) || decide (bits w 13 2 = 0)) = true := by
    rw [decide_not]
    exact imp fun h => (bits_part (lo := 4) he.data (by decide)).trans (by
      rw [show y.data.toNat / 2 ^ 4 = 0 from Nat.div_eq_of_lt (h7 (of_decide_eq_true h)), Nat.zero_mod])
  rw [sylOk_ls he.cls he.op]
  unfold lsOk
  rw [if_neg (Nat.ne_of_lt (hop.trans (by decide))), if_neg (Nat.ne_of_lt hop), hmode, k2, k4, k7]
  exact Bool.or_true (decide (op ≠ 0xD))

/-- The address of the offset mode. -/
theorem address_offset (hm : y.mode = 0) (x : RegSet) (wd : Nat) :
    x.address w wd = (toU 32 ((x.pReg y.pn.toNat : Int) + y.imm.toInt * wd), []) := by
  have hmode : bits w 22 2 = 0 := by rw [he.mode, hm]; rfl
  rw [RegSet.address, if_pos hmode, he.pn, he.imm, sext_toNat]

end LsSyl.Encodes

/-- The effects of a load of the register values `ps`, through the fabric where `far` says so. -/
noncomputable def Fx.load (ps : List (Nat × Word)) (far : Option FabReq) : Fx := { Fx.none with d := ps, far := far }

@[simp] theorem Fx.load_regs (ps : List (Nat × Word)) (far : Option FabReq) (x : RegSet) :
    (Fx.load ps far).regs x = ps.foldl (fun r p => r.setD p.1 p.2) x := by
  simp [Fx.regs, Fx.load, Fx.none, show lt 0 0 = false from rfl]

theorem Fx.load_local {ps : List (Nat × Word)} (far : Option FabReq) (h : noDup (ps.map (·.1)) = true) : (Fx.load ps far).Local :=
  ⟨rfl, rfl, rfl, rfl, List.forall_mem_nil _, by
    show (noDup ((ps.map (·.1) ++ []) ++ []) && noDup [] && noDup [] && noDup []) = true
    rw [List.append_nil, List.append_nil, h]
    rfl⟩

/-- The effects of a store of `w` bytes with value `v` at `c`, with `n` saturated components. -/
noncomputable def Fx.storeSat (c : CoreAt) (w v n : Nat) : Fx := { Fx.none with st := [(c, w, v)], sat := n }

@[simp] theorem Fx.storeSat_regs (c : CoreAt) (w v n : Nat) (x : RegSet) :
    (Fx.storeSat c w v n).regs x = { x with sat := x.sat || lt 0 n } := by
  simp [Fx.regs, Fx.storeSat, Fx.none, show lt 0 0 = false from rfl]

theorem Fx.storeSat_local (c : CoreAt) (w v n : Nat) : (Fx.storeSat c w v n).Local :=
  ⟨rfl, rfl, rfl, rfl, List.forall_mem_nil _, rfl⟩

/-- The registers from `d` on and their parts of a value `v`. -/
noncomputable def RegSet.loaded (x : RegSet) (op d v n : Nat) : List (Nat × Word) := (upto n).map fun k => (x.phys (d + k), loadValue op v k)

theorem zip_upto_map {α β : Type} (f : Nat → α) (g : α × Nat → β) (n : Nat) :
    (((upto n).map f).zip (upto n)).map g = (upto n).map fun k => g (f k, k) :=
  List.ext_getElem (by simp) (by simp [upto])

/-- The value a store takes from the registers from `d` on. -/
noncomputable def RegSet.stored (x : RegSet) (d n : Nat) : Nat := ((upto n).map fun k => (x.dReg (d + k)).toNat * 2 ^ (32 * k)).foldl (· + ·) 0

/-- The effects of a load with opcode `o` into the registers from `dn` on (R418). -/
noncomputable def State.loadFx (s : State) (t : Nat) (x : RegSet) (o dn : Nat) (c : CoreAt) : Fx :=
  let wd := lsWidth o
  let dst := (upto (max 1 (wd / 4))).map (fun k => x.phys (dn + k))
  let far := match c with
    | .mem m => bif s.memTarget m == 8 + t then none else some (FabReq.load m wd o (s.tile t).lvl dst)
    | _ => none
  let touch := match c with
    | .reg r => (upto (max 1 (wd / 4))).map (fun k => r / 4 * 4 + 4 * k)
    | _ => []
  { Fx.none with d := (dst.zip (upto dst.length)).map (fun p => (p.1, loadValue o (s.coreLoad t wd c) p.2)), far := far, touch := touch }

/-- The value of a store with its saturated components. -/
noncomputable def RegSet.storeValue (x : RegSet) (o dn : Nat) : Nat × Nat :=
  if o = 0xD then
    let r := accC16 (x.accAt (dn / 8)) (max (-8) (min 23 (sext 6 (x.xAt (0x20 + dn % 8)).toNat)))
    (r.1.toNat, r.2)
  else (x.stored dn (max 1 (lsWidth o / 4)), 0)

/-- The effects of a store of `r`. -/
noncomputable def State.storeFx (s : State) (t : Nat) (wd a : Nat) (c : CoreAt) (r : Nat × Nat) : Fx :=
  let v := r.1 % 2 ^ (8 * wd)
  if s.storeFault t wd v c ≠ 0 then { Fx.none with fault := (s.storeFault t wd v c, a) } else Fx.storeSat c wd v r.2

/-- The effects of an access at `a` that writes no pointer: the target first, then the alignment. -/
noncomputable def State.accessFx (s : State) (t : Nat) (x : RegSet) (o dn a : Nat) : Fx :=
  let c := s.coreAt t a (lsWidth o)
  if c = .bad then { Fx.none with fault := (2, a) }
  else if a % lsWidth o ≠ 0 then { Fx.none with fault := (3, a) }
  else if o < 7 then s.loadFx t x o dn c
  else s.storeFx t (lsWidth o) a c (x.storeValue o dn)

section
variable {s : State} {t op w a m : Nat} {x : RegSet} {y : LsSyl} (he : y.Encodes op w) (hm : y.mode = 0)
  {k : Int} (hk : (lsWidth op : Int) = k) (ha : toU 32 ((x.pReg y.pn.toNat : Int) + y.imm.toInt * k) = a)
include he hm hk ha

/-- A load or store in the offset mode. -/
theorem State.lsFx_access (hop : op < 0xE ∧ op ≠ 7) : s.lsFx t x w = s.accessFx t x op y.data.toNat a := by
  rw [State.lsFx, he.op, he.data, if_neg (Nat.ne_of_lt hop.1), he.address_offset hm, hk, ha]
  exact if_neg hop.2

/-- An access to no target faults with ADDR. -/
theorem State.lsFx_addr (hop : op < 0xE ∧ op ≠ 7) (hc : s.coreAt t a (lsWidth op) = .bad) :
    s.lsFx t x w = { Fx.none with fault := (2, a) } := by
  rw [State.lsFx_access he hm hk ha hop]
  unfold State.accessFx
  rw [hc]
  exact if_pos rfl

/-- A misaligned access faults with ALIGN. -/
theorem State.lsFx_align (hop : op < 0xE ∧ op ≠ 7) (hc : s.coreAt t a (lsWidth op) ≠ .bad) (hal : a % lsWidth op ≠ 0) :
    s.lsFx t x w = { Fx.none with fault := (3, a) } := by
  rw [State.lsFx_access he hm hk ha hop]
  unfold State.accessFx
  rw [if_neg hc, if_pos hal]

variable (hc : s.coreAt t a (lsWidth op) = .mem m) (hal : a % lsWidth op = 0)
include hc hal

/-- An aligned load from memory. -/
theorem State.lsFx_load (hop : op < 7) :
    ∃ far, s.lsFx t x w =
      Fx.load (x.loaded op y.data.toNat (leNat (s.peekAll m (lsWidth op))) (max 1 (lsWidth op / 4))) far := by
  have hlen (f : Nat → Nat) (n : Nat) : ((upto n).map f).length = n := by rw [List.length_map, upto, List.length_range]
  rw [State.lsFx_access he hm hk ha ⟨hop.trans (by decide), Nat.ne_of_lt hop⟩]
  unfold State.accessFx
  rw [hc, if_neg nofun, if_neg (not_not_intro hal), if_pos hop]
  unfold State.loadFx
  dsimp only
  rw [hlen, zip_upto_map]
  exact ⟨_, rfl⟩

/-- An aligned store to memory. -/
theorem State.lsFx_stores (hop : 7 < op ∧ op ≤ 0xD) : s.lsFx t x w = Fx.storeSat (.mem m) (lsWidth op)
    ((x.storeValue op y.data.toNat).1 % 2 ^ (8 * lsWidth op)) (x.storeValue op y.data.toNat).2 := by
  rw [State.lsFx_access he hm hk ha ⟨Nat.lt_succ_of_le hop.2, Nat.ne_of_gt hop.1⟩]
  unfold State.accessFx
  rw [hc, if_neg nofun, if_neg (not_not_intro hal), if_neg (Nat.lt_asymm hop.1)]
  rfl

theorem State.lsFx_store (hop : 7 < op ∧ op < 0xD) :
    s.lsFx t x w = Fx.storeSat (.mem m) (lsWidth op)
      (x.stored y.data.toNat (max 1 (lsWidth op / 4)) % 2 ^ (8 * lsWidth op)) 0 := by
  rw [State.lsFx_stores he hm hk ha hc hal ⟨hop.1, hop.2.le⟩]
  unfold RegSet.storeValue
  rw [if_neg (Nat.ne_of_lt hop.2)]

end

/-- LEA in the offset mode. -/
theorem State.lsFx_lea (s : State) (t : Nat) {w : Nat} (x : RegSet) {y : LsSyl} (he : y.Encodes 7 w) (hm : y.mode = 0)
    (hd : y.data.toNat < 16) :
    s.lsFx t x w = Fx.putX y.data.toNat (BitVec.ofNat 32 (toU 32 ((x.pReg y.pn.toNat : Int) + y.imm.toInt))) := by
  rw [← Nat.mod_eq_of_lt hd, ← mul_one y.imm.toInt, State.lsFx, he.op, he.data, he.address_offset hm]
  rfl

/-- STAC in the offset mode stores the accumulator as C16 with shift `n`. -/
theorem State.lsFx_stac {s : State} {t w a m : Nat} {n : Int} {x : RegSet} {y : LsSyl} (he : y.Encodes 0xD w) (hm : y.mode = 0)
    (ha : toU 32 ((x.pReg y.pn.toNat : Int) + y.imm.toInt * 4) = a) (hc : s.coreAt t a 4 = .mem m) (hal : a % 4 = 0)
    (hn : (x.xAt (0x20 + y.data.toNat % 8)).toNat = toU 6 n) (hb : -8 ≤ n ∧ n ≤ 23) :
    s.lsFx t x w = Fx.storeSat (.mem m) 4 (accC16 (x.accAt (y.data.toNat / 8)) n).1.toNat
      (accC16 (x.accAt (y.data.toNat / 8)) n).2 := by
  have h6 : sext 6 (toU 6 n) = n := by
    rw [show toU 6 n = (BitVec.ofInt 6 n).toNat from (BitVec.toNat_ofInt n).symm, sext_toNat,
      BitVec.toInt_ofInt_eq_self (by decide) (le_trans (by decide) hb.1) (lt_of_le_of_lt hb.2 (by decide))]
  have hshift : max (-8) (min 23 (sext 6 (x.xAt (0x20 + y.data.toNat % 8)).toNat)) = n := by
    rw [hn, h6, min_eq_right hb.2, max_eq_right hb.1]
  rw [State.lsFx_stores (k := 4) he hm rfl ha hc hal (by decide)]
  unfold RegSet.storeValue
  rw [if_pos rfl, hshift]
  exact congrArg (Fx.storeSat _ _ · _) (Nat.mod_eq_of_lt (BitVec.isLt _))

/-! ### What the bundle leaves -/

@[simp] theorem State.tile_pokeAll (s : State) (a t : Nat) (bs : List Byte) : (s.pokeAll a bs).tile t = s.tile t := by
  unfold State.pokeAll State.tile
  cases lt a (2 ^ 44) with
  | false => rfl
  | true =>
    dsimp only [cond_true]
    cases (upto bs.length).any fun i => (s.remapOf (s.rankOf (a + i))).lost <;> simp

section
variable {s : State} {t op : Nat} {x : RegSet} {y : LsSyl} (hr : s.readyAt t = true) (hs : y.stop = true)
  (hx : (s.tile t).cur = x) (hq : x.pred y.qp.toNat = true)
include hr hs hx hq

/-- A syllable of the load/store slot that writes registers only. -/
theorem State.ls_writes (hop : op < 16) (hok : sylOk (y.word op) (s.tile t).lvl = true) {f : Fx}
    (hf : s.lsFx t x (y.word op) = f) (h : f.Local) (hst : f.st = []) (hc : f.ctl = .none) :
    s.syllable t (y.word op) = s.issued t (f.regs x) (f.sat + f.aov) := by
  have he := y.word_encodes hop
  have hfx : s.sylFx t (y.word op) = f := by rw [State.sylFx_ls he (by rwa [hx]), hx, hf]
  rw [State.syllable_writes (he.alone hs) hr hok hfx h hst hc, hx]

/-- A store to memory. -/
theorem State.ls_stores (hop : op < 16) (hok : sylOk (y.word op) (s.tile t).lvl = true) {m w v n : Nat}
    (hf : s.lsFx t x (y.word op) = Fx.storeSat (.mem m) w v n) :
    s.syllable t (y.word op) =
      ((s.bundleTaken t { x with sat := x.sat || lt 0 n } n).pokeAll m (leBytes w v)).goTo t x.after := by
  have he := y.word_encodes hop
  have hfx : s.sylFx t (y.word op) = Fx.storeSat (.mem m) w v n := by rw [State.sylFx_ls he (by rwa [hx]), hx, hf]
  obtain ⟨hmay, hb, h0, h1⟩ := s.readyAt_iff t |>.mp hr
  have h := State.syllable_local (he.alone hs) hmay hb hok (.inr ⟨h0, h1⟩) (by simp [Fx.storeSat, Fx.none]) hfx
    (Fx.storeSat_local ..)
  rw [Fx.storeSat_regs, hx] at h
  rw [hx] at h0 h1
  have hcur : (((s.bundleTaken t { x with sat := x.sat || lt 0 n } n).pokeAll m (leBytes w v)).tile t).cur =
      { x with sat := x.sat || lt 0 n } := by rw [State.tile_pokeAll, State.cur_bundleTaken]
  exact h.trans (State.control_none (s := (s.bundleTaken t { x with sat := x.sat || lt 0 n } n).pokeAll m (leBytes w v))
    (n := x.after) (by rw [hcur]; exact h0) (by rw [hcur]; exact h1))

/-- A faulting access. -/
theorem State.ls_faults (hop : op < 16) (hok : sylOk (y.word op) (s.tile t).lvl = true) {c a : Nat} (h0 : c ≠ 0)
    (hf : s.lsFx t x (y.word op) = { Fx.none with fault := (c, a) }) :
    s.syllable t (y.word op) = (s.setTile t { s.tile t with bundle := [], idle := false }).tileFault t c a := by
  have he := y.word_encodes hop
  have hfx : s.sylFx t (y.word op) = { Fx.none with fault := (c, a) } := by rw [State.sylFx_ls he (by rwa [hx]), hx, hf]
  obtain ⟨hmay, hb, hl0, hl1⟩ := s.readyAt_iff t |>.mp hr
  rw [State.syllable_alone (he.alone hs) hmay hb, State.issue_fault hfx (State.alone_legal (he.alone hs) hok (.inr ⟨hl0, hl1⟩)
    (by simp [Fx.none]) rfl) rfl h0]
  rfl

end

end Sys2Proof.Machine
end

section
/-!
PROOF. Loads, stores and misplaced accesses (13 R417, R418, 12 R379).
-/
namespace Sys2Proof.Machine

/-- Settles O37: the target is looked up before the alignment is judged. -/
theorem misplacedAccessFaults : Obligations.MisplacedAccessFaults := by
  unfold Obligations.MisplacedAccessFaults
  refine ⟨fun s t x y a hr hs hx hq hm ha hc => ?_, fun s t x y a hr hs hx hq hm ha hc hal => ?_⟩
  · have k (op : Nat) (hop : op < 0xE ∧ op ≠ 7) (hg : y.Grouped op) (hw : lsWidth op = 4) :=
      have he := y.word_encodes (hop.1.trans (by decide) : op < 16)
      Res.next_congr (State.ls_faults hr hs hx hq (hop.1.trans (by decide)) (he.offset_ok hop.1 hm hg _) (by decide)
        (State.lsFx_addr he hm (k := 4) (by rw [hw]; rfl) ha hop (by rw [hw]; exact hc)))
    exact ⟨k 4 (by decide) (y.grouped_one (by decide)) rfl, k 0xA (by decide) (y.grouped_one (by decide)) rfl⟩
  · have k (op : Nat) (hop : op < 0xE ∧ op ≠ 7) (hg : y.Grouped op) (hw : lsWidth op = 4) :=
      have he := y.word_encodes (hop.1.trans (by decide) : op < 16)
      Res.next_congr (State.ls_faults hr hs hx hq (hop.1.trans (by decide)) (he.offset_ok hop.1 hm hg _) (by decide)
        (State.lsFx_align he hm (k := 4) (by rw [hw]; rfl) ha hop (by rw [hw]; exact hc) (by rw [hw]; exact hal)))
    exact ⟨k 4 (by decide) (y.grouped_one (by decide)) rfl, k 0xA (by decide) (y.grouped_one (by decide)) rfl⟩

/-- What a load in the offset mode leaves. -/
theorem State.syllable_load {s : State} {t a m op wd n : Nat} {x : RegSet} {y : LsSyl} (hr : s.readyAt t = true)
    (hs : y.stop = true) (hx : (s.tile t).cur = x) (hq : x.pred y.qp.toNat = true) (hm : y.mode = 0)
    (hw : lsWidth op = wd) (hn : max 1 (wd / 4) = n) (hop : op < 7) {k : Int} (hk : (wd : Int) = k)
    (ha : toU 32 ((x.pReg y.pn.toNat : Int) + y.imm.toInt * k) = a)
    (hc : s.coreAt t a wd = .mem m) (hal : a % wd = 0)
    (hg : y.Grouped op)
    (hd : noDup ((x.loaded op y.data.toNat (leNat (s.peekAll m wd)) n).map (·.1)) = true) :
    s.syllable t (y.word op) =
      s.issued t ((x.loaded op y.data.toNat (leNat (s.peekAll m wd)) n).foldl (fun r p => r.setD p.1 p.2) x) 0 := by
  subst hw hn
  have he := y.word_encodes (hop.trans (by decide) : op < 16)
  obtain ⟨far, hf⟩ := State.lsFx_load he hm hk ha hc hal hop
  rw [State.ls_writes hr hs hx hq (hop.trans (by decide)) (he.offset_ok (hop.trans (by decide)) hm hg _) hf
    (Fx.load_local far hd) rfl rfl, Fx.load_regs]
  rfl

/-- A load of one register. -/
theorem State.syllable_load_one {s : State} {t a m op wd : Nat} {x : RegSet} {y : LsSyl} (hr : s.readyAt t = true)
    (hs : y.stop = true) (hx : (s.tile t).cur = x) (hq : x.pred y.qp.toNat = true) (hm : y.mode = 0)
    (hw : lsWidth op = wd) (hn : max 1 (wd / 4) = 1) (hop : op < 5) {k : Int} (hk : (wd : Int) = k)
    (ha : toU 32 ((x.pReg y.pn.toNat : Int) + y.imm.toInt * k) = a)
    (hc : s.coreAt t a wd = .mem m) (hal : a % wd = 0) (hg : y.Grouped op) {v : Word} (hv : loadValue op (leNat (s.peekAll m wd)) 0 = v) :
    s.syllable t (y.word op) = s.issued t (x.setD (x.phys y.data.toNat) v) 0 := by
  rw [State.syllable_load hr hs hx hq hm hw hn (hop.trans (by decide)) hk ha hc hal hg
    (by simp [RegSet.loaded, upto, noDup, List.eraseDups_cons]), ← hv]
  rfl

theorem noDup_two {a b : Nat} (h : a ≠ b) : noDup [a, b] = true := by simp [noDup, List.eraseDups_cons, h.symm]

theorem noDup_four {a b c d : Nat} (hab : a ≠ b) (hac : a ≠ c) (had : a ≠ d) (hbc : b ≠ c) (hbd : b ≠ d) (hcd : c ≠ d) :
    noDup [a, b, c, d] = true := by
  simp [noDup, List.eraseDups_cons, hab.symm, hac.symm, had.symm, hbc.symm, hbd.symm, hcd.symm]

/-- Settles O35: a load writes the registers of its group from its words, in order. -/
theorem loadResults : Obligations.LoadResults := by
  unfold Obligations.LoadResults
  refine ⟨?_, ?_, ?_, ?_, ?_, ?_, ?_, ?_⟩
  · intro s t x y a m hr hs hx hq hm ha hc hal
    exact Res.next_congr (State.syllable_load_one (op := 0) (wd := 1) hr hs hx hq hm rfl rfl (by decide) rfl ha hc hal (y.grouped_one (by decide)) rfl)
  · intro s t x y a m hr hs hx hq hm ha hc hal
    exact Res.next_congr (State.syllable_load_one (op := 1) (wd := 1) hr hs hx hq hm rfl rfl (by decide) rfl ha hc hal (y.grouped_one (by decide)) (by simp [loadValue]))
  · intro s t x y a m hr hs hx hq hm ha hc hal
    exact Res.next_congr (State.syllable_load_one (op := 2) (wd := 2) hr hs hx hq hm rfl rfl (by decide) rfl ha hc hal (y.grouped_one (by decide)) rfl)
  · intro s t x y a m hr hs hx hq hm ha hc hal
    exact Res.next_congr (State.syllable_load_one (op := 3) (wd := 2) hr hs hx hq hm rfl rfl (by decide) rfl ha hc hal (y.grouped_one (by decide)) (by simp [loadValue]))
  · intro s t x y a m hr hs hx hq hm ha hc hal
    exact Res.next_congr (State.syllable_load_one (op := 4) (wd := 4) hr hs hx hq hm rfl rfl (by decide) rfl ha hc hal (y.grouped_one (by decide)) (by simp [loadValue]))
  · intro s t x y a m hr hs hx hq hm ha hc hal hd
    have hhalf : ∀ d : BitVec 6, d.toNat % 2 = 0 → d.toNat + 2 ≤ 32 ∨ 32 ≤ d.toNat := by decide
    have hne := x.phys_ne (d := y.data.toNat) (n := 2) (j := 0) (k := 1) (hhalf y.data hd) (by decide) (by decide) (by decide) (by decide)
    refine Res.next_congr ((State.syllable_load (op := 5) (wd := 8) (n := 2) hr hs hx hq hm rfl rfl (by decide) rfl ha hc hal
      ⟨fun _ => hd, fun h => absurd h (by decide), nofun⟩ (noDup_two hne)).trans ?_)
    rw [← s.peekAll_word m 0 4, ← s.peekAll_word m 1 0]
    rfl
  · intro s t x y a m hr hs hx hq hm ha hc hal hd
    have hhalf : ∀ d : BitVec 6, d.toNat % 4 = 0 → d.toNat + 4 ≤ 32 ∨ 32 ≤ d.toNat := by decide
    have hne (j k : Nat) (hj : j < 4) (hk : k < 4) (h : j ≠ k) := x.phys_ne (n := 4) (hhalf y.data hd) (by decide) hj hk h
    refine Res.next_congr ((State.syllable_load (op := 6) (wd := 16) (n := 4) hr hs hx hq hm rfl rfl (by decide) rfl ha hc hal
      ⟨fun h => absurd h (by decide), fun _ => hd, nofun⟩ (noDup_four (hne 0 1 (by decide) (by decide) (by decide)) (hne 0 2 (by decide) (by decide) (by decide))
        (hne 0 3 (by decide) (by decide) (by decide)) (hne 1 2 (by decide) (by decide) (by decide))
        (hne 1 3 (by decide) (by decide) (by decide)) (hne 2 3 (by decide) (by decide) (by decide)))).trans ?_)
    rw [← s.peekAll_word m 0 12, ← s.peekAll_word m 1 8, ← s.peekAll_word m 2 4, ← s.peekAll_word m 3 0]
    rfl
  · intro s t x y hr hs hx hq hm hd
    have he := y.word_encodes (by decide : 7 < 16)
    refine Res.next_congr ((State.ls_writes hr hs hx hq (by decide) (he.offset_ok (by decide) hm
      ⟨fun h => absurd h (by decide), fun h => absurd h (by decide), fun _ => hd⟩ _) (s.lsFx_lea t x he hm hd)
      (Fx.putX_local _ (Nat.ne_of_lt (hd.trans (by decide)))) rfl rfl).trans ?_)
    rw [Fx.putX_regs, Fx.putX_count]

/-- What a store in the offset mode leaves. -/
theorem State.syllable_store {s : State} {t a m op wd n : Nat} {x : RegSet} {y : LsSyl} (hr : s.readyAt t = true)
    (hs : y.stop = true) (hx : (s.tile t).cur = x) (hq : x.pred y.qp.toNat = true) (hm : y.mode = 0)
    (hw : lsWidth op = wd) (hn : max 1 (wd / 4) = n) (hop : 7 < op ∧ op < 0xD)
    {k : Int} (hk : (wd : Int) = k)
    (ha : toU 32 ((x.pReg y.pn.toNat : Int) + y.imm.toInt * k) = a) (hc : s.coreAt t a wd = .mem m) (hal : a % wd = 0)
    (hg : y.Grouped op) {bs : List Byte}
    (hb : leBytes wd (x.stored y.data.toNat n % 2 ^ (8 * wd)) = bs) :
    s.syllable t (y.word op) = ((s.bundleTaken t x 0).pokeAll m bs).goTo t x.after := by
  subst hw hn hb
  have he := y.word_encodes (hop.2.trans (by decide) : op < 16)
  have hsat : { x with sat := x.sat || lt 0 0 } = x := by rw [show lt 0 0 = false from rfl, Bool.or_false]
  rw [State.ls_stores hr hs hx hq (hop.2.trans (by decide)) (he.offset_ok (hop.2.trans (by decide)) hm hg _)
    (State.lsFx_store he hm hk ha hc hal hop), hsat]

@[simp] theorem RegSet.stored_one (x : RegSet) (d : Nat) : x.stored d 1 = (x.dReg d).toNat := by simp [RegSet.stored, upto]

/-- Words in order, as the digits of a number. -/
theorem digits_two (f : Nat → Nat) (b : Nat) : ((upto 2).map fun k => f k * b ^ k).foldl (· + ·) 0 = f 0 + f 1 * b := by
  simp [upto, List.range_succ]

theorem digits_four (f : Nat → Nat) (b : Nat) :
    ((upto 4).map fun k => f k * b ^ k).foldl (· + ·) 0 = f 0 + (f 1 + (f 2 + f 3 * b) * b) * b := by
  simp [upto, List.range_succ]
  ring

theorem RegSet.stored_two (x : RegSet) (d : Nat) :
    x.stored d 2 = (x.dReg (d + 0)).toNat + (x.dReg (d + 1)).toNat * 2 ^ 32 := by
  simp only [RegSet.stored, pow_mul, digits_two]

theorem RegSet.stored_four (x : RegSet) (d : Nat) :
    x.stored d 4 = (x.dReg (d + 0)).toNat +
      ((x.dReg (d + 1)).toNat + ((x.dReg (d + 2)).toNat + (x.dReg (d + 3)).toNat * 2 ^ 32) * 2 ^ 32) * 2 ^ 32 := by
  simp only [RegSet.stored, pow_mul, digits_four]

/-- The bytes of a wide value are those of its registers in order. -/
theorem RegSet.stored_two_bytes (x : RegSet) (d : Nat) :
    leBytes 8 (x.stored d 2 % 2 ^ (8 * 8)) = (upto 2).flatMap fun k => u32 (x.dReg (d + k)).toNat := by
  have hr : (upto 2).flatMap (fun k => u32 (x.dReg (d + k)).toNat) = u32 (x.dReg (d + 0)).toNat ++ u32 (x.dReg (d + 1)).toNat := by
    simp [upto, List.range_succ]
  rw [show (2 : Nat) ^ (8 * 8) = 256 ^ 8 by norm_num, leBytes_mod, x.stored_two, hr, u32_append_leBytes _ 4, u32, u32]

theorem RegSet.stored_four_bytes (x : RegSet) (d : Nat) :
    leBytes 16 (x.stored d 4 % 2 ^ (8 * 16)) = (upto 4).flatMap fun k => u32 (x.dReg (d + k)).toNat := by
  have hr : (upto 4).flatMap (fun k => u32 (x.dReg (d + k)).toNat) = u32 (x.dReg (d + 0)).toNat ++ (u32 (x.dReg (d + 1)).toNat ++
      (u32 (x.dReg (d + 2)).toNat ++ u32 (x.dReg (d + 3)).toNat)) := by
    simp [upto, List.range_succ]
  rw [show (2 : Nat) ^ (8 * 16) = 256 ^ 16 by norm_num, leBytes_mod, x.stored_four, hr, u32_append_leBytes _ 12,
    u32_append_leBytes _ 8, u32_append_leBytes _ 4]
  rfl

/-- Settles O36: a store writes the words of its group, in order, whose bytes are those of the wide value. -/
theorem storeResults : Obligations.StoreResults := by
  unfold Obligations.StoreResults
  refine ⟨?_, ?_, ?_, ?_, ?_, ?_⟩
  · intro s t x y a m hr hs hx hq hm ha hc hal
    exact Res.next_congr (State.syllable_store (op := 8) (wd := 1) (n := 1) hr hs hx hq hm rfl rfl (by decide) rfl ha hc hal (y.grouped_one (by decide))
      (by rw [RegSet.stored_one]))
  · intro s t x y a m hr hs hx hq hm ha hc hal
    exact Res.next_congr (State.syllable_store (op := 9) (wd := 2) (n := 1) hr hs hx hq hm rfl rfl (by decide) rfl ha hc hal (y.grouped_one (by decide))
      (by rw [RegSet.stored_one]))
  · intro s t x y a m hr hs hx hq hm ha hc hal
    exact Res.next_congr (State.syllable_store (op := 0xA) (wd := 4) (n := 1) hr hs hx hq hm rfl rfl (by decide) rfl ha hc hal (y.grouped_one (by decide))
      (by rw [RegSet.stored_one]))
  · intro s t x y a m hr hs hx hq hm ha hc hal hd
    refine Res.next_congr (State.syllable_store (op := 0xB) (wd := 8) (n := 2) hr hs hx hq hm rfl rfl (by decide) rfl ha hc hal
      ⟨fun _ => hd, fun h => absurd h (by decide), nofun⟩ ?_)
    exact x.stored_two_bytes _
  · intro s t x y a m hr hs hx hq hm ha hc hal hd
    refine Res.next_congr (State.syllable_store (op := 0xC) (wd := 16) (n := 4) hr hs hx hq hm rfl rfl (by decide) rfl ha hc hal
      ⟨fun h => absurd h (by decide), fun _ => hd, nofun⟩ ?_)
    exact x.stored_four_bytes _
  · intro s t x y a m n hr hs hx hq hm ha hc hal hn hb
    have he := y.word_encodes (by decide : 0xD < 16)
    exact Res.next_congr (State.ls_stores hr hs hx hq (by decide) (he.offset_ok (by decide) hm (y.grouped_one (by decide)) _)
      (State.lsFx_stac he hm ha hc hal hn hb))

end Sys2Proof.Machine
end

section
/-!
PROOF. A cycle of the control complex alone (03 R84, 20 R592, R606).
-/
namespace Sys2Proof.Machine

/-- In BYPASS with the time base stopped no edge falls in a cycle. -/
theorem State.tick_bypass {s : State} (hr : s.tb.running = false) (hc : s.get Reg.CLK_STAT_STATE.z < 2) : s.tick = s := by
  have hle : le 2 (s.get Reg.CLK_STAT_STATE.z) = false := decide_eq_false (by lia)
  rw [State.tick, hr, hle, Bool.or_false, cond_false]

/-- In BYPASS every fourth cycle is a CK_SLOW edge. -/
theorem State.clockTick_bypass {s : State} (hc : s.get Reg.CLK_STAT_STATE.z < 2) :
    s.clockTick = { s with ctl := { s.ctl with
      slow := if s.ctl.slow + 1 < 4 then s.ctl.slow + 1 else 0,
      uptime := s.ctl.uptime + 2 ^ 48 / max 1 s.fcore,
      rcSlow := if s.ctl.slow + 1 < 4 then s.ctl.rcSlow else s.regs } } := by
  have hle : le (s.get Reg.CLK_STAT_STATE.z) 1 = true := decide_eq_true (by lia)
  rw [State.clockTick, hle, cond_true]
  by_cases h : s.ctl.slow + 1 < 4
  · rw [show le 4 (s.ctl.slow + 1) = false from decide_eq_false (by lia), cond_false]
    simp only [h, if_true]
  · rw [show le 4 (s.ctl.slow + 1) = true from decide_eq_true (by lia), cond_true]
    simp only [h, if_false]
    rfl

/-- Out of degradation and with the signal path at rest, a cycle is its clock tick. -/
theorem State.cycle_resting {s u : State} (ht : s.tick = s) (hu : s.clockTick = u) (hd : u.adm.degrSince = none)
    (hm : u.runs = false) : s.cycle = u := by
  have hdegr : u.degrTime = u := by unfold State.degrTime; rw [hd]
  rw [State.cycle, ht, hu, hdegr, hm, cond_false]

/-- Settles O2: of the parts of a cycle only the control complex's own clock moves. -/
theorem emptyQueueTakesOneCycle : Obligations.EmptyQueueTakesOneCycle :=
  ⟨fun _ => step_of_empty, fun _ hr hc hm hd => State.cycle_resting (State.tick_bypass hr hc) (State.clockTick_bypass hc) hd hm⟩

end Sys2Proof.Machine
end

section
/-!
SUPPORT. What the operations on one input (04 R139 to R143, R124) leave alone: every register but the input's own words and the
ingress's lost products, the lanes, the other inputs, what is pending, and the parts of the state that no input belongs to.
-/
namespace Sys2Proof.Machine

/-- The words of input `n`'s state, declared rate, counters, gap samples, sketch frame faults and residual, and that of the
ingress's lost products. -/
def inputPlace (n : Nat) (l : Loc) : Prop :=
  l.off = 0x1001800 + 4 * n ∨ l.off = 0x1001A00 + 4 * n ∨ l.off = 0x1001C00 + 4 * n ∨ l.off = 0x1002000 + 8 * n ∨
    l.off = 0x1002004 + 8 * n ∨ l.off = 0x1401E00 + 4 * n ∨ l.off = 0x201200 + 4 * n ∨ l.off = 0x3E00100 + 4 * Blk.ingress.code

/-- Where the words of the inputs begin. -/
noncomputable def inputWords : List Nat :=
  [0x1001800, 0x1001A00, 0x1001C00, 0x1002000, 0x1002004, 0x1401E00, 0x201200, 0x3E00100 + 4 * Blk.ingress.code]

theorem inputPlace.word {n : Nat} {l : Loc} (h : inputPlace n l) : ∃ a ∈ inputWords, ∃ b ≤ 8 * n, l.off = a + b := by
  have h48 : 4 * n ≤ 8 * n := Nat.mul_le_mul_right n (by decide)
  rcases h with h | h | h | h | h | h | h | h
  exacts [⟨_, by decide, _, h48, h⟩, ⟨_, by decide, _, h48, h⟩, ⟨_, by decide, _, h48, h⟩, ⟨_, by decide, _, le_rfl, h⟩,
    ⟨_, by decide, _, le_rfl, h⟩, ⟨_, by decide, _, h48, h⟩, ⟨_, by decide, _, h48, h⟩, ⟨_, by decide, 0, Nat.zero_le _, h⟩]

theorem inputPlace.low {n : Nat} {l : Loc} (h : inputPlace n l) : 0x201200 ≤ l.off := by
  obtain ⟨a, ha, b, -, ho⟩ := h.word
  exact ho ▸ ((by decide : ∀ a ∈ inputWords, 0x201200 ≤ a) a ha).trans (Nat.le_add_right ..)

theorem inputPlace.bounds {n : Nat} {l : Loc} (h : inputPlace n l) (hn : n < 128) :
    (0x1001800 ≤ l.off ∧ l.off < 0x1002400) ∨ 0x1401E00 ≤ l.off ∨ l.off < 0x201600 := by
  obtain ⟨a, ha, b, hb, ho⟩ := h.word
  have hb' : a + b ≤ a + 1016 := Nat.add_le_add_left (hb.trans (Nat.mul_le_mul_left 8 (Nat.le_of_lt_succ hn))) a
  have hw := (by decide : ∀ a ∈ inputWords, (0x1001800 ≤ a ∧ a + 1016 < 0x1002400) ∨ 0x1401E00 ≤ a ∨ a + 1016 < 0x201600) a ha
  rw [ho]
  exact hw.imp (fun h => ⟨h.1.trans (Nat.le_add_right ..), hb'.trans_lt h.2⟩)
    (Or.imp (fun h => h.trans (Nat.le_add_right ..)) hb'.trans_lt)

/-- Between the words of an input and those of the others' states lie other words. -/
theorem inputPlace.outside {n : Nat} {l : Loc} (h : inputPlace n l) (hn : n < 128) {o : Nat}
    (ho : (0x201600 ≤ o ∧ o < 0x1001800) ∨ (0x1002400 ≤ o ∧ o < 0x1401E00)) : o ≠ l.off := by
  rcases h.bounds hn with ⟨hlow, hhigh⟩ | hhigh | hlow
  · exact ho.elim (fun k => Nat.ne_of_lt (k.2.trans_le hlow)) fun k => Nat.ne_of_gt (hhigh.trans_le k.1)
  · exact Nat.ne_of_lt ((ho.elim (fun k => k.2.trans (by decide)) And.right).trans_le hhigh)
  · exact Nat.ne_of_gt (hlow.trans_le (ho.elim And.left fun k => le_trans (by decide) k.1))

/-- A word of element `n` of 4 bytes each. -/
theorem word4 (a n : Nat) : a + (n * 4 + 0) = a + 4 * n := congrArg (a + ·) (Nat.mul_comm n 4)

theorem word4_ne {a b : Nat} (h : a ≠ b) (n : Nat) : a + (n * 4 + 0) ≠ b + 4 * n := fun e => h (Nat.add_right_cancel ((word4 a n).symm.trans e))

/-- An input's state and its count of spoilt frames are its own. -/
theorem inputPlace.ne {n k : Nat} {l : Loc} {o : Nat} (h : inputPlace k l) (hk : k < 128) (hn : n < 128) (hne : k ≠ n)
    (ho : o = 0x1001800 + 4 * n ∨ o = 0x1001C00 + 4 * n) : o ≠ l.off := by
  unfold inputPlace at h
  lia

/-- Cause bit `c` of input `n`. -/
noncomputable abbrev causeLoc (n c : Nat) : Loc := { Reg.ING_ISTAT_CAUSE.e n with lo := c, w := 1 }

/-- From `s` to `t` input `n` alone has changed, none of its causes has been cleared, and no event has ceased to be pending. -/
structure OnInput (n : Nat) (s t : State) : Prop where
  writes : Writes (inputPlace n) s t
  causes : ∀ c ≤ 15, s.on (causeLoc n c) = true → t.on (causeLoc n c) = true
  pends : ∀ m < 512, s.on (evPend m) = true → t.on (evPend m) = true
  others : ∀ k, k ≠ n → t.inp k = s.inp k
  lanes : (t.ing.lanes, t.ing.lanesLeft) = (s.ing.lanes, s.ing.lanesLeft)
  stopped : t.ctl.tvStopped = s.ctl.tvStopped
  mem : t.mem = s.mem
  tls : t.tls = s.tls
  dma : t.dma = s.dma
  tb : t.tb = s.tb
  dsp : t.dsp = s.dsp
  sec : t.sec = s.sec
  pending : t.pending = s.pending

theorem State.inp_setInp_same (s : State) (n : Nat) (x : Input) : (s.setInp n x).inp n = x := by simp [State.inp, State.setInp]
theorem State.inp_setInp_ne (s : State) {n k : Nat} (x : Input) (h : k ≠ n) : (s.setInp n x).inp k = s.inp k := by
  simp only [State.inp, State.setInp, tget_tset_ne _ _ h]

/-- Bits above a word are not kept. -/
theorem State.get_put_beyond (s : State) (l m : Loc) (h : 32 ≤ l.lo) (v : Nat) : (s.put l v).get m = s.get m := by
  by_cases ho : m.off = l.off
  · have hx : (s.word l.off).toNat < 2 ^ l.lo := (s.word l.off).isLt.trans_le (Nat.pow_le_pow_right (by decide) h)
    have hd : 2 ^ 32 ∣ v % 2 ^ l.w * 2 ^ l.lo := Dvd.dvd.mul_left (pow_dvd_pow 2 h) _
    have hhi : (s.word l.off).toNat / 2 ^ (l.lo + l.w) = 0 :=
      Nat.div_eq_of_lt (hx.trans_le (Nat.pow_le_pow_right (by decide) (Nat.le_add_right ..)))
    have hw : (s.put l v).word l.off = s.word l.off := by
      refine BitVec.eq_of_toNat_eq ?_
      rw [State.word_put_same, BitVec.toNat_ofNat]
      unfold putBits
      rw [hhi, Nat.zero_mul, Nat.add_zero, Nat.mod_eq_of_lt hx, Nat.add_mod, Nat.mod_eq_zero_of_dvd hd, Nat.add_zero, Nat.mod_mod, Nat.mod_eq_of_lt (s.word l.off).isLt]
    rw [State.get, ho, hw, State.get, ho]
  · exact State.get_put_other s l m v (.inl ho)

namespace OnInput

variable {n : Nat}

theorem refl (s : State) : OnInput n s s :=
  ⟨.refl s, fun _ _ => id, fun _ _ => id, fun _ _ => rfl, rfl, rfl, rfl, rfl, rfl, rfl, rfl, rfl, rfl⟩

theorem trans {a b c : State} (h : OnInput n a b) (k : OnInput n b c) : OnInput n a c := by
  obtain ⟨hw, hc, hp, ho, h1, h2, h3, h4, h5, h6, h7, h8, h9⟩ := h
  obtain ⟨kw, kc, kp, ko, k1, k2, k3, k4, k5, k6, k7, k8, k9⟩ := k
  exact ⟨hw.trans kw, fun c hle => kc c hle ∘ hc c hle, fun m hm => kp m hm ∘ hp m hm, fun j hj => (ko j hj).trans (ho j hj),
    k1.trans h1, k2.trans h2, k3.trans h3, k4.trans h4, k5.trans h5, k6.trans h6, k7.trans h7, k8.trans h8, k9.trans h9⟩

theorem cond {s a b : State} (c : Bool) (ha : OnInput n s a) (hb : OnInput n s b) : OnInput n s (bif c then a else b) := by
  cases c <;> assumption

theorem foldl {β : Type} {f : State → β → State} (h : ∀ a b, OnInput n a (f a b)) (l : List β) (s : State) :
    OnInput n s (l.foldl f s) := by
  induction l generalizing s with
  | nil => exact refl s
  | cons b l ih => exact (h s b).trans (ih _)

/-- A change of the input's own values, of what has closed or of the calibration. -/
theorem inner {s t : State} (hr : t.regs = s.regs) (ho : ∀ k, k ≠ n → t.inp k = s.inp k)
    (hl : (t.ing.lanes, t.ing.lanesLeft) = (s.ing.lanes, s.ing.lanesLeft))
    (hc : t.ctl = s.ctl) (hm : t.mem = s.mem) (ht : t.tls = s.tls) (hd : t.dma = s.dma) (hb : t.tb = s.tb) (hs : t.dsp = s.dsp)
    (he : t.sec = s.sec) (hp : t.pending = s.pending) : OnInput n s t :=
  ⟨.of_regs hr, fun _ _ h => by rwa [State.on_congr hr], fun _ _ h => by rwa [State.on_congr hr], ho, hl, by rw [hc], hm, ht, hd, hb,
    hs, he, hp⟩

theorem setInp (s : State) (x : Input) : OnInput n s (s.setInp n x) :=
  inner rfl (fun _ h => s.inp_setInp_ne x h) rfl rfl rfl rfl rfl rfl rfl rfl rfl

theorem close (s : State) (st : Nat) (r : Record) : OnInput n s (s.close st r) :=
  inner rfl (fun _ _ => rfl) rfl rfl rfl rfl rfl rfl rfl rfl rfl

theorem calFail (s : State) (ops states : List Nat) (k code : Nat) : OnInput n s (s.calFail ops states k code) := by
  unfold State.calFail
  cases s.stm.run with
  | none => exact refl s
  | some r => exact cond _ (inner rfl (fun _ _ => rfl) rfl rfl rfl rfl rfl rfl rfl rfl rfl) (refl s)

theorem gapRecord (s : State) (k kind : Nat) (g : Gap) (len : Nat) : OnInput n s (s.gapRecord k kind g len) :=
  foldl (fun a b => close a b _) _ s

theorem ev (s : State) {m : Nat} (h : m < 512) : OnInput n s (s.ev m) where
  writes := .ev s h
  causes c hc hon := by
    by_cases he : eventWord (causeLoc n c).off
    · exact absurd he (not_eventWord (by
        exact .inr (.inr (le_trans (by decide : 0x104000 ≤ 0x1001800) (Nat.le_add_right ..)))))
    · rwa [State.on_ev s m _ h he]
  pends k _ hk := (PendKept.raise s m s.now).1 k hk
  others k _ := by rw [State.inp, State.ev_ing, State.inp]
  lanes := by simp
  stopped := by simp
  mem := by simp
  tls := by simp
  dma := by simp
  tb := by simp
  dsp := by simp
  sec := by simp
  pending := by simp

/-- A write of one of the input's words that leaves its causes. -/
theorem put (s : State) {l : Loc} (v : Nat) (h : inputPlace n l) (hc : l.off ≠ 0x1001800 + 4 * n ∨ 16 ≤ l.lo ∧ l.lo + l.w ≤ 32) :
    OnInput n s (s.put l v) where
  writes := .put s v h
  causes c hle hon := by
    refine (State.on_put_apart s v ?_).trans hon
    rcases hc with hc | ⟨hlo, hw⟩
    · exact .inl fun e => hc (e.symm.trans (word4 0x1001800 n))
    · exact .inr ⟨hw, .inl ((Nat.succ_le_succ hle).trans hlo)⟩
  pends m hm hon := by
    refine (State.on_put_apart s v (.inl ?_)).trans hon
    exact Nat.ne_of_lt ((evPend_range hm).2.trans_le (le_trans (by decide) h.low))
  others _ _ := rfl
  lanes := rfl
  stopped := rfl
  mem := rfl
  tls := rfl
  dma := rfl
  tb := rfl
  dsp := rfl
  sec := rfl
  pending := rfl

/-- A cause is set. -/
theorem flagCause (s : State) (c : Nat) : OnInput n s (s.flag (causeLoc n c) true) where
  writes := .flag s true (.inl (word4 0x1001800 n))
  causes k hle hon := by
    by_cases hk : k = c
    · rw [hk] at hle ⊢
      exact State.on_flag_same s _ true ((Nat.succ_le_succ hle).trans (by decide)) (by decide : 1 ≤ 1)
    · by_cases hc : c < 32
      · refine (State.on_flag_apart s true (.inr ⟨?_, ?_⟩)).trans hon
        · exact hc
        · exact Nat.lt_or_gt_of_ne hk
      · rwa [State.on, State.flag, State.get_put_beyond s (causeLoc n c) _ (Nat.le_of_not_lt hc), ← State.on]
  pends m hm hon := by
    refine (State.on_flag_apart s true (.inl ?_)).trans hon
    exact Nat.ne_of_lt ((evPend_range hm).2.trans_le (le_trans (by decide : 0x104000 ≤ 0x1001800) (Nat.le_add_right ..)))
  others _ _ := rfl
  lanes := rfl
  stopped := rfl
  mem := rfl
  tls := rfl
  dma := rfl
  tb := rfl
  dsp := rfl
  sec := rfl
  pending := rfl

section
variable (hn : n < 128)
include hn

theorem event_lt : 112 + n < 512 := (Nat.add_lt_add_left hn 112).trans (by decide)

theorem causeBit (s : State) (c : Nat) : OnInput n s (s.causeBit n c) :=
  cond _ (refl s) ((flagCause s c).trans (ev _ (event_lt hn)))

theorem ingState (s : State) : OnInput n s (s.ingState n) := by
  have ho {f : Fld} (hf : f.off = 0x1001800) (hd : f.dims = [(0x4, 128)]) : inputPlace n (f.e n) := by
    refine .inl ?_
    rw [Fld.e_off, hf, hd]
    exact word4 _ n
  have h (v : Nat) := (put s v (ho (f := Reg.ING_ISTAT_STATE) rfl rfl) (.inr (by decide : 16 ≤ 28 ∧ 28 + 4 ≤ 32))).trans
    (ev _ (event_lt hn))
  exact cond _ (refl s) (cond _ ((h _).trans (put _ _ (ho (f := Reg.ING_ISTAT_UP) rfl rfl) (.inr (by decide : 16 ≤ 16 ∧ 16 + 1 ≤ 32))))
    (h _))

theorem gapOpen (s : State) (c : Nat) : OnInput n s (s.gapOpen n c) := by
  unfold State.gapOpen
  extract_lets +onlyGivenNames x l g a b
  have ha : OnInput n s a := foldl (fun a b => causeBit hn a b) _ s
  have hb : OnInput n s b := ha.trans ((setInp _ _).trans (calFail ..))
  exact hb.trans ((gapRecord _ n 1 g _).trans (ev _ (event_lt hn)))

theorem gapCause (s : State) (c : Nat) : OnInput n s (s.gapCause n c) := by
  unfold State.gapCause
  extract_lets +onlyGivenNames a
  have ha : OnInput n s a := causeBit hn s c
  clear_value a
  cases (a.inp n).gap with
  | none => exact ha.trans (cond _ (gapOpen hn a c) (refl a))
  | some g => exact ha.trans (setInp ..)

theorem causeLater (s : State) (c : Nat) : OnInput n s (s.causeLater n c) := by
  unfold State.causeLater
  dsimp only
  cases (s.inp n).gap with
  | none => exact setInp ..
  | some g => exact gapCause hn s c

theorem gapShared (s : State) (c : Nat) : OnInput n s (s.gapShared n c) := by
  unfold State.gapShared
  extract_lets +onlyGivenNames _ q a
  have ha : OnInput n s a := gapCause hn s c
  clear_value a
  extract_lets +onlyGivenNames b
  have hb : OnInput n s b := ha.trans (cond _ (ev a (event_lt hn)) (refl a))
  clear_value b
  exact hb.trans ((setInp ..).trans (ingState hn _))

omit hn in
/-- SPOIL counts. -/
theorem spoil (s : State) (k : Nat) : OnInput n s (s.count (Reg.ING_SPOIL_SPOIL.e n) k) :=
  put s _ (.inr (.inr (.inl (word4 0x1001C00 n)))) (.inl (word4_ne (a := 0x1001C00) (by decide) n))

theorem degrLoss (s : State) (k : Nat) : OnInput n s (s.degrLoss .ingress k) := by
  have ho : (Reg.ADM_DLOSS_COUNT.e Blk.ingress.code).off = 0x3E00100 + 4 * Blk.ingress.code := rfl
  have hlow : 0x1001800 + 4 * n < 0x1001800 + 4 * 128 := Nat.add_lt_add_left (Nat.mul_lt_mul_of_pos_left hn (by decide)) _
  refine cond _ (put s _ ?_ (.inl (Nat.ne_of_gt (hlow.trans_le (le_trans (by decide) (Nat.le_add_right 0x3E00100 _)))))) (refl s)
  unfold inputPlace
  exact .inr (.inr (.inr (.inr (.inr (.inr (.inr ho))))))

omit hn in
theorem faultNotice (s : State) (first len k : Nat) : OnInput n s (s.faultNotice n first len k) := by
  have hp : inputPlace n (Reg.CCH_SKFF_COUNT.e n) := .inr (.inr (.inr (.inr (.inr (.inl (word4 0x1401E00 n))))))
  exact cond _ (refl s) ((setInp ..).trans ((put _ _ hp (.inl (word4_ne (a := 0x1401E00) (by decide) n))).trans (ev _ (by decide))))

omit hn in
theorem fastEnd (s : State) (first len : Nat) (bad : Bool) : OnInput n s (s.fastEnd n first len bad) := by
  unfold State.fastEnd
  extract_lets +onlyGivenNames x u fr a
  have ha : OnInput n s a := setInp ..
  clear_value a
  exact ha.trans (cond _ (faultNotice ..) (refl a))

theorem discard (s : State) (c : Nat) : OnInput n s (s.discard n c) := by
  unfold State.discard
  extract_lets +onlyGivenNames a
  have ha : OnInput n s a := spoil s 1
  clear_value a
  extract_lets +onlyGivenNames b
  have hb : OnInput n s b := ha.trans (cond _ (degrLoss hn a 1) (refl a))
  clear_value b
  extract_lets +onlyGivenNames d
  have hd : OnInput n s d := hb.trans (gapCause hn b c)
  clear_value d
  exact hd.trans ((setInp ..).trans (ingState hn _))

theorem inputFails (s : State) (c : Nat) : OnInput n s (s.inputFails c n) :=
  cond _ (refl s) (cond _ ((discard hn s c).trans (fastEnd ..)) (gapCause hn s c))

end
end OnInput

/-! ### Several inputs -/

/-- From `s` to `t` the inputs that meet `p` alone have changed. -/
inductive OnInputs (p : Nat → Prop) : State → State → Prop
  | refl (s : State) : OnInputs p s s
  | step {s t u : State} {n : Nat} (hp : p n) (hn : n < 128) (h : OnInputs p s t) (k : OnInput n t u) : OnInputs p s u

namespace OnInputs

variable {p : Nat → Prop} {s t : State}

theorem trans {u : State} (h : OnInputs p s t) (k : OnInputs p t u) : OnInputs p s u := by
  induction k with
  | refl => exact h
  | step hp hn _ k ih => exact .step hp hn ih k

theorem foldl {f : State → Nat → State} (h : ∀ a, ∀ n < 128, OnInput n a (f a n)) (l : List Nat) (hp : ∀ n ∈ l, p n ∧ n < 128)
    (s : State) : OnInputs p s (l.foldl f s) := by
  suffices hs : ∀ u, OnInputs p s u → OnInputs p s (l.foldl f u) from hs s (.refl s)
  induction l with
  | nil => exact fun _ hu => hu
  | cons n l ih =>
    intro u hu
    obtain ⟨hpn, hn⟩ := hp n (.head _)
    exact ih (fun b hb => hp b (.tail _ hb)) _ (hu.step hpn hn (h u n hn))

theorem get (h : OnInputs p s t) (l : Loc) (he : ¬ eventWord l.off) (hl : ∀ n < 128, ∀ m, p n → inputPlace n m → l.off ≠ m.off) :
    t.get l = s.get l := by
  induction h with
  | refl => rfl
  | step hp hn _ k ih => rw [k.writes.get l he fun m hm => .inl (hl _ hn m hp hm), ih]

theorem lane_eq (h : OnInputs p s t) (l : Nat) : t.lane l = s.lane l := by
  induction h with
  | refl => rfl
  | step _ _ _ k ih => rw [State.lane, (Prod.mk.inj k.lanes).1, ← State.lane, ih]

/-- An input that is none of them stays. -/
theorem inp_eq (h : OnInputs p s t) {k : Nat} (hk : ¬ p k) : t.inp k = s.inp k := by
  induction h with
  | refl => rfl
  | step hp _ _ o ih => rw [o.others k (fun e => hk (e ▸ hp)), ih]

theorem pends (h : OnInputs p s t) {m : Nat} (hm : m < 512) (hon : s.on (evPend m) = true) : t.on (evPend m) = true := by
  induction h with
  | refl => exact hon
  | step _ _ _ k ih => exact k.pends m hm ih

/-- What is outside the ingress stays. -/
theorem outside (h : OnInputs p s t) : t.mem = s.mem ∧ t.tls = s.tls ∧ t.dma = s.dma ∧ t.tb = s.tb ∧ t.dsp = s.dsp ∧ t.sec = s.sec ∧
    t.pending = s.pending := by
  induction h with
  | refl => exact ⟨rfl, rfl, rfl, rfl, rfl, rfl, rfl⟩
  | step _ _ _ k ih =>
    obtain ⟨h1, h2, h3, h4, h5, h6, h7⟩ := ih
    exact ⟨k.mem.trans h1, k.tls.trans h2, k.dma.trans h3, k.tb.trans h4, k.dsp.trans h5, k.sec.trans h6, k.pending.trans h7⟩

end OnInputs

theorem fedBy_lt (s : State) (l : Nat) : ∀ n ∈ s.fedBy l, True ∧ n < 128 := fun _ h =>
  ⟨trivial, List.mem_range.mp (List.mem_filter.mp h).1⟩

theorem OnInputs.laneFails (s : State) (l c : Nat) : OnInputs (fun _ => True) s (s.laneFails l c) :=
  .foldl (fun a _ h => .inputFails h a c) _ (fedBy_lt s l) s

/-- The inputs of lane `l` follow its state. -/
theorem OnInputs.laneFollow (s : State) (l v : Nat) : OnInputs (fun _ => True) (s.put (laneState l) v) (s.laneTo l v) :=
  .foldl (fun a _ h => .ingState h a) _ (fedBy_lt s l) _

/-! ### A lane's own words -/

theorem lstat_off (f : Fld) (hf : f.off = 0x1000600) (hd : f.dims = [(0x4, 128)]) (l : Nat) : (f.e l).off = 0x1000600 + 4 * l := by
  rw [Fld.e_off, hf, hd]
  exact word4 _ l

theorem laneState_off (l : Nat) : (laneState l).off = 0x1000600 + 4 * l := lstat_off _ rfl rfl l

/-- A word of a lane's state is none of the inputs'. -/
theorem OnInputs.lane_word {p : Nat → Prop} {s t : State} (h : OnInputs p s t) {l : Loc} {k : Nat} (hk : k < 128)
    (hl : l.off = 0x1000600 + 4 * k) : t.get l = s.get l := by
  have hhigh : 0x1000600 + 4 * k < 0x1001800 := (Nat.add_lt_add_left (Nat.mul_lt_mul_of_pos_left hk (by decide)) _).trans (by decide)
  have hlow : 0x1000600 ≤ 0x1000600 + 4 * k := Nat.le_add_right ..
  rw [← hl] at hhigh hlow
  exact h.get l (not_eventWord (.inr (.inr (le_trans (by decide) hlow)))) fun n hn m _ hm =>
    hm.outside hn (.inl ⟨le_trans (by decide) hlow, hhigh⟩)

theorem OnInputs.laneState {p : Nat → Prop} {s t : State} (h : OnInputs p s t) {k : Nat} (hk : k < 128) :
    t.get (laneState k) = s.get (laneState k) := h.lane_word hk (laneState_off k)

end Sys2Proof.Machine
end

section
/-!
PROOF. The lanes (04 R115 to R119, R138): what each lane command changes, and what it leaves alone.
-/
namespace Sys2Proof.Machine

/-! ### A lane takes a state -/

section
variable {s : State} {l v : Nat} (hl : l < 128)
include hl

/-- A lane that takes state `v` shows it. -/
theorem State.laneTo_state (hv : v < 16) : (s.laneTo l v).get (laneState l) = v := by
  rw [(OnInputs.laneFollow s l v).laneState hl, State.get_put_same s _ v (by decide : 28 + 4 ≤ 32)]
  exact Nat.mod_eq_of_lt hv

/-- The counts of the lane's word stay. -/
theorem State.laneTo_count {m : Loc} (hm : m.off = 0x1000600 + 4 * l) (hc : m.lo + m.w ≤ 28) : (s.laneTo l v).get m = s.get m := by
  rw [(OnInputs.laneFollow s l v).lane_word hl hm]
  exact State.get_put_other s (Sys2Proof.Machine.laneState l) m v (.inr ⟨(by decide : 28 + 4 ≤ 32), .inl hc⟩)

end

@[simp] theorem State.laneTo_lane (s : State) (l v k : Nat) : (s.laneTo l v).lane k = s.lane k := by
  rw [(OnInputs.laneFollow s l v).lane_eq k, State.lane, State.put_ing, State.lane]

@[simp] theorem State.lane_setLane (s : State) (l : Nat) (x : Lane) : (s.setLane l x).lane l = x := by
  simp [State.lane, State.setLane]

@[simp] theorem State.get_setLane (s : State) (l : Nat) (x : Lane) (m : Loc) : (s.setLane l x).get m = s.get m := rfl
@[simp] theorem State.get_laneAnew (s : State) (l : Nat) (b : Bool) (m : Loc) : (s.laneAnew l b).get m = s.get m := rfl

@[simp] theorem State.lane_laneAnew (s : State) (l : Nat) (b : Bool) :
    (s.laneAnew l b).lane l = { s.lane l with full := b, lmbs := [], hunting := true } := by
  unfold State.laneAnew
  rw [State.lane_setLane]

theorem loscnt_off (l : Nat) : (Reg.ING_LSTAT_LOSCNT.e l).off = 0x1000600 + 4 * l := lstat_off _ rfl rfl l
theorem adaptcnt_off (l : Nat) : (Reg.ING_LSTAT_ADAPTCNT.e l).off = 0x1000600 + 4 * l := lstat_off _ rfl rfl l

theorem satAdd_lt (n x k : Nat) : satAdd n x k < 2 ^ n := by
  unfold satAdd
  split
  case isTrue => exact Nat.sub_lt (Nat.two_pow_pos n) Nat.one_pos
  case isFalse h => exact Nat.lt_of_not_le h

/-- A counter counts, saturating. -/
theorem State.get_count (s : State) (l : Loc) (k : Nat) (h : l.lo + l.w ≤ 32) :
    (s.count l k).get l = satAdd l.w (s.get l) k := by
  unfold State.count
  rw [State.get_put_same _ _ _ h, Nat.mod_eq_of_lt (satAdd_lt ..)]

/-! ### The commands -/

/-- Lane `x` after its adaptation: a full one has stored its equalisation. -/
noncomputable def Lane.adapted (x : Lane) : Lane := { x with stored := x.stored || x.full, full := false, lmbs := [], hunting := true }

/-- Settles O16: every state the commands give is the one `laneTo` shows. -/
theorem laneCommandsComplete : Obligations.LaneCommandsComplete := by
  have hlt {lane : Nat} (h : lane < 128) : lt lane 128 = true := decide_eq_true h
  have hle {lane : Nat} (h : lane < 128) : le 128 lane = false := decide_eq_false (by lia)
  refine ⟨fun s lane hl hst => ?_, fun s lane hl hst => ?_, fun s lane hl hst => ?_, fun s lane hl hst => ?_,
    fun s lane hl hst => ?_, fun s lane pos p line b hl hst hj hb hk hp hlt' hmod hdiv => ?_,
    fun s lane pos line b hl hst hj hb hk hall => ?_, fun s lane hl hst hj => ?_, fun s lane hl hst hj => ?_,
    fun s lane hl hst hj => ?_⟩
  · refine ⟨(s.laneAnew lane (!(s.lane lane).stored)).laneTo lane 2, ?_, State.laneTo_state hl (by decide), by simp⟩
    show execLaneSignalDetect lane s = _
    unfold execLaneSignalDetect
    rw [hst, hlt hl]
    rfl
  · refine ⟨(((s.laneFails lane 1).count (Reg.ING_LSTAT_LOSCNT.e lane) 1).laneAnew lane false).laneTo lane 1, ?_,
      State.laneTo_state hl (by decide), by simp, ?_⟩
    · show execLossOfSignal lane s = _
      unfold execLossOfSignal
      rw [hle hl, show le (s.get (laneState lane)) 1 = false from decide_eq_false (by lia)]
      rfl
    · rw [State.laneTo_count hl (loscnt_off lane) (by decide : 0 + 8 ≤ 28), State.get_laneAnew,
        State.get_count _ _ _ (by decide : 0 + 8 ≤ 32), (OnInputs.laneFails s lane 1).lane_word hl (loscnt_off lane)]
  · refine ⟨((s.laneFails lane 1).laneAnew lane (!((s.laneFails lane 1).lane lane).stored)).laneTo lane 2, ?_,
      State.laneTo_state hl (by decide)⟩
    show execCdrLockLoss lane s = _
    have hor : (s.get (laneState lane) == 3 || s.get (laneState lane) == 4) = true := by rcases hst with h | h <;> simp [h]
    unfold execCdrLockLoss
    rw [hor, hlt hl, Bool.and_self, cond_true]
  · refine ⟨((bif (s.lane lane).full then
        (s.setLane lane (s.lane lane).adapted).count (Reg.ING_LSTAT_ADAPTCNT.e lane) 1
        else s.setLane lane (s.lane lane).adapted)).laneTo lane 3, ?_, State.laneTo_state hl (by decide), ?_, ?_⟩
    · show execAdaptationDone lane s = _
      unfold execAdaptationDone
      rw [hst, hlt hl]
      rfl
    · rw [State.laneTo_lane]
      cases h : (s.lane lane).full
      · rw [cond_false, State.lane_setLane, ← h]
        rfl
      · rw [cond_true]
        unfold State.lane
        rw [State.count_ing, ← State.lane, State.lane_setLane, ← h]
        rfl
    · rw [State.laneTo_count hl (adaptcnt_off lane) (by decide : 8 + 8 ≤ 28)]
      cases (s.lane lane).full
      · rfl
      · exact State.get_count _ _ 1 (by decide : 8 + 8 ≤ 32)
  · refine ⟨(s.laneAnew lane true).laneTo lane 2, ?_, State.laneTo_state hl (by decide), by simp⟩
    show execAdaptTimeout lane s = _
    have hor : (s.get (laneState lane) == 2 || s.get (laneState lane) == 3) = true := by rcases hst with h | h <;> simp [h]
    unfold execAdaptTimeout
    rw [hor, hlt hl]
    rfl
  · refine ⟨(s.laneAnew lane false).laneTo lane 4, ?_, State.laneTo_state hl (by decide)⟩
    show execLmbRx lane line pos s = _
    have hany : (s.lane lane).lmbs.any (sameAlignment · pos) = true := by
      refine List.any_eq_true.mpr ⟨p, hp, ?_⟩
      simp [sameAlignment, lt, le, hlt', hmod, hdiv]
    unfold execLmbRx
    rw [hst, hlt hl, hj, hb, Option.map_some, hk]
    dsimp only
    rw [hany]
    rfl
  · have hnone : (s.lane lane).lmbs.any (sameAlignment · pos) = false := by
      rw [← Bool.not_eq_true, List.any_eq_true]
      rintro ⟨p, hp, h⟩
      have := List.all_eq_true.mp hall p hp
      simp [h] at this
    refine ⟨s.setLane lane { s.lane lane with lmbs := pos :: (s.lane lane).lmbs.filter (fun p => lt pos (p + 8194 * 257)) }, ?_,
      hst, by simp, rfl⟩
    show execLmbRx lane line pos s = _
    unfold execLmbRx
    rw [hst, hlt hl, hj, hb, Option.map_some, hk]
    dsimp only
    rw [hnone]
    rfl
  · refine ⟨((s.laneFails lane 2).laneAnew lane false).laneTo lane 3, ?_, State.laneTo_state hl (by decide), by simp⟩
    show execBlockLockLoss lane s = _
    unfold execBlockLockLoss
    rw [hst, hlt hl, hj]
    rfl
  · refine ⟨s.laneTo lane 4, ?_, State.laneTo_state hl (by decide)⟩
    show execJesdLinkLock lane true s = _
    unfold execJesdLinkLock
    rw [hle hl, hj, hst]
    rfl
  · refine ⟨(s.laneFails lane 2).laneTo lane 3, ?_, State.laneTo_state hl (by decide)⟩
    show execJesdLinkLock lane false s = _
    unfold execJesdLinkLock
    rw [hle hl, hj, hst]
    rfl

/-! ### What the commands leave alone -/

/-- From `s` to `t` nothing has changed but inputs and lane `l`. -/
structure OnLane (l : Nat) (s t : State) : Prop where
  mem : t.mem = s.mem
  tls : t.tls = s.tls
  dma : t.dma = s.dma
  tb : t.tb = s.tb
  dsp : t.dsp = s.dsp
  sec : t.sec = s.sec
  pending : t.pending = s.pending
  others : ∀ k, k < 128 → k ≠ l → t.get (laneState k) = s.get (laneState k)

namespace OnLane

variable {l : Nat}

theorem refl (s : State) : OnLane l s s := ⟨rfl, rfl, rfl, rfl, rfl, rfl, rfl, fun _ _ _ => rfl⟩

theorem trans {a b c : State} (h : OnLane l a b) (k : OnLane l b c) : OnLane l a c := by
  obtain ⟨h1, h2, h3, h4, h5, h6, h7, h8⟩ := h
  obtain ⟨k1, k2, k3, k4, k5, k6, k7, k8⟩ := k
  exact ⟨k1.trans h1, k2.trans h2, k3.trans h3, k4.trans h4, k5.trans h5, k6.trans h6, k7.trans h7,
    fun j hj hne => (k8 j hj hne).trans (h8 j hj hne)⟩

theorem cond {s a b : State} (c : Bool) (ha : OnLane l s a) (hb : OnLane l s b) : OnLane l s (bif c then a else b) := by
  cases c <;> assumption

theorem inputs {p : Nat → Prop} {s t : State} (h : OnInputs p s t) : OnLane l s t := by
  obtain ⟨h1, h2, h3, h4, h5, h6, h7⟩ := h.outside
  exact ⟨h1, h2, h3, h4, h5, h6, h7, fun _ hk _ => h.laneState hk⟩

theorem put (s : State) {m : Loc} (v : Nat) (hm : m.off = 0x1000600 + 4 * l) : OnLane l s (s.put m v) := by
  refine ⟨rfl, rfl, rfl, rfl, rfl, rfl, rfl, fun k _ hne => State.get_put_apart s v (.inl ?_)⟩
  rw [laneState_off, hm]
  lia

theorem count (s : State) {m : Loc} (k : Nat) (hm : m.off = 0x1000600 + 4 * l) : OnLane l s (s.count m k) := put s _ hm

theorem setLane (s : State) (x : Lane) : OnLane l s (s.setLane l x) := ⟨rfl, rfl, rfl, rfl, rfl, rfl, rfl, fun _ _ _ => rfl⟩

theorem laneAnew (s : State) (b : Bool) : OnLane l s (s.laneAnew l b) := setLane ..

theorem laneTo (s : State) (v : Nat) : OnLane l s (s.laneTo l v) :=
  (put s v (laneState_off l)).trans (inputs (OnInputs.laneFollow s l v))

theorem laneFails (s : State) (c : Nat) : OnLane l s (s.laneFails l c) := inputs (OnInputs.laneFails s l c)

end OnLane

/-- Settles O17: each command works on its lane and on inputs alone. -/
theorem laneCommandsKeepTheTimeBaseAndMemory : Obligations.LaneCommandsKeepTheTimeBaseAndMemory := by
  intro s lane k pos line b c hc hk hne
  suffices h : ∃ t, exec c s = .next t ∧ OnLane lane s t by
    obtain ⟨t, ht, h1, h2, h3, h4, h5, h6, h7, h8⟩ := h
    exact ⟨t, ht, h1, h2, h3, h4, h5, h6, h7, h8 k hk hne⟩
  rcases hc with rfl | rfl | rfl | rfl | rfl | rfl | rfl | rfl
  · exact ⟨_, rfl, .cond _ ((OnLane.laneAnew s _).trans (.laneTo _ 2)) (.refl s)⟩
  · exact ⟨_, rfl, .cond _ (.refl s) (((OnLane.laneFails s 1).trans (.count _ 1 (loscnt_off lane))).trans
      ((OnLane.laneAnew _ _).trans (.laneTo _ 1)))⟩
  · exact ⟨_, rfl, .cond _ ((OnLane.laneFails s 1).trans ((OnLane.laneAnew _ _).trans (.laneTo _ 2))) (.refl s)⟩
  · exact ⟨_, rfl, .cond _ ((OnLane.setLane s _).trans ((OnLane.cond _ (.count _ 1 (adaptcnt_off lane)) (.refl _)).trans (.laneTo _ 3)))
      (.refl s)⟩
  · exact ⟨_, rfl, .cond _ ((OnLane.laneAnew s _).trans (.laneTo _ 2)) (.refl s)⟩
  · exact ⟨_, rfl, .cond _ (.cond _ ((OnLane.laneAnew s _).trans (.laneTo _ 4)) (.setLane s _)) (.refl s)⟩
  · exact ⟨_, rfl, .cond _ ((OnLane.laneFails s 2).trans ((OnLane.laneAnew _ _).trans (.laneTo _ 3))) (.refl s)⟩
  · exact ⟨_, rfl, .cond _ (.refl s) (.cond _ (.cond _ (.laneTo s 4) (.refl s))
      (.cond _ ((OnLane.laneFails s 2).trans (.laneTo _ 3)) (.refl s)))⟩

end Sys2Proof.Machine
end

section
/-!
PROOF. Frames, multiblocks, gaps and faults of inputs (04 R123 to R150).
-/
namespace Sys2Proof.Machine

/-- Right after reset, but for input 561865, held in RATEFAULT; the block has inputs 0 to 127. -/
noncomputable def farInputHeld : State :=
  { State.reset with ing := { Ingress.reset with inputs := [(561865, { Input.reset with rateFault := true })] } }

/-- Refutes O19: the statement speaks of every input number, and the SPOIL place of input 561865 is the word that holds PEND and CNT of
its event, which the discarded frame raises; the word then holds PEND and the count as well. -/
theorem not_lockedFrameFromARateFaultIsDiscarded : ¬ Obligations.LockedFrameFromARateFaultIsDiscarded := by
  intro h
  have hread : (farInputHeld.judge 0 [] 0 0 false 561865).get (Reg.ING_SPOIL_SPOIL.e 561865) = 2 ^ 31 + 2 := by decide
  have hspoil := (h farInputHeld 0 561865 0 0 [] false (by decide)).2.2
  rw [hread] at hspoil
  exact absurd hspoil (by decide)

/-! ### One input of several -/

/-- Among operations on different inputs, that on input `n` sees a state in which only others have changed, and only others change
after it. -/
theorem foldl_inputs_at {f : State → Nat → State} (h : ∀ a, ∀ n < 128, OnInput n a (f a n)) {l : List Nat} (hl : ∀ n ∈ l, n < 128)
    (hd : l.Nodup) {n : Nat} (hn : n ∈ l) (s : State) :
    ∃ a, OnInputs (· ≠ n) s a ∧ OnInputs (· ≠ n) (f a n) (l.foldl f s) := by
  induction l generalizing s with
  | nil => exact absurd hn (by simp)
  | cons k l ih =>
    obtain ⟨hk, hd⟩ := List.nodup_cons.mp hd
    by_cases hkn : n = k
    · subst hkn
      refine ⟨s, .refl s, .foldl h l (fun m hm => ⟨by rintro rfl; exact hk hm, hl m (.tail _ hm)⟩) _⟩
    · obtain ⟨a, ha, hb⟩ := ih (fun m hm => hl m (.tail _ hm)) hd ((List.mem_cons.mp hn).resolve_left hkn) (f s k)
      refine ⟨a, ?_, hb⟩
      exact OnInputs.trans (.step (Ne.symm hkn) (hl k (.head _)) (.refl s) (h s k (hl k (.head _)))) ha

theorem upto_filter_lt (p : Nat → Bool) : ∀ n ∈ (upto 128).filter p, n < 128 := fun _ h =>
  List.mem_range.mp (List.mem_filter.mp h).1

theorem upto_filter_nodup (k : Nat) (p : Nat → Bool) : ((upto k).filter p).Nodup := List.nodup_range.filter p

/-- A word of the settings or of an input that is none of them. -/
theorem OnInputs.setting {p : Nat → Prop} {s t : State} (h : OnInputs p s t) (l : Loc) (hl : 0x1001000 ≤ l.off ∧ l.off < 0x1001800) :
    t.get l = s.get l := by
  exact h.get l (not_eventWord (.inr (.inr (le_trans (by decide) hl.1)))) fun n hn m _ hm => hm.outside hn
    (.inl ⟨le_trans (by decide) hl.1, hl.2⟩)

theorem spoil_off (n : Nat) : (Reg.ING_SPOIL_SPOIL.e n).off = 0x1001C00 + 4 * n := word4 0x1001C00 n

/-- SPOIL of an input that is none of them. -/
theorem OnInputs.spoil {s t : State} {n : Nat} (h : OnInputs (· ≠ n) s t) (hn : n < 128) :
    t.get (Reg.ING_SPOIL_SPOIL.e n) = s.get (Reg.ING_SPOIL_SPOIL.e n) := by
  exact h.get _ (not_eventWord (.inr (.inr (le_trans (by decide : 0x104000 ≤ 0x1001C00) (Nat.le_add_right ..)))))
    fun k hk m hne hm => hm.ne hk hn hne (.inr (spoil_off n))

/-- A cause of an input that is none of them. -/
theorem OnInputs.cause {s t : State} {n : Nat} (h : OnInputs (· ≠ n) s t) (hn : n < 128) (c : Nat) :
    t.on (causeLoc n c) = s.on (causeLoc n c) := by
  rw [State.on, State.on, h.get _ (not_eventWord (.inr (.inr (le_trans (by decide : 0x104000 ≤ 0x1001800) (Nat.le_add_right ..)))))
    fun k hk m hne hm => hm.ne hk hn hne (.inl (word4 0x1001800 n))]

/-! ### A fault shared by several inputs -/

theorem State.ev_inp (s : State) (m n : Nat) : (s.ev m).inp n = s.inp n := by rw [State.inp, State.ev_ing, State.inp]

/-- An input's state is shown in the registers alone. -/
theorem State.ingState_inp (s : State) (n k : Nat) : (s.ingState n).inp k = s.inp k := by
  unfold State.ingState
  extract_lets x v old w
  have hw : w.inp k = s.inp k := (State.ev_inp _ _ _).trans (by rw [State.inp, State.put_ing, State.inp])
  clear_value w
  cases old == v
  · rw [cond_false]
    cases v == 2
    · rw [cond_false, hw]
    · rw [cond_true, State.inp, State.flag_ing, ← State.inp, hw]
  · rw [cond_true]

/-- What the end of `gapShared` leaves of the input. -/
theorem State.gapShared_accepting (s : State) (n c : Nat) : ((s.gapShared n c).inp n).accepting = false := by
  unfold State.gapShared
  extract_lets +onlyGivenNames _ q a b
  rw [State.ingState_inp, State.inp_setInp_same]

section
variable {n : Nat} (hn : n < 128)
include hn

/-- A cause that is seen is shown, and its event is pending where the cause or its gap is new. -/
theorem State.causeBit_shows (s : State) {c : Nat} (hc : c ≤ 15) :
    (s.causeBit n c).on (causeLoc n c) = true ∧
      (s.on (causeLoc n c) = false → (s.causeBit n c).on (evPend (112 + n)) = true) := by
  have hset : (s.flag (causeLoc n c) true).on (causeLoc n c) = true :=
    State.on_flag_same s _ true ((Nat.succ_le_succ hc).trans (by decide)) (by decide : 1 ≤ 1)
  have hev := (OnInput.ev (n := n) (s.flag (causeLoc n c) true) (OnInput.event_lt hn)).causes c hc hset
  have hp : ((s.flag (causeLoc n c) true).ev (112 + n)).on (evPend (112 + n)) = true := (PendKept.raise _ _ _).2
  show (bif s.on (causeLoc n c) then s else (s.flag (causeLoc n c) true).ev (112 + n)).on (causeLoc n c) = true ∧
    (s.on (causeLoc n c) = false → (bif s.on (causeLoc n c) then s else (s.flag (causeLoc n c) true).ev (112 + n)).on
      (evPend (112 + n)) = true)
  cases h : s.on (causeLoc n c)
  · rw [cond_false]
    exact ⟨hev, fun _ => hp⟩
  · rw [cond_true]
    exact ⟨h, by simp⟩

omit hn in
theorem State.causeBit_inp (s : State) (c : Nat) : (s.causeBit n c).inp n = s.inp n := by
  show (bif s.on (causeLoc n c) then s else (s.flag (causeLoc n c) true).ev (112 + n)).inp n = s.inp n
  cases s.on (causeLoc n c)
  · rw [cond_false, State.inp, State.ev_ing, State.flag_ing, State.inp]
  · rw [cond_true]

omit hn in
/-- A gap that opens raises its event. -/
theorem State.gapOpen_pends (s : State) (c : Nat) : (s.gapOpen n c).on (evPend (112 + n)) = true := (PendKept.raise _ _ _).2

/-- The cause that inputs share is shown, and the event of each is pending. -/
theorem State.gapShared_shows (s : State) {c : Nat} (hc : c ≤ 15) :
    (s.gapShared n c).on (causeLoc n c) = true ∧ (s.gapShared n c).on (evPend (112 + n)) = true := by
  unfold State.gapShared
  extract_lets +onlyGivenNames _ q a b
  have hcause : a.on (causeLoc n c) = true ∧ (q = false → a.on (evPend (112 + n)) = true) := by
    obtain ⟨hon, hp⟩ := s.causeBit_shows hn hc
    have hinp := s.causeBit_inp c (n := n)
    have hgc : a = match ((s.causeBit n c).inp n).gap with
        | some g => (s.causeBit n c).setInp n { (s.causeBit n c).inp n with gap := some { g with mask := g.mask ||| 2 ^ c } }
        | none => bif (s.causeBit n c).gapsDeclared n then (s.causeBit n c).gapOpen n c else s.causeBit n c := rfl
    have hdecl : (s.causeBit n c).gapsDeclared n = s.gapsDeclared n := by
      have hlow : 0x1001000 ≤ (Reg.ING_LMAP_EN.e n).off := Nat.le_add_right ..
      have hhigh : (Reg.ING_LMAP_EN.e n).off < 0x1001800 := (Nat.add_lt_add_left (Nat.mul_lt_mul_of_pos_right hn (by decide)) _).trans
        (by decide)
      rw [State.gapsDeclared, hinp, State.on, (OnInput.causeBit hn s c).writes.get _ (not_eventWord (.inr (.inr (le_trans (by decide) hlow)))) fun m hm =>
          .inl (hm.outside hn (.inl ⟨le_trans (by decide) hlow, hhigh⟩)), ← State.on, State.gapsDeclared]
    have hq : q = (s.on (causeLoc n c) && ((s.inp n).gap.isSome || !s.gapsDeclared n)) := rfl
    rw [hgc, hinp, hdecl]
    clear_value q
    clear hgc
    cases hg : (s.inp n).gap with
    | some g =>
      refine ⟨hon, fun h => hp ?_⟩
      rw [hq, hg] at h
      simpa using h
    | none =>
      dsimp only
      cases hd : s.gapsDeclared n
      · rw [cond_false]
        refine ⟨hon, fun h => hp ?_⟩
        rw [hq, hg, hd] at h
        simpa using h
      · rw [cond_true]
        exact ⟨(OnInput.gapOpen hn _ c).causes c hc hon, fun _ => State.gapOpen_pends _ c⟩
  clear_value a
  have hb : b.on (causeLoc n c) = true ∧ b.on (evPend (112 + n)) = true := by
    have hb' : b = bif q then a.ev (112 + n) else a := rfl
    rw [hb']
    cases hqv : q
    · rw [cond_false]
      exact ⟨hcause.1, hcause.2 hqv⟩
    · rw [cond_true]
      exact ⟨(OnInput.ev a (OnInput.event_lt hn)).causes c hc hcause.1, (PendKept.raise _ _ _).2⟩
  clear_value b
  have hlast := (OnInput.setInp (n := n) b _).trans (OnInput.ingState hn (b.setInp n { b.inp n with accepting := false, refused := true }))
  exact ⟨hlast.causes c hc hb.1, hlast.pends _ (OnInput.event_lt hn) hb.2⟩

end

/-! ### The commands -/

/-- The stamp of a native lane less its receive delay. -/
theorem State.laneStamp_native {s : State} {l : Nat} (h : s.laneJesd l = false) (at_ : Nat) :
    s.laneStamp l at_ = tagAdd (s.quantised at_) (-(8796093 : Int)) := by
  have hd : s.rxDelay l = 8796093 := by
    unfold State.rxDelay
    rw [h, if_neg Bool.false_ne_true]
    decide
  unfold State.laneStamp
  rw [hd]

theorem State.inp_setLane (s : State) (l : Nat) (x : Lane) (n : Nat) : (s.setLane l x).inp n = s.inp n := rfl
theorem State.lane_setInp (s : State) (n : Nat) (x : Input) (l : Nat) : (s.setInp n x).lane l = s.lane l := rfl
theorem State.get_setInp (s : State) (n : Nat) (x : Input) (l : Loc) : (s.setInp n x).get l = s.get l := rfl
theorem State.inp_count (s : State) (l : Loc) (k n : Nat) : (s.count l k).inp n = s.inp n := by
  rw [State.inp, State.count_ing, State.inp]

/-- The data blocks `bs` behind a frame are discarded for input `n` (R123, R140). -/
noncomputable def State.longStep (bs : List RxBlock) (s : State) (n : Nat) : State :=
  let s := s.count (Reg.ING_SPOIL_SPOIL.e n) (ceilDiv bs.length (s.flen n / 32))
  bif bs.any RxBlock.magic then s.gapCause n 5 else s.causeLater n 5

/-- Where no frame start is among them and no gap is open, the cause waits for the next gap. -/
theorem State.longStep_later {bs : List RxBlock} (hm : bs.any RxBlock.magic = false) {s : State} {n : Nat}
    (hg : (s.inp n).gap = none) :
    State.longStep bs s n = (s.count (Reg.ING_SPOIL_SPOIL.e n) (ceilDiv bs.length (s.flen n / 32))).setInp n
      { s.inp n with causes := (s.inp n).causes ++ [5] } := by
  unfold State.longStep
  rw [hm, cond_false]
  unfold State.causeLater
  rw [State.inp_count]
  generalize s.inp n = x at hg
  cases x
  dsimp only at hg
  subst hg
  rfl

/-- Where discarded blocks hide no frame start, each input of the lane counts them and notes the cause. -/
theorem exec_frameLongCheck {s : State} {lane n : Nat} {line : Line} {b : RxBlock} {l : List RxBlock} (hlane : lane < 128)
    (hn : n < 128) (hj : s.laneJesd lane = false) (ht : s.takesLane n lane = true)
    (hb : (s.lineRx lane line).takeWhile RxBlock.isData = b :: l) (hm : (b :: l).any RxBlock.magic = false)
    (hg : (s.inp n).gap = none) :
    ∃ t, exec (.frameLongCheck lane line) s = .next t ∧ (t.lane lane).hunting = true ∧ (t.inp n).causes = (s.inp n).causes ++ [5] ∧
      t.get (Reg.ING_SPOIL_SPOIL.e n) = satAdd (Reg.ING_SPOIL_SPOIL.e n).w (s.get (Reg.ING_SPOIL_SPOIL.e n))
        (ceilDiv (l.length + 1) (s.flen n / 32)) := by
  obtain ⟨s0, hs0⟩ : ∃ s0, s0 = s.setLane lane { s.lane lane with hunting := true } := ⟨_, rfl⟩
  have hbm : b.magic = false := by
    rw [List.any_cons, Bool.or_eq_false_iff] at hm
    exact hm.1
  have hle : le 128 lane = false := decide_eq_false (Nat.not_le.2 hlane)
  have hx : exec (.frameLongCheck lane line) s = .next
      (((upto 128).filter (fun k => s0.takesLane k lane)).foldl (State.longStep (b :: l)) s0) := by
    show execFrameLongCheck lane line s = _
    unfold execFrameLongCheck
    rw [hb, hs0]
    dsimp only
    rw [hle, hj, hbm]
    rfl
  have hmem : n ∈ (upto 128).filter (fun k => s0.takesLane k lane) :=
    List.mem_filter.mpr ⟨List.mem_range.mpr hn, by rw [hs0]; exact ht⟩
  have hstep (a : State) (k : Nat) (hk : k < 128) : OnInput k a (State.longStep (b :: l) a k) :=
    (OnInput.spoil a _).trans (.cond _ (.gapCause hk _ 5) (.causeLater hk _ 5))
  obtain ⟨a, ha, hend⟩ := foldl_inputs_at hstep (upto_filter_lt _) (upto_filter_nodup 128 _) hmem s0
  have hainp : a.inp n = s.inp n := by rw [ha.inp_eq (by simp), hs0, State.inp_setLane]
  have hflen : a.flen n = s.flen n := by
    have hhigh : 0x1001200 + (n * 4 + 0) < 0x1001200 + 128 * 4 := Nat.add_lt_add_left (Nat.mul_lt_mul_of_pos_right hn (by decide)) _
    rw [State.flen, ha.setting _ ⟨le_trans (by decide) (Nat.le_add_right 0x1001200 _), hhigh.trans (by decide)⟩, hs0, State.get_setLane, State.flen]
  have hfa := State.longStep_later hm (s := a) (n := n) (by rw [hainp, hg])
  refine ⟨_, hx, ?_, ?_, ?_⟩
  · rw [hend.lane_eq, hfa, State.lane_setInp]
    unfold State.lane
    rw [State.count_ing, ← State.lane, ha.lane_eq, hs0, State.lane_setLane]
  · rw [hend.inp_eq (by simp), hfa, State.inp_setInp_same, hainp]
  · rw [hend.spoil hn, hfa, hflen, State.get_setInp, State.get_count _ _ _ (by decide : 0 + 32 ≤ 32), ha.spoil hn, hs0,
      State.get_setLane, List.length_cons]

/-- Input `x` after the first fast-path sample of a frame, of index `idx`. -/
noncomputable def Input.fastTaken (x : Input) (idx : Nat) (i q : Int) : Input :=
  { x with fastOpen := true, fastFirst := idx, fast := (idx, i, q) :: x.fast.filter (fun p => idxNear idx p.1) }

theorem State.stampScale_inp (s : State) (f n : Nat) : (s.stampScale f).1.inp n = s.inp n := by
  unfold State.stampScale
  cases s.tb.lastStep with
  | none => rfl
  | some p =>
    dsimp -zeta only
    extract_lets k before after was
    clear_value before after
    cases before <;> cases after <;> rfl

/-- A good multiblock that fits is accepted at its own index. -/
theorem exec_jesdMultiblockRelease {s : State} {n k : Nat} {words : List Nat} (stamp : Nat) (ht : s.takesBlocks n = true)
    (hr : (s.inp n).rateFault = false) (hroom : heldBytes (s.inp n) + 2 * words.length ≤ 16384)
    (hser : (s.inp n).series = true → (s.inp n).replace = false ∧ (s.inp n).newRate = false) :
    let c := k * 128 * 2 ^ s.get (Reg.ING_LMAP_LW.e n) / s.get (Reg.ING_JCFG_M.e n) % idxMod
    let f := s.laneStamp (s.get (Reg.ING_LMAP_LANE.e n)) stamp
    let p := s.stampScale f
    exec (.jesdMultiblockRelease n k words stamp true true) s = .next (p.1.acceptAt n c (s.jesdSamples n words) ((f : Int) * 2 ^ 32) p.2
      (if (s.inp n).series then idxAdd c (s.inp n).offset else c, false, false) (2 * words.length)) := by
  intro c f p
  have hlt : lt 16384 (heldBytes (s.inp n) + 2 * words.length) = false := decide_eq_false (by lia)
  have hx : p.1.inp n = s.inp n := s.stampScale_inp f n
  show execJesdMultiblockRelease n k words stamp true true s = _
  rw [execJesdMultiblockRelease, ht, hr, hlt]
  rw [Bool.not_true, cond_false, cond_false, cond_false, cond_false, cond_false]
  show Host.Outcome.next (p.1.acceptAt n c (s.jesdSamples n words) ((f : Int) * 2 ^ 32) p.2
    (bif (p.1.inp n).series && ((p.1.inp n).replace || (p.1.inp n).newRate) then
      (timeIndex (p.1.inp n) ((f : Int) * 2 ^ 32) (p.1.scaleTotal p.2), true, false)
    else (bif (p.1.inp n).series then idxAdd c (p.1.inp n).offset else c, false, false)) (2 * words.length)) = _
  rw [hx]
  cases hs : (s.inp n).series
  · rfl
  · obtain ⟨h1, h2⟩ := hser hs
    rw [h1, h2]
    rfl

/-- A fault of a lane die shows one cause on each input it serves. -/
theorem exec_laneDieLinkFault (s : State) (die : Nat) : ∃ t c, exec (.laneDieLinkFault die) s = .next t ∧ 1 ≤ c ∧ c ≤ 15 ∧
    t.mem = s.mem ∧ ∀ n, n < 128 → s.inputOn n = true → (s.lanesOf n).any (fun l => l / 32 == die) = true →
      t.on { Reg.ING_ISTAT_CAUSE.e n with lo := c, w := 1 } = true ∧ (t.inp n).accepting = false ∧ t.on (evPend (112 + n)) = true := by
  have hc : 1 + s.free 4 % 15 ≤ 15 := by rw [Nat.add_comm]; exact Nat.mod_lt _ (by decide)
  refine ⟨_, 1 + s.free 4 % 15, rfl, Nat.le_add_right .., hc, ?_, fun n hn hon hdie => ?_⟩
  · exact (OnInputs.foldl (p := fun _ => True) (fun a k hk => OnInput.gapShared hk a _) _
      (fun m hm => ⟨trivial, upto_filter_lt _ m hm⟩) s.took).outside.1
  · have hmem : n ∈ (upto 128).filter (fun n => s.inputOn n && (s.lanesOf n).any (fun l => l / 32 == die)) :=
      List.mem_filter.mpr ⟨List.mem_range.mpr hn, by rw [hon, hdie]; rfl⟩
    obtain ⟨a, -, hend⟩ := foldl_inputs_at (fun b k hk => OnInput.gapShared hk b (1 + s.free 4 % 15)) (upto_filter_lt _)
      (upto_filter_nodup 128 _) hmem s.took
    obtain ⟨hshow, hp⟩ := a.gapShared_shows hn hc
    refine ⟨(hend.cause hn _).trans hshow, ?_, hend.pends (OnInput.event_lt hn) hp⟩
    rw [hend.inp_eq (by simp)]
    exact a.gapShared_accepting n _

/-- Settles O18. -/
theorem frameCommandsComplete : Obligations.FrameCommandsComplete := by
  refine ⟨fun s lane stamp line bs hl hj hchk hbs hne => ?_, fun s lane stamp line hl hj hchk => ?_,
    fun s lane line b l hb hk => ?_, fun s lane n line b l hl hn hj ht hb hm hg => exec_frameLongCheck hl hn hj ht hb hm hg,
    fun s n g hg hen => ?_, fun s n => ?_, fun s n counter i q hon hgen hlock => ?_,
    fun s n k words stamp ht hr hroom hser => ?_, fun s die => ?_⟩
  · show execFrameVerdict lane line stamp s = _
    have hempty : bs.isEmpty = false := by cases bs <;> simp_all
    have hle : le 128 lane = false := decide_eq_false (Nat.not_le.2 hl)
    unfold execFrameVerdict
    rw [hle, hj, hchk, hbs]
    dsimp only
    rw [hempty, State.laneStamp_native hj]
    rfl
  · refine ⟨s.free 32 % (257 * line.blocks + 1), Nat.le_of_lt_succ (Nat.mod_lt _ (Nat.succ_pos _)), ?_⟩
    show execFrameVerdict lane line stamp s = _
    have hle : le 128 lane = false := decide_eq_false (Nat.not_le.2 hl)
    unfold execFrameVerdict
    rw [hle, hj, bne_iff_ne.mpr hchk]
    rfl
  · show execFrameLongCheck lane line s = _
    unfold execFrameLongCheck
    rw [hb]
    by_cases hd : b.isData = true
    · have hkind : b.kind = .data := by simpa [RxBlock.isData] using hd
      rw [List.takeWhile_cons, if_pos hd]
      dsimp only
      rw [hk.resolve_left (not_not_intro hkind), Bool.or_true, cond_true]
    · rw [List.takeWhile_cons, if_neg hd]
      dsimp only
      rw [Bool.or_true, cond_true]
  · show execGapInterim n s = _
    unfold execGapInterim
    rw [hg]
    dsimp only
    rw [hen, cond_true]
  · refine ⟨_, rfl, ?_⟩
    rw [State.ingState_inp, State.inp_setInp_same]
    exact ⟨rfl, rfl, rfl⟩
  · refine ⟨s.setInp n ((s.inp n).fastTaken (idxAdd counter (s.inp n).offset) i q), ?_, ?_⟩
    · show execFastPathSample n counter i q true s = _
      rw [execFastPathSample]
      generalize s.inp n = x at hlock
      cases x
      dsimp only at hlock
      subst hlock
      rw [hon, hgen]
      rfl
    · rw [State.inp_setInp_same]
      exact ⟨rfl, rfl, rfl, rfl⟩
  · exact exec_jesdMultiblockRelease stamp ht hr hroom hser
  · exact exec_laneDieLinkFault s die

end Sys2Proof.Machine
end

section
/-!
PROOF. Trigger units: arms, disarms and forces, products, firings and input edges (09 R266 to R286).
-/
namespace Sys2Proof.Machine

/-- The chosen branch, as a step of proof and not of computation: the kernel does not compare the branches. -/
theorem bif_true {α : Type} (a b : α) : (bif true then a else b) = a := by rw [cond_true]
theorem bif_false {α : Type} (a b : α) : (bif false then a else b) = b := by rw [cond_false]

@[simp] theorem State.unit_put (s : State) (l : Loc) (v u : Nat) : (s.put l v).unit u = s.unit u := by
  rw [State.unit, State.put_trg, State.unit]

theorem State.unit_setUnit (s : State) (u : Nat) (x : TrigUnit) (v : Nat) : (s.setUnit u x).unit v = if v = u then x else s.unit v :=
  tget_tset ..

theorem State.get_setUnit (s : State) (u : Nat) (x : TrigUnit) (l : Loc) : (s.setUnit u x).get l = s.get l := rfl

/-- A unit of the block is none of the numbers from 32 on. -/
theorem le_32_eq_false {u : Nat} (h : u < 32) : le 32 u = false := decide_eq_false (by lia)

/-- The words of TRG_USTAT of two units are two words. -/
theorem unitState_off (u : Nat) : (unitState u).off = 0x2410040 + 0x80 * u := by
  show 0x2410040 + (u * 0x80 + 0) = _
  lia

/-! ### Arms (R277, R279) -/

/-- What arming an enabled DISARMED unit makes of it. -/
noncomputable def State.armed (s : State) (u : Nat) : State :=
  s.setUnit u { (s.unit u).cleared with arm := ((s.unit u).arm + 1) % 2 ^ 32, armRec := s.armNumber u (((s.unit u).arm + 1) % 2 ^ 32), disarm := false, armAt := some s.tb.acc }

theorem State.armUnit_of_disarmed {s : State} {u : Nat} (hen : s.on (Reg.TRG_UCFG_EN.e u) = true) (hst : s.get (unitState u) = 0)
    (hoff : (s.unit u).offAt ≠ some s.tb.acc) : s.armUnit u = (s.armed u).put (unitState u) 1 := by
  rw [State.armUnit, hen, hst, beq_false_of_ne hoff]
  rfl

/-- During a firing or its hold-off, and with a completed condition, the arm is held pending. -/
theorem State.armUnit_pending {s : State} {u : Nat} (hen : s.on (Reg.TRG_UCFG_EN.e u) = true)
    (hst : s.get (unitState u) = 3 ∨ s.get (unitState u) = 4 ∨ (s.get (unitState u) ≠ 0 ∧ (s.unit u).comp.isSome = true)) :
    s.armUnit u = s.flag (Reg.TRG_USTAT_ARMPEND.e u) true := by
  have h0 : (s.get (unitState u) == 0) = false := beq_false_of_ne (by lia)
  have hp : (s.get (unitState u) == 3 || s.get (unitState u) == 4 || (s.unit u).comp.isSome) = true := by
    rcases hst with h | h | ⟨-, h⟩
    · rw [h]; rfl
    · rw [h]; rfl
    · rw [h, Bool.or_true]
  rw [State.armUnit, hen, h0, hp]
  rfl

/-- A disarm in the same cycle wins. -/
theorem State.armUnit_just_disarmed {s : State} {u : Nat} (hst : s.get (unitState u) = 0) (hoff : (s.unit u).offAt = some s.tb.acc) :
    s.armUnit u = s := by
  have h : ((s.unit u).offAt == some s.tb.acc) = true := beq_iff_eq.mpr hoff
  rw [State.armUnit, hst, h]
  cases s.on (Reg.TRG_UCFG_EN.e u) <;> rfl

/-- Settles O26. -/
theorem armOfAnEnabledUnit : Obligations.ArmOfAnEnabledUnit := by
  refine ⟨fun s u hu hen hst hoff => ?_, fun s u hu hen hst => ?_, fun s u hst hoff => State.armUnit_just_disarmed hst hoff⟩
  · rw [State.armUnit_of_disarmed hen hst hoff]
    refine ⟨?_, ?_, ?_, fun v hv hne => ⟨?_, ?_⟩⟩
    · exact State.get_put_same _ _ _ (by decide : 29 + 3 ≤ 32)
    · rw [State.unit_put]
      unfold State.armed
      rw [State.unit_setUnit, if_pos rfl]
    · rw [State.unit_put]
      unfold State.armed
      rw [State.unit_setUnit, if_pos rfl]
    · rw [State.unit_put]
      unfold State.armed
      rw [State.unit_setUnit, if_neg hne]
    · have hv := unitState_off v
      have hu := unitState_off u
      rw [State.get_put_apart _ _ (.inl (by lia))]
      unfold State.armed
      rw [State.get_setUnit]
  · rw [State.armUnit_pending hen hst]
    refine ⟨?_, State.on_flag_same s _ true (by decide : 28 + 1 ≤ 32) (by decide : 1 ≤ 1), ?_⟩
    · exact State.get_flag_apart s true (.inr ⟨(by decide : 28 + 1 ≤ 32), .inr (by decide : 28 + 1 ≤ 29)⟩)
    · rw [State.flag, State.unit_put]

/-! ### Forces (R280) -/

/-- A pending force whose tag has come is taken where its unit is enabled. -/
theorem exec_forceScheduled {s : State} {u tag : Nat} (hf : (s.unit u).force = some tag) (htag : tag ≤ s.now) (hr : s.runs = true) :
    exec (.forceScheduled u) s = .next
      (bif s.on (Reg.TRG_UCFG_EN.e u) then
        ((s.setUnit u { s.unit u with force := none }).flag (Reg.TRG_USTAT_FPEND.e u) false).force u tag true
      else (s.setUnit u { s.unit u with force := none }).flag (Reg.TRG_USTAT_FPEND.e u) false) := by
  have hlt : lt s.now tag = false := decide_eq_false (by lia)
  have hen : ((s.setUnit u { s.unit u with force := none }).flag (Reg.TRG_USTAT_FPEND.e u) false).on (Reg.TRG_UCFG_EN.e u)
      = s.on (Reg.TRG_UCFG_EN.e u) := by
    have ho : (Reg.TRG_UCFG_EN.e u).off = 0x2410000 + (u * 0x80 + 0) := rfl
    have hs : (Reg.TRG_USTAT_FPEND.e u).off = 0x2410040 + (u * 0x80 + 0) := rfl
    rw [State.on_flag_apart _ _ (.inl (by lia)), State.on, State.get_setUnit, State.on]
  show execForceScheduled u s = _
  unfold execForceScheduled
  rw [hf]
  dsimp only
  rw [hlt, hr, hen, Bool.not_true, Bool.or_false, bif_false]

/-- Settles O25. -/
theorem triggerControlCommandsComplete : Obligations.TriggerControlCommandsComplete := by
  refine ⟨fun s u hu hr hm => ?_, fun s g hg hr hen => ?_, fun s u hu hr => ?_, fun s u hu hr hen => ?_, fun s u hu hr hen htag => ?_,
    fun s u tag hu hf htag hr hen => ?_, fun s u tag hu hf htag hr hen => ?_, fun s g tag k hp htag hr => ?_⟩
  · show execTrgArm u false s = _
    unfold execTrgArm
    rw [hr, hm, le_32_eq_false hu]
    rfl
  · have h8 : le 8 g = false := decide_eq_false (by lia)
    show execTrgArm g true s = _
    unfold execTrgArm
    rw [hr, hen, h8, le_32_eq_false (by lia)]
    rfl
  · show execTrgDisarm u false s = _
    unfold execTrgDisarm
    rw [hr, le_32_eq_false hu]
    rfl
  · show execTrgForce u false s = _
    unfold execTrgForce
    rw [hr, hen, le_32_eq_false hu]
    rfl
  · have hlt : lt s.now (s.get96 Reg.TRG_FTAG_L_TAG.z Reg.TRG_FTAG_M_TAG.z Reg.TRG_FTAG_H_TAG.z) = true := decide_eq_true htag
    refine ⟨(s.setUnit u { s.unit u with force := some (s.get96 Reg.TRG_FTAG_L_TAG.z Reg.TRG_FTAG_M_TAG.z Reg.TRG_FTAG_H_TAG.z) }).flag (Reg.TRG_USTAT_FPEND.e u) true, ?_, ?_, ?_⟩
    · show execTrgForce u true s = _
      rw [execTrgForce, hr, hen, le_32_eq_false hu, hlt]
      rfl
    · rw [State.flag, State.unit_put, State.unit_setUnit, if_pos rfl]
    · exact State.on_flag_same _ _ true (by decide : 27 + 1 ≤ 32) (by decide : 1 ≤ 1)
  · refine ⟨(s.setUnit u { s.unit u with force := none }).flag (Reg.TRG_USTAT_FPEND.e u) false, ?_, ?_, ?_⟩
    · rw [exec_forceScheduled hf htag hr, hen, cond_false]
    · rw [State.flag, State.unit_put, State.unit_setUnit, if_pos rfl]
    · exact State.on_flag_same _ _ false (by decide : 27 + 1 ≤ 32) (by decide : 1 ≤ 1)
  · rw [exec_forceScheduled hf htag hr, hen, cond_true]
  · have hlt : lt s.now tag = false := decide_eq_false (by lia)
    show execPairGroupArm g s = _
    unfold execPairGroupArm
    rw [hp, hr]
    dsimp only
    rw [hlt]
    rfl

/-! ### Input edges (R272) -/

/-- A stamp's scale takes at most a free value. -/
theorem State.stampScale_fst (s : State) (f : Nat) : (s.stampScale f).1 = s ∨ (s.stampScale f).1 = s.took := by
  unfold State.stampScale
  cases s.tb.lastStep with
  | none => exact .inl rfl
  | some p =>
    dsimp -zeta only
    extract_lets k before after was
    clear_value before after
    cases before
    · exact .inl rfl
    · cases after
      · exact .inl rfl
      · exact .inr rfl

/-- Between `s` and `t` only products have been given to units. -/
theorem State.pushPulses_get (c : State → Nat → Bool) (tag tq : Nat) (us : List Nat) (s : State) :
    (us.foldl (fun s u => bif c s u then s.pushPulse u tag tq else s) s).regs = s.regs ∧
      (us.foldl (fun s u => bif c s u then s.pushPulse u tag tq else s) s).mem = s.mem ∧
      (us.foldl (fun s u => bif c s u then s.pushPulse u tag tq else s) s).out = s.out := by
  induction us generalizing s with
  | nil => exact ⟨rfl, rfl, rfl⟩
  | cons u us ih =>
    obtain ⟨h1, h2, h3⟩ := ih (bif c s u then s.pushPulse u tag tq else s)
    rw [List.foldl_cons, h1, h2, h3]
    cases c s u <;> exact ⟨rfl, rfl, rfl⟩

/-- The pins of TRIG_IN with `level` on pin `p`. -/
noncomputable def State.pinLevel (s : State) (p : Nat) (level : Bool) : State :=
  { s with trg := { s.trg with ins := tset (fun _ => false) s.trg.ins p level } }

/-- The accepted level is shown, and selected edges reach the units that watch the pin. -/
noncomputable def State.pinEdge (s : State) (p : Nat) (level selected : Bool) (stamp tq : Nat) : State :=
  bif selected then
    (upto 32).foldl (fun s u =>
      bif s.on (Reg.TRG_UCFG_EN.e u) && s.get (Reg.TRG_UCFG_SRC.e u) == 8 && s.get (Reg.TRG_UELEM_ELEM.e u) == p
      then s.pushPulse u stamp tq else s) (s.flag (Reg.TIN_STAT_LEVEL.e p) level)
  else s.flag (Reg.TIN_STAT_LEVEL.e p) level

theorem State.pinEdge_shows (s : State) (p : Nat) (level selected : Bool) (stamp tq : Nat) :
    (s.pinEdge p level selected stamp tq).on (Reg.TIN_STAT_LEVEL.e p) = level ∧
      (s.pinEdge p level selected stamp tq).mem = s.mem ∧ (s.pinEdge p level selected stamp tq).out = s.out := by
  have hon := State.on_flag_same s (Reg.TIN_STAT_LEVEL.e p) level (by decide : 31 + 1 ≤ 32) (by decide : 1 ≤ 1)
  rw [State.pinEdge]
  cases selected
  · rw [bif_false]
    exact ⟨hon, State.flag_mem .., State.flag_out ..⟩
  · rw [bif_true]
    obtain ⟨h1, h2, h3⟩ := State.pushPulses_get (fun s u => s.on (Reg.TRG_UCFG_EN.e u) && s.get (Reg.TRG_UCFG_SRC.e u) == 8
      && s.get (Reg.TRG_UELEM_ELEM.e u) == p) stamp tq (upto 32) (s.flag (Reg.TIN_STAT_LEVEL.e p) level)
    exact ⟨(State.on_congr h1 _).trans hon, h2.trans (State.flag_mem ..), h3.trans (State.flag_out ..)⟩

/-- An edge that persists shows the level. -/
theorem exec_trigInEdge_accepted {s : State} {p : Nat} (stamp : Nat) {level : Bool} (hp : p < 8)
    (hen : s.on (Reg.TIN_CFG_EN.e p) = true) (hr : s.runs = true) (hl : s.on (Reg.TIN_STAT_LEVEL.e p) ≠ level) :
    ∃ t, exec (.trigInEdge p level true stamp) s = .next t ∧ t.on (Reg.TIN_STAT_LEVEL.e p) = level ∧ t.mem = s.mem ∧ t.out = s.out := by
  obtain ⟨a, k, hak⟩ : ∃ a k, s.stampScale (s.quantised stamp) = (a, k) := ⟨_, _, rfl⟩
  have ha : a.regs = s.regs ∧ a.mem = s.mem ∧ a.out = s.out := by
    have h := s.stampScale_fst (s.quantised stamp)
    rw [hak] at h
    rcases h with h | h <;> (dsimp only at h; subst h; exact ⟨rfl, rfl, rfl⟩)
  obtain ⟨hregs, hmem, hout⟩ := ha
  have hlt : lt p 8 = true := decide_eq_true hp
  have hne : (s.on (Reg.TIN_STAT_LEVEL.e p) == level) = false := beq_false_of_ne hl
  obtain ⟨h1, h2, h3⟩ := (a.pinLevel p level).pinEdge_shows p level
    ((level && a.get (Reg.TIN_CFG_EDGE.e p) % 2 == 1) || (!level && le 2 (a.get (Reg.TIN_CFG_EDGE.e p)))) (s.quantised stamp)
    (a.tqAt k (s.quantised stamp) false false)
  refine ⟨_, ?_, h1, h2.trans hmem, h3.trans hout⟩
  show execTrigInEdge p level true stamp s = _
  rw [execTrigInEdge, hak]
  dsimp only
  rw [Bool.true_and, hlt, bif_true, ← State.pinLevel]
  obtain ⟨b, hb⟩ : ∃ b, b = a.pinLevel p level := ⟨_, rfl⟩
  have hbr : b.regs = s.regs := by rw [hb, ← hregs]; rfl
  have hruns : b.runs = s.runs := by rw [State.runs, State.get_congr hbr, State.runs]
  rw [← hb, State.on_congr hbr, State.on_congr hbr, hruns, hen, hr, hne, Bool.not_true, Bool.or_false, Bool.or_false, bif_false,
    bif_false, bif_false, State.pinEdge]

/-- Settles O24. -/
theorem triggerQualificationCommandsComplete : Obligations.TriggerQualificationCommandsComplete := by
  refine ⟨fun s u x e p l hu hen hr hsrc hq => ?_, fun s u x e p l hu hen hr hsrc hp hlast => ?_, fun s u d hu hr hc => ?_,
    fun s u d hst hd hb => ?_, fun s p stamp level hp hen hr hl => exec_trigInEdge_accepted stamp hp hen hr hl,
    fun s p stamp level hp hen hr => ?_⟩
  · have hlt : lt u 32 = true := decide_eq_true hu
    have h6 : lt 6 (s.get (Reg.TRG_UCFG_SRC.e u)) = true := decide_eq_true hsrc
    show execTriggerProduct u x e s = _
    rw [execTriggerProduct, hen, hlt, hr, h6, hq, bif_true, Bool.not_true, Bool.or_false, Bool.or_false, bif_false]
  · have hlt : lt u 32 = true := decide_eq_true hu
    have h6 : lt 6 (s.get (Reg.TRG_UCFG_SRC.e u)) = false := decide_eq_false (by lia)
    show execTriggerProduct u x e s = _
    rw [execTriggerProduct, hen, hlt, hr, h6, hp, hlast, bif_false, Bool.not_true, Bool.or_false, Bool.or_false, bif_false]
    rfl
  · have hlt : lt u 32 = true := decide_eq_true hu
    show execTriggerFire u s = _
    unfold execTriggerFire
    rw [hc, hlt, hr]
    dsimp only
    rw [Bool.true_and, bif_true]
  · have hf : s.firedEnds u = s := by
      unfold State.firedEnds
      rw [hst]
      rfl
    show execHoldoffEnd u s = _
    rw [execHoldoffEnd, hf, hst, hd]
    dsimp only
    rw [hb, Bool.not_false, Bool.and_true, beq_self_eq_true, bif_true]
  · have hlt : lt p 8 = true := decide_eq_true hp
    obtain ⟨a, k, hak⟩ : ∃ a k, s.stampScale (s.quantised stamp) = (a, k) := ⟨_, _, rfl⟩
    have ha := s.stampScale_fst (s.quantised stamp)
    rw [hak] at ha ⊢
    have hon : a.on (Reg.TIN_CFG_EN.e p) = true ∧ a.runs = true := by
      rcases ha with h | h <;> (dsimp only at h; subst h; exact ⟨hen, hr⟩)
    show execTrigInEdge p level false stamp s = _
    rw [execTrigInEdge, hak]
    dsimp only
    rw [Bool.false_and, bif_false, hlt, hon.1, hon.2, Bool.not_true, Bool.or_false, Bool.or_false, bif_false, Bool.not_false, bif_true]

end Sys2Proof.Machine
end

section
/-!
PROOF. The channels of the gallery DMA (14 R433 to R454).
-/
namespace Sys2Proof.Machine

/-! ### Pairs of words -/

/-- A pair of words apart from each other and wide enough for `v` holds it. -/
theorem State.get64_put64 (s : State) {a b : Loc} {v : Nat} (ha : a.lo + a.w ≤ 32) (hb : b.lo + b.w ≤ 32) (haw : a.w = 32)
    (hv : v / 2 ^ 32 < 2 ^ b.w) (h : b.apart a) : (s.put64 a b v).get64 a b = v := by
  unfold State.put64 State.get64
  rw [State.get_put_apart _ _ h, State.get_put_same _ _ _ ha, State.get_put_same _ _ _ hb, haw, Nat.mod_eq_of_lt hv, Nat.mod_add_div']

theorem State.get64_lt (s : State) {a b : Loc} (ha : a.w = 32) : s.get64 a b / 2 ^ 32 < 2 ^ b.w := by
  have h1 := s.get_lt a
  have h2 := s.get_lt b
  rw [ha] at h1
  unfold State.get64
  rw [Nat.add_mul_div_right _ _ (by decide), Nat.div_eq_of_lt h1, Nat.zero_add]
  exact h2

/-! ### Where a channel's words lie -/

/-- The dimensions of a channel's fields: galleries and channels. -/
noncomputable abbrev chDims : List (Nat × Nat) := [(0x100000, 8), (0x40, 16)]

theorem Fld.ch_off {f : Fld} (h : f.dims = chDims) (g c : Nat) : (f.e2 g c).off = f.off + (g * 0x100000 + (c * 0x40 + 0)) := by
  rw [Fld.e2_off, h, elemOff_cons, elemOff_cons, elemOff_nil]

/-! ### Elements -/

/-- A move of elements writes memory, and of the registers only the count of writes lost. -/
structure Moves (s t : State) : Prop where
  writes : Writes (fun l => l = Reg.MEM_LOSTW_COUNT.z) s t
  dma : t.dma = s.dma

namespace Moves

theorem trans {s t u : State} (h : Moves s t) (k : Moves t u) : Moves s u := ⟨h.writes.trans k.writes, k.dma.trans h.dma⟩

theorem pokeAll (s : State) (a : Nat) (bs : List Byte) : Moves s (s.pokeAll a bs) := by
  unfold State.pokeAll
  cases lt a (2 ^ 44) with
  | false => exact ⟨.of_regs rfl, rfl⟩
  | true =>
    rw [bif_true]
    dsimp only
    cases (upto bs.length).any fun i => (s.remapOf (s.rankOf (a + i))).lost
    · rw [bif_false]
      exact ⟨.of_regs rfl, rfl⟩
    · rw [bif_true]
      exact ⟨Writes.after (.count _ _ rfl) rfl, State.count_dma ..⟩

theorem dmaElem (s : State) (d : Desc) (e : Nat) : Moves s (s.dmaElem d e).1 := by
  unfold State.dmaElem
  cases d.fill
  · rw [bif_false]
    exact pokeAll ..
  · rw [bif_true]
    exact pokeAll ..

/-- One step of a move. -/
noncomputable abbrev step (d : Desc) (i : Nat) (c : State × Nat) (e : Nat) : State × Nat := ((c.1.dmaElem d (i + e)).1, c.2 + (c.1.dmaElem d (i + e)).2)

theorem foldl (d : Desc) (i : Nat) (l : List Nat) (c : State × Nat) : Moves c.1 (l.foldl (step d i) c).1 := by
  induction l generalizing c with
  | nil => exact ⟨.refl _, rfl⟩
  | cons e l ih => exact (dmaElem c.1 d (i + e)).trans (ih (step d i c e))

theorem dmaMove (s : State) (d : Desc) (i k : Nat) : Moves s (s.dmaMove d i k).1 := foldl d i (upto k) (s, 0)

end Moves

/-! ### A channel's operations -/

theorem State.chan_setChan (s : State) (g c : Nat) (x : Channel) : (s.setChan g c x).chan g c = x := by
  simp only [State.chan, State.setChan, tget_tset_same]

theorem State.get_setChan (s : State) (g c : Nat) (x : Channel) (l : Loc) : (s.setChan g c x).get l = s.get l := rfl
theorem State.on_setChan (s : State) (g c : Nat) (x : Channel) (l : Loc) : (s.setChan g c x).on l = s.on l := rfl
theorem State.mem_setChan (s : State) (g c : Nat) (x : Channel) : (s.setChan g c x).mem = s.mem := rfl

theorem State.chan_congr {s t : State} (h : t.dma = s.dma) (g c : Nat) : t.chan g c = s.chan g c := by
  rw [State.chan, h, State.chan]

theorem attn_ne {a : Nat} (h : 0x30C0004 < a) (g y : Nat) : a + (g * 0x100000 + y) ≠ (Reg.DMA_STAT_ATTN.e g).off :=
  Nat.ne_of_gt (Nat.add_lt_add_of_lt_of_le h (Nat.add_le_add_left (Nat.zero_le y) _))

/-- A W1C bit of channel `c` of gallery `g` shows, and what the flag, the attention bits and the event leave. -/
structure ShowsBit (g c : Nat) (f : Fld) (s t : State) : Prop where
  writes : Writes (fun l => l = f.e2 g c ∨ l = Reg.DMA_STAT_ATTN.e g) s t
  on : t.on (f.e2 g c) = true
  mem : t.mem = s.mem
  dma : t.dma = s.dma

theorem State.chBit_shows {g c : Nat} (hg : g < 8) {f : Fld} (hoff : f.off = 0x30C0108) (hd : f.dims = chDims)
    (hw : f.w = 1) (hlo : f.lo ≤ 4) (s : State) : ShowsBit g c f s (s.chBit g c f) := by
  have ho : (f.e2 g c).off = 0x30C0108 + (g * 0x100000 + (c * 0x40 + 0)) := by rw [Fld.ch_off hd, hoff]
  unfold State.chBit
  cases hon : s.on (f.e2 g c) with
  | true =>
    rw [bif_true]
    exact ⟨.refl _, hon, rfl, rfl⟩
  | false =>
    rw [bif_false]
    have hg2 : 2 * g < 2 * 8 := Nat.mul_lt_mul_of_pos_left hg (by decide)
    have hn : (bif f == Reg.DMA_CHSTAT_DONE then 440 else 441) + 2 * g < 512 := by
      cases f == Reg.DMA_CHSTAT_DONE
      · exact (Nat.add_lt_add_left hg2 441).trans (by decide)
      · exact (Nat.add_lt_add_left hg2 440).trans (by decide)
    have hflag : (s.flag (f.e2 g c) true).on (f.e2 g c) = true :=
      State.on_flag_same s _ true (by rw [Fld.e2_lo, Fld.e2_w, hw]; exact (Nat.succ_le_succ hlo).trans (by decide)) (by rw [Fld.e2_w, hw])
    refine ⟨((Writes.flag s true (.inl rfl)).trans (.put _ _ (.inr rfl))).trans (.ev _ hn), ?_, ?_, ?_⟩
    · rw [State.on_ev _ _ _ hn (ho ▸ array_not_event (by decide) _)]
      unfold State.dmaAttn
      rw [State.on_put_apart _ _ (.inl (ho ▸ attn_ne (by decide) g _)), hflag]
    · rw [State.ev_mem]
      unfold State.dmaAttn
      rw [State.put_mem, State.flag_mem]
    · rw [State.ev_dma]
      unfold State.dmaAttn
      rw [State.put_dma, State.flag_dma]

/-- A channel fetches the descriptor at `a`. -/
structure Begins (g c a : Nat) (s t : State) : Prop where
  writes : Writes (fun l => l = Reg.DMA_CHCUR_L_ADDR.e2 g c ∨ l = Reg.DMA_CHCUR_H_ADDR.e2 g c ∨ l = chState g c) s t
  state : t.get (chState g c) = 1
  cur : a / 2 ^ 32 < 2 ^ 16 → t.chCur g c = a
  mem : t.mem = s.mem

theorem State.dmaBegin_begins (s : State) (g c a : Nat) : Begins g c a s (s.dmaBegin g c a) := by
  unfold State.dmaBegin
  refine ⟨((Writes.put64 _ a (.inl rfl) (.inr (.inl rfl))).trans (.put _ 1 (.inr (.inr rfl)))).after rfl,
    State.get_put_same _ _ _ (by decide : 29 + 3 ≤ 32), fun ha => ?_, ?_⟩
  · unfold State.chCur State.get64
    rw [State.get_put_apart _ _ (.inl (shift_ne (a := 0x30C0114) (by decide) _)),
      State.get_put_apart _ _ (.inl (shift_ne (a := 0x30C0118) (by decide) _)), ← State.get64,
      State.get64_put64 _ (by decide : 0 + 32 ≤ 32) (by decide : 0 + 16 ≤ 32) rfl ha (.inl (shift_ne (by decide) _))]
  · rw [State.put_mem, State.put64_mem, State.mem_setChan]

theorem link_high_lt (l : Nat) : l % 2 ^ 48 / 2 ^ 32 < 2 ^ 16 := Nat.div_lt_of_lt_mul (Nat.mod_lt l (by decide))

/-- A link without an end mark is begun. -/
theorem State.endMark_begins {s : State} {g c l : Nat} (hl : leNat (s.peekAll (s.chCur g c) 8) = l) (hb : bit l 63 = false) :
    Begins g c (l % 2 ^ 48) s (s.endMark g c) := by
  rw [State.endMark, hl, hb, bif_false]
  exact s.dmaBegin_begins g c _

/-- After a descriptor that is done without error, the channel goes on; its W1C bits and memory stay. -/
theorem State.dmaAfter_done {s : State} {g c : Nat} (hs : (s.chan g c).stopping = none) :
    Writes (fun l => l = Reg.DMA_CHCUR_L_ADDR.e2 g c ∨ l = Reg.DMA_CHCUR_H_ADDR.e2 g c ∨ l = chState g c) s (s.dmaAfter g c 0) ∧
      (s.dmaAfter g c 0).mem = s.mem := by
  have h3 : le 3 0 = false := rfl
  unfold State.dmaAfter
  rw [h3, bif_false, hs, Option.isSome_none, bif_false]
  dsimp only
  cases bit ((s.chan g c).link.getD (leNat (s.peekAll (s.chCur g c) 8))) 63
  · rw [bif_false]
    have h := s.dmaBegin_begins g c ((s.chan g c).link.getD (leNat (s.peekAll (s.chCur g c) 8)) % 2 ^ 48)
    exact ⟨h.writes, h.mem⟩
  · rw [bif_true]
    exact ⟨.put _ _ (.inr (.inr rfl)), State.put_mem ..⟩

/-- A descriptor without record that is done, INT being set, shows DONE. -/
theorem State.dmaFinish_done {s : State} {g c : Nat} {d : Desc} (n : Nat) (hg : g < 8) (hs : (s.chan g c).stopping = none)
    (h0 : bit d.flags 0 = false) (h1 : bit d.flags 1 = true) :
    (s.dmaFinish g c 0 n d).mem = s.mem ∧ (s.dmaFinish g c 0 n d).on (Reg.DMA_CHSTAT_DONE.e2 g c) = true := by
  obtain ⟨a, ha⟩ : ∃ a, a = s.wrap (Reg.DMA_CHDONE_COUNT.e2 g c) 1 := ⟨_, rfl⟩
  have hshow := a.chBit_shows (c := c) hg (f := Reg.DMA_CHSTAT_DONE) rfl rfl rfl (by decide)
  have hx : s.dmaFinish g c 0 n d = (a.chBit g c Reg.DMA_CHSTAT_DONE).dmaAfter g c 0 := by
    have hz : (0 == 0) = true := rfl
    have hnz : (0 != 0) = false := rfl
    have hz2 : (0 == 2) = false := rfl
    rw [State.dmaFinish, h0, h1, hz, hnz, hz2, Bool.or_false, Bool.and_false, Bool.false_and, bif_false, bif_false, Bool.true_or]
    dsimp only
    rw [bif_true, bif_false, Bool.true_and, bif_true, ← ha]
  have hstop : ((a.chBit g c Reg.DMA_CHSTAT_DONE).chan g c).stopping = none := by
    rw [State.chan_congr hshow.dma, ha]
    unfold State.wrap
    rw [State.chan_congr (State.put_dma ..), hs]
  obtain ⟨hw, hm⟩ := State.dmaAfter_done hstop
  rw [hx]
  constructor
  · rw [hm, hshow.mem, ha]
    unfold State.wrap
    rw [State.put_mem]
  · rw [hw.on _ (array_not_event (a := 0x30C0108) (by decide) _) ?_, hshow.on]
    rintro m (rfl | rfl | rfl)
    · exact .inl (shift_ne (a := 0x30C0108) (by decide) _)
    · exact .inl (shift_ne (a := 0x30C0108) (by decide) _)
    · exact .inr ⟨(by decide : 29 + 3 ≤ 32), .inl (by decide : 4 + 1 ≤ 29)⟩

/-- Settles O44. -/
theorem descriptorCopiesItsElements : Obligations.DescriptorCopiesItsElements := by
  intro s g c k m b d hg hc hst hdesc hd hwait hstop h0 h1 hmoved hlost hmove
  have hmoves := Moves.dmaMove s d m (d.count - m)
  obtain ⟨a, z, hr⟩ : ∃ a z, s.dmaMove d m (d.count - m) = (a, z) := ⟨_, _, rfl⟩
  rw [hr] at hmove hmoves ⊢
  dsimp only at hmove hmoves ⊢
  subst hmove
  obtain ⟨u, hu⟩ : ∃ u, u = a.count (Reg.DMA_CHMEMERR_COUNT.e2 g c) 0 := ⟨_, rfl⟩
  have hchan : u.chan g c = s.chan g c := by rw [hu, State.chan_congr (State.count_dma ..), State.chan_congr hmoves.dma]
  obtain ⟨v, hv⟩ : ∃ v, v = u.setChan g c { u.chan g c with moved := d.count, link := some (leNat (u.peekAll (u.chCur g c) 8)) } :=
    ⟨_, rfl⟩
  have hx : exec (.descriptorComplete g c k) s = .next (v.dmaFinish g c 0 (d.width * d.count) d) := by
    have hab : ((none : Option Bool) == some true) = false := rfl
    have hz : lt 0 (0 + 0) = false := rfl
    have h13 : (1 == 1 || 1 == 3) = true := rfl
    show execDescriptorComplete g c k s = _
    rw [execDescriptorComplete, hdesc]
    dsimp only
    rw [hst, hwait, h13, Option.isNone_none, Bool.and_true, bif_true, hd, hstop, hab, Bool.false_and, bif_false, bif_false, hmoved, hlost,
      hr, hz, bif_false, hv, hu]
    rfl
  have hvs : (v.chan g c).stopping = none := by rw [hv, State.chan_setChan, hchan, hstop]
  obtain ⟨hm, hon⟩ := State.dmaFinish_done (d.width * d.count) hg hvs h0 h1
  exact ⟨_, hx, by rw [hm, hv, State.mem_setChan, hu, State.count_mem], hon⟩

/-! ### Commands -/

/-- A STOP or ABORT of a RUNNING channel makes it STOPPING. -/
theorem State.dmaHalt_running {s : State} {g c : Nat} (hst : s.get (chState g c) = 1) (abort : Bool) :
    (s.dmaHalt g c abort).get (chState g c) = 3 ∧ ((s.dmaHalt g c abort).chan g c).stopping = some abort ∧
      (s.dmaHalt g c abort).mem = s.mem := by
  have hx : s.dmaHalt g c abort = (s.setChan g c { s.chan g c with stopping := some abort }).put (chState g c) 3 := by
    unfold State.dmaHalt
    rw [hst]
    rfl
  rw [hx]
  refine ⟨State.get_put_same _ _ _ (by decide : 29 + 3 ≤ 32), ?_, ?_⟩
  · rw [State.chan_congr (State.put_dma ..), State.chan_setChan]
  · rw [State.put_mem, State.mem_setChan]

/-- A channel without a held START that reaches IDLE. -/
theorem State.dmaRest_idle {s : State} {g c : Nat} (hh : (s.chan g c).held ≠ some 1) :
    (s.dmaRest g c).get (chState g c) = 0 ∧ (s.dmaRest g c).chan g c = Channel.reset ∧
      (s.dmaRest g c).on (Reg.DMA_CHSTAT_CMDHELD.e2 g c) = false ∧ (s.dmaRest g c).mem = s.mem := by
  have hx : s.dmaRest g c = ((s.setChan g c Channel.reset).put (chState g c) 0).flag (Reg.DMA_CHSTAT_CMDHELD.e2 g c) false := by
    rw [State.dmaRest, beq_false_of_ne hh, bif_false]
  rw [hx]
  refine ⟨?_, ?_, State.on_flag_same _ _ false (by decide : 28 + 1 ≤ 32) (by decide : 1 ≤ 1), ?_⟩
  · rw [State.get_flag_apart _ _ (.inr ⟨(by decide : 28 + 1 ≤ 32), .inr (by decide : 28 + 1 ≤ 29)⟩),
      State.get_put_same _ _ _ (by decide : 29 + 3 ≤ 32)]
    rfl
  · rw [State.chan_congr (State.flag_dma ..), State.chan_congr (State.put_dma ..), State.chan_setChan]
  · rw [State.flag_mem, State.put_mem, State.mem_setChan]

/-- A RUNNING channel without descriptor fetches one. -/
theorem State.fetches {s : State} {g c : Nat} (hst : s.get (chState g c) = 1) (hdesc : (s.chan g c).desc = none)
    (hwait : (s.chan g c).waiting = none) :
    ((s.get (chState g c) == 1 || s.get (chState g c) == 3) && (s.chan g c).desc.isNone && (s.chan g c).waiting.isNone) = true := by
  rw [hst, hdesc, hwait]
  rfl

/-- The state of channel `c` after a descriptor at an address that may not be accessed has been refused. -/
noncomputable def State.addressRefused (s : State) (g c : Nat) : State :=
  ((s.setChan g c { s.chan g c with desc := some (zeros 64), moved := 0, lost := 0, link := none }).put64 (Reg.DMA_CHERR_L_ADDR.e2 g c)
    (Reg.DMA_CHERR_H_ADDR.e2 g c) (s.chCur g c)).put (Reg.DMA_CHSTAT_ERRCODE.e2 g c) 4

/-- A descriptor at an address that may not be accessed brings its channel to ERROR with code 4. -/
theorem exec_descriptorFetch_refused {s : State} {g c : Nat} (hg : g < 8) (hst : s.get (chState g c) = 1)
    (hdesc : (s.chan g c).desc = none) (hwait : (s.chan g c).waiting = none) (hmay : s.dmaMay (s.chCur g c) 64 = false)
    (hq : s.on (Reg.DMA_CHCQCFG_EN.e2 g c) = false) :
    ∃ t, exec (.descriptorFetch g c) s = .next t ∧ t.get (chState g c) = 4 ∧ t.get (Reg.DMA_CHSTAT_ERRCODE.e2 g c) = 4 ∧
      t.on (Reg.DMA_CHSTAT_ERR.e2 g c) = true ∧ t.mem = s.mem := by
  obtain ⟨d, hd⟩ : ∃ d, d = descOf (zeros 64) := ⟨_, rfl⟩
  obtain ⟨a, ha⟩ : ∃ a, a = s.addressRefused g c := ⟨_, rfl⟩
  obtain ⟨u, hu⟩ : ∃ u, u = (a.setChan g c { Channel.reset with held := (a.chan g c).held }).put (chState g c) 4 := ⟨_, rfl⟩
  have hs : (chState g c).off = 0x30C0108 + (g * 0x100000 + (c * 0x40 + 0)) := rfl
  have hc : (Reg.DMA_CHSTAT_ERRCODE.e2 g c).off = 0x30C0108 + (g * 0x100000 + (c * 0x40 + 0)) := rfl
  have hen : a.on (Reg.DMA_CHCQCFG_EN.e2 g c) = false := by
    rw [ha]
    unfold State.addressRefused State.put64
    have apart {b : Nat} (h : 0x30C012C ≠ b) := shift_ne h (g * 0x100000 + (c * 0x40 + 0))
    rw [State.on_put_apart _ _ (.inl (apart (by decide))), State.on_put_apart _ _ (.inl (apart (by decide))),
      State.on_put_apart _ _ (.inl (apart (by decide))), State.on_setChan, hq]
  have hfin : a.dmaFinish g c 4 0 d = u.chBit g c Reg.DMA_CHSTAT_ERR := by
    have h40 : (4 == 0) = false := rfl
    have h42 : (4 == 2) = false := rfl
    have h3 : le 3 4 = true := rfl
    rw [State.dmaFinish, hen, h40, h42, Bool.false_and, Bool.false_and, bif_false, bif_false, Bool.or_false]
    dsimp only
    rw [bif_false, bif_false, Bool.false_and, bif_false]
    unfold State.dmaAfter
    rw [h3, bif_true, hu]
  have hx : exec (.descriptorFetch g c) s = .next (u.chBit g c Reg.DMA_CHSTAT_ERR) := by
    have h40 : (4 == 0) = false := rfl
    show execDescriptorFetch g c s = _
    rw [execDescriptorFetch, State.fetches hst hdesc hwait, bif_true]
    dsimp only
    rw [hmay, bif_false, bif_false, h40, bif_false, ← hfin, ha, hd, State.addressRefused]
  have hshow := u.chBit_shows (c := c) hg (f := Reg.DMA_CHSTAT_ERR) rfl rfl rfl (by decide)
  have hapart (l : Loc) (ho : l.off = 0x30C0108 + (g * 0x100000 + (c * 0x40 + 0))) (hlo : 4 ≤ l.lo) :
      (u.chBit g c Reg.DMA_CHSTAT_ERR).get l = u.get l := by
    refine hshow.writes.get _ (ho ▸ array_not_event (by decide) _) ?_
    rintro m (rfl | rfl)
    · exact .inr ⟨(by decide : 3 + 1 ≤ 32), .inr hlo⟩
    · exact .inl (ho ▸ attn_ne (by decide) g _)
  refine ⟨_, hx, ?_, ?_, hshow.on, ?_⟩
  · rw [hapart _ hs (by decide : 4 ≤ 29), hu, State.get_put_same _ _ _ (by decide : 29 + 3 ≤ 32)]
    rfl
  · rw [hapart _ hc (by decide : 4 ≤ 24), hu, State.get_put_apart _ _ (.inr ⟨(by decide : 29 + 3 ≤ 32), .inl (by decide : 24 + 3 ≤ 29)⟩), State.get_setChan, ha]
    unfold State.addressRefused
    rw [State.get_put_same _ _ _ (by decide : 24 + 3 ≤ 32)]
    rfl
  · rw [hshow.mem, hu, State.put_mem, State.mem_setChan, ha]
    unfold State.addressRefused
    rw [State.put_mem, State.put64_mem, State.mem_setChan]

/-- Settles O43. -/
theorem dmaChannelCommandsComplete : Obligations.DmaChannelCommandsComplete := by
  refine ⟨fun s g c hg hc hst => ?_, fun s g c l hg hc hst hl hb => ?_, fun s g c hg hc hst => ?_, fun s g c hg hc hst => ?_,
    fun s g c hg hc hst hh => ?_, fun s g c hst => ?_, fun s g c hg hc hst hdesc hwait hmay hok => ?_,
    fun s g c hg hc hst hdesc hwait hmay hq => exec_descriptorFetch_refused hg hst hdesc hwait hmay hq,
    fun s g c l hg hc hst hp hl hb => ?_, fun s g c v hlt => ?_, fun s g c v hg hc hle hwait => ?_,
    fun s r g w v hw hok => ?_, fun s r g w v hw hok => ?_⟩
  · have h := s.dmaBegin_begins g c (s.get64 (Reg.DMA_CHHEAD_L_ADDR.e2 g c) (Reg.DMA_CHHEAD_H_ADDR.e2 g c))
    refine ⟨s.dmaStart g c, ?_, h.state, h.cur (s.get64_lt rfl), h.mem⟩
    show execDmaStart g c s = _
    rw [execDmaStart, hst, beq_self_eq_true, bif_true]
  · have h := State.endMark_begins hl hb
    refine ⟨s.endMark g c, ?_, h.state, h.cur (link_high_lt l), h.mem⟩
    show execDmaDoorbell g c s = _
    rw [execDmaDoorbell, hst, beq_self_eq_true, bif_true]
  · exact ⟨_, rfl, State.dmaHalt_running hst false⟩
  · exact ⟨_, rfl, State.dmaHalt_running hst true⟩
  · refine ⟨s.dmaRest g c, ?_, State.dmaRest_idle hh⟩
    show execDmaClear g c s = _
    rw [execDmaClear, hst, beq_self_eq_true, bif_true]
  · have h34 : (3 == 4) = false := rfl
    show execDmaClear g c s = _
    rw [execDmaClear, hst, h34, bif_false, beq_self_eq_true, bif_true]
  · refine ⟨s.setChan g c { s.chan g c with desc := some (s.peekAll (s.chCur g c) 64), moved := 0, lost := 0, link := none }, ?_, ?_,
      rfl, rfl⟩
    · show execDescriptorFetch g c s = _
      rw [execDescriptorFetch, State.fetches hst hdesc hwait, bif_true]
      dsimp only
      rw [hmay, bif_true, bif_true, hok, beq_self_eq_true, bif_true]
    · rw [State.chan_setChan]
  · have h := State.endMark_begins hl hb
    refine ⟨s.endMark g c, ?_, h.state, h.cur (link_high_lt l), h.mem⟩
    show execEndMarkPoll g c s = _
    unfold execEndMarkPoll
    rw [hst, bne_iff_ne.mpr hp, beq_self_eq_true, Bool.and_true, bif_true]
  · have h : lt (2 ^ s.get (Reg.DMA_CHCQCFG_CQLOG.e2 g c)) ((s.get (Reg.DMA_CHCQ_WIDX.e2 g c) + 2 ^ 16 - v.toNat / 2 ^ 16) % 2 ^ 16) = true :=
      decide_eq_true hlt
    show execDmaCqRidxWrite g c v s = _
    rw [execDmaCqRidxWrite, h, bif_true]
  · have h : lt (2 ^ s.get (Reg.DMA_CHCQCFG_CQLOG.e2 g c)) ((s.get (Reg.DMA_CHCQ_WIDX.e2 g c) + 2 ^ 16 - v.toNat / 2 ^ 16) % 2 ^ 16) = false :=
      decide_eq_false (Nat.not_lt.mpr hle)
    have hv : v.toNat / 2 ^ 16 < 2 ^ 16 := Nat.div_lt_of_lt_mul v.isLt
    refine ⟨s.put (Reg.DMA_CHCQ_RIDX.e2 g c) (v.toNat / 2 ^ 16), ?_, ?_, State.put_mem .., State.put_dma ..⟩
    · show execDmaCqRidxWrite g c v s = _
      rw [execDmaCqRidxWrite, h, bif_false]
      dsimp only
      rw [State.chan_congr (State.put_dma ..), hwait]
    · rw [State.get_put_same _ _ _ (by decide : 16 + 16 ≤ 32)]
      exact Nat.mod_eq_of_lt hv
  · show execDmaGsdataAccess r g 0 true v s = _
    have h0 : (if 0 = 2 then 8 else 4) = 4 := rfl
    have h01 : (0 == 1) = false := rfl
    have h02 : (0 == 2) = false := rfl
    have hne : (0 != 2) = true := rfl
    rw [execDmaGsdataAccess, hw, h0, hok, h01, h02, hne, bif_false, Bool.false_and, bif_false, Bool.true_or, Bool.and_true, Bool.not_true,
      bif_false, bif_true, bif_false]
  · show execDmaGsdataAccess r g 0 false v s = _
    have h0 : (if 0 = 2 then 8 else 4) = 4 := rfl
    have h01 : (0 == 1) = false := rfl
    have h02 : (0 == 2) = false := rfl
    have hne : (0 != 2) = true := rfl
    rw [execDmaGsdataAccess, hw, h0, hok, h01, h02, hne, bif_false, Bool.false_and, bif_false, Bool.true_or, Bool.and_true, Bool.not_true,
      bif_false, bif_false, bif_false]

end Sys2Proof.Machine
end

section
/-!
PROOF. Records that reach their streams (16 R484 to R490).
-/
namespace Sys2Proof.Machine

/-- A record that stream 0 of `ringClash` discards nothing for. -/
noncomputable def clashRecord : Record := ⟨0, 0, 0, []⟩

/-- Stream 0 with a record for host ring 8064; the block has rings 0 to 255. -/
noncomputable def clashStream : Stream := { Stream.reset with queue := [⟨0, false, 0, [], 0, 1, 8064, 0, true, 0, false⟩] }

/-- Full mode right after reset, stream 0 running with sequence number 2 ^ 32 − 1, one record closed for it. -/
noncomputable def ringClash : State :=
  { (((((State.reset.put Reg.PWR_STAT_MODE.z 4).put (strState 0) 1).flag (Reg.STR_SCFG_EN.e 0) true).put (Reg.STR_SSEQ_SEQ.e 0)
      (2 ^ 32 - 1)).setStream 0 clashStream) with closed := [(0, 0, clashRecord)] }

/-- The sequence number of stream 0 after a command. -/
noncomputable def seqAfter (r : Res) : Nat :=
  match r with
  | .next t => t.get (Reg.STR_SSEQ_SEQ.e 0)
  | _ => 0

/-- Refutes O47: the statement speaks of every queue, and the STAT word of ring 8064, for which the first record of the queue waits, is
the word of the stream's sequence number, in which the record that enters sets STARVED. -/
theorem not_recordsEnterOrAreCounted : ¬ Obligations.RecordsEnterOrAreCounted := by
  intro h
  obtain ⟨t, ht, -, hseq, -⟩ := h.1 ringClash (0, 0, clashRecord) 0 (2 ^ 32 - 1) clashStream (by decide) (by decide) (by decide)
    (by decide) (by decide) rfl (by decide) rfl rfl (by decide) (by decide) (by decide) (by decide) (by decide) (by decide) (by decide)
    (by decide)
  have hread : seqAfter (exec .recordEnqueue ringClash) = 2 ^ 16 := by decide
  rw [ht] at hread
  exact absurd (hseq.symm.trans hread) (by decide)

end Sys2Proof.Machine
end

section
/-!
PROOF. Samples are released, spectra formed and delivered (04 R137, 05 R161 to R172, 06 R190 to R198).
-/
namespace Sys2Proof.Machine

/-- Settles O21. -/
theorem spectrumCommandsComplete : Obligations.SpectrumCommandsComplete := by
  refine ⟨fun _ _ => rfl, fun s n m sat csat p h => ?_, fun s n m sat csat p h => ?_, fun s n m p h => ?_, fun s n m p h => ?_,
    fun s n m h => ?_, fun s n mf h => ?_, fun s n mf k g c hd hb hn => ?_⟩
  · show execCoarseSpectrum n false m s = _
    rw [execCoarseSpectrum, if_neg Bool.false_ne_true, h]
    dsimp only
    rw [if_neg Bool.false_ne_true]
  · show execCoarseSpectrum n true m s = _
    rw [execCoarseSpectrum, if_pos rfl, h]
    dsimp only
    rw [if_pos rfl]
  · show Host.Outcome.next (s.sketchForm n m false) = _
    unfold State.sketchForm
    rw [h]
  · show Host.Outcome.next (s.sketchForm n m true) = _
    unfold State.sketchForm
    rw [h]
  · show execCoarseVoidDeadline n m s = _
    unfold execCoarseVoidDeadline
    rw [h, bif_false]
  · show execFineSpectrumDue n mf s = _
    rw [execFineSpectrumDue, h, bif_true]
  · show execFineSpectrum n mf k s = _
    unfold execFineSpectrum
    rw [hd]
    dsimp only
    rw [hb, hn, Bool.not_false, Bool.and_true, if_pos rfl]

end Sys2Proof.Machine
end

section
/-!
SUPPORT. What an operation writes and which events stay pending, in one relation; the operations of the recorder (10 R295 to R323).
-/
namespace Sys2Proof.Machine

/-- From `s` to `t` no register is written but the events' words and the places of `W`, and every event that is pending stays so. -/
structure Frame (W : Loc → Prop) (s t : State) : Prop where
  writes : Writes W s t
  pends : ∀ m < 512, s.on (evPend m) = true → t.on (evPend m) = true

namespace Frame

variable {W V : Loc → Prop} {s t u : State}

theorem of_regs (h : t.regs = s.regs) : Frame W s t := ⟨.of_regs h, fun _ _ hon => (State.on_congr h _).trans hon⟩
theorem refl (s : State) : Frame W s s := of_regs rfl
theorem trans (h : Frame W s t) (k : Frame W t u) : Frame W s u := ⟨h.writes.trans k.writes, fun m hm hon => k.pends m hm (h.pends m hm hon)⟩
theorem after {r : State} (h : Frame W s t) (hr : s.regs = r.regs) : Frame W r t := (of_regs hr).trans h
theorem before {r : State} (h : Frame W s t) (hr : r.regs = t.regs) : Frame W s r := h.trans (of_regs hr)
theorem mono (h : Frame V s t) (hv : ∀ l, V l → W l) : Frame W s t := ⟨h.writes.mono hv, h.pends⟩
theorem cond (c : Bool) (ha : Frame W s t) (hb : Frame W s u) : Frame W s (bif c then t else u) := by cases c <;> assumption
theorem foldl {β : Type} {f : State → β → State} (l : List β) (h : ∀ a b, Frame W a (f a b)) (s : State) :
    Frame W s (l.foldl f s) := by
  induction l generalizing s with
  | nil => exact refl s
  | cons b l ih => exact (h s b).trans (ih _)

/-- The same, for the elements of the list alone. -/
theorem foldl_mem {β : Type} {f : State → β → State} (l : List β) (h : ∀ a, ∀ b ∈ l, Frame W a (f a b)) (s : State) :
    Frame W s (l.foldl f s) := by
  induction l generalizing s with
  | nil => exact refl s
  | cons b l ih => exact (h s b (.head _)).trans (ih (fun a c hc => h a c (.tail _ hc)) _)

theorem put (s : State) {l : Loc} (v : Nat) (h : W l) (he : ¬ eventWord l.off) : Frame W s (s.put l v) := by
  refine ⟨.put s v h, fun m hm hon => ?_⟩
  rw [State.on_put_apart _ _ (.inl fun ho => he (.inl (ho ▸ evPend_range hm))), hon]
theorem flag (s : State) {l : Loc} (b : Bool) (h : W l) (he : ¬ eventWord l.off) : Frame W s (s.flag l b) := put s _ h he
theorem count (s : State) {l : Loc} (k : Nat) (h : W l) (he : ¬ eventWord l.off) : Frame W s (s.count l k) := put s _ h he
theorem wrap (s : State) {l : Loc} (k : Nat) (h : W l) (he : ¬ eventWord l.off) : Frame W s (s.wrap l k) := put s _ h he
theorem put64 (s : State) {a b : Loc} (v : Nat) (ha : W a) (hb : W b) (hae : ¬ eventWord a.off) (hbe : ¬ eventWord b.off) :
    Frame W s (s.put64 a b v) := (put s _ ha hae).trans (put _ _ hb hbe)
theorem raise (s : State) {n : Nat} (tag : Nat) (h : n < 512) : Frame W s (s.raise n tag) :=
  ⟨.raise s tag h, fun m _ hon => (PendKept.raise s n tag).1 m hon⟩
theorem ev (s : State) {n : Nat} (h : n < 512) : Frame W s (s.ev n) := raise s _ h

theorem get (h : Frame W s t) (l : Loc) (he : ¬ eventWord l.off) (hl : ∀ m, W m → m.apart l) : t.get l = s.get l := h.writes.get l he hl
theorem on (h : Frame W s t) (l : Loc) (he : ¬ eventWord l.off) (hl : ∀ m, W m → m.apart l) : t.on l = s.on l := h.writes.on l he hl

theorem pokeAll (s : State) (a : Nat) (bs : List Byte) (h : W Reg.MEM_LOSTW_COUNT.z) : Frame W s (s.pokeAll a bs) := by
  unfold State.pokeAll
  cases lt a (2 ^ 44) with
  | false => exact .of_regs rfl
  | true =>
    rw [bif_true]
    dsimp only
    cases (upto bs.length).any fun i => (s.remapOf (s.rankOf (a + i))).lost
    · rw [bif_false]
      exact .of_regs rfl
    · rw [bif_true]
      exact after (.count _ _ h (not_eventWord (.inr (.inr (by decide))))) rfl

end Frame

/-- The event of an occurrence is pending after it. -/
theorem State.ev_pends (s : State) (n : Nat) : (s.ev n).on (evPend n) = true := (PendKept.raise s n s.now).2

/-- An event is pending after the operations that follow its occurrence. -/
theorem Frame.pended {W : Loc → Prop} {s t : State} {n : Nat} (hn : n < 512) (h : Frame W (s.ev n) t) : t.on (evPend n) = true :=
  h.pends n hn (s.ev_pends n)

/-! ### The end of a swap -/

/-- The words at the start of a block's window, its header among them, and those of the admission engine. -/
def hdrWord (l : Loc) : Prop := l.off % 0x40000 < 0x100 ∨ l.off / 0x100 = 0x1080 ∨ 0x3E00000 ≤ l.off

theorem Blk.hdr_word (b : Blk) {l : Loc} (h : l.off = b.hdr + 4 ∨ l.off = b.hdr + 0x10) : hdrWord l ∧ ¬ eventWord l.off := by
  obtain ⟨k, hk, ho⟩ : ∃ k < 0x100, l.off = b.hdr + k := h.elim (fun h => ⟨4, by decide, h⟩) fun h => ⟨0x10, by decide, h⟩
  refine ⟨?_, ho ▸ b.hdr_not_eventWord hk⟩
  unfold hdrWord
  rw [ho]
  rcases b.hdr_place with hp | ⟨hp, -, -⟩
  · exact .inr (.inl (by rw [hp, show 0x108000 = 0x100 * 0x1080 from rfl, Nat.mul_add_div (by decide), Nat.div_eq_of_lt hk]))
  · exact .inl (by rw [Nat.add_mod, hp, Nat.zero_add, Nat.mod_mod]; exact (Nat.mod_le k _).trans_lt hk)

theorem swpend_place {b : Blk} {l : Loc} (h : swpend b = some l) : l.off % 0x40000 < 0x100 ∧ 0x104000 ≤ l.off ∧ l.off < 0x3E00000 := by
  have hall : (swpend b).all (fun l => decide (l.off % 0x40000 < 0x100 ∧ 0x104000 ≤ l.off ∧ l.off < 0x3E00000)) = true := by
    cases b <;> rfl
  rw [h] at hall
  exact of_decide_eq_true hall

theorem swpend_word {b : Blk} {l : Loc} (h : swpend b = some l) : hdrWord l ∧ ¬ eventWord l.off :=
  ⟨.inl (swpend_place h).1, not_eventWord (.inr (.inr (swpend_place h).2.1))⟩

theorem adm_word {f : Fld} (h : 0x3E00000 ≤ f.off) : hdrWord f.z ∧ ¬ eventWord f.z.off :=
  ⟨.inr (.inr h), not_eventWord (.inr (.inr (le_trans (by decide) h)))⟩

namespace Frame

theorem flagHdr (s : State) {l : Loc} (b : Bool) (h : hdrWord l ∧ ¬ eventWord l.off) : Frame hdrWord s (s.flag l b) := flag s b h.1 h.2
theorem putHdr (s : State) {l : Loc} (v : Nat) (h : hdrWord l ∧ ¬ eventWord l.off) : Frame hdrWord s (s.put l v) := put s v h.1 h.2

/-- A block's freeze for a commit, and its end. -/
theorem freeze (v : Bool) (s : State) (b : Blk) : Frame hdrWord s (State.freeze v s b) :=
  flagHdr s v (b.hdr_word (l := b.frozen) (.inl rfl))

theorem pend (v : Bool) (s : State) (b : Blk) : Frame hdrWord s (s.pend v b) := by
  have hf := freeze v s b
  unfold State.pend
  generalize hl : swpend b = o
  cases o with
  | none => exact hf
  | some l => exact hf.trans (flagHdr _ v (swpend_word hl))

theorem admStart (s : State) (r : AdmRequest) : Frame hdrWord s (s.admStart r) := by
  unfold State.admStart
  extract_lets named a b
  have hb : Frame hdrWord s b := (foldl named (fun t b => pend true t b) s).trans
    (putHdr _ _ (adm_word (f := Reg.ADM_STAT_STATE) (by decide)))
  clear_value b
  exact hb.before rfl

theorem admNext (s : State) : Frame hdrWord s s.admNext := by
  unfold State.admNext
  generalize s.adm.held = o
  cases o with
  | none => exact putHdr _ _ (adm_word (f := Reg.ADM_STAT_STATE) (by decide))
  | some r =>
    refine trans ?_ (admStart _ _)
    exact after (flagHdr _ _ (adm_word (f := Reg.ADM_STAT_HELD) (by decide))) rfl

theorem genReached (s : State) : Frame hdrWord s s.genReached :=
  cond _ (((putHdr _ _ (adm_word (f := Reg.ADM_GEN_GEN) (by decide))).trans (ev _ (by decide))).trans (admNext _)) (refl s)

theorem swapDone (s : State) (b : Blk) : Frame hdrWord s (s.swapDone b) := by
  have hgen := b.hdr_word (l := b.gen) (.inr rfl)
  unfold State.swapDone
  extract_lets a c
  have hc : Frame hdrWord s c := (putHdr s _ hgen).trans (freeze false _ b)
  clear_value c
  exact hc.trans (after (genReached _) rfl)

end Frame

/-! ### The recorder -/

/-- The words behind REC_STAT, with CAPUSE of REC_STAT itself. -/
def recWord (l : Loc) : Prop := l = Reg.REC_STAT_CAPUSE.z ∨ 0x2800028 ≤ l.off

theorem recWord.plain {l : Loc} (h : recWord l) : ¬ eventWord l.off := by
  refine not_eventWord (.inr (.inr ?_))
  rcases h with rfl | h
  · decide
  · exact le_trans (by decide) h

/-- The words that depth, pins, use and the oldest indices are shown in. -/
def syncWord (l : Loc) : Prop := l = Reg.REC_STAT_CAPUSE.z ∨ l = Reg.REC_DEPTH_DEPTH.z ∨ l = Reg.REC_PIN_PINNED.z ∨ 0x2801000 ≤ l.off

theorem syncWord.rec {l : Loc} (h : syncWord l) : recWord l := by
  rcases h with rfl | rfl | rfl | h
  · exact .inl rfl
  · exact .inr (by decide)
  · exact .inr (by decide)
  · exact .inr (le_trans (by decide) h)

/-- The recorder's state is none of them. -/
theorem recWord.apart_state {l : Loc} (h : recWord l) : l.apart recState := by
  rcases h with rfl | h
  · exact .inr ⟨by decide, .inr (by decide)⟩
  · exact .inl (Nat.ne_of_lt (lt_of_lt_of_le (by decide) h))

theorem Frame.recState {s t : State} (h : Frame recWord s t) : t.get recState = s.get recState :=
  h.get _ (not_eventWord (.inr (.inr (by decide)))) fun _ hm => hm.apart_state

namespace Frame

theorem putRec (s : State) {l : Loc} (v : Nat) (h : recWord l) : Frame recWord s (s.put l v) := put s v h h.plain

theorem above {f : Fld} (hf : 0x2800028 ≤ f.off) (n : Nat) : recWord (f.e n) := .inr (hf.trans (Nat.le_add_right ..))

theorem put64Rec (s : State) {f g : Fld} (hf : 0x2800028 ≤ f.off) (hg : 0x2800028 ≤ g.off) (n v : Nat) :
    Frame recWord s (s.put64 (f.e n) (g.e n) v) := (putRec s _ (above hf n)).trans (putRec _ _ (above hg n))

theorem recSync_words (s : State) : Frame syncWord s s.recSync := by
  have he {l : Loc} (h : syncWord l) : ¬ eventWord l.off := h.rec.plain
  have hup {f : Fld} (hf : 0x2801000 ≤ f.off) (n : Nat) : syncWord (f.e n) := .inr (.inr (.inr (hf.trans (Nat.le_add_right ..))))
  unfold State.recSync
  extract_lets ns depth d a b c
  have hc : Frame syncWord s c := ((put s _ (.inr (.inl rfl)) (he (.inr (.inl rfl)))).trans
    (put _ _ (.inr (.inr (.inl rfl))) (he (.inr (.inr (.inl rfl)))))).trans (put _ _ (.inl rfl) (he (.inl rfl)))
  clear_value c
  refine hc.trans (foldl ns (fun t n => ?_) c)
  extract_lets x firsts
  generalize firsts.getLast? = o
  cases o with
  | none => exact refl t
  | some i => exact put64 _ _ (hup (by decide) n) (hup (by decide) n) (he (hup (by decide) n)) (he (hup (by decide) n))

theorem recSync (s : State) : Frame recWord s s.recSync := (recSync_words s).mono fun _ h => h.rec

theorem oldGapSync (s : State) (n : Nat) : Frame recWord s (s.oldGapSync n) := by
  unfold State.oldGapSync
  generalize (s.inp n).gaps[4096]? = g
  generalize (s.recIn n).pages.getLast? = p
  cases g with
  | none => exact refl s
  | some g =>
    cases p with
    | none => exact refl s
    | some p => exact cond _ (put64Rec _ (by decide) (by decide) _ _) (refl s)

theorem lostw : recWord Reg.MEM_LOSTW_COUNT.z := .inr (by decide)

theorem setRecIn {W : Loc → Prop} (s : State) (n : Nat) (x : RecInput) : Frame W s (s.setRecIn n x) := of_regs rfl

theorem pageClose (s : State) (n : Nat) : Frame recWord s (s.pageClose n) := by
  unfold State.pageClose
  dsimp only
  cases (s.recIn n).fill with
  | none => exact refl s
  | some f => exact (((pokeAll s _ _ lostw).trans (setRecIn _ n _)).trans (oldGapSync _ n)).trans (recSync _)

theorem capRecord (s : State) (c : Capture) (k : Nat) (b : List Byte) : Frame recWord s (s.capRecord c k b) := of_regs rfl

theorem capRefuse (s : State) (c : Capture) (code : Nat) : Frame recWord s (s.capRefuse c code) :=
  ((capRecord s c _ _).trans (putRec _ _ (.inr (by decide)))).trans (ev _ (by decide))

theorem setCap (s : State) (c : Capture) : Frame recWord s (s.setCap c) := (putRec _ _ (above (by decide) _)).after rfl

theorem capFree (s : State) (c : Capture) : Frame recWord s (s.capFree c) :=
  after ((putRec _ _ (above (by decide) _)).trans (recSync _)) rfl

theorem capClose (s : State) (w : CapWin) : Frame recWord s (s.capClose w) := by
  unfold State.capClose
  cases (s.recIn w.input).fill with
  | none => exact refl s
  | some f => exact cond _ (pageClose s _) (refl s)

theorem capMap (s : State) (c : Capture) : Frame recWord s (s.capMap c).1 := by
  unfold State.capMap
  extract_lets ws live aged
  clear_value aged
  cases live.isEmpty && ws.any (fun w => w.status == 1)
  · rw [bif_false]
    cases !live.isEmpty && aged
    · rw [bif_false]
      exact ((setCap s _).trans (recSync _)).trans (foldl ws (fun t w => capClose t w) _)
    · rw [bif_true]
      exact refl s
  · rw [bif_true]
    exact refl s

end Frame

/-- A change of the recorder's state shows it. -/
theorem State.recTo_state (s : State) {v : Nat} (hv : v < 8) : (s.recTo v).get recState = v := by
  unfold State.recTo
  cases h : s.get recState == v with
  | true =>
    rw [bif_true]
    exact beq_iff_eq.mp h
  | false =>
    rw [bif_false, State.ev, State.get_raise _ _ _ _ (by decide) (not_eventWord (.inr (.inr (by decide)))),
      State.get_put_same _ _ _ (by decide)]
    exact Nat.mod_eq_of_lt hv

theorem Frame.recTo {W : Loc → Prop} (s : State) (v : Nat) (h : W Machine.recState) : Frame W s (s.recTo v) :=
  cond _ (refl s) ((put s v h (not_eventWord (.inr (.inr (by decide))))).trans (ev _ (by decide)))

end Sys2Proof.Machine
end

section
/-!
PROOF. The flight recorder and captures (10 R295 to R323, 15 R477).
-/
namespace Sys2Proof.Machine

/-! ### Parts of the state -/

theorem State.rcd_recSync (s : State) : s.recSync.rcd = s.rcd := by
  unfold State.recSync
  extract_lets ns depth d a b c
  have hc : c.rcd = s.rcd := (State.put_rcd ..).trans ((State.put_rcd ..).trans (State.put_rcd ..))
  clear_value c
  rw [← hc]
  clear hc
  induction ns generalizing c with
  | nil => rfl
  | cons n l ih =>
    rw [List.foldl_cons, ih]
    extract_lets x firsts
    cases firsts.getLast? with
    | none => rfl
    | some i => exact State.put64_rcd ..

theorem State.rcd_recTo (s : State) (v : Nat) : (s.recTo v).rcd = s.rcd := by
  unfold State.recTo
  cases s.get recState == v
  · rw [bif_false, State.ev_rcd, State.put_rcd]
  · rw [bif_true]

/-! ### The recorder's commands -/

/-- At the writer's start a capture not mapped yet is mapped, or refused and freed (R316). -/
noncomputable def State.capStarts (s : State) (c : Capture) : State :=
  bif c.mapped then s else
    match s.capMap c with
    | (s2, none) => s2
    | (_, some code) => (s.capRefuse c code).capFree c

theorem Frame.capStarts (s : State) (c : Capture) : Frame recWord s (s.capStarts c) := by
  unfold State.capStarts
  refine cond _ (refl s) ?_
  have h := capMap s c
  generalize s.capMap c = p at h
  obtain ⟨t, code⟩ := p
  cases code with
  | none => exact h
  | some code => exact (capRefuse s c code).trans (capFree _ c)

/-- The recorder runs on after the writer's start, whatever captures are mapped. -/
theorem exec_hbmWriterStart {s : State} (hen : s.on Reg.REC_CTRL_EN.z = true) (hst : s.get recState = 2 ∨ s.get recState = 0)
    (hr : s.runs = true) : ∃ t, exec .hbmWriterStart s = .next t ∧ (t.get recState = 1 ∨ t.get recState = 3) := by
  have hc : (s.on Reg.REC_CTRL_EN.z && (s.get recState == 2 || s.get recState == 0) && s.runs) = true := by
    rcases hst with h | h <;> (rw [hen, hr, h]; rfl)
  obtain ⟨a, v, hv, hx⟩ : ∃ (a : State) (v : Nat), (v = 1 ∨ v = 3) ∧
      execHbmWriterStart s = .next ((a.recTo v).rcd.captures.foldl State.capStarts (a.recTo v)) := by
    unfold execHbmWriterStart
    rw [hc, bif_true]
    refine ⟨_, if (upto 128).any (fun n => !(((upto 128).foldl State.watchClose s).recIn n).watch.isEmpty) then 3 else 1, ?_, rfl⟩
    split
    · exact .inr rfl
    · exact .inl rfl
  refine ⟨_, hx, ?_⟩
  rw [(Frame.foldl _ Frame.capStarts _).recState, State.recTo_state _ (hv.elim (fun h => h ▸ by decide) fun h => h ▸ by decide)]
  exact hv

/-- At the end of a drain the recorder records. -/
theorem exec_watchDrainDone {s : State} (hst : s.get recState = 3) : ∃ t, exec .watchDrainDone s = .next t ∧ t.get recState = 1 ∧
    t.on (evPend 335) = true ∧ t.rcd.hold = false := by
  obtain ⟨a, ha⟩ : ∃ a, a = (upto 128).foldl State.drain s := ⟨_, rfl⟩
  refine ⟨(({ a with rcd := { a.rcd with hold := false } }.recSync).recTo 1).ev 335, ?_, ?_, State.ev_pends .., ?_⟩
  · show execWatchDrainDone s = _
    unfold execWatchDrainDone
    rw [hst, beq_self_eq_true, bif_true, ha]
  · rw [State.ev, State.get_raise _ _ _ _ (by decide) (not_eventWord (.inr (.inr (by decide)))), State.recTo_state _ (by decide)]
  · rw [State.ev_rcd, State.rcd_recTo, State.rcd_recSync]

/-! ### Ranks -/

theorem stackEvent_lt (p : Nat) : 456 + 3 * stackOf p + 2 < 512 := by
  have hs : stackOf p < 8 := Nat.div_lt_of_lt_mul (Nat.mod_lt p (by decide : 256 > 0))
  exact (Nat.add_le_add_right (Nat.add_le_add_left (Nat.mul_le_mul_left 3 (Nat.le_of_lt_succ hs)) 456) 2).trans_lt (by decide)

theorem State.regs_setStored (s : State) (p st : Nat) : (s.setStored p st).regs = s.regs := rfl
theorem State.msys_setStored (s : State) (p st : Nat) : (s.setStored p st).msys = s.msys := rfl

theorem State.rankTo_eq (s : State) (p st : Nat) : ∃ n, s.rankTo p st =
    (((s.put (rankState p) st).setStored p st).put Reg.MEM_STAT_SPARES.z n).ev (456 + 3 * stackOf p + 2) := ⟨_, rfl⟩

/-- A rank changes state: what is written, and what stays. -/
theorem State.rankTo_frame (s : State) (p st : Nat) :
    Frame (fun l => l = rankState p ∨ l = Reg.MEM_STAT_SPARES.z) s (s.rankTo p st) ∧ (s.rankTo p st).msys = s.msys := by
  obtain ⟨n, hn⟩ := s.rankTo_eq p st
  rw [hn]
  refine ⟨((Frame.trans (.put s st (.inl rfl) (array_not_event (a := 0x3801000) (by decide) _)) (.of_regs (State.regs_setStored ..))).trans
    (.put _ n (.inr rfl) (not_eventWord (.inr (.inr (by decide)))))).trans (.ev _ (stackEvent_lt p)), ?_⟩
  rw [State.ev_msys, State.put_msys, State.msys_setStored, State.put_msys]

theorem State.rankTo_state (s : State) (p : Nat) {st : Nat} (hst : st < 8) : (s.rankTo p st).get (rankState p) = st := by
  obtain ⟨n, hn⟩ := s.rankTo_eq p st
  rw [hn, State.ev, State.get_raise _ _ _ _ (stackEvent_lt p) (array_not_event (a := 0x3801000) (by decide) _),
    State.get_put_apart _ _ (.inl (low_ne (a := 0x3801000) (by decide) _)),
    State.get_congr (State.regs_setStored ..), State.get_put_same _ _ _ (by decide : 29 + 3 ≤ 32)]
  exact Nat.mod_eq_of_lt hst

/-- A fold that the recorder cannot serve loses the rank and ends the migration. -/
theorem exec_fold_lost {s : State} {u p : Nat} (hmig : s.msys.mig = some (u, p, none)) (hst : s.get Reg.MEM_STAT_MIG.z = 3)
    (hen : s.on Reg.REC_CTRL_EN.z = false) : ∃ t, exec .fold s = .next t ∧ t.msys.mig = none ∧ t.get Reg.MEM_STAT_MIG.z = 0 ∧
      t.get (rankState p) = 4 ∧ (t.remapOf u).lost = true := by
  obtain ⟨b, hb⟩ : ∃ b, b = (s.setRemap u { s.remapOf u with lost := true }).flag Reg.MEM_STAT_LOST.z true := ⟨_, rfl⟩
  obtain ⟨a, ha⟩ : ∃ a, a = ({ b with msys := { b.msys with mig := none } }).put Reg.MEM_STAT_MIG.z 0 := ⟨_, rfl⟩
  have hx : exec .fold s = .next ((a.rankTo p 4).put (Reg.MEM_RANK_LOGICAL.e p) 0x3FF) := by
    have h33 : (3 != 3) = false := rfl
    show execFold s = _
    unfold execFold
    rw [hmig]
    dsimp only
    rw [hst, h33, bif_false, hen, Bool.false_and, Bool.false_and, bif_false, ha, hb]
  have hm : 0x3800038 ≠ (rankState p).off := (low_ne (a := 0x3801000) (by decide) _).symm
  obtain ⟨hf, hms⟩ := a.rankTo_frame p 4
  have hams : a.msys = { b.msys with mig := none } := by rw [ha, State.put_msys]
  have hbms : b.msys = (s.setRemap u { s.remapOf u with lost := true }).msys := by rw [hb, State.flag_msys]
  refine ⟨_, hx, ?_, ?_, ?_, ?_⟩
  · rw [State.put_msys, hms, hams]
  · rw [State.get_put_apart _ _ (.inl hm), hf.get _ (array_not_event (a := 0x3800038) (by decide) 0) ?_, ha, State.get_put_same _ _ _ (by decide)]
    · rfl
    · rintro l (rfl | rfl)
      · exact .inl hm
      · exact .inr ⟨by decide, .inr (by decide)⟩
  · rw [State.get_put_apart _ _ (.inr ⟨(by decide : 16 + 10 ≤ 32), .inr (by decide : 16 + 10 ≤ 29)⟩), State.rankTo_state _ _ (by decide)]
  · unfold State.remapOf
    rw [State.put_msys, hms, hams]
    show (tget Remap.plain b.msys.remap u).lost = true
    rw [hbms]
    unfold State.setRemap
    rw [tget_tset_same]

/-- Settles O30. -/
theorem recorderCommandsComplete : Obligations.RecorderCommandsComplete := by
  refine ⟨fun s => exec_hbmWriterStart, fun s => exec_watchDrainDone, fun s u p hu hp hmig hst hen => exec_fold_lost hmig hst hen,
    fun s r u p slots hmig hst hen hf hslots hr hle => ?_, fun s hmay => ?_, fun s hrun => ?_⟩
  · have h33 : (3 != 3) = false := rfl
    have hlt : lt (s.get Reg.MEM_STAT_FOLDS.z) 4 = true := decide_eq_true hf
    have hgiven : le s.grainsD (r.givenGrains (fun n => (s.recIn n).given) u) = true := decide_eq_true hle
    show execFold s = _
    unfold execFold
    rw [hmig]
    dsimp only
    rw [hst, h33, bif_false, ← hslots, ← hr, hen, hlt, hgiven, Bool.true_and, Bool.and_true, bif_true]
  · obtain ⟨a, ha⟩ : ∃ a, a = (s.swapWhere .recorder (fun _ => true)).flag Reg.REC_STAT_SWPEND.z false := ⟨_, rfl⟩
    obtain ⟨b, hb⟩ : ∃ b, b = bif !(a.ev 342).on Reg.REC_CTRL_EN.z then (a.ev 342).recTo 0
        else bif (a.ev 342).get recState == 0 && (a.ev 342).get Reg.PWR_STAT_MODE.z == 4 then (a.ev 342).recTo 1
          else (a.ev 342).recWatchOn := ⟨_, rfl⟩
    refine ⟨b.recSync.swapDone .recorder, ?_, ?_⟩
    · show execRecorderSwap s = _
      unfold execRecorderSwap
      rw [hmay, bif_true, hb, ha]
    · have hbf : Frame (fun _ => True) (a.ev 342) b := by
        rw [hb]
        exact .cond _ (.recTo _ _ trivial) (.cond _ (.recTo _ _ trivial) (.cond _ (.recTo _ _ trivial) (.refl _)))
      exact Frame.pended (by decide) ((hbf.trans ((Frame.recSync b).mono fun _ _ => trivial)).trans
        ((Frame.swapDone _ .recorder).mono fun _ _ => trivial))
  · show execLadderEvaluation s = _
    unfold execLadderEvaluation
    rw [hrun, bif_true]

end Sys2Proof.Machine
end

section
/-!
PROOF. Captures: requests, holding, read-out and release (10 R301 to R310).
-/
namespace Sys2Proof.Machine

/-- A capture found by its number has it. -/
theorem State.capOf_num {s : State} {num : Nat} {c : Capture} (h : s.capOf num = some c) : c.num = num := by
  have := List.find?_some h
  simpa using this

theorem State.rcd_setCap (s : State) (c : Capture) : (s.setCap c).rcd =
    { s.rcd with captures := s.rcd.captures.map (fun (d : Capture) => if d.desc = c.desc then c else d) } := State.put_rcd ..

theorem State.capOf_congr {s t : State} (h : t.rcd = s.rcd) (num : Nat) : t.capOf num = s.capOf num := by
  rw [State.capOf, h, State.capOf]

/-- Among entries that those with `q` are replaced by `c`, which has `p`, the first with `p` is `c` or one without `q`. -/
theorem find?_map_replace {α : Type} (p q : α → Bool) {c d : α} (hc : p c = true) {l : List α} (hd : l.find? p = some d) :
    (q d = true → (l.map (fun a => if q a then c else a)).find? p = some c) ∧
      ((l.map (fun a => if q a then c else a)).find? p).isSome = true := by
  induction l with
  | nil => simp at hd
  | cons a l ih =>
    rw [List.map_cons, List.find?_cons]
    rw [List.find?_cons] at hd
    cases hq : q a
    · rw [if_neg Bool.false_ne_true]
      cases hp : p a
      · rw [hp] at hd
        exact ih hd
      · rw [hp] at hd
        obtain rfl := Option.some.inj hd
        simp [hq]
    · rw [if_pos rfl, hc]
      simp

/-- A capture that takes the place of the one found under a number is found under it. -/
theorem State.capOf_setCap {s : State} {num : Nat} {c d : Capture} (h : s.capOf num = some d) (hd : c.desc = d.desc) (hn : c.num = num) :
    (s.setCap c).capOf num = some c := by
  have hx := (find?_map_replace (fun e : Capture => e.num == num) (fun e => decide (e.desc = c.desc)) (c := c)
    (by simpa using hn) h).1 (by simpa using hd.symm)
  rw [State.capOf, State.rcd_setCap]
  simpa using hx

/-! ### What is written -/

theorem State.rcd_capRecord (s : State) (c : Capture) (k : Nat) (b : List Byte) : (s.capRecord c k b).rcd = s.rcd := rfl

/-- The data records of a page leave the capture's number known. -/
structure CapKept (num : Nat) (s t : State) : Prop where
  frame : Frame recWord s t
  known : (s.capOf num).isSome = true → (t.capOf num).isSome = true

namespace CapKept

variable {num : Nat} {s t u : State}

theorem refl (s : State) : CapKept num s s := ⟨.refl s, id⟩
theorem trans (h : CapKept num s t) (k : CapKept num t u) : CapKept num s u := ⟨h.frame.trans k.frame, fun hs => k.known (h.known hs)⟩
theorem foldl {β : Type} {f : State → β → State} (l : List β) (h : ∀ a b, CapKept num a (f a b)) (s : State) :
    CapKept num s (l.foldl f s) := by
  induction l generalizing s with
  | nil => exact refl s
  | cons b l ih => exact (h s b).trans (ih _)
theorem of_rcd (hf : Frame recWord s t) (h : t.rcd = s.rcd) : CapKept num s t := ⟨hf, fun hs => by rw [State.capOf_congr h, hs]⟩

/-- The bytes lost of a capture are counted in it. -/
theorem lost (s : State) (n : Nat) : CapKept num s (match s.capOf num with
    | some d => s.setCap { d with lost := d.lost + n }
    | none => s) := by
  cases h : s.capOf num with
  | none => exact refl s
  | some d =>
    refine ⟨.setCap s _, fun _ => ?_⟩
    rw [State.capOf_setCap (c := { d with lost := d.lost + n }) h rfl (show d.num = num from State.capOf_num h)]
    rfl

theorem capData (s : State) (c : Capture) (w : CapWin) (p : RecPage) : CapKept c.num s (s.capData c w p) := by
  unfold State.capData
  extract_lets q k per
  refine foldl _ (fun a j => ?_) s
  extract_lets first cnt ad lost gaps body b d
  have hb : CapKept c.num a b := of_rcd (.capRecord a c _ _) rfl
  have hd : CapKept c.num b d := of_rcd ((Frame.put64Rec b (by decide) (by decide) _ _).trans (.ev _ (by decide)))
    ((State.ev_rcd ..).trans (State.put64_rcd ..))
  clear_value d b body lost
  cases lost == 0
  · rw [bif_false]
    exact (hb.trans hd).trans (CapKept.lost d lost)
  · rw [bif_true]
    exact hb

end CapKept

/-! ### Requests -/

/-- A capture of a slot that selects no input has no windows. -/
theorem State.capWindows_none {s : State} {c : Capture} (h : ∀ n < 128, c.selects n = false) : s.capWindows c = [] := by
  have hf : (upto 128).filter c.selects = [] := List.filter_eq_nil_iff.mpr fun n hn => by
    rw [h n (List.mem_range.mp hn)]
    exact Bool.false_ne_true
  rw [State.capWindows, hf, List.map_nil]

/-- The words of a slot. -/
noncomputable def State.slotWords (s : State) (slot : Nat) : List Word := (upto 9).map (fun r => s.word ((Reg.CAP_SCFG_EN.e slot).off + 4 * r))

/-- A request under number `num` takes descriptor 0. -/
noncomputable def State.slotCapture (s : State) (slot num tag tq : Nat) : Capture :=
  ⟨0, num, slot, s.slotWords slot, 0xFF, 0, tag, tq, [], false, false, 1, false, 0, s.get Blk.recorder.gen⟩

theorem State.slotCapture_selects {s : State} {slot : Nat} (hsel : ∀ r, r < 4 → s.word (Reg.CAP_SMASK_SEL.e2 slot r).off = 0)
    (num tag tq : Nat) : ∀ n < 128, (s.slotCapture slot num tag tq).selects n = false := by
  intro n hn
  have hoff : (Reg.CAP_SMASK_SEL.off - Reg.CAP_SCFG_EN.off) / 4 = 3 := rfl
  have hword : (s.slotWords slot).getD (3 + n / 32) 0 = 0 := by
    have h4 : n / 32 < 4 := Nat.div_lt_of_lt_mul hn
    have hlen : 3 + n / 32 < 9 := (Nat.add_lt_add_left h4 3).trans (by decide)
    have h := hsel (n / 32) h4
    have ho : (Reg.CAP_SMASK_SEL.e2 slot (n / 32)).off = (Reg.CAP_SCFG_EN.e slot).off + 4 * (3 + n / 32) := by
      show 0x281000C + (slot * 0x40 + (n / 32 * 4 + 0)) = 0x2810000 + (slot * 0x40 + 0) + 4 * (3 + n / 32)
      lia
    rw [ho] at h
    rw [State.slotWords, List.getD_eq_getElem?_getD, List.getElem?_map, upto, List.getElem?_range hlen]
    exact h
  rw [Capture.selects, hoff]
  show bit ((s.slotWords slot).getD (3 + n / 32) 0).toNat (n % 32) = false
  rw [hword]
  simp [bit, bits]

/-- A capture added is the only one, under its number. -/
theorem State.capTaken_first {s : State} {c : Capture} (hc : s.rcd.captures = []) (hn : c.num < 2 ^ 32) :
    ((s.capAdd c).capTaken []).rcd.captures = [c] ∧ ((s.capAdd c).capTaken []).get Reg.CAP_STAT_COUNT.z = c.num ∧
      ((s.capAdd c).capTaken []).on (evPend 329) = true := by
  have ha : (s.capAdd c).rcd.captures = [c] := by
    rw [State.capAdd]
    simp only [State.put_rcd, hc, List.nil_append]
  have hcount : (s.capAdd c).get Reg.CAP_STAT_COUNT.z = c.num := by
    have apart {a : Nat} (h : 0x2800074 < a) : 0x2800074 ≠ a + (c.desc * 8 + 0) := (low_ne h _).symm
    rw [State.capAdd]
    dsimp only
    rw [State.get_put_apart _ _ (.inl (apart (by decide))), State.get_put_apart _ _ (.inl (apart (by decide))),
      State.get_put_apart _ _ (.inl (apart (by decide))),
      State.get_put_same _ _ _ (by decide)]
    exact Nat.mod_eq_of_lt hn
  generalize s.capAdd c = a at ha hcount
  rw [State.capTaken, List.any_nil, bif_false]
  refine ⟨?_, ?_, State.ev_pends ..⟩
  · rw [State.ev_rcd, State.rcd_recSync, ha]
  · rw [State.ev, State.get_raise _ _ _ _ (by decide) (not_eventWord (.inr (.inr (by decide)))),
      (Frame.recSync_words a).get _ (not_eventWord (.inr (.inr (by decide)))) ?_, hcount]
    rintro l (rfl | rfl | rfl | h)
    · exact .inl (by decide)
    · exact .inl (by decide)
    · exact .inl (by decide)
    · exact .inl (Nat.ne_of_lt (lt_of_lt_of_le (by decide) h))

/-- A request to an enabled slot that selects no input is accepted in Watch mode without a watch ring. -/
theorem State.capRequest_first {s : State} {slot : Nat} (hen : s.on (Reg.CAP_SCFG_EN.e slot) = true)
    (hsel : ∀ r, r < 4 → s.word (Reg.CAP_SMASK_SEL.e2 slot r).off = 0) (hrec : s.on Reg.REC_CTRL_EN.z = true) (hst : s.get recState = 2)
    (hw : s.on Reg.REC_CTRL_WATCHEN.z = false) (hsh : s.pair.shadow = false) (hmay : s.maySwap .recorder = false)
    (hcap : s.rcd.captures = []) (tag tq : Nat) :
    s.capRequest slot 0xFF 0 tag tq =
      (s.capAdd (s.slotCapture slot ((s.get Reg.CAP_STAT_COUNT.z + 1) % 2 ^ 32) tag tq)).capTaken [] := by
  have hwins : s.capWindows ⟨0, 0, slot, (upto 9).map (fun r => (s.liveView .recorder).word ((Reg.CAP_SCFG_EN.e slot).off + 4 * r)), 0xFF, 0,
      tag, tq, [], false, false, 1, false, 0, s.get Blk.recorder.gen⟩ = [] := State.capWindows_none (State.slotCapture_selects hsel 0 tag tq)
  have hfield : ((s.slotCapture slot 0 tag tq).field Reg.CAP_SCFG_EN != 1) = false := by
    have h1 : s.get (Reg.CAP_SCFG_EN.e slot) = 1 := (State.on_iff ..).mp hen
    have h2 : (s.slotCapture slot 0 tag tq).field Reg.CAP_SCFG_EN = s.get (Reg.CAP_SCFG_EN.e slot) := rfl
    rw [h2, h1]
    rfl
  have hfind : (upto 256).find? (fun d => !s.rcd.captures.any (fun c => c.desc == d)) = some 0 := by
    rw [hcap]
    rfl
  have h20 : (2 == 0) = false := rfl
  rw [State.capRequest, hmay, bif_false]
  dsimp only
  rw [hwins]
  change (bif (s.slotCapture slot 0 tag tq).field Reg.CAP_SCFG_EN != 1 then _ else _) = _
  rw [hfield, bif_false, hrec, hst, hsh, h20, Bool.not_true, Bool.false_or, Bool.false_or, bif_false, hfind]
  dsimp only
  rw [List.any_nil, bif_false, beq_self_eq_true, hw, Bool.not_false, Bool.true_and, bif_true]
  rfl

/-- A capture whose windows are written is HELD. -/
theorem exec_captureHeld {s : State} {num : Nat} {c : Capture} (hc : s.capOf num = some c) (hst : c.state = 1) (hm : c.mapped = true)
    (hwr : c.wins.all (s.winWritten c) = true) (hread : c.field Reg.CAP_SCFG_READ = 0) :
    ∃ t, exec (.captureHeld num) s = .next t ∧ t.on (evPend 330) = true ∧ (t.capOf num).map (·.state) = some 2 := by
  obtain ⟨b, hb⟩ : ∃ b, b = (s.setCap { c with state := 2 }).capEnds c 1 (bif c.cut then 7 else 0) (s.capKept c) := ⟨_, rfl⟩
  obtain ⟨t, ht⟩ : ∃ t, t = bif bit ((b.ev 330).capFlags c) 0 then (b.ev 330).ev 333 else b.ev 330 := ⟨_, rfl⟩
  have hx : exec (.captureHeld num) s = .next t := by
    have h01 : (0 == 1) = false := rfl
    show execCaptureHeld num s = _
    have hguard : (c.state == 1 && c.mapped && c.wins.all (s.winWritten c)) = true := by
      rw [hst, hm, hwr]
      rfl
    rw [execCaptureHeld, hc]
    dsimp only
    rw [hguard, bif_true, hread, h01, bif_false, ht, hb]
  have hbcap : b.capOf num = some { c with state := 2 } := by
    have hrcd : b.rcd = (s.setCap { c with state := 2 }).rcd := by
      rw [hb]
      rfl
    rw [State.capOf_congr hrcd]
    exact State.capOf_setCap hc rfl (show c.num = num from State.capOf_num hc)
  have htf : Frame recWord (b.ev 330) t := by
    rw [ht]
    exact .cond _ (.ev _ (by decide)) (.refl _)
  have htr : t.rcd = b.rcd := by
    rw [ht]
    cases bit ((b.ev 330).capFlags c) 0
    · rw [bif_false, State.ev_rcd]
    · rw [bif_true, State.ev_rcd, State.ev_rcd]
  refine ⟨t, hx, Frame.pended (by decide) htf, ?_⟩
  rw [State.capOf_congr htr, hbcap]
  rfl

/-- A capture that is not HELD ends with its release. -/
theorem exec_capRelease_ends {s : State} {num : Nat} {c : Capture} (hc : s.capOf num = some c) (hst : c.state ≠ 2) :
    ∃ t, exec (.capRelease num) s = .next t ∧ t.on (evPend 331) = true ∧
      t.rcd.captures = s.rcd.captures.filter (fun d => d.desc != c.desc) := by
  obtain ⟨a, ha⟩ : ∃ a, a = bif c.state == 1 && bit (s.capFlags c) 0 then s.ev 333 else s := ⟨_, rfl⟩
  obtain ⟨b, hb⟩ : ∃ b, b = a.capEnds c 2 8 0 := ⟨_, rfl⟩
  have hx : exec (.capRelease num) s = .next ((b.ev 331).capFree c) := by
    show execCapRelease num s = _
    rw [execCapRelease, hc]
    dsimp only
    rw [beq_false_of_ne hst, bif_false, hb, ha]
  have hbr : b.rcd = s.rcd := by
    have har : a.rcd = s.rcd := by
      rw [ha]
      cases c.state == 1 && bit (s.capFlags c) 0
      · rw [bif_false]
      · rw [bif_true, State.ev_rcd]
    rw [hb, State.capEnds, State.rcd_capRecord, har]
  refine ⟨_, hx, Frame.pended (by decide) (.capFree _ c), ?_⟩
  rw [State.capFree, State.rcd_recSync, State.put_rcd]
  show (b.ev 331).rcd.captures.filter (fun d => d.desc != c.desc) = _
  rw [State.ev_rcd, hbr]

/-- The records of a capture join those that have closed. -/
theorem State.closed_capRecords {β : Type} (c : Capture) (k : Nat) (f : State → β → List Byte) (l : List β) (s : State) :
    (l.foldl (fun s w => s.capRecord c k (f s w)) s).closed.length = s.closed.length + l.length := by
  induction l generalizing s with
  | nil => rfl
  | cons w l ih =>
    rw [List.foldl_cons, ih, State.capRecord, State.close, List.length_append, List.length_singleton, List.length_cons, Nat.add_assoc,
      Nat.add_comm 1]

/-- The statistics of a capture being read. -/
theorem exec_capstatDone {s : State} {num : Nat} {c : Capture} (hc : s.capOf num = some c) (hst : c.state = 3)
    (hstats : c.field Reg.CAP_SCFG_STATS = 1) (hns : c.stats = false) (hmode : s.get Reg.PWR_STAT_MODE.z = 4)
    (hwr : s.capWritten c = true) : ∃ t, exec (.capstatDone num) s = .next t ∧ t.on (evPend 343) = true ∧
      t.closed.length = s.closed.length + (c.wins.filter CapWin.live).length := by
  obtain ⟨a, ha⟩ : ∃ a, a = (c.wins.filter CapWin.live).foldl (fun s w => s.capRecord c 0x22 (s.capStat c w)) s := ⟨_, rfl⟩
  refine ⟨(a.setCap { c with stats := true }).ev 343, ?_, State.ev_pends .., ?_⟩
  · show execCapstatDone num s = _
    rw [execCapstatDone, hc]
    dsimp only
    rw [hst, hstats, hns, hmode, hwr, beq_self_eq_true, beq_self_eq_true, beq_self_eq_true, Bool.not_false, Bool.and_self, Bool.and_self,
      Bool.and_self, Bool.and_self, bif_true, ha]
  · rw [State.ev_closed, State.setCap, State.put_closed]
    show a.closed.length = _
    rw [ha, State.closed_capRecords c 0x22 (fun s w => s.capStat c w)]

/-- A read-out that owes no statistics ends. -/
theorem exec_readoutEnd {s : State} {num : Nat} {c : Capture} (hc : s.capOf num = some c) (hst : c.state = 3)
    (hstats : c.stats = true ∨ c.field Reg.CAP_SCFG_STATS = 0) (hmode : s.get Reg.PWR_STAT_MODE.z = 4) (hwr : s.capWritten c = true) :
    ∃ t, exec (.readoutEnd num) s = .next t ∧ t.on (evPend 331) = true := by
  obtain ⟨a, ha⟩ : ∃ a, a = (c.wins.filter CapWin.live).foldl (fun s w => (s.winPages w).foldl (fun s p => s.capData c w p) s) s :=
    ⟨_, rfl⟩
  have hkept : CapKept c.num s a := by
    rw [ha]
    exact .foldl _ (fun t w => .foldl _ (fun u p => .capData u c w p) t) s
  rw [State.capOf_num hc] at hkept
  obtain ⟨d, hd⟩ := Option.isSome_iff_exists.mp (hkept.known (by rw [hc]; rfl))
  obtain ⟨b, hb⟩ : ∃ b, b = a.capEnds d 2 (bif d.cut then 7 else 0) (a.capKept d) := ⟨_, rfl⟩
  have hs : (c.stats || c.field Reg.CAP_SCFG_STATS == 0) = true := by
    rcases hstats with h | h
    · rw [h, Bool.true_or]
    · rw [h, beq_self_eq_true, Bool.or_true]
  refine ⟨bif d.field Reg.CAP_SCFG_AUTOREL == 1 then (b.ev 331).capFree d else (b.ev 331).setCap { d with state := 2 }, ?_, ?_⟩
  · show execReadoutEnd num s = _
    rw [execReadoutEnd, hc]
    dsimp only
    rw [hst, hs, hmode, hwr, beq_self_eq_true, beq_self_eq_true, Bool.and_self, Bool.and_self, Bool.and_self, bif_true, ← ha, hd]
    dsimp only
    rw [hb]
  · exact Frame.pended (by decide) (.cond _ (.capFree _ d) (.setCap _ _))

/-- Settles O28. -/
theorem captureCommandsComplete : Obligations.CaptureCommandsComplete := by
  refine ⟨fun s slot hslot hen hsel hrec hst hw hsh hmay hcap => ?_, fun s num c hc hst hm hwr hread => exec_captureHeld hc hst hm hwr hread, fun s num c hc hst => ?_,
    fun s num c hc hst => ?_, fun s num c hc hst => exec_capRelease_ends hc hst,
    fun s num c hc hst hstats hns hmode hwr => exec_capstatDone hc hst hstats hns hmode hwr,
    fun s num c hc hst hstats hmode hwr => exec_readoutEnd hc hst hstats hmode hwr⟩
  · obtain ⟨c, hc⟩ : ∃ c, c = s.slotCapture slot ((s.get Reg.CAP_STAT_COUNT.z + 1) % 2 ^ 32)
      (s.get96 Reg.CAP_TAG_L_TAG.z Reg.CAP_TAG_M_TAG.z Reg.CAP_TAG_H_TAG.z) (s.tq false false) := ⟨_, rfl⟩
    have hnum : c.num = (s.get Reg.CAP_STAT_COUNT.z + 1) % 2 ^ 32 := by rw [hc]; rfl
    have hdesc : c.desc = 0 := by rw [hc]; rfl
    have hstate : c.state = 1 := by rw [hc]; rfl
    obtain ⟨h1, h2, h3⟩ := State.capTaken_first hcap (c := c) (by rw [hnum]; exact Nat.mod_lt _ (by decide))
    refine ⟨(s.capAdd c).capTaken [], ?_, ?_, by rw [h2, hnum], h3⟩
    · show Host.Outcome.next (s.capRequest slot 0xFF 0 _ _) = _
      rw [State.capRequest_first hen hsel hrec hst hw hsh hmay hcap, hc]
    · rw [h1, List.map_singleton, hdesc, hnum, hstate]
  · show execCapRead num s = _
    rw [execCapRead, hc]
    dsimp only
    rw [hst, beq_self_eq_true, bif_true]
  · show execCapRelease num s = _
    rw [execCapRelease, hc]
    dsimp only
    rw [hst, beq_self_eq_true, bif_true]

end Sys2Proof.Machine
end

section
/-!
PROOF. Views: intervals, records, clears, swaps, drains and rate steps (07 R214 to R229).
-/
namespace Sys2Proof.Machine

theorem State.det_storeSync (s : State) : s.storeSync.det = s.det := foldl_keeps _ State.det (fun _ _ => State.put_det ..) _ s

theorem State.vin_setVin (s : State) (v x z : Nat) (y : ViewIn) : (s.setVin v x y).vin v z = if z = x then y else s.vin v z := by
  rw [State.vin, State.setVin, tget_tset, State.vin]
  by_cases h : z = x
  · rw [if_pos h, if_pos (by lia)]
  · rw [if_neg h, if_neg (by lia)]

theorem State.vin_setVin_same (s : State) (v x : Nat) (y : ViewIn) : (s.setVin v x y).vin v x = y := by
  rw [State.vin_setVin, if_pos rfl]

theorem State.vin_congr {s t : State} (h : t.det = s.det) (v x : Nat) : t.vin v x = s.vin v x := by
  rw [State.vin, h, State.vin]

/-- `f` on what view `v` keeps of each input of a list. -/
noncomputable def State.onVins (s : State) (v : Nat) (f : ViewIn → ViewIn) (l : List Nat) : State :=
  l.foldl (fun s x => s.setVin v x (f (s.vin v x))) s

/-- An operation that sets a part of what is kept has set it for each input of the list. -/
theorem State.onVins_holds {v : Nat} {f : ViewIn → ViewIn} {P : ViewIn → Prop} (hf : ∀ y, P (f y)) (s : State) {l : List Nat} {x : Nat}
    (hx : x ∈ l) : P ((s.onVins v f l).vin v x) ∧ (s.onVins v f l).regs = s.regs := by
  have hregs : ∀ (l : List Nat) (t : State), (t.onVins v f l).regs = t.regs := by
    intro l
    induction l with
    | nil => exact fun _ => rfl
    | cons z l ih => exact fun t => ih _
  have hkeep : ∀ (l : List Nat) (t : State), P (t.vin v x) → P ((t.onVins v f l).vin v x) := by
    intro l
    induction l with
    | nil => exact fun _ h => h
    | cons z l ih =>
      intro t h
      refine ih (t.setVin v z (f (t.vin v z))) ?_
      rw [State.vin_setVin]
      split
      · exact hf _
      · exact h
  refine ⟨?_, hregs l s⟩
  obtain ⟨a, b, rfl⟩ := List.append_of_mem hx
  unfold State.onVins
  rw [List.foldl_append]
  refine hkeep b _ ?_
  rw [State.vin_setVin_same]
  exact hf _

theorem State.step_openInterval (s : State) (v x : Nat) (g : PlaneGrid) (e : Nat) :
    ((s.openInterval v x g e).vin v x).step = (s.vin v x).step := by
  unfold State.openInterval
  dsimp only
  cases (s.vin v x).fin
  · rw [bif_false, State.vin_setVin_same]
  · rw [bif_true]

/-- A step adopted by an input of view `v` is shown, and the order ends with the last input. -/
noncomputable def State.stepShown (b : State) (v k : Nat) : State :=
  let d := bif b.get (Reg.DVW_STAT_STEP.e v) == k then b else (b.put (Reg.DVW_STAT_STEP.e v) k).viewEv v 280
  bif (d.viewInputs v).all (fun z => (d.vin v z).step == k) then
    { d with det := { d.det with ordered := tset (fun _ => none) d.det.ordered v none } }
  else d

theorem State.vin_stepShown (b : State) (v k w x : Nat) : (b.stepShown v k).vin w x = b.vin w x := by
  unfold State.stepShown
  extract_lets d
  have hd : d.vin w x = b.vin w x := by
    refine State.vin_congr ?_ w x
    show State.det (bif _ then _ else _) = _
    cases b.get (Reg.DVW_STAT_STEP.e v) == k
    · rw [bif_false]
      unfold State.viewEv
      rw [State.ev_det, State.put_det, State.put_det]
    · rw [bif_true]
  clear_value d
  cases (d.viewInputs v).all (fun z => (d.vin v z).step == k)
  · rw [bif_false, hd]
  · rw [bif_true]
    exact hd

/-- The step ordered of a view is adopted at a boundary of the new interval length. -/
theorem exec_viewRateStep {s : State} {v x e k : Nat} (ho : tget (fun _ => none) s.det.ordered v = some k)
    (hcur : ∀ c, (s.vin v x).cur = some c → c.specs = [] ∧ c.e0 = e) (hk : (s.vin v x).step ≠ k)
    (he : e % (max 1 (s.viewField v Reg.DVW_INT_N) * 2 ^ k) = 0) :
    ∃ t, exec (.viewRateStep v x e) s = .next t ∧ (t.vin v x).step = k := by
  obtain ⟨a, ha⟩ : ∃ a, a = s.setVin v x { s.vin v x with step := k } := ⟨_, rfl⟩
  have has : (a.vin v x).step = k := by rw [ha, State.vin_setVin_same]
  cases hc : (s.vin v x).cur with
  | none =>
    refine ⟨a.stepShown v k, ?_, by rw [State.vin_stepShown, has]⟩
    show execViewRateStep v x e s = _
    unfold execViewRateStep
    rw [ho]
    dsimp only
    rw [he, bne_iff_ne.mpr hk, beq_self_eq_true, Bool.and_true, Bool.true_and]
    generalize hy : s.vin v x = y at hc ha
    cases y
    dsimp only at hc ha ⊢
    subst hc
    rw [bif_true, ha, State.stepShown]
  | some c =>
    obtain ⟨h1, h2⟩ := hcur c hc
    refine ⟨(a.openInterval v x c.grid e).stepShown v k, ?_, by rw [State.vin_stepShown, State.step_openInterval, has]⟩
    show execViewRateStep v x e s = _
    unfold execViewRateStep
    rw [ho]
    dsimp only
    rw [he, bne_iff_ne.mpr hk, beq_self_eq_true, Bool.and_true, Bool.true_and]
    generalize hy : s.vin v x = y at hc ha
    cases y
    dsimp only at hc ha ⊢
    subst hc
    dsimp only
    rw [h1, h2, List.isEmpty_nil, beq_self_eq_true, Bool.and_true, bif_true, ha, State.stepShown]

/-- Settles O22. -/
theorem detectorCommandsComplete : Obligations.DetectorCommandsComplete := by
  refine ⟨fun s v x c hv hrun hcur => ?_, fun s v x c l hcl hp => ?_, fun s v x c l hcl hp ht => ?_, fun s v x c l hh ht => ?_,
    fun s v x hx => ?_, fun s v x hx => ?_, fun s v hmay hleft hb => ?_, fun s v hst hem hre => ?_,
    fun s v x e k ho hcur hk he => exec_viewRateStep ho hcur hk he⟩
  · show execIntervalDeadline v x s = _
    unfold execIntervalDeadline
    rw [hv, bif_true]
    dsimp only
    rw [hrun, Bool.true_or, bif_true, hcur]
    rfl
  · refine ⟨s.setVin v x { s.vin v x with closed := l, held := (s.vin v x).held ++ [c] }, ?_, ?_, ?_, rfl⟩
    · show execDetectorRecordClose v x s = _
      rw [execDetectorRecordClose, hcl]
      dsimp only
      rw [if_pos hp]
    · rw [State.vin_setVin_same]
    · rw [State.vin_setVin_same]
  · show execDetectorRecordClose v x s = _
    rw [execDetectorRecordClose, hcl]
    dsimp only
    rw [if_neg hp, if_pos ht]
  · show execSketchRecordHoldEnd v x s = _
    rw [execSketchRecordHoldEnd, hh]
    dsimp only
    rw [if_pos ht]
  · exact ⟨_, rfl, State.onVins_holds (f := fun y => { y with sum := { y.sum with holdClr := true } })
      (P := fun y => y.sum.holdClr = true) (fun _ => rfl) s hx⟩
  · exact ⟨_, rfl, State.onVins_holds (f := fun y => { y with sum := { y.sum with persist := [] } })
      (P := fun y => y.sum.persist = []) (fun _ => rfl) s hx⟩
  · have h : ((s.viewInputs v).all (s.atBoundary v) || (s.stagedView .detect).on (Reg.DVW_CTRL_CUT.e v)) = true := by
      rcases hb with h | h
      · rw [h, Bool.true_or]
      · rw [h, Bool.or_true]
    show execViewSwap v s = _
    unfold execViewSwap
    rw [hmay, hleft, h, Bool.true_and, Bool.true_and, bif_true]
  · obtain ⟨a, ha⟩ : ∃ a, a = ({ s with det := { s.det with drains := terase s.det.drains v } }).storeSync := ⟨_, rfl⟩
    have hr : a.det.restart = s.det.restart := by rw [ha, State.det_storeSync]
    refine ⟨a.put (viewState v) 0, ?_, State.get_put_same _ _ _ (by decide : 29 + 3 ≤ 32)⟩
    show execViewDrained v s = _
    unfold execViewDrained
    rw [hst, hem, beq_self_eq_true, Bool.true_and, bif_true]
    dsimp only
    rw [← ha, hr, hre, bif_false]

end Sys2Proof.Machine
end

section
/-!
SUPPORT. Swaps of banks (02 R64): what a swap leaves, and what it takes from the staged bank.
-/
namespace Sys2Proof.Machine

/-- The word of block `b` at a live offset with the bank bits of `st`. -/
noncomputable def bankMix (b : Blk) (o : Nat) (live st : Word) : Word :=
  BitVec.ofNat 32 ((live.toNat &&& (0xFFFFFFFF - bankMask b o)) ||| (st.toNat &&& bankMask b o))

theorem State.word_swapWord (b : Blk) (s : State) (o x : Nat) :
    (State.swapWord b s o).word x = if x = o then bankMix b o (s.word o) (s.word (o + b.half)) else s.word x := by
  unfold State.swapWord
  rw [State.word, State.setWord, tget_tset]
  rfl

/-- A word without bank bits keeps its value. -/
theorem bankMix_unmasked {b : Blk} {o : Nat} (h : bankMask b o = 0) (live st : Word) : bankMix b o live st = live := by
  refine BitVec.eq_of_toNat_eq (Nat.eq_of_testBit_eq fun i => ?_)
  unfold bankMix
  rw [h, BitVec.toNat_ofNat, Nat.testBit_mod_two_pow]
  by_cases hi : i < 32
  · simp [hi, testBit_ones32 hi]
  · have hlt : live.toNat < 2 ^ i := live.isLt.trans_le (Nat.pow_le_pow_right (by decide) (by lia))
    simp [hi, Nat.testBit_lt_two_pow hlt]

/-- A field wholly inside the mask is taken from the staged bank. -/
theorem bits_bankMix {b : Blk} {o lo w : Nat} (hw : lo + w ≤ 32) (hlt : bankMask b o < 2 ^ 32) (hm : ∀ j < w, (bankMask b o).testBit (lo + j) = true)
    (live st : Word) : bits (bankMix b o live st).toNat lo w = bits st.toNat lo w := by
  refine Nat.eq_of_testBit_eq fun j => ?_
  rw [testBit_bits, testBit_bits]
  by_cases hj : j < w
  · have hi : lo + j < 32 := by lia
    have hsub : 0xFFFFFFFF - bankMask b o = 2 ^ 32 - (bankMask b o + 1) := by lia
    unfold bankMix
    rw [BitVec.toNat_ofNat, Nat.testBit_mod_two_pow, Nat.testBit_or, Nat.testBit_and, Nat.testBit_and, hsub, Nat.testBit_two_pow_sub_succ hlt, hm j hj]
    simp [hi]
  · simp [hj]

/-- A word outside the swap, or without bank bits, stays. -/
theorem State.word_swapWhere_other {s : State} {b : Blk} {p : Nat → Bool} {o : Nat} (h : bankMask b o = 0 ∨ p o = false ∨ b.base + b.half ≤ o) :
    (s.swapWhere b p).word o = s.word o := by
  have hl : ∀ l : List Nat, (∀ x ∈ l, p x = true ∧ x < b.base + b.half) → ∀ t : State, (l.foldl (State.swapWord b) t).word o = t.word o := by
    intro l
    induction l with
    | nil => exact fun _ _ => rfl
    | cons x l ih =>
      intro hx t
      obtain ⟨hp, hlt⟩ := hx x (.head _)
      rw [List.foldl_cons, ih (fun y hy => hx y (.tail _ hy)), State.word_swapWord]
      split
      · next ho =>
        subst ho
        rcases h with h | h | h
        · exact bankMix_unmasked h _ _
        · rw [h] at hp
          exact absurd hp Bool.false_ne_true
        · lia
      · rfl
  refine hl _ (fun x hx => ?_) s
  obtain ⟨hx, hp⟩ := List.mem_filter.mp hx
  have h2 := (List.mem_filter.mp hx).2
  simp only [Bool.and_eq_true, decide_eq_true_eq] at h2
  exact ⟨hp, h2.2⟩

theorem State.get_swapWhere_other {s : State} {b : Blk} {p : Nat → Bool} {l : Loc}
    (h : bankMask b l.off = 0 ∨ p l.off = false ∨ b.base + b.half ≤ l.off) : (s.swapWhere b p).get l = s.get l := by
  rw [State.get, State.word_swapWhere_other h, State.get]

end Sys2Proof.Machine
end

section
/-!
PROOF. Tuners: outputs, swaps, glazes, drains and steps (08 R253 to R263).
-/
namespace Sys2Proof.Machine

theorem State.tuner_congr {s t : State} (h : t.tun = s.tun) (k : Nat) : t.tuner k = s.tuner k := by rw [State.tuner, h, State.tuner]
theorem State.tuner_setTuner (s : State) (k : Nat) (x : Tuner) : (s.setTuner k x).tuner k = x := by
  simp only [State.tuner, State.setTuner, tget_tset_same]

/-! ### The end of a tuner's swap -/

set_option maxRecDepth 2000 in
/-- The word of TUN_TSTAT holds no bit of the bank. -/
theorem bankMask_tunState : ∀ k < 256, bankMask .tuners (tunState k).off = 0 := by decide

set_option maxRecDepth 2000 in
/-- It lies below the words of the tiles and in no block's header. -/
theorem tunState_plain : ∀ k < 256, (tunState k).off < 0x3000000 ∧ ¬ ((tunState k).off % 0x40000 < 0x100 ∨
    (tunState k).off / 0x100 = 0x1080 ∨ 0x3E00000 ≤ (tunState k).off) := by decide

/-- The rings of the tiles are given to tuners: words from 0x3000000 on, and nothing of the tuners. -/
structure OnRings (s t : State) : Prop where
  frame : Frame (fun l => 0x3000000 ≤ l.off) s t
  tun : t.tun = s.tun

namespace OnRings

theorem refl (s : State) : OnRings s s := ⟨.refl s, rfl⟩
theorem trans {s t u : State} (h : OnRings s t) (k : OnRings t u) : OnRings s u := ⟨h.frame.trans k.frame, k.tun.trans h.tun⟩
theorem cond {s t u : State} (c : Bool) (h : OnRings s t) (k : OnRings s u) : OnRings s (bif c then t else u) := by cases c <;> assumption
theorem foldl {β : Type} {f : State → β → State} (h : ∀ a b, OnRings a (f a b)) (l : List β) (s : State) : OnRings s (l.foldl f s) := by
  induction l generalizing s with
  | nil => exact refl s
  | cons b l ih => exact (h s b).trans (ih _)

theorem put (s : State) {f : Fld} (t k v : Nat) (hf : 0x3000000 ≤ f.off) : OnRings s (s.put (f.tk t k) v) := by
  have hr : 0x3000000 ≤ (f.tk t k).off := by rw [Fld.tk_off]; exact hf.trans (Nat.le_add_right ..)
  exact ⟨.put s v hr (not_eventWord (.inr (.inr (le_trans (by decide) hr)))), State.put_tun ..⟩

theorem setRing (s : State) (t k : Nat) (x : RingSlot) : OnRings s (s.setRing t k x) := ⟨.of_regs rfl, rfl⟩

theorem ringGive (s : State) (t k : Nat) (u : Option Nat) : OnRings s (s.ringGive t k u) := by
  have hv : 0x3000000 ≤ Reg.TILE_RING0_VALID.off := by decide
  have ht : 0x3000000 ≤ Reg.TILE_RING0_TUNER.off := by decide
  have hw : 0x3000000 ≤ Reg.TILE_RING0_WIDX.off := by decide
  have hr : 0x3000000 ≤ Reg.TILE_RING1_RIDX.off := by decide
  unfold State.ringGive
  split
  · exact cond _ (((((put s t k _ hv).trans (put _ t k _ ht)).trans (put _ t k _ hw)).trans (setRing _ t k _))) (refl s)
  · exact cond _ (refl s)
      (((((put s t k _ hv).trans (put _ t k _ ht)).trans (put _ t k _ hw)).trans (put _ t k _ hr)).trans (setRing _ t k _))

theorem ringAssign (s : State) : OnRings s s.ringAssign :=
  foldl (fun a t => foldl (fun b k => ringGive b t k _) _ a) _ s

end OnRings

theorem State.tun_swapWhere (s : State) (b : Blk) (p : Nat → Bool) : (s.swapWhere b p).tun = s.tun :=
  foldl_keeps _ State.tun (fun _ _ => State.setWord_tun ..) _ s

/-- A reading of the state beside the registers, the events and the admission. -/
structure Beside {α : Type} (F : State → α) : Prop where
  put : ∀ (s : State) (l : Loc) (v : Nat), F (s.put l v) = F s
  ev : ∀ (s : State) (n : Nat), F (s.ev n) = F s
  adm : ∀ (s : State) (a : Admission), F { s with adm := a } = F s

namespace Beside

variable {α : Type} {F : State → α} (h : Beside F)
include h

theorem pend (v : Bool) (s : State) (b : Blk) : F (s.pend v b) = F s := by
  unfold State.pend
  cases swpend b with
  | none => exact h.put ..
  | some l => exact (h.put ..).trans (h.put ..)

theorem admStart (s : State) (r : AdmRequest) : F (s.admStart r) = F s := by
  rw [State.admStart]
  dsimp only
  rw [h.adm, h.put]
  exact foldl_keeps _ F (h.pend true) _ s

theorem admNext (s : State) : F s.admNext = F s := by
  unfold State.admNext
  cases s.adm.held with
  | none => exact h.put ..
  | some r => exact (h.admStart ..).trans ((h.put ..).trans (h.adm ..))

theorem genReached (s : State) : F s.genReached = F s := by
  unfold State.genReached
  cases s.adm.named.isEmpty && s.get Reg.ADM_STAT_STATE.z == 3
  · rfl
  · rw [bif_true, h.admNext, h.ev, h.put]

/-- The end of a block's swap leaves it. -/
theorem swapDone (s : State) (b : Blk) : F (s.swapDone b) = F s := by
  rw [State.swapDone]
  dsimp only
  rw [h.genReached, h.adm]
  exact (h.put ..).trans (h.put ..)

end Beside

theorem State.tun_swapDone (s : State) (b : Blk) : (s.swapDone b).tun = s.tun :=
  Beside.swapDone ⟨State.put_tun, State.ev_tun, fun _ _ => rfl⟩ s b

theorem tunEvent_lt {k : Nat} (hk : k < 256) : 256 + k / 16 < 512 :=
  Nat.add_lt_add_left (Nat.div_lt_of_lt_mul (hk.trans (by decide : 256 < 16 * 256))) 256

/-- What the end of tuner `k`'s swap leaves: the tuners, and the words that hold no bank bit, lie below the rings and in no header. -/
theorem State.tunSwapped_leaves (s : State) {k : Nat} (hk : k < 256) :
    (s.tunSwapped k).tun.tuners = s.tun.tuners ∧
      ∀ l : Loc, bankMask .tuners l.off = 0 → l.off < 0x3000000 → ¬ eventWord l.off → ¬ hdrWord l → (s.tunSwapped k).get l = s.get l := by
  obtain ⟨a, ha⟩ : ∃ a : State, a = { s.ringAssign with tun := { s.ringAssign.tun with left := s.ringAssign.tun.left.filter (· ≠ k) } } :=
    ⟨_, rfl⟩
  obtain ⟨b, hb⟩ : ∃ b : State, b = bif a.tun.left.any (fun u => u / 16 == k / 16) || a.tun.groups.contains (k / 16) then a
    else { a with tun := { a.tun with groups := k / 16 :: a.tun.groups } }.ev (256 + k / 16) := ⟨_, rfl⟩
  have hx : s.tunSwapped k = bif b.maySwap .tuners && b.tun.left.isEmpty then
      ((b.swapWhere .tuners (fun _ => true)).flag Reg.TUN_STAT_SWPEND.z false).swapDone .tuners else b := by rw [hb, ha, State.tunSwapped]
  have hrings := OnRings.ringAssign s
  have hat : a.tun.tuners = s.tun.tuners := by
    rw [ha, ← hrings.tun]
  have hbt : b.tun.tuners = s.tun.tuners := by
    rw [hb]
    cases a.tun.left.any (fun u => u / 16 == k / 16) || a.tun.groups.contains (k / 16)
    · rw [bif_false, State.ev_tun]
      exact hat
    · rw [bif_true, hat]
  have haf : Frame (fun l => 0x3000000 ≤ l.off) s a := by
    rw [ha]
    exact hrings.frame.before rfl
  have hbf : Frame (fun l => 0x3000000 ≤ l.off) s b := by
    rw [hb]
    exact haf.trans (.cond _ (.refl a) (.after (.ev _ (tunEvent_lt hk)) rfl))
  rw [hx]
  cases b.maySwap .tuners && b.tun.left.isEmpty
  · rw [bif_false]
    exact ⟨hbt, fun l _ hlt he _ => hbf.get l he fun m hm => .inl (Nat.ne_of_lt (hlt.trans_le hm))⟩
  · rw [bif_true]
    refine ⟨?_, fun l hmask hlt he hh => ?_⟩
    · rw [State.tun_swapDone, State.flag_tun, State.tun_swapWhere, hbt]
    · have hs : hdrWord Reg.TUN_STAT_SWPEND.z := .inl (by decide)
      have hne {m : Loc} (hm : hdrWord m) : m.apart l := .inl fun h => hh (by unfold hdrWord; rw [h]; exact hm)
      rw [(Frame.swapDone _ .tuners).get l he fun m hm => hne hm, State.get_flag_apart _ _ (hne hs), State.get_swapWhere_other (.inl hmask),
        hbf.get l he fun m hm => .inl (Nat.ne_of_lt (hlt.trans_le hm))]

/-! ### The commands -/

/-- The word of TUN_TSTAT is none of those that the end of a swap writes. -/
theorem State.tunSwapped_tstat (s : State) {k : Nat} (hk : k < 256) {l : Loc} (ho : l.off = (tunState k).off) :
    (s.tunSwapped k).get l = s.get l := by
  obtain ⟨hlow, hhead⟩ := tunState_plain k hk
  exact (s.tunSwapped_leaves hk).2 l (ho ▸ bankMask_tunState k hk) (ho ▸ hlow) (ho ▸ array_not_event (a := 0x2010028) (by decide) _)
    (by rw [hdrWord, ho]; exact hhead)

/-- A flag of TUN_TSTAT is shown, other bits of the word stay. -/
theorem State.tunFlag_shows (s : State) {k : Nat} (hk : k < 256) {f : Fld} (hf : f.off = 0x2010028) (hd : f.dims = [(0x40, 256)])
    (hw : f.w = 1) (hl : f.lo < 29) :
    (s.tunFlag k f).on (f.e k) = true ∧ (s.tunFlag k f).get (tunState k) = s.get (tunState k) ∧ (s.tunFlag k f).tun = s.tun := by
  have ho : (f.e k).off = 0x2010028 + (k * 0x40 + 0) := by rw [Fld.e_off, hf, hd, elemOff_cons, elemOff_nil]
  have hev : ¬ eventWord (0x2010028 + (k * 0x40 + 0)) := array_not_event (by decide) _
  have hend : (f.e k).lo + (f.e k).w ≤ 29 := by rw [Fld.e_lo, Fld.e_w, hw]; exact hl
  refine ⟨?_, ?_, ?_⟩
  · unfold State.tunFlag State.tunEv
    rw [State.on_ev _ _ _ (tunEvent_lt hk) (ho ▸ hev), State.on_flag_same _ _ _ (hend.trans (by decide)) (by rw [Fld.e_w, hw])]
  · unfold State.tunFlag State.tunEv
    rw [State.ev, State.get_raise _ _ _ _ (tunEvent_lt hk) hev, State.get_flag_apart _ _ (.inr ⟨hend.trans (by decide), .inr hend⟩)]
  · unfold State.tunFlag State.tunEv
    rw [State.ev_tun, State.flag_tun]

/-- A glaze that has delivered its last output ends. -/
theorem exec_glazeEnd {s : State} {k : Nat} {ch : Chain} {g : Glaze} (hk : k < 256) (hc : (s.tuner k).chain = some ch)
    (hg : ch.glaze = some g) (h0 : 0 < g.g) (hn : g.first + g.g ≤ ch.next) :
    ∃ t, exec (.glazeEnd k) s = .next t ∧ (∃ c, (t.tuner k).chain = some c ∧ c.glaze = none) ∧ t.get (tunState k) = 2 ∧
      t.on (Reg.TUN_TSTAT_GLZEND.e k) = true := by
  obtain ⟨a, ha⟩ : ∃ a, a = s.setTuner k { s.tuner k with chain := some { ch with glaze := none } } := ⟨_, rfl⟩
  obtain ⟨b, hb⟩ : ∃ b, b = (a.put (tunState k) 2).tunFlag k Reg.TUN_TSTAT_GLZEND := ⟨_, rfl⟩
  have hx : exec (.glazeEnd k) s = .next (b.tunSwapped k) := by
    have hlt : lt 0 g.g = true := decide_eq_true h0
    have hle : le (g.first + g.g) ch.next = true := decide_eq_true hn
    show execGlazeEnd k s = _
    unfold execGlazeEnd
    rw [hc]
    dsimp only
    rw [hg]
    dsimp only
    rw [hlt, hle, Bool.and_self, bif_true, hb, ha]
  obtain ⟨h1, h2, h3⟩ := (a.put (tunState k) 2).tunFlag_shows hk (f := Reg.TUN_TSTAT_GLZEND) rfl rfl rfl (by decide)
  rw [← hb] at h1 h2 h3
  refine ⟨_, hx, ⟨{ ch with glaze := none }, ?_, rfl⟩, ?_, ?_⟩
  · have ht : (b.tunSwapped k).tuner k = a.tuner k := by
      rw [State.tuner, (b.tunSwapped_leaves hk).1, h3, State.put_tun, State.tuner]
    rw [ht, ha, State.tuner_setTuner]
  · rw [b.tunSwapped_tstat hk rfl, h2, State.get_put_same _ _ _ (by decide : 29 + 3 ≤ 32)]
    rfl
  · rw [State.on, b.tunSwapped_tstat hk (l := Reg.TUN_TSTAT_GLZEND.e k) rfl, ← State.on, h1]

/-- Settles O23. -/
theorem tunerCommandsComplete : Obligations.TunerCommandsComplete := by
  refine ⟨fun s k ch ho hc hr => ?_, fun s k o ho hf hr => ?_, fun s k o ho hc hf => ?_, fun s k i hi hn hst => ?_,
    fun s k ch g hk hc hg h0 hn => exec_glazeEnd hk hc hg h0 hn, fun s k hk hst ha => ?_, fun s k i hst ha => ?_, fun s k n ho => ?_⟩
  · intro t
    show execTunerOutput k s = _
    rw [execTunerOutput, ho, hc]
    dsimp only
    unfold State.chainOutput
    rw [if_pos hr]
    show Host.Outcome.next (bif t.get (tunState k) == 1 && (s.tunOut ch ch.next).isSome then t.put (tunState k) 2 else t) = _
    cases h : t.get (tunState k) == 1 && (s.tunOut ch ch.next).isSome with
    | true =>
      have hp : t.get (tunState k) = 1 ∧ (s.tunOut ch ch.next).isSome = true := by simpa using h
      rw [bif_true, if_pos hp]
    | false =>
      have hp : ¬ (t.get (tunState k) = 1 ∧ (s.tunOut ch ch.next).isSome = true) := by simpa using h
      rw [bif_false, if_neg hp]
  · have hx : s.oldOutput k o = s.tunNext k true o := by
      unfold State.oldOutput
      rw [hf, if_neg Bool.false_ne_true, if_pos hr]
    show execTunerOutput k s = _
    rw [execTunerOutput, ho]
    cases (s.tuner k).chain with
    | none =>
      dsimp only
      rw [hx]
    | some ch =>
      dsimp only
      rw [hf, if_neg Bool.false_ne_true, hx]
  · show execTunerOutput k s = _
    rw [execTunerOutput, ho, hc]
    dsimp only
    rw [State.oldOutput, if_pos hf, State.oldEnds, hc]
    rfl
  · have hle : le 2 (s.get Reg.ADM_STAT_STATE.z) = true := decide_eq_true hst
    show execTunerSwap k s = _
    unfold execTunerSwap
    rw [hi]
    dsimp only
    rw [hn, hle, Bool.and_self, bif_true]
  · obtain ⟨h1, h2, h3⟩ := (s.put (tunState k) 0).tunFlag_shows hk (f := Reg.TUN_TSTAT_DRAINED) rfl rfl rfl (by decide)
    refine ⟨(s.put (tunState k) 0).tunFlag k Reg.TUN_TSTAT_DRAINED, ?_, ?_, h1⟩
    · show execTunerDrained k s = _
      unfold execTunerDrained
      rw [hst, beq_self_eq_true, bif_true]
      dsimp only
      rw [State.tuner_congr (h3.trans (State.put_tun ..)), ha]
    · rw [h2, State.get_put_same _ _ _ (by decide : 29 + 3 ≤ 32)]
      rfl
  · have h3 : ((s.put (tunState k) 0).tunFlag k Reg.TUN_TSTAT_DRAINED).tun = s.tun := by
      unfold State.tunFlag State.tunEv
      rw [State.ev_tun, State.flag_tun, State.put_tun]
    show execTunerDrained k s = _
    unfold execTunerDrained
    rw [hst, beq_self_eq_true, bif_true]
    dsimp only
    rw [State.tuner_congr h3, ha]
  · have hx : ∃ (x : Tuner) (v : Nat), execTunerStepChange k s = .next ((s.setTuner k x).put (Reg.TUN_TSTAT_RSTEP.e k) v) ∧
        x.ordered = none ∧ x.step = n ∧
        x.chain = (s.tuner k).chain.map (·.order (min n (s.get (Reg.TUN_DEST_SMAX.e k))) (n - s.get (Reg.TUN_DEST_SMAX.e k))) ∧
        x.old = (s.tuner k).old.map (·.order (min n (s.get (Reg.TUN_DEST_SMAX.e k))) (n - s.get (Reg.TUN_DEST_SMAX.e k))) := by
      unfold execTunerStepChange
      dsimp only
      rw [ho]
      dsimp only
      cases ((s.tuner k).old.map (·.order (min n (s.get (Reg.TUN_DEST_SMAX.e k))) (n - s.get (Reg.TUN_DEST_SMAX.e k)))).orElse _ with
      | none => exact ⟨_, _, rfl, rfl, rfl, rfl, rfl⟩
      | some c => exact ⟨_, _, rfl, rfl, rfl, rfl, rfl⟩
    obtain ⟨x, v, hx, h⟩ := hx
    refine ⟨_, hx, ?_⟩
    rw [State.tuner_congr (State.put_tun ..), State.tuner_setTuner]
    exact h

end Sys2Proof.Machine
end

section
/-!
PROOF of O10: the mailbox, function-level reset and debug accesses (02 R61, 22 R640, R659).
-/
namespace Sys2Proof.Machine

theorem State.alive_of_answers {s : State} (h : s.answers = true) : s.alive = true := (Bool.and_eq_true_iff.mp h).1

/-! ### What a function-level reset leaves of the control complex -/

theorem Occurs.ev (s : State) (n : Nat) : Occurs s (s.ev n) := Occurs.raise s n _

theorem Occurs.flag (s : State) (l : Loc) (b : Bool) : Occurs s (s.flag l b) := Occurs.put s l _

theorem Occurs.ringStarve (s : State) (r : Nat) : Occurs s (s.ringStarve r) := by
  unfold State.ringStarve
  dsimp only
  have hset : ∀ (c : Bool) (x : HostRing), Occurs s (bif c then s.setHostRing r x else s) :=
    fun c x => .cond c (.of rfl rfl) (.refl s)
  exact .cond _ ((hset _ _).trans ((Occurs.flag _ _ _).trans (.ev _ 484))) (hset _ _)

theorem Occurs.ringsStop (s : State) : Occurs s s.ringsStop :=
  .foldl _ (fun a r => .cond _ (.refl a) ((Occurs.put a _ _).trans ((Occurs.put _ _ _).trans (.ringStarve _ r)))) _ s

theorem Occurs.evst (s : State) (t : Nat) (f : Fld) : Occurs s (s.evst t f) :=
  .cond _ (.refl s) ((Occurs.flag s _ _).trans (.ev _ _))

theorem Occurs.lockAbandon (s : State) (o : Nat) : Occurs s (s.lockAbandon o) := by
  unfold State.lockAbandon
  dsimp only
  generalize (upto 256).filter (fun n => s.get (lockState n) == 1 && s.lockOwner n == o) = held
  have hput : Occurs s (held.foldl (fun s n => s.put (lockState n) 2) s) := .foldl _ (fun a n => .put a _ _) _ s
  generalize held.foldl (fun s n => s.put (lockState n) 2) s = u at hput ⊢
  have hsync : Occurs s (u.lockSync o) := hput.trans (.cond _ (.put ..) (.refl u))
  exact .cond _ (hsync.trans (.evst _ o _)) hsync

/-- After a function-level reset the mailbox expects any number and holds no response. -/
theorem State.flr_mailbox (s : State) : s.flr.ctl.mbxExpected = none ∧ s.flr.ctl.mbxResponse = none := by
  obtain ⟨⟨_, _, _, hctl⟩, -⟩ := (Occurs.ringsStop s.flrClear).trans (.lockAbandon _ 64)
  unfold State.flr
  rw [hctl]
  exact ⟨rfl, rfl⟩

/-! ### The response -/

/-- The words of the response area `m` fills lie in the area, and no other word changes. -/
theorem State.get_response (m : List Byte) (s : State) {l : Loc} (hl : l.off < 0x3000) :
    ((upto (ceilDiv m.length 4)).foldl (fun s k =>
      s.setWord (Reg.MBX_RESP_DATA.e k).off (BitVec.ofNat 32 (leAt m (4 * k) 4))) s).get l = s.get l :=
  foldl_keeps _ (fun s : State => s.get l) (fun a k => by
    have ho : (Reg.MBX_RESP_DATA.e k).off = 0x3000 + (k * 4 + 0) := rfl
    rw [State.get, State.word, State.setWord, tget_tset_ne _ _ (by lia), State.get, State.word]) _ s

theorem exec_mailboxResponseDone {s : State} {m : List Byte} (h : s.ctl.mbxResponse = some m) (hd : s.ctl.mbxDiscard = false)
    (hm : m.length ≤ 4096) :
    ∃ t, exec .mailboxResponseDone s = .next t ∧ t.ctl.mbxResponse = none ∧ t.on Reg.MBX_STATUS_BUSY.z = false ∧
      t.on Reg.MBX_STATUS_DONE.z = true ∧ t.get Reg.MBX_STATUS_RLEN.z = m.length ∧ t.on (evPend 10) = true := by
  obtain ⟨u, hu⟩ : ∃ u, u = { s with ctl := { s.ctl with mbxResponse := none } }.flag Reg.MBX_STATUS_BUSY.z false := ⟨_, rfl⟩
  have hdu : u.ctl.mbxDiscard = false := by rw [hu, State.flag_ctl]; exact hd
  have hru : u.ctl.mbxResponse = none := by rw [hu, State.flag_ctl]
  have hbu : u.get Reg.MBX_STATUS_BUSY.z = 0 := by
    rw [hu]; exact State.get_flag_same _ _ _ (by decide : 31 + 1 ≤ 32) (by decide : 1 ≤ 1)
  obtain ⟨v, hv⟩ : ∃ v, v = (upto (ceilDiv m.length 4)).foldl (fun s k =>
      s.setWord (Reg.MBX_RESP_DATA.e k).off (BitVec.ofNat 32 (leAt m (4 * k) 4))) u := ⟨_, rfl⟩
  have hrv : v.ctl = u.ctl := by rw [hv]; exact foldl_keeps _ (fun s : State => s.ctl) (fun a k => State.setWord_ctl ..) _ u
  have hbv : v.get Reg.MBX_STATUS_BUSY.z = 0 := by
    rw [hv, State.get_response m u (by decide : (0x1004 : Nat) < 0x3000), hbu]
  have hne : ¬ eventWord (0x1004 : Nat) := not_eventWord (.inl (by decide))
  refine ⟨((v.put Reg.MBX_STATUS_RLEN.z m.length).flag Reg.MBX_STATUS_DONE.z true).ev 10, ?_, ?_, ?_, ?_, ?_, State.ev_pend _ 10⟩
  · show execMailboxResponseDone s = _
    unfold execMailboxResponseDone State.mbxDone
    rw [h]
    dsimp only
    rw [← hu, hdu, bif_false, ← hv]
  · rw [State.ev_ctl_mbxResponse, State.flag_ctl, State.put_ctl, hrv, hru]
  · rw [State.on_ev _ 10 _ (by decide) hne, State.on_flag_apart _ _ (.inr ⟨by decide, .inr (by decide)⟩),
      State.on_put_apart _ _ (.inr ⟨by decide, .inr (by decide)⟩), State.on, hbv]
    rfl
  · rw [State.on_ev _ 10 _ (by decide) hne]
    exact State.on_flag_same _ _ _ (by decide : 30 + 1 ≤ 32) (by decide : 1 ≤ 1)
  · rw [State.ev, State.get_raise _ 10 _ _ (by decide) hne, State.get_flag_apart _ _ (.inr ⟨by decide, .inl (by decide)⟩),
      State.get_put_same _ _ _ (by decide : 0 + 13 ≤ 32)]
    exact Nat.mod_eq_of_lt (by show m.length < 8192; lia)

/-! ### Reads of BLK_ID -/

/-- The identity block's BLK_ID reads what its word holds, and the read changes nothing. -/
theorem State.busRead_blkId (s : State) (r : Requester) : s.busRead r Blk.ident.hdr = (s, s.word Blk.ident.hdr) := by
  have hw : s.window Blk.ident.hdr = some .ident := by
    unfold State.window
    rw [show blkAt Blk.ident.hdr = some .ident by decide]
    simp
  have hl : liveOff .ident Blk.ident.hdr = Blk.ident.hdr := by decide
  have hrc : s.hasRc .ident Blk.ident.hdr = false := by
    unfold State.hasRc
    rw [show (slowMask .ident Blk.ident.hdr ||| keepMask Blk.ident.hdr != 0) = false by decide, Bool.false_and]
  have hsense : s.sense r .ident Blk.ident.hdr = s := by
    unfold State.sense
    exact if_neg (by decide)
  unfold State.busRead
  rw [hw]
  dsimp only
  rw [if_pos (by decide : isReg .ident Blk.ident.hdr = true)]
  unfold State.regRead
  rw [hl]
  dsimp only
  rw [hsense, hrc, bif_false]
  unfold State.wordRead
  rw [hl]
  dsimp only
  rw [if_neg (by decide), State.viewWord, hl]
  rw [if_neg (by decide), State.slotMask, hl]
  dsimp only
  rw [if_neg (by decide), show readMask .ident Blk.ident.hdr = 0xFFFFFFFF by decide, Nat.and_assoc]
  exact congrArg (Prod.mk s) (BitVec.eq_of_toNat_eq (by
    rw [BitVec.toNat_ofNat, Nat.and_self, (by decide : 0xFFFFFFFF = 2 ^ 32 - 1), Nat.and_two_pow_sub_one_eq_mod,
      Nat.mod_mod, Nat.mod_eq_of_lt (s.word Blk.ident.hdr).isLt]))

/-- Settles O10: each clause is the rule of its command. -/
theorem mailboxResetAndDebugCommandsComplete : Obligations.MailboxResetAndDebugCommandsComplete := by
  refine ⟨fun s v ha hb => ?_, fun s m h hd hm => exec_mailboxResponseDone h hd hm, fun s hb => ?_, fun s hb => ?_,
    fun s o v ha hd => ?_, fun s r v ha hd hr => ?_⟩
  · have hs : exec (.mbxCtrlWrite v) s = .next (s.mbxStart (bits v.toNat 0 13)) := by
      show execMbxCtrlWrite v s = _
      unfold execMbxCtrlWrite
      rw [State.alive_of_answers ha, bif_true]
    refine ⟨_, hs, ?_⟩
    unfold State.mbxStart
    rw [hb, bif_false, ha, Bool.not_true, bif_false]
    dsimp only
    exact ⟨State.on_flag_same _ _ _ (by decide : 31 + 1 ≤ 32) (by decide : 1 ≤ 1), by rw [State.flag_ctl]; rfl⟩
  · have hs : exec .pcieFlr s = .next s.flr := by
      show execPcieFlr s = _
      unfold execPcieFlr
      rw [hb, bif_false]
    exact ⟨_, hs, s.flr_mailbox⟩
  · have hs : exec .pcieFlr s = .next { s with ctl := { s.ctl with mbxDiscard := true } } := by
      show execPcieFlr s = _
      unfold execPcieFlr
      rw [hb, bif_true]
    exact ⟨_, hs, rfl, rfl⟩
  · show execDbgacc 1 o v s = _
    rw [execDbgacc]
    dsimp only
    unfold State.tap
    rw [ha, hd]
    rfl
  · subst hr
    have hlt : lt (s.get Reg.SEC_STAT_DBG.z) 1 = false := decide_eq_false (by lia)
    have hbad : s.dbgBad Blk.ident.hdr = false := by
      unfold State.dbgBad State.malformed State.window
      rw [show blkAt (Blk.ident.hdr / 4 * 4) = some .ident by decide]
      simp only [decide_true, Bool.or_true, Bool.true_or, if_true]
      decide
    show execDbgacc 1 Blk.ident.hdr v s = _
    rw [execDbgacc]
    dsimp only
    unfold State.tap
    rw [ha, hlt, hbad, State.busRead_blkId, show debugBlind Blk.ident.hdr = false by decide, Bool.and_false]
    rfl

end Sys2Proof.Machine
end

section
/-!
PROOF of O3: accesses to registers (02 R62, R66, R71).
-/
namespace Sys2Proof.Machine

/-! ### The window of a running engine -/

theorem State.window_of_booted {s : State} (h : s.booted = true) (o : Nat) : s.window o = blkAt o := by
  rw [State.window]
  cases blkAt o with
  | none => rfl
  | some b =>
    dsimp only
    rw [h, Bool.true_or, Bool.true_or, Bool.true_or, if_pos rfl]

theorem exec_aligned_registerWrite {s : State} {o : Nat} (r : Requester) (v : Word) (ha : s.alive = true) (ho : (o % 4 != 0) = false) :
    exec (.registerWrite r o v) s = .next (s.busWrite r o v) := by
  show execRegisterWrite r o v s = _
  unfold execRegisterWrite
  rw [ha, Bool.not_true, bif_false, ho, bif_false]

theorem exec_aligned_rlRead {s : State} {o : Nat} (r : Requester) (ha : s.alive = true) (ho : (o % 4 != 0) = false) :
    exec (.rlRead r o) s = .next (s.readBack r o id) := by
  show execRlRead r o s = _
  unfold execRlRead
  rw [ha, Bool.not_true, bif_false, ho, bif_false]

/-! ### A full-width RW word: a vector's message data -/

/-- A full-width field takes the low 32 bits written. -/
theorem ofNat_masked_full (old v : Nat) :
    BitVec.ofNat 32 (((old &&& (0xFFFFFFFF ^^^ 0xFFFFFFFF)) ||| (v &&& 0xFFFFFFFF)) &&& (0xFFFFFFFF ^^^ 0)) = BitVec.ofNat 32 v := by
  have h : 0xFFFFFFFF = 2 ^ 32 - 1 := by decide
  rw [Nat.xor_self, Nat.and_zero, Nat.zero_or, Nat.xor_zero, Nat.and_assoc, Nat.and_self, h, Nat.and_two_pow_sub_one_eq_mod]
  exact BitVec.eq_of_toNat_eq (by simp)

/-- A word that one RW field fills is stored. -/
theorem State.plainWrite_full {s : State} {b : Blk} {o : Nat} (hrw : accMask b o .rw = 0xFFFFFFFF) (hrwl : accMask b o .rwl = 0)
    (hw1c : accMask b o .w1c = 0) (hrange : rangeChecked b = false) (v : Nat) :
    s.plainWrite b o v 0xFFFFFFFF = s.setWord o (BitVec.ofNat 32 v) := by
  rw [State.plainWrite, hrw, hrwl, hw1c, hrange, Bool.false_and, bif_false]
  dsimp only
  cases s.on b.lock
  all_goals
    simp only [Nat.zero_and, Nat.and_self, Nat.or_zero, bne_self_eq_false, Bool.and_false, cond_true, cond_false, ofNat_masked_full]

/-- Outside the banks and the frozen blocks, a word is written by its access codes alone. -/
theorem State.codeWrite_plain {s : State} {b : Blk} {o : Nat} (hl : liveOff b o = o) (hf : s.admFrozen b o = false)
    (hmask : bankMask b o = 0) (v : Nat) : s.codeWrite b o v = s.plainWrite b o v 0xFFFFFFFF := by
  unfold State.codeWrite
  rw [hl]
  dsimp only
  rw [hf, bif_false, hmask, beq_self_eq_true, bif_true]

theorem State.busWrite_msixData {s : State} (h : s.booted = true) (r : Requester) (v : Word) :
    s.busWrite r Reg.MSIX_DATA_DATA.off v = s.setWord Reg.MSIX_DATA_DATA.off v := by
  have hw : s.window Reg.MSIX_DATA_DATA.off = some .ident :=
    (s.window_of_booted h _).trans (by decide)
  unfold State.busWrite
  rw [show (Reg.MSIX_DATA_DATA.off == Reg.MBX_CTRL_LEN.off) = false by decide, bif_false]
  unfold State.wordWrite
  rw [hw]
  dsimp only
  rw [if_pos (by decide : isReg .ident Reg.MSIX_DATA_DATA.off = true)]
  unfold State.regWrite
  rw [show inHeader .ident Reg.MSIX_DATA_DATA.off = false by decide, bif_false,
    show wordPlace (liveOff .ident Reg.MSIX_DATA_DATA.off) = none by decide]
  dsimp only
  unfold State.identWrite
  rw [if_neg (by decide), if_neg (by decide), State.codeWrite_plain (by decide) rfl (by decide), State.plainWrite_full (by decide) (by decide) (by decide) (by decide), BitVec.ofNat_toNat, BitVec.setWidth_eq]

/-! ### An RL word: the memory size -/

/-- The shadow of `key` holds `v`. -/
noncomputable def State.latch (s : State) (key v : Nat) : State :=
  { s with ctl := { s.ctl with readShadow := tset (fun _ => 0) s.ctl.readShadow key v } }

theorem State.busRead_memSize {s : State} (h : s.booted = true) (r : Requester) :
    s.busRead r Reg.MEM_SIZE_L_VAL.off =
      (s.latch (shadowKey r .memory) (s.word (Reg.MEM_SIZE_L_VAL.off + 4)).toNat, s.word Reg.MEM_SIZE_L_VAL.off) := by
  have hw : s.window Reg.MEM_SIZE_L_VAL.off = some .memory := (s.window_of_booted h _).trans (by decide)
  have hl : liveOff .memory Reg.MEM_SIZE_L_VAL.off = Reg.MEM_SIZE_L_VAL.off := by decide
  have hrc : s.hasRc .memory Reg.MEM_SIZE_L_VAL.off = false := by
    unfold State.hasRc
    rw [show (slowMask .memory Reg.MEM_SIZE_L_VAL.off ||| keepMask Reg.MEM_SIZE_L_VAL.off != 0) = false by decide, Bool.false_and]
  have hsense : s.sense r .memory Reg.MEM_SIZE_L_VAL.off = s := by
    unfold State.sense
    exact if_neg (by decide)
  have hrun : upto (rhRun .memory 6 (Reg.MEM_SIZE_L_VAL.off + 4)) = [0] := by decide
  have hread : s.plainRead (shadowKey r .memory) .memory Reg.MEM_SIZE_L_VAL.off =
      (s.latch (shadowKey r .memory) (s.word (Reg.MEM_SIZE_L_VAL.off + 4)).toNat, s.word Reg.MEM_SIZE_L_VAL.off) := by
    unfold State.plainRead
    rw [show isRl .memory Reg.MEM_SIZE_L_VAL.off = true by decide, bif_true, hrun]
    simp only [List.foldl_cons, List.foldl_nil, Nat.mul_zero, Nat.add_zero, Nat.zero_add, pow_zero, Nat.mul_one, State.latch]
  unfold State.busRead
  rw [hw]
  dsimp only
  rw [if_pos (by decide : isReg .memory Reg.MEM_SIZE_L_VAL.off = true)]
  unfold State.regRead
  rw [hl]
  dsimp only
  rw [hsense, hrc, bif_false]
  unfold State.wordRead
  rw [hl]
  dsimp only
  rw [if_pos (by decide : (isRl .memory Reg.MEM_SIZE_L_VAL.off || isRh .memory Reg.MEM_SIZE_L_VAL.off) = true), hread,
    show readMask .memory Reg.MEM_SIZE_L_VAL.off = 2 ^ 32 - 1 by decide, Nat.and_two_pow_sub_one_eq_mod,
    Nat.mod_eq_of_lt (BitVec.isLt _), BitVec.ofNat_toNat, BitVec.setWidth_eq]

/-! ### Malformed accesses -/

theorem exec_malformed {s : State} {w : Bool} {o n : Nat} (r : Requester) (v : Nat) (ha : s.alive = true)
    (h : s.malformed w o n = true) :
    exec (.badAccess r w o n v) s = .next (bif w then s.badAccess (blkAt o) s.now else (s.badAccess (blkAt o) s.now).emit (.readData r 0)) := by
  show execBadAccess r w o n v s = _
  unfold execBadAccess
  rw [ha, Bool.not_true, bif_false, h, bif_true]

theorem Blk.status_not_event (b : Blk) : ¬ eventWord b.badacc.off := b.status_not_eventWord

/-- A malformed access sets BADACC of the block it falls in, raises EV005 and leaves every word but those of the events. -/
theorem State.badAccess_reads (s : State) (b : Option Blk) (tag : Nat) :
    (s.badAccess b tag).on (evPend 5) = true ∧ (∀ c, b = some c → (s.badAccess b tag).on c.badacc = true) ∧
      ∀ p, ¬ eventWord p → (∀ c, b = some c → c.badacc.off ≠ p) → (s.badAccess b tag).word p = s.word p := by
  refine ⟨(PendKept.raise _ 5 tag).2, fun c hc => ?_, fun p hp hb => ?_⟩
  · subst hc
    rw [State.badAccess, State.on_raise _ 5 tag _ (by decide) c.status_not_event]
    exact State.on_flag_same _ _ _ (by decide : 26 + 1 ≤ 32) (by decide : 1 ≤ 1)
  · cases b with
    | none => exact (SameBut.raise _ 5 tag (by decide)).word _ hp
    | some c =>
      refine ((SameBut.raise (s.flag c.badacc true) 5 tag (by decide)).word _ hp).trans ?_
      rw [State.word, State.flag, State.put, State.setWord, tget_tset_ne _ _ (hb c rfl).symm]
      rfl

/-- Settles O3: each clause is the access's rule carried out on its word. -/
theorem registerAccessCommandsComplete : Obligations.RegisterAccessCommandsComplete := by
  refine ⟨fun s r v ha hb => ?_, fun s r ha => ?_, fun s r ha hb => ?_, fun s r o n v ha hm => ?_, fun s r o n v ha hm => ?_,
    fun s r o v ha hm => ?_, fun s r o n v ha hm hn => ?_, fun s b hb => ?_⟩
  · refine ⟨_, exec_aligned_registerWrite r v ha (by decide), ?_⟩
    rw [State.busWrite_msixData hb]
    exact ⟨tget_tset_same .., fun o ho => tget_tset_ne _ _ ho _, State.setWord_out ..⟩
  · rw [exec_aligned_rlRead r ha (by decide)]
    unfold State.readBack
    rw [State.busRead_blkId]
    rfl
  · refine ⟨_, exec_aligned_rlRead r ha (by decide), ?_⟩
    unfold State.readBack
    rw [State.busRead_memSize hb]
    exact ⟨rfl, tget_tset_same .., rfl⟩
  · obtain ⟨h1, h2, h3⟩ := s.badAccess_reads (blkAt o) s.now
    refine ⟨_, (exec_malformed r v ha hm).trans (by rw [bif_true]), h1, h2, fun p hp => h3 p (not_eventWord hp)⟩
  · obtain ⟨h1, h2, -⟩ := s.badAccess_reads (blkAt o) s.now
    refine ⟨(s.badAccess (blkAt o) s.now).emit (.readData r 0), (exec_malformed r v ha hm).trans (by rw [bif_false]), h1, h2, rfl⟩
  · show execBadAccess r true o 8 v s = _
    unfold execBadAccess
    rw [ha, Bool.not_true, bif_false, hm, bif_false, bif_true]
    rfl
  · have h8 : (n == 8) = false := decide_eq_false (by lia)
    have hs : exec (.badAccess r false o n v) s = .next (s.readBack r (o / 4 * 4) (narrow o n)) := by
      show execBadAccess r false o n v s = _
      unfold execBadAccess
      rw [ha, Bool.not_true, bif_false, hm, bif_false, bif_false, h8, bif_false]
    exact ⟨_, hs, rfl⟩
  · have hs : exec (.blkLockSet b) s = .next (s.flag b.lock true) := by
      show execBlkLockSet b s = _
      unfold execBlkLockSet
      rw [hb, bif_false]
    exact ⟨_, hs, State.on_flag_same _ _ _ (by decide : 0 + 1 ≤ 32) (by decide : 1 ≤ 1), State.flag_out ..⟩

end Sys2Proof.Machine
end

section
/-!
PROOF. The tag an occurrence captures (02 R75, 03 R80).
-/
namespace Sys2Proof.Machine

/-- The captured tag has 96 bits. -/
theorem State.evTag_lt (s : State) (n : Nat) : s.evTag n < 2 ^ 96 := by
  have hl : s.get (Reg.EVT_TAG_L_TAG.e n) < 2 ^ 32 := State.get_lt ..
  have hm : s.get (Reg.EVT_TAG_M_TAG.e n) < 2 ^ 32 := State.get_lt ..
  have hh : s.get (Reg.EVT_TAG_H_TAG.e n) < 2 ^ 32 := State.get_lt ..
  rw [State.evTag, State.get96]
  lia

/-- The state after reset with a time base accumulator of 129 bits. -/
noncomputable def longTag : State := { State.reset with tb := { State.reset.tb with acc := 2 ^ 128 } }

theorem longTag_now : longTag.now = 2 ^ 96 := by decide

/-- Refutes O5: the statement bounds no time base, and an occurrence at the tag 2 ^ 96 is captured in 96 bits. -/
theorem not_eventAndVoteCommandsComplete : ¬ Obligations.EventAndVoteCommandsComplete := by
  rintro ⟨h, -⟩
  obtain ⟨t, -, -, htag, -⟩ := h longTag 5 (by decide)
  have hlt := t.evTag_lt 5
  rw [htag, (by decide : longTag.on (evPend 5) = false), if_neg Bool.false_ne_true, longTag_now] at hlt
  exact absurd hlt (Nat.lt_irrefl _)

end Sys2Proof.Machine
end

section
/-!
PROOF of O6: datagrams at the management port (02 R49 to R59).
-/
namespace Sys2Proof.Machine

/-! ### Sessions -/

theorem find?_map_shell (l : List Session) (sid : Nat) :
    (l.map Session.shell).find? (fun x => decide (x.id = sid)) = (l.find? (fun x => decide (x.id = sid))).map Session.shell := by
  rw [List.find?_map]
  rfl

/-- An occurrence opens and closes no session. -/
theorem State.ev_session_none (s : State) (n sid : Nat) : (s.ev n).session sid = none ↔ s.session sid = none := by
  have h := congrArg (List.find? (fun x => decide (x.id = sid))) (Occurs.ev s n).sessions
  rw [find?_map_shell, find?_map_shell] at h
  rw [State.session, State.session, ← Option.map_eq_none_iff (f := Session.shell), h, Option.map_eq_none_iff]

theorem State.ev_sessions_length (s : State) (n : Nat) : (s.ev n).ctl.sessions.length = s.ctl.sessions.length := by
  have h := congrArg List.length (Occurs.ev s n).sessions
  rwa [List.length_map, List.length_map] at h

theorem State.session_id {s : State} {sid : Nat} {x : Session} (h : s.session sid = some x) : x.id = sid :=
  of_decide_eq_true (List.find?_some (p := fun x : Session => decide (x.id = sid)) h)

/-- The session stored under an identifier is what a lookup of it finds, where there was one. -/
theorem State.session_setSession {s : State} {x y : Session} (h : s.session y.id = some x) : (s.setSession y).session y.id = some y := by
  have hf : (fun z : Session => decide (z.id = y.id)) ∘ (fun z => if z.id = y.id then y else z) = fun z => decide (z.id = y.id) := by
    funext z
    by_cases hz : z.id = y.id
    · simp [hz]
    · simp [hz]
  show (s.ctl.sessions.map _).find? _ = _
  rw [List.find?_map, hf]
  rw [State.session] at h
  rw [h]
  simp [State.session_id (s := s) h]

/-! ### A datagram by its type -/

/-- The datagram's operations, for a request that parses. -/
theorem State.oapRequest_known {s : State} {d : Dgram} {x : Session} {ops : List OapOp} (addr port : Nat)
    (hops : parseOps 2048 d.body = some ops) (hn : ops.length = d.count) (hx : s.session d.sid = some x) (hv : verified x d = true)
    (hg : d.gen = s.obj 0x1005 0) :
    s.oapRequest addr port d = (s.setSession (x.acked d.ack)).oapTake addr port (x.acked d.ack) d ops (seqCase x.expected d.seq x.cache) := by
  unfold State.oapRequest
  rw [hops]
  dsimp only
  rw [hn, bne_self_eq_false, bif_false, hx]
  dsimp only
  rw [hv, Bool.not_true, bif_false, hg, bne_self_eq_false, bif_false]
  rfl

theorem State.datagramIn_request {s : State} {bs : List Byte} {d : Dgram} (addr port : Nat) (ha : s.answers = true)
    (hd : parseDgram 1388 bs = some d) (ht : d.type = 1) : s.datagramIn addr port bs = s.oapRequest addr port d := by
  unfold State.datagramIn
  rw [ha, Bool.not_true, bif_false, hd]
  dsimp only
  rw [ht]
  rfl

theorem State.datagramIn_open {s : State} {bs : List Byte} {d : Dgram} (addr port : Nat) (ha : s.answers = true)
    (hd : parseDgram 1388 bs = some d) (ht : d.type = 5) : s.datagramIn addr port bs = s.oapOpen addr port d := by
  unfold State.datagramIn
  rw [ha, Bool.not_true, bif_false, hd]
  dsimp only
  rw [ht]
  rfl

theorem State.datagramIn_close {s : State} {bs : List Byte} {d : Dgram} (addr port : Nat) (ha : s.answers = true)
    (hd : parseDgram 1388 bs = some d) (ht : d.type = 7) : s.datagramIn addr port bs = s.oapShort d (fun s x => s.closeSession x.id) := by
  unfold State.datagramIn
  rw [ha, Bool.not_true, bif_false, hd]
  dsimp only
  rw [ht]
  rfl

theorem State.datagramIn_ack {s : State} {bs : List Byte} {d : Dgram} (addr port : Nat) (ha : s.answers = true)
    (hd : parseDgram 1388 bs = some d) (ht : d.type = 4) (hs : d.seq = 0) :
    s.datagramIn addr port bs = s.oapShort d (fun s x => s.setSession (x.acked d.ack)) := by
  unfold State.datagramIn
  rw [ha, Bool.not_true, bif_false, hd]
  dsimp only
  rw [ht, hs]
  rfl

theorem State.oapShort_verified {s : State} {d : Dgram} {x : Session} (f : State → Session → State) (hc : d.count = 0) (hb : d.body = [])
    (hx : s.session d.sid = some x) (hv : verified x d = true) : s.oapShort d f = f s x := by
  unfold State.oapShort
  rw [hc, hb, bne_self_eq_false, List.isEmpty_nil, Bool.not_true, Bool.or_false, bif_false, hx]
  dsimp only
  rw [hv, bif_true]

/-- What a fresh request leaves: an answer to its sender, and the expected number of its session moved on. -/
theorem State.oapFresh_answers (s : State) (addr port : Nat) (x : Session) (d : Dgram) (ops : List OapOp) :
    (∃ a p m, (s.oapFresh addr port x d ops).out.head? = some (.datagram a p addr port m)) ∧
      ∀ y, (s.oapFresh addr port x d ops).session d.sid = some y → y.expected = (d.seq + 1) % 2 ^ 32 := by
  unfold State.oapFresh
  dsimp only
  generalize s.runOps ⟨false, x.auth⟩ x.id (bit d.flags 1) 1388 ops = p
  generalize p.1.dgram x.keyOf 2 ops.length x.id d.seq d.seq p.2 = m
  cases hs : p.1.session d.sid with
  | none => exact ⟨⟨_, _, _, rfl⟩, fun y hy => absurd ((show p.1.session d.sid = some y from hy).symm.trans hs) (by simp)⟩
  | some z =>
    refine ⟨⟨_, _, _, rfl⟩, fun y hy => ?_⟩
    have hid : (z.answered d.seq m).id = d.sid := (show (z.answered d.seq m).id = z.id from rfl).trans (State.session_id hs)
    have hset : (p.1.setSession (z.answered d.seq m)).session d.sid = some (z.answered d.seq m) := by
      rw [← hid]
      exact State.session_setSession (hid ▸ hs)
    obtain rfl := Option.some.inj ((show (p.1.setSession (z.answered d.seq m)).session d.sid = some y from hy).symm.trans hset)
    rfl

theorem State.closeSession_known {s : State} {sid : Nat} {x : Session} (h : s.session sid = some x) :
    (s.closeSession x.id).session sid = none ∧ (s.closeSession x.id).on (evPend 8) = true := by
  have hid := State.session_id h
  rw [hid]
  unfold State.closeSession
  rw [h]
  refine ⟨(State.ev_session_none _ 8 sid).mpr (List.find?_eq_none.mpr fun y hy => ?_), State.ev_pend _ 8⟩
  have hne := (List.mem_filter.mp hy).2
  simpa using hne

/-- An OPEN without authentication opens a session where there is room for it. -/
theorem State.oapOpen_plain {s : State} {d : Dgram} (addr port : Nat) (hc : d.count = 0) (hs : d.sid = 0) (hb : d.body = [])
    (hf : d.flags % 2 = 0) (hm : s.obj 0x1104 0 = 0) (ho : s.ctl.opens = []) (hl : s.ctl.sessions.length < 8) :
    (s.oapOpen addr port d).ctl.sessions.length = s.ctl.sessions.length + 1 ∧ (s.oapOpen addr port d).on (evPend 8) = true := by
  have hbit : bit d.flags 0 = false := by
    rw [bit, bits, pow_zero, Nat.div_one, pow_one, hf]
    rfl
  have hle : le 8 s.ctl.sessions.length = false := decide_eq_false (by lia)
  unfold State.oapOpen
  rw [hbit]
  dsimp only
  rw [bif_false, hc, hs, hb, List.length_nil, bne_self_eq_false, Bool.or_self, Bool.or_self, bif_false, Bool.false_and, bif_false, hm,
    Bool.not_false, Bool.true_and, (by decide : ((0 : Nat) == 1) = false), bif_false, ho, List.filter_nil, List.find?_nil]
  dsimp only
  rw [hle, bif_false]
  refine ⟨?_, State.ev_pend _ 8⟩
  rw [State.ev_sessions_length]
  unfold State.sendDgram
  rw [State.emit_ctl]
  dsimp only
  rw [List.length_append, List.length_singleton, bif_false]
  rfl

/-- Settles O6: each clause is the rule of the datagram's type. -/
theorem datagramCommandsComplete : Obligations.DatagramCommandsComplete := by
  refine ⟨fun s addr port bs d x ops m ha hd ht hops hn hx hv hg hm => ?_, fun s addr port bs d x ops ha hd ht hops hn hx hv hg hm => ?_,
    fun s addr port bs d ha hd ht hc hs hb hf hm ho hl => ?_, fun s addr port bs d x ha hd ht hc hb hx hv => ?_,
    fun s addr port bs d x ha hd ht hq hc hb hx hv => ?_⟩
  · have he := (State.datagramIn_request addr port ha hd ht).trans (State.oapRequest_known addr port hops hn hx hv hg)
    rw [hm] at he
    exact ⟨_, Res.next_congr he, rfl, rfl⟩
  · have he := (State.datagramIn_request addr port ha hd ht).trans (State.oapRequest_known addr port hops hn hx hv hg)
    rw [hm] at he
    exact ⟨_, Res.next_congr he, State.oapFresh_answers ..⟩
  · exact ⟨_, Res.next_congr (State.datagramIn_open addr port ha hd ht), State.oapOpen_plain addr port hc hs hb hf hm ho hl⟩
  · exact ⟨_, Res.next_congr ((State.datagramIn_close addr port ha hd ht).trans (State.oapShort_verified _ hc hb hx hv)),
      State.closeSession_known hx⟩
  · exact Res.next_congr ((State.datagramIn_ack addr port ha hd ht hq).trans (State.oapShort_verified _ hc hb hx hv))

end Sys2Proof.Machine
end

section
/-!
PROOF of O8: operations on objects (02 R42 to R47, R51).
-/
namespace Sys2Proof.Machine

/-- An operation outside a request answers its result. -/
theorem State.opAlone_answers {s : State} (f : State → State × OpResult) (h : s.answers = true) :
    s.opAlone f = (f s).1.emit (.objResult (f s).2.status (f s).2.data) := by
  unfold State.opAlone
  rw [h, bif_true]

/-- READ of a control-complex object that may be read. -/
theorem State.opRead_cc {s : State} {i j : Nat} {ty : ObjTy} {r : Right} (live : Bool) (hs : s.serves i = true)
    (hc : ccObj i j = some (ty, r)) (hr : r ≠ .wo) : s.opRead live i j = (s, ⟨0, ty.code, s.ccRead i j ty⟩) := by
  unfold State.opRead
  rw [hs, Bool.not_true, bif_false, hc]
  exact if_neg hr

/-- The objects below 0x1400 are served in every state. -/
theorem State.serves_first (s : State) {i : Nat} (h : (le 0x1000 i && le i 0x13FF) = true) : s.serves i = true := by
  unfold State.serves
  rw [h, Bool.true_or, Bool.true_or]

theorem leNat_leBytes_two {v : Nat} (h : v < 2 ^ 16) : leNat (leBytes 2 v) = v := by
  show (BitVec.ofNat 8 v).toNat + 256 * ((BitVec.ofNat 8 (v / 256)).toNat + 256 * 0) = v
  rw [BitVec.toNat_ofNat, BitVec.toNat_ofNat, Nat.mod_eq_of_lt (Nat.div_lt_of_lt_mul h : v / 256 < 2 ^ 8)]
  exact Nat.mod_add_div v 256

/-- A write of OAP_PORT waits for its settings to be applied. -/
theorem State.opWrite_port {s : State} {v : Nat} (hm : s.netMay ⟨false, false⟩ = true) (hv : 1024 ≤ v) (hlt : v < 2 ^ 16) :
    s.opWrite ⟨false, false⟩ 0x1102 0 ObjTy.u16.code (leBytes 2 v) =
      ({ s with ctl := { s.ctl with netPending := s.ctl.netPending ++ [(objKey 0x1102 0, v)] } }, done) := by
  have hcc : ccObj 0x1102 0 = some (.u16, .rw) := rfl
  have hlow : lt v 1024 = false := decide_eq_false (Nat.not_lt.2 hv)
  have hhigh : lt 65535 v = false := decide_eq_false (Nat.not_lt.2 (Nat.le_of_lt_succ hlt))
  unfold State.opWrite
  rw [s.serves_first (by decide), Bool.not_true, bif_false, hcc]
  dsimp only
  have hty : typeFits ObjTy.u16 ObjTy.u16.code (leBytes 2 v).length = true := rfl
  have hfit : valueFits ObjTy.u16 (leBytes 2 v) = true := rfl
  rw [if_neg (by decide), hty, hfit, if_neg (by decide), if_neg (by decide)]
  unfold State.ccWrite
  rw [leNat_leBytes_two hlt]
  dsimp only
  rw [if_neg (by decide), if_neg (by decide), hm, Bool.not_true, Bool.and_false, bif_false, show ccRange 0x1102 0 = (1024, 65535) from rfl,
    hlow, hhigh, Bool.or_self, bif_false, hcc]
  have hold : ∀ x : Nat, (leBytes 2 x).drop (leBytes 2 v).length = [] := fun x => rfl
  dsimp only
  rw [show ObjTy.u16.size = 2 from rfl, hold, List.append_nil, leNat_leBytes_two hlt]

/-- READ of one of the four counters OAP_SPOIL. -/
theorem State.opRead_spoil (s : State) (live : Bool) {j : Nat} (h : j = 1 ∨ j = 2 ∨ j = 3 ∨ j = 4) :
    s.opRead live 0x1107 j = (s, ⟨0, ObjTy.u32.code, leBytes 4 (s.obj 0x1107 j)⟩) := by
  have hc : ccObj 0x1107 j = some (.u32, .ro) := by
    rcases h with h | h | h | h
    all_goals
      subst h
      rfl
  exact State.opRead_cc live (s.serves_first (by decide)) hc (by decide)

theorem State.opRange_spoil (s : State) (live : Bool) :
    s.opRange live 0x1107 1 4 = (s, ⟨0, ObjTy.u32.code,
      leBytes 4 (s.obj 0x1107 1) ++ leBytes 4 (s.obj 0x1107 2) ++ leBytes 4 (s.obj 0x1107 3) ++ leBytes 4 (s.obj 0x1107 4)⟩) := by
  have h1 := s.opRead_spoil live (j := 1 + 0) (.inl rfl)
  have h2 := s.opRead_spoil live (j := 1 + 1) (.inr (.inl rfl))
  have h3 := s.opRead_spoil live (j := 1 + 2) (.inr (.inr (.inl rfl)))
  have h4 := s.opRead_spoil live (j := 1 + 3) (.inr (.inr (.inr rfl)))
  unfold State.opRange
  rw [show lt 4 1 = false from rfl, bif_false, show upto (4 + 1 - 1) = [0, 1, 2, 3] from rfl]
  simp only [List.foldl_cons, List.foldl_nil, done, h1, h2, h3, h4, bne_self_eq_false, cond_false, List.nil_append]

theorem State.opSubscribe_session {s : State} {sid : Nat} {x : Session} (mask : List Byte) (h0 : sid ≠ 0) (h : s.session sid = some x) :
    (s.opSubscribe sid mask).1.session sid = some { x with subs := leNat mask } := by
  have hf : (fun z : Session => decide (z.id = sid)) ∘ (fun z => if z.id = sid ∧ sid ≠ 0 then { z with subs := leNat mask } else z) =
      fun z => decide (z.id = sid) := by
    funext z
    by_cases hz : z.id = sid
    · simp [hz, h0]
    · simp [hz]
  show (s.ctl.sessions.map _).find? _ = _
  rw [List.find?_map, hf]
  rw [State.session] at h
  rw [h, Option.map_some, if_pos ⟨State.session_id (s := s) h, h0⟩]

/-- Settles O8: each clause is the operation's rule for its object. -/
theorem objectCommandsComplete : Obligations.ObjectCommandsComplete := by
  refine ⟨fun s live ha => ?_, fun s v ha hm hv => ?_, fun s live ha => ?_, fun s ha => ?_, fun s sid mask x ha h0 hx => ?_⟩
  · have hr := State.opRead_cc (s := s) (i := 0x1102) (j := 0) live (s.serves_first (by decide)) rfl (by decide)
    refine Res.next_congr ((State.opAlone_answers _ ha).trans ?_)
    rw [hr]
    rfl
  · have hw := State.opWrite_port hm hv v.isLt
    refine ⟨_, Res.next_congr (State.opAlone_answers _ ha), ?_⟩
    rw [hw]
    exact ⟨rfl, rfl, rfl⟩
  · refine ⟨_, Res.next_congr (State.opAlone_answers _ ha), ?_⟩
    rw [s.opRange_spoil]
    rfl
  · have hd : ∃ r, r.status = 0 ∧ s.opDescribe 0x1102 0 = (s, r) := by
      unfold State.opDescribe
      rw [s.serves_first (by decide), Bool.not_true, bif_false]
      exact ⟨_, rfl, rfl⟩
    obtain ⟨r, hr0, hr⟩ := hd
    refine ⟨_, Res.next_congr (State.opAlone_answers _ ha), ?_⟩
    rw [hr]
    exact ⟨⟨r.data, by unfold State.emit; rw [hr0]⟩, rfl, rfl⟩
  · exact ⟨_, Res.next_congr (State.opAlone_answers _ ha), _, State.opSubscribe_session mask h0 hx, rfl⟩

end Sys2Proof.Machine
end

section
/-!
PROOF of O46: records that reach their streams, dead and failed streams, drains and swaps (16 R484 to R490, R519).
-/
namespace Sys2Proof.Machine

/-! ### Words of a stream -/

theorem strState_off (st : Nat) : (strState st).off = 0x3A4000C + (st * 0x20 + 0) := rfl
theorem strState_not_event (st : Nat) : ¬ eventWord (strState st).off :=
  array_not_event (a := 0x3A4000C) (by decide) _

/-- Places above the words of the pair and the control complex, apart from the state of stream `st`. -/
def offState (st : Nat) (l : Loc) : Prop := 0x600000 ≤ l.off ∧ l.apart (strState st)

theorem offState.array {a lo w : Nat} (h : 0x600000 ≤ a) (hm : 0x3A4000C % 0x20 ≠ a % 0x20) (st r : Nat) :
    offState st ⟨a + (r * 0x20 + 0), lo, w⟩ := ⟨h.trans (Nat.le_add_right ..), .inl (stride_ne hm st r)⟩

/-- The frame of an operation that leaves the state of stream `st`. -/
abbrev KeepsStrState (st : Nat) (s t : State) : Prop := Frame (offState st) s t

theorem KeepsStrState.ringStarve (st : Nat) (s : State) (r : Nat) : KeepsStrState st s (s.ringStarve r) := by
  unfold State.ringStarve
  dsimp only
  have hset : ∀ (c : Bool) (x : HostRing), KeepsStrState st s (bif c then s.setHostRing r x else s) :=
    fun c x => .cond c (.of_regs rfl) (.refl s)
  have hw : offState st (Reg.HRG_STAT_STARVED.e r) := offState.array (a := 0x3A01010) (by decide) (by decide) st r
  have he : ¬ eventWord (Reg.HRG_STAT_STARVED.e r).off := array_not_event (by decide) _
  exact .cond _ ((hset _ _).trans ((Frame.flag _ true hw he).trans (.ev _ (by decide : 484 < 512)))) (hset _ _)

theorem KeepsStrState.fillSync (st : Nat) (s : State) : KeepsStrState st s (s.fillSync st) := by
  have hw : offState st (Reg.STR_SSTAT_FILL.e st) :=
    ⟨le_trans (by decide) (Nat.le_add_right 0x3A4000C _),
      .inr ⟨(by decide : 0 + 8 ≤ 32), .inr (by decide : 0 + 8 ≤ 29)⟩⟩
  exact .put s _ hw (strState_not_event st)

theorem KeepsStrState.setQueue (st : Nat) (s : State) (l : List QRec) : KeepsStrState st s (s.setQueue st l) := by
  unfold State.setQueue
  extract_lets x u v
  have hu : KeepsStrState st s u := .of_regs rfl
  have hv : KeepsStrState st u v := fillSync st u
  clear_value u v
  exact (hu.trans hv).trans (Frame.foldl _ (fun a r => ringStarve st a r) v)

theorem KeepsStrState.tally (st : Nat) (s : State) (c n : Nat) (p : Bool) : KeepsStrState st s (s.tally st c n p) := by
  have hw : offState st (Reg.STR_SLOST_LOST.e st) := offState.array (a := 0x3A4001C) (by decide) (by decide) st st
  have he : ¬ eventWord (Reg.STR_SLOST_LOST.e st).off := array_not_event (by decide) _
  exact .after (.count _ 1 hw he) rfl

theorem KeepsStrState.trgTaken (st : Nat) (s : State) (r : Record) : KeepsStrState st s (s.trgTaken st r) := by
  have hw : offState st Reg.TRG_STAT_QLEN.z := ⟨by decide, .inl (low_ne (a := 0x3A4000C) (by decide) _)⟩
  exact .cond _ (.after (.put _ _ hw (not_eventWord (.inr (.inr (by decide))))) rfl) (.refl s)

theorem KeepsStrState.sendReliable (st : Nat) (s : State) (ty : Nat) (c : List Byte) : KeepsStrState st s (s.sendReliable ty c) := by
  unfold State.sendReliable
  dsimp only
  exact .cond _ (.cond _ (.after (.ev _ (by decide : 108 < 512)) rfl) (.of_regs rfl)) (.of_regs rfl)

theorem KeepsStrState.enterAt (st : Nat) (s : State) (r : Record) (seq gen : Nat) (first order : Bool) :
    KeepsStrState st s (s.enterAt st r seq gen first order) := by
  unfold State.enterAt
  extract_lets x raw bytes d hold u
  have hu : KeepsStrState st s u := setQueue st s _
  clear_value u
  exact .cond _ (hu.trans (sendReliable st u _ _)) hu

theorem KeepsStrState.enter (st : Nat) (s : State) (r : Record) : KeepsStrState st s (s.enter st r) := by
  have hw : offState st (Reg.STR_SSEQ_SEQ.e st) := offState.array (a := 0x3A40010) (by decide) (by decide) st st
  have he : ¬ eventWord (Reg.STR_SSEQ_SEQ.e st).off := array_not_event (by decide) _
  have hq : ∀ (x : Stream) (u : State), KeepsStrState st (s.setStream st x) u → KeepsStrState st s u := fun _ _ h => .after h rfl
  exact .cond _ (hq _ _ (enterAt ..)) (hq _ _ ((Frame.wrap _ 1 hw he).trans (enterAt ..)))

theorem KeepsStrState.get {st : Nat} {s t : State} (h : KeepsStrState st s t) : t.get (strState st) = s.get (strState st) :=
  Frame.get h _ (strState_not_event st) fun _ hm => hm.2

/-- A stream's state after a change of it. -/
theorem State.get_strTo (s : State) (st : Nat) {v : Nat} (hv : v < 8) : (s.strTo st v).get (strState st) = v := by
  have hput : (s.put (strState st) v).get (strState st) = v :=
    (State.get_put_same s _ _ (by decide : 29 + 3 ≤ 32)).trans (Nat.mod_eq_of_lt hv)
  have hw : Reg.STR_STAT_FAILED.z.apart (strState st) := .inl (low_ne (a := 0x3A4000C) (by decide) _)
  unfold State.strTo
  dsimp only
  cases v == 3 && s.get (strState st) != 3
  · rw [bif_false]
    cases s.get (strState st) == 3 && v != 3
    · exact hput
    · exact (State.get_put_apart _ _ hw).trans hput
  · exact (State.get_put_apart _ _ hw).trans hput

/-! ### What a stream holds -/

theorem State.stream_setStream (s : State) (st : Nat) (x : Stream) : (s.setStream st x).stream st = x := tget_tset_same ..

theorem State.stream_congr {s t : State} (h : t.str.streams = s.str.streams) (st : Nat) : t.stream st = s.stream st := by
  rw [State.stream, h, State.stream]

theorem State.ringStarve_streams (s : State) (r : Nat) : (s.ringStarve r).str.streams = s.str.streams := by
  unfold State.ringStarve
  dsimp only
  have hset : ∀ (c : Bool) (x : HostRing), (bif c then s.setHostRing r x else s).str.streams = s.str.streams :=
    fun c x => by cases c <;> rfl
  have hev : ∀ (c : Bool) (u : State) (l : Loc), (bif c then (u.flag l true).ev 484 else u).str.streams = u.str.streams := by
    intro c u l
    cases c
    · rfl
    · rw [bif_true, State.ev_str, State.flag_str]
  rw [hev, hset]

theorem State.stream_setQueue (s : State) (st : Nat) (l : List QRec) :
    ((s.setQueue st l).stream st).queue = l ∧ ((s.setQueue st l).stream st).loss = (s.stream st).loss ∧
      ((s.setQueue st l).stream st).waiting = (s.stream st).waiting := by
  have hf : ∀ (l : List Nat) (u : State), (l.foldl State.ringStarve u).str.streams = u.str.streams :=
    fun l u => foldl_keeps _ (fun s : State => s.str.streams) (fun a r => a.ringStarve_streams r) l u
  obtain ⟨y, hy, hstr⟩ : ∃ y : Stream, (y.queue = l ∧ y.loss = (s.stream st).loss ∧ y.waiting = (s.stream st).waiting) ∧
      (s.setQueue st l).stream st = y := by
    refine ⟨{ s.stream st with queue := l, olds := (s.stream st).olds.filter (fun o => l.any (fun q => q.line == o.1)) }, ⟨rfl, rfl, rfl⟩,
      (State.stream_congr ((hf _ _).trans (congrArg _ (State.put_str ..))) st).trans (State.stream_setStream ..)⟩
  rw [hstr]
  exact hy

theorem State.stream_setStream_put (s : State) (st : Nat) (x : Stream) (l : Loc) (v : Nat) : ((s.setStream st x).put l v).stream st = x :=
  (State.stream_congr (congrArg _ (State.put_str ..)) st).trans (State.stream_setStream ..)

theorem State.stream_tally (s : State) (st c n : Nat) (p : Bool) : ((s.tally st c n p).stream st).queue = (s.stream st).queue :=
  (congrArg Stream.queue (State.stream_setStream_put ..)).trans rfl

theorem State.stream_trgTaken (s : State) (st : Nat) (r : Record) : (s.trgTaken st r).str = s.str := by
  unfold State.trgTaken
  cases r.source == 1
  · rfl
  · exact State.put_str ..

theorem State.stream_sendReliable (s : State) (ty : Nat) (c : List Byte) : (s.sendReliable ty c).str = s.str := by
  unfold State.sendReliable
  dsimp only
  cases s.sendHeld || !s.pair.txWait.isEmpty
  · rfl
  · rw [bif_true]
    cases s.linkUp
    · rfl
    · exact State.ev_str ..

/-- Records that a stream gives up leave its queue. -/
theorem State.stream_giveUp (s : State) (st c : Nat) (keep gone : List QRec) : ((s.giveUp st c keep gone).stream st).queue = keep := by
  unfold State.giveUp
  extract_lets x part u v
  have hu : (u.stream st).queue = keep := (State.stream_setQueue ..).1
  have hv : (v.stream st).queue = keep :=
    (foldl_keeps _ (fun s : State => (s.stream st).queue) (fun a q => a.stream_tally st c _ _) gone u).trans hu
  clear_value v
  refine (foldl_keeps _ (fun s : State => (s.stream st).queue) (fun a r => ?_) x.waiting v).trans hv
  rw [State.stream_congr (congrArg _ (State.stream_trgTaken ..)), State.stream_tally]

theorem KeepsStrState.giveUp (st : Nat) (s : State) (c : Nat) (keep gone : List QRec) : KeepsStrState st s (s.giveUp st c keep gone) := by
  unfold State.giveUp
  extract_lets x part u v
  have hu : KeepsStrState st s u := .after (setQueue st _ keep) rfl
  have hv : KeepsStrState st u v := .foldl _ (fun a q => tally st a _ _ _) u
  clear_value u v
  exact (hu.trans hv).trans (.foldl _ (fun a r => (tally st a _ _ _).trans (trgTaken st _ r)) v)

/-- A record that enters leaves what the stream has yet to declare. -/
theorem State.stream_enter (s : State) (st : Nat) (r : Record) : ((s.enter st r).stream st).loss = (s.stream st).loss := by
  have hat : ∀ (u : State) (seq gen : Nat) (first order : Bool),
      ((u.enterAt st r seq gen first order).stream st).loss = (u.stream st).loss := by
    intro u seq gen first order
    unfold State.enterAt
    extract_lets x raw bytes d hold v
    have hv : (v.stream st).loss = (u.stream st).loss := (State.stream_setQueue ..).2.1
    clear_value v
    cases hold
    · exact hv
    · exact (congrArg Stream.loss (State.stream_congr (congrArg _ (State.stream_sendReliable ..)) st)).trans hv
  unfold State.enter
  extract_lets x gen seq
  cases s.rawIn st r
  · rw [bif_false, hat]
    unfold State.wrap
    rw [State.stream_setStream_put]
  · rw [bif_true, hat, State.stream_setStream]

/-! ### A stream fails, and takes data again -/

theorem State.strFail_reads (s : State) (st c : Nat) :
    (s.strFail st c).get (strState st) = 3 ∧ ((s.strFail st c).stream st).queue = [] ∧ (s.strFail st c).on (evPend 480) = true := by
  unfold State.strFail
  extract_lets x u l v
  have hu : u.get (strState st) = 3 := s.get_strTo st (by decide)
  have hv : KeepsStrState st u v := .of_regs rfl
  clear_value u v
  refine ⟨?_, ?_, State.ev_pends _ 480⟩
  · exact (KeepsStrState.get ((hv.trans (KeepsStrState.giveUp ..)).trans (.ev _ (by decide : 480 < 512)))).trans hu
  · rw [State.stream_congr (congrArg _ (State.ev_str ..)), State.stream_giveUp]

theorem State.leaveFailed_reads (s : State) (st : Nat) {v : Nat} (hv : v < 8) :
    (s.leaveFailed st v).get (strState st) = v ∧ (s.leaveFailed st v).on (evPend 481) = true ∧
      ((s.leaveFailed st v).stream st).loss = none := by
  unfold State.leaveFailed
  extract_lets x body
  obtain ⟨u, hu⟩ : ∃ u, u = (s.strTo st v).setStream st { x with loss := none } := ⟨_, rfl⟩
  have hstate : u.get (strState st) = v := by
    rw [hu]
    exact (State.get_congr (s := s.strTo st v) rfl _).trans (s.get_strTo st hv)
  have hloss : (u.stream st).loss = none := by rw [hu, State.stream_setStream]
  rw [← hu]
  refine ⟨?_, State.ev_pends _ 481, ?_⟩
  · exact (KeepsStrState.get ((KeepsStrState.enter st u _).trans (.ev _ (by decide : 481 < 512)))).trans hstate
  · rw [State.stream_congr (congrArg _ (State.ev_str ..)), State.stream_enter, hloss]

/-- Settles O46: each clause is the rule of its command. -/
theorem streamQueueCommandsComplete : Obligations.StreamQueueCommandsComplete := by
  refine ⟨fun s c hr hs hc => ?_, fun s st r l hr hs hw hf => ?_, fun s st _ h0 h3 hq => ?_, fun s st _ h3 ht => ?_,
    fun s st h4 hq hw hsh hc => ?_, fun s st hm hl => ?_, fun s r hm hl => ?_⟩
  · show execRecordEnqueue s = _
    unfold execRecordEnqueue
    rw [hr, hs, Bool.false_and, Bool.not_false, Bool.and_self, bif_true, hc]
  · show execProtectedRecordEnter st s = _
    unfold execProtectedRecordEnter
    rw [hr, hs, Bool.not_false, Bool.and_self, bif_true, hw]
    dsimp only
    rw [hf, bif_true]
  · have he : exec (.streamDeadTimeout st) s = .next (s.strFail st 1) := by
      show execStreamDeadTimeout st s = _
      unfold execStreamDeadTimeout
      rw [bne_iff_ne.mpr h3, bne_iff_ne.mpr h0, List.isEmpty_eq_false_iff.mpr hq, Bool.not_false, Bool.and_self, Bool.and_self, bif_true]
    exact ⟨_, he, s.strFail_reads st 1⟩
  · have he : exec (.streamFailedExit st) s = .next (s.leaveFailed st (if s.on (Reg.STR_SCFG_EN.e st) then 1 else 4)) := by
      show execStreamFailedExit st s = _
      unfold execStreamFailedExit
      rw [h3, ht, beq_self_eq_true, Bool.and_self, bif_true]
    refine ⟨_, he, ?_⟩
    cases s.on (Reg.STR_SCFG_EN.e st)
    · obtain ⟨h, hrest⟩ := s.leaveFailed_reads st (v := 4) (by decide)
      exact ⟨.inr h, hrest⟩
    · obtain ⟨h, hrest⟩ := s.leaveFailed_reads st (v := 1) (by decide)
      exact ⟨.inl h, hrest⟩
  · show execStreamDrained st s = _
    unfold execStreamDrained
    rw [h4, hq, hw, hsh, hc, beq_self_eq_true, List.isEmpty_nil, List.isEmpty_nil, Bool.not_false, Bool.and_self, Bool.and_self, Bool.and_self, Bool.and_self, bif_true]
  · show execStreamSwap st false s = _
    unfold execStreamSwap
    rw [hm, bif_true, bif_false, hl, bif_true]
  · show execStreamSwap r true s = _
    unfold execStreamSwap
    rw [hm, bif_true, bif_true, hl, bif_true]

end Sys2Proof.Machine
end

section
/-!
PROOF. Requests to high-bandwidth memory that are held (15 R456, R474).
-/
namespace Sys2Proof.Machine

/-- The state after reset with a size word of 2 ^ 45 bytes and the remap entry of the rank of address 2 ^ 44 stopped. -/
noncomputable def wideMemory : State :=
  let s := State.reset.put64 Reg.MEM_SIZE_L_VAL.z Reg.MEM_SIZE_H_VAL.z (2 ^ 45)
  { s with ctl := { s.ctl with tvStopped := [2 ^ 26 + s.rankOf (2 ^ 44)] } }

/-- The number of requests that are held. -/
noncomputable def heldAfter (r : Res) : Nat :=
  match r with
  | .next t => t.msys.held.length
  | _ => 0

/-- Refutes O45: the statement bounds no memory size, and a request at address 2 ^ 44, below a size of 2 ^ 45, is one to on-die SRAM,
which nothing holds. -/
theorem not_memoryCommandsComplete : ¬ Obligations.MemoryCommandsComplete := by
  rintro ⟨-, h, -⟩
  obtain ⟨t, ht, hheld, -, -⟩ := h wideMemory false (2 ^ 44) 0 0 [] (by decide) (by decide)
  have hread : heldAfter (exec (.hbmAccess false (2 ^ 44) [] 0 0) wideMemory) = 0 := by decide
  rw [ht] at hread
  have hlen := (congrArg List.length hheld).symm.trans hread
  rw [List.length_append] at hlen
  exact absurd hlen (Nat.succ_ne_zero _)

end Sys2Proof.Machine
end

section
/-!
PROOF. A lock of the root PLL under a thermal ceiling (20 R599 to R601, R606).
-/
namespace Sys2Proof.Machine

/-- The state after reset with a lock under way, band 0 covering 6.0 to 7.0 GHz, and the thermal ceiling at 60 of the 64 units of the
committed clock. -/
noncomputable def warmLock : State :=
  let s := (State.reset.put Reg.CLK_STAT_FTHR.z 60).setWord Reg.CLK_BAND_VALID.off (BitVec.ofNat 32 (2 ^ 31 + 700 * 2 ^ 14 + 600 * 2 ^ 4))
  { s with clk := { s.clk with locking := true } }

/-- CLK_STAT.STATE after a command. -/
noncomputable def clockAfter (r : Res) : Nat :=
  match r with
  | .next t => t.get Reg.CLK_STAT_STATE.z
  | _ => 0

set_option maxRecDepth 4000 in
/-- Refutes O53: a lock at the committed clock above the thermal ceiling does not stay LOCKED; it is STEPPING toward the ceiling. -/
theorem not_clockCommandsComplete : ¬ Obligations.ClockCommandsComplete := by
  rintro ⟨-, -, -, -, -, h, -⟩
  obtain ⟨t, ht, hstate, -⟩ := h warmLock 640 0 (by decide) (by decide) (by decide) (by decide) (by decide) (by decide) (by decide)
  have hread : clockAfter (exec (.rootPllLock true) warmLock) = 3 := by decide
  rw [ht] at hread
  exact absurd (hstate.symm.trans hread) (by decide)

end Sys2Proof.Machine
end

section
/-!
PROOF of O49: the disk writer's commands, its journal, data writes, checkpoints and a drive's failure (16 R510 to R517).
-/
namespace Sys2Proof.Machine

/-! ### The status word and the disk writer's state -/

theorem dskStat_not_event : ¬ eventWord 0x3A03004 := not_eventWord (.inr (.inr (by decide)))

theorem State.freeSync_str (s : State) : s.freeSync.str = s.str := by
  unfold State.freeSync
  cases s.disk.set with
  | none => exact State.put_str ..
  | some d => exact State.put_str ..

theorem State.freeSync_mem (s : State) : s.freeSync.mem = s.mem := by
  unfold State.freeSync
  cases s.disk.set with
  | none => exact State.put_mem ..
  | some d => exact State.put_mem ..

/-- A change of the set's state: none, or a new one with its event. -/
theorem State.dskTo_cases (s : State) (v : Nat) :
    (s.get dskState = v ∧ s.dskTo v = s) ∨ s.dskTo v = (s.put dskState v).ev 486 := by
  unfold State.dskTo
  cases h : s.get dskState == v
  · rw [bif_false]
    exact .inr rfl
  · rw [bif_true]
    exact .inl ⟨beq_iff_eq.mp h, rfl⟩

theorem State.dskTo_str (s : State) (v : Nat) : (s.dskTo v).str = s.str := by
  obtain ⟨-, h⟩ | h := s.dskTo_cases v
  · rw [h]
  · rw [h, State.ev_str, State.put_str]

theorem State.dskTo_mem (s : State) (v : Nat) : (s.dskTo v).mem = s.mem := by
  obtain ⟨-, h⟩ | h := s.dskTo_cases v
  · rw [h]
  · rw [h, State.ev_mem, State.put_mem]

theorem State.get_dskTo (s : State) {v : Nat} (hv : v < 8) : (s.dskTo v).get dskState = v := by
  obtain ⟨hv', h⟩ | h := s.dskTo_cases v
  · rw [h, hv']
  · rw [h, State.get_ev _ 486 _ (by decide) dskStat_not_event, State.get_put_same _ _ _ (by decide : 29 + 3 ≤ 32)]
    exact Nat.mod_eq_of_lt hv

/-- A place of the disk writer's registers apart from its state, as a change of that state leaves it. -/
theorem State.get_dskTo_apart (s : State) (v : Nat) {l : Loc} (hl : dskState.apart l) (he : ¬ eventWord l.off) :
    (s.dskTo v).get l = s.get l := by
  obtain ⟨-, h⟩ | h := s.dskTo_cases v
  · rw [h]
  · rw [h, State.get_ev _ 486 _ (by decide) he, State.get_put_apart _ _ hl]

theorem State.setDisk_regs (s : State) (d : Disk) : (s.setDisk d).regs = s.regs := rfl
theorem State.setDisk_mem (s : State) (d : Disk) : (s.setDisk d).mem = s.mem := rfl
theorem State.disk_setDisk (s : State) (d : Disk) : (s.setDisk d).disk = d := rfl

/-! ### The end of a command, and its start -/

/-- What the end of a disk command shows. -/
theorem State.dskEnd_reads (s : State) {c : Nat} (hc : c < 16) :
    (s.dskEnd c).get Reg.DSK_STAT_CMDST.z = c ∧ (s.dskEnd c).on (evPend 487) = true ∧ (s.dskEnd c).disk.cmd = none ∧
      (s.dskEnd c).on Reg.DSK_STAT_BUSY.z = false := by
  unfold State.dskEnd
  dsimp only
  obtain ⟨u, hu⟩ : ∃ u, u = s.setDisk { s.disk with cmd := none } := ⟨_, rfl⟩
  have hcmd : u.disk.cmd = none := by rw [hu]; rfl
  have hbusy : (u.flag Reg.DSK_STAT_BUSY.z false).on Reg.DSK_STAT_BUSY.z = false :=
    State.on_flag_same _ _ _ (by decide) (by decide)
  rw [← hu]
  refine ⟨?_, State.ev_pends _ 487, ?_, ?_⟩
  · rw [State.get_ev _ 487 _ (by decide) dskStat_not_event, State.get_put_same _ _ _ (by decide : 24 + 4 ≤ 32)]
    exact Nat.mod_eq_of_lt hc
  · rw [State.disk, State.ev_str, State.put_str, State.flag_str]
    exact hcmd
  · rw [State.on_ev _ 487 _ (by decide) dskStat_not_event, State.on_put_apart _ _ (.inr ⟨by decide, .inr (by decide)⟩)]
    exact hbusy

theorem State.dskEnd_extents (s : State) (c : Nat) : (s.dskEnd c).disk.extents = s.disk.extents := by
  rw [State.dskEnd, State.disk, State.ev_str, State.put_str, State.flag_str]
  rfl

theorem State.dskEnd_state (s : State) (c : Nat) : (s.dskEnd c).get dskState = s.get dskState := by
  rw [State.dskEnd, State.get_ev _ 487 _ (by decide) dskStat_not_event,
    State.get_put_apart _ _ (.inr ⟨by decide, .inr (by decide)⟩), State.get_flag_apart _ _ (.inr ⟨by decide, .inr (by decide)⟩)]
  exact State.get_congr rfl _

/-- BUSY is set and the arguments of command `op` are latched. -/
noncomputable def State.dskStarted (s : State) (op : Nat) : State :=
  (s.flag Reg.DSK_STAT_BUSY.z true).setDisk { s.disk with cmd := some (op, (upto 5).map fun i => s.get (Reg.DSK_ARG_ARG.e i)) }

theorem State.dskStarted_reads (s : State) (op : Nat) :
    (s.dskStarted op).on Reg.DSK_STAT_BUSY.z = true ∧
      (s.dskStarted op).disk.cmd = some (op, (upto 5).map fun i => s.get (Reg.DSK_ARG_ARG.e i)) ∧ (s.dskStarted op).mem = s.mem :=
  ⟨(State.on_congr (State.setDisk_regs ..) _).trans (State.on_flag_same s _ _ (by decide) (by decide)),
    congrArg Disk.cmd (State.disk_setDisk ..), (State.setDisk_mem ..).trans (State.flag_mem ..)⟩

theorem State.get_flag_busy_arg (s : State) (i : Nat) :
    (s.flag Reg.DSK_STAT_BUSY.z true).get (Reg.DSK_ARG_ARG.e i) = s.get (Reg.DSK_ARG_ARG.e i) :=
  State.get_flag_apart _ _ (.inl (low_ne (a := 0x3A0300C) (by decide) _))

theorem State.dskCmd_permitted (s : State) {op : Nat} {l : List Nat} (hb : s.on Reg.DSK_STAT_BUSY.z = false)
    (hl : l.contains (s.get dskState) = true) :
    s.dskCmd op l = bif op == 1 then (s.dskStarted op).dskTo 1 else s.dskStarted op := by
  unfold State.dskCmd
  rw [hb, bif_false, hl, bif_true]
  simp only [State.get_flag_busy_arg, State.dskStarted, State.disk, State.flag_str]

/-- A command that the state permits becomes BUSY with its arguments latched. -/
theorem State.dskCmd_starts (s : State) {op : Nat} {l : List Nat} (hb : s.on Reg.DSK_STAT_BUSY.z = false)
    (hl : l.contains (s.get dskState) = true) :
    (s.dskCmd op l).on Reg.DSK_STAT_BUSY.z = true ∧
      (s.dskCmd op l).disk.cmd = some (op, (upto 5).map fun i => s.get (Reg.DSK_ARG_ARG.e i)) ∧ (s.dskCmd op l).mem = s.mem := by
  obtain ⟨hon, hcmd, hmem⟩ := s.dskStarted_reads op
  rw [s.dskCmd_permitted hb hl]
  cases op == 1
  · rw [bif_false]
    exact ⟨hon, hcmd, hmem⟩
  · rw [bif_true]
    refine ⟨?_, ?_, (State.dskTo_mem ..).trans hmem⟩
    · rw [State.on, State.get_dskTo_apart _ _ (.inr ⟨by decide, .inl (by decide)⟩) dskStat_not_event]
      exact hon
    · rw [State.disk, State.dskTo_str]
      exact hcmd

/-- A command while one is under way is a bad access. -/
theorem State.dskCmd_busy (s : State) (op : Nat) (l : List Nat) (hb : s.on Reg.DSK_STAT_BUSY.z = true) :
    s.dskCmd op l = s.bad .streams := by rw [State.dskCmd, hb, bif_true]

/-! ### Extents -/

theorem State.extent_journal (s : State) (kind k : Nat) (e : Extent) : (s.journal kind k e).disk.extent k = e := by
  rw [State.journal, State.disk, State.freeSync_str]
  exact tget_tset_same ..

theorem State.keep_extent (s : State) (k : Nat) : ((s.diskKeep k).disk.extent k).state = 3 := by
  unfold State.diskKeep
  extract_lets owner u
  clear_value u
  rw [Disk.extent, State.dskEnd_extents, ← Disk.extent, State.extent_journal]

/-! ### Words that are not read again, completed writes -/

/-- Without a bad word, reading ahead changes nothing. -/
theorem checkHead_nil (st n : Nat) (s : State) : State.checkHead [] st n s = s := by
  cases n with
  | zero => rfl
  | succ n =>
    rw [State.checkHead]
    cases s.nextOut st with
    | none => rfl
    | some q =>
      have hnone : s.blot st q (badIn [] st q) = s := rfl
      dsimp only
      rw [hnone]
      cases q.taken == 0
      · cases lt stageBytes q.bytes.length <;> rfl
      · rfl

theorem unwritten_untouched {q : QRec} (l : List QRec) (hq : q.taken = 0) (hb : q.bytes ≠ []) : unwritten (q :: l) = q :: l := by
  have hne : (q.taken == q.bytes.length) = false := by
    rw [hq]
    exact beq_false_of_ne fun h => hb (List.length_eq_zero_iff.mp h.symm)
  exact List.dropWhile_cons_of_neg (by rw [hne, Bool.and_false]; exact Bool.false_ne_true)

/-- The only write in flight completes: it takes effect at once. -/
theorem settleAll_single (set : DiskSet) (s : State) (i : Nat) (w : DiskWrite) (h : s.disk.writes = [(i, w, true)]) :
    State.settleAll set 1 s = (s.setDisk { s.disk with writes := [] }).settled set w := by
  have hnext : settleNext [] [(i, w, true)] = some (i, w, true) := rfl
  have hgone : [(i, w, true)].filter (fun v => v.1 != i) = [] := by
    rw [List.filter_cons_of_neg (by rw [bne_self_eq_false]; exact Bool.false_ne_true), List.filter_nil]
  rw [State.settleAll, h, hnext]
  dsimp only
  rw [hgone, State.settleAll]

/-- A checkpoint of the one stream that has an extent whose completed data have advanced. -/
theorem checkpoint_enters (s : State) (st : Nat) (x : Stream) (p : DiskPos) (h3 : s.get dskState = 3) (hs : s.str.streams = [(st, x)])
    (hx : x.disk = some p) (hp : p.donePos ≠ p.logged) :
    ∃ t, exec .diskCheckpoint s = .next t ∧ t.disk.period = true ∧ (t.stream st).disk = some { p with logged := p.donePos } ∧
      t.disk.entries = s.disk.entries ++
        [⟨2, p.ext, { s.disk.extent p.ext with last := p.doneSeq, valid := p.donePos, lastTag := s.now }⟩] ∧ t.mem = s.mem := by
  have hstream : s.stream st = x := by rw [State.stream, hs, tget, if_pos rfl]
  obtain ⟨y, hy, hyd⟩ : ∃ y : Stream, y = { s.stream st with disk := some { p with logged := p.donePos } } ∧
    y.disk = some { p with logged := p.donePos } := ⟨_, rfl, rfl⟩
  obtain ⟨e, he⟩ : ∃ e : Extent, e = { s.disk.extent p.ext with last := p.doneSeq, valid := p.donePos, lastTag := s.now } := ⟨_, rfl⟩
  obtain ⟨u, hu⟩ : ∃ u, u = (s.setStream st y).journal 2 p.ext e := ⟨_, rfl⟩
  have hrun : exec .diskCheckpoint s = .next (u.setDisk { u.disk with period := !u.disk.entries.isEmpty }) := by
    show execDiskCheckpoint s = _
    rw [execDiskCheckpoint, h3, beq_self_eq_true, Bool.true_or, bif_true, hs, List.foldl_cons, List.foldl_nil]
    dsimp only
    rw [hstream, hx]
    dsimp only
    rw [beq_false_of_ne hp, bif_false, hu, hy, he, hstream]
    rfl
  have hentries : u.disk.entries = s.disk.entries ++ [⟨2, p.ext, e⟩] := by
    rw [hu, State.journal, State.disk, State.freeSync_str]
    rfl
  refine ⟨_, hrun, ?_, ?_, ?_, ?_⟩
  · show (!u.disk.entries.isEmpty) = true
    rw [hentries]
    cases s.disk.entries <;> rfl
  · show (u.stream st).disk = _
    have hus : u.str.streams = (s.setStream st y).str.streams := by rw [hu, State.journal, State.freeSync_str]; rfl
    rw [State.stream_congr hus, State.stream_setStream, hyd]
  · show u.disk.entries = _
    rw [hentries, he]
  · show u.mem = s.mem
    rw [hu, State.journal, State.freeSync_mem]
    rfl

/-- A drive fails: its state, the set's and EV488. -/
theorem driveFail_shows (s : State) (set : DiskSet) (d : Nat) (hset : s.disk.set = some set) (h5 : s.get dskState ≠ 5) :
    ∃ t, exec (.diskDriveFail d) s = .next t ∧
      t.get (Reg.DSK_DRV_STATE.e d) = 3 ∧ t.get dskState = 5 ∧ t.on (evPend 488) = true := by
  have hne : (Reg.DSK_DRV_STATE.e d).off ≠ dskState.off := low_ne (a := 0x3A03040) (by decide) _
  have hput : (s.put (Reg.DSK_DRV_STATE.e d) 3).get dskState = s.get dskState := State.get_put_apart _ _ (.inl hne.symm)
  have hdrv : ¬ eventWord (Reg.DSK_DRV_STATE.e d).off := array_not_event (by decide) _
  refine ⟨((s.put (Reg.DSK_DRV_STATE.e d) 3).dskTo 5).ev 488, ?_, ?_, ?_, State.ev_pends _ 488⟩
  · show execDiskDriveFail d s = _
    rw [execDiskDriveFail, hset]
    dsimp only
    rw [hput, beq_false_of_ne h5, bif_false]
  · rw [State.get_ev _ 488 _ (by decide) hdrv, State.get_dskTo_apart _ _ (.inl hne) hdrv,
      State.get_put_same _ _ _ (by decide : 29 + 3 ≤ 32)]
    rfl
  · rw [State.get_ev _ 488 _ (by decide) dskStat_not_event, State.get_dskTo _ (by decide)]

/-- A stream whose first record is due on the disk, as a data write finds it. -/
theorem dataWrite_due (s : State) (set : DiskSet) (st : Nat) (q : QRec) (l : List QRec) (hset : s.disk.set = some set)
    (hrun : s.streamsRun = true) (hsh : s.pair.shadow = false) (h3 : s.get dskState = 3) (hst : s.get (strState st) ≠ 3)
    (hq : (s.stream st).queue = q :: l) (hd : q.dest = 2) (ha : q.acked = true) (ht : q.taken = 0) (hb : q.bytes ≠ []) :
    exec (.diskDataWrite st true []) s = .next (match (s.stream st).disk with
      | none => s.nextExtent set st
      | some p =>
        let f := fitting (fun q => q.dest == 2 && q.acked && (lt 0 q.taken || (badIn [] st q).isEmpty))
          (bif p.cut then 0 else set.extBytes - p.pos) (q :: l)
        let total := sumOf (f.1.map (fun q => q.bytes.length - q.taken))
        let edge := (p.pos / set.su + 1) * set.su - p.pos
        bif le edge total then s.dataWrite set st edge false
        else bif lt 0 total && (true || f.2) then s.dataWrite set st total true
        else bif f.2 && p.goodPos == p.donePos then s.seal st
        else s) := by
  have hmine : (q.dest == 2 && q.acked && (lt 0 q.taken || (badIn [] st q).isEmpty)) = true := by
    rw [hd, ha, ht]
    rfl
  show execDiskDataWrite st true [] s = _
  rw [execDiskDataWrite, hset]
  dsimp only
  rw [checkHead_nil, hrun, hsh, h3, bne_iff_ne.mpr hst, Bool.not_false, Bool.and_self, beq_self_eq_true, Bool.and_self, Bool.and_self,
    bif_true, hq, unwritten_untouched l ht hb, List.take_succ_cons, List.take_zero, List.any_cons, List.any_nil, hmine, Bool.or_false,
    Bool.not_true, bif_false] <;> rfl

/-- Settles O49: each clause is the rule of its command. -/
theorem diskCommandsComplete : Obligations.DiskCommandsComplete := by
  refine ⟨fun s hb h => ⟨_, rfl, s.dskCmd_starts hb ?_⟩, fun s hb h => ⟨_, rfl, s.dskCmd_starts hb ?_⟩,
    fun s hb h => ⟨_, rfl, s.dskCmd_starts hb ?_⟩, fun s hb h => ⟨_, rfl, s.dskCmd_starts hb ?_⟩,
    fun s hb h => ⟨_, rfl, s.dskCmd_starts hb ?_⟩, fun s hb h => ⟨_, rfl, s.dskCmd_starts hb ?_⟩,
    fun s hb => ?_, fun s hb h => ?_, fun s op a f hc h1 he => ?_, fun s a f he => ?_, fun s set a f he hset hk hc => ?_,
    fun s set hset h3 hw hu hp hn => ?_, fun s set st hset hq => ?_,
    fun s set st q p hset hrun hsh h3 hst hq hd ha ht hb hp hcut hfit hedge => ?_,
    fun s set st q l hset hrun hsh h3 hst hq hd ha ht hb hp => ?_, fun s set i w b hset h5 hw => ?_,
    checkpoint_enters, fun s set d _ hset h5 => driveFail_shows s set d hset h5⟩
  case refine_1 => rw [h]; rfl
  case refine_2 => rw [h]; rfl
  case refine_3 => rw [h]; rfl
  case refine_4 => rw [h]; rfl
  case refine_5 => rw [h]; rfl
  case refine_6 => rw [h]; rfl
  case refine_7 =>
    simp only [List.forall_mem_cons, List.not_mem_nil, false_implies, implies_true, and_true]
    exact ⟨congrArg Host.Outcome.next (s.dskCmd_busy 1 _ hb), congrArg Host.Outcome.next (s.dskCmd_busy 2 _ hb), congrArg Host.Outcome.next (s.dskCmd_busy 3 _ hb),
      congrArg Host.Outcome.next (s.dskCmd_busy 4 _ hb), congrArg Host.Outcome.next (s.dskCmd_busy 5 _ hb), congrArg Host.Outcome.next (s.dskCmd_busy 6 _ hb)⟩
  case refine_8 =>
    have hcmd : s.dskCmd 2 [0] = s.dskEnd 5 := by
      rw [State.dskCmd, hb, bif_false, h, show [0].contains 3 = false from rfl, bif_false]
    obtain ⟨hst, hev, -, -⟩ := s.dskEnd_reads (c := 5) (by decide)
    exact ⟨s.dskEnd 5, congrArg Host.Outcome.next hcmd, hst, hev, (s.dskEnd_state 5).trans h⟩
  case refine_9 =>
    have hrun : exec (.diskCommandDone f) s = .next (s.dskEnd 4) := by
      show execDiskCommandDone f s = _
      rw [execDiskCommandDone, hc]
      dsimp only
      rw [he, bif_true, beq_false_of_ne h1, bif_false]
    exact ⟨_, hrun, s.dskEnd_reads (by decide)⟩
  case refine_10 =>
    refine ⟨fun hc => ?_, fun hc => ?_, fun hc => ?_, fun set hset hc => ?_⟩
    all_goals
      show execDiskCommandDone f s = _
      rw [execDiskCommandDone, hc]
      dsimp only
      rw [he, bif_false]
    · rw [beq_self_eq_true, bif_true]
    · rw [show ((2 : Nat) == 1) = false from rfl, bif_false, beq_self_eq_true, bif_true]
    · rw [show ((3 : Nat) == 1) = false from rfl, bif_false, show ((3 : Nat) == 2) = false from rfl, bif_false, beq_self_eq_true, bif_true]
    · rw [show ((6 : Nat) == 1) = false from rfl, bif_false, show ((6 : Nat) == 2) = false from rfl, bif_false,
        show ((6 : Nat) == 3) = false from rfl, bif_false, hset]
      dsimp only
      rw [beq_self_eq_true, bif_true]
  case refine_11 =>
    have hrun : exec (.diskCommandDone f) s = .next (s.diskKeep (a.getD 0 0)) := by
      have hle : le set.count (a.getD 0 0) = false := decide_eq_false (Nat.not_le.2 hk)
      show execDiskCommandDone f s = _
      rw [execDiskCommandDone, hc]
      dsimp only
      rw [he, bif_false, show ((4 : Nat) == 1) = false from rfl, bif_false, show ((4 : Nat) == 2) = false from rfl, bif_false,
        show ((4 : Nat) == 3) = false from rfl, bif_false, hset]
      dsimp only
      rw [show ((4 : Nat) == 6) = false from rfl, bif_false, hle, bif_false, beq_self_eq_true, bif_true]
    refine ⟨_, hrun, s.keep_extent _, ?_⟩
    obtain ⟨hst, hev, hnone, -⟩ := State.dskEnd_reads _ (c := 0) (by decide)
    exact ⟨hst, hev, hnone⟩
  case refine_12 =>
    show execJournalWrite s = _
    rw [execJournalWrite, hset]
    dsimp only
    rw [h3, hw, hu, hp, List.isEmpty_eq_false_iff.mpr hn, List.any_nil, List.any_nil, beq_self_eq_true, Bool.true_or, Bool.not_false,
      Bool.and_self, Bool.and_self, Bool.or_true, Bool.and_self, bif_true]
  case refine_13 =>
    show execDiskDataWrite st true [] s = _
    rw [execDiskDataWrite, hset]
    dsimp only
    rw [checkHead_nil, hq]
    cases s.streamsRun && !s.pair.shadow && s.get dskState == 3 && s.get (strState st) != 3
    · rw [bif_false]
    · rw [bif_true, show unwritten [] = [] from rfl, List.take_nil, List.any_nil, Bool.not_false, bif_true]
  case refine_14 =>
    have hmine : (q.dest == 2 && q.acked && (lt 0 q.taken || (badIn [] st q).isEmpty)) = true := by
      rw [hd, ha, ht]
      rfl
    have hlen : 0 < q.bytes.length := List.length_pos_iff.mpr hb
    have hf : fitting (fun q => q.dest == 2 && q.acked && (lt 0 q.taken || (badIn [] st q).isEmpty)) (set.extBytes - p.pos) [q]
        = ([q], false) := by
      rw [fitting, hmine, Bool.not_true, if_neg Bool.false_ne_true, if_pos ((Nat.sub_le ..).trans (Nat.le_sub_of_add_le' hfit)), fitting]
    have htotal : sumOf (([q], false).1.map (fun q : QRec => q.bytes.length - q.taken)) = q.bytes.length := by
      show 0 + (q.bytes.length - q.taken) = _
      rw [ht, Nat.sub_zero, Nat.zero_add]
    have hedge' : le ((p.pos / set.su + 1) * set.su - p.pos) q.bytes.length = false :=
      decide_eq_false (Nat.not_le.2 (Nat.lt_sub_of_add_lt (by rw [Nat.add_comm]; exact hedge)))
    rw [dataWrite_due s set st q [] hset hrun hsh h3 hst hq hd ha ht hb, hp]
    dsimp only
    rw [hcut, bif_false, hf, htotal, hedge', bif_false, show lt 0 q.bytes.length = true from decide_eq_true hlen, Bool.true_or,
      Bool.and_self, bif_true]
  case refine_15 =>
    rw [dataWrite_due s set st q l hset hrun hsh h3 hst hq hd ha ht hb, hp]
  case refine_16 =>
    show execDiskWriteComplete i s = _
    rw [execDiskWriteComplete, hset]
    dsimp only
    rw [beq_false_of_ne h5, bif_false, hw, List.map_cons, List.map_nil, if_pos rfl]
    exact congrArg _ (settleAll_single set _ i w rfl)

end Sys2Proof.Machine
end

section
/-!
PROOF of O52: checks, commits, aborts and the commit instant (19 R581 to R586).
-/
namespace Sys2Proof.Machine

/-! ### What the end of a freeze and the loads shown leave alone -/

/-- Places outside the words of the admission engine. -/
def offAdm (l : Loc) : Prop := l.off < 0x3E00020 ∨ 0x3E00300 ≤ l.off

theorem offAdm.apart {l m : Loc} (h : offAdm l) (hm : 0x3E00020 ≤ m.off ∧ m.off < 0x3E00300) : l.apart m :=
  .inl (h.elim (fun h => Nat.ne_of_gt (h.trans_le hm.1)) fun h => Nat.ne_of_lt (hm.2.trans_le h))

theorem Blk.frozen_offAdm (b : Blk) : offAdm b.frozen ∧ ¬ eventWord b.frozen.off := by
  refine ⟨?_, (b.hdr_word (l := b.frozen) (.inl rfl)).2⟩
  have hle : b.hdr ≤ 0x3E00000 := b.hdr_place.elim (fun h => h.le.trans (by decide)) fun h => h.2.2
  exact .inl ((Nat.add_le_add_right hle 4).trans_lt (by decide))

theorem swpend_offAdm {b : Blk} {l : Loc} (h : swpend b = some l) : offAdm l ∧ ¬ eventWord l.off :=
  ⟨.inl ((swpend_place h).2.2.trans (by decide)), (swpend_word h).2⟩

namespace Frame

theorem pend_offAdm (v : Bool) (s : State) (b : Blk) : Frame offAdm s (s.pend v b) := by
  have hf : Frame offAdm s (State.freeze v s b) := .flag s v b.frozen_offAdm.1 b.frozen_offAdm.2
  unfold State.pend
  generalize hl : swpend b = o
  cases o with
  | none => exact hf
  | some l => exact hf.trans (.flag _ v (swpend_offAdm hl).1 (swpend_offAdm hl).2)

theorem detLoad_offAdm (s : State) (c : BankView) : Frame offAdm s (s.detLoad c) :=
  .put s _ (.inl (by decide)) (not_eventWord (.inr (.inr (by decide))))

theorem ringSync_offAdm (s : State) : Frame offAdm s s.ringSync := by
  have hg : ∀ g ∈ upto 8, offAdm (Reg.FCH_CTSRAM_BYTES.e g) ∧ ¬ eventWord (Reg.FCH_CTSRAM_BYTES.e g).off := by
    intro g hg
    have hlt : 0x1800040 + g * 4 < 0x1800040 + 8 * 4 :=
      Nat.add_lt_add_left (Nat.mul_lt_mul_of_pos_right (List.mem_range.mp hg) (by decide)) _
    exact ⟨.inl (hlt.trans (by decide)), array_not_event (a := 0x1800040) (by decide) _⟩
  unfold State.ringSync
  extract_lets coming view f c f2 c2 u
  have hu : Frame offAdm s u := .put64 s _ (.inl (by decide)) (.inl (by decide)) (not_eventWord (.inr (.inr (by decide))))
    (not_eventWord (.inr (.inr (by decide))))
  clear_value u
  exact hu.trans (.foldl_mem _ (fun a g h => .put a _ (hg g h).1 (hg g h).2) u)

end Frame

theorem State.pend_adm (v : Bool) (s : State) (b : Blk) : (s.pend v b).adm = s.adm := by
  unfold State.pend
  cases swpend b with
  | none => exact State.flag_adm ..
  | some l => exact (State.flag_adm ..).trans (State.flag_adm ..)

theorem State.pend_mem (v : Bool) (s : State) (b : Blk) : (s.pend v b).mem = s.mem := by
  unfold State.pend
  cases swpend b with
  | none => exact State.flag_mem ..
  | some l => exact (State.flag_mem ..).trans (State.flag_mem ..)

theorem State.ringSync_adm (s : State) : s.ringSync.adm = s.adm := by
  unfold State.ringSync
  extract_lets coming view f c f2 c2 u
  have hu : u.adm = s.adm := State.put64_adm ..
  clear_value u
  exact (foldl_keeps _ (fun s : State => s.adm) (fun _ _ => State.put_adm ..) _ u).trans hu

theorem State.ringSync_mem (s : State) : s.ringSync.mem = s.mem := by
  unfold State.ringSync
  extract_lets coming view f c f2 c2 u
  have hu : u.mem = s.mem := State.put64_mem ..
  clear_value u
  exact (foldl_keeps _ (fun s : State => s.mem) (fun _ _ => State.put_mem ..) _ u).trans hu

/-- The freezes of the named blocks end. -/
theorem State.unpend_all (s : State) (l : List Blk) :
    Frame offAdm s (l.foldl (State.pend false) s) ∧ (l.foldl (State.pend false) s).adm = s.adm ∧
      (l.foldl (State.pend false) s).mem = s.mem :=
  ⟨.foldl l (fun a b => .pend_offAdm false a b) s, foldl_keeps _ (fun s : State => s.adm) (fun a b => a.pend_adm false b) l s,
    foldl_keeps _ (fun s : State => s.mem) (fun a b => a.pend_mem false b) l s⟩

/-! ### What a check records, and its end -/

/-- What the record of the failures `l` shows. -/
theorem State.admRecord_reads (s : State) (l : List Fail) :
    (s.admRecord l).get Reg.ADM_STAT_NFAIL.z = min l.length 65535 ∧
      (s.admRecord l).get Reg.ADM_RES_CODE.z = (l.headD ⟨0, 0, 0, 0, 0⟩).code % 256 ∧
      (s.admRecord l).get Reg.ADM_TIME_US.z = s.get Reg.ADM_TIME_US.z ∧ (s.admRecord l).adm = s.adm ∧ (s.admRecord l).mem = s.mem := by
  have href : ∀ (f : Fld) (n : Nat) (m : Loc), 0x3E00200 ≤ f.off → m.off < 0x3E00200 → (f.e n).apart m := fun f n m hf hm => .inl
    (Nat.ne_of_lt (hm.trans_le (hf.trans (Nat.le_add_right ..))))
  unfold State.admRecord
  extract_lets none_ u v f w
  have hu : u.get Reg.ADM_STAT_NFAIL.z = min l.length 65535 :=
    (State.get_put_same _ _ _ (by decide : 0 + 16 ≤ 32)).trans (Nat.mod_eq_of_lt ((Nat.min_le_right ..).trans_lt (by decide)))
  have hut : u.get Reg.ADM_TIME_US.z = s.get Reg.ADM_TIME_US.z := State.get_put_apart _ _ (.inl (by decide))
  have hua : u.adm = s.adm := State.put_adm ..
  have hum : u.mem = s.mem := State.put_mem ..
  have hkeep : ∀ m : Loc, m.off < 0x3E00200 → v.get m = u.get m := fun m hm =>
    foldl_keeps _ (fun s : State => s.get m) (fun a n => by
      rw [State.get_put_apart _ _ (href _ n m (by decide) hm), State.get_put_apart _ _ (href _ n m (by decide) hm),
        State.get_put_apart _ _ (href _ n m (by decide) hm)]) _ u
  have hva : v.adm = u.adm := foldl_keeps _ (fun s : State => s.adm) (fun a n => by simp only [State.put_adm]) _ u
  have hvm : v.mem = u.mem := foldl_keeps _ (fun s : State => s.mem) (fun a n => by simp only [State.put_mem]) _ u
  have hcode : w.get Reg.ADM_RES_CODE.z = f.code % 256 := by
    show ((_ : State).put Reg.ADM_RES_ITEM.z _).get _ = _
    rw [State.get_put_apart _ _ (.inr ⟨by decide, .inr (by decide)⟩), State.get_put_apart _ _ (.inr ⟨by decide, .inr (by decide)⟩),
      State.get_put_same _ _ _ (by decide : 24 + 8 ≤ 32)]
    rfl
  have hw : ∀ m : Loc, m.off ≠ 0x3E00034 → w.get m = v.get m := fun m hm => by
    show (((v.put Reg.ADM_RES_CODE.z _).put Reg.ADM_RES_BLOCK.z _).put Reg.ADM_RES_ITEM.z _).get _ = _
    rw [State.get_put_apart _ _ (.inl hm), State.get_put_apart _ _ (.inl hm), State.get_put_apart _ _ (.inl hm)]
  have hwa : w.adm = v.adm := by
    show (((v.put Reg.ADM_RES_CODE.z _).put Reg.ADM_RES_BLOCK.z _).put Reg.ADM_RES_ITEM.z _).adm = _
    rw [State.put_adm, State.put_adm, State.put_adm]
  have hwm : w.mem = v.mem := by
    show (((v.put Reg.ADM_RES_CODE.z _).put Reg.ADM_RES_BLOCK.z _).put Reg.ADM_RES_ITEM.z _).mem = _
    rw [State.put_mem, State.put_mem, State.put_mem]
  clear_value w v u
  refine ⟨?_, ?_, ?_, ?_, ?_⟩
  · rw [State.get_put_apart _ _ (.inl (by decide)), State.get_put_apart _ _ (.inl (by decide)), hw _ (by decide), hkeep _ (by decide), hu]
  · rw [State.get_put_apart _ _ (.inl (by decide)), State.get_put_apart _ _ (.inl (by decide)), hcode]
  · rw [State.get_put_apart _ _ (.inl (by decide)), State.get_put_apart _ _ (.inl (by decide)), hw _ (by decide), hkeep _ (by decide), hut]
  · rw [State.put_adm, State.put_adm, hwa, hva, hua]
  · rw [State.put_mem, State.put_mem, hwm, hvm, hum]

/-- The admission engine after a request has ended. -/
noncomputable def Admission.ended (a : Admission) : Admission := { a with request := none, named := [], partnerWait := false }

/-- A request ends, and none is held behind it. -/
theorem State.admEnd_reads (s : State) {last : Nat} (hl : last < 8) (hh : s.adm.held = none) :
    (s.admEnd last).adm = s.adm.ended ∧ (s.admEnd last).get Reg.ADM_STAT_LAST.z = last ∧ (s.admEnd last).get Reg.ADM_STAT_STATE.z = 0 ∧
      (s.admEnd last).on (evPend 508) = true ∧ (s.admEnd last).mem = s.mem ∧
      (s.admEnd last).get Reg.ADM_STAT_NFAIL.z = s.get Reg.ADM_STAT_NFAIL.z ∧
      (s.admEnd last).get Reg.ADM_RES_CODE.z = s.get Reg.ADM_RES_CODE.z ∧
      (s.admEnd last).get Reg.ADM_TIME_US.z = s.get Reg.ADM_TIME_US.z := by
  obtain ⟨hf, ha, hm⟩ := s.unpend_all s.adm.named
  obtain ⟨u, hu⟩ : ∃ u, u = s.adm.named.foldl (State.pend false) s := ⟨_, rfl⟩
  rw [← hu] at hf ha hm
  obtain ⟨v, hv⟩ : ∃ v : State, v = { u with adm := u.adm.ended, pair := { u.pair with creq := none } } := ⟨_, rfl⟩
  have hrun : s.admEnd last = ((v.put Reg.ADM_STAT_LAST.z last).ev 508).put Reg.ADM_STAT_STATE.z 0 := by
    have hheld : (((v.put Reg.ADM_STAT_LAST.z last).ev 508).adm).held = none := by
      rw [State.ev_adm, State.put_adm, hv]
      exact (congrArg Admission.held ha).trans hh
    have hnext : (((v.put Reg.ADM_STAT_LAST.z last).ev 508).admNext) = ((v.put Reg.ADM_STAT_LAST.z last).ev 508).put Reg.ADM_STAT_STATE.z 0 := by
      rw [State.admNext, hheld]
    rw [← hnext, hv, hu]
    rfl
  have hvf : Frame offAdm s v := by
    rw [hv]
    exact hf.before rfl
  have hva : v.adm = s.adm.ended := by
    rw [hv]
    exact congrArg Admission.ended ha
  have hvm : v.mem = s.mem := by
    rw [hv]
    exact hm
  clear hv
  have hkeep : ∀ m : Loc, 0x3E00020 ≤ m.off ∧ m.off < 0x3E00300 → ¬ eventWord m.off → v.get m = s.get m :=
    fun m hm he => hvf.get m he fun _ hl => hl.apart hm
  have hev : ∀ m : Loc, 0x3E00020 ≤ m.off → ¬ eventWord m.off := fun m hm => not_eventWord (.inr (.inr (le_trans (by decide) hm)))
  rw [hrun]
  refine ⟨?_, ?_, ?_, ?_, ?_, ?_, ?_, ?_⟩
  · rw [State.put_adm, State.ev_adm, State.put_adm, hva]
  · rw [State.get_put_apart _ _ (.inr ⟨by decide, .inl (by decide)⟩), State.get_ev _ 508 _ (by decide) (hev _ (by decide)),
      State.get_put_same _ _ _ (by decide : 24 + 3 ≤ 32)]
    exact Nat.mod_eq_of_lt hl
  · exact (State.get_put_same _ _ _ (by decide : 29 + 3 ≤ 32)).trans rfl
  · exact (Frame.put (W := fun _ => True) _ _ trivial (hev _ (by decide))).pended (by decide : 508 < 512)
  · rw [State.put_mem, State.ev_mem, State.put_mem, hvm]
  · rw [State.get_put_apart _ _ (.inr ⟨by decide, .inl (by decide)⟩), State.get_ev _ 508 _ (by decide) (hev _ (by decide)),
      State.get_put_apart _ _ (.inr ⟨by decide, .inl (by decide)⟩), hkeep _ (by decide) (hev _ (by decide))]
  · rw [State.get_put_apart _ _ (.inl (by decide)), State.get_ev _ 508 _ (by decide) (hev _ (by decide)),
      State.get_put_apart _ _ (.inl (by decide)), hkeep _ (by decide) (hev _ (by decide))]
  · rw [State.get_put_apart _ _ (.inl (by decide)), State.get_ev _ 508 _ (by decide) (hev _ (by decide)),
      State.get_put_apart _ _ (.inl (by decide)), hkeep _ (by decide) (hev _ (by decide))]

/-! ### Requests that are held, aborted and checked -/

/-- A request behind one that has not ended is held, in the place of one held before. -/
theorem State.admRequest_held (s : State) (r : AdmRequest) (h0 : s.get Reg.ADM_STAT_STATE.z ≠ 0) :
    (s.admRequest r).adm.held = some r ∧ (s.admRequest r).on Reg.ADM_STAT_HELD.z = true ∧
      (s.admRequest r).adm.request = s.adm.request ∧ (s.adm.held ≠ none → (s.admRequest r).on (evPend 511) = true) := by
  have hev : ∀ u : State, ¬ eventWord Reg.ADM_STAT_HELD.z.off := fun _ => not_eventWord (.inr (.inr (by decide)))
  have hshow : ∀ u : State, u.adm.request = s.adm.request →
      (({ u with adm := { u.adm with held := some r } } : State).flag Reg.ADM_STAT_HELD.z true).adm.held = some r ∧
      (({ u with adm := { u.adm with held := some r } } : State).flag Reg.ADM_STAT_HELD.z true).on Reg.ADM_STAT_HELD.z = true ∧
      (({ u with adm := { u.adm with held := some r } } : State).flag Reg.ADM_STAT_HELD.z true).adm.request = s.adm.request := by
    intro u hr
    refine ⟨?_, State.on_flag_same _ _ _ (by decide) (by decide), ?_⟩
    · rw [State.flag_adm]
    · rw [State.flag_adm]
      exact hr
  unfold State.admRequest
  rw [beq_false_of_ne h0, bif_false]
  cases hh : s.adm.held with
  | none =>
    rw [Option.isSome_none, bif_false]
    obtain ⟨h1, h2, h3⟩ := hshow s rfl
    exact ⟨h1, h2, h3, fun h => absurd rfl h⟩
  | some x =>
    rw [Option.isSome_some, bif_true]
    obtain ⟨h1, h2, h3⟩ := hshow (s.ev 511) (congrArg Admission.request (State.ev_adm ..))
    refine ⟨h1, h2, h3, fun _ => ?_⟩
    have hframe : ∀ u : State, Frame (fun _ => True) u
        (({ u with adm := { u.adm with held := some r } } : State).flag Reg.ADM_STAT_HELD.z true) :=
      fun u => .after (.flag _ true trivial (hev s)) rfl
    exact (hframe (s.ev 511)).pended (by decide : 511 < 512)

/-- A command outside a SYNCED pair. -/
theorem State.admCommand_local (s : State) (r : AdmRequest) (h : dzState s ≠ 3) : s.admCommand r = s.admRequest r := by
  rw [State.admCommand, beq_false_of_ne h, Bool.false_and, bif_false]

/-- A held request is discarded. -/
noncomputable def State.admDiscard (s : State) : State := ({ s with adm := { s.adm with held := none } }.flag Reg.ADM_STAT_HELD.z false).ev 511

theorem State.admDiscard_reads (s : State) :
    s.admDiscard.adm = { s.adm with held := none } ∧ s.admDiscard.on Reg.ADM_STAT_HELD.z = false ∧ s.admDiscard.on (evPend 511) = true ∧
      s.admDiscard.mem = s.mem := by
  refine ⟨?_, ?_, State.ev_pends _ 511, ?_⟩
  · rw [State.admDiscard, State.ev_adm, State.flag_adm]
  · exact (State.on_ev _ 511 _ (by decide) (not_eventWord (.inr (.inr (by decide))))).trans
      (State.on_flag_same _ _ _ (by decide) (by decide))
  · rw [State.admDiscard, State.ev_mem, State.flag_mem]

/-- The swap indices of the tuners are forgotten. -/
noncomputable def State.tunForget (s : State) : State :=
  (upto 256).foldl (fun s t => bif (s.tuner t).iS.isSome then s.setTuner t { s.tuner t with iS := none } else s) s

theorem State.tunForget_keeps (s : State) : s.tunForget.regs = s.regs ∧ s.tunForget.adm = s.adm ∧ s.tunForget.mem = s.mem := by
  have hstep : ∀ (a : State) (c : Bool) (t : Nat) (x : Tuner), (bif c then a.setTuner t x else a).regs = a.regs ∧
      (bif c then a.setTuner t x else a).adm = a.adm ∧ (bif c then a.setTuner t x else a).mem = a.mem := by
    intro a c t x
    cases c
    · exact ⟨rfl, rfl, rfl⟩
    · exact ⟨rfl, rfl, rfl⟩
  exact ⟨foldl_keeps _ (fun s : State => s.regs) (fun a t => (hstep a _ t _).1) _ s,
    foldl_keeps _ (fun s : State => s.adm) (fun a t => (hstep a _ t _).2.1) _ s,
    foldl_keeps _ (fun s : State => s.mem) (fun a t => (hstep a _ t _).2.2) _ s⟩

/-- The swaps of the commit that is withdrawn, and its clock, are forgotten. -/
noncomputable def State.admForget (s : State) : State := { s with adm := { s.adm with named := [], xtiles := 0, clock := none } }

theorem execAdmAbort_waiting (s : State) (h2 : s.get Reg.ADM_STAT_STATE.z = 2) :
    execAdmAbort s = .next ((((s.admDiscard.adm.named.foldl (State.pend false) s.admDiscard).tunForget.admForget.put Reg.ADM_STAT_LAST.z 4).detLoad
      ⟨(s.admDiscard.adm.named.foldl (State.pend false) s.admDiscard).tunForget.admForget.word, 0⟩).admNext.ringSync) := by
  rw [execAdmAbort, h2, beq_self_eq_true, Bool.not_true, Bool.and_false, bif_false, bif_true]
  dsimp only
  rw [← State.admDiscard, ← State.tunForget, ← State.admForget]

/-- An accepted commit is withdrawn. -/
theorem State.admAbort_withdraws (s : State) (h2 : s.get Reg.ADM_STAT_STATE.z = 2) :
    ∃ t, exec .admAbort s = .next t ∧ t.get Reg.ADM_STAT_LAST.z = 4 ∧ t.get Reg.ADM_STAT_STATE.z = 0 ∧ t.adm.named = [] ∧
      t.on (evPend 511) = true ∧ t.mem = s.mem := by
  have hev : ∀ m : Loc, 0x3E00020 ≤ m.off → ¬ eventWord m.off := fun m hm => not_eventWord (.inr (.inr (le_trans (by decide) hm)))
  obtain ⟨ha, -, hp, hm⟩ := s.admDiscard_reads
  obtain ⟨hf, hua, hum⟩ := s.admDiscard.unpend_all s.admDiscard.adm.named
  obtain ⟨u, hu⟩ : ∃ u, u = s.admDiscard.adm.named.foldl (State.pend false) s.admDiscard := ⟨_, rfl⟩
  rw [← hu] at hf hua hum
  obtain ⟨hfr, hfa, hfm⟩ := u.tunForget_keeps
  obtain ⟨v, hv⟩ : ∃ v, v = u.tunForget := ⟨_, rfl⟩
  rw [← hv] at hfr hfa hfm
  obtain ⟨w, hw⟩ : ∃ w, w = v.admForget := ⟨_, rfl⟩
  have hwa : w.adm.held = v.adm.held ∧ w.adm.named = [] ∧ w.mem = v.mem ∧ w.regs = v.regs := by
    rw [hw]
    exact ⟨rfl, rfl, rfl, rfl⟩
  obtain ⟨hwh, hwn, hwm, hwr⟩ := hwa
  obtain ⟨x, hx⟩ : ∃ x, x = (w.put Reg.ADM_STAT_LAST.z 4).detLoad ⟨w.word, 0⟩ := ⟨_, rfl⟩
  have hxa : x.adm = w.adm := by rw [hx, State.detLoad, State.put_adm, State.put_adm]
  have hxm : x.mem = w.mem := by rw [hx, State.detLoad, State.put_mem, State.put_mem]
  have hheld : x.adm.held = none := by rw [hxa, hwh, hfa, hua, ha]
  have hnext : x.admNext = x.put Reg.ADM_STAT_STATE.z 0 := by rw [State.admNext, hheld]
  have hrun : exec .admAbort s = .next (x.put Reg.ADM_STAT_STATE.z 0).ringSync := by
    show execAdmAbort s = _
    rw [execAdmAbort_waiting s h2, ← hnext, hx, hw, hv, hu]
  have hwreg : w.regs = u.regs := hwr.trans hfr
  have hlast : x.get Reg.ADM_STAT_LAST.z = 4 := by
    rw [hx, State.detLoad, State.get_put_apart _ _ (.inl (by decide)), State.get_put_same _ _ _ (by decide : 24 + 3 ≤ 32)]
    rfl
  have hall : Frame (fun _ => True) s.admDiscard x := by
    rw [hx]
    refine (hf.mono fun _ _ => trivial).trans (.after ?_ hwreg)
    exact (Frame.put _ _ trivial (hev _ (by decide))).trans ((Frame.detLoad_offAdm _ _).mono fun _ _ => trivial)
  clear hx
  refine ⟨_, hrun, ?_, ?_, ?_, ?_, ?_⟩
  · rw [(Frame.ringSync_offAdm _).get _ (hev _ (by decide)) fun _ hl => hl.apart (by decide),
      State.get_put_apart _ _ (.inr ⟨by decide, .inl (by decide)⟩), hlast]
  · rw [(Frame.ringSync_offAdm _).get _ (hev _ (by decide)) fun _ hl => hl.apart (by decide),
      State.get_put_same _ _ _ (by decide : 29 + 3 ≤ 32)]
    rfl
  · rw [State.ringSync_adm, State.put_adm, hxa, hwn]
  · exact ((hall.trans (.put _ _ trivial (hev _ (by decide)))).trans ((Frame.ringSync_offAdm _).mono fun _ _ => trivial)).pends 511
      (by decide) hp
  · rw [State.ringSync_mem, State.put_mem, hxm, hwm]
    exact hfm.trans (hum.trans hm)

/-- A check that ends alone: it has passed, or is REFUSED with the first of its failures. -/
theorem checkDone_ends (s : State) (us : Nat) (r : AdmRequest) (hr : s.adm.request = some r) (hw : s.adm.partnerWait = false)
    (hc : s.pair.creq = none) (hh : s.adm.held = none) (hcom : r.commit = false) (hsp : s.syncedPrimary = false) :
    ∃ t, exec (.admissionCheckDone us) s = .next t ∧
      t.adm.request = none ∧ t.get Reg.ADM_STAT_STATE.z = 0 ∧ t.get Reg.ADM_TIME_US.z = min us (2 ^ 32 - 1) ∧ t.on (evPend 508) = true ∧
      ((s.put Reg.ADM_TIME_US.z (min us (2 ^ 32 - 1))).checkAll r = [] → t.get Reg.ADM_STAT_LAST.z = 1 ∧ t.get Reg.ADM_STAT_NFAIL.z = 0) ∧
      (∀ f l, (s.put Reg.ADM_TIME_US.z (min us (2 ^ 32 - 1))).checkAll r = f :: l →
        t.get Reg.ADM_STAT_LAST.z = 3 ∧ t.get Reg.ADM_STAT_NFAIL.z = min (l.length + 1) 65535 ∧
          t.get Reg.ADM_RES_CODE.z = f.code % 256) := by
  obtain ⟨u, hu⟩ : ∃ u, u = s.put Reg.ADM_TIME_US.z (min us (2 ^ 32 - 1)) := ⟨_, rfl⟩
  have htime : u.get Reg.ADM_TIME_US.z = min us (2 ^ 32 - 1) := by
    rw [hu, State.get_put_same _ _ _ (by decide : 0 + 32 ≤ 32)]
    exact Nat.mod_eq_of_lt ((Nat.min_le_right ..).trans_lt (by decide))
  have hua : u.adm = s.adm := by rw [hu, State.put_adm]
  have huc : u.pair.creq = none := by rw [hu, State.put_pair, hc]
  have hus : u.syncedPrimary = false := by
    have hst : dzState u = dzState s := by rw [hu]; exact State.get_put_apart _ _ (.inl (by decide))
    have hro : dzRole u = dzRole s := by rw [hu]; exact State.get_put_apart _ _ (.inl (by decide))
    rw [State.syncedPrimary, hst, hro]
    exact hsp
  have hrun : exec (.admissionCheckDone us) s = .next ((u.admRecord (u.checkAll r)).admEnd (if (u.checkAll r).isEmpty then 1 else 3)) := by
    show execAdmissionCheckDone us s = _
    rw [execAdmissionCheckDone, hr]
    dsimp only
    rw [hw, bif_false, ← hu, huc]
    dsimp only
    cases u.checkAll r with
    | nil => rw [List.isEmpty_nil, Bool.not_true, bif_false, hus, bif_false, State.admPass, hcom, bif_false, if_pos rfl]
    | cons f l => rw [List.isEmpty_cons, Bool.not_false, bif_true, if_neg Bool.false_ne_true]
  rw [← hu]
  obtain ⟨hn, hcode, ht, ha, -⟩ := u.admRecord_reads (u.checkAll r)
  obtain ⟨hea, hlast, hst, hev, -, hen, hec, het⟩ := (u.admRecord (u.checkAll r)).admEnd_reads
    (last := if (u.checkAll r).isEmpty then 1 else 3) (by split <;> decide) (by rw [ha, hua, hh])
  refine ⟨_, hrun, ?_, hst, ?_, hev, fun hnil => ?_, fun f l hcons => ?_⟩
  · rw [hea]
    rfl
  · rw [het, ht, htime]
  · rw [hlast, hen, hn, hnil]
    exact ⟨rfl, rfl⟩
  · rw [hlast, hen, hn, hec, hcode, hcons]
    exact ⟨rfl, rfl, rfl⟩

/-- Settles O52: each clause is the rule of its command. -/
theorem admissionCommandsComplete : Obligations.AdmissionCommandsComplete := by
  refine ⟨fun s a hd h0 => ?_, fun s a hd h0 => ?_, fun s a hd h0 => ?_, fun s a hd h0 => ?_, fun s hh h2 => ?_,
    State.admAbort_withdraws, fun s hh h2 => ?_, checkDone_ends, fun s h2 hi => ?_⟩
  · show execAdmCheck a s = _
    rw [execAdmCheck, s.admCommand_local _ hd, State.admRequest, h0, beq_self_eq_true, bif_true]
  · show execAdmCommit a s = _
    rw [execAdmCommit, s.admCommand_local _ hd, State.admRequest, h0, beq_self_eq_true, bif_true]
  · exact ⟨_, congrArg Host.Outcome.next (s.admCommand_local _ hd), s.admRequest_held _ h0⟩
  · exact ⟨_, congrArg Host.Outcome.next (s.admCommand_local _ hd), s.admRequest_held _ h0⟩
  · obtain ⟨ha, hoff, hev, -⟩ := s.admDiscard_reads
    have hrun : exec .admAbort s = .next s.admDiscard := by
      show execAdmAbort s = _
      rw [execAdmAbort, beq_false_of_ne h2, Option.isSome_iff_ne_none.mpr hh, Bool.not_true, Bool.false_and, bif_false, bif_false]
      rfl
    exact ⟨_, hrun, (congrArg Admission.held ha).trans rfl, hoff, hev, (congrArg Admission.request ha).trans rfl⟩
  · show execAdmAbort s = _
    rw [execAdmAbort, beq_false_of_ne h2, hh, Option.isSome_none, Bool.not_false, Bool.and_self, bif_true]
  · have hdue : (!lt s.now (s.adm.instant.getD 0) || s.get Reg.PWR_STAT_MODE.z == 2) = true := by
      rcases hi with h | h
      · rw [show lt s.now (s.adm.instant.getD 0) = false from decide_eq_false h, Bool.not_false, Bool.true_or]
      · rw [h, beq_self_eq_true, Bool.or_true]
    show execCommitInstant s = _
    rw [execCommitInstant, h2, beq_self_eq_true, hdue, Bool.and_self, bif_true]

end Sys2Proof.Machine
end

section
/-!
PROOF of O55: start steps, resets, the lifecycle, fuses, the flash, tile verification and the debug port (22 R640 to R661).
-/
namespace Sys2Proof.Machine

/-! ### The security block beside the registers -/

/-- `s` with the security block `x`. -/
noncomputable def State.setSec (s : State) (x : Security) : State := { s with sec := x }

theorem State.setSec_sec (s : State) (x : Security) : (s.setSec x).sec = x := rfl
theorem State.setSec_regs (s : State) (x : Security) : (s.setSec x).regs = s.regs := rfl
theorem State.setSec_mem (s : State) (x : Security) : (s.setSec x).mem = s.mem := rfl
theorem State.setSec_get (s : State) (x : Security) (l : Loc) : (s.setSec x).get l = s.get l := State.get_congr (s.setSec_regs x) l
theorem State.setSec_on (s : State) (x : Security) (l : Loc) : (s.setSec x).on l = s.on l := State.on_congr (s.setSec_regs x) l

theorem secWord_not_event {o : Nat} (h : 0x400000 ≤ o) : ¬ eventWord o := not_eventWord (.inr (.inr (le_trans (by decide) h)))

/-- A command while another runs is a bad access. -/
theorem State.secIdle_busy (s : State) (f : State → State) (h : s.on Reg.SEC_STAT_BUSY.z = true) : s.secIdle f = s.bad .security := by
  unfold State.secIdle
  rw [h, bif_true]

theorem State.secIdle_idle (s : State) (f : State → State) (h : s.on Reg.SEC_STAT_BUSY.z = false) : s.secIdle f = f s := by
  unfold State.secIdle
  rw [h, bif_false]

/-- The end of a command. -/
theorem State.secStatus_reads (s : State) {c n : Nat} (hc : c < 16) (hn : n < 512) :
    (s.secStatus c n).get Reg.SEC_STAT_CMDST.z = c ∧ (s.secStatus c n).on (evPend n) = true ∧
      (s.secStatus c n).on Reg.SEC_STAT_BUSY.z = s.on Reg.SEC_STAT_BUSY.z ∧ (s.secStatus c n).sec = s.sec ∧
      (s.secStatus c n).mem = s.mem := by
  have hev : ¬ eventWord Reg.SEC_STAT_CMDST.z.off := secWord_not_event (by decide)
  refine ⟨?_, State.ev_pends _ n, ?_, ?_, ?_⟩
  · unfold State.secStatus
    rw [State.get_ev _ n _ hn hev, State.get_put_same _ _ _ (by decide : 20 + 4 ≤ 32)]
    exact Nat.mod_eq_of_lt hc
  · unfold State.secStatus
    rw [State.on_ev _ n _ hn (secWord_not_event (by decide)), State.on_put_apart _ _ (.inr ⟨by decide, .inr (by decide)⟩)]
  · unfold State.secStatus
    rw [State.ev_sec, State.put_sec]
  · unfold State.secStatus
    rw [State.ev_mem, State.put_mem]

/-- A burn under way. -/
theorem State.burnStart_reads (s : State) (f : Fuses) (lc : Bool) :
    (s.burnStart f lc).on Reg.SEC_STAT_BUSY.z = true ∧ (s.burnStart f lc).sec.burn = some f ∧ (s.burnStart f lc).sec.burnLc = lc ∧
      (s.burnStart f lc).mem = s.mem := by
  have h : s.burnStart f lc = (s.flag Reg.SEC_STAT_BUSY.z true).setSec { s.sec with burn := some f, burnLc := lc } := by
    rw [State.burnStart, State.setSec]
  rw [h, State.setSec_on, State.setSec_sec, State.setSec_mem, State.flag_mem]
  exact ⟨State.on_flag_same _ _ _ (by decide) (by decide), rfl, rfl, rfl⟩

/-- A flash command under way. -/
theorem State.flashStart_reads (s : State) (op a : Nat) (ha : s.get Reg.SEC_FLADDR_ADDR.z = a) :
    (s.flashStart op).on Reg.SEC_STAT_BUSY.z = true ∧ (s.flashStart op).sec.flashOp = some ⟨op, a⟩ ∧ (s.flashStart op).mem = s.mem := by
  have h : s.flashStart op = (s.flag Reg.SEC_STAT_BUSY.z true).setSec { s.sec with flashOp := some ⟨op, a⟩ } := by
    unfold State.flashStart State.setSec
    rw [ha]
  rw [h, State.setSec_on, State.setSec_sec, State.setSec_mem, State.flag_mem]
  exact ⟨State.on_flag_same _ _ _ (by decide) (by decide), rfl, rfl⟩

/-- A program or erase command outside a running image. -/
theorem State.flashChange_starts (s : State) {op n a : Nat} (hb : s.on Reg.SEC_STAT_BUSY.z = false)
    (ha : s.get Reg.SEC_FLADDR_ADDR.z = a) (hal : a % n = 0) (hi : s.sec.image = none) : s.flashChange op n = s.flashStart op := by
  have hp : s.flashProtected a n = false := by unfold State.flashProtected; rw [hi]
  unfold State.flashChange
  rw [ha, s.secIdle_idle _ hb, hal, bne_self_eq_false, bif_false, hp, bif_false]

/-! ### Start steps -/

/-- A step that ends is counted, with its method. -/
noncomputable def State.stepNoted (s : State) (k method : Nat) : State :=
  ((s.count (stepAttempts k) 1).put (Reg.SEC_STEP_LASTPOL.e k) method).setSec { s.sec with used := s.sec.used || method != 0 }

theorem State.stepNoted_reads (s : State) (k : Nat) :
    (s.stepNoted k 0).get (stepAttempts k) = satAdd (stepAttempts k).w (s.get (stepAttempts k)) 1 ∧
      (s.stepNoted k 0).get (Reg.SEC_STEP_LASTPOL.e k) = 0 ∧ (s.stepNoted k 0).mem = s.mem ∧
      ∀ l : Loc, l.off < 0x400100 → (s.stepNoted k 0).get l = s.get l := by
  refine ⟨?_, ?_, ?_, fun l hl => ?_⟩
  · have hlt : satAdd (stepAttempts k).w (s.get (stepAttempts k)) 1 < 2 ^ 8 := satAdd_lt 8 _ 1
    unfold State.stepNoted
    rw [State.setSec_get, State.get_put_apart _ _ (.inr ⟨(by decide : 12 + 2 ≤ 32), .inr (by decide : 12 + 2 ≤ 24)⟩)]
    unfold State.count
    rw [State.get_put_same _ _ _ (by decide : 24 + 8 ≤ 32)]
    exact Nat.mod_eq_of_lt hlt
  · unfold State.stepNoted
    rw [State.setSec_get, State.get_put_same _ _ _ (by decide : 12 + 2 ≤ 32)]
    rfl
  · unfold State.stepNoted
    rw [State.setSec_mem, State.put_mem, State.count_mem]
  · unfold State.stepNoted
    have hne : l.off ≠ (stepAttempts k).off := Nat.ne_of_lt (hl.trans_le (Nat.le_add_right 0x400100 _))
    rw [State.setSec_get, State.get_put_apart (l := Reg.SEC_STEP_LASTPOL.e k) _ _ (.inl hne)]
    unfold State.count
    rw [State.get_put_apart _ _ (.inl hne)]

/-- A step done without a failure, in a start whose keep record is not valid yet. -/
theorem exec_stepDone (s : State) (c m : Nat) {k : Nat} (ha : s.alive = true) (hk : s.sec.step = some k) (hc : s.get (stepConsec k) = 0)
    (hkeep : s.sec.keepOk = false) (hrun : (s.stepNoted k 0).stepRun k 0 c m [] = (s.stepNoted k 0, 0)) :
    exec (.startStepDone c m []) s = .next (
      bif le 12 k then ((s.stepNoted k 0).put (stepConsec k) 0).startEnd
      else
        bif k == 7 then (((s.stepNoted k 0).put (stepConsec k) 0).setSec { (s.stepNoted k 0).sec with step := some (k + 1) }).lanesTo 1
        else ((s.stepNoted k 0).put (stepConsec k) 0).setSec { (s.stepNoted k 0).sec with step := some (k + 1) }) := by
  have hnoted : s.stepNoted k 0 = { (s.count (stepAttempts k) 1).put (Reg.SEC_STEP_LASTPOL.e k) 0 with
      sec := { ((s.count (stepAttempts k) 1).put (Reg.SEC_STEP_LASTPOL.e k) 0).sec with
        used := ((s.count (stepAttempts k) 1).put (Reg.SEC_STEP_LASTPOL.e k) 0).sec.used || (0 != 0) } } := by
    unfold State.stepNoted State.setSec
    rw [State.put_sec, State.count_sec]
  have hok : ((s.stepNoted k 0).put (stepConsec k) 0).sec.keepOk = false := by
    rw [State.put_sec]
    unfold State.stepNoted
    rw [State.setSec_sec]
    exact hkeep
  show execStartStepDone c m [] s = _
  unfold execStartStepDone
  rw [hk]
  dsimp only
  rw [ha, Bool.not_true, bif_false, if_pos hc, if_neg (by decide), ← hnoted, hrun, bne_self_eq_false, bif_false, hok, bif_false]
  rfl

/-- An event raised under a condition leaves what is pending, the security block and the other words. -/
theorem Frame.evIf (c : Bool) (s : State) {n : Nat} (hn : n < 512) :
    Frame (fun _ => False) s (bif c then s.ev n else s) ∧ (bif c then s.ev n else s).sec = s.sec := by
  cases c
  · exact ⟨.refl s, rfl⟩
  · rw [bif_true]
    exact ⟨.ev s hn, State.ev_sec ..⟩

/-- The end of a start that stays in Sleep. -/
theorem State.startEnd_reads (s : State) (hb : s.get Reg.PWR_CFG_BOOTMODE.z = 0) :
    s.startEnd.sec.step = none ∧ s.startEnd.on (evPend 80) = true := by
  unfold State.startEnd
  extract_lets x cause a b c d
  have ha : a = (s.setSec { s.sec with step := none }).ev 80 := rfl
  have has : a.sec.step = none := by rw [ha, State.ev_sec, State.setSec_sec]
  have hap : a.on (evPend 80) = true := by rw [ha]; exact State.ev_pends _ 80
  have hab : a.get Reg.PWR_CFG_BOOTMODE.z = 0 := by
    rw [ha, State.get_ev _ 80 _ (by decide) (not_eventWord (by decide)), State.setSec_get, hb]
  clear_value a
  obtain ⟨hbf, hbs⟩ : Frame (fun _ => False) a b ∧ b.sec = a.sec := Frame.evIf _ a (by decide)
  clear_value b
  obtain ⟨hcf, hcs⟩ : Frame (fun _ => False) b c ∧ c.sec = b.sec := Frame.evIf _ b (by decide)
  clear_value c
  obtain ⟨hdf, hds⟩ : Frame (fun _ => False) c d ∧ d.sec = c.sec := Frame.evIf _ c (by decide)
  clear_value d
  have hd : Frame (fun _ => False) a d := (hbf.trans hcf).trans hdf
  rw [hd.get Reg.PWR_CFG_BOOTMODE.z (not_eventWord (by decide)) fun _ h => h.elim, hab]
  show d.sec.step = none ∧ d.on (evPend 80) = true
  exact ⟨by rw [hds, hcs, hbs, has], hd.pends 80 (by decide) hap⟩

/-- Nothing holds the reset any more. -/
theorem State.startFree_reads (s : State) (hp : s.sec.pin = false) (hs : s.sec.supply = false) (hw : s.sec.wait = false)
    (ht : s.pwr.tripHold = false) :
    s.startFree.sec = { s.sec with step := some 0 } ∧ s.startFree.get Reg.PWR_STAT_MODE.z = 2 ∧ s.startFree.mem = s.mem := by
  have h : s.startFree = (s.put Reg.PWR_STAT_MODE.z 2).setSec { s.sec with step := some 0 } := by
    have hfree : (s.sec.pin || s.sec.supply || s.sec.wait || s.pwr.tripHold) = false := by
      rw [hp, hs, hw, ht, Bool.or_self, Bool.or_self, Bool.or_self]
    unfold State.startFree
    dsimp only
    rw [hfree, bif_false, State.setSec]
  rw [h, State.setSec_get, State.setSec_sec, State.setSec_mem, State.put_mem, State.get_put_same _ _ _ (by decide : 29 + 3 ≤ 32)]
  exact ⟨rfl, rfl, rfl⟩

/-! ### The debug port -/

theorem State.newNonce_reads (s : State) :
    s.newNonce.regs = s.regs ∧ s.newNonce.mem = s.mem ∧ s.newNonce.sec.refusals = s.sec.refusals ∧ s.newNonce.sec.extest = false ∧
      s.newNonce.out = s.out ∧ s.newNonce.freeCount = s.freeCount + 1 := ⟨rfl, rfl, rfl, rfl, rfl, rfl⟩

/-- A debug session's end. -/
theorem State.debugEnd_reads (s : State) (h : s.get Reg.SEC_STAT_DBG.z ≠ 0) :
    s.debugEnd.get Reg.SEC_STAT_DBG.z = 0 ∧ s.debugEnd.sec = s.sec ∧ s.debugEnd.on (evPend 86) = true := by
  obtain ⟨u, hu⟩ : ∃ u, u = s.put Reg.SEC_STAT_DBG.z 0 := ⟨_, rfl⟩
  have hlock : u.lockAbandon 66 = ((upto 256).filter (fun n => u.get (lockState n) == 1 && u.lockOwner n == 66)).foldl
      (fun s n => s.put (lockState n) 2) u := by
    rw [State.lockAbandon, State.lockSync]
    rfl
  have hget : (u.lockAbandon 66).get Reg.SEC_STAT_DBG.z = 0 := by
    rw [hlock]
    refine (foldl_keeps _ (fun s : State => s.get Reg.SEC_STAT_DBG.z) (fun a n => ?_) _ u).trans ?_
    · exact State.get_put_apart _ _ (.inl (low_ne (a := 0x30A0100) (by decide) _).symm)
    · rw [hu, State.get_put_same _ _ _ (by decide : 28 + 2 ≤ 32)]
      rfl
  have hsec : (u.lockAbandon 66).sec = s.sec := by
    rw [hlock]
    exact (foldl_keeps _ (fun s : State => s.sec) (fun a n => State.put_sec ..) _ u).trans (by rw [hu, State.put_sec])
  unfold State.debugEnd
  rw [beq_false_of_ne h, bif_false, ← hu]
  refine ⟨?_, ?_, State.ev_pends _ 86⟩
  · rw [State.get_ev _ 86 _ (by decide) (secWord_not_event (by decide)), hget]
  · rw [State.ev_sec, hsec]

/-- A granted response opens its level. -/
theorem dbgResp_grants (s : State) {l : Nat} (g : List Byte) (ht : s.tap = true) (hl : s.on Reg.SEC_STAT_LOCKOUT.z = false) (h0 : 0 < l)
    (h3 : l < 3) (hs : signed (s.get Reg.SEC_STAT_LC.z) = false) (h2 : s.get Reg.SEC_STAT_LC.z ≠ 2) (hd : s.get Reg.SEC_STAT_DBG.z ≠ l) :
    ∃ t, exec (.dbgResp l g) s = .next t ∧ t.get Reg.SEC_STAT_DBG.z = l ∧ t.sec.refusals = 0 ∧ t.on (evPend 85) = true ∧ t.mem = s.mem := by
  obtain ⟨hr, hm, -⟩ := s.newNonce_reads
  obtain ⟨u, hu⟩ : ∃ u, u = s.newNonce.setSec { s.newNonce.sec with refusals := 0, lockSecs := 0 } := ⟨_, rfl⟩
  have hud : u.get Reg.SEC_STAT_DBG.z ≠ l := by rwa [hu, State.setSec_get, State.get_congr hr]
  have hgood : s.respGood l g = true := by
    rw [State.respGood, show lt 2 l = false from decide_eq_false (by lia), beq_false_of_ne h2, Bool.false_and, Bool.or_self, bif_false, hs,
      Bool.not_false, bif_true]
  have hrun : exec (.dbgResp l g) s = .next ((u.put Reg.SEC_STAT_DBG.z l).ev 85) := by
    show execDbgResp l g s = _
    unfold execDbgResp
    rw [ht, Bool.not_true, bif_false, hl, bif_false]
    dsimp only
    rw [hgood, Bool.not_true, bif_false, beq_false_of_ne (by lia : l ≠ 0), bif_false, ← State.setSec, ← hu, beq_false_of_ne hud, bif_false]
  refine ⟨_, hrun, ?_, ?_, State.ev_pends _ 85, ?_⟩
  · rw [State.get_ev _ 85 _ (by decide) (secWord_not_event (by decide)), State.get_put_same _ _ _ (by decide : 28 + 2 ≤ 32)]
    exact Nat.mod_eq_of_lt (by show l < 2 ^ 2; lia)
  · rw [State.ev_sec, State.put_sec, hu, State.setSec_sec]
  · rw [State.ev_mem, State.put_mem, hu, State.setSec_mem, hm]

/-- A refused response is counted, and the third in a row locks the port out. -/
theorem State.respRefuse_reads (s : State) :
    s.respRefuse.get Reg.SEC_STAT_DBG.z = s.get Reg.SEC_STAT_DBG.z ∧ s.respRefuse.sec.refusals = s.sec.refusals + 1 ∧
      s.respRefuse.on (evPend 87) = true ∧ (2 ≤ s.sec.refusals → s.respRefuse.on Reg.SEC_STAT_LOCKOUT.z = true) := by
  unfold State.respRefuse
  extract_lets n secs x u
  have hn : n = s.sec.refusals + 1 := rfl
  have hu : u = (s.setSec { x with refusals := n, lockSecs := secs }).ev 87 := rfl
  have hud : u.get Reg.SEC_STAT_DBG.z = s.get Reg.SEC_STAT_DBG.z := by
    rw [hu, State.get_ev _ 87 _ (by decide) (secWord_not_event (by decide)), State.setSec_get]
  have hus : u.sec.refusals = n := by rw [hu, State.ev_sec, State.setSec_sec]
  have hup : u.on (evPend 87) = true := by rw [hu]; exact State.ev_pends _ 87
  clear_value u x secs n
  cases h3 : le 3 n
  · rw [bif_false]
    exact ⟨hud, hus.trans hn, hup, fun h => absurd (hn ▸ Nat.succ_le_succ h) (of_decide_eq_false h3)⟩
  · rw [bif_true]
    have hev : ¬ eventWord Reg.SEC_STAT_LOCKOUT.z.off := secWord_not_event (by decide)
    refine ⟨?_, ?_, ?_, fun _ => ?_⟩
    · rw [State.get_ev _ 88 _ (by decide) (secWord_not_event (by decide)), State.get_flag_apart _ _ (.inr ⟨by decide, .inr (by decide)⟩), hud]
    · rw [State.ev_sec, State.flag_sec, hus, hn]
    · exact ((Frame.flag (W := fun _ => True) u true trivial hev).trans (.ev _ (by decide : 88 < 512))).pends 87 (by decide) hup
    · rw [State.on_ev _ 88 _ (by decide) hev, State.on_flag_same _ _ _ (by decide) (by decide)]

/-! ### The statement -/

theorem octets_congr {s t : State} (f : Fld) (a n : Nat) (h : ∀ i, t.word (f.e i).off = s.word (f.e i).off) :
    t.octets f a n = s.octets f a n := by
  rw [State.octets, State.octets]
  simp only [h]

/-- A program command's end: the page takes the buffer. -/
theorem flashDone_programs (s : State) {a : Nat} (h : s.sec.flashOp = some ⟨2, a⟩) :
    ∃ t, exec .flashDone s = .next t ∧
      t.on Reg.SEC_STAT_BUSY.z = false ∧ t.sec.flashOp = none ∧ t.on (evPend 92) = true ∧ t.mem = s.mem ∧
      t.sec.flash = ((s.octets Reg.SEC_FLBUF_DATA 0 256).zip (upto 256)).foldl (fun m x => tset (fun _ => 0xFF) m (a + x.2) x.1)
        s.sec.flash := by
  obtain ⟨u, hu⟩ : ∃ u, u = (s.setSec { s.sec with flashOp := none }).flag Reg.SEC_STAT_BUSY.z false := ⟨_, rfl⟩
  obtain ⟨d, hd⟩ : ∃ d, d = s.octets Reg.SEC_FLBUF_DATA 0 256 := ⟨_, rfl⟩
  have hlen : d.length = 256 := by rw [hd]; unfold State.octets; rw [List.length_map, upto, List.length_range]
  have hoct : u.octets Reg.SEC_FLBUF_DATA 0 256 = d := by
    rw [hd, hu]
    refine (octets_congr _ _ _ fun i => ?_).trans rfl
    exact State.word_put_ne _ _ _ (low_ne (a := 0x401000) (by decide) _)
  have hbusy : u.on Reg.SEC_STAT_BUSY.z = false := by rw [hu]; exact State.on_flag_same _ _ _ (by decide) (by decide)
  have husec : u.sec = { s.sec with flashOp := none } := by rw [hu, State.flag_sec, State.setSec_sec]
  have hum : u.mem = s.mem := by rw [hu, State.flag_mem, State.setSec_mem]
  have hstore : (u.flashStore a d).regs = u.regs ∧ (u.flashStore a d).mem = u.mem ∧
      (u.flashStore a d).sec = { u.sec with flash := (d.zip (upto 256)).foldl (fun m x => tset (fun _ => 0xFF) m (a + x.2) x.1) u.sec.flash } := by
    unfold State.flashStore
    rw [hlen]
    dsimp only
    cases le 0x2000000 a && lt a 0x2100000
    · rw [bif_false]
      cases le 0x2100000 a && lt a 0x2200000
      · exact ⟨rfl, rfl, rfl⟩
      · exact ⟨rfl, rfl, rfl⟩
    · exact ⟨rfl, rfl, rfl⟩
  obtain ⟨hr, hm, hs⟩ := hstore
  have hrun : exec .flashDone s = .next ((u.flashStore a d).secStatus 0 92) := by
    show execFlashDone s = _
    unfold execFlashDone
    rw [h]
    dsimp only
    rw [← State.setSec, ← hu, hoct]
    rfl
  obtain ⟨-, hp, hb, hsec, hmem⟩ := (u.flashStore a d).secStatus_reads (c := 0) (n := 92) (by decide) (by decide)
  refine ⟨_, hrun, ?_, ?_, hp, ?_, ?_⟩
  · rw [hb, State.on_congr hr, hbusy]
  · rw [hsec, hs, husec]
  · rw [hmem, hm, hum]
  · rw [hsec, hs, husec, ← hd]

/-- A burn ends. -/
theorem fuseBurn_ends (s : State) {f : Fuses} (h : s.sec.burn = some f) :
    ∃ t, exec .fuseBurnDone s = .next t ∧ t.on Reg.SEC_STAT_BUSY.z = false ∧ t.get Reg.SEC_STAT_CMDST.z = 0 ∧
      t.on (evPend (if s.sec.burnLc then 90 else 91)) = true ∧ t.mem = s.mem := by
  obtain ⟨u, hu⟩ : ∃ u, u = (s.setSec { s.sec.burnt 3 with burnLc := false }).flag Reg.SEC_STAT_BUSY.z false := ⟨_, rfl⟩
  have hbusy : u.on Reg.SEC_STAT_BUSY.z = false := by rw [hu]; exact State.on_flag_same _ _ _ (by decide) (by decide)
  have hum : u.mem = s.mem := by rw [hu, State.flag_mem, State.setSec_mem]
  cases hlc : s.sec.burnLc
  · obtain ⟨v, hv⟩ : ∃ v, v = u.setSec { u.sec with fuses := { u.sec.fuses with svn := f.svn, revoked := f.revoked } } := ⟨_, rfl⟩
    have hrun : exec .fuseBurnDone s = .next ((v.put Reg.SEC_STAT_SVN.z (svnOf f)).secStatus 0 91) := by
      show execFuseBurnDone s = _
      unfold execFuseBurnDone
      rw [h]
      dsimp only
      rw [← State.setSec, ← hu, hlc, bif_false, hv, State.setSec]
    obtain ⟨hst, hp, hb, -, hmem⟩ := (v.put Reg.SEC_STAT_SVN.z (svnOf f)).secStatus_reads (c := 0) (n := 91) (by decide) (by decide)
    refine ⟨_, hrun, ?_, hst, hp, ?_⟩
    · rw [hb, State.on_put_apart _ _ (.inr ⟨by decide, .inr (by decide)⟩), hv, State.setSec_on, hbusy]
    · rw [hmem, State.put_mem, hv, State.setSec_mem, hum]
  · have hrun : exec .fuseBurnDone s = .next ((u.flag Reg.SEC_STAT_LCPEND.z true).secStatus 0 90) := by
      show execFuseBurnDone s = _
      unfold execFuseBurnDone
      rw [h]
      dsimp only
      rw [← State.setSec, ← hu, hlc, bif_true]
    obtain ⟨hst, hp, hb, -, hmem⟩ := (u.flag Reg.SEC_STAT_LCPEND.z true).secStatus_reads (c := 0) (n := 90) (by decide) (by decide)
    refine ⟨_, hrun, ?_, hst, hp, ?_⟩
    · rw [hb, State.on_flag_apart _ _ (.inr ⟨by decide, .inl (by decide)⟩), hbusy]
    · rw [hmem, State.flag_mem, hum]

/-- A verification ends with its status. -/
theorem tileVerify_ends (s : State) {n : Nat} (h : s.sec.verify = some n) :
    ∃ t, exec .tileVerifyDone s = .next t ∧ t.sec.verify = none ∧
      t.get Reg.SEC_STAT_TVST.z = s.verifyStatus n % 2 ^ Reg.SEC_STAT_TVST.w ∧ t.on Reg.SEC_STAT_BUSY.z = false ∧
      t.on (evPend 89) = true := by
  obtain ⟨u, hu⟩ : ∃ u, u = ((s.setSec { s.sec with verify := none }).put Reg.SEC_STAT_TVST.z (s.verifyStatus n)).flag
    Reg.SEC_STAT_BUSY.z false := ⟨_, rfl⟩
  have hbusy : u.on Reg.SEC_STAT_BUSY.z = false := by rw [hu]; exact State.on_flag_same _ _ _ (by decide) (by decide)
  have htv : u.get Reg.SEC_STAT_TVST.z = s.verifyStatus n % 2 ^ Reg.SEC_STAT_TVST.w := by
    rw [hu, State.get_flag_apart _ _ (.inr ⟨by decide, .inl (by decide)⟩), State.get_put_same _ _ _ (by decide : 17 + 3 ≤ 32)]
    rfl
  have hus : u.sec.verify = none := by rw [hu, State.flag_sec, State.put_sec, State.setSec_sec]
  obtain ⟨v, hv⟩ : ∃ v, v = bif s.verifyStatus n == 2 then u.flag (Reg.TILE_XSTAT_SIGOK.t n) true else u := ⟨_, rfl⟩
  have hvu : (∀ l : Loc, l.off = 0x400020 → v.get l = u.get l) ∧ v.sec = u.sec := by
    rw [hv]
    cases s.verifyStatus n == 2
    · exact ⟨fun _ _ => rfl, rfl⟩
    · rw [bif_true]
      exact ⟨fun l hl => State.get_flag_apart _ _ (.inl (hl ▸ (low_ne (a := 0x3010018) (by decide) _).symm)), State.flag_sec ..⟩
  have hrun : exec .tileVerifyDone s = .next (v.ev 89) := by
    show execTileVerifyDone s = _
    unfold execTileVerifyDone
    rw [h]
    dsimp only
    rw [← State.setSec, ← hu, ← hv]
  clear hv hu
  have hev : ¬ eventWord 0x400020 := secWord_not_event (by decide)
  refine ⟨_, hrun, ?_, ?_, ?_, State.ev_pends _ 89⟩
  · rw [State.ev_sec, hvu.2, hus]
  · rw [State.get_ev _ 89 _ (by decide) hev, hvu.1 _ rfl, htv]
  · rw [State.on_ev _ 89 _ (by decide) hev, State.on, hvu.1 _ rfl]
    exact hbusy

/-- Settles O55: each clause is the rule of its command. -/
theorem startAndSecurityCommandsComplete : Obligations.StartAndSecurityCommandsComplete := by
  refine ⟨fun s c m ha hk hlow hc hkeep => ?_, fun s c m ha hk hc hkeep hb => ?_, fun s hg hh => ?_, fun s hg ht hs => ?_,
    fun s hp hs hw => ?_, fun s hw hp hs ht => ?_, fun s ha hk hi ht => ?_, fun s hb hsafe => ?_, fun s hb hlc => ?_,
    fun s hb hlc htok hrsv => ?_, fun s v hb hs hv hle hlt => ?_, fun s v hb hs hv hlt hi => ?_, fun s f h => fuseBurn_ends s h,
    fun s a hb ha => ?_, fun s a hb ha hal hi => ?_, fun s a hb ha hal hi => ?_, fun s a h => flashDone_programs s h,
    fun s n hb hn => ?_, fun s n _ h => tileVerify_ends s h, fun s hb => ?_, fun s ht => ?_,
    fun s l g ht hl h0 h3 hs h2 hd => dbgResp_grants s g ht hl h0 h3 hs h2 hd, fun s g ht hl => ?_, fun s ht hd => ?_, fun s c h => ?_,
    fun s p c h => ?_, fun s => ?_⟩
  case refine_1 =>
    obtain ⟨hat, hpol, hm, hother⟩ := s.stepNoted_reads 0
    have hlow' : (s.stepNoted 0 0).suppliesLow = false := by
      unfold State.suppliesLow
      rw [hother _ (by decide), ← State.suppliesLow, hlow]
    have hrun := exec_stepDone s c m ha hk hc hkeep (by
      show (s.stepNoted 0 0).stepS00 = _
      unfold State.stepS00
      rw [hlow']
      rfl)
    rw [show le 12 0 = false from rfl, bif_false, show ((0 : Nat) == 7) = false from rfl, bif_false] at hrun
    refine ⟨_, hrun, ?_, ?_, ?_, ?_⟩
    · rw [State.setSec_sec]
    · rw [State.setSec_get, State.get_put_apart _ _ (.inr ⟨by decide, .inr (by decide)⟩), hat]
    · rw [State.setSec_get, State.get_put_apart _ _ (.inr ⟨by decide, .inr (by decide)⟩), hpol]
    · rw [State.setSec_mem, State.put_mem, hm]
  case refine_2 =>
    obtain ⟨-, -, -, hother⟩ := s.stepNoted_reads 12
    have hrun := exec_stepDone s c m ha hk hc hkeep rfl
    rw [show le 12 12 = true from rfl, bif_true] at hrun
    exact ⟨_, hrun, State.startEnd_reads _ (by rw [State.get_put_apart _ _ (.inl (by decide)), hother _ (by decide), hb])⟩
  case refine_3 =>
    have hheld : (s.pwr.tripHold || s.sec.supply) = true := by
      rcases hh with h | h
      · rw [h, Bool.true_or]
      · rw [h, Bool.or_true]
    exact congrArg Host.Outcome.next ((Bool.cond_neg (by rw [hg, Bool.not_true])).trans (Bool.cond_pos hheld))
  case refine_4 =>
    have hfree : (s.pwr.tripHold || s.sec.supply) = false := by rw [ht, hs, Bool.or_self]
    exact congrArg Host.Outcome.next ((Bool.cond_neg (by rw [hg, Bool.not_true])).trans (Bool.cond_neg hfree))
  case refine_5 =>
    obtain ⟨hsec, hmode, hm⟩ := State.startFree_reads
      { s with sec := { s.sec with pin := false }, pwr := { s.pwr with tripHold := false } } rfl hs hw rfl
    exact ⟨_, congrArg Host.Outcome.next (Bool.cond_pos hp), congrArg Security.pin hsec, congrArg Security.step hsec, hmode, hm⟩
  case refine_6 =>
    obtain ⟨hsec, hmode, hm⟩ := State.startFree_reads { s with sec := { s.sec with wait := false } } hp hs rfl ht
    exact ⟨_, congrArg Host.Outcome.next (Bool.cond_pos hw), congrArg Security.wait hsec, congrArg Security.step hsec, hmode, hm⟩
  case refine_7 =>
    show execWatchdogExpiry s = _
    unfold execWatchdogExpiry
    rw [hk]
    dsimp only
    rw [Option.isSome_iff_ne_none.mpr hi, ha, bne_iff_ne.mpr ht, Bool.and_self, Bool.and_self, bif_true]
  case refine_8 =>
    exact congrArg Host.Outcome.next ((s.secIdle_idle _ hb).trans (congrArg (State.dieReset · 4) (Bool.cond_neg hsafe)))
  case refine_9 =>
    have hrun : ∃ f : Fuses, f.lc = max s.sec.voted.lc 1 ∧ exec .secProvision s = .next (s.burnStart f true) := by
      refine ⟨{ s.sec.voted with
        keys := (upto 7).map (fun k => orBytes (s.sec.voted.keys.getD k (zeros 48)) (s.octets Reg.SEC_KEYS_DATA (48 * k) 48))
        lc := max s.sec.voted.lc 1 }, rfl, ?_⟩
      exact congrArg Host.Outcome.next ((s.secIdle_idle _ hb).trans (Bool.cond_neg (by rw [hlc, bne_self_eq_false])))
    obtain ⟨f, hf, hrun⟩ := hrun
    obtain ⟨hon, hburn, hblc, hm⟩ := s.burnStart_reads f true
    exact ⟨_, hrun, hon, by rw [hburn, Option.map_some, hf], hblc, hm⟩
  case refine_10 =>
    have hrun : ∃ f : Fuses, f.lc = max s.sec.voted.lc 3 ∧ exec .lcreq s = .next (s.burnStart f true) := by
      refine ⟨{ s.sec.voted with lc := max s.sec.voted.lc 3 }, rfl, ?_⟩
      have h : execLcreq s = .next (s.secIdle fun s => bif _ then _ else bif _ then _ else s.burnStart _ true) := rfl
      refine h.trans (congrArg Host.Outcome.next ((s.secIdle_idle _ hb).trans ((Bool.cond_neg ?_).trans ((Bool.cond_neg ?_).trans ?_))))
      · rw [hlc, htok]
        rfl
      · rw [hlc, htok, hrsv]
        rfl
      · rw [htok]
    obtain ⟨f, hf, hrun⟩ := hrun
    obtain ⟨hon, hburn, -, hm⟩ := s.burnStart_reads f true
    exact ⟨_, hrun, hon, by rw [hburn, Option.map_some, hf], hm⟩
  case refine_11 =>
    have hrun : ∃ f : Fuses, f.svn = 2 ^ v - 1 ∧ exec (.svnburn true) s = .next (s.burnStart f false) := by
      refine ⟨{ s.sec.voted with svn := 2 ^ v - 1 }, rfl, ?_⟩
      subst hv
      exact congrArg Host.Outcome.next ((s.secIdle_idle _ hb).trans ((Bool.cond_neg (by rw [hs, Bool.not_true])).trans (Bool.cond_neg (by
        rw [show lt _ (svnOf s.sec.voted) = false from decide_eq_false (by lia), show lt 63 _ = false from decide_eq_false (by lia),
          Bool.not_true, Bool.or_self, Bool.or_self]))))
    obtain ⟨f, hf, hrun⟩ := hrun
    obtain ⟨hon, hburn, -, hm⟩ := s.burnStart_reads f false
    exact ⟨_, hrun, hon, by rw [hburn, Option.map_some, hf], hm⟩
  case refine_12 =>
    have hrun : ∃ f : Fuses, f.revoked = s.sec.voted.revoked ||| 2 ^ v ∧ exec (.secRevoke true) s = .next (s.burnStart f false) := by
      refine ⟨{ s.sec.voted with revoked := s.sec.voted.revoked ||| 2 ^ v }, rfl, ?_⟩
      subst hv
      exact congrArg Host.Outcome.next ((s.secIdle_idle _ hb).trans ((Bool.cond_neg (by rw [hs, Bool.not_true])).trans (Bool.cond_neg (by
        rw [show lt 6 _ = false from decide_eq_false (by lia), hi, Option.isSome_none, Bool.false_and, Bool.not_true, Bool.or_self,
          Bool.or_self]))))
    obtain ⟨f, hf, hrun⟩ := hrun
    obtain ⟨hon, hburn, -, hm⟩ := s.burnStart_reads f false
    exact ⟨_, hrun, hon, by rw [hburn, Option.map_some, hf], hm⟩
  case refine_13 =>
    exact ⟨_, congrArg Host.Outcome.next (s.secIdle_idle _ hb), s.flashStart_reads 1 a ha⟩
  case refine_14 =>
    exact ⟨_, congrArg Host.Outcome.next (s.flashChange_starts hb ha hal hi), s.flashStart_reads 2 a ha⟩
  case refine_15 =>
    exact ⟨_, congrArg Host.Outcome.next (s.flashChange_starts hb ha hal hi), s.flashStart_reads 3 a ha⟩
  case refine_16 =>
    obtain ⟨u, hu⟩ : ∃ u, u = (s.put Reg.SEC_STAT_TVST.z 1).flag Reg.SEC_STAT_BUSY.z true := ⟨_, rfl⟩
    have hrun : exec (.tileVerify n) s = .next (u.setSec { u.sec with verify := some n }) := by
      show execTileVerify n s = _
      unfold execTileVerify
      rw [s.secIdle_idle _ hb, if_neg (Nat.not_le.2 hn), hu]
      unfold State.setSec
      rw [State.flag_sec, State.put_sec]
    refine ⟨_, hrun, ?_, ?_, ?_, ?_⟩
    · rw [State.setSec_sec]
    · rw [State.setSec_get, hu, State.get_flag_apart _ _ (.inr ⟨by decide, .inl (by decide)⟩),
        State.get_put_same _ _ _ (by decide : 17 + 3 ≤ 32)]
      rfl
    · rw [State.setSec_on, hu, State.on_flag_same _ _ _ (by decide) (by decide)]
    · rw [State.setSec_mem, hu, State.flag_mem, State.put_mem]
  case refine_17 =>
    simp only [List.forall_mem_cons, List.not_mem_nil, false_implies, implies_true, and_true]
    have h : ∀ f : State → State, (Host.Outcome.next (s.secIdle f) : Res) = .next (s.bad .security) :=
      fun f => congrArg Host.Outcome.next (s.secIdle_busy f hb)
    have hflash : ∀ op n, s.flashChange op n = s.bad .security := fun op n => by
      unfold State.flashChange
      rw [s.secIdle_busy _ hb]
    exact ⟨h _, h _, h _, h _, h _, h _, congrArg _ (hflash 2 256), congrArg _ (hflash 3 65536), h _⟩
  case refine_18 =>
    obtain ⟨hr, -, -, hx, ho, hf⟩ := s.newNonce_reads
    have hrun : ∃ x : Out, exec .dbgChal s = .next (s.newNonce.emit x) := by
      have h : execDbgChal s = .next (bif s.tap then s.newNonce.emit _ else s) := rfl
      exact ⟨_, h.trans (by rw [ht, bif_true])⟩
    obtain ⟨x, hrun⟩ := hrun
    refine ⟨_, hrun, ?_, ?_, ?_, ?_⟩
    · show (x :: s.newNonce.out).length = _
      rw [ho, List.length_cons]
    · exact hx
    · exact hr
    · exact hf
  case refine_19 =>
    obtain ⟨hr, -, href, -⟩ := s.newNonce_reads
    have hgood : s.respGood 3 g = false := by rw [State.respGood, show lt 2 3 = true from rfl, Bool.true_or, bif_true]
    have hrun : exec (.dbgResp 3 g) s = .next s.newNonce.respRefuse := by
      exact congrArg Host.Outcome.next ((Bool.cond_neg (by rw [ht, Bool.not_true])).trans ((Bool.cond_neg hl).trans (Bool.cond_pos (by
        rw [hgood, Bool.not_false]))))
    obtain ⟨h1, h2, h3, h4⟩ := s.newNonce.respRefuse_reads
    exact ⟨_, hrun, h1.trans (State.get_congr hr _), by rw [h2, href], h3, fun h => h4 (by rwa [href])⟩
  case refine_20 =>
    obtain ⟨h1, h2, h3⟩ := State.debugEnd_reads { s with sec := { s.sec with extest := false } } hd
    exact ⟨_, congrArg Host.Outcome.next (Bool.cond_pos ht), h1, congrArg Security.extest h2, h3⟩
  case refine_21 =>
    exact ⟨_, congrArg Host.Outcome.next (Bool.cond_pos h), rfl, rfl, rfl, rfl⟩
  case refine_22 =>
    exact ⟨_, congrArg Host.Outcome.next (Bool.cond_pos h), rfl, rfl, rfl, rfl⟩
  case refine_23 =>
    exact ⟨s.flag Reg.SEC_STAT_LOCKOUT.z false, rfl, State.on_flag_same _ _ _ (by decide) (by decide), State.flag_sec .., State.flag_mem ..⟩

end Sys2Proof.Machine
end

section
/-!
PROOF of O31: the seam, the intervals, the dump and the weights of the cross-spectral engine (11 R325 to R360).
-/
namespace Sys2Proof.Machine

theorem xspWord_not_event {o : Nat} (h : 0x2C00000 ≤ o) : ¬ eventWord o := not_eventWord (.inr (.inr (by lia)))

/-- `s` with the cross-spectral engine `x`. -/
noncomputable def State.setXsp (s : State) (x : Cross) : State := { s with xsp := x }

theorem State.setXsp_xsp (s : State) (x : Cross) : (s.setXsp x).xsp = x := rfl
theorem State.setXsp_regs (s : State) (x : Cross) : (s.setXsp x).regs = s.regs := rfl
theorem State.setXsp_mem (s : State) (x : Cross) : (s.setXsp x).mem = s.mem := rfl

/-- A spectrum marked absent. -/
theorem State.markAbsent_reads (s : State) (n i h : Nat) :
    (s.markAbsent n i h).xspAbsent n i h = true ∧ (s.markAbsent n i h).mem = s.mem ∧
      (s.markAbsent n i h).get Reg.XSP_ABSENT_COUNT.z = satAdd Reg.XSP_ABSENT_COUNT.w (s.get Reg.XSP_ABSENT_COUNT.z) 1 := by
  obtain ⟨a, ha⟩ : ∃ a, a = s.count Reg.XSP_ABSENT_COUNT.z 1 := ⟨_, rfl⟩
  obtain ⟨b, hb⟩ : ∃ b, b = a.setXsp { a.xsp with absent := ⟨i, h, n⟩ :: a.xsp.absent.filter (fun p => idxNear i p.first) } := ⟨_, rfl⟩
  have habs : b.xspAbsent n i h = true := by
    unfold State.xspAbsent
    rw [hb, State.setXsp_xsp, List.contains_cons, beq_self_eq_true, Bool.true_or]
  have hm : b.mem = s.mem := by rw [hb, State.setXsp_mem, ha, State.count_mem]
  have hc : b.get Reg.XSP_ABSENT_COUNT.z = satAdd Reg.XSP_ABSENT_COUNT.w (s.get Reg.XSP_ABSENT_COUNT.z) 1 := by
    rw [hb, State.get_congr (State.setXsp_regs ..), ha]
    exact State.get_count _ _ _ (by decide)
  have hmark : s.markAbsent n i h = bif !s.xsp.absent.any (fun p => p.first == i && p.hop == h) then b.ev 354 else b := by
    unfold State.markAbsent
    rw [hb]
    unfold State.setXsp
    rw [ha]
  rw [hmark]
  cases !s.xsp.absent.any (fun p => p.first == i && p.hop == h)
  · exact ⟨habs, hm, hc⟩
  · rw [bif_true]
    unfold State.xspAbsent
    rw [State.ev_xsp, State.ev_mem, State.get_ev _ 354 _ (by decide) (xspWord_not_event (by decide))]
    exact ⟨habs, hm, hc⟩

theorem State.close_xsp (s : State) (st : Nat) (r : Record) : (s.close st r).xsp = s.xsp := rfl

/-- Records lost before their dump touch no list of intervals. -/
theorem State.dumpLost_xsp (s : State) (c : XInt) : (s.dumpLost c).xsp = s.xsp := by
  have hdegr : ∀ (t : State) k, (t.degrLoss .cross k).xsp = t.xsp := fun t k => by
    unfold State.degrLoss
    cases t.on Reg.ADM_STAT_DEGR.z
    · rfl
    · rw [bif_true, State.count_xsp]
  unfold State.dumpLost
  extract_lets v xs ps rs kinds nx np body a
  have ha : a = (((s.count Reg.XSP_DUMPLOST_COUNT.z (nx + np)).degrLoss .cross (nx + np)).ev 357).close xs (body nx) := rfl
  clear_value a body nx np
  have hax : a.xsp = s.xsp := by
    rw [ha, State.close_xsp, State.ev_xsp, hdegr, State.count_xsp]
  cases lt 0 np
  · exact hax
  · rw [bif_true, State.close_xsp, hax]

/-- The dump of the old interval is done. -/
theorem State.xspDrained_reads (s : State) (hd : s.xsp.draining = true) (he : s.xsp.ended = []) (hp : s.xsp.dumps = []) :
    s.xspDrained.xsp.draining = false ∧ s.xspDrained.on (evPend 358) = true := by
  have hone : Beside fun t : State => t.xsp.draining :=
    ⟨fun _ _ _ => congrArg _ (State.put_xsp ..), fun _ _ => congrArg _ (State.ev_xsp ..), fun _ _ => rfl⟩
  unfold State.xspDrained
  extract_lets left x a y z b
  have hleft : left = false := by
    show ((s.xsp.ended ++ s.xsp.dumps).any _) = false
    rw [he, hp, List.append_nil, List.any_nil]
  rw [hleft, hd, Bool.not_false, Bool.and_self, bif_true]
  have hb : b.xsp.draining = false := by
    have ha : a.xsp.draining = false := rfl
    have hb : b = bif a.get Reg.XSP_STAT_STATE.z == 3 then
        bif a.on Reg.XSP_CTRL_EN.z then { y with xsp := { z with next := none, since := a.now } } else a.put Reg.XSP_STAT_STATE.z 0
      else a := rfl
    have hz : z.draining = false := ha
    clear_value b y z a
    rw [hb]
    cases a.get Reg.XSP_STAT_STATE.z == 3
    · exact ha
    · cases a.on Reg.XSP_CTRL_EN.z
      · exact (congrArg Cross.draining (State.put_xsp ..)).trans ha
      · exact hz
  clear_value b
  exact ⟨(hone.swapDone _ _).trans (by rw [State.ev_xsp, State.flag_xsp, hb]), (Frame.swapDone _ .cross).pends 358 (by decide) (State.ev_pends ..)⟩

/-- With a swap index not reached the engine stays on its bank. -/
theorem State.xspAtSwap_none (s : State) (h : s.xsp.swapAt = none) : s.xspAtSwap = false := by
  unfold State.xspAtSwap
  rw [h]

/-- The records of a dump slot. -/
theorem slotRecords_keep (l : List (Nat × Record × Nat)) (s : State) :
    (l.foldl (fun s r => (bif lt 0 r.2.2 then (s.count Reg.XSP_SAT_COUNT.z r.2.2).ev 355 else s).close r.1 r.2.1) s).mem = s.mem :=
  foldl_keeps _ State.mem (fun t r => by
    show (bif lt 0 r.2.2 then (t.count Reg.XSP_SAT_COUNT.z r.2.2).ev 355 else t : State).mem = _
    cases lt 0 r.2.2
    · rfl
    · rw [bif_true, State.ev_mem, State.count_mem]) l s

/-- The pin times at index `i` of the selected inputs that have a running series. -/
noncomputable def State.seamTimes (s : State) (i : Nat) : List Int :=
  ((xRanks s.xspView).filter (fun n => !(s.inp n).models.isEmpty)).map (fun n => s.tpin n i)

/-- The check finds these times at index `i` of hop `h`. -/
noncomputable def State.skewSeen (s : State) (i h : Nat) (l : List Int) : State :=
  bif ltI (s.get Reg.XSP_SKEW_TOL.z * 2 ^ 80) ((l.foldl max (l.headD 0) - l.foldl min (l.headD 0)) * 1000000000) then
    { (s.flag Reg.XSP_STAT_SKEW.z true).ev 356 with
      xsp := { s.xsp with skewed := (i, h) :: s.xsp.skewed.filter (fun p => idxNear i p.1) } }
  else s.flag Reg.XSP_STAT_SKEW.z false

theorem exec_seamSkewCheck (s : State) {m : Nat} (hon : s.xspOn = true) (hm : m % 2 ^ 20 = 0) :
    ∃ h, (s.xsp.next.isSome = true → h = s.xsp.hop) ∧
      exec (.seamSkewCheck m) s = .next (s.skewSeen (m * h % idxMod) h (s.seamTimes (m * h % idxMod))) := by
  refine ⟨match s.xsp.next with
    | some _ => s.xsp.hop
    | none => (s.gridNew (xLead s.xspView)).hop (xLead s.xspView) 1, fun h => ?_, ?_⟩
  · obtain ⟨f, hf⟩ := Option.isSome_iff_exists.mp h
    rw [hf]
  · show execSeamSkewCheck m s = _
    unfold execSeamSkewCheck
    dsimp only
    rw [hon, hm, beq_self_eq_true, Bool.and_self, bif_true]
    rfl

/-- Times that do not differ clear SKEW. -/
theorem State.skewSeen_equal (s : State) (i h : Nat) {l : List Int} (hl : l.foldl max (l.headD 0) = l.foldl min (l.headD 0)) :
    s.skewSeen i h l = s.flag Reg.XSP_STAT_SKEW.z false := by
  unfold State.skewSeen
  rw [hl, Int.sub_self, Int.zero_mul]
  unfold ltI
  rw [decide_eq_false (Int.not_lt.mpr (Int.mul_nonneg (Int.natCast_nonneg _) (by decide))), bif_false]

/-- Two times further apart than the tolerance set it. -/
theorem State.skewSeen_apart (s : State) (i h : Nat) {a b : Int}
    (ht : (s.get Reg.XSP_SKEW_TOL.z : Int) * 2 ^ 80 < (a - b) * 1000000000) :
    (s.skewSeen i h [a, b]).on Reg.XSP_STAT_SKEW.z = true ∧ (s.skewSeen i h [a, b]).on (evPend 356) = true ∧
      (s.skewSeen i h [a, b]).xsp.skewed = (i, h) :: s.xsp.skewed.filter (fun p => idxNear i p.1) := by
  have hpos : (0 : Int) ≤ (s.get Reg.XSP_SKEW_TOL.z : Int) * 2 ^ 80 := Int.mul_nonneg (Int.natCast_nonneg _) (by decide)
  have hle : b ≤ a := by
    generalize (s.get Reg.XSP_SKEW_TOL.z : Int) * 2 ^ 80 = z at hpos ht
    lia
  have hspread : ([a, b].foldl max ([a, b].headD 0) - [a, b].foldl min ([a, b].headD 0)) = a - b := by
    rw [List.headD_cons, List.foldl_cons, List.foldl_cons, List.foldl_nil, List.foldl_cons, List.foldl_cons, List.foldl_nil, max_self,
      min_self, max_eq_left hle, min_eq_right hle]
  unfold State.skewSeen
  rw [hspread]
  unfold ltI
  rw [decide_eq_true ht, bif_true]
  obtain ⟨u, hu⟩ : ∃ u, u = (s.flag Reg.XSP_STAT_SKEW.z true).ev 356 := ⟨_, rfl⟩
  have hon : u.on Reg.XSP_STAT_SKEW.z = true := by
    rw [hu, State.on_ev _ 356 _ (by decide) (xspWord_not_event (by decide)), State.on_flag_same _ _ _ (by decide) (by decide)]
  have hp : u.on (evPend 356) = true := by rw [hu]; exact State.ev_pends ..
  rw [← hu]
  exact ⟨hon, hp, rfl⟩

/-- The record of bin `k` leaves for the group of `y`. -/
noncomputable def State.voltSent (s : State) (y : XVolt) (k m : Nat) : State :=
  let volts := s.xsp.volts.map (fun x => bif x.inGroup y m y.count then { x with sent := k :: x.sent } else x)
  (s.close (y.view.get Reg.XSP_BCTRL_VSTREAM.z) (s.beamVolt y (s.xsp.volts.filter (fun x => x.inGroup y m y.count)) k m)).setXsp
    { s.xsp with volts := volts.filter (fun x => lt x.sent.length (xCount x.view)) }

/-- Settles O31: each clause is the rule of its command. -/
theorem crossSpectralCommandsComplete : Obligations.CrossSpectralCommandsComplete := by
  refine ⟨fun s n m hon hc g i hf => ?_, fun s n m hon hm hr => ?_, fun s m n k f hon hm hf hr hn hk ht => ?_,
    fun s m full i h l hs hon hst hw hn hr ha => ?_, fun s => ?_, fun s c l he => ?_, fun s c l hd hlen => ?_, fun s k m y hg hd => ?_,
    fun s v hf hw => ?_, fun s hs ha => ?_, fun s hd he hp => ?_⟩
  case refine_1 =>
    obtain ⟨h1, h2, h3⟩ := s.markAbsent_reads n i (g.hop n 1)
    refine ⟨_, ?_, h1, h2, h3⟩
    show execSeamAbsentDeadline n m s = _
    unfold execSeamAbsentDeadline
    rw [hon, hc, Bool.and_self, bif_true, hf]
  case refine_2 =>
    obtain ⟨h, -, hrun⟩ := exec_seamSkewCheck s hon hm
    refine ⟨_, hrun, ?_⟩
    rw [s.skewSeen_equal _ _ (by
      unfold State.seamTimes
      rw [hr, List.filter_cons]
      split
      · exact (max_self _).trans (min_self _).symm
      · rfl)]
    exact ⟨State.on_flag_same _ _ _ (by decide) (by decide), State.flag_xsp ..⟩
  case refine_3 =>
    obtain ⟨h, hh, hrun⟩ := exec_seamSkewCheck s hon hm
    rw [hh (by rw [hf]; rfl)] at hrun
    have htimes : s.seamTimes (m * s.xsp.hop % idxMod) =
        [s.tpin n (m * s.xsp.hop % idxMod), s.tpin k (m * s.xsp.hop % idxMod)] := by
      unfold State.seamTimes
      rw [hr, List.filter_cons, List.isEmpty_eq_false_iff.mpr hn, List.filter_cons, List.isEmpty_eq_false_iff.mpr hk]
      rfl
    rw [htimes] at hrun
    exact ⟨_, hrun, s.skewSeen_apart _ _ ht⟩
  case refine_4 =>
    have hgo : (s.xsp.next.isSome || s.xspFirst s.xspView m i) = true := by
      rcases hn with h | h
      · rw [h, Bool.true_or]
      · rw [h, Bool.or_true]
    show execSeamCellRelease m full s = _
    rw [execSeamCellRelease, s.xspAtSwap_none hs, Bool.and_false, bif_false, hw]
    dsimp only
    rw [hon, bne_iff_ne.mpr hst, hgo, List.isEmpty_eq_false_iff.mpr hr, ha, Bool.not_false, Bool.and_self, Bool.and_self, Bool.and_self,
      Bool.and_self, bif_true]
  case refine_5 =>
    exact ⟨_, rfl, rfl, rfl⟩
  case refine_6 =>
    obtain ⟨t, ht⟩ : ∃ t, t = bif c.short then (s.count Reg.XSP_SHORT_COUNT.z 1).ev 352 else s := ⟨_, rfl⟩
    have hx : t.xsp = s.xsp := by
      rw [ht]
      cases c.short
      · rfl
      · rw [bif_true, State.ev_xsp, State.count_xsp]
    obtain ⟨u, hu⟩ : ∃ u, u = (t.xsp.dumps.filter (fun d => d.run == c.run)).foldl State.dumpLost t := ⟨_, rfl⟩
    have hux : u.xsp = s.xsp := by
      rw [hu]
      exact (foldl_keeps _ State.xsp State.dumpLost_xsp _ t).trans hx
    refine ⟨{ u with xsp := { u.xsp with ended := l, dumps := u.xsp.dumps.filter (fun d => d.run != c.run) ++ [c.settle] } }, ?_, rfl, ?_⟩
    · show execXspIntervalClose s = _
      unfold execXspIntervalClose
      rw [he]
      dsimp only
      rw [← ht, ← hu]
    · show u.xsp.dumps.filter _ ++ _ = _
      rw [hux]
  case refine_7 =>
    obtain ⟨u, hu⟩ : ∃ u, u = (s.slotRecords c c.slot).foldl
      (fun s r => (bif lt 0 r.2.2 then (s.count Reg.XSP_SAT_COUNT.z r.2.2).ev 355 else s).close r.1 r.2.1) s := ⟨_, rfl⟩
    have hum : u.mem = s.mem := by
      rw [hu]
      exact slotRecords_keep _ s
    refine ⟨{ (u.close (c.view.get Reg.XSP_DEST_XSTREAM.z) (u.xstat c)) with
      xsp := { (u.close (c.view.get Reg.XSP_DEST_XSTREAM.z) (u.xstat c)).xsp with dumps := l } }, ?_, rfl, hum⟩
    show execDumpSlot s = _
    unfold execDumpSlot
    rw [hd]
    dsimp only
    rw [← hu, show lt (c.slot + 1) (xTiles c.view).length = false from decide_eq_false (Nat.not_lt.mpr hlen), bif_false]
    rfl
  case refine_8 =>
    have hrun : exec (.beamvoltEmit k m) s = .next (s.voltSent y k m) := by
      show execBeamvoltEmit k m s = _
      unfold execBeamvoltEmit
      rw [hg]
      dsimp only
      rw [hd, bif_true]
      rfl
    refine ⟨_, hrun, rfl, ?_, rfl, rfl⟩
    · refine List.all_eq_true.mpr fun x hx => ?_
      obtain ⟨z, -, rfl⟩ := List.mem_map.mp (List.mem_filter.mp hx).1
      cases hz : z.inGroup y m y.count
      · rw [bif_false, hz]
        rfl
      · rw [bif_true]
        show (!_ || (k :: z.sent).contains k) = true
        rw [List.contains_cons, beq_self_eq_true, Bool.true_or, Bool.or_true]
  case refine_9 =>
    refine ⟨({ s with xsp := { s.xsp with staged := tset (fun _ => 0) s.xsp.staged (s.get (Reg.XSP_WPTR_PTR.z.staged .cross)) v.toNat } } : State).put
      (Reg.XSP_WPTR_PTR.z.staged .cross) (s.get (Reg.XSP_WPTR_PTR.z.staged .cross) + 1), ?_, ?_, ?_⟩
    · show execXspWdataWrite v s = _
      rw [execXspWdataWrite]
      dsimp only
      rw [hf, bif_false, hw, bif_true]
    · rw [State.put_xsp]
      exact tget_tset_same ..
    · exact State.get_put_same _ _ _ (by decide)
  case refine_10 =>
    show execXspSwap s = _
    unfold execXspSwap
    rw [hs, ha, Bool.and_self, bif_true]
  case refine_11 =>
    exact ⟨_, rfl, s.xspDrained_reads hd he hp⟩

end Sys2Proof.Machine
end

section
/-!
PROOF. APPLY of a stored delay (18 R558, R565).
-/
namespace Sys2Proof.Machine

/-- A stored result of ALIGN for input 0 whose delay does not fit TB_INDELAY. -/
noncomputable def longDelay : CalResult := ⟨0, 0, false, 0, 0, 0, [], 2 ^ 40, (0, 0)⟩

/-- The state after reset with that result stored. -/
noncomputable def delayStored : State := { State.reset with stm := { Stim.reset with kept := [longDelay], keptOp := 2 } }

/-- The delay of input 0 after a command. -/
noncomputable def delayAfter (r : Res) : Nat :=
  match r with
  | .next t => t.get (Reg.TB_INDELAY_DELAY.e 0)
  | _ => 0

set_option maxRecDepth 4000 in
/-- Refutes O51: the statement speaks of every stored delay, and one of 2 ^ 40 is written saturated (00 R17), as 2 ^ 31 − 1, where its
low 32 bits are 0. -/
theorem not_stimulusAndCalibrationCommandsComplete : ¬ Obligations.StimulusAndCalibrationCommandsComplete := by
  rintro ⟨-, -, -, -, -, -, -, -, -, -, -, h, -⟩
  obtain ⟨t, ht, hdelay, -⟩ := h delayStored longDelay rfl rfl rfl rfl (by decide)
  have hread : delayAfter (exec .calApply delayStored) = 2 ^ 31 - 1 := by decide
  rw [ht] at hread
  exact absurd (hdelay.symm.trans hread) (by decide)

end Sys2Proof.Machine
end

section
/-!
SUPPORT. What the root PLL's state (20 R603 to R606) and the reference monitor (03 R97 to R101) write.
-/
namespace Sys2Proof.Machine

/-- The places that a change of the root PLL's state may write, a forced entry to Sleep included, and the reference monitor's PEND. -/
abbrev clockPlaces (l : Loc) : Prop :=
  l ∈ [Reg.CLK_STAT_STATE.z, Reg.REF_STAT_PEND.z, Reg.REF_STAT_BYPASS.z, Reg.ADM_CLK_FRUN.z, Reg.CLK_AUX0_STATE.e 0, Reg.CLK_AUX0_STATE.e 1, Reg.CLK_CNT_BYP.z,
    Reg.PWR_STAT_CAUSE.z, Reg.PWR_STAT_HELD.z, Reg.PWR_STAT_TRANS.z, Reg.THM_STAT_STATE.z,
    Reg.TB_STATUS_PPS.z, Reg.TB_STATUS_SETPEND.z, Reg.TB_CORR_CORR.z, Reg.TB_STATUS_TQ.z]

theorem clockPlaces.plain {l : Loc} (h : clockPlaces l) : ¬ eventWord l.off :=
  not_eventWord (by revert l; decide)

namespace Frame

/-- A record update that leaves the registers. -/
theorem update {W : Loc → Prop} {s t : State} (h : Frame W s t)
    {fc ou ct tb ing fr fi de tu ad cl pw tr me ms rc xs tl dm st pa ds sm se cd pe} :
    Frame W s (State.mk t.regs fc ou ct tb ing fr fi de tu ad cl pw tr me ms rc xs tl dm st pa ds sm se cd pe) :=
  h.before (show t.regs = State.regs (State.mk ..) from rfl)

theorem putClk (s : State) {l : Loc} (v : Nat) (h : clockPlaces l) : Frame clockPlaces s (s.put l v) := put s v h h.plain

theorem tbSync (s : State) : Frame clockPlaces s s.tbSync :=
  (of_regs (s.tqNote_regs false)).trans <| (putClk _ _ (by decide)).trans <| (putClk _ _ (by decide)).trans <|
    (putClk _ _ (by decide)).trans (putClk _ _ (by decide))

theorem tbSet (s : State) (t : TimeBase) : Frame clockPlaces s (s.tbSet t) := after (s := { s with tb := t }) (tbSync _) rfl

theorem auxTo (s : State) {k : Nat} (v : Nat) (hk : k < 2) : Frame clockPlaces s (s.auxTo k v) := by
  have hp : clockPlaces (Reg.CLK_AUX0_STATE.e k) := by
    obtain rfl | rfl : k = 0 ∨ k = 1 := by lia
    all_goals decide
  exact cond _ (refl s) ((putClk s v hp).trans (ev _ (by lia)))

theorem auxSync (s : State) : Frame clockPlaces s s.auxSync :=
  cond _ ((auxTo s 0 (by decide)).trans (auxTo _ 0 (by decide))) <| foldl_mem _ (fun a _ hk =>
    cond _ (auxTo a 3 (List.mem_range.mp hk)) (cond _ (auxTo a 2 (List.mem_range.mp hk)) (refl a))) s

theorem clkState (s : State) (v : Nat) : Frame clockPlaces s (s.clkState v) :=
  cond _ (refl s) <| (putClk s v (by decide)).trans <| (ev _ (by decide)).trans <|
    (cond _ (ev _ (by decide)) (refl _)).trans <| (putClk _ _ (by decide)).trans <| (putClk _ _ (by decide)).trans <|
    (auxSync _).trans (tbSync _)

theorem forceSleep (s : State) (c : Nat) : Frame clockPlaces s (s.forceSleep c) := by
  unfold State.forceSleep
  extract_lets +onlyGivenNames _ a
  have ha : Frame clockPlaces s a := (refl s).update
  clear_value a
  extract_lets +onlyGivenNames b
  have hb : Frame clockPlaces s b := ha.trans ((putClk _ c (by decide)).trans (putClk _ _ (by decide)))
  clear_value b
  extract_lets +onlyGivenNames d
  have hd : Frame clockPlaces s d := hb.trans (cond _ ((putClk _ 3 (by decide)).trans (ev _ (by decide))) (refl _))
  clear_value d
  refine cond _ hd ?_
  extract_lets +onlyGivenNames e
  have he : Frame clockPlaces s e := hd.trans ((putClk _ _ (by decide)).trans (ev _ (by decide)))
  clear_value e
  exact he.update

theorem enterBypass (s : State) : Frame clockPlaces s s.enterBypass := by
  unfold State.enterBypass
  refine cond _ (refl s) ?_
  extract_lets +onlyGivenNames a
  have ha : Frame clockPlaces s a := (clkState s 0).trans ((putClk _ _ (by decide)).trans (ev _ (by decide)))
  clear_value a
  extract_lets +onlyGivenNames _ b
  have hb : Frame clockPlaces s b := ha.update
  clear_value b
  exact cond _ (hb.trans (forceSleep b 1)) hb

theorem refCause (s : State) : Frame clockPlaces s s.refCause :=
  cond _ (cond _ (clkState s 4) (enterBypass s)) (refl s)

theorem lossRule (s : State) : Frame clockPlaces s s.lossRule := cond _ (refCause s) (refl s)

theorem evalSwitch (s : State) : Frame clockPlaces s s.evalSwitch := by
  unfold State.evalSwitch
  cases s.switchTarget with
  | none => exact lossRule s
  | some o => exact cond _ (lossRule s) (tbSet s _)

theorem holdEnd (s : State) : Frame clockPlaces s s.holdEnd := cond _ (clkState s 2) (refl s)

theorem manualPend (s : State) : Frame clockPlaces s s.manualPend := putClk s _ (by decide)

end Frame

end Sys2Proof.Machine
end
section
/-!
SUPPORT. PPS edges and misses (03 R90 to R96), gates, bands, loss and return of a reference, and the switch-over (R97 to R101).
-/
namespace Sys2Proof.Machine

/-! ### PPS -/

/-- A time base whose record of TQ is `l`. -/
noncomputable def TimeBase.logged (t : TimeBase) (l : List (Nat × Nat × Nat)) : TimeBase := { t with tqLog := l }

/-- The status registers follow the time base; only the record of TQ may gain a value. -/
theorem State.tbSync_tb (s : State) : ∃ l, s.tbSync.tb = s.tb.logged l := by
  obtain ⟨l, hl⟩ := s.tqNote_eq false
  refine ⟨l, ?_⟩
  unfold State.tbSync
  rw [State.put_tb, State.put_tb, State.flag_tb, State.put_tb, hl]
  rfl

theorem State.tbSet_tb (s : State) (t : TimeBase) : ∃ l, (s.tbSet t).tb = t.logged l := State.tbSync_tb _

@[simp] theorem State.lockChange_tb (s : State) (was : Bool) : (s.lockChange was).tb = s.tb := by
  unfold State.lockChange
  cases s.tb.locked == was
  · rw [bif_false, State.ev_tb]
  · rw [bif_true]

theorem Frame.lockChange (s : State) (was : Bool) : Frame clockPlaces s (s.lockChange was) :=
  .cond _ (.refl s) (.ev s (by decide))

/-- An accepted edge that no set waits for, under free running, becomes the last accepted one. -/
theorem State.ppsAccept_free {s : State} (stamp raw : Nat) (ha : s.tb.armed = none) (hd : s.disc = 0) :
    (s.ppsAccept stamp raw).tb.ppsLast = some raw ∧ (s.ppsAccept stamp raw).tb.ppsMisses = 0 ∧
      (s.ppsAccept stamp raw).tb.c = s.tb.c := by
  unfold State.ppsAccept
  extract_lets +onlyGivenNames _ t _ _ _ _ u x due loop stepDue _ _ y
  have hu : u.disc = 0 := (State.get_put_apart s _ (by decide)).trans hd
  have hdue : due = false := by simp only [due, x, t, ha]
  have hloop : loop = false := by simp only [loop, hu]; rfl
  have hstep : stepDue = false := by simp only [stepDue, hu]; rfl
  have hy : y = x := by simp only [y, hu]; rfl
  rw [hdue, hloop, hstep, bif_false, bif_false, bif_false, hy, State.lockChange_tb]
  obtain ⟨l, h⟩ := u.tbSet_tb x
  rw [h]
  exact ⟨rfl, rfl, rfl⟩

theorem exec_ppsEdge {s : State} {pol : Bool} (stamp raw : Nat) (h : s.on Reg.TB_CTRL_PPS_POL.z = pol) :
    exec (.ppsEdge pol stamp raw) s = .next (bif ppsAccepts s.tb raw (ns48 (s.get Reg.TB_PPS_TOL.z)) then
      s.ppsAccept (s.quantised stamp) raw else (s.count Reg.TB_PPS_SPOIL.z 1).raise 20 (s.quantised stamp)) := by
  show execPpsEdge pol stamp raw s = _
  rw [execPpsEdge, h, beq_self_eq_true, bif_true]

/-- The time base after a miss of PPS, of which the second in a row ends qualification and lock (R90). -/
noncomputable def ppsMissed (t : TimeBase) : TimeBase :=
  if 2 ≤ t.ppsMisses + 1 then
    { t with ppsMisses := t.ppsMisses + 1, ppsQualified := false, ppsRun := 0, locked := false, goodRun := 0, badRun := 0,
             largeRun := 0, gateAt := none }
  else { t with ppsMisses := t.ppsMisses + 1 }

theorem ppsMissed_second {t : TimeBase} (h : 1 ≤ t.ppsMisses) :
    (ppsMissed t).ppsQualified = false ∧ (ppsMissed t).locked = false := by
  unfold ppsMissed
  rw [if_pos (by lia)]
  exact ⟨rfl, rfl⟩

theorem ppsMissed_first {t : TimeBase} (h : t.ppsMisses = 0) :
    (ppsMissed t).ppsQualified = t.ppsQualified ∧ (ppsMissed t).ppsMisses = 1 := by
  unfold ppsMissed
  rw [if_neg (by lia)]
  exact ⟨rfl, congrArg (· + 1) h⟩

theorem exec_ppsMiss {s : State} (hl : s.tb.ppsLast.isSome = true) : ∃ t, exec .ppsMiss s = .next t ∧
    (∃ l, t.tb = (ppsMissed s.tb).logged l) ∧ t.on (evPend 19) = true := by
  obtain ⟨l, h⟩ := s.tbSet_tb (ppsMissed s.tb)
  refine ⟨((s.tbSet (ppsMissed s.tb)).ev 19).lockChange s.tb.locked, ?_, ⟨l, by rw [State.lockChange_tb, State.ev_tb, h]⟩,
    Frame.pended (by decide) (Frame.lockChange _ _)⟩
  show execPpsMiss s = _
  rw [execPpsMiss, hl, bif_true]
  rfl

/-! ### The length of a gate (R97) -/

/-- Whole seconds divide out exactly. -/
theorem rndDiv_mul (n : Int) {b : Int} (hb : 0 < b) : rndDiv (n * b) b = n := by
  have hq : n * b / b = n := Int.mul_ediv_cancel n hb.ne'
  simp [rndDiv, hq, hb]

theorem State.gateOver_qualified {s : State} (bypass : Int) {a n : Nat} (hq : s.tb.ppsQualified = true)
    (ha : s.tb.gateAt = some a) (hl : s.tb.ppsLast = some (a + n * 2 ^ 48)) :
    s.gateOver bypass = if n < 2 ^ s.get Reg.REF_CFG_GATE.z then none else some (n, 0) := by
  have hd : ((a + n * 2 ^ 48 : Nat) : Int) - a = n * 2 ^ 48 := by rw [Nat.cast_add, add_sub_cancel_left]; rfl
  have hs : (rndDiv ((n : Int) * 2 ^ 48) (2 ^ 48)).toNat = n := by rw [rndDiv_mul _ (by norm_num)]; rfl
  have hz : rndDiv 0 ((n : Int) * 2 ^ 8) = 0 := by unfold rndDiv; rw [Int.zero_ediv]; simp
  unfold State.gateOver
  rw [hq, ha, hl]
  simp only [hd, hs, Bool.not_true, sub_self, hz, lt, cond_eq_ite, decide_eq_true_eq, Bool.false_eq_true, if_false]

/-! ### Bands and qualification (R98, R99) -/

/-- The root PLL's state shares no bit with a reference's band or qualification, which are no event word. -/
theorem bandLoc_facts (r : Nat) : (∀ l, clockPlaces l → l.apart (bandLoc r) ∧ l.apart (qualLoc r)) ∧
    ¬ eventWord (bandLoc r).off ∧ ¬ eventWord (qualLoc r).off ∧ (qualLoc r).apart (bandLoc r) ∧
    (bandLoc r).lo + (bandLoc r).w ≤ 32 ∧ (bandLoc r).w = 2 ∧ (qualLoc r).lo + (qualLoc r).w ≤ 32 ∧ 1 ≤ (qualLoc r).w := by
  unfold bandLoc qualLoc eventWord
  split
  · decide
  · decide

theorem Frame.band {s t : State} (h : Frame clockPlaces s t) (r : Nat) :
    t.get (bandLoc r) = s.get (bandLoc r) ∧ t.on (qualLoc r) = s.on (qualLoc r) := by
  obtain ⟨hl, hb, hq, _⟩ := bandLoc_facts r
  exact ⟨h.get _ hb fun l hm => (hl l hm).1, h.on _ hq fun l hm => (hl l hm).2⟩

/-- A band takes its value. -/
theorem State.setBand_band (s : State) {r b : Nat} (hr : r < 2) (hb : b < 4) : (s.setBand r b).get (bandLoc r) = b := by
  obtain ⟨_, he, _, _, hf, hw, _⟩ := bandLoc_facts r
  unfold State.setBand
  cases h : s.get (bandLoc r) == b
  · rw [bif_false, ((Frame.tbSync _).band r).1, State.get_ev _ _ _ (by lia) he, State.get_put_same _ _ _ hf, hw]
    exact Nat.mod_eq_of_lt hb
  · exact eq_of_beq h

/-- A lost reference is in band LOST and not qualified. -/
theorem exec_refLost (s : State) (refB : Bool) :
    ∃ t, exec (.refLost refB) s = .next t ∧ t.get (bandLoc (b2n refB)) = 3 ∧ t.on (qualLoc (b2n refB)) = false := by
  have hr : b2n refB < 2 := by cases refB <;> decide
  refine ⟨_, rfl, ?_⟩
  generalize b2n refB = r at hr
  generalize ({ s with tb := _ } : State) = a
  obtain ⟨_, _, _, hqb, _, _, hf, hw⟩ := bandLoc_facts r
  have hb : ((a.setBand r 3).flag (qualLoc r) false).manualPend.get (bandLoc r) = 3 := by
    rw [((Frame.manualPend _).band r).1, State.get_flag_apart _ _ hqb, State.setBand_band a hr (by decide)]
  have hq : ((a.setBand r 3).flag (qualLoc r) false).manualPend.on (qualLoc r) = false := by
    rw [((Frame.manualPend _).band r).2, State.on_flag_same _ _ _ hf hw]
  generalize ((a.setBand r 3).flag (qualLoc r) false).manualPend = c at hb hq
  have hw : Frame clockPlaces c (bif c.activeRef == r then c.evalSwitch else c) := .cond _ (.evalSwitch c) (.refl c)
  generalize (bif c.activeRef == r then c.evalSwitch else c) = d at hw
  have hw' : Frame clockPlaces c (bif d.get (bandLoc 0) == 3 && d.get (bandLoc 1) == 3 then
      { d with clk := { d.clk with outputs := [] } } else d) := .cond _ hw.update hw
  exact ⟨(hw'.band r).1.trans hb, (hw'.band r).2.trans hq⟩

/-- A lost reference that returns is in band OUT. -/
theorem exec_referenceReturn {s : State} {refB : Bool} (h : s.get (bandLoc (b2n refB)) = 3) :
    ∃ t, exec (.referenceReturn refB) s = .next t ∧ t.get (bandLoc (b2n refB)) = 2 := by
  have hr : b2n refB < 2 := by cases refB <;> decide
  obtain ⟨a, ha⟩ : ∃ a : State, a = { s with tb := setMon s.tb (b2n refB) ⟨0, 0, 0, true⟩ } := ⟨_, rfl⟩
  obtain ⟨w, hw⟩ : ∃ w, w = ((a.setBand (b2n refB) 2).on Reg.REF_STAT_PEND.z &&
      (a.setBand (b2n refB) 2).get Reg.REF_CFG_PREF.z == b2n refB) := ⟨_, rfl⟩
  obtain ⟨x, hx⟩ : ∃ x : TimeBase, x = { (a.setBand (b2n refB) 2).tb with switchTo := some (b2n refB) } := ⟨_, rfl⟩
  have hx : exec (.referenceReturn refB) s =
      .next (bif w then (a.setBand (b2n refB) 2).tbSet x else a.setBand (b2n refB) 2).manualPend.startOutputs := by
    show execReferenceReturn refB s = _
    rw [execReferenceReturn, h, hx, hw, ha]
    rfl
  have hw : Frame clockPlaces (a.setBand (b2n refB) 2)
      (bif w then (a.setBand (b2n refB) 2).tbSet x else a.setBand (b2n refB) 2).manualPend.startOutputs :=
    (Frame.cond _ (.tbSet _ x) (.refl _)).trans ((Frame.manualPend _).trans (.of_regs rfl))
  exact ⟨_, hx, (hw.band _).1.trans (a.setBand_band hr (by decide))⟩

/-! ### The switch-over (R100, R101) -/

theorem State.tbSync_switchTo (s : State) : s.tbSync.tb.switchTo = s.tb.switchTo := by
  obtain ⟨l, h⟩ := s.tbSync_tb
  rw [h]
  rfl

theorem State.auxTo_tb (s : State) (k v : Nat) : (s.auxTo k v).tb = s.tb := by
  unfold State.auxTo
  cases s.get (Reg.CLK_AUX0_STATE.e k) == v
  · rw [bif_false, State.ev_tb, State.put_tb]
  · rw [bif_true]

theorem State.auxSync_tb (s : State) : s.auxSync.tb = s.tb := by
  unfold State.auxSync
  cases le (s.get Reg.CLK_STAT_STATE.z) 1
  · rw [bif_false]
    refine foldl_keeps _ State.tb (fun a k => ?_) _ s
    rw [Bool.apply_cond State.tb, Bool.apply_cond State.tb, State.auxTo_tb, State.auxTo_tb, Bool.cond_self, Bool.cond_self]
  · rw [bif_true]
    unfold State.auxOff
    rw [State.auxTo_tb, State.auxTo_tb]

theorem State.holdEnd_switchTo (s : State) : s.holdEnd.tb.switchTo = s.tb.switchTo := by
  have hev (c : Bool) (a : State) : (bif c then a.ev 34 else a).tb = a.tb := by
    rw [Bool.apply_cond State.tb, State.ev_tb, Bool.cond_self]
  have hclk : (s.clkState 2).tb.switchTo = s.tb.switchTo := by
    unfold State.clkState
    dsimp only
    cases s.get Reg.CLK_STAT_STATE.z == 2
    · rw [bif_false, State.tbSync_switchTo, State.auxSync_tb]
      unfold State.frunSync
      rw [State.put_tb, State.flag_tb, hev, State.ev_tb, State.put_tb]
    · rw [bif_true]
  unfold State.holdEnd
  rw [Bool.apply_cond State.tb, Bool.apply_cond TimeBase.switchTo, hclk, Bool.cond_self]

/-- The switch-over makes the decided reference active and counts it. -/
theorem exec_refSwitchover {s : State} {o : Nat} (hs : s.tb.switchTo = some o) (ho : o < 2) :
    ∃ t, exec .refSwitchover s = .next t ∧ t.activeRef = o ∧ t.tb.switchTo = none ∧ t.on (evPend 18) = true ∧
      t.get Reg.REF_STAT_SWCNT.z = (s.get Reg.REF_STAT_SWCNT.z + 1) % 2 ^ Reg.REF_STAT_SWCNT.w := by
  obtain ⟨a, ha⟩ : ∃ a, a = s.tbSet { s.tb with switchTo := none, bridge := true } := ⟨_, rfl⟩
  obtain ⟨b, hb⟩ : ∃ b, b = (a.put Reg.REF_STAT_ACTIVE.z o).wrap Reg.REF_STAT_SWCNT.z 1 := ⟨_, rfl⟩
  have hx : ∃ c, exec .refSwitchover s = .next (((bif c then b.ev 18 else (upto 2).foldl (fun s k =>
      bif le 2 (s.get (Reg.CLK_AUX0_STATE.e k)) then s.auxTo k 1 else s) (b.ev 18)).holdEnd).manualPend.tbSync) := by
    refine ⟨(b.ev 18).fref == s.fref, ?_⟩
    show execRefSwitchover s = _
    unfold execRefSwitchover
    rw [hs]
    subst hb ha
    rfl
  obtain ⟨c, hx⟩ := hx
  generalize hd : (bif c then b.ev 18 else (upto 2).foldl (fun s k =>
      bif le 2 (s.get (Reg.CLK_AUX0_STATE.e k)) then s.auxTo k 1 else s) (b.ev 18)) = d at hx
  have hf : Frame clockPlaces (b.ev 18) d.holdEnd.manualPend.tbSync := by
    refine Frame.trans ?_ ((Frame.holdEnd d).trans ((Frame.manualPend _).trans (.tbSync _)))
    subst hd
    exact .cond _ (.refl _) (.foldl_mem _ (fun a _ hk => .cond _ (.auxTo a 1 (List.mem_range.mp hk)) (.refl a)) _)
  have hn : d.tb.switchTo = none := by
    have hfold : ((upto 2).foldl (fun s k => bif le 2 (s.get (Reg.CLK_AUX0_STATE.e k)) then s.auxTo k 1 else s) (b.ev 18)).tb =
        (b.ev 18).tb := by
      refine foldl_keeps _ State.tb (fun a k => ?_) _ _
      rw [Bool.apply_cond State.tb, State.auxTo_tb, Bool.cond_self]
    obtain ⟨l, h⟩ := s.tbSet_tb { s.tb with switchTo := none, bridge := true }
    rw [← hd, Bool.apply_cond State.tb, hfold, Bool.cond_self, State.ev_tb, hb]
    unfold State.wrap
    rw [State.put_tb, State.put_tb, ha, h]
    rfl
  have hf' : Frame clockPlaces b d.holdEnd.manualPend.tbSync := (Frame.ev b (by decide)).trans hf
  refine ⟨_, hx, ?_, ?_, hf.pended (by decide), ?_⟩
  · unfold State.activeRef
    rw [hf'.get _ (not_eventWord (by decide)) (by decide), hb]
    unfold State.wrap
    rw [State.get_put_apart _ _ (by decide), State.get_put_same _ _ _ (by decide)]
    exact Nat.mod_eq_of_lt ho
  · rw [State.tbSync_switchTo]
    unfold State.manualPend
    rw [State.flag_tb, State.holdEnd_switchTo, hn]
  · rw [hf'.get _ (not_eventWord (by decide)) (by decide), hb]
    unfold State.wrap
    rw [State.get_put_same _ _ _ (by decide), State.get_put_apart _ _ (by decide), ha, (Frame.tbSet s _).get _ (not_eventWord (by decide)) (by decide)]
    rfl

end Sys2Proof.Machine
end
section
/-!
PROOF of O14.
-/
namespace Sys2Proof.Machine

theorem exec_tbAdjRateWrite {s : State} (v : Word) (hd : s.disc = 2) : ∃ t, exec (.tbAdjRateWrite v) s = .next t ∧
    t.tb.cNext = some (v.toInt * 2 ^ 23) ∧ t.tb.softFresh = true := by
  have hd' : (s.put Reg.TB_ADJ_RATE_RATE.z v.toNat).disc = 2 := (State.get_put_apart s _ (by decide)).trans hd
  obtain ⟨u, hu⟩ : ∃ u, u = s.put Reg.TB_ADJ_RATE_RATE.z v.toNat := ⟨_, rfl⟩
  obtain ⟨x, hx⟩ : ∃ x : TimeBase, x = { u.tb with cNext := some (v.toInt * 2 ^ 23), softFresh := true, softLast := some u.now } :=
    ⟨_, rfl⟩
  have he : exec (.tbAdjRateWrite v) s = .next (u.tbSet x) := by
    show execTbAdjRateWrite v s = _
    rw [execTbAdjRateWrite, hd', sext_toNat, hx, hu]
    rfl
  obtain ⟨l, h⟩ := u.tbSet_tb x
  exact ⟨_, he, by rw [h, hx]; rfl, by rw [h, hx]; rfl⟩

theorem exec_softDiscStale {s : State} (hd : s.disc = 2) (hf : s.tb.softFresh = true) : ∃ t, exec .softDiscStale s = .next t ∧
    t.tb.softFresh = false ∧ t.on (evPend 27) = true := by
  obtain ⟨x, hx⟩ : ∃ x : TimeBase, x = { s.tb with softFresh := false } := ⟨_, rfl⟩
  have he : exec .softDiscStale s = .next ((s.tbSet x).ev 27) := by
    show execSoftDiscStale s = _
    unfold execSoftDiscStale
    rw [hd, hf, hx, beq_self_eq_true, Bool.and_self, bif_true]
  obtain ⟨l, h⟩ := s.tbSet_tb x
  exact ⟨_, he, by rw [State.ev_tb, h, hx]; rfl, State.ev_pends _ 27⟩

/-- Settles O14: each clause is the lemma about its command; a new time base is read through `State.tbSet_tb`. -/
theorem ppsReferenceAndRateCommandsComplete : Obligations.PpsReferenceAndRateCommandsComplete := by
  refine ⟨fun s pol stamp raw hp ha => ⟨_, exec_ppsEdge stamp raw hp, ?_⟩, fun s pol stamp raw hp => ?_,
    fun s pol stamp raw hp ha hn hd => ⟨_, exec_ppsEdge stamp raw hp, ?_⟩, fun s hl h1 => ?_, fun s hl h0 => ?_,
    fun s v hd => ?_, fun s hd hf => ?_, fun s count n bypass y hg => ?_, fun s bypass hq => ?_,
    fun s bypass a l n hq ha hl he => State.gateOver_qualified bypass hq ha (hl.trans (congrArg some he)), exec_refLost,
    fun s o => exec_refSwitchover, fun s b => exec_referenceReturn⟩
  · rw [ha, bif_false]
    exact ⟨(PendKept.raise _ 20 _).2, by rw [State.raise_tb, State.count_tb]⟩
  · show execPpsEdge pol stamp raw s = _
    rw [execPpsEdge, beq_false_of_ne hp, bif_false]
  · rw [ha, bif_true]
    exact State.ppsAccept_free _ raw hn hd
  · obtain ⟨t, hx, ⟨l, ht⟩, hp⟩ := exec_ppsMiss hl
    obtain ⟨hq, hk⟩ := ppsMissed_second h1
    exact ⟨t, hx, by rw [ht]; exact hq, by rw [ht]; exact hk, hp⟩
  · obtain ⟨t, hx, ⟨l, ht⟩, hp⟩ := exec_ppsMiss hl
    obtain ⟨hq, hm⟩ := ppsMissed_first h0
    exact ⟨t, hx, by rw [ht]; exact hq, by rw [ht]; exact hm, hp⟩
  · exact exec_tbAdjRateWrite v hd
  · exact exec_softDiscStale hd hf
  · show execRefGateEnd count bypass s = _
    unfold execRefGateEnd
    rw [hg]
  · unfold State.gateOver
    rw [hq]
    rfl

end Sys2Proof.Machine
end

section
/-!
SUPPORT. Where a tile's registers lie (12 R406), and what setting a TIP bit or an event bit of a tile leaves (R377, R407).
-/
namespace Sys2Proof.Machine

/-- The dimensions of a tile's own registers. -/
noncomputable def tileDims : List (Nat × Nat) := [(0x100000, 8), (0x10000, 8)]

/-- Registers of a tile are apart as their fields are. -/
theorem tile_apart {f g : Fld} (n : Nat) (hf : f.dims = tileDims) (hg : g.dims = tileDims) (h : f.z.apart g.z) :
    (f.t n).apart (g.t n) := by
  refine h.imp (fun ho he => ho ?_) id
  rw [Fld.t_off, Fld.t_off, hf, hg] at he
  exact Nat.add_right_cancel he

/-- Array registers of a tile at one index are apart as their fields are. -/
theorem tileArray_apart {f g : Fld} (n k : Nat) (hd : f.dims = g.dims) (h : f.z.apart g.z) : (f.tk n k).apart (g.tk n k) := by
  refine h.imp (fun ho he => ho ?_) id
  rw [Fld.tk_off, Fld.tk_off, hd] at he
  exact Nat.add_right_cancel he

/-- An array register lies in another word than a register below it. -/
theorem tileArray_off {f g : Fld} {c d : Nat} (n k : Nat) (hf : f.dims = [(0x100000, 8), (0x10000, 8), (c, d)]) (hg : g.dims = tileDims)
    (h : g.off < f.off) : (g.t n).off < (f.tk n k).off := by
  rw [Fld.tk_off, Fld.t_off, hf, hg, tileDims]
  exact Nat.add_lt_add_of_lt_of_le h (Nat.add_le_add_left (Nat.add_le_add_left (Nat.zero_le _) _) _)

theorem tile_plain {f : Fld} (n : Nat) (hf : 0x104000 ≤ f.off) : ¬ eventWord (f.t n).off :=
  not_eventWord (.inr (.inr (Nat.le_trans hf (Nat.le_add_right ..))))

theorem tileArray_plain {f : Fld} (n k : Nat) (hf : 0x104000 ≤ f.off) : ¬ eventWord (f.tk n k).off :=
  not_eventWord (.inr (.inr (Nat.le_trans hf (Nat.le_add_right ..))))

/-- The places that a latched source writes: TIP and TILE_SPOIL. -/
def tipPlaces (n : Nat) (l : Loc) : Prop := l.off = (Reg.TILE_TIP_LATCHED.t n).off ∨ l.off = (Reg.TILE_SPOIL_COUNT.t n).off

theorem tipPlaces.plain {n : Nat} {l : Loc} (h : tipPlaces n l) : ¬ eventWord l.off := by
  rcases h with h | h
  · rw [h]
    exact tile_plain n (by decide)
  · rw [h]
    exact tile_plain n (by decide)

theorem Frame.tipSet (s : State) (n b : Nat) : Frame (tipPlaces n) s (s.tipSet n b) :=
  .cond _ (.count s 1 (.inr rfl) (tipPlaces.plain (n := n) (.inr rfl))) (.flag s true (.inl rfl) (tipPlaces.plain (n := n) (.inl rfl)))

theorem Frame.evst (s : State) {n : Nat} (f : Fld) (h : n < 64) (hf : 0x104000 ≤ f.off) : Frame (· = f.t n) s (s.evst n f) :=
  .cond (W := (· = f.t n)) _ (.refl s) ((Frame.flag (W := (· = f.t n)) s true rfl (tile_plain n hf)).trans (.ev _ (n := 376 + n) ((Nat.add_lt_add_left h 376).trans (by decide))))

/-- An array register above TIP and TILE_SPOIL is not written by a latched source. -/
theorem tipPlaces.apart {n : Nat} {f : Fld} {c d k : Nat} (hf : f.dims = [(0x100000, 8), (0x10000, 8), (c, d)]) (h : 0x3010044 < f.off)
    {l : Loc} (hl : tipPlaces n l) : l.apart (f.tk n k) := by
  refine .inl (Nat.ne_of_gt ?_)
  rcases hl with hl | hl
  · rw [hl]
    exact tileArray_off n k hf rfl h
  · rw [hl]
    exact tileArray_off n k hf rfl (Nat.lt_trans (by decide) h)

/-- The bit of TIP that a latched source sets. -/
theorem State.tipSet_bit (s : State) {n k : Nat} (hk : k < 28) : bit ((s.tipSet n (4 + k)).get (Reg.TILE_TIP_LATCHED.t n)) k = true := by
  have hon (a : State) : bit (a.get (Reg.TILE_TIP_LATCHED.t n)) k = a.on { Reg.TILE_TIP_LATCHED.t n with lo := 4 + k, w := 1 } := by
    rw [State.on, State.get, State.get, bit]
    exact congrArg (fun v => decide (v = 1)) (bits_part (k := 28) rfl hk).symm
  rw [hon, State.tipSet]
  dsimp only
  cases h : s.on { Reg.TILE_TIP_LATCHED.t n with lo := 4 + k, w := 1 }
  · exact State.on_flag_same _ _ _ (Nat.add_le_add_left (Nat.succ_le_of_lt hk) 4) (Nat.le_refl 1)
  · refine (State.on_put_apart s _ (.inl fun he => ?_)).trans h
    exact absurd (Nat.add_right_cancel (he : Reg.TILE_TIP_LATCHED.off + _ = Reg.TILE_SPOIL_COUNT.off + _)) (by decide)

theorem Beside.tipSet {α : Type} {F : State → α} (h : Beside F) (s : State) (n b : Nat) : F (s.tipSet n b) = F s := by
  unfold State.tipSet
  dsimp only
  cases s.on { Reg.TILE_TIP_LATCHED.t n with lo := b, w := 1 }
  · rw [bif_false, State.flag, h.put]
  · rw [bif_true]
    unfold State.count
    rw [h.put]

theorem Beside.evst {α : Type} {F : State → α} (h : Beside F) (s : State) (n : Nat) (f : Fld) : F (s.evst n f) = F s := by
  unfold State.evst
  cases s.on (f.t n)
  · rw [bif_false, h.ev, State.flag, h.put]
  · rw [bif_true]

theorem beside_mem : Beside State.mem := ⟨State.put_mem, State.ev_mem, fun _ _ => rfl⟩
theorem beside_tls : Beside State.tls := ⟨State.put_tls, State.ev_tls, fun _ _ => rfl⟩
theorem beside_tun : Beside State.tun := ⟨State.put_tun, State.ev_tun, fun _ _ => rfl⟩

end Sys2Proof.Machine
end
section
/-!
SUPPORT. The commands of a tile (12 R386 to R407).
-/
namespace Sys2Proof.Machine

/-! ### Timers and edge detectors -/

theorem exec_tileTimerExpiry {s : State} {n k : Nat} (hk : k < 4) (hm : s.get (tmrMode n k) = 1) (hr : s.timersRun = true)
    (hf : s.fenced n = false) : ∃ t, exec (.tileTimerExpiry n k) s = .next t ∧
      t.get (tmrMode n k) = 0 ∧ bit (t.get (Reg.TILE_TIP_LATCHED.t n)) k = true ∧ t.mem = s.mem := by
  have hx : exec (.tileTimerExpiry n k) s = .next ((s.put (tmrMode n k) 0).tipSet n (4 + k)) := by
    have hc : (s.get (tmrMode n k) != 0 && s.timersRun && !s.fenced n) = true := by rw [hm, hr, hf]; rfl
    show execTileTimerExpiry n k s = _
    rw [execTileTimerExpiry, hc, bif_true, State.timerExpire, hm]
    rw [show ((1 : Nat) == 2) = false from rfl, bif_false]
  refine ⟨_, hx, ?_, State.tipSet_bit _ (hk.trans (by decide)), by rw [beside_mem.tipSet, State.put_mem]⟩
  unfold tmrMode
  rw [(Frame.tipSet _ n _).get _ (tileArray_plain n k (by decide)) fun l hl => hl.apart rfl (by decide), State.get_put_same s _ _ (show Reg.TILE_TMR_CFG_MODE.lo + Reg.TILE_TMR_CFG_MODE.w ≤ 32 by decide), Nat.zero_mod]

theorem exec_edgeDetectorEdge {s : State} {n j : Nat} (tag : Nat) (hj : j < 8) (he : s.on (Reg.TILE_EDG_CFG_EN.tk n j) = true)
    (hf : s.fenced n = false) (hb : bit (s.get (Reg.TILE_EDG_CFG_EDGE.tk n j)) 0 = true) :
    ∃ t, exec (.edgeDetectorEdge n j true tag) s = .next t ∧
      t.get (Reg.TILE_EDG_CFG_COUNT.tk n j) = (s.get (Reg.TILE_EDG_CFG_COUNT.tk n j) + 1) % 2 ^ Reg.TILE_EDG_CFG_COUNT.w ∧
      bit (t.get (Reg.TILE_TIP_LATCHED.t n)) (4 + j) = true ∧ t.mem = s.mem := by
  obtain ⟨v, hx⟩ : ∃ v, exec (.edgeDetectorEdge n j true tag) s = .next (((s.wrap (Reg.TILE_EDG_CFG_COUNT.tk n j) 1).put96
      (Reg.TILE_EDG_TAG_L_TAG.tk n j) (Reg.TILE_EDG_TAG_M_TAG.tk n j) (Reg.TILE_EDG_TAG_H_TAG.tk n j) v).tipSet n (4 + (4 + j))) := by
    refine ⟨bif s.get (Reg.TILE_EDG_CFG_CLASS.tk n j) == 3 then s.now else tag, ?_⟩
    show execEdgeDetectorEdge n j true tag s = _
    have hc : (s.on (Reg.TILE_EDG_CFG_EN.tk n j) && !s.fenced n &&
        bit (s.get (Reg.TILE_EDG_CFG_EDGE.tk n j)) (bif true then 0 else 1)) = true := by rw [he, hf, bif_true, hb]; rfl
    rw [execEdgeDetectorEdge, hc, bif_true, ← Nat.add_assoc]
  refine ⟨_, hx, ?_, State.tipSet_bit _ ((Nat.add_lt_add_left hj 4).trans (by decide)), by
    rw [beside_mem.tipSet, State.put96, State.put_mem, State.put_mem, State.put_mem]; unfold State.wrap; rw [State.put_mem]⟩
  rw [(Frame.tipSet _ n _).get _ (tileArray_plain n j (by decide)) fun l hl => hl.apart rfl (by decide), State.put96, State.get_put_apart _ _ (tileArray_apart (f := Reg.TILE_EDG_TAG_H_TAG) (g := Reg.TILE_EDG_CFG_COUNT) n j rfl (by decide)), State.get_put_apart _ _ (tileArray_apart (f := Reg.TILE_EDG_TAG_M_TAG) (g := Reg.TILE_EDG_CFG_COUNT) n j rfl (by decide)), State.get_put_apart _ _ (tileArray_apart (f := Reg.TILE_EDG_TAG_L_TAG) (g := Reg.TILE_EDG_CFG_COUNT) n j rfl (by decide))]
  unfold State.wrap
  rw [State.get_put_same s _ _ (show Reg.TILE_EDG_CFG_COUNT.lo + Reg.TILE_EDG_CFG_COUNT.w ≤ 32 by decide)]
  rfl

/-! ### Exchanges -/

theorem exec_xctlArm {s : State} {n : Nat} (entry : Nat) (hf : s.fenced n = false) (hs : s.on (Reg.TILE_XSTAT_SIGREQ.t n) = false) :
    ∃ t, exec (.xctlArm n entry) s = .next t ∧
      t.get (xState n) = 1 ∧ t.get (Reg.TILE_XCTL_ENTRY.t n) = entry % 2 ^ Reg.TILE_XCTL_ENTRY.w ∧ t.tls = s.tls := by
  have hx : exec (.xctlArm n entry) s = .next ((s.put (Reg.TILE_XCTL_ENTRY.t n) entry).put (xState n) 1) := by
    show execXctlArm n entry s = _
    rw [execXctlArm, hf, bif_false, State.xArm, State.on_put_apart s entry (tile_apart (f := Reg.TILE_XCTL_ENTRY) (g := Reg.TILE_XSTAT_SIGREQ) n rfl rfl (by decide)), hs, Bool.false_and, bif_false]
  refine ⟨_, hx, ?_, ?_, (State.put_tls ..).trans (State.put_tls ..)⟩
  · exact State.get_put_same _ (xState n) _ (show Reg.TILE_XSTAT_XSTATE.lo + Reg.TILE_XSTAT_XSTATE.w ≤ 32 by decide)
  · unfold xState
    rw [State.get_put_apart _ _ (tile_apart (f := Reg.TILE_XSTAT_XSTATE) (g := Reg.TILE_XCTL_ENTRY) n rfl rfl (by decide)), State.get_put_same _ _ _ (show Reg.TILE_XCTL_ENTRY.lo + Reg.TILE_XCTL_ENTRY.w ≤ 32 by decide)]
    rfl

theorem exec_xctlCancel {s : State} {n : Nat} (hf : s.fenced n = false) : ∃ t, exec (.xctlCancel n) s = .next t ∧
    t.get (xState n) = 0 ∧ t.tls = s.tls ∧ t.mem = s.mem := by
  have hx : exec (.xctlCancel n) s = .next (s.put (xState n) 0) := by
    show execXctlCancel n s = _
    unfold execXctlCancel
    rw [hf, bif_false]
  exact ⟨_, hx, State.get_put_same _ (xState n) _ (show Reg.TILE_XSTAT_XSTATE.lo + Reg.TILE_XSTAT_XSTATE.w ≤ 32 by decide),
    State.put_tls .., State.put_mem ..⟩

theorem exec_xctlForce {s : State} {n : Nat} (hf : s.fenced n = false) (hx : s.get (xState n) ≠ 0) (hst : s.get (tileState n) = 2)
    (hb : (s.tile n).busy = false) : exec (.xctlForce n) s = .next (s.exchange n true) := by
  show execXctlForce n s = _
  unfold execXctlForce
  rw [hf, bif_false, beq_false_of_ne hx, bif_false, hst, hb, beq_self_eq_true, Bool.not_false, Bool.and_self, bif_true]

theorem exec_exchangeTimeout {s : State} {n : Nat} (hn : n < 64) (hx : s.get (xState n) ≠ 0)
    (ht : s.get (Reg.TILE_XSTAT_TMO.t n) ≠ 0) (hv : s.on (Reg.TILE_EVST_XTMO.t n) = false) :
    ∃ t, exec (.exchangeTimeout n) s = .next t ∧
      t.on (Reg.TILE_EVST_XTMO.t n) = true ∧ t.on (evPend (376 + n)) = true ∧ t.get (xState n) = s.get (xState n) := by
  have he : exec (.exchangeTimeout n) s = .next ((s.flag (Reg.TILE_EVST_XTMO.t n) true).ev (376 + n)) := by
    show execExchangeTimeout n s = _
    unfold execExchangeTimeout
    rw [bne_iff_ne.mpr hx, bne_iff_ne.mpr ht, Bool.and_self, bif_true]
    unfold State.evst
    rw [hv, bif_false]
  refine ⟨_, he, ?_, State.ev_pends _ _, ?_⟩
  · rw [State.on_ev _ _ _ (by lia) (tile_plain n (by decide)), State.on_flag_same _ _ _
      (show Reg.TILE_EVST_XTMO.lo + Reg.TILE_EVST_XTMO.w ≤ 32 by decide) (show 1 ≤ Reg.TILE_EVST_XTMO.w by decide)]
  · unfold xState
    rw [State.get_ev _ _ _ (by lia) (tile_plain n (by decide)), State.get_flag_apart _ _ (tile_apart (f := Reg.TILE_EVST_XTMO) (g := Reg.TILE_XSTAT_XSTATE) n rfl rfl (by decide))]

/-! ### Program and memory windows -/

/-- The syllable just stored. -/
theorem Tile.syllable_setSyllable (x : Tile) {b : Nat} (a : Nat) (v : Word) : (x.setSyllable b a v).syllable b a = v := by
  unfold Tile.setSyllable Tile.syllable Tile.bank
  split
  · exact tget_tset_same ..
  · exact tget_tset_same ..

/-- The end of a verification writes the security block alone. -/
theorem Frame.verifyAbort (s : State) (n : Nat) : Frame (fun l => l.off < 0x3000000) s (s.verifyAbort n) := by
  unfold State.verifyAbort
  refine .cond _ ?_ (.refl s)
  exact (Frame.trans (.trans (.put _ _ (by decide) (not_eventWord (by decide))) (.flag _ _ (by decide) (not_eventWord (by decide))))
    (.ev _ (by decide))).after rfl

theorem State.verifyAbort_tls (s : State) (n : Nat) : (s.verifyAbort n).tls = s.tls := by
  unfold State.verifyAbort
  cases s.sec.verify == some n
  · rw [bif_false]
  · rw [bif_true, State.ev_tls, State.flag_tls, State.put_tls]

theorem exec_tilePdataWrite {s : State} {n p : Nat} (v : Word) (hf : s.fenced n = false) (hl : s.on (Reg.TILE_PPTR_LIVE.t n) = false)
    (hp : s.get (Reg.TILE_PPTR_PTR.t n) = p) : ∃ t, exec (.tilePdataWrite n v) s = .next t ∧
      (t.tile n).syllable (1 - s.liveBank n) p = v ∧ t.get (Reg.TILE_PPTR_PTR.t n) = (p + 1) % 2 ^ Reg.TILE_PPTR_PTR.w ∧
      t.on (Reg.TILE_XSTAT_SIGOK.t n) = false := by
  obtain ⟨a, ha⟩ : ∃ a, a = s.setTile n ((s.tile n).setSyllable (1 - s.liveBank n) p v) := ⟨_, rfl⟩
  obtain ⟨b, hb⟩ : ∃ b, b = (a.flag (Reg.TILE_XSTAT_SIGOK.t n) false).put (Reg.TILE_PPTR_PTR.t n) (p + 1) := ⟨_, rfl⟩
  have hx : exec (.tilePdataWrite n v) s = .next (b.verifyAbort n) := by
    show execTilePdataWrite n v s = _
    rw [execTilePdataWrite, hf, bif_false, hl, bif_false, hp, hb, ha]
  have habove {f : Fld} (h : 0x3000000 ≤ f.off) {l : Loc} (hm : l.off < 0x3000000) : l.apart (f.t n) :=
    .inl (Nat.ne_of_gt (Nat.lt_of_lt_of_le hm (Nat.le_trans h (Nat.le_add_right ..))))
  refine ⟨_, hx, ?_, ?_, ?_⟩
  · rw [State.tile, State.verifyAbort_tls, hb, State.put_tls, State.flag_tls, ← State.tile, ha, State.tile_setTile,
      Tile.syllable_setSyllable]
  · rw [(Frame.verifyAbort b n).get _ (tile_plain n (by decide)) fun l hm => habove (by decide) hm, hb,
      State.get_put_same _ _ _ (show Reg.TILE_PPTR_PTR.lo + Reg.TILE_PPTR_PTR.w ≤ 32 by decide)]
    rfl
  · rw [(Frame.verifyAbort b n).on _ (tile_plain n (by decide)) fun l hm => habove (by decide) hm, hb,
      State.on_put_apart _ _ (tile_apart (f := Reg.TILE_PPTR_PTR) (g := Reg.TILE_XSTAT_SIGOK) n rfl rfl (by decide)),
      State.on_flag_same _ _ _ (show Reg.TILE_XSTAT_SIGOK.lo + Reg.TILE_XSTAT_SIGOK.w ≤ 32 by decide)
        (show 1 ≤ Reg.TILE_XSTAT_SIGOK.w by decide)]

/-- An access to a word that the cross-spectral engine has not claimed. -/
theorem State.mdata_open {s : State} {n a : Nat} (v : Option Word) (hc : s.claimed n = false ∨ 4 * a < 0x40000)
    (ha : s.get (Reg.TILE_MPTR_WADDR.t n) = a) : s.mdata n v =
      ((match v with
        | some v => s.pokeAll (tileAddr n (4 * a)) (u32 v.toNat)
        | none => s).put (Reg.TILE_MPTR_WADDR.t n) (a + 1), BitVec.ofNat 32 (leNat (s.peekAll (tileAddr n (4 * a)) 4))) := by
  have hb : (s.claimed n && le 0x40000 (4 * a)) = false := by
    rcases hc with h | h
    · rw [h, Bool.false_and]
    · rw [le, decide_eq_false (Nat.not_le_of_lt h), Bool.and_false]
  rw [State.mdata, ha, hb, bif_false] <;> rfl

/-! ### Commands -/

/-- A tile that is in another state than FENCED. -/
theorem State.not_fenced {s : State} {n st : Nat} (h : s.get (tileState n) = st + 1) : s.fenced n = false := by
  unfold State.fenced
  rw [h]
  rfl

/-- A command at a boundary takes effect. -/
theorem State.tileCmd_boundary {s : State} {n : Nat} (op : Nat) (hf : s.fenced n = false) (hc : (s.tile n).cmd = none)
    (hb : (s.tile n).busy = false) : s.tileCmd n op = s.tileCommand n op := by
  rw [State.tileCmd, hf, hc, hb]
  rfl

theorem Beside.tileTo {α : Type} {F : State → α} (h : Beside F) (s : State) (n st : Nat) : F (s.tileTo n st) = F s := by
  unfold State.tileTo
  dsimp only
  cases (st == 1 || st == 4) && s.get (tileState n) != st
  · rw [bif_false, h.put]
  · rw [bif_true, h.evst, h.put]

theorem State.tileTo_state (s : State) {n st : Nat} (hn : n < 64) (h : st < 8) : (s.tileTo n st).get (tileState n) = st := by
  have hput : (s.put (tileState n) st).get (tileState n) = st :=
    (State.get_put_same s (tileState n) st (show Reg.TILE_STAT_STATE.lo + Reg.TILE_STAT_STATE.w ≤ 32 by decide)).trans
      (Nat.mod_eq_of_lt h)
  have hf : Frame (· = Reg.TILE_EVST_HALTED.t n) (s.put (tileState n) st) (s.tileTo n st) :=
    .cond _ (.evst _ _ hn (by decide)) (.refl _)
  unfold tileState
  rw [hf.get _ (tile_plain n (by decide)) (by
    rintro _ rfl
    exact tile_apart (f := Reg.TILE_EVST_HALTED) (g := Reg.TILE_STAT_STATE) n rfl rfl (by decide)), ← tileState, hput]

theorem exec_tileRun {s : State} {n : Nat} (hn : n < 64) (hst : s.get (tileState n) = 1) (hc : (s.tile n).cmd = none)
    (hb : (s.tile n).busy = false) (hg : (s.tile n).gated = false) (hx : s.get (xState n) = 0) :
    ∃ t, exec (.tileRun n) s = .next t ∧ t.get (tileState n) = 2 ∧ t.mem = s.mem := by
  have he : s.tileCmd n 1 = (s.setTile n { s.tile n with gated := false }).tileTo n 2 := by
    rw [State.tileCmd_boundary 1 (State.not_fenced hst) hc hb, State.tileCommand, hst, hg, beq_self_eq_true, bif_true, bif_true,
      bif_false, State.tileRun, State.get_setTile, hx, beq_self_eq_true, bif_true]
  exact ⟨_, congrArg Host.Outcome.next he, State.tileTo_state _ hn (by decide), beside_mem.tileTo ..⟩

theorem exec_tileHalt {s : State} {n : Nat} (hn : n < 64) (hst : s.get (tileState n) = 2) (hc : (s.tile n).cmd = none)
    (hb : (s.tile n).busy = false) :
    ∃ t, exec (.tileHalt n) s = .next t ∧ t.get (tileState n) = 1 ∧ (t.tile n).bundle = [] ∧ t.mem = s.mem := by
  have he : s.tileCmd n 2 = (s.setTile n { s.tile n with bundle := [] }).tileTo n 1 := by
    rw [State.tileCmd_boundary 2 (State.not_fenced hst) hc hb]
    unfold State.tileCommand
    rw [hst, show ((2 : Nat) == 1) = false from rfl, bif_false, beq_self_eq_true, bif_true, Bool.true_or, bif_true]
  refine ⟨_, congrArg Host.Outcome.next he, State.tileTo_state _ hn (by decide), ?_, beside_mem.tileTo ..⟩
  rw [State.tile, beside_tls.tileTo, ← State.tile, State.tile_setTile]

theorem exec_tileReset {s : State} {n : Nat} (hf : s.fenced n = false) (hc : (s.tile n).cmd = none) (hb : (s.tile n).busy = false) :
    exec (.tileReset n) s = .next (s.coreReset n) := by
  have hst : (s.get (tileState n) == 0) = false := hf
  have he : s.tileCmd n 3 = s.coreReset n := by
    rw [State.tileCmd_boundary 3 hf hc hb, State.tileCommand, hst, show ((3 : Nat) == 1) = false from rfl,
      bif_false, show ((3 : Nat) == 2) = false from rfl, bif_false, beq_self_eq_true, bif_true, bif_false]
  exact congrArg Host.Outcome.next he

theorem exec_tileClockGate {s : State} {n : Nat} (hg : s.on Reg.PWR_CFG_TILEGATE.z = true) (hst : s.get (tileState n) = 1) :
    ∃ t, exec (.tileClockGate n) s = .next t ∧
      (t.tile n).gated = true ∧ t.pwr.up.contains (tileIsland n) = false ∧ t.regs = s.regs := by
  have hx : exec (.tileClockGate n) s = .next { s.setTile n { s.tile n with gated := true } with
      pwr := { s.pwr with up := s.pwr.up.filter (· ≠ tileIsland n) } } := by
    show execTileClockGate n s = _
    unfold execTileClockGate
    rw [hg, hst]
    rfl
  refine ⟨_, hx, congrArg Tile.gated (s.tile_setTile n _), ?_, rfl⟩
  show (s.pwr.up.filter (· ≠ tileIsland n)).contains (tileIsland n) = false
  simp

/-! ### Ring blocks -/

theorem ringTake_one {n : Nat} (o : TunOut) (hn : 0 < n) : ringTake n none [o] = [o] := by
  obtain ⟨n, rfl⟩ := Nat.exists_eq_succ_of_ne_zero hn.ne'
  cases n <;> rfl

theorem State.pokeAll_tun (s : State) (a : Nat) (bs : List Byte) : (s.pokeAll a bs).tun = s.tun := by
  unfold State.pokeAll
  cases lt a (2 ^ 44) with
  | false => rfl
  | true =>
    rw [bif_true]
    dsimp only
    cases (upto bs.length).any fun i => (s.remapOf (s.rankOf (a + i))).lost
    · rfl
    · rw [bif_true, State.count_tun]

/-- Outputs of no tile make no block. -/
theorem exec_tunerRingBlock_empty {s : State} {n k : Nat} (h : (s.tuner (s.get (Reg.TILE_RING0_TUNER.tk n k))).ringOuts = []) :
    exec (.tunerRingBlock n k) s = .next s := by
  show execTunerRingBlock n k s = _
  unfold execTunerRingBlock
  extract_lets +onlyGivenNames u _ x _ cap os
  have hos : os = [] := by
    simp only [os, x, u, h, List.dropWhile_nil]
    cases cap <;> rfl
  rw [hos]
  rfl

/-- One output of a tile whose ring has room makes a block, which is written and counted. -/
theorem exec_tunerRingBlock_one {s : State} {n k u : Nat} {o : TunOut} (hu : s.get (Reg.TILE_RING0_TUNER.tk n k) = u)
    (ho : (s.tuner u).ringOuts = [o]) (hd : bits o.dest 20 6 = n) (hv : s.on (Reg.TILE_RING0_VALID.tk n k) = true)
    (hr : s.ringFill n k (s.get (Reg.TILE_RING1_RIDX.tk n k)) ≠ s.ringBlocks n k) :
    ∃ (z : State) (x : Tuner) (a : Nat) (body : List Byte) (rg : RingSlot) (c : Bool), x.ringOuts = [] ∧
      z = (((s.setTuner u x).pokeAll a body).setRing n k rg).put (Reg.TILE_RING0_WIDX.tk n k)
        (s.get (Reg.TILE_RING0_WIDX.tk n k) + 1) ∧
      exec (.tunerRingBlock n k) s = .next (bif c then z.tipSet n (16 + k) else z) := by
  suffices h : ∃ (x : Tuner) (a : Nat) (body : List Byte) (rg : RingSlot) (c : State → Bool), x.ringOuts = [] ∧
      execTunerRingBlock n k s = .next (
        let z := (((s.setTuner u x).pokeAll a body).setRing n k rg).put (Reg.TILE_RING0_WIDX.tk n k)
          (s.get (Reg.TILE_RING0_WIDX.tk n k) + 1)
        bif c z then z.tipSet n (16 + k) else z) by
    obtain ⟨x, a, body, rg, c, hx, he⟩ := h
    exact ⟨_, x, a, body, rg, c _, hx, rfl, he⟩
  unfold execTunerRingBlock
  extract_lets +onlyGivenNames v _ x _ cap os
  have hv' : v = u := hu
  have hx : x.ringOuts = [o] := by
    have : x.ringOuts = (s.tuner v).ringOuts.dropWhile fun o => bits o.dest 20 6 != n := rfl
    rw [this, hv', ho, List.dropWhile_cons_of_neg (by rw [hd, bne_self_eq_false]; exact Bool.false_ne_true)]
  have hcap : 0 < cap := by
    simp only [cap]
    split_ifs <;> decide
  have hos : os = [o] := by
    simp only [os, hx]
    exact ringTake_one o hcap
  rw [hos, hv', List.head?_cons]
  dsimp -zeta only
  rw [hv, bif_true]
  extract_lets rg a nb w nxt _ _ _ _ body b
  have hfull : (a.ringFill n k (a.get (Reg.TILE_RING1_RIDX.tk n k)) == nb) = false := beq_false_of_ne hr
  rw [hfull, bif_false]
  exact ⟨{ x with ringOuts := x.ringOuts.drop [o].length }, _, body, _, fun z => le (z.get (Reg.TILE_RING1_WMARK.tk n k))
    (z.ringFill n k (z.get (Reg.TILE_RING1_RIDX.tk n k))), by rw [hx]; rfl, rfl⟩

theorem exec_tunerRingBlock {s : State} {n k u : Nat} {o : TunOut} (hu : s.get (Reg.TILE_RING0_TUNER.tk n k) = u)
    (ho : (s.tuner u).ringOuts = [o]) (hd : bits o.dest 20 6 = n) (hv : s.on (Reg.TILE_RING0_VALID.tk n k) = true)
    (hr : s.ringFill n k (s.get (Reg.TILE_RING1_RIDX.tk n k)) ≠ s.ringBlocks n k) :
    ∃ t, exec (.tunerRingBlock n k) s = .next t ∧
      t.get (Reg.TILE_RING0_WIDX.tk n k) = (s.get (Reg.TILE_RING0_WIDX.tk n k) + 1) % 2 ^ 16 ∧ (t.tuner u).ringOuts = [] := by
  obtain ⟨z, x, a, body, rg, c, hx, hz, he⟩ := exec_tunerRingBlock_one hu ho hd hv hr
  have hf : Frame (tipPlaces n) z (bif c then z.tipSet n (16 + k) else z) := .cond _ (.tipSet z n _) (.refl z)
  have ht : (bif c then z.tipSet n (16 + k) else z).tun = z.tun := by
    cases c
    · rw [bif_false]
    · rw [bif_true, beside_tun.tipSet]
  refine ⟨_, he, ?_, ?_⟩
  · rw [hf.get _ (tileArray_plain n k (by decide)) fun l hl => hl.apart rfl (by decide), hz,
      State.get_put_same _ _ _ (show Reg.TILE_RING0_WIDX.lo + Reg.TILE_RING0_WIDX.w ≤ 32 by decide)]
    rfl
  · rw [State.tuner_congr ht, hz, State.tuner_congr (State.put_tun ..), ← hx]
    exact congrArg Tuner.ringOuts ((State.tuner_congr (State.pokeAll_tun _ a body) u).trans (s.tuner_setTuner u x))

theorem exec_softTrigger {s : State} {n u : Nat} (loaded : Bool) (hu : u < 32) (hs : s.get (Reg.TRG_UCFG_SRC.e u) = 7)
    (he : s.get (Reg.TRG_UELEM_ELEM.e u) = n) (hm : s.get Reg.PWR_STAT_MODE.z = 4) (hen : s.on (Reg.TRG_UCFG_EN.e u) = true) :
    exec (.softTrigger n u loaded) s = .next (s.pushPulse u (if loaded then (s.tile n).ttag else s.now) (s.tq false false)) := by
  have h : s.softTrigger n (u % 32) loaded = s.pushPulse u (if loaded then (s.tile n).ttag else s.now) (s.tq false false) := by
    rw [Nat.mod_eq_of_lt hu]
    unfold State.softTrigger
    rw [hs, he, hm, hen, beq_self_eq_true, beq_self_eq_true, beq_self_eq_true, Bool.and_self, bif_true, bif_true]
    cases loaded <;> rfl
  exact congrArg Host.Outcome.next h

end Sys2Proof.Machine
end
section
/-!
PROOF of O40.
-/
namespace Sys2Proof.Machine

/-- Settles O40: each clause is the lemma about its command. -/
theorem tileCommandsComplete : Obligations.TileCommandsComplete := by
  refine ⟨fun s n k hn hk hm hr hf => exec_tileTimerExpiry hk hm hr hf, fun s n k w v hf hk hn hw => ?_,
    fun s n j tag hn hj he hf hb => exec_edgeDetectorEdge tag hj he hf hb, fun s n entry hn hf hs => exec_xctlArm entry hf hs,
    fun s n hn hf => exec_xctlCancel hf, fun s n hf hx hst hb => exec_xctlForce hf hx hst hb,
    fun s n hn hx ht hv => exec_exchangeTimeout hn hx ht hv, fun s n p v hn hf hl hp _ => exec_tilePdataWrite v hf hl hp,
    fun s r n a v hn hf hc ha => ?_, fun s r n a v hn hf hc ha => ?_,
    fun s n hn hst hc hb hg hx => exec_tileRun hn hst hc hb hg hx, fun s n hn hst hc hb => exec_tileHalt hn hst hc hb,
    fun s n hf hc hb => exec_tileReset hf hc hb, fun s n hg hst => exec_tileClockGate hg hst,
    fun s n k h => ⟨s, exec_tunerRingBlock_empty h, rfl⟩, fun s n k u o hn hk hu ho hd hv hr => exec_tunerRingBlock hu ho hd hv hr,
    fun s n u loaded hu hs he hm hen => exec_softTrigger loaded hu hs he hm hen⟩
  · show execTileTimerWrite n k w v s = _
    rw [execTileTimerWrite, hf, Nat.mod_eq_of_lt hw, bif_false]
  · show execTileMdataAccess r n false v s = _
    unfold execTileMdataAccess
    rw [hf, bif_false, bif_false, State.mdata_open none hc ha]
  · show execTileMdataAccess r n true v s = _
    unfold execTileMdataAccess
    rw [hf, bif_false, bif_true, State.mdata_open (some v) hc ha]

end Sys2Proof.Machine
end

section
/-! PROOF bench: the long instructions of the bench start, advance by granules and complete (13 R425 to R430; 12 R380 to R384). -/
namespace Sys2Proof.Machine

/-! ### What a granule leaves alone -/

/-- What holds a tile at its next boundary: a command, an interrupt that waits, its long instruction. -/
noncomputable def Tile.underWay (x : Tile) : Option Nat × Bool × Option LongOp := (x.cmd, x.wantInt, x.long)

/-- The same of tile `n`, with its exchange's state. -/
noncomputable def State.underWay (s : State) (n : Nat) : (Option Nat × Bool × Option LongOp) × Nat := ((s.tile n).underWay, s.get (xState n))

theorem State.underWay_setTile {s : State} {n : Nat} {x : Tile} (h : x.underWay = (s.tile n).underWay) :
    (s.setTile n x).underWay n = s.underWay n := by
  rw [State.underWay, State.tile_setTile, State.get_setTile, h]
  rfl

theorem State.underWay_count (s : State) (n k : Nat) : (s.count (Reg.TILE_SAT_COUNT.t n) k).underWay n = s.underWay n := by
  unfold State.underWay xState State.count
  rw [State.get_put_apart _ _ (tile_apart (f := Reg.TILE_SAT_COUNT) (g := Reg.TILE_XSTAT_XSTATE) n rfl rfl (by decide)), State.tile, State.put_tls]
  rfl

theorem State.underWay_counted (s : State) (n k : Nat) (c : Bool) :
    (bif c then s.count (Reg.TILE_SAT_COUNT.t n) k else s).underWay n = s.underWay n := by
  cases c
  · rw [bif_false]
  · rw [bif_true, State.underWay_count]

theorem State.underWay_benchSat (s : State) (n sat aov : Nat) : (s.benchSat n sat aov).underWay n = s.underWay n := by
  unfold State.benchSat
  rw [State.underWay_counted]
  exact State.underWay_setTile rfl

/-- The places of the tiles lie below those of the memory system. -/
theorem tile_below {f : Fld} {n : Nat} (hn : n < 64) (hf : f.dims = tileDims) (h : f.off < 0x3090000) : (f.t n).off < 0x3800000 := by
  rw [Fld.t_off, hf, tileDims]
  exact Nat.add_lt_add_of_lt_of_le h ((by decide : ∀ n < 64, n / 8 * 0x100000 + (n % 8 * 0x10000 + 0) ≤ 0x770000) n hn)

theorem State.underWay_pokeAll {n : Nat} (hn : n < 64) (s : State) (a : Nat) (bs : List Byte) :
    (s.pokeAll a bs).underWay n = s.underWay n := by
  have hx : (s.pokeAll a bs).get (xState n) = s.get (xState n) := by
    have hlt : (xState n).off < Reg.MEM_LOSTW_COUNT.z.off :=
      Nat.lt_of_lt_of_le (tile_below (f := Reg.TILE_XSTAT_XSTATE) hn rfl (by decide)) (by decide)
    exact (Frame.pokeAll (W := (· = Reg.MEM_LOSTW_COUNT.z)) s a bs rfl).get _ (tile_plain n (by decide)) fun l hl =>
      .inl (hl ▸ Nat.ne_of_lt hlt)
  rw [State.underWay, State.tile_pokeAll, hx]
  rfl

theorem State.underWay_bmac (s : State) (n : Nat) (b : List Byte) (k : Nat) : (s.bmacGranule n b k).underWay n = s.underWay n := by
  unfold State.bmacGranule
  extract_lets
  rw [State.underWay_benchSat, State.underWay_counted]
  refine State.underWay_setTile ?_
  refine foldl_keeps _ (fun st : Tile × Nat × Nat => st.1.underWay) ?_ _ _
  exact fun _ _ => rfl

theorem State.underWay_bout {n : Nat} (hn : n < 64) (s : State) (b : List Byte) (k : Nat) : (s.boutGranule n b k).underWay n = s.underWay n := by
  unfold State.boutGranule
  extract_lets _ _ _ _ clr _ _ _ z z'
  have hz : z.underWay n = s.underWay n := foldl_keeps _ (·.underWay n) (fun s _ => State.underWay_pokeAll hn s _ _) _ _
  rw [State.underWay_benchSat, ← hz]
  clear_value z clr
  cases clr
  · exact rfl
  · refine State.underWay_setTile (foldl_keeps _ Tile.underWay ?_ _ _)
    exact fun _ _ => rfl

theorem State.underWay_bmov {n : Nat} (hn : n < 64) (s : State) (b : List Byte) (k : Nat) : (s.bmovGranule n b k).underWay n = s.underWay n := by
  unfold State.bmovGranule
  extract_lets
  rw [State.underWay_benchSat]
  exact foldl_keeps _ (·.underWay n) (fun s _ => State.underWay_pokeAll hn s _ _) _ _

theorem State.underWay_bfft {n : Nat} (hn : n < 64) (s : State) (b : List Byte) (k : Nat) : (s.bfftGranule n b k).underWay n = s.underWay n := by
  unfold State.bfftGranule
  extract_lets
  rw [State.underWay_benchSat]
  exact foldl_keeps _ (·.underWay n) (fun s _ => State.underWay_pokeAll hn s _ _) _ _

theorem State.underWay_granule {n : Nat} (hn : n < 64) (s : State) (l : LongOp) (k : Nat) : (s.granule n l k).underWay n = s.underWay n := by
  unfold State.granule
  by_cases h0 : l.op = 0
  · rw [if_pos h0]
    exact State.underWay_setTile rfl
  by_cases h1 : l.op = 1
  · rw [if_neg h0, if_pos h1, State.underWay_bmac]
  by_cases h2 : l.op = 2
  · rw [if_neg h0, if_neg h1, if_pos h2, State.underWay_bout hn]
  by_cases h3 : l.op = 3
  · rw [if_neg h0, if_neg h1, if_neg h2, if_pos h3, State.underWay_bmov hn]
  · rw [if_neg h0, if_neg h1, if_neg h2, if_neg h3, State.underWay_bfft hn]

/-! ### The end of a granule -/

/-- A boundary at which nothing waits. -/
theorem State.tileBoundary_quiet {s : State} {n : Nat} (hc : (s.tile n).cmd = none) (hw : (s.tile n).wantInt = false)
    (hx : s.get (xState n) = 0) : s.tileBoundary n = s := by
  rw [State.tileBoundary, hc, hw, hx]
  rfl

/-- A tile that has taken its granule's results comes to a boundary at which nothing waits. -/
theorem State.tilePut_boundary {s : State} {n : Nat} {x : Tile} (hc : x.cmd = none) (hw : x.wantInt = false)
    (hx : s.get (xState n) = 0) : (s.tilePut n x).tileBoundary n = s.tilePut n x := by
  refine State.tileBoundary_quiet ((congrArg Tile.cmd (State.tile_tilePut s n x)).trans hc)
    ((congrArg Tile.wantInt (State.tile_tilePut s n x)).trans hw) ?_
  rw [State.get_tilePut s n x (xState n) ?_ ?_, hx]
  · exact fun h => absurd (Nat.add_right_cancel h) (by decide)
  · exact fun h => absurd (Nat.add_right_cancel h) (by decide)

theorem RegSet.rotate_prg (x : RegSet) (l : LoopLevel) : (x.rotate l).prg = x.prg := by
  unfold RegSet.rotate
  split <;> rfl

/-- The loop-back decision leaves PRG alone. -/
theorem RegSet.loopBack_prg (x : RegSet) (a n : Nat) : (x.loopBack a n).1.prg = x.prg := by
  have hzero (y : RegSet) : (if y.l0a && y.loop0.last = a then
      if y.lc0 > 1 then ({ y with lc0 := y.lc0 - 1 }.rotate y.loop0, y.loop0.start)
      else ({ y with lc0 := 0, l0a := false }.rotate y.loop0, n)
    else (y, n)).1.prg = y.prg := by
    split
    · split
      · exact RegSet.rotate_prg ..
      · exact RegSet.rotate_prg ..
    · rfl
  unfold RegSet.loopBack
  split
  · split
    · exact RegSet.rotate_prg ..
    · exact (hzero _).trans (RegSet.rotate_prg ..)
  · exact hzero x

/-- The tile after the last granule, whose results `g` holds, of the instruction at syllable address `a`. -/
noncomputable def State.completed (g : State) (n a : Nat) : Tile :=
  let r := { (g.tile n).main with prg := 0 }.loopBack a (a + 1)
  { g.tile n with long := none, busy := false, main := { r.1 with pc := g.pcAt n r.2 } }

/-- The tile after another granule, whose results `g` holds. -/
noncomputable def State.advanced (g : State) (n : Nat) : Tile :=
  { g.tile n with main := { (g.tile n).main with prg := (g.tile n).main.prg + 1 } }

section
variable {s : State} {n : Nat} {l : LongOp} (hn : n < 64) (hl : (s.tile n).long = some l) (hb : (s.tile n).busy = true)
  (hc : (s.tile n).cmd = none) (hw : (s.tile n).wantInt = false) (hx : s.get (xState n) = 0)

include hl hb in
/-- A granule's end takes the granule, and counts it or completes the instruction. -/
theorem exec_granuleEnd {k : Nat} (hk : (s.tile n).main.prg % 2 ^ 16 = k) :
    exec (.benchGranuleEnd n) s = .next (bif le l.total (k + 1) then
      ((s.granule n l k).tilePut n ((s.granule n l k).completed n (bits (s.tile n).main.prg 16 14))).tileBoundary n
      else ((s.granule n l k).tilePut n ((s.granule n l k).advanced n)).tileBoundary n) := by
  have hkk : bits (s.tile n).main.prg 0 16 = k := by rw [bits, pow_zero, Nat.div_one, hk]
  show execBenchGranuleEnd n s = _
  rw [execBenchGranuleEnd, hl]
  dsimp -zeta only
  rw [hb, bif_true, hkk]
  rfl

include hn hl hb hc hw hx

/-- The last granule completes the instruction. -/
theorem exec_granuleEnd_last (hk : l.total ≤ (s.tile n).main.prg % 2 ^ 16 + 1) :
    ∃ t, exec (.benchGranuleEnd n) s = .next t ∧
      (t.tile n).long = none ∧ (t.tile n).busy = false ∧ (t.tile n).main.prg = 0 ∧
      t.mem = (s.granule n l ((s.tile n).main.prg % 2 ^ 16)).mem ∧
      (t.tile n).bench = ((s.granule n l ((s.tile n).main.prg % 2 ^ 16)).tile n).bench := by
  have hu := s.underWay_granule hn l ((s.tile n).main.prg % 2 ^ 16)
  have hexec := exec_granuleEnd hl hb rfl
  obtain ⟨k, he⟩ : ∃ k, k = (s.tile n).main.prg % 2 ^ 16 := ⟨_, rfl⟩
  rw [← he] at hk hu hexec ⊢
  rw [le, decide_eq_true hk, bif_true] at hexec
  obtain ⟨g, hg⟩ : ∃ g, g = s.granule n l k := ⟨_, rfl⟩
  rw [← hg] at hu hexec ⊢
  obtain ⟨hut, hux⟩ := Prod.mk.inj hu
  obtain ⟨huc, huw⟩ := Prod.mk.inj hut
  rw [State.tilePut_boundary (x := g.completed n _) (huc.trans hc) ((Prod.mk.inj huw).1.trans hw) (hux.trans hx)] at hexec
  refine ⟨_, hexec, ?_⟩
  rw [State.tile_tilePut, State.tilePut_mem]
  exact ⟨rfl, rfl, RegSet.loopBack_prg .., rfl, rfl⟩

/-- A granule that is not the last is counted in PRG. -/
theorem exec_granuleEnd_next (hk : (s.tile n).main.prg % 2 ^ 16 + 1 < l.total) :
    ∃ t, exec (.benchGranuleEnd n) s = .next t ∧
      (t.tile n).long = some l ∧ (t.tile n).main.prg = ((s.granule n l ((s.tile n).main.prg % 2 ^ 16)).tile n).main.prg + 1 ∧
      t.mem = (s.granule n l ((s.tile n).main.prg % 2 ^ 16)).mem := by
  have hu := s.underWay_granule hn l ((s.tile n).main.prg % 2 ^ 16)
  have hexec := exec_granuleEnd hl hb rfl
  obtain ⟨k, he⟩ : ∃ k, k = (s.tile n).main.prg % 2 ^ 16 := ⟨_, rfl⟩
  rw [← he] at hk hu hexec ⊢
  rw [le, decide_eq_false (Nat.not_le_of_lt hk), bif_false] at hexec
  obtain ⟨g, hg⟩ : ∃ g, g = s.granule n l k := ⟨_, rfl⟩
  rw [← hg] at hu hexec ⊢
  obtain ⟨hut, hux⟩ := Prod.mk.inj hu
  obtain ⟨huc, huw⟩ := Prod.mk.inj hut
  rw [State.tilePut_boundary (x := g.advanced n) (huc.trans hc) ((Prod.mk.inj huw).1.trans hw) (hux.trans hx)] at hexec
  refine ⟨_, hexec, ?_⟩
  rw [State.tile_tilePut, State.tilePut_mem]
  exact ⟨(Prod.mk.inj huw).2.trans hl, rfl, rfl⟩

end

/-! ### The issue of a bench instruction -/

/-- The fields of a bench syllable (13 Formats). -/
structure BenchSyl.Encodes (y : BenchSyl) (op w : Nat) : Prop where
  lt : w < 2 ^ 32
  stop : bit w 31 = y.stop
  cls : sylClass w = 4
  op : bits w 22 6 = op
  pn : bits w 18 4 = y.pn.toNat
  z : bits w 0 18 = y.z.toNat

theorem benchFields {w b c op p z : Nat} (hb : b < 2 ^ 1) (hc : c < 2 ^ 3) (ho : op < 2 ^ 6) (hp : p < 2 ^ 4) (hz : z < 2 ^ 18)
    (hw : w = b * 2 ^ 31 + c * 2 ^ 28 + op * 2 ^ 22 + p * 2 ^ 18 + z) :
    w < 2 ^ 32 ∧ bits w 31 1 = b ∧ bits w 28 3 = c ∧ bits w 22 6 = op ∧ bits w 18 4 = p ∧ bits w 0 18 = z := by
  have hpack : w = (((b * 2 ^ 3 + c) * 2 ^ 6 + op) * 2 ^ 4 + p) * 2 ^ 18 + z := by
    rw [hw]
    lia
  rw [hpack]
  refine ⟨pack_lt hz (pack_lt hp (pack_lt ho (pack_lt hc hb))), ?_, ?_, ?_, ?_, bits_pack_low hz⟩
  · exact (bits_pack hz 13 1).trans ((bits_pack hp 9 1).trans ((bits_pack ho 3 1).trans (bits_pack_top hc hb)))
  · exact (bits_pack hz 10 3).trans ((bits_pack hp 6 3).trans ((bits_pack ho 0 3).trans (bits_pack_low hc)))
  · exact (bits_pack hz 4 6).trans ((bits_pack hp 0 6).trans (bits_pack_low ho))
  · exact (bits_pack hz 0 4).trans (bits_pack_low hp)

theorem BenchSyl.word_encodes (y : BenchSyl) {op : Nat} (ho : op < 2 ^ 6) : y.Encodes op (y.word op) := by
  obtain ⟨hlt, hs, hc, hop, hp, hz⟩ := benchFields (b2n_lt_two y.stop) (by decide) ho y.pn.isLt y.z.isLt (rfl : y.word op = _)
  exact ⟨hlt, bit_of_bits hs, hc, hop, hp, hz⟩

/-- A bench syllable with the stop bit is a whole bundle, which issues. -/
theorem State.syllable_bench {s : State} {n op w : Nat} {y : BenchSyl} (hr : s.readyAt n = true) (hs : y.stop = true)
    (he : y.Encodes op w) : s.syllable n w = s.benchIssue n w := by
  obtain ⟨hmay, hb, -, -⟩ := s.readyAt_iff n |>.mp hr
  have hnat : (BitVec.ofNat 32 w).toNat = w := Nat.mod_eq_of_lt he.lt
  simp only [State.syllable, hmay, hb, he.stop, hs, List.nil_append, Bool.true_or, cond_true, List.map_cons, List.map_nil, hnat]
  have hclass : ([sylClass w] == [4]) = true := by
    rw [he.cls]
    rfl
  rw [State.bundle, List.map_cons, List.map_nil, hclass, List.headD_cons, he.stop, hs, Bool.and_self, bif_true]

/-- The checks of a bench instruction ask the tile's level only. -/
theorem State.benchFault_setTile (s : State) (n op p z : Nat) (b : List Byte) {x : Tile} (hl : x.lvl = (s.tile n).lvl) :
    (s.setTile n x).benchFault n op p z b = s.benchFault n op p z b := by
  have hc : (s.setTile n x).claimed n = s.claimed n := rfl
  unfold State.benchFault
  rw [State.tile_setTile, hc]
  dsimp only
  rw [hl]

theorem bif_le (a b : Nat) {α : Type} (x y : α) : (bif le a b then x else y) = if a ≤ b then x else y := by
  by_cases h : a ≤ b
  · rw [le, decide_eq_true h, if_pos h, bif_true]
  · rw [le, decide_eq_false h, if_neg h, bif_false]

/-- The bench accumulators may have been cleared, no more. -/
theorem Tile.cleared (x : Tile) (c : Bool) (is : List Nat) (f : Nat → Nat) :
    ∃ r, (if c then is.foldl (fun (y : Tile) e => y.setBench (f e) (0, 0)) x else x) = { x with bench := r } := by
  cases c
  · exact ⟨x.bench, rfl⟩
  · rw [if_pos rfl]
    induction is generalizing x with
    | nil => exact ⟨x.bench, rfl⟩
    | cons e is ih =>
      obtain ⟨r, h⟩ := ih (x.setBench (f e) (0, 0))
      exact ⟨r, h⟩

/-- A tile with bench instruction `op` of block `b` under way, issued at PC `pc`. -/
noncomputable def Tile.started (y : Tile) (op pc : Nat) (b : List Byte) : Tile :=
  { y with long := some ⟨op, b, benchGranules op b⟩, busy := true, main := { y.main with prg := prgOf pc 0 } }

/-- A bench instruction of opcode `op`, pointer number `pn` and block `b` that issues in `z` with fault `f`; PRG names it where
`resume`. -/
noncomputable def State.benchAt (z : State) (n op pn f : Nat) (x : RegSet) (b : List Byte) (resume : Bool) : State :=
  bif resume && !z.claimed n then z.setTile n { z.tile n with busy := true }
  else bif f != 0 then z.tileFault n f (x.pReg pn)
  else
    let y := (z.tile n).abandon true
    let y := if op == 1 && bit (byteAt b 29) 1 then
        (upto (byteAt b 24 * byteAt b 25)).foldl (fun (y : Tile) e =>
          y.setBench (64 * (e / byteAt b 25) + e % byteAt b 25) (0, 0)) y
      else y
    z.tilePut n (y.started op x.pc b)

theorem State.benchIssue_at (s : State) (n w : Nat) : s.benchIssue n w =
    (s.issuing n).benchAt n (bits w 22 6) (bits w 18 4)
      ((s.issuing n).benchFault n (bits w 22 6) ((s.tile n).cur.pReg (bits w 18 4))
        (bits w 0 18 + (if bits w 22 6 = 0 then bits w 18 4 else 0))
        (bif le ((s.tile n).cur.pReg (bits w 18 4)) 0x1FFFE0 then
          (s.issuing n).tileBytes n ((s.tile n).cur.pReg (bits w 18 4)) 32 else zeros 32))
      (s.tile n).cur
      (bif le ((s.tile n).cur.pReg (bits w 18 4)) 0x1FFFE0 then
        (s.issuing n).tileBytes n ((s.tile n).cur.pReg (bits w 18 4)) 32 else zeros 32)
      (!(s.tile n).lvl && bit (s.tile n).main.prg 31 &&
        bits (s.tile n).main.prg 16 15 == bits (prgOf (s.tile n).cur.pc 0) 16 15) := rfl

/-- A bench instruction that passes its checks starts afresh where PRG names none. -/
theorem State.benchIssue_fresh {s : State} {n op w : Nat} {x : RegSet} {y : BenchSyl} {b : List Byte} (he : y.Encodes op w)
    (hcur : (s.tile n).cur = x) (hprg : bit x.prg 31 = false) (hlvl : (s.tile n).lvl = false)
    (hz : y.z.toNat + (if op = 0 then y.pn.toNat else 0) = 0)
    (hb : (if x.pReg y.pn.toNat ≤ 0x1FFFE0 then s.tileBytes n (x.pReg y.pn.toNat) 32 else zeros 32) = b)
    (hf : s.benchFault n op (x.pReg y.pn.toNat) 0 b = 0) :
    ∃ r, s.benchIssue n w = (s.issuing n).tilePut n ({ (s.issuing n).tile n with bench := r }.started op x.pc b) := by
  have hmain : (s.tile n).main = x := by
    rw [Tile.cur, hlvl] at hcur
    exact hcur
  have hzm : ((s.issuing n).tile n).main = x := by
    rw [State.issuing, State.tile_setTile]
    exact hmain
  have hzb : (bif le (x.pReg y.pn.toNat) 0x1FFFE0 then (s.issuing n).tileBytes n (x.pReg y.pn.toNat) 32 else zeros 32) = b :=
    (bif_le ..).trans hb
  have hzf : (s.issuing n).benchFault n op (x.pReg y.pn.toNat) 0 b = 0 :=
    (State.benchFault_setTile (x := { s.tile n with bundle := [], idle := false }) s n op _ 0 b rfl).trans hf
  rw [State.benchIssue_at, he.op, he.pn, he.z, hz, hcur, hzb, hzf, hlvl, hmain, hprg]
  obtain ⟨z, hze⟩ : ∃ z, z = s.issuing n := ⟨_, rfl⟩
  rw [← hze] at hzm ⊢
  have hab : (z.tile n).abandon true = z.tile n := by
    unfold Tile.abandon
    rw [hzm, hprg]
    exact if_neg Bool.false_ne_true
  obtain ⟨r, hr⟩ := (z.tile n).cleared (op == 1 && bit (byteAt b 29) 1) (upto (byteAt b 24 * byteAt b 25))
    (fun e => 64 * (e / byteAt b 25) + e % byteAt b 25)
  refine ⟨r, ?_⟩
  unfold State.benchAt
  rw [Bool.and_false, Bool.false_and, Bool.false_and, bif_false, bne_self_eq_false, bif_false, hab]
  dsimp only
  rw [hr]

theorem prgOf_start (pc : Nat) : prgOf pc 0 % 2 ^ 16 = 0 := by
  unfold prgOf
  lia

/-- A bench instruction that passes its checks is under way after its issue; the end of an only granule completes it. -/
theorem exec_bench {s : State} {n op : Nat} {x : RegSet} {y : BenchSyl} {b : List Byte} {i : Instr} (ho : op < 2 ^ 6)
    (hi : exec i s = .next (s.syllable n (y.word op))) (hn : n < 64) (hr : s.readyAt n = true) (hs : y.stop = true)
    (hcur : (s.tile n).cur = x) (hprg : bit x.prg 31 = false) (hlvl : (s.tile n).lvl = false)
    (hz : y.z.toNat + (if op = 0 then y.pn.toNat else 0) = 0)
    (hb : (if x.pReg y.pn.toNat ≤ 0x1FFFE0 then s.tileBytes n (x.pReg y.pn.toNat) 32 else zeros 32) = b)
    (hf : s.benchFault n op (x.pReg y.pn.toNat) 0 b = 0) :
    ∃ t, exec i s = .next t ∧ (t.tile n).long = some ⟨op, b, benchGranules op b⟩ ∧ (t.tile n).busy = true ∧
      (t.tile n).main = { x with prg := prgOf x.pc 0 } ∧ t.mem = s.mem ∧
      (benchGranules op b = 1 → (s.tile n).cmd = none → (s.tile n).wantInt = false → s.get (xState n) = 0 →
        ∃ u, exec (.benchGranuleEnd n) t = .next u ∧ u.mem = (t.granule n ⟨op, b, 1⟩ 0).mem ∧
          (u.tile n).bench = ((t.granule n ⟨op, b, 1⟩ 0).tile n).bench ∧
          (u.tile n).long = none ∧ (u.tile n).busy = false ∧ (u.tile n).main.prg = 0) := by
  have he := y.word_encodes ho
  have hmain : (s.tile n).main = x := by
    rw [Tile.cur, hlvl] at hcur
    exact hcur
  obtain ⟨r, hissue⟩ := State.benchIssue_fresh he hcur hprg hlvl hz hb hf
  rw [State.syllable_bench hr hs he, hissue] at hi
  obtain ⟨t, ht⟩ : ∃ t, t = (s.issuing n).tilePut n ({ (s.issuing n).tile n with bench := r }.started op x.pc b) := ⟨_, rfl⟩
  rw [← ht] at hi
  have htile : t.tile n = { s.tile n with bundle := [], idle := false, bench := r }.started op x.pc b := by
    rw [ht, State.tile_tilePut, State.issuing, State.tile_setTile]
  have hlong : (t.tile n).long = some ⟨op, b, benchGranules op b⟩ := by rw [htile]; rfl
  have hbusy : (t.tile n).busy = true := by rw [htile]; rfl
  have hm : (t.tile n).main = { x with prg := prgOf x.pc 0 } := by
    rw [htile, ← hmain]
    rfl
  have hx : t.get (xState n) = s.get (xState n) := by
    rw [ht]
    refine (State.get_tilePut _ n _ (xState n) ?_ ?_).trans rfl
    · exact fun h => absurd (Nat.add_right_cancel h) (by decide)
    · exact fun h => absurd (Nat.add_right_cancel h) (by decide)
  refine ⟨t, hi, hlong, hbusy, hm, by rw [ht, State.tilePut_mem]; rfl, fun h1 hc hw h0 => ?_⟩
  rw [h1] at hlong
  have hk : (t.tile n).main.prg % 2 ^ 16 = 0 := by
    rw [hm]
    exact prgOf_start x.pc
  obtain ⟨u, hu, hul, hub, hup, hum, hubench⟩ := exec_granuleEnd_last hn hlong hbusy (by rw [htile]; exact hc)
    (by rw [htile]; exact hw) (hx.trans h0) (by rw [hk])
  rw [hk] at hum hubench
  exact ⟨u, hu, hum, hubench, hul, hub, hup⟩

/-- BCLR has no checks but those of the level and of a claim. -/
theorem State.benchFault_bclr {s : State} {n : Nat} (p : Nat) (b : List Byte) (hlvl : (s.tile n).lvl = false) (hc : s.claimed n = false) :
    s.benchFault n 0 p 0 b = 0 := by
  rw [State.benchFault, hlvl, hc]
  rfl

theorem exec_interruptEntry {s : State} {n b : Nat} (hd : s.tipDue n = some b) (hst : s.get (tileState n) = 2)
    (hlvl : (s.tile n).lvl = false) (hie : (s.tile n).main.ie = true) (hb : (s.tile n).busy = false) :
    exec (.interruptEntry n) s = .next (s.tileEnter n b) := by
  show execInterruptEntry n s = _
  rw [execInterruptEntry, hd, hst, hlvl, hie]
  dsimp only
  rw [hb]
  rfl

theorem exec_granuleEnd_none {s : State} {n : Nat} (hl : (s.tile n).long = none) : exec (.benchGranuleEnd n) s = .next s := by
  show execBenchGranuleEnd n s = _
  rw [execBenchGranuleEnd, hl]

/-- Settles O39: what a granule leaves of its tile keeps the boundary behind it quiet, and a bench syllable is a whole bundle
that starts afresh where PRG names no instruction. -/
theorem benchInstructionsComplete : Obligations.BenchInstructionsComplete := by
  refine ⟨?bclr, ?others, ?last, fun s n => exec_granuleEnd_none, ?next, fun s n b => exec_interruptEntry⟩
  case bclr =>
    intro s n x y b hr hs hcur hn hprg hlvl hc hz hp hb
    rw [← show y.pn.toNat = 0 by rw [hp]; rfl] at hb
    obtain ⟨t, ht, hlong, hbusy, hmain, hmem, hend⟩ := exec_bench (op := 0) (i := .bclr n y) (by decide) rfl hn hr hs hcur hprg
      hlvl (by rw [hz, hp]; rfl) hb (State.benchFault_bclr _ b hlvl hc)
    refine ⟨t, ht, hlong, hbusy, hmain, hmem, fun hcmd hw hx => ?_⟩
    obtain ⟨u, hu, hum, hubench, hul, hub, hup⟩ := hend rfl hcmd hw hx
    unfold State.granule at hum hubench
    rw [if_pos rfl] at hum hubench
    exact ⟨u, hu, hubench.trans (by rw [State.tile_setTile]), hul, hub, hup, hum.trans hmem⟩
  case others =>
    intro s n x y b hr hs hcur hn hprg hlvl hz hb p hp hf
    have hz0 : y.z.toNat = 0 := by rw [hz]; rfl
    simp only [List.mem_cons, List.not_mem_nil, or_false] at hp
    obtain rfl | rfl | rfl | rfl := hp
    · exact exec_bench (by decide) rfl hn hr hs hcur hprg hlvl hz0 hb hf
    · exact exec_bench (by decide) rfl hn hr hs hcur hprg hlvl hz0 hb hf
    · exact exec_bench (by decide) rfl hn hr hs hcur hprg hlvl hz0 hb hf
    · exact exec_bench (by decide) rfl hn hr hs hcur hprg hlvl hz0 hb hf
  case last =>
    intro s n l hn hl hb hk hc hw hx
    exact exec_granuleEnd_last hn hl hb hc hw hx hk
  case next =>
    intro s n l hn hl hb hk hc hw hx
    exact exec_granuleEnd_next hn hl hb hc hw hx hk

end Sys2Proof.Machine
end

section
/-! PROOF swaps: a commit swaps the lanes, the coarse grids and the fine inputs (04 R136; 05 R174 to R176; 06 R202, R203). -/
namespace Sys2Proof.Machine

/-! ### What the calibration's part in a swap leaves alone -/

/-- A calibration failure touches the calibration run alone. -/
theorem State.calFail_stm (s : State) (ops states : List Nat) (n code : Nat) : ∃ m, s.calFail ops states n code = { s with stm := m } := by
  unfold State.calFail
  cases s.stm.run with
  | none => exact ⟨s.stm, rfl⟩
  | some r =>
    dsimp -zeta only
    cases ops.contains _ && _
    · exact ⟨s.stm, rfl⟩
    · exact ⟨_, rfl⟩

/-! ### Lanes -/

theorem foldl_keeps_mem {α β γ : Type} {f : α → β → α} (g : α → γ) {l : List β} (h : ∀ a, ∀ b ∈ l, g (f a b) = g a) (a : α) :
    g (l.foldl f a) = g a := by
  induction l generalizing a with
  | nil => rfl
  | cons b l ih => rw [List.foldl_cons, ih (fun a c hc => h a c (.tail _ hc)), h a b (.head _)]

theorem State.lanesLeft_swapWhere (s : State) (b : Blk) (p : Nat → Bool) : (s.swapWhere b p).ing.lanesLeft = s.ing.lanesLeft :=
  foldl_keeps _ (fun s => s.ing.lanesLeft) (fun _ _ => congrArg Ingress.lanesLeft (State.setWord_ing ..)) _ s

theorem State.lanesLeft_swapDone (s : State) (b : Blk) : (s.swapDone b).ing.lanesLeft = s.ing.lanesLeft :=
  Beside.swapDone (F := fun s => s.ing.lanesLeft) ⟨fun s l v => congrArg Ingress.lanesLeft (State.put_ing s l v),
    fun s n => congrArg Ingress.lanesLeft (State.ev_ing s n), fun _ _ => rfl⟩ s b

/-- The lanes that a commit waits for, and what a place of a lane's settings holds in the live and in the staged bank. -/
noncomputable def State.laneCfg (l : Loc) (s : State) : List Nat × Nat × Nat := (s.ing.lanesLeft, s.get l, s.get (l.staged .ingress))

/-- A word of a lane's settings, live or staged. -/
def cfgWord (o : Nat) : Prop := (0x1000400 ≤ o ∧ o < 0x1000600) ∨ (0x1200400 ≤ o ∧ o < 0x1200600)

theorem cfgWord.low {o : Nat} (h : cfgWord o) : 0x1000400 ≤ o := h.elim And.left fun h => le_trans (by decide) h.1

theorem cfgWord.not_event {o : Nat} (h : cfgWord o) : ¬ eventWord o := not_eventWord (.inr (.inr (le_trans (by decide) h.low)))

theorem not_cfgWord_between {o : Nat} (hl : 0x1000600 ≤ o) (hh : o < 0x1200400) : ¬ cfgWord o := fun c =>
  c.elim (fun c => Nat.not_lt_of_le hl c.2) fun c => Nat.not_lt_of_le c.1 hh

theorem not_cfgWord_high {o : Nat} (h : 0x1200600 ≤ o) : ¬ cfgWord o := fun c =>
  Nat.not_lt_of_le h (c.elim (fun c => c.2.trans (by decide)) And.right)

/-- No fine setting lies in a lane's word. -/
theorem fine_unmasked : ∀ k < 128, bankMask .fine (0x1000400 + 4 * k) = 0 := by decide
theorem fine_unmasked' : ∀ k < 128, bankMask .fine (0x1200400 + 4 * k) = 0 := by decide

theorem fine_sram (g : Nat) : ¬ cfgWord (Reg.FCH_CTSRAM_BYTES.e g).off := by
  rw [Fld.e_off]
  exact not_cfgWord_high (le_trans (by decide) (Nat.le_add_right ..))

theorem fine_low : ¬ cfgWord Reg.FCH_CTHBM_L_BYTES.z.off := by
  unfold cfgWord
  decide

theorem fine_high : ¬ cfgWord Reg.FCH_CTHBM_H_BYTES.z.off := by
  unfold cfgWord
  decide

theorem fine_stat : ¬ cfgWord Reg.FCH_STAT_SWPEND.z.off := by
  unfold cfgWord
  decide

/-- `l` is a place of the settings of lane `lane`. -/
def cfgPlace (lane : Nat) (l : Loc) : Prop := lane < 128 ∧ l.off = 0x1000400 + 4 * lane

section
variable {lane : Nat} {l : Loc} (hl : cfgPlace lane l)
include hl

theorem cfgPlace.live : cfgWord l.off := by
  obtain ⟨h, ho⟩ := hl
  rw [ho]
  exact .inl ⟨Nat.le_add_right .., Nat.add_lt_add_left (Nat.mul_lt_mul_of_pos_left h (by decide)) _⟩

theorem cfgPlace.staged_off : (l.staged .ingress).off = 0x1200400 + 4 * lane := by
  show l.off + 0x200000 = _
  rw [hl.2, Nat.add_right_comm]

theorem cfgPlace.staged : cfgWord (l.staged .ingress).off := by
  rw [hl.staged_off]
  exact .inr ⟨Nat.le_add_right .., Nat.add_lt_add_left (Nat.mul_lt_mul_of_pos_left hl.1 (by decide)) _⟩

/-- What reads both words, and the list, the same. -/
theorem State.laneCfg_eq {s t : State} (hi : t.ing.lanesLeft = s.ing.lanesLeft) (hg : ∀ m : Loc, cfgWord m.off → t.get m = s.get m) :
    t.laneCfg l = s.laneCfg l := by
  rw [State.laneCfg, hi, hg l hl.live, hg _ hl.staged]
  rfl

theorem State.laneCfg_put (s : State) {m : Loc} (v : Nat) (hm : ¬ cfgWord m.off) : (s.put m v).laneCfg l = s.laneCfg l :=
  State.laneCfg_eq hl (congrArg Ingress.lanesLeft (State.put_ing ..))
    fun _ hk => State.get_put_apart _ _ (.inl fun he => hm (he ▸ hk))

theorem OnInput.laneCfg {n : Nat} {s t : State} (h : OnInput n s t) (hn : n < 128) : t.laneCfg l = s.laneCfg l := by
  refine State.laneCfg_eq hl (Prod.mk.inj h.lanes).2 fun k hk => h.writes.get k hk.not_event fun _ hm =>
    .inl (hm.outside hn ?_)
  exact hk.imp (fun h => ⟨le_trans (by decide) h.1, h.2.trans (by decide)⟩) fun h => ⟨le_trans (by decide) h.1, h.2.trans (by decide)⟩

theorem OnInputs.laneCfg {p : Nat → Prop} {s t : State} (h : OnInputs p s t) : t.laneCfg l = s.laneCfg l := by
  induction h with
  | refl => rfl
  | step _ hn _ k ih => exact (k.laneCfg hl hn).trans ih

theorem State.laneCfg_ev (s : State) {m : Nat} (hm : m < 512) : (s.ev m).laneCfg l = s.laneCfg l :=
  OnInput.laneCfg (n := 0) hl (.ev s hm) (by decide)

theorem State.laneCfg_swapDone (s : State) (b : Blk) : (s.swapDone b).laneCfg l = s.laneCfg l := by
  refine State.laneCfg_eq hl (s.lanesLeft_swapDone b) fun k hk => (Frame.swapDone s b).get k hk.not_event fun m hm =>
    .inl fun he => ?_
  unfold cfgWord at hk
  unfold hdrWord at hm
  lia

theorem State.laneCfg_laneTo (s : State) {m : Nat} (v : Nat) (hm : m < 128) : (s.laneTo m v).laneCfg l = s.laneCfg l := by
  refine ((OnInputs.laneFollow s m v).laneCfg hl).trans (State.laneCfg_put hl s v ?_)
  rw [laneState_off]
  exact not_cfgWord_between (Nat.le_add_right ..) ((Nat.add_lt_add_left (Nat.mul_lt_mul_of_pos_left hm (by decide)) _).trans (by decide))

theorem State.laneCfg_laneFails (s : State) (m c : Nat) : (s.laneFails m c).laneCfg l = s.laneCfg l :=
  (OnInputs.laneFails s m c).laneCfg hl

theorem State.laneCfg_laneRetrain (s : State) {m : Nat} (hm : m < 128) : (s.laneRetrain m).laneCfg l = s.laneCfg l := by
  unfold State.laneRetrain
  cases le (s.get (laneState m)) 1
  · rw [bif_false, State.laneCfg_laneTo hl _ _ hm]
    exact State.laneCfg_laneFails hl s m 1
  · rfl

theorem State.laneCfg_testGap (s : State) {n : Nat} (hn : n < 128) : (s.testGap n).laneCfg l = s.laneCfg l := by
  unfold State.testGap
  exact OnInput.laneCfg hl (.cond _ (((OnInput.gapCause hn s 15).trans (.setInp _ _)).trans (.ingState hn _)) (.refl s)) hn

/-- A swap that passes the lanes' settings by. -/
theorem State.laneCfg_swapWhere (s : State) {b : Blk} {p : Nat → Bool}
    (h : ∀ k < 128, p (0x1000400 + 4 * k) = false ∧ b.base + b.half ≤ 0x1200400 ∨
      bankMask b (0x1000400 + 4 * k) = 0 ∧ bankMask b (0x1200400 + 4 * k) = 0) :
    (s.swapWhere b p).laneCfg l = s.laneCfg l := by
  have hs := hl.staged_off
  obtain ⟨hlane, ho⟩ := hl
  rw [State.laneCfg, State.lanesLeft_swapWhere]
  rcases h lane hlane with ⟨hp, hb⟩ | ⟨hm, hm'⟩
  · rw [State.get_swapWhere_other (l := l) (.inr (.inl (ho ▸ hp))),
      State.get_swapWhere_other (l := l.staged .ingress) (.inr (.inr (hs ▸ Nat.le_trans hb (Nat.le_add_right ..))))]
    rfl
  · rw [State.get_swapWhere_other (l := l) (.inl (ho ▸ hm)), State.get_swapWhere_other (l := l.staged .ingress) (.inl (hs ▸ hm'))]
    rfl

theorem State.laneCfg_ringSync (s : State) : s.ringSync.laneCfg l = s.laneCfg l := by
  unfold State.ringSync
  refine (foldl_keeps _ (State.laneCfg l) (fun a g => State.laneCfg_put hl a _ (fine_sram g)) _ _).trans ?_
  unfold State.put64
  rw [State.laneCfg_put hl _ _ fine_high, State.laneCfg_put hl _ _ fine_low]

/-- The inputs' grids once the block has taken the new bank. -/
theorem State.laneCfg_fine (s : State) (f : Fine) : ({ s with fine := f } : State).laneCfg l = s.laneCfg l :=
  State.laneCfg_eq hl rfl fun _ _ => rfl

theorem State.laneCfg_fineSwap (s : State) :
    ((((s.swapWhere .fine (fun _ => true)).flag Reg.FCH_STAT_SWPEND.z false).ev 250).swapDone .fine).laneCfg l = s.laneCfg l := by
  rw [State.laneCfg_swapDone hl, State.laneCfg_ev hl _ (by decide), State.flag, State.laneCfg_put hl, State.laneCfg_swapWhere hl]
  · exact fun k hk => .inr ⟨fine_unmasked k hk, fine_unmasked' k hk⟩
  · exact fine_stat

theorem State.laneCfg_fineDone (s : State) : s.fineDone.laneCfg l = s.laneCfg l := by
  rw [State.fineDone]
  generalize (s.maySwap .fine && s.fine.left.isEmpty && s.fine.inputs.all (fun e => e.2.chains.all (·.side))) = c
  cases c
  · rw [bif_false]
  · rw [bif_true]
    extract_lets z same
    rw [State.laneCfg_ringSync hl, State.laneCfg_fine hl]
    exact State.laneCfg_fineSwap hl s

theorem State.laneCfg_fineEnd (s : State) (n : Nat) : (s.fineEnd n).laneCfg l = s.laneCfg l :=
  (State.laneCfg_fineDone hl _).trans rfl

end

section
variable {n : Nat} (hn : n < 128)
include hn

theorem OnInput.gapClose (s : State) (len : Nat) (g : Gap) : OnInput n s (s.gapClose n len g) := by
  unfold State.gapClose
  have hlow : inputPlace n (Reg.ING_GAP_L_SAMP.e n) := .inr (.inr (.inr (.inl (congrArg (0x1002000 + ·) (Nat.mul_comm n 8)))))
  have hhigh : inputPlace n (Reg.ING_GAP_H_SAMP.e n) := .inr (.inr (.inr (.inr (.inl (congrArg (0x1002004 + ·) (Nat.mul_comm n 8))))))
  extract_lets x z y
  have hy : OnInput n s y := (OnInput.setInp s _).trans (.gapRecord _ n 3 g len)
  clear_value y
  refine (hy.trans ((OnInput.put y _ hlow (.inl ?_)).trans (.put _ _ hhigh (.inl ?_)))).trans (.ev _ (OnInput.event_lt hn))
  · show 0x1002000 + (n * 8 + 0) ≠ _
    lia
  · show 0x1002004 + (n * 8 + 0) ≠ _
    lia

theorem OnInput.settleGap (s : State) (i lap : Nat) : OnInput n s (s.settleGap n i lap) := by
  unfold State.settleGap
  extract_lets x missing z
  have hz : OnInput n s z := .cond _ (.foldl (fun a c => .causeBit hn a c) _ s) (.refl s)
  clear_value z
  cases x.gap with
  | some g => exact hz.trans (.gapClose hn _ _ _)
  | none => exact hz.trans (.cond _ (((OnInput.setInp z _).trans (.calFail ..)).trans (.gapClose hn ..)) (.setInp ..))

theorem OnInput.genStart (s : State) : OnInput n s (s.genStart n) := by
  unfold State.genStart
  extract_lets x f i m len gap z
  have hg := OnInput.settleGap hn s i 0
  have hnow : (s.settleGap n i 0).now = s.now := by rw [State.now, hg.tb, ← State.now]
  have hz : OnInput n s z := .cond _ (hg.trans (hnow ▸ .ev _ (by decide))) (.refl s)
  clear_value z
  exact hz.trans (.setInp ..)

end

theorem ofElem_false {fs : List Fld} {o : Nat} (i : Nat) (h : ∀ f ∈ fs, f.covers o = false) : ofElem fs i o = false := by
  unfold ofElem
  rw [List.any_eq_false]
  intro f hf
  rw [h f hf, Bool.false_and]
  exact Bool.false_ne_true

/-- The words of the inputs' maps and of the groups are none of the lanes'. -/
theorem map_uncovered : ∀ k < 128, ∀ f ∈ mapFields, f.covers (0x1000400 + 4 * k) = false := by decide
theorem group_uncovered : ∀ k < 128, ∀ f ∈ [Reg.ING_GCFG_JESD], f.covers (0x1000400 + 4 * k) = false := by decide

section
variable {lane : Nat} {l : Loc} (hl : cfgPlace lane l)
include hl

theorem State.laneCfg_setLane (s : State) (m : Nat) (x : Lane) : (s.setLane m x).laneCfg l = s.laneCfg l :=
  State.laneCfg_eq hl rfl fun _ _ => rfl

theorem State.laneCfg_lerr (s : State) {m : Nat} (hm : m < 128) :
    (s.put64 (Reg.ING_LERR_L_ERR.e m) (Reg.ING_LERR_H_ERR.e m) 0).laneCfg l = s.laneCfg l := by
  have hoff {g : Fld} (hg : 0x1000800 ≤ g.off) (hd : g.off < 0x1000900) (hs : g.dims = [(8, 128)]) : ¬ cfgWord (g.e m).off := by
    rw [Fld.e_off, hs]
    exact not_cfgWord_between (le_trans (by decide) (hg.trans (Nat.le_add_right ..)))
      ((Nat.add_lt_add hd (Nat.mul_lt_mul_of_pos_right hm (by decide))).trans (by decide))
  unfold State.put64
  rw [State.laneCfg_put hl _ _ (hoff (g := Reg.ING_LERR_H_ERR) (by decide) (by decide) rfl), State.laneCfg_put hl _ _ (hoff (g := Reg.ING_LERR_L_ERR) (by decide) (by decide) rfl)]

omit hl in
theorem State.laneCfg_cond (c : Bool) {a b : State} {x : List Nat × Nat × Nat} (ha : a.laneCfg l = x) (hb : b.laneCfg l = x) :
    (bif c then a else b).laneCfg l = x := by
  cases c <;> assumption

theorem State.laneCfg_dcSync (s : State) (n : Nat) : (s.dcSync n).laneCfg l = s.laneCfg l := by
  have hoff {f : Fld} (hf : 0x1400000 ≤ f.off) : ¬ cfgWord (f.e n).off := by
    rw [Fld.e_off]
    exact not_cfgWord_high (le_trans (by decide : 0x1200600 ≤ 0x1400000) (hf.trans (Nat.le_add_right ..)))
  unfold State.dcSync
  exact (State.laneCfg_put hl _ _ (hoff (by decide))).trans (State.laneCfg_put hl _ _ (hoff (by decide)))

variable {n : Nat} (hn : n < 128)
include hn

theorem State.laneCfg_inputEnabled (s : State) : (s.inputEnabled n).laneCfg l = s.laneCfg l := by
  unfold State.inputEnabled
  extract_lets f f' x z y
  have hz : z.laneCfg l = s.laneCfg l := State.laneCfg_eq hl rfl fun _ _ => rfl
  clear_value z
  have hy : y.laneCfg l = s.laneCfg l := (State.laneCfg_dcSync hl z n).trans hz
  clear_value y
  exact (OnInput.laneCfg hl (.cond _ (.gapCause hn y 11) (.refl y)) hn).trans hy

theorem State.laneCfg_swapInput (s : State) : (s.swapInput n).laneCfg l = s.laneCfg l := by
  unfold State.swapInput
  extract_lets was rate map gen z1 now x changed map2 moved gen2 left z2 z3 y z4 z5 z6
  have h1 : z1.laneCfg l = s.laneCfg l := by
    refine ((OnInput.calFail (n := n) _ _ _ _ _).laneCfg hl hn).trans (State.laneCfg_swapWhere hl s fun k hk => .inl ⟨?_, by decide⟩)
    exact ofElem_false n (map_uncovered k hk)
  clear_value z1
  have h3 : z3.laneCfg l = z1.laneCfg l := OnInput.laneCfg hl
    (.trans (.setInp z1 _) (.cond _ ((OnInput.causeBit hn z2 10).trans (.causeLater hn _ 10)) (.refl z2))) hn
  clear_value z3
  have h4 : z4.laneCfg l = z3.laneCfg l := OnInput.laneCfg hl (.cond _ (.setInp z3 _) (.refl z3)) hn
  clear_value z4
  have h5 : z5.laneCfg l = z4.laneCfg l := by
    show (bif _ then _ else bif _ then _ else _ : State).laneCfg l = _
    cases !was && now
    · rw [bif_false]
      cases was && !now
      · rw [bif_false]
      · rw [bif_true, State.laneCfg_fineEnd hl]
    · rw [bif_true, State.laneCfg_inputEnabled hl hn]
  clear_value z5
  have h6 : z6.laneCfg l = z5.laneCfg l := OnInput.laneCfg hl (.cond _ (.genStart hn z5) (.refl z5)) hn
  clear_value z6
  exact ((OnInput.ingState hn _).laneCfg hl hn).trans ((State.laneCfg_testGap hl z6 hn).trans
    (h6.trans (h5.trans (h4.trans (h3.trans h1)))))

theorem State.laneCfg_inputBoundary (s : State) (m : Nat) : (s.inputBoundary m n).laneCfg l = s.laneCfg l := by
  unfold State.inputBoundary
  extract_lets st lv changed x
  generalize (changed && bits (bif bit st 31 then st else lv) 0 7 == m) = c
  cases c
  · rw [bif_false]
    exact OnInput.laneCfg hl (.cond _ (.setInp s _) (.cond _ (.setInp s _) (.refl s))) hn
  · rw [bif_true, State.laneCfg_swapInput hl hn]

end

theorem State.laneCfg_swapGroup {lane : Nat} {l : Loc} (hl : cfgPlace lane l) {g : Nat} (hg : g < 16) (s : State) :
    (s.swapGroup g).laneCfg l = s.laneCfg l := by
  rw [State.swapGroup]
  extract_lets v z v2
  have hz : z.laneCfg l = s.laneCfg l :=
    State.laneCfg_swapWhere hl s fun k hk => .inl ⟨ofElem_false g (group_uncovered k hk), by decide⟩
  clear_value z
  generalize s.ing.lanesLeft.any (fun l => l / 8 == g) = c
  cases c
  · rw [bif_false]
    generalize (v / 2 ^ 30 != v2 / 2 ^ 30 || (bit v2 31 && v != v2)) = d
    cases d
    · rw [bif_false, hz]
    · rw [bif_true, ← hz]
      refine foldl_keeps_mem (State.laneCfg l) (fun a m hm => State.laneCfg_laneRetrain hl a ?_) z
      obtain ⟨k, hk, rfl⟩ := List.mem_map.mp hm
      have := List.mem_range.mp hk
      lia
  · rw [bif_true]

/-- A key that is not listed has the default value. -/
theorem tget_unlisted {α : Type} (d : Nat → α) {m : Tbl α} {k : Nat} (h : ∀ e ∈ m, e.1 ≠ k) : tget d m k = d k := by
  induction m with
  | nil => rfl
  | cons e m ih =>
    rw [tget, if_neg (h e (.head _)).symm, ih fun e he => h e (.tail _ he)]

/-- What a bank place must meet for a swap of its word to take it from the staged bank. -/
structure Banked (b : Blk) (l : Loc) : Prop where
  wide : l.lo + l.w ≤ 32
  lt : bankMask b l.off < 2 ^ 32
  mask : ∀ j < l.w, (bankMask b l.off).testBit (l.lo + j) = true
  base : b.base ≤ l.off
  half : l.off < b.base + b.half
  live : liveOff b l.off = l.off
  staged : liveOff b (l.off + b.half) = l.off
  reset : resetWord l.off = resetWord (l.off + b.half)

section
variable {b : Blk} {l : Loc} (h : Banked b l)
include h

theorem Banked.fold (L : List Nat) (hL : ∀ x ∈ L, x < b.base + b.half) (s : State)
    (hs : l.off ∈ L ∨ s.get l = s.get (l.staged b)) : (L.foldl (State.swapWord b) s).get l = s.get (l.staged b) := by
  induction L generalizing s with
  | nil => exact hs.resolve_left List.not_mem_nil
  | cons x L ih =>
    have hst : (State.swapWord b s x).get (l.staged b) = s.get (l.staged b) := by
      have hne : (l.staged b).off ≠ x := fun he => absurd (hL x (.head _)) (Nat.not_lt_of_le (he ▸ Nat.add_le_add_right h.base _))
      rw [State.get, State.word_swapWord, if_neg hne, ← State.get]
    rw [List.foldl_cons, ih (fun y hy => hL y (.tail _ hy)) _ ?_, hst]
    by_cases hx : l.off = x
    · refine .inr ?_
      rw [hst, State.get, State.word_swapWord, if_pos hx, ← hx, bits_bankMix h.wide h.lt h.mask]
      rfl
    · rcases hs with hm | he
      · exact .inl ((List.mem_cons.mp hm).resolve_left hx)
      · refine .inr ?_
        rw [hst, ← he, State.get, State.word_swapWord, if_neg hx, ← State.get]

/-- A swap that takes the word of a bank place gives it what the staged bank holds. -/
theorem Banked.swapped (s : State) {p : Nat → Bool} (hp : p l.off = true) : (s.swapWhere b p).get l = s.get (l.staged b) := by
  refine h.fold _ (fun x hx => ?_) s ?_
  · have hx := (List.mem_filter.mp (List.mem_filter.mp hx).1).2
    simp only [Bool.and_eq_true, decide_eq_true_eq] at hx
    exact hx.2
  · by_cases hm : l.off ∈ s.regs.map (fun e => liveOff b e.1)
    · refine .inl (List.mem_filter.mpr ⟨List.mem_filter.mpr ⟨hm, ?_⟩, hp⟩)
      rw [decide_eq_true h.base, decide_eq_true h.half]
      rfl
    · have hun {o : Nat} (ho : liveOff b o = l.off) : s.word o = resetWord o :=
        tget_unlisted _ fun e he heq => hm (List.mem_map.mpr ⟨e, he, by rw [heq, ho]⟩)
      have hword : s.word l.off = s.word (l.staged b).off := by
        rw [hun h.live, h.reset]
        exact (hun h.staged).symm
      exact .inr (by rw [State.get, State.get, hword]; rfl)

end

/-! ### The frame boundary of a lane -/

/-- The fields of a lane's settings that swap. -/
def laneField (f : Fld) : Prop := f = Reg.ING_LCFG_INV ∨ f = Reg.ING_LCFG_PWRDN ∨ f = Reg.ING_LCFG_CHK

theorem laneWord_bank : ∀ k < 128, bankMask .ingress (0x1000400 + 4 * k) = 15 ∧ ofElem [Reg.ING_LCFG_INV] k (0x1000400 + 4 * k) = true := by
  decide
theorem laneWord_reset : ∀ k < 128, resetWord (0x1000400 + 4 * k) = resetWord (0x1000400 + 4 * k + Blk.ingress.half) := by decide
theorem laneWord_live : ∀ k < 128, liveOff .ingress (0x1000400 + 4 * k) = 0x1000400 + 4 * k ∧
    liveOff .ingress (0x1000400 + 4 * k + Blk.ingress.half) = 0x1000400 + 4 * k := by decide

theorem laneField.off {f : Fld} (hf : laneField f) (lane : Nat) : (f.e lane).off = 0x1000400 + 4 * lane := by
  rw [Fld.e_off]
  rcases hf with rfl | rfl | rfl
  · exact congrArg (0x1000400 + ·) (Nat.mul_comm lane 4)
  · exact congrArg (0x1000400 + ·) (Nat.mul_comm lane 4)
  · exact congrArg (0x1000400 + ·) (Nat.mul_comm lane 4)

theorem laneField.banked {f : Fld} (hf : laneField f) {lane : Nat} (hn : lane < 128) : Banked .ingress (f.e lane) := by
  have ho := hf.off lane
  have hm : bankMask .ingress (f.e lane).off = 15 := by rw [ho, (laneWord_bank lane hn).1]
  obtain ⟨hlive, hst⟩ := laneWord_live lane hn
  have hlow : (f.e lane).lo + (f.e lane).w ≤ 4 := by
    rw [Fld.e_lo, Fld.e_w]
    rcases hf with rfl | rfl | rfl
    · decide
    · decide
    · decide
  have hfour : ∀ i < 4, Nat.testBit 15 i = true := by decide
  have hbase : Blk.ingress.base = 0x1000000 := rfl
  have hhalf : Blk.ingress.half = 0x200000 := rfl
  exact ⟨by lia, by rw [hm]; decide, fun j hj => hm ▸ hfour _ (by lia), by lia, by lia, by rw [ho, hlive], by rw [ho, hst],
    by rw [ho, laneWord_reset lane hn]⟩

section
variable {lane : Nat} {f : Fld} (hn : lane < 128) (hf : laneField f)
include hn hf

theorem laneField.place : cfgPlace lane (f.e lane) := ⟨hn, hf.off lane⟩

theorem State.laneCfg_swapLane (s : State) :
    (s.swapLane lane).laneCfg (f.e lane) = (s.ing.lanesLeft, s.get ((f.e lane).staged .ingress), s.get ((f.e lane).staged .ingress)) := by
  have hl := hf.place hn
  unfold State.swapLane
  extract_lets chk z1 chk2 x z2 z3 off
  have h1 : z1.laneCfg (f.e lane) = (s.ing.lanesLeft, s.get ((f.e lane).staged .ingress), s.get ((f.e lane).staged .ingress)) := by
    have hp : ofElem [Reg.ING_LCFG_INV] lane (f.e lane).off = true := by rw [hf.off, (laneWord_bank lane hn).2]
    unfold State.laneCfg
    rw [State.lanesLeft_swapWhere, (hf.banked hn).swapped s hp, State.get_swapWhere_other]
    exact .inr (.inr (Nat.add_le_add_right (hf.banked hn).base _))
  clear_value z1
  have h2 : z2.laneCfg (f.e lane) = z1.laneCfg (f.e lane) :=
    State.laneCfg_cond _ rfl ((State.laneCfg_setLane hl _ _ _).trans (State.laneCfg_lerr hl z1 hn))
  clear_value z2
  have h3 : z3.laneCfg (f.e lane) = z2.laneCfg (f.e lane) :=
    State.laneCfg_cond _ (foldl_keeps_mem (State.laneCfg (f.e lane)) (fun a m hm => State.laneCfg_testGap hl a (fedBy_lt z2 lane m hm).2) z2) rfl
  clear_value z3
  rw [← h1, ← h2, ← h3]
  generalize (off && z3.get (laneState lane) != 0) = c
  cases c
  · rw [bif_false]
    generalize (!off && z3.get (laneState lane) == 0 && z3.awake) = d
    cases d
    · rw [bif_false]
    · rw [bif_true, State.laneCfg_laneTo hl _ _ hn]
  · rw [bif_true, State.laneCfg_laneTo hl _ _ hn]
    exact State.laneCfg_laneFails hl z3 lane 1

end

/-- A lane at its frame boundary, before the block is done. -/
noncomputable def State.laneBoundary (s : State) (lane : Nat) : State :=
  (upto 128).foldl (fun s n => s.inputBoundary lane n)
    (({ s with ing := { s.ing with lanesLeft := s.ing.lanesLeft.filter (· ≠ lane) } } : State).swapLane lane |>.swapGroup (lane / 8))

theorem bif_isEmpty {α β : Type} (l : List α) (x y : β) [Decidable (l = [])] : (bif l.isEmpty then x else y) = if l = [] then x else y := by
  cases l
  · rw [if_pos rfl]
    rfl
  · rw [if_neg (List.cons_ne_nil _ _)]
    rfl

theorem exec_ingressSwap {s : State} {lane : Nat} (hm : s.maySwap .ingress = true) (hl : s.ing.lanesLeft.contains lane = true)
    [Decidable ((s.laneBoundary lane).ing.lanesLeft = [])] :
    exec (.ingressSwap lane) s = .next (if (s.laneBoundary lane).ing.lanesLeft = [] then
      ((s.laneBoundary lane).swapWhere .ingress (fun _ => true)).swapDone .ingress else s.laneBoundary lane) := by
  rw [← bif_isEmpty]
  show execIngressSwap lane s = _
  unfold execIngressSwap
  rw [hm, hl, Bool.and_self, bif_true]
  rfl

theorem exec_ingressSwap_settings {s : State} {lane : Nat} (hn : lane < 128) (hm : s.maySwap .ingress = true)
    (hl : s.ing.lanesLeft.contains lane = true) :
    ∃ t, exec (.ingressSwap lane) s = .next t ∧ t.ing.lanesLeft = s.ing.lanesLeft.filter (· ≠ lane) ∧
      ∀ f, f = Reg.ING_LCFG_INV ∨ f = Reg.ING_LCFG_PWRDN ∨ f = Reg.ING_LCFG_CHK →
        t.get (f.e lane) = s.get ((f.e lane).staged .ingress) := by
  have hcfg {f : Fld} (hf : laneField f) : (s.laneBoundary lane).laneCfg (f.e lane) =
      (s.ing.lanesLeft.filter (· ≠ lane), s.get ((f.e lane).staged .ingress), s.get ((f.e lane).staged .ingress)) := by
    have hp := hf.place hn
    refine (foldl_keeps_mem (State.laneCfg (f.e lane)) (fun a n h => State.laneCfg_inputBoundary hp (List.mem_range.mp h) a lane) _).trans ?_
    rw [State.laneCfg_swapGroup hp (Nat.div_lt_of_lt_mul hn), State.laneCfg_swapLane hn hf]
    rfl
  have hleft := (Prod.mk.inj (hcfg (.inl rfl))).1
  classical
  by_cases he : (s.laneBoundary lane).ing.lanesLeft = []
  · refine ⟨_, (exec_ingressSwap hm hl).trans (by rw [if_pos he]), ?_, fun f hf => ?_⟩
    · rw [State.lanesLeft_swapDone, State.lanesLeft_swapWhere, hleft]
    · obtain ⟨-, hread⟩ := Prod.mk.inj (State.laneCfg_swapDone (laneField.place hn hf)
        ((s.laneBoundary lane).swapWhere .ingress (fun _ => true)) .ingress)
      rw [(Prod.mk.inj hread).1, (laneField.banked hf hn).swapped _ rfl]
      exact (Prod.mk.inj (Prod.mk.inj (hcfg hf)).2).2
  · exact ⟨_, (exec_ingressSwap hm hl).trans (by rw [if_neg he]), hleft, fun f hf => (Prod.mk.inj (Prod.mk.inj (hcfg hf)).2).1⟩

end Sys2Proof.Machine
end

section
/-! PROOF swaps: a coarse grid takes its swap index, a fine input passes its swap point (05 R174 to R176; 06 R202, R203). -/
namespace Sys2Proof.Machine

/-! ### Coarse grids -/

/-- The grids that a commit waits for, those that swapped at once, and the swap indices. -/
noncomputable def State.swaps (s : State) : List Nat × List Nat × Tbl (Option Nat) := (s.front.gridsLeft, s.front.swapped, s.front.swapIdx)

theorem State.swaps_put (s : State) (l : Loc) (v : Nat) : (s.put l v).swaps = s.swaps := by
  rw [State.swaps, State.put_front]
  rfl

theorem State.swaps_beside : Beside State.swaps :=
  ⟨State.swaps_put, fun s n => by rw [State.swaps, State.ev_front]; rfl, fun _ _ => rfl⟩

theorem State.swaps_swapWhere (s : State) (b : Blk) (p : Nat → Bool) : (s.swapWhere b p).swaps = s.swaps :=
  foldl_keeps (State.swapWord b) State.swaps (fun _ _ => rfl) _ s

theorem State.swaps_ringSync (s : State) : s.ringSync.swaps = s.swaps := by
  unfold State.ringSync
  refine (foldl_keeps _ State.swaps (fun a g => a.swaps_put _ _) _ _).trans ?_
  unfold State.put64
  rw [State.swaps_put, State.swaps_put]

/-- A block that takes its new bank. -/
theorem State.swaps_bankTaken (s : State) (b : Blk) (l : Loc) (n : Nat) :
    ((((s.swapWhere b (fun _ => true)).flag l false).ev n).swapDone b).swaps = s.swaps := by
  rw [State.swaps_beside.swapDone, State.swaps_beside.ev, State.flag, State.swaps_put, State.swaps_swapWhere]

theorem State.swaps_frontDone (s : State) : s.frontDone.swaps = s.swaps := by
  rw [State.frontDone]
  generalize (s.maySwap .coarse && s.front.gridsLeft.isEmpty) = c
  cases c
  · rw [bif_false]
  · rw [bif_true, State.swaps_ringSync, State.swaps_bankTaken]
    rfl

theorem State.swaps_gridSwapped (s : State) (g : Nat) :
    (s.gridSwapped g).swaps = (s.front.gridsLeft.filter (· ≠ g), s.front.swapped, s.front.swapIdx) := by
  unfold State.gridSwapped
  rw [State.swaps_frontDone]
  rfl

theorem State.swaps_fine (s : State) (f : Fine) : ({ s with fine := f } : State).swaps = s.swaps := rfl

theorem State.swaps_fineDone (s : State) : s.fineDone.swaps = s.swaps := by
  rw [State.fineDone]
  generalize (s.maySwap .fine && s.fine.left.isEmpty && s.fine.inputs.all (fun e => e.2.chains.all (·.side))) = c
  cases c
  · rw [bif_false]
  · rw [bif_true]
    extract_lets z same
    rw [State.swaps_ringSync, State.swaps_fine]
    exact State.swaps_bankTaken ..

theorem State.swaps_fineEnd (s : State) (n : Nat) : (s.fineEnd n).swaps = s.swaps :=
  (State.swaps_fineDone _).trans rfl

theorem State.swaps_fineCut (s : State) (n h l i : Nat) : (s.fineCut n h l i).swaps = s.swaps :=
  (State.swaps_fineDone _).trans rfl

theorem State.swaps_dcZero (s : State) (n : Nat) : (s.dcZero n).swaps = s.swaps :=
  ((State.swaps_put ..).trans (State.swaps_put ..)).trans rfl

theorem State.swaps_cond (c : Bool) {a s : State} (h : a.swaps = s.swaps) : (bif c then a else s).swaps = s.swaps := by
  cases c
  · rfl
  · exact h

/-- The calibration's part in a main grid's swap. -/
theorem State.calSwap_cond (s : State) (c : Bool) (op n : Nat) : ∃ m, (bif c then s.calSwap op n else s) = { s with stm := m } := by
  cases c
  · exact ⟨s.stm, rfl⟩
  · exact s.calFail_stm [op] [2, 3] n 7

/-- An input with a running index series. -/
noncomputable def State.runsSeries (s : State) (n : Nat) : Bool := !((s.inp n).models.isEmpty || !s.on (Reg.ING_LMAP_EN.e n))

section
variable {s : State} {n port : Nat} (hm : s.maySwap .coarse = true) (hl : s.front.gridsLeft.contains (3 * n + port) = true)
include hm hl

/-- A grid of an input without a running index series swaps at once. -/
theorem exec_cchSwap_idle (hr : s.runsSeries n = false) : ∃ t, exec (.cchSwap n port) s = .next t ∧
    t.swaps = (s.front.gridsLeft.filter (· ≠ 3 * n + port), (3 * n + port) :: s.front.swapped, s.front.swapIdx) := by
  have hx : exec (.cchSwap n port) s = execCchSwap n port s := rfl
  rw [hx]
  unfold execCchSwap
  extract_lets g new old rst cut z x w w' f h i up idx v v' f'
  obtain ⟨m, hz⟩ : ∃ m, z = { s with stm := m } := s.calSwap_cond _ _ _
  have hzs : z.swaps = s.swaps := by rw [hz]; rfl
  have hrun : (x.models.isEmpty || !z.on (Reg.ING_LMAP_EN.e n)) = true := by
    unfold State.runsSeries at hr
    rw [Bool.not_eq_false'] at hr
    rw [← hr]
    show ((z.inp n).models.isEmpty || _) = _
    rw [hz]
    rfl
  rw [hm, hl, Bool.and_self, bif_true, hrun, bif_true]
  have hw : w'.swaps = s.swaps :=
    (State.swaps_cond _ (w.swaps_fineEnd n)).trans ((State.swaps_cond _ (z.swaps_dcZero n)).trans hzs)
  obtain ⟨h1, h2⟩ := Prod.mk.inj hw
  obtain ⟨h2, h3⟩ := Prod.mk.inj h2
  refine ⟨_, rfl, (State.swaps_gridSwapped ..).trans ?_⟩
  show (w'.front.gridsLeft.filter (· ≠ g), g :: w'.front.swapped, w'.front.swapIdx) = _
  rw [h1, h2, h3]

/-- A grid of an input with a running index series takes its swap index. -/
theorem exec_cchSwap_runs (hr : s.runsSeries n = true) : ∃ t, exec (.cchSwap n port) s = .next t ∧
    t.swaps = (s.front.gridsLeft.filter (· ≠ 3 * n + port), s.front.swapped, tinsert s.front.swapIdx (3 * n + port)
      (some (bif (s.inp n).gap.isSome then s.indexAt n s.commitAt else
        bif lt (ceilDiv (s.indexAt n s.commitAt) ((s.gridNew n).hop n port) * (s.gridNew n).hop n port) idxMod
        then ceilDiv (s.indexAt n s.commitAt) ((s.gridNew n).hop n port) * (s.gridNew n).hop n port else 0))) := by
  have hx : exec (.cchSwap n port) s = execCchSwap n port s := rfl
  rw [hx]
  unfold execCchSwap
  extract_lets g new old rst cut z x w w' f h i up idx v v' f'
  obtain ⟨m, hz⟩ : ∃ m, z = { s with stm := m } := s.calSwap_cond _ _ _
  have hzs : z.swaps = s.swaps := by rw [hz]; rfl
  have hrun : (x.models.isEmpty || !z.on (Reg.ING_LMAP_EN.e n)) = false := by
    unfold State.runsSeries at hr
    rw [Bool.not_eq_true'] at hr
    rw [← hr]
    show ((z.inp n).models.isEmpty || _) = _
    rw [hz]
    rfl
  have hxs : x = s.inp n := by
    show z.inp n = _
    rw [hz]
    rfl
  have hi : i = s.indexAt n s.commitAt := by
    show z.indexAt n z.commitAt = _
    rw [hz]
    rfl
  rw [hm, hl, Bool.and_self, bif_true, hrun, bif_false]
  have hw : v'.swaps = s.swaps := by
    refine (State.swaps_cond _ (v.swaps_fineCut ..)).trans ((State.swaps_cond _ ?_).trans hzs)
    rfl
  obtain ⟨h1, h2⟩ := Prod.mk.inj hw
  obtain ⟨h2, h3⟩ := Prod.mk.inj h2
  refine ⟨_, rfl, (State.swaps_gridSwapped ..).trans ?_⟩
  show (v'.front.gridsLeft.filter (· ≠ g), v'.front.swapped, tinsert v'.front.swapIdx g (some idx)) = _
  rw [h1, h2, h3, ← hi, ← hxs]

end

/-! ### Fine inputs -/

theorem bif_and_four {α : Type} (a b c : Bool) (k : Nat) (x y : α) :
    (bif a && b && c && k == 4 then x else y) = if a = true ∧ b = true ∧ c = true ∧ k = 4 then x else y := by
  rw [Bool.cond_eq_ite]
  simp only [Bool.and_eq_true, beq_iff_eq, and_assoc]

theorem exec_fchSwap {s : State} {n : Nat} (hm : s.maySwap .fine = true) (hl : s.fine.left.contains n = true) :
    let b := s.stagedView .fine
    let g := s.gridNew n
    let h := g.hop n 0
    let c := fineGrid b n h (g.len n 0) (idxMod / h + ceilDiv (s.indexAt n s.commitAt) h) true
    let t := ({ s with fine := { s.fine with left := s.fine.left.filter (· ≠ n) } }.calSwap 4 n).chainsLimit n (c.firstOf c.next)
    exec (.fchSwap n) s = .next (if b.on (Reg.FCH_ICFG_EN.e n) = true ∧ g.main n = true ∧ (t.fin n).chains.any (fun c => c.last.isSome) = true ∧
        t.get Reg.PWR_STAT_MODE.z = 4 then (t.chainBegin n c c.next).finePrune n else t.finePrune n) := by
  intro b g h c t
  have hx : exec (.fchSwap n) s = execFchSwap n s := rfl
  obtain ⟨m, hz⟩ : ∃ m, ({ s with fine := { s.fine with left := s.fine.left.filter (· ≠ n) } } : State).calSwap 4 n =
      { s with fine := { s.fine with left := s.fine.left.filter (· ≠ n) }, stm := m } := State.calFail_stm ..
  have hi : (({ s with fine := { s.fine with left := s.fine.left.filter (· ≠ n) } } : State).calSwap 4 n).indexAt n
      (({ s with fine := { s.fine with left := s.fine.left.filter (· ≠ n) } } : State).calSwap 4 n).commitAt =
      s.indexAt n s.commitAt := by
    rw [hz]
    rfl
  rw [hx, ← bif_and_four]
  unfold execFchSwap
  rw [hm, hl, Bool.and_self, bif_true]
  extract_lets f z i c' t'
  have hc : c' = c := by
    show fineGrid b n h (g.len n 0) (idxMod / h + ceilDiv i h) true = _
    rw [show i = s.indexAt n s.commitAt from hi]
  have ht : t' = t := by
    show z.chainsLimit n (c'.firstOf c'.next) = _
    rw [hc]
  rw [ht, hc]

/-- Settles O20: the lane's frame boundary writes none of the lanes' settings but by swaps, and what a grid's swap does besides
leaves the swap indices alone. -/
theorem ingressAndCoarseSwapsComplete : Obligations.IngressAndCoarseSwapsComplete := by
  refine ⟨fun s lane hm hl => exec_ingressSwap hm hl, fun s lane => exec_ingressSwap_settings, ?runs, ?idle, fun s n => exec_fchSwap⟩
  case runs =>
    intro s n port hm hl hmod hon i h up
    have hr : s.runsSeries n = true := by
      unfold State.runsSeries
      rw [hon, Bool.not_true, Bool.or_false, Bool.not_eq_true', List.isEmpty_eq_false_iff]
      exact hmod
    obtain ⟨t, ht, hs⟩ := exec_cchSwap_runs (port := port) hm hl hr
    obtain ⟨h1, h2⟩ := Prod.mk.inj hs
    refine ⟨t, ht, h1, ?_⟩
    unfold State.swapIndex
    rw [(Prod.mk.inj h2).2, tget_tinsert, if_pos rfl, Bool.cond_eq_ite, lt, Bool.cond_eq_ite]
    simp only [decide_eq_true_eq]
    rfl
  case idle =>
    intro s n port hm hl hidle
    have hr : s.runsSeries n = false := by
      rw [State.runsSeries]
      rcases hidle with h | h
      · rw [h]
        rfl
      · rw [h, Bool.not_false, Bool.or_true]
        rfl
    obtain ⟨t, ht, hs⟩ := exec_cchSwap_idle (port := port) hm hl hr
    obtain ⟨h1, h2⟩ := Prod.mk.inj hs
    refine ⟨t, ht, h1, ?_⟩
    rw [(Prod.mk.inj h2).1, List.contains_cons, beq_self_eq_true, Bool.true_or]

end Sys2Proof.Machine
end

section
/-! PROOF pair: the cells of the Dziast link and what each of them does (23 R663 to R685). -/
namespace Sys2Proof.Machine

/-! ### The arrival of a cell (R663) -/

section
variable {s : State} {f : State → State} {n : Nat}

theorem State.cellIn_down (ok : Bool) (h : s.linkUp = false) : s.cellIn ok f = s := by
  unfold State.cellIn
  rw [h, Bool.not_false, bif_true]

theorem State.cellIn_bad (h : s.linkUp = true) : s.cellIn false f = s.count Reg.DZ_CRCERR_COUNT.z 1 := by
  unfold State.cellIn
  rw [h, Bool.not_true, bif_false, Bool.not_false, bif_true]

theorem State.cellIn_alone (h : s.linkUp = true) (hp : s.inPair = false) : s.cellIn true f = s := by
  unfold State.cellIn
  rw [h, hp, Bool.not_true, bif_false, bif_false, bif_false]

variable (h : s.linkUp = true) (hp : s.inPair = true)
include h hp

theorem State.cellIn_taken : s.cellIn true f = f s := by
  unfold State.cellIn
  rw [h, hp, Bool.not_true, bif_false, bif_false, bif_true]

theorem State.reliableIn_other (hn : n ≠ s.pair.rxNext) : s.reliableIn n true f = s.sendAck := by
  unfold State.reliableIn
  rw [State.cellIn_taken h hp, beq_false_of_ne hn, bif_false]

/-- A class 2 cell has been delivered and acknowledged. -/
noncomputable def State.delivered (s : State) (n : Nat) : State :=
  ({ s with pair := { s.pair with rxNext := (n + 1) % 65536 } } : State).sendAck

theorem State.reliableIn_next (hn : n = s.pair.rxNext) : s.reliableIn n true f = f (s.delivered n) := by
  unfold State.reliableIn
  rw [State.cellIn_taken h hp, hn, beq_self_eq_true, bif_true]
  rfl

theorem State.onceIn_seen (hs : s.pair.seen.contains n = true) : s.onceIn n true f = s := by
  unfold State.onceIn
  rw [State.cellIn_taken h hp, hs, bif_true]

/-- A class 0 cell has been noted. -/
noncomputable def State.noted (s : State) (n : Nat) : State := { s with pair := { s.pair with seen := n :: s.pair.seen.take 255 } }

theorem State.onceIn_first (hs : s.pair.seen.contains n = false) : s.onceIn n true f = f (s.noted n) := by
  unfold State.onceIn
  rw [State.cellIn_taken h hp, hs, bif_false]
  rfl

end

/-- An acknowledgement leaves the engine, under the next message identifier. -/
theorem State.sendAck_sent (s : State) : ∃ m o, s.sendAck = { s with pair := { s.pair with msgId := m }, out := o } := by
  unfold State.sendAck State.sendCell
  cases s.linkUp
  · exact ⟨_, _, rfl⟩
  · exact ⟨_, _, rfl⟩

/-- A delivered cell has changed the link's numbers and what has left the engine, no more. -/
theorem State.delivered_parts (s : State) (n : Nat) :
    ((s.delivered n).regs = s.regs ∧ (s.delivered n).mem = s.mem ∧ (s.delivered n).str = s.str ∧ (s.delivered n).adm = s.adm) ∧
      ∃ m, (s.delivered n).pair = { s.pair with rxNext := (n + 1) % 65536, msgId := m } := by
  obtain ⟨m, o, h⟩ := State.sendAck_sent { s with pair := { s.pair with rxNext := (n + 1) % 65536 } }
  rw [State.delivered, h]
  exact ⟨⟨rfl, rfl, rfl, rfl⟩, m, rfl⟩

/-- The cells of each class. -/
theorem cells_arrive (s : State) (a b c d e f : Nat) (x y ok : Bool) (l : List Byte) :
    ∀ i ∈ ([.dzHeartbeat ok a b c d e f x, .dzSync ok a b c d e, .dzFireA ok a b c d e f, .dzFireB ok a l,
      .dzArm ok a c d e, .dzRelease ok a c d, .dzWake ok a b, .dzOrder ok a b x d e f, .dzSent ok a b c,
      .dzEpoch ok a b c d, .dzStep ok a b c, .dzIndex ok a b c, .dzCreq ok a x y d e f, .dzCresp ok a b c d,
      .dzMode ok a b, .dzJoin ok a b c d e l, .dzSwitchCell ok a b, .dzLeaveCell ok a, .dzAck ok a] : List Instr),
      ∃ f, exec i s = .next (s.cellIn ok f) := by
  simp only [List.forall_mem_cons, List.not_mem_nil, false_implies, implies_true, and_true]
  exact ⟨⟨_, rfl⟩, ⟨_, rfl⟩, ⟨_, rfl⟩, ⟨_, rfl⟩, ⟨_, rfl⟩, ⟨_, rfl⟩, ⟨_, rfl⟩, ⟨_, rfl⟩, ⟨_, rfl⟩, ⟨_, rfl⟩, ⟨_, rfl⟩, ⟨_, rfl⟩,
    ⟨_, rfl⟩, ⟨_, rfl⟩, ⟨_, rfl⟩, ⟨_, rfl⟩, ⟨_, rfl⟩, ⟨_, rfl⟩, ⟨_, rfl⟩⟩

theorem reliableCells_arrive (s : State) (a b c d e f : Nat) (x y : Bool) :
    ∀ i ∈ ([.dzOrder true a b x d e f, .dzSent true a b c, .dzEpoch true a b c d, .dzStep true a b c, .dzIndex true a b c,
      .dzCreq true a x y d e f, .dzCresp true a b c d, .dzMode true a b, .dzSwitchCell true a b, .dzLeaveCell true a] : List Instr),
      ∃ f, exec i s = .next (s.reliableIn a true f) := by
  simp only [List.forall_mem_cons, List.not_mem_nil, false_implies, implies_true, and_true]
  exact ⟨⟨_, rfl⟩, ⟨_, rfl⟩, ⟨_, rfl⟩, ⟨_, rfl⟩, ⟨_, rfl⟩, ⟨_, rfl⟩, ⟨_, rfl⟩, ⟨_, rfl⟩, ⟨_, rfl⟩, ⟨_, rfl⟩⟩

theorem onceCells_arrive (s : State) (a b c d e f : Nat) (l : List Byte) :
    ∀ i ∈ ([.dzFireA true a b c d e f, .dzFireB true a l, .dzArm true a b c d, .dzRelease true a b c, .dzWake true a b] : List Instr),
      ∃ f, exec i s = .next (s.onceIn a true f) := by
  simp only [List.forall_mem_cons, List.not_mem_nil, false_implies, implies_true, and_true]
  exact ⟨⟨_, rfl⟩, ⟨_, rfl⟩, ⟨_, rfl⟩, ⟨_, rfl⟩, ⟨_, rfl⟩⟩

/-- Where every cell of a list arrives by `arrive f`, and that is `t` whatever `f`, every one of them answers `t`. -/
theorem cells_answer {s t : State} {arrive : (State → State) → State} {l : List Instr}
    (h : ∀ i ∈ l, ∃ f, exec i s = .next (arrive f)) (ht : ∀ f, arrive f = t) : ∀ i ∈ l, exec i s = .next t := fun i hi => by
  obtain ⟨f, hf⟩ := h i hi
  rw [hf, ht f]

/-! ### The standby's record series (R675 to R678) -/

theorem State.stream_setStream_ne (s : State) {st k : Nat} (x : Stream) (h : k ≠ st) : (s.setStream st x).stream k = s.stream k :=
  tget_tset_ne _ _ h _

/-- An order leaves a shadow queue of which it has passed nothing, and all outside the streams. -/
theorem State.dropPassed_shadow {s : State} {st k : Nat}
    (h : (s.stream st).shadow.filter (fun q => !(q.seq.isNone && keyLater k q.key)) = (s.stream st).shadow) :
    ((s.dropPassed k).stream st).shadow = (s.stream st).shadow := by
  obtain ⟨sh, hs⟩ : ∃ sh, (s.stream st).shadow = sh := ⟨_, rfl⟩
  rw [hs] at h ⊢
  unfold State.dropPassed
  generalize s.str.streams = l
  induction l generalizing s with
  | nil => exact hs
  | cons e l ih =>
    rw [List.foldl_cons]
    refine ih ?_
    by_cases he : st = e.1
    · rw [← he, State.stream_setStream, hs, h]
    · rw [State.stream_setStream_ne _ _ he, hs]

theorem State.dropPassed_outside (s : State) (k : Nat) :
    ((s.dropPassed k).regs, (s.dropPassed k).mem, (s.dropPassed k).pair) = (s.regs, s.mem, s.pair) := by
  unfold State.dropPassed
  refine foldl_keeps _ (fun s : State => (s.regs, s.mem, s.pair)) ?_ _ s
  exact fun _ _ => rfl

end Sys2Proof.Machine
end

section
/-! PROOF pair: what the cells of the record series, of the admission and of the triggers do (23 R670 to R684). -/
namespace Sys2Proof.Machine

/-! ### Class 2 cells -/

theorem keyAfter_self (k : Nat) : keyAfter k k = false := by
  unfold keyAfter
  dsimp only
  split_ifs with hstat hbin
  · have hne : ∀ a ∈ [4, 6], ¬ (a = 3 ∨ a = 5) := by decide
    exact decide_eq_false (hne _ (List.mem_pair.2 hstat))
  · exact decide_eq_false fun h => h.2.elim (Nat.lt_irrefl _) fun e => Nat.lt_irrefl _ e.2
  · exact decide_eq_false (Nat.lt_irrefl _)

/-- No key is later than itself. -/
theorem keyLater_self (k : Nat) : keyLater k k = false := by
  have hs : serialBefore 48 (k % 2 ^ 48) (k % 2 ^ 48) = false := by
    rw [serialBefore, Int.sub_self]
    rfl
  rw [keyLater, hs, keyAfter_self, Bool.and_false, Bool.or_false, Bool.and_false]

/-- A comparison of digests counts, and may raise an event. -/
theorem State.compareDigest_outside (s : State) (r : ShadowRec) (first : Bool) (st dg : Nat) :
    (s.compareDigest r first st dg).str = s.str ∧ (s.compareDigest r first st dg).pair = s.pair ∧
      (s.compareDigest r first st dg).mem = s.mem := by
  unfold State.compareDigest
  generalize (digest (s.rawIn st r.body) st r.gen first r.body.kind r.body.body == dg) = same
  cases comparable r.body
  · rw [Bool.not_false, bif_true, State.count_str, State.count_pair, State.count_mem]
    exact ⟨rfl, rfl, rfl⟩
  · rw [Bool.not_true, bif_false]
    cases same
    · rw [bif_false, State.ev_str, State.ev_pair, State.ev_mem, State.count_str, State.count_pair, State.count_mem]
      exact ⟨rfl, rfl, rfl⟩
    · exact ⟨rfl, rfl, rfl⟩

/-- The standby's next epoch follows its primary's. -/
theorem State.epochAfter_get (s : State) (e : Nat) {l : Loc} (hl : l.off ≠ Reg.STR_EPOCHNEXT_EPOCH.z.off) :
    (s.epochAfter e).get l = s.get l := by
  unfold State.epochAfter
  extract_lets new old
  generalize (old / 65536 == e / 65536 && !serialBefore 16 (old % 65536) (new % 65536)) = c
  cases c
  · rw [bif_false, State.get_put_apart _ _ (.inl hl)]
  · rw [bif_true]

theorem State.epochAfter_mem (s : State) (e : Nat) : (s.epochAfter e).mem = s.mem := by
  unfold State.epochAfter
  extract_lets new old
  generalize (old / 65536 == e / 65536 && !serialBefore 16 (old % 65536) (new % 65536)) = c
  cases c
  · rw [bif_false, State.put_mem]
  · rw [bif_true]

/-- An ordered step reaches the producers. -/
theorem State.orderStep_outside (s : State) (st k : Nat) : ((s.orderStep st k).regs, (s.orderStep st k).mem) = (s.regs, s.mem) := by
  unfold State.orderStep
  refine (foldl_keeps _ (fun s : State => (s.regs, s.mem)) ?_ _ _).trans (foldl_keeps _ (fun s : State => (s.regs, s.mem)) ?_ _ s)
  · exact fun _ _ => rfl
  · exact fun _ _ => rfl

/-- A refusal by the partner, or an answer that does not come, ends the request with its failure. -/
theorem State.partnerAnswer_refuses {s : State} {code : Nat} {r : AdmRequest} (hreq : s.adm.request = some r)
    (hwait : s.adm.partnerWait = true) (hheld : s.adm.held = none) (hc : code ≠ 0) :
    (s.partnerAnswer code).adm.request = none ∧ (s.partnerAnswer code).adm.partnerWait = false ∧
      (s.partnerAnswer code).get Reg.ADM_STAT_LAST.z = 3 ∧ (s.partnerAnswer code).get Reg.ADM_STAT_NFAIL.z = 1 ∧
      (s.partnerAnswer code).on (evPend 508) = true ∧ (s.partnerAnswer code).mem = s.mem := by
  have hrun : s.partnerAnswer code = (s.admRecord [partnerFail code]).admEnd 3 := by
    unfold State.partnerAnswer
    rw [hreq]
    dsimp -zeta only
    rw [hwait, Bool.not_true, bif_false, bne_iff_ne.mpr hc, bif_true]
  obtain ⟨hn, -, -, ha, hm⟩ := s.admRecord_reads [partnerFail code]
  obtain ⟨he, hlast, -, hp, hem, hen, -, -⟩ := (s.admRecord [partnerFail code]).admEnd_reads (last := 3) (by decide) (by rw [ha, hheld])
  rw [hrun, he, hlast, hen, hn, hem, hm]
  exact ⟨rfl, rfl, rfl, rfl, hp, rfl⟩

section
variable {s : State} {n : Nat} (h : s.linkUp = true) (hp : s.inPair = true) (hn : n = s.pair.rxNext)
include h hp hn

/-- A delivered cell that takes effect by `f`. -/
theorem exec_reliable {i : Instr} {f : State → State} (hi : exec i s = .next (s.reliableIn n true f)) :
    ∃ a : State, exec i s = .next (f a) ∧ a = s.delivered n ∧ (a.regs = s.regs ∧ a.mem = s.mem ∧ a.str = s.str ∧ a.adm = s.adm) ∧
      ∃ m, a.pair = { s.pair with rxNext := (n + 1) % 65536, msgId := m } := by
  refine ⟨_, ?_, rfl, s.delivered_parts n⟩
  rw [hi, State.reliableIn_next h hp hn]

theorem exec_dzIndex (i offset : Nat) : ∃ t, exec (.dzIndex true n i offset) s = .next t ∧
    tget (fun _ => 0) t.pair.offsets i = offset % 2 ^ 48 + 1 ∧ t.regs = s.regs ∧ t.mem = s.mem := by
  obtain ⟨a, hx, -, ⟨hr, hm, -, -⟩, -⟩ := exec_reliable h hp hn (i := .dzIndex true n i offset) rfl
  exact ⟨_, hx, tget_tset_same (fun _ => 0) a.pair.offsets i (offset % 2 ^ 48 + 1), hr, hm⟩

theorem exec_dzSent (st oseq : Nat) : ∃ t, exec (.dzSent true n st oseq) s = .next t ∧
    t.sentLast st (s.vitaPort st) = oseq ∧ t.regs = s.regs ∧ t.mem = s.mem ∧
    (t.stream st).shadow = (s.stream st).shadow.filter (fun r => !((r.seq.map (sentCovers oseq)).getD false)) := by
  obtain ⟨a, hx, -, ⟨hr, hm, hs, -⟩, -⟩ := exec_reliable h hp hn (i := .dzSent true n st oseq) rfl
  have hv : a.vitaPort st = s.vitaPort st := by rw [State.vitaPort, State.on_congr hr, State.get_congr hr, State.vitaPort]
  have hst : a.stream st = s.stream st := by rw [State.stream, hs, State.stream]
  rw [← hv, ← hst]
  refine ⟨_, hx, ?_, hr, hm, ?_⟩
  · exact (tget_tinsert ..).trans (if_pos rfl)
  · exact congrArg Stream.shadow (a.stream_setStream st _)

/-- An order is noted, and what it has passed leaves the shadow queues. -/
noncomputable def State.ordered (a : State) (st key oseq : Nat) : State :=
  State.dropPassed { a with pair := { a.pair with
    orderEnd := tinsert a.pair.orderEnd (orderSlot st (key / 2 ^ 72 == 7 && a.vitaPort st)) oseq
    lastKeys := bif lt key (2 ^ 72) then a.pair.lastKeys
      else (keyProducer key, key) :: a.pair.lastKeys.filter (fun c => c.1 != keyProducer key) } } key

theorem exec_dzOrder (st : Nat) (first : Bool) (key oseq digest : Nat)
    (hsh : (s.stream st).shadow.filter (fun q => !(q.seq.isNone && keyLater key q.key)) = (s.stream st).shadow) :
    ∃ a z : State, (z.regs = s.regs ∧ z.mem = s.mem ∧ (z.stream st).shadow = (s.stream st).shadow) ∧ z.pair.orders = s.pair.orders ∧
      z.orderLast st (key / 2 ^ 72 == 7 && s.vitaPort st) = oseq ∧ z = a.ordered st key oseq ∧
      exec (.dzOrder true n st first key oseq digest) s = .next (match z.shadowOf st key with
        | some r => (z.setStream st { z.stream st with
            shadow := (z.stream st).shadow.map (fun q => if q = r then { q with seq := some oseq, first := first } else q) }).compareDigest
              r first st digest
        | none => { z.setStream st { z.stream st with shadow := (z.stream st).shadow.filter (fun q => !(q.seq.isNone && q.key == key)) } with
            pair := { z.pair with orders := z.pair.orders ++ [⟨st, first, key, oseq, digest⟩] } }) := by
  obtain ⟨a, hx, -, ⟨hr, hm, hs, -⟩, m, hpair⟩ := exec_reliable h hp hn (i := .dzOrder true n st first key oseq digest) rfl
  have hv : a.vitaPort st = s.vitaPort st := by rw [State.vitaPort, State.on_congr hr, State.get_congr hr, State.vitaPort]
  obtain ⟨u, hu⟩ : ∃ u : State, u = { a with pair := { a.pair with
    orderEnd := tinsert a.pair.orderEnd (orderSlot st (key / 2 ^ 72 == 7 && a.vitaPort st)) oseq
    lastKeys := bif lt key (2 ^ 72) then a.pair.lastKeys
      else (keyProducer key, key) :: a.pair.lastKeys.filter (fun c => c.1 != keyProducer key) } } := ⟨_, rfl⟩
  have hz : a.ordered st key oseq = u.dropPassed key := by rw [State.ordered, hu]
  have hus : u.stream st = s.stream st := by rw [State.stream, State.stream, ← hs, hu]
  obtain ⟨hzr, hzm⟩ := Prod.mk.inj (u.dropPassed_outside key)
  obtain ⟨hzm, hzp⟩ := Prod.mk.inj hzm
  refine ⟨a, _, ⟨?_, ?_, ?_⟩, ?_, ?_, rfl, hx⟩
  · rw [hz, hzr, hu]
    exact hr
  · rw [hz, hzm, hu]
    exact hm
  · rw [← hus] at hsh ⊢
    rw [hz, State.dropPassed_shadow hsh]
  · rw [hz, hzp, hu]
    exact (congrArg Pair.orders hpair : a.pair.orders = _)
  · rw [State.orderLast, hz, hzp, hu, ← hv]
    exact (tget_tinsert ..).trans (if_pos rfl)

theorem exec_dzOrder_new (st : Nat) (first : Bool) (key oseq digest : Nat) (hs : (s.stream st).shadow = []) :
    ∃ t, exec (.dzOrder true n st first key oseq digest) s = .next t ∧
      t.pair.orders = s.pair.orders ++ [⟨st, first, key, oseq, digest⟩] ∧
      t.orderLast st (key / 2 ^ 72 == 7 && s.vitaPort st) = oseq ∧ t.regs = s.regs ∧ t.mem = s.mem := by
  obtain ⟨a, z, ⟨hr, hm, hsh⟩, hord, hlast, -, hx⟩ := exec_dzOrder h hp hn st first key oseq digest (by rw [hs]; rfl)
  have hnone : z.shadowOf st key = none := by
    rw [State.shadowOf, hsh, hs]
    cases lt key (2 ^ 72) <;> rfl
  rw [hnone] at hx
  exact ⟨_, hx, congrArg (· ++ _) hord, hlast, hr, hm⟩

theorem exec_dzOrder_made (st : Nat) (first : Bool) (key oseq digest : Nat) (r : ShadowRec) (hs : (s.stream st).shadow = [r])
    (hk : r.key = key) (hle : 2 ^ 72 ≤ key) (hseq : r.seq = none) (hheld : r.held = true) :
    ∃ t, exec (.dzOrder true n st first key oseq digest) s = .next t ∧
      (t.stream st).shadow = [{ r with seq := some oseq, first := first }] ∧ t.pair.orders = s.pair.orders ∧ t.mem = s.mem := by
  obtain ⟨a, z, ⟨hr, hm, hsh⟩, hord, hlast, -, hx⟩ := exec_dzOrder h hp hn st first key oseq digest (by
    rw [hs, List.filter_cons, hk, keyLater_self, Bool.and_false]
    rfl)
  have hsome : z.shadowOf st key = some r := by
    rw [State.shadowOf, hsh, hs, lt, decide_eq_false (Nat.not_lt_of_le hle), bif_false, List.find?_cons, hk, hseq, hheld,
      beq_self_eq_true]
    rfl
  rw [hsome] at hx
  dsimp -zeta only at hx
  obtain ⟨v, hv⟩ : ∃ v : State, v = z.setStream st { z.stream st with
    shadow := (z.stream st).shadow.map (fun q => if q = r then { q with seq := some oseq, first := first } else q) } := ⟨_, rfl⟩
  obtain ⟨hcs, hcp, hcm⟩ := State.compareDigest_outside v r first st digest
  rw [← hv] at hx
  refine ⟨_, hx, ?_, ?_, ?_⟩
  · rw [State.stream, hcs, ← State.stream, hv, State.stream_setStream, hsh, hs, List.map_cons, if_pos rfl]
    rfl
  · rw [hcp, hv]
    exact hord
  · rw [hcm, hv]
    exact hm

theorem exec_dzEpoch {st epoch first : Nat} (hrole : dzRole s = 2) (he : epoch < 2 ^ 32) (hf : first < 2 ^ 32) :
    ∃ t, exec (.dzEpoch true n st epoch first) s = .next t ∧
      t.get (Reg.STR_SEPOCH_EPOCH.e st) = epoch ∧ t.get (Reg.STR_SSEQ_SEQ.e st) = first ∧
      t.sentLast st false = (first + 2 ^ 32 - 1) % 2 ^ 32 ∧ t.orderLast st false = t.sentLast st false ∧ t.mem = s.mem := by
  obtain ⟨a, hx, -, ⟨hr, hm, -, -⟩, -⟩ := exec_reliable h hp hn (i := .dzEpoch true n st epoch first) rfl
  have hra : dzRole a = 2 := (State.get_congr hr _).trans hrole
  obtain ⟨z, hz⟩ : ∃ z, z = ((a.put (Reg.STR_SEPOCH_EPOCH.e st) epoch).put (Reg.STR_SSEQ_SEQ.e st) first).epochAfter epoch := ⟨_, rfl⟩
  rw [hra, beq_self_eq_true, bif_true, ← hz] at hx
  refine ⟨_, hx, ?_, ?_, ?_, ?_, ?_⟩
  · show z.get _ = _
    rw [hz, State.epochAfter_get _ _ (low_ne (a := 0x3A40014) (by decide) _), State.get_put_apart _ _ (.inl (shift_ne (a := 0x3A40014) (by decide) _)),
      State.get_put_same _ _ _ (show Reg.STR_SEPOCH_EPOCH.lo + Reg.STR_SEPOCH_EPOCH.w ≤ 32 by decide)]
    exact Nat.mod_eq_of_lt he
  · show z.get _ = _
    rw [hz, State.epochAfter_get _ _ (low_ne (a := 0x3A40010) (by decide) _),
      State.get_put_same _ _ _ (show Reg.STR_SSEQ_SEQ.lo + Reg.STR_SSEQ_SEQ.w ≤ 32 by decide)]
    exact Nat.mod_eq_of_lt hf
  · exact (tget_tinsert ..).trans (if_pos rfl)
  · exact ((tget_tinsert ..).trans (if_pos rfl)).trans ((tget_tinsert ..).trans (if_pos rfl)).symm
  · show z.mem = _
    rw [hz, State.epochAfter_mem, State.put_mem, State.put_mem, hm]

theorem exec_dzStep {st step : Nat} (hrole : dzRole s = 2) (hw : step < 2 ^ Reg.REC_LSTAT_STEP.w) :
    ∃ t, exec (.dzStep true n st step) s = .next t ∧ t.get (Reg.REC_LSTAT_STEP.e st) = step ∧ t.mem = s.mem := by
  obtain ⟨a, hx, -, ⟨hr, hm, -, -⟩, -⟩ := exec_reliable h hp hn (i := .dzStep true n st step) rfl
  have hra : dzRole a = 2 := (State.get_congr hr _).trans hrole
  rw [hra, beq_self_eq_true, bif_true] at hx
  obtain ⟨ho, hom⟩ := Prod.mk.inj ((a.put (Reg.REC_LSTAT_STEP.e st) step).orderStep_outside st step)
  refine ⟨_, hx, ?_, hom.trans ((State.put_mem ..).trans hm)⟩
  rw [State.get_congr ho, State.get_put_same _ _ _ (show Reg.REC_LSTAT_STEP.lo + Reg.REC_LSTAT_STEP.w ≤ 32 by decide)]
  exact Nat.mod_eq_of_lt hw

omit h hp hn in
/-- A delivered cell whose effect asks for the engine's role. -/
theorem delivered_role (r : Nat) (hrole : dzRole s = r) : dzRole (s.delivered n) = r :=
  (State.get_congr (s.delivered_parts n).1.1 _).trans hrole

theorem exec_dzMode {op : Nat} (hrole : dzRole s = 2) : exec (.dzMode true n op) s = .next ((s.delivered n).powerCmd op) := by
  obtain ⟨a, hx, ha, -⟩ := exec_reliable h hp hn (i := .dzMode true n op) rfl
  rw [hx, ha, delivered_role 2 hrole, beq_self_eq_true, bif_true]

theorem exec_dzCreq_primary {c asap : Bool} {instant gen digest : Nat} (hrole : dzRole s = 1) :
    exec (.dzCreq true n c asap instant gen digest) s = .next ((s.delivered n).admRequest ⟨c, asap, some instant⟩) := by
  obtain ⟨a, hx, ha, -⟩ := exec_reliable h hp hn (i := .dzCreq true n c asap instant gen digest) rfl
  rw [hx, ha, delivered_role 1 hrole, beq_self_eq_true, bif_true]

theorem exec_dzCreq_standby {u : State} {c asap : Bool} {instant gen digest : Nat} (hrole : dzRole s = 2) (hu : u = s.delivered n) :
    exec (.dzCreq true n c asap instant gen digest) s =
      .next (({ u with pair := { u.pair with creq := some (gen, instant, digest) } } : State).admRequest ⟨c, asap, none⟩) := by
  obtain ⟨a, hx, ha, -⟩ := exec_reliable h hp hn (i := .dzCreq true n c asap instant gen digest) rfl
  rw [hx, ha, delivered_role 2 hrole, show ((2 : Nat) == 1) = false from rfl, bif_false, hu]

theorem exec_dzCresp {code need avail : Nat} {r : AdmRequest} (hreq : s.adm.request = some r) (hwait : s.adm.partnerWait = true)
    (hheld : s.adm.held = none) (hc : code ≠ 0) : ∃ t, exec (.dzCresp true n code need avail) s = .next t ∧
      t.adm.request = none ∧ t.adm.partnerWait = false ∧ t.get Reg.ADM_STAT_LAST.z = 3 ∧ t.get Reg.ADM_STAT_NFAIL.z = 1 ∧
      t.on (evPend 508) = true ∧ t.mem = s.mem := by
  obtain ⟨a, hx, -, ⟨-, hm, -, ha⟩, -⟩ := exec_reliable h hp hn (i := .dzCresp true n code need avail) rfl
  rw [← ha] at hreq hwait hheld
  obtain ⟨h1, h2, h3, h4, h5, h6⟩ := a.partnerAnswer_refuses hreq hwait hheld hc
  exact ⟨_, hx, h1, h2, h3, h4, h5, h6.trans hm⟩

end

/-! ### Acknowledgements -/

/-- What is left once a record no longer waits for its acknowledgement. -/
theorem State.letGo_outside (s : State) (st : Nat) (f : QRec → Bool) :
    ((s.letGo st f).regs, (s.letGo st f).mem, (s.letGo st f).pair) = (s.regs, s.mem, s.pair) := rfl

theorem exec_dzAck {s : State} {ack : Nat} (h : s.linkUp = true) (hp : s.inPair = true) (hw : s.pair.txWait = []) :
    ∃ t, exec (.dzAck true ack) s = .next t ∧
      t.pair.unacked = s.pair.unacked.filter (fun c => !ackedBy ack c.seq) ∧ t.regs = s.regs ∧ t.mem = s.mem := by
  have hx : exec (.dzAck true ack) s = .next (s.ackUpTo ack) := congrArg Host.Outcome.next (State.cellIn_taken h hp)
  refine ⟨_, hx, ?_⟩
  unfold State.ackUpTo
  extract_lets done p u v
  obtain ⟨hr, hm⟩ := Prod.mk.inj (foldl_keeps (fun s c => s.letGo (leAt c.content 0 2) (orderedBy c.content))
    (fun s => (s.regs, s.mem, s.pair)) (fun s (c : LinkCell) => s.letGo_outside _ _) (done.filter (fun c => c.type == 0x10)) u)
  obtain ⟨hm, hpair⟩ := Prod.mk.inj hm
  have hv : v.pair.txWait = [] := (congrArg Pair.txWait hpair).trans hw
  rw [hv]
  exact ⟨congrArg Pair.unacked hpair, hr, hm⟩

end Sys2Proof.Machine
end

section
/-! PROOF pair: the wake and trigger cells (23 R674, R684; 09 R281 to R283). -/
namespace Sys2Proof.Machine

section
variable {s : State} {id : Nat} (h : s.linkUp = true) (hp : s.inPair = true) (hs : s.pair.seen.contains id = false)

/-! ### WAKE -/

/-- A wake request accepted changes nothing that refuses one. -/
theorem State.modeRefused_wakeSeen (s : State) (src : Nat) : (s.wakeSeen src).modeRefused = s.modeRefused := by
  have hg (l : Loc) (hl : Reg.PWR_STAT_WAKESRC.z.apart l) (he : ¬ eventWord l.off) : (s.wakeSeen src).get l = s.get l := by
    rw [State.wakeSeen, State.get_ev _ _ _ (by decide) he, State.get_put_apart _ _ hl]
  have hon : (s.wakeSeen src).on Reg.SEC_STAT_SAFE.z = s.on Reg.SEC_STAT_SAFE.z := by
    rw [State.wakeSeen, State.on_ev _ _ _ (by decide) (not_eventWord (by decide)), State.on_put_apart _ _ (.inl (by decide))]
  have hpwr : (s.wakeSeen src).pwr = s.pwr := (State.ev_pwr ..).trans (State.put_pwr ..)
  have hsec : (s.wakeSeen src).sec = s.sec := (State.ev_sec ..).trans (State.put_sec ..)
  unfold State.modeRefused State.suppliesLow State.hbmSize State.get64
  rw [hon, hpwr, hsec, hg Reg.PWR_STAT_SUPGOOD.z (.inr ⟨by decide, by decide⟩) (not_eventWord (by decide)),
    hg Reg.CLK_STAT_STATE.z (.inl (by decide)) (not_eventWord (by decide)),
    hg Reg.MEM_SIZE_L_VAL.z (.inl (by decide)) (not_eventWord (by decide)),
    hg Reg.MEM_SIZE_H_VAL.z (.inl (by decide)) (not_eventWord (by decide)),
    hg Reg.SEC_STAT_LC.z (.inl (by decide)) (not_eventWord (by decide))]

/-- The watch ring held for a wake is the recorder's own matter. -/
theorem State.recWake_outside (s : State) : (s.recWake.regs, s.recWake.pwr) = (s.regs, s.pwr) := by
  unfold State.recWake
  extract_lets limit
  generalize (s.get recState == 2 && s.on Reg.REC_CTRL_WATCHEN.z && !s.rcd.hold) = c
  cases c
  · rw [bif_false]
  · rw [bif_true]
    refine foldl_keeps _ (fun s : State => (s.regs, s.pwr)) (fun a n => ?_) _ _
    extract_lets x keep
    cases x.watch.isEmpty
    · rw [bif_false]
      rfl
    · rw [bif_true]

theorem State.riseAll_get (s : State) {l : Loc} (hl : Reg.PWR_GOVSTAT_QLEN.z.apart l) : s.riseAll.get l = s.get l :=
  (State.get_put_apart _ _ hl).trans rfl

theorem State.riseAll_on (s : State) {l : Loc} (hl : Reg.PWR_GOVSTAT_QLEN.z.apart l) : s.riseAll.on l = s.on l :=
  (State.on_put_apart _ _ hl).trans rfl

theorem State.wakeStart_reads (s : State) :
    s.wakeStart.pwr.trans = some ⟨4, none⟩ ∧ s.wakeStart.get Reg.PWR_STAT_WAKESRC.z = s.get Reg.PWR_STAT_WAKESRC.z ∧
      s.wakeStart.on (evPend 50) = s.on (evPend 50) := by
  obtain ⟨hr, hw⟩ := Prod.mk.inj s.recWake_outside
  obtain ⟨u, hu⟩ : ∃ u, u = s.recWake.transTo 4 := ⟨_, rfl⟩
  have hur : u.regs = (s.recWake.flag Reg.PWR_STAT_TRANS.z true).regs := by rw [hu]; rfl
  have hut : u.pwr.trans = some ⟨4, none⟩ := by rw [hu]; rfl
  have hx : s.wakeStart = u.riseAll := by rw [hu]; rfl
  rw [hx, State.riseAll_get u (.inl (by decide)), State.riseAll_on u (.inl (by decide)), State.get_congr hur, State.on_congr hur,
    State.get_flag_apart _ _ (.inr ⟨by decide, by decide⟩), State.on_flag_apart _ _ (.inl (by decide)), State.get_congr hr,
    State.on_congr hr]
  exact ⟨(congrArg Power.trans (State.put_pwr ..)).trans hut, rfl, rfl⟩

/-- A wake request of the partner starts the wake from Watch. -/
theorem State.wakeRequest_starts {s : State} (ht : s.pwr.trans = none) (hm : s.get Reg.PWR_STAT_MODE.z = 3)
    (hr : s.modeRefused = false) : s.wakeRequest 3 = (s.wakeSeen 3).wakeStart := by
  have hsent : s.wakeSent 3 = s := by
    unfold State.wakeSent
    rw [bne_self_eq_false, Bool.and_false, bif_false]
  unfold State.wakeRequest
  rw [hsent]
  extract_lets m z
  have hz : z.pwr.trans = none := ht
  rw [hz]
  dsimp -zeta only
  rw [show (m == 3) = true from beq_iff_eq.mpr hm, bif_true]
  unfold State.wakeWatch
  change (bif (z.wakeSeen 3).modeRefused then _ else _) = _
  rw [State.modeRefused_wakeSeen, hr, bif_false]

include h hp hs

theorem exec_dzWake (src : Nat) (ht : s.pwr.trans = none) (hm : s.get Reg.PWR_STAT_MODE.z = 3) (hr : s.modeRefused = false) :
    ∃ t, exec (.dzWake true id src) s = .next t ∧
      t.pwr.trans = some ⟨4, none⟩ ∧ t.get Reg.PWR_STAT_WAKESRC.z = 3 ∧ t.on (evPend 50) = true := by
  have hx : exec (.dzWake true id src) s = .next ((s.noted id).wakeRequest 3) :=
    congrArg Host.Outcome.next (State.onceIn_first h hp hs)
  have hrun := State.wakeRequest_starts (s := s.noted id) ht hm hr
  obtain ⟨h1, h2, h3⟩ := ((s.noted id).wakeSeen 3).wakeStart_reads
  refine ⟨_, hx.trans (congrArg _ hrun), h1, ?_, h3.trans (State.ev_pend ..)⟩
  rw [h2, State.wakeSeen, State.get_ev _ _ _ (by decide) (not_eventWord (by decide)), State.get_put_same _ _ _ (by decide)]
  rfl

end

end Sys2Proof.Machine
end

section
/-! PROOF pair: the trigger cells (23 R684; 09 R281 to R283). -/
namespace Sys2Proof.Machine

/-! ### FIREA and FIREB -/

/-- Unit `v` takes the firings of the partner's unit `u`. -/
noncomputable def State.watchesPair (s : State) (u v : Nat) : Bool :=
  s.on (Reg.TRG_UCFG_EN.e v) && s.get (Reg.TRG_UCFG_SRC.e v) == 0xB && s.get (Reg.TRG_UELEM_ELEM.e v) == u && s.runs

/-- Product `p` for unit `v`. -/
noncomputable def State.fireA (u : Nat) (p : TrigPulse) (s : State) (v : Nat) : State :=
  bif s.watchesPair u v then s.setUnit v { s.unit v with queue := (s.unit v).queue ++ [p] } else s

theorem State.watchesPair_congr {s t : State} (h : t.regs = s.regs) (u v : Nat) : t.watchesPair u v = s.watchesPair u v := by
  unfold State.watchesPair State.runs
  rw [State.on_congr h, State.get_congr h, State.get_congr h, State.get_congr h]

theorem State.fireA_outside (u : Nat) (p : TrigPulse) (s : State) (v : Nat) :
    ((s.fireA u p v).regs, (s.fireA u p v).mem, (s.fireA u p v).pair) = (s.regs, s.mem, s.pair) := by
  unfold State.fireA
  cases s.watchesPair u v
  · rw [bif_false]
  · rw [bif_true]
    rfl

theorem State.fireA_unit (u : Nat) (p : TrigPulse) (s : State) {v w : Nat} (h : w ≠ v) : (s.fireA u p v).unit w = s.unit w := by
  unfold State.fireA
  cases s.watchesPair u v
  · rw [bif_false]
  · rw [bif_true, State.unit_setUnit, if_neg h]

/-- Each unit that watches takes the product once. -/
theorem State.fireA_foldl (u : Nat) (p : TrigPulse) {l : List Nat} (hl : l.Nodup) (s : State) {v : Nat}
    (hw : s.watchesPair u v = true) : ((l.foldl (State.fireA u p) s).unit v).queue = (s.unit v).queue ++ if v ∈ l then [p] else [] := by
  induction l generalizing s with
  | nil => exact (List.append_nil _).symm
  | cons w l ih =>
    obtain ⟨hnot, hl⟩ := List.nodup_cons.mp hl
    have hr : (s.fireA u p w).regs = s.regs := (Prod.mk.inj (s.fireA_outside u p w)).1
    rw [List.foldl_cons, ih hl _ ((State.watchesPair_congr hr u v).trans hw)]
    by_cases h : v = w
    · subst h
      rw [if_neg hnot, if_pos (List.mem_cons_self ..), List.append_nil]
      unfold State.fireA
      rw [hw, bif_true, State.unit_setUnit, if_pos rfl]
    · rw [State.fireA_unit u p s h]
      by_cases hm : v ∈ l
      · rw [if_pos hm, if_pos (List.mem_cons_of_mem _ hm)]
      · rw [if_neg hm, if_neg (List.not_mem_cons_of_ne_of_not_mem h hm)]

section
variable {s : State} {id : Nat} (h : s.linkUp = true) (hp : s.inPair = true) (hs : s.pair.seen.contains id = false)
include h hp hs

theorem exec_dzFireA (u firing tag tq elem : Nat) : ∃ t, exec (.dzFireA true id u firing tag tq elem) s = .next t ∧
    t.pair.fires = s.pair.fires.filter (fun f => f.id != id) ++ [⟨id, u, firing, tag⟩] ∧ t.regs = s.regs ∧ t.mem = s.mem ∧
    ∀ v, v < 32 → s.on (Reg.TRG_UCFG_EN.e v) = true → s.get (Reg.TRG_UCFG_SRC.e v) = 11 → s.get (Reg.TRG_UELEM_ELEM.e v) = u →
      s.runs = true → (t.unit v).queue = (s.unit v).queue ++ [⟨firing, tag, tq, zeros 22 ++ u16 tq ++ u96 tag⟩] := by
  obtain ⟨p, hpulse⟩ : ∃ p : TrigPulse, p = ⟨firing, tag, tq, zeros 22 ++ u16 tq ++ u96 tag⟩ := ⟨_, rfl⟩
  obtain ⟨a, ha⟩ : ∃ a : State, a = { s.noted id with pair := { (s.noted id).pair with
    fires := (s.noted id).pair.fires.filter (fun f => f.id != id) ++ [⟨id, u, firing, tag⟩] } } := ⟨_, rfl⟩
  have hx : exec (.dzFireA true id u firing tag tq elem) s = .next ((upto 32).foldl (State.fireA u p) a) := by
    rw [ha, hpulse]
    exact congrArg Host.Outcome.next (State.onceIn_first h hp hs)
  have har : a.regs = s.regs := by rw [ha]; rfl
  obtain ⟨hr, hm⟩ := Prod.mk.inj (foldl_keeps (State.fireA u p) (fun s => (s.regs, s.mem, s.pair)) (State.fireA_outside u p) (upto 32) a)
  obtain ⟨hm, hpair⟩ := Prod.mk.inj hm
  refine ⟨_, hx, ?_, hr.trans har, hm.trans (by rw [ha]; rfl), fun v hv hen hsrc he hrun => ?_⟩
  · rw [hpair, ha]
    rfl
  · have hw : a.watchesPair u v = true := by
      rw [State.watchesPair_congr har, State.watchesPair, hen, hsrc, he, hrun, beq_self_eq_true, beq_self_eq_true]
      rfl
    have hq := State.fireA_foldl u p (l := upto 32) List.nodup_range a hw
    rw [hq, if_pos (show v ∈ upto 32 from List.mem_range.mpr hv), hpulse, ha]
    rfl

theorem exec_dzFireB (body : List Byte) (f : PairFire) (hf : s.pair.fires.find? (fun f => (f.id + 1) % 65536 == id) = some f)
    (hheld : s.trg.held = []) : ∃ t, exec (.dzFireB true id body) s = .next t ∧
      t.pair.fires = s.pair.fires.filter (· ≠ f) ∧ t.regs = s.regs ∧ t.mem = s.mem := by
  obtain ⟨a, ha⟩ : ∃ a, a = s.noted id := ⟨_, rfl⟩
  have hx : exec (.dzFireB true id body) s = execDzFireB true id body s := rfl
  unfold execDzFireB at hx
  rw [State.onceIn_first h hp hs, ← ha] at hx
  have haf : a.pair.fires.find? (fun f => (f.id + 1) % 65536 == id) = some f := by rw [ha]; exact hf
  rw [haf] at hx
  dsimp -zeta only at hx
  extract_lets pr b c mine out tr d at hx
  obtain ⟨hr, hm⟩ := Prod.mk.inj (show (c.regs, c.mem, c.pair, c.trg.held) = (b.regs, b.mem, b.pair, b.trg.held) from by
    refine foldl_keeps _ (fun s : State => (s.regs, s.mem, s.pair, s.trg.held)) (fun x v => ?_) _ b
    cases x.get (Reg.TRG_UCFG_SRC.e v) == 0xB && x.get (Reg.TRG_UELEM_ELEM.e v) == f.unit
    · rw [bif_false]
    · rw [bif_true]
      rfl)
  obtain ⟨hm, hpair⟩ := Prod.mk.inj hm
  obtain ⟨hpair, hch⟩ := Prod.mk.inj hpair
  have hout : out = [] := by
    show c.trg.held.filter mine = []
    rw [hch]
    show a.trg.held.filter mine = []
    rw [ha]
    show s.trg.held.filter mine = []
    rw [hheld]
    rfl
  rw [hout] at hx
  refine ⟨d, hx, ?_, ?_, ?_⟩
  · show c.pair.fires = _
    rw [hpair]
    show a.pair.fires.filter _ = _
    rw [ha]
    rfl
  · exact (show d.regs = c.regs from rfl).trans (hr.trans (by rw [show b.regs = a.regs from rfl, ha]; rfl))
  · exact (show d.mem = c.mem from rfl).trans (hm.trans (by rw [show b.mem = a.mem from rfl, ha]; rfl))

end

/-! ### ARM and RELEASE -/

theorem State.lateArm_on (s : State) {u v : Nat} (hu : u < 32) (h : v = u ∨ s.on (Reg.TRG_USTAT_LATEARM.e v) = true) :
    (s.unitFlag u Reg.TRG_USTAT_LATEARM).on (Reg.TRG_USTAT_LATEARM.e v) = true := by
  unfold State.unitFlag
  cases hc : s.on (Reg.TRG_USTAT_LATEARM.e u)
  · rw [bif_false, State.on_ev _ _ _ ((Nat.add_lt_add_left hu 296).trans (by decide)) (array_not_event (a := 0x2410040) (by decide) _)]
    by_cases he : v = u
    · rw [he]
      exact State.on_flag_same _ _ _ (by decide : 7 + 1 ≤ 32) (by decide : 1 ≤ 1)
    · rw [State.on_flag_apart _ _ (.inl (elem_ne (by decide) he 0x2410040))]
      exact h.resolve_left he
  · rw [bif_true]
    rcases h with h | h
    · rw [h, hc]
    · exact h

/-- Every unit of a list shows that it was armed late. -/
theorem State.lateArm_foldl {l : List Nat} (hl : ∀ u ∈ l, u < 32) (s : State) {v : Nat}
    (h : v ∈ l ∨ s.on (Reg.TRG_USTAT_LATEARM.e v) = true) :
    (l.foldl (fun s u => s.unitFlag u Reg.TRG_USTAT_LATEARM) s).on (Reg.TRG_USTAT_LATEARM.e v) = true := by
  induction l generalizing s with
  | nil => exact h.resolve_left List.not_mem_nil
  | cons u l ih =>
    refine ih (fun w hw => hl w (.tail _ hw)) _ ?_
    have hu := hl u (.head _)
    rcases h with h | h
    · rcases List.mem_cons.mp h with h | h
      · exact .inr (s.lateArm_on hu (.inl h))
      · exact .inl h
    · exact .inr (s.lateArm_on hu (.inr h))

theorem State.members_lt (s : State) (g : Nat) : ∀ u ∈ s.members g, u < 32 := fun _ hu =>
  List.mem_range.mp (List.mem_filter.mp hu).1

/-- Unit `u` is released. -/
noncomputable def State.unarm (s : State) (u : Nat) : State :=
  bif s.get (unitState u) == 1 || s.get (unitState u) == 2 then
    (s.setUnit u { (s.unit u).cleared with comp := none }).put (unitState u) 0
  else s

theorem State.releaseGroup_all (s : State) (g : Nat) : s.releaseGroup g [] = (s.members g).foldl State.unarm s := by
  unfold State.releaseGroup
  exact congrArg (fun l => l.foldl State.unarm s) (List.filter_eq_self.mpr fun _ _ => rfl)

theorem State.unarm_outside (s : State) (u : Nat) : ((s.unarm u).mem, (s.unarm u).trg.groups) = (s.mem, s.trg.groups) := by
  unfold State.unarm
  cases s.get (unitState u) == 1 || s.get (unitState u) == 2
  · rw [bif_false]
  · rw [bif_true, State.put_mem, State.put_trg]
    rfl

theorem State.unarm_get (s : State) {u v : Nat} (h : s.get (unitState v) = 0 ∨ s.get (unitState v) = 1) :
    (s.unarm u).get (unitState v) = if v = u then 0 else s.get (unitState v) := by
  have hu := unitState_off u
  have hv := unitState_off v
  by_cases he : v = u
  · subst he
    rw [if_pos rfl]
    unfold State.unarm
    rcases h with h | h
    · rw [h]
      exact h
    · rw [h]
      exact State.get_put_same _ _ _ (by decide : 29 + 3 ≤ 32)
  · rw [if_neg he]
    unfold State.unarm
    cases s.get (unitState u) == 1 || s.get (unitState u) == 2
    · rw [bif_false]
    · rw [bif_true, State.get_put_apart _ _ (.inl (by lia))]
      rfl

/-- Every armed unit of a list is released. -/
theorem State.unarm_foldl (l : List Nat) (s : State) {v : Nat} (h : s.get (unitState v) = 0 ∨ (s.get (unitState v) = 1 ∧ v ∈ l)) :
    (l.foldl State.unarm s).get (unitState v) = 0 := by
  induction l generalizing s with
  | nil => exact h.resolve_right fun hm => absurd hm.2 List.not_mem_nil
  | cons u l ih =>
    refine ih _ ?_
    rw [s.unarm_get (h.imp_right And.left)]
    by_cases he : v = u
    · rw [if_pos he]
      exact .inl rfl
    · rw [if_neg he]
      exact h.imp_right fun hm => ⟨hm.1, (List.mem_cons.mp hm.2).resolve_left he⟩

section
variable {s : State} {id g num : Nat} (h : s.linkUp = true) (hp : s.inPair = true) (hs : s.pair.seen.contains id = false) (hg : g < 8)
include h hp hs hg

section
variable {tag : Nat} (hrun : s.runs = true) (hrole : dzRole s ≠ 1)
include hrun hrole

theorem exec_dzArm : exec (.dzArm true id g num tag) s = .next (
    bif lt s.now tag then (s.noted id).setGroup g { s.group g with pend := some (tag, num) }
    else (s.members g).foldl (fun s u => s.unitFlag u Reg.TRG_USTAT_LATEARM) ((s.noted id).armGroup g (some num))) := by
  show execDzArm true id g num tag s = _
  unfold execDzArm
  rw [State.onceIn_first h hp hs, show le 8 g = false from decide_eq_false (Nat.not_le_of_lt hg),
    show (s.noted id).runs = true from hrun, show (dzRole (s.noted id) == 1) = false from beq_false_of_ne hrole]
  rfl

theorem exec_dzArm_pends (ht : s.now < tag) : ∃ t, exec (.dzArm true id g num tag) s = .next t ∧
    (t.group g).pend = some (tag, num) ∧ t.regs = s.regs ∧ t.mem = s.mem := by
  have hx := exec_dzArm (num := num) (tag := tag) h hp hs hg hrun hrole
  rw [show lt s.now tag = true from decide_eq_true ht, bif_true] at hx
  exact ⟨_, hx, congrArg TrigGroup.pend (tget_tset_same ..), rfl, rfl⟩

theorem exec_dzArm_late (ht : tag ≤ s.now) : ∃ t, exec (.dzArm true id g num tag) s = .next t ∧
    ∀ u ∈ s.members g, t.on (Reg.TRG_USTAT_LATEARM.e u) = true := by
  have hx := exec_dzArm (num := num) (tag := tag) h hp hs hg hrun hrole
  rw [show lt s.now tag = false from decide_eq_false (Nat.not_lt_of_le ht), bif_false] at hx
  exact ⟨_, hx, fun u hu => State.lateArm_foldl (s.members_lt g) _ (.inl hu)⟩

end

theorem exec_dzRelease_first (harm : (s.group g).arm = num) (hf : (s.group g).fired = false) :
    ∃ t, exec (.dzRelease true id g num) s = .next t ∧
      (t.group g).fired = true ∧ t.mem = s.mem ∧ (∀ u ∈ s.members g, s.get (unitState u) = 1 → t.get (unitState u) = 0) := by
  obtain ⟨a, ha⟩ : ∃ a, a = (s.noted id).setGroup g { s.group g with fired := true } := ⟨_, rfl⟩
  have hx : exec (.dzRelease true id g num) s = .next (a.releaseGroup g []) := by
    show execDzRelease true id g num s = _
    unfold execDzRelease
    rw [State.onceIn_first h hp hs, show le 8 g = false from decide_eq_false (Nat.not_le_of_lt hg),
      show ((s.noted id).group g).arm = num from harm, bne_self_eq_false, show ((s.noted id).group g).fired = false from hf, ha]
    rfl
  have hr : a.regs = s.regs := by rw [ha]; rfl
  have hmem : a.members g = s.members g := by
    unfold State.members
    refine List.filter_congr fun u _ => ?_
    rw [State.on_congr hr, State.on_congr hr, State.get_congr hr]
  obtain ⟨hm, hgr⟩ := Prod.mk.inj (foldl_keeps State.unarm (fun s => (s.mem, s.trg.groups)) State.unarm_outside (s.members g) a)
  rw [State.releaseGroup_all, hmem] at hx
  refine ⟨_, hx, ?_, hm.trans (by rw [ha]; rfl), fun u hu h1 => State.unarm_foldl _ _ (.inr ⟨(State.get_congr hr _).trans h1, hu⟩)⟩
  rw [State.group, hgr, ha]
  exact congrArg TrigGroup.fired (tget_tset_same ..)

theorem exec_dzRelease_race (harm : (s.group g).arm = num) (hf : (s.group g).fired = true) :
    ∃ t, exec (.dzRelease true id g num) s = .next t ∧
      t.trg.held = s.trg.held.map (raceMark g num) ∧ t.trg.queue = s.trg.queue.map (raceMark g num) ∧ t.mem = s.mem := by
  obtain ⟨a, ha⟩ : ∃ a : State, a = { s.noted id with trg := { (s.noted id).trg with
    held := (s.noted id).trg.held.map (raceMark g num), queue := (s.noted id).trg.queue.map (raceMark g num) } } := ⟨_, rfl⟩
  have hx : ∃ l : List Nat, exec (.dzRelease true id g num) s = .next (l.foldl (fun s u => s.unitFlag u Reg.TRG_USTAT_RACE) a) := by
    show ∃ l : List Nat, execDzRelease true id g num s = _
    unfold execDzRelease
    rw [State.onceIn_first h hp hs, show le 8 g = false from decide_eq_false (Nat.not_le_of_lt hg),
      show ((s.noted id).group g).arm = num from harm, bne_self_eq_false, show ((s.noted id).group g).fired = true from hf, ha]
    exact ⟨_, rfl⟩
  obtain ⟨l, hx⟩ := hx
  have hk (s : State) (u : Nat) : ((s.unitFlag u Reg.TRG_USTAT_RACE).trg.held, (s.unitFlag u Reg.TRG_USTAT_RACE).trg.queue,
      (s.unitFlag u Reg.TRG_USTAT_RACE).mem) = (s.trg.held, s.trg.queue, s.mem) := by
    unfold State.unitFlag
    cases s.on (Reg.TRG_USTAT_RACE.e u)
    · rw [bif_false, State.ev_mem, State.flag_mem, State.ev_trg_held, State.ev_trg_queue, State.flag_trg]
    · rw [bif_true]
  obtain ⟨hh, hq⟩ := Prod.mk.inj (foldl_keeps _ (fun s : State => (s.trg.held, s.trg.queue, s.mem)) hk l a)
  obtain ⟨hq, hm⟩ := Prod.mk.inj hq
  refine ⟨_, hx, hh.trans (by rw [ha]; rfl), hq.trans (by rw [ha]; rfl), hm.trans (by rw [ha]; rfl)⟩

end

end Sys2Proof.Machine
end

section
/-! SUPPORT. What joining, yielding and measuring write (23 R666 to R672, R683). -/
namespace Sys2Proof.Machine

/-- The places that an engine writes as it yields, beside its role, its promotion count and DISC. -/
def yieldPlaces (l : Loc) : Prop := l = Reg.DZ_STAT_TLOCK.z ∨ clockPlaces l ∨ 0x500060 ≤ l.off

/-- The places that say what an engine is in its pair. -/
noncomputable def pairPlaces : List Loc :=
  [Reg.DZ_STAT_PSTATE.z, Reg.DZ_STAT_ROLE.z, Reg.DZ_STAT_PROLE.z, Reg.DZ_PCNT_PCNT.z, Reg.TB_CTRL_DISC.z, Reg.DZ_OFFSET_THETA.z,
    Reg.DZ_DELAY_DELAY.z]

theorem yieldPlaces.plain {l : Loc} (h : yieldPlaces l) : ¬ eventWord l.off := by
  rcases h with rfl | h | h
  · exact not_eventWord (by decide)
  · exact h.plain
  · exact not_eventWord (.inr (.inr (by lia)))

theorem yieldPlaces.apart {l m : Loc} (h : yieldPlaces l) (hm : m ∈ pairPlaces) : l.apart m := by
  rcases h with rfl | h | h
  · revert m
    decide
  · exact (by decide : ∀ k, clockPlaces k → ∀ m ∈ pairPlaces, k.apart m) l h m hm
  · have := (by decide : ∀ m ∈ pairPlaces, m.off < 0x500060) m hm
    exact .inl (by lia)

theorem pairPlaces_plain {m : Loc} (hm : m ∈ pairPlaces) : ¬ eventWord m.off :=
  not_eventWord ((by decide : ∀ m ∈ pairPlaces, m.off < 0x88000 ∨ (0x88100 ≤ m.off ∧ m.off < 0x100000) ∨ 0x104000 ≤ m.off) m hm)

namespace Frame

theorem pairGet {s t : State} (h : Frame yieldPlaces s t) {m : Loc} (hm : m ∈ pairPlaces) : t.get m = s.get m :=
  h.get m (pairPlaces_plain hm) fun _ hl => hl.apart hm

theorem clocked {s t : State} (h : Frame clockPlaces s t) : Frame yieldPlaces s t := h.mono fun _ h => .inr (.inl h)

theorem putHigh (s : State) {l : Loc} (v : Nat) (h : 0x500060 ≤ l.off) : Frame yieldPlaces s (s.put l v) :=
  put s v (.inr (.inr h)) (yieldPlaces.plain (.inr (.inr h)))

theorem tlockTo (s : State) (v : Bool) : Frame yieldPlaces s (s.tlockTo v) :=
  cond _ (refl s) (((flag s v (.inl rfl) (yieldPlaces.plain (.inl rfl))).trans (ev _ (by decide))).trans (clocked (tbSync _)))

theorem strToHigh (s : State) (st v : Nat) : Frame yieldPlaces s (s.strTo st v) := by
  have ho := strState_off st
  unfold State.strTo
  extract_lets o a n
  have ha : Frame yieldPlaces s a := putHigh s v (by lia)
  clear_value a
  exact ha.trans (cond _ (putHigh _ _ (by decide)) (cond _ (putHigh _ _ (by decide)) (refl _)))

theorem yieldStream (s : State) (st : Nat) : Frame yieldPlaces s (s.yieldStream st) := by
  have hgive (l : List QRec) : Frame yieldPlaces s (s.giveUp st 5 [] l) :=
    (KeepsStrState.giveUp st s 5 [] l).mono fun _ h => .inr (.inr (by have := h.1; lia))
  exact cond _ (refl s) ((hgive _).trans (cond _ (strToHigh _ _ _) (refl _)))

theorem toShadow (s : State) : Frame yieldPlaces s s.toShadow := by
  unfold State.toShadow
  extract_lets p a
  exact (show Frame yieldPlaces s a from of_regs rfl).trans (foldl s.str.streams (fun b e => yieldStream b e.1) a)

theorem sendReliable (s : State) (ty : Nat) (c : List Byte) : Frame yieldPlaces s (s.sendReliable ty c) :=
  (KeepsStrState.sendReliable 0 s ty c).mono fun _ h => .inr (.inr (by have := h.1; lia))

theorem sendSeries (s : State) : Frame yieldPlaces s s.sendSeries := by
  unfold State.sendSeries
  extract_lets a
  have ha : Frame yieldPlaces s a := foldl _ (fun b _ => sendReliable b _ _) s
  clear_value a
  exact ha.trans (foldl _ (fun b _ => cond _ (sendReliable b _ _) (refl b)) a)

end Frame

/-! ### What leaves the link's own record alone -/

theorem State.tbSync_pair (s : State) : s.tbSync.pair = s.pair := by
  obtain ⟨_, h⟩ := s.tqNote_eq false
  unfold State.tbSync
  rw [State.put_pair, State.put_pair, State.flag_pair, State.put_pair, h]

theorem State.keepWrite_regs (s : State) : s.keepWrite.regs = s.regs := by
  unfold State.keepWrite
  extract_lets x n r
  cases x.keepLast0
  · rw [bif_false]
  · rw [bif_true]

theorem State.tbSet_pair (s : State) (t : TimeBase) : (s.tbSet t).pair = s.pair := State.tbSync_pair _

theorem State.ev_cond_pair (c : Bool) (s : State) (n : Nat) : (bif c then s else s.ev n).pair = s.pair := by
  cases c
  · rw [bif_false, State.ev_pair]
  · rw [bif_true]

theorem State.discTo_pair (s : State) (d : Nat) : (s.discTo d).pair = s.pair := by
  unfold State.discTo
  extract_lets was a tb t b
  have hb : b.pair = s.pair := (State.ev_cond_pair ..).trans ((State.tbSet_pair ..).trans (State.put_pair ..))
  clear_value b
  cases s.disc == d
  · rw [bif_false]
    cases d == 2
    · rw [bif_false, hb]
    · rw [bif_true, State.ev_pair, hb]
  · rw [bif_true]

theorem State.tlockTo_pair (s : State) (v : Bool) : (s.tlockTo v).pair = s.pair := by
  unfold State.tlockTo
  cases s.on Reg.DZ_STAT_TLOCK.z == v
  · rw [bif_false, State.tbSync_pair, State.ev_pair, State.flag_pair]
  · rw [bif_true]

theorem State.pstateTo_pair (s : State) (v : Nat) : (s.pstateTo v).pair = s.pair := by
  unfold State.pstateTo
  cases dzState s == v
  · rw [bif_false, State.ev_pair, State.put_pair]
  · rw [bif_true]

theorem State.strTo_pair (s : State) (st v : Nat) : (s.strTo st v).pair = s.pair := by
  unfold State.strTo
  extract_lets o a n
  have ha : a.pair = s.pair := State.put_pair ..
  clear_value a
  cases v == 3 && o != 3
  · rw [bif_false]
    cases o == 3 && v != 3
    · rw [bif_false, ha]
    · rw [bif_true, State.put_pair, ha]
  · rw [bif_true, State.put_pair, ha]

theorem State.ringStarve_pair (s : State) (r : Nat) : (s.ringStarve r).pair = s.pair := by
  unfold State.ringStarve
  extract_lets now x a
  have ha : a.pair = s.pair := by
    show (bif now != x.starving then _ else _ : State).pair = _
    cases now != x.starving <;> rfl
  clear_value a
  cases now && !x.starving
  · rw [bif_false, ha]
  · rw [bif_true, State.ev_pair, State.flag_pair, ha]

theorem State.setQueue_pair (s : State) (st : Nat) (l : List QRec) : (s.setQueue st l).pair = s.pair := by
  unfold State.setQueue
  extract_lets x a b
  exact (foldl_keeps _ State.pair State.ringStarve_pair _ b).trans (State.put_pair ..)

theorem State.tally_pair (s : State) (st c n : Nat) (p : Bool) : (s.tally st c n p).pair = s.pair := State.count_pair ..

theorem State.trgTaken_pair (s : State) (st : Nat) (r : Record) : (s.trgTaken st r).pair = s.pair := by
  unfold State.trgTaken
  cases r.source == 1
  · rw [bif_false]
  · rw [bif_true, State.put_pair]

theorem State.giveUp_pair (s : State) (st c : Nat) (keep gone : List QRec) : (s.giveUp st c keep gone).pair = s.pair := by
  unfold State.giveUp
  extract_lets x part a b
  refine (foldl_keeps _ State.pair (fun z _ => ?_) _ b).trans ((foldl_keeps _ State.pair (fun z _ => ?_) _ a).trans ?_)
  · exact (State.trgTaken_pair ..).trans (State.tally_pair ..)
  · exact State.tally_pair ..
  · exact State.setQueue_pair ..

theorem State.yieldStream_pair (s : State) (st : Nat) : (s.yieldStream st).pair = s.pair := by
  have hwait (a : State) : (a.waitSync st).pair = a.pair := by
    unfold State.waitSync
    extract_lets v
    cases v == 1 || v == 2
    · rw [bif_false]
    · rw [bif_true, State.strTo_pair]
  unfold State.yieldStream
  extract_lets x
  cases x.queue.isEmpty && x.waiting.isEmpty
  · rw [bif_false, hwait, State.giveUp_pair]
  · rw [bif_true]

theorem State.toShadow_pair (s : State) : s.toShadow.pair = { s.pair with shadow := true } := by
  unfold State.toShadow
  extract_lets p a
  exact foldl_keeps (fun (b : State) (e : Nat × Stream) => b.yieldStream e.1) State.pair (fun b e => b.yieldStream_pair e.1) _ a

/-- What the link's record says of the partner. -/
noncomputable def State.seen (s : State) : Bool × Bool × Nat × Nat × Nat :=
  (s.pair.heard, s.pair.settled, s.pair.pmode, s.pair.pcount, s.pair.rxNext)

theorem State.seen_congr {s t : State} (h : t.pair = s.pair) : t.seen = s.seen := by rw [State.seen, h, State.seen]

theorem State.seen_sendReliable (s : State) (ty : Nat) (c : List Byte) : (s.sendReliable ty c).seen = s.seen := by
  unfold State.sendReliable
  extract_lets full p a
  cases s.sendHeld || !s.pair.txWait.isEmpty
  · rfl
  · rw [bif_true]
    cases full
    · rw [bif_false]
      rfl
    · rw [bif_true, State.seen_congr (State.ev_pair ..)]
      rfl

theorem State.seen_sendSeries (s : State) : s.sendSeries.seen = s.seen := by
  unfold State.sendSeries
  extract_lets a
  refine (foldl_keeps _ State.seen (fun b _ => ?_) _ a).trans (foldl_keeps _ State.seen (fun b _ => b.seen_sendReliable ..) _ s)
  unfold State.sendIndex
  cases b.ordering
  · rfl
  · exact b.seen_sendReliable ..

theorem State.sendWaiting_outside (n : Nat) (s : State) : ((State.sendWaiting n s).regs, (State.sendWaiting n s).seen) = (s.regs, s.seen) := by
  induction n generalizing s with
  | zero => rfl
  | succ n ih =>
    rw [State.sendWaiting]
    cases s.pair.txWait with
    | nil => rfl
    | cons c rest =>
      dsimp -zeta only
      cases s.sendHeld
      · rw [bif_false]
        exact (ih _).trans rfl
      · rfl

theorem State.ackUpTo_outside (s : State) (ack : Nat) : ((s.ackUpTo ack).regs, (s.ackUpTo ack).seen) = (s.regs, s.seen) := by
  unfold State.ackUpTo
  extract_lets done p u v
  refine (State.sendWaiting_outside _ v).trans ?_
  exact foldl_keeps (fun s (c : LinkCell) => s.letGo (leAt c.content 0 2) (orderedBy c.content)) (fun s : State => (s.regs, s.seen))
    (fun _ _ => rfl) _ u

theorem State.letGoAll_outside (s : State) : (s.letGoAll.regs, s.letGoAll.pair) = (s.regs, s.pair) :=
  foldl_keeps (fun (s : State) (e : Nat × Stream) => s.letGo e.1 (fun _ => true)) (fun s : State => (s.regs, s.pair)) (fun _ _ => rfl) _ s

end Sys2Proof.Machine
end

section
/-! PROOF of O56: the cells that keep the pair together (23 R667 to R673), and the obligation. -/
namespace Sys2Proof.Machine

/-! ### The pair's state and an engine that yields -/

theorem State.pstateTo_reads {s : State} {v : Nat} (hv : v < 8) (h : dzState s ≠ v) :
    dzState (s.pstateTo v) = v ∧ (s.pstateTo v).on (evPend 96) = true := by
  unfold State.pstateTo
  rw [beq_false_of_ne h, bif_false]
  refine ⟨?_, State.ev_pend ..⟩
  rw [dzState, State.get_ev _ _ _ (by decide) (not_eventWord (by decide)), State.get_put_same _ _ _ (by decide)]
  exact Nat.mod_eq_of_lt hv

theorem State.pstateTo_get (s : State) (v : Nat) {l : Loc} (hl : l ∈ pairPlaces) (ha : Reg.DZ_STAT_PSTATE.z.apart l) :
    (s.pstateTo v).get l = s.get l := by
  unfold State.pstateTo
  cases dzState s == v
  · rw [bif_false, State.get_ev _ _ _ (by decide) (pairPlaces_plain hl), State.get_put_apart _ _ ha]
  · rw [bif_true]

theorem State.discTo_disc (s : State) : (s.discTo 3).disc = 3 := by
  unfold State.discTo
  extract_lets was a tb t b
  have ha : Frame clockPlaces a b := (Frame.tbSet a t).trans (Frame.lockChange _ was)
  clear_value b
  cases hc : s.disc == 3
  · rw [bif_false, show ((3 : Nat) == 2) = false from rfl, bif_false, State.disc, (Frame.clocked ha).pairGet (by decide),
      State.get_put_same _ _ _ (by decide)]
    rfl
  · rw [bif_true]
    exact eq_of_beq hc

theorem Frame.discTo {m : Loc} (s : State) (d : Nat) (hm : m ∈ pairPlaces) (ha : Reg.TB_CTRL_DISC.z.apart m) :
    (s.discTo d).get m = s.get m := by
  unfold State.discTo
  extract_lets was a tb t b
  have hb : Frame clockPlaces a b := (Frame.tbSet a t).trans (Frame.lockChange _ was)
  clear_value b
  have hget : b.get m = s.get m := ((Frame.clocked hb).pairGet hm).trans (State.get_put_apart _ _ ha)
  cases s.disc == d
  · rw [bif_false]
    cases d == 2
    · rw [bif_false, hget]
    · rw [bif_true, State.get_ev _ _ _ (by decide) (pairPlaces_plain hm), hget]
  · rw [bif_true]

/-- What an engine that yields does once its role and its promotion count are written. -/
theorem State.beStandby_get (s : State) (pcnt : Nat) {m : Loc} (hm : m ∈ pairPlaces) (ho : Reg.TB_CTRL_DISC.z.apart m) :
    (s.beStandby pcnt).get m = ((s.roleTo 2).put Reg.DZ_PCNT_PCNT.z pcnt).get m :=
  ((Frame.tlockTo _ false).trans (Frame.toShadow _)).pairGet hm |>.trans (Frame.discTo _ 3 hm ho)

theorem State.beStandby_state (s : State) {pcnt : Nat} : dzState (s.beStandby pcnt) = dzState s := by
  rw [dzState, s.beStandby_get pcnt (by decide) (.inl (by decide)), State.get_put_apart _ _ (.inl (by decide))]
  unfold State.roleTo
  cases dzRole s == 2
  · rw [bif_false, State.get_congr (State.keepWrite_regs _), State.get_ev _ _ _ (by decide) (not_eventWord (by decide)),
      State.get_put_apart _ _ (.inr ⟨by decide, by decide⟩), dzState]
  · rw [bif_true, dzState]

/-- An engine that yields is STANDBY, with its primary's promotion count, disciplined by the pair and in SHADOW. -/
theorem State.beStandby_reads (s : State) {pcnt : Nat} (hp : pcnt < 2 ^ 32) (hr : dzRole s = 2) :
    dzRole (s.beStandby pcnt) = 2 ∧ (s.beStandby pcnt).pair = { s.pair with shadow := true } ∧
      (s.beStandby pcnt).get Reg.DZ_PCNT_PCNT.z = pcnt ∧ (s.beStandby pcnt).disc = 3 := by
  have hsame : s.roleTo 2 = s := by rw [State.roleTo, hr, beq_self_eq_true, bif_true]
  refine ⟨?_, ?_, ?_, ?_⟩
  · rw [dzRole, s.beStandby_get pcnt (by decide) (.inl (by decide)), State.get_put_apart _ _ (.inl (by decide)), hsame, ← dzRole, hr]
  · unfold State.beStandby
    rw [State.toShadow_pair, State.tlockTo_pair, State.discTo_pair, State.put_pair, hsame]
  · rw [s.beStandby_get pcnt (by decide) (.inl (by decide)), State.get_put_same _ _ _ (by decide)]
    exact Nat.mod_eq_of_lt hp
  · exact (((Frame.tlockTo _ false).trans (Frame.toShadow _)).pairGet (by decide)).trans (State.discTo_disc _)

/-! ### HEARTBEAT -/

/-- Joining begins anew, with EV096. -/
theorem State.joinStart_reads {s : State} (hs : dzState s = 1) :
    dzState s.joinStart = 2 ∧ s.joinStart.pair.heard = true ∧ s.joinStart.pair.settled = false ∧ s.joinStart.on (evPend 96) = true := by
  unfold State.joinStart
  extract_lets p a
  obtain ⟨hr, hpair⟩ := Prod.mk.inj a.letGoAll_outside
  obtain ⟨b, hb⟩ : ∃ b, b = a.letGoAll := ⟨_, rfl⟩
  rw [← hb] at hr hpair ⊢
  have hb1 : dzState b = 1 := (State.get_congr hr _).trans hs
  obtain ⟨h2, hev⟩ := State.pstateTo_reads (s := b) (v := 2) (by decide) (by rw [hb1]; decide)
  obtain ⟨c, hc⟩ : ∃ c, c = (b.pstateTo 2).flag Reg.DZ_STAT_JOINERR.z false := ⟨_, rfl⟩
  have hf : Frame yieldPlaces c c.sendJoin := Frame.sendReliable ..
  have hcp : c.pair = a.pair := by rw [hc, State.flag_pair, State.pstateTo_pair, hpair]
  have hseen : c.sendJoin.seen = a.seen := (c.seen_sendReliable _ _).trans (State.seen_congr hcp)
  obtain ⟨hheard, hset⟩ := Prod.mk.inj hseen
  rw [← hc]
  refine ⟨?_, hheard, (Prod.mk.inj hset).1, hf.pends 96 (by decide) ?_⟩
  · rw [dzState, hf.pairGet (by decide), hc, State.get_flag_apart _ _ (.inr ⟨by decide, by decide⟩)]
    exact h2
  · rw [hc, State.on_flag_apart _ _ (.inl (by decide))]
    exact hev

theorem State.splitSeen_state {s : State} (role : Nat) (hs : dzState s = 1) : dzState (s.splitSeen role) = 1 := by
  unfold State.splitSeen
  extract_lets own
  cases (own == 1 || own == 4) && dzRole s == 1 && role == 1
  · rw [bif_false, hs]
  · rw [bif_true, dzState, State.get_ev _ _ _ (by decide) (not_eventWord (by decide)),
      State.get_flag_apart _ _ (.inr ⟨by decide, by decide⟩)]
    exact hs

/-- The link of a split pair, or of one that was lost, returns. -/
theorem State.linkReturns_reads {s : State} {role pcnt : Nat} (hs : dzState s = 1) : ∃ a, s.linkReturns role pcnt = a.joinStart ∧ dzState a = 1 := by
  unfold State.linkReturns
  dsimp only
  have ha := State.splitSeen_state role hs
  generalize s.splitSeen role = a at ha ⊢
  generalize (dzRole s == 1 && role == 1 && !a.claimKeeps role pcnt) = c
  cases c
  · exact ⟨a, by rw [bif_false], ha⟩
  · exact ⟨a.beStandby pcnt, by rw [bif_true], a.beStandby_state.trans ha⟩

/-- The join's end changes the pair's state alone. -/
theorem State.joinDone_outside (s : State) : s.joinDone.pair = s.pair ∧
    ∀ l ∈ pairPlaces, Reg.DZ_STAT_PSTATE.z.apart l → s.joinDone.get l = s.get l := by
  unfold State.joinDone
  generalize (dzState s == 2 && dzRole s == 2 && s.pair.settled && s.on Reg.DZ_STAT_TLOCK.z && !s.on Reg.DZ_STAT_JOINERR.z && s.linkUp
      && s.pair.pmode == s.get Reg.PWR_STAT_MODE.z) = c
  cases c
  · rw [bif_false]
    exact ⟨rfl, fun _ _ _ => rfl⟩
  · rw [bif_true]
    exact ⟨s.pstateTo_pair 3, fun l hl => s.pstateTo_get 3 hl⟩

section
variable {s : State} (h : s.linkUp = true) (hp : s.inPair = true)
include h hp

/-- What a heartbeat says of the partner is noted, and its acknowledgement taken. -/
theorem exec_dzHeartbeat (role pstate mode pcnt gen ack : Nat) : ∃ b : State,
    (dzState b = dzState s ∧ dzRole b = dzRole s ∧ b.seen = (s.pair.heard, s.pair.settled, mode, pcnt, s.pair.rxNext)) ∧
    exec (.dzHeartbeat true role pstate mode pcnt gen ack false) s = .next (
      bif dzState b == 1 || dzState b == 4 then b.linkReturns role pcnt
      else bif dzState b == 3 then
        bif dzRole b == 2 && mode != b.get Reg.PWR_STAT_MODE.z then b.pstateTo 2
        else bif dzRole b == 1 && pstate != 3 then b.pstateTo 2 else b
      else bif dzRole b == 1 then (bif b.pair.settled && pstate == 3 then b.pstateTo 3 else b)
      else b.joinDone) := by
  have hx : exec (.dzHeartbeat true role pstate mode pcnt gen ack false) s = execDzHeartbeat true role pstate mode pcnt gen ack false s := rfl
  unfold execDzHeartbeat at hx
  rw [State.cellIn_taken h hp] at hx
  extract_lets a pr c d own at hx
  rw [bif_false] at hx
  have hpair : a.pair = s.pair := (State.flag_pair ..).trans (State.put_pair ..)
  have hga {m : Loc} (h1 : Reg.DZ_STAT_PROLE.z.apart m) (h2 : Reg.DZ_STAT_WITNESS.z.apart m) : a.get m = s.get m :=
    (State.get_flag_apart _ _ h2).trans (State.get_put_apart _ _ h1)
  have hd : (d.regs, d.seen) = (c.regs, c.seen) := c.ackUpTo_outside ack
  have hown : own = dzState d := rfl
  clear_value own d a
  subst hown
  obtain ⟨hr, hseen⟩ := Prod.mk.inj hd
  have hget {m : Loc} (h1 : Reg.DZ_STAT_PROLE.z.apart m) (h2 : Reg.DZ_STAT_WITNESS.z.apart m) : d.get m = s.get m :=
    (State.get_congr hr m).trans ((State.get_congr (show c.regs = a.regs from rfl) m).trans (hga h1 h2))
  refine ⟨_, ⟨hget (.inr ⟨by decide, by decide⟩) (.inr ⟨by decide, by decide⟩), hget (.inr ⟨by decide, by decide⟩) (.inr ⟨by decide, by decide⟩), ?_⟩, hx⟩
  rw [hseen]
  show (a.pair.heard, a.pair.settled, mode, pcnt, a.pair.rxNext) = _
  rw [hpair]

theorem exec_dzHeartbeat_synced (role mode pcnt gen ack : Nat) (hs : dzState s = 2) (hr : dzRole s = 1) (hset : s.pair.settled = true) :
    ∃ t, exec (.dzHeartbeat true role 3 mode pcnt gen ack false) s = .next t ∧
      dzState t = 3 ∧ t.pair.pmode = mode ∧ t.pair.pcount = pcnt ∧ t.on (evPend 96) = true := by
  obtain ⟨b, ⟨hbs, hbr, hseen⟩, hx⟩ := exec_dzHeartbeat h hp role 3 mode pcnt gen ack
  obtain ⟨-, hseen⟩ := Prod.mk.inj hseen
  obtain ⟨hbset, hseen⟩ := Prod.mk.inj hseen
  obtain ⟨hmode, hseen⟩ := Prod.mk.inj hseen
  rw [hs] at hbs
  rw [hbs, hbr, hr, hbset, hset, show ((2 : Nat) == 1 || (2 : Nat) == 4) = false from rfl, bif_false, show ((2 : Nat) == 3) = false from rfl,
    bif_false, beq_self_eq_true, bif_true, beq_self_eq_true, Bool.and_self, bif_true] at hx
  obtain ⟨h3, hev⟩ := State.pstateTo_reads (s := b) (v := 3) (by decide) (by rw [hbs]; decide)
  exact ⟨_, hx, h3, by rw [State.pstateTo_pair, hmode], by rw [State.pstateTo_pair, (Prod.mk.inj hseen).1], hev⟩

theorem exec_dzHeartbeat_returns (role pstate mode pcnt gen ack : Nat) (hs : dzState s = 1) :
    ∃ t, exec (.dzHeartbeat true role pstate mode pcnt gen ack false) s = .next t ∧
      dzState t = 2 ∧ t.pair.heard = true ∧ t.pair.settled = false ∧ t.on (evPend 96) = true := by
  obtain ⟨b, ⟨hbs, -, -⟩, hx⟩ := exec_dzHeartbeat h hp role pstate mode pcnt gen ack
  rw [hs] at hbs
  obtain ⟨a, ha, ha1⟩ := State.linkReturns_reads (role := role) (pcnt := pcnt) hbs
  rw [hbs, show ((1 : Nat) == 1 || (1 : Nat) == 4) = true from rfl, bif_true, ha] at hx
  exact ⟨_, hx, State.joinStart_reads ha1⟩

/-! ### JOIN -/

/-- A first JOIN has come and its sender's number and role are noted. -/
theorem exec_dzJoin (m role pcnt digest gen : Nat) (serial : List Byte) (hs : dzState s = 2) (hset : s.pair.settled = false) :
    ∃ b : State, (dzState b = 2 ∧ dzRole b = dzRole s ∧ b.get Reg.DZ_STAT_PROLE.z = role % 4 ∧ b.pair.settled = false ∧
      b.pair.rxNext = (m + 1) % 65536) ∧
    ∀ c u : State, c = b.settleRole role pcnt → dzState c = 2 → c.pair.settled = false →
      u = { c with pair := { c.pair with settled := true, alone := false, switching := false, pcount := pcnt, pdigest := some digest } } →
      exec (.dzJoin true m role pcnt digest gen serial) s = .next (
        bif dzRole u == 1 then u.sendSeries
        else bif u.digest64 false == digest then ((u.put Reg.ADM_GEN_GEN.z gen).put Reg.ADM_CGEN_CGEN.z gen).joinDone
        else (u.flag Reg.DZ_STAT_JOINERR.z true).ev 104) := by
  obtain ⟨⟨hdr, -, -, -⟩, k, hdp⟩ := s.delivered_parts m
  obtain ⟨a, ha⟩ : ∃ a, a = (upto 4).foldl (fun s k => s.put (Reg.DZ_PSERIAL_SERIAL.e k) (leAt serial (4 * k) 4)) (s.delivered m) := ⟨_, rfl⟩
  have hf : Frame yieldPlaces (s.delivered m) a := by
    rw [ha]
    refine Frame.foldl _ (fun b k => Frame.putHigh b _ ?_) _
    show 0x500060 ≤ 0x500060 + (k * 4 + 0)
    lia
  have hap : a.pair = (s.delivered m).pair := by
    rw [ha]
    exact foldl_keeps _ State.pair (fun _ _ => State.put_pair ..) _ _
  obtain ⟨b, hb⟩ : ∃ b, b = a.put Reg.DZ_STAT_PROLE.z role := ⟨_, rfl⟩
  have hget {l : Loc} (hl : l ∈ pairPlaces) (ho : Reg.DZ_STAT_PROLE.z.apart l) : b.get l = s.get l := by
    rw [hb, State.get_put_apart _ _ ho, hf.pairGet hl, State.get_congr hdr]
  have hbp : b.pair = { s.pair with rxNext := (m + 1) % 65536, msgId := k } := by rw [hb, State.put_pair, hap, hdp]
  have hbs : dzState b = 2 := (hget (by decide) (.inr ⟨by decide, by decide⟩)).trans hs
  refine ⟨b, ⟨hbs, hget (by decide) (.inr ⟨by decide, by decide⟩), ?_, by rw [hbp]; exact hset, by rw [hbp]⟩, fun c u hc hcs hcset hu => ?_⟩
  · rw [hb, State.get_put_same _ _ _ (by decide)]
    rfl
  · have hx : exec (.dzJoin true m role pcnt digest gen serial) s = execDzJoin true m role pcnt digest gen serial s := rfl
    have htaken : s.joinTaken m = false := by rw [State.joinTaken, hset, Bool.false_and, Bool.false_and]
    have hsplit : b.splitSeen role = b := by
      unfold State.splitSeen
      rw [hbs]
      rfl
    unfold execDzJoin at hx
    rw [State.cellIn_taken h hp, htaken, bif_false] at hx
    extract_lets pr' z a' b' c' d' pr u' at hx
    have hb' : b' = b := by
      show (State.put a' _ _).splitSeen role = b
      rw [show a' = a from ha.symm, ← hb, hsplit]
    have hc' : c' = c := by
      show b'.settleRole role pcnt = c
      rw [hb', hc]
    have hd' : d' = c := by
      show (bif dzState c' == 2 && !c'.pair.settled then c' else c'.joinStart) = c
      rw [hc', hcs, hcset, beq_self_eq_true, Bool.not_false, Bool.and_self, bif_true]
    have hu' : u' = u := by
      show ({ d' with pair := { d'.pair with
        settled := true, alone := false, switching := false, pcount := pcnt, pdigest := some digest } } : State) = u
      rw [hd', hu]
    rw [hu'] at hx
    exact hx

theorem exec_dzJoin_primary (m pcnt digest gen : Nat) (serial : List Byte) (hs : dzState s = 2) (hr : dzRole s = 1)
    (hset : s.pair.settled = false) : ∃ t, exec (.dzJoin true m 2 pcnt digest gen serial) s = .next t ∧
      dzRole t = 1 ∧ t.pair.settled = true ∧ t.pair.pcount = pcnt ∧ t.get Reg.DZ_STAT_PROLE.z = 2 ∧ t.pair.rxNext = (m + 1) % 65536 := by
  obtain ⟨b, ⟨hbs, hbr, hbp, hbset, hrx⟩, hx⟩ := exec_dzJoin h hp m 2 pcnt digest gen serial hs hset
  rw [hr] at hbr
  have hsame : b.settleRole 2 pcnt = b := by
    have hkeep : b.claimKeeps 2 pcnt = true := by
      unfold State.claimKeeps
      rw [hbr]
      rfl
    rw [State.settleRole, hkeep, bif_true, State.roleTo, hbr, beq_self_eq_true, bif_true]
  obtain ⟨u, hu⟩ : ∃ u : State, u = { b with pair := { b.pair with
    settled := true, alone := false, switching := false, pcount := pcnt, pdigest := some digest } } := ⟨_, rfl⟩
  have hx := hx b u hsame.symm hbs hbset hu
  have hur : u.regs = b.regs := by rw [hu]
  have hrole : dzRole u = 1 := (State.get_congr hur _).trans hbr
  have hf := Frame.sendSeries u
  have hseen : u.sendSeries.seen = (b.pair.heard, true, b.pair.pmode, pcnt, b.pair.rxNext) := by rw [u.seen_sendSeries, hu]; rfl
  obtain ⟨-, hseen⟩ := Prod.mk.inj hseen
  obtain ⟨h1, hseen⟩ := Prod.mk.inj hseen
  obtain ⟨-, hseen⟩ := Prod.mk.inj hseen
  obtain ⟨h2, h3⟩ := Prod.mk.inj hseen
  rw [hrole, beq_self_eq_true, bif_true] at hx
  exact ⟨_, hx, (hf.pairGet (by decide)).trans hrole, h1, h2, (hf.pairGet (by decide)).trans ((State.get_congr hur _).trans hbp), h3.trans hrx⟩

theorem exec_dzJoin_standby (m pcnt digest gen : Nat) (serial : List Byte) (hs : dzState s = 2) (hr : dzRole s = 2)
    (hset : s.pair.settled = false) (hc : pcnt < 2 ^ 32) : ∃ t, exec (.dzJoin true m 1 pcnt digest gen serial) s = .next t ∧
      dzRole t = 2 ∧ t.get Reg.DZ_PCNT_PCNT.z = pcnt ∧ t.disc = 3 ∧ t.pair.shadow = true ∧ t.pair.settled = true := by
  obtain ⟨b, ⟨hbs, hbr, -, hbset, -⟩, hx⟩ := exec_dzJoin h hp m 1 pcnt digest gen serial hs hset
  rw [hr] at hbr
  obtain ⟨c, hcy⟩ : ∃ c, c = b.beStandby pcnt := ⟨_, rfl⟩
  have hyield : b.settleRole 1 pcnt = c := by
    have hkeep : b.claimKeeps 1 pcnt = false := by
      unfold State.claimKeeps
      rw [hbr]
      rfl
    rw [State.settleRole, hkeep, bif_false, hcy]
  obtain ⟨hrole, hpair, hpc, hdisc⟩ := b.beStandby_reads hc hbr
  have hst := b.beStandby_state (pcnt := pcnt)
  rw [← hcy] at hrole hpair hpc hdisc hst
  obtain ⟨u, hu⟩ : ∃ u : State, u = { c with pair := { c.pair with
    settled := true, alone := false, switching := false, pcount := pcnt, pdigest := some digest } } := ⟨_, rfl⟩
  have hx := hx c u hyield.symm (hst.trans hbs) (by rw [hpair]; exact hbset) hu
  have hur : u.regs = c.regs := by rw [hu]
  have hup : u.pair.shadow = true ∧ u.pair.settled = true := by rw [hu, hpair]; exact ⟨rfl, rfl⟩
  have hget (l : Loc) : u.get l = c.get l := State.get_congr hur l
  rw [show dzRole u = 2 from (hget _).trans hrole, show ((2 : Nat) == 1) = false from rfl, bif_false] at hx
  suffices hend : ∀ t : State, t.pair = u.pair → (∀ l ∈ pairPlaces, Reg.DZ_STAT_PSTATE.z.apart l → t.get l = u.get l) →
      dzRole t = 2 ∧ t.get Reg.DZ_PCNT_PCNT.z = pcnt ∧ t.disc = 3 ∧ t.pair.shadow = true ∧ t.pair.settled = true by
    generalize (u.digest64 false == digest) = k at hx
    cases k
    · rw [bif_false] at hx
      refine ⟨_, hx, hend _ ((State.ev_pair ..).trans (State.flag_pair ..)) fun l hl ha => ?_⟩
      rw [State.get_ev _ _ _ (by decide) (pairPlaces_plain hl)]
      exact State.get_flag_apart _ _ ((by decide : ∀ l ∈ pairPlaces, Reg.DZ_STAT_JOINERR.z.apart l) l hl)
    · rw [bif_true] at hx
      obtain ⟨hjp, hjg⟩ := State.joinDone_outside ((u.put Reg.ADM_GEN_GEN.z gen).put Reg.ADM_CGEN_CGEN.z gen)
      refine ⟨_, hx, hend _ (hjp.trans ((State.put_pair ..).trans (State.put_pair ..))) fun l hl ha => (hjg l hl ha).trans ?_⟩
      exact ((Frame.putHigh u gen (by decide)).trans (Frame.putHigh _ gen (by decide))).pairGet hl
  intro t htp ht
  have ht' {l : Loc} (hl : l ∈ pairPlaces) (ha : Reg.DZ_STAT_PSTATE.z.apart l) : t.get l = c.get l := (ht l hl ha).trans (hget l)
  rw [htp]
  exact ⟨(ht' (by decide) (.inr ⟨by decide, by decide⟩)).trans hrole, (ht' (by decide) (.inl (by decide))).trans hpc,
    (ht' (by decide) (.inl (by decide))).trans hdisc, hup⟩

end

end Sys2Proof.Machine
end

section
/-! PROOF of O56: SYNC (23 R671, R672), and the obligation. -/
namespace Sys2Proof.Machine

/-! ### SYNC -/

theorem satS_bounds (v : Int) : -(2 ^ 31 : Int) ≤ satS 32 v ∧ satS 32 v ≤ 2 ^ 31 - 1 := by
  unfold satS
  split_ifs with hlow hhigh
  · exact ⟨le_refl _, by decide⟩
  · exact ⟨by decide, le_refl _⟩
  · exact ⟨not_lt.1 hlow, not_lt.1 hhigh⟩

theorem satU_lt (v : Int) : (satU 32 v).toNat < 2 ^ 32 := by
  unfold satU
  split_ifs with hlow hhigh
  · decide
  · decide
  · exact (Int.toNat_lt' (by decide)).2 (lt_of_le_of_lt (not_lt.1 hhigh) (by decide))

/-- A value written to a 32-bit place is read back saturated. -/
theorem State.getI_putI (s : State) {l : Loc} (h : l.lo = 0) (hw : l.w = 32) (v : Int) : (s.putI l v).getI l = satS 32 v := by
  obtain ⟨hlo, hhi⟩ := satS_bounds v
  unfold State.putI State.getI
  rw [State.get_put_same _ _ _ (by rw [h, hw]), hw, show toU 32 (satS 32 v) = (BitVec.ofInt 32 (satS 32 v)).toNat from (BitVec.toNat_ofInt _).symm,
    Nat.mod_eq_of_lt (BitVec.isLt _), sext_toNat, BitVec.toInt_ofInt_eq_self (by decide) hlo (Int.lt_of_le_sub_one hhi)]

theorem satS_satS (v : Int) : satS 32 (satS 32 v) = satS 32 v := by
  obtain ⟨hlo, hhi⟩ := satS_bounds v
  rw [satS, if_neg (not_lt.2 hlo), if_neg (not_lt.2 hhi)]

theorem State.tbScale_pairGet (s : State) (t : TimeBase) {m : Loc} (hm : m ∈ pairPlaces) : (s.tbScale t).get m = s.get m := by
  unfold State.tbScale
  extract_lets old b
  have hb : b.regs = s.regs := rfl
  clear_value b
  rw [(Frame.clocked (Frame.tbSync _)).pairGet hm, State.get_congr (State.tqNote_regs _ true)]
  exact (State.get_put_apart _ _ ((by decide : ∀ m ∈ pairPlaces, Reg.TB_STATUS_STEPCNT.z.apart m) m hm)).trans (State.get_congr hb m)

theorem State.tbScale_pair (s : State) (t : TimeBase) : (s.tbScale t).pair = s.pair := by
  unfold State.tbScale
  extract_lets old b
  have hb : b.pair = s.pair := rfl
  clear_value b
  obtain ⟨_, h⟩ := (b.wrap Reg.TB_STATUS_STEPCNT.z 1).tqNote_eq true
  rw [State.tbSync_pair, h, State.wrap_pair, hb]

/-- A step moves the instants, takes a new scale and raises EV022. -/
theorem State.timeStep_scale (s : State) (d : Int) : ∃ t, s.timeStep d = ((s.moveInstants (tagAdd · d)).tbScale t).ev 22 := ⟨_, rfl⟩

theorem State.timeStep_pairGet (s : State) (d : Int) {m : Loc} (hm : m ∈ pairPlaces) : (s.timeStep d).get m = s.get m := by
  obtain ⟨t, ht⟩ := s.timeStep_scale d
  rw [ht, State.get_ev _ _ _ (by decide) (pairPlaces_plain hm), State.tbScale_pairGet _ _ hm]
  exact State.get_congr (show (s.moveInstants (tagAdd · d)).regs = s.regs from rfl) m

theorem State.timeStep_pair (s : State) (d : Int) : (s.timeStep d).pair = s.pair := by
  obtain ⟨t, ht⟩ := s.timeStep_scale d
  rw [ht, State.ev_pair, State.tbScale_pair]
  rfl

/-- `s` with the stamps of its own SYNC moved by `d`. -/
noncomputable def State.stampsMoved (s : State) (d : Int) : State :=
  { s with pair := { s.pair with syncSent := s.pair.syncSent.map (fun c => (c.1, toU 80 ((c.2 : Int) + d))) } }

theorem State.stampsMoved_get (s : State) (d : Int) (l : Loc) : (s.stampsMoved d).get l = s.get l := State.get_congr rfl l
theorem State.stampsMoved_syncIn (s : State) (d : Int) : (s.stampsMoved d).pair.syncIn = s.pair.syncIn := rfl

theorem State.pairStep_stamps (s : State) (d : Int) : s.pairStep d = (s.timeStep d).stampsMoved d := by
  rw [State.pairStep, State.stampsMoved]

theorem State.pairStep_pairGet (s : State) (d : Int) {m : Loc} (hm : m ∈ pairPlaces) : (s.pairStep d).get m = s.get m := by
  rw [State.pairStep_stamps, State.stampsMoved_get, s.timeStep_pairGet d hm]

theorem State.pairStep_syncIn (s : State) (d : Int) : (s.pairStep d).pair.syncIn = s.pair.syncIn := by
  rw [State.pairStep_stamps, State.stampsMoved_syncIn, State.timeStep_pair]

/-- The time base of the standby follows a measurement: by a step, or by its loop. -/
noncomputable def State.follow (s : State) (step : Bool) (d : Int) (t : TimeBase) : State := bif step then s.pairStep d else s.tbSet t

theorem State.follow_outside (s : State) (step : Bool) (d : Int) (t : TimeBase) :
    (s.follow step d t).pair.syncIn = s.pair.syncIn ∧ ∀ m ∈ pairPlaces, (s.follow step d t).get m = s.get m := by
  unfold State.follow
  cases step
  · rw [bif_false, State.tbSet_pair]
    exact ⟨rfl, fun m hm => (Frame.clocked (Frame.tbSet _ _)).pairGet hm⟩
  · rw [bif_true]
    exact ⟨s.pairStep_syncIn d, fun m hm => s.pairStep_pairGet d hm⟩

/-- Time lock after a measurement: `good` in a row within 1 ns, `bad` in a row beyond 5 ns. -/
noncomputable def State.lockJudged (s : State) (good bad : Nat) : State :=
  bif le 16 good then (s.tlockTo true).joinDone
  else bif le 4 bad && s.on Reg.DZ_STAT_TLOCK.z then s.lockLost
  else s

theorem State.lockLost_outside (s : State) : s.lockLost.pair = s.pair ∧
    ∀ m ∈ pairPlaces, Reg.DZ_STAT_PSTATE.z.apart m → s.lockLost.get m = s.get m := by
  have hp := s.tlockTo_pair false
  have hg {m : Loc} (hm : m ∈ pairPlaces) : (s.tlockTo false).get m = s.get m := (Frame.tlockTo s false).pairGet hm
  unfold State.lockLost
  dsimp only
  generalize (dzState (s.tlockTo false) == 3) = c
  cases c
  · rw [bif_false]
    exact ⟨hp, fun m hm _ => hg hm⟩
  · rw [bif_true, State.pstateTo_pair]
    exact ⟨hp, fun m hm ha => ((s.tlockTo false).pstateTo_get 2 hm ha).trans (hg hm)⟩

theorem State.lockJudged_outside (s : State) (good bad : Nat) : (s.lockJudged good bad).pair = s.pair ∧
    ∀ m ∈ pairPlaces, Reg.DZ_STAT_PSTATE.z.apart m → (s.lockJudged good bad).get m = s.get m := by
  unfold State.lockJudged
  generalize (le 4 bad && s.on Reg.DZ_STAT_TLOCK.z) = c
  cases le 16 good
  · rw [bif_false]
    cases c
    · rw [bif_false]
      exact ⟨rfl, fun _ _ _ => rfl⟩
    · rw [bif_true]
      exact s.lockLost_outside
  · rw [bif_true]
    obtain ⟨hp, hg⟩ := (s.tlockTo true).joinDone_outside
    exact ⟨hp.trans (s.tlockTo_pair true), fun m hm ha => (hg m hm ha).trans ((Frame.tlockTo s true).pairGet hm)⟩

/-- `s` with the runs of good and bad measurements counted. -/
noncomputable def State.runsCounted (s : State) (good bad : Nat) : State :=
  { s with pair := { s.pair with lockRun := good, badRun := bad, silent := 0, firstTheta := false } }

theorem State.runsCounted_get (s : State) (good bad : Nat) (l : Loc) : (s.runsCounted good bad).get l = s.get l := State.get_congr rfl l
theorem State.runsCounted_syncIn (s : State) (good bad : Nat) : (s.runsCounted good bad).pair.syncIn = s.pair.syncIn := rfl

theorem State.measure_parts (s : State) (two : Int) : ∃ (good bad : Nat) (step : Bool) (d : Int) (t : TimeBase),
    s.measure two = ((s.runsCounted good bad).follow step d t).lockJudged good bad := by
  unfold State.measure
  extract_lets th p exceeds good bad step a b
  exact ⟨good, bad, step, -th, _, rfl⟩

/-- A measurement leaves what was measured. -/
theorem State.measure_outside (s : State) (two : Int) : (s.measure two).pair.syncIn = s.pair.syncIn ∧
    ∀ m ∈ pairPlaces, Reg.DZ_STAT_PSTATE.z.apart m → (s.measure two).get m = s.get m := by
  obtain ⟨good, bad, step, d, t, hx⟩ := s.measure_parts two
  obtain ⟨hfp, hfg⟩ := (s.runsCounted good bad).follow_outside step d t
  obtain ⟨hlp, hlg⟩ := ((s.runsCounted good bad).follow step d t).lockJudged_outside good bad
  rw [hx, hlp, hfp, State.runsCounted_syncIn]
  exact ⟨rfl, fun m hm ha => (hlg m hm ha).trans ((hfg m hm).trans (s.runsCounted_get good bad m))⟩

section
variable {s : State} (h : s.linkUp = true) (hp : s.inPair = true) (id t1 pid pt a stamp : Nat) (hst : stamp = s.quantised a % 2 ^ 80)
include h hp hst

/-- The partner's stamps are noted, and measured where this engine follows it. -/
theorem exec_dzSync : ∃ u : State, (u.regs = s.regs ∧ u.mem = s.mem ∧ u.pair.syncIn = some (id, t1, stamp) ∧
      u.pair.syncSent = s.pair.syncSent) ∧
    exec (.dzSync true id t1 pid pt a) s = .next (match u.pair.syncSent.find? (fun c => c.1 == pid) with
      | some (_, t3) =>
        bif dzRole u == 2 && u.disc == 3 && (dzState u == 2 || dzState u == 3) then
          ((u.putI Reg.DZ_OFFSET_THETA.z (satS 32 (rnd ((stampDiff stamp t1 - stampDiff pt t3) - 2 * u.getI Reg.DZ_ASYM_ASYM.z * 2 ^ 8) 9))).put
            Reg.DZ_DELAY_DELAY.z (satU 32 (rnd (stampDiff stamp t1 + stampDiff pt t3) 9)).toNat).measure
              ((stampDiff stamp t1 - stampDiff pt t3) - 2 * u.getI Reg.DZ_ASYM_ASYM.z * 2 ^ 8)
        else u
      | none => u) := by
  refine ⟨{ s with pair := { s.pair with syncIn := some (id, t1, stamp) } }, ⟨rfl, rfl, rfl, rfl⟩, ?_⟩
  have hx : exec (.dzSync true id t1 pid pt a) s = execDzSync true id t1 pid pt a s := rfl
  unfold execDzSync at hx
  rw [State.cellIn_taken h hp, ← hst] at hx
  exact hx

theorem exec_dzSync_primary (hr : dzRole s = 1) : ∃ t, exec (.dzSync true id t1 pid pt a) s = .next t ∧
    t.pair.syncIn = some (id, t1, stamp) ∧ t.regs = s.regs ∧ t.mem = s.mem := by
  obtain ⟨u, ⟨hur, hum, hup, -⟩, hx⟩ := exec_dzSync h hp id t1 pid pt a stamp hst
  have hrole : dzRole u = 1 := (State.get_congr hur _).trans hr
  refine ⟨u, hx.trans (congrArg _ ?_), hup, hur, hum⟩
  cases u.pair.syncSent.find? (fun c => c.1 == pid) with
  | none => rfl
  | some c =>
    dsimp -zeta only
    rw [hrole, show ((1 : Nat) == 2) = false from rfl, Bool.false_and, Bool.false_and, bif_false]

theorem exec_dzSync_standby (t3 : Nat) (hr : dzRole s = 2) (hd : s.disc = 3) (hs : dzState s = 2)
    (hf : s.pair.syncSent.find? (fun c => c.1 == pid) = some (pid, t3)) :
    ∃ t, exec (.dzSync true id t1 pid pt a) s = .next t ∧
      t.pair.syncIn = some (id, t1, stamp) ∧
      t.getI Reg.DZ_OFFSET_THETA.z = satS 32 (rnd ((stampDiff stamp t1 - stampDiff pt t3) - 2 * s.getI Reg.DZ_ASYM_ASYM.z * 2 ^ 8) 9) ∧
      t.get Reg.DZ_DELAY_DELAY.z = (satU 32 (rnd (stampDiff stamp t1 + stampDiff pt t3) 9)).toNat := by
  obtain ⟨u, ⟨hur, -, hup, hsent⟩, hx⟩ := exec_dzSync h hp id t1 pid pt a stamp hst
  have hasym : u.getI Reg.DZ_ASYM_ASYM.z = s.getI Reg.DZ_ASYM_ASYM.z := by rw [State.getI, State.get_congr hur, State.getI]
  rw [hsent, hf, hasym] at hx
  dsimp -zeta only at hx
  rw [show dzRole u = 2 from (State.get_congr hur _).trans hr, show u.disc = 3 from (State.get_congr hur _).trans hd,
    show dzState u = 2 from (State.get_congr hur _).trans hs,
    show ((2 : Nat) == 2 && (3 : Nat) == 3 && ((2 : Nat) == 2 || (2 : Nat) == 3)) = true from rfl, bif_true] at hx
  obtain ⟨theta, htheta⟩ : ∃ x, x = rnd ((stampDiff stamp t1 - stampDiff pt t3) - 2 * s.getI Reg.DZ_ASYM_ASYM.z * 2 ^ 8) 9 := ⟨_, rfl⟩
  obtain ⟨delay, hdelay⟩ : ∃ x, x = rnd (stampDiff stamp t1 + stampDiff pt t3) 9 := ⟨_, rfl⟩
  rw [← htheta, ← hdelay] at hx ⊢
  obtain ⟨v, hv⟩ : ∃ v, v = u.putI Reg.DZ_OFFSET_THETA.z (satS 32 theta) := ⟨_, rfl⟩
  obtain ⟨w, hw⟩ : ∃ w, w = v.put Reg.DZ_DELAY_DELAY.z (satU 32 delay).toNat := ⟨_, rfl⟩
  rw [← hv, ← hw] at hx
  obtain ⟨hmp, hmg⟩ := w.measure_outside ((stampDiff stamp t1 - stampDiff pt t3) - 2 * s.getI Reg.DZ_ASYM_ASYM.z * 2 ^ 8)
  refine ⟨_, hx, ?_, ?_, ?_⟩
  · refine hmp.trans ?_
    rw [hw, State.put_pair, hv, State.putI_pair, hup]
  · rw [State.getI, hmg Reg.DZ_OFFSET_THETA.z (by decide) (.inl (by decide)), hw, State.get_put_apart _ _ (.inl (by decide)), hv]
    have hread := State.getI_putI u (l := Reg.DZ_OFFSET_THETA.z) rfl rfl (satS 32 theta)
    rw [State.getI, satS_satS] at hread
    exact hread
  · refine (hmg Reg.DZ_DELAY_DELAY.z (by decide) (.inl (by decide))).trans ?_
    rw [hw, State.get_put_same _ _ _ (by decide)]
    exact Nat.mod_eq_of_lt (satU_lt _)

end

/-- Settles O56: a cell by its class (`cells_answer`), and each cell's effect by its own lemma. -/
theorem pairCellsComplete : Obligations.PairCellsComplete := by
  refine ⟨fun s a b c d e f x y ok l hl => cells_answer (cells_arrive s a b c d e f x y ok l) fun _ => State.cellIn_down ok hl,
    fun s a b c d e f x y l hl hp => cells_answer (cells_arrive s a b c d e f x y true l) fun _ => State.cellIn_alone hl hp,
    fun s a b c d e f x y l hl => cells_answer (cells_arrive s a b c d e f x y false l) fun _ => State.cellIn_bad hl,
    fun s a b c d e f x y hl hp hn => cells_answer (reliableCells_arrive s a b c d e f x y) fun _ => State.reliableIn_other hl hp hn,
    fun s a b c d e f l hl hp hs => cells_answer (onceCells_arrive s a b c d e f l) fun _ => State.onceIn_seen hl hp hs,
    fun s role mode pcnt gen ack hl hp hs hr hset => exec_dzHeartbeat_synced hl hp role mode pcnt gen ack hs hr hset,
    fun s role pstate mode pcnt gen ack hl hp hs => exec_dzHeartbeat_returns hl hp role pstate mode pcnt gen ack hs,
    fun s m role pcnt digest gen serial hl hp hs hr hset h2 => by
      subst h2
      exact exec_dzJoin_primary hl hp m pcnt digest gen serial hs hr hset,
    fun s m pcnt digest gen serial hl hp hs hr hset hc => exec_dzJoin_standby hl hp m pcnt digest gen serial hs hr hset hc,
    fun s id t1 pid pt a stamp hl hp hr hst => exec_dzSync_primary hl hp id t1 pid pt a stamp hst hr,
    fun s id t1 pid pt a stamp t3 hl hp hr hd hs hf hst => exec_dzSync_standby hl hp id t1 pid pt a stamp hst t3 hr hd hs hf,
    fun s n st first key oseq digest hl hp hn hs => exec_dzOrder_new hl hp hn st first key oseq digest hs,
    fun s n st first key oseq digest r hl hp hn hs hk hle hq hh => exec_dzOrder_made hl hp hn st first key oseq digest r hs hk hle hq hh,
    fun s n st oseq hl hp hn => exec_dzSent hl hp hn st oseq, fun s n st epoch first hl hp hn hr _ he hf => exec_dzEpoch hl hp hn hr he hf,
    fun s n st step hl hp hn hr _ hw => exec_dzStep hl hp hn hr hw, fun s n i offset hl hp hn => exec_dzIndex hl hp hn i offset,
    fun s n c a instant gen digest hl hp hn hr => exec_dzCreq_primary hl hp hn hr,
    fun s u n c a instant gen digest hl hp hn hr hu => exec_dzCreq_standby hl hp hn hr hu,
    fun s n code need avail r hl hp hreq hw hh _ hn hc => exec_dzCresp hl hp hn hreq hw hh hc,
    fun s r hreq hw hh _ => ⟨_, rfl, State.partnerAnswer_refuses hreq hw hh (by decide)⟩,
    fun s n op hl hp hn hr => exec_dzMode hl hp hn hr, fun s id src hl hp hs ht hm hr => exec_dzWake hl hp hs src ht hm hr,
    fun s id u firing tag tq elem hl hp hs => exec_dzFireA hl hp hs u firing tag tq elem,
    fun s id body f hl hp hs hf hh => exec_dzFireB hl hp hs body f hf hh,
    fun s id g num tag hl hp hg hs hrun hr ht => exec_dzArm_pends hl hp hs hg hrun hr ht,
    fun s id g num tag hl hp hg hs hrun hr ht => exec_dzArm_late hl hp hs hg hrun hr ht,
    fun s id g num hl hp hg hs ha hf => exec_dzRelease_first hl hp hs hg ha hf,
    fun s id g num hl hp hg hs ha hf => exec_dzRelease_race hl hp hs hg ha hf, fun s ack hl hp hw => exec_dzAck hl hp hw⟩

end Sys2Proof.Machine
end

section
/-!
SUPPORT of O48: what leaves the engine, and what the queue of a stream and a host ring leave (16 R506, R507).
-/
namespace Sys2Proof.Machine

/-! ### What has left the engine stays -/

/-- What has left the engine before `t` is a part of what has left it then. -/
def OutKept (s t : State) : Prop := s.out ⊆ t.out

namespace OutKept

theorem of {s t : State} (h : t.out = s.out) : OutKept s t := fun _ hx => h ▸ hx
theorem refl (s : State) : OutKept s s := of rfl
theorem trans {a b c : State} (h : OutKept a b) (k : OutKept b c) : OutKept a c := fun _ hx => k (h hx)
theorem cond {s a b : State} (c : Bool) (ha : OutKept s a) (hb : OutKept s b) : OutKept s (bif c then a else b) := by
  cases c <;> assumption

theorem foldl {β : Type} (f : State → β → State) (h : ∀ a b, OutKept a (f a b)) (l : List β) (s : State) : OutKept s (l.foldl f s) := by
  induction l generalizing s with
  | nil => exact refl s
  | cons b l ih => exact (h s b).trans (ih _)

theorem put (s : State) (l : Loc) (v : Nat) : OutKept s (s.put l v) := of (State.put_out ..)
theorem emit (s : State) (x : Out) : OutKept s (s.emit x) := List.subset_cons_self x s.out

theorem setLog (s : State) (l : List (Nat × Nat)) : OutKept s (s.setLog l) := of rfl
theorem evSubs (s : State) (n : Nat) : OutKept s (s.evSubs n) := of rfl
theorem evCount (s : State) (n : Nat) : OutKept s (s.evCount n) := cond _ (put ..) (put ..)
theorem evTrig (s : State) (en : Bool) (n tag : Nat) : OutKept s (s.evTrig en n tag) :=
  cond _ (foldl _ (fun a _ => cond _ (of (State.pushPulse_out a _ _ _)) (refl a)) _ s) (refl s)
theorem evHold (s : State) (n tag : Nat) : OutKept s (s.evHold n tag) := (put ..).trans (of (State.put96_out ..))
theorem evMsix (s : State) (n : Nat) : OutKept s (s.evMsix n) := cond _ (cond _ (put ..) (emit ..)) (refl s)

theorem raiseCore (fuel : Nat) : ∀ (s : State) (n tag : Nat), OutKept s (State.raiseCore fuel s n tag) := by
  induction fuel with
  | zero => exact fun s _ _ => refl s
  | succ fuel ih =>
    intro s n tag
    have ha : OutKept s (s.counted n tag) := (evCount s n).trans (evTrig ..)
    have hd := ha.trans (evHold (s.counted n tag) n tag)
    have he := hd.trans (evMsix _ n)
    have hr : OutKept s (((s.counted n tag).evHold n tag).routes fuel n tag) :=
      cond _ hd (cond _ (he.trans ((evSubs _ n).trans
        (foldl _ (fun a _ => (of (State.oapSpoil_out a 4 1)).trans (ih ..)) _ _))) he)
    have ht := cond (s.on (evPend n)) ha hr
    rw [State.raiseCore_succ]
    exact ht.trans (cond _ (cond _ ((setLog ..).trans (ih ..)) (setLog ..)) (refl _))

theorem ev (s : State) (n : Nat) : OutKept s (s.ev n) := raiseCore 8 s n s.now

end OutKept

/-! ### The queue of a stream -/

/-- From `s` to `t` HEAD of ring `r`, memory and what has left the engine stay. -/
structure QueueOp (r : Nat) (s t : State) : Prop where
  frame : Frame (fun l => l.apart (Reg.HRG_STAT_HEAD.e r)) s t
  mem : t.mem = s.mem
  out : OutKept s t

namespace QueueOp

variable {r : Nat} {s t u : State}

theorem refl (s : State) : QueueOp r s s := ⟨.refl s, rfl, .refl s⟩
theorem trans (h : QueueOp r s t) (k : QueueOp r t u) : QueueOp r s u := ⟨h.frame.trans k.frame, k.mem.trans h.mem, h.out.trans k.out⟩
theorem cond (c : Bool) (h : QueueOp r s t) (k : QueueOp r s u) : QueueOp r s (bif c then t else u) := by cases c <;> assumption
theorem foldl {β : Type} {f : State → β → State} (h : ∀ a b, QueueOp r a (f a b)) (l : List β) (s : State) :
    QueueOp r s (l.foldl f s) := by
  induction l generalizing s with
  | nil => exact refl s
  | cons b l ih => exact (h s b).trans (ih _)

theorem head (h : QueueOp r s t) : t.get (Reg.HRG_STAT_HEAD.e r) = s.get (Reg.HRG_STAT_HEAD.e r) :=
  h.frame.get _ (array_not_event (a := 0x3A01010) (by decide) _) fun _ hm => hm

theorem setHostRing (s : State) (k : Nat) (x : HostRing) : QueueOp r s (s.setHostRing k x) := ⟨.of_regs rfl, rfl, .of rfl⟩
theorem setStream (s : State) (st : Nat) (x : Stream) : QueueOp r s (s.setStream st x) := ⟨.of_regs rfl, rfl, .of rfl⟩
theorem put (s : State) {l : Loc} (v : Nat) (h : l.apart (Reg.HRG_STAT_HEAD.e r)) (he : ¬ eventWord l.off) : QueueOp r s (s.put l v) :=
  ⟨.put s v h he, State.put_mem .., .put ..⟩
theorem ev (s : State) {n : Nat} (h : n < 512) : QueueOp r s (s.ev n) := ⟨.ev s h, State.ev_mem .., .ev ..⟩

theorem ringStarve (s : State) (k : Nat) : QueueOp r s (s.ringStarve k) := by
  have hw : (Reg.HRG_STAT_STARVED.e k).apart (Reg.HRG_STAT_HEAD.e r) := .inr ⟨(by decide : 16 + 1 ≤ 32), .inl (by decide : 0 + 16 ≤ 16)⟩
  have hset (c : Bool) (x : HostRing) : QueueOp r s (bif c then s.setHostRing k x else s) := cond c (setHostRing ..) (refl s)
  unfold State.ringStarve
  exact cond _ ((hset _ _).trans ((put _ _ hw (array_not_event (a := 0x3A01010) (by decide) _)).trans (ev _ (by decide)))) (hset _ _)

theorem setQueue (s : State) (st : Nat) (l : List QRec) : QueueOp r s (s.setQueue st l) := by
  have hw : (Reg.STR_SSTAT_FILL.e st).apart (Reg.HRG_STAT_HEAD.e r) := .inl (stride_ne (a := 0x3A01010) (b := 0x3A4000C) (by decide) r st)
  unfold State.setQueue
  exact ((setStream ..).trans (put _ _ hw (array_not_event (a := 0x3A4000C) (by decide) _))).trans (foldl ringStarve _ _)

theorem dequeue (s : State) (st : Nat) (q : QRec) : QueueOp r s (s.dequeue st q) := (setStream ..).trans (setQueue ..)

end QueueOp

/-- The only record of a queue leaves it. -/
theorem State.dequeue_only {s : State} {st : Nat} {q : QRec} (h : (s.stream st).queue = [q]) :
    ((s.dequeue st q).stream st).queue = [] := by
  unfold State.dequeue
  dsimp only
  rw [(State.stream_setQueue ..).1, h]
  exact List.filter_cons_of_neg (by simp [sameRec])

/-! ### A buffer -/

/-- A buffer with room takes the whole record at the head of a stream. -/
theorem State.fillFrom_whole {s : State} {r st len : Nat} {q : QRec} (hq : (s.stream st).queue = [q]) (hd : q.dest = 1) (hs : q.sel = r)
    (ha : q.acked = true) (ht : q.taken = 0) (hb : q.bytes ≠ []) (hlen : q.bytes.length ≤ len) :
    ∃ b : Fill, b.data = q.bytes ∧ s.fillFrom r len st [] ⟨[], 0, none, false, false⟩ = (s.dequeue st q, b) := by
  have hhead : s.ringHead r st [] = some q := by
    unfold State.ringHead
    rw [hq]
    exact if_pos ⟨hd, hs, ha, .inr rfl⟩
  have hroom : (len == 0 || false) = false := by
    rw [Bool.or_false]
    exact beq_false_of_ne (Nat.ne_of_gt ((List.length_pos_iff.mpr hb).trans_le hlen))
  have hrest : q.bytes.drop q.taken = q.bytes := by rw [ht, List.drop_zero]
  unfold State.fillFrom
  rw [hhead]
  dsimp only
  rw [hrest, show len - ([] : List Byte).length = len from rfl, hroom, bif_false, show le q.bytes.length len = true from decide_eq_true hlen,
    bif_true]
  exact ⟨_, List.take_of_length_le hlen, rfl⟩

end Sys2Proof.Machine
end

section
/-!
PROOF of O48: ports, host rings and VITA packets (16 R495 to R510).
-/
namespace Sys2Proof.Machine

/-! ### Ports -/

theorem State.strPort_setStrPort (s : State) (p : Nat) (x : StrPort) : (s.setStrPort p x).strPort p = x := tget_tset_same ..

/-- A port that transmits sends the next datagram of the stream it serves. -/
theorem exec_datagramSend {s : State} {p st : Nat} {l : List QRec} {a : Bool} (hp : s.portSends p = true) (hw : s.txWaits p = false)
    (hserve : s.serveNext p ((s.str.streams.map (·.1)).filter (s.sendable p [st] [])) = some st) (hnext : s.nextSend p st [] = some (l, a)) :
    exec (.datagramSend p [st] []) s = .next ((s.setStrPort p { s.strPort p with
      last := st, served := if st = (s.strPort p).last then (s.strPort p).served + 1 else 1 }).sendDatagram p st l a) := by
  have hread : s.str.streams.foldl (fun s e => State.checkHead [] e.1 e.2.queue.length s) s = s :=
    List.foldlRecOn (motive := (· = s)) _ _ rfl fun _ h _ _ => (checkHead_nil ..).trans h
  show execDatagramSend p [st] [] s = _
  unfold execDatagramSend
  rw [hp, hw, Bool.not_false, Bool.and_self, bif_true, hread]
  dsimp only
  rw [hserve]
  dsimp only
  rw [hnext]

/-- A PAUSE frame pauses a port that honours it. -/
theorem exec_ethFrameRx_pause {s : State} {p q : Nat} (stamp : Nat) {f : List Byte} (hl : s.on (Reg.STR_PSTAT_LINK.e p) = true)
    (hp : s.on (Reg.STR_PCFG_PAUSE.e p) = true) (hq : pauseQuanta f = some q) :
    ∃ t, exec (.ethFrameRx p stamp f []) s = .next t ∧ (t.strPort p).paused.isSome = true ∧ t.regs = s.regs := by
  obtain ⟨i, hrun⟩ : ∃ i : Nat, exec (.ethFrameRx p stamp f []) s = .next (s.setStrPort p { s.strPort p with paused := some i }) := by
    show ∃ i : Nat, execEthFrameRx p stamp f [] s = _
    unfold execEthFrameRx
    rw [hl, Bool.not_true, bif_false, hq]
    exact ⟨_, congrArg Host.Outcome.next (Bool.cond_pos hp)⟩
  exact ⟨_, hrun, by rw [State.strPort_setStrPort]; rfl, rfl⟩

/-- Any other frame outside PTP is dropped and counted. -/
theorem exec_ethFrameRx_drop {s : State} {p : Nat} (stamp : Nat) {f : List Byte} (hl : s.on (Reg.STR_PSTAT_LINK.e p) = true)
    (hq : pauseQuanta f = none) (ha : s.ptpAccepted p f = false) :
    exec (.ethFrameRx p stamp f []) s = .next (s.count (Reg.STR_PSTAT_RXDROP.e p) 1) := by
  show execEthFrameRx p stamp f [] s = _
  unfold execEthFrameRx
  rw [hl, Bool.not_true, bif_false, hq]
  exact congrArg Host.Outcome.next (Bool.cond_neg ha)

/-- A change of a port's link. -/
theorem exec_portLinkChange {s : State} {p : Nat} {b : Bool} (hl : s.on (Reg.STR_PSTAT_LINK.e p) ≠ b)
    (he : b = true → s.on (Reg.STR_PCFG_EN.e p) = true) :
    ∃ t, exec (.portLinkChange p b) s = .next t ∧ t.on (Reg.STR_PSTAT_LINK.e p) = b ∧ t.on (evPend 483) = true ∧
      (t.strPort p).paused = none := by
  have hc : (s.on (Reg.STR_PSTAT_LINK.e p) == b || (b && !s.on (Reg.STR_PCFG_EN.e p))) = false := by
    rw [beq_false_of_ne hl, Bool.false_or]
    cases b
    · rfl
    · rw [he rfl]
      rfl
  refine ⟨_, congrArg Host.Outcome.next (Bool.cond_neg hc), ?_, State.ev_pends _ 483, ?_⟩
  · rw [State.on_ev _ 483 _ (by decide) (array_not_event (a := Reg.STR_PSTAT_LINK.off) (by decide) _)]
    exact State.on_flag_same _ _ b (by decide : Reg.STR_PSTAT_LINK.lo + Reg.STR_PSTAT_LINK.w ≤ 32) (by decide : 1 ≤ Reg.STR_PSTAT_LINK.w)
  · rw [State.strPort, State.ev_str, State.flag_str, ← State.strPort, State.strPort_setStrPort]

/-! ### Host rings -/

/-- A TAIL write to a ring that is not enabled. -/
theorem exec_hrgTailWrite {s : State} {r v : Nat} (hen : s.on (Reg.HRG_CFG_EN.e r) = false) (hs : (s.hostRing r).starving = false)
    (hle : (v + 65536 - s.get (Reg.HRG_STAT_HEAD.e r)) % 65536 ≤ 2 ^ s.get (Reg.HRG_CFG_RLOG.e r)) :
    ∃ t, exec (.hrgTailWrite r v) s = .next t ∧ t.get (Reg.HRG_TAIL_TAIL.e r) = v % 65536 ∧ t.mem = s.mem := by
  have hrest : (s.put (Reg.HRG_TAIL_TAIL.e r) v).ringStarve r = s.put (Reg.HRG_TAIL_TAIL.e r) v := by
    have hon : (s.put (Reg.HRG_TAIL_TAIL.e r) v).on (Reg.HRG_CFG_EN.e r) = false := by
      rw [State.on_put_apart _ _ (.inl (shift_ne (a := Reg.HRG_CFG_EN.off) (b := Reg.HRG_TAIL_TAIL.off) (by decide) _)), hen]
    have hst : ((s.put (Reg.HRG_TAIL_TAIL.e r) v).hostRing r).starving = false := by rw [State.hostRing, State.put_str, ← State.hostRing, hs]
    unfold State.ringStarve
    dsimp only
    rw [hon, hst, Bool.false_and, Bool.false_and, Bool.false_and]
    rfl
  refine ⟨_, congrArg Host.Outcome.next ((Bool.cond_pos (decide_eq_true hle)).trans hrest), ?_, State.put_mem ..⟩
  exact State.get_put_same _ _ _ (by decide : Reg.HRG_TAIL_TAIL.lo + Reg.HRG_TAIL_TAIL.w ≤ 32)

theorem State.setHostRing_regs (s : State) (r : Nat) (x : HostRing) : (s.setHostRing r x).regs = s.regs := rfl
theorem State.mem_setHostRing (s : State) (r : Nat) (x : HostRing) : (s.setHostRing r x).mem = s.mem := rfl
theorem State.out_setHostRing (s : State) (r : Nat) (x : HostRing) : (s.setHostRing r x).out = s.out := rfl
theorem State.streams_setHostRing (s : State) (r : Nat) (x : HostRing) : (s.setHostRing r x).str.streams = s.str.streams := rfl

/-- A buffer written back. -/
theorem State.writeBack_reads (s : State) (r bytes whole : Nat) (cont head bad : Bool) (seq : Nat) :
    (s.writeBack r bytes whole cont head bad seq).get (Reg.HRG_STAT_HEAD.e r) =
        (s.get (Reg.HRG_STAT_HEAD.e r) + 1) % 2 ^ Reg.HRG_STAT_HEAD.w ∧
      (s.writeBack r bytes whole cont head bad seq).mem = s.mem ∧ OutKept s (s.writeBack r bytes whole cont head bad seq) ∧
      (s.writeBack r bytes whole cont head bad seq).str.streams = s.str.streams := by
  unfold State.writeBack
  extract_lets h base flags u v x
  have hv : v = u.put (Reg.HRG_STAT_HEAD.e r) (h + 1) := rfl
  have hu : u.mem = s.mem ∧ OutKept s u ∧ u.str = s.str := ⟨rfl, .emit .., rfl⟩
  obtain ⟨hum, huo, hus⟩ := hu
  clear_value x v u
  refine ⟨?_, ?_, ?_, ?_⟩
  · rw [State.get_congr (State.setHostRing_regs ..), hv]
    exact State.get_put_same _ _ _ (by decide : Reg.HRG_STAT_HEAD.lo + Reg.HRG_STAT_HEAD.w ≤ 32)
  · exact (State.mem_setHostRing ..).trans (by rw [hv, State.put_mem, hum])
  · exact huo.trans (hv ▸ (OutKept.put ..).trans (.of (State.out_setHostRing ..)))
  · exact (State.streams_setHostRing ..).trans (by rw [hv, State.put_str, hus])

/-- A record goes whole into a posted buffer, which is written back. -/
theorem exec_hostBufferWriteback {s : State} {r st : Nat} {d : HostDesc} {q : QRec} (hrun : s.streamsRun = true) (hsh : s.pair.shadow = false)
    (hring : s.ringRuns r 0 = true) (hok : bufferOk d = true) (hcont : s.ringCont r = none) (hq : (s.stream st).queue = [q])
    (hd : q.dest = 1) (hs : q.sel = r) (ha : q.acked = true) (ht : q.taken = 0) (hb : q.bytes ≠ []) (hlen : q.bytes.length ≤ d.len) :
    ∃ t, exec (.hostBufferWriteback r d [st] []) s = .next t ∧ (t.stream st).queue = [] ∧ Out.hostWrite d.addr q.bytes ∈ t.out ∧
      t.get (Reg.HRG_STAT_HEAD.e r) = (s.get (Reg.HRG_STAT_HEAD.e r) + 1) % 2 ^ Reg.HRG_STAT_HEAD.w ∧ t.mem = s.mem := by
  obtain ⟨b, hdata, hfill⟩ := State.fillFrom_whole hq hd hs ha ht hb hlen
  have hne : q.bytes.isEmpty = false := List.isEmpty_eq_false_iff.mpr hb
  have hdeq := State.dequeue_only hq
  have hop := QueueOp.dequeue (r := r) s st q
  have hrun : exec (.hostBufferWriteback r d [st] []) s = .next ((((s.dequeue st q).emit (.hostWrite d.addr q.bytes)).writeBack r
      q.bytes.length b.whole b.cont b.head false (b.seq.getD 0)).ringStarve r) := by
    show execHostBufferWriteback r d [st] [] s = _
    unfold execHostBufferWriteback
    rw [hrun, hsh, hring, Bool.not_false, Bool.and_self, Bool.and_self, bif_true, hok, Bool.not_true, bif_false, hcont]
    dsimp only
    rw [Option.toList_none, List.nil_append, List.foldl_cons, List.foldl_nil, List.foldl_cons, List.foldl_nil, checkHead_nil, hfill]
    dsimp only
    rw [hdata, hne, bif_false]
  generalize s.dequeue st q = u at hrun hdeq hop
  obtain ⟨x, hx⟩ : ∃ x, x = u.emit (.hostWrite d.addr q.bytes) := ⟨_, rfl⟩
  have hxout : Out.hostWrite d.addr q.bytes ∈ x.out := hx ▸ List.mem_cons_self
  have hxget : x.get (Reg.HRG_STAT_HEAD.e r) = s.get (Reg.HRG_STAT_HEAD.e r) := by rw [hx, ← hop.head]; rfl
  have hxmem : x.mem = s.mem := by rw [hx, State.emit_mem, hop.mem]
  have hxstr : x.str.streams = u.str.streams := by rw [hx, State.emit_str]
  rw [← hx] at hrun
  obtain ⟨hget, hmem, hout, hstr⟩ := x.writeBack_reads r q.bytes.length b.whole b.cont b.head false (b.seq.getD 0)
  generalize x.writeBack r q.bytes.length b.whole b.cont b.head false (b.seq.getD 0) = y at hrun hget hmem hout hstr
  have hend := QueueOp.ringStarve (r := r) y r
  refine ⟨_, hrun, ?_, hend.out (hout hxout), ?_, ?_⟩
  · rw [State.stream_congr ((y.ringStarve_streams r).trans (hstr.trans hxstr)) st, hdeq]
  · rw [hend.head, hget, hxget]
  · rw [hend.mem, hmem, hxmem]

/-! ### VITA packets -/

theorem vrtGroup_one {n : Nat} (h : 0 < n) (o : TunOut) : vrtGroup n [o] = [o] := by
  cases n with
  | zero => exact absurd h (Nat.lt_irrefl 0)
  | succ n => rfl

/-- From `s` to `t` packets of tuner `n` may close; the outputs that wait and the registers stay. -/
structure Packs (n : Nat) (s t : State) : Prop where
  regs : t.regs = s.regs
  outs : (t.tuner n).strOuts = (s.tuner n).strOuts
  closed : s.closed.length ≤ t.closed.length

/-- The start of a series, or a thinning that begins, changes the tuner's own packet numbering. -/
theorem State.vrtSeries_eq (s : State) (n : Nat) (o : TunOut) : ∃ y : Tuner, s.vrtSeries n o = s.setTuner n y ∧
    y.strOuts = (s.tuner n).strOuts ∧ ((s.tuner n).starts o = true ∨ (s.tuner n).packet = 0 → y.packet = 0) := by
  unfold State.vrtSeries
  extract_lets x z
  have hz : z.strOuts = x.strOuts ∧ (x.starts o = true ∨ x.packet = 0 → z.packet = 0) := by
    have h : z = bif x.starts o then { x with vrtPath := some o.path, vrtData := 0, vrtNext := none, packet := 0, thin := o.thin } else x := rfl
    rw [h]
    cases x.starts o with
    | false => exact ⟨rfl, fun h => h.resolve_left Bool.false_ne_true⟩
    | true => exact ⟨rfl, fun _ => rfl⟩
  clear_value z
  refine ⟨_, rfl, ?_⟩
  cases z.thinNext with
  | none => exact hz
  | some c =>
    dsimp only
    split_ifs
    · exact hz
    · exact hz

/-- A context packet closes one record. -/
theorem State.vrtContext_packs (s : State) (n : Nat) (o : TunOut) (l : List Nat) (c : Bool) :
    Packs n s (s.vrtContext n [o] l c) ∧ (s.vrtContext n [o] l c).closed.length = s.closed.length + 1 := by
  obtain ⟨y, r, hx, hy⟩ : ∃ (y : Tuner) (r : Record), s.vrtContext n [o] l c = (s.setTuner n y).close o.stream r ∧
      y.strOuts = (s.tuner n).strOuts := ⟨_, _, rfl, rfl⟩
  have hlen : ((s.setTuner n y).close o.stream r).closed.length = s.closed.length + 1 := List.length_append ..
  rw [hx]
  exact ⟨⟨rfl, (congrArg Tuner.strOuts (State.tuner_setTuner s n y)).trans hy, hlen ▸ Nat.le_succ _⟩, hlen⟩

section
variable {s : State} {n st : Nat} {o : TunOut} (hx : (s.tuner n).strOuts = [o]) (hnext : s.vrtNextOut n = some (o, st))
  (hspp : 0 < s.get (Reg.STR_SXCFG_SPP.e st))
include hx hnext hspp

/-- A data packet closes, and its outputs leave. -/
theorem exec_vrtDataPacket (hs : (s.tuner n).starts o = true ∨ (s.tuner n).packet = 0) :
    ∃ t, exec (.vrtDataPacket n true) s = .next t ∧ (t.tuner n).strOuts = [] ∧ s.closed.length < t.closed.length ∧ t.regs = s.regs := by
  obtain ⟨y, hser, hy, hpacket⟩ := s.vrtSeries_eq n o
  have hgroup : vrtGroup (s.get (Reg.STR_SXCFG_SPP.e st)) (s.tuner n).strOuts = [o] := by rw [hx, vrtGroup_one hspp]
  have hclose : vrtCloses (s.get (Reg.STR_SXCFG_SPP.e st)) true (s.tuner n).strOuts = true := by
    unfold vrtCloses
    rw [hgroup]
    rfl
  have hthin : (y.packet % 2 ^ y.thin != 0) = false := by rw [hpacket hs, Nat.zero_mod, bne_self_eq_false]
  obtain ⟨u, hu⟩ : ∃ u, u = (s.setTuner n y).setTuner n { y with strOuts := y.strOuts.drop [o].length, packet := y.packet + 1 } := ⟨_, rfl⟩
  obtain ⟨a, z, r, hrun, ha, hz⟩ : ∃ (a : State) (z : Tuner) (r : Record),
      exec (.vrtDataPacket n true) s = .next ((a.setTuner n z).close st r) ∧ Packs n u a ∧ z.strOuts = (a.tuner n).strOuts := by
    show ∃ (a : State) (z : Tuner) (r : Record), execVrtDataPacket n true s = _ ∧ _
    unfold execVrtDataPacket
    rw [hnext]
    dsimp only
    rw [hclose, bif_true, hgroup, hser, State.tuner_setTuner, hthin, bif_false, ← hu]
    refine ⟨_, _, _, rfl, ?_, rfl⟩
    generalize ((s.tuner n).starts o || _) = c
    cases c
    · exact ⟨rfl, rfl, Nat.le_refl _⟩
    · exact (u.vrtContext_packs n o _ true).1
  have huo : (u.tuner n).strOuts = [] := by rw [hu, State.tuner_setTuner, hy, hx]; rfl
  have hut : u.regs = s.regs ∧ u.closed = s.closed := by
    rw [hu]
    exact ⟨rfl, rfl⟩
  refine ⟨_, hrun, ?_, ?_, ha.regs.trans hut.1⟩
  · exact (congrArg Tuner.strOuts (State.tuner_setTuner a n z)).trans (hz.trans (ha.outs.trans huo))
  · have hlen : ((a.setTuner n z).close st r).closed.length = a.closed.length + 1 := List.length_append ..
    rw [hlen, ← hut.2]
    exact Nat.lt_succ_of_le ha.closed

/-- A context packet leaves the outputs. -/
theorem exec_vrtContextPacket : ∃ t, exec (.vrtContextPacket n) s = .next t ∧ t.closed.length = s.closed.length + 1 ∧ t.regs = s.regs ∧
    (t.tuner n).strOuts = [o] := by
  obtain ⟨y, hser, hy, -⟩ := s.vrtSeries_eq n o
  obtain ⟨l, c, hrun⟩ : ∃ l c, exec (.vrtContextPacket n) s = .next ((s.setTuner n y).vrtContext n [o] l c) := by
    show ∃ l c, execVrtContextPacket n s = _
    unfold execVrtContextPacket
    rw [hnext]
    dsimp only
    rw [hser, State.tuner_setTuner, hy, hx, show (s.setTuner n y).get (Reg.STR_SXCFG_SPP.e st) = s.get (Reg.STR_SXCFG_SPP.e st) from rfl,
      vrtGroup_one hspp]
    exact ⟨_, _, rfl⟩
  obtain ⟨hp, hlen⟩ := (s.setTuner n y).vrtContext_packs n o l c
  exact ⟨_, hrun, hlen, hp.regs, hp.outs.trans (by rw [State.tuner_setTuner, hy, hx])⟩

end

/-- Settles O48: the commands of ports, rings and VITA tuners, each by its rule. -/
theorem portAndRingCommandsComplete : Obligations.PortAndRingCommandsComplete := by
  refine ⟨fun s p h => congrArg Host.Outcome.next (Bool.cond_neg (by rw [h, Bool.false_and])),
    fun s p st l a hp hw hserve hnext _ => exec_datagramSend hp hw hserve hnext,
    fun s p stamp q f hl hp hq => exec_ethFrameRx_pause stamp hl hp hq,
    fun s p stamp f _ hl hq ha => ⟨_, exec_ethFrameRx_drop stamp hl hq ha, State.get_count _ _ 1 (by decide :
      Reg.STR_PSTAT_RXDROP.lo + Reg.STR_PSTAT_RXDROP.w ≤ 32), State.count_str ..⟩,
    fun s p b _ hl he => exec_portLinkChange hl he, fun s r v _ hen hs hle => exec_hrgTailWrite hen hs hle,
    fun s r v h => congrArg Host.Outcome.next (Bool.cond_neg (decide_eq_false (Nat.not_le.2 h))),
    fun s r d hrun hsh hring hok => ?_,
    fun s r st d q _ hrun hsh hring hok hcont hq hd hs ha ht hb hlen =>
      exec_hostBufferWriteback hrun hsh hring hok hcont hq hd hs ha ht hb hlen,
    fun s r h => congrArg Host.Outcome.next (Bool.cond_pos (by rw [show le _ _ = true from decide_eq_true h, Bool.true_or])),
    fun s => rfl, fun s r p stamp d f hport hring ha h60 hmtu hrsv hp h1 => ?_, fun s r p stamp d f hport hring h => ?_,
    fun s n h => ?_, fun s n st o x _ hx ho hs hnext hspp => ?_, fun s n st o x hx ho hnext hspp => ?_⟩
  case refine_1 =>
    exact congrArg Host.Outcome.next ((Bool.cond_pos (by rw [hrun, hsh, hring]; rfl)).trans (Bool.cond_pos (by rw [hok, Bool.not_false])))
  case refine_2 =>
    subst hport
    show execTxFrameSend r d stamp f s = _
    unfold execTxFrameSend
    dsimp only
    rw [hring, bif_true, ha, hrsv, show lt d.len 60 = false from decide_eq_false (Nat.not_lt.2 h60),
      show lt _ d.len = false from decide_eq_false (Nat.not_lt.2 hmtu), bne_self_eq_false, Bool.or_self, Bool.or_self, Bool.or_self,
      bif_false, hp, bif_true, h1, bif_false]
  case refine_3 =>
    subst hport
    refine congrArg Host.Outcome.next ((Bool.cond_pos hring).trans (Bool.cond_pos ?_))
    rw [Bool.or_eq_true, Bool.or_eq_true, Bool.or_eq_true, bne_iff_ne, bne_iff_ne, or_assoc, or_assoc]
    exact h.imp id (Or.imp decide_eq_true (Or.imp decide_eq_true id))
  case refine_4 =>
    have hnone : s.vrtNextOut n = none := by rw [State.vrtNextOut, h]; rfl
    show execVrtDataPacket n true s = _
    unfold execVrtDataPacket
    rw [hnone]
  case refine_5 =>
    subst hx
    exact exec_vrtDataPacket ho hnext hspp hs
  case refine_6 =>
    subst hx
    exact exec_vrtContextPacket ho hnext hspp

end Sys2Proof.Machine
end
